-- ==== Sys2Proof/Word.lean ====
section
/-! DEFINITION. The words of the model and the plainest of their arithmetic: registers are held in 64-bit words, a field is a run of bits of one register, signed quantities are integers. -/

namespace Sys2Proof

/-- A register, 32-bit ones in the low half (R22). -/
abbrev Word := BitVec 64

abbrev Byte := BitVec 8

/-- A place for one field: register key, lowest bit, width. -/
structure Fld where
  reg : Nat
  lo : Nat
  w : Nat
deriving DecidableEq, Repr

/-- Access types of Table 0.5. -/
inductive Access where
  | ro | rw | rh | w1c | wo | lk
deriving DecidableEq, Repr

/-- Reset classes of Table 0.6; `live` is the reset column "—" (R25). -/
inductive ResetClass where
  | p | w | f | live
deriving DecidableEq, Repr

/-- One field of a field map: lowest bit, width, access, class, reset value, and the ranges of values that are not reserved
(none given: every value is defined) (R27). -/
structure FieldDef where
  lo : Nat
  w : Nat
  acc : Access
  cls : ResetClass
  reset : Nat
  valid : List (Nat × Nat)
deriving DecidableEq, Repr

/-- One register of a block: offset of its first copy in BAR0, the counts and strides of its copies, whether it is 64 bits
wide (R22), its fields. -/
structure RegDef where
  base : Nat
  dims : List (Nat × Nat)
  wide : Bool
  fields : List FieldDef
deriving DecidableEq, Repr

end Sys2Proof
end

