-- ==== Sys2Proof/Syntax.lean ====
section
/-! DEFINITION. The commands: one constructor of `Instr` for each row of the opcode table, with the operands the row needs. A row that
is an event carries what the machine's surroundings bring to it (a sample, a measured value, the end of a test); a row that is an
instruction or a host command carries its operands. The rules named are those of the chapters. -/

namespace Sys2Proof

/-- Dies (R30). -/
inductive Die where
  | h | m
deriving DecidableEq, Repr

/-- A direction of the Flume: H-die to M-die, or back. -/
inductive Dir where
  | toM | toH
deriving DecidableEq, Repr

abbrev Port := Fin 2
/-- A pickup, with its volume, framer and decoder, write channel, channel sequencer and sled axis (Table 0.3). -/
abbrev Pickup := Fin 16
abbrev Station := Fin 8
abbrev Lane := Fin 128
/-- A Tolek engine: loop engines 0 to 31, motion engines at 32 to 47 (LE block numbering). -/
abbrev TolekEngine := Fin 48
/-- An engine pair: loop pairs 0 to 15, motion pairs at 16 to 23. -/
abbrev Pair := Fin 24

/-- The RISC-V engines (Table 1.10). -/
inductive Engine where
  | core (c : Fin 12)
  | cs (p : Fin 16)
  | wmH
  | wmM
deriving DecidableEq, Repr

/-- Who makes a register access: a host port or a RISC-V engine (R22). -/
inductive Agent where
  | port (x : Port)
  | engine (e : Engine)
deriving DecidableEq, Repr

/-- A Flume packet as it reaches a receiver: header of Table 1.3, payload words, CRC trailer (R42). -/
structure Rx where
  header : BitVec 64
  payload : List (BitVec 32)
  crc : BitVec 32
deriving DecidableEq, Repr

/-- What the link found wrong with a host write (R471). -/
inductive WriteFault where
  | none | poisoned | ecrc
deriving DecidableEq, Repr

/-- The header of a data capsule (Table 11.7), and whether all its reserved bytes and bits are 0. -/
structure DataHeader where
  tag : BitVec 16
  offset : BitVec 32
  length : BitVec 32
  pos : BitVec 16
  commit : Bool
deriving DecidableEq, Repr

/-- Resets of one port (R494, R595, R655). -/
inductive PortResetKind where
  | functionLevel | hotReset | linkDown | perst | d3hotToD0
deriving DecidableEq, Repr

/-- Where a line of the block cache stands (R543, R546), or the tag and state entry of a set. -/
inductive CacheLoc where
  | way (set : Fin 1024) (way : Fin 16)
  | victim (line : Nat)
  | evict (line : Nat)
  | tag (set : Fin 1024)
deriving DecidableEq, Repr

/-- Whether parity is good (R549). -/
inductive ParityErr where
  | none | bad
deriving DecidableEq, Repr

/-- Kind of an engine's memory access (R502). -/
inductive MemKind where
  | load | store | fetch
deriving DecidableEq, Repr

/-- What a pair's output gate meets at a tick: a heartbeat of the even and odd engine on the fabric path and on the wire path
(R424-R426), and the time from END to the tick of each, in ns (LE_SLACK_MIN). -/
structure TickIn where
  fab0 : Bool
  wire0 : Bool
  fab1 : Bool
  wire1 : Bool
  slack0 : Nat
  slack1 : Nat
deriving DecidableEq, Repr

/-- What a data input measured in a loop period: mean magnitude of its 15,000 samples in 1/256 ADC LSB (R128), samples equal to −64
or +63 (R127). -/
structure BeamIn where
  level : Nat
  clips : Nat
deriving DecidableEq, Repr

/-- One sample of a pickup's servo converters: codes of the inputs A to F (R133). -/
structure ServoSample where
  a : BitVec 12
  b : BitVec 12
  c : BitVec 12
  d : BitVec 12
  e : BitVec 12
  f : BitVec 12
deriving DecidableEq, Repr

/-- The motion converters' codes of a period: phase currents and voltages at the tick, sums over the period's 50 samples of VBUS
and of the four sled phase senses (R374). -/
structure MotionIn where
  iu : BitVec 12
  iv : BitVec 12
  iw : BitVec 12
  eu : BitVec 12
  ev : BitVec 12
  ew : BitVec 12
  vbus : Nat
  iua : Nat
  iub : Nat
  ila : Nat
  ilb : Nat
deriving DecidableEq, Repr

/-- A segment of a motion table (R385): periods, end position, end velocity. -/
structure Seg where
  n : Nat
  p : Int
  v : Int
deriving DecidableEq, Repr

/-- What the planner finds for an axis at a motion tick: the segments of a new table, where one is called for (R386). -/
abbrev AxisIn := List Seg

/-- The samples of one span of a lane (R155, R158, R166), from its first offset to 72 past its last: x[n] in 1/8 ADC LSB, and the reference
sine of the wobble under the sign of its correlation, in 1/256. Decisions of the inner and the outer neighbour (1, −1, or 0 under R177): as
first used, from 2 offsets before the span to 66 after it, and as revised, from 2 before to 2 after (R179). -/
structure SpanIn where
  x : List Int
  wobble : List Int
  inner : List Int
  outer : List Int
  innerRev : List Int
  outerRev : List Int
deriving DecidableEq, Repr

/-- What the verify lane gives for a recorded slot (R254, R270): its first-pass decisions from offset −4 to 57,347 (true: mark),
whether W was decoded as expected, held bits, asymmetry at the end of the slot. -/
structure VerifyIn where
  dec : List Bool
  wOk : Bool
  held : Nat
  asym : Int
deriving DecidableEq, Repr

/-- A defect-list entry (Table 2.15). -/
structure Defect where
  home : Nat
  kind : Nat
  repl : Nat
  session : Nat
deriving DecidableEq, Repr

/-- A valid management record as read (Tables 2.13 to 2.15): spare fills by 8 × zone + furrow, zone entries of 64 bytes by
8 × zone + beam. -/
structure MgmtRec where
  gen : Nat
  session : Nat
  closed : Bool
  dlFull : Bool
  ztValid : Bool
  volumeId : Nat
  side : Nat
  defects : List Defect
  fills : List Nat
  zt : List (List Byte)
deriving DecidableEq, Repr

/-- What the search of one copy finds (R115): its last used record position, and its candidate. -/
structure CopyFound where
  lastUsed : Option Nat
  cand : Option MgmtRec
deriving DecidableEq, Repr

/-- How an atomic step of a qualification ended (Table 8.11): well or not, and for step 5 what both copies hold. -/
structure QualIn where
  ok : Bool
  copyA : CopyFound
  copyB : CopyFound
deriving DecidableEq, Repr

/-- What hardware finds during start-up (Table 15.6): strap BOOT_SRC, ledger PLL, ROM self-test, VCO band nearest 50 %, Flume lanes
that trained in both directions, BUF_CFG as the DIMMs' configuration gives it and whether it is allowed, interface training, self-tests of
buffer, Cistern and cache, self-tests of the engines. -/
structure BootIn where
  srcHost : Bool
  ledgerPll : Bool
  rom : Bool
  band : BitVec 6
  lanesM : BitVec 16
  lanesH : BitVec 16
  bufCfg : BitVec 32
  bufGood : Bool
  bufTest : Bool
  arrayTest : Bool
  cores : BitVec 12
  wmH : Bool
  wmM : Bool
  cs : BitVec 16
  tolek : BitVec 48
deriving DecidableEq, Repr

/-- A temperature sensor: one of a die, or the laser thermistor of a pickup (R579). -/
inductive Sensor where
  | die (d : Die) (i : Fin 12)
  | laser (p : Pickup)
deriving DecidableEq, Repr

/-- A thermal level's holder: a die or a laser (R586). -/
inductive Heat where
  | die (d : Die)
  | laser (p : Pickup)
deriving DecidableEq, Repr

/-- Symbols of a unit of buffer DRAM (64 bytes from 64 × `unit`) that a device fault has changed: symbol 0 to 79, and what it was
exclusive-ored with (R533, R535). -/
structure UnitErr where
  unit : Nat
  syms : List (Nat × Byte)
deriving DecidableEq, Repr

/-- A 32-bit word of a Tolek engine. -/
abbrev Q := BitVec 32
abbrev VReg := Fin 16
abbrev Acc := Fin 4
abbrev Coef := Fin 32

/-- The commands of the opcode table. -/
inductive Instr where
  /-- REGISTER_WRITE: a write of `size` bytes of `v` at BAR0 offset `off` by `a` (R22-R27). -/
  | registerWrite (a : Agent) (off size : Nat) (v : Word)
  /-- LOWER_HALF_READ: a 4-byte read at `off`, the lower half of a 64-bit register (R22). -/
  | lowerHalfRead (a : Agent) (off : Nat)
  /-- LOWER_HALF_WRITE: a 4-byte write of the lower half of a 64-bit register (R22). -/
  | lowerHalfWrite (a : Agent) (off : Nat) (v : BitVec 32)
  /-- UPPER_HALF_WRITE: a 4-byte write of the upper half of a 64-bit register (R22). -/
  | upperHalfWrite (a : Agent) (off : Nat) (v : BitVec 32)
  /-- MISALIGNED_READ: a read of `size` bytes that is not a naturally aligned 4- or 8-byte read and lies in no single register (R22). -/
  | misalignedRead (a : Agent) (off size : Nat)
  /-- WPOP: Xsluice WPOP rd, rs1 on engine `e` (Table 12.3). -/
  | wpop (e : Engine) (rd rs1 : Fin 32)
  /-- WPEEK: Xsluice WPEEK rd, rs1. -/
  | wpeek (e : Engine) (rd rs1 : Fin 32)
  /-- WDROP: Xsluice WDROP rd, rs1. -/
  | wdrop (e : Engine) (rd rs1 : Fin 32)
  /-- WPUSH: Xsluice WPUSH rs1, rs2. -/
  | wpush (e : Engine) (rs1 rs2 : Fin 32)
  /-- WCOMMIT: Xsluice WCOMMIT rs1. -/
  | wcommit (e : Engine) (rs1 : Fin 32)
  /-- WREWIND: Xsluice WREWIND rd, rs1. -/
  | wrewind (e : Engine) (rd rs1 : Fin 32)
  /-- WCRED: Xsluice WCRED rd, rs1. -/
  | wcred (e : Engine) (rd rs1 : Fin 32)
  /-- WEIR_STALL_RESUME: the oldest stalled operation of a weir completes (R36, R37). -/
  | weirStallResume (kind index : Nat)
  /-- FLUME_TRANSMIT: the transmitter of one direction sends its next packet (R43). -/
  | flumeTransmit (d : Dir)
  /-- CREDIT: a CREDIT packet arrives. -/
  | credit (d : Dir) (p : Rx) (c0 c1 c2 c3 : Nat)
  /-- HEARTBEAT: a watermaster HEARTBEAT packet arrives (Table 10.2). -/
  | heartbeat (d : Dir) (p : Rx)
  /-- PULSE_HEARTBEAT: a heartbeat pulse reaches WM-M or WM-H; the sender's split line as seen. -/
  | pulseHeartbeat (toM : Bool) (splitHigh : Bool)
  /-- TIME_SYNC: a TIME_SYNC exchange completes with the measured offset of the H-die copy in ns (R60). -/
  | timeSync (p : Rx) (offset : Int)
  /-- TIME_SYNC_SEND: every 10 µs the H-die sends a TIME_SYNC packet. -/
  | timeSyncSend
  /-- TIME_SYNC_TIMEOUT: no exchange for 1 ms (R61). -/
  | timeSyncTimeout
  /-- REG_REQ: a register request reaches the M-die (R50). -/
  | regReq (p : Rx) (a : Agent) (write : Bool) (off size : Nat) (v : Word)
  /-- REG_RSP: a register response reaches the H-die (R50). -/
  | regRsp (p : Rx) (a : Agent) (v : Word)
  /-- EVENT: an EVENT packet arrives with the words of one weir item for the unit of its header. -/
  | event (d : Dir) (p : Rx) (words : List Word)
  /-- WRITE_DATA: a WRITE_DATA packet arrives (R256). -/
  | writeData (p : Rx)
  /-- BLOCK_HEAD: a BLOCK_HEAD packet arrives (R237). -/
  | blockHead (p : Rx)
  /-- BLOCK_DATA: a BLOCK_DATA packet arrives (R44). -/
  | blockData (p : Rx)
  /-- LANE_LOCK_LOST: a Flume lane loses lock (R46). -/
  | laneLockLost (d : Dir) (lane : Fin 16)
  /-- RETRAIN: a write of FLM_CTRL.RETRAIN (R46). -/
  | retrain
  /-- RETRAIN_DONE: a retraining ends with the lanes that passed in each direction (R47). -/
  | retrainDone (tx rx : BitVec 16)
  /-- DOWN_RETRAIN_TIMER: 10 ms have passed with the Flume down (R49). -/
  | downRetrainTimer
  /-- LINK_LOST: 30 s have passed without a carrying Flume (R443). -/
  | linkLost
  /-- LOOP_TICK: a loop-period tick for loop pair `q`: what the heartbeat paths and the output gate meet, and what the pickup's data inputs measured (R297, R128). -/
  | loopTick (q : Pickup) (t : TickIn) (beams : List BeamIn)
  /-- MOTION_TICK: a motion-period tick for motion pair 16 + `s` (R297), with the tables the planner builds for U and L. -/
  | motionTick (s : Station) (t : TickIn) (u l : AxisIn)
  /-- SERVO_VALUES_DELIVERED: the period's servo values reach both loop engines (R137): the 125 samples of the window. -/
  | servoValuesDelivered (p : Pickup) (window : List ServoSample)
  /-- MOTION_VALUES_DELIVERED: the period's motion values reach both motion engines (R374). -/
  | motionValuesDelivered (s : Station) (v : MotionIn)
  /-- INTERNAL_FAULT: an engine detects parity, a stack overflow or an illegal word (R296). -/
  | internalFault (e : TolekEngine)
  /-- ACTUATOR_FRAME: the frame of actuator link `s` begins (R149). -/
  | actuatorFrame (s : Station)
  /-- AGING_MEASUREMENT: an aging monitor measures its margin, in 0.1 % (R590). -/
  | agingMeasurement (d : Die) (m : Fin 8) (margin : Int)
  /-- AFE_SETTING_APPLY: a pending front-end setting takes effect (R125). -/
  | afeSettingApply (l : Lane)
  /-- SPLL_UNLOCK: the sampling PLL loses lock (R130). -/
  | spllUnlock
  /-- SPLL_LOCKED: the sampling PLL locks (R129, R130). -/
  | spllLocked
  /-- SPLL_RESUME: 10 µs after relock (R130). -/
  | spllResume
  /-- SPLL_FAIL: no relock within 100 ms (R131). -/
  | spllFail
  /-- RELOCK: a write of AFE_PLL_CTRL.RELOCK (R130). -/
  | relock
  /-- TH_CONVERSION: the laser thermistor is converted (R140). -/
  | thConversion (p : Pickup) (code : BitVec 12)
  /-- LANE_SLOT_START: the lane reaches slot offset 0 of the slot that its count numbers `slot` (R159). -/
  | laneSlotStart (l : Lane) (slot : Nat)
  /-- BLOCK_MARK: a block mark is found `dev` wobbles from its prediction; the sine correlations I of the slot's wobbles before it (R162, R163). -/
  | blockMark (l : Lane) (dev : Int) (corr : List Int)
  /-- WOBBLE_LOCK: four block marks in a row fall 896 wobbles apart (R161). -/
  | wobbleLock (l : Lane)
  /-- WOBBLE_LOCK_LOST: three expected block marks in a row are missed (R161). -/
  | wobbleLockLost (l : Lane)
  /-- GADDR_DECODE: the groove address word is decoded from the sums D of its 56 bits (R164). -/
  | gaddrDecode (l : Lane) (sums : List Int)
  /-- LOOP_SAT: f sits at a bound for 4,096 bits (R168). -/
  | loopSat (l : Lane)
  /-- TIMING_LOOP_LOSS: the hold at the bound lasts 16,384 bits (R168). -/
  | timingLoopLoss (l : Lane)
  /-- ANALOG_GAIN_STEP: g stays out of range for 1,024 bits: above 2.0 (`up`: the gain goes up by 6 dB) or below 0.5 (R172). -/
  | analogGainStep (l : Lane) (up : Bool)
  /-- TAG_CONTEXT_START: offset 448 (R194). -/
  | tagContextStart (l : Lane)
  /-- TAG_CONTEXT_END: offset 912, with the tag context's MSE (R194). -/
  | tagContextEnd (l : Lane) (mse : Nat)
  /-- LANDING_WINDOW_END: offset WINDOW (R193). -/
  | landingWindowEnd (l : Lane)
  /-- DEFECT_ONSET: a defect begins at slot offset `off` (R186). -/
  | defectOnset (l : Lane) (off : Nat)
  /-- DEFECT_END: the envelope returns at `off`; offset ranges in which it was below the deep threshold (R188, R189). -/
  | defectEnd (l : Lane) (off : Nat) (deep : List (Nat × Nat))
  /-- HOLD_RELEASE: 32 bits after the end (R188). -/
  | holdRelease (l : Lane)
  /-- LONG_DEFECT: a hold passes 16,384 bits (R190). -/
  | longDefect (l : Lane)
  /-- BLANK_DECISION: offset 848: how many of the offsets 0 to 847 stayed below the deep threshold (R191). -/
  | blankDecision (l : Lane) (darkBits : Nat)
  /-- SPAN_CONFIRM: a span is confirmed, or detected again first (R179). -/
  | spanConfirm (l : Lane) (s : SpanIn)
  /-- XTI_TIMEOUT: a span is confirmed as used (R180). -/
  | xtiTimeout (l : Lane) (s : SpanIn)
  /-- SNAPSHOT_LATCH: the lane latches its loop-value registers (R206). -/
  | snapshotLatch (l : Lane)
  /-- LANE_ITEM_COMMIT: the lane commits its item (R181). -/
  | laneItemCommit (l : Lane)
  /-- ITERATION_DETECT_DONE: the iteration detector returns its LLRs for the block that has waited longest (R185). -/
  | iterationDetectDone (l : Lane)
  /-- ACQUISITION_CHECK: the channel sequencer compares the acquisition snapshots (R199). -/
  | acquisitionCheck (l : Lane)
  /-- FRAMER_POP: the framer of lane `l` takes the lane's item (R211). -/
  | framerPop (l : Lane)
  /-- SYNC_CANDIDATE: the examination reaches slot offset `y` (R215). -/
  | syncCandidate (l : Lane) (y : Nat)
  /-- SEARCH_WINDOW_END: the examination ends at offset 623 (R216, R218). -/
  | searchWindowEnd (l : Lane)
  /-- TAG_DECODE: the tag of the provisional frame is decoded and checked (R221, R222). -/
  | tagDecodeStep (l : Lane)
  /-- FRAME_CONFIRM: the first resync is matched: the frame is confirmed, or the next candidate is taken (R216-R218). -/
  | frameConfirm (l : Lane)
  /-- RESYNC: the next resync is matched (R219). -/
  | resync (l : Lane)
  /-- FRAMER_COMMIT: the framer commits its item (R211). -/
  | framerCommit (l : Lane)
  /-- LDPC_DECODE_START: the decoder takes its next block (R228). -/
  | ldpcDecodeStart (p : Pickup)
  /-- LDPC_DECODE_DONE: the global iteration of the block in the decoder ends (R225-R229). -/
  | ldpcDecodeDone (p : Pickup)
  /-- OUTER_DECODE: the outer decoder runs on a cluster (R231-R234). -/
  | outerDecode (p : Pickup) (layer : Fin 10) (cluster : Nat)
  /-- RETRY_ATTEMPT: the next attempt of the retry sequence begins, or the sequence ends (R241-R245). -/
  | retryAttempt (p : Pickup)
  /-- PASS_START: s1 of the queued pass arrives (R265). -/
  | passStart (p : Pickup)
  /-- PASS_SLOT: a pass reaches its next slot (R258). -/
  | passSlot (p : Pickup)
  /-- UNDERRUN: 1 µs before a slot its item is not committed (R267). -/
  | underrun (p : Pickup)
  /-- STOP: a write of 1 to WCH_CTRL.STOP (R267). -/
  | stopPass (p : Pickup)
  /-- PASS_COMPLETE: slot s2 is recorded (R267). -/
  | passComplete (p : Pickup)
  /-- VERIFY_RESULT: the verify result of the oldest recorded block is known (R270, R271). -/
  | verifyResult (p : Pickup) (v : VerifyIn)
  /-- PARITY_SWEEP: an idle pickup starts a pass over the parity slots of `clusters` clusters of one zone (R278). -/
  | paritySweep (p : Pickup) (layer : Fin 10) (furrow : Fin 8) (cluster clusters : Nat)
  /-- SURVEY: a survey traversal ends; bit 8 × furrow + m of `blank`: that slot was blank (R282). -/
  | survey (p : Pickup) (layer : Fin 10) (cluster : Nat) (blank : BitVec 64)
  /-- NOP: Tolek NOP (Table 7.8), as are the rows to `tEnd`: engine `e` runs this instruction, which stands at its PC. -/
  | tNop (e : TolekEngine)
  /-- MOV: vd = vs. -/
  | tMov (e : TolekEngine) (d s : VReg)
  /-- LIH: vd = imm × 2^16. -/
  | tLih (e : TolekEngine) (d : VReg) (imm : BitVec 16)
  /-- LIL: vd[15:0] = imm. -/
  | tLil (e : TolekEngine) (d : VReg) (imm : BitVec 16)
  /-- LDK: vd = kn of the active bank. -/
  | tLdk (e : TolekEngine) (d : VReg) (k : Coef)
  /-- LD: vd = data word addr. -/
  | tLd (e : TolekEngine) (d : VReg) (addr : BitVec 11)
  /-- ST: data word addr = the register in d. -/
  | tSt (e : TolekEngine) (d : VReg) (addr : BitVec 11)
  /-- LDX: vd = data word (addr + vx[10:0]) mod 2,048. -/
  | tLdx (e : TolekEngine) (d x : VReg) (addr : BitVec 11)
  /-- STX: that word = the register in d. -/
  | tStx (e : TolekEngine) (d x : VReg) (addr : BitVec 11)
  /-- IN: vd = input port (R311). -/
  | tIn (e : TolekEngine) (d : VReg) (port : BitVec 6)
  /-- OUT: output port = the register in d (R311). -/
  | tOut (e : TolekEngine) (d : VReg) (port : BitVec 6)
  /-- ADD: vd = sat(vs + vt). -/
  | tAdd (e : TolekEngine) (d s t : VReg)
  /-- SUB: vd = sat(vs − vt). -/
  | tSub (e : TolekEngine) (d s t : VReg)
  /-- MUL: vd = sat(rnd(vs × vt)). -/
  | tMul (e : TolekEngine) (d s t : VReg)
  /-- MULK: vd = sat(rnd(vs × kn)). -/
  | tMulk (e : TolekEngine) (d s : VReg) (k : Coef)
  /-- NEG: vd = sat(−vs). -/
  | tNeg (e : TolekEngine) (d s : VReg)
  /-- ABS: vd = sat(abs(vs)). -/
  | tAbs (e : TolekEngine) (d s : VReg)
  /-- MIN: smaller of vs and vt. -/
  | tMin (e : TolekEngine) (d s t : VReg)
  /-- MAX: larger of vs and vt. -/
  | tMax (e : TolekEngine) (d s t : VReg)
  /-- TOLEK_CLAMP: CLAMP: vs limited to ±abs(vt). -/
  | tClamp (e : TolekEngine) (d s t : VReg)
  /-- SHL: vd = sat(vs × 2^n). -/
  | tShl (e : TolekEngine) (d s : VReg) (n : Fin 32)
  /-- SHR: vd = rnd(vs / 2^n). -/
  | tShr (e : TolekEngine) (d s : VReg) (n : Fin 32)
  /-- DIV: vd = sat(rnd(vs / vt)) (R315). -/
  | tDiv (e : TolekEngine) (d s t : VReg)
  /-- SQRT: vd = rnd(√vs) (R315). -/
  | tSqrt (e : TolekEngine) (d s : VReg)
  /-- AND: bitwise and. -/
  | tAnd (e : TolekEngine) (d s t : VReg)
  /-- OR: bitwise or. -/
  | tOr (e : TolekEngine) (d s t : VReg)
  /-- XOR: bitwise exclusive or. -/
  | tXor (e : TolekEngine) (d s t : VReg)
  /-- SRL: logical shift right. -/
  | tSrl (e : TolekEngine) (d s : VReg) (n : Fin 32)
  /-- SLL: logical shift left. -/
  | tSll (e : TolekEngine) (d s : VReg) (n : Fin 32)
  /-- ADDW: vd = (vs + vt) mod 2^32. -/
  | tAddw (e : TolekEngine) (d s t : VReg)
  /-- CLR: a = 0. -/
  | tClr (e : TolekEngine) (a : Acc)
  /-- LDA: a = vs. -/
  | tLda (e : TolekEngine) (a : Acc) (s : VReg)
  /-- MAC: a = sat(a + vs × kn). -/
  | tMac (e : TolekEngine) (a : Acc) (s : VReg) (k : Coef)
  /-- MACV: a = sat(a + vs × vt). -/
  | tMacv (e : TolekEngine) (a : Acc) (s t : VReg)
  /-- MSU: a = sat(a − vs × kn). -/
  | tMsu (e : TolekEngine) (a : Acc) (s : VReg) (k : Coef)
  /-- ADDA: a = sat(a + b). -/
  | tAdda (e : TolekEngine) (a b : Acc)
  /-- RND: vd = sat(rnd(a)). -/
  | tRnd (e : TolekEngine) (d : VReg) (a : Acc)
  /-- INT: conditional integration (R316). -/
  | tInt (e : TolekEngine) (a : Acc) (s : VReg) (k : Coef)
  /-- LIM: vs limited to ±abs(kn); sets Ha (R317). -/
  | tLim (e : TolekEngine) (d s : VReg) (k : Coef) (a : Acc)
  /-- BR: go to target. -/
  | tBr (e : TolekEngine) (target : BitVec 12)
  /-- BEQ: if equal. -/
  | tBeq (e : TolekEngine) (s t : VReg) (target : BitVec 12)
  /-- BNE: if different. -/
  | tBne (e : TolekEngine) (s t : VReg) (target : BitVec 12)
  /-- BLT: if vs < vt, signed. -/
  | tBlt (e : TolekEngine) (s t : VReg) (target : BitVec 12)
  /-- BGE: if vs ≥ vt, signed. -/
  | tBge (e : TolekEngine) (s t : VReg) (target : BitVec 12)
  /-- BBS: if the bit is 1. -/
  | tBbs (e : TolekEngine) (s : VReg) (bit : Fin 32) (target : BitVec 12)
  /-- BBC: if the bit is 0. -/
  | tBbc (e : TolekEngine) (s : VReg) (bit : Fin 32) (target : BitVec 12)
  /-- LOOP: the next instruction to `last`, count times (R318). -/
  | tLoop (e : TolekEngine) (count : BitVec 8) (last : BitVec 12)
  /-- CALL: push the next address; go to target. -/
  | tCall (e : TolekEngine) (target : BitVec 12)
  /-- RET: pop an address; go to it (R319). -/
  | tRet (e : TolekEngine)
  /-- END: end the run of the period (R319, R418). -/
  | tEnd (e : TolekEngine)
  /-- LE_CMD: a write of `v` to LE_CMD of pair `q` (R304). -/
  | leCmd (q : Pair) (v : Q)
  /-- LE_PARAM_WRITE: a write of `v` to LE_PARAMi (R303). -/
  | leParamWrite (q : Pair) (i : Fin 256) (v : Q)
  /-- LE_MEM_DATA_READ: a read of LE_MEM_DATA of engine `e` by `a` (R330, R331). -/
  | leMemDataRead (a : Agent) (e : TolekEngine)
  /-- NONE: loop command NONE is delivered to the resident loop program of pickup `p` (R334), as are the commands to `calTrim`. -/
  | loopNone (p : Pickup)
  /-- SWEEP: focus sweep (R339). -/
  | sweep (p : Pickup)
  /-- FOCUS: focus acquisition on layer A (R340). -/
  | focus (p : Pickup) (a : Byte)
  /-- PULL_IN: tracking pull-in (R342). -/
  | pullIn (p : Pickup)
  /-- JUMP: jump of A pitches, signed (R347). -/
  | jump (p : Pickup) (a : Byte)
  /-- LAYER: layer jump to layer A (R350). -/
  | layerJump (p : Pickup) (a : Byte)
  /-- HOLD: open tracking and hold it (R334). -/
  | holdTracking (p : Pickup)
  /-- RETRACT: open all loops and retract focus (R334, R664). -/
  | retract (p : Pickup) (a : Byte)
  /-- RETRY: set the retry offset (R353). -/
  | retryOffset (p : Pickup) (a : Byte)
  /-- SET_LAYER: set the believed layer (R334). -/
  | setLayer (p : Pickup) (a : Byte)
  /-- CAL_LEVEL: average level (Table 14.2). -/
  | calLevel (p : Pickup) (a : Byte) (arg : Q)
  /-- CAL_GAIN_F: focus open-loop gain. -/
  | calGainF (p : Pickup) (a : Byte) (arg : Q)
  /-- CAL_GAIN_T: tracking open-loop gain. -/
  | calGainT (p : Pickup) (a : Byte) (arg : Q)
  /-- CAL_TSENS: tracking sensitivity. -/
  | calTsens (p : Pickup) (a : Byte) (arg : Q)
  /-- CAL_TRIM: read-power trim. -/
  | calTrim (p : Pickup) (a : Byte) (arg : Q)
  /-- CAL_COMMAND_DONE: the excitation of a calibration command ends; for the gains and the sensitivity its results (R575). -/
  | calCommandDone (p : Pickup) (r0 r1 : Q)
  /-- SWEEP_END: FOCUS reaches SWEEP_END (R339). -/
  | sweepEnd (p : Pickup)
  /-- FOCUS_CAPTURE: FE changes sign with enough light (R340, R350). -/
  | focusCapture (p : Pickup)
  /-- FOCUS_LOCK: 40 good periods (R340). -/
  | focusLock (p : Pickup)
  /-- FOCUS_LOST: 4 bad periods (R341). -/
  | focusLost (p : Pickup)
  /-- TRACKING_LOCK: 40 good periods (R342, R347). -/
  | trackingLock (p : Pickup)
  /-- TRACK_LOST: 40 off-track periods (R345). -/
  | trackLost (p : Pickup)
  /-- LOOP_COMMAND_TIMEOUT: a pull-in, jump, capture or retract passes its period budget (R340, R342, R347, R350). -/
  | loopCommandTimeout (p : Pickup)
  /-- JUMP_BRAKE: half the TE cycles have passed (R347). -/
  | jumpBrake (p : Pickup)
  /-- LAYER_STEP_PHASE: a phase of a layer step ends (R350). -/
  | layerStepPhase (p : Pickup)
  /-- RETRACT_REACHED: FOCUS reaches RETRACT_POS (R334). -/
  | retractReached (p : Pickup)
  /-- POSITION_CHECK: the channel sequencer reads address `pba` from beam 0 (R343). -/
  | positionCheck (p : Pickup) (pba : BitVec 40)
  /-- SLIP: the channel sequencer acts on furrow mismatches (R346). -/
  | slip (p : Pickup)
  /-- SEEK: the next step of a seek to `target` with `at_` the last good address, the beams past the target's start on this turn or not (R349). -/
  | seek (p : Pickup) (target : BitVec 40) (at_ : BitVec 40) (passed : Bool)
  /-- STATION_REQUEST: the channel sequencer takes the next request (R500). -/
  | stationRequest (p : Pickup)
  /-- DISC_PRESENT_CHANGE: STs_DISC_N has held a new level for 10 ms (R368, R650). -/
  | discPresentChange (s : Station) (present : Bool)
  /-- CLAMP_SETTLED: 200 ms after the clamp was driven (R368). -/
  | clampSettled (s : Station)
  /-- CLAMP_REQ: a write of CLAMP_REQ (R368). -/
  | clampReq (s : Station) (v : Bool)
  /-- LP_PARK: a write of LP_PARK (R369). -/
  | lpPark (mask : Byte)
  /-- HOST_PARK: a write of 1 to WMM_STN_CTRL.PARK (R370). -/
  | hostPark (s : Station)
  /-- PARK_RETRACT_DONE: step 2 of a park ends: both pairs RETRACTED, or 400 periods have passed (R365). -/
  | parkRetractDone (s : Station) (timeout : Bool)
  /-- PARK_STOP_DONE: step 3 of a park ends (R365). -/
  | parkStopDone (s : Station)
  /-- QUALIFY_STEP_DONE: an atomic step of the qualification of pickup `p` ends (R360). -/
  | qualifyStepDone (p : Pickup) (r : QualIn)
  /-- LOOP_ESCALATION: an escalation report of a loop pair reaches the watermaster (R367). -/
  | loopEscalation (p : Pickup)
  /-- MOTION_ESCALATION: an escalation report of a motion pair reaches the watermaster (R411). -/
  | motionEscalation (s : Station)
  /-- MOTION_NONE: motion command NONE is delivered to the resident motion program of station `s` (R376), as are the commands to `sledOff`. -/
  | motionNone (s : Station)
  /-- SPIN: start, catch or change speed (R403, R405). -/
  | spin (s : Station) (a : Byte)
  /-- BRAKE: stop the spindle (R407). -/
  | brake (s : Station)
  /-- COAST: spindle outputs OFF (R376). -/
  | coast (s : Station)
  /-- HOME: home the named axes (R395). -/
  | homeAxes (s : Station) (a : Byte)
  /-- FOLLOW: following on or off (R389). -/
  | follow (s : Station) (a : Byte)
  /-- SLED_OFF: switch idle axes off (R376). -/
  | sledOff (s : Station) (a : Byte)
  /-- SPIN_MEASURE_END: the 20 ms measurement ends with this rotation (R405). -/
  | spinMeasureEnd (s : Station) (rpm : Nat) (backward : Bool)
  /-- ALIGN_END: ALIGN_PERIODS have passed (R403). -/
  | alignEnd (s : Station)
  /-- OBSERVER_LOCK: 64 good periods (R401, R403, R406). -/
  | observerLock (s : Station)
  /-- OBS_LOST: 8 bad periods (R406). -/
  | obsLost (s : Station)
  /-- START_RETRY: no lock 2 s into the ramp (R403). -/
  | startRetry (s : Station)
  /-- AT_SPEED: 200 periods within ±0.2 % (R404). -/
  | atSpeed (s : Station)
  /-- AT_SPEED_LOST: 20 periods outside ±0.5 % (R404). -/
  | atSpeedLost (s : Station)
  /-- CATCH_WINDOW_END: a catch window ends (R406). -/
  | catchWindowEnd (s : Station)
  /-- TACH_CROSSING: a zero crossing of a phase, `ns` after the one before (R397). -/
  | tachCrossing (s : Station) (phase : Fin 3) (ns : Nat)
  /-- TACH_TIMEOUT: no crossing for 50 ms (R397). -/
  | tachTimeout (s : Station)
  /-- SHORT_BRAKE_APPLY: a waiting short-brake is applied (R398). -/
  | shortBrakeApply (s : Station)
  /-- SPN_BRAKE_REQUEST: a write of 1 to SPN_CTRL.BRAKE (R398). -/
  | spnBrakeRequest (s : Station)
  /-- SPINDLE_DRIVER_FAULT: SPs_FLT_N has been active for 2 µs, or has become inactive (R399). -/
  | spindleDriverFault (s : Station) (active : Bool)
  /-- SLED_BRIDGE_FAULT: SLp_FLT_N has been active for 2 µs, or has become inactive (R384). -/
  | sledBridgeFault (p : Pickup) (active : Bool)
  /-- LIMIT_SWITCH_CHANGE: a filtered limit switch changes (R391-R394). -/
  | limitSwitchChange (p : Pickup) (outer active : Bool)
  /-- CHOPPER_DRIVE: phase A (or `b`: B) changes to DRIVE: measured current in 1/2,048 of I_FS, ns since the previous DRIVE began and since DECAY began, whether only the 12.5 µs have delayed it (R382). -/
  | chopperDrive (p : Pickup) (b : Bool) (i : Int) (drive decay : Nat) (late : Bool)
  /-- CHOPPER_DECAY: the phase changes to DECAY: measured current in 1/2,048 of I_FS, ns since DRIVE began (R382). -/
  | chopperDecay (p : Pickup) (b : Bool) (i : Int) (drive : Nat)
  /-- ILIM_CUT: the phase currents of a sample (R396). -/
  | ilimCut (s : Station) (iu iv iw : BitVec 12)
  /-- SPEED_CHANGE: channel sequencer 2s compares the target speed (R408). -/
  | speedChange (s : Station)
  /-- STATE_COPY_DONE: the state copy of a pair is complete at a tick (R421). -/
  | stateCopyDone (q : Pair)
  /-- ENGINE_TEST_DONE: the test of an engine ends (R423). -/
  | engineTestDone (e : TolekEngine) (pass : Bool)
  /-- RETEST: a write of 1 to WMM_PAIR_CTRL.RETEST (R423). -/
  | retest (q : Pair)
  /-- SWAP_DUE: the scheduled time of a role swap arrives (R430). -/
  | swapDue (q : Pair)
  /-- SWAP_SKIPPED: 1 s has passed without the swap (R431). -/
  | swapSkipped (q : Pair)
  /-- PAIR_SWAP_NOW: a write of 1 to WMM_PAIR_CTRL.SWAP_NOW (R432). -/
  | pairSwapNow (q : Pair)
  /-- JOURNAL_ACK: the STANDBY watermaster acknowledges the oldest journal entry (R434, R439). -/
  | journalAck
  /-- JOURNAL_ACK_TIMEOUT: 50 µs without an acknowledgement (R434). -/
  | journalAckTimeout
  /-- WM_HEARTBEAT_SEND: the watermaster of die `d` sends its heartbeat (R435). -/
  | wmHeartbeatSend (d : Die)
  /-- PEER_HEARTBEAT_MISSING: the watermaster of die `d` finds no peer heartbeat on a path for 300 µs (R436). -/
  | peerHeartbeatMissing (d : Die) (pulse : Bool)
  /-- WM_RESTORE_DONE: the reload and test of the failed watermaster of die `d` end (R438). -/
  | wmRestoreDone (d : Die) (pass : Bool)
  /-- WM_ROLE_SWAP: the periodic watermaster role swap falls due (R439). -/
  | wmRoleSwap
  /-- WM_SWAP_NOW: a write of 1 to WMH_CTRL.SWAP_NOW (R439). -/
  | wmSwapNow
  /-- WATCHDOG_FEED: a watermaster heartbeat reaches the watchdog of die `d` (R446). -/
  | watchdogFeed (d : Die) (fromPeer : Bool)
  /-- WATCHDOG_EXPIRY: 2 ms without a feed (R446). -/
  | watchdogExpiry (d : Die)
  /-- PS_STATION_STOPPED: under the park sequencer, the tachometer falls below 30 rpm (R448). -/
  | psStationStopped (s : Station)
  /-- CORE_HEARTBEAT: a command core writes its heartbeat (R449). -/
  | coreHeartbeat (c : Fin 12)
  /-- CORE_SILENT: a core has been silent for 300 µs, or reports a fault (R449). -/
  | coreSilent (c : Fin 12)
  /-- CORE_TEST_DONE: the reload and test of a core end (R449). -/
  | coreTestDone (c : Fin 12) (pass : Bool)
  /-- CS_FAILURE: a channel sequencer fails (R450). -/
  | csFailure (p : Pickup)
  /-- CS_RESTART_DONE: a channel sequencer restarts (R450). -/
  | csRestartDone (p : Pickup)
  /-- CAPSULE_SLOT_WRITE: a host write into intake window `n` (or data window, `data`) at window offset `off`, with what the link found wrong with it (R467-R471). -/
  | capsuleSlotWrite (x : Port) (n : Nat) (data : Bool) (off : Nat) (bytes : List Byte) (fault : WriteFault)
  /-- CAPSULE_COMMIT: the 8-byte word with COMMIT arrives at bytes 56 to 63 of an intake slot (R470). -/
  | capsuleCommit (x : Port) (n slot : Nat) (word : Word)
  /-- RESUME: a write of RESUME in an intake or data window (R471). -/
  | resume (x : Port) (n : Nat) (data : Bool) (v : BitVec 32)
  /-- RING_HEAD: a write of RING_HEAD in window `n` (R477). -/
  | ringHead (x : Port) (n : Nat) (v : BitVec 32)
  /-- DATA_CAPSULE: a data capsule commits (R474). -/
  | dataCapsule (x : Port) (n slot : Nat) (h : DataHeader) (bytes : List Byte)
  /-- SLUICE_TAKE: the Sluice takes the next committed set of queue `n` (R466). -/
  | sluiceTake (n : Nat)
  /-- GRANT_POST: the next grant of a command is posted (R473). -/
  | grantPost (n tag : Nat)
  /-- RING_RECORD_WRITE: the next record of ring `r` is written: of the completion weir of queue `src`, or an event record (R477). -/
  | ringRecordWrite (r : Nat) (src : Option Nat)
  /-- MSIX_TIMER: INT_TIME of ring `r` expires (R479). -/
  | msixTimer (r : Nat)
  /-- SLUICE_ENABLE: a write of 1 to SLC_PORT_CTRL.ENABLE through port `x` (R527). -/
  | sluiceEnable (x : Port)
  /-- READ: the core that holds queue `n` runs the READ with `tag` (R239). -/
  | hostRead (n tag : Nat)
  /-- WRITE: the core runs the WRITE (R281). -/
  | hostWrite (n tag : Nat)
  /-- FLUSH: the core runs the FLUSH (R488). -/
  | hostFlush (n tag : Nat)
  /-- VERIFY: the core runs the VERIFY (R239). -/
  | hostVerify (n tag : Nat)
  /-- PREFETCH: the core runs the PREFETCH (R239). -/
  | hostPrefetch (n tag : Nat)
  /-- MOUNT: admin MOUNT (R359). -/
  | mount (n tag : Nat)
  /-- UNMOUNT: admin UNMOUNT (R364). -/
  | unmount (n tag : Nat)
  /-- CLOSE_VOLUME: admin CLOSE_VOLUME (R288). -/
  | closeVolume (n tag : Nat)
  /-- ABORT: admin ABORT (R491). -/
  | abort (n tag : Nat)
  /-- QRESET: admin QRESET (R493). -/
  | qreset (n tag : Nat)
  /-- QCREATE_RING: admin QCREATE with KIND 0 (R476). -/
  | qcreateRing (n tag : Nat)
  /-- QCREATE_QUEUE: admin QCREATE with KIND 1 (R465). -/
  | qcreateQueue (n tag : Nat)
  /-- QDELETE: admin QDELETE (R480). -/
  | qdelete (n tag : Nat)
  /-- DEVICE_LOG: GET_LOG of page 0x01 (R525). -/
  | getDeviceLog (n tag : Nat)
  /-- IDENTITY: GET_LOG of page 0x02 (R481). -/
  | getIdentity (n tag : Nat)
  /-- DEFECT_LIST: GET_LOG of page 0x03 (R481). -/
  | getDefectList (n tag : Nat)
  /-- VOLUME_STATE: GET_LOG of page 0x04 (R482). -/
  | getVolumeState (n tag : Nat)
  /-- FEATURE_READ_AHEAD: SET_FEATURE of READ_AHEAD (R554). -/
  | featureReadAhead (n tag : Nat)
  /-- FEATURE_RESCUE: SET_FEATURE of RESCUE (R246). -/
  | featureRescue (n tag : Nat)
  /-- FEATURE_LEARN: SET_FEATURE of LEARN (R200). -/
  | featureLearn (n tag : Nat)
  /-- FEATURE_STATION_EVENTS: SET_FEATURE of STATION_EVENTS (R485). -/
  | featureStationEvents (n tag : Nat)
  /-- PROGRAM_STAGE: admin PROGRAM_STAGE (R496). -/
  | programStage (n tag : Nat)
  /-- ACTIVATE: admin ACTIVATE (R497). -/
  | activate (n tag : Nat)
  /-- CACHE_DISABLE: CACHE_CONTROL with ENABLE 0 (R551). -/
  | cacheDisable (n tag : Nat)
  /-- CACHE_ENABLE: CACHE_CONTROL with ENABLE 1 (R551). -/
  | cacheEnable (n tag : Nat)
  /-- SCRUB: admin SCRUB (R542). -/
  | scrub (n tag : Nat)
  /-- CALIBRATE: admin CALIBRATE (R578). -/
  | calibrate (n tag : Nat)
  /-- STATION_PARK: STATION_CONTROL action PARK (R481). -/
  | stationPark (n tag : Nat)
  /-- STATION_CLAMP: STATION_CONTROL action CLAMP (R481). -/
  | stationClamp (n tag : Nat)
  /-- STATION_UNCLAMP: STATION_CONTROL action UNCLAMP (R481). -/
  | stationUnclamp (n tag : Nat)
  /-- QUIET_ON: STATION_CONTROL action QUIET_ON (R481). -/
  | quietOn (n tag : Nat)
  /-- QUIET_OFF: STATION_CONTROL action QUIET_OFF (R481). -/
  | quietOff (n tag : Nat)
  /-- STATION_RESET: STATION_CONTROL action RESET (R621). -/
  | stationReset (n tag : Nat)
  /-- PORT_RESET: a reset of one port (R494). -/
  | portReset (x : Port) (k : PortResetKind)
  /-- WARM_RESET: WARM_N has been active for 1 µs (R596, R619). -/
  | warmReset (b : BootIn)
  /-- BOOT_RESET: a write of `key` to BOOT_RESET through port `x` (R596). -/
  | bootReset (x : Port) (key : BitVec 32) (b : BootIn)
  /-- POWER_ON_RESET: POR_N is released (R607). -/
  | powerOnReset (b : BootIn)
  /-- LOAD_CHUNK: BOOT_HOST_CMD with OP 1 and CLASS `c` (R617). -/
  | loadChunk (c : Fin 8)
  /-- LOAD_END: BOOT_HOST_CMD with OP 2 (R617). -/
  | loadEnd (c : Fin 8)
  /-- BOOT_GO: BOOT_HOST_CMD with OP 3; the engines' self-tests as in `b` (R617). -/
  | bootGo (b : BootIn)
  /-- WRITE_CONFIG: BOOT_HOST_CMD with OP 4 (R618). -/
  | writeConfig
  /-- FUSE_PROGRAM: BOOT_HOST_CMD with OP 5 (R617). -/
  | fuseProgram
  /-- PERSIST: the image of class `c` is persisted after ACTIVATE (R626). -/
  | persist (c : Fin 5)
  /-- CISTERN_SPILL: the middle cell written longest ago spills (R520). -/
  | cisternSpill
  /-- CISTERN_RECALL: the next spilled cell of Cistern queue `q` is recalled (R521). -/
  | cisternRecall (q : Nat)
  /-- DIRTY_WRITEBACK: a dirty line is written back (R545). -/
  | dirtyWriteback (line : Nat)
  /-- EVICTION_WRITEBACK_DONE: the write-back of a victim or eviction-buffer line completes (R546). -/
  | evictionWritebackDone (line : Nat)
  /-- MISS_FILL: a miss register's fetch completes; symbols of buffer DRAM that it finds changed (R548, R535). -/
  | missFill (line : Nat) (errs : List UnitErr)
  /-- PARITY_SCAN: the scan, or an access, reads one line or tag and finds `err` (R549). -/
  | parityScan (loc : CacheLoc) (err : ParityErr)
  /-- BLOCK_ARRIVAL: the buffer controller takes the next item of the Flume-to-cache weir (R552). -/
  | blockArrival
  /-- BUF_FILL_STALE: a write to BUF_FILL_STALE (R553). -/
  | bufFillStale (core : Fin 12) (slot : Fin 4096)
  /-- DRAIN_START: a drain trigger holds for volume `v` (R558). -/
  | drainStart (v : Pickup)
  /-- SCRUB_GO: a write of 1 to BUF_SCRUB_CTRL.GO (R541). -/
  | scrubGo
  /-- SCRUB_DONE: the scrub engine reaches the end of its range; symbols that it finds changed (R542, R535). -/
  | scrubDone (errs : List UnitErr)
  /-- INJECT_ARM: a write of 1 to BUF_INJECT.ARM (R565). -/
  | injectArm
  /-- LOG_ENTRY: the log writer takes the next item of the device log weir (R525). -/
  | logEntry
  /-- CAL_CYCLE_START: a write of 1 to CAL_PU_CTRL.START (R574). -/
  | calCycleStart (p : Pickup)
  /-- CAL_CYCLE_DONE: the hardware cycle ends with its 14 results (R574). -/
  | calCycleDone (p : Pickup) (results : List (BitVec 16))
  /-- PLL_TUNE_CHECK: TUNE is checked (R583). -/
  | pllTuneCheck (tune : Fin 1001)
  /-- PLL_BAND_STEP: an idle boundary for a pending band step (R583). -/
  | pllBandStep
  /-- PLL_CAL: a write of 1 to CAL_CTRL.PLL_CAL (R583). -/
  | pllCal
  /-- REF_CAL: a write of 1 to CAL_CTRL.REF_CAL, with the trims its two measurements give (R567, R568). -/
  | refCal (first second : BitVec 10)
  /-- SENSOR_EVALUATION: a sensor is evaluated; `temp` is a die sensor's reading (R579-R582). -/
  | sensorEvaluation (k : Sensor) (temp : BitVec 11)
  /-- STUCK_CHECK: the 10 s check: a die sensor's difference and its expected value, or a thermistor's conversions at 25 µA and 50 µA (R581). -/
  | stuckCheck (k : Sensor) (low high : Nat)
  /-- THROTTLE_HOLD_END: 10 s below THROTTLE − HYST (R586). -/
  | throttleHoldEnd (h : Heat)
  /-- LP_READ: library-port READ of `words` words (R652). -/
  | lpRead (addr : BitVec 16) (words : Nat)
  /-- LP_WRITE: library-port WRITE (R652). -/
  | lpWrite (addr : BitVec 16) (words : List (BitVec 32))
  /-- FARM: Xfurrow FARM (R512). -/
  | farm (p : Pickup) (rd rs1 rs2 : Fin 32)
  /-- FDISARM: Xfurrow FDISARM (R512). -/
  | fdisarm (p : Pickup) (rd rs1 rs2 : Fin 32)
  /-- FZLOAD: Xfurrow FZLOAD (R513). -/
  | fzload (p : Pickup) (rd rs1 rs2 : Fin 32)
  /-- FZLOAD_COMPLETE: a stalled FZLOAD returns (R513). -/
  | fzloadComplete (p : Pickup)
  /-- FPASS: Xfurrow FPASS (R514). -/
  | fpass (p : Pickup) (rd rs1 rs2 : Fin 32)
  /-- FWAITEV: Xfurrow FWAITEV (R515). -/
  | fwaitev (p : Pickup) (rd rs1 rs2 : Fin 32)
  /-- FWAITEV_RETURN: a stalled FWAITEV returns (R515). -/
  | fwaitevReturn (p : Pickup)
  /-- EXTEST: boundary-scan EXTEST comes into force (R660), as are the rows to `bypass`. -/
  | extest
  /-- SAMPLE_PRELOAD: SAMPLE/PRELOAD; the cells shifted in. -/
  | samplePreload (cells : List Bool)
  /-- IDCODE: IDCODE (R661). -/
  | idcode
  /-- HIGHZ: HIGHZ. -/
  | highz
  /-- BSCAN_CLAMP: CLAMP. -/
  | bscanClamp
  /-- EXTEST_PULSE: EXTEST_PULSE. -/
  | extestPulse
  /-- EXTEST_TRAIN: EXTEST_TRAIN. -/
  | extestTrain
  /-- BYPASS: BYPASS, or a code not listed (R659). -/
  | bypass
  /-- TAP_RESET: TRST_N or power-on (R658). -/
  | tapReset
  /-- POR_N_ACTIVE: POR_N becomes active (R596, R645). -/
  | porNActive
  /-- REPLAY_REQUEST: the sender of direction `d` receives a replay request from after the last good SEQ `seq` (R45). -/
  | replayRequest (d : Dir) (seq : Fin 4096)
  /-- PWM_CYCLE: a 40 kHz spindle PWM cycle begins (R396). -/
  | pwmCycle (s : Station)
  /-- MIXED_DECAY_BRAKE: MIXED_T has passed in mixed decay (R382). -/
  | mixedDecayBrake (p : Pickup) (b : Bool)
  /-- PLL_BAND_MEASURED: both readings of TUNE after a band step (R583). -/
  | pllBandMeasured (t1 t2 : Fin 1001)
  /-- FLASH_WRITE_DONE: the oldest flash operation completes or fails (R606). -/
  | flashWriteDone (ok : Bool)
  /-- ENGINE_MEMORY_ACCESS: a load, store or fetch of `size` bytes by a RISC-V engine (R502). -/
  | engineMemoryAccess (e : Engine) (kind : MemKind) (addr size : Nat) (v : Word) (rd : Fin 32)
  /-- CONFIGURATION_REQUEST: a PCIe configuration request reaches a port (R608). -/
  | configurationRequest (x : Port) (write : Bool) (off : Nat) (v : BitVec 32)
  /-- SLED_CENTRING_UPDATE: once per revolution (R389). -/
  | sledCentringUpdate (p : Pickup)
deriving DecidableEq, Repr

end Sys2Proof
end

