-- ==== Sys2Proof/Decode.lean ====
section
/-! DEFINITION. The commands that words spell by the bits of the opcode table. -/

namespace Sys2Proof

/-- No row of the opcode table gives bits: the commands reach the block as register accesses, packets, capsules, samples and
pins, and the encodings that the spec itself gives (Tables 7.6, 7.8, 12.3) belong to words of its engines' memories, which the
meanings read. -/
def decodeTableWord (_nbits _w : Nat) : Option Instr := none

end Sys2Proof
end

