-- ==== Sys2Proof/Config.lean ====
section
/-! DEFINITION. What an implementation fixes and the values that the spec leaves open. Every opaque constant here is a FREE VALUE: it
has no body, so that a statement about the machine holds whatever it is. -/

namespace Sys2Proof

/-- The free values that a step draws one after another: the n-th draw of the machine (log entry 2). -/
opaque Config.freeWord : Nat → BitVec 64

/-- The PCI-SIG vendor ID fused at manufacture (R616, R663). -/
opaque Config.vendorId : BitVec 16

/-- The JEP106 manufacturer code M of IDCODE, fused at manufacture (R661). -/
opaque Config.jep106 : BitVec 11

/-- The vendor's public key held in the boot ROM: an uncompressed point of 97 bytes (R610, R611), by byte index. -/
opaque Config.vendorKey : Nat → BitVec 8

/-- UNIT of a device log entry that the device itself writes, by its code: the spec names the byte and gives no value (log entry 8). -/
opaque Config.logUnit : Nat → BitVec 8

/-- Offset of the PCI Express capability in a port's configuration space: the spec lists the capability and gives no place (log entry 13). -/
opaque Config.pcieCap : Nat

/-- Offset of the MSI-X capability in a port's configuration space (log entry 13). -/
opaque Config.msixCap : Nat

/-- Coefficients of the bank in force that are the observer's gains kw and kth: R400 names them and gives no index (log entry 34). -/
opaque Config.kwIndex : Nat
opaque Config.kthIndex : Nat

/-- The temperature of R584, in 1/96 °C, while none of M-die sensors 0 to 3 is good: the spec gives none. -/
opaque Config.noSensorTemp : Int

/-- Whether a tuning level above the middle calls for the next higher band number: R583 steps "toward the centre" and gives no order of the bands. -/
opaque Config.bandsRise : Bool

/-- TEMP of a thermistor for which the formula of R580 has no value, by code, R25 and B. -/
opaque Config.thermistorTemp : Nat → Nat → Nat → BitVec 11

end Sys2Proof
end

