-- ==== Sys2Proof/Machine/RegMap.lean ====
section
/-! DEFINITION. The register map: one name per register and per field, from the field maps of the chapters (R21, Table 0.4, R70, R154, R207, R250, R290, R331, R370, R414, R415, R456, R457, R526, R527, R528, R564, R565, R593, R628).
A register is named by its BAR0 offset; the registers that are one per port at one offset (R527, R528) have port B's copy at that offset plus `portKey`. -/

namespace Sys2Proof.Machine

/-- Added to the offset of a register of which each port has its own copy at one offset, for port B's copy (R527, R528). -/
def portKey : Nat := 0x40000000

/-! ### Block GEN (12_command_cores R526) -/

def GEN_ID : Nat := 0x0
def GEN_ID_PART : Fld := ⟨GEN_ID, 0, 16⟩
def GEN_ID_STEPPING : Fld := ⟨GEN_ID, 16, 8⟩
def GEN_VENDOR : Nat := 0x4
def GEN_VENDOR_VENDOR : Fld := ⟨GEN_VENDOR, 0, 16⟩
def GEN_CONFIG : Nat := 0x8
def GEN_CONFIG_QUEUE_SCALE : Fld := ⟨GEN_CONFIG, 0, 2⟩
def GEN_CONFIG_PORT_MODE : Fld := ⟨GEN_CONFIG, 2, 1⟩
def GEN_CONFIG_SEALED : Fld := ⟨GEN_CONFIG, 3, 1⟩
def GEN_CONFIG_FATAL : Fld := ⟨GEN_CONFIG, 4, 1⟩
def GEN_RESIDENT : Nat := 0xc
def GEN_RESIDENT_VERSION : Fld := ⟨GEN_RESIDENT, 0, 32⟩
def GEN_LOG_COUNT : Nat := 0x10
def GEN_LOG_COUNT_COUNT : Fld := ⟨GEN_LOG_COUNT, 0, 32⟩
def GEN_ACCESS : Nat := 0x14
def GEN_ACCESS_SIZE : Fld := ⟨GEN_ACCESS, 0, 16⟩
def GEN_ACCESS_LOCK : Fld := ⟨GEN_ACCESS, 16, 16⟩
def GEN_SCRATCH : Nat := 0x18
def GEN_SCRATCH_VALUE : Fld := ⟨GEN_SCRATCH, 0, 64⟩
/-! ### Block SLC (12_command_cores R527) -/

def SLC_PORT_CTRL (x : Nat) : Nat := 0x10000 + 0x100 * x
def SLC_PORT_CTRL_ENABLE (x : Nat) : Fld := ⟨(SLC_PORT_CTRL x), 0, 1⟩
def SLC_PORT_STATUS (x : Nat) : Nat := 0x10004 + 0x100 * x
def SLC_PORT_STATUS_ENABLED (x : Nat) : Fld := ⟨(SLC_PORT_STATUS x), 0, 1⟩
def SLC_PORT_STATUS_OUTSTANDING (x : Nat) : Fld := ⟨(SLC_PORT_STATUS x), 1, 17⟩
def SLC_ADMIN_BASE (x : Nat) : Nat := 0x10008 + 0x100 * x
def SLC_ADMIN_BASE_BASE (x : Nat) : Fld := ⟨(SLC_ADMIN_BASE x), 12, 52⟩
def SLC_ADMIN_CFG (x : Nat) : Nat := 0x10010 + 0x100 * x
def SLC_ADMIN_CFG_SIZE_LOG2 (x : Nat) : Fld := ⟨(SLC_ADMIN_CFG x), 0, 5⟩
def SLC_ADMIN_CFG_VECTOR (x : Nat) : Fld := ⟨(SLC_ADMIN_CFG x), 16, 11⟩
def SLC_ADMIN_INT (x : Nat) : Nat := 0x10014 + 0x100 * x
def SLC_ADMIN_INT_INT_COUNT (x : Nat) : Fld := ⟨(SLC_ADMIN_INT x), 0, 8⟩
def SLC_ADMIN_INT_INT_TIME (x : Nat) : Fld := ⟨(SLC_ADMIN_INT x), 8, 8⟩
def SLC_ADMIN_INT_INT_EN (x : Nat) : Fld := ⟨(SLC_ADMIN_INT x), 16, 1⟩
def SLC_TAKEN (x : Nat) : Nat := 0x10040 + 0x100 * x
def SLC_TAKEN_COUNT (x : Nat) : Fld := ⟨(SLC_TAKEN x), 0, 32⟩
def SLC_POSTED (x : Nat) : Nat := 0x10044 + 0x100 * x
def SLC_POSTED_COUNT (x : Nat) : Fld := ⟨(SLC_POSTED x), 0, 32⟩
def SLC_INTAKE_ERRORS (x : Nat) : Nat := 0x10048 + 0x100 * x
def SLC_INTAKE_ERRORS_COUNT (x : Nat) : Fld := ⟨(SLC_INTAKE_ERRORS x), 0, 32⟩
def SLC_WINDOW_DISCARDS (x : Nat) : Nat := 0x1004c + 0x100 * x
def SLC_WINDOW_DISCARDS_COUNT (x : Nat) : Fld := ⟨(SLC_WINDOW_DISCARDS x), 0, 32⟩
def SLC_HEAD_DISCARDS (x : Nat) : Nat := 0x10050 + 0x100 * x
def SLC_HEAD_DISCARDS_COUNT (x : Nat) : Fld := ⟨(SLC_HEAD_DISCARDS x), 0, 32⟩
def SLC_LATE_DATA (x : Nat) : Nat := 0x10054 + 0x100 * x
def SLC_LATE_DATA_COUNT (x : Nat) : Fld := ⟨(SLC_LATE_DATA x), 0, 32⟩
def SLC_Q_SELECT (x : Nat) : Nat := 0x10800 + portKey * x
def SLC_Q_SELECT_NUMBER (x : Nat) : Fld := ⟨(SLC_Q_SELECT x), 0, 14⟩
def SLC_Q_INFO (x : Nat) : Nat := 0x10804 + portKey * x
def SLC_Q_INFO_INTAKE (x : Nat) : Fld := ⟨(SLC_Q_INFO x), 0, 1⟩
def SLC_Q_INFO_RING (x : Nat) : Fld := ⟨(SLC_Q_INFO x), 1, 1⟩
def SLC_Q_INFO_PORT (x : Nat) : Fld := ⟨(SLC_Q_INFO x), 2, 1⟩
def SLC_Q_INFO_OUTSTANDING (x : Nat) : Fld := ⟨(SLC_Q_INFO x), 3, 9⟩
def SLC_Q_INFO_STOPPED (x : Nat) : Fld := ⟨(SLC_Q_INFO x), 12, 1⟩
def SLC_Q_INFO_HALTED (x : Nat) : Fld := ⟨(SLC_Q_INFO x), 13, 1⟩
def SLC_Q_RING (x : Nat) : Nat := 0x10808 + portKey * x
def SLC_Q_RING_RING (x : Nat) : Fld := ⟨(SLC_Q_RING x), 0, 14⟩
def SLC_Q_RING_CORE (x : Nat) : Fld := ⟨(SLC_Q_RING x), 16, 4⟩
/-! ### Block CIS (12_command_cores R528) -/

def CIS_CTRL : Nat := 0x20000
def CIS_CTRL_LOW_FREE : Fld := ⟨CIS_CTRL, 0, 18⟩
def CIS_CTRL_RECALL_AHEAD : Fld := ⟨CIS_CTRL, 20, 4⟩
def CIS_STATUS : Nat := 0x20004
def CIS_STATUS_FREE_MIDDLE : Fld := ⟨CIS_STATUS, 0, 18⟩
def CIS_STATUS_SPILLING : Fld := ⟨CIS_STATUS, 18, 1⟩
def CIS_STATUS_DEEP_FULL : Fld := ⟨CIS_STATUS, 19, 1⟩
def CIS_DEEP_BASE : Nat := 0x20008
def CIS_DEEP_BASE_BASE : Fld := ⟨CIS_DEEP_BASE, 20, 44⟩
def CIS_DEEP_SIZE : Nat := 0x20010
def CIS_DEEP_SIZE_SIZE : Fld := ⟨CIS_DEEP_SIZE, 0, 32⟩
def CIS_DEEP_USED : Nat := 0x20014
def CIS_DEEP_USED_CELLS : Fld := ⟨CIS_DEEP_USED, 0, 32⟩
def CIS_EVENT : Nat := 0x20018
def CIS_EVENT_SPILL_BEGIN : Fld := ⟨CIS_EVENT, 0, 1⟩
def CIS_EVENT_DEEP_FULL : Fld := ⟨CIS_EVENT, 1, 1⟩
def CIS_EVENT_CORRECTED : Fld := ⟨CIS_EVENT, 2, 1⟩
def CIS_EVENT_DOUBLE : Fld := ⟨CIS_EVENT, 3, 1⟩
def CIS_Q_SELECT (x : Nat) : Nat := 0x20020 + portKey * x
def CIS_Q_SELECT_QUEUE (x : Nat) : Fld := ⟨(CIS_Q_SELECT x), 0, 15⟩
def CIS_Q_INFO (x : Nat) : Nat := 0x20024 + portKey * x
def CIS_Q_INFO_SRAM_CELLS (x : Nat) : Fld := ⟨(CIS_Q_INFO x), 0, 13⟩
def CIS_Q_INFO_DEEP_CELLS (x : Nat) : Fld := ⟨(CIS_Q_INFO x), 16, 13⟩
def CIS_SPILLS : Nat := 0x20040
def CIS_SPILLS_COUNT : Fld := ⟨CIS_SPILLS, 0, 32⟩
def CIS_RECALLS : Nat := 0x20044
def CIS_RECALLS_COUNT : Fld := ⟨CIS_RECALLS, 0, 32⟩
def CIS_RECALL_STALLS : Nat := 0x20048
def CIS_RECALL_STALLS_COUNT : Fld := ⟨CIS_RECALL_STALLS, 0, 32⟩
def CIS_CORRECTED : Nat := 0x2004c
def CIS_CORRECTED_COUNT : Fld := ⟨CIS_CORRECTED, 0, 32⟩
def CIS_DOUBLE : Nat := 0x20050
def CIS_DOUBLE_COUNT : Fld := ⟨CIS_DOUBLE, 0, 32⟩
/-! ### Block CCH (13_cache_buffer R564) -/

def CCH_CTRL : Nat := 0x30000
def CCH_CTRL_ENABLED : Fld := ⟨CCH_CTRL, 0, 1⟩
def CCH_CTRL_SCAN_EN : Fld := ⟨CCH_CTRL, 1, 1⟩
def CCH_STATUS : Nat := 0x30004
def CCH_STATUS_DIRTY_LINES : Fld := ⟨CCH_STATUS, 0, 15⟩
def CCH_STATUS_MISS_BUSY : Fld := ⟨CCH_STATUS, 16, 9⟩
def CCH_STATUS_VICTIM_LINES : Fld := ⟨CCH_STATUS, 25, 7⟩
def CCH_EVENT : Nat := 0x30008
def CCH_EVENT_PARITY_CLEAN : Fld := ⟨CCH_EVENT, 0, 1⟩
def CCH_EVENT_PARITY_DIRTY : Fld := ⟨CCH_EVENT, 1, 1⟩
def CCH_EVENT_MISS_FULL : Fld := ⟨CCH_EVENT, 2, 1⟩
def CCH_EVENT_MERGE_FULL : Fld := ⟨CCH_EVENT, 3, 1⟩
def CCH_EVENT_FILL_MISMATCH : Fld := ⟨CCH_EVENT, 4, 1⟩
def CCH_DRAIN : Nat := 0x3000c
def CCH_DRAIN_START : Fld := ⟨CCH_DRAIN, 0, 12⟩
def CCH_DRAIN_AGE : Fld := ⟨CCH_DRAIN, 12, 8⟩
def CCH_DRAIN_FULL_PCT : Fld := ⟨CCH_DRAIN, 20, 7⟩
def CCH_HITS : Nat := 0x30100
def CCH_HITS_COUNT : Fld := ⟨CCH_HITS, 0, 32⟩
def CCH_MISSES : Nat := 0x30104
def CCH_MISSES_COUNT : Fld := ⟨CCH_MISSES, 0, 32⟩
def CCH_VICTIM_HITS : Nat := 0x30108
def CCH_VICTIM_HITS_COUNT : Fld := ⟨CCH_VICTIM_HITS, 0, 32⟩
def CCH_EVICT_HITS : Nat := 0x3010c
def CCH_EVICT_HITS_COUNT : Fld := ⟨CCH_EVICT_HITS, 0, 32⟩
def CCH_MERGES : Nat := 0x30110
def CCH_MERGES_COUNT : Fld := ⟨CCH_MERGES, 0, 32⟩
def CCH_MISS_STALLS : Nat := 0x30114
def CCH_MISS_STALLS_COUNT : Fld := ⟨CCH_MISS_STALLS, 0, 32⟩
def CCH_WRITEBACKS : Nat := 0x30118
def CCH_WRITEBACKS_COUNT : Fld := ⟨CCH_WRITEBACKS, 0, 32⟩
def CCH_PARITY_CLEAN : Nat := 0x3011c
def CCH_PARITY_CLEAN_COUNT : Fld := ⟨CCH_PARITY_CLEAN, 0, 32⟩
def CCH_FILL_STALE : Nat := 0x30120
def CCH_FILL_STALE_COUNT : Fld := ⟨CCH_FILL_STALE, 0, 32⟩
def CCH_FILL_MISMATCH : Nat := 0x30124
def CCH_FILL_MISMATCH_COUNT : Fld := ⟨CCH_FILL_MISMATCH, 0, 32⟩
def CCH_ARRIVALS : Nat := 0x30128
def CCH_ARRIVALS_COUNT : Fld := ⟨CCH_ARRIVALS, 0, 32⟩
def CCH_INSTALLS : Nat := 0x3012c
def CCH_INSTALLS_COUNT : Fld := ⟨CCH_INSTALLS, 0, 32⟩
/-! ### Block BUF (13_cache_buffer R565) -/

def BUF_CFG : Nat := 0x40000
def BUF_CFG_DENSITY : Fld := ⟨BUF_CFG, 0, 1⟩
def BUF_CFG_RANKS : Fld := ⟨BUF_CFG, 1, 1⟩
def BUF_STATUS : Nat := 0x40004
def BUF_STATUS_TRAINED : Fld := ⟨BUF_STATUS, 0, 1⟩
def BUF_STATUS_SELFTEST_DONE : Fld := ⟨BUF_STATUS, 1, 1⟩
def BUF_STATUS_SELFTEST_PASS : Fld := ⟨BUF_STATUS, 2, 1⟩
def BUF_STATUS_SCRUB_BUSY : Fld := ⟨BUF_STATUS, 3, 1⟩
def BUF_STATUS_SELF_REFRESH : Fld := ⟨BUF_STATUS, 4, 1⟩
def BUF_STATUS_SIZE_GIB : Fld := ⟨BUF_STATUS, 16, 9⟩
def BUF_EVENT : Nat := 0x40008
def BUF_EVENT_CE : Fld := ⟨BUF_EVENT, 0, 1⟩
def BUF_EVENT_CE_DEVICE : Fld := ⟨BUF_EVENT, 1, 1⟩
def BUF_EVENT_UE : Fld := ⟨BUF_EVENT, 2, 1⟩
def BUF_EVENT_UE_STAGED : Fld := ⟨BUF_EVENT, 3, 1⟩
def BUF_EVENT_SELFTEST_FAIL : Fld := ⟨BUF_EVENT, 4, 1⟩
def BUF_EVENT_SCRUB_DONE : Fld := ⟨BUF_EVENT, 5, 1⟩
def BUF_EVENT_CONFIG_BAD : Fld := ⟨BUF_EVENT, 6, 1⟩
def BUF_SCRUB_START : Nat := 0x40010
def BUF_SCRUB_START_START : Fld := ⟨BUF_SCRUB_START, 6, 58⟩
def BUF_SCRUB_LENGTH : Nat := 0x40018
def BUF_SCRUB_LENGTH_LENGTH : Fld := ⟨BUF_SCRUB_LENGTH, 6, 58⟩
def BUF_SCRUB_CTRL : Nat := 0x40020
def BUF_SCRUB_CTRL_GO : Fld := ⟨BUF_SCRUB_CTRL, 0, 1⟩
def BUF_SCRUB_CTRL_MODE : Fld := ⟨BUF_SCRUB_CTRL, 1, 1⟩
def BUF_SCRUB_RESULT : Nat := 0x40028
def BUF_SCRUB_RESULT_CORRECTED : Fld := ⟨BUF_SCRUB_RESULT, 0, 32⟩
def BUF_SCRUB_RESULT_UNCORRECTABLE : Fld := ⟨BUF_SCRUB_RESULT, 32, 32⟩
def BUF_LAST_CE : Nat := 0x40030
def BUF_LAST_CE_ADDR : Fld := ⟨BUF_LAST_CE, 0, 38⟩
def BUF_LAST_CE_DEVICE : Fld := ⟨BUF_LAST_CE, 40, 4⟩
def BUF_LAST_CE_SUBCH : Fld := ⟨BUF_LAST_CE, 44, 3⟩
def BUF_LAST_UE : Nat := 0x40038
def BUF_LAST_UE_ADDR : Fld := ⟨BUF_LAST_UE, 0, 38⟩
def BUF_LAST_UE_STAGED : Fld := ⟨BUF_LAST_UE, 38, 1⟩
def BUF_FILL_STALE : Nat := 0x40040
def BUF_FILL_STALE_SLOT : Fld := ⟨BUF_FILL_STALE, 0, 12⟩
def BUF_FILL_STALE_CORE : Fld := ⟨BUF_FILL_STALE, 12, 4⟩
def BUF_INJECT : Nat := 0x40044
def BUF_INJECT_DEVICE : Fld := ⟨BUF_INJECT, 0, 4⟩
def BUF_INJECT_SUBCH : Fld := ⟨BUF_INJECT, 4, 3⟩
def BUF_INJECT_PATTERN : Fld := ⟨BUF_INJECT, 8, 8⟩
def BUF_INJECT_ARM : Fld := ⟨BUF_INJECT, 16, 1⟩
def BUF_INJECT_ARMED : Fld := ⟨BUF_INJECT, 17, 1⟩
def BUF_CE_UNITS : Nat := 0x40100
def BUF_CE_UNITS_COUNT : Fld := ⟨BUF_CE_UNITS, 0, 32⟩
def BUF_CE_DEVICE_UNITS : Nat := 0x40104
def BUF_CE_DEVICE_UNITS_COUNT : Fld := ⟨BUF_CE_DEVICE_UNITS, 0, 32⟩
def BUF_UE_UNITS : Nat := 0x40108
def BUF_UE_UNITS_COUNT : Fld := ⟨BUF_UE_UNITS, 0, 32⟩
def BUF_CE_WRITEBACKS : Nat := 0x4010c
def BUF_CE_WRITEBACKS_COUNT : Fld := ⟨BUF_CE_WRITEBACKS, 0, 32⟩
def BUF_RMW : Nat := 0x40110
def BUF_RMW_COUNT : Fld := ⟨BUF_RMW, 0, 32⟩
def BUF_SCRUB_UNITS : Nat := 0x40114
def BUF_SCRUB_UNITS_COUNT : Fld := ⟨BUF_SCRUB_UNITS, 0, 32⟩
/-! ### Block FLM (01_architecture R70) -/

def FLM_CTRL : Nat := 0x50000
def FLM_CTRL_RETRAIN : Fld := ⟨FLM_CTRL, 0, 1⟩
def FLM_CTRL_MIN_WIDTH : Fld := ⟨FLM_CTRL, 1, 2⟩
def FLM_STATUS : Nat := 0x50004
def FLM_STATUS_UP : Fld := ⟨FLM_STATUS, 0, 1⟩
def FLM_STATUS_RETRAINING : Fld := ⟨FLM_STATUS, 1, 1⟩
def FLM_STATUS_WIDTH : Fld := ⟨FLM_STATUS, 2, 2⟩
def FLM_STATUS_LEDGER_ALIGNED : Fld := ⟨FLM_STATUS, 4, 1⟩
def FLM_STATUS_SPLIT : Fld := ⟨FLM_STATUS, 5, 1⟩
def FLM_LANE_STATUS : Nat := 0x50008
def FLM_LANE_STATUS_TX_OK : Fld := ⟨FLM_LANE_STATUS, 0, 16⟩
def FLM_LANE_STATUS_RX_OK : Fld := ⟨FLM_LANE_STATUS, 16, 16⟩
def FLM_EVENT : Nat := 0x5000c
def FLM_EVENT_REPLAY : Fld := ⟨FLM_EVENT, 0, 1⟩
def FLM_EVENT_RETRAIN_DONE : Fld := ⟨FLM_EVENT, 1, 1⟩
def FLM_EVENT_LANE_DROPPED : Fld := ⟨FLM_EVENT, 2, 1⟩
def FLM_EVENT_LINK_DOWN : Fld := ⟨FLM_EVENT, 3, 1⟩
def FLM_EVENT_SKEW_EXCEEDED : Fld := ⟨FLM_EVENT, 4, 1⟩
def FLM_CRC_ERRORS : Nat := 0x50010
def FLM_CRC_ERRORS_COUNT : Fld := ⟨FLM_CRC_ERRORS, 0, 32⟩
def FLM_REPLAYS : Nat := 0x50014
def FLM_REPLAYS_COUNT : Fld := ⟨FLM_REPLAYS, 0, 32⟩
def FLM_RETRAINS : Nat := 0x50018
def FLM_RETRAINS_COUNT : Fld := ⟨FLM_RETRAINS, 0, 32⟩
def FLM_LEDGER : Nat := 0x50020
def FLM_LEDGER_TIME : Fld := ⟨FLM_LEDGER, 0, 64⟩
def FLM_LEDGER_SKEW : Nat := 0x50028
def FLM_LEDGER_SKEW_SKEW : Fld := ⟨FLM_LEDGER_SKEW, 0, 8⟩
def FLM_LEDGER_SKEW_PEAK : Fld := ⟨FLM_LEDGER_SKEW, 8, 8⟩
/-! ### Block WMH (10_watermasters R456) -/

def WMH_ROLE : Nat := 0x60000
def WMH_ROLE_ROLE : Fld := ⟨WMH_ROLE, 0, 3⟩
def WMH_ROLE_PEER_FLUME : Fld := ⟨WMH_ROLE, 3, 1⟩
def WMH_ROLE_PEER_PULSE : Fld := ⟨WMH_ROLE, 4, 1⟩
def WMH_ROLE_PEER_SPLIT : Fld := ⟨WMH_ROLE, 5, 1⟩
def WMH_ROLE_PEER_FAILED : Fld := ⟨WMH_ROLE, 6, 1⟩
def WMH_ROLE_FATAL : Fld := ⟨WMH_ROLE, 7, 1⟩
def WMH_CTRL : Nat := 0x60004
def WMH_CTRL_SWAP_PERIOD : Fld := ⟨WMH_CTRL, 0, 16⟩
def WMH_CTRL_SWAP_EN : Fld := ⟨WMH_CTRL, 16, 1⟩
def WMH_CTRL_SWAP_NOW : Fld := ⟨WMH_CTRL, 17, 1⟩
def WMH_EVENT : Nat := 0x60008
def WMH_EVENT_TAKEOVER : Fld := ⟨WMH_EVENT, 0, 1⟩
def WMH_EVENT_PEER_FAILED : Fld := ⟨WMH_EVENT, 1, 1⟩
def WMH_EVENT_PATH_FLUME : Fld := ⟨WMH_EVENT, 2, 1⟩
def WMH_EVENT_PATH_PULSE : Fld := ⟨WMH_EVENT, 3, 1⟩
def WMH_EVENT_LOCAL : Fld := ⟨WMH_EVENT, 4, 1⟩
def WMH_EVENT_SPLIT_ENTERED : Fld := ⟨WMH_EVENT, 5, 1⟩
def WMH_EVENT_SPLIT_LEFT : Fld := ⟨WMH_EVENT, 6, 1⟩
def WMH_EVENT_ROLE_SWAP : Fld := ⟨WMH_EVENT, 7, 1⟩
def WMH_EVENT_CORE_FAILED : Fld := ⟨WMH_EVENT, 8, 1⟩
def WMH_EVENT_FATAL : Fld := ⟨WMH_EVENT, 9, 1⟩
def WMH_EVENT_PEER_RESTORED : Fld := ⟨WMH_EVENT, 10, 1⟩
def WMH_FATAL : Nat := 0x6000c
def WMH_FATAL_CAUSE : Fld := ⟨WMH_FATAL, 0, 2⟩
def WMH_FATAL_TIME : Nat := 0x60010
def WMH_FATAL_TIME_TIME : Fld := ⟨WMH_FATAL_TIME, 0, 64⟩
def WMH_CORES : Nat := 0x60018
def WMH_CORES_ONLINE : Fld := ⟨WMH_CORES, 0, 12⟩
def WMH_CORES_TESTING : Fld := ⟨WMH_CORES, 16, 12⟩
def WMH_TAKEOVERS : Nat := 0x60100
def WMH_TAKEOVERS_COUNT : Fld := ⟨WMH_TAKEOVERS, 0, 32⟩
def WMH_ROLE_SWAPS : Nat := 0x60104
def WMH_ROLE_SWAPS_COUNT : Fld := ⟨WMH_ROLE_SWAPS, 0, 32⟩
def WMH_PATH_FAULTS : Nat := 0x60108
def WMH_PATH_FAULTS_COUNT : Fld := ⟨WMH_PATH_FAULTS, 0, 32⟩
def WMH_SPLITS : Nat := 0x6010c
def WMH_SPLITS_COUNT : Fld := ⟨WMH_SPLITS, 0, 32⟩
def WMH_CORE_FAILS : Nat := 0x60110
def WMH_CORE_FAILS_COUNT : Fld := ⟨WMH_CORE_FAILS, 0, 32⟩
/-! ### Block THH (14_calibration_thermal R593) -/

def THH_LIMITS : Nat := 0x70000
def THH_LIMITS_WARN : Fld := ⟨THH_LIMITS, 0, 8⟩
def THH_LIMITS_THROTTLE : Fld := ⟨THH_LIMITS, 8, 8⟩
def THH_LIMITS_PARK : Fld := ⟨THH_LIMITS, 16, 8⟩
def THH_LIMITS_HYST : Fld := ⟨THH_LIMITS, 24, 4⟩
def THH_STATUS : Nat := 0x70004
def THH_STATUS_LEVEL : Fld := ⟨THH_STATUS, 0, 2⟩
def THH_STATUS_FAST : Fld := ⟨THH_STATUS, 2, 1⟩
def THH_STATUS_HOTTEST : Fld := ⟨THH_STATUS, 3, 4⟩
def THH_STATUS_BROKEN : Fld := ⟨THH_STATUS, 7, 12⟩
def THH_EVENT : Nat := 0x70008
def THH_EVENT_WARN : Fld := ⟨THH_EVENT, 0, 1⟩
def THH_EVENT_THROTTLE : Fld := ⟨THH_EVENT, 1, 1⟩
def THH_EVENT_PARK : Fld := ⟨THH_EVENT, 2, 1⟩
def THH_EVENT_SENSOR_BROKEN : Fld := ⟨THH_EVENT, 3, 1⟩
def THH_EVENT_AGING_WARN : Fld := ⟨THH_EVENT, 4, 1⟩
def THH_EVENT_LEVEL_DOWN : Fld := ⟨THH_EVENT, 5, 1⟩
def THH_AGING_CFG : Nat := 0x7000c
def THH_AGING_CFG_WARN_LEVEL : Fld := ⟨THH_AGING_CFG, 0, 10⟩
def THH_SENSOR (i : Nat) : Nat := 0x70040 + 0x4 * i
def THH_SENSOR_TEMP (i : Nat) : Fld := ⟨(THH_SENSOR i), 0, 11⟩
def THH_SENSOR_STATE (i : Nat) : Fld := ⟨(THH_SENSOR i), 11, 3⟩
def THH_SENSOR_STALE (i : Nat) : Fld := ⟨(THH_SENSOR i), 14, 1⟩
def THH_SENSOR_PEAK (i : Nat) : Fld := ⟨(THH_SENSOR i), 16, 11⟩
def THH_AGING (m : Nat) : Nat := 0x70080 + 0x4 * m
def THH_AGING_MARGIN (m : Nat) : Fld := ⟨(THH_AGING m), 0, 11⟩
def THH_AGING_WARN (m : Nat) : Fld := ⟨(THH_AGING m), 16, 1⟩
def THH_AGING_STALE (m : Nat) : Fld := ⟨(THH_AGING m), 17, 1⟩
def THH_WARNS : Nat := 0x70100
def THH_WARNS_COUNT : Fld := ⟨THH_WARNS, 0, 32⟩
def THH_THROTTLES : Nat := 0x70104
def THH_THROTTLES_COUNT : Fld := ⟨THH_THROTTLES, 0, 32⟩
def THH_PARKS : Nat := 0x70108
def THH_PARKS_COUNT : Fld := ⟨THH_PARKS, 0, 32⟩
def THH_BROKEN : Nat := 0x7010c
def THH_BROKEN_COUNT : Fld := ⟨THH_BROKEN, 0, 32⟩
/-! ### Block CAL (14_calibration_thermal R593) -/

def CAL_CTRL : Nat := 0x680000
def CAL_CTRL_PLL_AUTO : Fld := ⟨CAL_CTRL, 0, 1⟩
def CAL_CTRL_REF_TC_EN : Fld := ⟨CAL_CTRL, 1, 1⟩
def CAL_CTRL_WPOW_TC_EN : Fld := ⟨CAL_CTRL, 2, 1⟩
def CAL_CTRL_PLL_CAL : Fld := ⟨CAL_CTRL, 3, 1⟩
def CAL_CTRL_REF_CAL : Fld := ⟨CAL_CTRL, 4, 1⟩
def CAL_LIMITS : Nat := 0x680004
def CAL_LIMITS_WARN : Fld := ⟨CAL_LIMITS, 0, 8⟩
def CAL_LIMITS_THROTTLE : Fld := ⟨CAL_LIMITS, 8, 8⟩
def CAL_LIMITS_PARK : Fld := ⟨CAL_LIMITS, 16, 8⟩
def CAL_LIMITS_HYST : Fld := ⟨CAL_LIMITS, 24, 4⟩
def CAL_STATUS : Nat := 0x680008
def CAL_STATUS_LEVEL : Fld := ⟨CAL_STATUS, 0, 2⟩
def CAL_STATUS_FAST : Fld := ⟨CAL_STATUS, 2, 1⟩
def CAL_STATUS_HOTTEST : Fld := ⟨CAL_STATUS, 3, 4⟩
def CAL_STATUS_BROKEN : Fld := ⟨CAL_STATUS, 7, 12⟩
def CAL_STATUS_THROTTLED : Fld := ⟨CAL_STATUS, 19, 1⟩
def CAL_EVENT : Nat := 0x68000c
def CAL_EVENT_WARN : Fld := ⟨CAL_EVENT, 0, 1⟩
def CAL_EVENT_THROTTLE : Fld := ⟨CAL_EVENT, 1, 1⟩
def CAL_EVENT_PARK : Fld := ⟨CAL_EVENT, 2, 1⟩
def CAL_EVENT_SENSOR_BROKEN : Fld := ⟨CAL_EVENT, 3, 1⟩
def CAL_EVENT_AGING_WARN : Fld := ⟨CAL_EVENT, 4, 1⟩
def CAL_EVENT_LEVEL_DOWN : Fld := ⟨CAL_EVENT, 5, 1⟩
def CAL_EVENT_PLL_BAND : Fld := ⟨CAL_EVENT, 6, 1⟩
def CAL_EVENT_PLL_FORCED : Fld := ⟨CAL_EVENT, 7, 1⟩
def CAL_EVENT_DEV_FAIL : Fld := ⟨CAL_EVENT, 8, 1⟩
def CAL_EVENT_CAL_REJECT : Fld := ⟨CAL_EVENT, 9, 1⟩
def CAL_EVENT_CAL_FAIL : Fld := ⟨CAL_EVENT, 10, 1⟩
def CAL_PLL : Nat := 0x680010
def CAL_PLL_TUNE : Fld := ⟨CAL_PLL, 0, 10⟩
def CAL_PLL_BAND : Fld := ⟨CAL_PLL, 10, 6⟩
def CAL_PLL_PENDING : Fld := ⟨CAL_PLL, 16, 1⟩
def CAL_REF : Nat := 0x680014
def CAL_REF_TRIM : Fld := ⟨CAL_REF, 0, 10⟩
def CAL_REF_TC : Fld := ⟨CAL_REF, 16, 10⟩
def CAL_AGING_CFG : Nat := 0x680018
def CAL_AGING_CFG_WARN_LEVEL : Fld := ⟨CAL_AGING_CFG, 0, 10⟩
def CAL_DEV_ITEMS : Nat := 0x68001c
def CAL_DEV_ITEMS_PLL : Fld := ⟨CAL_DEV_ITEMS, 0, 4⟩
def CAL_DEV_ITEMS_REF : Fld := ⟨CAL_DEV_ITEMS, 4, 4⟩
def CAL_SENSOR (i : Nat) : Nat := 0x680040 + 0x4 * i
def CAL_SENSOR_TEMP (i : Nat) : Fld := ⟨(CAL_SENSOR i), 0, 11⟩
def CAL_SENSOR_STATE (i : Nat) : Fld := ⟨(CAL_SENSOR i), 11, 3⟩
def CAL_SENSOR_STALE (i : Nat) : Fld := ⟨(CAL_SENSOR i), 14, 1⟩
def CAL_SENSOR_PEAK (i : Nat) : Fld := ⟨(CAL_SENSOR i), 16, 11⟩
def CAL_AGING (m : Nat) : Nat := 0x680080 + 0x4 * m
def CAL_AGING_MARGIN (m : Nat) : Fld := ⟨(CAL_AGING m), 0, 11⟩
def CAL_AGING_WARN (m : Nat) : Fld := ⟨(CAL_AGING m), 16, 1⟩
def CAL_AGING_STALE (m : Nat) : Fld := ⟨(CAL_AGING m), 17, 1⟩
def CAL_ACCEPTS : Nat := 0x680100
def CAL_ACCEPTS_COUNT : Fld := ⟨CAL_ACCEPTS, 0, 32⟩
def CAL_REJECTS : Nat := 0x680104
def CAL_REJECTS_COUNT : Fld := ⟨CAL_REJECTS, 0, 32⟩
def CAL_FAILS : Nat := 0x680108
def CAL_FAILS_COUNT : Fld := ⟨CAL_FAILS, 0, 32⟩
def CAL_ABANDONED : Nat := 0x68010c
def CAL_ABANDONED_COUNT : Fld := ⟨CAL_ABANDONED, 0, 32⟩
def CAL_WARNS : Nat := 0x680110
def CAL_WARNS_COUNT : Fld := ⟨CAL_WARNS, 0, 32⟩
def CAL_THROTTLES : Nat := 0x680114
def CAL_THROTTLES_COUNT : Fld := ⟨CAL_THROTTLES, 0, 32⟩
def CAL_PARKS : Nat := 0x680118
def CAL_PARKS_COUNT : Fld := ⟨CAL_PARKS, 0, 32⟩
def CAL_BAND_CHANGES : Nat := 0x68011c
def CAL_BAND_CHANGES_COUNT : Fld := ⟨CAL_BAND_CHANGES, 0, 32⟩
def CAL_BROKEN : Nat := 0x680120
def CAL_BROKEN_COUNT : Fld := ⟨CAL_BROKEN, 0, 32⟩
def CAL_PU_CTRL (p : Nat) : Nat := 0x681000 + 0x1000 * p
def CAL_PU_CTRL_START (p : Nat) : Fld := ⟨(CAL_PU_CTRL p), 0, 1⟩
def CAL_PU_CTRL_ITEM (p : Nat) : Fld := ⟨(CAL_PU_CTRL p), 1, 3⟩
def CAL_PU_STATUS (p : Nat) : Nat := 0x681004 + 0x1000 * p
def CAL_PU_STATUS_CYCLE (p : Nat) : Fld := ⟨(CAL_PU_STATUS p), 0, 1⟩
def CAL_PU_STATUS_ITEM (p : Nat) : Fld := ⟨(CAL_PU_STATUS p), 1, 4⟩
def CAL_PU_STATUS_STALE (p : Nat) : Fld := ⟨(CAL_PU_STATUS p), 5, 1⟩
def CAL_PU_STATUS_START_REFUSED (p : Nat) : Fld := ⟨(CAL_PU_STATUS p), 6, 1⟩
def CAL_PU_STATUS_WDEG (p : Nat) : Fld := ⟨(CAL_PU_STATUS p), 7, 1⟩
def CAL_PU_STATUS_LEVEL (p : Nat) : Fld := ⟨(CAL_PU_STATUS p), 8, 2⟩
def CAL_TH_CFG (p : Nat) : Nat := 0x681008 + 0x1000 * p
def CAL_TH_CFG_R25 (p : Nat) : Fld := ⟨(CAL_TH_CFG p), 0, 16⟩
def CAL_TH_CFG_B (p : Nat) : Fld := ⟨(CAL_TH_CFG p), 16, 16⟩
def CAL_TH_LIMITS (p : Nat) : Nat := 0x68100c + 0x1000 * p
def CAL_TH_LIMITS_WARN (p : Nat) : Fld := ⟨(CAL_TH_LIMITS p), 0, 8⟩
def CAL_TH_LIMITS_THROTTLE (p : Nat) : Fld := ⟨(CAL_TH_LIMITS p), 8, 8⟩
def CAL_TH_LIMITS_PARK (p : Nat) : Fld := ⟨(CAL_TH_LIMITS p), 16, 8⟩
def CAL_TH_LIMITS_HYST (p : Nat) : Fld := ⟨(CAL_TH_LIMITS p), 24, 4⟩
def CAL_TH_TEMP (p : Nat) : Nat := 0x681010 + 0x1000 * p
def CAL_TH_TEMP_TEMP (p : Nat) : Fld := ⟨(CAL_TH_TEMP p), 0, 11⟩
def CAL_TH_TEMP_STATE (p : Nat) : Fld := ⟨(CAL_TH_TEMP p), 11, 3⟩
def CAL_TH_TEMP_STALE (p : Nat) : Fld := ⟨(CAL_TH_TEMP p), 14, 1⟩
def CAL_TH_TEMP_PEAK (p : Nat) : Fld := ⟨(CAL_TH_TEMP p), 16, 11⟩
def CAL_WPOW_TC (p : Nat) : Nat := 0x681014 + 0x1000 * p
def CAL_WPOW_TC_TC (p : Nat) : Fld := ⟨(CAL_WPOW_TC p), 0, 16⟩
def CAL_PU_TSENS (p : Nat) : Nat := 0x681018 + 0x1000 * p
def CAL_PU_TSENS_SENS (p : Nat) : Fld := ⟨(CAL_PU_TSENS p), 0, 32⟩
def CAL_ITEM (p i : Nat) : Nat := 0x681020 + 0x1000 * p + 0x4 * i
def CAL_ITEM_STATE (p i : Nat) : Fld := ⟨(CAL_ITEM p i), 0, 2⟩
def CAL_ITEM_REJECTS (p i : Nat) : Fld := ⟨(CAL_ITEM p i), 2, 2⟩
def CAL_ITEM_BEAMS (p i : Nat) : Fld := ⟨(CAL_ITEM p i), 4, 8⟩
def CAL_ITEM_ACCEPTS (p i : Nat) : Fld := ⟨(CAL_ITEM p i), 16, 16⟩
def CAL_LANE_TRIM (p k : Nat) : Nat := 0x681080 + 0x1000 * p + 0x4 * k
def CAL_LANE_TRIM_GAIN_TRIM (p k : Nat) : Fld := ⟨(CAL_LANE_TRIM p k), 0, 10⟩
def CAL_PU_RESULT (p j : Nat) : Nat := 0x6810c0 + 0x1000 * p + 0x4 * j
def CAL_PU_RESULT_VALUE (p j : Nat) : Fld := ⟨(CAL_PU_RESULT p j), 0, 16⟩
/-! ### Block AFE (03_optical_front_end R154) -/

def AFE_PLL_STATUS : Nat := 0x100000
def AFE_PLL_STATUS_LOCKED : Fld := ⟨AFE_PLL_STATUS, 0, 1⟩
def AFE_PLL_STATUS_FALLBACK : Fld := ⟨AFE_PLL_STATUS, 1, 1⟩
def AFE_PLL_STATUS_VCO_BAND : Fld := ⟨AFE_PLL_STATUS, 2, 6⟩
def AFE_PLL_CTRL : Nat := 0x100004
def AFE_PLL_CTRL_RELOCK : Fld := ⟨AFE_PLL_CTRL, 0, 1⟩
def AFE_EVENT : Nat := 0x100008
def AFE_EVENT_PLL_UNLOCK : Fld := ⟨AFE_EVENT, 0, 1⟩
def AFE_EVENT_PLL_FAIL : Fld := ⟨AFE_EVENT, 1, 1⟩
def AFE_EVENT_TH_FAULT : Fld := ⟨AFE_EVENT, 2, 1⟩
def AFE_EVENT_CLIP : Fld := ⟨AFE_EVENT, 3, 1⟩
def AFE_UNLOCK_COUNT : Nat := 0x10000c
def AFE_UNLOCK_COUNT_COUNT : Fld := ⟨AFE_UNLOCK_COUNT, 0, 32⟩
def AFE_LINK_STATUS (s : Nat) : Nat := 0x100100 + 0x40 * s
def AFE_LINK_STATUS_SEQ (s : Nat) : Fld := ⟨(AFE_LINK_STATUS s), 0, 8⟩
def AFE_LINK_STATUS_WSEL (s : Nat) : Fld := ⟨(AFE_LINK_STATUS s), 8, 2⟩
def AFE_LINK_STATUS_SOURCE (s : Nat) : Fld := ⟨(AFE_LINK_STATUS s), 10, 1⟩
def AFE_LINK_STATUS_RUNNING (s : Nat) : Fld := ⟨(AFE_LINK_STATUS s), 11, 1⟩
def AFE_LINK_STATUS_ENABLES (s : Nat) : Fld := ⟨(AFE_LINK_STATUS s), 12, 8⟩
def AFE_LINK_FRAMES (s : Nat) : Nat := 0x100104 + 0x40 * s
def AFE_LINK_FRAMES_COUNT (s : Nat) : Fld := ⟨(AFE_LINK_FRAMES s), 0, 32⟩
def AFE_LINK_HELD (s : Nat) : Nat := 0x100108 + 0x40 * s
def AFE_LINK_HELD_COUNT (s : Nat) : Fld := ⟨(AFE_LINK_HELD s), 0, 32⟩
def AFE_LINK_LAST (s i : Nat) : Nat := 0x100110 + 0x40 * s + 0x4 * i
def AFE_LINK_LAST_SETPOINT_LO (s i : Nat) : Fld := ⟨(AFE_LINK_LAST s i), 0, 16⟩
def AFE_LINK_LAST_SETPOINT_HI (s i : Nat) : Fld := ⟨(AFE_LINK_LAST s i), 16, 16⟩
def AFE_PU_CTRL (p : Nat) : Nat := 0x101000 + 0x1000 * p
def AFE_PU_CTRL_RF_EN (p : Nat) : Fld := ⟨(AFE_PU_CTRL p), 0, 1⟩
def AFE_PU_CTRL_SV_EN (p : Nat) : Fld := ⟨(AFE_PU_CTRL p), 1, 1⟩
def AFE_PU_CTRL_TH_EN (p : Nat) : Fld := ⟨(AFE_PU_CTRL p), 2, 1⟩
def AFE_PU_STATUS (p : Nat) : Nat := 0x101004 + 0x1000 * p
def AFE_PU_STATUS_LOW_SUM (p : Nat) : Fld := ⟨(AFE_PU_STATUS p), 0, 1⟩
def AFE_PU_STATUS_LOW_SIDE (p : Nat) : Fld := ⟨(AFE_PU_STATUS p), 1, 1⟩
def AFE_PU_STATUS_STALE (p : Nat) : Fld := ⟨(AFE_PU_STATUS p), 2, 1⟩
def AFE_PU_STATUS_SV_OFF (p : Nat) : Fld := ⟨(AFE_PU_STATUS p), 3, 1⟩
def AFE_PU_STATUS_SV_CLIP (p : Nat) : Fld := ⟨(AFE_PU_STATUS p), 4, 1⟩
def AFE_PU_STATUS_TH_OPEN (p : Nat) : Fld := ⟨(AFE_PU_STATUS p), 5, 1⟩
def AFE_PU_STATUS_TH_SHORT (p : Nat) : Fld := ⟨(AFE_PU_STATUS p), 6, 1⟩
def AFE_PU_STATUS_PLL_UNLOCKED (p : Nat) : Fld := ⟨(AFE_PU_STATUS p), 7, 1⟩
def AFE_TE_MIX (p : Nat) : Nat := 0x101008 + 0x1000 * p
def AFE_TE_MIX_K_MPP (p : Nat) : Fld := ⟨(AFE_TE_MIX p), 0, 16⟩
def AFE_TE_MIX_K_TB (p : Nat) : Fld := ⟨(AFE_TE_MIX p), 16, 16⟩
def AFE_SUM_MIN (p : Nat) : Nat := 0x10100c + 0x1000 * p
def AFE_SUM_MIN_LEVEL (p : Nat) : Fld := ⟨(AFE_SUM_MIN p), 0, 14⟩
def AFE_SV_OFFSET (p j : Nat) : Nat := 0x101010 + 0x1000 * p + 0x4 * j
def AFE_SV_OFFSET_OFFSET (p j : Nat) : Fld := ⟨(AFE_SV_OFFSET p j), 0, 12⟩
def AFE_TH_VALUE (p : Nat) : Nat := 0x101030 + 0x1000 * p
def AFE_TH_VALUE_CODE (p : Nat) : Fld := ⟨(AFE_TH_VALUE p), 0, 12⟩
def AFE_LANE_CFG (p k : Nat) : Nat := 0x101080 + 0x1000 * p + 0x10 * k
def AFE_LANE_CFG_GAIN (p k : Nat) : Fld := ⟨(AFE_LANE_CFG p k), 0, 7⟩
def AFE_LANE_CFG_CORNER (p k : Nat) : Fld := ⟨(AFE_LANE_CFG p k), 8, 5⟩
def AFE_LANE_CFG_BOOST (p k : Nat) : Fld := ⟨(AFE_LANE_CFG p k), 16, 4⟩
def AFE_LANE_CFG_PENDING (p k : Nat) : Fld := ⟨(AFE_LANE_CFG p k), 31, 1⟩
def AFE_LANE_OFFSET (p k : Nat) : Nat := 0x101084 + 0x1000 * p + 0x10 * k
def AFE_LANE_OFFSET_OFFSET (p k : Nat) : Fld := ⟨(AFE_LANE_OFFSET p k), 0, 8⟩
def AFE_LANE_LEVEL (p k : Nat) : Nat := 0x101088 + 0x1000 * p + 0x10 * k
def AFE_LANE_LEVEL_LEVEL (p k : Nat) : Fld := ⟨(AFE_LANE_LEVEL p k), 0, 16⟩
def AFE_LANE_LEVEL_STALE (p k : Nat) : Fld := ⟨(AFE_LANE_LEVEL p k), 16, 1⟩
def AFE_LANE_CLIP (p k : Nat) : Nat := 0x10108c + 0x1000 * p + 0x10 * k
def AFE_LANE_CLIP_COUNT (p k : Nat) : Fld := ⟨(AFE_LANE_CLIP p k), 0, 32⟩
/-! ### Block RCH (04_read_channel R207) -/

def RCH_CTRL (l : Nat) : Nat := 0x200000 + 0x1000 * l
def RCH_CTRL_EN (l : Nat) : Fld := ⟨(RCH_CTRL l), 0, 1⟩
def RCH_CTRL_XTI_IN_EN (l : Nat) : Fld := ⟨(RCH_CTRL l), 1, 1⟩
def RCH_CTRL_XTI_OUT_EN (l : Nat) : Fld := ⟨(RCH_CTRL l), 2, 1⟩
def RCH_CTRL_ITER_MAX (l : Nat) : Fld := ⟨(RCH_CTRL l), 3, 2⟩
def RCH_CTRL_DEGRADED (l : Nat) : Fld := ⟨(RCH_CTRL l), 5, 1⟩
def RCH_CTRL_FORCE_LAND (l : Nat) : Fld := ⟨(RCH_CTRL l), 6, 1⟩
def RCH_CTRL_LEARN_EN (l : Nat) : Fld := ⟨(RCH_CTRL l), 7, 1⟩
def RCH_STATUS (l : Nat) : Nat := 0x200004 + 0x1000 * l
def RCH_STATUS_ACTIVE (l : Nat) : Fld := ⟨(RCH_STATUS l), 0, 1⟩
def RCH_STATUS_LANDING (l : Nat) : Fld := ⟨(RCH_STATUS l), 1, 1⟩
def RCH_STATUS_TAG_CONTEXT (l : Nat) : Fld := ⟨(RCH_STATUS l), 2, 1⟩
def RCH_STATUS_HOLD (l : Nat) : Fld := ⟨(RCH_STATUS l), 3, 1⟩
def RCH_STATUS_WOBBLE_LOCK (l : Nat) : Fld := ⟨(RCH_STATUS l), 4, 1⟩
def RCH_STATUS_BLANK (l : Nat) : Fld := ⟨(RCH_STATUS l), 5, 1⟩
def RCH_STATUS_GAIN_LIMIT (l : Nat) : Fld := ⟨(RCH_STATUS l), 6, 1⟩
def RCH_STATUS_LOOP_SAT (l : Nat) : Fld := ⟨(RCH_STATUS l), 7, 1⟩
def RCH_STATUS_STALE (l : Nat) : Fld := ⟨(RCH_STATUS l), 8, 1⟩
def RCH_STATUS_ACQUIRING (l : Nat) : Fld := ⟨(RCH_STATUS l), 9, 1⟩
def RCH_STATUS_FACTORY_SEED (l : Nat) : Fld := ⟨(RCH_STATUS l), 10, 1⟩
def RCH_EVENT (l : Nat) : Nat := 0x200008 + 0x1000 * l
def RCH_EVENT_DEFECT (l : Nat) : Fld := ⟨(RCH_EVENT l), 0, 1⟩
def RCH_EVENT_LONG_DEFECT (l : Nat) : Fld := ⟨(RCH_EVENT l), 1, 1⟩
def RCH_EVENT_TIMING_LOST (l : Nat) : Fld := ⟨(RCH_EVENT l), 2, 1⟩
def RCH_EVENT_GADDR_FAIL (l : Nat) : Fld := ⟨(RCH_EVENT l), 3, 1⟩
def RCH_EVENT_ITER_LOST (l : Nat) : Fld := ⟨(RCH_EVENT l), 4, 1⟩
def RCH_EVENT_XTI_TIMEOUT (l : Nat) : Fld := ⟨(RCH_EVENT l), 5, 1⟩
def RCH_EVENT_ACQ_REJECT (l : Nat) : Fld := ⟨(RCH_EVENT l), 6, 1⟩
def RCH_EVENT_LOOP_SAT (l : Nat) : Fld := ⟨(RCH_EVENT l), 7, 1⟩
def RCH_SNAP (l : Nat) : Nat := 0x20000c + 0x1000 * l
def RCH_SNAP_SEQ (l : Nat) : Fld := ⟨(RCH_SNAP l), 0, 16⟩
def RCH_SNAP_HOLD (l : Nat) : Fld := ⟨(RCH_SNAP l), 16, 1⟩
def RCH_STEP_STREAM (l : Nat) : Nat := 0x200010 + 0x1000 * l
def RCH_STEP_STREAM_MU_G (l : Nat) : Fld := ⟨(RCH_STEP_STREAM l), 0, 4⟩
def RCH_STEP_STREAM_MU_B (l : Nat) : Fld := ⟨(RCH_STEP_STREAM l), 4, 4⟩
def RCH_STEP_STREAM_MU_A (l : Nat) : Fld := ⟨(RCH_STEP_STREAM l), 8, 4⟩
def RCH_STEP_STREAM_MU_C (l : Nat) : Fld := ⟨(RCH_STEP_STREAM l), 12, 4⟩
def RCH_STEP_STREAM_MU_X (l : Nat) : Fld := ⟨(RCH_STEP_STREAM l), 16, 4⟩
def RCH_STEP_STREAM_KP (l : Nat) : Fld := ⟨(RCH_STEP_STREAM l), 20, 4⟩
def RCH_STEP_STREAM_KI (l : Nat) : Fld := ⟨(RCH_STEP_STREAM l), 24, 4⟩
def RCH_STEP_STREAM_MU_W (l : Nat) : Fld := ⟨(RCH_STEP_STREAM l), 28, 4⟩
def RCH_STEP_LAND (l : Nat) : Nat := 0x200014 + 0x1000 * l
def RCH_STEP_LAND_MU_G (l : Nat) : Fld := ⟨(RCH_STEP_LAND l), 0, 4⟩
def RCH_STEP_LAND_MU_B (l : Nat) : Fld := ⟨(RCH_STEP_LAND l), 4, 4⟩
def RCH_STEP_LAND_MU_A (l : Nat) : Fld := ⟨(RCH_STEP_LAND l), 8, 4⟩
def RCH_STEP_LAND_MU_C (l : Nat) : Fld := ⟨(RCH_STEP_LAND l), 12, 4⟩
def RCH_STEP_LAND_MU_X (l : Nat) : Fld := ⟨(RCH_STEP_LAND l), 16, 4⟩
def RCH_STEP_LAND_KP (l : Nat) : Fld := ⟨(RCH_STEP_LAND l), 20, 4⟩
def RCH_STEP_LAND_KI (l : Nat) : Fld := ⟨(RCH_STEP_LAND l), 24, 4⟩
def RCH_STEP_LAND_MU_W (l : Nat) : Fld := ⟨(RCH_STEP_LAND l), 28, 4⟩
def RCH_LAND_CFG (l : Nat) : Nat := 0x200018 + 0x1000 * l
def RCH_LAND_CFG_WINDOW (l : Nat) : Fld := ⟨(RCH_LAND_CFG l), 0, 16⟩
def RCH_LAND_CFG_ACQ_BLOCKS (l : Nat) : Fld := ⟨(RCH_LAND_CFG l), 16, 4⟩
def RCH_DEFECT_CFG (l : Nat) : Nat := 0x20001c + 0x1000 * l
def RCH_DEFECT_CFG_LO (l : Nat) : Fld := ⟨(RCH_DEFECT_CFG l), 0, 8⟩
def RCH_DEFECT_CFG_HI (l : Nat) : Fld := ⟨(RCH_DEFECT_CFG l), 8, 8⟩
def RCH_DEFECT_CFG_DEEP (l : Nat) : Fld := ⟨(RCH_DEFECT_CFG l), 16, 8⟩
def RCH_DEFECT_CFG_LLR_SCALE (l : Nat) : Fld := ⟨(RCH_DEFECT_CFG l), 24, 2⟩
def RCH_TIMING (l : Nat) : Nat := 0x200020 + 0x1000 * l
def RCH_TIMING_PHASE (l : Nat) : Fld := ⟨(RCH_TIMING l), 0, 6⟩
def RCH_TIMING_FREQ (l : Nat) : Fld := ⟨(RCH_TIMING l), 8, 24⟩
def RCH_DGAIN (l : Nat) : Nat := 0x200024 + 0x1000 * l
def RCH_DGAIN_DGAIN (l : Nat) : Fld := ⟨(RCH_DGAIN l), 0, 16⟩
def RCH_BASELINE (l : Nat) : Nat := 0x200028 + 0x1000 * l
def RCH_BASELINE_BASELINE (l : Nat) : Fld := ⟨(RCH_BASELINE l), 0, 16⟩
def RCH_ASYM (l : Nat) : Nat := 0x20002c + 0x1000 * l
def RCH_ASYM_ASYM (l : Nat) : Fld := ⟨(RCH_ASYM l), 0, 16⟩
def RCH_WOBBLE (l : Nat) : Nat := 0x200030 + 0x1000 * l
def RCH_WOBBLE_AMP (l : Nat) : Fld := ⟨(RCH_WOBBLE l), 0, 16⟩
def RCH_WOBBLE_LOCK (l : Nat) : Fld := ⟨(RCH_WOBBLE l), 16, 1⟩
def RCH_MSE (l : Nat) : Nat := 0x200034 + 0x1000 * l
def RCH_MSE_MSE (l : Nat) : Fld := ⟨(RCH_MSE l), 0, 16⟩
def RCH_LAST_PBA (l : Nat) : Nat := 0x200038 + 0x1000 * l
def RCH_LAST_PBA_PBA (l : Nat) : Fld := ⟨(RCH_LAST_PBA l), 0, 40⟩
def RCH_EQ_TAP (l i : Nat) : Nat := 0x200040 + 0x1000 * l + 0x4 * i
def RCH_EQ_TAP_TAP (l i : Nat) : Fld := ⟨(RCH_EQ_TAP l i), 0, 16⟩
def RCH_XTI_IN (l j : Nat) : Nat := 0x200090 + 0x1000 * l + 0x4 * j
def RCH_XTI_IN_TAP (l j : Nat) : Fld := ⟨(RCH_XTI_IN l j), 0, 8⟩
def RCH_XTI_OUT (l j : Nat) : Nat := 0x2000b0 + 0x1000 * l + 0x4 * j
def RCH_XTI_OUT_TAP (l j : Nat) : Fld := ⟨(RCH_XTI_OUT l j), 0, 8⟩
def RCH_SLOTS (l : Nat) : Nat := 0x200100 + 0x1000 * l
def RCH_SLOTS_COUNT (l : Nat) : Fld := ⟨(RCH_SLOTS l), 0, 32⟩
def RCH_LANDINGS (l : Nat) : Nat := 0x200104 + 0x1000 * l
def RCH_LANDINGS_COUNT (l : Nat) : Fld := ⟨(RCH_LANDINGS l), 0, 32⟩
def RCH_DEFECTS (l : Nat) : Nat := 0x200108 + 0x1000 * l
def RCH_DEFECTS_COUNT (l : Nat) : Fld := ⟨(RCH_DEFECTS l), 0, 32⟩
def RCH_DEFECT_BITS (l : Nat) : Nat := 0x20010c + 0x1000 * l
def RCH_DEFECT_BITS_COUNT (l : Nat) : Fld := ⟨(RCH_DEFECT_BITS l), 0, 32⟩
def RCH_REDETECTS (l : Nat) : Nat := 0x200110 + 0x1000 * l
def RCH_REDETECTS_COUNT (l : Nat) : Fld := ⟨(RCH_REDETECTS l), 0, 32⟩
def RCH_ITER2 (l : Nat) : Nat := 0x200114 + 0x1000 * l
def RCH_ITER2_COUNT (l : Nat) : Fld := ⟨(RCH_ITER2 l), 0, 32⟩
def RCH_ITER3 (l : Nat) : Nat := 0x200118 + 0x1000 * l
def RCH_ITER3_COUNT (l : Nat) : Fld := ⟨(RCH_ITER3 l), 0, 32⟩
def RCH_ITER_LOST (l : Nat) : Nat := 0x20011c + 0x1000 * l
def RCH_ITER_LOST_COUNT (l : Nat) : Fld := ⟨(RCH_ITER_LOST l), 0, 32⟩
def RCH_XTI_TIMEOUTS (l : Nat) : Nat := 0x200120 + 0x1000 * l
def RCH_XTI_TIMEOUTS_COUNT (l : Nat) : Fld := ⟨(RCH_XTI_TIMEOUTS l), 0, 32⟩
def RCH_GADDR_CORRECTED (l : Nat) : Nat := 0x200124 + 0x1000 * l
def RCH_GADDR_CORRECTED_COUNT (l : Nat) : Fld := ⟨(RCH_GADDR_CORRECTED l), 0, 32⟩
def RCH_GADDR_FAILED (l : Nat) : Nat := 0x200128 + 0x1000 * l
def RCH_GADDR_FAILED_COUNT (l : Nat) : Fld := ⟨(RCH_GADDR_FAILED l), 0, 32⟩
def RCH_TIMING_LOST (l : Nat) : Nat := 0x20012c + 0x1000 * l
def RCH_TIMING_LOST_COUNT (l : Nat) : Fld := ⟨(RCH_TIMING_LOST l), 0, 32⟩
def RCH_BLANK (l : Nat) : Nat := 0x200130 + 0x1000 * l
def RCH_BLANK_COUNT (l : Nat) : Fld := ⟨(RCH_BLANK l), 0, 32⟩
def RCH_ACQ_REJECTS (l : Nat) : Nat := 0x200134 + 0x1000 * l
def RCH_ACQ_REJECTS_COUNT (l : Nat) : Fld := ⟨(RCH_ACQ_REJECTS l), 0, 32⟩
def RCH_GAIN_STEPS (l : Nat) : Nat := 0x200138 + 0x1000 * l
def RCH_GAIN_STEPS_COUNT (l : Nat) : Fld := ⟨(RCH_GAIN_STEPS l), 0, 32⟩
def RCH_LEARNS (l : Nat) : Nat := 0x20013c + 0x1000 * l
def RCH_LEARNS_COUNT (l : Nat) : Fld := ⟨(RCH_LEARNS l), 0, 32⟩
def RCH_ZT_DRIFT (l : Nat) : Nat := 0x200140 + 0x1000 * l
def RCH_ZT_DRIFT_COUNT (l : Nat) : Fld := ⟨(RCH_ZT_DRIFT l), 0, 32⟩
def RCH_DEEP_BITS (l : Nat) : Nat := 0x200144 + 0x1000 * l
def RCH_DEEP_BITS_COUNT (l : Nat) : Fld := ⟨(RCH_DEEP_BITS l), 0, 32⟩
/-! ### Block FRM (05_framing_decoding R250) -/

def FRM_SUMMARY : Nat := 0x300000
def FRM_SUMMARY_PENDING : Fld := ⟨FRM_SUMMARY, 0, 16⟩
def FRM_CTRL (p : Nat) : Nat := 0x301000 + 0x1000 * p
def FRM_CTRL_EN (p : Nat) : Fld := ⟨(FRM_CTRL p), 0, 1⟩
def FRM_CTRL_OUTER_CHECK (p : Nat) : Fld := ⟨(FRM_CTRL p), 1, 1⟩
def FRM_CTRL_SYNC_THRESH (p : Nat) : Fld := ⟨(FRM_CTRL p), 2, 4⟩
def FRM_CTRL_RESYNC_THRESH (p : Nat) : Fld := ⟨(FRM_CTRL p), 6, 3⟩
def FRM_CTRL_CAND_MAX (p : Nat) : Fld := ⟨(FRM_CTRL p), 9, 3⟩
def FRM_CTRL_RESCUE_EN (p : Nat) : Fld := ⟨(FRM_CTRL p), 12, 1⟩
def FRM_STATUS (p : Nat) : Nat := 0x301004 + 0x1000 * p
def FRM_STATUS_BUSY (p : Nat) : Fld := ⟨(FRM_STATUS p), 0, 1⟩
def FRM_STATUS_RETRYING (p : Nat) : Fld := ⟨(FRM_STATUS p), 1, 1⟩
def FRM_STATUS_ATTEMPT (p : Nat) : Fld := ⟨(FRM_STATUS p), 2, 4⟩
def FRM_STATUS_RETRY_BLOCKS (p : Nat) : Fld := ⟨(FRM_STATUS p), 6, 8⟩
def FRM_STATUS_ASSEMBLY (p : Nat) : Fld := ⟨(FRM_STATUS p), 14, 1⟩
def FRM_EVENT (p : Nat) : Nat := 0x301008 + 0x1000 * p
def FRM_EVENT_REFRAME (p : Nat) : Fld := ⟨(FRM_EVENT p), 0, 1⟩
def FRM_EVENT_FLYWHEEL (p : Nat) : Fld := ⟨(FRM_EVENT p), 1, 1⟩
def FRM_EVENT_TAG_FAIL (p : Nat) : Fld := ⟨(FRM_EVENT p), 2, 1⟩
def FRM_EVENT_LDPC_FAIL (p : Nat) : Fld := ⟨(FRM_EVENT p), 3, 1⟩
def FRM_EVENT_OUTER_FAIL (p : Nat) : Fld := ⟨(FRM_EVENT p), 4, 1⟩
def FRM_EVENT_MISCORRECT (p : Nat) : Fld := ⟨(FRM_EVENT p), 5, 1⟩
def FRM_EVENT_TRANSIENT (p : Nat) : Fld := ⟨(FRM_EVENT p), 6, 1⟩
def FRM_EVENT_LASTING (p : Nat) : Fld := ⟨(FRM_EVENT p), 7, 1⟩
def FRM_EVENT_DL_NOT_RECORDED (p : Nat) : Fld := ⟨(FRM_EVENT p), 8, 1⟩
def FRM_EVENT_RESCUE (p : Nat) : Fld := ⟨(FRM_EVENT p), 9, 1⟩
def FRM_EVENT_RESYNC_MISS (p : Nat) : Fld := ⟨(FRM_EVENT p), 10, 1⟩
def FRM_ITER_CFG (p : Nat) : Nat := 0x30100c + 0x1000 * p
def FRM_ITER_CFG_ITER_G1 (p : Nat) : Fld := ⟨(FRM_ITER_CFG p), 0, 5⟩
def FRM_ITER_CFG_ITER_G2 (p : Nat) : Fld := ⟨(FRM_ITER_CFG p), 5, 5⟩
def FRM_ITER_CFG_ITER_G3 (p : Nat) : Fld := ⟨(FRM_ITER_CFG p), 10, 5⟩
def FRM_ITER_CFG_GI_THRESH (p : Nat) : Fld := ⟨(FRM_ITER_CFG p), 16, 12⟩
def FRM_ITER_CFG_STALL (p : Nat) : Fld := ⟨(FRM_ITER_CFG p), 28, 3⟩
def FRM_RETRY_CFG (p : Nat) : Nat := 0x301010 + 0x1000 * p
def FRM_RETRY_CFG_RETRY_MAX (p : Nat) : Fld := ⟨(FRM_RETRY_CFG p), 0, 4⟩
def FRM_RETRY_CFG_OUTER_FROM (p : Nat) : Fld := ⟨(FRM_RETRY_CFG p), 4, 4⟩
def FRM_RETRY_CFG_RESCUE_FROM (p : Nat) : Fld := ⟨(FRM_RETRY_CFG p), 8, 4⟩
def FRM_RETRY_CFG_BLANK_CONFIRM (p : Nat) : Fld := ⟨(FRM_RETRY_CFG p), 12, 1⟩
def FRM_LAST_FAIL_PBA (p : Nat) : Nat := 0x301018 + 0x1000 * p
def FRM_LAST_FAIL_PBA_PBA (p : Nat) : Fld := ⟨(FRM_LAST_FAIL_PBA p), 0, 40⟩
def FRM_LAST_FAIL_TIME (p : Nat) : Nat := 0x301020 + 0x1000 * p
def FRM_LAST_FAIL_TIME_TIME (p : Nat) : Fld := ⟨(FRM_LAST_FAIL_TIME p), 0, 64⟩
def FRM_ITEMS (p : Nat) : Nat := 0x301100 + 0x1000 * p
def FRM_ITEMS_COUNT (p : Nat) : Fld := ⟨(FRM_ITEMS p), 0, 32⟩
def FRM_CONFIRMED (p : Nat) : Nat := 0x301104 + 0x1000 * p
def FRM_CONFIRMED_COUNT (p : Nat) : Fld := ⟨(FRM_CONFIRMED p), 0, 32⟩
def FRM_REFRAMES (p : Nat) : Nat := 0x301108 + 0x1000 * p
def FRM_REFRAMES_COUNT (p : Nat) : Fld := ⟨(FRM_REFRAMES p), 0, 32⟩
def FRM_FLYWHEEL (p : Nat) : Nat := 0x30110c + 0x1000 * p
def FRM_FLYWHEEL_COUNT (p : Nat) : Fld := ⟨(FRM_FLYWHEEL p), 0, 32⟩
def FRM_RESYNC_SLIPS (p : Nat) : Nat := 0x301110 + 0x1000 * p
def FRM_RESYNC_SLIPS_COUNT (p : Nat) : Fld := ⟨(FRM_RESYNC_SLIPS p), 0, 32⟩
def FRM_RESYNC_MISSED (p : Nat) : Nat := 0x301114 + 0x1000 * p
def FRM_RESYNC_MISSED_COUNT (p : Nat) : Fld := ⟨(FRM_RESYNC_MISSED p), 0, 32⟩
def FRM_TAG_CORRECTED (p : Nat) : Nat := 0x301118 + 0x1000 * p
def FRM_TAG_CORRECTED_COUNT (p : Nat) : Fld := ⟨(FRM_TAG_CORRECTED p), 0, 32⟩
def FRM_TAG_FAILED (p : Nat) : Nat := 0x30111c + 0x1000 * p
def FRM_TAG_FAILED_COUNT (p : Nat) : Fld := ⟨(FRM_TAG_FAILED p), 0, 32⟩
def FRM_LDPC_OK (p : Nat) : Nat := 0x301120 + 0x1000 * p
def FRM_LDPC_OK_COUNT (p : Nat) : Fld := ⟨(FRM_LDPC_OK p), 0, 32⟩
def FRM_LDPC_FAIL (p : Nat) : Nat := 0x301124 + 0x1000 * p
def FRM_LDPC_FAIL_COUNT (p : Nat) : Fld := ⟨(FRM_LDPC_FAIL p), 0, 32⟩
def FRM_LDPC_ITERS (p : Nat) : Nat := 0x301128 + 0x1000 * p
def FRM_LDPC_ITERS_COUNT (p : Nat) : Fld := ⟨(FRM_LDPC_ITERS p), 0, 32⟩
def FRM_OUTER_RUNS (p : Nat) : Nat := 0x30112c + 0x1000 * p
def FRM_OUTER_RUNS_COUNT (p : Nat) : Fld := ⟨(FRM_OUTER_RUNS p), 0, 32⟩
def FRM_OUTER_RECOVERED (p : Nat) : Nat := 0x301130 + 0x1000 * p
def FRM_OUTER_RECOVERED_COUNT (p : Nat) : Fld := ⟨(FRM_OUTER_RECOVERED p), 0, 32⟩
def FRM_OUTER_FAILED (p : Nat) : Nat := 0x301134 + 0x1000 * p
def FRM_OUTER_FAILED_COUNT (p : Nat) : Fld := ⟨(FRM_OUTER_FAILED p), 0, 32⟩
def FRM_MISCORRECT (p : Nat) : Nat := 0x301138 + 0x1000 * p
def FRM_MISCORRECT_COUNT (p : Nat) : Fld := ⟨(FRM_MISCORRECT p), 0, 32⟩
def FRM_RETRY_SEQ (p : Nat) : Nat := 0x30113c + 0x1000 * p
def FRM_RETRY_SEQ_COUNT (p : Nat) : Fld := ⟨(FRM_RETRY_SEQ p), 0, 32⟩
def FRM_ATTEMPTS (p : Nat) : Nat := 0x301140 + 0x1000 * p
def FRM_ATTEMPTS_COUNT (p : Nat) : Fld := ⟨(FRM_ATTEMPTS p), 0, 32⟩
def FRM_TRANSIENT (p : Nat) : Nat := 0x301144 + 0x1000 * p
def FRM_TRANSIENT_COUNT (p : Nat) : Fld := ⟨(FRM_TRANSIENT p), 0, 32⟩
def FRM_LASTING (p : Nat) : Nat := 0x301148 + 0x1000 * p
def FRM_LASTING_COUNT (p : Nat) : Fld := ⟨(FRM_LASTING p), 0, 32⟩
def FRM_BLANK (p : Nat) : Nat := 0x30114c + 0x1000 * p
def FRM_BLANK_COUNT (p : Nat) : Fld := ⟨(FRM_BLANK p), 0, 32⟩
def FRM_RESCUED (p : Nat) : Nat := 0x301150 + 0x1000 * p
def FRM_RESCUED_COUNT (p : Nat) : Fld := ⟨(FRM_RESCUED p), 0, 32⟩
/-! ### Block WCH (06_write_path R290) -/

def WCH_SUMMARY : Nat := 0x380000
def WCH_SUMMARY_PASSING : Fld := ⟨WCH_SUMMARY, 0, 16⟩
def WCH_SUMMARY_PENDING : Fld := ⟨WCH_SUMMARY, 16, 16⟩
def WCH_CTRL (p : Nat) : Nat := 0x381000 + 0x1000 * p
def WCH_CTRL_EN (p : Nat) : Fld := ⟨(WCH_CTRL p), 0, 1⟩
def WCH_CTRL_DEGRADED (p : Nat) : Fld := ⟨(WCH_CTRL p), 1, 1⟩
def WCH_CTRL_PARITY_IDLE (p : Nat) : Fld := ⟨(WCH_CTRL p), 2, 1⟩
def WCH_CTRL_STOP (p : Nat) : Fld := ⟨(WCH_CTRL p), 3, 1⟩
def WCH_STATUS (p : Nat) : Nat := 0x381004 + 0x1000 * p
def WCH_STATUS_PASSING (p : Nat) : Fld := ⟨(WCH_STATUS p), 0, 1⟩
def WCH_STATUS_VERIFY_MODE (p : Nat) : Fld := ⟨(WCH_STATUS p), 1, 1⟩
def WCH_STATUS_LEVELS_READY (p : Nat) : Fld := ⟨(WCH_STATUS p), 2, 1⟩
def WCH_STATUS_STRATEGY_BAD (p : Nat) : Fld := ⟨(WCH_STATUS p), 3, 1⟩
def WCH_STATUS_CALIBRATING (p : Nat) : Fld := ⟨(WCH_STATUS p), 4, 1⟩
def WCH_STATUS_FURROW (p : Nat) : Fld := ⟨(WCH_STATUS p), 5, 3⟩
def WCH_STATUS_LAYER (p : Nat) : Fld := ⟨(WCH_STATUS p), 8, 4⟩
def WCH_EVENT (p : Nat) : Nat := 0x381008 + 0x1000 * p
def WCH_EVENT_VERIFY_FAIL (p : Nat) : Fld := ⟨(WCH_EVENT p), 0, 1⟩
def WCH_EVENT_RELOCATED (p : Nat) : Fld := ⟨(WCH_EVENT p), 1, 1⟩
def WCH_EVENT_WRITE_FAILED (p : Nat) : Fld := ⟨(WCH_EVENT p), 2, 1⟩
def WCH_EVENT_UNDERRUN (p : Nat) : Fld := ⟨(WCH_EVENT p), 3, 1⟩
def WCH_EVENT_ADDR_STOP (p : Nat) : Fld := ⟨(WCH_EVENT p), 4, 1⟩
def WCH_EVENT_OFFTRACK_STOP (p : Nat) : Fld := ⟨(WCH_EVENT p), 5, 1⟩
def WCH_EVENT_INTERRUPTED (p : Nat) : Fld := ⟨(WCH_EVENT p), 6, 1⟩
def WCH_EVENT_CAL_REJECT (p : Nat) : Fld := ⟨(WCH_EVENT p), 7, 1⟩
def WCH_EVENT_CAL_FAILED (p : Nat) : Fld := ⟨(WCH_EVENT p), 8, 1⟩
def WCH_EVENT_PARITY_WEAK (p : Nat) : Fld := ⟨(WCH_EVENT p), 9, 1⟩
def WCH_EVENT_MGMT_FAIL (p : Nat) : Fld := ⟨(WCH_EVENT p), 10, 1⟩
def WCH_EVENT_ORDER (p : Nat) : Fld := ⟨(WCH_EVENT p), 11, 1⟩
def WCH_LEAD (p : Nat) : Nat := 0x38100c + 0x1000 * p
def WCH_LEAD_LEAD (p : Nat) : Fld := ⟨(WCH_LEAD p), 0, 10⟩
def WCH_LEVEL_PB (p : Nat) : Nat := 0x381010 + 0x1000 * p
def WCH_LEVEL_PB_PEAK (p : Nat) : Fld := ⟨(WCH_LEVEL_PB p), 0, 16⟩
def WCH_LEVEL_PB_BIAS (p : Nat) : Fld := ⟨(WCH_LEVEL_PB p), 16, 16⟩
def WCH_LEVEL_C (p : Nat) : Nat := 0x381014 + 0x1000 * p
def WCH_LEVEL_C_COOL (p : Nat) : Fld := ⟨(WCH_LEVEL_C p), 0, 16⟩
def WCH_VERIFY_CFG (p : Nat) : Nat := 0x381018 + 0x1000 * p
def WCH_VERIFY_CFG_TOTAL_MAX (p : Nat) : Fld := ⟨(WCH_VERIFY_CFG p), 0, 12⟩
def WCH_VERIFY_CFG_SEG_MAX (p : Nat) : Fld := ⟨(WCH_VERIFY_CFG p), 12, 8⟩
def WCH_CAL_CFG (p : Nat) : Nat := 0x38101c + 0x1000 * p
def WCH_CAL_CFG_A_TARGET (p : Nat) : Fld := ⟨(WCH_CAL_CFG p), 0, 16⟩
def WCH_CAL_CFG_TOL (p : Nat) : Fld := ⟨(WCH_CAL_CFG p), 16, 12⟩
def WCH_CAL_CFG_GAIN (p : Nat) : Fld := ⟨(WCH_CAL_CFG p), 28, 4⟩
def WCH_SLOT (p : Nat) : Nat := 0x381020 + 0x1000 * p
def WCH_SLOT_SLOT (p : Nat) : Fld := ⟨(WCH_SLOT p), 0, 32⟩
def WCH_STRAT (p i : Nat) : Nat := 0x381028 + 0x1000 * p + 0x4 * i
def WCH_STRAT_FIRST_START (p i : Nat) : Fld := ⟨(WCH_STRAT p i), 0, 4⟩
def WCH_STRAT_FIRST_WIDTH (p i : Nat) : Fld := ⟨(WCH_STRAT p i), 4, 5⟩
def WCH_STRAT_MP (p : Nat) : Nat := 0x381048 + 0x1000 * p
def WCH_STRAT_MP_MP_START (p : Nat) : Fld := ⟨(WCH_STRAT_MP p), 0, 3⟩
def WCH_STRAT_MP_MP_WIDTH (p : Nat) : Fld := ⟨(WCH_STRAT_MP p), 4, 3⟩
def WCH_STRAT_MP_COOL_EN (p : Nat) : Fld := ⟨(WCH_STRAT_MP p), 8, 1⟩
def WCH_STRAT_MP_BIAS_EN (p : Nat) : Fld := ⟨(WCH_STRAT_MP p), 9, 1⟩
def WCH_SEED_PB (p y : Nat) : Nat := 0x381050 + 0x1000 * p + 0x8 * y
def WCH_SEED_PB_PEAK (p y : Nat) : Fld := ⟨(WCH_SEED_PB p y), 0, 16⟩
def WCH_SEED_PB_BIAS (p y : Nat) : Fld := ⟨(WCH_SEED_PB p y), 16, 16⟩
def WCH_SEED_C (p y : Nat) : Nat := 0x381054 + 0x1000 * p + 0x8 * y
def WCH_SEED_C_COOL (p y : Nat) : Fld := ⟨(WCH_SEED_C p y), 0, 16⟩
def WCH_PASSES (p : Nat) : Nat := 0x381100 + 0x1000 * p
def WCH_PASSES_COUNT (p : Nat) : Fld := ⟨(WCH_PASSES p), 0, 32⟩
def WCH_BLOCKS (p : Nat) : Nat := 0x381104 + 0x1000 * p
def WCH_BLOCKS_COUNT (p : Nat) : Fld := ⟨(WCH_BLOCKS p), 0, 32⟩
def WCH_VERIFIED (p : Nat) : Nat := 0x381108 + 0x1000 * p
def WCH_VERIFIED_COUNT (p : Nat) : Fld := ⟨(WCH_VERIFIED p), 0, 32⟩
def WCH_VERIFY_FAILS (p : Nat) : Nat := 0x38110c + 0x1000 * p
def WCH_VERIFY_FAILS_COUNT (p : Nat) : Fld := ⟨(WCH_VERIFY_FAILS p), 0, 32⟩
def WCH_RELOCATIONS (p : Nat) : Nat := 0x381110 + 0x1000 * p
def WCH_RELOCATIONS_COUNT (p : Nat) : Fld := ⟨(WCH_RELOCATIONS p), 0, 32⟩
def WCH_WRITE_FAILED (p : Nat) : Nat := 0x381114 + 0x1000 * p
def WCH_WRITE_FAILED_COUNT (p : Nat) : Fld := ⟨(WCH_WRITE_FAILED p), 0, 32⟩
def WCH_UNDERRUNS (p : Nat) : Nat := 0x381118 + 0x1000 * p
def WCH_UNDERRUNS_COUNT (p : Nat) : Fld := ⟨(WCH_UNDERRUNS p), 0, 32⟩
def WCH_STOPS (p : Nat) : Nat := 0x38111c + 0x1000 * p
def WCH_STOPS_COUNT (p : Nat) : Fld := ⟨(WCH_STOPS p), 0, 32⟩
def WCH_PARITY (p : Nat) : Nat := 0x381120 + 0x1000 * p
def WCH_PARITY_COUNT (p : Nat) : Fld := ⟨(WCH_PARITY p), 0, 32⟩
def WCH_MGMT_BLOCKS (p : Nat) : Nat := 0x381124 + 0x1000 * p
def WCH_MGMT_BLOCKS_COUNT (p : Nat) : Fld := ⟨(WCH_MGMT_BLOCKS p), 0, 32⟩
def WCH_SURVEY_SLOTS (p : Nat) : Nat := 0x381128 + 0x1000 * p
def WCH_SURVEY_SLOTS_COUNT (p : Nat) : Fld := ⟨(WCH_SURVEY_SLOTS p), 0, 32⟩
def WCH_CAL_ACCEPTS (p : Nat) : Nat := 0x38112c + 0x1000 * p
def WCH_CAL_ACCEPTS_COUNT (p : Nat) : Fld := ⟨(WCH_CAL_ACCEPTS p), 0, 32⟩
def WCH_CAL_REJECTS (p : Nat) : Nat := 0x381130 + 0x1000 * p
def WCH_CAL_REJECTS_COUNT (p : Nat) : Fld := ⟨(WCH_CAL_REJECTS p), 0, 32⟩
def WCH_MISMATCH_BITS (p : Nat) : Nat := 0x381134 + 0x1000 * p
def WCH_MISMATCH_BITS_COUNT (p : Nat) : Fld := ⟨(WCH_MISMATCH_BITS p), 0, 32⟩
def WCH_INTERRUPTED (p : Nat) : Nat := 0x381138 + 0x1000 * p
def WCH_INTERRUPTED_COUNT (p : Nat) : Fld := ⟨(WCH_INTERRUPTED p), 0, 32⟩
/-! ### Block LE (07_tolek_engines R331) -/

def LE_SUMMARY : Nat := 0x400000
def LE_SUMMARY_PENDING : Fld := ⟨LE_SUMMARY, 0, 24⟩
def LE_PAIR_CTRL (q : Nat) : Nat := 0x402000 + 0x800 * q
def LE_PAIR_CTRL_RUN (q : Nat) : Fld := ⟨(LE_PAIR_CTRL q), 0, 1⟩
def LE_PAIR_CTRL_ENTRY (q : Nat) : Fld := ⟨(LE_PAIR_CTRL q), 1, 2⟩
def LE_PAIR_CTRL_OVERRUN_MAX (q : Nat) : Fld := ⟨(LE_PAIR_CTRL q), 3, 4⟩
def LE_PAIR_CTRL_PARAM_HOLD (q : Nat) : Fld := ⟨(LE_PAIR_CTRL q), 7, 1⟩
def LE_PAIR_STATUS (q : Nat) : Nat := 0x402004 + 0x800 * q
def LE_PAIR_STATUS_CONSEC (q : Nat) : Fld := ⟨(LE_PAIR_STATUS q), 0, 4⟩
def LE_PAIR_STATUS_ENTRY (q : Nat) : Fld := ⟨(LE_PAIR_STATUS q), 4, 2⟩
def LE_PAIR_STATUS_CMD_DEPTH (q : Nat) : Fld := ⟨(LE_PAIR_STATUS q), 6, 3⟩
def LE_PAIR_STATUS_SINGLE (q : Nat) : Fld := ⟨(LE_PAIR_STATUS q), 9, 1⟩
def LE_PAIR_EVENT (q : Nat) : Nat := 0x402008 + 0x800 * q
def LE_PAIR_EVENT_OVERRUN (q : Nat) : Fld := ⟨(LE_PAIR_EVENT q), 0, 1⟩
def LE_PAIR_EVENT_ESCALATED (q : Nat) : Fld := ⟨(LE_PAIR_EVENT q), 1, 1⟩
def LE_PAIR_EVENT_CMD_LOST (q : Nat) : Fld := ⟨(LE_PAIR_EVENT q), 2, 1⟩
def LE_PAIR_EVENT_ENTRY_REFUSED (q : Nat) : Fld := ⟨(LE_PAIR_EVENT q), 3, 1⟩
def LE_REGION (q : Nat) : Nat := 0x40200c + 0x800 * q
def LE_REGION_BAND (q : Nat) : Fld := ⟨(LE_REGION q), 0, 4⟩
def LE_REGION_LAYER (q : Nat) : Fld := ⟨(LE_REGION q), 4, 4⟩
def LE_REGION_SPEED (q : Nat) : Fld := ⟨(LE_REGION q), 8, 2⟩
def LE_REGION_BANK (q : Nat) : Fld := ⟨(LE_REGION q), 16, 6⟩
def LE_CMD (q : Nat) : Nat := 0x402010 + 0x800 * q
def LE_CMD_CMD (q : Nat) : Fld := ⟨(LE_CMD q), 0, 32⟩
def LE_CMD_ARG (q : Nat) : Nat := 0x402014 + 0x800 * q
def LE_CMD_ARG_ARG (q : Nat) : Fld := ⟨(LE_CMD_ARG q), 0, 32⟩
def LE_OVERRUNS (q : Nat) : Nat := 0x402020 + 0x800 * q
def LE_OVERRUNS_COUNT (q : Nat) : Fld := ⟨(LE_OVERRUNS q), 0, 32⟩
def LE_ESCALATIONS (q : Nat) : Nat := 0x402024 + 0x800 * q
def LE_ESCALATIONS_COUNT (q : Nat) : Fld := ⟨(LE_ESCALATIONS q), 0, 32⟩
def LE_BANK_SWITCHES (q : Nat) : Nat := 0x402028 + 0x800 * q
def LE_BANK_SWITCHES_COUNT (q : Nat) : Fld := ⟨(LE_BANK_SWITCHES q), 0, 32⟩
def LE_SAT_PERIODS (q : Nat) : Nat := 0x40202c + 0x800 * q
def LE_SAT_PERIODS_COUNT (q : Nat) : Fld := ⟨(LE_SAT_PERIODS q), 0, 32⟩
def LE_COMMITS (q : Nat) : Nat := 0x402030 + 0x800 * q
def LE_COMMITS_COUNT (q : Nat) : Fld := ⟨(LE_COMMITS q), 0, 32⟩
def LE_PARAM (q i : Nat) : Nat := 0x402400 + 0x800 * q + 0x4 * i
def LE_PARAM_VALUE (q i : Nat) : Fld := ⟨(LE_PARAM q i), 0, 32⟩
def LE_ENG_STATUS (e : Nat) : Nat := 0x410000 + 0x4000 * e
def LE_ENG_STATUS_ROLE (e : Nat) : Fld := ⟨(LE_ENG_STATUS e), 0, 3⟩
def LE_ENG_STATUS_RUNNING (e : Nat) : Fld := ⟨(LE_ENG_STATUS e), 3, 1⟩
def LE_ENG_STATUS_SAT (e : Nat) : Fld := ⟨(LE_ENG_STATUS e), 4, 1⟩
def LE_ENG_STATUS_PC (e : Nat) : Fld := ⟨(LE_ENG_STATUS e), 5, 12⟩
def LE_ENG_EVENT (e : Nat) : Nat := 0x410004 + 0x4000 * e
def LE_ENG_EVENT_INTERNAL_FAULT (e : Nat) : Fld := ⟨(LE_ENG_EVENT e), 0, 1⟩
def LE_ENG_EVENT_DIV_ZERO (e : Nat) : Fld := ⟨(LE_ENG_EVENT e), 1, 1⟩
def LE_ENG_EVENT_SQRT_NEG (e : Nat) : Fld := ⟨(LE_ENG_EVENT e), 2, 1⟩
def LE_ENG_EVENT_PARAM_STORE (e : Nat) : Fld := ⟨(LE_ENG_EVENT e), 3, 1⟩
def LE_ENG_EVENT_RESCALE_ZERO (e : Nat) : Fld := ⟨(LE_ENG_EVENT e), 4, 1⟩
def LE_IMAGE (e : Nat) : Nat := 0x410008 + 0x4000 * e
def LE_IMAGE_VERSION (e : Nat) : Fld := ⟨(LE_IMAGE e), 0, 32⟩
def LE_COST (e : Nat) : Nat := 0x41000c + 0x4000 * e
def LE_COST_MAIN (e : Nat) : Fld := ⟨(LE_COST e), 0, 16⟩
def LE_COST_SAFE (e : Nat) : Fld := ⟨(LE_COST e), 16, 16⟩
def LE_LAST_UNITS (e : Nat) : Nat := 0x410010 + 0x4000 * e
def LE_LAST_UNITS_UNITS (e : Nat) : Fld := ⟨(LE_LAST_UNITS e), 0, 16⟩
def LE_LAST_UNITS_PEAK (e : Nat) : Fld := ⟨(LE_LAST_UNITS e), 16, 16⟩
def LE_SLACK_MIN (e : Nat) : Nat := 0x410014 + 0x4000 * e
def LE_SLACK_MIN_SLACK (e : Nat) : Fld := ⟨(LE_SLACK_MIN e), 0, 16⟩
def LE_MEM_ADDR (e : Nat) : Nat := 0x410018 + 0x4000 * e
def LE_MEM_ADDR_ADDR (e : Nat) : Fld := ⟨(LE_MEM_ADDR e), 0, 12⟩
def LE_MEM_ADDR_SPACE (e : Nat) : Fld := ⟨(LE_MEM_ADDR e), 12, 1⟩
def LE_MEM_ADDR_INC (e : Nat) : Fld := ⟨(LE_MEM_ADDR e), 13, 1⟩
def LE_MEM_DATA (e : Nat) : Nat := 0x41001c + 0x4000 * e
def LE_MEM_DATA_DATA (e : Nat) : Fld := ⟨(LE_MEM_DATA e), 0, 32⟩
def LE_SNAP (e : Nat) : Nat := 0x410020 + 0x4000 * e
def LE_SNAP_SEQ (e : Nat) : Fld := ⟨(LE_SNAP e), 0, 16⟩
def LE_SNAP_HOLD (e : Nat) : Fld := ⟨(LE_SNAP e), 16, 1⟩
def LE_V (e i : Nat) : Nat := 0x410040 + 0x4000 * e + 0x4 * i
def LE_V_VALUE (e i : Nat) : Fld := ⟨(LE_V e i), 0, 32⟩
def LE_A (e i : Nat) : Nat := 0x410080 + 0x4000 * e + 0x8 * i
def LE_A_VALUE (e i : Nat) : Fld := ⟨(LE_A e i), 0, 64⟩
def LE_HFLAGS (e : Nat) : Nat := 0x4100a0 + 0x4000 * e
def LE_HFLAGS_H (e : Nat) : Fld := ⟨(LE_HFLAGS e), 0, 8⟩
def LE_OUT (e i : Nat) : Nat := 0x4100c0 + 0x4000 * e + 0x4 * i
def LE_OUT_VALUE (e i : Nat) : Fld := ⟨(LE_OUT e i), 0, 32⟩
def LE_RTAB (e w : Nat) : Nat := 0x410400 + 0x4000 * e + 0x4 * w
def LE_RTAB_ENTRIES (e w : Nat) : Fld := ⟨(LE_RTAB e w), 0, 32⟩
def LE_K (e b c : Nat) : Nat := 0x412000 + 0x4000 * e + 0x80 * b + 0x4 * c
def LE_K_VALUE (e b c : Nat) : Fld := ⟨(LE_K e b c), 0, 32⟩
/-! ### Block MOT (09_motion_spindle R414) -/

def MOT_SUMMARY : Nat := 0x500000
def MOT_SUMMARY_PENDING : Fld := ⟨MOT_SUMMARY, 0, 16⟩
def MOT_AX_CTRL (p : Nat) : Nat := 0x501000 + 0x1000 * p
def MOT_AX_CTRL_INNER_MODE (p : Nat) : Fld := ⟨(MOT_AX_CTRL p), 0, 1⟩
def MOT_AX_CTRL_OUTER_MODE (p : Nat) : Fld := ⟨(MOT_AX_CTRL p), 1, 1⟩
def MOT_AX_CTRL_DECAY (p : Nat) : Fld := ⟨(MOT_AX_CTRL p), 2, 2⟩
def MOT_AX_CTRL_MIXED_T (p : Nat) : Fld := ⟨(MOT_AX_CTRL p), 4, 4⟩
def MOT_AX_CTRL_CHOP_MU (p : Nat) : Fld := ⟨(MOT_AX_CTRL p), 8, 4⟩
def MOT_AX_CHOP (p : Nat) : Nat := 0x501004 + 0x1000 * p
def MOT_AX_CHOP_BAND (p : Nat) : Fld := ⟨(MOT_AX_CHOP p), 0, 8⟩
def MOT_AX_CHOP_OFF_MAX (p : Nat) : Fld := ⟨(MOT_AX_CHOP p), 8, 8⟩
def MOT_AX_OFFSET (p : Nat) : Nat := 0x501008 + 0x1000 * p
def MOT_AX_OFFSET_OFFSET_A (p : Nat) : Fld := ⟨(MOT_AX_OFFSET p), 0, 16⟩
def MOT_AX_OFFSET_OFFSET_B (p : Nat) : Fld := ⟨(MOT_AX_OFFSET p), 16, 16⟩
def MOT_AX_TARGET (p : Nat) : Nat := 0x50100c + 0x1000 * p
def MOT_AX_TARGET_TARGET (p : Nat) : Fld := ⟨(MOT_AX_TARGET p), 0, 32⟩
def MOT_AX_FEED (p : Nat) : Nat := 0x501010 + 0x1000 * p
def MOT_AX_FEED_FEED (p : Nat) : Fld := ⟨(MOT_AX_FEED p), 0, 32⟩
def MOT_AX_STATUS (p : Nat) : Nat := 0x501014 + 0x1000 * p
def MOT_AX_STATUS_INNER (p : Nat) : Fld := ⟨(MOT_AX_STATUS p), 0, 1⟩
def MOT_AX_STATUS_OUTER (p : Nat) : Fld := ⟨(MOT_AX_STATUS p), 1, 1⟩
def MOT_AX_STATUS_HARD (p : Nat) : Fld := ⟨(MOT_AX_STATUS p), 2, 1⟩
def MOT_AX_STATUS_DRIVER_FAULT (p : Nat) : Fld := ⟨(MOT_AX_STATUS p), 3, 1⟩
def MOT_AX_STATUS_STATE (p : Nat) : Fld := ⟨(MOT_AX_STATUS p), 4, 2⟩
def MOT_AX_STATUS_HOMED (p : Nat) : Fld := ⟨(MOT_AX_STATUS p), 6, 1⟩
def MOT_AX_STATUS_FOLLOW (p : Nat) : Fld := ⟨(MOT_AX_STATUS p), 7, 1⟩
def MOT_AX_STATUS_A_DRIVE (p : Nat) : Fld := ⟨(MOT_AX_STATUS p), 8, 1⟩
def MOT_AX_STATUS_B_DRIVE (p : Nat) : Fld := ⟨(MOT_AX_STATUS p), 9, 1⟩
def MOT_AX_EVENT (p : Nat) : Nat := 0x501018 + 0x1000 * p
def MOT_AX_EVENT_INNER_HIT (p : Nat) : Fld := ⟨(MOT_AX_EVENT p), 0, 1⟩
def MOT_AX_EVENT_OUTER_HIT (p : Nat) : Fld := ⟨(MOT_AX_EVENT p), 1, 1⟩
def MOT_AX_EVENT_HARD_STOP (p : Nat) : Fld := ⟨(MOT_AX_EVENT p), 2, 1⟩
def MOT_AX_EVENT_DRIVER_FAULT (p : Nat) : Fld := ⟨(MOT_AX_EVENT p), 3, 1⟩
def MOT_AX_EVENT_DEFERRED (p : Nat) : Fld := ⟨(MOT_AX_EVENT p), 4, 1⟩
def MOT_AX_EVENT_CLIPPED (p : Nat) : Fld := ⟨(MOT_AX_EVENT p), 5, 1⟩
def MOT_AX_EVENT_OFFSET_SAT (p : Nat) : Fld := ⟨(MOT_AX_EVENT p), 6, 1⟩
def MOT_AX_EVENT_HOME_FAIL (p : Nat) : Fld := ⟨(MOT_AX_EVENT p), 7, 1⟩
def MOT_AX_POS (p : Nat) : Nat := 0x501020 + 0x1000 * p
def MOT_AX_POS_POS (p : Nat) : Fld := ⟨(MOT_AX_POS p), 0, 32⟩
def MOT_AX_IMEAN (p : Nat) : Nat := 0x501024 + 0x1000 * p
def MOT_AX_IMEAN_A (p : Nat) : Fld := ⟨(MOT_AX_IMEAN p), 0, 16⟩
def MOT_AX_IMEAN_B (p : Nat) : Fld := ⟨(MOT_AX_IMEAN p), 16, 16⟩
def MOT_MOVES (p : Nat) : Nat := 0x501100 + 0x1000 * p
def MOT_MOVES_COUNT (p : Nat) : Fld := ⟨(MOT_MOVES p), 0, 32⟩
def MOT_LIMIT_STOPS (p : Nat) : Nat := 0x501104 + 0x1000 * p
def MOT_LIMIT_STOPS_COUNT (p : Nat) : Fld := ⟨(MOT_LIMIT_STOPS p), 0, 32⟩
def MOT_CHOP_STRETCH (p : Nat) : Nat := 0x501108 + 0x1000 * p
def MOT_CHOP_STRETCH_COUNT (p : Nat) : Fld := ⟨(MOT_CHOP_STRETCH p), 0, 32⟩
def MOT_DEFERRED (p : Nat) : Nat := 0x50110c + 0x1000 * p
def MOT_DEFERRED_COUNT (p : Nat) : Fld := ⟨(MOT_DEFERRED p), 0, 32⟩
/-! ### Block SPN (09_motion_spindle R415) -/

def SPN_SUMMARY : Nat := 0x580000
def SPN_SUMMARY_PENDING : Fld := ⟨SPN_SUMMARY, 0, 8⟩
def SPN_CTRL (s : Nat) : Nat := 0x581000 + 0x1000 * s
def SPN_CTRL_QUIET (s : Nat) : Fld := ⟨(SPN_CTRL s), 0, 1⟩
def SPN_CTRL_BRAKE (s : Nat) : Fld := ⟨(SPN_CTRL s), 1, 1⟩
def SPN_CFG (s : Nat) : Nat := 0x581004 + 0x1000 * s
def SPN_CFG_POLE_PAIRS (s : Nat) : Fld := ⟨(SPN_CFG s), 0, 4⟩
def SPN_CFG_DEAD (s : Nat) : Fld := ⟨(SPN_CFG s), 4, 8⟩
def SPN_CFG_SB_MAX (s : Nat) : Fld := ⟨(SPN_CFG s), 12, 16⟩
def SPN_ILIM (s : Nat) : Nat := 0x581008 + 0x1000 * s
def SPN_ILIM_ILIM (s : Nat) : Fld := ⟨(SPN_ILIM s), 0, 12⟩
def SPN_STATUS (s : Nat) : Nat := 0x58100c + 0x1000 * s
def SPN_STATUS_MODE (s : Nat) : Fld := ⟨(SPN_STATUS s), 0, 2⟩
def SPN_STATUS_TACH_VALID (s : Nat) : Fld := ⟨(SPN_STATUS s), 2, 1⟩
def SPN_STATUS_TACH_REVERSE (s : Nat) : Fld := ⟨(SPN_STATUS s), 3, 1⟩
def SPN_STATUS_SB_WAIT (s : Nat) : Fld := ⟨(SPN_STATUS s), 4, 1⟩
def SPN_STATUS_DRIVER_FAULT (s : Nat) : Fld := ⟨(SPN_STATUS s), 5, 1⟩
def SPN_STATUS_STATE (s : Nat) : Fld := ⟨(SPN_STATUS s), 6, 3⟩
def SPN_STATUS_AT_SPEED (s : Nat) : Fld := ⟨(SPN_STATUS s), 9, 1⟩
def SPN_STATUS_TACH (s : Nat) : Fld := ⟨(SPN_STATUS s), 16, 16⟩
def SPN_EVENT (s : Nat) : Nat := 0x581010 + 0x1000 * s
def SPN_EVENT_OBS_LOST (s : Nat) : Fld := ⟨(SPN_EVENT s), 0, 1⟩
def SPN_EVENT_START_RETRY (s : Nat) : Fld := ⟨(SPN_EVENT s), 1, 1⟩
def SPN_EVENT_SPIN_FAIL (s : Nat) : Fld := ⟨(SPN_EVENT s), 2, 1⟩
def SPN_EVENT_CATCH_FAIL (s : Nat) : Fld := ⟨(SPN_EVENT s), 3, 1⟩
def SPN_EVENT_REVERSE_REFUSED (s : Nat) : Fld := ⟨(SPN_EVENT s), 4, 1⟩
def SPN_EVENT_DRIVER_FAULT (s : Nat) : Fld := ⟨(SPN_EVENT s), 5, 1⟩
def SPN_EVENT_ILIM (s : Nat) : Fld := ⟨(SPN_EVENT s), 6, 1⟩
def SPN_SPEED (s : Nat) : Nat := 0x581014 + 0x1000 * s
def SPN_SPEED_SPEED (s : Nat) : Fld := ⟨(SPN_SPEED s), 0, 32⟩
def SPN_STARTS (s : Nat) : Nat := 0x581100 + 0x1000 * s
def SPN_STARTS_COUNT (s : Nat) : Fld := ⟨(SPN_STARTS s), 0, 32⟩
def SPN_START_RETRIES (s : Nat) : Nat := 0x581104 + 0x1000 * s
def SPN_START_RETRIES_COUNT (s : Nat) : Fld := ⟨(SPN_START_RETRIES s), 0, 32⟩
def SPN_CATCHES (s : Nat) : Nat := 0x581108 + 0x1000 * s
def SPN_CATCHES_COUNT (s : Nat) : Fld := ⟨(SPN_CATCHES s), 0, 32⟩
def SPN_OBS_LOSSES (s : Nat) : Nat := 0x58110c + 0x1000 * s
def SPN_OBS_LOSSES_COUNT (s : Nat) : Fld := ⟨(SPN_OBS_LOSSES s), 0, 32⟩
def SPN_CATCH_FAILS (s : Nat) : Nat := 0x581110 + 0x1000 * s
def SPN_CATCH_FAILS_COUNT (s : Nat) : Fld := ⟨(SPN_CATCH_FAILS s), 0, 32⟩
def SPN_SHORT_BRAKES (s : Nat) : Nat := 0x581114 + 0x1000 * s
def SPN_SHORT_BRAKES_COUNT (s : Nat) : Fld := ⟨(SPN_SHORT_BRAKES s), 0, 32⟩
def SPN_ILIM_CYCLES (s : Nat) : Nat := 0x581118 + 0x1000 * s
def SPN_ILIM_CYCLES_COUNT (s : Nat) : Fld := ⟨(SPN_ILIM_CYCLES s), 0, 32⟩
/-! ### Block WMM (10_watermasters R457) -/

def WMM_ROLE : Nat := 0x600000
def WMM_ROLE_ROLE : Fld := ⟨WMM_ROLE, 0, 3⟩
def WMM_ROLE_PEER_FLUME : Fld := ⟨WMM_ROLE, 3, 1⟩
def WMM_ROLE_PEER_PULSE : Fld := ⟨WMM_ROLE, 4, 1⟩
def WMM_ROLE_PEER_SPLIT : Fld := ⟨WMM_ROLE, 5, 1⟩
def WMM_ROLE_PEER_FAILED : Fld := ⟨WMM_ROLE, 6, 1⟩
def WMM_ROLE_PS_ACTED : Fld := ⟨WMM_ROLE, 7, 1⟩
def WMM_CTRL : Nat := 0x600004
def WMM_CTRL_SWAP_PERIOD : Fld := ⟨WMM_CTRL, 0, 16⟩
def WMM_EVENT : Nat := 0x600008
def WMM_EVENT_TAKEOVER : Fld := ⟨WMM_EVENT, 0, 1⟩
def WMM_EVENT_PEER_FAILED : Fld := ⟨WMM_EVENT, 1, 1⟩
def WMM_EVENT_PATH_FLUME : Fld := ⟨WMM_EVENT, 2, 1⟩
def WMM_EVENT_PATH_PULSE : Fld := ⟨WMM_EVENT, 3, 1⟩
def WMM_EVENT_LOCAL : Fld := ⟨WMM_EVENT, 4, 1⟩
def WMM_EVENT_SPLIT_ENTERED : Fld := ⟨WMM_EVENT, 5, 1⟩
def WMM_EVENT_SPLIT_LEFT : Fld := ⟨WMM_EVENT, 6, 1⟩
def WMM_EVENT_ROLE_SWAP : Fld := ⟨WMM_EVENT, 7, 1⟩
def WMM_EVENT_CS_FAILED : Fld := ⟨WMM_EVENT, 8, 1⟩
def WMM_EVENT_PS_ACTED : Fld := ⟨WMM_EVENT, 9, 1⟩
def WMM_EVENT_PEER_RESTORED : Fld := ⟨WMM_EVENT, 10, 1⟩
def WMM_PS_STATUS : Nat := 0x60000c
def WMM_PS_STATUS_ACTED : Fld := ⟨WMM_PS_STATUS, 0, 1⟩
def WMM_PS_STATUS_ALL_STOPPED : Fld := ⟨WMM_PS_STATUS, 1, 1⟩
def WMM_PS_STATUS_STATIONS : Fld := ⟨WMM_PS_STATUS, 8, 8⟩
def WMM_PS_TIME : Nat := 0x600010
def WMM_PS_TIME_TIME : Fld := ⟨WMM_PS_TIME, 0, 64⟩
def WMM_CS : Nat := 0x600018
def WMM_CS_ONLINE : Fld := ⟨WMM_CS, 0, 16⟩
def WMM_CS_RESTARTING : Fld := ⟨WMM_CS, 16, 16⟩
def WMM_TAKEOVERS : Nat := 0x600100
def WMM_TAKEOVERS_COUNT : Fld := ⟨WMM_TAKEOVERS, 0, 32⟩
def WMM_PATH_FAULTS : Nat := 0x600104
def WMM_PATH_FAULTS_COUNT : Fld := ⟨WMM_PATH_FAULTS, 0, 32⟩
def WMM_SPLITS : Nat := 0x600108
def WMM_SPLITS_COUNT : Fld := ⟨WMM_SPLITS, 0, 32⟩
def WMM_CS_FAILS : Nat := 0x60010c
def WMM_CS_FAILS_COUNT : Fld := ⟨WMM_CS_FAILS, 0, 32⟩
def WMM_CS_RESTARTS : Nat := 0x600110
def WMM_CS_RESTARTS_COUNT : Fld := ⟨WMM_CS_RESTARTS, 0, 32⟩
def WMM_PAIR_STATUS (q : Nat) : Nat := 0x601000 + 0x40 * q
def WMM_PAIR_STATUS_ACTIVE_ODD (q : Nat) : Fld := ⟨(WMM_PAIR_STATUS q), 0, 1⟩
def WMM_PAIR_STATUS_MODE (q : Nat) : Fld := ⟨(WMM_PAIR_STATUS q), 1, 2⟩
def WMM_PAIR_STATUS_TESTING (q : Nat) : Fld := ⟨(WMM_PAIR_STATUS q), 3, 1⟩
def WMM_PAIR_STATUS_FAB_EVEN (q : Nat) : Fld := ⟨(WMM_PAIR_STATUS q), 4, 1⟩
def WMM_PAIR_STATUS_WIRE_EVEN (q : Nat) : Fld := ⟨(WMM_PAIR_STATUS q), 5, 1⟩
def WMM_PAIR_STATUS_FAB_ODD (q : Nat) : Fld := ⟨(WMM_PAIR_STATUS q), 6, 1⟩
def WMM_PAIR_STATUS_WIRE_ODD (q : Nat) : Fld := ⟨(WMM_PAIR_STATUS q), 7, 1⟩
def WMM_PAIR_STATUS_SWAP_PENDING (q : Nat) : Fld := ⟨(WMM_PAIR_STATUS q), 8, 1⟩
def WMM_PAIR_CTRL (q : Nat) : Nat := 0x601004 + 0x40 * q
def WMM_PAIR_CTRL_SWAP_EN (q : Nat) : Fld := ⟨(WMM_PAIR_CTRL q), 0, 1⟩
def WMM_PAIR_CTRL_SWAP_NOW (q : Nat) : Fld := ⟨(WMM_PAIR_CTRL q), 1, 1⟩
def WMM_PAIR_CTRL_RETEST (q : Nat) : Fld := ⟨(WMM_PAIR_CTRL q), 2, 1⟩
def WMM_PAIR_EVENT (q : Nat) : Nat := 0x601008 + 0x40 * q
def WMM_PAIR_EVENT_TRANSIENT (q : Nat) : Fld := ⟨(WMM_PAIR_EVENT q), 0, 1⟩
def WMM_PAIR_EVENT_LASTING (q : Nat) : Fld := ⟨(WMM_PAIR_EVENT q), 1, 1⟩
def WMM_PAIR_EVENT_SWITCHOVER (q : Nat) : Fld := ⟨(WMM_PAIR_EVENT q), 2, 1⟩
def WMM_PAIR_EVENT_INTERNAL_FAULT (q : Nat) : Fld := ⟨(WMM_PAIR_EVENT q), 3, 1⟩
def WMM_PAIR_EVENT_HEARTBEAT_LOST (q : Nat) : Fld := ⟨(WMM_PAIR_EVENT q), 4, 1⟩
def WMM_PAIR_EVENT_PATH_FAULT (q : Nat) : Fld := ⟨(WMM_PAIR_EVENT q), 5, 1⟩
def WMM_PAIR_EVENT_TEST_PASS (q : Nat) : Fld := ⟨(WMM_PAIR_EVENT q), 6, 1⟩
def WMM_PAIR_EVENT_TEST_FAIL (q : Nat) : Fld := ⟨(WMM_PAIR_EVENT q), 7, 1⟩
def WMM_PAIR_EVENT_SWAP_SKIPPED (q : Nat) : Fld := ⟨(WMM_PAIR_EVENT q), 8, 1⟩
def WMM_PAIR_EVENT_PAIR_LOST (q : Nat) : Fld := ⟨(WMM_PAIR_EVENT q), 9, 1⟩
def WMM_PAIR_MISMATCH_TIME (q : Nat) : Nat := 0x601010 + 0x40 * q
def WMM_PAIR_MISMATCH_TIME_TIME (q : Nat) : Fld := ⟨(WMM_PAIR_MISMATCH_TIME q), 0, 64⟩
def WMM_PAIR_TRANSIENTS (q : Nat) : Nat := 0x601020 + 0x40 * q
def WMM_PAIR_TRANSIENTS_COUNT (q : Nat) : Fld := ⟨(WMM_PAIR_TRANSIENTS q), 0, 32⟩
def WMM_PAIR_LASTING (q : Nat) : Nat := 0x601024 + 0x40 * q
def WMM_PAIR_LASTING_COUNT (q : Nat) : Fld := ⟨(WMM_PAIR_LASTING q), 0, 32⟩
def WMM_PAIR_SWITCHOVERS (q : Nat) : Nat := 0x601028 + 0x40 * q
def WMM_PAIR_SWITCHOVERS_COUNT (q : Nat) : Fld := ⟨(WMM_PAIR_SWITCHOVERS q), 0, 32⟩
def WMM_PAIR_SWAPS (q : Nat) : Nat := 0x60102c + 0x40 * q
def WMM_PAIR_SWAPS_COUNT (q : Nat) : Fld := ⟨(WMM_PAIR_SWAPS q), 0, 32⟩
def WMM_PAIR_SKIPS (q : Nat) : Nat := 0x601030 + 0x40 * q
def WMM_PAIR_SKIPS_COUNT (q : Nat) : Fld := ⟨(WMM_PAIR_SKIPS q), 0, 32⟩
def WMM_PAIR_PATH_FAULTS (q : Nat) : Nat := 0x601034 + 0x40 * q
def WMM_PAIR_PATH_FAULTS_COUNT (q : Nat) : Fld := ⟨(WMM_PAIR_PATH_FAULTS q), 0, 32⟩
def WMM_STN_STATE (s : Nat) : Nat := 0x60f000 + 0x80 * s
def WMM_STN_STATE_STATE (s : Nat) : Fld := ⟨(WMM_STN_STATE s), 0, 3⟩
def WMM_STN_STATE_PREV (s : Nat) : Fld := ⟨(WMM_STN_STATE s), 3, 3⟩
def WMM_STN_STATE_CAUSE (s : Nat) : Fld := ⟨(WMM_STN_STATE s), 8, 5⟩
def WMM_STN_STATE_DISC_PRESENT (s : Nat) : Fld := ⟨(WMM_STN_STATE s), 16, 1⟩
def WMM_STN_STATE_CLAMPED (s : Nat) : Fld := ⟨(WMM_STN_STATE s), 17, 1⟩
def WMM_STN_STATE_UNCLAMP_ALLOWED (s : Nat) : Fld := ⟨(WMM_STN_STATE s), 18, 1⟩
def WMM_STN_STATE_MOUNT_STEP (s : Nat) : Fld := ⟨(WMM_STN_STATE s), 19, 4⟩
def WMM_STN_CTRL (s : Nat) : Nat := 0x60f004 + 0x80 * s
def WMM_STN_CTRL_CLAMP_REQ (s : Nat) : Fld := ⟨(WMM_STN_CTRL s), 0, 1⟩
def WMM_STN_CTRL_PARK (s : Nat) : Fld := ⟨(WMM_STN_CTRL s), 1, 1⟩
def WMM_STN_TIME (s : Nat) : Nat := 0x60f008 + 0x80 * s
def WMM_STN_TIME_TIME (s : Nat) : Fld := ⟨(WMM_STN_TIME s), 0, 64⟩
def WMM_STN_EVENT (s : Nat) : Nat := 0x60f018 + 0x80 * s
def WMM_STN_EVENT_STATE_CHANGE (s : Nat) : Fld := ⟨(WMM_STN_EVENT s), 0, 1⟩
def WMM_STN_EVENT_FOCUS_LOST (s : Nat) : Fld := ⟨(WMM_STN_EVENT s), 1, 1⟩
def WMM_STN_EVENT_TRACK_LOST (s : Nat) : Fld := ⟨(WMM_STN_EVENT s), 2, 1⟩
def WMM_STN_EVENT_SLIP (s : Nat) : Fld := ⟨(WMM_STN_EVENT s), 3, 1⟩
def WMM_STN_EVENT_SEEK_FAIL (s : Nat) : Fld := ⟨(WMM_STN_EVENT s), 4, 1⟩
def WMM_STN_EVENT_MOUNT_FAIL (s : Nat) : Fld := ⟨(WMM_STN_EVENT s), 5, 1⟩
def WMM_STN_EVENT_DISC_LOST (s : Nat) : Fld := ⟨(WMM_STN_EVENT s), 6, 1⟩
def WMM_STN_EVENT_UNCLAMP_DEFERRED (s : Nat) : Fld := ⟨(WMM_STN_EVENT s), 7, 1⟩
def WMM_STN_EVENT_ESCALATED (s : Nat) : Fld := ⟨(WMM_STN_EVENT s), 8, 1⟩
def WMM_STN_PU (s d : Nat) : Nat := 0x60f010 + 0x80 * s + 0x4 * d
def WMM_STN_PU_SERVO (s d : Nat) : Fld := ⟨(WMM_STN_PU s d), 0, 16⟩
def WMM_STN_PU_VOLUME_STATE (s d : Nat) : Fld := ⟨(WMM_STN_PU s d), 16, 3⟩
def WMM_STN_PU_LAYER_UNUSABLE (s d : Nat) : Fld := ⟨(WMM_STN_PU s d), 20, 10⟩
def WMM_STN_FOCUS_LOSSES (s : Nat) : Nat := 0x60f040 + 0x80 * s
def WMM_STN_FOCUS_LOSSES_COUNT (s : Nat) : Fld := ⟨(WMM_STN_FOCUS_LOSSES s), 0, 32⟩
def WMM_STN_TRACK_LOSSES (s : Nat) : Nat := 0x60f044 + 0x80 * s
def WMM_STN_TRACK_LOSSES_COUNT (s : Nat) : Fld := ⟨(WMM_STN_TRACK_LOSSES s), 0, 32⟩
def WMM_STN_SLIPS (s : Nat) : Nat := 0x60f048 + 0x80 * s
def WMM_STN_SLIPS_COUNT (s : Nat) : Fld := ⟨(WMM_STN_SLIPS s), 0, 32⟩
def WMM_STN_JUMPS (s : Nat) : Nat := 0x60f04c + 0x80 * s
def WMM_STN_JUMPS_COUNT (s : Nat) : Fld := ⟨(WMM_STN_JUMPS s), 0, 32⟩
def WMM_STN_LAYER_JUMPS (s : Nat) : Nat := 0x60f050 + 0x80 * s
def WMM_STN_LAYER_JUMPS_COUNT (s : Nat) : Fld := ⟨(WMM_STN_LAYER_JUMPS s), 0, 32⟩
def WMM_STN_SEEKS (s : Nat) : Nat := 0x60f054 + 0x80 * s
def WMM_STN_SEEKS_COUNT (s : Nat) : Fld := ⟨(WMM_STN_SEEKS s), 0, 32⟩
def WMM_STN_SEEK_RETRIES (s : Nat) : Nat := 0x60f058 + 0x80 * s
def WMM_STN_SEEK_RETRIES_COUNT (s : Nat) : Fld := ⟨(WMM_STN_SEEK_RETRIES s), 0, 32⟩
def WMM_STN_PARKS (s : Nat) : Nat := 0x60f05c + 0x80 * s
def WMM_STN_PARKS_COUNT (s : Nat) : Fld := ⟨(WMM_STN_PARKS s), 0, 32⟩
def WMM_STN_MOUNTS (s : Nat) : Nat := 0x60f060 + 0x80 * s
def WMM_STN_MOUNTS_COUNT (s : Nat) : Fld := ⟨(WMM_STN_MOUNTS s), 0, 32⟩
def WMM_STN_MOUNT_FAILS (s : Nat) : Nat := 0x60f064 + 0x80 * s
def WMM_STN_MOUNT_FAILS_COUNT (s : Nat) : Fld := ⟨(WMM_STN_MOUNT_FAILS s), 0, 32⟩
/-! ### Block BOOT (15_reset_boot R628) -/

def BOOT_STATUS : Nat := 0x700000
def BOOT_STATUS_STAGE : Fld := ⟨BOOT_STATUS, 0, 4⟩
def BOOT_STATUS_SRC_HOST : Fld := ⟨BOOT_STATUS, 4, 1⟩
def BOOT_STATUS_CONFIG_DEFAULT : Fld := ⟨BOOT_STATUS, 5, 1⟩
def BOOT_STATUS_MDIE_MISSING : Fld := ⟨BOOT_STATUS, 6, 1⟩
def BOOT_STATUS_PERSISTING : Fld := ⟨BOOT_STATUS, 7, 1⟩
def BOOT_STATUS_HALT_CAUSE : Fld := ⟨BOOT_STATUS, 8, 4⟩
def BOOT_EVENT : Nat := 0x700004
def BOOT_EVENT_BANK_FALLBACK : Fld := ⟨BOOT_EVENT, 0, 1⟩
def BOOT_EVENT_CONFIG_WRITTEN : Fld := ⟨BOOT_EVENT, 1, 1⟩
def BOOT_EVENT_PERSIST_DONE : Fld := ⟨BOOT_EVENT, 2, 1⟩
def BOOT_EVENT_PERSIST_SKIPPED : Fld := ⟨BOOT_EVENT, 3, 1⟩
def BOOT_EVENT_PERSIST_FAIL : Fld := ⟨BOOT_EVENT, 4, 1⟩
def BOOT_EVENT_JOURNAL_FAIL : Fld := ⟨BOOT_EVENT, 5, 1⟩
def BOOT_RESET : Nat := 0x700008
def BOOT_RESET_KEY : Fld := ⟨BOOT_RESET, 0, 32⟩
def BOOT_LAST_RESET : Nat := 0x70000c
def BOOT_LAST_RESET_SOURCE : Fld := ⟨BOOT_LAST_RESET, 0, 2⟩
def BOOT_READY_TIME : Nat := 0x700010
def BOOT_READY_TIME_TIME : Fld := ⟨BOOT_READY_TIME, 0, 64⟩
def BOOT_FUSE : Nat := 0x700018
def BOOT_FUSE_OWNER_KEY_SET : Fld := ⟨BOOT_FUSE, 0, 1⟩
def BOOT_FUSE_OWNER_ONLY : Fld := ⟨BOOT_FUSE, 1, 1⟩
def BOOT_HOST_CMD : Nat := 0x700020
def BOOT_HOST_CMD_OP : Fld := ⟨BOOT_HOST_CMD, 0, 3⟩
def BOOT_HOST_CMD_CLASS : Fld := ⟨BOOT_HOST_CMD, 4, 3⟩
def BOOT_HOST_OFFSET : Nat := 0x700024
def BOOT_HOST_OFFSET_OFFSET : Fld := ⟨BOOT_HOST_OFFSET, 0, 25⟩
def BOOT_HOST_LENGTH : Nat := 0x700028
def BOOT_HOST_LENGTH_LENGTH : Fld := ⟨BOOT_HOST_LENGTH, 0, 20⟩
def BOOT_HOST_STATUS : Nat := 0x70002c
def BOOT_HOST_STATUS_BUSY : Fld := ⟨BOOT_HOST_STATUS, 0, 1⟩
def BOOT_HOST_STATUS_RESULT : Fld := ⟨BOOT_HOST_STATUS, 4, 3⟩
def BOOT_IMAGE (c : Nat) : Nat := 0x700040 + 0x4 * c
def BOOT_IMAGE_STATE (c : Nat) : Fld := ⟨(BOOT_IMAGE c), 0, 2⟩
def BOOT_IMAGE_SIGNER (c : Nat) : Fld := ⟨(BOOT_IMAGE c), 2, 1⟩
def BOOT_IMAGE_BANK (c : Nat) : Fld := ⟨(BOOT_IMAGE c), 3, 1⟩
def BOOT_IMAGE_CHECK (c : Nat) : Fld := ⟨(BOOT_IMAGE c), 4, 4⟩
def BOOT_VERSION (c : Nat) : Nat := 0x700060 + 0x4 * c
def BOOT_VERSION_VERSION (c : Nat) : Fld := ⟨(BOOT_VERSION c), 0, 32⟩
def BOOT_SVN (c : Nat) : Nat := 0x700080 + 0x4 * c
def BOOT_SVN_MIN_SVN (c : Nat) : Fld := ⟨(BOOT_SVN c), 0, 6⟩

end Sys2Proof.Machine
end

