-- ==== Sys2Proof/Machine/RegTable.lean ====
section
/-! DEFINITION. The field maps as data: for every register its place, its width and, for every field, access type (Table 0.5), reset class (Table 0.6), reset value and the values that are not reserved (R27). Fields with reset "—" have class `live` and hold 0 here until an event sets them (log entry 4). -/

namespace Sys2Proof.Machine

/-- Registers of block GEN (12_command_cores R526). -/
def regsGEN : List RegDef := [
  -- GEN_ID
  ⟨0x0, [], false,
    [⟨0, 16, .ro, .p, 0x6416, []⟩,
     ⟨16, 8, .ro, .p, 0xc2, []⟩]⟩,
  -- GEN_VENDOR
  ⟨0x4, [], false,
    [⟨0, 16, .ro, .p, 0, []⟩]⟩,
  -- GEN_CONFIG
  ⟨0x8, [], false,
    [⟨0, 2, .ro, .live, 0, []⟩,
     ⟨2, 1, .ro, .live, 0, []⟩,
     ⟨3, 1, .ro, .live, 0, []⟩,
     ⟨4, 1, .ro, .live, 0, []⟩]⟩,
  -- GEN_RESIDENT
  ⟨0xc, [], false,
    [⟨0, 32, .ro, .live, 0, []⟩]⟩,
  -- GEN_LOG_COUNT
  ⟨0x10, [], false,
    [⟨0, 32, .ro, .w, 0, []⟩]⟩,
  -- GEN_ACCESS
  ⟨0x14, [], false,
    [⟨0, 16, .rh, .w, 0, []⟩,
     ⟨16, 16, .rh, .w, 0, []⟩]⟩,
  -- GEN_SCRATCH
  ⟨0x18, [], true,
    [⟨0, 64, .rw, .p, 0, []⟩]⟩]

/-- Registers of block SLC (12_command_cores R527). -/
def regsSLC : List RegDef := [
  -- SLC_PORT_CTRL
  ⟨0x10000, [(2, 0x100)], false,
    [⟨0, 1, .rw, .f, 0, []⟩]⟩,
  -- SLC_PORT_STATUS
  ⟨0x10004, [(2, 0x100)], false,
    [⟨0, 1, .ro, .f, 0, []⟩,
     ⟨1, 17, .ro, .f, 0, []⟩]⟩,
  -- SLC_ADMIN_BASE
  ⟨0x10008, [(2, 0x100)], true,
    [⟨12, 52, .rw, .f, 0, []⟩]⟩,
  -- SLC_ADMIN_CFG
  ⟨0x10010, [(2, 0x100)], false,
    [⟨0, 5, .rw, .f, 4, [(4, 16)]⟩,
     ⟨16, 11, .rw, .f, 0, []⟩]⟩,
  -- SLC_ADMIN_INT
  ⟨0x10014, [(2, 0x100)], false,
    [⟨0, 8, .rw, .f, 1, []⟩,
     ⟨8, 8, .rw, .f, 0, []⟩,
     ⟨16, 1, .rw, .f, 1, []⟩]⟩,
  -- SLC_TAKEN
  ⟨0x10040, [(2, 0x100)], false,
    [⟨0, 32, .rh, .f, 0, []⟩]⟩,
  -- SLC_POSTED
  ⟨0x10044, [(2, 0x100)], false,
    [⟨0, 32, .rh, .f, 0, []⟩]⟩,
  -- SLC_INTAKE_ERRORS
  ⟨0x10048, [(2, 0x100)], false,
    [⟨0, 32, .rh, .f, 0, []⟩]⟩,
  -- SLC_WINDOW_DISCARDS
  ⟨0x1004c, [(2, 0x100)], false,
    [⟨0, 32, .rh, .f, 0, []⟩]⟩,
  -- SLC_HEAD_DISCARDS
  ⟨0x10050, [(2, 0x100)], false,
    [⟨0, 32, .rh, .f, 0, []⟩]⟩,
  -- SLC_LATE_DATA
  ⟨0x10054, [(2, 0x100)], false,
    [⟨0, 32, .rh, .f, 0, []⟩]⟩,
  -- SLC_Q_SELECT
  ⟨0x10800, [(2, 0x40000000)], false,
    [⟨0, 14, .rw, .f, 0, []⟩]⟩,
  -- SLC_Q_INFO
  ⟨0x10804, [(2, 0x40000000)], false,
    [⟨0, 1, .ro, .live, 0, []⟩,
     ⟨1, 1, .ro, .live, 0, []⟩,
     ⟨2, 1, .ro, .live, 0, []⟩,
     ⟨3, 9, .ro, .live, 0, []⟩,
     ⟨12, 1, .ro, .live, 0, []⟩,
     ⟨13, 1, .ro, .live, 0, []⟩]⟩,
  -- SLC_Q_RING
  ⟨0x10808, [(2, 0x40000000)], false,
    [⟨0, 14, .ro, .live, 0, []⟩,
     ⟨16, 4, .ro, .live, 0, []⟩]⟩]

/-- Registers of block CIS (12_command_cores R528). -/
def regsCIS : List RegDef := [
  -- CIS_CTRL
  ⟨0x20000, [], false,
    [⟨0, 18, .rw, .w, 0x4000, [(4096, 131072)]⟩,
     ⟨20, 4, .rw, .w, 4, [(1, 15)]⟩]⟩,
  -- CIS_STATUS
  ⟨0x20004, [], false,
    [⟨0, 18, .ro, .live, 0, []⟩,
     ⟨18, 1, .ro, .live, 0, []⟩,
     ⟨19, 1, .ro, .live, 0, []⟩]⟩,
  -- CIS_DEEP_BASE
  ⟨0x20008, [], true,
    [⟨20, 44, .lk, .p, 0, []⟩]⟩,
  -- CIS_DEEP_SIZE
  ⟨0x20010, [], false,
    [⟨0, 32, .lk, .p, 0x100, []⟩]⟩,
  -- CIS_DEEP_USED
  ⟨0x20014, [], false,
    [⟨0, 32, .ro, .w, 0, []⟩]⟩,
  -- CIS_EVENT
  ⟨0x20018, [], false,
    [⟨0, 1, .w1c, .w, 0, []⟩,
     ⟨1, 1, .w1c, .w, 0, []⟩,
     ⟨2, 1, .w1c, .w, 0, []⟩,
     ⟨3, 1, .w1c, .w, 0, []⟩]⟩,
  -- CIS_Q_SELECT
  ⟨0x20020, [(2, 0x40000000)], false,
    [⟨0, 15, .rw, .f, 0, []⟩]⟩,
  -- CIS_Q_INFO
  ⟨0x20024, [(2, 0x40000000)], false,
    [⟨0, 13, .ro, .live, 0, []⟩,
     ⟨16, 13, .ro, .live, 0, []⟩]⟩,
  -- CIS_SPILLS
  ⟨0x20040, [], false,
    [⟨0, 32, .rh, .w, 0, []⟩]⟩,
  -- CIS_RECALLS
  ⟨0x20044, [], false,
    [⟨0, 32, .rh, .w, 0, []⟩]⟩,
  -- CIS_RECALL_STALLS
  ⟨0x20048, [], false,
    [⟨0, 32, .rh, .w, 0, []⟩]⟩,
  -- CIS_CORRECTED
  ⟨0x2004c, [], false,
    [⟨0, 32, .rh, .w, 0, []⟩]⟩,
  -- CIS_DOUBLE
  ⟨0x20050, [], false,
    [⟨0, 32, .rh, .w, 0, []⟩]⟩]

/-- Registers of block CCH (13_cache_buffer R564). -/
def regsCCH : List RegDef := [
  -- CCH_CTRL
  ⟨0x30000, [], false,
    [⟨0, 1, .ro, .w, 1, []⟩,
     ⟨1, 1, .rw, .w, 1, []⟩]⟩,
  -- CCH_STATUS
  ⟨0x30004, [], false,
    [⟨0, 15, .ro, .live, 0, []⟩,
     ⟨16, 9, .ro, .live, 0, []⟩,
     ⟨25, 7, .ro, .live, 0, []⟩]⟩,
  -- CCH_EVENT
  ⟨0x30008, [], false,
    [⟨0, 1, .w1c, .w, 0, []⟩,
     ⟨1, 1, .w1c, .w, 0, []⟩,
     ⟨2, 1, .w1c, .w, 0, []⟩,
     ⟨3, 1, .w1c, .w, 0, []⟩,
     ⟨4, 1, .w1c, .w, 0, []⟩]⟩,
  -- CCH_DRAIN
  ⟨0x3000c, [], false,
    [⟨0, 12, .rh, .w, 0x40, [(1, 4095)]⟩,
     ⟨12, 8, .rh, .w, 0x3c, [(1, 255)]⟩,
     ⟨20, 7, .rh, .w, 0x4b, [(10, 95)]⟩]⟩,
  -- CCH_HITS
  ⟨0x30100, [], false,
    [⟨0, 32, .rh, .w, 0, []⟩]⟩,
  -- CCH_MISSES
  ⟨0x30104, [], false,
    [⟨0, 32, .rh, .w, 0, []⟩]⟩,
  -- CCH_VICTIM_HITS
  ⟨0x30108, [], false,
    [⟨0, 32, .rh, .w, 0, []⟩]⟩,
  -- CCH_EVICT_HITS
  ⟨0x3010c, [], false,
    [⟨0, 32, .rh, .w, 0, []⟩]⟩,
  -- CCH_MERGES
  ⟨0x30110, [], false,
    [⟨0, 32, .rh, .w, 0, []⟩]⟩,
  -- CCH_MISS_STALLS
  ⟨0x30114, [], false,
    [⟨0, 32, .rh, .w, 0, []⟩]⟩,
  -- CCH_WRITEBACKS
  ⟨0x30118, [], false,
    [⟨0, 32, .rh, .w, 0, []⟩]⟩,
  -- CCH_PARITY_CLEAN
  ⟨0x3011c, [], false,
    [⟨0, 32, .rh, .w, 0, []⟩]⟩,
  -- CCH_FILL_STALE
  ⟨0x30120, [], false,
    [⟨0, 32, .rh, .w, 0, []⟩]⟩,
  -- CCH_FILL_MISMATCH
  ⟨0x30124, [], false,
    [⟨0, 32, .rh, .w, 0, []⟩]⟩,
  -- CCH_ARRIVALS
  ⟨0x30128, [], false,
    [⟨0, 32, .rh, .w, 0, []⟩]⟩,
  -- CCH_INSTALLS
  ⟨0x3012c, [], false,
    [⟨0, 32, .rh, .w, 0, []⟩]⟩]

/-- Registers of block BUF (13_cache_buffer R565). -/
def regsBUF : List RegDef := [
  -- BUF_CFG
  ⟨0x40000, [], false,
    [⟨0, 1, .lk, .p, 0, []⟩,
     ⟨1, 1, .lk, .p, 0, []⟩]⟩,
  -- BUF_STATUS
  ⟨0x40004, [], false,
    [⟨0, 1, .ro, .live, 0, []⟩,
     ⟨1, 1, .ro, .live, 0, []⟩,
     ⟨2, 1, .ro, .live, 0, []⟩,
     ⟨3, 1, .ro, .live, 0, []⟩,
     ⟨4, 1, .ro, .live, 0, []⟩,
     ⟨16, 9, .ro, .live, 0, []⟩]⟩,
  -- BUF_EVENT
  ⟨0x40008, [], false,
    [⟨0, 1, .w1c, .w, 0, []⟩,
     ⟨1, 1, .w1c, .w, 0, []⟩,
     ⟨2, 1, .w1c, .w, 0, []⟩,
     ⟨3, 1, .w1c, .w, 0, []⟩,
     ⟨4, 1, .w1c, .p, 0, []⟩,
     ⟨5, 1, .w1c, .w, 0, []⟩,
     ⟨6, 1, .w1c, .p, 0, []⟩]⟩,
  -- BUF_SCRUB_START
  ⟨0x40010, [], true,
    [⟨6, 58, .rh, .w, 0, []⟩]⟩,
  -- BUF_SCRUB_LENGTH
  ⟨0x40018, [], true,
    [⟨6, 58, .rh, .w, 0, []⟩]⟩,
  -- BUF_SCRUB_CTRL
  ⟨0x40020, [], false,
    [⟨0, 1, .wo, .w, 0, []⟩,
     ⟨1, 1, .rh, .w, 0, []⟩]⟩,
  -- BUF_SCRUB_RESULT
  ⟨0x40028, [], true,
    [⟨0, 32, .ro, .w, 0, []⟩,
     ⟨32, 32, .ro, .w, 0, []⟩]⟩,
  -- BUF_LAST_CE
  ⟨0x40030, [], true,
    [⟨0, 38, .ro, .w, 0, []⟩,
     ⟨40, 4, .ro, .w, 0, []⟩,
     ⟨44, 3, .ro, .w, 0, []⟩]⟩,
  -- BUF_LAST_UE
  ⟨0x40038, [], true,
    [⟨0, 38, .ro, .w, 0, []⟩,
     ⟨38, 1, .ro, .w, 0, []⟩]⟩,
  -- BUF_FILL_STALE
  ⟨0x40040, [], false,
    [⟨0, 12, .wo, .w, 0, []⟩,
     ⟨12, 4, .wo, .w, 0, []⟩]⟩,
  -- BUF_INJECT
  ⟨0x40044, [], false,
    [⟨0, 4, .rw, .w, 0, [(0, 9)]⟩,
     ⟨4, 3, .rw, .w, 0, []⟩,
     ⟨8, 8, .rw, .w, 0, []⟩,
     ⟨16, 1, .wo, .w, 0, []⟩,
     ⟨17, 1, .ro, .w, 0, []⟩]⟩,
  -- BUF_CE_UNITS
  ⟨0x40100, [], false,
    [⟨0, 32, .rh, .w, 0, []⟩]⟩,
  -- BUF_CE_DEVICE_UNITS
  ⟨0x40104, [], false,
    [⟨0, 32, .rh, .w, 0, []⟩]⟩,
  -- BUF_UE_UNITS
  ⟨0x40108, [], false,
    [⟨0, 32, .rh, .w, 0, []⟩]⟩,
  -- BUF_CE_WRITEBACKS
  ⟨0x4010c, [], false,
    [⟨0, 32, .rh, .w, 0, []⟩]⟩,
  -- BUF_RMW
  ⟨0x40110, [], false,
    [⟨0, 32, .rh, .w, 0, []⟩]⟩,
  -- BUF_SCRUB_UNITS
  ⟨0x40114, [], false,
    [⟨0, 32, .rh, .w, 0, []⟩]⟩]

/-- Registers of block FLM (01_architecture R70). -/
def regsFLM : List RegDef := [
  -- FLM_CTRL
  ⟨0x50000, [], false,
    [⟨0, 1, .wo, .w, 0, []⟩,
     ⟨1, 2, .rw, .w, 0, [(0, 2)]⟩]⟩,
  -- FLM_STATUS
  ⟨0x50004, [], false,
    [⟨0, 1, .ro, .live, 0, []⟩,
     ⟨1, 1, .ro, .live, 0, []⟩,
     ⟨2, 2, .ro, .live, 0, []⟩,
     ⟨4, 1, .ro, .live, 0, []⟩,
     ⟨5, 1, .ro, .live, 0, []⟩]⟩,
  -- FLM_LANE_STATUS
  ⟨0x50008, [], false,
    [⟨0, 16, .ro, .live, 0, []⟩,
     ⟨16, 16, .ro, .live, 0, []⟩]⟩,
  -- FLM_EVENT
  ⟨0x5000c, [], false,
    [⟨0, 1, .w1c, .w, 0, []⟩,
     ⟨1, 1, .w1c, .w, 0, []⟩,
     ⟨2, 1, .w1c, .w, 0, []⟩,
     ⟨3, 1, .w1c, .w, 0, []⟩,
     ⟨4, 1, .w1c, .w, 0, []⟩]⟩,
  -- FLM_CRC_ERRORS
  ⟨0x50010, [], false,
    [⟨0, 32, .rh, .w, 0, []⟩]⟩,
  -- FLM_REPLAYS
  ⟨0x50014, [], false,
    [⟨0, 32, .rh, .w, 0, []⟩]⟩,
  -- FLM_RETRAINS
  ⟨0x50018, [], false,
    [⟨0, 32, .rh, .w, 0, []⟩]⟩,
  -- FLM_LEDGER
  ⟨0x50020, [], true,
    [⟨0, 64, .ro, .p, 0, []⟩]⟩,
  -- FLM_LEDGER_SKEW
  ⟨0x50028, [], false,
    [⟨0, 8, .ro, .w, 0, []⟩,
     ⟨8, 8, .rh, .w, 0, []⟩]⟩]

/-- Registers of block WMH (10_watermasters R456). -/
def regsWMH : List RegDef := [
  -- WMH_ROLE
  ⟨0x60000, [], false,
    [⟨0, 3, .ro, .live, 0, []⟩,
     ⟨3, 1, .ro, .live, 0, []⟩,
     ⟨4, 1, .ro, .live, 0, []⟩,
     ⟨5, 1, .ro, .live, 0, []⟩,
     ⟨6, 1, .ro, .live, 0, []⟩,
     ⟨7, 1, .ro, .live, 0, []⟩]⟩,
  -- WMH_CTRL
  ⟨0x60004, [], false,
    [⟨0, 16, .rw, .w, 0xe10, [(60, 65535)]⟩,
     ⟨16, 1, .rw, .w, 1, []⟩,
     ⟨17, 1, .wo, .w, 0, []⟩]⟩,
  -- WMH_EVENT
  ⟨0x60008, [], false,
    [⟨0, 1, .w1c, .w, 0, []⟩,
     ⟨1, 1, .w1c, .w, 0, []⟩,
     ⟨2, 1, .w1c, .w, 0, []⟩,
     ⟨3, 1, .w1c, .w, 0, []⟩,
     ⟨4, 1, .w1c, .w, 0, []⟩,
     ⟨5, 1, .w1c, .w, 0, []⟩,
     ⟨6, 1, .w1c, .w, 0, []⟩,
     ⟨7, 1, .w1c, .w, 0, []⟩,
     ⟨8, 1, .w1c, .w, 0, []⟩,
     ⟨9, 1, .w1c, .w, 0, []⟩,
     ⟨10, 1, .w1c, .w, 0, []⟩]⟩,
  -- WMH_FATAL
  ⟨0x6000c, [], false,
    [⟨0, 2, .ro, .w, 0, []⟩]⟩,
  -- WMH_FATAL_TIME
  ⟨0x60010, [], true,
    [⟨0, 64, .ro, .w, 0, []⟩]⟩,
  -- WMH_CORES
  ⟨0x60018, [], false,
    [⟨0, 12, .ro, .live, 0, []⟩,
     ⟨16, 12, .ro, .live, 0, []⟩]⟩,
  -- WMH_TAKEOVERS
  ⟨0x60100, [], false,
    [⟨0, 32, .rh, .w, 0, []⟩]⟩,
  -- WMH_ROLE_SWAPS
  ⟨0x60104, [], false,
    [⟨0, 32, .rh, .w, 0, []⟩]⟩,
  -- WMH_PATH_FAULTS
  ⟨0x60108, [], false,
    [⟨0, 32, .rh, .w, 0, []⟩]⟩,
  -- WMH_SPLITS
  ⟨0x6010c, [], false,
    [⟨0, 32, .rh, .w, 0, []⟩]⟩,
  -- WMH_CORE_FAILS
  ⟨0x60110, [], false,
    [⟨0, 32, .rh, .w, 0, []⟩]⟩]

/-- Registers of block THH (14_calibration_thermal R593). -/
def regsTHH : List RegDef := [
  -- THH_LIMITS
  ⟨0x70000, [], false,
    [⟨0, 8, .rw, .w, 0x5f, []⟩,
     ⟨8, 8, .rw, .w, 0x64, []⟩,
     ⟨16, 8, .rw, .w, 0x68, []⟩,
     ⟨24, 4, .rw, .w, 5, [(1, 15)]⟩]⟩,
  -- THH_STATUS
  ⟨0x70004, [], false,
    [⟨0, 2, .ro, .live, 0, []⟩,
     ⟨2, 1, .ro, .live, 0, []⟩,
     ⟨3, 4, .ro, .live, 0, []⟩,
     ⟨7, 12, .ro, .live, 0, []⟩]⟩,
  -- THH_EVENT
  ⟨0x70008, [], false,
    [⟨0, 1, .w1c, .w, 0, []⟩,
     ⟨1, 1, .w1c, .w, 0, []⟩,
     ⟨2, 1, .w1c, .w, 0, []⟩,
     ⟨3, 1, .w1c, .w, 0, []⟩,
     ⟨4, 1, .w1c, .w, 0, []⟩,
     ⟨5, 1, .w1c, .w, 0, []⟩]⟩,
  -- THH_AGING_CFG
  ⟨0x7000c, [], false,
    [⟨0, 10, .rw, .w, 0x32, [(10, 500)]⟩]⟩,
  -- THH_SENSOR
  ⟨0x70040, [(12, 0x4)], false,
    [⟨0, 11, .ro, .live, 0, []⟩,
     ⟨11, 3, .ro, .live, 0, []⟩,
     ⟨14, 1, .ro, .live, 0, []⟩,
     ⟨16, 11, .rh, .w, 0, []⟩]⟩,
  -- THH_AGING
  ⟨0x70080, [(8, 0x4)], false,
    [⟨0, 11, .ro, .live, 0, []⟩,
     ⟨16, 1, .ro, .live, 0, []⟩,
     ⟨17, 1, .ro, .live, 0, []⟩]⟩,
  -- THH_WARNS
  ⟨0x70100, [], false,
    [⟨0, 32, .rh, .w, 0, []⟩]⟩,
  -- THH_THROTTLES
  ⟨0x70104, [], false,
    [⟨0, 32, .rh, .w, 0, []⟩]⟩,
  -- THH_PARKS
  ⟨0x70108, [], false,
    [⟨0, 32, .rh, .w, 0, []⟩]⟩,
  -- THH_BROKEN
  ⟨0x7010c, [], false,
    [⟨0, 32, .rh, .w, 0, []⟩]⟩]

/-- Registers of block CAL (14_calibration_thermal R593). -/
def regsCAL0 : List RegDef := [
  -- CAL_CTRL
  ⟨0x680000, [], false,
    [⟨0, 1, .rw, .w, 1, []⟩,
     ⟨1, 1, .rw, .w, 1, []⟩,
     ⟨2, 1, .rw, .w, 1, []⟩,
     ⟨3, 1, .wo, .w, 0, []⟩,
     ⟨4, 1, .wo, .w, 0, []⟩]⟩,
  -- CAL_LIMITS
  ⟨0x680004, [], false,
    [⟨0, 8, .rw, .w, 0x5f, []⟩,
     ⟨8, 8, .rw, .w, 0x64, []⟩,
     ⟨16, 8, .rw, .w, 0x68, []⟩,
     ⟨24, 4, .rw, .w, 5, [(1, 15)]⟩]⟩,
  -- CAL_STATUS
  ⟨0x680008, [], false,
    [⟨0, 2, .ro, .live, 0, []⟩,
     ⟨2, 1, .ro, .live, 0, []⟩,
     ⟨3, 4, .ro, .live, 0, []⟩,
     ⟨7, 12, .ro, .live, 0, []⟩,
     ⟨19, 1, .ro, .live, 0, []⟩]⟩,
  -- CAL_EVENT
  ⟨0x68000c, [], false,
    [⟨0, 1, .w1c, .w, 0, []⟩,
     ⟨1, 1, .w1c, .w, 0, []⟩,
     ⟨2, 1, .w1c, .w, 0, []⟩,
     ⟨3, 1, .w1c, .w, 0, []⟩,
     ⟨4, 1, .w1c, .w, 0, []⟩,
     ⟨5, 1, .w1c, .w, 0, []⟩,
     ⟨6, 1, .w1c, .w, 0, []⟩,
     ⟨7, 1, .w1c, .w, 0, []⟩,
     ⟨8, 1, .w1c, .w, 0, []⟩,
     ⟨9, 1, .w1c, .w, 0, []⟩,
     ⟨10, 1, .w1c, .w, 0, []⟩]⟩,
  -- CAL_PLL
  ⟨0x680010, [], false,
    [⟨0, 10, .ro, .live, 0, []⟩,
     ⟨10, 6, .ro, .live, 0, []⟩,
     ⟨16, 1, .ro, .live, 0, []⟩]⟩,
  -- CAL_REF
  ⟨0x680014, [], false,
    [⟨0, 10, .rh, .p, 0, []⟩,
     ⟨16, 10, .rw, .p, 0, []⟩]⟩,
  -- CAL_AGING_CFG
  ⟨0x680018, [], false,
    [⟨0, 10, .rw, .w, 0x32, [(10, 500)]⟩]⟩,
  -- CAL_DEV_ITEMS
  ⟨0x68001c, [], false,
    [⟨0, 4, .ro, .w, 0, []⟩,
     ⟨4, 4, .ro, .w, 0, []⟩]⟩,
  -- CAL_SENSOR
  ⟨0x680040, [(12, 0x4)], false,
    [⟨0, 11, .ro, .live, 0, []⟩,
     ⟨11, 3, .ro, .live, 0, []⟩,
     ⟨14, 1, .ro, .live, 0, []⟩,
     ⟨16, 11, .rh, .w, 0, []⟩]⟩,
  -- CAL_AGING
  ⟨0x680080, [(8, 0x4)], false,
    [⟨0, 11, .ro, .live, 0, []⟩,
     ⟨16, 1, .ro, .live, 0, []⟩,
     ⟨17, 1, .ro, .live, 0, []⟩]⟩,
  -- CAL_ACCEPTS
  ⟨0x680100, [], false,
    [⟨0, 32, .rh, .w, 0, []⟩]⟩,
  -- CAL_REJECTS
  ⟨0x680104, [], false,
    [⟨0, 32, .rh, .w, 0, []⟩]⟩,
  -- CAL_FAILS
  ⟨0x680108, [], false,
    [⟨0, 32, .rh, .w, 0, []⟩]⟩,
  -- CAL_ABANDONED
  ⟨0x68010c, [], false,
    [⟨0, 32, .rh, .w, 0, []⟩]⟩,
  -- CAL_WARNS
  ⟨0x680110, [], false,
    [⟨0, 32, .rh, .w, 0, []⟩]⟩,
  -- CAL_THROTTLES
  ⟨0x680114, [], false,
    [⟨0, 32, .rh, .w, 0, []⟩]⟩,
  -- CAL_PARKS
  ⟨0x680118, [], false,
    [⟨0, 32, .rh, .w, 0, []⟩]⟩,
  -- CAL_BAND_CHANGES
  ⟨0x68011c, [], false,
    [⟨0, 32, .rh, .w, 0, []⟩]⟩,
  -- CAL_BROKEN
  ⟨0x680120, [], false,
    [⟨0, 32, .rh, .w, 0, []⟩]⟩,
  -- CAL_PU_CTRL
  ⟨0x681000, [(16, 0x1000)], false,
    [⟨0, 1, .wo, .w, 0, []⟩,
     ⟨1, 3, .rh, .w, 0, [(0, 1)]⟩]⟩,
  -- CAL_PU_STATUS
  ⟨0x681004, [(16, 0x1000)], false,
    [⟨0, 1, .ro, .live, 0, []⟩,
     ⟨1, 4, .ro, .live, 0, []⟩,
     ⟨5, 1, .ro, .live, 0, []⟩,
     ⟨6, 1, .ro, .w, 0, []⟩,
     ⟨7, 1, .ro, .live, 0, []⟩,
     ⟨8, 2, .ro, .live, 0, []⟩]⟩,
  -- CAL_TH_CFG
  ⟨0x681008, [(16, 0x1000)], false,
    [⟨0, 16, .rw, .w, 0x2710, []⟩,
     ⟨16, 16, .rw, .w, 0xd6b, []⟩]⟩,
  -- CAL_TH_LIMITS
  ⟨0x68100c, [(16, 0x1000)], false,
    [⟨0, 8, .rw, .w, 0x37, []⟩,
     ⟨8, 8, .rw, .w, 0x3c, []⟩,
     ⟨16, 8, .rw, .w, 0x41, []⟩,
     ⟨24, 4, .rw, .w, 5, [(1, 15)]⟩]⟩,
  -- CAL_TH_TEMP
  ⟨0x681010, [(16, 0x1000)], false,
    [⟨0, 11, .ro, .live, 0, []⟩,
     ⟨11, 3, .ro, .live, 0, []⟩,
     ⟨14, 1, .ro, .live, 0, []⟩,
     ⟨16, 11, .rh, .w, 0, []⟩]⟩]

/-- Registers of block CAL (14_calibration_thermal R593). -/
def regsCAL1 : List RegDef := [
  -- CAL_WPOW_TC
  ⟨0x681014, [(16, 0x1000)], false,
    [⟨0, 16, .rw, .w, 0xc5, []⟩]⟩,
  -- CAL_PU_TSENS
  ⟨0x681018, [(16, 0x1000)], false,
    [⟨0, 32, .rh, .w, 0, []⟩]⟩,
  -- CAL_ITEM
  ⟨0x681020, [(16, 0x1000), (9, 0x4)], false,
    [⟨0, 2, .ro, .w, 0, []⟩,
     ⟨2, 2, .ro, .w, 0, []⟩,
     ⟨4, 8, .ro, .w, 0, []⟩,
     ⟨16, 16, .ro, .w, 0, []⟩]⟩,
  -- CAL_LANE_TRIM
  ⟨0x681080, [(16, 0x1000), (8, 0x4)], false,
    [⟨0, 10, .rh, .p, 0, []⟩]⟩,
  -- CAL_PU_RESULT
  ⟨0x6810c0, [(16, 0x1000), (14, 0x4)], false,
    [⟨0, 16, .ro, .live, 0, []⟩]⟩]

/-- Registers of block AFE (03_optical_front_end R154). -/
def regsAFE : List RegDef := [
  -- AFE_PLL_STATUS
  ⟨0x100000, [], false,
    [⟨0, 1, .ro, .live, 0, []⟩,
     ⟨1, 1, .ro, .live, 0, []⟩,
     ⟨2, 6, .ro, .live, 0, []⟩]⟩,
  -- AFE_PLL_CTRL
  ⟨0x100004, [], false,
    [⟨0, 1, .wo, .w, 0, []⟩]⟩,
  -- AFE_EVENT
  ⟨0x100008, [], false,
    [⟨0, 1, .w1c, .w, 0, []⟩,
     ⟨1, 1, .w1c, .w, 0, []⟩,
     ⟨2, 1, .w1c, .w, 0, []⟩,
     ⟨3, 1, .w1c, .w, 0, []⟩]⟩,
  -- AFE_UNLOCK_COUNT
  ⟨0x10000c, [], false,
    [⟨0, 32, .rh, .w, 0, []⟩]⟩,
  -- AFE_LINK_STATUS
  ⟨0x100100, [(8, 0x40)], false,
    [⟨0, 8, .ro, .live, 0, []⟩,
     ⟨8, 2, .ro, .live, 0, []⟩,
     ⟨10, 1, .ro, .live, 0, []⟩,
     ⟨11, 1, .ro, .live, 0, []⟩,
     ⟨12, 8, .ro, .live, 0, []⟩]⟩,
  -- AFE_LINK_FRAMES
  ⟨0x100104, [(8, 0x40)], false,
    [⟨0, 32, .rh, .w, 0, []⟩]⟩,
  -- AFE_LINK_HELD
  ⟨0x100108, [(8, 0x40)], false,
    [⟨0, 32, .rh, .w, 0, []⟩]⟩,
  -- AFE_LINK_LAST
  ⟨0x100110, [(8, 0x40), (6, 0x4)], false,
    [⟨0, 16, .ro, .live, 0, []⟩,
     ⟨16, 16, .ro, .live, 0, []⟩]⟩,
  -- AFE_PU_CTRL
  ⟨0x101000, [(16, 0x1000)], false,
    [⟨0, 1, .rh, .w, 0, []⟩,
     ⟨1, 1, .rh, .w, 0, []⟩,
     ⟨2, 1, .rh, .w, 0, []⟩]⟩,
  -- AFE_PU_STATUS
  ⟨0x101004, [(16, 0x1000)], false,
    [⟨0, 1, .ro, .live, 0, []⟩,
     ⟨1, 1, .ro, .live, 0, []⟩,
     ⟨2, 1, .ro, .live, 0, []⟩,
     ⟨3, 1, .ro, .live, 0, []⟩,
     ⟨4, 1, .ro, .live, 0, []⟩,
     ⟨5, 1, .ro, .live, 0, []⟩,
     ⟨6, 1, .ro, .live, 0, []⟩,
     ⟨7, 1, .ro, .live, 0, []⟩]⟩,
  -- AFE_TE_MIX
  ⟨0x101008, [(16, 0x1000)], false,
    [⟨0, 16, .rh, .w, 0x4000, []⟩,
     ⟨16, 16, .rh, .w, 0, []⟩]⟩,
  -- AFE_SUM_MIN
  ⟨0x10100c, [(16, 0x1000)], false,
    [⟨0, 14, .rh, .w, 0x200, []⟩]⟩,
  -- AFE_SV_OFFSET
  ⟨0x101010, [(16, 0x1000), (6, 0x4)], false,
    [⟨0, 12, .rh, .w, 0, []⟩]⟩,
  -- AFE_TH_VALUE
  ⟨0x101030, [(16, 0x1000)], false,
    [⟨0, 12, .ro, .live, 0, []⟩]⟩,
  -- AFE_LANE_CFG
  ⟨0x101080, [(16, 0x1000), (8, 0x10)], false,
    [⟨0, 7, .rh, .w, 0x18, [(0, 48)]⟩,
     ⟨8, 5, .rh, .w, 0xf, [(0, 30)]⟩,
     ⟨16, 4, .rh, .w, 0, [(0, 9)]⟩,
     ⟨31, 1, .ro, .live, 0, []⟩]⟩,
  -- AFE_LANE_OFFSET
  ⟨0x101084, [(16, 0x1000), (8, 0x10)], false,
    [⟨0, 8, .rh, .w, 0, []⟩]⟩,
  -- AFE_LANE_LEVEL
  ⟨0x101088, [(16, 0x1000), (8, 0x10)], false,
    [⟨0, 16, .ro, .live, 0, []⟩,
     ⟨16, 1, .ro, .live, 0, []⟩]⟩,
  -- AFE_LANE_CLIP
  ⟨0x10108c, [(16, 0x1000), (8, 0x10)], false,
    [⟨0, 32, .rh, .w, 0, []⟩]⟩]

/-- Registers of block RCH (04_read_channel R207). -/
def regsRCH0 : List RegDef := [
  -- RCH_CTRL
  ⟨0x200000, [(128, 0x1000)], false,
    [⟨0, 1, .rh, .w, 0, []⟩,
     ⟨1, 1, .rh, .w, 1, []⟩,
     ⟨2, 1, .rh, .w, 1, []⟩,
     ⟨3, 2, .rh, .w, 3, [(1, 3)]⟩,
     ⟨5, 1, .rh, .w, 0, []⟩,
     ⟨6, 1, .rh, .w, 0, []⟩,
     ⟨7, 1, .rh, .w, 1, []⟩]⟩,
  -- RCH_STATUS
  ⟨0x200004, [(128, 0x1000)], false,
    [⟨0, 1, .ro, .live, 0, []⟩,
     ⟨1, 1, .ro, .live, 0, []⟩,
     ⟨2, 1, .ro, .live, 0, []⟩,
     ⟨3, 1, .ro, .live, 0, []⟩,
     ⟨4, 1, .ro, .live, 0, []⟩,
     ⟨5, 1, .ro, .live, 0, []⟩,
     ⟨6, 1, .ro, .live, 0, []⟩,
     ⟨7, 1, .ro, .live, 0, []⟩,
     ⟨8, 1, .ro, .live, 0, []⟩,
     ⟨9, 1, .ro, .live, 0, []⟩,
     ⟨10, 1, .ro, .live, 0, []⟩]⟩,
  -- RCH_EVENT
  ⟨0x200008, [(128, 0x1000)], false,
    [⟨0, 1, .w1c, .w, 0, []⟩,
     ⟨1, 1, .w1c, .w, 0, []⟩,
     ⟨2, 1, .w1c, .w, 0, []⟩,
     ⟨3, 1, .w1c, .w, 0, []⟩,
     ⟨4, 1, .w1c, .w, 0, []⟩,
     ⟨5, 1, .w1c, .w, 0, []⟩,
     ⟨6, 1, .w1c, .w, 0, []⟩,
     ⟨7, 1, .w1c, .w, 0, []⟩]⟩,
  -- RCH_SNAP
  ⟨0x20000c, [(128, 0x1000)], false,
    [⟨0, 16, .ro, .w, 0, []⟩,
     ⟨16, 1, .rw, .w, 0, []⟩]⟩,
  -- RCH_STEP_STREAM
  ⟨0x200010, [(128, 0x1000)], false,
    [⟨0, 4, .rh, .w, 0xa, []⟩,
     ⟨4, 4, .rh, .w, 8, []⟩,
     ⟨8, 4, .rh, .w, 0xc, []⟩,
     ⟨12, 4, .rh, .w, 0xc, []⟩,
     ⟨16, 4, .rh, .w, 0xd, []⟩,
     ⟨20, 4, .rh, .w, 6, []⟩,
     ⟨24, 4, .rh, .w, 0xe, []⟩,
     ⟨28, 4, .rh, .w, 6, []⟩]⟩,
  -- RCH_STEP_LAND
  ⟨0x200014, [(128, 0x1000)], false,
    [⟨0, 4, .rh, .w, 7, []⟩,
     ⟨4, 4, .rh, .w, 6, []⟩,
     ⟨8, 4, .rh, .w, 0xa, []⟩,
     ⟨12, 4, .rh, .w, 9, []⟩,
     ⟨16, 4, .rh, .w, 0xb, []⟩,
     ⟨20, 4, .rh, .w, 4, []⟩,
     ⟨24, 4, .rh, .w, 0xa, []⟩,
     ⟨28, 4, .rh, .w, 4, []⟩]⟩,
  -- RCH_LAND_CFG
  ⟨0x200018, [(128, 0x1000)], false,
    [⟨0, 16, .rh, .w, 0xb50, []⟩,
     ⟨16, 4, .rh, .w, 4, [(2, 15)]⟩]⟩,
  -- RCH_DEFECT_CFG
  ⟨0x20001c, [(128, 0x1000)], false,
    [⟨0, 8, .rh, .w, 0x80, []⟩,
     ⟨8, 8, .rh, .w, 0xc0, [(128, 255)]⟩,
     ⟨16, 8, .rh, .w, 0x40, []⟩,
     ⟨24, 2, .rh, .w, 2, []⟩]⟩,
  -- RCH_TIMING
  ⟨0x200020, [(128, 0x1000)], false,
    [⟨0, 6, .ro, .live, 0, []⟩,
     ⟨8, 24, .ro, .live, 0, []⟩]⟩,
  -- RCH_DGAIN
  ⟨0x200024, [(128, 0x1000)], false,
    [⟨0, 16, .ro, .live, 0, []⟩]⟩,
  -- RCH_BASELINE
  ⟨0x200028, [(128, 0x1000)], false,
    [⟨0, 16, .ro, .live, 0, []⟩]⟩,
  -- RCH_ASYM
  ⟨0x20002c, [(128, 0x1000)], false,
    [⟨0, 16, .ro, .live, 0, []⟩]⟩,
  -- RCH_WOBBLE
  ⟨0x200030, [(128, 0x1000)], false,
    [⟨0, 16, .ro, .live, 0, []⟩,
     ⟨16, 1, .ro, .live, 0, []⟩]⟩,
  -- RCH_MSE
  ⟨0x200034, [(128, 0x1000)], false,
    [⟨0, 16, .ro, .live, 0, []⟩]⟩,
  -- RCH_LAST_PBA
  ⟨0x200038, [(128, 0x1000)], true,
    [⟨0, 40, .ro, .live, 0, []⟩]⟩,
  -- RCH_EQ_TAP
  ⟨0x200040, [(128, 0x1000), (17, 0x4)], false,
    [⟨0, 16, .ro, .live, 0, []⟩]⟩,
  -- RCH_XTI_IN
  ⟨0x200090, [(128, 0x1000), (5, 0x4)], false,
    [⟨0, 8, .ro, .live, 0, []⟩]⟩,
  -- RCH_XTI_OUT
  ⟨0x2000b0, [(128, 0x1000), (5, 0x4)], false,
    [⟨0, 8, .ro, .live, 0, []⟩]⟩,
  -- RCH_SLOTS
  ⟨0x200100, [(128, 0x1000)], false,
    [⟨0, 32, .rh, .w, 0, []⟩]⟩,
  -- RCH_LANDINGS
  ⟨0x200104, [(128, 0x1000)], false,
    [⟨0, 32, .rh, .w, 0, []⟩]⟩,
  -- RCH_DEFECTS
  ⟨0x200108, [(128, 0x1000)], false,
    [⟨0, 32, .rh, .w, 0, []⟩]⟩,
  -- RCH_DEFECT_BITS
  ⟨0x20010c, [(128, 0x1000)], false,
    [⟨0, 32, .rh, .w, 0, []⟩]⟩,
  -- RCH_REDETECTS
  ⟨0x200110, [(128, 0x1000)], false,
    [⟨0, 32, .rh, .w, 0, []⟩]⟩,
  -- RCH_ITER2
  ⟨0x200114, [(128, 0x1000)], false,
    [⟨0, 32, .rh, .w, 0, []⟩]⟩]

/-- Registers of block RCH (04_read_channel R207). -/
def regsRCH1 : List RegDef := [
  -- RCH_ITER3
  ⟨0x200118, [(128, 0x1000)], false,
    [⟨0, 32, .rh, .w, 0, []⟩]⟩,
  -- RCH_ITER_LOST
  ⟨0x20011c, [(128, 0x1000)], false,
    [⟨0, 32, .rh, .w, 0, []⟩]⟩,
  -- RCH_XTI_TIMEOUTS
  ⟨0x200120, [(128, 0x1000)], false,
    [⟨0, 32, .rh, .w, 0, []⟩]⟩,
  -- RCH_GADDR_CORRECTED
  ⟨0x200124, [(128, 0x1000)], false,
    [⟨0, 32, .rh, .w, 0, []⟩]⟩,
  -- RCH_GADDR_FAILED
  ⟨0x200128, [(128, 0x1000)], false,
    [⟨0, 32, .rh, .w, 0, []⟩]⟩,
  -- RCH_TIMING_LOST
  ⟨0x20012c, [(128, 0x1000)], false,
    [⟨0, 32, .rh, .w, 0, []⟩]⟩,
  -- RCH_BLANK
  ⟨0x200130, [(128, 0x1000)], false,
    [⟨0, 32, .rh, .w, 0, []⟩]⟩,
  -- RCH_ACQ_REJECTS
  ⟨0x200134, [(128, 0x1000)], false,
    [⟨0, 32, .rh, .w, 0, []⟩]⟩,
  -- RCH_GAIN_STEPS
  ⟨0x200138, [(128, 0x1000)], false,
    [⟨0, 32, .rh, .w, 0, []⟩]⟩,
  -- RCH_LEARNS
  ⟨0x20013c, [(128, 0x1000)], false,
    [⟨0, 32, .rh, .w, 0, []⟩]⟩,
  -- RCH_ZT_DRIFT
  ⟨0x200140, [(128, 0x1000)], false,
    [⟨0, 32, .rh, .w, 0, []⟩]⟩,
  -- RCH_DEEP_BITS
  ⟨0x200144, [(128, 0x1000)], false,
    [⟨0, 32, .rh, .w, 0, []⟩]⟩]

/-- Registers of block FRM (05_framing_decoding R250). -/
def regsFRM0 : List RegDef := [
  -- FRM_SUMMARY
  ⟨0x300000, [], false,
    [⟨0, 16, .ro, .live, 0, []⟩]⟩,
  -- FRM_CTRL
  ⟨0x301000, [(16, 0x1000)], false,
    [⟨0, 1, .rh, .w, 0, []⟩,
     ⟨1, 1, .rh, .w, 1, []⟩,
     ⟨2, 4, .rh, .w, 6, [(2, 8)]⟩,
     ⟨6, 3, .rh, .w, 3, [(0, 5)]⟩,
     ⟨9, 3, .rh, .w, 4, [(1, 7)]⟩,
     ⟨12, 1, .rh, .w, 0, []⟩]⟩,
  -- FRM_STATUS
  ⟨0x301004, [(16, 0x1000)], false,
    [⟨0, 1, .ro, .live, 0, []⟩,
     ⟨1, 1, .ro, .live, 0, []⟩,
     ⟨2, 4, .ro, .live, 0, []⟩,
     ⟨6, 8, .ro, .live, 0, []⟩,
     ⟨14, 1, .ro, .live, 0, []⟩]⟩,
  -- FRM_EVENT
  ⟨0x301008, [(16, 0x1000)], false,
    [⟨0, 1, .w1c, .w, 0, []⟩,
     ⟨1, 1, .w1c, .w, 0, []⟩,
     ⟨2, 1, .w1c, .w, 0, []⟩,
     ⟨3, 1, .w1c, .w, 0, []⟩,
     ⟨4, 1, .w1c, .w, 0, []⟩,
     ⟨5, 1, .w1c, .w, 0, []⟩,
     ⟨6, 1, .w1c, .w, 0, []⟩,
     ⟨7, 1, .w1c, .w, 0, []⟩,
     ⟨8, 1, .w1c, .w, 0, []⟩,
     ⟨9, 1, .w1c, .w, 0, []⟩,
     ⟨10, 1, .w1c, .w, 0, []⟩]⟩,
  -- FRM_ITER_CFG
  ⟨0x30100c, [(16, 0x1000)], false,
    [⟨0, 5, .rh, .w, 0xa, [(1, 20)]⟩,
     ⟨5, 5, .rh, .w, 5, [(0, 20)]⟩,
     ⟨10, 5, .rh, .w, 5, [(0, 20)]⟩,
     ⟨16, 12, .rh, .w, 0x800, []⟩,
     ⟨28, 3, .rh, .w, 4, [(1, 7)]⟩]⟩,
  -- FRM_RETRY_CFG
  ⟨0x301010, [(16, 0x1000)], false,
    [⟨0, 4, .rh, .w, 8, [(1, 15)]⟩,
     ⟨4, 4, .rh, .w, 4, [(1, 15)]⟩,
     ⟨8, 4, .rh, .w, 4, [(2, 15)]⟩,
     ⟨12, 1, .rh, .w, 1, []⟩]⟩,
  -- FRM_LAST_FAIL_PBA
  ⟨0x301018, [(16, 0x1000)], true,
    [⟨0, 40, .ro, .w, 0, []⟩]⟩,
  -- FRM_LAST_FAIL_TIME
  ⟨0x301020, [(16, 0x1000)], true,
    [⟨0, 64, .ro, .w, 0, []⟩]⟩,
  -- FRM_ITEMS
  ⟨0x301100, [(16, 0x1000)], false,
    [⟨0, 32, .rh, .w, 0, []⟩]⟩,
  -- FRM_CONFIRMED
  ⟨0x301104, [(16, 0x1000)], false,
    [⟨0, 32, .rh, .w, 0, []⟩]⟩,
  -- FRM_REFRAMES
  ⟨0x301108, [(16, 0x1000)], false,
    [⟨0, 32, .rh, .w, 0, []⟩]⟩,
  -- FRM_FLYWHEEL
  ⟨0x30110c, [(16, 0x1000)], false,
    [⟨0, 32, .rh, .w, 0, []⟩]⟩,
  -- FRM_RESYNC_SLIPS
  ⟨0x301110, [(16, 0x1000)], false,
    [⟨0, 32, .rh, .w, 0, []⟩]⟩,
  -- FRM_RESYNC_MISSED
  ⟨0x301114, [(16, 0x1000)], false,
    [⟨0, 32, .rh, .w, 0, []⟩]⟩,
  -- FRM_TAG_CORRECTED
  ⟨0x301118, [(16, 0x1000)], false,
    [⟨0, 32, .rh, .w, 0, []⟩]⟩,
  -- FRM_TAG_FAILED
  ⟨0x30111c, [(16, 0x1000)], false,
    [⟨0, 32, .rh, .w, 0, []⟩]⟩,
  -- FRM_LDPC_OK
  ⟨0x301120, [(16, 0x1000)], false,
    [⟨0, 32, .rh, .w, 0, []⟩]⟩,
  -- FRM_LDPC_FAIL
  ⟨0x301124, [(16, 0x1000)], false,
    [⟨0, 32, .rh, .w, 0, []⟩]⟩,
  -- FRM_LDPC_ITERS
  ⟨0x301128, [(16, 0x1000)], false,
    [⟨0, 32, .rh, .w, 0, []⟩]⟩,
  -- FRM_OUTER_RUNS
  ⟨0x30112c, [(16, 0x1000)], false,
    [⟨0, 32, .rh, .w, 0, []⟩]⟩,
  -- FRM_OUTER_RECOVERED
  ⟨0x301130, [(16, 0x1000)], false,
    [⟨0, 32, .rh, .w, 0, []⟩]⟩,
  -- FRM_OUTER_FAILED
  ⟨0x301134, [(16, 0x1000)], false,
    [⟨0, 32, .rh, .w, 0, []⟩]⟩,
  -- FRM_MISCORRECT
  ⟨0x301138, [(16, 0x1000)], false,
    [⟨0, 32, .rh, .w, 0, []⟩]⟩,
  -- FRM_RETRY_SEQ
  ⟨0x30113c, [(16, 0x1000)], false,
    [⟨0, 32, .rh, .w, 0, []⟩]⟩]

/-- Registers of block FRM (05_framing_decoding R250). -/
def regsFRM1 : List RegDef := [
  -- FRM_ATTEMPTS
  ⟨0x301140, [(16, 0x1000)], false,
    [⟨0, 32, .rh, .w, 0, []⟩]⟩,
  -- FRM_TRANSIENT
  ⟨0x301144, [(16, 0x1000)], false,
    [⟨0, 32, .rh, .w, 0, []⟩]⟩,
  -- FRM_LASTING
  ⟨0x301148, [(16, 0x1000)], false,
    [⟨0, 32, .rh, .w, 0, []⟩]⟩,
  -- FRM_BLANK
  ⟨0x30114c, [(16, 0x1000)], false,
    [⟨0, 32, .rh, .w, 0, []⟩]⟩,
  -- FRM_RESCUED
  ⟨0x301150, [(16, 0x1000)], false,
    [⟨0, 32, .rh, .w, 0, []⟩]⟩]

/-- Registers of block WCH (06_write_path R290). -/
def regsWCH0 : List RegDef := [
  -- WCH_SUMMARY
  ⟨0x380000, [], false,
    [⟨0, 16, .ro, .live, 0, []⟩,
     ⟨16, 16, .ro, .live, 0, []⟩]⟩,
  -- WCH_CTRL
  ⟨0x381000, [(16, 0x1000)], false,
    [⟨0, 1, .rh, .w, 0, []⟩,
     ⟨1, 1, .rh, .w, 0, []⟩,
     ⟨2, 1, .rh, .w, 1, []⟩,
     ⟨3, 1, .wo, .w, 0, []⟩]⟩,
  -- WCH_STATUS
  ⟨0x381004, [(16, 0x1000)], false,
    [⟨0, 1, .ro, .live, 0, []⟩,
     ⟨1, 1, .ro, .live, 0, []⟩,
     ⟨2, 1, .ro, .live, 0, []⟩,
     ⟨3, 1, .ro, .live, 0, []⟩,
     ⟨4, 1, .ro, .live, 0, []⟩,
     ⟨5, 3, .ro, .live, 0, []⟩,
     ⟨8, 4, .ro, .live, 0, []⟩]⟩,
  -- WCH_EVENT
  ⟨0x381008, [(16, 0x1000)], false,
    [⟨0, 1, .w1c, .w, 0, []⟩,
     ⟨1, 1, .w1c, .w, 0, []⟩,
     ⟨2, 1, .w1c, .w, 0, []⟩,
     ⟨3, 1, .w1c, .w, 0, []⟩,
     ⟨4, 1, .w1c, .w, 0, []⟩,
     ⟨5, 1, .w1c, .w, 0, []⟩,
     ⟨6, 1, .w1c, .w, 0, []⟩,
     ⟨7, 1, .w1c, .w, 0, []⟩,
     ⟨8, 1, .w1c, .w, 0, []⟩,
     ⟨9, 1, .w1c, .w, 0, []⟩,
     ⟨10, 1, .w1c, .w, 0, []⟩,
     ⟨11, 1, .w1c, .w, 0, []⟩]⟩,
  -- WCH_LEAD
  ⟨0x38100c, [(16, 0x1000)], false,
    [⟨0, 10, .rh, .w, 0x177, [(250, 500)]⟩]⟩,
  -- WCH_LEVEL_PB
  ⟨0x381010, [(16, 0x1000)], false,
    [⟨0, 16, .rh, .w, 0, []⟩,
     ⟨16, 16, .rh, .w, 0, []⟩]⟩,
  -- WCH_LEVEL_C
  ⟨0x381014, [(16, 0x1000)], false,
    [⟨0, 16, .rh, .w, 0, []⟩]⟩,
  -- WCH_VERIFY_CFG
  ⟨0x381018, [(16, 0x1000)], false,
    [⟨0, 12, .rh, .w, 0x200, []⟩,
     ⟨12, 8, .rh, .w, 0x80, []⟩]⟩,
  -- WCH_CAL_CFG
  ⟨0x38101c, [(16, 0x1000)], false,
    [⟨0, 16, .rh, .w, 0, []⟩,
     ⟨16, 12, .rh, .w, 0xa4, []⟩,
     ⟨28, 4, .rh, .w, 4, [(1, 15)]⟩]⟩,
  -- WCH_SLOT
  ⟨0x381020, [(16, 0x1000)], false,
    [⟨0, 32, .ro, .live, 0, []⟩]⟩,
  -- WCH_STRAT
  ⟨0x381028, [(16, 0x1000), (8, 0x4)], false,
    [⟨0, 4, .rh, .w, 0xe, [(0, 3), (12, 15)]⟩,
     ⟨4, 5, .rh, .w, 0xa, [(2, 31)]⟩]⟩,
  -- WCH_STRAT_MP
  ⟨0x381048, [(16, 0x1000)], false,
    [⟨0, 3, .rh, .w, 2, [(0, 4)]⟩,
     ⟨4, 3, .rh, .w, 4, [(2, 6)]⟩,
     ⟨8, 1, .rh, .w, 1, []⟩,
     ⟨9, 1, .rh, .w, 1, []⟩]⟩,
  -- WCH_SEED_PB
  ⟨0x381050, [(16, 0x1000), (10, 0x8)], false,
    [⟨0, 16, .rh, .w, 0x8000, []⟩,
     ⟨16, 16, .rh, .w, 0x2000, []⟩]⟩,
  -- WCH_SEED_C
  ⟨0x381054, [(16, 0x1000), (10, 0x8)], false,
    [⟨0, 16, .rh, .w, 0x800, []⟩]⟩,
  -- WCH_PASSES
  ⟨0x381100, [(16, 0x1000)], false,
    [⟨0, 32, .rh, .w, 0, []⟩]⟩,
  -- WCH_BLOCKS
  ⟨0x381104, [(16, 0x1000)], false,
    [⟨0, 32, .rh, .w, 0, []⟩]⟩,
  -- WCH_VERIFIED
  ⟨0x381108, [(16, 0x1000)], false,
    [⟨0, 32, .rh, .w, 0, []⟩]⟩,
  -- WCH_VERIFY_FAILS
  ⟨0x38110c, [(16, 0x1000)], false,
    [⟨0, 32, .rh, .w, 0, []⟩]⟩,
  -- WCH_RELOCATIONS
  ⟨0x381110, [(16, 0x1000)], false,
    [⟨0, 32, .rh, .w, 0, []⟩]⟩,
  -- WCH_WRITE_FAILED
  ⟨0x381114, [(16, 0x1000)], false,
    [⟨0, 32, .rh, .w, 0, []⟩]⟩,
  -- WCH_UNDERRUNS
  ⟨0x381118, [(16, 0x1000)], false,
    [⟨0, 32, .rh, .w, 0, []⟩]⟩,
  -- WCH_STOPS
  ⟨0x38111c, [(16, 0x1000)], false,
    [⟨0, 32, .rh, .w, 0, []⟩]⟩,
  -- WCH_PARITY
  ⟨0x381120, [(16, 0x1000)], false,
    [⟨0, 32, .rh, .w, 0, []⟩]⟩,
  -- WCH_MGMT_BLOCKS
  ⟨0x381124, [(16, 0x1000)], false,
    [⟨0, 32, .rh, .w, 0, []⟩]⟩]

/-- Registers of block WCH (06_write_path R290). -/
def regsWCH1 : List RegDef := [
  -- WCH_SURVEY_SLOTS
  ⟨0x381128, [(16, 0x1000)], false,
    [⟨0, 32, .rh, .w, 0, []⟩]⟩,
  -- WCH_CAL_ACCEPTS
  ⟨0x38112c, [(16, 0x1000)], false,
    [⟨0, 32, .rh, .w, 0, []⟩]⟩,
  -- WCH_CAL_REJECTS
  ⟨0x381130, [(16, 0x1000)], false,
    [⟨0, 32, .rh, .w, 0, []⟩]⟩,
  -- WCH_MISMATCH_BITS
  ⟨0x381134, [(16, 0x1000)], false,
    [⟨0, 32, .rh, .w, 0, []⟩]⟩,
  -- WCH_INTERRUPTED
  ⟨0x381138, [(16, 0x1000)], false,
    [⟨0, 32, .rh, .w, 0, []⟩]⟩]

/-- Registers of block LE (07_tolek_engines R331). -/
def regsLE0 : List RegDef := [
  -- LE_SUMMARY
  ⟨0x400000, [], false,
    [⟨0, 24, .ro, .live, 0, []⟩]⟩,
  -- LE_PAIR_CTRL
  ⟨0x402000, [(24, 0x800)], false,
    [⟨0, 1, .ro, .w, 0, []⟩,
     ⟨1, 2, .ro, .w, 0, []⟩,
     ⟨3, 4, .rw, .w, 4, [(1, 15)]⟩,
     ⟨7, 1, .rw, .w, 0, []⟩]⟩,
  -- LE_PAIR_STATUS
  ⟨0x402004, [(24, 0x800)], false,
    [⟨0, 4, .ro, .live, 0, []⟩,
     ⟨4, 2, .ro, .live, 0, []⟩,
     ⟨6, 3, .ro, .live, 0, []⟩,
     ⟨9, 1, .ro, .live, 0, []⟩]⟩,
  -- LE_PAIR_EVENT
  ⟨0x402008, [(24, 0x800)], false,
    [⟨0, 1, .w1c, .w, 0, []⟩,
     ⟨1, 1, .w1c, .w, 0, []⟩,
     ⟨2, 1, .w1c, .w, 0, []⟩,
     ⟨3, 1, .w1c, .w, 0, []⟩]⟩,
  -- LE_REGION
  ⟨0x40200c, [(24, 0x800)], false,
    [⟨0, 4, .rh, .w, 0, []⟩,
     ⟨4, 4, .rh, .w, 0, [(0, 9)]⟩,
     ⟨8, 2, .ro, .live, 0, []⟩,
     ⟨16, 6, .ro, .live, 0, []⟩]⟩,
  -- LE_CMD
  ⟨0x402010, [(24, 0x800)], false,
    [⟨0, 32, .wo, .w, 0, []⟩]⟩,
  -- LE_CMD_ARG
  ⟨0x402014, [(24, 0x800)], false,
    [⟨0, 32, .rw, .w, 0, []⟩]⟩,
  -- LE_OVERRUNS
  ⟨0x402020, [(24, 0x800)], false,
    [⟨0, 32, .rh, .w, 0, []⟩]⟩,
  -- LE_ESCALATIONS
  ⟨0x402024, [(24, 0x800)], false,
    [⟨0, 32, .rh, .w, 0, []⟩]⟩,
  -- LE_BANK_SWITCHES
  ⟨0x402028, [(24, 0x800)], false,
    [⟨0, 32, .rh, .w, 0, []⟩]⟩,
  -- LE_SAT_PERIODS
  ⟨0x40202c, [(24, 0x800)], false,
    [⟨0, 32, .rh, .w, 0, []⟩]⟩,
  -- LE_COMMITS
  ⟨0x402030, [(24, 0x800)], false,
    [⟨0, 32, .rh, .w, 0, []⟩]⟩,
  -- LE_PARAM
  ⟨0x402400, [(24, 0x800), (256, 0x4)], false,
    [⟨0, 32, .rh, .w, 0, []⟩]⟩,
  -- LE_ENG_STATUS
  ⟨0x410000, [(48, 0x4000)], false,
    [⟨0, 3, .ro, .live, 0, []⟩,
     ⟨3, 1, .ro, .live, 0, []⟩,
     ⟨4, 1, .ro, .live, 0, []⟩,
     ⟨5, 12, .ro, .live, 0, []⟩]⟩,
  -- LE_ENG_EVENT
  ⟨0x410004, [(48, 0x4000)], false,
    [⟨0, 1, .w1c, .w, 0, []⟩,
     ⟨1, 1, .w1c, .w, 0, []⟩,
     ⟨2, 1, .w1c, .w, 0, []⟩,
     ⟨3, 1, .w1c, .w, 0, []⟩,
     ⟨4, 1, .w1c, .w, 0, []⟩]⟩,
  -- LE_IMAGE
  ⟨0x410008, [(48, 0x4000)], false,
    [⟨0, 32, .ro, .p, 0, []⟩]⟩,
  -- LE_COST
  ⟨0x41000c, [(48, 0x4000)], false,
    [⟨0, 16, .ro, .p, 0, []⟩,
     ⟨16, 16, .ro, .p, 0, []⟩]⟩,
  -- LE_LAST_UNITS
  ⟨0x410010, [(48, 0x4000)], false,
    [⟨0, 16, .ro, .live, 0, []⟩,
     ⟨16, 16, .rh, .w, 0, []⟩]⟩,
  -- LE_SLACK_MIN
  ⟨0x410014, [(48, 0x4000)], false,
    [⟨0, 16, .rh, .w, 0xffff, []⟩]⟩,
  -- LE_MEM_ADDR
  ⟨0x410018, [(48, 0x4000)], false,
    [⟨0, 12, .rh, .w, 0, []⟩,
     ⟨12, 1, .rw, .w, 0, []⟩,
     ⟨13, 1, .rw, .w, 0, []⟩]⟩,
  -- LE_MEM_DATA
  ⟨0x41001c, [(48, 0x4000)], false,
    [⟨0, 32, .ro, .live, 0, []⟩]⟩,
  -- LE_SNAP
  ⟨0x410020, [(48, 0x4000)], false,
    [⟨0, 16, .ro, .w, 0, []⟩,
     ⟨16, 1, .rw, .w, 0, []⟩]⟩,
  -- LE_V
  ⟨0x410040, [(48, 0x4000), (16, 0x4)], false,
    [⟨0, 32, .ro, .live, 0, []⟩]⟩,
  -- LE_A
  ⟨0x410080, [(48, 0x4000), (4, 0x8)], true,
    [⟨0, 64, .ro, .live, 0, []⟩]⟩]

/-- Registers of block LE (07_tolek_engines R331). -/
def regsLE1 : List RegDef := [
  -- LE_HFLAGS
  ⟨0x4100a0, [(48, 0x4000)], false,
    [⟨0, 8, .ro, .live, 0, []⟩]⟩,
  -- LE_OUT
  ⟨0x4100c0, [(48, 0x4000), (16, 0x4)], false,
    [⟨0, 32, .ro, .live, 0, []⟩]⟩,
  -- LE_RTAB
  ⟨0x410400, [(48, 0x4000), (160, 0x4)], false,
    [⟨0, 32, .ro, .p, 0, []⟩]⟩,
  -- LE_K
  ⟨0x412000, [(48, 0x4000), (64, 0x80), (32, 0x4)], false,
    [⟨0, 32, .ro, .p, 0, []⟩]⟩]

/-- Registers of block MOT (09_motion_spindle R414). -/
def regsMOT : List RegDef := [
  -- MOT_SUMMARY
  ⟨0x500000, [], false,
    [⟨0, 16, .ro, .live, 0, []⟩]⟩,
  -- MOT_AX_CTRL
  ⟨0x501000, [(16, 0x1000)], false,
    [⟨0, 1, .rh, .w, 1, []⟩,
     ⟨1, 1, .rh, .w, 1, []⟩,
     ⟨2, 2, .rh, .w, 2, [(0, 2)]⟩,
     ⟨4, 4, .rh, .w, 3, []⟩,
     ⟨8, 4, .rh, .w, 6, [(1, 15)]⟩]⟩,
  -- MOT_AX_CHOP
  ⟨0x501004, [(16, 0x1000)], false,
    [⟨0, 8, .rh, .w, 0x10, []⟩,
     ⟨8, 8, .rh, .w, 0x20, []⟩]⟩,
  -- MOT_AX_OFFSET
  ⟨0x501008, [(16, 0x1000)], false,
    [⟨0, 16, .rh, .p, 0, []⟩,
     ⟨16, 16, .rh, .p, 0, []⟩]⟩,
  -- MOT_AX_TARGET
  ⟨0x50100c, [(16, 0x1000)], false,
    [⟨0, 32, .rh, .w, 0x14fb180, []⟩]⟩,
  -- MOT_AX_FEED
  ⟨0x501010, [(16, 0x1000)], false,
    [⟨0, 32, .rh, .w, 0, []⟩]⟩,
  -- MOT_AX_STATUS
  ⟨0x501014, [(16, 0x1000)], false,
    [⟨0, 1, .ro, .live, 0, []⟩,
     ⟨1, 1, .ro, .live, 0, []⟩,
     ⟨2, 1, .ro, .live, 0, []⟩,
     ⟨3, 1, .ro, .live, 0, []⟩,
     ⟨4, 2, .ro, .live, 0, []⟩,
     ⟨6, 1, .ro, .live, 0, []⟩,
     ⟨7, 1, .ro, .live, 0, []⟩,
     ⟨8, 1, .ro, .live, 0, []⟩,
     ⟨9, 1, .ro, .live, 0, []⟩]⟩,
  -- MOT_AX_EVENT
  ⟨0x501018, [(16, 0x1000)], false,
    [⟨0, 1, .w1c, .w, 0, []⟩,
     ⟨1, 1, .w1c, .w, 0, []⟩,
     ⟨2, 1, .w1c, .w, 0, []⟩,
     ⟨3, 1, .w1c, .w, 0, []⟩,
     ⟨4, 1, .w1c, .w, 0, []⟩,
     ⟨5, 1, .w1c, .w, 0, []⟩,
     ⟨6, 1, .w1c, .w, 0, []⟩,
     ⟨7, 1, .w1c, .w, 0, []⟩]⟩,
  -- MOT_AX_POS
  ⟨0x501020, [(16, 0x1000)], false,
    [⟨0, 32, .ro, .live, 0, []⟩]⟩,
  -- MOT_AX_IMEAN
  ⟨0x501024, [(16, 0x1000)], false,
    [⟨0, 16, .ro, .live, 0, []⟩,
     ⟨16, 16, .ro, .live, 0, []⟩]⟩,
  -- MOT_MOVES
  ⟨0x501100, [(16, 0x1000)], false,
    [⟨0, 32, .rh, .w, 0, []⟩]⟩,
  -- MOT_LIMIT_STOPS
  ⟨0x501104, [(16, 0x1000)], false,
    [⟨0, 32, .rh, .w, 0, []⟩]⟩,
  -- MOT_CHOP_STRETCH
  ⟨0x501108, [(16, 0x1000)], false,
    [⟨0, 32, .rh, .w, 0, []⟩]⟩,
  -- MOT_DEFERRED
  ⟨0x50110c, [(16, 0x1000)], false,
    [⟨0, 32, .rh, .w, 0, []⟩]⟩]

/-- Registers of block SPN (09_motion_spindle R415). -/
def regsSPN : List RegDef := [
  -- SPN_SUMMARY
  ⟨0x580000, [], false,
    [⟨0, 8, .ro, .live, 0, []⟩]⟩,
  -- SPN_CTRL
  ⟨0x581000, [(8, 0x1000)], false,
    [⟨0, 1, .rh, .w, 0, []⟩,
     ⟨1, 1, .rh, .w, 0, []⟩]⟩,
  -- SPN_CFG
  ⟨0x581004, [(8, 0x1000)], false,
    [⟨0, 4, .rh, .w, 4, [(1, 8)]⟩,
     ⟨4, 8, .rh, .w, 0x14, []⟩,
     ⟨12, 16, .rh, .w, 0x4b0, []⟩]⟩,
  -- SPN_ILIM
  ⟨0x581008, [(8, 0x1000)], false,
    [⟨0, 12, .rh, .w, 0x700, []⟩]⟩,
  -- SPN_STATUS
  ⟨0x58100c, [(8, 0x1000)], false,
    [⟨0, 2, .ro, .live, 0, []⟩,
     ⟨2, 1, .ro, .live, 0, []⟩,
     ⟨3, 1, .ro, .live, 0, []⟩,
     ⟨4, 1, .ro, .live, 0, []⟩,
     ⟨5, 1, .ro, .live, 0, []⟩,
     ⟨6, 3, .ro, .live, 0, []⟩,
     ⟨9, 1, .ro, .live, 0, []⟩,
     ⟨16, 16, .ro, .live, 0, []⟩]⟩,
  -- SPN_EVENT
  ⟨0x581010, [(8, 0x1000)], false,
    [⟨0, 1, .w1c, .w, 0, []⟩,
     ⟨1, 1, .w1c, .w, 0, []⟩,
     ⟨2, 1, .w1c, .w, 0, []⟩,
     ⟨3, 1, .w1c, .w, 0, []⟩,
     ⟨4, 1, .w1c, .w, 0, []⟩,
     ⟨5, 1, .w1c, .w, 0, []⟩,
     ⟨6, 1, .w1c, .w, 0, []⟩]⟩,
  -- SPN_SPEED
  ⟨0x581014, [(8, 0x1000)], false,
    [⟨0, 32, .ro, .live, 0, []⟩]⟩,
  -- SPN_STARTS
  ⟨0x581100, [(8, 0x1000)], false,
    [⟨0, 32, .rh, .w, 0, []⟩]⟩,
  -- SPN_START_RETRIES
  ⟨0x581104, [(8, 0x1000)], false,
    [⟨0, 32, .rh, .w, 0, []⟩]⟩,
  -- SPN_CATCHES
  ⟨0x581108, [(8, 0x1000)], false,
    [⟨0, 32, .rh, .w, 0, []⟩]⟩,
  -- SPN_OBS_LOSSES
  ⟨0x58110c, [(8, 0x1000)], false,
    [⟨0, 32, .rh, .w, 0, []⟩]⟩,
  -- SPN_CATCH_FAILS
  ⟨0x581110, [(8, 0x1000)], false,
    [⟨0, 32, .rh, .w, 0, []⟩]⟩,
  -- SPN_SHORT_BRAKES
  ⟨0x581114, [(8, 0x1000)], false,
    [⟨0, 32, .rh, .w, 0, []⟩]⟩,
  -- SPN_ILIM_CYCLES
  ⟨0x581118, [(8, 0x1000)], false,
    [⟨0, 32, .rh, .w, 0, []⟩]⟩]

/-- Registers of block WMM (10_watermasters R457). -/
def regsWMM : List RegDef := [
  -- WMM_ROLE
  ⟨0x600000, [], false,
    [⟨0, 3, .ro, .live, 0, []⟩,
     ⟨3, 1, .ro, .live, 0, []⟩,
     ⟨4, 1, .ro, .live, 0, []⟩,
     ⟨5, 1, .ro, .live, 0, []⟩,
     ⟨6, 1, .ro, .live, 0, []⟩,
     ⟨7, 1, .ro, .live, 0, []⟩]⟩,
  -- WMM_CTRL
  ⟨0x600004, [], false,
    [⟨0, 16, .rw, .w, 0x258, [(24, 65535)]⟩]⟩,
  -- WMM_EVENT
  ⟨0x600008, [], false,
    [⟨0, 1, .w1c, .w, 0, []⟩,
     ⟨1, 1, .w1c, .w, 0, []⟩,
     ⟨2, 1, .w1c, .w, 0, []⟩,
     ⟨3, 1, .w1c, .w, 0, []⟩,
     ⟨4, 1, .w1c, .w, 0, []⟩,
     ⟨5, 1, .w1c, .w, 0, []⟩,
     ⟨6, 1, .w1c, .w, 0, []⟩,
     ⟨7, 1, .w1c, .w, 0, []⟩,
     ⟨8, 1, .w1c, .w, 0, []⟩,
     ⟨9, 1, .w1c, .w, 0, []⟩,
     ⟨10, 1, .w1c, .w, 0, []⟩]⟩,
  -- WMM_PS_STATUS
  ⟨0x60000c, [], false,
    [⟨0, 1, .ro, .w, 0, []⟩,
     ⟨1, 1, .ro, .live, 0, []⟩,
     ⟨8, 8, .ro, .live, 0, []⟩]⟩,
  -- WMM_PS_TIME
  ⟨0x600010, [], true,
    [⟨0, 64, .ro, .w, 0, []⟩]⟩,
  -- WMM_CS
  ⟨0x600018, [], false,
    [⟨0, 16, .ro, .live, 0, []⟩,
     ⟨16, 16, .ro, .live, 0, []⟩]⟩,
  -- WMM_TAKEOVERS
  ⟨0x600100, [], false,
    [⟨0, 32, .rh, .w, 0, []⟩]⟩,
  -- WMM_PATH_FAULTS
  ⟨0x600104, [], false,
    [⟨0, 32, .rh, .w, 0, []⟩]⟩,
  -- WMM_SPLITS
  ⟨0x600108, [], false,
    [⟨0, 32, .rh, .w, 0, []⟩]⟩,
  -- WMM_CS_FAILS
  ⟨0x60010c, [], false,
    [⟨0, 32, .rh, .w, 0, []⟩]⟩,
  -- WMM_CS_RESTARTS
  ⟨0x600110, [], false,
    [⟨0, 32, .rh, .w, 0, []⟩]⟩,
  -- WMM_PAIR_STATUS
  ⟨0x601000, [(24, 0x40)], false,
    [⟨0, 1, .ro, .live, 0, []⟩,
     ⟨1, 2, .ro, .live, 0, []⟩,
     ⟨3, 1, .ro, .live, 0, []⟩,
     ⟨4, 1, .ro, .live, 0, []⟩,
     ⟨5, 1, .ro, .live, 0, []⟩,
     ⟨6, 1, .ro, .live, 0, []⟩,
     ⟨7, 1, .ro, .live, 0, []⟩,
     ⟨8, 1, .ro, .live, 0, []⟩]⟩,
  -- WMM_PAIR_CTRL
  ⟨0x601004, [(24, 0x40)], false,
    [⟨0, 1, .rw, .w, 1, []⟩,
     ⟨1, 1, .wo, .w, 0, []⟩,
     ⟨2, 1, .wo, .w, 0, []⟩]⟩,
  -- WMM_PAIR_EVENT
  ⟨0x601008, [(24, 0x40)], false,
    [⟨0, 1, .w1c, .w, 0, []⟩,
     ⟨1, 1, .w1c, .w, 0, []⟩,
     ⟨2, 1, .w1c, .w, 0, []⟩,
     ⟨3, 1, .w1c, .w, 0, []⟩,
     ⟨4, 1, .w1c, .w, 0, []⟩,
     ⟨5, 1, .w1c, .w, 0, []⟩,
     ⟨6, 1, .w1c, .w, 0, []⟩,
     ⟨7, 1, .w1c, .w, 0, []⟩,
     ⟨8, 1, .w1c, .w, 0, []⟩,
     ⟨9, 1, .w1c, .w, 0, []⟩]⟩,
  -- WMM_PAIR_MISMATCH_TIME
  ⟨0x601010, [(24, 0x40)], true,
    [⟨0, 64, .ro, .w, 0, []⟩]⟩,
  -- WMM_PAIR_TRANSIENTS
  ⟨0x601020, [(24, 0x40)], false,
    [⟨0, 32, .rh, .w, 0, []⟩]⟩,
  -- WMM_PAIR_LASTING
  ⟨0x601024, [(24, 0x40)], false,
    [⟨0, 32, .rh, .w, 0, []⟩]⟩,
  -- WMM_PAIR_SWITCHOVERS
  ⟨0x601028, [(24, 0x40)], false,
    [⟨0, 32, .rh, .w, 0, []⟩]⟩,
  -- WMM_PAIR_SWAPS
  ⟨0x60102c, [(24, 0x40)], false,
    [⟨0, 32, .rh, .w, 0, []⟩]⟩,
  -- WMM_PAIR_SKIPS
  ⟨0x601030, [(24, 0x40)], false,
    [⟨0, 32, .rh, .w, 0, []⟩]⟩,
  -- WMM_PAIR_PATH_FAULTS
  ⟨0x601034, [(24, 0x40)], false,
    [⟨0, 32, .rh, .w, 0, []⟩]⟩]

/-- Registers of block WMM_STN (08_station_servo R370). -/
def regsWMMSTN : List RegDef := [
  -- WMM_STN_STATE
  ⟨0x60f000, [(8, 0x80)], false,
    [⟨0, 3, .ro, .live, 0, []⟩,
     ⟨3, 3, .ro, .live, 0, []⟩,
     ⟨8, 5, .ro, .live, 0, []⟩,
     ⟨16, 1, .ro, .live, 0, []⟩,
     ⟨17, 1, .ro, .live, 0, []⟩,
     ⟨18, 1, .ro, .live, 0, []⟩,
     ⟨19, 4, .ro, .live, 0, []⟩]⟩,
  -- WMM_STN_CTRL
  ⟨0x60f004, [(8, 0x80)], false,
    [⟨0, 1, .rh, .p, 0, []⟩,
     ⟨1, 1, .wo, .w, 0, []⟩]⟩,
  -- WMM_STN_TIME
  ⟨0x60f008, [(8, 0x80)], true,
    [⟨0, 64, .ro, .live, 0, []⟩]⟩,
  -- WMM_STN_EVENT
  ⟨0x60f018, [(8, 0x80)], false,
    [⟨0, 1, .w1c, .w, 0, []⟩,
     ⟨1, 1, .w1c, .w, 0, []⟩,
     ⟨2, 1, .w1c, .w, 0, []⟩,
     ⟨3, 1, .w1c, .w, 0, []⟩,
     ⟨4, 1, .w1c, .w, 0, []⟩,
     ⟨5, 1, .w1c, .w, 0, []⟩,
     ⟨6, 1, .w1c, .w, 0, []⟩,
     ⟨7, 1, .w1c, .w, 0, []⟩,
     ⟨8, 1, .w1c, .w, 0, []⟩]⟩,
  -- WMM_STN_PU
  ⟨0x60f010, [(8, 0x80), (2, 0x4)], false,
    [⟨0, 16, .ro, .live, 0, []⟩,
     ⟨16, 3, .ro, .live, 0, []⟩,
     ⟨20, 10, .ro, .live, 0, []⟩]⟩,
  -- WMM_STN_FOCUS_LOSSES
  ⟨0x60f040, [(8, 0x80)], false,
    [⟨0, 32, .rh, .w, 0, []⟩]⟩,
  -- WMM_STN_TRACK_LOSSES
  ⟨0x60f044, [(8, 0x80)], false,
    [⟨0, 32, .rh, .w, 0, []⟩]⟩,
  -- WMM_STN_SLIPS
  ⟨0x60f048, [(8, 0x80)], false,
    [⟨0, 32, .rh, .w, 0, []⟩]⟩,
  -- WMM_STN_JUMPS
  ⟨0x60f04c, [(8, 0x80)], false,
    [⟨0, 32, .rh, .w, 0, []⟩]⟩,
  -- WMM_STN_LAYER_JUMPS
  ⟨0x60f050, [(8, 0x80)], false,
    [⟨0, 32, .rh, .w, 0, []⟩]⟩,
  -- WMM_STN_SEEKS
  ⟨0x60f054, [(8, 0x80)], false,
    [⟨0, 32, .rh, .w, 0, []⟩]⟩,
  -- WMM_STN_SEEK_RETRIES
  ⟨0x60f058, [(8, 0x80)], false,
    [⟨0, 32, .rh, .w, 0, []⟩]⟩,
  -- WMM_STN_PARKS
  ⟨0x60f05c, [(8, 0x80)], false,
    [⟨0, 32, .rh, .w, 0, []⟩]⟩,
  -- WMM_STN_MOUNTS
  ⟨0x60f060, [(8, 0x80)], false,
    [⟨0, 32, .rh, .w, 0, []⟩]⟩,
  -- WMM_STN_MOUNT_FAILS
  ⟨0x60f064, [(8, 0x80)], false,
    [⟨0, 32, .rh, .w, 0, []⟩]⟩]

/-- Registers of block BOOT (15_reset_boot R628). -/
def regsBOOT : List RegDef := [
  -- BOOT_STATUS
  ⟨0x700000, [], false,
    [⟨0, 4, .ro, .live, 0, []⟩,
     ⟨4, 1, .ro, .live, 0, []⟩,
     ⟨5, 1, .ro, .live, 0, []⟩,
     ⟨6, 1, .ro, .live, 0, []⟩,
     ⟨7, 1, .ro, .live, 0, []⟩,
     ⟨8, 4, .ro, .live, 0, []⟩]⟩,
  -- BOOT_EVENT
  ⟨0x700004, [], false,
    [⟨0, 1, .w1c, .w, 0, []⟩,
     ⟨1, 1, .w1c, .w, 0, []⟩,
     ⟨2, 1, .w1c, .w, 0, []⟩,
     ⟨3, 1, .w1c, .w, 0, []⟩,
     ⟨4, 1, .w1c, .w, 0, []⟩,
     ⟨5, 1, .w1c, .w, 0, []⟩]⟩,
  -- BOOT_RESET
  ⟨0x700008, [], false,
    [⟨0, 32, .wo, .w, 0, []⟩]⟩,
  -- BOOT_LAST_RESET
  ⟨0x70000c, [], false,
    [⟨0, 2, .ro, .live, 0, []⟩]⟩,
  -- BOOT_READY_TIME
  ⟨0x700010, [], true,
    [⟨0, 64, .ro, .w, 0, []⟩]⟩,
  -- BOOT_FUSE
  ⟨0x700018, [], false,
    [⟨0, 1, .ro, .p, 0, []⟩,
     ⟨1, 1, .ro, .p, 0, []⟩]⟩,
  -- BOOT_HOST_CMD
  ⟨0x700020, [], false,
    [⟨0, 3, .wo, .w, 0, []⟩,
     ⟨4, 3, .wo, .w, 0, []⟩]⟩,
  -- BOOT_HOST_OFFSET
  ⟨0x700024, [], false,
    [⟨0, 25, .rw, .w, 0, []⟩]⟩,
  -- BOOT_HOST_LENGTH
  ⟨0x700028, [], false,
    [⟨0, 20, .rw, .w, 0, []⟩]⟩,
  -- BOOT_HOST_STATUS
  ⟨0x70002c, [], false,
    [⟨0, 1, .ro, .w, 0, []⟩,
     ⟨4, 3, .ro, .w, 0, []⟩]⟩,
  -- BOOT_IMAGE
  ⟨0x700040, [(5, 0x4)], false,
    [⟨0, 2, .ro, .w, 0, []⟩,
     ⟨2, 1, .ro, .w, 0, []⟩,
     ⟨3, 1, .ro, .w, 0, []⟩,
     ⟨4, 4, .ro, .w, 0, []⟩]⟩,
  -- BOOT_VERSION
  ⟨0x700060, [(5, 0x4)], false,
    [⟨0, 32, .ro, .w, 0, []⟩]⟩,
  -- BOOT_SVN
  ⟨0x700080, [(5, 0x4)], false,
    [⟨0, 6, .ro, .p, 0, []⟩]⟩]

/-- The registers of the block whose range holds BAR0 offset `o` (Table 0.4). -/
def blockRegs (o : Nat) : List RegDef :=
  if o < 0x10000 then regsGEN else
  if o < 0x20000 then regsSLC else
  if o < 0x30000 then regsCIS else
  if o < 0x40000 then regsCCH else
  if o < 0x50000 then regsBUF else
  if o < 0x60000 then regsFLM else
  if o < 0x70000 then regsWMH else
  if o < 0x80000 then regsTHH else
  if o < 0x200000 then regsAFE else
  if o < 0x300000 then regsRCH0 ++ regsRCH1 else
  if o < 0x380000 then regsFRM0 ++ regsFRM1 else
  if o < 0x400000 then regsWCH0 ++ regsWCH1 else
  if o < 0x500000 then regsLE0 ++ regsLE1 else
  if o < 0x580000 then regsMOT else
  if o < 0x600000 then regsSPN else
  if o < 0x60f000 then regsWMM else
  if o < 0x680000 then regsWMMSTN else
  if o < 0x700000 then regsCAL0 ++ regsCAL1 else
  regsBOOT

end Sys2Proof.Machine
end

