-- ==== Sys2Proof/Machine/Store.lean ====
section
/-! DEFINITION. Sparse storage in one canonical form: a list of key and value pairs with strictly rising keys and no pair equal
to what an unlisted key reads as. Every memory and every family of like units of the machine is held this way, so that equal
contents are equal data. -/

namespace Sys2Proof.Machine

/-- Pairs of a key and what stands there, by rising key. -/
abbrev Cells (α : Type) := List (Nat × α)

variable {α : Type}

/-- What stands at key `k`; `d` is what an unlisted key reads as. -/
def Cells.get (d : Nat → α) : Cells α → Nat → α
  | [], k => d k
  | (j, v) :: t, k => if j = k then v else if k < j then d k else Cells.get d t k

/-- Store `v` at key `k`; a pair that would equal what the unlisted key reads as is removed. -/
def Cells.put [DecidableEq α] (d : Nat → α) : Cells α → Nat → α → Cells α
  | [], k, v => if v = d k then [] else [(k, v)]
  | (j, w) :: t, k, v =>
    if j = k then
      if v = d k then t.dropWhile (fun c => c.1 ≤ k) else (k, v) :: t
    else if k < j then
      if v = d k then (j, w) :: t else (k, v) :: (j, w) :: t
    else (j, w) :: Cells.put d t k v

/-- The canonical form: keys strictly rise and no pair equals what its unlisted key reads as. -/
def Cells.wf [DecidableEq α] (d : Nat → α) : Cells α → Bool
  | [] => true
  | (j, v) :: t => v ≠ d j && (match t with | [] => true | c :: _ => decide (j < c.1)) && Cells.wf d t

/-- Change what stands at key `k` by `f`. -/
def Cells.modify [DecidableEq α] (d : Nat → α) (m : Cells α) (k : Nat) (f : α → α) : Cells α :=
  Cells.put d m k (f (Cells.get d m k))

/-- Store the values of a list at rising keys from `k`. -/
def Cells.putRun [DecidableEq α] (d : Nat → α) (m : Cells α) (k : Nat) : List α → Cells α
  | [] => m
  | v :: vs => Cells.putRun d (Cells.put d m k v) (k + 1) vs

/-- The values at `n` rising keys from `k`. -/
def Cells.getRun (d : Nat → α) (m : Cells α) (k n : Nat) : List α :=
  (List.range n).map (fun i => Cells.get d m (k + i))

end Sys2Proof.Machine
end

