-- ==== Sys2Proof/Machine/TypesHost.lean ====
section
/-! DEFINITION. The state of the H-die: register latches, Flume, weirs, RISC-V engines, host queues and rings, Cistern, block
cache, buffer memory, staged writes (chapters 1, 11, 12 and 13). Plain data, one record per kind of unit, each with the value
it has at reset. -/

namespace Sys2Proof.Machine

/-- The latches of one port or RISC-V engine (R22), and the value its last read returned (the model's own record of the
answer, log entry 5). Each latch names the register that marks it. -/
structure AgentRec where
  readLatch : Option (Nat × BitVec 32) := none
  writeLatch : Option (Nat × BitVec 32) := none
  lastRead : Word := 0
deriving DecidableEq, Repr

/-- A register access that waits for the end of a retraining (R50); `rd` is where an engine's load puts the answer. -/
structure RegAccess where
  agent : Agent
  write : Bool
  off : Nat
  size : Nat
  value : Word
  rd : Nat := 0
deriving DecidableEq, Repr

/-- A Flume packet waiting in, or kept by, a transmitter (R42, R43, R45). -/
structure Packet where
  ty : Nat
  seq : Nat
  unit : Nat
  tag : Nat
  payload : List (BitVec 32)
deriving DecidableEq, Repr

/-- One direction of the Flume: packets ready to send in the order they became ready, the replay buffer of unacknowledged
packets, the sequence numbers of sender and receiver, credits per class, the packet replayed last and how often in a row, and
the payload of items still being received, by tag (R43-R46). -/
structure FlumeDir where
  ready : List Packet := []
  replay : List Packet := []
  toResend : List Packet := []
  nextSeq : Nat := 0
  expSeq : Nat := 0
  credits : List Nat := [0, 0, 0, 0]
  lastReplay : Option Nat := none
  sameReplays : Nat := 0
  partials : Cells (List (BitVec 32)) := []
deriving DecidableEq, Repr

/-- A word of a weir with the mark of an uncorrectable error (R505, R517). -/
structure WWord where
  v : Word
  corrupt : Bool := false
deriving DecidableEq, Repr

/-- An operation that stalls on a weir (R36, R37). -/
inductive StallKind where
  | pop | peek | push
deriving DecidableEq, Repr

structure Stall where
  engine : Engine
  kind : StallKind
  rd : Nat
  value : Word
deriving DecidableEq, Repr

/-- A weir: committed items, oldest first (the head item without the words already popped), each producer's uncommitted
words (R509), whether it is closed (R39), stalled operations in order of arrival. -/
structure Weir where
  items : List (List WWord) := []
  uncommitted : Cells (List WWord) := []
  closed : Bool := false
  stalls : List Stall := []
deriving DecidableEq, Repr

/-- What the custom instructions and the memory map use of a RISC-V engine: integer registers x1 to x31, the CSR WSTAT (R507),
the cause of its last exception (R502, R505), a stalled FZLOAD or FWAITEV (R513, R515) with its destination. Its program
counter and other CSRs belong to RV64IMAC, which no row of the table executes (log entry 6). -/
structure EngineRec where
  x : Cells Word := []
  wstat : Word := 0
  cause : Option Nat := none
  zload : Option (Nat × Nat × Nat × Nat) := none
  waitev : Option (Nat × Nat × Word) := none
deriving DecidableEq, Repr

/-- A middle cell of a Cistern queue: when it was written, and its place in the deep cistern where it has been spilled (R518-R521). -/
structure CisCell where
  stamp : Nat
  deep : Option Nat := none
deriving DecidableEq, Repr

/-- The cells of one Cistern queue: words consumed from the head cell, middle cells from the head on (R518). -/
structure CisQueue where
  headOff : Nat := 0
  mid : List CisCell := []
deriving DecidableEq, Repr

/-- A record of a completion ring before PHASE, TIME and INTAKE_HEAD are added at posting (Table 11.8). -/
structure RingRec where
  kind : Nat
  tag : Nat
  queue : Nat
  status : Nat
  d0 : Nat
  d1 : Nat
  d2 : Nat
deriving DecidableEq, Repr

/-- A completion ring (R476-R479). `unsignalled` counts records since the last message; `firstAt` is when the first of them
was written; `events` are event records that wait for room. -/
structure Ring where
  created : Bool := false
  port : Nat := 0
  base : Word := 0
  sizeLog2 : Nat := 4
  vector : Nat := 0
  intEn : Bool := false
  intCount : Nat := 0
  intTime : Nat := 0
  next : Nat := 0
  phase : Bool := true
  head : Nat := 0
  unsignalled : Nat := 0
  firstAt : Option Word := none
  events : List RingRec := []
deriving DecidableEq, Repr

/-- A committed capsule set that waits to be taken (R466): its 64-byte capsules, when its COMMIT word arrived, and how many blocks of WRITEs
had been posted by then, on any queue and on its own (R488). -/
structure CapSet where
  capsules : List (List Byte)
  at_ : Word
  seen : Nat := 0
  seenOwn : Nat := 0
deriving DecidableEq, Repr

/-- An intake queue with its intake and data windows (R464-R474): HEADs, expected positions, capsule slots as written, sets
committed and not taken, the commands outstanding in submission order by their numbers in the command table, the core that
holds the queue (R499); `open_`: capsule slots written whose capsule is not committed (R518); blocks of WRITEs completed with OK and posted so
(R488); tags of commands that have completed (R474). -/
structure IQueue where
  created : Bool := false
  port : Nat := 0
  ring : Nat := 0
  stopped : Bool := false
  halted : Bool := false
  dataHalted : Bool := false
  head : Nat := 0
  expPos : Nat := 0
  dataHead : Nat := 0
  dataExp : Nat := 0
  slots : Cells Byte := []
  open_ : List Nat := []
  sets : List CapSet := []
  order : List Nat := []
  core : Option Nat := none
  written : Nat := 0
  writtenOut : Nat := 0
  doneTags : List Nat := []
deriving DecidableEq, Repr

/-- One grant (R473): its window and which 64-byte pieces of it have been taken. -/
structure Grant where
  off : Nat
  len : Nat
  taken : List Nat := []
deriving DecidableEq, Repr

/-- What a command waits for, apart from its own queue's order. -/
inductive Wait where
  | none | station | seal | drain | join (uid : Nat) | target (uid : Nat) | engine
deriving DecidableEq, Repr

/-- An entry of the Sluice's command table: a command from the moment it is taken until its completion is posted (R466, R484).
`blocks` holds the outcome of each block so far (index, code of Table 5.3), `restore` the recorded-map states to return to if
a WRITE is ended (R492), `grants` its grants, `granted` the bytes granted so far, `covered` the staged entries a FLUSH waits
for (R488), `slots` the staging slots reserved for its blocks so far, in block order (R555); `mark` is the status that an abort or a reset has
given it, which it takes when it ends (R492); `seen`, `seenOwn` as in its capsule set. -/
structure Cmd where
  uid : Nat
  queue : Nat
  port : Nat
  tag : Nat
  opcode : Nat
  flags : Nat
  volume : Nat
  arg0 : Nat
  arg1 : Nat
  arg2 : Nat
  arg3 : Nat
  entries : List (Nat × Nat)
  capsules : Nat
  commitAt : Word
  core : Option Nat
  started : Bool := false
  status : Option Nat := none
  blockIndex : Nat := 0
  result : Nat := 0
  count : Nat := 0
  inPath : Bool := false
  silent : Bool := false
  wait : Wait := .none
  blocks : List (Nat × Nat) := []
  restore : List (Nat × Nat) := []
  grants : List Grant := []
  granted : Nat := 0
  posted : Nat := 0
  covered : List Nat := []
  slots : List Nat := []
  acted : Bool := false
  ended : Option Nat := none
  mark : Option Nat := none
  seen : Nat := 0
  seenOwn : Nat := 0
deriving DecidableEq, Repr

/-- What the device writes into host memory (R461). -/
inductive PostKind where
  | data | record | msix
deriving DecidableEq, Repr

/-- One memory write issued by a port: place, bytes, relaxed ordering. -/
structure HostPost where
  port : Nat
  kind : PostKind
  addr : Nat
  bytes : List Byte
  relaxed : Bool
deriving DecidableEq, Repr

/-- A line of the block cache: the 4 KiB line of buffer DRAM it caches, whether it is dirty, and the bytes in which it differs
from DRAM (R543). -/
structure Line where
  line : Nat
  dirty : Bool
  data : Cells (Option Byte) := []
deriving DecidableEq, Repr

/-- One set: its ways, and the 15 bits of the tree pseudo-LRU (R544). -/
structure CacheSet where
  ways : Cells (Option Line) := []
  plru : BitVec 15 := 0
deriving DecidableEq, Repr

/-- An access held by a miss register (R548): bytes of a host data capsule at an offset in the line, or the push of block
`index` of command `uid`. -/
inductive MissAccess where
  | write (off : Nat) (bytes : List Byte)
  | push (uid index : Nat)
deriving DecidableEq, Repr

/-- A miss register. -/
structure Miss where
  line : Nat
  accesses : List MissAccess
deriving DecidableEq, Repr

/-- How the check symbols of a unit stand (R533-R538): as its range was left by a scrub in INIT mode or by power-on, in order, or
with the given changes (symbol, value) against the codeword of its data. -/
inductive UnitMark where
  | asRange | good | changed (errs : List (Nat × Nat))
deriving DecidableEq, Repr

/-- A staged-write list entry (Table 13.7), with the intake queue and tag of its WRITE and how many blocks of WRITEs had been posted before that completion was (R488), the
spare slot assigned to it (R272), the spare slots it failed in (R274), and whether it waits for the survey of R283. -/
structure Staged where
  seq : Nat
  volumeId : Nat
  side : Nat
  state : Nat
  lba : Nat
  homePba : Nat
  session : Nat
  slot : Nat
  at_ : Word
  queue : Nat
  tag : Nat
  posted : Option Nat := none
  spare : Option Nat := none
  fails : Nat := 0
  survey : Bool := false
deriving DecidableEq, Repr

/-- A stream tracked for read-ahead (R554): last LBA of its previous READ, sequential READs so far, age for replacement, first
block not yet requested. -/
structure Stream where
  lastLba : Nat
  seqReads : Nat
  ahead : Nat
  used : Nat
deriving DecidableEq, Repr

/-- A copy in the block store (R552, R554): volume, LBA, buffer offset, outcome recorded at arrival, whether it was read ahead, age. -/
structure StoreCopy where
  volume : Nat
  lba : Nat
  off : Nat
  outcome : Nat
  ahead : Bool
  used : Nat
deriving DecidableEq, Repr

/-- An outstanding request of a core to a station (R500, R552): fill slot and generation, LBAs, buffer place, the command it serves
(none: read-ahead), its request number, blocks not yet reported. -/
structure FillReq where
  core : Nat
  slot : Nat
  gen : Nat
  volume : Nat
  firstLba : Nat
  blocks : Nat
  baseBlock : Nat
  ahead : Bool
  stale : Bool
  uid : Option Nat
  number : Nat
  left : List Nat
deriving DecidableEq, Repr

/-- The scrub engine (R541, R542). -/
structure Scrub where
  busy : Bool := false
  init : Bool := false
  start : Nat := 0
  len : Nat := 0
  units : Nat := 0
  corrected : Nat := 0
  device : Nat := 0
  uncorrectable : Nat := 0
  firstUe : Option Nat := none
  timeStart : Word := 0
  uid : Option Nat := none
deriving DecidableEq, Repr

/-- Accesses, latches, clocks and the Flume. -/
structure ArchSt where
  agents : Cells AgentRec := []
  mdieWait : List RegAccess := []
  ledgerM : Word := 0
  ledgerH : Word := 0
  corr : Int := 0
  pausing : Bool := false
  goodExchanges : Nat := 0
  lastExchange : Word := 0
  toM : FlumeDir := {}
  toH : FlumeDir := {}
deriving DecidableEq, Repr

/-- Weirs (by 65,536 × KIND + INDEX), RISC-V engines and their SRAM, cores, Cistern; `logged` counts the entries in the device log's region of buffer DRAM (R525). -/
structure CoreSt where
  weirs : Cells Weir := []
  engines : Cells EngineRec := []
  sram : Cells Byte := []
  cis : Cells CisQueue := []
  cisStamp : Nat := 0
  spilling : Bool := false
  logged : Nat := 0
deriving DecidableEq, Repr

/-- The Sluice: queues, rings, command table, what was posted to the hosts, MSI-X, PCIe settings, features, barrier of R551;
`coresStop`: the cores start no command, for an ACTIVATE (R497); `begun`, `done`: classes of the ACTIVATE in progress whose engines have begun to
change, and that run their new image. -/
structure HostSt where
  queues : Cells IQueue := []
  rings : Cells Ring := []
  cmds : List Cmd := []
  nextUid : Nat := 0
  posts : List HostPost := []
  msix : Cells (BitVec 32) := []
  pcie : Cells (BitVec 32) := []
  configRetry : Bool := true
  stationEvents : List Bool := [false, false]
  logMark : List Nat := [0, 0]
  readAhead : Cells Nat := []
  barrier : Option Nat := none
  qresets : List (Nat × Nat) := []
  activating : Option Nat := none
  coresStop : Bool := false
  begun : List Nat := []
  done : List Nat := []
  portHeld : List Bool := [false, false]
deriving DecidableEq, Repr

/-- Block cache and buffer memory. `initRanges` are the unit ranges that INIT scrubs have written (R538, R541);
`written` counts the blocks of WRITEs whose completion has been posted, and `lost` names disc sides of which posted writes were discarded (R488, R561). -/
structure BufSt where
  sets : Cells CacheSet := []
  victims : List Line := []
  evicts : List Line := []
  misses : List Miss := []
  allocWaits : List Line := []
  mem : List (Nat × Byte) := []
  marks : Cells UnitMark := []
  initRanges : List (Nat × Nat) := []
  scrub : Scrub := {}
  staged : List Staged := []
  nextSeq : Nat := 0
  slotsUsed : List Nat := []
  streams : Cells (List Stream) := []
  store : List StoreCopy := []
  fills : List FillReq := []
  drains : List (Nat × List Nat) := []
  cutSeq : Option Nat := none
  written : Nat := 0
  lost : List (Nat × Nat) := []
  lruClock : Nat := 0
deriving DecidableEq, Repr

end Sys2Proof.Machine
end

