-- ==== Sys2Proof/Machine/Codes.lean ====
section
/-! DEFINITION. The codes of the format and of the links: CRC-32 (R42, R110), CRC-16 (R147), the Reed-Solomon codes of the groove
address, the tag, the outer code and the buffer symbol code (R83, R95, R101, R534), the scrambler (R97), the block code (R98,
R99), the modulation code (R92 to R94), sync and resync (R89 to R91), the block frame (R86, R87) and the mapping of logical
blocks (R104). -/

namespace Sys2Proof.Machine

/-! ### Bytes and words -/

/-- The bytes of `x`, least significant first (R12). -/
def leBytes : Nat → Nat → List Byte
  | 0, _ => []
  | n + 1, x => BitVec.ofNat 8 x :: leBytes n (x / 256)

/-- The number whose little-endian bytes are given. -/
def ofLeBytes : List Byte → Nat
  | [] => 0
  | b :: bs => b.toNat + 256 * ofLeBytes bs

/-- The bytes of `x`, most significant first (R72). -/
def beBytes (n x : Nat) : List Byte := (leBytes n x).reverse

/-- The number whose big-endian bytes are given. -/
def ofBeBytes (bs : List Byte) : Nat := ofLeBytes bs.reverse

/-- The bits of a byte, most significant first (R72). -/
def bitsMsb (b : Byte) : List Bool := (List.range 8).map (fun i => b.getLsbD (7 - i))

/-- A byte from its bits, most significant first. -/
def byteOfBits (bs : List Bool) : Byte := BitVec.ofNat 8 (bs.foldl (fun a b => 2 * a + b.toNat) 0)

/-- Bits [lo + w − 1 : lo] of a number. -/
def bitsOf (x lo w : Nat) : Nat := x / 2 ^ lo % 2 ^ w

/-- The whole bytes of a list of bits, most significant bit first. -/
def bytesOfBits (n : Nat) (bs : List Bool) : List Byte :=
  (List.range n).map (fun i => byteOfBits ((bs.drop (8 * i)).take 8))

/-! ### Cyclic redundancy checks -/

/-- One bit of the reflected CRC-32. -/
def crc32Bit (c : BitVec 32) : BitVec 32 :=
  if c.getLsbD 0 then (c >>> 1) ^^^ 0xEDB88320#32 else c >>> 1

def crc32Byte (c : BitVec 32) (b : Byte) : BitVec 32 :=
  (List.range 8).foldl (fun c _ => crc32Bit c) (c ^^^ b.zeroExtend 32)

/-- CRC-32 with the IEEE 802.3 polynomial (R42, R110, R601). -/
def crc32 (bs : List Byte) : BitVec 32 := ~~~ (bs.foldl crc32Byte 0xFFFFFFFF#32)

def crc16Bit (c : BitVec 16) : BitVec 16 :=
  if c.getLsbD 15 then (c <<< 1) ^^^ 0x1021#16 else c <<< 1

def crc16Byte (c : BitVec 16) (b : Byte) : BitVec 16 :=
  (List.range 8).foldl (fun c _ => crc16Bit c) (c ^^^ (b.zeroExtend 16 <<< 8))

/-- CRC-16 with polynomial 0x1021, initial value 0xFFFF, no final inversion (R147). -/
def crc16 (bs : List Byte) : BitVec 16 := bs.foldl crc16Byte 0xFFFF#16

/-! ### Fields and Reed-Solomon codes -/

/-- A field GF(2^m), given by m and its polynomial without the leading term. -/
structure Gf where
  m : Nat
  poly : Nat
deriving DecidableEq, Repr

/-- The field of the groove address, x^4 + x + 1 (R83). -/
def gf16 : Gf := ⟨4, 0x3⟩

/-- The field of tags, outer code and buffer symbol code, x^8 + x^4 + x^3 + x^2 + 1 (R95). -/
def gf256 : Gf := ⟨8, 0x1D⟩

/-- Multiplication by α = 2. -/
def Gf.dbl (F : Gf) (a : Nat) : Nat :=
  if 2 ^ (F.m - 1) ≤ a then ((2 * a) % 2 ^ F.m) ^^^ F.poly else 2 * a

def Gf.mulGo (F : Gf) : Nat → Nat → Nat → Nat
  | 0, _, _ => 0
  | n + 1, a, b => (if b % 2 = 1 then a else 0) ^^^ F.mulGo n (F.dbl a) (b / 2)

def Gf.mul (F : Gf) (a b : Nat) : Nat := F.mulGo F.m a b

/-- α^n. -/
def Gf.exp (F : Gf) : Nat → Nat
  | 0 => 1
  | n + 1 => F.dbl (F.exp n)

def Gf.pow (F : Gf) (a : Nat) : Nat → Nat
  | 0 => 1
  | n + 1 => F.mul a (F.pow a n)

/-- The inverse, a^(2^m − 2). -/
def Gf.inv (F : Gf) (a : Nat) : Nat := F.pow a (2 ^ F.m - 2)

/-- The value at `x` of the polynomial whose coefficients are given from x^0. -/
def Gf.eval (F : Gf) (p : List Nat) (x : Nat) : Nat := p.foldr (fun c a => c ^^^ F.mul a x) 0

/-- Sum of two polynomials given from x^0. -/
def polyAdd : List Nat → List Nat → List Nat
  | [], q => q
  | p, [] => p
  | a :: p, b :: q => (a ^^^ b) :: polyAdd p q

def Gf.scale (F : Gf) (c : Nat) (p : List Nat) : List Nat := p.map (F.mul c)

/-- Product of two polynomials given from x^0. -/
def Gf.polyMul (F : Gf) : List Nat → List Nat → List Nat
  | [], _ => []
  | a :: p, q => polyAdd (F.scale a q) (0 :: F.polyMul p q)

/-- The generator polynomial with roots α^0 to α^(r−1), from x^0. -/
def Gf.gen (F : Gf) : Nat → List Nat
  | 0 => [1]
  | r + 1 => F.polyMul [F.exp r, 1] (F.gen r)

/-- The check symbols of a systematic code with `r` roots: the remainder of m(x) × x^r by the generator. The message is given
with its highest coefficient first, and so is the result. -/
def rsCheck (F : Gf) (r : Nat) (msg : List Nat) : List Nat :=
  let g := ((F.gen r).take r).reverse
  msg.foldl
    (fun reg s =>
      let fb := s ^^^ reg.headD 0
      List.zipWith (fun a c => a ^^^ F.mul fb c) (reg.drop 1 ++ [0]) g)
    (List.replicate r 0)

/-- The syndromes r(α^0) to r(α^(r−1)) of a word given with its highest coefficient first. -/
def rsSyndromes (F : Gf) (r : Nat) (word : List Nat) : List Nat :=
  (List.range r).map (fun i => F.eval word.reverse (F.exp i))

/-- Erasure locator: the product of (1 + α^p x) over erased powers `p`. -/
def rsErasureLocator (F : Gf) (ps : List Nat) : List Nat :=
  ps.foldl (fun g p => F.polyMul g [1, F.exp p]) [1]

/-- One round of the locator search: `k` is the round (1, 2, …), `e` the number of erasures. The state is the locator, the
auxiliary polynomial and the current length. -/
def rsRound (F : Gf) (syn : List Nat) (e : Nat) (st : List Nat × List Nat × Nat) (k : Nat) : List Nat × List Nat × Nat :=
  let lam := st.1
  let b := st.2.1
  let len := st.2.2
  let d := (List.range (len + 1)).foldl
    (fun a j => if j < k then a ^^^ F.mul (lam.getD j 0) (syn.getD (k - 1 - j) 0) else a) 0
  let t := polyAdd lam (F.scale d (0 :: b))
  if d ≠ 0 ∧ 2 * len ≤ k + e - 1 then (t, F.scale (F.inv d) lam, k - len + e) else (t, 0 :: b, len)

/-- Bounded-distance decoding with erasures of a word of at most 2^m − 1 symbols (highest coefficient first) with `r` check
symbols: the codeword that differs from the word in v symbols outside the erased ones, e + 2v ≤ r, or nothing. `erased` are
powers of x. -/
def rsDecode (F : Gf) (r : Nat) (word : List Nat) (erased : List Nat) : Option (List Nat) :=
  let e := erased.length
  if r < e then none else
  let syn := rsSyndromes F r word
  let start := rsErasureLocator F erased
  let st := ((List.range (r - e)).map (fun i => e + 1 + i)).foldl (rsRound F syn e) (start, start, e)
  let lam := st.1
  let len := st.2.2
  let n := word.length
  let ord := 2 ^ F.m - 1
  let xinv := fun p => F.exp ((ord - p % ord) % ord)
  let roots := (List.range n).filter (fun p => F.eval lam (xinv p) = 0)
  let omega := (F.polyMul syn lam).take r
  let deriv := (List.range lam.length).filterMap
    (fun i => if i = 0 then none else some (if i % 2 = 1 then lam.getD i 0 else 0))
  let value := fun p =>
    F.mul (F.exp p) (F.mul (F.eval omega (xinv p)) (F.inv (F.eval deriv (xinv p))))
  if 2 * len > r + e ∨ roots.length ≠ len then none else
  let fixed := (List.range n).map (fun i =>
    let p := n - 1 - i
    if p ∈ roots then word.getD i 0 ^^^ value p else word.getD i 0)
  if (rsSyndromes F r fixed).all (· = 0) then some fixed else none

/-! ### Groove address (R82 to R84) -/

/-- The nibbles of a number, highest first. -/
def nibbles (n x : Nat) : List Nat := (List.range n).map (fun i => bitsOf x (4 * (n - 1 - i)) 4)

def ofNibbles (ns : List Nat) : Nat := ns.foldl (fun a d => 16 * a + d) 0

/-- The 56-bit groove address word of a PBA. -/
def gaddrWord (pba : Nat) : Nat := ofNibbles (nibbles 10 pba ++ rsCheck gf16 4 (nibbles 10 pba))

/-- Results of decoding a groove address or a tag (R164, R221). -/
inductive CodeResult where
  | ok | corrected | failed
deriving DecidableEq, Repr

/-- The PBA that a received groove address word carries, and how it decoded; up to 2 nibbles are corrected. -/
def gaddrDecode (w : Nat) : CodeResult × Nat :=
  match rsDecode gf16 4 (nibbles 14 w) [] with
  | none => (.failed, 0)
  | some c => (if c = nibbles 14 w then .ok else .corrected, ofNibbles (c.take 10))

/-- Parts of a PBA (Table 2.5). -/
def pbaSide (p : Nat) : Nat := bitsOf p 39 1
def pbaLayer (p : Nat) : Nat := bitsOf p 35 4
def pbaFurrow (p : Nat) : Nat := bitsOf p 32 3
def pbaSlot (p : Nat) : Nat := bitsOf p 0 32
def mkPba (side layer furrow slot : Nat) : Nat := side * 2 ^ 39 + layer * 2 ^ 35 + furrow * 2 ^ 32 + slot

/-- Slots of a furrow (R78). -/
def lastSlot : Nat := 1988351
/-- Logical blocks of a volume and of a layer (R104). -/
def volumeBlocks : Nat := 136729600
def layerBlocks : Nat := 13672960

/-- The home PBA of an LBA on side `d` (R104). -/
def homePba (d lba : Nat) : Nat :=
  let layer := lba / layerBlocks
  let w := lba % layerBlocks
  let c := w / 56
  let t := w % 56
  mkPba d layer (t % 8) (16640 + 30776 * (c / 3815) + 8 * (c % 3815) + t / 8)

/-- Zone of a user-area slot, or nothing (R79). -/
def slotZone (slot : Nat) : Option Nat :=
  if 16640 ≤ slot ∧ slot < 1986304 then some ((slot - 16640) / 30776) else none

/-- Offset of a user-area slot within its zone. -/
def slotInZone (slot : Nat) : Nat := (slot - 16640) % 30776

/-- Whether a slot lies in a spare area (R79). -/
def isSpare (slot : Nat) : Bool := (slotZone slot).isSome && decide (30520 ≤ slotInZone slot)

/-- Cluster of a layer in which a cluster-space slot lies. -/
def slotCluster (slot : Nat) : Nat := 3815 * ((slot - 16640) / 30776) + slotInZone slot / 8

/-- First slot of cluster `c` of a layer. -/
def clusterSlot (c : Nat) : Nat := 16640 + 30776 * (c / 3815) + 8 * (c % 3815)

/-- First slot of the spare area of zone `z`. -/
def spareBase (z : Nat) : Nat := 16640 + 30776 * z + 30520

/-- The LBA whose home is a PBA, where there is one (R105). -/
def pbaLba (p : Nat) : Option Nat :=
  let s := pbaSlot p
  if (slotZone s).isSome ∧ slotInZone s < 30520 ∧ slotInZone s % 8 < 7 ∧ pbaLayer p < 10 then
    some (layerBlocks * pbaLayer p + 56 * slotCluster s + 8 * (slotInZone s % 8) + pbaFurrow p)
  else none

/-! ### Tag (R95) -/

/-- The 24 bytes of a tag with its check. -/
def tagWithCheck (tag : List Byte) : List Byte :=
  tag ++ (rsCheck gf256 8 (tag.map BitVec.toNat)).map (BitVec.ofNat 8)

/-- The 16 tag bytes (Table 2.10). -/
def tagBytes (volumeId position pba gen flags : Nat) : List Byte :=
  beBytes 6 volumeId ++ beBytes 1 position ++ beBytes 5 pba ++ beBytes 2 gen ++ beBytes 1 flags ++ beBytes 1 0

/-- Decode 24 received bytes; up to 4 byte errors are corrected. -/
def tagDecode (bs : List Byte) : CodeResult × List Byte :=
  match rsDecode gf256 8 (bs.map BitVec.toNat) [] with
  | none => (.failed, bs.take 16)
  | some c => (if c = bs.map BitVec.toNat then .ok else .corrected, (c.take 16).map (BitVec.ofNat 8))

/-! ### Scrambler and block code (R97 to R99) -/

/-- One step of the scrambler: the output bit and the next state. -/
def scrambleStep (st : BitVec 16) : Bool × BitVec 16 :=
  (st.getLsbD 15,
   (st <<< 1) ||| (BitVec.ofBool (st.getLsbD 15 ^^ st.getLsbD 13 ^^ st.getLsbD 12 ^^ st.getLsbD 10)).zeroExtend 16)

def scrambleByteGo : Nat → BitVec 16 → BitVec 16 × List Bool
  | 0, st => (st, [])
  | n + 1, st =>
    let o := scrambleStep st
    let r := scrambleByteGo n o.2
    (r.1, o.1 :: r.2)

def scrambleGo : List Byte → BitVec 16 → List Byte
  | [], _ => []
  | b :: bs, st =>
    let r := scrambleByteGo 8 st
    (b ^^^ byteOfBits r.2) :: scrambleGo bs r.1

/-- Scramble, or unscramble, a block with its home PBA. -/
def scramble (home : Nat) (bs : List Byte) : List Byte :=
  let s0 := BitVec.ofNat 16 home ^^^ 0x5A5A#16
  scrambleGo bs (if s0 = 0 then 1 else s0)

/-- A column group of the block code: bit x is element x. -/
abbrev Group := BitVec 1024

/-- P^s v: element x of the result is element (x + s) mod 1,024 of v (R99). -/
def circ (s : Nat) (v : Group) : Group := v.rotateRight s

/-- Shift of block row i at information column j. -/
def infoShift (i j : Nat) : Nat := (113 * j + i * (37 * j + 5)) % 1024

/-- Base matrix (Table 2.11); nothing for the zero matrix. -/
def baseShift (i j : Nat) : Option Nat :=
  if j < 32 then some (infoShift i j)
  else match j, i with
    | 32, 0 => some 7 | 32, 2 => some 0 | 32, 3 => some 7
    | 33, 0 => some 0 | 33, 1 => some 0
    | 34, 1 => some 0 | 34, 2 => some 0
    | 35, 2 => some 0 | 35, 3 => some 0
    | _, _ => none

/-- λ_i of the information groups. -/
def lambda (i : Nat) (u : List Group) : Group :=
  (List.range 32).foldl (fun a j => a ^^^ circ (infoShift i j) (u.getD j 0)) 0

/-- The 36 groups of the codeword of 32 information groups. -/
def ldpcEncode (u : List Group) : List Group :=
  let l0 := lambda 0 u
  let l1 := lambda 1 u
  let l2 := lambda 2 u
  let l3 := lambda 3 u
  let p32 := l0 ^^^ l1 ^^^ l2 ^^^ l3
  let p33 := l0 ^^^ circ 7 p32
  let p34 := l1 ^^^ p33
  let p35 := l2 ^^^ p32 ^^^ p34
  u.take 32 ++ [p32, p33, p34, p35]

/-- Block row i of H c. -/
def ldpcRow (i : Nat) (c : List Group) : Group :=
  (List.range 36).foldl
    (fun a j => match baseShift i j with | none => a | some s => a ^^^ circ s (c.getD j 0)) 0

/-- Number of unsatisfied checks. -/
def ldpcUnsat (c : List Group) : Nat :=
  (List.range 4).foldl
    (fun a i => a + ((List.range 1024).filter (fun x => (ldpcRow i c).getLsbD x)).length) 0

/-- The groups of a list of bits. -/
def groupsOfBits (n : Nat) (bs : List Bool) : List Group :=
  (List.range n).map (fun j => BitVec.ofNat 1024
    (((bs.drop (1024 * j)).take 1024).foldr (fun b a => b.toNat + 2 * a) 0))

def bitsOfGroups (gs : List Group) : List Bool :=
  gs.flatMap (fun g => (List.range 1024).map g.getLsbD)

/-- The 36,864 codeword bits of 4,096 user bytes with home PBA `home`. -/
def blockCodeword (home : Nat) (user : List Byte) : List Bool :=
  bitsOfGroups (ldpcEncode (groupsOfBits 32 ((scramble home user).flatMap bitsMsb)))

/-- The user bytes of 36,864 decided bits, unscrambled. -/
def blockUserBytes (home : Nat) (bits : List Bool) : List Byte :=
  scramble home (bytesOfBits 4096 (bits.take 32768))

/-! ### Modulation code (R92 to R94) -/

def basicCode : Bool → Bool → List Bool
  | false, false => [true, false, false]
  | false, true => [true, false, true]
  | true, false => [false, false, true]
  | true, true => [false, true, false]

/-- Encode data bits, two at a time (R93). -/
def modulate : List Bool → List Bool
  | a :: b :: false :: d :: rest =>
    if a ≠ b then
      match a, d with
      | false, false => [true, false, true, false, false, false] ++ modulate rest
      | false, true => [true, false, false, false, false, false] ++ modulate rest
      | true, false => [false, true, false, false, false, false] ++ modulate rest
      | true, true => [false, false, true, false, false, false] ++ modulate rest
    else basicCode a b ++ modulate (false :: d :: rest)
  | a :: b :: rest => basicCode a b ++ modulate rest
  | _ => []

/-- The pair of one word by Table 2.8, and whether the word is valid. -/
def basicDecode : List Bool → List Bool × Bool
  | [true, false, false] => ([false, false], true)
  | [true, false, true] => ([false, true], true)
  | [false, false, true] => ([true, false], true)
  | [false, true, false] => ([true, true], true)
  | _ => ([false, false], false)

/-- The pairs of a word followed by 000, by Table 2.9. -/
def substDecode : List Bool → Option (List Bool)
  | [true, false, true] => some [false, true, false, false]
  | [true, false, false] => some [false, true, false, true]
  | [false, true, false] => some [true, false, false, false]
  | [false, false, true] => some [true, false, false, true]
  | _ => none

/-- Decode a channel stream without resyncs: data bits and modulation errors (R94). -/
def demodulate : List Bool → List Bool × Nat
  | a :: b :: c :: false :: false :: false :: rest =>
    match substDecode [a, b, c] with
    | some ps => let r := demodulate rest; (ps ++ r.1, r.2)
    | none => let r := demodulate (false :: false :: false :: rest); (false :: false :: r.1, r.2 + 1)
  | a :: b :: c :: rest =>
    let w := basicDecode [a, b, c]
    let r := demodulate rest
    (w.1 ++ r.1, r.2 + (!w.2).toNat)
  | _ => ([], 0)

/-! ### Block frame (R86 to R91) -/

def bitsOfString (s : String) : List Bool := s.toList.map (· == '1')

def syncS : List Bool := bitsOfString "010000000010000000010010100100101001000101001010"
def resyncP0 : List Bool := bitsOfString "0100000000100101001010"
def resyncP1 : List Bool := bitsOfString "0100000000100100100010"

/-- Level (true: mark) and running digital sum after channel bits (R88). -/
def rdsAfter (start : Bool × Int) (bits : List Bool) : Bool × Int :=
  bits.foldl (fun st b => let l := st.1 ^^ b; (l, st.2 + (if l then 1 else -1))) start

/-- A resync between `last` and `first` with pattern `p` (R89, R90). -/
def resyncBits (last first : Bool) (p : List Bool) : List Bool := (!last) :: p ++ [!first]

/-- Segments with the resyncs before segments 1 on, given the level and sum at the end of what stands before (R91). -/
def joinSegments : List (List Bool) → Bool × Int → Bool → List Bool
  | [], _, _ => []
  | seg :: rest, st, last =>
    let with_ := fun p => resyncBits last (seg.headD false) p ++ seg
    let r0 := rdsAfter st (with_ resyncP0)
    let r1 := rdsAfter st (with_ resyncP1)
    let p := if r1.2.natAbs < r0.2.natAbs then resyncP1 else resyncP0
    with_ p ++ joinSegments rest (rdsAfter st (with_ p)) (seg.getLastD false)

/-- The 57,344 channel bits of a block frame: preamble, sync mark, tag field, data region, pad (Table 2.6). -/
def blockFrame (tag : List Byte) (home : Nat) (user : List Byte) : List Bool :=
  let data := (tagWithCheck tag).flatMap bitsMsb ++ blockCodeword home user
  let chan := modulate data
  let head := (List.replicate 128 [true, false, false, false]).flatten ++ syncS ++ chan.take 288
  let segs := (List.range 27).map (fun i => (chan.drop (288 + 2048 * i)).take 2048)
  let seg0 := segs.headD []
  let body := head ++ seg0
  body ++ joinSegments (segs.drop 1) (rdsAfter (false, 0) body) (seg0.getLastD false)
    ++ (List.replicate 144 [false, true, false, false]).flatten

/-! ### Outer code (R100 to R102) -/

/-- Position of block (f, m) of a cluster as a power of x: data block t at 63 − t, parity of furrow f at 7 − f. -/
def outerPower (f m : Nat) : Nat := if m < 7 then 63 - (8 * m + f) else 7 - f

/-- Parity block of furrow `f` of 56 data blocks (each a list of bytes). -/
def outerParity (blocks : List (List Byte)) : List (List Byte) :=
  let cols := (List.range 4096).map (fun j => rsCheck gf256 8 (blocks.map (fun b => (b.getD j 0).toNat)))
  (List.range 8).map (fun f => cols.map (fun c => BitVec.ofNat 8 (c.getD f 0)))

/-! ### Buffer symbol code (R533 to R535) -/

/-- Outcomes of reading a unit (R535), with the symbols in which what is delivered differs from what was written: a device fault that
reaches another codeword is not told apart from a true correction. -/
inductive UnitRead where
  | clean (off : List (Nat × Nat))
  | corrected (device : Option Nat) (off : List (Nat × Nat))
  | uncorrectable
deriving DecidableEq, Repr

/-- The symbols that changes make of the zero codeword, symbol 0 first. -/
def errWord (errs : List (Nat × Nat)) : List Nat :=
  errs.foldl (fun w e => w.modify e.1 (fun x => x ^^^ e.2)) (List.replicate 80 0)

/-- The non-zero symbols of a word, with their places. -/
def wordErrs (w : List Nat) : List (Nat × Nat) :=
  ((List.range w.length).map (fun i => (i, w.getD i 0))).filter (fun e => e.2 != 0)

/-- What a set of changes against a codeword reads as: an error in at most 2 symbols, or within one device, that matches the syndromes is
corrected; any other is uncorrectable (R534, R535). An error within one device is noted as such from 3 symbols on (R536). -/
def unitRead (errs : List (Nat × Nat)) : UnitRead :=
  let w := errWord errs
  if (rsSyndromes gf256 16 w).all (· = 0) then .clean (wordErrs w) else
  match rsDecode gf256 16 w [] with
  | none => .uncorrectable
  | some f =>
    let d := wordErrs (List.zipWith (fun a b => a ^^^ b) w f)
    let dev := (d.map (·.1)).headD 0 / 8
    if d.length ≤ 2 then .corrected none (wordErrs f)
    else if d.all (fun x => x.1 / 8 = dev) then .corrected (some dev) (wordErrs f)
    else .uncorrectable

end Sys2Proof.Machine
end

