-- ==== Sys2Proof/Machine/TypesRead.lean ====
section
/-! DEFINITION. The state of the optical front end, the read-channel lanes, the framers and decoders and the write channels
(chapters 3 to 6) beyond their registers. -/

namespace Sys2Proof.Machine

/-- Front end of one beam: the settings in force (a written one may still wait for its boundary, R125), the gain step the lane
has requested (R172), the ADC reference taken at the preamble of the slot in progress (R584). -/
structure AfeLane where
  gain : Nat := 0x18
  corner : Nat := 0x0F
  boost : Nat := 0
  offset : Nat := 0
  step : Option Bool := none
  ref : Int := 0
deriving DecidableEq, Repr

/-- The actuator link of a station: the last frame sent, its 29 bytes from SEQ on (R143), whether the park sequencer has the
link (R151), whether a frame has been sent since reset (R152). -/
structure ActLink where
  frame : List Byte := []
  parked : Bool := false
  sent : Bool := false
deriving DecidableEq, Repr

/-- Front end: whether reads and writes may use samples (R130), whether the 100 ms of R131 have passed, lanes, links. -/
structure AfeSt where
  resumed : Bool := false
  failed : Bool := false
  lanes : Cells AfeLane := []
  links : Cells ActLink := []
deriving DecidableEq, Repr

/-- A run of armed slots (R159, R512): PBA of its next slot, slots left, whether its first slot is named a landing, the wobble
frequency named in kHz. -/
structure ArmRun where
  pba : Nat
  left : Nat
  landing : Bool
  freq : Nat
deriving DecidableEq, Repr

/-- Values of a lane's loops, each in the LSB of its register with 16 fraction bits below (R171): digital gain, asymmetry,
baseline, equalizer taps, inner and outer cross-track taps, wobble amplitude; LEVEL_REF and MSE as a zone entry holds them. -/
structure LoopVals where
  g : Int
  a : Int
  b : Int
  taps : List Int
  xin : List Int
  xout : List Int
  amp : Int
  levelRef : Int
  mse : Int
deriving DecidableEq, Repr

/-- A zone table entry (Table 4.8). -/
structure ZEntry where
  learned : Bool
  factory : Bool
  count : Nat
  gain : Nat
  corner : Nat
  boost : Nat
  offset : Nat
  dgain : Int
  baseline : Int
  asym : Int
  taps : List Int
  xin : List Int
  xout : List Int
  amp : Int
  mse : Int
  levelRef : Int
deriving DecidableEq, Repr

/-- A defect hold (R186-R190): its onset in the slot in progress, the offset of its release once its end is found, bits held in the slots
before this one, whether it is a long defect and a blank slot's hold. -/
structure DefHold where
  onset : Nat
  release : Option Nat := none
  before : Nat := 0
  long : Bool := false
  blank : Bool := false
deriving DecidableEq, Repr

/-- Histories of a lane's pipeline, latest first: u, z, w, the neighbours' decisions used, the first-pass decisions; path metrics and
survivors of the first-pass detector, one for each state (R174); forward metrics of the soft-output detector (R182). -/
structure LanePipe where
  u : List Int := []
  z : List Int := []
  w : List Int := []
  ain : List Int := []
  aout : List Int := []
  dec : List Bool := []
  paths : List (Int × List Bool) := []
  alpha : List Int := []
deriving DecidableEq, Repr

/-- A lane's loops at one channel bit: the values that adapt, the pipeline, f and phi, whether a value was held at a range end. -/
structure BitSt where
  v : LoopVals
  pipe : LanePipe
  f : Int
  phi : Int
  sat : Bool := false
deriving DecidableEq, Repr

/-- The lane report (Table 4.10). -/
structure LaneReport where
  pba : Nat
  gaddr : Nat := 2
  mismatch : Bool := false
  landing : Bool := false
  factory : Bool := false
  acquiring : Bool := false
  blank : Bool := false
  timingLost : Bool := false
  longDefect : Bool := false
  degraded : Bool := false
  oneSided : Bool := false
  mse : Nat := 0
  defectBits : Nat := 0
  deepBits : Nat := 0
  redetects : Nat := 0
  timeouts : Nat := 0
deriving DecidableEq, Repr

/-- A slot's item (R159): its report and its channel-bit LLRs in LSB of 0.5, in offset order. -/
structure LaneItem where
  report : LaneReport
  llr : List Int
deriving DecidableEq, Repr

/-- The item a lane is producing: report so far, LLRs of confirmed spans, w kept for global iterations (R185), spans confirmed,
holds and deep ranges of the slot, sum and count for the MSE (R183), σ² of the slot. -/
structure LaneCur where
  mse : Int := 64
  report : LaneReport
  llr : List Int := []
  w : List Int := []
  spans : Nat := 0
  holds : List (Nat × Nat) := []
  deep : List (Nat × Nat) := []
  errSum : Nat := 0
  errCount : Nat := 0
deriving DecidableEq, Repr

/-- A slot in the block sample store (R185): w, σ² as it was detected with, holds and deep ranges, the values at its end, held bits, whether
it was blank, and the place of its zone entry (R200). -/
structure LaneSlot where
  pba : Nat
  w : List Int
  mse : Int
  holds : List (Nat × Nat)
  deep : List (Nat × Nat)
  v : LoopVals
  held : Nat
  blank : Bool
  addr : Option Nat
deriving DecidableEq, Repr

/-- A read-channel lane: run armed and run waiting, a disarm that waits for the slot boundary, verify mode of a pass (R254), the
item in progress, the committed item that the framer has not taken (Table 1.2), main and tag contexts (R194, R195), hold,
pipeline, timing loop f and phi, counts for wobble lock (R161), whether the next armed slot is a landing (R192), offsets where
the landing step set is in force, acquisition (R199), entry cache by slot 0 to 3 (R196), block sample store of up to three slots
(R185), time of the last zone update of each entry by its place (R200), place and values of the entry of the slot, whether a
retry attempt reads on factory seeds (Table 5.6). -/
structure LaneRec where
  run : Option ArmRun := none
  next : Option ArmRun := none
  disarm : Bool := false
  verify : Bool := false
  cur : Option LaneCur := none
  out : Option LaneItem := none
  main : Option LoopVals := none
  tag : Option LoopVals := none
  hold : Option DefHold := none
  pipe : LanePipe := {}
  f : Int := 0
  phi : Int := 0
  marks : Nat := 0
  landNext : Bool := true
  land : List (Nat × Nat) := []
  acqLeft : Nat := 0
  acqFirst : Option LoopVals := none
  acqLast : Option LoopVals := none
  acqAddr : Nat := 0
  acqAsk : Bool := false
  cache : Cells (Option (Nat × ZEntry)) := []
  store : List LaneSlot := []
  learnt : Cells Word := []
  seeds : Bool := false
  entry : Option (Nat × ZEntry) := none
deriving DecidableEq, Repr

/-- Results of the tag decode (R222). -/
inductive TagResult where
  | none | ok | corrected | failed
deriving DecidableEq, Repr

/-- The item a framer is working on: the frame's position Y and its distance, candidates (distance, Y) found and those tried,
where each segment starts, whether the search window has ended, whether the frame is confirmed; FRM_CTRL, FRM_ITER_CFG and the lane's ITER_MAX
as they stood when the item was taken (R212). -/
structure FrameCur where
  item : LaneItem
  y : Option (Nat × Nat) := none
  cands : List (Nat × Nat) := []
  tried : Nat := 0
  flywheel : Bool := false
  refined : Bool := false
  reframed : Bool := false
  windowEnd : Bool := false
  confirmed : Bool := false
  tag : TagResult := .none
  tagHome : Nat := 0
  tagFlags : Nat := 0
  tagBits : List Bool := []
  ctrl : Word := 0
  iter : Word := 0
  iterMax : Nat := 3
  starts : List Nat := []
deriving DecidableEq, Repr

/-- An item of the framer-to-decoder weir (R211): lane, slot's PBA, the report, the tag result with the home PBA that goes with
it (R222), and the data-bit LLRs where the block is to be decoded. -/
structure DecItem where
  lane : Nat
  report : LaneReport
  flywheel : Bool
  reframed : Bool
  address : Bool
  tag : TagResult
  home : Nat
  tagFlags : Nat
  tagBits : List Bool
  starts : List Nat
  iter : Word
  iterMax : Nat
  llr : Option (List Int)
deriving DecidableEq, Repr

/-- A block in the LDPC decoder: global iteration, layered iterations so far, channel input of the iteration, posteriors once it
ended, whether the lane has lost its samples, and whether its LLRs for a further iteration have come (R185; R226-R228). -/
structure LdpcBlk where
  item : DecItem
  g : Nat := 1
  iters : Nat := 0
  input : List Int
  extrinsic : List Int := []
  lost : Bool := false
  back : Bool := false
deriving DecidableEq, Repr

/-- States of a cluster member (R230). -/
inductive Member where
  | good (bytes : List Byte) | zero | erased
deriving DecidableEq, Repr

/-- What the decoder knows of one member in the present pass: its state, the flags of Table 5.5 collected for it, layered
iterations, whether its slot is blank, whether a degraded beam alone erased it, the home PBA. -/
structure MemberRec where
  state : Member := .erased
  known : Bool := false
  flags : Nat := 0
  iters : Nat := 0
  blank : Bool := false
  degraded : Bool := false
  home : Nat := 0
deriving DecidableEq, Repr

/-- A cluster in the decoder: members 0 to 63 by index, and whether the whole cluster is armed in the pass (R231). -/
structure Cluster where
  members : Cells MemberRec := []
  whole : Bool := false
  parity : Bool := true
deriving DecidableEq, Repr

/-- A request a channel sequencer has taken (R500): its number, core and fill place, kind, first LBA, home PBAs of the blocks still without an
outcome, whether it is read-ahead, whether it is a survey (R282). -/
inductive ReqKind where
  | read | readAhead | survey | readBack | mgmt | neighbour
deriving DecidableEq, Repr

structure ReadReq where
  number : Nat
  kind : ReqKind
  lba : Nat
  left : List Nat
  aborted : Bool := false
deriving DecidableEq, Repr

/-- A retry sequence (R240-R248): present attempt, the blocks in it with the attempt each joined at and whether each only
confirms a blank slot, blocks that wait on it (R240), the lanes' fields to restore (R243). -/
structure Retry where
  attempt : Nat
  blocks : List (Nat × Nat × Bool)
  waiting : List Nat := []
  saved : List (List Nat) := []
deriving DecidableEq, Repr

/-- A framer and decoder with the requests of its pickup: framers by beam, the weir to the decoder, the LDPC decoder's block and
those that wait for a further iteration, clusters by layer × 244,160 + cluster, assemblies (R235), requests in progress, retry
sequence, VOLUME_ID of the current layer-0 record once known (R221). -/
structure FrmRec where
  framers : Cells (Option FrameCur) := []
  toDecoder : List DecItem := []
  active : Option LdpcBlk := none
  iterating : List LdpcBlk := []
  clusters : Cells Cluster := []
  assembly : Cells Cluster := []
  reqs : List ReadReq := []
  retry : Option Retry := none
  attempt : Nat := 1
deriving DecidableEq, Repr

/-- An item of the Flume-to-write-channel weir (R256), with the spare slots that its block has failed in (R274), and whether it is a rescue,
which has no staged entry (R246). -/
structure WriteItem where
  slotPba : Nat
  homePba : Nat
  flags : Nat
  gen : Nat
  volumeId : Nat
  request : Nat
  user : List Byte
  fails : Nat := 0
  rescue : Bool := false
deriving DecidableEq, Repr

/-- A slot that a pass has recorded and whose verify result is not known: its item, and whether it was interrupted (R268). -/
structure Recorded where
  item : WriteItem
  interrupted : Bool
deriving DecidableEq, Repr

/-- A pass (R265): first and last slot, furrow, layer, side; its strategy set and levels as captured; the slot next to be
recorded once it runs. -/
structure Pass where
  s1 : Nat
  s2 : Nat
  furrow : Nat
  layer : Nat
  side : Nat
  strat : List Word := []
  levels : List Nat := []
  at_ : Nat
  parityOnly : Bool := false
deriving DecidableEq, Repr

/-- States of the recorded map (R280). -/
inductive Rec where
  | unknown | blank | pending | recorded
deriving DecidableEq, Repr

/-- A laser power entry (R284) and its open calibration (R285): asymmetries gathered, first measurement and candidate. -/
structure PowerEntry where
  peak : Nat
  bias : Nat
  cool : Nat
  learned : Bool := false
  count : Nat := 0
  gathered : List Int := []
  first : Option (Int × Nat) := none
deriving DecidableEq, Repr

/-- A write channel: weir of items, a queued pass, the running pass, results still to come, W decodes FAILED in a row and the
last four (R265, R267), frames sent since each level and WRITE_EN last changed (R148), pulse symbols of the last slot, sync
offsets of the pass's verified blocks (R255), the factor 2^19 × (1 + WTC × ΔT) of its levels (R585). `cur` is the item being recorded,
`relocs` the blocks staged again for a spare slot (R246, R272), `lanesEn` the lanes' EN bits before the pass (R254). -/
structure WchRec where
  items : List WriteItem := []
  queued : Option Pass := none
  pass : Option Pass := none
  cur : Option WriteItem := none
  results : List Recorded := []
  relocs : List WriteItem := []
  lanesEn : Nat := 0
  failedW : Nat := 0
  goodW : List Nat := []
  framesP : Nat := 0
  framesB : Nat := 0
  framesC : Nat := 0
  framesE : Nat := 0
  symbols : List (BitVec 9) := []
  syncOffsets : List Int := []
  factor : Nat := 524288
  underrun : Bool := false
  stopAsked : Bool := false
deriving DecidableEq, Repr

/-- A parity accumulator (R277): its eight parity rows of 4,096 bytes, data indices whose contribution is in, data indices still to
be read back, data indices recorded, furrows whose parity is recorded, whether its parity is skipped. -/
structure ParityAcc where
  live : Bool := false
  done : List Nat := []
  rows : List (List Nat) := []
  added : List Nat := []
  toRead : List Nat := []
  recorded : List Nat := []
  skipped : Bool := false
deriving DecidableEq, Repr

/-- The read and write path of the M-die by unit, with the recorded map (R280: by 2^28 × volume + LBA), the parity accumulators
(R277: by 2^24 × volume + layer × 244,160 + cluster) and the laser power entries (R284: by (volume × 10 + layer) × 64 + zone). -/
structure PathSt where
  lanes : Cells LaneRec := []
  frms : Cells FrmRec := []
  wchs : Cells WchRec := []
  map : Cells Rec := []
  accs : Cells ParityAcc := []
  power : Cells (Option PowerEntry) := []
deriving DecidableEq, Repr

end Sys2Proof.Machine
end

