-- ==== Sys2Proof/Machine/TypesServo.lean ====
section
/-! DEFINITION. The state of the Tolek engines and their pairs, of the resident loop and motion programs, of the stations and their
volumes, of the drive hardware, and of the channel sequencers (chapters 7 to 10) beyond their registers. -/

namespace Sys2Proof.Machine

/-- Numbers in Q3.28 are the integers that their words hold in two's complement (R306). -/
abbrev Fix := Int

/-- A loop in progress: first instruction, last instruction, iterations left after this one, and the calls outstanding where it began (R318). -/
structure LoopFrame where
  first : Nat
  last : Nat
  left : Nat
  depth : Nat
deriving DecidableEq, Repr

/-- What an overrun restores (R299): value registers, accumulators, hold flags, data words, bank. -/
structure TolekCtx where
  v : Cells Q := []
  a : Cells (BitVec 64) := []
  h : Cells Int := []
  data : Cells Q := []
  bank : Nat := 0
deriving DecidableEq, Repr

/-- A Tolek engine (Table 7.1). Memories by address, coefficients by 32 × bank + index; entries MAIN, SAFE, ALT1, ALT2; for each
accumulator its gain index if it is bumpless (R323). `ctx` is the present context and `saved` that of the tick (R299). `outs` are the
ports written in the run, `last` the ports of the last committed period, `stores` the stores of the run in order (R418). `role` is
coded as LE_ENG_STATUS.ROLE; `fault`: an internal fault reported since the previous tick; `missFab`, `missWire`: ticks in a row without
a heartbeat on a path. `image` says which class's container it was loaded from has been applied. -/
structure TolekRec where
  prog : Cells Q := []
  size : Nat := 0
  banks : Cells Q := []
  rtab : Cells Nat := []
  entries : List (Option Nat) := []
  bump : List (Option Nat) := []
  ctx : TolekCtx := {}
  saved : TolekCtx := {}
  pc : Nat := 0
  calls : List Nat := []
  loops : List LoopFrame := []
  running : Bool := false
  ended : Bool := false
  units : Nat := 0
  sat : Bool := false
  outs : Cells Q := []
  written : List Nat := []
  last : Cells Q := []
  stores : List (Nat × Q) := []
  sign : BitVec 32 := 0
  role : Nat := 0
  fault : Bool := false
  missFab : Nat := 0
  missWire : Nat := 0
deriving DecidableEq, Repr

/-- A pair (R293): parameter writes not yet applied, command queue, command delivered for the period (`taken`: one was), input ports of
the period and whether the front-end values among them have been delivered, committed periods, whether the bank switched at the tick,
entry of the run in progress, whether there is one, whether the resident program is loaded; the gate: gated outputs presented, whether
they were held at the last tick, periods until they become 0 once the pair is lost (R429); redundancy (R419 to R431): whether the
next comparison follows the copy of a mismatch, time and engine of the last lasting mismatch and whether that engine has passed its test,
engine under test, a swap asked for; activation: the image to come in its container, shadow periods run (R623), whether the pair waits
for an idle station (R624). -/
structure PairRec where
  params : List (Nat × Q) := []
  cmds : List (Q × Q) := []
  cmd : Q × Q := (0, 0)
  taken : Bool := false
  inputs : Cells Q := []
  delivered : Bool := false
  period : Word := 0
  switched : Bool := false
  entry : Nat := 0
  hasRun : Bool := false
  resident : Bool := false
  gate : Cells Q := []
  held : Bool := false
  lost : Option Nat := none
  first : Bool := false
  lasting : Option (Nat × Nat × Bool) := none
  testing : Option Nat := none
  swap : Bool := false
  shadow : Option Nat := none
  waiting : Bool := false
  image : Option (List Byte) := none
deriving DecidableEq, Repr

/-- A command of the resident loop program that runs (R335). -/
structure LoopCmd where
  op : Nat
  a : Nat
  arg : Q
deriving DecidableEq, Repr

/-- The resident loop program of a pickup (R334 to R354). The first fields are those of Table 8.2 (`layer` 15: none). `phase` counts the stages of
the running command and `count` periods within the stage; `good` and `bad` are periods in a row that meet or fail the lock tests, `off` periods off
track. `curves` are the FOCUS positions of S-curves found, `curve` the run in progress (largest FE_HI, least FE_LO, place of the sign change),
`positions` the sweep record. `cycles` counts sign changes of TE, `gap` periods since the last one, `kick` the periods of a tracking kick; `crossed`:
FE changed sign with enough light in the period before. `fresh`: the next closed output equals the set-point at capture (R340). -/
structure LoopProg where
  state : Nat := 0
  layer : Nat := 15
  focusLock : Bool := false
  trackLock : Bool := false
  offtrack : Bool := true
  focusLost : Bool := false
  trackLost : Bool := false
  result : Nat := 0
  seq : Nat := 0
  retry : Nat := 0
  safe : Bool := false
  busy : Bool := false
  cmd : Option LoopCmd := none
  phase : Nat := 0
  count : Nat := 0
  good : Nat := 0
  bad : Nat := 0
  off : Nat := 0
  target : Nat := 15
  cycles : Nat := 0
  gap : Nat := 0
  kick : Nat := 0
  fe : Fix := 0
  te : Fix := 0
  closed : Bool := false
  focus : Fix := 0
  tracking : Fix := 0
  tilt : Fix := 0
  spherical : Fix := 0
  readPower : Fix := 0
  readOn : Bool := false
  actEn : Bool := false
  trim : Fix := 0
  curves : List Fix := []
  curve : Option (Fix × Fix × Option Fix) := none
  positions : List Fix := []
  acc0 : Int := 0
  acc1 : Int := 0
  trace0 : Q := 0
  trace1 : Q := 0
  ownPull : Bool := false
  crossed : Bool := false
  fresh : Bool := false
  total : Nat := 0
deriving DecidableEq, Repr

/-- A qualification (R359, R360): step of Table 8.11, layer, tries of the step, MOUNT commands that wait for it (the first started
it), whether writing is asked for, whether it is quick, whether it is to end at the atomic step and with which status (R363). -/
structure Qual where
  step : Nat
  layer : Nat := 0
  tries : Nat := 0
  waiters : List Nat := []
  writing : Bool := false
  quick : Bool := false
  stop : Bool := false
deriving DecidableEq, Repr

/-- A seek of a channel sequencer (R349): target PBA, steps 3 and 4 made, SEEK_FAILs. -/
structure SeekRec where
  target : Nat
  moves : Nat := 0
  fails : Nat := 0
  step : Nat := 1
deriving DecidableEq, Repr

/-- The resident channel sequencer of a pickup (chapters 5, 8, 9, 10): in service or restarting, time of its last failure, ledger times
of the last focus losses (R341), whether a position check is due and its corrections (R343), seek, slot, lane and direction of the last slips reported
(R346), sweeps tried in recovery, furrow offset held for a pass (R348), servo calibration kept for a quick mount (R361): disc, laser reading and
parameter words 16 to 81; TILT bands measured in this mount (R576), loop commands still to be issued one after another and CMD_SEQ when the last was, sum and number of the committed TRACKING outputs since the last sled centring (R389), whether it is to restart with a new image (R497). -/
structure SeqRec where
  online : Bool := false
  restarting : Bool := false
  held : Bool := false
  failedAt : Option Nat := none
  losses : List Nat := []
  checkDue : Bool := false
  corrections : Nat := 0
  intended : Nat := 15
  seek : Option SeekRec := none
  slips : List (Nat × Nat × Int) := []
  recovering : Bool := false
  offset : Nat := 0
  calFor : Option (Nat × Nat) := none
  calKept : List Nat := []
  script : List Nat := []
  issued : Option Nat := none
  renew : Bool := false
  bands : List Nat := []
  trackSum : Int := 0
  trackN : Nat := 0
deriving DecidableEq, Repr

/-- What is known of one layer of a mounted volume (R109 to R118): current record's generation and session, positions left in each
copy, whether a valid record was found, read-only, DL_FULL, ZT_VALID, whether a zone entry has been learned since, changes not yet recorded, in-memory defect list, spare fills by
8 × zone + furrow as recorded and in use, zones whose spare check was made (R108). -/
structure LayerRec where
  gen : Nat := 0
  session : Nat := 0
  usedA : Nat := 0
  usedB : Nat := 0
  valid : Bool := false
  readOnly : Bool := false
  dlFull : Bool := false
  ztValid : Bool := false
  learned : Bool := false
  dirty : Bool := false
  defects : List Defect := []
  unrecorded : List Defect := []
  fills : Cells Nat := []
deriving DecidableEq, Repr

/-- A management update in progress (R287): layers still to be written, the first of them being written; positions that have failed on it;
blocks of the record whose result is to come and whether one was bad; the commands that wait for it; whether it closes the volume. -/
structure MgmtUpd where
  layers : List Nat
  fails : Nat := 0
  left : Nat := 0
  bad : Bool := false
  uids : List Nat := []
  closing : Bool := false
deriving DecidableEq, Repr

/-- A volume (R357): the disc's identity and side, closed, session, layers 0 to 9, qualification and management update in progress,
whether layer 0's record has been read (`ever`), whether it is writable in this mount (`writing`; until the end of its UNMOUNT's update, R364). -/
structure VolRec where
  volumeId : Nat := 0
  side : Nat := 0
  closed : Bool := false
  session : Nat := 0
  layers : Cells LayerRec := []
  qual : Option Qual := none
  ever : Bool := false
  writing : Bool := false
  mgmt : Option MgmtUpd := none
deriving DecidableEq, Repr

/-- A station (R355 to R370) beside its registers: state changes modulo 256 and the time the state was entered are the library
port's own (R369). `causes` are the causes of the park in progress, `parkStep` its step, `reset` a station reset that waits for the end of
the park, `waiters` commands that wait for it, `holdClamp` whether a release of the clamp waits for a MOUNT (R359), `settling` whether the 200 ms of a clamp run, `ended` whether a
qualification was ended since the last MOUNT (R363), `resetUids` the commands whose station reset is in progress. -/
structure StationRec where
  changes : BitVec 8 := 0
  causes : List Nat := []
  parkStep : Nat := 0
  reset : Bool := false
  waiters : List Nat := []
  settling : Bool := false
  holdClamp : Bool := false
  ended : Bool := false
  resetUids : List Nat := []
  aim : Nat := 8400
deriving DecidableEq, Repr

/-- One axis of the resident motion program (R380 to R395): state as in Table 9.5, set-point position, velocity and acceleration, segment of the
table and period within it, the latched target planned for and the target of the table or of FOLLOW, homing stage and travel, periods since it
stopped, a ramp stop, the result and the running HOME (its A), start state of the segment; pulses of the period, whether the axis is RUN, the limits of the
move in progress (VMAX, AMAX, DMAX, JMAX), switches of the period before, whether the hard-stop latch is released. -/
structure AxisProg where
  state : Nat := 0
  homed : Bool := false
  follow : Bool := false
  pos : Fix := 0
  vel : Fix := 0
  seg : Nat := 0
  k : Nat := 0
  planned : Fix := 590558003
  inner : Fix := 590558003
  homing : Nat := 0
  travel : Fix := 0
  stopped : Nat := 0
  ramp : Bool := false
  result : Nat := 0
  running : Option Nat := none
  p0 : Fix := 0
  v0 : Fix := 0
  deferred : Bool := false
  on : Bool := false
  lims : List Fix := []
  sw : Nat := 0
  release : Bool := false
deriving DecidableEq, Repr

/-- The resident motion program of a station (R375 to R412): spindle state as in Table 9.5, running SPIN (speed, backward) and BRAKE,
observer angle and speed, the currents and the angle error of the period, periods in a row that lock, that exceed the error and the amplitude of loss,
that are near the target speed and far from it, periods in the state, start attempts, catch windows, whether one runs and whether it belongs to a start,
whether the speed has come from rest, the pulses of the period, axes U and L. -/
structure MotionProg where
  spn : Nat := 0
  atSpeed : Bool := false
  reverse : Bool := false
  target : Nat := 0
  spin : Option (Nat × Bool) := none
  braking : Bool := false
  safe : Bool := false
  result : Nat := 0
  seq : Nat := 0
  pulses : Nat := 0
  th : Fix := 0
  w : Fix := 0
  ia : Fix := 0
  ib : Fix := 0
  err : Fix := 0
  good : Nat := 0
  bad : Nat := 0
  weak : Nat := 0
  near : Nat := 0
  far : Nat := 0
  count : Nat := 0
  attempts : Nat := 0
  windows : Nat := 0
  catching : Bool := false
  starting : Bool := false
  spinup : Bool := false
  u : AxisProg := {}
  l : AxisProg := {}
deriving DecidableEq, Repr

/-- Spindle drive hardware of a station (R396 to R399): duties committed and duties applied from the last PWM cycle, mode asked for by
the program, mode applied, whether ILIM has cut the cycle, whether the fault input is active, the phase of the last crossing. -/
structure SpnRec where
  next : List Fix := [0, 0, 0]
  duty : List Fix := [0, 0, 0]
  nextMode : Nat := 0
  mode : Nat := 0
  cut : Bool := false
  fltInput : Bool := false
  lastPhase : Option Nat := none
deriving DecidableEq, Repr

/-- A chopper (R382): in DRIVE or DECAY, the bridge code it sends, whether a sign change holds it in fast decay, last reference. -/
structure ChopRec where
  drive : Bool := false
  bridge : Nat := 0
  fast : Bool := false
  ref : Fix := 0
deriving DecidableEq, Repr

/-- Sled hardware of an axis: choppers of phases A and B, references frozen by the hard-stop latch (R392) or by the park sequencer, bridge fault
input, whether the bridge runs on under the park sequencer (Table 10.4). -/
structure SledRec where
  a : ChopRec := {}
  b : ChopRec := {}
  frozen : Option (Q × Q) := none
  fltInput : Bool := false
  psRun : Bool := false
deriving DecidableEq, Repr

/-- All of it. -/
structure ServoSt where
  engines : Cells TolekRec := []
  pairs : Cells PairRec := []
  loops : Cells LoopProg := []
  motions : Cells MotionProg := []
  seqs : Cells SeqRec := []
  vols : Cells VolRec := []
  stations : Cells StationRec := []
  spns : Cells SpnRec := []
  sleds : Cells SledRec := []
  lpLatch : Option (Nat × BitVec 32) := none
  lpTimes : Cells Word := []
  lpOut : List (BitVec 32) := []
deriving DecidableEq, Repr

end Sys2Proof.Machine
end

