-- ==== Sys2Proof/Machine/TypesSuper.lean ====
section
/-! DEFINITION. The state of the watermasters and watchdogs (chapter 10), of calibration and temperature (chapter 14), of boot, flash
and fuses (chapter 15) and of the boundary-scan port (chapter 16) beyond their registers. -/

namespace Sys2Proof.Machine

/-- A journal entry sent to the STANDBY watermaster (R434): number, the kind of supervisory action and the unit it acts on. -/
structure JournalRec where
  seq : Nat
  action : Nat
  unit : Nat
deriving DecidableEq, Repr

/-- A watermaster beside its registers: heartbeats of its peer missing by path, journal entries without acknowledgement, number of the last entry
sent or acknowledged, whether it is unsynchronised as STANDBY, whether it is being reset and reloaded, its die's watchdog, armed by the first feed
and with the time of the last (R446), the path fault it has reported: 0 the Flume, 1 the pulse line. -/
structure WmRec where
  missFlume : Bool := false
  missPulse : Bool := false
  waiting : List JournalRec := []
  seq : Nat := 0
  unsynced : Bool := false
  restoring : Bool := false
  fed : Option Word := none
  path : Option Nat := none
deriving DecidableEq, Repr

/-- A temperature sensor beside its register (R579, R581): readings in a row that find it broken, good readings in a row, evaluations
in a row below WARN − 5 °C while FAST, broken, evaluated fast, stuck check passed since it broke, code of its state. -/
structure SensRec where
  bad : Nat := 0
  good : Nat := 0
  cool : Nat := 0
  broken : Bool := false
  fast : Bool := false
  passed : Bool := false
  stuck : Bool := false
deriving DecidableEq, Repr

/-- A thermal level's holder (R586): evaluations in a row at or above each limit, and in a row below the leave limits of WARN and PARK,
whether it has been below THROTTLE − HYST since some evaluation, and the level that temperature alone gives. -/
structure HeatRec where
  lvl : Nat := 0
  upW : Nat := 0
  upT : Nat := 0
  upP : Nat := 0
  downW : Nat := 0
  downP : Nat := 0
  holding : Bool := false
deriving DecidableEq, Repr

/-- The channel sequencer's measurement of one of the items 3 to 6 (R576, R577): the layer, items of a mount still to come, whether it is the
single measurement of a quick mount, the tilt band measured in place of the layer's tilt, the middle of the sweep and the coefficient in
force, the values of the points so far, CMD_SEQ of the loop program when the present command was pushed. -/
structure CalRun where
  item : Nat
  layer : Nat
  rest : List Nat := []
  quick : Bool := false
  band : Option Nat := none
  base : Int := 0
  old : Int := 0
  ys : List Int := []
  seq : Nat := 0
deriving DecidableEq, Repr

/-- Calibration of a pickup (R568 to R578): first measurement of the item in hand, the CALIBRATE that asked for it, beams rejected in
acquisitions, the measurement in hand; a CALIBRATE of item 2 with the beams whose acquisition it waits for and the worst outcome so far. -/
structure CalRec where
  first : Option (List Int) := none
  by_ : Option Nat := none
  rejected : List Nat := []
  run : Option CalRun := none
  acqBy : Option Nat := none
  asked : List Nat := []
  worst : Nat := 0
deriving DecidableEq, Repr

/-- Calibration and temperature: pickups' cycles, sensors by number (dies 0 to 23, lasers 24 on), level holders (H-die 0, M-die 1,
lasers 2 on), band before the step that is being measured, whether it is to be reversed, aging monitors that have warned, CALIBRATEs of
items 9 and 10 in progress. -/
structure CalSt where
  cycles : Cells CalRec := []
  sensors : Cells SensRec := []
  heats : Cells HeatRec := []
  stepFrom : Option Nat := none
  reverse : Bool := false
  warned : List Nat := []
  pllBy : List Nat := []
  refBy : List Nat := []
deriving DecidableEq, Repr

/-- What a flash operation writes (R601, R604, R626): a configuration record from the host, an axis's chopper offset, a class's bank bit; a
journal entry (disc identity, side, OP of Table 15.5; second try); the image of a class. -/
inductive FlashUse where
  | hostConfig (rec_ : List Byte) | chopper (axis : Nat) | bank (c : Nat)
  | journal (volumeId side op : Nat) (retried : Bool) | image (c : Nat)
deriving DecidableEq, Repr

/-- A flash operation in progress, and the command that waits for it. -/
structure FlashOp where
  use : FlashUse
  uid : Option Nat := none
deriving DecidableEq, Repr

/-- Boot: flash bytes (an unlisted one is erased, 0xFF), flash operations to be done, mailbox bytes, owner key hash fused (48 bytes), images
staged by class with their lengths (R496), running image lengths in image staging, image to persist by class, journal sequence number,
the strap sampled, the seal, whether POR_N is released, time of the last reset. -/
structure BootSt where
  flash : List Host.Cell := []
  ops : List FlashOp := []
  mailbox : List Host.Cell := []
  keyHash : List Byte := []
  staged : Cells (List Byte) := []
  running : Cells (List Byte) := []
  persisting : List Nat := []
  journalSeq : Nat := 0
  powered : Bool := true
  tested : Option BootIn := none
deriving DecidableEq, Repr

/-- The boundary-scan port (R658 to R662): instruction in force, boundary cells as preloaded, whether an instruction has taken the
pins since power-on (R660), what the identification register shows a tester once IDCODE has been chosen. -/
structure TapSt where
  instr : BitVec 8 := 0x02
  cells : List Bool := []
  taken : Bool := false
  ident : Option (BitVec 32) := none
deriving DecidableEq, Repr

/-- All of it. `beats`: time of the last heartbeat of each command core (R449); `wmLoad`: how far an ACTIVATE has come with the watermasters: 1 the
STANDBY is being reloaded, 2 the swap is awaited, 3 the other is being reloaded (R497). -/
structure SuperSt where
  wmH : WmRec := {}
  wmM : WmRec := {}
  beats : Cells Word := []
  wmLoad : Nat := 0
  thermal : CalSt := {}
  boot : BootSt := {}
  tap : TapSt := {}
deriving DecidableEq, Repr

end Sys2Proof.Machine
end

