-- ==== Sys2Proof/Machine/State.lean ====
section
/-! DEFINITION. The state of the machine: the register file, the units of both dies, and the queue of waiting commands. Plain data. -/

namespace Sys2Proof.Machine

/-- Why a step stops with a fault. -/
inductive Fault where
  /-- Raised by a meaning whose command carries an operand that is no operand of it: a list of another length than the samples,
  results or words the rule fixes, a field beyond its width. Safe: the machine stops where nothing of the kind can happen. -/
  | illFormed
deriving DecidableEq, Repr

/-- Why a step is refused. -/
inductive Refusal where
  /-- Raised by the dispatch for a command that has no meaning yet. Safe. -/
  | notModelled (mnemonic : String)
deriving DecidableEq, Repr

/-- Offsets of all copies of a register from its first: the sums of one multiple of each stride. -/
def hasCopy : List (Nat × Nat) → Nat → Bool
  | [], o => o == 0
  | (n, stride) :: t, o => (List.range n).any (fun i => decide (stride * i ≤ o) && hasCopy t (o - stride * i))

/-- The register at a key of the register file (a BAR0 offset, with `portKey` added for port B's copy). -/
def regAt (o : Nat) : Option RegDef :=
  (blockRegs (o % portKey)).find? (fun r => decide (r.base ≤ o) && hasCopy r.dims (o - r.base))

/-- The value of a register right after power-on: the reset values of its fields (R25). -/
def resetValue (r : RegDef) : Word :=
  r.fields.foldl (fun w f => w ||| (BitVec.ofNat 64 f.reset <<< f.lo)) 0

/-- What a register holds that nothing has changed since power-on. -/
def regReset (o : Nat) : Word :=
  match regAt o with
  | some r => resetValue r
  | none => 0

/-- Everything but the queue of commands. `regs` is the register file, by BAR0 offset; `free` counts the free values drawn so far
(log entry 2). -/
structure Chip where
  regs : Cells Word := []
  free : Nat := 0
  arch : ArchSt := {}
  core : CoreSt := {}
  host : HostSt := {}
  buf : BufSt := {}
  afe : AfeSt := {}
  path : PathSt := {}
  servo : ServoSt := {}
  sup : SuperSt := {}
deriving DecidableEq, Repr, Inhabited

/-- The machine, with the commands that wait, first in, first out. -/
structure State where
  chip : Chip := {}
  pending : List Instr := []
deriving DecidableEq, Repr

/-- The outcome of a command. -/
abbrev Out := Host.Outcome State Fault Refusal

/-- Right after POR_N is released, before the start-up steps run (R595 to R598, R607): every register at its reset value, ledger
time 0, every volatile memory lost, fuses as the part ships (R663), the flash erased (log entry 7), no command waiting. -/
def State.reset : State := {}

end Sys2Proof.Machine
end

