-- ==== Sys2Proof/Machine/Ops.lean ====
section
/-! DEFINITION. The named operations over registers, units and memories that every meaning uses. A register field has one home, the
register file; a unit's other state is read and replaced through one pair of operations per kind of unit. -/

namespace Sys2Proof.Machine

/-! ### Outcomes -/

/-- The outcome of a command whose effect on everything but the queue is `f`. -/
def State.on (s : State) (f : Chip → Chip) : Out := .next { s with chip := f s.chip }

/-- As `State.on`, where the operands meet `ok`; else the command is ill-formed. -/
def State.onIf (s : State) (ok : Bool) (f : Chip → Chip) : Out :=
  if ok then .next { s with chip := f s.chip } else .fault .illFormed

/-- `f` where the condition of an event holds; without it the event does not occur and nothing changes (log entry 3). -/
def Chip.when (c : Chip) (b : Bool) (f : Chip → Chip) : Chip := if b then f c else c

/-! ### Registers and fields -/

def Chip.reg (c : Chip) (o : Nat) : Word := Cells.get regReset c.regs o

def Chip.setReg (c : Chip) (o : Nat) (v : Word) : Chip := { c with regs := Cells.put regReset c.regs o v }

/-- The field at bit `lo`, `w` bits wide, of `x`. -/
def fieldOf (x : Word) (lo w : Nat) : Nat := (x >>> lo).toNat % 2 ^ w

/-- `x` with that field replaced by `v` (taken modulo 2^w). -/
def withField (x : Word) (lo w v : Nat) : Word :=
  (x &&& ~~~ (BitVec.ofNat 64 (2 ^ w - 1) <<< lo)) ||| (BitVec.ofNat 64 (v % 2 ^ w) <<< lo)

/-- Two fields that share no bit. -/
abbrev apart (f g : Fld) : Prop := f.reg ≠ g.reg ∨ f.lo + f.w ≤ g.lo ∨ g.lo + g.w ≤ f.lo

def Chip.fld (c : Chip) (f : Fld) : Nat := fieldOf (c.reg f.reg) f.lo f.w

def Chip.setFld (c : Chip) (f : Fld) (v : Nat) : Chip := c.setReg f.reg (withField (c.reg f.reg) f.lo f.w v)

/-- A one-bit field as a truth value. -/
def Chip.flag (c : Chip) (f : Fld) : Bool := c.fld f != 0

def Chip.setFlag (c : Chip) (f : Fld) (b : Bool) : Chip := c.setFld f b.toNat

/-- Set a sticky bit. -/
def Chip.mark (c : Chip) (f : Fld) : Chip := c.setFld f 1

/-- The number that `x`'s low `w` bits are in two's complement. -/
def signedOf (w x : Nat) : Int := if x % 2 ^ w < 2 ^ (w - 1) then (x % 2 ^ w : Nat) else (x % 2 ^ w : Nat) - (2 ^ w : Nat)

/-- The low `w` bits of a number in two's complement. -/
def bitsOfInt (w : Nat) (x : Int) : Nat := (x % (2 ^ w : Nat)).toNat

/-- A two's complement field. -/
def Chip.int (c : Chip) (f : Fld) : Int := signedOf f.w (c.fld f)

def Chip.setInt (c : Chip) (f : Fld) (v : Int) : Chip := c.setFld f (bitsOfInt f.w v)

/-- Add to a counter, which stops at its largest value (R209, R251, R291, …). -/
def Chip.add (c : Chip) (f : Fld) (n : Nat) : Chip := c.setFld f (min (c.fld f + n) (2 ^ f.w - 1))

def Chip.inc (c : Chip) (f : Fld) : Chip := c.add f 1

/-- Add 1 to a count that wraps. -/
def Chip.wrapInc (c : Chip) (f : Fld) : Chip := c.setFld f (c.fld f + 1)

/-! ### Free values and time -/

/-- A free value (log entry 2). -/
def Chip.draw (c : Chip) : Word × Chip := (Config.freeWord c.free, { c with free := c.free + 1 })

/-- M-die ledger time (R58). -/
def Chip.now (c : Chip) : Word := c.arch.ledgerM

/-- H-die ledger time, the H-die's copy of it (R59, R60). -/
def Chip.nowH (c : Chip) : Word := c.arch.ledgerH

/-- Ledger time of a die. -/
def Chip.nowOn (c : Chip) : Die → Word
  | .h => c.nowH
  | .m => c.now

/-! ### Units -/

def Chip.weir (c : Chip) (k : Nat) : Weir := Cells.get (fun _ => {}) c.core.weirs k
def Chip.setWeir (c : Chip) (k : Nat) (x : Weir) : Chip :=
  { c with core := { c.core with weirs := Cells.put (fun _ => {}) c.core.weirs k x } }

def Chip.eng (c : Chip) (k : Nat) : EngineRec := Cells.get (fun _ => {}) c.core.engines k
def Chip.setEng (c : Chip) (k : Nat) (x : EngineRec) : Chip :=
  { c with core := { c.core with engines := Cells.put (fun _ => {}) c.core.engines k x } }

def Chip.agent (c : Chip) (k : Nat) : AgentRec := Cells.get (fun _ => {}) c.arch.agents k
def Chip.setAgent (c : Chip) (k : Nat) (x : AgentRec) : Chip :=
  { c with arch := { c.arch with agents := Cells.put (fun _ => {}) c.arch.agents k x } }

def Chip.cisQ (c : Chip) (k : Nat) : CisQueue := Cells.get (fun _ => {}) c.core.cis k
def Chip.setCisQ (c : Chip) (k : Nat) (x : CisQueue) : Chip :=
  { c with core := { c.core with cis := Cells.put (fun _ => {}) c.core.cis k x } }

def Chip.queue (c : Chip) (n : Nat) : IQueue := Cells.get (fun _ => {}) c.host.queues n
def Chip.setQueue (c : Chip) (n : Nat) (x : IQueue) : Chip :=
  { c with host := { c.host with queues := Cells.put (fun _ => {}) c.host.queues n x } }

def Chip.ring (c : Chip) (n : Nat) : Ring := Cells.get (fun _ => {}) c.host.rings n
def Chip.setRing (c : Chip) (n : Nat) (x : Ring) : Chip :=
  { c with host := { c.host with rings := Cells.put (fun _ => {}) c.host.rings n x } }

def Chip.cacheSet (c : Chip) (n : Nat) : CacheSet := Cells.get (fun _ => {}) c.buf.sets n
def Chip.setCacheSet (c : Chip) (n : Nat) (x : CacheSet) : Chip :=
  { c with buf := { c.buf with sets := Cells.put (fun _ => {}) c.buf.sets n x } }

def Chip.afeLane (c : Chip) (l : Nat) : AfeLane := Cells.get (fun _ => {}) c.afe.lanes l
def Chip.setAfeLane (c : Chip) (l : Nat) (x : AfeLane) : Chip :=
  { c with afe := { c.afe with lanes := Cells.put (fun _ => {}) c.afe.lanes l x } }

def Chip.link (c : Chip) (s : Nat) : ActLink := Cells.get (fun _ => {}) c.afe.links s
def Chip.setLink (c : Chip) (s : Nat) (x : ActLink) : Chip :=
  { c with afe := { c.afe with links := Cells.put (fun _ => {}) c.afe.links s x } }

def Chip.lane (c : Chip) (l : Nat) : LaneRec := Cells.get (fun _ => {}) c.path.lanes l
def Chip.setLane (c : Chip) (l : Nat) (x : LaneRec) : Chip :=
  { c with path := { c.path with lanes := Cells.put (fun _ => {}) c.path.lanes l x } }

def Chip.frm (c : Chip) (p : Nat) : FrmRec := Cells.get (fun _ => {}) c.path.frms p
def Chip.setFrm (c : Chip) (p : Nat) (x : FrmRec) : Chip :=
  { c with path := { c.path with frms := Cells.put (fun _ => {}) c.path.frms p x } }

def Chip.wch (c : Chip) (p : Nat) : WchRec := Cells.get (fun _ => {}) c.path.wchs p
def Chip.setWch (c : Chip) (p : Nat) (x : WchRec) : Chip :=
  { c with path := { c.path with wchs := Cells.put (fun _ => {}) c.path.wchs p x } }

/-- The recorded map (R280). -/
def Chip.recOf (c : Chip) (v lba : Nat) : Rec := Cells.get (fun _ => .unknown) c.path.map (2 ^ 28 * v + lba)
def Chip.setRec (c : Chip) (v lba : Nat) (x : Rec) : Chip :=
  { c with path := { c.path with map := Cells.put (fun _ => .unknown) c.path.map (2 ^ 28 * v + lba) x } }

def Chip.accOf (c : Chip) (k : Nat) : ParityAcc := Cells.get (fun _ => {}) c.path.accs k
def Chip.setAcc (c : Chip) (k : Nat) (x : ParityAcc) : Chip :=
  { c with path := { c.path with accs := Cells.put (fun _ => {}) c.path.accs k x } }

/-- A laser power entry by volume, layer and zone (R284). -/
def powerKey (v layer zone : Nat) : Nat := (10 * v + layer) * 64 + zone
def Chip.power (c : Chip) (k : Nat) : Option PowerEntry := Cells.get (fun _ => none) c.path.power k
def Chip.setPower (c : Chip) (k : Nat) (x : Option PowerEntry) : Chip :=
  { c with path := { c.path with power := Cells.put (fun _ => none) c.path.power k x } }

def Chip.tolek (c : Chip) (e : Nat) : TolekRec := Cells.get (fun _ => {}) c.servo.engines e
def Chip.setTolek (c : Chip) (e : Nat) (x : TolekRec) : Chip :=
  { c with servo := { c.servo with engines := Cells.put (fun _ => {}) c.servo.engines e x } }

def Chip.pair (c : Chip) (q : Nat) : PairRec := Cells.get (fun _ => {}) c.servo.pairs q
def Chip.setPair (c : Chip) (q : Nat) (x : PairRec) : Chip :=
  { c with servo := { c.servo with pairs := Cells.put (fun _ => {}) c.servo.pairs q x } }

def Chip.loop (c : Chip) (p : Nat) : LoopProg := Cells.get (fun _ => {}) c.servo.loops p
def Chip.setLoop (c : Chip) (p : Nat) (x : LoopProg) : Chip :=
  { c with servo := { c.servo with loops := Cells.put (fun _ => {}) c.servo.loops p x } }

def Chip.motion (c : Chip) (s : Nat) : MotionProg := Cells.get (fun _ => {}) c.servo.motions s
def Chip.setMotion (c : Chip) (s : Nat) (x : MotionProg) : Chip :=
  { c with servo := { c.servo with motions := Cells.put (fun _ => {}) c.servo.motions s x } }

def Chip.seqr (c : Chip) (p : Nat) : SeqRec := Cells.get (fun _ => {}) c.servo.seqs p
def Chip.setSeqr (c : Chip) (p : Nat) (x : SeqRec) : Chip :=
  { c with servo := { c.servo with seqs := Cells.put (fun _ => {}) c.servo.seqs p x } }

def Chip.vol (c : Chip) (v : Nat) : VolRec := Cells.get (fun _ => {}) c.servo.vols v
def Chip.setVol (c : Chip) (v : Nat) (x : VolRec) : Chip :=
  { c with servo := { c.servo with vols := Cells.put (fun _ => {}) c.servo.vols v x } }

def VolRec.layer (v : VolRec) (l : Nat) : LayerRec := Cells.get (fun _ => {}) v.layers l
def VolRec.setLayer (v : VolRec) (l : Nat) (x : LayerRec) : VolRec :=
  { v with layers := Cells.put (fun _ => {}) v.layers l x }

def Chip.stn (c : Chip) (s : Nat) : StationRec := Cells.get (fun _ => {}) c.servo.stations s
def Chip.setStn (c : Chip) (s : Nat) (x : StationRec) : Chip :=
  { c with servo := { c.servo with stations := Cells.put (fun _ => {}) c.servo.stations s x } }

def Chip.spn (c : Chip) (s : Nat) : SpnRec := Cells.get (fun _ => {}) c.servo.spns s
def Chip.setSpn (c : Chip) (s : Nat) (x : SpnRec) : Chip :=
  { c with servo := { c.servo with spns := Cells.put (fun _ => {}) c.servo.spns s x } }

def Chip.sled (c : Chip) (p : Nat) : SledRec := Cells.get (fun _ => {}) c.servo.sleds p
def Chip.setSled (c : Chip) (p : Nat) (x : SledRec) : Chip :=
  { c with servo := { c.servo with sleds := Cells.put (fun _ => {}) c.servo.sleds p x } }

/-- Calibration and temperature. -/
def Chip.thermal (c : Chip) : CalSt := c.sup.thermal
def Chip.setThermal (c : Chip) (x : CalSt) : Chip := { c with sup := { c.sup with thermal := x } }

def Chip.sens (c : Chip) (k : Nat) : SensRec := Cells.get (fun _ => {}) c.thermal.sensors k
def Chip.setSens (c : Chip) (k : Nat) (x : SensRec) : Chip :=
  c.setThermal { c.thermal with sensors := Cells.put (fun _ => {}) c.thermal.sensors k x }

def Chip.heat (c : Chip) (k : Nat) : HeatRec := Cells.get (fun _ => {}) c.thermal.heats k
def Chip.setHeat (c : Chip) (k : Nat) (x : HeatRec) : Chip :=
  c.setThermal { c.thermal with heats := Cells.put (fun _ => {}) c.thermal.heats k x }

def Chip.cal (c : Chip) (p : Nat) : CalRec := Cells.get (fun _ => {}) c.thermal.cycles p
def Chip.setCal (c : Chip) (p : Nat) (x : CalRec) : Chip :=
  c.setThermal { c.thermal with cycles := Cells.put (fun _ => {}) c.thermal.cycles p x }

/-- The watermaster of a die. -/
def Chip.wm (c : Chip) : Die → WmRec
  | .h => c.sup.wmH
  | .m => c.sup.wmM
def Chip.setWm (c : Chip) (d : Die) (x : WmRec) : Chip :=
  match d with
  | .h => { c with sup := { c.sup with wmH := x } }
  | .m => { c with sup := { c.sup with wmM := x } }

def Chip.boot (c : Chip) : BootSt := c.sup.boot
def Chip.setBoot (c : Chip) (x : BootSt) : Chip := { c with sup := { c.sup with boot := x } }

/-! ### Buffer memory -/

/-- What a byte of buffer DRAM that nothing has written reads as (log entry 9). -/
def memBlank : Nat → Byte := fun _ => 0

def Chip.byte (c : Chip) (a : Nat) : Byte := Cells.get memBlank c.buf.mem a
def Chip.bytes (c : Chip) (a n : Nat) : List Byte := Cells.getRun memBlank c.buf.mem a n
def Chip.putBytes (c : Chip) (a : Nat) (bs : List Byte) : Chip :=
  { c with buf := { c.buf with mem := Cells.putRun memBlank c.buf.mem a bs } }

/-- How the check symbols of unit `u` (64 bytes from 64 × u) stand (R533 to R538). -/
def Chip.unitMark (c : Chip) (u : Nat) : UnitMark := Cells.get (fun _ => .asRange) c.buf.marks u
def Chip.setUnitMark (c : Chip) (u : Nat) (m : UnitMark) : Chip :=
  { c with buf := { c.buf with marks := Cells.put (fun _ => .asRange) c.buf.marks u m } }

/-- The units that `n` bytes from `a` touch. -/
def unitsOf (a n : Nat) : List Nat := (List.range ((a + n + 63) / 64 - a / 64)).map (a / 64 + ·)

/-- A unit has been written: its check symbols are valid, but for the change that BUF_INJECT has armed for its sub-channel (R565). -/
def Chip.markWritten (c : Chip) (u : Nat) : Chip :=
  if c.flag BUF_INJECT_ARMED ∧ c.fld BUF_INJECT_SUBCH = u % 8 then
    let d := 8 * c.fld BUF_INJECT_DEVICE
    let p := c.fld BUF_INJECT_PATTERN
    (c.setFld BUF_INJECT_ARMED 0).setUnitMark u (.changed ((List.range 8).map (fun i => (d + i, p))))
  else c.setUnitMark u .good

/-- Write bytes with valid check symbols over every unit they touch (R534, R537). -/
def Chip.bufWrite (c : Chip) (a : Nat) (bs : List Byte) : Chip :=
  (unitsOf a bs.length).foldl (fun c u => c.markWritten u) (c.putBytes a bs)

/-! ### Device log -/

/-- The key of a weir by its handle (Table 12.2). -/
def weirKey (kind index : Nat) : Nat := 65536 * kind + index

/-- Append a committed item to a weir. -/
def Chip.pushItem (c : Chip) (k : Nat) (ws : List Word) : Chip :=
  c.setWeir k { c.weir k with items := (c.weir k).items ++ [ws.map (fun w => ⟨w, false⟩)] }

/-- The four words of a device log entry (page 0x01 of Table 11.14); `detail` lists DETAIL bytes from byte 0. -/
def logWords (time : Word) (code : Nat) (die : Die) (detail : List Nat) : List Word :=
  let d := (detail ++ List.replicate 16 0).map (BitVec.ofNat 8)
  [time, BitVec.ofNat 64 (code + 65536 * (match die with | .h => 0 | .m => 1) + 16777216 * (Config.logUnit code).toNat),
   BitVec.ofNat 64 (ofLeBytes (d.take 8)), BitVec.ofNat 64 (ofLeBytes ((d.drop 8).take 8))]

/-- Commit an entry into the device log weir (R525). -/
def Chip.log (c : Chip) (code : Nat) (die : Die) (detail : List Nat) : Chip :=
  c.pushItem (weirKey 6 0) (logWords (c.nowOn die) code die detail)

/-- The `n` bytes of `x` as DETAIL lists them. -/
def detBytes (n x : Nat) : List Nat := (leBytes n x).map (·.toNat)

/-! ### Journal of the watermasters (R434) -/

/-- The kinds of supervisory actions (R433), as a journal entry names them; the numbers are the model's own (log entry 10). -/
def actPark : Nat := 1
def actState : Nat := 2
def actEntry : Nat := 3
def actTest : Nat := 4
def actSwap : Nat := 5
def actRestart : Nat := 6
def actFatal : Nat := 7
def actRoles : Nat := 8

/-- The die whose watermaster is ACTIVE: the M-die's where WMM_ROLE says so, else the H-die's (Table 10.8). -/
def Chip.activeDie (c : Chip) : Die := if c.fld WMM_ROLE_ROLE = 1 then .m else .h

/-- The ACTIVE watermaster sends a journal entry for an action on `unit`; without an ACTIVE one nothing is journalled. -/
def Chip.journal (c : Chip) (action unit : Nat) : Chip :=
  let d := c.activeDie
  let w := c.wm d
  if c.fld WMM_ROLE_ROLE = 1 ∨ c.fld WMH_ROLE_ROLE = 1 then
    c.setWm d { w with seq := w.seq + 1, waiting := w.waiting ++ [⟨w.seq + 1, action, unit⟩] }
  else c

end Sys2Proof.Machine
end

