-- ==== Sys2Proof/Machine/Clock.lean ====
section
/-! DEFINITION. The clocks: what passes when no command waits (R58, R60, R132). -/

namespace Sys2Proof.Machine

/-- `n` ns of both copies of ledger time: a correction of a copy that is behind adds up to `n`, of one that is ahead takes up to one
nanosecond in two (R60). -/
def Chip.pass (c : Chip) (n : Nat) : Chip :=
  let m := c.arch.ledgerM + BitVec.ofNat 64 n
  if 0 < c.arch.corr then
    let k := min n c.arch.corr.toNat
    { c with arch := { c.arch with ledgerM := m, ledgerH := c.arch.ledgerH + BitVec.ofNat 64 (n + k), corr := c.arch.corr - k,
                                   pausing := false } }
  else
    let turns := (n + (!c.arch.pausing).toNat) / 2
    let k := min turns (-c.arch.corr).toNat
    { c with arch := { c.arch with ledgerM := m, ledgerH := c.arch.ledgerH + BitVec.ofNat 64 (n - k), corr := c.arch.corr + k,
                                   pausing := k != 0 && (n % 2 == 1) } }

/-- Nothing is commanded: one tick of M-die ledger time passes, 1 ns on the sampling PLL, 20 ns on the main reference while the PLL is
not locked (R58, R132; log entry 1). -/
def Chip.idle (c : Chip) : Chip := c.pass (if c.flag AFE_PLL_STATUS_LOCKED then 1 else 20)

end Sys2Proof.Machine
end

