-- ==== Sys2Proof/Machine/FreeChip.lean ====
section
/-! DEFINITION. The canonical form of the machine's memories, and the state that R660 leaves undefined. -/

namespace Sys2Proof.Machine

/-- Buffer DRAM is in canonical form. -/
abbrev Chip.memWf (c : Chip) : Bool := Cells.wf memBlank c.buf.mem

/-- An erased flash byte (log entry 7). -/
def flashBlank : Nat → Byte := fun _ => 0xFF

/-- The memories with an address space of their own are in canonical form: buffer DRAM, boot flash, the engines' SRAM and the mailbox. -/
def Memory.wf (c : Chip) : Bool :=
  c.memWf && Cells.wf flashBlank c.boot.flash && Cells.wf (fun _ => 0) c.core.sram && Cells.wf (fun _ => 0) c.boot.mailbox

/-- FREE VALUE: the mission state after a boundary-scan instruction has taken the pins, by the number of the draw (R660). -/
opaque Config.undefinedChip : Nat → Chip

/-- A free mission state whose memories have the canonical form. -/
def Chip.drawChip (c : Chip) : Chip :=
  let x := Config.undefinedChip c.free
  { (if Memory.wf x then x else {}) with free := c.free + 1 }

end Sys2Proof.Machine
end

