-- ==== Sys2Proof/Machine/Crypto.lean ====
section
/-! DEFINITION. SHA-384 and ECDSA over P-384, which R610 names for image containers. -/

namespace Sys2Proof.Machine

/-! ### SHA-384 -/

def primes80 : List Nat :=
  [2, 3, 5, 7, 11, 13, 17, 19, 23, 29, 31, 37, 41, 43, 47, 53, 59, 61, 67, 71, 73, 79, 83, 89, 97, 101, 103, 107, 109, 113, 127, 131,
   137, 139, 149, 151, 157, 163, 167, 173] ++
  [179, 181, 191, 193, 197, 199, 211, 223, 227, 229, 233, 239, 241, 251, 257, 263, 269, 271, 277, 281, 283, 293, 307, 311, 313, 317,
   331, 337, 347, 349, 353, 359, 367, 373, 379, 383, 389, 397, 401, 409]

/-- The largest r < 2^k + r0 with r^e ≤ x, bit by bit from r0. -/
def rootGo (e x : Nat) : Nat → Nat → Nat
  | 0, r => r
  | k + 1, r => rootGo e x k (if (r + 2 ^ k) ^ e ≤ x then r + 2 ^ k else r)

/-- Round constants: the first 64 bits of the fractions of cube roots. -/
def shaK : List (BitVec 64) := primes80.map (fun p => BitVec.ofNat 64 (rootGo 3 (p * 2 ^ 192) 72 0))

/-- Initial state of SHA-384: of square roots of the ninth to sixteenth primes. -/
def shaInit : List (BitVec 64) := ((primes80.drop 8).take 8).map (fun p => BitVec.ofNat 64 (rootGo 2 (p * 2 ^ 128) 72 0))


/-- The message schedule: each further word from the sixteen before it, latest first. -/
def shaSchedule : Nat → List (BitVec 64) → List (BitVec 64)
  | 0, w => w
  | n + 1, w =>
    let g := fun i => w.getD i 0
    let s0 := (g 14).rotateRight 1 ^^^ (g 14).rotateRight 8 ^^^ ((g 14) >>> 7)
    let s1 := (g 1).rotateRight 19 ^^^ (g 1).rotateRight 61 ^^^ ((g 1) >>> 6)
    shaSchedule n ((g 15 + s0 + g 6 + s1) :: w)

/-- One round on the state a to h. -/
def shaRound (s : List (BitVec 64)) (kw : BitVec 64) : List (BitVec 64) :=
  let g := fun i => s.getD i 0
  let s1 := (g 4).rotateRight 14 ^^^ (g 4).rotateRight 18 ^^^ (g 4).rotateRight 41
  let ch := (g 4 &&& g 5) ^^^ (~~~ (g 4) &&& g 6)
  let t1 := g 7 + s1 + ch + kw
  let s0 := (g 0).rotateRight 28 ^^^ (g 0).rotateRight 34 ^^^ (g 0).rotateRight 39
  let maj := (g 0 &&& g 1) ^^^ (g 0 &&& g 2) ^^^ (g 1 &&& g 2)
  [t1 + s0 + maj, g 0, g 1, g 2, g 3 + t1, g 4, g 5, g 6]

def shaBlock (h : List (BitVec 64)) (block : List Byte) : List (BitVec 64) :=
  let w := (List.range 16).map (fun i => BitVec.ofNat 64 (ofBeBytes ((block.drop (8 * i)).take 8)))
  let ws := (shaSchedule 64 w.reverse).reverse
  let s := ((shaK.zip ws).map (fun x => x.1 + x.2)).foldl shaRound h
  (h.zip s).map (fun x => x.1 + x.2)

def shaBlocks : Nat → List Byte → List (BitVec 64) → List (BitVec 64)
  | 0, _, h => h
  | n + 1, bs, h => shaBlocks n (bs.drop 128) (shaBlock h (bs.take 128))

/-- SHA-384 of a message: 48 bytes. -/
def sha384 (msg : List Byte) : List Byte :=
  let pad := (239 - msg.length % 128) % 128
  let m := msg ++ 0x80#8 :: List.replicate pad 0#8 ++ beBytes 16 (8 * msg.length)
  ((shaBlocks (m.length / 128) m shaInit).take 6).flatMap (fun w => beBytes 8 w.toNat)

/-! ### ECDSA over P-384 -/

def p384 : Nat := 2 ^ 384 - 2 ^ 128 - 2 ^ 96 + 2 ^ 32 - 1
def n384 : Nat := 0xffffffffffffffffffffffffffffffffffffffffffffffffc7634d81f4372ddf581a0db248b0a77aecec196accc52973
def b384 : Nat := 0xb3312fa7e23ee7e4988e056be3f82d19181d9c6efe8141120314088f5013875ac656398d8a2ed19d2a85c8edd3ec2aef
def gx384 : Nat := 0xaa87ca22be8b05378eb1c71ef320ad746e1d3b628ba79b9859f741e082542a385502f25dbf55296c3a545e3872760ab7
def gy384 : Nat := 0x3617de4a96262c6f5d9e98bf9292dc29f8f41dbd289a147ce9da3113b5f0b8c00a60b1ce1d7e819d7a431d7c90ea0e5f

/-- A point in Jacobian coordinates; z = 0 is the point at infinity. -/
structure JPoint where
  x : Nat
  y : Nat
  z : Nat
deriving DecidableEq, Repr

def subP (a b : Nat) : Nat := (a + p384 - b % p384) % p384

def JPoint.dbl (a : JPoint) : JPoint :=
  let zz := a.z * a.z % p384
  let m := 3 * subP a.x zz * (a.x + zz) % p384
  let yy := a.y * a.y % p384
  let s := 4 * a.x * yy % p384
  let x := subP (m * m) (2 * s)
  ⟨x, subP (m * subP s x) (8 * yy * yy), 2 * a.y * a.z % p384⟩

def JPoint.add (a b : JPoint) : JPoint :=
  if a.z = 0 then b else if b.z = 0 then a else
  let za := a.z * a.z % p384
  let zb := b.z * b.z % p384
  let u1 := a.x * zb % p384
  let u2 := b.x * za % p384
  let s1 := a.y * zb * b.z % p384
  let s2 := b.y * za * a.z % p384
  let h := subP u2 u1
  let r := subP s2 s1
  if h = 0 then (if r = 0 then a.dbl else ⟨1, 1, 0⟩) else
  let hh := h * h % p384
  let hhh := h * hh % p384
  let v := u1 * hh % p384
  let x := subP (r * r) (hhh + 2 * v)
  ⟨x, subP (r * subP v x) (s1 * hhh), a.z * b.z * h % p384⟩

/-- k·P over the low bits of k, from the highest. -/
def JPoint.mulGo (a : JPoint) (k : Nat) : Nat → JPoint → JPoint
  | 0, acc => acc
  | i + 1, acc => JPoint.mulGo a k i (if k.testBit i then acc.dbl.add a else acc.dbl)

def JPoint.mul (a : JPoint) (k : Nat) : JPoint := a.mulGo k 384 ⟨1, 1, 0⟩

/-- b^e mod m over the low 384 bits of e. -/
def powModGo (m b e : Nat) : Nat → Nat → Nat
  | 0, acc => acc
  | i + 1, acc => powModGo m b e i (if e.testBit i then acc * acc % m * b % m else acc * acc % m)

def invMod (m a : Nat) : Nat := powModGo m (a % m) (m - 2) 384 1

/-- An uncompressed point of 97 bytes: its coordinates, where it is on the curve. -/
def pointOf (key : List Byte) : Option (Nat × Nat) :=
  let x := ofBeBytes ((key.drop 1).take 48)
  let y := ofBeBytes ((key.drop 49).take 48)
  if key.length = 97 ∧ key.headD 0 = 4#8 ∧ x < p384 ∧ y < p384 ∧ y * y % p384 = subP (x * x * x + b384) (3 * x) then some (x, y) else none

/-- The signature r, s of a message under a public key verifies. -/
def ecdsaOk (key msg sig : List Byte) : Bool :=
  match pointOf key with
  | none => false
  | some (qx, qy) =>
    let r := ofBeBytes (sig.take 48)
    let s := ofBeBytes ((sig.drop 48).take 48)
    if r = 0 ∨ n384 ≤ r ∨ s = 0 ∨ n384 ≤ s then false else
    let w := invMod n384 s
    let e := ofBeBytes (sha384 msg)
    let t := ((JPoint.mk gx384 gy384 1).mul (e * w % n384)).add ((JPoint.mk qx qy 1).mul (r * w % n384))
    if t.z = 0 then false else
    let zi := invMod p384 t.z
    t.x * zi % p384 * zi % p384 % n384 == r

end Sys2Proof.Machine
end

