-- ==== Sys2Proof/Machine/Parity.lean ====
section
/-! DEFINITION. The parity accumulators (R277): when one is created, what a data block adds, blocks read back, skipped clusters. -/

namespace Sys2Proof.Machine

/-- The accumulator of a cluster of a volume. -/
def accKey (p layer cluster : Nat) : Nat := 2 ^ 24 * p + layer * 244160 + cluster

/-- LBA of data block `t` of a cluster (R104). -/
def clusterLba (layer cluster t : Nat) : Nat := layerBlocks * layer + 56 * cluster + t

/-- The accumulator of a cluster exists: data blocks RECORDED before are to be read back. -/
def Chip.accOpen (c : Chip) (p layer cluster : Nat) : Chip :=
  let k := accKey p layer cluster
  if (c.accOf k).live then c else
  let old := (List.range 56).filter (fun t => c.recOf p (clusterLba layer cluster t) == .recorded)
  c.setAcc k { live := true, done := old, toRead := old }

/-- What a data block of index `t` adds to the parity rows, for byte 1: the check symbols of the unit at t (R101). -/
def parityUnit (t : Nat) : List Nat := rsCheck gf256 8 ((List.range 56).map (fun i => if i = t then 1 else 0))

/-- Parity rows with a block added. -/
def addRows (rows : List (List Nat)) (t : Nat) (bytes : List Byte) : List (List Nat) :=
  let u := parityUnit t
  (List.range 8).map (fun f => (List.range 4096).map (fun j =>
    (rows.getD f []).getD j 0 ^^^ gf256.mul (u.getD f 0) (bytes.getD j 0).toNat))

/-- A data block adds its contribution once. -/
def Chip.accAdd (c : Chip) (key t : Nat) (bytes : List Byte) : Chip :=
  let a := c.accOf key
  if a.added.contains t then c
  else c.setAcc key { a with rows := addRows a.rows t bytes, added := t :: a.added, toRead := a.toRead.filter (· != t) }

/-- A block that had to be read back cannot be read: the cluster gets no parity. -/
def Chip.accSkip (c : Chip) (p layer cluster : Nat) : Chip :=
  let k := accKey p layer cluster
  if (c.accOf k).skipped then c
  else (c.setAcc k { c.accOf k with skipped := true }).log 0x0404 .m ([p, layer] ++ detBytes 4 cluster)

/-- Data block `t` of a cluster has been recorded, verified or not (R278). -/
def Chip.accDone (c : Chip) (key t : Nat) : Chip :=
  let a := c.accOf key
  if !a.live ∨ a.done.contains t then c else c.setAcc key { a with done := t :: a.done }

/-- The parity of furrow `f` has been recorded; with all eight recorded the accumulator is not needed any more. -/
def Chip.accParity (c : Chip) (key f : Nat) : Chip :=
  let a := c.accOf key
  let r := if a.recorded.contains f then a.recorded else f :: a.recorded
  c.setAcc key (if 8 ≤ r.length then {} else { a with recorded := r })

/-- The parity of furrow `f` of a cluster may be recorded: every data block is recorded, or the volume closes (R103, R277, R278). -/
def ParityAcc.due (a : ParityAcc) (f : Nat) (closing : Bool) : Bool :=
  a.live && !a.skipped && a.toRead.isEmpty && !a.recorded.contains f && (a.done.length == 56 || closing && !a.done.isEmpty)

end Sys2Proof.Machine
end

