-- ==== Sys2Proof/Machine/Weir.lean ====
section
/-! DEFINITION. Weirs and the instructions on them: handles, roles and capacities (Table 12.2), the operations of R33 to R40, Xsluice
(R506 to R510), the Cistern's cells (R516 to R523). -/

namespace Sys2Proof.Machine

/-! ### Engines -/

/-- The number of a RISC-V engine among the producers of a weir. -/
def engNum : Engine → Nat
  | .core c => c
  | .cs p => 16 + p
  | .wmH => 32
  | .wmM => 33

/-- The Sluice, the monitors and other hardware as a producer. -/
def hwNum : Nat := 48

/-- The number of an agent among the latches (R22). -/
def agentNum : Agent → Nat
  | .port x => x
  | .engine e => 2 + engNum e

def Chip.getX (c : Chip) (e : Engine) (r : Nat) : Word := if r = 0 then 0 else Cells.get (fun _ => 0) (c.eng (engNum e)).x r

/-- Write an integer register; x0 stays 0. -/
def Chip.setX (c : Chip) (e : Engine) (r : Nat) (v : Word) : Chip :=
  if r = 0 then c else
  let t := c.eng (engNum e)
  c.setEng (engNum e) { t with x := Cells.put (fun _ => 0) t.x r v }

def Chip.setWstat (c : Chip) (e : Engine) (fin closed corrupt : Bool) : Chip :=
  c.setEng (engNum e)
    { c.eng (engNum e) with wstat := BitVec.ofNat 64 (fin.toNat + 2 * closed.toNat + 4 * corrupt.toNat) }

/-- A RISC-V exception of engine `e`: 2 illegal instruction, 1, 5 and 7 access faults of fetch, load and store (log entry 6). -/
def Chip.raise (c : Chip) (e : Engine) (cause : Nat) : Chip := c.setEng (engNum e) { c.eng (engNum e) with cause := some cause }

/-! ### Handles -/

/-- KIND and INDEX of a handle whose other bits are 0 (R505). -/
def handleOf (h : Word) : Option (Nat × Nat) :=
  let x := h.toNat
  if x < 2 ^ 20 then some (x / 65536, x % 65536) else none

/-- Engine `e` is the producer of a weir (Table 12.2). -/
def Chip.produces (c : Chip) (e : Engine) (kind index : Nat) : Bool :=
  match kind, e with
  | 2, .core k => (c.queue index).created && (c.queue index).core == some k.val
  | 3, .core _ => decide (index < 16)
  | 4, .cs _ => decide (index < 12)
  | 6, _ => index == 0
  | 9, .wmH => index == 0 && c.activeDie == .h
  | 9, .wmM => index == 0 && c.activeDie == .m
  | _, _ => false

/-- Engine `e` is the consumer of a weir. -/
def Chip.consumes (c : Chip) (e : Engine) (kind index : Nat) : Bool :=
  match kind, e with
  | 0, .core k => index == k.val
  | 1, .core k => (c.queue index).created && (c.queue index).core == some k.val
  | 3, .cs p => index == p.val
  | 4, .core k => index == k.val
  | 5, .core k => index == k.val
  | 7, .wmH => index == 0 && c.activeDie == .h
  | 7, .wmM => index == 0 && c.activeDie == .m
  | 8, .cs p => index == p.val
  | 9, .wmH => index == 0 && c.activeDie == .m
  | 9, .wmM => index == 0 && c.activeDie == .h
  | _, _ => false

/-- Capacity of a weir outside the Cistern, in words (Tables 1.2 and 12.2). KIND 16 is the Flume-to-cache weir, of 256 blocks with
their heads (log entry 12). -/
def fixedCapacity : Nat → Nat
  | 0 => 512 | 3 => 256 | 4 => 512 | 5 => 1024 | 6 => 1024 | 7 => 512 | 8 => 1024 | 9 => 256
  | 16 => 256 * 516
  | _ => 0

/-- The Cistern queue of a weir (R516). -/
def cisOf (kind index : Nat) : Option Nat := if kind = 1 then some (2 * index) else if kind = 2 then some (2 * index + 1) else none

/-- Words in a weir, committed and not. -/
def Weir.used (w : Weir) : Nat :=
  (w.items.map List.length).foldl (· + ·) 0 + (w.uncommitted.map (fun u => u.2.length)).foldl (· + ·) 0

/-! ### The Cistern -/

/-- Words that a Cistern queue holds: of its weir, and, for an intake queue, 8 for each capsule written and not committed (R518). -/
def Chip.cisWords (c : Chip) (q : Nat) : Nat :=
  (c.weir (weirKey (1 + q % 2) (q / 2))).used + (if q % 2 = 0 then 8 * (c.queue (q / 2)).open_.length else 0)

/-- Middle cells that a Cistern queue needs: all its cells but head and tail (R518). -/
def Chip.cisNeed (c : Chip) (q : Nat) : Nat := ((c.cisQ q).headOff + c.cisWords q + 15) / 16 - 2

/-- Bring the list of middle cells of queue `q` to what it needs: new cells at the tail, freed cells at the head. -/
def Chip.cisSync (c : Chip) (q : Nat) : Chip :=
  let k := c.cisQ q
  let n := c.cisNeed q
  if k.mid.length < n then
    let m := n - k.mid.length
    let c := { c with core := { c.core with cisStamp := c.core.cisStamp + m } }
    c.setCisQ q { k with mid := k.mid ++ (List.range m).map (fun i => ⟨c.core.cisStamp - m + i, none⟩) }
  else c.setCisQ q { k with mid := k.mid.drop (k.mid.length - n) }

/-- Words leave the head cell of queue `q`. -/
def Chip.cisConsume (c : Chip) (q n : Nat) : Chip :=
  let k := c.cisQ q
  let k := { k with headOff := if c.cisWords q = 0 then 0 else (k.headOff + n) % 16 }
  (c.setCisQ q k).cisSync q

/-- Outstanding commands of the device: its command table (R466). -/
def Chip.outstanding (c : Chip) : Nat := c.host.cmds.length

/-- Free middle cells: the pool less the cells in SRAM and a quarter cell for each outstanding command (R516, R519). -/
def Chip.freeMiddle (c : Chip) : Nat :=
  196608 - (c.core.cis.map (fun k => (k.2.mid.filter (fun x => x.deep.isNone)).length)).foldl (· + ·) 0 - (c.outstanding + 3) / 4

/-- Free middle cells that anything but a recall may take (R521). -/
def Chip.freeForUse (c : Chip) : Nat := c.freeMiddle - 1024

/-- Words that stand between the head of queue `q` and its first spilled cell; nothing where none is spilled. -/
def Chip.cisReach (c : Chip) (q : Nat) : Option Nat :=
  let k := c.cisQ q
  (k.mid.findIdx? (fun x => x.deep.isSome)).map (fun i => 16 * (i + 1) - k.headOff)

/-! ### Operations (R33 to R40) -/

/-- Credits of a producer: free words (R36). -/
def Chip.credits (c : Chip) (kind index : Nat) : Nat :=
  match cisOf kind index with
  | some q => 16 * c.freeForUse + (15 - ((c.cisQ q).headOff + c.cisWords q + 15) % 16)
  | none => fixedCapacity kind - (c.weir (weirKey kind index)).used

/-- The next word of the head item, and whether it is the last of its item. -/
def Weir.front (w : Weir) : Option (WWord × Bool) :=
  match w.items with
  | (x :: rest) :: _ => some (x, rest.isEmpty)
  | _ => none

/-- Consume the next word. -/
def Weir.pop (w : Weir) : Weir :=
  match w.items with
  | [_] :: t => { w with items := t }
  | (_ :: rest) :: t => { w with items := rest :: t }
  | _ => w

/-- Drop the rest of the head item; with how many words (R38). -/
def Weir.dropRest (w : Weir) : Weir × Nat :=
  match w.items with
  | it :: t => ({ w with items := t }, it.length)
  | [] => (w, 0)

def Weir.mine (w : Weir) (who : Nat) : List WWord := Cells.get (fun _ => []) w.uncommitted who
def Weir.setMine (w : Weir) (who : Nat) (ws : List WWord) : Weir :=
  { w with uncommitted := Cells.put (fun _ => []) w.uncommitted who ws }

/-- Change a weir and keep its cells in step. -/
def Chip.updWeir (c : Chip) (kind index : Nat) (f : Weir → Weir) : Chip :=
  let c := c.setWeir (weirKey kind index) (f (c.weir (weirKey kind index)))
  match cisOf kind index with
  | some q => c.cisSync q
  | none => c

/-- Hardware commits an item. -/
def Chip.commitItem (c : Chip) (kind index : Nat) (ws : List Word) : Chip :=
  c.updWeir kind index fun w => { w with items := w.items ++ [ws.map (fun x => ⟨x, false⟩)] }

/-- Words leave a weir at its head. -/
def Chip.consumed (c : Chip) (kind index n : Nat) : Chip :=
  match cisOf kind index with
  | some q => c.cisConsume q n
  | none => c

/-- An item leaves a weir whole, as hardware consumes it. -/
def Chip.takeItem (c : Chip) (kind index : Nat) : Chip :=
  let w := c.weir (weirKey kind index)
  let r := w.dropRest
  (c.setWeir (weirKey kind index) r.1).consumed kind index r.2

/-- A pop or peek may take the next word: it is committed and its cell is not spilled (R37, R521). -/
def Chip.ready (c : Chip) (kind index : Nat) : Bool :=
  ((c.weir (weirKey kind index)).front).isSome &&
    match cisOf kind index with
    | some q => (c.cisReach q) != some 0 && (c.cisReach q).all (fun n => decide (0 < n))
    | none => true

/-- A word that its check could not correct is counted and logged as it is read (R517). -/
def Chip.noteCorrupt (c : Chip) (kind index : Nat) (x : WWord) : Chip :=
  if x.corrupt then
    ((c.inc CIS_DOUBLE_COUNT).mark CIS_EVENT_DOUBLE).log 0x0106 .h (detBytes 2 ((cisOf kind index).getD 0) ++ [1])
  else c

/-- Pop or peek, where a word can be taken. -/
def Chip.doRead (c : Chip) (e : Engine) (rd kind index : Nat) (consume : Bool) : Chip :=
  let w := c.weir (weirKey kind index)
  match w.front with
  | none => c
  | some (x, fin) =>
    -- the value of a word that its check could not correct is free (log entry 14)
    let r := if x.corrupt then c.draw else (x.v, c)
    let c := (r.2.noteCorrupt kind index x).setX e rd r.1
    let c := c.setWstat e fin false x.corrupt
    if consume then (c.setWeir (weirKey kind index) w.pop).consumed kind index 1 else c

/-- Push, where there is credit. -/
def Chip.doPush (c : Chip) (e : Engine) (kind index : Nat) (v : Word) : Chip :=
  (c.updWeir kind index fun w => w.setMine (engNum e) (w.mine (engNum e) ++ [⟨v, false⟩])).setWstat e false false false

/-- The operation meets a closed weir (R39). -/
def Chip.closedResult (c : Chip) (e : Engine) (rd : Nat) : Chip := (c.setX e rd 0).setWstat e false true false

/-- A stalled operation waits in order of arrival. -/
def Chip.stallOn (c : Chip) (kind index : Nat) (s : Stall) : Chip :=
  let c := if (cisOf kind index).isSome && ((c.weir (weirKey kind index)).front).isSome && s.kind != .push
    then c.inc CIS_RECALL_STALLS_COUNT else c
  c.updWeir kind index fun w => { w with stalls := w.stalls ++ [s] }

/-- Close a weir: uncommitted items are rewound, stalled operations end with CLOSED; the committed items stay or go (R39). -/
def Chip.closeWeir (c : Chip) (kind index : Nat) (keep : Bool) : Chip :=
  let w := c.weir (weirKey kind index)
  let c := c.updWeir kind index fun w => { w with items := if keep then w.items else [], uncommitted := [], stalls := [], closed := true }
  w.stalls.foldl (fun c s => c.closedResult s.engine s.rd) c

/-- The reset that closed a weir is complete. -/
def Chip.openWeir (c : Chip) (kind index : Nat) : Chip := c.updWeir kind index fun w => { w with closed := false }

/-! ### Xsluice (Table 12.3) -/

/-- Run a weir operation of engine `e` on the handle in `rs1`; a handle it may not use, or a role it does not hold, is an illegal
instruction (R505). -/
def Chip.xsluice (c : Chip) (e : Engine) (rs1 : Nat) (producer : Bool) (f : Nat → Nat → Chip → Chip) : Chip :=
  match handleOf (c.getX e rs1) with
  | none => c.raise e 2
  | some (kind, index) =>
    if (if producer then c.produces e kind index else c.consumes e kind index) then f kind index c else c.raise e 2

def Chip.readWord (c : Chip) (e : Engine) (rd kind index : Nat) (consume : Bool) : Chip :=
  if (c.weir (weirKey kind index)).closed then c.closedResult e rd
  else if c.ready kind index then c.doRead e rd kind index consume
  else c.stallOn kind index ⟨e, if consume then .pop else .peek, rd, 0⟩

/-- WPOP (R37). -/
def execWpop (e : Engine) (rd rs1 : Fin 32) (s : State) : Out :=
  s.on fun c => c.xsluice e rs1 false fun kind index c => c.readWord e rd kind index true

/-- WPEEK (R37). -/
def execWpeek (e : Engine) (rd rs1 : Fin 32) (s : State) : Out :=
  s.on fun c => c.xsluice e rs1 false fun kind index c => c.readWord e rd kind index false

/-- WDROP: never stalls; 0 words on a weir with no committed item (R38). -/
def execWdrop (e : Engine) (rd rs1 : Fin 32) (s : State) : Out :=
  s.on fun c => c.xsluice e rs1 false fun kind index c =>
    if (c.weir (weirKey kind index)).closed then c.closedResult e rd else
    let n := ((c.weir (weirKey kind index)).dropRest).2
    ((c.takeItem kind index).setX e rd (BitVec.ofNat 64 n)).setWstat e false false false

/-- WPUSH: uses a credit, or stalls (R36). -/
def execWpush (e : Engine) (rs1 rs2 : Fin 32) (s : State) : Out :=
  s.on fun c => c.xsluice e rs1 true fun kind index c =>
    if (c.weir (weirKey kind index)).closed then c.closedResult e 0
    else if 0 < c.credits kind index then c.doPush e kind index (c.getX e rs2)
    else c.stallOn kind index ⟨e, .push, 0, c.getX e rs2⟩

/-- WREWIND: the uncommitted words of this producer vanish (R35, R509). -/
def execWrewind (e : Engine) (rd rs1 : Fin 32) (s : State) : Out :=
  s.on fun c => c.xsluice e rs1 true fun kind index c =>
    if (c.weir (weirKey kind index)).closed then c.closedResult e rd else
    let n := ((c.weir (weirKey kind index)).mine (engNum e)).length
    ((c.updWeir kind index fun w => w.setMine (engNum e) []).setX e rd (BitVec.ofNat 64 n)).setWstat e false false false

/-- WCRED (R36). -/
def execWcred (e : Engine) (rd rs1 : Fin 32) (s : State) : Out :=
  s.on fun c => c.xsluice e rs1 true fun kind index c =>
    if (c.weir (weirKey kind index)).closed then c.closedResult e rd else
    (c.setX e rd (BitVec.ofNat 64 (c.credits kind index))).setWstat e false false false

/-- Whether a stalled operation can complete now. -/
def Chip.canResume (c : Chip) (kind index : Nat) (s : Stall) : Bool :=
  match s.kind with
  | .push => decide (0 < c.credits kind index)
  | _ => c.ready kind index

/-- WEIR_STALL_RESUME: the oldest stalled operation that can complete does (R36, R37, R508). -/
def execWeirStallResume (kind index : Nat) (s : State) : Out :=
  s.on fun c =>
    let w := c.weir (weirKey kind index)
    match w.stalls.find? (fun x => c.canResume kind index x) with
    | none => c
    | some x =>
      let c := c.setWeir (weirKey kind index) { w with stalls := w.stalls.erase x }
      match x.kind with
      | .push => c.doPush x.engine kind index x.value
      | .pop => c.doRead x.engine x.rd kind index true
      | .peek => c.doRead x.engine x.rd kind index false

/-! ### Spilling and recall (R520, R521) -/

/-- Deep-cistern cells in use. -/
def Chip.deepUsed (c : Chip) : Nat :=
  (c.core.cis.map (fun k => (k.2.mid.filter (fun x => x.deep.isSome)).length)).foldl (· + ·) 0

/-- Deep-cistern cells: CIS_DEEP_SIZE MiB of 128-byte cells. -/
def Chip.deepCells (c : Chip) : Nat := c.fld CIS_DEEP_SIZE_SIZE * 8192

/-- Lowest free deep cell. -/
def Chip.deepFree (c : Chip) : Nat :=
  let used := c.core.cis.flatMap (fun k => k.2.mid.filterMap (fun x => x.deep))
  ((List.range (used.length + 1)).find? (fun i => !(used.contains i))).getD 0

/-- Cells that may spill: middle cells in SRAM more than RECALL_AHEAD cells from their queue's head, by stamp. -/
def Chip.spillable (c : Chip) : List (Nat × Nat × Nat) :=
  let ahead := c.fld CIS_CTRL_RECALL_AHEAD
  c.core.cis.flatMap (fun k =>
    ((List.range k.2.mid.length).filter (fun i => decide (ahead < i + 1) && ((k.2.mid.getD i ⟨0, none⟩).deep).isNone)).map
      (fun i => ((k.2.mid.getD i ⟨0, none⟩).stamp, k.1, i)))

def Chip.setDeep (c : Chip) (q i : Nat) (d : Option Nat) : Chip :=
  let k := c.cisQ q
  c.setCisQ q { k with mid := k.mid.mapIdx (fun j x => if j = i then { x with deep := d } else x) }

/-- The words of middle cell `i` of queue `q`, by their places counted from the head. -/
def Chip.cellPlaces (c : Chip) (q i : Nat) : Nat × Nat := (16 * (i + 1) - (c.cisQ q).headOff, 16)

/-- All words of a weir in order. -/
def Weir.words (w : Weir) : List WWord := w.items.flatten ++ (w.uncommitted.flatMap (fun u => u.2))

end Sys2Proof.Machine
end

