-- ==== Sys2Proof/Machine/Sluice.lean ====
section
/-! DEFINITION. The Sluice: what a port writes to its host (R461), rings with records and messages (R476 to R479), the command table and
the completion path (R466, R483, R491, R510), intake windows with capsule sets (R464 to R472). -/

namespace Sys2Proof.Machine

/-! ### Writes to the host (R461, R463) -/

/-- Configuration space of port `x`, by dword; unwritten dwords read the reset value of Device Control and else 0 (log entry 13). -/
def pcieReset (k : Nat) : BitVec 32 := if k % 1024 = (Config.pcieCap + 8) / 4 % 1024 then 0x2810#32 else 0#32
def Chip.pcie (c : Chip) (x off : Nat) : BitVec 32 := Cells.get pcieReset c.host.pcie (1024 * x + off / 4 % 1024)

/-- Device Control of a port: largest payload in bytes, and whether data may carry Relaxed Ordering. -/
def Chip.maxPayload (c : Chip) (x : Nat) : Nat := 128 * 2 ^ min 2 (bitsOf (c.pcie x (Config.pcieCap + 8)).toNat 5 3)
def Chip.relaxedOn (c : Chip) (x : Nat) : Bool := (c.pcie x (Config.pcieCap + 8)).getLsbD 4

/-- A word of a port's MSI-X table or pending-bit array; vectors are masked at reset (log entry 13). -/
def msixReset (k : Nat) : BitVec 32 := if k % 16384 < 8192 ∧ k % 4 = 3 then 1#32 else 0#32
def Chip.msixWord (c : Chip) (x i : Nat) : BitVec 32 := Cells.get msixReset c.host.msix (16384 * x + i)
def Chip.setMsixWord (c : Chip) (x i : Nat) (v : BitVec 32) : Chip :=
  { c with host := { c.host with msix := Cells.put msixReset c.host.msix (16384 * x + i) v } }

/-- A memory write of port `x`; a port that is being reset issues none (R494). -/
def Chip.post (c : Chip) (x : Nat) (kind : PostKind) (addr : Nat) (bs : List Byte) : Chip :=
  if c.host.portHeld.getD x false ∨ bs = [] then c else
  { c with host := { c.host with posts := c.host.posts ++ [⟨x, kind, addr, bs, (kind == .data) && c.relaxedOn x⟩] } }

/-- Data in writes of at most the payload size that cross no 4 KiB boundary; `n` bounds their number. -/
def Chip.postData (c : Chip) (x : Nat) : Nat → Nat → List Byte → Chip
  | 0, _, _ => c
  | n + 1, addr, bs =>
    if bs = [] then c else
    let k := min (c.maxPayload x) (4096 - addr % 4096)
    Chip.postData (c.post x .data addr (bs.take k)) x n (addr + k) (bs.drop k)

/-- Bytes from offset `off` of a transfer, by the entry list (R472). -/
def Chip.pushGo (c : Chip) (x : Nat) : List (Nat × Nat) → Nat → List Byte → Chip
  | [], _, _ => c
  | (a, len) :: rest, off, bs =>
    if off < len then
      let k := len - off
      Chip.pushGo (c.postData x (bs.length + 1) (a + off) (bs.take k)) x rest 0 (bs.drop k)
    else Chip.pushGo c x rest (off - len) bs

/-- The MSI-X message of a vector; a masked one sets its pending bit (R479). -/
def Chip.message (c : Chip) (x vector : Nat) : Chip :=
  let ctl := c.pcie x Config.msixCap
  if ctl.getLsbD 31 then
    if (c.msixWord x (4 * vector + 3)).getLsbD 0 ∨ ctl.getLsbD 30 then
      let i := 8192 + vector / 32
      c.setMsixWord x i (c.msixWord x i ||| (1#32 <<< (vector % 32)))
    else
      c.post x .msix ((c.msixWord x (4 * vector)).toNat + 2 ^ 32 * (c.msixWord x (4 * vector + 1)).toNat)
        (leBytes 4 (c.msixWord x (4 * vector + 2)).toNat)
  else c

/-- The pending vectors of port `x`, by rising number. -/
def Chip.msixPending (c : Chip) (x : Nat) : List Nat :=
  (c.host.msix.filter (fun w => w.1 / 16384 == x && decide (8192 ≤ w.1 % 16384))).flatMap (fun w =>
    ((List.range 32).filter (fun b => w.2.getLsbD b)).map (fun b => 32 * (w.1 % 16384 - 8192) + b))

/-- A vector whose mask has been cleared sends the message that it kept (R479; log entry 13). -/
def Chip.msixFlush (c : Chip) (x : Nat) : Chip :=
  let ctl := c.pcie x Config.msixCap
  if !ctl.getLsbD 31 ∨ ctl.getLsbD 30 then c else
  (c.msixPending x).foldl (fun c v =>
    if (c.msixWord x (4 * v + 3)).getLsbD 0 then c else
    let i := 8192 + v / 32
    (c.setMsixWord x i (c.msixWord x i &&& ~~~ (1#32 <<< (v % 32)))).message x v) c

/-! ### Queue scale, ports, windows -/

/-- N of R464. -/
def Chip.scale (c : Chip) : Nat := 1024 * 4 ^ min 2 (c.fld GEN_CONFIG_QUEUE_SCALE)

/-- Port B does not exist in wide mode (R459). -/
def Chip.portExists (c : Chip) (x : Nat) : Bool := x == 0 || !c.flag GEN_CONFIG_PORT_MODE

/-- The Flume carries: it is up and not retraining (R436). -/
def Chip.carrying (c : Chip) : Bool := c.flag FLM_STATUS_UP && !c.flag FLM_STATUS_RETRAINING

/-- Host queues are held during a retraining (R46). -/
def Chip.hostHeld (c : Chip) : Bool := c.flag FLM_STATUS_UP && c.flag FLM_STATUS_RETRAINING

def Chip.isFatal (c : Chip) : Bool := c.flag WMH_ROLE_FATAL

/-! ### Rings -/

def Ring.size (r : Ring) : Nat := 2 ^ r.sizeLog2

/-- The next record may be written (R477). -/
def Ring.room (r : Ring) : Bool := (r.next + 1) % r.size != r.head % r.size || r.size == 1

/-- A record's 32 bytes (Table 11.8) with HEAD, TIME and PHASE of its posting. -/
def recordBytes (r : RingRec) (head : Nat) (time : Word) (phase : Bool) : List Byte :=
  leBytes 2 r.tag ++ leBytes 2 r.queue ++ leBytes 1 r.kind ++ leBytes 1 r.status ++ leBytes 2 head ++ leBytes 4 r.d0
    ++ leBytes 4 r.d1 ++ leBytes 8 time.toNat ++ leBytes 4 r.d2 ++ [0, 0, 0] ++ leBytes 1 (if phase then 128 else 0)

/-- A record as 4 words in a completion weir, where HEAD, TIME and PHASE are 0 (R510). -/
def recordWords (r : RingRec) : List Word :=
  let bs := recordBytes r 0 0 false
  (List.range 4).map (fun i => BitVec.ofNat 64 (ofLeBytes ((bs.drop (8 * i)).take 8)))

/-- The record of 4 words. -/
def wordsRecord (ws : List Word) : RingRec :=
  let x := fun i lo w => bitsOf (ws.getD i 0).toNat lo w
  ⟨x 0 32 2, x 0 0 16, x 0 16 16, x 0 40 8, x 1 0 32, x 1 32 32, x 3 0 32⟩

/-- Write a record into ring `k`: one memory write, then the message where the count calls for it (R476, R479). -/
def Chip.writeRecord (c : Chip) (k : Nat) (r : RingRec) (head : Nat) : Chip :=
  let g := c.ring k
  let c := c.post g.port .record (g.base.toNat + 32 * g.next) (recordBytes r head c.nowH g.phase)
  let n := (g.next + 1) % g.size
  let g := { g with next := n, phase := if n = 0 then !g.phase else g.phase }
  let c := c.inc (SLC_POSTED_COUNT g.port)
  if g.intEn then
    let u := g.unsignalled + 1
    if (if g.intCount = 0 then 256 else g.intCount) ≤ u then
      (c.setRing k { g with unsignalled := 0, firstAt := none }).message g.port g.vector
    else c.setRing k { g with unsignalled := u, firstAt := if g.firstAt.isSome then g.firstAt else some c.nowH }
  else c.setRing k g

/-- Post an event on a port's admin ring, where that exists (R485). -/
def Chip.postEvent (c : Chip) (x code queue status d0 d1 d2 : Nat) : Chip :=
  let g := c.ring x
  if c.portExists x ∧ g.created then c.setRing x { g with events := g.events ++ [⟨2, code, queue, status, d0, d1, d2⟩] } else c

/-! ### Command table -/

/-- Statuses (Table 11.11). -/
def stOk : Nat := 0x00
def stRecovered : Nat := 0x01
def stUnreadable : Nat := 0x10
def stBlank : Nat := 0x11
def stWritten : Nat := 0x12
def stOutOfRange : Nat := 0x13
def stAborted : Nat := 0x20
def stQueueReset : Nat := 0x21
def stPortReset : Nat := 0x22
def stNotMounted : Nat := 0x30
def stStationFault : Nat := 0x31
def stMediaFault : Nat := 0x32
def stInvalid : Nat := 0x40
def stFatal : Nat := 0x50
def stWriteLost : Nat := 0x51
def stAlready : Nat := 0x52

/-- Opcodes (Tables 11.9 and 11.10). -/
def opRead : Nat := 0x01
def opWrite : Nat := 0x02
def opFlush : Nat := 0x03
def opVerify : Nat := 0x04
def opPrefetch : Nat := 0x05
def opMount : Nat := 0x10
def opUnmount : Nat := 0x11
def opClose : Nat := 0x12
def opAbort : Nat := 0x40
def opQreset : Nat := 0x41
def opQcreate : Nat := 0x42
def opQdelete : Nat := 0x43
def opGetLog : Nat := 0x44
def opFeature : Nat := 0x45
def opStage : Nat := 0x46
def opActivate : Nat := 0x47
def opCache : Nat := 0x48
def opScrub : Nat := 0x49
def opCalibrate : Nat := 0x4A
def opStation : Nat := 0x4B

def Chip.cmd (c : Chip) (uid : Nat) : Option Cmd := c.host.cmds.find? (fun m => m.uid == uid)
def Chip.updCmd (c : Chip) (uid : Nat) (f : Cmd → Cmd) : Chip :=
  { c with host := { c.host with cmds := c.host.cmds.map (fun m => if m.uid = uid then f m else m) } }

/-- Outstanding commands of a queue. -/
def Chip.queueCmds (c : Chip) (n : Nat) : List Cmd := c.host.cmds.filter (fun m => m.queue == n)

/-- The outstanding command of a queue with a tag whose status is not fixed. -/
def Chip.cmdOf (c : Chip) (n tag : Nat) : Option Cmd :=
  c.host.cmds.find? (fun m => m.queue == n && m.tag == tag && m.status.isNone)

/-- Outstanding commands of a core. -/
def Chip.coreLoad (c : Chip) (k : Nat) : Nat := (c.host.cmds.filter (fun m => m.core == some k)).length

/-- A command core is in service (WMH_CORES). -/
def Chip.coreOnline (c : Chip) (k : Nat) : Bool := (c.reg WMH_CORES).getLsbD k

/-- The core in service with the fewest outstanding commands, the lower number on a tie (R499). -/
def Chip.pickCore (c : Chip) : Option Nat :=
  ((List.range 12).filter c.coreOnline).foldl
    (fun best k => match best with
      | none => some k
      | some b => if c.coreLoad k < c.coreLoad b then some k else best) none

/-! ### Staged writes: appending (R556) -/

/-- Staging slot `i` in buffer DRAM (Table 13.2). -/
def slotAddr (i : Nat) : Nat := 2 * 2 ^ 30 + 4096 * i

/-- The disc side of a staged entry: VOLUME_ID and SIDE. -/
def Chip.discOf (c : Chip) (v : Nat) : Nat × Nat := ((c.vol v).volumeId, (c.vol v).side)

/-- Live entries of a disc side: not yet released. -/
def Chip.stagedOf (c : Chip) (disc : Nat × Nat) : List Staged :=
  c.buf.staged.filter (fun e => (e.volumeId, e.side) == disc)

/-- When a WRITE enters the completion path its blocks join the list, in LBA order, and their clusters have accumulators (R277, R556). -/
def Chip.stagedAppend (c : Chip) (m : Cmd) : Chip :=
  let v := c.vol m.volume
  let es := (List.range m.arg1).map (fun i =>
    (⟨(c.buf.nextSeq + i) % 2 ^ 32, v.volumeId, v.side, 1, m.arg0 + i, homePba v.side (m.arg0 + i), v.session, m.slots.getD i 0, c.nowH,
      m.queue, m.tag, none, none, 0, false⟩ : Staged))
  let q := c.queue m.queue
  let c := c.setQueue m.queue { q with written := q.written + m.arg1 }
  let c : Chip := { c with buf := { c.buf with staged := c.buf.staged ++ es, nextSeq := (c.buf.nextSeq + m.arg1) % 2 ^ 32 } }
  es.foldl (fun c e => c.accOpen m.volume (pbaLayer e.homePba) (slotCluster (pbaSlot e.homePba))) c

/-- The completion of a WRITE is posted (R488). -/
def Chip.stagedPosted (c : Chip) (m : Cmd) : Chip :=
  if m.opcode = opWrite ∧ m.status = some stOk then
    let q := c.queue m.queue
    let c := c.setQueue m.queue { q with writtenOut := q.writtenOut + m.arg1 }
    { c with buf := { c.buf with
        staged := c.buf.staged.map (fun e =>
          if e.queue = m.queue ∧ e.tag = m.tag ∧ e.posted = none then { e with posted := some c.buf.written } else e),
        written := c.buf.written + m.arg1 } }
  else c

/-! ### The completion path (R484, R486, R491, R510) -/

/-- Completion record of a command whose status is fixed. -/
def completionOf (m : Cmd) : RingRec := ⟨0, m.tag, m.queue, m.status.getD 0, m.blockIndex, m.result, m.count⟩

/-- Append completion records of a queue while its oldest outstanding command has a fixed status (R486, R491). `fuel` bounds the
commands. A WRITE that enters the path with OK is staged. -/
def Chip.appendGo (c : Chip) (n : Nat) : List Nat → Chip
  | [] => c
  | u :: rest =>
    match c.cmd u with
    | none => Chip.appendGo c n rest
    | some m =>
      if m.inPath then Chip.appendGo c n rest
      else if m.status.isSome then
        let c := if m.opcode = opWrite ∧ m.status = some stOk then c.stagedAppend m else c
        let c := c.updCmd u (fun m => { m with inPath := true })
        Chip.appendGo (c.commitItem 2 n (recordWords (completionOf m))) n rest
      else c

def Chip.appendCompletions (c : Chip) (n : Nat) : Chip := c.appendGo n (c.queue n).order

/-- A command leaves the table: its queue forgets it, and, with no outstanding command, its core (R466, R499). -/
def Chip.dropCmd (c : Chip) (m : Cmd) : Chip :=
  let c := { c with host := { c.host with cmds := c.host.cmds.filter (fun x => x.uid != m.uid) } }
  let q := c.queue m.queue
  let o := q.order.filter (· != m.uid)
  let tags := if q.doneTags.contains m.tag then q.doneTags else m.tag :: q.doneTags
  if q.created then c.setQueue m.queue { q with order := o, core := if o = [] then none else q.core, doneTags := tags } else c

/-- Fix the status of a command (R484); one that an abort or a reset has marked takes that status (R492). A command of a port that has been reset
ends without a completion (R494). -/
def Chip.finish (c : Chip) (uid status blockIndex result count : Nat) : Chip :=
  match c.cmd uid with
  | none => c
  | some m =>
    if m.status.isSome then c
    else if m.silent then c.dropCmd m
    else
      (c.updCmd uid (fun m => { m with status := some (m.mark.getD status), blockIndex := blockIndex, result := result, count := count,
                                       wait := .none })).appendCompletions m.queue

/-- Fix a status without index, result or count. -/
def Chip.finishS (c : Chip) (uid status : Nat) : Chip := c.finish uid status 0 0 0

/-- INVALID_COMMAND with its reason (Table 11.16). -/
def Chip.finishInvalid (c : Chip) (uid reason : Nat) : Chip := c.finish uid stInvalid 0 reason 0

/-- Commands that an end of `uid` lets go on: an ABORT of it is DONE (R491). -/
def Chip.afterEnd (c : Chip) (uid : Nat) : Chip :=
  (c.host.cmds.filter (fun m => m.wait == .target uid)).foldl (fun c m => c.finishS m.uid stOk) c

/-- QRESETs of queues that have no outstanding command left are done: the windows are empty and open again (R493). -/
def Chip.settleQresets (c : Chip) : Chip :=
  c.host.qresets.foldl (fun c (n, uid) =>
    let mine := (c.queue n).order.filter (fun u => u != uid && !(c.host.qresets.any (fun r => r.2 == u)))
    let before := if n < 2 then mine.filter (fun u => decide (u < uid)) else mine
    if before = [] then
      let q := c.queue n
      let c := { c with host := { c.host with qresets := c.host.qresets.filter (fun r => r.2 != uid) } }
      let c := if n < 2 ∧ (c.cmd uid).map (·.queue) = some n then c
        else c.setQueue n { q with stopped := false, halted := false, dataHalted := false, head := 0, expPos := 0, dataHead := 0,
                                   dataExp := 0 }
      c.finishS uid stOk
    else c) c

/-- RING_RECORD_WRITE: the next record of a ring (R476 to R479): of the completion weir of queue `src`, or an event record. A record whose
cell has spoilt is posted from the command table (R517). No DEVICE_FATAL completion passes the fatal event of its port (R451). -/
def Chip.ringRecordWrite (c : Chip) (r : Nat) (src : Option Nat) : Chip :=
  let g := c.ring r
  if !g.created ∨ !g.room ∨ c.hostHeld then c else
  match src with
  | none =>
    match g.events with
    | [] => c
    | e :: rest =>
      let head := if e.queue = 0xFFFF then 0 else (c.queue e.queue).head
      (c.setRing r { g with events := rest }).writeRecord r e head
  | some n =>
    let q := c.queue n
    if !q.created ∨ q.ring ≠ r then c else
    match (c.weir (weirKey 2 n)).items with
    | [] => c
    | it :: _ =>
      let rec_ := wordsRecord (it.map (·.v))
      if rec_.kind = 0 ∧ rec_.status = stFatal ∧ (c.ring g.port).events.any (fun e => e.tag == 2) then c else
      let c := (c.takeItem 2 n).writeRecord r rec_ q.head
      if rec_.kind = 0 then
        match c.host.cmds.find? (fun m => m.queue == n && m.tag == rec_.tag && m.inPath) with
        | some m => (((c.stagedPosted m).dropCmd m).afterEnd m.uid).settleQresets
        | none => c
      else c

/-- MSIX_TIMER: INT_TIME has passed since the first record not signalled (R479). -/
def execMsixTimer (r : Nat) (s : State) : Out :=
  s.on fun c =>
    let g := c.ring r
    c.when (g.created && g.intEn && g.intTime != 0 && g.firstAt.isSome) fun c =>
      (c.setRing r { g with unsignalled := 0, firstAt := none }).message g.port g.vector

/-- WCOMMIT: the uncommitted words become one item (R34, R508). A completion record that enters a completion weir fixes its command's
status and enters the completion path; a WRITE is staged (R510, R556). A station request or reply leaves as an EVENT packet. -/
def Chip.commitRecord (c : Chip) (n : Nat) (ws : List Word) : Chip :=
  let r := wordsRecord ws
  if r.kind = 0 then
    match c.host.cmds.find? (fun m => m.queue == n && m.tag == r.tag && !m.inPath) with
    | none => c
    | some m =>
      let m := { m with status := some r.status, blockIndex := r.d0, result := r.d1, count := r.d2, inPath := true, wait := .none }
      let c := c.updCmd m.uid (fun _ => m)
      if m.opcode = opWrite ∧ r.status = stOk then c.stagedAppend m else c
  else c

/-! ### Events across the Flume (R43, R44) -/

/-- Words of an item as a payload: each word's lower half first. -/
def payloadOf (ws : List Word) : List (BitVec 32) := ws.flatMap (fun w => [BitVec.setWidth 32 w, BitVec.setWidth 32 (w >>> 32)])

/-- Make a packet ready in a direction (R43). -/
def Chip.flumeReady (c : Chip) (d : Dir) (p : Packet) : Chip :=
  match d with
  | .toM => { c with arch := { c.arch with toM := { c.arch.toM with ready := c.arch.toM.ready ++ [p] } } }
  | .toH => { c with arch := { c.arch with toH := { c.arch.toH with ready := c.arch.toH.ready ++ [p] } } }

/-- Split a payload into packets of at most 64 words; `n` bounds their number. -/
def payloadChunks : Nat → List (BitVec 32) → List (List (BitVec 32))
  | 0, _ => []
  | n + 1, ws => if ws.length ≤ 64 then [ws] else ws.take 64 :: payloadChunks n (ws.drop 64)

/-- Send an item as EVENT packets to a unit of the other die. -/
def Chip.sendItem (c : Chip) (d : Dir) (unit tag : Nat) (ws : List Word) : Chip :=
  (payloadChunks (ws.length + 1) (payloadOf ws)).foldl (fun c p => c.flumeReady d ⟨5, 0, unit, tag, p⟩) c

/-- Units of EVENT packets: channel sequencers 0 to 15 on the M-die, command cores 0 to 11 on the H-die; 32 a watermaster
(the model's own numbers, log entry 15). -/
def unitWm : Nat := 32

def execWcommit (e : Engine) (rs1 : Fin 32) (s : State) : Out :=
  s.on fun c => c.xsluice e rs1 true fun kind index c =>
    if (c.weir (weirKey kind index)).closed then c.closedResult e 0 else
    let ws := ((c.weir (weirKey kind index)).mine (engNum e)).map (·.v)
    let c := c.setWstat e false false false
    if ws = [] then c else
    let c := c.updWeir kind index fun w => w.setMine (engNum e) []
    match kind with
    | 2 => (c.commitItem 2 index ws).commitRecord index ws
    | 3 => c.sendItem .toM index 0 ws
    | 4 => c.sendItem .toH index 0 ws
    | 9 => c.sendItem (if e = .wmH then .toM else .toH) unitWm 0 ws
    | _ => c.commitItem kind index ws

/-! ### Windows (R465 to R471) -/

/-- Window `n` of port `x` serves an intake queue. -/
def Chip.windowOk (c : Chip) (x n : Nat) : Bool :=
  c.portExists x && decide (n < c.scale) && (c.queue n).created && (c.queue n).port == x

/-- The position, from `base` on, that slot `i` of `k` holds. -/
def posOfSlot (base i k : Nat) : Nat := (base + (i + k - base % k) % k) % 65536

/-- An intake error (R471): everything from HEAD on is discarded, the window halts, the event is posted. -/
def Chip.intakeError (c : Chip) (n : Nat) (data : Bool) (cause pos : Nat) : Chip :=
  let q := c.queue n
  let c :=
    if data then c.setQueue n { q with dataHalted := true }
    else
      let gone := q.sets.length
      let c := c.updWeir 1 n fun w => { w with items := w.items.take (w.items.length - gone) }
      (c.setQueue n { q with halted := true, sets := [], open_ := [] }).cisSync (2 * n)
  (c.inc (SLC_INTAKE_ERRORS_COUNT q.port)).postEvent q.port 1 n 0x41 cause pos data.toNat

/-- CAPSULE_SLOT_WRITE: bytes into a slot of a window (R465, R467, R471, R518). -/
def Chip.slotWrite (c : Chip) (x n : Nat) (data : Bool) (off : Nat) (bs : List Byte) (fault : WriteFault) : Chip :=
  if !c.windowOk x n then c.inc (SLC_WINDOW_DISCARDS_COUNT x) else
  let q := c.queue n
  if q.stopped ∨ (if data then q.dataHalted else q.halted) then c else
  match fault with
  | .poisoned | .ecrc =>
    c.intakeError n data (if fault = .poisoned then 1 else 2)
      (if data then posOfSlot q.dataHead (off / 0x2000) 2 else posOfSlot q.head (off / 64) 32)
  | .none =>
    if data ∨ 0x800 ≤ off then c else
    let slot := off / 64
    if slot ∈ q.open_ then c.setQueue n { q with slots := Cells.putRun (fun _ => 0) q.slots off bs }
    else if 0 < c.freeForUse then
      (c.setQueue n { q with slots := Cells.putRun (fun _ => 0) q.slots off bs, open_ := slot :: q.open_ }).cisSync (2 * n)
    else c

/-- CAPSULE_SLOT_WRITE. A write that finds no middle cell free is held: it has no effect yet (R518). -/
def execCapsuleSlotWrite (x : Port) (n : Nat) (data : Bool) (off : Nat) (bytes : List Byte) (fault : WriteFault) (s : State) : Out :=
  s.on fun c => c.slotWrite x n data off bytes fault

/-- Capsule in slot `i` of a queue, as the slot stands. -/
def IQueue.capsule (q : IQueue) (i : Nat) : List Byte := Cells.getRun (fun _ => 0) q.slots (64 * i) 64

/-- Bytes `lo` on of a capsule, `n` of them, as a number. -/
def capField (cap : List Byte) (lo n : Nat) : Nat := ofLeBytes ((cap.drop lo).take n)

/-- The checks of R470 on the set that ends in `slot`: 0, or the cause and the POS of the failing capsule. -/
def IQueue.checkSet (q : IQueue) (slot : Nat) : Nat × Nat :=
  let d := (slot + 32 - q.expPos % 32) % 32
  let pos := fun k => capField (q.capsule ((q.expPos + k) % 32)) 60 2
  match (List.range (d + 1)).find? (fun k => pos k != (q.expPos + k) % 65536) with
  | some k => (3, pos k)
  | none => if capField (q.capsule (q.expPos % 32)) 4 1 = d then (0, 0) else (4, pos d)

/-- CAPSULE_COMMIT: the word at bytes 56 to 63 of a slot, with COMMIT; the set is checked and committed, or an intake error arises
(R470, R471). -/
def Chip.capsuleCommit (c : Chip) (x n slot : Nat) (word : Word) : Chip :=
  let c := c.slotWrite x n false (64 * slot + 56) (leBytes 8 word.toNat) .none
  let q := c.queue n
  if !c.windowOk x n ∨ q.stopped ∨ q.halted ∨ !word.getLsbD 63 ∨ slot ∉ q.open_ then c else
  let r := q.checkSet slot
  if r.1 ≠ 0 then c.intakeError n false r.1 r.2 else
  let d := (slot + 32 - q.expPos % 32) % 32
  let slots := (List.range (d + 1)).map (fun k => (q.expPos + k) % 32)
  let caps := slots.map q.capsule
  let c := c.setQueue n
    { q with sets := q.sets ++ [⟨caps, c.nowH, c.buf.written, q.writtenOut⟩], expPos := (q.expPos + d + 1) % 65536,
             open_ := q.open_.filter (fun i => i ∉ slots) }
  c.commitItem 1 n (caps.flatMap (fun b => (List.range 8).map (fun i => BitVec.ofNat 64 (capField b (8 * i) 8))))

/-- CAPSULE_COMMIT. -/
def execCapsuleCommit (x : Port) (n slot : Nat) (word : Word) (s : State) : Out := s.on fun c => c.capsuleCommit x n slot word

/-- RESUME: HALTED ends; the next position is the window's HEAD (R468, R471). -/
def execResume (x : Port) (n : Nat) (data : Bool) (v : BitVec 32) (s : State) : Out :=
  s.on fun c =>
    if !c.windowOk x n then c.inc (SLC_WINDOW_DISCARDS_COUNT x) else
    let q := c.queue n
    if !v.getLsbD 0 then c
    else if data then (if q.dataHalted then c.setQueue n { q with dataHalted := false, dataExp := q.dataHead } else c)
    else if q.halted then c.setQueue n { q with halted := false, expPos := q.head } else c

/-- RING_HEAD: a value outside the range from the current head to the next index is discarded and counted (R477). -/
def execRingHead (x : Port) (n : Nat) (v : BitVec 32) (s : State) : Out :=
  s.on fun c =>
    let g := c.ring n
    if !c.portExists x ∨ c.scale ≤ n ∨ !g.created ∨ g.port ≠ x.val then c.inc (SLC_WINDOW_DISCARDS_COUNT x) else
    let h := v.toNat % 65536
    if g.size ≤ h ∨ (g.next + g.size - g.head) % g.size < (h + g.size - g.head) % g.size then c.inc (SLC_HEAD_DISCARDS_COUNT x)
    else c.setRing n { g with head := h }

/-! ### Taking a set (R466, R472, R484) -/

/-- The entry list of a set (Tables 11.5 and 11.6). -/
def setEntries (caps : List (List Byte)) : List (Nat × Nat) :=
  match caps with
  | [] => []
  | c0 :: exts =>
    [(capField c0 24 8, capField c0 32 4), (capField c0 36 8, capField c0 44 4)] ++
      exts.flatMap (fun e => (List.range 4).map (fun i => (capField e (12 * i) 8, capField e (12 * i + 8) 4)))

/-- The list before its first empty entry, and whether all later entries are all 0. -/
def usedEntries (es : List (Nat × Nat)) : List (Nat × Nat) × Bool :=
  let used := es.takeWhile (fun e => e.2 != 0)
  (used, (es.drop (used.length + 1)).all (fun e => e == (0, 0)) && ((es.drop used.length).take 1).all (fun _ => true))

/-- An opcode names a volume. -/
def namesVolume (op : Nat) : Bool := op ∈ [opRead, opWrite, opFlush, opVerify, opPrefetch, opMount, opUnmount, opClose]

/-- An opcode is defined for a kind of queue (R480). -/
def opDefined (op : Nat) (admin : Bool) : Bool :=
  if admin then op ∈ [0x10, 0x11, 0x12, 0x40, 0x41, 0x42, 0x43, 0x44, 0x45, 0x46, 0x47, 0x48, 0x49, 0x4A, 0x4B]
  else op ∈ [1, 2, 3, 4, 5]

/-- Bits of FLAGS, ARG0, ARG1, ARG2 and ARG3 that carry fields (Tables 11.9, 11.10, 11.13). -/
def argMasks (op : Nat) : Nat × Nat × Nat × Nat × Nat :=
  let w32 := 2 ^ 32 - 1
  match op with
  | 0x01 | 0x02 | 0x04 | 0x05 => (0, 2 ^ 40 - 1, w32, 0, 0)
  | 0x03 => (3, 0, 0, 0, 0)
  | 0x10 => (1, 0, 0, 0, 0)
  | 0x40 => (0, w32, 0, 0, 0)
  | 0x41 => (0, 0xFFFF, 0, 0, 0)
  | 0x42 => (0, 0x07FFFFFF1F01FFFF, 0xFFFF01, 0, 2 ^ 64 - 1)
  | 0x43 => (0, 0x1FFFF, 0, 0, 0)
  | 0x44 => (0, 0xFFFFFF, w32, w32, 0)
  | 0x45 => (0, 0xFFFFFF, w32, 0, 0)
  | 0x46 => (0, 0xFF, w32, 0, 0)
  | 0x47 => (0, 0x1F, 0, 0, 0)
  | 0x48 => (0, 1, 0, 0, 0)
  | 0x49 => (0, 2 ^ 64 - 1, 0, 0, 2 ^ 64 - 1)
  | 0x4A | 0x4B => (0, 0xFFFF, 0, 0, 0)
  | _ => (0, 0, 0, 0, 0)

/-- `x` has no bit outside `mask`. -/
def within (x mask : Nat) : Bool := x &&& mask == x

/-- The transfer length of the entry list (R472). -/
def transferLength (m : Cmd) : Nat :=
  if m.opcode = opRead then m.arg1 * 4096 else if m.opcode = opGetLog then m.arg2 else if m.opcode = opScrub then 64 else 0

/-- The lowest of the reasons 1 to 6 that a set breaks, or 0 (R484, Table 11.16); reason 7 and the ranges of the other fields are decided as
the command runs. -/
def Chip.invalidReason (c : Chip) (m : Cmd) (caps : List (List Byte)) (corrupt : Bool) : Nat :=
  let c0 := caps.headD []
  let k := argMasks m.opcode
  let es := usedEntries (setEntries caps)
  if !opDefined m.opcode (decide (m.queue < 2)) then 1
  else if corrupt ∨ capField c0 6 2 ≠ 0 ∨ !within m.flags k.1 ∨ !within m.arg0 k.2.1 ∨ !within m.arg1 k.2.2.1 ∨
      !within m.arg2 k.2.2.2.1 ∨ !within m.arg3 k.2.2.2.2 ∨
      (m.volume ≠ 0 ∧ (!namesVolume m.opcode ∨ (m.opcode = opFlush ∧ !(m.flags.testBit 1)))) ∨
      caps.any (fun b => capField b 62 1 != 0 || capField b 63 1 % 128 != 0) ∨
      (caps.drop 1).any (fun b => capField b 48 12 != 0) then 2
  else if (c.queueCmds m.queue).any (fun x => x.tag == m.tag && x.uid != m.uid) then 3
  else if !es.2 ∨ es.1.any (fun e => e.1 % 64 != 0 || e.2 % 64 != 0) ∨ (es.1.map (·.2)).foldl (· + ·) 0 ≠ transferLength m then 4
  else if 15 < m.volume ∨ (m.opcode ∈ [opRead, opWrite, opVerify, opPrefetch] ∧ (m.arg1 = 0 ∨ 2048 < m.arg1)) then 5
  else if m.opcode = opAbort ∧ c.scale = 16384 then 6
  else 0

/-- The command of a set (Table 11.5). -/
def Chip.cmdOfSet (c : Chip) (n : Nat) (t : CapSet) (core : Nat) : Cmd :=
  let c0 := t.capsules.headD []
  { uid := c.host.nextUid, queue := n, port := (c.queue n).port, tag := capField c0 2 2, opcode := capField c0 0 1,
    flags := capField c0 1 1, volume := capField c0 5 1, arg0 := capField c0 8 8, arg1 := capField c0 16 4, arg2 := capField c0 20 4,
    arg3 := capField c0 48 12, entries := (usedEntries (setEntries t.capsules)).1, capsules := t.capsules.length, commitAt := t.at_,
    core := some core, seen := t.seen, seenOwn := t.seenOwn }

/-- Capsule sets of a queue that no command waits for any more leave its weir: those of commands that have started or whose status is
fixed (R484). -/
def Chip.trimSets (c : Chip) (n : Nat) : Chip :=
  let keep := ((c.queueCmds n).filter (fun m => !m.started && m.status.isNone)).length
  let held := (c.weir (weirKey 1 n)).items.length - (c.queue n).sets.length
  (List.range (held - keep)).foldl (fun c _ => c.takeItem 1 n) c

/-- The command of queue `n` with `tag` may start: it has not started, every earlier command of its queue has, its core is in service and
not stopped, and no barrier holds it (R486, R497, R499, R551). -/
def Chip.toRun (c : Chip) (n tag op : Nat) : Option Cmd :=
  match c.cmdOf n tag with
  | none => none
  | some m =>
    if m.opcode = op ∧ !m.started ∧ !c.host.coresStop ∧ m.core.any c.coreOnline ∧ c.host.barrier.all (fun b => decide (m.uid ≤ b)) ∧
        (c.queueCmds n).all (fun x => decide (m.uid ≤ x.uid) || x.started || x.status.isSome) then some m else none

/-- The dispatch item that names a command. -/
def dispatchItem (m : Cmd) : List WWord := [⟨BitVec.ofNat 64 (m.queue + 65536 * m.tag + 2 ^ 32 * m.capsules), false⟩]

/-- The core starts a command: it has popped its dispatch item and its capsule set. -/
def Chip.begin (c : Chip) (m : Cmd) : Chip :=
  let c := match m.core with
    | some k => c.updWeir 0 k fun w => { w with items := w.items.erase (dispatchItem m) }
    | none => c
  (c.updCmd m.uid fun m => { m with started := true }).trimSets m.queue

/-- The set enters the command table; its core gets a dispatch item, unless its status is fixed at once (R484 steps 1 and 2). -/
def Chip.takeSet (c : Chip) (n : Nat) (t : CapSet) (rest : List CapSet) (core : Nat) : Chip :=
  let m := c.cmdOfSet n t core
  let q := c.queue n
  let corrupt := (((c.weir (weirKey 1 n)).items.drop ((c.weir (weirKey 1 n)).items.length - q.sets.length)).headD []).any (·.corrupt)
  let c := c.setQueue n { q with sets := rest, head := (q.head + t.capsules.length) % 65536, order := q.order ++ [m.uid],
                                 core := some core }
  let c := { c with host := { c.host with cmds := c.host.cmds ++ [m], nextUid := m.uid + 1 } }
  let c := c.inc (SLC_TAKEN_COUNT m.port)
  if c.isFatal ∧ m.opcode ≠ opGetLog then (c.finishS m.uid stFatal).trimSets n
  else
    let why := c.invalidReason m t.capsules corrupt
    if why ≠ 0 then (c.finishInvalid m.uid why).trimSets n
    else c.commitItem 0 core [BitVec.ofNat 64 (n + 65536 * m.tag + 2 ^ 32 * t.capsules.length)]

/-- SLUICE_TAKE (R466, R499, R519): the next committed set of a queue, within the limits. -/
def Chip.sluiceTake (c : Chip) (n : Nat) : Chip :=
  let q := c.queue n
  match q.sets with
  | [] => c
  | t :: rest =>
    if !q.created ∨ q.stopped ∨ c.hostHeld ∨ 256 ≤ q.order.length ∨ 65536 ≤ c.outstanding ∨
        (c.outstanding % 4 = 0 ∧ c.freeForUse = 0) then c else
    match (if q.core.isSome then q.core else c.pickCore) with
    | none => c
    | some k => if 0 < c.credits 0 k then c.takeSet n t rest k else c

/-! ### Enabling a port (R464, R527) -/

/-- Create the admin pair of a port: its ring at index 0 with PHASE 1, as its registers say. -/
def Chip.sluiceEnable (c : Chip) (x : Nat) : Chip :=
  if !c.portExists x ∨ c.flag (SLC_PORT_CTRL_ENABLE x) then c else
  let c := (c.setFld (SLC_PORT_CTRL_ENABLE x) 1).setFld (SLC_PORT_STATUS_ENABLED x) 1
  let c := c.setRing x
    { created := true, port := x, base := BitVec.ofNat 64 (c.fld (SLC_ADMIN_BASE_BASE x) * 4096),
      sizeLog2 := c.fld (SLC_ADMIN_CFG_SIZE_LOG2 x), vector := c.fld (SLC_ADMIN_CFG_VECTOR x),
      intEn := c.flag (SLC_ADMIN_INT_INT_EN x), intCount := c.fld (SLC_ADMIN_INT_INT_COUNT x),
      intTime := c.fld (SLC_ADMIN_INT_INT_TIME x) }
  let c := { c with host := { c.host with portHeld := c.host.portHeld.set x false } }
  c.setQueue x { created := true, port := x, ring := x }

/-- SLUICE_ENABLE. -/
def execSluiceEnable (x : Port) (s : State) : Out := s.on fun c => c.sluiceEnable x

end Sys2Proof.Machine
end

