-- ==== Sys2Proof/Machine/Calib.lean ====
section
/-! DEFINITION. Acceptance and rejection of calibration results (R568 to R570), with the degradation that a failed item causes (R286, R569). -/

namespace Sys2Proof.Machine

/-- A pickup is write-degraded (R286). -/
def Chip.writeDegraded (c : Chip) (p : Nat) : Bool := c.flag (WCH_CTRL_DEGRADED p) || c.flag (RCH_CTRL_DEGRADED (8 * p))

/-- Items that are FAILED on pickup `p`. -/
def Chip.failedItems (c : Chip) (p : Nat) : List Nat := (List.range 9).filter (fun i => c.fld (CAL_ITEM_STATE p i) == 3)

/-- An item causes write degradation where it is FAILED: items 3 to 7, and 0 to 2 with beam 0 rejected. -/
def Chip.itemDegradesWrite (c : Chip) (p i : Nat) : Bool :=
  (3 ≤ i && i ≤ 7) || (i ≤ 2 && (c.fld (CAL_ITEM_BEAMS p i)).testBit 0)

def Chip.setWdeg (c : Chip) (p : Nat) (b : Bool) : Chip :=
  (c.setFlag (WCH_CTRL_DEGRADED p) b).setFlag (CAL_PU_STATUS_WDEG p) b

/-- The degradation of a FAILED item (R569); `beams` has a bit for each lane whose measurement was rejected. -/
def Chip.calDegrade (c : Chip) (p i beams : Nat) : Chip :=
  let c := if i ≤ 2 then
      let c := c.setFld (CAL_ITEM_BEAMS p i) (c.fld (CAL_ITEM_BEAMS p i) ||| beams)
      (List.range 8).foldl (fun c k => if beams.testBit k then c.setFld (RCH_CTRL_DEGRADED (8 * p + k)) 1 else c) c
    else c
  if c.itemDegradesWrite p i then c.setWdeg p true else c

/-- The degradation that item `i` caused is cleared, but for what another FAILED item causes (R570). -/
def Chip.calClear (c : Chip) (p i : Nat) : Chip :=
  let others := (c.failedItems p).filter (· != i)
  let mine := c.fld (CAL_ITEM_BEAMS p i)
  let kept := others.foldl (fun b j => b ||| c.fld (CAL_ITEM_BEAMS p j)) 0
  let c := if i ≤ 2 then
      (List.range 8).foldl (fun c k =>
        if mine.testBit k ∧ !kept.testBit k then c.setFld (RCH_CTRL_DEGRADED (8 * p + k)) 0 else c) c
    else c
  let wrote := c.itemDegradesWrite p i
  let c := c.setFld (CAL_ITEM_BEAMS p i) 0
  if wrote ∧ !others.any (fun j => c.itemDegradesWrite p j) then c.setWdeg p false else c

/-- An item of pickup `p` is accepted (R568, R570). -/
def Chip.calAccept (c : Chip) (p i : Nat) : Chip :=
  let c := if c.fld (CAL_ITEM_STATE p i) = 3 then c.calClear p i else c
  let c := (c.setFld (CAL_ITEM_STATE p i) 1).setFld (CAL_ITEM_REJECTS p i) 0
  (c.inc (CAL_ITEM_ACCEPTS p i)).inc CAL_ACCEPTS_COUNT

/-- An item of pickup `p` is rejected: the third time in a row it is FAILED (R568 to R570). -/
def Chip.calReject (c : Chip) (p i beams : Nat) : Chip :=
  let c := (c.inc CAL_REJECTS_COUNT).mark CAL_EVENT_CAL_REJECT
  if c.fld (CAL_ITEM_STATE p i) = 3 then c.calDegrade p i beams
  else
    let n := c.fld (CAL_ITEM_REJECTS p i) + 1
    let c := c.setFld (CAL_ITEM_REJECTS p i) n
    if 3 ≤ n then
      (((c.setFld (CAL_ITEM_STATE p i) 3).inc CAL_FAILS_COUNT).mark CAL_EVENT_CAL_FAIL).calDegrade p i beams
    else c.setFld (CAL_ITEM_STATE p i) 2

/-- The acquisition of beam `k` of pickup `p` has been judged: a CALIBRATE of item 2 completes with the worst outcome once all its beams have (R578). -/
def Chip.acqJudged (c : Chip) (p k code : Nat) : Chip :=
  let r := c.cal p
  if !r.asked.contains k then c else
  let r := { r with asked := r.asked.filter (· != k), worst := max r.worst code }
  let c := c.setCal p r
  match r.acqBy with
  | some uid => if r.asked = [] then (c.setCal p { r with acqBy := none }).finish uid stOk 0 r.worst 0 else c
  | none => c

end Sys2Proof.Machine
end

