-- ==== Sys2Proof/Machine/Flags.lean ====
section
/-! DEFINITION. Numbers of the Tolek engines: rounding, saturation with its flag, quotient and root (R306 to R308, R315), and the hold
flags of the accumulators (R316, R317). -/

namespace Sys2Proof.Machine

/-- x / 2^k rounded to nearest, ties away from zero (R307). -/
def rndShift (x : Int) (k : Nat) : Int :=
  if k = 0 then x else
  let m : Int := ((x.natAbs + 2 ^ (k - 1)) / 2 ^ k : Nat)
  if x < 0 then -m else m

/-- n / d rounded to nearest, ties away from zero; d is not 0. -/
def rndDiv (n d : Int) : Int :=
  let m : Int := ((2 * n.natAbs + d.natAbs) / (2 * d.natAbs) : Nat)
  if (n < 0) = (d < 0) then m else -m

/-- The largest r < 2^(k) + r0 with r² ≤ x, bit by bit from r0. -/
def isqrtGo (x : Nat) : Nat → Nat → Nat
  | 0, r => r
  | k + 1, r => isqrtGo x k (if (r + 2 ^ k) * (r + 2 ^ k) ≤ x then r + 2 ^ k else r)

/-- Square root of a number below 2^64, rounded to nearest. -/
def isqrtNear (x : Nat) : Nat :=
  let r := isqrtGo x 32 0
  if x - r * r > r then r + 1 else r

/-- Limit to a range. -/
def limit (lo hi x : Int) : Int := if x < lo then lo else if hi < x then hi else x

/-- A Q3.28 value from an exact integer: the nearer end of the range, and whether it saturated (R307). -/
def satQ (x : Int) : Q × Bool :=
  let y := limit (-2 ^ 31) (2 ^ 31 - 1) x
  (BitVec.ofInt 32 y, y != x)

/-- A Q7.56 accumulator from an exact integer. -/
def satA (x : Int) : BitVec 64 × Bool :=
  let y := limit (-2 ^ 63) (2 ^ 63 - 1) x
  (BitVec.ofInt 64 y, y != x)

/-- The hold flag that LIM leaves: +1 above abs(k), −1 below −abs(k) (R317). -/
def holdOf (x k : Int) : Int := if (k.natAbs : Int) < x then 1 else if x < -(k.natAbs : Int) then -1 else 0

/-- Whether INT adds the product p with hold flag h (R316). -/
def intAdds (h p : Int) : Bool := h == 0 || (h == 1 && decide (p < 0)) || (h == -1 && decide (0 < p))

/-- A hold flag as LE_HFLAGS codes it. -/
def holdCode (h : Int) : Nat := if h = 1 then 1 else if h = -1 then 3 else 0

end Sys2Proof.Machine
end

