-- ==== Sys2Proof/Machine/Operands.lean ====
section
/-! DEFINITION. Instruction words of the Tolek engines: the formats of Table 7.6, the costs of Table 7.7, and the check of a word
against them (R312). -/

namespace Sys2Proof.Machine

/-- A word from its opcode and the sum of its fields in place. -/
def tWord (op fields : Nat) : Q := BitVec.ofNat 32 (op * 2 ^ 26 + fields)

def fmtVVV (d s t : Nat) : Nat := d * 2 ^ 22 + s * 2 ^ 18 + t * 2 ^ 14
def fmtVK (d s k : Nat) : Nat := d * 2 ^ 22 + s * 2 ^ 18 + k * 2 ^ 13
def fmtVKA (d s k a : Nat) : Nat := fmtVK d s k + a * 2 ^ 11
def fmtSH (d s n : Nat) : Nat := d * 2 ^ 22 + s * 2 ^ 18 + n
def fmtIM (d imm : Nat) : Nat := d * 2 ^ 22 + imm
def fmtMM (d x addr : Nat) : Nat := d * 2 ^ 22 + x * 2 ^ 18 + addr
def fmtPT (d port : Nat) : Nat := d * 2 ^ 22 + port
def fmtAC (a b s t k : Nat) : Nat := a * 2 ^ 24 + b * 2 ^ 22 + s * 2 ^ 18 + t * 2 ^ 14 + k * 2 ^ 9
def fmtBR (s t bit target : Nat) : Nat := s * 2 ^ 22 + t * 2 ^ 18 + bit * 2 ^ 13 + target
def fmtLP (count last : Nat) : Nat := count * 2 ^ 18 + last
def fmtJ (target : Nat) : Nat := target

/-- Formats of Table 7.6. -/
inductive TFmt where
  | vvv | vk | vka | sh | im | mm | pt | ac | br | lp | j
deriving DecidableEq, Repr

/-- A row of Table 7.8: format, whether its fields (d, s, t; of VK d, s, k; of MM d, x; of AC a, b, s, t, k; of BR s, t, bit) are used,
cost, and whether the table leaves the unused ones unmarked: those it marks must be 0, the others may hold anything and mean nothing
(R312; log entry 133, DEDUCED). -/
structure TRow where
  fmt : TFmt
  used : List Bool
  cost : Nat
  unmarked : Bool
deriving DecidableEq, Repr

/-- Table 7.8 by opcode. -/
def tRow : Nat → Option TRow
  | 0x00 => some ⟨.j, [false], 1, false⟩
  | 0x01 => some ⟨.vvv, [true, true, false], 1, false⟩
  | 0x02 | 0x03 => some ⟨.im, [], 1, false⟩
  | 0x04 => some ⟨.vk, [true, false, true], 1, false⟩
  | 0x05 | 0x06 => some ⟨.mm, [true, false], 1, false⟩
  | 0x07 | 0x08 => some ⟨.mm, [true, true], 1, false⟩
  | 0x09 | 0x0A => some ⟨.pt, [], 1, false⟩
  | 0x10 | 0x11 | 0x16 | 0x17 | 0x18 | 0x20 | 0x21 | 0x22 | 0x25 => some ⟨.vvv, [true, true, true], 1, false⟩
  | 0x12 => some ⟨.vvv, [true, true, true], 2, false⟩
  | 0x13 => some ⟨.vk, [true, true, true], 2, false⟩
  | 0x14 | 0x15 => some ⟨.vvv, [true, true, false], 1, false⟩
  | 0x19 | 0x1A | 0x23 | 0x24 => some ⟨.sh, [], 1, false⟩
  | 0x1B => some ⟨.vvv, [true, true, true], 16, false⟩
  | 0x1C => some ⟨.vvv, [true, true, false], 16, false⟩
  | 0x28 => some ⟨.ac, [true, false, false, false, false], 1, false⟩
  | 0x29 => some ⟨.ac, [true, false, true, false, false], 1, true⟩
  | 0x2A | 0x2C | 0x2F => some ⟨.ac, [true, false, true, false, true], 2, true⟩
  | 0x2B => some ⟨.ac, [true, false, true, true, false], 2, true⟩
  | 0x2D => some ⟨.ac, [true, true, false, false, false], 1, true⟩
  | 0x2E => some ⟨.ac, [true, false, true, false, false], 1, true⟩
  | 0x30 => some ⟨.vka, [], 1, false⟩
  | 0x34 => some ⟨.j, [true], 2, false⟩
  | 0x35 | 0x36 | 0x37 | 0x38 => some ⟨.br, [true, true, false], 2, true⟩
  | 0x39 | 0x3A => some ⟨.br, [true, false, true], 2, false⟩
  | 0x3B => some ⟨.lp, [], 1, false⟩
  | 0x3C => some ⟨.j, [true], 2, false⟩
  | 0x3D => some ⟨.j, [false], 2, false⟩
  | 0x3E => some ⟨.j, [false], 1, false⟩
  | _ => none

/-- The fields of a format, as (lowest bit, width), in the order of `TRow.used`. -/
def TFmt.fields : TFmt → List (Nat × Nat)
  | .vvv => [(22, 4), (18, 4), (14, 4)]
  | .vk => [(22, 4), (18, 4), (13, 5)]
  | .vka => [(22, 4), (18, 4), (13, 5), (11, 2)]
  | .sh => [(22, 4), (18, 4), (0, 5)]
  | .im => [(22, 4), (0, 16)]
  | .mm => [(22, 4), (18, 4), (0, 11)]
  | .pt => [(22, 4), (0, 6)]
  | .ac => [(24, 2), (22, 2), (18, 4), (14, 4), (9, 5)]
  | .br => [(22, 4), (18, 4), (13, 5), (0, 12)]
  | .lp => [(18, 8), (0, 12)]
  | .j => [(0, 12)]

/-- Field `i` of a word in a format. -/
def tField (f : TFmt) (w : Q) (i : Nat) : Nat :=
  match f.fields[i]? with
  | some (lo, n) => bitsOf w.toNat lo n
  | none => 0

/-- A word is legal: its opcode is listed, every bit outside its fields and every unused field that Table 7.8 marks is 0, and the count of a LOOP is not 0
(R312, R318). -/
def tLegal (w : Q) : Bool :=
  match tRow (bitsOf w.toNat 26 6) with
  | none => false
  | some r =>
    let fs := r.fmt.fields
    let sum := (List.range fs.length).foldl
      (fun a i => a + (if r.unmarked || r.used.getD i true then tField r.fmt w i * 2 ^ (fs.getD i (0, 0)).1 else 0)) 0
    sum == w.toNat % 2 ^ 26 && !(r.fmt == .lp && tField .lp w 0 == 0)

/-- A word with the fields at 0 that its row neither uses nor marks 0 (R312; log entry 133, DEDUCED). -/
def tPlain (w : Q) : Q :=
  match tRow (bitsOf w.toNat 26 6) with
  | none => w
  | some r =>
    let fs := r.fmt.fields
    let sum := (List.range fs.length).foldl
      (fun a i => a + (if r.unmarked && !r.used.getD i true then tField r.fmt w i * 2 ^ (fs.getD i (0, 0)).1 else 0)) 0
    w - BitVec.ofNat 32 sum

end Sys2Proof.Machine
end

