-- ==== Sys2Proof/Machine/Tolek.lean ====
section
/-! DEFINITION. The Tolek engines: one meaning per instruction (Table 7.8). Engine `e` runs the instruction where it stands at the
engine's program counter in a run; elsewhere the command does not occur and nothing changes (log entry 3). -/

namespace Sys2Proof.Machine

/-- The pair of an engine (R293). -/
def pairOf (e : Nat) : Nat := e / 2

/-- Period of the engines of pair `q` is the loop period (else the motion period). -/
def isLoopPair (q : Nat) : Bool := decide (q < 16)

/-! ### Registers of an engine -/

def TolekRec.val (t : TolekRec) (r : Nat) : Q := Cells.get (fun _ => 0) t.ctx.v r
def TolekRec.int (t : TolekRec) (r : Nat) : Int := (t.val r).toInt
def TolekRec.acc (t : TolekRec) (a : Nat) : Int := (Cells.get (fun _ => 0) t.ctx.a a : BitVec 64).toInt
def TolekRec.hold (t : TolekRec) (a : Nat) : Int := Cells.get (fun _ => 0) t.ctx.h a
def TolekRec.coef (t : TolekRec) (bank k : Nat) : Q := Cells.get (fun _ => 0) t.banks (32 * bank + k)
def TolekRec.coefInt (t : TolekRec) (k : Nat) : Int := (t.coef t.ctx.bank k).toInt
def TolekRec.word (t : TolekRec) (pc : Nat) : Q := Cells.get (fun _ => 0) t.prog pc

def TolekRec.setVal (t : TolekRec) (r : Nat) (x : Q) : TolekRec :=
  { t with ctx := { t.ctx with v := Cells.put (fun _ => 0) t.ctx.v r x } }

/-- A value register from an exact integer, saturated, with SAT (R307). -/
def TolekRec.setInt (t : TolekRec) (r : Nat) (x : Int) : TolekRec :=
  let y := satQ x
  { t.setVal r y.1 with sat := t.sat || y.2 }

def TolekRec.setAcc (t : TolekRec) (a : Nat) (x : Int) : TolekRec :=
  let y := satA x
  { t with ctx := { t.ctx with a := Cells.put (fun _ => 0) t.ctx.a a y.1 }, sat := t.sat || y.2 }

def TolekRec.setHold (t : TolekRec) (a : Nat) (h : Int) : TolekRec :=
  { t with ctx := { t.ctx with h := Cells.put (fun _ => 0) t.ctx.h a h } }

/-- Data word `addr` of engine `e`: program data, or a parameter word of its pair (R303). -/
def Chip.tData (c : Chip) (e addr : Nat) : Q :=
  if addr < 1792 then Cells.get (fun _ => 0) (c.tolek e).ctx.data addr
  else BitVec.ofNat 32 (c.fld (LE_PARAM_VALUE (pairOf e) (addr - 1792)))

/-- A store: to a parameter word it is discarded and flagged (R303); every store counts for the signature (R418). -/
def Chip.tStoreWord (c : Chip) (e addr : Nat) (x : Q) : Chip :=
  let t := c.tolek e
  let c := c.setTolek e { t with stores := t.stores ++ [(addr, x)] }
  if addr < 1792 then
    let t := c.tolek e
    c.setTolek e { t with ctx := { t.ctx with data := Cells.put (fun _ => 0) t.ctx.data addr x } }
  else c.mark (LE_ENG_EVENT_PARAM_STORE e)

/-! ### Flow -/

/-- The run reaches address `a` in sequence or by return: where it stands just past the last instruction of the innermost loop, with as many
calls outstanding as where the loop began, an iteration is complete, at a cost of 1 unit (R318, Table 7.7; log entry 132, DEDUCED). `n` bounds the loops that can end there. -/
def TolekRec.arriveGo (t : TolekRec) (a : Nat) : Nat → TolekRec
  | 0 => { t with pc := a }
  | n + 1 =>
    match t.loops with
    | fr :: rest =>
      if fr.last + 1 = a ∧ fr.depth = t.calls.length then
        if 0 < fr.left then { t with loops := { fr with left := fr.left - 1 } :: rest, pc := fr.first, units := t.units + 1 }
        else TolekRec.arriveGo { t with loops := rest, units := t.units + 1 } a n
      else { t with pc := a }
    | [] => { t with pc := a }

def TolekRec.arrive (t : TolekRec) (a : Nat) : TolekRec := t.arriveGo a 2

/-- An internal fault: the engine stops, leaves the commit and the comparison, shows FAULT and reports (R296). -/
def Chip.engineFault (c : Chip) (e : Nat) : Chip :=
  let t := c.tolek e
  (c.setTolek e { t with running := false, role := 4, fault := true }).mark (LE_ENG_EVENT_INTERNAL_FAULT e)

/-- Past the end of program memory without END is an internal fault (R319). -/
def Chip.tCheckEnd (c : Chip) (e : Nat) : Chip := if (c.tolek e).pc < 4096 then c else c.engineFault e

/-- Engine `e` runs the instruction of word `w`, at `cost` units, if it stands at its program counter in a run. -/
def Chip.tRun (c : Chip) (e : Nat) (w : Q) (cost : Nat) (f : Chip → Chip) : Chip :=
  let t := c.tolek e
  c.when (t.running && !t.ended && tPlain (t.word t.pc) == w) fun c =>
    f (c.setTolek e { t with units := t.units + cost })

/-- As `tRun`, and the run goes on with the next instruction. -/
def Chip.tSeq (c : Chip) (e : Nat) (w : Q) (cost : Nat) (f : Chip → Chip) : Chip :=
  c.tRun e w cost fun c =>
    let c := f c
    (c.setTolek e ((c.tolek e).arrive ((c.tolek e).pc + 1))).tCheckEnd e

/-- As `tSeq`, for an instruction that changes the engine alone. -/
def State.tStep (s : State) (e : Nat) (w : Q) (cost : Nat) (f : TolekRec → TolekRec) : Out :=
  s.on fun c => c.tSeq e w cost fun c => c.setTolek e (f (c.tolek e))

/-- A branch: to `target` where `b` holds, else on. -/
def State.tBranch (s : State) (e : Nat) (w : Q) (target : Nat) (b : TolekRec → Bool) : Out :=
  s.on fun c => c.tRun e w 2 fun c =>
    let t := c.tolek e
    (c.setTolek e (if b t then { t with pc := target } else t.arrive (t.pc + 1))).tCheckEnd e

/-! ### Ports -/

/-- STATUS of engine `e` (Table 7.4, R667). -/
def Chip.tStatus (c : Chip) (e : Nat) : Q :=
  let q := pairOf e
  BitVec.ofNat 32 (c.fld (LE_PAIR_STATUS_CONSEC q) + 16 * (c.pair q).switched.toNat + 32 * ((c.tolek e).role == 1).toNat
    + 64 * (c.pair q).entry)

/-- What IN reads: values delivered for the period, and the ports of the tick (Tables 7.4 and 7.5); 0 elsewhere (R309, R310). -/
def Chip.tInput (c : Chip) (e port : Nat) : Q :=
  let p := c.pair (pairOf e)
  if port < 25 then Cells.get (fun _ => 0) p.inputs port
  else match port with
    | 25 => p.cmd.1
    | 26 => p.cmd.2
    | 27 => Cells.get (fun _ => 0) p.inputs 27
    | 28 => BitVec.ofNat 32 p.period.toNat
    | 29 => c.tStatus e
    | _ => 0

/-- The signature of a run (R418). -/
def TolekRec.signature (t : TolekRec) : BitVec 32 :=
  let vs := (List.range 16).flatMap (fun i => leBytes 4 (t.val i).toNat)
  let as := (List.range 4).flatMap (fun i => leBytes 8 (Cells.get (fun _ => 0) t.ctx.a i : BitVec 64).toNat)
  let h := (List.range 4).foldl (fun a i => a + holdCode (t.hold i) * 4 ^ i) 0
  crc32 (vs ++ as ++ leBytes 4 h ++ t.stores.flatMap (fun s => leBytes 4 s.1 ++ leBytes 4 s.2.toNat))


/-! ### Data movement -/

/-- NOP. -/
def execTNop (e : TolekEngine) (st : State) : Out :=
  st.tStep e (tWord 0x00 0) 1 fun x => x

/-- MOV. -/
def execTMov (e : TolekEngine) (d s : VReg) (st : State) : Out :=
  st.tStep e (tWord 0x01 (fmtVVV d s 0)) 1 fun x => x.setVal d (x.val s)

/-- LIH. -/
def execTLih (e : TolekEngine) (d : VReg) (imm : BitVec 16) (st : State) : Out :=
  st.tStep e (tWord 0x02 (fmtIM d imm.toNat)) 1 fun x => x.setVal d (imm.zeroExtend 32 <<< 16)

/-- LIL: the upper half stays. -/
def execTLil (e : TolekEngine) (d : VReg) (imm : BitVec 16) (st : State) : Out :=
  st.tStep e (tWord 0x03 (fmtIM d imm.toNat)) 1 fun x => x.setVal d ((x.val d &&& 0xFFFF0000#32) ||| imm.zeroExtend 32)

/-- LDK, of the active bank. -/
def execTLdk (e : TolekEngine) (d : VReg) (k : Coef) (st : State) : Out :=
  st.tStep e (tWord 0x04 (fmtVK d 0 k)) 1 fun x => x.setVal d (x.coef x.ctx.bank k)

/-- LD. -/
def execTLd (e : TolekEngine) (d : VReg) (addr : BitVec 11) (st : State) : Out :=
  st.on fun c => c.tSeq e (tWord 0x05 (fmtMM d 0 addr.toNat)) 1 fun c =>
    c.setTolek e ((c.tolek e).setVal d (c.tData e addr.toNat))

/-- ST. -/
def execTSt (e : TolekEngine) (d : VReg) (addr : BitVec 11) (st : State) : Out :=
  st.on fun c => c.tSeq e (tWord 0x06 (fmtMM d 0 addr.toNat)) 1 fun c =>
    c.tStoreWord e addr.toNat ((c.tolek e).val d)

/-- Word addressed by LDX and STX: (addr + vx[10:0]) mod 2,048. -/
def TolekRec.index (t : TolekRec) (v : Nat) (addr : BitVec 11) : Nat := (addr.toNat + (t.val v).toNat % 2048) % 2048

/-- LDX. -/
def execTLdx (e : TolekEngine) (d v : VReg) (addr : BitVec 11) (st : State) : Out :=
  st.on fun c => c.tSeq e (tWord 0x07 (fmtMM d v addr.toNat)) 1 fun c =>
    c.setTolek e ((c.tolek e).setVal d (c.tData e ((c.tolek e).index v addr)))

/-- STX. -/
def execTStx (e : TolekEngine) (d v : VReg) (addr : BitVec 11) (st : State) : Out :=
  st.on fun c => c.tSeq e (tWord 0x08 (fmtMM d v addr.toNat)) 1 fun c =>
    c.tStoreWord e ((c.tolek e).index v addr) ((c.tolek e).val d)

/-- IN. A value of the period that has not been delivered stalls the engine: the instruction runs after delivery (R137, R311). -/
def execTIn (e : TolekEngine) (d : VReg) (port : BitVec 6) (st : State) : Out :=
  st.on fun c => c.when (decide (25 ≤ port.toNat) || (c.pair (pairOf e)).delivered) fun c =>
    c.tSeq e (tWord 0x09 (fmtPT d port.toNat)) 1 fun c => c.setTolek e ((c.tolek e).setVal d (c.tInput e port.toNat))

/-- OUT: the last written value of a run stands; a port not listed is discarded (R309, R311). -/
def execTOut (e : TolekEngine) (d : VReg) (port : BitVec 6) (st : State) : Out :=
  st.tStep e (tWord 0x0A (fmtPT d port.toNat)) 1 fun x =>
    if port.toNat < 16 then
      { x with outs := Cells.put (fun _ => 0) x.outs port.toNat (x.val d),
               written := if port.toNat ∈ x.written then x.written else port.toNat :: x.written }
    else x

/-! ### Values -/

/-- ADD. -/
def execTAdd (e : TolekEngine) (d s t : VReg) (st : State) : Out :=
  st.tStep e (tWord 0x10 (fmtVVV d s t)) 1 fun x => x.setInt d (x.int s + x.int t)

/-- SUB. -/
def execTSub (e : TolekEngine) (d s t : VReg) (st : State) : Out :=
  st.tStep e (tWord 0x11 (fmtVVV d s t)) 1 fun x => x.setInt d (x.int s - x.int t)

/-- MUL: the exact product, rounded (R308). -/
def execTMul (e : TolekEngine) (d s t : VReg) (st : State) : Out :=
  st.tStep e (tWord 0x12 (fmtVVV d s t)) 2 fun x => x.setInt d (rndShift (x.int s * x.int t) 28)

/-- MULK. -/
def execTMulk (e : TolekEngine) (d s : VReg) (k : Coef) (st : State) : Out :=
  st.tStep e (tWord 0x13 (fmtVK d s k)) 2 fun x => x.setInt d (rndShift (x.int s * x.coefInt k) 28)

/-- NEG. -/
def execTNeg (e : TolekEngine) (d s : VReg) (st : State) : Out :=
  st.tStep e (tWord 0x14 (fmtVVV d s 0)) 1 fun x => x.setInt d (-x.int s)

/-- ABS. -/
def execTAbs (e : TolekEngine) (d s : VReg) (st : State) : Out :=
  st.tStep e (tWord 0x15 (fmtVVV d s 0)) 1 fun x => x.setInt d (x.int s).natAbs

/-- MIN. -/
def execTMin (e : TolekEngine) (d s t : VReg) (st : State) : Out :=
  st.tStep e (tWord 0x16 (fmtVVV d s t)) 1 fun x => x.setInt d (min (x.int s) (x.int t))

/-- MAX. -/
def execTMax (e : TolekEngine) (d s t : VReg) (st : State) : Out :=
  st.tStep e (tWord 0x17 (fmtVVV d s t)) 1 fun x => x.setInt d (max (x.int s) (x.int t))

/-- CLAMP. -/
def execTClamp (e : TolekEngine) (d s t : VReg) (st : State) : Out :=
  st.tStep e (tWord 0x18 (fmtVVV d s t)) 1 fun x => x.setInt d (limit (-(x.int t).natAbs) (x.int t).natAbs (x.int s))

/-- SHL. -/
def execTShl (e : TolekEngine) (d s : VReg) (n : Fin 32) (st : State) : Out :=
  st.tStep e (tWord 0x19 (fmtSH d s n)) 1 fun x => x.setInt d (x.int s * 2 ^ n.val)

/-- SHR. -/
def execTShr (e : TolekEngine) (d s : VReg) (n : Fin 32) (st : State) : Out :=
  st.tStep e (tWord 0x1A (fmtSH d s n)) 1 fun x => x.setInt d (rndShift (x.int s) n)

/-- The result of DIV (R315). -/
def divResult (n d : Int) : Int :=
  if d = 0 then (if 0 < n then 2 ^ 31 - 1 else if n < 0 then -2 ^ 31 else 0) else rndDiv (n * 2 ^ 28) d

/-- DIV. -/
def execTDiv (e : TolekEngine) (d s t : VReg) (st : State) : Out :=
  st.on fun c => c.tSeq e (tWord 0x1B (fmtVVV d s t)) 16 fun c =>
    let x := c.tolek e
    let c := c.setTolek e (x.setInt d (divResult (x.int s) (x.int t)))
    if x.int t = 0 then c.mark (LE_ENG_EVENT_DIV_ZERO e) else c

/-- SQRT. -/
def execTSqrt (e : TolekEngine) (d s : VReg) (st : State) : Out :=
  st.on fun c => c.tSeq e (tWord 0x1C (fmtVVV d s 0)) 16 fun c =>
    let x := c.tolek e
    if x.int s < 0 then (c.setTolek e (x.setVal d 0)).mark (LE_ENG_EVENT_SQRT_NEG e)
    else c.setTolek e (x.setInt d (isqrtNear ((x.int s).toNat * 2 ^ 28)))

/-! ### Raw words -/

/-- AND. -/
def execTAnd (e : TolekEngine) (d s t : VReg) (st : State) : Out :=
  st.tStep e (tWord 0x20 (fmtVVV d s t)) 1 fun x => x.setVal d (x.val s &&& x.val t)

/-- OR. -/
def execTOr (e : TolekEngine) (d s t : VReg) (st : State) : Out :=
  st.tStep e (tWord 0x21 (fmtVVV d s t)) 1 fun x => x.setVal d (x.val s ||| x.val t)

/-- XOR. -/
def execTXor (e : TolekEngine) (d s t : VReg) (st : State) : Out :=
  st.tStep e (tWord 0x22 (fmtVVV d s t)) 1 fun x => x.setVal d (x.val s ^^^ x.val t)

/-- SRL. -/
def execTSrl (e : TolekEngine) (d s : VReg) (n : Fin 32) (st : State) : Out :=
  st.tStep e (tWord 0x23 (fmtSH d s n)) 1 fun x => x.setVal d (x.val s >>> n.val)

/-- SLL. -/
def execTSll (e : TolekEngine) (d s : VReg) (n : Fin 32) (st : State) : Out :=
  st.tStep e (tWord 0x24 (fmtSH d s n)) 1 fun x => x.setVal d (x.val s <<< n.val)

/-- ADDW. -/
def execTAddw (e : TolekEngine) (d s t : VReg) (st : State) : Out :=
  st.tStep e (tWord 0x25 (fmtVVV d s t)) 1 fun x => x.setVal d (x.val s + x.val t)

/-! ### Accumulators -/

/-- CLR. -/
def execTClr (e : TolekEngine) (a : Acc) (st : State) : Out :=
  st.tStep e (tWord 0x28 (fmtAC a 0 0 0 0)) 1 fun x => x.setAcc a 0

/-- LDA, exactly. -/
def execTLda (e : TolekEngine) (a : Acc) (s : VReg) (st : State) : Out :=
  st.tStep e (tWord 0x29 (fmtAC a 0 s 0 0)) 1 fun x => x.setAcc a (x.int s * 2 ^ 28)

/-- MAC: the exact product is added (R308). -/
def execTMac (e : TolekEngine) (a : Acc) (s : VReg) (k : Coef) (st : State) : Out :=
  st.tStep e (tWord 0x2A (fmtAC a 0 s 0 k)) 2 fun x => x.setAcc a (x.acc a + x.int s * x.coefInt k)

/-- MACV. -/
def execTMacv (e : TolekEngine) (a : Acc) (s t : VReg) (st : State) : Out :=
  st.tStep e (tWord 0x2B (fmtAC a 0 s t 0)) 2 fun x => x.setAcc a (x.acc a + x.int s * x.int t)

/-- MSU. -/
def execTMsu (e : TolekEngine) (a : Acc) (s : VReg) (k : Coef) (st : State) : Out :=
  st.tStep e (tWord 0x2C (fmtAC a 0 s 0 k)) 2 fun x => x.setAcc a (x.acc a - x.int s * x.coefInt k)

/-- ADDA. -/
def execTAdda (e : TolekEngine) (a b : Acc) (st : State) : Out :=
  st.tStep e (tWord 0x2D (fmtAC a b 0 0 0)) 1 fun x => x.setAcc a (x.acc a + x.acc b)

/-- RND, the destination in the s field. -/
def execTRnd (e : TolekEngine) (d : VReg) (a : Acc) (st : State) : Out :=
  st.tStep e (tWord 0x2E (fmtAC a 0 d 0 0)) 1 fun x => x.setInt d (rndShift (x.acc a) 28)

/-- INT: integration unless the hold flag forbids its direction (R316). -/
def execTInt (e : TolekEngine) (a : Acc) (s : VReg) (k : Coef) (st : State) : Out :=
  st.tStep e (tWord 0x2F (fmtAC a 0 s 0 k)) 2 fun x => 
    let p := x.int s * x.coefInt k
    if intAdds (x.hold a) p then x.setAcc a (x.acc a + p) else x

/-- LIM: the limit, and the hold flag of the accumulator named (R317). -/
def execTLim (e : TolekEngine) (d s : VReg) (k : Coef) (a : Acc) (st : State) : Out :=
  st.tStep e (tWord 0x30 (fmtVKA d s k a)) 1 fun x => 
    let m : Int := (x.coefInt k).natAbs
    let v := x.int s
    (x.setVal d (BitVec.ofInt 32 (limit (-m) m v))).setHold a (holdOf v (x.coefInt k))

/-! ### Flow -/

/-- BR. -/
def execTBr (e : TolekEngine) (target : BitVec 12) (st : State) : Out :=
  st.tBranch e (tWord 0x34 (fmtJ target.toNat)) target.toNat fun _ => true

/-- BEQ. -/
def execTBeq (e : TolekEngine) (s t : VReg) (target : BitVec 12) (st : State) : Out :=
  st.tBranch e (tWord 0x35 (fmtBR s t 0 target.toNat)) target.toNat fun x => x.val s == x.val t

/-- BNE. -/
def execTBne (e : TolekEngine) (s t : VReg) (target : BitVec 12) (st : State) : Out :=
  st.tBranch e (tWord 0x36 (fmtBR s t 0 target.toNat)) target.toNat fun x => x.val s != x.val t

/-- BLT. -/
def execTBlt (e : TolekEngine) (s t : VReg) (target : BitVec 12) (st : State) : Out :=
  st.tBranch e (tWord 0x37 (fmtBR s t 0 target.toNat)) target.toNat fun x => decide (x.int s < x.int t)

/-- BGE. -/
def execTBge (e : TolekEngine) (s t : VReg) (target : BitVec 12) (st : State) : Out :=
  st.tBranch e (tWord 0x38 (fmtBR s t 0 target.toNat)) target.toNat fun x => decide (x.int t ≤ x.int s)

/-- BBS. -/
def execTBbs (e : TolekEngine) (s : VReg) (bit : Fin 32) (target : BitVec 12) (st : State) : Out :=
  st.tBranch e (tWord 0x39 (fmtBR s 0 bit target.toNat)) target.toNat fun x => (x.val s).getLsbD bit

/-- BBC. -/
def execTBbc (e : TolekEngine) (s : VReg) (bit : Fin 32) (target : BitVec 12) (st : State) : Out :=
  st.tBranch e (tWord 0x3A (fmtBR s 0 bit target.toNat)) target.toNat fun x => !(x.val s).getLsbD bit

/-- LOOP: a third loop is an internal fault, as is a count of 0, which no legal word has (R296, R318). -/
def execTLoop (e : TolekEngine) (count : BitVec 8) (last : BitVec 12) (st : State) : Out :=
  st.on fun c => c.tRun e (tWord 0x3B (fmtLP count.toNat last.toNat)) 1 fun c =>
    let t := c.tolek e
    if t.loops.length < 2 ∧ count ≠ 0 then
      (c.setTolek e { t with loops := ⟨t.pc + 1, last.toNat, count.toNat - 1, t.calls.length⟩ :: t.loops, pc := t.pc + 1 }).tCheckEnd e
    else c.engineFault e

/-- CALL: a fifth return address is an internal fault (R296). -/
def execTCall (e : TolekEngine) (target : BitVec 12) (st : State) : Out :=
  st.on fun c => c.tRun e (tWord 0x3C (fmtJ target.toNat)) 2 fun c =>
    let t := c.tolek e
    if t.calls.length < 4 then c.setTolek e { t with calls := (t.pc + 1) :: t.calls, pc := target.toNat }
    else c.engineFault e

/-- RET: loops that the routine began and did not end are gone (log entry 132, DEDUCED); with no CALL outstanding an internal fault (R319). -/
def execTRet (e : TolekEngine) (st : State) : Out :=
  st.on fun c => c.tRun e (tWord 0x3D 0) 2 fun c =>
    let t := c.tolek e
    match t.calls with
    | r :: rest => (c.setTolek e (TolekRec.arrive { t with calls := rest, loops := t.loops.dropWhile fun fr => decide (rest.length < fr.depth) } r)).tCheckEnd e
    | [] => c.engineFault e

/-- END: the run ends, both stacks are cleared, the signature is formed (R319, R418). -/
def execTEnd (e : TolekEngine) (st : State) : Out :=
  st.on fun c => c.tRun e (tWord 0x3E 0) 1 fun c =>
    let t := c.tolek e
    c.setTolek e { t with running := false, ended := true, calls := [], loops := [], sign := t.signature }

/-- INTERNAL_FAULT: parity, or a word that is not legal (R296). -/
def execInternalFault (e : TolekEngine) (st : State) : Out := st.on fun c => c.engineFault e

end Sys2Proof.Machine
end

