-- ==== Sys2Proof/Machine/Pair.lean ====
section
/-! DEFINITION. Engine pairs: roles and modes, the tick of a pair (R297 to R303, R322, R323), the output gate with its heartbeat decision
and comparison (R417 to R429), tests and role swaps (R423, R430 to R432). -/

namespace Sys2Proof.Machine

/-! ### Roles and modes -/

def evenEng (q : Nat) : Nat := 2 * q
def oddEng (q : Nat) : Nat := 2 * q + 1

/-- ACTIVE or STANDBY: a committing engine (R298). -/
def TolekRec.commits (t : TolekRec) : Bool := t.role == 1 || t.role == 2

/-- The committing engines of a pair. -/
def Chip.committing (c : Chip) (q : Nat) : List Nat := [evenEng q, oddEng q].filter (fun e => (c.tolek e).commits)

/-- The ACTIVE engine. -/
def Chip.activeEng (c : Chip) (q : Nat) : Option Nat := [evenEng q, oddEng q].find? (fun e => (c.tolek e).role == 1)

/-- The other engine of the pair of `e`. -/
def otherEng (e : Nat) : Nat := if e % 2 = 0 then e + 1 else e - 1

/-- Mode of a pair (R419): 0 DUAL, 1 SINGLE, 2 COPYING, 3 NONE. -/
def Chip.pairMode (c : Chip) (q : Nat) : Nat :=
  match c.committing q with
  | [] => 3
  | [e] => if (c.tolek (otherEng e)).role = 3 then 2 else 1
  | _ => 0

def Chip.setRole (c : Chip) (e r : Nat) : Chip := c.setTolek e { c.tolek e with role := r }

/-- Number of gated ports (R417). -/
def gatedPorts (q : Nat) : Nat := if isLoopPair q then 8 else 10

/-- What the gate presents on a port: 0 while the pair does not run (Table 7.15); under the park sequencer nothing passes (Table 10.4). -/
def Chip.gateOut (c : Chip) (q port : Nat) : Q :=
  if c.flag (LE_PAIR_CTRL_RUN q) && !c.flag WMM_PS_STATUS_ACTED then Cells.get (fun _ => 0) (c.pair q).gate port else 0

/-! ### Tests (R423) -/

/-- The watermaster has engine `e` tested. -/
def Chip.startTest (c : Chip) (e : Nat) : Chip :=
  let q := pairOf e
  (c.setPair q { c.pair q with testing := some e }).journal actTest e

/-- A state copy to engine `e`: it becomes LOADING (R421). -/
def Chip.startCopy (c : Chip) (e : Nat) : Chip := c.setRole e 3

/-- STATE_COPY_DONE: at the first tick after the copy the receiving engine joins as STANDBY, in lockstep with the ACTIVE one (R421). -/
def execStateCopyDone (q : Pair) (s : State) : Out :=
  s.on fun c => c.when (c.pairMode q == 2 && (c.pair q).shadow.isNone) fun c =>
    match c.activeEng q with
    | none => c
    | some a =>
      let t := c.tolek a
      let r := c.tolek (otherEng a)
      c.setTolek (otherEng a)
        { r with ctx := t.ctx, saved := t.saved, pc := t.pc, calls := t.calls, loops := t.loops, running := t.running, ended := t.ended,
                 units := t.units, sat := t.sat, outs := t.outs, written := t.written, last := t.last, stores := t.stores,
                 sign := t.sign, role := 2, missFab := 0, missWire := 0 }

/-- ENGINE_TEST_DONE: a pass lets the engine rejoin through a state copy, a failure leaves it in FAULT (R423). -/
def execEngineTestDone (e : TolekEngine) (pass : Bool) (s : State) : Out :=
  s.on fun c =>
    let q := pairOf e
    c.when ((c.pair q).testing == some e.val) fun c =>
      let p := c.pair q
      if pass then
        let c := c.setPair q { p with testing := none, lasting := p.lasting.map (fun l => (l.1, l.2.1, l.2.2 || l.2.1 == e.val)) }
        let c := c.mark (WMM_PAIR_EVENT_TEST_PASS q)
        let c := c.setTolek e { c.tolek e with fault := false, missFab := 0, missWire := 0 }
        if c.pairMode q = 3 then c.setRole e 0 else c.startCopy e
      else
        (((c.setPair q { p with testing := none }).mark (WMM_PAIR_EVENT_TEST_FAIL q)).setRole e 4).log 0x0604 .m [q, e]

/-- A FAULT engine is tested again (R423). -/
def Chip.retest (c : Chip) (q : Nat) : Chip :=
  c.when ((c.pair q).testing.isNone) fun c =>
    match [evenEng q, oddEng q].find? (fun e => (c.tolek e).role == 4) with
    | some e => c.startTest e
    | none => c

/-- RETEST. -/
def execRetest (q : Pair) (s : State) : Out := s.on fun c => c.retest q

/-! ### Role swaps (R430 to R432) -/

/-- SWAP_DUE: the scheduled time comes while SWAP_EN is 1 (R430). -/
def execSwapDue (q : Pair) (s : State) : Out :=
  s.on fun c => c.when (c.flag (WMM_PAIR_CTRL_SWAP_EN q)) fun c => (c.setPair q { c.pair q with swap := true }).journal actSwap q

/-- PAIR_SWAP_NOW (R432). -/
def execPairSwapNow (q : Pair) (s : State) : Out :=
  s.on fun c => (c.setPair q { c.pair q with swap := true }).journal actSwap q

/-- SWAP_SKIPPED: 1 s of retries has passed (R431). -/
def execSwapSkipped (q : Pair) (s : State) : Out :=
  s.on fun c => c.when (c.pair q).swap fun c =>
    ((c.setPair q { c.pair q with swap := false }).mark (WMM_PAIR_EVENT_SWAP_SKIPPED q)).inc (WMM_PAIR_SKIPS_COUNT q)

/-- The swap takes effect: the outputs are equal, the roles change (R431). -/
def Chip.swapRoles (c : Chip) (q : Nat) : Chip :=
  let r0 := (c.tolek (evenEng q)).role
  let r1 := (c.tolek (oddEng q)).role
  let c := (c.setRole (evenEng q) r1).setRole (oddEng q) r0
  (c.setPair q { c.pair q with swap := false }).inc (WMM_PAIR_SWAPS_COUNT q)

/-! ### Heartbeats (R424 to R429) -/

/-- A path fault holds: missing at two ticks in a row on one path, present on the other (R426). -/
def pathFault (t : TolekRec) : Option Nat :=
  if 2 ≤ t.missFab ∧ t.missWire = 0 then some 0 else if 2 ≤ t.missWire ∧ t.missFab = 0 then some 1 else none

/-- Count heartbeats of engine `e` at a tick; a path fault that begins is reported once. -/
def Chip.heard (c : Chip) (q e : Nat) (fab wire : Bool) : Chip :=
  let t := c.tolek e
  if t.commits || t.role == 3 then
    let t' := { t with missFab := if fab then 0 else t.missFab + 1, missWire := if wire then 0 else t.missWire + 1 }
    let c := c.setTolek e t'
    match pathFault t' with
    | none => c
    | some k =>
      if pathFault t = some k then c
      else ((c.mark (WMM_PAIR_EVENT_PATH_FAULT q)).inc (WMM_PAIR_PATH_FAULTS_COUNT q)).log 0x0606 .m [0, q, k]
  else c

/-- Engine `e` is declared failed at this tick (R425). -/
def TolekRec.declared (t : TolekRec) : Bool := t.fault || (t.commits || t.role == 3) && decide (2 ≤ t.missFab ∧ 2 ≤ t.missWire)

/-- Take engine `e` out (R425): event bit, role FAULT after an internal fault, else OFFLINE. -/
def Chip.declareFailed (c : Chip) (q e : Nat) : Chip :=
  let t := c.tolek e
  let c := c.mark (if t.fault then WMM_PAIR_EVENT_INTERNAL_FAULT q else WMM_PAIR_EVENT_HEARTBEAT_LOST q)
  c.setTolek e { t with role := if t.fault then 4 else 0, running := false, fault := false }

/-- After a switch-over the STANDBY engine is ACTIVE and the overruns of the failed one no longer count in CONSEC (R427). -/
def Chip.switchover (c : Chip) (q e : Nat) : Chip :=
  let c := ((c.setRole e 1).setFld (LE_PAIR_STATUS_CONSEC q) 0).mark (WMM_PAIR_EVENT_SWITCHOVER q)
  (c.inc (WMM_PAIR_SWITCHOVERS_COUNT q)).log 0x0605 .m [q, e]

/-- The heartbeat decision of the gate at a tick (R425 to R429), before the commit decision. A failed engine is tested, a swap, a copy
and a shadow run end; a pair whose last committing engine fails is lost, its outputs held for 2 periods. -/
def Chip.heartbeats (c : Chip) (q : Nat) (t : TickIn) : Chip :=
  let c := (c.heard q (evenEng q) t.fab0 t.wire0).heard q (oddEng q) t.fab1 t.wire1
  let failed := [evenEng q, oddEng q].filter (fun e => (c.tolek e).declared)
  if failed.isEmpty then c else
  let c := failed.foldl (fun c e => c.declareFailed q e) c
  let c := c.setPair q { c.pair q with swap := false, first := false, shadow := none }
  match c.committing q with
  | [] =>
    if (c.pair q).lost.isNone then
      (c.setPair q { c.pair q with lost := some 2, testing := none }).mark (WMM_PAIR_EVENT_PAIR_LOST q)
    else c
  | e :: _ =>
    let c := if (c.activeEng q).isNone then c.switchover q e else c
    failed.foldl (fun c e => c.startTest e) c

/-! ### Commit and comparison (R298 to R300, R417 to R422, R330) -/

/-- The last committed outputs with the ports written in the run over them (R298). -/
def TolekRec.commitOuts (t : TolekRec) : TolekRec :=
  { t with last := t.written.foldl (fun m k => Cells.put (fun _ => 0) m k (Cells.get (fun _ => 0) t.outs k)) t.last }

/-- Latch the snapshot registers of engine `e` (R330). -/
def Chip.snapshot (c : Chip) (e : Nat) : Chip :=
  if c.flag (LE_SNAP_HOLD e) then c else
  let t := c.tolek e
  let c := (List.range 16).foldl (fun c i => c.setFld (LE_V_VALUE e i) (t.val i).toNat) c
  let c := (List.range 4).foldl (fun c i => c.setFld (LE_A_VALUE e i) (Cells.get (fun _ => 0) t.ctx.a i : BitVec 64).toNat) c
  let c := c.setFld (LE_HFLAGS_H e) ((List.range 4).foldl (fun a i => a + holdCode (t.hold i) * 4 ^ i) 0)
  let c := (List.range 16).foldl (fun c i => c.setFld (LE_OUT_VALUE e i) (Cells.get (fun _ => 0) t.last i : Q).toNat) c
  c.wrapInc (LE_SNAP_SEQ e)

/-- What one engine shows of its committed run. -/
def Chip.commitEngine (c : Chip) (e slack : Nat) : Chip :=
  let t := (c.tolek e).commitOuts
  let c := c.setTolek e t
  let c := c.setFld (LE_LAST_UNITS_UNITS e) t.units
  let c := c.setFld (LE_LAST_UNITS_PEAK e) (max (c.fld (LE_LAST_UNITS_PEAK e)) (t.units % 65536))
  let c := c.setFld (LE_SLACK_MIN_SLACK e) (min (c.fld (LE_SLACK_MIN_SLACK e)) (min slack 65535))
  c.snapshot e

/-- Two engines differ in a gated output or in the signature (R419). -/
def Chip.mismatch (c : Chip) (q : Nat) : Bool :=
  let x := c.tolek (evenEng q)
  let y := c.tolek (oddEng q)
  x.sign != y.sign ||
    (List.range (gatedPorts q)).any (fun k => (Cells.get (fun _ => 0) x.last k : Q) != Cells.get (fun _ => 0) y.last k)

/-- The gate presents the ACTIVE engine's gated outputs. -/
def Chip.present (c : Chip) (q : Nat) : Chip :=
  match c.activeEng q with
  | none => c
  | some a => c.setPair q { c.pair q with gate := (c.tolek a).last.filter (fun o => o.1 < gatedPorts q), held := false }

/-- A lasting mismatch: the roles change and the former ACTIVE engine is tested, or, at the second within 3,600 s of a first whose engine
passed its test, the STANDBY engine is (R422). -/
def Chip.lastingMismatch (c : Chip) (q a : Nat) : Chip :=
  let t := c.now.toNat
  let second := match (c.pair q).lasting with
    | some (t0, _, true) => decide (t ≤ t0 + 3600 * 10 ^ 9)
    | _ => false
  let out := if second then otherEng a else a
  let c := if second then c else c.setRole (otherEng a) 1
  let c := c.setTolek out { c.tolek out with role := 0, running := false }
  let c := c.setPair q { c.pair q with first := false, swap := false, lasting := if second then none else some (t, out, false) }
  let c := ((c.mark (WMM_PAIR_EVENT_LASTING q)).inc (WMM_PAIR_LASTING_COUNT q)).log 0x0603 .m [q, out]
  c.startTest out

/-- The comparison of a DUAL pair, and a role swap where one is asked for and all its conditions hold (R420, R422, R431). -/
def Chip.compare (c : Chip) (q : Nat) : Chip :=
  match c.activeEng q with
  | none => c
  | some a =>
    let p := c.pair q
    if c.mismatch q then
      if p.first then c.lastingMismatch q a
      else
        let c := c.setPair q { p with first := true, swap := false }
        let c := (c.setFld (WMM_PAIR_MISMATCH_TIME_TIME q) c.now.toNat).log 0x0601 .m [q, a]
        c.startCopy (otherEng a)
    else
      let c := if p.first then
          (((c.setPair q { p with first := false }).mark (WMM_PAIR_EVENT_TRANSIENT q)).inc (WMM_PAIR_TRANSIENTS_COUNT q)).log
            0x0602 .m [q]
        else c
      if p.swap ∧ p.testing.isNone ∧ c.fld (LE_PAIR_STATUS_CONSEC q) = 0 then c.swapRoles q else c

/-- A period commits (R298). -/
def Chip.commitPeriod (c : Chip) (q : Nat) (t : TickIn) : Chip :=
  let es := c.committing q
  let dual := decide (es.length = 2)
  let sat := es.any (fun e => (c.tolek e).sat)
  let c := es.foldl (fun c e => c.commitEngine e (if e % 2 = 0 then t.slack0 else t.slack1)) c
  let p := c.pair q
  let c := c.setPair q { p with period := p.period + 1, taken := false }
  let c := c.setFld (LE_PAIR_STATUS_CONSEC q) 0
  let c := c.setFld (LE_PAIR_STATUS_ENTRY q) p.entry
  let c := c.inc (LE_COMMITS_COUNT q)
  let c := if sat then c.inc (LE_SAT_PERIODS_COUNT q) else c
  let c := if p.switched then c.inc (LE_BANK_SWITCHES_COUNT q) else c
  let c := match c.activeEng q with
    | some a => c.setFld (LE_REGION_BANK q) (c.tolek a).ctx.bank
    | none => c
  let c := c.present q
  -- a copy in progress receives every commit (R421)
  if dual then (c.compare q).present q else c

/-- An overrun (R299, R300); the answer also says whether the pair reports an escalation. -/
def Chip.overrunPeriod (c : Chip) (q : Nat) : Chip × Bool :=
  let c := (c.committing q).foldl (fun c e =>
    let t := c.tolek e
    c.setTolek e { t with ctx := t.saved, running := false }) c
  let c := c.setPair q { c.pair q with held := true }
  let c := (c.mark (LE_PAIR_EVENT_OVERRUN q)).inc (LE_OVERRUNS_COUNT q)
  let c := c.inc (LE_PAIR_STATUS_CONSEC q)
  if c.fld (LE_PAIR_CTRL_OVERRUN_MAX q) ≤ c.fld (LE_PAIR_STATUS_CONSEC q) then
    ((c.mark (LE_PAIR_EVENT_ESCALATED q)).inc (LE_ESCALATIONS_COUNT q), true)
  else (c, false)

/-! ### Start of a period (R297, R303, R304, R322, R323) -/

/-- Apply the parameter writes, unless they are held (R303). -/
def Chip.applyParams (c : Chip) (q : Nat) : Chip :=
  if c.flag (LE_PAIR_CTRL_PARAM_HOLD q) then c else
  let p := c.pair q
  let c := p.params.foldl (fun c x => c.setFld (LE_PARAM_VALUE q x.1) x.2.toNat) c
  c.setPair q { c.pair q with params := [] }

/-- Deliver a command: the one of an overrun again, else the oldest of the queue (R299, R304). -/
def Chip.takeCommand (c : Chip) (q : Nat) : Chip :=
  let p := c.pair q
  if p.taken then c else
  match p.cmds with
  | x :: rest => c.setPair q { p with cmd := x, cmds := rest, taken := true }
  | [] => c.setPair q { p with cmd := (0, 0) }

/-- Rescale accumulator `j` between two banks (R323). -/
def Chip.rescale (c : Chip) (e j : Nat) (old new : Nat) : Chip :=
  let t := c.tolek e
  match t.bump.getD j none with
  | none => c
  | some g =>
    let kold := (t.coef old g).toInt
    let knew := (t.coef new g).toInt
    if knew = 0 then c.mark (LE_ENG_EVENT_RESCALE_ZERO e)
    else if kold = 0 then c.setTolek e (t.setAcc j 0)
    else c.setTolek e (t.setAcc j (rndDiv (t.acc j * kold) knew))

/-- Engine `e` begins a run: its state is kept for an overrun, the bank is switched, the entry is selected (R297). -/
def Chip.beginRun (c : Chip) (e bank entry : Nat) (rescales : Bool) : Chip :=
  let t := c.tolek e
  let old := t.ctx.bank
  let c := c.setTolek e
    { t with saved := t.ctx, ctx := { t.ctx with bank := bank }, pc := (t.entries.getD entry none).getD 0, calls := [], loops := [],
             running := true, ended := false, units := 0, sat := false, outs := [], written := [], stores := [] }
  if rescales ∧ old ≠ bank then (List.range 4).foldl (fun c j => c.rescale e j old bank) c else c

/-- The region index and its bank, as latched at the tick (R322). -/
def Chip.regionBank (c : Chip) (q e : Nat) : Nat :=
  Cells.get (fun _ => 0) (c.tolek e).rtab
    (40 * c.fld (LE_REGION_BAND q) + 4 * c.fld (LE_REGION_LAYER q) + c.fld (LE_REGION_SPEED q))

/-- Steps 1 to 4 of R297 for a pair that runs. A pair just loaded takes the region's bank without a rescale (R295). -/
def Chip.beginPeriod (c : Chip) (q : Nat) : Chip :=
  let c := (c.applyParams q).takeCommand q
  let es := c.committing q
  match es with
  | [] => c.setPair q { c.pair q with hasRun := false }
  | e0 :: _ =>
    let p := c.pair q
    let bank := c.regionBank q e0
    let fresh := decide (p.period = 0)
    let switched := !fresh && decide ((c.tolek e0).ctx.bank ≠ bank)
    let entry := c.fld (LE_PAIR_CTRL_ENTRY q)
    let c := c.setPair q
      { p with switched := switched, entry := entry, hasRun := true, delivered := false,
               inputs := Cells.put (fun _ => 0) p.inputs 27 (BitVec.ofNat 32 (c.reg (LE_REGION q)).toNat) }
    es.foldl (fun c e => c.beginRun e bank entry (!fresh)) c

/-- The run of engine `e` has reached END: by its END instruction, or, under a resident program, whose instructions the spec does not
list, when the tick finds time since END (`slack`, log entry 11). -/
def Chip.atEnd (c : Chip) (q e : Nat) (t : TickIn) : Bool :=
  (c.tolek e).ended || (c.pair q).resident && decide (0 < (if e % 2 = 0 then t.slack0 else t.slack1))

/-- A pair that is lost presents its last outputs for 2 periods and then 0 (R429). -/
def Chip.lostTick (c : Chip) (q : Nat) : Chip :=
  match (c.pair q).lost with
  | none => c
  | some 0 => c.setPair q { c.pair q with gate := [], held := false }
  | some (n + 1) => c.setPair q { c.pair q with lost := some n, held := true }

/-- The tick of a pair (R297 to R300, R417 to R429). `resident` is what the resident program does in the period that commits. The answer
says whether an escalation is reported. -/
def Chip.pairTick (c : Chip) (q : Nat) (t : TickIn) (resident : Chip → Chip) : Chip × Bool :=
  if c.flag (LE_PAIR_CTRL_RUN q) then
    let c := c.heartbeats q t
    let es := c.committing q
    if es.isEmpty then (c.lostTick q, false) else
    let r :=
      if (c.pair q).hasRun then
        if es.all (fun e => c.atEnd q e t) then ((if (c.pair q).resident then resident c else c).commitPeriod q t, false)
        else c.overrunPeriod q
      else (c, false)
    (r.1.beginPeriod q, r.2)
  else (c, false)

/-- Give the committing engines of a pair the outputs of the resident program; ports that its run wrote by OUT keep that value. -/
def Chip.residentOut (c : Chip) (q port : Nat) (x : Q) : Chip :=
  (c.committing q).foldl (fun c e =>
    let t := c.tolek e
    if port ∈ t.written then c
    else c.setTolek e { t with outs := Cells.put (fun _ => 0) t.outs port x, written := port :: t.written }) c

/-! ### Commands and parameters -/

/-- Push a command; into a full queue it is lost (R304). -/
def Chip.pushCmd (c : Chip) (q : Nat) (v arg : Q) : Chip :=
  let p := c.pair q
  if p.cmds.length < 4 then c.setPair q { p with cmds := p.cmds ++ [(v, arg)] } else c.mark (LE_PAIR_EVENT_CMD_LOST q)

/-- LE_CMD: pushed with LE_CMD_ARG at that moment (R304). -/
def execLeCmd (q : Pair) (v : Q) (s : State) : Out :=
  s.on fun c => c.pushCmd q v (BitVec.ofNat 32 (c.fld (LE_CMD_ARG_ARG q)))

/-- A parameter write waits for the tick; the last one to a word is applied (R303). -/
def Chip.writeParam (c : Chip) (q i : Nat) (v : Q) : Chip :=
  let p := c.pair q
  c.setPair q { p with params := p.params.filter (fun x => x.1 != i) ++ [(i, v)] }

/-- LE_PARAM_WRITE. -/
def execLeParamWrite (q : Pair) (i : Fin 256) (v : Q) (s : State) : Out := s.on fun c => c.writeParam q i v

/-- A change of ENTRY (R301): refused where the image does not declare the entry. -/
def Chip.writeEntry (c : Chip) (q entry : Nat) : Chip :=
  let declared := [evenEng q, oddEng q].any (fun e => ((c.tolek e).entries.getD entry none).isSome)
  if declared then (c.setFld (LE_PAIR_CTRL_ENTRY q) entry).journal actEntry q else c.mark (LE_PAIR_EVENT_ENTRY_REFUSED q)

end Sys2Proof.Machine
end

