-- ==== Sys2Proof/Machine/Zone.lean ====
section
/-! DEFINITION. Zone table entries: their bytes (Table 4.8), the factory seeds (Table 4.9), their places (R196). -/

namespace Sys2Proof.Machine

/-- Buffer offset of a zone entry: volume, layer, zone, beam (R196; the order is the model's own, log entry 19). -/
def zoneAddr (v layer zone beam : Nat) : Nat := 3 * 2 ^ 20 + 64 * (8 * ((10 * v + layer) * 64 + zone) + beam)

/-- The layer of an entry's place. -/
def entryLayer (a : Nat) : Nat := (a - 3 * 2 ^ 20) / 64 / 512 % 10

/-- The factory seeds (Table 4.9). -/
def factoryEntry : ZEntry :=
  { learned := false, factory := true, count := 0, gain := 0x18, corner := 0x0F, boost := 0, offset := 0, dgain := 0x4000, baseline := 0,
    asym := 0, taps := [0, 0, 0, 0, 0, 0, 64, -128, 1024, -128, 64, 0, 0, 0, 0, 0, 0], xin := [0, 0, 0, 0, 0], xout := [0, 0, 0, 0, 0],
    amp := 0x0400, mse := 0x0100, levelRef := 0x2000 }

/-- A signed quantity in `n` bytes. -/
def leInt (n : Nat) (x : Int) : List Byte := leBytes n (bitsOfInt (8 * n) x)

/-- The 64 bytes of an entry. -/
def ZEntry.bytes (e : ZEntry) : List Byte :=
  leBytes 1 (e.learned.toNat + 2 * e.factory.toNat) ++ leBytes 1 e.count ++ leBytes 1 e.gain ++ leBytes 1 e.corner ++ leBytes 1 e.boost ++
    leBytes 1 e.offset ++ leBytes 2 e.dgain.toNat ++ leInt 2 e.baseline ++ leInt 2 e.asym ++
    (List.range 17).flatMap (fun i => leInt 2 (e.taps.getD i 0)) ++ (List.range 5).flatMap (fun i => leInt 1 (e.xin.getD i 0)) ++
    (List.range 5).flatMap (fun i => leInt 1 (e.xout.getD i 0)) ++ leBytes 2 e.amp.toNat ++ leBytes 2 e.mse.toNat ++ leBytes 2 e.levelRef.toNat ++ [0, 0]

/-- The entry that 64 bytes hold. -/
def entryOf (bs : List Byte) : ZEntry :=
  let u := fun i n => ofLeBytes ((bs.drop i).take n)
  let s := fun i n => signedOf (8 * n) (u i n)
  { learned := (u 0 1).testBit 0, factory := (u 0 1).testBit 1, count := u 1 1, gain := u 2 1, corner := u 3 1, boost := u 4 1,
    offset := u 5 1, dgain := u 6 2, baseline := s 8 2, asym := s 10 2, taps := (List.range 17).map (fun i => s (12 + 2 * i) 2),
    xin := (List.range 5).map (fun i => s (46 + i) 1), xout := (List.range 5).map (fun i => s (51 + i) 1), amp := u 56 2, mse := u 58 2,
    levelRef := u 60 2 }

/-- The zone whose entry a slot uses (R196): management and guard slots zone 0, lead-out slots zone 63. -/
def entryZone (slot : Nat) : Nat := if slot < 16640 then 0 else (slotZone slot).getD 63

end Sys2Proof.Machine
end

