-- ==== Sys2Proof/Machine/Media.lean ====
section
/-! DEFINITION. What reading, recording and the stations share: states of stations and volumes, defect lists and spare slots, the staged-write
list and what waits for it (R488, R558, R560), block headers (R237), and the ends of retry sequences and passes that other units cause. -/

namespace Sys2Proof.Machine

/-! ### States and causes -/

def sEmpty : Nat := 0
def sLoaded : Nat := 1
def sSpinup : Nat := 2
def sQualify : Nat := 3
def sMounted : Nat := 4
def sParking : Nat := 5
def sSafe : Nat := 6
def sFault : Nat := 7

def cauClamp : Nat := 1
def cauUnclamp : Nat := 2
def cauDiscLost : Nat := 3
def cauMount : Nat := 4
def cauAtSpeed : Nat := 5
def cauMounted : Nat := 6
def cauMountFailed : Nat := 7
def cauMountEnded : Nat := 8
def cauUnmount : Nat := 9
def cauHostPark : Nat := 10
def cauLibraryPark : Nat := 11
def cauThermal : Nat := 12
def cauLinkLost : Nat := 13
def cauEscalation : Nat := 14
def cauServoLost : Nat := 15
def cauPllFail : Nat := 16
def cauSpindle : Nat := 17
def cauStationReset : Nat := 18

def vNotMounted : Nat := 0
def vQualifying : Nat := 1
def vMountedRead : Nat := 2
def vMountedWrite : Nat := 3
def vUnmounting : Nat := 4

/-- Outcomes of blocks (Table 5.3). -/
def ouClean : Nat := 0
def ouRecovered : Nat := 1
def ouTransient : Nat := 2
def ouUnreadable : Nat := 3
def ouBlank : Nat := 4
def ouAbandoned : Nat := 5
def ouStationLost : Nat := 6
def ouUnretried : Nat := 7

def Chip.stState (c : Chip) (s : Nat) : Nat := c.fld (WMM_STN_STATE_STATE s)
def Chip.volState (c : Chip) (p : Nat) : Nat := c.fld (WMM_STN_PU_VOLUME_STATE (p / 2) (p % 2))

/-- No command reaches a station: the Flume is down (R49), or the sampling PLL has failed (R131). -/
def Chip.stationsOut (c : Chip) : Bool := !c.flag FLM_STATUS_UP || c.afe.failed

/-- A volume is mounted for reading or writing. -/
def Chip.mounted (c : Chip) (p : Nat) : Bool := c.volState p == vMountedRead || c.volState p == vMountedWrite

/-- A volume is mounted for writing; during the commands and the update that its UNMOUNT waits for it still counts so (log entry 30). -/
def Chip.forWriting (c : Chip) (p : Nat) : Bool := c.volState p == vMountedWrite || (c.volState p == vUnmounting && (c.vol p).writing)

/-- What a write-degraded pickup holds is not recorded: no pass runs and no result is to come (R286). -/
def Chip.heldUp (c : Chip) (p : Nat) : Bool := c.writeDegraded p && (c.wch p).pass.isNone && (c.wch p).results.isEmpty

/-- The pickup whose mounted volume is a disc side. -/
def Chip.pickupOf (c : Chip) (disc : Nat × Nat) : Option Nat :=
  (List.range 16).find? (fun p => c.volState p != vNotMounted && c.volState p != vQualifying && c.discOf p == disc)

/-- A layer cannot be used in this mount (R362). -/
def Chip.layerUnusable (c : Chip) (p layer : Nat) : Bool :=
  (c.reg (WMM_STN_PU (p / 2) (p % 2))).getLsbD (20 + layer)

/-! ### Defect lists and spare areas (R106 to R112) -/

/-- The in-memory entry of a home PBA. -/
def Chip.defectOf (c : Chip) (p home : Nat) : Option Defect :=
  let l := (c.vol p).layer (pbaLayer home)
  (l.defects ++ l.unrecorded).find? (fun d => d.home == home)

def Chip.updLayer (c : Chip) (p layer : Nat) (f : LayerRec → LayerRec) : Chip :=
  let v := c.vol p
  c.setVol p (v.setLayer layer (f (v.layer layer)))

/-- Make or replace the entry of a home PBA; into a full list it is kept in memory only (R111, R112). -/
def Chip.putDefect (c : Chip) (p : Nat) (d : Defect) : Chip :=
  c.updLayer p (pbaLayer d.home) fun l =>
    if l.defects.any (fun x => x.home == d.home) then
      { l with defects := l.defects.map (fun x => if x.home = d.home then d else x), dirty := true }
    else if l.unrecorded.any (fun x => x.home == d.home) then
      { l with unrecorded := l.unrecorded.map (fun x => if x.home = d.home then d else x) }
    else if l.defects.length < 11776 then
      { l with defects := (l.defects.filter (fun x => x.home < d.home)) ++ d :: l.defects.filter (fun x => d.home < x.home),
               dirty := true, dlFull := l.dlFull || l.defects.length + 1 == 11776 }
    else { l with unrecorded := l.unrecorded ++ [d], dlFull := true }

/-- A layer's list takes no further entry. -/
def Chip.listFull (c : Chip) (p layer : Nat) : Bool := decide (11776 ≤ (((c.vol p).layer layer).defects).length)

/-- Zones by distance from `z`, the lower first of two equally near (R106). -/
def zonesFrom (z : Nat) : List Nat :=
  z :: (List.range 64).flatMap (fun i => (if i + 1 ≤ z then [z - (i + 1)] else []) ++ (if z + i + 1 < 64 then [z + i + 1] else []))

/-- Spare fill of a zone and furrow. -/
def LayerRec.fill (l : LayerRec) (z f : Nat) : Nat := Cells.get (fun _ => 0) l.fills (8 * z + f)

/-- Assign the next spare slot for a home PBA: its PBA (R106). -/
def Chip.assignSpare (c : Chip) (p home : Nat) : Option Nat × Chip :=
  let layer := pbaLayer home
  let f := pbaFurrow home
  let l := (c.vol p).layer layer
  match (zonesFrom ((slotZone (pbaSlot home)).getD 0)).find? (fun z => decide (l.fill z f < 256)) with
  | none => (none, c)
  | some z =>
    let n := l.fill z f
    (some (mkPba (pbaSide home) layer f (spareBase z + n)),
      c.updLayer p layer fun l => { l with fills := Cells.put (fun _ => 0) l.fills (8 * z + f) (n + 1), dirty := true })

/-! ### The staged-write list (R488, R557 to R560) -/

def Chip.setStaged (c : Chip) (es : List Staged) : Chip := { c with buf := { c.buf with staged := es } }

def Chip.updStaged (c : Chip) (seq : Nat) (f : Staged → Staged) : Chip :=
  c.setStaged (c.buf.staged.map (fun e => if e.seq = seq then f e else e))

/-- The latest staged entry of a block (R559). -/
def Chip.stagedCopy (c : Chip) (p lba : Nat) : Option Staged :=
  ((c.stagedOf (c.discOf p)).filter (fun e => e.lba == lba)).getLast?

/-- Release an entry: its slot and its place in the list are free (R560); drains that wait for it go on. -/
def Chip.dropStaged (c : Chip) (seq : Nat) : Chip :=
  let slot := (c.buf.staged.find? (fun e => e.seq == seq)).map (·.slot)
  { c with buf := { c.buf with
      staged := c.buf.staged.filter (fun e => e.seq != seq),
      slotsUsed := c.buf.slotsUsed.filter (fun a => some a != slot),
      drains := (c.buf.drains.map (fun d => (d.1, d.2.filter (· != seq)))).filter (fun d => !d.2.isEmpty) } }

/-- An entry is WRITE_FAILED (R274): a drain does not wait for it. -/
def Chip.failStaged (c : Chip) (seq : Nat) : Chip :=
  let c := c.updStaged seq (fun e => { e with state := 4 })
  { c with buf := { c.buf with
      drains := (c.buf.drains.map (fun d => (d.1, d.2.filter (· != seq)))).filter (fun d => !d.2.isEmpty) } }

/-- A FLUSH completes where its rules let it (R275, R286, R488): `m.ended` holds the status that its management update ended with, while `wait` is
`.drain` until that update ends. -/
def Chip.settleFlush (c : Chip) (m : Cmd) : Chip :=
  let live := c.buf.staged.filter (fun e => m.covered.contains e.seq)
  let ends := fun (e : Staged) => e.state == 4 || (c.pickupOf (e.volumeId, e.side)).any c.heldUp
  let homeless := live.any (fun e => !ends e && !((c.pickupOf (e.volumeId, e.side)).any c.forWriting))
  if homeless then c.finish m.uid stStationFault 0 0 m.count
  else if live.any (fun e => !ends e) ∨ m.wait = .drain then c
  else
    let failed := !live.isEmpty || (m.ended.isSome && m.ended != some stOk)
    let c := live.foldl (fun c e => c.dropStaged e.seq) c
    c.finish m.uid (if failed then (if m.ended = some stStationFault then stStationFault else stMediaFault) else stOk) 0 0 m.count

/-- Every FLUSH that waits is looked at again. -/
def Chip.settleFlushes (c : Chip) : Chip :=
  (c.host.cmds.filter (fun m => m.opcode == opFlush && m.started && m.status.isNone && m.wait != .engine)).foldl (fun c m => c.settleFlush m) c

/-- A volume is written no more in this mount: EN is 0 (R265), and FLUSHes that wait for it are looked at (R488). -/
def Chip.endWriting (c : Chip) (p : Nat) : Chip :=
  if !(c.vol p).writing then c
  else ((c.setVol p { c.vol p with writing := false }).setFld (WCH_CTRL_EN p) 0).settleFlushes

/-- A volume changes state; its write channel's EN follows (R265). -/
def Chip.setVolState (c : Chip) (p v : Nat) : Chip :=
  let c := c.setFld (WMM_STN_PU_VOLUME_STATE (p / 2) (p % 2)) v
  if v = vMountedWrite then (c.setVol p { c.vol p with writing := true }).setFld (WCH_CTRL_EN p) 1
  else if v = vUnmounting then c
  else c.endWriting p

/-! ### The recorded map (R280, R492) -/

def recOfCode (k : Nat) : Rec := if k = 1 then .blank else if k = 3 then .recorded else .unknown
def codeOfRec : Rec → Nat
  | .unknown => 0
  | .blank => 1
  | .pending => 2
  | .recorded => 3

/-- The blocks of a WRITE that ends return to the state they had at its check, its grants and slots are lost (R492). -/
def Chip.undoWrite (c : Chip) (m : Cmd) : Chip :=
  let c := m.restore.foldl (fun c r => c.setRec m.volume r.1 (recOfCode r.2)) c
  let c := { c with buf := { c.buf with slotsUsed := c.buf.slotsUsed.filter (fun a => !(m.slots.contains a)) } }
  c.updCmd m.uid fun m => { m with restore := [], grants := [], slots := [] }

/-! ### Block headers (R236 to R239) -/

/-- The unit that EVENT and BLOCK packets of the buffer controller name (log entry 15). -/
def unitBuf : Nat := 48

/-- BLOCK_HEAD payload (Table 5.4) as eight words. -/
def headWords (home volume lba outcome flags attempts iters : Nat) (time : Word) (request : Nat) : List (BitVec 32) :=
  let bs := leBytes 5 home ++ leBytes 1 volume ++ leBytes 5 lba ++ leBytes 1 outcome ++ leBytes 2 flags ++ leBytes 1 attempts ++
    leBytes 1 iters ++ leBytes 8 time.toNat ++ leBytes 4 request ++ leBytes 4 0
  (List.range 8).map (fun i => BitVec.ofNat 32 (ofLeBytes ((bs.drop (4 * i)).take 4)))

/-- Words of 32 bits of a run of bytes. -/
def words32 (n : Nat) (bs : List Byte) : List (BitVec 32) :=
  (List.range n).map (fun i => BitVec.ofNat 32 (ofLeBytes ((bs.drop (4 * i)).take 4)))

/-- A block of pickup `p` crosses the Flume for a request: its head, with 16 data packets where it is delivered (R237). -/
def Chip.sendHead (c : Chip) (p request home outcome flags attempts iters : Nat) (data : List Byte) : Chip :=
  let tag := request % 65536
  let c := c.flumeReady .toH ⟨7, 0, unitBuf, tag,
    headWords home p ((pbaLba home).getD 0) outcome flags attempts iters c.now request⟩
  if outcome ≤ ouTransient then
    (List.range 16).foldl (fun c i => c.flumeReady .toH ⟨8, 0, unitBuf, tag, words32 64 ((data.drop (256 * i)).take 256)⟩) c
  else c

/-- A request delivers its blocks to the H-die. -/
def ReadReq.delivers (r : ReadReq) : Bool := r.kind == .read || r.kind == .readAhead

/-- A block of pickup `p` has its outcome for the requests that `who` names: they are told, and requests without blocks left are done. -/
def Chip.blockOutcome (c : Chip) (p home outcome flags attempts iters : Nat) (data : List Byte) (who : ReadReq → Bool) : Chip :=
  let f := c.frm p
  let c := (f.reqs.filter (fun r => r.left.contains home && r.delivers && who r)).foldl
    (fun c r => c.sendHead p r.number home (if r.aborted then ouAbandoned else outcome) flags attempts iters data) c
  let f := c.frm p
  c.setFrm p { f with
    reqs := (f.reqs.map (fun r => if who r then { r with left := r.left.filter (· != home) } else r)).filter (fun r => !r.left.isEmpty) }

/-! ### Ends of retry sequences (R243, R248) -/

/-- The fields of a lane that an attempt changes (Table 5.6): ITER_MAX, LEARN_EN, WINDOW, LLR_SCALE. -/
def Chip.attemptFields (c : Chip) (l : Nat) : List Nat :=
  [c.fld (RCH_CTRL_ITER_MAX l), c.fld (RCH_CTRL_LEARN_EN l), c.fld (RCH_LAND_CFG_WINDOW l), c.fld (RCH_DEFECT_CFG_LLR_SCALE l)]

def Chip.setAttemptFields (c : Chip) (l : Nat) (xs : List Nat) : Chip :=
  let c := (c.setFld (RCH_CTRL_ITER_MAX l) (xs.getD 0 0)).setFld (RCH_CTRL_LEARN_EN l) (xs.getD 1 0)
  (c.setFld (RCH_LAND_CFG_WINDOW l) (xs.getD 2 0)).setFld (RCH_DEFECT_CFG_LLR_SCALE l) (xs.getD 3 0)

/-- The lanes' fields are as they were before the sequence (R243). -/
def Chip.restoreAttempt (c : Chip) (p : Nat) (saved : List (List Nat)) : Chip :=
  (List.range saved.length).foldl (fun c k =>
    (c.setAttemptFields (8 * p + k) (saved.getD k [])).setLane (8 * p + k) { c.lane (8 * p + k) with seeds := false }) c

/-- The row of Table 5.6 that an attempt from 2 on follows. -/
def attemptRow (a : Nat) : Nat := (a - 2) % 7 + 2

/-- Restore what the sequence changed, and forget it with its assemblies (R235, R243): RETRY 0 goes to the loop pair (R353). -/
def Chip.dropRetry (c : Chip) (p : Nat) : Chip :=
  match (c.frm p).retry with
  | none => c
  | some r =>
    let c := c.restoreAttempt p r.saved
    let c := c.setFrm p { c.frm p with retry := none, assembly := [], attempt := 1 }
    if 2 ≤ r.attempt ∧ 6 ≤ attemptRow r.attempt then c.pushCmd p 0x08 0 else c

/-- Every request of pickup `p` ends at once with an outcome. -/
def Chip.endReads (c : Chip) (p outcome : Nat) : Chip :=
  let c := c.dropRetry p
  let f := c.frm p
  let c := (f.reqs.filter (·.delivers)).foldl (fun c r => r.left.foldl (fun c h => c.sendHead p r.number h outcome 0 1 0 []) c) c
  c.setFrm p { c.frm p with reqs := [], clusters := [] }

/-- Lanes of a pickup lose their runs (R365 step 1). -/
def Chip.disarmLanes (c : Chip) (p : Nat) : Chip :=
  (List.range 8).foldl (fun c k =>
    let l := c.lane (8 * p + k)
    c.setLane (8 * p + k) { l with next := none, disarm := l.run.isSome }) c

/-! ### Ends of a pass (R267, R268) -/

/-- JUMP −f: the sequencer's offset ends (R348). -/
def Chip.backJump (c : Chip) (p f : Nat) : Chip :=
  (c.pushCmd p (BitVec.ofNat 32 (0x04 + 256 * (256 - f))) 0).setSeqr p { c.seqr p with offset := 0 }

/-- The pass of pickup `p` is over: its lane sends read power, its verify lane leaves verify mode, the lanes' EN bits and the furrow
return (R254, R348, R514). -/
def Chip.closePass (c : Chip) (p : Nat) : Chip :=
  let w := c.wch p
  match w.pass with
  | none => c
  | some a =>
    let c := (c.setFld (WCH_STATUS_PASSING p) 0).setFld (WCH_STATUS_VERIFY_MODE p) 0
    let c := c.setLane (8 * p) { c.lane (8 * p) with verify := false }
    let c := (List.range 8).foldl (fun c k => c.setFld (RCH_CTRL_EN (8 * p + k)) (bitsOf w.lanesEn k 1)) c
    let c := c.setWch p { c.wch p with pass := none, cur := none, symbols := [], framesE := 0, stopAsked := false, underrun := false }
    if a.furrow = 0 then c else c.backJump p a.furrow

/-- A slot has been recorded, whole or cut short; its verify result is to come (R268, R271, R278, R287). -/
def Chip.slotRecorded (c : Chip) (p : Nat) (it : WriteItem) (interrupted : Bool) : Chip :=
  let w := c.wch p
  let c := (c.setWch p { w with cur := none, results := w.results ++ [({ item := it, interrupted := interrupted } : Recorded)] }).inc (WCH_BLOCKS_COUNT p)
  let c := if interrupted then (c.inc (WCH_INTERRUPTED_COUNT p)).mark (WCH_EVENT_INTERRUPTED p) else c
  let c := if it.flags.testBit 0 then c.inc (WCH_PARITY_COUNT p) else c
  if it.flags.testBit 2 then c.inc (WCH_MGMT_BLOCKS_COUNT p)
  else
    let key := accKey p (pbaLayer it.homePba) (slotCluster (pbaSlot it.homePba))
    let f := pbaFurrow it.homePba
    if it.flags.testBit 0 then c.accParity key f else c.accDone key (8 * (slotInZone (pbaSlot it.homePba) % 8) + f)

/-- A pass ends at once: the slot in progress is interrupted and counts as recorded (R268). -/
def Chip.cutPass (c : Chip) (p : Nat) : Chip :=
  let w := c.wch p
  if w.pass.isNone then c else
  let c := c.inc (WCH_STOPS_COUNT p)
  let c := match w.cur with
    | some it => c.slotRecorded p it true
    | none => c
  c.closePass p

/-- A pass that was queued does not start; the furrow returns (R348). -/
def Chip.dropQueuedPass (c : Chip) (p : Nat) : Chip :=
  match (c.wch p).queued with
  | none => c
  | some a =>
    let c := c.setWch p { c.wch p with queued := none }
    if a.furrow = 0 then c else c.backJump p a.furrow

/-- A block is staged again for a spare slot (R246, R272). -/
def Chip.addReloc (c : Chip) (p : Nat) (it : WriteItem) : Chip :=
  ((c.setWch p { c.wch p with relocs := (c.wch p).relocs ++ [it] }).inc (WCH_RELOCATIONS_COUNT p)).mark (WCH_EVENT_RELOCATED p)

end Sys2Proof.Machine
end

