-- ==== Sys2Proof/Machine/Image.lean ====
section
/-! DEFINITION. Program images: the container and its checks (R610, R611), the layouts of payloads (R612), the loader's tests of a Tolek
program (R326, R327), and loading a pair (R295, R613). -/

namespace Sys2Proof.Machine

/-- `n` little-endian bytes at `o` of an image, as a number. -/
def imgNat (img : List Byte) (o n : Nat) : Nat := ofLeBytes ((img.drop o).take n)

/-- Bytes `o` to `o + n − 1` are 0. -/
def imgZero (img : List Byte) (o n : Nat) : Bool := ((img.drop o).take n).all (· == 0)

def asciiBytes (s : String) : List Byte := s.toList.map (fun ch => BitVec.ofNat 8 ch.toNat)

def imgVersion (img : List Byte) : Nat := imgNat img 12 4
def imgSigner (img : List Byte) : Nat := imgNat img 11 1
def imgPayload (img : List Byte) : List Byte := img.drop 512

/-! ### Paths of a Tolek program (R318 to R320, R326, R327) -/

/-- What is known of the paths from an address: worst cost to the end of the body or code, to a RET, and to END, each none where no path
comes there; deepest nesting of loops. -/
structure PathInfo where
  fall : Option Nat
  ret : Option Nat
  fin : Option Nat
  loops : Nat
deriving DecidableEq, Repr

/-- The larger of two costs. -/
def costMax (x y : Option Nat) : Option Nat :=
  match x, y with
  | some a, some b => some (Nat.max a b)
  | some a, none => some a
  | none, b => b

/-- The worse of two. -/
def PathInfo.max (x y : PathInfo) : PathInfo := ⟨costMax x.fall y.fall, costMax x.ret y.ret, costMax x.fin y.fin, Nat.max x.loops y.loops⟩

def pathMax (x y : Option PathInfo) : Option PathInfo := x.bind fun a => y.map a.max

/-- The paths of `x`, and of `y` behind those that come to the end of `x`. -/
def PathInfo.andThen (x : PathInfo) (y : Option PathInfo) : Option PathInfo :=
  match x.fall with
  | none => some x
  | some n => y.map fun b =>
    ⟨b.fall.map (n + ·), costMax x.ret (b.ret.map (n + ·)), costMax x.fin (b.fin.map (n + ·)), Nat.max x.loops b.loops⟩

/-- The paths from address `a`, from those of the addresses after it (`after`, from a + 1 on), of routines (`call`) and of loop bodies. A body
that ends the run does so in the last iteration at worst (R327; log entry 134, DEDUCED). -/
def pathAt (code : Nat → Q) (call : Nat → Option PathInfo) (body : Nat → Nat → Option PathInfo) (a : Nat)
    (after : List (Option PathInfo)) : Option PathInfo :=
  let w := code a
  let op := bitsOf w.toNat 26 6
  let next := after.headD none
  let at_ := fun t => if a < t then after.getD (t - a - 1) none else none
  let cost := ((tRow op).map (·.cost)).getD 0
  let more := fun (x : Option PathInfo) => (PathInfo.mk (some cost) none none 0).andThen x
  if op = 0x3E then some ⟨none, none, some cost, 0⟩
  else if op = 0x3D then some ⟨none, some cost, none, 0⟩
  else if op = 0x34 then more (at_ (bitsOf w.toNat 0 12))
  else if 0x35 ≤ op ∧ op ≤ 0x3A then more (pathMax next (at_ (bitsOf w.toNat 0 12)))
  else if op = 0x3C then
    (call (bitsOf w.toNat 0 12)).bind fun r =>
      PathInfo.andThen ⟨r.ret.map (cost + ·), none, r.fin.map (cost + ·), r.loops⟩ next
  else if op = 0x3B then
    let last := bitsOf w.toNat 0 12
    let count := bitsOf w.toNat 18 8
    (body (a + 1) last).bind fun b =>
      let before := (b.fall.map (fun n => 1 + (count - 1) * (n + 1))).getD 1
      PathInfo.andThen ⟨b.fall.map (fun n => 1 + count * (n + 1)), b.ret.map (before + ·), b.fin.map (before + ·), b.loops + 1⟩ (at_ (last + 1))
  else more next

/-- The paths from `lo` within the addresses up to `hi`; `exit` stands for what running past `hi` means (the end of a body, or no path at all).
`fuel` bounds the nesting of loops. -/
def pathsIn (code : Nat → Q) (call : Nat → Option PathInfo) (exit : Option PathInfo) : Nat → Nat → Nat → Option PathInfo
  | 0, _, _ => none
  | fuel + 1, lo, hi =>
    if hi < lo then none else
    let body := fun l h => if h ≤ hi then pathsIn code call (some ⟨some 0, none, none, 0⟩) fuel l h else none
    ((List.range (hi + 1 - lo)).foldl (fun t i => pathAt code call body (hi - i) t :: t) [exit]).headD none

/-- Paths of a routine from address `a` with calls nested at most `depth` deep below it (R326). -/
def pathsFrom (code : Nat → Q) (size : Nat) : Nat → Nat → Option PathInfo
  | 0, a => if a < size then pathsIn code (fun _ => none) none 3 a (size - 1) else none
  | d + 1, a => if a < size then pathsIn code (pathsFrom code size d) none 3 a (size - 1) else none

/-- The bodies of the loops of a program, as (first, last). -/
def loopBodies (ws : List Q) : List (Nat × Nat) :=
  (List.range ws.length).filterMap fun a =>
    let w := ws.getD a 0
    if bitsOf w.toNat 26 6 = 0x3B then some (a + 1, bitsOf w.toNat 0 12) else none

/-- No branch enters or leaves a loop body, loops nest two deep and inner ones end no later than outer ones, targets are in the code and branches go forward
(R318, R320). -/
def branchesOk (ws : List Q) : Bool :=
  let bodies := loopBodies ws
  let inside := fun (b : Nat × Nat) a => decide (b.1 ≤ a ∧ a ≤ b.2)
  bodies.all (fun b => decide (b.1 ≤ b.2 ∧ b.2 < ws.length) && bodies.all (fun x => !inside b (x.1 - 1) || decide (x.2 ≤ b.2)) &&
    decide ((bodies.filter fun x => inside x (b.1 - 1)).length < 2)) &&
  (List.range ws.length).all fun a =>
    let w := ws.getD a 0
    let op := bitsOf w.toNat 26 6
    let t := bitsOf w.toNat 0 12
    if 0x34 ≤ op ∧ op ≤ 0x3A then decide (a < t ∧ t < ws.length) && bodies.all (fun b => inside b a == inside b t)
    else if op = 0x3C then decide (t < ws.length) else true

/-! ### Tolek payloads -/

/-- Words of a payload from byte `o`. -/
def imgWords (pl : List Byte) (o n : Nat) : List Q := words32 n (pl.drop o)

def tkBanks (pl : List Byte) : Nat := imgNat pl 1 1
def tkCode (pl : List Byte) : Nat := imgNat pl 2 2
def tkData (pl : List Byte) : Nat := imgNat pl 4 2
def tkEntry (pl : List Byte) (i : Nat) : Nat := imgNat pl (8 + 2 * i) 2
def tkCodeWords (pl : List Byte) : List Q := imgWords pl 32 (tkCode pl)
def tkRegionAt (pl : List Byte) : Nat := 32 + 4 * tkCode pl + 4 * tkData pl + 128 * tkBanks pl

/-- Layout of a Tolek payload for a container class (R612). -/
def tolekLayout (cls : Nat) (pl : List Byte) : Bool :=
  decide (pl.length = tkRegionAt pl + 640) && decide (1 ≤ tkBanks pl ∧ tkBanks pl ≤ 64) && decide (1 ≤ tkCode pl ∧ tkCode pl ≤ 4096) &&
  decide (tkData pl ≤ 1792) && decide (imgNat pl 0 1 + 3 = cls) && imgZero pl 6 2 && imgZero pl 21 3 && imgZero pl 28 4 &&
  (List.range 4).all (fun i => decide (tkEntry pl i < 4096)) && decide (imgNat pl 16 1 < 16) &&
  ((pl.drop (tkRegionAt pl)).take 640).all (fun b => decide (b.toNat < 64))

/-- Cost of a run from an entry; none where a path breaks R326. -/
def entryCost (pl : List Byte) (a : Nat) : Option Nat :=
  let ws := tkCodeWords pl
  match pathsFrom (fun i => ws.getD i 0) ws.length 4 a with
  | some i => if i.ret.isSome ∨ 2 < i.loops then none else i.fin
  | none => none

/-- The loader's tests (R326, R327). -/
def tolekBudget (cls : Nat) (pl : List Byte) : Bool :=
  let ws := tkCodeWords pl
  ws.all tLegal && branchesOk ws &&
  ws.all (fun w => !(bitsOf w.toNat 26 6 == 6 && decide (1791 < bitsOf w.toNat 0 11))) &&
  ((pl.drop (tkRegionAt pl)).take 640).all (fun b => decide (b.toNat < tkBanks pl)) &&
  (List.range 4).all (fun j => decide (imgNat pl (17 + j) 1 < 32)) &&
  (List.range 4).all (fun i =>
    let a := tkEntry pl i
    (decide (2 ≤ i) && a == 0xFFF) || decide (a < ws.length) &&
      (match entryCost pl a with
        | some n => decide (n + 128 ≤ if cls = 3 then 3200 else 32000)
        | none => false))

/-! ### RISC-V payloads -/

/-- Layout of a RISC-V payload (R612). -/
def riscvLayout (pl : List Byte) : Bool :=
  let n := imgNat pl 8 4
  let sec := fun i => (imgNat pl (16 + 16 * i) 8, imgNat pl (24 + 16 * i) 4, imgNat pl (28 + 16 * i) 4)
  let secs := (List.range (min n 64)).map sec
  let data := (secs.map (fun s => if s.2.2 % 2 = 1 then 0 else s.2.1)).foldl (· + ·) 0
  let within := fun (lo hi : Nat) (s : Nat × Nat × Nat) => decide (lo ≤ s.1 ∧ s.1 + s.2.1 ≤ hi)
  decide (1 ≤ n ∧ n ≤ 64) && imgZero pl 12 4 && decide (pl.length = 16 + 16 * n + data) && secs.all (fun s => decide (s.2.2 < 2)) &&
  secs.all (fun s => within 0x10000000 0x10080000 s || within 0x1050000000 0x1080000000 s) &&
  (List.range secs.length).all (fun i => (List.range i).all (fun j =>
    let x := secs.getD i (0, 0, 0)
    let y := secs.getD j (0, 0, 0)
    decide (x.1 + x.2.1 ≤ y.1 ∨ y.1 + y.2.1 ≤ x.1))) &&
  secs.any (fun s => decide (s.1 ≤ imgNat pl 0 8 ∧ imgNat pl 0 8 < s.1 + s.2.1))

/-! ### The checks of R611 -/

/-- The vendor's public key. -/
def vendorKeyBytes : List Byte := (List.range 97).map Config.vendorKey

/-- The first check of Table 15.8 that an image of `received` bytes for class `cls` fails; 0 where it passes all. -/
def Chip.imageCheck (c : Chip) (cls : Nat) (img : List Byte) (received : Nat) : Nat :=
  let pl := imgPayload img
  let len := imgNat img 20 4
  let key := (img.drop 80).take 97
  if img.take 8 ≠ asciiBytes "KNFIMG01" ∨ imgNat img 8 1 ≠ 1 ∨ !imgZero img 24 8 ∨ !imgZero img 177 15 ∨ !imgZero img 288 224 then 1
  else if imgNat img 9 1 ≠ cls then 2
  else if imgNat img 10 1 ≠ 0xC2 ∧ imgNat img 10 1 ≠ 0xFF then 3
  else if len + 512 ≠ received ∨ 2 ^ 25 < len + 512 then 4
  else if sha384 pl ≠ (img.drop 32).take 48 then 5
  else if imgSigner img = 1 ∧ (!c.flag BOOT_FUSE_OWNER_KEY_SET ∨ sha384 key ≠ c.boot.keyHash) ∨ imgSigner img ≠ 1 ∧ c.flag BOOT_FUSE_OWNER_ONLY
    then 6
  else if !ecdsaOk (if imgSigner img = 1 then key else vendorKeyBytes) (img.take 192) ((img.drop 192).take 96) then 7
  else if imgNat img 16 4 < c.fld (BOOT_SVN_MIN_SVN cls) then 8
  else if !(if 3 ≤ cls then tolekLayout cls pl else riscvLayout pl) then 9
  else if 3 ≤ cls ∧ !tolekBudget cls pl then 10
  else 0

/-! ### Loading pairs (R295, R613) -/

/-- Words as cells from address 0. -/
def cellsOf (ws : List Q) : Cells Q := Cells.putRun (fun _ => 0) [] 0 ws

/-- An engine with a payload loaded into it: memories set, registers 0, nothing running (R295, R325). -/
def loadedEngine (pl : List Byte) (role : Nat) : TolekRec :=
  let d := 32 + 4 * tkCode pl
  { prog := cellsOf (tkCodeWords pl), size := tkCode pl, banks := cellsOf (imgWords pl (d + 4 * tkData pl) (32 * tkBanks pl)),
    rtab := Cells.putRun (fun _ => 0) [] 0 (((pl.drop (tkRegionAt pl)).take 640).map (·.toNat)),
    entries := (List.range 4).map (fun i => if tkEntry pl i = 0xFFF ∧ 2 ≤ i then none else some (tkEntry pl i)),
    bump := (List.range 4).map (fun j => if (imgNat pl 16 1).testBit j then some (imgNat pl (17 + j) 1) else none),
    ctx := { data := cellsOf (imgWords pl d (tkData pl)) }, saved := { data := cellsOf (imgWords pl d (tkData pl)) }, role := role }

/-- Load an image into engine `e`, with its version and costs shown (R327). -/
def Chip.loadEngine (c : Chip) (e : Nat) (img : List Byte) (role : Nat) : Chip :=
  let pl := imgPayload img
  let c := c.setTolek e (loadedEngine pl role)
  let c := c.setFld (LE_IMAGE_VERSION e) (imgNat pl 24 4)
  (c.setFld (LE_COST_MAIN e) ((entryCost pl (tkEntry pl 0)).getD 0)).setFld (LE_COST_SAFE e) ((entryCost pl (tkEntry pl 1)).getD 0)

/-- The program of an image is the resident one where the vendor signed it (log entry 17). -/
def isResident (img : List Byte) : Bool := imgSigner img == 0

/-- A Q3.28 word of n / d. -/
def qOf (n d : Int) : Q := BitVec.ofInt 32 (rndDiv (n * 2 ^ 28) d)

/-- Default of parameter word `i` of the resident loop program (Tables 8.3 and 8.4). -/
def loopParam (i : Nat) : Q :=
  if i = 2 then qOf 2 100 else if i = 3 then qOf 5 100 else if i = 4 then qOf 3 10 else if i = 5 then qOf 2 10 else if i = 6 then qOf 25 100
  else if i = 7 then qOf 5 10000 else if i = 8 then qOf 75 100 else if i = 9 then qOf (-75) 100 else if i = 10 then qOf 2 10
  else if i = 11 then 20 else if i = 12 then 200 else if i = 13 then 20 else if i = 14 then qOf 4 10 else if i = 15 then qOf 45 100
  else if i < 16 then 0
  else if i < 26 then qOf ([24832, 20224, 13568, 8960, 2304, -2304, -8960, -13568, -20224, -24832].getD (i - 16) 0) 32768
  else if i < 36 then qOf (34 - (i - 26 : Nat)) 100
  else if i < 56 then qOf 1 1
  else if i = 82 then qOf 1 4096 else if i = 83 then qOf 1 10 else 0

/-- Default of parameter word `i` of the resident motion program (Tables 9.6 and 9.9), with the pole pairs of SPN_CFG. -/
def motionParam (poles i : Nat) : Q :=
  let axis := [qOf 6 10, qOf 2 1, qOf 2 1, qOf 4 1, qOf 5 1, qOf 1 10, qOf 5 10, qOf 25 100]
  if i < 16 then axis.getD (i % 8) 0
  else if i = 17 then BitVec.ofNat 32 poles
  else if i < 32 then
    [qOf 3 10, 0, qOf 5 100, qOf 2 100, qOf 6 10, qOf 3 10, 4000, qOf 6 100, qOf 556 10000, qOf 1667 10000, 1000, 4, 3, qOf 4 10, qOf 95 100,
      qOf 1 1000].getD (i - 16) 0
  else if i < 64 then (if i < 37 then 0 else if i < 61 then qOf (i - 36 : Nat) 360 else qOf 666667 10000000)
  else [qOf 22 10, qOf 218 100, qOf 219 100, qOf 585 100, qOf 2 10].getD (i - 64) 0

/-- The parameter words that the channel sequencer writes after each load of a pair (R337, R379). -/
def Chip.writeDefaults (c : Chip) (q : Nat) : Chip :=
  if q < 16 then (List.range 84).foldl (fun c i => c.setFld (LE_PARAM_VALUE q i) (loopParam i).toNat) c
  else (List.range 72).foldl
    (fun c i => c.setFld (LE_PARAM_VALUE q i) (motionParam (c.fld (SPN_CFG_POLE_PAIRS (q - 16))) i).toNat) c

/-- Load an image into both engines of pair `q`; `fault` lists engines that failed their test (R613). -/
def Chip.loadPair (c : Chip) (q : Nat) (img : List Byte) (fault : List Nat) : Chip :=
  let bad := fun e => fault.contains e
  let role := fun e =>
    if bad e then 4 else if e % 2 = 0 then 1 else if bad (evenEng q) then 1 else 2
  let c := [evenEng q, oddEng q].foldl (fun c e =>
    if bad e then c.setTolek e { c.tolek e with role := 4, running := false } else c.loadEngine e img (role e)) c
  let c := c.setPair q { resident := isResident img }
  let c := if isResident img then c.writeDefaults q else c
  let c := if q < 16 then c.setLoop q {} else c.setMotion (q - 16) {}
  let c := (c.setFld (LE_PAIR_CTRL_ENTRY q) 0).setFld (LE_PAIR_STATUS_CONSEC q) 0
  if bad (evenEng q) ∧ bad (oddEng q) then c.mark (WMM_PAIR_EVENT_PAIR_LOST q) else c.setFld (LE_PAIR_CTRL_RUN q) 1

/-- The running image of a class, as bytes. -/
def Chip.runningImage (c : Chip) (cls : Nat) : List Byte := Cells.get (fun _ => []) c.boot.running cls

end Sys2Proof.Machine
end

