-- ==== Sys2Proof/Machine/Flash.lean ====
section
/-! DEFINITION. The boot flash: configuration records (R601, R602), the unflushed-volume journal (R604, R606), and the operations that write
them (R489, R605). -/

namespace Sys2Proof.Machine

def Chip.flashBytes (c : Chip) (a n : Nat) : List Byte := Cells.getRun flashBlank c.boot.flash a n

/-- Erase `n` bytes from `a`. -/
def Chip.flashErase (c : Chip) (a n : Nat) : Chip :=
  c.setBoot { c.boot with flash := c.boot.flash.filter (fun x => !(decide (a ≤ x.1 ∧ x.1 < a + n))) }

/-- Program bytes: a bit only goes from 1 to 0. -/
def Chip.flashProgram (c : Chip) (a : Nat) (bs : List Byte) : Chip :=
  let new := (bs.zip (c.flashBytes a bs.length)).map (fun x => x.1 &&& x.2)
  c.setBoot { c.boot with flash := Cells.putRun flashBlank c.boot.flash a new }

/-! ### Boot configuration (R601 to R603, Table 15.4) -/

/-- Fields of a record are valid: modes in range, reserved bytes 0, DEEP_BASE aligned as CIS_DEEP_BASE is. -/
def cfgFieldsOk (r : List Byte) : Bool :=
  decide (imgNat r 12 1 ≤ 1) && decide (imgNat r 13 1 ≤ 2) && decide (imgNat r 14 1 < 32) && imgZero r 15 1 && imgZero r 34 6 &&
  imgZero r 104 148 && decide (imgNat r 24 8 % 2 ^ 20 = 0)

def cfgCrc (r : List Byte) : Nat := (crc32 (r.take 252)).toNat

/-- A record is valid: MAGIC and CRC match (R601). -/
def cfgValid (r : List Byte) : Bool := r.take 8 == asciiBytes "KNFCFG01" && imgNat r 252 4 == cfgCrc r

/-- The copy (0 A, 1 B) that holds the current record, and the record. -/
def Chip.currentConfig (c : Chip) : Option (Nat × List Byte) :=
  let a := c.flashBytes 0 256
  let b := c.flashBytes 0x10000 256
  match cfgValid a, cfgValid b with
  | true, true => if imgNat a 8 4 < imgNat b 8 4 then some (1, b) else some (0, a)
  | true, false => some (0, a)
  | false, true => some (1, b)
  | false, false => none

/-- The record in force where the flash holds none (R602). -/
def defaultConfig : List Byte :=
  asciiBytes "KNFCFG01" ++ List.replicate 12 0 ++ leBytes 4 256 ++ leBytes 8 0x36000000 ++ List.replicate 224 0

def Chip.config (c : Chip) : List Byte := (c.currentConfig.map (·.2)).getD defaultConfig

/-- Write a record into the copy that is not current, with the next GENERATION and its CRC. -/
def Chip.writeConfig (c : Chip) (r : List Byte) : Chip :=
  let cur := c.currentConfig
  let gen := (cur.map (fun x => imgNat x.2 8 4 + 1)).getD 0
  let copy := (cur.map (fun x => 1 - x.1)).getD 0
  let body := asciiBytes "KNFCFG01" ++ leBytes 4 gen ++ (r.drop 12).take 240
  let r' := body ++ leBytes 4 (crc32 body).toNat
  (c.flashErase (0x10000 * copy) 0x10000).flashProgram (0x10000 * copy) r'

/-- Replace `n` bytes at `o`. -/
def patchBytes (r : List Byte) (o : Nat) (bs : List Byte) : List Byte := r.take o ++ bs ++ r.drop (o + bs.length)

/-! ### The unflushed-volume journal (R604) -/

def journalBase (k : Nat) : Nat := 0x20000 + 0x10000 * k

/-- SECTOR_GEN of a sector with a valid header. -/
def Chip.sectorGen (c : Chip) (k : Nat) : Option Nat :=
  let h := c.flashBytes (journalBase k) 16
  if h.take 8 = asciiBytes "KNFJRNL1" ∧ imgNat h 12 4 = (crc32 (h.take 12)).toNat then some (imgNat h 8 4) else none

/-- The current sector. -/
def Chip.currentSector (c : Chip) : Option Nat :=
  match c.sectorGen 0, c.sectorGen 1 with
  | some a, some b => some (if a < b then 1 else 0)
  | some _, none => some 0
  | none, some _ => some 1
  | none, none => none

/-- The entries of a sector up to its end, each of 16 bytes, from entry `i` on; `n` bounds their number. -/
def Chip.sectorEntries (c : Chip) (k : Nat) : Nat → Nat → List (List Byte)
  | 0, _ => []
  | n + 1, i =>
    let e := c.flashBytes (journalBase k + 16 + 16 * i) 16
    if imgNat e 7 1 = 0xFF then [] else e :: Chip.sectorEntries c k n (i + 1)

def Chip.journalEntries (c : Chip) : List (List Byte) := (c.currentSector.map (fun k => c.sectorEntries k 4095 0)).getD []

/-- Replay one entry on the live volumes, each (identity, side) with its LOST mark; an entry whose CRC fails is skipped. -/
def replayEntry (live : List ((Nat × Nat) × Bool)) (e : List Byte) : List ((Nat × Nat) × Bool) :=
  if imgNat e 12 4 ≠ (crc32 (e.take 12)).toNat then live else
  let d := (imgNat e 0 6, imgNat e 6 1)
  match imgNat e 7 1 with
  | 1 => if live.any (·.1 == d) then live else live ++ [(d, false)]
  | 2 => live.filter (·.1 != d)
  | 3 => live.map (fun x => if x.1 = d then (d, true) else x)
  | 4 => live.map (fun x => if x.1 = d then (d, false) else x)
  | _ => live

/-- The live volumes of the journal as the flash holds it. -/
def Chip.journalLive (c : Chip) : List ((Nat × Nat) × Bool) := c.journalEntries.foldl replayEntry []

/-- The live volumes once the operations that wait are done. -/
def Chip.journalSoon (c : Chip) : List ((Nat × Nat) × Bool) :=
  c.boot.ops.foldl (fun live o => match o.use with
    | .journal v s op _ => replayEntry live (let b := leBytes 6 v ++ leBytes 1 s ++ leBytes 1 op ++ leBytes 4 0
                                             b ++ leBytes 4 (crc32 b).toNat)
    | _ => live) c.journalLive

/-- An entry with its sequence number. -/
def journalEntry (d : Nat × Nat) (op seq : Nat) : List Byte :=
  let b := leBytes 6 d.1 ++ leBytes 1 d.2 ++ leBytes 1 op ++ leBytes 4 seq
  b ++ leBytes 4 (crc32 b).toNat

/-- The header of a sector. -/
def sectorHeader (gen : Nat) : List Byte :=
  let b := asciiBytes "KNFJRNL1" ++ leBytes 4 gen
  b ++ leBytes 4 (crc32 b).toNat

/-- Append an entry; into a full sector, or where none is current, or in a second try (R606), it goes to the other sector, with the live
volumes copied there first. -/
def Chip.journalWrite (c : Chip) (d : Nat × Nat) (op : Nat) (other : Bool) : Chip :=
  let next := c.boot.journalSeq
  let n := c.journalEntries.length
  match c.currentSector with
  | some k =>
    if n < 4095 ∧ !other then
      (c.flashProgram (journalBase k + 16 + 16 * n) (journalEntry d op next)).setBoot
        { (c.flashProgram (journalBase k + 16 + 16 * n) (journalEntry d op next)).boot with journalSeq := next + 1 }
    else
      let live := c.journalLive.flatMap (fun x => (x.1, 1) :: (if x.2 then [(x.1, 3)] else []))
      let es := (live ++ [(d, op)]).mapIdx (fun i x => journalEntry x.1 x.2 (next + i))
      let c := c.flashErase (journalBase (1 - k)) 0x10000
      let c := c.flashProgram (journalBase (1 - k)) (sectorHeader ((c.sectorGen k).getD 0 + 1) ++ es.flatten)
      c.setBoot { c.boot with journalSeq := next + es.length }
  | none =>
    -- no sector holds a valid header: the first one is begun (log entry 18)
    let c := c.flashErase (journalBase 0) 0x10000
    let c := c.flashProgram (journalBase 0) (sectorHeader 0 ++ journalEntry d op next)
    c.setBoot { c.boot with journalSeq := next + 1 }

/-- Begin a flash operation. -/
def Chip.flashQueue (c : Chip) (u : FlashUse) (uid : Option Nat) : Chip :=
  c.setBoot { c.boot with ops := c.boot.ops ++ [⟨u, uid⟩] }

/-- The device records a journal entry (R489, R605). -/
def Chip.journalOp (c : Chip) (d : Nat × Nat) (op : Nat) (uid : Option Nat) : Chip := c.flashQueue (.journal d.1 d.2 op false) uid

/-- Entries of a disc side that are not yet durable nor reported. -/
def Chip.undurable (c : Chip) (d : Nat × Nat) : Bool := (c.stagedOf d).any (fun e => e.state != 4)

/-- A WRITE to a disc side is about to be staged. -/
def Chip.writeComing (c : Chip) (d : Nat × Nat) : Bool :=
  c.host.cmds.any (fun m => m.opcode == opWrite && c.discOf m.volume == d && (m.wait == .seal || (m.status == some stOk && !m.inPath)))

/-- A volume that holds no non-durable staged block any more leaves the journal, unless it is marked LOST (R489, R605). -/
def Chip.journalSettle (c : Chip) (d : Nat × Nat) : Chip :=
  match c.journalSoon.find? (·.1 == d) with
  | some (_, false) => if c.undurable d || c.writeComing d then c else c.journalOp d 2 none
  | _ => c

/-- What a MOUNT finds in the journal, with what it writes (R605): whether writes were lost. -/
def Chip.journalMount (c : Chip) (d : Nat × Nat) : Bool × Chip :=
  match c.journalSoon.find? (·.1 == d) with
  | none => (false, c)
  | some (_, lost) =>
    if lost then
      let c := c.journalOp d 4 none
      (true, if c.undurable d then c else c.journalOp d 2 none)
    else if (c.stagedOf d).isEmpty then (true, c.journalOp d 2 none)
    else (false, c)

end Sys2Proof.Machine
end

