-- ==== Sys2Proof/Machine/Measure.lean ====
section
/-! DEFINITION. The channel sequencer's loop commands one after another, and its measurements of the calibrated items 3 to 6 (R568, R576, R577)
with their end (R570, R573). -/

namespace Sys2Proof.Machine

/-! ### Loop commands one after another (R335, R336) -/

/-- The channel sequencer is to issue loop commands, each once the one before has ended. -/
def Chip.issue (c : Chip) (p : Nat) (words : List Nat) : Chip := c.setSeqr p { c.seqr p with script := words, issued := none }

/-- The next command of the list, where the one before has ended by the committed CMD_SEQ. -/
def Chip.issueNext (c : Chip) (p : Nat) : Chip :=
  let q := c.seqr p
  let n := (c.loop p).seq
  match q.script with
  | [] => c
  | w :: rest =>
    if q.issued = some n then c
    else (c.pushCmd p (BitVec.ofNat 32 w) 0).setSeqr p { q with script := rest, issued := some n }

/-! ### Results of an item (R568 to R571) -/

/-- A parameter word of the loop pair as a number. -/
def Chip.parOf (c : Chip) (p i : Nat) : Int := signedOf 32 (c.fld (LE_PARAM_VALUE p i))

/-- The parameter word that an item's sweep moves. -/
def CalRun.word (r : CalRun) : Nat :=
  if r.item = 3 then 16 + r.layer else match r.band with
    | some b => 56 + b
    | none => 72 + r.layer

/-- The tilt term that a sweep of tilt leaves as it is. -/
def Chip.otherTilt (c : Chip) (p : Nat) (r : CalRun) : Int :=
  if r.item ≠ 4 then 0 else match r.band with
    | some _ => c.parOf p (72 + r.layer)
    | none => c.parOf p (56 + c.fld (LE_REGION_BAND p))

/-- Coefficients of an item as they are in force. -/
def Chip.inForce (c : Chip) (p : Nat) (r : CalRun) : List Int :=
  if r.item = 5 then [c.parOf p (36 + r.layer), c.parOf p (46 + r.layer), c.int (CAL_PU_TSENS_SENS p)]
  else if r.item = 6 then [c.parOf p (26 + r.layer)]
  else [c.parOf p r.word]

/-- Write the coefficients of an item. -/
def Chip.putCoefs (c : Chip) (p : Nat) (r : CalRun) (xs : List Int) : Chip :=
  let w := fun (c : Chip) i (x : Int) => c.writeParam p i (satQ x).1
  if r.item = 5 then
    ((w (w c (36 + r.layer) (xs.getD 0 0)) (46 + r.layer) (xs.getD 1 0))).setInt (CAL_PU_TSENS_SENS p) (xs.getD 2 0)
  else if r.item = 6 then w c (26 + r.layer) (xs.getD 0 0)
  else w c r.word (xs.getD 0 0)

/-- Two measurements agree within the tolerance of Table 14.1. -/
def calAgree (item : Nat) (xs ys : List Int) : Bool :=
  (xs.zip ys).all fun v =>
    let d := (v.1 - v.2).natAbs
    if item = 3 then decide (d ≤ 2 ^ 21) else if item = 4 then decide (d ≤ 2 ^ 19)
    else if item = 5 then decide (50 * d ≤ v.1.natAbs) else decide (100 * d ≤ v.1.natAbs)

/-- RESULT of a CALIBRATE whose item has been rejected: 1, or 2 where it is FAILED. -/
def Chip.rejectCode (c : Chip) (p item : Nat) : Nat := if c.fld (CAL_ITEM_STATE p item) = 3 then 2 else 1

/-- The cycle of pickup `p` is over; the CALIBRATE that asked for it completes with its RESULT. -/
def Chip.cycleOver (c : Chip) (p result : Nat) : Chip :=
  let k := c.cal p
  let c := (c.setFld (CAL_PU_STATUS_CYCLE p) 0).setFld (CAL_PU_STATUS_STALE p) 0
  let c := c.setCal p { k with first := none, by_ := none, run := none }
  match k.by_ with
  | none => c
  | some uid => c.finish uid stOk 0 result 0

/-- A cycle of pickup `p` is abandoned (R573): the old coefficient stays. A CALIBRATE that waits for it completes, with STATION_FAULT where the
station has left MOUNTED; then one that waits for acquisitions ends too. -/
def Chip.abandonCal (c : Chip) (p : Nat) (lost : Bool) : Chip :=
  let k := c.cal p
  let c := match k.acqBy with
    | some uid => if lost then (c.setCal p { c.cal p with acqBy := none, asked := [] }).finishS uid stStationFault else c
    | none => c
  if c.fld (CAL_PU_STATUS_CYCLE p) = 0 then c else
  let c := match k.run with
    | some r => if r.item ≤ 4 then c.putCoefs p r [r.old] else c
    | none => c
  let c := c.inc CAL_ABANDONED_COUNT
  match k.by_ with
  | some uid =>
    if lost then (c.setCal p { c.cal p with by_ := none }).cycleOver p 3 |>.finishS uid stStationFault else c.cycleOver p 3
  | none => c.cycleOver p 3

/-- An item is measured anew: a FAILED one's degradation is cleared first (R570). -/
def Chip.beginItemCycle (c : Chip) (p item : Nat) : Chip :=
  let c := if c.fld (CAL_ITEM_STATE p item) = 3 then c.calClear p item else c
  ((c.setFld (CAL_PU_STATUS_CYCLE p) 1).setFld (CAL_PU_STATUS_ITEM p) item).setFld (CAL_PU_STATUS_STALE p) 1

/-! ### Sweeps and commands (R576) -/

/-- Points of an item's measurement. -/
def calPoints (item : Nat) : Nat := if item = 3 then 9 else if item = 4 then 7 else if item = 5 then 3 else 1

/-- Places of a sweep about its middle, and its step. -/
def calStep (item : Nat) : Int := if item = 3 then 2 ^ 23 else 2 ^ 20
def calPlace (item k : Nat) : Int := if item = 3 then (k : Int) - 4 else (k : Int) - 3

/-- The next point of the measurement: its coefficient, and its command with amplitude 0.02. The rate of TRACKING that CAL_TSENS takes is not
stated: it is free. -/
def Chip.calPoint (c : Chip) (p : Nat) (r : CalRun) : Chip :=
  let k := r.ys.length
  let c := c.setCal p { c.cal p with run := some { r with seq := (c.loop p).seq } }
  let push := fun (c : Chip) (op a : Nat) (arg : Q) => c.pushCmd p (BitVec.ofNat 32 (op + 256 * a)) arg
  if r.item ≤ 4 then push (c.putCoefs p r [r.base + calPlace r.item k * calStep r.item - c.otherTilt p r]) 0x0A 25 0
  else if r.item = 6 then push c 0x0E 25 0
  else if k = 0 then push c 0x0B 20 5368709#32
  else if k = 1 then push c 0x0C 30 5368709#32
  else push c.draw.2 0x0D 32 (BitVec.setWidth 32 c.draw.1)

/-- Start the measurement of an item. -/
def Chip.startMeasure (c : Chip) (p item layer : Nat) (rest : List Nat) (quick : Bool) (band : Option Nat) : Chip :=
  let r : CalRun := { item := item, layer := layer, rest := rest, quick := quick, band := band }
  let old := (c.inForce p r).headD 0
  let r := { r with old := old, base := old + c.otherTilt p r }
  let c := c.beginItemCycle p item
  (c.setCal p { c.cal p with first := if quick then some (c.inForce p r) else none }).calPoint p r

/-- The vertex of the parabola through the highest point of a sweep and its neighbours: free where a neighbour is missing, or where the three
points lie on a line. -/
def Chip.vertex (c : Chip) (r : CalRun) : Int × Chip :=
  let y := fun k => r.ys.getD k 0
  let top := (List.range r.ys.length).foldl (fun b k => if y b < y k then k else b) 0
  let x0 := r.base + calPlace r.item top * calStep r.item
  let den := y (top - 1) - 2 * y top + y (top + 1)
  if top = 0 ∨ top + 1 = r.ys.length ∨ den = 0 then ((BitVec.setWidth 32 c.draw.1).toInt, c.draw.2)
  else (x0 + rndDiv (calStep r.item * (y (top - 1) - y (top + 1))) (2 * den), c)

/-- A gain normaliser over a measured open-loop gain; free where that is 0. -/
def Chip.normOver (c : Chip) (norm l : Int) : Int × Chip :=
  if l = 0 then ((BitVec.setWidth 32 c.draw.1).toInt, c.draw.2) else ((satQ (rndDiv (norm * 2 ^ 28) l.natAbs)).1.toInt, c)

/-- The measurement that the points of an item give. -/
def Chip.measured (c : Chip) (p : Nat) (r : CalRun) : List Int × Chip :=
  if r.item = 3 then
    let v := c.vertex r
    ([limit (r.base - 2 ^ 25) (r.base + 2 ^ 25) v.1], v.2)
  else if r.item = 4 then
    let v := c.vertex r
    ([v.1 - c.otherTilt p r], v.2)
  else if r.item = 5 then
    let f := c.normOver (c.parOf p (36 + r.layer)) (r.ys.getD 0 0)
    let t := f.2.normOver (c.parOf p (46 + r.layer)) (r.ys.getD 1 0)
    ([f.1, t.1, r.ys.getD 2 0], t.2)
  else
    ([min (c.parOf p 15) (rndShift (c.parOf p (26 + r.layer) * (2 ^ 28 + r.ys.getD 0 0)) 28)], c)

/-- After an item of a mount the next one follows; else the cycle is over. -/
def Chip.nextMeasure (c : Chip) (p : Nat) (r : CalRun) (quick : Bool) (result : Nat) : Chip :=
  let c := match r.band with
    | some b => c.setSeqr p { c.seqr p with bands := b :: (c.seqr p).bands }
    | none => c
  let c := c.cycleOver p result
  match r.rest with
  | [] => c
  | i :: rest => c.startMeasure p i r.layer rest quick none

/-- All points of a measurement are known (R568, R577). `mountQuick`: the mount is a quick one. -/
def Chip.judge (c : Chip) (p : Nat) (r : CalRun) (mountQuick : Bool) : Chip :=
  let m := c.measured p r
  let c := if r.item ≤ 4 then m.2.putCoefs p r [r.old] else m.2
  match (c.cal p).first with
  | none => (c.setCal p { c.cal p with first := some m.1 }).calPoint p { r with ys := [] }
  | some a =>
    if calAgree r.item a m.1 then
      let c := c.calAccept p r.item
      (if r.quick then c else c.putCoefs p r m.1).nextMeasure p r mountQuick 0
    else if r.quick then (c.setCal p { c.cal p with first := none }).calPoint p { r with ys := [], quick := false }
    else
      let c := c.calReject p r.item 0
      c.nextMeasure p r mountQuick (c.rejectCode p r.item)

/-- The committed EVENT word shows whether the command in hand has ended: well, and its result is taken; else the cycle is abandoned. -/
def Chip.measureStep (c : Chip) (p : Nat) : Chip :=
  match (c.cal p).run with
  | none => c
  | some r =>
    let g := c.loop p
    if g.seq = r.seq then c
    else if g.result ≠ 1 then c.abandonCal p false
    else
      let r := { r with ys := r.ys ++ [g.trace0.toInt] }
      if r.ys.length < calPoints r.item then c.calPoint p r
      else c.judge p r ((c.vol p).qual.any (·.quick))

/-! ### Servo calibration of a mount (R337, R361) -/

/-- Parameter words 16 to 81 of the pair of pickup `p`. -/
def Chip.servoWords (c : Chip) (p : Nat) : List Nat := (List.range 66).map (fun i => c.fld (LE_PARAM_VALUE p (16 + i)))

/-- A mount starts from the kept calibration, or from the seeds. -/
def Chip.loadServo (c : Chip) (p : Nat) (quick : Bool) : Chip :=
  let q := c.seqr p
  let c := c.setSeqr p { q with bands := [], script := [] }
  (List.range 66).foldl (fun c i =>
    c.writeParam p (16 + i) (if quick then BitVec.ofNat 32 (q.calKept.getD i 0) else loopParam (16 + i))) c

/-- The pickup reads in a band whose tilt has not been measured in this mount: that of the nearest measured band is used, the lower on a tie. -/
def Chip.enterBand (c : Chip) (p b : Nat) : Chip :=
  let q := c.seqr p
  if b ∈ q.bands ∨ q.bands = [] then c else
  let dist := fun (x : Nat) => if x < b then b - x else x - b
  let near := q.bands.foldl (fun (y : Nat) x => if dist x < dist y ∨ dist x = dist y ∧ x < y then x else y) (q.bands.headD 0)
  c.writeParam p (56 + b) (BitVec.ofNat 32 (c.fld (LE_PARAM_VALUE p (56 + near))))

/-- Between requests the tilt of a band read in for the first time is measured. -/
def Chip.bandDue (c : Chip) (p : Nat) : Bool :=
  c.mounted p && (c.loop p).state == 5 && !((c.seqr p).bands.contains (c.fld (LE_REGION_BAND p))) && (c.cal p).run.isNone &&
    c.fld (CAL_PU_STATUS_CYCLE p) == 0 && (c.frm p).reqs.isEmpty

end Sys2Proof.Machine
end

