-- ==== Sys2Proof/Machine/Station.lean ====
section
/-! DEFINITION. Stations: changes of state (R355, R356), clamp (R368), park (R365, R366), station reset (R621), mount and qualification (R359 to
R363). -/

namespace Sys2Proof.Machine

/-! ### Commands to the resident programs -/

/-- A command word: OP and A (R334, R376). -/
def cmdWord (op a : Nat) : Q := BitVec.ofNat 32 (op + 256 * a)

/-- The channel sequencer pushes a command to the loop pair of pickup `p`. -/
def Chip.loopCmd (c : Chip) (p op a : Nat) : Chip := c.pushCmd p (cmdWord op a) 0

/-- A command for the motion pair of station `s`. -/
def Chip.motionCmd (c : Chip) (s op a : Nat) : Chip := c.pushCmd (16 + s) (cmdWord op a) 0

/-- The spindle turns below 30 rpm, by the tachometer (R397). -/
def Chip.stopped (c : Chip) (s : Nat) : Bool := !c.flag (SPN_STATUS_TACH_VALID s) || decide (c.fld (SPN_STATUS_TACH s) < 30)

/-! ### States -/

/-- STATE changes: registers, library port, journal, log and event record (R356, R369, R370, R485). -/
def Chip.changeState (c : Chip) (s new cause : Nat) : Chip :=
  let prev := c.stState s
  let st := c.stn s
  let c := c.setStn s { st with changes := st.changes + 1 }
  let c := ((c.setFld (WMM_STN_STATE_PREV s) prev).setFld (WMM_STN_STATE_STATE s) new).setFld (WMM_STN_STATE_CAUSE s) cause
  let c := c.setFlag (WMM_STN_STATE_UNCLAMP_ALLOWED s) (new == sEmpty || new == sLoaded || new == sSafe)
  let c := (c.setFld (WMM_STN_TIME_TIME s) c.now.toNat).mark (WMM_STN_EVENT_STATE_CHANGE s)
  let c := { c with servo := { c.servo with lpTimes := Cells.put (fun _ => 0) c.servo.lpTimes s c.now } }
  let c := (c.journal actState s).log 0x0503 .m ([s, new, prev, cause] ++ detBytes 8 c.now.toNat)
  (List.range 2).foldl (fun c x =>
    if c.host.stationEvents.getD x false then c.postEvent x 3 0xFFFF 0 (s + 256 * new + 65536 * cause) 0 0 else c) c

/-- Thermal level of a station: of both dies and its two lasers (R586, R588). -/
def Chip.stationLevel (c : Chip) (s : Nat) : Nat :=
  max (max (if c.flag FLM_STATUS_UP then c.fld THH_STATUS_LEVEL else 0) (c.fld CAL_STATUS_LEVEL))
    (max (c.fld (CAL_PU_STATUS_LEVEL (2 * s))) (c.fld (CAL_PU_STATUS_LEVEL (2 * s + 1))))

/-- A write drain is in progress on pickup `p` (R408): data of a drain not yet released, a management update, or a parity sweep. -/
def Chip.draining (c : Chip) (p : Nat) : Bool :=
  c.buf.drains.any (fun d => d.1 == p) || (c.vol p).mgmt.isSome || (c.wch p).pass.isSome

/-- The target speed of a station as SPIN codes it: 1 = 4,200 rpm, 2 = 8,400 rpm (R408). -/
def Chip.targetSpeed (c : Chip) (s : Nat) : Nat :=
  if c.flag (SPN_CTRL_QUIET s) ∨ 2 ≤ c.stationLevel s ∨ c.draining (2 * s) ∨ c.draining (2 * s + 1) then 1 else 2

/-- Channel sequencer 2s issues SPIN to the target speed and sets FEED for it (R389, R408). -/
def Chip.spinToTarget (c : Chip) (s : Nat) : Chip :=
  let k := c.targetSpeed s
  let c := (c.motionCmd s 0x01 k).setStn s { c.stn s with aim := if k = 1 then 4200 else 8400 }
  [2 * s, 2 * s + 1].foldl (fun c p => c.setFld (MOT_AX_FEED_FEED p) (if k = 1 then 134400 else 268800)) c

/-! ### What a volume loses (R283, R358, R622) -/

/-- Handed entries of a disc side go back to STAGED, to be surveyed (R283, R562, R622). -/
def Chip.unhand (c : Chip) (disc : Nat × Nat) : Chip :=
  c.setStaged (c.buf.staged.map (fun e =>
    if (e.volumeId, e.side) = disc ∧ e.state = 2 then { e with state := 1, survey := true }
    else if (e.volumeId, e.side) = disc ∧ e.state = 3 then { e with survey := true } else e))

/-- Everything held for a mounted volume is dropped: records, map, power entries, accumulators; what was in its write channel counts as not
durable. -/
def Chip.dropVolume (c : Chip) (p : Nat) : Chip :=
  let v := c.vol p
  let bad := (c.wch p).results.filter (·.interrupted)
  let c := bad.foldl (fun c _ => (c.inc (WCH_VERIFY_FAILS_COUNT p)).mark (WCH_EVENT_VERIFY_FAIL p)) c
  let c := c.setWch p { c.wch p with items := [], results := [], queued := none, relocs := [] }
  let c := (c.unhand (c.discOf p)).setVolState p vNotMounted
  let c := c.setVol p { volumeId := v.volumeId, side := v.side, ever := v.ever }
  let c := c.setFld (WMM_STN_PU_LAYER_UNUSABLE (p / 2) (p % 2)) 0
  { c with path := { c.path with
      map := c.path.map.filter (fun x => x.1 / 2 ^ 28 != p),
      power := c.path.power.filter (fun x => x.1 / 640 != p),
      accs := c.path.accs.filter (fun x => x.1 / 2 ^ 24 != p) } }

/-- Commands of a volume that wait for its station end: WRITEs that are not complete, CLOSE_VOLUME, UNMOUNT in its update, the
management part of a FLUSH (R282, R357, R364, R475). -/
def Chip.loseCommands (c : Chip) (p : Nat) : Chip :=
  (c.host.cmds.filter (fun m => m.volume == p && m.started && m.status.isNone)).foldl (fun c m =>
    if m.opcode = opWrite then (c.undoWrite m).finishS m.uid stStationFault
    else if m.opcode = opClose ∨ m.opcode = opUnmount ∧ m.wait = .drain then c.finishS m.uid stStationFault
    else if m.opcode = opFlush ∧ m.wait = .drain then
      (c.updCmd m.uid (fun m => { m with wait := .none, ended := some stStationFault })).settleFlushes
    else c) c

/-- The commands that wait for a qualification complete, each with the status it already has or else `status`. -/
def Chip.endWaiters (c : Chip) (uids : List Nat) (status : Nat) : Chip :=
  uids.foldl (fun c u => match c.cmd u with
    | some m => c.finishS u (m.ended.getD status)
    | none => c) c

/-- The step that WMM_STN_STATE shows: of a qualification that runs. -/
def Chip.showStep (c : Chip) (s : Nat) : Chip :=
  let step := fun p => ((c.vol p).qual.map (·.step)).getD 0
  c.setFld (WMM_STN_STATE_MOUNT_STEP s) (if step (2 * s) = 0 then step (2 * s + 1) else step (2 * s))

/-- The qualification of pickup `p` is over; its volume is not mounted. -/
def Chip.endQual (c : Chip) (p status : Nat) : Chip :=
  match (c.vol p).qual with
  | none => c
  | some q =>
    let c := c.setVol p { c.vol p with qual := none }
    let c := (c.abandonCal p false).setSeqr p { c.seqr p with script := [] }
    (((c.dropVolume p).loopCmd p 0x07 1).endWaiters q.waiters status).showStep (p / 2)

/-! ### Park (R365, R366) -/

/-- Causes that a park in LOADED answers to (R356). -/
def parksLoaded (cause : Nat) : Bool := cause == cauPllFail || cause == cauEscalation

/-- Park station `s`: steps 1 and 2 of Table 8.12, or joining the park in progress. -/
def Chip.park (c : Chip) (s cause : Nat) : Chip :=
  let st := c.stn s
  let was := c.stState s
  if was = sParking then
    c.setStn s { st with causes := st.causes ++ [cause], reset := st.reset || cause == cauStationReset }
  else if was = sEmpty ∨ was = sSafe ∨ was = sFault ∨ was = sLoaded ∧ !parksLoaded cause then c
  else
    let c := (c.journal actPark s).changeState s sParking cause
    let c := c.setStn s { c.stn s with causes := [cause], parkStep := 2, reset := cause == cauStationReset }
    let c := c.inc (WMM_STN_PARKS_COUNT s)
    let c := [2 * s, 2 * s + 1].foldl (fun c p =>
      let c := ((c.cutPass p).dropQueuedPass p).abandonCal p true
      let c := c.endReads p (if cause = cauStationReset ∨ cause = cauUnmount then ouAbandoned else ouStationLost)
      let c := (c.disarmLanes p).loseCommands p
      let c := match (c.vol p).qual with
        | some _ => c.endQual p stStationFault
        | none => c.dropVolume p
      c.loopCmd p 0x07 0) c
    c.showStep s

/-- The park sequencer parks a station (R448); one in PARKING keeps its cause. No program has a part in it: no step of Table 8.12 follows. -/
def Chip.psPark (c : Chip) (s : Nat) : Chip :=
  let c := if c.stState s = sSpinup ∨ c.stState s = sQualify ∨ c.stState s = sMounted then c.park s cauEscalation else c
  if c.stState s = sParking then
    (c.setStn s { c.stn s with parkStep := 0 }).setFld WMM_PS_STATUS_STATIONS (c.fld WMM_PS_STATUS_STATIONS ||| 2 ^ s)
  else c

/-- Position in nm of a Q3.28 word in units of 10 mm (R380). -/
def nmOfQ (x : Q) : Int := rndShift (x.toInt * 10000000) 28

/-- Step 3: BRAKE, homed axes to HOME_POS, others off (R410). -/
def Chip.parkBrake (c : Chip) (s : Nat) : Chip :=
  let c := (c.setStn s { c.stn s with parkStep := 3 }).motionCmd s 0x02 0
  [0, 1].foldl (fun c d =>
    let p := 2 * s + d
    if c.flag (MOT_AX_STATUS_HOMED p) then
      (c.motionCmd s 0x05 (2 ^ d)).setInt (MOT_AX_TARGET_TARGET p) (nmOfQ (BitVec.ofNat 32 (c.fld (LE_PARAM_VALUE (16 + s) 64))))
    else c.motionCmd s 0x06 (2 ^ d)) c

/-- Causes that end in FAULT (Table 8.10). -/
def faultCause (k : Nat) : Bool := k ∈ [cauDiscLost, cauEscalation, cauServoLost, cauPllFail, cauSpindle]

/-- Drive or release the clamp. -/
def Chip.setClamped (c : Chip) (s : Nat) (b : Bool) : Chip := c.setFlag (WMM_STN_STATE_CLAMPED s) b

/-- The clamp follows its request (R368): driven in EMPTY with a disc, released in LOADED and SAFE. -/
def Chip.clampRules (c : Chip) (s : Nat) : Chip :=
  let st := c.stState s
  if c.flag (WMM_STN_CTRL_CLAMP_REQ s) then
    if st = sEmpty ∧ c.flag (WMM_STN_STATE_DISC_PRESENT s) ∧ !c.flag (WMM_STN_STATE_CLAMPED s) then
      (c.setClamped s true).setStn s { c.stn s with settling := true }
    else c
  else if (st = sLoaded ∨ st = sSafe) ∧ !(c.stn s).holdClamp then (c.setClamped s false).changeState s sEmpty cauUnclamp
  else c

/-! ### Station reset (R598, R621, R622) -/

/-- A pickup's lanes, framer, decoder, write channel and sequencer as after a station reset. -/
def Chip.resetPickup (c : Chip) (p : Nat) : Chip :=
  let c := (List.range 8).foldl (fun c k => c.setLane (8 * p + k) {}) c
  let c := (c.setFrm p {}).setWch p {}
  let c := ((c.closeWeir 3 p false).openWeir 3 p)
  let c := ((c.closeWeir 8 p false).openWeir 8 p)
  let c := (c.setFlag ⟨WMM_CS, p, 1⟩ true).setFlag ⟨WMM_CS, 16 + p, 1⟩ false
  c.setSeqr p { calFor := (c.seqr p).calFor, calKept := (c.seqr p).calKept, online := true }

/-- The state that a reset leaves: FAULT where PLL, park sequencer, a fault input or a pair without engine calls for it. -/
def Chip.resetEnd (c : Chip) (s : Nat) : Nat :=
  let none_ := [2 * s, 2 * s + 1, 16 + s].any (fun q => c.pairMode q == 3 && (c.tolek (evenEng q)).role == 4)
  if !c.flag AFE_PLL_STATUS_LOCKED ∨ c.flag WMM_ROLE_PS_ACTED ∨ (c.spn s).fltInput ∨ (c.sled (2 * s)).fltInput ∨
      (c.sled (2 * s + 1)).fltInput ∨ none_ then sFault
  else if c.flag (WMM_STN_STATE_CLAMPED s) then sLoaded else sEmpty

/-- Reload a station's pairs from their running images, or from the new one that a pair waits for (R624); engines in FAULT are tested (R613, R621
step 4). -/
def Chip.reloadPairs (c : Chip) (s : Nat) : Chip :=
  [2 * s, 2 * s + 1, 16 + s].foldl (fun c q =>
    let img := (c.pair q).image.getD (c.runningImage (if q < 16 then 3 else 4))
    let bad := [evenEng q, oddEng q].filter (fun e => (c.tolek e).role == 4)
    let c := c.setFld (LE_PAIR_CTRL_RUN q) 0
    let c := if img = [] then c else c.loadPair q img bad
    let c := if c.flag WMM_PS_STATUS_ACTED then c.setFld (LE_PAIR_CTRL_RUN q) 0 else c
    match bad with
    | e :: _ => c.startTest e
    | [] => c) c

/-- Steps 2 to 5 of R621 and the end of the reset; commands that asked for it complete. -/
def Chip.stationResetBody (c : Chip) (s : Nat) : Chip :=
  let c := (c.abandonCal (2 * s) true).abandonCal (2 * s + 1) true
  let c := [2 * s, 2 * s + 1].foldl (fun c p => c.resetPickup p) c
  let c := (c.reloadPairs s).setFld (SPN_CTRL_BRAKE s) 0
  let c := if (c.spn s).fltInput then c else c.setFld (SPN_STATUS_DRIVER_FAULT s) 0
  let c := [2 * s, 2 * s + 1].foldl
    (fun c p => if (c.sled p).fltInput then c else c.setFld (MOT_AX_STATUS_DRIVER_FAULT p) 0) c
  let new := c.resetEnd s
  let c := if c.stState s = new then c else c.changeState s new cauStationReset
  let uids := (c.stn s).resetUids
  let c := c.setStn s { c.stn s with reset := false, resetUids := [], parkStep := 0, causes := [] }
  let c := uids.foldl (fun c u => c.finishS u (if new = sFault then stStationFault else stOk)) c
  c.clampRules s

/-! ### Mount (R359 to R363) -/

/-- The calibration kept for a pickup serves a quick mount: same disc, laser within 5 °C of its reading then (R361). -/
def Chip.quickMount (c : Chip) (p : Nat) : Bool :=
  match (c.seqr p).calFor with
  | some (id, t) => id == (c.vol p).volumeId && decide (c.fld (CAL_TH_TEMP_TEMP p) ≤ t + 40 ∧ t ≤ c.fld (CAL_TH_TEMP_TEMP p) + 40)
  | none => false

/-- Start the qualification of pickup `p` for a MOUNT (R359). -/
def Chip.startQual (c : Chip) (p uid : Nat) (writing : Bool) : Chip :=
  let s := p / 2
  let was := c.stState s
  let step := if was = sQualify ∨ was = sMounted then 2 else 1
  let quick := c.quickMount p
  let c := (c.setVol p { c.vol p with qual := some { step := step, waiters := [uid], writing := writing, quick := quick } }).loadServo p quick
  let c := if step = 2 then c.issue p [0x01] else c
  let c := (c.setVolState p vQualifying).setStn s { c.stn s with ended := false }
  let c := if was = sLoaded ∨ was = sSafe then
      let c := ((c.changeState s sSpinup cauMount).motionCmd s 0x04 3).spinToTarget s
      if c.flag WMM_PS_STATUS_ACTED then c.psPark s else if c.stationLevel s = 3 then c.park s cauThermal else c
    else c
  c.showStep s

/-- The decision on a MOUNT (R359); `m.ended` is its status once its volume's outcome is known. -/
def Chip.decideMount (c : Chip) (uid : Nat) : Chip :=
  match c.cmd uid with
  | none => c
  | some m =>
    let p := m.volume
    let s := p / 2
    let st := c.stState s
    let writing := m.flags.testBit 0
    let vs := c.volState p
    let waitHere := fun (c : Chip) =>
      (c.updCmd uid (fun m => { m with wait := .station })).setStn s { c.stn s with waiters := (c.stn s).waiters ++ [uid] }
    if st = sFault ∨ c.afe.failed then c.finishS uid stStationFault
    else if st = sEmpty then c.finishS uid stMediaFault
    else if st = sParking ∨ vs = vUnmounting then waitHere c
    else if !(c.reg WMM_CS).getLsbD p then c.finishS uid stStationFault
    else if vs = vMountedWrite ∧ writing ∨ vs = vMountedRead ∧ !writing then c.finishS uid stOk
    else if vs = vMountedRead ∧ (c.vol p).closed then c.finishS uid stWritten
    else if c.mounted p then c.finishInvalid uid 11
    else
      let c := c.updCmd uid fun m => { m with wait := .station }
      match (c.vol p).qual with
      | some q => c.setVol p { c.vol p with qual := some { q with waiters := q.waiters ++ [uid], writing := q.writing } }
      | none => c.startQual p uid writing

/-- Commands that waited for a station go on once its park has ended. -/
def Chip.wakeStation (c : Chip) (s : Nat) : Chip :=
  let uids := (c.stn s).waiters
  let c := c.setStn s { c.stn s with waiters := [] }
  let fault := c.stState s == sFault
  let c := uids.foldl (fun c u => match c.cmd u with
    | none => c
    | some m =>
      if m.opcode = opMount then c.decideMount u
      else if fault then c.finishS u stStationFault else c.finishS u (m.ended.getD stOk)) c
  let c := c.setStn s { c.stn s with holdClamp := false }
  c.clampRules s

/-- Step 4 of Table 8.12 and the end of a park: SAFE or FAULT, or on with a station reset (R366). -/
def Chip.parkEnd (c : Chip) (s : Nat) : Chip :=
  let st := c.stn s
  let c := (c.loopCmd (2 * s) 0x07 1).loopCmd (2 * s + 1) 0x07 1
  let first := c.fld (WMM_STN_STATE_CAUSE s)
  let c := c.setStn s { c.stn s with parkStep := 0, causes := [] }
  if st.causes.any faultCause then
    let c := (c.changeState s sFault first)
    let uids := st.resetUids
    let c := c.setStn s { c.stn s with reset := false, resetUids := [] }
    (uids.foldl (fun c u => c.finishS u stStationFault) c).wakeStation s
  else if st.reset then (c.stationResetBody s).wakeStation s
  else
    let c := c.changeState s sSafe first
    if (c.stn s).holdClamp then c.wakeStation s else (c.clampRules s).wakeStation s

/-- Ask for a station reset (R621); `uid` is the command that does. -/
def Chip.stationReset (c : Chip) (s : Nat) (uid : Option Nat) : Chip :=
  let c := c.setStn s { c.stn s with resetUids := (c.stn s).resetUids ++ uid.toList }
  let c := c.journal actRestart s
  match c.stState s with
  | 2 | 3 | 4 | 5 => c.park s cauStationReset
  | _ => c.stationResetBody s

/-- Every pickup being qualified has finished: the station is MOUNTED with a volume mounted, or parks (R360 step 7, R363). -/
def Chip.qualCheck (c : Chip) (s : Nat) : Chip :=
  let ps := [2 * s, 2 * s + 1]
  if ps.any (fun p => (c.vol p).qual.isSome) ∨ !(c.stState s = sQualify ∨ c.stState s = sMounted ∨ c.stState s = sSpinup) then c
  else if ps.any (fun p => c.mounted p || c.volState p == vUnmounting) then
    let c := if c.stState s = sMounted then c else c.changeState s sMounted cauMounted
    let uids := (c.stn s).waiters.filter (fun u => ((c.cmd u).bind (·.ended)).isSome)
    let c := c.setStn s { c.stn s with waiters := (c.stn s).waiters.filter (fun u => !(uids.contains u)) }
    c.endWaiters uids stOk
  else c.park s (if c.stState s = sQualify ∧ !(c.stn s).ended then cauMountFailed else cauMountEnded)

/-- A pickup fails its qualification (R362). -/
def Chip.qualFail (c : Chip) (p : Nat) : Chip :=
  let s := p / 2
  let c := (c.inc (WMM_STN_MOUNT_FAILS_COUNT s)).mark (WMM_STN_EVENT_MOUNT_FAIL s)
  (c.endQual p stMediaFault).qualCheck s

/-- A candidate of a copy and the one that is current (R115): the higher generation; of equal ones, the copy that R114 gives it. -/
def currentRecord (a b : Option MgmtRec) : Option MgmtRec :=
  match a, b with
  | none, x => x
  | x, none => x
  | some x, some y => if x.gen = y.gen then (if x.gen % 2 = 0 then some x else some y) else if x.gen < y.gen then some y else some x

/-- Positions used in a copy. -/
def copyUsed (f : CopyFound) : Nat := (f.lastUsed.map (· + 1)).getD 0

/-- What step 5 finds of a layer is kept (R109, R112, R115, R117, R118). -/
def Chip.takeRecord (c : Chip) (p layer : Nat) (r : QualIn) : Chip :=
  let cur := currentRecord r.copyA.cand r.copyB.cand
  let ua := copyUsed r.copyA
  let ub := copyUsed r.copyB
  let l : LayerRec := match cur with
    | none => { usedA := ua, usedB := ub }
    | some m =>
      { gen := m.gen, session := m.session, usedA := ua, usedB := ub, valid := true, dlFull := m.dlFull, ztValid := m.ztValid, defects := m.defects,
        readOnly := decide (1024 ≤ if m.gen % 2 = 1 then ua else ub),
        fills := Cells.putRun (fun _ => 0) [] 0 m.fills }
  let c := c.setVol p ((c.vol p).setLayer layer l)
  let low := fun (c : Chip) (copy used : Nat) =>
    if 1008 < used then c.log 0x0304 .m ([p, layer, copy] ++ detBytes 2 (1024 - used)) else c
  let c := low (low c 0 ua) 1 ub
  match layer, cur with
  | 0, some m =>
    c.setVol p { c.vol p with volumeId := m.volumeId, side := m.side, closed := m.closed, session := m.session, ever := true }
  | _, _ => c

/-- Step 6: the zone entries of a layer go to buffer DRAM (R196, R360). -/
def Chip.loadZones (c : Chip) (p layer : Nat) (r : List (List Byte)) : Chip :=
  (List.range 512).foldl (fun c i => match r[i]? with
    | some bs => c.bufWrite (zoneAddr p layer (i / 8) (i % 8)) (bs.take 64)
    | none => c) c

/-- The recorded map of a volume at mount (R280): blocks with defect entries are RECORDED, staged ones PENDING or RECORDED. -/
def Chip.mountMap (c : Chip) (p : Nat) : Chip :=
  let v := c.vol p
  let c := (List.range 10).foldl (fun c l => ((v.layer l).defects).foldl (fun c d => match pbaLba d.home with
    | some lba => c.setRec p lba .recorded
    | none => c) c) c
  (c.stagedOf (c.discOf p)).foldl (fun c e => c.setRec p e.lba (if e.state = 4 then .recorded else .pending)) c

/-- Step 7 for pickup `p`: the volume is mounted, and its MOUNTs wait for the station (R110, R360, R605). Writes of the disc side that were lost
have been reported then. -/
def Chip.qualMounted (c : Chip) (p : Nat) (q : Qual) : Chip :=
  let s := p / 2
  let v := c.vol p
  let write := q.writing && !v.closed
  let c := c.setVol p { v with qual := none, session := if write then (v.session + 1) % 65536 else v.session }
  let lost := c.journalMount (c.discOf p)
  let told : Chip := if lost.1 then { lost.2 with buf := { lost.2.buf with lost := lost.2.buf.lost.filter (· != c.discOf p) } } else lost.2
  let c := (told.mountMap p).setVolState p (if write then vMountedWrite else vMountedRead)
  let c := c.setSeqr p { c.seqr p with calFor := some (v.volumeId, c.fld (CAL_TH_TEMP_TEMP p)), calKept := c.servoWords p }
  let status := if lost.1 then stWriteLost else if q.writing && v.closed then stWritten else stOk
  let c := q.waiters.foldl (fun c u => c.updCmd u fun m => { m with ended := some status }) c
  let c := c.setStn s { c.stn s with waiters := (c.stn s).waiters ++ q.waiters }
  (c.showStep s).qualCheck s

/-- The next step of a qualification. -/
def Chip.setQual (c : Chip) (p : Nat) (q : Qual) : Chip := (c.setVol p { c.vol p with qual := some q }).showStep (p / 2)

/-- Step 3 on a layer: FOCUS and PULL_IN. -/
def Chip.lockLayer (c : Chip) (p layer : Nat) : Chip := c.issue p [0x02 + 256 * layer, 0x03]

/-- After the last work on a layer: the next one, or step 7. -/
def Chip.nextLayer (c : Chip) (p : Nat) (q : Qual) : Chip :=
  if q.layer < 9 then (c.setQual p { q with step := 3, layer := q.layer + 1, tries := 0 }).lockLayer p (q.layer + 1)
  else c.setQual p { q with step := 7, tries := 0 }

/-- An atomic step of a qualification ends (Table 8.11). One that was ended stops here (R363). Step 4 is made of many: it goes on until its
measurements have ended. -/
def Chip.qualStep (c : Chip) (p : Nat) (q : Qual) (r : QualIn) : Chip :=
  let s := p / 2
  if q.stop then
    let c := c.setStn s { c.stn s with ended := true }
    (c.endQual p stAborted).qualCheck s
  else match q.step with
  | 1 =>
    if r.ok then
      let c := if c.stState s = sSpinup then c.changeState s sQualify cauAtSpeed else c
      [2 * s, 2 * s + 1].foldl (fun c x => match (c.vol x).qual with
        | some y => if y.step = 1 then (c.setQual x { y with step := 2 }).issue x [0x01] else c
        | none => c) c
    else c.park s cauSpindle
  | 2 =>
    if r.ok then (c.setQual p { q with step := 3, layer := 0, tries := 0 }).lockLayer p 0
    else if q.tries + 1 < 3 then (c.setQual p { q with tries := q.tries + 1 }).issue p [0x01] else c.qualFail p
  | 3 =>
    if r.ok then (c.setQual p { q with step := 4, tries := 0 }).startMeasure p 3 q.layer [4, 5, 6] q.quick none
    else if q.tries + 1 < 3 then (c.setQual p { q with tries := q.tries + 1 }).lockLayer p q.layer
    else
      let f := WMM_STN_PU_LAYER_UNUSABLE s (p % 2)
      let c := c.setFld f (c.fld f ||| 2 ^ q.layer)
      if q.layer = 0 then c.qualFail p else c.nextLayer p q
  | 4 => if (c.cal p).run.isSome then c else c.setQual p { q with step := 5 }
  | 5 =>
    let c := c.takeRecord p q.layer r
    if q.layer = 0 ∧ !((c.vol p).layer 0).valid then c.qualFail p
    else
      let zt := match currentRecord r.copyA.cand r.copyB.cand with
        | some m => if m.ztValid then m.zt else []
        | none => []
      (c.loadZones p q.layer zt).setQual p { q with step := 6 }
  | 6 => c.nextLayer p q
  | _ => c.qualMounted p q

/-- QUALIFY_STEP_DONE. Step 1 ends well only at AT_SPEED. -/
def execQualifyStepDone (p : Pickup) (r : QualIn) (s : State) : Out :=
  s.on fun c => match (c.vol p).qual with
    | none => c
    | some q => if q.step = 1 ∧ r.ok ∧ !q.stop ∧ !c.flag (SPN_STATUS_AT_SPEED (p.val / 2)) then c else c.qualStep p q r

/-! ### Clamp, library and host requests (R368 to R370) -/

/-- DISC_PRESENT_CHANGE (R368). -/
def Chip.discPresent (c : Chip) (s : Nat) (b : Bool) : Chip :=
  let c := c.setFlag (WMM_STN_STATE_DISC_PRESENT s) b
  if !b ∧ c.flag (WMM_STN_STATE_CLAMPED s) then
    let st := c.stState s
    if st = sEmpty then
      ((c.setClamped s false).setFld (WMM_STN_CTRL_CLAMP_REQ s) 0).setStn s { c.stn s with settling := false }
    else
      let c := c.mark (WMM_STN_EVENT_DISC_LOST s)
      if st = sLoaded ∨ st = sSafe then
        ((c.setClamped s false).setFld (WMM_STN_CTRL_CLAMP_REQ s) 0).changeState s sEmpty cauDiscLost
      else c.park s cauDiscLost
  else c.clampRules s

def execDiscPresentChange (x : Station) (present : Bool) (s : State) : Out := s.on fun c => c.discPresent x present

/-- CLAMP_SETTLED: the station is LOADED 200 ms after the clamp was driven. -/
def execClampSettled (x : Station) (s : State) : Out :=
  s.on fun c => c.when ((c.stn x).settling && c.stState x == sEmpty) fun c =>
    ((c.setStn x { c.stn x with settling := false }).changeState x sLoaded cauClamp).clampRules x

/-- A write of CLAMP_REQ. A release that meets a MOUNT taken before it waits until the station is next SAFE (R359). -/
def Chip.clampReq (c : Chip) (s : Nat) (v : Bool) : Chip :=
  let c := c.setFlag (WMM_STN_CTRL_CLAMP_REQ s) v
  let st := c.stState s
  let mounting := (c.stn s).waiters.any (fun u => ((c.cmd u).map (·.opcode)) == some opMount)
  let late := !v && (st == sSpinup || st == sQualify || st == sMounted || mounting)
  let c := if late then c.mark (WMM_STN_EVENT_UNCLAMP_DEFERRED s) else c
  let c := c.setStn s { c.stn s with holdClamp := !v && st == sParking && mounting }
  c.clampRules s

def execClampReq (x : Station) (v : Bool) (s : State) : Out := s.on fun c => c.clampReq x v

/-- LP_PARK: each station whose bit is 1 parks (R369). -/
def Chip.lpPark (c : Chip) (mask : Nat) : Chip :=
  (List.range 8).foldl (fun c x => if mask.testBit x then c.park x cauLibraryPark else c) c

def execLpPark (mask : Byte) (s : State) : Out := s.on fun c => c.lpPark mask.toNat

/-- HOST_PARK (R370). -/
def execHostPark (x : Station) (s : State) : Out := s.on fun c => c.park x cauHostPark

/-- A loop pair reports RETRACTED, or is off. -/
def Chip.retracted (c : Chip) (p : Nat) : Bool :=
  !c.flag (LE_PAIR_CTRL_RUN p) || (c.loop p).state == 11 || (c.loop p).state == 0

/-- PARK_RETRACT_DONE: both pairs are RETRACTED, or 400 periods have passed (Table 8.12 step 2). -/
def execParkRetractDone (x : Station) (timeout : Bool) (s : State) : Out :=
  s.on fun c => c.when (c.stState x == sParking && (c.stn x).parkStep == 2 && (timeout || c.retracted (2 * x) && c.retracted (2 * x + 1)))
    fun c => c.parkBrake x

/-- A sled counts as at home in a park: stopped at HOME_POS, or not homed (R410). -/
def Chip.sledHome (c : Chip) (p : Nat) : Bool :=
  !c.flag (MOT_AX_STATUS_HOMED p) || c.fld (MOT_AX_STATUS_STATE p) == 0 && c.fld (MOT_AX_POS_POS p) == c.fld (LE_PARAM_VALUE (16 + p / 2) 64)

/-- PARK_STOP_DONE: the spindle is below 30 rpm and the sleds are at home (step 3); under the SAFE entry the sleds need not be (R411). -/
def execParkStopDone (x : Station) (s : State) : Out :=
  s.on fun c => c.when (c.stState x == sParking && (c.stn x).parkStep == 3 && c.stopped x &&
      (c.fld (LE_PAIR_CTRL_ENTRY (16 + x)) == 1 || c.sledHome (2 * x) && c.sledHome (2 * x + 1)))
    fun c => c.parkEnd x

/-! ### Escalations (R367, R411) -/

/-- LOOP_ESCALATION: under MAIN, ALT1 or ALT2 the pair goes to SAFE and the station parks; under SAFE the pair's runs end. -/
def Chip.loopEscalation (c : Chip) (p : Nat) : Chip :=
  let s := p / 2
  if c.fld (LE_PAIR_CTRL_ENTRY p) ≠ 1 then
    let c := (c.setFld (LE_PAIR_CTRL_ENTRY p) 1).journal actEntry p
    ((c.mark (WMM_STN_EVENT_ESCALATED s)).log 0x0501 .m [p]).park s cauEscalation
  else if (c.pair p).entry = 1 ∧ (c.pair p).hasRun then
    let c := c.setFld (LE_PAIR_CTRL_RUN p) 0
    (c.setPair p { c.pair p with hasRun := false, gate := [] }).setLoop p {}
  else c

def execLoopEscalation (p : Pickup) (s : State) : Out := s.on fun c => c.when (c.flag (LE_PAIR_EVENT_ESCALATED p)) fun c => c.loopEscalation p

/-- MOTION_ESCALATION. -/
def Chip.motionEscalation (c : Chip) (s : Nat) : Chip :=
  let q := 16 + s
  if c.fld (LE_PAIR_CTRL_ENTRY q) ≠ 1 then
    (((c.setFld (LE_PAIR_CTRL_ENTRY q) 1).journal actEntry q).log 0x0502 .m [q]).park s cauEscalation
  else if (c.pair q).entry = 1 ∧ (c.pair q).hasRun then
    let c := (c.setFld (SPN_CTRL_BRAKE s) 1).setFld (LE_PAIR_CTRL_RUN q) 0
    (c.setPair q { c.pair q with hasRun := false, gate := [] }).setMotion s {}
  else c

def execMotionEscalation (x : Station) (s : State) : Out :=
  s.on fun c => c.when (c.flag (LE_PAIR_EVENT_ESCALATED (16 + x))) fun c => c.motionEscalation x

end Sys2Proof.Machine
end

