-- ==== Sys2Proof/Machine/Fatal.lean ====
section
/-! DEFINITION. The fatal state (R451, R452). -/

namespace Sys2Proof.Machine

/-- A watermaster governs the M-die: the Flume is up and one of the two is ACTIVE (R440, R445, R451). -/
def Chip.governed (c : Chip) : Bool :=
  c.flag FLM_STATUS_UP && !c.flag WMM_PS_STATUS_ACTED && (c.fld WMM_ROLE_ROLE == 1 || c.fld WMH_ROLE_ROLE == 1)

/-- What FATAL does on the M-die, once it learns of it: passes end, nothing more is recorded, and every station not EMPTY, SAFE or FAULT
parks. A station in LOADED does so too: it is not among the three that stay. -/
def Chip.fatalPark (c : Chip) : Chip :=
  if !c.isFatal ∨ !c.governed then c else
  let c := (List.range 16).foldl (fun c p =>
    let c := (c.cutPass p).dropQueuedPass p
    c.setVol p { c.vol p with mgmt := none }) c
  (List.range 8).foldl (fun c s => c.park s cauEscalation) c

/-- A command that is not completed ends with DEVICE_FATAL; what a WRITE holds is given back (R451, R492). -/
def Chip.fatalCmd (c : Chip) (m : Cmd) : Chip :=
  if m.opcode = opGetLog ∨ m.status.isSome then c
  else
    let c := if m.opcode = opWrite then c.undoWrite m else c
    c.finishS m.uid stFatal

/-- The device enters FATAL with a cause; the first cause stays. -/
def Chip.enterFatal (c : Chip) (cause : Nat) : Chip :=
  if c.isFatal then c else
  let c := ((c.setFld WMH_FATAL_CAUSE cause).setFld WMH_FATAL_TIME_TIME c.nowH.toNat).mark WMH_EVENT_FATAL
  let c := ((c.setFld WMH_ROLE_FATAL 1).setFld GEN_CONFIG_FATAL 1).log 0x060C .h [cause]
  let c := c.journal actFatal 0
  let c := (List.range 2).foldl (fun c x => c.postEvent x 2 0xFFFF stFatal cause 0 0) c
  let c := c.host.cmds.foldl (fun c m => c.fatalCmd m) c
  let c := { c with host := { c.host with barrier := none, activating := none } }
  let c := if c.buf.scrub.uid.isSome
    then { c with buf := { c.buf with scrub := { c.buf.scrub with busy := false, uid := none } } }.setFld BUF_STATUS_SCRUB_BUSY 0 else c
  c.fatalPark

end Sys2Proof.Machine
end

