-- ==== Sys2Proof/Machine/Buffer.lean ====
section
/-! DEFINITION. Buffer DRAM with its symbol code (R533 to R539), the block cache (R543 to R550), scrubs (R541, R542), and the rows of the
Cistern and the device log that use it (R520, R521, R525). -/

namespace Sys2Proof.Machine

/-! ### What a unit holds (Tables 13.2 and 13.3) -/

def mib : Nat := 2 ^ 20

/-- The staged-write list entry whose data or whose own place a unit holds (R539). An entry lies at 32 × (SEQ mod 4,194,304) in the list's
region (log entry 20). -/
def Chip.stagedAt (c : Chip) (u : Nat) : Option Staged :=
  c.buf.staged.find? (fun e => slotAddr e.slot / 4096 == u / 64 || (736 * mib + 32 * (e.seq % 4194304)) / 64 == u)

/-- The entry is the first to be cut at the next warm reset, unless an earlier one is (R561). -/
def Chip.cutAt (c : Chip) (seq : Nat) : Chip :=
  let order := c.buf.staged.map (·.seq)
  let place := fun s => (order.findIdx? (· == s)).getD order.length
  let keep := c.buf.cutSeq.any (fun s => decide (place s < place seq))
  if keep then c else { c with buf := { c.buf with cutSeq := some seq } }

/-- Mark the words of a run of places as uncorrectable; `i` counts from the head. -/
def spoilWords (lo n i : Nat) (ws : List WWord) : List WWord :=
  ws.mapIdx (fun j w => if lo ≤ i + j ∧ i + j < lo + n then { w with corrupt := true } else w)

def spoilItems (lo n : Nat) : Nat → List (List WWord) → List (List WWord)
  | _, [] => []
  | i, it :: t => spoilWords lo n i it :: spoilItems lo n (i + it.length) t

/-- The eight words that unit `u` holds of a deep-cistern cell are uncorrectable (R517). -/
def Chip.spoilDeep (c : Chip) (u : Nat) : Chip :=
  let off := 64 * u - c.fld CIS_DEEP_BASE_BASE * mib
  let cell := off / 128
  c.core.cis.foldl (fun c k =>
    match k.2.mid.findIdx? (fun x => x.deep == some cell) with
    | none => c
    | some i =>
      let w := weirKey (1 + k.1 % 2) (k.1 / 2)
      let lo := (c.cellPlaces k.1 i).1 + 8 * (off / 64 % 2)
      c.setWeir w { c.weir w with items := spoilItems lo 8 0 (c.weir w).items }) c

/-- What an uncorrectable read of unit `u` brings about, by what the unit holds (Table 13.3). Records of a volume, which State holds, are found
again as they stand (log entry 21). -/
def Chip.ueOutcome (c : Chip) (u : Nat) : Chip :=
  let a := 64 * u
  match c.stagedAt u with
  | some e => (((c.mark BUF_LAST_UE_STAGED).mark BUF_EVENT_UE_STAGED).cutAt e.seq).enterFatal 2
  | none =>
    let c := c.setFld BUF_LAST_UE_STAGED 0
    let deep := c.fld CIS_DEEP_BASE_BASE * mib
    if 18 * 1024 * mib ≤ a then
      { c with buf := { c.buf with store := c.buf.store.filter (fun x => x.off / 4096 != a / 4096) } }
    else if deep ≤ a ∧ a < deep + c.fld CIS_DEEP_SIZE_SIZE * mib then c.spoilDeep u
    else if mib ≤ a ∧ a < 2 * mib then c.bufWrite a (List.replicate 64 0)
    else if 3 * mib ≤ a ∧ a < 8 * mib then c.bufWrite a factoryEntry.bytes
    else if 48 * mib ≤ a ∧ a < 576 * mib then
      let v := (a - 48 * mib) / (33 * mib)
      let first := 2 ^ 28 * v + (a - 48 * mib) % (33 * mib) * 4
      { c with path := { c.path with map := c.path.map.filter (fun x => x.1 < first || first + 256 ≤ x.1) } }
    else if 576 * mib ≤ a ∧ a < 608 * mib then
      let p := (a - 576 * mib) / (2 * mib)
      let f := c.frm p
      c.setFrm p { f with assembly := f.assembly.eraseIdx ((a - 576 * mib) % (2 * mib) / 0x40000) }
    else if 608 * mib ≤ a ∧ a < 736 * mib then
      match c.path.accs[(a - 608 * mib) / 32768]? with
      | some k => c.setAcc k.1 { k.2 with rows := [], added := [], toRead := k.2.toRead ++ k.2.added }
      | none => c
    else c

/-! ### Reading and writing units (R534 to R538) -/

/-- Change the data symbols of a unit. -/
def Chip.patchUnit (c : Chip) (u : Nat) (off : List (Nat × Nat)) : Chip :=
  (off.filter (fun e => decide (e.1 < 64))).foldl
    (fun c e => c.putBytes (64 * u + e.1) [c.byte (64 * u + e.1) ^^^ BitVec.ofNat 8 e.2]) c

/-- A unit was corrected and is written back (R536). -/
def Chip.noteCe (c : Chip) (u : Nat) (dev : Option Nat) : Chip :=
  let c := ((c.inc BUF_CE_UNITS_COUNT).inc BUF_CE_WRITEBACKS_COUNT).mark BUF_EVENT_CE
  let c := ((c.setFld BUF_LAST_CE_ADDR (64 * u)).setFld BUF_LAST_CE_DEVICE (dev.getD 15)).setFld BUF_LAST_CE_SUBCH (u % 8)
  if dev.isSome then (c.inc BUF_CE_DEVICE_UNITS_COUNT).mark BUF_EVENT_CE_DEVICE else c

/-- A unit was read as uncorrectable (R539). -/
def Chip.noteUe (c : Chip) (u : Nat) : Chip :=
  (((c.inc BUF_UE_UNITS_COUNT).mark BUF_EVENT_UE).setFld BUF_LAST_UE_ADDR (64 * u)).ueOutcome u

/-- A unit that nothing has written since power-on carries no valid check symbols (R538). -/
def Chip.unitWritten (c : Chip) (u : Nat) : Bool :=
  c.unitMark u != .asRange || c.buf.initRanges.any (fun r => decide (r.1 ≤ u ∧ u < r.2))

/-- Read a unit of DRAM: whether it is uncorrectable, and what the read does (R535, R536, R539). What a unit without valid check symbols
reads as is free (log entry 22). -/
def Chip.readUnit (c : Chip) (u : Nat) : Bool × Chip :=
  match c.unitMark u with
  | .good => (false, c)
  | .asRange =>
    if c.unitWritten u then (false, c) else
    let r := c.draw
    if r.1.getLsbD 0 then (true, r.2.noteUe u) else (false, r.2)
  | .changed errs =>
    match unitRead errs with
    | .clean off => (false, (c.patchUnit u off).setUnitMark u .good)
    | .corrected dev off => (false, ((c.patchUnit u off).setUnitMark u .good).noteCe u dev)
    | .uncorrectable => (true, c.noteUe u)

/-- Read units: whether one of them is uncorrectable. -/
def Chip.readUnits (c : Chip) (us : List Nat) : Bool × Chip :=
  us.foldl (fun r u => let x := r.2.readUnit u; (r.1 || x.1, x.2)) (false, c)

/-- A read-modify-write of a unit before its new bytes go in: an uncorrectable one keeps its bytes as read (R537). -/
def Chip.rmwUnit (c : Chip) (u : Nat) : Chip :=
  let errs := match c.unitMark u with
    | .changed e => e
    | _ => []
  let r := (c.inc BUF_RMW_COUNT).readUnit u
  if r.1 then r.2.patchUnit u (wordErrs (errWord errs)) else r.2

/-- Write bytes to DRAM: whole units as they are, others by read-modify-write (R534, R537). -/
def Chip.dramWrite (c : Chip) (a : Nat) (bs : List Byte) : Chip :=
  let part := (unitsOf a bs.length).filter (fun u => decide (64 * u < a) || decide (a + bs.length < 64 * u + 64))
  (part.foldl (fun c u => c.rmwUnit u) c).bufWrite a bs

/-- Symbols that device faults have changed join those already changed. -/
def Chip.addErrs (c : Chip) (errs : List UnitErr) : Chip :=
  errs.foldl (fun c e =>
    let es := e.syms.map (fun x => (x.1, x.2.toNat))
    c.setUnitMark e.unit (match c.unitMark e.unit with
      | .changed old => .changed (old ++ es)
      | .good => .changed es
      | .asRange => if c.unitWritten e.unit then .changed es else .asRange)) c

/-! ### The cache's arrays (R543, R544, R546) -/

/-- The set of a line: offset A[21:12]. -/
def setOf (line : Nat) : Nat := line % 1024

def CacheSet.way (s : CacheSet) (w : Nat) : Option Line := Cells.get (fun _ => none) s.ways w
def CacheSet.setWay (s : CacheSet) (w : Nat) (l : Option Line) : CacheSet :=
  { s with ways := Cells.put (fun _ => none) s.ways w l }

/-- The way that holds a line. -/
def CacheSet.wayOf (s : CacheSet) (line : Nat) : Option Nat :=
  (List.range 16).find? (fun w => (s.way w).any (fun l => l.line == line))

/-- Tree pseudo-LRU: the nodes on the path to way `w` point away from it. Node n has the children 2n + 1 and 2n + 2; a node that is 1
points to the second. -/
def plruTouch (t : BitVec 15) (w : Nat) : BitVec 15 :=
  ([3, 2, 1, 0].foldl (fun (r : BitVec 15 × Nat) b =>
    let d := w.testBit b
    let m : BitVec 15 := 1#15 <<< r.2
    (if d then r.1 &&& ~~~ m else r.1 ||| m, 2 * r.2 + 1 + d.toNat)) (t, 0)).1

/-- The way that the tree points to. -/
def plruVictim (t : BitVec 15) : Nat :=
  ((List.range 4).foldl (fun (r : Nat × Nat) _ =>
    let d := t.getLsbD r.2
    (2 * r.1 + d.toNat, 2 * r.2 + 1 + d.toNat)) (0, 0)).1

def Chip.cacheOn (c : Chip) : Bool := c.flag CCH_CTRL_ENABLED

/-- The line as cached: in its set, in the victim cache, where an allocation waits, or in the eviction buffer. -/
def Chip.lineOf (c : Chip) (line : Nat) : Option Line :=
  let s := c.cacheSet (setOf line)
  match s.wayOf line with
  | some w => s.way w
  | none => (c.buf.victims ++ c.buf.allocWaits ++ c.buf.evicts).find? (fun l => l.line == line)

/-- Change every copy of a line. -/
def Chip.mapLine (c : Chip) (line : Nat) (f : Line → Line) : Chip :=
  let s := c.cacheSet (setOf line)
  let c := match s.wayOf line with
    | some w => c.setCacheSet (setOf line) (s.setWay w ((s.way w).map f))
    | none => c
  let g := fun (ls : List Line) => ls.map (fun l => if l.line = line then f l else l)
  { c with buf := { c.buf with victims := g c.buf.victims, allocWaits := g c.buf.allocWaits, evicts := g c.buf.evicts } }

/-- Change the copy that an access reaches: any but the one in the eviction buffer. -/
def Chip.mapFront (c : Chip) (line : Nat) (f : Line → Line) : Chip :=
  let ev := c.buf.evicts
  let c := c.mapLine line f
  { c with buf := { c.buf with evicts := ev } }

/-- Bytes of a cached line. -/
def Chip.lineBytes (c : Chip) (l : Line) (off n : Nat) : List Byte :=
  (List.range n).map (fun i => (Cells.get (fun _ => none) l.data (off + i)).getD (c.byte (4096 * l.line + off + i)))

/-- A line is evicted: it enters the victim cache, whose oldest line leaves it (R546). -/
def Chip.pushVictim (c : Chip) (l : Line) : Chip :=
  let vs := c.buf.victims ++ [l]
  if vs.length ≤ 64 then { c with buf := { c.buf with victims := vs } }
  else match vs with
    | o :: rest =>
      { c with buf := { c.buf with victims := rest, evicts := if o.dirty then c.buf.evicts ++ [o] else c.buf.evicts } }
    | [] => c

/-- An eviction can be taken: the eviction buffer has room where the victim cache's oldest line needs it. -/
def Chip.canEvict (c : Chip) : Bool :=
  decide (c.buf.victims.length < 64) || !(c.buf.victims.headD ⟨0, false, []⟩).dirty || decide (c.buf.evicts.length < 16)

/-- Allocate a line (R544, R546): the lowest invalid way, or the way that pseudo-LRU gives up; or wait for an eviction-buffer entry. -/
def Chip.install (c : Chip) (l : Line) : Chip :=
  let k := setOf l.line
  let s := c.cacheSet k
  match (List.range 16).find? (fun w => (s.way w).isNone) with
  | some w => c.setCacheSet k { s.setWay w (some l) with plru := plruTouch s.plru w }
  | none =>
    let w := plruVictim s.plru
    if c.canEvict then
      let c := match s.way w with
        | some o => c.pushVictim o
        | none => c
      c.setCacheSet k { s.setWay w (some l) with plru := plruTouch s.plru w }
    else { c with buf := { c.buf with allocWaits := c.buf.allocWaits ++ [l] } }

/-- Allocations that waited go on as eviction-buffer entries free; `n` bounds them. -/
def Chip.settleAllocs (c : Chip) : Nat → Chip
  | 0 => c
  | n + 1 =>
    match c.buf.allocWaits with
    | [] => c
    | l :: rest =>
      if c.canEvict then Chip.settleAllocs (({ c with buf := { c.buf with allocWaits := rest } } : Chip).install l) n else c

/-- A line of the victim cache returns to its set; the line it displaces takes its place (R547). -/
def Chip.recall (c : Chip) (i : Nat) (l : Line) : Chip :=
  let k := setOf l.line
  let s := c.cacheSet k
  let c := c.inc CCH_VICTIM_HITS_COUNT
  match (List.range 16).find? (fun w => (s.way w).isNone) with
  | some w =>
    let c := { c with buf := { c.buf with victims := c.buf.victims.eraseIdx i } }
    c.setCacheSet k { s.setWay w (some l) with plru := plruTouch s.plru w }
  | none =>
    let w := plruVictim s.plru
    let c := match s.way w with
      | some o => { c with buf := { c.buf with victims := c.buf.victims.set i o } }
      | none => c
    c.setCacheSet k { s.setWay w (some l) with plru := plruTouch s.plru w }

/-- An access that uses a cached line: hits are counted, and a line of the victim cache is recalled (R544, R547). -/
def Chip.touchLine (c : Chip) (line : Nat) : Chip :=
  let k := setOf line
  let s := c.cacheSet k
  match s.wayOf line with
  | some w => (c.inc CCH_HITS_COUNT).setCacheSet k { s with plru := plruTouch s.plru w }
  | none =>
    match c.buf.victims.findIdx? (fun l => l.line == line) with
    | some i => c.recall i (c.buf.victims.getD i ⟨line, false, []⟩)
    | none => if c.buf.evicts.any (fun l => l.line == line) then c.inc CCH_EVICT_HITS_COUNT else c

/-! ### Accesses that never allocate (R543, R545) -/

/-- Pieces of a run of bytes by line: line, offset in it, length. -/
def linePieces (a n : Nat) : List (Nat × Nat × Nat) :=
  (List.range ((a + n + 4095) / 4096 - a / 4096)).map (fun i =>
    let l := a / 4096 + i
    let lo := max a (4096 * l)
    (l, lo - 4096 * l, min (a + n) (4096 * l + 4096) - lo))

/-- Read bytes: the line where it is cached, else DRAM. Nothing where a unit is uncorrectable. -/
def Chip.memRead (c : Chip) (a n : Nat) : Option (List Byte) × Chip :=
  (linePieces a n).foldl (fun r p =>
    match r.2.lineOf p.1 with
    | some l => (r.1.map (· ++ r.2.lineBytes l p.2.1 p.2.2), r.2.touchLine p.1)
    | none =>
      let a := 4096 * p.1 + p.2.1
      let x := r.2.readUnits (unitsOf a p.2.2)
      (if x.1 then none else r.1.map (· ++ x.2.bytes a p.2.2), x.2)) (some [], c)

/-- Write bytes: DRAM and every cached copy alike; a line stays clean or dirty as it was. -/
def Chip.memWrite (c : Chip) (a : Nat) (bs : List Byte) : Chip :=
  (linePieces a bs.length).foldl (fun c p =>
    match c.lineOf p.1 with
    | none => c
    | some _ => (c.touchLine p.1).mapLine p.1 fun l =>
      { l with data := l.data.filter (fun b => decide (b.1 < p.2.1) || decide (p.2.1 + p.2.2 ≤ b.1)) }) (c.dramWrite a bs)

/-! ### Miss registers (R548) -/

/-- Take a miss register for an access, or merge into the one of its line. Those beyond 256 wait for one to free; accesses of one beyond 32
wait until the line is installed, when they are served like the others. -/
def Chip.addMiss (c : Chip) (line : Nat) (x : MissAccess) : Chip :=
  match c.buf.misses.find? (fun m => m.line == line) with
  | some m =>
    let c := if m.accesses.length < 32 then c.inc CCH_MERGES_COUNT else c.mark CCH_EVENT_MERGE_FULL
    { c with buf := { c.buf with misses := c.buf.misses.map (fun m =>
        if m.line = line then { m with accesses := m.accesses ++ [x] } else m) } }
  | none =>
    let c := c.inc CCH_MISSES_COUNT
    let c := if 256 ≤ c.buf.misses.length then (c.mark CCH_EVENT_MISS_FULL).inc CCH_MISS_STALLS_COUNT else c
    { c with buf := { c.buf with misses := c.buf.misses ++ [⟨line, [x]⟩] } }

/-- Bytes of a run over a line. -/
def Line.over (l : Line) (off : Nat) (bs : List Byte) : Line :=
  { l with dirty := true, data := Cells.putRun (fun _ => none) l.data off (bs.map some) }

/-- Host write data goes into a line (Table 13.5). -/
def Chip.writeLine (c : Chip) (line off : Nat) (bs : List Byte) : Chip :=
  if !c.cacheOn then c.dramWrite (4096 * line + off) bs else
  let front := ((c.cacheSet (setOf line)).wayOf line).isSome || (c.buf.victims ++ c.buf.allocWaits).any (fun l => l.line == line)
  if front then (c.touchLine line).mapFront line (fun l => l.over off bs)
  else match c.buf.evicts.find? (fun l => l.line == line) with
    | some l => (c.touchLine line).install (l.over off bs)
    | none =>
      if c.buf.misses.any (fun m => m.line == line) then c.addMiss line (.write off bs)
      else if off = 0 ∧ bs.length = 4096 then c.install (({ line := line, dirty := true } : Line).over 0 bs)
      else c.addMiss line (.write off bs)

/-- Host write data at a buffer offset. -/
def Chip.hostStore (c : Chip) (a : Nat) (bs : List Byte) : Chip :=
  (linePieces a bs.length).foldl (fun c p => c.writeLine p.1 p.2.1 ((bs.drop (4096 * p.1 + p.2.1 - a)).take p.2.2)) c

/-- A fetch of a miss register completes: its accesses, whether the line was read well, and the machine with the line installed and the host
write data in it. After a failed fetch host write data goes to DRAM in whole units. -/
def Chip.missDone (c : Chip) (line : Nat) (errs : List UnitErr) : Option (List MissAccess × Bool × Chip) :=
  match c.buf.misses.findIdx? (fun m => m.line == line) with
  | none => none
  | some i =>
    if 256 ≤ i then none else
    let acc := ((c.buf.misses.find? (fun m => m.line == line)).map (·.accesses)).getD []
    let c : Chip := { c.addErrs errs with buf := { (c.addErrs errs).buf with misses := c.buf.misses.eraseIdx i } }
    let r := c.readUnits (unitsOf (4096 * line) 4096)
    let writes := acc.filterMap (fun x => match x with
      | .write off bs => some (off, bs)
      | .push _ _ => none)
    if r.1 ∨ !c.cacheOn then some (acc, !r.1, writes.foldl (fun c w => c.dramWrite (4096 * line + w.1) w.2) r.2)
    else
      let l := writes.foldl (fun (l : Line) w => l.over w.1 w.2) { line := line, dirty := false }
      some (acc, true, r.2.install l)

/-! ### Write-backs (R545, R546) -/

/-- A line as it stands is written to DRAM. -/
def Chip.writeBack (c : Chip) (l : Line) : Chip :=
  (c.bufWrite (4096 * l.line) (c.lineBytes l 0 4096)).inc CCH_WRITEBACKS_COUNT

/-- DIRTY_WRITEBACK: the line in the main array becomes clean and stays cached. -/
def Chip.dirtyWriteback (c : Chip) (line : Nat) : Chip :=
  let s := c.cacheSet (setOf line)
  match s.wayOf line with
  | none => c
  | some w =>
    match s.way w with
    | none => c
    | some l =>
      if l.dirty then (c.writeBack l).setCacheSet (setOf line) (s.setWay w (some { line := line, dirty := false })) else c

/-- DIRTY_WRITEBACK. -/
def execDirtyWriteback (line : Nat) (s : State) : Out := s.on fun c => c.dirtyWriteback line

/-- EVICTION_WRITEBACK_DONE: a line of the eviction buffer leaves it, or one of the victim cache becomes clean. -/
def Chip.evictionDone (c : Chip) (line : Nat) : Chip :=
  match c.buf.evicts.findIdx? (fun l => l.line == line) with
  | some i =>
    let c := c.writeBack (c.buf.evicts.getD i ⟨line, false, []⟩)
    let c : Chip := { c with buf := { c.buf with evicts := c.buf.evicts.eraseIdx i } }
    c.settleAllocs c.buf.allocWaits.length
  | none =>
    match c.buf.victims.find? (fun l => l.line == line && l.dirty) with
    | some l =>
      let c := c.writeBack l
      { c with buf := { c.buf with victims := c.buf.victims.map (fun x => if x.line = line then { line := line, dirty := false } else x) } }
    | none => c

/-- EVICTION_WRITEBACK_DONE. -/
def execEvictionWritebackDone (line : Nat) (s : State) : Out := s.on fun c => c.evictionDone line

/-- Every line that `keep` holds of. -/
def Chip.allLines (c : Chip) : List Line :=
  c.buf.sets.flatMap (fun s => s.2.ways.filterMap (fun w => w.2)) ++ c.buf.victims ++ c.buf.evicts ++ c.buf.allocWaits

/-- Every dirty line is written back: an older copy in the eviction buffer before the copy that replaced it (R551, R562). -/
def Chip.writeBackAll (c : Chip) : Chip :=
  let front := c.buf.sets.flatMap (fun s => s.2.ways.filterMap (fun w => w.2)) ++ c.buf.victims ++ c.buf.allocWaits
  ((c.buf.evicts ++ front).filter (·.dirty)).foldl (fun c l => c.writeBack l) c

/-- Every line is invalid. -/
def Chip.emptyCache (c : Chip) : Chip :=
  { c with buf := { c.buf with sets := [], victims := [], evicts := [], allocWaits := [] } }

/-! ### Parity (R549) -/

/-- A parity error in a dirty line: FATAL; the line's data is lost, and its staged entry is the first to be cut (R561). -/
def Chip.dirtyParity (c : Chip) (line : Nat) : Chip :=
  let c := c.mark CCH_EVENT_PARITY_DIRTY
  let c := match c.buf.staged.find? (fun e => slotAddr e.slot / 4096 == line) with
    | some e => c.cutAt e.seq
    | none => c
  c.enterFatal 1

/-- A clean line is invalidated. -/
def Chip.cleanParity (c : Chip) : Chip := (c.inc CCH_PARITY_CLEAN_COUNT).mark CCH_EVENT_PARITY_CLEAN

/-- PARITY_SCAN of one line or one tag and state entry. -/
def Chip.parityError (c : Chip) (loc : CacheLoc) : Chip :=
  match loc with
  | .way k w =>
    let s := c.cacheSet k
    match s.way w with
    | none => c
    | some l =>
      let c := c.setCacheSet k (s.setWay w none)
      if l.dirty then c.dirtyParity l.line else c.cleanParity
  | .victim line =>
    match c.buf.victims.find? (fun l => l.line == line) with
    | none => c
    | some l =>
      let c := { c with buf := { c.buf with victims := c.buf.victims.erase l } }
      if l.dirty then c.dirtyParity line else c.cleanParity
  | .evict line =>
    match c.buf.evicts.find? (fun l => l.line == line) with
    | none => c
    | some l => ({ c with buf := { c.buf with evicts := c.buf.evicts.erase l } } : Chip).dirtyParity line
  | .tag k =>
    let s := c.cacheSet k
    let c := ((List.range 16).filter (fun w => (s.way w).any (fun l => !l.dirty))).foldl
      (fun c w => (c.setCacheSet k ((c.cacheSet k).setWay w none)).cleanParity) c
    match (List.range 16).find? (fun w => (s.way w).any (·.dirty)) with
    | some w => c.dirtyParity (((s.way w).map (·.line)).getD 0)
    | none => c

/-- PARITY_SCAN. -/
def execParityScan (loc : CacheLoc) (err : ParityErr) (s : State) : Out :=
  s.on fun c => match err with
    | .none => c
    | .bad => c.parityError loc

/-! ### Scrubs (R541, R542) -/

/-- Installed size in bytes. -/
def Chip.bufferSize (c : Chip) : Nat := c.fld BUF_STATUS_SIZE_GIB * 2 ^ 30

/-- A range that a scrub may take. -/
def Chip.scrubRange (c : Chip) (start len : Nat) : Bool :=
  start % 64 == 0 && len % 64 == 0 && len != 0 && decide (start + len ≤ c.bufferSize)

/-- The engine begins a scrub. -/
def Chip.startScrub (c : Chip) (init : Bool) (start len : Nat) (uid : Option Nat) : Chip :=
  { c with buf := { c.buf with
      scrub := { busy := true, init := init, start := start, len := len, timeStart := c.nowH, uid := uid } } }.setFld
    BUF_STATUS_SCRUB_BUSY 1

/-- SCRUB_GO: discarded while a scrub runs, or with a range that is not allowed. -/
def Chip.scrubGo (c : Chip) : Chip :=
  let start := c.fld BUF_SCRUB_START_START * 64
  let len := c.fld BUF_SCRUB_LENGTH_LENGTH * 64
  if c.buf.scrub.busy ∨ !c.scrubRange start len then c else c.startScrub (c.flag BUF_SCRUB_CTRL_MODE) start len none

/-- SCRUB_GO. -/
def execScrubGo (s : State) : Out := s.on fun c => c.scrubGo

/-- A cached line keeps its content while DRAM under it changes. -/
def Chip.freezeLine (c : Chip) (l : Line) : Line :=
  { l with data := Cells.putRun (fun _ => none) [] 0 ((c.lineBytes l 0 4096).map some) }

/-- An INIT scrub: every unit of the range becomes a zero unit; the cache is untouched. -/
def Chip.scrubInit (c : Chip) (start len : Nat) : Chip :=
  let inside := fun (l : Line) => decide (start < 4096 * l.line + 4096 ∧ 4096 * l.line < start + len)
  let fz := fun (l : Line) => if inside l then c.freezeLine l else l
  let sets := c.buf.sets.map (fun s => (s.1, { s.2 with ways := s.2.ways.map (fun w => (w.1, w.2.map fz)) }))
  { c with buf := { c.buf with
      sets := sets, victims := c.buf.victims.map fz, evicts := c.buf.evicts.map fz, allocWaits := c.buf.allocWaits.map fz,
      mem := c.buf.mem.filter (fun b => decide (b.1 < start) || decide (start + len ≤ b.1)),
      marks := c.buf.marks.filter (fun m => decide (m.1 < start / 64) || decide ((start + len) / 64 ≤ m.1)),
      initRanges := c.buf.initRanges ++ [(start / 64, (start + len) / 64)] } }

/-- What a CHECK scrub finds in one listed unit, added to its counts. -/
def Chip.scrubUnit (c : Chip) (u : Nat) : Chip :=
  let ce := c.fld BUF_CE_UNITS_COUNT
  let before := c.unitMark u
  let r := c.readUnit u
  let dev := match before with
    | .changed e => (match unitRead e with
      | .corrected d _ => some d
      | _ => none)
    | _ => none
  let s := r.2.buf.scrub
  let s := if r.1 then
      { s with uncorrectable := s.uncorrectable + 1, firstUe := if s.firstUe.isSome then s.firstUe else some (64 * u) }
    else if ce < r.2.fld BUF_CE_UNITS_COUNT ∨ dev.isSome then
      { s with corrected := s.corrected + 1, device := s.device + (dev.getD none).isSome.toNat }
    else s
  { r.2 with buf := { r.2.buf with scrub := s } }

/-- A CHECK scrub over its range. Units listed are read one by one; where the range may hold units that nothing has written, what those read
as is free (log entry 22). -/
def Chip.scrubCheck (c : Chip) (start len : Nat) : Chip :=
  let lo := start / 64
  let hi := (start + len) / 64
  let us := (c.buf.marks.map (·.1)).filter (fun u => decide (lo ≤ u ∧ u < hi))
  let c := us.foldl (fun c u => c.scrubUnit u) c
  if us.length = hi - lo ∨ c.buf.initRanges.any (fun r => decide (r.1 ≤ lo ∧ hi ≤ r.2)) then c
  else
    let a := c.draw
    let b := a.2.draw
    let s := b.2.buf.scrub
    let n := a.1.toNat % (hi - lo)
    { b.2 with buf := { b.2.buf with
        scrub := { s with
          uncorrectable := s.uncorrectable + n,
          firstUe := if n = 0 then s.firstUe else some (64 * min (lo + b.1.toNat % (hi - lo)) ((s.firstUe.getD (64 * hi)) / 64)) } } }

/-- The summary that SCRUB pushes (Table 13.4). -/
def scrubSummary (s : Scrub) (done : Word) : List Byte :=
  let sat := fun x => min x (2 ^ 32 - 1)
  leBytes 8 s.start ++ leBytes 8 s.len ++ leBytes 8 (s.len / 64) ++ leBytes 4 (sat s.corrected) ++ leBytes 4 (sat s.device) ++
    leBytes 4 (sat s.uncorrectable) ++ leBytes 4 0 ++ leBytes 8 (s.firstUe.getD (2 ^ 64 - 1)) ++ leBytes 8 s.timeStart.toNat ++
    leBytes 8 done.toNat

/-- START and LENGTH of a SCRUB command (Table 11.13). -/
def scrubArgs (m : Cmd) : Nat × Nat := (m.arg0, bitsOf m.arg3 0 64)

/-- The engine is free: the oldest SCRUB that waits for it begins. -/
def Chip.nextScrub (c : Chip) : Chip :=
  match c.host.cmds.find? (fun m => m.opcode == opScrub && m.started && m.status.isNone && m.wait == .engine) with
  | some m =>
    if c.buf.scrub.busy then c
    else (c.updCmd m.uid (fun m => { m with wait := .drain })).startScrub false (scrubArgs m).1 (scrubArgs m).2 (some m.uid)
  | none => c

/-- A scrub ends with the counts it has. -/
def Chip.scrubEnd (c : Chip) : Chip :=
  let s := c.buf.scrub
  let sat := fun x => min x (2 ^ 32 - 1)
  let c := (c.setFld BUF_STATUS_SCRUB_BUSY 0).mark BUF_EVENT_SCRUB_DONE
  let c := (c.setFld BUF_SCRUB_RESULT_CORRECTED (sat s.corrected)).setFld BUF_SCRUB_RESULT_UNCORRECTABLE (sat s.uncorrectable)
  { c with buf := { c.buf with scrub := { s with busy := false, uid := none } } }

/-- SCRUB_DONE: the whole range has been read or written; a SCRUB pushes its summary and completes. -/
def Chip.scrubDone (c : Chip) (errs : List UnitErr) : Chip :=
  let s := c.buf.scrub
  if !s.busy then c else
  let c := c.addErrs errs
  let c := (if s.init then c.scrubInit s.start s.len else c.scrubCheck s.start s.len).add BUF_SCRUB_UNITS_COUNT (s.len / 64)
  let r := c.buf.scrub
  let c := c.scrubEnd
  let c := match s.uid.bind c.cmd with
    | some m =>
      if m.status.isSome then c
      else (c.pushGo m.port m.entries 0 (scrubSummary r c.nowH)).finish m.uid stOk 0 (min r.uncorrectable (2 ^ 32 - 1)) 0
    | none => c
  c.nextScrub

/-- SCRUB_DONE. -/
def execScrubDone (errs : List UnitErr) (s : State) : Out := s.on fun c => c.scrubDone errs

/-- SCRUB: a CHECK of a range through the one engine, for which it waits (R541). -/
def execScrub (n tag : Nat) (s : State) : Out :=
  s.on fun c => match c.toRun n tag opScrub with
    | none => c
    | some m =>
      let c := c.begin m
      if c.scrubRange (scrubArgs m).1 (scrubArgs m).2 then (c.updCmd m.uid (fun m => { m with wait := .engine })).nextScrub
      else c.finishInvalid m.uid 5

/-- INJECT_ARM: the next unit written to SUBCH is stored with the change (R565). -/
def execInjectArm (s : State) : Out := s.on fun c => c.setFld BUF_INJECT_ARMED 1

/-! ### Fill entries (R552, R553) -/

/-- Buffer offset of a fill entry. -/
def fillAddr (core slot : Nat) : Nat := 2 * mib + 16 * (4096 * core + slot)

/-- The bytes of a fill entry (Table 13.6). -/
def fillBytes (base firstLba volume gen flags blocks : Nat) : List Byte :=
  leBytes 4 base ++ leBytes 5 firstLba ++ leBytes 1 volume ++ leBytes 1 gen ++ leBytes 1 flags ++ leBytes 2 blocks ++ [0, 0]

/-- BUF_FILL_STALE: GEN of the entry steps by 1. -/
def Chip.fillStale (c : Chip) (core slot : Nat) : Chip :=
  let c := (c.setFld BUF_FILL_STALE_SLOT slot).setFld BUF_FILL_STALE_CORE core
  let a := fillAddr core slot + 10
  let c := c.memWrite a [c.byte a + 1]
  { c with buf := { c.buf with fills := c.buf.fills.map (fun f =>
      if f.core = core ∧ f.slot = slot then { f with gen := (f.gen + 1) % 256, stale := true } else f) } }

/-- BUF_FILL_STALE. -/
def execBufFillStale (core : Fin 12) (slot : Fin 4096) (s : State) : Out := s.on fun c => c.fillStale core slot

/-! ### The device log (R525) -/

/-- Codes at which the device asks for attention. -/
def logAlarm (code : Nat) : Bool := code == 0x0302 || code == 0x0402 || code == 0x060C

/-- LOG_ENTRY: the next entry goes to buffer DRAM. -/
def Chip.logEntry (c : Chip) : Chip :=
  match (c.weir (weirKey 6 0)).items with
  | [] => c
  | it :: _ =>
    let n := c.core.logged
    let ws := it.map (·.v)
    let c := c.takeItem 6 0
    let c := c.memWrite (mib + 32 * (n % 32768)) ((List.range 4).flatMap (fun i => leBytes 8 (ws.getD i 0).toNat))
    let c := ({ c with core := { c.core with logged := n + 1 } } : Chip).wrapInc GEN_LOG_COUNT_COUNT
    if (n + 1) % 256 = 0 ∨ logAlarm (bitsOf (ws.getD 1 0).toNat 0 16) then
      (List.range 2).foldl (fun c x =>
        if c.host.stationEvents.getD x false then
          let c := c.postEvent x 4 0xFFFF 0 (n + 1 - c.host.logMark.getD x 0) 0 0
          { c with host := { c.host with logMark := c.host.logMark.set x (n + 1) } }
        else c) c
    else c

/-- LOG_ENTRY. -/
def execLogEntry (s : State) : Out := s.on fun c => c.logEntry

/-! ### Spilling and recall (R520, R521) -/

/-- Start or stop spilling, as the free cells say. -/
def Chip.spillState (c : Chip) : Chip :=
  let low := c.fld CIS_CTRL_LOW_FREE
  let full := decide (c.deepCells ≤ c.deepUsed)
  let go := !full && decide (c.freeMiddle < low) && c.deepCells != 0
  let stop := full || decide (low + 4096 ≤ c.freeMiddle)
  let c := if full ∧ c.core.spilling then
      (c.mark CIS_EVENT_DEEP_FULL).log 0x0107 .h (detBytes 4 c.deepUsed) else c
  if !c.core.spilling ∧ go then ({ c with core := { c.core with spilling := true } } : Chip).mark CIS_EVENT_SPILL_BEGIN
  else if stop then { c with core := { c.core with spilling := false } } else c

/-- The bytes of a cell's words; places past the queue's words are 0. -/
def Chip.cellBytes (c : Chip) (q i : Nat) : List Byte :=
  let ws := (c.weir (weirKey (1 + q % 2) (q / 2))).words
  (List.range 16).flatMap (fun k => leBytes 8 ((ws.getD ((c.cellPlaces q i).1 + k) ⟨0, false⟩).v).toNat)

/-- CISTERN_SPILL: the middle cell written longest ago goes to the deep cistern. -/
def Chip.spill (c : Chip) : Chip :=
  let c := c.spillState
  if !c.core.spilling then c else
  match c.spillable.foldl (fun (b : Option (Nat × Nat × Nat)) x => match b with
      | none => some x
      | some y => if x.1 < y.1 then some x else b) none with
  | none => c
  | some (_, q, i) =>
    let d := c.deepFree
    let c := c.memWrite (c.fld CIS_DEEP_BASE_BASE * mib + 128 * d) (c.cellBytes q i)
    ((c.setDeep q i (some d)).inc CIS_SPILLS_COUNT).spillState

/-- CISTERN_SPILL. -/
def execCisternSpill (s : State) : Out := s.on fun c => c.spill

/-- CISTERN_RECALL: the next spilled cell of a queue within RECALL_AHEAD cells of its head comes back. -/
def Chip.recallCell (c : Chip) (q : Nat) : Chip :=
  match (c.cisQ q).mid.findIdx? (fun x => x.deep.isSome) with
  | none => c
  | some i =>
    if c.fld CIS_CTRL_RECALL_AHEAD < i + 1 ∧ i ≠ 0 ∨ c.freeMiddle = 0 then c else
    let d := (((c.cisQ q).mid.getD i ⟨0, none⟩).deep).getD 0
    let r := c.readUnits (unitsOf (c.fld CIS_DEEP_BASE_BASE * mib + 128 * d) 128)
    ((r.2.setDeep q i none).inc CIS_RECALLS_COUNT).spillState

/-- CISTERN_RECALL. -/
def execCisternRecall (q : Nat) (s : State) : Out := s.on fun c => c.recallCell q

end Sys2Proof.Machine
end

