-- ==== Sys2Proof/Machine/Detect.lean ====
section
/-! DEFINITION. The arithmetic of a lane: signal chain, adaptation, first-pass detector, cross-track cancellation, soft-output detector
(R166 to R184). Everything is exact but the loop values, which keep 16 fraction bits and are rounded to nearest, ties away from zero
(R171; log entry 23). -/

namespace Sys2Proof.Machine

/-! ### Trellis (Table 4.4) -/

/-- The ten states a[n − 3] to a[n], as bits with 1 for mark. -/
def trellisStates : List Nat := [0b0000, 0b0001, 0b0011, 0b0110, 0b0111, 0b1000, 0b1001, 0b1100, 0b1110, 0b1111]

/-- A level as ±1. -/
def lev (b : Bool) : Int := if b then 1 else -1

/-- y of a branch from state `s` with new bit `b`. -/
def branchY (s : Nat) (b : Bool) : Int :=
  lev (s.testBit 3) + 2 * lev (s.testBit 2) + 2 * lev (s.testBit 1) + 2 * lev (s.testBit 0) + lev b

/-- The sixteen branches: place of the state left, new bit, place of the state reached, y, whether the bit differs from the one before. -/
def branches : List (Nat × Bool × Nat × Int × Bool) :=
  (List.range 10).flatMap (fun i =>
    let s := trellisStates.getD i 0
    [false, true].filterMap (fun b =>
      let t := (2 * s + b.toNat) % 16
      if t ∈ trellisStates then some (i, b, trellisStates.idxOf t, branchY s b, b != s.testBit 0) else none))

/-! ### One channel bit (R167 to R175) -/

/-- The scale of z and w: they are held in units of 2^−118 equalized LSB. -/
def zScale : Int := 2 ^ 118

/-- Limit a value, and say whether that was needed. -/
def heldAt (lo hi x : Int) (sat : Bool) : Int × Bool := (limit lo hi x, sat || decide (x < lo) || decide (hi < x))

/-- A sample enters the chain: u of R169, in units of 2^−92. -/
def pushU (b : BitSt) (x wob : Int) : BitSt :=
  let u0 := b.v.g * (x * 2 ^ 29 - b.v.amp * wob)
  let u := if 0 ≤ u0 then u0 * (2 ^ 30 + b.v.a) else u0 * (2 ^ 30 - b.v.a)
  { b with pipe := { b.pipe with u := (u :: b.pipe.u).take 64 } }

/-- z of the bit whose u lies 8 back (R169). -/
def zOf (b : BitSt) : Int :=
  (List.range 17).foldl (fun a i => a + b.v.taps.getD i 0 * b.pipe.u.getD i 0) 0 - b.v.b * 2 ^ 98

/-- One step of the first-pass detector (R174): the path of least metric into every state, the lower state on a tie. -/
def viterbiStep (paths : List (Int × List Bool)) (z : Int) : List (Int × List Bool) :=
  let next := (List.range 10).map (fun t =>
    let ins := (branches.filter (fun r => r.2.2.1 == t)).map (fun r =>
      let p := paths.getD r.1 (0, [])
      let d := z - 10 * r.2.2.2.1 * zScale
      (p.1 + d * d, r.2.1 :: p.2.take 40))
    ins.foldl (fun best p => if p.1 < best.1 then p else best) (ins.headD (0, [])))
  let low := next.foldl (fun m p => min m p.1) ((next.headD (0, [])).1)
  next.map (fun p => (p.1 - low, p.2))

/-- The survivor of least metric, latest bit first. -/
def bestPath (paths : List (Int × List Bool)) : List Bool :=
  (paths.foldl (fun best p => if p.1 < best.1 then p else best) (paths.headD (0, []))).2

/-- y of the bit `k` back in a list of levels, latest first. -/
def yBack (bits : List Bool) (k : Nat) : Int :=
  let a := fun i => lev (bits.getD (k + i) false)
  a 4 + 2 * a 3 + 2 * a 2 + 2 * a 1 + a 0

/-- The crosstalk of one side for the bit `k` back in the used decisions, whose first is the bit 2 ahead (R175). -/
def xtSide (taps dec : List Int) (k : Nat) : Int :=
  (List.range 5).foldl (fun s j => s + taps.getD j 0 * dec.getD (k + j) 0) 0

/-- MU_G, MU_B, MU_A, MU_C, MU_X, KP, KI of a step set (R173). -/
abbrev StepSet := Nat × Nat × Nat × Nat × Nat × Nat × Nat

/-- A correction n / d × 2^−mu; a step field of 0 freezes its loop (R170). -/
def stepBy (mu : Nat) (n d : Int) : Int := if mu = 0 then 0 else rndDiv n (d * 2 ^ mu)

/-- The adaptation at a bit, from the decision 32 back (R170, R175). -/
def adapt (st : StepSet) (b : BitSt) : BitSt :=
  let p := b.pipe
  if p.z.length ≤ 32 ∨ p.dec.length < 5 then b else
  let y := yBack p.dec 0
  let e := p.z.getD 32 0 - 10 * y * zScale
  let ew := p.w.getD 32 0 - 10 * y * zScale
  let v := b.v
  let g := heldAt (0x1000 * 65536) (0xFFFF * 65536) (v.g - stepBy st.1 (e * y * 2 ^ 30) (640 * zScale)) b.sat
  let a := heldAt (-8192 * 65536) (8191 * 65536) (v.a - stepBy st.2.2.1 (e * y.natAbs * 2 ^ 30) (640 * zScale)) g.2
  let bl := heldAt (-2048 * 65536) (2048 * 65536) (v.b + stepBy st.2.1 (e * 2 ^ 20) zScale) a.2
  let taps := (List.range 17).map (fun i =>
    let c := v.taps.getD i 0
    if i = 8 then (c, false)
    else heldAt (-32768 * 65536) (32767 * 65536)
      (c - stepBy st.2.2.2.1 (e * p.u.getD (32 + i) 0 * 2 ^ 26) (80 * 64 * zScale * 2 ^ 92)) false)
  let side := fun (taps dec : List Int) => (List.range 5).map (fun j =>
    heldAt (-128 * 65536) (127 * 65536)
      (taps.getD j 0 + stepBy st.2.2.2.2.1 (ew * dec.getD (32 + j) 0 * 2 ^ 23) (80 * zScale)) false)
  let xi := side v.xin p.ain
  let xo := side v.xout p.aout
  { b with v := { v with g := g.1, a := a.1, b := bl.1, taps := taps.map (·.1), xin := xi.map (·.1), xout := xo.map (·.1) },
           sat := bl.2 || (taps ++ xi ++ xo).any (·.2) }

/-- The timing loop at a bit, from the decisions 6 back (R167). -/
def timing (st : StepSet) (b : BitSt) : BitSt :=
  let s := bestPath b.pipe.paths
  if s.length < 12 then { b with phi := b.phi + b.f } else
  let te := b.pipe.z.getD 6 0 * yBack s 7 - b.pipe.z.getD 7 0 * yBack s 6
  let step := fun k => stepBy k (te * 2 ^ 40) (640 * zScale)
  let f := limit (-83886 * 65536) (83886 * 65536) (b.f + step st.2.2.2.2.2.2)
  { b with f := f, phi := b.phi + f + step st.2.2.2.2.2.1 }

/-- One channel bit: z, decisions, w, and the loops unless a hold keeps them (R187); before the first transition of a slot and in a blank one
(`quiet`) the timing follows the wobble alone (R166). `ain` and `aout` are the neighbours' decisions for the bit 2 ahead. -/
def laneBit (st : StepSet) (held quiet : Bool) (ain aout : Int) (b : BitSt) : BitSt :=
  let z := zOf b
  let p := b.pipe
  let paths := viterbiStep (if p.paths = [] then List.replicate 10 (0, []) else p.paths) z
  let best := bestPath paths
  let dec := if 33 ≤ best.length then (best.getD 32 false :: p.dec).take 64 else p.dec
  let ai := (ain :: p.ain).take 64
  let ao := (aout :: p.aout).take 64
  let w := z - 80 * (xtSide b.v.xin ai 0 + xtSide b.v.xout ao 0) * 2 ^ 95
  let b := { b with pipe := { p with z := (z :: p.z).take 2200, w := (w :: p.w).take 2200, ain := ai, aout := ao, dec := dec, paths := paths } }
  if held then { b with phi := b.phi + b.f }
  else if quiet then { adapt st b with phi := b.phi + b.f } else timing st (adapt st b)

/-! ### Soft-output detector (R182, R183) -/

def maxOf (xs : List Int) : Int := xs.foldl max (xs.headD 0)

/-- Branch metric at a bit, scaled by 32 × 2σ² × 2^236: `ms` is σ² in 1/16, `la` the a priori LLR in 0.5. -/
def softMetric (ms : Int) (w la : Int) (y : Int) (moves : Bool) : Int :=
  let d := w - 10 * y * zScale
  (if moves then 1 else -1) * ms * la * (zScale * zScale) - 32 * (d * d)

def softFwd (ms : Int) (alpha : List Int) (x : Int × Int) : List Int :=
  (List.range 10).map (fun t => maxOf ((branches.filter (fun r => r.2.2.1 == t)).map (fun r =>
    alpha.getD r.1 0 + softMetric ms x.1 x.2 r.2.2.2.1 r.2.2.2.2)))

def softBack (ms : Int) (x : Int × Int) (beta : List Int) : List Int :=
  (List.range 10).map (fun s => maxOf ((branches.filter (fun r => r.1 == s)).map (fun r =>
    beta.getD r.2.2.1 0 + softMetric ms x.1 x.2 r.2.2.2.1 r.2.2.2.2)))

/-- The difference of the best metrics without and with a transition at a bit, and the bit and y of the best branch of all. -/
def softBit (ms : Int) (alpha beta : List Int) (x : Int × Int) : Int × Bool × Int :=
  let all := branches.map (fun r =>
    (alpha.getD r.1 0 + softMetric ms x.1 x.2 r.2.2.2.1 r.2.2.2.2 + beta.getD r.2.2.1 0, r))
  let best := all.foldl (fun b r => if b.1 < r.1 then r else b) (all.headD (0, 0, false, 0, 0, false))
  (maxOf ((all.filter (fun r => !r.2.2.2.2.2)).map (·.1)) - maxOf ((all.filter (fun r => r.2.2.2.2.2)).map (·.1)),
    best.2.2.1, best.2.2.2.2.1)

/-- Forward metrics before each of a run of bits, and after the last. -/
def softAlphas (ms : Int) : List Int → List (Int × Int) → List (List Int) × List Int
  | al, [] => ([], al)
  | al, x :: xs =>
    let r := softAlphas ms (softFwd ms al x) xs
    (al :: r.1, r.2)

/-- Backward metrics after each of a run of bits, and before the first. -/
def softBetas (ms : Int) : List (Int × Int) → List Int → List (List Int) × List Int
  | [], be => ([], be)
  | x :: xs, be =>
    let r := softBetas ms xs be
    (r.2 :: r.1, softBack ms x r.2)

/-- Windows of 64 bits with a backward warm-up of 64; `n` counts the bits still to be detected, those after them only warm up. -/
def softGo (ms : Int) : Nat → Nat → List Int → List (Int × Int) → List (Int × Bool × Int) × List Int
  | 0, _, al, _ => ([], al)
  | k + 1, n, al, xs =>
    if n = 0 then ([], al) else
    let m := min 64 n
    let warm := ((xs.drop m).take 64).foldr (fun x be => softBack ms x be) (List.replicate 10 0)
    let a := softAlphas ms al (xs.take m)
    let b := softBetas ms (xs.take m) warm
    let here := (List.range m).map (fun i => softBit ms (a.1.getD i []) (b.1.getD i []) (xs.getD i (0, 0)))
    let r := softGo ms k (n - m) a.2 (xs.drop m)
    (here ++ r.1, r.2)

/-- Detect `n` bits of `xs` (w with its a priori LLR); `mse` as RCH_MSE holds it: differences, levels and y per bit, forward metrics. -/
def softDetect (mse : Int) (n : Nat) (alpha : List Int) (xs : List (Int × Int)) : List (Int × Bool × Int) × List Int :=
  softGo (max 64 mse) (n / 64 + 1) n (if alpha = [] then List.replicate 10 0 else alpha) xs

/-- A difference as an LLR in 0.5, times num / den, rounded and limited to ±15.5 (R182, R189). -/
def llrOf (mse diff num den : Int) : Int :=
  limit (-31) 31 (rndDiv (diff * num) (2 * max 64 mse * (zScale * zScale) * den))

/-! ### Soft demodulation (R184, R185) -/

/-- Words as the parses of R184 take them: state left, channel word, data pair, state reached. State 0: any word may stand here; 1: the pair
must be 10 or 11, since the one before was a basic 01 or 10; 2 and 3: 000 completes a substitution whose second pair is 00 or 01. -/
def parseSteps : List (Nat × List Bool × List Bool × Nat) :=
  let pairs : List (List Bool) := [[false, false], [false, true], [true, false], [true, true]]
  let basic := pairs.flatMap (fun d =>
    let w := basicCode (d.getD 0 false) (d.getD 1 false)
    let next := if d.getD 0 false = d.getD 1 false then 0 else 1
    (0, w, d, next) :: (if d.getD 0 false then [(1, w, d, next)] else []))
  let firsts : List (List Bool) := [[true, false, true], [true, false, false], [false, true, false], [false, false, true]]
  let subst := firsts.flatMap (fun w =>
    let d := (substDecode w).getD []
    let next := if d.getD 3 false then 3 else 2
    (0, w, d.take 2, next) :: (if d.getD 0 false then [(1, w, d.take 2, next)] else []))
  let second : List (Nat × List Bool × List Bool × Nat) :=
    [(2, [false, false, false], [false, false], 0), (3, [false, false, false], [false, true], 0)]
  basic ++ subst ++ second

/-- Twice the metric of bits against LLRs: +L where a bit is 0, −L where it is 1. -/
def bitsMetric (l : List Int) (bits : List Bool) : Int :=
  (List.range bits.length).foldl (fun a i => a + (if bits.getD i false then -1 else 1) * l.getD i 0) 0

/-- The greater of two metrics, where there are any. -/
def optMax : Option Int → Option Int → Option Int
  | none, y => y
  | x, none => x
  | some x, some y => some (max x y)

/-- A word's LLRs: of its three channel bits and of its two data bits. -/
abbrev WordLlr := List Int × List Int

def stepMetric (x : WordLlr) (r : Nat × List Bool × List Bool × Nat) : Int := bitsMetric x.1 r.2.1 + bitsMetric x.2 r.2.2.1

def parseFwd (al : List (Option Int)) (x : WordLlr) : List (Option Int) :=
  (List.range 4).map (fun t => (parseSteps.filter (fun r => r.2.2.2 == t)).foldl
    (fun m r => optMax m ((al.getD r.1 none).map (· + stepMetric x r))) none)

def parseBack (x : WordLlr) (be : List (Option Int)) : List (Option Int) :=
  (List.range 4).map (fun s => (parseSteps.filter (fun r => r.1 == s)).foldl
    (fun m r => optMax m ((be.getD r.2.2.2 none).map (· + stepMetric x r))) none)

/-- The difference of the best metrics with a bit 0 and with it 1, as an LLR. -/
def parseDiff (all : List (Option Int × Bool)) : Int :=
  let best := fun b => (all.filter (fun r => r.2 == b)).foldl (fun m r => optMax m r.1) none
  match best false, best true with
  | some x, some y => (x - y) / 2
  | _, _ => 0

/-- LLRs of the bits of each word over all parses: three channel bits, then two data bits. -/
def parseLlrs : List (Option Int) → List WordLlr → List (List Int) × List (Option Int)
  | _, [] => ([], [some 0, some 0, none, none])
  | al, x :: xs =>
    let r := parseLlrs (parseFwd al x) xs
    let tot := parseSteps.map (fun s =>
      (match al.getD s.1 none, r.2.getD s.2.2.2 none with
        | some a, some b => some (a + stepMetric x s + b)
        | _, _ => none, s.2.1 ++ s.2.2.1))
    ((List.range 5).map (fun j => parseDiff (tot.map (fun t => (t.1, t.2.getD j false)))) :: r.1, parseBack x r.2)

def parseStart : List (Option Int) := [some 0, none, none, none]

/-- Three LLRs at a time. -/
def threes : List Int → List (List Int)
  | a :: b :: c :: t => [a, b, c] :: threes t
  | _ => []

def twos : List Int → List (List Int)
  | a :: b :: t => [a, b] :: twos t
  | _ => []

/-- Data-bit LLRs of channel-bit LLRs (R184). -/
def softDemod (l : List Int) : List Int :=
  ((parseLlrs parseStart ((threes l).map (fun w => (w, [])))).1).flatMap (fun r => r.drop 3)

/-- Channel-bit LLRs of data-bit LLRs (R185 step 2). -/
def softRemod (d : List Int) : List Int :=
  ((parseLlrs parseStart ((twos d).map (fun p => ([], p)))).1).flatMap (fun r => r.take 3)

end Sys2Proof.Machine
end

