-- ==== Sys2Proof/Machine/Lane.lean ====
section
/-! DEFINITION. The read-channel lanes (chapter 4): arming, landing and streaming slots, wobble channel and groove address, timing loss, analog
gain steps, tag context, defects, spans, items, zone entries, and the Xfurrow instructions on lanes (R511 to R513). A lane is numbered
8p + k. The commands of a lane come in the order in which its processing reaches what they name (log entry 24). -/

namespace Sys2Proof.Machine

def Chip.updLane (c : Chip) (l : Nat) (f : LaneRec → LaneRec) : Chip := c.setLane l (f (c.lane l))

def Chip.updCur (c : Chip) (l : Nat) (f : LaneCur → LaneCur) : Chip := c.updLane l fun x => { x with cur := x.cur.map f }

def Chip.updReport (c : Chip) (l : Nat) (f : LaneReport → LaneReport) : Chip := c.updCur l fun u => { u with report := f u.report }

/-! ### Front-end settings of a lane (R125, R172) -/

/-- g after an analog step up (× 0.5) or down (× 2), within its range. -/
def steppedGain (up : Bool) (g : Int) : Int := limit (0x1000 * 65536) (0xFFFF * 65536) (if up then rndDiv g 2 else 2 * g)

/-- The written settings of a lane come into force, and the lane's gain step with them unless a written GAIN takes its place. -/
def Chip.afeApply (c : Chip) (l : Nat) : Chip :=
  let p := l / 8
  let k := l % 8
  let a := c.afeLane l
  let c : Chip := match a.step with
    | none => c
    | some up =>
      let g := c.fld (AFE_LANE_CFG_GAIN p k)
      if g ≠ a.gain then c else
      let c := (c.setFld (AFE_LANE_CFG_GAIN p k) (if up then g + 12 else g - 12)).inc (RCH_GAIN_STEPS_COUNT l)
      c.updLane l fun x => { x with main := x.main.map (fun v => { v with g := steppedGain up v.g }) }
  let now : AfeLane := ⟨c.fld (AFE_LANE_CFG_GAIN p k), c.fld (AFE_LANE_CFG_CORNER p k), c.fld (AFE_LANE_CFG_BOOST p k),
    c.fld (AFE_LANE_OFFSET_OFFSET p k), none, a.ref⟩
  (c.setAfeLane l now).setFld (AFE_LANE_CFG_PENDING p k) 0

/-- GAIN, CORNER, BOOST or OFFSET of a lane has been written: in a slot that is being read it waits for the next preamble; a write of GAIN takes
the place of a gain step asked for. -/
def Chip.afeWritten (c : Chip) (l : Nat) (gain : Bool) : Chip :=
  let a := c.afeLane l
  let c := if gain then c.setAfeLane l { a with step := none } else c
  if (c.lane l).cur.isSome then c.setFld (AFE_LANE_CFG_PENDING (l / 8) (l % 8)) 1 else c.afeApply l

/-! ### Zone entries in use (R193, R196, R197) -/

/-- An entry's values for the loops; a load sets the fraction bits to 0 (R171). -/
def ZEntry.loops (e : ZEntry) : LoopVals :=
  { g := e.dgain * 65536, a := e.asym * 65536, b := e.baseline * 65536, taps := e.taps.map (· * 65536), xin := e.xin.map (· * 65536),
    xout := e.xout.map (· * 65536), amp := e.amp * 65536, levelRef := e.levelRef, mse := e.mse }

/-- The station of pickup `p` turns at 4,200 rpm. -/
def Chip.slow (c : Chip) (p : Nat) : Bool := (c.stn (p / 2)).aim == 4200

/-- Place and values of the entry that lane `l` uses on a layer and slot: the cached one, or the factory seeds (R197, Table 5.6). -/
def Chip.entryFor (c : Chip) (l layer slot : Nat) : Nat × ZEntry :=
  let p := l / 8
  let a := zoneAddr p layer (entryZone slot) (l % 8)
  if (c.lane l).seeds then (a, factoryEntry) else
  match (c.lane l).cache.findSome? (fun x => x.2.bind (fun e => if e.1 = a then some e.2 else none)) with
  | some e => (a, if ((c.vol p).layer layer).ztValid ∨ e.learned then e else factoryEntry)
  | none => (a, factoryEntry)

/-- The landing load of an entry: loop values, analog fields in force at once, histories discarded (R193, R195). -/
def Chip.landLoad (c : Chip) (l : Nat) (e : ZEntry) : Chip :=
  let p := l / 8
  let k := l % 8
  let c := c.setFld (AFE_LANE_CFG_GAIN p k) e.gain
  let c := c.setFld (AFE_LANE_CFG_CORNER p k) (if c.slow p then e.corner - 15 else e.corner)
  let c := (c.setFld (AFE_LANE_CFG_BOOST p k) e.boost).setFld (AFE_LANE_OFFSET_OFFSET p k) e.offset
  let c := (c.setAfeLane l { c.afeLane l with step := none }).afeApply l
  let c := (c.setFld (RCH_STATUS_GAIN_LIMIT l) 0).setFlag (RCH_STATUS_FACTORY_SEED l) e.factory
  (c.inc (RCH_LANDINGS_COUNT l)).updLane l fun x => { x with main := some e.loops, tag := none, pipe := {}, f := 0, phi := 0 }

/-! ### Slot boundaries (R159, R192) -/

/-- The run that is armed on the lane, if its slots are not all over. -/
def LaneRec.armed (x : LaneRec) : Bool := x.run.isSome && (x.cur.isSome || x.run.any (fun r => r.left != 0))

/-- A disarm takes effect, a finished run gives way to the waiting one (R512). -/
def LaneRec.boundary (x : LaneRec) : LaneRec :=
  let x := if x.disarm ∨ (x.run.any (fun r => r.left == 0)) then { x with disarm := false, run := none } else x
  let x := if x.run.isNone then { x with run := x.next, next := none } else x
  { x with
    hold := x.hold.map (fun h => { h with before := h.before + (57344 - h.onset), onset := 0, release := h.release.map (· - 57344) }),
    land := (x.land.filter (fun r => 57344 < r.2)).map (fun r => (r.1 - 57344, r.2 - 57344)) }

/-- A neighbour contributes nothing to the cross-track cancellation of lane `l`, but for its holds (R177). -/
def Chip.sideOff (c : Chip) (l : Nat) (inner : Bool) : Bool :=
  if inner then l % 8 == 0 || !c.flag (RCH_CTRL_XTI_IN_EN l) || c.flag (RCH_CTRL_DEGRADED (l - 1))
  else l % 8 == 7 || !c.flag (RCH_CTRL_XTI_OUT_EN l) || c.flag (RCH_CTRL_DEGRADED (l + 1))

/-- The reference of the data ADCs against nominal, less 1, in 2^−20 / 96 (R584): of TRIM, and of TC and the mean of the good ones of M-die sensors
0 to 3; with none good, that mean is left open. -/
def Chip.adcRef (c : Chip) : Int :=
  let good := (List.range 4).filter (fun i => !(c.sens (12 + i)).broken)
  let sum := (good.map (fun i => c.fld (CAL_SENSOR_TEMP i))).foldl (· + ·) 0
  let t : Int := if good = [] then Config.noSensorTemp else (12 * sum / good.length : Nat) - (64 * 96 : Nat)
  96 * 256 * c.int CAL_REF_TRIM + (if c.flag CAL_CTRL_REF_TC_EN then c.int CAL_REF_TC * (t - 40 * 96) else 0)

/-- The reference that lane `l` uses: the one at its preamble while a slot is read, else the present one. -/
def Chip.laneRef (c : Chip) (l : Nat) : Int := if (c.lane l).cur.isSome then (c.afeLane l).ref else c.adcRef

/-- The item of an armed slot begins. -/
def Chip.beginItem (c : Chip) (l : Nat) (r : ArmRun) : Chip :=
  let x := c.lane l
  let e := c.entryFor l (pbaLayer r.pba) (pbaSlot r.pba)
  let landing := x.landNext || r.landing || c.flag (RCH_CTRL_FORCE_LAND l)
  let acq := e.2.factory || !e.2.learned || (c.lane l).acqAsk
  let c := c.setAfeLane l { c.afeLane l with ref := c.adcRef }
  let c := if landing then
      let c := c.landLoad l e.2
      c.updLane l fun x =>
        { x with acqAsk := false, acqLeft := if acq then c.fld (RCH_LAND_CFG_ACQ_BLOCKS l) else 0, acqAddr := e.1, acqFirst := none, acqLast := none,
                 land := [(0, if acq then 57344 else c.fld (RCH_LAND_CFG_WINDOW l))] }
    else c.updLane l fun x => if 0 < x.acqLeft then { x with land := [(0, 57344)] } else x
  let x := c.lane l
  let rep : LaneReport :=
    { pba := r.pba, landing := landing, factory := landing && e.2.factory, acquiring := decide (0 < x.acqLeft),
      longDefect := x.hold.any (·.long), degraded := c.flag (RCH_CTRL_DEGRADED l), oneSided := c.sideOff l true || c.sideOff l false }
  let cur : LaneCur := { mse := ((x.main.map (·.mse)).getD e.2.mse), report := rep }
  let c := c.setLane l { x with cur := some cur, entry := some e, landNext := false, main := some (x.main.getD e.2.loops) }
  ((((c.setFld (RCH_STATUS_ACTIVE l) 1).setFlag (RCH_STATUS_LANDING l) landing).setFld (RCH_STATUS_BLANK l) 0).setFld
    (RCH_STATUS_TAG_CONTEXT l) 0).setFlag (RCH_STATUS_ACQUIRING l) rep.acquiring

/-- A slot that gives no item: the next armed one is a landing; a verify lane lands on its first (R254). -/
def Chip.emptySlot (c : Chip) (l slot : Nat) : Chip :=
  let x := c.lane l
  let c := c.setFld (RCH_STATUS_LANDING l) 0
  if x.verify then
    if x.landNext then
      let e := c.entryFor l (((c.wch (l / 8)).pass.map (·.layer)).getD 0) slot
      (c.landLoad l e.2).updLane l fun x => { x with landNext := false, entry := some e, land := [(0, c.fld (RCH_LAND_CFG_WINDOW l))] }
    else c
  else c.updLane l fun x => { x with landNext := true }

/-- The lane reaches offset 0 of the slot that its count numbers `slot`. -/
def Chip.laneSlotStart (c : Chip) (l slot : Nat) : Chip :=
  if (c.lane l).cur.isSome then c else
  let c := c.updLane l LaneRec.boundary
  match (c.lane l).run with
  | none => c.emptySlot l slot
  | some r =>
    if pbaSlot r.pba ≠ slot then c.emptySlot l slot else
    let c := c.updLane l fun x => { x with run := some { r with pba := r.pba + 1, left := r.left - 1, landing := false } }
    if c.flag (RCH_CTRL_EN l) then c.beginItem l r else c.emptySlot l slot

def execLaneSlotStart (l : Lane) (slot : Nat) (s : State) : Out := s.onIf (decide (slot ≤ lastSlot)) fun c => c.laneSlotStart l slot

/-- The landing set gives way to the streaming set (R193). -/
def execLandingWindowEnd (l : Lane) (s : State) : Out := s.on fun c => c.when ((c.lane l).acqLeft == 0) fun c =>
  c.updLane l fun x => { x with land := x.land.map (fun r => if r.1 = 0 then (0, c.fld (RCH_LAND_CFG_WINDOW l)) else r) }

/-! ### Wobble channel (R161 to R165) -/

/-- The landing set is in force at a slot offset. -/
def LaneRec.landAt (x : LaneRec) (n : Nat) : Bool := x.land.any (fun r => decide (r.1 ≤ n) && decide (n < r.2))

/-- AMP after the correlations of wobbles from number `m` on (R162, R187). -/
def Chip.wobbleAmp (c : Chip) (l : Nat) : Nat → Int → List Int → Int
  | _, amp, [] => amp
  | m, amp, i :: is =>
    let mu := if (c.lane l).landAt (64 * m) then c.fld (RCH_STEP_LAND_MU_W l) else c.fld (RCH_STEP_STREAM_MU_W l)
    Chip.wobbleAmp c l (m + 1) (limit 0 (0xFFFF * 65536) (if mu = 0 then amp else amp + rndDiv (i.natAbs * 65536 - amp) (2 ^ mu))) is

/-- A block mark is found (R161 to R163). -/
def Chip.blockMark (c : Chip) (l : Nat) (dev : Int) (corr : List Int) : Chip :=
  let locked := c.flag (RCH_STATUS_WOBBLE_LOCK l)
  let x := c.lane l
  let amp := fun (v : LoopVals) => if x.hold.isSome then v.amp else c.wobbleAmp l 0 v.amp corr
  let c := c.updLane l fun x =>
    { x with main := x.main.map (fun v => { v with amp := amp v }),
             marks := if locked then x.marks else if dev = 0 then x.marks + 1 else 1 }
  if locked ∧ 2 < dev.natAbs then c.inc (RCH_GADDR_FAILED_COUNT l) else c

def execBlockMark (l : Lane) (dev : Int) (corr : List Int) (s : State) : Out := s.on fun c => c.blockMark l dev corr

def Chip.setWobbleLock (c : Chip) (l : Nat) (b : Bool) : Chip :=
  ((c.setFlag (RCH_STATUS_WOBBLE_LOCK l) b).setFlag (RCH_WOBBLE_LOCK l) b).updLane l fun x => { x with marks := 0 }

def execWobbleLock (l : Lane) (s : State) : Out := s.on fun c =>
  c.when (!c.flag (RCH_STATUS_WOBBLE_LOCK l) && decide (4 ≤ (c.lane l).marks)) fun c => c.setWobbleLock l true

/-- Timing is lost (R165); on a verify lane that ends the pass (R267). -/
def Chip.timingLost (c : Chip) (l : Nat) : Chip :=
  let c := ((c.mark (RCH_EVENT_TIMING_LOST l)).inc (RCH_TIMING_LOST_COUNT l)).updReport l fun r => { r with timingLost := true }
  let c := c.updLane l fun x => { x with landNext := true }
  if l % 8 = 0 then c.cutPass (l / 8) else c

def execWobbleLockLost (l : Lane) (s : State) : Out := s.on fun c =>
  c.when (c.flag (RCH_STATUS_WOBBLE_LOCK l)) fun c => (c.setWobbleLock l false).timingLost l

/-- f sits at a bound (R168). -/
def execLoopSat (l : Lane) (s : State) : Out := s.on fun c =>
  c.when ((c.lane l).cur.isSome || (c.lane l).verify) fun c => c.mark (RCH_STATUS_LOOP_SAT l)

def execTimingLoopLoss (l : Lane) (s : State) : Out := s.on fun c =>
  c.when (c.flag (RCH_STATUS_LOOP_SAT l)) fun c => (c.setFld (RCH_STATUS_LOOP_SAT l) 0).timingLost l

/-- The 14 nibbles of the sums D of a slot's 56 bits, and the erased ones as powers of x; AMP with its 16 fraction bits (R164). -/
def gaddrNibbles (amp : Int) (sums : List Int) : List Nat × List Nat :=
  let nib := fun i => (sums.drop (4 * i)).take 4
  ((List.range 14).map (fun i => (nib i).foldl (fun a d => 2 * a + (if 0 < d then 1 else 0)) 0),
   ((List.range 14).filter (fun i => (nib i).any (fun d => decide ((d.natAbs : Int) * 65536 < 2 * amp)))).map (fun i => 13 - i))

/-- Decode a groove address word with its erasures. -/
def gaddrRead (amp : Int) (sums : List Int) : CodeResult × Nat :=
  let w := gaddrNibbles amp sums
  match rsDecode gf16 4 w.1 w.2 with
  | none => (.failed, 0)
  | some d => (if d = w.1 then .ok else .corrected, ofNibbles (d.take 10))

/-- What a groove address of the verify lane means to a pass (R254, R265, R267). -/
def Chip.passAddr (c : Chip) (p : Nat) (pba : Option Nat) : Chip :=
  let w := c.wch p
  let fails := if pba.isSome then 0 else w.failedW + 1
  let c := c.setWch p { w with goodW := ((pba.getD (2 ^ 40)) :: w.goodW).take 4, failedW := fails }
  match w.pass with
  | none => c
  | some a =>
    let wrong := pba.any (fun x => x != mkPba a.side a.layer a.furrow (a.at_ - 1))
    if w.cur.isSome ∧ (wrong ∨ 3 ≤ fails) then (c.mark (WCH_EVENT_ADDR_STOP p)).cutPass p else c

/-- The groove address is decoded (R164): a wrong place is a failure, a neighbouring furrow alone is a slip. -/
def Chip.gaddr (c : Chip) (l : Nat) (sums : List Int) : Chip :=
  let x := c.lane l
  let r := gaddrRead ((x.main.map (·.amp)).getD 0) sums
  let good := r.1 != .failed
  let c := if l % 8 = 0 then c.passAddr (l / 8) (if good then some r.2 else none) else c
  let k := l % 8
  let place := match x.cur with
    | none => true
    | some u => pbaSide r.2 == pbaSide u.report.pba && pbaLayer r.2 == pbaLayer u.report.pba && pbaSlot r.2 == pbaSlot u.report.pba
  let furrow := x.cur.isNone || pbaFurrow r.2 == k
  if good && place && furrow then
    let c := c.setFld (RCH_LAST_PBA_PBA l) r.2
    let c := if r.1 = .corrected then c.inc (RCH_GADDR_CORRECTED_COUNT l) else c
    c.updReport l fun p => { p with pba := r.2, gaddr := if r.1 = .ok then 0 else 1 }
  else
    let c := (c.mark (RCH_EVENT_GADDR_FAIL l)).inc (RCH_GADDR_FAILED_COUNT l)
    let c := c.updReport l fun p => { p with gaddr := 2 }
    let dir : Int := if pbaFurrow r.2 = k + 1 then 1 else if pbaFurrow r.2 + 1 = k then -1 else 0
    if good ∧ place ∧ dir ≠ 0 then
      let q := c.seqr (l / 8)
      (c.updReport l fun p => { p with mismatch := true }).setSeqr (l / 8) { q with slips := ((pbaSlot r.2, k, dir) :: q.slips).take 16 }
    else c

def execGaddrDecode (l : Lane) (sums : List Int) (s : State) : Out := s.onIf (sums.length == 56) fun c => c.gaddr l sums

/-! ### Analog gain steps (R172) -/

def execAnalogGainStep (l : Lane) (up : Bool) (s : State) : Out := s.on fun c =>
  c.when ((c.lane l).cur.isSome || (c.lane l).verify) fun c =>
    let g := c.fld (AFE_LANE_CFG_GAIN (l / 8) (l % 8))
    if (up ∧ 48 < g + 12) ∨ (!up ∧ g < 12) then c.mark (RCH_STATUS_GAIN_LIMIT l)
    else (c.setFld (RCH_STATUS_GAIN_LIMIT l) 0).setAfeLane l { c.afeLane l with step := some up }

/-! ### Tag context (R194) -/

def execTagContextStart (l : Lane) (s : State) : Out := s.on fun c =>
  c.when ((c.lane l).cur.isSome) fun c =>
    (c.setFld (RCH_STATUS_TAG_CONTEXT l) 1).updLane l fun x =>
      if (x.cur.map (·.spans)).getD 0 = 0 then
        { x with tag := (x.entry.map (fun e => { e.2.loops with amp := (x.main.map (·.amp)).getD 0 })) }
      else x

def execTagContextEnd (l : Lane) (mse : Nat) (s : State) : Out := s.on fun c =>
  c.when (c.flag (RCH_STATUS_TAG_CONTEXT l)) fun c =>
    let c := c.setFld (RCH_STATUS_TAG_CONTEXT l) 0
    match (c.lane l).entry with
    | some e => if 4 * e.2.mse < mse then c.inc (RCH_ZT_DRIFT_COUNT l) else c
    | none => c

/-! ### Defects and blank slots (R186 to R191) -/

/-- A defect begins; before the release of a hold it extends that hold. -/
def Chip.defectOnset (c : Chip) (l off : Nat) : Chip :=
  match (c.lane l).hold with
  | some _ => c.updLane l fun x => { x with hold := x.hold.map (fun h => { h with release := none }) }
  | none =>
    ((c.mark (RCH_STATUS_HOLD l)).mark (RCH_EVENT_DEFECT l)).updLane l fun x => { x with hold := some { onset := off } }

def execDefectOnset (l : Lane) (off : Nat) (s : State) : Out := s.onIf (decide (off < 57344)) fun c => c.defectOnset l off

/-- Bits of a slot that ranges cover, each range within the slot. -/
def rangeBits (rs : List (Nat × Nat)) : Nat := (rs.map (fun r => min r.2 57344 - min r.1 57344)).foldl (· + ·) 0

/-- A defect ends; in a blank slot the hold goes on to the end of the slot. -/
def Chip.defectEnd (c : Chip) (l off : Nat) (deep : List (Nat × Nat)) : Chip :=
  let n := rangeBits deep
  let blank := ((c.lane l).cur.any (·.report.blank))
  let r := if blank then max (off + 32) 57344 else off + 32
  let c := c.updLane l fun x => { x with hold := x.hold.map (fun h => { h with release := some r }) }
  (c.add (RCH_DEEP_BITS_COUNT l) n).updCur l fun u =>
    { u with deep := u.deep ++ deep, report := { u.report with deepBits := min (u.report.deepBits + n) 65535 } }

def execDefectEnd (l : Lane) (off : Nat) (deep : List (Nat × Nat)) (s : State) : Out :=
  s.onIf (decide (off < 57344) && deep.all (fun r => decide (r.1 ≤ r.2 ∧ r.2 ≤ 57344))) fun c =>
    c.when ((c.lane l).hold.isSome) fun c => c.defectEnd l off deep

/-- The hold is released: counted unless it was a blank slot's; after a long or a blank one the landing set holds for WINDOW bits. -/
def Chip.holdRelease (c : Chip) (l : Nat) : Chip :=
  match (c.lane l).hold with
  | none => c
  | some h =>
    match h.release with
    | none => c
    | some r =>
      let c := if h.blank then c else
        (c.inc (RCH_DEFECTS_COUNT l)).add (RCH_DEFECT_BITS_COUNT l) (h.before + (r - h.onset))
      let c := c.setFld (RCH_STATUS_HOLD l) 0
      let c := c.updLane l fun x =>
        { x with hold := none, land := if h.long ∨ h.blank then x.land ++ [(r, r + c.fld (RCH_LAND_CFG_WINDOW l))] else x.land }
      c.updCur l fun u => { u with holds := u.holds ++ [(h.onset, r)] }

def execHoldRelease (l : Lane) (s : State) : Out := s.on fun c => c.holdRelease l

def execLongDefect (l : Lane) (s : State) : Out := s.on fun c =>
  c.when ((c.lane l).hold.isSome) fun c =>
    let c := (c.mark (RCH_EVENT_LONG_DEFECT l)).updLane l fun x => { x with hold := x.hold.map (fun h => { h with long := true }) }
    c.updReport l fun r => { r with longDefect := true }

/-- A slot is blank where more than 90 % of its first 848 offsets stayed dark. -/
def Chip.blankDecision (c : Chip) (l dark : Nat) : Chip :=
  if dark * 10 ≤ 848 * 9 then c else
  let c := ((c.mark (RCH_STATUS_BLANK l)).inc (RCH_BLANK_COUNT l)).mark (RCH_STATUS_HOLD l)
  let c := c.updReport l fun r => { r with blank := true }
  c.updLane l fun x => { x with hold := some { (x.hold.getD { onset := 0 }) with blank := true } }

def execBlankDecision (l : Lane) (darkBits : Nat) (s : State) : Out := s.onIf (decide (darkBits ≤ 848)) fun c =>
  c.when ((c.lane l).cur.isSome) fun c => c.blankDecision l darkBits

/-! ### Spans (R158, R166 to R183) -/

/-- First offset of a span, and its length (Table 4.2). -/
def spanStart (s : Nat) : Nat := if s = 0 then 0 else if s = 1 then 848 else 824 + 2072 * (s - 1)
def spanLen (s : Nat) : Nat := if s = 0 then 848 else if s = 1 then 2048 else if s = 28 then 576 else 2072

/-- The step set that a register holds. -/
def stepsOf (x : Word) : StepSet :=
  (fieldOf x 0 4, fieldOf x 4 4, fieldOf x 8 4, fieldOf x 12 4, fieldOf x 16 4, fieldOf x 20 4, fieldOf x 24 4)

/-- A hold is in force at a slot offset. -/
def LaneRec.heldAt (x : LaneRec) (n : Nat) : Bool :=
  ((x.cur.map (·.holds)).getD []).any (fun r => decide (r.1 ≤ n) && decide (n < r.2)) ||
  x.hold.any (fun h => decide (h.onset ≤ n) && (match h.release with | none => true | some r => decide (n < r)))

/-- A lane within a span: the loops, the main context's values while the tag context drives, whether the slot has had a transition, whether a
value was held at a range end at the last bit, and at any bit. -/
structure SpanRun where
  b : BitSt
  main : LoopVals
  moved : Bool
  ever : Bool := false
deriving DecidableEq, Repr

/-- One bit of a span at slot offset `n`: sample and wobble 8 ahead, neighbours' decisions 2 ahead; contexts change at 448 and 912. -/
def Chip.spanBit (c : Chip) (l : Nat) (entry : LoopVals) (r : SpanRun) (n : Nat) (x wob ain aout : Int) : SpanRun :=
  let t := c.lane l
  let r := if n = 448 then
      { r with main := r.b.v, b := { r.b with v := { entry with amp := r.b.v.amp, levelRef := r.b.v.levelRef, mse := r.b.v.mse } } }
    else if n = 912 then { r with b := { r.b with v := r.main } } else r
  let tag := decide (448 ≤ n ∧ n < 912)
  let st := stepsOf (c.reg (if tag || t.landAt n then RCH_STEP_LAND l else RCH_STEP_STREAM l))
  let blank := t.cur.any (·.report.blank)
  let b := laneBit st (t.heldAt n) (blank || !r.moved) ain aout (pushU { r.b with sat := false } x wob)
  let p := bestPath b.pipe.paths
  { r with b := b, moved := r.moved || (decide (6 ≤ n ∧ 8 ≤ p.length) && p.getD 6 false != p.getD 7 false), ever := r.ever || b.sat }

/-- The LLRs of a detected span: scaled where held, 0 after a loss of timing, on a degraded beam (R165, R189, R203). -/
def Chip.spanLlrs (c : Chip) (l first : Nat) (mse : Int) (res : List (Int × Bool × Int)) : List Int :=
  let t := c.lane l
  let off := t.cur.any (fun u => u.report.timingLost || u.report.degraded)
  let code := c.fld (RCH_DEFECT_CFG_LLR_SCALE l)
  (List.range res.length).map (fun i =>
    if off then 0
    else if t.heldAt (first + i) then llrOf mse (res.getD i (0, false, 0)).1 (if code = 3 then 0 else 1) (2 ^ code)
    else llrOf mse (res.getD i (0, false, 0)).1 1 1)

/-- w of a span formed again from revised decisions, with the present taps (R179). -/
def reformW (v : LoopVals) (z inner outer : List Int) : List Int :=
  (List.range z.length).map (fun j =>
    z.getD j 0 - 80 * (xtSide v.xin ((inner.drop j).take 5).reverse 0 + xtSide v.xout ((outer.drop j).take 5).reverse 0) * 2 ^ 95)

/-- A span is detected, detected again where `compare` finds a revised decision that differs, and confirmed (R166 to R183). -/
def Chip.spanGo (c : Chip) (l : Nat) (compare : Bool) (s : SpanIn) : Chip :=
  let t := c.lane l
  match t.cur, t.main, t.entry with
  | some u, some main, some entry =>
    let first := spanStart u.spans
    let len := spanLen u.spans
    let side := fun inner (xs : List Int) => if c.sideOff l inner then xs.map (fun _ => (0 : Int)) else xs
    let inner := side true s.inner
    let outer := side false s.outer
    let v := if u.spans = 1 then t.tag.getD { entry.2.loops with amp := main.amp, levelRef := main.levelRef, mse := main.mse } else main
    let pipe := if t.pipe.ain = [] then { t.pipe with ain := (inner.take 4).reverse, aout := (outer.take 4).reverse } else t.pipe
    let b0 : BitSt := { v := v, pipe := pipe, f := t.f, phi := t.phi }
    let b0 := if pipe.u = [] then (List.range 8).foldl (fun b i => pushU b (s.x.getD i 0) (s.wobble.getD i 0)) b0 else b0
    let bit := fun (r : SpanRun) (i : Nat) =>
      c.spanBit l entry.2.loops r (first + i) (s.x.getD (i + 8) 0) (s.wobble.getD (i + 8) 0) (inner.getD (i + 4) 0) (outer.getD (i + 4) 0)
    let r := (List.range len).foldl bit { b := b0, main := main, moved := u.spans != 0 }
    let ahead := (List.range 64).foldl (fun (b : BitSt) i =>
      laneBit (0, 0, 0, 0, 0, 0, 0) true true (inner.getD (len + i + 4) 0) (outer.getD (len + i + 4) 0)
        (pushU b (s.x.getD (len + i + 8) 0) (s.wobble.getD (len + i + 8) 0))) r.b
    let w := (r.b.pipe.w.take len).reverse
    let look := (ahead.pipe.w.take 64).reverse
    let alpha := t.pipe.alpha
    let innerRev := side true s.innerRev
    let outerRev := side false s.outerRev
    let again := compare && (innerRev != inner.take (len + 4) || outerRev != outer.take (len + 4))
    let w := if again then reformW r.b.v (r.b.pipe.z.take len).reverse innerRev outerRev else w
    let res := softDetect u.mse len alpha ((w ++ look).map (fun x => (x, 0)))
    let counted := (List.range len).filter (fun i => decide (1 ≤ u.spans ∧ u.spans ≤ 27) && !t.heldAt (first + i))
    let err := (counted.map (fun i => ((w.getD i 0 - 10 * (res.1.getD i (0, false, 0)).2.2 * zScale).natAbs) ^ 2)).foldl (· + ·) 0
    let oneSided := (inner ++ outer).any (· == 0)
    let u' := { u with llr := u.llr ++ c.spanLlrs l first u.mse res.1, w := u.w ++ w, spans := u.spans + 1, errSum := u.errSum + err,
                       errCount := u.errCount + counted.length,
                       report := { u.report with redetects := u.report.redetects + again.toNat, oneSided := u.report.oneSided || oneSided } }
    let inTag := u.spans == 0
    let c := c.setLane l { t with cur := some u', main := some (if inTag then r.main else r.b.v), tag := if inTag then some r.b.v else none,
                                  pipe := { r.b.pipe with alpha := res.2 }, f := r.b.f, phi := r.b.phi }
    let bound := r.b.f.natAbs == 83886 * 65536
    let c := c.setFlag (RCH_STATUS_LOOP_SAT l) (r.b.sat || (bound && c.flag (RCH_STATUS_LOOP_SAT l)))
    let c := if r.ever then c.mark (RCH_EVENT_LOOP_SAT l) else c
    if again then c.inc (RCH_REDETECTS_COUNT l) else c
  | _, _, _ => c

/-- The operands of a span have the lengths that a span of `n` bits asks for. -/
def spanShape (s : SpanIn) (n : Nat) : Bool :=
  let dec := fun (xs : List Int) k => xs.length == n + k && xs.all (fun x => decide (-1 ≤ x ∧ x ≤ 1))
  s.x.length == n + 72 && s.wobble.length == n + 72 && dec s.inner 68 && dec s.outer 68 && dec s.innerRev 4 && dec s.outerRev 4

/-- The operands have the lengths of some span. -/
def spanOk (s : SpanIn) : Bool := (List.range 29).any (fun k => spanShape s (spanLen k))

/-- A span waits to be confirmed, and the operands are those of its length. -/
def Chip.spanDue (c : Chip) (l : Nat) (s : SpanIn) : Bool :=
  (c.lane l).cur.any (fun u => decide (u.spans < 29) && spanShape s (spanLen u.spans))

def execSpanConfirm (l : Lane) (s : SpanIn) (st : State) : Out :=
  st.onIf (spanOk s) fun c => c.when (c.spanDue l s) fun c => c.spanGo l true s

def execXtiTimeout (l : Lane) (s : SpanIn) (st : State) : Out :=
  st.onIf (spanOk s) fun c => c.when (c.spanDue l s) fun c =>
    (((c.spanGo l false s).inc (RCH_XTI_TIMEOUTS_COUNT l)).mark (RCH_EVENT_XTI_TIMEOUT l)).updReport l fun r => { r with timeouts := r.timeouts + 1 }

/-- The loop-value registers take a snapshot of the context in force (R206, R208). -/
def Chip.snapshotLatch (c : Chip) (l : Nat) : Chip :=
  let x := c.lane l
  let tag := if c.flag (RCH_STATUS_TAG_CONTEXT l) then x.tag else none
  match (tag.orElse fun _ => x.main) with
  | none => c
  | some v =>
    let q := fun (i : Int) => i / 65536
    let c := (c.setFld (RCH_TIMING_PHASE l) (bitsOfInt 6 (x.phi / 2 ^ 34))).setInt (RCH_TIMING_FREQ l) (q x.f)
    let c := ((c.setInt (RCH_DGAIN_DGAIN l) (q v.g)).setInt (RCH_BASELINE_BASELINE l) (q v.b)).setInt (RCH_ASYM_ASYM l) (q v.a)
    let c := (c.setInt (RCH_WOBBLE_AMP l) (q v.amp)).setInt (RCH_MSE_MSE l) v.mse
    let c := (List.range 17).foldl (fun c i => c.setInt (RCH_EQ_TAP_TAP l i) (q (v.taps.getD i 0))) c
    let c := (List.range 5).foldl (fun c j =>
      (c.setInt (RCH_XTI_IN_TAP l j) (q (v.xin.getD j 0))).setInt (RCH_XTI_OUT_TAP l j) (q (v.xout.getD j 0))) c
    c.wrapInc (RCH_SNAP_SEQ l)

def execSnapshotLatch (l : Lane) (s : State) : Out := s.on fun c =>
  c.when (!c.flag (RCH_SNAP_HOLD l) && !c.flag (RCH_STATUS_STALE l)) fun c => c.snapshotLatch l

/-! ### Items (R181, R183, R185, R199, R204) -/

/-- A mean squared error in 1/16 LSB² of a sum of squares and a count. -/
def mseOf (sum count : Nat) : Int := min 65535 (rndDiv (16 * sum) (zScale * zScale * count))

/-- A slot leaves the block sample store while its block still iterates: the decoder is told (R185). -/
def Chip.loseSlot (c : Chip) (l : Nat) (x : LaneSlot) : Chip :=
  let p := l / 8
  let f := c.frm p
  let mine := fun (b : LdpcBlk) => b.item.lane == l && b.item.report.pba == x.pba && !b.lost
  if f.iterating.any mine then
    ((c.setFrm p { f with iterating := f.iterating.map (fun b => if mine b then { b with lost := true } else b) }).inc
      (RCH_ITER_LOST_COUNT l)).mark (RCH_EVENT_ITER_LOST l)
  else c

/-- The item of a slot is committed to the framer. -/
def Chip.commitLane (c : Chip) (l : Nat) : Chip :=
  let x := c.lane l
  match x.cur, x.main with
  | some u, some v =>
    let d0 := c.draw
    let d1 := d0.2.draw
    let mse := if u.errCount = 0 then ((d0.1.toNat % 65536 : Nat) : Int) else mseOf u.errSum u.errCount
    let v := { v with mse := mse, levelRef := ((d1.1.toNat % 65536 : Nat) : Int) }
    let c := d1.2
    let open_ := match x.hold with
      | some h => [(h.onset, (h.release.map (fun r => min r 57344)).getD 57344)]
      | none => []
    let holds := u.holds ++ open_
    let rep := { u.report with mse := mse.toNat, defectBits := min (rangeBits holds) 65535 }
    let llr := (List.range 57344).map (fun n =>
      if rep.blank || rep.degraded || u.deep.any (fun r => decide (r.1 ≤ n) && decide (n < r.2)) then 0 else u.llr.getD n 0)
    let slot : LaneSlot :=
      { pba := rep.pba, w := u.w, mse := u.mse, holds := holds, deep := u.deep, v := v, held := rangeBits holds, blank := rep.blank,
        addr := x.entry.map (·.1) }
    let c := (x.store.drop 2).foldl (fun c s => c.loseSlot l s) c
    let total := c.fld (RCH_LAND_CFG_ACQ_BLOCKS l)
    let acq := fun (x : LaneRec) => if x.acqLeft = 0 then x else
      { x with acqLeft := x.acqLeft - 1, acqFirst := if total - x.acqLeft + 1 = total / 2 then some v else x.acqFirst,
               acqLast := if x.acqLeft = 1 then some v else x.acqLast }
    let c := c.setLane l (acq { x with cur := none, out := some ⟨rep, llr⟩, main := some v, store := (slot :: x.store).take 3 })
    ((c.inc (RCH_SLOTS_COUNT l)).setFld (RCH_STATUS_ACTIVE l) 0).setFlag (RCH_STATUS_ACQUIRING l) (decide (0 < (c.lane l).acqLeft))
  | _, _ => c

def execLaneItemCommit (l : Lane) (s : State) : Out := s.on fun c =>
  c.when ((c.lane l).cur.any (fun u => u.spans == 29) && (c.lane l).out.isNone) fun c => c.commitLane l

/-- The iteration detector's LLRs of a stored slot, for a priori values by offset (R185). -/
def Chip.redetect (c : Chip) (l : Nat) (x : LaneSlot) (apriori : List Int) : List Int :=
  let code := c.fld (RCH_DEFECT_CFG_LLR_SCALE l)
  let covers := fun (rs : List (Nat × Nat)) (n : Nat) => rs.any (fun r => decide (r.1 ≤ n) && decide (n < r.2))
  let res := (softDetect x.mse 57344 [] (List.zipWith (fun w a => (w, a)) x.w apriori)).1
  (List.range 57344).map (fun n =>
    let d := (res.getD n (0, false, 0)).1
    if x.blank ∨ covers x.deep n then 0
    else if covers x.holds n then llrOf x.mse d (if code = 3 then 0 else 1) (2 ^ code) else llrOf x.mse d 1 1)

/-! ### Acquisition and zone updates (R199, R200) -/

/-- Write an entry to buffer DRAM, where the Flume is up, and to every cached copy, as one whole (R201); its layer's zone table has changed. -/
def Chip.storeEntry (c : Chip) (l addr : Nat) (e : ZEntry) : Chip :=
  let c := if c.flag FLM_STATUS_UP then c.dramWrite addr e.bytes else c
  let c := if c.mounted (l / 8) then c.updLayer (l / 8) (entryLayer addr) (fun y => { y with learned := true, dirty := true }) else c
  c.updLane l fun x =>
    { x with cache := x.cache.map (fun s => (s.1, s.2.map (fun y => if y.1 = addr then (addr, e) else y))) }

/-- The entry of a place as the lane knows it. -/
def Chip.knownEntry (c : Chip) (l addr : Nat) : ZEntry :=
  match (c.lane l).cache.findSome? (fun x => x.2.bind (fun e => if e.1 = addr then some e.2 else none)) with
  | some e => e
  | none => entryOf (c.bytes addr 64)

/-- The digital fields of an entry from loop values, without their fraction bits. -/
def ZEntry.withLoops (e : ZEntry) (v : LoopVals) : ZEntry :=
  let q := fun (i : Int) => i / 65536
  { e with dgain := q v.g, baseline := q v.b, asym := q v.a, taps := v.taps.map q, xin := v.xin.map q, xout := v.xout.map q, amp := q v.amp,
           mse := v.mse, levelRef := v.levelRef }

/-- The analog fields of an entry from the values in use; CORNER is kept for 8,400 rpm. -/
def Chip.withAnalog (c : Chip) (l : Nat) (e : ZEntry) : ZEntry :=
  let a := c.afeLane l
  { e with gain := a.gain, corner := if c.slow (l / 8) then e.corner else a.corner, boost := a.boost, offset := a.offset }

/-- Two sets of loop values agree (R199 step 3). -/
def acqAgree (a b : LoopVals) : Bool :=
  let q := fun (i : Int) => i / 65536
  let near := fun (n : Nat) (x y : Int) => decide ((q x - q y).natAbs ≤ n)
  (List.range 17).all (fun i => near 16 (a.taps.getD i 0) (b.taps.getD i 0)) &&
    (List.range 5).all (fun i => near 16 (a.xin.getD i 0) (b.xin.getD i 0) && near 16 (a.xout.getD i 0) (b.xout.getD i 0)) &&
    decide ((q a.g - q b.g).natAbs * 50 ≤ (q a.g).natAbs) && near 64 a.a b.a && near 32 a.b b.b

/-- The channel sequencer compares the two sets of an acquisition; acceptance and rejection count for item 2 of the pickup (R568). -/
def Chip.acquisitionCheck (c : Chip) (l : Nat) : Chip :=
  let x := c.lane l
  let p := l / 8
  match x.acqFirst, x.acqLast with
  | some a, some b =>
    let c := c.setLane l { x with acqFirst := none, acqLast := none }
    if x.seeds then c else
    if acqAgree a b then
      let e := c.withAnalog l ((c.knownEntry l x.acqAddr).withLoops b)
      let c := (c.storeEntry l x.acqAddr { e with learned := true, factory := false, count := 1 }).calAccept p 2
      (c.setCal p { c.cal p with rejected := [] }).acqJudged p (l % 8) 0
    else
      let c := (c.mark (RCH_EVENT_ACQ_REJECT l)).inc (RCH_ACQ_REJECTS_COUNT l)
      let k := c.cal p
      let beams := if (k.rejected).contains (l % 8) then k.rejected else k.rejected ++ [l % 8]
      let c := (c.setCal p { k with rejected := beams }).calReject p 2 (beams.foldl (fun a k => a ||| 2 ^ k) 0)
      c.acqJudged p (l % 8) (if c.fld (CAL_ITEM_STATE p 2) = 3 then 2 else 1)
  | _, _ => c

def execAcquisitionCheck (l : Lane) (s : State) : Out := s.on fun c => c.acquisitionCheck l

/-- One revolution at 8,400 rpm, in ns. -/
def turnNs : Nat := 7142857

/-- A field moves an eighth of the way to the lane's value, which has `bits` fraction bits. -/
def learnField (old v : Int) (bits : Nat) : Int := old + rndDiv (v - old * 2 ^ bits) (8 * 2 ^ bits)

/-- The zone entry of a slot whose block was decoded in its first global iteration is updated (R200, R203). -/
def Chip.learn (c : Chip) (l pba : Nat) : Chip :=
  let x := c.lane l
  match x.store.find? (fun s => s.pba == pba) with
  | none => c
  | some s =>
    match s.addr with
    | none => c
    | some a =>
      let e := c.knownEntry l a
      let t := Cells.get (fun _ => 0#64) x.learnt a
      let free := t = 0 ∨ turnNs ≤ (c.now - t).toNat
      if !c.flag (RCH_CTRL_LEARN_EN l) ∨ c.flag (RCH_CTRL_DEGRADED l) ∨ c.slow (l / 8) ∨ s.blank ∨ 1024 < s.held ∨ !e.learned ∨ ¬free then c
      else
        let v := s.v
        let each := fun (n : Nat) (old new : List Int) => (List.range n).map (fun i => learnField (old.getD i 0) (new.getD i 0) 16)
        let e := { e with dgain := learnField e.dgain v.g 16, baseline := learnField e.baseline v.b 16, asym := learnField e.asym v.a 16,
                          taps := each 17 e.taps v.taps, xin := each 5 e.xin v.xin, xout := each 5 e.xout v.xout,
                          amp := learnField e.amp v.amp 16, mse := learnField e.mse v.mse 0, levelRef := learnField e.levelRef v.levelRef 0,
                          count := min (e.count + 1) 255 }
        let c := c.storeEntry l a (c.withAnalog l e)
        (c.updLane l fun x => { x with learnt := Cells.put (fun _ => 0#64) x.learnt a c.now }).inc (RCH_LEARNS_COUNT l)

/-! ### Xfurrow on lanes (R511 to R513) -/

/-- The beams that a mask names. -/
def beamsOf (mask : Nat) : List Nat := (List.range 8).filter (fun k => mask.testBit k)

/-- One of the results that apply; which one is left open where several do. -/
def Chip.pickResult (c : Chip) (codes : List Nat) : Nat × Chip :=
  match codes with
  | [] => (0, c)
  | [x] => (x, c)
  | _ => let d := c.draw; (codes.getD (d.1.toNat % codes.length) 0, d.2)

/-- FARM (R512). -/
def Chip.farm (c : Chip) (p : Nat) (a b : Word) : Nat × Chip :=
  let slot := fieldOf a 0 32
  let layer := fieldOf a 32 4
  let side := fieldOf a 36 1
  let mask := fieldOf a 40 8
  let count := fieldOf a 48 16
  let ks := beamsOf mask
  let range := layer > 9 ∨ slot > lastSlot ∨ slot + count > lastSlot + 1 ∨ count = 0 ∨ mask = 0
  let codes := (if ks.any (fun k => (c.lane (8 * p + k)).next.isSome) then [1] else []) ++ (if range then [2] else []) ++
    (if ks.any (fun k => !c.flag (RCH_CTRL_EN (8 * p + k))) then [3] else [])
  if codes ≠ [] then c.pickResult codes else
  (0, ks.foldl (fun c k =>
    let r : ArmRun := ⟨mkPba side layer k slot, count, b.getLsbD 0, fieldOf b 32 32⟩
    c.updLane (8 * p + k) fun x => if x.armed then { x with next := some r } else { x with run := some r, disarm := false }) c)

def execFarm (p : Pickup) (rd rs1 rs2 : Fin 32) (s : State) : Out := s.on fun c =>
  let r := c.farm p (c.getX (.cs p) rs1) (c.getX (.cs p) rs2)
  r.2.setX (.cs p) rd (BitVec.ofNat 64 r.1)

/-- FDISARM (R512): waiting runs go at once, armed ones at the boundary. -/
def Chip.fdisarm (c : Chip) (p mask : Nat) : Chip :=
  (beamsOf mask).foldl (fun c k => c.updLane (8 * p + k) fun x => { x with next := none, disarm := x.run.isSome }) c

def execFdisarm (p : Pickup) (rd rs1 _rs2 : Fin 32) (s : State) : Out := s.on fun c =>
  (c.fdisarm p (fieldOf (c.getX (.cs p) rs1) 0 8)).setX (.cs p) rd 0

/-- An address is that of a zone entry. -/
def isZoneAddr (a : Nat) : Bool := a % 64 == 0 && decide (3 * 2 ^ 20 ≤ a ∧ a < 8 * 2 ^ 20)

/-- The entry is in every named lane: it is read and cached as one whole (R201, R513). -/
def Chip.fzloadDone (c : Chip) (p addr mask slot rd : Nat) : Chip :=
  let c := (c.readUnits [addr / 64]).2
  let e := entryOf (c.bytes addr 64)
  let c := (beamsOf mask).foldl (fun c k => c.updLane (8 * p + k) fun x =>
    { x with cache := Cells.put (fun _ => none) x.cache slot (some (addr, e)) }) c
  if h : p < 16 then
    let g : Engine := .cs ⟨p, h⟩
    (c.setEng (engNum g) { c.eng (engNum g) with zload := none }).setX g rd 0
  else c

/-- FZLOAD (R513): it stalls until the named lanes hold the entry. -/
def Chip.fzload (c : Chip) (p : Pickup) (rd : Nat) (a b : Word) : Chip :=
  let addr := a.toNat
  let mask := fieldOf b 0 8
  if !isZoneAddr addr then c.setX (.cs p) rd 2
  else if !c.flag FLM_STATUS_UP then c.setX (.cs p) rd 4
  else if mask = 0 then c.setX (.cs p) rd 0
  else c.setEng (engNum (.cs p)) { c.eng (engNum (.cs p)) with zload := some (addr, mask, fieldOf b 8 2, rd) }

def execFzload (p : Pickup) (rd rs1 rs2 : Fin 32) (s : State) : Out := s.on fun c =>
  c.fzload p rd (c.getX (.cs p) rs1) (c.getX (.cs p) rs2)

def execFzloadComplete (p : Pickup) (s : State) : Out := s.on fun c =>
  match (c.eng (engNum (.cs p))).zload with
  | some (addr, mask, slot, rd) => c.when c.carrying fun c => c.fzloadDone p addr mask slot rd
  | none => c

end Sys2Proof.Machine
end

