-- ==== Sys2Proof/Machine/Framer.lean ====
section
/-! DEFINITION. The framers (R211 to R224) and the arithmetic of the LDPC decoder (R225, R226). -/

namespace Sys2Proof.Machine

def Chip.frameOf (c : Chip) (l : Nat) : Option FrameCur := Cells.get (fun _ => none) (c.frm (l / 8)).framers (l % 8)

def Chip.setFrame (c : Chip) (l : Nat) (x : Option FrameCur) : Chip :=
  let f := c.frm (l / 8)
  c.setFrm (l / 8) { f with framers := Cells.put (fun _ => none) f.framers (l % 8) x }

/-- `g` on the item that the framer of lane `l` works on. -/
def Chip.onFrame (c : Chip) (l : Nat) (g : FrameCur → Chip) : Chip :=
  match c.frameOf l with
  | none => c
  | some f => g f

/-! ### Taking an item (R211, R212) -/

/-- The framer takes the lane's item. -/
def Chip.framerPop (c : Chip) (l : Nat) : Chip :=
  match (c.lane l).out with
  | none => c
  | some it =>
    let p := l / 8
    let c := c.updLane l fun x => { x with out := none }
    (c.inc (FRM_ITEMS_COUNT p)).setFrame l (some { item := it, ctrl := c.reg (FRM_CTRL p), iter := c.reg (FRM_ITER_CFG p),
                                                   iterMax := c.fld (RCH_CTRL_ITER_MAX l) })

def execFramerPop (l : Lane) (s : State) : Out := s.on fun c =>
  c.when (c.flag (FRM_CTRL_EN (l / 8)) && (c.frameOf l).isNone) fun c => c.framerPop l

/-- An item that crosses without its LLRs: a blank slot, a degraded beam, a wrong furrow (R211, R223). -/
def FrameCur.bare (f : FrameCur) : Bool := f.item.report.blank || f.item.report.degraded || f.item.report.mismatch

/-! ### Finding the frame (R213 to R218) -/

/-- The hard decision of a channel bit. -/
def hardBit (llr : List Int) (n : Nat) : Bool := decide (llr.getD n 0 < 0)

/-- Hamming distance of the decisions from offset `at_` on to a pattern. -/
def hardDist (llr : List Int) (at_ : Nat) (pat : List Bool) : Nat :=
  ((List.range pat.length).filter (fun i => hardBit llr (at_ + i) != pat.getD i false)).length

/-- The next candidate after those found, in increasing order (R214). -/
def FrameCur.nextCand (f : FrameCur) : Option Nat :=
  let from_ := (f.cands.getLast?.map (fun x => x.2 + 1)).getD 448
  (List.range (577 - from_)).findSome? (fun i =>
    if hardDist f.item.llr (from_ + i) syncS ≤ fieldOf f.ctrl 2 4 then some (from_ + i) else none)

/-- Rewind and frame anew (R35, R215, R217). -/
def Chip.reframe (c : Chip) (l : Nat) (f : FrameCur) (y : Nat × Nat) : Chip :=
  ((c.inc (FRM_REFRAMES_COUNT (l / 8))).mark (FRM_EVENT_REFRAME (l / 8))).setFrame l
    (some { f with y := some y, reframed := true, tag := .none, starts := [] })

/-- A candidate is found at `y`. -/
def Chip.syncCandidate (c : Chip) (l y : Nat) : Chip := c.onFrame l fun f =>
  if f.bare ∨ f.windowEnd ∨ f.nextCand ≠ some y then c else
  let d := hardDist f.item.llr y syncS
  let f := { f with cands := f.cands ++ [(d, y)] }
  match f.y with
  | none => c.setFrame l (some { f with y := some (d, y) })
  | some b => if d < b.1 then c.reframe l f (d, y) else c.setFrame l (some f)

def execSyncCandidate (l : Lane) (y : Nat) (s : State) : Out := s.on fun c => c.syncCandidate l y

/-- Flywheel framing at offset 512 (R218). -/
def Chip.flywheel (c : Chip) (l : Nat) (f : FrameCur) : Chip :=
  ((c.inc (FRM_FLYWHEEL_COUNT (l / 8))).mark (FRM_EVENT_FLYWHEEL (l / 8))).setFrame l
    (some { f with y := some (0, 512), flywheel := true, tag := .none, starts := [] })

/-- The window ends: without a candidate the framer flywheels. -/
def Chip.searchWindowEnd (c : Chip) (l : Nat) : Chip := c.onFrame l fun f =>
  if f.bare ∨ f.windowEnd ∨ f.nextCand.isSome then c else
  let f := { f with windowEnd := true }
  if f.cands = [] then c.flywheel l f else c.setFrame l (some f)

def execSearchWindowEnd (l : Lane) (s : State) : Out := s.on fun c => c.searchWindowEnd l

/-! ### The tag (R221, R222) -/

/-- Bytes of bits, and each byte's least reliable |LLR|. -/
def tagSymbols (llr : List Int) : List Nat × List Nat :=
  let one := fun i => (llr.drop (8 * i)).take 8
  ((List.range 24).map (fun i => (one i).foldl (fun a x => 2 * a + (if x < 0 then 1 else 0)) 0),
   (List.range 24).map (fun i => (one i).foldl (fun a x => min a x.natAbs) 1000))

/-- The 4 bytes whose least reliable bit is the least, the lower of equals first. -/
def weakest (rel : List Nat) : List Nat :=
  (List.range 24).filter (fun i => decide (((List.range 24).filter (fun j =>
    rel.getD j 0 < rel.getD i 0 ∨ (rel.getD j 0 = rel.getD i 0 ∧ j < i))).length < 4))

/-- The 24 bytes of the tag codeword, errors only and then with erasures. -/
def tagWord (llr : List Int) : Option (List Nat × Bool) :=
  let t := tagSymbols llr
  ((rsDecode gf256 8 t.1 []).orElse fun _ => rsDecode gf256 8 t.1 ((weakest t.2).map (23 - ·))).map (fun w => (w, w == t.1))

/-- Cluster offset m of a slot that lies in a cluster: of the user area or of a record position. -/
def clusterM (slot : Nat) : Option Nat :=
  if slot < 16384 then some (slot % 8)
  else if (slotZone slot).isSome ∧ slotInZone slot < 30520 then some (slotInZone slot % 8) else none

/-- The fields of a decoded tag agree with the slot it was read from. -/
def Chip.tagAgrees (c : Chip) (p slotPba : Nat) (t : List Byte) : Bool :=
  let slot := pbaSlot slotPba
  let home := ofBeBytes ((t.drop 7).take 5)
  let flags := (t.getD 14 0).toNat
  let place := if isSpare slot then flags.testBit 1 else home == slotPba
  let known := ((c.vol p).layer 0).valid
  (t.getD 6 0).toNat == slotPba / 2 ^ 32 && place && (flags.testBit 0 == (clusterM slot == some 7)) &&
    (flags.testBit 2 == decide (slot < 16384)) && flags / 8 == 0 && t.getD 15 0 == 0 &&
    (!known || ofBeBytes (t.take 6) == (c.vol p).volumeId)

/-- LLRs of a run of channel bits. -/
def llrRun (llr : List Int) (at_ n : Nat) : List Int := (llr.drop at_).take n

/-- The tag of the provisional frame is decoded and checked; its bits are demodulated with the segment after them. -/
def Chip.tagDecode (c : Chip) (l : Nat) : Chip := c.onFrame l fun f =>
  match f.y with
  | none => c
  | some y =>
    if !f.windowEnd ∨ f.tag ≠ .none then c else
    let slotPba := f.item.report.pba
    let failed := { f with tag := .failed, tagHome := slotPba, tagFlags := 0, tagBits := [] }
    c.setFrame l (some (
      match tagWord ((softDemod (llrRun f.item.llr (y.2 + 48) 2336)).take 192) with
      | none => failed
      | some w =>
        let t := w.1.map (BitVec.ofNat 8)
        if c.tagAgrees (l / 8) slotPba t then
          { f with tag := if w.2 then .ok else .corrected, tagHome := ofBeBytes ((t.drop 7).take 5), tagFlags := (t.getD 14 0).toNat,
                   tagBits := t.flatMap bitsMsb }
        else failed))

def execTagDecodeStep (l : Lane) (s : State) : Out := s.on fun c => c.tagDecode l

/-! ### Resyncs and confirmation (R216 to R220) -/

/-- Distance of the decisions after m1 to the nearer resync pattern. -/
def resyncDist (llr : List Int) (at_ : Nat) : Nat := min (hardDist llr (at_ + 1) resyncP0) (hardDist llr (at_ + 1) resyncP1)

/-- The shift at which the resync expected at `e` is found: least distance, then least size, then the negative (R219). -/
def resyncShift (llr : List Int) (thresh e : Nat) : Option Int :=
  let order : List Int := [0, -1, 1, -2, 2, -3, 3, -4, 4]
  let hits := (order.map (fun d => (resyncDist llr ((e : Int) + d).toNat, d))).filter (fun x => decide (x.1 ≤ thresh))
  match hits with
  | [] => none
  | h :: t => some (t.foldl (fun b x => if x.1 < b.1 then x else b) h).2

def FrameCur.shiftAt (f : FrameCur) (e : Nat) : Option Int := resyncShift f.item.llr (fieldOf f.ctrl 6 3) e

/-- Candidate number `i` by distance and then by place. -/
def candAt (cs : List (Nat × Nat)) (i : Nat) : Option (Nat × Nat) :=
  cs.find? (fun x => (cs.filter (fun z => decide (z.1 < x.1 ∨ (z.1 = x.1 ∧ z.2 < x.2)))).length == i)

/-- The provisional frame is confirmed, or the next candidate or flywheel framing takes its place. -/
def Chip.frameConfirm (c : Chip) (l : Nat) : Chip := c.onFrame l fun f =>
  match f.y with
  | none => c
  | some y =>
    if !f.windowEnd ∨ f.tag = .none ∨ f.flywheel ∨ f.confirmed then c else
    if f.tag ≠ .failed ∧ (f.shiftAt (y.2 + 2384)).isSome then
      (c.inc (FRM_CONFIRMED_COUNT (l / 8))).setFrame l (some { f with confirmed := true, starts := [y.2 + 336] })
    else
      let f := { f with tried := f.tried + 1 }
      match (if f.tried < fieldOf f.ctrl 9 3 then candAt f.cands f.tried else none) with
      | some n => c.reframe l f n
      | none =>
        let c := c.reframe l f y
        c.onFrame l fun g => c.flywheel l g

def execFrameConfirm (l : Lane) (s : State) : Out := s.on fun c => c.frameConfirm l

/-- The next resync is matched and places the next segment; a flywheel frame is refined once by the first (R218 to R220). -/
def Chip.matchResync (c : Chip) (l : Nat) : Chip := c.onFrame l fun f =>
  match f.y with
  | none => c
  | some y =>
    let starts := if f.flywheel ∧ f.starts = [] ∧ f.tag ≠ .none then [y.2 + 336] else f.starts
    if starts = [] ∨ 27 ≤ starts.length then c else
    let e := starts.getLastD 0 + 2048
    let p := l / 8
    match f.shiftAt e with
    | none =>
      ((c.inc (FRM_RESYNC_MISSED_COUNT p)).mark (FRM_EVENT_RESYNC_MISS p)).setFrame l (some { f with starts := starts ++ [e + 24] })
    | some d =>
      let c := if d = 0 then c else c.inc (FRM_RESYNC_SLIPS_COUNT p)
      if d ≠ 0 ∧ f.flywheel ∧ !f.refined ∧ starts.length = 1 then
        (c.inc (FRM_REFRAMES_COUNT p)).setFrame l
          (some { f with y := some (0, (512 + d).toNat), refined := true, tag := .none, starts := [] })
      else c.setFrame l (some { f with starts := starts ++ [((e : Int) + d).toNat + 24] })

def execResync (l : Lane) (s : State) : Out := s.on fun c => c.matchResync l

/-! ### The item to the decoder (R211, R220, R222, R224) -/

/-- LLRs of the codeword's data bits: tag field and segments demodulated as one stream, limited to ±15.5. -/
def FrameCur.dataLlr (f : FrameCur) : List Int :=
  let y := (f.y.map (·.2)).getD 512
  let chan := llrRun f.item.llr (y + 48) 288 ++ f.starts.flatMap (fun s => llrRun f.item.llr s 2048)
  ((softDemod chan).drop 192).map (limit (-31) 31)

/-- Items that wait for, or are in, the LDPC decoder's weir of two blocks (Table 1.2). -/
def FrmRec.room (f : FrmRec) : Bool := decide (f.toDecoder.length < 2)

/-- The framer commits its item. -/
def Chip.framerCommit (c : Chip) (l : Nat) : Chip := c.onFrame l fun f =>
  let p := l / 8
  if !(c.frm p).room then c else
  let give := fun (c : Chip) (llr : Option (List Int)) =>
    let it : DecItem :=
      { lane := l, report := f.item.report, flywheel := f.flywheel, reframed := f.reframed, address := f.item.report.mismatch,
        tag := if f.bare then .none else f.tag, home := if f.bare then f.item.report.pba else f.tagHome, tagFlags := f.tagFlags,
        tagBits := f.tagBits, starts := ((f.y.map (·.2)).getD 512) :: f.starts, iter := f.iter, iterMax := f.iterMax, llr := llr }
    let c := c.setFrame l none
    c.setFrm p { c.frm p with toDecoder := (c.frm p).toDecoder ++ [it] }
  if f.bare then give c none
  else if f.starts.length = 27 ∧ f.tag ≠ .none then
    let c := if f.tag = .corrected then c.inc (FRM_TAG_CORRECTED_COUNT p)
      else if f.tag = .failed then (c.inc (FRM_TAG_FAILED_COUNT p)).mark (FRM_EVENT_TAG_FAIL p) else c
    give c (some f.dataLlr)
  else c

def execFramerCommit (l : Lane) (s : State) : Out := s.on fun c => c.framerCommit l

/-! ### Layered offset min-sum (R225, R226) -/

/-- A list from its element `s` on, around. -/
def rotl (s : Nat) (v : List Int) : List Int := v.drop s ++ v.take s

/-- New messages of one check from its inputs: product of the other signs, least other size less one LSB. -/
def checkRow (q : List Int) : List Int :=
  (List.range q.length).map (fun j =>
    let others := (List.range q.length).filterMap (fun i => if i = j then none else some (q.getD i 0))
    let size := (others.foldl (fun m x => min m x.natAbs) 1000) - 1
    let neg := (others.filter (fun x => decide (x < 0))).length % 2 == 1
    let m : Int := ((min size 31 : Nat) : Int)
    if neg then -m else m)

/-- One layer: posteriors of the 36 groups and the layer's messages. -/
def ldpcLayer (i : Nat) (posts msgs : List (List Int)) : List (List Int) × List (List Int) :=
  let cols := (List.range 36).filterMap (fun j => (baseShift i j).map (fun s => (j, s)))
  let qs := cols.map (fun x => List.zipWith (· - ·) (rotl x.2 (posts.getD x.1 [])) (msgs.getD x.1 []))
  let rows := (List.range 1024).map (fun x => checkRow (qs.map (fun q => q.getD x 0)))
  (List.range cols.length).foldl (fun (r : List (List Int) × List (List Int)) t =>
    let j := (cols.getD t (0, 0)).1
    let s := (cols.getD t (0, 0)).2
    let new := rows.map (fun row => row.getD t 0)
    let post := (List.zipWith (· + ·) (qs.getD t []) new).map (limit (-127) 127)
    (r.1.set j (rotl (1024 - s) post), r.2.set j new)) (posts, msgs)

/-- Groups of the signs of posteriors. -/
def signGroups (posts : List (List Int)) : List Group := groupsOfBits 36 (posts.flatten.map (fun x => decide (x < 0)))

/-- A decoder: posteriors, messages of the four layers, whether it has converged. -/
abbrev LdpcSt := List (List Int) × List (List (List Int)) × Bool

/-- One layered iteration; it stops at the layer after which every check is satisfied. -/
def ldpcIter (st : LdpcSt) : LdpcSt :=
  (List.range 4).foldl (fun (st : LdpcSt) i =>
    if st.2.2 then st else
    let r := ldpcLayer i st.1 (st.2.1.getD i [])
    (r.1, st.2.1.set i r.2, ldpcUnsat (signGroups r.1) == 0)) st

/-- Iterations until convergence, the budget's end or a stall: state, iterations, unsatisfied checks. -/
def ldpcGo (stall : Nat) : Nat → Option Nat → Nat → Nat → LdpcSt → LdpcSt × Nat × Nat
  | 0, last, _, n, st => (st, n, last.getD (ldpcUnsat (signGroups st.1)))
  | k + 1, last, flat, n, st =>
    let st := ldpcIter st
    let u := ldpcUnsat (signGroups st.1)
    let flat := if last.any (fun x => decide (x ≤ u)) then flat + 1 else 0
    if st.2.2 ∨ (last.isSome ∧ stall ≤ flat) then (st, n + 1, u) else ldpcGo stall k (some u) flat (n + 1) st

/-- Groups of 1,024. -/
def groups1024 : Nat → List Int → List (List Int)
  | 0, _ => []
  | n + 1, v => v.take 1024 :: groups1024 n (v.drop 1024)

/-- A global iteration on channel LLRs: the bits where it converged, posteriors, iterations, unsatisfied checks. -/
def ldpcRun (budget stall : Nat) (llr : List Int) : Option (List Bool) × List Int × Nat × Nat :=
  let zero : List (List Int) := List.replicate 36 (List.replicate 1024 0)
  let r := ldpcGo stall budget none 0 0 (groups1024 36 llr, List.replicate 4 zero, false)
  let post := r.1.1.flatten
  (if r.1.2.2 then some (post.map (fun x => decide (x < 0))) else none, post, r.2.1, r.2.2)

end Sys2Proof.Machine
end

