-- ==== Sys2Proof/Machine/Outer.lean ====
section
/-! DEFINITION. From decoded blocks to outcomes: the LDPC decoder's rows (R226 to R229), cluster members and outer decoding (R230 to R235, R666),
block outcomes (R236 to R239), retry sequences (R240 to R248). -/

namespace Sys2Proof.Machine

/-! ### Members (R230, R236) -/

/-- Whether clusters are armed whole on an attempt (R240, R241). -/
def Chip.wholeArmed (c : Chip) (p attempt : Nat) : Bool :=
  decide (c.fld (FRM_RETRY_CFG_OUTER_FROM p) ≤ attempt) || (List.range 8).any (fun k => c.flag (RCH_CTRL_DEGRADED (8 * p + k)))

/-- Key of a cluster of a layer, and the place of a home PBA in its cluster (R100): index 8m + f. -/
def clusterKey (layer cluster : Nat) : Nat := layer * 244160 + cluster
def homeKey (home : Nat) : Nat := clusterKey (pbaLayer home) (slotCluster (pbaSlot home))
def homeIdx (home : Nat) : Nat := 8 * (slotInZone (pbaSlot home) % 8) + pbaFurrow home

/-- Home PBA of member `i` of a cluster. -/
def memberHome (side layer cluster i : Nat) : Nat := mkPba side layer (i % 8) (clusterSlot cluster + i / 8)

/-- The home PBA of the member that a slot holds: its own in cluster space, unless it is listed as relocated; the one it is assigned to in a
spare area (R107, R230). -/
def Chip.homeOf (c : Chip) (p pba : Nat) : Option Nat :=
  let slot := pbaSlot pba
  if isSpare slot then
    let l := (c.vol p).layer (pbaLayer pba)
    ((l.defects ++ l.unrecorded).find? (fun d => d.kind == 1 && d.repl == pba)).map (·.home)
  else if slot < 16384 ∨ (clusterM slot).isNone then none
  else match c.defectOf p pba with
    | some d => if d.kind = 1 then none else some pba
    | none => some pba

/-- The flags of Table 5.5 that an item brings. -/
def Chip.itemFlags (c : Chip) (p : Nat) (it : DecItem) (unconfirmed : Bool) (g : Nat) : Nat :=
  let r := it.report
  it.flywheel.toNat + 2 * it.reframed.toNat + 4 * (it.tag == .corrected).toNat + 8 * unconfirmed.toNat + 64 * (isSpare (pbaSlot r.pba)).toNat +
    128 * r.landing.toNat + 256 * r.factory.toNat + 512 * r.oneSided.toNat +
    1024 * (c.flag (RCH_CTRL_DEGRADED (8 * p + pbaFurrow r.pba))).toNat + 2048 * g

/-- What an item makes of the member with home PBA `home`; `conv` are the user bytes of a converged codeword. -/
def Chip.memberOf (c : Chip) (p : Nat) (it : DecItem) (home : Nat) (conv : Option (List Byte)) (iters g : Nat) : MemberRec :=
  let r := it.report
  let spare := isSpare (pbaSlot r.pba)
  let tagOk := (it.tag == .ok || it.tag == .corrected) && it.home == home
  let parity := homeIdx home / 8 == 7
  let unconfirmed := it.tag == .failed && !parity && !spare && decide (r.gaddr ≤ 1) && (c.defectOf p home).isNone
  let good := tagOk || unconfirmed
  let state : Member := match conv with
    | some bs => if good then .good bs else .erased
    | none => if r.blank && !parity && !r.degraded && (c.vol p).closed then .zero else .erased
  { state := state, known := true, flags := c.itemFlags p it (unconfirmed && conv.isSome) g, iters := iters, blank := r.blank && !r.degraded,
    degraded := r.degraded, home := home }

/-! ### Outcomes (R236 to R248) -/

def Chip.updRetry (c : Chip) (p : Nat) (f : Retry → Retry) : Chip :=
  let x := c.frm p
  c.setFrm p { x with retry := x.retry.map f }

/-- A request is told the outcomes of its blocks as blocks that it needs; a survey is decided by its own row. -/
def ReadReq.needs (r : ReadReq) (home : Nat) : Bool := r.left.contains home && r.kind != .survey

def Chip.needing (c : Chip) (p home : Nat) : List ReadReq := (c.frm p).reqs.filter (fun r => r.needs home)

/-- A block is in the retry sequence, and whether only to confirm that it is blank. -/
def Chip.inRetry (c : Chip) (p home : Nat) : Option Bool :=
  (c.frm p).retry.bind (fun r => (r.blocks.find? (fun b => b.1 == home)).map (·.2.2))

/-- A block leaves the sequence. -/
def Chip.leaveRetry (c : Chip) (p home : Nat) : Chip :=
  c.updRetry p fun r => { r with blocks := r.blocks.filter (fun b => b.1 != home), waiting := r.waiting.filter (· != home) }

/-- A block joins the sequence, which starts where there is none (R240, R248). -/
def Chip.joinRetry (c : Chip) (p home : Nat) (confirm : Bool) : Chip :=
  match (c.frm p).retry with
  | some r =>
    if r.blocks.any (fun b => b.1 == home) then c
    else c.updRetry p fun r => { r with blocks := r.blocks ++ [(home, r.attempt, confirm)] }
  | none =>
    let f := c.frm p
    (c.inc (FRM_RETRY_SEQ_COUNT p)).setFrm p
      { f with assembly := f.clusters,
               retry := some { attempt := 1, blocks := [(home, 1, confirm)], saved := (List.range 8).map (fun k => c.attemptFields (8 * p + k)) } }

/-- A block of a read-back reaches its accumulator, or ends it (R277). -/
def Chip.readBackEnd (c : Chip) (p home : Nat) (data : Option (List Byte)) : Chip :=
  if (c.needing p home).any (fun r => r.kind == .readBack) then
    let layer := pbaLayer home
    let cluster := slotCluster (pbaSlot home)
    match data with
    | some bs => c.accAdd (accKey p layer cluster) (homeIdx home) bs
    | none => c.accSkip p layer cluster
  else c

def Chip.logBlock (c : Chip) (p code home attempt : Nat) : Chip := c.log code .m (detBytes 5 home ++ [p, attempt])

/-- A late block is staged for relocation into a spare slot: whether it was (R246). -/
def Chip.rescue (c : Chip) (p home attempt : Nat) (data : List Byte) : Bool × Chip :=
  if !c.flag (FRM_CTRL_RESCUE_EN p) ∨ attempt < c.fld (FRM_RETRY_CFG_RESCUE_FROM p) ∨ !c.forWriting p ∨ (c.vol p).closed then
    (false, c)
  else match c.assignSpare p home with
    | (none, c) => (false, c.log 0x0303 .m (detBytes 5 home ++ [p]))
    | (some pba, c) =>
      let v := c.vol p
      let it : WriteItem := { slotPba := pba, homePba := home, flags := 2, gen := v.session, volumeId := v.volumeId, request := 0, user := data,
                              rescue := true }
      (true, (((c.addReloc p it).inc (FRM_RESCUED_COUNT p)).mark (FRM_EVENT_RESCUE p)))

/-- A block is delivered on the present attempt. -/
def Chip.deliver (c : Chip) (p : Nat) (m : MemberRec) (data : List Byte) : Chip :=
  let a := max 1 (c.frm p).attempt
  let late := decide (2 ≤ a)
  let listed := (c.defectOf p m.home).any (fun d => d.kind == 2)
  let r := if late then c.rescue p m.home a data else (false, c)
  let c := r.2.readBackEnd p m.home (some data)
  let flags := m.flags + 8192 * r.1.toNat
  let c := if late then ((c.inc (FRM_TRANSIENT_COUNT p)).mark (FRM_EVENT_TRANSIENT p)).logBlock p 0x0301 m.home a else c
  let outcome := if late then ouTransient else if flags / 8 % 8 ≠ 0 ∨ listed then ouRecovered else ouClean
  (c.blockOutcome p m.home outcome flags a m.iters data (fun r => r.needs m.home)).leaveRetry p m.home

/-- A block is UNREADABLE (R245); no entry is made where `blame` is false (R240). -/
def Chip.unreadable (c : Chip) (p home flags iters : Nat) (blame : Bool) : Chip :=
  let a := max 1 (c.frm p).attempt
  let c := (c.inc (FRM_LASTING_COUNT p)).mark (FRM_EVENT_LASTING p)
  let c := (c.setFld (FRM_LAST_FAIL_PBA_PBA p) home).setFld (FRM_LAST_FAIL_TIME_TIME p) c.now.toNat
  let c := c.logBlock p 0x0302 home a
  let c := if blame ∧ (c.defectOf p home).isNone then
      let full := c.listFull p (pbaLayer home)
      let c := c.putDefect p ⟨home, 2, 0, (c.vol p).session⟩
      if full then c.mark (FRM_EVENT_DL_NOT_RECORDED p) else c
    else c
  let c := c.readBackEnd p home none
  (c.blockOutcome p home ouUnreadable flags a iters [] (fun r => r.needs home)).leaveRetry p home

/-- A block is BLANK. -/
def Chip.blankOutcome (c : Chip) (p : Nat) (m : MemberRec) : Chip :=
  let c := (c.inc (FRM_BLANK_COUNT p)).readBackEnd p m.home none
  (c.blockOutcome p m.home ouBlank m.flags (max 1 (c.frm p).attempt) m.iters [] (fun r => r.needs m.home)).leaveRetry p m.home

/-- Read-ahead of a block that was not delivered ends on its only attempt. -/
def Chip.unretried (c : Chip) (p : Nat) (m : MemberRec) : Chip :=
  if (c.inRetry p m.home).isSome then c
  else c.blockOutcome p m.home ouUnretried m.flags 1 m.iters [] (fun r => r.kind == .readAhead && r.needs m.home)

/-- A data member is released with what the present attempt made of it (R234, R236, R240). -/
def Chip.release (c : Chip) (p : Nat) (m : MemberRec) : Chip :=
  if c.needing p m.home = [] then c else
  match m.state with
  | .good bs => c.deliver p m bs
  | _ =>
    let state := c.inRetry p m.home
    if m.blank then
      match state with
      | some true => c.blankOutcome p m
      | some false => c
      | none =>
        if !c.flag (FRM_RETRY_CFG_BLANK_CONFIRM p) then c.blankOutcome p m
        else
          let c := c.unretried p m
          if c.needing p m.home = [] then c else c.joinRetry p m.home true
    else
      match state with
      | some true =>
        c.updRetry p fun r => { r with blocks := r.blocks.map (fun b => if b.1 = m.home then (b.1, b.2.1, false) else b) }
      | some false => c
      | none =>
        let c := c.unretried p m
        if c.needing p m.home = [] then c
        else if (c.defectOf p m.home).any (fun d => d.kind == 2) ∧ (c.frm p).attempt ≤ 1 then c.unreadable p m.home m.flags m.iters true
        else if m.degraded then c
        else c.joinRetry p m.home false

/-- Blocks that only a degraded beam erased, after the rest of their cluster: they wait on a sequence of the cluster, or are UNREADABLE (R240). -/
def Chip.settleDegraded (c : Chip) (p : Nat) (m : MemberRec) : Chip :=
  let lost := match m.state with | .good _ => false | _ => true
  if !lost ∨ !m.degraded ∨ c.needing p m.home = [] then c else
  match (c.frm p).retry with
  | some r =>
    if r.blocks.any (fun b => homeKey b.1 == homeKey m.home) then
      if r.waiting.contains m.home then c else c.updRetry p fun r => { r with waiting := r.waiting ++ [m.home] }
    else if r.waiting.contains m.home then c else c.unreadable p m.home m.flags m.iters false
  | none => c.unreadable p m.home m.flags m.iters false

/-- Members are released in ascending data index. -/
def Chip.releaseAll (c : Chip) (p : Nat) (ms : List MemberRec) : Chip :=
  let c := ms.foldl (fun c m => c.release p m) c
  ms.foldl (fun c m => c.settleDegraded p m) c

/-- A sequence without blocks ends (R241); without requests and without a sequence no cluster is kept. -/
def Chip.settleRetry (c : Chip) (p : Nat) : Chip :=
  let c := match (c.frm p).retry with
    | some r =>
      if r.blocks = [] then
        let c := r.waiting.foldl (fun c h => c.unreadable p h 0 0 false) c
        c.dropRetry p
      else c
    | none => c
  let f := c.frm p
  if f.reqs = [] ∧ f.retry.isNone then c.setFrm p { f with clusters := [], assembly := [] } else c

/-! ### Clusters (R231 to R235) -/

def Cluster.get (k : Cluster) (i : Nat) : MemberRec := Cells.get (fun _ => {}) k.members i
def Cluster.put (k : Cluster) (i : Nat) (m : MemberRec) : Cluster := { k with members := Cells.put (fun _ => {}) k.members i m }

/-- A member that is GOOD in an assembly stays so, with its first bytes (R235). -/
def MemberRec.keep (old new : MemberRec) : MemberRec :=
  match old.known, old.state with
  | true, .good _ => old
  | _, _ => new

/-- A decoded item takes its place in its cluster; alone it is released at once unless clusters are armed whole (R234). -/
def Chip.placeMember (c : Chip) (p : Nat) (m : MemberRec) : Chip :=
  let f := c.frm p
  let a := max 1 f.attempt
  let whole := c.wholeArmed p a
  let key := homeKey m.home
  let i := homeIdx m.home
  let k : Cluster := Cells.get (fun _ => {}) f.clusters key
  let f := { f with clusters := Cells.put (fun _ => {}) f.clusters key { k.put i m with whole := whole } }
  let f := if f.retry.isNone then f else
    let z : Cluster := Cells.get (fun _ => {}) f.assembly key
    { f with assembly := Cells.put (fun _ => {}) f.assembly key { z.put i ((z.get i).keep m) with whole := whole } }
  let c := c.setFrm p f
  if whole ∨ 56 ≤ i then c else (c.releaseAll p [m]).settleRetry p

/-- The lanes, framers and decoder of a pickup have nothing in hand. -/
def Chip.readIdle (c : Chip) (p : Nat) : Bool :=
  let f := c.frm p
  (List.range 8).all (fun k => let x := c.lane (8 * p + k); !x.armed && x.cur.isNone && x.out.isNone && (c.frameOf (8 * p + k)).isNone) &&
    f.toDecoder.isEmpty && f.active.isNone && f.iterating.isEmpty

def MemberRec.isErased (m : MemberRec) : Bool :=
  match m.state with
  | .erased => true
  | _ => false

def MemberRec.isGood (m : MemberRec) : Bool :=
  match m.state with
  | .good _ => true
  | _ => false

/-- Members with what the outer code gives them, those it changed, and whether every column succeeded (R232). -/
def outerColumns (ms : List MemberRec) : Option (List (List Byte)) :=
  let bytes := ms.map (fun m => match m.state with | .good bs => bs | _ => [])
  let erased := (List.range 64).filter (fun i => (ms.getD i {}).isErased)
  let cols := (List.range 4096).map (fun j =>
    rsDecode gf256 8 (bytes.map (fun bs => (bs.getD j 0).toNat)) (erased.map (63 - ·)))
  if cols.all (·.isSome) then
    some ((List.range 64).map (fun i => cols.map (fun w => BitVec.ofNat 8 ((w.getD []).getD i 0))))
  else none

/-- What a successful outer decoding makes of member `i` (R233, R666). -/
def outerMember (m : MemberRec) (bs : List Byte) : MemberRec :=
  match m.state with
  | .erased => { m with state := .good bs, flags := m.flags ||| 16 }
  | .zero => if bs.all (· == 0) then m else { m with state := .good bs, flags := m.flags ||| 32, blank := false }
  | .good old => if old = bs then m else { m with state := .good bs, flags := m.flags ||| 32 }

/-- A correction fell on a member that was not erased. -/
def outerChanged (m : MemberRec) (bs : List Byte) : Bool :=
  match m.state with
  | .erased => false
  | .zero => !bs.all (· == 0)
  | .good old => old != bs

/-- The outer decoder runs on a cluster whose members are known, and decides its outcome. -/
def Chip.outerDecode (c : Chip) (p layer cluster : Nat) : Chip :=
  let key := clusterKey layer cluster
  let f := c.frm p
  let held := f.retry.isSome && (f.assembly.any (fun x => x.1 == key))
  let k : Cluster := Cells.get (fun _ => {}) (if held then f.assembly else f.clusters) key
  let side := (c.vol p).side
  let ms := (List.range 64).map (fun i => { k.get i with home := memberHome side layer cluster i })
  let erasedN := (ms.filter MemberRec.isErased).length
  let parity := (ms.drop 56).all (fun m => !m.blank)
  let runs := parity && (decide (0 < erasedN) || c.flag (FRM_CTRL_OUTER_CHECK p))
  let out := if runs then outerColumns ms else none
  let c := if runs then c.inc (FRM_OUTER_RUNS_COUNT p) else c
  let c := match out with
    | some bss =>
      let n := ((List.range 64).filter (fun i => outerChanged (ms.getD i {}) (bss.getD i []))).length
      let rec_ := ((ms.take 56).filter MemberRec.isErased).length
      let c := c.add (FRM_OUTER_RECOVERED_COUNT p) rec_
      if 0 < n then (c.add (FRM_MISCORRECT_COUNT p) n).mark (FRM_EVENT_MISCORRECT p) else c
    | none => if runs then (c.inc (FRM_OUTER_FAILED_COUNT p)).mark (FRM_EVENT_OUTER_FAIL p) else c
  let ms := match out with
    | some bss => (List.range 64).map (fun i => outerMember (ms.getD i {}) (bss.getD i []))
    | none => ms
  let f := c.frm p
  let c := if held then
      let z : Cluster := { k with members := (List.range 64).foldl (fun a i =>
        if (ms.getD i {}).isGood then Cells.put (fun _ => {}) a i { ms.getD i {} with known := true } else a) k.members }
      c.setFrm p { f with assembly := Cells.put (fun _ => {}) f.assembly key z, clusters := Cells.put (fun _ => {}) f.clusters key {} }
    else c.setFrm p { f with clusters := Cells.put (fun _ => {}) f.clusters key { k with whole := false } }
  (c.releaseAll p (ms.take 56)).settleRetry p

/-- Whether a cluster can be decoded: armed whole, or every member known; and all of it read (R231). -/
def Chip.outerReady (c : Chip) (p layer cluster : Nat) : Bool :=
  let f := c.frm p
  let key := clusterKey layer cluster
  let held := f.retry.isSome && (f.assembly.any (fun x => x.1 == key))
  let k : Cluster := Cells.get (fun _ => {}) (if held then f.assembly else f.clusters) key
  let all := (List.range 64).all (fun i => (k.get i).known)
  (k.whole && (all || c.readIdle p)) || (held && all && c.readIdle p)

def execOuterDecode (p : Pickup) (layer : Fin 10) (cluster : Nat) (s : State) : Out :=
  s.onIf (decide (cluster < 244160)) fun c => c.when (c.outerReady p layer cluster) fun c => c.outerDecode p layer cluster

/-! ### The LDPC decoder (R226 to R229) -/

/-- A block is finished: counted, its samples released, its member placed; a block outside every cluster goes no further. -/
def Chip.blockDone (c : Chip) (p : Nat) (it : DecItem) (bits : Option (List Bool)) (iters g : Nat) : Chip :=
  let c := if it.llr.isNone then c else
    let c := c.add (FRM_LDPC_ITERS_COUNT p) iters
    if bits.isSome then c.inc (FRM_LDPC_OK_COUNT p) else (c.inc (FRM_LDPC_FAIL_COUNT p)).mark (FRM_EVENT_LDPC_FAIL p)
  let c := if bits.isSome ∧ g = 1 then c.learn it.lane it.report.pba else c
  let c := c.updLane it.lane fun x => { x with store := x.store.filter (fun s => s.pba != it.report.pba) }
  if it.address then c else
  match c.homeOf p it.report.pba with
  | none => c
  | some home =>
    let own := homeIdx home / 8 == 7
    let seed := if own then it.report.pba else if it.tag = .ok ∨ it.tag = .corrected then it.home else it.report.pba
    c.placeMember p (c.memberOf p it home (bits.map (fun b => blockUserBytes seed b)) iters g)

/-- The decoder takes the next block: LLRs that came back, a block whose samples are lost, then the oldest item (R228). -/
def Chip.ldpcStart (c : Chip) (p : Nat) : Chip :=
  let f := c.frm p
  match f.iterating.find? (fun b => b.back || b.lost) with
  | some b =>
    let f := { f with iterating := f.iterating.erase b }
    if b.back then c.setFrm p { f with active := some { b with back := false } }
    else (c.setFrm p f).blockDone p b.item none b.iters (b.g - 1)
  | none =>
    match f.toDecoder with
    | [] => c
    | it :: rest =>
      let c := c.setFrm p { f with toDecoder := rest }
      match it.llr with
      | none => c.blockDone p it none 0 0
      | some llr => c.setFrm p { c.frm p with active := some { item := it, input := llr } }

def execLdpcDecodeStart (p : Pickup) (s : State) : Out := s.on fun c => c.when (c.frm p).active.isNone fun c => c.ldpcStart p

/-- Budget of global iteration `g` (R226). -/
def iterBudget (cfg : Word) (g iters : Nat) : Nat := min (fieldOf cfg (5 * (g - 1)) 5) (20 - iters)

/-- A global iteration ends: converged, another one asked for, or FAILED. -/
def Chip.ldpcDone (c : Chip) (p : Nat) (b : LdpcBlk) : Chip :=
  let it := b.item
  let r := ldpcRun (iterBudget it.iter b.g b.iters) (fieldOf it.iter 28 3) b.input
  let iters := b.iters + r.2.2.1
  let c := c.setFrm p { c.frm p with active := none }
  if r.1.isSome then c.blockDone p it r.1 iters b.g
  else if b.g < it.iterMax ∧ r.2.2.2 ≤ fieldOf it.iter 16 12 ∧ iters < 20 then
    if (c.lane it.lane).store.any (fun s => s.pba == it.report.pba) then
      let f := c.frm p
      let next := { b with g := b.g + 1, iters := iters, extrinsic := List.zipWith (· - ·) r.2.1 b.input }
      c.setFrm p { f with iterating := f.iterating ++ [next] }
    else ((c.inc (RCH_ITER_LOST_COUNT it.lane)).mark (RCH_EVENT_ITER_LOST it.lane)).blockDone p it none iters b.g
  else c.blockDone p it none iters b.g

def execLdpcDecodeDone (p : Pickup) (s : State) : Out := s.on fun c =>
  match (c.frm p).active with
  | none => c
  | some b => c.ldpcDone p b

/-- Channel-bit a priori values of a block: its extrinsic LLRs and its tag's bits placed where the frame has them, 0 elsewhere (R185). -/
def aprioriOf (b : LdpcBlk) : List Int :=
  let tag := if b.item.tagBits = [] then List.replicate 192 0 else b.item.tagBits.map (fun t => if t then (-31 : Int) else 31)
  let chan := (softRemod (tag ++ b.extrinsic)).map (limit (-31) 31)
  let y := b.item.starts.headD 512
  let segs := b.item.starts.drop 1
  (List.range 57344).map (fun n =>
    if y + 48 ≤ n ∧ n < y + 336 then chan.getD (n - (y + 48)) 0
    else match (List.range segs.length).find? (fun s => decide (segs.getD s 0 ≤ n) && decide (n < segs.getD s 0 + 2048)) with
      | some s => chan.getD (288 + 2048 * s + (n - segs.getD s 0)) 0
      | none => 0)

/-- The iteration detector of lane `l` returns its LLRs for the block that has waited longest (R185). -/
def Chip.iterationDone (c : Chip) (l : Nat) : Chip :=
  let p := l / 8
  let f := c.frm p
  match f.iterating.find? (fun b => b.item.lane == l && !b.back && !b.lost) with
  | none => c
  | some b =>
    match (c.lane l).store.find? (fun s => s.pba == b.item.report.pba) with
    | none => c
    | some s =>
      let llr := c.redetect l s (aprioriOf b)
      let y := b.item.starts.headD 512
      let chan := llrRun llr (y + 48) 288 ++ (b.item.starts.drop 1).flatMap (fun a => llrRun llr a 2048)
      let input := ((softDemod chan).drop 192).map (limit (-31) 31)
      let c := c.inc (if b.g = 2 then RCH_ITER2_COUNT l else RCH_ITER3_COUNT l)
      c.setFrm p { f with iterating := f.iterating.map (fun x => if x = b then { x with input := input, back := true } else x) }

def execIterationDetectDone (l : Lane) (s : State) : Out := s.on fun c => c.iterationDone l

/-! ### Attempts (R241 to R248) -/

/-- The fields of attempt `a` (Table 5.6), from those before the sequence. -/
def attemptSet (a : Nat) (old : List Nat) : List Nat :=
  if attemptRow a = 3 then [3, 0, 57344, 1] else [3, 0, old.getD 2 0, old.getD 3 0]

/-- RETRY A that an attempt asks of the loop pair (R353). -/
def attemptStep (a : Nat) : Nat := if attemptRow a = 6 then 1 else if attemptRow a = 7 then 2 else if attemptRow a = 8 then 3 else 0

/-- Every request that needs a block has been aborted. -/
def Chip.allAborted (c : Chip) (p home : Nat) : Bool := (c.needing p home).all (·.aborted)

/-- The next attempt of the sequence begins, or the sequence ends. -/
def Chip.retryAttempt (c : Chip) (p : Nat) (r : Retry) : Chip :=
  let gone := (r.blocks.map (·.1) ++ r.waiting).filter (fun h => c.allAborted p h)
  let c := gone.foldl (fun c h =>
    (c.blockOutcome p h ouAbandoned 0 (max 1 r.attempt) 0 [] (fun q => q.needs h)).leaveRetry p h) c
  match (c.frm p).retry with
  | none => c
  | some r =>
    if r.blocks = [] then c.settleRetry p
    else if c.fld (FRM_RETRY_CFG_RETRY_MAX p) ≤ r.attempt then
      let c := r.blocks.foldl (fun c b => c.unreadable p b.1 0 0 true) c
      c.settleRetry p
    else
      let a := r.attempt + 1
      let c := c.inc (FRM_ATTEMPTS_COUNT p)
      let c := (List.range 8).foldl (fun c k =>
        let l := 8 * p + k
        (c.setAttemptFields l (attemptSet a (r.saved.getD k []))).updLane l fun x => { x with landNext := true, seeds := attemptRow a == 5 }) c
      let was := if r.attempt < 2 then 0 else attemptStep r.attempt
      let c := if was ≠ attemptStep a then c.pushCmd p (BitVec.ofNat 32 (0x08 + 256 * attemptStep a)) 0 else c
      c.setFrm p { c.frm p with attempt := a, retry := some { r with attempt := a }, clusters := [] }

def execRetryAttempt (p : Pickup) (s : State) : Out := s.on fun c =>
  match (c.frm p).retry with
  | none => c
  | some r => c.when (c.readIdle p && c.mounted p && c.afe.resumed) fun c => c.retryAttempt p r

end Sys2Proof.Machine
end

