-- ==== Sys2Proof/Machine/Pulses.lean ====
section
/-! DEFINITION. What a write channel lays down and how it judges it: write strategy (R262 to R264), symbols of the write-pulse lane (R259), the
comparison of verify (R270), the content of a management record (Tables 2.13 to 2.15). -/

namespace Sys2Proof.Machine

/-! ### Levels and marks (R257) -/

/-- NRZ levels of channel bits, starting from space: true is mark. -/
def nrzGo : Bool → List Bool → List Bool
  | _, [] => []
  | l, b :: bs => (l ^^ b) :: nrzGo (l ^^ b) bs

def nrz (bits : List Bool) : List Bool := nrzGo false bits

/-- Maximal runs of marks: start and length. -/
def marksGo : Nat → Option Nat → List Bool → List (Nat × Nat)
  | i, some a, [] => [(a, i - a)]
  | _, none, [] => []
  | i, some a, false :: t => (a, i - a) :: marksGo (i + 1) none t
  | i, none, true :: t => marksGo (i + 1) (some i) t
  | i, s, _ :: t => marksGo (i + 1) s t

def marks (levels : List Bool) : List (Nat × Nat) := marksGo 0 none levels

/-! ### Strategy: the nine words are WCH_STRAT2 to WCH_STRAT9 and WCH_STRAT_MP -/

def firstStart (s : List Word) (n : Nat) : Int := signedOf 4 (fieldOf (s.getD (n - 2) 0) 0 4)
def firstWidth (s : List Word) (n : Nat) : Int := fieldOf (s.getD (n - 2) 0) 4 5
def mpStart (s : List Word) : Int := fieldOf (s.getD 8 0) 0 3
def mpWidth (s : List Word) : Int := fieldOf (s.getD 8 0) 4 3
def coolEn (s : List Word) : Bool := (s.getD 8 0).getLsbD 8
def biasEn (s : List Word) : Bool := (s.getD 8 0).getLsbD 9

/-- A strategy set is valid (R264). -/
def stratValid (s : List Word) : Bool :=
  (List.range 8).all (fun i =>
    let n := i + 2
    decide (2 ≤ firstWidth s n ∧ firstStart s n + firstWidth s n ≤ 8 * n) &&
      (n == 2 || decide (firstStart s n + firstWidth s n ≤ 8 + mpStart s))) &&
  decide (mpStart s + mpWidth s ≤ 8)

/-- Pulses of a mark of `n` bits from channel bit `a`: first position and end, in eighths of a channel bit (R262). -/
def markPulses (s : List Word) (a n : Nat) : List (Int × Int) :=
  let o : Int := 8 * a
  (o + firstStart s n, o + firstStart s n + firstWidth s n) ::
    (List.range (n - 2)).map (fun (i : Nat) => (o + 8 * (i + 1) + mpStart s, o + 8 * (i + 1) + mpStart s + mpWidth s))

/-- The byte of a D symbol for channel bit `k`: pulse bit j is byte bit 7 − j (R259). -/
def pulseByte (ps : List (Int × Int)) (k : Nat) : Nat :=
  (List.range 8).foldl (fun b (j : Nat) =>
    2 * b + (ps.any (fun q => decide (q.1 ≤ 8 * k + j) && decide (8 * k + j < q.2))).toNat) 0

/-- Control symbols K28.0, K28.4 and K28.5, with bit 8 set. -/
def symBias : BitVec 9 := 0x11C
def symCool : BitVec 9 := 0x19C
def symIdle : BitVec 9 := 0x1BC

/-- The symbols of a slot (R263): `levels` of its bits, and whether the next slot is recorded in the same pass, whose first mark is then known to
begin at its offset 0 after `next` bits of that mark. -/
def slotSymbols (s : List Word) (levels : List Bool) (next : Option Nat) : List (BitVec 9) :=
  let ps := (marks levels).flatMap (fun m => markPulses s m.1 m.2) ++
    (match next with
     | some n => markPulses s levels.length n
     | none => [])
  (List.range levels.length).map (fun (k : Nat) =>
    let b := pulseByte (ps.filter (fun q => decide (q.1 < 8 * (k : Int) + 8) && decide (8 * (k : Int) < q.2))) k
    if b ≠ 0 then BitVec.ofNat 9 b
    else if levels.getD k false then 0
    else
      let first := k = 0 ∨ levels.getD (k - 1) false
      if first ∧ coolEn s then symCool else if ¬first ∧ biasEn s then symBias else 0)

/-! ### Verify (R270) -/

/-- Decision at slot offset `n` from −4 on. -/
def decAt (dec : List Bool) (n : Int) : Bool := dec.getD (n + 4).toNat false

/-- Distance of the decisions at shift `e` from pattern S, whose ones are changes of level. -/
def syncDist (dec : List Bool) (e : Int) : Nat :=
  ((List.range 48).filter (fun (i : Nat) =>
    (decAt dec (512 + e + i) ^^ decAt dec (511 + e + i)) != syncS.getD i false)).length

/-- The shift of the sync mark and its distance: the smallest distance, of equals the smallest |e|, then the negative one. -/
def syncShift (dec : List Bool) : Int × Nat :=
  ([0, -1, 1, -2, 2, -3, 3, -4, 4] : List Int).foldl
    (fun b e => if syncDist dec e < b.2 then (e, syncDist dec e) else b) (0, 49)

/-- Mismatches over the tag field and each segment, at a shift. -/
def mismatches (dec levels : List Bool) (e : Int) : List Nat :=
  let diff := fun (a n : Nat) => ((List.range n).filter (fun (i : Nat) => decAt dec ((a : Int) + i + e) != levels.getD (a + i) false)).length
  diff 560 288 :: (List.range 27).map (fun s => diff (848 + 2072 * s) 2048)

/-! ### Management records (R109 to R111) -/

/-- Bytes 0 to 1,055 of the header (Table 2.14). -/
def mgmtHeader (volumeId side layer gen session : Nat) (closed dlFull ztValid : Bool) (count : Nat) (fills : List Nat) : List Byte :=
  "KADMGMT1".toList.map (fun ch => BitVec.ofNat 8 ch.toNat) ++ leBytes 2 0x0100 ++ leBytes 6 volumeId ++ leBytes 1 side ++ leBytes 1 layer ++
    leBytes 4 gen ++ leBytes 2 session ++ leBytes 4 (closed.toNat + 2 * dlFull.toNat + 4 * ztValid.toNat) ++ leBytes 4 count ++
    fills.flatMap (leBytes 2)

/-- A defect-list entry (Table 2.15). -/
def defectBytes (d : Defect) : List Byte :=
  leBytes 5 d.home ++ leBytes 1 d.kind ++ leBytes 5 d.repl ++ leBytes 2 d.session ++ leBytes 3 0

/-- A list of bytes filled with zeros, or cut, to `n`. -/
def padTo (n : Nat) (bs : List Byte) : List Byte := bs.take n ++ List.replicate (n - bs.length) 0

/-- The 56 data blocks of a record: header, zone table, defect list, commit block (Table 2.13). -/
def mgmtBlocks (header : List Byte) (zones : List Byte) (defects : List Defect) : List (List Byte) :=
  let cut := fun (n : Nat) (bs : List Byte) => (List.range n).map (fun i => (bs.drop (4096 * i)).take 4096)
  let body := cut 8 (padTo (8 * 4096) zones) ++ cut 46 (padTo (46 * 4096) (defects.flatMap defectBytes))
  let head := header ++ leBytes 4 (crc32 (header ++ body.flatten)).toNat
  [padTo 4096 head] ++ body ++ [padTo 4096 head]

end Sys2Proof.Machine
end

