-- ==== Sys2Proof/Machine/Volume.lean ====
section
/-! DEFINITION. Management updates (R287), and how UNMOUNT, CLOSE_VOLUME and FLUSH go on as their volume's blocks become durable (R275, R288,
R364, R488). -/

namespace Sys2Proof.Machine

/-- The command that a volume's UNMOUNT or CLOSE_VOLUME is, once it has started and while it drains or updates. -/
def Chip.endingCmd (c : Chip) (p op : Nat) : Option Cmd :=
  c.host.cmds.find? (fun m => m.volume == p && m.opcode == op && m.started && m.status.isNone && m.wait == .drain)

/-- A CLOSE_VOLUME of the volume runs: partial clusters get their parity (R103). -/
def Chip.closing (c : Chip) (p : Nat) : Bool := (c.endingCmd p opClose).isSome

/-- Entries of the volume that its write channel has still to make durable, or that only a report ends. -/
def Chip.toRecord (c : Chip) (p : Nat) : List Staged :=
  (c.stagedOf (c.discOf p)).filter (fun e => e.state != 4 && !c.heldUp p)

/-- Held blocks of the volume are reported and released (R275, R286): whether there were any. -/
def Chip.reportHeld (c : Chip) (p : Nat) : Bool × Chip :=
  let es := c.stagedOf (c.discOf p)
  (!es.isEmpty, (es.foldl (fun c e => c.dropStaged e.seq) c).settleFlushes)

/-! ### The update (R109 to R116, R287) -/

/-- The copy that a generation is written to, and the positions used of it (R114). -/
def LayerRec.due (l : LayerRec) : Nat × Nat := if (l.gen + 1) % 2 = 0 then (0, l.usedA) else (1, l.usedB)

/-- The zone table of a layer; without a valid recorded one, factory seeds stand where nothing has been learned. -/
def Chip.zoneTable (c : Chip) (p layer : Nat) (valid : Bool) : List Byte :=
  (List.range 512).flatMap fun i =>
    let bs := c.bytes (zoneAddr p layer 0 0 + 64 * i) 64
    if valid || (entryOf bs).learned then bs else factoryEntry.bytes

/-- The record's 64 items in the order of the 15 passes: data on furrows 0 to 7, with furrow 7's parity, then parity on furrows 0 to 6. -/
def Chip.recordItems (c : Chip) (p layer : Nat) (closing : Bool) : List WriteItem :=
  let v := c.vol p
  let l := v.layer layer
  let d := l.due
  let fills := (List.range 512).map (fun i => Cells.get (fun _ => 0) l.fills i)
  let header := mgmtHeader v.volumeId v.side layer (l.gen + 1) v.session (closing && layer == 0) l.dlFull (l.ztValid || l.learned) l.defects.length fills
  let data := mgmtBlocks header (c.zoneTable p layer l.ztValid) l.defects
  let parity := outerParity data
  let slot := 8192 * d.1 + 8 * d.2
  let item := fun (f m : Nat) (flags : Nat) (bs : List Byte) =>
    let pba := mkPba v.side layer f (slot + m)
    ({ slotPba := pba, homePba := pba, flags := flags, gen := v.session, volumeId := v.volumeId, request := 0, user := bs } : WriteItem)
  let row := fun f => (List.range 7).map (fun m => item f m 4 (data.getD (8 * m + f) []))
  let par := fun f => item f 7 5 (parity.getD f [])
  (List.range 8).flatMap row ++ [par 7] ++ (List.range 7).map par

/-- The update ends: its commands go on. -/
def Chip.mgmtEnd (c : Chip) (p : Nat) (ok : Bool) : Chip :=
  match (c.vol p).mgmt with
  | none => c
  | some u =>
    let c := c.setVol p { c.vol p with mgmt := none, closed := (c.vol p).closed || (ok && u.closing) }
    let c := if ok then c else (c.log 0x0405 .m ([p, u.layers.headD 0] ++ detBytes 4 (((c.vol p).layer (u.layers.headD 0)).gen + 1))).mark (WCH_EVENT_MGMT_FAIL p)
    u.uids.foldl (fun c x => c.updCmd x fun m => { m with ended := some (if ok then stOk else stMediaFault) }) c

/-- Write the record of the first layer that is due, skipping layers whose copy is full; `n` bounds them. -/
def Chip.mgmtNext (c : Chip) (p : Nat) : Nat → Chip
  | 0 => c
  | n + 1 =>
    match (c.vol p).mgmt with
    | none => c
    | some u =>
      match u.layers with
      | [] => c.mgmtEnd p true
      | layer :: rest =>
        if c.writeDegraded p then c.mgmtEnd p false
        else if 1024 ≤ ((c.vol p).layer layer).due.2 then
          if layer = 0 then c.mgmtEnd p false
          else
            let c := c.updLayer p layer fun l => { l with readOnly := true }
            Chip.mgmtNext (c.setVol p { c.vol p with mgmt := some { u with layers := rest, fails := 0 } }) p n
        else
          let w := c.wch p
          let c := c.setWch p { w with items := w.items ++ c.recordItems p layer u.closing }
          c.setVol p { c.vol p with mgmt := some { u with left := 64, bad := false } }

/-- A command asks for an update of volume `p`; one that runs is shared unless it is to close the volume. -/
def Chip.startUpdate (c : Chip) (p uid : Nat) (closing : Bool) : Chip :=
  match (c.vol p).mgmt with
  | some u => c.setVol p { c.vol p with mgmt := some { u with uids := u.uids ++ [uid] } }
  | none =>
    let v := c.vol p
    let due := (List.range 9).map (· + 1) |>.filter (fun l => (v.layer l).dirty && (v.layer l).valid && !(v.layer l).readOnly)
    (c.setVol p { v with mgmt := some { layers := due ++ [0], uids := [uid], closing := closing } }).mgmtNext p 11

/-- Items of a management record that are still to be recorded or judged. -/
def WchRec.mgmtOpen (w : WchRec) : Bool :=
  w.items.any (·.flags.testBit 2) || w.results.any (·.item.flags.testBit 2) || w.cur.any (·.flags.testBit 2)

/-- A position of the copy is used. -/
def Chip.usePosition (c : Chip) (p layer : Nat) (ok : Bool) : Chip :=
  c.updLayer p layer fun l =>
    let l := if (l.gen + 1) % 2 = 0 then { l with usedA := l.usedA + 1 } else { l with usedB := l.usedB + 1 }
    let full := decide (1024 ≤ if l.gen % 2 = 1 then l.usedB else l.usedA)
    if ok then { l with gen := l.gen + 1, session := (c.vol p).session, ztValid := l.ztValid || l.learned, dirty := false, readOnly := l.readOnly || full } else l

/-- The position of the record in hand is finished: the next layer, the next position, or the failure of the update. -/
def Chip.mgmtPosition (c : Chip) (p : Nat) : Chip :=
  match (c.vol p).mgmt with
  | none => c
  | some u =>
    let layer := u.layers.headD 0
    let c := c.usePosition p layer (!u.bad)
    if !u.bad then
      (c.setVol p { c.vol p with mgmt := some { u with layers := u.layers.drop 1, fails := 0 } }).mgmtNext p 11
    else if 3 ≤ u.fails + 1 then c.mgmtEnd p false
    else (c.setVol p { c.vol p with mgmt := some { u with fails := u.fails + 1 } }).mgmtNext p 11

/-- The verify result of a record block; a failure abandons the position: its blocks not yet recorded are dropped. -/
def Chip.mgmtResult (c : Chip) (p : Nat) (ok : Bool) : Chip :=
  match (c.vol p).mgmt with
  | none => c
  | some u =>
    let c := c.setVol p { c.vol p with mgmt := some { u with left := u.left - 1, bad := u.bad || !ok } }
    let w := c.wch p
    let c := if ok then c else
      c.setWch p { w with items := w.items.filter (fun i => !i.flags.testBit 2), stopAsked := w.stopAsked || w.pass.isSome }
    if (c.wch p).mgmtOpen then c else c.mgmtPosition p

/-! ### UNMOUNT, CLOSE_VOLUME, FLUSH -/

/-- Commands on the volume that the Sluice took before `m` and that are outstanding (R487). -/
def Chip.earlierOn (c : Chip) (m : Cmd) : Bool :=
  c.host.cmds.any (fun x => decide (x.uid < m.uid) && x.volume == m.volume && namesVolume x.opcode)

/-- The volume leaves after its update: RETRACT 0 while the other volume of the station stays, or a park of the station (R364). -/
def Chip.leaveVolume (c : Chip) (p : Nat) (m : Cmd) (status : Nat) : Chip :=
  let s := p / 2
  let other := if p % 2 = 0 then p + 1 else p - 1
  let held := c.reportHeld p
  let status := if status = stOk ∧ held.1 then stMediaFault else status
  let c := held.2.updCmd m.uid fun x => { x with wait := .station, ended := some status }
  if c.volState other ≠ vNotMounted then
    let k := c.cal p
    let c := match k.acqBy with
      | some uid => (c.setCal p { k with acqBy := none, asked := [] }).finish uid stOk 0 3 0
      | none => c
    ((c.abandonCal p false).dropVolume p).loopCmd p 0x07 0
  else
    let c := c.setStn s { c.stn s with waiters := (c.stn s).waiters ++ [m.uid] }
    c.park s cauUnmount

/-- UNMOUNT goes on (R275, R364): after the commands it waits for, a volume that is mounted becomes UNMOUNTING, and one that is not ends it
(R357). -/
def Chip.unmountStep (c : Chip) (p : Nat) (m : Cmd) : Chip :=
  if c.earlierOn m then c
  else if !(c.mounted p || c.volState p == vUnmounting) then
    c.finishS m.uid (if c.stState (p / 2) = sFault then stStationFault else stNotMounted)
  else
  let c := if c.mounted p then c.setVolState p vUnmounting else c
  match m.ended with
  | some status => c.leaveVolume p m status
  | none =>
    if !(c.vol p).writing then c.leaveVolume p m stOk
    else if c.toRecord p ≠ [] ∨ (c.vol p).mgmt.any (fun u => u.uids.contains m.uid) then c
    else
      let c := c.startUpdate p m.uid false
      match (c.cmd m.uid).bind (·.ended) with
      | some status => c.leaveVolume p m status
      | none => c

/-- An accumulator of the volume whose parity is still to be recorded. -/
def Chip.parityLeft (c : Chip) (p : Nat) : Bool :=
  c.path.accs.any (fun k => k.1 / 2 ^ 24 == p && k.2.live && !k.2.skipped)

/-- CLOSE_VOLUME goes on (R275, R288). -/
def Chip.closeStep (c : Chip) (p : Nat) (m : Cmd) : Chip :=
  let finish := fun (c : Chip) status =>
    let held := c.reportHeld p
    held.2.finishS m.uid (if held.1 then stMediaFault else status)
  match m.ended with
  | some status => finish c status
  | none =>
    if c.toRecord p ≠ [] ∨ (c.vol p).mgmt.isSome then c
    else if c.stagedOf (c.discOf p) ≠ [] then finish c stMediaFault
    else if c.parityLeft p ∧ !c.writeDegraded p then c
    else
      let c := c.startUpdate p m.uid true
      match (c.cmd m.uid).bind (·.ended) with
      | some status => finish c status
      | none => c

/-- What waits for volume `p` goes on. -/
def Chip.volStep (c : Chip) (p : Nat) : Chip :=
  let c := (c.host.cmds.filter (fun m => m.volume == p && m.opcode == opFlush && m.started && m.wait == .drain && m.ended.isSome)).foldl
    (fun c m => c.updCmd m.uid fun x => { x with wait := .none }) c
  let c := c.settleFlushes
  let c := match c.endingCmd p opClose with
    | some m => c.closeStep p m
    | none => c
  let c := match c.endingCmd p opUnmount with
    | some m => c.unmountStep p m
    | none => c
  if (c.vol p).ever then c.journalSettle (c.discOf p) else c

end Sys2Proof.Machine
end

