-- ==== Sys2Proof/Machine/Recording.lean ====
section
/-! DEFINITION. Write channels: queueing and starting a pass (R265, R514), recording its slots (R257 to R263), its ends (R267, R268), verify (R270,
R271), relocation (R272 to R276), power calibration (R285, R286), the check after an off-track stop (R269). -/

namespace Sys2Proof.Machine

/-! ### Queueing a pass (R265, R284, R514, R585) -/

/-- The strategy registers of a write channel. -/
def Chip.stratOf (c : Chip) (p : Nat) : List Word := (List.range 8).map (fun i => c.reg (WCH_STRAT p i)) ++ [c.reg (WCH_STRAT_MP p)]

/-- 2^19 × (1 + WTC × (T − 40 °C)), or 2^19 while compensation is off (R585). -/
def Chip.powerFactor (c : Chip) (p : Nat) : Int :=
  if c.flag CAL_CTRL_WPOW_TC_EN then 524288 + c.int (CAL_WPOW_TC_TC p) * ((c.fld (CAL_TH_TEMP_TEMP p) : Int) - 832) else 524288

/-- The power entry of a zone, or the seeds of its layer (R284). -/
def Chip.powerOf (c : Chip) (p layer zone : Nat) : PowerEntry :=
  (c.power (powerKey p layer zone)).getD
    { peak := c.fld (WCH_SEED_PB_PEAK p layer), bias := c.fld (WCH_SEED_PB_BIAS p layer), cool := c.fld (WCH_SEED_C_COOL p layer) }

/-- Write a level register; frames sent since are counted anew where it changes (R148). -/
def Chip.setLevel (c : Chip) (p which v : Nat) : Chip :=
  let f := if which = 0 then WCH_LEVEL_PB_PEAK p else if which = 1 then WCH_LEVEL_PB_BIAS p else WCH_LEVEL_C_COOL p
  if c.fld f = v then c else
  let w := c.wch p
  let w := if which = 0 then { w with framesP := 0 } else if which = 1 then { w with framesB := 0 } else { w with framesC := 0 }
  (c.setFld f v).setWch p w

/-- A pass waits for its first slot: levels are written, WRITE_EN is to be sent, the pickup moves to the furrow (R284, R348). -/
def Chip.queuePass (c : Chip) (p : Nat) (a : Pass) : Chip :=
  let zone := entryZone a.s1
  let e := c.powerOf p a.layer zone
  let k := c.powerFactor p
  let lev := fun (x : Nat) => (limit 0 65535 (rndDiv (x * k) 524288)).toNat
  let c := (c.setPower (powerKey p a.layer zone) (some e)).setWch p
    { c.wch p with queued := some { a with levels := [lev e.peak, lev e.bias, lev e.cool] }, framesE := 0, factor := k.toNat }
  let c := ((c.setLevel p 0 (lev e.peak)).setLevel p 1 (lev e.bias)).setLevel p 2 (lev e.cool)
  if a.furrow = 0 then c else (c.loopCmd p 0x04 a.furrow).setSeqr p { c.seqr p with offset := a.furrow }

/-- Slots that one pass may span: within a zone, or within one record position. -/
def passRange (s1 s2 : Nat) : Bool :=
  decide (s1 ≤ s2) && ((slotZone s1).isSome && slotZone s1 == slotZone s2 || decide (s2 < 16384) && s1 / 8 == s2 / 8)

/-- Passes may be queued (R514). -/
def Chip.passEnabled (c : Chip) (p : Nat) : Bool := c.flag (WCH_CTRL_EN p) && !c.flag (WCH_CTRL_DEGRADED p) && stratValid (c.stratOf p)

/-- FPASS (R514): which result several that apply give is left open. -/
def Chip.fpass (c : Chip) (p pba s2 : Nat) : Nat × Chip :=
  let w := c.wch p
  let s1 := pbaSlot pba
  let codes := (if w.pass.isSome || w.queued.isSome then [1] else []) ++
    (if !passRange s1 s2 || decide (9 < pbaLayer pba) then [2] else []) ++ (if !c.passEnabled p then [3] else [])
  if codes ≠ [] then c.pickResult codes else
  (0, c.queuePass p { s1 := s1, s2 := s2, furrow := pbaFurrow pba, layer := pbaLayer pba, side := pbaSide pba, at_ := s1 })

def execFpass (p : Pickup) (rd rs1 rs2 : Fin 32) (s : State) : Out := s.on fun c =>
  let r := c.fpass p (fieldOf (c.getX (.cs p) rs1) 0 40) (c.getX (.cs p) rs2).toNat
  r.2.setX (.cs p) rd (BitVec.ofNat 64 r.1)

/-! ### What a pass records in a slot (R258, R273, R278) -/

/-- The parity block of a cluster's furrow, where it is due. -/
def Chip.parityItem (c : Chip) (p side layer furrow slot : Nat) : Option WriteItem :=
  let a := c.accOf (accKey p layer (slotCluster slot))
  if !a.due furrow (c.closing p) then none else
  let pba := mkPba side layer furrow slot
  let v := c.vol p
  some { slotPba := pba, homePba := pba, flags := 1, gen := v.session, volumeId := v.volumeId, request := 0,
         user := (List.range 4096).map (fun j => BitVec.ofNat 8 ((a.rows.getD furrow []).getD j 0)) }

/-- The parity slot of a cluster in the user area. -/
def isParitySlot (slot : Nat) : Bool := (slotZone slot).isSome && !isSpare slot && slotInZone slot % 8 == 7

/-- The item that a pass would record in a slot. -/
def Chip.slotItem (c : Chip) (p : Nat) (a : Pass) (slot : Nat) : Option WriteItem :=
  let pba := mkPba a.side a.layer a.furrow slot
  if isSpare slot then (c.wch p).relocs.find? (fun i => i.slotPba == pba)
  else if isParitySlot slot then c.parityItem p a.side a.layer a.furrow slot
  else if a.parityOnly then none
  else (c.wch p).items.head?.filter (fun i => i.slotPba == pba)

/-- A slot that a pass leaves untouched and goes on: a parity slot whose parity is not due, a spare slot without a relocation, and in a sweep
every other slot. -/
def Chip.skipsSlot (c : Chip) (p : Nat) (a : Pass) (slot : Nat) : Bool :=
  (isSpare slot || isParitySlot slot || a.parityOnly) && (c.slotItem p a slot).isNone

/-! ### Starting (R265) -/

/-- The frame condition of Table 6.4. -/
def WchRec.levelsReady (w : WchRec) : Bool := decide (2 ≤ w.framesP ∧ 2 ≤ w.framesB ∧ 2 ≤ w.framesC)

/-- The conditions of Table 6.4. -/
def Chip.passReady (c : Chip) (p : Nat) (a : Pass) : Bool :=
  let w := c.wch p
  let g := c.loop p
  let near := (List.range 4).any (fun k => decide (k < a.s1) && w.goodW.contains (mkPba a.side a.layer a.furrow (a.s1 - 1 - k)))
  c.passEnabled p && !c.writeDegraded p && c.stState (p / 2) == sMounted && c.slow p && c.flag (SPN_STATUS_AT_SPEED (p / 2)) && c.forWriting p &&
    g.focusLock && g.trackLock && (c.seqr p).offset == a.furrow && c.flag (RCH_STATUS_WOBBLE_LOCK (8 * p)) && near && w.levelsReady &&
    decide (2 ≤ w.framesE) && (c.slotItem p a a.s1).isSome && c.afe.resumed && !(c.frm p).reqs.any (fun r => r.kind == .neighbour)

/-- The queued pass starts (R254, R264, R265). -/
def Chip.startPass (c : Chip) (p : Nat) (a : Pass) : Chip :=
  let ls := (List.range 8).map (8 * p + ·)
  let w := c.wch p
  let en := ls.foldl (fun n l => n + 2 ^ (l % 8) * c.fld (RCH_CTRL_EN l)) 0
  let c := ls.foldl (fun c l => c.setFld (RCH_CTRL_EN l) 0) c
  let c := c.updLane (8 * p) fun x => { x with verify := true, landNext := true }
  let c := ((c.setFld (WCH_STATUS_PASSING p) 1).setFld (WCH_STATUS_VERIFY_MODE p) 1).inc (WCH_PASSES_COUNT p)
  let c := (c.setFld (WCH_STATUS_FURROW p) a.furrow).setFld (WCH_STATUS_LAYER p) a.layer
  c.setWch p { w with queued := none, pass := some { a with at_ := a.s1, strat := c.stratOf p }, cur := none, lanesEn := en, failedW := 0, syncOffsets := [],
                      underrun := false, stopAsked := false }

def execPassStart (p : Pickup) (s : State) : Out := s.on fun c =>
  match (c.wch p).queued with
  | none => c
  | some a => c.when (c.passReady p a) fun c => c.startPass p a

/-! ### Slots (R257 to R259, R267) -/

/-- The slot being recorded is complete. -/
def Chip.endSlot (c : Chip) (p : Nat) : Chip :=
  match (c.wch p).cur with
  | none => c
  | some it => c.slotRecorded p it false

/-- The frame of an item (R257): its tag names the slot's POSITION; a parity block is scrambled with its own PBA, which is its home. -/
def itemFrame (it : WriteItem) : List Bool :=
  blockFrame (tagBytes it.volumeId (it.slotPba / 2 ^ 32) it.homePba it.gen it.flags) it.homePba it.user

/-- A pass records an item. -/
def Chip.recordSlot (c : Chip) (p : Nat) (a : Pass) (it : WriteItem) : Chip :=
  let w := c.wch p
  let w := if isSpare a.at_ then { w with relocs := w.relocs.erase it }
    else if isParitySlot a.at_ then w else { w with items := w.items.drop 1 }
  let c := (c.setWch p w).setFld (WCH_SLOT_SLOT p) a.at_
  let next := decide (a.at_ < a.s2) && (c.slotItem p a (a.at_ + 1)).isSome
  c.setWch p { w with pass := some { a with at_ := a.at_ + 1 }, cur := some it,
                      symbols := slotSymbols a.strat (nrz (itemFrame it)) (if next then some 4 else none) }

/-- An underrun is found: the pass is to end at the slot boundary. -/
def Chip.noteUnderrun (c : Chip) (p : Nat) : Chip :=
  ((c.setWch p { c.wch p with underrun := true }).inc (WCH_UNDERRUNS_COUNT p)).mark (WCH_EVENT_UNDERRUN p)

/-- A pass reaches its next slot. -/
def Chip.passSlot (c : Chip) (p : Nat) : Chip :=
  match (c.wch p).pass with
  | none => c
  | some a =>
    if a.s2 < a.at_ then c else
    let c := c.endSlot p
    if (c.wch p).stopAsked then (c.inc (WCH_STOPS_COUNT p)).closePass p
    else if (c.wch p).underrun then c.closePass p
    else if c.skipsSlot p a a.at_ then c.setWch p { c.wch p with pass := some { a with at_ := a.at_ + 1 }, symbols := [] }
    else match c.slotItem p a a.at_ with
      | some it => c.recordSlot p a it
      | none =>
        if (c.wch p).items.isEmpty then (c.noteUnderrun p).closePass p
        else ((c.mark (WCH_EVENT_ORDER p)).inc (WCH_STOPS_COUNT p)).closePass p

def execPassSlot (p : Pickup) (s : State) : Out := s.on fun c => c.passSlot p

def execUnderrun (p : Pickup) (s : State) : Out := s.on fun c =>
  match (c.wch p).pass with
  | none => c
  | some a =>
    c.when (decide (a.at_ ≤ a.s2) && !(c.wch p).underrun && !(c.wch p).stopAsked && !c.skipsSlot p a a.at_ && (c.wch p).items.isEmpty &&
        (c.slotItem p a a.at_).isNone) fun c => c.noteUnderrun p

/-- WCH_CTRL.STOP. -/
def Chip.stopPass (c : Chip) (p : Nat) : Chip := c.when (c.wch p).pass.isSome fun c => c.setWch p { c.wch p with stopAsked := true }

def execStopPass (p : Pickup) (s : State) : Out := s.on fun c => c.stopPass p

/-- Slots of a zone's spare area in which relocations on a furrow of a layer wait. -/
def Chip.pendingSpares (c : Chip) (p : Nat) (a : Pass) : List Nat :=
  ((c.wch p).relocs.filter (fun i => i.slotPba / 2 ^ 32 == mkPba a.side a.layer a.furrow 0 / 2 ^ 32 &&
    slotZone (pbaSlot i.slotPba) == slotZone a.s2)).map (fun i => pbaSlot i.slotPba)

/-- Slot s2 is recorded: the pass ends, or goes on into the spare area (R273). -/
def Chip.passComplete (c : Chip) (p : Nat) : Chip :=
  match (c.wch p).pass with
  | none => c
  | some a =>
    if a.at_ ≤ a.s2 then c else
    let c := c.endSlot p
    let more := c.pendingSpares p a
    let lastCluster := (slotZone a.s2).isSome && slotInZone a.s2 == 30519
    if lastCluster ∧ more ≠ [] ∧ !(c.wch p).stopAsked then
      c.setWch p { c.wch p with pass := some { a with s2 := more.foldl max 0 }, symbols := [] }
    else c.closePass p

def execPassComplete (p : Pickup) (s : State) : Out := s.on fun c => c.passComplete p

/-! ### Relocation (R272 to R276) -/

/-- A block can be recorded nowhere (R274). -/
def Chip.writeFailed (c : Chip) (p : Nat) (it : WriteItem) : Chip :=
  let lba := (pbaLba it.homePba).getD 0
  let c := c.putDefect p ⟨it.homePba, 2, 0, (c.vol p).session⟩
  let c := ((c.inc (WCH_WRITE_FAILED_COUNT p)).mark (WCH_EVENT_WRITE_FAILED p)).log 0x0402 .m (p :: detBytes 5 lba)
  let c := c.setRec p lba .recorded
  if it.rescue then c else c.failStaged it.request

/-- A data block that failed is staged again for the next spare slot. -/
def Chip.relocate (c : Chip) (p : Nat) (it : WriteItem) : Chip :=
  let fails := if isSpare (pbaSlot it.slotPba) then it.fails + 1 else it.fails
  if 3 ≤ fails then c.writeFailed p it
  else match c.assignSpare p it.homePba with
    | (none, c) => c.writeFailed p it
    | (some pba, c) =>
      let c := c.addReloc p { it with slotPba := pba, flags := 2, fails := fails }
      if it.rescue then c else c.updStaged it.request fun e => { e with state := 3, spare := some pba, fails := fails }

/-- A data block is durable (R271, R272, R280). -/
def Chip.durable (c : Chip) (p : Nat) (it : WriteItem) : Chip :=
  let c := if it.flags.testBit 1 then c.putDefect p ⟨it.homePba, 1, it.slotPba, (c.vol p).session⟩ else c
  let c := match pbaLba it.homePba with
    | some lba => c.setRec p lba .recorded
    | none => c
  if it.rescue then c else c.dropStaged it.request

/-! ### Power calibration (R285, R286) -/

/-- A measurement of eight asymmetries, as their sum. -/
def Chip.powerMeasured (c : Chip) (p key : Nat) (e : PowerEntry) (sum : Int) : Chip :=
  let tol := 8 * (c.fld (WCH_CAL_CFG_TOL p) : Int)
  let err := 8 * c.int (WCH_CAL_CFG_A_TARGET p) - sum
  let peak : Int := c.fld (WCH_LEVEL_PB_PEAK p)
  match e.first with
  | none =>
    if (err.natAbs : Int) ≤ tol then c.setPower key (some { e with gathered := [], count := min (e.count + 1) 255 }) else
    let cand := limit (peak - rndDiv (peak * 4) 100) (peak + rndDiv (peak * 4) 100)
      (peak + rndDiv (peak * c.fld (WCH_CAL_CFG_GAIN p) * err) (4 * 8 * 16384))
    c.setPower key (some { e with gathered := [], first := some (sum, (limit 0 65535 cand).toNat) })
  | some (s1, cand) =>
    if ((sum - s1).natAbs : Int) ≤ tol then
      let back := fun (x : Int) => (limit 0 65535 (if (c.wch p).factor = 0 then x else rndDiv (x * 524288) (c.wch p).factor)).toNat
      let scale := fun (x : Nat) => if peak = 0 then x else (limit 0 65535 (rndDiv (x * cand) peak)).toNat
      let e := { e with peak := back cand, bias := scale e.bias, cool := scale e.cool, learned := true, count := min (e.count + 1) 255,
                        gathered := [], first := none }
      ((c.setPower key (some e)).inc (WCH_CAL_ACCEPTS_COUNT p)).calAccept p 7
    else
      let c := (c.setPower key (some { e with gathered := [], first := none })).inc (WCH_CAL_REJECTS_COUNT p)
      let c := (c.mark (WCH_EVENT_CAL_REJECT p)).calReject p 7 0
      if c.fld (CAL_ITEM_STATE p 7) = 3 then c.mark (WCH_EVENT_CAL_FAILED p) else c

/-- A block has passed verify in a zone: its asymmetry joins the measurement. -/
def Chip.gatherAsym (c : Chip) (p : Nat) (it : WriteItem) (asym : Int) : Chip :=
  let layer := pbaLayer it.slotPba
  let zone := entryZone (pbaSlot it.slotPba)
  let key := powerKey p layer zone
  let e := c.powerOf p layer zone
  let xs := e.gathered ++ [asym]
  let c := if xs.length < 8 then c.setPower key (some { e with gathered := xs }) else c.powerMeasured p key e (xs.foldl (· + ·) 0)
  c.setFlag (WCH_STATUS_CALIBRATING p) ((c.power key).any (fun e => e.first.isSome || !e.gathered.isEmpty))

/-! ### Verify (R270, R271) -/

/-- After a pass, and once its results are known: LEAD takes up the mean sync offset (R255). -/
def Chip.adjustLead (c : Chip) (p : Nat) : Chip :=
  let w := c.wch p
  if w.pass.isSome ∨ w.results ≠ [] ∨ w.syncOffsets = [] then c else
  let n : Int := w.syncOffsets.length
  let sum := w.syncOffsets.foldl (· + ·) 0
  let c := c.setWch p { w with syncOffsets := [] }
  if (sum.natAbs : Int) < n then c
  else c.setFld (WCH_LEAD_LEAD p) (limit 250 500 (c.fld (WCH_LEAD_LEAD p) + rndDiv sum n)).toNat

/-- The verify result of the oldest recorded slot. -/
def Chip.verifyResult (c : Chip) (p : Nat) (r : Recorded) (rest : List Recorded) (v : VerifyIn) : Chip :=
  let it := r.item
  let levels := nrz (itemFrame it)
  let e := syncShift v.dec
  let mis := mismatches v.dec levels e.1
  let total := mis.foldl (· + ·) 0
  let ok := decide (e.2 ≤ 6 ∧ total ≤ c.fld (WCH_VERIFY_CFG_TOTAL_MAX p) ∧ v.held ≤ 1024) &&
    mis.all (fun n => decide (n ≤ c.fld (WCH_VERIFY_CFG_SEG_MAX p))) && v.wOk && !r.interrupted
  let c := c.setWch p { c.wch p with results := rest, syncOffsets := if ok then (c.wch p).syncOffsets ++ [e.1] else (c.wch p).syncOffsets }
  let c := if ok then ((c.inc (WCH_VERIFIED_COUNT p)).add (WCH_MISMATCH_BITS_COUNT p) total).gatherAsym p it v.asym
    else (c.inc (WCH_VERIFY_FAILS_COUNT p)).mark (WCH_EVENT_VERIFY_FAIL p)
  let c :=
    if it.flags.testBit 2 then c.mgmtResult p ok
    else if it.flags.testBit 0 then
      if ok then c
      else ((c.putDefect p ⟨it.slotPba, 2, 0, (c.vol p).session⟩).mark (WCH_EVENT_PARITY_WEAK p)).log 0x0403 .m (detBytes 5 it.slotPba)
    else if ok then c.durable p it else c.relocate p it
  (c.adjustLead p).volStep p

/-- VERIFY_RESULT. -/
def execVerifyResult (p : Pickup) (v : VerifyIn) (s : State) : Out :=
  s.onIf (v.dec.length == 57352) fun c => match (c.wch p).results with
    | [] => c
    | r :: rest => c.verifyResult p r rest v

/-! ### Parity sweeps (R278) -/

/-- A sweep may run: in idle time, or while the volume closes. -/
def Chip.mayParity (c : Chip) (p : Nat) : Bool :=
  let w := c.wch p
  let idle := c.flag (WCH_CTRL_PARITY_IDLE p) && (c.toRecord p).isEmpty && w.items.isEmpty && w.relocs.isEmpty && (c.frm p).reqs.isEmpty
  w.pass.isNone && w.queued.isNone && c.passEnabled p && !c.writeDegraded p && c.forWriting p && (idle || c.closing p)

/-- PARITY_SWEEP. -/
def execParitySweep (p : Pickup) (layer : Fin 10) (furrow : Fin 8) (cluster clusters : Nat) (s : State) : Out :=
  s.onIf (decide (0 < clusters ∧ cluster + clusters ≤ 244160 ∧ cluster / 3815 = (cluster + clusters - 1) / 3815)) fun c =>
    let a : Pass := { s1 := clusterSlot cluster + 7, s2 := clusterSlot (cluster + clusters - 1) + 7, furrow := furrow, layer := layer,
                      side := (c.vol p).side, at_ := clusterSlot cluster + 7, parityOnly := true }
    c.when (c.mayParity p && (c.slotItem p a a.s1).isSome) fun c => c.queuePass p a

/-! ### After an off-track stop (R269) -/

/-- Radius of the start of slot `i` on furrow 0, in units of 10^-10 m (R78). -/
def slotRadius (i : Nat) : Nat := isqrtGo (10 ^ 14 * (576 * 713348 + 1000 * i) / 713348) 32 0

/-- Slots of one turn inward or outward whose span of angle overlaps that of slot `i`. A turn of a furrow is eight pitches of 0.240 µm. -/
def turnSlots (i : Nat) (outward : Bool) : List Nat :=
  let turn := 19200
  let near := (List.range 200).map (fun k => if outward then i + k else i - min i k)
  near.eraseDups.filter (fun j =>
    if outward then decide (slotRadius j < slotRadius (i + 1) + turn) && decide (slotRadius i + turn < slotRadius (j + 1))
    else decide (slotRadius j + turn < slotRadius (i + 1)) && decide (slotRadius i < slotRadius (j + 1) + turn))

/-- PBAs of the slots beside an interrupted slot and the one before it. -/
def besideSlots (side layer f slot : Nat) : List Nat :=
  let two := if slot = 0 then [0] else [slot - 1, slot]
  let at_ := fun g => two.map (mkPba side layer g)
  if f = 0 then at_ 1 ++ (two.flatMap (fun i => turnSlots i false)).eraseDups.map (mkPba side layer 7)
  else if f = 7 then at_ 6 ++ (two.flatMap (fun i => turnSlots i true)).eraseDups.map (mkPba side layer 0)
  else at_ (f - 1) ++ at_ (f + 1)

/-- OFFTRACK_STOP: the pass ends at once, the stop is logged, and the slots beside it are to be read (R267 to R269). -/
def Chip.offtrackStop (c : Chip) (p : Nat) : Chip :=
  match (c.wch p).pass, (c.wch p).cur with
  | some a, some it =>
    let slot := a.at_ - 1
    let homes := (besideSlots a.side a.layer a.furrow slot).filterMap (fun x => (c.homeOf p x).filter (fun h => decide (homeIdx h < 56)))
    let c := ((c.mark (WCH_EVENT_OFFTRACK_STOP p)).cutPass p).log 0x0401 .m (detBytes 5 it.slotPba)
    if homes = [] then c
    else
      let f := c.frm p
      c.setFrm p { f with reqs := f.reqs ++ [{ number := 0, kind := .neighbour, lba := 0, left := homes }] }
  | some _, none => (c.mark (WCH_EVENT_OFFTRACK_STOP p)).cutPass p
  | _, _ => c

end Sys2Proof.Machine
end

