-- ==== Sys2Proof/Machine/Afe.lean ====
section
/-! DEFINITION. The optical front end: front-end settings (R125), the sampling PLL (R129 to R132), values delivered to the engines (R133 to R138,
R374), actuator-link frames (R143 to R152). -/

namespace Sys2Proof.Machine

/-- AFE_SETTING_APPLY. -/
def execAfeSettingApply (l : Lane) (s : State) : Out := s.on fun c =>
  c.when (c.flag (AFE_LANE_CFG_PENDING (l.val / 8) (l.val % 8)) || (c.afeLane l).step.isSome) fun c => c.afeApply l

/-! ### The sampling PLL -/

/-- What a lane and its framer hold uncommitted is rewound; each of its blocks has failed an attempt (R130). -/
def Chip.rewindLane (c : Chip) (l : Nat) : Chip :=
  let p := l / 8
  let pbas := ((c.lane l).cur.map (·.report.pba)).toList ++ ((c.frameOf l).map (·.item.report.pba)).toList
  let c := (c.updLane l fun x => { x with cur := none, landNext := true }).setFrame l none
  (pbas.filterMap (c.homeOf p)).foldl (fun c h =>
    let c := c.unretried p { home := h }
    if c.needing p h = [] then c else c.joinRetry p h false) c

/-- The sampling PLL is out of lock (R130, R132). -/
def Chip.pllUnlock (c : Chip) : Chip :=
  let c := (c.setFld AFE_PLL_STATUS_LOCKED 0).setFld AFE_PLL_STATUS_FALLBACK 1
  let c := if c.flag FLM_STATUS_LEDGER_ALIGNED then (c.setFld FLM_STATUS_LEDGER_ALIGNED 0).mark FLM_EVENT_SKEW_EXCEEDED else c
  let c : Chip := { c with afe := { c.afe with resumed := false, failed := false }, arch := { c.arch with goodExchanges := 0 } }
  let c := ((c.mark AFE_EVENT_PLL_UNLOCK).inc AFE_UNLOCK_COUNT_COUNT).log 0x0201 .m []
  let c := (List.range 16).foldl (fun c p => (c.setFld (AFE_PU_STATUS_PLL_UNLOCKED p) 1).cutPass p) c
  (List.range 128).foldl (fun c l => c.rewindLane l) c

def execSpllUnlock (s : State) : Out := s.on fun c => c.when (c.flag AFE_PLL_STATUS_LOCKED) fun c => c.pllUnlock

/-- The PLL is in lock. -/
def Chip.pllLocked (c : Chip) : Chip :=
  let c := (c.setFld AFE_PLL_STATUS_LOCKED 1).setFld AFE_PLL_STATUS_FALLBACK 0
  let c := (List.range 16).foldl (fun c p => c.setFld (AFE_PU_STATUS_PLL_UNLOCKED p) 0) c
  { c with afe := { c.afe with failed := false } }

def execSpllLocked (s : State) : Out := s.on fun c => c.when (!c.flag AFE_PLL_STATUS_LOCKED) fun c => c.pllLocked

/-- Reads and writes resume. -/
def execSpllResume (s : State) : Out := s.on fun c =>
  c.when (c.flag AFE_PLL_STATUS_LOCKED && !c.afe.resumed) fun c => { c with afe := { c.afe with resumed := true } }

/-- 100 ms without lock (R131): stations park, and commands that need one complete with STATION_FAULT, those that wait for a calibration cycle too. -/
def Chip.pllFail (c : Chip) : Chip :=
  let c : Chip := { c with afe := { c.afe with failed := true } }
  let cals := c.host.cmds.filter (fun m => m.opcode == opCalibrate && m.started && m.status.isNone && decide (m.arg0 / 256 ≤ 8))
  let c := cals.foldl (fun c m => c.finishS m.uid stStationFault) c
  let c := (c.mark AFE_EVENT_PLL_FAIL).log 0x0202 .m []
  (List.range 8).foldl (fun c s => c.park s cauPllFail) c

def execSpllFail (s : State) : Out := s.on fun c => c.when (!c.flag AFE_PLL_STATUS_LOCKED && !c.afe.failed) fun c => c.pllFail

/-- AFE_PLL_CTRL.RELOCK. -/
def Chip.relock (c : Chip) : Chip := if c.flag AFE_PLL_STATUS_LOCKED then c.pllUnlock else c

def execRelock (s : State) : Out := s.on fun c => c.relock

/-! ### Servo values (R133 to R138) -/

/-- A Q3.28 word from an exact integer in its LSB. -/
def qWord (x : Int) : Q := (satQ x).1

/-- The corrected values a to f of a sample. -/
def Chip.corrected (c : Chip) (p : Nat) (s : ServoSample) : List Int :=
  ([s.a, s.b, s.c, s.d, s.e, s.f].zip (List.range 6)).map fun x => max 0 ((x.1.toNat : Int) - c.fld (AFE_SV_OFFSET_OFFSET p x.2))

def sumOf (xs : List Int) : Int := xs.foldl (· + ·) 0
def leastOf (xs : List Int) : Int := xs.foldl min (xs.headD 0)
def mostOf (xs : List Int) : Int := xs.foldl max (xs.headD 0)

/-- The values of ports 0 to 14 that a window gives, with LOW_SUM and LOW_SIDE. -/
def Chip.formWindow (c : Chip) (p : Nat) (w : List (List Int)) : List Q × Bool × Bool :=
  let at_ := fun (x : List Int) i => x.getD i 0
  let sums := w.map (fun x => at_ x 0 + at_ x 1 + at_ x 2 + at_ x 3)
  let fd := w.map (fun x => at_ x 0 + at_ x 2 - (at_ x 1 + at_ x 3))
  let pd := w.map (fun x => at_ x 0 + at_ x 3 - (at_ x 1 + at_ x 2))
  let ss := w.map (fun x => at_ x 4 + at_ x 5)
  let sd := w.map (fun x => at_ x 4 - at_ x 5)
  let total := sumOf sums
  let side := sumOf ss
  let level : Int := c.fld (AFE_SUM_MIN_LEVEL p)
  let low := decide (total < 125 * level ∨ total = 0)
  let lowSide := decide (2 * side < 125 * level ∨ side = 0)
  let ratio := fun (x : Int) => if low then (0 : Int) else (qWord (rndDiv (x * 2 ^ 28) total)).toInt
  let mpp := ratio (sumOf pd)
  let tb := if lowSide then (0 : Int) else (qWord (rndDiv (sumOf sd * 2 ^ 28) side)).toInt
  let weigh := fun (f : Fld) (x : Int) => (qWord (rndDiv (c.int f * x) (2 ^ 14))).toInt
  let te := weigh (AFE_TE_MIX_K_MPP p) mpp + weigh (AFE_TE_MIX_K_TB p) tb
  let mean := fun (x : Int) => qWord (rndDiv (x * 2 ^ 16) 125)
  ((List.range 6).map (fun i => mean (sumOf (w.map (fun x => at_ x i)))) ++
    [mean total, qWord (leastOf sums * 2 ^ 16), qWord (mostOf sums * 2 ^ 16), qWord (ratio (sumOf fd)), qWord (ratio (125 * leastOf fd)),
     qWord (ratio (125 * mostOf fd)), qWord mpp, qWord tb, qWord te], low, lowSide)

/-- A code at either end of the range. -/
def ServoSample.clips (s : ServoSample) : Bool := [s.a, s.b, s.c, s.d, s.e, s.f].any (fun x => x == 0 || x == 4095)

/-- Put words into the input ports of a pair, from a port on. -/
def Chip.setInputs (c : Chip) (q port : Nat) (ws : List Q) : Chip :=
  let x := c.pair q
  c.setPair q { x with inputs := Cells.putRun (fun _ => 0) x.inputs port ws }

/-- The values of a period reach both engines (R137); a calibration cycle holds those it affects (R139). -/
def Chip.deliverServo (c : Chip) (p : Nat) (window : List ServoSample) : Chip :=
  let on := c.flag (AFE_PU_CTRL_SV_EN p)
  let r := c.formWindow p (window.map (c.corrected p))
  let held := c.flag (AFE_PU_STATUS_STALE p)
  let c := (c.setFlag (AFE_PU_STATUS_SV_OFF p) (!on)).setFlag (AFE_PU_STATUS_LOW_SUM p) (on && r.2.1)
  let c := (c.setFlag (AFE_PU_STATUS_LOW_SIDE p) (on && r.2.2)).setFlag (AFE_PU_STATUS_SV_CLIP p) (on && window.any ServoSample.clips)
  let bl := (List.range 8).map (fun k => if on then BitVec.ofNat 32 (c.fld (AFE_LANE_LEVEL_LEVEL p k) * 2 ^ 14) else 0)
  let c := if on && held then c else c.setInputs p 0 (if on then r.1 else List.replicate 15 0)
  let th := BitVec.ofNat 32 (c.fld (AFE_TH_VALUE_CODE p) * 2 ^ 16)
  let c := c.setInputs p 15 (bl ++ [th, BitVec.ofNat 32 (fieldOf (c.reg (AFE_PU_STATUS p)) 0 8)])
  c.setPair p { c.pair p with delivered := true }

def execServoValuesDelivered (p : Pickup) (window : List ServoSample) (s : State) : Out :=
  s.onIf (window.length == 125) fun c => c.deliverServo p window

/-- An axis is in RUN: SLED_MODE asks for it, or the park sequencer keeps it so, and its bridge fault is not latched (R375, R382, R384, Table
10.4). -/
def Chip.sledRuns (c : Chip) (p : Nat) : Bool :=
  ((c.gateOut (16 + p / 2) 8).toNat / 4 ^ (p % 2) % 4 == 1 || (c.sled p).psRun) && !c.flag (MOT_AX_STATUS_DRIVER_FAULT p)

/-- Reference of phase A (0) or B (1) of an axis: frozen by the hard-stop latch, else the gate's (R392). -/
def Chip.sledRef (c : Chip) (p b : Nat) : Int :=
  match (c.sled p).frozen with
  | some r => (if b = 0 then r.1 else r.2).toInt
  | none => (c.gateOut (16 + p / 2) (4 + 2 * (p % 2) + b)).toInt

/-- The offset of a chopper and its mean current, from the sum of a period's 50 codes (R383, MOT_AX_IMEAN). -/
def Chip.sledMean (c : Chip) (p b sum : Nat) : Chip :=
  let d : Int := (sum : Int) - 102400
  let c := c.setInt (if b = 0 then MOT_AX_IMEAN_A p else MOT_AX_IMEAN_B p) (rndDiv (2 * d) 50)
  let r := c.sledRef p b
  if c.sledRuns p ∧ 2 ^ 23 ≤ r.natAbs ∧ !c.flag (MOT_AX_STATUS_HARD p) then
    let m := rndDiv ((if r < 0 then -d else d) * 2 ^ 17) 50
    let f := if b = 0 then MOT_AX_OFFSET_OFFSET_A p else MOT_AX_OFFSET_OFFSET_B p
    let top : Int := 16 * c.fld (MOT_AX_CHOP_OFF_MAX p)
    let x := c.int f + rndShift ((r.natAbs : Int) - m) (16 + c.fld (MOT_AX_CTRL_CHOP_MU p))
    let c := if x < -top ∨ top < x then c.mark (MOT_AX_EVENT_OFFSET_SAT p) else c
    c.setInt f (limit (-top) top x)
  else c

/-- The motion values of a period (Table 9.2); LIMITS, SETPOS and SETVEL were latched at the tick. The choppers'
offsets follow from the same samples (log entry 36). -/
def Chip.deliverMotion (c : Chip) (s : Nat) (v : MotionIn) : Chip :=
  let i := fun (x : BitVec 12) => qWord (((x.toNat : Int) - 2048) * 2 ^ 17)
  let e := fun (x : BitVec 12) => qWord ((x.toNat : Int) * 2 ^ 16)
  let m := fun (x : Nat) => qWord (rndDiv (((x : Int) - 102400) * 2 ^ 17) 50)
  let c := c.setInputs (16 + s) 0
    [i v.iu, i v.iv, i v.iw, e v.eu, e v.ev, e v.ew, qWord (rndDiv ((v.vbus : Int) * 2 ^ 16) 50), m v.iua, m v.iub, m v.ila, m v.ilb]
  let c := c.setPair (16 + s) { c.pair (16 + s) with delivered := true }
  (((c.sledMean (2 * s) 0 v.iua).sledMean (2 * s) 1 v.iub).sledMean (2 * s + 1) 0 v.ila).sledMean (2 * s + 1) 1 v.ilb

def execMotionValuesDelivered (x : Station) (v : MotionIn) (s : State) : Out :=
  s.onIf ([v.vbus, v.iua, v.iub, v.ila, v.ilb].all (fun n => decide (n ≤ 50 * 4095))) fun c => c.deliverMotion x v

/-! ### Actuator links (R143 to R151, R447) -/

/-- Coding of set-points (R146). -/
def signedPoint (x : Q) : Nat := bitsOfInt 16 (limit (-32768) 32767 (rndDiv x.toInt (2 ^ 13)))
def unsignedPoint (x : Q) : Nat := (limit 0 65535 (rndDiv x.toInt (2 ^ 12))).toNat

/-- A set-point of the last frame sent. -/
def Chip.lastPoint (c : Chip) (s i : Nat) : Nat :=
  c.fld (if i % 2 = 0 then AFE_LINK_LAST_SETPOINT_LO s (i / 2) else AFE_LINK_LAST_SETPOINT_HI s (i / 2))

/-- The write channel may drive write power: a pass is started or runs. -/
def WchRec.writeEn (w : WchRec) : Bool := w.queued.isSome || w.pass.isSome

/-- The level that WSEL selects. -/
def Chip.levelOf (c : Chip) (p wsel : Nat) : Nat :=
  c.fld (if wsel = 0 then WCH_LEVEL_PB_PEAK p else if wsel = 1 then WCH_LEVEL_PB_BIAS p else WCH_LEVEL_C_COOL p)

/-- Set-points and enables that gates and write channels present. -/
def Chip.framePoints (c : Chip) (s wsel : Nat) : List Nat × Nat :=
  let ps := [2 * s, 2 * s + 1]
  (ps.flatMap (fun p => (List.range 4).map (fun k => signedPoint (c.gateOut p k)) ++ [unsignedPoint (c.gateOut p 4), c.levelOf p wsel]),
   (ps.zip [0, 1]).foldl (fun n x =>
     let en := c.gateOut x.1 5
     n + 4 ^ x.2 * ((en.getLsbD 0).toNat + 2 * (c.wch x.1).writeEn.toNat) + 2 ^ (4 + x.2) * (en.getLsbD 1).toNat) 0)

/-- FOCUS under the park sequencer: towards −24,576 by 131 a frame. -/
def parkFocus (x : Nat) : Nat :=
  let v := signedOf 16 x
  bitsOfInt 16 (if v < -24576 then min (-24576) (v + 131) else max (-24576) (v - 131))

/-- Set-points and enables of the park sequencer (Table 10.4). -/
def Chip.parkPoints (c : Chip) (s : Nat) : List Nat × Nat :=
  let pts := (List.range 12).map (fun i => if i % 6 = 0 then parkFocus (c.lastPoint s i) else c.lastPoint s i)
  let read := fun i => if signedOf 16 (pts.getD i 0) = -24576 then 0 else 1
  let act := if c.stopped s then 0 else 1
  (pts, read 0 + 4 * read 6 + 16 * act + 32 * act)

/-- A frame has been sent with a level and the enables of a pickup: what Table 6.4 counts. -/
def Chip.frameSent (c : Chip) (p wsel : Nat) (writeEn : Bool) : Chip :=
  let w := c.wch p
  let up := fun n => min 2 (n + 1)
  let w := if wsel = 0 then { w with framesP := up w.framesP } else if wsel = 1 then { w with framesB := up w.framesB }
    else { w with framesC := up w.framesC }
  c.setWch p (if writeEn then { w with framesE := up w.framesE } else w)

/-- The frame of a link. -/
def Chip.actuatorFrame (c : Chip) (s : Nat) : Chip :=
  let k := c.link s
  let seq := if k.sent then (c.fld (AFE_LINK_STATUS_SEQ s) + 1) % 256 else 0
  let wsel := if k.sent then (c.fld (AFE_LINK_STATUS_WSEL s) + 1) % 3 else 0
  let r := if k.parked then c.parkPoints s else c.framePoints s wsel
  let body := leBytes 1 seq ++ leBytes 1 (s + 8 * wsel) ++ leBytes 1 r.2 ++ r.1.flatMap (leBytes 2)
  let c := c.setLink s { k with frame := body ++ leBytes 2 (crc16 body).toNat, sent := true }
  let c := ((c.setFld (AFE_LINK_STATUS_SEQ s) seq).setFld (AFE_LINK_STATUS_WSEL s) wsel).setFlag (AFE_LINK_STATUS_SOURCE s) k.parked
  let c := (c.setFld (AFE_LINK_STATUS_ENABLES s) r.2).inc (AFE_LINK_FRAMES_COUNT s)
  let c := (List.range 6).foldl (fun c i =>
    (c.setFld (AFE_LINK_LAST_SETPOINT_LO s i) (r.1.getD (2 * i) 0)).setFld (AFE_LINK_LAST_SETPOINT_HI s i) (r.1.getD (2 * i + 1) 0)) c
  if k.parked then c
  else
    let c := if (c.pair (2 * s)).held ∨ (c.pair (2 * s + 1)).held then c.inc (AFE_LINK_HELD_COUNT s) else c
    (c.frameSent (2 * s) wsel (r.2.testBit 1)).frameSent (2 * s + 1) wsel (r.2.testBit 3)

def execActuatorFrame (x : Station) (s : State) : Out := s.on fun c => c.when (c.flag (AFE_LINK_STATUS_RUNNING x)) fun c => c.actuatorFrame x

end Sys2Proof.Machine
end

