-- ==== Sys2Proof/Machine/Loops.lean ====
section
/-! DEFINITION. The resident loop program (R334 to R354, R575, R664) and what the channel sequencer does about its losses, slips and seeks (R341,
R343, R345, R346, R349). Commands are delivered at a loop tick or by their own rows; counters and outputs move at each committed period; the rows of
events act where the counters have come to them. -/

namespace Sys2Proof.Machine

def lOff : Nat := 0
def lSweep : Nat := 1
def lAcquire : Nat := 2
def lFocused : Nat := 3
def lPullIn : Nat := 4
def lTracking : Nat := 5
def lJump : Nat := 6
def lLayerJump : Nat := 7
def lHold : Nat := 8
def lRecover : Nat := 9
def lRetract : Nat := 10
def lRetracted : Nat := 11

/-! ### Inputs and parameters (Tables 7.4 and 8.3) -/

def Chip.inPort (c : Chip) (q k : Nat) : Int := (Cells.get (fun _ => 0) (c.pair q).inputs k : Q).toInt
def Chip.par (c : Chip) (q i : Nat) : Int := signedOf 32 (c.fld (LE_PARAM_VALUE q i))
def Chip.cnt (c : Chip) (q i : Nat) : Nat := c.fld (LE_PARAM_VALUE q i)

/-- A product of Q3.28 numbers (R308). -/
def mulQ (x y : Int) : Int := (qWord (rndDiv (x * y) (2 ^ 28))).toInt

/-- 1.0 in Q3.28. -/
def oneQ : Int := 2 ^ 28

def Chip.lowSum (c : Chip) (p : Nat) : Bool := (Cells.get (fun _ => 0) (c.pair p).inputs 24 : Q).getLsbD 0
def Chip.retractPos (c : Chip) (p : Nat) : Int := c.par p 9
def Chip.feErr (c : Chip) (p : Nat) : Int := c.inPort p 9 + c.par p 0
def Chip.teErr (c : Chip) (p : Nat) : Int := c.inPort p 14 + c.par p 1
def Chip.enoughLight (c : Chip) (p : Nat) : Bool := decide (c.par p 5 ≤ c.inPort p 6)

def Chip.updLoop (c : Chip) (p : Nat) (f : LoopProg → LoopProg) : Chip := c.setLoop p (f (c.loop p))

/-! ### Ends of commands (R335) -/

/-- A command ends with a result. -/
def LoopProg.endCmd (g : LoopProg) (r : Nat) : LoopProg := { g with result := r, seq := (g.seq + 1) % 256, busy := false, cmd := none }

/-- The running command, if there is one, ends with FAIL. -/
def LoopProg.failCmd (g : LoopProg) : LoopProg := if g.cmd.isSome then g.endCmd 2 else g

/-- A command is REFUSED; the running one goes on. -/
def LoopProg.refuse (g : LoopProg) : LoopProg := { g with result := 3, seq := (g.seq + 1) % 256 }

/-- A command starts in a state. -/
def LoopProg.start (g : LoopProg) (cmd : LoopCmd) (state phase : Nat) : LoopProg :=
  { g with cmd := some cmd, busy := true, state := state, phase := phase, count := 0, good := 0, bad := 0, off := 0, total := 0 }

/-- The believed layer changes: the trim returns to 0 and the retry offset ends (R351, R353). -/
def LoopProg.believe (g : LoopProg) (layer : Nat) : LoopProg := if g.layer = layer then g else { g with layer := layer, trim := 0, retry := 0 }

/-- The channel sequencer writes LE_REGION.LAYER as the believed layer (R350). -/
def Chip.regionLayer (c : Chip) (p : Nat) : Chip := if (c.loop p).layer ≤ 9 then c.setFld (LE_REGION_LAYER p) (c.loop p).layer else c

/-- Tracking opens and is held at its integral value, which the program's law gives: left open (log entry 32). -/
def Chip.holdTrack (c : Chip) (p : Nat) : Chip :=
  let d := c.draw
  d.2.updLoop p fun g => { g with trackLock := false, tracking := if g.trackLock then (BitVec.setWidth 32 d.1).toInt else g.tracking }

/-- The 8 lanes of a pickup land on the next slot they read (R192). -/
def Chip.landAll (c : Chip) (p : Nat) : Chip :=
  (List.range 8).foldl (fun c k => c.updLane (8 * p + k) fun x => { x with landNext := true }) c

/-! ### Losses (R341, R345) -/

/-- A focus loss is counted; the third within 10 s since QUALIFY parks the station. -/
def Chip.countLoss (c : Chip) (p : Nat) : Chip :=
  let s := p / 2
  let q := c.seqr p
  let t := c.now.toNat
  let near := q.losses.filter (fun x => decide (t ≤ x + 10 ^ 10))
  let c := (c.inc (WMM_STN_FOCUS_LOSSES_COUNT s)).mark (WMM_STN_EVENT_FOCUS_LOST s)
  let c := (c.setSeqr p { q with losses := (t :: near).take 3, recovering := true, checkDue := true, seek := none }).abandonCal p false
  if 2 ≤ near.length then c.park s cauServoLost else c

/-- A focus loss is declared: the program makes one acquisition on the believed layer. -/
def Chip.focusLoss (c : Chip) (p : Nat) : Chip :=
  let c := c.holdTrack p
  let c := c.updLoop p fun g =>
    let g := g.failCmd
    { g with focusLost := true, focusLock := false, trackLock := false, offtrack := true, closed := false, state := lRecover, phase := 0, count := 0,
             good := 0, bad := 0, off := 0, target := g.layer, ownPull := false }
  c.countLoss p

/-- A tracking loss is declared: the program runs a PULL_IN of its own. -/
def Chip.trackLoss (c : Chip) (p : Nat) : Chip :=
  let s := p / 2
  let c := c.holdTrack p
  let c := c.updLoop p fun g =>
    let g := g.failCmd
    { g with trackLost := true, offtrack := true, state := lPullIn, phase := 0, count := 0, good := 0, off := 0, gap := 0, ownPull := true }
  let c := ((c.inc (WMM_STN_TRACK_LOSSES_COUNT s)).mark (WMM_STN_EVENT_TRACK_LOST s)).abandonCal p false
  c.setSeqr p { c.seqr p with checkDue := true, seek := none }

/-! ### Commands (Tables 8.1 and 14.2) -/

/-- Operands of the calibration commands. -/
def calArgsOk (op a : Nat) (arg : Q) : Bool :=
  if op = 0x0A ∨ op = 0x0E then decide (1 ≤ a) && arg == 0
  else if op = 0x0D then decide (16 ≤ a ∧ a ≤ 64)
  else decide (5 ≤ a ∧ a ≤ 50 ∧ 0 ≤ arg.toInt ∧ arg.toInt ≤ 2 ^ 24)

/-- A command that no other command's run stands against. -/
def Chip.startCommand (c : Chip) (p op a : Nat) (arg : Q) : Chip :=
  let g := c.loop p
  let cmd : LoopCmd := ⟨op, a, arg⟩
  let no := c.setLoop p g.refuse
  let station := p / 2
  match op with
  | 0x01 =>
    if g.state = lOff ∨ g.state = lRetracted then
      c.setLoop p { g.start cmd lSweep 0 with actEn := true, focus := c.retractPos p, spherical := 0, curves := [], curve := none, closed := false }
    else no
  | 0x02 =>
    if a ≤ 9 ∧ g.positions ≠ [] then
      c.setLoop p { g.start cmd lAcquire 0 with target := a, focusLock := false, trackLock := false, closed := false, spherical := c.par p (16 + a),
                                                readPower := c.par p (26 + a) }
    else no
  | 0x03 => if g.focusLock then c.setLoop p { g.start cmd lPullIn 0 with gap := 0, ownPull := false } else no
  | 0x04 =>
    let n := signedOf 8 a
    if g.state = lTracking ∧ n ≠ 0 ∧ -64 ≤ n ∧ n ≤ 63 then
      (((c.holdTrack p).updLoop p fun g => { g.start cmd lJump 0 with cycles := 0 }).landAll p).inc (WMM_STN_JUMPS_COUNT station)
    else no
  | 0x05 =>
    if a ≤ 9 ∧ (g.state = lTracking ∨ g.state = lFocused) then
      if a = g.layer then c.setLoop p (g.endCmd 1)
      else ((c.holdTrack p).updLoop p fun g => { g.start cmd lLayerJump 2 with target := a, offtrack := true }).landAll p
    else no
  | 0x06 =>
    if g.focusLock then (c.holdTrack p).updLoop p fun g => { g.endCmd 1 with state := lHold, ownPull := false } else no
  | 0x08 => if a ≤ 3 then c.setLoop p { g.endCmd 1 with retry := a } else no
  | 0x09 => if a ≤ 9 then (c.setLoop p ((g.believe a).endCmd 1)).regionLayer p else no
  | 0x0A | 0x0B | 0x0C | 0x0E =>
    if g.state = lTracking ∧ calArgsOk op a arg then c.setLoop p { g.start cmd lTracking 0 with acc0 := 0, acc1 := 0 } else no
  | 0x0D =>
    if g.state = lTracking ∧ calArgsOk op a arg then (c.holdTrack p).updLoop p fun g => { g.start cmd lHold 0 with acc0 := 0, acc1 := 0 } else no
  | _ => no

/-- A command word is delivered to the program (R334, R335). -/
def Chip.loopCommand (c : Chip) (p op a : Nat) (arg : Q) : Chip :=
  let g := c.loop p
  if op = 0 then c
  else if op = 0x07 then
    if 1 < a then c.setLoop p g.refuse
    else if g.state = lOff then c.setLoop p (g.endCmd 1)
    else
      let g := g.failCmd
      (c.setLoop p { g.start ⟨op, a, arg⟩ lRetract 0 with
          focusLock := false, trackLock := false, offtrack := true, closed := false, retry := 0, ownPull := false,
          readOn := g.readOn && a != 0 }).landAll p
  else match g.cmd with
    | none => c.startCommand p op a arg
    | some r =>
      if op = 0x06 ∧ (r.op = 0x03 ∨ r.op = 0x04) then (c.setLoop p g.failCmd).startCommand p op a arg else c.setLoop p g.refuse

/-- A command row: the pair runs its resident program. -/
def Chip.loopRuns (c : Chip) (p : Nat) : Bool := c.flag (LE_PAIR_CTRL_RUN p) && (c.pair p).resident

def execLoopNone (p : Pickup) (s : State) : Out := s.on fun c => c.when (c.loopRuns p) fun c => c.loopCommand p 0x00 0 0
def execSweep (p : Pickup) (s : State) : Out := s.on fun c => c.when (c.loopRuns p) fun c => c.loopCommand p 0x01 0 0
def execFocus (p : Pickup) (a : Byte) (s : State) : Out := s.on fun c => c.when (c.loopRuns p) fun c => c.loopCommand p 0x02 a.toNat 0
def execPullIn (p : Pickup) (s : State) : Out := s.on fun c => c.when (c.loopRuns p) fun c => c.loopCommand p 0x03 0 0
def execJump (p : Pickup) (a : Byte) (s : State) : Out := s.on fun c => c.when (c.loopRuns p) fun c => c.loopCommand p 0x04 a.toNat 0
def execLayerJump (p : Pickup) (a : Byte) (s : State) : Out := s.on fun c => c.when (c.loopRuns p) fun c => c.loopCommand p 0x05 a.toNat 0
def execHoldTracking (p : Pickup) (s : State) : Out := s.on fun c => c.when (c.loopRuns p) fun c => c.loopCommand p 0x06 0 0
def execRetract (p : Pickup) (a : Byte) (s : State) : Out := s.on fun c => c.when (c.loopRuns p) fun c => c.loopCommand p 0x07 a.toNat 0
def execRetryOffset (p : Pickup) (a : Byte) (s : State) : Out := s.on fun c => c.when (c.loopRuns p) fun c => c.loopCommand p 0x08 a.toNat 0
def execSetLayer (p : Pickup) (a : Byte) (s : State) : Out := s.on fun c => c.when (c.loopRuns p) fun c => c.loopCommand p 0x09 a.toNat 0
def execCalLevel (p : Pickup) (a : Byte) (arg : Q) (s : State) : Out := s.on fun c => c.when (c.loopRuns p) fun c => c.loopCommand p 0x0A a.toNat arg
def execCalGainF (p : Pickup) (a : Byte) (arg : Q) (s : State) : Out := s.on fun c => c.when (c.loopRuns p) fun c => c.loopCommand p 0x0B a.toNat arg
def execCalGainT (p : Pickup) (a : Byte) (arg : Q) (s : State) : Out := s.on fun c => c.when (c.loopRuns p) fun c => c.loopCommand p 0x0C a.toNat arg
def execCalTsens (p : Pickup) (a : Byte) (arg : Q) (s : State) : Out := s.on fun c => c.when (c.loopRuns p) fun c => c.loopCommand p 0x0D a.toNat arg
def execCalTrim (p : Pickup) (a : Byte) (arg : Q) (s : State) : Out := s.on fun c => c.when (c.loopRuns p) fun c => c.loopCommand p 0x0E a.toNat arg

/-! ### A period (R339 to R352) -/

/-- A step of at most `d` from `x` towards `y`. -/
def toward (x y d : Int) : Int := if x < y then min y (x + d) else max y (x - d)

/-- S-curves as the sweep passes them (R339). -/
def Chip.sweepCurve (c : Chip) (p : Nat) (g : LoopProg) : LoopProg :=
  let cap := c.par p 6
  let close := fun (g : LoopProg) => match g.curve with
    | some (hi, lo, some at_) => { g with curve := none, curves := if cap ≤ hi ∧ lo ≤ -cap then g.curves ++ [at_] else g.curves }
    | _ => { g with curve := none }
  if c.par p 5 ≤ c.inPort p 8 then
    let u := g.curve.getD (c.inPort p 11, c.inPort p 10, none)
    let flip := g.curve.isSome ∧ (g.fe < 0) ≠ (c.inPort p 9 < 0)
    { g with curve := some (max u.1 (c.inPort p 11), min u.2.1 (c.inPort p 10), if flip then some g.focus else u.2.2) }
  else close g

/-- The place of the layer in the sweep record: the first S-curve is the surface, the n-th layer 11 − n. -/
def LoopProg.posOf (g : LoopProg) (layer : Nat) : Int := g.positions.getD (10 - layer) 0

/-- Motion of FOCUS in the states where the loop is open. -/
def Chip.openFocus (c : Chip) (p : Nat) (g : LoopProg) : LoopProg :=
  let step := c.par p 7
  if g.state = lSweep then
    if g.phase = 0 then
      if 10 ≤ g.count then { g with phase := 1, count := 0, readOn := true, readPower := c.par p 35 } else g
    else if g.phase = 1 then { c.sweepCurve p g with focus := min (c.par p 8) (g.focus + step) }
    else { g with focus := toward g.focus (c.retractPos p) (8 * step) }
  else if g.state = lAcquire ∨ g.state = lRecover then
    let start := g.posOf g.target - 40 * step
    if g.phase = 0 then
      let f := toward g.focus start (8 * step)
      { g with focus := f, phase := if f = start then 1 else 0, count := if f = start then 0 else g.count }
    else if g.phase = 1 then { g with focus := g.focus + step / 2 }
    else if g.phase = 3 then { g with focus := toward g.focus (c.retractPos p) (8 * step) }
    else g
  else if g.state = lRetract then { g with focus := toward g.focus (c.retractPos p) (8 * step) }
  else g

/-- Counters of the lock and loss tests. -/
def Chip.lockTests (c : Chip) (p : Nat) (g : LoopProg) : LoopProg :=
  let fe := (c.feErr p).natAbs
  let te := (c.teErr p).natAbs
  let cap := c.par p 6
  let ot := c.par p 4
  let coasting : Bool := decide (g.state = lLayerJump ∧ 3 ≤ g.phase ∧ g.phase ≤ 5)
  let lost := c.lowSum p || decide (2 * cap ≤ ((c.inPort p 9).natAbs : Int))
  let g := { g with bad := if g.focusLock ∧ ¬coasting ∧ lost then g.bad + 1 else 0,
                    off := if g.state = lTracking ∧ ot < (te : Int) then g.off + 1 else 0 }
  if (g.state = lAcquire ∨ g.state = lRecover) ∧ g.phase = 2 then
    { g with good := if (fe : Int) * 4 < cap ∧ c.enoughLight p then g.good + 1 else 0 }
  else if g.closed ∧ g.state ≠ lTracking ∧ g.focusLock then { g with good := if (te : Int) * 2 < ot then g.good + 1 else 0 }
  else g

/-- Tracking while it is open: sign changes of TE, and where it closes (R342, R347). `locking`: this sign change is of the locking slope. -/
def Chip.openTrack (c : Chip) (p : Nat) (locking : Bool) (g : LoopProg) : LoopProg :=
  let flip : Bool := decide (g.te < 0) != decide (c.teErr p < 0)
  let pulling : Bool := decide (g.state = lPullIn ∨ g.state = lLayerJump ∧ g.phase = 7)
  if g.closed then g
  else if pulling then
    if flip then
      if c.cnt p 13 ≤ g.gap ∧ locking then { g with closed := true, fresh := true, good := 0, gap := 0, phase := if g.state = lPullIn then 1 else 8 }
      else { g with gap := 0 }
    else { g with gap := g.gap + 1 }
  else if g.state = lJump then
    let g : LoopProg := { g with cycles := if flip then g.cycles + 1 else g.cycles }
    let n : Nat := (signedOf 8 ((g.cmd.map (·.a)).getD 1)).natAbs
    if 1 ≤ g.phase ∧ 2 * n ≤ g.cycles ∧ flip then { g with closed := true, fresh := true, good := 0, phase := 3 }
    else if g.phase = 1 ∧ g.kick ≤ g.total then { g with phase := 2 }
    else { g with total := if g.phase = 1 then g.total + 1 else g.total }
  else if g.state = lHold then
    { g with tracking := match g.cmd with
                         | some r => if r.op = 0x0D then g.tracking + r.arg.toInt else g.tracking
                         | none => g.tracking }
  else g

/-- SPHERICAL: a ramp of a layer step, or SA of the believed layer (R350). -/
def Chip.sphericalOf (c : Chip) (p : Nat) (g : LoopProg) : Int :=
  let sa := fun l => c.par p (16 + l)
  let n : Int := max 1 (c.cnt p 12)
  let k : Int := min (c.cnt p 12) g.count
  let next := if g.layer < g.target then g.layer + 1 else g.layer - 1
  let last := if g.target < g.layer then g.layer + 1 else g.layer - 1
  if g.state = lSweep then 0
  else if g.state = lAcquire ∨ g.state = lRecover then c.par p (16 + g.target)
  else if g.state = lLayerJump ∧ g.phase = 2 then sa g.layer + rndDiv ((sa next - sa g.layer) * k) (2 * n)
  else if g.state = lLayerJump ∧ g.phase ≤ 5 then rndDiv (sa g.layer + sa next) 2
  else if g.state = lLayerJump ∧ g.phase = 6 then
    let from_ := if g.layer = g.target then (if g.kick < g.layer then g.layer - 1 else g.layer + 1) else last
    rndDiv (sa from_ + sa g.layer) 2 + rndDiv ((sa g.layer - sa from_) * k) (2 * n)
  else if g.layer ≤ 9 ∧ g.focusLock then sa g.layer
  else g.spherical

/-- READ_POWER on the believed layer (R351). -/
def Chip.readPowerOf (c : Chip) (p : Nat) (g : LoopProg) : Int :=
  if g.layer ≤ 9 ∧ g.focusLock then
    min (c.par p 15) (mulQ (mulQ (c.par p (26 + g.layer)) (oneQ + g.trim)) (oneQ + if g.retry = 1 then c.par p 3 else 0))
  else if g.state = lRecover ∧ g.target ≤ 9 then c.par p (26 + g.target)
  else g.readPower

/-- The TILT target (R352). -/
def Chip.tiltTarget (c : Chip) (p : Nat) (g : LoopProg) : Int :=
  let l := if g.state = lAcquire ∨ g.state = lRecover then g.target else g.layer
  c.par p (56 + min 15 (c.fld (LE_REGION_BAND p))) + if l ≤ 9 then c.par p (72 + l) else 0

/-- Averages of the calibration commands (Table 14.2). -/
def Chip.calSums (c : Chip) (p : Nat) (g : LoopProg) : LoopProg :=
  let bl := (List.range 8).foldl (fun a k => a + c.inPort p (15 + k)) 0
  match g.cmd with
  | some r =>
    if r.op = 0x0A ∧ 40 ≤ g.count ∧ g.count < 40 + 16 * r.a then { g with acc0 := g.acc0 + bl, acc1 := g.acc1 + 8 * c.inPort p 6 }
    else if r.op = 0x0E ∧ g.count < 16 * r.a then { g with acc0 := g.acc0 + 8 * g.trim, acc1 := g.acc1 + bl }
    else g
  | none => g

/-- FOCUS and TRACKING set-points: what the loop laws give is left open (log entry 32), but for the first closed output and kicks. -/
def Chip.loopOutputs (c : Chip) (p : Nat) (g : LoopProg) : (Int × Int) × Chip :=
  let d0 := c.draw
  let d1 := d0.2.draw
  let free := fun (w : Word) => (BitVec.setWidth 32 w).toInt
  let deeper : Int := if g.target < g.layer then 1 else -1
  let focusClosed := g.focusLock || ((g.state == lAcquire || g.state == lRecover) && g.phase == 2)
  let focus :=
    if g.state = lLayerJump ∧ g.phase = 3 then g.focus + deeper * c.par p 10
    else if g.state = lLayerJump ∧ g.phase = 4 then g.focus
    else if g.state = lLayerJump ∧ g.phase = 5 then g.focus - deeper * c.par p 10
    else if focusClosed ∧ ¬(g.fresh ∧ g.phase = 2) then free d0.1 else g.focus
  let n := signedOf 8 ((g.cmd.map (·.a)).getD 1)
  let out : Int := if 0 < n then 1 else -1
  let track :=
    if g.state = lJump ∧ g.phase = 0 then g.tracking + out * c.par p 83
    else if g.state = lJump ∧ g.phase = 1 then g.tracking - out * c.par p 83
    else if g.closed ∧ g.focusLock then (if g.fresh then g.tracking else free d1.1)
    else g.tracking
  ((focus, track), d1.2)

/-- The EVENT word (Table 8.2). -/
def LoopProg.eventWord (g : LoopProg) : Nat :=
  g.state + 16 * g.layer + 2 ^ 8 * g.focusLock.toNat + 2 ^ 9 * g.trackLock.toNat + 2 ^ 10 * g.offtrack.toNat + 2 ^ 11 * g.focusLost.toNat +
    2 ^ 12 * g.trackLost.toNat + 2 ^ 13 * g.result + 2 ^ 16 * g.seq + 2 ^ 24 * g.retry + 2 ^ 26 * g.safe.toNat + 2 ^ 27 * g.busy.toNat

/-- What the resident loop program does in the period that commits. -/
def Chip.loopPeriod (c : Chip) (p : Nat) : Chip :=
  let cmd := (c.pair p).cmd
  let c := c.updLoop p fun g => { g with safe := (c.pair p).entry == 1 }
  let op := cmd.1.toNat % 256
  let c := if 65536 ≤ cmd.1.toNat then c.updLoop p LoopProg.refuse else c.loopCommand p op (cmd.1.toNat / 256) cmd.2
  let d := c.draw
  let c := d.2
  let g := c.loop p
  let g := c.openTrack p (d.1.getLsbD 0) (c.lockTests p (c.openFocus p { g with count := g.count + 1 }))
  let crossed := (g.fe < 0) ≠ (c.inPort p 9 < 0) ∧ c.enoughLight p
  let step := signedOf 16 (d.1 >>> 16).toNat
  let g := { g with crossed := crossed, fe := c.inPort p 9, te := c.teErr p,
                    trim := if c.lowSum p ∨ !g.trackLock then g.trim else limit (-(oneQ / 10)) (oneQ / 10) (g.trim + step) }
  let g := c.calSums p g
  let g := { g with spherical := c.sphericalOf p g, readPower := c.readPowerOf p g, tilt := toward g.tilt (c.tiltTarget p g) (c.par p 82) }
  let g := { g with offtrack := g.state != lTracking || !g.trackLock || !g.focusLock || c.lowSum p || decide (c.par p 4 < ((c.teErr p).natAbs : Int)) }
  let r := c.loopOutputs p g
  let c := r.2
  let keep := g.state = lLayerJump ∧ 3 ≤ g.phase ∧ g.phase ≤ 5 ∨ g.state = lJump ∧ g.phase ≤ 1
  let c := c.setLoop p { g with focus := if keep then g.focus else r.1.1, tracking := if keep then g.tracking else r.1.2, fresh := false, focusLost := false,
                                trackLost := false }
  let outs := [qWord r.1.1, qWord r.1.2, qWord g.tilt, qWord g.spherical, qWord g.readPower,
    BitVec.ofNat 32 (g.readOn.toNat + 2 * g.actEn.toNat), BitVec.ofNat 32 g.offtrack.toNat, BitVec.ofNat 32 g.eventWord, g.trace0, g.trace1]
  let c := (List.range 10).foldl (fun c k => c.residentOut p k (outs.getD k 0)) c
  c.setFld (WMM_STN_PU_SERVO (p / 2) (p % 2)) g.eventWord

/-! ### Events -/

/-- A sweep has reached its end: eleven S-curves are a record; FOCUS returns (R339). -/
def execSweepEnd (p : Pickup) (s : State) : Out := s.on fun c =>
  let g := c.loop p
  c.when (g.state == lSweep && g.phase == 1 && decide (c.par p 8 ≤ g.focus)) fun c =>
    let cap := c.par p 6
    let last := match g.curve with
      | some (hi, lo, some at_) => if cap ≤ hi ∧ lo ≤ -cap then [at_] else []
      | _ => []
    let all := g.curves ++ last
    c.setLoop p { g with phase := 2, curve := none, curves := [], positions := if all.length = 11 then all else [] }

/-- FE has changed sign with enough light: an acquisition closes, or a coast ends in its brake (R340, R350). -/
def execFocusCapture (p : Pickup) (s : State) : Out := s.on fun c =>
  let g := c.loop p
  if !g.crossed then c
  else if (g.state = lAcquire ∨ g.state = lRecover) ∧ g.phase = 1 then c.setLoop p { g with phase := 2, count := 0, good := 0, fresh := true }
  else if g.state = lLayerJump ∧ g.phase = 4 then c.setLoop p { g with phase := 5, count := 0 }
  else c

/-- Focus lock is declared (R340). -/
def execFocusLock (p : Pickup) (s : State) : Out := s.on fun c =>
  let g := c.loop p
  c.when ((g.state == lAcquire || g.state == lRecover) && g.phase == 2 && decide (40 ≤ g.good)) fun c =>
    let g := { g.believe g.target with focusLock := true, state := lFocused, phase := 0, count := 0, good := 0, bad := 0, closed := false }
    (c.setLoop p (if g.cmd.isSome then g.endCmd 1 else g)).regionLayer p

/-- A focus loss is declared (R341). -/
def execFocusLost (p : Pickup) (s : State) : Out := s.on fun c =>
  let g := c.loop p
  c.when (g.focusLock && decide (4 ≤ g.bad)) fun c => c.focusLoss p

/-- Tracking lock (R342, R347, R350): a running PULL_IN, JUMP, LAYER or CAL_TSENS ends with DONE. -/
def execTrackingLock (p : Pickup) (s : State) : Out := s.on fun c =>
  let g := c.loop p
  let closing := g.state == lPullIn || g.state == lJump && g.phase == 3 || g.state == lLayerJump && g.phase == 8
  c.when (closing && g.closed && decide (40 ≤ g.good)) fun c =>
    let check := g.ownPull || g.cmd.any (fun r => r.op == 0x03 || r.op == 0x05)
    let g := if g.cmd.any (fun r => r.op == 0x0D) then { g with trace0 := BitVec.ofInt 32 g.acc0, trace1 := 0 } else g
    let g := { g with state := lTracking, trackLock := true, phase := 0, count := 0, good := 0, off := 0, ownPull := false }
    let c := c.setLoop p (if g.cmd.isSome then g.endCmd 1 else g)
    c.setSeqr p { c.seqr p with checkDue := (c.seqr p).checkDue || check }

/-- A tracking loss is declared (R345). -/
def execTrackLost (p : Pickup) (s : State) : Out := s.on fun c =>
  let g := c.loop p
  c.when (g.state == lTracking && decide (40 ≤ g.off)) fun c => c.trackLoss p

/-- A pull-in has failed: one of the program's own after a loss counts as a focus loss; else tracking is held. -/
def Chip.pullFail (c : Chip) (p : Nat) : Chip :=
  let g := c.loop p
  if g.ownPull then c.focusLoss p
  else c.setLoop p { g.failCmd with state := lHold, closed := false, trackLock := false, phase := 0, count := 0 }

/-- A budget of periods is used up (R340, R342, R347, R350). A jump's budget runs to the closing of tracking, with the 40 periods of the lock test
after it (log entry 33). -/
def execLoopCommandTimeout (p : Pickup) (s : State) : Out := s.on fun c =>
  let g := c.loop p
  let n := (signedOf 8 ((g.cmd.map (·.a)).getD 1)).natAbs
  if (g.state = lAcquire ∨ g.state = lRecover) ∧ g.phase = 1 then
    if g.posOf g.target + 40 * c.par p 7 ≤ g.focus then c.setLoop p { g.failCmd with phase := 3, count := 0 } else c
  else if g.state = lPullIn ∧ 2000 ≤ g.count ∧ !g.trackLock then c.pullFail p
  else if g.state = lJump ∧ 20 + 4 * n + (if g.phase = 3 then 40 else 0) ≤ g.count then
    c.setLoop p { g.failCmd with state := lPullIn, closed := false, phase := 0, count := 0, good := 0, gap := 0 }
  else if g.state = lLayerJump ∧ g.phase = 4 ∧ 200 ≤ g.count then c.focusLoss p
  else if g.state = lLayerJump ∧ 7 ≤ g.phase ∧ 2000 ≤ g.count then c.pullFail p
  else c

/-- Half the cycles of a jump have passed: the brake lasts as long as the kick did (R347). -/
def execJumpBrake (p : Pickup) (s : State) : Out := s.on fun c =>
  let g := c.loop p
  let n := (signedOf 8 ((g.cmd.map (·.a)).getD 1)).natAbs
  c.when (g.state == lJump && g.phase == 0 && decide (n / 2 ≤ g.cycles / 2)) fun c => c.setLoop p { g with phase := 1, kick := g.count, total := 0 }

/-- A phase of a layer step ends (Table 8.6). `kick` keeps the layer that a step comes from. -/
def execLayerStepPhase (p : Pickup) (s : State) : Out := s.on fun c =>
  let g := c.loop p
  if g.state ≠ lLayerJump then c
  else if g.phase = 2 ∧ c.cnt p 12 ≤ g.count then c.setLoop p { g with phase := 3, count := 0 }
  else if g.phase = 3 ∧ c.cnt p 11 ≤ g.count then c.setLoop p { g with phase := 4, count := 0 }
  else if g.phase = 5 ∧ c.cnt p 11 ≤ g.count then
    let next := if g.layer < g.target then g.layer + 1 else g.layer - 1
    let c := c.setLoop p { g.believe next with phase := 6, count := 0, kick := g.layer, fresh := true, bad := 0 }
    (c.inc (WMM_STN_LAYER_JUMPS_COUNT (p / 2))).regionLayer p
  else if g.phase = 6 ∧ c.cnt p 12 ≤ g.count then
    if g.layer = g.target then c.setLoop p { g with phase := 7, count := 0, gap := 0, closed := false, good := 0 }
    else c.setLoop p { g with phase := 2, count := 0 }
  else c

/-- UNMOUNTs that wait for the RETRACT of their pickup complete (R364). -/
def Chip.retractDone (c : Chip) (p : Nat) : Chip :=
  (c.host.cmds.filter (fun m => m.opcode == opUnmount && m.volume == p && m.wait == .station && m.ended.isSome && m.status.isNone &&
    !((c.stn (p / 2)).waiters.contains m.uid))).foldl (fun c m => c.finishS m.uid (m.ended.getD stOk)) c

/-- FOCUS has reached RETRACT_POS: RETRACT ends, a sweep ends, a failed acquisition leaves RETRACTED. -/
def execRetractReached (p : Pickup) (s : State) : Out := s.on fun c =>
  let g := c.loop p
  if g.focus ≠ c.retractPos p then c
  else if g.state = lRetract then
    let off := g.cmd.any (fun r => r.a == 1)
    let g := g.endCmd 1
    (c.setLoop p (if off then { g with state := lOff, readOn := false, actEn := false } else { g with state := lRetracted })).retractDone p
  else if g.state = lSweep ∧ g.phase = 2 then
    let bad := g.positions.length ≠ 11
    let c := c.setLoop p { g.endCmd (if bad then 2 else 1) with state := lRetracted }
    if bad ∧ (c.seqr p).recovering then c.park (p / 2) cauServoLost else c
  else if (g.state = lAcquire ∨ g.state = lRecover) ∧ g.phase = 3 then c.setLoop p { g with state := lRetracted }
  else c

/-- The excitation of a calibration command ends (R575); CAL_TSENS then pulls in. -/
def execCalCommandDone (p : Pickup) (r0 r1 : Q) (s : State) : Out := s.on fun c =>
  let g := c.loop p
  match g.cmd with
  | none => c
  | some r =>
    let done := fun (a b : Q) => c.setLoop p { g.endCmd 1 with trace0 := a, trace1 := b }
    let mean := fun (x : Int) => qWord (rndDiv x (8 * 16 * (max 1 r.a : Nat)))
    if r.op = 0x0A ∧ 40 + 16 * r.a ≤ g.count ∨ r.op = 0x0E ∧ 16 * r.a ≤ g.count then done (mean g.acc0) (mean g.acc1)
    else if (r.op = 0x0B ∨ r.op = 0x0C) ∧ 40000 ≤ g.count * r.a then done r0 r1
    else if r.op = 0x0D ∧ g.state = lHold then
      c.setLoop p { g with state := lPullIn, phase := 0, count := 0, gap := 0, closed := false, acc0 := r0.toInt }
    else c

/-! ### The channel sequencer (R343, R346, R349) -/

/-- The sequencer writes LE_REGION.BAND from the zone under the pickup (R321). -/
def Chip.regionBandAt (c : Chip) (p pba : Nat) : Chip :=
  let b := entryZone (pbaSlot pba) / 4
  (c.setFld (LE_REGION_BAND p) b).enterBand p b

/-- The sequencer's address check after a pull-in. -/
def Chip.positionCheck (c : Chip) (p pba : Nat) : Chip :=
  let c := c.regionBandAt p pba
  let q := c.seqr p
  let g := c.loop p
  let fix := fun (c : Chip) (push : Chip → Chip) =>
    if 4 ≤ q.corrections then (c.setSeqr p { q with corrections := 0 }).trackLoss p
    else push (c.setSeqr p { q with corrections := q.corrections + 1 })
  let goal := if q.intended ≤ 9 then q.intended else g.layer
  let f := pbaFurrow pba
  if pbaLayer pba ≠ g.layer then fix c fun c => (c.loopCmd p 0x09 (pbaLayer pba)).loopCmd p 0x05 goal
  else if f ≠ 0 then fix c fun c => c.loopCmd p 0x04 (bitsOfInt 8 (if f ≤ 4 then -(f : Int) else 8 - f))
  else if g.layer ≠ goal then fix c fun c => c.loopCmd p 0x05 goal
  else (c.setSeqr p { q with checkDue := false, corrections := 0, recovering := false }).landAll p

def execPositionCheck (p : Pickup) (pba : BitVec 40) (s : State) : Out := s.on fun c =>
  c.when ((c.seqr p).checkDue && (c.loop p).state == lTracking) fun c => c.positionCheck p pba.toNat

/-- Which way the bundle has slipped: two lanes in one slot, or one lane in two consecutive slots, report the same direction. -/
def slipDir (xs : List (Nat × Nat × Int)) : Option Int :=
  (xs.find? (fun a => xs.any (fun b => a.2.2 == b.2.2 && (a.1 == b.1 && a.2.1 != b.2.1 || a.1 == b.1 + 1 && a.2.1 == b.2.1)))).map (·.2.2)

def execSlip (p : Pickup) (s : State) : Out := s.on fun c =>
  let q := c.seqr p
  match slipDir q.slips with
  | none => c
  | some d =>
    let c := (c.setSeqr p { q with slips := [] }).loopCmd p 0x04 (bitsOfInt 8 (-d))
    ((c.inc (WMM_STN_SLIPS_COUNT (p.val / 2))).mark (WMM_STN_EVENT_SLIP (p.val / 2))).landAll p

/-- Bundle turns from one slot's radius to another's (R349). -/
def seekTurns (target at_ : Nat) : Int := rndDiv ((slotRadius (target - 8) : Int) - slotRadius at_) 19200

/-- SEEK_FAIL: the seek starts again; the second in one seek counts as a focus loss. -/
def Chip.seekFail (c : Chip) (p : Nat) (k : SeekRec) : Chip :=
  let s := p / 2
  let c := (c.mark (WMM_STN_EVENT_SEEK_FAIL s)).inc (WMM_STN_SEEK_RETRIES_COUNT s)
  if 1 ≤ k.fails then (c.setSeqr p { c.seqr p with seek := none }).focusLoss p
  else c.setSeqr p { c.seqr p with seek := some { k with moves := 0, fails := k.fails + 1, step := 1 } }

/-- The next step of a seek (Table 8.5). -/
def Chip.seekStep (c : Chip) (p target at_ : Nat) (passed : Bool) : Chip :=
  let c := c.regionBandAt p at_
  let q := c.seqr p
  let fresh := !(q.seek.any (fun k => k.target == target))
  let k : SeekRec := if fresh then { target := target } else q.seek.getD { target := target }
  let c := if fresh then c.inc (WMM_STN_SEEKS_COUNT (p / 2)) else c
  let put := fun (c : Chip) (k : SeekRec) => c.setSeqr p { c.seqr p with seek := some k }
  let g := c.loop p
  if k.step = 3 then
    let c := put c { k with step := 2 }
    (c.setSeqr p { c.seqr p with checkDue := true }).loopCmd p 0x03 0
  else if pbaLayer target ≠ g.layer then
    let c := put c { k with step := 2 }
    (c.setSeqr p { c.seqr p with intended := pbaLayer target, checkDue := true }).loopCmd p 0x05 (pbaLayer target)
  else
    let n := seekTurns (pbaSlot target) (pbaSlot at_)
    if n = 0 then
      if passed then (put c { k with step := 2 }).loopCmd p 0x04 (bitsOfInt 8 (-8))
      else (c.setSeqr p { c.seqr p with seek := none, intended := pbaLayer target }).landAll p
    else if 4 ≤ k.moves then c.seekFail p k
    else if 8 ≤ n.natAbs then
      let c := (put c { k with moves := k.moves + 1, step := 3 }).loopCmd p 0x06 0
      c.setInt (MOT_AX_TARGET_TARGET p) (c.int (MOT_AX_TARGET_TARGET p) + 1920 * n)
    else (put c { k with moves := k.moves + 1, step := 2 }).loopCmd p 0x04 (bitsOfInt 8 (8 * n))

def execSeek (p : Pickup) (target at_ : BitVec 40) (passed : Bool) (s : State) : Out := s.on fun c =>
  c.when ((c.loop p).cmd.isNone && (c.loop p).focusLock && (!(c.seqr p).checkDue || (c.seqr p).seek.any (fun k => k.step == 3))) fun c =>
    c.seekStep p target.toNat at_.toNat passed

end Sys2Proof.Machine
end

