-- ==== Sys2Proof/Machine/Motion.lean ====
section
/-! DEFINITION. The resident motion program (R375 to R381, R385 to R395, R400 to R407, R410 to R412): commands, observer and commutation, spindle
states, motion tables and their limits, homing and stops. Commands are delivered at a motion tick or by their own rows; counters, set-points and
outputs move at each committed period; the rows of events act where the counters have come to them. -/

namespace Sys2Proof.Machine

def mStopped : Nat := 0
def mMeasure : Nat := 1
def mAlign : Nat := 2
def mRamp : Nat := 3
def mRun : Nat := 4
def mBrake : Nat := 5
def mShort : Nat := 6
def mCoast : Nat := 7

/-! ### Numbers -/

/-- π × 2^60. -/
def pi60 : Int := 3622009729038561421

/-- Terms of the cosine series from term `t` on, with `y` = x² (all × 2^60). -/
def cosSum (y : Int) : Nat → Nat → Int → Int
  | 0, _, t => t
  | n + 1, k, t => t + cosSum y n (k + 1) (-(rndDiv (t * y) (2 ^ 60 * ((2 * k + 1) * (2 * k + 2) : Nat))))

/-- Cosine of an angle in half-turns, both in Q3.28, rounded to nearest (log entry 34). -/
def cosQ (a : Int) : Int :=
  let r := (a % 2 ^ 29).toNat
  let h : Nat := if r ≤ 2 ^ 28 then r else 2 ^ 29 - r
  let m : Nat := if h ≤ 2 ^ 27 then h else 2 ^ 28 - h
  let x : Int := rndShift ((m : Int) * pi60) 28
  let v := rndShift (cosSum (rndShift (x * x) 60) 14 0 (2 ^ 60)) 32
  if h ≤ 2 ^ 27 then v else -v

/-- Sine, in the same way. -/
def sinQ (a : Int) : Int := cosQ (a - 2 ^ 27)

/-- A quotient of Q3.28 numbers, the divisor not 0. -/
def divQ (x y : Int) : Int := (qWord (rndDiv (x * 2 ^ 28) y)).toInt

/-- √3 in Q3.28. -/
def sqrt3Q : Int := 464943848

/-- An angle kept in −1 to 1. -/
def wrapAngle (a : Int) : Int := (a + 2 ^ 28) % 2 ^ 29 - 2 ^ 28

/-! ### The program's data -/

def MotionProg.axis (g : MotionProg) (d : Nat) : AxisProg := if d = 0 then g.u else g.l
def MotionProg.setAxis (g : MotionProg) (d : Nat) (x : AxisProg) : MotionProg := if d = 0 then { g with u := x } else { g with l := x }

def Chip.updMotion (c : Chip) (s : Nat) (f : MotionProg → MotionProg) : Chip := c.setMotion s (f (c.motion s))
def Chip.updAxis (c : Chip) (s d : Nat) (f : AxisProg → AxisProg) : Chip := c.updMotion s fun g => g.setAxis d (f (g.axis d))

/-- Parameter word `i` of axis `d` (Table 9.6): 0 VMAX, 1 AMAX, 2 DMAX, 3 JMAX, 4 EDEC, 5 HOME_VEL, 6 IRUN, 7 IHOLD. -/
def Chip.axPar (c : Chip) (s d i : Nat) : Int := c.par (16 + s) (8 * d + i)

/-- A bit of LIMITS (Table 9.3) as latched for the period. -/
def Chip.limitsBit (c : Chip) (s k : Nat) : Bool := (Cells.get (fun _ => 0) (c.pair (16 + s)).inputs 11 : Q).getLsbD k

/-- The tachometer as the program sees it: below 30 rpm; its speed. -/
def Chip.seesStop (c : Chip) (s : Nat) : Bool := !c.limitsBit s 9
def Chip.seesRpm (c : Chip) (s : Nat) : Nat := (Cells.get (fun _ => 0) (c.pair (16 + s)).inputs 11 : Q).toNat / 65536

/-- A pulse bit of the EVENT word (Table 9.5). -/
def Chip.pulse (c : Chip) (s k : Nat) : Chip := c.updMotion s fun g => { g with pulses := g.pulses ||| 2 ^ k }

/-! ### Ends of commands (R377) -/

/-- A spindle command ends with a result. -/
def MotionProg.endSpindle (g : MotionProg) (r : Nat) : MotionProg :=
  { g with result := r, seq := (g.seq + 1) % 64, spin := none, braking := false }

/-- A running SPIN or BRAKE ends with FAIL. -/
def Chip.failSpindle (c : Chip) (s : Nat) : Chip :=
  let g := c.motion s
  if g.spin.isSome then (c.setMotion s (g.endSpindle 2)).mark (SPN_EVENT_SPIN_FAIL s)
  else if g.braking then c.setMotion s (g.endSpindle 2) else c

/-- A spindle command is REFUSED; a running one goes on. -/
def Chip.refuseSpindle (c : Chip) (s : Nat) : Chip := c.updMotion s fun g => { g with result := 3, seq := (g.seq + 1) % 64 }

/-- A sled command of the axes in `ds` ends with a result. -/
def Chip.endSled (c : Chip) (s : Nat) (ds : List Nat) (r : Nat) : Chip :=
  let c := ds.foldl (fun c d => c.updAxis s d fun x => { x with result := r }) c
  c.updMotion s fun g => { g with seq := (g.seq + 1) % 64 }

/-- The HOME that an axis belongs to ends: with DONE once no axis of it is still homing, with FAIL at once (R395). -/
def Chip.endHome (c : Chip) (s d : Nat) (ok : Bool) : Chip :=
  let g := c.motion s
  match (g.axis d).running with
  | none => c
  | some a =>
    let ds := [0, 1].filter (fun k => a.testBit k && (g.axis k).running == some a)
    if ok then
      if ds.any (fun k => (g.axis k).state == 2) then c
      else (ds.foldl (fun c k => c.updAxis s k fun x => { x with running := none }) c).endSled s ds 1
    else (ds.foldl (fun c k => c.updAxis s k fun x => { x with running := none }) c).endSled s ds 2

/-! ### Commands (Table 9.4) -/

/-- Align-and-go starts (R403). -/
def Chip.startAlign (c : Chip) (s : Nat) : Chip :=
  let c := c.updMotion s fun g =>
    { g with spn := mAlign, count := 0, attempts := g.attempts + 1, good := 0, bad := 0, weak := 0, near := 0, far := 0, catching := false,
             starting := false, spinup := true, reverse := (g.spin.map (·.2)).getD g.reverse }
  c.inc (SPN_STARTS_COUNT s)

def speedQ (k : Nat) : Int := rndDiv ((if k = 1 then 42 else 84) * 2 ^ 28) 100

/-- SPIN (R403, R405). -/
def Chip.spinCommand (c : Chip) (s a : Nat) : Chip :=
  let g := c.motion s
  let k := a % 4
  let back := a.testBit 2
  let driven := decide (g.spn = mAlign ∨ g.spn = mRamp ∨ g.spn = mRun)
  if 8 ≤ a ∨ k = 0 ∨ k = 3 then c.refuseSpindle s
  else if driven ∧ back != g.reverse then (c.refuseSpindle s).pulse s 27
  else if g.spin.isSome ∨ g.braking then c.refuseSpindle s
  else if c.limitsBit s 6 then ((c.setMotion s { g with spin := some (k, back) }).failSpindle s)
  else
    let g := { g with spin := some (k, back), target := k, result := 0, attempts := 0 }
    if g.spn = mRun then
      if g.atSpeed ∧ k = (c.motion s).target then c.setMotion s (g.endSpindle 1) else c.setMotion s { g with near := 0 }
    else if c.seesStop s then (c.setMotion s g).startAlign s
    else c.setMotion s { g with spn := mMeasure, count := 0, catching := false }

/-- BRAKE (R407). -/
def Chip.brakeCommand (c : Chip) (s a : Nat) : Chip :=
  if a ≠ 0 ∨ (c.motion s).braking then c.refuseSpindle s
  else
    let c := c.failSpindle s
    let g := { c.motion s with braking := true, result := 0 }
    if c.limitsBit s 6 then (c.setMotion s g).failSpindle s
    else c.setMotion s { g with spn := if g.spn = mRun then mBrake else mShort, atSpeed := false, catching := false, count := 0 }

/-- COAST. -/
def Chip.coastCommand (c : Chip) (s a : Nat) : Chip :=
  if a ≠ 0 then c.refuseSpindle s
  else
    let c := c.failSpindle s
    let g := c.motion s
    c.setMotion s { g.endSpindle (if c.limitsBit s 6 then 2 else 1) with spn := mCoast, atSpeed := false, catching := false, count := 0 }

/-- HOME, FOLLOW and SLED_OFF. -/
def Chip.sledCommand (c : Chip) (s op a : Nat) : Chip :=
  let g := c.motion s
  let ds := [0, 1].filter (fun d => a.testBit d)
  let busy := ds.any (fun d => (g.axis d).running.isSome)
  if busy ∨ (if op = 0x05 then 8 else 4) ≤ a then c.endSled s ds 3
  else if op = 0x04 then
    if ds = [] then c.endSled s ds 1
    else ds.foldl (fun c d => c.updAxis s d fun x =>
      { x with state := 2, homing := if c.limitsBit s (2 * d) then 2 else 1, travel := 0, running := some a, result := 0, on := true, follow := false,
               ramp := false }) c
  else if op = 0x05 then
    let on := a.testBit 2
    let c := ds.foldl (fun c d =>
      let c := c.updAxis s d fun x =>
        { x with follow := on, on := x.on || on, planned := if on then x.planned else x.inner,
                 inner := if on then c.inPort (16 + s) (12 + d) else x.inner }
      c.setFlag (MOT_AX_STATUS_FOLLOW (2 * s + d)) on) c
    c.endSled s ds 1
  else if ds.any (fun d => (g.axis d).state != 0) then c.endSled s ds 3
  else (ds.foldl (fun c d => c.updAxis s d fun x => { x with on := false, follow := false }) c).endSled s ds 1

/-- A command word is delivered to the program (R376, R377). -/
def Chip.motionCommand (c : Chip) (s op a : Nat) : Chip :=
  match op with
  | 0x00 => c
  | 0x01 => c.spinCommand s a
  | 0x02 => c.brakeCommand s a
  | 0x03 => c.coastCommand s a
  | 0x04 | 0x05 | 0x06 => c.sledCommand s op a
  | _ => c.updMotion s fun g => { g with seq := (g.seq + 1) % 64 }

/-- A command row: the pair runs its resident program. -/
def Chip.motionRuns (c : Chip) (s : Nat) : Bool := c.flag (LE_PAIR_CTRL_RUN (16 + s)) && (c.pair (16 + s)).resident

def execMotionNone (x : Station) (s : State) : Out := s.on fun c => c.when (c.motionRuns x) fun c => c.motionCommand x 0x00 0
def execSpin (x : Station) (a : Byte) (s : State) : Out := s.on fun c => c.when (c.motionRuns x) fun c => c.motionCommand x 0x01 a.toNat
def execBrake (x : Station) (s : State) : Out := s.on fun c => c.when (c.motionRuns x) fun c => c.motionCommand x 0x02 0
def execCoast (x : Station) (s : State) : Out := s.on fun c => c.when (c.motionRuns x) fun c => c.motionCommand x 0x03 0
def execHomeAxes (x : Station) (a : Byte) (s : State) : Out := s.on fun c => c.when (c.motionRuns x) fun c => c.motionCommand x 0x04 a.toNat
def execFollow (x : Station) (a : Byte) (s : State) : Out := s.on fun c => c.when (c.motionRuns x) fun c => c.motionCommand x 0x05 a.toNat
def execSledOff (x : Station) (a : Byte) (s : State) : Out := s.on fun c => c.when (c.motionRuns x) fun c => c.motionCommand x 0x06 a.toNat

/-! ### Observer and spindle (R400 to R407) -/

/-- The ACTIVE engine's coefficient of the bank in force. -/
def Chip.motionCoef (c : Chip) (s k : Nat) : Int :=
  match c.activeEng (16 + s) with
  | some e => (c.tolek e).coefInt k
  | none => 0

/-- The observer of a period; a catch window runs it with zero current. -/
def Chip.observe (c : Chip) (s : Nat) (g : MotionProg) : MotionProg × Int :=
  let i := fun k => c.inPort (16 + s) k
  let q := 16 + s
  let va := rndDiv (2 * i 3 - i 4 - i 5) 3
  let vb := divQ (i 4 - i 5) sqrt3Q
  let ia := if g.catching then 0 else i 0
  let ib := if g.catching then 0 else divQ (i 0 + 2 * i 1) sqrt3Q
  let ea := va - mulQ (c.par q 18) ia - mulQ (c.par q 19) (ia - g.ia)
  let eb := vb - mulQ (c.par q 18) ib - mulQ (c.par q 19) (ib - g.ib)
  let mag : Int := isqrtNear (ea.natAbs * ea.natAbs + eb.natAbs * eb.natAbs)
  let err := divQ (-(mulQ ea (cosQ g.th)) - mulQ eb (sinQ g.th)) (max mag (2 ^ 18))
  let w := g.w + mulQ (c.motionCoef s Config.kwIndex) err
  let th := wrapAngle (g.th + rndDiv (w * c.cnt q 17) 60 + mulQ (c.motionCoef s Config.kthIndex) err)
  ({ g with ia := ia, ib := ib, err := err, w := w, th := th }, mag)

/-- Periods in a row of the lock and loss rules (R401) and of the speed rules (R404). -/
def Chip.countPeriod (c : Chip) (s : Nat) (r : MotionProg × Int) : MotionProg :=
  let q := 16 + s
  let g := r.1
  let speed : Int := g.w.natAbs
  let emf := mulQ (c.par q 20) speed
  let e : Int := g.err.natAbs
  let goal := speedQ g.target
  let off : Int := (speed - goal).natAbs
  let lock := decide (e < c.par q 24 ∧ 2 * ((r.2 - emf).natAbs : Int) ≤ emf ∧ rndDiv (3 * 2 ^ 28) 100 ≤ speed)
  let run := decide (g.spn = mRun)
  { g with good := if lock ∧ (g.catching ∨ g.spn = mRamp) then g.good + 1 else 0,
           bad := if (run ∨ g.spn = mBrake) ∧ c.par q 25 < e then g.bad + 1 else 0,
           weak := if (run ∨ g.spn = mBrake) ∧ 4 * r.2 < emf then g.weak + 1 else 0,
           near := if run ∧ 500 * off ≤ goal then g.near + 1 else 0,
           far := if run ∧ goal < 200 * off then g.far + 1 else 0 }

/-- The phase advance at a speed (R402, Table 9.9). -/
def Chip.advance (c : Chip) (s : Nat) (speed : Int) : Int :=
  let x := (rndDiv (speed * 100) 3).toNat
  let i := min 31 (x / 2 ^ 28)
  let f : Int := if i = 31 then 0 else (x % 2 ^ 28 : Nat)
  let at_ := fun k => c.par (16 + s) (32 + k)
  at_ i + mulQ (at_ (i + 1) - at_ i) f

/-- Whether the program presents the drive (mode 1), a short-brake (2) or nothing (0). -/
def MotionProg.mode (g : MotionProg) : Nat :=
  if g.spn = mAlign ∨ g.spn = mRamp ∨ g.spn = mRun ∨ g.spn = mBrake then 1 else if g.spn = mShort then 2 else 0

/-- DU, DV, DW. What the speed law, the current law and the forced angle give is left open (log entry 32). -/
def Chip.drive (c : Chip) (s : Nat) (g : MotionProg) : List Int × Chip :=
  let a := c.draw
  let b := a.2.draw
  let d := b.2.draw
  let free := fun (w : Word) => limit (-oneQ) oneQ (BitVec.setWidth 32 w).toInt
  if g.spn = mRun then
    let m := limit 0 oneQ (BitVec.setWidth 32 a.1).toInt
    let lead := 2 ^ 27 + c.advance s g.w.natAbs
    let td := g.th + if g.reverse then -lead else lead
    let third : Int := rndDiv (2 * 2 ^ 28) 3
    ([mulQ m (cosQ td), mulQ m (cosQ (td - third)), mulQ m (cosQ (td + third))], d.2)
  else if g.mode = 1 then ([free a.1, free b.1, free d.1], d.2)
  else ([0, 0, 0], d.2)

/-- What follows from the speed: a brake that has come to 300 rpm goes on as a short-brake, and one below 30 rpm ends. -/
def Chip.spindleSpeed (c : Chip) (s : Nat) : Chip :=
  let g := c.motion s
  if g.spn = mBrake ∧ (g.w.natAbs : Int) < rndDiv (3 * 2 ^ 28) 100 then c.setMotion s { g with spn := mShort }
  else if (g.spn = mShort ∨ g.spn = mStopped) ∧ c.seesStop s then
    if g.braking then c.setMotion s { g.endSpindle 1 with spn := mStopped }
    else if g.spin.isSome then c.startAlign s
    else c.setMotion s { g with spn := mStopped }
  else c

/-- The spindle part of a period. -/
def Chip.spindlePeriod (c : Chip) (s : Nat) : Chip :=
  let g : MotionProg := c.motion s
  let g : MotionProg := { c.countPeriod s (c.observe s g) with count := g.count + 1 }
  let g : MotionProg := if g.safe ∧ g.spn = mRun then { g with spn := mBrake, atSpeed := false }
    else if g.safe ∧ (g.spn = mMeasure ∨ g.spn = mAlign ∨ g.spn = mRamp ∨ g.catching) then { g with spn := mShort, catching := false }
    else g
  let g : MotionProg := if g.spn = mRun then g else { g with atSpeed := false }
  let c := c.setMotion s g
  let c := if c.limitsBit s 6 then (c.failSpindle s).updMotion s fun g => { g with spn := mCoast, atSpeed := false, catching := false } else c
  c.spindleSpeed s

/-! ### Set-points of a table (R385) -/

/-- The cubic of a segment of N periods from (p0, v0) to (p1, v1): its coefficients M0, A, B for 2,000 × position, with s = k / N. -/
def segCubic (n p0 v0 p1 v1 : Int) : Int × Int × Int :=
  let m0 := n * v0
  let m1 := n * v1
  let d := 2000 * (p1 - p0)
  (m0, 3 * d - 2 * m0 - m1, m0 + m1 - 2 * d)

/-- Set-point position and velocity in period k. -/
def segAt (n p0 v0 p1 v1 k : Int) : Int × Int :=
  let r := segCubic n p0 v0 p1 v1
  (p0 + rndDiv (r.1 * k * n * n + r.2.1 * k * k * n + r.2.2 * k * k * k) (2000 * n * n * n),
   rndDiv (r.1 * n * n + 2 * r.2.1 * k * n + 3 * r.2.2 * k * k) (n * n * n))

/-- Acceleration at the two ends of a segment, × N² / 2,000. -/
def segEnds (n p0 v0 p1 v1 : Int) : Int × Int :=
  let r := segCubic n p0 v0 p1 v1
  (2 * r.2.1, 2 * r.2.1 + 6 * r.2.2)

/-- What the rounding of its ends to Q3.28 can add to a segment's accelerations, in the same units. -/
def segSlop (n : Int) : Int := 12000 + 3 * n

/-- A segment keeps within VMAX, AMAX, DMAX and JMAX, and does not turn round (R387, R388). -/
def segOk (lims : List Int) (n p0 v0 p1 v1 : Int) : Bool :=
  let vmax := lims.getD 0 0
  let amax := lims.getD 1 0
  let dmax := lims.getD 2 0
  let jmax := lims.getD 3 0
  let r := segCubic n p0 v0 p1 v1
  let e := segEnds n p0 v0 p1 v1
  let dir : Int := if v0 + v1 < 0 then -1 else 1
  let acc := fun (x : Int) => decide (2000 * (x * dir - segSlop n) ≤ amax * n * n ∧ 2000 * (-(x * dir) - segSlop n) ≤ dmax * n * n)
  let b3 := 3 * r.2.2
  let peak : Bool := e.1 * e.2 ≥ 0 ||
    (let top := (b3 * r.1 - r.2.1 * r.2.1) * (if b3 < 0 then -1 else 1)
     decide (((top.natAbs : Int) - (2 * segSlop n) * b3.natAbs ≤ vmax * n * b3.natAbs) ∧ -((2 * segSlop n) * (b3.natAbs : Int)) ≤ top * dir))
  decide (1 ≤ n ∧ n ≤ 65535) && decide (0 ≤ v0 * v1) && decide ((v0.natAbs : Int) ≤ vmax + 1 ∧ (v1.natAbs : Int) ≤ vmax + 1) &&
    acc e.1 && acc e.2 && peak && decide (400000 * (((6 * r.2.2).natAbs : Int) - 2 * segSlop n) ≤ jmax * n * n * n)

/-- The segments run from (p, v) with acceleration a, given × nPrev² / 2,000, to a stop at `goal` within the limits, without steps of
acceleration. -/
def planGo (lims : List Int) (goal : Int) : List Seg → Int → Int → Int → Int → Bool
  | [], p, v, _, _ => p == goal && v == 0
  | x :: xs, p, v, a, m =>
    let n : Int := x.n
    let e := segEnds n p v x.p x.v
    segOk lims n p v x.p x.v &&
      decide ((e.1 * m * m - a * n * n).natAbs ≤ (segSlop n * m * m + segSlop m * n * n).natAbs) &&
      planGo lims goal xs x.p x.v e.2 n

/-- A table that the planner may build (R385 to R388). -/
def planOk (lims : List Int) (goal p v a m : Int) (t : List Seg) : Bool :=
  decide (1 ≤ t.length ∧ t.length ≤ 256) && planGo lims goal t p v a m &&
    t.all (fun x => decide (-2 ^ 31 ≤ x.p ∧ x.p < 2 ^ 31 ∧ -2 ^ 31 ≤ x.v ∧ x.v < 2 ^ 31))

/-! ### Tables in the data memory -/

/-- A word of axis `d`'s table, as the ACTIVE engine holds it. -/
def Chip.tableWord (c : Chip) (s d i : Nat) : Q :=
  match c.activeEng (16 + s) with
  | some e => c.tData e (768 * d + i)
  | none => 0

def Chip.segment (c : Chip) (s d j : Nat) : Int × Int × Int :=
  if 256 ≤ j then (0, 0, 0)
  else (((c.tableWord s d (3 * j)).toNat : Int), (c.tableWord s d (3 * j + 1)).toInt, (c.tableWord s d (3 * j + 2)).toInt)

/-- Write a table into both engines; a segment with N = 0 ends it where it is short. -/
def Chip.putTable (c : Chip) (s d : Nat) (t : List Seg) : Chip :=
  let ws : List Q := (t.flatMap fun x => [BitVec.ofNat 32 x.n, BitVec.ofInt 32 x.p, BitVec.ofInt 32 x.v]) ++ (if t.length < 256 then [0] else [])
  [evenEng (16 + s), oddEng (16 + s)].foldl (fun c e =>
    let k := c.tolek e
    c.setTolek e { k with ctx := { k.ctx with data := Cells.putRun (fun _ => 0) k.ctx.data (768 * d) ws } }) c

/-- Acceleration of an axis, with the N that it is given for: × N² / 2,000. -/
def Chip.axisAcc (c : Chip) (s d : Nat) (x : AxisProg) : Int × Int :=
  let g := c.segment s d x.seg
  if (x.state = 1 ∨ x.state = 2 ∧ x.homing = 3) ∧ g.1 ≠ 0 then
    let e := segEnds g.1 x.p0 x.v0 g.2.1 g.2.2
    (e.1 + rndDiv ((e.2 - e.1) * x.k) g.1, g.1)
  else (0, 1)

/-! ### The planner (R386, R390) -/

/-- Distance, in m, that a stop from speed `v` (in 0.1 m/s) needs, with deceleration `d0` now, under DMAX `d` and JMAX `j`. -/
def stopDist (v d0 d j : Int) : Int :=
  let v := rndDiv v 10
  let jj := max 1 (100 * j)
  let phase := fun (q : Int) =>
    let e : Int := (q - d0).natAbs
    rndDiv (v * e) jj - rndDiv (d0 * e * e) (2 * jj * jj) - (if d0 ≤ q then 1 else -1) * rndDiv (e * e * e) (6 * jj * jj)
  let v1 := v - rndDiv ((d + d0) * (d - d0).natAbs) (2 * jj)
  let v2 := rndDiv (d * d) (2 * jj)
  if v2 ≤ v1 then phase d + rndDiv (v1 * v1 - v2 * v2) (2 * max 1 d) + rndDiv (d * d * d) (6 * jj * jj)
  else
    let q : Int := isqrtGo ((jj * v).toNat + (d0 * d0).toNat / 2) 34 0
    phase q + rndDiv (q * q * q) (6 * jj * jj)

/-- The limits that a move in progress keeps or takes over when the parameters change, and whether a change is deferred (R390). -/
def Chip.limsNow (c : Chip) (s d : Nat) (x : AxisProg) : List Int × Bool :=
  let want := (List.range 4).map (fun i => c.axPar s d i)
  if x.state = 1 ∧ want ≠ x.lims then
    let a := c.axisAcc s d x
    let acc := rndDiv (2000 * a.1) (a.2 * a.2)
    let d0 := if x.vel < 0 then acc else -acc
    let w := fun i => want.getD i 0
    let o := fun i => x.lims.getD i 0
    let can := decide (100 * stopDist x.vel.natAbs d0 (w 2) (w 3) ≤ ((x.inner - x.pos).natAbs : Int))
    let dk := w 2 < o 2 && !can
    let jk := w 3 < o 3 && !can
    ([w 0, w 1, if dk then o 2 else w 2, if jk then o 3 else w 3], dk || jk)
  else (if x.state = 1 then x.lims else want, false)

/-- The target that a latched SETPOS stands for (R385, R394), and whether it is clipped. -/
def Chip.clipTarget (c : Chip) (s d : Nat) (x : AxisProg) (raw : Int) : Int × Bool :=
  let t := limit (c.par (16 + s) 66) (c.par (16 + s) 67) raw
  let inw := c.limitsBit s (2 * d) && decide (t < x.pos)
  let out := c.limitsBit s (2 * d + 1) && decide (x.pos < t)
  let t := if inw ∨ out then x.pos else t
  (t, t != raw)

/-- An axis planned for: the table is taken and the move begins from the set-point. -/
def Chip.takeTable (c : Chip) (s d : Nat) (t : List Seg) (lims : List Int) (goal : Int) (deferred : Bool) : Chip :=
  (c.putTable s d t).updAxis s d fun x =>
    { x with state := if x.state = 2 then 2 else 1, seg := 0, k := 0, p0 := x.pos, v0 := x.vel, inner := goal, lims := lims, deferred := deferred, on := true,
             release := c.limitsBit s (4 + d) }

/-- A new table where one is called for; `t` is what the planner finds. Without one that the limits allow, the axis keeps its table (log
entry 35). -/
def Chip.planAxis (c : Chip) (s d : Nat) (t : List Seg) : Chip :=
  let x := (c.motion s).axis d
  let a := c.axisAcc s d x
  let fresh := (List.range 4).map (fun i => c.axPar s d i)
  if x.ramp ∨ x.follow ∨ x.state = 3 then c
  else if x.state = 2 then
    if x.homing = 3 ∧ x.inner ≠ c.par (16 + s) 64 ∧ planOk fresh (c.par (16 + s) 64) x.pos x.vel a.1 a.2 t then
      c.takeTable s d t fresh (c.par (16 + s) 64) false
    else c
  else if !x.homed then c
  else
    let raw := c.inPort (16 + s) (12 + d)
    if raw ≠ x.planned then
      let r := c.clipTarget s d x raw
      let take := fun (c : Chip) =>
        let c := c.updAxis s d fun x => { x with planned := raw }
        if r.2 then c.pulse s (30 + d) else c
      if r.1 = x.pos ∧ x.vel = 0 then take (c.updAxis s d fun x => { x with inner := r.1 })
      else if planOk fresh r.1 x.pos x.vel a.1 a.2 t then take (c.takeTable s d t fresh r.1 false)
      else c
    else if x.state = 1 then
      let r := c.limsNow s d x
      let c := if r.2 ∧ !x.deferred then (c.pulse s (28 + d)).updAxis s d fun x => { x with deferred := true } else c
      if r.1 ≠ x.lims ∧ planOk r.1 x.inner x.pos x.vel a.1 a.2 t then c.takeTable s d t r.1 x.inner r.2 else c
    else c

/-! ### The period of an axis -/

/-- A new velocity between `v` and `goal`, at most `a` per period away from `v`: where the spec gives only limits, which one is left
open (log entry 35). -/
def Chip.freeSpeed (c : Chip) (v goal a : Int) : Int × Chip :=
  let d := c.draw
  let far := toward v goal (max 0 a)
  let x := (BitVec.setWidth 32 d.1).toInt
  (if v ≤ far then limit v far x else limit far v x, d.2)

/-- The axis moves on by one period at a velocity. -/
def AxisProg.glide (x : AxisProg) (v : Int) : AxisProg := { x with pos := x.pos + rndDiv v 2000, vel := v, travel := x.travel + ((rndDiv v 2000).natAbs : Int) }

/-- Acceleration × one period, in units of velocity (R380). -/
def perPeriod (a : Int) : Int := rndDiv a 2000

/-- An axis enters FAULT; a HOME it belongs to ends with FAIL, and where that is the cause the station parks (R384, R395). -/
def Chip.axisFault (c : Chip) (s d : Nat) (homeFail : Bool) : Chip :=
  let c := c.updAxis s d fun x => { x with state := 3, homing := 0, vel := 0, ramp := false, follow := false, homed := if homeFail then x.homed else false }
  let c := if homeFail then c.mark (MOT_AX_EVENT_HOME_FAIL (2 * s + d)) else c
  let c := (c.setFlag (MOT_AX_STATUS_FOLLOW (2 * s + d)) false).endHome s d false
  if homeFail then c.park s cauServoLost else c

/-- Homing (R395). -/
def Chip.homeAxis (c : Chip) (s d : Nat) : Chip :=
  let x := (c.motion s).axis d
  let hv := c.axPar s d 5
  let inner := c.limitsBit s (2 * d)
  if x.homing = 1 then
    if x.ramp then
      let v := toward x.vel 0 (perPeriod (c.axPar s d 4))
      c.updAxis s d fun x => { x.glide v with ramp := v != 0, homing := if v = 0 then 2 else 1, travel := 0 }
    else if inner then
      if c.limitsBit s (4 + d) then c.updAxis s d fun x => { x with vel := 0, homing := 2, travel := 0 }
      else c.updAxis s d fun x => { x with ramp := true }
    else if 9 * 2 ^ 27 ≤ x.travel then c.axisFault s d true
    else
      let r := c.freeSpeed x.vel (-hv) (perPeriod (c.axPar s d 1))
      r.2.updAxis s d fun x => x.glide r.1
  else if x.homing = 2 then
    if !inner then c.updAxis s d fun x => { x with pos := c.par (16 + s) 65, homing := 3, inner := c.par (16 + s) 65 }
    else if rndDiv (2 ^ 28) 10 ≤ x.travel then c.axisFault s d true
    else
      let r := c.freeSpeed x.vel (rndDiv hv 10) (perPeriod (c.axPar s d 1))
      r.2.updAxis s d fun x => { x.glide r.1 with release := true }
  else c

/-- A switch that becomes active outside homing stops the axis (R392 to R394). -/
def Chip.switchStop (c : Chip) (s d : Nat) (hard : Bool) : Chip :=
  let c := c.updAxis s d fun x =>
    { x with homed := false, follow := false, ramp := !hard && x.vel != 0, vel := if hard then 0 else x.vel,
             state := if x.state = 3 then 3 else if hard || x.vel == 0 then 0 else 1, stopped := 0 }
  ((c.setFlag (MOT_AX_STATUS_FOLLOW (2 * s + d)) false).inc (MOT_LIMIT_STOPS_COUNT (2 * s + d))).park s cauServoLost

/-- The set-point of the next period. -/
def Chip.moveAxis (c : Chip) (s d : Nat) : Chip :=
  let x := (c.motion s).axis d
  if x.state = 2 ∧ x.homing ≤ 2 then c.homeAxis s d
  else if x.ramp then
    let v := toward x.vel 0 (perPeriod (c.axPar s d 4))
    c.updAxis s d fun x => { x.glide v with ramp := v != 0, state := if v = 0 then 0 else 1, stopped := 0 }
  else if x.follow then
    let goal := x.inner + rndDiv (c.inPort (16 + s) (14 + d)) 2000
    let low := max (-(c.axPar s d 0)) (x.vel - perPeriod (c.axPar s d 2))
    let high := min (c.axPar s d 0) (x.vel + perPeriod (c.axPar s d 1))
    let r := c.draw
    let v := limit low high (BitVec.setWidth 32 r.1).toInt
    r.2.updAxis s d fun x => { x.glide v with inner := goal, state := if v = 0 then 0 else 1, stopped := if v = 0 then x.stopped + 1 else 0 }
  else if x.state = 1 ∨ x.state = 2 then
    let g := c.segment s d x.seg
    if g.1 = 0 then
      if x.state = 2 ∧ x.inner ≠ c.par (16 + s) 64 then c
      else
        let home := decide (x.state = 2)
        let c := c.updAxis s d fun x => { x with state := 0, vel := 0, stopped := 0, homing := 0, homed := x.homed || home,
                                                 planned := if home then x.inner else x.planned }
        if home then c.endHome s d true else c
    else
      let k := x.k + 1
      let r := segAt g.1 x.p0 x.v0 g.2.1 g.2.2 k
      c.updAxis s d fun x =>
        if (k : Int) < g.1 then { x with k := k, pos := r.1, vel := r.2 }
        else { x with k := 0, seg := x.seg + 1, pos := g.2.1, vel := g.2.2, p0 := g.2.1, v0 := g.2.2 }
  else c.updAxis s d fun x => { x with stopped := x.stopped + 1 }

/-- A period of axis `d`. -/
def Chip.axisPeriod (c : Chip) (s d : Nat) (t : List Seg) : Chip :=
  let x := (c.motion s).axis d
  let sw := (c.limitsBit s (2 * d)).toNat + 2 * (c.limitsBit s (2 * d + 1)).toNat
  let rose := (sw ||| x.sw) != x.sw
  let c := c.updAxis s d fun x => { x with sw := sw, release := x.release && c.limitsBit s (4 + d) }
  if c.limitsBit s (7 + d) then (if x.state = 3 then c else c.axisFault s d false)
  else if (c.motion s).safe then
    c.updAxis s d fun x => { x with state := if x.state = 3 then 3 else 0, vel := 0, ramp := false, follow := false, stopped := 2000 }
  else
    let c := if rose ∧ x.state ≠ 2 ∧ x.state ≠ 3 then c.switchStop s d (c.limitsBit s (4 + d)) else c
    (c.planAxis s d t).moveAxis s d

/-- Phase references of an axis (R381). -/
def Chip.phaseRefs (c : Chip) (s d : Nat) : Int × Int :=
  let x := (c.motion s).axis d
  if !x.on then (0, 0)
  else
    let i := if x.state = 1 ∨ x.state = 2 ∨ x.stopped < 2000 then c.axPar s d 6 else c.axPar s d 7
    let step := c.par (16 + s) 31
    let a := if step = 0 then 0 else rndDiv (x.pos * 2 ^ 28) (2 * step)
    (mulQ i (cosQ a), mulQ i (sinQ a))

/-! ### The period -/

/-- The EVENT word (Table 9.5). -/
def MotionProg.eventWord (g : MotionProg) : Nat :=
  g.spn + 8 * g.atSpeed.toNat + 16 * g.reverse.toNat + 32 * g.u.state + 128 * g.l.state + 512 * g.u.homed.toNat + 1024 * g.l.homed.toNat +
    2048 * g.safe.toNat + 2 ^ 12 * g.result + 2 ^ 14 * g.u.result + 2 ^ 16 * g.l.result + 2 ^ 18 * g.seq + g.pulses

/-- A station that loses AT_SPEED: no slot is armed, passes end at once, the next slot read is a landing (R406). -/
def Chip.loseSpeed (c : Chip) (s : Nat) : Chip := [2 * s, 2 * s + 1].foldl (fun c p => ((c.cutPass p).disarmLanes p).landAll p) c

/-- Fields and counters that take the committed EVENT word (R413). -/
def Chip.motionEvent (c : Chip) (s : Nat) (g : MotionProg) : Chip :=
  let was := c.flag (SPN_STATUS_AT_SPEED s)
  let on := fun (c : Chip) (k : Nat) (f : Chip → Chip) => if g.pulses.testBit k then f c else c
  let c := (c.setFld (SPN_STATUS_STATE s) g.spn).setFlag (SPN_STATUS_AT_SPEED s) g.atSpeed
  let c := on c 24 fun c => (c.mark (SPN_EVENT_OBS_LOST s)).inc (SPN_OBS_LOSSES_COUNT s)
  let c := on c 25 fun c => (c.mark (SPN_EVENT_START_RETRY s)).inc (SPN_START_RETRIES_COUNT s)
  let c := on c 26 fun c => (c.mark (SPN_EVENT_CATCH_FAIL s)).inc (SPN_CATCH_FAILS_COUNT s)
  let c := on c 27 fun c => c.mark (SPN_EVENT_REVERSE_REFUSED s)
  let c := [0, 1].foldl (fun c d =>
    let p := 2 * s + d
    let x := g.axis d
    let c := if x.state = 1 ∧ c.fld (MOT_AX_STATUS_STATE p) ≠ 1 then c.inc (MOT_MOVES_COUNT p) else c
    let c := (c.setFld (MOT_AX_STATUS_STATE p) x.state).setFlag (MOT_AX_STATUS_HOMED p) x.homed
    let c := on c (28 + d) fun c => (c.mark (MOT_AX_EVENT_DEFERRED p)).inc (MOT_DEFERRED_COUNT p)
    let c := on c (30 + d) fun c => c.mark (MOT_AX_EVENT_CLIPPED p)
    c.setFld (MOT_AX_POS_POS p) (qWord x.pos).toNat) c
  let c := c.setFld (SPN_SPEED_SPEED s) (qWord g.w).toNat
  if was ∧ !g.atSpeed then c.loseSpeed s else c

/-- What the resident motion program does in the period that commits; `u` and `l` are what its planner finds. -/
def Chip.motionPeriod (c : Chip) (s : Nat) (u l : List Seg) : Chip :=
  let q := 16 + s
  let c := c.updMotion s fun g => { g with safe := (c.pair q).entry == 1 }
  let w := (c.pair q).cmd.1.toNat
  let c := if 65536 ≤ w then
      (match w % 256 with
       | 0x01 | 0x02 | 0x03 => c.refuseSpindle s
       | 0x04 | 0x05 | 0x06 => c.endSled s ([0, 1].filter (fun d => w.testBit (8 + d))) 3
       | _ => c.updMotion s fun g => { g with seq := (g.seq + 1) % 64 })
    else c.motionCommand s (w % 256) (w / 256)
  let c := ((c.spindlePeriod s).axisPeriod s 0 u).axisPeriod s 1 l
  let g := c.motion s
  let r := c.drive s g
  let c := r.2
  let a := c.phaseRefs s 0
  let b := c.phaseRefs s 1
  let mode := g.u.on.toNat + 4 * g.l.on.toNat + 16 * g.u.release.toNat + 32 * g.l.release.toNat
  let outs := (r.1.map qWord) ++ [BitVec.ofNat 32 g.mode, qWord a.1, qWord a.2, qWord b.1, qWord b.2, BitVec.ofNat 32 mode, BitVec.ofNat 32 g.eventWord,
    qWord g.u.pos, qWord g.l.pos, qWord g.w, qWord g.th, qWord g.u.vel, qWord g.l.vel]
  let c := (List.range 16).foldl (fun c k => c.residentOut q k (outs.getD k 0)) c
  (c.motionEvent s g).setMotion s { c.motion s with pulses := 0 }

/-! ### Events of the spindle -/

/-- The 20 ms measurement ends (Table 9.10). -/
def execSpinMeasureEnd (x : Station) (rpm : Nat) (backward : Bool) (s : State) : Out := s.on fun c =>
  let g := c.motion x
  c.when (g.spn == mMeasure && decide (400 ≤ g.count) && g.spin.isSome) fun c =>
    let same := g.spin.any (fun k => k.2 == backward)
    if rpm < 30 then c.startAlign x
    else if same ∧ 300 ≤ rpm then c.setMotion x { g with spn := mCoast, catching := true, starting := true, windows := 1, count := 0, good := 0, reverse := backward }
    else c.setMotion x { g with spn := mShort, count := 0 }

/-- ALIGN_PERIODS have passed: the ramp begins. -/
def execAlignEnd (x : Station) (s : State) : Out := s.on fun c =>
  let g := c.motion x
  c.when (g.spn == mAlign && decide (c.cnt (16 + x) 22 ≤ g.count)) fun c => c.setMotion x { g with spn := mRamp, count := 0, good := 0 }

/-- 64 good periods: handover from the ramp, or a catch (R403, R406). -/
def execObserverLock (x : Station) (s : State) : Out := s.on fun c =>
  let g := c.motion x
  c.when ((g.spn == mRamp || g.catching) && decide (64 ≤ g.good)) fun c =>
    let c := if g.catching then c.inc (SPN_CATCHES_COUNT x) else c
    c.setMotion x { g with spn := mRun, catching := false, starting := false, count := 0, good := 0, bad := 0, weak := 0, near := 0, far := 0 }

/-- Catching has ended without lock: a start goes on from rest, else the station parks. -/
def Chip.catchFail (c : Chip) (s : Nat) : Chip :=
  let g := c.motion s
  let c := (c.setMotion s { g with spn := mShort, catching := false, starting := false, count := 0 }).pulse s 26
  if g.starting then c else (c.failSpindle s).park s cauSpindle

/-- A catch window begins, or the attempts end. -/
def Chip.catchWindow (c : Chip) (s n : Nat) : Chip :=
  let g := c.motion s
  if c.cnt (16 + s) 27 < n ∨ c.fld (SPN_STATUS_TACH s) < 300 then c.catchFail s
  else c.setMotion s { g with spn := mCoast, catching := true, windows := n, count := 0, good := 0 }

/-- Observer loss (R406, R411, Table 9.12). -/
def execObsLost (x : Station) (s : State) : Out := s.on fun c =>
  let g := c.motion x
  c.when ((g.spn == mRun || g.spn == mBrake) && (decide (8 ≤ g.bad) || decide (8 ≤ g.weak))) fun c =>
    let c := (c.setMotion x { g with atSpeed := false, bad := 0, weak := 0, starting := false }).pulse x 24
    if g.spn = mBrake ∨ g.safe then c.updMotion x fun g => { g with spn := mShort } else c.catchWindow x 1

/-- No lock 2 s into the ramp (R403). -/
def execStartRetry (x : Station) (s : State) : Out := s.on fun c =>
  let g := c.motion x
  c.when (g.spn == mRamp && decide (40000 ≤ g.count)) fun c =>
    let c := c.setMotion x { g with spn := mShort, count := 0 }
    if g.attempts ≤ c.cnt (16 + x) 28 then c.pulse x 25 else c.failSpindle x

/-- 200 periods near the target: AT_SPEED, and SPIN ends (R404); a spin-up has measured the inertia class (R409), left open. -/
def execAtSpeed (x : Station) (s : State) : Out := s.on fun c =>
  let g := c.motion x
  c.when (g.spn == mRun && !g.atSpeed && decide (200 ≤ g.near)) fun c =>
    let c := c.setMotion x { (if g.spin.isSome then g.endSpindle 1 else g) with atSpeed := true, spinup := false }
    if g.spinup then
      let d := c.draw
      d.2.setFld (LE_REGION_BAND (16 + x)) (1 + d.1.toNat % 15)
    else c

/-- 20 periods away from the target (R404). -/
def execAtSpeedLost (x : Station) (s : State) : Out := s.on fun c =>
  let g := c.motion x
  c.when (g.atSpeed && decide (20 ≤ g.far)) fun c => c.setMotion x { g with atSpeed := false, near := 0 }

/-- A catch window ends without lock (R406). -/
def execCatchWindowEnd (x : Station) (s : State) : Out := s.on fun c =>
  let g := c.motion x
  c.when (g.catching && decide (c.cnt (16 + x) 26 ≤ g.count)) fun c => c.catchWindow x (g.windows + 1)

/-- SPEED_CHANGE: once no pass runs on either pickup, SPIN for a new target speed (R408); a calibration cycle is abandoned (R573). -/
def execSpeedChange (x : Station) (s : State) : Out := s.on fun c =>
  let st := c.stState x
  let aim := if c.targetSpeed x = 1 then 4200 else 8400
  let free := (c.wch (2 * x)).pass.isNone && (c.wch (2 * x + 1)).pass.isNone
  c.when ((st == sSpinup || st == sQualify || st == sMounted) && aim != (c.stn x).aim && free) fun c =>
    ((c.spinToTarget x).abandonCal (2 * x) false).abandonCal (2 * x + 1) false

end Sys2Proof.Machine
end

