-- ==== Sys2Proof/Machine/Spindle.lean ====
section
/-! DEFINITION. Spindle and sled hardware (R382 to R384, R391, R392, R396 to R399): tachometer, PWM, short-brake, choppers, switches, faults; what
the hardware latches for the motion program at a tick (Table 9.3); sled centring (R389). -/

namespace Sys2Proof.Machine

/-! ### Tachometer (R321, R397) -/

/-- Lower bounds of the speed bands (Table 7.9). -/
def speedBound : Nat → Nat
  | 0 => 0
  | 1 => 1000
  | 2 => 3000
  | _ => 6300

/-- The speed band that follows band `k`, with 50 rpm of hysteresis; `n` steps bound the change. -/
def speedBand (rpm : Nat) : Nat → Nat → Nat
  | 0, k => k
  | n + 1, k =>
    if k < 3 ∧ speedBound (k + 1) + 50 < rpm then speedBand rpm n (k + 1)
    else if 0 < k ∧ rpm + 50 < speedBound k then speedBand rpm n (k - 1)
    else k

/-- The tachometer reads a speed: 0 below 30 rpm, 65,535 at most. The station's pairs see its band. -/
def Chip.setTach (c : Chip) (s rpm : Nat) : Chip :=
  let c := (c.setFld (SPN_STATUS_TACH s) (if rpm < 30 then 0 else min 65535 rpm)).setFlag (SPN_STATUS_TACH_VALID s) (decide (30 ≤ rpm))
  [2 * s, 2 * s + 1, 16 + s].foldl (fun c q => c.setFld (LE_REGION_SPEED q) (speedBand rpm 3 (c.fld (LE_REGION_SPEED q)))) c

/-- A zero crossing. Crossings of one direction count, three in an electrical revolution, in the order U, V, W forward (log entry 36). -/
def execTachCrossing (x : Station) (phase : Fin 3) (ns : Nat) (s : State) : Out := s.on fun c =>
  let k := c.spn x
  let rpm := 20000000000 / (max 1 ns * max 1 (c.fld (SPN_CFG_POLE_PAIRS x)))
  let c := c.setSpn x { k with lastPhase := some phase }
  match k.lastPhase with
  | none => c
  | some l =>
    let c := if phase.val = (l + 1) % 3 then c.setFlag (SPN_STATUS_TACH_REVERSE x) false
      else if phase.val = (l + 2) % 3 then c.setFlag (SPN_STATUS_TACH_REVERSE x) true else c
    c.setTach x rpm

def execTachTimeout (x : Station) (s : State) : Out := s.on fun c =>
  ((c.setTach x 0).setFlag (SPN_STATUS_TACH_REVERSE x) false).setSpn x { c.spn x with lastPhase := none }

/-! ### PWM and short-brake (R396, R398, R399) -/

/-- The mode that the block applies: nothing under a driver fault; a short-brake that is asked for waits above SB_MAX; else what the program
asked for. -/
def Chip.applyMode (c : Chip) (s : Nat) : Chip :=
  let k := c.spn s
  let asked := c.flag (SPN_CTRL_BRAKE s) || k.nextMode == 2
  let slow := decide (c.fld (SPN_STATUS_TACH s) < c.fld (SPN_CFG_SB_MAX s))
  let fault := c.flag (SPN_STATUS_DRIVER_FAULT s)
  let mode := if fault then 0 else if asked then (if slow then 2 else 0) else if k.nextMode = 1 then 1 else 0
  let c := if mode = 2 ∧ k.mode ≠ 2 then c.inc (SPN_SHORT_BRAKES_COUNT s) else c
  let c := (c.setFld (SPN_STATUS_MODE s) mode).setFlag (SPN_STATUS_SB_WAIT s) (asked && !slow && !fault)
  c.setSpn s { k with mode := mode }

/-- SHORT_BRAKE_APPLY: the speed has fallen below SB_MAX. -/
def execShortBrakeApply (x : Station) (s : State) : Out := s.on fun c => c.when (c.flag (SPN_STATUS_SB_WAIT x)) fun c => c.applyMode x

/-- SPN_BRAKE_REQUEST. -/
def execSpnBrakeRequest (x : Station) (s : State) : Out := s.on fun c => (c.setFld (SPN_CTRL_BRAKE x) 1).applyMode x

/-- PWM_CYCLE: the outputs committed at the tick before it apply, an ILIM cut ends. -/
def execPwmCycle (x : Station) (s : State) : Out := s.on fun c => (c.setSpn x { c.spn x with duty := (c.spn x).next, cut := false }).applyMode x

/-- ILIM_CUT: a phase current exceeds ILIM in magnitude. -/
def execIlimCut (x : Station) (iu iv iw : BitVec 12) (s : State) : Out := s.on fun c =>
  let above := fun (i : BitVec 12) => decide ((c.fld (SPN_ILIM_ILIM x)) < ((i.toNat : Int) - 2048).natAbs)
  c.when (!(c.spn x).cut && (above iu || above iv || above iw)) fun c =>
    ((c.setSpn x { c.spn x with cut := true }).inc (SPN_ILIM_CYCLES_COUNT x)).mark (SPN_EVENT_ILIM x)

/-- SPINDLE_DRIVER_FAULT: the input has been active for 2 µs, or is inactive again. -/
def execSpindleDriverFault (x : Station) (active : Bool) (s : State) : Out := s.on fun c =>
  let c := c.setSpn x { c.spn x with fltInput := active }
  if active then
    (((c.setFld (SPN_STATUS_DRIVER_FAULT x) 1).mark (SPN_EVENT_DRIVER_FAULT x)).applyMode x).park x cauSpindle
  else c

/-! ### Choppers (R382, R384) -/

def SledRec.chop (k : SledRec) (b : Bool) : ChopRec := if b then k.b else k.a
def Chip.setChop (c : Chip) (p : Nat) (b : Bool) (x : ChopRec) : Chip :=
  let k := c.sled p
  (c.setSled p (if b then { k with b := x } else { k with a := x })).setFlag (if b then MOT_AX_STATUS_B_DRIVE p else MOT_AX_STATUS_A_DRIVE p) x.drive

/-- Thresholds in Q3.28: T_lo and T_hi. -/
def Chip.thresholds (c : Chip) (p : Nat) (b : Bool) : Int × Int :=
  let r : Int := (c.sledRef p b.toNat).natAbs
  let band : Int := 8 * c.fld (MOT_AX_CHOP_BAND p) * 2 ^ 16
  let off := c.int (if b then MOT_AX_OFFSET_OFFSET_B p else MOT_AX_OFFSET_OFFSET_A p) * 2 ^ 16
  (limit 0 oneQ (r - band + off), limit 0 oneQ (r + band + off))

/-- Bridge code that drives current in a direction. -/
def bridgeFor (neg : Bool) : Nat := if neg then 1 else 2

/-- CHOPPER_DRIVE. -/
def execChopperDrive (p : Pickup) (b : Bool) (i : Int) (drive decay : Nat) (late : Bool) (s : State) : Out := s.on fun c =>
  let x := (c.sled p).chop b
  let r := c.sledRef p b.toNat
  let neg := decide (r < 0)
  let i := if neg then -i else i
  let free := !x.fast || decide (i.natAbs < 4 * c.fld (MOT_AX_CHOP_BAND p))
  c.when (c.sledRuns p && !x.drive && neg == decide (x.ref < 0) && free && decide (i * 2 ^ 17 ≤ (c.thresholds p b).1 ∧ 2000 ≤ decay ∧ 12500 ≤ drive)) fun c =>
    let c := if late then c.inc (MOT_CHOP_STRETCH_COUNT p) else c
    c.setChop p b { x with drive := true, bridge := bridgeFor neg, fast := false, ref := r }

/-- CHOPPER_DECAY: at T_hi, or at once, with fast decay, where the reference has changed sign: the bridge drives against the current. -/
def execChopperDecay (p : Pickup) (b : Bool) (i : Int) (drive : Nat) (s : State) : Out := s.on fun c =>
  let x := (c.sled p).chop b
  let r := c.sledRef p b.toNat
  let neg := decide (r < 0)
  if !c.sledRuns p then c
  else if neg != decide (x.ref < 0) then c.setChop p b { x with drive := false, bridge := bridgeFor neg, fast := true, ref := r }
  else if x.drive ∧ (c.thresholds p b).2 ≤ (if neg then -i else i) * 2 ^ 17 ∧ 2000 ≤ drive then
    let d := c.draw
    let k := c.fld (MOT_AX_CTRL_DECAY p)
    let code := if k = 0 then 3 else if k = 3 then d.1.toNat % 4 else bridgeFor (!neg)
    (if k = 3 then d.2 else c).setChop p b { x with drive := false, bridge := code, ref := r }
  else c

/-- MIXED_DECAY_BRAKE: after MIXED_T of opposite drive the bridge brakes. -/
def execMixedDecayBrake (p : Pickup) (b : Bool) (s : State) : Out := s.on fun c =>
  let x := (c.sled p).chop b
  c.when (c.sledRuns p && !x.drive && !x.fast && c.fld (MOT_AX_CTRL_DECAY p) == 2) fun c => c.setChop p b { x with bridge := 3 }

/-- An axis that is not in RUN sends 0b00. -/
def Chip.sledOffBridge (c : Chip) (p : Nat) : Chip := if c.sledRuns p then c else (c.setChop p false {}).setChop p true {}

/-- SLED_BRIDGE_FAULT. -/
def execSledBridgeFault (p : Pickup) (active : Bool) (s : State) : Out := s.on fun c =>
  let c := c.setSled p { c.sled p with fltInput := active }
  if active then
    (((c.setFld (MOT_AX_STATUS_DRIVER_FAULT p) 1).mark (MOT_AX_EVENT_DRIVER_FAULT p)).sledOffBridge p).park (p / 2) cauServoLost
  else c

/-! ### Limit switches (R391, R392) -/

/-- LIMIT_SWITCH_CHANGE: the filtered state changes; a hard stop freezes the references. -/
def execLimitSwitchChange (p : Pickup) (outer active : Bool) (s : State) : Out := s.on fun c =>
  let c := c.setFlag (if outer then MOT_AX_STATUS_OUTER p else MOT_AX_STATUS_INNER p) active
  if active then
    let c := c.mark (if outer then MOT_AX_EVENT_OUTER_HIT p else MOT_AX_EVENT_INNER_HIT p)
    if c.flag (if outer then MOT_AX_CTRL_OUTER_MODE p else MOT_AX_CTRL_INNER_MODE p) then c
    else
      let refs := (c.sledRef p 0, c.sledRef p 1)
      let c := c.setSled p { c.sled p with frozen := some (BitVec.ofInt 32 refs.1, BitVec.ofInt 32 refs.2) }
      (c.setFld (MOT_AX_STATUS_HARD p) 1).mark (MOT_AX_EVENT_HARD_STOP p)
  else c

/-! ### What a tick latches and commits -/

/-- The LIMITS word (Table 9.3). -/
def Chip.limitsWord (c : Chip) (s : Nat) : Nat :=
  let b := fun (f : Fld) (k : Nat) => 2 ^ k * (c.flag f).toNat
  let u := 2 * s
  let l := 2 * s + 1
  b (MOT_AX_STATUS_INNER u) 0 + b (MOT_AX_STATUS_OUTER u) 1 + b (MOT_AX_STATUS_INNER l) 2 + b (MOT_AX_STATUS_OUTER l) 3 + b (MOT_AX_STATUS_HARD u) 4 +
    b (MOT_AX_STATUS_HARD l) 5 + b (SPN_STATUS_DRIVER_FAULT s) 6 + b (MOT_AX_STATUS_DRIVER_FAULT u) 7 + b (MOT_AX_STATUS_DRIVER_FAULT l) 8 +
    b (SPN_STATUS_TACH_VALID s) 9 + b (SPN_STATUS_TACH_REVERSE s) 10 + b (SPN_STATUS_SB_WAIT s) 11 + 65536 * c.fld (SPN_STATUS_TACH s)

/-- Inputs latched at a motion tick: LIMITS, SETPOS and SETVEL (Table 9.2, R380). -/
def Chip.latchMotion (c : Chip) (s : Nat) : Chip :=
  let q := 16 + s
  let pos := fun p => qWord (rndDiv (c.int (MOT_AX_TARGET_TARGET p) * 2 ^ 28) (10 ^ 7))
  let vel := fun p => qWord (rndDiv (c.int (MOT_AX_FEED_FEED p) * 2 ^ 28) (10 ^ 8))
  c.setInputs q 11 [BitVec.ofNat 32 (c.limitsWord s), pos (2 * s), pos (2 * s + 1), vel (2 * s), vel (2 * s + 1)]

/-- What the gate presents after a tick reaches the drive hardware: the duties and the mode for the next PWM cycle, SLED_MODE at once, with the
releases of the hard-stop latches (R375, R392). -/
def Chip.commitDrive (c : Chip) (s : Nat) : Chip :=
  let q := 16 + s
  let duty := fun k => limit (-oneQ) oneQ (c.gateOut q k).toInt
  let c := c.setSpn s { c.spn s with next := [duty 0, duty 1, duty 2], nextMode := (c.gateOut q 3).toNat % 4 }
  [0, 1].foldl (fun c d =>
    let p := 2 * s + d
    let c := if (c.gateOut q 8).getLsbD (4 + d) then (c.setSled p { c.sled p with frozen := none }).setFld (MOT_AX_STATUS_HARD p) 0 else c
    c.sledOffBridge p) c

/-! ### Sled centring (R389) -/

/-- SLED_CENTRING_UPDATE: the mean TRACKING output of the revolution, as a radial offset in nm at 240 nm per track pitch, is added to the
target. Without a measured sensitivity there is no offset to add. -/
def execSledCentringUpdate (p : Pickup) (s : State) : Out := s.on fun c =>
  let q := c.seqr p
  let k := c.int (CAL_PU_TSENS_SENS p)
  c.when (c.flag (MOT_AX_STATUS_FOLLOW p) && k != 0 && q.trackN != 0) fun c =>
    let nm := rndDiv (240 * q.trackSum) (k * (q.trackN : Nat))
    (c.setSeqr p { q with trackSum := 0, trackN := 0 }).setInt (MOT_AX_TARGET_TARGET p) (c.int (MOT_AX_TARGET_TARGET p) + nm)

end Sys2Proof.Machine
end

