-- ==== Sys2Proof/Machine/Tick.lean ====
section
/-! DEFINITION. Loop and motion ticks (R297): the tick of a pair with its resident program, a pair that is lost (R429), activation in shadow (R623),
beam levels and clips (R127, R128), and what the gate's new outputs do (R344, R375). -/

namespace Sys2Proof.Machine

/-! ### Activation of a Tolek image (R623, R624) -/

/-- The committed EVENT word allows the swap to a new image. -/
def Chip.mayActivate (c : Chip) (q : Nat) : Bool :=
  if q < 16 then
    let g := c.loop q
    !g.busy && (g.state == lOff || g.state == lRetracted || g.state == lFocused || g.state == lTracking || g.state == lHold)
  else
    let g := c.motion (q - 16)
    [g.u, g.l].all (fun x => x.state == 0 || x.state == 3) && (g.spn == mStopped || g.atSpeed)

/-- The roles swap: the new image is in force and the former ACTIVE engine, loaded with it, rejoins by a copy. -/
def Chip.activateSwap (c : Chip) (q : Nat) (img : List Byte) (a : Nat) : Chip :=
  let c := ((c.setRole (otherEng a) 1).loadEngine a img 3)
  let entry := c.fld (LE_PAIR_CTRL_ENTRY q)
  let c := if ((c.tolek (otherEng a)).entries.getD entry none).isSome then c else c.setFld (LE_PAIR_CTRL_ENTRY q) 0
  let c := c.setPair q { c.pair q with shadow := none, image := none, resident := isResident img }
  (if q < 16 then c.setLoop q {} else c.setMotion (q - 16) {}).beginPeriod q

/-- A committed period counts for a shadow run; after 64, the first one that allows it swaps. -/
def Chip.shadowTick (c : Chip) (q : Nat) : Chip :=
  let p := c.pair q
  match p.shadow, p.image, c.activeEng q with
  | some n, some img, some a =>
    if 63 ≤ n ∧ c.mayActivate q ∧ p.testing.isNone ∧ c.pairMode q = 1 then c.activateSwap q img a
    else c.setPair q { p with shadow := some (n + 1) }
  | _, _, _ => c

/-! ### Losses (R429) -/

/-- A pair that has become lost at this tick. -/
def Chip.pairLost (c : Chip) (q : Nat) : Chip :=
  if q < 16 then c.park (q / 2) cauServoLost
  else ((c.setFld (SPN_CTRL_BRAKE (q - 16)) 1).applyMode (q - 16)).park (q - 16) cauSpindle

/-- A tick with what follows it for every pair. -/
def Chip.tick (c : Chip) (q : Nat) (t : TickIn) (resident : Chip → Chip) : Chip :=
  let was := (c.pair q).lost.isSome
  let n := (c.pair q).period
  let c := (c.pairTick q t resident).1
  let c := if (c.pair q).period = n then c else c.shadowTick q
  if !was ∧ (c.pair q).lost.isSome then c.pairLost q else c

/-! ### Loop ticks -/

/-- Beam levels and clip counts of a pickup's data inputs; a cycle that affects them holds them (R127, R128, R139). -/
def Chip.beamLevels (c : Chip) (p : Nat) (bs : List BeamIn) : Chip :=
  let cycle := c.flag (CAL_PU_STATUS_CYCLE p)
  let item := c.fld (CAL_PU_STATUS_ITEM p)
  let held := cycle && decide (item ≤ 1)
  let on := c.flag (AFE_PU_CTRL_RF_EN p)
  let c := (List.range 8).foldl (fun c k =>
    let b := bs.getD k ⟨0, 0⟩
    let c := c.setFlag (AFE_LANE_LEVEL_STALE p k) held
    let c := if held then c else c.setFld (AFE_LANE_LEVEL_LEVEL p k) (if on then b.level else 0)
    if b.clips = 0 then c else (c.add (AFE_LANE_CLIP_COUNT p k) b.clips).mark AFE_EVENT_CLIP) c
  c.setFlag (AFE_PU_STATUS_STALE p) (cycle && item == 0)

/-- What the gate presents after the tick: OFFTRACK ends a pass, TRACKING counts for the centring of the sled. -/
def Chip.commitLoop (c : Chip) (p : Nat) : Chip :=
  let c := (c.measureStep p).issueNext p
  let q := c.seqr p
  let c := c.setSeqr p { q with trackSum := q.trackSum + (c.gateOut p 1).toInt, trackN := q.trackN + 1 }
  if (c.gateOut p 6).getLsbD 0 ∧ (c.wch p).pass.isSome then c.offtrackStop p else c

/-- LOOP_TICK. -/
def execLoopTick (q : Pickup) (t : TickIn) (beams : List BeamIn) (s : State) : Out :=
  s.onIf (beams.length == 8 && beams.all (fun b => decide (b.level ≤ 16384 ∧ b.clips ≤ 15000))) fun c =>
    ((c.beamLevels q beams).tick q t (fun c => c.loopPeriod q)).commitLoop q

/-! ### Motion ticks -/

/-- LE_REGION.LAYER of a motion pair: whether a write channel of the station is in a pass (R409). -/
def Chip.motionRegion (c : Chip) (s : Nat) : Chip :=
  c.setFlag (LE_REGION_LAYER (16 + s)) ((c.wch (2 * s)).pass.isSome || (c.wch (2 * s + 1)).pass.isSome)

/-- MOTION_TICK. -/
def execMotionTick (x : Station) (t : TickIn) (u l : AxisIn) (s : State) : Out := s.on fun c =>
  ((((c.motionRegion x).tick (16 + x) t (fun c => c.motionPeriod x u l)).latchMotion x).commitDrive x)

end Sys2Proof.Machine
end

