-- ==== Sys2Proof/Machine/Requests.lean ====
section
/-! DEFINITION. READ, VERIFY and PREFETCH (R239, R357, R484): what a core serves from the buffer, its requests to the stations (R500, R552), read-ahead
(R554), the arrival of blocks (R552), the pushes to the host, and the end of reads by abort (R492). -/

namespace Sys2Proof.Machine

/-! ### Conditions on a volume (R357, R484) -/

/-- The status that the states of its volume and station give a command (R357, R487); none where it proceeds. -/
def Chip.volumeGate (c : Chip) (m : Cmd) : Option Nat :=
  let p := m.volume
  let before := (c.host.cmds.filter (fun x => x.opcode == opUnmount && x.volume == p)).all (fun x => decide (m.uid < x.uid))
  if c.mounted p ∨ c.volState p = vUnmounting ∧ before then none
  else if c.volState p = vUnmounting then some stNotMounted
  else if c.stState (p / 2) = sFault ∨ c.stationsOut then some stStationFault else some stNotMounted

/-- A layer of a range is unusable in this mount (R362). -/
def Chip.rangeUnusable (c : Chip) (p first n : Nat) : Bool :=
  (List.range 10).any (fun l => c.layerUnusable p l && decide (first < layerBlocks * (l + 1)) && decide (layerBlocks * l < first + n))

/-! ### Outcomes of blocks (R239, Table 11.9) -/

/-- How bad an outcome is: STATION_LOST, ABANDONED, UNREADABLE, BLANK, OK_RECOVERED, OK. -/
def outcomeRank (o : Nat) : Nat :=
  if o = ouStationLost then 6 else if o = ouAbandoned then 5 else if o = ouUnreadable ∨ o = ouUnretried then 4 else if o = ouBlank then 3
  else if o = ouRecovered ∨ o = ouTransient then 2 else 1

/-- The status of a read with a worst block of a rank. -/
def rankStatus (r : Nat) : Nat :=
  if 5 ≤ r then stStationFault else if r = 4 then stUnreadable else if r = 3 then stBlank else if r = 2 then stRecovered else stOk

/-- A read ends with the outcomes of its blocks. -/
def Chip.endRead (c : Chip) (m : Cmd) : Chip :=
  let worst := (m.blocks.map (fun b => outcomeRank b.2)).foldl max 0
  let first := ((m.blocks.filter (fun b => outcomeRank b.2 == worst)).map (·.1)).foldl min m.arg1
  c.finish m.uid (rankStatus worst) first 0 (m.blocks.filter (fun b => outcomeRank b.2 == 2)).length

/-- Block `i` of a read has an outcome. -/
def Chip.noteBlock (c : Chip) (uid i outcome : Nat) : Chip :=
  match c.cmd uid with
  | none => c
  | some m =>
    if m.status.isSome ∨ m.blocks.any (fun b => b.1 == i) then c
    else
      let m := { m with blocks := m.blocks ++ [(i, outcome)] }
      let c := c.updCmd uid (fun _ => m)
      if m.arg1 ≤ m.blocks.length then c.endRead m else c

/-! ### Requests (R500, R552) -/

/-- First line of the block store, and the line past its last (Table 13.2). -/
def storeBase : Nat := 18 * 2 ^ 30 / 4096
def Chip.storeTop (c : Chip) : Nat := c.bufferSize / 4096

/-- Lines of the block store in use: of requests, of copies, and of pushes that wait for a miss register. -/
def Chip.usedPlaces (c : Chip) : List (Nat × Nat) :=
  c.buf.fills.map (fun f => (f.baseBlock, f.blocks)) ++ c.buf.store.map (fun x => (x.off / 4096, 1)) ++ c.buf.misses.map (fun m => (m.line, 1))

/-- A run of `n` free lines. -/
def Chip.placeRun (c : Chip) (n : Nat) : Option Nat :=
  let used := c.usedPlaces
  let fits := fun (b : Nat) => decide (storeBase ≤ b ∧ b + n ≤ c.storeTop) && used.all (fun u => decide (b + n ≤ u.1) || decide (u.1 + u.2 ≤ b))
  (storeBase :: used.map (fun u => u.1 + u.2)).find? fits

/-- Room for `n` lines: the least recently used copies that no push needs give way, one by one; `fuel` bounds them. -/
def Chip.makeRoom (c : Chip) (n : Nat) : Nat → Chip
  | 0 => c
  | fuel + 1 =>
    if (c.placeRun n).isSome then c else
    let free := c.buf.store.filter (fun x => !c.buf.misses.any (fun m => m.line == x.off / 4096))
    match free.foldl (fun (b : Option StoreCopy) x => match b with
        | none => some x
        | some y => if x.used < y.used then some x else b) none with
    | none => c
    | some x => Chip.makeRoom { c with buf := { c.buf with store := c.buf.store.erase x } } n fuel

/-- The station request weir has room for an item, those on their way counted (Table 12.2). -/
def Chip.requestRoom (c : Chip) (p : Nat) : Bool :=
  let way := ((c.arch.toM.ready ++ c.arch.toM.replay ++ c.arch.toM.toResend).filter (fun k => k.ty == 5 && k.unit == p)).length
  decide (3 * way + 3 ≤ c.credits 3 p)

/-- A core's lowest fill slot without a request. -/
def Chip.freeSlot (c : Chip) (core : Nat) : Nat :=
  ((List.range (c.buf.fills.length + 1)).find? (fun i => !c.buf.fills.any (fun f => f.core == core && f.slot == i))).getD 0

/-- A core requests `n` blocks of pickup `p` from `first` on: the fill entry first, then the item (log entry 16). Without room the request waits. -/
def Chip.sendRequest (c : Chip) (core p first n : Nat) (uid : Option Nat) (ahead install : Bool) : Chip :=
  let c := c.makeRoom n c.buf.store.length
  match c.placeRun n with
  | none => c
  | some base =>
    if !c.requestRoom p ∨ 4096 ≤ c.freeSlot core then c else
    let slot := c.freeSlot core
    let gen := ((c.byte (fillAddr core slot + 10)).toNat + 1) % 256
    let number := 2 ^ 28 * core + 2 ^ 20 * gen + slot
    let c := c.memWrite (fillAddr core slot) (fillBytes base first p gen (install.toNat + 2 * ahead.toNat) n)
    let f : FillReq := { core := core, slot := slot, gen := gen, volume := p, firstLba := first, blocks := n, baseBlock := base, ahead := ahead,
                         stale := false, uid := uid, number := number, left := (List.range n).map (first + ·) }
    let c : Chip := { c with buf := { c.buf with fills := c.buf.fills ++ [f] } }
    c.sendItem .toM p 0 [BitVec.ofNat 64 (number + 2 ^ 32 * ahead.toNat), BitVec.ofNat 64 first, BitVec.ofNat 64 n]

/-- The runs of consecutive numbers in a rising list, each as its first and its length. -/
def runsOf : List Nat → List (Nat × Nat)
  | [] => []
  | x :: t =>
    match runsOf t with
    | (a, n) :: rest => if x + 1 = a ∧ n < 2048 then (x, n + 1) :: rest else (x, 1) :: (a, n) :: rest
    | [] => [(x, 1)]

/-! ### Blocks in the buffer (R554, R559) -/

/-- The copy of a block in the block store. -/
def Chip.storeCopy (c : Chip) (p lba : Nat) : Option StoreCopy := c.buf.store.find? (fun x => x.volume == p && x.lba == lba)

/-- What a block that stands in a line of the buffer was delivered as: a store copy with the outcome recorded at its arrival, a staged copy with OK. -/
def Chip.lineOutcome (c : Chip) (line : Nat) : Nat :=
  ((c.buf.store.find? (fun x => x.off / 4096 == line)).map (·.outcome)).getD ouClean

/-- The bytes of a line as an access finds them. -/
def Chip.lineNow (c : Chip) (line : Nat) : List Byte :=
  match c.lineOf line with
  | some l => c.lineBytes l 0 4096
  | none => c.bytes (4096 * line) 4096

/-- A read still takes pushes. -/
def Cmd.pushes (m : Cmd) (i : Nat) : Bool := m.status.isNone && m.mark.isNone && !m.blocks.any (fun b => b.1 == i)

/-- Block `i` is pushed from a line that has been read, and has its outcome (R238, R472). -/
def Chip.pushNow (c : Chip) (uid i line : Nat) : Chip :=
  match c.cmd uid with
  | none => c
  | some m => if m.pushes i then (c.pushGo m.port m.entries (4096 * i) (c.lineNow line)).noteBlock uid i (c.lineOutcome line) else c

/-- The push of a block: from its cached line, through a miss register, or from DRAM while the cache is disabled (R543, R548, R551). -/
def Chip.pushBlock (c : Chip) (uid i line : Nat) : Chip :=
  if (c.lineOf line).isSome then (c.touchLine line).pushNow uid i line
  else if c.cacheOn then c.addMiss line (.push uid i)
  else
    let r := c.readUnits (unitsOf (4096 * line) 4096)
    if r.1 then r.2 else r.2.pushNow uid i line

/-- Block `i` of a read is served from a staged copy, or from a store copy, which a VERIFY does not take. -/
def Chip.serveLocal (c : Chip) (m : Cmd) (i : Nat) : Option Chip :=
  let lba := m.arg0 + i
  match c.stagedCopy m.volume lba with
  | some e => some (if m.opcode = opRead then c.pushBlock m.uid i (slotAddr e.slot / 4096) else c.noteBlock m.uid i ouClean)
  | none =>
    if m.opcode = opVerify then none else
    match c.storeCopy m.volume lba with
    | none => none
    | some x =>
      let c : Chip := { c with buf := { c.buf with
        lruClock := c.buf.lruClock + 1,
        store := c.buf.store.map (fun y => if y = x then { y with used := c.buf.lruClock + 1 } else y) } }
      some (if m.opcode = opRead then c.pushBlock m.uid i (x.off / 4096) else c.noteBlock m.uid i x.outcome)

/-- Blocks of a read without outcome, request or push. -/
def Chip.openBlocks (c : Chip) (m : Cmd) : List Nat :=
  (List.range m.arg1).filter (fun i => !m.blocks.any (fun b => b.1 == i) &&
    !c.buf.fills.any (fun f => f.uid == some m.uid && f.left.contains (m.arg0 + i)) &&
    !c.buf.misses.any (fun x => x.accesses.any (fun a => decide (a = .push m.uid i))))

/-- A read goes on with its open blocks: from the buffer, or by requests to its station. -/
def Chip.continueRead (c : Chip) (uid : Nat) : Chip :=
  match c.cmd uid with
  | none => c
  | some m =>
    if m.status.isSome ∨ m.mark.isSome then c else
    let c := (c.openBlocks m).foldl (fun c i => (c.serveLocal m i).getD c) c
    match c.cmd uid with
    | none => c
    | some m =>
      if m.status.isSome then c else
      let left := c.openBlocks m
      if left = [] then c
      else if c.stationsOut ∨ (c.volumeGate m).isSome then left.foldl (fun c i => c.noteBlock uid i ouStationLost) c
      else
        let c := c.updCmd uid (fun m => { m with acted := true })
        (runsOf left).foldl (fun c r => c.sendRequest (m.core.getD 0) m.volume (m.arg0 + r.1) r.2 (some uid) false (m.opcode != opVerify)) c

/-! ### Read-ahead (R554) -/

/-- Blocks to read ahead that are on their way or in the buffer already. -/
def Chip.aheadHeld (c : Chip) (p lba : Nat) : Bool :=
  (c.storeCopy p lba).isSome || (c.stagedCopy p lba).isSome ||
    c.buf.fills.any (fun f => f.ahead && !f.stale && f.volume == p && f.left.contains lba)

/-- Requests of read-ahead beyond a stream's end. -/
def Chip.readAhead (c : Chip) (core p lo hi : Nat) : Chip :=
  let want := ((List.range (hi - lo)).map (lo + ·)).filter (fun b => decide (b < volumeBlocks) && c.recOf p b != .blank && !c.aheadHeld p b)
  (runsOf want).foldl (fun c r => c.sendRequest core p r.1 r.2 none true false) c

/-- A READ is noted in its stream; from the second sequential READ on, read-ahead runs. -/
def Chip.noteStream (c : Chip) (m : Cmd) : Chip :=
  let p := m.volume
  let ss := Cells.get (fun _ => []) c.buf.streams p
  let k := c.buf.lruClock + 1
  let put := fun (c : Chip) (ss : List Stream) =>
    ({ c with buf := { c.buf with lruClock := k, streams := Cells.put (fun _ => []) c.buf.streams p ss } } : Chip)
  let last := m.arg0 + m.arg1 - 1
  match ss.find? (fun x => x.lastLba + 1 == m.arg0) with
  | some x =>
    let n := Cells.get (fun _ => 256) c.host.readAhead p
    let run := decide (2 ≤ x.seqReads + 1) && c.flag FLM_STATUS_UP
    let y : Stream := { lastLba := last, seqReads := x.seqReads + 1, ahead := if run then max x.ahead (last + 1 + n) else x.ahead, used := k }
    let c := put c (y :: ss.erase x)
    if run then c.readAhead (m.core.getD 0) p (max x.ahead (last + 1)) (last + 1 + n) else c
  | none =>
    let old := if ss.length < 16 then ss else
      match ss.foldl (fun (b : Option Stream) x => match b with
          | none => some x
          | some y => if x.used < y.used then some x else b) none with
      | some x => ss.erase x
      | none => ss
    put c ({ lastLba := last, seqReads := 0, ahead := 0, used := k } :: old)

/-! ### The rows -/

/-- An earlier WRITE of the same queue names a block of the range, and its data is not yet in the buffer (R486). -/
def Chip.waitsWrite (c : Chip) (m : Cmd) : Bool :=
  (c.queueCmds m.queue).any (fun x => decide (x.uid < m.uid) && x.opcode == opWrite && !x.inPath && (x.status.isNone || x.status == some stOk) &&
    x.volume == m.volume && decide (x.arg0 < m.arg0 + m.arg1) && decide (m.arg0 < x.arg0 + x.arg1))

/-- A read begins (R357, R362, R484). -/
def Chip.startRead (c : Chip) (m : Cmd) : Chip :=
  if c.waitsWrite m then c.updCmd m.uid (fun m => { m with wait := .engine })
  else
    let c := c.updCmd m.uid (fun m => { m with wait := .none })
    if volumeBlocks < m.arg0 + m.arg1 then c.finishS m.uid stOutOfRange
    else match c.volumeGate m with
      | some st => c.finishS m.uid st
      | none =>
        if c.rangeUnusable m.volume m.arg0 m.arg1 then c.finishS m.uid stMediaFault
        else
          let c := c.continueRead m.uid
          if m.opcode = opRead then c.noteStream m else c

/-- The core runs a read, or goes on with one that waits. -/
def Chip.readRow (c : Chip) (n tag op : Nat) : Chip :=
  match c.toRun n tag op with
  | some m => (c.begin m).startRead m
  | none =>
    match c.cmdOf n tag with
    | some m =>
      if m.opcode ≠ op ∨ !m.started ∨ m.mark.isSome then c
      else if m.wait = .engine then c.startRead m else c.continueRead m.uid
    | none => c

/-- READ. -/
def execHostRead (n tag : Nat) (s : State) : Out := s.on fun c => c.readRow n tag opRead

/-- VERIFY. -/
def execHostVerify (n tag : Nat) (s : State) : Out := s.on fun c => c.readRow n tag opVerify

/-- PREFETCH. -/
def execHostPrefetch (n tag : Nat) (s : State) : Out := s.on fun c => c.readRow n tag opPrefetch

/-! ### STATION_REQUEST (R500) -/

/-- The channel sequencer takes the next request; for a volume that is mounted no more, every block is STATION_LOST. -/
def Chip.stationRequest (c : Chip) (p : Nat) : Chip :=
  match (c.weir (weirKey 3 p)).items with
  | [] => c
  | it :: _ =>
    if !(c.seqr p).online ∨ (c.cal p).run.isSome then c else
    if c.bandDue p then c.startMeasure p 4 (c.loop p).layer [] false (some (c.fld (LE_REGION_BAND p))) else
    let ws := it.map (fun w => w.v.toNat)
    let c := c.takeItem 3 p
    let number := ws.getD 0 0 % 2 ^ 32
    let dead := c.buf.fills.any (fun f => f.number == number && f.left.isEmpty)
    if dead then { c with buf := { c.buf with fills := c.buf.fills.filter (fun f => f.number != number) } } else
    let lbas := ((List.range (ws.getD 2 0 % 4096)).map (ws.getD 1 0 + ·)).filter (fun b => decide (b < volumeBlocks))
    let homes := lbas.map (homePba (c.vol p).side)
    if !(c.mounted p || c.volState p == vUnmounting) then homes.foldl (fun c h => c.sendHead p number h ouStationLost 0 1 0 []) c
    else if homes = [] then c
    else
      let f := c.frm p
      let kind : ReqKind := if (ws.getD 0 0 / 2 ^ 32) % 2 = 1 then .readAhead else .read
      c.setFrm p { f with reqs := f.reqs ++ [{ number := number, kind := kind, lba := ws.getD 1 0, left := homes }] }

/-- STATION_REQUEST. -/
def execStationRequest (p : Pickup) (s : State) : Out := s.on fun c => c.stationRequest p

/-! ### BLOCK_ARRIVAL (R552) -/

/-- A core takes the arrival of a block of its request `number`; `kept`: its data was stored. -/
def Chip.coreArrival (c : Chip) (number lba outcome : Nat) (kept : Bool) : Chip :=
  match c.buf.fills.find? (fun f => f.number == number && f.left.contains lba) with
  | none => c
  | some f =>
    let g := { f with left := f.left.filter (· != lba) }
    let line := f.baseBlock + (lba - f.firstLba)
    let c : Chip := { c with buf := { c.buf with
      fills := if g.left = [] then c.buf.fills.erase f else c.buf.fills.map (fun x => if x = f then g else x) } }
    let keep := fun (c : Chip) =>
      ({ c with buf := { c.buf with
          lruClock := c.buf.lruClock + 1,
          store := c.buf.store ++ [{ volume := f.volume, lba := lba, off := 4096 * line, outcome := outcome, ahead := f.ahead, used := c.buf.lruClock + 1 }] } } : Chip)
    let data := decide (outcome ≤ ouTransient)
    match f.uid with
    | none => if data && kept then keep c else c
    | some uid =>
      match c.cmd uid with
      | none => if data && kept then keep c else c
      | some m =>
        let i := lba - m.arg0
        if !data then c.noteBlock uid i outcome
        else if !kept then c.continueRead uid
        else if m.opcode = opVerify then c.noteBlock uid i outcome
        else if m.opcode = opRead ∧ m.mark.isNone then (keep c).pushBlock uid i line else (keep c).noteBlock uid i outcome

/-- The data of an arrived block goes into the buffer, and into the cache where its entry says so. -/
def Chip.storeArrival (c : Chip) (line : Nat) (install : Bool) (data : List Byte) : Chip :=
  let c := c.memWrite (4096 * line) data
  if install && c.cacheOn && (c.lineOf line).isNone then (c.install { line := line, dirty := false }).inc CCH_INSTALLS_COUNT else c

/-- The buffer controller takes the next item: checked against its fill entry, stored, and reported to its core. -/
def Chip.blockArrival (c : Chip) : Chip :=
  match (c.weir (weirKey 16 0)).items with
  | [] => c
  | it :: _ =>
    let bs := it.flatMap (fun w => leBytes 8 w.v.toNat)
    let get := fun (o n : Nat) => ofLeBytes ((bs.drop o).take n)
    let lba := get 6 5
    let number := get 24 4
    let core := number / 2 ^ 28
    let slot := number % 4096
    if core < 12 ∧ c.credits 5 core < 4 then c else
    let r := if core < 12 then c.memRead (fillAddr core slot) 16 else (none, c)
    let c := r.2.takeItem 16 0
    let e := r.1.getD []
    let ent := fun (o n : Nat) => ofLeBytes ((e.drop o).take n)
    let mismatch := r.1.isNone || ent 9 1 != get 5 1 || decide (lba < ent 4 5) || decide (ent 4 5 + ent 12 2 ≤ lba)
    let stale := r.1.isSome && ent 10 1 != number / 2 ^ 20 % 256
    let c := if mismatch then (c.inc CCH_FILL_MISMATCH_COUNT).mark CCH_EVENT_FILL_MISMATCH else c
    let c := if stale then c.inc CCH_FILL_STALE_COUNT else c
    let kept := !mismatch && !stale
    let c := if kept && decide (32 < bs.length) then
        c.storeArrival (ent 0 4 + (lba - ent 4 5)) ((ent 11 1).testBit 0) (bs.drop 32) else c
    if 12 ≤ core then c else
    let head := bs.take 28 ++ leBytes 1 (stale.toNat + 2 * mismatch.toNat) ++ leBytes 3 0
    let c := (c.commitItem 5 core ((List.range 4).map (fun i => BitVec.ofNat 64 (ofLeBytes ((head.drop (8 * i)).take 8))))).inc CCH_ARRIVALS_COUNT
    if c.coreOnline core then (c.takeItem 5 core).coreArrival number lba (get 11 1) kept else c

/-- BLOCK_ARRIVAL. -/
def execBlockArrival (s : State) : Out := s.on fun c => c.blockArrival

/-! ### Ends of reads (R357, R492) -/

/-- Requests that can bring nothing any more: their blocks are STATION_LOST. -/
def Chip.loseFills (c : Chip) (who : FillReq → Bool) : Chip :=
  let gone := c.buf.fills.filter who
  let c : Chip := { c with buf := { c.buf with fills := c.buf.fills.filter (fun f => !who f) } }
  gone.foldl (fun c f => match f.uid.bind c.cmd with
    | some m => f.left.foldl (fun c lba => c.noteBlock m.uid (lba - m.arg0) ouStationLost) c
    | none => c) c

/-- A request of a read that stops: blocks in a retry sequence end at its next attempt boundary, all others at once. -/
def Chip.stopFill (c : Chip) (f : FillReq) : Chip :=
  let p := f.volume
  let fr := c.frm p
  let side := (c.vol p).side
  let there := fr.reqs.any (fun r => r.number == f.number)
  let seq := fun (h : Nat) => fr.retry.any (fun r => r.blocks.any (fun b => b.1 == h) || r.waiting.contains h)
  let held := f.left.filter (fun b => there && seq (homePba side b))
  let c := c.setFrm p { fr with
    reqs := (fr.reqs.map (fun r => if r.number = f.number then { r with aborted := true, left := r.left.filter seq } else r)).filter
      (fun r => !r.left.isEmpty) }
  let c : Chip := { c with buf := { c.buf with
    fills := if there && held.isEmpty then c.buf.fills.erase f else c.buf.fills.map (fun x => if x = f then { x with left := held } else x) } }
  match f.uid.bind c.cmd with
  | some m => (f.left.filter (fun b => !held.contains b)).foldl (fun c b => c.noteBlock m.uid (b - m.arg0) ouAbandoned) c
  | none => c

/-- A READ, VERIFY or PREFETCH is ended with a status (R492): it stops at the next block. -/
def Chip.stopRead (c : Chip) (m : Cmd) (status : Nat) : Chip :=
  let c := c.updCmd m.uid (fun m => { m with mark := some status })
  let c := (c.buf.fills.filter (fun f => f.uid == some m.uid)).foldl (fun c f => c.stopFill f) c
  let waits := (List.range m.arg1).filter (fun i => !c.buf.fills.any (fun f => f.uid == some m.uid && f.left.contains (m.arg0 + i)))
  waits.foldl (fun c i => c.noteBlock m.uid i ouAbandoned) c

/-! ### FWAITEV (R515) -/

/-- The pair that FWAITEV names, and the place of CMD_SEQ in its EVENT word (Tables 8.2 and 9.5). -/
def waitPair (p sel : Nat) : Nat × Nat × Nat := if sel = 0 then (p, 7, 0xFF0000) else (16 + p / 2, 9, 0xFC0000)

/-- The committed EVENT word of the pair. -/
def Chip.waitWord (c : Chip) (p sel : Nat) : Q := c.gateOut (waitPair p sel).1 (waitPair p sel).2.1

/-- CMD_SEQ of the committed EVENT word differs from the one last seen. -/
def Chip.seqChanged (c : Chip) (p sel : Nat) (seen : Word) : Bool :=
  let k := (waitPair p sel).2.2
  (c.waitWord p sel).toNat &&& k != seen.toNat &&& k

/-- FWAITEV: rd takes the EVENT word at once, or the sequencer stalls. A selector that names no pair is illegal (R505). -/
def execFwaitev (p : Pickup) (rd rs1 rs2 : Fin 32) (s : State) : Out := s.on fun c =>
  let e : Engine := .cs p
  let sel := (c.getX e rs2).toNat
  let seen := c.getX e rs1
  if 2 ≤ sel then c.raise e 2
  else if c.seqChanged p sel seen then c.setX e rd (BitVec.setWidth 64 (c.waitWord p sel))
  else c.setEng (engNum e) { c.eng (engNum e) with waitev := some (sel, rd.val, seen) }

/-- FWAITEV_RETURN: a committed period has changed CMD_SEQ. -/
def execFwaitevReturn (p : Pickup) (s : State) : Out := s.on fun c =>
  let e : Engine := .cs p
  match (c.eng (engNum e)).waitev with
  | none => c
  | some (sel, rd, seen) =>
    c.when (c.seqChanged p sel seen) fun c =>
      (c.setEng (engNum e) { c.eng (engNum e) with waitev := none }).setX e rd (BitVec.setWidth 64 (c.waitWord p sel))

end Sys2Proof.Machine
end

