-- ==== Sys2Proof/Machine/Writes.lean ====
section
/-! DEFINITION. WRITE (R281, R475), grants and data capsules (R473, R474, R555), surveys (R282, R283), FLUSH (R488), drains (R557, R558), staged
images (R496), and the completion of miss registers (R548). -/

namespace Sys2Proof.Machine

/-! ### Completing a WRITE (R56, R475, R489, R553) -/

/-- Read-ahead of the blocks of a WRITE is stale, and their copies in the block store are gone (R553). -/
def Chip.staleAhead (c : Chip) (m : Cmd) : Chip :=
  let hit := fun (f : FillReq) => f.ahead && f.volume == m.volume && decide (f.firstLba < m.arg0 + m.arg1) && decide (m.arg0 < f.firstLba + f.blocks)
  let c := (c.buf.fills.filter hit).foldl (fun c f => c.fillStale f.core f.slot) c
  { c with buf := { c.buf with
      store := c.buf.store.filter (fun x => !(x.volume == m.volume && decide (m.arg0 ≤ x.lba ∧ x.lba < m.arg0 + m.arg1))) } }

/-- The WRITE completes with OK. -/
def Chip.completeWrite (c : Chip) (m : Cmd) : Chip := (c.staleAhead m).finishS m.uid stOk

/-- Bytes that a command's data covers, and the bytes of its grants (R473). -/
def Cmd.dataBytes (m : Cmd) : Nat := if m.opcode = opWrite then 4096 * m.arg1 else m.arg1
def Cmd.grantBytes (m : Cmd) : Nat := (m.dataBytes + 4095) / 4096 * 4096

/-- A grant whose bytes have all been taken; of the last grant of an image, the bytes of the image. -/
def Grant.closed (g : Grant) (due : Nat) : Bool :=
  let need := (min (g.off + g.len) due + 63) / 64 - g.off / 64
  decide (need ≤ (g.taken.filter (fun k => decide (k < need))).length)

/-- All data of a command has been taken. -/
def Cmd.allTaken (m : Cmd) : Bool := decide (m.grantBytes ≤ m.granted) && m.grants.all (fun g => g.closed m.dataBytes)

/-- Host data for a line waits in a miss register. -/
def Chip.writeWaits (c : Chip) (line : Nat) : Bool :=
  c.buf.misses.any (fun x => x.line == line && x.accesses.any (fun a => match a with
    | .write _ _ => true
    | .push _ _ => false))

/-- A WRITE whose data is in the buffer completes, once the journal holds its volume (R475, R489). -/
def Chip.settleWrite (c : Chip) (uid : Nat) : Chip :=
  match c.cmd uid with
  | none => c
  | some m =>
    if m.opcode ≠ opWrite ∨ m.status.isSome ∨ m.wait ≠ .none ∨ m.restore = [] ∨ !m.allTaken ∨
        m.slots.any (fun i => c.writeWaits (slotAddr i / 4096)) then c
    else if c.undurable (c.discOf m.volume) then c.completeWrite m
    else (c.updCmd uid fun m => { m with wait := .seal }).journalOp (c.discOf m.volume) 1 (some uid)

/-- MISS_FILL (R548): the line is installed, host data goes into it, pushes are made; a block that could not be read is read from the medium. -/
def Chip.missFill (c : Chip) (line : Nat) (errs : List UnitErr) : Chip :=
  match c.missDone line errs with
  | none => c
  | some (acc, ok, c) =>
    let c := acc.foldl (fun c a => match a with
      | .push uid i => if ok then c.pushNow uid i line else c.continueRead uid
      | .write _ _ => c) c
    (c.host.cmds.filter (fun m => m.opcode == opWrite && m.slots.any (fun i => slotAddr i / 4096 == line))).foldl (fun c m => c.settleWrite m.uid) c

/-- MISS_FILL. -/
def execMissFill (line : Nat) (errs : List UnitErr) (s : State) : Out := s.on fun c => c.missFill line errs

/-! ### The check of a WRITE (R281, R282) -/

/-- A layer of a range takes no writes (R117, R118, R362). -/
def Chip.rangeReadOnly (c : Chip) (p first n : Nat) : Bool :=
  (List.range 10).any (fun l => decide (first < layerBlocks * (l + 1)) && decide (layerBlocks * l < first + n) &&
    (!((c.vol p).layer l).valid || ((c.vol p).layer l).readOnly)) || c.rangeUnusable p first n

/-- The check, as one whole; with a block UNKNOWN the WRITE waits for its survey. -/
def Chip.writeCheck (c : Chip) (uid : Nat) : Chip :=
  match c.cmd uid with
  | none => c
  | some m =>
    let p := m.volume
    if m.status.isSome then c
    else if (c.vol p).closed then c.finishS uid stWritten
    else if !c.forWriting p ∨ c.rangeReadOnly p m.arg0 m.arg1 ∨ c.writeDegraded p then c.finishS uid stMediaFault
    else
      let lbas := (List.range m.arg1).map (m.arg0 + ·)
      if lbas.any (fun b => c.recOf p b == .unknown) then c.updCmd uid fun m => { m with wait := .station, acted := true }
      else match (List.range m.arg1).find? (fun i => c.recOf p (m.arg0 + i) != .blank) with
        | some i => c.finish uid stWritten i 0 0
        | none =>
          let c := lbas.foldl (fun c b => c.setRec p b .pending) c
          c.updCmd uid fun m => { m with wait := .none, acted := true, restore := lbas.map (fun b => (b, codeOfRec .blank)) }

/-- WRITE. -/
def Chip.startWrite (c : Chip) (m : Cmd) : Chip :=
  if volumeBlocks < m.arg0 + m.arg1 then c.finishS m.uid stOutOfRange
  else match c.volumeGate m with
    | some st => c.finishS m.uid st
    | none => if c.stationsOut then c.finishS m.uid stStationFault else c.writeCheck m.uid

/-- WRITE. -/
def execHostWrite (n tag : Nat) (s : State) : Out :=
  s.on fun c => match c.toRun n tag opWrite with
    | some m => (c.begin m).startWrite m
    | none => c

/-! ### Grants (R473, R555) -/

/-- Staging slots of the buffer. -/
def stagingSlots : Nat := 4194304

/-- The lowest `n` staging slots that are not reserved. -/
def Chip.freeStaging (c : Chip) (n : Nat) : List Nat :=
  ((List.range (min stagingSlots (c.buf.slotsUsed.length + n))).filter (fun i => !c.buf.slotsUsed.contains i)).take n

/-- Accumulators that blocks `lo` to `lo + n − 1` of a WRITE need. -/
def Cmd.accKeys (m : Cmd) (lo n : Nat) : List Nat :=
  ((List.range n).map (fun i =>
    let h := homePba 0 (m.arg0 + lo + i)
    accKey m.volume (pbaLayer h) (slotCluster (pbaSlot h)))).eraseDups

/-- Accumulators in use, or promised to granted blocks. -/
def Chip.accsHeld (c : Chip) : List Nat :=
  ((c.path.accs.filter (fun k => k.2.live)).map (·.1) ++
    (c.host.cmds.filter (fun m => m.opcode == opWrite && !m.inPath && decide (0 < m.granted))).flatMap (fun m => m.accKeys 0 (m.granted / 4096))).eraseDups

/-- Every WRITE and PROGRAM_STAGE of the queue before `m` has its first grant, or its status. -/
def Chip.grantsBefore (c : Chip) (m : Cmd) : Bool :=
  (c.queueCmds m.queue).all (fun x => decide (m.uid ≤ x.uid) || !(x.opcode == opWrite || x.opcode == opStage) || x.status.isSome || decide (0 < x.granted))

/-- The class that a PROGRAM_STAGE names by its one bit (R480); 5 where it names none or several. -/
def stageClass (m : Cmd) : Nat := ((List.range 5).find? (fun k => m.arg0 == 2 ^ k)).getD 5

/-- Image staging of a class (Table 13.2). -/
def stageAddr (k : Nat) : Nat := (1120 + 32 * k) * mib

/-- The transfer-ready record of a grant, with the space that it reserves. -/
def Chip.postGrant (c : Chip) (m : Cmd) (len : Nat) (slots : List Nat) : Chip :=
  let c := c.updCmd m.uid fun m =>
    { m with grants := m.grants ++ [{ off := m.granted, len := len }], granted := m.granted + len, slots := m.slots ++ slots, acted := true }
  let c : Chip := { c with buf := { c.buf with slotsUsed := c.buf.slotsUsed ++ slots } }
  c.commitItem 2 m.queue (recordWords ⟨1, m.tag, m.queue, 0, m.granted, len, 0⟩)

/-- The next grant of a command: at most 1 MiB, and what space there is. -/
def Chip.grantPost (c : Chip) (n tag : Nat) : Chip :=
  match c.cmdOf n tag with
  | none => c
  | some m =>
    if !m.started ∨ m.mark.isSome ∨ m.wait ≠ .none ∨ m.grantBytes ≤ m.granted ∨ !c.grantsBefore m ∨ c.credits 2 n < 4 then c
    else if m.opcode = opWrite ∧ m.restore ≠ [] then
      let lo := m.granted / 4096
      let slots := c.freeStaging (min 256 (m.arg1 - lo))
      if slots = [] ∨ 4096 < ((c.accsHeld ++ m.accKeys lo slots.length).eraseDups).length then c
      else c.postGrant m (4096 * slots.length) slots
    else if m.opcode = opStage then
      let busy := c.boot.persisting.contains (stageClass m) ||
        c.host.cmds.any (fun x => x.opcode == opStage && decide (x.uid < m.uid) && x.status.isNone && stageClass x == stageClass m)
      if busy then c else c.postGrant m (min mib (m.grantBytes - m.granted)) []
    else c

/-- GRANT_POST. -/
def execGrantPost (n tag : Nat) (s : State) : Out := s.on fun c => c.grantPost n tag

/-! ### Staged images (R496) -/

/-- A class's staged image. -/
def Chip.stagedImage (c : Chip) (k : Nat) : List Byte := Cells.get (fun _ => []) c.boot.staged k

/-- The whole image has been received: it is checked, and staged or refused. -/
def Chip.stageDone (c : Chip) (m : Cmd) : Chip :=
  let k := stageClass m
  let r := c.memRead (stageAddr k) m.arg1
  let img := r.1.getD []
  let why := r.2.imageCheck k img m.arg1
  if why = 0 then
    (r.2.setBoot { r.2.boot with staged := Cells.put (fun _ => []) r.2.boot.staged k img }).finish m.uid stOk 0 (imgVersion img) 0
  else r.2.finishInvalid m.uid (0x100 + why)

/-- PROGRAM_STAGE: its grants wait while its class is being persisted (R626). -/
def execProgramStage (n tag : Nat) (s : State) : Out :=
  s.on fun c => match c.toRun n tag opStage with
    | none => c
    | some m =>
      let c := c.begin m
      if stageClass m = 5 ∨ m.arg1 < 64 ∨ 33554432 < m.arg1 then c.finishInvalid m.uid 5 else c

/-! ### Data capsules (R474, R475) -/

/-- The data of a WRITE goes into its staging slots. -/
def Chip.storeWrite (c : Chip) (m : Cmd) (off : Nat) (bs : List Byte) : Chip :=
  let i := off / 4096
  let k := 4096 - off % 4096
  let c := c.hostStore (slotAddr (m.slots.getD i 0) + off % 4096) (bs.take k)
  if bs.length ≤ k then c else c.hostStore (slotAddr (m.slots.getD (i + 1) 0)) (bs.drop k)

/-- The pieces of 64 bytes of a run that a grant has not taken before are taken. -/
def Grant.take (g : Grant) (off len : Nat) : Grant :=
  { g with taken := g.taken ++ ((List.range (len / 64)).map (fun k => (off - g.off) / 64 + k)).filter (fun k => !g.taken.contains k) }

/-- A data capsule that passed its checks is taken. -/
def Chip.takeData (c : Chip) (m : Cmd) (off : Nat) (bs : List Byte) : Chip :=
  let inside := fun (g : Grant) => decide (g.off ≤ off ∧ off + bs.length ≤ g.off + g.len)
  let m' := { m with grants := m.grants.map (fun g => if inside g then g.take off bs.length else g) }
  let c := c.updCmd m.uid (fun _ => m')
  if m.opcode = opWrite then (c.storeWrite m off bs).settleWrite m.uid
  else
    let c := c.memWrite (stageAddr (stageClass m) + off) bs
    if m'.allTaken then c.stageDone m' else c

/-- A data capsule commits in slot `slot` of data window `n` (R474). -/
def Chip.dataCapsule (c : Chip) (x n slot : Nat) (h : DataHeader) (bs : List Byte) : Chip :=
  if !c.windowOk x n then c.inc (SLC_WINDOW_DISCARDS_COUNT x) else
  let q := c.queue n
  if q.stopped ∨ q.dataHalted ∨ !h.commit then c else
  let pos := h.pos.toNat
  let off := h.offset.toNat
  let len := h.length.toNat
  let next := fun (c : Chip) =>
    c.setQueue n { c.queue n with dataHead := ((c.queue n).dataHead + 1) % 65536, dataExp := ((c.queue n).dataExp + 1) % 65536 }
  if pos ≠ q.dataExp ∨ slot ≠ q.dataExp % 2 then c.intakeError n true 3 pos
  else match (c.queueCmds n).find? (fun m => m.tag == h.tag.toNat && m.status.isNone && m.mark.isNone) with
    | none =>
      if q.doneTags.contains h.tag.toNat ∨ (c.queueCmds n).any (fun m => m.tag == h.tag.toNat) then next (c.inc (SLC_LATE_DATA_COUNT x))
      else c.intakeError n true 5 pos
    | some m =>
      if off % 64 ≠ 0 ∨ len % 64 ≠ 0 ∨ len < 64 ∨ 4096 < len then c.intakeError n true 6 pos
      else if !(m.grants.any (fun g => decide (g.off ≤ off ∧ off + len ≤ g.off + g.len) && !g.closed m.dataBytes)) then c.intakeError n true 5 pos
      else next (c.takeData m off bs)

/-- DATA_CAPSULE: the data given are the LENGTH bytes that follow the header, where LENGTH is a length that a capsule may have. -/
def execDataCapsule (x : Port) (n slot : Nat) (h : DataHeader) (bytes : List Byte) (s : State) : Out :=
  s.onIf (bytes.length == h.length.toNat || decide (4096 < h.length.toNat)) fun c => c.dataCapsule x n slot h bytes

/-! ### Write items across the Flume (R256) -/

/-- A staged block leaves for its write channel: header and data in WRITE_DATA packets. -/
def Chip.sendWrite (c : Chip) (p : Nat) (e : Staged) (slotPba flags : Nat) (data : List Byte) : Chip :=
  let head := leBytes 5 slotPba ++ leBytes 5 e.homePba ++ leBytes 1 flags ++ [0] ++ leBytes 2 e.session ++ leBytes 6 e.volumeId ++ leBytes 4 e.seq ++
    leBytes 8 0
  (payloadChunks 18 (words32 1032 (head ++ data))).foldl (fun c w => c.flumeReady .toM ⟨6, 0, p, e.seq % 65536, w⟩) c

/-- Blocks of a cluster that its accumulator has still to read back are requested (R277). -/
def Chip.askReadBack (c : Chip) (p home : Nat) : Chip :=
  let layer := pbaLayer home
  let cluster := slotCluster (pbaSlot home)
  let a := c.accOf (accKey p layer cluster)
  let f := c.frm p
  let homes := a.toRead.map (fun t => mkPba (pbaSide home) layer (t % 8) (clusterSlot cluster + t / 8))
  if !a.live ∨ a.skipped ∨ homes = [] ∨ f.reqs.any (fun r => r.kind == .readBack && r.left.any (fun h => homes.contains h)) then c
  else c.setFrm p { f with reqs := f.reqs ++ [{ number := 0, kind := .readBack, lba := clusterLba layer cluster 0, left := homes }] }

/-- A whole item has reached write channel `p` (R44, R256): a relocation waits for its furrow, any other block takes its turn. -/
def Chip.writeArrived (c : Chip) (p : Nat) (ws : List (BitVec 32)) : Chip :=
  let bs := ws.flatMap (fun w => leBytes 4 w.toNat)
  let get := fun (o n : Nat) => ofLeBytes ((bs.drop o).take n)
  let seq := get 20 4
  let it : WriteItem := { slotPba := get 0 5, homePba := get 5 5, flags := get 10 1, gen := get 12 2, volumeId := get 14 6, request := seq,
                          user := (bs.drop 32).take 4096, fails := ((c.buf.staged.find? (fun e => e.seq == seq)).map (·.fails)).getD 0 }
  if it.flags.testBit 1 then c.addReloc p it
  else (c.setWch p { c.wch p with items := (c.wch p).items ++ [it] }).askReadBack p it.homePba

/-! ### Drains (R557, R558) -/

/-- Data of a staged entry. -/
def Chip.stagedData (c : Chip) (e : Staged) : Option (List Byte) × Chip := c.memRead (slotAddr e.slot) 4096

/-- A drain trigger holds for volume `p`. -/
def Chip.drainDue (c : Chip) (p : Nat) : Bool :=
  let es := (c.stagedOf (c.discOf p)).filter (fun e => e.state != 4)
  let staged := es.filter (fun e => e.state == 1)
  let covered := c.host.cmds.any (fun m => m.opcode == opFlush && m.started && m.status.isNone && es.any (fun e => m.covered.contains e.seq)) ||
    ((c.endingCmd p opUnmount).isSome || (c.endingCmd p opClose).isSome) && !es.isEmpty
  decide (c.fld CCH_DRAIN_START * 256 ≤ staged.length) && !staged.isEmpty ||
    (staged.head?).any (fun e => decide (c.fld CCH_DRAIN_AGE * 1000000000 ≤ (c.nowH - e.at_).toNat)) || covered ||
    decide (c.fld CCH_DRAIN_FULL_PCT * stagingSlots < 100 * c.buf.slotsUsed.length) && !es.isEmpty

/-- The order of the blocks of a batch: by furrow and slot of each layer. -/
def batchLess (x y : Staged) : Bool :=
  decide ((pbaLayer x.homePba, pbaFurrow x.homePba, pbaSlot x.homePba) = (pbaLayer y.homePba, pbaFurrow y.homePba, pbaSlot y.homePba)) ||
    decide (pbaLayer x.homePba < pbaLayer y.homePba ∨ pbaLayer x.homePba = pbaLayer y.homePba ∧
      (pbaFurrow x.homePba < pbaFurrow y.homePba ∨ pbaFurrow x.homePba = pbaFurrow y.homePba ∧ pbaSlot x.homePba < pbaSlot y.homePba))

/-- Insert by that order. -/
def batchInsert (e : Staged) : List Staged → List Staged
  | [] => [e]
  | x :: t => if batchLess e x then e :: x :: t else x :: batchInsert e t

/-- An entry is handed: its data is read, joins its accumulator, and leaves for the write channel. Uncorrectable data stops the device (R539). -/
def Chip.hand (c : Chip) (p : Nat) (e : Staged) : Chip :=
  if c.isFatal then c else
  match c.stagedData e with
  | (none, c) => c
  | (some data, c) =>
    let c := c.updStaged e.seq fun e => { e with state := 2 }
    let c := c.accAdd (accKey p (pbaLayer e.homePba) (slotCluster (pbaSlot e.homePba))) (homeIdx e.homePba) data
    c.sendWrite p e e.homePba 0 data

/-- A drain starts or goes on: the next batch of the oldest STAGED entries of the drain, up to one that waits for its survey. -/
def Chip.drainStart (c : Chip) (p : Nat) : Chip :=
  if !c.flag FLM_STATUS_UP ∨ c.isFatal ∨ !c.forWriting p ∨ c.writeDegraded p ∨ c.stState (p / 2) ≠ sMounted then c else
  let es := c.stagedOf (c.discOf p)
  let seqs := (es.filter (fun e => e.state != 4)).map (·.seq)
  let c : Chip := if c.buf.drains.any (fun d => d.1 == p) ∨ !c.drainDue p then c
    else { c with buf := { c.buf with drains := c.buf.drains ++ [(p, seqs)] } }
  match c.buf.drains.find? (fun d => d.1 == p) with
  | none => c
  | some d =>
    let room := 32 - ((c.arch.toM.ready.filter (fun k => k.ty == 6)).length + 16) / 17
    let run := ((es.filter (fun e => e.state == 1)).takeWhile (fun e => !e.survey && d.2.contains e.seq)).take room
    (run.foldr batchInsert []).foldl (fun c e => c.hand p e) c

/-- DRAIN_START. -/
def execDrainStart (v : Pickup) (s : State) : Out := s.on fun c => c.drainStart v

/-! ### Surveys (R282, R283) -/

/-- A block that was handed before a reset, or whose spare slot was found recorded, goes to the next spare slot (R272, R283). -/
def Chip.surveyRelocate (c : Chip) (p : Nat) (e : Staged) : Chip :=
  let it : WriteItem := { slotPba := e.homePba, homePba := e.homePba, flags := 0, gen := e.session, volumeId := e.volumeId, request := e.seq, user := [],
                          fails := e.fails }
  match c.assignSpare p e.homePba with
  | (none, c) => (c.updStaged e.seq fun e => { e with survey := false }).writeFailed p it
  | (some pba, c) =>
    let c := c.updStaged e.seq fun e => { e with survey := false, state := 3, spare := some pba }
    match c.stagedData e with
    | (none, c) => c
    | (some data, c) => c.sendWrite p e pba 2 data

/-- An entry whose assigned spare slot is blank is recorded there. -/
def Chip.surveyResend (c : Chip) (p : Nat) (e : Staged) (pba : Nat) : Chip :=
  let c := c.updStaged e.seq fun e => { e with survey := false }
  match c.stagedData e with
  | (none, c) => c
  | (some data, c) => c.sendWrite p e pba 2 data

/-- The place of a slot in a survey's mask: bit 8 × furrow + offset. -/
def surveyBlank (mask : BitVec 64) (furrow m : Nat) : Bool := mask.getLsbD (8 * furrow + m)

/-- What a survey of a cluster's 64 slots decides: UNKNOWN blocks, entries of R283 in their home slots, and the WRITEs that waited for it. -/
def Chip.surveyCluster (c : Chip) (p layer cluster : Nat) (mask : BitVec 64) : Chip :=
  let mine := fun (home : Nat) => pbaLayer home == layer && slotCluster (pbaSlot home) == cluster
  let lbas := (List.range 56).map (clusterLba layer cluster)
  let asked := c.host.cmds.any (fun m => m.opcode == opWrite && m.volume == p && m.wait == .station && m.status.isNone &&
    lbas.any (fun b => decide (m.arg0 ≤ b ∧ b < m.arg0 + m.arg1) && c.recOf p b == .unknown))
  let es := (c.stagedOf (c.discOf p)).filter (fun e => e.survey && e.state == 1 && mine e.homePba)
  if !asked && es.isEmpty then c else
  let again := ((List.range 8).filter (fun k => c.flag (RCH_CTRL_DEGRADED (8 * p + k)))).length
  let c := c.add (WCH_SURVEY_SLOTS_COUNT p) (64 + 8 * again)
  let c := (List.range 56).foldl (fun c t =>
    let b := clusterLba layer cluster t
    if c.recOf p b = .unknown then c.setRec p b (if surveyBlank mask (t % 8) (t / 8) then .blank else .recorded) else c) c
  let c := es.foldl (fun c e =>
    if surveyBlank mask (pbaFurrow e.homePba) (slotInZone (pbaSlot e.homePba) % 8) then c.updStaged e.seq fun e => { e with survey := false }
    else c.surveyRelocate p e) c
  (c.host.cmds.filter (fun m => m.opcode == opWrite && m.volume == p && m.wait == .station && m.status.isNone)).foldl (fun c m => c.writeCheck m.uid) c

/-- A survey of eight spare slots of a zone on every furrow: group `g` of the 32 of its spare area (R283). -/
def Chip.surveySpares (c : Chip) (p layer zone g : Nat) (mask : BitVec 64) : Chip :=
  let first := spareBase zone + 8 * g
  let es := (c.stagedOf (c.discOf p)).filter (fun e => e.survey && e.state == 3 && e.spare.any (fun s =>
    pbaLayer s == layer && decide (first ≤ pbaSlot s ∧ pbaSlot s < first + 8)))
  if es.isEmpty then c else
  let c := c.add (WCH_SURVEY_SLOTS_COUNT p) 64
  es.foldl (fun c e =>
    let s := e.spare.getD 0
    if surveyBlank mask (pbaFurrow s) (pbaSlot s - first) then c.surveyResend p e s else c.surveyRelocate p e) c

/-- SURVEY: of cluster `cluster`, or, from 244,160 on, of the spare slots in group g of zone z at 244,160 + 32 z + g (the model's numbering). -/
def execSurvey (p : Pickup) (layer : Fin 10) (cluster : Nat) (blank : BitVec 64) (s : State) : Out :=
  s.onIf (decide (cluster < 246208)) fun c =>
    c.when (c.forWriting p && c.stState (p / 2) == sMounted && c.flag FLM_STATUS_UP && !c.isFatal && !c.flag (RCH_CTRL_DEGRADED (8 * p))) fun c =>
      (if cluster < 244160 then c.surveyCluster p layer cluster blank
       else c.surveySpares p layer ((cluster - 244160) / 32) ((cluster - 244160) % 32) blank).volStep p

/-! ### FLUSH (R488) -/

/-- The entries that a FLUSH covers, and the blocks of the covered WRITEs. -/
def Chip.flushCover (c : Chip) (m : Cmd) : List Nat × Nat :=
  let global := m.flags.testBit 0
  ((c.buf.staged.filter (fun e => e.queue == m.queue || (global && e.posted.any (fun k => decide (k < m.seen))))).map (·.seq),
    (c.queue m.queue).written + (if global then m.seen - m.seenOwn else 0))

/-- An earlier WRITE of the queue has not entered the completion path. -/
def Chip.flushWaits (c : Chip) (m : Cmd) : Bool :=
  (c.queueCmds m.queue).any (fun x => decide (x.uid < m.uid) && x.opcode == opWrite && !x.inPath && (x.status.isNone || x.status == some stOk))

/-- FLUSH. -/
def Chip.startFlush (c : Chip) (m : Cmd) : Chip :=
  if c.flushWaits m then c.updCmd m.uid fun m => { m with wait := .engine }
  else
    let mgmt := m.flags.testBit 1
    let cov := c.flushCover m
    let c := c.updCmd m.uid fun m => { m with wait := .none, covered := cov.1, count := cov.2 % 2 ^ 32, acted := true }
    let gate := if mgmt then (match c.volumeGate m with
        | some st => some st
        | none => if c.stationsOut then some stStationFault else none) else none
    match gate with
    | some st => c.finish m.uid st 0 0 (cov.2 % 2 ^ 32)
    | none =>
      if m.flags.testBit 0 ∧ c.buf.lost ≠ [] then c.finish m.uid stStationFault 0 0 (cov.2 % 2 ^ 32)
      else if mgmt ∧ c.forWriting m.volume then
        ((c.updCmd m.uid fun m => { m with wait := .drain }).startUpdate m.volume m.uid false).volStep m.volume
      else c.settleFlushes

/-- FLUSH. -/
def execHostFlush (n tag : Nat) (s : State) : Out :=
  s.on fun c => match c.toRun n tag opFlush with
    | some m => (c.begin m).startFlush m
    | none => match c.cmdOf n tag with
      | some m => if m.opcode = opFlush ∧ m.started ∧ m.wait = .engine then c.startFlush m else c
      | none => c

end Sys2Proof.Machine
end

