-- ==== Sys2Proof/Machine/Admin.lean ====
section
/-! DEFINITION. The admin commands but ACTIVATE and CALIBRATE (R480 to R482, R490 to R493, R551, R554), how commands end early (R492), and what a
port's reset does to its commands (R494). -/

namespace Sys2Proof.Machine

/-! ### Commands that end early (R492) -/

/-- A command leaves what its station holds for it. -/
def Chip.dropWaiter (c : Chip) (m : Cmd) : Chip :=
  let c := (List.range 8).foldl (fun c s =>
    if (c.stn s).waiters.contains m.uid then c.setStn s { c.stn s with waiters := (c.stn s).waiters.filter (· != m.uid) } else c) c
  match (c.vol m.volume).qual with
  | some q =>
    if m.opcode = opMount ∧ q.waiters.contains m.uid then
      c.setVol m.volume { c.vol m.volume with qual := some { q with waiters := q.waiters.filter (· != m.uid) } }
    else c
  | none => c

/-- A MOUNT is ended: the one that started its volume's qualification ends that at its next atomic step, with the MOUNTs that joined it; any other
ends alone (R363, R492). -/
def Chip.endMount (c : Chip) (m : Cmd) (st : Nat) : Chip :=
  match (c.vol m.volume).qual with
  | some q =>
    if q.waiters.head? = some m.uid then
      (c.setVol m.volume { c.vol m.volume with qual := some { q with stop := true } }).updCmd m.uid fun m => { m with mark := some st }
    else (c.dropWaiter m).finishS m.uid st
  | none => (c.dropWaiter m).finishS m.uid st

/-- A WRITE is ended: grants and data are lost, its blocks return to the state they had at the check. -/
def Chip.endWrite (c : Chip) (m : Cmd) (st : Nat) : Chip :=
  let c := (c.undoWrite m).finishS m.uid st
  if m.wait = .seal then c.journalSettle (c.discOf m.volume) else c

/-- A command that has started and whose status is open ends with `st`. -/
def Chip.endStarted (c : Chip) (m : Cmd) (st : Nat) : Chip :=
  if m.opcode ∈ [opRead, opVerify, opPrefetch] then
    if m.wait = .engine then c.finishS m.uid st else c.stopRead m st
  else if m.opcode = opWrite then c.endWrite m st
  else if m.opcode = opFlush then c.finish m.uid st 0 0 m.count
  else if m.opcode = opMount then c.endMount m st
  else if m.opcode = opScrub ∧ c.buf.scrub.uid = some m.uid then (c.scrubEnd.finishS m.uid st).nextScrub
  else if m.opcode = opCache ∧ c.host.barrier = some m.uid then
    ({ c with host := { c.host with barrier := none } } : Chip).finishS m.uid st
  else if m.opcode = opQreset then c.updCmd m.uid fun m => { m with mark := some st }
  else if m.opcode = opActivate then
    if m.acted then c.updCmd m.uid fun m => { m with mark := some st }
    else
      let mine := c.host.activating == some m.uid
      let c : Chip := if mine then { c with host := { c.host with activating := none, coresStop := false, begun := [], done := [] } } else c
      let c := if mine then (List.range 16).foldl (fun c p => c.setSeqr p { c.seqr p with renew := false }) c else c
      c.finishS m.uid st
  else (c.dropWaiter m).finishS m.uid st

/-- UNMOUNT, CLOSE_VOLUME and CALIBRATE run to their end; another status than theirs is all that a reset gives them. -/
def runsOn (op : Nat) : Bool := op == opUnmount || op == opClose || op == opCalibrate

/-- A command of the table ends with `st` under R492; one whose completion has entered the path keeps its status (R491). -/
def Chip.endCmd (c : Chip) (uid st : Nat) : Chip :=
  match c.cmd uid with
  | none => c
  | some m =>
    if m.inPath ∨ m.mark.isSome then c
    else if m.status.isSome then
      let c := if m.opcode = opWrite then c.undoWrite m else c
      let count := if m.opcode = opFlush then m.count else 0
      c.updCmd uid fun m => { m with status := some st, blockIndex := 0, result := 0, count := count }
    else if runsOn m.opcode then c.updCmd uid fun m => { m with mark := some st }
    else if !m.started then (c.begin m).finishS uid st
    else c.endStarted m st

/-! ### ABORT (R490, R491) -/

/-- Commands that ABORT does not end (R490). -/
def notAbortable (op : Nat) : Bool :=
  op ∈ [opAbort, opQreset, opQcreate, opQdelete, opStage, opActivate, opUnmount, opClose, opCalibrate, opStation]

/-- ABORT. -/
def Chip.startAbort (c : Chip) (m : Cmd) : Chip :=
  let n := m.arg0 % 65536
  let q := c.queue n
  if !q.created ∨ q.port ≠ m.port then c.finishInvalid m.uid 7
  else match c.host.cmds.find? (fun x => x.queue == n && x.tag == m.arg0 / 65536 && !x.inPath) with
    | none => c.finishS m.uid stAlready
    | some t =>
      if notAbortable t.opcode then c.finishInvalid m.uid 9
      else (c.updCmd m.uid fun m => { m with wait := .target t.uid, acted := true }).endCmd t.uid stAborted

/-- ABORT. -/
def execAbort (n tag : Nat) (s : State) : Out :=
  s.on fun c => match c.toRun n tag opAbort with
    | some m => (c.begin m).startAbort m
    | none => c

/-! ### QRESET (R493) -/

/-- A committed set that is taken for a reset: its command has the reset's status (R493 step 3). -/
def Chip.takeEnded (c : Chip) (n : Nat) (t : CapSet) (st : Nat) : Chip :=
  let m := { c.cmdOfSet n t 0 with core := none, started := true }
  let q := c.queue n
  let c := c.setQueue n { q with sets := q.sets.drop 1, head := (q.head + t.capsules.length) % 65536, order := q.order ++ [m.uid] }
  let c : Chip := { c with host := { c.host with cmds := c.host.cmds ++ [m], nextUid := m.uid + 1 } }
  ((c.inc (SLC_TAKEN_COUNT m.port)).trimSets n).finishS m.uid st

/-- QRESET. -/
def Chip.startQreset (c : Chip) (m : Cmd) : Chip :=
  let n := m.arg0 % 65536
  let q := c.queue n
  if !q.created ∨ q.port ≠ m.port then c.finishInvalid m.uid 7
  else
    let own := n == m.queue
    let c : Chip := { c with host := { c.host with qresets := c.host.qresets ++ [(n, m.uid)] } }
    let c := c.updCmd m.uid fun m => { m with acted := true }
    let c := if own then c
      else
        let c := (c.setQueue n { c.queue n with stopped := true, open_ := [] }).cisSync (2 * n)
        (c.queue n).sets.foldl (fun c t => c.takeEnded n t stQueueReset) c
    let uids := (c.queue n).order.filter (fun u => !own || decide (u < m.uid))
    (uids.foldl (fun c u => c.endCmd u stQueueReset) c).settleQresets

/-- QRESET. -/
def execQreset (n tag : Nat) (s : State) : Out :=
  s.on fun c => match c.toRun n tag opQreset with
    | some m => (c.begin m).startQreset m
    | none => c

/-! ### The Sluice's rows that end commands -/

/-- A command has left the table: what waited for earlier commands goes on. -/
def Chip.afterPost (c : Chip) : Chip := (List.range 16).foldl (fun c p => c.volStep p) c

/-- CACHE_DISABLE goes on: every command taken before it has completed (R551). -/
def Chip.settleBarrier (c : Chip) : Chip :=
  match c.host.barrier with
  | none => c
  | some b =>
    if c.host.cmds.any (fun x => decide (x.uid < b)) then c
    else
      let c := (c.writeBackAll.emptyCache).setFld CCH_CTRL_ENABLED 0
      ({ c with host := { c.host with barrier := none } } : Chip).finishS b stOk

/-- RING_RECORD_WRITE, with what the end of a command lets go on (R364, R487, R551). -/
def Chip.recordWrite (c : Chip) (r : Nat) (src : Option Nat) : Chip :=
  let n := c.host.cmds.length
  let c := c.ringRecordWrite r src
  if c.host.cmds.length < n then (c.afterPost).settleBarrier else c

/-- RING_RECORD_WRITE. -/
def execRingRecordWrite (r : Nat) (src : Option Nat) (s : State) : Out := s.on fun c => c.recordWrite r src

/-- SLUICE_TAKE. The volume of an UNMOUNT is UNMOUNTING from the moment it is taken (R364). -/
def Chip.takeNext (c : Chip) (n : Nat) : Chip :=
  let last := c.host.cmds.length
  let c := c.sluiceTake n
  match (c.host.cmds.drop last).head? with
  | some m =>
    if m.opcode = opUnmount ∧ m.status.isNone ∧ c.flag FLM_STATUS_UP ∧ c.mounted m.volume then c.setVolState m.volume vUnmounting else c
  | none => c

/-- SLUICE_TAKE. -/
def execSluiceTake (n : Nat) (s : State) : Out := s.on fun c => c.takeNext n

/-! ### QCREATE and QDELETE (Table 11.13, R476) -/

/-- The reason for which NUMBER cannot be created: 5 out of range, 8 it exists, or its number is the other port's. -/
def Chip.createRefused (c : Chip) (m : Cmd) (queue : Bool) : Nat :=
  let n := m.arg0 % 65536
  let taken := if queue then (c.queue n).created else (c.ring n).created
  let other := ((c.queue n).created && (c.queue n).port != m.port) || ((c.ring n).created && (c.ring n).port != m.port)
  if n < 2 ∨ c.scale ≤ n then 5 else if taken ∨ other then 8 else 0

/-- QCREATE of a ring. -/
def Chip.createRing (c : Chip) (m : Cmd) : Chip :=
  let n := m.arg0 % 65536
  let size := bitsOf m.arg0 24 5
  let base := bitsOf m.arg3 0 64
  if bitsOf m.arg0 32 16 ≠ 0 ∨ size < 4 ∨ 16 < size ∨ base % 4096 ≠ 0 then c.finishInvalid m.uid 5
  else
    let why := c.createRefused m false
    if why ≠ 0 then c.finishInvalid m.uid why
    else
      (c.setRing n { created := true, port := m.port, base := BitVec.ofNat 64 base, sizeLog2 := size, vector := bitsOf m.arg0 48 11,
                     intEn := m.arg1.testBit 0, intCount := bitsOf m.arg1 8 8, intTime := bitsOf m.arg1 16 8 }).finish m.uid stOk 0 n 0

/-- QCREATE of an intake queue. -/
def Chip.createQueue (c : Chip) (m : Cmd) : Chip :=
  let n := m.arg0 % 65536
  let r := bitsOf m.arg0 32 16
  if bitsOf m.arg0 24 5 ≠ 0 ∨ bitsOf m.arg0 48 11 ≠ 0 ∨ m.arg1 ≠ 0 ∨ m.arg3 ≠ 0 ∨ n < 2 ∨ c.scale ≤ n then c.finishInvalid m.uid 5
  else if !(c.ring r).created ∨ (c.ring r).port ≠ m.port then c.finishInvalid m.uid 7
  else
    let why := c.createRefused m true
    if why ≠ 0 then c.finishInvalid m.uid why
    else (c.setQueue n { created := true, port := m.port, ring := r }).finish m.uid stOk 0 n 0

/-- QCREATE_RING: a QCREATE whose KIND is 0. -/
def execQcreateRing (n tag : Nat) (s : State) : Out :=
  s.on fun c => match c.toRun n tag opQcreate with
    | some m => c.when (!m.arg0.testBit 16) fun c => (c.begin m).createRing m
    | none => c

/-- QCREATE_QUEUE: a QCREATE whose KIND is 1. -/
def execQcreateQueue (n tag : Nat) (s : State) : Out :=
  s.on fun c => match c.toRun n tag opQcreate with
    | some m => c.when (m.arg0.testBit 16) fun c => (c.begin m).createQueue m
    | none => c

/-- Staged entries of a queue that exists no more belong to no queue. -/
def Chip.orphanStaged (c : Chip) (n : Nat) : Chip :=
  c.setStaged (c.buf.staged.map (fun e => if e.queue = n then { e with queue := 65536 } else e))

/-- An intake queue is gone, with its windows, weirs and cells. -/
def Chip.deleteQueue (c : Chip) (n : Nat) : Chip :=
  let c := ((c.setQueue n {}).setWeir (weirKey 1 n) {}).setWeir (weirKey 2 n) {}
  ((c.setCisQ (2 * n) {}).setCisQ (2 * n + 1) {}).orphanStaged n

/-- QDELETE. -/
def Chip.startQdelete (c : Chip) (m : Cmd) : Chip :=
  let n := m.arg0 % 65536
  if n < 2 ∨ c.scale ≤ n then c.finishInvalid m.uid 5
  else if m.arg0.testBit 16 then
    let q := c.queue n
    if !q.created ∨ q.port ≠ m.port then c.finishInvalid m.uid 7
    else if q.order ≠ [] then c.finishInvalid m.uid 8
    else (c.deleteQueue n).finishS m.uid stOk
  else
    let g := c.ring n
    if !g.created ∨ g.port ≠ m.port then c.finishInvalid m.uid 7
    else if c.host.queues.any (fun q => q.2.created && q.2.ring == n) then c.finishInvalid m.uid 8
    else (c.setRing n {}).finishS m.uid stOk

/-- QDELETE. -/
def execQdelete (n tag : Nat) (s : State) : Out :=
  s.on fun c => match c.toRun n tag opQdelete with
    | some m => (c.begin m).startQdelete m
    | none => c

/-! ### GET_LOG (R482, Tables 11.14 and 11.20) -/

/-- Push what LENGTH bytes from OFFSET hold of a page, and complete. -/
def Chip.pushPage (c : Chip) (m : Cmd) (page : List Byte) : Chip :=
  let part := (page.drop m.arg1).take m.arg2
  (c.pushGo m.port m.entries 0 part).finish m.uid stOk 0 part.length 0

/-- An entry of the device log as the buffer holds it; an uncorrectable one has been rewritten (R539). -/
def Chip.logBytes (c : Chip) (i : Nat) : List Byte × Chip :=
  let r := c.memRead (mib + 32 * (i % 32768)) 32
  (r.1.getD (List.replicate 32 0), r.2)

/-- DEVICE_LOG page: the last 32,768 entries, oldest first; entries outside OFFSET and LENGTH are not read. -/
def Chip.deviceLog (c : Chip) (m : Cmd) : Chip :=
  let n := min c.core.logged 32768
  let first := c.core.logged - n
  let lo := min n (m.arg1 / 32)
  let hi := min n ((m.arg1 + m.arg2 + 31) / 32)
  let r := (List.range (hi - lo)).foldl (fun (r : List Byte × Chip) i =>
    let x := r.2.logBytes (first + lo + i)
    (r.1 ++ x.1, x.2)) ([], c)
  r.2.pushPage m (List.replicate (32 * lo) 0 ++ r.1)

/-- IDENTITY page. -/
def Chip.identityPage (c : Chip) : List Byte :=
  let head := leBytes 2 0x6416 ++ leBytes 1 0xC2 ++ leBytes 1 (c.fld GEN_CONFIG_QUEUE_SCALE) ++ leBytes 1 (c.fld GEN_CONFIG_PORT_MODE) ++
    leBytes 3 0 ++ leBytes 4 (c.fld GEN_RESIDENT_VERSION) ++ leBytes 4 0
  let cls := (List.range 5).flatMap (fun k =>
    let img := c.stagedImage k
    leBytes 4 (c.fld (BOOT_VERSION_VERSION k)) ++ leBytes 1 (c.fld (BOOT_IMAGE_SIGNER k)) ++
      leBytes 4 (if img = [] then 0 else imgVersion img) ++ leBytes 7 0)
  padTo 4096 (head ++ cls)

/-- DEFECT_LIST page of a layer, in order of home PBA; a volume that is not mounted has none. -/
def Chip.defectPage (c : Chip) (v l : Nat) : List Byte :=
  if !(c.mounted v || c.volState v == vUnmounting) then [] else
  let k := (c.vol v).layer l
  let all := k.unrecorded.foldl (fun ds d => ds.filter (fun x => decide (x.home < d.home)) ++ d :: ds.filter (fun x => decide (d.home < x.home))) k.defects
  all.flatMap defectBytes

/-- A record of the VOLUME_STATE page. -/
def Chip.volumeRecord (c : Chip) (p : Nat) : List Byte :=
  let st := c.volState p
  let v := c.vol p
  if st = vNotMounted ∨ st = vQualifying then leBytes 1 st ++ leBytes 31 0 else
  let j := c.journalLive.find? (fun x => x.1 == c.discOf p)
  leBytes 1 st ++ leBytes 1 (v.closed.toNat + 2 * j.isSome.toNat + 4 * (j.any (·.2)).toNat) ++ leBytes 2 (v.layer 0).session ++
    leBytes 4 (c.stagedOf (c.discOf p)).length ++ leBytes 6 v.volumeId ++ leBytes 2 (c.fld (WMM_STN_PU_LAYER_UNUSABLE (p / 2) (p % 2))) ++ leBytes 16 0

/-- VOLUME_STATE page. -/
def Chip.volumePage (c : Chip) : List Byte := (List.range 16).flatMap c.volumeRecord

/-- The core runs a GET_LOG that names page `k`. -/
def Chip.logRow (c : Chip) (n tag : Nat) (ok : Nat → Bool) (f : Cmd → Chip → Chip) : Chip :=
  match c.toRun n tag opGetLog with
  | some m => if ok (m.arg0 % 256) then f m (c.begin m) else c
  | none => c

/-- DEVICE_LOG: GET_LOG of page 1; of a page that Table 11.14 does not list, RANGE. -/
def execGetDeviceLog (n tag : Nat) (s : State) : Out :=
  s.on fun c => c.logRow n tag (fun k => k == 1 || k == 0 || decide (4 < k)) fun m c =>
    if m.arg0 % 256 = 1 then c.deviceLog m else c.finishInvalid m.uid 5

/-- IDENTITY. -/
def execGetIdentity (n tag : Nat) (s : State) : Out :=
  s.on fun c => c.logRow n tag (· == 2) fun m c => c.pushPage m c.identityPage

/-- DEFECT_LIST. -/
def execGetDefectList (n tag : Nat) (s : State) : Out :=
  s.on fun c => c.logRow n tag (· == 3) fun m c =>
    let v := bitsOf m.arg0 8 8
    let l := bitsOf m.arg0 16 8
    if 15 < v ∨ 9 < l then c.finishInvalid m.uid 5 else c.pushPage m (c.defectPage v l)

/-- VOLUME_STATE. -/
def execGetVolumeState (n tag : Nat) (s : State) : Out :=
  s.on fun c => c.logRow n tag (· == 4) fun m c => c.pushPage m c.volumePage

/-! ### SET_FEATURE (Table 11.15) -/

/-- The previous value of a feature over all units it names: free where they differ. -/
def Chip.oldValue (c : Chip) (xs : List Nat) : Nat × Chip :=
  match xs with
  | [] => (0, c)
  | x :: t => if t.all (· == x) then (x, c) else (c.draw.1.toNat % 2 ^ 32, c.draw.2)

/-- A SET_FEATURE over volumes or pickups. -/
def Chip.featureRow (c : Chip) (m : Cmd) (limit : Nat) (mdie : Bool) (get : Chip → Nat → Nat) (put : Nat → Chip → Nat → Chip) : Chip :=
  let sel := bitsOf m.arg0 16 8
  if (15 < sel ∧ sel ≠ 255) ∨ limit < m.arg1 then c.finishInvalid m.uid 5
  else if mdie ∧ !c.flag FLM_STATUS_UP then c.finishS m.uid stStationFault
  else
    let us := if sel = 255 then List.range 16 else [sel]
    let old := c.oldValue (us.map (get c))
    (us.foldl (put m.arg1) old.2).finish m.uid stOk 0 old.1 0

/-- The core runs a SET_FEATURE. -/
def Chip.featRow (c : Chip) (n tag : Nat) (ok : Nat → Bool) (f : Cmd → Chip → Chip) : Chip :=
  match c.toRun n tag opFeature with
  | some m => if ok (m.arg0 % 65536) then f m (c.begin m) else c
  | none => c

/-- READ_AHEAD of a volume. -/
def Chip.setReadAhead (c : Chip) (v x : Nat) : Chip :=
  { c with host := { c.host with readAhead := Cells.put (fun _ => 256) c.host.readAhead v x } }

/-- FEATURE_READ_AHEAD; a SET_FEATURE of a feature that Table 11.15 does not list is out of range. -/
def execFeatureReadAhead (n tag : Nat) (s : State) : Out :=
  s.on fun c => c.featRow n tag (fun k => k == 1 || k == 0 || decide (4 < k)) fun m c =>
    if m.arg0 % 65536 = 1 then
      c.featureRow m 2048 false (fun c v => Cells.get (fun _ => 256) c.host.readAhead v) (fun x c v => c.setReadAhead v x)
    else c.finishInvalid m.uid 5

/-- FEATURE_RESCUE. -/
def execFeatureRescue (n tag : Nat) (s : State) : Out :=
  s.on fun c => c.featRow n tag (· == 2) fun m c =>
    c.featureRow m 1 true (fun c p => c.fld (FRM_CTRL_RESCUE_EN p)) (fun x c p => c.setFld (FRM_CTRL_RESCUE_EN p) x)

/-- FEATURE_LEARN: every lane of the pickup. -/
def execFeatureLearn (n tag : Nat) (s : State) : Out :=
  s.on fun c => c.featRow n tag (· == 3) fun m c =>
    let sel := bitsOf m.arg0 16 8
    if (15 < sel ∧ sel ≠ 255) ∨ 1 < m.arg1 then c.finishInvalid m.uid 5
    else if !c.flag FLM_STATUS_UP then c.finishS m.uid stStationFault
    else
      let lanes := if sel = 255 then List.range 128 else (List.range 8).map (8 * sel + ·)
      let old := c.oldValue (lanes.map (fun l => c.fld (RCH_CTRL_LEARN_EN l)))
      (lanes.foldl (fun c l => c.setFld (RCH_CTRL_LEARN_EN l) m.arg1) old.2).finish m.uid stOk 0 old.1 0

/-- FEATURE_STATION_EVENTS of the command's port. -/
def execFeatureStationEvents (n tag : Nat) (s : State) : Out :=
  s.on fun c => c.featRow n tag (· == 4) fun m c =>
    if 1 < m.arg1 then c.finishInvalid m.uid 5
    else
      let old := (c.host.stationEvents.getD m.port false).toNat
      ({ c with host := { c.host with
          stationEvents := c.host.stationEvents.set m.port (m.arg1 == 1),
          logMark := if old = 0 ∧ m.arg1 = 1 then c.host.logMark.set m.port c.core.logged else c.host.logMark } } : Chip).finish m.uid stOk 0 old 0

/-! ### MOUNT, UNMOUNT, CLOSE_VOLUME (R288, R357, R359, R364) -/

/-- MOUNT: its decision, once it is taken. Without the Flume or the sampling PLL the station cannot be used (R49, R131). -/
def execMount (n tag : Nat) (s : State) : Out :=
  s.on fun c => match c.toRun n tag opMount with
    | some m =>
      let c := c.begin m
      if c.stationsOut then c.finishS m.uid stStationFault
      else ((c.updCmd m.uid fun m => { m with acted := true }).inc (WMM_STN_MOUNTS_COUNT (m.volume / 2))).decideMount m.uid
    | none => c

/-- UNMOUNT: without the Flume or the sampling PLL it completes with STATION_FAULT (R49, R131), and its volume is as it was. -/
def execUnmount (n tag : Nat) (s : State) : Out :=
  s.on fun c => match c.toRun n tag opUnmount with
    | some m =>
      let c := c.begin m
      if c.stationsOut then c.finishS m.uid stStationFault
      else (c.updCmd m.uid fun m => { m with wait := .drain, acted := true }).volStep m.volume
    | none => c

/-- CLOSE_VOLUME. -/
def execCloseVolume (n tag : Nat) (s : State) : Out :=
  s.on fun c => match c.toRun n tag opClose with
    | some m =>
      let c := c.begin m
      match c.volumeGate m with
      | some st => c.finishS m.uid st
      | none =>
        if c.stationsOut then c.finishS m.uid stStationFault
        else if (c.vol m.volume).closed then c.finishS m.uid stOk
        else if !c.forWriting m.volume then c.finishS m.uid stMediaFault
        else (c.updCmd m.uid fun m => { m with wait := .drain, acted := true }).volStep m.volume
    | none => c

/-! ### STATION_CONTROL (R481) -/

/-- The core runs a STATION_CONTROL of an action that `ok` names. With the sampling PLL failed only a reset reaches its station (R131). -/
def Chip.stationRow (c : Chip) (n tag : Nat) (ok : Nat → Bool) (f : Cmd → Chip → Chip) : Chip :=
  match c.toRun n tag opStation with
  | some m =>
    if !ok (bitsOf m.arg0 8 8) then c
    else
      let c := c.begin m
      if 7 < m.arg0 % 256 ∨ 5 < bitsOf m.arg0 8 8 then c.finishInvalid m.uid 5
      else if !c.flag FLM_STATUS_UP ∨ (c.afe.failed ∧ bitsOf m.arg0 8 8 ≠ 5) then c.finishS m.uid stStationFault
      else f m (c.updCmd m.uid fun m => { m with acted := true })
  | none => c

/-- A STATION_CONTROL PARK: it waits for the end of the park; where a park changes nothing it completes at once. -/
def Chip.hostPark (c : Chip) (m : Cmd) : Chip :=
  let s := m.arg0 % 256
  let c := c.park s cauHostPark
  if c.stState s = sParking then
    (c.updCmd m.uid fun m => { m with wait := .station }).setStn s { c.stn s with waiters := (c.stn s).waiters ++ [m.uid] }
  else c.finishS m.uid (if c.stState s = sFault then stStationFault else stOk)

/-- STATION_PARK; an ACTION above 5 is out of range. -/
def execStationPark (n tag : Nat) (s : State) : Out :=
  s.on fun c => c.stationRow n tag (fun k => k == 0 || decide (5 < k)) fun m c => c.hostPark m

/-- STATION_CLAMP. -/
def execStationClamp (n tag : Nat) (s : State) : Out :=
  s.on fun c => c.stationRow n tag (· == 1) fun m c => (c.clampReq (m.arg0 % 256) true).finishS m.uid stOk

/-- STATION_UNCLAMP. -/
def execStationUnclamp (n tag : Nat) (s : State) : Out :=
  s.on fun c => c.stationRow n tag (· == 2) fun m c => (c.clampReq (m.arg0 % 256) false).finishS m.uid stOk

/-- QUIET_ON. -/
def execQuietOn (n tag : Nat) (s : State) : Out :=
  s.on fun c => c.stationRow n tag (· == 3) fun m c => (c.setFld (SPN_CTRL_QUIET (m.arg0 % 256)) 1).finishS m.uid stOk

/-- QUIET_OFF. -/
def execQuietOff (n tag : Nat) (s : State) : Out :=
  s.on fun c => c.stationRow n tag (· == 4) fun m c => (c.setFld (SPN_CTRL_QUIET (m.arg0 % 256)) 0).finishS m.uid stOk

/-- STATION_RESET. -/
def execStationReset (n tag : Nat) (s : State) : Out :=
  s.on fun c => c.stationRow n tag (· == 5) fun m c =>
    (c.updCmd m.uid fun m => { m with wait := .station }).stationReset (m.arg0 % 256) (some m.uid)

/-! ### CACHE_CONTROL (R551) -/

/-- CACHE_DISABLE: the barrier holds what is taken later; the row may be run again until it is done. -/
def execCacheDisable (n tag : Nat) (s : State) : Out :=
  s.on fun c => match c.toRun n tag opCache with
    | some m =>
      if m.arg0 % 2 = 1 then c
      else
        let c := c.begin m
        if !c.cacheOn then c.finishS m.uid stOk
        else
          let c := c.updCmd m.uid fun m => { m with wait := .drain, acted := true }
          ({ c with host := { c.host with barrier := some m.uid } } : Chip).settleBarrier
    | none => match c.cmdOf n tag with
      | some m => if c.host.barrier = some m.uid then c.settleBarrier else c
      | none => c

/-- CACHE_ENABLE. -/
def execCacheEnable (n tag : Nat) (s : State) : Out :=
  s.on fun c => match c.toRun n tag opCache with
    | some m => c.when (m.arg0 % 2 == 1) fun c => ((c.begin m).setFld CCH_CTRL_ENABLED 1).finishS m.uid stOk
    | none => c

/-! ### What a port's reset does to its host side (R494) -/

/-- Uncompleted commands of the port end without completion; what runs on has no queue any more. -/
def Chip.endPortCmds (c : Chip) (x : Nat) : Chip :=
  let mine := c.host.cmds.filter (fun m => m.port == x)
  let starts := mine.filter (fun m => m.opcode == opMount)
  -- MOUNTs of the other port that joined a qualification which this reset ends (R494)
  let joined := starts.flatMap (fun m => match (c.vol m.volume).qual with
    | some q => if q.waiters.head? = some m.uid then q.waiters.filter (fun u => (c.cmd u).any (fun y => y.port != x)) else []
    | none => [])
  let c := joined.foldl (fun c u => c.updCmd u fun m => { m with mark := some stPortReset }) c
  let c := (mine.filter (fun m => !m.started)).foldl (fun c m => match m.core with
    | some k => c.updWeir 0 k fun w => { w with items := w.items.erase (dispatchItem m) }
    | none => c) c
  let c : Chip := { c with host := { c.host with
    cmds := (c.host.cmds.filter (fun m => m.port != x || m.status.isNone)).map (fun m =>
      if m.port = x then { m with silent := true, queue := 65536 + m.uid } else m) } }
  mine.foldl (fun c m => if m.status.isSome then (if m.opcode = opWrite ∧ !m.inPath then c.undoWrite m else c) else c.endCmd m.uid stAborted) c

/-- Every queue and ring of a port is deleted, with its commands and the settings of its MSI-X table; it issues no more writes. -/
def Chip.portResetHost (c : Chip) (x : Nat) : Chip :=
  let qs := ((c.host.queues.filter (fun q => q.2.created && q.2.port == x)).map (·.1))
  let rs := ((c.host.rings.filter (fun r => r.2.created && r.2.port == x)).map (·.1))
  let c : Chip := { c with host := { c.host with portHeld := c.host.portHeld.set x true, qresets := c.host.qresets.filter (fun r => !qs.contains r.1) } }
  let c := qs.foldl (fun c n => c.deleteQueue n) c
  let c := rs.foldl (fun c n => c.setRing n {}) c
  let c := c.endPortCmds x
  let c : Chip := { c with host := { c.host with
    msix := c.host.msix.filter (fun w => w.1 / 16384 != x),
    stationEvents := c.host.stationEvents.set x false, logMark := c.host.logMark.set x 0 } }
  (c.settleQresets.afterPost).settleBarrier

end Sys2Proof.Machine
end

