-- ==== Sys2Proof/Machine/Thermal.lean ====
section
/-! DEFINITION. Temperature sensors (R579 to R582), thermal levels (R586 to R589), aging monitors (R590, R591), the laser thermistor (R140, R580). -/

namespace Sys2Proof.Machine

/-! ### The thermistor (R140, R580) -/

/-- TH_CONVERSION. -/
def execThConversion (p : Pickup) (code : BitVec 12) (s : State) : Out :=
  s.on fun c => c.when (c.flag (AFE_PU_CTRL_TH_EN p)) fun c =>
    let n := code.toNat
    let c := ((c.setFld (AFE_TH_VALUE_CODE p) n).setFlag (AFE_PU_STATUS_TH_OPEN p) (decide (4000 ≤ n))).setFlag (AFE_PU_STATUS_TH_SHORT p)
      (decide (n ≤ 16))
    if 4000 ≤ n ∨ n ≤ 16 then c.mark AFE_EVENT_TH_FAULT else c

/-- The terms z^(2i+1)/(2i+1) of atanh z in 2^−60, from `i` on; `z2` is z² and `pow` z^(2i+1). -/
def atanhGo (z2 : Int) : Nat → Nat → Int → Int
  | 0, _, _ => 0
  | n + 1, i, pow => pow / (2 * i + 1 : Nat) + atanhGo z2 n (i + 1) (pow * z2 / 2 ^ 60)

/-- ln of n/d in 2^−60: powers of 2 are taken out until the quotient is below 2 (log entry 37). -/
def lnRatio (n d : Nat) : Int :=
  let k : Int := (n.log2 : Int) - d.log2
  let a : Int := if k < 0 then (n * 2 ^ k.natAbs : Nat) else n
  let b : Int := if k < 0 then d else (d * 2 ^ k.natAbs : Nat)
  let z := (a - b) * 2 ^ 60 / (a + b)
  k * 799144290325165979 + 2 * atanhGo (z * z / 2 ^ 60) 40 0 z

/-- TEMP of a code (R580): v = (code + 0.5)/4096 V over 50 µA, with R25 and B of CAL_TH_CFG. -/
def thermistorTemp (code r25 b : Nat) : Nat :=
  let l := lnRatio (625 * (2 * code + 1)) (256 * r25)
  let den := 100 * (b : Int) * 2 ^ 60 + 29815 * l
  if r25 = 0 ∨ b = 0 ∨ den ≤ 0 then (Config.thermistorTemp code r25 b).toNat
  else (limit 0 2047 (rndDiv (5 * 8 * 29815 * (b : Int) * 2 ^ 60 - 8366 * den) (5 * den))).toNat

/-! ### Levels (R586) -/

/-- The numbers of sensors and of the holders of levels. -/
def sensNum : Sensor → Nat
  | .die .h i => i
  | .die .m i => 12 + i
  | .laser p => 24 + p
def heatNum : Heat → Nat
  | .die .h => 0
  | .die .m => 1
  | .laser p => 2 + p

/-- WARN, THROTTLE, PARK in °C, HYST, and the level of a holder. -/
def heatLimit (h : Heat) (i : Nat) : Fld :=
  match h with
  | .die .h => [THH_LIMITS_WARN, THH_LIMITS_THROTTLE, THH_LIMITS_PARK].getD i THH_LIMITS_HYST
  | .die .m => [CAL_LIMITS_WARN, CAL_LIMITS_THROTTLE, CAL_LIMITS_PARK].getD i CAL_LIMITS_HYST
  | .laser p => [CAL_TH_LIMITS_WARN p, CAL_TH_LIMITS_THROTTLE p, CAL_TH_LIMITS_PARK p].getD i (CAL_TH_LIMITS_HYST p)
def heatLevel : Heat → Fld
  | .die .h => THH_STATUS_LEVEL
  | .die .m => CAL_STATUS_LEVEL
  | .laser p => CAL_PU_STATUS_LEVEL p

/-- TEMP of a temperature in °C. -/
def tempCode (t : Nat) : Nat := (t + 64) * 8

/-- Limit `i` of a holder as TEMP, and its hysteresis. -/
def Chip.heatAt (c : Chip) (h : Heat) (i : Nat) : Nat := tempCode (c.fld (heatLimit h i))
def Chip.heatHyst (c : Chip) (h : Heat) : Nat := 8 * c.fld (heatLimit h 3)

/-- Events and counters of a level entered. -/
def Chip.noteLevel (c : Chip) (h : Heat) (l : Nat) : Chip :=
  match h with
  | .die .h =>
    if l = 1 then (c.mark THH_EVENT_WARN).inc THH_WARNS_COUNT else if l = 2 then (c.mark THH_EVENT_THROTTLE).inc THH_THROTTLES_COUNT
    else (c.mark THH_EVENT_PARK).inc THH_PARKS_COUNT
  | _ =>
    if l = 1 then (c.mark CAL_EVENT_WARN).inc CAL_WARNS_COUNT else if l = 2 then (c.mark CAL_EVENT_THROTTLE).inc CAL_THROTTLES_COUNT
    else (c.mark CAL_EVENT_PARK).inc CAL_PARKS_COUNT

/-- Stations that a holder's level reaches: an H-die level only through the Flume (R588). -/
def Chip.heatStations (c : Chip) (h : Heat) : List Nat :=
  match h with
  | .die .h => if c.flag FLM_STATUS_UP then List.range 8 else []
  | .die .m => List.range 8
  | .laser p => [p.val / 2]

/-- CAL_STATUS.THROTTLED: some station's target speed is 4,200 rpm for a thermal level. -/
def Chip.throttled (c : Chip) : Chip := c.setFlag CAL_STATUS_THROTTLED ((List.range 8).any (fun s => decide (2 ≤ c.stationLevel s)))

/-- A holder's level becomes `new`: levels entered act, a level left is noted. -/
def Chip.applyLevel (c : Chip) (h : Heat) (new : Nat) : Chip :=
  let old := c.fld (heatLevel h)
  let c := (c.setFld (heatLevel h) new).throttled
  let c := (([1, 2, 3] : List Nat).filter (fun l => decide (old < l ∧ l ≤ new))).foldl (fun c l => c.noteLevel h l) c
  if old < new ∧ new = 3 then (c.heatStations h).foldl (fun c s => c.park s cauThermal) c
  else if new < old then c.mark (match h with
    | .die .h => THH_EVENT_LEVEL_DOWN
    | _ => CAL_EVENT_LEVEL_DOWN)
  else c

/-- Sensors of a die: the first of them among the sensors. -/
def dieBase (d : Die) : Nat := if d = .h then 0 else 12

/-- The level that broken sensors count as (R582). -/
def Chip.brokenLevel (c : Chip) (h : Heat) : Nat :=
  match h with
  | .die d =>
    let n := ((List.range 12).filter (fun i => (c.sens (dieBase d + i)).broken)).length
    if 3 ≤ n then 3 else if 1 ≤ n then 2 else 0
  | .laser p => if (c.sens (24 + p)).broken then 3 else 0

/-- The level that temperature alone gives, with the higher level of broken sensors, is the holder's. -/
def Chip.settleLevel (c : Chip) (h : Heat) : Chip :=
  let l := max (c.heat (heatNum h)).lvl (c.brokenLevel h)
  if l = c.fld (heatLevel h) then c else c.applyLevel h l

/-- One evaluation of a holder's temperature (Table 14.4). -/
def Chip.evalHeat (c : Chip) (h : Heat) (t : Nat) : Chip :=
  let k := c.heat (heatNum h)
  let hy := c.heatHyst h
  let up := fun (n i : Nat) => if c.heatAt h i ≤ t then min 2 (n + 1) else 0
  let down := fun (n i : Nat) => if t + hy < c.heatAt h i then min 2 (n + 1) else 0
  let k : HeatRec := { k with upW := up k.upW 0, upT := up k.upT 1, upP := up k.upP 2, downW := down k.downW 0, downP := down k.downP 2,
                              holding := decide (t + hy < c.heatAt h 1) }
  let l := if k.lvl = 3 ∧ 2 ≤ k.downP then 2 else k.lvl
  let l := if 2 ≤ k.upP then 3 else if 2 ≤ k.upT then max l 2 else if 2 ≤ k.upW then max l 1 else l
  let l := if l = 1 ∧ 2 ≤ k.downW then 0 else l
  (c.setHeat (heatNum h) { k with lvl := l }).settleLevel h

/-- THROTTLE_HOLD_END: 10 s below THROTTLE − HYST; THROTTLE is left, and WARN with it where its own limit has been met. -/
def execThrottleHoldEnd (h : Heat) (s : State) : Out :=
  s.on fun c =>
    let k := c.heat (heatNum h)
    c.when (k.holding && k.lvl == 2) fun c =>
      (c.setHeat (heatNum h) { k with lvl := if 2 ≤ k.downW then 0 else 1 }).settleLevel h

/-! ### Sensors (R579, R581) -/

/-- What a reading finds: 0 good, 1 OPEN, 2 SHORT, 3 RANGE. -/
def Chip.readingCode (c : Chip) (k : Sensor) (t : Nat) : Nat :=
  match k with
  | .die _ _ => if t = 0x7FF then 1 else if t = 0 then 2 else if t < 192 ∨ 1712 < t then 3 else 0
  | .laser p => if c.flag (AFE_PU_STATUS_TH_OPEN p) then 1 else if c.flag (AFE_PU_STATUS_TH_SHORT p) then 2 else if t < 352 ∨ 1472 < t then 3 else 0

def sensState : Sensor → Fld
  | .die .h i => THH_SENSOR_STATE i
  | .die .m i => CAL_SENSOR_STATE i
  | .laser p => CAL_TH_TEMP_STATE p
def sensTemp : Sensor → Fld
  | .die .h i => THH_SENSOR_TEMP i
  | .die .m i => CAL_SENSOR_TEMP i
  | .laser p => CAL_TH_TEMP_TEMP p
def sensPeak : Sensor → Fld
  | .die .h i => THH_SENSOR_PEAK i
  | .die .m i => CAL_SENSOR_PEAK i
  | .laser p => CAL_TH_TEMP_PEAK p
def sensHeat : Sensor → Heat
  | .die d _ => .die d
  | .laser p => .laser p

/-- A sensor is found broken. -/
def Chip.breakSensor (c : Chip) (k : Sensor) (code : Nat) : Chip :=
  let x := c.sens (sensNum k)
  let c := c.setFld (sensState k) code
  if x.broken then c.setSens (sensNum k) { x with good := 0, passed := false }
  else
    let c := c.setSens (sensNum k) { x with broken := true, good := 0, passed := false }
    match k with
    | .die .h _ => (c.mark THH_EVENT_SENSOR_BROKEN).inc THH_BROKEN_COUNT
    | _ => (c.mark CAL_EVENT_SENSOR_BROKEN).inc CAL_BROKEN_COUNT

/-- A broken sensor is good again after 10 good readings in a row and a stuck check passed. -/
def Chip.mendSensor (c : Chip) (k : Sensor) : Chip :=
  let x := c.sens (sensNum k)
  if x.broken ∧ 10 ≤ x.good ∧ x.passed then (c.setSens (sensNum k) { x with broken := false, bad := 0 }).setFld (sensState k) 0 else c

/-- HOTTEST, BROKEN and FAST of a die; the good sensor with the highest temperature. -/
def Chip.dieStatus (c : Chip) (d : Die) : Option Nat × Chip :=
  let good := (List.range 12).filter (fun i => !(c.sens (dieBase d + i)).broken)
  let t := fun (i : Nat) => c.fld (if d = .h then THH_SENSOR_TEMP i else CAL_SENSOR_TEMP i)
  let hot := good.foldl (fun (b : Option Nat) i => match b with
    | none => some i
    | some j => if t j < t i then some i else b) none
  let bits := (List.range 12).foldl (fun n i => n + if (c.sens (dieBase d + i)).broken then 2 ^ i else 0) 0
  let fast := (List.range 12).any (fun i => (c.sens (dieBase d + i)).fast)
  let c := match d with
    | .h => ((c.setFld THH_STATUS_HOTTEST (hot.getD 0)).setFld THH_STATUS_BROKEN bits).setFlag THH_STATUS_FAST fast
    | .m => ((c.setFld CAL_STATUS_HOTTEST (hot.getD 0)).setFld CAL_STATUS_BROKEN bits).setFlag CAL_STATUS_FAST fast
  (hot, c)

/-- The holder of a sensor is looked at after a change of the sensor: `read` where this was an evaluation with TEMP `t`. -/
def Chip.afterSensor (c : Chip) (k : Sensor) (read : Option Nat) : Chip :=
  match k with
  | .die d i =>
    let r := c.dieStatus d
    match read with
    | some t => if r.1 = some i.val then r.2.evalHeat (.die d) t else r.2.settleLevel (.die d)
    | none => r.2.settleLevel (.die d)
  | .laser p =>
    match read with
    | some t => if (c.sens (sensNum k)).broken then c.settleLevel (.laser p) else c.evalHeat (.laser p) t
    | none => c.settleLevel (.laser p)

/-- An evaluation that reads TEMP `t`. -/
def Chip.evalSensor (c : Chip) (k : Sensor) (t : Nat) : Chip :=
  let n := sensNum k
  let c := c.setFld (sensTemp k) t
  let c := if c.fld (sensPeak k) < t then c.setFld (sensPeak k) t else c
  let x := c.sens n
  let warm := decide (c.heatAt (sensHeat k) 0 ≤ t + 40)
  let x : SensRec := if warm then { x with fast := true, cool := 0 }
    else { x with cool := min 10 (x.cool + 1), fast := x.fast && decide (x.cool + 1 < 10) }
  let code := c.readingCode k t
  let c := if code = 0 then (c.setSens n { x with bad := 0, good := min 10 (x.good + 1) }).mendSensor k
    else
      let c := c.setSens n { x with bad := min 2 (x.bad + 1), good := 0 }
      if 1 ≤ x.bad then c.breakSensor k code else c
  c.afterSensor k (some t)

/-- SENSOR_EVALUATION. A thermistor without TH_EN is OFF, and its laser's level NORMAL (R580). -/
def execSensorEvaluation (k : Sensor) (temp : BitVec 11) (s : State) : Out :=
  s.on fun c => match k with
    | .die _ _ => c.evalSensor k temp.toNat
    | .laser p =>
      if c.flag (AFE_PU_CTRL_TH_EN p) then
        let c := if c.fld (CAL_TH_TEMP_STATE p) = 5 then c.setFld (CAL_TH_TEMP_STATE p) 0 else c
        c.evalSensor k (thermistorTemp (c.fld (AFE_TH_VALUE_CODE p)) (c.fld (CAL_TH_CFG_R25 p)) (c.fld (CAL_TH_CFG_B p)))
      else
        let c := (c.setFld (CAL_TH_TEMP_STATE p) 5).setSens (24 + p) {}
        (c.setHeat (2 + p) {}).settleLevel (.laser p)

/-- The stuck check passes: a die sensor's difference within ±25 % of its expected value; a thermistor's conversion at 25 µA 0.45 to 0.55 of the one
at 50 µA. -/
def stuckPass (k : Sensor) (low high : Nat) : Bool :=
  match k with
  | .die _ _ => decide (3 * high ≤ 4 * low ∧ 4 * low ≤ 5 * high)
  | .laser _ => decide (45 * high ≤ 100 * low ∧ 100 * low ≤ 55 * high)

/-- STUCK_CHECK: two failed checks in a row break the sensor. -/
def execStuckCheck (k : Sensor) (low high : Nat) (s : State) : Out :=
  s.on fun c =>
    let on := match k with
      | .die _ _ => true
      | .laser p => c.flag (AFE_PU_CTRL_TH_EN p)
    c.when on fun c =>
      let n := sensNum k
      let x := c.sens n
      let c := if stuckPass k low high then (c.setSens n { x with stuck := false, passed := true }).mendSensor k
        else
          let c := c.setSens n { x with stuck := true, passed := false }
          if x.stuck then c.breakSensor k 4 else c
      c.afterSensor k none

/-! ### Aging (R590, R591) -/

/-- AGING_MEASUREMENT: the margin of a monitor, in 0.1 %. -/
def Chip.aging (c : Chip) (d : Die) (m : Nat) (margin : Int) : Chip :=
  let level : Int := c.fld (if d = .h then THH_AGING_CFG_WARN_LEVEL else CAL_AGING_CFG_WARN_LEVEL)
  let warn := if d = .h then THH_AGING_WARN m else CAL_AGING_WARN m
  let c := c.setInt (if d = .h then THH_AGING_MARGIN m else CAL_AGING_MARGIN m) margin
  let key := 8 * (if d = .h then 0 else 1) + m
  if margin < level then
    let c := c.setFld warn 1
    if c.thermal.warned.contains key then c
    else
      let c := c.setThermal { c.thermal with warned := key :: c.thermal.warned }
      (c.mark (if d = .h then THH_EVENT_AGING_WARN else CAL_EVENT_AGING_WARN)).log 0x0105 d (m :: detBytes 2 (bitsOfInt 16 margin))
  else if level + 5 ≤ margin then c.setFld warn 0
  else c

/-- AGING_MEASUREMENT. -/
def execAgingMeasurement (d : Die) (m : Fin 8) (margin : Int) (s : State) : Out :=
  s.onIf (decide (-1024 ≤ margin ∧ margin < 1024)) fun c => c.aging d m margin

end Sys2Proof.Machine
end

