-- ==== Sys2Proof/Machine/Calibrate.lean ====
section
/-! DEFINITION. Hardware cycles of items 0 and 1 (R574), VCO band (R583), ADC reference (R567, R568), CALIBRATE (R578). -/

namespace Sys2Proof.Machine

/-! ### Hardware cycles (R568, R574) -/

/-- START is refused: a lane of the pickup is armed, or, for item 0, its loop is not OFF or RETRACTED with READ_ON 0. -/
def Chip.startRefused (c : Chip) (p item : Nat) : Bool :=
  let g := c.loop p
  (List.range 8).any (fun k => (c.lane (8 * p + k)).armed) ||
    (item == 0 && ((c.gateOut p 5).getLsbD 0 || g.readOn || !(g.state == lOff || g.state == lRetracted)))

/-- A write of 1 to START. While a cycle runs it has no effect. -/
def Chip.startCycle (c : Chip) (p : Nat) : Chip :=
  let item := c.fld (CAL_PU_CTRL_ITEM p)
  if c.flag (CAL_PU_STATUS_CYCLE p) then c
  else if c.startRefused p item then c.setFld (CAL_PU_STATUS_START_REFUSED p) 1
  else (c.setFld (CAL_PU_STATUS_START_REFUSED p) 0).beginItemCycle p item

/-- CAL_CYCLE_START. -/
def execCalCycleStart (p : Pickup) (s : State) : Out := s.on fun c => c.startCycle p

/-- Beams (0 to 7) and servo inputs (8 to 13) whose repeat differs from the first measurement by more than the tolerance. -/
def cycleOff (item : Nat) (a b : List Int) : List Nat :=
  (List.range 14).filter fun j =>
    let x := a.getD j 0
    let y := b.getD j 0
    if item = 0 then decide ((if j < 8 then 256 else 64) < (x - y).natAbs) else decide (j < 8) && decide (x.natAbs < 200 * (x - y).natAbs)

/-- The accepted results are set, so that the mean would be 0, or the ratio 1.0: lanes by R125, servo inputs from the next window. -/
def Chip.setCycle (c : Chip) (p item : Nat) (xs : List Int) : Chip :=
  if item = 0 then
    let c := (List.range 8).foldl (fun c k =>
      let f := AFE_LANE_OFFSET_OFFSET p k
      (c.setInt f (limit (-128) 127 (c.int f - rndDiv (xs.getD k 0) 64))).afeWritten (8 * p + k) false) c
    (List.range 6).foldl (fun c j => c.setFld (AFE_SV_OFFSET_OFFSET p j) (min 4095 (rndDiv (xs.getD (8 + j) 0) 16).toNat)) c
  else
    (List.range 8).foldl (fun c k =>
      let f := CAL_LANE_TRIM_GAIN_TRIM p k
      let r := xs.getD k 0
      if r = 0 then c else c.setInt f (limit (-512) 511 (rndDiv ((4096 + c.int f) * 0x4000) r - 4096))) c

/-- The cycle ends: its results are in CAL_PU_RESULT; after the first the channel sequencer runs it again, after the repeat it decides. -/
def Chip.cycleDone (c : Chip) (p : Nat) (rs : List (BitVec 16)) : Chip :=
  let item := c.fld (CAL_PU_STATUS_ITEM p)
  let c := (List.range 14).foldl (fun c j => c.setFld (CAL_PU_RESULT_VALUE p j) (if item = 1 ∧ 8 ≤ j then 0 else (rs.getD j 0).toNat)) c
  let xs := (List.range 14).map (fun j =>
    let r := rs.getD j 0
    if item = 0 ∧ j < 8 then r.toInt else (r.toNat : Int))
  match (c.cal p).first with
  | none =>
    if c.startRefused p item then (c.setFld (CAL_PU_STATUS_START_REFUSED p) 1).abandonCal p false
    else c.setCal p { c.cal p with first := some xs }
  | some a =>
    let off := cycleOff item a xs
    if off = [] then ((c.setCycle p item xs).calAccept p item).cycleOver p 0
    else
      let c := c.calReject p item ((off.filter (fun j => decide (j < 8))).foldl (fun n j => n + 2 ^ j) 0)
      c.cycleOver p (c.rejectCode p item)

/-- CAL_CYCLE_DONE. -/
def execCalCycleDone (p : Pickup) (results : List (BitVec 16)) (s : State) : Out :=
  s.onIf (results.length == 14) fun c =>
    c.when (c.flag (CAL_PU_STATUS_CYCLE p) && decide (c.fld (CAL_PU_STATUS_ITEM p) ≤ 1)) fun c => c.cycleDone p results

/-! ### Items of the device (R568, R569, R583) -/

/-- STATE and REJECTS of item 9 or 10 after a measurement; RESULT of a CALIBRATE. -/
def Chip.judgeDevice (c : Chip) (f : Fld) (ok : Bool) : Nat × Chip :=
  let x := c.fld f
  if ok then (0, (c.setFld f 1).inc CAL_ACCEPTS_COUNT)
  else
    let c := (c.inc CAL_REJECTS_COUNT).mark CAL_EVENT_CAL_REJECT
    if x % 4 = 3 then (2, c)
    else
      let n := x / 4 + 1
      if 3 ≤ n then (2, (((c.setFld f 15).inc CAL_FAILS_COUNT).mark CAL_EVENT_CAL_FAIL).mark CAL_EVENT_DEV_FAIL) else (1, c.setFld f (2 + 4 * n))

/-- The CALIBRATEs that wait complete. -/
def Chip.endDevice (c : Chip) (uids : List Nat) (result : Nat) : Chip := uids.foldl (fun c u => c.finish u stOk 0 result 0) c

/-- No lane is armed and no pass runs. -/
def Chip.idleBoundary (c : Chip) : Bool :=
  (List.range 128).all (fun l => !(c.lane l).armed) && (List.range 16).all (fun p => (c.wch p).pass.isNone)

/-- The band changes to `b`. -/
def Chip.setBand (c : Chip) (b : Nat) : Chip :=
  (((c.setFld AFE_PLL_STATUS_VCO_BAND b).setFld CAL_PLL_BAND b).inc CAL_BAND_CHANGES_COUNT).mark CAL_EVENT_PLL_BAND

/-- One step: back where the last was rejected, else one band toward the centre. -/
def Chip.bandStep (c : Chip) : Chip :=
  let b := c.fld CAL_PLL_BAND
  let t := c.thermal
  let c := c.setFld CAL_PLL_PENDING 0
  if t.reverse then (c.setThermal { t with reverse := false, stepFrom := none }).setBand (t.stepFrom.getD b)
  else
    let up := decide (500 < c.fld CAL_PLL_TUNE) == Config.bandsRise
    let new := if up then min 63 (b + 1) else b - 1
    (c.setThermal { t with stepFrom := some b }).setBand new

/-- PLL_TUNE_CHECK: outside 20 % to 80 % a step becomes PENDING; at 5 % or 95 % it is made at once, with the loss of lock of R130. -/
def Chip.tuneCheck (c : Chip) (tune : Nat) : Chip :=
  let c := c.setFld CAL_PLL_TUNE tune
  if !c.flag CAL_CTRL_PLL_AUTO then c else
  let c := if tune < 200 ∨ 800 < tune then c.setFld CAL_PLL_PENDING 1 else c
  if c.flag CAL_PLL_PENDING ∧ (tune ≤ 50 ∨ 950 ≤ tune) then
    let c := c.bandStep.mark CAL_EVENT_PLL_FORCED
    if c.flag AFE_PLL_STATUS_LOCKED then c.pllUnlock else c
  else c

/-- PLL_TUNE_CHECK. -/
def execPllTuneCheck (tune : Fin 1001) (s : State) : Out := s.on fun c => c.tuneCheck tune

/-- PLL_BAND_STEP: a pending step at an idle boundary. -/
def execPllBandStep (s : State) : Out := s.on fun c => c.when (c.flag CAL_PLL_PENDING && c.idleBoundary) fun c => c.bandStep

/-- Both readings after a step decide on it (Table 14.1). -/
def Chip.bandMeasured (c : Chip) (t1 t2 : Nat) : Chip :=
  let good := fun (t : Nat) => decide (200 ≤ t ∧ t ≤ 800)
  let ok := good t1 && good t2
  let r := (c.setFld CAL_PLL_TUNE t2).judgeDevice CAL_DEV_ITEMS_PLL ok
  let c := r.2
  let t := c.thermal
  let c := if ok then c.setThermal { t with stepFrom := none, pllBy := [] }
    else (c.setThermal { t with reverse := true, pllBy := [] }).setFld CAL_PLL_PENDING 1
  c.endDevice t.pllBy r.1

/-- PLL_BAND_MEASURED. -/
def execPllBandMeasured (t1 t2 : Fin 1001) (s : State) : Out :=
  s.on fun c => c.when (c.thermal.stepFrom.isSome && !c.thermal.reverse) fun c => c.bandMeasured t1 t2

/-- PLL_CAL: item 9 at the next idle boundary. -/
def execPllCal (s : State) : Out := s.on fun c => c.setFld CAL_PLL_PENDING 1

/-- Item 10: two trims that agree within one step. -/
def Chip.refCal (c : Chip) (first second : BitVec 10) : Chip :=
  let ok := decide ((first.toInt - second.toInt).natAbs ≤ 1)
  let r := c.judgeDevice CAL_DEV_ITEMS_REF ok
  let t := c.thermal
  let c := r.2.setThermal { r.2.thermal with refBy := [] }
  (if ok then c.setFld CAL_REF_TRIM second.toNat else c).endDevice t.refBy r.1

/-- REF_CAL. -/
def execRefCal (first second : BitVec 10) (s : State) : Out := s.on fun c => c.refCal first second

/-! ### CALIBRATE (R578, Table 14.3) -/

/-- Items 0 and 1: the hardware cycle, twice. -/
def Chip.calHardware (c : Chip) (m : Cmd) (p item : Nat) : Chip :=
  let st := c.stState (p / 2)
  if c.volState p ≠ vNotMounted ∨ !(st = sLoaded ∨ st = sSafe ∨ st = sMounted) then c.finishInvalid m.uid 8
  else if c.flag (CAL_PU_STATUS_CYCLE p) then c.updCmd m.uid fun m => { m with wait := .engine }
  else
    let c := (c.setFld (CAL_PU_CTRL_ITEM p) item).startCycle p
    if c.flag (CAL_PU_STATUS_CYCLE p) then
      (c.setCal p { c.cal p with by_ := some m.uid }).updCmd m.uid fun m => { m with wait := .station, acted := true }
    else c.finishInvalid m.uid 8

/-- Item 2: the next landing of each beam acquires. -/
def Chip.calAcquire (c : Chip) (m : Cmd) (p : Nat) : Chip :=
  if !c.mounted p then c.finishS m.uid stNotMounted
  else if (c.cal p).acqBy.isSome then c.updCmd m.uid fun m => { m with wait := .engine }
  else
    let c := if c.fld (CAL_ITEM_STATE p 2) = 3 then c.calClear p 2 else c
    let ks := (List.range 8).filter (fun k => !c.flag (RCH_CTRL_DEGRADED (8 * p + k)))
    if ks = [] then c.finish m.uid stOk 0 3 0
    else
      let c := ks.foldl (fun c k => c.updLane (8 * p + k) fun x => { x with acqAsk := true }) c
      (c.setCal p { c.cal p with acqBy := some m.uid, asked := ks, worst := 0 }).updCmd m.uid fun m => { m with wait := .station, acted := true }

/-- Items 3 to 6: R576 on the believed layer, between requests. -/
def Chip.calServo (c : Chip) (m : Cmd) (p item : Nat) : Chip :=
  if !c.mounted p then c.finishS m.uid stNotMounted
  else if c.flag (CAL_PU_STATUS_CYCLE p) ∨ (c.frm p).reqs ≠ [] then c.updCmd m.uid fun m => { m with wait := .engine }
  else
    let c := c.startMeasure p item (c.loop p).layer [] false none
    (c.setCal p { c.cal p with by_ := some m.uid }).updCmd m.uid fun m => { m with wait := .station, acted := true }

/-- Item 7: LEARNED is cleared in the volume's power entries. -/
def Chip.calPower (c : Chip) (m : Cmd) (p : Nat) : Chip :=
  if c.volState p ≠ vMountedWrite then c.finishS m.uid stNotMounted
  else
    let c : Chip := { c with path := { c.path with
      power := c.path.power.map (fun x => if x.1 / 640 = p then (x.1, x.2.map (fun e => { e with learned := false })) else x) } }
    c.finishS m.uid stOk

/-- CALIBRATE. -/
def Chip.calibrate (c : Chip) (m : Cmd) : Chip :=
  let p := m.arg0 % 256
  let item := m.arg0 / 256
  if 10 < item ∨ item ≤ 8 ∧ 15 < p then c.finishInvalid m.uid 5
  else if !c.flag FLM_STATUS_UP ∨ (c.afe.failed ∧ item ≤ 8) then c.finishS m.uid stStationFault
  else if item ≤ 1 then c.calHardware m p item
  else if item = 2 then c.calAcquire m p
  else if item ≤ 6 then c.calServo m p item
  else if item = 7 then c.calPower m p
  else
    let c := c.updCmd m.uid fun m => { m with wait := .station, acted := true }
    if item = 8 then c.flashQueue (.chopper p) (some m.uid)
    else if item = 9 then (c.setThermal { c.thermal with pllBy := c.thermal.pllBy ++ [m.uid] }).setFld CAL_PLL_PENDING 1
    else c.setThermal { c.thermal with refBy := c.thermal.refBy ++ [m.uid] }

/-- CALIBRATE; the row is run again for one that waits for a cycle to end, or for the pickup's requests. -/
def execCalibrate (n tag : Nat) (s : State) : Out :=
  s.on fun c => match c.toRun n tag opCalibrate with
    | some m => (c.begin m).calibrate m
    | none => match c.cmdOf n tag with
      | some m => if m.opcode = opCalibrate ∧ m.started ∧ m.wait = .engine then c.calibrate m else c
      | none => c

end Sys2Proof.Machine
end

