-- ==== Sys2Proof/Machine/Super.lean ====
section
/-! DEFINITION. Supervision (chapter 10): the journal and the roles of the watermasters (R433 to R439), lost Flume and split authority (R440 to R445),
the watchdogs and the park sequencer (R446 to R448), command cores (R69, R449), channel sequencers (R450). -/

namespace Sys2Proof.Machine

/-! ### Loading a RISC-V engine (R501, R612) -/

/-- Sections of a RISC-V payload: address, length, data; a ZERO section has none. -/
def riscvSections (pl : List Byte) : List (Nat × Nat × Option (List Byte)) :=
  let n := imgNat pl 8 4
  ((List.range n).foldl (fun (r : Nat × List (Nat × Nat × Option (List Byte))) i =>
    let addr := imgNat pl (16 + 16 * i) 8
    let len := imgNat pl (24 + 16 * i) 4
    if imgNat pl (28 + 16 * i) 4 % 2 = 1 then (r.1, r.2 ++ [(addr, len, none)])
    else (r.1 + len, r.2 ++ [(addr, len, some ((pl.drop r.1).take len))])) (16 + 16 * n, [])).2

/-- The key of byte `o` of an engine's local SRAM. -/
def sramKey (e : Engine) (o : Nat) : Nat := 2 ^ 19 * engNum e + o

def Chip.sramWrite (c : Chip) (e : Engine) (o : Nat) (bs : List Byte) : Chip :=
  { c with core := { c.core with sram := Cells.putRun (fun _ => 0) c.core.sram (sramKey e o) bs } }

/-- A section is placed: in the engine's SRAM, or in the program data region of buffer DRAM. -/
def Chip.loadSection (c : Chip) (e : Engine) (x : Nat × Nat × Option (List Byte)) : Chip :=
  if x.1 < 2 ^ 36 then
    let o := x.1 - 0x10000000
    match x.2.2 with
    | some bs => c.sramWrite e o bs
    | none => { c with core := { c.core with
        sram := c.core.sram.filter (fun b => decide (b.1 < sramKey e o) || decide (sramKey e o + x.2.1 ≤ b.1)) } }
  else match x.2.2 with
    | some bs => c.memWrite (x.1 - 2 ^ 36) bs
    | none => c.scrubInit (x.1 - 2 ^ 36) x.2.1

/-- Engine `e` is reset: its registers are lost, and its uncommitted words and stalled operations with them (R39). -/
def Chip.engineReset (c : Chip) (e : Engine) : Chip :=
  let c := c.setEng (engNum e) {}
  { c with core := { c.core with
      weirs := c.core.weirs.map (fun w => (w.1, { (w.2.setMine (engNum e) []) with stalls := w.2.stalls.filter (fun s => s.engine != e) })) } }

/-- Engine `e` is reset and loaded with an image; where there is none it is only reset. -/
def Chip.loadRiscv (c : Chip) (e : Engine) (img : List Byte) : Chip :=
  let c := c.engineReset e
  if img = [] then c
  else
    let lo := sramKey e 0
    let c : Chip := { c with core := { c.core with sram := c.core.sram.filter (fun b => decide (b.1 < lo) || decide (lo + 2 ^ 19 ≤ b.1)) } }
    (riscvSections (imgPayload img)).foldl (fun c x => c.loadSection e x) c

/-! ### Watermasters by die -/

/-- The other die. -/
def otherDie : Die → Die
  | .h => .m
  | .m => .h

/-- The field of the watermaster of a die: of WM-H or of WM-M. -/
def wmFld (d : Die) (h m : Fld) : Fld := match d with
  | .h => h
  | .m => m

def roleOf (d : Die) : Fld := wmFld d WMH_ROLE_ROLE WMM_ROLE_ROLE
def peerFlume (d : Die) : Fld := wmFld d WMH_ROLE_PEER_FLUME WMM_ROLE_PEER_FLUME
def peerPulse (d : Die) : Fld := wmFld d WMH_ROLE_PEER_PULSE WMM_ROLE_PEER_PULSE
def peerSplit (d : Die) : Fld := wmFld d WMH_ROLE_PEER_SPLIT WMM_ROLE_PEER_SPLIT
def peerDead (d : Die) : Fld := wmFld d WMH_ROLE_PEER_FAILED WMM_ROLE_PEER_FAILED
def wmEngine (d : Die) : Engine := match d with
  | .h => .wmH
  | .m => .wmM

/-- ROLE codes (Table 10.8). A watermaster that is being reset and reloaded reads FAILED until it rejoins (log entry 40). -/
def roleStandby : Nat := 0
def roleActive : Nat := 1
def roleLocal : Nat := 2
def roleSplit : Nat := 3
def roleFailed : Nat := 4

def Chip.role (c : Chip) (d : Die) : Nat := c.fld (roleOf d)

/-- The watermaster of a die runs. -/
def Chip.wmRuns (c : Chip) (d : Die) : Bool := c.role d != roleFailed && !(c.wm d).restoring

/-! ### Split authority and local governance (R440 to R442, R444) -/

/-- Split authority ends for a watermaster. -/
def Chip.leaveSplit (c : Chip) (d : Die) : Chip :=
  let c := (c.mark (wmFld d WMH_EVENT_SPLIT_LEFT WMM_EVENT_SPLIT_LEFT)).log 0x0609 d []
  c.setFlag FLM_STATUS_SPLIT (c.role (otherDie d) == roleSplit)

/-- Local governance begins for a watermaster. -/
def Chip.enterLocal (c : Chip) (d : Die) : Chip :=
  if c.role d = roleLocal then c else
  let was := c.role d
  let c := (c.setFld (roleOf d) roleLocal).mark (wmFld d WMH_EVENT_LOCAL WMM_EVENT_LOCAL)
  if was = roleSplit then c.leaveSplit d else c

/-- Split authority begins for a watermaster. -/
def Chip.enterSplit (c : Chip) (d : Die) : Chip :=
  if c.role d = roleSplit then c else
  let c := (c.setFld (roleOf d) roleSplit).mark (wmFld d WMH_EVENT_SPLIT_ENTERED WMM_EVENT_SPLIT_ENTERED)
  ((c.inc (wmFld d WMH_SPLITS_COUNT WMM_SPLITS_COUNT)).setFld FLM_STATUS_SPLIT 1).log 0x0608 d []

/-! ### Judging the peer (R436 to R438) -/

/-- The watermaster of `d` resets its failed peer, which it reloads and tests (R438 steps 1 and 2). -/
def Chip.restorePeer (c : Chip) (d : Die) : Chip :=
  let o := (otherDie d)
  let c := (c.setFld (roleOf o) roleFailed).setWm o { fed := (c.wm o).fed, restoring := true }
  c.loadRiscv (wmEngine o) (c.runningImage 1)

/-- The peer of the watermaster of `d` has failed: takeover from an ACTIVE one (R437), and its restoration. Journalled actions of the model have taken
effect, so that issuing them again changes nothing. -/
def Chip.peerFailed (c : Chip) (d : Die) : Chip :=
  if c.flag (peerDead d) then c else
  let c := (c.setFld (peerDead d) 1).mark (wmFld d WMH_EVENT_PEER_FAILED WMM_EVENT_PEER_FAILED)
  let c := if c.role d = roleStandby then
      let c := (c.setFld (roleOf d) roleActive).mark (wmFld d WMH_EVENT_TAKEOVER WMM_EVENT_TAKEOVER)
      (c.inc (wmFld d WMH_TAKEOVERS_COUNT WMM_TAKEOVERS_COUNT)).log 0x0607 d [match d with
        | .h => 0
        | .m => 1]
    else c
  (c.setWm d { c.wm d with path := none }).restorePeer d

/-- A path fault is reported once for each onset: 0 the Flume, 1 the pulse line. -/
def Chip.pathFaulty (c : Chip) (d : Die) (k : Nat) : Chip :=
  if (c.wm d).path = some k then c else
  let c := c.setWm d { c.wm d with path := some k }
  let c := c.mark (if k = 0 then wmFld d WMH_EVENT_PATH_FLUME WMM_EVENT_PATH_FLUME else wmFld d WMH_EVENT_PATH_PULSE WMM_EVENT_PATH_PULSE)
  (c.inc (wmFld d WMH_PATH_FAULTS_COUNT WMM_PATH_FAULTS_COUNT)).log 0x0606 d [1, 0, k]

/-- The watermaster of `d` judges its peer (Table 10.3). -/
def Chip.judgePeer (c : Chip) (d : Die) : Chip :=
  let w := c.wm d
  if !c.wmRuns d then c
  else if !c.flag FLM_STATUS_UP then (if w.missPulse then c.enterSplit d else c.enterLocal d)
  else if c.flag FLM_STATUS_RETRAINING ∨ c.flag (peerDead d) ∨ (c.wm (otherDie d)).restoring then c
  else match w.missFlume, w.missPulse with
    | true, true => c.peerFailed d
    | true, false => c.pathFaulty d 0
    | false, true => c.pathFaulty d 1
    | false, false => c.setWm d { w with path := none }

/-- PEER_HEARTBEAT_MISSING. -/
def execPeerHeartbeatMissing (d : Die) (pulse : Bool) (s : State) : Out := s.on fun c =>
  let w := c.wm d
  let c := if pulse then (c.setWm d { w with missPulse := true }).setFld (peerPulse d) 0
    else (c.setWm d { w with missFlume := true }).setFld (peerFlume d) 0
  c.judgePeer d

/-- PULSE_HEARTBEAT: the pulse of the peer reaches a die. -/
def Chip.pulseSeen (c : Chip) (d : Die) (split : Bool) : Chip :=
  let c := c.setWm d { c.wm d with missPulse := false }
  ((c.setFld (peerPulse d) 1).setFlag (peerSplit d) split).judgePeer d

/-- PULSE_HEARTBEAT. -/
def execPulseHeartbeat (toM : Bool) (splitHigh : Bool) (s : State) : Out := s.on fun c => c.pulseSeen (if toM then .m else .h) splitHigh

/-- What a HEARTBEAT packet tells the watermaster of die `d` (Table 10.2). A sender that calls itself FAILED reports a fault of its own (R436). -/
def Chip.heartbeatSeen (c : Chip) (d : Die) (payload : List (BitVec 32)) : Chip :=
  let x := (payload.getD 0 0).toNat
  let c := c.setWm d { c.wm d with missFlume := false }
  let c := (c.setFld (peerFlume d) 1).setFlag (peerSplit d) (x.testBit 8)
  if x % 256 = roleFailed ∧ c.wmRuns d ∧ !(c.wm (otherDie d)).restoring then c.peerFailed d else c.judgePeer d

/-- WM_HEARTBEAT_SEND: the HEARTBEAT packet; the pulse on the line reaches the other die as PULSE_HEARTBEAT. -/
def Chip.heartbeatSend (c : Chip) (d : Die) : Chip :=
  if !c.wmRuns d ∨ !c.flag FLM_STATUS_UP then c else
  let sees := c.flag (peerFlume d) || c.flag (peerPulse d)
  let w0 := BitVec.ofNat 32 (c.role d + 256 * ((c.role d == roleSplit).toNat + 2 * sees.toNat))
  c.flumeReady (match d with
    | .h => .toM
    | .m => .toH) ⟨1, 0, unitWm, 0, [w0, BitVec.ofNat 32 (c.wm d).seq]⟩

/-- WM_HEARTBEAT_SEND. -/
def execWmHeartbeatSend (d : Die) (s : State) : Out := s.on fun c => c.heartbeatSend d

/-! ### Lone and restored watermasters, ACTIVATE of class 1 (R438, R439, R497, R625) -/

/-- The roles may be swapped: the Flume carries, both watermasters are healthy, the STANDBY one is synchronised (R439). -/
def Chip.maySwap (c : Chip) : Bool :=
  c.carrying && c.wmRuns .h && c.wmRuns .m && !(c.wm (otherDie c.activeDie)).unsynced && c.role .h + c.role .m == 1 &&
    !(c.wm c.activeDie).waiting.any (fun j => j.action == actRoles)

/-- The ACTIVE watermaster sends its final entry. -/
def Chip.askSwap (c : Chip) : Chip := if c.maySwap then c.journal actRoles 0 else c

/-- WM_ROLE_SWAP. -/
def execWmRoleSwap (s : State) : Out := s.on fun c => c.when (c.flag WMH_CTRL_SWAP_EN) fun c => c.askSwap

/-- WM_SWAP_NOW. -/
def execWmSwapNow (s : State) : Out := s.on fun c => c.askSwap

/-- The STANDBY watermaster has acknowledged the final entry: it is ACTIVE. -/
def Chip.swapWm (c : Chip) : Chip :=
  let a := c.activeDie
  let c := (c.setFld (roleOf a) roleStandby).setFld (roleOf (otherDie a)) roleActive
  ((c.inc WMH_ROLE_SWAPS_COUNT).mark WMH_EVENT_ROLE_SWAP).mark WMM_EVENT_ROLE_SWAP

/-- A watermaster is reset and loaded with a new image for an ACTIVATE; it rejoins once its test has passed. -/
def Chip.renewWm (c : Chip) (d : Die) (img : List Byte) : Chip :=
  (c.setWm d { c.wm d with restoring := true, waiting := [] }).loadRiscv (wmEngine d) img

/-- ACTIVATE of the watermasters goes on: the STANDBY is reloaded, the roles swap, the other is reloaded; a lone one is reloaded in place, which takes
less than 1 ms (R497, R625). True once both run the image. -/
def Chip.wmLoadStep (c : Chip) (img : List Byte) : Bool × Chip :=
  let set := fun (c : Chip) n => ({ c with sup := { c.sup with wmLoad := n } } : Chip)
  let a := c.activeDie
  if c.role .h = roleFailed ∨ c.role .m = roleFailed then
    if (c.wm .h).restoring ∨ (c.wm .m).restoring then (false, c)
    else (true, (set c 0).loadRiscv (wmEngine (if c.role .h = roleFailed then .m else .h)) img)
  else match c.sup.wmLoad with
    | 0 => (false, (set c 1).renewWm (otherDie a) img)
    | 1 => (false, if (c.wm (otherDie a)).restoring then c else (set c 2).askSwap)
    | 2 => (false, if (c.wm a).waiting.any (fun j => j.action == actRoles) then c else c.askSwap)
    | _ => if (c.wm (otherDie a)).restoring then (false, c) else (true, set c 0)

/-- JOURNAL_ACK: the STANDBY watermaster acknowledges the oldest entry; the final one of a swap makes it ACTIVE. -/
def Chip.journalAck (c : Chip) : Chip :=
  let a := c.activeDie
  let w := c.wm a
  match w.waiting with
  | [] => c
  | j :: rest =>
    if !c.carrying ∨ !c.wmRuns (otherDie a) then c else
    let c := (c.setWm a { w with waiting := rest }).setWm (otherDie a) { c.wm (otherDie a) with seq := j.seq }
    if j.action = actRoles then
      let c := c.swapWm
      if c.sup.wmLoad = 2 then
        ({ c with sup := { c.sup with wmLoad := 3 } } : Chip).renewWm a (Cells.get (fun _ => []) c.boot.staged 1)
      else c
    else c

/-- JOURNAL_ACK. -/
def execJournalAck (s : State) : Out := s.on fun c => c.journalAck

/-- JOURNAL_ACK_TIMEOUT: the action proceeds; the STANDBY is unsynchronised, and a swap that was asked for does not take place (R434, R439). -/
def Chip.journalLate (c : Chip) : Chip :=
  let a := c.activeDie
  let w := c.wm a
  if w.waiting = [] then c else (c.setWm a { w with waiting := w.waiting.drop 1 }).setWm (otherDie a) { c.wm (otherDie a) with unsynced := true }

/-- JOURNAL_ACK_TIMEOUT. -/
def execJournalAckTimeout (s : State) : Out := s.on fun c => c.journalLate

/-- The watermaster of `d` has been reloaded and tested (R438 steps 3 and 4): it rejoins after a full state transfer, or stays FAILED. -/
def Chip.wmRestored (c : Chip) (d : Die) (pass : Bool) : Chip :=
  let o := (otherDie d)
  let w := c.wm d
  if !w.restoring then c else
  let c := c.setWm d { w with restoring := false, unsynced := false, missFlume := false, missPulse := false, path := none }
  let failed := c.role d == roleFailed
  if pass then
    if failed then
      let c := ((c.setFld (roleOf d) roleStandby).setFld (peerDead o) 0).mark (wmFld o WMH_EVENT_PEER_RESTORED WMM_EVENT_PEER_RESTORED)
      (c.setWm o { c.wm o with missFlume := false, missPulse := false, path := none }).judgePeer d
    else c
  else if failed then c
  else ((c.setFld (roleOf d) roleFailed).setFld (peerDead o) 1).mark (wmFld o WMH_EVENT_PEER_FAILED WMM_EVENT_PEER_FAILED)

/-! ### Command cores (R69, R449, R665) -/

/-- CORE_HEARTBEAT: the monitor notes when. -/
def execCoreHeartbeat (k : Fin 12) (s : State) : Out :=
  s.on fun c => { c with sup := { c.sup with beats := Cells.put (fun _ => 0) c.sup.beats k c.nowH } }

/-- A started command that its core's failure leaves to another core: it has done nothing outside the core, or can be run again (R69, R665). -/
def Chip.runsAgain (c : Chip) (m : Cmd) : Bool :=
  if m.opcode = opGetLog then true
  else if m.opcode ∈ [opUnmount, opClose] then
    m.wait == .drain && !((c.vol m.volume).mgmt.any (fun u => u.uids.contains m.uid)) && m.ended.isNone
  else if m.opcode = opFlush then m.wait != .drain && m.ended.isNone
  else !m.acted

/-- What an admin command has begun at a station goes on without it: the rest runs under a number of its own, and the completion of the command
itself is STATION_FAULT (R665). -/
def Chip.splitCmd (c : Chip) (m : Cmd) : Chip :=
  let v : Cmd := { m with uid := c.host.nextUid, wait := .none }
  let q := c.queue m.queue
  let c := c.setQueue m.queue { q with order := q.order.map (fun u => if u = m.uid then v.uid else u) }
  let c := c.updCmd m.uid fun m => { m with silent := true, queue := 65536 + m.uid, core := none }
  let cmds := c.host.cmds.map (fun x => if x.wait = .target m.uid then { x with wait := .target v.uid } else x)
  let c : Chip := { c with host := { c.host with cmds := cmds ++ [v], nextUid := v.uid + 1 } }
  c.finishS v.uid stStationFault

/-- A started command of a failed core that is not run again (R69). -/
def Chip.coreLost (c : Chip) (m : Cmd) : Chip :=
  if m.opcode = opWrite then c.endWrite m stStationFault
  else if m.opcode ∈ [opMount, opUnmount, opClose, opCalibrate, opActivate, opQreset] then c.splitCmd m
  else if m.opcode = opScrub ∧ c.buf.scrub.uid = some m.uid then
    ({ c with buf := { c.buf with scrub := { c.buf.scrub with uid := none } } } : Chip).finishS m.uid stStationFault
  else if m.opcode = opCache ∧ c.host.barrier = some m.uid then
    ({ c with host := { c.host with barrier := none } } : Chip).finishS m.uid stStationFault
  else if m.opcode = opFlush then c.finish m.uid stStationFault 0 0 m.count
  else (c.dropWaiter m).finishS m.uid stStationFault

/-- A command goes to another core: one that had started is run again from the start. -/
def Chip.rehome (c : Chip) (k : Option Nat) (m : Cmd) : Chip :=
  let c := c.updCmd m.uid fun m => { m with core := k }
  let m := { m with core := k }
  if m.started ∧ m.opcode = opFlush then c else
  let c := c.updCmd m.uid fun m => { m with started := false, wait := .none, blocks := [] }
  match k with
  | some k => c.updWeir 0 k fun w => { w with items := w.items ++ [dispatchItem m] }
  | none => c

/-- The queues of a core go to others, each with its commands in order. -/
def Chip.handQueue (c : Chip) (k n : Nat) : Chip :=
  let mine := (c.queueCmds n).filter (fun m => m.core == some k && m.status.isNone)
  let lost := mine.filter (fun m => m.started && !c.runsAgain m)
  let c := lost.foldl (fun c m => c.coreLost m) c
  let heir := c.pickCore
  let c := c.setQueue n { c.queue n with core := if (c.queue n).order = [] then none else heir }
  let c := { c with host := { c.host with cmds := c.host.cmds.map (fun m => if m.queue = n ∧ m.core = some k then { m with core := heir } else m) } }
  (mine.filter (fun m => !(lost.any (fun x => x.uid == m.uid)))).foldl (fun c m => c.rehome heir m) c

/-- CORE_SILENT: the core is taken offline, its commands are handed over, its requests bring nothing more. -/
def Chip.coreOff (c : Chip) (k : Fin 12) : Chip :=
  let c := (c.setFlag ⟨WMH_CORES, k, 1⟩ false).setFlag ⟨WMH_CORES, 16 + k, 1⟩ true
  let c := (((c.mark WMH_EVENT_CORE_FAILED).inc WMH_CORE_FAILS_COUNT).log 0x060A .h [k, 0]).journal actRestart k
  let qs := (c.host.queues.filter (fun q => q.2.created && q.2.core == some k.val)).map (·.1)
  let c := qs.foldl (fun c n => c.handQueue k n) c
  let c := (c.buf.fills.filter (fun f => f.core == k.val)).foldl (fun c f => c.fillStale f.core f.slot) c
  let c : Chip := { c with buf := { c.buf with fills := c.buf.fills.filter (fun f => f.core != k.val) } }
  let c := [0, 4, 5].foldl (fun c kind => c.updWeir kind k fun w => { w with items := [] }) c
  let c := c.engineReset (.core k)
  { c with core := { c.core with
      sram := c.core.sram.filter (fun b => decide (b.1 < sramKey (.core k) 0) || decide (sramKey (.core k) 0 + 2 ^ 19 ≤ b.1)) } }

/-- CORE_SILENT. -/
def execCoreSilent (k : Fin 12) (s : State) : Out := s.on fun c => c.when (c.coreOnline k) fun c => c.coreOff k

/-- CORE_TEST_DONE: the core returns to service, or stays offline. -/
def execCoreTestDone (k : Fin 12) (pass : Bool) (s : State) : Out := s.on fun c => c.when (c.flag ⟨WMH_CORES, 16 + k, 1⟩) fun c =>
  let c := c.setFlag ⟨WMH_CORES, 16 + k, 1⟩ false
  if pass then (c.loadRiscv (.core k) (c.runningImage 0)).setFlag ⟨WMH_CORES, k, 1⟩ true else c.log 0x060A .h [k, 1]

/-! ### Channel sequencers (R450) -/

/-- What a pass has not recorded, or whose verify result is not known, is to be surveyed (R283). -/
def Chip.surveyPass (c : Chip) (p : Nat) : Chip :=
  let w := c.wch p
  let seqs := (w.items ++ w.relocs).map (·.request)
  let c := c.setWch p { w with items := [], relocs := [] }
  c.setStaged (c.buf.staged.map (fun (e : Staged) =>
    if seqs.contains e.seq ∧ e.state = 2 then { e with state := 1, survey := true }
    else if seqs.contains e.seq ∧ e.state = 3 then { e with survey := true } else e))

/-- CS_FAILURE: the sequencer is held in reset; armed items go on, a pass ends at the next slot boundary, retry sequences end. The second failure
within 60 s is not restarted, and the station parks. -/
def Chip.csFailure (c : Chip) (p : Nat) : Chip :=
  let q := c.seqr p
  let t := c.now.toNat
  let second := q.failedAt.any (fun t0 => decide (t ≤ t0 + 60 * 10 ^ 9))
  let c := (c.setFlag ⟨WMM_CS, p, 1⟩ false).setFlag ⟨WMM_CS, 16 + p, 1⟩ true
  let c := ((c.inc WMM_CS_FAILS_COUNT).mark WMM_EVENT_CS_FAILED).log 0x060B .m [p, second.toNat]
  let c := c.setSeqr p { q with online := false, restarting := !second, held := second, failedAt := some t }
  let c := (((c.engineReset (.cs (Fin.ofNat 16 p))).dropRetry p).stopPass p).dropQueuedPass p
  let c := (c.surveyPass p).journal actRestart (16 + p)
  if second then c.park (p / 2) cauEscalation else c

/-- CS_FAILURE. -/
def execCsFailure (p : Pickup) (s : State) : Out := s.on fun c => c.when (c.seqr p).online fun c => c.csFailure p

/-- CS_RESTART_DONE: the sequencer resumes from its weirs, registers and buffer DRAM; what its pass left without a verify result is surveyed. -/
def Chip.csRestarted (c : Chip) (p : Nat) : Chip :=
  let q := c.seqr p
  let c := if q.renew then c else
    let w := c.wch p
    let c := c.setWch p { w with results := [], items := w.items ++ (w.results.map (·.item)) }
    c.surveyPass p
  let img := if q.renew then Cells.get (fun _ => []) c.boot.staged 2 else c.runningImage 2
  let c := c.loadRiscv (.cs (Fin.ofNat 16 p)) img
  let c := (c.setFlag ⟨WMM_CS, p, 1⟩ true).setFlag ⟨WMM_CS, 16 + p, 1⟩ false
  (c.setSeqr p { c.seqr p with online := true, restarting := false, renew := false }).inc WMM_CS_RESTARTS_COUNT

/-! ### Watchdogs and the park sequencer (R446 to R448) -/

/-- WATCHDOG_FEED: by the die's own watermaster, or by the peer's packets while the Flume carries and the peer is ACTIVE. -/
def execWatchdogFeed (d : Die) (fromPeer : Bool) (s : State) : Out := s.on fun c =>
  let ok := if fromPeer then c.carrying && c.role (otherDie d) == roleActive && c.wmRuns (otherDie d) else c.wmRuns d
  c.when ok fun c => c.setWm d { c.wm d with fed := some (c.nowOn d) }

/-- Under the park sequencer a station's spindle reads below 30 rpm: its sleds' bridges send 0b00, and it enters FAULT with the cause it has. -/
def Chip.psStopped (c : Chip) (s : Nat) : Chip :=
  let c := [2 * s, 2 * s + 1].foldl (fun c p => (c.setSled p { c.sled p with psRun := false }).sledOffBridge p) c
  if c.stState s ≠ sParking then c else
  let c := c.changeState s sFault (c.fld (WMM_STN_STATE_CAUSE s))
  let uids := (c.stn s).resetUids
  let c := c.setStn s { c.stn s with reset := false, resetUids := [], parkStep := 0, causes := [] }
  (uids.foldl (fun c u => c.finishS u stStationFault) c).wakeStation s

/-- The park sequencer takes the outputs of a station (Table 10.4). -/
def Chip.psTake (c : Chip) (s : Nat) : Chip :=
  let c := [2 * s, 2 * s + 1].foldl (fun c p =>
    let k := c.sled p
    let refs := (BitVec.ofInt 32 (c.sledRef p 0), BitVec.ofInt 32 (c.sledRef p 1))
    ((c.setSled p { k with frozen := some refs, psRun := c.sledRuns p }).cutPass p).dropQueuedPass p) c
  let c := [2 * s, 2 * s + 1, 16 + s].foldl (fun c q =>
    (c.setFld (LE_PAIR_CTRL_RUN q) 0).setPair q { c.pair q with hasRun := false, gate := [] }) c
  let c := (c.setLink s { c.link s with parked := true }).setSpn s { c.spn s with nextMode := 0 }
  let c := (c.applyMode s).psPark s
  if c.stopped s then c.psStopped s else c

/-- The park sequencer acts. -/
def Chip.parkSequencer (c : Chip) : Chip :=
  if c.flag WMM_PS_STATUS_ACTED then c else
  let c := (c.setFld WMM_PS_TIME_TIME c.now.toNat).mark WMM_EVENT_PS_ACTED
  let c := (List.range 8).foldl (fun c s => c.psTake s) c
  (c.setFld WMM_PS_STATUS_ACTED 1).setFld WMM_ROLE_PS_ACTED 1

/-- WATCHDOG_EXPIRY: of a watchdog that has been armed by a first feed. -/
def execWatchdogExpiry (d : Die) (s : State) : Out := s.on fun c => c.when (c.wm d).fed.isSome fun c =>
  match d with
  | .m => c.parkSequencer
  | .h => c.enterFatal 3

/-- PS_STATION_STOPPED. -/
def execPsStationStopped (x : Station) (s : State) : Out :=
  s.on fun c => c.when (c.flag WMM_PS_STATUS_ACTED && c.stopped x) fun c => c.psStopped x

/-! ### Lost Flume (R442 to R444) -/

/-- LINK_LOST: WM-M parks the stations in SPINUP, QUALIFY or MOUNTED. -/
def Chip.linkLost (c : Chip) : Chip :=
  if c.carrying ∨ !c.wmRuns .m ∨ c.flag WMM_PS_STATUS_ACTED then c else
  (List.range 8).foldl (fun c s =>
    if c.stState s = sSpinup ∨ c.stState s = sQualify ∨ c.stState s = sMounted then c.park s cauLinkLost else c) c

/-- LINK_LOST. -/
def execLinkLost (s : State) : Out := s.on fun c => c.linkLost

end Sys2Proof.Machine
end

