-- ==== Sys2Proof/Machine/Activate.lean ====
section
/-! DEFINITION. ACTIVATE (R497, R623 to R625), class by class, and the restart of a channel sequencer, which it may wait for. -/

namespace Sys2Proof.Machine

/-- A class that ACTIVATE names has an image staged. -/
def Chip.isStaged (c : Chip) (k : Nat) : Bool := c.stagedImage k != []

/-- Classes named in CLASSES. -/
def classesOf (m : Cmd) : List Nat := (List.range 5).filter (fun k => m.arg0.testBit k)

def Chip.setBegun (c : Chip) (k : Nat) : Chip :=
  { c with host := { c.host with begun := if c.host.begun.contains k then c.host.begun else k :: c.host.begun } }

/-- The image of a class runs from now on. -/
def Chip.setRunning (c : Chip) (k : Nat) (img : List Byte) : Chip :=
  c.setBoot { c.boot with running := Cells.put (fun _ => []) c.boot.running k img }

/-! ### Command cores -/

/-- The cores start nothing more; once all that they had started has ended, they change to the new image. -/
def Chip.activateCores (c : Chip) (uid : Nat) (img : List Byte) : Bool × Chip :=
  let busy := c.host.cmds.any (fun m => m.started && m.uid != uid && m.status.isNone && m.opcode != opActivate)
  if busy then (false, { c with host := { c.host with coresStop := true } })
  else
    let c := (List.finRange 12).foldl (fun c k => if c.coreOnline k then c.loadRiscv (.core k) img else c) (c.setBegun 0)
    (true, { c with host := { c.host with coresStop := false } })

/-! ### Channel sequencers -/

/-- A pickup with no armed slot, no write pass and no retry sequence. -/
def Chip.pickupIdle (c : Chip) (p : Nat) : Bool :=
  (List.range 8).all (fun k => (c.lane (8 * p + k)).run.isNone && (c.lane (8 * p + k)).next.isNone) && (c.wch p).pass.isNone && (c.wch p).queued.isNone &&
    (c.frm p).retry.isNone

/-- A sequencer restarts with the new image once its pickup is idle. -/
def Chip.renewSeq (c : Chip) (p : Nat) : Chip :=
  let q := c.seqr p
  if !q.online ∨ !q.renew ∨ !c.pickupIdle p then c
  else
    let c := ((c.setFlag ⟨WMM_CS, p, 1⟩ false).setFlag ⟨WMM_CS, 16 + p, 1⟩ true).setBegun 2
    (c.setSeqr p { q with online := false, restarting := true }).engineReset (.cs (Fin.ofNat 16 p))

/-- The sequencers are asked to restart, and do as they can; done when each runs the new image or is held in reset. -/
def Chip.activateSeqs (c : Chip) (first : Bool) : Bool × Chip :=
  let c := if first then (List.range 16).foldl (fun c p =>
      if (c.seqr p).online ∨ (c.seqr p).restarting then c.setSeqr p { c.seqr p with renew := true } else c) c else c
  let c := (List.range 16).foldl (fun c p => c.renewSeq p) c
  (!(List.range 16).any (fun p => (c.seqr p).renew), c)

/-! ### Tolek pairs (R623, R624) -/

/-- The pairs of class 3 or 4. -/
def pairsOf (k : Nat) : List Nat := if k = 3 then List.range 16 else (List.range 8).map (16 + ·)

/-- The STANDBY engine of a DUAL pair is loaded with the pair's new image and runs in shadow. -/
def Chip.startShadow (c : Chip) (q : Nat) : Chip :=
  match (c.pair q).image, c.activeEng q with
  | some img, some a => (c.loadEngine (otherEng a) img 0).setPair q { c.pair q with shadow := some 0, waiting := false, swap := false, first := false }
  | _, _ => c

/-- A pair that waits for its new image goes on: in DUAL by a shadow run, else once its station is idle, by a station reset or, in FAULT, by reloading
the station's pairs. -/
def Chip.pairGo (c : Chip) (q : Nat) : Chip :=
  let p := c.pair q
  let s := if q < 16 then q / 2 else q - 16
  if p.image.isNone ∨ p.shadow.isSome then c
  else if c.pairMode q = 0 ∧ p.testing.isNone then c.startShadow q
  else
    let c := c.setPair q { p with waiting := true }
    let st := c.stState s
    if st = sEmpty ∨ st = sLoaded ∨ st = sSafe then c.stationReset s none
    else if st = sFault then c.reloadPairs s else c

/-- The pairs of a class take the new image. -/
def Chip.activatePairs (c : Chip) (k : Nat) (img : List Byte) (first : Bool) : Bool × Chip :=
  let c := if first then (pairsOf k).foldl (fun c q => c.setPair q { c.pair q with image := some img, waiting := true }) ((c.setBegun k).setRunning k img)
    else c
  let c := (pairsOf k).foldl (fun c q => c.pairGo q) c
  (!(pairsOf k).any (fun q => (c.pair q).image.isSome), c)

/-! ### The command -/

/-- A class of the ACTIVATE in progress goes on; without the Flume nothing on the M-die does. -/
def Chip.activateClass (c : Chip) (uid k : Nat) : Chip :=
  if c.host.done.contains k ∨ (k ≠ 0 ∧ !c.carrying) then c else
  let img := c.stagedImage k
  let first := !c.host.begun.contains k
  let r := match k with
    | 0 => c.activateCores uid img
    | 1 => (c.setBegun 1).wmLoadStep img
    | 2 => c.activateSeqs (first && !(List.range 16).any (fun p => (c.seqr p).renew))
    | _ => c.activatePairs k img first
  let c := r.2
  if r.1 then { c with host := { c.host with done := k :: c.host.done } } else c

/-- Every named class runs its image: versions are shown, the event goes to the other port, persistence is due in flash boot (R497, R626). -/
def Chip.activateEnd (c : Chip) (m : Cmd) : Chip :=
  let ks := classesOf m
  let c := ks.foldl (fun c k =>
    let img := c.stagedImage k
    let c := (c.setRunning k img).setBoot { (c.setRunning k img).boot with staged := Cells.put (fun _ => []) c.boot.staged k [] }
    (c.setFld (BOOT_VERSION_VERSION k) (imgVersion img)).setFld (BOOT_IMAGE_SIGNER k) (imgSigner img)) c
  let c : Chip := { c with host := { c.host with activating := none, begun := [], done := [], coresStop := false } }
  let c := if c.flag BOOT_STATUS_SRC_HOST then c
    else (c.setBoot { c.boot with persisting := c.boot.persisting ++ ks.filter (fun k => !c.boot.persisting.contains k) }).setFld BOOT_STATUS_PERSISTING 1
  (c.postEvent (1 - m.port) 5 0xFFFF 0 (m.arg0 % 32) m.port 0).finishS m.uid stOk

/-- The ACTIVATE in progress goes on. -/
def Chip.activateGo (c : Chip) : Chip :=
  match c.host.activating.bind c.cmd with
  | none => c
  | some m =>
    let ks := classesOf m
    let c := ks.foldl (fun c k => c.activateClass m.uid k) c
    let c := if c.host.begun = [] then c else c.updCmd m.uid fun m => { m with acted := true }
    if ks.all (fun k => c.host.done.contains k) then c.activateEnd m else c

/-- ACTIVATE begins, or waits for the one before it. -/
def Chip.startActivate (c : Chip) (m : Cmd) : Chip :=
  if c.host.activating.isSome then c.updCmd m.uid fun m => { m with wait := .engine }
  else if (classesOf m).any (fun k => !c.isStaged k) then c.finishInvalid m.uid 10
  else
    let c := c.updCmd m.uid fun m => { m with wait := .engine }
    ({ c with host := { c.host with activating := some m.uid, begun := [], done := [] } } : Chip).activateGo

/-- ACTIVATE; the row may be run again until the command is done. -/
def execActivate (n tag : Nat) (s : State) : Out :=
  s.on fun c => match c.toRun n tag opActivate with
    | some m => (c.begin m).startActivate m
    | none => match c.cmdOf n tag with
      | some m =>
        if m.opcode ≠ opActivate ∨ !m.started then c
        else if c.host.activating = some m.uid then c.activateGo
        else if m.mark.isSome then c else c.startActivate m
      | none => c

/-- CS_RESTART_DONE. -/
def execCsRestartDone (p : Pickup) (s : State) : Out :=
  s.on fun c => c.when ((c.seqr p).restarting && !(c.seqr p).held) fun c => (c.csRestarted p).activateGo

/-- WM_RESTORE_DONE. -/
def execWmRestoreDone (d : Die) (pass : Bool) (s : State) : Out :=
  s.on fun c => c.when (c.wmRuns (otherDie d)) fun c => (c.wmRestored d pass).activateGo

end Sys2Proof.Machine
end

