-- ==== Sys2Proof/Machine/Restart.lean ====
section
/-! DEFINITION. Power-on and warm reset (R595 to R598, R619, R620), the start-up steps (R607 to R615). -/

namespace Sys2Proof.Machine

/-! ### What a reset leaves in the registers (R25, Table 15.2) -/

/-- Live fields that show what is connected to the part: no reset changes what they present (log entry 4). -/
def inputFields : List Fld :=
  (List.range 8).flatMap (fun s => [WMM_STN_STATE_DISC_PRESENT s, SPN_STATUS_TACH_VALID s, SPN_STATUS_TACH_REVERSE s, SPN_STATUS_TACH s]) ++
    (List.range 16).flatMap (fun p => [MOT_AX_STATUS_INNER p, MOT_AX_STATUS_OUTER p, MOT_AX_STATUS_HARD p, AFE_TH_VALUE_CODE p,
      AFE_PU_STATUS_TH_OPEN p, AFE_PU_STATUS_TH_SHORT p])

/-- What a warm reset keeps beside the fields of class P: inputs, BUF_LAST_UE (R619), the sampling PLL (R619), states of stations, clamp outputs
(R598), the last set-points sent (R152). -/
def warmFields : List Fld :=
  inputFields ++ [BUF_LAST_UE_ADDR, BUF_LAST_UE_STAGED, AFE_PLL_STATUS_LOCKED, AFE_PLL_STATUS_FALLBACK, AFE_PLL_STATUS_VCO_BAND, CAL_PLL_TUNE,
    CAL_PLL_BAND] ++
  (List.range 8).flatMap (fun s => [WMM_STN_STATE_STATE s, WMM_STN_STATE_PREV s, WMM_STN_STATE_CLAMPED s, WMM_STN_TIME_TIME s] ++
    (List.range 6).flatMap (fun i => [AFE_LINK_LAST_SETPOINT_LO s i, AFE_LINK_LAST_SETPOINT_HI s i]))

def Chip.copyFields (c old : Chip) (fs : List Fld) : Chip := fs.foldl (fun c f => c.setFld f (old.fld f)) c

/-- A register after a reset that keeps the fields of the classes `keep`: the others have their reset values. -/
def keptValue (keep : ResetClass → Bool) (r : RegDef) (w : Word) : Word :=
  r.fields.foldl (fun v f => if keep f.cls then withField v f.lo f.w (fieldOf w f.lo f.w) else v) (resetValue r)

/-- The register file with only the fields of some classes kept, in the registers that `at_` names; others stay as they are. -/
def keptRegs (keep : ResetClass → Bool) (at_ : Nat → Bool) (m : Cells Word) : Cells Word :=
  m.foldl (fun n x => match regAt x.1 with
    | some r => Cells.put regReset n x.1 (if at_ x.1 then keptValue keep r x.2 else x.2)
    | none => n) []

/-- Latches of the drives show their inputs, which a reset does not change. -/
def Chip.keepFaults (c old : Chip) : Chip :=
  let c : Chip := { c with servo := { c.servo with
    spns := old.servo.spns.foldl (fun m x => Cells.put (fun _ => {}) m x.1 { fltInput := x.2.fltInput }) [],
    sleds := old.servo.sleds.foldl (fun m x => Cells.put (fun _ => {}) m x.1 { fltInput := x.2.fltInput }) [] } }
  let c := (List.range 8).foldl (fun c s => c.setFlag (SPN_STATUS_DRIVER_FAULT s) (c.spn s).fltInput) c
  (List.range 16).foldl (fun c p => c.setFlag (MOT_AX_STATUS_DRIVER_FAULT p) (c.sled p).fltInput) c

/-! ### Power-on reset -/

/-- While POR_N is active: everything as at power-on but fuses and flash (Table 15.2), inputs as connected. What the device has written to the
hosts, and which free values have been drawn, is no state of the part. -/
def Chip.cold (old : Chip) : Chip :=
  let c : Chip := {
    free := old.free,
    host := { posts := old.host.posts },
    sup := { boot := { flash := old.boot.flash, keyHash := old.boot.keyHash, powered := false } } }
  let c := c.copyFields old (inputFields ++ [BOOT_FUSE_OWNER_KEY_SET, BOOT_FUSE_OWNER_ONLY] ++ (List.range 5).map (fun k => BOOT_SVN_MIN_SVN k))
  let c := c.keepFaults old
  (List.range 8).foldl (fun c s => c.setFld (WMM_STN_STATE_UNCLAMP_ALLOWED s) 1) c

/-! ### Warm reset (Table 15.9) -/

/-- The staged-write list is cut, and what was handed returns (R561, R562): an entry from the cut on is discarded with its slot, and the journal
marks its disc side LOST. -/
def Chip.cutStaged (c : Chip) : Chip :=
  let es := c.buf.staged
  let n := (c.buf.cutSeq.bind (fun q => es.findIdx? (fun e => e.seq == q))).getD es.length
  let kept := (es.take n).map (fun (e : Staged) =>
    let e := { e with queue := 65536 }
    if e.state = 2 then { e with state := 1, survey := true } else if e.state = 3 then { e with survey := true } else e)
  let lost := ((es.drop n).map (fun e => (e.volumeId, e.side))).eraseDups
  let c : Chip := { c with buf := { c.buf with
    staged := kept, slotsUsed := kept.map (·.slot), cutSeq := none, lost := c.buf.lost ++ lost.filter (fun d => !c.buf.lost.contains d) } }
  lost.foldl (fun c d => c.journalOp d 3 none) c

/-- A station after a warm restart: LOADED if clamped, else EMPTY; another state than before counts as a change (R620). -/
def Chip.warmStation (c : Chip) (s : Nat) : Chip :=
  let new := if c.flag (WMM_STN_STATE_CLAMPED s) then sLoaded else sEmpty
  (if c.stState s = new then c.setFld (WMM_STN_STATE_UNCLAMP_ALLOWED s) 1 else c.changeState s new 0).clampRules s

/-- The last frame of a link: the last set-points with every enable bit 0 (R152). -/
def Chip.lastFrame (c : Chip) (s : Nat) : ActLink :=
  let k := c.link s
  if !k.sent then {} else
  let body := leBytes 1 ((c.fld (AFE_LINK_STATUS_SEQ s) + 1) % 256) ++ leBytes 1 (s + 8 * ((c.fld (AFE_LINK_STATUS_WSEL s) + 1) % 3)) ++ leBytes 1 0 ++
    (List.range 12).flatMap (fun i => leBytes 2 (c.lastPoint s i))
  { frame := body ++ leBytes 2 (crc16 body).toNat }

/-- The logic of both dies is reset; what Table 15.2 and R619 name is kept. -/
def Chip.warm (old : Chip) : Chip :=
  let old := old.writeBackAll.emptyCache
  let c : Chip := {
    regs := keptRegs (· == .p) (fun _ => true) old.regs,
    free := old.free,
    arch := { ledgerM := old.arch.ledgerM, ledgerH := old.arch.ledgerH },
    core := { weirs := old.core.weirs.filter (fun w => w.1 == weirKey 6 0), logged := old.core.logged },
    host := { posts := old.host.posts, nextUid := old.host.nextUid, pcie := old.host.pcie },
    buf := { mem := old.buf.mem, marks := old.buf.marks, initRanges := old.buf.initRanges, staged := old.buf.staged, nextSeq := old.buf.nextSeq,
             cutSeq := old.buf.cutSeq, written := old.buf.written, lost := old.buf.lost },
    afe := { resumed := old.afe.resumed,
             links := (List.range 8).foldl (fun m s => Cells.put (fun _ => {}) m s (old.lastFrame s)) [] },
    servo := { stations := old.servo.stations.foldl (fun m x => Cells.put (fun _ => {}) m x.1 { changes := x.2.changes }) [],
               lpTimes := old.servo.lpTimes, lpLatch := old.servo.lpLatch, lpOut := old.servo.lpOut,
               seqs := old.servo.seqs.foldl (fun m x => Cells.put (fun _ => {}) m x.1 { calFor := x.2.calFor, calKept := x.2.calKept }) [] },
    sup := { thermal := { warned := old.thermal.warned }, tap := old.sup.tap,
             boot := { flash := old.boot.flash, keyHash := old.boot.keyHash, journalSeq := old.boot.journalSeq } } }
  let c := ((c.copyFields old warmFields).keepFaults old).cutStaged
  (List.range 8).foldl (fun c s => c.warmStation s) c

/-! ### Start-up steps 1 to 5 (Table 15.6) -/

def Chip.setStage (c : Chip) (k : Nat) : Chip := c.setFld BOOT_STATUS_STAGE k

/-- HALTED with its cause (R609). -/
def Chip.halt (c : Chip) (cause : Nat) : Chip := (c.setStage 7).setFld BOOT_STATUS_HALT_CAUSE cause

/-- Step 1: sources, PLL, frame generators. -/
def Chip.bootStart (c : Chip) (b : BootIn) (powerOn : Bool) (source : Nat) : Chip :=
  let c := ((c.setStage 0).setFlag BOOT_STATUS_SRC_HOST b.srcHost).setFld BOOT_LAST_RESET_SOURCE source
  let c := (List.range 8).foldl (fun c s => c.setFld (AFE_LINK_STATUS_RUNNING s) 1) c
  if powerOn then
    let c := (c.setFld AFE_PLL_STATUS_LOCKED 1).setFld AFE_PLL_STATUS_VCO_BAND b.band.toNat
    ({ c with afe := { c.afe with resumed := true } } : Chip).setFld CAL_PLL_BAND b.band.toNat
  else c

/-- Dwords of a port's configuration space that Table 11.1 fixes: vendor and device, class and revision, subsystem. -/
def Chip.pcieIdentity (c : Chip) (r : List Byte) (x : Nat) : Chip :=
  let put := fun (m : Cells (BitVec 32)) i v => Cells.put pcieReset m (1024 * x + i) v
  let m := put c.host.pcie 0 (Config.vendorId.setWidth 32 ||| 0x64160000#32)
  let m := put m 2 0x018000C2#32
  { c with host := { c.host with pcie := put m 11 (BitVec.ofNat 32 (imgNat r 16 4)) } }

/-- Step 2: the configuration record in force (R601 to R603). -/
def Chip.bootConfig (c : Chip) (powerOn : Bool) : Chip :=
  let r := c.config
  let c := (c.setStage 1).setFlag BOOT_STATUS_CONFIG_DEFAULT c.currentConfig.isNone
  let c := (c.setFld GEN_CONFIG_PORT_MODE (imgNat r 12 1)).setFld GEN_CONFIG_QUEUE_SCALE (imgNat r 13 1)
  let c := (c.setFld CIS_DEEP_SIZE_SIZE (imgNat r 20 4)).setFld CIS_DEEP_BASE_BASE (imgNat r 24 8 / mib)
  let c := [0, 1].foldl (fun c x => c.pcieIdentity r x) c
  let c : Chip := { c with host := { c.host with configRetry := false } }
  if powerOn then
    (List.range 16).foldl (fun c p => if (imgNat r 32 2).testBit p then
        (c.setFld (MOT_AX_OFFSET_OFFSET_A p) (imgNat r (40 + 4 * p) 2)).setFld (MOT_AX_OFFSET_OFFSET_B p) (imgNat r (42 + 4 * p) 2)
      else c) c
  else c

/-- The widest width of a set of lanes, as FLM_STATUS.WIDTH codes it (R47). -/
def widest (ok : Nat) : Option Nat :=
  if ok = 0xFFFF then some 2
  else if ok % 256 = 255 ∨ ok / 256 = 255 then some 1
  else if [0, 4, 8, 12].any (fun k => bitsOf ok k 4 == 15) then some 0 else none

/-- A training has ended with these lanes: the width, or the Flume is down. -/
def Chip.trained (c : Chip) (tx rx : BitVec 16) : Chip :=
  let c := ((c.setFld FLM_LANE_STATUS_TX_OK tx.toNat).setFld FLM_LANE_STATUS_RX_OK rx.toNat).setFld FLM_STATUS_RETRAINING 0
  match widest (tx &&& rx).toNat with
  | some w => if w < c.fld FLM_CTRL_MIN_WIDTH then c.setFld FLM_STATUS_UP 0 else (c.setFld FLM_STATUS_UP 1).setFld FLM_STATUS_WIDTH w
  | none => c.setFld FLM_STATUS_UP 0

/-- Installed size of a configuration in GiB; none where no row of Table 13.1 matches. -/
def cfgSize (cfg : BitVec 32) : Option Nat :=
  match cfg.toNat % 4 with
  | 0 => some 128
  | 1 => some 256
  | 2 => some 256
  | _ => none

/-- Steps 4 and 5: the buffer is trained and tested; the cause of a failure. -/
def Chip.bootBuffer (c : Chip) (b : BootIn) : Option Nat × Chip :=
  let c := (c.setStage 2).setReg BUF_CFG ((b.bufCfg &&& 3#32).setWidth 64)
  match cfgSize b.bufCfg with
  | none => (some 3, c.mark BUF_EVENT_CONFIG_BAD)
  | some n =>
    if !b.bufGood then (some 3, c)
    else
      let c := ((c.setFld BUF_STATUS_TRAINED 1).setFld BUF_STATUS_SIZE_GIB n).setFld BUF_STATUS_SELFTEST_DONE 1
      if !b.bufTest then (some 4, c.mark BUF_EVENT_SELFTEST_FAIL)
      else if !b.arrayTest then (some 4, c.setFld BUF_STATUS_SELFTEST_PASS 1)
      else (none, c.setFld BUF_STATUS_SELFTEST_PASS 1)

/-! ### Step 7: images (R611, R615) -/

/-- Offset and size of the slot of class `k` in a bank (Table 15.3). -/
def slotOffset (k : Nat) : Nat := [0, 0xC00000, 0x1200000, 0x1A00000, 0x1C00000].getD k 0
def slotSize (k : Nat) : Nat := [12, 6, 8, 2, 3].getD k 0 * mib
def bankBase (bank : Nat) : Nat := if bank = 0 then 0x100000 else 0x2000000

/-- The image in a slot: its header, and the payload that this gives the length of, as far as the slot reaches. -/
def Chip.slotImage (c : Chip) (bank k : Nat) : List Byte :=
  let a := bankBase bank + slotOffset k
  let h := c.flashBytes a 512
  if h.take 8 = asciiBytes "KNFIMG01" then c.flashBytes a (min (512 + imgNat h 20 4) (slotSize k)) else h

/-- The check of an image is shown in BOOT_IMAGE. -/
def Chip.showImage (c : Chip) (k why : Nat) (img : List Byte) (bank : Nat) : Chip :=
  let c := (c.setFld (BOOT_IMAGE_STATE k) (if why = 0 then 1 else 2)).setFld (BOOT_IMAGE_CHECK k) why
  (c.setFld (BOOT_IMAGE_SIGNER k) (if why = 0 then imgSigner img else 0)).setFld (BOOT_IMAGE_BANK k) bank

/-- An image that the checks accept stands in image staging until it is loaded. -/
def Chip.acceptImage (c : Chip) (k : Nat) (img : List Byte) : Chip :=
  (c.bufWrite (stageAddr k) img).setBoot { c.boot with staged := Cells.put (fun _ => []) c.boot.staged k img }

/-- A class is read from its bank, and on a refusal from the other. -/
def Chip.readClass (c : Chip) (k : Nat) : Chip :=
  let bank := ((imgNat c.config 14 1).testBit k).toNat
  let img := c.slotImage bank k
  let why := c.imageCheck k img img.length
  if why = 0 then (c.showImage k 0 img bank).acceptImage k img
  else
    let img' := c.slotImage (1 - bank) k
    if c.imageCheck k img' img'.length = 0 then ((c.showImage k 0 img' (1 - bank)).mark BOOT_EVENT_BANK_FALLBACK).acceptImage k img'
    else c.showImage k why img bank

/-- Every class has an accepted image. -/
def Chip.allAccepted (c : Chip) : Bool := (List.range 5).all (fun k => c.fld (BOOT_IMAGE_STATE k) == 1)

/-! ### Steps 8 to 10: loading, seal, READY (R613, R614) -/

/-- The command cores are loaded; those that fail their test are offline. -/
def Chip.loadCores (c : Chip) (b : BootIn) : Chip :=
  (List.finRange 12).foldl (fun (c : Chip) (k : Fin 12) =>
    if b.cores.getLsbD k then (c.loadRiscv (.core k) (c.runningImage 0)).setFlag ⟨WMH_CORES, k, 1⟩ true
    else ((c.mark WMH_EVENT_CORE_FAILED).inc WMH_CORE_FAILS_COUNT).log 0x060A .h [k, 1]) c

/-- A pair is loaded; one without a good engine puts its station into FAULT. -/
def Chip.bootPair (c : Chip) (b : BootIn) (q : Nat) : Chip :=
  let bad := [evenEng q, oddEng q].filter (fun e => !b.tolek.getLsbD e)
  let c := c.loadPair q (c.runningImage (if q < 16 then 3 else 4)) bad
  if bad.length < 2 then c else
  let s := if q < 16 then q / 2 else q - 16
  if c.stState s = sFault then c else c.changeState s sFault (if q < 16 then cauServoLost else cauSpindle)

/-- WM-M, the channel sequencers and the pairs are loaded (R613); spindles that turn are braked (R620). -/
def Chip.loadMdie (c : Chip) (b : BootIn) : Chip :=
  let c := if b.wmM then
      ((c.loadRiscv .wmM (c.runningImage 1)).setFld WMM_ROLE_ROLE roleStandby).setWm .m { c.wm .m with fed := some c.now }
    else ((c.setFld WMM_ROLE_ROLE roleFailed).setFld WMH_ROLE_PEER_FAILED 1).mark WMH_EVENT_PEER_FAILED
  let c := (List.finRange 16).foldl (fun (c : Chip) (p : Fin 16) =>
    if b.cs.getLsbD p then
      ((c.loadRiscv (.cs p) (c.runningImage 2)).setFlag ⟨WMM_CS, p, 1⟩ true).setSeqr p { c.seqr p with online := true, held := false }
    else c.setSeqr p { c.seqr p with online := false, held := true }) c
  let c := (List.range 24).foldl (fun c q => c.bootPair b q) c
  let c := (List.range 8).foldl (fun c s =>
    if c.flag (SPN_STATUS_TACH_VALID s) ∧ 30 ≤ c.fld (SPN_STATUS_TACH s) then c.motionCmd s 0x02 0 else c) c
  (c.setFld BOOT_STATUS_MDIE_MISSING 0).setBoot { c.boot with tested := none }

/-- The accepted images are the running ones. -/
def Chip.takeImages (c : Chip) : Chip :=
  (List.range 5).foldl (fun c k =>
    let img := Cells.get (fun _ => []) c.boot.staged k
    let b := c.boot
    (c.setBoot { b with running := Cells.put (fun _ => []) b.running k img, staged := Cells.put (fun _ => []) b.staged k [] }).setFld
      (BOOT_VERSION_VERSION k) (imgVersion img)) c

/-- Steps 8 to 10. With the Flume not trained the M-die waits for it. The version of the resident program set is free. -/
def Chip.bootLoad (c : Chip) (b : BootIn) : Chip :=
  let c := (c.setStage 5).takeImages
  let c := c.loadCores b
  if b.cores = 0 ∨ !b.wmH then c.halt 5
  else
    let c := if c.flag FLM_STATUS_UP then c.loadMdie b else (c.setFld BOOT_STATUS_MDIE_MISSING 1).setBoot { c.boot with tested := some b }
    let c := ((c.loadRiscv .wmH (c.runningImage 1)).setFld WMH_ROLE_ROLE roleActive).setFld GEN_CONFIG_SEALED 1
    let v := c.draw
    let c := v.2.setFld GEN_RESIDENT_VERSION (v.1.toNat % 2 ^ 32)
    (c.setStage 6).setFld BOOT_READY_TIME_TIME c.nowH.toNat

/-- The start-up steps in order (R607). A power-on also fills the regions of Table 13.2 from the device log to program data. -/
def Chip.startUp (c : Chip) (b : BootIn) (powerOn : Bool) (source : Nat) : Chip :=
  let c := c.bootStart b powerOn source
  if !b.ledgerPll then c.halt 1
  else if !b.rom then c.halt 2
  else
    let c := (c.bootConfig powerOn).trained b.lanesM b.lanesH
    let c := if c.flag FLM_STATUS_UP then c else c.setFld BOOT_STATUS_MDIE_MISSING 1
    let r := c.bootBuffer b
    match r.1 with
    | some cause => r.2.halt cause
    | none =>
      let c := if powerOn then r.2.scrubInit mib (2048 * mib - mib) else r.2
      if b.srcHost then c.setStage 4
      else
        let c := (List.range 5).foldl (fun c k => c.readClass k) (c.setStage 3)
        if c.allAccepted then c.bootLoad b else c.setStage 4

/-! ### The resets -/

/-- POWER_ON_RESET: POR_N is released, and the part starts. -/
def execPowerOnReset (b : BootIn) (s : State) : Out :=
  s.on fun c => (c.cold.setBoot { c.cold.boot with powered := true }).startUp b true 0

/-- POR_N_ACTIVE: everything is reset; nothing runs until POR_N is released. -/
def execPorNActive (s : State) : Out := s.on fun c => c.cold

/-- A warm restart, from a source of BOOT_LAST_RESET. -/
def Chip.warmRestart (c : Chip) (b : BootIn) (source : Nat) : Chip :=
  if c.boot.powered then c.warm.startUp b false source else c

/-- WARM_RESET. -/
def execWarmReset (b : BootIn) (s : State) : Out := s.on fun c => c.warmRestart b 1

/-- BOOT_RESET: any other value than the key is discarded; so is a write through a port that does not exist. -/
def execBootReset (x : Port) (key : BitVec 32) (b : BootIn) (s : State) : Out :=
  s.on fun c => c.when (key == 0x5741524D#32 && c.portExists x) fun c => c.warmRestart b (2 + x.val)

end Sys2Proof.Machine
end

