-- ==== Sys2Proof/Machine/Boot.lean ====
section
/-! DEFINITION. Commands of BOOT_HOST_CMD (R617, R618), the ends of flash operations (R606, R618, R626), persistence after an ACTIVATE (R626),
reset of one port (R494, R595) and its configuration requests (R608). -/

namespace Sys2Proof.Machine

/-! ### BOOT_HOST_CMD (R617, R618) -/

def Chip.bootResult (c : Chip) (r : Nat) : Chip := c.setFld BOOT_HOST_STATUS_RESULT r

/-- Bytes of the mailbox; one that nothing has written since the reset reads as 0 in the device (log entry 48). -/
def Chip.mailbox (c : Chip) (n : Nat) : List Byte := Cells.getRun (fun _ => 0) c.boot.mailbox 0 n

/-- A command of BOOT_HOST_CMD: discarded while one is in progress; RESULT STAGE where `stage` does not hold; else RESULT OK, which `f` may change. -/
def Chip.bootCmd (c : Chip) (stage : Nat → Bool) (f : Chip → Chip) : Chip :=
  if c.flag BOOT_HOST_STATUS_BUSY then c
  else if stage (c.fld BOOT_STATUS_STAGE) then f (c.bootResult 0) else c.bootResult 1

/-- LOAD_CHUNK: the class has no accepted image while its slot is being filled. -/
def Chip.loadChunk (c : Chip) (k : Nat) : Chip :=
  let off := c.fld BOOT_HOST_OFFSET_OFFSET
  let len := c.fld BOOT_HOST_LENGTH_LENGTH
  if 4 < k ∨ off % 64 ≠ 0 ∨ len % 64 ≠ 0 ∨ len = 0 ∨ 524288 < len ∨ 32 * mib < off + len then c.bootResult 2
  else
    let c := c.memWrite (stageAddr k + off) (c.mailbox len)
    (c.setFld (BOOT_IMAGE_STATE k) 0).setBoot { c.boot with staged := Cells.put (fun _ => []) c.boot.staged k [] }

/-- LOAD_CHUNK. -/
def execLoadChunk (k : Fin 8) (s : State) : Out := s.on fun c => c.bootCmd (· == 4) fun c => c.loadChunk k

/-- LOAD_END: the image in the slot, of the length that its header gives, is checked. -/
def Chip.loadEnd (c : Chip) (k : Nat) : Chip :=
  if 4 < k then c.bootResult 2
  else
    let h := c.memRead (stageAddr k) 512
    let r := h.2.memRead (stageAddr k) (min (512 + imgNat (h.1.getD []) 20 4) (32 * mib))
    let img := r.1.getD []
    let why := r.2.imageCheck k img img.length
    let c := r.2.showImage k why img 0
    c.setBoot { c.boot with staged := Cells.put (fun _ => []) c.boot.staged k (if why = 0 then img else []) }

/-- LOAD_END. -/
def execLoadEnd (k : Fin 8) (s : State) : Out := s.on fun c => c.bootCmd (· == 4) fun c => c.loadEnd k

/-- BOOT_GO. -/
def execBootGo (b : BootIn) (s : State) : Out :=
  s.on fun c => c.bootCmd (· == 4) fun c => if c.allAccepted then c.bootLoad b else c.bootResult 2

/-- FUSE_PROGRAM: a request that is refused programs nothing. -/
def Chip.fuseProgram (c : Chip) : Chip :=
  let r := c.mailbox 64
  let bits := imgNat r 48 1
  let add := fun k => imgNat r (49 + k) 1
  if bits.testBit 0 ∧ c.flag BOOT_FUSE_OWNER_KEY_SET ∨ (List.range 5).any (fun k => decide (32 < c.fld (BOOT_SVN_MIN_SVN k) + add k)) then c.bootResult 3
  else
    let c := if bits.testBit 0 then (c.setFld BOOT_FUSE_OWNER_KEY_SET 1).setBoot { c.boot with keyHash := r.take 48 } else c
    let c := if bits.testBit 1 then c.setFld BOOT_FUSE_OWNER_ONLY 1 else c
    (List.range 5).foldl (fun c k => c.setFld (BOOT_SVN_MIN_SVN k) (c.fld (BOOT_SVN_MIN_SVN k) + add k)) c

/-- FUSE_PROGRAM. -/
def execFuseProgram (s : State) : Out := s.on fun c => c.bootCmd (· == 4) fun c => c.fuseProgram

/-- WRITE_CONFIG: a valid record is written to the flash, which ends the command. -/
def Chip.hostConfig (c : Chip) : Chip :=
  let r := c.mailbox 256
  if cfgValid r && cfgFieldsOk r then (c.setFld BOOT_HOST_STATUS_BUSY 1).flashQueue (.hostConfig r) none else c.bootResult 2

/-- WRITE_CONFIG. -/
def execWriteConfig (s : State) : Out :=
  s.on fun c => c.bootCmd (fun k => k != 0 && k != 7) fun c => c.hostConfig

/-! ### Persistence (R626) -/

/-- The persistence of a class has ended. -/
def Chip.persistEnd (c : Chip) (k : Nat) (event : Fld) : Chip :=
  let ks := c.boot.persisting.filter (· != k)
  ((c.mark event).setFlag BOOT_STATUS_PERSISTING (ks != [])).setBoot { c.boot with persisting := ks }

/-- A flash operation of the persistence of a class is in progress. -/
def FlashOp.of (o : FlashOp) (k : Nat) : Bool := o.use == .image k || o.use == .bank k

/-- PERSIST: an image that is too large for its slot is skipped; another is written into the bank that is not in force. -/
def Chip.persist (c : Chip) (k : Nat) : Chip :=
  if !c.boot.persisting.contains k ∨ c.boot.ops.any (fun o => o.of k) then c
  else if slotSize k < (c.runningImage k).length then c.persistEnd k BOOT_EVENT_PERSIST_SKIPPED
  else c.flashQueue (.image k) none

/-- PERSIST. -/
def execPersist (k : Fin 5) (s : State) : Out := s.on fun c => c.persist k

/-- The image of a class has been written; it is read back under checks 1 to 5. -/
def Chip.imageWritten (c : Chip) (k : Nat) (ok : Bool) : Chip :=
  let bank := 1 - ((imgNat c.config 14 1).testBit k).toNat
  let a := bankBase bank + slotOffset k
  let c := c.flashErase a (slotSize k)
  if !ok then c.persistEnd k BOOT_EVENT_PERSIST_FAIL
  else
    let c := c.flashProgram a (c.runningImage k)
    let back := c.slotImage bank k
    let why := c.imageCheck k back back.length
    if 1 ≤ why ∧ why ≤ 5 then c.persistEnd k BOOT_EVENT_PERSIST_FAIL else c.flashQueue (.bank k) none

/-! ### FLASH_WRITE_DONE -/

/-- A configuration record is written. -/
def Chip.newConfig (c : Chip) (r : List Byte) : Chip := (c.writeConfig r).mark BOOT_EVENT_CONFIG_WRITTEN

/-- The record with axis `p`'s present offsets in it (Table 15.4). -/
def Chip.chopperRecord (c : Chip) (p : Nat) : List Byte :=
  let r := c.config
  let r := patchBytes r 32 (leBytes 2 (imgNat r 32 2 ||| 2 ^ p))
  patchBytes r (40 + 4 * p) (leBytes 2 (c.fld (MOT_AX_OFFSET_OFFSET_A p)) ++ leBytes 2 (c.fld (MOT_AX_OFFSET_OFFSET_B p)))

/-- The WRITE that waits for a journal entry goes on, or, when both tries failed, ends with MEDIA_FAULT (R489, R606). -/
def Chip.journalDone (c : Chip) (uid : Option Nat) (ok : Bool) : Chip :=
  match uid.bind c.cmd with
  | some m =>
    if m.opcode ≠ opWrite ∨ m.wait ≠ .seal ∨ m.status.isSome then c
    else if ok then (c.updCmd m.uid fun m => { m with wait := .none }).completeWrite m
    else (c.undoWrite m).finishS m.uid stMediaFault
  | none => c

/-- The oldest flash operation ends, well or not. What RESULT shows of a WRITE_CONFIG whose flash write failed is free. -/
def Chip.flashDone (c : Chip) (ok : Bool) : Chip :=
  match c.boot.ops with
  | [] => c
  | o :: rest =>
    let c := c.setBoot { c.boot with ops := rest }
    match o.use with
    | .journal v s op retried =>
      if ok then (c.journalWrite (v, s) op retried).journalDone o.uid true
      else if !retried then c.setBoot { c.boot with ops := { o with use := .journal v s op true } :: rest }
      else (c.mark BOOT_EVENT_JOURNAL_FAIL).journalDone o.uid false
    | .chopper p =>
      let c := if ok then c.newConfig (c.chopperRecord p) else c
      match o.uid with
      | some u => c.finishS u stOk
      | none => c
    | .hostConfig r =>
      let c := c.setFld BOOT_HOST_STATUS_BUSY 0
      if ok then c.newConfig (patchBytes r 14 (leBytes 1 (imgNat c.config 14 1))) else c.draw.2.bootResult (c.draw.1.toNat % 4)
    | .image k => c.imageWritten k ok
    | .bank k =>
      if ok then
        (c.newConfig (patchBytes c.config 14 (leBytes 1 (Nat.xor (imgNat c.config 14 1) (2 ^ k))))).persistEnd k BOOT_EVENT_PERSIST_DONE
      else c.persistEnd k BOOT_EVENT_PERSIST_FAIL

/-- FLASH_WRITE_DONE. -/
def execFlashWriteDone (ok : Bool) (s : State) : Out := s.on fun c => c.flashDone ok

/-! ### Ports -/

/-- A register belongs to port `x`: to its part of SLC, or its copy of what is one per port at one offset. -/
def ofPort (x o : Nat) : Bool :=
  if portKey ≤ o then x == 1 else if 0x10000 ≤ o ∧ o < 0x10800 then (o - 0x10000) / 0x100 == x else x == 0

/-- PORT_RESET, of whatever kind: queues, rings and commands of the port, its fields of class F and its configuration space (Tables 0.6, 11.18, 15.2); what
Table 11.1 and the boot configuration fix there stays. -/
def Chip.portReset (c : Chip) (x : Nat) : Chip :=
  if !c.portExists x then c else
  let c := c.portResetHost x
  { c with
    regs := keptRegs (· != .f) (ofPort x) c.regs,
    host := { c.host with pcie := c.host.pcie.filter (fun w => w.1 / 1024 != x || [0, 2, 11].contains (w.1 % 1024)) } }

/-- PORT_RESET. -/
def execPortReset (x : Port) (_k : PortResetKind) (s : State) : Out := s.on fun c => c.portReset x

/-- What a register or configuration read returned to `a` (log entry 5). -/
def Chip.answer (c : Chip) (a : Nat) (v : Word) : Chip := c.setAgent a { c.agent a with lastRead := v }

/-- CONFIGURATION_REQUEST: answered with a retry status, without effect, before step 2 has ended; what Table 11.1 fixes is read only. -/
def Chip.configRequest (c : Chip) (x : Nat) (write : Bool) (off : Nat) (v : BitVec 32) : Chip :=
  let k := off / 4 % 1024
  if !c.portExists x ∨ c.host.configRetry then c
  else if !write then c.answer x ((c.pcie x off).setWidth 64)
  else if [0, 2, 11].contains k then c
  else ({ c with host := { c.host with pcie := Cells.put pcieReset c.host.pcie (1024 * x + k) v } } : Chip).msixFlush x

/-- CONFIGURATION_REQUEST. -/
def execConfigurationRequest (x : Port) (write : Bool) (off : Nat) (v : BitVec 32) (s : State) : Out := s.on fun c => c.configRequest x write off v

end Sys2Proof.Machine
end

