-- ==== Sys2Proof/Machine/Pins.lean ====
section
/-! DEFINITION. The library port (R369, R645, R651 to R653) and boundary scan (R658 to R662). -/

namespace Sys2Proof.Machine

/-! ### The library port -/

/-- CLAMP_REQ of all stations, as LP_CLAMP shows it. -/
def Chip.lpClamp (c : Chip) : Nat := (List.range 8).foldl (fun n s => n + 2 ^ s * c.fld (WMM_STN_CTRL_CLAMP_REQ s)) 0

/-- LP_STATIONs (Table 8.13). -/
def Chip.lpStation (c : Chip) (s : Nat) : Nat :=
  let st := c.stState s
  st + 8 * c.fld (WMM_STN_STATE_DISC_PRESENT s) + 16 * c.fld (WMM_STN_STATE_CLAMPED s) +
    32 * (st == sEmpty || st == sLoaded || st == sSafe).toNat + 256 * (c.stn s).changes.toNat + 65536 * c.fld (WMM_STN_STATE_CAUSE s)

/-- A 64-bit register of the library port by the address of its lower word. -/
def Chip.lpWide (c : Chip) (a : Nat) : Option Word :=
  if a = 0x008 then some c.now
  else if 0x040 ≤ a ∧ a < 0x080 ∧ a % 8 = 0 then some (Cells.get (fun _ => 0) c.servo.lpTimes ((a - 0x040) / 8))
  else none

/-- Read the word at an address, with the latch (R653). An address with no register reads 0. -/
def Chip.lpWord (c : Chip) (a : Nat) : BitVec 32 × Chip :=
  match c.lpWide a with
  | some v => (v.setWidth 32, { c with servo := { c.servo with lpLatch := some (a, (v >>> 32).setWidth 32) } })
  | none =>
    match if a < 4 then none else c.lpWide (a - 4) with
    | some v =>
      match c.servo.lpLatch with
      | some (b, h) => (if b = a - 4 then h else (v >>> 32).setWidth 32, c)
      | none => ((v >>> 32).setWidth 32, c)
    | none =>
      (BitVec.ofNat 32 (if a = 0 then 0xC26416 else if a = 0x010 then c.lpClamp else if 0x020 ≤ a ∧ a < 0x040 then c.lpStation ((a - 0x020) / 4) else 0), c)

/-- A READ of `n` words from an address, whose bits [1:0] are ignored; the words go out on LP_MISO. -/
def Chip.lpRead (c : Chip) (addr n : Nat) : Chip :=
  let r := (List.range n).foldl (fun (r : List (BitVec 32) × Chip) i =>
    let x := r.2.lpWord (addr / 4 * 4 + 4 * i)
    (r.1 ++ [x.1], x.2)) ([], c)
  { r.2 with servo := { r.2.servo with lpOut := r.1 } }

/-- LP_READ; the port is ignored while POR_N is active (R645). -/
def execLpRead (addr : BitVec 16) (words : Nat) (s : State) : Out := s.on fun c => c.when c.boot.powered fun c => c.lpRead addr.toNat words

/-- A word written: LP_CLAMP and LP_PARK are the fields that can be written. -/
def Chip.lpStore (c : Chip) (a v : Nat) : Chip :=
  if a = 0x010 then (List.range 8).foldl (fun c s => if c.flag (WMM_STN_CTRL_CLAMP_REQ s) = v.testBit s then c else c.clampReq s (v.testBit s)) c
  else if a = 0x014 then c.lpPark (v % 256) else c

/-- LP_WRITE. -/
def execLpWrite (addr : BitVec 16) (words : List (BitVec 32)) (s : State) : Out :=
  s.on fun c => c.when c.boot.powered fun c =>
    let c := (List.range words.length).foldl (fun c i => c.lpStore (addr.toNat / 4 * 4 + 4 * i) (words.getD i 0).toNat) c
    { c with servo := { c.servo with lpOut := [] } }

/-! ### Boundary scan -/

/-- IDCODE (R661). -/
def idcode : BitVec 32 := 0xA6416001#32 ||| (Config.jep106.setWidth 32 <<< 1)

def Chip.setTap (c : Chip) (t : TapSt) : Chip := { c with sup := { c.sup with tap := t } }

/-- An instruction under which the mission logic has the pins. -/
def Chip.tapInstr (c : Chip) (code : BitVec 8) : Chip := c.setTap { c.sup.tap with instr := code }

/-- An instruction that takes the pins: the mission state is undefined until the next power-on reset (R660). Fuses, boot flash and the port itself are
no mission state; what the device has written to the hosts has been written. -/
def Chip.takePins (c : Chip) (code : BitVec 8) : Chip :=
  let old := c
  let c := c.drawChip.copyFields old ([BOOT_FUSE_OWNER_KEY_SET, BOOT_FUSE_OWNER_ONLY] ++ (List.range 5).map (fun k => BOOT_SVN_MIN_SVN k))
  let c : Chip := { c with host := { c.host with posts := old.host.posts } }
  let c := c.setBoot { c.boot with flash := old.boot.flash, keyHash := old.boot.keyHash, powered := old.boot.powered }
  c.setTap { old.sup.tap with instr := code, taken := true }

/-- EXTEST. -/
def execExtest (s : State) : Out := s.on fun c => c.takePins 0x00

/-- SAMPLE/PRELOAD: the boundary cells are loaded. -/
def execSamplePreload (cells : List Bool) (s : State) : Out :=
  s.onIf (cells.length == 1836) fun c => c.setTap { c.sup.tap with instr := 0x01, cells := cells }

/-- IDCODE. -/
def execIdcode (s : State) : Out := s.on fun c => c.setTap { c.sup.tap with instr := 0x02, ident := some idcode }

/-- HIGHZ. -/
def execHighz (s : State) : Out := s.on fun c => c.takePins 0x03

/-- CLAMP. -/
def execBscanClamp (s : State) : Out := s.on fun c => c.takePins 0x04

/-- EXTEST_PULSE. -/
def execExtestPulse (s : State) : Out := s.on fun c => c.takePins 0x05

/-- EXTEST_TRAIN. -/
def execExtestTrain (s : State) : Out := s.on fun c => c.takePins 0x06

/-- BYPASS. -/
def execBypass (s : State) : Out := s.on fun c => c.tapInstr 0xFF

/-- TAP_RESET: after a test-logic reset the instruction is IDCODE (R659). -/
def execTapReset (s : State) : Out := s.on fun c => c.setTap { c.sup.tap with instr := 0x02, cells := [] }

end Sys2Proof.Machine
end

