-- ==== Sys2Proof/Machine/Link.lean ====
section
/-! DEFINITION. The Flume begins to retrain, and goes down (R46, R49, R442). -/

namespace Sys2Proof.Machine

/-- A retraining begins (R46); one that is in progress goes on. -/
def Chip.startRetrain (c : Chip) : Chip := c.setFld FLM_STATUS_RETRAINING 1

/-! ### What a lost Flume ends (R49, R442) -/

/-- On the M-die: lanes are disarmed, requests and retry sequences end, passes end by underrun, a qualification ends at its atomic step, updates and drains
of management records go no further. -/
def Chip.cutPickup (c : Chip) (p : Nat) : Chip :=
  let c := (c.disarmLanes p).dropRetry p
  let c := c.setFrm p { c.frm p with reqs := [], clusters := [] }
  let c := if (c.wch p).pass.isSome ∧ !(c.wch p).underrun then
      ((c.setWch p { c.wch p with underrun := true }).inc (WCH_UNDERRUNS_COUNT p)).mark (WCH_EVENT_UNDERRUN p)
    else c
  let c := (c.dropQueuedPass p).setWch p { (c.dropQueuedPass p).wch p with items := [], relocs := [] }
  let c := (c.abandonCal p true).unhand ((c.abandonCal p true).discOf p)
  let v := c.vol p
  let c := c.setVol p { v with mgmt := none, qual := v.qual.map (fun q => { q with stop := true, waiters := [] }) }
  if c.volState p = vUnmounting then c.setVolState p (if v.writing then vMountedWrite else vMountedRead) else c

/-- A command that needs a station, and has not completed, completes with STATION_FAULT; blocks of a read that have no outcome are STATION_LOST. -/
def Chip.cutCmd (c : Chip) (m : Cmd) : Chip :=
  if m.opcode ∈ [opRead, opVerify, opPrefetch] then (if m.wait = .engine then c else c.continueRead m.uid)
  else if m.opcode = opWrite then (if m.wait = .station then (c.undoWrite m).finishS m.uid stStationFault else c)
  else if m.opcode = opFlush then (if m.wait = .engine then c else c.finish m.uid stStationFault 0 0 m.count)
  else if m.opcode ∈ [opMount, opUnmount, opClose, opStation] then c.finishS m.uid stStationFault
  else if m.opcode = opCalibrate ∧ m.arg0 / 256 < 8 then c.finishS m.uid stStationFault
  else c

/-- Commands of the table that have started and have no status yet, in order of submission. -/
def Chip.openCmds (c : Chip) : List Cmd := c.host.cmds.filter (fun m => m.started && m.status.isNone)

/-- The Flume goes down. -/
def Chip.goDown (c : Chip) : Chip :=
  if !c.flag FLM_STATUS_UP then c else
  let c := (c.setFld FLM_STATUS_UP 0).mark FLM_EVENT_LINK_DOWN
  let c : Chip := { c with arch := { c.arch with toM := {}, toH := {} } }
  let c := (List.range 16).foldl (fun c p => c.cutPickup p) c
  let c := (List.range 8).foldl (fun c s => c.setStn s { c.stn s with waiters := [], holdClamp := false, resetUids := [] }) c
  let c := c.loseFills (fun _ => true)
  let c := c.openCmds.foldl (fun c m => c.cutCmd m) c
  let c : Chip := { c with buf := { c.buf with drains := [] }, arch := { c.arch with toM := {}, toH := {} } }
  (c.judgePeer .h).judgePeer .m

/-- The width in force is narrower than MIN_WIDTH: the Flume is down (R49). -/
def Chip.checkWidth (c : Chip) : Chip :=
  if c.carrying ∧ c.fld FLM_STATUS_WIDTH < c.fld FLM_CTRL_MIN_WIDTH then c.goDown else c

end Sys2Proof.Machine
end

