-- ==== Sys2Proof/Machine/Registers.lean ====
section
/-! DEFINITION. Accesses to registers (R20 to R27, R49, R50, R445, R462, R463, R504, R527, R528, R608) and the memory map of the RISC-V engines
(R502, R503). -/

namespace Sys2Proof.Machine

/-! ### What a register shows -/

/-- Bit i is set where `f i` holds, for i below `n`. -/
def bitMask (n : Nat) (f : Nat → Bool) : Nat := (List.range n).foldl (fun b i => b + 2 ^ i * (f i).toNat) 0

def sumOfNats (xs : List Nat) : Nat := xs.foldl (· + ·) 0

/-- The fields of GEN, SLC, CIS, CCH and FLM that show other state; `x` is the port whose copy is read. -/
def Chip.liveH (c : Chip) (x o : Nat) : List (Fld × Nat) :=
  if o < 0x10000 then [(GEN_VENDOR_VENDOR, Config.vendorId.toNat)]
  else if o < 0x20000 then
    let y := (o - 0x10000) / 0x100
    let n := c.fld (SLC_Q_SELECT_NUMBER x)
    let q := c.queue n
    let queue := q.created && q.port == x
    let ring := (c.ring n).created && (c.ring n).port == x
    [(SLC_PORT_STATUS_OUTSTANDING y, (c.host.cmds.filter (fun m => m.port == y)).length),
     (SLC_Q_INFO_INTAKE x, queue.toNat), (SLC_Q_INFO_RING x, ring.toNat), (SLC_Q_INFO_PORT x, if queue || ring then x else 0),
     (SLC_Q_INFO_OUTSTANDING x, if queue then (c.queueCmds n).length else 0), (SLC_Q_INFO_STOPPED x, (queue && q.stopped).toNat),
     (SLC_Q_INFO_HALTED x, (queue && q.halted).toNat), (SLC_Q_RING_RING x, if queue then q.ring else 0),
     (SLC_Q_RING_CORE x, if queue then q.core.getD 15 else if ring then 15 else 0)]
  else if o < 0x30000 then
    let n := c.fld (CIS_Q_SELECT_QUEUE x)
    let q := c.queue (n / 2)
    let mine := q.created && q.port == x
    let deep := ((c.cisQ n).mid.filter (fun k => k.deep.isSome)).length
    [(CIS_STATUS_FREE_MIDDLE, c.freeMiddle), (CIS_STATUS_SPILLING, c.core.spilling.toNat),
     (CIS_STATUS_DEEP_FULL, (decide (c.deepCells ≤ c.deepUsed)).toNat), (CIS_DEEP_USED_CELLS, c.deepUsed),
     (CIS_Q_INFO_SRAM_CELLS x, if mine then ((c.cisQ n).headOff + c.cisWords n + 15) / 16 - deep else 0),
     (CIS_Q_INFO_DEEP_CELLS x, if mine then deep else 0)]
  else if o < 0x40000 then
    [(CCH_STATUS_DIRTY_LINES, sumOfNats (c.buf.sets.map (fun k => (k.2.ways.filter (fun w => w.2.any (·.dirty))).length))),
     (CCH_STATUS_MISS_BUSY, min 256 c.buf.misses.length), (CCH_STATUS_VICTIM_LINES, c.buf.victims.length)]
  else if o < 0x60000 then [(FLM_LEDGER_TIME, c.nowH.toNat)]
  else []

/-- The word that LE_MEM_DATA shows: data memory as it stood at the last commit (R330). -/
def Chip.memData (c : Chip) (e : Nat) : Q :=
  let a := c.fld (LE_MEM_ADDR_ADDR e)
  let t := c.tolek e
  if c.flag (LE_MEM_ADDR_SPACE e) then
    let a := a % 2048
    if 1792 ≤ a then c.tData e a else Cells.get (fun _ => 0) (if (c.pair (pairOf e)).hasRun then t.saved else t.ctx).data a
  else t.word a

/-- The fields of the LE block that show other state. -/
def Chip.liveLe (c : Chip) (o : Nat) : List (Fld × Nat) :=
  if o < 0x402000 then
    [(LE_SUMMARY_PENDING, bitMask 24 (fun q => c.reg (LE_PAIR_EVENT q) != 0 || c.reg (LE_ENG_EVENT (2 * q)) != 0 || c.reg (LE_ENG_EVENT (2 * q + 1)) != 0))]
  else if o < 0x410000 then
    let q := (o - 0x402000) / 0x800
    [(LE_PAIR_STATUS_CMD_DEPTH q, (c.pair q).cmds.length), (LE_PAIR_STATUS_SINGLE q, (decide ((c.committing q).length = 1)).toNat)]
  else
    let e := (o - 0x410000) / 0x4000
    let r := (o - 0x410000) % 0x4000
    let t := c.tolek e
    if r < 0x400 then
      [(LE_ENG_STATUS_ROLE e, t.role), (LE_ENG_STATUS_RUNNING e, t.running.toNat), (LE_ENG_STATUS_SAT e, t.sat.toNat), (LE_ENG_STATUS_PC e, t.pc),
       (LE_MEM_DATA_DATA e, (c.memData e).toNat)]
    else if r < 0x2000 then
      let w := (r - 0x400) / 4
      [(LE_RTAB_ENTRIES e w, sumOfNats ((List.range 4).map (fun m => 256 ^ m * Cells.get (fun _ => 0) t.rtab (4 * w + m))))]
    else
      let b := (r - 0x2000) / 0x80
      let k := (r - 0x2000) % 0x80 / 4
      [(LE_K_VALUE e b k, (t.coef b k).toNat)]

/-- Ports of heartbeats: whether a path of engine `e` carries them (R425). -/
def Chip.liveWmm (c : Chip) (o : Nat) : List (Fld × Nat) :=
  if o < 0x601000 then
    [(WMM_PS_STATUS_ALL_STOPPED, ((List.range 8).all (fun s => decide (c.fld (SPN_STATUS_TACH s) < 30))).toNat)]
  else
    let q := (o - 0x601000) / 0x40
    let e := c.tolek (evenEng q)
    let d := c.tolek (oddEng q)
    [(WMM_PAIR_STATUS_ACTIVE_ODD q, (c.activeEng q == some (oddEng q)).toNat), (WMM_PAIR_STATUS_MODE q, c.pairMode q),
     (WMM_PAIR_STATUS_TESTING q, (c.pair q).testing.isSome.toNat),
     (WMM_PAIR_STATUS_FAB_EVEN q, (e.missFab == 0).toNat), (WMM_PAIR_STATUS_WIRE_EVEN q, (e.missWire == 0).toNat),
     (WMM_PAIR_STATUS_FAB_ODD q, (d.missFab == 0).toNat), (WMM_PAIR_STATUS_WIRE_ODD q, (d.missWire == 0).toNat),
     (WMM_PAIR_STATUS_SWAP_PENDING q, (c.pair q).swap.toNat)]

/-- The fields of the M-die blocks that show other state. -/
def Chip.liveM (c : Chip) (o : Nat) : List (Fld × Nat) :=
  if o < 0x200000 then
    let p := (o - 0x101000) / 0x1000
    [(AFE_PU_STATUS_SV_OFF p, (!c.flag (AFE_PU_CTRL_SV_EN p)).toNat)]
  else if o < 0x300000 then []
  else if o < 0x380000 then
    let p := (o - 0x301000) / 0x1000
    let f := c.frm p
    [(FRM_SUMMARY_PENDING, bitMask 16 (fun p => c.reg (FRM_EVENT p) != 0)),
     (FRM_STATUS_BUSY p, (f.framers.any (fun k => k.2.isSome) || !f.toDecoder.isEmpty || f.active.isSome || !f.iterating.isEmpty).toNat),
     (FRM_STATUS_RETRYING p, f.retry.isSome.toNat), (FRM_STATUS_ATTEMPT p, (f.retry.map (·.attempt)).getD 0),
     (FRM_STATUS_RETRY_BLOCKS p, min 255 ((f.retry.map (·.blocks.length)).getD 0)), (FRM_STATUS_ASSEMBLY p, (!f.assembly.isEmpty).toNat)]
  else if o < 0x400000 then
    let p := (o - 0x381000) / 0x1000
    [(WCH_SUMMARY_PASSING, bitMask 16 (fun p => c.flag (WCH_STATUS_PASSING p))), (WCH_SUMMARY_PENDING, bitMask 16 (fun p => c.reg (WCH_EVENT p) != 0)),
     (WCH_STATUS_LEVELS_READY p, (c.wch p).levelsReady.toNat), (WCH_STATUS_STRATEGY_BAD p, (!stratValid (c.stratOf p)).toNat)]
  else if o < 0x500000 then c.liveLe o
  else if o < 0x580000 then [(MOT_SUMMARY_PENDING, bitMask 16 (fun p => c.reg (MOT_AX_EVENT p) != 0))]
  else if o < 0x600000 then [(SPN_SUMMARY_PENDING, bitMask 8 (fun s => c.reg (SPN_EVENT s) != 0))]
  else if o < 0x60f000 then c.liveWmm o
  else []

/-- What register `k` shows to a read: stored fields, fields that show other state; a write-only field reads 0 (Table 0.5). -/
def Chip.regNow (c : Chip) (k : Nat) (r : RegDef) : Word :=
  let o := k % portKey
  let live := if o < 0x100000 then c.liveH (k / portKey) o else if o < 0x700000 then c.liveM o else []
  let w := live.foldl (fun w x => if x.1.reg = k then withField w x.1.lo x.1.w x.2 else w) (c.reg k)
  r.fields.foldl (fun w f => if f.acc = .wo then withField w f.lo f.w 0 else w) w

/-! ### Places -/

/-- The port whose copy of a register an agent meets where each port has its own at one offset; an engine meets Port A's (log entry 26). -/
def agentPort : Agent → Nat
  | .port x => x
  | .engine _ => 0

/-- Registers of which each port has its own copy at one offset (R527, R528). -/
def perPort (o : Nat) : Bool := [0x10800, 0x10804, 0x10808, 0x20020, 0x20024].contains o

/-- The 32-bit register at offset `o`: its key, its field map, and whether it is the upper half of a 64-bit one (R22, R23). -/
def regPlace (x o : Nat) : Option (Nat × RegDef × Bool) :=
  let k := if perPort o then o + portKey * x else o
  match regAt k with
  | some r => some (k, r, false)
  | none => if 4 ≤ o then ((regAt (o - 4)).filter (·.wide)).map (fun r => (o - 4, r, true)) else none

def isMdie (o : Nat) : Bool := decide (0x100000 ≤ o) && decide (o < 0x700000)

/-- Blocks that are served (R524, R608). -/
def Chip.served (c : Chip) (o : Nat) : Bool :=
  c.flag GEN_CONFIG_SEALED || decide (o < 0x10000) || (decide (0x700000 ≤ o) && decide (o < 0x800000))

/-- In wide mode the Port B registers of SLC read 0 and take no write (R527). -/
def Chip.absent (c : Chip) (k : Nat) : Bool :=
  let o := k % portKey
  c.flag GEN_CONFIG_PORT_MODE && (portKey ≤ k || (decide (0x10100 ≤ o) && decide (o < 0x10200)))

/-! ### Reads -/

/-- The 32-bit register at `o` as a read finds it; a read of LE_MEM_DATA may advance ADDR (Table 7.19). -/
def Chip.cell (c : Chip) (a : Agent) (o : Nat) : BitVec 32 × Chip :=
  if !c.served o then (0, c)
  else if 0xF00000 ≤ o ∧ o < 0xF10000 then
    match a with
    | .port x => (c.msixWord x ((o - 0xF00000) / 4), c)
    | .engine _ => (0, c)
  else match regPlace (agentPort a) o with
    | none => (0, c)
    | some (k, r, upper) =>
      if c.absent k then (0, c) else
      let w := c.regNow k r
      let c := if isMdie o ∧ 0x410000 ≤ o ∧ o < 0x500000 ∧ (o - 0x410000) % 0x4000 = 0x1c then
          let e := (o - 0x410000) / 0x4000
          if c.flag (LE_MEM_ADDR_INC e) then
            c.setFld (LE_MEM_ADDR_ADDR e) ((c.fld (LE_MEM_ADDR_ADDR e) + 1) % (if c.flag (LE_MEM_ADDR_SPACE e) then 2048 else 4096))
          else c
        else c
      (if upper then BitVec.setWidth 32 (w >>> 32) else BitVec.setWidth 32 w, c)

/-- A 4-byte read with the rules of the read latch (R22). -/
def Chip.read4 (c : Chip) (a : Agent) (o : Nat) : BitVec 32 × Chip :=
  let n := agentNum a
  let r := c.cell a o
  match regPlace (agentPort a) o with
  | some (k, d, false) =>
    if d.wide then (r.1, r.2.setAgent n { r.2.agent n with readLatch := some (k, (r.2.cell a (o + 4)).1) }) else r
  | some (k, _, true) =>
    match (c.agent n).readLatch with
    | some (j, v) => if j = k then (v, c) else r
    | none => r
  | none => r

def isWide (a : Agent) (o : Nat) : Bool := (regPlace (agentPort a) o).any (fun r => r.2.1.wide && !r.2.2)

/-- An access that R22 does not allow is noted (Table 12.7). -/
def Chip.noteAccess (c : Chip) (a : Agent) (o : Nat) : Chip :=
  (c.inc GEN_ACCESS_SIZE).log 0x0101 .h (detBytes 4 o ++ [agentNum a])

/-- A read of `size` bytes at `o` (R22). -/
def Chip.readBar (c : Chip) (a : Agent) (o size : Nat) : Word × Chip :=
  if size = 4 ∧ o % 4 = 0 then
    let r := c.read4 a o
    (r.1.setWidth 64, r.2)
  else if size = 8 ∧ o % 8 = 0 then
    if isWide a o then
      let lo := c.cell a o
      let hi := c.cell a (o + 4)
      ((hi.1.setWidth 64 <<< 32) ||| lo.1.setWidth 64, c)
    else
      let lo := c.read4 a o
      let hi := lo.2.read4 a (o + 4)
      ((hi.1.setWidth 64 <<< 32) ||| lo.1.setWidth 64, hi.2)
  else if 0 < size ∧ size < 4 ∧ o % 4 + size ≤ 4 then
    let r := c.cell a (o / 4 * 4)
    (BitVec.ofNat 64 (r.1.toNat / 256 ^ (o % 4) % 256 ^ size), r.2)
  else (0, c.noteAccess a o)

/-! ### Writes -/

/-- A value that is not reserved (R27). -/
def fieldOk (f : FieldDef) (x : Nat) : Bool := f.valid.isEmpty || f.valid.any (fun r => decide (r.1 ≤ x) && decide (x ≤ r.2))

/-- A field after a write of `v` under `mask` (Table 0.5): a reserved value is treated as the reset value (R27). -/
def fieldAfter (f : FieldDef) (old v mask : Word) : Nat :=
  let x := fieldOf old f.lo f.w
  if fieldOf mask f.lo f.w = 0 then x
  else match f.acc with
    | .ro => x
    | .lk => x
    | .wo => 0
    | .w1c => x &&& (2 ^ f.w - 1 - fieldOf (v &&& mask) f.lo f.w)
    | _ =>
      let y := fieldOf ((old &&& ~~~ mask) ||| (v &&& mask)) f.lo f.w
      if fieldOk f y then y else f.reset

/-- A register after a write. -/
def regAfter (r : RegDef) (old v mask : Word) : Word :=
  r.fields.foldl (fun w f => withField w f.lo f.w (fieldAfter f old v mask)) old

/-- WARN < THROTTLE < PARK. -/
def limitsOrdered (w : Word) : Bool := decide (fieldOf w 0 8 < fieldOf w 8 8) && decide (fieldOf w 8 8 < fieldOf w 16 8)

/-- Writes to H-die registers with an effect beyond their fields. `old` is the chip before the write, `k` the register, `v` what is written. -/
def Chip.afterH (c : Chip) (k : Nat) (v : Word) : Chip :=
  if k = CIS_CTRL then c.spillState
  else if k = BUF_SCRUB_CTRL then c.when (v.getLsbD 0) (·.scrubGo)
  else if k = BUF_FILL_STALE then (if fieldOf v 12 4 < 12 then c.fillStale (fieldOf v 12 4) (fieldOf v 0 12) else c)
  else if k = BUF_INJECT then c.when (v.getLsbD 16) (fun c => c.setFld BUF_INJECT_ARMED 1)
  else if k = FLM_CTRL then (c.when (v.getLsbD 0) (·.startRetrain)).checkWidth
  else if k = WMH_CTRL then c.when (v.getLsbD 17) (·.askSwap)
  else if k = BOOT_HOST_CMD then
    let j := fieldOf v 4 3
    match fieldOf v 0 3 with
    | 1 => c.bootCmd (· == 4) fun c => c.loadChunk j
    | 2 => c.bootCmd (· == 4) fun c => c.loadEnd j
    | 4 => c.bootCmd (fun s => s != 0 && s != 7) fun c => c.hostConfig
    | 5 => c.bootCmd (· == 4) fun c => c.fuseProgram
    | _ => c
  else c

/-- Writes to M-die registers with an effect beyond their fields. `was` is the chip before the write. -/
def Chip.afterM (c was : Chip) (k : Nat) (v : Word) : Chip :=
  let p := k % 0x100000 / 0x1000 - 1
  if k = AFE_PLL_CTRL then c.when (v.getLsbD 0) (·.relock)
  else if k < 0x200000 then
    if k = AFE_PU_CTRL p then (if c.flag (AFE_PU_CTRL_TH_EN p) then c else c.setFld (AFE_TH_VALUE_CODE p) 0)
    else if 0x101080 ≤ k ∧ 0x80 ≤ k % 0x1000 then
      let b := (k % 0x1000 - 0x80) / 0x10
      if k = AFE_LANE_CFG p b then c.afeWritten (8 * p + b) true
      else if k = AFE_LANE_OFFSET p b then c.afeWritten (8 * p + b) false else c
    else c
  else if k < 0x380000 then c
  else if k < 0x400000 then
    let p := (k - 0x381000) / 0x1000
    if k = WCH_CTRL p then c.when (v.getLsbD 3) (fun c => c.stopPass p)
    else if k = WCH_LEVEL_PB p then (was.setLevel p 0 (c.fld (WCH_LEVEL_PB_PEAK p))).setLevel p 1 (c.fld (WCH_LEVEL_PB_BIAS p))
    else if k = WCH_LEVEL_C p then was.setLevel p 2 (c.fld (WCH_LEVEL_C_COOL p))
    else c
  else if k < 0x500000 then
    let q := (k - 0x402000) / 0x800
    let r := (k - 0x402000) % 0x800
    if k < 0x402000 ∨ 0x410000 ≤ k then c
    else if r = 0x10 then c.pushCmd q (BitVec.setWidth 32 v) (BitVec.ofNat 32 (c.fld (LE_CMD_ARG_ARG q)))
    else if 0x400 ≤ r then was.writeParam q ((r - 0x400) / 4) (BitVec.setWidth 32 v)
    else c
  else if k < 0x580000 then c
  else if k < 0x600000 then
    let s := (k - 0x581000) / 0x1000
    if k = SPN_CTRL s then c.applyMode s else c
  else if k < 0x60f000 then
    let q := (k - 0x601000) / 0x40
    if k = WMM_PAIR_CTRL q then
      let c := c.when (v.getLsbD 1) fun c => (c.setPair q { c.pair q with swap := true }).journal actSwap q
      c.when (v.getLsbD 2) fun c => c.retest q
    else c
  else if k < 0x680000 then
    let s := (k - 0x60f000) / 0x80
    if k = WMM_STN_CTRL s then
      let c := if was.flag (WMM_STN_CTRL_CLAMP_REQ s) = v.getLsbD 0 then c else was.clampReq s (v.getLsbD 0)
      c.when (v.getLsbD 1) fun c => c.park s cauHostPark
    else c
  else if k = CAL_CTRL then c.when (v.getLsbD 3) fun c => c.setFld CAL_PLL_PENDING 1
  else
    let p := (k - 0x681000) / 0x1000
    if k = CAL_PU_CTRL p then c.when (v.getLsbD 0) fun c => c.startCycle p else c

/-- A write that its register discards whole: settings of an enabled admin pair (R527), limits out of order (Table 14.8). -/
def Chip.writeDropped (c : Chip) (k : Nat) (new : Word) : Bool :=
  let x := (k - 0x10000) / 0x100
  (decide (0x10000 ≤ k) && decide (k < 0x10200) && c.flag (SLC_PORT_CTRL_ENABLE x) && decide (k % 0x100 < 0x40)) ||
    (((k == THH_LIMITS || k == CAL_LIMITS) || (decide (0x681000 ≤ k) && decide (k < 0x691000) && k % 0x1000 == 0xc)) && !limitsOrdered new)

/-- A write of `v` under `mask` takes effect in register `k`. -/
def Chip.writeReg (c : Chip) (a : Agent) (o k : Nat) (r : RegDef) (v mask : Word) : Chip :=
  let c := if r.fields.any (fun f => f.acc == .lk && fieldOf mask f.lo f.w != 0) then
      (c.inc GEN_ACCESS_LOCK).log 0x0102 .h (detBytes 4 o ++ [agentNum a]) else c
  let new := regAfter r (c.reg k) v mask
  if c.writeDropped k new then c
  else if 0x10000 ≤ k ∧ k < 0x10200 ∧ k % 0x100 = 0 then c.when (v.getLsbD 0) fun c => c.sluiceEnable ((k - 0x10000) / 0x100)
  else
    let d := c.setReg k new
    if k % portKey < 0x100000 ∨ 0x700000 ≤ k then d.afterH k v else d.afterM c k v

/-- An entry of the pair's image that a watermaster writes into LE_PAIR_CTRL (R301). -/
def Chip.writeEntries (c : Chip) (a : Agent) (k : Nat) (v : Word) : Chip :=
  let q := (k - 0x402000) / 0x800
  if (a = .engine .wmH ∨ a = .engine .wmM) ∧ 0x402000 ≤ k ∧ k < 0x40e000 ∧ (k - 0x402000) % 0x800 = 0 ∧ fieldOf v 1 2 ≠ c.fld (LE_PAIR_CTRL_ENTRY q) then
    c.writeEntry q (fieldOf v 1 2)
  else c

/-- Who may write (R445, R527): SLC registers of a port only through it; M-die blocks by WM-H only while it is ACTIVE and the Flume carries. -/
def Chip.mayWrite (c : Chip) (a : Agent) (k : Nat) : Bool :=
  let o := k % portKey
  if decide (0x10000 ≤ o) && decide (o < 0x10200) then
    match a with
    | .port x => x.val == (o - 0x10000) / 0x100
    | .engine _ => true
  else !(a == .engine .wmH && isMdie o) || (c.carrying && c.fld WMH_ROLE_ROLE == 1)

/-- The 32-bit or 64-bit register at `o` is written: `v` holds the bits in the places that they have in the register (R22, R23, R608). -/
def Chip.store (c : Chip) (a : Agent) (o : Nat) (v mask : Word) : Chip :=
  match regPlace (agentPort a) o with
  | none => c
  | some (k, r, _) =>
    if c.absent k ∨ !c.mayWrite a k then c else (c.writeReg a o k r v mask).writeEntries a k v

/-- Places outside the registers: the MSI-X table (R463) and the mailbox (R617). -/
def Chip.storeOther (c : Chip) (a : Agent) (o : Nat) (bs : List Byte) : Chip :=
  if 0x780000 ≤ o ∧ o < 0x800000 then
    c.setBoot { c.boot with mailbox := Cells.putRun (fun _ => 0) c.boot.mailbox (o - 0x780000) bs }
  else if 0xF00000 ≤ o ∧ o < 0xF08000 then
    match a with
    | .port x => (((List.range (bs.length / 4)).foldl (fun c i =>
        c.setMsixWord x ((o - 0xF00000) / 4 + i) (BitVec.ofNat 32 (ofLeBytes ((bs.drop (4 * i)).take 4)))) c)).msixFlush x
    | .engine _ => c
  else c

def loMask : Word := 0xFFFFFFFF#64
def hiMask : Word := 0xFFFFFFFF00000000#64

/-- A write that does not reach the M-die is logged (R49). -/
def Chip.noteUnreachable (c : Chip) (a : Agent) (o : Nat) : Chip := c.log 0x0103 .h (detBytes 4 o ++ [agentNum a])

/-- The engine is on the M-die. -/
def onMdie : Agent → Bool
  | .engine (.cs _) => true
  | .engine .wmM => true
  | _ => false

/-- A lower half that is held takes effect alone, before an access that is not its upper half (R22); one of an M-die register is lost while the
Flume is down (R49). -/
def Chip.settleLatch (c : Chip) (a : Agent) (o : Nat) (write4 : Bool) : Chip :=
  let n := agentNum a
  match (c.agent n).writeLatch with
  | none => c
  | some (k, v) =>
    let match_ := write4 && (regPlace (agentPort a) o).any (fun r => r.1 == k && r.2.2)
    let d := c.setAgent n { c.agent n with writeLatch := none }
    if match_ then c
    else if isMdie k && !onMdie a && !c.flag FLM_STATUS_UP then d.noteUnreachable a k
    else d.store a (k % portKey) (v.setWidth 64) loMask

/-- A 4-byte write with the rules of the write latch (R22). -/
def Chip.write4 (c : Chip) (a : Agent) (o : Nat) (v : BitVec 32) : Chip :=
  let n := agentNum a
  if !c.served o then c
  else match regPlace (agentPort a) o with
  | none => c.storeOther a o (leBytes 4 v.toNat)
  | some (k, r, false) =>
    if r.wide then c.setAgent n { c.agent n with writeLatch := some (k, v) } else c.store a o (v.setWidth 64) loMask
  | some (k, _, true) =>
    let up := v.setWidth 64 <<< 32
    match (c.agent n).writeLatch with
    | some (j, lo) =>
      if j = k then (c.setAgent n { c.agent n with writeLatch := none }).store a (o - 4) (up ||| lo.setWidth 64) (loMask ||| hiMask)
      else c.store a o up hiMask
    | none => c.store a o up hiMask

/-- A write of `size` bytes at `o` (R22). -/
def Chip.writeBar (c : Chip) (a : Agent) (o size : Nat) (v : Word) : Chip :=
  if size = 4 ∧ o % 4 = 0 then c.write4 a o (v.setWidth 32)
  else if size = 8 ∧ o % 8 = 0 then
    if isWide a o then (if c.served o then c.store a o v (loMask ||| hiMask) else c)
    else (((c.write4 a o (v.setWidth 32)).settleLatch a (o + 4) true).write4 a (o + 4) (BitVec.setWidth 32 (v >>> 32)))
  else c.noteAccess a o

/-! ### Whole accesses -/

/-- An access takes effect. A read answers its agent; an engine's load writes its register. -/
def Chip.doAccess (c : Chip) (m : RegAccess) : Chip :=
  let n := agentNum m.agent
  let c := c.settleLatch m.agent m.off (m.write && m.size == 4 && m.off % 4 == 0)
  if m.write then c.writeBar m.agent m.off m.size m.value
  else
    let r := c.readBar m.agent m.off m.size
    let d := r.2.answer n r.1
    match m.agent with
    | .engine e => d.setX e m.rd r.1
    | .port _ => d

/-- An access that cannot reach the M-die: a read answers all ones, a write is lost and logged, with a lower half held for it (R49). -/
def Chip.lostAccess (c : Chip) (m : RegAccess) : Chip :=
  let n := agentNum m.agent
  let c := c.settleLatch m.agent m.off (m.write && m.size == 4 && m.off % 4 == 0)
  if m.write then (c.setAgent n { c.agent n with writeLatch := none }).noteUnreachable m.agent m.off
  else
    let v := BitVec.ofNat 64 (256 ^ min m.size 8 - 1)
    let d := c.answer n v
    match m.agent with
    | .engine e => d.setX e m.rd v
    | .port _ => d

/-- An access crosses the Flume to an M-die block at once, waits for the end of a retraining, or is lost (R49, R50). -/
def Chip.access (c : Chip) (m : RegAccess) : Chip :=
  if !isMdie m.off ∨ onMdie m.agent ∨ !c.served m.off then c.doAccess m
  else if c.carrying then c.doAccess m
  else if c.flag FLM_STATUS_UP then { c with arch := { c.arch with mdieWait := c.arch.mdieWait ++ [m] } }
  else c.lostAccess m

/-- BAR0 as an engine sees it (Table 12.1). -/
def engineSees (e : Engine) (o size : Nat) : Bool :=
  match e with
  | .core _ => decide (o + size ≤ 0x800000)
  | .wmH => decide (o + size ≤ 0x800000)
  | _ => decide (0x100000 ≤ o) && decide (o + size ≤ 0x700000)

/-- An access by an agent; one that an engine does not see raises its exception (R502), and Port B does not exist in wide mode. -/
def Chip.issue4 (c : Chip) (m : RegAccess) : Chip :=
  match m.agent with
  | .port x => if c.portExists x then c.access m else c
  | .engine e => if engineSees e m.off m.size then c.access m else c.raise e (if m.write then 7 else 5)

/-- REGISTER_WRITE: a write of the size given (R22, R24). -/
def execRegisterWrite (a : Agent) (off size : Nat) (v : Word) (s : State) : Out :=
  s.on fun c => c.issue4 ⟨a, true, off, size, v, 0⟩

/-- LOWER_HALF_READ: a 4-byte read, which latches the upper half of a 64-bit register (R22). -/
def execLowerHalfRead (a : Agent) (off : Nat) (s : State) : Out := s.on fun c => c.issue4 ⟨a, false, off, 4, 0, 0⟩

/-- LOWER_HALF_WRITE: held in the write latch (R22). -/
def execLowerHalfWrite (a : Agent) (off : Nat) (v : BitVec 32) (s : State) : Out :=
  s.on fun c => c.issue4 ⟨a, true, off, 4, v.setWidth 64, 0⟩

/-- UPPER_HALF_WRITE: with the held lower half of the same register, or alone (R22). -/
def execUpperHalfWrite (a : Agent) (off : Nat) (v : BitVec 32) (s : State) : Out :=
  s.on fun c => c.issue4 ⟨a, true, off, 4, v.setWidth 64, 0⟩

/-- MISALIGNED_READ (R22). -/
def execMisalignedRead (a : Agent) (off size : Nat) (s : State) : Out := s.on fun c => c.issue4 ⟨a, false, off, size, 0, 0⟩

/-- LE_MEM_DATA_READ (Table 7.19). -/
def execLeMemDataRead (a : Agent) (e : TolekEngine) (s : State) : Out :=
  s.on fun c => c.issue4 ⟨a, false, LE_MEM_DATA e, 4, 0, 0⟩

/-! ### The memory map of the RISC-V engines (R502, R503) -/

/-- A load's bytes go to its register. -/
def Chip.loaded (c : Chip) (e : Engine) (rd : Nat) (bs : List Byte) : Chip := c.setX e rd (BitVec.ofNat 64 (ofLeBytes bs))

/-- An access to buffer DRAM: coherent for the cores and WM-H, past the cache for the M-die (R503). An uncorrectable unit ends a load in its exception. -/
def Chip.dramAccess (c : Chip) (e : Engine) (kind : MemKind) (a size : Nat) (v : Word) (rd : Nat) : Chip :=
  if onMdie (.engine e) then
    match kind with
    | .store => c.dramWrite a (leBytes size v.toNat)
    | .load =>
      let r := c.readUnits (unitsOf a size)
      if r.1 then r.2.raise e 5 else r.2.loaded e rd (r.2.bytes a size)
    | .fetch =>
      let r := c.readUnits (unitsOf a size)
      if r.1 then r.2.raise e 1 else r.2
  else
    match kind with
    | .store => c.memWrite a (leBytes size v.toNat)
    | .load =>
      match c.memRead a size with
      | (some bs, c) => c.loaded e rd bs
      | (none, c) => c.raise e 5
    | .fetch =>
      match c.memRead a size with
      | (some _, c) => c
      | (none, c) => c.raise e 1

def faultCauseOf : MemKind → Nat
  | .fetch => 1
  | .load => 5
  | .store => 7

/-- A load, store or fetch by engine `e` (Table 12.1). What the boot ROM holds is no part of the spec: a load from it reads a free value. -/
def Chip.engineAccess (c : Chip) (e : Engine) (kind : MemKind) (a size : Nat) (v : Word) (rd : Nat) : Chip :=
  let fault := c.raise e (faultCauseOf kind)
  if a + size ≤ 0x10000 then
    if e = .wmH then
      match kind with
      | .store => fault
      | .fetch => c
      | .load => let r := c.draw; r.2.setX e rd (BitVec.ofNat 64 (r.1.toNat % 256 ^ size))
    else fault
  else if 0x10000000 ≤ a ∧ a + size ≤ 0x10080000 then
    match kind with
    | .store => c.sramWrite e (a - 0x10000000) (leBytes size v.toNat)
    | .load => c.loaded e rd (Cells.getRun (fun _ => 0) c.core.sram (sramKey e (a - 0x10000000)) size)
    | .fetch => c
  else if 0x20000000 ≤ a ∧ a + size ≤ 0x20800000 then
    if engineSees e (a - 0x20000000) size then
      match kind with
      | .fetch => c
      | .load => c.access ⟨.engine e, false, a - 0x20000000, size, 0, rd⟩
      | .store => c.access ⟨.engine e, true, a - 0x20000000, size, v, 0⟩
    else fault
  else if 2 ^ 36 ≤ a ∧ a + size ≤ 2 ^ 36 + c.bufferSize then
    if onMdie (.engine e) ∧ !c.flag FLM_STATUS_UP then fault else c.dramAccess e kind (a - 2 ^ 36) size v rd
  else fault

/-- ENGINE_MEMORY_ACCESS: of 1, 2, 4 or 8 bytes. -/
def execEngineMemoryAccess (e : Engine) (kind : MemKind) (addr size : Nat) (v : Word) (rd : Fin 32) (s : State) : Out :=
  s.onIf ([1, 2, 4, 8].contains size) fun c => c.engineAccess e kind addr size v rd

end Sys2Proof.Machine
end

