-- ==== Sys2Proof/Machine/Flume.lean ====
section
/-! DEFINITION. The Flume: packets received and sent (R42 to R45), credits, time alignment (R60, R61), register requests (R50), items that cross
(R44), retraining (R46, R47, R49) and the return of governance (R444). -/

namespace Sys2Proof.Machine

/-! ### Packets -/

def Chip.flume (c : Chip) : Dir → FlumeDir
  | .toM => c.arch.toM
  | .toH => c.arch.toH

def Chip.setFlume (c : Chip) (d : Dir) (x : FlumeDir) : Chip :=
  match d with
  | .toM => { c with arch := { c.arch with toM := x } }
  | .toH => { c with arch := { c.arch with toH := x } }

def otherDir : Dir → Dir
  | .toM => .toH
  | .toH => .toM

/-- The die that receives in a direction. -/
def rxDie : Dir → Die
  | .toM => .m
  | .toH => .h

/-- A field of the header (Table 1.3). -/
def rxField (p : Rx) (lo w : Nat) : Nat := fieldOf p.header lo w

def rxType (p : Rx) : Nat := rxField p 0 4
def rxSeq (p : Rx) : Nat := rxField p 8 12
def rxUnit (p : Rx) : Nat := rxField p 20 8
def rxTag (p : Rx) : Nat := rxField p 48 16

/-- The CRC and the length of a packet are good (R42, R45). -/
def rxGood (p : Rx) : Bool :=
  p.crc == crc32 (leBytes 8 p.header.toNat ++ p.payload.flatMap (fun w => leBytes 4 w.toNat)) && p.payload.length == rxField p 28 7

/-- A packet that arrives. With a bad CRC it is discarded and counted, with a gap in SEQ discarded; both ask for a replay (R45). One of a reserved type is
discarded and counted (Table 1.4). A good one is acknowledged, and delivered by `f`. A packet of another type is another command's. -/
def Chip.receive (c : Chip) (d : Dir) (type : Nat) (p : Rx) (f : Chip → Chip) : Chip :=
  let x := c.flume d
  if !c.carrying then c
  else if !rxGood p then (c.inc FLM_CRC_ERRORS_COUNT).inc FLM_REPLAYS_COUNT
  else if rxSeq p ≠ x.expSeq then c.inc FLM_REPLAYS_COUNT
  else
    let acked := c.setFlume d { x with expSeq := (x.expSeq + 1) % 4096, replay := x.replay.filter (fun k => k.seq != rxSeq p) }
    if 8 < rxType p then acked.inc FLM_CRC_ERRORS_COUNT
    else if rxType p = type then f acked else c

/-- Class and priority of a packet type (Table 1.4); type 0 uses no credit. -/
def typeClass (t : Nat) : Option Nat :=
  if t = 0 then none else if t ≤ 2 then some 0 else if t ≤ 5 then some 1 else if t = 6 then some 2 else some 3

def typePriority (t : Nat) : Nat := if t = 0 then 1 else if t ≤ 2 then 2 else if t ≤ 5 then 3 else if t = 6 then 4 else 5

/-- The ready packet that is sent next. -/
def FlumeDir.nextReady (x : FlumeDir) : Option Packet :=
  let may := fun (p : Packet) => match typeClass p.ty with
    | none => true
    | some k => decide (0 < x.credits.getD k 0)
  ([1, 2, 3, 4, 5] : List Nat).findSome? (fun n => x.ready.find? (fun p => typePriority p.ty == n && may p))

/-- A packet takes its sequence number, uses its credit and is kept for replay. -/
def FlumeDir.send (x : FlumeDir) (p : Packet) : FlumeDir :=
  let credits := match typeClass p.ty with
    | none => x.credits
    | some k => x.credits.modify k (· - 1)
  { x with ready := x.ready.erase p, credits := credits, replay := x.replay ++ [{ p with seq := x.nextSeq }], nextSeq := (x.nextSeq + 1) % 4096 }

/-- FLUME_TRANSMIT: packets to be replayed first, in their order. -/
def execFlumeTransmit (d : Dir) (s : State) : Out := s.on fun c => c.when c.carrying fun c =>
  let x := c.flume d
  match x.toResend with
  | _ :: rest => c.setFlume d { x with toResend := rest }
  | [] =>
    match x.nextReady with
    | some p => c.setFlume d (x.send p)
    | none => c

/-- CREDIT: credits of the other direction, per class. -/
def execCredit (d : Dir) (p : Rx) (c0 c1 c2 c3 : Nat) (s : State) : Out := s.on fun c => c.receive d 0 p fun c =>
  let x := c.flume (otherDir d)
  c.setFlume (otherDir d) { x with credits := List.zipWith (· + ·) x.credits [c0, c1, c2, c3] }

/-- HEARTBEAT (R435, R436). -/
def execHeartbeat (d : Dir) (p : Rx) (s : State) : Out := s.on fun c => c.receive d 1 p fun c => c.heartbeatSeen (rxDie d) p.payload

/-! ### Time (R60, R61) -/

/-- The copies are no longer aligned. -/
def Chip.unaligned (c : Chip) : Chip :=
  let c : Chip := { c with arch := { c.arch with goodExchanges := 0 } }
  if c.flag FLM_STATUS_LEDGER_ALIGNED then
    ((c.setFld FLM_STATUS_LEDGER_ALIGNED 0).mark FLM_EVENT_SKEW_EXCEEDED).log 0x0104 .h [c.fld FLM_LEDGER_SKEW_SKEW]
  else c

/-- An exchange has measured the offset of the H-die copy, in ns. -/
def Chip.exchange (c : Chip) (offset : Int) : Chip :=
  let c := c.setInt FLM_LEDGER_SKEW_SKEW (max (-128) (min 127 offset))
  let c := c.setFld FLM_LEDGER_SKEW_PEAK (max (c.fld FLM_LEDGER_SKEW_PEAK) (min 255 offset.natAbs))
  let c : Chip := { c with arch := { c.arch with corr := -offset, lastExchange := c.nowH } }
  if offset.natAbs ≤ 4 then
    let n := min 3 (c.arch.goodExchanges + 1)
    let c : Chip := { c with arch := { c.arch with goodExchanges := n } }
    if n = 3 ∧ c.flag AFE_PLL_STATUS_LOCKED then c.setFld FLM_STATUS_LEDGER_ALIGNED 1 else c
  else c.unaligned

/-- TIME_SYNC. -/
def execTimeSync (p : Rx) (offset : Int) (s : State) : Out := s.on fun c => c.receive .toH 2 p fun c => c.exchange offset

/-- TIME_SYNC_SEND: the packet carries the H-die's time (log entry 58). -/
def execTimeSyncSend (s : State) : Out :=
  s.on fun c => c.when (c.flag FLM_STATUS_UP) fun c => c.flumeReady .toM ⟨2, 0, 0, 0, payloadOf [c.nowH]⟩

/-- TIME_SYNC_TIMEOUT. -/
def execTimeSyncTimeout (s : State) : Out := s.on fun c => c.unaligned

/-! ### Register requests (R50) -/

/-- A register request takes effect on the M-die, and is answered. -/
def Chip.request (c : Chip) (tag : Nat) (m : RegAccess) : Chip :=
  if !isMdie m.off then c
  else if m.write then (c.writeBar m.agent m.off m.size m.value).flumeReady .toH ⟨4, 0, 0, tag, []⟩
  else
    let r := c.readBar m.agent m.off m.size
    r.2.flumeReady .toH ⟨4, 0, 0, tag, payloadOf [r.1]⟩

/-- REG_REQ. -/
def execRegReq (p : Rx) (a : Agent) (write : Bool) (off size : Nat) (v : Word) (s : State) : Out :=
  s.on fun c => c.receive .toM 3 p fun c => c.request (rxTag p) ⟨a, write, off, size, v, 0⟩

/-- REG_RSP. -/
def execRegRsp (p : Rx) (a : Agent) (v : Word) (s : State) : Out := s.on fun c => c.receive .toH 4 p fun c => c.answer (agentNum a) v

/-! ### Items (R44) -/

def FlumeDir.part (x : FlumeDir) (k : Nat) : List (BitVec 32) := Cells.get (fun _ => []) x.partials k
def FlumeDir.setPart (x : FlumeDir) (k : Nat) (ws : List (BitVec 32)) : FlumeDir :=
  { x with partials := Cells.put (fun _ => []) x.partials k ws }

def Chip.setPart (c : Chip) (d : Dir) (k : Nat) (ws : List (BitVec 32)) : Chip := c.setFlume d ((c.flume d).setPart k ws)

/-- Pairs of payload words as words of a weir. -/
def pairWords : List (BitVec 32) → List Word
  | lo :: hi :: t => ((hi.setWidth 64 <<< 32) ||| lo.setWidth 64) :: pairWords t
  | [lo] => [lo.setWidth 64]
  | [] => []

/-- The weir of a unit on the receiving die (log entry 15). -/
def Chip.deliverItem (c : Chip) (d : Dir) (unit : Nat) (ws : List Word) : Chip :=
  if unit = unitWm then c.commitItem 9 0 ws
  else match d with
    | .toM => if unit < 16 then c.commitItem 3 unit ws else c
    | .toH => if unit < 12 then c.commitItem 4 unit ws else c

/-- EVENT: the item is committed with its last packet. -/
def Chip.eventPacket (c : Chip) (d : Dir) (p : Rx) (words : List Word) : Chip :=
  let k := 2 ^ 25 + rxUnit p
  let got := (c.flume d).part k ++ p.payload
  if words ≠ [] ∧ got = payloadOf words then (c.setPart d k []).deliverItem d (rxUnit p) words else c.setPart d k got

/-- EVENT. -/
def execEvent (d : Dir) (p : Rx) (words : List Word) (s : State) : Out := s.on fun c => c.receive d 5 p fun c => c.eventPacket d p words

/-- WRITE_DATA: a block with its header is an item of 1,032 payload words. -/
def Chip.writePacket (c : Chip) (p : Rx) : Chip :=
  let k := 65536 * rxUnit p + rxTag p
  let got := (c.flume .toM).part k ++ p.payload
  if 1032 ≤ got.length then (c.setPart .toM k []).when (decide (rxUnit p < 16)) (fun c => c.writeArrived (rxUnit p) got)
  else c.setPart .toM k got

/-- WRITE_DATA. -/
def execWriteData (p : Rx) (s : State) : Out := s.on fun c => c.receive .toM 6 p fun c => c.writePacket p

/-- BLOCK_HEAD: a block that is delivered waits for its data; any other is an item by itself (R237). -/
def Chip.headPacket (c : Chip) (p : Rx) : Chip :=
  if (p.payload.getD 2 0).toNat / 2 ^ 24 ≤ 2 then c.setPart .toH (rxTag p) p.payload else c.commitItem 16 0 (pairWords p.payload)

/-- BLOCK_HEAD. -/
def execBlockHead (p : Rx) (s : State) : Out := s.on fun c => c.receive .toH 7 p fun c => c.headPacket p

/-- BLOCK_DATA: the last one commits the block. -/
def Chip.dataPacket (c : Chip) (p : Rx) : Chip :=
  let got := (c.flume .toH).part (rxTag p)
  if got = [] then c
  else if 1032 ≤ (got ++ p.payload).length then (c.setPart .toH (rxTag p) []).commitItem 16 0 (pairWords (got ++ p.payload))
  else c.setPart .toH (rxTag p) (got ++ p.payload)

/-- BLOCK_DATA. -/
def execBlockData (p : Rx) (s : State) : Out := s.on fun c => c.receive .toH 8 p fun c => c.dataPacket p

/-! ### Replay and retraining (R45 to R49) -/

/-- The sender is to send again what comes after the last good SEQ; the third replay in a row of one packet retrains. -/
def Chip.replayFrom (c : Chip) (d : Dir) (seq : Nat) : Chip :=
  let x := c.flume d
  let rest := if x.replay.any (fun p => p.seq == seq) then (x.replay.dropWhile (fun p => p.seq != seq)).drop 1 else x.replay
  match rest with
  | [] => c.setFlume d { x with replay := rest }
  | p :: _ =>
    let n := if x.lastReplay = some p.seq then x.sameReplays + 1 else 1
    let c := (c.mark FLM_EVENT_REPLAY).setFlume d
      { x with replay := rest, toResend := rest, lastReplay := some p.seq, sameReplays := if 3 ≤ n then 0 else n }
    if 3 ≤ n then c.startRetrain else c

/-- REPLAY_REQUEST. -/
def execReplayRequest (d : Dir) (seq : Fin 4096) (s : State) : Out := s.on fun c => c.when c.carrying fun c => c.replayFrom d seq

/-- LANE_LOCK_LOST. -/
def execLaneLockLost (_d : Dir) (_lane : Fin 16) (s : State) : Out := s.on fun c => c.when (c.flag FLM_STATUS_UP) fun c => c.startRetrain

/-- RETRAIN. -/
def execRetrain (s : State) : Out := s.on fun c => c.startRetrain

/-- DOWN_RETRAIN_TIMER. -/
def execDownRetrainTimer (s : State) : Out := s.on fun c => c.when (!c.flag FLM_STATUS_UP) fun c => c.startRetrain

/-- A watermaster after a full state transfer. -/
def Chip.synced (c : Chip) (d : Die) : Chip :=
  c.setWm d { c.wm d with missFlume := false, missPulse := false, waiting := [], unsynced := false, path := none }

/-- A watermaster takes a role at the end of local governance or split authority; one that does not run keeps FAILED. -/
def Chip.takeRole (c : Chip) (d : Die) (role : Nat) : Chip :=
  if !c.wmRuns d then c else
  let was := c.role d
  let c := c.setFld (roleOf d) role
  if was = roleSplit then c.leaveSplit d else c

/-- The Flume carries again (R444, R613): WM-M is ACTIVE, or WM-H where WM-M does not run; the M-die's images are loaded if they never were. What
the H-die had for the stations reaches them (R451, R588). -/
def Chip.upAgain (c : Chip) : Chip :=
  let c := (c.synced .h).synced .m
  let c := match c.flag BOOT_STATUS_MDIE_MISSING, c.boot.tested with
    | true, some b => (c.takeRole .h roleActive).loadMdie b
    | _, _ =>
      if c.wmRuns .m then (c.takeRole .m roleActive).takeRole .h roleStandby else c.takeRole .h roleActive
  let c := if c.fld THH_STATUS_LEVEL = 3 then (List.range 8).foldl (fun c s => c.park s cauThermal) c else c
  c.throttled.fatalPark

/-- RETRAIN_DONE: with a working width the Flume carries, and what waited goes on; else it is down. -/
def Chip.retrained (c : Chip) (tx rx : BitVec 16) : Chip :=
  if !c.flag FLM_STATUS_RETRAINING then c else
  let was := c.flag FLM_STATUS_UP
  let width := c.fld FLM_STATUS_WIDTH
  let waiting := c.arch.mdieWait
  let c := (c.trained tx rx)
  let c : Chip := { c with arch := { c.arch with mdieWait := [] } }
  if c.flag FLM_STATUS_UP then
    let c := (c.inc FLM_RETRAINS_COUNT).mark FLM_EVENT_RETRAIN_DONE
    let c := if was ∧ c.fld FLM_STATUS_WIDTH < width then c.mark FLM_EVENT_LANE_DROPPED else c
    let c := if was then (c.judgePeer .h).judgePeer .m else c.upAgain
    waiting.foldl (fun c m => c.access m) c
  else
    let c := if was then (c.setFld FLM_STATUS_UP 1).goDown else c
    waiting.foldl (fun c m => c.lostAccess m) c

/-- RETRAIN_DONE. -/
def execRetrainDone (tx rx : BitVec 16) (s : State) : Out := s.on fun c => c.retrained tx rx

end Sys2Proof.Machine
end

