-- ==== Sys2Proof/Machine/Dispatch.lean ====
section
/-! DEFINITION. The dispatch: for every command the meaning that it has. -/

namespace Sys2Proof.Machine

def exec (i : Instr) (s : State) : Host.Outcome State Fault Refusal :=
  match i with
  | .registerWrite x1 x2 x3 x4 => Sys2Proof.Machine.execRegisterWrite x1 x2 x3 x4 s
  | .lowerHalfRead x1 x2 => Sys2Proof.Machine.execLowerHalfRead x1 x2 s
  | .lowerHalfWrite x1 x2 x3 => Sys2Proof.Machine.execLowerHalfWrite x1 x2 x3 s
  | .upperHalfWrite x1 x2 x3 => Sys2Proof.Machine.execUpperHalfWrite x1 x2 x3 s
  | .misalignedRead x1 x2 x3 => Sys2Proof.Machine.execMisalignedRead x1 x2 x3 s
  | .wpop x1 x2 x3 => Sys2Proof.Machine.execWpop x1 x2 x3 s
  | .wpeek x1 x2 x3 => Sys2Proof.Machine.execWpeek x1 x2 x3 s
  | .wdrop x1 x2 x3 => Sys2Proof.Machine.execWdrop x1 x2 x3 s
  | .wpush x1 x2 x3 => Sys2Proof.Machine.execWpush x1 x2 x3 s
  | .wcommit x1 x2 => Sys2Proof.Machine.execWcommit x1 x2 s
  | .wrewind x1 x2 x3 => Sys2Proof.Machine.execWrewind x1 x2 x3 s
  | .wcred x1 x2 x3 => Sys2Proof.Machine.execWcred x1 x2 x3 s
  | .weirStallResume x1 x2 => Sys2Proof.Machine.execWeirStallResume x1 x2 s
  | .flumeTransmit x1 => Sys2Proof.Machine.execFlumeTransmit x1 s
  | .credit x1 x2 x3 x4 x5 x6 => Sys2Proof.Machine.execCredit x1 x2 x3 x4 x5 x6 s
  | .heartbeat x1 x2 => Sys2Proof.Machine.execHeartbeat x1 x2 s
  | .pulseHeartbeat x1 x2 => Sys2Proof.Machine.execPulseHeartbeat x1 x2 s
  | .timeSync x1 x2 => Sys2Proof.Machine.execTimeSync x1 x2 s
  | .timeSyncSend => Sys2Proof.Machine.execTimeSyncSend s
  | .timeSyncTimeout => Sys2Proof.Machine.execTimeSyncTimeout s
  | .regReq x1 x2 x3 x4 x5 x6 => Sys2Proof.Machine.execRegReq x1 x2 x3 x4 x5 x6 s
  | .regRsp x1 x2 x3 => Sys2Proof.Machine.execRegRsp x1 x2 x3 s
  | .event x1 x2 x3 => Sys2Proof.Machine.execEvent x1 x2 x3 s
  | .writeData x1 => Sys2Proof.Machine.execWriteData x1 s
  | .blockHead x1 => Sys2Proof.Machine.execBlockHead x1 s
  | .blockData x1 => Sys2Proof.Machine.execBlockData x1 s
  | .laneLockLost x1 x2 => Sys2Proof.Machine.execLaneLockLost x1 x2 s
  | .retrain => Sys2Proof.Machine.execRetrain s
  | .retrainDone x1 x2 => Sys2Proof.Machine.execRetrainDone x1 x2 s
  | .downRetrainTimer => Sys2Proof.Machine.execDownRetrainTimer s
  | .linkLost => Sys2Proof.Machine.execLinkLost s
  | .loopTick x1 x2 x3 => Sys2Proof.Machine.execLoopTick x1 x2 x3 s
  | .motionTick x1 x2 x3 x4 => Sys2Proof.Machine.execMotionTick x1 x2 x3 x4 s
  | .servoValuesDelivered x1 x2 => Sys2Proof.Machine.execServoValuesDelivered x1 x2 s
  | .motionValuesDelivered x1 x2 => Sys2Proof.Machine.execMotionValuesDelivered x1 x2 s
  | .internalFault x1 => Sys2Proof.Machine.execInternalFault x1 s
  | .actuatorFrame x1 => Sys2Proof.Machine.execActuatorFrame x1 s
  | .agingMeasurement x1 x2 x3 => Sys2Proof.Machine.execAgingMeasurement x1 x2 x3 s
  | .afeSettingApply x1 => Sys2Proof.Machine.execAfeSettingApply x1 s
  | .spllUnlock => Sys2Proof.Machine.execSpllUnlock s
  | .spllLocked => Sys2Proof.Machine.execSpllLocked s
  | .spllResume => Sys2Proof.Machine.execSpllResume s
  | .spllFail => Sys2Proof.Machine.execSpllFail s
  | .relock => Sys2Proof.Machine.execRelock s
  | .thConversion x1 x2 => Sys2Proof.Machine.execThConversion x1 x2 s
  | .laneSlotStart x1 x2 => Sys2Proof.Machine.execLaneSlotStart x1 x2 s
  | .blockMark x1 x2 x3 => Sys2Proof.Machine.execBlockMark x1 x2 x3 s
  | .wobbleLock x1 => Sys2Proof.Machine.execWobbleLock x1 s
  | .wobbleLockLost x1 => Sys2Proof.Machine.execWobbleLockLost x1 s
  | .gaddrDecode x1 x2 => Sys2Proof.Machine.execGaddrDecode x1 x2 s
  | .loopSat x1 => Sys2Proof.Machine.execLoopSat x1 s
  | .timingLoopLoss x1 => Sys2Proof.Machine.execTimingLoopLoss x1 s
  | .analogGainStep x1 x2 => Sys2Proof.Machine.execAnalogGainStep x1 x2 s
  | .tagContextStart x1 => Sys2Proof.Machine.execTagContextStart x1 s
  | .tagContextEnd x1 x2 => Sys2Proof.Machine.execTagContextEnd x1 x2 s
  | .landingWindowEnd x1 => Sys2Proof.Machine.execLandingWindowEnd x1 s
  | .defectOnset x1 x2 => Sys2Proof.Machine.execDefectOnset x1 x2 s
  | .defectEnd x1 x2 x3 => Sys2Proof.Machine.execDefectEnd x1 x2 x3 s
  | .holdRelease x1 => Sys2Proof.Machine.execHoldRelease x1 s
  | .longDefect x1 => Sys2Proof.Machine.execLongDefect x1 s
  | .blankDecision x1 x2 => Sys2Proof.Machine.execBlankDecision x1 x2 s
  | .spanConfirm x1 x2 => Sys2Proof.Machine.execSpanConfirm x1 x2 s
  | .xtiTimeout x1 x2 => Sys2Proof.Machine.execXtiTimeout x1 x2 s
  | .snapshotLatch x1 => Sys2Proof.Machine.execSnapshotLatch x1 s
  | .laneItemCommit x1 => Sys2Proof.Machine.execLaneItemCommit x1 s
  | .iterationDetectDone x1 => Sys2Proof.Machine.execIterationDetectDone x1 s
  | .acquisitionCheck x1 => Sys2Proof.Machine.execAcquisitionCheck x1 s
  | .framerPop x1 => Sys2Proof.Machine.execFramerPop x1 s
  | .syncCandidate x1 x2 => Sys2Proof.Machine.execSyncCandidate x1 x2 s
  | .searchWindowEnd x1 => Sys2Proof.Machine.execSearchWindowEnd x1 s
  | .tagDecodeStep x1 => Sys2Proof.Machine.execTagDecodeStep x1 s
  | .frameConfirm x1 => Sys2Proof.Machine.execFrameConfirm x1 s
  | .resync x1 => Sys2Proof.Machine.execResync x1 s
  | .framerCommit x1 => Sys2Proof.Machine.execFramerCommit x1 s
  | .ldpcDecodeStart x1 => Sys2Proof.Machine.execLdpcDecodeStart x1 s
  | .ldpcDecodeDone x1 => Sys2Proof.Machine.execLdpcDecodeDone x1 s
  | .outerDecode x1 x2 x3 => Sys2Proof.Machine.execOuterDecode x1 x2 x3 s
  | .retryAttempt x1 => Sys2Proof.Machine.execRetryAttempt x1 s
  | .passStart x1 => Sys2Proof.Machine.execPassStart x1 s
  | .passSlot x1 => Sys2Proof.Machine.execPassSlot x1 s
  | .underrun x1 => Sys2Proof.Machine.execUnderrun x1 s
  | .stopPass x1 => Sys2Proof.Machine.execStopPass x1 s
  | .passComplete x1 => Sys2Proof.Machine.execPassComplete x1 s
  | .verifyResult x1 x2 => Sys2Proof.Machine.execVerifyResult x1 x2 s
  | .paritySweep x1 x2 x3 x4 x5 => Sys2Proof.Machine.execParitySweep x1 x2 x3 x4 x5 s
  | .survey x1 x2 x3 x4 => Sys2Proof.Machine.execSurvey x1 x2 x3 x4 s
  | .tNop x1 => Sys2Proof.Machine.execTNop x1 s
  | .tMov x1 x2 x3 => Sys2Proof.Machine.execTMov x1 x2 x3 s
  | .tLih x1 x2 x3 => Sys2Proof.Machine.execTLih x1 x2 x3 s
  | .tLil x1 x2 x3 => Sys2Proof.Machine.execTLil x1 x2 x3 s
  | .tLdk x1 x2 x3 => Sys2Proof.Machine.execTLdk x1 x2 x3 s
  | .tLd x1 x2 x3 => Sys2Proof.Machine.execTLd x1 x2 x3 s
  | .tSt x1 x2 x3 => Sys2Proof.Machine.execTSt x1 x2 x3 s
  | .tLdx x1 x2 x3 x4 => Sys2Proof.Machine.execTLdx x1 x2 x3 x4 s
  | .tStx x1 x2 x3 x4 => Sys2Proof.Machine.execTStx x1 x2 x3 x4 s
  | .tIn x1 x2 x3 => Sys2Proof.Machine.execTIn x1 x2 x3 s
  | .tOut x1 x2 x3 => Sys2Proof.Machine.execTOut x1 x2 x3 s
  | .tAdd x1 x2 x3 x4 => Sys2Proof.Machine.execTAdd x1 x2 x3 x4 s
  | .tSub x1 x2 x3 x4 => Sys2Proof.Machine.execTSub x1 x2 x3 x4 s
  | .tMul x1 x2 x3 x4 => Sys2Proof.Machine.execTMul x1 x2 x3 x4 s
  | .tMulk x1 x2 x3 x4 => Sys2Proof.Machine.execTMulk x1 x2 x3 x4 s
  | .tNeg x1 x2 x3 => Sys2Proof.Machine.execTNeg x1 x2 x3 s
  | .tAbs x1 x2 x3 => Sys2Proof.Machine.execTAbs x1 x2 x3 s
  | .tMin x1 x2 x3 x4 => Sys2Proof.Machine.execTMin x1 x2 x3 x4 s
  | .tMax x1 x2 x3 x4 => Sys2Proof.Machine.execTMax x1 x2 x3 x4 s
  | .tClamp x1 x2 x3 x4 => Sys2Proof.Machine.execTClamp x1 x2 x3 x4 s
  | .tShl x1 x2 x3 x4 => Sys2Proof.Machine.execTShl x1 x2 x3 x4 s
  | .tShr x1 x2 x3 x4 => Sys2Proof.Machine.execTShr x1 x2 x3 x4 s
  | .tDiv x1 x2 x3 x4 => Sys2Proof.Machine.execTDiv x1 x2 x3 x4 s
  | .tSqrt x1 x2 x3 => Sys2Proof.Machine.execTSqrt x1 x2 x3 s
  | .tAnd x1 x2 x3 x4 => Sys2Proof.Machine.execTAnd x1 x2 x3 x4 s
  | .tOr x1 x2 x3 x4 => Sys2Proof.Machine.execTOr x1 x2 x3 x4 s
  | .tXor x1 x2 x3 x4 => Sys2Proof.Machine.execTXor x1 x2 x3 x4 s
  | .tSrl x1 x2 x3 x4 => Sys2Proof.Machine.execTSrl x1 x2 x3 x4 s
  | .tSll x1 x2 x3 x4 => Sys2Proof.Machine.execTSll x1 x2 x3 x4 s
  | .tAddw x1 x2 x3 x4 => Sys2Proof.Machine.execTAddw x1 x2 x3 x4 s
  | .tClr x1 x2 => Sys2Proof.Machine.execTClr x1 x2 s
  | .tLda x1 x2 x3 => Sys2Proof.Machine.execTLda x1 x2 x3 s
  | .tMac x1 x2 x3 x4 => Sys2Proof.Machine.execTMac x1 x2 x3 x4 s
  | .tMacv x1 x2 x3 x4 => Sys2Proof.Machine.execTMacv x1 x2 x3 x4 s
  | .tMsu x1 x2 x3 x4 => Sys2Proof.Machine.execTMsu x1 x2 x3 x4 s
  | .tAdda x1 x2 x3 => Sys2Proof.Machine.execTAdda x1 x2 x3 s
  | .tRnd x1 x2 x3 => Sys2Proof.Machine.execTRnd x1 x2 x3 s
  | .tInt x1 x2 x3 x4 => Sys2Proof.Machine.execTInt x1 x2 x3 x4 s
  | .tLim x1 x2 x3 x4 x5 => Sys2Proof.Machine.execTLim x1 x2 x3 x4 x5 s
  | .tBr x1 x2 => Sys2Proof.Machine.execTBr x1 x2 s
  | .tBeq x1 x2 x3 x4 => Sys2Proof.Machine.execTBeq x1 x2 x3 x4 s
  | .tBne x1 x2 x3 x4 => Sys2Proof.Machine.execTBne x1 x2 x3 x4 s
  | .tBlt x1 x2 x3 x4 => Sys2Proof.Machine.execTBlt x1 x2 x3 x4 s
  | .tBge x1 x2 x3 x4 => Sys2Proof.Machine.execTBge x1 x2 x3 x4 s
  | .tBbs x1 x2 x3 x4 => Sys2Proof.Machine.execTBbs x1 x2 x3 x4 s
  | .tBbc x1 x2 x3 x4 => Sys2Proof.Machine.execTBbc x1 x2 x3 x4 s
  | .tLoop x1 x2 x3 => Sys2Proof.Machine.execTLoop x1 x2 x3 s
  | .tCall x1 x2 => Sys2Proof.Machine.execTCall x1 x2 s
  | .tRet x1 => Sys2Proof.Machine.execTRet x1 s
  | .tEnd x1 => Sys2Proof.Machine.execTEnd x1 s
  | .leCmd x1 x2 => Sys2Proof.Machine.execLeCmd x1 x2 s
  | .leParamWrite x1 x2 x3 => Sys2Proof.Machine.execLeParamWrite x1 x2 x3 s
  | .leMemDataRead x1 x2 => Sys2Proof.Machine.execLeMemDataRead x1 x2 s
  | .loopNone x1 => Sys2Proof.Machine.execLoopNone x1 s
  | .sweep x1 => Sys2Proof.Machine.execSweep x1 s
  | .focus x1 x2 => Sys2Proof.Machine.execFocus x1 x2 s
  | .pullIn x1 => Sys2Proof.Machine.execPullIn x1 s
  | .jump x1 x2 => Sys2Proof.Machine.execJump x1 x2 s
  | .layerJump x1 x2 => Sys2Proof.Machine.execLayerJump x1 x2 s
  | .holdTracking x1 => Sys2Proof.Machine.execHoldTracking x1 s
  | .retract x1 x2 => Sys2Proof.Machine.execRetract x1 x2 s
  | .retryOffset x1 x2 => Sys2Proof.Machine.execRetryOffset x1 x2 s
  | .setLayer x1 x2 => Sys2Proof.Machine.execSetLayer x1 x2 s
  | .calLevel x1 x2 x3 => Sys2Proof.Machine.execCalLevel x1 x2 x3 s
  | .calGainF x1 x2 x3 => Sys2Proof.Machine.execCalGainF x1 x2 x3 s
  | .calGainT x1 x2 x3 => Sys2Proof.Machine.execCalGainT x1 x2 x3 s
  | .calTsens x1 x2 x3 => Sys2Proof.Machine.execCalTsens x1 x2 x3 s
  | .calTrim x1 x2 x3 => Sys2Proof.Machine.execCalTrim x1 x2 x3 s
  | .calCommandDone x1 x2 x3 => Sys2Proof.Machine.execCalCommandDone x1 x2 x3 s
  | .sweepEnd x1 => Sys2Proof.Machine.execSweepEnd x1 s
  | .focusCapture x1 => Sys2Proof.Machine.execFocusCapture x1 s
  | .focusLock x1 => Sys2Proof.Machine.execFocusLock x1 s
  | .focusLost x1 => Sys2Proof.Machine.execFocusLost x1 s
  | .trackingLock x1 => Sys2Proof.Machine.execTrackingLock x1 s
  | .trackLost x1 => Sys2Proof.Machine.execTrackLost x1 s
  | .loopCommandTimeout x1 => Sys2Proof.Machine.execLoopCommandTimeout x1 s
  | .jumpBrake x1 => Sys2Proof.Machine.execJumpBrake x1 s
  | .layerStepPhase x1 => Sys2Proof.Machine.execLayerStepPhase x1 s
  | .retractReached x1 => Sys2Proof.Machine.execRetractReached x1 s
  | .positionCheck x1 x2 => Sys2Proof.Machine.execPositionCheck x1 x2 s
  | .slip x1 => Sys2Proof.Machine.execSlip x1 s
  | .seek x1 x2 x3 x4 => Sys2Proof.Machine.execSeek x1 x2 x3 x4 s
  | .stationRequest x1 => Sys2Proof.Machine.execStationRequest x1 s
  | .discPresentChange x1 x2 => Sys2Proof.Machine.execDiscPresentChange x1 x2 s
  | .clampSettled x1 => Sys2Proof.Machine.execClampSettled x1 s
  | .clampReq x1 x2 => Sys2Proof.Machine.execClampReq x1 x2 s
  | .lpPark x1 => Sys2Proof.Machine.execLpPark x1 s
  | .hostPark x1 => Sys2Proof.Machine.execHostPark x1 s
  | .parkRetractDone x1 x2 => Sys2Proof.Machine.execParkRetractDone x1 x2 s
  | .parkStopDone x1 => Sys2Proof.Machine.execParkStopDone x1 s
  | .qualifyStepDone x1 x2 => Sys2Proof.Machine.execQualifyStepDone x1 x2 s
  | .loopEscalation x1 => Sys2Proof.Machine.execLoopEscalation x1 s
  | .motionEscalation x1 => Sys2Proof.Machine.execMotionEscalation x1 s
  | .motionNone x1 => Sys2Proof.Machine.execMotionNone x1 s
  | .spin x1 x2 => Sys2Proof.Machine.execSpin x1 x2 s
  | .brake x1 => Sys2Proof.Machine.execBrake x1 s
  | .coast x1 => Sys2Proof.Machine.execCoast x1 s
  | .homeAxes x1 x2 => Sys2Proof.Machine.execHomeAxes x1 x2 s
  | .follow x1 x2 => Sys2Proof.Machine.execFollow x1 x2 s
  | .sledOff x1 x2 => Sys2Proof.Machine.execSledOff x1 x2 s
  | .spinMeasureEnd x1 x2 x3 => Sys2Proof.Machine.execSpinMeasureEnd x1 x2 x3 s
  | .alignEnd x1 => Sys2Proof.Machine.execAlignEnd x1 s
  | .observerLock x1 => Sys2Proof.Machine.execObserverLock x1 s
  | .obsLost x1 => Sys2Proof.Machine.execObsLost x1 s
  | .startRetry x1 => Sys2Proof.Machine.execStartRetry x1 s
  | .atSpeed x1 => Sys2Proof.Machine.execAtSpeed x1 s
  | .atSpeedLost x1 => Sys2Proof.Machine.execAtSpeedLost x1 s
  | .catchWindowEnd x1 => Sys2Proof.Machine.execCatchWindowEnd x1 s
  | .tachCrossing x1 x2 x3 => Sys2Proof.Machine.execTachCrossing x1 x2 x3 s
  | .tachTimeout x1 => Sys2Proof.Machine.execTachTimeout x1 s
  | .shortBrakeApply x1 => Sys2Proof.Machine.execShortBrakeApply x1 s
  | .spnBrakeRequest x1 => Sys2Proof.Machine.execSpnBrakeRequest x1 s
  | .spindleDriverFault x1 x2 => Sys2Proof.Machine.execSpindleDriverFault x1 x2 s
  | .sledBridgeFault x1 x2 => Sys2Proof.Machine.execSledBridgeFault x1 x2 s
  | .limitSwitchChange x1 x2 x3 => Sys2Proof.Machine.execLimitSwitchChange x1 x2 x3 s
  | .chopperDrive x1 x2 x3 x4 x5 x6 => Sys2Proof.Machine.execChopperDrive x1 x2 x3 x4 x5 x6 s
  | .chopperDecay x1 x2 x3 x4 => Sys2Proof.Machine.execChopperDecay x1 x2 x3 x4 s
  | .ilimCut x1 x2 x3 x4 => Sys2Proof.Machine.execIlimCut x1 x2 x3 x4 s
  | .speedChange x1 => Sys2Proof.Machine.execSpeedChange x1 s
  | .stateCopyDone x1 => Sys2Proof.Machine.execStateCopyDone x1 s
  | .engineTestDone x1 x2 => Sys2Proof.Machine.execEngineTestDone x1 x2 s
  | .retest x1 => Sys2Proof.Machine.execRetest x1 s
  | .swapDue x1 => Sys2Proof.Machine.execSwapDue x1 s
  | .swapSkipped x1 => Sys2Proof.Machine.execSwapSkipped x1 s
  | .pairSwapNow x1 => Sys2Proof.Machine.execPairSwapNow x1 s
  | .journalAck => Sys2Proof.Machine.execJournalAck s
  | .journalAckTimeout => Sys2Proof.Machine.execJournalAckTimeout s
  | .wmHeartbeatSend x1 => Sys2Proof.Machine.execWmHeartbeatSend x1 s
  | .peerHeartbeatMissing x1 x2 => Sys2Proof.Machine.execPeerHeartbeatMissing x1 x2 s
  | .wmRestoreDone x1 x2 => Sys2Proof.Machine.execWmRestoreDone x1 x2 s
  | .wmRoleSwap => Sys2Proof.Machine.execWmRoleSwap s
  | .wmSwapNow => Sys2Proof.Machine.execWmSwapNow s
  | .watchdogFeed x1 x2 => Sys2Proof.Machine.execWatchdogFeed x1 x2 s
  | .watchdogExpiry x1 => Sys2Proof.Machine.execWatchdogExpiry x1 s
  | .psStationStopped x1 => Sys2Proof.Machine.execPsStationStopped x1 s
  | .coreHeartbeat x1 => Sys2Proof.Machine.execCoreHeartbeat x1 s
  | .coreSilent x1 => Sys2Proof.Machine.execCoreSilent x1 s
  | .coreTestDone x1 x2 => Sys2Proof.Machine.execCoreTestDone x1 x2 s
  | .csFailure x1 => Sys2Proof.Machine.execCsFailure x1 s
  | .csRestartDone x1 => Sys2Proof.Machine.execCsRestartDone x1 s
  | .capsuleSlotWrite x1 x2 x3 x4 x5 x6 => Sys2Proof.Machine.execCapsuleSlotWrite x1 x2 x3 x4 x5 x6 s
  | .capsuleCommit x1 x2 x3 x4 => Sys2Proof.Machine.execCapsuleCommit x1 x2 x3 x4 s
  | .resume x1 x2 x3 x4 => Sys2Proof.Machine.execResume x1 x2 x3 x4 s
  | .ringHead x1 x2 x3 => Sys2Proof.Machine.execRingHead x1 x2 x3 s
  | .dataCapsule x1 x2 x3 x4 x5 => Sys2Proof.Machine.execDataCapsule x1 x2 x3 x4 x5 s
  | .sluiceTake x1 => Sys2Proof.Machine.execSluiceTake x1 s
  | .grantPost x1 x2 => Sys2Proof.Machine.execGrantPost x1 x2 s
  | .ringRecordWrite x1 x2 => Sys2Proof.Machine.execRingRecordWrite x1 x2 s
  | .msixTimer x1 => Sys2Proof.Machine.execMsixTimer x1 s
  | .sluiceEnable x1 => Sys2Proof.Machine.execSluiceEnable x1 s
  | .hostRead x1 x2 => Sys2Proof.Machine.execHostRead x1 x2 s
  | .hostWrite x1 x2 => Sys2Proof.Machine.execHostWrite x1 x2 s
  | .hostFlush x1 x2 => Sys2Proof.Machine.execHostFlush x1 x2 s
  | .hostVerify x1 x2 => Sys2Proof.Machine.execHostVerify x1 x2 s
  | .hostPrefetch x1 x2 => Sys2Proof.Machine.execHostPrefetch x1 x2 s
  | .mount x1 x2 => Sys2Proof.Machine.execMount x1 x2 s
  | .unmount x1 x2 => Sys2Proof.Machine.execUnmount x1 x2 s
  | .closeVolume x1 x2 => Sys2Proof.Machine.execCloseVolume x1 x2 s
  | .abort x1 x2 => Sys2Proof.Machine.execAbort x1 x2 s
  | .qreset x1 x2 => Sys2Proof.Machine.execQreset x1 x2 s
  | .qcreateRing x1 x2 => Sys2Proof.Machine.execQcreateRing x1 x2 s
  | .qcreateQueue x1 x2 => Sys2Proof.Machine.execQcreateQueue x1 x2 s
  | .qdelete x1 x2 => Sys2Proof.Machine.execQdelete x1 x2 s
  | .getDeviceLog x1 x2 => Sys2Proof.Machine.execGetDeviceLog x1 x2 s
  | .getIdentity x1 x2 => Sys2Proof.Machine.execGetIdentity x1 x2 s
  | .getDefectList x1 x2 => Sys2Proof.Machine.execGetDefectList x1 x2 s
  | .getVolumeState x1 x2 => Sys2Proof.Machine.execGetVolumeState x1 x2 s
  | .featureReadAhead x1 x2 => Sys2Proof.Machine.execFeatureReadAhead x1 x2 s
  | .featureRescue x1 x2 => Sys2Proof.Machine.execFeatureRescue x1 x2 s
  | .featureLearn x1 x2 => Sys2Proof.Machine.execFeatureLearn x1 x2 s
  | .featureStationEvents x1 x2 => Sys2Proof.Machine.execFeatureStationEvents x1 x2 s
  | .programStage x1 x2 => Sys2Proof.Machine.execProgramStage x1 x2 s
  | .activate x1 x2 => Sys2Proof.Machine.execActivate x1 x2 s
  | .cacheDisable x1 x2 => Sys2Proof.Machine.execCacheDisable x1 x2 s
  | .cacheEnable x1 x2 => Sys2Proof.Machine.execCacheEnable x1 x2 s
  | .scrub x1 x2 => Sys2Proof.Machine.execScrub x1 x2 s
  | .calibrate x1 x2 => Sys2Proof.Machine.execCalibrate x1 x2 s
  | .stationPark x1 x2 => Sys2Proof.Machine.execStationPark x1 x2 s
  | .stationClamp x1 x2 => Sys2Proof.Machine.execStationClamp x1 x2 s
  | .stationUnclamp x1 x2 => Sys2Proof.Machine.execStationUnclamp x1 x2 s
  | .quietOn x1 x2 => Sys2Proof.Machine.execQuietOn x1 x2 s
  | .quietOff x1 x2 => Sys2Proof.Machine.execQuietOff x1 x2 s
  | .stationReset x1 x2 => Sys2Proof.Machine.execStationReset x1 x2 s
  | .portReset x1 x2 => Sys2Proof.Machine.execPortReset x1 x2 s
  | .cisternSpill => Sys2Proof.Machine.execCisternSpill s
  | .cisternRecall x1 => Sys2Proof.Machine.execCisternRecall x1 s
  | .dirtyWriteback x1 => Sys2Proof.Machine.execDirtyWriteback x1 s
  | .evictionWritebackDone x1 => Sys2Proof.Machine.execEvictionWritebackDone x1 s
  | .missFill x1 x2 => Sys2Proof.Machine.execMissFill x1 x2 s
  | .parityScan x1 x2 => Sys2Proof.Machine.execParityScan x1 x2 s
  | .blockArrival => Sys2Proof.Machine.execBlockArrival s
  | .bufFillStale x1 x2 => Sys2Proof.Machine.execBufFillStale x1 x2 s
  | .drainStart x1 => Sys2Proof.Machine.execDrainStart x1 s
  | .scrubGo => Sys2Proof.Machine.execScrubGo s
  | .scrubDone x1 => Sys2Proof.Machine.execScrubDone x1 s
  | .injectArm => Sys2Proof.Machine.execInjectArm s
  | .logEntry => Sys2Proof.Machine.execLogEntry s
  | .engineMemoryAccess x1 x2 x3 x4 x5 x6 => Sys2Proof.Machine.execEngineMemoryAccess x1 x2 x3 x4 x5 x6 s
  | .configurationRequest x1 x2 x3 x4 => Sys2Proof.Machine.execConfigurationRequest x1 x2 x3 x4 s
  | .farm x1 x2 x3 x4 => Sys2Proof.Machine.execFarm x1 x2 x3 x4 s
  | .fdisarm x1 x2 x3 x4 => Sys2Proof.Machine.execFdisarm x1 x2 x3 x4 s
  | .fzload x1 x2 x3 x4 => Sys2Proof.Machine.execFzload x1 x2 x3 x4 s
  | .fzloadComplete x1 => Sys2Proof.Machine.execFzloadComplete x1 s
  | .fpass x1 x2 x3 x4 => Sys2Proof.Machine.execFpass x1 x2 x3 x4 s
  | .fwaitev x1 x2 x3 x4 => Sys2Proof.Machine.execFwaitev x1 x2 x3 x4 s
  | .fwaitevReturn x1 => Sys2Proof.Machine.execFwaitevReturn x1 s
  | .warmReset x1 => Sys2Proof.Machine.execWarmReset x1 s
  | .bootReset x1 x2 x3 => Sys2Proof.Machine.execBootReset x1 x2 x3 s
  | .powerOnReset x1 => Sys2Proof.Machine.execPowerOnReset x1 s
  | .loadChunk x1 => Sys2Proof.Machine.execLoadChunk x1 s
  | .loadEnd x1 => Sys2Proof.Machine.execLoadEnd x1 s
  | .bootGo x1 => Sys2Proof.Machine.execBootGo x1 s
  | .writeConfig => Sys2Proof.Machine.execWriteConfig s
  | .fuseProgram => Sys2Proof.Machine.execFuseProgram s
  | .persist x1 => Sys2Proof.Machine.execPersist x1 s
  | .calCycleStart x1 => Sys2Proof.Machine.execCalCycleStart x1 s
  | .calCycleDone x1 x2 => Sys2Proof.Machine.execCalCycleDone x1 x2 s
  | .pllTuneCheck x1 => Sys2Proof.Machine.execPllTuneCheck x1 s
  | .pllBandStep => Sys2Proof.Machine.execPllBandStep s
  | .pllCal => Sys2Proof.Machine.execPllCal s
  | .refCal x1 x2 => Sys2Proof.Machine.execRefCal x1 x2 s
  | .sensorEvaluation x1 x2 => Sys2Proof.Machine.execSensorEvaluation x1 x2 s
  | .stuckCheck x1 x2 x3 => Sys2Proof.Machine.execStuckCheck x1 x2 x3 s
  | .throttleHoldEnd x1 => Sys2Proof.Machine.execThrottleHoldEnd x1 s
  | .lpRead x1 x2 => Sys2Proof.Machine.execLpRead x1 x2 s
  | .lpWrite x1 x2 => Sys2Proof.Machine.execLpWrite x1 x2 s
  | .extest => Sys2Proof.Machine.execExtest s
  | .samplePreload x1 => Sys2Proof.Machine.execSamplePreload x1 s
  | .idcode => Sys2Proof.Machine.execIdcode s
  | .highz => Sys2Proof.Machine.execHighz s
  | .bscanClamp => Sys2Proof.Machine.execBscanClamp s
  | .extestPulse => Sys2Proof.Machine.execExtestPulse s
  | .extestTrain => Sys2Proof.Machine.execExtestTrain s
  | .bypass => Sys2Proof.Machine.execBypass s
  | .tapReset => Sys2Proof.Machine.execTapReset s
  | .porNActive => Sys2Proof.Machine.execPorNActive s
  | .replayRequest x1 x2 => Sys2Proof.Machine.execReplayRequest x1 x2 s
  | .pwmCycle x1 => Sys2Proof.Machine.execPwmCycle x1 s
  | .mixedDecayBrake x1 x2 => Sys2Proof.Machine.execMixedDecayBrake x1 x2 s
  | .pllBandMeasured x1 x2 => Sys2Proof.Machine.execPllBandMeasured x1 x2 s
  | .flashWriteDone x1 => Sys2Proof.Machine.execFlashWriteDone x1 s
  | .sledCentringUpdate x1 => Sys2Proof.Machine.execSledCentringUpdate x1 s

end Sys2Proof.Machine
end

