-- ==== Sys2Proof/Machine/TolekCode.lean ====
section
/-! DEFINITION. The Tolek instructions and their words, both ways (R312, Tables 7.6 and 7.8): the word that an instruction's meaning asks for at the
engine's program counter, and the instruction that a word is. -/

namespace Sys2Proof.Machine

/-- The engine and the word of a Tolek instruction; nothing for the other commands. -/
def tolekWord (i : Instr) : Option (TolekEngine × Q) :=
  match i with
  | .tNop e => some (e, tWord 0x00 0)
  | .tMov e d s => some (e, tWord 0x01 (fmtVVV d s 0))
  | .tLih e d imm => some (e, tWord 0x02 (fmtIM d imm.toNat))
  | .tLil e d imm => some (e, tWord 0x03 (fmtIM d imm.toNat))
  | .tLdk e d k => some (e, tWord 0x04 (fmtVK d 0 k))
  | .tLd e d addr => some (e, tWord 0x05 (fmtMM d 0 addr.toNat))
  | .tSt e d addr => some (e, tWord 0x06 (fmtMM d 0 addr.toNat))
  | .tLdx e d x addr => some (e, tWord 0x07 (fmtMM d x addr.toNat))
  | .tStx e d x addr => some (e, tWord 0x08 (fmtMM d x addr.toNat))
  | .tIn e d port => some (e, tWord 0x09 (fmtPT d port.toNat))
  | .tOut e d port => some (e, tWord 0x0A (fmtPT d port.toNat))
  | .tAdd e d s t => some (e, tWord 0x10 (fmtVVV d s t))
  | .tSub e d s t => some (e, tWord 0x11 (fmtVVV d s t))
  | .tMul e d s t => some (e, tWord 0x12 (fmtVVV d s t))
  | .tMulk e d s k => some (e, tWord 0x13 (fmtVK d s k))
  | .tNeg e d s => some (e, tWord 0x14 (fmtVVV d s 0))
  | .tAbs e d s => some (e, tWord 0x15 (fmtVVV d s 0))
  | .tMin e d s t => some (e, tWord 0x16 (fmtVVV d s t))
  | .tMax e d s t => some (e, tWord 0x17 (fmtVVV d s t))
  | .tClamp e d s t => some (e, tWord 0x18 (fmtVVV d s t))
  | .tShl e d s n => some (e, tWord 0x19 (fmtSH d s n))
  | .tShr e d s n => some (e, tWord 0x1A (fmtSH d s n))
  | .tDiv e d s t => some (e, tWord 0x1B (fmtVVV d s t))
  | .tSqrt e d s => some (e, tWord 0x1C (fmtVVV d s 0))
  | .tAnd e d s t => some (e, tWord 0x20 (fmtVVV d s t))
  | .tOr e d s t => some (e, tWord 0x21 (fmtVVV d s t))
  | .tXor e d s t => some (e, tWord 0x22 (fmtVVV d s t))
  | .tSrl e d s n => some (e, tWord 0x23 (fmtSH d s n))
  | .tSll e d s n => some (e, tWord 0x24 (fmtSH d s n))
  | .tAddw e d s t => some (e, tWord 0x25 (fmtVVV d s t))
  | .tClr e a => some (e, tWord 0x28 (fmtAC a 0 0 0 0))
  | .tLda e a s => some (e, tWord 0x29 (fmtAC a 0 s 0 0))
  | .tMac e a s k => some (e, tWord 0x2A (fmtAC a 0 s 0 k))
  | .tMacv e a s t => some (e, tWord 0x2B (fmtAC a 0 s t 0))
  | .tMsu e a s k => some (e, tWord 0x2C (fmtAC a 0 s 0 k))
  | .tAdda e a b => some (e, tWord 0x2D (fmtAC a b 0 0 0))
  | .tRnd e d a => some (e, tWord 0x2E (fmtAC a 0 d 0 0))
  | .tInt e a s k => some (e, tWord 0x2F (fmtAC a 0 s 0 k))
  | .tLim e d s k a => some (e, tWord 0x30 (fmtVKA d s k a))
  | .tBr e target => some (e, tWord 0x34 (fmtJ target.toNat))
  | .tBeq e s t target => some (e, tWord 0x35 (fmtBR s t 0 target.toNat))
  | .tBne e s t target => some (e, tWord 0x36 (fmtBR s t 0 target.toNat))
  | .tBlt e s t target => some (e, tWord 0x37 (fmtBR s t 0 target.toNat))
  | .tBge e s t target => some (e, tWord 0x38 (fmtBR s t 0 target.toNat))
  | .tBbs e s bit target => some (e, tWord 0x39 (fmtBR s 0 bit target.toNat))
  | .tBbc e s bit target => some (e, tWord 0x3A (fmtBR s 0 bit target.toNat))
  | .tLoop e count last => some (e, tWord 0x3B (fmtLP count.toNat last.toNat))
  | .tCall e target => some (e, tWord 0x3C (fmtJ target.toNat))
  | .tRet e => some (e, tWord 0x3D 0)
  | .tEnd e => some (e, tWord 0x3E 0)
  | _ => none

/-- Fields of a word that name a value register, an accumulator, a coefficient, a bit or a shift; immediates, addresses and targets. -/
def tReg (w : Q) (lo : Nat) : VReg := (w.extractLsb' lo 4).toFin
def tAccum (w : Q) (lo : Nat) : Acc := (w.extractLsb' lo 2).toFin
def tFive (w : Q) (lo : Nat) : Fin 32 := (w.extractLsb' lo 5).toFin

/-- The instruction that a legal word is, for engine `e`; nothing for an illegal word. -/
def tolekInstr (e : TolekEngine) (w : Q) : Option Instr :=
  let d := tReg w 22
  let s := tReg w 18
  let t := tReg w 14
  let k := tFive w 13
  let n := tFive w 0
  let imm := w.extractLsb' 0 16
  let addr := w.extractLsb' 0 11
  let port := w.extractLsb' 0 6
  let a := tAccum w 24
  let g := tFive w 9
  let target := w.extractLsb' 0 12
  if !tLegal w then none else
  match (w.extractLsb' 26 6).toNat with
  | 0x00 => some (.tNop e)
  | 0x01 => some (.tMov e d s)
  | 0x02 => some (.tLih e d imm)
  | 0x03 => some (.tLil e d imm)
  | 0x04 => some (.tLdk e d k)
  | 0x05 => some (.tLd e d addr)
  | 0x06 => some (.tSt e d addr)
  | 0x07 => some (.tLdx e d s addr)
  | 0x08 => some (.tStx e d s addr)
  | 0x09 => some (.tIn e d port)
  | 0x0A => some (.tOut e d port)
  | 0x10 => some (.tAdd e d s t)
  | 0x11 => some (.tSub e d s t)
  | 0x12 => some (.tMul e d s t)
  | 0x13 => some (.tMulk e d s k)
  | 0x14 => some (.tNeg e d s)
  | 0x15 => some (.tAbs e d s)
  | 0x16 => some (.tMin e d s t)
  | 0x17 => some (.tMax e d s t)
  | 0x18 => some (.tClamp e d s t)
  | 0x19 => some (.tShl e d s n)
  | 0x1A => some (.tShr e d s n)
  | 0x1B => some (.tDiv e d s t)
  | 0x1C => some (.tSqrt e d s)
  | 0x20 => some (.tAnd e d s t)
  | 0x21 => some (.tOr e d s t)
  | 0x22 => some (.tXor e d s t)
  | 0x23 => some (.tSrl e d s n)
  | 0x24 => some (.tSll e d s n)
  | 0x25 => some (.tAddw e d s t)
  | 0x28 => some (.tClr e a)
  | 0x29 => some (.tLda e a s)
  | 0x2A => some (.tMac e a s g)
  | 0x2B => some (.tMacv e a s t)
  | 0x2C => some (.tMsu e a s g)
  | 0x2D => some (.tAdda e a (tAccum w 22))
  | 0x2E => some (.tRnd e s a)
  | 0x2F => some (.tInt e a s g)
  | 0x30 => some (.tLim e d s k (tAccum w 11))
  | 0x34 => some (.tBr e target)
  | 0x35 => some (.tBeq e d s target)
  | 0x36 => some (.tBne e d s target)
  | 0x37 => some (.tBlt e d s target)
  | 0x38 => some (.tBge e d s target)
  | 0x39 => some (.tBbs e d k target)
  | 0x3A => some (.tBbc e d k target)
  | 0x3B => some (.tLoop e (w.extractLsb' 18 8) target)
  | 0x3C => some (.tCall e target)
  | 0x3D => some (.tRet e)
  | 0x3E => some (.tEnd e)
  | _ => none

end Sys2Proof.Machine
end

