-- ==== Sys2Proof/WellFormed.lean ====
section
/-! DEFINITION. Well-formed commands: the operands are operands of the row, with the lengths and ranges that the rules fix. Whatever else an
operand may be, its type already says. -/

namespace Sys2Proof

/-- The operands have the lengths and lie in the ranges that the rules fix: samples of a loop period (R133, R374, R128), of a slot (R90, R166), of a
span (R155), lane decisions (R254), boundary cells (R659), slots and clusters (R77, R103), bytes of an access (R502) and of a capsule (R474). Every other
command takes whatever its operands' types hold. -/
def Instr.wf : Instr → Bool
  | .loopTick _ _ beams => beams.length == 8 && beams.all (fun b => decide (b.level ≤ 16384 ∧ b.clips ≤ 15000))
  | .servoValuesDelivered _ window => window.length == 125
  | .motionValuesDelivered _ v => [v.vbus, v.iua, v.iub, v.ila, v.ilb].all (fun n => decide (n ≤ 50 * 4095))
  | .agingMeasurement _ _ margin => decide (-1024 ≤ margin ∧ margin < 1024)
  | .laneSlotStart _ slot => decide (slot ≤ Machine.lastSlot)
  | .gaddrDecode _ sums => sums.length == 56
  | .defectOnset _ off => decide (off < 57344)
  | .defectEnd _ off deep => decide (off < 57344) && deep.all (fun r => decide (r.1 ≤ r.2 ∧ r.2 ≤ 57344))
  | .blankDecision _ darkBits => decide (darkBits ≤ 848)
  | .spanConfirm _ x => Machine.spanOk x
  | .xtiTimeout _ x => Machine.spanOk x
  | .outerDecode _ _ cluster => decide (cluster < 244160)
  | .verifyResult _ v => v.dec.length == 57352
  | .paritySweep _ _ _ cluster clusters => decide (0 < clusters ∧ cluster + clusters ≤ 244160 ∧ cluster / 3815 = (cluster + clusters - 1) / 3815)
  | .survey _ _ cluster _ => decide (cluster < 246208)
  | .dataCapsule _ _ _ h bytes => bytes.length == h.length.toNat || decide (4096 < h.length.toNat)
  | .calCycleDone _ results => results.length == 14
  | .samplePreload cells => cells.length == 1836
  | .engineMemoryAccess _ _ _ size _ _ => [1, 2, 4, 8].contains size
  | .registerWrite .. | .lowerHalfRead .. | .lowerHalfWrite .. | .upperHalfWrite .. | .misalignedRead .. | .wpop .. | .wpeek .. | .wdrop .. | .wpush .. => true
  | .wcommit .. | .wrewind .. | .wcred .. | .weirStallResume .. | .flumeTransmit .. | .credit .. | .heartbeat .. | .pulseHeartbeat .. | .timeSync .. => true
  | .timeSyncSend | .timeSyncTimeout | .regReq .. | .regRsp .. | .event .. | .writeData .. | .blockHead .. | .blockData .. | .laneLockLost .. | .retrain => true
  | .retrainDone .. | .downRetrainTimer | .linkLost | .motionTick .. | .internalFault .. | .actuatorFrame .. | .afeSettingApply .. | .spllUnlock => true
  | .spllLocked | .spllResume | .spllFail | .relock | .thConversion .. | .blockMark .. | .wobbleLock .. | .wobbleLockLost .. | .loopSat .. => true
  | .timingLoopLoss .. | .analogGainStep .. | .tagContextStart .. | .tagContextEnd .. | .landingWindowEnd .. | .holdRelease .. | .longDefect .. => true
  | .snapshotLatch .. | .laneItemCommit .. | .iterationDetectDone .. | .acquisitionCheck .. | .framerPop .. | .syncCandidate .. | .searchWindowEnd .. => true
  | .tagDecodeStep .. | .frameConfirm .. | .resync .. | .framerCommit .. | .ldpcDecodeStart .. | .ldpcDecodeDone .. | .retryAttempt .. | .passStart .. => true
  | .passSlot .. | .underrun .. | .stopPass .. | .passComplete .. | .tNop .. | .tMov .. | .tLih .. | .tLil .. | .tLdk .. | .tLd .. | .tSt .. | .tLdx .. => true
  | .tStx .. | .tIn .. | .tOut .. | .tAdd .. | .tSub .. | .tMul .. | .tMulk .. | .tNeg .. | .tAbs .. | .tMin .. | .tMax .. | .tClamp .. | .tShl .. => true
  | .tShr .. | .tDiv .. | .tSqrt .. | .tAnd .. | .tOr .. | .tXor .. | .tSrl .. | .tSll .. | .tAddw .. | .tClr .. | .tLda .. | .tMac .. | .tMacv .. => true
  | .tMsu .. | .tAdda .. | .tRnd .. | .tInt .. | .tLim .. | .tBr .. | .tBeq .. | .tBne .. | .tBlt .. | .tBge .. | .tBbs .. | .tBbc .. | .tLoop .. => true
  | .tCall .. | .tRet .. | .tEnd .. | .leCmd .. | .leParamWrite .. | .leMemDataRead .. | .loopNone .. | .sweep .. | .focus .. | .pullIn .. | .jump .. => true
  | .layerJump .. | .holdTracking .. | .retract .. | .retryOffset .. | .setLayer .. | .calLevel .. | .calGainF .. | .calGainT .. | .calTsens .. => true
  | .calTrim .. | .calCommandDone .. | .sweepEnd .. | .focusCapture .. | .focusLock .. | .focusLost .. | .trackingLock .. | .trackLost .. => true
  | .loopCommandTimeout .. | .jumpBrake .. | .layerStepPhase .. | .retractReached .. | .positionCheck .. | .slip .. | .seek .. | .stationRequest .. => true
  | .discPresentChange .. | .clampSettled .. | .clampReq .. | .lpPark .. | .hostPark .. | .parkRetractDone .. | .parkStopDone .. | .qualifyStepDone .. => true
  | .loopEscalation .. | .motionEscalation .. | .motionNone .. | .spin .. | .brake .. | .coast .. | .homeAxes .. | .follow .. | .sledOff .. => true
  | .spinMeasureEnd .. | .alignEnd .. | .observerLock .. | .obsLost .. | .startRetry .. | .atSpeed .. | .atSpeedLost .. | .catchWindowEnd .. => true
  | .tachCrossing .. | .tachTimeout .. | .shortBrakeApply .. | .spnBrakeRequest .. | .spindleDriverFault .. | .sledBridgeFault .. | .limitSwitchChange .. => true
  | .chopperDrive .. | .chopperDecay .. | .ilimCut .. | .speedChange .. | .stateCopyDone .. | .engineTestDone .. | .retest .. | .swapDue .. => true
  | .swapSkipped .. | .pairSwapNow .. | .journalAck | .journalAckTimeout | .wmHeartbeatSend .. | .peerHeartbeatMissing .. | .wmRestoreDone .. => true
  | .wmRoleSwap | .wmSwapNow | .watchdogFeed .. | .watchdogExpiry .. | .psStationStopped .. | .coreHeartbeat .. | .coreSilent .. | .coreTestDone .. => true
  | .csFailure .. | .csRestartDone .. | .capsuleSlotWrite .. | .capsuleCommit .. | .resume .. | .ringHead .. | .sluiceTake .. | .grantPost .. => true
  | .ringRecordWrite .. | .msixTimer .. | .sluiceEnable .. | .hostRead .. | .hostWrite .. | .hostFlush .. | .hostVerify .. | .hostPrefetch .. | .mount .. => true
  | .unmount .. | .closeVolume .. | .abort .. | .qreset .. | .qcreateRing .. | .qcreateQueue .. | .qdelete .. | .getDeviceLog .. | .getIdentity .. => true
  | .getDefectList .. | .getVolumeState .. | .featureReadAhead .. | .featureRescue .. | .featureLearn .. | .featureStationEvents .. | .programStage .. => true
  | .activate .. | .cacheDisable .. | .cacheEnable .. | .scrub .. | .calibrate .. | .stationPark .. | .stationClamp .. | .stationUnclamp .. | .quietOn .. => true
  | .quietOff .. | .stationReset .. | .portReset .. | .warmReset .. | .bootReset .. | .powerOnReset .. | .loadChunk .. | .loadEnd .. | .bootGo .. => true
  | .writeConfig | .fuseProgram | .persist .. | .cisternSpill | .cisternRecall .. | .dirtyWriteback .. | .evictionWritebackDone .. | .missFill .. => true
  | .parityScan .. | .blockArrival | .bufFillStale .. | .drainStart .. | .scrubGo | .scrubDone .. | .injectArm | .logEntry | .calCycleStart .. => true
  | .pllTuneCheck .. | .pllBandStep | .pllCal | .refCal .. | .sensorEvaluation .. | .stuckCheck .. | .throttleHoldEnd .. | .lpRead .. | .lpWrite .. => true
  | .farm .. | .fdisarm .. | .fzload .. | .fzloadComplete .. | .fpass .. | .fwaitev .. | .fwaitevReturn .. | .extest | .idcode | .highz | .bscanClamp => true
  | .extestPulse | .extestTrain | .bypass | .tapReset | .porNActive | .replayRequest .. | .pwmCycle .. | .mixedDecayBrake .. | .pllBandMeasured .. => true
  | .flashWriteDone .. | .configurationRequest .. | .sledCentringUpdate .. => true

end Sys2Proof
end

