-- ==== Sys2Proof/Safety.lean ====
section
/-! DEFINITION. What counts as a safe run: the commands that wait are well-formed, so that none of them can stop the machine, and the memories
keep their canonical form. And what "leaves unchanged" means, for the fields of the registers and for the memories. -/

namespace Sys2Proof.Machine

/-- Every command that waits is well-formed. -/
def State.Ready (s : State) : Prop := ∀ i ∈ s.pending, i.wf = true

/-- The memories are in their canonical form. -/
def State.MemoryOk (s : State) : Prop := Memory.wf s.chip

/-- Command `i`, run in `s`, completes: it answers a next state in which the commands that waited still wait and `P` holds of everything else. -/
def Completes (i : Instr) (s : State) (P : Chip → Prop) : Prop :=
  ∃ t, exec i s = .next t ∧ t.pending = s.pending ∧ P t.chip

/-- A good packet of a type, the next in sequence, reaches the receiver of direction `d` (R42, R45). -/
def Arrives (c : Chip) (d : Dir) (type : Nat) (p : Rx) : Prop :=
  c.carrying = true ∧ rxGood p = true ∧ rxSeq p = (c.flume d).expSeq ∧ rxType p = type

/-- Engine `e` is in a run, stands at the instruction of word `w` (fields without meaning aside, R312), and the run goes on behind it in sequence: no loop ends here. -/
def TolekAt (c : Chip) (e : Nat) (w : Q) : Prop :=
  let t := c.tolek e
  t.running = true ∧ t.ended = false ∧ tPlain (t.word t.pc) = w ∧ t.pc + 1 < 4096 ∧ ∀ fr ∈ t.loops.head?, fr.last ≠ t.pc

/-- The run of engine `e` has gone on by one instruction, which took `cost` units and left the engine as `t` says; no other engine and nothing
outside the engines has changed. -/
def TolekGoes (c c' : Chip) (e cost : Nat) (t : TolekRec) : Prop :=
  c'.tolek e = { t with pc := (c.tolek e).pc + 1, units := (c.tolek e).units + cost } ∧ (∀ j, j ≠ e → c'.tolek j = c.tolek j) ∧
  c' = { c with servo := { c.servo with engines := c'.servo.engines } }

/-- Value register `d` took the exact result `x`, saturated to its range, with SAT (R307); the engine is otherwise as it was. -/
def TookInt (t t' : TolekRec) (d : Nat) (x : Int) : Prop :=
  t'.int d = max (-2 ^ 31) (min (2 ^ 31 - 1) x) ∧ t'.sat = (t.sat || decide (x < -2 ^ 31 ∨ 2 ^ 31 - 1 < x)) ∧ (∀ r, r ≠ d → t'.val r = t.val r) ∧
  t' = { t with ctx := { t.ctx with v := t'.ctx.v }, sat := t'.sat }

/-- Value register `d` took the word `x`; the engine is otherwise as it was. -/
def TookWord (t t' : TolekRec) (d : Nat) (x : Q) : Prop :=
  t'.val d = x ∧ (∀ r, r ≠ d → t'.val r = t.val r) ∧ t' = { t with ctx := { t.ctx with v := t'.ctx.v } }

/-- Accumulator `a` took the exact result `x`, saturated to its range, with SAT (R307); the engine is otherwise as it was. -/
def TookAcc (t t' : TolekRec) (a : Nat) (x : Int) : Prop :=
  t'.acc a = max (-2 ^ 63) (min (2 ^ 63 - 1) x) ∧ t'.sat = (t.sat || decide (x < -2 ^ 63 ∨ 2 ^ 63 - 1 < x)) ∧ (∀ r, r ≠ a → t'.acc r = t.acc r) ∧
  t' = { t with ctx := { t.ctx with a := t'.ctx.a }, sat := t'.sat }

/-- Every field that shares no bit with a field of `L` reads the same in `c'` as in `c`: no other bit of any register has changed. -/
def Chip.fieldsKept (L : List Fld) (c c' : Chip) : Prop :=
  ∀ f : Fld, f.lo + f.w ≤ 64 → (∀ g ∈ L, apart f g) → c'.fld f = c.fld f

/-- Every byte of buffer DRAM, of the boot flash, of the engines' SRAM and of the mailbox reads the same in `c'` as in `c`. -/
def Chip.bytesKept (c c' : Chip) : Prop :=
  (∀ a, c'.byte a = c.byte a) ∧ (∀ a, Cells.get flashBlank c'.boot.flash a = Cells.get flashBlank c.boot.flash a) ∧
  (∀ a, Cells.get (fun _ => 0) c'.core.sram a = Cells.get (fun _ => 0) c.core.sram a) ∧
  (∀ a, Cells.get (fun _ => 0) c'.boot.mailbox a = Cells.get (fun _ => 0) c.boot.mailbox a)

/-- Command `m` of queue `n` with `tag` and opcode `op` may start; it alone has its number, and no abort and no reset has marked it. -/
def Starts (c : Chip) (n tag op : Nat) (m : Cmd) : Prop :=
  c.toRun n tag op = some m ∧ (∀ x ∈ c.host.cmds, x.uid = m.uid → x = m) ∧ m.mark = none ∧ m.silent = false

/-- Command `m` has ended with a status, and with the block index, the result and the count given. -/
def Ends (c : Chip) (m : Cmd) (status index result count : Nat) : Prop :=
  ∃ x, c.cmd m.uid = some x ∧ x.status = some status ∧ x.blockIndex = index ∧ x.result = result ∧ x.count = count ∧ x.tag = m.tag ∧ x.queue = m.queue

/-- Nothing has changed but the host's side, the weirs and the lists of the buffer: no register, no station, no memory. -/
def HostOnly (c c' : Chip) : Prop :=
  c'.regs = c.regs ∧ c'.servo = c.servo ∧ c'.afe = c.afe ∧ c'.sup = c.sup ∧ c.bytesKept c'

end Sys2Proof.Machine
end

