-- ==== Sys2Proof/Certificates/Slice0/Obligations.lean ====
section
/-! DEFINITION. The statements about the machine. Most say for a group of commands what a command does (`Completes`), under conditions on the
state and the operands alone, and what it leaves unchanged. -/

open Sys2Proof Sys2Proof.Machine

/-! ### The whole machine -/

/-- A step takes the command at the front of the queue and runs it with the rest of the queue (the block's rule; log entry 1). -/
def Obligations.StepRunsFront : Prop :=
  ∀ (s : State) (i : Instr), step { s with pending := i :: s.pending } = exec i s

/-- With no command waiting, one tick of M-die ledger time passes: 1 ns while the sampling PLL is locked, 20 ns while it is not (R58, R132; the
model's choice of what an idle step is, log entry 1). A copy that needs no correction keeps its offset (R60). Nothing else changes. -/
def Obligations.IdleTick : Prop :=
  ∀ s : State, s.pending = [] →
    ∃ t, step s = .next t ∧ t.pending = [] ∧
      t.chip.now = s.chip.now + (if s.chip.flag AFE_PLL_STATUS_LOCKED then 1 else 20) ∧
      (s.chip.arch.corr = 0 → t.chip.nowH - t.chip.now = s.chip.nowH - s.chip.now ∧ t.chip.arch.corr = 0) ∧
      t.chip = { s.chip with arch := { s.chip.arch with ledgerM := t.chip.now, ledgerH := t.chip.nowH, corr := t.chip.arch.corr,
                                                        pausing := t.chip.arch.pausing } }

/-- What reset leaves (R25, R59): ledger time 0 on both dies, every register at the reset value of its field map, no command and no latch
held, empty weirs, queues and memories; and no port is answered yet.
Reset leaves the memories in canonical form, and no command waits that could stop the machine. -/
def Obligations.ResetValues : Prop :=
  (State.reset.pending = [] ∧ State.reset.chip.now = 0 ∧ State.reset.chip.nowH = 0 ∧ (∀ o, State.reset.chip.reg o = regReset o) ∧
  (∀ a, State.reset.chip.agent a = {}) ∧ (∀ k, State.reset.chip.weir k = {}) ∧ (∀ n, (State.reset.chip.queue n).created = false) ∧
  State.reset.chip.flag GEN_CONFIG_SEALED = false ∧ State.reset.chip.fld GEN_ID_PART = 0x6416 ∧ State.reset.chip.fld GEN_ID_STEPPING = 0xC2 ∧
  (∀ s : Station, State.reset.chip.fld (WMM_STN_STATE_STATE s) = 0)) ∧
  (State.reset.Ready ∧ State.reset.MemoryOk)

/-- A command stops the machine exactly where its operands are none of its row (log entry 3), and by one name. -/
def Obligations.StopsOnlyIllFormed : Prop :=
  ∀ (s : State) (i : Instr), (i.wf = true → Completes i s (fun _ => True)) ∧ (i.wf = false → exec i s = .fault .illFormed)

/-- From every state whose commands are well-formed a step goes on to another such state: it never faults and never refuses, and it takes one
command from the queue. -/
def Obligations.ReadyKept : Prop :=
  ∀ s : State, s.Ready → ∃ t, step s = .next t ∧ t.Ready ∧ t.pending = s.pending.tail

/-- Every step keeps the memories in canonical form: buffer DRAM, boot flash, the engines' SRAM, the mailbox. -/
def Obligations.MemoryKept : Prop :=
  ∀ (s t : State), s.MemoryOk → step s = .next t → t.MemoryOk

/-! ### Accesses to registers -/

/-- What a write does to each field of a register by its access type (R24, R27), under a mask that covers the field or none of it: RO and LK
keep their value, WO reads 0, W1C clears the bits written 1, RW and RH take the value written, or their reset value where it is reserved. And
the field maps are such that this says all: the fields of a register share no bit. -/
def Obligations.FieldWrites : Prop :=
  (∀ (r : RegDef) (f : FieldDef) (old v mask : Word), f ∈ r.fields → 0 < f.w → f.reset < 2 ^ f.w → (∀ g ∈ r.fields, g.lo + g.w ≤ 64) →
    r.fields.Pairwise (fun g h => g.lo + g.w ≤ h.lo ∨ h.lo + h.w ≤ g.lo) →
    let x := fieldOf old f.lo f.w
    let y := fieldOf v f.lo f.w
    let x' := fieldOf (regAfter r old v mask) f.lo f.w
    (fieldOf mask f.lo f.w = 0 → x' = x) ∧
    (fieldOf mask f.lo f.w = 2 ^ f.w - 1 →
      (f.acc = .ro ∨ f.acc = .lk → x' = x) ∧ (f.acc = .wo → x' = 0) ∧
      (f.acc = .w1c → ∀ i < f.w, x'.testBit i = (x.testBit i && !y.testBit i)) ∧
      (f.acc = .rw ∨ f.acc = .rh → x' = if fieldOk f y then y else f.reset))) ∧
  (∀ (o : Nat) (r : RegDef), regAt o = some r →
    (∀ g ∈ r.fields, 0 < g.w ∧ g.lo + g.w ≤ (if r.wide then 64 else 32) ∧ g.reset < 2 ^ g.w) ∧
    r.fields.Pairwise (fun g h => g.lo + g.w ≤ h.lo ∨ h.lo + h.w ≤ g.lo))

/-- REGISTER_WRITE of a whole register of the H-die that has no effect beyond its fields (R22, R24): the register takes the value that its
field map gives, every other register and all other state stay. The agent holds no lower half, may write there, and the block is served.
REGISTER_WRITE and the halves across the Flume (R49): while it is down a write to an M-die register by a port is discarded and logged, and
a read answers all ones. -/
def Obligations.RegisterWriteDone : Prop :=
  (∀ (s : State) (a : Agent) (off size k : Nat) (v : Word) (r : RegDef),
    (∀ x, a = .port x → s.chip.portExists x = true) → (∀ e, a = .engine e → engineSees e off size = true) →
    (k % portKey < 0x100000 ∨ 0x700000 ≤ k % portKey) → isMdie off = false → s.chip.served off = true →
    regPlace (agentPort a) off = some (k, r, false) →
    (s.chip.agent (agentNum a)).writeLatch = none → s.chip.absent k = false → s.chip.mayWrite a k = true →
    (size = 4 ∧ off % 4 = 0 ∧ r.wide = false ∨ size = 8 ∧ off % 8 = 0 ∧ r.wide = true) →
    k ∉ [CIS_CTRL, BUF_SCRUB_CTRL, BUF_FILL_STALE, BUF_INJECT, FLM_CTRL, WMH_CTRL, BOOT_HOST_CMD] → ¬ (0x10000 ≤ k ∧ k < 0x10200 ∧ k % 0x100 = 0) →
    (∀ f ∈ r.fields, f.acc ≠ .lk) →
    let v' : Word := if size = 4 then (v.setWidth 32).setWidth 64 else v
    let mask : Word := if size = 4 then loMask else loMask ||| hiMask
    s.chip.writeDropped k (regAfter r (s.chip.reg k) v' mask) = false →
    Completes (.registerWrite a off size v) s fun c =>
      c.reg k = regAfter r (s.chip.reg k) v' mask ∧ (∀ o, o ≠ k → c.reg o = s.chip.reg o) ∧ c = { s.chip with regs := c.regs }) ∧
  (∀ (s : State) (x : Port) (off size : Nat) (v : Word),
    s.chip.portExists x = true → isMdie off = true → s.chip.served off = true → s.chip.flag FLM_STATUS_UP = false →
    (s.chip.agent x).writeLatch = none →
    (Completes (.registerWrite (.port x) off size v) s fun c =>
      c.regs = s.chip.regs ∧ c.agent x = s.chip.agent x ∧
      (c.weir (weirKey 6 0)).items = (s.chip.weir (weirKey 6 0)).items ++
        [(logWords s.chip.nowH 0x0103 .h (detBytes 4 off ++ [x.val])).map (fun w => ⟨w, false⟩)]) ∧
    (Completes (.lowerHalfRead (.port x) off) s fun c =>
      (c.agent x).lastRead = 0xFFFFFFFF#64 ∧ c.regs = s.chip.regs ∧ (c.agent x).readLatch = (s.chip.agent x).readLatch))

/-- The latches of R22, for a 64-bit register of the H-die without an effect beyond its fields. LOWER_HALF_READ answers the lower half and holds
the upper; LOWER_HALF_WRITE is held and changes no register; UPPER_HALF_WRITE with the held lower half of the same register writes all 64 bits,
and alone writes the upper half.
An access that R22 does not allow reads 0 or is discarded; it changes no register but the count GEN_ACCESS.SIZE, no read latch, and commits
one device log entry ACCESS_SIZE. -/
def Obligations.HalfAccesses : Prop :=
  (∀ (s : State) (x : Port) (off k : Nat) (v : BitVec 32) (r : RegDef),
    s.chip.portExists x = true → off % 8 = 0 → (off < 0x100000 ∨ 0x700000 ≤ off ∧ off < 0xF00000) → s.chip.served off = true →
    regPlace x off = some (k, r, false) → regPlace x (off + 4) = some (k, r, true) → r.wide = true → s.chip.absent k = false →
    (s.chip.served (off + 4) = true) →
    let w := s.chip.regNow k r
    ((s.chip.agent x).writeLatch = none →
      (Completes (.lowerHalfRead (.port x) off) s fun c =>
        (c.agent x).lastRead = (w.setWidth 32).setWidth 64 ∧ (c.agent x).readLatch = some (k, (w >>> 32).setWidth 32) ∧ c.regs = s.chip.regs) ∧
      (Completes (.lowerHalfWrite (.port x) off v) s fun c =>
        (c.agent x).writeLatch = some (k, v) ∧ c.regs = s.chip.regs ∧ (c.agent x).readLatch = (s.chip.agent x).readLatch)) ∧
    (s.chip.mayWrite (.port x) k = true → k % portKey = off → (k % portKey < 0x100000 ∨ 0x700000 ≤ k % portKey) →
      k ∉ [CIS_CTRL, BUF_SCRUB_CTRL, BUF_FILL_STALE, BUF_INJECT, FLM_CTRL, WMH_CTRL, BOOT_HOST_CMD] → ¬ (0x10000 ≤ k ∧ k < 0x10200 ∧ k % 0x100 = 0) →
      (∀ f ∈ r.fields, f.acc ≠ .lk) → (∀ n, s.chip.writeDropped k n = false) →
      Completes (.upperHalfWrite (.port x) (off + 4) v) s fun c =>
        let up : Word := v.setWidth 64 <<< 32
        ((s.chip.agent x).writeLatch = none → c.reg k = regAfter r (s.chip.reg k) up hiMask) ∧
        (∀ lo, (s.chip.agent x).writeLatch = some (k, lo) → c.reg k = regAfter r (s.chip.reg k) (up ||| lo.setWidth 64) (loMask ||| hiMask) ∧
          (c.agent x).writeLatch = none) ∧
        ((∀ j lo, (s.chip.agent x).writeLatch = some (j, lo) → j = k) → ∀ o, o ≠ k → c.reg o = s.chip.reg o))) ∧
  (∀ (s : State) (a : Agent) (off size : Nat) (v : Word),
    (∀ x, a = .port x → s.chip.portExists x = true) → (∀ e, a = .engine e → engineSees e off size = true) →
    (isMdie off = false ∨ s.chip.carrying = true) → (s.chip.agent (agentNum a)).writeLatch = none →
    ¬ (size = 4 ∧ off % 4 = 0) → ¬ (size = 8 ∧ off % 8 = 0) →
    let after := fun (c : Chip) =>
      s.chip.fieldsKept [GEN_ACCESS_SIZE] c ∧ c.fld GEN_ACCESS_SIZE = min (s.chip.fld GEN_ACCESS_SIZE + 1) 0xFFFF ∧
      (c.agent (agentNum a)).readLatch = (s.chip.agent (agentNum a)).readLatch ∧
      (c.weir (weirKey 6 0)).items = (s.chip.weir (weirKey 6 0)).items ++
        [(logWords s.chip.nowH 0x0101 .h (detBytes 4 off ++ [agentNum a])).map (fun w => ⟨w, false⟩)]
    (¬ (0 < size ∧ size < 4 ∧ off % 4 + size ≤ 4) →
      Completes (.misalignedRead a off size) s fun c => after c ∧ (c.agent (agentNum a)).lastRead = 0) ∧
    Completes (.registerWrite a off size v) s fun c => after c ∧ (c.agent (agentNum a)).lastRead = (s.chip.agent (agentNum a)).lastRead)

/-- ENGINE_MEMORY_ACCESS (R502, R503): in local SRAM a store changes the bytes it names and no other byte, and a load reads them; an M-die
engine's store to installed buffer DRAM, whose units are good, changes the bytes it names and no other byte; an access outside the ranges of
Table 12.1 raises the access fault of its kind and changes nothing else.
LE_MEM_DATA_READ (Table 7.19): the agent gets the word at ADDR, and with INC at 1 ADDR goes on by one modulo the size of the space; no other
field changes. -/
def Obligations.EngineMemory : Prop :=
  (∀ (s : State) (e : Engine) (addr size : Nat) (v : Word) (rd : Fin 32), size ∈ [1, 2, 4, 8] →
    (0x10000000 ≤ addr → addr + size ≤ 0x10080000 →
      (Completes (.engineMemoryAccess e .store addr size v rd) s fun c =>
        (∀ i < size, Cells.get (fun _ => 0) c.core.sram (sramKey e (addr - 0x10000000 + i)) = BitVec.ofNat 8 (v.toNat / 256 ^ i)) ∧
        (∀ j, (∀ i < size, j ≠ sramKey e (addr - 0x10000000 + i)) → Cells.get (fun _ => 0) c.core.sram j = Cells.get (fun _ => 0) s.chip.core.sram j) ∧
        c = { s.chip with core := { s.chip.core with sram := c.core.sram } }) ∧
      (Completes (.engineMemoryAccess e .load addr size v rd) s fun c =>
        c.getX e rd = (if rd.val = 0 then 0 else BitVec.ofNat 64 (ofLeBytes (Cells.getRun (fun _ => 0) s.chip.core.sram (sramKey e (addr - 0x10000000)) size))) ∧
        c = { s.chip with core := { s.chip.core with engines := c.core.engines } })) ∧
    (2 ^ 36 ≤ addr → addr + size ≤ 2 ^ 36 + s.chip.bufferSize → onMdie (.engine e) = true → s.chip.flag FLM_STATUS_UP = true →
      (∀ u ∈ unitsOf (addr - 2 ^ 36) size, s.chip.unitMark u = .good) →
      Completes (.engineMemoryAccess e .store addr size v rd) s fun c =>
        (∀ i < size, c.byte (addr - 2 ^ 36 + i) = BitVec.ofNat 8 (v.toNat / 256 ^ i)) ∧
        (∀ j, (j < addr - 2 ^ 36 ∨ addr - 2 ^ 36 + size ≤ j) → c.byte j = s.chip.byte j) ∧
        s.chip.fieldsKept [BUF_RMW_COUNT, BUF_INJECT_ARMED] c) ∧
    (∀ kind, ¬ addr + size ≤ 0x10000 → ¬ (0x10000000 ≤ addr ∧ addr + size ≤ 0x10080000) → ¬ (0x20000000 ≤ addr ∧ addr + size ≤ 0x20800000) →
      ¬ (2 ^ 36 ≤ addr ∧ addr + size ≤ 2 ^ 36 + s.chip.bufferSize) →
      Completes (.engineMemoryAccess e kind addr size v rd) s fun c =>
        (c.eng (engNum e)).cause = some (faultCauseOf kind) ∧ c.regs = s.chip.regs ∧ s.chip.bytesKept c)) ∧
  (∀ (s : State) (x : Port) (e : TolekEngine),
    s.chip.portExists x = true → s.chip.flag GEN_CONFIG_SEALED = true → s.chip.carrying = true → (s.chip.agent x).writeLatch = none →
    Completes (.leMemDataRead (.port x) e) s fun c =>
      (c.agent x).lastRead = (s.chip.memData e).setWidth 64 ∧
      c.fld (LE_MEM_ADDR_ADDR e) = (if s.chip.flag (LE_MEM_ADDR_INC e) then
        (s.chip.fld (LE_MEM_ADDR_ADDR e) + 1) % (if s.chip.flag (LE_MEM_ADDR_SPACE e) then 2048 else 4096) else s.chip.fld (LE_MEM_ADDR_ADDR e)) ∧
      s.chip.fieldsKept [LE_MEM_ADDR_ADDR e] c ∧ s.chip.bytesKept c)

/-! ### Weirs -/

/-- WPOP and WPEEK (R37, R507): on a weir that the engine may consume, is open and has a word at hand, rd takes the next word of the head item
(a free value where the word's check could not correct it, R517), WSTAT.END tells the last word of its item and WSTAT.CORRUPT a bad one, and only
WPOP takes the word away. No other weir changes but the device log, and nothing outside the weirs, the engine and the counts of R517.
WDROP never stalls (R38): rd counts the words dropped, whose credits return, the head item is gone; on a weir without a committed item the count is 0 and
nothing is dropped. There a pop or a peek waits, as long as no item is committed (R37).
WEIR_STALL_RESUME (R36, R37): the oldest stalled operation of a weir, where it can complete, completes as if it were issued now and no longer
waits. -/
def Obligations.WeirReads : Prop :=
  (∀ (s : State) (e : Engine) (rd rs1 : Fin 32) (kind index : Nat) (y : WWord) (ys : List WWord) (rest : List (List WWord)),
    handleOf (s.chip.getX e rs1) = some (kind, index) → s.chip.consumes e kind index = true →
    (s.chip.weir (weirKey kind index)).closed = false → s.chip.ready kind index = true →
    (s.chip.weir (weirKey kind index)).items = (y :: ys) :: rest →
    let read := fun (c : Chip) =>
      c.getX e rd = (if rd.val = 0 then 0 else if y.corrupt then Config.freeWord s.chip.free else y.v) ∧
      (c.eng (engNum e)).wstat = BitVec.ofNat 64 (ys.isEmpty.toNat + 4 * y.corrupt.toNat) ∧
      (∀ j, j ≠ weirKey kind index → j ≠ weirKey 6 0 → c.weir j = s.chip.weir j) ∧
      s.chip.fieldsKept [CIS_DOUBLE_COUNT, CIS_EVENT_DOUBLE] c ∧ (y.corrupt = false → c.regs = s.chip.regs) ∧
      (y.corrupt = true → c.flag CIS_EVENT_DOUBLE = true) ∧
      c = { s.chip with regs := c.regs, free := c.free, core := c.core }
    (Completes (.wpop e rd rs1) s fun c =>
      read c ∧ (c.weir (weirKey kind index)).items = if ys = [] then rest else ys :: rest) ∧
    (Completes (.wpeek e rd rs1) s fun c => read c ∧ c.weir (weirKey kind index) = s.chip.weir (weirKey kind index))) ∧
  (∀ (s : State) (e : Engine) (rd rs1 : Fin 32) (kind index : Nat),
    handleOf (s.chip.getX e rs1) = some (kind, index) → s.chip.consumes e kind index = true →
    (s.chip.weir (weirKey kind index)).closed = false →
    let k := weirKey kind index
    let n := ((s.chip.weir k).items.headD []).length
    (Completes (.wdrop e rd rs1) s fun c =>
      (c.weir k).items = (s.chip.weir k).items.tail ∧ c.getX e rd = (if rd.val = 0 then 0 else BitVec.ofNat 64 n) ∧
      (c.weir k).used + n = (s.chip.weir k).used ∧
      (cisOf kind index = none → (s.chip.weir k).used ≤ fixedCapacity kind → c.credits kind index = s.chip.credits kind index + n) ∧
      (c.eng (engNum e)).wstat = 0 ∧ (∀ j, j ≠ k → c.weir j = s.chip.weir j) ∧ c = { s.chip with core := c.core }) ∧
    ((s.chip.weir k).items = [] →
      (∀ (i : Instr) (kd : StallKind), (i = .wpop e rd rs1 ∧ kd = .pop) ∨ (i = .wpeek e rd rs1 ∧ kd = .peek) → Completes i s fun c =>
        c.weir k = { s.chip.weir k with stalls := (s.chip.weir k).stalls ++ [⟨e, kd, rd, 0⟩] } ∧ c.getX e rd = s.chip.getX e rd ∧
        (∀ j, j ≠ k → c.weir j = s.chip.weir j) ∧ c = { s.chip with core := c.core }) ∧
      ((∀ x ∈ (s.chip.weir k).stalls, x.kind ≠ .push) → Completes (.weirStallResume kind index) s fun c => c = s.chip))) ∧
  (∀ (s : State) (kind index : Nat) (x : Stall) (xs : List Stall),
    (s.chip.weir (weirKey kind index)).stalls = x :: xs → s.chip.canResume kind index x = true →
    (∀ y ys rest, x.kind ≠ .push → (s.chip.weir (weirKey kind index)).items = (y :: ys) :: rest → y.corrupt = false → x.rd ≠ 0 →
      Completes (.weirStallResume kind index) s fun c =>
        c.getX x.engine x.rd = y.v ∧ (c.weir (weirKey kind index)).stalls = xs ∧
        (c.weir (weirKey kind index)).items = (if x.kind = .peek then (y :: ys) :: rest else if ys = [] then rest else ys :: rest) ∧
        c = { s.chip with core := c.core }) ∧
    (x.kind = .push → Completes (.weirStallResume kind index) s fun c =>
        (c.weir (weirKey kind index)).mine (engNum x.engine) =
          (s.chip.weir (weirKey kind index)).mine (engNum x.engine) ++ [⟨x.value, false⟩] ∧
        (c.weir (weirKey kind index)).stalls = xs ∧ (c.weir (weirKey kind index)).items = (s.chip.weir (weirKey kind index)).items ∧
        c = { s.chip with core := c.core }))

/-- WPUSH, WREWIND and WCRED by a producer of an open weir (R34 to R36, R509): a push with credit adds one uncommitted word of this producer,
a rewind takes its uncommitted words away and counts them, WCRED reads the free words. None makes a word visible to the consumer, and none
touches another producer's words.
WCOMMIT (R34, R44, R508): of the device log weir, the producer's words become one item behind those committed before; of a weir to the other
die they become EVENT packets for its unit; with no uncommitted word nothing happens. -/
def Obligations.WeirWrites : Prop :=
  (∀ (s : State) (e : Engine) (rd rs1 rs2 : Fin 32) (kind index : Nat),
    handleOf (s.chip.getX e rs1) = some (kind, index) → s.chip.produces e kind index = true →
    (s.chip.weir (weirKey kind index)).closed = false →
    let k := weirKey kind index
    let frame := fun (c : Chip) =>
      (c.weir k).items = (s.chip.weir k).items ∧ (∀ n, n ≠ engNum e → (c.weir k).mine n = (s.chip.weir k).mine n) ∧
      (c.eng (engNum e)).wstat = 0 ∧ (∀ j, j ≠ k → c.weir j = s.chip.weir j) ∧ c = { s.chip with core := c.core }
    (0 < s.chip.credits kind index → Completes (.wpush e rs1 rs2) s fun c =>
      frame c ∧ (c.weir k).mine (engNum e) = (s.chip.weir k).mine (engNum e) ++ [⟨s.chip.getX e rs2, false⟩]) ∧
    (Completes (.wrewind e rd rs1) s fun c =>
      frame c ∧ (c.weir k).mine (engNum e) = [] ∧
      (cisOf kind index = none → Cells.wf (fun _ => []) (s.chip.weir k).uncommitted = true → (s.chip.weir k).used ≤ fixedCapacity kind →
        c.credits kind index = s.chip.credits kind index + ((s.chip.weir k).mine (engNum e)).length) ∧
      c.getX e rd = if rd.val = 0 then 0 else BitVec.ofNat 64 ((s.chip.weir k).mine (engNum e)).length) ∧
    (Completes (.wcred e rd rs1) s fun c =>
      frame c ∧ (c.weir k).mine (engNum e) = (s.chip.weir k).mine (engNum e) ∧
      c.getX e rd = if rd.val = 0 then 0 else BitVec.ofNat 64 (s.chip.credits kind index))) ∧
  (∀ (s : State) (e : Engine) (rs1 : Fin 32) (kind index : Nat),
    handleOf (s.chip.getX e rs1) = some (kind, index) → s.chip.produces e kind index = true →
    (s.chip.weir (weirKey kind index)).closed = false → kind ∈ [3, 4, 6] →
    let k := weirKey kind index
    let mine := (s.chip.weir k).mine (engNum e)
    Completes (.wcommit e rs1) s fun c =>
      (c.weir k).mine (engNum e) = [] ∧ c.regs = s.chip.regs ∧ s.chip.bytesKept c ∧
      (mine = [] → (c.weir k).items = (s.chip.weir k).items ∧ c.arch = s.chip.arch) ∧
      (mine ≠ [] → kind = 6 → (c.weir k).items = (s.chip.weir k).items ++ [mine.map (fun w => ⟨w.v, false⟩)] ∧ c.arch = s.chip.arch) ∧
      (mine ≠ [] → kind ≠ 6 → (c.weir k).items = (s.chip.weir k).items ∧
        (if kind = 3 then c.arch.toM.ready else c.arch.toH.ready) =
          (if kind = 3 then s.chip.arch.toM.ready else s.chip.arch.toH.ready) ++
            (payloadChunks (mine.length + 1) (payloadOf (mine.map (·.v)))).map (fun p => ⟨5, 0, index, 0, p⟩)))

/-- A weir operation on a handle with other bits set, on a weir the engine may not use or in a role it does not hold is an illegal instruction
and changes no weir (R505); on a closed weir rd is 0, WSTAT.CLOSED is 1 and no word moves (R39, R507); a pop, a peek or a push that cannot
complete waits its turn and moves no word (R36, R37). -/
def Obligations.WeirTraps : Prop :=
  ∀ (s : State) (e : Engine) (rd rs1 rs2 : Fin 32),
    (handleOf (s.chip.getX e rs1) = none ∨
      (∃ k i, handleOf (s.chip.getX e rs1) = some (k, i) ∧ s.chip.consumes e k i = false ∧ s.chip.produces e k i = false) →
      ∀ i ∈ [Instr.wpop e rd rs1, .wpeek e rd rs1, .wdrop e rd rs1, .wpush e rs1 rs2, .wcommit e rs1, .wrewind e rd rs1, .wcred e rd rs1],
        Completes i s fun c => (c.eng (engNum e)).cause = some 2 ∧ c.core.weirs = s.chip.core.weirs ∧ c.regs = s.chip.regs) ∧
    (∀ kind index, handleOf (s.chip.getX e rs1) = some (kind, index) → (s.chip.weir (weirKey kind index)).closed = true →
      ((s.chip.consumes e kind index = true → ∀ i ∈ [Instr.wpop e rd rs1, .wpeek e rd rs1, .wdrop e rd rs1],
        Completes i s fun c => c.getX e rd = 0 ∧ (c.eng (engNum e)).wstat = 2 ∧ c.core.weirs = s.chip.core.weirs) ∧
      (s.chip.produces e kind index = true → ∀ i ∈ [Instr.wrewind e rd rs1, .wcred e rd rs1],
        Completes i s fun c => c.getX e rd = 0 ∧ (c.eng (engNum e)).wstat = 2 ∧ c.core.weirs = s.chip.core.weirs))) ∧
    (∀ kind index, handleOf (s.chip.getX e rs1) = some (kind, index) → (s.chip.weir (weirKey kind index)).closed = false →
      s.chip.consumes e kind index = true → s.chip.ready kind index = false →
      Completes (.wpop e rd rs1) s fun c =>
        (c.weir (weirKey kind index)).items = (s.chip.weir (weirKey kind index)).items ∧ c.getX e rd = s.chip.getX e rd ∧
        (c.weir (weirKey kind index)).stalls = (s.chip.weir (weirKey kind index)).stalls ++ [⟨e, .pop, rd, 0⟩])

/-! ### The Flume -/

/-- CREDIT, REG_RSP, TIME_SYNC and HEARTBEAT packets that arrive well: credits return to the classes of the other direction's sender; read data
answer the access; an exchange gives the correction of the H-die copy and, within ±4 ns, counts toward alignment (R43, R50, R60, R61); a
heartbeat clears the sender's silence on the Flume path (R435). The next SEQ is expected, and no register beyond those named changes.
A packet with a bad CRC, or one that leaves a gap in SEQ, is discarded and a replay is asked for (R45): it delivers nothing and does not
count as received. A bad CRC is counted. -/
def Obligations.FlumeControlPackets : Prop :=
  (∀ (s : State) (p : Rx),
    (∀ d c0 c1 c2 c3, Arrives s.chip d 0 p → Completes (.credit d p c0 c1 c2 c3) s fun c =>
      (c.flume (otherDir d)).credits = List.zipWith (· + ·) (s.chip.flume (otherDir d)).credits [c0, c1, c2, c3] ∧
      (c.flume d).expSeq = ((s.chip.flume d).expSeq + 1) % 4096 ∧ c = { s.chip with arch := c.arch }) ∧
    (∀ a v, Arrives s.chip .toH 4 p → Completes (.regRsp p a v) s fun c =>
      (c.agent (agentNum a)).lastRead = v ∧ c = { s.chip with arch := c.arch } ∧ c.arch.toH.expSeq = (s.chip.arch.toH.expSeq + 1) % 4096) ∧
    (∀ off : Int, Arrives s.chip .toH 2 p → Completes (.timeSync p off) s fun c =>
      c.arch.corr = -off ∧ c.int FLM_LEDGER_SKEW_SKEW = max (-128) (min 127 off) ∧
      c.fld FLM_LEDGER_SKEW_PEAK = max (s.chip.fld FLM_LEDGER_SKEW_PEAK) (min 255 off.natAbs) ∧ c.now = s.chip.now ∧ c.nowH = s.chip.nowH ∧
      (off.natAbs ≤ 4 → (2 ≤ s.chip.arch.goodExchanges → s.chip.flag AFE_PLL_STATUS_LOCKED = true → c.flag FLM_STATUS_LEDGER_ALIGNED = true) ∧
        (s.chip.arch.goodExchanges < 2 → c.fld FLM_STATUS_LEDGER_ALIGNED = s.chip.fld FLM_STATUS_LEDGER_ALIGNED)) ∧
      (4 < off.natAbs → c.flag FLM_STATUS_LEDGER_ALIGNED = false ∧ c.arch.goodExchanges = 0) ∧
      s.chip.fieldsKept [FLM_LEDGER_SKEW_SKEW, FLM_LEDGER_SKEW_PEAK, FLM_STATUS_LEDGER_ALIGNED, FLM_EVENT_SKEW_EXCEEDED] c) ∧
    (∀ d, Arrives s.chip d 1 p → (s.chip.wm (rxDie d)).missPulse = false → (p.payload.getD 0 0).toNat % 256 ≠ roleFailed →
      Completes (.heartbeat d p) s fun c =>
        c.flag (peerFlume (rxDie d)) = true ∧ c.flag (peerSplit (rxDie d)) = (p.payload.getD 0 0).toNat.testBit 8 ∧
        (c.wm (rxDie d)).missFlume = false ∧ s.chip.fieldsKept [peerFlume (rxDie d), peerSplit (rxDie d)] c ∧ s.chip.bytesKept c)) ∧
  (∀ (s : State) (d : Dir) (p : Rx) (i : Instr) (c0 c1 c2 c3 : Nat) (ws : List Word) (off : Int) (a : Agent) (w : Bool) (o n : Nat) (v : Word),
    (i ∈ [Instr.credit d p c0 c1 c2 c3, .heartbeat d p, .event d p ws] ∨ d = .toM ∧ i ∈ [Instr.regReq p a w o n v, .writeData p] ∨
      d = .toH ∧ i ∈ [Instr.timeSync p off, .regRsp p a v, .blockHead p, .blockData p]) →
    s.chip.carrying = true → (rxGood p = false ∨ rxSeq p ≠ (s.chip.flume d).expSeq) →
    Completes i s fun c =>
      c.fld FLM_REPLAYS_COUNT = min (s.chip.fld FLM_REPLAYS_COUNT + 1) (2 ^ FLM_REPLAYS_COUNT.w - 1) ∧
      (rxGood p = false → c.fld FLM_CRC_ERRORS_COUNT = min (s.chip.fld FLM_CRC_ERRORS_COUNT + 1) (2 ^ FLM_CRC_ERRORS_COUNT.w - 1)) ∧
      s.chip.fieldsKept ([FLM_REPLAYS_COUNT] ++ if rxGood p then [] else [FLM_CRC_ERRORS_COUNT]) c ∧ c = { s.chip with regs := c.regs })

/-- Items that cross the Flume are committed whole, with their last packet (R44): the last EVENT packet commits its item to the weir of its unit
behind those committed before; the last BLOCK_DATA packet commits the block to the Flume-to-cache weir; the last WRITE_DATA packet commits a
write item to its write channel; a packet before the last commits nothing. A BLOCK_HEAD without data is an item by itself (R237). -/
def Obligations.FlumeItems : Prop :=
  ∀ (s : State) (p : Rx),
    let unit := rxUnit p
    (∀ ws : List Word, Arrives s.chip .toM 5 p → unit < 16 → ws ≠ [] →
      ((s.chip.flume .toM).part (2 ^ 25 + unit) ++ p.payload = payloadOf ws → Completes (.event .toM p ws) s fun c =>
        (c.weir (weirKey 3 unit)).items = (s.chip.weir (weirKey 3 unit)).items ++ [ws.map (fun w => ⟨w, false⟩)] ∧
        (c.flume .toM).part (2 ^ 25 + unit) = [] ∧ c = { s.chip with arch := c.arch, core := c.core }) ∧
      ((s.chip.flume .toM).part (2 ^ 25 + unit) ++ p.payload ≠ payloadOf ws → Completes (.event .toM p ws) s fun c =>
        (c.flume .toM).part (2 ^ 25 + unit) = (s.chip.flume .toM).part (2 ^ 25 + unit) ++ p.payload ∧ c = { s.chip with arch := c.arch })) ∧
    (∀ got, (s.chip.flume .toH).part (rxTag p) = got → got ≠ [] → Arrives s.chip .toH 8 p →
      (1032 ≤ (got ++ p.payload).length → Completes (.blockData p) s fun c =>
        (c.weir (weirKey 16 0)).items = (s.chip.weir (weirKey 16 0)).items ++ [(pairWords (got ++ p.payload)).map (fun w => ⟨w, false⟩)] ∧
        c = { s.chip with arch := c.arch, core := c.core }) ∧
      ((got ++ p.payload).length < 1032 → Completes (.blockData p) s fun c =>
        (c.flume .toH).part (rxTag p) = got ++ p.payload ∧ c = { s.chip with arch := c.arch })) ∧
    (Arrives s.chip .toH 7 p →
      (2 < (p.payload.getD 2 0).toNat / 2 ^ 24 → Completes (.blockHead p) s fun c =>
        (c.weir (weirKey 16 0)).items = (s.chip.weir (weirKey 16 0)).items ++ [(pairWords p.payload).map (fun w => ⟨w, false⟩)] ∧
        c = { s.chip with arch := c.arch, core := c.core }) ∧
      ((p.payload.getD 2 0).toNat / 2 ^ 24 ≤ 2 → Completes (.blockHead p) s fun c =>
        (c.flume .toH).part (rxTag p) = p.payload ∧ c = { s.chip with arch := c.arch })) ∧
    (∀ got, (s.chip.flume .toM).part (65536 * unit + rxTag p) ++ p.payload = got → Arrives s.chip .toM 6 p → unit < 16 →
      (got.length < 1032 → Completes (.writeData p) s fun c =>
        (c.flume .toM).part (65536 * unit + rxTag p) = got ∧ c = { s.chip with arch := c.arch }) ∧
      (1032 ≤ got.length → (got.getD 2 0).toNat / 2 ^ 17 % 2 = 0 → Completes (.writeData p) s fun c =>
        (∃ it, (c.wch unit).items = (s.chip.wch unit).items ++ [it] ∧
          it.slotPba = ofLeBytes (((got.flatMap (fun w => leBytes 4 w.toNat)).drop 0).take 5) ∧
          it.user = ((got.flatMap (fun w => leBytes 4 w.toNat)).drop 32).take 4096) ∧
        c = { s.chip with arch := c.arch, path := c.path }))

/-- FLUME_TRANSMIT (R43): with nothing to replay, the packet sent is one that is ready and whose class has credit, of the highest priority among
those and the first of its kind to have become ready; it takes the next SEQ, uses one credit of its class and is kept for replay.
REPLAY_REQUEST (R45): what follows the last good SEQ is sent again in its order and stays in the replay buffer; the third replay in a row of one
packet begins a retraining (R46). -/
def Obligations.FlumeSends : Prop :=
  (∀ (s : State) (d : Dir), s.chip.carrying = true → (s.chip.flume d).toResend = [] →
    let x := s.chip.flume d
    let may := fun (p : Packet) => ∀ k, typeClass p.ty = some k → 0 < x.credits.getD k 0
    ((∃ p ∈ x.ready, may p) → ∃ pre p post, x.ready = pre ++ p :: post ∧ may p ∧
      (∀ q ∈ pre, may q → typePriority p.ty < typePriority q.ty) ∧ (∀ q ∈ post, may q → typePriority p.ty ≤ typePriority q.ty) ∧
      Completes (.flumeTransmit d) s fun c =>
        (c.flume d).ready = pre ++ post ∧ (c.flume d).replay = x.replay ++ [{ p with seq := x.nextSeq }] ∧
        (c.flume d).nextSeq = (x.nextSeq + 1) % 4096 ∧
        (∀ k, (c.flume d).credits.getD k 0 = x.credits.getD k 0 - (if typeClass p.ty = some k then 1 else 0)) ∧
        c = { s.chip with arch := c.arch }) ∧
    ((∀ p ∈ x.ready, ¬ may p) → Completes (.flumeTransmit d) s fun c => c = s.chip)) ∧
  (∀ (s : State) (d : Dir) (seq : Fin 4096) (before after : List Packet) (k p : Packet),
    s.chip.carrying = true → (s.chip.flume d).replay = before ++ k :: p :: after → k.seq = seq → (∀ q ∈ before, q.seq ≠ seq) →
    Completes (.replayRequest d seq) s fun c =>
      (c.flume d).toResend = p :: after ∧ (c.flume d).replay = p :: after ∧ c.flag FLM_EVENT_REPLAY = true ∧
      (c.flag FLM_STATUS_RETRAINING = true ↔ (s.chip.flume d).lastReplay = some p.seq ∧ 2 ≤ (s.chip.flume d).sameReplays) ∧
      s.chip.fieldsKept [FLM_EVENT_REPLAY, FLM_STATUS_RETRAINING] c ∧ c = { s.chip with regs := c.regs, arch := c.arch })

/-- The three causes of R46 and the timer of R49 begin a retraining and change nothing else; a retraining that finds a working width of at least
MIN_WIDTH runs at the widest one (R47), and what waited for it goes on.
TIME_SYNC_SEND makes a packet with the H-die's time ready (R60, its payload by log entry 58); TIME_SYNC_TIMEOUT ends the alignment and logs it
(R61); REG_REQ answers a read of an M-die register with what it shows, and its sequence number is used up (R50). -/
def Obligations.FlumeRetrains : Prop :=
  ((∀ (s : State) (i : Instr) (d : Dir) (lane : Fin 16),
    (i = .retrain ∨ (i = .laneLockLost d lane ∧ s.chip.flag FLM_STATUS_UP = true) ∨ (i = .downRetrainTimer ∧ s.chip.flag FLM_STATUS_UP = false)) →
    Completes i s fun c => c.flag FLM_STATUS_RETRAINING = true ∧ s.chip.fieldsKept [FLM_STATUS_RETRAINING] c ∧ c = { s.chip with regs := c.regs }) ∧
  (∀ (s : State) (tx rx : BitVec 16) (w : Nat),
    s.chip.flag FLM_STATUS_RETRAINING = true → s.chip.flag FLM_STATUS_UP = true → s.chip.arch.mdieWait = [] →
    (∀ d, (s.chip.wm d).missFlume = false ∧ (s.chip.wm d).missPulse = false) →
    widest (tx &&& rx).toNat = some w → s.chip.fld FLM_CTRL_MIN_WIDTH ≤ w →
    Completes (.retrainDone tx rx) s fun c =>
      c.carrying = true ∧ c.fld FLM_STATUS_WIDTH = w ∧ c.flag FLM_EVENT_RETRAIN_DONE = true ∧
      c.fld FLM_LANE_STATUS_TX_OK = tx.toNat ∧ c.fld FLM_LANE_STATUS_RX_OK = rx.toNat ∧
      c.flag FLM_EVENT_LANE_DROPPED = (s.chip.flag FLM_EVENT_LANE_DROPPED || decide (w < s.chip.fld FLM_STATUS_WIDTH)) ∧
      s.chip.fieldsKept [FLM_STATUS_RETRAINING, FLM_STATUS_UP, FLM_STATUS_WIDTH, FLM_EVENT_RETRAIN_DONE, FLM_EVENT_LANE_DROPPED,
        FLM_LANE_STATUS_TX_OK, FLM_LANE_STATUS_RX_OK, FLM_RETRAINS_COUNT] c ∧ s.chip.bytesKept c) ∧
  (∀ ok < 65536,
    (widest ok = some 2 ↔ ok = 0xFFFF) ∧ (widest ok = some 1 ↔ ok ≠ 0xFFFF ∧ (ok % 256 = 255 ∨ ok / 256 = 255)) ∧
    (widest ok = none ↔ ∀ k ∈ [0, 4, 8, 12], bitsOf ok k 4 ≠ 15))) ∧
  (∀ s : State,
    (s.chip.flag FLM_STATUS_UP = true → Completes .timeSyncSend s fun c =>
      c.arch.toM.ready = s.chip.arch.toM.ready ++ [⟨2, 0, 0, 0, payloadOf [s.chip.nowH]⟩] ∧ c = { s.chip with arch := c.arch }) ∧
    (s.chip.flag FLM_STATUS_LEDGER_ALIGNED = true → Completes .timeSyncTimeout s fun c =>
      c.flag FLM_STATUS_LEDGER_ALIGNED = false ∧ c.flag FLM_EVENT_SKEW_EXCEEDED = true ∧ c.arch.goodExchanges = 0 ∧
      (c.weir (weirKey 6 0)).items = (s.chip.weir (weirKey 6 0)).items ++
        [(logWords s.chip.nowH 0x0104 .h [s.chip.fld FLM_LEDGER_SKEW_SKEW]).map (fun w => ⟨w, false⟩)] ∧
      s.chip.fieldsKept [FLM_STATUS_LEDGER_ALIGNED, FLM_EVENT_SKEW_EXCEEDED] c ∧ s.chip.bytesKept c) ∧
    (∀ (p : Rx) (a : Agent) (off k : Nat) (r : RegDef) (v : Word),
      Arrives s.chip .toM 3 p → isMdie off = true → off % 4 = 0 → s.chip.flag GEN_CONFIG_SEALED = true →
      regPlace (agentPort a) off = some (k, r, false) → r.wide = false → s.chip.absent k = false → (off - 0x410000) % 0x4000 ≠ 0x1c →
      Completes (.regReq p a false off 4 v) s fun c =>
        c.arch.toH.ready = s.chip.arch.toH.ready ++ [⟨4, 0, 0, rxTag p, payloadOf [((s.chip.regNow k r).setWidth 32).setWidth 64]⟩] ∧
        c.arch.toM.expSeq = (s.chip.arch.toM.expSeq + 1) % 4096 ∧ c = { s.chip with arch := c.arch }))

/-! ### The Tolek instructions -/

/-- The instructions whose result is a value (R306 to R308, Table 7.8): the exact result, rounded to nearest with ties away from zero where
fraction bits are dropped, and saturated with SAT; one value register changes, and the cost is that of Table 7.7.
The accumulator instructions (R308, R316, Table 7.8): products are added exactly, the result saturates with SAT, and INT adds only where the hold
flag does not forbid the product's direction. -/
def Obligations.TolekValues : Prop :=
  (∀ (st : State) (e : TolekEngine) (d s t : VReg) (k : Coef) (n : Fin 32) (a : Acc),
    let x := st.chip.tolek e
    ∀ r ∈ ([(.tAdd e d s t, tWord 0x10 (fmtVVV d s t), 1, x.int s + x.int t),
        (.tSub e d s t, tWord 0x11 (fmtVVV d s t), 1, x.int s - x.int t),
        (.tMul e d s t, tWord 0x12 (fmtVVV d s t), 2, rndShift (x.int s * x.int t) 28),
        (.tMulk e d s k, tWord 0x13 (fmtVK d s k), 2, rndShift (x.int s * x.coefInt k) 28),
        (.tNeg e d s, tWord 0x14 (fmtVVV d s 0), 1, -x.int s),
        (.tAbs e d s, tWord 0x15 (fmtVVV d s 0), 1, |x.int s|),
        (.tMin e d s t, tWord 0x16 (fmtVVV d s t), 1, min (x.int s) (x.int t)),
        (.tMax e d s t, tWord 0x17 (fmtVVV d s t), 1, max (x.int s) (x.int t)),
        (.tClamp e d s t, tWord 0x18 (fmtVVV d s t), 1, max (-|x.int t|) (min |x.int t| (x.int s))),
        (.tShl e d s n, tWord 0x19 (fmtSH d s n), 1, x.int s * 2 ^ n.val),
        (.tShr e d s n, tWord 0x1A (fmtSH d s n), 1, rndShift (x.int s) n),
        (.tRnd e d a, tWord 0x2E (fmtAC a 0 d 0 0), 1, rndShift (x.acc a) 28)] : List (Instr × Q × Nat × Int)),
      TolekAt st.chip e r.2.1 → Completes r.1 st fun c => ∃ x', TolekGoes st.chip c e r.2.2.1 x' ∧ TookInt x x' d r.2.2.2) ∧
  (∀ (st : State) (e : TolekEngine) (a b : Acc) (s t : VReg) (k : Coef),
    let x := st.chip.tolek e
    (∀ r ∈ ([(.tClr e a, tWord 0x28 (fmtAC a 0 0 0 0), 1, 0),
        (.tLda e a s, tWord 0x29 (fmtAC a 0 s 0 0), 1, x.int s * 2 ^ 28),
        (.tMac e a s k, tWord 0x2A (fmtAC a 0 s 0 k), 2, x.acc a + x.int s * x.coefInt k),
        (.tMacv e a s t, tWord 0x2B (fmtAC a 0 s t 0), 2, x.acc a + x.int s * x.int t),
        (.tMsu e a s k, tWord 0x2C (fmtAC a 0 s 0 k), 2, x.acc a - x.int s * x.coefInt k),
        (.tAdda e a b, tWord 0x2D (fmtAC a b 0 0 0), 1, x.acc a + x.acc b)] : List (Instr × Q × Nat × Int)),
      TolekAt st.chip e r.2.1 → Completes r.1 st fun c => ∃ x', TolekGoes st.chip c e r.2.2.1 x' ∧ TookAcc x x' a r.2.2.2) ∧
    (TolekAt st.chip e (tWord 0x2F (fmtAC a 0 s 0 k)) →
      let p := x.int s * x.coefInt k
      let adds := x.hold a = 0 ∨ x.hold a = 1 ∧ p < 0 ∨ x.hold a = -1 ∧ 0 < p
      Completes (.tInt e a s k) st fun c => ∃ x', TolekGoes st.chip c e 2 x' ∧ (adds → TookAcc x x' a (x.acc a + p)) ∧ (¬ adds → x' = x)))

/-- The instructions whose result is a word (Table 7.8): raw-word instructions wrap and never saturate (R307); loads read the data word, the
coefficient of the bank in force or the input port. Reads of one port in one run agree, since nothing but a tick changes it (R311). -/
def Obligations.TolekWords : Prop :=
  ∀ (st : State) (e : TolekEngine) (d s t v : VReg) (k : Coef) (n : Fin 32) (imm : BitVec 16) (addr : BitVec 11) (port : BitVec 6),
    let x := st.chip.tolek e
    ∀ r ∈ ([(.tMov e d s, tWord 0x01 (fmtVVV d s 0), x.val s),
        (.tLih e d imm, tWord 0x02 (fmtIM d imm.toNat), imm ++ 0#16),
        (.tLil e d imm, tWord 0x03 (fmtIM d imm.toNat), (x.val d).extractLsb' 16 16 ++ imm),
        (.tLdk e d k, tWord 0x04 (fmtVK d 0 k), x.coef x.ctx.bank k),
        (.tLd e d addr, tWord 0x05 (fmtMM d 0 addr.toNat), st.chip.tData e addr.toNat),
        (.tLdx e d v addr, tWord 0x07 (fmtMM d v addr.toNat), st.chip.tData e (addr + (x.val v).setWidth 11).toNat),
        (.tAnd e d s t, tWord 0x20 (fmtVVV d s t), x.val s &&& x.val t),
        (.tOr e d s t, tWord 0x21 (fmtVVV d s t), x.val s ||| x.val t),
        (.tXor e d s t, tWord 0x22 (fmtVVV d s t), x.val s ^^^ x.val t),
        (.tSrl e d s n, tWord 0x23 (fmtSH d s n), x.val s >>> n.val),
        (.tSll e d s n, tWord 0x24 (fmtSH d s n), x.val s <<< n.val),
        (.tAddw e d s t, tWord 0x25 (fmtVVV d s t), x.val s + x.val t)] : List (Instr × Q × Q)),
      (TolekAt st.chip e r.2.1 → Completes r.1 st fun c => ∃ x', TolekGoes st.chip c e 1 x' ∧ TookWord x x' d r.2.2) ∧
    (TolekAt st.chip e (tWord 0x09 (fmtPT d port.toNat)) → (25 ≤ port.toNat ∨ (st.chip.pair (pairOf e)).delivered = true) →
      Completes (.tIn e d port) st fun c => ∃ x', TolekGoes st.chip c e 1 x' ∧ TookWord x x' d (st.chip.tInput e port.toNat)) ∧
    (port.toNat < 25 → (st.chip.pair (pairOf e)).delivered = false → Completes (.tIn e d port) st fun c => c = st.chip)

/-- R315: DIV by 0 and SQRT of a negative value, their results and their events; neither is a fault: the run goes on and the engine keeps its
role. -/
def Obligations.TolekDivSqrtCorners : Prop :=
  ∀ (st : State) (e : TolekEngine) (d s t : VReg),
    let x := st.chip.tolek e
    (x.int t = 0 → TolekAt st.chip e (tWord 0x1B (fmtVVV d s t)) →
      Completes (.tDiv e d s t) st fun c =>
        (c.tolek e).int d = (if 0 < x.int s then 8 * 2 ^ 28 - 1 else if x.int s < 0 then -8 * 2 ^ 28 else 0) ∧
        c.flag (LE_ENG_EVENT_DIV_ZERO e) = true ∧ st.chip.fieldsKept [LE_ENG_EVENT_DIV_ZERO e] c ∧
        (c.tolek e).running = true ∧ (c.tolek e).fault = x.fault ∧ (c.tolek e).role = x.role ∧ (c.tolek e).pc = x.pc + 1) ∧
    (x.int s < 0 → TolekAt st.chip e (tWord 0x1C (fmtVVV d s 0)) →
      Completes (.tSqrt e d s) st fun c =>
        (c.tolek e).int d = 0 ∧ c.flag (LE_ENG_EVENT_SQRT_NEG e) = true ∧ st.chip.fieldsKept [LE_ENG_EVENT_SQRT_NEG e] c ∧
        (c.tolek e).running = true ∧ (c.tolek e).fault = x.fault ∧ (c.tolek e).role = x.role ∧ (c.tolek e).pc = x.pc + 1)

/-- DIV and SQRT elsewhere: the quotient and the root, to the nearest value (R307, Table 7.8), and LIM, which limits to ±abs(kn) and sets the
hold flag of the accumulator it names, and no SAT (R317).
Rounding as R307 gives it: to the nearest multiple of 2^k, ties away from zero. -/
def Obligations.TolekDivSqrtLim : Prop :=
  (∀ (st : State) (e : TolekEngine) (d s t : VReg) (k : Coef) (a : Acc),
    let x := st.chip.tolek e
    (x.int t ≠ 0 → TolekAt st.chip e (tWord 0x1B (fmtVVV d s t)) →
      Completes (.tDiv e d s t) st fun c => ∃ x' y, TolekGoes st.chip c e 16 x' ∧ TookInt x x' d y ∧
        2 * |x.int s * 2 ^ 28 - y * x.int t| ≤ |x.int t| ∧ (2 * |x.int s * 2 ^ 28 - y * x.int t| = |x.int t| → |x.int s * 2 ^ 28| < |y * x.int t|)) ∧
    (0 ≤ x.int s → TolekAt st.chip e (tWord 0x1C (fmtVVV d s 0)) →
      Completes (.tSqrt e d s) st fun c => ∃ x' y, TolekGoes st.chip c e 16 x' ∧ TookInt x x' d y ∧ 0 ≤ y ∧
        y * (y - 1) < x.int s * 2 ^ 28 + (if y = 0 then 1 else 0) ∧ x.int s * 2 ^ 28 ≤ y * (y + 1)) ∧
    (TolekAt st.chip e (tWord 0x30 (fmtVKA d s k a)) →
      Completes (.tLim e d s k a) st fun c => ∃ x', TolekGoes st.chip c e 1 x' ∧
        x'.int d = max (-|x.coefInt k|) (min |x.coefInt k| (x.int s)) ∧
        x'.hold a = (if |x.coefInt k| < x.int s then 1 else if x.int s < -|x.coefInt k| then -1 else 0) ∧
        (∀ r, r ≠ d.val → x'.val r = x.val r) ∧ (∀ b, b ≠ a.val → x'.hold b = x.hold b) ∧
        x' = { x with ctx := { x.ctx with v := x'.ctx.v, h := x'.ctx.h } })) ∧
  (∀ (x : Int) (k : Nat), 0 < k →
    let y := rndShift x k
    2 * |x - y * 2 ^ k| ≤ 2 ^ k ∧ (2 * |x - y * 2 ^ k| = 2 ^ k → |x| < |y * 2 ^ k|))

/-- NOP, OUT and the stores (R303, R309, R311, Table 7.8): OUT leaves the last value written to a port; a store to program data changes one data word,
and one to a parameter word changes none and sets PARAM_STORE. -/
def Obligations.TolekStores : Prop :=
  ∀ (st : State) (e : TolekEngine) (d v : VReg) (addr : BitVec 11) (port : BitVec 6),
    let x := st.chip.tolek e
    (TolekAt st.chip e (tWord 0x00 0) → Completes (.tNop e) st fun c => TolekGoes st.chip c e 1 x) ∧
    (TolekAt st.chip e (tWord 0x0A (fmtPT d port.toNat)) → Completes (.tOut e d port) st fun c => ∃ x', TolekGoes st.chip c e 1 x' ∧
      (port.toNat < 16 → Cells.get (fun _ => 0) x'.outs port.toNat = x.val d ∧ port.toNat ∈ x'.written) ∧
      (∀ j, j ≠ port.toNat ∨ 16 ≤ port.toNat → Cells.get (fun _ => 0) x'.outs j = Cells.get (fun _ => 0) x.outs j ∧ (j ∈ x'.written ↔ j ∈ x.written)) ∧
      x' = { x with outs := x'.outs, written := x'.written }) ∧
    (∀ (i : Instr) (w : Q) (m : BitVec 11),
      (i = .tSt e d addr ∧ w = tWord 0x06 (fmtMM d 0 addr.toNat) ∧ m = addr ∨
        i = .tStx e d v addr ∧ w = tWord 0x08 (fmtMM d v addr.toNat) ∧ m = addr + (x.val v).setWidth 11) → TolekAt st.chip e w →
      Completes i st fun c =>
        (c.tolek e).pc = x.pc + 1 ∧ (c.tolek e).stores = x.stores ++ [(m.toNat, x.val d)] ∧
        (m.toNat < 1792 → c.tData e m.toNat = x.val d ∧ c.regs = st.chip.regs) ∧
        (1792 ≤ m.toNat → c.flag (LE_ENG_EVENT_PARAM_STORE e) = true ∧ st.chip.fieldsKept [LE_ENG_EVENT_PARAM_STORE e] c) ∧
        (∀ j, j ≠ m.toNat → c.tData e j = st.chip.tData e j) ∧ (∀ j, j ≠ e.val → c.tolek j = st.chip.tolek j) ∧
        (c.tolek e).ctx.v = x.ctx.v ∧ (c.tolek e).ctx.a = x.ctx.a ∧ c = { st.chip with regs := c.regs, servo := c.servo })

/-- LOOP, CALL, RET and END (R318, R319): a loop of depth 1 or 2 begins; its end goes back to its first instruction while iterations are left;
a call pushes the next address and RET goes back to it, and loops begun in the routine are gone (log entry 132, the model's reading); END ends the run and clears both stacks, and the run's signature is formed (R418).
Branches, BR to BBC: the target where the condition holds, else the next instruction; 2 units, taken or not (Tables 7.7 and 7.8). Nothing but
the program counter and the units changes. -/
def Obligations.TolekFlow : Prop :=
  (∀ (st : State) (e : TolekEngine) (count : BitVec 8) (last target : BitVec 12),
    let x := st.chip.tolek e
    let only := fun (c : Chip) => (∀ j, j ≠ e.val → c.tolek j = st.chip.tolek j) ∧ c = { st.chip with servo := { st.chip.servo with engines := c.servo.engines } }
    (TolekAt st.chip e (tWord 0x3B (fmtLP count.toNat last.toNat)) → x.loops.length < 2 → count ≠ 0 → Completes (.tLoop e count last) st fun c =>
      c.tolek e = { x with loops := ⟨x.pc + 1, last.toNat, count.toNat - 1, x.calls.length⟩ :: x.loops, pc := x.pc + 1, units := x.units + 1 } ∧ only c) ∧
    (x.running = true → x.ended = false → x.word x.pc = tWord 0x00 0 → ∀ fr rest, x.loops = fr :: rest → fr.last = x.pc → fr.depth = x.calls.length → 0 < fr.left → fr.first < 4096 →
      Completes (.tNop e) st fun c =>
        c.tolek e = { x with loops := { fr with left := fr.left - 1 } :: rest, pc := fr.first, units := x.units + 2 } ∧ only c) ∧
    (TolekAt st.chip e (tWord 0x3C (fmtJ target.toNat)) → x.calls.length < 4 → Completes (.tCall e target) st fun c =>
      c.tolek e = { x with calls := (x.pc + 1) :: x.calls, pc := target.toNat, units := x.units + 2 } ∧ only c) ∧
    (TolekAt st.chip e (tWord 0x3D 0) → ∀ r rest kept, x.calls = r :: rest → kept = x.loops.dropWhile (fun fr => decide (rest.length < fr.depth)) → r < 4096 →
      (∀ fr ∈ kept.head?, fr.last + 1 ≠ r) →
      Completes (.tRet e) st fun c => c.tolek e = { x with calls := rest, loops := kept, pc := r, units := x.units + 2 } ∧ only c) ∧
    (TolekAt st.chip e (tWord 0x3E 0) → Completes (.tEnd e) st fun c =>
      (c.tolek e).running = false ∧ (c.tolek e).ended = true ∧ (c.tolek e).calls = [] ∧ (c.tolek e).loops = [] ∧
      (c.tolek e).sign = x.signature ∧ (c.tolek e).ctx = x.ctx ∧ only c)) ∧
  (∀ (st : State) (e : TolekEngine) (s t : VReg) (bit : Fin 32) (target : BitVec 12),
    let x := st.chip.tolek e
    ∀ r ∈ ([(.tBr e target, tWord 0x34 (fmtJ target.toNat), true),
        (.tBeq e s t target, tWord 0x35 (fmtBR s t 0 target.toNat), x.val s == x.val t),
        (.tBne e s t target, tWord 0x36 (fmtBR s t 0 target.toNat), x.val s != x.val t),
        (.tBlt e s t target, tWord 0x37 (fmtBR s t 0 target.toNat), decide (x.int s < x.int t)),
        (.tBge e s t target, tWord 0x38 (fmtBR s t 0 target.toNat), decide (x.int t ≤ x.int s)),
        (.tBbs e s bit target, tWord 0x39 (fmtBR s 0 bit target.toNat), (x.val s).getLsbD bit),
        (.tBbc e s bit target, tWord 0x3A (fmtBR s 0 bit target.toNat), !(x.val s).getLsbD bit)] : List (Instr × Q × Bool)),
      TolekAt st.chip e r.2.1 → Completes r.1 st fun c =>
        c.tolek e = { x with pc := if r.2.2 then target.toNat else x.pc + 1, units := x.units + 2 } ∧
        (∀ j, j ≠ e.val → c.tolek j = st.chip.tolek j) ∧ c = { st.chip with servo := { st.chip.servo with engines := c.servo.engines } })

/-- An internal fault (R296): the engine stops at once, shows FAULT and INTERNAL_FAULT, and takes no further part; so do a third loop, a fifth
call, a RET without a CALL (R318, R319), and a run past the end of program memory. -/
def Obligations.TolekFaults : Prop :=
  ∀ (st : State) (e : TolekEngine) (count : BitVec 8) (last target : BitVec 12) (i : Instr),
    let x := st.chip.tolek e
    (i = .internalFault e ∨ i = .tLoop e count last ∧ TolekAt st.chip e (tWord 0x3B (fmtLP count.toNat last.toNat)) ∧ 2 ≤ x.loops.length ∨
      i = .tCall e target ∧ TolekAt st.chip e (tWord 0x3C (fmtJ target.toNat)) ∧ 4 ≤ x.calls.length ∨
      i = .tRet e ∧ TolekAt st.chip e (tWord 0x3D 0) ∧ x.calls = [] ∨
      i = .tNop e ∧ x.running = true ∧ x.ended = false ∧ x.pc = 4095 ∧ x.word 4095 = tWord 0x00 0 ∧ x.loops = []) →
    Completes i st fun c =>
      (c.tolek e).running = false ∧ (c.tolek e).role = 4 ∧ (c.tolek e).fault = true ∧ c.flag (LE_ENG_EVENT_INTERNAL_FAULT e) = true ∧
      (c.tolek e).ctx = x.ctx ∧ (∀ j, j ≠ e.val → c.tolek j = st.chip.tolek j) ∧ st.chip.fieldsKept [LE_ENG_EVENT_INTERNAL_FAULT e] c ∧
      c = { st.chip with regs := c.regs, servo := c.servo }

/-! ### Engine pairs -/

/-- LOOP_TICK and MOTION_TICK of a pair with one committing engine, whose run has reached END with both heartbeat paths alive (R297, R298,
R304): the period commits. The gate presents what the run wrote over what was there, CONSEC returns to 0, the period counts, and the next
run begins at the entry in force.
A tick of a motion pair that meets a run without END is an overrun (R299, R300): the gate holds its outputs, the engine's state of the tick
before is restored (its bank is then the region's), OVERRUN and CONSEC count, and at OVERRUN_MAX the pair escalates. -/
def Obligations.TickCommits : Prop :=
  (∀ (s : State) (q a : Nat) (i : Instr) (beams : List BeamIn) (t : TickIn) (u l : AxisIn),
    ((∃ p : Pickup, q = p.val ∧ i = .loopTick p t beams ∧ beams.length = 8 ∧ (∀ b ∈ beams, b.level ≤ 16384 ∧ b.clips ≤ 15000) ∧
        (s.chip.wch p).pass = none ∧ (s.chip.cal p).run = none ∧ (s.chip.seqr p).script = []) ∨
      ∃ x : Station, q = 16 + x.val ∧ i = .motionTick x t u l) →
    s.chip.flag (LE_PAIR_CTRL_RUN q) = true → s.chip.committing q = [a] → s.chip.activeEng q = some a → (s.chip.pair q).hasRun = true →
    (s.chip.pair q).resident = false → (s.chip.pair q).shadow = none → (s.chip.tolek a).ended = true → (s.chip.tolek a).fault = false →
    (s.chip.tolek (otherEng a)).fault = false → (s.chip.tolek (otherEng a)).role ≠ 3 →
    t.fab0 = true → t.wire0 = true → t.fab1 = true → t.wire1 = true →
    Completes i s fun c =>
      (c.pair q).period = (s.chip.pair q).period + 1 ∧ c.fld (LE_PAIR_STATUS_CONSEC q) = 0 ∧
      (∀ k < gatedPorts q, Cells.get (fun _ => 0) (c.pair q).gate k =
        if k ∈ (s.chip.tolek a).written then Cells.get (fun _ => 0) (s.chip.tolek a).outs k else Cells.get (fun _ => 0) (s.chip.tolek a).last k) ∧
      (c.tolek a).running = true ∧ (c.tolek a).ended = false ∧ (c.tolek a).units = 0 ∧
      (c.tolek a).pc = ((s.chip.tolek a).entries.getD (s.chip.fld (LE_PAIR_CTRL_ENTRY q)) none).getD 0) ∧
  (∀ (s : State) (x : Station) (a : Nat) (t : TickIn) (u l : AxisIn),
    let q := 16 + x.val
    s.chip.flag (LE_PAIR_CTRL_RUN q) = true → s.chip.committing q = [a] → s.chip.activeEng q = some a → (s.chip.pair q).hasRun = true →
    (s.chip.pair q).resident = false → (s.chip.tolek a).ended = false → (s.chip.tolek a).fault = false →
    (s.chip.tolek (otherEng a)).fault = false → (s.chip.tolek (otherEng a)).role ≠ 3 →
    t.fab0 = true → t.wire0 = true → t.fab1 = true → t.wire1 = true →
    Completes (.motionTick x t u l) s fun c =>
      (c.pair q).gate = (s.chip.pair q).gate ∧ (c.pair q).held = true ∧ (c.pair q).period = (s.chip.pair q).period ∧
      c.flag (LE_PAIR_EVENT_OVERRUN q) = true ∧ c.fld (LE_PAIR_STATUS_CONSEC q) = min (s.chip.fld (LE_PAIR_STATUS_CONSEC q) + 1) 15 ∧
      (s.chip.fld (LE_PAIR_CTRL_OVERRUN_MAX q) ≤ min (s.chip.fld (LE_PAIR_STATUS_CONSEC q) + 1) 15 → c.flag (LE_PAIR_EVENT_ESCALATED q) = true) ∧
      (c.tolek a).ctx.v = (s.chip.tolek a).saved.v ∧ (c.tolek a).ctx.data = (s.chip.tolek a).saved.data ∧ (c.tolek a).running = true)

/-- LE_CMD and LE_PARAM_WRITE (R303, R304): a command joins the queue of four with the argument of that moment, or is lost with CMD_LOST; a
parameter write waits for the tick, and until then LE_PARAMi reads its earlier value. -/
def Obligations.PairWrites : Prop :=
  ∀ (s : State) (q : Pair) (i : Fin 256) (v : Q),
    ((s.chip.pair q).cmds.length < 4 → Completes (.leCmd q v) s fun c =>
      (c.pair q).cmds = (s.chip.pair q).cmds ++ [(v, BitVec.ofNat 32 (s.chip.fld (LE_CMD_ARG_ARG q)))] ∧
      (∀ j, j ≠ q.val → c.pair j = s.chip.pair j) ∧ c = { s.chip with servo := { s.chip.servo with pairs := c.servo.pairs } }) ∧
    (4 ≤ (s.chip.pair q).cmds.length → Completes (.leCmd q v) s fun c =>
      c.flag (LE_PAIR_EVENT_CMD_LOST q) = true ∧ s.chip.fieldsKept [LE_PAIR_EVENT_CMD_LOST q] c ∧ c = { s.chip with regs := c.regs }) ∧
    (Completes (.leParamWrite q i v) s fun c =>
      ((c.pair q).params.filter (fun x => x.1 == i.val)) = [(i.val, v)] ∧ c.regs = s.chip.regs ∧
      ((c.pair q).params.filter (fun x => x.1 != i.val)) = ((s.chip.pair q).params.filter (fun x => x.1 != i.val)) ∧
      (∀ j, j ≠ q.val → c.pair j = s.chip.pair j) ∧ c = { s.chip with servo := { s.chip.servo with pairs := c.servo.pairs } })

/-- SERVO_VALUES_DELIVERED and MOTION_VALUES_DELIVERED (R133 to R138, R374): the values of the period reach both engines, which may read them from
then on. While SV_EN is 0 every value but FLAGS and TH is 0 and SV_OFF is 1; a zero phase current reads 0 and a code of VBUS is scaled by 2^16. -/
def Obligations.ValuesDelivered : Prop :=
  (∀ (s : State) (p : Pickup) (w : List ServoSample), w.length = 125 →
    Completes (.servoValuesDelivered p w) s fun c =>
      (c.pair p).delivered = true ∧ c.fld (AFE_PU_STATUS_SV_OFF p) = (!s.chip.flag (AFE_PU_CTRL_SV_EN p)).toNat ∧
      (s.chip.flag (AFE_PU_CTRL_SV_EN p) = false → ∀ k < 23, Cells.get (fun _ => 0) (c.pair p).inputs k = 0) ∧
      Cells.get (fun _ => 0) (c.pair p).inputs 23 = BitVec.ofNat 32 (s.chip.fld (AFE_TH_VALUE_CODE p) * 2 ^ 16) ∧
      (∀ k, 25 ≤ k → Cells.get (fun _ => 0) (c.pair p).inputs k = Cells.get (fun _ => 0) (s.chip.pair p).inputs k) ∧
      s.chip.fieldsKept [AFE_PU_STATUS_SV_OFF p, AFE_PU_STATUS_LOW_SUM p, AFE_PU_STATUS_LOW_SIDE p, AFE_PU_STATUS_SV_CLIP p] c ∧
      (∀ j, j ≠ p.val → c.pair j = s.chip.pair j) ∧ s.chip.bytesKept c) ∧
  (∀ (s : State) (x : Station) (v : MotionIn), v.vbus ≤ 204750 → v.iua ≤ 204750 → v.iub ≤ 204750 → v.ila ≤ 204750 → v.ilb ≤ 204750 →
    Completes (.motionValuesDelivered x v) s fun c =>
      let got := fun k => ((Cells.get (fun _ => 0) (c.pair (16 + x)).inputs k : Q)).toInt
      (c.pair (16 + x)).delivered = true ∧ got 0 = ((v.iu.toNat : Int) - 2048) * 2 ^ 17 ∧ got 1 = ((v.iv.toNat : Int) - 2048) * 2 ^ 17 ∧
      got 2 = ((v.iw.toNat : Int) - 2048) * 2 ^ 17 ∧ got 3 = v.eu.toNat * 2 ^ 16 ∧ got 4 = v.ev.toNat * 2 ^ 16 ∧ got 5 = v.ew.toNat * 2 ^ 16 ∧
      (∀ j, j ≠ 16 + x.val → c.pair j = s.chip.pair j) ∧ s.chip.bytesKept c)

/-- STATE_COPY_DONE and ENGINE_TEST_DONE (R421, R423): after a copy the LOADING engine is STANDBY, in lockstep with the ACTIVE one; a passed test
lets the engine rejoin through a copy, a failed one leaves it in FAULT and is logged.
RETEST, SWAP_DUE, PAIR_SWAP_NOW and SWAP_SKIPPED (R423, R430 to R432): a test or a swap is asked for, of one pair and nothing else; after 1 s
without the swap the request ends, and is counted. -/
def Obligations.PairRepairs : Prop :=
  ((∀ (s : State) (q : Pair) (a : Nat), s.chip.pairMode q = 2 → (s.chip.pair q).shadow = none → s.chip.activeEng q = some a →
    Completes (.stateCopyDone q) s fun c =>
      let r := c.tolek (otherEng a)
      r.role = 2 ∧ r.ctx = (s.chip.tolek a).ctx ∧ r.saved = (s.chip.tolek a).saved ∧ r.pc = (s.chip.tolek a).pc ∧ r.calls = (s.chip.tolek a).calls ∧
      r.loops = (s.chip.tolek a).loops ∧ r.outs = (s.chip.tolek a).outs ∧ r.last = (s.chip.tolek a).last ∧ r.sign = (s.chip.tolek a).sign ∧
      r.prog = (s.chip.tolek (otherEng a)).prog ∧ c.tolek a = s.chip.tolek a ∧ (∀ j, j ≠ otherEng a → c.tolek j = s.chip.tolek j) ∧
      c = { s.chip with servo := { s.chip.servo with engines := c.servo.engines } }) ∧
  (∀ (s : State) (e : TolekEngine), (s.chip.pair (pairOf e)).testing = some e.val →
    (s.chip.pairMode (pairOf e) ≠ 3 → Completes (.engineTestDone e true) s fun c =>
      (c.tolek e).role = 3 ∧ (c.tolek e).fault = false ∧ (c.pair (pairOf e)).testing = none ∧ c.flag (WMM_PAIR_EVENT_TEST_PASS (pairOf e)) = true ∧
      s.chip.fieldsKept [WMM_PAIR_EVENT_TEST_PASS (pairOf e)] c ∧ (∀ j, j ≠ e.val → c.tolek j = s.chip.tolek j) ∧ s.chip.bytesKept c) ∧
    (Completes (.engineTestDone e false) s fun c =>
      (c.tolek e).role = 4 ∧ (c.pair (pairOf e)).testing = none ∧ c.flag (WMM_PAIR_EVENT_TEST_FAIL (pairOf e)) = true ∧
      (c.weir (weirKey 6 0)).items = (s.chip.weir (weirKey 6 0)).items ++
        [(logWords s.chip.now 0x0604 .m [pairOf e, e]).map (fun w => ⟨w, false⟩)] ∧
      s.chip.fieldsKept [WMM_PAIR_EVENT_TEST_FAIL (pairOf e)] c ∧ (∀ j, j ≠ e.val → c.tolek j = s.chip.tolek j) ∧ s.chip.bytesKept c))) ∧
  (∀ (s : State) (q : Pair),
    (∀ e, (s.chip.pair q).testing = none → [evenEng q, oddEng q].find? (fun e => (s.chip.tolek e).role == 4) = some e →
      Completes (.retest q) s fun c =>
        (c.pair (pairOf e)).testing = some e ∧ c.regs = s.chip.regs ∧ c.servo.engines = s.chip.servo.engines ∧ s.chip.bytesKept c) ∧
    (∀ i : Instr, i = .pairSwapNow q ∨ i = .swapDue q ∧ s.chip.flag (WMM_PAIR_CTRL_SWAP_EN q) = true →
      Completes i s fun c =>
        (c.pair q).swap = true ∧ c.regs = s.chip.regs ∧ c.servo.engines = s.chip.servo.engines ∧ (∀ j, j ≠ q.val → c.pair j = s.chip.pair j) ∧
        s.chip.bytesKept c) ∧
    ((s.chip.pair q).swap = true → Completes (.swapSkipped q) s fun c =>
      (c.pair q).swap = false ∧ c.flag (WMM_PAIR_EVENT_SWAP_SKIPPED q) = true ∧
      c.fld (WMM_PAIR_SKIPS_COUNT q) = min (s.chip.fld (WMM_PAIR_SKIPS_COUNT q) + 1) (2 ^ (WMM_PAIR_SKIPS_COUNT q).w - 1) ∧
      s.chip.fieldsKept [WMM_PAIR_EVENT_SWAP_SKIPPED q, WMM_PAIR_SKIPS_COUNT q] c ∧ c.servo.engines = s.chip.servo.engines ∧ s.chip.bytesKept c))

/-! ### Optical front end -/

/-- ACTUATOR_FRAME (R143 to R147, R447): the next frame carries the next sequence number, the link with the next level selected, the enables, twelve
set-points and their CRC-16; LAST_SETPOINT reads the set-points sent. AFE_SETTING_APPLY (R125): written settings of a lane with no gain step asked
for come into force, PENDING ends. TH_CONVERSION (R140, R580): the code is latched; OPEN from 4,000 up, SHORT from 16 down. -/
def Obligations.FrontEndFrames : Prop :=
  ∀ (s : State),
    (∀ x : Station, s.chip.flag (AFE_LINK_STATUS_RUNNING x) = true → Completes (.actuatorFrame x) s fun c =>
      let seq := if (s.chip.link x).sent then (s.chip.fld (AFE_LINK_STATUS_SEQ x) + 1) % 256 else 0
      let wsel := if (s.chip.link x).sent then (s.chip.fld (AFE_LINK_STATUS_WSEL x) + 1) % 3 else 0
      let f := (c.link x).frame
      c.fld (AFE_LINK_STATUS_SEQ x) = seq ∧ c.fld (AFE_LINK_STATUS_WSEL x) = wsel ∧ c.flag (AFE_LINK_STATUS_SOURCE x) = (s.chip.link x).parked ∧
      (c.link x).sent = true ∧ f.take 2 = [BitVec.ofNat 8 seq, BitVec.ofNat 8 (x.val + 8 * wsel)] ∧ f.length = 29 ∧
      f.drop 27 = leBytes 2 (crc16 (f.take 27)).toNat ∧
      (∀ i < 6, (f.drop (3 + 4 * i)).take 4 =
        leBytes 2 (c.fld (AFE_LINK_LAST_SETPOINT_LO x i)) ++ leBytes 2 (c.fld (AFE_LINK_LAST_SETPOINT_HI x i))) ∧
      c.fld (AFE_LINK_FRAMES_COUNT x) = min (s.chip.fld (AFE_LINK_FRAMES_COUNT x) + 1) (2 ^ (AFE_LINK_FRAMES_COUNT x).w - 1) ∧
      (∀ j, j ≠ x.val → c.link j = s.chip.link j) ∧ s.chip.bytesKept c) ∧
    (∀ l : Lane, s.chip.flag (AFE_LANE_CFG_PENDING (l.val / 8) (l.val % 8)) = true → (s.chip.afeLane l).step = none →
      Completes (.afeSettingApply l) s fun c =>
        let p := l.val / 8
        let k := l.val % 8
        c.afeLane l = ⟨s.chip.fld (AFE_LANE_CFG_GAIN p k), s.chip.fld (AFE_LANE_CFG_CORNER p k), s.chip.fld (AFE_LANE_CFG_BOOST p k),
          s.chip.fld (AFE_LANE_OFFSET_OFFSET p k), none, (s.chip.afeLane l).ref⟩ ∧
        c.flag (AFE_LANE_CFG_PENDING p k) = false ∧ s.chip.fieldsKept [AFE_LANE_CFG_PENDING p k] c ∧
        c = { s.chip with regs := c.regs, afe := { s.chip.afe with lanes := c.afe.lanes } }) ∧
    (∀ (p : Pickup) (code : BitVec 12), s.chip.flag (AFE_PU_CTRL_TH_EN p) = true → Completes (.thConversion p code) s fun c =>
      c.fld (AFE_TH_VALUE_CODE p) = code.toNat ∧ c.flag (AFE_PU_STATUS_TH_OPEN p) = decide (4000 ≤ code.toNat) ∧
      c.flag (AFE_PU_STATUS_TH_SHORT p) = decide (code.toNat ≤ 16) ∧ (4000 ≤ code.toNat ∨ code.toNat ≤ 16 → c.flag AFE_EVENT_TH_FAULT = true) ∧
      s.chip.fieldsKept [AFE_TH_VALUE_CODE p, AFE_PU_STATUS_TH_OPEN p, AFE_PU_STATUS_TH_SHORT p, AFE_EVENT_TH_FAULT] c ∧
      c = { s.chip with regs := c.regs })

/-- The sampling PLL (R129 to R132). SPLL_UNLOCK and RELOCK while no pass and no slot is in progress: LOCKED is 0, FALLBACK 1, every pickup reads
PLL_UNLOCKED, the loss is counted and logged, and reads wait. SPLL_LOCKED: the flags return. SPLL_RESUME: reads and writes resume. SPLL_FAIL, with no
station up and no host command outstanding: the failure is logged, and no state changes. -/
def Obligations.SamplingPll : Prop :=
  ∀ (s : State) (locked : Bool), s.chip.flag AFE_PLL_STATUS_LOCKED = locked →
    (∀ i : Instr, i = .spllUnlock ∨ i = .relock → locked = true → s.chip.flag FLM_STATUS_LEDGER_ALIGNED = false →
      (∀ p < 16, (s.chip.wch p).pass = none) → (∀ l < 128, (s.chip.lane l).cur = none ∧ s.chip.frameOf l = none) →
      Completes i s fun c =>
        c.flag AFE_PLL_STATUS_LOCKED = false ∧ c.flag AFE_PLL_STATUS_FALLBACK = true ∧ c.flag AFE_EVENT_PLL_UNLOCK = true ∧
        c.fld AFE_UNLOCK_COUNT_COUNT = min (s.chip.fld AFE_UNLOCK_COUNT_COUNT + 1) (2 ^ AFE_UNLOCK_COUNT_COUNT.w - 1) ∧
        c.afe.resumed = false ∧ (∀ p < 16, c.flag (AFE_PU_STATUS_PLL_UNLOCKED p) = true) ∧ (∀ l < 128, (c.lane l).landNext = true) ∧
        (c.weir (weirKey 6 0)).items = (s.chip.weir (weirKey 6 0)).items ++ [(logWords s.chip.now 0x0201 .m []).map (fun w => ⟨w, false⟩)] ∧
        s.chip.bytesKept c) ∧
    (locked = false → Completes .spllLocked s fun c =>
      c.flag AFE_PLL_STATUS_LOCKED = true ∧ c.flag AFE_PLL_STATUS_FALLBACK = false ∧ (∀ p < 16, c.flag (AFE_PU_STATUS_PLL_UNLOCKED p) = false) ∧
      s.chip.fieldsKept ([AFE_PLL_STATUS_LOCKED, AFE_PLL_STATUS_FALLBACK] ++ (List.range 16).map AFE_PU_STATUS_PLL_UNLOCKED) c ∧
      c.afe.failed = false ∧ c = { s.chip with regs := c.regs, afe := { s.chip.afe with failed := false } }) ∧
    (locked = true → Completes .spllResume s fun c =>
      c.afe.resumed = true ∧ c = { s.chip with afe := { s.chip.afe with resumed := true } }) ∧
    (locked = false → s.chip.afe.failed = false → s.chip.host.cmds = [] → (∀ x < 8, s.chip.stState x ∈ [sEmpty, sSafe, sFault]) →
      Completes .spllFail s fun c =>
      c.afe.failed = true ∧ c.flag AFE_EVENT_PLL_FAIL = true ∧ s.chip.fieldsKept [AFE_EVENT_PLL_FAIL] c ∧
      (c.weir (weirKey 6 0)).items = (s.chip.weir (weirKey 6 0)).items ++ [(logWords s.chip.now 0x0202 .m []).map (fun w => ⟨w, false⟩)] ∧
      c.servo = s.chip.servo ∧ s.chip.bytesKept c)

/-! ### The resident loop program -/

/-- The commands of the resident loop program where they act (Table 8.1, R335, R339 to R353, R575): one that takes its time becomes the running command,
with BUSY, in the state it names; one that is done at once ends with DONE (RESULT 1) and a new CMD_SEQ. Only this pickup's program changes, but for
what is named: LE_REGION.LAYER, the jump count, the lanes' landing. RETRACT starts whatever runs.
A command that may not start is REFUSED (RESULT 3) with a new CMD_SEQ, and what runs goes on (R335): while another command runs, any but RETRACT, and
HOLD but for a PULL_IN or JUMP; and each in the states and with the operands that Table 8.1 does not give it. RETRACT in OFF is DONE at once. -/
def Obligations.LoopCommands : Prop :=
  (∀ (s : State) (p : Pickup) (a : Byte) (arg : Q), s.chip.loopRuns p = true →
    let g := s.chip.loop p
    let only := fun c : Chip => (∀ j, j ≠ p.val → c.loop j = s.chip.loop j) ∧ s.chip.bytesKept c
    let quiet := fun c : Chip => c = { s.chip with servo := { s.chip.servo with loops := c.servo.loops } }
    let runs := fun (h : LoopProg) (op : Nat) (a : Nat) (arg : Q) (st : Nat) =>
      h.cmd = some ⟨op, a, arg⟩ ∧ h.busy = true ∧ h.state = st ∧ h.seq = g.seq ∧ h.count = 0
    let done := fun (h : LoopProg) => h.cmd = none ∧ h.busy = false ∧ h.result = 1 ∧ h.seq = (g.seq + 1) % 256
    (Completes (.loopNone p) s fun c => c = s.chip) ∧
    (a.toNat ≤ 1 → g.state ≠ lOff → Completes (.retract p a) s fun c =>
      let h := c.loop p
      h.cmd = some ⟨7, a.toNat, 0⟩ ∧ h.busy = true ∧ h.state = lRetract ∧ h.focusLock = false ∧ h.trackLock = false ∧ h.offtrack = true ∧
      h.retry = 0 ∧ h.layer = g.layer ∧ (∀ k < 8, (c.lane (8 * p + k)).landNext = true) ∧ c.regs = s.chip.regs ∧ only c) ∧
    (g.cmd = none →
      (g.state = lOff ∨ g.state = lRetracted → Completes (.sweep p) s fun c =>
        let h := c.loop p
        runs h 1 0 0 lSweep ∧ h.actEn = true ∧ h.focus = s.chip.retractPos p ∧ h.spherical = 0 ∧ h.curves = [] ∧ only c ∧ quiet c) ∧
      (a.toNat ≤ 9 → g.positions ≠ [] → Completes (.focus p a) s fun c =>
        let h := c.loop p
        runs h 2 a.toNat 0 lAcquire ∧ h.target = a.toNat ∧ h.focusLock = false ∧ h.trackLock = false ∧
        h.spherical = s.chip.par p (16 + a.toNat) ∧ h.readPower = s.chip.par p (26 + a.toNat) ∧ only c ∧ quiet c) ∧
      (g.focusLock = true → Completes (.pullIn p) s fun c => runs (c.loop p) 3 0 0 lPullIn ∧ (c.loop p).focusLock = true ∧ only c ∧ quiet c) ∧
      (g.state = lTracking → signedOf 8 a.toNat ≠ 0 → -64 ≤ signedOf 8 a.toNat → signedOf 8 a.toNat ≤ 63 → Completes (.jump p a) s fun c =>
        runs (c.loop p) 4 a.toNat 0 lJump ∧ (c.loop p).trackLock = false ∧ (∀ k < 8, (c.lane (8 * p + k)).landNext = true) ∧
        c.fld (WMM_STN_JUMPS_COUNT (p / 2)) = min (s.chip.fld (WMM_STN_JUMPS_COUNT (p / 2)) + 1) (2 ^ (WMM_STN_JUMPS_COUNT (p / 2)).w - 1) ∧
        s.chip.fieldsKept [WMM_STN_JUMPS_COUNT (p / 2)] c ∧ only c) ∧
      (a.toNat ≤ 9 → g.state = lTracking ∨ g.state = lFocused →
        (a.toNat = g.layer → Completes (.layerJump p a) s fun c => done (c.loop p) ∧ (c.loop p).state = g.state ∧ only c ∧ quiet c) ∧
        (a.toNat ≠ g.layer → Completes (.layerJump p a) s fun c =>
          runs (c.loop p) 5 a.toNat 0 lLayerJump ∧ (c.loop p).target = a.toNat ∧ (c.loop p).layer = g.layer ∧ (c.loop p).offtrack = true ∧
          (∀ k < 8, (c.lane (8 * p + k)).landNext = true) ∧ c.regs = s.chip.regs ∧ only c)) ∧
      (g.focusLock = true → Completes (.holdTracking p) s fun c =>
        done (c.loop p) ∧ (c.loop p).state = lHold ∧ (c.loop p).trackLock = false ∧ (c.loop p).focusLock = true ∧ c.regs = s.chip.regs ∧ only c) ∧
      (a.toNat ≤ 3 → Completes (.retryOffset p a) s fun c =>
        done (c.loop p) ∧ (c.loop p).retry = a.toNat ∧ (c.loop p).state = g.state ∧ only c ∧ quiet c) ∧
      (a.toNat ≤ 9 → Completes (.setLayer p a) s fun c =>
        done (c.loop p) ∧ (c.loop p).layer = a.toNat ∧ c.fld (LE_REGION_LAYER p) = a.toNat ∧ (a.toNat ≠ g.layer → (c.loop p).retry = 0) ∧
        s.chip.fieldsKept [LE_REGION_LAYER p] c ∧ only c) ∧
      (g.state = lTracking →
        (1 ≤ a.toNat → (Completes (.calLevel p a 0) s fun c => runs (c.loop p) 10 a.toNat 0 lTracking ∧ only c ∧ quiet c) ∧
          Completes (.calTrim p a 0) s fun c => runs (c.loop p) 14 a.toNat 0 lTracking ∧ only c ∧ quiet c) ∧
        (5 ≤ a.toNat → a.toNat ≤ 50 → 0 ≤ arg.toInt → arg.toInt ≤ 2 ^ 24 →
          (Completes (.calGainF p a arg) s fun c => runs (c.loop p) 11 a.toNat arg lTracking ∧ only c ∧ quiet c) ∧
          Completes (.calGainT p a arg) s fun c => runs (c.loop p) 12 a.toNat arg lTracking ∧ only c ∧ quiet c) ∧
        (16 ≤ a.toNat → a.toNat ≤ 64 → Completes (.calTsens p a arg) s fun c =>
          runs (c.loop p) 13 a.toNat arg lHold ∧ (c.loop p).trackLock = false ∧ c.regs = s.chip.regs ∧ only c)))) ∧
  (∀ (s : State) (p : Pickup) (a : Byte) (arg : Q) (i : Instr), s.chip.loopRuns p = true →
    let g := s.chip.loop p
    ((g.cmd.isSome = true ∧ (i = .sweep p ∨ i = .focus p a ∨ i = .pullIn p ∨ i = .jump p a ∨ i = .layerJump p a ∨ i = .retryOffset p a ∨
        i = .setLayer p a ∨ i = .calLevel p a arg ∨ i = .calGainF p a arg ∨ i = .calGainT p a arg ∨ i = .calTsens p a arg ∨ i = .calTrim p a arg ∨
        i = .holdTracking p ∧ ∀ r ∈ g.cmd, r.op ≠ 3 ∧ r.op ≠ 4)) ∨ i = .retract p a ∧ 1 < a.toNat ∨
      (g.cmd = none ∧
        (i = .sweep p ∧ g.state ≠ lOff ∧ g.state ≠ lRetracted ∨ i = .focus p a ∧ (9 < a.toNat ∨ g.positions = []) ∨
          (i = .pullIn p ∨ i = .holdTracking p) ∧ g.focusLock = false ∨ i = .jump p a ∧ (g.state ≠ lTracking ∨ a.toNat = 0 ∨ 63 < signedOf 8 a.toNat ∨ signedOf 8 a.toNat < -64) ∨
          i = .layerJump p a ∧ (9 < a.toNat ∨ g.state ≠ lTracking ∧ g.state ≠ lFocused) ∨ i = .retryOffset p a ∧ 3 < a.toNat ∨
          i = .setLayer p a ∧ 9 < a.toNat ∨
          (i = .calLevel p a arg ∨ i = .calGainF p a arg ∨ i = .calGainT p a arg ∨ i = .calTsens p a arg ∨ i = .calTrim p a arg) ∧
            g.state ≠ lTracking)) →
      Completes i s fun c =>
        c.loop p = { g with result := 3, seq := (g.seq + 1) % 256 } ∧ (∀ j, j ≠ p.val → c.loop j = s.chip.loop j) ∧
        c = { s.chip with servo := { s.chip.servo with loops := c.servo.loops } }) ∧
    (a.toNat ≤ 1 → g.state = lOff → Completes (.retract p a) s fun c =>
      c.loop p = { g with result := 1, seq := (g.seq + 1) % 256, busy := false, cmd := none } ∧
      c = { s.chip with servo := { s.chip.servo with loops := c.servo.loops } }))

/-- Events of the resident loop program where its counters have come to them (R339 to R350, R575): the sweep record of eleven S-curves, capture,
focus lock, tracking lock, the brake of a jump, the kick of a layer step, the end of RETRACT and of a calibration command. -/
def Obligations.LoopEvents : Prop :=
  ∀ (s : State) (p : Pickup),
    let g := s.chip.loop p
    let quiet := fun c : Chip => (∀ j, j ≠ p.val → c.loop j = s.chip.loop j) ∧
      c = { s.chip with servo := { s.chip.servo with loops := c.servo.loops } }
    (g.state = lSweep → g.phase = 1 → s.chip.par p 8 ≤ g.focus → g.curve = none → Completes (.sweepEnd p) s fun c =>
      (c.loop p).phase = 2 ∧ (c.loop p).positions = (if g.curves.length = 11 then g.curves else []) ∧ quiet c) ∧
    (g.state = lAcquire ∨ g.state = lRecover → g.phase = 1 → g.crossed = true → Completes (.focusCapture p) s fun c =>
      (c.loop p).phase = 2 ∧ (c.loop p).state = g.state ∧ (c.loop p).fresh = true ∧ (c.loop p).good = 0 ∧ quiet c) ∧
    (g.state = lAcquire → g.phase = 2 → 40 ≤ g.good → g.cmd.isSome = true → g.target ≤ 9 → Completes (.focusLock p) s fun c =>
      let h := c.loop p
      h.focusLock = true ∧ h.state = lFocused ∧ h.layer = g.target ∧ h.result = 1 ∧ h.seq = (g.seq + 1) % 256 ∧ h.busy = false ∧ h.cmd = none ∧
      c.fld (LE_REGION_LAYER p) = g.target ∧ s.chip.fieldsKept [LE_REGION_LAYER p] c ∧ s.chip.bytesKept c) ∧
    (g.state = lPullIn → g.closed = true → 40 ≤ g.good → Completes (.trackingLock p) s fun c =>
      let h := c.loop p
      h.trackLock = true ∧ h.state = lTracking ∧ h.cmd = none ∧ (g.cmd.isSome = true → h.result = 1 ∧ h.seq = (g.seq + 1) % 256) ∧
      c.regs = s.chip.regs ∧ s.chip.bytesKept c) ∧
    (g.state = lJump → g.phase = 0 → (∀ r ∈ g.cmd, (signedOf 8 r.a).natAbs / 2 ≤ g.cycles / 2) → g.cmd.isSome = true →
      Completes (.jumpBrake p) s fun c => (c.loop p).phase = 1 ∧ (c.loop p).kick = g.count ∧ (c.loop p).total = 0 ∧ quiet c) ∧
    (g.state = lLayerJump → g.phase = 2 → s.chip.cnt p 12 ≤ g.count → Completes (.layerStepPhase p) s fun c =>
      c.loop p = { g with phase := 3, count := 0 } ∧ quiet c) ∧
    (g.state = lAcquire → g.phase = 3 → g.focus = s.chip.retractPos p → Completes (.retractReached p) s fun c =>
      c.loop p = { g with state := lRetracted } ∧ quiet c) ∧
    (∀ (r : LoopCmd) (r0 r1 : Q), g.cmd = some r → (r.op = 0x0B ∨ r.op = 0x0C) → 40000 ≤ g.count * r.a →
      Completes (.calCommandDone p r0 r1) s fun c =>
        let h := c.loop p
        h.trace0 = r0 ∧ h.trace1 = r1 ∧ h.result = 1 ∧ h.seq = (g.seq + 1) % 256 ∧ h.cmd = none ∧ h.busy = false ∧ quiet c)

/-- Losses, slips and seeks (R340 to R349), on a pickup with no calibration cycle: a focus loss begins one acquisition on the believed layer and is
counted; a tracking loss begins a PULL_IN of the program's own and is counted; a pull-in that takes 2,000 periods ends with FAIL in HOLD; a position
check that finds the pickup on its layer's furrow 0 ends; a slip found by two lanes is counted and corrected by a JUMP; a seek that is where it should
be ends. -/
def Obligations.LoopLosses : Prop :=
  ∀ (s : State) (p : Pickup), s.chip.fld (CAL_PU_STATUS_CYCLE p) = 0 → (s.chip.cal p).acqBy = none →
    let g := s.chip.loop p
    let x := p.val / 2
    let ends := fun h : LoopProg => h.cmd = none ∧ (g.cmd.isSome = true → h.result = 2 ∧ h.seq = (g.seq + 1) % 256 ∧ h.busy = false)
    (g.focusLock = true → 4 ≤ g.bad → (s.chip.seqr p).losses = [] → Completes (.focusLost p) s fun c =>
      let h := c.loop p
      ends h ∧ h.focusLost = true ∧ h.focusLock = false ∧ h.trackLock = false ∧ h.state = lRecover ∧ h.target = g.layer ∧ h.layer = g.layer ∧
      (c.seqr p).recovering = true ∧ c.flag (WMM_STN_EVENT_FOCUS_LOST x) = true ∧
      c.fld (WMM_STN_FOCUS_LOSSES_COUNT x) = min (s.chip.fld (WMM_STN_FOCUS_LOSSES_COUNT x) + 1) (2 ^ (WMM_STN_FOCUS_LOSSES_COUNT x).w - 1) ∧
      s.chip.fieldsKept [WMM_STN_EVENT_FOCUS_LOST x, WMM_STN_FOCUS_LOSSES_COUNT x] c ∧ s.chip.bytesKept c) ∧
    (g.state = lTracking → 40 ≤ g.off → Completes (.trackLost p) s fun c =>
      let h := c.loop p
      ends h ∧ h.trackLost = true ∧ h.trackLock = false ∧ h.state = lPullIn ∧ h.ownPull = true ∧ (c.seqr p).checkDue = true ∧
      c.flag (WMM_STN_EVENT_TRACK_LOST x) = true ∧
      c.fld (WMM_STN_TRACK_LOSSES_COUNT x) = min (s.chip.fld (WMM_STN_TRACK_LOSSES_COUNT x) + 1) (2 ^ (WMM_STN_TRACK_LOSSES_COUNT x).w - 1) ∧
      s.chip.fieldsKept [WMM_STN_EVENT_TRACK_LOST x, WMM_STN_TRACK_LOSSES_COUNT x] c ∧ s.chip.bytesKept c) ∧
    (g.state = lPullIn → g.ownPull = false → g.trackLock = false → 2000 ≤ g.count → Completes (.loopCommandTimeout p) s fun c =>
      ends (c.loop p) ∧ (c.loop p).state = lHold ∧ (c.loop p).focusLock = g.focusLock ∧
      c = { s.chip with servo := { s.chip.servo with loops := c.servo.loops } }) ∧
    (∀ pba : BitVec 40, (s.chip.seqr p).checkDue = true → g.state = lTracking → pbaLayer pba.toNat = g.layer → pbaFurrow pba.toNat = 0 →
      (s.chip.seqr p).bands = [] → (s.chip.seqr p).intended = g.layer → Completes (.positionCheck p pba) s fun c =>
        (c.seqr p).checkDue = false ∧ (c.seqr p).recovering = false ∧ c.fld (LE_REGION_BAND p) = entryZone (pbaSlot pba.toNat) / 4 % 16 ∧
        (∀ k < 8, (c.lane (8 * p + k)).landNext = true) ∧ s.chip.fieldsKept [LE_REGION_BAND p] c ∧ c.servo.loops = s.chip.servo.loops ∧
        s.chip.bytesKept c) ∧
    (∀ d : Int, slipDir (s.chip.seqr p).slips = some d → (s.chip.pair p).cmds.length < 4 → Completes (.slip p) s fun c =>
      (c.seqr p).slips = [] ∧ (c.pair p).cmds = (s.chip.pair p).cmds ++ [(BitVec.ofNat 32 (4 + 256 * bitsOfInt 8 (-d)), 0)] ∧
      c.flag (WMM_STN_EVENT_SLIP x) = true ∧ c.fld (WMM_STN_SLIPS_COUNT x) = min (s.chip.fld (WMM_STN_SLIPS_COUNT x) + 1) (2 ^ (WMM_STN_SLIPS_COUNT x).w - 1) ∧
      s.chip.fieldsKept [WMM_STN_EVENT_SLIP x, WMM_STN_SLIPS_COUNT x] c ∧ s.chip.bytesKept c) ∧
    (∀ (at_ : BitVec 40) (k : SeekRec), g.cmd = none → g.focusLock = true → (s.chip.seqr p).checkDue = false → (s.chip.seqr p).seek = some k →
      k.target = at_.toNat → k.step ≠ 3 → pbaLayer at_.toNat = g.layer → seekTurns (pbaSlot at_.toNat) (pbaSlot at_.toNat) = 0 →
      (s.chip.seqr p).bands = [] → Completes (.seek p at_ at_ false) s fun c =>
        (c.seqr p).seek = none ∧ (c.seqr p).intended = g.layer ∧ (∀ k < 8, (c.lane (8 * p + k)).landNext = true) ∧
        s.chip.fieldsKept [LE_REGION_BAND p] c ∧ s.chip.bytesKept c)

/-! ### Stations, spindles and sleds -/

/-- A change of station state as the registers show it (R356): the state entered, the one left, the cause, the ledger time, and the event. -/
def Obligations.StationStates : Prop :=
  ∀ (s : State) (x : Station), (∀ k < 2, s.chip.host.stationEvents.getD k false = false) →
    let st := s.chip.stn x
    let entered := fun (c : Chip) (new old cause : Nat) =>
      c.fld (WMM_STN_STATE_STATE x) = new ∧ c.fld (WMM_STN_STATE_PREV x) = old ∧ c.fld (WMM_STN_STATE_CAUSE x) = cause ∧
      c.flag (WMM_STN_STATE_UNCLAMP_ALLOWED x) = decide (new = sEmpty ∨ new = sLoaded ∨ new = sSafe) ∧
      c.flag (WMM_STN_EVENT_STATE_CHANGE x) = true ∧ (c.stn x).changes = st.changes + 1
    -- the clamp (R368)
    (s.chip.stState x = sEmpty → s.chip.flag (WMM_STN_CTRL_CLAMP_REQ x) = true → s.chip.flag (WMM_STN_STATE_CLAMPED x) = false →
      Completes (.discPresentChange x true) s fun c =>
        c.flag (WMM_STN_STATE_DISC_PRESENT x) = true ∧ c.flag (WMM_STN_STATE_CLAMPED x) = true ∧ (c.stn x).settling = true ∧
        c.stState x = sEmpty ∧ s.chip.fieldsKept [WMM_STN_STATE_DISC_PRESENT x, WMM_STN_STATE_CLAMPED x] c ∧ s.chip.bytesKept c) ∧
    (s.chip.stState x = sLoaded ∨ s.chip.stState x = sSafe → s.chip.flag (WMM_STN_STATE_CLAMPED x) = true →
      Completes (.discPresentChange x false) s fun c =>
        entered c sEmpty (s.chip.stState x) cauDiscLost ∧ c.flag (WMM_STN_STATE_CLAMPED x) = false ∧ c.flag (WMM_STN_EVENT_DISC_LOST x) = true ∧
        c.flag (WMM_STN_CTRL_CLAMP_REQ x) = false ∧ s.chip.bytesKept c) ∧
    (st.settling = true → s.chip.stState x = sEmpty → s.chip.flag (WMM_STN_CTRL_CLAMP_REQ x) = true → Completes (.clampSettled x) s fun c =>
      entered c sLoaded sEmpty cauClamp ∧ (c.stn x).settling = false ∧ s.chip.bytesKept c) ∧
    (s.chip.stState x = sLoaded ∨ s.chip.stState x = sSafe → Completes (.clampReq x false) s fun c =>
      entered c sEmpty (s.chip.stState x) cauUnclamp ∧ c.flag (WMM_STN_STATE_CLAMPED x) = false ∧ s.chip.bytesKept c) ∧
    (s.chip.stState x = sMounted → Completes (.clampReq x false) s fun c =>
      c.flag (WMM_STN_EVENT_UNCLAMP_DEFERRED x) = true ∧ c.stState x = sMounted ∧
      s.chip.fieldsKept [WMM_STN_EVENT_UNCLAMP_DEFERRED x, WMM_STN_CTRL_CLAMP_REQ x] c ∧ s.chip.bytesKept c) ∧
    -- a park from MOUNTED, both pickups idle; joining one in progress; in a state that has nothing to park (R356, R365, R369, R370)
    (∀ i : Instr, ∀ cause : Nat, (i = .hostPark x ∧ cause = cauHostPark) ∨ (i = .lpPark (BitVec.ofNat 8 (2 ^ x.val)) ∧ cause = cauLibraryPark) →
      (s.chip.stState x = sMounted → s.chip.host.cmds = [] → s.chip.buf.staged = [] → (∀ p, p / 2 = x.val →
          (s.chip.wch p).pass = none ∧ (s.chip.wch p).queued = none ∧ (s.chip.wch p).results = [] ∧ s.chip.fld (CAL_PU_STATUS_CYCLE p) = 0 ∧
          (s.chip.cal p).acqBy = none ∧ (s.chip.frm p).reqs = [] ∧ (s.chip.frm p).retry = none ∧ (s.chip.vol p).qual = none) →
        Completes i s fun c =>
          entered c sParking sMounted cause ∧ (c.stn x).causes = [cause] ∧ (c.stn x).parkStep = 2 ∧
          c.fld (WMM_STN_PARKS_COUNT x) = min (s.chip.fld (WMM_STN_PARKS_COUNT x) + 1) (2 ^ (WMM_STN_PARKS_COUNT x).w - 1)) ∧
      (s.chip.stState x = sParking → Completes i s fun c =>
        (c.stn x).causes = st.causes ++ [cause] ∧ c.regs = s.chip.regs ∧ c.servo.pairs = s.chip.servo.pairs ∧ s.chip.bytesKept c) ∧
      (s.chip.stState x ∈ [sEmpty, sSafe, sFault, sLoaded] → Completes i s fun c => c = s.chip)) ∧
    -- the steps of a park (Table 8.12)
    (s.chip.stState x = sParking → st.parkStep = 2 → (s.chip.pair (16 + x)).cmds = [] → Completes (.parkRetractDone x true) s fun c =>
      (c.stn x).parkStep = 3 ∧ (c.pair (16 + x)).cmds.take 1 = [(2, 0)] ∧ c.stState x = sParking ∧ s.chip.bytesKept c) ∧
    (s.chip.stState x = sParking → st.parkStep = 3 → s.chip.stopped x = true → s.chip.fld (LE_PAIR_CTRL_ENTRY (16 + x)) = 1 →
      st.causes.any faultCause = false → st.reset = false → st.waiters = [] → st.holdClamp = false → s.chip.flag (WMM_STN_CTRL_CLAMP_REQ x) = true →
      Completes (.parkStopDone x) s fun c =>
        entered c sSafe sParking (s.chip.fld (WMM_STN_STATE_CAUSE x)) ∧ (c.stn x).parkStep = 0 ∧ (c.stn x).causes = [] ∧ s.chip.bytesKept c) ∧
    -- escalations (R367, R411)
    (s.chip.stState x = sParking → ∀ p : Pickup, p.val / 2 = x.val → s.chip.flag (LE_PAIR_EVENT_ESCALATED p) = true →
      s.chip.fld (LE_PAIR_CTRL_ENTRY p) ≠ 1 → Completes (.loopEscalation p) s fun c =>
        c.fld (LE_PAIR_CTRL_ENTRY p) = 1 ∧ c.flag (WMM_STN_EVENT_ESCALATED x) = true ∧ (c.stn x).causes = st.causes ++ [cauEscalation] ∧
        s.chip.fieldsKept [LE_PAIR_CTRL_ENTRY p, WMM_STN_EVENT_ESCALATED x] c ∧ s.chip.bytesKept c) ∧
    (s.chip.flag (LE_PAIR_EVENT_ESCALATED (16 + x)) = true → s.chip.fld (LE_PAIR_CTRL_ENTRY (16 + x)) = 1 → (s.chip.pair (16 + x)).entry = 1 →
      (s.chip.pair (16 + x)).hasRun = true → Completes (.motionEscalation x) s fun c =>
        c.flag (SPN_CTRL_BRAKE x) = true ∧ c.flag (LE_PAIR_CTRL_RUN (16 + x)) = false ∧ (c.pair (16 + x)).gate = [] ∧ c.motion x = {} ∧
        s.chip.fieldsKept [SPN_CTRL_BRAKE x, LE_PAIR_CTRL_RUN (16 + x)] c ∧ s.chip.bytesKept c) ∧
    -- a step of a qualification, and a change of speed (R360, R408)
    (∀ (p : Pickup) (q : Qual) (r : QualIn), (s.chip.vol p).qual = some q → q.step = 4 → q.stop = false → (s.chip.cal p).run = none →
      Completes (.qualifyStepDone p r) s fun c =>
        (c.vol p).qual = some { q with step := 5 } ∧ s.chip.fieldsKept [WMM_STN_STATE_MOUNT_STEP (p.val / 2)] c ∧ s.chip.bytesKept c) ∧
    (s.chip.stState x = sMounted → (∀ p, p / 2 = x.val → (s.chip.wch p).pass = none ∧ s.chip.fld (CAL_PU_STATUS_CYCLE p) = 0 ∧ (s.chip.cal p).acqBy = none) →
      (s.chip.pair (16 + x)).cmds.length < 4 → s.chip.flag (SPN_CTRL_QUIET x) = true → st.aim = 8400 → Completes (.speedChange x) s fun c =>
        (c.stn x).aim = 4200 ∧ (c.pair (16 + x)).cmds = (s.chip.pair (16 + x)).cmds ++ [(257, 0)] ∧
        (∀ p, p / 2 = x.val → c.fld (MOT_AX_FEED_FEED p) = 134400) ∧
        s.chip.fieldsKept [MOT_AX_FEED_FEED (2 * x), MOT_AX_FEED_FEED (2 * x + 1)] c ∧ s.chip.bytesKept c)

/-- The commands of the resident motion program where they act (Table 9.4, R376, R377, R395, R403 to R407). -/
def Obligations.MotionCommands : Prop :=
  ∀ (s : State) (x : Station) (a : Byte), s.chip.motionRuns x = true →
    let g := s.chip.motion x
    let only := fun c : Chip => (∀ j, j ≠ x.val → c.motion j = s.chip.motion j) ∧ s.chip.bytesKept c
    let quiet := fun c : Chip => c = { s.chip with servo := { s.chip.servo with motions := c.servo.motions } }
    (Completes (.motionNone x) s fun c => c = s.chip) ∧
    (g.spin = none → g.braking = false → s.chip.limitsBit x 6 = false →
      (a.toNat ∈ [1, 2, 5, 6] → g.spn = mStopped → s.chip.seesStop x = true → Completes (.spin x a) s fun c =>
        let h := c.motion x
        h.spn = mAlign ∧ h.spin = some (a.toNat % 4, a.toNat.testBit 2) ∧ h.reverse = a.toNat.testBit 2 ∧ h.target = a.toNat % 4 ∧ h.attempts = 1 ∧
        h.seq = g.seq ∧ c.fld (SPN_STARTS_COUNT x) = min (s.chip.fld (SPN_STARTS_COUNT x) + 1) (2 ^ (SPN_STARTS_COUNT x).w - 1) ∧
        s.chip.fieldsKept [SPN_STARTS_COUNT x] c ∧ only c) ∧
      (Completes (.brake x) s fun c =>
        let h := c.motion x
        h.braking = true ∧ h.spn = (if g.spn = mRun then mBrake else mShort) ∧ h.atSpeed = false ∧ h.result = 0 ∧ h.seq = g.seq ∧ only c ∧ quiet c) ∧
      (Completes (.coast x) s fun c =>
        let h := c.motion x
        h.spn = mCoast ∧ h.result = 1 ∧ h.seq = (g.seq + 1) % 64 ∧ h.atSpeed = false ∧ only c ∧ quiet c)) ∧
    (g.spin.isSome = true ∨ g.braking = true ∨ a.toNat ∉ [1, 2, 5, 6] → g.spn ∈ [mStopped, mShort, mBrake] → Completes (.spin x a) s fun c =>
      c.motion x = { g with result := 3, seq := (g.seq + 1) % 64 } ∧ only c ∧ quiet c) ∧
    (g.u.running = none → g.l.running = none →
      (1 ≤ a.toNat → a.toNat < 4 → Completes (.homeAxes x a) s fun c =>
        (∀ d < 2, let y := (c.motion x).axis d
          if a.toNat.testBit d then y.state = 2 ∧ y.running = some a.toNat ∧ y.travel = 0 ∧ y.homing = (if s.chip.limitsBit x (2 * d) then 2 else 1) ∧
            y.on = true ∧ y.follow = false
          else y = g.axis d) ∧ (c.motion x).seq = g.seq ∧ only c ∧ quiet c) ∧
      (4 ≤ a.toNat → a.toNat < 8 → Completes (.follow x a) s fun c =>
        (∀ d < 2, let y := (c.motion x).axis d
          if a.toNat.testBit d then y.follow = true ∧ y.on = true ∧ y.inner = s.chip.inPort (16 + x) (12 + d) ∧ y.result = 1 ∧
            c.flag (MOT_AX_STATUS_FOLLOW (2 * x + d)) = true
          else y = g.axis d) ∧ (c.motion x).seq = (g.seq + 1) % 64 ∧
        s.chip.fieldsKept [MOT_AX_STATUS_FOLLOW (2 * x), MOT_AX_STATUS_FOLLOW (2 * x + 1)] c ∧ only c) ∧
      (a.toNat < 4 → g.u.state = 0 → g.l.state = 0 → Completes (.sledOff x a) s fun c =>
        (∀ d < 2, let y := (c.motion x).axis d
          if a.toNat.testBit d then y.on = false ∧ y.follow = false ∧ y.result = 1 else y = g.axis d) ∧
        (c.motion x).seq = (g.seq + 1) % 64 ∧ only c ∧ quiet c))

/-- Events of the spindle program (R401 to R407, Tables 9.10 to 9.12). -/
def Obligations.SpindleEvents : Prop :=
  ∀ (s : State) (x : Station),
    let g := s.chip.motion x
    let quiet := fun c : Chip => (∀ j, j ≠ x.val → c.motion j = s.chip.motion j) ∧
      c = { s.chip with servo := { s.chip.servo with motions := c.servo.motions } }
    (∀ (rpm : Nat) (b : Bool), g.spn = mMeasure → 400 ≤ g.count → g.spin.isSome = true →
      (rpm < 30 → Completes (.spinMeasureEnd x rpm b) s fun c =>
        (c.motion x).spn = mAlign ∧ (c.motion x).count = 0 ∧ (c.motion x).attempts = g.attempts + 1 ∧ s.chip.fieldsKept [SPN_STARTS_COUNT x] c ∧
        s.chip.bytesKept c) ∧
      (300 ≤ rpm → (∀ k ∈ g.spin, k.2 = b) → Completes (.spinMeasureEnd x rpm b) s fun c =>
        (c.motion x).spn = mCoast ∧ (c.motion x).catching = true ∧ (c.motion x).reverse = b ∧ quiet c) ∧
      (30 ≤ rpm → rpm < 300 ∨ (∀ k ∈ g.spin, k.2 ≠ b) → Completes (.spinMeasureEnd x rpm b) s fun c => (c.motion x).spn = mShort ∧ quiet c)) ∧
    (g.spn = mAlign → s.chip.cnt (16 + x) 22 ≤ g.count → Completes (.alignEnd x) s fun c =>
      c.motion x = { g with spn := mRamp, count := 0, good := 0 } ∧ quiet c) ∧
    (g.spn = mRamp → g.catching = false → 64 ≤ g.good → Completes (.observerLock x) s fun c =>
      (c.motion x).spn = mRun ∧ (c.motion x).w = g.w ∧ (c.motion x).th = g.th ∧ quiet c) ∧
    (g.spn = mBrake → 8 ≤ g.bad ∨ 8 ≤ g.weak → Completes (.obsLost x) s fun c =>
      (c.motion x).spn = mShort ∧ (c.motion x).atSpeed = false ∧ (c.motion x).pulses = g.pulses ||| 2 ^ 24 ∧ quiet c) ∧
    (g.spn = mRamp → 40000 ≤ g.count → g.attempts ≤ s.chip.cnt (16 + x) 28 → Completes (.startRetry x) s fun c =>
      (c.motion x).spn = mShort ∧ (c.motion x).pulses = g.pulses ||| 2 ^ 25 ∧ (c.motion x).spin = g.spin ∧ quiet c) ∧
    (g.spn = mRun → g.atSpeed = false → 200 ≤ g.near → g.spinup = false → Completes (.atSpeed x) s fun c =>
      (c.motion x).atSpeed = true ∧ (c.motion x).spin = none ∧ (g.spin.isSome = true → (c.motion x).result = 1 ∧ (c.motion x).seq = (g.seq + 1) % 64) ∧
      quiet c) ∧
    (g.atSpeed = true → 20 ≤ g.far → Completes (.atSpeedLost x) s fun c => c.motion x = { g with atSpeed := false, near := 0 } ∧ quiet c) ∧
    (g.catching = true → s.chip.cnt (16 + x) 26 ≤ g.count → g.windows + 1 ≤ s.chip.cnt (16 + x) 27 → 300 ≤ s.chip.fld (SPN_STATUS_TACH x) →
      Completes (.catchWindowEnd x) s fun c => (c.motion x).spn = mCoast ∧ (c.motion x).catching = true ∧ (c.motion x).windows = g.windows + 1 ∧ quiet c)

/-- Spindle and sled hardware (R382 to R392, R396 to R399): the tachometer, the PWM cycle and its current limit, short-brake, faults, limit switches,
choppers, centring. -/
def Obligations.DriveHardware : Prop :=
  ∀ (s : State),
    (∀ x : Station,
      (∀ (ph : Fin 3) (ns l : Nat), (s.chip.spn x).lastPhase = some l → l < 3 → Completes (.tachCrossing x ph ns) s fun c =>
        let rpm := 20000000000 / (max 1 ns * max 1 (s.chip.fld (SPN_CFG_POLE_PAIRS x)))
        (c.spn x).lastPhase = some ph.val ∧ c.fld (SPN_STATUS_TACH x) = (if rpm < 30 then 0 else min 65535 rpm) ∧
        c.flag (SPN_STATUS_TACH_VALID x) = decide (30 ≤ rpm) ∧
        (ph.val = (l + 1) % 3 → c.flag (SPN_STATUS_TACH_REVERSE x) = false) ∧ (ph.val = (l + 2) % 3 → c.flag (SPN_STATUS_TACH_REVERSE x) = true) ∧
        s.chip.fieldsKept [SPN_STATUS_TACH x, SPN_STATUS_TACH_VALID x, SPN_STATUS_TACH_REVERSE x, LE_REGION_SPEED (2 * x), LE_REGION_SPEED (2 * x + 1),
          LE_REGION_SPEED (16 + x)] c ∧ s.chip.bytesKept c) ∧
      (Completes (.tachTimeout x) s fun c =>
        c.fld (SPN_STATUS_TACH x) = 0 ∧ c.flag (SPN_STATUS_TACH_VALID x) = false ∧ c.flag (SPN_STATUS_TACH_REVERSE x) = false ∧
        s.chip.fieldsKept [SPN_STATUS_TACH x, SPN_STATUS_TACH_VALID x, SPN_STATUS_TACH_REVERSE x, LE_REGION_SPEED (2 * x), LE_REGION_SPEED (2 * x + 1),
          LE_REGION_SPEED (16 + x)] c ∧ s.chip.bytesKept c) ∧
      (∀ i : Instr, i = .spnBrakeRequest x ∨ i = .shortBrakeApply x ∧ s.chip.flag (SPN_STATUS_SB_WAIT x) = true ∧ s.chip.flag (SPN_CTRL_BRAKE x) = true →
        s.chip.flag (SPN_STATUS_DRIVER_FAULT x) = false → Completes i s fun c =>
          let slow := decide (s.chip.fld (SPN_STATUS_TACH x) < s.chip.fld (SPN_CFG_SB_MAX x))
          c.flag (SPN_CTRL_BRAKE x) = true ∧ c.fld (SPN_STATUS_MODE x) = (if slow then 2 else 0) ∧ c.flag (SPN_STATUS_SB_WAIT x) = !slow ∧
          s.chip.fieldsKept [SPN_CTRL_BRAKE x, SPN_STATUS_MODE x, SPN_STATUS_SB_WAIT x, SPN_SHORT_BRAKES_COUNT x] c ∧ s.chip.bytesKept c) ∧
      (Completes (.pwmCycle x) s fun c =>
        (c.spn x).duty = (s.chip.spn x).next ∧ (c.spn x).cut = false ∧
        (s.chip.flag (SPN_STATUS_DRIVER_FAULT x) = true → c.fld (SPN_STATUS_MODE x) = 0) ∧
        s.chip.fieldsKept [SPN_STATUS_MODE x, SPN_STATUS_SB_WAIT x, SPN_SHORT_BRAKES_COUNT x] c ∧ s.chip.bytesKept c) ∧
      (∀ iu iv iw : BitVec 12, (s.chip.spn x).cut = false →
        (s.chip.fld (SPN_ILIM_ILIM x) < ((iu.toNat : Int) - 2048).natAbs ∨ s.chip.fld (SPN_ILIM_ILIM x) < ((iv.toNat : Int) - 2048).natAbs ∨
          s.chip.fld (SPN_ILIM_ILIM x) < ((iw.toNat : Int) - 2048).natAbs) → Completes (.ilimCut x iu iv iw) s fun c =>
        (c.spn x).cut = true ∧ c.flag (SPN_EVENT_ILIM x) = true ∧
        c.fld (SPN_ILIM_CYCLES_COUNT x) = min (s.chip.fld (SPN_ILIM_CYCLES_COUNT x) + 1) (2 ^ 32 - 1) ∧
        s.chip.fieldsKept [SPN_EVENT_ILIM x, SPN_ILIM_CYCLES_COUNT x] c ∧ s.chip.bytesKept c) ∧
      (s.chip.stState x = sParking → Completes (.spindleDriverFault x true) s fun c =>
        (c.spn x).fltInput = true ∧ (c.spn x).mode = 0 ∧ c.flag (SPN_STATUS_DRIVER_FAULT x) = true ∧ c.flag (SPN_EVENT_DRIVER_FAULT x) = true ∧
        c.fld (SPN_STATUS_MODE x) = 0 ∧ (c.stn x).causes = (s.chip.stn x).causes ++ [cauSpindle] ∧ s.chip.bytesKept c) ∧
      (Completes (.spindleDriverFault x false) s fun c => (c.spn x).fltInput = false ∧ c.regs = s.chip.regs ∧ s.chip.bytesKept c)) ∧
    (∀ p : Pickup,
      (Completes (.sledBridgeFault p false) s fun c => (c.sled p).fltInput = false ∧ c.regs = s.chip.regs ∧ s.chip.bytesKept c) ∧
      (s.chip.stState (p / 2) = sParking → Completes (.sledBridgeFault p true) s fun c =>
        (c.sled p).fltInput = true ∧ c.flag (MOT_AX_STATUS_DRIVER_FAULT p) = true ∧ c.flag (MOT_AX_EVENT_DRIVER_FAULT p) = true ∧
        (c.sled p).a.bridge = 0 ∧ (c.sled p).b.bridge = 0 ∧ c.flag (MOT_AX_STATUS_A_DRIVE p) = false ∧ c.flag (MOT_AX_STATUS_B_DRIVE p) = false ∧
        s.chip.bytesKept c) ∧
      (∀ outer : Bool,
        let sw := if outer then MOT_AX_STATUS_OUTER p else MOT_AX_STATUS_INNER p
        let ev := if outer then MOT_AX_EVENT_OUTER_HIT p else MOT_AX_EVENT_INNER_HIT p
        (Completes (.limitSwitchChange p outer false) s fun c => c.flag sw = false ∧ s.chip.fieldsKept [sw] c ∧ c = { s.chip with regs := c.regs }) ∧
        (s.chip.flag (if outer then MOT_AX_CTRL_OUTER_MODE p else MOT_AX_CTRL_INNER_MODE p) = false → Completes (.limitSwitchChange p outer true) s fun c =>
          c.flag sw = true ∧ c.flag ev = true ∧ c.flag (MOT_AX_STATUS_HARD p) = true ∧ c.flag (MOT_AX_EVENT_HARD_STOP p) = true ∧
          (c.sled p).frozen = some (BitVec.ofInt 32 (s.chip.sledRef p 0), BitVec.ofInt 32 (s.chip.sledRef p 1)) ∧
          s.chip.fieldsKept [sw, ev, MOT_AX_STATUS_HARD p, MOT_AX_EVENT_HARD_STOP p] c ∧ s.chip.bytesKept c)) ∧
      (∀ b : Bool, s.chip.sledRuns p = true →
        let k := (s.chip.sled p).chop b
        let f := if b then MOT_AX_STATUS_B_DRIVE p else MOT_AX_STATUS_A_DRIVE p
        (∀ (i : Int) (drive decay : Nat), k.drive = false → k.fast = false → 0 ≤ s.chip.sledRef p b.toNat → 0 ≤ k.ref →
          i * 2 ^ 17 ≤ (s.chip.thresholds p b).1 → 2000 ≤ decay → 12500 ≤ drive → Completes (.chopperDrive p b i drive decay false) s fun c =>
            ((c.sled p).chop b).drive = true ∧ ((c.sled p).chop b).bridge = 2 ∧ c.flag f = true ∧ (c.sled p).chop (!b) = (s.chip.sled p).chop (!b) ∧
            s.chip.fieldsKept [f] c ∧ s.chip.bytesKept c) ∧
        (∀ (i : Int) (drive : Nat), k.drive = true → 0 ≤ s.chip.sledRef p b.toNat → 0 ≤ k.ref → (s.chip.thresholds p b).2 ≤ i * 2 ^ 17 → 2000 ≤ drive →
          s.chip.fld (MOT_AX_CTRL_DECAY p) = 0 → Completes (.chopperDecay p b i drive) s fun c =>
            ((c.sled p).chop b).drive = false ∧ ((c.sled p).chop b).bridge = 3 ∧ c.flag f = false ∧ s.chip.fieldsKept [f] c ∧ s.chip.bytesKept c) ∧
        (k.drive = false → k.fast = false → s.chip.fld (MOT_AX_CTRL_DECAY p) = 2 → Completes (.mixedDecayBrake p b) s fun c =>
          ((c.sled p).chop b).bridge = 3 ∧ ((c.sled p).chop b).drive = false ∧ s.chip.fieldsKept [f] c ∧ s.chip.bytesKept c)) ∧
      (s.chip.flag (MOT_AX_STATUS_FOLLOW p) = true → s.chip.int (CAL_PU_TSENS_SENS p) ≠ 0 → (s.chip.seqr p).trackN ≠ 0 →
        Completes (.sledCentringUpdate p) s fun c =>
          (c.seqr p).trackSum = 0 ∧ (c.seqr p).trackN = 0 ∧ s.chip.fieldsKept [MOT_AX_TARGET_TARGET p] c ∧
          c.fld (MOT_AX_TARGET_TARGET p) = bitsOfInt 32 (s.chip.int (MOT_AX_TARGET_TARGET p) +
            rndDiv (240 * (s.chip.seqr p).trackSum) (s.chip.int (CAL_PU_TSENS_SENS p) * ((s.chip.seqr p).trackN : Nat))) ∧ s.chip.bytesKept c))

/-! ### The read path -/

/-- Slots, wobble and groove addresses of a lane (R159 to R165, R192, R193): an armed slot begins its item; marks lead to lock; a loss of timing is
counted and makes the next slot a landing; a good groove address shows in LAST_PBA. -/
def Obligations.LaneSlots : Prop :=
  ∀ (s : State) (l : Lane),
    let x := s.chip.lane l
    (∀ (r : ArmRun) (slot : Nat), slot ≤ lastSlot → x.cur = none → x.disarm = false → x.run = some r → r.left ≠ 0 → pbaSlot r.pba = slot →
      s.chip.flag (RCH_CTRL_EN l) = true → Completes (.laneSlotStart l slot) s fun c =>
        (c.lane l).run = some { r with pba := r.pba + 1, left := r.left - 1, landing := false } ∧ (c.lane l).landNext = false ∧
        (∃ u, (c.lane l).cur = some u ∧ u.report.pba = r.pba ∧ u.spans = 0 ∧
          u.report.landing = (x.landNext || r.landing || s.chip.flag (RCH_CTRL_FORCE_LAND l))) ∧
        c.flag (RCH_STATUS_ACTIVE l) = true ∧ c.flag (RCH_STATUS_LANDING l) = (x.landNext || r.landing || s.chip.flag (RCH_CTRL_FORCE_LAND l)) ∧
        c.flag (RCH_STATUS_BLANK l) = false ∧ c.flag (RCH_STATUS_TAG_CONTEXT l) = false ∧ (∀ k, k ≠ l.val → c.lane k = s.chip.lane k) ∧
        s.chip.bytesKept c) ∧
    (∀ slot : Nat, slot ≤ lastSlot → x.cur = none → x.run = none → x.next = none → x.verify = false → Completes (.laneSlotStart l slot) s fun c =>
      (c.lane l).cur = none ∧ (c.lane l).landNext = true ∧ c.flag (RCH_STATUS_LANDING l) = false ∧ s.chip.fieldsKept [RCH_STATUS_LANDING l] c ∧
      s.chip.bytesKept c) ∧
    (x.acqLeft = 0 → Completes (.landingWindowEnd l) s fun c =>
      (c.lane l).land = x.land.map (fun r => if r.1 = 0 then (0, s.chip.fld (RCH_LAND_CFG_WINDOW l)) else r) ∧ c.regs = s.chip.regs ∧
      s.chip.bytesKept c) ∧
    (∀ (dev : Int) (corr : List Int),
      (s.chip.flag (RCH_STATUS_WOBBLE_LOCK l) = false → Completes (.blockMark l dev corr) s fun c =>
        (c.lane l).marks = (if dev = 0 then x.marks + 1 else 1) ∧ c.regs = s.chip.regs ∧ s.chip.bytesKept c) ∧
      (s.chip.flag (RCH_STATUS_WOBBLE_LOCK l) = true → 2 < dev.natAbs → Completes (.blockMark l dev corr) s fun c =>
        c.fld (RCH_GADDR_FAILED_COUNT l) = min (s.chip.fld (RCH_GADDR_FAILED_COUNT l) + 1) (2 ^ 32 - 1) ∧
        s.chip.fieldsKept [RCH_GADDR_FAILED_COUNT l] c ∧ s.chip.bytesKept c)) ∧
    (s.chip.flag (RCH_STATUS_WOBBLE_LOCK l) = false → 4 ≤ x.marks → Completes (.wobbleLock l) s fun c =>
      c.flag (RCH_STATUS_WOBBLE_LOCK l) = true ∧ c.flag (RCH_WOBBLE_LOCK l) = true ∧ (c.lane l).marks = 0 ∧
      s.chip.fieldsKept [RCH_STATUS_WOBBLE_LOCK l, RCH_WOBBLE_LOCK l] c ∧ s.chip.bytesKept c) ∧
    (l.val % 8 ≠ 0 ∨ (s.chip.wch (l.val / 8)).pass = none →
      (s.chip.flag (RCH_STATUS_WOBBLE_LOCK l) = true → Completes (.wobbleLockLost l) s fun c =>
        c.flag (RCH_STATUS_WOBBLE_LOCK l) = false ∧ c.flag (RCH_WOBBLE_LOCK l) = false ∧ c.flag (RCH_EVENT_TIMING_LOST l) = true ∧
        c.fld (RCH_TIMING_LOST_COUNT l) = min (s.chip.fld (RCH_TIMING_LOST_COUNT l) + 1) (2 ^ 32 - 1) ∧ (c.lane l).landNext = true ∧
        (∀ u ∈ (c.lane l).cur, u.report.timingLost = true) ∧ s.chip.bytesKept c) ∧
      (s.chip.flag (RCH_STATUS_LOOP_SAT l) = true → Completes (.timingLoopLoss l) s fun c =>
        c.flag (RCH_STATUS_LOOP_SAT l) = false ∧ c.flag (RCH_EVENT_TIMING_LOST l) = true ∧ (c.lane l).landNext = true ∧
        s.chip.fieldsKept [RCH_STATUS_LOOP_SAT l, RCH_EVENT_TIMING_LOST l, RCH_TIMING_LOST_COUNT l] c ∧ s.chip.bytesKept c)) ∧
    (∀ sums : List Int, sums.length = 56 → l.val % 8 ≠ 0 → x.cur = none → (gaddrRead ((x.main.map (·.amp)).getD 0) sums).1 ≠ .failed →
      Completes (.gaddrDecode l sums) s fun c =>
        c.fld (RCH_LAST_PBA_PBA l) = (gaddrRead ((x.main.map (·.amp)).getD 0) sums).2 % 2 ^ 40 ∧
        s.chip.fieldsKept [RCH_LAST_PBA_PBA l, RCH_GADDR_CORRECTED_COUNT l] c ∧ s.chip.bytesKept c) ∧
    (x.cur.isSome = true → Completes (.loopSat l) s fun c =>
      c.flag (RCH_STATUS_LOOP_SAT l) = true ∧ s.chip.fieldsKept [RCH_STATUS_LOOP_SAT l] c ∧ c = { s.chip with regs := c.regs }) ∧
    (∀ up : Bool, x.cur.isSome = true → (if up then s.chip.fld (AFE_LANE_CFG_GAIN (l.val / 8) (l.val % 8)) ≤ 36
        else 12 ≤ s.chip.fld (AFE_LANE_CFG_GAIN (l.val / 8) (l.val % 8))) → Completes (.analogGainStep l up) s fun c =>
      (c.afeLane l).step = some up ∧ c.flag (RCH_STATUS_GAIN_LIMIT l) = false ∧ s.chip.fieldsKept [RCH_STATUS_GAIN_LIMIT l] c ∧ s.chip.bytesKept c)

/-- Tag context, defects, blank slots, spans and items of a lane (R181 to R195, R204 to R208). -/
def Obligations.LaneItems : Prop :=
  ∀ (s : State) (l : Lane),
    let x := s.chip.lane l
    (∀ u, x.cur = some u →
      (Completes (.tagContextStart l) s fun c =>
        c.flag (RCH_STATUS_TAG_CONTEXT l) = true ∧ s.chip.fieldsKept [RCH_STATUS_TAG_CONTEXT l] c ∧ (c.lane l).cur = some u ∧ s.chip.bytesKept c) ∧
      (∀ dark : Nat, dark ≤ 848 → 848 * 9 < dark * 10 → Completes (.blankDecision l dark) s fun c =>
        c.flag (RCH_STATUS_BLANK l) = true ∧ c.flag (RCH_STATUS_HOLD l) = true ∧
        c.fld (RCH_BLANK_COUNT l) = min (s.chip.fld (RCH_BLANK_COUNT l) + 1) (2 ^ 32 - 1) ∧
        (c.lane l).cur = some { u with report := { u.report with blank := true } } ∧ (∃ h, (c.lane l).hold = some h ∧ h.blank = true) ∧
        s.chip.fieldsKept [RCH_STATUS_BLANK l, RCH_STATUS_HOLD l, RCH_BLANK_COUNT l] c ∧ s.chip.bytesKept c) ∧
      (∀ (sp : SpanIn) (v : LoopVals) (e : Nat × ZEntry), x.main = some v → x.entry = some e → spanOk sp = true → u.spans < 29 →
        spanShape sp (spanLen u.spans) = true →
        (Completes (.spanConfirm l sp) s fun c =>
          (∃ u', (c.lane l).cur = some u' ∧ u'.spans = u.spans + 1 ∧ u'.llr.take u.llr.length = u.llr ∧ u'.w.take u.w.length = u.w ∧
            u'.report.pba = u.report.pba ∧ u'.report.timeouts = u.report.timeouts) ∧
          s.chip.fieldsKept [RCH_STATUS_LOOP_SAT l, RCH_EVENT_LOOP_SAT l, RCH_REDETECTS_COUNT l] c ∧ s.chip.bytesKept c) ∧
        (Completes (.xtiTimeout l sp) s fun c =>
          (∃ u', (c.lane l).cur = some u' ∧ u'.spans = u.spans + 1 ∧ u'.report.timeouts = u.report.timeouts + 1 ∧
            u'.report.redetects = u.report.redetects) ∧
          c.flag (RCH_EVENT_XTI_TIMEOUT l) = true ∧ c.fld (RCH_XTI_TIMEOUTS_COUNT l) = min (s.chip.fld (RCH_XTI_TIMEOUTS_COUNT l) + 1) (2 ^ 32 - 1) ∧
          s.chip.bytesKept c)) ∧
      (∀ v : LoopVals, u.spans = 29 → x.main = some v → x.out = none → x.store.length ≤ 2 → x.acqLeft = 0 → Completes (.laneItemCommit l) s fun c =>
        (c.lane l).cur = none ∧ (∃ it, (c.lane l).out = some it ∧ it.report.pba = u.report.pba ∧ it.llr.length = 57344 ∧
          (u.report.blank = true ∨ u.report.degraded = true → ∀ n < 57344, it.llr.getD n 0 = 0)) ∧
        (c.lane l).store.length = x.store.length + 1 ∧ c.flag (RCH_STATUS_ACTIVE l) = false ∧
        c.fld (RCH_SLOTS_COUNT l) = min (s.chip.fld (RCH_SLOTS_COUNT l) + 1) (2 ^ 32 - 1) ∧
        s.chip.fieldsKept [RCH_SLOTS_COUNT l, RCH_STATUS_ACTIVE l, RCH_STATUS_ACQUIRING l] c ∧ s.chip.bytesKept c)) ∧
    (∀ (mse : Nat) (e : Nat × ZEntry), s.chip.flag (RCH_STATUS_TAG_CONTEXT l) = true → x.entry = some e → Completes (.tagContextEnd l mse) s fun c =>
      c.flag (RCH_STATUS_TAG_CONTEXT l) = false ∧
      c.fld (RCH_ZT_DRIFT_COUNT l) = (if 4 * e.2.mse < mse then min (s.chip.fld (RCH_ZT_DRIFT_COUNT l) + 1) (2 ^ 32 - 1)
        else s.chip.fld (RCH_ZT_DRIFT_COUNT l)) ∧
      s.chip.fieldsKept [RCH_STATUS_TAG_CONTEXT l, RCH_ZT_DRIFT_COUNT l] c ∧ c = { s.chip with regs := c.regs }) ∧
    (∀ off : Nat, off < 57344 → x.hold = none → Completes (.defectOnset l off) s fun c =>
      (c.lane l).hold = some { onset := off } ∧ c.flag (RCH_STATUS_HOLD l) = true ∧ c.flag (RCH_EVENT_DEFECT l) = true ∧
      s.chip.fieldsKept [RCH_STATUS_HOLD l, RCH_EVENT_DEFECT l] c ∧ s.chip.bytesKept c) ∧
    (∀ h, x.hold = some h →
      (∀ off : Nat, off < 57344 → x.cur = none → Completes (.defectEnd l off []) s fun c =>
        (c.lane l).hold = some { h with release := some (off + 32) } ∧ s.chip.fieldsKept [RCH_DEEP_BITS_COUNT l] c ∧
        c.fld (RCH_DEEP_BITS_COUNT l) = s.chip.fld (RCH_DEEP_BITS_COUNT l) ∧ s.chip.bytesKept c) ∧
      (Completes (.longDefect l) s fun c =>
        (c.lane l).hold = some { h with long := true } ∧ c.flag (RCH_EVENT_LONG_DEFECT l) = true ∧ s.chip.fieldsKept [RCH_EVENT_LONG_DEFECT l] c ∧
        (∀ u ∈ (c.lane l).cur, u.report.longDefect = true) ∧ s.chip.bytesKept c) ∧
      (∀ r, h.release = some r → h.blank = false → Completes (.holdRelease l) s fun c =>
        (c.lane l).hold = none ∧ c.flag (RCH_STATUS_HOLD l) = false ∧
        c.fld (RCH_DEFECTS_COUNT l) = min (s.chip.fld (RCH_DEFECTS_COUNT l) + 1) (2 ^ 32 - 1) ∧
        c.fld (RCH_DEFECT_BITS_COUNT l) = min (s.chip.fld (RCH_DEFECT_BITS_COUNT l) + (h.before + (r - h.onset))) (2 ^ 32 - 1) ∧
        (c.lane l).land = (if h.long then x.land ++ [(r, r + s.chip.fld (RCH_LAND_CFG_WINDOW l))] else x.land) ∧
        s.chip.fieldsKept [RCH_STATUS_HOLD l, RCH_DEFECTS_COUNT l, RCH_DEFECT_BITS_COUNT l] c ∧ s.chip.bytesKept c)) ∧
    (∀ v : LoopVals, x.main = some v → s.chip.flag (RCH_SNAP_HOLD l) = false → s.chip.flag (RCH_STATUS_STALE l) = false →
      s.chip.flag (RCH_STATUS_TAG_CONTEXT l) = false → Completes (.snapshotLatch l) s fun c =>
        c.fld (RCH_DGAIN_DGAIN l) = bitsOfInt 16 (v.g / 65536) ∧ c.fld (RCH_BASELINE_BASELINE l) = bitsOfInt 16 (v.b / 65536) ∧
        c.fld (RCH_ASYM_ASYM l) = bitsOfInt 16 (v.a / 65536) ∧ c.fld (RCH_WOBBLE_AMP l) = bitsOfInt 16 (v.amp / 65536) ∧
        c.fld (RCH_MSE_MSE l) = bitsOfInt 16 v.mse ∧ (∀ i < 17, c.fld (RCH_EQ_TAP_TAP l i) = bitsOfInt 16 (v.taps.getD i 0 / 65536)) ∧
        (∀ j < 5, c.fld (RCH_XTI_IN_TAP l j) = bitsOfInt 8 (v.xin.getD j 0 / 65536)) ∧
        c.fld (RCH_SNAP_SEQ l) = (s.chip.fld (RCH_SNAP_SEQ l) + 1) % 2 ^ 16 ∧ c = { s.chip with regs := c.regs }) ∧
    (∀ (b : LdpcBlk) (y : LaneSlot), (s.chip.frm (l.val / 8)).iterating = [b] → b.item.lane = l.val → b.back = false → b.lost = false → x.store = [y] →
      y.pba = b.item.report.pba → Completes (.iterationDetectDone l) s fun c =>
        (∃ input, (c.frm (l.val / 8)).iterating = [{ b with input := input, back := true }]) ∧
        c.fld (if b.g = 2 then RCH_ITER2_COUNT l else RCH_ITER3_COUNT l) =
          min (s.chip.fld (if b.g = 2 then RCH_ITER2_COUNT l else RCH_ITER3_COUNT l) + 1) (2 ^ 32 - 1) ∧
        s.chip.fieldsKept [if b.g = 2 then RCH_ITER2_COUNT l else RCH_ITER3_COUNT l] c ∧ s.chip.bytesKept c) ∧
    (∀ a b : LoopVals, x.acqFirst = some a → x.acqLast = some b → x.seeds = false → acqAgree a b = false →
      ((s.chip.cal (l.val / 8)).asked = []) → Completes (.acquisitionCheck l) s fun c =>
        (c.lane l).acqFirst = none ∧ (c.lane l).acqLast = none ∧ c.flag (RCH_EVENT_ACQ_REJECT l) = true ∧ c.flag CAL_EVENT_CAL_REJECT = true ∧
        c.fld (RCH_ACQ_REJECTS_COUNT l) = min (s.chip.fld (RCH_ACQ_REJECTS_COUNT l) + 1) (2 ^ 32 - 1) ∧ s.chip.bytesKept c)

/-- Framers and the LDPC decoder (R211 to R229): an item is taken, a frame sought and framed, its tag decoded, the frame confirmed and its resyncs
matched; the item goes on to the decoder, which takes it, and asks for a further global iteration. -/
def Obligations.FramerPath : Prop :=
  ∀ (s : State) (l : Lane),
    let p := l.val / 8
    (∀ it, (s.chip.lane l).out = some it → s.chip.frameOf l = none → s.chip.flag (FRM_CTRL_EN p) = true → Completes (.framerPop l) s fun c =>
      (∃ f, c.frameOf l = some f ∧ f.item = it ∧ f.y = none ∧ f.tag = .none ∧ f.starts = [] ∧ f.ctrl = s.chip.reg (FRM_CTRL p)) ∧
      (c.lane l).out = none ∧ c.fld (FRM_ITEMS_COUNT p) = min (s.chip.fld (FRM_ITEMS_COUNT p) + 1) (2 ^ 32 - 1) ∧
      s.chip.fieldsKept [FRM_ITEMS_COUNT p] c ∧ s.chip.bytesKept c) ∧
    (∀ f, s.chip.frameOf l = some f →
      (∀ y, f.bare = false → f.windowEnd = false → f.nextCand = some y → f.y = none → Completes (.syncCandidate l y) s fun c =>
        c.frameOf l = some { f with cands := f.cands ++ [(hardDist f.item.llr y syncS, y)], y := some (hardDist f.item.llr y syncS, y) } ∧
        c.regs = s.chip.regs ∧ s.chip.bytesKept c) ∧
      (f.bare = false → f.windowEnd = false → f.nextCand = none → f.cands = [] → Completes (.searchWindowEnd l) s fun c =>
        c.frameOf l = some { f with windowEnd := true, y := some (0, 512), flywheel := true, tag := .none, starts := [] } ∧
        c.flag (FRM_EVENT_FLYWHEEL p) = true ∧ c.fld (FRM_FLYWHEEL_COUNT p) = min (s.chip.fld (FRM_FLYWHEEL_COUNT p) + 1) (2 ^ 32 - 1) ∧
        s.chip.fieldsKept [FRM_EVENT_FLYWHEEL p, FRM_FLYWHEEL_COUNT p] c ∧ s.chip.bytesKept c) ∧
      (∀ y, f.y = some y → f.windowEnd = true →
        (f.tag = .none → Completes (.tagDecodeStep l) s fun c =>
          (∃ g, c.frameOf l = some g ∧ g.tag ≠ .none ∧ g.item = f.item ∧ g.y = f.y ∧ (g.tag = .failed → g.tagHome = f.item.report.pba)) ∧
          c.regs = s.chip.regs ∧ s.chip.bytesKept c) ∧
        (f.tag = .ok ∨ f.tag = .corrected → f.flywheel = false → f.confirmed = false → (f.shiftAt (y.2 + 2384)).isSome = true →
          Completes (.frameConfirm l) s fun c =>
            c.frameOf l = some { f with confirmed := true, starts := [y.2 + 336] } ∧
            c.fld (FRM_CONFIRMED_COUNT p) = min (s.chip.fld (FRM_CONFIRMED_COUNT p) + 1) (2 ^ 32 - 1) ∧
            s.chip.fieldsKept [FRM_CONFIRMED_COUNT p] c ∧ s.chip.bytesKept c) ∧
        (f.starts ≠ [] → f.starts.length < 27 →
          (f.shiftAt (f.starts.getLastD 0 + 2048) = none → Completes (.resync l) s fun c =>
            c.frameOf l = some { f with starts := f.starts ++ [f.starts.getLastD 0 + 2072] } ∧ c.flag (FRM_EVENT_RESYNC_MISS p) = true ∧
            c.fld (FRM_RESYNC_MISSED_COUNT p) = min (s.chip.fld (FRM_RESYNC_MISSED_COUNT p) + 1) (2 ^ 32 - 1) ∧
            s.chip.fieldsKept [FRM_EVENT_RESYNC_MISS p, FRM_RESYNC_MISSED_COUNT p] c ∧ s.chip.bytesKept c) ∧
          (f.shiftAt (f.starts.getLastD 0 + 2048) = some 0 → Completes (.resync l) s fun c =>
            c.frameOf l = some { f with starts := f.starts ++ [f.starts.getLastD 0 + 2072] } ∧ c.regs = s.chip.regs ∧ s.chip.bytesKept c))) ∧
      (f.bare = true → (s.chip.frm p).toDecoder.length < 2 → Completes (.framerCommit l) s fun c =>
        c.frameOf l = none ∧ (∃ it, (c.frm p).toDecoder = (s.chip.frm p).toDecoder ++ [it] ∧ it.llr = none ∧ it.tag = .none ∧
          it.home = f.item.report.pba ∧ it.lane = l.val) ∧ c.regs = s.chip.regs ∧ s.chip.bytesKept c)) ∧
    (∀ (q : Pickup) (it : DecItem) (rest : List DecItem) (llr : List Int), (s.chip.frm q).active = none → (s.chip.frm q).iterating = [] →
      (s.chip.frm q).toDecoder = it :: rest → it.llr = some llr → Completes (.ldpcDecodeStart q) s fun c =>
        (c.frm q).active = some { item := it, input := llr } ∧ (c.frm q).toDecoder = rest ∧ c.regs = s.chip.regs ∧ s.chip.bytesKept c) ∧
    (∀ (q : Pickup) (b : LdpcBlk), (s.chip.frm q).active = some b →
      let r := ldpcRun (iterBudget b.item.iter b.g b.iters) (fieldOf b.item.iter 28 3) b.input
      r.1 = none → b.g < b.item.iterMax → r.2.2.2 ≤ fieldOf b.item.iter 16 12 → b.iters + r.2.2.1 < 20 →
      (s.chip.lane b.item.lane).store.any (fun y => y.pba == b.item.report.pba) = true → Completes (.ldpcDecodeDone q) s fun c =>
        (c.frm q).active = none ∧ (c.frm q).iterating = (s.chip.frm q).iterating ++
          [{ b with g := b.g + 1, iters := b.iters + r.2.2.1, extrinsic := List.zipWith (· - ·) r.2.1 b.input }] ∧
        c.regs = s.chip.regs ∧ s.chip.bytesKept c)

/-- Outer decoding and retries (R230 to R235, R241 to R248): a cluster with an erased member and whose parity members are there is decoded, which is
counted; a sequence goes on to its next attempt, which is counted, and every lane lands anew.
STATION_REQUEST (R500): the next request of a mounted volume leaves the weir of its channel sequencer and joins its requests in progress. -/
def Obligations.OuterAndRetry : Prop :=
  (∀ (s : State) (p : Pickup),
    (∀ (layer : Fin 10) (cluster i : Nat), cluster < 244160 → (s.chip.frm p).retry = none → (s.chip.frm p).reqs = [] → s.chip.readIdle p = true → i < 64 →
      let k : Cluster := Cells.get (fun _ => {}) (s.chip.frm p).clusters (clusterKey layer cluster)
      k.whole = true → (k.get i).state = .erased → (∀ j < 8, (k.get (56 + j)).blank = false) → Completes (.outerDecode p layer cluster) s fun c =>
        c.fld (FRM_OUTER_RUNS_COUNT p) = min (s.chip.fld (FRM_OUTER_RUNS_COUNT p) + 1) (2 ^ 32 - 1) ∧ (c.frm p).clusters = [] ∧ s.chip.bytesKept c) ∧
    (∀ (r : Retry) (h a : Nat) (q : ReadReq), (s.chip.frm p).retry = some r → s.chip.readIdle p = true → s.chip.mounted p = true →
      s.chip.afe.resumed = true → r.blocks = [(h, a, false)] → r.waiting = [] → (s.chip.frm p).reqs = [q] → q.kind = .read → h ∈ q.left →
      q.aborted = false → r.attempt < s.chip.fld (FRM_RETRY_CFG_RETRY_MAX p) → Completes (.retryAttempt p) s fun c =>
        (c.frm p).attempt = r.attempt + 1 ∧ (c.frm p).retry = some { r with attempt := r.attempt + 1 } ∧ (c.frm p).clusters = [] ∧
        c.fld (FRM_ATTEMPTS_COUNT p) = min (s.chip.fld (FRM_ATTEMPTS_COUNT p) + 1) (2 ^ 32 - 1) ∧ (∀ k < 8, (c.lane (8 * p + k)).landNext = true) ∧
        s.chip.bytesKept c)) ∧
  (∀ (s : State) (p : Pickup) (it : List WWord) (rest : List (List WWord)) (number count lba : Nat) (ahead : Bool),
    (s.chip.weir (weirKey 3 p)).items = it :: rest → (s.chip.seqr p).online = true → (s.chip.cal p).run = none → s.chip.bandDue p = false →
    s.chip.mounted p = true → number < 2 ^ 32 → 0 < count → count < 4096 → lba + count ≤ volumeBlocks →
    it.map (fun w => w.v.toNat) = [number + 2 ^ 32 * ahead.toNat, lba, count] →
    (∀ f ∈ s.chip.buf.fills, f.number ≠ number) →
    Completes (.stationRequest p) s fun c =>
      (c.frm p).reqs = (s.chip.frm p).reqs ++
        [{ number := number, kind := if ahead then .readAhead else .read, lba := lba,
           left := (List.range count).map (fun i => homePba (s.chip.vol p).side (lba + i)) }] ∧
      (c.weir (weirKey 3 p)).items = rest ∧ s.chip.bytesKept c)

/-! ### The write path -/

/-- Passes of a write channel (R254, R257, R265 to R267, R278): the queued pass starts once the conditions of Table 6.4 hold; a slot with an item is
recorded; an underrun and a STOP are noted for the slot boundary; after slot s2 the pass ends and the lanes' EN bits return; a sweep is queued. -/
def Obligations.WritePasses : Prop :=
  ∀ (s : State) (p : Pickup),
    let w := s.chip.wch p
    (∀ a, w.queued = some a → s.chip.passReady p a = true → Completes (.passStart p) s fun c =>
      (c.wch p).queued = none ∧ (∃ b, (c.wch p).pass = some b ∧ b.at_ = a.s1 ∧ b.s1 = a.s1 ∧ b.s2 = a.s2 ∧ b.strat = s.chip.stratOf p) ∧
      (c.wch p).cur = none ∧ c.flag (WCH_STATUS_PASSING p) = true ∧ c.flag (WCH_STATUS_VERIFY_MODE p) = true ∧
      c.fld (WCH_STATUS_FURROW p) = a.furrow % 8 ∧ c.fld (WCH_STATUS_LAYER p) = a.layer % 16 ∧ (c.lane (8 * p)).verify = true ∧
      (∀ k < 8, c.flag (RCH_CTRL_EN (8 * p + k)) = false) ∧ c.fld (WCH_PASSES_COUNT p) = min (s.chip.fld (WCH_PASSES_COUNT p) + 1) (2 ^ 32 - 1) ∧
      s.chip.bytesKept c) ∧
    (∀ a, w.pass = some a →
      (∀ it, a.at_ ≤ a.s2 → w.cur = none → w.stopAsked = false → w.underrun = false → s.chip.slotItem p a a.at_ = some it →
        Completes (.passSlot p) s fun c =>
          (c.wch p).cur = some it ∧ (c.wch p).pass = some { a with at_ := a.at_ + 1 } ∧ c.fld (WCH_SLOT_SLOT p) = a.at_ % 2 ^ 32 ∧
          s.chip.fieldsKept [WCH_SLOT_SLOT p] c ∧ s.chip.bytesKept c) ∧
      (a.at_ ≤ a.s2 → w.underrun = false → w.stopAsked = false → s.chip.skipsSlot p a a.at_ = false → w.items = [] → s.chip.slotItem p a a.at_ = none →
        Completes (.underrun p) s fun c =>
          (c.wch p).underrun = true ∧ (c.wch p).pass = some a ∧ c.flag (WCH_EVENT_UNDERRUN p) = true ∧
          c.fld (WCH_UNDERRUNS_COUNT p) = min (s.chip.fld (WCH_UNDERRUNS_COUNT p) + 1) (2 ^ 32 - 1) ∧
          s.chip.fieldsKept [WCH_EVENT_UNDERRUN p, WCH_UNDERRUNS_COUNT p] c ∧ s.chip.bytesKept c) ∧
      (Completes (.stopPass p) s fun c => c.wch p = { w with stopAsked := true } ∧ c.regs = s.chip.regs ∧ s.chip.bytesKept c) ∧
      (a.s2 < a.at_ → w.cur = none → w.relocs = [] → Completes (.passComplete p) s fun c =>
        (c.wch p).pass = none ∧ c.flag (WCH_STATUS_PASSING p) = false ∧ c.flag (WCH_STATUS_VERIFY_MODE p) = false ∧ (c.lane (8 * p)).verify = false ∧
        (∀ k < 8, c.flag (RCH_CTRL_EN (8 * p + k)) = w.lanesEn.testBit k) ∧ s.chip.bytesKept c)) ∧
    (∀ (r : Recorded) (rest : List Recorded) (v : VerifyIn), w.results = r :: rest → v.dec.length = 57352 → v.wOk = false →
      r.item.flags = 1 → s.chip.host.cmds = [] → w.syncOffsets = [] → Completes (.verifyResult p v) s fun c =>
        (c.wch p).results = rest ∧ c.flag (WCH_EVENT_VERIFY_FAIL p) = true ∧ c.flag (WCH_EVENT_PARITY_WEAK p) = true ∧
        c.fld (WCH_VERIFY_FAILS_COUNT p) = min (s.chip.fld (WCH_VERIFY_FAILS_COUNT p) + 1) (2 ^ 32 - 1) ∧
        s.chip.fieldsKept [WCH_EVENT_VERIFY_FAIL p, WCH_EVENT_PARITY_WEAK p, WCH_VERIFY_FAILS_COUNT p] c) ∧
    (∀ (layer : Fin 10) (furrow : Fin 8) (cluster : Nat), cluster < 244160 → s.chip.mayParity p = true →
      let a : Pass := { s1 := clusterSlot cluster + 7, s2 := clusterSlot cluster + 7, furrow := furrow, layer := layer, side := (s.chip.vol p).side,
                        at_ := clusterSlot cluster + 7, parityOnly := true }
      (s.chip.slotItem p a a.s1).isSome = true → Completes (.paritySweep p layer furrow cluster 1) s fun c =>
        (∃ b, (c.wch p).queued = some b ∧ b.s1 = a.s1 ∧ b.s2 = a.s2 ∧ b.furrow = furrow.val ∧ b.layer = layer.val ∧ b.parityOnly = true) ∧
        (c.wch p).pass = none ∧ s.chip.bytesKept c) ∧
    (∀ (layer : Fin 10) (cluster t : Nat) (mask : BitVec 64) (e : Staged), cluster < 244160 → s.chip.forWriting p = true →
      s.chip.stState (p / 2) = sMounted → s.chip.flag FLM_STATUS_UP = true → s.chip.isFatal = false → s.chip.flag (RCH_CTRL_DEGRADED (8 * p)) = false →
      s.chip.host.cmds = [] → s.chip.buf.staged = [e] → (e.volumeId, e.side) = s.chip.discOf p → e.survey = true → e.state = 1 →
      pbaLayer e.homePba = layer.val → slotCluster (pbaSlot e.homePba) = cluster →
      surveyBlank mask (pbaFurrow e.homePba) (slotInZone (pbaSlot e.homePba) % 8) = true → t < 56 →
      s.chip.recOf p (clusterLba layer cluster t) = .unknown → Completes (.survey p layer cluster mask) s fun c =>
        c.buf.staged = [{ e with survey := false }] ∧
        c.recOf p (clusterLba layer cluster t) = (if surveyBlank mask (t % 8) (t / 8) then .blank else .recorded))

/-- The Xfurrow instructions of a channel sequencer (R511 to R515), with rd other than x0: FARM arms the lanes a mask names, FDISARM disarms them,
FZLOAD waits for the zone entry and then caches it, FPASS queues a pass or answers why not, FWAITEV gives the EVENT word or waits for it. -/
def Obligations.Xfurrow : Prop :=
  ∀ (s : State) (p : Pickup) (rd rs1 rs2 : Fin 32), rd.val ≠ 0 →
    let a := s.chip.getX (.cs p) rs1
    let b := s.chip.getX (.cs p) rs2
    let gives := fun (c : Chip) (v : Nat) => c.getX (.cs p) rd = BitVec.ofNat 64 v
    (fieldOf a 32 4 ≤ 9 → fieldOf a 0 32 + fieldOf a 48 16 ≤ lastSlot + 1 → fieldOf a 48 16 ≠ 0 → fieldOf a 40 8 ≠ 0 →
      (∀ k < 8, (fieldOf a 40 8).testBit k = true → (s.chip.lane (8 * p + k)).next = none ∧ s.chip.flag (RCH_CTRL_EN (8 * p + k)) = true) →
      Completes (.farm p rd rs1 rs2) s fun c =>
        gives c 0 ∧ (∀ k < 8,
          let x := s.chip.lane (8 * p + k)
          let y := c.lane (8 * p + k)
          let r : ArmRun := ⟨mkPba (fieldOf a 36 1) (fieldOf a 32 4) k (fieldOf a 0 32), fieldOf a 48 16, b.getLsbD 0, fieldOf b 32 32⟩
          y = if (fieldOf a 40 8).testBit k then (if x.armed then { x with next := some r } else { x with run := some r, disarm := false }) else x) ∧
        c.regs = s.chip.regs ∧ s.chip.bytesKept c) ∧
    (Completes (.fdisarm p rd rs1 rs2) s fun c =>
      gives c 0 ∧ (∀ k < 8,
        let x := s.chip.lane (8 * p + k)
        c.lane (8 * p + k) = if (fieldOf a 0 8).testBit k then { x with next := none, disarm := x.run.isSome } else x) ∧
      c.regs = s.chip.regs ∧ s.chip.bytesKept c) ∧
    (isZoneAddr a.toNat = false → Completes (.fzload p rd rs1 rs2) s fun c => gives c 2 ∧ c.regs = s.chip.regs ∧ s.chip.bytesKept c) ∧
    (isZoneAddr a.toNat = true → s.chip.flag FLM_STATUS_UP = false → Completes (.fzload p rd rs1 rs2) s fun c => gives c 4 ∧ s.chip.bytesKept c) ∧
    (isZoneAddr a.toNat = true → s.chip.flag FLM_STATUS_UP = true → fieldOf b 0 8 ≠ 0 → Completes (.fzload p rd rs1 rs2) s fun c =>
      (c.eng (engNum (.cs p))).zload = some (a.toNat, fieldOf b 0 8, fieldOf b 8 2, rd.val) ∧ c.getX (.cs p) rd = s.chip.getX (.cs p) rd ∧
      c.regs = s.chip.regs ∧ s.chip.bytesKept c) ∧
    (∀ addr mask slot : Nat, (s.chip.eng (engNum (.cs p))).zload = some (addr, mask, slot, rd.val) → s.chip.carrying = true →
      s.chip.unitMark (addr / 64) = .good → Completes (.fzloadComplete p) s fun c =>
        gives c 0 ∧ (c.eng (engNum (.cs p))).zload = none ∧ (∀ k < 8, mask.testBit k = true →
          Cells.get (fun _ => none) (c.lane (8 * p + k)).cache slot = some (addr, entryOf (s.chip.bytes addr 64))) ∧
        c.regs = s.chip.regs ∧ s.chip.bytesKept c) ∧
    ((s.chip.wch p).pass = none → (s.chip.wch p).queued = none → passRange (pbaSlot (fieldOf a 0 40)) b.toNat = true →
      pbaLayer (fieldOf a 0 40) ≤ 9 → s.chip.passEnabled p = true → Completes (.fpass p rd rs1 rs2) s fun c =>
        gives c 0 ∧ (∃ q, (c.wch p).queued = some q ∧ q.s1 = pbaSlot (fieldOf a 0 40) ∧ q.s2 = b.toNat ∧ q.furrow = pbaFurrow (fieldOf a 0 40) ∧
          q.layer = pbaLayer (fieldOf a 0 40)) ∧ s.chip.bytesKept c) ∧
    ((s.chip.wch p).pass.isSome = true → passRange (pbaSlot (fieldOf a 0 40)) b.toNat = true → pbaLayer (fieldOf a 0 40) ≤ 9 →
      s.chip.passEnabled p = true → Completes (.fpass p rd rs1 rs2) s fun c =>
        gives c 1 ∧ c.path = s.chip.path ∧ c.regs = s.chip.regs ∧ s.chip.bytesKept c) ∧
    (b.toNat < 2 →
      (s.chip.seqChanged p b.toNat a = true → Completes (.fwaitev p rd rs1 rs2) s fun c =>
        gives c (s.chip.waitWord p b.toNat).toNat ∧ c.regs = s.chip.regs ∧ s.chip.bytesKept c) ∧
      (s.chip.seqChanged p b.toNat a = false → Completes (.fwaitev p rd rs1 rs2) s fun c =>
        (c.eng (engNum (.cs p))).waitev = some (b.toNat, rd.val, a) ∧ c.regs = s.chip.regs ∧ s.chip.bytesKept c)) ∧
    (∀ (sel : Nat) (seen : Word), (s.chip.eng (engNum (.cs p))).waitev = some (sel, rd.val, seen) → s.chip.seqChanged p sel seen = true →
      Completes (.fwaitevReturn p) s fun c =>
        gives c (s.chip.waitWord p sel).toNat ∧ (c.eng (engNum (.cs p))).waitev = none ∧ c.regs = s.chip.regs ∧ s.chip.bytesKept c)

/-! ### Supervision -/

/-- Heartbeats, the journal and the roles (R434 to R439, R442). Each heartbeat tells the role; a pulse seen again clears the silence of its path; silence on one
path is a path fault; on both, the peer has failed: the STANDBY takes over and its peer is restored. An acknowledged entry leaves those waited for, and the
final one swaps the roles; a late one leaves the STANDBY unsynchronised; a restored watermaster is STANDBY. What a swap waits for is asked with a final entry
(its number is the model's, log entry 10). -/
def Obligations.WatermasterRoles : Prop :=
  ∀ (s : State) (d : Die),
    let o := otherDie d
    let w := s.chip.wm d
    let a := s.chip.activeDie
    let sup := fun c : Chip => c = { s.chip with sup := c.sup }
    (s.chip.wmRuns d = true → s.chip.flag FLM_STATUS_UP = true → Completes (.wmHeartbeatSend d) s fun c =>
      let dir := if d = .h then Dir.toM else .toH
      ∃ p : Packet, (c.flume dir).ready = (s.chip.flume dir).ready ++ [p] ∧ p.ty = 1 ∧ p.unit = unitWm ∧
        (p.payload.getD 0 0).toNat % 256 = s.chip.role d ∧ ((p.payload.getD 0 0).toNat.testBit 8 = true ↔ s.chip.role d = roleSplit) ∧
        ((p.payload.getD 0 0).toNat.testBit 9 = (s.chip.flag (peerFlume d) || s.chip.flag (peerPulse d))) ∧ c = { s.chip with arch := c.arch }) ∧
    (∀ split : Bool, s.chip.flag FLM_STATUS_UP = true → w.missFlume = false → Completes (.pulseHeartbeat (decide (d = .m)) split) s fun c =>
      c.flag (peerPulse d) = true ∧ c.flag (peerSplit d) = split ∧ (c.wm d).missPulse = false ∧ c.wm o = s.chip.wm o ∧
      s.chip.fieldsKept [peerPulse d, peerSplit d] c ∧ s.chip.bytesKept c) ∧
    (s.chip.wmRuns d = true → s.chip.flag FLM_STATUS_UP = true → s.chip.flag FLM_STATUS_RETRAINING = false → s.chip.flag (peerDead d) = false →
      (s.chip.wm o).restoring = false →
      (∀ pulse : Bool, (if pulse then w.missFlume else w.missPulse) = false → w.path ≠ some pulse.toNat → Completes (.peerHeartbeatMissing d pulse) s fun c =>
        let seen := if pulse then peerPulse d else peerFlume d
        let ev := if pulse then wmFld d WMH_EVENT_PATH_PULSE WMM_EVENT_PATH_PULSE else wmFld d WMH_EVENT_PATH_FLUME WMM_EVENT_PATH_FLUME
        let n := wmFld d WMH_PATH_FAULTS_COUNT WMM_PATH_FAULTS_COUNT
        c.flag seen = false ∧ c.flag ev = true ∧ c.fld n = min (s.chip.fld n + 1) (2 ^ n.w - 1) ∧ c.role d = s.chip.role d ∧
        (c.weir (weirKey 6 0)).items = (s.chip.weir (weirKey 6 0)).items ++
          [(logWords (s.chip.nowOn d) 0x0606 d [1, 0, pulse.toNat]).map (fun w => ⟨w, false⟩)] ∧
        s.chip.fieldsKept [seen, ev, n] c ∧ s.chip.bytesKept c) ∧
      (w.missFlume = true → s.chip.role d = roleStandby → Completes (.peerHeartbeatMissing d true) s fun c =>
        c.role d = roleActive ∧ c.role o = roleFailed ∧ c.flag (peerDead d) = true ∧ (c.wm o).restoring = true ∧
        c.flag (wmFld d WMH_EVENT_TAKEOVER WMM_EVENT_TAKEOVER) = true ∧ c.flag (wmFld d WMH_EVENT_PEER_FAILED WMM_EVENT_PEER_FAILED) = true)) ∧
    (∀ j rest, (s.chip.wm a).waiting = j :: rest →
      (s.chip.carrying = true → s.chip.wmRuns (otherDie a) = true → s.chip.sup.wmLoad = 0 → Completes .journalAck s fun c =>
        (c.wm a).waiting = rest ∧ (c.wm (otherDie a)).seq = j.seq ∧
        (j.action ≠ actRoles → sup c) ∧
        (j.action = actRoles → c.role a = roleStandby ∧ c.role (otherDie a) = roleActive ∧
          c.fld WMH_ROLE_SWAPS_COUNT = min (s.chip.fld WMH_ROLE_SWAPS_COUNT + 1) (2 ^ WMH_ROLE_SWAPS_COUNT.w - 1) ∧
          c.flag WMH_EVENT_ROLE_SWAP = true ∧ c.flag WMM_EVENT_ROLE_SWAP = true ∧
          s.chip.fieldsKept [WMH_ROLE_ROLE, WMM_ROLE_ROLE, WMH_ROLE_SWAPS_COUNT, WMH_EVENT_ROLE_SWAP, WMM_EVENT_ROLE_SWAP] c ∧ s.chip.bytesKept c)) ∧
      Completes .journalAckTimeout s fun c => (c.wm a).waiting = rest ∧ (c.wm (otherDie a)).unsynced = true ∧ sup c) ∧
    (∀ i : Instr, i = .wmSwapNow ∨ i = .wmRoleSwap ∧ s.chip.flag WMH_CTRL_SWAP_EN = true → s.chip.maySwap = true → Completes i s fun c =>
      (c.wm a).waiting = (s.chip.wm a).waiting ++ [⟨(s.chip.wm a).seq + 1, actRoles, 0⟩] ∧ (c.wm (otherDie a)) = s.chip.wm (otherDie a) ∧ sup c) ∧
    (s.chip.wmRuns o = true → w.restoring = true → s.chip.role d = roleFailed → s.chip.host.activating = none →
      (s.chip.flag FLM_STATUS_UP = true → Completes (.wmRestoreDone d true) s fun c =>
        c.role d = roleStandby ∧ c.flag (peerDead o) = false ∧ c.flag (wmFld o WMH_EVENT_PEER_RESTORED WMM_EVENT_PEER_RESTORED) = true ∧
        (c.wm d).restoring = false ∧ (c.wm d).unsynced = false ∧
        s.chip.fieldsKept [roleOf d, peerDead o, wmFld o WMH_EVENT_PEER_RESTORED WMM_EVENT_PEER_RESTORED] c ∧ s.chip.bytesKept c) ∧
      Completes (.wmRestoreDone d false) s fun c => (c.wm d).restoring = false ∧ c.role d = roleFailed ∧ sup c)

/-- Watchdogs, the park sequencer and a lost Flume (R442, R446 to R448). A feed arms a watchdog and gives it the time; one that expires on the H-die makes the
device fatal with cause 3, on the M-die the park sequencer acts: RUN of every pair is 0 and every link is parked, and a station that it finds stopped enters
FAULT. With the Flume lost WM-M parks a mounted station with cause LINK_LOST. -/
def Obligations.WatchdogsAndPark : Prop :=
  ∀ (s : State),
    (∀ (d : Die) (peer : Bool),
      (if peer then s.chip.carrying = true ∧ s.chip.role (otherDie d) = roleActive ∧ s.chip.wmRuns (otherDie d) = true else s.chip.wmRuns d = true) →
      Completes (.watchdogFeed d peer) s fun c => (c.wm d).fed = some (s.chip.nowOn d) ∧ c = { s.chip with sup := c.sup }) ∧
    (s.chip.sup.wmH.fed.isSome = true → s.chip.isFatal = false → s.chip.host.cmds = [] → s.chip.buf.scrub.uid = none → s.chip.flag FLM_STATUS_UP = false →
      Completes (.watchdogExpiry .h) s fun c =>
        c.flag WMH_ROLE_FATAL = true ∧ c.flag GEN_CONFIG_FATAL = true ∧ c.fld WMH_FATAL_CAUSE = 3 ∧ c.flag WMH_EVENT_FATAL = true ∧
        c.fld WMH_FATAL_TIME_TIME = s.chip.nowH.toNat ∧
        (c.weir (weirKey 6 0)).items = (s.chip.weir (weirKey 6 0)).items ++ [(logWords s.chip.nowH 0x060C .h [3]).map (fun w => ⟨w, false⟩)] ∧
        s.chip.fieldsKept [WMH_ROLE_FATAL, GEN_CONFIG_FATAL, WMH_FATAL_CAUSE, WMH_EVENT_FATAL, WMH_FATAL_TIME_TIME] c ∧ s.chip.bytesKept c) ∧
    (s.chip.sup.wmM.fed.isSome = true → s.chip.flag WMM_PS_STATUS_ACTED = false → (∀ p < 16, (s.chip.wch p).pass = none ∧ (s.chip.wch p).queued = none) →
      (∀ x < 8, s.chip.stState x ∈ [sEmpty, sSafe, sLoaded, sFault]) → Completes (.watchdogExpiry .m) s fun c =>
        c.flag WMM_PS_STATUS_ACTED = true ∧ c.flag WMM_ROLE_PS_ACTED = true ∧ c.flag WMM_EVENT_PS_ACTED = true ∧
        c.fld WMM_PS_TIME_TIME = s.chip.now.toNat ∧ (∀ q < 24, c.flag (LE_PAIR_CTRL_RUN q) = false ∧ (c.pair q).gate = []) ∧
        (∀ x < 8, (c.link x).parked = true ∧ c.fld (SPN_STATUS_MODE x) ∈ [0, 2] ∧ c.stState x = s.chip.stState x) ∧ s.chip.bytesKept c) ∧
    (∀ x : Station, s.chip.flag WMM_PS_STATUS_ACTED = true → s.chip.stopped x = true → s.chip.stState x = sParking → (s.chip.stn x).resetUids = [] →
      (s.chip.stn x).waiters = [] → Completes (.psStationStopped x) s fun c =>
        c.stState x = sFault ∧ c.fld (WMM_STN_STATE_PREV x) = sParking ∧ c.fld (WMM_STN_STATE_CAUSE x) = s.chip.fld (WMM_STN_STATE_CAUSE x) ∧
        c.flag (WMM_STN_EVENT_STATE_CHANGE x) = true ∧ (c.stn x).parkStep = 0 ∧ (∀ y < 8, y ≠ x.val → c.stState y = s.chip.stState y) ∧ s.chip.bytesKept c) ∧
    (∀ x : Station, s.chip.flag FLM_STATUS_UP = false → s.chip.wmRuns .m = true → s.chip.flag WMM_PS_STATUS_ACTED = false → s.chip.stState x = sMounted →
      (∀ y < 8, y ≠ x.val → s.chip.stState y ∈ [sEmpty, sSafe, sLoaded, sFault]) → (∀ k < 2, s.chip.host.stationEvents.getD k false = false) →
      s.chip.host.cmds = [] → s.chip.buf.staged = [] → (∀ p, p / 2 = x.val →
        (s.chip.wch p).pass = none ∧ (s.chip.wch p).queued = none ∧ (s.chip.wch p).results = [] ∧ s.chip.fld (CAL_PU_STATUS_CYCLE p) = 0 ∧
        (s.chip.cal p).acqBy = none ∧ (s.chip.frm p).reqs = [] ∧ (s.chip.frm p).retry = none ∧ (s.chip.vol p).qual = none) →
      Completes .linkLost s fun c =>
        c.stState x = sParking ∧ c.fld (WMM_STN_STATE_PREV x) = sMounted ∧ c.fld (WMM_STN_STATE_CAUSE x) = cauLinkLost ∧ (c.stn x).parkStep = 2 ∧
        (c.stn x).causes = [cauLinkLost] ∧ (∀ y < 8, y ≠ x.val → c.stState y = s.chip.stState y))

/-- Command cores and channel sequencers (R69, R449, R450). A heartbeat is noted; a silent core is taken offline and its weirs of requests and answers are emptied,
which is counted; a passed test brings it back. A failed sequencer is held in reset and restarts; once restarted it is online again. -/
def Obligations.CoresAndSequencers : Prop :=
  ∀ (s : State),
    (∀ k : Fin 12,
      let on : Fld := ⟨WMH_CORES, k, 1⟩
      let test : Fld := ⟨WMH_CORES, 16 + k, 1⟩
      (Completes (.coreHeartbeat k) s fun c =>
        Cells.get (fun _ => 0) c.sup.beats k = s.chip.nowH ∧ c = { s.chip with sup := { s.chip.sup with beats := c.sup.beats } }) ∧
      (s.chip.coreOnline k = true → s.chip.host.queues = [] → s.chip.buf.fills = [] → Completes (.coreSilent k) s fun c =>
        c.flag on = false ∧ c.flag test = true ∧ c.flag WMH_EVENT_CORE_FAILED = true ∧
        c.fld WMH_CORE_FAILS_COUNT = min (s.chip.fld WMH_CORE_FAILS_COUNT + 1) (2 ^ WMH_CORE_FAILS_COUNT.w - 1) ∧
        (∀ kind ∈ [0, 4, 5], (c.weir (weirKey kind k)).items = []) ∧ c.eng (engNum (.core k)) = {} ∧
        s.chip.fieldsKept [on, test, WMH_EVENT_CORE_FAILED, WMH_CORE_FAILS_COUNT] c ∧ c.buf.mem = s.chip.buf.mem) ∧
      (s.chip.flag test = true →
        (Completes (.coreTestDone k true) s fun c => c.flag test = false ∧ c.coreOnline k = true ∧ c.eng (engNum (.core k)) = {}) ∧
        (Completes (.coreTestDone k false) s fun c =>
          c.flag test = false ∧ c.flag on = s.chip.flag on ∧
          (c.weir (weirKey 6 0)).items = (s.chip.weir (weirKey 6 0)).items ++ [(logWords s.chip.nowH 0x060A .h [k, 1]).map (fun w => ⟨w, false⟩)] ∧
          s.chip.fieldsKept [test] c ∧ s.chip.bytesKept c))) ∧
    (∀ p : Pickup,
      let on : Fld := ⟨WMM_CS, p, 1⟩
      let again : Fld := ⟨WMM_CS, 16 + p, 1⟩
      ((s.chip.seqr p).online = true → (s.chip.seqr p).failedAt = none → (s.chip.frm p).retry = none → (s.chip.wch p).pass = none →
        (s.chip.wch p).queued = none → Completes (.csFailure p) s fun c =>
          c.flag on = false ∧ c.flag again = true ∧ (c.seqr p).online = false ∧ (c.seqr p).restarting = true ∧ (c.seqr p).held = false ∧
          (c.seqr p).failedAt = some s.chip.now.toNat ∧ c.flag WMM_EVENT_CS_FAILED = true ∧
          c.fld WMM_CS_FAILS_COUNT = min (s.chip.fld WMM_CS_FAILS_COUNT + 1) (2 ^ WMM_CS_FAILS_COUNT.w - 1) ∧
          s.chip.fieldsKept [on, again, WMM_EVENT_CS_FAILED, WMM_CS_FAILS_COUNT] c ∧ (∀ x < 8, c.stState x = s.chip.stState x) ∧ s.chip.bytesKept c) ∧
      ((s.chip.seqr p).restarting = true → (s.chip.seqr p).held = false → s.chip.host.activating = none → Completes (.csRestartDone p) s fun c =>
        c.flag on = true ∧ c.flag again = false ∧ (c.seqr p).online = true ∧ (c.seqr p).restarting = false ∧
        c.fld WMM_CS_RESTARTS_COUNT = min (s.chip.fld WMM_CS_RESTARTS_COUNT + 1) (2 ^ WMM_CS_RESTARTS_COUNT.w - 1) ∧
        c.servo.engines = s.chip.servo.engines))

/-! ### Calibration and temperature -/

/-- Hardware cycles, the VCO band and the ADC reference (R567, R568, R574, R583). START begins a cycle or is refused; its first results are kept for the repeat; a
reading of the tuning voltage outside 20 % to 80 % makes a step pending; a pending step moves the band by one or goes back; a step is accepted where both
readings are inside; two trims of the reference that agree set it. -/
def Obligations.CalibrationCycles : Prop :=
  ∀ (s : State),
    let regs := fun c : Chip => c = { s.chip with regs := c.regs }
    (∀ p : Pickup, let item := s.chip.fld (CAL_PU_CTRL_ITEM p)
      (s.chip.flag (CAL_PU_STATUS_CYCLE p) = false → s.chip.startRefused p item = true → Completes (.calCycleStart p) s fun c =>
        c.flag (CAL_PU_STATUS_START_REFUSED p) = true ∧ s.chip.fieldsKept [CAL_PU_STATUS_START_REFUSED p] c ∧ regs c) ∧
      (s.chip.flag (CAL_PU_STATUS_CYCLE p) = false → s.chip.startRefused p item = false → s.chip.fld (CAL_ITEM_STATE p item) ≠ 3 →
        Completes (.calCycleStart p) s fun c =>
          c.flag (CAL_PU_STATUS_CYCLE p) = true ∧ c.fld (CAL_PU_STATUS_ITEM p) = item ∧ c.flag (CAL_PU_STATUS_STALE p) = true ∧
          c.flag (CAL_PU_STATUS_START_REFUSED p) = false ∧
          s.chip.fieldsKept [CAL_PU_STATUS_CYCLE p, CAL_PU_STATUS_ITEM p, CAL_PU_STATUS_STALE p, CAL_PU_STATUS_START_REFUSED p] c ∧ regs c) ∧
      (∀ rs : List (BitVec 16), rs.length = 14 → s.chip.flag (CAL_PU_STATUS_CYCLE p) = true → s.chip.fld (CAL_PU_STATUS_ITEM p) ≤ 1 →
        (s.chip.cal p).first = none → s.chip.startRefused p (s.chip.fld (CAL_PU_STATUS_ITEM p)) = false → Completes (.calCycleDone p rs) s fun c =>
          (∀ j < 8, c.fld (CAL_PU_RESULT_VALUE p j) = (rs.getD j 0).toNat) ∧
          (∀ j, 8 ≤ j → j < 14 → c.fld (CAL_PU_RESULT_VALUE p j) = if s.chip.fld (CAL_PU_STATUS_ITEM p) = 1 then 0 else (rs.getD j 0).toNat) ∧
          (c.cal p).first.isSome = true ∧ c.flag (CAL_PU_STATUS_CYCLE p) = true ∧
          s.chip.fieldsKept ((List.range 14).map (CAL_PU_RESULT_VALUE p)) c ∧ s.chip.bytesKept c)) ∧
    (∀ tune : Fin 1001,
      (s.chip.flag CAL_CTRL_PLL_AUTO = false ∨ s.chip.flag CAL_PLL_PENDING = false ∧ 200 ≤ tune.val ∧ tune.val ≤ 800 → Completes (.pllTuneCheck tune) s fun c =>
        c.fld CAL_PLL_TUNE = tune ∧ s.chip.fieldsKept [CAL_PLL_TUNE] c ∧ regs c) ∧
      (s.chip.flag CAL_CTRL_PLL_AUTO = true → 50 < tune.val ∧ tune.val < 200 ∨ 800 < tune.val ∧ tune.val < 950 → Completes (.pllTuneCheck tune) s fun c =>
        c.fld CAL_PLL_TUNE = tune ∧ c.flag CAL_PLL_PENDING = true ∧ s.chip.fieldsKept [CAL_PLL_TUNE, CAL_PLL_PENDING] c ∧ regs c)) ∧
    (Completes .pllCal s fun c => c.flag CAL_PLL_PENDING = true ∧ s.chip.fieldsKept [CAL_PLL_PENDING] c ∧ regs c) ∧
    (s.chip.flag CAL_PLL_PENDING = true → s.chip.idleBoundary = true → Completes .pllBandStep s fun c =>
      let b := s.chip.fld CAL_PLL_BAND
      c.flag CAL_PLL_PENDING = false ∧ c.fld AFE_PLL_STATUS_VCO_BAND = c.fld CAL_PLL_BAND ∧ c.flag CAL_EVENT_PLL_BAND = true ∧
      c.fld CAL_BAND_CHANGES_COUNT = min (s.chip.fld CAL_BAND_CHANGES_COUNT + 1) (2 ^ CAL_BAND_CHANGES_COUNT.w - 1) ∧
      (s.chip.thermal.reverse = false → (c.fld CAL_PLL_BAND = min 63 (b + 1) ∨ c.fld CAL_PLL_BAND = b - 1) ∧ c.thermal.stepFrom = some b) ∧
      (∀ b0 < 64, s.chip.thermal.reverse = true → s.chip.thermal.stepFrom = some b0 → c.fld CAL_PLL_BAND = b0 ∧ c.thermal.stepFrom = none) ∧
      s.chip.fieldsKept [CAL_PLL_PENDING, AFE_PLL_STATUS_VCO_BAND, CAL_PLL_BAND, CAL_BAND_CHANGES_COUNT, CAL_EVENT_PLL_BAND] c ∧ s.chip.bytesKept c) ∧
    (∀ t1 t2 : Fin 1001, s.chip.thermal.stepFrom.isSome = true → s.chip.thermal.reverse = false → s.chip.thermal.pllBy = [] →
      (200 ≤ t1.val → t1.val ≤ 800 → 200 ≤ t2.val → t2.val ≤ 800 → Completes (.pllBandMeasured t1 t2) s fun c =>
        c.fld CAL_PLL_TUNE = t2 ∧ c.thermal.stepFrom = none ∧
        c.fld CAL_ACCEPTS_COUNT = min (s.chip.fld CAL_ACCEPTS_COUNT + 1) (2 ^ CAL_ACCEPTS_COUNT.w - 1) ∧
        s.chip.fieldsKept [CAL_PLL_TUNE, CAL_DEV_ITEMS_PLL, CAL_ACCEPTS_COUNT] c ∧ s.chip.bytesKept c) ∧
      (t1.val < 200 ∨ 800 < t2.val → Completes (.pllBandMeasured t1 t2) s fun c =>
        c.fld CAL_PLL_TUNE = t2 ∧ c.thermal.reverse = true ∧ c.flag CAL_PLL_PENDING = true ∧ c.flag CAL_EVENT_CAL_REJECT = true ∧
        c.fld CAL_REJECTS_COUNT = min (s.chip.fld CAL_REJECTS_COUNT + 1) (2 ^ CAL_REJECTS_COUNT.w - 1) ∧ s.chip.bytesKept c)) ∧
    (∀ a b : BitVec 10, s.chip.thermal.refBy = [] →
      ((a.toInt - b.toInt).natAbs ≤ 1 → Completes (.refCal a b) s fun c =>
        c.fld CAL_REF_TRIM = b.toNat ∧ c.fld CAL_ACCEPTS_COUNT = min (s.chip.fld CAL_ACCEPTS_COUNT + 1) (2 ^ CAL_ACCEPTS_COUNT.w - 1) ∧
        s.chip.fieldsKept [CAL_REF_TRIM, CAL_DEV_ITEMS_REF, CAL_ACCEPTS_COUNT] c ∧ regs c) ∧
      (1 < (a.toInt - b.toInt).natAbs → Completes (.refCal a b) s fun c =>
        c.fld CAL_REF_TRIM = s.chip.fld CAL_REF_TRIM ∧ c.flag CAL_EVENT_CAL_REJECT = true ∧
        c.fld CAL_REJECTS_COUNT = min (s.chip.fld CAL_REJECTS_COUNT + 1) (2 ^ CAL_REJECTS_COUNT.w - 1) ∧ regs c))

/-- Temperature sensors, thermal levels and aging monitors (R579 to R582, R586 to R591). A good reading shows in TEMP and PEAK; at the second reading in a row at or
above WARN the level is WARN; after 10 s below THROTTLE − HYST it leaves THROTTLE; a passed stuck check clears the one before; a margin below the warning
level warns once, and is logged. -/
def Obligations.Temperatures : Prop :=
  ∀ (s : State),
    (∀ (d : Die) (i : Fin 12) (temp : BitVec 11),
      let k : Sensor := .die d i
      let h : Heat := .die d
      let t := temp.toNat
      let x := s.chip.heat (heatNum h)
      let status := if d = .h then [THH_STATUS_HOTTEST, THH_STATUS_BROKEN, THH_STATUS_FAST] else [CAL_STATUS_HOTTEST, CAL_STATUS_BROKEN, CAL_STATUS_FAST]
      (∀ j < 12, (s.chip.sens (dieBase d + j)).broken = false) → 192 ≤ t → t ≤ 1712 → s.chip.fld (heatLevel h) = 0 → x.lvl = 0 →
      t < s.chip.heatAt h 1 → t < s.chip.heatAt h 2 →
      (t < s.chip.heatAt h 0 → Completes (.sensorEvaluation k temp) s fun c =>
        c.fld (sensTemp k) = t ∧ c.fld (sensPeak k) = max (s.chip.fld (sensPeak k)) t ∧ c.fld (heatLevel h) = 0 ∧
        s.chip.fieldsKept ([sensTemp k, sensPeak k] ++ status) c ∧ s.chip.bytesKept c) ∧
      (s.chip.heatAt h 0 ≤ t → x.upW = 1 → (∀ j < 12, j ≠ i.val → s.chip.fld (if d = .h then THH_SENSOR_TEMP j else CAL_SENSOR_TEMP j) < t) →
        Completes (.sensorEvaluation k temp) s fun c =>
          let ev := if d = .h then THH_EVENT_WARN else CAL_EVENT_WARN
          let n := if d = .h then THH_WARNS_COUNT else CAL_WARNS_COUNT
          c.fld (sensTemp k) = t ∧ c.fld (heatLevel h) = 1 ∧ c.flag ev = true ∧ c.fld n = min (s.chip.fld n + 1) (2 ^ n.w - 1) ∧
          s.chip.fieldsKept ([sensTemp k, sensPeak k, heatLevel h, ev, n, CAL_STATUS_THROTTLED] ++ status) c ∧ s.chip.bytesKept c) ∧
      (∀ low high : Nat, 3 * high ≤ 4 * low → 4 * low ≤ 5 * high → Completes (.stuckCheck k low high) s fun c =>
        (c.sens (sensNum k)).stuck = false ∧ (c.sens (sensNum k)).passed = true ∧ s.chip.fieldsKept status c ∧ s.chip.bytesKept c)) ∧
    (∀ h : Heat, let x := s.chip.heat (heatNum h)
      x.lvl = 2 → x.holding = true → s.chip.brokenLevel h = 0 → s.chip.fld (heatLevel h) = 2 → Completes (.throttleHoldEnd h) s fun c =>
        let ev := match h with
          | .die .h => THH_EVENT_LEVEL_DOWN
          | _ => CAL_EVENT_LEVEL_DOWN
        c.fld (heatLevel h) = (if 2 ≤ x.downW then 0 else 1) ∧ c.flag ev = true ∧
        s.chip.fieldsKept [heatLevel h, CAL_STATUS_THROTTLED, ev] c ∧ s.chip.bytesKept c) ∧
    (∀ (d : Die) (m : Fin 8) (margin : Int), -1024 ≤ margin → margin < 1024 →
      let f := if d = .h then THH_AGING_MARGIN m else CAL_AGING_MARGIN m
      let warn := if d = .h then THH_AGING_WARN m else CAL_AGING_WARN m
      let ev := if d = .h then THH_EVENT_AGING_WARN else CAL_EVENT_AGING_WARN
      let level : Int := s.chip.fld (if d = .h then THH_AGING_CFG_WARN_LEVEL else CAL_AGING_CFG_WARN_LEVEL)
      let key := 8 * (if d = .h then 0 else 1) + m.val
      Completes (.agingMeasurement d m margin) s fun c =>
        c.int f = margin ∧ (margin < level → c.flag warn = true) ∧ (level + 5 ≤ margin → c.flag warn = false) ∧
        (level ≤ margin → margin < level + 5 → c.flag warn = s.chip.flag warn) ∧
        (margin < level → s.chip.thermal.warned.contains key = false → c.flag ev = true ∧ c.thermal.warned = key :: s.chip.thermal.warned ∧
          (c.weir (weirKey 6 0)).items = (s.chip.weir (weirKey 6 0)).items ++
            [(logWords (s.chip.nowOn d) 0x0105 d (m.val :: detBytes 2 (bitsOfInt 16 margin))).map (fun w => ⟨w, false⟩)]) ∧
        s.chip.fieldsKept [f, warn, ev] c ∧ s.chip.bytesKept c)

/-! ### The Sluice -/

/-- Windows, doorbells and configuration space (R464 to R474, R477, R608). A slot write opens its slot and changes its bytes; a poisoned one halts the window; a
commit word ends a set that then waits to be taken; RESUME and the head of a ring; a taken set is a command of the table; a data capsule in sequence
moves the data window's HEAD on. -/
def Obligations.HostWindows : Prop :=
  ∀ (s : State) (x : Port) (n : Nat),
    let q := s.chip.queue n
    let others := fun c : Chip => ∀ k, k ≠ n → c.queue k = s.chip.queue k
    (s.chip.windowOk x n = true → q.stopped = false →
      (q.halted = false →
        (∀ (off : Nat) (bs : List Byte), off < 0x800 → off / 64 ∉ q.open_ → 0 < s.chip.freeForUse → Completes (.capsuleSlotWrite x n false off bs .none) s fun c =>
          (∀ i < bs.length, Cells.get (fun _ => 0) (c.queue n).slots (off + i) = bs.getD i 0) ∧
          (∀ j, (j < off ∨ off + bs.length ≤ j) → Cells.get (fun _ => 0) (c.queue n).slots j = Cells.get (fun _ => 0) q.slots j) ∧
          (c.queue n).open_ = off / 64 :: q.open_ ∧ (c.queue n).sets = q.sets ∧ others c ∧ HostOnly s.chip c) ∧
        (∀ (off : Nat) (bs : List Byte), Completes (.capsuleSlotWrite x n false off bs .poisoned) s fun c =>
          c.queue n = { q with halted := true, sets := [], open_ := [] } ∧
          c.fld (SLC_INTAKE_ERRORS_COUNT x) = min (s.chip.fld (SLC_INTAKE_ERRORS_COUNT x) + 1) (2 ^ (SLC_INTAKE_ERRORS_COUNT x).w - 1) ∧
          s.chip.fieldsKept [SLC_INTAKE_ERRORS_COUNT x] c ∧ others c ∧ s.chip.bytesKept c) ∧
        (∀ word : Word, q.expPos < 65536 → q.expPos % 32 ∈ q.open_ → word.getLsbD 63 = true → word.toNat / 2 ^ 32 % 65536 = q.expPos →
          Cells.get (fun _ => 0) q.slots (64 * (q.expPos % 32) + 4) = 0 → Completes (.capsuleCommit x n (q.expPos % 32) word) s fun c =>
            (∃ t : CapSet, (c.queue n).sets = q.sets ++ [t] ∧ t.at_ = s.chip.nowH ∧
              t.capsules = [Cells.getRun (fun _ => 0) q.slots (64 * (q.expPos % 32)) 56 ++ leBytes 8 word.toNat]) ∧
            (c.queue n).expPos = (q.expPos + 1) % 65536 ∧ (c.queue n).head = q.head ∧ q.expPos % 32 ∉ (c.queue n).open_ ∧
            (∃ it, (c.weir (weirKey 1 n)).items = (s.chip.weir (weirKey 1 n)).items ++ [it] ∧ it.length = 8) ∧ others c ∧ HostOnly s.chip c)) ∧
      (q.dataHalted = false → ∀ (h : DataHeader) (bs : List Byte), h.commit = true → h.pos.toNat = q.dataExp → bs.length = h.length.toNat →
        let who := (s.chip.queueCmds n).find? (fun m => m.tag == h.tag.toNat && m.status.isNone && m.mark.isNone)
        (who = none → q.doneTags.contains h.tag.toNat = true → Completes (.dataCapsule x n (q.dataExp % 2) h bs) s fun c =>
          (c.queue n).dataHead = (q.dataHead + 1) % 65536 ∧ (c.queue n).dataExp = (q.dataExp + 1) % 65536 ∧
          c.fld (SLC_LATE_DATA_COUNT x) = min (s.chip.fld (SLC_LATE_DATA_COUNT x) + 1) (2 ^ (SLC_LATE_DATA_COUNT x).w - 1) ∧
          s.chip.fieldsKept [SLC_LATE_DATA_COUNT x] c ∧ others c ∧ s.chip.bytesKept c) ∧
        (∀ m, who = some m → h.offset.toNat % 64 = 0 → h.length.toNat % 64 = 0 → 64 ≤ h.length.toNat → h.length.toNat ≤ 4096 →
          m.grants.any (fun g => decide (g.off ≤ h.offset.toNat ∧ h.offset.toNat + h.length.toNat ≤ g.off + g.len) && !g.closed m.dataBytes) = true →
          Completes (.dataCapsule x n (q.dataExp % 2) h bs) s fun c =>
            (c.queue n).dataHead = (q.dataHead + 1) % 65536 ∧ (c.queue n).dataExp = (q.dataExp + 1) % 65536 ∧
            (c.queue n).dataHalted = false ∧ (c.queue n).head = q.head))) ∧
    (∀ (off : Nat) (bs : List Byte), s.chip.windowOk x n = false → Completes (.capsuleSlotWrite x n false off bs .none) s fun c =>
      c.fld (SLC_WINDOW_DISCARDS_COUNT x) = min (s.chip.fld (SLC_WINDOW_DISCARDS_COUNT x) + 1) (2 ^ (SLC_WINDOW_DISCARDS_COUNT x).w - 1) ∧
      s.chip.fieldsKept [SLC_WINDOW_DISCARDS_COUNT x] c ∧ c = { s.chip with regs := c.regs }) ∧
    (∀ v : BitVec 32, s.chip.windowOk x n = true → v.getLsbD 0 = true →
      (q.halted = true → Completes (.resume x n false v) s fun c =>
        c.queue n = { q with halted := false, expPos := q.head } ∧ others c ∧ HostOnly s.chip c) ∧
      (q.dataHalted = true → Completes (.resume x n true v) s fun c =>
        c.queue n = { q with dataHalted := false, dataExp := q.dataHead } ∧ others c ∧ HostOnly s.chip c)) ∧
    (∀ v : BitVec 32, let g := s.chip.ring n
      let h := v.toNat % 65536
      s.chip.portExists x = true → n < s.chip.scale → g.created = true → g.port = x.val → h < g.size →
      ((h + g.size - g.head) % g.size ≤ (g.next + g.size - g.head) % g.size → Completes (.ringHead x n v) s fun c =>
        c.ring n = { g with head := h } ∧ (∀ k, k ≠ n → c.ring k = s.chip.ring k) ∧ HostOnly s.chip c) ∧
      ((g.next + g.size - g.head) % g.size < (h + g.size - g.head) % g.size → Completes (.ringHead x n v) s fun c =>
        c.fld (SLC_HEAD_DISCARDS_COUNT x) = min (s.chip.fld (SLC_HEAD_DISCARDS_COUNT x) + 1) (2 ^ (SLC_HEAD_DISCARDS_COUNT x).w - 1) ∧
        s.chip.fieldsKept [SLC_HEAD_DISCARDS_COUNT x] c ∧ c = { s.chip with regs := c.regs })) ∧
    (s.chip.portExists x = true → s.chip.flag (SLC_PORT_CTRL_ENABLE x) = false → Completes (.sluiceEnable x) s fun c =>
      c.flag (SLC_PORT_CTRL_ENABLE x) = true ∧ c.flag (SLC_PORT_STATUS_ENABLED x) = true ∧ c.queue x = { created := true, port := x, ring := x } ∧
      (c.ring x).created = true ∧ (c.ring x).port = x ∧ (c.ring x).base = BitVec.ofNat 64 (s.chip.fld (SLC_ADMIN_BASE_BASE x) * 4096) ∧
      (c.ring x).sizeLog2 = s.chip.fld (SLC_ADMIN_CFG_SIZE_LOG2 x) ∧ (c.ring x).next = 0 ∧ (c.ring x).head = 0 ∧ (c.ring x).phase = true ∧
      s.chip.fieldsKept [SLC_PORT_CTRL_ENABLE x, SLC_PORT_STATUS_ENABLED x] c ∧ s.chip.bytesKept c) ∧
    (∀ (t : CapSet) (rest : List CapSet) (k : Nat), q.sets = t :: rest → q.port < 2 → q.created = true → q.stopped = false → s.chip.hostHeld = false → q.order.length < 256 →
      s.chip.outstanding < 65536 → 0 < s.chip.freeForUse → q.core = some k → 0 < s.chip.credits 0 k → (∀ m ∈ s.chip.host.cmds, m.uid < s.chip.host.nextUid) →
      Completes (.sluiceTake n) s fun c =>
        (c.queue n).sets = rest ∧ (c.queue n).head = (q.head + t.capsules.length) % 65536 ∧ c.host.nextUid = s.chip.host.nextUid + 1 ∧
        (∃ m ∈ c.host.cmds, m.uid = s.chip.host.nextUid ∧ m.queue = n ∧ m.core = some k ∧ m.opcode = capField (t.capsules.headD []) 0 1 ∧
          m.tag = capField (t.capsules.headD []) 2 2 ∧ m.volume = capField (t.capsules.headD []) 5 1 ∧ m.arg0 = capField (t.capsules.headD []) 8 8) ∧
        c.fld (SLC_TAKEN_COUNT q.port) = min (s.chip.fld (SLC_TAKEN_COUNT q.port) + 1) (2 ^ (SLC_TAKEN_COUNT q.port).w - 1)) ∧
    (∀ (off : Nat) (v : BitVec 32), s.chip.portExists x = true → s.chip.host.configRetry = false →
      (Completes (.configurationRequest x false off v) s fun c =>
        (c.agent x).lastRead = (s.chip.pcie x off).setWidth 64 ∧ c = { s.chip with arch := c.arch }) ∧
      (off / 4 % 1024 ∉ [0, 2, 11] → Completes (.configurationRequest x true off v) s fun c =>
        c.pcie x off = v ∧ (∀ o, o / 4 % 1024 ≠ off / 4 % 1024 → c.pcie x o = s.chip.pcie x o) ∧ HostOnly s.chip c) ∧
      (off / 4 % 1024 ∈ [0, 2, 11] → Completes (.configurationRequest x true off v) s fun c => c = s.chip))

/-- Rings, and the commands that make, reset and delete queues and rings or end a command (R476 to R479, R485, R490 to R494, Table 11.13). -/
def Obligations.HostRings : Prop :=
  ∀ (s : State),
    (∀ r : Nat, let g := s.chip.ring r
      let written := fun (c : Chip) (x : RingRec) (head : Nat) =>
        c.host.posts = s.chip.host.posts ++ [⟨g.port, .record, g.base.toNat + 32 * g.next, recordBytes x head s.chip.nowH g.phase, false⟩] ∧
        (c.ring r).next = (g.next + 1) % g.size ∧ (c.ring r).phase = (if (g.next + 1) % g.size = 0 then !g.phase else g.phase) ∧
        (c.ring r).head = g.head ∧
        c.fld (SLC_POSTED_COUNT g.port) = min (s.chip.fld (SLC_POSTED_COUNT g.port) + 1) (2 ^ (SLC_POSTED_COUNT g.port).w - 1)
      (g.created = true → g.room = true → s.chip.hostHeld = false → g.intEn = false → s.chip.host.portHeld.getD g.port false = false →
        (∀ e rest, g.events = e :: rest → e.queue = 0xFFFF → Completes (.ringRecordWrite r none) s fun c =>
          written c e 0 ∧ (c.ring r).events = rest ∧ s.chip.fieldsKept [SLC_POSTED_COUNT g.port] c ∧ c.host.cmds = s.chip.host.cmds ∧ s.chip.bytesKept c) ∧
        (∀ (n : Nat) (it : List WWord) (rest : List (List WWord)) (m : Cmd), (s.chip.queue n).created = true → (s.chip.queue n).ring = r →
          (s.chip.weir (weirKey 2 n)).items = it :: rest → s.chip.host.cmds = [m] → m.queue = n → m.inPath = true → m.opcode ≠ opWrite →
          s.chip.host.qresets = [] → s.chip.host.barrier = none →
          let x := wordsRecord (it.map (·.v))
          x.kind = 0 → x.tag = m.tag → x.status ≠ stFatal → Completes (.ringRecordWrite r (some n)) s fun c =>
            written c x (s.chip.queue n).head ∧ c.host.cmds = [] ∧ (c.weir (weirKey 2 n)).items = rest)) ∧
      (g.created = true → g.intEn = true → g.intTime ≠ 0 → g.firstAt.isSome = true → Completes (.msixTimer r) s fun c =>
        c.ring r = { g with unsignalled := 0, firstAt := none } ∧
        ((s.chip.pcie g.port Config.msixCap).getLsbD 31 = true → (s.chip.pcie g.port Config.msixCap).getLsbD 30 = false →
          (s.chip.msixWord g.port (4 * g.vector + 3)).getLsbD 0 = false → s.chip.host.portHeld.getD g.port false = false →
          c.host.posts = s.chip.host.posts ++ [⟨g.port, .msix,
            (s.chip.msixWord g.port (4 * g.vector)).toNat + 2 ^ 32 * (s.chip.msixWord g.port (4 * g.vector + 1)).toNat,
            leBytes 4 (s.chip.msixWord g.port (4 * g.vector + 2)).toNat, false⟩]) ∧
        HostOnly s.chip c)) ∧
    (∀ (n tag : Nat) (m : Cmd),
      let k := m.arg0 % 65536
      (Starts s.chip n tag opQcreate m → 2 ≤ k → k < s.chip.scale → (s.chip.queue k).created = false → (s.chip.ring k).created = false →
        (m.arg0.testBit 16 = false → bitsOf m.arg0 32 16 = 0 → 4 ≤ bitsOf m.arg0 24 5 → bitsOf m.arg0 24 5 ≤ 16 → bitsOf m.arg3 0 64 % 4096 = 0 →
          Completes (.qcreateRing n tag) s fun c =>
            Ends c m stOk 0 k 0 ∧ (c.ring k).created = true ∧ (c.ring k).port = m.port ∧ (c.ring k).base.toNat = bitsOf m.arg3 0 64 ∧
            (c.ring k).sizeLog2 = bitsOf m.arg0 24 5 ∧ (c.ring k).vector = bitsOf m.arg0 48 11 ∧ (c.ring k).intEn = m.arg1.testBit 0 ∧
            (c.ring k).next = 0 ∧ (c.ring k).phase = true ∧ HostOnly s.chip c) ∧
        (m.arg0.testBit 16 = true → bitsOf m.arg0 24 5 = 0 → bitsOf m.arg0 48 11 = 0 → m.arg1 = 0 → m.arg3 = 0 →
          (s.chip.ring (bitsOf m.arg0 32 16)).created = true → (s.chip.ring (bitsOf m.arg0 32 16)).port = m.port →
          Completes (.qcreateQueue n tag) s fun c =>
            Ends c m stOk 0 k 0 ∧ (c.queue k).created = true ∧ (c.queue k).port = m.port ∧ (c.queue k).ring = bitsOf m.arg0 32 16 ∧
            (c.queue k).head = 0 ∧ (c.queue k).sets = [] ∧ (c.queue k).stopped = false ∧ HostOnly s.chip c)) ∧
      (Starts s.chip n tag opQdelete m → 2 ≤ k → k < s.chip.scale →
        (m.arg0.testBit 16 = true → (s.chip.queue k).created = true → (s.chip.queue k).port = m.port → (s.chip.queue k).order = [] →
          Completes (.qdelete n tag) s fun c => Ends c m stOk 0 0 0 ∧ (c.queue k).created = false ∧ HostOnly s.chip c) ∧
        (m.arg0.testBit 16 = false → (s.chip.ring k).created = true → (s.chip.ring k).port = m.port →
          s.chip.host.queues.any (fun q => q.2.created && q.2.ring == k) = false →
          Completes (.qdelete n tag) s fun c => Ends c m stOk 0 0 0 ∧ c.ring k = {} ∧ HostOnly s.chip c)) ∧
      (Starts s.chip n tag opQreset m → k ≠ m.queue → (s.chip.queue k).created = true → (s.chip.queue k).port = m.port → (s.chip.queue k).order = [] →
        (s.chip.queue k).sets = [] → s.chip.host.qresets = [] → Completes (.qreset n tag) s fun c =>
          Ends c m stOk 0 0 0 ∧ (c.queue k).head = 0 ∧ (c.queue k).expPos = 0 ∧ (c.queue k).dataHead = 0 ∧ (c.queue k).dataExp = 0 ∧
          (c.queue k).halted = false ∧ (c.queue k).dataHalted = false ∧ (c.queue k).stopped = false ∧ (c.queue k).created = true ∧ HostOnly s.chip c) ∧
      (Starts s.chip n tag opAbort m → (s.chip.queue k).created = true → (s.chip.queue k).port = m.port →
        let who := s.chip.host.cmds.find? (fun x => x.queue == k && x.tag == m.arg0 / 65536 && !x.inPath)
        (who = none → Completes (.abort n tag) s fun c => Ends c m stAlready 0 0 0 ∧ HostOnly s.chip c) ∧
        (∀ t, who = some t → t.uid ≠ m.uid → notAbortable t.opcode = false → t.status = none → t.mark = none → t.silent = false → t.started = false →
          (∀ x ∈ s.chip.host.cmds, x.uid = t.uid → x = t) → Completes (.abort n tag) s fun c =>
            Ends c t stAborted 0 0 0 ∧ (∃ y, c.cmd m.uid = some y ∧ y.status = none ∧ y.wait = .target t.uid) ∧ HostOnly s.chip c))) ∧
    (∀ (x : Port) (kind : PortResetKind), s.chip.portExists x = true → s.chip.host.cmds = [] → s.chip.host.qresets = [] → s.chip.host.barrier = none →
      Completes (.portReset x kind) s fun c =>
        (∀ n, (s.chip.queue n).created = true → (s.chip.queue n).port = x.val → c.queue n = {}) ∧
        (∀ n, (s.chip.ring n).created = true → (s.chip.ring n).port = x.val → c.ring n = {}) ∧
        (∀ n, (s.chip.queue n).port ≠ x.val → c.queue n = s.chip.queue n) ∧ (∀ n, (s.chip.ring n).port ≠ x.val → c.ring n = s.chip.ring n) ∧
        (∀ i, i < 16384 → c.msixWord x i = msixReset (16384 * x + i)) ∧ c.host.cmds = [] ∧ c.host.posts = s.chip.host.posts ∧ c.buf.mem = s.chip.buf.mem ∧
        c.servo = s.chip.servo)

/-- Commands that move data (R281, R357, R473, R475, R484, R488, R496, R500, R558). READ, VERIFY and PREFETCH of blocks that the buffer holds no copy of go to
the station as one request with its fill entry; a WRITE of blank blocks makes them PENDING; a FLUSH with nothing left to make durable completes with its
count; a grant, an image to be staged, and a drain that hands its block. The state of a cluster beyond the request, its numbers and its place are the
model's (log entry 16). -/
def Obligations.HostData : Prop :=
  ∀ (s : State) (n tag : Nat) (m : Cmd),
    let p := m.volume
    (∀ (i : Instr) (op k : Nat),
      (i = .hostRead n tag ∧ op = opRead ∧ Cells.get (fun _ => []) s.chip.buf.streams p = [] ∨ i = .hostVerify n tag ∧ op = opVerify ∨
        i = .hostPrefetch n tag ∧ op = opPrefetch) →
      Starts s.chip n tag op m → m.core = some k → k < 12 → m.blocks = [] → s.chip.waitsWrite m = false → 0 < m.arg1 → m.arg1 ≤ 2048 →
      m.arg0 + m.arg1 ≤ volumeBlocks → s.chip.mounted p = true → s.chip.rangeUnusable p m.arg0 m.arg1 = false → s.chip.flag FLM_STATUS_UP = true →
      s.chip.buf.staged = [] → s.chip.buf.store = [] → s.chip.buf.fills = [] → s.chip.buf.misses = [] → storeBase + m.arg1 ≤ s.chip.storeTop →
      s.chip.requestRoom p = true → Completes i s fun c =>
        ∃ f : FillReq, c.buf.fills = [f] ∧ f.core = k ∧ f.volume = p ∧ f.firstLba = m.arg0 ∧ f.blocks = m.arg1 ∧ f.uid = some m.uid ∧ f.ahead = false ∧
          (∃ k' : Packet, c.arch.toM.ready = s.chip.arch.toM.ready ++ [k'] ∧ k'.ty = 5 ∧ k'.unit = p ∧
            k'.payload = payloadOf [BitVec.ofNat 64 f.number, BitVec.ofNat 64 m.arg0, BitVec.ofNat 64 m.arg1]) ∧
          (∃ y, c.cmd m.uid = some y ∧ y.started = true ∧ y.status = none) ∧ c.servo = s.chip.servo) ∧
    (Starts s.chip n tag opWrite m → 0 < m.arg1 → m.arg0 + m.arg1 ≤ volumeBlocks → s.chip.volState p = vMountedWrite → (s.chip.vol p).closed = false →
      s.chip.rangeReadOnly p m.arg0 m.arg1 = false → s.chip.writeDegraded p = false → s.chip.flag FLM_STATUS_UP = true →
      (∀ b, m.arg0 ≤ b → b < m.arg0 + m.arg1 → s.chip.recOf p b = .blank) → Completes (.hostWrite n tag) s fun c =>
        (∀ b, m.arg0 ≤ b → b < m.arg0 + m.arg1 → c.recOf p b = .pending) ∧ (∀ b, b < m.arg0 ∨ m.arg0 + m.arg1 ≤ b → c.recOf p b = s.chip.recOf p b) ∧
        (∃ y, c.cmd m.uid = some y ∧ y.started = true ∧ y.status = none ∧ y.wait = .none ∧ y.restore.length = m.arg1) ∧ HostOnly s.chip c) ∧
    (Starts s.chip n tag opFlush m → m.flags = 0 → m.ended = none → s.chip.flushWaits m = false → s.chip.buf.staged = [] → Completes (.hostFlush n tag) s fun c =>
      Ends c m stOk 0 0 ((s.chip.queue n).written % 2 ^ 32) ∧ HostOnly s.chip c) ∧
    (s.chip.cmdOf n tag = some m → (∀ x ∈ s.chip.host.cmds, x.uid = m.uid → x = m) → m.started = true → m.mark = none → m.wait = .none →
      m.granted < m.grantBytes → s.chip.grantsBefore m = true → 4 ≤ s.chip.credits 2 n →
      (∀ slots : List Nat, m.opcode = opWrite → m.restore ≠ [] → slots = s.chip.freeStaging (min 256 (m.arg1 - m.granted / 4096)) → slots ≠ [] →
        ((s.chip.accsHeld ++ m.accKeys (m.granted / 4096) slots.length).eraseDups).length ≤ 4096 → Completes (.grantPost n tag) s fun c =>
          c.cmd m.uid = some { m with grants := m.grants ++ [{ off := m.granted, len := 4096 * slots.length }],
                                      granted := m.granted + 4096 * slots.length, slots := m.slots ++ slots, acted := true } ∧
          c.buf.slotsUsed = s.chip.buf.slotsUsed ++ slots ∧
          (c.weir (weirKey 2 n)).items = (s.chip.weir (weirKey 2 n)).items ++
            [(recordWords ⟨1, m.tag, n, 0, m.granted, 4096 * slots.length, 0⟩).map (fun w => ⟨w, false⟩)] ∧ HostOnly s.chip c) ∧
      (m.opcode = opStage → s.chip.boot.persisting.contains (stageClass m) = false →
        s.chip.host.cmds.any (fun x => x.opcode == opStage && decide (x.uid < m.uid) && x.status.isNone && stageClass x == stageClass m) = false →
        Completes (.grantPost n tag) s fun c =>
          (∃ y, c.cmd m.uid = some y ∧ y.granted = m.granted + min mib (m.grantBytes - m.granted) ∧
            y.grants = m.grants ++ [{ off := m.granted, len := min mib (m.grantBytes - m.granted) }] ∧ y.slots = m.slots) ∧ HostOnly s.chip c)) ∧
    (Starts s.chip n tag opStage m →
      (stageClass m ≠ 5 → 64 ≤ m.arg1 → m.arg1 ≤ 33554432 → Completes (.programStage n tag) s fun c =>
        (∃ y, c.cmd m.uid = some y ∧ y = { m with started := true }) ∧ HostOnly s.chip c) ∧
      (stageClass m = 5 ∨ m.arg1 < 64 ∨ 33554432 < m.arg1 → Completes (.programStage n tag) s fun c => Ends c m stInvalid 0 5 0 ∧ HostOnly s.chip c)) ∧
    (∀ (v : Pickup) (e : Staged), s.chip.flag FLM_STATUS_UP = true → s.chip.isFatal = false → s.chip.forWriting v = true → s.chip.writeDegraded v = false →
      s.chip.stState (v / 2) = sMounted → s.chip.buf.drains = [] → s.chip.drainDue v = true → s.chip.buf.staged = [e] → e.state = 1 → e.survey = false →
      (e.volumeId, e.side) = s.chip.discOf v → s.chip.arch.toM.ready = [] → s.chip.lineOf (slotAddr e.slot / 4096) = none →
      (∀ u ∈ unitsOf (slotAddr e.slot) 4096, s.chip.unitMark u = .good) → Completes (.drainStart v) s fun c =>
        c.buf.staged = [{ e with state := 2 }] ∧ c.buf.drains = [(v.val, [e.seq])] ∧ c.arch.toM.ready.length = 17 ∧
        (∀ k ∈ c.arch.toM.ready, k.ty = 6 ∧ k.unit = v.val ∧ k.tag = e.seq % 65536) ∧ c.regs = s.chip.regs ∧ s.chip.bytesKept c)

/-- Volumes and stations as commands reach them while the Flume is up and the sampling PLL has not failed (R288, R357, R359, R364, R368, R370, R408, R481, R621). -/
def Obligations.HostVolumes : Prop :=
  ∀ (s : State) (n tag : Nat) (m : Cmd), s.chip.flag FLM_STATUS_UP = true → s.chip.afe.failed = false →
    (let p := m.volume
     let x := p / 2
     let idle := ∀ q, q / 2 = x →
       (s.chip.wch q).pass = none ∧ (s.chip.wch q).queued = none ∧ (s.chip.wch q).results = [] ∧ s.chip.fld (CAL_PU_STATUS_CYCLE q) = 0 ∧
       (s.chip.cal q).acqBy = none ∧ (s.chip.frm q).reqs = [] ∧ (s.chip.frm q).retry = none ∧ (s.chip.vol q).qual = none
     (Starts s.chip n tag opMount m → p < 16 → s.chip.stState x = sLoaded ∨ s.chip.stState x = sSafe → (s.chip.reg WMM_CS).getLsbD p = true →
       s.chip.volState p = vNotMounted → (s.chip.vol p).qual = none → s.chip.flag WMM_PS_STATUS_ACTED = false → s.chip.stationLevel x ≠ 3 →
       Completes (.mount n tag) s fun c =>
         c.stState x = sSpinup ∧ c.fld (WMM_STN_STATE_CAUSE x) = cauMount ∧ c.fld (WMM_STN_STATE_PREV x) = s.chip.stState x ∧ c.volState p = vQualifying ∧
         (∃ q, (c.vol p).qual = some q ∧ q.waiters = [m.uid] ∧ q.writing = m.flags.testBit 0 ∧ q.step = 1) ∧
         c.fld (WMM_STN_MOUNTS_COUNT x) = min (s.chip.fld (WMM_STN_MOUNTS_COUNT x) + 1) (2 ^ (WMM_STN_MOUNTS_COUNT x).w - 1) ∧
         (∃ y, c.cmd m.uid = some y ∧ y.status = none ∧ y.wait = .station) ∧ s.chip.bytesKept c) ∧
     (Starts s.chip n tag opUnmount m → p < 16 → s.chip.host.cmds = [m] → s.chip.buf.staged = [] → m.ended = none → s.chip.volState p = vMountedRead →
       (s.chip.vol p).writing = false → s.chip.volState (if p % 2 = 0 then p + 1 else p - 1) = vNotMounted → s.chip.stState x = sMounted → idle →
       Completes (.unmount n tag) s fun c =>
         c.stState x = sParking ∧ c.fld (WMM_STN_STATE_CAUSE x) = cauUnmount ∧ c.volState p = vNotMounted ∧
         (c.stn x).waiters = (s.chip.stn x).waiters ++ [m.uid] ∧ (∃ y, c.cmd m.uid = some y ∧ y.status = none ∧ y.ended = some stOk)) ∧
     (Starts s.chip n tag opClose m → s.chip.host.cmds = [m] → s.chip.buf.staged = [] → m.ended = none → s.chip.volState p = vMountedWrite →
       ((s.chip.vol p).closed = true → Completes (.closeVolume n tag) s fun c => Ends c m stOk 0 0 0 ∧ HostOnly s.chip c) ∧
       ((s.chip.vol p).closed = false → (s.chip.vol p).mgmt = none → s.chip.parityLeft p = false → s.chip.writeDegraded p = false →
         ((s.chip.vol p).layer 0).due.2 < 1024 → Completes (.closeVolume n tag) s fun c =>
           (∃ u, (c.vol p).mgmt = some u ∧ u.uids = [m.uid] ∧ u.closing = true ∧ u.left = 64 ∧ u.bad = false) ∧
           (c.wch p).items.length = (s.chip.wch p).items.length + 64 ∧ (∃ y, c.cmd m.uid = some y ∧ y.status = none ∧ y.wait = .drain) ∧
           c.regs = s.chip.regs))) ∧
    (let x := m.arg0 % 256
     Starts s.chip n tag opStation m → x < 8 →
       (bitsOf m.arg0 8 8 = 0 →
         (s.chip.stState x = sParking → Completes (.stationPark n tag) s fun c =>
           (c.stn x).causes = (s.chip.stn x).causes ++ [cauHostPark] ∧ (c.stn x).waiters = (s.chip.stn x).waiters ++ [m.uid] ∧
           (∃ y, c.cmd m.uid = some y ∧ y.status = none ∧ y.wait = .station) ∧ c.regs = s.chip.regs ∧ s.chip.bytesKept c) ∧
         (s.chip.stState x ∈ [sEmpty, sSafe, sLoaded] → Completes (.stationPark n tag) s fun c => Ends c m stOk 0 0 0 ∧ HostOnly s.chip c)) ∧
       (bitsOf m.arg0 8 8 = 1 → s.chip.stState x = sLoaded ∨ s.chip.stState x = sSafe → Completes (.stationClamp n tag) s fun c =>
         Ends c m stOk 0 0 0 ∧ c.flag (WMM_STN_CTRL_CLAMP_REQ x) = true ∧ s.chip.fieldsKept [WMM_STN_CTRL_CLAMP_REQ x] c ∧ s.chip.bytesKept c) ∧
       (bitsOf m.arg0 8 8 = 2 → s.chip.stState x = sLoaded ∨ s.chip.stState x = sSafe → Completes (.stationUnclamp n tag) s fun c =>
         Ends c m stOk 0 0 0 ∧ c.flag (WMM_STN_CTRL_CLAMP_REQ x) = false ∧ c.stState x = sEmpty ∧ c.fld (WMM_STN_STATE_CAUSE x) = cauUnclamp ∧
         c.flag (WMM_STN_STATE_CLAMPED x) = false ∧ s.chip.bytesKept c) ∧
       (bitsOf m.arg0 8 8 = 3 → Completes (.quietOn n tag) s fun c =>
         Ends c m stOk 0 0 0 ∧ c.flag (SPN_CTRL_QUIET x) = true ∧ s.chip.fieldsKept [SPN_CTRL_QUIET x] c ∧ s.chip.bytesKept c) ∧
       (bitsOf m.arg0 8 8 = 4 → Completes (.quietOff n tag) s fun c =>
         Ends c m stOk 0 0 0 ∧ c.flag (SPN_CTRL_QUIET x) = false ∧ s.chip.fieldsKept [SPN_CTRL_QUIET x] c ∧ s.chip.bytesKept c) ∧
       (bitsOf m.arg0 8 8 = 5 → s.chip.stState x ∈ [sEmpty, sLoaded, sSafe, sFault] → (s.chip.stn x).resetUids = [] →
         (∀ p, p / 2 = x → (s.chip.cal p).acqBy = none ∧ s.chip.fld (CAL_PU_STATUS_CYCLE p) = 0) → Completes (.stationReset n tag) s fun c =>
           (Ends c m stOk 0 0 0 ∧ c.stState x ≠ sFault ∨ Ends c m stStationFault 0 0 0 ∧ c.stState x = sFault) ∧ c.flag (SPN_CTRL_BRAKE x) = false ∧
           (∀ y < 8, y ≠ x → c.stState y = s.chip.stState y)))

/-- The other admin commands (R480, R482, R497, R541, R551, R554, R578, Tables 11.13 to 11.15). -/
def Obligations.HostAdmin : Prop :=
  ∀ (s : State) (n tag : Nat) (m : Cmd),
    (Starts s.chip n tag opGetLog m →
      let pushed := fun (c : Chip) (page : List Byte) =>
        let part := (page.drop m.arg1).take m.arg2
        Ends c m stOk 0 part.length 0 ∧ c.host.posts = (s.chip.pushGo m.port m.entries 0 part).host.posts ∧ HostOnly s.chip c
      (m.arg0 % 256 = 1 → s.chip.core.logged = 1 → m.arg1 = 0 → m.arg2 = 32 → s.chip.lineOf 256 = none → s.chip.unitMark (mib / 64) = .good →
        Completes (.getDeviceLog n tag) s fun c => pushed c (s.chip.bytes mib 32)) ∧
      (m.arg0 % 256 = 2 → Completes (.getIdentity n tag) s fun c => pushed c s.chip.identityPage) ∧
      (m.arg0 % 256 = 3 → bitsOf m.arg0 8 8 ≤ 15 → bitsOf m.arg0 16 8 ≤ 9 → Completes (.getDefectList n tag) s fun c =>
        pushed c (s.chip.defectPage (bitsOf m.arg0 8 8) (bitsOf m.arg0 16 8))) ∧
      (m.arg0 % 256 = 4 → Completes (.getVolumeState n tag) s fun c => pushed c s.chip.volumePage)) ∧
    (Starts s.chip n tag opFeature m →
      let sel := bitsOf m.arg0 16 8
      (m.arg0 % 65536 = 1 → sel ≤ 15 → m.arg1 ≤ 2048 → Completes (.featureReadAhead n tag) s fun c =>
        Ends c m stOk 0 (Cells.get (fun _ => 256) s.chip.host.readAhead sel) 0 ∧ Cells.get (fun _ => 256) c.host.readAhead sel = m.arg1 ∧
        (∀ v, v ≠ sel → Cells.get (fun _ => 256) c.host.readAhead v = Cells.get (fun _ => 256) s.chip.host.readAhead v) ∧ HostOnly s.chip c) ∧
      (m.arg0 % 65536 = 2 → sel ≤ 15 → m.arg1 ≤ 1 → s.chip.flag FLM_STATUS_UP = true → Completes (.featureRescue n tag) s fun c =>
        Ends c m stOk 0 (s.chip.fld (FRM_CTRL_RESCUE_EN sel)) 0 ∧ c.fld (FRM_CTRL_RESCUE_EN sel) = m.arg1 ∧
        s.chip.fieldsKept [FRM_CTRL_RESCUE_EN sel] c ∧ s.chip.bytesKept c) ∧
      (m.arg0 % 65536 = 3 → sel ≤ 15 → m.arg1 ≤ 1 → s.chip.flag FLM_STATUS_UP = true → Completes (.featureLearn n tag) s fun c =>
        (∃ r, Ends c m stOk 0 r 0 ∧ ((∀ k < 8, s.chip.fld (RCH_CTRL_LEARN_EN (8 * sel + k)) = s.chip.fld (RCH_CTRL_LEARN_EN (8 * sel))) →
          r = s.chip.fld (RCH_CTRL_LEARN_EN (8 * sel)))) ∧
        (∀ k < 8, c.fld (RCH_CTRL_LEARN_EN (8 * sel + k)) = m.arg1) ∧
        s.chip.fieldsKept ((List.range 8).map (fun k => RCH_CTRL_LEARN_EN (8 * sel + k))) c ∧ s.chip.bytesKept c) ∧
      (m.arg0 % 65536 = 4 → m.arg1 ≤ 1 → m.port < s.chip.host.stationEvents.length → Completes (.featureStationEvents n tag) s fun c =>
        Ends c m stOk 0 (s.chip.host.stationEvents.getD m.port false).toNat 0 ∧ c.host.stationEvents.getD m.port false = (m.arg1 == 1) ∧
        HostOnly s.chip c)) ∧
    (Starts s.chip n tag opCache m →
      (m.arg0 % 2 = 1 → Completes (.cacheEnable n tag) s fun c =>
        Ends c m stOk 0 0 0 ∧ c.flag CCH_CTRL_ENABLED = true ∧ s.chip.fieldsKept [CCH_CTRL_ENABLED] c ∧ s.chip.bytesKept c) ∧
      (m.arg0 % 2 = 0 → s.chip.cacheOn = true → (∀ x ∈ s.chip.host.cmds, m.uid ≤ x.uid) → Completes (.cacheDisable n tag) s fun c =>
        Ends c m stOk 0 0 0 ∧ c.flag CCH_CTRL_ENABLED = false ∧ c.buf.sets = [] ∧ c.buf.victims = [] ∧ c.buf.evicts = [] ∧ c.buf.allocWaits = [] ∧
        c.host.barrier = none ∧ s.chip.fieldsKept [CCH_CTRL_ENABLED, CCH_WRITEBACKS_COUNT, BUF_INJECT_ARMED] c ∧ c.servo = s.chip.servo)) ∧
    (Starts s.chip n tag opScrub m → s.chip.scrubRange (scrubArgs m).1 (scrubArgs m).2 = true → s.chip.buf.scrub.busy = false →
      (∀ x ∈ s.chip.host.cmds, x ≠ m → x.opcode ≠ opScrub) → Completes (.scrub n tag) s fun c =>
        c.buf.scrub.busy = true ∧ c.buf.scrub.init = false ∧ c.buf.scrub.start = m.arg0 ∧ c.buf.scrub.len = bitsOf m.arg3 0 64 ∧
        c.buf.scrub.uid = some m.uid ∧ c.flag BUF_STATUS_SCRUB_BUSY = true ∧ s.chip.fieldsKept [BUF_STATUS_SCRUB_BUSY] c ∧ s.chip.bytesKept c) ∧
    (Starts s.chip n tag opCalibrate m → m.arg0 / 256 = 9 → s.chip.flag FLM_STATUS_UP = true → Completes (.calibrate n tag) s fun c =>
      c.flag CAL_PLL_PENDING = true ∧ c.thermal.pllBy = s.chip.thermal.pllBy ++ [m.uid] ∧ (∃ y, c.cmd m.uid = some y ∧ y.status = none ∧ y.wait = .station) ∧
      s.chip.fieldsKept [CAL_PLL_PENDING] c ∧ s.chip.bytesKept c) ∧
    (∀ img : List Byte, Starts s.chip n tag opActivate m → m.arg0 = 1 → s.chip.host.cmds = [m] → s.chip.host.activating = none → s.chip.buf.staged = [] →
      s.chip.stagedImage 0 = img → img ≠ [] → Completes (.activate n tag) s fun c =>
        Ends c m stOk 0 0 0 ∧ c.runningImage 0 = img ∧ c.stagedImage 0 = [] ∧ c.fld (BOOT_VERSION_VERSION 0) = imgVersion img % 2 ^ 32 ∧
        c.host.activating = none ∧ c.host.coresStop = false ∧ c.servo = s.chip.servo)

/-! ### The Cistern, the cache and the buffer -/

/-- The block cache (R545, R546, R548, R549). A dirty line that is written back goes to DRAM whole and stays cached, clean; one of the eviction buffer leaves
it. A fill from good units installs the line clean in its set and serves the push that waited. A parity error invalidates a clean line; in a dirty line it is
fatal; of a set it takes every clean line. -/
def Obligations.BlockCache : Prop :=
  ∀ (s : State) (line : Nat),
    let stored := fun (c : Chip) (l : Line) =>
      (∀ i < 4096, c.byte (4096 * line + i) = (Cells.get (fun _ => none) l.data i).getD (s.chip.byte (4096 * line + i))) ∧
      (∀ a, a < 4096 * line ∨ 4096 * line + 4096 ≤ a → c.byte a = s.chip.byte a) ∧
      c.fld CCH_WRITEBACKS_COUNT = min (s.chip.fld CCH_WRITEBACKS_COUNT + 1) (2 ^ 32 - 1) ∧ s.chip.fieldsKept [CCH_WRITEBACKS_COUNT, BUF_INJECT_ARMED] c ∧
      c.host = s.chip.host ∧ c.core = s.chip.core ∧ c.sup = s.chip.sup
    let clean := [CCH_PARITY_CLEAN_COUNT, CCH_EVENT_PARITY_CLEAN]
    (∀ (w : Nat) (l : Line), (s.chip.cacheSet (setOf line)).wayOf line = some w → (s.chip.cacheSet (setOf line)).way w = some l → l.dirty = true →
      Completes (.dirtyWriteback line) s fun c =>
        (c.cacheSet (setOf line)).way w = some { line := line, dirty := false } ∧ (∀ j, j ≠ setOf line → c.cacheSet j = s.chip.cacheSet j) ∧
        (∀ v, v ≠ w → (c.cacheSet (setOf line)).way v = (s.chip.cacheSet (setOf line)).way v) ∧ stored c l) ∧
    (∀ l rest, s.chip.buf.evicts = l :: rest → l.line = line → s.chip.buf.allocWaits = [] → Completes (.evictionWritebackDone line) s fun c =>
      c.buf.evicts = rest ∧ c.buf.sets = s.chip.buf.sets ∧ c.buf.victims = s.chip.buf.victims ∧ stored c l) ∧
    (∀ l, s.chip.buf.victims.find? (fun x => x.line == line && x.dirty) = some l → (∀ x ∈ s.chip.buf.evicts, x.line ≠ line) →
      Completes (.evictionWritebackDone line) s fun c =>
        c.buf.victims = s.chip.buf.victims.map (fun x => if x.line = line then { line := line, dirty := false } else x) ∧ c.buf.sets = s.chip.buf.sets ∧
        c.buf.evicts = s.chip.buf.evicts ∧ stored c l) ∧
    (∀ (uid i : Nat) (m : Cmd), s.chip.buf.misses = [⟨line, [.push uid i]⟩] → s.chip.cacheOn = true → (s.chip.cacheSet (setOf line)).ways = [] →
      (∀ u ∈ unitsOf (4096 * line) 4096, s.chip.unitMark u = .good) → s.chip.cmd uid = some m → m.pushes i = true → m.blocks.length + 1 < m.arg1 →
      (∀ x ∈ s.chip.host.cmds, x.opcode = opWrite → ∀ j ∈ x.slots, slotAddr j / 4096 ≠ line) → Completes (.missFill line []) s fun c =>
        c.buf.misses = [] ∧ (c.cacheSet (setOf line)).way 0 = some { line := line, dirty := false } ∧
        c.host.posts = (s.chip.pushGo m.port m.entries (4096 * i) (s.chip.bytes (4096 * line) 4096)).host.posts ∧
        (∃ o, c.cmd uid = some { m with blocks := m.blocks ++ [(i, o)] }) ∧ HostOnly s.chip c) ∧
    (∀ loc, Completes (.parityScan loc .none) s fun c => c = s.chip) ∧
    (∀ (k : Fin 1024) (w : Fin 16) (l : Line), (s.chip.cacheSet k).way w = some l →
      (l.dirty = false → Completes (.parityScan (.way k w) .bad) s fun c =>
        (c.cacheSet k).way w = none ∧ (∀ v, v ≠ w.val → (c.cacheSet k).way v = (s.chip.cacheSet k).way v) ∧
        c.fld CCH_PARITY_CLEAN_COUNT = min (s.chip.fld CCH_PARITY_CLEAN_COUNT + 1) (2 ^ 32 - 1) ∧ c.flag CCH_EVENT_PARITY_CLEAN = true ∧
        s.chip.fieldsKept clean c ∧ s.chip.bytesKept c) ∧
      (l.dirty = true → s.chip.isFatal = false → s.chip.host.cmds = [] → s.chip.buf.scrub.uid = none → s.chip.flag FLM_STATUS_UP = false →
        Completes (.parityScan (.way k w) .bad) s fun c =>
          (c.cacheSet k).way w = none ∧ c.flag CCH_EVENT_PARITY_DIRTY = true ∧ c.flag WMH_ROLE_FATAL = true ∧ c.fld WMH_FATAL_CAUSE = 1 ∧
          s.chip.fieldsKept [CCH_EVENT_PARITY_DIRTY, WMH_ROLE_FATAL, GEN_CONFIG_FATAL, WMH_FATAL_CAUSE, WMH_EVENT_FATAL, WMH_FATAL_TIME_TIME] c ∧
          s.chip.bytesKept c)) ∧
    (∀ l, s.chip.buf.victims.find? (fun x => x.line == line) = some l → l.dirty = false → Completes (.parityScan (.victim line) .bad) s fun c =>
      c.buf.victims = s.chip.buf.victims.erase l ∧ c.flag CCH_EVENT_PARITY_CLEAN = true ∧ s.chip.fieldsKept clean c ∧ s.chip.bytesKept c) ∧
    (∀ k : Fin 1024, (∀ w < 16, ∀ l, (s.chip.cacheSet k).way w = some l → l.dirty = false) → Completes (.parityScan (.tag k) .bad) s fun c =>
      (∀ w < 16, (c.cacheSet k).way w = none) ∧ (∀ j, j ≠ k.val → c.cacheSet j = s.chip.cacheSet j) ∧ s.chip.fieldsKept clean c ∧ s.chip.bytesKept c)

/-- Buffer DRAM (R520, R521, R525, R541, R542, R552, R553, R565), where the units used are good and no cached line lies over them. A spill writes a cell's 128
bytes to the deep cistern, a recall brings the cell back; the log writer takes the oldest entry; a block arrival is checked against its fill entry and its data
goes to the block's place, or is dropped; BUF_FILL_STALE steps GEN; a scrub begins with a range that is allowed and only while none runs, and an INIT scrub
leaves zeros in its range and everything else as it was. -/
def Obligations.BufferMemory : Prop :=
  ∀ (s : State),
    let fits := fun (a n : Nat) => (∀ u ∈ unitsOf a n, s.chip.unitMark u = .good) ∧ ∀ p ∈ linePieces a n, s.chip.lineOf p.1 = none
    let same := fun (c : Chip) (a n : Nat) => ∀ x, x < a ∨ a + n ≤ x → c.byte x = s.chip.byte x
    let deep := s.chip.fld CIS_DEEP_BASE_BASE * mib
    (∀ stamp q i, s.chip.core.spilling = true → s.chip.deepUsed < s.chip.deepCells → s.chip.freeMiddle < s.chip.fld CIS_CTRL_LOW_FREE + 4096 →
      s.chip.spillable = [(stamp, q, i)] → i < (s.chip.cisQ q).mid.length → fits (deep + 128 * s.chip.deepFree) 128 → Completes .cisternSpill s fun c =>
        ((c.cisQ q).mid.getD i ⟨0, none⟩).deep = some s.chip.deepFree ∧
        (∀ j < 128, c.byte (deep + 128 * s.chip.deepFree + j) = (s.chip.cellBytes q i).getD j 0) ∧ same c (deep + 128 * s.chip.deepFree) 128 ∧
        c.fld CIS_SPILLS_COUNT = min (s.chip.fld CIS_SPILLS_COUNT + 1) (2 ^ 32 - 1) ∧
        s.chip.fieldsKept [CIS_SPILLS_COUNT, CIS_EVENT_SPILL_BEGIN, CIS_EVENT_DEEP_FULL, BUF_INJECT_ARMED] c) ∧
    (∀ q i d, (s.chip.cisQ q).mid.findIdx? (fun x => x.deep.isSome) = some i → ((s.chip.cisQ q).mid.getD i ⟨0, none⟩).deep = some d →
      i = 0 ∨ i + 1 ≤ s.chip.fld CIS_CTRL_RECALL_AHEAD → 0 < s.chip.freeMiddle → (∀ u ∈ unitsOf (deep + 128 * d) 128, s.chip.unitMark u = .good) →
      Completes (.cisternRecall q) s fun c =>
        ((c.cisQ q).mid.getD i ⟨0, none⟩).deep = none ∧ c.fld CIS_RECALLS_COUNT = min (s.chip.fld CIS_RECALLS_COUNT + 1) (2 ^ 32 - 1) ∧
        s.chip.fieldsKept [CIS_RECALLS_COUNT, CIS_EVENT_SPILL_BEGIN, CIS_EVENT_DEEP_FULL] c ∧ s.chip.bytesKept c) ∧
    (∀ it rest, let a := mib + 32 * (s.chip.core.logged % 32768)
      (s.chip.weir (weirKey 6 0)).items = it :: rest → fits a 32 → (∀ x < 2, s.chip.host.stationEvents.getD x false = false) → Completes .logEntry s fun c =>
        (c.weir (weirKey 6 0)).items = rest ∧ c.core.logged = s.chip.core.logged + 1 ∧
        c.fld GEN_LOG_COUNT_COUNT = (s.chip.fld GEN_LOG_COUNT_COUNT + 1) % 2 ^ 32 ∧
        (∀ j < 32, c.byte (a + j) = BitVec.ofNat 8 (((it.map (·.v)).getD (j / 8) 0).toNat / 256 ^ (j % 8))) ∧ same c a 32 ∧
        s.chip.fieldsKept [GEN_LOG_COUNT_COUNT, BUF_RMW_COUNT, BUF_INJECT_ARMED] c ∧ c.host = s.chip.host) ∧
    (∀ it rest, (s.chip.weir (weirKey 16 0)).items = it :: rest →
      let bs : List Byte := it.flatMap (fun w => leBytes 8 w.v.toNat)
      let part := fun (l : List Byte) (o n : Nat) => ofLeBytes ((l.drop o).take n)
      let number := part bs 24 4
      let core := number / 2 ^ 28
      let ent := s.chip.bytes (fillAddr core (number % 4096)) 16
      let dst := 4096 * (part ent 0 4 + (part bs 6 5 - part ent 4 5))
      core < 12 → s.chip.coreOnline core = true → 4 ≤ s.chip.credits 5 core → (s.chip.weir (weirKey 5 core)).items = [] → s.chip.buf.fills = [] →
      fits (fillAddr core (number % 4096)) 16 → bs.length = 32 + 4096 → Completes .blockArrival s fun c =>
        let right := part ent 9 1 = part bs 5 1 ∧ part ent 4 5 ≤ part bs 6 5 ∧ part bs 6 5 < part ent 4 5 + part ent 12 2
        (c.weir (weirKey 16 0)).items = rest ∧ c.fld CCH_ARRIVALS_COUNT = min (s.chip.fld CCH_ARRIVALS_COUNT + 1) (2 ^ 32 - 1) ∧
        (¬ right → c.flag CCH_EVENT_FILL_MISMATCH = true ∧ s.chip.bytesKept c ∧
          c.fld CCH_FILL_MISMATCH_COUNT = min (s.chip.fld CCH_FILL_MISMATCH_COUNT + 1) (2 ^ 32 - 1)) ∧
        (part ent 10 1 ≠ number / 2 ^ 20 % 256 → s.chip.bytesKept c ∧
          c.fld CCH_FILL_STALE_COUNT = min (s.chip.fld CCH_FILL_STALE_COUNT + 1) (2 ^ 32 - 1)) ∧
        (right → part ent 10 1 = number / 2 ^ 20 % 256 → s.chip.lineOf (dst / 4096) = none → (∀ j < 4096, c.byte (dst + j) = bs.getD (32 + j) 0) ∧ same c dst 4096)) ∧
    (∀ (core : Fin 12) (slot : Fin 4096), fits (fillAddr core slot + 10) 1 → Completes (.bufFillStale core slot) s fun c =>
      c.byte (fillAddr core slot + 10) = s.chip.byte (fillAddr core slot + 10) + 1 ∧ same c (fillAddr core slot + 10) 1 ∧
      (∀ f ∈ c.buf.fills, f.core = core.val → f.slot = slot.val → f.stale = true) ∧
      s.chip.fieldsKept [BUF_FILL_STALE_SLOT, BUF_FILL_STALE_CORE, BUF_RMW_COUNT, BUF_INJECT_ARMED] c ∧ c.host = s.chip.host ∧ c.core = s.chip.core) ∧
    (let start := s.chip.fld BUF_SCRUB_START_START * 64
     let len := s.chip.fld BUF_SCRUB_LENGTH_LENGTH * 64
     Completes .scrubGo s fun c =>
       (s.chip.buf.scrub.busy = false ∧ len ≠ 0 ∧ start + len ≤ s.chip.bufferSize → c.buf.scrub.busy = true ∧ c.buf.scrub.start = start ∧
          c.buf.scrub.len = len ∧ c.buf.scrub.init = s.chip.flag BUF_SCRUB_CTRL_MODE ∧ c.flag BUF_STATUS_SCRUB_BUSY = true ∧
          s.chip.fieldsKept [BUF_STATUS_SCRUB_BUSY] c ∧ s.chip.bytesKept c) ∧
       (s.chip.buf.scrub.busy = true ∨ len = 0 ∨ s.chip.bufferSize < start + len → c = s.chip)) ∧
    (let b := s.chip.buf.scrub
     b.busy = true → b.init = true → b.uid = none → s.chip.memWf = true → (∀ m ∈ s.chip.host.cmds, m.opcode ≠ opScrub) → Completes (.scrubDone []) s fun c =>
       (∀ a, b.start ≤ a → a < b.start + b.len → c.byte a = 0) ∧ same c b.start b.len ∧ c.buf.scrub.busy = false ∧ c.flag BUF_STATUS_SCRUB_BUSY = false ∧
       c.flag BUF_EVENT_SCRUB_DONE = true ∧ c.fld BUF_SCRUB_UNITS_COUNT = min (s.chip.fld BUF_SCRUB_UNITS_COUNT + b.len / 64) (2 ^ 32 - 1) ∧
       s.chip.fieldsKept [BUF_STATUS_SCRUB_BUSY, BUF_EVENT_SCRUB_DONE, BUF_SCRUB_UNITS_COUNT, BUF_SCRUB_RESULT_CORRECTED, BUF_SCRUB_RESULT_UNCORRECTABLE] c ∧
       c.host = s.chip.host) ∧
    (Completes .injectArm s fun c => c.flag BUF_INJECT_ARMED = true ∧ s.chip.fieldsKept [BUF_INJECT_ARMED] c ∧ c = { s.chip with regs := c.regs })

/-! ### Start-up, resets, flash -/

/-- The boot commands, PERSIST and the ends of flash operations (R601, R606, R609, R615, R617, R618, R626). A boot command is discarded while one is in
progress and has RESULT STAGE outside its stages. LOAD_CHUNK copies the mailbox into image staging; LOAD_END checks what stands there; BOOT_GO loads accepted
images and seals; FUSE_PROGRAM programs all it asks for or nothing; WRITE_CONFIG has a valid record written, in the copy that is not current, with the next
GENERATION. An image too large for its slot is skipped. -/
def Obligations.BootCommands : Prop :=
  ∀ (s : State) (k : Fin 8) (b : BootIn),
    let stage := s.chip.fld BOOT_STATUS_STAGE
    let idle := s.chip.flag BOOT_HOST_STATUS_BUSY = false
    let result := fun (c : Chip) (r : Nat) =>
      c.fld BOOT_HOST_STATUS_RESULT = r ∧ s.chip.fieldsKept [BOOT_HOST_STATUS_RESULT] c ∧ c = { s.chip with regs := c.regs }
    let off := s.chip.fld BOOT_HOST_OFFSET_OFFSET
    let len := s.chip.fld BOOT_HOST_LENGTH_LENGTH
    let allowed := k.val ≤ 4 ∧ off % 64 = 0 ∧ len % 64 = 0 ∧ 0 < len ∧ len ≤ 524288 ∧ off + len ≤ 32 * mib
    let r := s.chip.mailbox 64
    let add := fun j => imgNat r (49 + j) 1
    let refused := (imgNat r 48 1).testBit 0 = true ∧ s.chip.flag BOOT_FUSE_OWNER_KEY_SET = true ∨ ∃ j < 5, 32 < s.chip.fld (BOOT_SVN_MIN_SVN j) + add j
    let img := s.chip.bytes (stageAddr k) (min (512 + imgNat (s.chip.bytes (stageAddr k) 512) 20 4) (32 * mib))
    let why := s.chip.imageCheck k img img.length
    (∀ i : Instr, i = .loadChunk k ∨ i = .loadEnd k ∨ i = .bootGo b ∨ i = .fuseProgram ∨ i = .writeConfig →
      (¬ idle → Completes i s fun c => c = s.chip) ∧
      (idle → (if i = .writeConfig then stage = 0 ∨ stage = 7 else stage ≠ 4) → Completes i s fun c => result c 1)) ∧
    (idle → stage = 4 →
      (¬ allowed → Completes (.loadChunk k) s fun c => result c 2) ∧
      (allowed → (∀ p ∈ linePieces (stageAddr k + off) len, s.chip.lineOf p.1 = none) → Completes (.loadChunk k) s fun c =>
        c.fld BOOT_HOST_STATUS_RESULT = 0 ∧ c.fld (BOOT_IMAGE_STATE k) = 0 ∧ Cells.get (fun _ => []) c.boot.staged k = [] ∧
        (∀ j < len, c.byte (stageAddr k + off + j) = (s.chip.mailbox len).getD j 0) ∧
        (∀ a, a < stageAddr k + off ∨ stageAddr k + off + len ≤ a → c.byte a = s.chip.byte a) ∧
        s.chip.fieldsKept [BOOT_HOST_STATUS_RESULT, BOOT_IMAGE_STATE k, BUF_INJECT_ARMED] c) ∧
      (4 < k.val → Completes (.loadEnd k) s fun c => result c 2) ∧
      (k.val ≤ 4 → (∀ u ∈ unitsOf (stageAddr k) (32 * mib), s.chip.unitMark u = .good) → (∀ l, stageAddr k ≤ 4096 * l → 4096 * l < stageAddr k + 32 * mib → s.chip.lineOf l = none) →
        Completes (.loadEnd k) s fun c =>
          c.fld BOOT_HOST_STATUS_RESULT = 0 ∧ c.fld (BOOT_IMAGE_CHECK k) = why ∧ c.fld (BOOT_IMAGE_STATE k) = (if why = 0 then 1 else 2) ∧
          Cells.get (fun _ => []) c.boot.staged k = (if why = 0 then img else []) ∧
          s.chip.fieldsKept [BOOT_HOST_STATUS_RESULT, BOOT_IMAGE_CHECK k, BOOT_IMAGE_STATE k, BOOT_IMAGE_SIGNER k, BOOT_IMAGE_BANK k] c ∧ s.chip.bytesKept c) ∧
      (s.chip.allAccepted = false → Completes (.bootGo b) s fun c => result c 2) ∧
      (s.chip.allAccepted = true → Completes (.bootGo b) s fun c =>
        if b.cores = 0 ∨ b.wmH = false then c.fld BOOT_STATUS_STAGE = 7 ∧ c.fld BOOT_STATUS_HALT_CAUSE = 5
        else c.fld BOOT_STATUS_STAGE = 6 ∧ c.flag GEN_CONFIG_SEALED = true ∧ c.role .h = roleActive) ∧
      (refused → Completes .fuseProgram s fun c => result c 3) ∧
      (¬ refused → Completes .fuseProgram s fun c =>
        c.fld BOOT_HOST_STATUS_RESULT = 0 ∧
        (c.flag BOOT_FUSE_OWNER_KEY_SET = (s.chip.flag BOOT_FUSE_OWNER_KEY_SET || (imgNat r 48 1).testBit 0)) ∧
        c.boot.keyHash = (if (imgNat r 48 1).testBit 0 then r.take 48 else s.chip.boot.keyHash) ∧
        (c.flag BOOT_FUSE_OWNER_ONLY = (s.chip.flag BOOT_FUSE_OWNER_ONLY || (imgNat r 48 1).testBit 1)) ∧
        (∀ j < 5, c.fld (BOOT_SVN_MIN_SVN j) = s.chip.fld (BOOT_SVN_MIN_SVN j) + add j) ∧
        s.chip.fieldsKept ([BOOT_HOST_STATUS_RESULT, BOOT_FUSE_OWNER_KEY_SET, BOOT_FUSE_OWNER_ONLY] ++ (List.range 5).map (fun j => BOOT_SVN_MIN_SVN j)) c ∧
        s.chip.bytesKept c)) ∧
    (idle → stage ≠ 0 → stage ≠ 7 → Completes .writeConfig s fun c =>
      if cfgValid (s.chip.mailbox 256) = true ∧ cfgFieldsOk (s.chip.mailbox 256) = true then
        c.flag BOOT_HOST_STATUS_BUSY = true ∧ c.fld BOOT_HOST_STATUS_RESULT = 0 ∧
        c.boot.ops = s.chip.boot.ops ++ [⟨.hostConfig (s.chip.mailbox 256), none⟩] ∧
        s.chip.fieldsKept [BOOT_HOST_STATUS_BUSY, BOOT_HOST_STATUS_RESULT] c ∧ s.chip.bytesKept c
      else result c 2) ∧
    (∀ j : Fin 5, j.val ∈ s.chip.boot.persisting → (∀ o ∈ s.chip.boot.ops, o.of j = false) → Completes (.persist j) s fun c =>
      if slotSize j < (s.chip.runningImage j).length then c.flag BOOT_EVENT_PERSIST_SKIPPED = true ∧ j.val ∉ c.boot.persisting ∧
        c.flag BOOT_STATUS_PERSISTING = (c.boot.persisting != []) ∧ s.chip.fieldsKept [BOOT_EVENT_PERSIST_SKIPPED, BOOT_STATUS_PERSISTING] c
      else c.boot.ops = s.chip.boot.ops ++ [⟨.image j, none⟩] ∧ c = { s.chip with sup := c.sup }) ∧
    (∀ (o : FlashOp) (rest : List FlashOp), s.chip.boot.ops = o :: rest → o.uid = none →
      let cur := s.chip.currentConfig
      let base := 0x10000 * (cur.map (fun x => 1 - x.1)).getD 0
      (∀ x, o.use = .hostConfig x → x.length = 256 → Memory.wf s.chip = true → Completes (.flashWriteDone true) s fun c =>
        c.boot.ops = rest ∧ c.flag BOOT_HOST_STATUS_BUSY = false ∧ c.flag BOOT_EVENT_CONFIG_WRITTEN = true ∧
        (c.flashBytes base 256).take 8 = asciiBytes "KNFCFG01" ∧
        imgNat (c.flashBytes base 256) 8 4 = (cur.map (fun y => imgNat y.2 8 4 + 1)).getD 0 % 2 ^ 32 ∧
        imgNat (c.flashBytes base 256) 252 4 = cfgCrc (c.flashBytes base 256) ∧ imgNat (c.flashBytes base 256) 14 1 = imgNat s.chip.config 14 1 ∧
        (∀ i, 12 ≤ i → i < 252 → i ≠ 14 → (c.flashBytes base 256).getD i 0 = x.getD i 0) ∧
        (∀ a, a < base ∨ base + 0x10000 ≤ a → Cells.get flashBlank c.boot.flash a = Cells.get flashBlank s.chip.boot.flash a) ∧
        s.chip.fieldsKept [BOOT_HOST_STATUS_BUSY, BOOT_EVENT_CONFIG_WRITTEN] c) ∧
      (∀ v d op, o.use = .journal v d op false → Completes (.flashWriteDone false) s fun c =>
        c.boot.ops = ⟨.journal v d op true, none⟩ :: rest ∧ c = { s.chip with sup := c.sup }) ∧
      (∀ v d op, o.use = .journal v d op true → Completes (.flashWriteDone false) s fun c =>
        c.boot.ops = rest ∧ c.flag BOOT_EVENT_JOURNAL_FAIL = true ∧ s.chip.fieldsKept [BOOT_EVENT_JOURNAL_FAIL] c ∧ s.chip.bytesKept c) ∧
      (∀ j, o.use = .bank j → Completes (.flashWriteDone false) s fun c =>
        c.boot.ops = rest ∧ c.flag BOOT_EVENT_PERSIST_FAIL = true ∧ j ∉ c.boot.persisting ∧
        s.chip.fieldsKept [BOOT_EVENT_PERSIST_FAIL, BOOT_STATUS_PERSISTING] c ∧ s.chip.bytesKept c))

/-- The resets (R595 to R598, R607 to R609, R619). POR_N leaves every field at its reset value but inputs, fuses and what follows from them, and keeps the flash.
A start-up whose tests pass waits for images where the host is their source; one that fails halts with its cause. A warm reset needs power, keeps ledger time,
staged writes, buffer DRAM and fields of class P, and ends commands, weirs and fields of class W; BOOT_RESET needs its key and a port that exists.
Where the block cache holds dirty lines they are written back first. -/
def Obligations.Resets : Prop :=
  ∀ (s : State) (b : BootIn),
    let fuses := [BOOT_FUSE_OWNER_KEY_SET, BOOT_FUSE_OWNER_ONLY] ++ (List.range 5).map (fun k => BOOT_SVN_MIN_SVN k)
    let flash := fun c : Chip => c.boot.flash = s.chip.boot.flash ∧ c.boot.keyHash = s.chip.boot.keyHash ∧ (∀ f ∈ fuses, c.fld f = s.chip.fld f)
    let halts := fun (c : Chip) (k : Nat) => c.fld BOOT_STATUS_STAGE = 7 ∧ c.fld BOOT_STATUS_HALT_CAUSE = k ∧ flash c
    let starts := fun c : Chip =>
      (b.ledgerPll = false → halts c 1) ∧
      (b.ledgerPll = true → b.rom = false → halts c 2) ∧
      (b.ledgerPll = true → b.rom = true →
        (b.bufCfg.toNat % 4 = 3 → halts c 3 ∧ c.flag BUF_EVENT_CONFIG_BAD = true) ∧
        (b.bufCfg.toNat % 4 ≠ 3 → b.bufGood = false → halts c 3) ∧
        (b.bufCfg.toNat % 4 ≠ 3 → b.bufGood = true →
          (b.bufTest = false → halts c 4 ∧ c.flag BUF_EVENT_SELFTEST_FAIL = true) ∧
          (b.bufTest = true → b.arrayTest = false → halts c 4) ∧
          (b.bufTest = true → b.arrayTest = true → b.srcHost = true →
            c.fld BOOT_STATUS_STAGE = 4 ∧ c.flag BOOT_STATUS_SRC_HOST = true ∧ c.flag BUF_STATUS_TRAINED = true ∧ c.flag BUF_STATUS_SELFTEST_PASS = true ∧
            c.fld BUF_STATUS_SIZE_GIB = (if b.bufCfg.toNat % 4 = 0 then 128 else 256) ∧ flash c)))
    (Completes .porNActive s fun c =>
      (∀ f : Fld, f.lo + f.w ≤ 64 → (∀ g ∈ inputFields ++ fuses ++ (List.range 8).flatMap (fun x => [SPN_STATUS_DRIVER_FAULT x, WMM_STN_STATE_UNCLAMP_ALLOWED x]) ++
        (List.range 16).map (fun p => MOT_AX_STATUS_DRIVER_FAULT p), apart f g) → c.fld f = ({} : Chip).fld f) ∧
      (∀ f ∈ inputFields, c.fld f = s.chip.fld f) ∧ flash c ∧ c.boot.powered = false ∧ c.core = {} ∧ c.buf = {} ∧ c.arch = {} ∧ c.path = {} ∧
      c.host = { posts := s.chip.host.posts }) ∧
    (Completes (.powerOnReset b) s fun c => starts c ∧ (b.srcHost = true → b.ledgerPll = true → c.boot.powered = true ∧ c.fld BOOT_LAST_RESET_SOURCE = 0)) ∧
    (∀ (x : Port) (key : BitVec 32) (i : Instr) (source : Nat),
      i = .warmReset b ∧ source = 1 ∨ i = .bootReset x key b ∧ source = 2 + x.val ∧ key = 0x5741524D#32 ∧ s.chip.portExists x = true →
      (s.chip.boot.powered = false → Completes i s fun c => c = s.chip) ∧
      (s.chip.boot.powered = true → b.srcHost = true → (∀ l ∈ s.chip.allLines, l.dirty = false) → s.chip.buf.cutSeq = none →
        Cells.wf regReset s.chip.regs = true → Completes i s fun c =>
          starts c ∧ c.fld BOOT_LAST_RESET_SOURCE = source ∧ c.now = s.chip.now ∧ c.nowH = s.chip.nowH ∧ (∀ a, c.byte a = s.chip.byte a) ∧
          c.buf.staged.map (fun e => e.seq) = s.chip.buf.staged.map (fun e => e.seq) ∧ c.host.cmds = [] ∧ c.host.posts = s.chip.host.posts ∧
          (∀ n, n ≠ weirKey 6 0 → c.weir n = {}) ∧ c.buf.sets = [] ∧ c.reg GEN_SCRATCH = s.chip.reg GEN_SCRATCH ∧
          (∀ o, 0x30000 ≤ o → o < 0x40000 → c.reg o = regReset o))) ∧
    (∀ (x : Port) (key : BitVec 32), key ≠ 0x5741524D#32 ∨ s.chip.portExists x = false → Completes (.bootReset x key b) s fun c => c = s.chip)

/-! ### The library port and boundary scan -/

/-- LP_READ and LP_WRITE (R645, R651 to R653), and the boundary-scan instructions (R658 to R662). A read gives one word per address, with the latch of a 64-bit
register; a write reaches LP_CLAMP and LP_PARK alone. An instruction that takes the pins is in force and says so until power-on; the mission state is free then,
but fuses, flash and the port itself are kept. The others change the port alone. -/
def Obligations.LibraryAndScan : Prop :=
  ∀ (s : State),
    let out := fun (l : List (BitVec 32)) (lat : Option (Nat × BitVec 32)) => ({ s.chip with servo := { s.chip.servo with lpOut := l, lpLatch := lat } } : Chip)
    let tap := fun (t : TapSt) => ({ s.chip with sup := { s.chip.sup with tap := t } } : Chip)
    let t := s.chip.sup.tap
    (∀ (a : BitVec 16) (n : Nat) (ws : List (BitVec 32)), s.chip.boot.powered = false →
      (Completes (.lpRead a n) s fun c => c = s.chip) ∧ Completes (.lpWrite a ws) s fun c => c = s.chip) ∧
    (s.chip.boot.powered = true →
      (Completes (.lpRead 0 1) s fun c => c = out [0x00C26416#32] s.chip.servo.lpLatch) ∧
      (∀ x : Station, Completes (.lpRead (BitVec.ofNat 16 (0x020 + 4 * x.val)) 1) s fun c =>
        c = out [BitVec.ofNat 32 (s.chip.stState x + 8 * s.chip.fld (WMM_STN_STATE_DISC_PRESENT x) + 16 * s.chip.fld (WMM_STN_STATE_CLAMPED x) +
          (if s.chip.stState x = sEmpty ∨ s.chip.stState x = sLoaded ∨ s.chip.stState x = sSafe then 32 else 0) + 256 * (s.chip.stn x).changes.toNat +
          65536 * s.chip.fld (WMM_STN_STATE_CAUSE x))] s.chip.servo.lpLatch) ∧
      (∀ (a : Nat) (v : Word), a = 0x008 ∧ v = s.chip.now ∨ (∃ x : Station, a = 0x040 + 8 * x.val ∧ v = Cells.get (fun _ => 0) s.chip.servo.lpTimes x.val) →
        let lo : BitVec 32 := v.setWidth 32
        let hi : BitVec 32 := (v >>> 32).setWidth 32
        (Completes (.lpRead (BitVec.ofNat 16 a) 1) s fun c => c = out [lo] (some (a, hi))) ∧
        (Completes (.lpRead (BitVec.ofNat 16 a) 2) s fun c => c = out [lo, hi] (some (a, hi))) ∧
        Completes (.lpRead (BitVec.ofNat 16 (a + 4)) 1) s fun c =>
          (∀ h, s.chip.servo.lpLatch = some (a, h) → c = out [h] s.chip.servo.lpLatch) ∧
          ((∀ h, s.chip.servo.lpLatch ≠ some (a, h)) → c = out [hi] s.chip.servo.lpLatch)) ∧
      (∀ (a : BitVec 16) (v : BitVec 32), a.toNat / 4 ≠ 4 → a.toNat / 4 ≠ 5 → Completes (.lpWrite a [v]) s fun c => c = out [] s.chip.servo.lpLatch) ∧
      (∀ v : BitVec 32, (∀ x < 8, s.chip.flag (WMM_STN_CTRL_CLAMP_REQ x) = v.getLsbD x) → Completes (.lpWrite 0x010 [v]) s fun c =>
        c = out [] s.chip.servo.lpLatch) ∧
      (∀ (v : BitVec 32) (y : Station), (∀ x < 8, (s.chip.flag (WMM_STN_CTRL_CLAMP_REQ x) = v.getLsbD x ↔ x ≠ y.val)) → s.chip.stState y = sFault →
        Completes (.lpWrite 0x010 [v]) s fun c => c.flag (WMM_STN_CTRL_CLAMP_REQ y) = v.getLsbD y ∧ c.stState y = sFault) ∧
      (∀ v : BitVec 32, (∀ x < 8, v.getLsbD x = true → s.chip.stState x ∈ [sEmpty, sSafe, sLoaded, sFault]) → Completes (.lpWrite 0x014 [v]) s fun c =>
        (∀ x < 8, c.stState x = s.chip.stState x) ∧ c.servo.lpOut = [])) ∧
    (∀ (i : Instr) (code : BitVec 8), (i, code) ∈ [(.extest, 0x00#8), (.highz, 0x03#8), (.bscanClamp, 0x04#8), (.extestPulse, 0x05#8), (.extestTrain, 0x06#8)] →
      Completes i s fun c =>
        c.sup.tap = { t with instr := code, taken := true } ∧ c.boot.flash = s.chip.boot.flash ∧ c.boot.keyHash = s.chip.boot.keyHash ∧
        c.host.posts = s.chip.host.posts ∧
        ∀ f ∈ [BOOT_FUSE_OWNER_KEY_SET, BOOT_FUSE_OWNER_ONLY] ++ (List.range 5).map (fun k => BOOT_SVN_MIN_SVN k), c.fld f = s.chip.fld f) ∧
    (∀ cells : List Bool, cells.length = 1836 → Completes (.samplePreload cells) s fun c => c = tap { t with instr := 0x01, cells := cells }) ∧
    (Completes .idcode s fun c => ∃ id : BitVec 32, c = tap { t with instr := 0x02, ident := some id } ∧ id.getLsbD 0 = true ∧
      id.extractLsb' 1 11 = Config.jep106 ∧ id.extractLsb' 12 16 = 0x6416#16 ∧ id.extractLsb' 28 4 = 0xA#4) ∧
    (Completes .bypass s fun c => c = tap { t with instr := 0xFF }) ∧
    (Completes .tapReset s fun c => c = tap { t with instr := 0x02, cells := [] })

/-- The instruction words (R312, Tables 7.6 and 7.8). The word of every Tolek instruction, at every value of every operand, is legal and is that instruction;
the one exception is a LOOP of count 0, which R318 calls illegal. Every legal word is the word of one
instruction, but for fields that the instruction does not name and Table 7.8 does not mark 0 (log entry 133, the model's reading). And an instruction whose word does not
stand at the engine's program counter does not occur (the model's choice, log entry 3). -/
def Obligations.TolekEncoding : Prop :=
  (∀ (i : Instr) (e : TolekEngine) (w : Q), tolekWord i = some (e, w) → (∀ last, i ≠ .tLoop e 0 last) → tLegal w = true ∧ tolekInstr e w = some i) ∧
  (∀ (e : TolekEngine) (last : BitVec 12) (w : Q), tolekWord (.tLoop e 0 last) = some (e, w) → tLegal w = false) ∧
  (∀ (e : TolekEngine) (w : Q), tLegal w = true → ∃ i, tolekInstr e w = some i ∧ tolekWord i = some (e, tPlain w)) ∧
  (∀ (i : Instr) (e : TolekEngine) (w : Q) (s : State), tolekWord i = some (e, w) → tPlain ((s.chip.tolek e).word (s.chip.tolek e).pc) ≠ w → exec i s = .next s)
end

