-- ==== Sys2Proof/Laws/Store.lean ====
section
/-! SUPPORT. What a store does: a read after a write to the same key, every other key unchanged, the canonical form kept. -/

namespace Sys2Proof.Machine

variable {α : Type} [DecidableEq α]

omit [DecidableEq α] in
theorem Cells.get_dropWhile_of_lt (d : Nat → α) (t : Cells α) (k i : Nat) (h : k < i) :
    Cells.get d (t.dropWhile (fun c => c.1 ≤ k)) i = Cells.get d t i := by
  induction t with
  | nil => rfl
  | cons c t ih =>
    obtain ⟨j, w⟩ := c
    by_cases hj : j ≤ k
    · have h1 : j ≠ i := by omega
      have h2 : ¬ i < j := by omega
      simp [List.dropWhile, hj, Cells.get, h1, h2, ih]
    · simp [List.dropWhile, hj]

omit [DecidableEq α] in
theorem Cells.get_dropWhile_of_le (d : Nat → α) (t : Cells α) (k i : Nat) (h : i ≤ k) :
    Cells.get d (t.dropWhile (fun c => c.1 ≤ k)) i = d i := by
  induction t with
  | nil => rfl
  | cons c t ih =>
    obtain ⟨j, w⟩ := c
    by_cases hj : j ≤ k
    · simpa [List.dropWhile, hj] using ih
    · have h1 : j ≠ i := by omega
      have h2 : i < j := by omega
      simp [List.dropWhile, hj, Cells.get, h1, h2]

/-- A read after a write to the same key gives the value written. -/
@[simp] theorem Cells.get_put_same (d : Nat → α) (m : Cells α) (k : Nat) (v : α) :
    Cells.get d (Cells.put d m k v) k = v := by
  induction m with
  | nil => by_cases h : v = d k <;> simp [Cells.put, Cells.get, h]
  | cons c t ih =>
    obtain ⟨j, w⟩ := c
    by_cases hj : j = k
    · by_cases hv : v = d k
      · simp only [Cells.put, hj, hv, if_true]
        exact Cells.get_dropWhile_of_le d t k k (Nat.le_refl k)
      · simp [Cells.put, Cells.get, hj, hv]
    · by_cases hk : k < j
      · by_cases hv : v = d k <;> simp [Cells.put, Cells.get, hj, hk, hv]
      · simp [Cells.put, Cells.get, hj, hk, ih]

/-- A write leaves every other key alone. -/
theorem Cells.get_put_other (d : Nat → α) (m : Cells α) (k i : Nat) (v : α) (h : i ≠ k) :
    Cells.get d (Cells.put d m k v) i = Cells.get d m i := by
  induction m with
  | nil =>
    by_cases hv : v = d k
    · simp [Cells.put, Cells.get, hv]
    · have h1 : k ≠ i := fun e => h e.symm
      by_cases hi : i < k <;> simp [Cells.put, Cells.get, hv, h1, hi]
  | cons c t ih =>
    obtain ⟨j, w⟩ := c
    have h1 : k ≠ i := fun e => h e.symm
    by_cases hj : j = k
    · subst hj
      by_cases hv : v = d j
      · simp only [Cells.put, hv, if_true]
        by_cases hi : i < j
        · rw [Cells.get_dropWhile_of_le d t j i (by omega)]; simp [Cells.get, h1, hi]
        · rw [Cells.get_dropWhile_of_lt d t j i (by omega)]; simp [Cells.get, h1, hi]
      · simp [Cells.put, hv, Cells.get, h1]
    · by_cases hk : k < j
      · by_cases hv : v = d k
        · simp [Cells.put, hj, hk, hv]
        · by_cases hi : i < k
          · have h2 : j ≠ i := by omega
            have h3 : i < j := by omega
            simp [Cells.put, hj, hk, hv, Cells.get, h1, hi, h2, h3]
          · simp [Cells.put, hj, hk, hv, Cells.get, h1, hi]
      · simp [Cells.put, hj, hk, Cells.get, ih]

theorem Cells.get_put (d : Nat → α) (m : Cells α) (k i : Nat) (v : α) :
    Cells.get d (Cells.put d m k v) i = if i = k then v else Cells.get d m i := by
  by_cases h : i = k
  · subst h; simp
  · simp [h, Cells.get_put_other d m k i v h]

theorem Cells.wf_tail (d : Nat → α) (c : Nat × α) (t : Cells α) (h : Cells.wf d (c :: t) = true) :
    Cells.wf d t = true := by
  obtain ⟨j, v⟩ := c
  simp only [Cells.wf, Bool.and_eq_true] at h
  exact h.2

theorem Cells.wf_dropWhile (d : Nat → α) (t : Cells α) (p : Nat × α → Bool) (h : Cells.wf d t = true) :
    Cells.wf d (t.dropWhile p) = true := by
  induction t with
  | nil => exact h
  | cons c t ih =>
    rw [List.dropWhile_cons]
    split
    · exact ih (Cells.wf_tail d c t h)
    · exact h

/-- The first key of a store, or nothing. -/
def Cells.headAbove (m : Cells α) (k : Nat) : Prop := ∀ c ∈ m.head?, k < c.1

theorem Cells.headAbove_put (d : Nat → α) (m : Cells α) (j k : Nat) (v : α) (hj : j < k)
    (h : Cells.headAbove m j) (_hw : Cells.wf d m = true) : Cells.headAbove (Cells.put d m k v) j := by
  cases m with
  | nil => by_cases hv : v = d k <;> simp [Cells.put, hv, Cells.headAbove, hj]
  | cons c t =>
    obtain ⟨i, w⟩ := c
    have hi : j < i := by simpa [Cells.headAbove] using h
    by_cases h1 : i = k
    · by_cases hv : v = d k
      · simp only [Cells.put, h1, hv, if_true, Cells.headAbove]
        intro c hc
        have := List.head?_dropWhile_not (fun c : Nat × α => decide (c.1 ≤ k)) t
        rw [Option.mem_def] at hc
        rw [hc] at this
        simp at this
        omega
      · simp [Cells.put, h1, hv, Cells.headAbove, hj]
    · by_cases h2 : k < i
      · by_cases hv : v = d k <;> simp [Cells.put, h1, h2, hv, Cells.headAbove, hj, hi]
      · simp [Cells.put, h1, h2, Cells.headAbove, hi]

theorem Cells.wf_cons_iff (d : Nat → α) (j : Nat) (v : α) (t : Cells α) :
    Cells.wf d ((j, v) :: t) = true ↔ v ≠ d j ∧ Cells.headAbove t j ∧ Cells.wf d t = true := by
  cases t with
  | nil => simp [Cells.wf, Cells.headAbove]
  | cons c t => simp [Cells.wf, Cells.headAbove, and_assoc]

/-- Every write keeps the canonical form. -/
theorem Cells.wf_put (d : Nat → α) (m : Cells α) (k : Nat) (v : α) (h : Cells.wf d m = true) :
    Cells.wf d (Cells.put d m k v) = true := by
  induction m with
  | nil => by_cases hv : v = d k <;> simp [Cells.put, hv, Cells.wf]
  | cons c t ih =>
    obtain ⟨j, w⟩ := c
    have hc := (Cells.wf_cons_iff d j w t).1 h
    by_cases hj : j = k
    · subst hj
      by_cases hv : v = d j
      · simp only [Cells.put, hv, if_true]
        exact Cells.wf_dropWhile d t _ hc.2.2
      · simp only [Cells.put, hv, if_true, if_false]
        exact (Cells.wf_cons_iff d j v t).2 ⟨hv, hc.2.1, hc.2.2⟩
    · by_cases hk : k < j
      · by_cases hv : v = d k
        · simpa [Cells.put, hj, hk, hv] using h
        · simp only [Cells.put, hj, hk, hv, if_true, if_false]
          exact (Cells.wf_cons_iff d k v _).2 ⟨hv, by simp [Cells.headAbove, hk], h⟩
      · simp only [Cells.put, hj, hk, if_false]
        exact (Cells.wf_cons_iff d j w _).2
          ⟨hc.1, Cells.headAbove_put d t j k v (by omega) hc.2.1 hc.2.2, ih hc.2.2⟩

theorem Cells.wf_modify (d : Nat → α) (m : Cells α) (k : Nat) (f : α → α) (h : Cells.wf d m = true) :
    Cells.wf d (Cells.modify d m k f) = true := Cells.wf_put d m k _ h

theorem Cells.wf_putRun (d : Nat → α) (m : Cells α) (k : Nat) (vs : List α) (h : Cells.wf d m = true) :
    Cells.wf d (Cells.putRun d m k vs) = true := by
  induction vs generalizing m k with
  | nil => exact h
  | cons v vs ih => exact ih _ _ (Cells.wf_put d m k v h)

end Sys2Proof.Machine
end

