-- ==== Sys2Proof/Laws/State.lean ====
section
/-! SUPPORT. What each update of the state does to every part of it: one lemma a part, true by computation, and the laws of registers and
their fields. -/

namespace Sys2Proof.Machine

/-! ### Fields of a register -/

theorem fieldOf_testBit (x : Word) (lo w i : Nat) :
    (fieldOf x lo w).testBit i = (decide (i < w) && x.getLsbD (lo + i)) := by
  simp [fieldOf, Nat.testBit_mod_two_pow, BitVec.getLsbD]

theorem fieldOf_lt (x : Word) (lo w : Nat) : fieldOf x lo w < 2 ^ w := Nat.mod_lt _ (Nat.two_pow_pos w)

theorem withField_getLsbD (x : Word) (lo w v i : Nat) (hi : i < 64) :
    (withField x lo w v).getLsbD i
      = if lo ≤ i ∧ i < lo + w then v.testBit (i - lo) else x.getLsbD i := by
  simp only [withField, BitVec.getLsbD_or, BitVec.getLsbD_and, BitVec.getLsbD_not, BitVec.getLsbD_shiftLeft, BitVec.getLsbD_ofNat,
    Nat.testBit_two_pow_sub_one, Nat.testBit_mod_two_pow]
  by_cases h1 : lo ≤ i
  · by_cases h2 : i < lo + w
    · have a : ¬ i < lo := by omega
      have b : i - lo < w := by omega
      have d : i - lo < 64 := by omega
      simp [h1, h2, a, b, d, hi]
    · have a : ¬ i < lo := by omega
      have b : ¬ i - lo < w := by omega
      simp [h1, h2, a, b, hi]
  · have a : i < lo := by omega
    simp [h1, a, hi]

/-- A field reads what was last written into it. -/
theorem fieldOf_withField_same (x : Word) (lo w v : Nat) (h : lo + w ≤ 64) :
    fieldOf (withField x lo w v) lo w = v % 2 ^ w := by
  apply Nat.eq_of_testBit_eq
  intro i
  rw [fieldOf_testBit, Nat.testBit_mod_two_pow]
  by_cases hi : i < w
  · rw [withField_getLsbD x lo w v (lo + i) (by omega)]
    simp [hi]
  · simp [hi]

/-- A write of one field leaves every field that shares no bit with it. -/
theorem fieldOf_withField_apart (x : Word) (lo w v lo' w' : Nat) (h' : lo' + w' ≤ 64) (h : lo' + w' ≤ lo ∨ lo + w ≤ lo') :
    fieldOf (withField x lo w v) lo' w' = fieldOf x lo' w' := by
  apply Nat.eq_of_testBit_eq
  intro i
  rw [fieldOf_testBit, fieldOf_testBit]
  by_cases hi : i < w'
  · rw [withField_getLsbD x lo w v (lo' + i) (by omega)]
    have : ¬ (lo ≤ lo' + i ∧ lo' + i < lo + w) := by omega
    simp [this]
  · simp [hi]

/-! ### Registers -/

@[simp] theorem reg_setReg (c : Chip) (o v) : (c.setReg o v).reg o = v := by simp [Chip.reg, Chip.setReg]

theorem reg_setReg_other (c : Chip) (o o' v) (h : o' ≠ o) : (c.setReg o v).reg o' = c.reg o' := by
  simp [Chip.reg, Chip.setReg, Cells.get_put_other _ _ _ _ _ h]

theorem reg_setFld_other (c : Chip) (f v o) (h : o ≠ f.reg) : (c.setFld f v).reg o = c.reg o := reg_setReg_other _ _ _ _ h

theorem fld_lt (c : Chip) (f : Fld) : c.fld f < 2 ^ f.w := fieldOf_lt _ _ _

theorem fld_setFld_same (c : Chip) (f : Fld) (v) (h : f.lo + f.w ≤ 64) : (c.setFld f v).fld f = v % 2 ^ f.w := by
  simp [Chip.fld, Chip.setFld, fieldOf_withField_same _ _ _ _ h]

theorem fld_setFld_apart (c : Chip) (f g : Fld) (v) (hf : f.lo + f.w ≤ 64) (h : apart f g) : (c.setFld g v).fld f = c.fld f := by
  by_cases hr : f.reg = g.reg
  · have h2 : f.lo + f.w ≤ g.lo ∨ g.lo + g.w ≤ f.lo := by
      rcases h with h | h
      · exact absurd hr h
      · exact h
    simp [Chip.fld, Chip.setFld, hr, fieldOf_withField_apart _ _ _ _ _ _ hf h2]
  · simp [Chip.fld, Chip.setFld, reg_setReg_other _ _ _ _ hr]

/-! ### The parts of the state after each update -/

@[simp] theorem setReg_free (c : Chip) (o v) : (c.setReg o v).free = c.free := rfl
@[simp] theorem setReg_arch (c : Chip) (o v) : (c.setReg o v).arch = c.arch := rfl
@[simp] theorem setReg_core (c : Chip) (o v) : (c.setReg o v).core = c.core := rfl
@[simp] theorem setReg_host (c : Chip) (o v) : (c.setReg o v).host = c.host := rfl
@[simp] theorem setReg_buf (c : Chip) (o v) : (c.setReg o v).buf = c.buf := rfl
@[simp] theorem setReg_afe (c : Chip) (o v) : (c.setReg o v).afe = c.afe := rfl
@[simp] theorem setReg_path (c : Chip) (o v) : (c.setReg o v).path = c.path := rfl
@[simp] theorem setReg_servo (c : Chip) (o v) : (c.setReg o v).servo = c.servo := rfl
@[simp] theorem setReg_sup (c : Chip) (o v) : (c.setReg o v).sup = c.sup := rfl
@[simp] theorem setFld_free (c : Chip) (f v) : (c.setFld f v).free = c.free := rfl
@[simp] theorem setFld_arch (c : Chip) (f v) : (c.setFld f v).arch = c.arch := rfl
@[simp] theorem setFld_core (c : Chip) (f v) : (c.setFld f v).core = c.core := rfl
@[simp] theorem setFld_host (c : Chip) (f v) : (c.setFld f v).host = c.host := rfl
@[simp] theorem setFld_buf (c : Chip) (f v) : (c.setFld f v).buf = c.buf := rfl
@[simp] theorem setFld_afe (c : Chip) (f v) : (c.setFld f v).afe = c.afe := rfl
@[simp] theorem setFld_path (c : Chip) (f v) : (c.setFld f v).path = c.path := rfl
@[simp] theorem setFld_servo (c : Chip) (f v) : (c.setFld f v).servo = c.servo := rfl
@[simp] theorem setFld_sup (c : Chip) (f v) : (c.setFld f v).sup = c.sup := rfl
@[simp] theorem setFlag_free (c : Chip) (f v) : (c.setFlag f v).free = c.free := rfl
@[simp] theorem setFlag_arch (c : Chip) (f v) : (c.setFlag f v).arch = c.arch := rfl
@[simp] theorem setFlag_core (c : Chip) (f v) : (c.setFlag f v).core = c.core := rfl
@[simp] theorem setFlag_host (c : Chip) (f v) : (c.setFlag f v).host = c.host := rfl
@[simp] theorem setFlag_buf (c : Chip) (f v) : (c.setFlag f v).buf = c.buf := rfl
@[simp] theorem setFlag_afe (c : Chip) (f v) : (c.setFlag f v).afe = c.afe := rfl
@[simp] theorem setFlag_path (c : Chip) (f v) : (c.setFlag f v).path = c.path := rfl
@[simp] theorem setFlag_servo (c : Chip) (f v) : (c.setFlag f v).servo = c.servo := rfl
@[simp] theorem setFlag_sup (c : Chip) (f v) : (c.setFlag f v).sup = c.sup := rfl
@[simp] theorem mark_free (c : Chip) (f) : (c.mark f).free = c.free := rfl
@[simp] theorem mark_arch (c : Chip) (f) : (c.mark f).arch = c.arch := rfl
@[simp] theorem mark_core (c : Chip) (f) : (c.mark f).core = c.core := rfl
@[simp] theorem mark_host (c : Chip) (f) : (c.mark f).host = c.host := rfl
@[simp] theorem mark_buf (c : Chip) (f) : (c.mark f).buf = c.buf := rfl
@[simp] theorem mark_afe (c : Chip) (f) : (c.mark f).afe = c.afe := rfl
@[simp] theorem mark_path (c : Chip) (f) : (c.mark f).path = c.path := rfl
@[simp] theorem mark_servo (c : Chip) (f) : (c.mark f).servo = c.servo := rfl
@[simp] theorem mark_sup (c : Chip) (f) : (c.mark f).sup = c.sup := rfl
@[simp] theorem setInt_free (c : Chip) (f v) : (c.setInt f v).free = c.free := rfl
@[simp] theorem setInt_arch (c : Chip) (f v) : (c.setInt f v).arch = c.arch := rfl
@[simp] theorem setInt_core (c : Chip) (f v) : (c.setInt f v).core = c.core := rfl
@[simp] theorem setInt_host (c : Chip) (f v) : (c.setInt f v).host = c.host := rfl
@[simp] theorem setInt_buf (c : Chip) (f v) : (c.setInt f v).buf = c.buf := rfl
@[simp] theorem setInt_afe (c : Chip) (f v) : (c.setInt f v).afe = c.afe := rfl
@[simp] theorem setInt_path (c : Chip) (f v) : (c.setInt f v).path = c.path := rfl
@[simp] theorem setInt_servo (c : Chip) (f v) : (c.setInt f v).servo = c.servo := rfl
@[simp] theorem setInt_sup (c : Chip) (f v) : (c.setInt f v).sup = c.sup := rfl
@[simp] theorem add_free (c : Chip) (f n) : (c.add f n).free = c.free := rfl
@[simp] theorem add_arch (c : Chip) (f n) : (c.add f n).arch = c.arch := rfl
@[simp] theorem add_core (c : Chip) (f n) : (c.add f n).core = c.core := rfl
@[simp] theorem add_host (c : Chip) (f n) : (c.add f n).host = c.host := rfl
@[simp] theorem add_buf (c : Chip) (f n) : (c.add f n).buf = c.buf := rfl
@[simp] theorem add_afe (c : Chip) (f n) : (c.add f n).afe = c.afe := rfl
@[simp] theorem add_path (c : Chip) (f n) : (c.add f n).path = c.path := rfl
@[simp] theorem add_servo (c : Chip) (f n) : (c.add f n).servo = c.servo := rfl
@[simp] theorem add_sup (c : Chip) (f n) : (c.add f n).sup = c.sup := rfl
@[simp] theorem inc_free (c : Chip) (f) : (c.inc f).free = c.free := rfl
@[simp] theorem inc_arch (c : Chip) (f) : (c.inc f).arch = c.arch := rfl
@[simp] theorem inc_core (c : Chip) (f) : (c.inc f).core = c.core := rfl
@[simp] theorem inc_host (c : Chip) (f) : (c.inc f).host = c.host := rfl
@[simp] theorem inc_buf (c : Chip) (f) : (c.inc f).buf = c.buf := rfl
@[simp] theorem inc_afe (c : Chip) (f) : (c.inc f).afe = c.afe := rfl
@[simp] theorem inc_path (c : Chip) (f) : (c.inc f).path = c.path := rfl
@[simp] theorem inc_servo (c : Chip) (f) : (c.inc f).servo = c.servo := rfl
@[simp] theorem inc_sup (c : Chip) (f) : (c.inc f).sup = c.sup := rfl
@[simp] theorem wrapInc_free (c : Chip) (f) : (c.wrapInc f).free = c.free := rfl
@[simp] theorem wrapInc_arch (c : Chip) (f) : (c.wrapInc f).arch = c.arch := rfl
@[simp] theorem wrapInc_core (c : Chip) (f) : (c.wrapInc f).core = c.core := rfl
@[simp] theorem wrapInc_host (c : Chip) (f) : (c.wrapInc f).host = c.host := rfl
@[simp] theorem wrapInc_buf (c : Chip) (f) : (c.wrapInc f).buf = c.buf := rfl
@[simp] theorem wrapInc_afe (c : Chip) (f) : (c.wrapInc f).afe = c.afe := rfl
@[simp] theorem wrapInc_path (c : Chip) (f) : (c.wrapInc f).path = c.path := rfl
@[simp] theorem wrapInc_servo (c : Chip) (f) : (c.wrapInc f).servo = c.servo := rfl
@[simp] theorem wrapInc_sup (c : Chip) (f) : (c.wrapInc f).sup = c.sup := rfl
@[simp] theorem draw_regs (c : Chip) : c.draw.2.regs = c.regs := rfl
@[simp] theorem draw_arch (c : Chip) : c.draw.2.arch = c.arch := rfl
@[simp] theorem draw_core (c : Chip) : c.draw.2.core = c.core := rfl
@[simp] theorem draw_host (c : Chip) : c.draw.2.host = c.host := rfl
@[simp] theorem draw_buf (c : Chip) : c.draw.2.buf = c.buf := rfl
@[simp] theorem draw_afe (c : Chip) : c.draw.2.afe = c.afe := rfl
@[simp] theorem draw_path (c : Chip) : c.draw.2.path = c.path := rfl
@[simp] theorem draw_servo (c : Chip) : c.draw.2.servo = c.servo := rfl
@[simp] theorem draw_sup (c : Chip) : c.draw.2.sup = c.sup := rfl
@[simp] theorem draw_free (c : Chip) : c.draw.2.free = c.free + 1 := rfl
@[simp] theorem setWeir_regs (c : Chip) (k x) : (c.setWeir k x).regs = c.regs := rfl
@[simp] theorem setWeir_free (c : Chip) (k x) : (c.setWeir k x).free = c.free := rfl
@[simp] theorem setWeir_arch (c : Chip) (k x) : (c.setWeir k x).arch = c.arch := rfl
@[simp] theorem setWeir_host (c : Chip) (k x) : (c.setWeir k x).host = c.host := rfl
@[simp] theorem setWeir_buf (c : Chip) (k x) : (c.setWeir k x).buf = c.buf := rfl
@[simp] theorem setWeir_afe (c : Chip) (k x) : (c.setWeir k x).afe = c.afe := rfl
@[simp] theorem setWeir_path (c : Chip) (k x) : (c.setWeir k x).path = c.path := rfl
@[simp] theorem setWeir_servo (c : Chip) (k x) : (c.setWeir k x).servo = c.servo := rfl
@[simp] theorem setWeir_sup (c : Chip) (k x) : (c.setWeir k x).sup = c.sup := rfl
@[simp] theorem setWeir_core_engines (c : Chip) (k x) : (c.setWeir k x).core.engines = c.core.engines := rfl
@[simp] theorem setWeir_core_sram (c : Chip) (k x) : (c.setWeir k x).core.sram = c.core.sram := rfl
@[simp] theorem setWeir_core_cis (c : Chip) (k x) : (c.setWeir k x).core.cis = c.core.cis := rfl
@[simp] theorem setWeir_core_cisStamp (c : Chip) (k x) : (c.setWeir k x).core.cisStamp = c.core.cisStamp := rfl
@[simp] theorem setWeir_core_spilling (c : Chip) (k x) : (c.setWeir k x).core.spilling = c.core.spilling := rfl
@[simp] theorem setWeir_core_logged (c : Chip) (k x) : (c.setWeir k x).core.logged = c.core.logged := rfl
@[simp] theorem weir_setWeir (c : Chip) (k x) : (c.setWeir k x).weir k = x := by simp [Chip.weir, Chip.setWeir]
theorem weir_setWeir_other (c : Chip) (k i x) (h : i ≠ k) : (c.setWeir k x).weir i = c.weir i := by
  simp [Chip.weir, Chip.setWeir, Cells.get_put_other _ _ _ _ _ h]
@[simp] theorem setEng_regs (c : Chip) (k x) : (c.setEng k x).regs = c.regs := rfl
@[simp] theorem setEng_free (c : Chip) (k x) : (c.setEng k x).free = c.free := rfl
@[simp] theorem setEng_arch (c : Chip) (k x) : (c.setEng k x).arch = c.arch := rfl
@[simp] theorem setEng_host (c : Chip) (k x) : (c.setEng k x).host = c.host := rfl
@[simp] theorem setEng_buf (c : Chip) (k x) : (c.setEng k x).buf = c.buf := rfl
@[simp] theorem setEng_afe (c : Chip) (k x) : (c.setEng k x).afe = c.afe := rfl
@[simp] theorem setEng_path (c : Chip) (k x) : (c.setEng k x).path = c.path := rfl
@[simp] theorem setEng_servo (c : Chip) (k x) : (c.setEng k x).servo = c.servo := rfl
@[simp] theorem setEng_sup (c : Chip) (k x) : (c.setEng k x).sup = c.sup := rfl
@[simp] theorem setEng_core_weirs (c : Chip) (k x) : (c.setEng k x).core.weirs = c.core.weirs := rfl
@[simp] theorem setEng_core_sram (c : Chip) (k x) : (c.setEng k x).core.sram = c.core.sram := rfl
@[simp] theorem setEng_core_cis (c : Chip) (k x) : (c.setEng k x).core.cis = c.core.cis := rfl
@[simp] theorem setEng_core_cisStamp (c : Chip) (k x) : (c.setEng k x).core.cisStamp = c.core.cisStamp := rfl
@[simp] theorem setEng_core_spilling (c : Chip) (k x) : (c.setEng k x).core.spilling = c.core.spilling := rfl
@[simp] theorem setEng_core_logged (c : Chip) (k x) : (c.setEng k x).core.logged = c.core.logged := rfl
@[simp] theorem eng_setEng (c : Chip) (k x) : (c.setEng k x).eng k = x := by simp [Chip.eng, Chip.setEng]
theorem eng_setEng_other (c : Chip) (k i x) (h : i ≠ k) : (c.setEng k x).eng i = c.eng i := by
  simp [Chip.eng, Chip.setEng, Cells.get_put_other _ _ _ _ _ h]
@[simp] theorem setAgent_regs (c : Chip) (k x) : (c.setAgent k x).regs = c.regs := rfl
@[simp] theorem setAgent_free (c : Chip) (k x) : (c.setAgent k x).free = c.free := rfl
@[simp] theorem setAgent_core (c : Chip) (k x) : (c.setAgent k x).core = c.core := rfl
@[simp] theorem setAgent_host (c : Chip) (k x) : (c.setAgent k x).host = c.host := rfl
@[simp] theorem setAgent_buf (c : Chip) (k x) : (c.setAgent k x).buf = c.buf := rfl
@[simp] theorem setAgent_afe (c : Chip) (k x) : (c.setAgent k x).afe = c.afe := rfl
@[simp] theorem setAgent_path (c : Chip) (k x) : (c.setAgent k x).path = c.path := rfl
@[simp] theorem setAgent_servo (c : Chip) (k x) : (c.setAgent k x).servo = c.servo := rfl
@[simp] theorem setAgent_sup (c : Chip) (k x) : (c.setAgent k x).sup = c.sup := rfl
@[simp] theorem setAgent_arch_mdieWait (c : Chip) (k x) : (c.setAgent k x).arch.mdieWait = c.arch.mdieWait := rfl
@[simp] theorem setAgent_arch_ledgerM (c : Chip) (k x) : (c.setAgent k x).arch.ledgerM = c.arch.ledgerM := rfl
@[simp] theorem setAgent_arch_ledgerH (c : Chip) (k x) : (c.setAgent k x).arch.ledgerH = c.arch.ledgerH := rfl
@[simp] theorem setAgent_arch_corr (c : Chip) (k x) : (c.setAgent k x).arch.corr = c.arch.corr := rfl
@[simp] theorem setAgent_arch_pausing (c : Chip) (k x) : (c.setAgent k x).arch.pausing = c.arch.pausing := rfl
@[simp] theorem setAgent_arch_goodExchanges (c : Chip) (k x) : (c.setAgent k x).arch.goodExchanges = c.arch.goodExchanges := rfl
@[simp] theorem setAgent_arch_lastExchange (c : Chip) (k x) : (c.setAgent k x).arch.lastExchange = c.arch.lastExchange := rfl
@[simp] theorem setAgent_arch_toM (c : Chip) (k x) : (c.setAgent k x).arch.toM = c.arch.toM := rfl
@[simp] theorem setAgent_arch_toH (c : Chip) (k x) : (c.setAgent k x).arch.toH = c.arch.toH := rfl
@[simp] theorem agent_setAgent (c : Chip) (k x) : (c.setAgent k x).agent k = x := by simp [Chip.agent, Chip.setAgent]
theorem agent_setAgent_other (c : Chip) (k i x) (h : i ≠ k) : (c.setAgent k x).agent i = c.agent i := by
  simp [Chip.agent, Chip.setAgent, Cells.get_put_other _ _ _ _ _ h]
@[simp] theorem setCisQ_regs (c : Chip) (k x) : (c.setCisQ k x).regs = c.regs := rfl
@[simp] theorem setCisQ_free (c : Chip) (k x) : (c.setCisQ k x).free = c.free := rfl
@[simp] theorem setCisQ_arch (c : Chip) (k x) : (c.setCisQ k x).arch = c.arch := rfl
@[simp] theorem setCisQ_host (c : Chip) (k x) : (c.setCisQ k x).host = c.host := rfl
@[simp] theorem setCisQ_buf (c : Chip) (k x) : (c.setCisQ k x).buf = c.buf := rfl
@[simp] theorem setCisQ_afe (c : Chip) (k x) : (c.setCisQ k x).afe = c.afe := rfl
@[simp] theorem setCisQ_path (c : Chip) (k x) : (c.setCisQ k x).path = c.path := rfl
@[simp] theorem setCisQ_servo (c : Chip) (k x) : (c.setCisQ k x).servo = c.servo := rfl
@[simp] theorem setCisQ_sup (c : Chip) (k x) : (c.setCisQ k x).sup = c.sup := rfl
@[simp] theorem setCisQ_core_weirs (c : Chip) (k x) : (c.setCisQ k x).core.weirs = c.core.weirs := rfl
@[simp] theorem setCisQ_core_engines (c : Chip) (k x) : (c.setCisQ k x).core.engines = c.core.engines := rfl
@[simp] theorem setCisQ_core_sram (c : Chip) (k x) : (c.setCisQ k x).core.sram = c.core.sram := rfl
@[simp] theorem setCisQ_core_cisStamp (c : Chip) (k x) : (c.setCisQ k x).core.cisStamp = c.core.cisStamp := rfl
@[simp] theorem setCisQ_core_spilling (c : Chip) (k x) : (c.setCisQ k x).core.spilling = c.core.spilling := rfl
@[simp] theorem setCisQ_core_logged (c : Chip) (k x) : (c.setCisQ k x).core.logged = c.core.logged := rfl
@[simp] theorem cisQ_setCisQ (c : Chip) (k x) : (c.setCisQ k x).cisQ k = x := by simp [Chip.cisQ, Chip.setCisQ]
theorem cisQ_setCisQ_other (c : Chip) (k i x) (h : i ≠ k) : (c.setCisQ k x).cisQ i = c.cisQ i := by
  simp [Chip.cisQ, Chip.setCisQ, Cells.get_put_other _ _ _ _ _ h]
@[simp] theorem setQueue_regs (c : Chip) (k x) : (c.setQueue k x).regs = c.regs := rfl
@[simp] theorem setQueue_free (c : Chip) (k x) : (c.setQueue k x).free = c.free := rfl
@[simp] theorem setQueue_arch (c : Chip) (k x) : (c.setQueue k x).arch = c.arch := rfl
@[simp] theorem setQueue_core (c : Chip) (k x) : (c.setQueue k x).core = c.core := rfl
@[simp] theorem setQueue_buf (c : Chip) (k x) : (c.setQueue k x).buf = c.buf := rfl
@[simp] theorem setQueue_afe (c : Chip) (k x) : (c.setQueue k x).afe = c.afe := rfl
@[simp] theorem setQueue_path (c : Chip) (k x) : (c.setQueue k x).path = c.path := rfl
@[simp] theorem setQueue_servo (c : Chip) (k x) : (c.setQueue k x).servo = c.servo := rfl
@[simp] theorem setQueue_sup (c : Chip) (k x) : (c.setQueue k x).sup = c.sup := rfl
@[simp] theorem setQueue_host_rings (c : Chip) (k x) : (c.setQueue k x).host.rings = c.host.rings := rfl
@[simp] theorem setQueue_host_cmds (c : Chip) (k x) : (c.setQueue k x).host.cmds = c.host.cmds := rfl
@[simp] theorem setQueue_host_nextUid (c : Chip) (k x) : (c.setQueue k x).host.nextUid = c.host.nextUid := rfl
@[simp] theorem setQueue_host_posts (c : Chip) (k x) : (c.setQueue k x).host.posts = c.host.posts := rfl
@[simp] theorem setQueue_host_msix (c : Chip) (k x) : (c.setQueue k x).host.msix = c.host.msix := rfl
@[simp] theorem setQueue_host_pcie (c : Chip) (k x) : (c.setQueue k x).host.pcie = c.host.pcie := rfl
@[simp] theorem setQueue_host_configRetry (c : Chip) (k x) : (c.setQueue k x).host.configRetry = c.host.configRetry := rfl
@[simp] theorem setQueue_host_stationEvents (c : Chip) (k x) : (c.setQueue k x).host.stationEvents = c.host.stationEvents := rfl
@[simp] theorem setQueue_host_logMark (c : Chip) (k x) : (c.setQueue k x).host.logMark = c.host.logMark := rfl
@[simp] theorem setQueue_host_readAhead (c : Chip) (k x) : (c.setQueue k x).host.readAhead = c.host.readAhead := rfl
@[simp] theorem setQueue_host_barrier (c : Chip) (k x) : (c.setQueue k x).host.barrier = c.host.barrier := rfl
@[simp] theorem setQueue_host_qresets (c : Chip) (k x) : (c.setQueue k x).host.qresets = c.host.qresets := rfl
@[simp] theorem setQueue_host_activating (c : Chip) (k x) : (c.setQueue k x).host.activating = c.host.activating := rfl
@[simp] theorem setQueue_host_coresStop (c : Chip) (k x) : (c.setQueue k x).host.coresStop = c.host.coresStop := rfl
@[simp] theorem setQueue_host_begun (c : Chip) (k x) : (c.setQueue k x).host.begun = c.host.begun := rfl
@[simp] theorem setQueue_host_done (c : Chip) (k x) : (c.setQueue k x).host.done = c.host.done := rfl
@[simp] theorem setQueue_host_portHeld (c : Chip) (k x) : (c.setQueue k x).host.portHeld = c.host.portHeld := rfl
@[simp] theorem queue_setQueue (c : Chip) (k x) : (c.setQueue k x).queue k = x := by simp [Chip.queue, Chip.setQueue]
theorem queue_setQueue_other (c : Chip) (k i x) (h : i ≠ k) : (c.setQueue k x).queue i = c.queue i := by
  simp [Chip.queue, Chip.setQueue, Cells.get_put_other _ _ _ _ _ h]
@[simp] theorem setRing_regs (c : Chip) (k x) : (c.setRing k x).regs = c.regs := rfl
@[simp] theorem setRing_free (c : Chip) (k x) : (c.setRing k x).free = c.free := rfl
@[simp] theorem setRing_arch (c : Chip) (k x) : (c.setRing k x).arch = c.arch := rfl
@[simp] theorem setRing_core (c : Chip) (k x) : (c.setRing k x).core = c.core := rfl
@[simp] theorem setRing_buf (c : Chip) (k x) : (c.setRing k x).buf = c.buf := rfl
@[simp] theorem setRing_afe (c : Chip) (k x) : (c.setRing k x).afe = c.afe := rfl
@[simp] theorem setRing_path (c : Chip) (k x) : (c.setRing k x).path = c.path := rfl
@[simp] theorem setRing_servo (c : Chip) (k x) : (c.setRing k x).servo = c.servo := rfl
@[simp] theorem setRing_sup (c : Chip) (k x) : (c.setRing k x).sup = c.sup := rfl
@[simp] theorem setRing_host_queues (c : Chip) (k x) : (c.setRing k x).host.queues = c.host.queues := rfl
@[simp] theorem setRing_host_cmds (c : Chip) (k x) : (c.setRing k x).host.cmds = c.host.cmds := rfl
@[simp] theorem setRing_host_nextUid (c : Chip) (k x) : (c.setRing k x).host.nextUid = c.host.nextUid := rfl
@[simp] theorem setRing_host_posts (c : Chip) (k x) : (c.setRing k x).host.posts = c.host.posts := rfl
@[simp] theorem setRing_host_msix (c : Chip) (k x) : (c.setRing k x).host.msix = c.host.msix := rfl
@[simp] theorem setRing_host_pcie (c : Chip) (k x) : (c.setRing k x).host.pcie = c.host.pcie := rfl
@[simp] theorem setRing_host_configRetry (c : Chip) (k x) : (c.setRing k x).host.configRetry = c.host.configRetry := rfl
@[simp] theorem setRing_host_stationEvents (c : Chip) (k x) : (c.setRing k x).host.stationEvents = c.host.stationEvents := rfl
@[simp] theorem setRing_host_logMark (c : Chip) (k x) : (c.setRing k x).host.logMark = c.host.logMark := rfl
@[simp] theorem setRing_host_readAhead (c : Chip) (k x) : (c.setRing k x).host.readAhead = c.host.readAhead := rfl
@[simp] theorem setRing_host_barrier (c : Chip) (k x) : (c.setRing k x).host.barrier = c.host.barrier := rfl
@[simp] theorem setRing_host_qresets (c : Chip) (k x) : (c.setRing k x).host.qresets = c.host.qresets := rfl
@[simp] theorem setRing_host_activating (c : Chip) (k x) : (c.setRing k x).host.activating = c.host.activating := rfl
@[simp] theorem setRing_host_coresStop (c : Chip) (k x) : (c.setRing k x).host.coresStop = c.host.coresStop := rfl
@[simp] theorem setRing_host_begun (c : Chip) (k x) : (c.setRing k x).host.begun = c.host.begun := rfl
@[simp] theorem setRing_host_done (c : Chip) (k x) : (c.setRing k x).host.done = c.host.done := rfl
@[simp] theorem setRing_host_portHeld (c : Chip) (k x) : (c.setRing k x).host.portHeld = c.host.portHeld := rfl
@[simp] theorem ring_setRing (c : Chip) (k x) : (c.setRing k x).ring k = x := by simp [Chip.ring, Chip.setRing]
theorem ring_setRing_other (c : Chip) (k i x) (h : i ≠ k) : (c.setRing k x).ring i = c.ring i := by
  simp [Chip.ring, Chip.setRing, Cells.get_put_other _ _ _ _ _ h]
@[simp] theorem setCacheSet_regs (c : Chip) (k x) : (c.setCacheSet k x).regs = c.regs := rfl
@[simp] theorem setCacheSet_free (c : Chip) (k x) : (c.setCacheSet k x).free = c.free := rfl
@[simp] theorem setCacheSet_arch (c : Chip) (k x) : (c.setCacheSet k x).arch = c.arch := rfl
@[simp] theorem setCacheSet_core (c : Chip) (k x) : (c.setCacheSet k x).core = c.core := rfl
@[simp] theorem setCacheSet_host (c : Chip) (k x) : (c.setCacheSet k x).host = c.host := rfl
@[simp] theorem setCacheSet_afe (c : Chip) (k x) : (c.setCacheSet k x).afe = c.afe := rfl
@[simp] theorem setCacheSet_path (c : Chip) (k x) : (c.setCacheSet k x).path = c.path := rfl
@[simp] theorem setCacheSet_servo (c : Chip) (k x) : (c.setCacheSet k x).servo = c.servo := rfl
@[simp] theorem setCacheSet_sup (c : Chip) (k x) : (c.setCacheSet k x).sup = c.sup := rfl
@[simp] theorem setCacheSet_buf_victims (c : Chip) (k x) : (c.setCacheSet k x).buf.victims = c.buf.victims := rfl
@[simp] theorem setCacheSet_buf_evicts (c : Chip) (k x) : (c.setCacheSet k x).buf.evicts = c.buf.evicts := rfl
@[simp] theorem setCacheSet_buf_misses (c : Chip) (k x) : (c.setCacheSet k x).buf.misses = c.buf.misses := rfl
@[simp] theorem setCacheSet_buf_allocWaits (c : Chip) (k x) : (c.setCacheSet k x).buf.allocWaits = c.buf.allocWaits := rfl
@[simp] theorem setCacheSet_buf_mem (c : Chip) (k x) : (c.setCacheSet k x).buf.mem = c.buf.mem := rfl
@[simp] theorem setCacheSet_buf_marks (c : Chip) (k x) : (c.setCacheSet k x).buf.marks = c.buf.marks := rfl
@[simp] theorem setCacheSet_buf_initRanges (c : Chip) (k x) : (c.setCacheSet k x).buf.initRanges = c.buf.initRanges := rfl
@[simp] theorem setCacheSet_buf_scrub (c : Chip) (k x) : (c.setCacheSet k x).buf.scrub = c.buf.scrub := rfl
@[simp] theorem setCacheSet_buf_staged (c : Chip) (k x) : (c.setCacheSet k x).buf.staged = c.buf.staged := rfl
@[simp] theorem setCacheSet_buf_nextSeq (c : Chip) (k x) : (c.setCacheSet k x).buf.nextSeq = c.buf.nextSeq := rfl
@[simp] theorem setCacheSet_buf_slotsUsed (c : Chip) (k x) : (c.setCacheSet k x).buf.slotsUsed = c.buf.slotsUsed := rfl
@[simp] theorem setCacheSet_buf_streams (c : Chip) (k x) : (c.setCacheSet k x).buf.streams = c.buf.streams := rfl
@[simp] theorem setCacheSet_buf_store (c : Chip) (k x) : (c.setCacheSet k x).buf.store = c.buf.store := rfl
@[simp] theorem setCacheSet_buf_fills (c : Chip) (k x) : (c.setCacheSet k x).buf.fills = c.buf.fills := rfl
@[simp] theorem setCacheSet_buf_drains (c : Chip) (k x) : (c.setCacheSet k x).buf.drains = c.buf.drains := rfl
@[simp] theorem setCacheSet_buf_cutSeq (c : Chip) (k x) : (c.setCacheSet k x).buf.cutSeq = c.buf.cutSeq := rfl
@[simp] theorem setCacheSet_buf_written (c : Chip) (k x) : (c.setCacheSet k x).buf.written = c.buf.written := rfl
@[simp] theorem setCacheSet_buf_lost (c : Chip) (k x) : (c.setCacheSet k x).buf.lost = c.buf.lost := rfl
@[simp] theorem setCacheSet_buf_lruClock (c : Chip) (k x) : (c.setCacheSet k x).buf.lruClock = c.buf.lruClock := rfl
@[simp] theorem cacheSet_setCacheSet (c : Chip) (k x) : (c.setCacheSet k x).cacheSet k = x := by simp [Chip.cacheSet, Chip.setCacheSet]
theorem cacheSet_setCacheSet_other (c : Chip) (k i x) (h : i ≠ k) : (c.setCacheSet k x).cacheSet i = c.cacheSet i := by
  simp [Chip.cacheSet, Chip.setCacheSet, Cells.get_put_other _ _ _ _ _ h]
@[simp] theorem setAfeLane_regs (c : Chip) (k x) : (c.setAfeLane k x).regs = c.regs := rfl
@[simp] theorem setAfeLane_free (c : Chip) (k x) : (c.setAfeLane k x).free = c.free := rfl
@[simp] theorem setAfeLane_arch (c : Chip) (k x) : (c.setAfeLane k x).arch = c.arch := rfl
@[simp] theorem setAfeLane_core (c : Chip) (k x) : (c.setAfeLane k x).core = c.core := rfl
@[simp] theorem setAfeLane_host (c : Chip) (k x) : (c.setAfeLane k x).host = c.host := rfl
@[simp] theorem setAfeLane_buf (c : Chip) (k x) : (c.setAfeLane k x).buf = c.buf := rfl
@[simp] theorem setAfeLane_path (c : Chip) (k x) : (c.setAfeLane k x).path = c.path := rfl
@[simp] theorem setAfeLane_servo (c : Chip) (k x) : (c.setAfeLane k x).servo = c.servo := rfl
@[simp] theorem setAfeLane_sup (c : Chip) (k x) : (c.setAfeLane k x).sup = c.sup := rfl
@[simp] theorem setAfeLane_afe_resumed (c : Chip) (k x) : (c.setAfeLane k x).afe.resumed = c.afe.resumed := rfl
@[simp] theorem setAfeLane_afe_failed (c : Chip) (k x) : (c.setAfeLane k x).afe.failed = c.afe.failed := rfl
@[simp] theorem setAfeLane_afe_links (c : Chip) (k x) : (c.setAfeLane k x).afe.links = c.afe.links := rfl
@[simp] theorem afeLane_setAfeLane (c : Chip) (k x) : (c.setAfeLane k x).afeLane k = x := by simp [Chip.afeLane, Chip.setAfeLane]
theorem afeLane_setAfeLane_other (c : Chip) (k i x) (h : i ≠ k) : (c.setAfeLane k x).afeLane i = c.afeLane i := by
  simp [Chip.afeLane, Chip.setAfeLane, Cells.get_put_other _ _ _ _ _ h]
@[simp] theorem setLink_regs (c : Chip) (k x) : (c.setLink k x).regs = c.regs := rfl
@[simp] theorem setLink_free (c : Chip) (k x) : (c.setLink k x).free = c.free := rfl
@[simp] theorem setLink_arch (c : Chip) (k x) : (c.setLink k x).arch = c.arch := rfl
@[simp] theorem setLink_core (c : Chip) (k x) : (c.setLink k x).core = c.core := rfl
@[simp] theorem setLink_host (c : Chip) (k x) : (c.setLink k x).host = c.host := rfl
@[simp] theorem setLink_buf (c : Chip) (k x) : (c.setLink k x).buf = c.buf := rfl
@[simp] theorem setLink_path (c : Chip) (k x) : (c.setLink k x).path = c.path := rfl
@[simp] theorem setLink_servo (c : Chip) (k x) : (c.setLink k x).servo = c.servo := rfl
@[simp] theorem setLink_sup (c : Chip) (k x) : (c.setLink k x).sup = c.sup := rfl
@[simp] theorem setLink_afe_resumed (c : Chip) (k x) : (c.setLink k x).afe.resumed = c.afe.resumed := rfl
@[simp] theorem setLink_afe_failed (c : Chip) (k x) : (c.setLink k x).afe.failed = c.afe.failed := rfl
@[simp] theorem setLink_afe_lanes (c : Chip) (k x) : (c.setLink k x).afe.lanes = c.afe.lanes := rfl
@[simp] theorem link_setLink (c : Chip) (k x) : (c.setLink k x).link k = x := by simp [Chip.link, Chip.setLink]
theorem link_setLink_other (c : Chip) (k i x) (h : i ≠ k) : (c.setLink k x).link i = c.link i := by
  simp [Chip.link, Chip.setLink, Cells.get_put_other _ _ _ _ _ h]
@[simp] theorem setLane_regs (c : Chip) (k x) : (c.setLane k x).regs = c.regs := rfl
@[simp] theorem setLane_free (c : Chip) (k x) : (c.setLane k x).free = c.free := rfl
@[simp] theorem setLane_arch (c : Chip) (k x) : (c.setLane k x).arch = c.arch := rfl
@[simp] theorem setLane_core (c : Chip) (k x) : (c.setLane k x).core = c.core := rfl
@[simp] theorem setLane_host (c : Chip) (k x) : (c.setLane k x).host = c.host := rfl
@[simp] theorem setLane_buf (c : Chip) (k x) : (c.setLane k x).buf = c.buf := rfl
@[simp] theorem setLane_afe (c : Chip) (k x) : (c.setLane k x).afe = c.afe := rfl
@[simp] theorem setLane_servo (c : Chip) (k x) : (c.setLane k x).servo = c.servo := rfl
@[simp] theorem setLane_sup (c : Chip) (k x) : (c.setLane k x).sup = c.sup := rfl
@[simp] theorem setLane_path_frms (c : Chip) (k x) : (c.setLane k x).path.frms = c.path.frms := rfl
@[simp] theorem setLane_path_wchs (c : Chip) (k x) : (c.setLane k x).path.wchs = c.path.wchs := rfl
@[simp] theorem setLane_path_map (c : Chip) (k x) : (c.setLane k x).path.map = c.path.map := rfl
@[simp] theorem setLane_path_accs (c : Chip) (k x) : (c.setLane k x).path.accs = c.path.accs := rfl
@[simp] theorem setLane_path_power (c : Chip) (k x) : (c.setLane k x).path.power = c.path.power := rfl
@[simp] theorem lane_setLane (c : Chip) (k x) : (c.setLane k x).lane k = x := by simp [Chip.lane, Chip.setLane]
theorem lane_setLane_other (c : Chip) (k i x) (h : i ≠ k) : (c.setLane k x).lane i = c.lane i := by
  simp [Chip.lane, Chip.setLane, Cells.get_put_other _ _ _ _ _ h]
@[simp] theorem setFrm_regs (c : Chip) (k x) : (c.setFrm k x).regs = c.regs := rfl
@[simp] theorem setFrm_free (c : Chip) (k x) : (c.setFrm k x).free = c.free := rfl
@[simp] theorem setFrm_arch (c : Chip) (k x) : (c.setFrm k x).arch = c.arch := rfl
@[simp] theorem setFrm_core (c : Chip) (k x) : (c.setFrm k x).core = c.core := rfl
@[simp] theorem setFrm_host (c : Chip) (k x) : (c.setFrm k x).host = c.host := rfl
@[simp] theorem setFrm_buf (c : Chip) (k x) : (c.setFrm k x).buf = c.buf := rfl
@[simp] theorem setFrm_afe (c : Chip) (k x) : (c.setFrm k x).afe = c.afe := rfl
@[simp] theorem setFrm_servo (c : Chip) (k x) : (c.setFrm k x).servo = c.servo := rfl
@[simp] theorem setFrm_sup (c : Chip) (k x) : (c.setFrm k x).sup = c.sup := rfl
@[simp] theorem setFrm_path_lanes (c : Chip) (k x) : (c.setFrm k x).path.lanes = c.path.lanes := rfl
@[simp] theorem setFrm_path_wchs (c : Chip) (k x) : (c.setFrm k x).path.wchs = c.path.wchs := rfl
@[simp] theorem setFrm_path_map (c : Chip) (k x) : (c.setFrm k x).path.map = c.path.map := rfl
@[simp] theorem setFrm_path_accs (c : Chip) (k x) : (c.setFrm k x).path.accs = c.path.accs := rfl
@[simp] theorem setFrm_path_power (c : Chip) (k x) : (c.setFrm k x).path.power = c.path.power := rfl
@[simp] theorem frm_setFrm (c : Chip) (k x) : (c.setFrm k x).frm k = x := by simp [Chip.frm, Chip.setFrm]
theorem frm_setFrm_other (c : Chip) (k i x) (h : i ≠ k) : (c.setFrm k x).frm i = c.frm i := by
  simp [Chip.frm, Chip.setFrm, Cells.get_put_other _ _ _ _ _ h]
@[simp] theorem setWch_regs (c : Chip) (k x) : (c.setWch k x).regs = c.regs := rfl
@[simp] theorem setWch_free (c : Chip) (k x) : (c.setWch k x).free = c.free := rfl
@[simp] theorem setWch_arch (c : Chip) (k x) : (c.setWch k x).arch = c.arch := rfl
@[simp] theorem setWch_core (c : Chip) (k x) : (c.setWch k x).core = c.core := rfl
@[simp] theorem setWch_host (c : Chip) (k x) : (c.setWch k x).host = c.host := rfl
@[simp] theorem setWch_buf (c : Chip) (k x) : (c.setWch k x).buf = c.buf := rfl
@[simp] theorem setWch_afe (c : Chip) (k x) : (c.setWch k x).afe = c.afe := rfl
@[simp] theorem setWch_servo (c : Chip) (k x) : (c.setWch k x).servo = c.servo := rfl
@[simp] theorem setWch_sup (c : Chip) (k x) : (c.setWch k x).sup = c.sup := rfl
@[simp] theorem setWch_path_lanes (c : Chip) (k x) : (c.setWch k x).path.lanes = c.path.lanes := rfl
@[simp] theorem setWch_path_frms (c : Chip) (k x) : (c.setWch k x).path.frms = c.path.frms := rfl
@[simp] theorem setWch_path_map (c : Chip) (k x) : (c.setWch k x).path.map = c.path.map := rfl
@[simp] theorem setWch_path_accs (c : Chip) (k x) : (c.setWch k x).path.accs = c.path.accs := rfl
@[simp] theorem setWch_path_power (c : Chip) (k x) : (c.setWch k x).path.power = c.path.power := rfl
@[simp] theorem wch_setWch (c : Chip) (k x) : (c.setWch k x).wch k = x := by simp [Chip.wch, Chip.setWch]
theorem wch_setWch_other (c : Chip) (k i x) (h : i ≠ k) : (c.setWch k x).wch i = c.wch i := by
  simp [Chip.wch, Chip.setWch, Cells.get_put_other _ _ _ _ _ h]
@[simp] theorem setAcc_regs (c : Chip) (k x) : (c.setAcc k x).regs = c.regs := rfl
@[simp] theorem setAcc_free (c : Chip) (k x) : (c.setAcc k x).free = c.free := rfl
@[simp] theorem setAcc_arch (c : Chip) (k x) : (c.setAcc k x).arch = c.arch := rfl
@[simp] theorem setAcc_core (c : Chip) (k x) : (c.setAcc k x).core = c.core := rfl
@[simp] theorem setAcc_host (c : Chip) (k x) : (c.setAcc k x).host = c.host := rfl
@[simp] theorem setAcc_buf (c : Chip) (k x) : (c.setAcc k x).buf = c.buf := rfl
@[simp] theorem setAcc_afe (c : Chip) (k x) : (c.setAcc k x).afe = c.afe := rfl
@[simp] theorem setAcc_servo (c : Chip) (k x) : (c.setAcc k x).servo = c.servo := rfl
@[simp] theorem setAcc_sup (c : Chip) (k x) : (c.setAcc k x).sup = c.sup := rfl
@[simp] theorem setAcc_path_lanes (c : Chip) (k x) : (c.setAcc k x).path.lanes = c.path.lanes := rfl
@[simp] theorem setAcc_path_frms (c : Chip) (k x) : (c.setAcc k x).path.frms = c.path.frms := rfl
@[simp] theorem setAcc_path_wchs (c : Chip) (k x) : (c.setAcc k x).path.wchs = c.path.wchs := rfl
@[simp] theorem setAcc_path_map (c : Chip) (k x) : (c.setAcc k x).path.map = c.path.map := rfl
@[simp] theorem setAcc_path_power (c : Chip) (k x) : (c.setAcc k x).path.power = c.path.power := rfl
@[simp] theorem accOf_setAcc (c : Chip) (k x) : (c.setAcc k x).accOf k = x := by simp [Chip.accOf, Chip.setAcc]
theorem accOf_setAcc_other (c : Chip) (k i x) (h : i ≠ k) : (c.setAcc k x).accOf i = c.accOf i := by
  simp [Chip.accOf, Chip.setAcc, Cells.get_put_other _ _ _ _ _ h]
@[simp] theorem setPower_regs (c : Chip) (k x) : (c.setPower k x).regs = c.regs := rfl
@[simp] theorem setPower_free (c : Chip) (k x) : (c.setPower k x).free = c.free := rfl
@[simp] theorem setPower_arch (c : Chip) (k x) : (c.setPower k x).arch = c.arch := rfl
@[simp] theorem setPower_core (c : Chip) (k x) : (c.setPower k x).core = c.core := rfl
@[simp] theorem setPower_host (c : Chip) (k x) : (c.setPower k x).host = c.host := rfl
@[simp] theorem setPower_buf (c : Chip) (k x) : (c.setPower k x).buf = c.buf := rfl
@[simp] theorem setPower_afe (c : Chip) (k x) : (c.setPower k x).afe = c.afe := rfl
@[simp] theorem setPower_servo (c : Chip) (k x) : (c.setPower k x).servo = c.servo := rfl
@[simp] theorem setPower_sup (c : Chip) (k x) : (c.setPower k x).sup = c.sup := rfl
@[simp] theorem setPower_path_lanes (c : Chip) (k x) : (c.setPower k x).path.lanes = c.path.lanes := rfl
@[simp] theorem setPower_path_frms (c : Chip) (k x) : (c.setPower k x).path.frms = c.path.frms := rfl
@[simp] theorem setPower_path_wchs (c : Chip) (k x) : (c.setPower k x).path.wchs = c.path.wchs := rfl
@[simp] theorem setPower_path_map (c : Chip) (k x) : (c.setPower k x).path.map = c.path.map := rfl
@[simp] theorem setPower_path_accs (c : Chip) (k x) : (c.setPower k x).path.accs = c.path.accs := rfl
@[simp] theorem power_setPower (c : Chip) (k x) : (c.setPower k x).power k = x := by simp [Chip.power, Chip.setPower]
theorem power_setPower_other (c : Chip) (k i x) (h : i ≠ k) : (c.setPower k x).power i = c.power i := by
  simp [Chip.power, Chip.setPower, Cells.get_put_other _ _ _ _ _ h]
@[simp] theorem setTolek_regs (c : Chip) (k x) : (c.setTolek k x).regs = c.regs := rfl
@[simp] theorem setTolek_free (c : Chip) (k x) : (c.setTolek k x).free = c.free := rfl
@[simp] theorem setTolek_arch (c : Chip) (k x) : (c.setTolek k x).arch = c.arch := rfl
@[simp] theorem setTolek_core (c : Chip) (k x) : (c.setTolek k x).core = c.core := rfl
@[simp] theorem setTolek_host (c : Chip) (k x) : (c.setTolek k x).host = c.host := rfl
@[simp] theorem setTolek_buf (c : Chip) (k x) : (c.setTolek k x).buf = c.buf := rfl
@[simp] theorem setTolek_afe (c : Chip) (k x) : (c.setTolek k x).afe = c.afe := rfl
@[simp] theorem setTolek_path (c : Chip) (k x) : (c.setTolek k x).path = c.path := rfl
@[simp] theorem setTolek_sup (c : Chip) (k x) : (c.setTolek k x).sup = c.sup := rfl
@[simp] theorem setTolek_servo_pairs (c : Chip) (k x) : (c.setTolek k x).servo.pairs = c.servo.pairs := rfl
@[simp] theorem setTolek_servo_loops (c : Chip) (k x) : (c.setTolek k x).servo.loops = c.servo.loops := rfl
@[simp] theorem setTolek_servo_motions (c : Chip) (k x) : (c.setTolek k x).servo.motions = c.servo.motions := rfl
@[simp] theorem setTolek_servo_seqs (c : Chip) (k x) : (c.setTolek k x).servo.seqs = c.servo.seqs := rfl
@[simp] theorem setTolek_servo_vols (c : Chip) (k x) : (c.setTolek k x).servo.vols = c.servo.vols := rfl
@[simp] theorem setTolek_servo_stations (c : Chip) (k x) : (c.setTolek k x).servo.stations = c.servo.stations := rfl
@[simp] theorem setTolek_servo_spns (c : Chip) (k x) : (c.setTolek k x).servo.spns = c.servo.spns := rfl
@[simp] theorem setTolek_servo_sleds (c : Chip) (k x) : (c.setTolek k x).servo.sleds = c.servo.sleds := rfl
@[simp] theorem setTolek_servo_lpLatch (c : Chip) (k x) : (c.setTolek k x).servo.lpLatch = c.servo.lpLatch := rfl
@[simp] theorem setTolek_servo_lpTimes (c : Chip) (k x) : (c.setTolek k x).servo.lpTimes = c.servo.lpTimes := rfl
@[simp] theorem setTolek_servo_lpOut (c : Chip) (k x) : (c.setTolek k x).servo.lpOut = c.servo.lpOut := rfl
@[simp] theorem tolek_setTolek (c : Chip) (k x) : (c.setTolek k x).tolek k = x := by simp [Chip.tolek, Chip.setTolek]
theorem tolek_setTolek_other (c : Chip) (k i x) (h : i ≠ k) : (c.setTolek k x).tolek i = c.tolek i := by
  simp [Chip.tolek, Chip.setTolek, Cells.get_put_other _ _ _ _ _ h]
@[simp] theorem setPair_regs (c : Chip) (k x) : (c.setPair k x).regs = c.regs := rfl
@[simp] theorem setPair_free (c : Chip) (k x) : (c.setPair k x).free = c.free := rfl
@[simp] theorem setPair_arch (c : Chip) (k x) : (c.setPair k x).arch = c.arch := rfl
@[simp] theorem setPair_core (c : Chip) (k x) : (c.setPair k x).core = c.core := rfl
@[simp] theorem setPair_host (c : Chip) (k x) : (c.setPair k x).host = c.host := rfl
@[simp] theorem setPair_buf (c : Chip) (k x) : (c.setPair k x).buf = c.buf := rfl
@[simp] theorem setPair_afe (c : Chip) (k x) : (c.setPair k x).afe = c.afe := rfl
@[simp] theorem setPair_path (c : Chip) (k x) : (c.setPair k x).path = c.path := rfl
@[simp] theorem setPair_sup (c : Chip) (k x) : (c.setPair k x).sup = c.sup := rfl
@[simp] theorem setPair_servo_engines (c : Chip) (k x) : (c.setPair k x).servo.engines = c.servo.engines := rfl
@[simp] theorem setPair_servo_loops (c : Chip) (k x) : (c.setPair k x).servo.loops = c.servo.loops := rfl
@[simp] theorem setPair_servo_motions (c : Chip) (k x) : (c.setPair k x).servo.motions = c.servo.motions := rfl
@[simp] theorem setPair_servo_seqs (c : Chip) (k x) : (c.setPair k x).servo.seqs = c.servo.seqs := rfl
@[simp] theorem setPair_servo_vols (c : Chip) (k x) : (c.setPair k x).servo.vols = c.servo.vols := rfl
@[simp] theorem setPair_servo_stations (c : Chip) (k x) : (c.setPair k x).servo.stations = c.servo.stations := rfl
@[simp] theorem setPair_servo_spns (c : Chip) (k x) : (c.setPair k x).servo.spns = c.servo.spns := rfl
@[simp] theorem setPair_servo_sleds (c : Chip) (k x) : (c.setPair k x).servo.sleds = c.servo.sleds := rfl
@[simp] theorem setPair_servo_lpLatch (c : Chip) (k x) : (c.setPair k x).servo.lpLatch = c.servo.lpLatch := rfl
@[simp] theorem setPair_servo_lpTimes (c : Chip) (k x) : (c.setPair k x).servo.lpTimes = c.servo.lpTimes := rfl
@[simp] theorem setPair_servo_lpOut (c : Chip) (k x) : (c.setPair k x).servo.lpOut = c.servo.lpOut := rfl
@[simp] theorem pair_setPair (c : Chip) (k x) : (c.setPair k x).pair k = x := by simp [Chip.pair, Chip.setPair]
theorem pair_setPair_other (c : Chip) (k i x) (h : i ≠ k) : (c.setPair k x).pair i = c.pair i := by
  simp [Chip.pair, Chip.setPair, Cells.get_put_other _ _ _ _ _ h]
@[simp] theorem setLoop_regs (c : Chip) (k x) : (c.setLoop k x).regs = c.regs := rfl
@[simp] theorem setLoop_free (c : Chip) (k x) : (c.setLoop k x).free = c.free := rfl
@[simp] theorem setLoop_arch (c : Chip) (k x) : (c.setLoop k x).arch = c.arch := rfl
@[simp] theorem setLoop_core (c : Chip) (k x) : (c.setLoop k x).core = c.core := rfl
@[simp] theorem setLoop_host (c : Chip) (k x) : (c.setLoop k x).host = c.host := rfl
@[simp] theorem setLoop_buf (c : Chip) (k x) : (c.setLoop k x).buf = c.buf := rfl
@[simp] theorem setLoop_afe (c : Chip) (k x) : (c.setLoop k x).afe = c.afe := rfl
@[simp] theorem setLoop_path (c : Chip) (k x) : (c.setLoop k x).path = c.path := rfl
@[simp] theorem setLoop_sup (c : Chip) (k x) : (c.setLoop k x).sup = c.sup := rfl
@[simp] theorem setLoop_servo_engines (c : Chip) (k x) : (c.setLoop k x).servo.engines = c.servo.engines := rfl
@[simp] theorem setLoop_servo_pairs (c : Chip) (k x) : (c.setLoop k x).servo.pairs = c.servo.pairs := rfl
@[simp] theorem setLoop_servo_motions (c : Chip) (k x) : (c.setLoop k x).servo.motions = c.servo.motions := rfl
@[simp] theorem setLoop_servo_seqs (c : Chip) (k x) : (c.setLoop k x).servo.seqs = c.servo.seqs := rfl
@[simp] theorem setLoop_servo_vols (c : Chip) (k x) : (c.setLoop k x).servo.vols = c.servo.vols := rfl
@[simp] theorem setLoop_servo_stations (c : Chip) (k x) : (c.setLoop k x).servo.stations = c.servo.stations := rfl
@[simp] theorem setLoop_servo_spns (c : Chip) (k x) : (c.setLoop k x).servo.spns = c.servo.spns := rfl
@[simp] theorem setLoop_servo_sleds (c : Chip) (k x) : (c.setLoop k x).servo.sleds = c.servo.sleds := rfl
@[simp] theorem setLoop_servo_lpLatch (c : Chip) (k x) : (c.setLoop k x).servo.lpLatch = c.servo.lpLatch := rfl
@[simp] theorem setLoop_servo_lpTimes (c : Chip) (k x) : (c.setLoop k x).servo.lpTimes = c.servo.lpTimes := rfl
@[simp] theorem setLoop_servo_lpOut (c : Chip) (k x) : (c.setLoop k x).servo.lpOut = c.servo.lpOut := rfl
@[simp] theorem loop_setLoop (c : Chip) (k x) : (c.setLoop k x).loop k = x := by simp [Chip.loop, Chip.setLoop]
theorem loop_setLoop_other (c : Chip) (k i x) (h : i ≠ k) : (c.setLoop k x).loop i = c.loop i := by
  simp [Chip.loop, Chip.setLoop, Cells.get_put_other _ _ _ _ _ h]
@[simp] theorem setMotion_regs (c : Chip) (k x) : (c.setMotion k x).regs = c.regs := rfl
@[simp] theorem setMotion_free (c : Chip) (k x) : (c.setMotion k x).free = c.free := rfl
@[simp] theorem setMotion_arch (c : Chip) (k x) : (c.setMotion k x).arch = c.arch := rfl
@[simp] theorem setMotion_core (c : Chip) (k x) : (c.setMotion k x).core = c.core := rfl
@[simp] theorem setMotion_host (c : Chip) (k x) : (c.setMotion k x).host = c.host := rfl
@[simp] theorem setMotion_buf (c : Chip) (k x) : (c.setMotion k x).buf = c.buf := rfl
@[simp] theorem setMotion_afe (c : Chip) (k x) : (c.setMotion k x).afe = c.afe := rfl
@[simp] theorem setMotion_path (c : Chip) (k x) : (c.setMotion k x).path = c.path := rfl
@[simp] theorem setMotion_sup (c : Chip) (k x) : (c.setMotion k x).sup = c.sup := rfl
@[simp] theorem setMotion_servo_engines (c : Chip) (k x) : (c.setMotion k x).servo.engines = c.servo.engines := rfl
@[simp] theorem setMotion_servo_pairs (c : Chip) (k x) : (c.setMotion k x).servo.pairs = c.servo.pairs := rfl
@[simp] theorem setMotion_servo_loops (c : Chip) (k x) : (c.setMotion k x).servo.loops = c.servo.loops := rfl
@[simp] theorem setMotion_servo_seqs (c : Chip) (k x) : (c.setMotion k x).servo.seqs = c.servo.seqs := rfl
@[simp] theorem setMotion_servo_vols (c : Chip) (k x) : (c.setMotion k x).servo.vols = c.servo.vols := rfl
@[simp] theorem setMotion_servo_stations (c : Chip) (k x) : (c.setMotion k x).servo.stations = c.servo.stations := rfl
@[simp] theorem setMotion_servo_spns (c : Chip) (k x) : (c.setMotion k x).servo.spns = c.servo.spns := rfl
@[simp] theorem setMotion_servo_sleds (c : Chip) (k x) : (c.setMotion k x).servo.sleds = c.servo.sleds := rfl
@[simp] theorem setMotion_servo_lpLatch (c : Chip) (k x) : (c.setMotion k x).servo.lpLatch = c.servo.lpLatch := rfl
@[simp] theorem setMotion_servo_lpTimes (c : Chip) (k x) : (c.setMotion k x).servo.lpTimes = c.servo.lpTimes := rfl
@[simp] theorem setMotion_servo_lpOut (c : Chip) (k x) : (c.setMotion k x).servo.lpOut = c.servo.lpOut := rfl
@[simp] theorem motion_setMotion (c : Chip) (k x) : (c.setMotion k x).motion k = x := by simp [Chip.motion, Chip.setMotion]
theorem motion_setMotion_other (c : Chip) (k i x) (h : i ≠ k) : (c.setMotion k x).motion i = c.motion i := by
  simp [Chip.motion, Chip.setMotion, Cells.get_put_other _ _ _ _ _ h]
@[simp] theorem setSeqr_regs (c : Chip) (k x) : (c.setSeqr k x).regs = c.regs := rfl
@[simp] theorem setSeqr_free (c : Chip) (k x) : (c.setSeqr k x).free = c.free := rfl
@[simp] theorem setSeqr_arch (c : Chip) (k x) : (c.setSeqr k x).arch = c.arch := rfl
@[simp] theorem setSeqr_core (c : Chip) (k x) : (c.setSeqr k x).core = c.core := rfl
@[simp] theorem setSeqr_host (c : Chip) (k x) : (c.setSeqr k x).host = c.host := rfl
@[simp] theorem setSeqr_buf (c : Chip) (k x) : (c.setSeqr k x).buf = c.buf := rfl
@[simp] theorem setSeqr_afe (c : Chip) (k x) : (c.setSeqr k x).afe = c.afe := rfl
@[simp] theorem setSeqr_path (c : Chip) (k x) : (c.setSeqr k x).path = c.path := rfl
@[simp] theorem setSeqr_sup (c : Chip) (k x) : (c.setSeqr k x).sup = c.sup := rfl
@[simp] theorem setSeqr_servo_engines (c : Chip) (k x) : (c.setSeqr k x).servo.engines = c.servo.engines := rfl
@[simp] theorem setSeqr_servo_pairs (c : Chip) (k x) : (c.setSeqr k x).servo.pairs = c.servo.pairs := rfl
@[simp] theorem setSeqr_servo_loops (c : Chip) (k x) : (c.setSeqr k x).servo.loops = c.servo.loops := rfl
@[simp] theorem setSeqr_servo_motions (c : Chip) (k x) : (c.setSeqr k x).servo.motions = c.servo.motions := rfl
@[simp] theorem setSeqr_servo_vols (c : Chip) (k x) : (c.setSeqr k x).servo.vols = c.servo.vols := rfl
@[simp] theorem setSeqr_servo_stations (c : Chip) (k x) : (c.setSeqr k x).servo.stations = c.servo.stations := rfl
@[simp] theorem setSeqr_servo_spns (c : Chip) (k x) : (c.setSeqr k x).servo.spns = c.servo.spns := rfl
@[simp] theorem setSeqr_servo_sleds (c : Chip) (k x) : (c.setSeqr k x).servo.sleds = c.servo.sleds := rfl
@[simp] theorem setSeqr_servo_lpLatch (c : Chip) (k x) : (c.setSeqr k x).servo.lpLatch = c.servo.lpLatch := rfl
@[simp] theorem setSeqr_servo_lpTimes (c : Chip) (k x) : (c.setSeqr k x).servo.lpTimes = c.servo.lpTimes := rfl
@[simp] theorem setSeqr_servo_lpOut (c : Chip) (k x) : (c.setSeqr k x).servo.lpOut = c.servo.lpOut := rfl
@[simp] theorem seqr_setSeqr (c : Chip) (k x) : (c.setSeqr k x).seqr k = x := by simp [Chip.seqr, Chip.setSeqr]
theorem seqr_setSeqr_other (c : Chip) (k i x) (h : i ≠ k) : (c.setSeqr k x).seqr i = c.seqr i := by
  simp [Chip.seqr, Chip.setSeqr, Cells.get_put_other _ _ _ _ _ h]
@[simp] theorem setVol_regs (c : Chip) (k x) : (c.setVol k x).regs = c.regs := rfl
@[simp] theorem setVol_free (c : Chip) (k x) : (c.setVol k x).free = c.free := rfl
@[simp] theorem setVol_arch (c : Chip) (k x) : (c.setVol k x).arch = c.arch := rfl
@[simp] theorem setVol_core (c : Chip) (k x) : (c.setVol k x).core = c.core := rfl
@[simp] theorem setVol_host (c : Chip) (k x) : (c.setVol k x).host = c.host := rfl
@[simp] theorem setVol_buf (c : Chip) (k x) : (c.setVol k x).buf = c.buf := rfl
@[simp] theorem setVol_afe (c : Chip) (k x) : (c.setVol k x).afe = c.afe := rfl
@[simp] theorem setVol_path (c : Chip) (k x) : (c.setVol k x).path = c.path := rfl
@[simp] theorem setVol_sup (c : Chip) (k x) : (c.setVol k x).sup = c.sup := rfl
@[simp] theorem setVol_servo_engines (c : Chip) (k x) : (c.setVol k x).servo.engines = c.servo.engines := rfl
@[simp] theorem setVol_servo_pairs (c : Chip) (k x) : (c.setVol k x).servo.pairs = c.servo.pairs := rfl
@[simp] theorem setVol_servo_loops (c : Chip) (k x) : (c.setVol k x).servo.loops = c.servo.loops := rfl
@[simp] theorem setVol_servo_motions (c : Chip) (k x) : (c.setVol k x).servo.motions = c.servo.motions := rfl
@[simp] theorem setVol_servo_seqs (c : Chip) (k x) : (c.setVol k x).servo.seqs = c.servo.seqs := rfl
@[simp] theorem setVol_servo_stations (c : Chip) (k x) : (c.setVol k x).servo.stations = c.servo.stations := rfl
@[simp] theorem setVol_servo_spns (c : Chip) (k x) : (c.setVol k x).servo.spns = c.servo.spns := rfl
@[simp] theorem setVol_servo_sleds (c : Chip) (k x) : (c.setVol k x).servo.sleds = c.servo.sleds := rfl
@[simp] theorem setVol_servo_lpLatch (c : Chip) (k x) : (c.setVol k x).servo.lpLatch = c.servo.lpLatch := rfl
@[simp] theorem setVol_servo_lpTimes (c : Chip) (k x) : (c.setVol k x).servo.lpTimes = c.servo.lpTimes := rfl
@[simp] theorem setVol_servo_lpOut (c : Chip) (k x) : (c.setVol k x).servo.lpOut = c.servo.lpOut := rfl
@[simp] theorem vol_setVol (c : Chip) (k x) : (c.setVol k x).vol k = x := by simp [Chip.vol, Chip.setVol]
theorem vol_setVol_other (c : Chip) (k i x) (h : i ≠ k) : (c.setVol k x).vol i = c.vol i := by
  simp [Chip.vol, Chip.setVol, Cells.get_put_other _ _ _ _ _ h]
@[simp] theorem setStn_regs (c : Chip) (k x) : (c.setStn k x).regs = c.regs := rfl
@[simp] theorem setStn_free (c : Chip) (k x) : (c.setStn k x).free = c.free := rfl
@[simp] theorem setStn_arch (c : Chip) (k x) : (c.setStn k x).arch = c.arch := rfl
@[simp] theorem setStn_core (c : Chip) (k x) : (c.setStn k x).core = c.core := rfl
@[simp] theorem setStn_host (c : Chip) (k x) : (c.setStn k x).host = c.host := rfl
@[simp] theorem setStn_buf (c : Chip) (k x) : (c.setStn k x).buf = c.buf := rfl
@[simp] theorem setStn_afe (c : Chip) (k x) : (c.setStn k x).afe = c.afe := rfl
@[simp] theorem setStn_path (c : Chip) (k x) : (c.setStn k x).path = c.path := rfl
@[simp] theorem setStn_sup (c : Chip) (k x) : (c.setStn k x).sup = c.sup := rfl
@[simp] theorem setStn_servo_engines (c : Chip) (k x) : (c.setStn k x).servo.engines = c.servo.engines := rfl
@[simp] theorem setStn_servo_pairs (c : Chip) (k x) : (c.setStn k x).servo.pairs = c.servo.pairs := rfl
@[simp] theorem setStn_servo_loops (c : Chip) (k x) : (c.setStn k x).servo.loops = c.servo.loops := rfl
@[simp] theorem setStn_servo_motions (c : Chip) (k x) : (c.setStn k x).servo.motions = c.servo.motions := rfl
@[simp] theorem setStn_servo_seqs (c : Chip) (k x) : (c.setStn k x).servo.seqs = c.servo.seqs := rfl
@[simp] theorem setStn_servo_vols (c : Chip) (k x) : (c.setStn k x).servo.vols = c.servo.vols := rfl
@[simp] theorem setStn_servo_spns (c : Chip) (k x) : (c.setStn k x).servo.spns = c.servo.spns := rfl
@[simp] theorem setStn_servo_sleds (c : Chip) (k x) : (c.setStn k x).servo.sleds = c.servo.sleds := rfl
@[simp] theorem setStn_servo_lpLatch (c : Chip) (k x) : (c.setStn k x).servo.lpLatch = c.servo.lpLatch := rfl
@[simp] theorem setStn_servo_lpTimes (c : Chip) (k x) : (c.setStn k x).servo.lpTimes = c.servo.lpTimes := rfl
@[simp] theorem setStn_servo_lpOut (c : Chip) (k x) : (c.setStn k x).servo.lpOut = c.servo.lpOut := rfl
@[simp] theorem stn_setStn (c : Chip) (k x) : (c.setStn k x).stn k = x := by simp [Chip.stn, Chip.setStn]
theorem stn_setStn_other (c : Chip) (k i x) (h : i ≠ k) : (c.setStn k x).stn i = c.stn i := by
  simp [Chip.stn, Chip.setStn, Cells.get_put_other _ _ _ _ _ h]
@[simp] theorem setSpn_regs (c : Chip) (k x) : (c.setSpn k x).regs = c.regs := rfl
@[simp] theorem setSpn_free (c : Chip) (k x) : (c.setSpn k x).free = c.free := rfl
@[simp] theorem setSpn_arch (c : Chip) (k x) : (c.setSpn k x).arch = c.arch := rfl
@[simp] theorem setSpn_core (c : Chip) (k x) : (c.setSpn k x).core = c.core := rfl
@[simp] theorem setSpn_host (c : Chip) (k x) : (c.setSpn k x).host = c.host := rfl
@[simp] theorem setSpn_buf (c : Chip) (k x) : (c.setSpn k x).buf = c.buf := rfl
@[simp] theorem setSpn_afe (c : Chip) (k x) : (c.setSpn k x).afe = c.afe := rfl
@[simp] theorem setSpn_path (c : Chip) (k x) : (c.setSpn k x).path = c.path := rfl
@[simp] theorem setSpn_sup (c : Chip) (k x) : (c.setSpn k x).sup = c.sup := rfl
@[simp] theorem setSpn_servo_engines (c : Chip) (k x) : (c.setSpn k x).servo.engines = c.servo.engines := rfl
@[simp] theorem setSpn_servo_pairs (c : Chip) (k x) : (c.setSpn k x).servo.pairs = c.servo.pairs := rfl
@[simp] theorem setSpn_servo_loops (c : Chip) (k x) : (c.setSpn k x).servo.loops = c.servo.loops := rfl
@[simp] theorem setSpn_servo_motions (c : Chip) (k x) : (c.setSpn k x).servo.motions = c.servo.motions := rfl
@[simp] theorem setSpn_servo_seqs (c : Chip) (k x) : (c.setSpn k x).servo.seqs = c.servo.seqs := rfl
@[simp] theorem setSpn_servo_vols (c : Chip) (k x) : (c.setSpn k x).servo.vols = c.servo.vols := rfl
@[simp] theorem setSpn_servo_stations (c : Chip) (k x) : (c.setSpn k x).servo.stations = c.servo.stations := rfl
@[simp] theorem setSpn_servo_sleds (c : Chip) (k x) : (c.setSpn k x).servo.sleds = c.servo.sleds := rfl
@[simp] theorem setSpn_servo_lpLatch (c : Chip) (k x) : (c.setSpn k x).servo.lpLatch = c.servo.lpLatch := rfl
@[simp] theorem setSpn_servo_lpTimes (c : Chip) (k x) : (c.setSpn k x).servo.lpTimes = c.servo.lpTimes := rfl
@[simp] theorem setSpn_servo_lpOut (c : Chip) (k x) : (c.setSpn k x).servo.lpOut = c.servo.lpOut := rfl
@[simp] theorem spn_setSpn (c : Chip) (k x) : (c.setSpn k x).spn k = x := by simp [Chip.spn, Chip.setSpn]
theorem spn_setSpn_other (c : Chip) (k i x) (h : i ≠ k) : (c.setSpn k x).spn i = c.spn i := by
  simp [Chip.spn, Chip.setSpn, Cells.get_put_other _ _ _ _ _ h]
@[simp] theorem setSled_regs (c : Chip) (k x) : (c.setSled k x).regs = c.regs := rfl
@[simp] theorem setSled_free (c : Chip) (k x) : (c.setSled k x).free = c.free := rfl
@[simp] theorem setSled_arch (c : Chip) (k x) : (c.setSled k x).arch = c.arch := rfl
@[simp] theorem setSled_core (c : Chip) (k x) : (c.setSled k x).core = c.core := rfl
@[simp] theorem setSled_host (c : Chip) (k x) : (c.setSled k x).host = c.host := rfl
@[simp] theorem setSled_buf (c : Chip) (k x) : (c.setSled k x).buf = c.buf := rfl
@[simp] theorem setSled_afe (c : Chip) (k x) : (c.setSled k x).afe = c.afe := rfl
@[simp] theorem setSled_path (c : Chip) (k x) : (c.setSled k x).path = c.path := rfl
@[simp] theorem setSled_sup (c : Chip) (k x) : (c.setSled k x).sup = c.sup := rfl
@[simp] theorem setSled_servo_engines (c : Chip) (k x) : (c.setSled k x).servo.engines = c.servo.engines := rfl
@[simp] theorem setSled_servo_pairs (c : Chip) (k x) : (c.setSled k x).servo.pairs = c.servo.pairs := rfl
@[simp] theorem setSled_servo_loops (c : Chip) (k x) : (c.setSled k x).servo.loops = c.servo.loops := rfl
@[simp] theorem setSled_servo_motions (c : Chip) (k x) : (c.setSled k x).servo.motions = c.servo.motions := rfl
@[simp] theorem setSled_servo_seqs (c : Chip) (k x) : (c.setSled k x).servo.seqs = c.servo.seqs := rfl
@[simp] theorem setSled_servo_vols (c : Chip) (k x) : (c.setSled k x).servo.vols = c.servo.vols := rfl
@[simp] theorem setSled_servo_stations (c : Chip) (k x) : (c.setSled k x).servo.stations = c.servo.stations := rfl
@[simp] theorem setSled_servo_spns (c : Chip) (k x) : (c.setSled k x).servo.spns = c.servo.spns := rfl
@[simp] theorem setSled_servo_lpLatch (c : Chip) (k x) : (c.setSled k x).servo.lpLatch = c.servo.lpLatch := rfl
@[simp] theorem setSled_servo_lpTimes (c : Chip) (k x) : (c.setSled k x).servo.lpTimes = c.servo.lpTimes := rfl
@[simp] theorem setSled_servo_lpOut (c : Chip) (k x) : (c.setSled k x).servo.lpOut = c.servo.lpOut := rfl
@[simp] theorem sled_setSled (c : Chip) (k x) : (c.setSled k x).sled k = x := by simp [Chip.sled, Chip.setSled]
theorem sled_setSled_other (c : Chip) (k i x) (h : i ≠ k) : (c.setSled k x).sled i = c.sled i := by
  simp [Chip.sled, Chip.setSled, Cells.get_put_other _ _ _ _ _ h]
@[simp] theorem setUnitMark_regs (c : Chip) (k x) : (c.setUnitMark k x).regs = c.regs := rfl
@[simp] theorem setUnitMark_free (c : Chip) (k x) : (c.setUnitMark k x).free = c.free := rfl
@[simp] theorem setUnitMark_arch (c : Chip) (k x) : (c.setUnitMark k x).arch = c.arch := rfl
@[simp] theorem setUnitMark_core (c : Chip) (k x) : (c.setUnitMark k x).core = c.core := rfl
@[simp] theorem setUnitMark_host (c : Chip) (k x) : (c.setUnitMark k x).host = c.host := rfl
@[simp] theorem setUnitMark_afe (c : Chip) (k x) : (c.setUnitMark k x).afe = c.afe := rfl
@[simp] theorem setUnitMark_path (c : Chip) (k x) : (c.setUnitMark k x).path = c.path := rfl
@[simp] theorem setUnitMark_servo (c : Chip) (k x) : (c.setUnitMark k x).servo = c.servo := rfl
@[simp] theorem setUnitMark_sup (c : Chip) (k x) : (c.setUnitMark k x).sup = c.sup := rfl
@[simp] theorem setUnitMark_buf_sets (c : Chip) (k x) : (c.setUnitMark k x).buf.sets = c.buf.sets := rfl
@[simp] theorem setUnitMark_buf_victims (c : Chip) (k x) : (c.setUnitMark k x).buf.victims = c.buf.victims := rfl
@[simp] theorem setUnitMark_buf_evicts (c : Chip) (k x) : (c.setUnitMark k x).buf.evicts = c.buf.evicts := rfl
@[simp] theorem setUnitMark_buf_misses (c : Chip) (k x) : (c.setUnitMark k x).buf.misses = c.buf.misses := rfl
@[simp] theorem setUnitMark_buf_allocWaits (c : Chip) (k x) : (c.setUnitMark k x).buf.allocWaits = c.buf.allocWaits := rfl
@[simp] theorem setUnitMark_buf_mem (c : Chip) (k x) : (c.setUnitMark k x).buf.mem = c.buf.mem := rfl
@[simp] theorem setUnitMark_buf_initRanges (c : Chip) (k x) : (c.setUnitMark k x).buf.initRanges = c.buf.initRanges := rfl
@[simp] theorem setUnitMark_buf_scrub (c : Chip) (k x) : (c.setUnitMark k x).buf.scrub = c.buf.scrub := rfl
@[simp] theorem setUnitMark_buf_staged (c : Chip) (k x) : (c.setUnitMark k x).buf.staged = c.buf.staged := rfl
@[simp] theorem setUnitMark_buf_nextSeq (c : Chip) (k x) : (c.setUnitMark k x).buf.nextSeq = c.buf.nextSeq := rfl
@[simp] theorem setUnitMark_buf_slotsUsed (c : Chip) (k x) : (c.setUnitMark k x).buf.slotsUsed = c.buf.slotsUsed := rfl
@[simp] theorem setUnitMark_buf_streams (c : Chip) (k x) : (c.setUnitMark k x).buf.streams = c.buf.streams := rfl
@[simp] theorem setUnitMark_buf_store (c : Chip) (k x) : (c.setUnitMark k x).buf.store = c.buf.store := rfl
@[simp] theorem setUnitMark_buf_fills (c : Chip) (k x) : (c.setUnitMark k x).buf.fills = c.buf.fills := rfl
@[simp] theorem setUnitMark_buf_drains (c : Chip) (k x) : (c.setUnitMark k x).buf.drains = c.buf.drains := rfl
@[simp] theorem setUnitMark_buf_cutSeq (c : Chip) (k x) : (c.setUnitMark k x).buf.cutSeq = c.buf.cutSeq := rfl
@[simp] theorem setUnitMark_buf_written (c : Chip) (k x) : (c.setUnitMark k x).buf.written = c.buf.written := rfl
@[simp] theorem setUnitMark_buf_lost (c : Chip) (k x) : (c.setUnitMark k x).buf.lost = c.buf.lost := rfl
@[simp] theorem setUnitMark_buf_lruClock (c : Chip) (k x) : (c.setUnitMark k x).buf.lruClock = c.buf.lruClock := rfl
@[simp] theorem unitMark_setUnitMark (c : Chip) (k x) : (c.setUnitMark k x).unitMark k = x := by simp [Chip.unitMark, Chip.setUnitMark]
theorem unitMark_setUnitMark_other (c : Chip) (k i x) (h : i ≠ k) : (c.setUnitMark k x).unitMark i = c.unitMark i := by
  simp [Chip.unitMark, Chip.setUnitMark, Cells.get_put_other _ _ _ _ _ h]
@[simp] theorem setRec_regs (c : Chip) (v l x) : (c.setRec v l x).regs = c.regs := rfl
@[simp] theorem setRec_free (c : Chip) (v l x) : (c.setRec v l x).free = c.free := rfl
@[simp] theorem setRec_arch (c : Chip) (v l x) : (c.setRec v l x).arch = c.arch := rfl
@[simp] theorem setRec_core (c : Chip) (v l x) : (c.setRec v l x).core = c.core := rfl
@[simp] theorem setRec_host (c : Chip) (v l x) : (c.setRec v l x).host = c.host := rfl
@[simp] theorem setRec_buf (c : Chip) (v l x) : (c.setRec v l x).buf = c.buf := rfl
@[simp] theorem setRec_afe (c : Chip) (v l x) : (c.setRec v l x).afe = c.afe := rfl
@[simp] theorem setRec_servo (c : Chip) (v l x) : (c.setRec v l x).servo = c.servo := rfl
@[simp] theorem setRec_sup (c : Chip) (v l x) : (c.setRec v l x).sup = c.sup := rfl
@[simp] theorem setRec_path_lanes (c : Chip) (v l x) : (c.setRec v l x).path.lanes = c.path.lanes := rfl
@[simp] theorem setRec_path_frms (c : Chip) (v l x) : (c.setRec v l x).path.frms = c.path.frms := rfl
@[simp] theorem setRec_path_wchs (c : Chip) (v l x) : (c.setRec v l x).path.wchs = c.path.wchs := rfl
@[simp] theorem setRec_path_accs (c : Chip) (v l x) : (c.setRec v l x).path.accs = c.path.accs := rfl
@[simp] theorem setRec_path_power (c : Chip) (v l x) : (c.setRec v l x).path.power = c.path.power := rfl
@[simp] theorem setThermal_regs (c : Chip) (x) : (c.setThermal x).regs = c.regs := rfl
@[simp] theorem setThermal_free (c : Chip) (x) : (c.setThermal x).free = c.free := rfl
@[simp] theorem setThermal_arch (c : Chip) (x) : (c.setThermal x).arch = c.arch := rfl
@[simp] theorem setThermal_core (c : Chip) (x) : (c.setThermal x).core = c.core := rfl
@[simp] theorem setThermal_host (c : Chip) (x) : (c.setThermal x).host = c.host := rfl
@[simp] theorem setThermal_buf (c : Chip) (x) : (c.setThermal x).buf = c.buf := rfl
@[simp] theorem setThermal_afe (c : Chip) (x) : (c.setThermal x).afe = c.afe := rfl
@[simp] theorem setThermal_path (c : Chip) (x) : (c.setThermal x).path = c.path := rfl
@[simp] theorem setThermal_servo (c : Chip) (x) : (c.setThermal x).servo = c.servo := rfl
@[simp] theorem setThermal_sup_wmH (c : Chip) (x) : (c.setThermal x).sup.wmH = c.sup.wmH := rfl
@[simp] theorem setThermal_sup_wmM (c : Chip) (x) : (c.setThermal x).sup.wmM = c.sup.wmM := rfl
@[simp] theorem setThermal_sup_beats (c : Chip) (x) : (c.setThermal x).sup.beats = c.sup.beats := rfl
@[simp] theorem setThermal_sup_wmLoad (c : Chip) (x) : (c.setThermal x).sup.wmLoad = c.sup.wmLoad := rfl
@[simp] theorem setThermal_sup_boot (c : Chip) (x) : (c.setThermal x).sup.boot = c.sup.boot := rfl
@[simp] theorem setThermal_sup_tap (c : Chip) (x) : (c.setThermal x).sup.tap = c.sup.tap := rfl
@[simp] theorem setSens_regs (c : Chip) (k x) : (c.setSens k x).regs = c.regs := rfl
@[simp] theorem setSens_free (c : Chip) (k x) : (c.setSens k x).free = c.free := rfl
@[simp] theorem setSens_arch (c : Chip) (k x) : (c.setSens k x).arch = c.arch := rfl
@[simp] theorem setSens_core (c : Chip) (k x) : (c.setSens k x).core = c.core := rfl
@[simp] theorem setSens_host (c : Chip) (k x) : (c.setSens k x).host = c.host := rfl
@[simp] theorem setSens_buf (c : Chip) (k x) : (c.setSens k x).buf = c.buf := rfl
@[simp] theorem setSens_afe (c : Chip) (k x) : (c.setSens k x).afe = c.afe := rfl
@[simp] theorem setSens_path (c : Chip) (k x) : (c.setSens k x).path = c.path := rfl
@[simp] theorem setSens_servo (c : Chip) (k x) : (c.setSens k x).servo = c.servo := rfl
@[simp] theorem setSens_sup_wmH (c : Chip) (k x) : (c.setSens k x).sup.wmH = c.sup.wmH := rfl
@[simp] theorem setSens_sup_wmM (c : Chip) (k x) : (c.setSens k x).sup.wmM = c.sup.wmM := rfl
@[simp] theorem setSens_sup_beats (c : Chip) (k x) : (c.setSens k x).sup.beats = c.sup.beats := rfl
@[simp] theorem setSens_sup_wmLoad (c : Chip) (k x) : (c.setSens k x).sup.wmLoad = c.sup.wmLoad := rfl
@[simp] theorem setSens_sup_boot (c : Chip) (k x) : (c.setSens k x).sup.boot = c.sup.boot := rfl
@[simp] theorem setSens_sup_tap (c : Chip) (k x) : (c.setSens k x).sup.tap = c.sup.tap := rfl
@[simp] theorem setHeat_regs (c : Chip) (k x) : (c.setHeat k x).regs = c.regs := rfl
@[simp] theorem setHeat_free (c : Chip) (k x) : (c.setHeat k x).free = c.free := rfl
@[simp] theorem setHeat_arch (c : Chip) (k x) : (c.setHeat k x).arch = c.arch := rfl
@[simp] theorem setHeat_core (c : Chip) (k x) : (c.setHeat k x).core = c.core := rfl
@[simp] theorem setHeat_host (c : Chip) (k x) : (c.setHeat k x).host = c.host := rfl
@[simp] theorem setHeat_buf (c : Chip) (k x) : (c.setHeat k x).buf = c.buf := rfl
@[simp] theorem setHeat_afe (c : Chip) (k x) : (c.setHeat k x).afe = c.afe := rfl
@[simp] theorem setHeat_path (c : Chip) (k x) : (c.setHeat k x).path = c.path := rfl
@[simp] theorem setHeat_servo (c : Chip) (k x) : (c.setHeat k x).servo = c.servo := rfl
@[simp] theorem setHeat_sup_wmH (c : Chip) (k x) : (c.setHeat k x).sup.wmH = c.sup.wmH := rfl
@[simp] theorem setHeat_sup_wmM (c : Chip) (k x) : (c.setHeat k x).sup.wmM = c.sup.wmM := rfl
@[simp] theorem setHeat_sup_beats (c : Chip) (k x) : (c.setHeat k x).sup.beats = c.sup.beats := rfl
@[simp] theorem setHeat_sup_wmLoad (c : Chip) (k x) : (c.setHeat k x).sup.wmLoad = c.sup.wmLoad := rfl
@[simp] theorem setHeat_sup_boot (c : Chip) (k x) : (c.setHeat k x).sup.boot = c.sup.boot := rfl
@[simp] theorem setHeat_sup_tap (c : Chip) (k x) : (c.setHeat k x).sup.tap = c.sup.tap := rfl
@[simp] theorem setCal_regs (c : Chip) (k x) : (c.setCal k x).regs = c.regs := rfl
@[simp] theorem setCal_free (c : Chip) (k x) : (c.setCal k x).free = c.free := rfl
@[simp] theorem setCal_arch (c : Chip) (k x) : (c.setCal k x).arch = c.arch := rfl
@[simp] theorem setCal_core (c : Chip) (k x) : (c.setCal k x).core = c.core := rfl
@[simp] theorem setCal_host (c : Chip) (k x) : (c.setCal k x).host = c.host := rfl
@[simp] theorem setCal_buf (c : Chip) (k x) : (c.setCal k x).buf = c.buf := rfl
@[simp] theorem setCal_afe (c : Chip) (k x) : (c.setCal k x).afe = c.afe := rfl
@[simp] theorem setCal_path (c : Chip) (k x) : (c.setCal k x).path = c.path := rfl
@[simp] theorem setCal_servo (c : Chip) (k x) : (c.setCal k x).servo = c.servo := rfl
@[simp] theorem setCal_sup_wmH (c : Chip) (k x) : (c.setCal k x).sup.wmH = c.sup.wmH := rfl
@[simp] theorem setCal_sup_wmM (c : Chip) (k x) : (c.setCal k x).sup.wmM = c.sup.wmM := rfl
@[simp] theorem setCal_sup_beats (c : Chip) (k x) : (c.setCal k x).sup.beats = c.sup.beats := rfl
@[simp] theorem setCal_sup_wmLoad (c : Chip) (k x) : (c.setCal k x).sup.wmLoad = c.sup.wmLoad := rfl
@[simp] theorem setCal_sup_boot (c : Chip) (k x) : (c.setCal k x).sup.boot = c.sup.boot := rfl
@[simp] theorem setCal_sup_tap (c : Chip) (k x) : (c.setCal k x).sup.tap = c.sup.tap := rfl
@[simp] theorem setBoot_regs (c : Chip) (x) : (c.setBoot x).regs = c.regs := rfl
@[simp] theorem setBoot_free (c : Chip) (x) : (c.setBoot x).free = c.free := rfl
@[simp] theorem setBoot_arch (c : Chip) (x) : (c.setBoot x).arch = c.arch := rfl
@[simp] theorem setBoot_core (c : Chip) (x) : (c.setBoot x).core = c.core := rfl
@[simp] theorem setBoot_host (c : Chip) (x) : (c.setBoot x).host = c.host := rfl
@[simp] theorem setBoot_buf (c : Chip) (x) : (c.setBoot x).buf = c.buf := rfl
@[simp] theorem setBoot_afe (c : Chip) (x) : (c.setBoot x).afe = c.afe := rfl
@[simp] theorem setBoot_path (c : Chip) (x) : (c.setBoot x).path = c.path := rfl
@[simp] theorem setBoot_servo (c : Chip) (x) : (c.setBoot x).servo = c.servo := rfl
@[simp] theorem setBoot_sup_wmH (c : Chip) (x) : (c.setBoot x).sup.wmH = c.sup.wmH := rfl
@[simp] theorem setBoot_sup_wmM (c : Chip) (x) : (c.setBoot x).sup.wmM = c.sup.wmM := rfl
@[simp] theorem setBoot_sup_beats (c : Chip) (x) : (c.setBoot x).sup.beats = c.sup.beats := rfl
@[simp] theorem setBoot_sup_wmLoad (c : Chip) (x) : (c.setBoot x).sup.wmLoad = c.sup.wmLoad := rfl
@[simp] theorem setBoot_sup_thermal (c : Chip) (x) : (c.setBoot x).sup.thermal = c.sup.thermal := rfl
@[simp] theorem setBoot_sup_tap (c : Chip) (x) : (c.setBoot x).sup.tap = c.sup.tap := rfl
@[simp] theorem putBytes_regs (c : Chip) (a bs) : (c.putBytes a bs).regs = c.regs := rfl
@[simp] theorem putBytes_free (c : Chip) (a bs) : (c.putBytes a bs).free = c.free := rfl
@[simp] theorem putBytes_arch (c : Chip) (a bs) : (c.putBytes a bs).arch = c.arch := rfl
@[simp] theorem putBytes_core (c : Chip) (a bs) : (c.putBytes a bs).core = c.core := rfl
@[simp] theorem putBytes_host (c : Chip) (a bs) : (c.putBytes a bs).host = c.host := rfl
@[simp] theorem putBytes_afe (c : Chip) (a bs) : (c.putBytes a bs).afe = c.afe := rfl
@[simp] theorem putBytes_path (c : Chip) (a bs) : (c.putBytes a bs).path = c.path := rfl
@[simp] theorem putBytes_servo (c : Chip) (a bs) : (c.putBytes a bs).servo = c.servo := rfl
@[simp] theorem putBytes_sup (c : Chip) (a bs) : (c.putBytes a bs).sup = c.sup := rfl
@[simp] theorem putBytes_buf_sets (c : Chip) (a bs) : (c.putBytes a bs).buf.sets = c.buf.sets := rfl
@[simp] theorem putBytes_buf_victims (c : Chip) (a bs) : (c.putBytes a bs).buf.victims = c.buf.victims := rfl
@[simp] theorem putBytes_buf_evicts (c : Chip) (a bs) : (c.putBytes a bs).buf.evicts = c.buf.evicts := rfl
@[simp] theorem putBytes_buf_misses (c : Chip) (a bs) : (c.putBytes a bs).buf.misses = c.buf.misses := rfl
@[simp] theorem putBytes_buf_allocWaits (c : Chip) (a bs) : (c.putBytes a bs).buf.allocWaits = c.buf.allocWaits := rfl
@[simp] theorem putBytes_buf_marks (c : Chip) (a bs) : (c.putBytes a bs).buf.marks = c.buf.marks := rfl
@[simp] theorem putBytes_buf_initRanges (c : Chip) (a bs) : (c.putBytes a bs).buf.initRanges = c.buf.initRanges := rfl
@[simp] theorem putBytes_buf_scrub (c : Chip) (a bs) : (c.putBytes a bs).buf.scrub = c.buf.scrub := rfl
@[simp] theorem putBytes_buf_staged (c : Chip) (a bs) : (c.putBytes a bs).buf.staged = c.buf.staged := rfl
@[simp] theorem putBytes_buf_nextSeq (c : Chip) (a bs) : (c.putBytes a bs).buf.nextSeq = c.buf.nextSeq := rfl
@[simp] theorem putBytes_buf_slotsUsed (c : Chip) (a bs) : (c.putBytes a bs).buf.slotsUsed = c.buf.slotsUsed := rfl
@[simp] theorem putBytes_buf_streams (c : Chip) (a bs) : (c.putBytes a bs).buf.streams = c.buf.streams := rfl
@[simp] theorem putBytes_buf_store (c : Chip) (a bs) : (c.putBytes a bs).buf.store = c.buf.store := rfl
@[simp] theorem putBytes_buf_fills (c : Chip) (a bs) : (c.putBytes a bs).buf.fills = c.buf.fills := rfl
@[simp] theorem putBytes_buf_drains (c : Chip) (a bs) : (c.putBytes a bs).buf.drains = c.buf.drains := rfl
@[simp] theorem putBytes_buf_cutSeq (c : Chip) (a bs) : (c.putBytes a bs).buf.cutSeq = c.buf.cutSeq := rfl
@[simp] theorem putBytes_buf_written (c : Chip) (a bs) : (c.putBytes a bs).buf.written = c.buf.written := rfl
@[simp] theorem putBytes_buf_lost (c : Chip) (a bs) : (c.putBytes a bs).buf.lost = c.buf.lost := rfl
@[simp] theorem putBytes_buf_lruClock (c : Chip) (a bs) : (c.putBytes a bs).buf.lruClock = c.buf.lruClock := rfl
@[simp] theorem thermal_setThermal (c : Chip) (x) : (c.setThermal x).thermal = x := rfl
@[simp] theorem boot_setBoot (c : Chip) (x) : (c.setBoot x).boot = x := rfl
@[simp] theorem setWm_regs (c : Chip) (d x) : (c.setWm d x).regs = c.regs := by cases d <;> rfl
@[simp] theorem setWm_free (c : Chip) (d x) : (c.setWm d x).free = c.free := by cases d <;> rfl
@[simp] theorem setWm_arch (c : Chip) (d x) : (c.setWm d x).arch = c.arch := by cases d <;> rfl
@[simp] theorem setWm_core (c : Chip) (d x) : (c.setWm d x).core = c.core := by cases d <;> rfl
@[simp] theorem setWm_host (c : Chip) (d x) : (c.setWm d x).host = c.host := by cases d <;> rfl
@[simp] theorem setWm_buf (c : Chip) (d x) : (c.setWm d x).buf = c.buf := by cases d <;> rfl
@[simp] theorem setWm_afe (c : Chip) (d x) : (c.setWm d x).afe = c.afe := by cases d <;> rfl
@[simp] theorem setWm_path (c : Chip) (d x) : (c.setWm d x).path = c.path := by cases d <;> rfl
@[simp] theorem setWm_servo (c : Chip) (d x) : (c.setWm d x).servo = c.servo := by cases d <;> rfl
@[simp] theorem setWm_sup_beats (c : Chip) (d x) : (c.setWm d x).sup.beats = c.sup.beats := by cases d <;> rfl
@[simp] theorem setWm_sup_wmLoad (c : Chip) (d x) : (c.setWm d x).sup.wmLoad = c.sup.wmLoad := by cases d <;> rfl
@[simp] theorem setWm_sup_thermal (c : Chip) (d x) : (c.setWm d x).sup.thermal = c.sup.thermal := by cases d <;> rfl
@[simp] theorem setWm_sup_boot (c : Chip) (d x) : (c.setWm d x).sup.boot = c.sup.boot := by cases d <;> rfl
@[simp] theorem setWm_sup_tap (c : Chip) (d x) : (c.setWm d x).sup.tap = c.sup.tap := by cases d <;> rfl
@[simp] theorem wm_setWm (c : Chip) (d x) : (c.setWm d x).wm d = x := by cases d <;> rfl
theorem wm_setWm_other (c : Chip) (d e x) (h : e ≠ d) : (c.setWm d x).wm e = c.wm e := by cases d <;> cases e <;> first | rfl | exact absurd rfl h

/-! ### Reading a field after an update that is not of a register -/

theorem reg_of_regs {c c' : Chip} (h : c'.regs = c.regs) (o) : c'.reg o = c.reg o := by simp [Chip.reg, h]
theorem fld_of_regs {c c' : Chip} (h : c'.regs = c.regs) (f) : c'.fld f = c.fld f := by simp [Chip.fld, Chip.reg, h]
@[simp] theorem reg_setWeir (c : Chip) (k x o) : (c.setWeir k x).reg o = c.reg o := rfl
@[simp] theorem fld_setWeir (c : Chip) (k x f) : (c.setWeir k x).fld f = c.fld f := rfl
@[simp] theorem flag_setWeir (c : Chip) (k x f) : (c.setWeir k x).flag f = c.flag f := rfl
@[simp] theorem reg_setEng (c : Chip) (k x o) : (c.setEng k x).reg o = c.reg o := rfl
@[simp] theorem fld_setEng (c : Chip) (k x f) : (c.setEng k x).fld f = c.fld f := rfl
@[simp] theorem flag_setEng (c : Chip) (k x f) : (c.setEng k x).flag f = c.flag f := rfl
@[simp] theorem reg_setAgent (c : Chip) (k x o) : (c.setAgent k x).reg o = c.reg o := rfl
@[simp] theorem fld_setAgent (c : Chip) (k x f) : (c.setAgent k x).fld f = c.fld f := rfl
@[simp] theorem flag_setAgent (c : Chip) (k x f) : (c.setAgent k x).flag f = c.flag f := rfl
@[simp] theorem reg_setCisQ (c : Chip) (k x o) : (c.setCisQ k x).reg o = c.reg o := rfl
@[simp] theorem fld_setCisQ (c : Chip) (k x f) : (c.setCisQ k x).fld f = c.fld f := rfl
@[simp] theorem flag_setCisQ (c : Chip) (k x f) : (c.setCisQ k x).flag f = c.flag f := rfl
@[simp] theorem reg_setQueue (c : Chip) (k x o) : (c.setQueue k x).reg o = c.reg o := rfl
@[simp] theorem fld_setQueue (c : Chip) (k x f) : (c.setQueue k x).fld f = c.fld f := rfl
@[simp] theorem flag_setQueue (c : Chip) (k x f) : (c.setQueue k x).flag f = c.flag f := rfl
@[simp] theorem reg_setRing (c : Chip) (k x o) : (c.setRing k x).reg o = c.reg o := rfl
@[simp] theorem fld_setRing (c : Chip) (k x f) : (c.setRing k x).fld f = c.fld f := rfl
@[simp] theorem flag_setRing (c : Chip) (k x f) : (c.setRing k x).flag f = c.flag f := rfl
@[simp] theorem reg_setCacheSet (c : Chip) (k x o) : (c.setCacheSet k x).reg o = c.reg o := rfl
@[simp] theorem fld_setCacheSet (c : Chip) (k x f) : (c.setCacheSet k x).fld f = c.fld f := rfl
@[simp] theorem flag_setCacheSet (c : Chip) (k x f) : (c.setCacheSet k x).flag f = c.flag f := rfl
@[simp] theorem reg_setAfeLane (c : Chip) (k x o) : (c.setAfeLane k x).reg o = c.reg o := rfl
@[simp] theorem fld_setAfeLane (c : Chip) (k x f) : (c.setAfeLane k x).fld f = c.fld f := rfl
@[simp] theorem flag_setAfeLane (c : Chip) (k x f) : (c.setAfeLane k x).flag f = c.flag f := rfl
@[simp] theorem reg_setLink (c : Chip) (k x o) : (c.setLink k x).reg o = c.reg o := rfl
@[simp] theorem fld_setLink (c : Chip) (k x f) : (c.setLink k x).fld f = c.fld f := rfl
@[simp] theorem flag_setLink (c : Chip) (k x f) : (c.setLink k x).flag f = c.flag f := rfl
@[simp] theorem reg_setLane (c : Chip) (k x o) : (c.setLane k x).reg o = c.reg o := rfl
@[simp] theorem fld_setLane (c : Chip) (k x f) : (c.setLane k x).fld f = c.fld f := rfl
@[simp] theorem flag_setLane (c : Chip) (k x f) : (c.setLane k x).flag f = c.flag f := rfl
@[simp] theorem reg_setFrm (c : Chip) (k x o) : (c.setFrm k x).reg o = c.reg o := rfl
@[simp] theorem fld_setFrm (c : Chip) (k x f) : (c.setFrm k x).fld f = c.fld f := rfl
@[simp] theorem flag_setFrm (c : Chip) (k x f) : (c.setFrm k x).flag f = c.flag f := rfl
@[simp] theorem reg_setWch (c : Chip) (k x o) : (c.setWch k x).reg o = c.reg o := rfl
@[simp] theorem fld_setWch (c : Chip) (k x f) : (c.setWch k x).fld f = c.fld f := rfl
@[simp] theorem flag_setWch (c : Chip) (k x f) : (c.setWch k x).flag f = c.flag f := rfl
@[simp] theorem reg_setAcc (c : Chip) (k x o) : (c.setAcc k x).reg o = c.reg o := rfl
@[simp] theorem fld_setAcc (c : Chip) (k x f) : (c.setAcc k x).fld f = c.fld f := rfl
@[simp] theorem flag_setAcc (c : Chip) (k x f) : (c.setAcc k x).flag f = c.flag f := rfl
@[simp] theorem reg_setPower (c : Chip) (k x o) : (c.setPower k x).reg o = c.reg o := rfl
@[simp] theorem fld_setPower (c : Chip) (k x f) : (c.setPower k x).fld f = c.fld f := rfl
@[simp] theorem flag_setPower (c : Chip) (k x f) : (c.setPower k x).flag f = c.flag f := rfl
@[simp] theorem reg_setTolek (c : Chip) (k x o) : (c.setTolek k x).reg o = c.reg o := rfl
@[simp] theorem fld_setTolek (c : Chip) (k x f) : (c.setTolek k x).fld f = c.fld f := rfl
@[simp] theorem flag_setTolek (c : Chip) (k x f) : (c.setTolek k x).flag f = c.flag f := rfl
@[simp] theorem reg_setPair (c : Chip) (k x o) : (c.setPair k x).reg o = c.reg o := rfl
@[simp] theorem fld_setPair (c : Chip) (k x f) : (c.setPair k x).fld f = c.fld f := rfl
@[simp] theorem flag_setPair (c : Chip) (k x f) : (c.setPair k x).flag f = c.flag f := rfl
@[simp] theorem reg_setLoop (c : Chip) (k x o) : (c.setLoop k x).reg o = c.reg o := rfl
@[simp] theorem fld_setLoop (c : Chip) (k x f) : (c.setLoop k x).fld f = c.fld f := rfl
@[simp] theorem flag_setLoop (c : Chip) (k x f) : (c.setLoop k x).flag f = c.flag f := rfl
@[simp] theorem reg_setMotion (c : Chip) (k x o) : (c.setMotion k x).reg o = c.reg o := rfl
@[simp] theorem fld_setMotion (c : Chip) (k x f) : (c.setMotion k x).fld f = c.fld f := rfl
@[simp] theorem flag_setMotion (c : Chip) (k x f) : (c.setMotion k x).flag f = c.flag f := rfl
@[simp] theorem reg_setSeqr (c : Chip) (k x o) : (c.setSeqr k x).reg o = c.reg o := rfl
@[simp] theorem fld_setSeqr (c : Chip) (k x f) : (c.setSeqr k x).fld f = c.fld f := rfl
@[simp] theorem flag_setSeqr (c : Chip) (k x f) : (c.setSeqr k x).flag f = c.flag f := rfl
@[simp] theorem reg_setVol (c : Chip) (k x o) : (c.setVol k x).reg o = c.reg o := rfl
@[simp] theorem fld_setVol (c : Chip) (k x f) : (c.setVol k x).fld f = c.fld f := rfl
@[simp] theorem flag_setVol (c : Chip) (k x f) : (c.setVol k x).flag f = c.flag f := rfl
@[simp] theorem reg_setStn (c : Chip) (k x o) : (c.setStn k x).reg o = c.reg o := rfl
@[simp] theorem fld_setStn (c : Chip) (k x f) : (c.setStn k x).fld f = c.fld f := rfl
@[simp] theorem flag_setStn (c : Chip) (k x f) : (c.setStn k x).flag f = c.flag f := rfl
@[simp] theorem reg_setSpn (c : Chip) (k x o) : (c.setSpn k x).reg o = c.reg o := rfl
@[simp] theorem fld_setSpn (c : Chip) (k x f) : (c.setSpn k x).fld f = c.fld f := rfl
@[simp] theorem flag_setSpn (c : Chip) (k x f) : (c.setSpn k x).flag f = c.flag f := rfl
@[simp] theorem reg_setSled (c : Chip) (k x o) : (c.setSled k x).reg o = c.reg o := rfl
@[simp] theorem fld_setSled (c : Chip) (k x f) : (c.setSled k x).fld f = c.fld f := rfl
@[simp] theorem flag_setSled (c : Chip) (k x f) : (c.setSled k x).flag f = c.flag f := rfl
@[simp] theorem reg_setUnitMark (c : Chip) (k x o) : (c.setUnitMark k x).reg o = c.reg o := rfl
@[simp] theorem fld_setUnitMark (c : Chip) (k x f) : (c.setUnitMark k x).fld f = c.fld f := rfl
@[simp] theorem flag_setUnitMark (c : Chip) (k x f) : (c.setUnitMark k x).flag f = c.flag f := rfl
@[simp] theorem reg_setRec (c : Chip) (v l x o) : (c.setRec v l x).reg o = c.reg o := rfl
@[simp] theorem fld_setRec (c : Chip) (v l x f) : (c.setRec v l x).fld f = c.fld f := rfl
@[simp] theorem flag_setRec (c : Chip) (v l x f) : (c.setRec v l x).flag f = c.flag f := rfl
@[simp] theorem reg_setThermal (c : Chip) (x o) : (c.setThermal x).reg o = c.reg o := rfl
@[simp] theorem fld_setThermal (c : Chip) (x f) : (c.setThermal x).fld f = c.fld f := rfl
@[simp] theorem flag_setThermal (c : Chip) (x f) : (c.setThermal x).flag f = c.flag f := rfl
@[simp] theorem reg_setSens (c : Chip) (k x o) : (c.setSens k x).reg o = c.reg o := rfl
@[simp] theorem fld_setSens (c : Chip) (k x f) : (c.setSens k x).fld f = c.fld f := rfl
@[simp] theorem flag_setSens (c : Chip) (k x f) : (c.setSens k x).flag f = c.flag f := rfl
@[simp] theorem reg_setHeat (c : Chip) (k x o) : (c.setHeat k x).reg o = c.reg o := rfl
@[simp] theorem fld_setHeat (c : Chip) (k x f) : (c.setHeat k x).fld f = c.fld f := rfl
@[simp] theorem flag_setHeat (c : Chip) (k x f) : (c.setHeat k x).flag f = c.flag f := rfl
@[simp] theorem reg_setCal (c : Chip) (k x o) : (c.setCal k x).reg o = c.reg o := rfl
@[simp] theorem fld_setCal (c : Chip) (k x f) : (c.setCal k x).fld f = c.fld f := rfl
@[simp] theorem flag_setCal (c : Chip) (k x f) : (c.setCal k x).flag f = c.flag f := rfl
@[simp] theorem reg_setBoot (c : Chip) (x o) : (c.setBoot x).reg o = c.reg o := rfl
@[simp] theorem fld_setBoot (c : Chip) (x f) : (c.setBoot x).fld f = c.fld f := rfl
@[simp] theorem flag_setBoot (c : Chip) (x f) : (c.setBoot x).flag f = c.flag f := rfl
@[simp] theorem reg_putBytes (c : Chip) (a bs o) : (c.putBytes a bs).reg o = c.reg o := rfl
@[simp] theorem fld_putBytes (c : Chip) (a bs f) : (c.putBytes a bs).fld f = c.fld f := rfl
@[simp] theorem flag_putBytes (c : Chip) (a bs f) : (c.putBytes a bs).flag f = c.flag f := rfl
@[simp] theorem reg_setWm (c : Chip) (d x o) : (c.setWm d x).reg o = c.reg o := by cases d <;> rfl
@[simp] theorem reg_draw (c : Chip) (o) : c.draw.2.reg o = c.reg o := rfl
@[simp] theorem fld_setWm (c : Chip) (d x o) : (c.setWm d x).fld o = c.fld o := by cases d <;> rfl
@[simp] theorem fld_draw (c : Chip) (o) : c.draw.2.fld o = c.fld o := rfl
@[simp] theorem flag_setWm (c : Chip) (d x o) : (c.setWm d x).flag o = c.flag o := by cases d <;> rfl
@[simp] theorem flag_draw (c : Chip) (o) : c.draw.2.flag o = c.flag o := rfl

end Sys2Proof.Machine
end

