-- ==== Sys2Proof/Laws/Frame.lean ====
section
/-! SUPPORT. Frames: which updates leave which fields unchanged, one lemma an operation over registers. -/

namespace Sys2Proof.Machine

theorem completes_on {i : Instr} {s : State} {P : Chip → Prop} {f : Chip → Chip} (h : exec i s = s.on f) (hp : P (f s.chip)) : Completes i s P :=
  ⟨_, h, rfl, hp⟩

theorem completes_onIf {i : Instr} {s : State} {P : Chip → Prop} {b : Bool} {f : Chip → Chip} (h : exec i s = s.onIf b f) (hb : b = true)
    (hp : P (f s.chip)) : Completes i s P := by
  refine ⟨{ s with chip := f s.chip }, h.trans ?_, rfl, hp⟩
  simp [State.onIf, hb]

theorem fieldsKept_refl (L : List Fld) (c : Chip) : c.fieldsKept L c := fun _ _ _ => rfl

theorem fieldsKept_trans {L : List Fld} {a b c : Chip} (h : a.fieldsKept L b) (h' : b.fieldsKept L c) : a.fieldsKept L c :=
  fun f hf hg => (h' f hf hg).trans (h f hf hg)

theorem fieldsKept_weaken {L L' : List Fld} {a b : Chip} (hs : ∀ g ∈ L, g ∈ L') (h : a.fieldsKept L b) : a.fieldsKept L' b :=
  fun f hf hg => h f hf (fun g m => hg g (hs g m))

theorem fieldsKept_of_regs {L : List Fld} {a b : Chip} (h : b.regs = a.regs) : a.fieldsKept L b :=
  fun f _ _ => fld_of_regs h f

theorem fieldsKept_setFld {L : List Fld} {a b : Chip} (g : Fld) (v : Nat) (m : g ∈ L) (h : a.fieldsKept L b) : a.fieldsKept L (b.setFld g v) :=
  fun f hf hg => (fld_setFld_apart b f g v hf (hg g m)).trans (h f hf hg)

theorem fieldsKept_setFlag {L : List Fld} {a b : Chip} (g : Fld) (v : Bool) (m : g ∈ L) (h : a.fieldsKept L b) : a.fieldsKept L (b.setFlag g v) :=
  fieldsKept_setFld g _ m h

theorem fieldsKept_setInt {L : List Fld} {a b : Chip} (g : Fld) (v : Int) (m : g ∈ L) (h : a.fieldsKept L b) : a.fieldsKept L (b.setInt g v) :=
  fieldsKept_setFld g _ m h

theorem fieldsKept_mark {L : List Fld} {a b : Chip} (g : Fld) (m : g ∈ L) (h : a.fieldsKept L b) : a.fieldsKept L (b.mark g) :=
  fieldsKept_setFld g _ m h

theorem fieldsKept_add {L : List Fld} {a b : Chip} (g : Fld) (n : Nat) (m : g ∈ L) (h : a.fieldsKept L b) : a.fieldsKept L (b.add g n) :=
  fieldsKept_setFld g _ m h

theorem fieldsKept_inc {L : List Fld} {a b : Chip} (g : Fld) (m : g ∈ L) (h : a.fieldsKept L b) : a.fieldsKept L (b.inc g) :=
  fieldsKept_add g 1 m h

theorem fieldsKept_wrapInc {L : List Fld} {a b : Chip} (g : Fld) (m : g ∈ L) (h : a.fieldsKept L b) : a.fieldsKept L (b.wrapInc g) :=
  fieldsKept_setFld g _ m h

/-- A change outside the registers keeps every field. -/
theorem fieldsKept_regs {L : List Fld} {a b b' : Chip} (hr : b'.regs = b.regs) (h : a.fieldsKept L b) : a.fieldsKept L b' :=
  fun f hf hg => (fld_of_regs hr f).trans (h f hf hg)

theorem fieldsKept_when {L : List Fld} {a b : Chip} (p : Bool) (f : Chip → Chip) (h : a.fieldsKept L b) (hf : a.fieldsKept L (f b)) :
    a.fieldsKept L (b.when p f) := by
  unfold Chip.when; split <;> assumption

theorem bytesKept_refl (c : Chip) : c.bytesKept c := ⟨fun _ => rfl, fun _ => rfl, fun _ => rfl, fun _ => rfl⟩

/-- Memories that are the same data hold the same bytes. -/
theorem bytesKept_of_eq {c c' : Chip} (h1 : c'.buf.mem = c.buf.mem) (h2 : c'.sup.boot = c.sup.boot) (h3 : c'.core.sram = c.core.sram) :
    c.bytesKept c' := by
  refine ⟨fun a => ?_, fun a => ?_, fun a => ?_, fun a => ?_⟩ <;> simp [Chip.byte, Chip.boot, h1, h2, h3]

end Sys2Proof.Machine
end

