-- ==== Sys2Proof/Laws/Memory.lean ====
section
/-! SUPPORT. Every operation on a memory keeps its canonical form: what puts bytes and what erases a range, for buffer DRAM, the boot flash, the
engines' SRAM and the mailbox. And what a range that was erased reads as. -/

namespace Sys2Proof.Machine

variable {α : Type} [DecidableEq α]

/-- Every key of a store in canonical form lies above what the first key lies above. -/
theorem Cells.above_of_headAbove (d : Nat → α) (m : Cells α) (k : Nat) (hw : Cells.wf d m = true) (h : Cells.headAbove m k) :
    ∀ c ∈ m, k < c.1 := by
  induction m generalizing k with
  | nil => simp
  | cons c t ih =>
    obtain ⟨j, v⟩ := c
    have hc := (Cells.wf_cons_iff d j v t).1 hw
    have hk : k < j := by simpa [Cells.headAbove] using h
    intro x hx
    rcases List.mem_cons.1 hx with rfl | hx
    · exact hk
    · exact Nat.lt_trans hk (ih j hc.2.2 hc.2.1 x hx)

/-- Taking entries away keeps the canonical form. -/
theorem Cells.wf_filter (d : Nat → α) (m : Cells α) (p : Nat × α → Bool) (h : Cells.wf d m = true) : Cells.wf d (m.filter p) = true := by
  induction m with
  | nil => rfl
  | cons c t ih =>
    obtain ⟨j, v⟩ := c
    have hc := (Cells.wf_cons_iff d j v t).1 h
    rw [List.filter_cons]
    split
    · refine (Cells.wf_cons_iff d j v _).2 ⟨hc.1, ?_, ih hc.2.2⟩
      intro x hx
      exact Cells.above_of_headAbove d t j hc.2.2 hc.2.1 x (List.mem_filter.1 (List.mem_of_mem_head? hx)).1
    · exact ih hc.2.2

omit [DecidableEq α] in
/-- A key below every key that is listed reads as an unlisted one. -/
theorem Cells.get_below (d : Nat → α) (m : Cells α) (k : Nat) (h : ∀ c ∈ m, k < c.1) : Cells.get d m k = d k := by
  cases m with
  | nil => rfl
  | cons c t =>
    obtain ⟨j, v⟩ := c
    have hj : k < j := h (j, v) (by simp)
    simp [Cells.get, hj, Nat.ne_of_gt hj]

/-- Keeping the entries of some keys: those keys read as before, every other key as an unlisted one. -/
theorem Cells.get_filter (d : Nat → α) (m : Cells α) (p : Nat → Bool) (k : Nat) (h : Cells.wf d m = true) :
    Cells.get d (m.filter (fun c => p c.1)) k = if p k then Cells.get d m k else d k := by
  induction m with
  | nil => simp [Cells.get]
  | cons c t ih =>
    obtain ⟨j, v⟩ := c
    have hc := (Cells.wf_cons_iff d j v t).1 h
    have ha := Cells.above_of_headAbove d t j hc.2.2 hc.2.1
    have hf : ∀ c ∈ t.filter (fun c => p c.1), j < c.1 := fun x hx => ha x (List.mem_filter.1 hx).1
    rcases Nat.lt_trichotomy j k with hk | rfl | hk
    · by_cases hj : p j <;> simp [hj, Cells.get, Nat.ne_of_lt hk, Nat.not_lt.2 (Nat.le_of_lt hk), ih hc.2.2]
    · by_cases hj : p j
      · simp [hj, Cells.get]
      · simp [hj, Cells.get_below d _ j hf]
    · have ht : Cells.get d (t.filter (fun c => p c.1)) k = d k := Cells.get_below d _ k fun x hx => Nat.lt_trans hk (hf x hx)
      by_cases hj : p j <;> simp [hj, Cells.get, Nat.ne_of_gt hk, hk, ht]

omit [DecidableEq α] in
/-- The four parts of `Memory.wf`. -/
theorem memory_wf_iff (c : Chip) : Memory.wf c = true ↔ Cells.wf memBlank c.buf.mem = true ∧ Cells.wf flashBlank c.boot.flash = true ∧
    Cells.wf (fun _ => 0) c.core.sram = true ∧ Cells.wf (fun _ => 0) c.boot.mailbox = true := by
  simp [Memory.wf, Chip.memWf, and_assoc]

/-- An operation on the memories keeps the canonical form of all where it keeps that of each. -/
theorem memory_wf_of (c c' : Chip) (h : Memory.wf c = true)
    (hm : Cells.wf memBlank c.buf.mem = true → Cells.wf memBlank c'.buf.mem = true)
    (hf : Cells.wf flashBlank c.boot.flash = true → Cells.wf flashBlank c'.boot.flash = true)
    (hs : Cells.wf (fun _ => 0) c.core.sram = true → Cells.wf (fun _ => 0) c'.core.sram = true)
    (hb : Cells.wf (fun _ => 0) c.boot.mailbox = true → Cells.wf (fun _ => 0) c'.boot.mailbox = true) : Memory.wf c' = true := by
  have := (memory_wf_iff c).1 h
  exact (memory_wf_iff c').2 ⟨hm this.1, hf this.2.1, hs this.2.2.1, hb this.2.2.2⟩

/-- What leaves the memories as they are keeps the form. -/
theorem memory_wf_of_eq (c c' : Chip) (hm : c'.buf.mem = c.buf.mem) (hb : c'.sup.boot = c.sup.boot) (hs : c'.core.sram = c.core.sram) :
    Memory.wf c' = Memory.wf c := by
  simp [Memory.wf, Chip.memWf, Chip.boot, hm, hb, hs]

theorem memory_wf_putBytes (c : Chip) (a : Nat) (bs : List Byte) (h : Memory.wf c = true) : Memory.wf (c.putBytes a bs) = true :=
  memory_wf_of c _ h (Cells.wf_putRun _ _ _ _) id id id

theorem memory_wf_flashErase (c : Chip) (a n : Nat) (h : Memory.wf c = true) : Memory.wf (c.flashErase a n) = true :=
  memory_wf_of c _ h id (Cells.wf_filter _ _ _) id id

theorem memory_wf_flashProgram (c : Chip) (a : Nat) (bs : List Byte) (h : Memory.wf c = true) : Memory.wf (c.flashProgram a bs) = true :=
  memory_wf_of c _ h id (Cells.wf_putRun _ _ _ _) id id

theorem memory_wf_sramWrite (c : Chip) (e : Engine) (o : Nat) (bs : List Byte) (h : Memory.wf c = true) : Memory.wf (c.sramWrite e o bs) = true :=
  memory_wf_of c _ h id id (Cells.wf_putRun _ _ _ _) id

/-- An engine's SRAM is cleared over a range of keys. -/
theorem memory_wf_sramClear (c : Chip) (p : Nat × Byte → Bool) (h : Memory.wf c = true) :
    Memory.wf { c with core := { c.core with sram := c.core.sram.filter p } } = true :=
  memory_wf_of c _ h id id (Cells.wf_filter _ _ _) id

theorem memory_wf_mailbox (c : Chip) (o : Nat) (bs : List Byte) (h : Memory.wf c = true) :
    Memory.wf (c.setBoot { c.boot with mailbox := Cells.putRun (fun _ => 0) c.boot.mailbox o bs }) = true :=
  memory_wf_of c _ h id id id (Cells.wf_putRun _ _ _ _)

theorem memory_wf_scrubInit (c : Chip) (start len : Nat) (h : Memory.wf c = true) : Memory.wf (c.scrubInit start len) = true :=
  memory_wf_of c _ h (Cells.wf_filter _ _ _) id id id

/-- A range that an INIT scrub has cleared reads as 0, every other byte as before. -/
theorem byte_scrubInit (c : Chip) (start len a : Nat) (h : Memory.wf c = true) :
    (c.scrubInit start len).byte a = if start ≤ a ∧ a < start + len then 0 else c.byte a := by
  have := Cells.get_filter memBlank c.buf.mem (fun k => decide (k < start) || decide (start + len ≤ k)) a ((memory_wf_iff c).1 h).1
  refine this.trans ?_
  by_cases h1 : a < start <;> by_cases h2 : start + len ≤ a <;> simp [h1, h2, memBlank, Chip.byte]

/-- The memories after power-on have the form. -/
theorem memory_wf_reset : Memory.wf State.reset.chip = true := rfl

end Sys2Proof.Machine
end

