-- ==== Sys2Proof/Laws/Weir.lean ====
section
/-! SUPPORT. What the operations on weirs and on the engines' registers do: the part they change, and that they change nothing else. -/

namespace Sys2Proof.Machine

theorem getX_setX (c : Chip) (e r v) : (c.setX e r v).getX e r = if r = 0 then 0 else v := by
  unfold Chip.setX Chip.getX
  by_cases h : r = 0 <;> simp [h]
@[simp] theorem getX_setWstat (c : Chip) (e a b d r) : (c.setWstat e a b d).getX e r = c.getX e r := by
  simp [Chip.setWstat, Chip.getX]
@[simp] theorem weir_setX (c : Chip) (e r v k) : (c.setX e r v).weir k = c.weir k := by
  unfold Chip.setX; split <;> rfl
@[simp] theorem weir_setWstat (c : Chip) (e a b d k) : (c.setWstat e a b d).weir k = c.weir k := rfl
@[simp] theorem wstat_setWstat (c : Chip) (e a b d) : ((c.setWstat e a b d).eng (engNum e)).wstat = BitVec.ofNat 64 (a.toNat + 2 * b.toNat + 4 * d.toNat) := by
  simp [Chip.setWstat]
@[simp] theorem weir_cisSync (c : Chip) (q k) : (c.cisSync q).weir k = c.weir k := by
  unfold Chip.cisSync; dsimp only; split <;> rfl
@[simp] theorem weir_updWeir (c : Chip) (a b f) : (c.updWeir a b f).weir (weirKey a b) = f (c.weir (weirKey a b)) := by
  unfold Chip.updWeir; dsimp only; split <;> simp
theorem weir_updWeir_other (c : Chip) (a b f j) (h : j ≠ weirKey a b) : (c.updWeir a b f).weir j = c.weir j := by
  unfold Chip.updWeir; dsimp only; split <;> simp [weir_setWeir_other _ _ _ _ h]
theorem frame_cisSync (c : Chip) (q) : (c.cisSync q) = { c with core := (c.cisSync q).core } := by
  unfold Chip.cisSync; dsimp only; split <;> rfl
theorem frame_updWeir (c : Chip) (a b f) : (c.updWeir a b f) = { c with core := (c.updWeir a b f).core } := by
  unfold Chip.updWeir; dsimp only; split
  · rw [frame_cisSync]; rfl
  · rfl
theorem frame_setX (c : Chip) (e r v) : (c.setX e r v) = { c with core := (c.setX e r v).core } := by
  unfold Chip.setX; split <;> rfl
theorem mine_setMine (w : Weir) (n ws) : (w.setMine n ws).mine n = ws := by simp [Weir.setMine, Weir.mine]
theorem mine_setMine_other (w : Weir) (n m ws) (h : m ≠ n) : (w.setMine n ws).mine m = w.mine m := by simp [Weir.setMine, Weir.mine, Cells.get_put_other _ _ _ _ _ h]
@[simp] theorem items_setMine (w : Weir) (n ws) : (w.setMine n ws).items = w.items := rfl
@[simp] theorem getX_updWeir (c : Chip) (a b f e r) : (c.updWeir a b f).getX e r = c.getX e r := by
  unfold Chip.updWeir; dsimp only; split
  · unfold Chip.cisSync; dsimp only; split <;> rfl
  · rfl

end Sys2Proof.Machine
end

