-- ==== Sys2Proof/Tests/Slice0.lean ====
section
/-! SUPPORT. Tests: an ill-formed term for each check, worked examples of the spec, and for each statement states and operands that meet its
hypotheses, clause by clause. -/

namespace Sys2Proof.Tests

open Machine

/-! The tests are elaborated one after another: each waits for the kernel. -/
set_option Elab.async false

/-! ### Ill-formed commands: one for each check of `Instr.wf` -/

theorem test_wf_loopTick : (Instr.loopTick 0 ⟨true, true, true, true, 0, 0⟩ [⟨16385, 0⟩]).wf = false := by decide
theorem test_wf_servoValuesDelivered : (Instr.servoValuesDelivered 0 [⟨0, 0, 0, 0, 0, 0⟩]).wf = false := by decide
theorem test_wf_motionValuesDelivered : (Instr.motionValuesDelivered 0 ⟨0, 0, 0, 0, 0, 0, 50 * 4095 + 1, 0, 0, 0, 0⟩).wf = false := by decide
theorem test_wf_agingMeasurement : (Instr.agingMeasurement .h 0 1024).wf = false := by decide
theorem test_wf_laneSlotStart : (Instr.laneSlotStart 0 (lastSlot + 1)).wf = false := by decide
theorem test_wf_gaddrDecode : (Instr.gaddrDecode 0 [1, 2]).wf = false := by decide
theorem test_wf_defectOnset : (Instr.defectOnset 0 57344).wf = false := by decide
theorem test_wf_defectEnd : (Instr.defectEnd 0 5 [(9, 8)]).wf = false := by decide
theorem test_wf_blankDecision : (Instr.blankDecision 0 849).wf = false := by decide
theorem test_wf_spanConfirm : (Instr.spanConfirm 0 ⟨[], [], [], [], [], []⟩).wf = false := by decide
theorem test_wf_xtiTimeout : (Instr.xtiTimeout 0 ⟨[], [], [], [], [], []⟩).wf = false := by decide
theorem test_wf_outerDecode : (Instr.outerDecode 0 0 244160).wf = false := by decide
theorem test_wf_verifyResult : (Instr.verifyResult 0 ⟨[], true, 0, 0⟩).wf = false := by decide
theorem test_wf_paritySweep : (Instr.paritySweep 0 0 0 3814 2).wf = false := by decide
theorem test_wf_survey : (Instr.survey 0 0 246208 0).wf = false := by decide
theorem test_wf_dataCapsule : (Instr.dataCapsule 0 3 0 ⟨9, 0, 64, 0, true⟩ [1]).wf = false := by decide
theorem test_wf_calCycleDone : (Instr.calCycleDone 0 [0]).wf = false := by decide
theorem test_wf_samplePreload : (Instr.samplePreload []).wf = false := by decide
theorem test_wf_engineMemoryAccess : (Instr.engineMemoryAccess (.core 0) .load 0 3 0 0).wf = false := by decide

/-- The dispatch stops on such a command. -/
theorem test_ill_formed_stops : exec (.gaddrDecode 0 [1, 2]) {} = .fault .illFormed := rfl

/-- A state with nothing waiting. -/
def st (f : Chip → Chip) : State := { chip := f {} }

/-! ### Worked examples of the spec -/

/-- Words of the focus program (the example after R320). -/
theorem test_tolek_words : tolekInstr 0 0x24000009#32 = some (.tIn 0 0 9) ∧ tolekInstr 0 0xA8000600#32 = some (.tMac 0 0 0 3) ∧
    tolekInstr 0 0xC1DCC800#32 = some (.tLim 0 7 7 6 1) := by decide +kernel

/-- LBA 100,000,005 of side 1 (Table 2.12), and the slot it takes when it is relocated (the example before R274). -/
theorem test_home_pba : homePba 1 100000005 = 0xBD0009AE92 ∧ pbaLba 0xBD0009AE92 = some 100000005 ∧ spareBase 20 = 662680 := by decide +kernel

/-- LP_STATION3 of the example before Table 16.13. -/
theorem test_lp_station : (((st fun c => ((((c.setFld (WMM_STN_STATE_STATE 3) sMounted).setFld (WMM_STN_STATE_DISC_PRESENT 3) 1).setFld
    (WMM_STN_STATE_CLAMPED 3) 1).setFld (WMM_STN_STATE_CAUSE 3) 6).setStn 3 { changes := 0x17 }).chip).lpWord 0x02C).1 = 0x0006171C#32 := by
  decide +kernel

/-! ### States and operands of the witnesses -/

/-- Sealed, with the Flume up. -/
def up (c : Chip) : Chip := (c.setFld FLM_STATUS_UP 1).setFld GEN_CONFIG_SEALED 1
def upSt : State := st up
def scratchDef : RegDef := ⟨0x18, [], true, [⟨0, 64, .rw, .p, 0, []⟩]⟩
def twoFields : RegDef := ⟨0, [], false, [⟨0, 8, .rw, .p, 3, [(0, 100)]⟩, ⟨8, 8, .w1c, .w, 0, []⟩, ⟨16, 1, .wo, .w, 0, []⟩, ⟨17, 1, .ro, .w, 0, []⟩]⟩
def latched : State := st fun c => c.setAgent 0 { c.agent 0 with writeLatch := some (0x18, 0x55667788#32) }
def sealedDown : State := st fun c => c.setFld GEN_CONFIG_SEALED 1
/-- Buffer DRAM of 128 GiB whose first unit is good, with the Flume up. -/
def dramSt : State := st fun c => (((up c).setFld BUF_STATUS_SIZE_GIB 128).setUnitMark 0 .good).putBytes 0 [1, 2, 3, 4, 5, 6, 7, 8, 9]
def wordsSt : State := st fun c => (up c).setX (.core 0) 2 0x50000#64 |>.pushItem (weirKey 5 0) [5#64, 6#64]
def lastWordSt : State := st fun c => (up c).setX (.core 0) 2 0x50000#64 |>.setWeir (weirKey 5 0) { items := [[⟨5#64, true⟩], [⟨7#64, false⟩]] }
def emptyWeirSt : State := st fun c => (up c).setX (.core 0) 2 0x50000#64
def stalledSt : State := st fun c => (up c).setWeir (weirKey 5 0) { items := [[⟨5#64, false⟩, ⟨6#64, false⟩]], stalls := [⟨.core 0, .peek, 3, 0⟩] }
def producerSt : State := st fun c => (up c).setX (.core 0) 2 0x30004#64 |>.setX (.core 0) 3 0x99#64
def producedSt : State := st fun c => (up c).setX (.core 0) 2 0x30004#64 |>.setWeir (weirKey 3 4) { uncommitted := [(0, [⟨1#64, false⟩, ⟨2#64, false⟩]), (1, [⟨3#64, false⟩])] }
def loggedSt : State := st fun c => (up c).setX (.core 0) 2 0x60000#64 |>.setWeir (weirKey 6 0) { items := [[⟨9#64, false⟩]], uncommitted := [(0, [⟨1#64, false⟩, ⟨2#64, false⟩])] }
def pushStallSt : State := st fun c => (up c).setWeir (weirKey 3 4) { stalls := [⟨.core 0, .push, 0, 0x77⟩] }
def closedSt : State := st fun c => (up c).setX (.core 0) 2 0x50000#64 |>.setX (.core 0) 4 0x30004#64 |>.setWeir (weirKey 5 0) { items := [[⟨5#64, false⟩]], closed := true } |>.setWeir (weirKey 3 4) { closed := true }
/-- A packet with its CRC, sequence number 0. -/
def pkt (ty unit tag : Nat) (pl : List (BitVec 32)) : Rx :=
  let h := BitVec.ofNat 64 (ty + unit * 2 ^ 20 + pl.length * 2 ^ 28 + tag * 2 ^ 48)
  ⟨h, pl, crc32 (leBytes 8 h.toNat ++ pl.flatMap (fun w => leBytes 4 w.toNat))⟩
def badPkt : Rx := { pkt 0 0 0 [] with crc := 0 }
def partSt : State := st fun c => ((up c).setFlume .toM { (up c).arch.toM with partials := Cells.put (fun _ => []) [] (2 ^ 25 + 3) [1#32, 2#32] })
def blockSt : State := st fun c => ((up c).setFlume .toH { (up c).arch.toH with partials := Cells.put (fun _ => []) [] 9 (List.replicate 1031 7#32) })
def blockShortSt : State := st fun c => ((up c).setFlume .toH { (up c).arch.toH with partials := Cells.put (fun _ => []) [] 9 [7#32] })
def writeSt : State := st fun c => ((up c).setFlume .toM { (up c).arch.toM with partials := Cells.put (fun _ => []) [] (65536 * 3 + 9) (List.replicate 1031 7#32) })
def sendSt : State := st fun c => (up c).setFlume .toM { (up c).arch.toM with ready := [⟨6, 0, 1, 0, [1]⟩, ⟨5, 0, 2, 0, [2]⟩, ⟨3, 0, 3, 0, [3]⟩, ⟨3, 0, 4, 0, [4]⟩], credits := [0, 2, 0, 0] }
def replaySt : State := st fun c => (up c).setFlume .toM { (up c).arch.toM with replay := [⟨5, 7, 2, 0, [2]⟩, ⟨3, 8, 3, 0, [3]⟩, ⟨3, 9, 4, 0, [4]⟩], nextSeq := 10, lastReplay := some 8, sameReplays := 2 }
def retrainSt : State := st fun c => (up c).setFld FLM_STATUS_RETRAINING 1 |>.setFld FLM_STATUS_WIDTH 2
def downSt : State := st id
def alignedSt : State := st fun c => (up c).setFld FLM_STATUS_LEDGER_ALIGNED 1
def heartSt : State := st fun c => (up c).setWm .h { c.wm .h with missFlume := true }
def badHandleSt : State := st fun c => (up c).setX (.core 0) 2 0x100000#64
/-- Engine 0 in a run that stands at a word. -/
def tk (w : Q) (f : TolekRec → TolekRec) : State := st fun c => (up c).setTolek 0 (f
  { prog := [(0, w)], running := true, role := 1, banks := [(3, 0x18000000#32)],
    ctx := { v := [(1, 0x50000000#32), (2, 0xD0000000#32), (3, 0x80000000#32)], a := [(1, 0x7FFFFFFFFFFFFFFF#64)], h := [(1, 1)], data := [(5, 77#32)] } })
def sqSt : State := tk (tWord 0x1C (fmtVVV 4 1 0)) id
/-- A pair with its even engine alone, whose run has reached END or not; its program is not the resident one. -/
def soloSt (q : Nat) (ended : Bool) : State := st fun c => ((up c).setFld (LE_PAIR_CTRL_RUN q) 1).setPair q { hasRun := true, period := 5, gate := [(1, 3#32)] }
  |>.setTolek (2 * q) { role := 1, ended := ended, running := !ended, entries := [some 7, some 8, none, none], outs := [(0, 9#32), (2, 8#32)], written := [0, 2], last := [(1, 4#32)], ctx := { v := [(1, 1#32)] }, saved := { v := [(1, 2#32)], data := [(3, 3#32)] }, prog := [(7, 1#32)] } |>.setTolek (2 * q + 1) { role := 4 }
def tickIn : TickIn := ⟨true, true, true, true, 100, 100⟩
def sampleIn : ServoSample := ⟨2100, 2200, 2300, 2400, 2500, 2600⟩
def fullCmds : State := st fun c => (up c).setPair 0 { cmds := [(1, 0), (2, 0), (3, 0), (4, 0)], params := [(3, 5#32)] }
def copySt : State := st fun c => (up c).setTolek 0 { role := 1, pc := 9, calls := [3], prog := [(7, 1#32)], ctx := { v := [(1, 1#32)] } } |>.setTolek 1 { role := 3, prog := [(8, 1#32)] }
def testSt : State := st fun c => (up c).setTolek 0 { role := 1 } |>.setTolek 1 { role := 4, fault := true } |>.setPair 0 { testing := some 1 }
def faultedSt : State := st fun c => (up c).setTolek 0 { role := 1 } |>.setTolek 1 { role := 4, fault := true } |>.setFld (WMM_PAIR_CTRL_SWAP_EN 0) 1 |>.setPair 0 { swap := true, testing := none }
def linkSt : State := st fun c => (((up c).setFld (AFE_LINK_STATUS_RUNNING 2) 1).setFld (AFE_LINK_STATUS_SEQ 2) 255 |>.setFld (AFE_LINK_STATUS_WSEL 2) 1).setLink 2 { sent := true }
def cfgSt : State := st fun c => ((up c).setFld (AFE_LANE_CFG_GAIN 0 3) 5).setFld (AFE_LANE_CFG_PENDING 0 3) 1 |>.setFld (AFE_LANE_OFFSET_OFFSET 0 3) 9
def thSt : State := st fun c => ((up c).setFld (AFE_PU_CTRL_TH_EN 3) 1)
def lockedSt : State := st fun c => ((up c).setFld AFE_PLL_STATUS_LOCKED 1)
/-- Pickup 3's pair runs its resident program, in a given state of it. -/
def lpSt (g : LoopProg) : State := st fun c => (((up c).setFld (LE_PAIR_CTRL_RUN 3) 1).setPair 3 { resident := true }).setLoop 3 g
def trackG : LoopProg := { state := lTracking, layer := 2, focusLock := true, trackLock := true, offtrack := false, closed := true, positions := [1, 2, 3, 4, 5, 6, 7, 8, 9, 10, 11], seq := 255, retry := 2, trim := 5, tracking := 77 }
def busyG : LoopProg := { trackG with cmd := some ⟨0x0A, 4, 0⟩, busy := true }
def seqSt (g : LoopProg) (q : SeqRec) : State := { lpSt g with chip := (lpSt g).chip.setSeqr 3 q }
/-- Station 2 in a state, its clamp as given. -/
def stnSt (n : Nat) (clamped : Bool) (f : Chip → Chip) : State := st fun c => f (((up c).setFld (WMM_STN_STATE_STATE 2) n).setFlag (WMM_STN_STATE_CLAMPED 2) clamped)
def clampSt : State := stnSt sEmpty false fun c => c.setFld (WMM_STN_CTRL_CLAMP_REQ 2) 1
def settleSt : State := stnSt sEmpty true fun c => (c.setFld (WMM_STN_CTRL_CLAMP_REQ 2) 1).setStn 2 { settling := true }
def parkingSt (k : Nat) : State := stnSt sParking true fun c => ((((c.setFld (WMM_STN_CTRL_CLAMP_REQ 2) 1).setFld (LE_PAIR_CTRL_ENTRY 18) 1).setFld (LE_PAIR_EVENT_ESCALATED 5) 1).setFld (WMM_STN_STATE_CAUSE 2) cauHostPark).setStn 2 { parkStep := k, causes := [cauHostPark] }
def motEscSt : State := st fun c => (((up c).setFld (LE_PAIR_EVENT_ESCALATED 18) 1).setFld (LE_PAIR_CTRL_ENTRY 18) 1).setPair 18 { entry := 1, hasRun := true, gate := [(1, 5#32)] }
def qualSt : State := stnSt sQualify true fun c => c.setVol 4 { qual := some { step := 4, waiters := [7] } }
def quietSt : State := stnSt sMounted true fun c => c.setFld (SPN_CTRL_QUIET 2) 1
/-- A request of 3 blocks waits for the channel sequencer of a mounted volume. -/
def requestSt : State := st fun c => ((up c).setFld (WMM_STN_PU_VOLUME_STATE 2 0) vMountedRead).setWeir (weirKey 3 4) { items := [[⟨0x100000009#64, false⟩, ⟨100#64, false⟩, ⟨3#64, true⟩]] } |>.setSeqr 4 { online := true }
/-- Station 2's motion pair runs its resident program, in a given state of it. -/
def motSt (g : MotionProg) : State := st fun c => (((up c).setFld (LE_PAIR_CTRL_RUN 18) 1).setPair 18 { resident := true, inputs := [(11, 4#32), (12, 6#32), (13, 7#32)] }).setMotion 2 g
def spnSt (f : Chip → Chip) : State := st fun c => f (((up c).setSpn 2 { lastPhase := some 1, next := [1, 2, 3], nextMode := 1, cut := true }).setFld (SPN_STATUS_TACH 2) 900 |>.setFld (SPN_CFG_POLE_PAIRS 2) 4 |>.setFld (SPN_CFG_SB_MAX 2) 1000)
def sledSt (k : ChopRec) (decay : Nat) : State := st fun c => ((up c).setSled 4 { a := k, psRun := true, frozen := some (0x4000000#32, 0x4000000#32) }).setFld (MOT_AX_CTRL_DECAY 4) decay
def centreSt : State := st fun c => ((up c).setFld (MOT_AX_STATUS_FOLLOW 4) 1 |>.setFld (CAL_PU_TSENS_SENS 4) 200).setSeqr 4 { trackSum := 1000, trackN := 3 }
def vals : LoopVals := { g := 512 * 65536, a := 0, b := 0, taps := (List.replicate 17 0).set 8 (2048 * 65536), xin := [0, 0, 0, 0, 0], xout := [0, 0, 0, 0, 0], amp := 65536, levelRef := 40, mse := 64 }
def zent : ZEntry := { learned := true, factory := false, count := 3, gain := 24, corner := 15, boost := 0, offset := 0, dgain := 512, baseline := 0, asym := 0, taps := (List.replicate 17 0).set 8 2048, xin := [0, 0, 0, 0, 0], xout := [0, 0, 0, 0, 0], amp := 1, mse := 64, levelRef := 40 }
/-- Lane 11 in a given state. -/
def laneSt (x : LaneRec) (f : Chip → Chip := id) : State := st fun c => f ((up c).setLane 11 x)
def curU : LaneCur := { report := { pba := 100 } }
def zeros (n : Nat) : List Int := List.replicate n 0
def span0 : SpanIn := ⟨zeros 920, zeros 920, zeros 916, zeros 916, zeros 852, zeros 852⟩
def decIt : DecItem := { lane := 11, report := { pba := 100 }, flywheel := false, reframed := false, address := true, tag := .ok, home := 100, tagFlags := 0, tagBits := [], starts := [], iter := 0, iterMax := 3, llr := some [] }
def iterB : LdpcBlk := { item := decIt, g := 2, input := [] }
def iterY : LaneSlot := { pba := 100, w := [], mse := 64, holds := [], deep := [], v := vals, held := 0, blank := false, addr := none }
def iterSt : State := laneSt { store := [iterY] } fun c => c.setFrm 1 { iterating := [iterB] }
/-- A framer of lane 11 works on a frame. -/
def frSt (f : FrameCur) : State := laneSt {} fun c => c.setFrame 11 (some f)
def frItem (at_ : Nat) (pat : List Bool) : LaneItem := ⟨{ pba := 100 }, zeros at_ ++ pat.map (fun b => if b then -8 else 8)⟩
def okFrame : FrameCur := { item := frItem 2885 resyncP1, y := some (0, 500), windowEnd := true, tag := .ok }
def ldpcB : LdpcBlk := { item := decIt, input := [] }
def ldpcSt (b : LdpcBlk) : State := laneSt { store := [iterY] } fun c => c.setFrm 1 { active := some b }
def clusterSt : State := st fun c => (up c).setFrm 1 { clusters := [(clusterKey 2 7, { whole := true, members := [(3, { state := .zero, known := true })] })] }
def readQ : ReadReq := { number := 9, kind := .read, lba := 100, left := [homePba 0 100] }
def retryR : Retry := { attempt := 1, blocks := [(homePba 0 100, 1, false)] }
def retrySt : State := st fun c => (((up c).setFld (WMM_STN_PU_VOLUME_STATE 0 1) vMountedRead).setFrm 1 { retry := some retryR, reqs := [readQ], clusters := [(5, { whole := true })] }).setSeqr 1 { online := true } |> fun c => { c with afe := { c.afe with resumed := true } }
/-- Pickup 1 is mounted for writing at 4,200 rpm, with pass and items as given. -/
def wrSt (w : WchRec) (f : Chip → Chip := id) : State := st fun c =>
  let c := ((((up c).setFld (WMM_STN_PU_VOLUME_STATE 0 1) vMountedWrite).setFld (WMM_STN_STATE_STATE 0) sMounted).setStn 0 { aim := 4200 }).setFld (WCH_CTRL_EN 1) 1
  let c := (((c.setFld (SPN_STATUS_AT_SPEED 0) 1).setLoop 1 { focusLock := true, trackLock := true }).setSeqr 1 { online := true }).setFld (RCH_STATUS_WOBBLE_LOCK 8) 1
  let c := c.setWch 1 w
  f { c with afe := { c.afe with resumed := true } }
def wItem : WriteItem := { slotPba := mkPba 0 0 0 16640, homePba := mkPba 0 0 0 16640, flags := 0, gen := 1, volumeId := 5, request := 0, user := [] }
def wPass : Pass := { s1 := 16640, s2 := 16641, furrow := 0, layer := 0, side := 0, at_ := 16640 }
def readyW : WchRec := { items := [wItem], queued := some wPass, goodW := [mkPba 0 0 0 16639], framesP := 2, framesB := 2, framesC := 2, framesE := 2 }
def vIn : VerifyIn := ⟨List.replicate 57352 false, false, 0, 0⟩
def sweepSt : State := wrSt {} fun c => (c.setAcc (accKey 1 0 0) { live := true, done := List.range 56 }).setFld (WCH_CTRL_PARITY_IDLE 1) 1
def stagedE : Staged := { seq := 1, volumeId := 0, side := 0, state := 1, lba := 0, homePba := mkPba 0 0 0 16640, session := 1, slot := 0, at_ := 0, queue := 1, tag := 1, survey := true }
def surveySt : State := wrSt {} fun c => { c with buf := { c.buf with staged := [stagedE] } }
/-- Channel sequencer 1 with registers 2 and 3. -/
def xfSt (a b : Word) (f : Chip → Chip := id) : State := wrSt {} fun c => f ((c.setX (.cs 1) 2 a).setX (.cs 1) 3 b)
/-- Both watermasters run, WM-H ACTIVE and WM-M STANDBY. -/
def roles (c : Chip) : Chip := ((up c).setFld WMH_ROLE_ROLE roleActive).setFld WMM_ROLE_ROLE roleStandby
def roleSt (f : Chip → Chip := id) : State := st fun c => f (roles c)
def waitingSt (act : Nat) : State := roleSt fun c => c.setWm .h { c.wm .h with waiting := [⟨4, act, 2⟩], seq := 4 }
def restoreSt : State := roleSt fun c => (c.setFld WMM_ROLE_ROLE roleFailed).setWm .m { c.wm .m with restoring := true, unsynced := true }
def fedSt (d : Die) : State := st fun c => c.setWm d { c.wm d with fed := some 5 }
def psSt : State := st fun c => (((up c).setFld WMM_PS_STATUS_ACTED 1).setFld (WMM_STN_STATE_STATE 2) sParking).setFld (WMM_STN_STATE_CAUSE 2) cauSpindle
def lostSt : State := st fun c => ((c.setFld (WMM_STN_STATE_STATE 2) sMounted).setFld WMM_ROLE_ROLE roleStandby).setFld WMH_ROLE_ROLE roleActive
def coreSt (n : Nat) : State := st fun c => (up c).setReg WMH_CORES (BitVec.ofNat 64 n) |>.setWeir (weirKey 4 3) { items := [[⟨5#64, false⟩]] }
def csSt (q : SeqRec) : State := st fun c => (up c).setSeqr 5 q
def cycleSt (item : Nat) : State := st fun c => (((up c).setFld (CAL_PU_STATUS_CYCLE 5) 1).setFld (CAL_PU_STATUS_ITEM 5) item).setFld (CAL_PU_CTRL_ITEM 5) item
def armedSt : State := st fun c => (up c).setLane 41 { run := some ⟨5, 6, false, 0⟩ }
def autoSt : State := st fun c => (up c).setFld CAL_CTRL_PLL_AUTO 1
def stepSt (from_ : Option Nat) (rev : Bool) : State := st fun c => (((up c).setFld CAL_PLL_PENDING 1).setFld CAL_PLL_BAND 30).setThermal { c.thermal with stepFrom := from_, reverse := rev }
def warnSt (upW : Nat) : State := st fun c => (up c).setHeat 0 { upW := upW }
def throttleSt : State := st fun c => ((up c).setFld THH_STATUS_LEVEL 2).setHeat 0 { lvl := 2, holding := true, downW := 2 }
/-- Command 9 of queue 3, of core 2. -/
def cmdM (op : Nat) : Cmd := { uid := 5, queue := 3, port := 0, tag := 9, opcode := op, flags := 0, volume := 1, arg0 := 100, arg1 := 4, arg2 := 0, arg3 := 0, entries := [(0x10000, 4096)], capsules := 1, commitAt := 0, core := some 2 }
/-- Queue and ring 3 of port A, the cores in service, and the given commands. -/
def hostSt (ms : List Cmd) (q : IQueue := { created := true, ring := 3 }) (f : Chip → Chip := id) : State := st fun c =>
  let c := (((up c).setReg WMH_CORES 0xFFF).setFld BUF_STATUS_SIZE_GIB 128)
  f { c with host := { c.host with cmds := ms, nextUid := 9, queues := [(3, q)], rings := [(3, { created := true, sizeLog2 := 4, base := 0x1000 })], configRetry := false } }
def winQ : IQueue := { created := true, ring := 3, expPos := 33, head := 33, open_ := [1], dataExp := 65535, dataHead := 65535, doneTags := [9], core := some 2 }
def dataH : DataHeader := ⟨9, 0, 64, 65535, true⟩
def takeSt : State := hostSt [] { winQ with sets := [⟨[List.replicate 64 0x10], 5, 0, 0⟩] } fun c => c.setWeir (weirKey 1 3) { items := [[⟨5#64, false⟩, ⟨5#64, false⟩]] }
def evRec : RingRec := ⟨3, 0, 0xFFFF, 0, 5, 0, 0⟩
def ringG : Ring := { created := true, sizeLog2 := 4, base := 0x1000, next := 15, head := 3, events := [evRec] }
def doneSt : State := hostSt [{ cmdM opRead with inPath := true, started := true, status := some 0 }] { created := true, ring := 3, order := [5] } fun c => c.setWeir (weirKey 2 3) { items := [(recordWords ⟨0, 9, 3, 0, 0, 0, 0⟩).map (fun w => ⟨w, false⟩)] }
def timerG : Ring := { created := true, sizeLog2 := 4, intEn := true, intTime := 3, firstAt := some 4, vector := 2 }
/-- The given command, with volume 1 mounted. -/
def volSt (v : Nat) (ms : List Cmd) (f : Chip → Chip := id) : State := hostSt ms { created := true, ring := 3, written := 77 } fun c =>
  f (((c.setFld (WMM_STN_PU_VOLUME_STATE 0 1) v).setFld (WMM_STN_STATE_STATE 0) sMounted).setFlume .toM { credits := [9, 9, 9, 9] })
def blankSt : State := volSt vMountedWrite [{ cmdM opWrite with arg1 := 2 }] fun c => ((c.setRec 1 100 .blank).setRec 1 101 .blank).setVol 1 { layers := [(0, { valid := true })] }
def grantM : Cmd := { cmdM opWrite with started := true, arg1 := 2, restore := [(100, 1), (101, 1)] }
def stageM : Cmd := { cmdM opStage with arg0 := 1, arg1 := 2000000 }
def drainE : Staged := { stagedE with survey := false }
def drainSt : State := volSt vMountedWrite [] fun c =>
  let c := ((List.range 64).foldl (fun c i => c.setUnitMark (slotAddr 0 / 64 + i) .good) c)
  { c with buf := { c.buf with staged := [drainE], slotsUsed := [0] }, arch := { c.arch with ledgerH := 0x100000000000 } }
def stn0 (n : Nat) (ms : List Cmd) (f : Chip → Chip := id) : State := hostSt ms { created := true, ring := 3 } fun c => f ((c.setFld (WMM_STN_STATE_STATE 0) n).setReg WMM_CS 0xFFFF)
def parkM (fn : Nat) : Cmd := { cmdM opStation with arg0 := 256 * fn }
def closeM : Cmd := cmdM opClose
def logSt : State := hostSt [{ cmdM opGetLog with arg0 := 1, arg1 := 0, arg2 := 32 }] { created := true, ring := 3 } fun c =>
  let c := (c.setUnitMark (mib / 64) .good).putBytes mib [1, 2, 3]
  { c with core := { c.core with logged := 1 } }
def cacheSt : State := hostSt [{ cmdM opCache with arg0 := 0 }] { created := true, ring := 3 } fun c => ((c.setFld CCH_CTRL_ENABLED 1).setCacheSet 0 { ways := [(0, some { line := 0, dirty := true, data := [(1, some 7)] })] })
def img0 : List Byte := List.replicate 80 1
def actSt : State := hostSt [{ cmdM opActivate with arg0 := 1 }] { created := true, ring := 3 } fun c => c.setBoot { c.boot with staged := [(0, img0)] }
/-- The Flume up, buffer DRAM of 128 GiB, and the units from byte `a` on good for `n` bytes. -/
def bufSt (a n : Nat) (f : Chip → Chip := id) : State := st fun c =>
  f ((((unitsOf a n).foldl (fun c u => c.setUnitMark u .good) ((up c).setFld BUF_STATUS_SIZE_GIB 128)).putBytes a [1, 2, 3, 4]).setReg WMH_CORES 0xFFF)
def dirtyL : Line := { line := 0, dirty := true, data := [(1, some 7), (4095, some 9)] }
def cleanL : Line := { line := 0, dirty := false }
def setSt (l : Line) (f : Chip → Chip := id) : State := bufSt 0 4096 fun c => f (c.setCacheSet 0 { ways := [(2, some l)] })
def victimSt (l : Line) : State := bufSt 0 4096 fun c => { c with buf := { c.buf with victims := [l] } }
def evictSt (l : Line) : State := bufSt 0 4096 fun c => { c with buf := { c.buf with evicts := [l] } }
def missM : Cmd := { cmdM opRead with started := true }
def missSt : State := bufSt 0 4096 fun c =>
  { c.setFld CCH_CTRL_ENABLED 1 with host := { c.host with cmds := [missM] }, buf := { c.buf with misses := [⟨0, [.push 5 1]⟩] } }
def spillSt : State := bufSt (2 ^ 30) 8192 fun c =>
  let c := ((((c.setFld CIS_CTRL_LOW_FREE 0x3FFFF).setFld CIS_CTRL_RECALL_AHEAD 0).setFld CIS_DEEP_BASE_BASE 1024).setFld CIS_DEEP_SIZE_SIZE 16).setCisQ 6 { mid := [⟨3, none⟩] }
  { c with core := { c.core with spilling := true } }
def recallSt : State := bufSt (2 ^ 30) 8192 fun c => (((c.setFld CIS_CTRL_RECALL_AHEAD 2).setFld CIS_DEEP_BASE_BASE 1024).setFld CIS_DEEP_SIZE_SIZE 16).setCisQ 6 { mid := [⟨3, none⟩, ⟨4, some 5⟩] }
def logWords1 : List WWord := [⟨0x1122334455667788#64, false⟩, ⟨1#64, false⟩, ⟨2#64, false⟩, ⟨3#64, false⟩]
def logEntrySt : State := bufSt (mib + 32) 32 fun c => { (c.setWeir (weirKey 6 0) { items := [logWords1] }) with core := { (c.setWeir (weirKey 6 0) { items := [logWords1] }).core with logged := 32769 } }
/-- A block with its head: volume 1, LBA 100 (+ `i`), request of core 2, slot 3, generation `gen`. -/
def blockItem (i gen : Nat) : List WWord :=
  ([BitVec.ofNat 64 (2 ^ 40 * 1 + 2 ^ 48 * (100 + i)), 0#64, 0#64, BitVec.ofNat 64 (2 * 2 ^ 28 + gen * 2 ^ 20 + 3)] ++ List.replicate 512 7#64).map (fun w => ⟨w, false⟩)
def arrivalSt (i gen : Nat) : State := bufSt (fillAddr 2 3) 64 fun c =>
  ((c.putBytes (fillAddr 2 3) (fillBytes 5000 100 1 9 0 4)).setWeir (weirKey 16 0) { items := [blockItem i gen] })
def staleSt : State := bufSt (fillAddr 2 3) 64 fun c => c.putBytes (fillAddr 2 3) (fillBytes 5000 100 1 255 0 4)
def initScrubSt : State := bufSt 0 256 fun c => { (c.putBytes 60 [9, 9, 9, 9, 9, 9, 9, 9]) with buf := { (c.putBytes 60 [9, 9, 9, 9, 9, 9, 9, 9]).buf with scrub := { busy := true, init := true, start := 64, len := 64 } } }
/-- Start-up in stage 4, waiting for images; the owner key not fused. -/
def bootSt (stage : Nat) (f : Chip → Chip := id) : State := bufSt (1120 * mib) 1024 fun c => f (((c.setFld BOOT_STATUS_STAGE stage).setFld BOOT_HOST_STATUS_BUSY 0).setFld BOOT_HOST_LENGTH_LENGTH 64)
def cfgRec : List Byte := let r := asciiBytes "KNFCFG01" ++ List.replicate 244 0; r ++ leBytes 4 (cfgCrc r)
def cfg256 : List Byte := List.replicate 256 1
def mailSt (stage : Nat) (bs : List Byte) : State := bootSt stage fun c => c.setBoot { c.boot with mailbox := Cells.putRun (fun _ => 0) [] 0 bs }
def goodIn : BootIn := ⟨true, true, true, 30, 0xFFFF, 0xFFFF, 0, true, true, true, 0xFFF, true, true, 0xFFFF, 0xFFFFFFFFFFFF⟩
def acceptedSt : State := bootSt 4 fun c => (List.range 5).foldl (fun c k => c.setFld (BOOT_IMAGE_STATE k) 1) c
def persistSt (n : Nat) : State := st fun c => (up c).setBoot { c.boot with persisting := [1], running := [(1, List.replicate n 0)] }
def opSt (u : FlashUse) : State := st fun c => ((up c).setFld BOOT_HOST_STATUS_BUSY 1).setBoot { c.boot with ops := [⟨u, none⟩], persisting := [2] }
def offSt : State := st fun c => (up c).setBoot { c.boot with powered := false }
def lpSt0 : State := st fun c => { up c with servo := { (up c).servo with lpTimes := [(2, 0x1122334455667788#64)], lpLatch := some (0x050, 5#32) } }
def tolekFlow1 := (tk (tWord 0x00 0) fun t => { t with loops := [⟨7, 0, 2, 0⟩, ⟨1, 9, 3, 0⟩] })
def tolekFlow2 := (tk (tWord 0x3D 0) fun t => { t with calls := [50, 60], loops := [⟨1, 9, 3, 2⟩, ⟨1, 9, 3, 0⟩] })
def tolekFlow3 := (tk (tWord 0x3E 0) fun t => { t with calls := [50, 60], loops := [⟨1, 9, 3, 0⟩] })
def tolekFaults1 := (tk 0 fun t => { t with prog := [], pc := 4095 })
def tolekFaults2 := (tk (tWord 0x3B (fmtLP 3 9)) fun t => { t with loops := [⟨1, 9, 3, 0⟩, ⟨1, 9, 3, 0⟩] })
def pairRepairs1 := { testSt with chip := testSt.chip.setTolek 0 { role := 1 } }
def loopCommands1 := (lpSt {})
def loopEvents1 := (lpSt { state := lSweep, phase := 1, focus := 0x7FFFFFFF, curves := [1,2,3,4,5,6,7,8,9,10,11] })
def loopEvents2 := (lpSt { state := lAcquire, phase := 1, crossed := true })
def loopEvents3 := { busyG with state := lAcquire, phase := 2, good := 40, target := 7 }
def loopEvents4 := { busyG with state := lPullIn, closed := true, good := 40, cmd := some ⟨3, 0, 0⟩ }
def loopEvents5 := { busyG with state := lJump, phase := 0, cycles := 4, count := 9, cmd := some ⟨4, 0xFC, 0⟩ }
def loopEvents6 := { busyG with state := lLayerJump, phase := 2, count := 100000 }
def loopEvents7 := { busyG with state := lAcquire, phase := 3, focus := 0, cmd := none }
def loopEvents8 := { busyG with count := 10000, cmd := some ⟨0x0B, 5, 3⟩ }
def loopLosses1 := { busyG with bad := 4 }
def loopLosses2 := { trackG with off := 40 }
def loopLosses3 := { busyG with state := lPullIn, count := 2000, trackLock := false }
def loopLosses4 := (seqSt trackG { checkDue := true, intended := 2, recovering := true })
def loopLosses5 := (seqSt trackG { slips := [(5, 0, 1), (5, 1, 1)] })
def loopLosses6 := (seqSt trackG { seek := some ⟨mkPba 0 2 0 300000, 0, 0, 1⟩ })
def motionCommands1 := (motSt {})
def motionCommands2 := { motSt {} with chip := (motSt {}).chip.setPair 18 { resident := true } }
def motionCommands3 := (motSt { spn := mRun, atSpeed := true })
def motionCommands4 := (motSt { spn := mRun, atSpeed := true, seq := 63 })
def motionCommands5 := (motSt { spn := mShort, seq := 63, braking := true })
def motionCommands6 := (motSt { u := { on := true } })
def spindleEvents1 := (motSt { spn := mMeasure, count := 400, spin := some (2, false) })
def spindleEvents2 := (motSt { spn := mAlign, count := 100000000 })
def spindleEvents3 := (motSt { spn := mRamp, good := 64, w := 5, th := 6 })
def spindleEvents4 := (motSt { spn := mBrake, weak := 8, pulses := 1 })
def spindleEvents5 := (motSt { spn := mRamp, count := 40000, attempts := 0, spin := some (2, false) })
def spindleEvents6 := (motSt { spn := mRun, near := 200, spin := some (2, false), seq := 63 })
def spindleEvents7 := (motSt { spn := mRun, atSpeed := true, far := 20 })
def spindleEvents8 := { motSt {} with chip := (((motSt { catching := true, count := 100000000 }).chip.setFld (SPN_STATUS_TACH 2) 300).setFld (LE_PARAM_VALUE 18 27) 3) }
def driveHardware1 := (spnSt fun c => (c.setFld (SPN_STATUS_SB_WAIT 2) 1).setFld (SPN_CTRL_BRAKE 2) 1)
def driveHardware3 := (st fun c => ((up c).setFld (MOT_AX_CTRL_OUTER_MODE 4) 0))
def driveHardware4 := (sledSt {} 0)
def driveHardware5 := (sledSt { drive := true } 0)
def driveHardware6 := (sledSt { } 2)
def laneSlots1 := (laneSt { run := some ⟨100, 1, true, 0⟩ } fun c => c.setFld (RCH_CTRL_EN 11) 1)
def laneSlots2 := (laneSt { landNext := false, run := some ⟨mkPba 1 9 7 lastSlot, 3, false, 0⟩ } fun c => c.setFld (RCH_CTRL_EN 11) 1)
def laneSlots3 := (laneSt { landNext := false } fun c => c.setFld (RCH_STATUS_LANDING 11) 1)
def laneSlots4 := (laneSt { land := [(0, 5), (7, 9)] })
def laneSlots5 := (laneSt {})
def laneSlots6 := (laneSt {} fun c => c.setFld (RCH_STATUS_WOBBLE_LOCK 11) 1)
def laneSlots7 := (laneSt { marks := 4 })
def laneSlots8 := (laneSt { cur := some curU, landNext := false } fun c => c.setFld (RCH_STATUS_WOBBLE_LOCK 11) 1)
def laneSlots9 := (laneSt { cur := some curU, landNext := false } fun c => c.setFld (RCH_STATUS_LOOP_SAT 11) 1)
def laneSlots10 := (laneSt { main := some vals })
def laneSlots11 := (laneSt { cur := some curU })
def laneSlots12 := (laneSt { cur := some curU } fun c => c.setFld (AFE_LANE_CFG_GAIN 1 3) 36)
def laneSlots13 := (laneSt { cur := some curU } fun c => c.setFld (AFE_LANE_CFG_GAIN 1 3) 12)
def laneItems1 := (laneSt { cur := some curU, main := some vals, entry := some (5, zent) })
def laneItems2 := (laneSt { cur := some { curU with spans := 29, llr := zeros 57344 }, main := some vals, entry := some (5, zent) })
def laneItems3 := { curU with spans := 29, llr := zeros 57344 }
def laneItems4 := (laneSt { cur := some { curU with spans := 29, llr := [1, 2] }, main := some vals, entry := some (5, zent) })
def laneItems5 := { curU with spans := 29, llr := [1, 2] }
def laneItems6 := (laneSt { cur := some curU, entry := some (5, zent) } fun c => c.setFld (RCH_STATUS_TAG_CONTEXT 11) 1)
def laneItems7 := (laneSt { hold := some { onset := 5 } })
def laneItems8 := (laneSt { cur := some curU, hold := some { onset := 5 } })
def laneItems9 := (laneSt { cur := some curU, hold := some { onset := 5, release := some 99, before := 7, long := true } })
def laneItems10 := (laneSt { main := some vals } fun c => c.setFld (RCH_SNAP_SEQ 11) 65535)
def laneItems11 := (laneSt { acqFirst := some vals, acqLast := some { vals with g := 0 } })
def laneItems12 := { vals with g := 0 }
def framerPath1 := (laneSt { out := some ⟨{ pba := 100 }, []⟩ } fun c => c.setFld (FRM_CTRL_EN 1) 1)
def framerPath2 := (frSt { item := frItem 448 syncS })
def framerPath3 := (frSt { item := frItem 576 syncS, cands := [(1, 575)] })
def framerPath4 := (frSt { item := frItem 0 [] })
def framerPath5 := { okFrame with tag := .none }
def framerPath6 := { okFrame with item := frItem 0 [], starts := [6000] }
def framerPath7 := { okFrame with item := frItem 2049 resyncP1, starts := [0] }
def framerPath8 := (frSt { item := ⟨{ pba := 100, blank := true }, []⟩ })
def framerPath9 := { iterSt with chip := iterSt.chip.setFrm 1 { toDecoder := [decIt] } }
def writePasses1 := (wrSt { items := [wItem], pass := some wPass })
def writePasses2 := (wrSt { pass := some wPass })
def writePasses3 := { wPass with at_ := 16642 }
def writePasses4 := (wrSt { pass := some writePasses3, lanesEn := 0xA5 })
def writePasses5 := { wItem with flags := 1, slotPba := mkPba 0 0 0 16647, homePba := mkPba 0 0 0 16647 }
def writePasses6 := (wrSt { results := [⟨writePasses5, false⟩] })
def xfurrow1 := (xfSt (BitVec.ofNat 64 (7 + 3 * 2 ^ 32 + 5 * 2 ^ 40 + 9 * 2 ^ 48)) 1 fun c => (c.setFld (RCH_CTRL_EN 8) 1).setFld (RCH_CTRL_EN 10) 1)
def xfurrow3 := (xfSt 0x300040 1 fun c => c.setFld FLM_STATUS_UP 0)
def xfurrow4 := (xfSt 0x300040 0x105 fun c => (((c.setEng (engNum (.cs 1)) { zload := some (0x300040, 5, 1, 5) }).setFld BUF_STATUS_SIZE_GIB 128).setUnitMark (0x300040 / 64) .good).putBytes 0x300040 [1, 2, 3])
def xfurrow5 := (xfSt (BitVec.ofNat 64 (mkPba 0 2 3 16640)) 16700 fun c => c.setWch 1 { pass := some wPass })
def xfurrow6 := (xfSt 0 1 fun c => c.setEng (engNum (.cs 1)) { waitev := some (0, 5, 0x10000) })
def watermasterRoles1 := (roleSt fun c => c.setFld WMM_ROLE_ROLE roleSplit)
def watermasterRoles2 := (roleSt fun c => c.setWm .m { missFlume := true })
def watermasterRoles3 := (st fun c => ((((up c).setFld WMM_ROLE_ROLE 1).setFld WMH_ROLE_ROLE 0).setWm .h { missFlume := true }))
def watermasterRoles4 := (roleSt fun c => c.setFld WMH_CTRL_SWAP_EN 1)
def coresAndSequencers1 := (csSt { online := true })
def coresAndSequencers2 := (csSt { restarting := true })
def calibrationCycles1 := { upSt with chip := upSt.chip.setFld CAL_CTRL_PLL_AUTO 0 }
def hostWindows1 := (hostSt [{ cmdM opWrite with grants := [{ off := 0, len := 4096 }], granted := 4096, slots := [0] }] winQ)
def hostWindows2 := { cmdM opWrite with grants := [{ off := 0, len := 4096 }], granted := 4096, slots := [0] }
def hostWindows3 := { winQ with halted := true }
def hostWindows4 := { winQ with dataHalted := true }
def hostWindows5 := (hostSt [] winQ fun c => c.setRing 3 ringG)
def hostRings1 := { cmdM opRead with inPath := true, started := true, status := some 0 }
def hostRings2 : List WWord := ((recordWords ⟨0, 9, 3, 0, 0, 0, 0⟩).map (fun w => ⟨w, false⟩))
def hostRings3 := (hostSt [] winQ fun c => c.setRing 3 timerG)
def hostRings4 := { cmdM opQcreate with arg0 := 7 + 2 ^ 24 * 5 + 2 ^ 48 * 9, arg1 := 1, arg3 := 0x3000 }
def hostRings5 := { cmdM opQcreate with arg0 := 7 + 2 ^ 16 + 2 ^ 32 * 3, arg1 := 0 }
def hostRings6 := { cmdM opQdelete with arg0 := 7 + 2 ^ 16, arg1 := 0 }
def hostRings7 := (hostSt [hostRings6] {created := true, ring := 3} fun c => c.setQueue 7 { created := true, ring := 3 })
def hostRings8 := { cmdM opQdelete with arg0 := 7, arg1 := 0 }
def hostRings9 := (hostSt [hostRings8] {created := true, ring := 3} fun c => c.setRing 7 { created := true })
def hostRings10 := { cmdM opQreset with arg0 := 7, arg1 := 0 }
def hostRings11 := (hostSt [hostRings10] {created := true, ring := 3} fun c => c.setQueue 7 { created := true, ring := 3, halted := true, dataExp := 3 })
def hostRings12 := { cmdM opAbort with arg0 := 3 + 65536 * 77 }
def hostRings13 := { cmdM opRead with uid := 6, tag := 77 }
def hostRings14 := (hostSt [] { created := true, ring := 3, halted := true })
def hostData1 := { cmdM opPrefetch with arg0 := volumeBlocks - 2048, arg1 := 2048 }
def hostData2 := { cmdM opWrite with arg1 := 2 }
def hostData3 := { stageM with started := true }
def hostData4 := { stageM with arg0 := 3 }
def hostVolumes1 := { cmdM opMount with flags := 1 }
def hostVolumes2 := (volSt vMountedWrite [closeM] fun c => c.setVol 1 { closed := true })
def hostVolumes3 := (stn0 sSafe [parkM 4] fun c => c.setFld (SPN_CTRL_QUIET 0) 1)
def hostVolumes4 := (stn0 sFault [parkM 5] fun c => (c.setFld (SPN_CTRL_BRAKE 0) 1).setFld AFE_PLL_STATUS_LOCKED 1)
def hostVolumes5 := (stn0 sFault [parkM 5] fun c => (c.setFld (SPN_CTRL_BRAKE 0) 1).setFld AFE_PLL_STATUS_LOCKED 0)
def hostAdmin1 := { cmdM opGetLog with arg0 := 1, arg1 := 0, arg2 := 32 }
def hostAdmin2 := { cmdM opGetLog with arg0 := 2, arg2 := 32 }
def hostAdmin3 := { cmdM opGetLog with arg0 := 3 + 256, arg1 := 0, arg2 := 32 }
def hostAdmin4 := { cmdM opGetLog with arg0 := 4, arg1 := 0, arg2 := 32 }
def hostAdmin5 := { cmdM opFeature with arg0 := 1 + 65536 * 15, arg1 := 2048 }
def hostAdmin6 := { cmdM opFeature with arg0 := 2 + 65536 * 15, arg1 := 1 }
def hostAdmin7 := { cmdM opFeature with arg0 := 3 + 65536 * 15, arg1 := 1 }
def hostAdmin8 := { cmdM opFeature with arg0 := 4, arg1 := 1 }
def hostAdmin9 := { cmdM opCache with arg0 := 1 }
def hostAdmin10 := { cmdM opCache with arg0 := 0 }
def hostAdmin11 := { cmdM opScrub with arg0 := 0, arg3 := 128 }
def hostAdmin12 := { cmdM opCalibrate with arg0 := 9 * 256 }
def hostAdmin13 := { cmdM opActivate with arg0 := 1 }
def blockCache1 := (setSt dirtyL fun c => c.setFld FLM_STATUS_UP 0)
def bootCommands1 := { (bootSt 4) with chip := (bootSt 4).chip.setFld BOOT_HOST_STATUS_BUSY 1 }
def bootCommands2 := (bootSt 4 fun c => (c.setFld BOOT_HOST_OFFSET_OFFSET (32 * 2 ^ 20 - 64)).setFld BOOT_HOST_LENGTH_LENGTH 128)
def resets8 := (setSt cleanL fun c => { c with buf := { c.buf with staged := [stagedE] } })
def libraryAndScan1 := { lpSt0 with chip := ((lpSt0.chip.setFld (WMM_STN_STATE_STATE 3) 6).setFld (WMM_STN_STATE_CAUSE 3) 12).setFld (WMM_STN_STATE_CLAMPED 3) 1 }
def libraryAndScan2 := { lpSt0 with chip := lpSt0.chip.setFld (WMM_STN_STATE_STATE 3) 7 }

/-! ### Witnesses of the statements' hypotheses -/

/-- States and operands that meet the hypotheses of each clause of `Obligations.IdleTick`. -/
theorem wit_IdleTick :
    upSt.pending = [] :=
  by decide +kernel

/-- States and operands that meet the hypotheses of each clause of `Obligations.StopsOnlyIllFormed`. -/
theorem wit_StopsOnlyIllFormed :
    Instr.injectArm.wf = true :=
  by decide +kernel

/-- States and operands that meet the hypotheses of each clause of `Obligations.FieldWrites`. -/
theorem wit_FieldWrites :
    ({ lo := 0, w := 8, acc := Access.rw, cls := ResetClass.p, reset := 3, valid := [(0, 100)] : FieldDef } ∈ twoFields.fields ∧ 0 < { lo := 0, w := 8, acc := Access.rw, cls := ResetClass.p, reset := 3, valid := [(0, 100)] : FieldDef }.w ∧ { lo := 0, w := 8, acc := Access.rw, cls := ResetClass.p, reset := 3, valid := [(0, 100)] : FieldDef }.reset < 2 ^ { lo := 0, w := 8, acc := Access.rw, cls := ResetClass.p, reset := 3, valid := [(0, 100)] : FieldDef }.w ∧ (∀ g ∈ twoFields.fields, g.lo + g.w ≤ 64) ∧ (List.Pairwise (fun g h => g.lo + g.w ≤ h.lo ∨ h.lo + h.w ≤ g.lo) twoFields.fields)) ∧
    ({ lo := 8, w := 8, acc := Access.w1c, cls := ResetClass.w, reset := 0, valid := [] : FieldDef } ∈ twoFields.fields ∧ 0 < { lo := 8, w := 8, acc := Access.w1c, cls := ResetClass.w, reset := 0, valid := [] : FieldDef }.w ∧ { lo := 8, w := 8, acc := Access.w1c, cls := ResetClass.w, reset := 0, valid := [] : FieldDef }.reset < 2 ^ { lo := 8, w := 8, acc := Access.w1c, cls := ResetClass.w, reset := 0, valid := [] : FieldDef }.w ∧ (∀ g ∈ twoFields.fields, g.lo + g.w ≤ 64) ∧ (List.Pairwise (fun g h => g.lo + g.w ≤ h.lo ∨ h.lo + h.w ≤ g.lo) twoFields.fields)) ∧
    ({ lo := 16, w := 1, acc := Access.wo, cls := ResetClass.w, reset := 0, valid := [] : FieldDef } ∈ twoFields.fields ∧ 0 < { lo := 16, w := 1, acc := Access.wo, cls := ResetClass.w, reset := 0, valid := [] : FieldDef }.w ∧ { lo := 16, w := 1, acc := Access.wo, cls := ResetClass.w, reset := 0, valid := [] : FieldDef }.reset < 2 ^ { lo := 16, w := 1, acc := Access.wo, cls := ResetClass.w, reset := 0, valid := [] : FieldDef }.w ∧ (∀ g ∈ twoFields.fields, g.lo + g.w ≤ 64) ∧ (List.Pairwise (fun g h => g.lo + g.w ≤ h.lo ∨ h.lo + h.w ≤ g.lo) twoFields.fields)) ∧
    ({ lo := 17, w := 1, acc := Access.ro, cls := ResetClass.w, reset := 0, valid := [] : FieldDef } ∈ twoFields.fields ∧ 0 < { lo := 17, w := 1, acc := Access.ro, cls := ResetClass.w, reset := 0, valid := [] : FieldDef }.w ∧ { lo := 17, w := 1, acc := Access.ro, cls := ResetClass.w, reset := 0, valid := [] : FieldDef }.reset < 2 ^ { lo := 17, w := 1, acc := Access.ro, cls := ResetClass.w, reset := 0, valid := [] : FieldDef }.w ∧ (∀ g ∈ twoFields.fields, g.lo + g.w ≤ 64) ∧ (List.Pairwise (fun g h => g.lo + g.w ≤ h.lo ∨ h.lo + h.w ≤ g.lo) twoFields.fields)) ∧
    (regAt 24 = some scratchDef) :=
  ⟨by decide +kernel,
    by decide +kernel,
    by decide +kernel,
    by decide +kernel,
    by decide +kernel⟩

/-- States and operands that meet the hypotheses of each clause of `Obligations.RegisterWriteDone`. -/
theorem wit_RegisterWriteDone :
    ((24 % portKey < 1048576 ∨ 7340032 ≤ 24 % portKey) ∧ isMdie 24 = false ∧ upSt.chip.served 24 = true ∧ regPlace (agentPort (Agent.port 0)) 24 = some (24, scratchDef, false) ∧ (upSt.chip.agent (agentNum (Agent.port 0))).writeLatch = none ∧ upSt.chip.absent 24 = false ∧ upSt.chip.mayWrite (Agent.port 0) 24 = true ∧ (8 = 4 ∧ 24 % 4 = 0 ∧ scratchDef.wide = false ∨ 8 = 8 ∧ 24 % 8 = 0 ∧ scratchDef.wide = true) ∧ 24 ∉ [CIS_CTRL, BUF_SCRUB_CTRL, BUF_FILL_STALE, BUF_INJECT, FLM_CTRL, WMH_CTRL, BOOT_HOST_CMD] ∧ (¬(65536 ≤ 24 ∧ 24 < 66048 ∧ 24 % 256 = 0)) ∧ (∀ f ∈ scratchDef.fields, f.acc ≠ Access.lk) ∧ upSt.chip.writeDropped 24 (regAfter scratchDef (upSt.chip.reg 24) (if 8 = 4 then BitVec.setWidth 64 (BitVec.setWidth 32 1234605616436508552#64) else 1234605616436508552#64) (if 8 = 4 then loMask else loMask ||| hiMask)) = false ∧ (∀ (x : Port), Agent.port 0 = Agent.port x → upSt.chip.portExists ↑x = true) ∧ (∀ (e : Engine), Agent.port 0 = Agent.engine e → engineSees e 24 8 = true)) ∧
    (sealedDown.chip.portExists 0 = true ∧ isMdie 1048576 = true ∧ sealedDown.chip.served 1048576 = true ∧ sealedDown.chip.flag FLM_STATUS_UP = false ∧ (sealedDown.chip.agent 0).writeLatch = none) :=
  ⟨⟨by decide +kernel, by decide +kernel, by decide +kernel, by decide +kernel, by decide +kernel, by decide +kernel, by decide +kernel, by decide +kernel, by decide +kernel, by decide +kernel, by decide +kernel, by decide +kernel, by intro x h; cases h; decide +kernel, by intro e h; cases h⟩,
    by decide +kernel⟩

/-- States and operands that meet the hypotheses of each clause of `Obligations.HalfAccesses`. -/
theorem wit_HalfAccesses :
    (upSt.chip.portExists 0 = true ∧ 24 % 8 = 0 ∧ (24 < 1048576 ∨ 7340032 ≤ 24 ∧ 24 < 15728640) ∧ upSt.chip.served 24 = true ∧ regPlace (0) 24 = some (24, scratchDef, false) ∧ regPlace (0) (24 + 4) = some (24, scratchDef, true) ∧ scratchDef.wide = true ∧ upSt.chip.absent 24 = false ∧ upSt.chip.served (24 + 4) = true ∧ (upSt.chip.agent 0).writeLatch = none) ∧
    (latched.chip.portExists 0 = true ∧ 24 % 8 = 0 ∧ (24 < 1048576 ∨ 7340032 ≤ 24 ∧ 24 < 15728640) ∧ latched.chip.served 24 = true ∧ regPlace (0) 24 = some (24, scratchDef, false) ∧ regPlace (0) (24 + 4) = some (24, scratchDef, true) ∧ scratchDef.wide = true ∧ latched.chip.absent 24 = false ∧ latched.chip.served (24 + 4) = true ∧ latched.chip.mayWrite (Agent.port 0) 24 = true ∧ 24 % portKey = 24 ∧ (24 % portKey < 1048576 ∨ 7340032 ≤ 24 % portKey) ∧ 24 ∉ [CIS_CTRL, BUF_SCRUB_CTRL, BUF_FILL_STALE, BUF_INJECT, FLM_CTRL, WMH_CTRL, BOOT_HOST_CMD] ∧ (¬(65536 ≤ 24 ∧ 24 < 66048 ∧ 24 % 256 = 0)) ∧ (∀ f ∈ scratchDef.fields, f.acc ≠ Access.lk) ∧ (∀ (n : Word), latched.chip.writeDropped 24 n = false)) ∧
    ((isMdie 2 = false ∨ upSt.chip.carrying = true) ∧ (upSt.chip.agent (agentNum (Agent.port 0))).writeLatch = none ∧ (¬(4 = 4 ∧ 2 % 4 = 0)) ∧ (¬(4 = 8 ∧ 2 % 8 = 0)) ∧ (¬(0 < 4 ∧ 4 < 4 ∧ 2 % 4 + 4 ≤ 4)) ∧ (∀ (x : Port), Agent.port 0 = Agent.port x → upSt.chip.portExists ↑x = true) ∧ (∀ (e : Engine), Agent.port 0 = Agent.engine e → engineSees e 2 4 = true)) ∧
    ((isMdie 2 = false ∨ upSt.chip.carrying = true) ∧ (upSt.chip.agent (agentNum (Agent.port 0))).writeLatch = none ∧ (¬(3 = 4 ∧ 2 % 4 = 0)) ∧ (¬(3 = 8 ∧ 2 % 8 = 0)) ∧ (∀ (x : Port), Agent.port 0 = Agent.port x → upSt.chip.portExists ↑x = true) ∧ (∀ (e : Engine), Agent.port 0 = Agent.engine e → engineSees e 2 3 = true)) :=
  ⟨by decide +kernel,
    ⟨by decide +kernel, by decide +kernel, by decide +kernel, by decide +kernel, by decide +kernel, by decide +kernel, by decide +kernel, by decide +kernel, by decide +kernel, by decide +kernel, by decide +kernel, by decide +kernel, by decide +kernel, by decide +kernel, by decide +kernel, by intro n; rfl⟩,
    ⟨by decide +kernel, by decide +kernel, by decide +kernel, by decide +kernel, by decide +kernel, by intro x h; cases h; decide +kernel, by intro e h; cases h⟩,
    ⟨by decide +kernel, by decide +kernel, by decide +kernel, by decide +kernel, by intro x h; cases h; decide +kernel, by intro e h; cases h⟩⟩

/-- States and operands that meet the hypotheses of each clause of `Obligations.EngineMemory`. -/
theorem wit_EngineMemory :
    (4 ∈ [1, 2, 4, 8] ∧ 268435456 ≤ 268435458 ∧ 268435458 + 4 ≤ 268959744) ∧
    (4 ∈ [1, 2, 4, 8] ∧ 2 ^ 36 ≤ 2 ^ 36 + 2 ∧ 2 ^ 36 + 2 + 4 ≤ 2 ^ 36 + dramSt.chip.bufferSize ∧ onMdie (Agent.engine (Engine.cs 0)) = true ∧ dramSt.chip.flag FLM_STATUS_UP = true ∧ (∀ u ∈ unitsOf (2 ^ 36 + 2 - 2 ^ 36) 4, dramSt.chip.unitMark u = UnitMark.good)) ∧
    (4 ∈ [1, 2, 4, 8] ∧ (¬805306368 + 4 ≤ 65536) ∧ (¬(268435456 ≤ 805306368 ∧ 805306368 + 4 ≤ 268959744)) ∧ (¬(536870912 ≤ 805306368 ∧ 805306368 + 4 ≤ 545259520)) ∧ (¬(2 ^ 36 ≤ 805306368 ∧ 805306368 + 4 ≤ 2 ^ 36 + dramSt.chip.bufferSize))) ∧
    (upSt.chip.portExists 0 = true ∧ upSt.chip.flag GEN_CONFIG_SEALED = true ∧ upSt.chip.carrying = true ∧ (upSt.chip.agent 0).writeLatch = none) :=
  ⟨by decide +kernel,
    by decide +kernel,
    by decide +kernel,
    by decide +kernel⟩

/-- States and operands that meet the hypotheses of each clause of `Obligations.WeirReads`. -/
theorem wit_WeirReads :
    (handleOf (wordsSt.chip.getX (Engine.core 0) 2) = some (5, 0) ∧ wordsSt.chip.consumes (Engine.core 0) 5 0 = true ∧ (wordsSt.chip.weir (weirKey 5 0)).closed = false ∧ wordsSt.chip.ready 5 0 = true ∧ (wordsSt.chip.weir (weirKey 5 0)).items = [[{ v := 5 : WWord }, { v := 6 : WWord }]]) ∧
    (handleOf (lastWordSt.chip.getX (Engine.core 0) 2) = some (5, 0) ∧ lastWordSt.chip.consumes (Engine.core 0) 5 0 = true ∧ (lastWordSt.chip.weir (weirKey 5 0)).closed = false ∧ lastWordSt.chip.ready 5 0 = true ∧ (lastWordSt.chip.weir (weirKey 5 0)).items = [[{ v := 5, corrupt := true : WWord }], [{ v := 7 : WWord }]]) ∧
    (handleOf (emptyWeirSt.chip.getX (Engine.core 0) 2) = some (5, 0) ∧ emptyWeirSt.chip.consumes (Engine.core 0) 5 0 = true ∧ (emptyWeirSt.chip.weir (weirKey 5 0)).closed = false ∧ (emptyWeirSt.chip.weir (weirKey 5 0)).items = [] ∧ (∀ x ∈ (emptyWeirSt.chip.weir (weirKey 5 0)).stalls, x.kind ≠ StallKind.push)) ∧
    ((stalledSt.chip.weir (weirKey 5 0)).stalls = [{ engine := Engine.core 0, kind := StallKind.peek, rd := 3, value := 0 : Stall }] ∧ stalledSt.chip.canResume 5 0 { engine := Engine.core 0, kind := StallKind.peek, rd := 3, value := 0 : Stall } = true ∧ { engine := Engine.core 0, kind := StallKind.peek, rd := 3, value := 0 : Stall }.kind ≠ StallKind.push ∧ (stalledSt.chip.weir (weirKey 5 0)).items = [[{ v := 5 : WWord }, { v := 6 : WWord }]] ∧ { v := 5 : WWord }.corrupt = false ∧ { engine := Engine.core 0, kind := StallKind.peek, rd := 3, value := 0 : Stall }.rd ≠ 0) ∧
    ((pushStallSt.chip.weir (weirKey 3 4)).stalls = [{ engine := Engine.core 0, kind := StallKind.push, rd := 0, value := 119 : Stall }] ∧ pushStallSt.chip.canResume 3 4 { engine := Engine.core 0, kind := StallKind.push, rd := 0, value := 119 : Stall } = true ∧ { engine := Engine.core 0, kind := StallKind.push, rd := 0, value := 119 : Stall }.kind = StallKind.push) :=
  ⟨by decide +kernel,
    by decide +kernel,
    by decide +kernel,
    by decide +kernel,
    by decide +kernel⟩

/-- States and operands that meet the hypotheses of each clause of `Obligations.WeirWrites`. -/
theorem wit_WeirWrites :
    (handleOf (producerSt.chip.getX (Engine.core 0) 2) = some (3, 4) ∧ producerSt.chip.produces (Engine.core 0) 3 4 = true ∧ (producerSt.chip.weir (weirKey 3 4)).closed = false ∧ 0 < producerSt.chip.credits 3 4) ∧
    (handleOf (producedSt.chip.getX (Engine.core 0) 2) = some (3, 4) ∧ producedSt.chip.produces (Engine.core 0) 3 4 = true ∧ (producedSt.chip.weir (weirKey 3 4)).closed = false ∧ 3 ∈ [3, 4, 6]) ∧
    (handleOf (loggedSt.chip.getX (Engine.core 0) 2) = some (6, 0) ∧ loggedSt.chip.produces (Engine.core 0) 6 0 = true ∧ (loggedSt.chip.weir (weirKey 6 0)).closed = false ∧ 6 ∈ [3, 4, 6]) ∧
    (handleOf (producerSt.chip.getX (Engine.core 0) 2) = some (3, 4) ∧ producerSt.chip.produces (Engine.core 0) 3 4 = true ∧ (producerSt.chip.weir (weirKey 3 4)).closed = false ∧ 3 ∈ [3, 4, 6]) :=
  ⟨by decide +kernel,
    by decide +kernel,
    by decide +kernel,
    by decide +kernel⟩

/-- States and operands that meet the hypotheses of each clause of `Obligations.WeirTraps`. -/
theorem wit_WeirTraps :
    (handleOf (badHandleSt.chip.getX (Engine.core 0) 2) = none) ∧
    (handleOf (wordsSt.chip.getX (Engine.cs 0) 2) = some (0, 0) ∧ wordsSt.chip.consumes (Engine.cs 0) 0 0 = false ∧ wordsSt.chip.produces (Engine.cs 0) 0 0 = false) ∧
    (handleOf (closedSt.chip.getX (Engine.core 0) 2) = some (5, 0) ∧ (closedSt.chip.weir (weirKey 5 0)).closed = true ∧ closedSt.chip.consumes (Engine.core 0) 5 0 = true) ∧
    (handleOf (closedSt.chip.getX (Engine.core 0) 4) = some (3, 4) ∧ (closedSt.chip.weir (weirKey 3 4)).closed = true ∧ closedSt.chip.produces (Engine.core 0) 3 4 = true) ∧
    (handleOf (emptyWeirSt.chip.getX (Engine.core 0) 2) = some (5, 0) ∧ (emptyWeirSt.chip.weir (weirKey 5 0)).closed = false ∧ emptyWeirSt.chip.consumes (Engine.core 0) 5 0 = true ∧ emptyWeirSt.chip.ready 5 0 = false) :=
  ⟨by decide +kernel,
    by decide +kernel,
    by decide +kernel,
    by decide +kernel,
    by decide +kernel⟩

/-- States and operands that meet the hypotheses of each clause of `Obligations.FlumeControlPackets`. -/
theorem wit_FlumeControlPackets :
    (Arrives upSt.chip Dir.toM 0 (pkt 0 0 0 [])) ∧
    (Arrives upSt.chip Dir.toH 4 (pkt 4 0 0 [1])) ∧
    (Arrives alignedSt.chip Dir.toH 2 (pkt 2 0 0 [1])) ∧
    (Arrives heartSt.chip Dir.toH 1 (pkt 1 0 0 [257]) ∧ (heartSt.chip.wm (rxDie Dir.toH)).missPulse = false ∧ ((pkt 1 0 0 [257]).payload.getD 0 0).toNat % 256 ≠ roleFailed) ∧
    (upSt.chip.carrying = true ∧ (rxGood badPkt = false ∨ rxSeq badPkt ≠ (upSt.chip.flume Dir.toM).expSeq)) ∧
    (partSt.chip.carrying = true ∧ (rxGood (pkt 258 0 0 []) = false ∨ rxSeq (pkt 258 0 0 []) ≠ (partSt.chip.flume Dir.toH).expSeq)) :=
  ⟨by unfold Arrives; decide +kernel,
    by unfold Arrives; decide +kernel,
    by unfold Arrives; decide +kernel,
    by unfold Arrives; decide +kernel,
    by decide +kernel,
    by decide +kernel⟩

/-- States and operands that meet the hypotheses of each clause of `Obligations.FlumeItems`. -/
theorem wit_FlumeItems :
    (Arrives partSt.chip Dir.toM 5 (pkt 5 3 0 [3, 0]) ∧ rxUnit (pkt 5 3 0 [3, 0]) < 16 ∧ [8589934593#64, 3#64] ≠ [] ∧ (partSt.chip.flume Dir.toM).part (2 ^ 25 + rxUnit (pkt 5 3 0 [3, 0])) ++ (pkt 5 3 0 [3, 0]).payload = payloadOf [8589934593#64, 3#64]) ∧
    (Arrives partSt.chip Dir.toM 5 (pkt 5 3 0 [3, 0]) ∧ rxUnit (pkt 5 3 0 [3, 0]) < 16 ∧ [8589934593#64, 3#64, 8#64] ≠ [] ∧ (partSt.chip.flume Dir.toM).part (2 ^ 25 + rxUnit (pkt 5 3 0 [3, 0])) ++ (pkt 5 3 0 [3, 0]).payload ≠ payloadOf [8589934593#64, 3#64, 8#64]) ∧
    ((blockSt.chip.flume Dir.toH).part (rxTag (pkt 8 3 9 [5])) ≠ [] ∧ Arrives blockSt.chip Dir.toH 8 (pkt 8 3 9 [5]) ∧ 1032 ≤ ((blockSt.chip.flume Dir.toH).part (rxTag (pkt 8 3 9 [5])) ++ (pkt 8 3 9 [5]).payload).length) ∧
    ((blockShortSt.chip.flume Dir.toH).part (rxTag (pkt 8 3 9 [5])) ≠ [] ∧ Arrives blockShortSt.chip Dir.toH 8 (pkt 8 3 9 [5]) ∧ ((blockShortSt.chip.flume Dir.toH).part (rxTag (pkt 8 3 9 [5])) ++ (pkt 8 3 9 [5]).payload).length < 1032) ∧
    (Arrives upSt.chip Dir.toH 7 (pkt 7 3 9 [1, 2, 50331648, 4, 5, 6, 7, 8]) ∧ 2 < ((pkt 7 3 9 [1, 2, 50331648, 4, 5, 6, 7, 8]).payload.getD 2 0).toNat / 2 ^ 24) ∧
    (Arrives upSt.chip Dir.toH 7 (pkt 7 3 9 [1, 2, 33554432, 4, 5, 6, 7, 8]) ∧ ((pkt 7 3 9 [1, 2, 33554432, 4, 5, 6, 7, 8]).payload.getD 2 0).toNat / 2 ^ 24 ≤ 2) ∧
    (Arrives upSt.chip Dir.toM 6 (pkt 6 3 9 [1, 2, 33554432, 4, 5, 6, 7, 8]) ∧ rxUnit (pkt 6 3 9 [1, 2, 33554432, 4, 5, 6, 7, 8]) < 16 ∧ ((upSt.chip.flume Dir.toM).part (65536 * rxUnit (pkt 6 3 9 [1, 2, 33554432, 4, 5, 6, 7, 8]) + rxTag (pkt 6 3 9 [1, 2, 33554432, 4, 5, 6, 7, 8])) ++ (pkt 6 3 9 [1, 2, 33554432, 4, 5, 6, 7, 8]).payload).length < 1032) ∧
    (Arrives writeSt.chip Dir.toM 6 (pkt 6 3 9 [5]) ∧ rxUnit (pkt 6 3 9 [5]) < 16 ∧ (((writeSt.chip.flume Dir.toM).part (65536 * rxUnit (pkt 6 3 9 [5]) + rxTag (pkt 6 3 9 [5])) ++ (pkt 6 3 9 [5]).payload).getD 2 0).toNat / 2 ^ 17 % 2 = 0 ∧ 1032 ≤ ((writeSt.chip.flume Dir.toM).part (65536 * rxUnit (pkt 6 3 9 [5]) + rxTag (pkt 6 3 9 [5])) ++ (pkt 6 3 9 [5]).payload).length) :=
  ⟨by unfold Arrives; decide +kernel,
    by unfold Arrives; decide +kernel,
    ⟨by decide +kernel, by unfold Arrives; decide +kernel, by show 1032 ≤ (List.replicate 1031 (7#32) ++ [5#32]).length; rw [List.length_append, List.length_replicate]; decide⟩,
    by unfold Arrives; decide +kernel,
    by unfold Arrives; decide +kernel,
    by unfold Arrives; decide +kernel,
    by unfold Arrives; decide +kernel,
    ⟨by unfold Arrives; decide +kernel, by decide +kernel, by decide +kernel, by show 1032 ≤ (List.replicate 1031 (7#32) ++ [5#32]).length; rw [List.length_append, List.length_replicate]; decide⟩⟩

/-- States and operands that meet the hypotheses of each clause of `Obligations.FlumeSends`. -/
theorem wit_FlumeSends :
    (sendSt.chip.carrying = true ∧ (sendSt.chip.flume Dir.toM).toResend = []) ∧
    (upSt.chip.carrying = true ∧ (upSt.chip.flume Dir.toM).toResend = [] ∧ (∀ p ∈ (upSt.chip.flume Dir.toM).ready, ¬∀ (k : ℕ), typeClass p.ty = some k → 0 < (upSt.chip.flume Dir.toM).credits.getD k 0)) ∧
    (replaySt.chip.carrying = true ∧ (replaySt.chip.flume Dir.toM).replay = [] ++ [{ ty := 5, seq := 7, unit := 2, tag := 0, payload := [(2 : BitVec 32)] : Packet }, { ty := 3, seq := 8, unit := 3, tag := 0, payload := [(3 : BitVec 32)] : Packet }, { ty := 3, seq := 9, unit := 4, tag := 0, payload := [(4 : BitVec 32)] : Packet }] ∧ { ty := 5, seq := 7, unit := 2, tag := 0, payload := [(2 : BitVec 32)] : Packet }.seq = 7 ∧ (∀ q ∈ ([] : List Packet), q.seq ≠ 7)) :=
  ⟨by decide +kernel,
    by decide +kernel,
    by decide +kernel⟩

/-- States and operands that meet the hypotheses of each clause of `Obligations.FlumeRetrains`. -/
theorem wit_FlumeRetrains :
    (downSt.chip.flag FLM_STATUS_UP = false) ∧
    (upSt.chip.flag FLM_STATUS_UP = true) ∧
    (retrainSt.chip.flag FLM_STATUS_RETRAINING = true ∧ retrainSt.chip.flag FLM_STATUS_UP = true ∧ retrainSt.chip.arch.mdieWait = [] ∧ widest ((65280 : BitVec 16) &&& (65535 : BitVec 16)).toNat = some 1 ∧ retrainSt.chip.fld FLM_CTRL_MIN_WIDTH ≤ 1 ∧ (∀ (d : Die), (retrainSt.chip.wm d).missFlume = false ∧ (retrainSt.chip.wm d).missPulse = false)) ∧
    (61695 < 65536) ∧
    (alignedSt.chip.flag FLM_STATUS_UP = true) ∧
    (alignedSt.chip.flag FLM_STATUS_LEDGER_ALIGNED = true) ∧
    (Arrives alignedSt.chip Dir.toM 3 (pkt 3 0 6 []) ∧ isMdie 1048576 = true ∧ 1048576 % 4 = 0 ∧ alignedSt.chip.flag GEN_CONFIG_SEALED = true ∧ { base := 1048576, dims := [], wide := false, fields := [{ lo := 0, w := 1, acc := Access.ro, cls := ResetClass.live, reset := 0, valid := [] : FieldDef }, { lo := 1, w := 1, acc := Access.ro, cls := ResetClass.live, reset := 0, valid := [] : FieldDef }, { lo := 2, w := 6, acc := Access.ro, cls := ResetClass.live, reset := 0, valid := [] : FieldDef }] : RegDef }.wide = false ∧ alignedSt.chip.absent 1048576 = false ∧ (1048576 - 4259840) % 16384 ≠ 28) :=
  ⟨by decide +kernel,
    by decide +kernel,
    ⟨by decide +kernel, by decide +kernel, by decide +kernel, by decide +kernel, by decide +kernel, by intro d; cases d <;> decide +kernel⟩,
    by decide +kernel,
    by decide +kernel,
    by decide +kernel,
    by unfold Arrives; decide +kernel⟩

/-- States and operands that meet the hypotheses of each clause of `Obligations.TolekValues`. -/
theorem wit_TolekValues :
    (TolekAt (tk (tWord 16 (fmtVVV 1 1 1)) id).chip 0 (Instr.tAdd 0 1 1 1, tWord 16 (fmtVVV 1 1 1), 1, ((tk (tWord 16 (fmtVVV 1 1 1)) id).chip.tolek 0).int 1 + ((tk (tWord 16 (fmtVVV 1 1 1)) id).chip.tolek 0).int 1).2.1) ∧
    (TolekAt (tk (tWord 16 (fmtVVV 1 2 3)) id).chip 0 (Instr.tAdd 0 1 2 3, tWord 16 (fmtVVV 1 2 3), 1, ((tk (tWord 16 (fmtVVV 1 2 3)) id).chip.tolek 0).int 2 + ((tk (tWord 16 (fmtVVV 1 2 3)) id).chip.tolek 0).int 3).2.1) ∧
    (TolekAt (tk (tWord 17 (fmtVVV 1 2 3)) id).chip 0 (Instr.tSub 0 1 2 3, tWord 17 (fmtVVV 1 2 3), 1, ((tk (tWord 17 (fmtVVV 1 2 3)) id).chip.tolek 0).int 2 - ((tk (tWord 17 (fmtVVV 1 2 3)) id).chip.tolek 0).int 3).2.1) ∧
    (TolekAt (tk (tWord 18 (fmtVVV 1 2 3)) id).chip 0 (Instr.tMul 0 1 2 3, tWord 18 (fmtVVV 1 2 3), 2, rndShift (((tk (tWord 18 (fmtVVV 1 2 3)) id).chip.tolek 0).int 2 * ((tk (tWord 18 (fmtVVV 1 2 3)) id).chip.tolek 0).int 3) 28).2.1) ∧
    (TolekAt (tk (tWord 19 (fmtVK 1 2 3)) id).chip 0 (Instr.tMulk 0 1 2 3, tWord 19 (fmtVK 1 2 3), 2, rndShift (((tk (tWord 19 (fmtVK 1 2 3)) id).chip.tolek 0).int 2 * ((tk (tWord 19 (fmtVK 1 2 3)) id).chip.tolek 0).coefInt 3) 28).2.1) ∧
    (TolekAt (tk (tWord 20 (fmtVVV 1 2 0)) id).chip 0 (Instr.tNeg 0 1 2, tWord 20 (fmtVVV (1) (2) 0), 1, -((tk (tWord 20 (fmtVVV 1 2 0)) id).chip.tolek 0).int 2).2.1) ∧
    (TolekAt (tk (tWord 21 (fmtVVV 1 2 0)) id).chip 0 (Instr.tAbs 0 1 2, tWord 21 (fmtVVV (1) (2) 0), 1, |((tk (tWord 21 (fmtVVV 1 2 0)) id).chip.tolek 0).int 2|).2.1) ∧
    (TolekAt (tk (tWord 22 (fmtVVV 1 2 3)) id).chip 0 (Instr.tMin 0 1 2 3, tWord 22 (fmtVVV 1 2 3), 1, min (((tk (tWord 22 (fmtVVV 1 2 3)) id).chip.tolek 0).int 2) (((tk (tWord 22 (fmtVVV 1 2 3)) id).chip.tolek 0).int 3)).2.1) ∧
    (TolekAt (tk (tWord 23 (fmtVVV 1 2 3)) id).chip 0 (Instr.tMax 0 1 2 3, tWord 23 (fmtVVV 1 2 3), 1, max (((tk (tWord 23 (fmtVVV 1 2 3)) id).chip.tolek 0).int 2) (((tk (tWord 23 (fmtVVV 1 2 3)) id).chip.tolek 0).int 3)).2.1) ∧
    (TolekAt (tk (tWord 24 (fmtVVV 1 2 3)) id).chip 0 (Instr.tClamp 0 1 2 3, tWord 24 (fmtVVV 1 2 3), 1, max (-|((tk (tWord 24 (fmtVVV 1 2 3)) id).chip.tolek 0).int 3|) (min |((tk (tWord 24 (fmtVVV 1 2 3)) id).chip.tolek 0).int 3| (((tk (tWord 24 (fmtVVV 1 2 3)) id).chip.tolek 0).int 2))).2.1) ∧
    (TolekAt (tk (tWord 25 (fmtSH 1 2 3)) id).chip 0 (Instr.tShl 0 1 2 3, tWord 25 (fmtSH 1 2 3), 1, ((tk (tWord 25 (fmtSH 1 2 3)) id).chip.tolek 0).int 2 * 2 ^ 3).2.1) ∧
    (TolekAt (tk (tWord 26 (fmtSH 1 2 3)) id).chip 0 (Instr.tShr 0 1 2 3, tWord 26 (fmtSH 1 2 3), 1, rndShift (((tk (tWord 26 (fmtSH 1 2 3)) id).chip.tolek 0).int 2) 3).2.1) ∧
    (TolekAt (tk (tWord 46 (fmtAC 1 0 1 0 0)) id).chip 0 (Instr.tRnd 0 1 1, tWord 46 (fmtAC (1) 0 (1) 0 0), 1, rndShift (((tk (tWord 46 (fmtAC 1 0 1 0 0)) id).chip.tolek 0).acc 1) 28).2.1) ∧
    (TolekAt (tk (tWord 40 (fmtAC 1 0 0 0 0)) id).chip 0 (Instr.tClr 0 1, tWord 40 (fmtAC (1) 0 0 0 0), 1, 0).2.1) ∧
    (TolekAt (tk (tWord 41 (fmtAC 1 0 2 0 0)) id).chip 0 (Instr.tLda 0 1 2, tWord 41 (fmtAC (1) 0 (2) 0 0), 1, ((tk (tWord 41 (fmtAC 1 0 2 0 0)) id).chip.tolek 0).int 2 * 2 ^ 28).2.1) ∧
    (TolekAt (tk (tWord 42 (fmtAC 1 0 2 0 3)) id).chip 0 (Instr.tMac 0 1 2 3, tWord 42 (fmtAC (1) 0 (2) 0 3), 2, ((tk (tWord 42 (fmtAC 1 0 2 0 3)) id).chip.tolek 0).acc 1 + ((tk (tWord 42 (fmtAC 1 0 2 0 3)) id).chip.tolek 0).int 2 * ((tk (tWord 42 (fmtAC 1 0 2 0 3)) id).chip.tolek 0).coefInt 3).2.1) ∧
    (TolekAt (tk (tWord 43 (fmtAC 1 0 2 3 0)) id).chip 0 (Instr.tMacv 0 1 2 3, tWord 43 (fmtAC (1) 0 (2) (3) 0), 2, ((tk (tWord 43 (fmtAC 1 0 2 3 0)) id).chip.tolek 0).acc 1 + ((tk (tWord 43 (fmtAC 1 0 2 3 0)) id).chip.tolek 0).int 2 * ((tk (tWord 43 (fmtAC 1 0 2 3 0)) id).chip.tolek 0).int 3).2.1) ∧
    (TolekAt (tk (tWord 44 (fmtAC 1 0 2 0 3)) id).chip 0 (Instr.tMsu 0 1 2 3, tWord 44 (fmtAC (1) 0 (2) 0 3), 2, ((tk (tWord 44 (fmtAC 1 0 2 0 3)) id).chip.tolek 0).acc 1 - ((tk (tWord 44 (fmtAC 1 0 2 0 3)) id).chip.tolek 0).int 2 * ((tk (tWord 44 (fmtAC 1 0 2 0 3)) id).chip.tolek 0).coefInt 3).2.1) ∧
    (TolekAt (tk (tWord 45 (fmtAC 1 1 0 0 0)) id).chip 0 (Instr.tAdda 0 1 1, tWord 45 (fmtAC (1) (1) 0 0 0), 1, ((tk (tWord 45 (fmtAC 1 1 0 0 0)) id).chip.tolek 0).acc 1 + ((tk (tWord 45 (fmtAC 1 1 0 0 0)) id).chip.tolek 0).acc 1).2.1) ∧
    (TolekAt (tk (tWord 47 (fmtAC 1 0 2 0 3)) id).chip (0) (tWord 47 (fmtAC (1) 0 (2) 0 3))) ∧
    (TolekAt (tk (tWord 47 (fmtAC 1 0 1 0 3)) id).chip (0) (tWord 47 (fmtAC (1) 0 (1) 0 3))) :=
  ⟨by unfold TolekAt; decide +kernel,
    by unfold TolekAt; decide +kernel,
    by unfold TolekAt; decide +kernel,
    by unfold TolekAt; decide +kernel,
    by unfold TolekAt; decide +kernel,
    by unfold TolekAt; decide +kernel,
    by unfold TolekAt; decide +kernel,
    by unfold TolekAt; decide +kernel,
    by unfold TolekAt; decide +kernel,
    by unfold TolekAt; decide +kernel,
    by unfold TolekAt; decide +kernel,
    by unfold TolekAt; decide +kernel,
    by unfold TolekAt; decide +kernel,
    by unfold TolekAt; decide +kernel,
    by unfold TolekAt; decide +kernel,
    by unfold TolekAt; decide +kernel,
    by unfold TolekAt; decide +kernel,
    by unfold TolekAt; decide +kernel,
    by unfold TolekAt; decide +kernel,
    by unfold TolekAt; decide +kernel,
    by unfold TolekAt; decide +kernel⟩

/-- States and operands that meet the hypotheses of each clause of `Obligations.TolekDivSqrtCorners`. -/
theorem wit_TolekDivSqrtCorners :
    (((tk (tWord 27 (fmtVVV 4 1 5)) id).chip.tolek 0).int 5 = 0 ∧ TolekAt (tk (tWord 27 (fmtVVV 4 1 5)) id).chip (0) (tWord 27 (fmtVVV 4 1 5))) ∧
    (((tk (tWord 27 (fmtVVV 4 2 5)) id).chip.tolek 0).int 5 = 0 ∧ TolekAt (tk (tWord 27 (fmtVVV 4 2 5)) id).chip (0) (tWord 27 (fmtVVV 4 2 5))) ∧
    (((tk (tWord 28 (fmtVVV 4 2 0)) id).chip.tolek 0).int 2 < 0 ∧ TolekAt (tk (tWord 28 (fmtVVV 4 2 0)) id).chip (0) (tWord 28 (fmtVVV (4) (2) 0))) :=
  ⟨by unfold TolekAt; decide +kernel,
    by unfold TolekAt; decide +kernel,
    by unfold TolekAt; decide +kernel⟩

/-- States and operands that meet the hypotheses of each clause of `Obligations.TolekStores`. -/
theorem wit_TolekStores :
    (TolekAt (tk (tWord 6 (fmtMM 1 0 5)) id).chip (0) (tWord 6 (fmtMM (1) 0 (5#11).toNat))) ∧
    (TolekAt (tk (tWord 8 (fmtMM 1 2 2047)) id).chip (0) (tWord 8 (fmtMM (1) (2) (2047#11).toNat))) ∧
    (TolekAt (tk 0 id).chip (0) (tWord 0 0)) ∧
    (TolekAt (tk (tWord 10 (fmtPT 1 3)) id).chip (↑(0 : TolekEngine)) (tWord 10 (fmtPT (↑(1 : VReg)) (BitVec.toNat (3 : BitVec 6))))) ∧
    (TolekAt (tk (tWord 10 (fmtPT 1 40)) id).chip (↑(0 : TolekEngine)) (tWord 10 (fmtPT (↑(1 : VReg)) (BitVec.toNat (40 : BitVec 6))))) :=
  ⟨by unfold TolekAt; decide +kernel,
    by unfold TolekAt; decide +kernel,
    by unfold TolekAt; decide +kernel,
    by unfold TolekAt; decide +kernel,
    by unfold TolekAt; decide +kernel⟩

/-- States and operands that meet the hypotheses of each clause of `Obligations.TolekFlow`. -/
theorem wit_TolekFlow :
    (TolekAt (tk (tWord 59 (fmtLP 3 9)) id).chip (↑(0 : TolekEngine)) (tWord 59 (fmtLP (BitVec.toNat (3 : BitVec 8)) (BitVec.toNat (9 : BitVec 12)))) ∧ ((tk (tWord 59 (fmtLP 3 9)) id).chip.tolek 0).loops.length < 2 ∧ 3 ≠ 0) ∧
    ((tolekFlow1.chip.tolek 0).running = true ∧ (tolekFlow1.chip.tolek 0).ended = false ∧ (tolekFlow1.chip.tolek 0).word (tolekFlow1.chip.tolek 0).pc = tWord 0 0 ∧ (tolekFlow1.chip.tolek 0).loops = [{ first := 7, last := 0, left := 2, depth := 0 : LoopFrame }, { first := 1, last := 9, left := 3, depth := 0 : LoopFrame }] ∧ { first := 7, last := 0, left := 2, depth := 0 : LoopFrame }.last = (tolekFlow1.chip.tolek 0).pc ∧ { first := 7, last := 0, left := 2, depth := 0 : LoopFrame }.depth = (tolekFlow1.chip.tolek 0).calls.length ∧ 0 < { first := 7, last := 0, left := 2, depth := 0 : LoopFrame }.left ∧ { first := 7, last := 0, left := 2, depth := 0 : LoopFrame }.first < 4096) ∧
    (TolekAt (tk (tWord 60 100) id).chip (↑(0 : TolekEngine)) (tWord 60 (fmtJ (BitVec.toNat (100 : BitVec 12)))) ∧ ((tk (tWord 60 100) id).chip.tolek 0).calls.length < 4) ∧
    (TolekAt tolekFlow2.chip (0) (tWord 61 0) ∧ (tolekFlow2.chip.tolek 0).calls = [50, 60] ∧ [⟨1, 9, 3, 0⟩] = (tolekFlow2.chip.tolek 0).loops.dropWhile (fun fr => decide ([60].length < fr.depth)) ∧ 50 < 4096 ∧ (∀ fr ∈ ([⟨1, 9, 3, 0⟩] : List LoopFrame).head?, fr.last + 1 ≠ 50)) ∧
    (TolekAt tolekFlow3.chip (0) (tWord 62 0)) ∧
    (TolekAt (tk (tWord 53 (fmtBR 1 1 0 99)) id).chip ↑(0 : TolekEngine) (Instr.tBeq (0 : TolekEngine) (1 : VReg) (1 : VReg) (99 : BitVec 12), tWord 53 (fmtBR ↑(1 : VReg) ↑(1 : VReg) 0 (BitVec.toNat (99 : BitVec 12))), ((tk (tWord 53 (fmtBR 1 1 0 99)) id).chip.tolek ↑(0 : TolekEngine)).val ↑(1 : VReg) == ((tk (tWord 53 (fmtBR 1 1 0 99)) id).chip.tolek ↑(0 : TolekEngine)).val ↑(1 : VReg)).2.1) ∧
    (TolekAt (tk (tWord 55 (fmtBR 1 2 0 99)) id).chip ↑(0 : TolekEngine) (Instr.tBlt (0 : TolekEngine) (1 : VReg) (2 : VReg) (99 : BitVec 12), tWord 55 (fmtBR ↑(1 : VReg) ↑(2 : VReg) 0 (BitVec.toNat (99 : BitVec 12))), decide (((tk (tWord 55 (fmtBR 1 2 0 99)) id).chip.tolek ↑(0 : TolekEngine)).int ↑(1 : VReg) < ((tk (tWord 55 (fmtBR 1 2 0 99)) id).chip.tolek ↑(0 : TolekEngine)).int ↑(2 : VReg))).2.1) :=
  ⟨by unfold TolekAt; decide +kernel,
    by decide +kernel,
    by unfold TolekAt; decide +kernel,
    by unfold TolekAt; decide +kernel,
    by unfold TolekAt; decide +kernel,
    by unfold TolekAt; decide +kernel,
    by unfold TolekAt; decide +kernel⟩

/-- States and operands that meet the hypotheses of each clause of `Obligations.TolekFaults`. -/
theorem wit_TolekFaults :
    (TolekAt (tk (tWord 61 0) id).chip (0) (tWord 61 0) ∧ ((tk (tWord 61 0) id).chip.tolek 0).calls = []) ∧
    ((tolekFaults1.chip.tolek 0).running = true ∧ (tolekFaults1.chip.tolek 0).ended = false ∧ (tolekFaults1.chip.tolek 0).pc = 4095 ∧ (tolekFaults1.chip.tolek 0).word 4095 = tWord 0 0 ∧ (tolekFaults1.chip.tolek 0).loops = []) ∧
    (TolekAt tolekFaults2.chip (↑(0 : TolekEngine)) (tWord 59 (fmtLP (BitVec.toNat (3 : BitVec 8)) (BitVec.toNat (9 : BitVec 12)))) ∧ 2 ≤ (tolekFaults2.chip.tolek 0).loops.length) :=
  ⟨by unfold TolekAt; decide +kernel,
    by decide +kernel,
    by unfold TolekAt; decide +kernel⟩

/-- States and operands that meet the hypotheses of each clause of `Obligations.TolekWords`. -/
theorem wit_TolekWords :
    (TolekAt (tk (tWord 1 (fmtVVV 1 2 0)) id).chip 0 (Instr.tMov 0 1 2, tWord 1 (fmtVVV (1) (2) 0), ((tk (tWord 1 (fmtVVV 1 2 0)) id).chip.tolek 0).val 2).2.1) ∧
    (TolekAt (tk (tWord 2 (fmtIM 1 43981)) id).chip 0 (Instr.tLih 0 1 43981#16, tWord 2 (fmtIM (1) (43981#16).toNat), 43981#16 ++ 0#16).2.1) ∧
    (TolekAt (tk (tWord 3 (fmtIM 1 43981)) id).chip 0 (Instr.tLil 0 1 43981#16, tWord 3 (fmtIM (1) (43981#16).toNat), BitVec.extractLsb' 16 16 (((tk (tWord 3 (fmtIM 1 43981)) id).chip.tolek 0).val 1) ++ 43981#16).2.1) ∧
    (TolekAt (tk (tWord 4 (fmtVK 1 0 3)) id).chip 0 (Instr.tLdk 0 1 3, tWord 4 (fmtVK (1) 0 3), ((tk (tWord 4 (fmtVK 1 0 3)) id).chip.tolek 0).coef ((tk (tWord 4 (fmtVK 1 0 3)) id).chip.tolek 0).ctx.bank 3).2.1) ∧
    (TolekAt (tk (tWord 5 (fmtMM 1 0 5)) id).chip 0 (Instr.tLd 0 1 5#11, tWord 5 (fmtMM (1) 0 (5#11).toNat), (tk (tWord 5 (fmtMM 1 0 5)) id).chip.tData (0) (5#11).toNat).2.1) ∧
    (TolekAt (tk (tWord 7 (fmtMM 1 2 5)) id).chip 0 (Instr.tLdx 0 1 2 5#11, tWord 7 (fmtMM (1) (2) (5#11).toNat), (tk (tWord 7 (fmtMM 1 2 5)) id).chip.tData (0) (5#11 + BitVec.setWidth 11 (((tk (tWord 7 (fmtMM 1 2 5)) id).chip.tolek 0).val 2)).toNat).2.1) ∧
    (TolekAt (tk (tWord 32 (fmtVVV 1 2 3)) id).chip 0 (Instr.tAnd 0 1 2 3, tWord 32 (fmtVVV 1 2 3), ((tk (tWord 32 (fmtVVV 1 2 3)) id).chip.tolek 0).val 2 &&& ((tk (tWord 32 (fmtVVV 1 2 3)) id).chip.tolek 0).val 3).2.1) ∧
    (TolekAt (tk (tWord 33 (fmtVVV 1 2 3)) id).chip 0 (Instr.tOr 0 1 2 3, tWord 33 (fmtVVV 1 2 3), ((tk (tWord 33 (fmtVVV 1 2 3)) id).chip.tolek 0).val 2 ||| ((tk (tWord 33 (fmtVVV 1 2 3)) id).chip.tolek 0).val 3).2.1) ∧
    (TolekAt (tk (tWord 34 (fmtVVV 1 2 3)) id).chip 0 (Instr.tXor 0 1 2 3, tWord 34 (fmtVVV 1 2 3), ((tk (tWord 34 (fmtVVV 1 2 3)) id).chip.tolek 0).val 2 ^^^ ((tk (tWord 34 (fmtVVV 1 2 3)) id).chip.tolek 0).val 3).2.1) ∧
    (TolekAt (tk (tWord 35 (fmtSH 1 2 3)) id).chip 0 (Instr.tSrl 0 1 2 3, tWord 35 (fmtSH 1 2 3), ((tk (tWord 35 (fmtSH 1 2 3)) id).chip.tolek 0).val 2 >>> 3).2.1) ∧
    (TolekAt (tk (tWord 36 (fmtSH 1 2 3)) id).chip 0 (Instr.tSll 0 1 2 3, tWord 36 (fmtSH 1 2 3), ((tk (tWord 36 (fmtSH 1 2 3)) id).chip.tolek 0).val 2 <<< 3).2.1) ∧
    (TolekAt (tk (tWord 37 (fmtVVV 1 2 3)) id).chip 0 (Instr.tAddw 0 1 2 3, tWord 37 (fmtVVV 1 2 3), ((tk (tWord 37 (fmtVVV 1 2 3)) id).chip.tolek 0).val 2 + ((tk (tWord 37 (fmtVVV 1 2 3)) id).chip.tolek 0).val 3).2.1) ∧
    (TolekAt (tk (tWord 9 (fmtPT 1 28)) id).chip (0) (tWord 9 (fmtPT (1) (28#6).toNat)) ∧ (25 ≤ (28#6).toNat ∨ ((tk (tWord 9 (fmtPT 1 28)) id).chip.pair (pairOf 0)).delivered = true)) ∧
    ((8#6).toNat < 25 ∧ ((tk (tWord 9 (fmtPT 1 8)) id).chip.pair (pairOf 0)).delivered = false) :=
  ⟨by unfold TolekAt; decide +kernel,
    by unfold TolekAt; decide +kernel,
    by unfold TolekAt; decide +kernel,
    by unfold TolekAt; decide +kernel,
    by unfold TolekAt; decide +kernel,
    by unfold TolekAt; decide +kernel,
    by unfold TolekAt; decide +kernel,
    by unfold TolekAt; decide +kernel,
    by unfold TolekAt; decide +kernel,
    by unfold TolekAt; decide +kernel,
    by unfold TolekAt; decide +kernel,
    by unfold TolekAt; decide +kernel,
    by unfold TolekAt; decide +kernel,
    by decide +kernel⟩

/-- States and operands that meet the hypotheses of each clause of `Obligations.TolekDivSqrtLim`. -/
theorem wit_TolekDivSqrtLim :
    (((tk (tWord 27 (fmtVVV 4 1 2)) id).chip.tolek 0).int 2 ≠ 0 ∧ TolekAt (tk (tWord 27 (fmtVVV 4 1 2)) id).chip (0) (tWord 27 (fmtVVV 4 1 2))) ∧
    (0 ≤ (sqSt.chip.tolek 0).int 1 ∧ TolekAt sqSt.chip (0) (tWord 28 (fmtVVV (4) (1) 0))) ∧
    (TolekAt (tk (tWord 48 (fmtVKA 4 2 3 1)) id).chip (0) (tWord 48 (fmtVKA 4 2 3 1))) ∧
    (0 < 4) :=
  ⟨by unfold TolekAt; decide +kernel,
    by unfold TolekAt; decide +kernel,
    by unfold TolekAt; decide +kernel,
    by decide +kernel⟩

/-- States and operands that meet the hypotheses of each clause of `Obligations.TickCommits`. -/
theorem wit_TickCommits :
    ((List.replicate 8 { level := 100, clips := 0 : BeamIn }).length = 8 ∧ (∀ b ∈ List.replicate 8 { level := 100, clips := 0 : BeamIn }, b.level ≤ 16384 ∧ b.clips ≤ 15000) ∧ ((soloSt 0 true).chip.wch 0).pass = none ∧ ((soloSt 0 true).chip.cal 0).run = none ∧ ((soloSt 0 true).chip.seqr 0).script = [] ∧ (soloSt 0 true).chip.flag (LE_PAIR_CTRL_RUN 0) = true ∧ (soloSt 0 true).chip.committing 0 = [0] ∧ (soloSt 0 true).chip.activeEng 0 = some 0 ∧ ((soloSt 0 true).chip.pair 0).hasRun = true ∧ ((soloSt 0 true).chip.pair 0).resident = false ∧ ((soloSt 0 true).chip.pair 0).shadow = none ∧ ((soloSt 0 true).chip.tolek 0).ended = true ∧ ((soloSt 0 true).chip.tolek 0).fault = false ∧ ((soloSt 0 true).chip.tolek (otherEng 0)).fault = false ∧ ((soloSt 0 true).chip.tolek (otherEng 0)).role ≠ 3 ∧ tickIn.fab0 = true ∧ tickIn.wire0 = true ∧ tickIn.fab1 = true ∧ tickIn.wire1 = true) ∧
    ((soloSt 18 true).chip.flag (LE_PAIR_CTRL_RUN 18) = true ∧ (soloSt 18 true).chip.committing 18 = [36] ∧ (soloSt 18 true).chip.activeEng 18 = some 36 ∧ ((soloSt 18 true).chip.pair 18).hasRun = true ∧ ((soloSt 18 true).chip.pair 18).resident = false ∧ ((soloSt 18 true).chip.pair 18).shadow = none ∧ ((soloSt 18 true).chip.tolek 36).ended = true ∧ ((soloSt 18 true).chip.tolek 36).fault = false ∧ ((soloSt 18 true).chip.tolek (otherEng 36)).fault = false ∧ ((soloSt 18 true).chip.tolek (otherEng 36)).role ≠ 3 ∧ tickIn.fab0 = true ∧ tickIn.wire0 = true ∧ tickIn.fab1 = true ∧ tickIn.wire1 = true) ∧
    ((soloSt 18 false).chip.flag (LE_PAIR_CTRL_RUN (16 + 2)) = true ∧ (soloSt 18 false).chip.committing (16 + 2) = [36] ∧ (soloSt 18 false).chip.activeEng (16 + 2) = some 36 ∧ ((soloSt 18 false).chip.pair (16 + 2)).hasRun = true ∧ ((soloSt 18 false).chip.pair (16 + 2)).resident = false ∧ ((soloSt 18 false).chip.tolek 36).ended = false ∧ ((soloSt 18 false).chip.tolek 36).fault = false ∧ ((soloSt 18 false).chip.tolek (otherEng 36)).fault = false ∧ ((soloSt 18 false).chip.tolek (otherEng 36)).role ≠ 3 ∧ tickIn.fab0 = true ∧ tickIn.wire0 = true ∧ tickIn.fab1 = true ∧ tickIn.wire1 = true) :=
  ⟨by decide +kernel,
    by decide +kernel,
    by decide +kernel⟩

/-- States and operands that meet the hypotheses of each clause of `Obligations.PairWrites`. -/
theorem wit_PairWrites :
    ((upSt.chip.pair 0).cmds.length < 4) ∧
    (4 ≤ (fullCmds.chip.pair 0).cmds.length) :=
  ⟨by decide +kernel,
    by decide +kernel⟩

/-- States and operands that meet the hypotheses of each clause of `Obligations.ValuesDelivered`. -/
theorem wit_ValuesDelivered :
    ((List.replicate 125 sampleIn).length = 125) ∧
    ({ iu := 1, iv := 2, iw := 3, eu := 4, ev := 5, ew := 6, vbus := 7, iua := 8, iub := 9, ila := 10, ilb := 11 : MotionIn }.vbus ≤ 204750 ∧ { iu := 1, iv := 2, iw := 3, eu := 4, ev := 5, ew := 6, vbus := 7, iua := 8, iub := 9, ila := 10, ilb := 11 : MotionIn }.iua ≤ 204750 ∧ { iu := 1, iv := 2, iw := 3, eu := 4, ev := 5, ew := 6, vbus := 7, iua := 8, iub := 9, ila := 10, ilb := 11 : MotionIn }.iub ≤ 204750 ∧ { iu := 1, iv := 2, iw := 3, eu := 4, ev := 5, ew := 6, vbus := 7, iua := 8, iub := 9, ila := 10, ilb := 11 : MotionIn }.ila ≤ 204750 ∧ { iu := 1, iv := 2, iw := 3, eu := 4, ev := 5, ew := 6, vbus := 7, iua := 8, iub := 9, ila := 10, ilb := 11 : MotionIn }.ilb ≤ 204750) :=
  ⟨by decide +kernel,
    by decide +kernel⟩

/-- States and operands that meet the hypotheses of each clause of `Obligations.PairRepairs`. -/
theorem wit_PairRepairs :
    (copySt.chip.pairMode 0 = 2 ∧ (copySt.chip.pair 0).shadow = none ∧ copySt.chip.activeEng 0 = some 0) ∧
    ((pairRepairs1.chip.pair (pairOf 1)).testing = some 1 ∧ pairRepairs1.chip.pairMode (pairOf 1) ≠ 3) ∧
    ((testSt.chip.pair (pairOf 1)).testing = some 1) ∧
    ((faultedSt.chip.pair 0).testing = none ∧ (List.find? (fun e => (faultedSt.chip.tolek e).role == 4) [evenEng 0, oddEng 0] = some 1)) ∧
    (faultedSt.chip.flag (WMM_PAIR_CTRL_SWAP_EN 0) = true) ∧
    ((faultedSt.chip.pair 0).swap = true) :=
  ⟨by decide +kernel,
    by decide +kernel,
    by decide +kernel,
    by decide +kernel,
    by decide +kernel,
    by decide +kernel⟩

/-- States and operands that meet the hypotheses of each clause of `Obligations.FrontEndFrames`. -/
theorem wit_FrontEndFrames :
    (linkSt.chip.flag (AFE_LINK_STATUS_RUNNING 2) = true) ∧
    (cfgSt.chip.flag (AFE_LANE_CFG_PENDING (3 / 8) (3 % 8)) = true ∧ (cfgSt.chip.afeLane 3).step = none) ∧
    (thSt.chip.flag (AFE_PU_CTRL_TH_EN 3) = true) :=
  ⟨by decide +kernel,
    by decide +kernel,
    by decide +kernel⟩

/-- States and operands that meet the hypotheses of each clause of `Obligations.SamplingPll`. -/
theorem wit_SamplingPll :
    (lockedSt.chip.flag AFE_PLL_STATUS_LOCKED = true ∧ true = true ∧ lockedSt.chip.flag FLM_STATUS_LEDGER_ALIGNED = false ∧ (∀ p < 16, (lockedSt.chip.wch p).pass = none) ∧ (∀ l < 128, (lockedSt.chip.lane l).cur = none ∧ lockedSt.chip.frameOf l = none)) ∧
    (upSt.chip.flag AFE_PLL_STATUS_LOCKED = false ∧ false = false ∧ upSt.chip.afe.failed = false ∧ upSt.chip.host.cmds = [] ∧ (∀ x < 8, upSt.chip.stState x ∈ [sEmpty, sSafe, sFault])) :=
  ⟨by decide +kernel,
    by decide +kernel⟩

/-- States and operands that meet the hypotheses of each clause of `Obligations.LoopCommands`. -/
theorem wit_LoopCommands :
    ((lpSt busyG).chip.loopRuns ↑(3 : Pickup) = true ∧ BitVec.toNat (1 : Byte) ≤ 1 ∧ ((lpSt busyG).chip.loop ↑(3 : Pickup)).state ≠ lOff) ∧
    (loopCommands1.chip.loopRuns ↑(3 : Pickup) = true ∧ (loopCommands1.chip.loop ↑(3 : Pickup)).cmd = none ∧ ((loopCommands1.chip.loop ↑(3 : Pickup)).state = lOff ∨ (loopCommands1.chip.loop ↑(3 : Pickup)).state = lRetracted)) ∧
    ((lpSt trackG).chip.loopRuns ↑(3 : Pickup) = true ∧ ((lpSt trackG).chip.loop ↑(3 : Pickup)).cmd = none ∧ BitVec.toNat (4 : Byte) ≤ 9 ∧ ((lpSt trackG).chip.loop ↑(3 : Pickup)).positions ≠ []) ∧
    ((lpSt trackG).chip.loopRuns ↑(3 : Pickup) = true ∧ ((lpSt trackG).chip.loop ↑(3 : Pickup)).cmd = none ∧ ((lpSt trackG).chip.loop ↑(3 : Pickup)).focusLock = true) ∧
    ((lpSt trackG).chip.loopRuns ↑(3 : Pickup) = true ∧ ((lpSt trackG).chip.loop ↑(3 : Pickup)).cmd = none ∧ ((lpSt trackG).chip.loop ↑(3 : Pickup)).state = lTracking ∧ signedOf 8 (BitVec.toNat (192 : Byte)) ≠ (0 : ℤ) ∧ (-64 : ℤ) ≤ signedOf 8 (BitVec.toNat (192 : Byte)) ∧ signedOf 8 (BitVec.toNat (192 : Byte)) ≤ (63 : ℤ)) ∧
    ((lpSt trackG).chip.loopRuns ↑(3 : Pickup) = true ∧ ((lpSt trackG).chip.loop ↑(3 : Pickup)).cmd = none ∧ BitVec.toNat (2 : Byte) ≤ 9 ∧ (((lpSt trackG).chip.loop ↑(3 : Pickup)).state = lTracking ∨ ((lpSt trackG).chip.loop ↑(3 : Pickup)).state = lFocused) ∧ BitVec.toNat (2 : Byte) = ((lpSt trackG).chip.loop ↑(3 : Pickup)).layer) ∧
    ((lpSt trackG).chip.loopRuns ↑(3 : Pickup) = true ∧ ((lpSt trackG).chip.loop ↑(3 : Pickup)).cmd = none ∧ BitVec.toNat (9 : Byte) ≤ 9 ∧ (((lpSt trackG).chip.loop ↑(3 : Pickup)).state = lTracking ∨ ((lpSt trackG).chip.loop ↑(3 : Pickup)).state = lFocused) ∧ BitVec.toNat (9 : Byte) ≠ ((lpSt trackG).chip.loop ↑(3 : Pickup)).layer) ∧
    ((lpSt trackG).chip.loopRuns ↑(3 : Pickup) = true ∧ ((lpSt trackG).chip.loop ↑(3 : Pickup)).cmd = none ∧ BitVec.toNat (3 : Byte) ≤ 3) ∧
    ((lpSt trackG).chip.loopRuns ↑(3 : Pickup) = true ∧ ((lpSt trackG).chip.loop ↑(3 : Pickup)).cmd = none ∧ BitVec.toNat (3 : Byte) ≤ 9) ∧
    ((lpSt trackG).chip.loopRuns ↑(3 : Pickup) = true ∧ ((lpSt trackG).chip.loop ↑(3 : Pickup)).cmd = none ∧ ((lpSt trackG).chip.loop ↑(3 : Pickup)).state = lTracking ∧ 1 ≤ BitVec.toNat (3 : Byte)) ∧
    ((lpSt trackG).chip.loopRuns ↑(3 : Pickup) = true ∧ ((lpSt trackG).chip.loop ↑(3 : Pickup)).cmd = none ∧ ((lpSt trackG).chip.loop ↑(3 : Pickup)).state = lTracking ∧ 5 ≤ BitVec.toNat (50 : Byte) ∧ BitVec.toNat (50 : Byte) ≤ 50 ∧ (0 : ℤ) ≤ BitVec.toInt (16777216 : Q) ∧ BitVec.toInt (16777216 : Q) ≤ (2 : ℤ) ^ 24) ∧
    ((lpSt trackG).chip.loopRuns ↑(3 : Pickup) = true ∧ ((lpSt trackG).chip.loop ↑(3 : Pickup)).cmd = none ∧ ((lpSt trackG).chip.loop ↑(3 : Pickup)).state = lTracking ∧ 5 ≤ BitVec.toNat (5 : Byte) ∧ BitVec.toNat (5 : Byte) ≤ 50 ∧ (0 : ℤ) ≤ BitVec.toInt (0 : Q) ∧ BitVec.toInt (0 : Q) ≤ (2 : ℤ) ^ 24) ∧
    ((lpSt trackG).chip.loopRuns ↑(3 : Pickup) = true ∧ ((lpSt trackG).chip.loop ↑(3 : Pickup)).cmd = none ∧ ((lpSt trackG).chip.loop ↑(3 : Pickup)).state = lTracking ∧ 16 ≤ BitVec.toNat (64 : Byte) ∧ BitVec.toNat (64 : Byte) ≤ 64) ∧
    ((lpSt busyG).chip.loopRuns ↑(3 : Pickup) = true ∧ ((lpSt busyG).chip.loop ↑(3 : Pickup)).cmd.isSome = true ∧ (∀ r ∈ ((lpSt busyG).chip.loop 3).cmd, ¬r.op = 3 ∧ ¬r.op = 4)) ∧
    ((lpSt busyG).chip.loopRuns ↑(3 : Pickup) = true ∧ 1 < BitVec.toNat (2 : Byte)) ∧
    ((lpSt trackG).chip.loopRuns ↑(3 : Pickup) = true ∧ ((lpSt trackG).chip.loop ↑(3 : Pickup)).cmd = none ∧ ((lpSt trackG).chip.loop ↑(3 : Pickup)).state ≠ lOff ∧ ((lpSt trackG).chip.loop ↑(3 : Pickup)).state ≠ lRetracted) ∧
    ((lpSt trackG).chip.loopRuns ↑(3 : Pickup) = true ∧ ((lpSt trackG).chip.loop ↑(3 : Pickup)).cmd = none ∧ (9 < BitVec.toNat (10 : Byte) ∨ ((lpSt trackG).chip.loop ↑(3 : Pickup)).positions = [])) ∧
    (loopCommands1.chip.loopRuns ↑(3 : Pickup) = true ∧ (loopCommands1.chip.loop ↑(3 : Pickup)).cmd = none ∧ (loopCommands1.chip.loop ↑(3 : Pickup)).focusLock = false) ∧
    ((lpSt trackG).chip.loopRuns ↑(3 : Pickup) = true ∧ ((lpSt trackG).chip.loop ↑(3 : Pickup)).cmd = none ∧ (((lpSt trackG).chip.loop ↑(3 : Pickup)).state ≠ lTracking ∨ BitVec.toNat (64 : Byte) = 0 ∨ (63 : ℤ) < signedOf 8 (BitVec.toNat (64 : Byte)) ∨ signedOf 8 (BitVec.toNat (64 : Byte)) < (-64 : ℤ))) ∧
    ((lpSt trackG).chip.loopRuns ↑(3 : Pickup) = true ∧ ((lpSt trackG).chip.loop ↑(3 : Pickup)).cmd = none ∧ (9 < BitVec.toNat (10 : Byte) ∨ ((lpSt trackG).chip.loop ↑(3 : Pickup)).state ≠ lTracking ∧ ((lpSt trackG).chip.loop ↑(3 : Pickup)).state ≠ lFocused)) ∧
    ((lpSt trackG).chip.loopRuns ↑(3 : Pickup) = true ∧ ((lpSt trackG).chip.loop ↑(3 : Pickup)).cmd = none ∧ 3 < BitVec.toNat (4 : Byte)) ∧
    ((lpSt trackG).chip.loopRuns ↑(3 : Pickup) = true ∧ ((lpSt trackG).chip.loop ↑(3 : Pickup)).cmd = none ∧ 9 < BitVec.toNat (10 : Byte)) ∧
    (loopCommands1.chip.loopRuns ↑(3 : Pickup) = true ∧ (loopCommands1.chip.loop ↑(3 : Pickup)).cmd = none ∧ (loopCommands1.chip.loop ↑(3 : Pickup)).state ≠ lTracking) ∧
    (loopCommands1.chip.loopRuns ↑(3 : Pickup) = true ∧ BitVec.toNat (1 : Byte) ≤ 1 ∧ (loopCommands1.chip.loop ↑(3 : Pickup)).state = lOff) :=
  ⟨by decide +kernel,
    by decide +kernel,
    by decide +kernel,
    by decide +kernel,
    by decide +kernel,
    by decide +kernel,
    by decide +kernel,
    by decide +kernel,
    by decide +kernel,
    by decide +kernel,
    by decide +kernel,
    by decide +kernel,
    by decide +kernel,
    by decide +kernel,
    by decide +kernel,
    by decide +kernel,
    by decide +kernel,
    by decide +kernel,
    by decide +kernel,
    by decide +kernel,
    by decide +kernel,
    by decide +kernel,
    by decide +kernel,
    by decide +kernel⟩

/-- States and operands that meet the hypotheses of each clause of `Obligations.LoopEvents`. -/
theorem wit_LoopEvents :
    ((loopEvents1.chip.loop 3).state = lSweep ∧ (loopEvents1.chip.loop 3).phase = 1 ∧ loopEvents1.chip.par (3) 8 ≤ (loopEvents1.chip.loop 3).focus ∧ (loopEvents1.chip.loop 3).curve = none) ∧
    (((loopEvents2.chip.loop 3).state = lAcquire ∨ (loopEvents2.chip.loop 3).state = lRecover) ∧ (loopEvents2.chip.loop 3).phase = 1 ∧ (loopEvents2.chip.loop 3).crossed = true) ∧
    (((lpSt loopEvents3).chip.loop 3).state = lAcquire ∧ ((lpSt loopEvents3).chip.loop 3).phase = 2 ∧ 40 ≤ ((lpSt loopEvents3).chip.loop 3).good ∧ ((lpSt loopEvents3).chip.loop 3).cmd.isSome = true ∧ ((lpSt loopEvents3).chip.loop 3).target ≤ 9) ∧
    (((lpSt loopEvents4).chip.loop 3).state = lPullIn ∧ ((lpSt loopEvents4).chip.loop 3).closed = true ∧ 40 ≤ ((lpSt loopEvents4).chip.loop 3).good) ∧
    (((lpSt loopEvents5).chip.loop 3).state = lJump ∧ ((lpSt loopEvents5).chip.loop 3).phase = 0 ∧ (∀ r ∈ ((lpSt loopEvents5).chip.loop 3).cmd, (signedOf 8 r.a).natAbs / 2 ≤ ((lpSt loopEvents5).chip.loop 3).cycles / 2) ∧ ((lpSt loopEvents5).chip.loop 3).cmd.isSome = true) ∧
    (((lpSt loopEvents6).chip.loop 3).state = lLayerJump ∧ ((lpSt loopEvents6).chip.loop 3).phase = 2 ∧ (lpSt loopEvents6).chip.cnt (3) 12 ≤ ((lpSt loopEvents6).chip.loop 3).count) ∧
    (((lpSt loopEvents7).chip.loop 3).state = lAcquire ∧ ((lpSt loopEvents7).chip.loop 3).phase = 3 ∧ ((lpSt loopEvents7).chip.loop 3).focus = (lpSt loopEvents7).chip.retractPos 3) ∧
    (((lpSt loopEvents8).chip.loop 3).cmd = some { op := 11, a := 5, arg := 3 : LoopCmd } ∧ ({ op := 11, a := 5, arg := 3 : LoopCmd }.op = 11 ∨ { op := 11, a := 5, arg := 3 : LoopCmd }.op = 12) ∧ 40000 ≤ ((lpSt loopEvents8).chip.loop 3).count * { op := 11, a := 5, arg := 3 : LoopCmd }.a) :=
  ⟨by decide +kernel,
    by decide +kernel,
    by decide +kernel,
    by decide +kernel,
    by decide +kernel,
    by decide +kernel,
    by decide +kernel,
    by decide +kernel⟩

/-- States and operands that meet the hypotheses of each clause of `Obligations.LoopLosses`. -/
theorem wit_LoopLosses :
    ((lpSt loopLosses1).chip.fld (CAL_PU_STATUS_CYCLE 3) = 0 ∧ ((lpSt loopLosses1).chip.cal 3).acqBy = none ∧ ((lpSt loopLosses1).chip.loop 3).focusLock = true ∧ 4 ≤ ((lpSt loopLosses1).chip.loop 3).bad ∧ ((lpSt loopLosses1).chip.seqr 3).losses = []) ∧
    ((lpSt loopLosses2).chip.fld (CAL_PU_STATUS_CYCLE 3) = 0 ∧ ((lpSt loopLosses2).chip.cal 3).acqBy = none ∧ ((lpSt loopLosses2).chip.loop 3).state = lTracking ∧ 40 ≤ ((lpSt loopLosses2).chip.loop 3).off) ∧
    ((lpSt loopLosses3).chip.fld (CAL_PU_STATUS_CYCLE 3) = 0 ∧ ((lpSt loopLosses3).chip.cal 3).acqBy = none ∧ ((lpSt loopLosses3).chip.loop 3).state = lPullIn ∧ ((lpSt loopLosses3).chip.loop 3).ownPull = false ∧ ((lpSt loopLosses3).chip.loop 3).trackLock = false ∧ 2000 ≤ ((lpSt loopLosses3).chip.loop 3).count) ∧
    (loopLosses4.chip.fld (CAL_PU_STATUS_CYCLE 3) = 0 ∧ (loopLosses4.chip.cal 3).acqBy = none ∧ (loopLosses4.chip.seqr 3).checkDue = true ∧ (loopLosses4.chip.loop 3).state = lTracking ∧ pbaLayer (BitVec.ofNat 40 (mkPba 0 2 0 300000)).toNat = (loopLosses4.chip.loop 3).layer ∧ pbaFurrow (BitVec.ofNat 40 (mkPba 0 2 0 300000)).toNat = 0 ∧ (loopLosses4.chip.seqr 3).bands = [] ∧ (loopLosses4.chip.seqr 3).intended = (loopLosses4.chip.loop 3).layer) ∧
    (loopLosses5.chip.fld (CAL_PU_STATUS_CYCLE 3) = 0 ∧ (loopLosses5.chip.cal 3).acqBy = none ∧ slipDir (loopLosses5.chip.seqr 3).slips = some 1 ∧ (loopLosses5.chip.pair 3).cmds.length < 4) ∧
    (loopLosses6.chip.fld (CAL_PU_STATUS_CYCLE 3) = 0 ∧ (loopLosses6.chip.cal 3).acqBy = none ∧ (loopLosses6.chip.loop 3).cmd = none ∧ (loopLosses6.chip.loop 3).focusLock = true ∧ (loopLosses6.chip.seqr 3).checkDue = false ∧ (loopLosses6.chip.seqr 3).seek = some { target := mkPba 0 2 0 300000 : SeekRec } ∧ { target := mkPba 0 2 0 300000 : SeekRec }.target = (BitVec.ofNat 40 (mkPba 0 2 0 300000)).toNat ∧ { target := mkPba 0 2 0 300000 : SeekRec }.step ≠ 3 ∧ pbaLayer (BitVec.ofNat 40 (mkPba 0 2 0 300000)).toNat = (loopLosses6.chip.loop 3).layer ∧ seekTurns (pbaSlot (BitVec.ofNat 40 (mkPba 0 2 0 300000)).toNat) (pbaSlot (BitVec.ofNat 40 (mkPba 0 2 0 300000)).toNat) = 0 ∧ (loopLosses6.chip.seqr 3).bands = []) :=
  ⟨by decide +kernel,
    by decide +kernel,
    by decide +kernel,
    by decide +kernel,
    by decide +kernel,
    by decide +kernel⟩

/-- States and operands that meet the hypotheses of each clause of `Obligations.StationStates`. -/
theorem wit_StationStates :
    ((∀ k < 2, clampSt.chip.host.stationEvents.getD k false = false) ∧ clampSt.chip.stState 2 = sEmpty ∧ clampSt.chip.flag (WMM_STN_CTRL_CLAMP_REQ 2) = true ∧ clampSt.chip.flag (WMM_STN_STATE_CLAMPED 2) = false) ∧
    ((∀ k < 2, (stnSt sSafe true id).chip.host.stationEvents.getD k false = false) ∧ ((stnSt sSafe true id).chip.stState 2 = sLoaded ∨ (stnSt sSafe true id).chip.stState 2 = sSafe) ∧ (stnSt sSafe true id).chip.flag (WMM_STN_STATE_CLAMPED 2) = true) ∧
    ((∀ k < 2, settleSt.chip.host.stationEvents.getD k false = false) ∧ (settleSt.chip.stn 2).settling = true ∧ settleSt.chip.stState 2 = sEmpty ∧ settleSt.chip.flag (WMM_STN_CTRL_CLAMP_REQ 2) = true) ∧
    ((∀ k < 2, (stnSt sLoaded true id).chip.host.stationEvents.getD k false = false) ∧ ((stnSt sLoaded true id).chip.stState 2 = sLoaded ∨ (stnSt sLoaded true id).chip.stState 2 = sSafe)) ∧
    ((∀ k < 2, (stnSt sMounted true id).chip.host.stationEvents.getD k false = false) ∧ (stnSt sMounted true id).chip.stState 2 = sMounted ∧ (stnSt sMounted true id).chip.host.cmds = [] ∧ (stnSt sMounted true id).chip.buf.staged = [] ∧ (∀ (p : ℕ), p / 2 = 2 → ((stnSt sMounted true id).chip.wch p).pass = none ∧ ((stnSt sMounted true id).chip.wch p).queued = none ∧ ((stnSt sMounted true id).chip.wch p).results = [] ∧ (stnSt sMounted true id).chip.fld (CAL_PU_STATUS_CYCLE p) = 0 ∧ ((stnSt sMounted true id).chip.cal p).acqBy = none ∧ ((stnSt sMounted true id).chip.frm p).reqs = [] ∧ ((stnSt sMounted true id).chip.frm p).retry = none ∧ ((stnSt sMounted true id).chip.vol p).qual = none)) ∧
    ((∀ k < 2, (stnSt sFault true id).chip.host.stationEvents.getD k false = false) ∧ (stnSt sFault true id).chip.stState 2 ∈ [sEmpty, sSafe, sFault, sLoaded]) ∧
    ((∀ k < 2, (parkingSt 2).chip.host.stationEvents.getD k false = false) ∧ (parkingSt 2).chip.stState 2 = sParking ∧ ((parkingSt 2).chip.stn 2).parkStep = 2 ∧ ((parkingSt 2).chip.pair (16 + 2)).cmds = []) ∧
    ((∀ k < 2, (parkingSt 3).chip.host.stationEvents.getD k false = false) ∧ (parkingSt 3).chip.stState 2 = sParking ∧ ((parkingSt 3).chip.stn 2).parkStep = 3 ∧ (parkingSt 3).chip.stopped 2 = true ∧ (parkingSt 3).chip.fld (LE_PAIR_CTRL_ENTRY (16 + 2)) = 1 ∧ ((parkingSt 3).chip.stn 2).causes.any faultCause = false ∧ ((parkingSt 3).chip.stn 2).reset = false ∧ ((parkingSt 3).chip.stn 2).waiters = [] ∧ ((parkingSt 3).chip.stn 2).holdClamp = false ∧ (parkingSt 3).chip.flag (WMM_STN_CTRL_CLAMP_REQ 2) = true) ∧
    ((∀ k < 2, (parkingSt 3).chip.host.stationEvents.getD k false = false) ∧ (parkingSt 3).chip.stState 2 = sParking ∧ 5 / 2 = 2 ∧ (parkingSt 3).chip.flag (LE_PAIR_EVENT_ESCALATED 5) = true ∧ (parkingSt 3).chip.fld (LE_PAIR_CTRL_ENTRY 5) ≠ 1) ∧
    ((∀ k < 2, motEscSt.chip.host.stationEvents.getD k false = false) ∧ motEscSt.chip.flag (LE_PAIR_EVENT_ESCALATED (16 + 2)) = true ∧ motEscSt.chip.fld (LE_PAIR_CTRL_ENTRY (16 + 2)) = 1 ∧ (motEscSt.chip.pair (16 + 2)).entry = 1 ∧ (motEscSt.chip.pair (16 + 2)).hasRun = true) ∧
    ((∀ k < 2, qualSt.chip.host.stationEvents.getD k false = false) ∧ (qualSt.chip.vol 4).qual = some { step := 4, waiters := [7] : Qual } ∧ { step := 4, waiters := [7] : Qual }.step = 4 ∧ { step := 4, waiters := [7] : Qual }.stop = false ∧ (qualSt.chip.cal 4).run = none) ∧
    ((∀ k < 2, quietSt.chip.host.stationEvents.getD k false = false) ∧ quietSt.chip.stState 2 = sMounted ∧ (quietSt.chip.pair (16 + 2)).cmds.length < 4 ∧ quietSt.chip.flag (SPN_CTRL_QUIET 2) = true ∧ (quietSt.chip.stn 2).aim = 8400 ∧ (∀ (p : ℕ), p / 2 = 2 → (quietSt.chip.wch p).pass = none ∧ quietSt.chip.fld (CAL_PU_STATUS_CYCLE p) = 0 ∧ (quietSt.chip.cal p).acqBy = none)) :=
  ⟨by decide +kernel,
    by decide +kernel,
    by decide +kernel,
    by decide +kernel,
    ⟨by decide +kernel, by decide +kernel, by decide +kernel, by decide +kernel, by intro p h; have h' : p / 2 = 2 := h; obtain rfl | rfl : p = 4 ∨ p = 5 := (by omega); all_goals decide +kernel⟩,
    by decide +kernel,
    by decide +kernel,
    by decide +kernel,
    by decide +kernel,
    by decide +kernel,
    by decide +kernel,
    ⟨by decide +kernel, by decide +kernel, by decide +kernel, by decide +kernel, by decide +kernel, by intro p h; have h' : p / 2 = 2 := h; obtain rfl | rfl : p = 4 ∨ p = 5 := (by omega); all_goals decide +kernel⟩⟩

/-- States and operands that meet the hypotheses of each clause of `Obligations.OuterAndRetry`. -/
theorem wit_OuterAndRetry :
    ((requestSt.chip.weir (weirKey 3 4)).items = [[{ v := 4294967305#64 : WWord }, { v := 100#64 : WWord }, { v := 3#64, corrupt := true : WWord }]] ∧ (requestSt.chip.seqr 4).online = true ∧ (requestSt.chip.cal 4).run = none ∧ requestSt.chip.bandDue 4 = false ∧ requestSt.chip.mounted 4 = true ∧ 9 < 2 ^ 32 ∧ 0 < 3 ∧ 3 < 4096 ∧ 100 + 3 ≤ volumeBlocks ∧ (List.map (fun w => BitVec.toNat w.v) [{ v := 4294967305#64 : WWord }, { v := 100#64 : WWord }, { v := 3#64, corrupt := true : WWord }] = [9 + 2 ^ 32 * true.toNat, 100, 3]) ∧ (∀ f ∈ requestSt.chip.buf.fills, f.number ≠ 9)) ∧
    (7 < 244160 ∧ (clusterSt.chip.frm 1).retry = none ∧ (clusterSt.chip.frm 1).reqs = [] ∧ clusterSt.chip.readIdle 1 = true ∧ 5 < 64 ∧ ((Cells.get (fun x => { : Cluster }) (clusterSt.chip.frm 1).clusters (clusterKey (2) 7)).whole = true) ∧ (((Cells.get (fun x => { : Cluster }) (clusterSt.chip.frm 1).clusters (clusterKey (2) 7)).get 5).state = Member.erased) ∧ (∀ j < 8, ((Cells.get (fun x => { : Cluster }) (clusterSt.chip.frm 1).clusters (clusterKey (2) 7)).get (56 + j)).blank = false)) ∧
    ((retrySt.chip.frm 1).retry = some retryR ∧ retrySt.chip.readIdle 1 = true ∧ retrySt.chip.mounted 1 = true ∧ retrySt.chip.afe.resumed = true ∧ retryR.blocks = [(homePba 0 100, 1, false)] ∧ retryR.waiting = [] ∧ (retrySt.chip.frm 1).reqs = [readQ] ∧ readQ.kind = ReqKind.read ∧ homePba 0 100 ∈ readQ.left ∧ readQ.aborted = false ∧ retryR.attempt < retrySt.chip.fld (FRM_RETRY_CFG_RETRY_MAX 1)) :=
  ⟨by decide +kernel,
    by decide +kernel,
    by decide +kernel⟩

/-- States and operands that meet the hypotheses of each clause of `Obligations.MotionCommands`. -/
theorem wit_MotionCommands :
    (motionCommands2.chip.motionRuns 2 = true ∧ (motionCommands2.chip.motion 2).spin = none ∧ (motionCommands2.chip.motion 2).braking = false ∧ motionCommands2.chip.limitsBit (2) 6 = false ∧ BitVec.toNat (6 : Byte) ∈ [1, 2, 5, 6] ∧ (motionCommands2.chip.motion 2).spn = mStopped ∧ motionCommands2.chip.seesStop 2 = true) ∧
    (motionCommands3.chip.motionRuns 2 = true ∧ (motionCommands3.chip.motion 2).spin = none ∧ (motionCommands3.chip.motion 2).braking = false ∧ motionCommands3.chip.limitsBit (2) 6 = false) ∧
    (motionCommands4.chip.motionRuns 2 = true ∧ (motionCommands4.chip.motion 2).spin = none ∧ (motionCommands4.chip.motion 2).braking = false ∧ motionCommands4.chip.limitsBit (2) 6 = false) ∧
    (motionCommands5.chip.motionRuns 2 = true ∧ ((motionCommands5.chip.motion ↑(2 : Station)).spin.isSome = true ∨ (motionCommands5.chip.motion ↑(2 : Station)).braking = true ∨ BitVec.toNat (6 : Byte) ∉ [1, 2, 5, 6]) ∧ (motionCommands5.chip.motion 2).spn ∈ [mStopped, mShort, mBrake]) ∧
    (motionCommands1.chip.motionRuns 2 = true ∧ (motionCommands1.chip.motion 2).u.running = none ∧ (motionCommands1.chip.motion 2).l.running = none ∧ 1 ≤ BitVec.toNat (3 : Byte) ∧ BitVec.toNat (3 : Byte) < 4) ∧
    (motionCommands1.chip.motionRuns 2 = true ∧ (motionCommands1.chip.motion 2).u.running = none ∧ (motionCommands1.chip.motion 2).l.running = none ∧ 4 ≤ BitVec.toNat (5 : Byte) ∧ BitVec.toNat (5 : Byte) < 8) ∧
    (motionCommands6.chip.motionRuns 2 = true ∧ (motionCommands6.chip.motion 2).u.running = none ∧ (motionCommands6.chip.motion 2).l.running = none ∧ BitVec.toNat (3 : Byte) < 4 ∧ (motionCommands6.chip.motion 2).u.state = 0 ∧ (motionCommands6.chip.motion 2).l.state = 0) :=
  ⟨by decide +kernel,
    by decide +kernel,
    by decide +kernel,
    by decide +kernel,
    by decide +kernel,
    by decide +kernel,
    by decide +kernel⟩

/-- States and operands that meet the hypotheses of each clause of `Obligations.SpindleEvents`. -/
theorem wit_SpindleEvents :
    ((spindleEvents1.chip.motion 2).spn = mMeasure ∧ 400 ≤ (spindleEvents1.chip.motion 2).count ∧ (spindleEvents1.chip.motion 2).spin.isSome = true ∧ 29 < 30) ∧
    ((spindleEvents1.chip.motion 2).spn = mMeasure ∧ 400 ≤ (spindleEvents1.chip.motion 2).count ∧ (spindleEvents1.chip.motion 2).spin.isSome = true ∧ 300 ≤ 300 ∧ (∀ k ∈ (spindleEvents1.chip.motion 2).spin, k.2 = false)) ∧
    ((spindleEvents1.chip.motion 2).spn = mMeasure ∧ 400 ≤ (spindleEvents1.chip.motion 2).count ∧ (spindleEvents1.chip.motion 2).spin.isSome = true ∧ 30 ≤ 300 ∧ (300 < 300 ∨ ∀ k ∈ (spindleEvents1.chip.motion 2).spin, k.2 ≠ true)) ∧
    ((spindleEvents2.chip.motion 2).spn = mAlign ∧ spindleEvents2.chip.cnt (16 + 2) 22 ≤ (spindleEvents2.chip.motion 2).count) ∧
    ((spindleEvents3.chip.motion 2).spn = mRamp ∧ (spindleEvents3.chip.motion 2).catching = false ∧ 64 ≤ (spindleEvents3.chip.motion 2).good) ∧
    ((spindleEvents4.chip.motion 2).spn = mBrake ∧ (8 ≤ (spindleEvents4.chip.motion 2).bad ∨ 8 ≤ (spindleEvents4.chip.motion 2).weak)) ∧
    ((spindleEvents5.chip.motion 2).spn = mRamp ∧ 40000 ≤ (spindleEvents5.chip.motion 2).count ∧ (spindleEvents5.chip.motion 2).attempts ≤ spindleEvents5.chip.cnt (16 + 2) 28) ∧
    ((spindleEvents6.chip.motion 2).spn = mRun ∧ (spindleEvents6.chip.motion 2).atSpeed = false ∧ 200 ≤ (spindleEvents6.chip.motion 2).near ∧ (spindleEvents6.chip.motion 2).spinup = false) ∧
    ((spindleEvents7.chip.motion 2).atSpeed = true ∧ 20 ≤ (spindleEvents7.chip.motion 2).far) ∧
    ((spindleEvents8.chip.motion 2).catching = true ∧ spindleEvents8.chip.cnt (16 + 2) 26 ≤ (spindleEvents8.chip.motion 2).count ∧ (spindleEvents8.chip.motion 2).windows + 1 ≤ spindleEvents8.chip.cnt (16 + 2) 27 ∧ 300 ≤ spindleEvents8.chip.fld (SPN_STATUS_TACH 2)) :=
  ⟨by decide +kernel,
    by decide +kernel,
    by decide +kernel,
    by decide +kernel,
    by decide +kernel,
    by decide +kernel,
    by decide +kernel,
    by decide +kernel,
    by decide +kernel,
    by decide +kernel⟩

/-- States and operands that meet the hypotheses of each clause of `Obligations.DriveHardware`. -/
theorem wit_DriveHardware :
    (((spnSt id).chip.spn 2).lastPhase = some 1 ∧ 1 < 3) ∧
    ((spnSt id).chip.flag (SPN_STATUS_DRIVER_FAULT 2) = false) ∧
    (driveHardware1.chip.flag (SPN_STATUS_SB_WAIT 2) = true ∧ driveHardware1.chip.flag (SPN_CTRL_BRAKE 2) = true ∧ driveHardware1.chip.flag (SPN_STATUS_DRIVER_FAULT 2) = false) ∧
    (((st id).chip.spn 2).cut = false ∧ ((st id).chip.fld (SPN_ILIM_ILIM ↑(2 : Station)) < (↑(BitVec.toNat (0 : BitVec 12)) - (2048 : ℤ)).natAbs ∨ (st id).chip.fld (SPN_ILIM_ILIM ↑(2 : Station)) < (↑(BitVec.toNat (5 : BitVec 12)) - (2048 : ℤ)).natAbs ∨ (st id).chip.fld (SPN_ILIM_ILIM ↑(2 : Station)) < (↑(BitVec.toNat (5 : BitVec 12)) - (2048 : ℤ)).natAbs)) ∧
    ((parkingSt 2).chip.stState 2 = sParking) ∧
    ((parkingSt 2).chip.stState (4 / 2) = sParking) ∧
    (driveHardware3.chip.flag (if true = true then MOT_AX_CTRL_OUTER_MODE 4 else MOT_AX_CTRL_INNER_MODE 4) = false) ∧
    (driveHardware4.chip.sledRuns 4 = true ∧ ((driveHardware4.chip.sled 4).chop false).drive = false ∧ ((driveHardware4.chip.sled 4).chop false).fast = false ∧ 0 ≤ driveHardware4.chip.sledRef (4) false.toNat ∧ 0 ≤ ((driveHardware4.chip.sled 4).chop false).ref ∧ -3000 * 2 ^ 17 ≤ (driveHardware4.chip.thresholds (4) false).1 ∧ 2000 ≤ 2000 ∧ 12500 ≤ 12500) ∧
    (driveHardware5.chip.sledRuns 4 = true ∧ ((driveHardware5.chip.sled 4).chop false).drive = true ∧ 0 ≤ driveHardware5.chip.sledRef (4) false.toNat ∧ 0 ≤ ((driveHardware5.chip.sled 4).chop false).ref ∧ (driveHardware5.chip.thresholds (4) false).2 ≤ 3000 * 2 ^ 17 ∧ 2000 ≤ 12500 ∧ driveHardware5.chip.fld (MOT_AX_CTRL_DECAY 4) = 0) ∧
    (driveHardware6.chip.sledRuns 4 = true ∧ ((driveHardware6.chip.sled 4).chop false).drive = false ∧ ((driveHardware6.chip.sled 4).chop false).fast = false ∧ driveHardware6.chip.fld (MOT_AX_CTRL_DECAY 4) = 2) ∧
    (centreSt.chip.flag (MOT_AX_STATUS_FOLLOW 4) = true ∧ centreSt.chip.int (CAL_PU_TSENS_SENS 4) ≠ 0 ∧ (centreSt.chip.seqr 4).trackN ≠ 0) :=
  ⟨by decide +kernel,
    by decide +kernel,
    by decide +kernel,
    by decide +kernel,
    by decide +kernel,
    by decide +kernel,
    by decide +kernel,
    by decide +kernel,
    by decide +kernel,
    by decide +kernel,
    by decide +kernel⟩

/-- States and operands that meet the hypotheses of each clause of `Obligations.LaneSlots`. -/
theorem wit_LaneSlots :
    (100 ≤ lastSlot ∧ (laneSlots1.chip.lane 11).cur = none ∧ (laneSlots1.chip.lane 11).disarm = false ∧ (laneSlots1.chip.lane 11).run = some { pba := 100, left := 1, landing := true, freq := 0 : ArmRun } ∧ { pba := 100, left := 1, landing := true, freq := 0 : ArmRun }.left ≠ 0 ∧ pbaSlot { pba := 100, left := 1, landing := true, freq := 0 : ArmRun }.pba = 100 ∧ laneSlots1.chip.flag (RCH_CTRL_EN 11) = true) ∧
    (lastSlot ≤ lastSlot ∧ (laneSlots2.chip.lane 11).cur = none ∧ (laneSlots2.chip.lane 11).disarm = false ∧ (laneSlots2.chip.lane 11).run = some { pba := mkPba 1 9 7 lastSlot, left := 3, landing := false, freq := 0 : ArmRun } ∧ { pba := mkPba 1 9 7 lastSlot, left := 3, landing := false, freq := 0 : ArmRun }.left ≠ 0 ∧ pbaSlot { pba := mkPba 1 9 7 lastSlot, left := 3, landing := false, freq := 0 : ArmRun }.pba = lastSlot ∧ laneSlots2.chip.flag (RCH_CTRL_EN 11) = true) ∧
    (lastSlot ≤ lastSlot ∧ (laneSlots3.chip.lane 11).cur = none ∧ (laneSlots3.chip.lane 11).run = none ∧ (laneSlots3.chip.lane 11).next = none ∧ (laneSlots3.chip.lane 11).verify = false) ∧
    ((laneSlots4.chip.lane 11).acqLeft = 0) ∧
    (laneSlots5.chip.flag (RCH_STATUS_WOBBLE_LOCK 11) = false) ∧
    (laneSlots6.chip.flag (RCH_STATUS_WOBBLE_LOCK 11) = true ∧ 2 < Int.natAbs 3) ∧
    (laneSlots7.chip.flag (RCH_STATUS_WOBBLE_LOCK 11) = false ∧ 4 ≤ (laneSlots7.chip.lane 11).marks) ∧
    ((11 % 8 ≠ 0 ∨ (laneSlots8.chip.wch (11 / 8)).pass = none) ∧ laneSlots8.chip.flag (RCH_STATUS_WOBBLE_LOCK 11) = true) ∧
    ((11 % 8 ≠ 0 ∨ (laneSlots9.chip.wch (11 / 8)).pass = none) ∧ laneSlots9.chip.flag (RCH_STATUS_LOOP_SAT 11) = true) ∧
    ((List.replicate 56 (-100)).length = 56 ∧ 11 % 8 ≠ 0 ∧ (laneSlots10.chip.lane 11).cur = none ∧ ((gaddrRead ((Option.map (fun x => x.amp) (laneSlots10.chip.lane 11).main).getD 0) (List.replicate 56 (-100))).1 ≠ CodeResult.failed)) ∧
    ((laneSlots11.chip.lane 11).cur.isSome = true) ∧
    ((laneSlots12.chip.lane 11).cur.isSome = true ∧ if true = true then laneSlots12.chip.fld (AFE_LANE_CFG_GAIN (11 / 8) (11 % 8)) ≤ 36 else 12 ≤ laneSlots12.chip.fld (AFE_LANE_CFG_GAIN (11 / 8) (11 % 8))) ∧
    ((laneSlots13.chip.lane 11).cur.isSome = true ∧ if false = true then laneSlots13.chip.fld (AFE_LANE_CFG_GAIN (11 / 8) (11 % 8)) ≤ 36 else 12 ≤ laneSlots13.chip.fld (AFE_LANE_CFG_GAIN (11 / 8) (11 % 8))) :=
  ⟨by decide +kernel,
    by decide +kernel,
    by decide +kernel,
    by decide +kernel,
    by decide +kernel,
    by decide +kernel,
    by decide +kernel,
    by decide +kernel,
    by decide +kernel,
    by decide +kernel,
    by decide +kernel,
    by decide +kernel,
    by decide +kernel⟩

/-- States and operands that meet the hypotheses of each clause of `Obligations.LaneItems`. -/
theorem wit_LaneItems :
    ((laneSlots11.chip.lane 11).cur = some curU ∧ 764 ≤ 848 ∧ 848 * 9 < 764 * 10) ∧
    ((laneItems1.chip.lane 11).cur = some curU ∧ (laneItems1.chip.lane 11).main = some vals ∧ (laneItems1.chip.lane 11).entry = some (5, zent) ∧ spanOk span0 = true ∧ curU.spans < 29 ∧ spanShape span0 (spanLen curU.spans) = true) ∧
    (laneItems3.spans = 29 ∧ (laneItems2.chip.lane 11).main = some vals ∧ (laneItems2.chip.lane 11).out = none ∧ (laneItems2.chip.lane 11).store.length ≤ 2 ∧ (laneItems2.chip.lane 11).acqLeft = 0 ∧ (laneItems2.chip.lane 11).cur = some laneItems3) ∧
    ((laneItems4.chip.lane 11).cur = some laneItems5 ∧ laneItems5.spans = 29 ∧ (laneItems4.chip.lane 11).main = some vals ∧ (laneItems4.chip.lane 11).out = none ∧ (laneItems4.chip.lane 11).store.length ≤ 2 ∧ (laneItems4.chip.lane 11).acqLeft = 0) ∧
    (laneItems6.chip.flag (RCH_STATUS_TAG_CONTEXT 11) = true ∧ (laneItems6.chip.lane 11).entry = some (5, zent)) ∧
    (57343 < 57344 ∧ (laneSlots11.chip.lane 11).hold = none) ∧
    ((laneItems7.chip.lane 11).hold = some { onset := 5 : DefHold } ∧ 57343 < 57344 ∧ (laneItems7.chip.lane 11).cur = none) ∧
    ((laneItems8.chip.lane 11).hold = some { onset := 5 : DefHold }) ∧
    ((laneItems9.chip.lane 11).hold = some { onset := 5, release := some 99, before := 7, long := true : DefHold } ∧ { onset := 5, release := some 99, before := 7, long := true : DefHold }.release = some 99 ∧ { onset := 5, release := some 99, before := 7, long := true : DefHold }.blank = false) ∧
    ((laneItems10.chip.lane 11).main = some vals ∧ laneItems10.chip.flag (RCH_SNAP_HOLD 11) = false ∧ laneItems10.chip.flag (RCH_STATUS_STALE 11) = false ∧ laneItems10.chip.flag (RCH_STATUS_TAG_CONTEXT 11) = false) ∧
    ((iterSt.chip.frm (11 / 8)).iterating = [iterB] ∧ iterB.item.lane = 11 ∧ iterB.back = false ∧ iterB.lost = false ∧ (iterSt.chip.lane 11).store = [iterY] ∧ iterY.pba = iterB.item.report.pba) ∧
    ((laneItems11.chip.lane 11).acqFirst = some vals ∧ (laneItems11.chip.lane 11).acqLast = some laneItems12 ∧ (laneItems11.chip.lane 11).seeds = false ∧ acqAgree vals laneItems12 = false ∧ (laneItems11.chip.cal (11 / 8)).asked = []) :=
  ⟨by decide +kernel,
    by decide +kernel,
    ⟨by decide +kernel, by decide +kernel, by decide +kernel, by decide +kernel, by decide +kernel, by rfl⟩,
    by decide +kernel,
    by decide +kernel,
    by decide +kernel,
    by decide +kernel,
    by decide +kernel,
    by decide +kernel,
    by decide +kernel,
    by decide +kernel,
    by decide +kernel⟩

/-- States and operands that meet the hypotheses of each clause of `Obligations.FramerPath`. -/
theorem wit_FramerPath :
    ((framerPath1.chip.lane 11).out = some { report := { pba := 100 : LaneReport }, llr := [] : LaneItem } ∧ framerPath1.chip.frameOf 11 = none ∧ framerPath1.chip.flag (FRM_CTRL_EN (11 / 8)) = true) ∧
    (framerPath2.chip.frameOf 11 = some { item := frItem 448 syncS : FrameCur } ∧ { item := frItem 448 syncS : FrameCur }.bare = false ∧ { item := frItem 448 syncS : FrameCur }.windowEnd = false ∧ { item := frItem 448 syncS : FrameCur }.nextCand = some 448 ∧ { item := frItem 448 syncS : FrameCur }.y = none) ∧
    (framerPath3.chip.frameOf 11 = some { item := frItem 576 syncS, cands := [(1, 575)] : FrameCur } ∧ { item := frItem 576 syncS, cands := [(1, 575)] : FrameCur }.bare = false ∧ { item := frItem 576 syncS, cands := [(1, 575)] : FrameCur }.windowEnd = false ∧ { item := frItem 576 syncS, cands := [(1, 575)] : FrameCur }.nextCand = some 576 ∧ { item := frItem 576 syncS, cands := [(1, 575)] : FrameCur }.y = none) ∧
    (framerPath4.chip.frameOf 11 = some { item := frItem 0 [] : FrameCur } ∧ { item := frItem 0 [] : FrameCur }.bare = false ∧ { item := frItem 0 [] : FrameCur }.windowEnd = false ∧ { item := frItem 0 [] : FrameCur }.nextCand = none ∧ { item := frItem 0 [] : FrameCur }.cands = []) ∧
    ((frSt framerPath5).chip.frameOf 11 = some framerPath5 ∧ framerPath5.y = some (0, 500) ∧ framerPath5.windowEnd = true ∧ framerPath5.tag = TagResult.none) ∧
    ((frSt okFrame).chip.frameOf 11 = some okFrame ∧ okFrame.y = some (0, 500) ∧ okFrame.windowEnd = true ∧ (okFrame.tag = TagResult.ok ∨ okFrame.tag = TagResult.corrected) ∧ okFrame.flywheel = false ∧ okFrame.confirmed = false ∧ (okFrame.shiftAt ((0, 500).2 + 2384)).isSome = true) ∧
    ((frSt framerPath6).chip.frameOf 11 = some framerPath6 ∧ framerPath6.y = some (0, 500) ∧ framerPath6.windowEnd = true ∧ framerPath6.starts ≠ [] ∧ framerPath6.starts.length < 27 ∧ framerPath6.shiftAt (framerPath6.starts.getLastD 0 + 2048) = none) ∧
    ((frSt framerPath7).chip.frameOf 11 = some framerPath7 ∧ framerPath7.y = some (0, 500) ∧ framerPath7.windowEnd = true ∧ framerPath7.starts ≠ [] ∧ framerPath7.starts.length < 27 ∧ framerPath7.shiftAt (framerPath7.starts.getLastD 0 + 2048) = some 0) ∧
    (framerPath8.chip.frameOf 11 = some { item := { report := { pba := 100, blank := true : LaneReport }, llr := [] : LaneItem } : FrameCur } ∧ { item := { report := { pba := 100, blank := true : LaneReport }, llr := [] : LaneItem } : FrameCur }.bare = true ∧ (framerPath8.chip.frm (11 / 8)).toDecoder.length < 2) ∧
    ((framerPath9.chip.frm 1).active = none ∧ (framerPath9.chip.frm 1).iterating = [] ∧ (framerPath9.chip.frm 1).toDecoder = [decIt] ∧ decIt.llr = some []) ∧
    (((ldpcSt ldpcB).chip.frm 1).active = some ldpcB ∧ (ldpcRun (iterBudget ldpcB.item.iter ldpcB.g ldpcB.iters) (fieldOf ldpcB.item.iter 28 3) ldpcB.input).1 = none ∧ ldpcB.g < ldpcB.item.iterMax ∧ (ldpcRun (iterBudget ldpcB.item.iter ldpcB.g ldpcB.iters) (fieldOf ldpcB.item.iter 28 3) ldpcB.input).2.2.2 ≤ fieldOf ldpcB.item.iter 16 12 ∧ ldpcB.iters + (ldpcRun (iterBudget ldpcB.item.iter ldpcB.g ldpcB.iters) (fieldOf ldpcB.item.iter 28 3) ldpcB.input).2.2.1 < 20 ∧ ((((ldpcSt ldpcB).chip.lane ldpcB.item.lane).store.any fun y => y.pba == ldpcB.item.report.pba) = true)) :=
  ⟨by decide +kernel,
    by decide +kernel,
    by decide +kernel,
    by decide +kernel,
    by decide +kernel,
    by decide +kernel,
    by decide +kernel,
    by decide +kernel,
    by decide +kernel,
    by decide +kernel,
    by decide +kernel⟩

/-- States and operands that meet the hypotheses of each clause of `Obligations.WritePasses`. -/
theorem wit_WritePasses :
    (((wrSt readyW).chip.wch 1).queued = some wPass ∧ (wrSt readyW).chip.passReady (1) wPass = true) ∧
    ((writePasses1.chip.wch 1).pass = some wPass ∧ wPass.at_ ≤ wPass.s2 ∧ (writePasses1.chip.wch 1).cur = none ∧ (writePasses1.chip.wch 1).stopAsked = false ∧ (writePasses1.chip.wch 1).underrun = false ∧ writePasses1.chip.slotItem (1) wPass wPass.at_ = some wItem) ∧
    ((writePasses2.chip.wch 1).pass = some wPass ∧ wPass.at_ ≤ wPass.s2 ∧ (writePasses2.chip.wch 1).underrun = false ∧ (writePasses2.chip.wch 1).stopAsked = false ∧ writePasses2.chip.skipsSlot (1) wPass wPass.at_ = false ∧ (writePasses2.chip.wch 1).items = [] ∧ writePasses2.chip.slotItem (1) wPass wPass.at_ = none) ∧
    ((writePasses4.chip.wch 1).pass = some writePasses3 ∧ writePasses3.s2 < writePasses3.at_ ∧ (writePasses4.chip.wch 1).cur = none ∧ (writePasses4.chip.wch 1).relocs = []) ∧
    ((writePasses6.chip.wch 1).results = [{ item := writePasses5, interrupted := false : Recorded }] ∧ vIn.dec.length = 57352 ∧ vIn.wOk = false ∧ { item := writePasses5, interrupted := false : Recorded }.item.flags = 1 ∧ writePasses6.chip.host.cmds = [] ∧ (writePasses6.chip.wch 1).syncOffsets = []) ∧
    (0 < 244160 ∧ sweepSt.chip.mayParity 1 = true ∧ (sweepSt.chip.slotItem 1 { s1 := clusterSlot 0 + 7, s2 := clusterSlot 0 + 7, furrow := 3, layer := 0, side := (sweepSt.chip.vol 1).side, at_ := clusterSlot 0 + 7, parityOnly := true : Pass } { s1 := clusterSlot 0 + 7, s2 := clusterSlot 0 + 7, furrow := 3, layer := 0, side := (sweepSt.chip.vol 1).side, at_ := clusterSlot 0 + 7, parityOnly := true : Pass }.s1).isSome = true) ∧
    (0 < 244160 ∧ surveySt.chip.forWriting 1 = true ∧ surveySt.chip.stState (1 / 2) = sMounted ∧ surveySt.chip.flag FLM_STATUS_UP = true ∧ surveySt.chip.isFatal = false ∧ surveySt.chip.flag (RCH_CTRL_DEGRADED (8 * 1)) = false ∧ surveySt.chip.host.cmds = [] ∧ surveySt.chip.buf.staged = [stagedE] ∧ (stagedE.volumeId, stagedE.side) = surveySt.chip.discOf 1 ∧ stagedE.survey = true ∧ stagedE.state = 1 ∧ pbaLayer stagedE.homePba = 0 ∧ slotCluster (pbaSlot stagedE.homePba) = 0 ∧ surveyBlank 18374686479671623681 (pbaFurrow stagedE.homePba) (slotInZone (pbaSlot stagedE.homePba) % 8) = true ∧ 1 < 56 ∧ surveySt.chip.recOf (1) (clusterLba (0) 0 1) = Rec.unknown) :=
  ⟨by decide +kernel,
    by decide +kernel,
    by decide +kernel,
    by decide +kernel,
    by decide +kernel,
    by decide +kernel,
    by decide +kernel⟩

/-- States and operands that meet the hypotheses of each clause of `Obligations.Xfurrow`. -/
theorem wit_Xfurrow :
    (5 ≠ 0 ∧ fieldOf (xfurrow1.chip.getX (Engine.cs 1) 2) 32 4 ≤ 9 ∧ fieldOf (xfurrow1.chip.getX (Engine.cs 1) 2) 0 32 + fieldOf (xfurrow1.chip.getX (Engine.cs 1) 2) 48 16 ≤ lastSlot + 1 ∧ fieldOf (xfurrow1.chip.getX (Engine.cs 1) 2) 48 16 ≠ 0 ∧ fieldOf (xfurrow1.chip.getX (Engine.cs 1) 2) 40 8 ≠ 0 ∧ (∀ k < 8, (fieldOf (xfurrow1.chip.getX (Engine.cs 1) 2) 40 8).testBit k = true → (xfurrow1.chip.lane (8 * 1 + k)).next = none ∧ xfurrow1.chip.flag (RCH_CTRL_EN (8 * 1 + k)) = true)) ∧
    (5 ≠ 0 ∧ isZoneAddr (BitVec.toNat ((xfSt 5 1).chip.getX (Engine.cs 1) 2)) = false) ∧
    (5 ≠ 0 ∧ isZoneAddr (BitVec.toNat (xfurrow3.chip.getX (Engine.cs 1) 2)) = true ∧ xfurrow3.chip.flag FLM_STATUS_UP = false) ∧
    (5 ≠ 0 ∧ isZoneAddr (BitVec.toNat ((xfSt 3145792 261).chip.getX (Engine.cs 1) 2)) = true ∧ (xfSt 3145792 261).chip.flag FLM_STATUS_UP = true ∧ fieldOf ((xfSt 3145792 261).chip.getX (Engine.cs 1) 3) 0 8 ≠ 0) ∧
    (5 ≠ 0 ∧ (xfurrow4.chip.eng (engNum (Engine.cs 1))).zload = some (3145792, 5, 1, 5) ∧ xfurrow4.chip.carrying = true ∧ xfurrow4.chip.unitMark (3145792 / 64) = UnitMark.good) ∧
    (5 ≠ 0 ∧ ((xfSt (BitVec.ofNat 64 (mkPba 0 2 3 16640)) 16700).chip.wch 1).pass = none ∧ ((xfSt (BitVec.ofNat 64 (mkPba 0 2 3 16640)) 16700).chip.wch 1).queued = none ∧ passRange (pbaSlot (fieldOf ((xfSt (BitVec.ofNat 64 (mkPba 0 2 3 16640)) 16700).chip.getX (Engine.cs 1) 2) 0 40)) (BitVec.toNat ((xfSt (BitVec.ofNat 64 (mkPba 0 2 3 16640)) 16700).chip.getX (Engine.cs 1) 3)) = true ∧ pbaLayer (fieldOf ((xfSt (BitVec.ofNat 64 (mkPba 0 2 3 16640)) 16700).chip.getX (Engine.cs 1) 2) 0 40) ≤ 9 ∧ (xfSt (BitVec.ofNat 64 (mkPba 0 2 3 16640)) 16700).chip.passEnabled 1 = true) ∧
    (5 ≠ 0 ∧ (xfurrow5.chip.wch 1).pass.isSome = true ∧ passRange (pbaSlot (fieldOf (xfurrow5.chip.getX (Engine.cs 1) 2) 0 40)) (BitVec.toNat (xfurrow5.chip.getX (Engine.cs 1) 3)) = true ∧ pbaLayer (fieldOf (xfurrow5.chip.getX (Engine.cs 1) 2) 0 40) ≤ 9 ∧ xfurrow5.chip.passEnabled 1 = true) ∧
    (5 ≠ 0 ∧ BitVec.toNat ((xfSt 65536 0).chip.getX (Engine.cs 1) 3) < 2 ∧ (xfSt 65536 0).chip.seqChanged (1) (BitVec.toNat ((xfSt 65536 0).chip.getX (Engine.cs 1) 3)) ((xfSt 65536 0).chip.getX (Engine.cs 1) 2) = true) ∧
    (5 ≠ 0 ∧ BitVec.toNat ((xfSt 0 1).chip.getX (Engine.cs 1) 3) < 2 ∧ (xfSt 0 1).chip.seqChanged (1) (BitVec.toNat ((xfSt 0 1).chip.getX (Engine.cs 1) 3)) ((xfSt 0 1).chip.getX (Engine.cs 1) 2) = false) ∧
    (5 ≠ 0 ∧ (xfurrow6.chip.eng (engNum (Engine.cs 1))).waitev = some (0, 5, 65536) ∧ xfurrow6.chip.seqChanged (1) 0 65536 = true) :=
  ⟨by decide +kernel,
    by decide +kernel,
    by decide +kernel,
    by decide +kernel,
    by decide +kernel,
    by decide +kernel,
    by decide +kernel,
    by decide +kernel,
    by decide +kernel,
    by decide +kernel⟩

/-- States and operands that meet the hypotheses of each clause of `Obligations.WatermasterRoles`. -/
theorem wit_WatermasterRoles :
    (watermasterRoles1.chip.wmRuns Die.m = true ∧ watermasterRoles1.chip.flag FLM_STATUS_UP = true) ∧
    (roleSt.chip.flag FLM_STATUS_UP = true ∧ (roleSt.chip.wm Die.m).missFlume = false) ∧
    (roleSt.chip.flag FLM_STATUS_UP = true ∧ (roleSt.chip.wm Die.h).missFlume = false) ∧
    (roleSt.chip.wmRuns Die.m = true ∧ roleSt.chip.flag FLM_STATUS_UP = true ∧ roleSt.chip.flag FLM_STATUS_RETRAINING = false ∧ roleSt.chip.flag (peerDead Die.m) = false ∧ (roleSt.chip.wm (otherDie Die.m)).restoring = false ∧ (if true = true then (roleSt.chip.wm Die.m).missFlume else (roleSt.chip.wm Die.m).missPulse) = false ∧ (roleSt.chip.wm Die.m).path ≠ some true.toNat) ∧
    (roleSt.chip.wmRuns Die.h = true ∧ roleSt.chip.flag FLM_STATUS_UP = true ∧ roleSt.chip.flag FLM_STATUS_RETRAINING = false ∧ roleSt.chip.flag (peerDead Die.h) = false ∧ (roleSt.chip.wm (otherDie Die.h)).restoring = false ∧ (if false = true then (roleSt.chip.wm Die.h).missFlume else (roleSt.chip.wm Die.h).missPulse) = false ∧ (roleSt.chip.wm Die.h).path ≠ some false.toNat) ∧
    (watermasterRoles2.chip.wmRuns Die.m = true ∧ watermasterRoles2.chip.flag FLM_STATUS_UP = true ∧ watermasterRoles2.chip.flag FLM_STATUS_RETRAINING = false ∧ watermasterRoles2.chip.flag (peerDead Die.m) = false ∧ (watermasterRoles2.chip.wm (otherDie Die.m)).restoring = false ∧ (watermasterRoles2.chip.wm Die.m).missFlume = true ∧ watermasterRoles2.chip.role Die.m = roleStandby) ∧
    (watermasterRoles3.chip.wmRuns Die.h = true ∧ watermasterRoles3.chip.flag FLM_STATUS_UP = true ∧ watermasterRoles3.chip.flag FLM_STATUS_RETRAINING = false ∧ watermasterRoles3.chip.flag (peerDead Die.h) = false ∧ (watermasterRoles3.chip.wm (otherDie Die.h)).restoring = false ∧ (watermasterRoles3.chip.wm Die.h).missFlume = true ∧ watermasterRoles3.chip.role Die.h = roleStandby) ∧
    (((waitingSt 3).chip.wm (waitingSt 3).chip.activeDie).waiting = [{ seq := 4, action := 3, unit := 2 : JournalRec }] ∧ (waitingSt 3).chip.carrying = true ∧ (waitingSt 3).chip.wmRuns (otherDie (waitingSt 3).chip.activeDie) = true ∧ (waitingSt 3).chip.sup.wmLoad = 0) ∧
    (((waitingSt 8).chip.wm (waitingSt 8).chip.activeDie).waiting = [{ seq := 4, action := 8, unit := 2 : JournalRec }] ∧ (waitingSt 8).chip.carrying = true ∧ (waitingSt 8).chip.wmRuns (otherDie (waitingSt 8).chip.activeDie) = true ∧ (waitingSt 8).chip.sup.wmLoad = 0) ∧
    (roleSt.chip.maySwap = true) ∧
    (watermasterRoles4.chip.flag WMH_CTRL_SWAP_EN = true ∧ watermasterRoles4.chip.maySwap = true) ∧
    (restoreSt.chip.wmRuns (otherDie Die.m) = true ∧ (restoreSt.chip.wm Die.m).restoring = true ∧ restoreSt.chip.role Die.m = roleFailed ∧ restoreSt.chip.host.activating = none ∧ restoreSt.chip.flag FLM_STATUS_UP = true) :=
  ⟨by decide +kernel,
    by decide +kernel,
    by decide +kernel,
    by decide +kernel,
    by decide +kernel,
    by decide +kernel,
    by decide +kernel,
    by decide +kernel,
    by decide +kernel,
    by decide +kernel,
    by decide +kernel,
    by decide +kernel⟩

/-- States and operands that meet the hypotheses of each clause of `Obligations.WatchdogsAndPark`. -/
theorem wit_WatchdogsAndPark :
    ((if true = true then roleSt.chip.carrying = true ∧ roleSt.chip.role (otherDie Die.m) = roleActive ∧ roleSt.chip.wmRuns (otherDie Die.m) = true else roleSt.chip.wmRuns Die.m = true)) ∧
    ((if false = true then roleSt.chip.carrying = true ∧ roleSt.chip.role (otherDie Die.h) = roleActive ∧ roleSt.chip.wmRuns (otherDie Die.h) = true else roleSt.chip.wmRuns Die.h = true)) ∧
    ((fedSt Die.h).chip.sup.wmH.fed.isSome = true ∧ (fedSt Die.h).chip.isFatal = false ∧ (fedSt Die.h).chip.host.cmds = [] ∧ (fedSt Die.h).chip.buf.scrub.uid = none ∧ (fedSt Die.h).chip.flag FLM_STATUS_UP = false) ∧
    ((fedSt Die.m).chip.sup.wmM.fed.isSome = true ∧ (fedSt Die.m).chip.flag WMM_PS_STATUS_ACTED = false ∧ (∀ p < 16, ((fedSt Die.m).chip.wch p).pass = none ∧ ((fedSt Die.m).chip.wch p).queued = none) ∧ (∀ x < 8, (fedSt Die.m).chip.stState x ∈ [sEmpty, sSafe, sLoaded, sFault])) ∧
    (psSt.chip.flag WMM_PS_STATUS_ACTED = true ∧ psSt.chip.stopped 2 = true ∧ psSt.chip.stState 2 = sParking ∧ (psSt.chip.stn 2).resetUids = [] ∧ (psSt.chip.stn 2).waiters = []) ∧
    (lostSt.chip.flag FLM_STATUS_UP = false ∧ lostSt.chip.wmRuns Die.m = true ∧ lostSt.chip.flag WMM_PS_STATUS_ACTED = false ∧ lostSt.chip.stState 2 = sMounted ∧ (∀ y < 8, y ≠ 2 → lostSt.chip.stState y ∈ [sEmpty, sSafe, sLoaded, sFault]) ∧ (∀ k < 2, lostSt.chip.host.stationEvents.getD k false = false) ∧ lostSt.chip.host.cmds = [] ∧ lostSt.chip.buf.staged = [] ∧ (∀ (p : ℕ), p / 2 = 2 → (lostSt.chip.wch p).pass = none ∧ (lostSt.chip.wch p).queued = none ∧ (lostSt.chip.wch p).results = [] ∧ lostSt.chip.fld (CAL_PU_STATUS_CYCLE p) = 0 ∧ (lostSt.chip.cal p).acqBy = none ∧ (lostSt.chip.frm p).reqs = [] ∧ (lostSt.chip.frm p).retry = none ∧ (lostSt.chip.vol p).qual = none)) :=
  ⟨by decide +kernel,
    by decide +kernel,
    by decide +kernel,
    by decide +kernel,
    by decide +kernel,
    ⟨by decide +kernel, by decide +kernel, by decide +kernel, by decide +kernel, by decide +kernel, by decide +kernel, by decide +kernel, by decide +kernel, by intro p h; have h' : p / 2 = 2 := h; obtain rfl | rfl : p = 4 ∨ p = 5 := (by omega); all_goals decide +kernel⟩⟩

/-- States and operands that meet the hypotheses of each clause of `Obligations.CoresAndSequencers`. -/
theorem wit_CoresAndSequencers :
    ((coreSt 4095).chip.coreOnline 3 = true ∧ (coreSt 4095).chip.host.queues = [] ∧ (coreSt 4095).chip.buf.fills = []) ∧
    ((coreSt 528375).chip.flag { reg := WMH_CORES, lo := 16 + 3, w := 1 : Fld } = true) ∧
    ((coresAndSequencers1.chip.seqr 5).online = true ∧ (coresAndSequencers1.chip.seqr 5).failedAt = none ∧ (coresAndSequencers1.chip.frm 5).retry = none ∧ (coresAndSequencers1.chip.wch 5).pass = none ∧ (coresAndSequencers1.chip.wch 5).queued = none) ∧
    ((coresAndSequencers2.chip.seqr 5).restarting = true ∧ (coresAndSequencers2.chip.seqr 5).held = false ∧ coresAndSequencers2.chip.host.activating = none) :=
  ⟨by decide +kernel,
    by decide +kernel,
    by decide +kernel,
    by decide +kernel⟩

/-- States and operands that meet the hypotheses of each clause of `Obligations.CalibrationCycles`. -/
theorem wit_CalibrationCycles :
    (armedSt.chip.flag (CAL_PU_STATUS_CYCLE ↑(5 : Pickup)) = false ∧ armedSt.chip.startRefused (↑(5 : Pickup)) (armedSt.chip.fld (CAL_PU_CTRL_ITEM ↑(5 : Pickup))) = true) ∧
    (upSt.chip.flag (CAL_PU_STATUS_CYCLE ↑(5 : Pickup)) = false ∧ upSt.chip.startRefused (↑(5 : Pickup)) (upSt.chip.fld (CAL_PU_CTRL_ITEM ↑(5 : Pickup))) = false ∧ upSt.chip.fld (CAL_ITEM_STATE (↑(5 : Pickup)) (upSt.chip.fld (CAL_PU_CTRL_ITEM ↑(5 : Pickup)))) ≠ 3) ∧
    ((List.replicate 14 (7 : BitVec 16)).length = 14 ∧ (cycleSt 0).chip.flag (CAL_PU_STATUS_CYCLE ↑(5 : Pickup)) = true ∧ (cycleSt 0).chip.fld (CAL_PU_STATUS_ITEM ↑(5 : Pickup)) ≤ 1 ∧ ((cycleSt 0).chip.cal ↑(5 : Pickup)).first = none ∧ (cycleSt 0).chip.startRefused (↑(5 : Pickup)) ((cycleSt 0).chip.fld (CAL_PU_STATUS_ITEM ↑(5 : Pickup))) = false) ∧
    ((List.replicate 14 (7 : BitVec 16)).length = 14 ∧ (cycleSt 1).chip.flag (CAL_PU_STATUS_CYCLE ↑(5 : Pickup)) = true ∧ (cycleSt 1).chip.fld (CAL_PU_STATUS_ITEM ↑(5 : Pickup)) ≤ 1 ∧ ((cycleSt 1).chip.cal ↑(5 : Pickup)).first = none ∧ (cycleSt 1).chip.startRefused (↑(5 : Pickup)) ((cycleSt 1).chip.fld (CAL_PU_STATUS_ITEM ↑(5 : Pickup))) = false) ∧
    ((autoSt.chip.flag CAL_CTRL_PLL_AUTO = false ∨ autoSt.chip.flag CAL_PLL_PENDING = false ∧ 200 ≤ ↑(200 : Fin 1001) ∧ ↑(200 : Fin 1001) ≤ 800)) ∧
    ((calibrationCycles1.chip.flag CAL_CTRL_PLL_AUTO = false ∨ calibrationCycles1.chip.flag CAL_PLL_PENDING = false ∧ 200 ≤ ↑(10 : Fin 1001) ∧ ↑(10 : Fin 1001) ≤ 800)) ∧
    (autoSt.chip.flag CAL_CTRL_PLL_AUTO = true ∧ (50 < ↑(51 : Fin 1001) ∧ ↑(51 : Fin 1001) < 200 ∨ 800 < ↑(51 : Fin 1001) ∧ ↑(51 : Fin 1001) < 950)) ∧
    (autoSt.chip.flag CAL_CTRL_PLL_AUTO = true ∧ (50 < ↑(949 : Fin 1001) ∧ ↑(949 : Fin 1001) < 200 ∨ 800 < ↑(949 : Fin 1001) ∧ ↑(949 : Fin 1001) < 950)) ∧
    ((stepSt none false).chip.flag CAL_PLL_PENDING = true ∧ (stepSt none false).chip.idleBoundary = true) ∧
    ((stepSt (some 31) true).chip.flag CAL_PLL_PENDING = true ∧ (stepSt (some 31) true).chip.idleBoundary = true) ∧
    ((stepSt (some 31) false).chip.thermal.stepFrom.isSome = true ∧ (stepSt (some 31) false).chip.thermal.reverse = false ∧ (stepSt (some 31) false).chip.thermal.pllBy = [] ∧ 200 ≤ ↑(200 : Fin 1001) ∧ ↑(200 : Fin 1001) ≤ 800 ∧ 200 ≤ ↑(800 : Fin 1001) ∧ ↑(800 : Fin 1001) ≤ 800) ∧
    ((stepSt (some 31) false).chip.thermal.stepFrom.isSome = true ∧ (stepSt (some 31) false).chip.thermal.reverse = false ∧ (stepSt (some 31) false).chip.thermal.pllBy = [] ∧ (↑(199 : Fin 1001) < 200 ∨ 800 < ↑(800 : Fin 1001))) ∧
    (upSt.chip.thermal.refBy = [] ∧ 1 < (BitVec.toInt (5 : BitVec 10) - BitVec.toInt (1023 : BitVec 10)).natAbs) ∧
    (upSt.chip.thermal.refBy = [] ∧ (BitVec.toInt (0 : BitVec 10) - BitVec.toInt (1023 : BitVec 10)).natAbs ≤ 1) :=
  ⟨by decide +kernel,
    by decide +kernel,
    by decide +kernel,
    by decide +kernel,
    by decide +kernel,
    by decide +kernel,
    by decide +kernel,
    by decide +kernel,
    by decide +kernel,
    by decide +kernel,
    by decide +kernel,
    by decide +kernel,
    by decide +kernel,
    by decide +kernel⟩

/-- States and operands that meet the hypotheses of each clause of `Obligations.Temperatures`. -/
theorem wit_Temperatures :
    ((∀ j < 12, (upSt.chip.sens (dieBase Die.h + j)).broken = false) ∧ 192 ≤ BitVec.toNat (192 : BitVec 11) ∧ BitVec.toNat (192 : BitVec 11) ≤ 1712 ∧ upSt.chip.fld (heatLevel (Heat.die Die.h)) = 0 ∧ (upSt.chip.heat (heatNum (Heat.die Die.h))).lvl = 0 ∧ BitVec.toNat (192 : BitVec 11) < upSt.chip.heatAt (Heat.die Die.h) 1 ∧ BitVec.toNat (192 : BitVec 11) < upSt.chip.heatAt (Heat.die Die.h) 2 ∧ BitVec.toNat (192 : BitVec 11) < upSt.chip.heatAt (Heat.die Die.h) 0) ∧
    ((∀ j < 12, (upSt.chip.sens (dieBase Die.m + j)).broken = false) ∧ 192 ≤ BitVec.toNat (192 : BitVec 11) ∧ BitVec.toNat (192 : BitVec 11) ≤ 1712 ∧ upSt.chip.fld (heatLevel (Heat.die Die.m)) = 0 ∧ (upSt.chip.heat (heatNum (Heat.die Die.m))).lvl = 0 ∧ BitVec.toNat (192 : BitVec 11) < upSt.chip.heatAt (Heat.die Die.m) 1 ∧ BitVec.toNat (192 : BitVec 11) < upSt.chip.heatAt (Heat.die Die.m) 2 ∧ BitVec.toNat (192 : BitVec 11) < upSt.chip.heatAt (Heat.die Die.m) 0) ∧
    ((∀ j < 12, ((warnSt 1).chip.sens (dieBase Die.h + j)).broken = false) ∧ 192 ≤ (BitVec.ofNat 11 ((warnSt 1).chip.heatAt (Heat.die Die.h) 0)).toNat ∧ (BitVec.ofNat 11 ((warnSt 1).chip.heatAt (Heat.die Die.h) 0)).toNat ≤ 1712 ∧ (warnSt 1).chip.fld (heatLevel (Heat.die Die.h)) = 0 ∧ ((warnSt 1).chip.heat (heatNum (Heat.die Die.h))).lvl = 0 ∧ (BitVec.ofNat 11 ((warnSt 1).chip.heatAt (Heat.die Die.h) 0)).toNat < (warnSt 1).chip.heatAt (Heat.die Die.h) 1 ∧ (BitVec.ofNat 11 ((warnSt 1).chip.heatAt (Heat.die Die.h) 0)).toNat < (warnSt 1).chip.heatAt (Heat.die Die.h) 2 ∧ (warnSt 1).chip.heatAt (Heat.die Die.h) 0 ≤ (BitVec.ofNat 11 ((warnSt 1).chip.heatAt (Heat.die Die.h) 0)).toNat ∧ ((warnSt 1).chip.heat (heatNum (Heat.die Die.h))).upW = 1 ∧ (∀ j < 12, j ≠ 5 → (warnSt 1).chip.fld (if Die.h = Die.h then THH_SENSOR_TEMP j else CAL_SENSOR_TEMP j) < (BitVec.ofNat 11 ((warnSt 1).chip.heatAt (Heat.die Die.h) 0)).toNat)) ∧
    ((∀ j < 12, (upSt.chip.sens (dieBase Die.h + j)).broken = false) ∧ 192 ≤ BitVec.toNat (192 : BitVec 11) ∧ BitVec.toNat (192 : BitVec 11) ≤ 1712 ∧ upSt.chip.fld (heatLevel (Heat.die Die.h)) = 0 ∧ (upSt.chip.heat (heatNum (Heat.die Die.h))).lvl = 0 ∧ BitVec.toNat (192 : BitVec 11) < upSt.chip.heatAt (Heat.die Die.h) 1 ∧ BitVec.toNat (192 : BitVec 11) < upSt.chip.heatAt (Heat.die Die.h) 2 ∧ 3 * 125 ≤ 4 * 100 ∧ 4 * 100 ≤ 5 * 125) ∧
    ((throttleSt.chip.heat (heatNum (Heat.die Die.h))).lvl = 2 ∧ (throttleSt.chip.heat (heatNum (Heat.die Die.h))).holding = true ∧ throttleSt.chip.brokenLevel (Heat.die Die.h) = 0 ∧ throttleSt.chip.fld (heatLevel (Heat.die Die.h)) = 2) ∧
    (-1024 ≤ -1024 ∧ -1024 < 1024) ∧
    (-1024 ≤ 1023 ∧ 1023 < 1024) :=
  ⟨by decide +kernel,
    by decide +kernel,
    by decide +kernel,
    by decide +kernel,
    by decide +kernel,
    by decide +kernel,
    by decide +kernel⟩

/-- States and operands that meet the hypotheses of each clause of `Obligations.HostWindows`. -/
theorem wit_HostWindows :
    ((hostSt [] winQ).chip.windowOk ↑(0 : Port) 3 = true ∧ ((hostSt [] winQ).chip.queue 3).stopped = false ∧ ((hostSt [] winQ).chip.queue 3).halted = false ∧ 1984 < 2048 ∧ (1984 / 64 : ℕ) ∉ ((hostSt [] winQ).chip.queue 3).open_ ∧ 0 < (hostSt [] winQ).chip.freeForUse) ∧
    ((hostSt [] winQ).chip.windowOk ↑(0 : Port) 3 = true ∧ ((hostSt [] winQ).chip.queue 3).stopped = false ∧ ((hostSt [] winQ).chip.queue 3).halted = false ∧ ((hostSt [] winQ).chip.queue 3).expPos < 65536 ∧ ((hostSt [] winQ).chip.queue 3).expPos % 32 ∈ ((hostSt [] winQ).chip.queue 3).open_ ∧ BitVec.getLsbD (9223372178588696576 : Word) 63 = true ∧ BitVec.toNat (9223372178588696576 : Word) / 2 ^ 32 % 65536 = ((hostSt [] winQ).chip.queue 3).expPos ∧ (Cells.get (fun x => (0 : Byte)) ((hostSt [] winQ).chip.queue 3).slots (64 * (((hostSt [] winQ).chip.queue 3).expPos % 32) + 4) = (0 : Byte))) ∧
    ((hostSt [] winQ).chip.windowOk ↑(0 : Port) 3 = true ∧ ((hostSt [] winQ).chip.queue 3).stopped = false ∧ ((hostSt [] winQ).chip.queue 3).dataHalted = false ∧ dataH.commit = true ∧ dataH.pos.toNat = ((hostSt [] winQ).chip.queue 3).dataExp ∧ (List.replicate 64 (7 : Byte)).length = dataH.length.toNat ∧ (List.find? (fun m => m.tag == dataH.tag.toNat && m.status.isNone && m.mark.isNone) ((hostSt [] winQ).chip.queueCmds 3) = none) ∧ ((hostSt [] winQ).chip.queue 3).doneTags.contains dataH.tag.toNat = true) ∧
    (hostWindows1.chip.windowOk ↑(0 : Port) 3 = true ∧ (hostWindows1.chip.queue 3).stopped = false ∧ (hostWindows1.chip.queue 3).dataHalted = false ∧ dataH.commit = true ∧ dataH.pos.toNat = (hostWindows1.chip.queue 3).dataExp ∧ (List.replicate 64 (7 : Byte)).length = dataH.length.toNat ∧ (List.find? (fun m => m.tag == dataH.tag.toNat && m.status.isNone && m.mark.isNone) (hostWindows1.chip.queueCmds 3) = some hostWindows2) ∧ dataH.offset.toNat % 64 = 0 ∧ dataH.length.toNat % 64 = 0 ∧ 64 ≤ dataH.length.toNat ∧ dataH.length.toNat ≤ 4096 ∧ ((hostWindows2.grants.any fun g => decide (g.off ≤ dataH.offset.toNat ∧ dataH.offset.toNat + dataH.length.toNat ≤ g.off + g.len) && !g.closed hostWindows2.dataBytes) = true)) ∧
    ((hostSt [] winQ).chip.windowOk ↑(1 : Port) 3 = false) ∧
    ((hostSt [] hostWindows3).chip.windowOk ↑(0 : Port) 3 = true ∧ BitVec.getLsbD (1 : BitVec 32) 0 = true ∧ ((hostSt [] hostWindows3).chip.queue 3).halted = true) ∧
    ((hostSt [] hostWindows4).chip.windowOk ↑(0 : Port) 3 = true ∧ BitVec.getLsbD (1 : BitVec 32) 0 = true ∧ ((hostSt [] hostWindows4).chip.queue 3).dataHalted = true) ∧
    (hostWindows5.chip.portExists ↑(0 : Port) = true ∧ 3 < hostWindows5.chip.scale ∧ (hostWindows5.chip.ring 3).created = true ∧ (hostWindows5.chip.ring 3).port = ↑(0 : Port) ∧ BitVec.toNat (15 : BitVec 32) % 65536 < (hostWindows5.chip.ring 3).size ∧ (BitVec.toNat (15 : BitVec 32) % 65536 + (hostWindows5.chip.ring 3).size - (hostWindows5.chip.ring 3).head) % (hostWindows5.chip.ring 3).size ≤ ((hostWindows5.chip.ring 3).next + (hostWindows5.chip.ring 3).size - (hostWindows5.chip.ring 3).head) % (hostWindows5.chip.ring 3).size) ∧
    (hostWindows5.chip.portExists ↑(0 : Port) = true ∧ 3 < hostWindows5.chip.scale ∧ (hostWindows5.chip.ring 3).created = true ∧ (hostWindows5.chip.ring 3).port = ↑(0 : Port) ∧ BitVec.toNat (0 : BitVec 32) % 65536 < (hostWindows5.chip.ring 3).size ∧ ((hostWindows5.chip.ring 3).next + (hostWindows5.chip.ring 3).size - (hostWindows5.chip.ring 3).head) % (hostWindows5.chip.ring 3).size < (BitVec.toNat (0 : BitVec 32) % 65536 + (hostWindows5.chip.ring 3).size - (hostWindows5.chip.ring 3).head) % (hostWindows5.chip.ring 3).size) ∧
    ((hostSt [] winQ).chip.portExists ↑(1 : Port) = true ∧ (hostSt [] winQ).chip.flag (SLC_PORT_CTRL_ENABLE ↑(1 : Port)) = false) ∧
    ((takeSt.chip.queue 3).sets = [{ capsules := [List.replicate 64 (16 : Byte)], at_ := (5 : Word) : CapSet }] ∧ (takeSt.chip.queue 3).port < 2 ∧ (takeSt.chip.queue 3).created = true ∧ (takeSt.chip.queue 3).stopped = false ∧ takeSt.chip.hostHeld = false ∧ (takeSt.chip.queue 3).order.length < 256 ∧ takeSt.chip.outstanding < 65536 ∧ 0 < takeSt.chip.freeForUse ∧ (takeSt.chip.queue 3).core = some 2 ∧ 0 < takeSt.chip.credits 0 2 ∧ (∀ m ∈ takeSt.chip.host.cmds, m.uid < takeSt.chip.host.nextUid)) ∧
    (takeSt.chip.portExists ↑(0 : Port) = true ∧ takeSt.chip.host.configRetry = false ∧ (4 / 4 : ℕ) % 1024 ∉ [0, 2, 11]) ∧
    (takeSt.chip.portExists ↑(0 : Port) = true ∧ takeSt.chip.host.configRetry = false ∧ (44 / 4 : ℕ) % 1024 ∈ [0, 2, 11]) :=
  ⟨by decide +kernel,
    by decide +kernel,
    by decide +kernel,
    by decide +kernel,
    by decide +kernel,
    by decide +kernel,
    by decide +kernel,
    by decide +kernel,
    by decide +kernel,
    by decide +kernel,
    by decide +kernel,
    by decide +kernel,
    by decide +kernel⟩

/-- States and operands that meet the hypotheses of each clause of `Obligations.HostRings`. -/
theorem wit_HostRings :
    ((hostWindows5.chip.ring 3).created = true ∧ (hostWindows5.chip.ring 3).room = true ∧ hostWindows5.chip.hostHeld = false ∧ (hostWindows5.chip.ring 3).intEn = false ∧ hostWindows5.chip.host.portHeld.getD (hostWindows5.chip.ring 3).port false = false ∧ (hostWindows5.chip.ring 3).events = [evRec] ∧ evRec.queue = 65535) ∧
    ((doneSt.chip.ring 3).created = true ∧ (doneSt.chip.ring 3).room = true ∧ doneSt.chip.hostHeld = false ∧ (doneSt.chip.ring 3).intEn = false ∧ doneSt.chip.host.portHeld.getD (doneSt.chip.ring 3).port false = false ∧ (doneSt.chip.queue 3).created = true ∧ (doneSt.chip.queue 3).ring = 3 ∧ (doneSt.chip.weir (weirKey 2 3)).items = [hostRings2] ∧ doneSt.chip.host.cmds = [hostRings1] ∧ hostRings1.queue = 3 ∧ hostRings1.inPath = true ∧ hostRings1.opcode ≠ opWrite ∧ doneSt.chip.host.qresets = [] ∧ doneSt.chip.host.barrier = none ∧ ((wordsRecord (List.map (fun x => x.v) hostRings2)).kind = 0) ∧ ((wordsRecord (List.map (fun x => x.v) hostRings2)).tag = hostRings1.tag) ∧ ((wordsRecord (List.map (fun x => x.v) hostRings2)).status ≠ stFatal)) ∧
    ((hostRings3.chip.ring 3).created = true ∧ (hostRings3.chip.ring 3).intEn = true ∧ (hostRings3.chip.ring 3).intTime ≠ 0 ∧ (hostRings3.chip.ring 3).firstAt.isSome = true) ∧
    (Starts (hostSt [hostRings4]).chip 3 9 opQcreate hostRings4 ∧ 2 ≤ hostRings4.arg0 % 65536 ∧ hostRings4.arg0 % 65536 < (hostSt [hostRings4]).chip.scale ∧ ((hostSt [hostRings4]).chip.queue (hostRings4.arg0 % 65536)).created = false ∧ ((hostSt [hostRings4]).chip.ring (hostRings4.arg0 % 65536)).created = false ∧ hostRings4.arg0.testBit 16 = false ∧ bitsOf hostRings4.arg0 32 16 = 0 ∧ 4 ≤ bitsOf hostRings4.arg0 24 5 ∧ bitsOf hostRings4.arg0 24 5 ≤ 16 ∧ bitsOf hostRings4.arg3 0 64 % 4096 = 0) ∧
    (Starts (hostSt [hostRings5]).chip 3 9 opQcreate hostRings5 ∧ 2 ≤ hostRings5.arg0 % 65536 ∧ hostRings5.arg0 % 65536 < (hostSt [hostRings5]).chip.scale ∧ ((hostSt [hostRings5]).chip.queue (hostRings5.arg0 % 65536)).created = false ∧ ((hostSt [hostRings5]).chip.ring (hostRings5.arg0 % 65536)).created = false ∧ hostRings5.arg0.testBit 16 = true ∧ bitsOf hostRings5.arg0 24 5 = 0 ∧ bitsOf hostRings5.arg0 48 11 = 0 ∧ hostRings5.arg1 = 0 ∧ hostRings5.arg3 = 0 ∧ ((hostSt [hostRings5]).chip.ring (bitsOf hostRings5.arg0 32 16)).created = true ∧ ((hostSt [hostRings5]).chip.ring (bitsOf hostRings5.arg0 32 16)).port = hostRings5.port) ∧
    (Starts hostRings7.chip 3 9 opQdelete hostRings6 ∧ 2 ≤ hostRings6.arg0 % 65536 ∧ hostRings6.arg0 % 65536 < hostRings7.chip.scale ∧ hostRings6.arg0.testBit 16 = true ∧ (hostRings7.chip.queue (hostRings6.arg0 % 65536)).created = true ∧ (hostRings7.chip.queue (hostRings6.arg0 % 65536)).port = hostRings6.port ∧ (hostRings7.chip.queue (hostRings6.arg0 % 65536)).order = []) ∧
    (Starts hostRings9.chip 3 9 opQdelete hostRings8 ∧ 2 ≤ hostRings8.arg0 % 65536 ∧ hostRings8.arg0 % 65536 < hostRings9.chip.scale ∧ hostRings8.arg0.testBit 16 = false ∧ (hostRings9.chip.ring (hostRings8.arg0 % 65536)).created = true ∧ (hostRings9.chip.ring (hostRings8.arg0 % 65536)).port = hostRings8.port ∧ ((List.any hostRings9.chip.host.queues fun q => q.2.created && q.2.ring == hostRings8.arg0 % 65536) = false)) ∧
    (Starts hostRings11.chip 3 9 opQreset hostRings10 ∧ hostRings10.arg0 % 65536 ≠ hostRings10.queue ∧ (hostRings11.chip.queue (hostRings10.arg0 % 65536)).created = true ∧ (hostRings11.chip.queue (hostRings10.arg0 % 65536)).port = hostRings10.port ∧ (hostRings11.chip.queue (hostRings10.arg0 % 65536)).order = [] ∧ (hostRings11.chip.queue (hostRings10.arg0 % 65536)).sets = [] ∧ hostRings11.chip.host.qresets = []) ∧
    (Starts (hostSt [hostRings12]).chip 3 9 opAbort hostRings12 ∧ ((hostSt [hostRings12]).chip.queue (hostRings12.arg0 % 65536)).created = true ∧ ((hostSt [hostRings12]).chip.queue (hostRings12.arg0 % 65536)).port = hostRings12.port ∧ (List.find? (fun x => x.queue == hostRings12.arg0 % 65536 && x.tag == hostRings12.arg0 / 65536 && !x.inPath) (hostSt [hostRings12]).chip.host.cmds = none)) ∧
    (Starts (hostSt [hostRings13, hostRings12]).chip 3 9 opAbort hostRings12 ∧ ((hostSt [hostRings13, hostRings12]).chip.queue (hostRings12.arg0 % 65536)).created = true ∧ ((hostSt [hostRings13, hostRings12]).chip.queue (hostRings12.arg0 % 65536)).port = hostRings12.port ∧ (List.find? (fun x => x.queue == hostRings12.arg0 % 65536 && x.tag == hostRings12.arg0 / 65536 && !x.inPath) (hostSt [hostRings13, hostRings12]).chip.host.cmds = some hostRings13) ∧ hostRings13.uid ≠ hostRings12.uid ∧ notAbortable hostRings13.opcode = false ∧ hostRings13.status = none ∧ hostRings13.mark = none ∧ hostRings13.silent = false ∧ hostRings13.started = false ∧ (∀ x ∈ (hostSt [hostRings13, hostRings12]).chip.host.cmds, x.uid = hostRings13.uid → x = hostRings13)) ∧
    (hostRings14.chip.portExists 0 = true ∧ hostRings14.chip.host.cmds = [] ∧ hostRings14.chip.host.qresets = [] ∧ hostRings14.chip.host.barrier = none) :=
  ⟨by decide +kernel,
    by decide +kernel,
    by decide +kernel,
    by unfold Starts; decide +kernel,
    by unfold Starts; decide +kernel,
    by unfold Starts; decide +kernel,
    by unfold Starts; decide +kernel,
    by unfold Starts; decide +kernel,
    by unfold Starts; decide +kernel,
    by unfold Starts; decide +kernel,
    by decide +kernel⟩

/-- States and operands that meet the hypotheses of each clause of `Obligations.HostData`. -/
theorem wit_HostData :
    ((Cells.get (fun x => []) (volSt vMountedRead [cmdM opRead]).chip.buf.streams (cmdM opRead).volume = []) ∧ Starts (volSt vMountedRead [cmdM opRead]).chip 3 9 opRead (cmdM opRead) ∧ (cmdM opRead).core = some 2 ∧ 2 < 12 ∧ (cmdM opRead).blocks = [] ∧ (volSt vMountedRead [cmdM opRead]).chip.waitsWrite (cmdM opRead) = false ∧ 0 < (cmdM opRead).arg1 ∧ (cmdM opRead).arg1 ≤ 2048 ∧ (cmdM opRead).arg0 + (cmdM opRead).arg1 ≤ volumeBlocks ∧ (volSt vMountedRead [cmdM opRead]).chip.mounted (cmdM opRead).volume = true ∧ (volSt vMountedRead [cmdM opRead]).chip.rangeUnusable (cmdM opRead).volume (cmdM opRead).arg0 (cmdM opRead).arg1 = false ∧ (volSt vMountedRead [cmdM opRead]).chip.flag FLM_STATUS_UP = true ∧ (volSt vMountedRead [cmdM opRead]).chip.buf.staged = [] ∧ (volSt vMountedRead [cmdM opRead]).chip.buf.store = [] ∧ (volSt vMountedRead [cmdM opRead]).chip.buf.fills = [] ∧ (volSt vMountedRead [cmdM opRead]).chip.buf.misses = [] ∧ storeBase + (cmdM opRead).arg1 ≤ (volSt vMountedRead [cmdM opRead]).chip.storeTop ∧ (volSt vMountedRead [cmdM opRead]).chip.requestRoom (cmdM opRead).volume = true) ∧
    (Starts (volSt vMountedRead [cmdM opVerify]).chip 3 9 opVerify (cmdM opVerify) ∧ (cmdM opVerify).core = some 2 ∧ 2 < 12 ∧ (cmdM opVerify).blocks = [] ∧ (volSt vMountedRead [cmdM opVerify]).chip.waitsWrite (cmdM opVerify) = false ∧ 0 < (cmdM opVerify).arg1 ∧ (cmdM opVerify).arg1 ≤ 2048 ∧ (cmdM opVerify).arg0 + (cmdM opVerify).arg1 ≤ volumeBlocks ∧ (volSt vMountedRead [cmdM opVerify]).chip.mounted (cmdM opVerify).volume = true ∧ (volSt vMountedRead [cmdM opVerify]).chip.rangeUnusable (cmdM opVerify).volume (cmdM opVerify).arg0 (cmdM opVerify).arg1 = false ∧ (volSt vMountedRead [cmdM opVerify]).chip.flag FLM_STATUS_UP = true ∧ (volSt vMountedRead [cmdM opVerify]).chip.buf.staged = [] ∧ (volSt vMountedRead [cmdM opVerify]).chip.buf.store = [] ∧ (volSt vMountedRead [cmdM opVerify]).chip.buf.fills = [] ∧ (volSt vMountedRead [cmdM opVerify]).chip.buf.misses = [] ∧ storeBase + (cmdM opVerify).arg1 ≤ (volSt vMountedRead [cmdM opVerify]).chip.storeTop ∧ (volSt vMountedRead [cmdM opVerify]).chip.requestRoom (cmdM opVerify).volume = true) ∧
    (Starts (volSt vMountedRead [hostData1]).chip 3 9 opPrefetch hostData1 ∧ hostData1.core = some 2 ∧ 2 < 12 ∧ hostData1.blocks = [] ∧ (volSt vMountedRead [hostData1]).chip.waitsWrite hostData1 = false ∧ 0 < hostData1.arg1 ∧ hostData1.arg1 ≤ 2048 ∧ hostData1.arg0 + hostData1.arg1 ≤ volumeBlocks ∧ (volSt vMountedRead [hostData1]).chip.mounted hostData1.volume = true ∧ (volSt vMountedRead [hostData1]).chip.rangeUnusable hostData1.volume hostData1.arg0 hostData1.arg1 = false ∧ (volSt vMountedRead [hostData1]).chip.flag FLM_STATUS_UP = true ∧ (volSt vMountedRead [hostData1]).chip.buf.staged = [] ∧ (volSt vMountedRead [hostData1]).chip.buf.store = [] ∧ (volSt vMountedRead [hostData1]).chip.buf.fills = [] ∧ (volSt vMountedRead [hostData1]).chip.buf.misses = [] ∧ storeBase + hostData1.arg1 ≤ (volSt vMountedRead [hostData1]).chip.storeTop ∧ (volSt vMountedRead [hostData1]).chip.requestRoom hostData1.volume = true) ∧
    (Starts blankSt.chip 3 9 opWrite hostData2 ∧ 0 < hostData2.arg1 ∧ hostData2.arg0 + hostData2.arg1 ≤ volumeBlocks ∧ blankSt.chip.volState hostData2.volume = vMountedWrite ∧ (blankSt.chip.vol hostData2.volume).closed = false ∧ blankSt.chip.rangeReadOnly hostData2.volume hostData2.arg0 hostData2.arg1 = false ∧ blankSt.chip.writeDegraded hostData2.volume = false ∧ blankSt.chip.flag FLM_STATUS_UP = true ∧ (∀ (b : ℕ), hostData2.arg0 ≤ b → b < hostData2.arg0 + hostData2.arg1 → blankSt.chip.recOf hostData2.volume b = Rec.blank)) ∧
    (Starts (volSt vMountedWrite [cmdM opFlush]).chip 3 9 opFlush (cmdM opFlush) ∧ (cmdM opFlush).flags = 0 ∧ (cmdM opFlush).ended = none ∧ (volSt vMountedWrite [cmdM opFlush]).chip.flushWaits (cmdM opFlush) = false ∧ (volSt vMountedWrite [cmdM opFlush]).chip.buf.staged = []) ∧
    ((volSt vMountedWrite [grantM]).chip.cmdOf 3 9 = some grantM ∧ (∀ x ∈ (volSt vMountedWrite [grantM]).chip.host.cmds, x.uid = grantM.uid → x = grantM) ∧ grantM.started = true ∧ grantM.mark = none ∧ grantM.wait = Wait.none ∧ grantM.granted < grantM.grantBytes ∧ (volSt vMountedWrite [grantM]).chip.grantsBefore grantM = true ∧ 4 ≤ (volSt vMountedWrite [grantM]).chip.credits 2 3 ∧ grantM.opcode = opWrite ∧ grantM.restore ≠ [] ∧ [0, 1] = (volSt vMountedWrite [grantM]).chip.freeStaging (min 256 (grantM.arg1 - grantM.granted / 4096)) ∧ [0, 1] ≠ [] ∧ ((volSt vMountedWrite [grantM]).chip.accsHeld ++ grantM.accKeys (grantM.granted / 4096) [0, 1].length).eraseDups.length ≤ 4096) ∧
    ((volSt vMountedWrite [hostData3]).chip.cmdOf 3 9 = some hostData3 ∧ (∀ x ∈ (volSt vMountedWrite [hostData3]).chip.host.cmds, x.uid = hostData3.uid → x = hostData3) ∧ hostData3.started = true ∧ hostData3.mark = none ∧ hostData3.wait = Wait.none ∧ hostData3.granted < hostData3.grantBytes ∧ (volSt vMountedWrite [hostData3]).chip.grantsBefore hostData3 = true ∧ 4 ≤ (volSt vMountedWrite [hostData3]).chip.credits 2 3 ∧ hostData3.opcode = opStage ∧ (volSt vMountedWrite [hostData3]).chip.boot.persisting.contains (stageClass hostData3) = false ∧ (((volSt vMountedWrite [hostData3]).chip.host.cmds.any fun x => x.opcode == opStage && decide (x.uid < hostData3.uid) && x.status.isNone && stageClass x == stageClass hostData3) = false)) ∧
    (Starts (volSt vMountedWrite [stageM]).chip 3 9 opStage stageM ∧ stageClass stageM ≠ 5 ∧ 64 ≤ stageM.arg1 ∧ stageM.arg1 ≤ 33554432) ∧
    (Starts (volSt vMountedWrite [hostData4]).chip 3 9 opStage hostData4 ∧ (stageClass hostData4 = 5 ∨ hostData4.arg1 < 64 ∨ 33554432 < hostData4.arg1)) ∧
    (drainSt.chip.flag FLM_STATUS_UP = true ∧ drainSt.chip.isFatal = false ∧ drainSt.chip.forWriting 1 = true ∧ drainSt.chip.writeDegraded 1 = false ∧ drainSt.chip.stState (1 / 2) = sMounted ∧ drainSt.chip.buf.drains = [] ∧ drainSt.chip.drainDue 1 = true ∧ drainSt.chip.buf.staged = [drainE] ∧ drainE.state = 1 ∧ drainE.survey = false ∧ (drainE.volumeId, drainE.side) = drainSt.chip.discOf 1 ∧ drainSt.chip.arch.toM.ready = [] ∧ drainSt.chip.lineOf (slotAddr drainE.slot / 4096) = none ∧ (∀ u ∈ unitsOf (slotAddr drainE.slot) 4096, drainSt.chip.unitMark u = UnitMark.good)) :=
  ⟨by unfold Starts; decide +kernel,
    by unfold Starts; decide +kernel,
    by unfold Starts; decide +kernel,
    ⟨by unfold Starts; decide +kernel, by decide +kernel, by decide +kernel, by decide +kernel, by decide +kernel, by decide +kernel, by decide +kernel, by decide +kernel, by intro b h1 h2; have h1' : 100 ≤ b := h1; have h2' : b < 102 := h2; obtain rfl | rfl : b = 100 ∨ b = 101 := (by omega); all_goals decide +kernel⟩,
    by unfold Starts; decide +kernel,
    by decide +kernel,
    by decide +kernel,
    by unfold Starts; decide +kernel,
    by unfold Starts; decide +kernel,
    by decide +kernel⟩

/-- States and operands that meet the hypotheses of each clause of `Obligations.HostVolumes`. -/
theorem wit_HostVolumes :
    ((stn0 sLoaded [hostVolumes1]).chip.flag FLM_STATUS_UP = true ∧ (stn0 sLoaded [hostVolumes1]).chip.afe.failed = false ∧ Starts (stn0 sLoaded [hostVolumes1]).chip 3 9 opMount hostVolumes1 ∧ hostVolumes1.volume < 16 ∧ ((stn0 sLoaded [hostVolumes1]).chip.stState (hostVolumes1.volume / 2) = sLoaded ∨ (stn0 sLoaded [hostVolumes1]).chip.stState (hostVolumes1.volume / 2) = sSafe) ∧ BitVec.getLsbD ((stn0 sLoaded [hostVolumes1]).chip.reg WMM_CS) hostVolumes1.volume = true ∧ (stn0 sLoaded [hostVolumes1]).chip.volState hostVolumes1.volume = vNotMounted ∧ ((stn0 sLoaded [hostVolumes1]).chip.vol hostVolumes1.volume).qual = none ∧ (stn0 sLoaded [hostVolumes1]).chip.flag WMM_PS_STATUS_ACTED = false ∧ (stn0 sLoaded [hostVolumes1]).chip.stationLevel (hostVolumes1.volume / 2) ≠ 3) ∧
    ((volSt vMountedRead [cmdM opUnmount]).chip.flag FLM_STATUS_UP = true ∧ (volSt vMountedRead [cmdM opUnmount]).chip.afe.failed = false ∧ Starts (volSt vMountedRead [cmdM opUnmount]).chip 3 9 opUnmount (cmdM opUnmount) ∧ (cmdM opUnmount).volume < 16 ∧ (volSt vMountedRead [cmdM opUnmount]).chip.host.cmds = [cmdM opUnmount] ∧ (volSt vMountedRead [cmdM opUnmount]).chip.buf.staged = [] ∧ (cmdM opUnmount).ended = none ∧ (volSt vMountedRead [cmdM opUnmount]).chip.volState (cmdM opUnmount).volume = vMountedRead ∧ ((volSt vMountedRead [cmdM opUnmount]).chip.vol (cmdM opUnmount).volume).writing = false ∧ (volSt vMountedRead [cmdM opUnmount]).chip.volState (if (cmdM opUnmount).volume % 2 = 0 then (cmdM opUnmount).volume + 1 else (cmdM opUnmount).volume - 1) = vNotMounted ∧ (volSt vMountedRead [cmdM opUnmount]).chip.stState ((cmdM opUnmount).volume / 2) = sMounted ∧ (∀ (q : ℕ), q / 2 = (cmdM opUnmount).volume / 2 → ((volSt vMountedRead [cmdM opUnmount]).chip.wch q).pass = none ∧ ((volSt vMountedRead [cmdM opUnmount]).chip.wch q).queued = none ∧ ((volSt vMountedRead [cmdM opUnmount]).chip.wch q).results = [] ∧ (volSt vMountedRead [cmdM opUnmount]).chip.fld (CAL_PU_STATUS_CYCLE q) = 0 ∧ ((volSt vMountedRead [cmdM opUnmount]).chip.cal q).acqBy = none ∧ ((volSt vMountedRead [cmdM opUnmount]).chip.frm q).reqs = [] ∧ ((volSt vMountedRead [cmdM opUnmount]).chip.frm q).retry = none ∧ ((volSt vMountedRead [cmdM opUnmount]).chip.vol q).qual = none)) ∧
    (hostVolumes2.chip.flag FLM_STATUS_UP = true ∧ hostVolumes2.chip.afe.failed = false ∧ Starts hostVolumes2.chip 3 9 opClose closeM ∧ hostVolumes2.chip.host.cmds = [closeM] ∧ hostVolumes2.chip.buf.staged = [] ∧ closeM.ended = none ∧ hostVolumes2.chip.volState closeM.volume = vMountedWrite ∧ (hostVolumes2.chip.vol closeM.volume).closed = true) ∧
    ((volSt vMountedWrite [closeM]).chip.flag FLM_STATUS_UP = true ∧ (volSt vMountedWrite [closeM]).chip.afe.failed = false ∧ Starts (volSt vMountedWrite [closeM]).chip 3 9 opClose closeM ∧ (volSt vMountedWrite [closeM]).chip.host.cmds = [closeM] ∧ (volSt vMountedWrite [closeM]).chip.buf.staged = [] ∧ closeM.ended = none ∧ (volSt vMountedWrite [closeM]).chip.volState closeM.volume = vMountedWrite ∧ ((volSt vMountedWrite [closeM]).chip.vol closeM.volume).closed = false ∧ ((volSt vMountedWrite [closeM]).chip.vol closeM.volume).mgmt = none ∧ (volSt vMountedWrite [closeM]).chip.parityLeft closeM.volume = false ∧ (volSt vMountedWrite [closeM]).chip.writeDegraded closeM.volume = false ∧ (((volSt vMountedWrite [closeM]).chip.vol closeM.volume).layer 0).due.2 < 1024) ∧
    ((stn0 sParking [parkM 0]).chip.flag FLM_STATUS_UP = true ∧ (stn0 sParking [parkM 0]).chip.afe.failed = false ∧ Starts (stn0 sParking [parkM 0]).chip 3 9 opStation (parkM 0) ∧ (parkM 0).arg0 % 256 < 8 ∧ bitsOf (parkM 0).arg0 8 8 = 0 ∧ (stn0 sParking [parkM 0]).chip.stState ((parkM 0).arg0 % 256) = sParking) ∧
    ((stn0 sSafe [parkM 0]).chip.flag FLM_STATUS_UP = true ∧ (stn0 sSafe [parkM 0]).chip.afe.failed = false ∧ Starts (stn0 sSafe [parkM 0]).chip 3 9 opStation (parkM 0) ∧ (parkM 0).arg0 % 256 < 8 ∧ bitsOf (parkM 0).arg0 8 8 = 0 ∧ (stn0 sSafe [parkM 0]).chip.stState ((parkM 0).arg0 % 256) ∈ [sEmpty, sSafe, sLoaded]) ∧
    ((stn0 sSafe [parkM 1]).chip.flag FLM_STATUS_UP = true ∧ (stn0 sSafe [parkM 1]).chip.afe.failed = false ∧ Starts (stn0 sSafe [parkM 1]).chip 3 9 opStation (parkM 1) ∧ (parkM 1).arg0 % 256 < 8 ∧ bitsOf (parkM 1).arg0 8 8 = 1 ∧ ((stn0 sSafe [parkM 1]).chip.stState ((parkM 1).arg0 % 256) = sLoaded ∨ (stn0 sSafe [parkM 1]).chip.stState ((parkM 1).arg0 % 256) = sSafe)) ∧
    ((stn0 sSafe [parkM 2]).chip.flag FLM_STATUS_UP = true ∧ (stn0 sSafe [parkM 2]).chip.afe.failed = false ∧ Starts (stn0 sSafe [parkM 2]).chip 3 9 opStation (parkM 2) ∧ (parkM 2).arg0 % 256 < 8 ∧ bitsOf (parkM 2).arg0 8 8 = 2 ∧ ((stn0 sSafe [parkM 2]).chip.stState ((parkM 2).arg0 % 256) = sLoaded ∨ (stn0 sSafe [parkM 2]).chip.stState ((parkM 2).arg0 % 256) = sSafe)) ∧
    ((stn0 sSafe [parkM 3]).chip.flag FLM_STATUS_UP = true ∧ (stn0 sSafe [parkM 3]).chip.afe.failed = false ∧ Starts (stn0 sSafe [parkM 3]).chip 3 9 opStation (parkM 3) ∧ (parkM 3).arg0 % 256 < 8 ∧ bitsOf (parkM 3).arg0 8 8 = 3) ∧
    (hostVolumes3.chip.flag FLM_STATUS_UP = true ∧ hostVolumes3.chip.afe.failed = false ∧ Starts hostVolumes3.chip 3 9 opStation (parkM 4) ∧ (parkM 4).arg0 % 256 < 8 ∧ bitsOf (parkM 4).arg0 8 8 = 4) ∧
    (hostVolumes4.chip.flag FLM_STATUS_UP = true ∧ hostVolumes4.chip.afe.failed = false ∧ Starts hostVolumes4.chip 3 9 opStation (parkM 5) ∧ (parkM 5).arg0 % 256 < 8 ∧ bitsOf (parkM 5).arg0 8 8 = 5 ∧ hostVolumes4.chip.stState ((parkM 5).arg0 % 256) ∈ [sEmpty, sLoaded, sSafe, sFault] ∧ (hostVolumes4.chip.stn ((parkM 5).arg0 % 256)).resetUids = [] ∧ (∀ (p : ℕ), p / 2 = (parkM 5).arg0 % 256 → (hostVolumes4.chip.cal p).acqBy = none ∧ hostVolumes4.chip.fld (CAL_PU_STATUS_CYCLE p) = 0)) ∧
    (hostVolumes5.chip.flag FLM_STATUS_UP = true ∧ hostVolumes5.chip.afe.failed = false ∧ Starts hostVolumes5.chip 3 9 opStation (parkM 5) ∧ (parkM 5).arg0 % 256 < 8 ∧ bitsOf (parkM 5).arg0 8 8 = 5 ∧ hostVolumes5.chip.stState ((parkM 5).arg0 % 256) ∈ [sEmpty, sLoaded, sSafe, sFault] ∧ (hostVolumes5.chip.stn ((parkM 5).arg0 % 256)).resetUids = [] ∧ (∀ (p : ℕ), p / 2 = (parkM 5).arg0 % 256 → (hostVolumes5.chip.cal p).acqBy = none ∧ hostVolumes5.chip.fld (CAL_PU_STATUS_CYCLE p) = 0)) :=
  ⟨by unfold Starts; decide +kernel,
    ⟨by decide +kernel, by decide +kernel, by unfold Starts; decide +kernel, by decide +kernel, by decide +kernel, by decide +kernel, by decide +kernel, by decide +kernel, by decide +kernel, by decide +kernel, by decide +kernel, by intro p h; have h' : p / 2 = 0 := h; obtain rfl | rfl : p = 0 ∨ p = 1 := (by omega); all_goals decide +kernel⟩,
    by unfold Starts; decide +kernel,
    by unfold Starts; decide +kernel,
    by unfold Starts; decide +kernel,
    by unfold Starts; decide +kernel,
    by unfold Starts; decide +kernel,
    by unfold Starts; decide +kernel,
    by unfold Starts; decide +kernel,
    by unfold Starts; decide +kernel,
    ⟨by decide +kernel, by decide +kernel, by unfold Starts; decide +kernel, by decide +kernel, by decide +kernel, by decide +kernel, by decide +kernel, by intro p h; have h' : p / 2 = 0 := h; obtain rfl | rfl : p = 0 ∨ p = 1 := (by omega); all_goals decide +kernel⟩,
    ⟨by decide +kernel, by decide +kernel, by unfold Starts; decide +kernel, by decide +kernel, by decide +kernel, by decide +kernel, by decide +kernel, by intro p h; have h' : p / 2 = 0 := h; obtain rfl | rfl : p = 0 ∨ p = 1 := (by omega); all_goals decide +kernel⟩⟩

/-- States and operands that meet the hypotheses of each clause of `Obligations.HostAdmin`. -/
theorem wit_HostAdmin :
    (Starts logSt.chip 3 9 opGetLog hostAdmin1 ∧ hostAdmin1.arg0 % 256 = 1 ∧ logSt.chip.core.logged = 1 ∧ hostAdmin1.arg1 = 0 ∧ hostAdmin1.arg2 = 32 ∧ logSt.chip.lineOf 256 = none ∧ logSt.chip.unitMark (mib / 64) = UnitMark.good) ∧
    (Starts (hostSt [hostAdmin2]).chip 3 9 opGetLog hostAdmin2 ∧ hostAdmin2.arg0 % 256 = 2) ∧
    (Starts (hostSt [hostAdmin3]).chip 3 9 opGetLog hostAdmin3 ∧ hostAdmin3.arg0 % 256 = 3 ∧ bitsOf hostAdmin3.arg0 8 8 ≤ 15 ∧ bitsOf hostAdmin3.arg0 16 8 ≤ 9) ∧
    (Starts (hostSt [hostAdmin4]).chip 3 9 opGetLog hostAdmin4 ∧ hostAdmin4.arg0 % 256 = 4) ∧
    (Starts (hostSt [hostAdmin5]).chip 3 9 opFeature hostAdmin5 ∧ hostAdmin5.arg0 % 65536 = 1 ∧ bitsOf hostAdmin5.arg0 16 8 ≤ 15 ∧ hostAdmin5.arg1 ≤ 2048) ∧
    (Starts (hostSt [hostAdmin6]).chip 3 9 opFeature hostAdmin6 ∧ hostAdmin6.arg0 % 65536 = 2 ∧ bitsOf hostAdmin6.arg0 16 8 ≤ 15 ∧ hostAdmin6.arg1 ≤ 1 ∧ (hostSt [hostAdmin6]).chip.flag FLM_STATUS_UP = true) ∧
    (Starts (hostSt [hostAdmin7]).chip 3 9 opFeature hostAdmin7 ∧ hostAdmin7.arg0 % 65536 = 3 ∧ bitsOf hostAdmin7.arg0 16 8 ≤ 15 ∧ hostAdmin7.arg1 ≤ 1 ∧ (hostSt [hostAdmin7]).chip.flag FLM_STATUS_UP = true) ∧
    (Starts (hostSt [hostAdmin8]).chip 3 9 opFeature hostAdmin8 ∧ hostAdmin8.arg0 % 65536 = 4 ∧ hostAdmin8.arg1 ≤ 1 ∧ hostAdmin8.port < (hostSt [hostAdmin8]).chip.host.stationEvents.length) ∧
    (Starts (hostSt [hostAdmin9]).chip 3 9 opCache hostAdmin9 ∧ hostAdmin9.arg0 % 2 = 1) ∧
    (Starts cacheSt.chip 3 9 opCache hostAdmin10 ∧ hostAdmin10.arg0 % 2 = 0 ∧ cacheSt.chip.cacheOn = true ∧ (∀ x ∈ cacheSt.chip.host.cmds, hostAdmin10.uid ≤ x.uid)) ∧
    (Starts (hostSt [hostAdmin11]).chip 3 9 opScrub hostAdmin11 ∧ (hostSt [hostAdmin11]).chip.scrubRange (scrubArgs hostAdmin11).1 (scrubArgs hostAdmin11).2 = true ∧ (hostSt [hostAdmin11]).chip.buf.scrub.busy = false ∧ (∀ x ∈ (hostSt [hostAdmin11]).chip.host.cmds, x ≠ hostAdmin11 → x.opcode ≠ opScrub)) ∧
    (Starts (hostSt [hostAdmin12]).chip 3 9 opCalibrate hostAdmin12 ∧ hostAdmin12.arg0 / 256 = 9 ∧ (hostSt [hostAdmin12]).chip.flag FLM_STATUS_UP = true) ∧
    (Starts actSt.chip 3 9 opActivate hostAdmin13 ∧ hostAdmin13.arg0 = 1 ∧ actSt.chip.host.cmds = [hostAdmin13] ∧ actSt.chip.host.activating = none ∧ actSt.chip.buf.staged = [] ∧ actSt.chip.stagedImage 0 = img0 ∧ img0 ≠ []) :=
  ⟨by unfold Starts; decide +kernel,
    by unfold Starts; decide +kernel,
    by unfold Starts; decide +kernel,
    by unfold Starts; decide +kernel,
    by unfold Starts; decide +kernel,
    by unfold Starts; decide +kernel,
    by unfold Starts; decide +kernel,
    by unfold Starts; decide +kernel,
    by unfold Starts; decide +kernel,
    by unfold Starts; decide +kernel,
    by unfold Starts; decide +kernel,
    by unfold Starts; decide +kernel,
    by unfold Starts; decide +kernel⟩

/-- States and operands that meet the hypotheses of each clause of `Obligations.BlockCache`. -/
theorem wit_BlockCache :
    (((setSt dirtyL).chip.cacheSet (Machine.setOf 0)).wayOf 0 = some 2 ∧ ((setSt dirtyL).chip.cacheSet (Machine.setOf 0)).way 2 = some dirtyL ∧ dirtyL.dirty = true) ∧
    ((evictSt dirtyL).chip.buf.evicts = [dirtyL] ∧ dirtyL.line = 0 ∧ (evictSt dirtyL).chip.buf.allocWaits = []) ∧
    ((List.find? (fun x => x.line == 0 && x.dirty) (victimSt dirtyL).chip.buf.victims = some dirtyL) ∧ (∀ x ∈ (victimSt dirtyL).chip.buf.evicts, x.line ≠ 0)) ∧
    (missSt.chip.buf.misses = [{ line := 0, accesses := [MissAccess.push 5 1] : Miss }] ∧ missSt.chip.cacheOn = true ∧ (missSt.chip.cacheSet (Machine.setOf 0)).ways = [] ∧ (∀ u ∈ unitsOf (4096 * 0) 4096, missSt.chip.unitMark u = UnitMark.good) ∧ missSt.chip.cmd 5 = some missM ∧ missM.pushes 1 = true ∧ missM.blocks.length + 1 < missM.arg1 ∧ (∀ x ∈ missSt.chip.host.cmds, x.opcode = opWrite → ∀ j ∈ x.slots, slotAddr j / 4096 ≠ 0)) ∧
    (((setSt cleanL).chip.cacheSet 0).way 2 = some cleanL ∧ cleanL.dirty = false) ∧
    ((blockCache1.chip.cacheSet 0).way 2 = some dirtyL ∧ dirtyL.dirty = true ∧ blockCache1.chip.isFatal = false ∧ blockCache1.chip.host.cmds = [] ∧ blockCache1.chip.buf.scrub.uid = none ∧ blockCache1.chip.flag FLM_STATUS_UP = false) ∧
    ((List.find? (fun x => x.line == 0) (victimSt cleanL).chip.buf.victims = some cleanL) ∧ cleanL.dirty = false) ∧
    ((∀ w < 16, ∀ l ∈ ((setSt cleanL).chip.cacheSet 0).way w, l.dirty = false)) :=
  ⟨by decide +kernel,
    by decide +kernel,
    by decide +kernel,
    by decide +kernel,
    by decide +kernel,
    by decide +kernel,
    by decide +kernel,
    by decide +kernel⟩

/-- States and operands that meet the hypotheses of each clause of `Obligations.BufferMemory`. -/
theorem wit_BufferMemory :
    (spillSt.chip.core.spilling = true ∧ spillSt.chip.deepUsed < spillSt.chip.deepCells ∧ spillSt.chip.freeMiddle < spillSt.chip.fld CIS_CTRL_LOW_FREE + 4096 ∧ spillSt.chip.spillable = [(3, 6, 0)] ∧ 0 < (spillSt.chip.cisQ 6).mid.length ∧ ((∀ u ∈ unitsOf (spillSt.chip.fld CIS_DEEP_BASE_BASE * mib + 128 * spillSt.chip.deepFree) 128, spillSt.chip.unitMark u = UnitMark.good) ∧ ∀ p ∈ linePieces (spillSt.chip.fld CIS_DEEP_BASE_BASE * mib + 128 * spillSt.chip.deepFree) 128, spillSt.chip.lineOf p.1 = none)) ∧
    ((List.findIdx? (fun x => x.deep.isSome) (recallSt.chip.cisQ 6).mid = some 1) ∧ ((recallSt.chip.cisQ 6).mid.getD 1 { stamp := 0 : CisCell }).deep = some 5 ∧ (1 = 0 ∨ 1 + 1 ≤ recallSt.chip.fld CIS_CTRL_RECALL_AHEAD) ∧ 0 < recallSt.chip.freeMiddle ∧ (∀ u ∈ unitsOf (recallSt.chip.fld CIS_DEEP_BASE_BASE * mib + 128 * 5) 128, recallSt.chip.unitMark u = UnitMark.good)) ∧
    ((logEntrySt.chip.weir (weirKey 6 0)).items = [logWords1] ∧ ((∀ u ∈ unitsOf (mib + 32 * (logEntrySt.chip.core.logged % 32768)) 32, logEntrySt.chip.unitMark u = UnitMark.good) ∧ ∀ p ∈ linePieces (mib + 32 * (logEntrySt.chip.core.logged % 32768)) 32, logEntrySt.chip.lineOf p.1 = none) ∧ (∀ x < 2, logEntrySt.chip.host.stationEvents.getD x false = false)) ∧
    (((arrivalSt 3 9).chip.weir (weirKey 16 0)).items = [blockItem 3 9] ∧ (ofLeBytes (List.take 4 (List.drop 24 (List.flatMap (fun w => leBytes 8 (BitVec.toNat w.v)) (blockItem 3 9)))) / 2 ^ 28 < 12) ∧ ((arrivalSt 3 9).chip.coreOnline (ofLeBytes (List.take 4 (List.drop 24 (List.flatMap (fun w => leBytes 8 (BitVec.toNat w.v)) (blockItem 3 9)))) / 2 ^ 28) = true) ∧ (4 ≤ (arrivalSt 3 9).chip.credits 5 (ofLeBytes (List.take 4 (List.drop 24 (List.flatMap (fun w => leBytes 8 (BitVec.toNat w.v)) (blockItem 3 9)))) / 2 ^ 28)) ∧ (((arrivalSt 3 9).chip.weir (weirKey 5 (ofLeBytes (List.take 4 (List.drop 24 (List.flatMap (fun w => leBytes 8 (BitVec.toNat w.v)) (blockItem 3 9)))) / 2 ^ 28))).items = []) ∧ (arrivalSt 3 9).chip.buf.fills = [] ∧ ((∀ u ∈ unitsOf (fillAddr (ofLeBytes (List.take 4 (List.drop 24 (List.flatMap (fun w => leBytes 8 (BitVec.toNat w.v)) (blockItem 3 9)))) / 2 ^ 28) (ofLeBytes (List.take 4 (List.drop 24 (List.flatMap (fun w => leBytes 8 (BitVec.toNat w.v)) (blockItem 3 9)))) % 4096)) 16, (arrivalSt 3 9).chip.unitMark u = UnitMark.good) ∧ ∀ p ∈ linePieces (fillAddr (ofLeBytes (List.take 4 (List.drop 24 (List.flatMap (fun w => leBytes 8 (BitVec.toNat w.v)) (blockItem 3 9)))) / 2 ^ 28) (ofLeBytes (List.take 4 (List.drop 24 (List.flatMap (fun w => leBytes 8 (BitVec.toNat w.v)) (blockItem 3 9)))) % 4096)) 16, (arrivalSt 3 9).chip.lineOf p.1 = none) ∧ ((List.flatMap (fun w => leBytes 8 (BitVec.toNat w.v)) (blockItem 3 9)).length = 32 + 4096)) ∧
    (((arrivalSt 3 8).chip.weir (weirKey 16 0)).items = [blockItem 3 8] ∧ (ofLeBytes (List.take 4 (List.drop 24 (List.flatMap (fun w => leBytes 8 (BitVec.toNat w.v)) (blockItem 3 8)))) / 2 ^ 28 < 12) ∧ ((arrivalSt 3 8).chip.coreOnline (ofLeBytes (List.take 4 (List.drop 24 (List.flatMap (fun w => leBytes 8 (BitVec.toNat w.v)) (blockItem 3 8)))) / 2 ^ 28) = true) ∧ (4 ≤ (arrivalSt 3 8).chip.credits 5 (ofLeBytes (List.take 4 (List.drop 24 (List.flatMap (fun w => leBytes 8 (BitVec.toNat w.v)) (blockItem 3 8)))) / 2 ^ 28)) ∧ (((arrivalSt 3 8).chip.weir (weirKey 5 (ofLeBytes (List.take 4 (List.drop 24 (List.flatMap (fun w => leBytes 8 (BitVec.toNat w.v)) (blockItem 3 8)))) / 2 ^ 28))).items = []) ∧ (arrivalSt 3 8).chip.buf.fills = [] ∧ ((∀ u ∈ unitsOf (fillAddr (ofLeBytes (List.take 4 (List.drop 24 (List.flatMap (fun w => leBytes 8 (BitVec.toNat w.v)) (blockItem 3 8)))) / 2 ^ 28) (ofLeBytes (List.take 4 (List.drop 24 (List.flatMap (fun w => leBytes 8 (BitVec.toNat w.v)) (blockItem 3 8)))) % 4096)) 16, (arrivalSt 3 8).chip.unitMark u = UnitMark.good) ∧ ∀ p ∈ linePieces (fillAddr (ofLeBytes (List.take 4 (List.drop 24 (List.flatMap (fun w => leBytes 8 (BitVec.toNat w.v)) (blockItem 3 8)))) / 2 ^ 28) (ofLeBytes (List.take 4 (List.drop 24 (List.flatMap (fun w => leBytes 8 (BitVec.toNat w.v)) (blockItem 3 8)))) % 4096)) 16, (arrivalSt 3 8).chip.lineOf p.1 = none) ∧ ((List.flatMap (fun w => leBytes 8 (BitVec.toNat w.v)) (blockItem 3 8)).length = 32 + 4096)) ∧
    (((arrivalSt 4 9).chip.weir (weirKey 16 0)).items = [blockItem 4 9] ∧ (ofLeBytes (List.take 4 (List.drop 24 (List.flatMap (fun w => leBytes 8 (BitVec.toNat w.v)) (blockItem 4 9)))) / 2 ^ 28 < 12) ∧ ((arrivalSt 4 9).chip.coreOnline (ofLeBytes (List.take 4 (List.drop 24 (List.flatMap (fun w => leBytes 8 (BitVec.toNat w.v)) (blockItem 4 9)))) / 2 ^ 28) = true) ∧ (4 ≤ (arrivalSt 4 9).chip.credits 5 (ofLeBytes (List.take 4 (List.drop 24 (List.flatMap (fun w => leBytes 8 (BitVec.toNat w.v)) (blockItem 4 9)))) / 2 ^ 28)) ∧ (((arrivalSt 4 9).chip.weir (weirKey 5 (ofLeBytes (List.take 4 (List.drop 24 (List.flatMap (fun w => leBytes 8 (BitVec.toNat w.v)) (blockItem 4 9)))) / 2 ^ 28))).items = []) ∧ (arrivalSt 4 9).chip.buf.fills = [] ∧ ((∀ u ∈ unitsOf (fillAddr (ofLeBytes (List.take 4 (List.drop 24 (List.flatMap (fun w => leBytes 8 (BitVec.toNat w.v)) (blockItem 4 9)))) / 2 ^ 28) (ofLeBytes (List.take 4 (List.drop 24 (List.flatMap (fun w => leBytes 8 (BitVec.toNat w.v)) (blockItem 4 9)))) % 4096)) 16, (arrivalSt 4 9).chip.unitMark u = UnitMark.good) ∧ ∀ p ∈ linePieces (fillAddr (ofLeBytes (List.take 4 (List.drop 24 (List.flatMap (fun w => leBytes 8 (BitVec.toNat w.v)) (blockItem 4 9)))) / 2 ^ 28) (ofLeBytes (List.take 4 (List.drop 24 (List.flatMap (fun w => leBytes 8 (BitVec.toNat w.v)) (blockItem 4 9)))) % 4096)) 16, (arrivalSt 4 9).chip.lineOf p.1 = none) ∧ ((List.flatMap (fun w => leBytes 8 (BitVec.toNat w.v)) (blockItem 4 9)).length = 32 + 4096)) ∧
    (((arrivalSt 4 8).chip.weir (weirKey 16 0)).items = [blockItem 4 8] ∧ (ofLeBytes (List.take 4 (List.drop 24 (List.flatMap (fun w => leBytes 8 (BitVec.toNat w.v)) (blockItem 4 8)))) / 2 ^ 28 < 12) ∧ ((arrivalSt 4 8).chip.coreOnline (ofLeBytes (List.take 4 (List.drop 24 (List.flatMap (fun w => leBytes 8 (BitVec.toNat w.v)) (blockItem 4 8)))) / 2 ^ 28) = true) ∧ (4 ≤ (arrivalSt 4 8).chip.credits 5 (ofLeBytes (List.take 4 (List.drop 24 (List.flatMap (fun w => leBytes 8 (BitVec.toNat w.v)) (blockItem 4 8)))) / 2 ^ 28)) ∧ (((arrivalSt 4 8).chip.weir (weirKey 5 (ofLeBytes (List.take 4 (List.drop 24 (List.flatMap (fun w => leBytes 8 (BitVec.toNat w.v)) (blockItem 4 8)))) / 2 ^ 28))).items = []) ∧ (arrivalSt 4 8).chip.buf.fills = [] ∧ ((∀ u ∈ unitsOf (fillAddr (ofLeBytes (List.take 4 (List.drop 24 (List.flatMap (fun w => leBytes 8 (BitVec.toNat w.v)) (blockItem 4 8)))) / 2 ^ 28) (ofLeBytes (List.take 4 (List.drop 24 (List.flatMap (fun w => leBytes 8 (BitVec.toNat w.v)) (blockItem 4 8)))) % 4096)) 16, (arrivalSt 4 8).chip.unitMark u = UnitMark.good) ∧ ∀ p ∈ linePieces (fillAddr (ofLeBytes (List.take 4 (List.drop 24 (List.flatMap (fun w => leBytes 8 (BitVec.toNat w.v)) (blockItem 4 8)))) / 2 ^ 28) (ofLeBytes (List.take 4 (List.drop 24 (List.flatMap (fun w => leBytes 8 (BitVec.toNat w.v)) (blockItem 4 8)))) % 4096)) 16, (arrivalSt 4 8).chip.lineOf p.1 = none) ∧ ((List.flatMap (fun w => leBytes 8 (BitVec.toNat w.v)) (blockItem 4 8)).length = 32 + 4096)) ∧
    (((∀ u ∈ unitsOf (fillAddr 2 3 + 10) 1, staleSt.chip.unitMark u = UnitMark.good) ∧ ∀ p ∈ linePieces (fillAddr 2 3 + 10) 1, staleSt.chip.lineOf p.1 = none)) ∧
    (initScrubSt.chip.buf.scrub.busy = true ∧ initScrubSt.chip.buf.scrub.init = true ∧ initScrubSt.chip.buf.scrub.uid = none ∧ initScrubSt.chip.memWf = true ∧ (∀ m ∈ initScrubSt.chip.host.cmds, m.opcode ≠ opScrub)) :=
  ⟨by decide +kernel,
    by decide +kernel,
    by decide +kernel,
    by decide +kernel,
    by decide +kernel,
    by decide +kernel,
    by decide +kernel,
    by decide +kernel,
    by decide +kernel⟩

/-- States and operands that meet the hypotheses of each clause of `Obligations.BootCommands`. -/
theorem wit_BootCommands :
    ((¬bootCommands1.chip.flag BOOT_HOST_STATUS_BUSY = false)) ∧
    ((bootSt 5).chip.flag BOOT_HOST_STATUS_BUSY = false ∧ (¬(bootSt 5).chip.fld BOOT_STATUS_STAGE = 4)) ∧
    ((bootSt 7).chip.flag BOOT_HOST_STATUS_BUSY = false ∧ ((bootSt 7).chip.fld BOOT_STATUS_STAGE = 0 ∨ (bootSt 7).chip.fld BOOT_STATUS_STAGE = 7)) ∧
    ((bootSt 0).chip.flag BOOT_HOST_STATUS_BUSY = false ∧ ((bootSt 0).chip.fld BOOT_STATUS_STAGE = 0 ∨ (bootSt 0).chip.fld BOOT_STATUS_STAGE = 7)) ∧
    ((bootSt 6).chip.flag BOOT_HOST_STATUS_BUSY = false ∧ (¬(bootSt 6).chip.fld BOOT_STATUS_STAGE = 4)) ∧
    ((bootSt 4).chip.flag BOOT_HOST_STATUS_BUSY = false ∧ (bootSt 4).chip.fld BOOT_STATUS_STAGE = 4 ∧ (¬(5 ≤ 4 ∧ (bootSt 4).chip.fld BOOT_HOST_OFFSET_OFFSET % 64 = 0 ∧ (bootSt 4).chip.fld BOOT_HOST_LENGTH_LENGTH % 64 = 0 ∧ 0 < (bootSt 4).chip.fld BOOT_HOST_LENGTH_LENGTH ∧ (bootSt 4).chip.fld BOOT_HOST_LENGTH_LENGTH ≤ 524288 ∧ (bootSt 4).chip.fld BOOT_HOST_OFFSET_OFFSET + (bootSt 4).chip.fld BOOT_HOST_LENGTH_LENGTH ≤ 32 * mib))) ∧
    (bootCommands2.chip.flag BOOT_HOST_STATUS_BUSY = false ∧ bootCommands2.chip.fld BOOT_STATUS_STAGE = 4 ∧ (¬(4 ≤ 4 ∧ bootCommands2.chip.fld BOOT_HOST_OFFSET_OFFSET % 64 = 0 ∧ bootCommands2.chip.fld BOOT_HOST_LENGTH_LENGTH % 64 = 0 ∧ 0 < bootCommands2.chip.fld BOOT_HOST_LENGTH_LENGTH ∧ bootCommands2.chip.fld BOOT_HOST_LENGTH_LENGTH ≤ 524288 ∧ bootCommands2.chip.fld BOOT_HOST_OFFSET_OFFSET + bootCommands2.chip.fld BOOT_HOST_LENGTH_LENGTH ≤ 32 * mib))) ∧
    ((mailSt 4 [1, 2, 3]).chip.flag BOOT_HOST_STATUS_BUSY = false ∧ (mailSt 4 [1, 2, 3]).chip.fld BOOT_STATUS_STAGE = 4 ∧ (0 ≤ 4 ∧ (mailSt 4 [1, 2, 3]).chip.fld BOOT_HOST_OFFSET_OFFSET % 64 = 0 ∧ (mailSt 4 [1, 2, 3]).chip.fld BOOT_HOST_LENGTH_LENGTH % 64 = 0 ∧ 0 < (mailSt 4 [1, 2, 3]).chip.fld BOOT_HOST_LENGTH_LENGTH ∧ (mailSt 4 [1, 2, 3]).chip.fld BOOT_HOST_LENGTH_LENGTH ≤ 524288 ∧ (mailSt 4 [1, 2, 3]).chip.fld BOOT_HOST_OFFSET_OFFSET + (mailSt 4 [1, 2, 3]).chip.fld BOOT_HOST_LENGTH_LENGTH ≤ 32 * mib) ∧ (∀ p ∈ linePieces (stageAddr 0 + (mailSt 4 [1, 2, 3]).chip.fld BOOT_HOST_OFFSET_OFFSET) ((mailSt 4 [1, 2, 3]).chip.fld BOOT_HOST_LENGTH_LENGTH), (mailSt 4 [1, 2, 3]).chip.lineOf p.1 = none)) ∧
    ((bootSt 4).chip.flag BOOT_HOST_STATUS_BUSY = false ∧ (bootSt 4).chip.fld BOOT_STATUS_STAGE = 4 ∧ 4 < 5) ∧
    ((bootSt 4).chip.flag BOOT_HOST_STATUS_BUSY = false ∧ (bootSt 4).chip.fld BOOT_STATUS_STAGE = 4 ∧ (bootSt 4).chip.allAccepted = false) ∧
    (acceptedSt.chip.flag BOOT_HOST_STATUS_BUSY = false ∧ acceptedSt.chip.fld BOOT_STATUS_STAGE = 4 ∧ acceptedSt.chip.allAccepted = true) ∧
    ((mailSt 4 (List.replicate 51 33)).chip.flag BOOT_HOST_STATUS_BUSY = false ∧ (mailSt 4 (List.replicate 51 33)).chip.fld BOOT_STATUS_STAGE = 4 ∧ ((imgNat ((mailSt 4 (List.replicate 51 33)).chip.mailbox 64) 48 1).testBit 0 = true ∧ (mailSt 4 (List.replicate 51 33)).chip.flag BOOT_FUSE_OWNER_KEY_SET = true ∨ ∃ j < 5, 32 < (mailSt 4 (List.replicate 51 33)).chip.fld (BOOT_SVN_MIN_SVN j) + imgNat ((mailSt 4 (List.replicate 51 33)).chip.mailbox 64) (49 + j) 1)) ∧
    ((mailSt 4 (List.replicate 51 3)).chip.flag BOOT_HOST_STATUS_BUSY = false ∧ (mailSt 4 (List.replicate 51 3)).chip.fld BOOT_STATUS_STAGE = 4 ∧ (¬((imgNat ((mailSt 4 (List.replicate 51 3)).chip.mailbox 64) 48 1).testBit 0 = true ∧ (mailSt 4 (List.replicate 51 3)).chip.flag BOOT_FUSE_OWNER_KEY_SET = true ∨ ∃ j < 5, 32 < (mailSt 4 (List.replicate 51 3)).chip.fld (BOOT_SVN_MIN_SVN j) + imgNat ((mailSt 4 (List.replicate 51 3)).chip.mailbox 64) (49 + j) 1))) ∧
    ((mailSt 6 cfgRec).chip.flag BOOT_HOST_STATUS_BUSY = false ∧ (mailSt 6 cfgRec).chip.fld BOOT_STATUS_STAGE ≠ 0 ∧ (mailSt 6 cfgRec).chip.fld BOOT_STATUS_STAGE ≠ 7) ∧
    ((mailSt 6 [1]).chip.flag BOOT_HOST_STATUS_BUSY = false ∧ (mailSt 6 [1]).chip.fld BOOT_STATUS_STAGE ≠ 0 ∧ (mailSt 6 [1]).chip.fld BOOT_STATUS_STAGE ≠ 7) ∧
    (1 ∈ (persistSt 80).chip.boot.persisting ∧ (∀ o ∈ (persistSt 80).chip.boot.ops, o.of 1 = false)) ∧
    (Memory.wf (opSt (FlashUse.hostConfig cfg256)).chip = true ∧ (opSt (FlashUse.hostConfig cfg256)).chip.boot.ops = [{ use := FlashUse.hostConfig cfg256 : FlashOp }] ∧ { use := FlashUse.hostConfig cfg256 : FlashOp }.uid = none ∧ { use := FlashUse.hostConfig cfg256 : FlashOp }.use = FlashUse.hostConfig cfg256 ∧ cfg256.length = 256) ∧
    ((opSt (FlashUse.journal 1 2 3 false)).chip.boot.ops = [{ use := FlashUse.journal 1 2 3 false : FlashOp }] ∧ { use := FlashUse.journal 1 2 3 false : FlashOp }.uid = none ∧ { use := FlashUse.journal 1 2 3 false : FlashOp }.use = FlashUse.journal 1 2 3 false) ∧
    ((opSt (FlashUse.journal 1 2 3 true)).chip.boot.ops = [{ use := FlashUse.journal 1 2 3 true : FlashOp }] ∧ { use := FlashUse.journal 1 2 3 true : FlashOp }.uid = none ∧ { use := FlashUse.journal 1 2 3 true : FlashOp }.use = FlashUse.journal 1 2 3 true) ∧
    ((opSt (FlashUse.bank 2)).chip.boot.ops = [{ use := FlashUse.bank 2 : FlashOp }] ∧ { use := FlashUse.bank 2 : FlashOp }.uid = none ∧ { use := FlashUse.bank 2 : FlashOp }.use = FlashUse.bank 2) :=
  ⟨by decide +kernel,
    by decide +kernel,
    by decide +kernel,
    by decide +kernel,
    by decide +kernel,
    by decide +kernel,
    by decide +kernel,
    by decide +kernel,
    by decide +kernel,
    by decide +kernel,
    by decide +kernel,
    by decide +kernel,
    by decide +kernel,
    by decide +kernel,
    by decide +kernel,
    by decide +kernel,
    ⟨by decide +kernel, by rfl, by rfl, by rfl, List.length_replicate⟩,
    by decide +kernel,
    by decide +kernel,
    by decide +kernel⟩

/-- States and operands that meet the hypotheses of each clause of `Obligations.Resets`. -/
theorem wit_Resets :
    (offSt.chip.boot.powered = false) ∧
    (loggedSt.chip.boot.powered = true ∧ goodIn.srcHost = true ∧ (∀ l ∈ loggedSt.chip.allLines, l.dirty = false) ∧ loggedSt.chip.buf.cutSeq = none ∧ Cells.wf regReset loggedSt.chip.regs = true) ∧
    (resets8.chip.portExists 1 = true ∧ resets8.chip.boot.powered = true ∧ goodIn.srcHost = true ∧ (∀ l ∈ resets8.chip.allLines, l.dirty = false) ∧ resets8.chip.buf.cutSeq = none ∧ Cells.wf regReset resets8.chip.regs = true) ∧
    ((5 ≠ 1463898701#32 ∨ loggedSt.chip.portExists 0 = false)) :=
  ⟨by decide +kernel,
    by decide +kernel,
    by decide +kernel,
    by decide +kernel⟩

/-- States and operands that meet the hypotheses of each clause of `Obligations.LibraryAndScan`. -/
theorem wit_LibraryAndScan :
    (offSt.chip.boot.powered = false) ∧
    (libraryAndScan1.chip.boot.powered = true) ∧
    (lpSt0.chip.boot.powered = true ∧ BitVec.toNat (24 : BitVec 16) / 4 ≠ 4 ∧ BitVec.toNat (24 : BitVec 16) / 4 ≠ 5) ∧
    (lpSt0.chip.boot.powered = true ∧ (∀ x < 8, lpSt0.chip.flag (WMM_STN_CTRL_CLAMP_REQ x) = BitVec.getLsbD (0 : BitVec 32) x)) ∧
    (libraryAndScan2.chip.boot.powered = true ∧ (∀ x < 8, libraryAndScan2.chip.flag (WMM_STN_CTRL_CLAMP_REQ x) = BitVec.getLsbD (8 : BitVec 32) x ↔ x ≠ ↑(3 : Station)) ∧ libraryAndScan2.chip.stState ↑(3 : Station) = sFault) ∧
    (lpSt0.chip.boot.powered = true ∧ (∀ x < 8, BitVec.getLsbD (37 : BitVec 32) x = true → lpSt0.chip.stState x ∈ [sEmpty, sSafe, sLoaded, sFault])) ∧
    ((List.replicate 1836 true).length = 1836) :=
  ⟨by decide +kernel,
    by decide +kernel,
    by decide +kernel,
    by decide +kernel,
    by decide +kernel,
    by decide +kernel,
    by decide +kernel⟩

/-- A state that meets the hypothesis of `Obligations.ReadyKept`. -/
theorem wit_ReadyKept : State.Ready { upSt with pending := [.injectArm] } := by unfold State.Ready; decide

/-- A state that meets the hypotheses of `Obligations.MemoryKept`. -/
theorem wit_MemoryKept :
    State.MemoryOk { dramSt with pending := [.injectArm] } ∧ ∃ t, step { dramSt with pending := [.injectArm] } = .next t :=
  ⟨by unfold State.MemoryOk; decide +kernel, _, rfl⟩

/-- Commands, words and a state that meet the hypotheses of `Obligations.TolekEncoding`. -/
theorem wit_TolekEncoding :
    (tolekWord (.tMac 0 0 0 3) = some (0, 0xA8000600#32) ∧ ∀ last, Instr.tMac 0 0 0 3 ≠ .tLoop 0 0 last) ∧
    tLegal 0xA8000600#32 = true ∧ tPlain ((upSt.chip.tolek 0).word (upSt.chip.tolek 0).pc) ≠ 0xA8000600#32 :=
  ⟨⟨by decide +kernel, by intro _ h; cases h⟩, by decide +kernel, by decide +kernel⟩

end Sys2Proof.Tests
end

section
/-! Proofs about the weirs: what a read, a push, a drop, a rewind and a commit do (R33 to R40, R505 to R509, R517), and the statements O11 and
O12. -/

namespace Sys2Proof.Machine

/-! ### Frame of a weir operation -/

/-- From `c` to `c'` nothing has changed outside the units of `CoreSt`, no engine's SRAM, and no weir but weir `k`. -/
structure WeirFrame (k : Nat) (c c' : Chip) : Prop where
  weir : ∀ j, j ≠ k → c'.weir j = c.weir j
  sram : c'.core.sram = c.core.sram
  chip : c' = { c with core := c'.core }

namespace WeirFrame

theorem refl (k : Nat) (c : Chip) : WeirFrame k c c := ⟨fun _ _ => rfl, rfl, rfl⟩

variable {k : Nat} {a b c : Chip}

theorem trans (h : WeirFrame k a b) (h' : WeirFrame k b c) : WeirFrame k a c where
  weir j hj := (h'.weir j hj).trans (h.weir j hj)
  sram := h'.sram.trans h.sram
  chip := by rw [h'.chip, h.chip]

theorem regs (h : WeirFrame k a b) : b.regs = a.regs := by rw [h.chip]
theorem arch (h : WeirFrame k a b) : b.arch = a.arch := by rw [h.chip]
theorem buf (h : WeirFrame k a b) : b.buf = a.buf := by rw [h.chip]
theorem sup (h : WeirFrame k a b) : b.sup = a.sup := by rw [h.chip]
theorem bytesKept (h : WeirFrame k a b) : a.bytesKept b := bytesKept_of_eq (by rw [h.buf]) (by rw [h.sup]) h.sram

/-- A step within the frame after one that changes registers, free values and core units changes no more than these. -/
theorem chip_after (h : WeirFrame k b c) (h' : b = { a with regs := b.regs, free := b.free, core := b.core }) :
    c = { a with regs := c.regs, free := c.free, core := c.core } := by
  rw [h.chip, h']

theorem setX (h : WeirFrame k a b) (e r v) : WeirFrame k a (b.setX e r v) :=
  h.trans ⟨fun _ _ => weir_setX .., by unfold Chip.setX; split <;> rfl, frame_setX ..⟩

theorem setWstat (h : WeirFrame k a b) (e x y z) : WeirFrame k a (b.setWstat e x y z) := h.trans ⟨fun _ _ => rfl, rfl, rfl⟩

theorem setWeir (h : WeirFrame k a b) (w : Weir) : WeirFrame k a (b.setWeir k w) :=
  h.trans ⟨fun _ hj => weir_setWeir_other _ _ _ _ hj, rfl, rfl⟩

theorem setCisQ (h : WeirFrame k a b) (q x) : WeirFrame k a (b.setCisQ q x) := h.trans ⟨fun _ _ => rfl, rfl, rfl⟩

theorem cisSync (h : WeirFrame k a b) (q) : WeirFrame k a (b.cisSync q) :=
  h.trans ⟨fun _ _ => weir_cisSync .., by unfold Chip.cisSync; dsimp only; split <;> rfl, frame_cisSync ..⟩

theorem updWeir {kind index : Nat} (h : WeirFrame (weirKey kind index) a b) (f) :
    WeirFrame (weirKey kind index) a (b.updWeir kind index f) := by
  unfold Chip.updWeir
  cases cisOf kind index with
  | none => exact h.setWeir _
  | some q => exact (h.setWeir _).cisSync q

theorem consumed (h : WeirFrame k a b) (kind index n) : WeirFrame k a (b.consumed kind index n) := by
  unfold Chip.consumed
  cases cisOf kind index with
  | none => exact h
  | some q => exact (h.setCisQ q _).cisSync q

end WeirFrame

/-! ### Engines and weirs after the Cistern's bookkeeping -/

@[simp] theorem eng_setWeir (c : Chip) (k w n) : (c.setWeir k w).eng n = c.eng n := rfl
@[simp] theorem eng_cisSync (c : Chip) (q n) : (c.cisSync q).eng n = c.eng n := by
  unfold Chip.cisSync; dsimp only; split <;> rfl
@[simp] theorem eng_updWeir (c : Chip) (kind index f n) : (c.updWeir kind index f).eng n = c.eng n := by
  unfold Chip.updWeir; dsimp only; split <;> simp
@[simp] theorem eng_consumed (c : Chip) (kind index m n) : (c.consumed kind index m).eng n = c.eng n := by
  unfold Chip.consumed Chip.cisConsume; split
  · exact eng_cisSync ..
  · rfl
@[simp] theorem weir_consumed (c : Chip) (kind index m k) : (c.consumed kind index m).weir k = c.weir k := by
  unfold Chip.consumed Chip.cisConsume; split
  · exact weir_cisSync ..
  · rfl
@[simp] theorem getX_setWeir (c : Chip) (k w e r) : (c.setWeir k w).getX e r = c.getX e r := rfl
@[simp] theorem getX_consumed (c : Chip) (kind index m e r) : (c.consumed kind index m).getX e r = c.getX e r := by
  simp [Chip.getX]

/-! ### Words of a weir and credits (R36) -/

/-- A list stored at a key takes the place of the one that stood there in the total of the lengths. -/
theorem Cells.sum_length_put {α : Type} [DecidableEq α] (m : Cells (List α)) (k : Nat) (v : List α) (hw : Cells.wf (fun _ => []) m = true) :
    ((Cells.put (fun _ => []) m k v).map (fun u => u.2.length)).sum + (Cells.get (fun _ => []) m k).length =
      (m.map (fun u => u.2.length)).sum + v.length := by
  induction m with
  | nil => by_cases hv : v = [] <;> simp [Cells.put, Cells.get, hv]
  | cons u t ih =>
    obtain ⟨j, w⟩ := u
    obtain ⟨-, habove, ht⟩ := (Cells.wf_cons_iff _ j w t).1 hw
    rcases Nat.lt_trichotomy j k with hjk | rfl | hkj
    · have := ih ht
      simp only [Cells.put, Cells.get, Nat.ne_of_lt hjk, Nat.not_lt.2 (Nat.le_of_lt hjk), if_false, List.map_cons, List.sum_cons]
      omega
    · have hdrop : t.dropWhile (fun u => decide (u.1 ≤ j)) = t :=
        List.dropWhile_eq_self_iff.2 fun hl => by
          simpa using habove _ (List.head?_eq_getElem? ▸ List.getElem?_eq_getElem hl)
      by_cases hv : v = []
      · simp [Cells.put, Cells.get, hv, hdrop, Nat.add_comm]
      · simp [Cells.put, Cells.get, hv]; omega
    · by_cases hv : v = []
      · simp [Cells.put, Cells.get, hv, hkj, Nat.ne_of_gt hkj]
      · simp [Cells.put, Cells.get, hv, hkj, Nat.ne_of_gt hkj]; omega

theorem Weir.used_eq (w : Weir) :
    w.used = (w.items.map List.length).sum + (w.uncommitted.map (fun u => u.2.length)).sum := by
  simp [Weir.used, List.sum_eq_foldl]

/-- A rewind gives back as many words as the producer had uncommitted (R35). -/
theorem Weir.used_setMine_nil (w : Weir) (n : Nat) (hw : Cells.wf (fun _ => []) w.uncommitted = true) :
    (w.setMine n []).used + (w.mine n).length = w.used := by
  have := Cells.sum_length_put w.uncommitted n [] hw
  simp only [Weir.used_eq, Weir.setMine, Weir.mine, List.length_nil] at this ⊢
  omega

theorem Weir.dropRest_eq (w : Weir) : w.dropRest = ({ w with items := w.items.tail }, (w.items.headD []).length) := by
  obtain ⟨items, _, _, _⟩ := w
  cases items <;> rfl

/-- A drop gives back as many words as it drops (R38). -/
theorem Weir.used_tail (w : Weir) : { w with items := w.items.tail }.used + (w.items.headD []).length = w.used := by
  rw [Weir.used_eq, Weir.used_eq]
  cases w.items with
  | nil => simp
  | cons it items => simp; omega

theorem credits_fixed (c : Chip) {kind index : Nat} (h : cisOf kind index = none) :
    c.credits kind index = fixedCapacity kind - (c.weir (weirKey kind index)).used := by
  simp [Chip.credits, h]

/-- Words that leave a weir outside the Cistern are credits of its producers again. -/
theorem credits_returned {c c' : Chip} {kind index n : Nat} (h : cisOf kind index = none)
    (hcap : (c.weir (weirKey kind index)).used ≤ fixedCapacity kind)
    (hused : (c'.weir (weirKey kind index)).used + n = (c.weir (weirKey kind index)).used) :
    c'.credits kind index = c.credits kind index + n := by
  rw [credits_fixed c h, credits_fixed c' h]
  omega

/-! ### The head word of a weir -/

theorem Weir.pop_eq {w : Weir} {y : WWord} {ys : List WWord} {rest : List (List WWord)} (h : w.items = (y :: ys) :: rest) :
    w.pop = { w with items := if ys = [] then rest else ys :: rest } := by
  obtain ⟨items, _, _, _⟩ := w
  subst h
  cases ys <;> rfl

theorem Weir.front_eq {w : Weir} {y : WWord} {ys : List WWord} {rest : List (List WWord)} (h : w.items = (y :: ys) :: rest) :
    w.front = some (y, ys.isEmpty) := by
  simp [Weir.front, h]

/-- No item is committed: neither a pop nor a peek may take a word (R37). -/
theorem ready_of_no_item {c : Chip} {kind index : Nat} (h : (c.weir (weirKey kind index)).items = []) : c.ready kind index = false := by
  simp [Chip.ready, Weir.front, h]

theorem canResume_of_no_item {c : Chip} {kind index : Nat} {x : Stall} (h : (c.weir (weirKey kind index)).items = [])
    (hx : x.kind ≠ .push) : c.canResume kind index x = false := by
  cases hk : x.kind with
  | push => exact absurd hk hx
  | pop => simp [Chip.canResume, hk, ready_of_no_item h]
  | peek => simp [Chip.canResume, hk, ready_of_no_item h]

/-! ### A word that its check could not correct (R517) -/

/-- What a read of word `y` answers: a free value where the word's check could not correct it (log entry 14). -/
def Chip.readValue (c : Chip) (y : WWord) : Word := if y.corrupt then Config.freeWord c.free else y.v

/-- The chip after a read of word `y` has drawn its value and noted a bad word. -/
def Chip.noted (c : Chip) (kind index : Nat) (y : WWord) : Chip := (if y.corrupt then c.draw.2 else c).noteCorrupt kind index y

theorem noted_of_good {c : Chip} {kind index : Nat} {y : WWord} (h : y.corrupt = false) : c.noted kind index y = c := by
  simp [Chip.noted, Chip.noteCorrupt, h]

theorem noted_of_corrupt {c : Chip} {kind index : Nat} {y : WWord} (h : y.corrupt = true) :
    c.noted kind index y =
      ((c.draw.2.inc CIS_DOUBLE_COUNT).mark CIS_EVENT_DOUBLE).log 0x0106 .h (detBytes 2 ((cisOf kind index).getD 0) ++ [1]) := by
  simp [Chip.noted, Chip.noteCorrupt, h]

theorem weir_log_other (c : Chip) (code die detail) {j : Nat} (h : j ≠ weirKey 6 0) : (c.log code die detail).weir j = c.weir j :=
  weir_setWeir_other _ _ _ _ h

theorem weir_noted_other (c : Chip) (kind index : Nat) (y : WWord) {j : Nat} (h : j ≠ weirKey 6 0) :
    (c.noted kind index y).weir j = c.weir j := by
  cases hy : y.corrupt with
  | false => rw [noted_of_good hy]
  | true => rw [noted_of_corrupt hy, weir_log_other _ _ _ _ h]; rfl

theorem frame_noted (c : Chip) (kind index : Nat) (y : WWord) :
    c.noted kind index y =
      { c with regs := (c.noted kind index y).regs, free := (c.noted kind index y).free, core := (c.noted kind index y).core } := by
  cases hy : y.corrupt with
  | false => rw [noted_of_good hy]
  | true => rw [noted_of_corrupt hy]; rfl

theorem fieldsKept_noted (c : Chip) (kind index : Nat) (y : WWord) :
    c.fieldsKept [CIS_DOUBLE_COUNT, CIS_EVENT_DOUBLE] (c.noted kind index y) := by
  cases hy : y.corrupt with
  | false => rw [noted_of_good hy]; exact fieldsKept_refl _ c
  | true =>
    rw [noted_of_corrupt hy]
    have hdraw : c.fieldsKept [CIS_DOUBLE_COUNT, CIS_EVENT_DOUBLE] c.draw.2 := fieldsKept_of_regs rfl
    exact fieldsKept_regs rfl (fieldsKept_mark _ (by simp) (fieldsKept_inc _ (by simp) hdraw))

theorem flag_mark_same (c : Chip) (f : Fld) (h : f.lo + f.w ≤ 64) (hw : 0 < f.w) : (c.mark f).flag f = true := by
  have : 1 % 2 ^ f.w = 1 := Nat.mod_eq_of_lt (Nat.one_lt_two_pow hw.ne')
  simp [Chip.flag, Chip.mark, fld_setFld_same c f 1 h, this]

theorem flag_noted (c : Chip) (kind index : Nat) {y : WWord} (h : y.corrupt = true) :
    (c.noted kind index y).flag CIS_EVENT_DOUBLE = true := by
  rw [noted_of_corrupt h]
  exact flag_mark_same _ CIS_EVENT_DOUBLE (by decide) (by decide)

/-! ### Pop and peek of a word at hand -/

section Read

variable {c : Chip} {kind index : Nat} {y : WWord} {ys : List WWord} {rest : List (List WWord)}
  (h : (c.weir (weirKey kind index)).items = (y :: ys) :: rest) (e : Engine) (rd : Nat) (take : Bool)

include h

theorem doRead_eq : c.doRead e rd kind index take =
    (let c' := ((c.noted kind index y).setX e rd (c.readValue y)).setWstat e ys.isEmpty false y.corrupt
     if take then (c'.setWeir (weirKey kind index) (c.weir (weirKey kind index)).pop).consumed kind index 1 else c') := by
  simp only [Chip.doRead, Weir.front_eq h, Chip.noted, Chip.readValue]
  cases y.corrupt <;> rfl

theorem weirFrame_doRead : WeirFrame (weirKey kind index) (c.noted kind index y) (c.doRead e rd kind index take) := by
  rw [doRead_eq h]
  have hnoted := WeirFrame.refl (weirKey kind index) (c.noted kind index y)
  have hdelivered := (hnoted.setX e rd (c.readValue y)).setWstat e ys.isEmpty false y.corrupt
  cases take with
  | false => exact hdelivered
  | true => exact (hdelivered.setWeir _).consumed kind index 1

theorem getX_doRead : (c.doRead e rd kind index take).getX e rd = if rd = 0 then 0 else c.readValue y := by
  rw [doRead_eq h]
  cases take <;> simp [getX_setX]

theorem wstat_doRead :
    ((c.doRead e rd kind index take).eng (engNum e)).wstat = BitVec.ofNat 64 (ys.isEmpty.toNat + 4 * y.corrupt.toNat) := by
  rw [doRead_eq h]
  cases take <;> simp

theorem weir_doRead (hy : (c.noted kind index y).weir (weirKey kind index) = c.weir (weirKey kind index)) :
    (c.doRead e rd kind index take).weir (weirKey kind index) =
      if take then { c.weir (weirKey kind index) with items := if ys = [] then rest else ys :: rest } else c.weir (weirKey kind index) := by
  rw [doRead_eq h, Weir.pop_eq h]
  cases take <;> simp [hy]

end Read

/-! ### Push -/

theorem weir_doPush (c : Chip) (e : Engine) (kind index : Nat) (v : Word) :
    (c.doPush e kind index v).weir (weirKey kind index) =
      (c.weir (weirKey kind index)).setMine (engNum e) ((c.weir (weirKey kind index)).mine (engNum e) ++ [⟨v, false⟩]) := by
  simp [Chip.doPush]

theorem weirFrame_doPush (c : Chip) (e : Engine) (kind index : Nat) (v : Word) :
    WeirFrame (weirKey kind index) c (c.doPush e kind index v) :=
  ((WeirFrame.refl _ c).updWeir _).setWstat e false false false

/-! ### The instructions on a handle that the engine may use (R505) -/

theorem completes_of_next {i : Instr} {s : State} {c : Chip} {P : Chip → Prop} (h : exec i s = .next { s with chip := c }) (hp : P c) :
    Completes i s P := ⟨_, h, rfl, hp⟩

theorem on_xsluice_consumer {s : State} {e : Engine} {rs1 kind index : Nat} (hh : handleOf (s.chip.getX e rs1) = some (kind, index))
    (hc : s.chip.consumes e kind index = true) (f : Nat → Nat → Chip → Chip) :
    (s.on fun c => c.xsluice e rs1 false f) = .next { s with chip := f kind index s.chip } := by
  simp [State.on, Chip.xsluice, hh, hc]

theorem on_xsluice_producer {s : State} {e : Engine} {rs1 kind index : Nat} (hh : handleOf (s.chip.getX e rs1) = some (kind, index))
    (hp : s.chip.produces e kind index = true) (f : Nat → Nat → Chip → Chip) :
    (s.on fun c => c.xsluice e rs1 true f) = .next { s with chip := f kind index s.chip } := by
  simp [State.on, Chip.xsluice, hh, hp]

/-- A consumer's weir is not the device log weir, whose consumer is the log writer (Table 12.2). -/
theorem weirKey_ne_log_of_consumes {c : Chip} {e : Engine} {kind index : Nat} {h : Word} (hh : handleOf h = some (kind, index))
    (hc : c.consumes e kind index = true) : weirKey kind index ≠ weirKey 6 0 := by
  have hindex : index < 65536 := by
    simp only [handleOf, Option.ite_none_right_eq_some, Option.some.injEq, Prod.mk.injEq] at hh
    omega
  have hkind : kind ≠ 6 := by
    rintro rfl
    cases e <;> simp [Chip.consumes] at hc
  simp only [weirKey]
  omega

theorem readWord_ready {c : Chip} {kind index : Nat} (ho : (c.weir (weirKey kind index)).closed = false) (hr : c.ready kind index = true)
    (e : Engine) (rd : Nat) (take : Bool) : c.readWord e rd kind index take = c.doRead e rd kind index take := by
  simp [Chip.readWord, ho, hr]

theorem readWord_waits {c : Chip} {kind index : Nat} (ho : (c.weir (weirKey kind index)).closed = false) (hr : c.ready kind index = false)
    (e : Engine) (rd : Nat) (take : Bool) :
    c.readWord e rd kind index take = c.stallOn kind index ⟨e, if take then .pop else .peek, rd, 0⟩ := by
  simp [Chip.readWord, ho, hr]

/-- A pop or peek of a weir without an item waits behind the operations that wait there (R37). -/
theorem stallOn_no_item {c : Chip} {kind index : Nat} (h : (c.weir (weirKey kind index)).items = []) (x : Stall) :
    c.stallOn kind index x = c.updWeir kind index fun w => { w with stalls := w.stalls ++ [x] } := by
  simp [Chip.stallOn, Weir.front, h]

section Consumer

variable {s : State} {e : Engine} {rs1 : Fin 32} {kind index : Nat} (hh : handleOf (s.chip.getX e rs1) = some (kind, index))
  (hc : s.chip.consumes e kind index = true) (rd : Fin 32)

include hh hc

theorem exec_wpop : exec (.wpop e rd rs1) s = .next { s with chip := s.chip.readWord e rd kind index true } :=
  on_xsluice_consumer hh hc _

theorem exec_wpeek : exec (.wpeek e rd rs1) s = .next { s with chip := s.chip.readWord e rd kind index false } :=
  on_xsluice_consumer hh hc _

theorem exec_wdrop (ho : (s.chip.weir (weirKey kind index)).closed = false) : exec (.wdrop e rd rs1) s =
    (let dropped := ((s.chip.weir (weirKey kind index)).items.headD []).length
     .next { s with chip := ((s.chip.takeItem kind index).setX e rd (BitVec.ofNat 64 dropped)).setWstat e false false false }) := by
  refine (on_xsluice_consumer hh hc _).trans ?_
  simp [ho, Weir.dropRest_eq]

end Consumer

section Producer

variable {s : State} {e : Engine} {rs1 : Fin 32} {kind index : Nat} (hh : handleOf (s.chip.getX e rs1) = some (kind, index))
  (hp : s.chip.produces e kind index = true) (ho : (s.chip.weir (weirKey kind index)).closed = false)

include hh hp ho

theorem exec_wpush (rs2 : Fin 32) (hcred : 0 < s.chip.credits kind index) :
    exec (.wpush e rs1 rs2) s = .next { s with chip := s.chip.doPush e kind index (s.chip.getX e rs2) } := by
  refine (on_xsluice_producer hh hp _).trans ?_
  simp [ho, hcred]

theorem exec_wrewind (rd : Fin 32) : exec (.wrewind e rd rs1) s =
    (let rewound := ((s.chip.weir (weirKey kind index)).mine (engNum e)).length
     let c := s.chip.updWeir kind index fun w => w.setMine (engNum e) []
     .next { s with chip := (c.setX e rd (BitVec.ofNat 64 rewound)).setWstat e false false false }) := by
  refine (on_xsluice_producer hh hp _).trans ?_
  simp [ho]

theorem exec_wcred (rd : Fin 32) : exec (.wcred e rd rs1) s =
    .next { s with chip := (s.chip.setX e rd (BitVec.ofNat 64 (s.chip.credits kind index))).setWstat e false false false } := by
  refine (on_xsluice_producer hh hp _).trans ?_
  simp [ho]

end Producer

/-! ### Operations that stalled (R36, R37) -/

theorem exec_weirStallResume_none {s : State} {kind index : Nat}
    (h : ∀ x ∈ (s.chip.weir (weirKey kind index)).stalls, s.chip.canResume kind index x = false) :
    exec (.weirStallResume kind index) s = .next s := by
  have hnone : (s.chip.weir (weirKey kind index)).stalls.find? (fun x => s.chip.canResume kind index x) = none := by
    simpa using h
  change execWeirStallResume kind index s = _
  simp [execWeirStallResume, State.on, hnone]

/-- The chip as the oldest stalled operation of a weir finds it: `xs` still wait behind it. -/
def Chip.unstalled (c : Chip) (kind index : Nat) (xs : List Stall) : Chip :=
  c.setWeir (weirKey kind index) { c.weir (weirKey kind index) with stalls := xs }

@[simp] theorem weir_unstalled (c : Chip) (kind index : Nat) (xs : List Stall) :
    (c.unstalled kind index xs).weir (weirKey kind index) = { c.weir (weirKey kind index) with stalls := xs } := weir_setWeir ..

theorem weirFrame_unstalled (c : Chip) (kind index : Nat) (xs : List Stall) :
    WeirFrame (weirKey kind index) c (c.unstalled kind index xs) := (WeirFrame.refl _ c).setWeir _

section Resume

variable {s : State} {kind index : Nat} {x : Stall} {xs : List Stall} (hs : (s.chip.weir (weirKey kind index)).stalls = x :: xs)
  (hr : s.chip.canResume kind index x = true)

include hs hr

theorem exec_weirStallResume_push (hx : x.kind = .push) : exec (.weirStallResume kind index) s =
    .next { s with chip := (s.chip.unstalled kind index xs).doPush x.engine kind index x.value } := by
  change execWeirStallResume kind index s = _
  simp [execWeirStallResume, State.on, Chip.unstalled, hs, hr, hx]

theorem exec_weirStallResume_read (hx : x.kind ≠ .push) : exec (.weirStallResume kind index) s =
    .next { s with chip := (s.chip.unstalled kind index xs).doRead x.engine x.rd kind index (decide (x.kind ≠ .peek)) } := by
  change execWeirStallResume kind index s = _
  cases hk : x.kind with
  | push => exact absurd hk hx
  | pop => simp [execWeirStallResume, State.on, Chip.unstalled, hs, hr, hk]
  | peek => simp [execWeirStallResume, State.on, Chip.unstalled, hs, hr, hk]

end Resume

/-! ### O11: pop, peek, drop and the resumption of what stalled -/

/-- What a pop or a peek answers, and what it leaves as it is, on a weir with a word at hand (R37, R507, R517). -/
theorem read_of_item (c : Chip) {kind index : Nat} {y : WWord} {ys : List WWord} {rest : List (List WWord)}
    (h : (c.weir (weirKey kind index)).items = (y :: ys) :: rest) (e : Engine) (rd : Nat) (take : Bool) :
    let c' := c.doRead e rd kind index take
    c'.getX e rd = (if rd = 0 then 0 else if y.corrupt then Config.freeWord c.free else y.v) ∧
      (c'.eng (engNum e)).wstat = BitVec.ofNat 64 (ys.isEmpty.toNat + 4 * y.corrupt.toNat) ∧
      (∀ j, j ≠ weirKey kind index → j ≠ weirKey 6 0 → c'.weir j = c.weir j) ∧
      c.fieldsKept [CIS_DOUBLE_COUNT, CIS_EVENT_DOUBLE] c' ∧ (y.corrupt = false → c'.regs = c.regs) ∧
      (y.corrupt = true → c'.flag CIS_EVENT_DOUBLE = true) ∧
      c' = { c with regs := c'.regs, free := c'.free, core := c'.core } := by
  have hframe := weirFrame_doRead h e rd take
  refine ⟨getX_doRead h e rd take, wstat_doRead h e rd take, fun j hj hlog => ?_, ?_, fun hy => ?_, fun hy => ?_, ?_⟩
  · rw [hframe.weir j hj, weir_noted_other c kind index y hlog]
  · exact fieldsKept_regs hframe.regs (fieldsKept_noted c kind index y)
  · rw [hframe.regs, noted_of_good hy]
  · rw [Chip.flag, fld_of_regs hframe.regs]
    exact flag_noted c kind index hy
  · exact hframe.chip_after (frame_noted c kind index y)

theorem weirFrame_takeItem (c : Chip) (kind index : Nat) : WeirFrame (weirKey kind index) c (c.takeItem kind index) :=
  ((WeirFrame.refl _ c).setWeir _).consumed ..

theorem weir_takeItem (c : Chip) (kind index : Nat) : (c.takeItem kind index).weir (weirKey kind index) =
    { c.weir (weirKey kind index) with items := (c.weir (weirKey kind index)).items.tail } := by
  simp [Chip.takeItem, Weir.dropRest_eq]

theorem used_takeItem (c : Chip) (kind index : Nat) :
    ((c.takeItem kind index).weir (weirKey kind index)).used + ((c.weir (weirKey kind index)).items.headD []).length =
      (c.weir (weirKey kind index)).used := by
  rw [weir_takeItem]
  exact Weir.used_tail _

/-- An operation that stalls on a weir without an item waits behind those that wait there, and does nothing else (R37). -/
theorem completes_of_stallOn {i : Instr} {s : State} {kind index : Nat} {x : Stall}
    (hi : (s.chip.weir (weirKey kind index)).items = []) (h : exec i s = .next { s with chip := s.chip.stallOn kind index x })
    (e : Engine) (rd : Nat) : Completes i s fun c =>
      c.weir (weirKey kind index) =
        { s.chip.weir (weirKey kind index) with stalls := (s.chip.weir (weirKey kind index)).stalls ++ [x] } ∧
      c.getX e rd = s.chip.getX e rd ∧ (∀ j, j ≠ weirKey kind index → c.weir j = s.chip.weir j) ∧
      c = { s.chip with core := c.core } := by
  rw [stallOn_no_item hi] at h
  have hframe := (WeirFrame.refl (weirKey kind index) s.chip).updWeir fun w => { w with stalls := w.stalls ++ [x] }
  exact completes_of_next h ⟨weir_updWeir .., getX_updWeir .., hframe.weir, hframe.chip⟩

/-- A stalled pop or peek that resumes on a good word reads it as if it were issued now (R37). -/
theorem unstalled_doRead (c : Chip) {kind index : Nat} {y : WWord} {ys : List WWord} {rest : List (List WWord)} (xs : List Stall)
    (hi : (c.weir (weirKey kind index)).items = (y :: ys) :: rest) (hy : y.corrupt = false) (e : Engine) {rd : Nat} (hrd : rd ≠ 0)
    (take : Bool) :
    let c' := (c.unstalled kind index xs).doRead e rd kind index take
    c'.getX e rd = y.v ∧ (c'.weir (weirKey kind index)).stalls = xs ∧
      (c'.weir (weirKey kind index)).items = (if take then if ys = [] then rest else ys :: rest else (y :: ys) :: rest) ∧
      c' = { c with core := c'.core } := by
  have hi' : ((c.unstalled kind index xs).weir (weirKey kind index)).items = (y :: ys) :: rest := by simpa using hi
  have hgood := noted_of_good (c := c.unstalled kind index xs) (kind := kind) (index := index) hy
  have hframe := weirFrame_doRead hi' e rd take
  rw [hgood] at hframe
  have hweir := weir_doRead hi' e rd take (by rw [hgood])
  refine ⟨?_, ?_, ?_, ((weirFrame_unstalled c kind index xs).trans hframe).chip⟩
  · simp [getX_doRead hi', hrd, Chip.readValue, hy]
  · rw [hweir]; cases take <;> simp
  · rw [hweir]; cases take <;> simp [hi]

/-- Settles O11: each operation's outcome is a step within its weir's frame, after the bad word that a read may have noted. -/
theorem weirReads : Obligations.WeirReads := by
  unfold Obligations.WeirReads
  refine ⟨?read, ?drop, ?resume⟩
  case read =>
    intro s e rd rs1 kind index y ys rest hh hc ho hr hi read
    have hkept : (s.chip.noted kind index y).weir (weirKey kind index) = s.chip.weir (weirKey kind index) :=
      weir_noted_other s.chip kind index y (weirKey_ne_log_of_consumes hh hc)
    constructor
    · have hexec := exec_wpop hh hc rd
      rw [readWord_ready ho hr] at hexec
      refine completes_of_next hexec ⟨read_of_item s.chip hi e rd true, ?_⟩
      rw [weir_doRead hi e rd true hkept]
      rfl
    · have hexec := exec_wpeek hh hc rd
      rw [readWord_ready ho hr] at hexec
      exact completes_of_next hexec ⟨read_of_item s.chip hi e rd false, weir_doRead hi e rd false hkept⟩
  case drop =>
    intro s e rd rs1 kind index hh hc ho k n
    refine ⟨?dropped, fun hi => ⟨?waits, fun hs => ?stays⟩⟩
    case dropped =>
      have hframe := ((weirFrame_takeItem s.chip kind index).setX e rd (BitVec.ofNat 64 n)).setWstat e false false false
      have hused := used_takeItem s.chip kind index
      refine completes_of_next (exec_wdrop hh hc rd ho)
        ⟨?_, ?_, ?_, fun hk hcap => credits_returned hk hcap ?_, ?_, hframe.weir, hframe.chip⟩
      · simp [k, weir_takeItem]
      · simp [getX_setX, n, k]
      · rw [weir_setWstat, weir_setX]; exact hused
      · rw [weir_setWstat, weir_setX]; exact hused
      · simp
    case waits =>
      have hr : s.chip.ready kind index = false := ready_of_no_item hi
      rintro i kd (⟨rfl, rfl⟩ | ⟨rfl, rfl⟩)
      · have hexec := exec_wpop hh hc rd
        rw [readWord_waits ho hr] at hexec
        exact completes_of_stallOn hi hexec e rd
      · have hexec := exec_wpeek hh hc rd
        rw [readWord_waits ho hr] at hexec
        exact completes_of_stallOn hi hexec e rd
    case stays =>
      have hnone : ∀ x ∈ (s.chip.weir k).stalls, s.chip.canResume kind index x = false := fun x hx =>
        canResume_of_no_item hi (hs x hx)
      exact completes_of_next (exec_weirStallResume_none hnone) rfl
  case resume =>
    intro s kind index x xs hs hr
    constructor
    · intro y ys rest hx hi hy hrd
      have hread := unstalled_doRead s.chip xs hi hy x.engine hrd (decide (x.kind ≠ .peek))
      exact completes_of_next (exec_weirStallResume_read hs hr hx) (by simpa using hread)
    · intro hx
      have hframe := (weirFrame_unstalled s.chip kind index xs).trans (weirFrame_doPush _ x.engine kind index x.value)
      refine completes_of_next (exec_weirStallResume_push hs hr hx) ⟨?_, ?_, ?_, hframe.chip⟩
      · rw [weir_doPush, mine_setMine, weir_unstalled]; rfl
      · rw [weir_doPush, weir_unstalled]; rfl
      · rw [weir_doPush, weir_unstalled]; rfl

/-! ### O12: push, rewind, credit and commit -/

/-- Packets that become ready in a direction, in order (R43). -/
def Chip.readyAll (c : Chip) (d : Dir) (ps : List Packet) : Chip :=
  match d with
  | .toM => { c with arch := { c.arch with toM := { c.arch.toM with ready := c.arch.toM.ready ++ ps } } }
  | .toH => { c with arch := { c.arch with toH := { c.arch.toH with ready := c.arch.toH.ready ++ ps } } }

theorem foldl_flumeReady {α : Type} (d : Dir) (f : α → Packet) (xs : List α) (c : Chip) :
    xs.foldl (fun c x => c.flumeReady d (f x)) c = c.readyAll d (xs.map f) := by
  induction xs generalizing c with
  | nil => cases d <;> simp [Chip.readyAll]
  | cons x xs ih =>
    rw [List.foldl_cons, ih]
    cases d <;> simp [Chip.readyAll, Chip.flumeReady]

/-- An item for the other die becomes EVENT packets for its unit, ready behind those that wait (R43, R44). -/
theorem sendItem_eq (c : Chip) (d : Dir) (unit tag : Nat) (ws : List Word) : c.sendItem d unit tag ws =
    c.readyAll d ((payloadChunks (ws.length + 1) (payloadOf ws)).map fun p => ⟨5, 0, unit, tag, p⟩) :=
  foldl_flumeReady d _ _ c

theorem ready_sendItem (c : Chip) (d : Dir) (unit tag : Nat) (ws : List Word) : ((c.sendItem d unit tag ws).flume d).ready =
    (c.flume d).ready ++ (payloadChunks (ws.length + 1) (payloadOf ws)).map fun p => ⟨5, 0, unit, tag, p⟩ := by
  rw [sendItem_eq]
  cases d <;> rfl

theorem frame_sendItem (c : Chip) (d : Dir) (unit tag : Nat) (ws : List Word) :
    c.sendItem d unit tag ws = { c with arch := (c.sendItem d unit tag ws).arch } := by
  rw [sendItem_eq]
  cases d <;> rfl

/-- The chip after a producer's uncommitted words have left the weir, with WSTAT 0. -/
def Chip.rewound (c : Chip) (e : Engine) (kind index : Nat) : Chip :=
  (c.setWstat e false false false).updWeir kind index fun w => w.setMine (engNum e) []

@[simp] theorem weir_rewound (c : Chip) (e : Engine) (kind index : Nat) : (c.rewound e kind index).weir (weirKey kind index) =
    (c.weir (weirKey kind index)).setMine (engNum e) [] := weir_updWeir ..

theorem weirFrame_rewound (c : Chip) (e : Engine) (kind index : Nat) : WeirFrame (weirKey kind index) c (c.rewound e kind index) :=
  ((WeirFrame.refl _ c).setWstat e false false false).updWeir _

section Commit

variable {s : State} {e : Engine} {rs1 : Fin 32} {kind index : Nat} (hh : handleOf (s.chip.getX e rs1) = some (kind, index))
  (hp : s.chip.produces e kind index = true) (ho : (s.chip.weir (weirKey kind index)).closed = false)

include hh hp ho

theorem exec_wcommit_nothing (hm : (s.chip.weir (weirKey kind index)).mine (engNum e) = []) :
    exec (.wcommit e rs1) s = .next { s with chip := s.chip.setWstat e false false false } := by
  refine (on_xsluice_producer hh hp _).trans ?_
  simp [ho, hm]

theorem exec_wcommit_log (hm : (s.chip.weir (weirKey kind index)).mine (engNum e) ≠ []) (hk : kind = 6) :
    exec (.wcommit e rs1) s =
      (let words := ((s.chip.weir (weirKey kind index)).mine (engNum e)).map (·.v)
       .next { s with chip := (s.chip.rewound e kind index).commitItem kind index words }) := by
  subst hk
  refine (on_xsluice_producer hh hp _).trans ?_
  simp [ho, hm, Chip.rewound]

theorem exec_wcommit_event (hm : (s.chip.weir (weirKey kind index)).mine (engNum e) ≠ []) {d : Dir}
    (hk : kind = 3 ∧ d = .toM ∨ kind = 4 ∧ d = .toH) :
    exec (.wcommit e rs1) s =
      (let words := ((s.chip.weir (weirKey kind index)).mine (engNum e)).map (·.v)
       .next { s with chip := (s.chip.rewound e kind index).sendItem d index 0 words }) := by
  obtain ⟨rfl, rfl⟩ | ⟨rfl, rfl⟩ := hk
  · refine (on_xsluice_producer hh hp _).trans ?_
    simp [ho, hm, Chip.rewound]
  · refine (on_xsluice_producer hh hp _).trans ?_
    simp [ho, hm, Chip.rewound]

/-- A commit to a weir of the other die: the words leave the weir and stand in EVENT packets for its unit, ready to be sent (R44). -/
theorem completes_wcommit_event (hm : (s.chip.weir (weirKey kind index)).mine (engNum e) ≠ []) {d : Dir}
    (hk : kind = 3 ∧ d = .toM ∨ kind = 4 ∧ d = .toH) : Completes (.wcommit e rs1) s fun c =>
      let mine := (s.chip.weir (weirKey kind index)).mine (engNum e)
      (c.weir (weirKey kind index)).mine (engNum e) = [] ∧ (c.weir (weirKey kind index)).items = (s.chip.weir (weirKey kind index)).items ∧
      c.regs = s.chip.regs ∧ s.chip.bytesKept c ∧
      (c.flume d).ready = (s.chip.flume d).ready ++
        (payloadChunks (mine.length + 1) (payloadOf (mine.map (·.v)))).map (fun p => ⟨5, 0, index, 0, p⟩) := by
  have hframe := weirFrame_rewound s.chip e kind index
  have hflume : (s.chip.rewound e kind index).flume d = s.chip.flume d := by cases d <;> simp [Chip.flume, hframe.arch]
  have hweir : ∀ ws, ((s.chip.rewound e kind index).sendItem d index 0 ws).weir (weirKey kind index) =
      (s.chip.weir (weirKey kind index)).setMine (engNum e) [] := fun ws => by
    rw [frame_sendItem]
    exact weir_rewound ..
  refine completes_of_next (exec_wcommit_event hh hp ho hm hk) ⟨?_, ?_, ?_, ?_, ?_⟩
  · rw [hweir, mine_setMine]
  · rw [hweir, items_setMine]
  · rw [frame_sendItem]
    exact hframe.regs
  · rw [frame_sendItem]
    exact hframe.bytesKept
  · rw [ready_sendItem, hflume, List.length_map]

end Commit

/-- Settles O12: a push, a rewind and WCRED are steps within the weir's frame; a commit takes the producer's words away and either
appends them as an item or makes their packets ready. -/
theorem weirWrites : Obligations.WeirWrites := by
  unfold Obligations.WeirWrites
  refine ⟨?words, ?commit⟩
  case words =>
    intro s e rd rs1 rs2 kind index hh hp ho k frame
    refine ⟨fun hcred => ?push, ?rewind, ?cred⟩
    case push =>
      have hframe := weirFrame_doPush s.chip e kind index (s.chip.getX e rs2)
      refine completes_of_next (exec_wpush hh hp ho rs2 hcred) ⟨⟨?_, fun n hn => ?_, ?_, hframe.weir, hframe.chip⟩, ?_⟩
      · rw [weir_doPush, items_setMine]
      · rw [weir_doPush, mine_setMine_other _ _ _ _ hn]
      · exact wstat_setWstat ..
      · rw [weir_doPush, mine_setMine]
    case rewind =>
      have hframe := (((WeirFrame.refl k s.chip).updWeir fun w => w.setMine (engNum e) []).setX e rd
        (BitVec.ofNat 64 ((s.chip.weir k).mine (engNum e)).length)).setWstat e false false false
      refine completes_of_next (exec_wrewind hh hp ho rd)
        ⟨⟨?_, fun n hn => ?_, ?_, hframe.weir, hframe.chip⟩, ?_, fun hk hwf hcap => credits_returned hk hcap ?_, ?_⟩
      · simp [k]
      · simp [k, mine_setMine_other _ _ _ _ hn]
      · simp
      · simp [k, mine_setMine]
      · simpa [k] using Weir.used_setMine_nil _ _ hwf
      · simp [getX_setX, k]
    case cred =>
      have hframe := ((WeirFrame.refl k s.chip).setX e rd (BitVec.ofNat 64 (s.chip.credits kind index))).setWstat e false false false
      refine completes_of_next (exec_wcred hh hp ho rd) ⟨⟨?_, fun n _ => ?_, ?_, hframe.weir, hframe.chip⟩, ?_, ?_⟩
      · simp
      · simp
      · simp
      · simp
      · simp [getX_setX]
  case commit =>
    intro s e rs1 kind index hh hp ho hkind k mine
    by_cases hm : mine = []
    · have hframe := (WeirFrame.refl k s.chip).setWstat e false false false
      exact completes_of_next (exec_wcommit_nothing hh hp ho hm)
        ⟨hm, hframe.regs, hframe.bytesKept, fun _ => ⟨rfl, rfl⟩, fun h => absurd hm h, fun h => absurd hm h⟩
    obtain rfl | rfl | rfl : kind = 3 ∨ kind = 4 ∨ kind = 6 := by simpa using hkind
    · obtain ⟨t, hexec, hpending, hmine, hitems, hregs, hbytes, hready⟩ := completes_wcommit_event hh hp ho hm (.inl ⟨rfl, rfl⟩)
      exact ⟨t, hexec, hpending, hmine, hregs, hbytes, fun h => absurd h hm, fun _ h => absurd h (by decide),
        fun _ _ => ⟨hitems, hready⟩⟩
    · obtain ⟨t, hexec, hpending, hmine, hitems, hregs, hbytes, hready⟩ := completes_wcommit_event hh hp ho hm (.inr ⟨rfl, rfl⟩)
      exact ⟨t, hexec, hpending, hmine, hregs, hbytes, fun h => absurd h hm, fun _ h => absurd h (by decide),
        fun _ _ => ⟨hitems, hready⟩⟩
    · have hframe : WeirFrame k s.chip ((s.chip.rewound e 6 index).commitItem 6 index (mine.map (·.v))) :=
        (weirFrame_rewound s.chip e 6 index).updWeir _
      refine completes_of_next (exec_wcommit_log hh hp ho hm rfl)
        ⟨?_, hframe.regs, hframe.bytesKept, fun h => absurd h hm, fun _ _ => ⟨?_, hframe.arch⟩, fun _ h => absurd rfl h⟩
      · rw [Chip.commitItem, weir_updWeir, weir_rewound]
        exact mine_setMine ..
      · rw [Chip.commitItem, weir_updWeir, weir_rewound, List.map_map]
        rfl

end Sys2Proof.Machine
end

section
/-! Proofs about the value and accumulator instructions of the Tolek engines (R306 to R308, R315, R316): how a run goes on by one
instruction, what a saturated result leaves in a register, and the statements O18 and O20. -/

namespace Sys2Proof.Machine

theorem Completes.imp {i : Instr} {s : State} {P Q : Chip → Prop} (h : Completes i s P) (hPQ : ∀ c, P c → Q c) : Completes i s Q := by
  obtain ⟨t, hexec, hpending, hp⟩ := h
  exact ⟨t, hexec, hpending, hPQ _ hp⟩

/-! ### Saturation (R307) -/

theorem limit_eq_max_min {lo hi : Int} (h : lo ≤ hi) (x : Int) : limit lo hi x = max lo (min hi x) := by
  unfold limit
  split
  · omega
  · split <;> omega

theorem limit_ne_iff {lo hi : Int} (h : lo ≤ hi) (x : Int) : limit lo hi x ≠ x ↔ x < lo ∨ hi < x := by
  rw [limit_eq_max_min h]
  omega

theorem toInt_satQ (x : Int) : (satQ x).1.toInt = max (-2 ^ 31) (min (2 ^ 31 - 1) x) := by
  rw [satQ, limit_eq_max_min (by decide)]
  exact BitVec.toInt_ofInt_eq_self (by decide) (by omega) (by omega)

theorem satQ_saturated (x : Int) : (satQ x).2 = decide (x < -2 ^ 31 ∨ 2 ^ 31 - 1 < x) :=
  (decide_not ..).symm.trans (decide_eq_decide.2 (limit_ne_iff (by decide) x))

theorem toInt_satA (x : Int) : (satA x).1.toInt = max (-2 ^ 63) (min (2 ^ 63 - 1) x) := by
  rw [satA, limit_eq_max_min (by decide)]
  exact BitVec.toInt_ofInt_eq_self (by decide) (by omega) (by omega)

theorem satA_saturated (x : Int) : (satA x).2 = decide (x < -2 ^ 63 ∨ 2 ^ 63 - 1 < x) :=
  (decide_not ..).symm.trans (decide_eq_decide.2 (limit_ne_iff (by decide) x))

/-! ### Registers of an engine -/

namespace TolekRec

@[simp] theorem val_setVal (t : TolekRec) (d : Nat) (x : Q) : (t.setVal d x).val d = x := Cells.get_put_same ..

theorem val_setVal_other (t : TolekRec) {d r : Nat} (x : Q) (h : r ≠ d) : (t.setVal d x).val r = t.val r := Cells.get_put_other _ _ _ _ _ h

theorem int_setInt (t : TolekRec) (d : Nat) (x : Int) : (t.setInt d x).int d = max (-2 ^ 31) (min (2 ^ 31 - 1) x) :=
  (congrArg BitVec.toInt (val_setVal t d _)).trans (toInt_satQ x)

theorem acc_setAcc (t : TolekRec) (a : Nat) (x : Int) : (t.setAcc a x).acc a = max (-2 ^ 63) (min (2 ^ 63 - 1) x) :=
  (congrArg BitVec.toInt (Cells.get_put_same ..)).trans (toInt_satA x)

theorem acc_setAcc_other (t : TolekRec) {a r : Nat} (x : Int) (h : r ≠ a) : (t.setAcc a x).acc r = t.acc r :=
  congrArg BitVec.toInt (Cells.get_put_other _ _ _ _ _ h)

end TolekRec

theorem tookInt_setInt (t : TolekRec) (d : Nat) (x : Int) : TookInt t (t.setInt d x) d x :=
  ⟨t.int_setInt d x, congrArg (t.sat || ·) (satQ_saturated x), fun _ h => t.val_setVal_other _ h, rfl⟩

theorem tookAcc_setAcc (t : TolekRec) (a : Nat) (x : Int) : TookAcc t (t.setAcc a x) a x :=
  ⟨t.acc_setAcc a x, congrArg (t.sat || ·) (satA_saturated x), fun _ h => t.acc_setAcc_other x h, rfl⟩

/-! ### A run goes on by one instruction -/

/-- Where no loop ends at the program counter, the next instruction in sequence is the next that runs (R318). -/
theorem TolekRec.arrive_next (t : TolekRec) (h : ∀ fr ∈ t.loops.head?, fr.last ≠ t.pc) : t.arrive (t.pc + 1) = { t with pc := t.pc + 1 } := by
  unfold TolekRec.arrive TolekRec.arriveGo
  cases hl : t.loops with
  | nil => rfl
  | cons fr rest =>
    have hfr : fr.last ≠ t.pc := h fr (by simp [hl])
    simp [hfr]

/-- The engine once it has been charged for an instruction that it is about to run. -/
def TolekRec.charged (t : TolekRec) (cost : Nat) : TolekRec := { t with units := t.units + cost }

/-- The chip once engine `e` has been charged for an instruction that it is about to run. -/
abbrev Chip.tCharged (c : Chip) (e cost : Nat) : Chip := c.setTolek e ((c.tolek e).charged cost)

@[simp] theorem TolekRec.int_charged (t : TolekRec) (cost r : Nat) : (t.charged cost).int r = t.int r := rfl

section Sequence

variable {c : Chip} {e : Nat} {w : Q}

theorem tRun_at (h : TolekAt c e w) (cost : Nat) (f : Chip → Chip) : c.tRun e w cost f = f (c.tCharged e cost) := by
  obtain ⟨hrun, hended, hword, -, -⟩ := h
  exact if_pos (by simp [hrun, hended, hword])

/-- An instruction that leaves the program counter and the loops alone is followed by the next one in sequence. -/
theorem tSeq_at (h : TolekAt c e w) {cost : Nat} {f : Chip → Chip} {c' : Chip} (hf : f (c.tCharged e cost) = c')
    (hpc : (c'.tolek e).pc = (c.tolek e).pc) (hloops : (c'.tolek e).loops = (c.tolek e).loops) :
    c.tSeq e w cost f = c'.setTolek e { c'.tolek e with pc := (c.tolek e).pc + 1 } := by
  have ⟨_, _, _, hend, hlast⟩ := h
  have hnext := (c'.tolek e).arrive_next (by rwa [hloops, hpc])
  rw [hpc] at hnext
  simp [Chip.tSeq, tRun_at h, hf, hpc, hnext, Chip.tCheckEnd, hend]

end Sequence

/-! What an instruction does whose meaning, as the dispatch gives it, changes the engine alone. -/

section Run

variable {i : Instr} {st : State} {e : Nat} {w : Q} {cost : Nat} {f : TolekRec → TolekRec} (meaning : State → Out)
  (hexec : exec i st = meaning st) (hmeaning : meaning st = st.tStep e w cost f)

include hexec hmeaning

/-- It neither moves the program counter nor ends a loop. -/
theorem completes_tStep {x' : TolekRec} (hat : TolekAt st.chip e w)
    (hf : f ((st.chip.tolek e).charged cost) = { x' with units := (st.chip.tolek e).units + cost })
    (hpc : x'.pc = (st.chip.tolek e).pc) (hloops : x'.loops = (st.chip.tolek e).loops) :
    Completes i st fun c => TolekGoes st.chip c e cost x' := by
  refine completes_on (hexec.trans hmeaning) ?_
  rw [tSeq_at hat rfl (by simp [hf, hpc]) (by simp [hf, hloops])]
  refine ⟨by simp [hf], fun j hj => ?_, rfl⟩
  simp [tolek_setTolek_other, hj]

/-- Its result `y` is a value. -/
theorem completes_setInt {d : Nat} {y : Int}
    (hf : f ((st.chip.tolek e).charged cost) = ((st.chip.tolek e).charged cost).setInt d y) (hat : TolekAt st.chip e w) :
    Completes i st fun c => ∃ x', TolekGoes st.chip c e cost x' ∧ TookInt (st.chip.tolek e) x' d y :=
  (completes_tStep (x' := (st.chip.tolek e).setInt d y) meaning hexec hmeaning hat hf rfl rfl).imp
    fun _ hgoes => ⟨_, hgoes, tookInt_setInt ..⟩

/-- Its result `y` is an accumulator. -/
theorem completes_setAcc {a : Nat} {y : Int}
    (hf : f ((st.chip.tolek e).charged cost) = ((st.chip.tolek e).charged cost).setAcc a y) (hat : TolekAt st.chip e w) :
    Completes i st fun c => ∃ x', TolekGoes st.chip c e cost x' ∧ TookAcc (st.chip.tolek e) x' a y :=
  (completes_tStep (x' := (st.chip.tolek e).setAcc a y) meaning hexec hmeaning hat hf rfl rfl).imp
    fun _ hgoes => ⟨_, hgoes, tookAcc_setAcc ..⟩

end Run

/-! ### O18: values and accumulators -/

theorem limit_symm_eq (x y : Int) : limit (-y.natAbs) y.natAbs x = max (-|y|) (min |y| x) := by
  rw [Int.abs_eq_natAbs, limit_eq_max_min (by omega)]

theorem intAdds_iff (h p : Int) : intAdds h p = true ↔ h = 0 ∨ h = 1 ∧ p < 0 ∨ h = -1 ∧ 0 < p := by
  simp [intAdds, or_assoc]

/-- INT adds its product, or leaves the engine as it is, as the hold flag says (R316). -/
theorem completes_tInt {st : State} {e : TolekEngine} {a : Acc} {s : VReg} {k : Coef}
    (hat : TolekAt st.chip e (tWord 0x2F (fmtAC a 0 s 0 k))) :
    let x := st.chip.tolek e
    let p := x.int s * x.coefInt k
    Completes (.tInt e a s k) st fun c => TolekGoes st.chip c e 2 (if intAdds (x.hold a) p then x.setAcc a (x.acc a + p) else x) := by
  intro x p
  cases hadds : intAdds (x.hold a) p with
  | true => exact completes_tStep (execTInt e a s k) rfl rfl hat (if_pos hadds) rfl rfl
  | false => exact completes_tStep (execTInt e a s k) rfl rfl hat (if_neg (ne_true_of_eq_false hadds)) rfl rfl

/-- Settles O18: each instruction of the tables sets one register to its exact result, saturated, and the run goes on. -/
theorem tolekValues : Obligations.TolekValues := by
  unfold Obligations.TolekValues
  refine ⟨?values, fun st e a b s t k => ⟨?accumulators, ?int⟩⟩
  case values =>
    intro st e d s t k n a x
    simp only [List.forall_mem_cons, List.not_mem_nil, false_imp_iff, implies_true, and_true]
    exact ⟨completes_setInt (execTAdd e d s t) rfl rfl rfl,
      completes_setInt (execTSub e d s t) rfl rfl rfl,
      completes_setInt (execTMul e d s t) rfl rfl rfl,
      completes_setInt (execTMulk e d s k) rfl rfl rfl,
      completes_setInt (execTNeg e d s) rfl rfl rfl,
      completes_setInt (execTAbs e d s) rfl rfl (congrArg _ (Int.abs_eq_natAbs _).symm),
      completes_setInt (execTMin e d s t) rfl rfl rfl,
      completes_setInt (execTMax e d s t) rfl rfl rfl,
      completes_setInt (execTClamp e d s t) rfl rfl (congrArg _ (limit_symm_eq _ _)),
      completes_setInt (execTShl e d s n) rfl rfl rfl,
      completes_setInt (execTShr e d s n) rfl rfl rfl,
      completes_setInt (execTRnd e d a) rfl rfl rfl⟩
  case accumulators =>
    simp only [List.forall_mem_cons, List.not_mem_nil, false_imp_iff, implies_true, and_true]
    exact ⟨completes_setAcc (execTClr e a) rfl rfl rfl,
      completes_setAcc (execTLda e a s) rfl rfl rfl,
      completes_setAcc (execTMac e a s k) rfl rfl rfl,
      completes_setAcc (execTMacv e a s t) rfl rfl rfl,
      completes_setAcc (execTMsu e a s k) rfl rfl rfl,
      completes_setAcc (execTAdda e a b) rfl rfl rfl⟩
  case int =>
    intro hat p adds
    refine (completes_tInt hat).imp fun c hgoes => ⟨_, hgoes, fun h => ?_, fun h => ?_⟩
    · rw [if_pos ((intAdds_iff _ _).2 h)]
      exact tookAcc_setAcc ..
    · exact if_neg (mt (intAdds_iff _ _).1 h)

/-! ### O20: DIV by 0 and SQRT of a negative value -/

/-- An instruction that leaves the engine as `x'` says and sets one sticky bit, and neither moves the program counter nor ends a loop. -/
theorem completes_tSeq_mark {i : Instr} {st : State} {e : Nat} {w : Q} {cost : Nat} {f : Chip → Chip} (meaning : State → Out)
    {x' : TolekRec} {event : Fld} (hexec : exec i st = meaning st) (hmeaning : meaning st = st.on fun c => c.tSeq e w cost f)
    (hat : TolekAt st.chip e w) (hf : f (st.chip.tCharged e cost) = ((st.chip.tCharged e cost).setTolek e x').mark event)
    (hpc : x'.pc = (st.chip.tolek e).pc) (hloops : x'.loops = (st.chip.tolek e).loops)
    (hevent : event.lo + event.w ≤ 64) (hw : 0 < event.w) :
    Completes i st fun c => c.tolek e = { x' with pc := (st.chip.tolek e).pc + 1 } ∧ c.flag event = true ∧ st.chip.fieldsKept [event] c := by
  have hx' : (((st.chip.tCharged e cost).setTolek e x').mark event).tolek e = x' := tolek_setTolek ..
  refine completes_on (hexec.trans hmeaning) ?_
  rw [tSeq_at hat hf (by rw [hx', hpc]) (by rw [hx', hloops]), hx']
  refine ⟨tolek_setTolek .., ?_, ?_⟩
  · rw [flag_setTolek]
    exact flag_mark_same _ event hevent hw
  · exact fieldsKept_regs rfl (fieldsKept_mark event (List.mem_singleton_self _) (fieldsKept_of_regs rfl))

theorem divResult_zero (n : Int) : max (-2 ^ 31) (min (2 ^ 31 - 1) (divResult n 0)) =
    if 0 < n then 8 * 2 ^ 28 - 1 else if n < 0 then -8 * 2 ^ 28 else 0 := by
  simp only [divResult, if_true]
  split
  · rfl
  · split <;> rfl

/-- Settles O20: both corners set their register and their event, and the run goes on. -/
theorem tolekDivSqrtCorners : Obligations.TolekDivSqrtCorners := by
  unfold Obligations.TolekDivSqrtCorners
  intro st e d s t x
  have hrun : ∀ {w}, TolekAt st.chip e w → x.running = true := fun hat => hat.1
  refine ⟨fun hzero hat => ?div, fun hneg hat => ?sqrt⟩
  case div =>
    refine (completes_tSeq_mark (execTDiv e d s t) (x' := (x.charged 16).setInt d (divResult (x.int s) 0))
      (event := LE_ENG_EVENT_DIV_ZERO e) rfl rfl hat ?_ rfl rfl (by simp [LE_ENG_EVENT_DIV_ZERO])
      (by simp [LE_ENG_EVENT_DIV_ZERO])).imp fun c ⟨htolek, hflag, hkept⟩ => ?_
    · simp [show (st.chip.tolek e).int t = 0 from hzero, x]
    · rw [htolek]
      exact ⟨((x.charged 16).int_setInt d _).trans (divResult_zero _), hflag, hkept, hrun hat, rfl, rfl, rfl⟩
  case sqrt =>
    refine (completes_tSeq_mark (execTSqrt e d s) (x' := (x.charged 16).setVal d 0)
      (event := LE_ENG_EVENT_SQRT_NEG e) rfl rfl hat ?_ rfl rfl (by simp [LE_ENG_EVENT_SQRT_NEG])
      (by simp [LE_ENG_EVENT_SQRT_NEG])).imp fun c ⟨htolek, hflag, hkept⟩ => ?_
    · simp [show (st.chip.tolek e).int s < 0 from hneg, x]
    · rw [htolek]
      exact ⟨congrArg BitVec.toInt ((x.charged 16).val_setVal d 0), hflag, hkept, hrun hat, rfl, rfl, rfl⟩

end Sys2Proof.Machine
end

section
/-! Proofs about the Xfurrow instructions of a channel sequencer (R511 to R515): the registers and stalls of an engine, the lanes that a mask
names, the pass that FPASS queues, and the statement O43. -/

namespace Sys2Proof.Machine

/-! ### Registers and stalls of an engine -/

theorem getX_setX_same (c : Chip) (e : Engine) {r : Nat} (v : Word) (hr : r ≠ 0) : (c.setX e r v).getX e r = v := by
  simp [getX_setX, hr]

@[simp] theorem lane_setEng (c : Chip) (k t l) : (c.setEng k t).lane l = c.lane l := rfl

@[simp] theorem setX_regs (c : Chip) (e r v) : (c.setX e r v).regs = c.regs := by rw [frame_setX]
@[simp] theorem setX_buf (c : Chip) (e r v) : (c.setX e r v).buf = c.buf := by rw [frame_setX]
@[simp] theorem setX_path (c : Chip) (e r v) : (c.setX e r v).path = c.path := by rw [frame_setX]
@[simp] theorem setX_sup (c : Chip) (e r v) : (c.setX e r v).sup = c.sup := by rw [frame_setX]
@[simp] theorem setX_core_sram (c : Chip) (e r v) : (c.setX e r v).core.sram = c.core.sram := by
  unfold Chip.setX; split <;> rfl
@[simp] theorem lane_setX (c : Chip) (e r v l) : (c.setX e r v).lane l = c.lane l := by simp [Chip.lane]
@[simp] theorem wch_setX (c : Chip) (e r v p) : (c.setX e r v).wch p = c.wch p := by simp [Chip.wch]
@[simp] theorem zload_setX (c : Chip) (e r v) : ((c.setX e r v).eng (engNum e)).zload = (c.eng (engNum e)).zload := by
  unfold Chip.setX; split <;> simp
@[simp] theorem waitev_setX (c : Chip) (e r v) : ((c.setX e r v).eng (engNum e)).waitev = (c.eng (engNum e)).waitev := by
  unfold Chip.setX; split <;> simp

/-- A change that is followed by a write of an integer register keeps the bytes that it keeps alone. -/
theorem bytesKept_setX {a b : Chip} (e r v) (h : a.bytesKept b) : a.bytesKept (b.setX e r v) := by
  simpa [Chip.bytesKept, Chip.byte, Chip.boot] using h

theorem bytesKept_setEng {a b : Chip} (k t) (h : a.bytesKept b) : a.bytesKept (b.setEng k t) := h

/-! ### The lanes that a mask names (R512, R513) -/

theorem mem_beamsOf {mask k : Nat} : k ∈ beamsOf mask ↔ k < 8 ∧ mask.testBit k = true := by simp [beamsOf]

theorem nodup_beamsOf (mask : Nat) : (beamsOf mask).Nodup := List.nodup_range.filter _

/-- `f` on every lane of pickup `p` that `mask` names. -/
def Chip.updBeams (c : Chip) (p mask : Nat) (f : Nat → LaneRec → LaneRec) : Chip :=
  (beamsOf mask).foldl (fun c k => c.updLane (8 * p + k) (f k)) c

theorem lane_foldl_updLane (f : Nat → LaneRec → LaneRec) (b j : Nat) {ks : List Nat} (hks : ks.Nodup) (c : Chip) :
    (ks.foldl (fun c k => c.updLane (b + k) (f k)) c).lane (b + j) = if j ∈ ks then f j (c.lane (b + j)) else c.lane (b + j) := by
  induction ks generalizing c with
  | nil => rfl
  | cons k ks ih =>
    obtain ⟨hk, hks⟩ := List.nodup_cons.1 hks
    rw [List.foldl_cons, ih hks, Chip.updLane]
    by_cases hj : j = k
    · subst hj
      simp [hk]
    · rw [lane_setLane_other _ _ _ _ (by omega)]
      simp [hj]

/-- An update of lanes changes nothing else. -/
theorem frame_foldl_updLane (f : Nat → LaneRec → LaneRec) (b : Nat) (ks : List Nat) (c : Chip) :
    ks.foldl (fun c k => c.updLane (b + k) (f k)) c =
      { c with path := (ks.foldl (fun c k => c.updLane (b + k) (f k)) c).path } := by
  induction ks generalizing c with
  | nil => rfl
  | cons k ks ih => rw [List.foldl_cons, ih]; rfl

theorem lane_updBeams (c : Chip) (p mask : Nat) (f : Nat → LaneRec → LaneRec) {k : Nat} (hk : k < 8) :
    (c.updBeams p mask f).lane (8 * p + k) = if mask.testBit k then f k (c.lane (8 * p + k)) else c.lane (8 * p + k) := by
  simp [Chip.updBeams, lane_foldl_updLane f _ k (nodup_beamsOf mask), mem_beamsOf, hk]

theorem frame_updBeams (c : Chip) (p mask : Nat) (f : Nat → LaneRec → LaneRec) :
    c.updBeams p mask f = { c with path := (c.updBeams p mask f).path } := frame_foldl_updLane f _ _ c

@[simp] theorem updBeams_regs (c : Chip) (p mask f) : (c.updBeams p mask f).regs = c.regs := by rw [frame_updBeams]
@[simp] theorem eng_updBeams (c : Chip) (p mask f n) : (c.updBeams p mask f).eng n = c.eng n := by rw [frame_updBeams]; rfl

theorem bytesKept_updBeams (c : Chip) (p mask f) : c.bytesKept (c.updBeams p mask f) := by
  rw [frame_updBeams]; exact bytesKept_refl c

/-! ### FARM and FDISARM (R512) -/

/-- The run that FARM gives a lane: it waits behind an armed run, else the lane takes it (R512). -/
def LaneRec.given (x : LaneRec) (r : ArmRun) : LaneRec :=
  if x.armed then { x with next := some r } else { x with run := some r, disarm := false }

/-- The run that the operands of FARM name for beam `k` (R512). -/
def farmRun (a b : Word) (k : Nat) : ArmRun :=
  ⟨mkPba (fieldOf a 36 1) (fieldOf a 32 4) k (fieldOf a 0 32), fieldOf a 48 16, b.getLsbD 0, fieldOf b 32 32⟩

/-- FARM of slots in range, on enabled lanes without a waiting run, is not refused. -/
theorem farm_accepted {c : Chip} {p : Nat} {a : Word} (b : Word) (hlayer : fieldOf a 32 4 ≤ 9)
    (hslots : fieldOf a 0 32 + fieldOf a 48 16 ≤ lastSlot + 1) (hcount : fieldOf a 48 16 ≠ 0) (hmask : fieldOf a 40 8 ≠ 0)
    (hlanes : ∀ k < 8, (fieldOf a 40 8).testBit k = true →
      (c.lane (8 * p + k)).next = none ∧ c.flag (RCH_CTRL_EN (8 * p + k)) = true) :
    c.farm p a b = (0, c.updBeams p (fieldOf a 40 8) fun k x => x.given (farmRun a b k)) := by
  have hfree : (beamsOf (fieldOf a 40 8)).any (fun k => (c.lane (8 * p + k)).next.isSome) = false := by
    refine List.any_eq_false.2 fun k hk => ?_
    obtain ⟨hk, hbit⟩ := mem_beamsOf.1 hk
    simp [(hlanes k hk hbit).1]
  have henabled : (beamsOf (fieldOf a 40 8)).any (fun k => !c.flag (RCH_CTRL_EN (8 * p + k))) = false := by
    refine List.any_eq_false.2 fun k hk => ?_
    obtain ⟨hk, hbit⟩ := mem_beamsOf.1 hk
    simp [(hlanes k hk hbit).2]
  have hrange : ¬(fieldOf a 32 4 > 9 ∨ fieldOf a 0 32 > lastSlot ∨ fieldOf a 0 32 + fieldOf a 48 16 > lastSlot + 1 ∨
      fieldOf a 48 16 = 0 ∨ fieldOf a 40 8 = 0) := by omega
  simp only [Chip.farm, hfree, henabled, hrange, if_false, Bool.false_eq_true]
  rfl

theorem fdisarm_eq (c : Chip) (p mask : Nat) :
    c.fdisarm p mask = c.updBeams p mask fun _ x => { x with next := none, disarm := x.run.isSome } := rfl

/-! ### FZLOAD (R513) -/

section Fzload

variable {c : Chip} {p : Pickup} {rd : Nat} {a b : Word}

/-- An address that is no entry's place is answered with RANGE (log entry 29). -/
theorem fzload_range (b : Word) (haddr : isZoneAddr a.toNat = false) : c.fzload p rd a b = c.setX (.cs p) rd 2 := by
  simp [Chip.fzload, haddr]

theorem fzload_unreachable (b : Word) (haddr : isZoneAddr a.toNat = true) (hdown : c.flag FLM_STATUS_UP = false) :
    c.fzload p rd a b = c.setX (.cs p) rd 4 := by
  simp [Chip.fzload, haddr, hdown]

theorem fzload_waits (haddr : isZoneAddr a.toNat = true) (hup : c.flag FLM_STATUS_UP = true) (hmask : fieldOf b 0 8 ≠ 0) :
    c.fzload p rd a b = c.setEng (engNum (.cs p))
      { c.eng (engNum (.cs p)) with zload := some (a.toNat, fieldOf b 0 8, fieldOf b 8 2, rd) } := by
  simp [Chip.fzload, haddr, hup, hmask]

end Fzload

theorem readUnits_good {c : Chip} {u : Nat} (h : c.unitMark u = .good) : (c.readUnits [u]).2 = c := by
  simp [Chip.readUnits, Chip.readUnit, h]

/-- Where the entry's unit is good, its reading changes nothing but the lanes' caches and the engine that waited. -/
theorem fzloadDone_good {c : Chip} {p : Pickup} {addr mask slot rd : Nat} (h : c.unitMark (addr / 64) = .good) :
    c.fzloadDone p addr mask slot rd =
      (let c' := c.updBeams p mask fun _ x =>
         { x with cache := Cells.put (fun _ => none) x.cache slot (some (addr, entryOf (c.bytes addr 64))) }
       (c'.setEng (engNum (.cs p)) { c.eng (engNum (.cs p)) with zload := none }).setX (.cs p) rd 0) := by
  rw [← eng_updBeams c p mask]
  simp only [Chip.fzloadDone, readUnits_good h, p.isLt, dite_true]
  rfl

/-! ### The pass that FPASS queues (R514) -/

/-- A level register's write, where it changes the level, counts frames anew and leaves the queued pass (R148). -/
theorem setLevel_cases (c : Chip) (p which v : Nat) : c.setLevel p which v = c ∨
    ∃ f w, w.queued = (c.wch p).queued ∧ c.setLevel p which v = (c.setFld f v).setWch p w := by
  by_cases hsame : c.fld (if which = 0 then WCH_LEVEL_PB_PEAK p else if which = 1 then WCH_LEVEL_PB_BIAS p else WCH_LEVEL_C_COOL p) = v
  · exact .inl (if_pos hsame)
  · refine .inr ⟨_, _, ?_, if_neg hsame⟩
    split
    · rfl
    · split <;> rfl

@[simp] theorem queued_setLevel (c : Chip) (p which v) : ((c.setLevel p which v).wch p).queued = (c.wch p).queued := by
  obtain h | ⟨f, w, hqueued, h⟩ := setLevel_cases c p which v
  · rw [h]
  · rw [h, wch_setWch, hqueued]

theorem bytesKept_setLevel {a b : Chip} (p which v) (h : a.bytesKept b) : a.bytesKept (b.setLevel p which v) := by
  obtain heq | ⟨f, w, -, heq⟩ := setLevel_cases b p which v <;> rw [heq] <;> exact h

@[simp] theorem wch_loopCmd (c : Chip) (p op x k) : (c.loopCmd p op x).wch k = c.wch k := by
  unfold Chip.loopCmd Chip.pushCmd; dsimp only; split <;> rfl

theorem bytesKept_loopCmd {a b : Chip} (p op x) (h : a.bytesKept b) : a.bytesKept (b.loopCmd p op x) := by
  unfold Chip.loopCmd Chip.pushCmd; dsimp only; split <;> exact h

@[simp] theorem wch_setSeqr (c : Chip) (p x k) : (c.setSeqr p x).wch k = c.wch k := rfl

theorem bytesKept_setSeqr {a b : Chip} (p x) (h : a.bytesKept b) : a.bytesKept (b.setSeqr p x) := h

/-- The pass is queued with its levels filled in. -/
theorem queued_queuePass (c : Chip) (p : Nat) (a : Pass) : ∃ levels, ((c.queuePass p a).wch p).queued = some { a with levels := levels } := by
  unfold Chip.queuePass; dsimp only
  split
  · exact ⟨_, by simp only [queued_setLevel, wch_setWch]; rfl⟩
  · exact ⟨_, by simp only [wch_setSeqr, wch_loopCmd, queued_setLevel, wch_setWch]; rfl⟩

theorem bytesKept_queuePass (c : Chip) (p : Nat) (a : Pass) : c.bytesKept (c.queuePass p a) := by
  unfold Chip.queuePass; dsimp only
  split
  · exact bytesKept_setLevel _ _ _ (bytesKept_setLevel _ _ _ (bytesKept_setLevel _ _ _ (bytesKept_of_eq rfl rfl rfl)))
  · refine bytesKept_setSeqr _ _ (bytesKept_loopCmd _ _ _ ?_)
    exact bytesKept_setLevel _ _ _ (bytesKept_setLevel _ _ _ (bytesKept_setLevel _ _ _ (bytesKept_of_eq rfl rfl rfl)))

/-- FPASS of slots in range, on a channel that may queue passes and has none, queues the pass. -/
theorem fpass_accepted {c : Chip} {p pba s2 : Nat} (hpass : (c.wch p).pass = none) (hqueued : (c.wch p).queued = none)
    (hrange : passRange (pbaSlot pba) s2 = true) (hlayer : pbaLayer pba ≤ 9) (henabled : c.passEnabled p = true) :
    c.fpass p pba s2 = (0, c.queuePass p { s1 := pbaSlot pba, s2 := s2, furrow := pbaFurrow pba, layer := pbaLayer pba,
                                           side := pbaSide pba, at_ := pbaSlot pba }) := by
  simp [Chip.fpass, hpass, hqueued, hrange, henabled, Nat.not_lt.2 hlayer]

/-- While a pass runs, BUSY is the one code that applies to an FPASS in range on a channel that may queue passes. -/
theorem fpass_busy {c : Chip} {p pba s2 : Nat} (hpass : (c.wch p).pass.isSome = true) (hrange : passRange (pbaSlot pba) s2 = true)
    (hlayer : pbaLayer pba ≤ 9) (henabled : c.passEnabled p = true) : c.fpass p pba s2 = (1, c) := by
  simp [Chip.fpass, Chip.pickResult, hpass, hrange, henabled, Nat.not_lt.2 hlayer]

/-! ### FWAITEV, and the return of a stalled instruction (R513, R515) -/

section Stalled

variable {s : State} {p : Pickup}

theorem exec_fzloadComplete {addr mask slot rd : Nat} (h : (s.chip.eng (engNum (.cs p))).zload = some (addr, mask, slot, rd))
    (hcarrying : s.chip.carrying = true) :
    exec (.fzloadComplete p) s = s.on fun c => c.fzloadDone p addr mask slot rd := by
  change execFzloadComplete p s = _
  simp [execFzloadComplete, State.on, h, Chip.when, hcarrying]

theorem exec_fwaitev_changed {rd rs1 rs2 : Fin 32} (hsel : (s.chip.getX (.cs p) rs2).toNat < 2)
    (hchanged : s.chip.seqChanged p (s.chip.getX (.cs p) rs2).toNat (s.chip.getX (.cs p) rs1) = true) :
    exec (.fwaitev p rd rs1 rs2) s = s.on fun c =>
      c.setX (.cs p) rd (BitVec.ofNat 64 (c.waitWord p (c.getX (.cs p) rs2).toNat).toNat) := by
  change execFwaitev p rd rs1 rs2 s = _
  simp [execFwaitev, State.on, Nat.not_le.2 hsel, hchanged]

theorem exec_fwaitev_waits {rd rs1 rs2 : Fin 32} (hsel : (s.chip.getX (.cs p) rs2).toNat < 2)
    (hsame : s.chip.seqChanged p (s.chip.getX (.cs p) rs2).toNat (s.chip.getX (.cs p) rs1) = false) :
    exec (.fwaitev p rd rs1 rs2) s = s.on fun c => c.setEng (engNum (.cs p))
      { c.eng (engNum (.cs p)) with waitev := some ((c.getX (.cs p) rs2).toNat, rd.val, c.getX (.cs p) rs1) } := by
  change execFwaitev p rd rs1 rs2 s = _
  simp [execFwaitev, State.on, Nat.not_le.2 hsel, hsame]

theorem exec_fwaitevReturn {sel rd : Nat} {seen : Word} (h : (s.chip.eng (engNum (.cs p))).waitev = some (sel, rd, seen))
    (hchanged : s.chip.seqChanged p sel seen = true) :
    exec (.fwaitevReturn p) s = s.on fun c =>
      (c.setEng (engNum (.cs p)) { c.eng (engNum (.cs p)) with waitev := none }).setX (.cs p) rd (BitVec.ofNat 64 (c.waitWord p sel).toNat) := by
  change execFwaitevReturn p s = _
  simp [execFwaitevReturn, State.on, h, Chip.when, hchanged]

end Stalled

/-! ### Results -/

/-- An instruction that ends with the write of its result to register `rd` completes with that result there. -/
theorem completes_setX {i : Instr} {s : State} {f : Chip → Chip} (h : exec i s = s.on f) {c : Chip} {e : Engine} {rd : Nat} {v : Word}
    (hf : f s.chip = c.setX e rd v) (hrd : rd ≠ 0) {P : Chip → Prop} (hP : P (c.setX e rd v)) :
    Completes i s fun c' => c'.getX e rd = v ∧ P c' :=
  completes_on h (hf ▸ ⟨getX_setX_same c e v hrd, hP⟩)

/-- An instruction that answers with a code in register `rd` completes with that code there. -/
theorem completes_answer {i : Instr} {s : State} {e : Engine} {rd : Nat} {f : Chip → Nat × Chip}
    (h : exec i s = s.on fun c => (f c).2.setX e rd (BitVec.ofNat 64 (f c).1)) {code : Nat} {c : Chip} (hf : f s.chip = (code, c))
    (hrd : rd ≠ 0) {P : Chip → Prop} (hP : P (c.setX e rd (BitVec.ofNat 64 code))) :
    Completes i s fun c' => c'.getX e rd = BitVec.ofNat 64 code ∧ P c' :=
  completes_setX h (by simp only [hf]) hrd hP

/-- Settles O43: each instruction and each return of a stalled one either writes its result or leaves the engine stalled. -/
theorem xfurrow : Obligations.Xfurrow := by
  unfold Obligations.Xfurrow
  intro s p rd rs1 rs2 hrd a b gives
  refine ⟨?farm, ?fdisarm, ?fzloadRange, ?fzloadUnreachable, ?fzloadWaits, ?fzloadComplete, ?fpassQueued, ?fpassBusy, ?fwaitev, ?fwaitevReturn⟩
  case farm =>
    intro hlayer hslots hcount hmask hlanes
    refine completes_answer (show _ = execFarm p rd rs1 rs2 s from rfl) (farm_accepted b hlayer hslots hcount hmask hlanes) hrd ⟨fun k hk => ?_, by simp, ?_⟩
    · simp only [lane_setX, lane_updBeams _ _ _ _ hk]
      rfl
    · exact bytesKept_setX _ _ _ (bytesKept_updBeams ..)
  case fdisarm =>
    refine completes_setX (show _ = execFdisarm p rd rs1 rs2 s from rfl) rfl hrd ⟨fun k hk => ?_, ?_, ?_⟩
    · simp only [fdisarm_eq, lane_setX, lane_updBeams _ _ _ _ hk]
      rfl
    · simp [fdisarm_eq]
    · exact bytesKept_setX _ _ _ (bytesKept_updBeams ..)
  case fzloadRange =>
    intro haddr
    exact completes_setX (show _ = execFzload p rd rs1 rs2 s from rfl) (fzload_range b haddr) hrd
      ⟨setX_regs .., bytesKept_setX _ _ _ (bytesKept_refl _)⟩
  case fzloadUnreachable =>
    intro haddr hdown
    exact completes_setX (show _ = execFzload p rd rs1 rs2 s from rfl) (fzload_unreachable b haddr hdown) hrd
      (bytesKept_setX _ _ _ (bytesKept_refl _))
  case fzloadWaits =>
    intro haddr hup hmask
    refine completes_on (show _ = execFzload p rd rs1 rs2 s from rfl) ?_
    rw [fzload_waits haddr hup hmask]
    exact ⟨by simp, by simp [Chip.getX], rfl, bytesKept_refl _⟩
  case fzloadComplete =>
    intro addr mask slot hload hcarrying hgood
    refine completes_setX (exec_fzloadComplete hload hcarrying) (fzloadDone_good hgood) hrd ⟨by simp, fun k hk hbit => ?_, by simp, ?_⟩
    · simp [lane_updBeams _ _ _ _ hk, hbit]
    · exact bytesKept_setX _ _ _ (bytesKept_setEng _ _ (bytesKept_updBeams ..))
  case fpassQueued =>
    intro hpass hqueued hrange hlayer henabled
    refine completes_answer (show _ = execFpass p rd rs1 rs2 s from rfl) (fpass_accepted hpass hqueued hrange hlayer henabled) hrd ⟨?_, ?_⟩
    · obtain ⟨levels, hq⟩ := queued_queuePass s.chip p _
      exact ⟨_, (congrArg WchRec.queued (wch_setX ..)).trans hq, rfl, rfl, rfl, rfl⟩
    · exact bytesKept_setX _ _ _ (bytesKept_queuePass ..)
  case fpassBusy =>
    intro hpass hrange hlayer henabled
    exact completes_answer (show _ = execFpass p rd rs1 rs2 s from rfl) (fpass_busy hpass hrange hlayer henabled) hrd
      ⟨setX_path .., setX_regs .., bytesKept_setX _ _ _ (bytesKept_refl _)⟩
  case fwaitev =>
    intro hsel
    refine ⟨fun hchanged => ?_, fun hsame => ?_⟩
    · exact completes_setX (exec_fwaitev_changed hsel hchanged) rfl hrd ⟨setX_regs .., bytesKept_setX _ _ _ (bytesKept_refl _)⟩
    · exact completes_on (exec_fwaitev_waits hsel hsame) ⟨by simp [a, b], rfl, bytesKept_refl _⟩
  case fwaitevReturn =>
    intro sel seen hwait hchanged
    exact completes_setX (exec_fwaitevReturn hwait hchanged) rfl hrd ⟨by simp, by simp, bytesKept_setX _ _ _ (bytesKept_refl _)⟩

end Sys2Proof.Machine
end

section
/-! Proofs about the library port (R369, R645, R651 to R653) and boundary scan (R658 to R662): what a read and a write of one word do, what an
instruction that takes the pins keeps, and the statement O58. -/

namespace Sys2Proof.Machine

/-! ### Reads of the library port (R652, R653) -/

/-- The chip once the words `ws` have gone out on LP_MISO. -/
def Chip.lpSent (c : Chip) (ws : List (BitVec 32)) : Chip := { c with servo := { c.servo with lpOut := ws } }

@[simp] theorem flag_lpSent (c : Chip) (ws f) : (c.lpSent ws).flag f = c.flag f := rfl
@[simp] theorem stState_lpSent (c : Chip) (ws s) : (c.lpSent ws).stState s = c.stState s := rfl

/-- The chip once the upper word `h` of the register at `a` has been latched. -/
def Chip.lpLatched (c : Chip) (a : Nat) (h : BitVec 32) : Chip := { c with servo := { c.servo with lpLatch := some (a, h) } }

theorem lpRead_one {c c' : Chip} {a k : Nat} (ha : a / 4 * 4 = k) {w : BitVec 32} (h : c.lpWord k = (w, c')) : c.lpRead a 1 = c'.lpSent [w] := by
  simp [Chip.lpRead, Chip.lpSent, ha, h]

theorem lpRead_two {c c' c'' : Chip} {a k : Nat} (ha : a / 4 * 4 = k) {w w' : BitVec 32} (h : c.lpWord k = (w, c'))
    (h' : c'.lpWord (k + 4) = (w', c'')) : c.lpRead a 2 = c''.lpSent [w, w'] := by
  simp [Chip.lpRead, Chip.lpSent, List.range_succ, ha, h, h']

/-- The library port has a 64-bit register of value `v` with its lower word at `a`. -/
structure LpWideAt (c : Chip) (a : Nat) (v : Word) : Prop where
  lower : c.lpWide a = some v
  upper : c.lpWide (a + 4) = none
  aligned : a % 4 = 0
  inRange : a + 4 < 2 ^ 16

theorem lpWideAt_ledger (c : Chip) : LpWideAt c 0x008 c.now := ⟨rfl, rfl, rfl, by decide⟩

theorem lpWideAt_time (c : Chip) (x : Station) : LpWideAt c (0x040 + 8 * x.val) (Cells.get (fun _ => 0) c.servo.lpTimes x.val) where
  lower := by
    have hnotLedger : ¬0x040 + 8 * x.val = 0x008 := by omega
    have hrange : 0x040 ≤ 0x040 + 8 * x.val ∧ 0x040 + 8 * x.val < 0x080 ∧ (0x040 + 8 * x.val) % 8 = 0 := by omega
    have hindex : (0x040 + 8 * x.val - 0x040) / 8 = x.val := by omega
    rw [Chip.lpWide, if_neg hnotLedger, if_pos hrange, hindex]
  upper := by
    rw [Chip.lpWide, if_neg (by omega), if_neg (by omega)]
  aligned := by omega
  inRange := by omega

namespace LpWideAt

variable {c : Chip} {a : Nat} {v : Word}

/-- A latch changes no register that the port shows. -/
theorem lpLatched (h : LpWideAt c a v) (b : Nat) (x : BitVec 32) : LpWideAt (c.lpLatched b x) a v := ⟨h.1, h.2, h.3, h.4⟩

theorem lpWord_lower (h : LpWideAt c a v) : c.lpWord a = (v.setWidth 32, c.lpLatched a ((v >>> 32).setWidth 32)) := by
  simp [Chip.lpWord, Chip.lpLatched, h.lower]

theorem lpWord_upper_latched (h : LpWideAt c a v) {x : BitVec 32} (hlatch : c.servo.lpLatch = some (a, x)) : c.lpWord (a + 4) = (x, c) := by
  simp [Chip.lpWord, h.lower, h.upper, hlatch]

theorem lpWord_upper_current (h : LpWideAt c a v) (hlatch : ∀ x, c.servo.lpLatch ≠ some (a, x)) :
    c.lpWord (a + 4) = ((v >>> 32).setWidth 32, c) := by
  cases hl : c.servo.lpLatch with
  | none => simp [Chip.lpWord, h.lower, h.upper, hl]
  | some m =>
    obtain ⟨b, x⟩ := m
    have hb : b ≠ a := fun hba => hlatch x (by rw [hl, hba])
    simp [Chip.lpWord, h.lower, h.upper, hl, hb]

/-- The addresses of the two words, as operands, keep their values: both are in range and word-aligned. -/
theorem wordAddr_lower (h : LpWideAt c a v) : (BitVec.ofNat 16 a).toNat / 4 * 4 = a := by
  have haligned := h.aligned
  have hrange := h.inRange
  rw [BitVec.toNat_ofNat, Nat.mod_eq_of_lt (by omega)]
  omega

theorem wordAddr_upper (h : LpWideAt c a v) : (BitVec.ofNat 16 (a + 4)).toNat / 4 * 4 = a + 4 := by
  have haligned := h.aligned
  rw [BitVec.toNat_ofNat, Nat.mod_eq_of_lt h.inRange]
  omega

end LpWideAt

theorem lpWord_id (c : Chip) : c.lpWord 0 = (0x00C26416#32, c) := rfl

theorem lpWide_station (c : Chip) (x : Station) : c.lpWide (0x020 + 4 * x.val) = none ∧ c.lpWide (0x020 + 4 * x.val - 4) = none := by
  constructor <;> rw [Chip.lpWide, if_neg (by omega), if_neg (by omega)]

theorem wordAddr_station (x : Station) : (BitVec.ofNat 16 (0x020 + 4 * x.val)).toNat / 4 * 4 = 0x020 + 4 * x.val := by
  rw [BitVec.toNat_ofNat]
  omega

theorem lpWord_station (c : Chip) (x : Station) : c.lpWord (0x020 + 4 * x.val) = (BitVec.ofNat 32 (c.lpStation x.val), c) := by
  obtain ⟨hwide, hbelow⟩ := lpWide_station c x
  have hrange : 0x020 ≤ 0x020 + 4 * x.val ∧ 0x020 + 4 * x.val < 0x040 := by omega
  have hindex : (0x020 + 4 * x.val - 0x020) / 4 = x.val := by omega
  simp only [Chip.lpWord, hwide, hbelow, ite_self]
  rw [if_neg (by omega), if_neg (by omega), if_pos hrange, hindex]

/-- LP_STATIONs (Table 8.13), with UNCLAMP_ALLOWED as the states that allow it. -/
theorem lpStation_eq (c : Chip) (s : Nat) : c.lpStation s =
    c.stState s + 8 * c.fld (WMM_STN_STATE_DISC_PRESENT s) + 16 * c.fld (WMM_STN_STATE_CLAMPED s) +
      (if c.stState s = sEmpty ∨ c.stState s = sLoaded ∨ c.stState s = sSafe then 32 else 0) + 256 * (c.stn s).changes.toNat +
      65536 * c.fld (WMM_STN_STATE_CAUSE s) := by
  have hallowed : 32 * (c.stState s == sEmpty || c.stState s == sLoaded || c.stState s == sSafe).toNat =
      if c.stState s = sEmpty ∨ c.stState s = sLoaded ∨ c.stState s = sSafe then 32 else 0 := by
    split <;> simp_all [or_assoc]
  rw [← hallowed]
  rfl

/-! ### Writes of the library port (R369, R652) -/

/-- One station's part of a write of LP_CLAMP: a request that changes. -/
def Chip.lpClampBit (v : Nat) (c : Chip) (s : Nat) : Chip :=
  if c.flag (WMM_STN_CTRL_CLAMP_REQ s) = v.testBit s then c else c.clampReq s (v.testBit s)

theorem lpStore_clamp (c : Chip) (v : Nat) : c.lpStore 0x010 v = (List.range 8).foldl (Chip.lpClampBit v) c := rfl

theorem lpStore_park (c : Chip) (v : Nat) : c.lpStore 0x014 v = c.lpPark (v % 256) := rfl

theorem lpStore_other (c : Chip) {a : Nat} (v : Nat) (hclamp : a ≠ 0x010) (hpark : a ≠ 0x014) : c.lpStore a v = c := by
  rw [Chip.lpStore, if_neg hclamp, if_neg hpark]

/-- A fold whose every step leaves its start alone ends where it started. -/
theorem foldl_eq_of_fixed {α β : Type} {f : α → β → α} {a : α} {l : List β} (h : ∀ b ∈ l, f a b = a) : l.foldl f a = a :=
  List.foldlRecOn l f (motive := (· = a)) rfl fun _ hb x hx => hb ▸ h x hx

theorem lpClampBits_same {c : Chip} {v : Nat} {l : List Nat} (h : ∀ x ∈ l, c.flag (WMM_STN_CTRL_CLAMP_REQ x) = v.testBit x) :
    l.foldl (Chip.lpClampBit v) c = c :=
  foldl_eq_of_fixed fun x hx => if_pos (h x hx)

theorem lpStore_clamp_same {c : Chip} {v : Nat} (h : ∀ x < 8, c.flag (WMM_STN_CTRL_CLAMP_REQ x) = v.testBit x) : c.lpStore 0x010 v = c :=
  lpClampBits_same fun x hx => h x (List.mem_range.1 hx)

/-- A write that changes one station's request alone is a write of that request. -/
theorem lpStore_clamp_one {c : Chip} {v y : Nat} (hy : y < 8)
    (hbits : ∀ x < 8, (c.flag (WMM_STN_CTRL_CLAMP_REQ x) = v.testBit x ↔ x ≠ y))
    (hsame : (c.clampReq y (v.testBit y)).flag (WMM_STN_CTRL_CLAMP_REQ y) = v.testBit y)
    (hothers : ∀ x, x ≠ y → (c.clampReq y (v.testBit y)).flag (WMM_STN_CTRL_CLAMP_REQ x) = c.flag (WMM_STN_CTRL_CLAMP_REQ x)) :
    c.lpStore 0x010 v = c.clampReq y (v.testBit y) := by
  obtain ⟨before, after, hrange, hbefore⟩ := List.eq_append_cons_of_mem (List.mem_range.2 hy)
  have hlt : ∀ x ∈ before ++ y :: after, x < 8 := fun x hx => List.mem_range.1 (hrange ▸ hx)
  have hstart : before.foldl (Chip.lpClampBit v) c = c :=
    lpClampBits_same fun x hx => (hbits x (hlt x (by simp [hx]))).2 fun hxy => hbefore (hxy ▸ hx)
  have hstep : c.lpClampBit v y = c.clampReq y (v.testBit y) := if_neg fun h => (hbits y hy).1 h rfl
  have hend : after.foldl (Chip.lpClampBit v) (c.clampReq y (v.testBit y)) = c.clampReq y (v.testBit y) := by
    refine lpClampBits_same fun x hx => ?_
    by_cases hxy : x = y
    · rw [hxy, hsame]
    · rw [hothers x hxy, (hbits x (hlt x (by simp [hx]))).2 hxy]
  rw [lpStore_clamp, hrange, List.foldl_append, List.foldl_cons, hstart, hstep, hend]

/-- In FAULT the clamp rules move no clamp (R368). -/
theorem clampRules_fault {c : Chip} {s : Nat} (h : c.stState s = sFault) : c.clampRules s = c := by
  simp [Chip.clampRules, h, sFault, sEmpty, sLoaded, sSafe]

theorem flag_setFlag_same (c : Chip) (f : Fld) (v : Bool) (h : f.lo + f.w ≤ 64) (hw : f.w = 1) : (c.setFlag f v).flag f = v := by
  rw [Chip.flag, Chip.setFlag, fld_setFld_same _ _ _ h, hw]
  cases v <;> rfl

/-- The fields that a request for a station in FAULT may change. -/
def clampReqFields (s : Nat) : List Fld := [WMM_STN_CTRL_CLAMP_REQ s, WMM_STN_EVENT_UNCLAMP_DEFERRED s]

theorem stState_apart_clampReqFields (s : Nat) : ∀ g ∈ clampReqFields s, apart (WMM_STN_STATE_STATE s) g := by
  simp only [clampReqFields, List.forall_mem_cons, List.not_mem_nil, false_imp_iff, implies_true, and_true]
  constructor <;> left <;> simp only [WMM_STN_STATE_STATE, WMM_STN_STATE, WMM_STN_CTRL_CLAMP_REQ, WMM_STN_CTRL,
    WMM_STN_EVENT_UNCLAMP_DEFERRED, WMM_STN_EVENT] <;> omega

theorem clampReq_apart_unclampDeferred (x y : Nat) : apart (WMM_STN_CTRL_CLAMP_REQ x) (WMM_STN_EVENT_UNCLAMP_DEFERRED y) := by
  left
  simp only [WMM_STN_CTRL_CLAMP_REQ, WMM_STN_CTRL, WMM_STN_EVENT_UNCLAMP_DEFERRED, WMM_STN_EVENT]
  omega

theorem clampReq_apart_clampReqFields {x y : Nat} (h : x ≠ y) : ∀ g ∈ clampReqFields y, apart (WMM_STN_CTRL_CLAMP_REQ x) g := by
  simp only [clampReqFields, List.forall_mem_cons, List.not_mem_nil, false_imp_iff, implies_true, and_true]
  refine ⟨Or.inl ?_, clampReq_apart_unclampDeferred x y⟩
  simp only [WMM_STN_CTRL_CLAMP_REQ, WMM_STN_CTRL]
  omega

/-- A request's bit and, for a release that a MOUNT defers, its event. -/
def Chip.clampBits (c : Chip) (s : Nat) (v late : Bool) : Chip :=
  (c.setFlag (WMM_STN_CTRL_CLAMP_REQ s) v).when late fun c => c.mark (WMM_STN_EVENT_UNCLAMP_DEFERRED s)

theorem fieldsKept_clampBits (c : Chip) (s : Nat) (v late : Bool) : c.fieldsKept (clampReqFields s) (c.clampBits s v late) := by
  have hreq := fieldsKept_setFlag (WMM_STN_CTRL_CLAMP_REQ s) v (L := clampReqFields s) (by simp [clampReqFields]) (fieldsKept_refl _ c)
  exact fieldsKept_when _ _ hreq (fieldsKept_mark _ (by simp [clampReqFields]) hreq)

theorem stState_clampBits (c : Chip) (s : Nat) (v late : Bool) : (c.clampBits s v late).stState s = c.stState s :=
  fieldsKept_clampBits c s v late _ (by simp [WMM_STN_STATE_STATE]) (stState_apart_clampReqFields s)

theorem flag_clampBits_same (c : Chip) (s : Nat) (v late : Bool) : (c.clampBits s v late).flag (WMM_STN_CTRL_CLAMP_REQ s) = v := by
  have hreq := flag_setFlag_same c (WMM_STN_CTRL_CLAMP_REQ s) v (by simp [WMM_STN_CTRL_CLAMP_REQ]) rfl
  cases late with
  | false => exact hreq
  | true =>
    exact (congrArg (· != 0) (fld_setFld_apart _ _ _ _ (by simp [WMM_STN_CTRL_CLAMP_REQ]) (clampReq_apart_unclampDeferred s s))).trans hreq

theorem flag_clampBits_other (c : Chip) {s x : Nat} (v late : Bool) (h : x ≠ s) :
    (c.clampBits s v late).flag (WMM_STN_CTRL_CLAMP_REQ x) = c.flag (WMM_STN_CTRL_CLAMP_REQ x) :=
  congrArg (· != 0) (fieldsKept_clampBits c s v late _ (by simp [WMM_STN_CTRL_CLAMP_REQ]) (clampReq_apart_clampReqFields h))

/-- A request for a station in FAULT moves no clamp. -/
theorem clampReq_fault {c : Chip} {s : Nat} (v : Bool) (h : c.stState s = sFault) :
    ∃ late st, c.clampReq s v = (c.clampBits s v late).setStn s st :=
  ⟨_, _, clampRules_fault ((stState_clampBits ..).trans h)⟩

/-- A write of LP_CLAMP that changes the request of a station in FAULT alone. -/
theorem lpStore_clamp_fault {c : Chip} {v y : Nat} (hy : y < 8)
    (hbits : ∀ x < 8, (c.flag (WMM_STN_CTRL_CLAMP_REQ x) = v.testBit x ↔ x ≠ y)) (hfault : c.stState y = sFault) :
    (c.lpStore 0x010 v).flag (WMM_STN_CTRL_CLAMP_REQ y) = v.testBit y ∧ (c.lpStore 0x010 v).stState y = sFault := by
  obtain ⟨late, st, heq⟩ := clampReq_fault (v.testBit y) hfault
  have hsame : (c.clampReq y (v.testBit y)).flag (WMM_STN_CTRL_CLAMP_REQ y) = v.testBit y := heq ▸ flag_clampBits_same ..
  rw [lpStore_clamp_one hy hbits hsame fun x hxy => heq ▸ flag_clampBits_other _ _ _ hxy]
  exact ⟨hsame, heq ▸ (stState_clampBits ..).trans hfault⟩

/-- A park that the library asks for leaves alone a station that is EMPTY, LOADED, SAFE or in FAULT (R356). -/
theorem park_library_idle {c : Chip} {s : Nat} (h : c.stState s ∈ [sEmpty, sSafe, sLoaded, sFault]) : c.park s cauLibraryPark = c := by
  have hidle : c.stState s = sEmpty ∨ c.stState s = sSafe ∨ c.stState s = sFault ∨
      c.stState s = sLoaded ∧ !parksLoaded cauLibraryPark := by
    simp only [List.mem_cons, List.not_mem_nil, or_false] at h
    have hlibrary : (!parksLoaded cauLibraryPark) = true := rfl
    tauto
  have hnotParking : c.stState s ≠ sParking := by
    intro hparking
    rw [hparking] at h
    exact absurd h (by decide)
  rw [Chip.park, if_neg hnotParking, if_pos hidle]

theorem lpStore_park_idle {c : Chip} {v : Nat} (h : ∀ x < 8, v.testBit x = true → c.stState x ∈ [sEmpty, sSafe, sLoaded, sFault]) :
    c.lpStore 0x014 v = c := by
  rw [lpStore_park]
  refine foldl_eq_of_fixed fun x hx => ?_
  have hx8 : x < 8 := List.mem_range.1 hx
  have hbit : (v % 256).testBit x = v.testBit x := by
    rw [show 256 = 2 ^ 8 from rfl, Nat.testBit_mod_two_pow]
    simp [hx8]
  split
  next hset => exact park_library_idle (h x hx8 (hbit ▸ hset))
  next => rfl

/-! ### The port in power -/

theorem exec_lpRead {s : State} (h : s.chip.boot.powered = true) (a : BitVec 16) (n : Nat) :
    exec (.lpRead a n) s = s.on fun c => c.lpRead a.toNat n := by
  change execLpRead a n s = _
  simp [execLpRead, State.on, Chip.when, h]

theorem exec_lpWrite_one {s : State} (h : s.chip.boot.powered = true) {a : BitVec 16} {k : Nat} (ha : a.toNat / 4 * 4 = k) (v : BitVec 32) :
    exec (.lpWrite a [v]) s = s.on fun c => (c.lpStore k v.toNat).lpSent [] := by
  change execLpWrite a [v] s = _
  simp [execLpWrite, State.on, Chip.when, h, Chip.lpSent, ha]

/-- The library port is ignored while POR_N is active (R645). -/
theorem completes_unpowered {s : State} {i : Instr} {f : Chip → Chip} (hexec : exec i s = s.on fun c => c.when c.boot.powered f)
    (h : s.chip.boot.powered = false) : Completes i s fun c => c = s.chip :=
  completes_on hexec (if_neg (by simp [h]))

/-- A read of one word that sends `w` and leaves the chip as `c'`. -/
theorem completes_lpRead_one {s : State} (h : s.chip.boot.powered = true) {a : BitVec 16} {k : Nat} (ha : a.toNat / 4 * 4 = k)
    {w : BitVec 32} {c' : Chip} (hword : s.chip.lpWord k = (w, c')) : Completes (.lpRead a 1) s fun c => c = c'.lpSent [w] :=
  completes_on (exec_lpRead h a 1) (lpRead_one ha hword)

/-- A write of one word that changes nothing behind the port. -/
theorem completes_lpWrite_same {s : State} (h : s.chip.boot.powered = true) {a : BitVec 16} {k : Nat} (ha : a.toNat / 4 * 4 = k) {v : BitVec 32}
    (hstore : s.chip.lpStore k v.toNat = s.chip) : Completes (.lpWrite a [v]) s fun c => c = s.chip.lpSent [] :=
  completes_on (exec_lpWrite_one h ha v) (congrArg (Chip.lpSent · []) hstore)

/-- A 64-bit register gives its lower word, and its upper word by the latch (R653). -/
theorem completes_lpRead_wide {s : State} (h : s.chip.boot.powered = true) {a : Nat} {v : Word} (hwide : LpWideAt s.chip a v) :
    let hi : BitVec 32 := (v >>> 32).setWidth 32
    (Completes (.lpRead (BitVec.ofNat 16 a) 1) s fun c => c = (s.chip.lpLatched a hi).lpSent [v.setWidth 32]) ∧
    (Completes (.lpRead (BitVec.ofNat 16 a) 2) s fun c => c = (s.chip.lpLatched a hi).lpSent [v.setWidth 32, hi]) ∧
    Completes (.lpRead (BitVec.ofNat 16 (a + 4)) 1) s fun c =>
      (∀ x, s.chip.servo.lpLatch = some (a, x) → c = s.chip.lpSent [x]) ∧
      ((∀ x, s.chip.servo.lpLatch ≠ some (a, x)) → c = s.chip.lpSent [hi]) := by
  intro hi
  have hsecond : (s.chip.lpLatched a hi).lpWord (a + 4) = (hi, s.chip.lpLatched a hi) := (hwide.lpLatched a hi).lpWord_upper_latched rfl
  refine ⟨?one, ?two, ?upper⟩
  case one => exact completes_lpRead_one h hwide.wordAddr_lower hwide.lpWord_lower
  case two => exact completes_on (exec_lpRead h _ 2) (lpRead_two hwide.wordAddr_lower hwide.lpWord_lower hsecond)
  case upper =>
    exact completes_on (exec_lpRead h _ 1) ⟨fun x hlatch => lpRead_one hwide.wordAddr_upper (hwide.lpWord_upper_latched hlatch),
      fun hlatch => lpRead_one hwide.wordAddr_upper (hwide.lpWord_upper_current hlatch)⟩

/-! ### Boundary scan (R658 to R662) -/

theorem fld_copyFields_other (c old : Chip) {f : Fld} (hf : f.lo + f.w ≤ 64) {fs : List Fld} (h : ∀ g ∈ fs, apart f g) :
    (c.copyFields old fs).fld f = c.fld f :=
  List.foldlRecOn fs _ (motive := fun c' : Chip => c'.fld f = c.fld f) rfl
    fun b hb g hg => (fld_setFld_apart b f g _ hf (h g hg)).trans hb

/-- Fields that share no bits are each copied. -/
theorem fld_copyFields (c old : Chip) {fs : List Fld} (hfs : ∀ f ∈ fs, f.lo + f.w ≤ 64) (happart : fs.Pairwise fun f g => apart f g)
    {f : Fld} (h : f ∈ fs) : (c.copyFields old fs).fld f = old.fld f := by
  induction fs generalizing c with
  | nil => simp at h
  | cons g fs ih =>
    obtain ⟨hg, hrest⟩ := List.pairwise_cons.1 happart
    obtain ⟨hgw, hfsw⟩ := List.forall_mem_cons.1 hfs
    rcases List.mem_cons.1 h with rfl | hmem
    · calc (c.copyFields old (f :: fs)).fld f = (c.setFld f (old.fld f)).fld f := fld_copyFields_other _ old hgw hg
        _ = old.fld f := by rw [fld_setFld_same _ _ _ hgw, Nat.mod_eq_of_lt (fld_lt old f)]
    · exact ih _ hfsw hrest hmem

/-- The fuses' fields of the registers (R660, log entry 111). -/
def fuseFields : List Fld := [BOOT_FUSE_OWNER_KEY_SET, BOOT_FUSE_OWNER_ONLY] ++ (List.range 5).map fun k => BOOT_SVN_MIN_SVN k

theorem fld_takePins (c : Chip) (code : BitVec 8) {f : Fld} (h : f ∈ fuseFields) : (c.takePins code).fld f = c.fld f :=
  fld_copyFields c.drawChip c (fs := fuseFields) (by decide) (by decide) h

/-- An instruction that takes the pins is in force and says so; the boot flash, the fuses and what the hosts have been told are kept. -/
theorem completes_takePins {i : Instr} {s : State} {code : BitVec 8} (hexec : exec i s = s.on fun c => c.takePins code) :
    Completes i s fun c => c.sup.tap = { s.chip.sup.tap with instr := code, taken := true } ∧ c.boot.flash = s.chip.boot.flash ∧
      c.boot.keyHash = s.chip.boot.keyHash ∧ c.host.posts = s.chip.host.posts ∧ ∀ f ∈ fuseFields, c.fld f = s.chip.fld f :=
  completes_on hexec ⟨rfl, rfl, rfl, rfl, fun _ hf => fld_takePins _ code hf⟩

/-- A bit of IDCODE is a bit of the manufacturer's code in bits 11:1, and a constant outside (R661). -/
theorem getLsbD_idcode (i : Nat) :
    idcode.getLsbD i = if 1 ≤ i ∧ i < 12 then Config.jep106.getLsbD (i - 1) else (0xA6416001#32).getLsbD i := by
  have hzero : ∀ i < 12, 1 ≤ i → (0xA6416001#32).getLsbD i = false := by decide
  simp only [idcode, BitVec.getLsbD_or, BitVec.getLsbD_shiftLeft, BitVec.getLsbD_setWidth]
  split
  next hcode =>
    obtain ⟨hpos, hlt⟩ := hcode
    have h32 : i < 32 := by omega
    have hpred : i - 1 < 32 := by omega
    rw [hzero i hlt hpos]
    simp [h32, hpred, Nat.ne_of_gt hpos]
  next hconst =>
    rcases Nat.eq_zero_or_pos i with rfl | hpos
    · rfl
    · have hhigh : 11 ≤ i - 1 := by omega
      simp [BitVec.getLsbD_of_ge Config.jep106 (i - 1) hhigh]

theorem extractLsb'_idcode_code : idcode.extractLsb' 1 11 = Config.jep106 := by
  apply BitVec.eq_of_getLsbD_eq
  intro i hi
  rw [BitVec.getLsbD_extractLsb', getLsbD_idcode, if_pos (by omega), Nat.add_sub_cancel_left]
  simp [hi]

theorem extractLsb'_idcode_const {start : Nat} (len : Nat) (h : 12 ≤ start) :
    idcode.extractLsb' start len = (0xA6416001#32).extractLsb' start len := by
  apply BitVec.eq_of_getLsbD_eq
  intro i hi
  rw [BitVec.getLsbD_extractLsb', BitVec.getLsbD_extractLsb', getLsbD_idcode, if_neg (by omega)]

/-! ### O58 -/

/-- Settles O58: a read or a write of one word is one `lpWord` or `lpStore`, and the scan instructions are one `takePins` or a change of the port. -/
theorem libraryAndScan : Obligations.LibraryAndScan := by
  unfold Obligations.LibraryAndScan
  intro s out tap t
  refine ⟨?unpowered, ?powered, ?takesPins, ?samplePreload, ?idcode, ?bypass, ?tapReset⟩
  case unpowered =>
    intro a n ws h
    exact ⟨completes_unpowered (show _ = execLpRead a n s from rfl) h, completes_unpowered (show _ = execLpWrite a ws s from rfl) h⟩
  case powered =>
    intro h
    refine ⟨?id, ?station, ?wide, ?writeOther, ?clampSame, ?clampFault, ?park⟩
    case id => exact completes_lpRead_one h rfl (lpWord_id _)
    case station =>
      intro x
      rw [← lpStation_eq]
      exact completes_lpRead_one h (wordAddr_station x) (lpWord_station _ x)
    case wide =>
      rintro a v (⟨rfl, rfl⟩ | ⟨x, rfl, rfl⟩)
      · exact completes_lpRead_wide h (lpWideAt_ledger _)
      · exact completes_lpRead_wide h (lpWideAt_time _ x)
    case writeOther =>
      intro a v hclamp hpark
      exact completes_lpWrite_same h rfl (lpStore_other _ _ (by omega) (by omega))
    case clampSame =>
      intro v hsame
      exact completes_lpWrite_same (k := 0x010) h rfl (lpStore_clamp_same hsame)
    case clampFault =>
      intro v y hbits hfault
      obtain ⟨hflag, hstate⟩ := lpStore_clamp_fault (v := v.toNat) y.isLt hbits hfault
      exact completes_on (exec_lpWrite_one (k := 0x010) h rfl v) ⟨(flag_lpSent ..).trans hflag, (stState_lpSent ..).trans hstate⟩
    case park =>
      intro v hidle
      refine (completes_lpWrite_same (k := 0x014) h rfl (lpStore_park_idle hidle)).imp ?_
      rintro c rfl
      exact ⟨fun _ _ => rfl, rfl⟩
  case takesPins =>
    intro i code hi
    simp only [List.mem_cons, Prod.mk.injEq, List.not_mem_nil, or_false] at hi
    rcases hi with ⟨rfl, rfl⟩ | ⟨rfl, rfl⟩ | ⟨rfl, rfl⟩ | ⟨rfl, rfl⟩ | ⟨rfl, rfl⟩ <;> exact completes_takePins rfl
  case samplePreload =>
    intro cells hlength
    exact completes_onIf (show _ = execSamplePreload cells s from rfl) (by simp [hlength]) rfl
  case idcode =>
    refine completes_on (show _ = execIdcode s from rfl) ⟨idcode, rfl, getLsbD_idcode 0, extractLsb'_idcode_code, ?_, ?_⟩
    · exact extractLsb'_idcode_const 16 (by decide)
    · exact extractLsb'_idcode_const 4 (by decide)
  case bypass => exact completes_on (show _ = execBypass s from rfl) rfl
  case tapReset => exact completes_on (show _ = execTapReset s from rfl) rfl

end Sys2Proof.Machine
end

section
/-! Proofs about the words of the Tolek instructions (R312, Tables 7.6 to 7.8): the fields that a word holds by its row, the instruction that it is,
and the statement O59. -/

namespace Sys2Proof.Machine

/-! ### Words and their fields -/

theorem toNat_tWord {op f : Nat} (hop : op < 64) (hf : f < 2 ^ 26) : (tWord op f).toNat = op * 2 ^ 26 + f := by
  rw [tWord, BitVec.toNat_ofNat, Nat.mod_eq_of_lt (by omega)]

theorem bitsOf_tWord_op {op f : Nat} (hop : op < 64) (hf : f < 2 ^ 26) : bitsOf (tWord op f).toNat 26 6 = op := by
  rw [toNat_tWord hop hf, bitsOf]
  omega

theorem bitsOf_tWord {op f lo n : Nat} (hop : op < 64) (hf : f < 2 ^ 26) (h : lo + n ≤ 26) : bitsOf (tWord op f).toNat lo n = bitsOf f lo n := by
  have hsplit : op * 2 ^ 26 = 2 ^ lo * (2 ^ n * (op * 2 ^ (26 - lo - n))) := by
    have : 2 ^ 26 = 2 ^ lo * (2 ^ n * 2 ^ (26 - lo - n)) := by
      rw [← pow_add, ← pow_add]; congr 1; omega
    rw [this]; ring
  rw [toNat_tWord hop hf, bitsOf, bitsOf, hsplit, Nat.mul_add_div (Nat.two_pow_pos lo), Nat.mul_add_mod]

theorem val_tReg (w : Q) (lo : Nat) : (tReg w lo).val = bitsOf w.toNat lo 4 := by
  simp [tReg, bitsOf, Nat.shiftRight_eq_div_pow]
theorem val_tAccum (w : Q) (lo : Nat) : (tAccum w lo).val = bitsOf w.toNat lo 2 := by
  simp [tAccum, bitsOf, Nat.shiftRight_eq_div_pow]
theorem val_tFive (w : Q) (lo : Nat) : (tFive w lo).val = bitsOf w.toNat lo 5 := by
  simp [tFive, bitsOf, Nat.shiftRight_eq_div_pow]
theorem toNat_extractLsb'_eq_bitsOf (w : Q) (lo n : Nat) : (w.extractLsb' lo n).toNat = bitsOf w.toNat lo n := by
  simp [bitsOf, Nat.shiftRight_eq_div_pow]

/-! ### The fields of a word by its row of Table 7.8 -/

/-- The field of `x` at a lowest bit and a width, in its place. -/
def inPlace (x : Nat) (f : Nat × Nat) : Nat := 2 ^ f.1 * bitsOf x f.1 f.2

/-- The sum, in place, of the fields of a word that `p` names in the order of its row. -/
def TRow.fieldSum (r : TRow) (x : Nat) (p : Nat → Bool) : Nat :=
  (List.range r.fmt.fields.length).foldl (fun a i => a + (if p i then inPlace x (r.fmt.fields.getD i (0, 0)) else 0)) 0

theorem tField_eq {f : TFmt} (w : Q) {i : Nat} (h : i < f.fields.length) :
    tField f w i = bitsOf w.toNat (f.fields.getD i (0, 0)).1 (f.fields.getD i (0, 0)).2 := by
  simp [tField, h]

theorem foldl_add_eq_sum (f : Nat → Nat) (n : Nat) : (List.range n).foldl (fun a i => a + f i) 0 = ((List.range n).map f).sum := by
  rw [List.sum_eq_foldl, List.foldl_map]

theorem TRow.fieldSum_eq (r : TRow) (w : Q) (p : Nat → Bool) :
    (List.range r.fmt.fields.length).foldl
      (fun a i => a + (if p i then tField r.fmt w i * 2 ^ (r.fmt.fields.getD i (0, 0)).1 else 0)) 0 = r.fieldSum w.toNat p := by
  rw [TRow.fieldSum, foldl_add_eq_sum, foldl_add_eq_sum]
  refine congrArg List.sum (List.map_congr_left fun i hi => ?_)
  rw [tField_eq w (List.mem_range.1 hi), inPlace, Nat.mul_comm]

/-- Fields of which no two are the same add up. -/
theorem TRow.fieldSum_or (r : TRow) (x : Nat) {p q : Nat → Bool} (h : ∀ i, p i = true → q i = false) :
    r.fieldSum x (fun i => p i || q i) = r.fieldSum x p + r.fieldSum x q := by
  simp only [TRow.fieldSum, foldl_add_eq_sum, ← List.sum_map_add]
  refine congrArg List.sum (List.map_congr_left fun i _ => ?_)
  by_cases hp : p i = true
  · simp [hp, h i hp]
  · simp [hp]

/-- A word is legal where the fields that its row uses, or leaves unmarked, make up its lower 26 bits (R312, R318). -/
theorem tLegal_iff {w : Q} {r : TRow} (hr : tRow (bitsOf w.toNat 26 6) = some r) : tLegal w = true ↔
    r.fieldSum w.toNat (fun i => r.unmarked || r.used.getD i true) = w.toNat % 2 ^ 26 ∧ ¬ (r.fmt = .lp ∧ bitsOf w.toNat 18 8 = 0) := by
  simp only [tLegal, hr, TRow.fieldSum_eq, Bool.and_eq_true, beq_iff_eq, Bool.not_eq_true', Bool.and_eq_false_imp, beq_eq_false_iff_ne]
  simp only [not_and, ne_eq]
  rfl

/-- A legal word without the fields that its row neither uses nor marks: its opcode, and the fields that its row uses. -/
theorem tPlain_of_legal {w : Q} {r : TRow} (hr : tRow (bitsOf w.toNat 26 6) = some r) (h : tLegal w = true) :
    tPlain w = tWord (bitsOf w.toNat 26 6) (r.fieldSum w.toNat (r.used.getD · true)) := by
  have hsum := ((tLegal_iff hr).1 h).1
  have hplain : tPlain w = w - BitVec.ofNat 32 (r.fieldSum w.toNat fun i => r.unmarked && !r.used.getD i true) := by
    simp only [tPlain, hr, TRow.fieldSum_eq]
  have hor : (fun i => r.unmarked || r.used.getD i true) = fun i => r.used.getD i true || (r.unmarked && !r.used.getD i true) := by
    funext i
    cases r.unmarked <;> cases r.used.getD i true <;> rfl
  rw [hor, TRow.fieldSum_or _ _ (fun i hi => by rw [hi, Bool.not_true, Bool.and_false])] at hsum
  have hw : bitsOf w.toNat 26 6 * 2 ^ 26 + w.toNat % 2 ^ 26 = w.toNat := by
    rw [bitsOf]
    omega
  rw [hplain, sub_eq_iff_eq_add, tWord, ← BitVec.ofNat_add, Nat.add_assoc, hsum, hw, BitVec.ofNat_toNat, BitVec.setWidth_eq]

theorem val_tReg_mul (w : Q) (lo : Nat) : (tReg w lo).val * 2 ^ lo = inPlace w.toNat (lo, 4) := by rw [val_tReg, inPlace, Nat.mul_comm]
theorem val_tAccum_mul (w : Q) (lo : Nat) : (tAccum w lo).val * 2 ^ lo = inPlace w.toNat (lo, 2) := by rw [val_tAccum, inPlace, Nat.mul_comm]
theorem val_tFive_mul (w : Q) (lo : Nat) : (tFive w lo).val * 2 ^ lo = inPlace w.toNat (lo, 5) := by rw [val_tFive, inPlace, Nat.mul_comm]
theorem toNat_extractLsb'_mul (w : Q) (lo n : Nat) : (w.extractLsb' lo n).toNat * 2 ^ lo = inPlace w.toNat (lo, n) := by
  rw [toNat_extractLsb'_eq_bitsOf, inPlace, Nat.mul_comm]
theorem val_tFive_zero (w : Q) : (tFive w 0).val = inPlace w.toNat (0, 5) := by rw [← val_tFive_mul, pow_zero, Nat.mul_one]
theorem toNat_extractLsb'_zero (w : Q) (n : Nat) : (w.extractLsb' 0 n).toNat = inPlace w.toNat (0, n) := by
  rw [← toNat_extractLsb'_mul, pow_zero, Nat.mul_one]

/-! ### The words of the formats (Table 7.6) -/

/-- `f` holds the values `vals` in the fields of format `F`, and nothing else. -/
structure Holds (f : Nat) (F : TFmt) (vals : List Nat) : Prop where
  lt : f < 2 ^ 26
  fields : F.fields.map (fun x => bitsOf f x.1 x.2) = vals
  sum : (F.fields.map (inPlace f)).sum = f

/-- A sum of values in their places holds them where it reads back as them. -/
theorem Holds.of_fields {f : Nat} {F : TFmt} {vals : List Nat} (hlt : f < 2 ^ 26) (hfields : F.fields.map (fun x => bitsOf f x.1 x.2) = vals)
    (hsum : (List.zipWith (fun x v => 2 ^ x.1 * v) F.fields vals).sum = f) : Holds f F vals := by
  refine ⟨hlt, hfields, ?_⟩
  rw [← hfields, List.zipWith_map_right, List.zipWith_self] at hsum
  exact hsum

theorem holds_vvv {d s t : Nat} (hd : d < 2 ^ 4) (hs : s < 2 ^ 4) (ht : t < 2 ^ 4) :
    Holds (fmtVVV d s t) .vvv [d, s, t] := by
  refine .of_fields (by unfold fmtVVV; omega) ?_ (by simp only [TFmt.fields, List.zipWith, List.sum_cons, List.sum_nil, fmtVVV]; ring)
  simp only [TFmt.fields, List.map, bitsOf, fmtVVV, List.cons.injEq, and_true]
  omega

theorem holds_vk {d s k : Nat} (hd : d < 2 ^ 4) (hs : s < 2 ^ 4) (hk : k < 2 ^ 5) :
    Holds (fmtVK d s k) .vk [d, s, k] := by
  refine .of_fields (by unfold fmtVK; omega) ?_ (by simp only [TFmt.fields, List.zipWith, List.sum_cons, List.sum_nil, fmtVK]; ring)
  simp only [TFmt.fields, List.map, bitsOf, fmtVK, List.cons.injEq, and_true]
  omega

theorem holds_vka {d s k a : Nat} (hd : d < 2 ^ 4) (hs : s < 2 ^ 4) (hk : k < 2 ^ 5) (ha : a < 2 ^ 2) :
    Holds (fmtVKA d s k a) .vka [d, s, k, a] := by
  refine .of_fields (by unfold fmtVKA fmtVK; omega) ?_ (by simp only [TFmt.fields, List.zipWith, List.sum_cons, List.sum_nil, fmtVKA, fmtVK]; ring)
  simp only [TFmt.fields, List.map, bitsOf, fmtVKA, fmtVK, List.cons.injEq, and_true]
  omega

theorem holds_sh {d s n : Nat} (hd : d < 2 ^ 4) (hs : s < 2 ^ 4) (hn : n < 2 ^ 5) :
    Holds (fmtSH d s n) .sh [d, s, n] := by
  refine .of_fields (by unfold fmtSH; omega) ?_ (by simp only [TFmt.fields, List.zipWith, List.sum_cons, List.sum_nil, fmtSH]; ring)
  simp only [TFmt.fields, List.map, bitsOf, fmtSH, List.cons.injEq, and_true]
  omega

theorem holds_im {d imm : Nat} (hd : d < 2 ^ 4) (himm : imm < 2 ^ 16) :
    Holds (fmtIM d imm) .im [d, imm] := by
  refine .of_fields (by unfold fmtIM; omega) ?_ (by simp only [TFmt.fields, List.zipWith, List.sum_cons, List.sum_nil, fmtIM]; ring)
  simp only [TFmt.fields, List.map, bitsOf, fmtIM, List.cons.injEq, and_true]
  omega

theorem holds_mm {d x addr : Nat} (hd : d < 2 ^ 4) (hx : x < 2 ^ 4) (haddr : addr < 2 ^ 11) :
    Holds (fmtMM d x addr) .mm [d, x, addr] := by
  refine .of_fields (by unfold fmtMM; omega) ?_ (by simp only [TFmt.fields, List.zipWith, List.sum_cons, List.sum_nil, fmtMM]; ring)
  simp only [TFmt.fields, List.map, bitsOf, fmtMM, List.cons.injEq, and_true]
  omega

theorem holds_pt {d port : Nat} (hd : d < 2 ^ 4) (hport : port < 2 ^ 6) :
    Holds (fmtPT d port) .pt [d, port] := by
  refine .of_fields (by unfold fmtPT; omega) ?_ (by simp only [TFmt.fields, List.zipWith, List.sum_cons, List.sum_nil, fmtPT]; ring)
  simp only [TFmt.fields, List.map, bitsOf, fmtPT, List.cons.injEq, and_true]
  omega

theorem holds_ac {a b s t k : Nat} (ha : a < 2 ^ 2) (hb : b < 2 ^ 2) (hs : s < 2 ^ 4) (ht : t < 2 ^ 4) (hk : k < 2 ^ 5) :
    Holds (fmtAC a b s t k) .ac [a, b, s, t, k] := by
  refine .of_fields (by unfold fmtAC; omega) ?_ (by simp only [TFmt.fields, List.zipWith, List.sum_cons, List.sum_nil, fmtAC]; ring)
  simp only [TFmt.fields, List.map, bitsOf, fmtAC, List.cons.injEq, and_true]
  omega

theorem holds_br {s t bit target : Nat} (hs : s < 2 ^ 4) (ht : t < 2 ^ 4) (hbit : bit < 2 ^ 5) (htarget : target < 2 ^ 12) :
    Holds (fmtBR s t bit target) .br [s, t, bit, target] := by
  refine .of_fields (by unfold fmtBR; omega) ?_ (by simp only [TFmt.fields, List.zipWith, List.sum_cons, List.sum_nil, fmtBR]; ring)
  simp only [TFmt.fields, List.map, bitsOf, fmtBR, List.cons.injEq, and_true]
  omega

theorem holds_lp {count last : Nat} (hcount : count < 2 ^ 8) (hlast : last < 2 ^ 12) :
    Holds (fmtLP count last) .lp [count, last] := by
  refine .of_fields (by unfold fmtLP; omega) ?_ (by simp only [TFmt.fields, List.zipWith, List.sum_cons, List.sum_nil, fmtLP]; ring)
  simp only [TFmt.fields, List.map, bitsOf, fmtLP, List.cons.injEq, and_true]
  omega

theorem holds_j {target : Nat} (htarget : target < 2 ^ 12) :
    Holds (fmtJ target) .j [target] := by
  refine .of_fields (by unfold fmtJ; omega) ?_ (by simp only [TFmt.fields, List.zipWith, List.sum_cons, List.sum_nil, fmtJ]; ring)
  simp only [TFmt.fields, List.map, bitsOf, fmtJ, List.cons.injEq, and_true]
  omega

section Encode

variable {op f : Nat} {r : TRow} {vals : List Nat} (hop : op < 64) (hr : tRow op = some r) (h : Holds f r.fmt vals)

include hop h

theorem Holds.bitsOf_word : r.fmt.fields.map (fun x => bitsOf (tWord op f).toNat x.1 x.2) = vals := by
  have hfit : ∀ F : TFmt, ∀ x ∈ F.fields, x.1 + x.2 ≤ 26 := by
    intro F
    cases F <;> decide
  exact (List.map_congr_left fun x hx => bitsOf_tWord hop h.lt (hfit _ x hx)).trans h.fields

include hr

/-- A word is legal whose fields hold 0 where its row marks them 0, and no count of 0 in a LOOP. -/
theorem Holds.tLegal
    (hzero : ((List.range r.fmt.fields.length).all fun i => r.unmarked || r.used.getD i true || vals.getD i 0 == 0) = true)
    (hcount : r.fmt = .lp → vals.getD 0 0 ≠ 0) : tLegal (tWord op f) = true := by
  have hrow : tRow (bitsOf (tWord op f).toNat 26 6) = some r := by rw [bitsOf_tWord_op hop h.lt, hr]
  have hword := h.bitsOf_word hop
  refine (tLegal_iff hrow).2 ⟨?_, ?_⟩
  · have hlow : (tWord op f).toNat % 2 ^ 26 = f := by
      have := h.lt
      rw [toNat_tWord hop h.lt]
      omega
    rw [hlow, TRow.fieldSum, foldl_add_eq_sum]
    conv_rhs => rw [← h.sum]
    refine congrArg List.sum (List.ext_getElem (by simp) fun i hi _ => ?_)
    have hi : i < r.fmt.fields.length := by simpa using hi
    have hplace : inPlace (tWord op f).toNat r.fmt.fields[i] = inPlace f r.fmt.fields[i] := by
      have := congrArg (·[i]?) (hword.trans h.fields.symm)
      simp only [List.getElem?_map, List.getElem?_eq_getElem hi, Option.map_some, Option.some.injEq] at this
      rw [inPlace, inPlace, this]
    have hval : vals.getD i 0 = bitsOf f r.fmt.fields[i].1 r.fmt.fields[i].2 := by
      simp [← h.fields, hi]
    have hmarked := List.all_eq_true.1 hzero i (List.mem_range.2 hi)
    rw [hval] at hmarked
    simp only [List.getElem_map, List.getElem_range, List.getD_eq_getElem _ _ hi, hplace]
    split
    next => rfl
    next hunused =>
      simp only [hunused, Bool.false_or, beq_iff_eq] at hmarked
      rw [inPlace, hmarked, Nat.mul_zero]
  · rintro ⟨hlp, hbits⟩
    simp only [hlp, TFmt.fields, List.map] at hword
    exact hcount hlp (by simp [← hword, hbits])

/-- A word that holds its row's fields is legal, and decodes as its opcode and its fields say. -/
theorem legal_and_decoded (hzero : ((List.range r.fmt.fields.length).all fun i => r.unmarked || r.used.getD i true || vals.getD i 0 == 0) = true)
    (hcount : r.fmt = .lp → vals.getD 0 0 ≠ 0) {e : TolekEngine} {i : Instr}
    (hdecode : tLegal (tWord op f) = true → bitsOf (tWord op f).toNat 26 6 = op →
      r.fmt.fields.map (fun x => bitsOf (tWord op f).toNat x.1 x.2) = vals → tolekInstr e (tWord op f) = some i) :
    tLegal (tWord op f) = true ∧ tolekInstr e (tWord op f) = some i :=
  have hlegal := h.tLegal hop hr hzero hcount
  ⟨hlegal, hdecode hlegal (bitsOf_tWord_op hop h.lt) (h.bitsOf_word hop)⟩

end Encode

/-- The word of an instruction is legal and is that instruction, but for a LOOP of count 0. -/
theorem tolekWord_decodes {i : Instr} {e : TolekEngine} {w : Q} (h : tolekWord i = some (e, w)) (hl : ∀ last, i ≠ .tLoop e 0 last) :
    tLegal w = true ∧ tolekInstr e w = some i := by
  unfold tolekWord at h
  split at h
  all_goals simp only [Option.some.injEq, Prod.mk.injEq, reduceCtorEq] at h
  all_goals obtain ⟨rfl, rfl⟩ := h
  case' h_1 e | h_49 e | h_50 e =>
    refine legal_and_decoded (by decide) rfl (holds_j (by decide)) rfl (by simp) fun hlegal hop hfields => ?_
  case' h_2 e d s | h_16 e d s | h_17 e d s | h_24 e d s =>
    refine legal_and_decoded (by decide) rfl (holds_vvv d.isLt s.isLt (by decide)) rfl (by simp) fun hlegal hop hfields => ?_
  case' h_3 e d imm | h_4 e d imm =>
    refine legal_and_decoded (by decide) rfl (holds_im d.isLt imm.isLt) rfl (by simp) fun hlegal hop hfields => ?_
  case' h_5 e d k =>
    refine legal_and_decoded (by decide) rfl (holds_vk d.isLt (by decide) k.isLt) rfl (by simp) fun hlegal hop hfields => ?_
  case' h_6 e d addr | h_7 e d addr =>
    refine legal_and_decoded (by decide) rfl (holds_mm d.isLt (by decide) addr.isLt) rfl (by simp) fun hlegal hop hfields => ?_
  case' h_8 e d x addr | h_9 e d x addr =>
    refine legal_and_decoded (by decide) rfl (holds_mm d.isLt x.isLt addr.isLt) rfl (by simp) fun hlegal hop hfields => ?_
  case' h_10 e d port | h_11 e d port =>
    refine legal_and_decoded (by decide) rfl (holds_pt d.isLt port.isLt) rfl (by simp) fun hlegal hop hfields => ?_
  case' h_12 e d s t | h_13 e d s t | h_14 e d s t | h_18 e d s t |
      h_19 e d s t | h_20 e d s t | h_23 e d s t | h_25 e d s t | h_26 e d s t | h_27 e d s t | h_30 e d s t =>
    refine legal_and_decoded (by decide) rfl (holds_vvv d.isLt s.isLt t.isLt) rfl (by simp) fun hlegal hop hfields => ?_
  case' h_15 e d s k =>
    refine legal_and_decoded (by decide) rfl (holds_vk d.isLt s.isLt k.isLt) rfl (by simp) fun hlegal hop hfields => ?_
  case' h_21 e d s n | h_22 e d s n | h_28 e d s n | h_29 e d s n =>
    refine legal_and_decoded (by decide) rfl (holds_sh d.isLt s.isLt n.isLt) rfl (by simp) fun hlegal hop hfields => ?_
  case' h_31 e a =>
    refine legal_and_decoded (by decide) rfl (holds_ac a.isLt (by decide) (by decide) (by decide) (by decide)) rfl (by simp)
      fun hlegal hop hfields => ?_
  case' h_32 e a s =>
    refine legal_and_decoded (by decide) rfl (holds_ac a.isLt (by decide) s.isLt (by decide) (by decide)) rfl (by simp) fun hlegal hop hfields => ?_
  case' h_33 e a s k | h_35 e a s k | h_38 e a s k =>
    refine legal_and_decoded (by decide) rfl (holds_ac a.isLt (by decide) s.isLt (by decide) k.isLt) rfl (by simp) fun hlegal hop hfields => ?_
  case' h_34 e a s t =>
    refine legal_and_decoded (by decide) rfl (holds_ac a.isLt (by decide) s.isLt t.isLt (by decide)) rfl (by simp) fun hlegal hop hfields => ?_
  case' h_36 e a b =>
    refine legal_and_decoded (by decide) rfl (holds_ac a.isLt b.isLt (by decide) (by decide) (by decide)) rfl (by simp) fun hlegal hop hfields => ?_
  case' h_37 e d a =>
    refine legal_and_decoded (by decide) rfl (holds_ac a.isLt (by decide) d.isLt (by decide) (by decide)) rfl (by simp) fun hlegal hop hfields => ?_
  case' h_39 e d s k a =>
    refine legal_and_decoded (by decide) rfl (holds_vka d.isLt s.isLt k.isLt a.isLt) rfl (by simp) fun hlegal hop hfields => ?_
  case' h_40 e target | h_48 e target =>
    refine legal_and_decoded (by decide) rfl (holds_j target.isLt) rfl (by simp) fun hlegal hop hfields => ?_
  case' h_41 e s t target | h_42 e s t target | h_43 e s t target | h_44 e s t target =>
    refine legal_and_decoded (by decide) rfl (holds_br s.isLt t.isLt (by decide) target.isLt) rfl (by simp) fun hlegal hop hfields => ?_
  case' h_45 e s bit target | h_46 e s bit target =>
    refine legal_and_decoded (by decide) rfl (holds_br s.isLt (by decide) bit.isLt target.isLt) rfl (by simp) fun hlegal hop hfields => ?_
  case' h_47 e count last =>
    refine legal_and_decoded (by decide) rfl (holds_lp count.isLt last.isLt) rfl
      (fun _ hc => hl last (by simpa [← BitVec.toNat_inj] using hc)) fun hlegal hop hfields => ?_
  all_goals
    simp only [TFmt.fields, List.map, List.cons.injEq, and_true] at hfields
    simp only [tolekInstr, hlegal, toNat_extractLsb'_eq_bitsOf, hop]
    simp [Fin.ext_iff, ← BitVec.toNat_inj, val_tReg, val_tAccum, val_tFive, hfields, toNat_extractLsb'_eq_bitsOf, -BitVec.extractLsb'_toNat]

/-- A legal word is the word of one instruction, but for the fields that its row neither uses nor marks. -/
theorem exists_instr_of_legal (e : TolekEngine) {w : Q} (h : tLegal w = true) :
    ∃ i, tolekInstr e w = some i ∧ tolekWord i = some (e, tPlain w) := by
  obtain ⟨r, hr⟩ : ∃ r, tRow (bitsOf w.toNat 26 6) = some r := by
    cases hr : tRow (bitsOf w.toNat 26 6) with
    | none => simp [tLegal, hr] at h
    | some r => exact ⟨r, rfl⟩
  rw [tPlain_of_legal hr h]
  unfold tRow at hr
  split at hr
  all_goals simp only [Option.some.injEq, reduceCtorEq] at hr
  all_goals subst hr
  all_goals rename_i hop
  all_goals
    refine ⟨_, by simp only [tolekInstr, h, toNat_extractLsb'_eq_bitsOf, hop]; rfl, ?_⟩
    rw [hop]
    refine congrArg (fun f => some (e, tWord _ f)) ?_
    simp only [fmtVVV, fmtVK, fmtVKA, fmtSH, fmtIM, fmtMM, fmtPT, fmtAC, fmtBR, fmtLP, fmtJ, val_tReg_mul,
      val_tAccum_mul, val_tFive_mul, toNat_extractLsb'_mul, val_tFive_zero, toNat_extractLsb'_zero]
    simp [TRow.fieldSum, TFmt.fields, List.range_succ]

/-- The count of a LOOP is not 0 (R318). -/
theorem tLegal_loop_zero (last : BitVec 12) : tLegal (tWord 0x3B (fmtLP 0 last.toNat)) = false := by
  have h : Holds (fmtLP 0 last.toNat) .lp [0, last.toNat] := holds_lp (by decide) last.isLt
  have hfields := h.bitsOf_word (op := 0x3B) (r := ⟨.lp, [], 1, false⟩) (by decide)
  simp only [TFmt.fields, List.map, List.cons.injEq, and_true] at hfields
  have hop := bitsOf_tWord_op (op := 0x3B) (by decide) h.lt
  rw [← Bool.not_eq_true, tLegal_iff (by rw [hop]; rfl)]
  exact fun hlegal => hlegal.2 ⟨rfl, hfields.1⟩

/-- An instruction whose word does not stand at the engine's program counter does not occur (log entry 3). -/
theorem tRun_elsewhere {c : Chip} {e : Nat} {w : Q} (h : tPlain ((c.tolek e).word (c.tolek e).pc) ≠ w) (cost : Nat) (f : Chip → Chip) :
    c.tRun e w cost f = c := by
  simp [Chip.tRun, Chip.when, h]

theorem on_tRun_elsewhere {s : State} {e : Nat} {w : Q} (h : tPlain ((s.chip.tolek e).word (s.chip.tolek e).pc) ≠ w) {cost : Nat}
    {f : Chip → Chip} : (s.on fun c => c.tRun e w cost f) = .next s := by
  rw [State.on, tRun_elsewhere h]

theorem exec_elsewhere {i : Instr} {e : TolekEngine} {w : Q} {s : State} (hw : tolekWord i = some (e, w))
    (h : tPlain ((s.chip.tolek e).word (s.chip.tolek e).pc) ≠ w) : exec i s = .next s := by
  unfold tolekWord at hw
  split at hw
  all_goals simp only [Option.some.injEq, Prod.mk.injEq, reduceCtorEq] at hw
  all_goals obtain ⟨rfl, rfl⟩ := hw
  case h_10 e d port =>
    change execTIn e d port s = .next s
    simp only [execTIn, State.on, Chip.when, Chip.tSeq, tRun_elsewhere h, ite_self]
  all_goals exact on_tRun_elsewhere h

/-- Settles O59: a word holds the fields of its row, and each row reads them back; and each meaning asks for its word. -/
theorem tolekEncoding : Obligations.TolekEncoding := by
  unfold Obligations.TolekEncoding
  refine ⟨fun i e w => tolekWord_decodes, ?_, exists_instr_of_legal, fun i e w s => exec_elsewhere⟩
  intro e last w h
  obtain rfl : _ = w := congrArg Prod.snd (Option.some.inj h)
  exact tLegal_loop_zero last

end Sys2Proof.Machine
end

section
/-! Proofs about the whole machine: where a command stops it, what a step does with the queue, the tick of the clocks, and the statements O1 to O5. -/

namespace Sys2Proof.Machine

/-- What a command does, where its operands are well-formed (log entry 3). -/
theorem exec_eq_onIf (i : Instr) (s : State) : ∃ f, exec i s = s.onIf i.wf f := by
  have hon : ∀ {c : Chip}, exec i s = .next { s with chip := c } → i.wf = true → ∃ f, exec i s = s.onIf i.wf f := by
    intro c h hwf
    exact ⟨fun _ => c, by rw [h, hwf]; rfl⟩
  have hif : ∀ {b : Bool} {f : Chip → Chip}, exec i s = s.onIf b f → i.wf = b → ∃ f, exec i s = s.onIf i.wf f := by
    intro b f h hwf
    exact ⟨f, hwf ▸ h⟩
  cases i
  case loopTick => exact hif (execLoopTick.eq_1 ..) rfl
  case servoValuesDelivered => exact hif (execServoValuesDelivered.eq_1 ..) rfl
  case motionValuesDelivered => exact hif (execMotionValuesDelivered.eq_1 ..) rfl
  case agingMeasurement => exact hif (execAgingMeasurement.eq_1 ..) rfl
  case laneSlotStart => exact hif (execLaneSlotStart.eq_1 ..) rfl
  case gaddrDecode => exact hif (execGaddrDecode.eq_1 ..) rfl
  case defectOnset => exact hif (execDefectOnset.eq_1 ..) rfl
  case defectEnd => exact hif (execDefectEnd.eq_1 ..) rfl
  case blankDecision => exact hif (execBlankDecision.eq_1 ..) rfl
  case spanConfirm => exact hif (execSpanConfirm.eq_1 ..) rfl
  case xtiTimeout => exact hif (execXtiTimeout.eq_1 ..) rfl
  case outerDecode => exact hif (execOuterDecode.eq_1 ..) rfl
  case verifyResult => exact hif (execVerifyResult.eq_1 ..) rfl
  case paritySweep => exact hif (execParitySweep.eq_1 ..) rfl
  case survey => exact hif (execSurvey.eq_1 ..) rfl
  case dataCapsule => exact hif (execDataCapsule.eq_1 ..) rfl
  case calCycleDone => exact hif (execCalCycleDone.eq_1 ..) rfl
  case samplePreload => exact hif (execSamplePreload.eq_1 ..) rfl
  case engineMemoryAccess => exact hif (execEngineMemoryAccess.eq_1 ..) rfl
  all_goals exact hon rfl rfl

/-- A well-formed command goes on, and leaves the queue as it is. -/
theorem exec_wf {i : Instr} (h : i.wf = true) (s : State) : ∃ c, exec i s = .next { s with chip := c } := by
  obtain ⟨f, hexec⟩ := exec_eq_onIf i s
  exact ⟨f s.chip, by rw [hexec, h]; rfl⟩

/-- Settles O1: the step matches on the queue. -/
theorem stepRunsFront : Obligations.StepRunsFront := fun _ _ => rfl

/-- Settles O4: what is well-formed goes on, what is not faults by its one name. -/
theorem stopsOnlyIllFormed : Obligations.StopsOnlyIllFormed := by
  unfold Obligations.StopsOnlyIllFormed
  intro s i
  refine ⟨fun h => ?_, fun h => ?_⟩
  · obtain ⟨c, hexec⟩ := exec_wf h s
    exact ⟨_, hexec, rfl, trivial⟩
  · obtain ⟨f, hexec⟩ := exec_eq_onIf i s
    rw [hexec, h]
    rfl

/-- Settles O5: the front command is well-formed, so it goes on and leaves the rest of the queue. -/
theorem readyKept : Obligations.ReadyKept := by
  unfold Obligations.ReadyKept
  intro s hready
  cases hp : s.pending with
  | nil =>
    refine ⟨{ s with chip := s.chip.idle }, by simp [step, hp], hready, by simp [hp]⟩
  | cons i rest =>
    obtain ⟨hi, hrest⟩ : i.wf = true ∧ ∀ j ∈ rest, j.wf = true := by
      rwa [State.Ready, hp, List.forall_mem_cons] at hready
    obtain ⟨c, hexec⟩ := exec_wf hi { s with pending := rest }
    exact ⟨{ s with chip := c, pending := rest }, by simpa [step, hp] using hexec, hrest, rfl⟩

theorem now_pass (c : Chip) (n : Nat) : (c.pass n).now = c.now + BitVec.ofNat 64 n := by
  unfold Chip.pass
  dsimp only
  split <;> rfl

/-- A copy that needs no correction keeps its offset (R60). -/
theorem pass_uncorrected {c : Chip} (h : c.arch.corr = 0) (n : Nat) : (c.pass n).nowH = c.nowH + BitVec.ofNat 64 n ∧ (c.pass n).arch.corr = 0 := by
  simp [Chip.pass, Chip.nowH, h]

theorem frame_pass (c : Chip) (n : Nat) : c.pass n = { c with arch := { c.arch with
    ledgerM := (c.pass n).now, ledgerH := (c.pass n).nowH, corr := (c.pass n).arch.corr, pausing := (c.pass n).arch.pausing } } := by
  unfold Chip.pass
  dsimp only
  split <;> rfl

/-- Settles O2: with an empty queue a step is one tick of both copies of ledger time. -/
theorem idleTick : Obligations.IdleTick := by
  unfold Obligations.IdleTick
  intro s hp
  have htick : BitVec.ofNat 64 (if s.chip.flag AFE_PLL_STATUS_LOCKED then 1 else 20) = if s.chip.flag AFE_PLL_STATUS_LOCKED then 1 else 20 := by
    split <;> rfl
  refine ⟨{ s with chip := s.chip.idle }, by simp [step, hp], hp, (now_pass ..).trans (by rw [htick]), fun hcorr => ?_, frame_pass ..⟩
  obtain ⟨hnowH, hcorr'⟩ := pass_uncorrected hcorr (if s.chip.flag AFE_PLL_STATUS_LOCKED then 1 else 20)
  refine ⟨?_, hcorr'⟩
  simp only [Chip.idle]
  rw [hnowH, now_pass]
  exact add_sub_add_right_eq_sub ..

/-- Settles O3: the reset state is empty, and its registers read as the field maps say. -/
theorem resetValues : Obligations.ResetValues := by
  unfold Obligations.ResetValues
  refine ⟨⟨rfl, rfl, rfl, fun _ => rfl, fun _ => rfl, fun _ => rfl, fun _ => rfl, by decide, by decide, by decide, by decide⟩, ?_, memory_wf_reset⟩
  exact fun _ h => nomatch h
end Sys2Proof.Machine
end

section
/-! Proofs about accesses to registers (R22 to R27): what a write does to each field, and that the fields of a register share no bit; the
statement O7. -/

namespace Sys2Proof.Machine

/-! ### Words made of fields -/

/-- The bits of a mask that covers a field. -/
theorem getLsbD_of_covered {mask : Word} {lo w i : Nat} (h : fieldOf mask lo w = 2 ^ w - 1) (hi : i < w) : mask.getLsbD (lo + i) = true := by
  have := congrArg (·.testBit i) h
  simpa [fieldOf_testBit, hi] using this

theorem fieldOf_and_covered {v mask : Word} {lo w : Nat} (h : fieldOf mask lo w = 2 ^ w - 1) : fieldOf (v &&& mask) lo w = fieldOf v lo w := by
  apply Nat.eq_of_testBit_eq
  intro i
  rw [fieldOf_testBit, fieldOf_testBit]
  by_cases hi : i < w
  · simp [getLsbD_of_covered h hi]
  · simp [hi]

theorem fieldOf_merge_covered {old v mask : Word} {lo w : Nat} (h : fieldOf mask lo w = 2 ^ w - 1) :
    fieldOf (old &&& ~~~mask ||| v &&& mask) lo w = fieldOf v lo w := by
  apply Nat.eq_of_testBit_eq
  intro i
  rw [fieldOf_testBit, fieldOf_testBit]
  by_cases hi : i < w
  · have hmask := getLsbD_of_covered h hi
    simp [hmask]
  · simp [hi]

/-! ### One field after a write (R24, R27) -/

theorem fieldAfter_lt {f : FieldDef} (hreset : f.reset < 2 ^ f.w) (old v mask : Word) : fieldAfter f old v mask < 2 ^ f.w := by
  have hx := fieldOf_lt old f.lo f.w
  unfold fieldAfter
  dsimp only
  split
  · exact hx
  cases f.acc with
  | ro | lk => exact hx
  | wo => exact Nat.two_pow_pos _
  | w1c => exact Nat.and_lt_two_pow _ (by have := Nat.two_pow_pos f.w; omega)
  | rw | rh =>
    dsimp only
    split
    · exact fieldOf_lt ..
    · exact hreset

theorem fieldAfter_uncovered {f : FieldDef} {mask : Word} (h : fieldOf mask f.lo f.w = 0) (old v : Word) :
    fieldAfter f old v mask = fieldOf old f.lo f.w := if_pos h

theorem testBit_w1c {x y w i : Nat} (hy : y < 2 ^ w) (hi : i < w) : (x &&& (2 ^ w - 1 - y)).testBit i = (x.testBit i && !y.testBit i) := by
  rw [Nat.testBit_and, Nat.sub_sub, Nat.add_comm 1 y, Nat.testBit_two_pow_sub_succ hy]
  simp [hi]

/-- What a write does to a field that its mask covers, by its access type. -/
theorem fieldAfter_covered {f : FieldDef} {mask : Word} (hw : 0 < f.w) (h : fieldOf mask f.lo f.w = 2 ^ f.w - 1) (old v : Word) :
    let x := fieldOf old f.lo f.w
    let y := fieldOf v f.lo f.w
    let x' := fieldAfter f old v mask
    (f.acc = .ro ∨ f.acc = .lk → x' = x) ∧ (f.acc = .wo → x' = 0) ∧ (f.acc = .w1c → ∀ i < f.w, x'.testBit i = (x.testBit i && !y.testBit i)) ∧
      (f.acc = .rw ∨ f.acc = .rh → x' = if fieldOk f y then y else f.reset) := by
  intro x y x'
  have hne : fieldOf mask f.lo f.w ≠ 0 := by
    have := Nat.one_lt_two_pow hw.ne'
    omega
  refine ⟨?kept, fun hacc => ?writeOnly, fun hacc i hi => ?cleared, ?written⟩
  case kept => rintro (hacc | hacc) <;> simp only [x', fieldAfter, hne, if_false, hacc, x]
  case writeOnly => simp only [x', fieldAfter, hne, if_false, hacc]
  case cleared =>
    simp only [x', fieldAfter, hne, if_false, hacc, fieldOf_and_covered h]
    exact testBit_w1c (fieldOf_lt ..) hi
  case written => rintro (hacc | hacc) <;> simp only [x', fieldAfter, hne, if_false, hacc, fieldOf_merge_covered h, y]

/-! ### A register after a write -/

/-- Writes of fields leave every field that shares no bit with them. -/
theorem fieldOf_foldl_withField_apart (g : FieldDef → Nat) {lo w : Nat} (hfit : lo + w ≤ 64) {fs : List FieldDef}
    (h : ∀ f ∈ fs, lo + w ≤ f.lo ∨ f.lo + f.w ≤ lo) (x : Word) :
    fieldOf (fs.foldl (fun x f => withField x f.lo f.w (g f)) x) lo w = fieldOf x lo w :=
  List.foldlRecOn fs _ (motive := fun y => fieldOf y lo w = fieldOf x lo w) rfl
    fun y hy f hf => (fieldOf_withField_apart y f.lo f.w (g f) lo w hfit (h f hf)).trans hy

/-- Of fields that share no bit, each reads what is written into it. -/
theorem fieldOf_foldl_withField (g : FieldDef → Nat) {fs : List FieldDef} (hfit : ∀ f ∈ fs, f.lo + f.w ≤ 64)
    (hapart : fs.Pairwise fun f h => f.lo + f.w ≤ h.lo ∨ h.lo + h.w ≤ f.lo) {f : FieldDef} (hf : f ∈ fs) (x : Word) :
    fieldOf (fs.foldl (fun x f => withField x f.lo f.w (g f)) x) f.lo f.w = g f % 2 ^ f.w := by
  induction fs generalizing x with
  | nil => simp at hf
  | cons h fs ih =>
    obtain ⟨hh, hrest⟩ := List.pairwise_cons.1 hapart
    obtain ⟨hfith, hfit⟩ := List.forall_mem_cons.1 hfit
    rcases List.mem_cons.1 hf with rfl | hf
    · rw [List.foldl_cons, fieldOf_foldl_withField_apart g hfith hh, fieldOf_withField_same _ _ _ _ hfith]
    · exact ih hfit hrest hf _

theorem fieldOf_regAfter {r : RegDef} (hfit : ∀ f ∈ r.fields, f.lo + f.w ≤ 64)
    (hapart : r.fields.Pairwise fun f h => f.lo + f.w ≤ h.lo ∨ h.lo + h.w ≤ f.lo) {f : FieldDef} (hf : f ∈ r.fields)
    (hreset : f.reset < 2 ^ f.w) (old v mask : Word) : fieldOf (regAfter r old v mask) f.lo f.w = fieldAfter f old v mask :=
  (fieldOf_foldl_withField (fun f => fieldAfter f old v mask) hfit hapart hf old).trans (Nat.mod_eq_of_lt (fieldAfter_lt hreset ..))

/-! ### The field maps -/

/-- Each field of a list ends before the next begins, from bit `lo` to bit `hi` (exclusive). -/
def fieldsRise (hi : Nat) : Nat → List FieldDef → Bool
  | _, [] => true
  | lo, f :: fs => Nat.ble lo f.lo && Nat.ble 1 f.w && Nat.ble (f.lo + f.w) hi && Nat.blt f.reset (2 ^ f.w) && fieldsRise hi (f.lo + f.w) fs

theorem of_fieldsRise {hi lo : Nat} {fs : List FieldDef} (h : fieldsRise hi lo fs = true) :
    (∀ g ∈ fs, lo ≤ g.lo ∧ 0 < g.w ∧ g.lo + g.w ≤ hi ∧ g.reset < 2 ^ g.w) ∧
      fs.Pairwise (fun g h => g.lo + g.w ≤ h.lo ∨ h.lo + h.w ≤ g.lo) := by
  induction fs generalizing lo with
  | nil => simp
  | cons f fs ih =>
    simp only [fieldsRise, Bool.and_eq_true, Nat.ble_eq, Nat.blt_eq] at h
    obtain ⟨⟨⟨⟨hlo, hw⟩, hhi⟩, hreset⟩, hrest⟩ := h
    obtain ⟨hfields, hpairs⟩ := ih hrest
    refine ⟨List.forall_mem_cons.2 ⟨⟨hlo, hw, hhi, hreset⟩, fun g hg => ?_⟩, List.pairwise_cons.2 ⟨fun g hg => .inl (hfields g hg).1, hpairs⟩⟩
    obtain ⟨hglo, hg⟩ := hfields g hg
    exact ⟨by omega, hg⟩

/-- The registers of a block list their fields by rising bits. -/
def mapsRise (l : List RegDef) : Bool := l.all fun r => fieldsRise (if r.wide then 64 else 32) 0 r.fields

theorem mapsRise_ite {p : Prop} [Decidable p] {a b : List RegDef} (ha : mapsRise a = true) (hb : mapsRise b = true) :
    mapsRise (if p then a else b) = true := by
  split <;> assumption

theorem mapsRise_blockRegs (o : Nat) : mapsRise (blockRegs o) = true := by
  unfold blockRegs
  repeat' apply mapsRise_ite
  all_goals decide +kernel

/-- Settles O7: each field is written apart from the others, and the field maps were checked block by block. -/
theorem fieldWrites : Obligations.FieldWrites := by
  unfold Obligations.FieldWrites
  refine ⟨?write, ?maps⟩
  case write =>
    intro r f old v mask hf hw hreset hfit hapart x y x'
    have hx' : x' = fieldAfter f old v mask := fieldOf_regAfter hfit hapart hf hreset old v mask
    refine ⟨fun h => hx'.trans (fieldAfter_uncovered h old v), fun h => ?_⟩
    rw [hx']
    exact fieldAfter_covered hw h old v
  case maps =>
    intro o r h
    obtain ⟨hfields, hpairs⟩ := of_fieldsRise (List.all_eq_true.1 (mapsRise_blockRegs _) r (List.mem_of_find?_eq_some h))
    exact ⟨fun g hg => (hfields g hg).2, hpairs⟩

end Sys2Proof.Machine
end

section
/-! Proofs about the raw-word instructions, loads and input ports of the Tolek engines (R307, R309, R311), DIV, SQRT, LIM and rounding (R307, R315,
R317), and the statements O19 and O21. -/

namespace Sys2Proof.Machine

/-! ### O19: words, loads and ports -/

theorem tookWord_setVal (t : TolekRec) (d : Nat) (x : Q) : TookWord t (t.setVal d x) d x :=
  ⟨t.val_setVal d x, fun _ h => t.val_setVal_other x h, rfl⟩

section Run

variable {i : Instr} {st : State} {e : Nat} {w : Q} {cost : Nat} (meaning : State → Out) (hexec : exec i st = meaning st)

include hexec

/-- An instruction that leaves the engine as `x'` says, and neither moves the program counter nor ends a loop. -/
theorem completes_tSeq {f : Chip → Chip} (hmeaning : meaning st = st.on fun c => c.tSeq e w cost f) {x' : TolekRec} (hat : TolekAt st.chip e w)
    (hf : f (st.chip.tCharged e cost) = (st.chip.tCharged e cost).setTolek e (x'.charged cost))
    (hunits : x'.units = (st.chip.tolek e).units) (hpc : x'.pc = (st.chip.tolek e).pc) (hloops : x'.loops = (st.chip.tolek e).loops) :
    Completes i st fun c => TolekGoes st.chip c e cost x' := by
  refine completes_on (hexec.trans hmeaning) ?_
  have hx' : ((st.chip.tCharged e cost).setTolek e (x'.charged cost)).tolek e = x'.charged cost := tolek_setTolek ..
  rw [tSeq_at hat hf (by rw [hx']; exact hpc) (by rw [hx']; exact hloops), hx']
  refine ⟨by simp [TolekRec.charged, hunits], fun j hj => ?_, rfl⟩
  simp [tolek_setTolek_other, hj]

/-- Its result is the word `y`, of the engine alone. -/
theorem completes_setVal {f : TolekRec → TolekRec} (hmeaning : meaning st = st.tStep e w cost f) {d : Nat} {y : Q}
    (hf : f ((st.chip.tolek e).charged cost) = ((st.chip.tolek e).charged cost).setVal d y) (hat : TolekAt st.chip e w) :
    Completes i st fun c => ∃ x', TolekGoes st.chip c e cost x' ∧ TookWord (st.chip.tolek e) x' d y :=
  (completes_tStep (x' := (st.chip.tolek e).setVal d y) meaning hexec hmeaning hat hf rfl rfl).imp
    fun _ hgoes => ⟨_, hgoes, tookWord_setVal ..⟩

/-- Its result is the word `y`, of the engine and of what stands outside it. -/
theorem completes_load {g : Chip → Q} {d : Nat} (hmeaning : meaning st = st.on fun c => c.tSeq e w cost fun c => c.setTolek e ((c.tolek e).setVal d (g c)))
    {y : Q} (hg : g (st.chip.tCharged e cost) = y) (hat : TolekAt st.chip e w) :
    Completes i st fun c => ∃ x', TolekGoes st.chip c e cost x' ∧ TookWord (st.chip.tolek e) x' d y := by
  refine (completes_tSeq (x' := (st.chip.tolek e).setVal d y) meaning hexec hmeaning hat ?_ rfl rfl rfl).imp
    fun _ hgoes => ⟨_, hgoes, tookWord_setVal ..⟩
  rw [hg, tolek_setTolek]
  rfl

end Run

theorem tData_tCharged (c : Chip) (e cost addr : Nat) : (c.tCharged e cost).tData e addr = c.tData e addr := by
  simp [Chip.tData, TolekRec.charged]

theorem tInput_tCharged (c : Chip) (e cost port : Nat) : (c.tCharged e cost).tInput e port = c.tInput e port := by
  simp [Chip.tInput, Chip.tStatus, Chip.pair, TolekRec.charged]

theorem index_charged (t : TolekRec) (cost v : Nat) (addr : BitVec 11) :
    (t.charged cost).index v addr = (addr + (t.val v).setWidth 11).toNat := by
  simp [TolekRec.index, TolekRec.charged, TolekRec.val, BitVec.toNat_add]

theorem lih_word (imm : BitVec 16) : imm.zeroExtend 32 <<< 16 = imm ++ 0#16 := by
  ext i hi
  simp only [← BitVec.getLsbD_eq_getElem, BitVec.getLsbD_shiftLeft, BitVec.getLsbD_append, BitVec.truncate_eq_setWidth, BitVec.getLsbD_setWidth]
  by_cases h : i < 16
  · simp [h]
  · have h32 : i - 16 < 32 := by omega
    simp [h, hi, h32]

theorem lil_word (x : Q) (imm : BitVec 16) : (x &&& 0xFFFF0000#32) ||| imm.zeroExtend 32 = x.extractLsb' 16 16 ++ imm := by
  have hmask : ∀ i < 32, (0xFFFF0000#32).getLsbD i = decide (16 ≤ i) := by decide
  ext i hi
  simp only [← BitVec.getLsbD_eq_getElem, BitVec.getLsbD_or, BitVec.getLsbD_and, hmask i hi, BitVec.getLsbD_append, BitVec.getLsbD_extractLsb',
    BitVec.truncate_eq_setWidth, BitVec.getLsbD_setWidth]
  by_cases h : i < 16
  · simp [h, hi]
  · have h16 : i - 16 < 16 := by omega
    have hadd : 16 + (i - 16) = i := by omega
    simp [h, hi, h16, hadd, Nat.not_lt.1 h]

/-- Settles O19: each result goes into one value register, and the run goes on. -/
theorem tolekWords : Obligations.TolekWords := by
  unfold Obligations.TolekWords
  intro st e d s t v k n imm addr port x r hr
  refine ⟨?results, fun hat hdelivered => ?delivered, fun hport hdelivered => ?waits⟩
  case results =>
    revert r
    simp only [List.forall_mem_cons, List.not_mem_nil, false_imp_iff, implies_true, and_true]
    exact ⟨completes_setVal (execTMov e d s) rfl rfl rfl,
      completes_setVal (execTLih e d imm) rfl rfl (congrArg _ (lih_word imm)),
      completes_setVal (execTLil e d imm) rfl rfl (congrArg _ (lil_word _ imm)),
      completes_setVal (execTLdk e d k) rfl rfl rfl,
      completes_load (execTLd e d addr) rfl rfl (tData_tCharged ..),
      completes_load (execTLdx e d v addr) rfl rfl (by rw [tolek_setTolek, index_charged, tData_tCharged]),
      completes_setVal (execTAnd e d s t) rfl rfl rfl,
      completes_setVal (execTOr e d s t) rfl rfl rfl,
      completes_setVal (execTXor e d s t) rfl rfl rfl,
      completes_setVal (execTSrl e d s n) rfl rfl rfl,
      completes_setVal (execTSll e d s n) rfl rfl rfl,
      completes_setVal (execTAddw e d s t) rfl rfl rfl⟩
  case delivered =>
    have hin : execTIn e d port st = st.on fun c => c.tSeq e (tWord 0x09 (fmtPT d port.toNat)) 1 fun c =>
        c.setTolek e ((c.tolek e).setVal d (c.tInput e port.toNat)) := by
      have hready : (decide (25 ≤ port.toNat) || (st.chip.pair (pairOf e)).delivered) = true := by simpa using hdelivered
      simp [execTIn, State.on, Chip.when, hready]
    exact completes_load (execTIn e d port) rfl hin (tInput_tCharged ..) hat
  case waits =>
    have hwaits : (decide (25 ≤ port.toNat) || (st.chip.pair (pairOf e)).delivered) = false := by simp [hport, hdelivered]
    exact completes_on (show _ = execTIn e d port st from rfl) (if_neg (by simp [hwaits]))

/-! ### O21: rounding to nearest, quotient and root (R307) -/

/-- The nearest number of halves: `m` is `a / b` to the nearest, a tie up. -/
theorem nat_nearest {a b : Nat} (hb : 0 < b) :
    let m := (2 * a + b) / (2 * b)
    2 * |(a : Int) - m * b| ≤ b ∧ (2 * |(a : Int) - m * b| = b → a < m * b) := by
  intro m
  have hlow : m * (2 * b) ≤ 2 * a + b := Nat.div_mul_le_self ..
  have hhigh : 2 * a + b < (m + 1) * (2 * b) := Nat.lt_mul_of_div_lt (Nat.lt_succ_self _) (by omega)
  have hprod : (m + 1) * (2 * b) = 2 * (m * b) + 2 * b := by ring
  have hprod' : m * (2 * b) = 2 * (m * b) := by ring
  rw [hprod] at hhigh
  rw [hprod'] at hlow
  rw [← Nat.cast_mul, Int.abs_eq_natAbs]
  generalize m * b = q at *
  omega

/-- The product of a rounded quotient and its divisor has the sign of the dividend. -/
theorem rndDiv_mul (n : Int) {d : Int} (hd : d ≠ 0) : rndDiv n d * d =
    (if n < 0 then -1 else 1) * (((2 * n.natAbs + d.natAbs) / (2 * d.natAbs) : Nat) * (d.natAbs : Int)) := by
  unfold rndDiv
  generalize (2 * n.natAbs + d.natAbs) / (2 * d.natAbs) = m
  rcases lt_or_gt_of_ne hd with h | h
  · rw [Int.ofNat_natAbs_of_nonpos h.le]
    by_cases hn : n < 0 <;> simp [h, hn]
  · rw [Int.natAbs_of_nonneg h.le]
    by_cases hn : n < 0 <;> simp [Int.not_lt.2 h.le, hn]

/-- A quotient to the nearest value, ties away from zero (R307). -/
theorem rndDiv_nearest (n : Int) {d : Int} (hd : d ≠ 0) :
    2 * |n - rndDiv n d * d| ≤ |d| ∧ (2 * |n - rndDiv n d * d| = |d| → |n| < |rndDiv n d * d|) := by
  have hnear := nat_nearest (a := n.natAbs) (Int.natAbs_pos.2 hd)
  rw [rndDiv_mul n hd]
  dsimp only at hnear
  simp only [← Nat.cast_mul, Int.abs_eq_natAbs] at hnear ⊢
  generalize (2 * n.natAbs + d.natAbs) / (2 * d.natAbs) * d.natAbs = q at *
  split <;> omega

/-- Dropping `k` fraction bits is division by 2^k to the nearest. -/
theorem rndShift_eq_rndDiv (x : Int) {k : Nat} (hk : 0 < k) : rndShift x k = rndDiv x (2 ^ k) := by
  have hpos : ¬(2 : Int) ^ k < 0 := not_lt.2 (by positivity)
  have habs : ((2 : Int) ^ k).natAbs = 2 ^ k := by rw [Int.natAbs_pow]; rfl
  have hhalf : 2 ^ k = 2 * 2 ^ (k - 1) := by rw [← pow_succ']; congr 1; omega
  have hquot : (2 * x.natAbs + 2 ^ k) / (2 * 2 ^ k) = (x.natAbs + 2 ^ (k - 1)) / 2 ^ k := by
    conv_lhs => rw [show 2 * x.natAbs + 2 ^ k = 2 * (x.natAbs + 2 ^ (k - 1)) by omega]
    exact Nat.mul_div_mul_left _ _ (by decide)
  simp only [rndShift, Nat.pos_iff_ne_zero.1 hk, if_false, rndDiv, habs, hquot, hpos, eq_iff_iff, iff_false]
  by_cases hx : x < 0 <;> simp [hx]

/-- The root found bit by bit: the largest whose square is not above the number. -/
theorem isqrtGo_spec (x k r : Nat) (hlow : r * r ≤ x) (hhigh : x < (r + 2 ^ k) * (r + 2 ^ k)) :
    isqrtGo x k r * isqrtGo x k r ≤ x ∧ x < (isqrtGo x k r + 1) * (isqrtGo x k r + 1) := by
  induction k generalizing r with
  | zero => exact ⟨hlow, hhigh⟩
  | succ k ih =>
    rw [isqrtGo]
    split
    next hset =>
      refine ih _ hset ?_
      rwa [Nat.add_assoc, ← Nat.two_mul, ← pow_succ']
    next hclear => exact ih _ hlow (Nat.not_le.1 hclear)

/-- A root to the nearest value (R307). -/
theorem isqrtNear_nearest {x : Nat} (h : x < 2 ^ 64) :
    isqrtNear x * isqrtNear x < x + isqrtNear x + (if isqrtNear x = 0 then 1 else 0) ∧ x ≤ isqrtNear x * isqrtNear x + isqrtNear x := by
  obtain ⟨hlow, hhigh⟩ := isqrtGo_spec x 32 0 (Nat.zero_le x) (by simpa using h)
  have hsquare : ∀ r, (r + 1) * (r + 1) = r * r + 2 * r + 1 := fun r => by ring
  rw [hsquare] at hhigh
  rcases Nat.lt_or_ge (isqrtGo x 32 0) (x - isqrtGo x 32 0 * isqrtGo x 32 0) with hup | hdown
  · have hroot : isqrtNear x = isqrtGo x 32 0 + 1 := if_pos hup
    rw [hroot, hsquare, if_neg (by omega)]
    omega
  · have hroot : isqrtNear x = isqrtGo x 32 0 := if_neg (Nat.not_lt.2 hdown)
    rw [hroot]
    split <;> omega

/-- Settles O21: DIV and SQRT take rounded values, LIM a limited one with its hold flag, and rounding is division by a power of 2. -/
theorem tolekDivSqrtLim : Obligations.TolekDivSqrtLim := by
  unfold Obligations.TolekDivSqrtLim
  refine ⟨fun st e d s t k a => ?_, fun x k hk => ?round⟩
  case round =>
    have := rndDiv_nearest x (d := 2 ^ k) (by positivity)
    rwa [← rndShift_eq_rndDiv x hk, abs_of_pos (by positivity : (0 : Int) < 2 ^ k)] at this
  intro x
  refine ⟨fun ht hat => ?div, fun hs hat => ?sqrt, fun hat => ?lim⟩
  case div =>
    refine (completes_tSeq (x' := x.setInt d (divResult (x.int s) (x.int t))) (execTDiv e d s t) rfl rfl hat ?_ rfl rfl rfl).imp
      fun c hgoes => ⟨_, rndDiv (x.int s * 2 ^ 28) (x.int t), hgoes, ?_, ?_⟩
    · simp [show (st.chip.tolek e).int t ≠ 0 from ht, x]
      rfl
    · rw [divResult, if_neg ht]
      exact tookInt_setInt ..
    · exact rndDiv_nearest _ ht
  case sqrt =>
    obtain ⟨n, hn⟩ := Int.eq_ofNat_of_zero_le hs
    have hlt : n * 2 ^ 28 < 2 ^ 64 := by
      have : x.int s < 2 ^ 31 := BitVec.toInt_lt
      omega
    obtain ⟨hlow, hhigh⟩ := isqrtNear_nearest hlt
    refine (completes_tSeq (x' := x.setInt d (isqrtNear (n * 2 ^ 28))) (execTSqrt e d s) rfl rfl hat ?_ rfl rfl rfl).imp
      fun c hgoes => ⟨_, _, hgoes, tookInt_setInt .., Int.natCast_nonneg _, ?_, ?_⟩
    · have hroot : (st.chip.tolek e).int s = n := hn
      simp [hroot]
      rfl
    · rw [hn, mul_sub_one, sub_lt_iff_lt_add]
      simp only [Nat.cast_eq_zero]
      by_cases hzero : isqrtNear (n * 2 ^ 28) = 0
      · rw [if_pos hzero] at hlow ⊢
        omega
      · rw [if_neg hzero] at hlow ⊢
        omega
    · rw [hn, mul_add_one]
      omega
  case lim =>
    have hlimit : (BitVec.ofInt 32 (limit (-(x.coefInt k).natAbs) (x.coefInt k).natAbs (x.int s))).toInt =
        max (-|x.coefInt k|) (min |x.coefInt k| (x.int s)) := by
      have hlow : -2 ^ 31 ≤ x.int s := BitVec.le_toInt ..
      have hhigh : x.int s < 2 ^ 31 := BitVec.toInt_lt
      rw [limit_symm_eq]
      have hnonneg := abs_nonneg (x.coefInt k)
      exact BitVec.toInt_ofInt_eq_self (by decide) (by omega) (by omega)
    refine (completes_tStep (x' := (x.setVal d (BitVec.ofInt 32 (limit (-(x.coefInt k).natAbs) (x.coefInt k).natAbs (x.int s)))).setHold a
      (holdOf (x.int s) (x.coefInt k))) (execTLim e d s k a) rfl rfl hat rfl rfl rfl).imp
      fun c hgoes => ⟨_, hgoes, ?_, ?_, fun r hr => x.val_setVal_other _ hr, fun b hb => Cells.get_put_other _ _ _ _ _ hb, rfl⟩
    · exact (congrArg BitVec.toInt (x.val_setVal d _)).trans hlimit
    · rw [Int.abs_eq_natAbs]
      exact Cells.get_put_same ..

end Sys2Proof.Machine
end

section
/-! Proofs about stores, loops, calls, branches and internal faults of the Tolek engines (R296, R303, R318, R319), the refutation of O22 and the
statements O23 and O24. -/

namespace Sys2Proof.Machine

/-! ### O22: data words beyond the parameter words -/

/-- Engine 0 about to store to its first parameter word. -/
def paramStoreSt : State :=
  { chip := ({} : Chip).setTolek 0 { running := true, prog := [(0, tWord 0x06 (fmtMM 0 0 1792))] } }

theorem tolekAt_paramStoreSt : TolekAt paramStoreSt.chip 0 (tWord 0x06 (fmtMM 0 0 1792)) := by
  unfold TolekAt
  decide

/-- The word numbered 15,873, far beyond a data space of 2,048 words, is the key of engine 0's LE_ENG_EVENT. -/
theorem tData_eq_engEvent (c : Chip) : c.tData 0 15873 = BitVec.ofNat 32 (c.fld ⟨LE_ENG_EVENT 0, 0, 32⟩) := rfl

/-- Refutes O22: "every other data word" reaches numbers beyond the data space, where the store's own event bit is read: a store to parameter
word 0 sets bit 3 of "word" 15,873. -/
theorem not_tolekStores : ¬ Obligations.TolekStores := by
  unfold Obligations.TolekStores
  intro h
  obtain ⟨-, -, hstore⟩ := h paramStoreSt 0 0 0 1792 0
  obtain ⟨t, -, -, -, -, -, hevent, hothers, -⟩ := hstore _ _ 1792 (.inl ⟨rfl, rfl, rfl⟩) tolekAt_paramStoreSt
  obtain ⟨hflag, -⟩ := hevent (by decide)
  have hword : t.chip.tData 0 15873 = 0 := (hothers 15873 (by decide)).trans (by decide +kernel)
  have hzero : t.chip.fld ⟨LE_ENG_EVENT 0, 0, 32⟩ = 0 := by
    have hlt := fld_lt t.chip ⟨LE_ENG_EVENT 0, 0, 32⟩
    have := congrArg BitVec.toNat (tData_eq_engEvent t.chip ▸ hword)
    rwa [BitVec.toNat_ofNat, Nat.mod_eq_of_lt hlt] at this
  have hbit : (t.chip.reg (LE_ENG_EVENT 0)).getLsbD 3 = false := by
    have := congrArg (·.testBit 3) hzero
    simpa [Chip.fld, fieldOf_testBit] using this
  have hfld : t.chip.fld (LE_ENG_EVENT_PARAM_STORE 0) = 0 := by
    apply Nat.eq_of_testBit_eq
    intro i
    rw [Chip.fld, fieldOf_testBit]
    by_cases hi : i < 1
    · obtain rfl : i = 0 := by omega
      simpa [LE_ENG_EVENT_PARAM_STORE] using hbit
    · simp [LE_ENG_EVENT_PARAM_STORE, hi]
  simp [Chip.flag, hfld] at hflag

/-! ### O23: where the run goes on (R318, R319) -/

/-- What an instruction leaves that changes engine `e` alone: no other engine and nothing outside the engines. -/
def OnlyEngine (e : Nat) (c c' : Chip) : Prop :=
  (∀ j, j ≠ e → c'.tolek j = c.tolek j) ∧ c' = { c with servo := { c.servo with engines := c'.servo.engines } }

theorem tRun_here {c : Chip} {e : Nat} {w : Q} (hrun : (c.tolek e).running = true) (hended : (c.tolek e).ended = false)
    (hword : tPlain ((c.tolek e).word (c.tolek e).pc) = w) (cost : Nat) (f : Chip → Chip) : c.tRun e w cost f = f (c.tCharged e cost) :=
  if_pos (by simp [hrun, hended, hword])

theorem tCheckEnd_inside {c : Chip} {e : Nat} (h : (c.tolek e).pc < 4096) : c.tCheckEnd e = c := if_pos h

theorem OnlyEngine.setTolek {c c' : Chip} {e : Nat} (h : OnlyEngine e c c') (t : TolekRec) : OnlyEngine e c (c'.setTolek e t) := by
  obtain ⟨hothers, hrest⟩ := h
  exact ⟨fun j hj => by rw [tolek_setTolek_other _ _ _ _ hj, hothers j hj], by rw [hrest]; rfl⟩

theorem onlyEngine_charged (c : Chip) (e cost : Nat) : OnlyEngine e c (c.tCharged e cost) :=
  OnlyEngine.setTolek ⟨fun _ _ => rfl, rfl⟩ _

/-- An instruction that runs here and leaves its engine as `t`, inside program memory. -/
theorem completes_engine {i : Instr} {st : State} {e : Nat} {w : Q} {cost : Nat} {f : Chip → Chip} (meaning : State → Out)
    (hexec : exec i st = meaning st) (hmeaning : meaning st = st.on fun c => c.tRun e w cost f)
    (hrun : (st.chip.tolek e).running = true) (hended : (st.chip.tolek e).ended = false)
    (hword : tPlain ((st.chip.tolek e).word (st.chip.tolek e).pc) = w) {t : TolekRec} {c₁ : Chip} (hc : OnlyEngine e st.chip c₁)
    (hf : f (st.chip.tCharged e cost) = c₁.setTolek e t) : Completes i st fun c => c.tolek e = t ∧ OnlyEngine e st.chip c := by
  refine completes_on (hexec.trans hmeaning) ?_
  rw [tRun_here hrun hended hword, hf]
  exact ⟨tolek_setTolek .., hc.setTolek t⟩

theorem setTolek_tCheckEnd {c : Chip} {e : Nat} {t : TolekRec} (h : t.pc < 4096) : (c.setTolek e t).tCheckEnd e = c.setTolek e t :=
  tCheckEnd_inside (by rwa [tolek_setTolek])

/-- Where a loop with iterations left ends, the run goes back to its first instruction, at a cost of 1 unit (R318, Table 7.7). -/
theorem arrive_loop_end {t : TolekRec} {fr : LoopFrame} {rest : List LoopFrame} {a : Nat} (hloops : t.loops = fr :: rest) (hlast : fr.last + 1 = a)
    (hdepth : fr.depth = t.calls.length) (hleft : 0 < fr.left) :
    t.arrive a = { t with loops := { fr with left := fr.left - 1 } :: rest, pc := fr.first, units := t.units + 1 } := by
  simp [TolekRec.arrive, TolekRec.arriveGo, hloops, hlast, hdepth, hleft]

/-- Where no loop ends at the address before, the run goes on there. -/
theorem arrive_elsewhere {t : TolekRec} {a : Nat} (h : ∀ fr ∈ t.loops.head?, fr.last + 1 ≠ a) : t.arrive a = { t with pc := a } := by
  unfold TolekRec.arrive TolekRec.arriveGo
  cases hl : t.loops with
  | nil => rfl
  | cons fr rest =>
    have hfr : fr.last + 1 ≠ a := h fr (by simp [hl])
    simp [hfr]

section Branch

variable {i : Instr} {st : State} {e : Nat} {w : Q} (meaning : State → Out) (hexec : exec i st = meaning st)

include hexec

theorem completes_branch {target : BitVec 12} {b : TolekRec → Bool} (hmeaning : meaning st = st.tBranch e w target.toNat b) {taken : Bool}
    (hb : b ((st.chip.tolek e).charged 2) = taken) (hat : TolekAt st.chip e w) : Completes i st fun c =>
      c.tolek e = { st.chip.tolek e with pc := if taken then target.toNat else (st.chip.tolek e).pc + 1, units := (st.chip.tolek e).units + 2 } ∧
      OnlyEngine e st.chip c := by
  obtain ⟨hrun, hended, hword, hnext, hlast⟩ := hat
  refine completes_engine meaning hexec hmeaning hrun hended hword (onlyEngine_charged _ e 2) ?_
  have hseq : ((st.chip.tolek e).charged 2).arrive ((st.chip.tolek e).pc + 1) = _ := TolekRec.arrive_next ((st.chip.tolek e).charged 2) hlast
  subst hb
  simp only [tolek_setTolek]
  cases b ((st.chip.tolek e).charged 2) with
  | true =>
    simp only [if_true]
    rw [setTolek_tCheckEnd (t := { (st.chip.tolek e).charged 2 with pc := target.toNat }) target.isLt]
    rfl
  | false =>
    simp only [if_false, Bool.false_eq_true]
    rw [show ((st.chip.tolek e).charged 2).pc = (st.chip.tolek e).pc from rfl, hseq, setTolek_tCheckEnd hnext]
    rfl

end Branch

/-- Settles O23: each flow instruction leaves its engine at the next place of the run, and nothing else changes. -/
theorem tolekFlow : Obligations.TolekFlow := by
  unfold Obligations.TolekFlow
  refine ⟨fun st e count last target => ?flow, fun st e s t bit target => ?branches⟩
  case flow =>
    intro x only
    refine ⟨fun hat hdepth hcount => ?loop, fun hrun hended hword fr rest hloops hlast hdepth hleft hfirst => ?loopEnd, fun hat hcalls => ?call,
      fun hat r rest kept hcalls hkept hr hhead => ?ret, fun hat => ?finish⟩
    case loop =>
      obtain ⟨hrun, hended, hword, hnext, -⟩ := hat
      refine completes_engine (execTLoop e count last) rfl rfl hrun hended hword (onlyEngine_charged _ e 1) ?_
      have hok : (st.chip.tolek e).loops.length < 2 ∧ count ≠ 0 := ⟨hdepth, hcount⟩
      simp only [tolek_setTolek, TolekRec.charged]
      refine (if_pos hok).trans (setTolek_tCheckEnd (t := { x with
        loops := ⟨x.pc + 1, last.toNat, count.toNat - 1, x.calls.length⟩ :: x.loops, pc := x.pc + 1, units := x.units + 1 }) hnext)
    case loopEnd =>
      have hplain : tPlain (x.word x.pc) = tWord 0x00 0 := by rw [hword]; rfl
      refine completes_engine (execTNop e) rfl rfl hrun hended hplain ((onlyEngine_charged _ e 1).setTolek (x.charged 1)) ?_
      have harrive := arrive_loop_end (t := x.charged 1) (a := x.pc + 1) hloops (by rw [hlast]) hdepth hleft
      simp only [tolek_setTolek]
      refine (congrArg (fun t => ((st.chip.tCharged e 1).setTolek e (x.charged 1) |>.setTolek e t).tCheckEnd e) harrive).trans ?_
      exact setTolek_tCheckEnd (t := { x with loops := { fr with left := fr.left - 1 } :: rest, pc := fr.first, units := x.units + 2 }) hfirst
    case call =>
      obtain ⟨hrun, hended, hword, -, -⟩ := hat
      refine completes_engine (execTCall e target) rfl rfl hrun hended hword (onlyEngine_charged _ e 2) ?_
      have hok : (st.chip.tolek e).calls.length < 4 := hcalls
      simp only [tolek_setTolek, TolekRec.charged, hok, if_true]
      rfl
    case ret =>
      obtain ⟨hrun, hended, hword, -, -⟩ := hat
      refine completes_engine (execTRet e) rfl rfl hrun hended hword (onlyEngine_charged _ e 2) ?_
      have hcalls : (st.chip.tolek e).calls = r :: rest := hcalls
      subst hkept
      simp only [tolek_setTolek, TolekRec.charged, hcalls]
      rw [arrive_elsewhere hhead, setTolek_tCheckEnd hr]
    case finish =>
      obtain ⟨hrun, hended, hword, -, -⟩ := hat
      refine (completes_engine (execTEnd e) rfl rfl hrun hended hword (onlyEngine_charged _ e 1) (t := { x.charged 1 with
        running := false, ended := true, calls := [], loops := [], sign := x.signature }) ?_).imp fun c ⟨htolek, honly⟩ => ?_
      · simp only [tolek_setTolek]
        rfl
      · rw [htolek]
        exact ⟨rfl, rfl, rfl, rfl, rfl, rfl, honly⟩
  case branches =>
    intro x
    simp only [List.forall_mem_cons, List.not_mem_nil, false_imp_iff, implies_true, and_true]
    exact ⟨completes_branch (execTBr e target) rfl rfl rfl,
      completes_branch (execTBeq e s t target) rfl rfl rfl,
      completes_branch (execTBne e s t target) rfl rfl rfl,
      completes_branch (execTBlt e s t target) rfl rfl rfl,
      completes_branch (execTBge e s t target) rfl rfl rfl,
      completes_branch (execTBbs e s bit target) rfl rfl rfl,
      completes_branch (execTBbc e s bit target) rfl rfl rfl⟩

/-! ### O24: internal faults (R296, R318, R319) -/

/-- What an internal fault of engine `e` leaves: the engine stopped and in FAULT, its context and everything else kept. -/
def Faulted (e : Nat) (c c' : Chip) : Prop :=
  (c'.tolek e).running = false ∧ (c'.tolek e).role = 4 ∧ (c'.tolek e).fault = true ∧ c'.flag (LE_ENG_EVENT_INTERNAL_FAULT e) = true ∧
  (c'.tolek e).ctx = (c.tolek e).ctx ∧ (∀ j, j ≠ e → c'.tolek j = c.tolek j) ∧ c.fieldsKept [LE_ENG_EVENT_INTERNAL_FAULT e] c' ∧
  c' = { c with regs := c'.regs, servo := c'.servo }

theorem faulted_engineFault {c c' : Chip} {e : Nat} (h : OnlyEngine e c c') (hctx : (c'.tolek e).ctx = (c.tolek e).ctx) :
    Faulted e c (c'.engineFault e) := by
  obtain ⟨hothers, hrest⟩ := h.setTolek { c'.tolek e with running := false, role := 4, fault := true }
  have hself : (c'.engineFault e).tolek e = { c'.tolek e with running := false, role := 4, fault := true } := tolek_setTolek ..
  have hregs : (c'.setTolek e { c'.tolek e with running := false, role := 4, fault := true }).regs = c.regs := by rw [hrest]
  refine ⟨by rw [hself], by rw [hself], by rw [hself], flag_mark_same _ _ (by simp [LE_ENG_EVENT_INTERNAL_FAULT]) (by simp [LE_ENG_EVENT_INTERNAL_FAULT]), by rw [hself, hctx], hothers, ?_, ?_⟩
  · exact fieldsKept_mark _ (List.mem_singleton_self _) (fieldsKept_of_regs hregs)
  · unfold Chip.engineFault Chip.mark
    simp only
    rw [hrest]
    rfl

theorem completes_fault {i : Instr} {st : State} {e : Nat} {w : Q} {cost : Nat} {f : Chip → Chip} (meaning : State → Out)
    (hexec : exec i st = meaning st) (hmeaning : meaning st = st.on fun c => c.tRun e w cost f)
    (hrun : (st.chip.tolek e).running = true) (hended : (st.chip.tolek e).ended = false)
    (hword : tPlain ((st.chip.tolek e).word (st.chip.tolek e).pc) = w) {c₁ : Chip} (hc : OnlyEngine e st.chip c₁)
    (hctx : (c₁.tolek e).ctx = (st.chip.tolek e).ctx) (hf : f (st.chip.tCharged e cost) = c₁.engineFault e) :
    Completes i st (Faulted e st.chip) := by
  refine completes_on (hexec.trans hmeaning) ?_
  rw [tRun_here hrun hended hword, hf]
  exact faulted_engineFault hc hctx

theorem ctx_charged (c : Chip) (e cost : Nat) : ((c.tCharged e cost).tolek e).ctx = (c.tolek e).ctx := by
  simp [Chip.tCharged, TolekRec.charged]

/-- Settles O24: each of the causes ends in the engine's internal fault. -/
theorem tolekFaults : Obligations.TolekFaults := by
  unfold Obligations.TolekFaults
  intro st e count last target i x hcause
  change Completes i st (Faulted e st.chip)
  have hcharged := fun cost => onlyEngine_charged st.chip e cost
  have hctx := fun cost => ctx_charged st.chip e cost
  obtain rfl | ⟨rfl, hat, hloops⟩ | ⟨rfl, hat, hcalls⟩ | ⟨rfl, hat, hcalls⟩ | ⟨rfl, hrun, hended, hpc, hword, hloops⟩ := hcause
  · exact completes_on (f := fun c => c.engineFault e) rfl (faulted_engineFault ⟨fun _ _ => rfl, rfl⟩ rfl)
  · obtain ⟨hrun, hended, hword, -, -⟩ := hat
    refine completes_fault (execTLoop e count last) rfl rfl hrun hended hword (hcharged 1) (hctx 1) ?_
    have hthird : ¬ (x.loops.length < 2 ∧ count ≠ 0) := by omega
    simp only [tolek_setTolek]
    exact if_neg hthird
  · obtain ⟨hrun, hended, hword, -, -⟩ := hat
    refine completes_fault (execTCall e target) rfl rfl hrun hended hword (hcharged 2) (hctx 2) ?_
    have hfifth : ¬ x.calls.length < 4 := by omega
    simp only [tolek_setTolek]
    exact if_neg hfifth
  · obtain ⟨hrun, hended, hword, -, -⟩ := hat
    refine completes_fault (execTRet e) rfl rfl hrun hended hword (hcharged 2) (hctx 2) ?_
    have hcalls : ((st.chip.tolek e).charged 2).calls = [] := hcalls
    simp only [tolek_setTolek, hcalls]
  · have hplain : tPlain (x.word x.pc) = tWord 0x00 0 := by rw [hpc, hword]; rfl
    have hpast : (x.charged 1).arrive (x.pc + 1) = { x.charged 1 with pc := x.pc + 1 } :=
      arrive_elsewhere (by simp [TolekRec.charged, hloops])
    refine completes_fault (execTNop e) rfl rfl hrun hended hplain
      (((hcharged 1).setTolek (x.charged 1)).setTolek { x.charged 1 with pc := x.pc + 1 }) (by simp [TolekRec.charged, x]) ?_
    simp only [tolek_setTolek]
    refine (congrArg (fun t => ((st.chip.tCharged e 1).setTolek e (x.charged 1) |>.setTolek e t).tCheckEnd e) hpast).trans ?_
    exact if_neg (by simp [hpc])

end Sys2Proof.Machine
end

section
/-! Proofs about engine pairs: commands, parameter writes, state copies, tests, swaps: O26 and O28. -/

namespace Sys2Proof.Machine

/-! ### The journal and the device log -/

@[simp] theorem journal_regs (c : Chip) (a u) : (c.journal a u).regs = c.regs := by
  unfold Chip.journal; simp only; split <;> simp

@[simp] theorem journal_servo (c : Chip) (a u) : (c.journal a u).servo = c.servo := by
  unfold Chip.journal; simp only; split <;> simp

@[simp] theorem journal_core (c : Chip) (a u) : (c.journal a u).core = c.core := by
  unfold Chip.journal; simp only; split <;> simp

@[simp] theorem journal_buf (c : Chip) (a u) : (c.journal a u).buf = c.buf := by
  unfold Chip.journal; simp only; split <;> simp

@[simp] theorem journal_sup_boot (c : Chip) (a u) : (c.journal a u).sup.boot = c.sup.boot := by
  unfold Chip.journal; simp only; split <;> simp

@[simp] theorem log_regs (c : Chip) (code die d) : (c.log code die d).regs = c.regs := rfl
@[simp] theorem log_arch (c : Chip) (code die d) : (c.log code die d).arch = c.arch := rfl
@[simp] theorem log_host (c : Chip) (code die d) : (c.log code die d).host = c.host := rfl
@[simp] theorem log_buf (c : Chip) (code die d) : (c.log code die d).buf = c.buf := rfl
@[simp] theorem log_afe (c : Chip) (code die d) : (c.log code die d).afe = c.afe := rfl
@[simp] theorem log_path (c : Chip) (code die d) : (c.log code die d).path = c.path := rfl
@[simp] theorem log_servo (c : Chip) (code die d) : (c.log code die d).servo = c.servo := rfl
@[simp] theorem log_sup (c : Chip) (code die d) : (c.log code die d).sup = c.sup := rfl
@[simp] theorem log_core_sram (c : Chip) (code die d) : (c.log code die d).core.sram = c.core.sram := rfl

/-- An entry joins the device log weir behind those that wait. -/
theorem items_log (c : Chip) (code : Nat) (die : Die) (detail : List Nat) :
    ((c.log code die detail).weir (weirKey 6 0)).items =
      (c.weir (weirKey 6 0)).items ++ [(logWords (c.nowOn die) code die detail).map (fun w => ⟨w, false⟩)] := by
  simp [Chip.log, Chip.pushItem]

/-- A count that has room for one more, or stays at its limit. -/
theorem fld_inc_same (c : Chip) (f : Fld) (h : f.lo + f.w ≤ 64) : (c.inc f).fld f = min (c.fld f + 1) (2 ^ f.w - 1) := by
  rw [Chip.inc, Chip.add, fld_setFld_same c f _ h]
  exact Nat.mod_eq_of_lt (by have := Nat.two_pow_pos f.w; omega)

theorem apart_symm {f g : Fld} (h : apart f g) : apart g f := by
  unfold apart at *; omega

/-! ### O26: commands and parameter writes (R303, R304) -/

/-- What a command of pair `q` leaves that changes that pair alone. -/
def OnlyPair (q : Nat) (c c' : Chip) : Prop :=
  (∀ j, j ≠ q → c'.pair j = c.pair j) ∧ c' = { c with servo := { c.servo with pairs := c'.servo.pairs } }

theorem onlyPair_setPair (c : Chip) (q : Nat) (x : PairRec) : OnlyPair q c (c.setPair q x) :=
  ⟨fun j hj => pair_setPair_other c q j x hj, rfl⟩

/-- Settles O26. -/
theorem pairWrites : Obligations.PairWrites := by
  unfold Obligations.PairWrites
  intro s q i v
  refine ⟨fun hroom => ?_, fun hfull => ?_, ?_⟩
  · refine completes_on (f := fun c => c.pushCmd q v (BitVec.ofNat 32 (c.fld (LE_CMD_ARG_ARG q)))) rfl ?_
    simp only [Chip.pushCmd, if_pos hroom]
    exact ⟨by rw [pair_setPair], onlyPair_setPair ..⟩
  · refine completes_on (f := fun c => c.pushCmd q v (BitVec.ofNat 32 (c.fld (LE_CMD_ARG_ARG q)))) rfl ?_
    simp only [Chip.pushCmd, if_neg hfull.not_gt]
    exact ⟨flag_mark_same _ _ (by simp [LE_PAIR_EVENT_CMD_LOST]) (by simp [LE_PAIR_EVENT_CMD_LOST]),
      fieldsKept_mark _ (by simp) (fieldsKept_refl _ _), rfl⟩
  · refine completes_on (f := fun c => c.writeParam q i v) rfl ?_
    obtain ⟨hothers, hrest⟩ := onlyPair_setPair s.chip q
      { s.chip.pair q with params := (s.chip.pair q).params.filter (fun x => x.1 != i.val) ++ [(i.val, v)] }
    simp only [Chip.writeParam, pair_setPair]
    refine ⟨?_, rfl, ?_, hothers, hrest⟩
    · simp [List.filter_append]
    · simp [List.filter_append]

/-! ### O28: state copies, tests and swaps (R421, R423, R430 to R432) -/

theorem find?_pair_role {c : Chip} {q e r : Nat} (h : [evenEng q, oddEng q].find? (fun e => (c.tolek e).role == r) = some e) :
    (c.tolek e).role = r ∧ pairOf e = q := by
  have hrole := List.find?_some h
  have hmem := List.mem_of_find?_eq_some h
  simp only [List.mem_cons, List.not_mem_nil, or_false] at hmem
  refine ⟨by simpa using hrole, ?_⟩
  obtain rfl | rfl := hmem
  · simp [pairOf, evenEng]
  · simp only [pairOf, oddEng]; omega

theorem otherEng_ne (e : Nat) : otherEng e ≠ e := by
  unfold otherEng; split <;> omega

theorem completes_stateCopy (s : State) (q : Pair) (a : Nat) (hmode : s.chip.pairMode q = 2) (hshadow : (s.chip.pair q).shadow = none)
    (hactive : s.chip.activeEng q = some a) : Completes (.stateCopyDone q) s fun c =>
      c = s.chip.setTolek (otherEng a) { s.chip.tolek (otherEng a) with
        ctx := (s.chip.tolek a).ctx, saved := (s.chip.tolek a).saved, pc := (s.chip.tolek a).pc, calls := (s.chip.tolek a).calls,
        loops := (s.chip.tolek a).loops, running := (s.chip.tolek a).running, ended := (s.chip.tolek a).ended,
        units := (s.chip.tolek a).units, sat := (s.chip.tolek a).sat, outs := (s.chip.tolek a).outs,
        written := (s.chip.tolek a).written, last := (s.chip.tolek a).last, stores := (s.chip.tolek a).stores,
        sign := (s.chip.tolek a).sign, role := 2, missFab := 0, missWire := 0 } := by
  refine ⟨_, rfl, rfl, ?_⟩
  simp [Chip.when, hmode, hshadow, hactive]

/-- The mode of a pair rests on the roles of its engines alone (R419). -/
theorem pairMode_of_roles {c c' : Chip} (h : ∀ e, (c'.tolek e).role = (c.tolek e).role) (q : Nat) : c'.pairMode q = c.pairMode q := by
  have hcommitting : c'.committing q = c.committing q := by simp [Chip.committing, TolekRec.commits, h]
  unfold Chip.pairMode
  rw [hcommitting]
  simp only [h]

theorem roles_setTolek (c : Chip) {e : Nat} {t : TolekRec} (h : t.role = (c.tolek e).role) (j : Nat) :
    ((c.setTolek e t).tolek j).role = (c.tolek j).role := by
  by_cases hj : j = e
  · rw [hj, tolek_setTolek, h]
  · rw [tolek_setTolek_other _ _ _ _ hj]

@[simp] theorem tolek_setPair (c : Chip) (q x e) : (c.setPair q x).tolek e = c.tolek e := rfl
@[simp] theorem tolek_mark (c : Chip) (f e) : (c.mark f).tolek e = c.tolek e := rfl
@[simp] theorem tolek_log (c : Chip) (code die d e) : (c.log code die d).tolek e = c.tolek e := rfl
@[simp] theorem pair_mark (c : Chip) (f q) : (c.mark f).pair q = c.pair q := rfl
@[simp] theorem pair_inc (c : Chip) (f q) : (c.inc f).pair q = c.pair q := rfl
@[simp] theorem pair_setTolek (c : Chip) (e t q) : (c.setTolek e t).pair q = c.pair q := rfl
@[simp] theorem pair_log (c : Chip) (code die d q) : (c.log code die d).pair q = c.pair q := rfl
@[simp] theorem pair_journal (c : Chip) (a u q) : (c.journal a u).pair q = c.pair q := by simp [Chip.pair]

theorem completes_testPassed (s : State) (e : TolekEngine) (htesting : (s.chip.pair (pairOf e)).testing = some e.val)
    (hpair : s.chip.pairMode (pairOf e) ≠ 3) : Completes (.engineTestDone e true) s fun c =>
      ∃ p : PairRec, c = (((s.chip.setPair (pairOf e) { p with testing := none }).mark (WMM_PAIR_EVENT_TEST_PASS (pairOf e))).setTolek e
        { s.chip.tolek e with fault := false, missFab := 0, missWire := 0 }).setTolek e
          { s.chip.tolek e with role := 3, fault := false, missFab := 0, missWire := 0 } := by
  refine ⟨_, rfl, rfl, { s.chip.pair (pairOf e) with
    lasting := (s.chip.pair (pairOf e)).lasting.map (fun l => (l.1, l.2.1, l.2.2 || l.2.1 == e.val)) }, ?_⟩
  have hmode (p : PairRec) (g : Fld) : (((s.chip.setPair (pairOf e) p).mark g).setTolek e
      { s.chip.tolek e with fault := false, missFab := 0, missWire := 0 }).pairMode (pairOf e) ≠ 3 := by
    rwa [pairMode_of_roles (c := s.chip)]
    exact roles_setTolek _ rfl
  simp only [Chip.when, htesting, beq_self_eq_true, if_true]
  refine (if_neg (hmode _ _)).trans ?_
  rw [Chip.startCopy, Chip.setRole, tolek_setTolek]
  rfl

/-- Settles O28. -/
theorem pairRepairs : Obligations.PairRepairs := by
  unfold Obligations.PairRepairs
  refine ⟨⟨fun s q a hmode hshadow hactive => ?copied, fun s e htesting => ⟨fun hpair => ?passed, ?failed⟩⟩,
    fun s q => ⟨fun e hnone hfault => ?retest, fun i hi => ?swap, fun hswap => ?skipped⟩⟩
  case copied =>
    refine (completes_stateCopy s q a hmode hshadow hactive).imp ?_
    rintro _ rfl
    simp only [tolek_setTolek, true_and]
    exact ⟨tolek_setTolek_other _ _ _ _ (otherEng_ne a).symm,
      fun j hj => tolek_setTolek_other _ _ _ _ hj, rfl⟩
  case passed =>
    refine (completes_testPassed s e htesting hpair).imp ?_
    rintro _ ⟨p, rfl⟩
    simp only [tolek_setTolek, pair_setTolek, pair_mark, pair_setPair, true_and]
    refine ⟨flag_mark_same _ _ (by simp [WMM_PAIR_EVENT_TEST_PASS]) (by simp [WMM_PAIR_EVENT_TEST_PASS]),
      fieldsKept_mark _ (by simp) (fieldsKept_of_regs rfl), fun j hj => ?_, bytesKept_of_eq rfl rfl rfl⟩
    simp [tolek_setTolek_other _ _ _ _ hj]
  case failed =>
    refine completes_on (f := fun c => c.when ((c.pair (pairOf e)).testing == some e.val) fun c =>
      (((c.setPair (pairOf e) { c.pair (pairOf e) with testing := none }).mark (WMM_PAIR_EVENT_TEST_FAIL (pairOf e))).setRole e 4).log
        0x0604 .m [pairOf e, e]) rfl ?_
    simp only [Chip.when, htesting, beq_self_eq_true, if_true, items_log]
    refine ⟨?_, ?_, flag_mark_same _ _ (by simp [WMM_PAIR_EVENT_TEST_FAIL]) (by simp [WMM_PAIR_EVENT_TEST_FAIL]), rfl,
      fieldsKept_mark _ (by simp) (fieldsKept_of_regs rfl), fun j hj => ?_, bytesKept_of_eq rfl rfl rfl⟩
    · simp [Chip.setRole]
    · simp [Chip.setRole]
    · simp [Chip.setRole, tolek_setTolek_other _ _ _ _ hj]
  case retest =>
    obtain ⟨-, hpair⟩ := find?_pair_role hfault
    refine completes_on (f := fun c => c.retest q) rfl ?_
    simp only [Chip.retest, Chip.when, hnone, Option.isNone_none, if_true, hfault, Chip.startTest]
    refine ⟨by simp, by simp, by simp, bytesKept_of_eq (by simp) (by simp) (by simp)⟩
  case swap =>
    have hasked : Completes i s fun c => c = (s.chip.setPair q { s.chip.pair q with swap := true }).journal actSwap q := by
      obtain rfl | ⟨rfl, hen⟩ := hi
      · exact ⟨_, rfl, rfl, rfl⟩
      · exact ⟨_, rfl, rfl, if_pos hen⟩
    refine hasked.imp ?_
    rintro _ rfl
    refine ⟨by simp, by simp, by simp, fun j hj => ?_, bytesKept_of_eq (by simp) (by simp) (by simp)⟩
    simp [pair_setPair_other _ _ _ _ hj]
  case skipped =>
    refine completes_on (f := fun c => c.when (c.pair q).swap fun c =>
      ((c.setPair q { c.pair q with swap := false }).mark (WMM_PAIR_EVENT_SWAP_SKIPPED q)).inc (WMM_PAIR_SKIPS_COUNT q)) rfl ?_
    simp only [Chip.when, hswap, if_true]
    have happart : apart (WMM_PAIR_EVENT_SWAP_SKIPPED q) (WMM_PAIR_SKIPS_COUNT q) := by
      left; simp only [WMM_PAIR_EVENT_SWAP_SKIPPED, WMM_PAIR_SKIPS_COUNT, WMM_PAIR_EVENT, WMM_PAIR_SKIPS]; omega
    refine ⟨by simp, ?_, ?_, fieldsKept_inc _ (by simp) (fieldsKept_mark _ (by simp) (fieldsKept_of_regs rfl)), rfl,
      bytesKept_of_eq rfl rfl rfl⟩
    · rw [Chip.flag, Chip.inc, Chip.add, fld_setFld_apart _ _ _ _ (by simp [WMM_PAIR_EVENT_SWAP_SKIPPED]) happart]
      exact flag_mark_same _ _ (by simp [WMM_PAIR_EVENT_SWAP_SKIPPED]) (by simp [WMM_PAIR_EVENT_SWAP_SKIPPED])
    · rw [fld_inc_same _ _ (by simp [WMM_PAIR_SKIPS_COUNT]), Chip.mark,
        fld_setFld_apart _ _ _ _ (by simp [WMM_PAIR_SKIPS_COUNT]) (apart_symm happart)]
      rfl

end Sys2Proof.Machine
end

section
/-! Proofs about the Flume: packets received and sent, items, replays, retraining, time: O14 to O17. -/

namespace Sys2Proof.Machine

/-! ### The state of a direction -/

@[simp] theorem flume_setFlume (c : Chip) (d x) : (c.setFlume d x).flume d = x := by cases d <;> rfl

theorem flume_setFlume_other (c : Chip) {d d' : Dir} (x) (h : d' ≠ d) : (c.setFlume d x).flume d' = c.flume d' := by
  cases d with
  | toM => cases d' with
    | toM => exact absurd rfl h
    | toH => rfl
  | toH => cases d' with
    | toM => rfl
    | toH => exact absurd rfl h

theorem otherDir_ne (d : Dir) : otherDir d ≠ d := by cases d <;> decide

theorem frame_setFlume (c : Chip) (d x) : c.setFlume d x = { c with arch := (c.setFlume d x).arch } := by cases d <;> rfl

@[simp] theorem setFlume_regs (c : Chip) (d x) : (c.setFlume d x).regs = c.regs := by cases d <;> rfl
@[simp] theorem fld_setFlume (c : Chip) (d x f) : (c.setFlume d x).fld f = c.fld f := by cases d <;> rfl
@[simp] theorem flag_setFlume (c : Chip) (d x f) : (c.setFlume d x).flag f = c.flag f := by cases d <;> rfl
@[simp] theorem setFlume_core (c : Chip) (d x) : (c.setFlume d x).core = c.core := by cases d <;> rfl
@[simp] theorem setFlume_sup (c : Chip) (d x) : (c.setFlume d x).sup = c.sup := by cases d <;> rfl
@[simp] theorem setFlume_buf (c : Chip) (d x) : (c.setFlume d x).buf = c.buf := by cases d <;> rfl

/-! ### Packets that arrive (R42, R45) -/

/-- The chip once a good packet `p` of direction `d` is acknowledged. -/
def Chip.acked (c : Chip) (d : Dir) (p : Rx) : Chip :=
  c.setFlume d { c.flume d with expSeq := ((c.flume d).expSeq + 1) % 4096, replay := (c.flume d).replay.filter (fun k => k.seq != rxSeq p) }

theorem receive_arrives {c : Chip} {d : Dir} {type : Nat} {p : Rx} (h : Arrives c d type p) (htype : type ≤ 8) (f : Chip → Chip) :
    c.receive d type p f = f (c.acked d p) := by
  obtain ⟨hcarrying, hgood, hseq, rfl⟩ := h
  simp [Chip.receive, Chip.acked, hcarrying, hgood, hseq, htype.not_gt]

theorem expSeq_acked (c : Chip) (d : Dir) (p : Rx) : ((c.acked d p).flume d).expSeq = ((c.flume d).expSeq + 1) % 4096 := by
  simp [Chip.acked]

/-- A packet with a bad CRC or behind a gap delivers nothing: it is counted, and a replay is asked for. -/
theorem receive_discards {c : Chip} {d : Dir} {p : Rx} (hcarrying : c.carrying = true)
    (hbad : rxGood p = false ∨ rxSeq p ≠ (c.flume d).expSeq) (type : Nat) (f : Chip → Chip) :
    c.receive d type p f = (if rxGood p then c else c.inc FLM_CRC_ERRORS_COUNT).inc FLM_REPLAYS_COUNT := by
  cases hgood : rxGood p with
  | false => simp [Chip.receive, hcarrying, hgood]
  | true =>
    have hgap : rxSeq p ≠ (c.flume d).expSeq := hbad.resolve_left (by simp [hgood])
    simp [Chip.receive, hcarrying, hgood, hgap]

/-! ### O16: what is sent next, and replays (R43, R45, R46) -/

/-- A packet's class has credit. -/
def FlumeDir.may (x : FlumeDir) (p : Packet) : Prop := ∀ k, typeClass p.ty = some k → 0 < x.credits.getD k 0

theorem typePriority_mem (t : Nat) : typePriority t ∈ ([1, 2, 3, 4, 5] : List Nat) := by
  unfold typePriority
  split_ifs <;> simp

/-- The packet that a search by rising priority number finds: it may be sent, before it stands none that may be sent and is as urgent, and
none that may be sent is more urgent. -/
theorem findSome_priority {ready : List Packet} {may : Packet → Bool} {p : Packet}
    (h : ([1, 2, 3, 4, 5] : List Nat).findSome? (fun n => ready.find? fun p => typePriority p.ty == n && may p) = some p) :
    may p = true ∧ ∃ pre post, ready = pre ++ p :: post ∧ (∀ q ∈ pre, may q = true → typePriority p.ty < typePriority q.ty) ∧
      ∀ q ∈ post, may q = true → typePriority p.ty ≤ typePriority q.ty := by
  obtain ⟨earlier, n, later, hlist, hfound, hnone⟩ := List.findSome?_eq_some_iff.mp h
  obtain ⟨hp, pre, post, hready, hpre⟩ := List.find?_eq_some_iff_append.mp hfound
  simp only [Bool.and_eq_true, beq_iff_eq] at hp
  obtain ⟨rfl, hmay⟩ := hp
  have hurgent (q : Packet) (hq : q ∈ ready) (hqmay : may q = true) : typePriority p.ty ≤ typePriority q.ty := by
    by_contra hless
    have hmem := typePriority_mem q.ty
    have hrising : (earlier ++ typePriority p.ty :: later).Pairwise (· < ·) := hlist ▸ by decide
    rw [hlist, List.mem_append, List.mem_cons] at hmem
    have hearlier : typePriority q.ty ∈ earlier := by
      refine hmem.resolve_right fun hrest => ?_
      obtain heq | hlater := hrest
      · omega
      · have := List.rel_of_pairwise_cons (List.pairwise_append.mp hrising).2.1 hlater
        omega
    have := List.find?_eq_none.mp (hnone _ hearlier) q hq
    simp [hqmay] at this
  refine ⟨hmay, pre, post, hready, fun q hq hqmay => ?_, fun q hq hqmay => hurgent q (by simp [hready, hq]) hqmay⟩
  refine lt_of_le_of_ne (hurgent q (by simp [hready, hq]) hqmay) fun heq => ?_
  have := hpre q hq
  simp [heq, hqmay] at this

theorem findSome_priority_none {ready : List Packet} {may : Packet → Bool}
    (h : ([1, 2, 3, 4, 5] : List Nat).findSome? (fun n => ready.find? fun p => typePriority p.ty == n && may p) = none)
    (q : Packet) (hq : q ∈ ready) : may q = false := by
  have := List.find?_eq_none.mp (List.findSome?_eq_none_iff.mp h _ (typePriority_mem q.ty)) q hq
  simpa using this

/-- The model's test of credit, as a truth value. -/
def FlumeDir.mayB (x : FlumeDir) (p : Packet) : Bool := (typeClass p.ty).all fun k => decide (0 < x.credits.getD k 0)

theorem mayB_iff (x : FlumeDir) (p : Packet) : x.mayB p = true ↔ x.may p := by
  simp [FlumeDir.mayB, FlumeDir.may, Option.all_eq_true]

theorem nextReady_eq (x : FlumeDir) :
    x.nextReady = ([1, 2, 3, 4, 5] : List Nat).findSome? fun n => x.ready.find? fun p => typePriority p.ty == n && x.mayB p := by
  unfold FlumeDir.nextReady
  simp only
  congr 1
  funext n
  congr 1
  funext p
  unfold FlumeDir.mayB
  cases typeClass p.ty <;> rfl

theorem ready_send {x : FlumeDir} {pre post : List Packet} {p : Packet} (hready : x.ready = pre ++ p :: post) (hfirst : p ∉ pre) :
    (x.send p).ready = pre ++ post := by
  simp [FlumeDir.send, hready, List.erase_append_right _ hfirst]

theorem credits_send (x : FlumeDir) (p : Packet) (k : Nat) :
    (x.send p).credits.getD k 0 = x.credits.getD k 0 - (if typeClass p.ty = some k then 1 else 0) := by
  unfold FlumeDir.send
  cases hclass : typeClass p.ty with
  | none => simp
  | some j =>
    by_cases hj : j = k
    · subst hj
      simp only [List.getD_eq_getElem?_getD, List.getElem?_modify, if_true]
      cases x.credits[j]? <;> simp
    · simp [List.getD_eq_getElem?_getD, hj]

theorem completes_transmit {s : State} {d : Dir} (hcarrying : s.chip.carrying = true) (hfresh : (s.chip.flume d).toResend = []) :
    Completes (.flumeTransmit d) s fun c => c = ((s.chip.flume d).nextReady.elim s.chip fun p => s.chip.setFlume d ((s.chip.flume d).send p)) := by
  refine ⟨_, rfl, rfl, ?_⟩
  simp only [Chip.when, hcarrying, if_true, hfresh]
  cases (s.chip.flume d).nextReady <;> rfl

/-- What a replay request of direction `d` leaves where packets after the last good one wait: the third in a row of one packet retrains. -/
theorem replayFrom_found {c : Chip} {d : Dir} {seq : Nat} {before after : List Packet} {k p : Packet}
    (hreplay : (c.flume d).replay = before ++ k :: p :: after) (hk : k.seq = seq) (hbefore : ∀ q ∈ before, q.seq ≠ seq) :
    ∃ x : FlumeDir, x.toResend = p :: after ∧ x.replay = p :: after ∧
      c.replayFrom d seq =
        if (c.flume d).lastReplay = some p.seq ∧ 2 ≤ (c.flume d).sameReplays then ((c.mark FLM_EVENT_REPLAY).setFlume d x).startRetrain
        else (c.mark FLM_EVENT_REPLAY).setFlume d x := by
  have hfrom : (before ++ k :: p :: after).dropWhile (fun p => p.seq != seq) = k :: p :: after := by
    rw [List.dropWhile_append_of_pos (by simpa using hbefore)]
    simp [hk]
  have hany : (before ++ k :: p :: after).any (fun p => p.seq == seq) = true := by simp [hk]
  have hthird : 3 ≤ (if (c.flume d).lastReplay = some p.seq then (c.flume d).sameReplays + 1 else 1) ↔
      (c.flume d).lastReplay = some p.seq ∧ 2 ≤ (c.flume d).sameReplays := by
    by_cases hsame : (c.flume d).lastReplay = some p.seq <;> simp [hsame]
  unfold Chip.replayFrom
  simp only [hreplay, hany, if_true, hfrom, List.drop_succ_cons, List.drop_zero]
  simp only [hthird]
  exact ⟨_, rfl, rfl, rfl⟩

theorem carrying_idle {c : Chip} (h : c.carrying = true) : c.flag FLM_STATUS_UP = true ∧ c.flag FLM_STATUS_RETRAINING = false := by
  simpa [Chip.carrying] using h

theorem flag_setFld_apart (c : Chip) (f g : Fld) (v : Nat) (hf : f.lo + f.w ≤ 64) (h : apart f g) : (c.setFld g v).flag f = c.flag f := by
  rw [Chip.flag, fld_setFld_apart c f g v hf h, Chip.flag]

theorem flag_startRetrain (c : Chip) : c.startRetrain.flag FLM_STATUS_RETRAINING = true :=
  flag_mark_same c FLM_STATUS_RETRAINING (by decide) (by decide)

/-- Settles O16. -/
theorem flumeSends : Obligations.FlumeSends := by
  unfold Obligations.FlumeSends
  refine ⟨fun s d hcarrying hfresh => ⟨fun hsome => ?sends, fun hnone => ?idle⟩, fun s d seq before after k p hcarrying hreplay hk hbefore => ?replays⟩
  case sends =>
    obtain ⟨q, hq, hqmay⟩ := hsome
    have hsent := completes_transmit hcarrying hfresh
    rw [nextReady_eq] at hsent
    cases hnext : ([1, 2, 3, 4, 5] : List Nat).findSome? fun n =>
        (s.chip.flume d).ready.find? fun p => typePriority p.ty == n && (s.chip.flume d).mayB p with
    | none => exact absurd ((mayB_iff _ q).mpr hqmay) (by simp [findSome_priority_none hnext q hq])
    | some p =>
      obtain ⟨hmay, pre, post, hready, hpre, hpost⟩ := findSome_priority hnext
      have hfirst : p ∉ pre := fun hp => absurd (hpre p hp hmay) (lt_irrefl _)
      refine ⟨pre, p, post, hready, (mayB_iff _ p).mp hmay, fun q hq h => hpre q hq ((mayB_iff _ q).mpr h),
        fun q hq h => hpost q hq ((mayB_iff _ q).mpr h), hsent.imp ?_⟩
      rintro _ rfl
      simp only [hnext, Option.elim_some, flume_setFlume]
      exact ⟨ready_send hready hfirst, rfl, rfl, credits_send _ p, frame_setFlume ..⟩
  case idle =>
    refine (completes_transmit hcarrying hfresh).imp ?_
    rintro _ rfl
    cases hnext : (s.chip.flume d).nextReady with
    | none => rfl
    | some p =>
      obtain ⟨hmay, pre, post, hready, -, -⟩ := findSome_priority (nextReady_eq _ ▸ hnext)
      exact absurd ((mayB_iff _ p).mp hmay) (hnone p (by simp [hready]))
  case replays =>
    obtain ⟨-, hidle⟩ := carrying_idle hcarrying
    obtain ⟨x, hresend, hkept, hfrom⟩ := replayFrom_found hreplay hk hbefore
    have hmarked : s.chip.fieldsKept [FLM_EVENT_REPLAY, FLM_STATUS_RETRAINING] ((s.chip.mark FLM_EVENT_REPLAY).setFlume d x) :=
      fieldsKept_regs (setFlume_regs ..) (fieldsKept_mark _ (by simp) (fieldsKept_refl _ _))
    have hevent : ((s.chip.mark FLM_EVENT_REPLAY).setFlume d x).flag FLM_EVENT_REPLAY = true :=
      (flag_setFlume ..).trans (flag_mark_same _ _ (by decide) (by decide))
    refine completes_on (f := fun c => c.when c.carrying fun c => c.replayFrom d seq) rfl ?_
    simp only [Chip.when, hcarrying, if_true, hfrom]
    split_ifs with hthird
    · refine ⟨hresend ▸ ?_, hkept ▸ ?_, ?_, iff_of_true (flag_startRetrain _) hthird, fieldsKept_setFld _ _ (by simp) hmarked, ?_⟩
      · cases d <;> rfl
      · cases d <;> rfl
      · exact (flag_setFld_apart _ _ _ _ (by decide) (by decide)).trans hevent
      · cases d <;> rfl
    · refine ⟨by simp [hresend], by simp [hkept], hevent, iff_of_false ?_ hthird, hmarked, by cases d <;> rfl⟩
      rw [flag_setFlume, Chip.mark, flag_setFld_apart _ _ _ _ (by decide) (by decide), hidle]
      exact Bool.false_ne_true

end Sys2Proof.Machine
end

section
/-! Proofs about packets that the Flume delivers: control packets (O14) and items (O15). -/

namespace Sys2Proof.Machine

/-! ### Equality up to the Flume's own state -/

theorem frame_acked (c : Chip) (d : Dir) (p : Rx) : c.acked d p = { c with arch := (c.acked d p).arch } := frame_setFlume ..

@[simp] theorem acked_regs (c : Chip) (d p) : (c.acked d p).regs = c.regs := setFlume_regs ..
@[simp] theorem acked_core (c : Chip) (d p) : (c.acked d p).core = c.core := setFlume_core ..
@[simp] theorem acked_sup (c : Chip) (d p) : (c.acked d p).sup = c.sup := setFlume_sup ..
@[simp] theorem acked_buf (c : Chip) (d p) : (c.acked d p).buf = c.buf := setFlume_buf ..
@[simp] theorem fld_acked (c : Chip) (d p f) : (c.acked d p).fld f = c.fld f := fld_setFlume ..
@[simp] theorem flag_acked (c : Chip) (d p f) : (c.acked d p).flag f = c.flag f := flag_setFlume ..

theorem flume_acked_other (c : Chip) {d d' : Dir} (p) (h : d' ≠ d) : (c.acked d p).flume d' = c.flume d' := flume_setFlume_other _ _ h

theorem part_acked (c : Chip) (d p k) : ((c.acked d p).flume d).part k = (c.flume d).part k := by
  simp [Chip.acked, FlumeDir.part]

/-- A command whose packet arrives is what its delivery makes of the acknowledged chip. -/
theorem completes_receive {i : Instr} {s : State} {d : Dir} {type : Nat} {p : Rx} {f : Chip → Chip} {P : Chip → Prop}
    (hexec : exec i s = s.on fun c => c.receive d type p f) (h : Arrives s.chip d type p) (htype : type ≤ 8)
    (hp : P (f (s.chip.acked d p))) : Completes i s P :=
  completes_on hexec (by rwa [receive_arrives h htype])

/-! ### O14: control packets -/

theorem flag_eq_of_fld {c c' : Chip} {f : Fld} (h : c'.fld f = c.fld f) : c'.flag f = c.flag f := by rw [Chip.flag, h, Chip.flag]

/-- A number's low `w` bits in two's complement read back as the number, where they can hold it. -/
theorem signedOf_bitsOfInt {w : Nat} {v : Int} (hw : 0 < w) (hlo : -2 ^ (w - 1) ≤ v) (hhi : v < 2 ^ (w - 1)) :
    signedOf w (bitsOfInt w v % 2 ^ w) = v := by
  obtain ⟨m, hm⟩ : ∃ m : Nat, m = 2 ^ (w - 1) := ⟨_, rfl⟩
  have hdouble : 2 ^ w = 2 * m := by rw [hm, ← pow_succ', Nat.sub_add_cancel hw]
  have hlo' : -(m : Int) ≤ v := by rw [hm]; exact_mod_cast hlo
  have hhi' : v < (m : Int) := by rw [hm]; exact_mod_cast hhi
  have hmod : v % ((2 * m : Nat) : Int) = if 0 ≤ v then v else v + (2 * m : Nat) := by
    split_ifs with hsign
    · exact Int.emod_eq_of_lt hsign (by omega)
    · rw [← Int.add_emod_right, Int.emod_eq_of_lt (by omega) (by omega)]
  have hbits : bitsOfInt w v < 2 * m := by
    rw [bitsOfInt, hdouble, hmod]
    split_ifs <;> omega
  rw [signedOf, Nat.mod_mod, hdouble, ← hm, Nat.mod_eq_of_lt hbits, bitsOfInt, hdouble, hmod]
  split_ifs <;> omega

theorem int_setInt_same (c : Chip) (f : Fld) (v : Int) (hf : f.lo + f.w ≤ 64) (hw : 0 < f.w) (hlo : -2 ^ (f.w - 1) ≤ v)
    (hhi : v < 2 ^ (f.w - 1)) : (c.setInt f v).int f = v := by
  rw [Chip.int, Chip.setInt, fld_setFld_same _ _ _ hf]
  exact signedOf_bitsOfInt hw hlo hhi

/-- The copies of ledger time are no longer aligned: what changes. -/
theorem unaligned_eq (c : Chip) : c.unaligned =
    (let c' : Chip := { c with arch := { c.arch with goodExchanges := 0 } }
     if c.flag FLM_STATUS_LEDGER_ALIGNED then
       ((c'.setFld FLM_STATUS_LEDGER_ALIGNED 0).mark FLM_EVENT_SKEW_EXCEEDED).log 0x0104 .h [c.fld FLM_LEDGER_SKEW_SKEW]
     else c') := rfl

theorem unaligned_arch (c : Chip) : c.unaligned.arch = { c.arch with goodExchanges := 0 } := by
  rw [unaligned_eq]
  simp only
  split_ifs <;> rfl

theorem flag_unaligned (c : Chip) : c.unaligned.flag FLM_STATUS_LEDGER_ALIGNED = false := by
  rw [unaligned_eq]
  simp only
  split_ifs with h
  · have hcleared (c : Chip) : (c.setFld FLM_STATUS_LEDGER_ALIGNED 0).flag FLM_STATUS_LEDGER_ALIGNED = false := by
      rw [Chip.flag, fld_setFld_same _ _ _ (by decide)]
      rfl
    exact (flag_setFld_apart _ _ FLM_EVENT_SKEW_EXCEEDED 1 (by decide) (by decide)).trans (hcleared _)
  · exact eq_false_of_ne_true h

theorem fieldsKept_unaligned (c : Chip) : c.fieldsKept [FLM_STATUS_LEDGER_ALIGNED, FLM_EVENT_SKEW_EXCEEDED] c.unaligned := by
  rw [unaligned_eq]
  simp only
  split_ifs
  · exact fieldsKept_regs rfl (fieldsKept_mark _ (by simp) (fieldsKept_setFld _ _ (by simp) (fieldsKept_of_regs rfl)))
  · exact fieldsKept_of_regs rfl

/-- What an exchange notes of the offset that it measured. -/
def Chip.offsetNoted (c : Chip) (off : Int) : Chip :=
  let c := c.setInt FLM_LEDGER_SKEW_SKEW (max (-128) (min 127 off))
  let c := c.setFld FLM_LEDGER_SKEW_PEAK (max (c.fld FLM_LEDGER_SKEW_PEAK) (min 255 off.natAbs))
  { c with arch := { c.arch with corr := -off, lastExchange := c.nowH } }

theorem int_offsetNoted (c : Chip) (off : Int) : (c.offsetNoted off).int FLM_LEDGER_SKEW_SKEW = max (-128) (min 127 off) := by
  refine Eq.trans ?_ (int_setInt_same c FLM_LEDGER_SKEW_SKEW _ (by decide) (by decide) ?_ ?_)
  · exact congrArg (signedOf 8) (fld_setFld_apart _ FLM_LEDGER_SKEW_SKEW FLM_LEDGER_SKEW_PEAK _ (by decide) (by decide))
  · exact le_max_left _ _
  · exact lt_of_le_of_lt (max_le_max le_rfl (min_le_left _ _)) (by decide)

theorem peak_offsetNoted (c : Chip) (off : Int) :
    (c.offsetNoted off).fld FLM_LEDGER_SKEW_PEAK = max (c.fld FLM_LEDGER_SKEW_PEAK) (min 255 off.natAbs) := by
  have hpeak : c.fld FLM_LEDGER_SKEW_PEAK < 256 := fld_lt c FLM_LEDGER_SKEW_PEAK
  refine (fld_setFld_same _ FLM_LEDGER_SKEW_PEAK _ (by decide)).trans ?_
  rw [Chip.setInt, fld_setFld_apart _ _ FLM_LEDGER_SKEW_SKEW _ (by decide) (by decide)]
  exact Nat.mod_eq_of_lt (max_lt hpeak (lt_of_le_of_lt (min_le_left _ _) (by decide)))

theorem fieldsKept_offsetNoted (c : Chip) (off : Int) : c.fieldsKept [FLM_LEDGER_SKEW_SKEW, FLM_LEDGER_SKEW_PEAK] (c.offsetNoted off) :=
  fieldsKept_regs rfl (fieldsKept_setFld _ _ (by simp) (fieldsKept_setInt _ _ (by simp) (fieldsKept_refl _ _)))

/-- An exchange within 4 ns counts; the third in a row aligns the copies while the sampling PLL is locked. -/
theorem exchange_near {c : Chip} {off : Int} (h : off.natAbs ≤ 4) : c.exchange off =
    (let c' : Chip := { c.offsetNoted off with arch := { (c.offsetNoted off).arch with goodExchanges := min 3 (c.arch.goodExchanges + 1) } }
     if 2 ≤ c.arch.goodExchanges ∧ c.flag AFE_PLL_STATUS_LOCKED = true then c'.setFld FLM_STATUS_LEDGER_ALIGNED 1 else c') := by
  have hlocked : (c.offsetNoted off).flag AFE_PLL_STATUS_LOCKED = c.flag AFE_PLL_STATUS_LOCKED :=
    flag_eq_of_fld (fieldsKept_offsetNoted c off AFE_PLL_STATUS_LOCKED (by decide) (by decide))
  have hthird : min 3 (c.arch.goodExchanges + 1) = 3 ↔ 2 ≤ c.arch.goodExchanges := by omega
  simp only [← hthird, ← hlocked]
  exact if_pos h

theorem exchange_far {c : Chip} {off : Int} (h : 4 < off.natAbs) : c.exchange off = (c.offsetNoted off).unaligned := if_neg h.not_ge

/-- What every exchange leaves, near or far: the correction and the skew that it measured, and no register beyond those named. -/
structure Exchanged (off : Int) (c c' : Chip) : Prop where
  corr : c'.arch.corr = -off
  skew : c'.int FLM_LEDGER_SKEW_SKEW = max (-128) (min 127 off)
  peak : c'.fld FLM_LEDGER_SKEW_PEAK = max (c.fld FLM_LEDGER_SKEW_PEAK) (min 255 off.natAbs)
  now : c'.now = c.now
  nowH : c'.nowH = c.nowH
  fields : c.fieldsKept [FLM_LEDGER_SKEW_SKEW, FLM_LEDGER_SKEW_PEAK, FLM_STATUS_LEDGER_ALIGNED, FLM_EVENT_SKEW_EXCEEDED] c'

theorem Exchanged.of_offsetNoted {c c' : Chip} {off : Int} (hcorr : c'.arch.corr = -off) (hnow : c'.now = c.now) (hnowH : c'.nowH = c.nowH)
    (hfields : (c.offsetNoted off).fieldsKept [FLM_STATUS_LEDGER_ALIGNED, FLM_EVENT_SKEW_EXCEEDED] c') : Exchanged off c c' where
  corr := hcorr
  skew := (congrArg (signedOf 8) (hfields FLM_LEDGER_SKEW_SKEW (by decide) (by decide))).trans (int_offsetNoted c off)
  peak := (hfields FLM_LEDGER_SKEW_PEAK (by decide) (by decide)).trans (peak_offsetNoted c off)
  now := hnow
  nowH := hnowH
  fields := fieldsKept_trans (fieldsKept_weaken (by simp) (fieldsKept_offsetNoted c off)) (fieldsKept_weaken (by simp) hfields)

theorem exchanged_exchange (c : Chip) (off : Int) : Exchanged off c (c.exchange off) := by
  by_cases h : off.natAbs ≤ 4
  · rw [exchange_near h]
    simp only
    split_ifs
    · exact .of_offsetNoted rfl rfl rfl (fieldsKept_setFld _ _ (by simp) (fieldsKept_of_regs rfl))
    · exact .of_offsetNoted rfl rfl rfl (fieldsKept_of_regs rfl)
  · rw [exchange_far (not_le.mp h)]
    have harch := unaligned_arch (c.offsetNoted off)
    refine .of_offsetNoted ?_ ?_ ?_ (fieldsKept_unaligned _)
    · rw [harch]; rfl
    · rw [Chip.now, harch]; rfl
    · rw [Chip.nowH, harch]; rfl

theorem setWm_self (c : Chip) (d : Die) : c.setWm d (c.wm d) = c := by cases d <;> rfl

/-- A watermaster that hears its peer on both paths finds nothing against it. -/
theorem judgePeer_well {c : Chip} {d : Die} (hcarrying : c.carrying = true) (hflume : (c.wm d).missFlume = false)
    (hpulse : (c.wm d).missPulse = false) : ∃ w : WmRec, w.missFlume = false ∧ w.missPulse = false ∧ c.judgePeer d = c.setWm d w := by
  obtain ⟨hup, hidle⟩ := carrying_idle hcarrying
  have hsame : c = c.setWm d (c.wm d) := (setWm_self c d).symm
  unfold Chip.judgePeer
  simp only [hup, hidle, hflume, hpulse, Bool.not_true, Bool.false_eq_true, if_false, false_or]
  split_ifs
  · exact ⟨_, hflume, hpulse, hsame⟩
  · exact ⟨_, hflume, hpulse, hsame⟩
  · exact ⟨{ c.wm d with missFlume := false, missPulse := false, path := none }, rfl, rfl, rfl⟩

theorem carrying_of_fld {c c' : Chip} (hup : c'.fld FLM_STATUS_UP = c.fld FLM_STATUS_UP)
    (hidle : c'.fld FLM_STATUS_RETRAINING = c.fld FLM_STATUS_RETRAINING) : c'.carrying = c.carrying := by
  rw [Chip.carrying, flag_eq_of_fld hup, flag_eq_of_fld hidle, Chip.carrying]

theorem carrying_acked (c : Chip) (d : Dir) (p : Rx) : (c.acked d p).carrying = c.carrying := carrying_of_fld (fld_acked ..) (fld_acked ..)

/-- What a watermaster notes of a heartbeat packet before it judges its peer. -/
def Chip.heartbeatNoted (c : Chip) (d : Die) (split : Bool) : Chip :=
  ((c.setWm d { c.wm d with missFlume := false }).setFld (peerFlume d) 1).setFlag (peerSplit d) split

theorem wm_setFld (c : Chip) (f v d) : (c.setFld f v).wm d = c.wm d := by cases d <;> rfl

theorem fieldsKept_heartbeatNoted (c : Chip) (d : Die) (split : Bool) : c.fieldsKept [peerFlume d, peerSplit d] (c.heartbeatNoted d split) :=
  fieldsKept_setFlag _ _ (by simp) (fieldsKept_setFld _ _ (by simp) (fieldsKept_of_regs (setWm_regs ..)))

theorem flag_heartbeatNoted_split (c : Chip) (d : Die) (split : Bool) : (c.heartbeatNoted d split).flag (peerSplit d) = split :=
  flag_setFlag_same _ _ _ (by cases d <;> decide) (by cases d <;> rfl)

theorem flag_heartbeatNoted_flume (c : Chip) (d : Die) (split : Bool) : (c.heartbeatNoted d split).flag (peerFlume d) = true := by
  rw [Chip.heartbeatNoted, Chip.setFlag, flag_setFld_apart _ _ _ _ (by cases d <;> decide) (by cases d <;> decide)]
  exact flag_mark_same _ _ (by cases d <;> decide) (by cases d <;> decide)

theorem carrying_heartbeatNoted (c : Chip) (d : Die) (split : Bool) : (c.heartbeatNoted d split).carrying = c.carrying :=
  carrying_of_fld (fieldsKept_heartbeatNoted c d split _ (by decide) (by cases d <;> decide))
    (fieldsKept_heartbeatNoted c d split _ (by decide) (by cases d <;> decide))

/-- A heartbeat that names no failure clears the silence on the Flume path; the peer is judged again, and is well. -/
theorem heartbeatSeen_well {c : Chip} {d : Die} {payload : List (BitVec 32)} (hcarrying : c.carrying = true) (hpulse : (c.wm d).missPulse = false)
    (hrole : (payload.getD 0 0).toNat % 256 ≠ roleFailed) : ∃ w : WmRec, w.missFlume = false ∧
      c.heartbeatSeen d payload = (c.heartbeatNoted d ((payload.getD 0 0).toNat.testBit 8)).setWm d w := by
  have hwm (split : Bool) : (c.heartbeatNoted d split).wm d = { c.wm d with missFlume := false } := by
    simp [Chip.heartbeatNoted, Chip.setFlag, wm_setFld]
  obtain ⟨w, hflume, -, hjudged⟩ := judgePeer_well (c := c.heartbeatNoted d ((payload.getD 0 0).toNat.testBit 8)) (d := d)
    ((carrying_heartbeatNoted ..).trans hcarrying) (by rw [hwm]) (by rw [hwm]; exact hpulse)
  exact ⟨w, hflume, (if_neg fun h => hrole h.1).trans hjudged⟩

/-- Settles O14. -/
theorem flumeControlPackets : Obligations.FlumeControlPackets := by
  unfold Obligations.FlumeControlPackets
  refine ⟨fun s p => ⟨fun d c0 c1 c2 c3 h => ?credit, fun a v h => ?response, fun off h => ?time, fun d h hpulse hrole => ?heartbeat⟩,
    fun s d p i c0 c1 c2 c3 ws off a w o n v hi hcarrying hbad => ?discarded⟩
  case credit =>
    refine completes_receive (f := fun c => c.setFlume (otherDir d)
      { c.flume (otherDir d) with credits := List.zipWith (· + ·) (c.flume (otherDir d)).credits [c0, c1, c2, c3] }) rfl h (by decide) ?_
    refine ⟨?_, ?_, ?_⟩
    · rw [flume_setFlume, flume_acked_other _ _ (otherDir_ne d)]
    · rw [flume_setFlume_other _ _ (otherDir_ne d).symm, expSeq_acked]
    · cases d <;> rfl
  case response =>
    refine completes_receive (f := fun c => c.answer (agentNum a) v) rfl h (by decide) ⟨?_, rfl, rfl⟩
    rw [Chip.answer, agent_setAgent]
  case time =>
    have hexchanged := exchanged_exchange (s.chip.acked .toH p) off
    refine completes_receive (f := fun c => c.exchange off) rfl h (by decide)
      ⟨hexchanged.corr, hexchanged.skew, by simpa using hexchanged.peak, hexchanged.now, hexchanged.nowH,
        fun hnear => ⟨fun hgood hlocked => ?_, fun hfew => ?_⟩, fun hfar => ⟨?_, ?_⟩, fieldsKept_trans (fieldsKept_of_regs (acked_regs ..)) hexchanged.fields⟩
    · rw [exchange_near hnear]
      simp only
      rw [if_pos ⟨hgood, by simpa using hlocked⟩]
      exact flag_mark_same _ FLM_STATUS_LEDGER_ALIGNED (by decide) (by decide)
    · rw [exchange_near hnear]
      simp only
      rw [if_neg fun h => absurd h.1 (not_le.mpr hfew)]
      exact (fieldsKept_offsetNoted _ off _ (by decide) (by decide)).trans (fld_acked ..)
    · rw [exchange_far hfar]
      exact flag_unaligned _
    · rw [exchange_far hfar, unaligned_arch]
  case heartbeat =>
    obtain ⟨w, hflume, hseen⟩ := heartbeatSeen_well (c := s.chip.acked d p) (d := rxDie d) (payload := p.payload)
      ((carrying_acked ..).trans h.1) (by simpa [Chip.wm] using hpulse) hrole
    refine completes_receive (f := fun c => c.heartbeatSeen (rxDie d) p.payload) rfl h (by decide) ?_
    simp only [hseen, wm_setWm, flag_setWm]
    refine ⟨flag_heartbeatNoted_flume .., flag_heartbeatNoted_split .., hflume, ?_, ?_⟩
    · exact fieldsKept_regs (setWm_regs ..) (fieldsKept_trans (fieldsKept_of_regs (acked_regs ..)) (fieldsKept_heartbeatNoted _ _ _))
    · exact bytesKept_of_eq (by simp [Chip.heartbeatNoted, Chip.setFlag]) (by simp [Chip.heartbeatNoted, Chip.setFlag])
        (by simp [Chip.heartbeatNoted, Chip.setFlag])
  case discarded =>
    have hexec : ∃ (d' : Dir) (type : Nat) (f : Chip → Chip), d' = d ∧ exec i s = s.on fun c => c.receive d' type p f := by
      simp only [List.mem_cons, List.not_mem_nil, or_false] at hi
      obtain (rfl | rfl | rfl) | ⟨rfl, rfl | rfl⟩ | ⟨rfl, rfl | rfl | rfl | rfl⟩ := hi
      all_goals exact ⟨_, _, _, rfl, rfl⟩
    obtain ⟨_, type, f, rfl, hexec⟩ := hexec
    refine completes_on hexec ?_
    rw [receive_discards hcarrying hbad]
    have hcounted (c : Chip) : (c.inc FLM_REPLAYS_COUNT).fld FLM_CRC_ERRORS_COUNT = c.fld FLM_CRC_ERRORS_COUNT :=
      fieldsKept_inc (L := [FLM_REPLAYS_COUNT]) _ (by simp) (fieldsKept_refl _ c) _ (by decide) (by decide)
    have hreplays (c : Chip) : (c.inc FLM_CRC_ERRORS_COUNT).fld FLM_REPLAYS_COUNT = c.fld FLM_REPLAYS_COUNT :=
      fieldsKept_inc (L := [FLM_CRC_ERRORS_COUNT]) _ (by simp) (fieldsKept_refl _ c) _ (by decide) (by decide)
    cases hgood : rxGood p with
    | true =>
      exact ⟨fld_inc_same _ _ (by decide), fun h => absurd h (by simp), fieldsKept_inc _ (by simp) (fieldsKept_refl _ _), rfl⟩
    | false =>
      refine ⟨?_, fun _ => ?_, fieldsKept_inc _ (by simp) (fieldsKept_inc _ (by simp) (fieldsKept_refl _ _)), rfl⟩
      · exact (fld_inc_same _ _ (by decide)).trans (by simp [hreplays])
      · simp only [Bool.false_eq_true, if_false]
        rw [hcounted, fld_inc_same _ _ (by decide)]

end Sys2Proof.Machine
end

section
/-! Proofs about items that cross the Flume (O15), and about retraining, time exchanges and register requests (O17). -/

namespace Sys2Proof.Machine

/-! ### O15: items are committed whole (R44) -/

theorem part_setPart (c : Chip) (d : Dir) (k : Nat) (ws : List (BitVec 32)) : ((c.setPart d k ws).flume d).part k = ws := by
  simp [Chip.setPart, FlumeDir.part, FlumeDir.setPart]

theorem frame_setPart (c : Chip) (d : Dir) (k ws) : c.setPart d k ws = { c with arch := (c.setPart d k ws).arch } := frame_setFlume ..

@[simp] theorem setPart_core (c : Chip) (d k ws) : (c.setPart d k ws).core = c.core := setFlume_core ..

theorem items_commitItem (c : Chip) (kind index : Nat) (ws : List Word) :
    ((c.commitItem kind index ws).weir (weirKey kind index)).items =
      (c.weir (weirKey kind index)).items ++ [ws.map (fun w => ⟨w, false⟩)] := by
  rw [Chip.commitItem, weir_updWeir]

theorem frame_commitItem (c : Chip) (kind index ws) : c.commitItem kind index ws = { c with core := (c.commitItem kind index ws).core } :=
  frame_updWeir ..

/-- An item of a direction's packet joins its weir, and the parts received are gone: what changes is the Flume and the weirs. -/
theorem frame_setPart_commitItem (c : Chip) (d d' : Dir) (p : Rx) (k kind index : Nat) (ws : List (BitVec 32)) (it : List Word) :
    (((c.acked d p).setPart d' k ws).commitItem kind index it) =
      { c with arch := (((c.acked d p).setPart d' k ws).commitItem kind index it).arch,
               core := (((c.acked d p).setPart d' k ws).commitItem kind index it).core } := by
  rw [frame_commitItem, frame_setPart, frame_acked]

/-- Parts of an item are kept: what changes is the Flume alone. -/
theorem frame_acked_setPart (c : Chip) (d d' : Dir) (p : Rx) (k : Nat) (ws : List (BitVec 32)) :
    (c.acked d p).setPart d' k ws = { c with arch := ((c.acked d p).setPart d' k ws).arch } := by
  rw [frame_setPart, frame_acked]

@[simp] theorem wch_setFlume (c : Chip) (d x p) : (c.setFlume d x).wch p = c.wch p := by cases d <;> rfl

theorem wch_askReadBack (c : Chip) (p home k : Nat) : (c.askReadBack p home).wch k = c.wch k := by
  unfold Chip.askReadBack
  simp only
  split_ifs <;> rfl

theorem frame_askReadBack (c : Chip) (p home : Nat) : c.askReadBack p home = { c with path := (c.askReadBack p home).path } := by
  unfold Chip.askReadBack
  simp only
  split_ifs <;> rfl

/-- The byte at 10 of a block's header is in its third word, from bit 16 on. -/
theorem relocation_flag (ws : List (BitVec 32)) (h : (ws.getD 2 0).toNat / 2 ^ 17 % 2 = 0) :
    (ofLeBytes (((ws.flatMap fun w => leBytes 4 w.toNat).drop 10).take 1)).testBit 1 = false := by
  match ws with
  | [] => rfl
  | [a] => simp [leBytes, ofLeBytes]
  | [a, b] => simp [leBytes, ofLeBytes]
  | a :: b :: x :: rest =>
    have hflag : x.toNat / 2 ^ 17 % 2 = 0 := h
    have hbyte : (((a :: b :: x :: rest).flatMap fun w => leBytes 4 w.toNat).drop 10).take 1 = [BitVec.ofNat 8 (x.toNat / 256 / 256)] := by
      simp [leBytes]
    rw [hbyte, ofLeBytes, ofLeBytes, BitVec.toNat_ofNat, Nat.testBit_eq_decide_div_mod_eq]
    exact decide_eq_false (by omega)

/-- A block whose header asks for no relocation joins the items of its write channel. -/
theorem writeArrived_item (c : Chip) (p : Nat) {ws : List (BitVec 32)} (h : (ws.getD 2 0).toNat / 2 ^ 17 % 2 = 0) : ∃ it : WriteItem,
    it.slotPba = ofLeBytes (((ws.flatMap fun w => leBytes 4 w.toNat).drop 0).take 5) ∧
    it.user = ((ws.flatMap fun w => leBytes 4 w.toNat).drop 32).take 4096 ∧
    c.writeArrived p ws = (c.setWch p { c.wch p with items := (c.wch p).items ++ [it] }).askReadBack p it.homePba :=
  ⟨_, rfl, rfl, if_neg (by rw [relocation_flag ws h]; exact Bool.false_ne_true)⟩

/-- Settles O15. -/
theorem flumeItems : Obligations.FlumeItems := by
  unfold Obligations.FlumeItems
  intro s p unit
  refine ⟨fun ws h hunit hws => ⟨fun hwhole => ?_, fun hpart => ?_⟩, fun got hgot hne h => ⟨fun hlast => ?_, fun hmore => ?_⟩,
    fun h => ⟨fun halone => ?_, fun hhead => ?_⟩, fun got hgot h hunit => ⟨fun hmore => ?_, fun hlast hflag => ?_⟩⟩
  · refine completes_receive (f := fun c => c.eventPacket .toM p ws) rfl h (by decide) ?_
    have hcommits : (s.chip.acked .toM p).eventPacket .toM p ws = ((s.chip.acked .toM p).setPart .toM (2 ^ 25 + unit) []).commitItem 3 unit ws := by
      refine (if_pos ⟨hws, by rwa [part_acked]⟩).trans ?_
      exact (if_neg (show unit ≠ unitWm by unfold unitWm; omega)).trans (if_pos hunit)
    rw [hcommits]
    refine ⟨?_, ?_, frame_setPart_commitItem ..⟩
    · rw [items_commitItem, Chip.weir, setPart_core, acked_core]
      rfl
    · rw [frame_commitItem]
      exact part_setPart (s.chip.acked .toM p) .toM (2 ^ 25 + unit) []
  · refine completes_receive (f := fun c => c.eventPacket .toM p ws) rfl h (by decide) ?_
    have hkeeps : (s.chip.acked .toM p).eventPacket .toM p ws =
        (s.chip.acked .toM p).setPart .toM (2 ^ 25 + unit) ((s.chip.flume .toM).part (2 ^ 25 + unit) ++ p.payload) := by
      rw [← part_acked _ .toM p]
      exact if_neg fun hwhole => hpart (part_acked s.chip .toM p _ ▸ hwhole.2)
    rw [hkeeps]
    exact ⟨part_setPart .., frame_acked_setPart ..⟩
  · refine completes_receive (f := fun c => c.dataPacket p) rfl h (by decide) ?_
    have hcommits : (s.chip.acked .toH p).dataPacket p =
        ((s.chip.acked .toH p).setPart .toH (rxTag p) []).commitItem 16 0 (pairWords (got ++ p.payload)) := by
      simp only [Chip.dataPacket, part_acked, hgot, if_neg hne, if_pos hlast]
    rw [hcommits]
    refine ⟨?_, frame_setPart_commitItem ..⟩
    rw [items_commitItem, Chip.weir, setPart_core, acked_core]
    rfl
  · refine completes_receive (f := fun c => c.dataPacket p) rfl h (by decide) ?_
    have hkeeps : (s.chip.acked .toH p).dataPacket p = (s.chip.acked .toH p).setPart .toH (rxTag p) (got ++ p.payload) := by
      simp only [Chip.dataPacket, part_acked, hgot, if_neg hne, if_neg hmore.not_ge]
    rw [hkeeps]
    exact ⟨part_setPart .., frame_acked_setPart ..⟩
  · refine completes_receive (f := fun c => c.headPacket p) rfl h (by decide) ?_
    have hcommits : (s.chip.acked .toH p).headPacket p = (s.chip.acked .toH p).commitItem 16 0 (pairWords p.payload) :=
      if_neg halone.not_ge
    rw [hcommits]
    refine ⟨?_, by rw [frame_commitItem, frame_acked]⟩
    rw [items_commitItem, Chip.weir, acked_core]
    rfl
  · refine completes_receive (f := fun c => c.headPacket p) rfl h (by decide) ?_
    have hkeeps : (s.chip.acked .toH p).headPacket p = (s.chip.acked .toH p).setPart .toH (rxTag p) p.payload := if_pos hhead
    rw [hkeeps]
    exact ⟨part_setPart .., frame_acked_setPart ..⟩
  · refine completes_receive (f := fun c => c.writePacket p) rfl h (by decide) ?_
    have hkeeps : (s.chip.acked .toM p).writePacket p = (s.chip.acked .toM p).setPart .toM (65536 * unit + rxTag p) got := by
      simp only [Chip.writePacket, part_acked]
      rw [show (s.chip.flume .toM).part (65536 * rxUnit p + rxTag p) ++ p.payload = got from hgot]
      exact if_neg hmore.not_ge
    rw [hkeeps]
    exact ⟨part_setPart .., frame_acked_setPart ..⟩
  · obtain ⟨it, hslot, huser, harrived⟩ := writeArrived_item ((s.chip.acked .toM p).setPart .toM (65536 * unit + rxTag p) []) unit hflag
    refine completes_receive (f := fun c => c.writePacket p) rfl h (by decide) ?_
    have hcommits : (s.chip.acked .toM p).writePacket p =
        ((s.chip.acked .toM p).setPart .toM (65536 * unit + rxTag p) []).writeArrived unit got := by
      simp only [Chip.writePacket, part_acked]
      rw [show (s.chip.flume .toM).part (65536 * rxUnit p + rxTag p) ++ p.payload = got from hgot]
      exact (if_pos hlast).trans (if_pos (decide_eq_true hunit))
    rw [hcommits, harrived]
    refine ⟨⟨it, ?_, hslot, huser⟩, ?_⟩
    · rw [wch_askReadBack, wch_setWch]
      simp [Chip.setPart, Chip.acked]
    · rw [frame_askReadBack, frame_acked_setPart]
      rfl

/-! ### O17: retraining (R46, R47, R49) -/

theorem retraining_startRetrain (c : Chip) : c.startRetrain.flag FLM_STATUS_RETRAINING = true ∧
    c.fieldsKept [FLM_STATUS_RETRAINING] c.startRetrain ∧ c.startRetrain = { c with regs := c.startRetrain.regs } :=
  ⟨flag_startRetrain c, fieldsKept_setFld _ _ (by simp) (fieldsKept_refl _ _), rfl⟩

/-- The fields that a training writes, and what it writes. -/
theorem trained_wide {c : Chip} {tx rx : BitVec 16} {w : Nat} (hw : widest (tx &&& rx).toNat = some w) (hmin : c.fld FLM_CTRL_MIN_WIDTH ≤ w) :
    c.trained tx rx = ((((c.setFld FLM_LANE_STATUS_TX_OK tx.toNat).setFld FLM_LANE_STATUS_RX_OK rx.toNat).setFld FLM_STATUS_RETRAINING 0).setFld
      FLM_STATUS_UP 1).setFld FLM_STATUS_WIDTH w := by
  have hkept : (((c.setFld FLM_LANE_STATUS_TX_OK tx.toNat).setFld FLM_LANE_STATUS_RX_OK rx.toNat).setFld FLM_STATUS_RETRAINING 0).fld
      FLM_CTRL_MIN_WIDTH = c.fld FLM_CTRL_MIN_WIDTH := by
    rw [fld_setFld_apart _ _ _ _ (by decide) (by decide), fld_setFld_apart _ _ _ _ (by decide) (by decide),
      fld_setFld_apart _ _ _ _ (by decide) (by decide)]
  simp only [Chip.trained, hw, hkept]
  exact if_neg hmin.not_gt

theorem widest_le {ok w : Nat} (h : widest ok = some w) : w ≤ 2 := by
  unfold widest at h
  split_ifs at h
  all_goals
    obtain rfl := Option.some.inj h
    decide

/-- What a training that finds width `w` leaves. -/
structure Trained (tx rx : BitVec 16) (w : Nat) (c c' : Chip) : Prop where
  up : c'.flag FLM_STATUS_UP = true
  idle : c'.flag FLM_STATUS_RETRAINING = false
  width : c'.fld FLM_STATUS_WIDTH = w
  tx : c'.fld FLM_LANE_STATUS_TX_OK = tx.toNat
  rx : c'.fld FLM_LANE_STATUS_RX_OK = rx.toNat
  fields : c.fieldsKept [FLM_STATUS_RETRAINING, FLM_STATUS_UP, FLM_STATUS_WIDTH, FLM_LANE_STATUS_TX_OK, FLM_LANE_STATUS_RX_OK] c'
  frame : c' = { c with regs := c'.regs }

theorem trained_trained {c : Chip} {tx rx : BitVec 16} {w : Nat} (hw : widest (tx &&& rx).toNat = some w) (hmin : c.fld FLM_CTRL_MIN_WIDTH ≤ w) :
    Trained tx rx w c (c.trained tx rx) := by
  have hwidth : w % 2 ^ FLM_STATUS_WIDTH.w = w := Nat.mod_eq_of_lt (lt_of_le_of_lt (widest_le hw) (by decide))
  have htx : tx.toNat % 2 ^ FLM_LANE_STATUS_TX_OK.w = tx.toNat := Nat.mod_eq_of_lt tx.isLt
  have hrx : rx.toNat % 2 ^ FLM_LANE_STATUS_RX_OK.w = rx.toNat := Nat.mod_eq_of_lt rx.isLt
  rw [trained_wide hw hmin]
  refine ⟨?_, ?_, ?_, ?_, ?_, ?_, rfl⟩
  · simp (disch := decide) only [Chip.flag, fld_setFld_apart, fld_setFld_same]
    rfl
  · simp (disch := decide) only [Chip.flag, fld_setFld_apart, fld_setFld_same]
    rfl
  · rw [fld_setFld_same _ _ _ (by decide), hwidth]
  · simp (disch := decide) only [fld_setFld_apart, fld_setFld_same, htx]
  · simp (disch := decide) only [fld_setFld_apart, fld_setFld_same, hrx]
  · exact fieldsKept_setFld _ _ (by simp) (fieldsKept_setFld _ _ (by simp) (fieldsKept_setFld _ _ (by simp) (fieldsKept_setFld _ _ (by simp)
      (fieldsKept_setFld _ _ (by simp) (fieldsKept_refl _ _)))))

/-- Both watermasters hear their peers and find nothing against them. -/
theorem judgePeers_well {c : Chip} (hcarrying : c.carrying = true) (h : ∀ d, (c.wm d).missFlume = false ∧ (c.wm d).missPulse = false) :
    ∃ x y, (c.judgePeer .h).judgePeer .m = (c.setWm .h x).setWm .m y := by
  obtain ⟨x, -, -, hx⟩ := judgePeer_well hcarrying (h .h).1 (h .h).2
  obtain ⟨y, -, -, hy⟩ := judgePeer_well (c := c.setWm .h x) (d := .m) hcarrying (h .m).1 (h .m).2
  exact ⟨x, y, by rw [hx, hy]⟩

/-- The Flume notes that a retraining has ended, and whether it dropped lanes. -/
def Chip.retrainNoted (c : Chip) (dropped : Bool) : Chip :=
  ((c.inc FLM_RETRAINS_COUNT).mark FLM_EVENT_RETRAIN_DONE).when dropped fun c => c.mark FLM_EVENT_LANE_DROPPED

theorem fieldsKept_retrainNoted (c : Chip) (dropped : Bool) :
    c.fieldsKept [FLM_RETRAINS_COUNT, FLM_EVENT_RETRAIN_DONE, FLM_EVENT_LANE_DROPPED] (c.retrainNoted dropped) := by
  have hdone : c.fieldsKept [FLM_RETRAINS_COUNT, FLM_EVENT_RETRAIN_DONE, FLM_EVENT_LANE_DROPPED]
      ((c.inc FLM_RETRAINS_COUNT).mark FLM_EVENT_RETRAIN_DONE) :=
    fieldsKept_mark _ (by simp) (fieldsKept_inc _ (by simp) (fieldsKept_refl _ _))
  exact fieldsKept_when _ _ hdone (fieldsKept_mark _ (by simp) hdone)

theorem frame_retrainNoted (c : Chip) (dropped : Bool) : c.retrainNoted dropped = { c with regs := (c.retrainNoted dropped).regs } := by
  cases dropped <;> rfl

theorem done_retrainNoted (c : Chip) (dropped : Bool) : (c.retrainNoted dropped).flag FLM_EVENT_RETRAIN_DONE = true := by
  have hdone : ((c.inc FLM_RETRAINS_COUNT).mark FLM_EVENT_RETRAIN_DONE).flag FLM_EVENT_RETRAIN_DONE = true :=
    flag_mark_same _ _ (by decide) (by decide)
  cases dropped with
  | false => exact hdone
  | true => exact (flag_setFld_apart _ _ FLM_EVENT_LANE_DROPPED 1 (by decide) (by decide)).trans hdone

theorem dropped_retrainNoted (c : Chip) (dropped : Bool) :
    (c.retrainNoted dropped).flag FLM_EVENT_LANE_DROPPED = (c.flag FLM_EVENT_LANE_DROPPED || dropped) := by
  cases dropped with
  | false =>
    refine Eq.trans ?_ (Bool.or_false _).symm
    exact (flag_setFld_apart _ _ FLM_EVENT_RETRAIN_DONE 1 (by decide) (by decide)).trans
      (flag_setFld_apart _ _ FLM_RETRAINS_COUNT _ (by decide) (by decide))
  | true => exact (flag_mark_same _ _ (by decide) (by decide)).trans (Bool.or_true _).symm

theorem wm_of_sup {c c' : Chip} (h : c'.sup = c.sup) (d : Die) : c'.wm d = c.wm d := by cases d <;> simp [Chip.wm, h]

/-- A retraining that ends with a working width on a Flume that was up. -/
theorem retrained_up {c : Chip} {tx rx : BitVec 16} {w : Nat} (hretraining : c.flag FLM_STATUS_RETRAINING = true)
    (hup : c.flag FLM_STATUS_UP = true) (hwait : c.arch.mdieWait = []) (hwell : ∀ d, (c.wm d).missFlume = false ∧ (c.wm d).missPulse = false)
    (ht : Trained tx rx w c (c.trained tx rx)) : ∃ x y, c.retrained tx rx =
      (((c.trained tx rx).retrainNoted (decide (w < c.fld FLM_STATUS_WIDTH))).setWm .h x).setWm .m y := by
  have hemptied : { c.trained tx rx with arch := { (c.trained tx rx).arch with mdieWait := [] } } = c.trained tx rx := by
    rw [ht.frame, ← hwait]
  have hwidth : (((c.trained tx rx).inc FLM_RETRAINS_COUNT).mark FLM_EVENT_RETRAIN_DONE).fld FLM_STATUS_WIDTH = w :=
    (fieldsKept_retrainNoted (c.trained tx rx) false FLM_STATUS_WIDTH (by decide) (by decide)).trans ht.width
  have hkept := fieldsKept_retrainNoted (c.trained tx rx) (decide (w < c.fld FLM_STATUS_WIDTH))
  have hcarrying : ((c.trained tx rx).retrainNoted (decide (w < c.fld FLM_STATUS_WIDTH))).carrying = true := by
    rw [carrying_of_fld (hkept _ (by decide) (by decide)) (hkept _ (by decide) (by decide)), Chip.carrying, ht.up, ht.idle]
    rfl
  have hsup : ((c.trained tx rx).retrainNoted (decide (w < c.fld FLM_STATUS_WIDTH))).sup = c.sup := by rw [frame_retrainNoted, ht.frame]
  obtain ⟨x, y, hjudged⟩ := judgePeers_well hcarrying fun d => by rw [wm_of_sup hsup]; exact hwell d
  refine ⟨x, y, ?_⟩
  rw [← hjudged]
  unfold Chip.retrained
  simp only [hretraining, Bool.not_true, Bool.false_eq_true, if_false, hup, hwait, hemptied, ht.up, if_true, true_and, List.foldl_nil, hwidth]
  unfold Chip.retrainNoted Chip.when
  simp only [decide_eq_true_eq]

/-- Which lanes give which width (R47): all, either half, any quarter. -/
theorem widest_full (ok : Nat) : widest ok = some 2 ↔ ok = 0xFFFF := by
  unfold widest
  split_ifs <;> simp_all

theorem widest_half (ok : Nat) : widest ok = some 1 ↔ ok ≠ 0xFFFF ∧ (ok % 256 = 255 ∨ ok / 256 = 255) := by
  unfold widest
  split_ifs <;> simp_all

theorem widest_none (ok : Nat) : widest ok = none ↔ ∀ k ∈ [0, 4, 8, 12], bitsOf ok k 4 ≠ 15 := by
  have hquarter : ([0, 4, 8, 12].any fun k => bitsOf ok k 4 == 15) = true ↔ ¬ ∀ k ∈ [0, 4, 8, 12], bitsOf ok k 4 ≠ 15 := by
    simp only [List.any_eq_true, beq_iff_eq]
    push Not
    rfl
  have hhalf : ok % 256 = 255 ∨ ok / 256 = 255 → ¬ ∀ k ∈ [0, 4, 8, 12], bitsOf ok k 4 ≠ 15 := by
    rintro (hlow | hhigh) hall
    · exact hall 0 (by simp) (by simp only [bitsOf]; omega)
    · exact hall 8 (by simp) (by simp only [bitsOf]; omega)
  unfold widest
  split_ifs with hfull hhalves hany
  · exact iff_of_false (by simp) (hhalf (.inl (by omega)))
  · exact iff_of_false (by simp) (hhalf hhalves)
  · exact iff_of_false (by simp) (hquarter.mp hany)
  · exact iff_of_true rfl (not_not.mp fun h => hany (hquarter.mpr h))

/-! ### O17: time exchanges (R60, R61) and register requests (R50) -/

/-- What the loss of the alignment leaves, where the copies were aligned. -/
theorem unaligned_aligned {c : Chip} (h : c.flag FLM_STATUS_LEDGER_ALIGNED = true) : c.unaligned =
    ((({ c with arch := { c.arch with goodExchanges := 0 } } : Chip).setFld FLM_STATUS_LEDGER_ALIGNED 0).mark FLM_EVENT_SKEW_EXCEEDED).log
      0x0104 .h [c.fld FLM_LEDGER_SKEW_SKEW] := if_pos h

/-- An M-die register shows nothing that the Flume's own state decides. -/
theorem regNow_acked (c : Chip) (d : Dir) (p : Rx) {k : Nat} (r : RegDef) (h : 0x100000 ≤ k % portKey) :
    (c.acked d p).regNow k r = c.regNow k r := by
  have hlive (o : Nat) : (c.acked d p).liveM o = c.liveM o := by rw [frame_acked]; rfl
  unfold Chip.regNow
  simp only [if_neg h.not_gt, hlive, Chip.reg, acked_regs]

theorem regPlace_mdie {x off k : Nat} {r : RegDef} (hoff : isMdie off = true) (h : regPlace x off = some (k, r, false)) : k = off := by
  have hrange : 0x100000 ≤ off ∧ off < 0x700000 := by simpa [isMdie] using hoff
  have hone : perPort off = false := by
    simp only [perPort, List.contains_eq_any_beq, List.any_cons, List.any_nil, Bool.or_false, Bool.or_eq_false_iff, beq_eq_false_iff_ne]
    omega
  unfold regPlace at h
  rw [hone] at h
  simp only [Bool.false_eq_true, if_false] at h
  cases hreg : regAt off with
  | some d => simp_all
  | none =>
    rw [hreg] at h
    split_ifs at h
    · simp [Option.map_eq_some_iff] at h

/-- A 4-byte read of an M-die register shows it and changes nothing, but for LE_MEM_DATA. -/
theorem readBar_mdie {c : Chip} {a : Agent} {off k : Nat} {r : RegDef} (hoff : isMdie off = true) (halign : off % 4 = 0)
    (hsealed : c.flag GEN_CONFIG_SEALED = true) (hplace : regPlace (agentPort a) off = some (k, r, false)) (hnarrow : r.wide = false)
    (habsent : c.absent k = false) (hplain : (off - 0x410000) % 0x4000 ≠ 0x1c) :
    c.readBar a off 4 = (((c.regNow k r).setWidth 32).setWidth 64, c) := by
  have hrange : 0x100000 ≤ off ∧ off < 0x700000 := by simpa [isMdie] using hoff
  have hserved : c.served off = true := by simp [Chip.served, hsealed]
  have hcell : c.cell a off = ((c.regNow k r).setWidth 32, c) := by
    unfold Chip.cell
    rw [if_neg (by simp [hserved]), if_neg (by omega), hplace]
    simp only [habsent, Bool.false_eq_true, if_false, hplain, and_false]
  have hread : c.read4 a off = ((c.regNow k r).setWidth 32, c) := by
    unfold Chip.read4
    simp only [hplace, hnarrow, hcell, Bool.false_eq_true, if_false]
  unfold Chip.readBar
  simp only [halign, hread, and_self, if_true]

/-- Settles O17. -/
theorem flumeRetrains : Obligations.FlumeRetrains := by
  unfold Obligations.FlumeRetrains
  refine ⟨⟨fun s i d lane hi => ?begins, fun s tx rx w hretraining hup hwait hwell hw hmin => ?ends, fun ok _ => ⟨widest_full ok, widest_half ok,
      widest_none ok⟩⟩,
    fun s => ⟨fun hup => ?sends, fun haligned => ?timeout, fun p a off k r v h hoff halign hsealed hplace hnarrow habsent hplain => ?request⟩⟩
  case begins =>
    obtain rfl | ⟨rfl, hup⟩ | ⟨rfl, hdown⟩ := hi
    · exact completes_on (f := Chip.startRetrain) rfl (retraining_startRetrain _)
    · exact completes_on (f := fun c => c.when (c.flag FLM_STATUS_UP) Chip.startRetrain) rfl
        (by simpa only [Chip.when, hup, if_true] using retraining_startRetrain s.chip)
    · exact completes_on (f := fun c => c.when (!c.flag FLM_STATUS_UP) Chip.startRetrain) rfl
        (by simpa only [Chip.when, hdown, Bool.not_false, if_true] using retraining_startRetrain s.chip)
  case ends =>
    have ht := trained_trained hw hmin
    obtain ⟨x, y, hretrained⟩ := retrained_up hretraining hup hwait hwell ht
    have hkept := fieldsKept_retrainNoted (s.chip.trained tx rx) (decide (w < s.chip.fld FLM_STATUS_WIDTH))
    refine completes_on (f := fun c => c.retrained tx rx) rfl ?_
    rw [hretrained]
    simp only [flag_setWm, fld_setWm, done_retrainNoted, dropped_retrainNoted, true_and]
    refine ⟨?_, (hkept _ (by decide) (by decide)).trans ht.width, (hkept _ (by decide) (by decide)).trans ht.tx,
      (hkept _ (by decide) (by decide)).trans ht.rx, ?_, ?_, ?_⟩
    · have hup : ((s.chip.trained tx rx).retrainNoted (decide (w < s.chip.fld FLM_STATUS_WIDTH))).carrying = true := by
        rw [carrying_of_fld (hkept _ (by decide) (by decide)) (hkept _ (by decide) (by decide)), Chip.carrying, ht.up, ht.idle]
        rfl
      exact hup
    · rw [flag_eq_of_fld (ht.fields _ (by decide) (by decide))]
    · refine fieldsKept_regs (by simp) (fieldsKept_trans (fieldsKept_weaken ?_ ht.fields) (fieldsKept_weaken ?_ hkept))
      · simp
      · simp
    · refine bytesKept_of_eq ?_ ?_ ?_
      all_goals
        rw [frame_retrainNoted, ht.frame]
        rfl
  case sends =>
    refine completes_on (f := fun c => c.when (c.flag FLM_STATUS_UP) fun c => c.flumeReady .toM ⟨2, 0, 0, 0, payloadOf [c.nowH]⟩) rfl ?_
    simp only [Chip.when, hup, if_true]
    exact ⟨rfl, rfl⟩
  case timeout =>
    refine completes_on (f := Chip.unaligned) rfl ⟨flag_unaligned _, ?_, by rw [unaligned_arch], ?_, fieldsKept_unaligned _, ?_⟩
    all_goals rw [unaligned_aligned haligned]
    · exact flag_mark_same _ _ (by decide) (by decide)
    · rw [items_log]
      rfl
    · exact bytesKept_of_eq rfl rfl rfl
  case request =>
    refine completes_receive (f := fun c => c.request (rxTag p) ⟨a, false, off, 4, v, 0⟩) rfl h (by decide) ?_
    obtain rfl := regPlace_mdie hoff hplace
    have hmdie : 0x100000 ≤ k % portKey := by
      have hrange : 0x100000 ≤ k ∧ k < 0x700000 := by simpa [isMdie] using hoff
      rw [Nat.mod_eq_of_lt (lt_trans hrange.2 (by decide))]
      exact hrange.1
    have hread := readBar_mdie (c := s.chip.acked .toM p) hoff halign ((flag_acked ..).trans hsealed) hplace hnarrow
      (by simpa [Chip.absent] using habsent) hplain
    rw [regNow_acked _ _ _ _ hmdie] at hread
    have hanswered : (s.chip.acked .toM p).request (rxTag p) ⟨a, false, k, 4, v, 0⟩ = (s.chip.acked .toM p).flumeReady .toH
        ⟨4, 0, 0, rxTag p, payloadOf [((s.chip.regNow k r).setWidth 32).setWidth 64]⟩ := by
      simp only [Chip.request, hoff, hread, Bool.not_true, Bool.false_eq_true, if_false]
    rw [hanswered]
    exact ⟨rfl, rfl, rfl⟩

end Sys2Proof.Machine
end

section
/-! Proofs about lanes: slots, wobble lock, groove addresses (O38). -/

namespace Sys2Proof.Machine

/-! ### Frames of lane operations -/

/-- Registers, front end and lanes may change, and nothing else. -/
def LaneFrame (c c' : Chip) : Prop :=
  c' = { c with regs := c'.regs, afe := c'.afe, path := { c.path with lanes := c'.path.lanes } }

theorem LaneFrame.trans {a b c : Chip} (h : LaneFrame a b) (h' : LaneFrame b c) : LaneFrame a c := by
  rw [LaneFrame] at *
  rw [h', h]

theorem LaneFrame.refl (c : Chip) : LaneFrame c c := rfl
theorem LaneFrame.setFld {a b : Chip} (f v) (h : LaneFrame a b) : LaneFrame a (b.setFld f v) := h.trans rfl
theorem LaneFrame.setFlag {a b : Chip} (f v) (h : LaneFrame a b) : LaneFrame a (b.setFlag f v) := h.trans rfl
theorem LaneFrame.inc {a b : Chip} (f) (h : LaneFrame a b) : LaneFrame a (b.inc f) := h.trans rfl
theorem LaneFrame.setAfeLane {a b : Chip} (l x) (h : LaneFrame a b) : LaneFrame a (b.setAfeLane l x) := h.trans rfl
theorem LaneFrame.setLane {a b : Chip} (l x) (h : LaneFrame a b) : LaneFrame a (b.setLane l x) := h.trans rfl

theorem LaneFrame.bytesKept {a b : Chip} (h : LaneFrame a b) : a.bytesKept b := by
  rw [LaneFrame] at h
  rw [h]
  exact bytesKept_of_eq rfl rfl rfl

@[simp] theorem lane_updLane (c : Chip) (l f) : (c.updLane l f).lane l = f (c.lane l) := lane_setLane ..
theorem lane_updLane_other (c : Chip) {l k : Nat} (f) (h : k ≠ l) : (c.updLane l f).lane k = c.lane k := lane_setLane_other _ _ _ _ h
@[simp] theorem lane_setFld (c : Chip) (f v k) : (c.setFld f v).lane k = c.lane k := (rfl)
@[simp] theorem lane_setFlag (c : Chip) (f v k) : (c.setFlag f v).lane k = c.lane k := (rfl)
@[simp] theorem lane_mark (c : Chip) (f k) : (c.mark f).lane k = c.lane k := (rfl)
@[simp] theorem lane_inc (c : Chip) (f k) : (c.inc f).lane k = c.lane k := (rfl)
@[simp] theorem lane_setAfeLane (c : Chip) (l x k) : (c.setAfeLane l x).lane k = c.lane k := (rfl)
@[simp] theorem updLane_regs (c : Chip) (l f) : (c.updLane l f).regs = c.regs := rfl
@[simp] theorem fld_updLane (c : Chip) (l f g) : (c.updLane l f).fld g = c.fld g := (rfl)
@[simp] theorem flag_updLane (c : Chip) (l f g) : (c.updLane l f).flag g = c.flag g := (rfl)
@[simp] theorem updReport_regs (c : Chip) (l f) : (c.updReport l f).regs = c.regs := rfl
@[simp] theorem fld_updReport (c : Chip) (l f g) : (c.updReport l f).fld g = c.fld g := (rfl)
@[simp] theorem flag_updReport (c : Chip) (l f g) : (c.updReport l f).flag g = c.flag g := (rfl)

/-- Without a gain step asked for, the written settings of a lane's front end come into force and nothing else happens. -/
theorem afeApply_no_step {c : Chip} {l : Nat} (h : (c.afeLane l).step = none) :
    ∃ now : AfeLane, c.afeApply l = (c.setAfeLane l now).setFld (AFE_LANE_CFG_PENDING (l / 8) (l % 8)) 0 := by
  unfold Chip.afeApply
  simp only [h]
  exact ⟨_, rfl⟩

/-- The analog side of a landing load: the entry's fields come into force at once. -/
def Chip.landAnalog (c : Chip) (l : Nat) (e : ZEntry) : Chip :=
  let p := l / 8
  let k := l % 8
  let c := c.setFld (AFE_LANE_CFG_GAIN p k) e.gain
  let c := c.setFld (AFE_LANE_CFG_CORNER p k) (if c.slow p then e.corner - 15 else e.corner)
  (c.setFld (AFE_LANE_CFG_BOOST p k) e.boost).setFld (AFE_LANE_OFFSET_OFFSET p k) e.offset

theorem laneFrame_landAnalog (c : Chip) (l : Nat) (e : ZEntry) : LaneFrame c (c.landAnalog l e) :=
  ((((LaneFrame.refl c).setFld _ _).setFld _ _).setFld _ _).setFld _ _

theorem lane_landAnalog (c : Chip) (l : Nat) (e : ZEntry) (k : Nat) : (c.landAnalog l e).lane k = c.lane k := by
  simp [Chip.landAnalog]

/-- A landing load sets the loops of its lane from the entry; of the lane's slot and run nothing changes. -/
theorem landLoad_eq (c : Chip) (l : Nat) (e : ZEntry) : ∃ c' : Chip, LaneFrame c c' ∧ (∀ k, c'.lane k = c.lane k) ∧
    c.landLoad l e = c'.updLane l fun x => { x with main := some e.loops, tag := none, pipe := {}, f := 0, phi := 0 } := by
  obtain ⟨now, hnow⟩ := afeApply_no_step
    (c := (c.landAnalog l e).setAfeLane l { (c.landAnalog l e).afeLane l with step := none }) (l := l) (by simp)
  refine ⟨((((c.landAnalog l e).setAfeLane l { (c.landAnalog l e).afeLane l with step := none }).afeApply l).setFld
    (RCH_STATUS_GAIN_LIMIT l) 0).setFlag (RCH_STATUS_FACTORY_SEED l) e.factory |>.inc (RCH_LANDINGS_COUNT l), ?_, fun k => ?_, ?_⟩
  · rw [hnow]
    exact (((((((laneFrame_landAnalog c l e).setAfeLane _ _).setAfeLane _ _).setFld _ _).setFld _ _).setFlag _ _).inc _)
  · simp only [lane_inc, lane_setFlag, lane_setFld, hnow, lane_setAfeLane, lane_landAnalog]
  · unfold Chip.landLoad Chip.landAnalog
    simp only

/-! ### Fields of one register -/

/-- Two fields that lie apart read apart after a chain of writes: the flag that a write of another field leaves. -/
theorem flag_setFlag_apart (c : Chip) (f g : Fld) (v : Bool) (hf : f.lo + f.w ≤ 64) (h : apart f g) : (c.setFlag g v).flag f = c.flag f :=
  flag_setFld_apart c f g _ hf h

theorem flag_setFld_zero (c : Chip) (f : Fld) (h : f.lo + f.w ≤ 64) : (c.setFld f 0).flag f = false := by
  simp [Chip.flag, fld_setFld_same _ _ _ h]

/-! ### O38: slots of a lane (R159, R192, R193) -/

/-- What the begin of an item leaves on lane `l`: the slot that is read, and its status. -/
structure Begun (l : Nat) (r : ArmRun) (c c' : Chip) : Prop where
  run : (c'.lane l).run = (c.lane l).run
  landNext : (c'.lane l).landNext = false
  cur : ∃ u, (c'.lane l).cur = some u ∧ u.report.pba = r.pba ∧ u.spans = 0 ∧
    u.report.landing = ((c.lane l).landNext || r.landing || c.flag (RCH_CTRL_FORCE_LAND l))
  active : c'.flag (RCH_STATUS_ACTIVE l) = true
  landing : c'.flag (RCH_STATUS_LANDING l) = ((c.lane l).landNext || r.landing || c.flag (RCH_CTRL_FORCE_LAND l))
  blank : c'.flag (RCH_STATUS_BLANK l) = false
  tag : c'.flag (RCH_STATUS_TAG_CONTEXT l) = false
  others : ∀ k, k ≠ l → c'.lane k = c.lane k
  frame : LaneFrame c c'

/-- The status of a lane whose slot begins. -/
def Chip.begunStatus (c : Chip) (l : Nat) (landing acquiring : Bool) : Chip :=
  ((((c.setFld (RCH_STATUS_ACTIVE l) 1).setFlag (RCH_STATUS_LANDING l) landing).setFld (RCH_STATUS_BLANK l) 0).setFld
    (RCH_STATUS_TAG_CONTEXT l) 0).setFlag (RCH_STATUS_ACQUIRING l) acquiring

theorem laneFrame_begunStatus {c c' : Chip} (l : Nat) (landing acquiring : Bool) (h : LaneFrame c c') :
    LaneFrame c (c'.begunStatus l landing acquiring) :=
  ((((h.setFld _ _).setFlag _ _).setFld _ _).setFld _ _).setFlag _ _

theorem flag_begunStatus (c : Chip) (l : Nat) (landing acquiring : Bool) :
    (c.begunStatus l landing acquiring).flag (RCH_STATUS_ACTIVE l) = true ∧
    (c.begunStatus l landing acquiring).flag (RCH_STATUS_LANDING l) = landing ∧
    (c.begunStatus l landing acquiring).flag (RCH_STATUS_BLANK l) = false ∧
    (c.begunStatus l landing acquiring).flag (RCH_STATUS_TAG_CONTEXT l) = false := by
  unfold Chip.begunStatus
  refine ⟨?_, ?_, ?_, ?_⟩
  · rw [flag_setFlag_apart, flag_setFld_apart, flag_setFld_apart, flag_setFlag_apart]
    · exact flag_mark_same _ _ (by simp [RCH_STATUS_ACTIVE]) (by simp [RCH_STATUS_ACTIVE])
    all_goals simp [apart, RCH_STATUS_ACTIVE, RCH_STATUS_LANDING, RCH_STATUS_BLANK, RCH_STATUS_TAG_CONTEXT, RCH_STATUS_ACQUIRING]
  · rw [flag_setFlag_apart, flag_setFld_apart, flag_setFld_apart]
    · exact flag_setFlag_same _ _ _ (by simp [RCH_STATUS_LANDING]) (by simp [RCH_STATUS_LANDING])
    all_goals simp [apart, RCH_STATUS_LANDING, RCH_STATUS_BLANK, RCH_STATUS_TAG_CONTEXT, RCH_STATUS_ACQUIRING]
  · rw [flag_setFlag_apart, flag_setFld_apart]
    · exact flag_setFld_zero _ _ (by simp [RCH_STATUS_BLANK])
    all_goals simp [apart, RCH_STATUS_BLANK, RCH_STATUS_TAG_CONTEXT, RCH_STATUS_ACQUIRING]
  · rw [flag_setFlag_apart]
    · exact flag_setFld_zero _ _ (by simp [RCH_STATUS_TAG_CONTEXT])
    all_goals simp [apart, RCH_STATUS_TAG_CONTEXT, RCH_STATUS_ACQUIRING]

/-- The front end and the loops of a lane at the begin of an item: loaded from the entry where the slot is a landing. -/
def Chip.landedSlot (c : Chip) (l : Nat) (e : Nat × ZEntry) (landing acq : Bool) : Chip :=
  let c := c.setAfeLane l { c.afeLane l with ref := c.adcRef }
  if landing then
    let c := c.landLoad l e.2
    c.updLane l fun x =>
      { x with acqAsk := false, acqLeft := if acq then c.fld (RCH_LAND_CFG_ACQ_BLOCKS l) else 0, acqAddr := e.1, acqFirst := none, acqLast := none,
               land := [(0, if acq then 57344 else c.fld (RCH_LAND_CFG_WINDOW l))] }
  else c.updLane l fun x => if 0 < x.acqLeft then { x with land := [(0, 57344)] } else x

theorem landedSlot_lands (c : Chip) (l : Nat) (e : Nat × ZEntry) (landing acq : Bool) : LaneFrame c (c.landedSlot l e landing acq) ∧
    ((c.landedSlot l e landing acq).lane l).run = (c.lane l).run ∧ ∀ k, k ≠ l → (c.landedSlot l e landing acq).lane k = c.lane k := by
  unfold Chip.landedSlot
  cases landing with
  | true =>
    obtain ⟨c', hframe, hlane, hland⟩ := landLoad_eq (c.setAfeLane l { c.afeLane l with ref := c.adcRef }) l e.2
    simp only [if_true, hland]
    refine ⟨(((LaneFrame.refl c).setAfeLane _ _).trans hframe).setLane _ _ |>.setLane _ _, ?_, fun k hk => ?_⟩
    · simp only [lane_updLane, hlane, lane_setAfeLane]
    · simp only [lane_updLane_other _ _ hk, hlane, lane_setAfeLane]
  | false =>
    simp only [Bool.false_eq_true, if_false]
    refine ⟨((LaneFrame.refl c).setAfeLane _ _).setLane _ _, ?_, fun k hk => ?_⟩
    · simp only [lane_updLane, lane_setAfeLane]
      split_ifs <;> rfl
    · simp only [lane_updLane_other _ _ hk, lane_setAfeLane]

/-- The begin of an item: the lane is made ready for its slot, then the slot is noted with its report and its status. -/
theorem beginItem_eq (c : Chip) (l : Nat) (r : ArmRun) : ∃ (e : Nat × ZEntry) (acq : Bool) (u : LaneCur) (main : LoopVals) (acquiring : Bool),
    u.report.pba = r.pba ∧ u.spans = 0 ∧ u.report.landing = ((c.lane l).landNext || r.landing || c.flag (RCH_CTRL_FORCE_LAND l)) ∧
    c.beginItem l r =
      (let landing := (c.lane l).landNext || r.landing || c.flag (RCH_CTRL_FORCE_LAND l)
       let c₁ := c.landedSlot l e landing acq
       (c₁.setLane l { c₁.lane l with cur := some u, entry := some e, landNext := false, main := some main }).begunStatus l landing acquiring) :=
  ⟨_, _, _, _, _, rfl, rfl, rfl, rfl⟩

theorem begun_beginItem (c : Chip) (l : Nat) (r : ArmRun) : Begun l r c (c.beginItem l r) := by
  obtain ⟨e, acq, u, main, acquiring, hpba, hspans, hlanding, hbegun⟩ := beginItem_eq c l r
  obtain ⟨hframe, hrun, hothers⟩ := landedSlot_lands c l e ((c.lane l).landNext || r.landing || c.flag (RCH_CTRL_FORCE_LAND l)) acq
  rw [hbegun]
  simp only
  set c₁ := c.landedSlot l e ((c.lane l).landNext || r.landing || c.flag (RCH_CTRL_FORCE_LAND l)) acq
  obtain ⟨hactive, hland, hblank, htag⟩ := flag_begunStatus
    (c₁.setLane l { c₁.lane l with cur := some u, entry := some e, landNext := false, main := some main }) l
    ((c.lane l).landNext || r.landing || c.flag (RCH_CTRL_FORCE_LAND l)) acquiring
  refine ⟨?_, ?_, ⟨u, ?_, hpba, hspans, hlanding⟩, hactive, hland, hblank, htag, fun k hk => ?_,
    laneFrame_begunStatus _ _ _ (hframe.setLane _ _)⟩
  · simp [Chip.begunStatus, hrun]
  · simp [Chip.begunStatus]
  · simp [Chip.begunStatus]
  · simp [Chip.begunStatus, lane_setLane_other _ _ _ _ hk, hothers k hk]

/-- At a boundary without a disarm and with slots left the run goes on, and whether the next slot lands is kept. -/
theorem boundary_armed {x : LaneRec} {r : ArmRun} (hdisarm : x.disarm = false) (hrun : x.run = some r) (hleft : r.left ≠ 0) :
    x.boundary.run = some r ∧ x.boundary.landNext = x.landNext := by
  simp [LaneRec.boundary, hdisarm, hrun, hleft]

theorem boundary_unarmed {x : LaneRec} (hrun : x.run = none) (hnext : x.next = none) :
    x.boundary.run = none ∧ x.boundary.cur = x.cur ∧ x.boundary.verify = x.verify := by
  by_cases hdisarm : x.disarm = true <;> simp [LaneRec.boundary, hdisarm, hrun, hnext]

/-- A slot that is armed, at its place, begins its item, and the run counts it. -/
theorem laneSlotStart_armed {c : Chip} {l : Nat} {r : ArmRun} (hcur : (c.lane l).cur = none) (hdisarm : (c.lane l).disarm = false)
    (hrun : (c.lane l).run = some r) (hleft : r.left ≠ 0) (hen : c.flag (RCH_CTRL_EN l) = true) :
    c.laneSlotStart l (pbaSlot r.pba) =
      ((c.updLane l LaneRec.boundary).updLane l fun x =>
        { x with run := some { r with pba := r.pba + 1, left := r.left - 1, landing := false } }).beginItem l r := by
  obtain ⟨hboundary, -⟩ := boundary_armed hdisarm hrun hleft
  unfold Chip.laneSlotStart
  simp only [hcur, Option.isSome_none, Bool.false_eq_true, if_false, lane_updLane, hboundary, ne_eq, not_true_eq_false, flag_updLane, hen, if_true]

theorem laneSlotStart_unarmed {c : Chip} {l : Nat} (slot : Nat) (hcur : (c.lane l).cur = none) (hrun : (c.lane l).run = none)
    (hnext : (c.lane l).next = none) (hverify : (c.lane l).verify = false) :
    c.laneSlotStart l slot = ((c.updLane l LaneRec.boundary).setFld (RCH_STATUS_LANDING l) 0).updLane l fun x => { x with landNext := true } := by
  obtain ⟨hboundary, -, hverify'⟩ := boundary_unarmed hrun hnext
  unfold Chip.laneSlotStart Chip.emptySlot
  simp only [hcur, Option.isSome_none, Bool.false_eq_true, if_false, lane_updLane, hboundary, hverify', hverify]

/-- What a loss of timing leaves where it cuts no pass (R165). -/
theorem timingLost_eq {c : Chip} {l : Nat} (h : l % 8 ≠ 0 ∨ (c.wch (l / 8)).pass = none) : c.timingLost l =
    (((c.mark (RCH_EVENT_TIMING_LOST l)).inc (RCH_TIMING_LOST_COUNT l)).updReport l fun r => { r with timingLost := true }).updLane l
      fun x => { x with landNext := true } := by
  have hpass (c' : Chip) (hc : c'.wch (l / 8) = c.wch (l / 8)) (h0 : l % 8 = 0) : c'.cutPass (l / 8) = c' := by
    have hnone := h.resolve_left (not_not.mpr h0)
    simp [Chip.cutPass, hc, hnone]
  unfold Chip.timingLost
  simp only
  split_ifs with h0
  · exact hpass _ rfl h0
  · rfl

theorem wobbleLock_setWobbleLock (c : Chip) (l : Nat) (b : Bool) : (c.setWobbleLock l b).flag (RCH_STATUS_WOBBLE_LOCK l) = b := by
  rw [Chip.setWobbleLock, flag_updLane, flag_setFlag_apart]
  · exact flag_setFlag_same _ _ _ (by simp [RCH_STATUS_WOBBLE_LOCK]) (by simp [RCH_STATUS_WOBBLE_LOCK])
  all_goals simp [apart, RCH_STATUS_WOBBLE_LOCK, RCH_STATUS, RCH_WOBBLE_LOCK, RCH_WOBBLE]

theorem lock_setWobbleLock (c : Chip) (l : Nat) (b : Bool) : (c.setWobbleLock l b).flag (RCH_WOBBLE_LOCK l) = b := by
  rw [Chip.setWobbleLock, flag_updLane]
  exact flag_setFlag_same _ (RCH_WOBBLE_LOCK l) b (by simp [RCH_WOBBLE_LOCK]) (by simp [RCH_WOBBLE_LOCK])

theorem fieldsKept_setWobbleLock (c : Chip) (l : Nat) (b : Bool) :
    c.fieldsKept [RCH_STATUS_WOBBLE_LOCK l, RCH_WOBBLE_LOCK l] (c.setWobbleLock l b) :=
  fieldsKept_regs (updLane_regs ..) (fieldsKept_setFlag _ _ (by simp) (fieldsKept_setFlag _ _ (by simp) (fieldsKept_refl _ _)))

theorem fieldsKept_timing (c : Chip) (l : Nat) : c.fieldsKept [RCH_EVENT_TIMING_LOST l, RCH_TIMING_LOST_COUNT l]
    ((((c.mark (RCH_EVENT_TIMING_LOST l)).inc (RCH_TIMING_LOST_COUNT l)).updReport l fun r => { r with timingLost := true }).updLane l
      fun x => { x with landNext := true }) :=
  fieldsKept_regs ((updLane_regs ..).trans (updReport_regs ..))
    (fieldsKept_inc _ (by simp) (fieldsKept_mark _ (by simp) (fieldsKept_refl _ _)))

theorem timingLost_flag (c : Chip) (l : Nat) :
    ((((c.mark (RCH_EVENT_TIMING_LOST l)).inc (RCH_TIMING_LOST_COUNT l)).updReport l fun r => { r with timingLost := true }).updLane l
      fun x => { x with landNext := true }).flag (RCH_EVENT_TIMING_LOST l) = true := by
  rw [flag_updLane, flag_updReport, Chip.inc, Chip.add, flag_setFld_apart]
  · exact flag_mark_same _ _ (by simp [RCH_EVENT_TIMING_LOST]) (by simp [RCH_EVENT_TIMING_LOST])
  all_goals simp [apart, RCH_EVENT_TIMING_LOST, RCH_EVENT, RCH_TIMING_LOST_COUNT, RCH_TIMING_LOST]

/-- A good groove address, off a verify lane and between slots, shows in LAST_PBA; a corrected one is counted (R164). -/
theorem gaddr_good {c : Chip} {l : Nat} {sums : List Int} (hlane : l % 8 ≠ 0) (hcur : (c.lane l).cur = none)
    (hgood : (gaddrRead (((c.lane l).main.map (·.amp)).getD 0) sums).1 ≠ .failed) : ∃ c' : Chip,
    (c' = c.setFld (RCH_LAST_PBA_PBA l) (gaddrRead (((c.lane l).main.map (·.amp)).getD 0) sums).2 ∨
      c' = (c.setFld (RCH_LAST_PBA_PBA l) (gaddrRead (((c.lane l).main.map (·.amp)).getD 0) sums).2).inc (RCH_GADDR_CORRECTED_COUNT l)) ∧
    c.gaddr l sums = c'.updReport l fun p =>
      { p with pba := (gaddrRead (((c.lane l).main.map (·.amp)).getD 0) sums).2,
               gaddr := if (gaddrRead (((c.lane l).main.map (·.amp)).getD 0) sums).1 = .ok then 0 else 1 } := by
  have hread : ((gaddrRead (((c.lane l).main.map (·.amp)).getD 0) sums).1 != .failed) = true := bne_iff_ne.mpr hgood
  unfold Chip.gaddr
  simp only [if_neg hlane, hcur, hread, Option.isNone_none, Bool.true_or, Bool.and_self, if_true]
  refine ⟨_, ?_, rfl⟩
  split_ifs
  · exact .inr rfl
  · exact .inl rfl

/-- Settles O38. -/
theorem laneSlots : Obligations.LaneSlots := by
  unfold Obligations.LaneSlots
  intro s l x
  refine ⟨fun r slot hslot hcur hdisarm hrun hleft hpba hen => ?armed, fun slot hslot hcur hrun hnext hverify => ?unarmed, fun hacq => ?window,
    fun dev corr => ⟨fun hunlocked => ?mark, fun hlocked hdev => ?markFar⟩, fun hunlocked hmarks => ?lock,
    fun hpass => ⟨fun hlocked => ?lockLost, fun hsat => ?loopLost⟩, fun sums hsums hlane hcur hgood => ?gaddr, fun hcur => ?saturated,
    fun up hcur hroom => ?gain⟩
  case armed =>
    subst hpba
    refine completes_onIf (f := fun c => c.laneSlotStart l (pbaSlot r.pba)) rfl (decide_eq_true hslot) ?_
    rw [laneSlotStart_armed hcur hdisarm hrun hleft hen]
    obtain ⟨hboundary, hlandNext⟩ := boundary_armed hdisarm hrun hleft
    set c := (s.chip.updLane l LaneRec.boundary).updLane l fun x =>
      { x with run := some { r with pba := r.pba + 1, left := r.left - 1, landing := false } } with hc
    have hb := begun_beginItem c l r
    have hland : ((c.lane l).landNext || r.landing || c.flag (RCH_CTRL_FORCE_LAND l)) =
        (x.landNext || r.landing || s.chip.flag (RCH_CTRL_FORCE_LAND l)) := by simp [hc, hlandNext, x]
    refine ⟨hb.run.trans (by simp [hc]), hb.landNext, hland ▸ hb.cur, hb.active, hland ▸ hb.landing, hb.blank, hb.tag, fun k hk => ?_,
      (show LaneFrame s.chip c from rfl).trans hb.frame |>.bytesKept⟩
    rw [hb.others k hk, hc, lane_updLane_other _ _ hk, lane_updLane_other _ _ hk]
  case unarmed =>
    refine completes_onIf (f := fun c => c.laneSlotStart l slot) rfl (decide_eq_true hslot) ?_
    rw [laneSlotStart_unarmed slot hcur hrun hnext hverify]
    obtain ⟨-, hcur', -⟩ := boundary_unarmed hrun hnext
    refine ⟨?_, by simp, flag_setFld_zero _ _ (by simp [RCH_STATUS_LANDING]), fieldsKept_setFld _ _ (by simp) (fieldsKept_of_regs rfl),
      bytesKept_of_eq rfl rfl rfl⟩
    rw [lane_updLane, lane_setFld, lane_updLane]
    exact hcur'.trans hcur
  case window =>
    refine completes_on (f := fun c => c.when ((c.lane l).acqLeft == 0) fun c => c.updLane l fun x =>
      { x with land := x.land.map (fun r => if r.1 = 0 then (0, c.fld (RCH_LAND_CFG_WINDOW l)) else r) }) rfl ?_
    have hacq : (s.chip.lane l).acqLeft = 0 := hacq
    simp only [Chip.when, hacq, beq_self_eq_true, if_true, lane_updLane]
    exact ⟨rfl, rfl, bytesKept_of_eq rfl rfl rfl⟩
  case mark =>
    refine completes_on (f := fun c => c.blockMark l dev corr) rfl ?_
    simp only [Chip.blockMark, hunlocked, Bool.false_eq_true, false_and, if_false, lane_updLane]
    exact ⟨rfl, rfl, bytesKept_of_eq rfl rfl rfl⟩
  case markFar =>
    refine completes_on (f := fun c => c.blockMark l dev corr) rfl ?_
    simp only [Chip.blockMark, hlocked, hdev, and_self, if_true]
    exact ⟨fld_inc_same _ _ (by simp [RCH_GADDR_FAILED_COUNT]), fieldsKept_inc _ (by simp) (fieldsKept_of_regs rfl), bytesKept_of_eq rfl rfl rfl⟩
  case lock =>
    refine completes_on (f := fun c => c.when (!c.flag (RCH_STATUS_WOBBLE_LOCK l) && decide (4 ≤ (c.lane l).marks)) fun c =>
      c.setWobbleLock l true) rfl ?_
    have hmarks : 4 ≤ (s.chip.lane l).marks := hmarks
    simp only [Chip.when, hunlocked, hmarks, Bool.not_false, decide_true, Bool.and_self, if_true]
    exact ⟨wobbleLock_setWobbleLock .., lock_setWobbleLock .., by simp [Chip.setWobbleLock], fieldsKept_setWobbleLock _ _ _, bytesKept_of_eq rfl rfl rfl⟩
  case lockLost =>
    refine completes_on (f := fun c => c.when (c.flag (RCH_STATUS_WOBBLE_LOCK l)) fun c => (c.setWobbleLock l false).timingLost l) rfl ?_
    simp only [Chip.when, hlocked, if_true]
    rw [timingLost_eq (by exact hpass)]
    have hkept := fieldsKept_timing (s.chip.setWobbleLock l false) l
    refine ⟨?_, ?_, timingLost_flag _ l, ?_, by rw [lane_updLane], ?_, bytesKept_of_eq rfl rfl rfl⟩
    · rw [flag_eq_of_fld (hkept _ _ _), wobbleLock_setWobbleLock]
      all_goals simp [apart, RCH_STATUS_WOBBLE_LOCK, RCH_STATUS, RCH_EVENT_TIMING_LOST, RCH_EVENT, RCH_TIMING_LOST_COUNT, RCH_TIMING_LOST]
    · rw [flag_eq_of_fld (hkept _ _ _), lock_setWobbleLock]
      all_goals simp [apart, RCH_WOBBLE_LOCK, RCH_WOBBLE, RCH_EVENT_TIMING_LOST, RCH_EVENT, RCH_TIMING_LOST_COUNT, RCH_TIMING_LOST]
    · rw [fld_updLane, fld_updReport, fld_inc_same _ _ (by simp [RCH_TIMING_LOST_COUNT]), Chip.mark, fld_setFld_apart,
        fieldsKept_setWobbleLock s.chip l false (RCH_TIMING_LOST_COUNT l)]
      all_goals simp [apart, RCH_STATUS_WOBBLE_LOCK, RCH_STATUS, RCH_WOBBLE_LOCK, RCH_WOBBLE, RCH_EVENT_TIMING_LOST, RCH_EVENT,
        RCH_TIMING_LOST_COUNT, RCH_TIMING_LOST]
    · simp [Chip.updReport, Chip.updCur]
  case loopLost =>
    refine completes_on (f := fun c => c.when (c.flag (RCH_STATUS_LOOP_SAT l)) fun c =>
      (c.setFld (RCH_STATUS_LOOP_SAT l) 0).timingLost l) rfl ?_
    simp only [Chip.when, hsat, if_true]
    rw [timingLost_eq (by exact hpass)]
    have hkept := fieldsKept_timing (s.chip.setFld (RCH_STATUS_LOOP_SAT l) 0) l
    refine ⟨?_, timingLost_flag _ l, by simp, ?_, bytesKept_of_eq rfl rfl rfl⟩
    · exact (flag_eq_of_fld (hkept _ (by simp [RCH_STATUS_LOOP_SAT]) (by
        simp [apart, RCH_STATUS_LOOP_SAT, RCH_STATUS, RCH_EVENT_TIMING_LOST, RCH_EVENT, RCH_TIMING_LOST_COUNT, RCH_TIMING_LOST]))).trans
        (flag_setFld_zero _ _ (by simp [RCH_STATUS_LOOP_SAT]))
    · exact fieldsKept_trans (fieldsKept_setFld _ _ (by simp) (fieldsKept_refl _ _)) (fieldsKept_weaken (by simp) hkept)
  case gaddr =>
    refine completes_onIf (f := fun c => c.gaddr l sums) rfl (by simp [hsums]) ?_
    obtain ⟨c', hc', hgaddr⟩ := gaddr_good hlane hcur hgood
    rw [hgaddr]
    have hset : (s.chip.setFld (RCH_LAST_PBA_PBA l) (gaddrRead ((x.main.map (·.amp)).getD 0) sums).2).fld (RCH_LAST_PBA_PBA l) =
        (gaddrRead ((x.main.map (·.amp)).getD 0) sums).2 % 2 ^ 40 := fld_setFld_same _ _ _ (by simp [RCH_LAST_PBA_PBA])
    have happart : apart (RCH_LAST_PBA_PBA l) (RCH_GADDR_CORRECTED_COUNT l) := by
      simp [apart, RCH_LAST_PBA_PBA, RCH_LAST_PBA, RCH_GADDR_CORRECTED_COUNT, RCH_GADDR_CORRECTED]
    refine ⟨?_, ?_, ?_⟩
    all_goals obtain rfl | rfl := hc'
    · exact hset
    · exact (fld_setFld_apart _ _ _ _ (by simp [RCH_LAST_PBA_PBA]) happart).trans hset
    · exact fieldsKept_setFld _ _ (by simp) (fieldsKept_refl _ _)
    · exact fieldsKept_inc _ (by simp) (fieldsKept_setFld _ _ (by simp) (fieldsKept_refl _ _))
    · exact bytesKept_of_eq rfl rfl rfl
    · exact bytesKept_of_eq rfl rfl rfl
  case saturated =>
    refine completes_on (f := fun c => c.when ((c.lane l).cur.isSome || (c.lane l).verify) fun c => c.mark (RCH_STATUS_LOOP_SAT l)) rfl ?_
    have hcur : (s.chip.lane l).cur.isSome = true := hcur
    simp only [Chip.when, hcur, Bool.true_or, if_true]
    exact ⟨flag_mark_same _ _ (by simp [RCH_STATUS_LOOP_SAT]) (by simp [RCH_STATUS_LOOP_SAT]), fieldsKept_mark _ (by simp) (fieldsKept_refl _ _), rfl⟩
  case gain =>
    refine ⟨_, rfl, rfl, ?_⟩
    have hcur : (s.chip.lane l).cur.isSome = true := hcur
    have hlimits : ¬ ((up = true ∧ 48 < s.chip.fld (AFE_LANE_CFG_GAIN (l.val / 8) (l.val % 8)) + 12) ∨
        ((!up) = true ∧ s.chip.fld (AFE_LANE_CFG_GAIN (l.val / 8) (l.val % 8)) < 12)) := by
      cases up <;> simp_all
    simp only [Chip.when, hcur, Bool.true_or, if_true, if_neg hlimits]
    exact ⟨by simp, flag_setFld_zero _ _ (by simp [RCH_STATUS_GAIN_LIMIT]), fieldsKept_regs rfl (fieldsKept_setFld _ _ (by simp) (fieldsKept_refl _ _)),
      bytesKept_of_eq rfl rfl rfl⟩

end Sys2Proof.Machine
end

section
/-! Proofs about lanes: tag context, defects, blank slots, spans, items, snapshots (O39). -/

namespace Sys2Proof.Machine

/-! ### Fields that lie apart -/

theorem apart_of_reg {f g : Fld} (h : f.reg ≠ g.reg) : apart f g := .inl h

theorem apart_of_bits {r lo w lo' w' : Nat} (h : lo + w ≤ lo' ∨ lo' + w' ≤ lo) : apart ⟨r, lo, w⟩ ⟨r, lo', w'⟩ := .inr h

@[simp] theorem lane_add (c : Chip) (f n k) : (c.add f n).lane k = c.lane k := (rfl)
@[simp] theorem lane_updReport_other (c : Chip) {l k : Nat} (f) (h : k ≠ l) : (c.updReport l f).lane k = c.lane k := lane_updLane_other _ _ h
@[simp] theorem lane_updReport (c : Chip) (l : Nat) (f) :
    (c.updReport l f).lane l = { c.lane l with cur := (c.lane l).cur.map fun u => { u with report := f u.report } } := lane_updLane ..

theorem fld_mark_apart (c : Chip) (f g : Fld) (hf : f.lo + f.w ≤ 64) (h : apart f g) : (c.mark g).fld f = c.fld f := fld_setFld_apart c f g 1 hf h
theorem fld_add_apart (c : Chip) (f g : Fld) (n : Nat) (hf : f.lo + f.w ≤ 64) (h : apart f g) : (c.add g n).fld f = c.fld f :=
  fld_setFld_apart c f g _ hf h
theorem fld_inc_apart (c : Chip) (f g : Fld) (hf : f.lo + f.w ≤ 64) (h : apart f g) : (c.inc g).fld f = c.fld f := fld_add_apart c f g 1 hf h
theorem flag_mark_apart (c : Chip) (f g : Fld) (hf : f.lo + f.w ≤ 64) (h : apart f g) : (c.mark g).flag f = c.flag f :=
  flag_setFld_apart c f g 1 hf h
theorem flag_add_apart (c : Chip) (f g : Fld) (n : Nat) (hf : f.lo + f.w ≤ 64) (h : apart f g) : (c.add g n).flag f = c.flag f :=
  flag_setFld_apart c f g _ hf h
theorem flag_inc_apart (c : Chip) (f g : Fld) (hf : f.lo + f.w ≤ 64) (h : apart f g) : (c.inc g).flag f = c.flag f := flag_add_apart c f g 1 hf h
theorem fld_add_same (c : Chip) (f : Fld) (n : Nat) (h : f.lo + f.w ≤ 64) : (c.add f n).fld f = min (c.fld f + n) (2 ^ f.w - 1) := by
  rw [Chip.add, fld_setFld_same c f _ h]
  exact Nat.mod_eq_of_lt (by have := Nat.two_pow_pos f.w; omega)

/-! ### Tag context, defects and blank slots (R186 to R194) -/

theorem completes_when {i : Instr} {s : State} {P : Chip → Prop} {b : Bool} {f : Chip → Chip} (h : exec i s = s.on fun c => c.when b f) (hb : b = true)
    (hp : P (f s.chip)) : Completes i s P :=
  completes_on h (by rwa [hb])

section Lane

variable {s : State} {l : Lane} {u : LaneCur} (hcur : (s.chip.lane l).cur = some u)

include hcur

theorem completes_tagContextStart : Completes (.tagContextStart l) s fun c =>
    c.flag (RCH_STATUS_TAG_CONTEXT l) = true ∧ s.chip.fieldsKept [RCH_STATUS_TAG_CONTEXT l] c ∧ (c.lane l).cur = some u ∧ s.chip.bytesKept c := by
  refine ⟨_, rfl, rfl, ?_⟩
  simp only [Chip.when, hcur, Option.isSome_some, if_true]
  refine ⟨?_, fieldsKept_regs (updLane_regs ..) (fieldsKept_setFld _ _ (by simp) (fieldsKept_refl _ _)), ?_, bytesKept_of_eq rfl rfl rfl⟩
  · rw [flag_updLane]
    exact flag_mark_same _ _ (by simp [RCH_STATUS_TAG_CONTEXT]) (by simp [RCH_STATUS_TAG_CONTEXT])
  · rw [lane_updLane, lane_setFld]
    split_ifs <;> exact hcur

theorem completes_blankDecision {dark : Nat} (hdark : dark ≤ 848) (hblank : 848 * 9 < dark * 10) : Completes (.blankDecision l dark) s fun c =>
    c.flag (RCH_STATUS_BLANK l) = true ∧ c.flag (RCH_STATUS_HOLD l) = true ∧
    c.fld (RCH_BLANK_COUNT l) = min (s.chip.fld (RCH_BLANK_COUNT l) + 1) (2 ^ 32 - 1) ∧
    (c.lane l).cur = some { u with report := { u.report with blank := true } } ∧ (∃ h, (c.lane l).hold = some h ∧ h.blank = true) ∧
    s.chip.fieldsKept [RCH_STATUS_BLANK l, RCH_STATUS_HOLD l, RCH_BLANK_COUNT l] c ∧ s.chip.bytesKept c := by
  refine completes_onIf (f := fun c => c.when ((c.lane l).cur.isSome) fun c => c.blankDecision l dark) rfl (decide_eq_true hdark) ?_
  simp only [Chip.when, hcur, Option.isSome_some, if_true, Chip.blankDecision, if_neg hblank.not_ge]
  refine ⟨?_, ?_, ?_, ?_, ⟨_, by rw [lane_updLane], rfl⟩, ?_, bytesKept_of_eq rfl rfl rfl⟩
  · rw [flag_updLane, flag_updReport, Chip.mark, Chip.inc, Chip.add, flag_setFld_apart, flag_setFld_apart]
    · exact flag_mark_same _ _ (by simp [RCH_STATUS_BLANK]) (by simp [RCH_STATUS_BLANK])
    all_goals simp [apart, RCH_STATUS_BLANK, RCH_STATUS_HOLD, RCH_STATUS, RCH_BLANK_COUNT, RCH_BLANK]
  · rw [flag_updLane, flag_updReport]
    exact flag_mark_same _ _ (by simp [RCH_STATUS_HOLD]) (by simp [RCH_STATUS_HOLD])
  · rw [fld_updLane, fld_updReport, Chip.mark, fld_setFld_apart, fld_inc_same, Chip.mark, fld_setFld_apart]
    all_goals simp [apart, RCH_STATUS_BLANK, RCH_STATUS_HOLD, RCH_STATUS, RCH_BLANK_COUNT, RCH_BLANK]
  · simp [hcur]
  · exact fieldsKept_regs ((updLane_regs ..).trans (updReport_regs ..)) (fieldsKept_mark _ (by simp) (fieldsKept_inc _ (by simp)
      (fieldsKept_mark _ (by simp) (fieldsKept_refl _ _))))

end Lane

/-! ### Spans (R166 to R183) -/

/-- What the registers note of a span that is over. -/
def Chip.spanNoted (c : Chip) (l : Nat) (sat ever again : Bool) : Chip :=
  ((c.setFlag (RCH_STATUS_LOOP_SAT l) sat).when ever fun c => c.mark (RCH_EVENT_LOOP_SAT l)).when again fun c => c.inc (RCH_REDETECTS_COUNT l)

theorem fieldsKept_spanNoted (c : Chip) (l : Nat) (sat ever again : Bool) :
    c.fieldsKept [RCH_STATUS_LOOP_SAT l, RCH_EVENT_LOOP_SAT l, RCH_REDETECTS_COUNT l] (c.spanNoted l sat ever again) := by
  have hsat : c.fieldsKept [RCH_STATUS_LOOP_SAT l, RCH_EVENT_LOOP_SAT l, RCH_REDETECTS_COUNT l] (c.setFlag (RCH_STATUS_LOOP_SAT l) sat) :=
    fieldsKept_setFlag _ _ (by simp) (fieldsKept_refl _ _)
  have hever := fieldsKept_when ever (fun c => c.mark (RCH_EVENT_LOOP_SAT l)) hsat (fieldsKept_mark _ (by simp) hsat)
  exact fieldsKept_when again _ hever (fieldsKept_inc _ (by simp) hever)

theorem frame_spanNoted (c : Chip) (l : Nat) (sat ever again : Bool) :
    c.spanNoted l sat ever again = { c with regs := (c.spanNoted l sat ever again).regs } := by
  cases ever <;> cases again <;> rfl

theorem lane_spanNoted (c : Chip) (l : Nat) (sat ever again : Bool) (k : Nat) : (c.spanNoted l sat ever again).lane k = c.lane k := by
  rw [frame_spanNoted]
  rfl

/-- What a span adds to the slot's item: one more span, its LLRs and its samples behind the others. -/
structure SpanAdded (u u' : LaneCur) (redetects : Nat) : Prop where
  spans : u'.spans = u.spans + 1
  llr : ∃ m, u'.llr = u.llr ++ m
  w : ∃ m, u'.w = u.w ++ m
  pba : u'.report.pba = u.report.pba
  timeouts : u'.report.timeouts = u.report.timeouts
  redetects : u'.report.redetects = u.report.redetects + redetects

theorem spanGo_eq {c : Chip} {l : Nat} {u : LaneCur} {v : LoopVals} {e : Nat × ZEntry} (hcur : (c.lane l).cur = some u)
    (hmain : (c.lane l).main = some v) (hentry : (c.lane l).entry = some e) (compare : Bool) (sp : SpanIn) :
    ∃ (x' : LaneRec) (sat ever again : Bool), (∃ u', x'.cur = some u' ∧ SpanAdded u u' (compare && again).toNat) ∧
      c.spanGo l compare sp = (c.setLane l x').spanNoted l sat ever (compare && again) := by
  unfold Chip.spanGo Chip.spanNoted Chip.when
  simp only [hcur, hmain, hentry]
  iterate 4 apply Exists.intro
  constructor
  rotate_left
  · exact rfl
  · exact ⟨_, rfl, rfl, ⟨_, rfl⟩, ⟨_, rfl⟩, rfl, rfl, rfl⟩

section Span

variable {s : State} {l : Lane} {u : LaneCur} {v : LoopVals} {e : Nat × ZEntry} {sp : SpanIn} (hcur : (s.chip.lane l).cur = some u)
  (hmain : (s.chip.lane l).main = some v) (hentry : (s.chip.lane l).entry = some e) (hok : spanOk sp = true) (hspans : u.spans < 29)
  (hshape : spanShape sp (spanLen u.spans) = true)

include hcur hspans hshape

theorem spanDue_of_shape : s.chip.spanDue l sp = true := by simp [Chip.spanDue, hcur, hspans, hshape]

include hmain hentry hok

theorem completes_spanConfirm : Completes (.spanConfirm l sp) s fun c =>
    (∃ u', (c.lane l).cur = some u' ∧ u'.spans = u.spans + 1 ∧ u'.llr.take u.llr.length = u.llr ∧ u'.w.take u.w.length = u.w ∧
      u'.report.pba = u.report.pba ∧ u'.report.timeouts = u.report.timeouts) ∧
    s.chip.fieldsKept [RCH_STATUS_LOOP_SAT l, RCH_EVENT_LOOP_SAT l, RCH_REDETECTS_COUNT l] c ∧ s.chip.bytesKept c := by
  refine completes_onIf (f := fun c => c.when (c.spanDue l sp) fun c => c.spanGo l true sp) rfl hok ?_
  obtain ⟨x', sat, ever, again, ⟨u', hcur', hadded⟩, hgo⟩ := spanGo_eq hcur hmain hentry true sp
  obtain ⟨llr, hllr⟩ := hadded.llr
  obtain ⟨w, hw⟩ := hadded.w
  simp only [Chip.when, spanDue_of_shape hcur hspans hshape, if_true, hgo]
  refine ⟨⟨u', ?_, hadded.spans, by simp [hllr], by simp [hw], hadded.pba, hadded.timeouts⟩,
    fieldsKept_trans (fieldsKept_of_regs (setLane_regs ..)) (fieldsKept_spanNoted _ _ _ _ _), ?_⟩
  · rw [lane_spanNoted, lane_setLane, hcur']
  · rw [frame_spanNoted]
    exact bytesKept_of_eq rfl rfl rfl

theorem completes_xtiTimeout : Completes (.xtiTimeout l sp) s fun c =>
    (∃ u', (c.lane l).cur = some u' ∧ u'.spans = u.spans + 1 ∧ u'.report.timeouts = u.report.timeouts + 1 ∧
      u'.report.redetects = u.report.redetects) ∧
    c.flag (RCH_EVENT_XTI_TIMEOUT l) = true ∧ c.fld (RCH_XTI_TIMEOUTS_COUNT l) = min (s.chip.fld (RCH_XTI_TIMEOUTS_COUNT l) + 1) (2 ^ 32 - 1) ∧
    s.chip.bytesKept c := by
  refine completes_onIf (f := fun c => c.when (c.spanDue l sp) fun c =>
    (((c.spanGo l false sp).inc (RCH_XTI_TIMEOUTS_COUNT l)).mark (RCH_EVENT_XTI_TIMEOUT l)).updReport l
      fun r => { r with timeouts := r.timeouts + 1 }) rfl hok ?_
  obtain ⟨x', sat, ever, again, ⟨u', hcur', hadded⟩, hgo⟩ := spanGo_eq hcur hmain hentry false sp
  simp only [Chip.when, spanDue_of_shape hcur hspans hshape, if_true, hgo]
  refine ⟨⟨{ u' with report := { u'.report with timeouts := u'.report.timeouts + 1 } }, ?_, hadded.spans, ?_, ?_⟩, ?_, ?_, ?_⟩
  · simp [lane_spanNoted, hcur']
  · rw [hadded.timeouts]
  · exact hadded.redetects
  · rw [flag_updReport]
    exact flag_mark_same _ _ (by simp [RCH_EVENT_XTI_TIMEOUT]) (by simp [RCH_EVENT_XTI_TIMEOUT])
  · rw [fld_updReport, fld_mark_apart, fld_inc_same, fieldsKept_spanNoted _ l _ _ _ (RCH_XTI_TIMEOUTS_COUNT l), fld_setLane]
    all_goals simp [apart, RCH_XTI_TIMEOUTS_COUNT, RCH_XTI_TIMEOUTS, RCH_EVENT_XTI_TIMEOUT, RCH_EVENT, RCH_STATUS_LOOP_SAT, RCH_STATUS,
      RCH_EVENT_LOOP_SAT, RCH_REDETECTS_COUNT, RCH_REDETECTS]
  · rw [frame_spanNoted]
    exact bytesKept_of_eq rfl rfl rfl

end Span

/-! ### The item of a slot (R181, R185) -/

/-- The report of a slot as its item gives it. -/
theorem commitLane_eq {c : Chip} {l : Nat} {u : LaneCur} {v : LoopVals} (hcur : (c.lane l).cur = some u) (hmain : (c.lane l).main = some v)
    (hstore : (c.lane l).store.length ≤ 2) (hacq : (c.lane l).acqLeft = 0) : ∃ (x' : LaneRec) (n : Nat) (acquiring : Bool),
    x'.cur = none ∧ (∃ it, x'.out = some it ∧ it.report.pba = u.report.pba ∧ it.llr.length = 57344 ∧
      (u.report.blank = true ∨ u.report.degraded = true → ∀ n < 57344, it.llr.getD n 0 = 0)) ∧
    x'.store.length = (c.lane l).store.length + 1 ∧
    c.commitLane l = (((({ c with free := n } : Chip).setLane l x').inc (RCH_SLOTS_COUNT l)).setFld (RCH_STATUS_ACTIVE l) 0).setFlag
      (RCH_STATUS_ACQUIRING l) acquiring := by
  have hdrop : (c.lane l).store.drop 2 = [] := by simp [hstore]
  unfold Chip.commitLane
  simp only [hcur, hmain, hdrop, hacq, List.foldl_nil, if_true]
  iterate 3 apply Exists.intro
  refine ⟨?_, ?_, ?_, ?_⟩
  rotate_left 3
  · exact rfl
  · rfl
  · refine ⟨_, rfl, rfl, by simp, fun hdark n hn => ?_⟩
    simp only [List.getD_eq_getElem?_getD, List.getElem?_map, List.getElem?_range hn, Option.map_some, Option.getD_some]
    exact if_pos (by obtain h | h := hdark <;> simp [h])
  · simp only [List.length_take, List.length_cons]
    omega

section Commit

variable {s : State} {l : Lane} {u : LaneCur} {v : LoopVals}

theorem completes_laneItemCommit (hcur : (s.chip.lane l).cur = some u) (hspans : u.spans = 29) (hmain : (s.chip.lane l).main = some v)
    (hout : (s.chip.lane l).out = none) (hstore : (s.chip.lane l).store.length ≤ 2) (hacq : (s.chip.lane l).acqLeft = 0) :
    Completes (.laneItemCommit l) s fun c =>
      (c.lane l).cur = none ∧ (∃ it, (c.lane l).out = some it ∧ it.report.pba = u.report.pba ∧ it.llr.length = 57344 ∧
        (u.report.blank = true ∨ u.report.degraded = true → ∀ n < 57344, it.llr.getD n 0 = 0)) ∧
      (c.lane l).store.length = (s.chip.lane l).store.length + 1 ∧ c.flag (RCH_STATUS_ACTIVE l) = false ∧
      c.fld (RCH_SLOTS_COUNT l) = min (s.chip.fld (RCH_SLOTS_COUNT l) + 1) (2 ^ 32 - 1) ∧
      s.chip.fieldsKept [RCH_SLOTS_COUNT l, RCH_STATUS_ACTIVE l, RCH_STATUS_ACQUIRING l] c ∧ s.chip.bytesKept c := by
  refine completes_on (f := fun c => c.when ((c.lane l).cur.any (fun u => u.spans == 29) && (c.lane l).out.isNone) fun c =>
    c.commitLane l) rfl ?_
  obtain ⟨x', n, acquiring, hcur', hitem, hstore', hcommit⟩ := commitLane_eq hcur hmain hstore hacq
  have hdue : ((s.chip.lane l).cur.any (fun u => u.spans == 29) && (s.chip.lane l).out.isNone) = true := by simp [hcur, hspans, hout]
  simp only [Chip.when, hdue, if_true, hcommit]
  have hfld (f : Fld) : ({ s.chip with free := n } : Chip).fld f = s.chip.fld f := rfl
  refine ⟨?_, ?_, ?_, ?_, ?_, ?_, bytesKept_of_eq rfl rfl rfl⟩
  · rwa [lane_setFlag, lane_setFld, lane_inc, lane_setLane]
  · rwa [lane_setFlag, lane_setFld, lane_inc, lane_setLane]
  · rwa [lane_setFlag, lane_setFld, lane_inc, lane_setLane]
  · rw [flag_setFlag_apart]
    · exact flag_setFld_zero _ _ (by simp [RCH_STATUS_ACTIVE])
    all_goals simp [apart, RCH_STATUS_ACTIVE, RCH_STATUS_ACQUIRING]
  · rw [Chip.setFlag, fld_setFld_apart, fld_setFld_apart, fld_inc_same, fld_setLane, hfld]
    all_goals simp [apart, RCH_SLOTS_COUNT, RCH_SLOTS, RCH_STATUS_ACTIVE, RCH_STATUS_ACQUIRING, RCH_STATUS]
  · exact fieldsKept_setFlag _ _ (by simp) (fieldsKept_setFld _ _ (by simp) (fieldsKept_inc _ (by simp) (fieldsKept_of_regs (setLane_regs ..))))

end Commit

/-! ### Ends of contexts and of holds -/

theorem completes_tagContextEnd {s : State} {l : Lane} {e : Nat × ZEntry} (mse : Nat) (htag : s.chip.flag (RCH_STATUS_TAG_CONTEXT l) = true)
    (hentry : (s.chip.lane l).entry = some e) : Completes (.tagContextEnd l mse) s fun c =>
      c.flag (RCH_STATUS_TAG_CONTEXT l) = false ∧
      c.fld (RCH_ZT_DRIFT_COUNT l) = (if 4 * e.2.mse < mse then min (s.chip.fld (RCH_ZT_DRIFT_COUNT l) + 1) (2 ^ 32 - 1)
        else s.chip.fld (RCH_ZT_DRIFT_COUNT l)) ∧
      s.chip.fieldsKept [RCH_STATUS_TAG_CONTEXT l, RCH_ZT_DRIFT_COUNT l] c ∧ c = { s.chip with regs := c.regs } := by
  have happart : apart (RCH_STATUS_TAG_CONTEXT l) (RCH_ZT_DRIFT_COUNT l) := by
    simp [apart, RCH_STATUS_TAG_CONTEXT, RCH_STATUS, RCH_ZT_DRIFT_COUNT, RCH_ZT_DRIFT]
  have hended : (s.chip.setFld (RCH_STATUS_TAG_CONTEXT l) 0).flag (RCH_STATUS_TAG_CONTEXT l) = false :=
    flag_setFld_zero _ _ (by simp [RCH_STATUS_TAG_CONTEXT])
  refine ⟨_, rfl, rfl, ?_⟩
  simp only [Chip.when, htag, if_true, lane_setFld, hentry]
  split_ifs with hdrift
  · refine ⟨?_, ?_, fieldsKept_inc _ (by simp) (fieldsKept_setFld _ _ (by simp) (fieldsKept_refl _ _)), rfl⟩
    · rw [flag_inc_apart _ _ _ (by simp [RCH_STATUS_TAG_CONTEXT]) happart, hended]
    · rw [fld_inc_same _ _ (by simp [RCH_ZT_DRIFT_COUNT]), fld_setFld_apart _ _ _ _ (by simp [RCH_ZT_DRIFT_COUNT]) (apart_symm happart)]
      simp [RCH_ZT_DRIFT_COUNT]
  · exact ⟨hended, fld_setFld_apart _ _ _ _ (by simp [RCH_ZT_DRIFT_COUNT]) (apart_symm happart),
      fieldsKept_setFld _ _ (by simp) (fieldsKept_refl _ _), rfl⟩

theorem completes_defectOnset {s : State} {l : Lane} {off : Nat} (hoff : off < 57344) (hhold : (s.chip.lane l).hold = none) :
    Completes (.defectOnset l off) s fun c =>
      (c.lane l).hold = some { onset := off } ∧ c.flag (RCH_STATUS_HOLD l) = true ∧ c.flag (RCH_EVENT_DEFECT l) = true ∧
      s.chip.fieldsKept [RCH_STATUS_HOLD l, RCH_EVENT_DEFECT l] c ∧ s.chip.bytesKept c := by
  refine completes_onIf (f := fun c => c.defectOnset l off) rfl (decide_eq_true hoff) ?_
  simp only [Chip.defectOnset, hhold]
  refine ⟨by rw [lane_updLane], ?_, ?_, fieldsKept_regs (updLane_regs ..) (fieldsKept_mark _ (by simp) (fieldsKept_mark _ (by simp)
    (fieldsKept_refl _ _))), bytesKept_of_eq rfl rfl rfl⟩
  · rw [flag_updLane, flag_mark_apart]
    · exact flag_mark_same _ _ (by simp [RCH_STATUS_HOLD]) (by simp [RCH_STATUS_HOLD])
    all_goals simp [apart, RCH_STATUS_HOLD, RCH_STATUS, RCH_EVENT_DEFECT, RCH_EVENT]
  · rw [flag_updLane]
    exact flag_mark_same _ _ (by simp [RCH_EVENT_DEFECT]) (by simp [RCH_EVENT_DEFECT])

section Hold

variable {s : State} {l : Lane} {h : DefHold} (hhold : (s.chip.lane l).hold = some h)

include hhold

theorem completes_defectEnd {off : Nat} (hoff : off < 57344) (hcur : (s.chip.lane l).cur = none) : Completes (.defectEnd l off []) s fun c =>
    (c.lane l).hold = some { h with release := some (off + 32) } ∧ s.chip.fieldsKept [RCH_DEEP_BITS_COUNT l] c ∧
    c.fld (RCH_DEEP_BITS_COUNT l) = s.chip.fld (RCH_DEEP_BITS_COUNT l) ∧ s.chip.bytesKept c := by
  refine completes_onIf (f := fun c => c.when ((c.lane l).hold.isSome) fun c => c.defectEnd l off []) rfl (by simp [hoff]) ?_
  have hnone : rangeBits [] = 0 := rfl
  simp only [Chip.when, hhold, Option.isSome_some, if_true, Chip.defectEnd, hcur, Option.any_none, Bool.false_eq_true, if_false, hnone]
  refine ⟨?_, fieldsKept_regs (updLane_regs ..) (fieldsKept_add _ _ (by simp) (fieldsKept_of_regs (updLane_regs ..))), ?_, bytesKept_of_eq rfl rfl rfl⟩
  · simp [Chip.updCur, hhold]
  · rw [Chip.updCur, fld_updLane, fld_add_same _ _ _ (by simp [RCH_DEEP_BITS_COUNT]), fld_updLane]
    exact min_eq_left (Nat.le_sub_one_of_lt (fld_lt ..))

theorem completes_longDefect : Completes (.longDefect l) s fun c =>
    (c.lane l).hold = some { h with long := true } ∧ c.flag (RCH_EVENT_LONG_DEFECT l) = true ∧ s.chip.fieldsKept [RCH_EVENT_LONG_DEFECT l] c ∧
    (∀ u ∈ (c.lane l).cur, u.report.longDefect = true) ∧ s.chip.bytesKept c := by
  refine completes_on (f := fun c => c.when ((c.lane l).hold.isSome) fun c =>
    ((c.mark (RCH_EVENT_LONG_DEFECT l)).updLane l fun x => { x with hold := x.hold.map (fun h => { h with long := true }) }).updReport l
      fun r => { r with longDefect := true }) rfl ?_
  simp only [Chip.when, hhold, Option.isSome_some, if_true]
  refine ⟨by simp [hhold], ?_, fieldsKept_regs ((updReport_regs ..).trans (updLane_regs ..)) (fieldsKept_mark _ (by simp) (fieldsKept_refl _ _)),
    by simp, bytesKept_of_eq rfl rfl rfl⟩
  rw [flag_updReport, flag_updLane]
  exact flag_mark_same _ _ (by simp [RCH_EVENT_LONG_DEFECT]) (by simp [RCH_EVENT_LONG_DEFECT])

theorem completes_holdRelease {r : Nat} (hrelease : h.release = some r) (hblank : h.blank = false) : Completes (.holdRelease l) s fun c =>
    (c.lane l).hold = none ∧ c.flag (RCH_STATUS_HOLD l) = false ∧
    c.fld (RCH_DEFECTS_COUNT l) = min (s.chip.fld (RCH_DEFECTS_COUNT l) + 1) (2 ^ 32 - 1) ∧
    c.fld (RCH_DEFECT_BITS_COUNT l) = min (s.chip.fld (RCH_DEFECT_BITS_COUNT l) + (h.before + (r - h.onset))) (2 ^ 32 - 1) ∧
    (c.lane l).land = (if h.long then (s.chip.lane l).land ++ [(r, r + s.chip.fld (RCH_LAND_CFG_WINDOW l))] else (s.chip.lane l).land) ∧
    s.chip.fieldsKept [RCH_STATUS_HOLD l, RCH_DEFECTS_COUNT l, RCH_DEFECT_BITS_COUNT l] c ∧ s.chip.bytesKept c := by
  refine completes_on (f := fun c => c.holdRelease l) rfl ?_
  have hkept : s.chip.fieldsKept [RCH_STATUS_HOLD l, RCH_DEFECTS_COUNT l, RCH_DEFECT_BITS_COUNT l]
      (((s.chip.inc (RCH_DEFECTS_COUNT l)).add (RCH_DEFECT_BITS_COUNT l) (h.before + (r - h.onset))).setFld (RCH_STATUS_HOLD l) 0) :=
    fieldsKept_setFld _ _ (by simp) (fieldsKept_add _ _ (by simp) (fieldsKept_inc _ (by simp) (fieldsKept_refl _ _)))
  have hwindow := hkept (RCH_LAND_CFG_WINDOW l) (by simp [RCH_LAND_CFG_WINDOW]) (by
    simp [apart, RCH_LAND_CFG_WINDOW, RCH_LAND_CFG, RCH_STATUS_HOLD, RCH_STATUS, RCH_DEFECTS_COUNT, RCH_DEFECTS, RCH_DEFECT_BITS_COUNT, RCH_DEFECT_BITS])
  simp only [Chip.holdRelease, hhold, hrelease, hblank, Bool.false_eq_true, if_false, or_false]
  refine ⟨by simp [Chip.updCur], ?_, ?_, ?_, ?_, fieldsKept_regs ((updLane_regs ..).trans (updLane_regs ..)) hkept, bytesKept_of_eq rfl rfl rfl⟩
  · rw [Chip.updCur, flag_updLane, flag_updLane]
    exact flag_setFld_zero _ _ (by simp [RCH_STATUS_HOLD])
  · rw [Chip.updCur, fld_updLane, fld_updLane, fld_setFld_apart, fld_add_apart, fld_inc_same]
    all_goals simp [apart, RCH_STATUS_HOLD, RCH_STATUS, RCH_DEFECTS_COUNT, RCH_DEFECTS, RCH_DEFECT_BITS_COUNT, RCH_DEFECT_BITS]
  · rw [Chip.updCur, fld_updLane, fld_updLane, fld_setFld_apart, fld_add_same, fld_inc_apart]
    all_goals simp [apart, RCH_STATUS_HOLD, RCH_STATUS, RCH_DEFECTS_COUNT, RCH_DEFECTS, RCH_DEFECT_BITS_COUNT, RCH_DEFECT_BITS]
  · simp [Chip.updCur, hwindow]

end Hold

/-! ### Chips that differ in their registers only -/

/-- Nothing but registers differs. -/
def Chip.regsOnly (a c : Chip) : Prop := c = { a with regs := c.regs }

theorem regsOnly_refl (c : Chip) : c.regsOnly c := rfl

theorem regsOnly_trans {a b c : Chip} (h : a.regsOnly b) (h' : b.regsOnly c) : a.regsOnly c := by
  unfold Chip.regsOnly at *
  rw [h', h]

theorem regsOnly_setFld {a b : Chip} (g v) (h : a.regsOnly b) : a.regsOnly (b.setFld g v) := regsOnly_trans h (rfl)
theorem regsOnly_setFlag {a b : Chip} (g v) (h : a.regsOnly b) : a.regsOnly (b.setFlag g v) := regsOnly_trans h (rfl)
theorem regsOnly_mark {a b : Chip} (g) (h : a.regsOnly b) : a.regsOnly (b.mark g) := regsOnly_trans h (rfl)
theorem regsOnly_inc {a b : Chip} (g) (h : a.regsOnly b) : a.regsOnly (b.inc g) := regsOnly_trans h (rfl)
theorem regsOnly_wrapInc {a b : Chip} (g) (h : a.regsOnly b) : a.regsOnly (b.wrapInc g) := regsOnly_trans h (rfl)

theorem regsOnly_foldl {α : Type} {a c : Chip} (f : Chip → α → Chip) (xs : List α) (h : a.regsOnly c)
    (hf : ∀ c x, a.regsOnly c → a.regsOnly (f c x)) : a.regsOnly (xs.foldl f c) := by
  induction xs generalizing c with
  | nil => exact h
  | cons x xs ih => exact ih (hf c x h)

theorem bytesKept_of_regsOnly {a c : Chip} (h : a.regsOnly c) : a.bytesKept c := by
  rw [h]
  exact bytesKept_of_eq rfl rfl rfl

theorem lane_of_regsOnly {a c : Chip} (h : a.regsOnly c) (k : Nat) : c.lane k = a.lane k := by
  rw [h]
  rfl

theorem cal_of_regsOnly {a c : Chip} (h : a.regsOnly c) (k : Nat) : c.cal k = a.cal k := by
  rw [h]
  rfl

/-! ### Many fields written in a row -/

def Chip.putFlds (c : Chip) (ws : List (Fld × Nat)) : Chip := ws.foldl (fun c x => c.setFld x.1 x.2) c

theorem putFlds_append (c : Chip) (ws ws' : List (Fld × Nat)) : c.putFlds (ws ++ ws') = (c.putFlds ws).putFlds ws' := List.foldl_append

theorem regsOnly_putFlds (c : Chip) (ws : List (Fld × Nat)) : c.regsOnly (c.putFlds ws) :=
  regsOnly_foldl _ _ (regsOnly_refl c) fun _ _ h => regsOnly_setFld _ _ h

theorem fld_putFlds_apart (c : Chip) {f : Fld} {ws : List (Fld × Nat)} (hf : f.lo + f.w ≤ 64) (h : ∀ x ∈ ws, apart f x.1) :
    (c.putFlds ws).fld f = c.fld f := by
  induction ws generalizing c with
  | nil => rfl
  | cons x ws ih =>
    exact (ih (c.setFld x.1 x.2) fun y hy => h y (List.mem_cons_of_mem _ hy)).trans (fld_setFld_apart _ _ _ _ hf (h x List.mem_cons_self))

/-- Of fields that lie apart, each shows the value written to it. -/
theorem fld_putFlds_mem (c : Chip) {ws : List (Fld × Nat)} (hws : ∀ x ∈ ws, x.1.lo + x.1.w ≤ 64) (happart : ws.Pairwise fun x y => apart x.1 y.1)
    {x : Fld × Nat} (hx : x ∈ ws) : (c.putFlds ws).fld x.1 = x.2 % 2 ^ x.1.w := by
  induction ws generalizing c with
  | nil => simp at hx
  | cons y ws ih =>
    obtain ⟨hy, hrest⟩ := List.pairwise_cons.mp happart
    obtain rfl | hx := List.mem_cons.mp hx
    · exact (fld_putFlds_apart _ (hws x List.mem_cons_self) hy).trans (fld_setFld_same _ _ _ (hws x List.mem_cons_self))
    · exact ih (c.setFld y.1 y.2) (fun z hz => hws z (List.mem_cons_of_mem _ hz)) hrest hx

/-! ### Snapshots (R206, R208) -/

/-- The writes of a snapshot of the loop values `v`, frequency `f` and phase `phi`. -/
def snapWrites (l : Nat) (v : LoopVals) (f phi : Int) : List (Fld × Nat) :=
  [(RCH_TIMING_PHASE l, bitsOfInt 6 (phi / 2 ^ 34)), (RCH_TIMING_FREQ l, bitsOfInt 24 (f / 65536)), (RCH_DGAIN_DGAIN l, bitsOfInt 16 (v.g / 65536)),
   (RCH_BASELINE_BASELINE l, bitsOfInt 16 (v.b / 65536)), (RCH_ASYM_ASYM l, bitsOfInt 16 (v.a / 65536)),
   (RCH_WOBBLE_AMP l, bitsOfInt 16 (v.amp / 65536)), (RCH_MSE_MSE l, bitsOfInt 16 v.mse)] ++
  (List.range 17).map (fun i => (RCH_EQ_TAP_TAP l i, bitsOfInt 16 (v.taps.getD i 0 / 65536))) ++
  (List.range 5).flatMap (fun j => [(RCH_XTI_IN_TAP l j, bitsOfInt 8 (v.xin.getD j 0 / 65536)),
    (RCH_XTI_OUT_TAP l j, bitsOfInt 8 (v.xout.getD j 0 / 65536))])

/-- The fields of a snapshot, and SEQ, on lane 0. -/
def snapFields : List Fld :=
  RCH_SNAP_SEQ 0 :: [RCH_TIMING_PHASE 0, RCH_TIMING_FREQ 0, RCH_DGAIN_DGAIN 0, RCH_BASELINE_BASELINE 0, RCH_ASYM_ASYM 0, RCH_WOBBLE_AMP 0, RCH_MSE_MSE 0] ++
  (List.range 17).map (RCH_EQ_TAP_TAP 0) ++ (List.range 5).flatMap (fun j => [RCH_XTI_IN_TAP 0 j, RCH_XTI_OUT_TAP 0 j])

/-- A field of a lane's registers, of lane `l` instead of lane 0. -/
def onLane (l : Nat) (f : Fld) : Fld := { f with reg := f.reg + 0x1000 * l }

theorem snapWrites_fields (l : Nat) (v : LoopVals) (f phi : Int) :
    RCH_SNAP_SEQ l :: (snapWrites l v f phi).map Prod.fst = snapFields.map (onLane l) := by
  simp [snapWrites, snapFields, onLane, List.range_succ, RCH_SNAP_SEQ, RCH_SNAP, RCH_TIMING_PHASE, RCH_TIMING_FREQ, RCH_TIMING, RCH_DGAIN_DGAIN,
    RCH_DGAIN, RCH_BASELINE_BASELINE, RCH_BASELINE, RCH_ASYM_ASYM, RCH_ASYM, RCH_WOBBLE_AMP, RCH_WOBBLE, RCH_MSE_MSE, RCH_MSE, RCH_EQ_TAP_TAP,
    RCH_EQ_TAP, RCH_XTI_IN_TAP, RCH_XTI_IN, RCH_XTI_OUT_TAP, RCH_XTI_OUT]
  omega

theorem snapFields_apart : snapFields.Pairwise fun f g => apart f g := by decide +kernel

theorem snapFields_fit : ∀ f ∈ snapFields, f.lo + f.w ≤ 64 := by decide

theorem apart_onLane {f g : Fld} (l : Nat) (h : apart f g) : apart (onLane l f) (onLane l g) := by
  unfold apart onLane at *
  simp only
  omega

theorem snapshotLatch_eq {c : Chip} {l : Nat} {v : LoopVals} (hmain : (c.lane l).main = some v) (htag : c.flag (RCH_STATUS_TAG_CONTEXT l) = false) :
    c.snapshotLatch l = (c.putFlds (snapWrites l v (c.lane l).f (c.lane l).phi)).wrapInc (RCH_SNAP_SEQ l) := by
  unfold Chip.snapshotLatch
  simp only [hmain, htag]
  rfl

theorem bitsOfInt_lt (w : Nat) (x : Int) : bitsOfInt w x < 2 ^ w := by
  have hpos : (0 : Int) < (2 ^ w : Nat) := by positivity
  have hlo := Int.emod_nonneg x hpos.ne'
  have hhi := Int.emod_lt_of_pos x hpos
  unfold bitsOfInt
  omega

theorem snapWrites_fit (l : Nat) (v : LoopVals) (f phi : Int) : ∀ x ∈ snapWrites l v f phi, x.1.lo + x.1.w ≤ 64 := by
  intro x hx
  have hmem : x.1 ∈ snapFields.map (onLane l) := by
    rw [← snapWrites_fields l v f phi]
    exact List.mem_cons_of_mem _ (List.mem_map_of_mem hx)
  obtain ⟨g, hg, hgx⟩ := List.mem_map.mp hmem
  rw [← hgx]
  exact snapFields_fit g hg

theorem snapWrites_apart (l : Nat) (v : LoopVals) (f phi : Int) :
    (∀ x ∈ snapWrites l v f phi, apart (RCH_SNAP_SEQ l) x.1) ∧ (snapWrites l v f phi).Pairwise fun x y => apart x.1 y.1 := by
  have hall : (snapFields.map (onLane l)).Pairwise fun f g => apart f g :=
    List.pairwise_map.mpr (snapFields_apart.imp fun h => apart_onLane l h)
  rw [← snapWrites_fields l v f phi, List.pairwise_cons] at hall
  exact ⟨fun x hx => hall.1 _ (List.mem_map_of_mem hx), List.pairwise_map.mp hall.2⟩

/-- After the writes of a snapshot each of its fields shows its value. -/
theorem fld_snapped (c : Chip) {l : Nat} {v : LoopVals} {f phi : Int} (w : Nat) {x : Fld × Nat} (hx : x ∈ snapWrites l v f phi)
    (hval : x.2 < 2 ^ x.1.w) : ((c.putFlds (snapWrites l v f phi)).setFld (RCH_SNAP_SEQ l) w).fld x.1 = x.2 := by
  obtain ⟨hseq, hrest⟩ := snapWrites_apart l v f phi
  rw [fld_setFld_apart _ _ _ _ (snapWrites_fit _ _ _ _ x hx) (apart_symm (hseq x hx)),
    fld_putFlds_mem c (snapWrites_fit _ _ _ _) hrest hx, Nat.mod_eq_of_lt hval]

theorem completes_snapshotLatch {s : State} {l : Lane} {v : LoopVals} (hmain : (s.chip.lane l).main = some v)
    (hsnap : s.chip.flag (RCH_SNAP_HOLD l) = false) (hstale : s.chip.flag (RCH_STATUS_STALE l) = false)
    (htag : s.chip.flag (RCH_STATUS_TAG_CONTEXT l) = false) : Completes (.snapshotLatch l) s fun c =>
      c.fld (RCH_DGAIN_DGAIN l) = bitsOfInt 16 (v.g / 65536) ∧ c.fld (RCH_BASELINE_BASELINE l) = bitsOfInt 16 (v.b / 65536) ∧
      c.fld (RCH_ASYM_ASYM l) = bitsOfInt 16 (v.a / 65536) ∧ c.fld (RCH_WOBBLE_AMP l) = bitsOfInt 16 (v.amp / 65536) ∧
      c.fld (RCH_MSE_MSE l) = bitsOfInt 16 v.mse ∧ (∀ i < 17, c.fld (RCH_EQ_TAP_TAP l i) = bitsOfInt 16 (v.taps.getD i 0 / 65536)) ∧
      (∀ j < 5, c.fld (RCH_XTI_IN_TAP l j) = bitsOfInt 8 (v.xin.getD j 0 / 65536)) ∧
      c.fld (RCH_SNAP_SEQ l) = (s.chip.fld (RCH_SNAP_SEQ l) + 1) % 2 ^ 16 ∧ c = { s.chip with regs := c.regs } := by
  have hdue : (!s.chip.flag (RCH_SNAP_HOLD l) && !s.chip.flag (RCH_STATUS_STALE l)) = true := by simp [hsnap, hstale]
  refine completes_when (f := fun c => c.snapshotLatch l) rfl hdue ?_
  obtain ⟨hseq, -⟩ := snapWrites_apart l v (s.chip.lane l).f (s.chip.lane l).phi
  have hsnapped (w : Nat) (g : Fld) (x : Int) (hx : (g, bitsOfInt g.w x) ∈ snapWrites l v (s.chip.lane l).f (s.chip.lane l).phi) :=
    fld_snapped s.chip w hx (bitsOfInt_lt _ _)
  rw [snapshotLatch_eq hmain htag, Chip.wrapInc]
  refine ⟨hsnapped _ (RCH_DGAIN_DGAIN l) _ (by simp [snapWrites, RCH_DGAIN_DGAIN]),
    hsnapped _ (RCH_BASELINE_BASELINE l) _ (by simp [snapWrites, RCH_BASELINE_BASELINE]),
    hsnapped _ (RCH_ASYM_ASYM l) _ (by simp [snapWrites, RCH_ASYM_ASYM]), hsnapped _ (RCH_WOBBLE_AMP l) _ (by simp [snapWrites, RCH_WOBBLE_AMP]),
    hsnapped _ (RCH_MSE_MSE l) _ (by simp [snapWrites, RCH_MSE_MSE]), fun i hi => hsnapped _ (RCH_EQ_TAP_TAP l i) _ ?_,
    fun j hj => hsnapped _ (RCH_XTI_IN_TAP l j) _ ?_, ?_, ?_⟩
  · exact List.mem_append_left _ (List.mem_append_right _ (List.mem_map.mpr ⟨i, List.mem_range.mpr hi, rfl⟩))
  · exact List.mem_append_right _ (List.mem_flatMap.mpr ⟨j, List.mem_range.mpr hj, List.mem_cons_self⟩)
  · rw [fld_setFld_same _ _ _ (by simp [RCH_SNAP_SEQ]), fld_putFlds_apart _ (by simp [RCH_SNAP_SEQ]) hseq]
    simp only [RCH_SNAP_SEQ]
  · exact regsOnly_setFld _ _ (regsOnly_putFlds _ _)

/-! ### Iterations and acquisitions (R185, R199, R229) -/

theorem completes_iterationDetectDone {s : State} {l : Lane} {b : LdpcBlk} {y : LaneSlot} (hiter : (s.chip.frm (l.val / 8)).iterating = [b])
    (hlane : b.item.lane = l.val) (hback : b.back = false) (hlost : b.lost = false) (hstore : (s.chip.lane l).store = [y])
    (hpba : y.pba = b.item.report.pba) : Completes (.iterationDetectDone l) s fun c =>
      (∃ input, (c.frm (l.val / 8)).iterating = [{ b with input := input, back := true }]) ∧
      c.fld (if b.g = 2 then RCH_ITER2_COUNT l else RCH_ITER3_COUNT l) =
        min (s.chip.fld (if b.g = 2 then RCH_ITER2_COUNT l else RCH_ITER3_COUNT l) + 1) (2 ^ 32 - 1) ∧
      s.chip.fieldsKept [if b.g = 2 then RCH_ITER2_COUNT l else RCH_ITER3_COUNT l] c ∧ s.chip.bytesKept c := by
  refine completes_on (f := fun c => c.iterationDone l) rfl ?_
  have hfind : [b].find? (fun b => b.item.lane == l.val && !b.back && !b.lost) = some b := by simp [hlane, hback, hlost]
  have hslot : [y].find? (fun x => x.pba == b.item.report.pba) = some y := by simp [hpba]
  unfold Chip.iterationDone
  simp only [hiter, hfind, hstore, hslot]
  refine ⟨?_, ?_, fieldsKept_regs (setFrm_regs ..) (fieldsKept_inc _ (by simp) (fieldsKept_refl _ _)), bytesKept_of_eq rfl rfl rfl⟩
  · simp only [frm_setFrm, List.map_cons, List.map_nil, if_true]
    exact ⟨_, rfl⟩
  · rw [fld_setFrm]
    split_ifs
    · exact fld_inc_same _ _ (by simp [RCH_ITER2_COUNT])
    · exact fld_inc_same _ _ (by simp [RCH_ITER3_COUNT])

/-- What a rejected measurement of an item changes beside the count and the event. -/
def rejectFields (p i : Nat) : List Fld :=
  [CAL_ITEM_REJECTS p i, CAL_ITEM_STATE p i, CAL_FAILS_COUNT, CAL_EVENT_CAL_FAIL, CAL_ITEM_BEAMS p i, WCH_CTRL_DEGRADED p, CAL_PU_STATUS_WDEG p] ++
    (List.range 8).map fun k => RCH_CTRL_DEGRADED (8 * p + k)

theorem fieldsKept_foldl {α : Type} {L : List Fld} {a c : Chip} (f : Chip → α → Chip) (xs : List α) (h : a.fieldsKept L c)
    (hf : ∀ c, ∀ x ∈ xs, a.fieldsKept L c → a.fieldsKept L (f c x)) : a.fieldsKept L (xs.foldl f c) := by
  induction xs generalizing c with
  | nil => exact h
  | cons x xs ih => exact ih (hf c x List.mem_cons_self h) fun c y hy => hf c y (List.mem_cons_of_mem _ hy)

/-- The lanes that a FAILED item degrades (R569). -/
def Chip.degradeBeams (c : Chip) (p i beams : Nat) : Chip :=
  if i ≤ 2 then (List.range 8).foldl (fun c k => if beams.testBit k then c.setFld (RCH_CTRL_DEGRADED (8 * p + k)) 1 else c)
    (c.setFld (CAL_ITEM_BEAMS p i) (c.fld (CAL_ITEM_BEAMS p i) ||| beams)) else c

theorem calDegrade_eq (c : Chip) (p i beams : Nat) : c.calDegrade p i beams =
    if (c.degradeBeams p i beams).itemDegradesWrite p i then (c.degradeBeams p i beams).setWdeg p true else c.degradeBeams p i beams := rfl

theorem fieldsKept_calDegrade {a c : Chip} (p i beams : Nat) (h : a.fieldsKept (rejectFields p i) c) :
    a.fieldsKept (rejectFields p i) (c.calDegrade p i beams) := by
  have hlanes : a.fieldsKept (rejectFields p i) (c.degradeBeams p i beams) := by
    unfold Chip.degradeBeams
    split_ifs
    · refine fieldsKept_foldl _ _ (fieldsKept_setFld _ _ (by simp [rejectFields]) h) fun c k hk hc => ?_
      split_ifs
      · exact fieldsKept_setFld _ _ (List.mem_append_right _ (List.mem_map_of_mem (f := fun k => RCH_CTRL_DEGRADED (8 * p + k)) hk)) hc
      · exact hc
    · exact h
  rw [calDegrade_eq]
  split_ifs
  · exact fieldsKept_setFlag _ _ (by simp [rejectFields]) (fieldsKept_setFlag _ _ (by simp [rejectFields]) hlanes)
  · exact hlanes

theorem fieldsKept_calReject (c : Chip) (p i beams : Nat) :
    ((c.inc CAL_REJECTS_COUNT).mark CAL_EVENT_CAL_REJECT).fieldsKept (rejectFields p i) (c.calReject p i beams) := by
  have hcount (n : Nat) := fieldsKept_setFld (CAL_ITEM_REJECTS p i) n (by simp [rejectFields])
    (fieldsKept_refl (rejectFields p i) ((c.inc CAL_REJECTS_COUNT).mark CAL_EVENT_CAL_REJECT))
  unfold Chip.calReject
  simp only
  split_ifs
  · exact fieldsKept_calDegrade _ _ _ (fieldsKept_refl _ _)
  · exact fieldsKept_calDegrade _ _ _ (fieldsKept_mark _ (by simp [rejectFields]) (fieldsKept_inc _ (by simp [rejectFields])
      (fieldsKept_setFld _ _ (by simp [rejectFields]) (hcount _))))
  · exact fieldsKept_setFld _ _ (by simp [rejectFields]) (hcount _)

theorem regsOnly_calDegrade {a c : Chip} (p i beams : Nat) (h : a.regsOnly c) : a.regsOnly (c.calDegrade p i beams) := by
  have hlanes : a.regsOnly (c.degradeBeams p i beams) := by
    unfold Chip.degradeBeams
    split_ifs
    · refine regsOnly_foldl _ _ (regsOnly_setFld _ _ h) fun c k hc => ?_
      split_ifs
      · exact regsOnly_setFld _ _ hc
      · exact hc
    · exact h
  rw [calDegrade_eq]
  split_ifs
  · exact regsOnly_setFlag _ _ (regsOnly_setFlag _ _ hlanes)
  · exact hlanes

theorem regsOnly_calReject (c : Chip) (p i beams : Nat) : c.regsOnly (c.calReject p i beams) := by
  have hcount : c.regsOnly ((c.inc CAL_REJECTS_COUNT).mark CAL_EVENT_CAL_REJECT) := regsOnly_mark _ (regsOnly_inc _ (regsOnly_refl c))
  unfold Chip.calReject
  simp only
  split_ifs
  · exact regsOnly_calDegrade _ _ _ hcount
  · exact regsOnly_calDegrade _ _ _ (regsOnly_mark _ (regsOnly_inc _ (regsOnly_setFld _ _ (regsOnly_setFld _ _ hcount))))
  · exact regsOnly_setFld _ _ (regsOnly_setFld _ _ hcount)

theorem acqJudged_of_none {c : Chip} {p : Nat} (k code : Nat) (h : (c.cal p).asked = []) : c.acqJudged p k code = c := by
  simp [Chip.acqJudged, h]

/-- The rejected acquisition is noted in the lane's registers and records. -/
def Chip.acqRejected (c : Chip) (l : Nat) (x : LaneRec) (k : CalRec) : Chip :=
  (((c.setLane l x).mark (RCH_EVENT_ACQ_REJECT l)).inc (RCH_ACQ_REJECTS_COUNT l)).setCal (l / 8) k

theorem acquisitionCheck_eq {c : Chip} {l : Nat} {a b : LoopVals} (hfirst : (c.lane l).acqFirst = some a) (hlast : (c.lane l).acqLast = some b)
    (hseeds : (c.lane l).seeds = false) (hagree : acqAgree a b = false) : ∃ (x' : LaneRec) (k' : CalRec) (beams code : Nat),
      x'.acqFirst = none ∧ x'.acqLast = none ∧ k'.asked = (c.cal (l / 8)).asked ∧
      c.acquisitionCheck l = ((c.acqRejected l x' k').calReject (l / 8) 2 beams).acqJudged (l / 8) (l % 8) code := by
  unfold Chip.acquisitionCheck
  simp only [hfirst, hlast, hseeds, hagree, Bool.false_eq_true, if_false]
  iterate 4 apply Exists.intro
  refine ⟨?_, ?_, ?_, ?_⟩
  rotate_left 3
  · exact rfl
  all_goals rfl

theorem bytesKept_trans {a b c : Chip} (h : a.bytesKept b) (h' : b.bytesKept c) : a.bytesKept c := by
  obtain ⟨hbyte, hflash, hsram, hmail⟩ := h
  obtain ⟨hbyte', hflash', hsram', hmail'⟩ := h'
  exact ⟨fun x => (hbyte' x).trans (hbyte x), fun x => (hflash' x).trans (hflash x), fun x => (hsram' x).trans (hsram x),
    fun x => (hmail' x).trans (hmail x)⟩

/-- The registers of a rejected measurement, of the calibration unit and of the pickup's channels. -/
theorem reg_of_mem_rejectFields {p i : Nat} {g : Fld} (hg : g ∈ rejectFields p i) :
    g.reg = CAL_ITEM p i ∨ g.reg = CAL_FAILS ∨ (g.reg = CAL_EVENT ∧ g = CAL_EVENT_CAL_FAIL) ∨ g.reg = WCH_CTRL p ∨ g.reg = CAL_PU_STATUS p ∨
      ∃ k < 8, g.reg = RCH_CTRL (8 * p + k) := by
  simp only [rejectFields, List.mem_append, List.mem_cons, List.not_mem_nil, or_false, List.mem_map, List.mem_range] at hg
  obtain (rfl | rfl | rfl | rfl | rfl | rfl | rfl) | ⟨k, hk, rfl⟩ := hg
  · exact .inl rfl
  · exact .inl rfl
  · exact .inr (.inl rfl)
  · exact .inr (.inr (.inl ⟨rfl, rfl⟩))
  · exact .inl rfl
  · exact .inr (.inr (.inr (.inl rfl)))
  · exact .inr (.inr (.inr (.inr (.inl rfl))))
  · exact .inr (.inr (.inr (.inr (.inr ⟨k, hk, rfl⟩))))

/-- What a rejected measurement of a pickup changes lies apart from the lane's events and counts. -/
theorem rejectFields_apart {p i l : Nat} (_hp : p < 16) (hi : i < 16) (_hl : l < 128) {f : Fld} (hf : f.reg = RCH_EVENT l ∨ f.reg = RCH_ACQ_REJECTS l) :
    ∀ g ∈ rejectFields p i, apart f g := by
  intro g hg
  refine apart_of_reg fun heq => ?_
  rw [heq] at hf
  have hreg := reg_of_mem_rejectFields hg
  simp only [RCH_EVENT, RCH_ACQ_REJECTS, CAL_ITEM, CAL_FAILS, CAL_EVENT, WCH_CTRL, CAL_PU_STATUS, RCH_CTRL] at hf hreg
  omega

@[simp] theorem lane_setCal (c : Chip) (k x i) : (c.setCal k x).lane i = c.lane i := (rfl)
theorem cal_setCal (c : Chip) (k x) : (c.setCal k x).cal k = x := by simp [Chip.cal, Chip.setCal]

theorem completes_acquisitionCheck {s : State} {l : Lane} {a b : LoopVals} (hfirst : (s.chip.lane l).acqFirst = some a)
    (hlast : (s.chip.lane l).acqLast = some b) (hseeds : (s.chip.lane l).seeds = false) (hagree : acqAgree a b = false)
    (hasked : (s.chip.cal (l.val / 8)).asked = []) : Completes (.acquisitionCheck l) s fun c =>
      (c.lane l).acqFirst = none ∧ (c.lane l).acqLast = none ∧ c.flag (RCH_EVENT_ACQ_REJECT l) = true ∧ c.flag CAL_EVENT_CAL_REJECT = true ∧
      c.fld (RCH_ACQ_REJECTS_COUNT l) = min (s.chip.fld (RCH_ACQ_REJECTS_COUNT l) + 1) (2 ^ 32 - 1) ∧ s.chip.bytesKept c := by
  refine completes_on (f := fun c => c.acquisitionCheck l) rfl ?_
  obtain ⟨x', k', beams, code, hfirst', hlast', hasked', heq⟩ := acquisitionCheck_eq hfirst hlast hseeds hagree
  have hkept := fieldsKept_calReject (s.chip.acqRejected l x' k') (l / 8) 2 beams
  have hregs := regsOnly_calReject (s.chip.acqRejected l x' k') (l / 8) 2 beams
  have hlane : ((s.chip.acqRejected l x' k').calReject (l / 8) 2 beams).lane l = x' := by
    rw [lane_of_regsOnly hregs, Chip.acqRejected, lane_setCal, lane_inc, lane_mark, lane_setLane]
  have hnone : (((s.chip.acqRejected l x' k').calReject (l / 8) 2 beams).cal (l / 8)).asked = [] := by
    rw [cal_of_regsOnly hregs, Chip.acqRejected, cal_setCal, hasked', hasked]
  have hl := l.isLt
  rw [heq, acqJudged_of_none _ _ hnone, hlane]
  refine ⟨hfirst', hlast', ?_, ?_, ?_, bytesKept_trans (b := s.chip.acqRejected l x' k') (bytesKept_of_eq rfl rfl rfl)
    (bytesKept_of_regsOnly hregs)⟩
  · rw [flag_eq_of_fld (hkept (RCH_EVENT_ACQ_REJECT l) (by simp [RCH_EVENT_ACQ_REJECT]) ?_), flag_mark_apart, flag_inc_apart, Chip.acqRejected,
      flag_setCal, flag_inc_apart]
    · exact flag_mark_same _ _ (by simp [RCH_EVENT_ACQ_REJECT]) (by simp [RCH_EVENT_ACQ_REJECT])
    · simp [RCH_EVENT_ACQ_REJECT]
    · simp [apart, RCH_EVENT_ACQ_REJECT, RCH_EVENT, RCH_ACQ_REJECTS_COUNT, RCH_ACQ_REJECTS]
    · simp [RCH_EVENT_ACQ_REJECT]
    · exact apart_of_reg (by simp only [RCH_EVENT_ACQ_REJECT, RCH_EVENT, CAL_REJECTS_COUNT, CAL_REJECTS]; omega)
    · simp [RCH_EVENT_ACQ_REJECT]
    · exact apart_of_reg (by simp only [RCH_EVENT_ACQ_REJECT, RCH_EVENT, CAL_EVENT_CAL_REJECT, CAL_EVENT]; omega)
    · exact rejectFields_apart (by omega) (by omega) hl (.inl rfl)
  · rw [flag_eq_of_fld (hkept CAL_EVENT_CAL_REJECT (by simp [CAL_EVENT_CAL_REJECT]) fun g hg => ?_)]
    · exact flag_mark_same _ _ (by simp [CAL_EVENT_CAL_REJECT]) (by simp [CAL_EVENT_CAL_REJECT])
    · have hreg := reg_of_mem_rejectFields hg
      by_cases hg' : g = CAL_EVENT_CAL_FAIL
      · rw [hg']
        exact apart_of_bits (by decide)
      · refine apart_of_reg fun heq => ?_
        rw [← heq] at hreg
        simp only [hg', and_false, false_or, CAL_EVENT_CAL_REJECT, CAL_ITEM, CAL_FAILS, CAL_EVENT, WCH_CTRL, CAL_PU_STATUS, RCH_CTRL] at hreg
        omega
  · rw [hkept (RCH_ACQ_REJECTS_COUNT l) (by simp [RCH_ACQ_REJECTS_COUNT]) (rejectFields_apart (by omega) (by omega) hl (.inr rfl)),
      fld_mark_apart, fld_inc_apart, Chip.acqRejected, fld_setCal, fld_inc_same, fld_mark_apart, fld_setLane]
    · simp only [RCH_ACQ_REJECTS_COUNT]
    · simp [RCH_ACQ_REJECTS_COUNT]
    · simp [apart, RCH_EVENT_ACQ_REJECT, RCH_EVENT, RCH_ACQ_REJECTS_COUNT, RCH_ACQ_REJECTS]
    · simp [RCH_ACQ_REJECTS_COUNT]
    · simp [RCH_ACQ_REJECTS_COUNT]
    · exact apart_of_reg (by simp only [RCH_ACQ_REJECTS_COUNT, RCH_ACQ_REJECTS, CAL_REJECTS_COUNT, CAL_REJECTS]; omega)
    · simp [RCH_ACQ_REJECTS_COUNT]
    · exact apart_of_reg (by simp only [RCH_ACQ_REJECTS_COUNT, RCH_ACQ_REJECTS, CAL_EVENT_CAL_REJECT, CAL_EVENT]; omega)

/-- Settles O39. -/
theorem laneItems : Obligations.LaneItems := by
  unfold Obligations.LaneItems
  intro s l x
  refine ⟨fun u hcur => ⟨completes_tagContextStart hcur, fun dark hdark hblank => completes_blankDecision hcur hdark hblank,
      fun sp v e hmain hentry hok hspans hshape => ⟨completes_spanConfirm hcur hmain hentry hok hspans hshape,
        completes_xtiTimeout hcur hmain hentry hok hspans hshape⟩,
      fun v hspans hmain hout hstore hacq => completes_laneItemCommit hcur hspans hmain hout hstore hacq⟩,
    fun mse e htag hentry => completes_tagContextEnd mse htag hentry, fun off hoff hhold => completes_defectOnset hoff hhold,
    fun h hhold => ⟨fun off hoff hcur => completes_defectEnd hhold hoff hcur, completes_longDefect hhold,
      fun r hrelease hblank => completes_holdRelease hhold hrelease hblank⟩,
    fun v hmain hsnap hstale htag => completes_snapshotLatch hmain hsnap hstale htag,
    fun b y hiter hlane hback hlost hstore hpba => completes_iterationDetectDone hiter hlane hback hlost hstore hpba,
    fun a b hfirst hlast hseeds hagree hasked => completes_acquisitionCheck hfirst hlast hseeds hagree hasked⟩

end Sys2Proof.Machine
end

section
/-! Proofs about the framers and the LDPC decoder (O40). -/

namespace Sys2Proof.Machine

@[simp] theorem setFrame_regs (c : Chip) (l x) : (c.setFrame l x).regs = c.regs := rfl
@[simp] theorem frameOf_setFrame (c : Chip) (l x) : (c.setFrame l x).frameOf l = x := by
  simp [Chip.frameOf, Chip.setFrame]
@[simp] theorem frameOf_setFld (c : Chip) (f v l) : (c.setFld f v).frameOf l = c.frameOf l := (rfl)
@[simp] theorem lane_setFrame (c : Chip) (l x k) : (c.setFrame l x).lane k = c.lane k := (rfl)
@[simp] theorem fld_setFrame (c : Chip) (l x f) : (c.setFrame l x).fld f = c.fld f := rfl
@[simp] theorem flag_setFrame (c : Chip) (l x f) : (c.setFrame l x).flag f = c.flag f := rfl
theorem bytesKept_setFrame (c : Chip) (l x) : c.bytesKept (c.setFrame l x) := bytesKept_of_eq rfl rfl rfl

theorem onFrame_of_some {c : Chip} {l : Nat} {f : FrameCur} (h : c.frameOf l = some f) (g : FrameCur → Chip) : c.onFrame l g = g f := by
  simp only [Chip.onFrame, h]

section Framer

variable {s : State} {l : Lane}

theorem completes_framerPop {it : LaneItem} (hout : (s.chip.lane l).out = some it) (hidle : s.chip.frameOf l = none)
    (hen : s.chip.flag (FRM_CTRL_EN (l.val / 8)) = true) : Completes (.framerPop l) s fun c =>
      (∃ f, c.frameOf l = some f ∧ f.item = it ∧ f.y = none ∧ f.tag = .none ∧ f.starts = [] ∧ f.ctrl = s.chip.reg (FRM_CTRL (l.val / 8))) ∧
      (c.lane l).out = none ∧ c.fld (FRM_ITEMS_COUNT (l.val / 8)) = min (s.chip.fld (FRM_ITEMS_COUNT (l.val / 8)) + 1) (2 ^ 32 - 1) ∧
      s.chip.fieldsKept [FRM_ITEMS_COUNT (l.val / 8)] c ∧ s.chip.bytesKept c := by
  refine completes_when (f := fun c => c.framerPop l) rfl (by simp [hen, hidle]) ?_
  simp only [Chip.framerPop, hout]
  refine ⟨⟨_, frameOf_setFrame _ _ _, rfl, rfl, rfl, rfl, ?_⟩, ?_, ?_, ?_, bytesKept_of_eq rfl rfl rfl⟩
  · rfl
  · simp
  · rw [fld_setFrame, fld_inc_same _ _ (by simp [FRM_ITEMS_COUNT]), fld_updLane]
    simp only [FRM_ITEMS_COUNT]
  · exact fieldsKept_regs (setFrame_regs _ _ _) (fieldsKept_inc _ (by simp) (fieldsKept_of_regs (updLane_regs _ _ _)))

variable {f : FrameCur} (hframe : s.chip.frameOf l = some f)

include hframe

theorem completes_syncCandidate {y : Nat} (hbare : f.bare = false) (hwindow : f.windowEnd = false) (hnext : f.nextCand = some y) (hy : f.y = none) :
    Completes (.syncCandidate l y) s fun c =>
      c.frameOf l = some { f with cands := f.cands ++ [(hardDist f.item.llr y syncS, y)], y := some (hardDist f.item.llr y syncS, y) } ∧
      c.regs = s.chip.regs ∧ s.chip.bytesKept c := by
  refine completes_on (f := fun c => c.syncCandidate l y) rfl ?_
  simp only [Chip.syncCandidate, onFrame_of_some hframe, hbare, hwindow, hnext, hy, Bool.false_eq_true, ne_eq, not_true, or_false, if_false]
  exact ⟨frameOf_setFrame _ _ _, setFrame_regs _ _ _, bytesKept_setFrame _ _ _⟩

theorem completes_searchWindowEnd (hbare : f.bare = false) (hwindow : f.windowEnd = false) (hnext : f.nextCand = none) (hcands : f.cands = []) :
    Completes (.searchWindowEnd l) s fun c =>
      c.frameOf l = some { f with windowEnd := true, y := some (0, 512), flywheel := true, tag := .none, starts := [] } ∧
      c.flag (FRM_EVENT_FLYWHEEL (l.val / 8)) = true ∧
      c.fld (FRM_FLYWHEEL_COUNT (l.val / 8)) = min (s.chip.fld (FRM_FLYWHEEL_COUNT (l.val / 8)) + 1) (2 ^ 32 - 1) ∧
      s.chip.fieldsKept [FRM_EVENT_FLYWHEEL (l.val / 8), FRM_FLYWHEEL_COUNT (l.val / 8)] c ∧ s.chip.bytesKept c := by
  refine completes_on (f := fun c => c.searchWindowEnd l) rfl ?_
  simp only [Chip.searchWindowEnd, onFrame_of_some hframe, hbare, hwindow, hnext, hcands, Bool.false_eq_true, Option.isSome_none, or_false, if_false,
    if_true, Chip.flywheel]
  refine ⟨frameOf_setFrame _ _ _, ?_, ?_, ?_, bytesKept_of_eq rfl rfl rfl⟩
  · rw [flag_setFrame]
    exact flag_mark_same _ _ (by simp [FRM_EVENT_FLYWHEEL]) (by simp [FRM_EVENT_FLYWHEEL])
  · rw [fld_setFrame, fld_mark_apart, fld_inc_same]
    all_goals simp [apart, FRM_FLYWHEEL_COUNT, FRM_FLYWHEEL, FRM_EVENT_FLYWHEEL, FRM_EVENT]
  · exact fieldsKept_regs (setFrame_regs _ _ _) (fieldsKept_mark _ (by simp) (fieldsKept_inc _ (by simp) (fieldsKept_refl _ _)))

section Provisional

variable {y : Nat × Nat} (hy : f.y = some y) (hwindow : f.windowEnd = true)

include hy

omit hframe in
/-- The decoding of a tag gives the frame a tag, and nothing else but what the tag says. -/
theorem tagDecode_eq {c : Chip} {l : Nat} (hframe : c.frameOf l = some f) (hwindow : f.windowEnd = true) (htag : f.tag = .none) :
    ∃ g : FrameCur, c.tagDecode l = c.setFrame l (some g) ∧ g.tag ≠ .none ∧ g.item = f.item ∧ g.y = f.y ∧
      (g.tag = .failed → g.tagHome = f.item.report.pba) := by
  unfold Chip.tagDecode
  simp only [onFrame_of_some hframe, hy, hwindow, htag, Bool.not_true, Bool.false_eq_true, ne_eq, not_true, or_false, if_false]
  refine ⟨_, rfl, ?_⟩
  rcases tagWord ((softDemod (llrRun f.item.llr (y.2 + 48) 2336)).take 192) with _ | w
  · exact ⟨by simp, rfl, rfl, fun _ => rfl⟩
  · by_cases hagrees : c.tagAgrees (l / 8) f.item.report.pba (w.1.map (BitVec.ofNat 8)) = true
    · simp only [hagrees, if_true]
      refine ⟨?_, trivial, trivial, fun hfailed => absurd hfailed ?_⟩ <;> split_ifs <;> simp
    · simp only [hagrees]
      exact ⟨by simp, rfl, rfl, fun _ => rfl⟩

include hwindow

theorem completes_tagDecodeStep (htag : f.tag = .none) : Completes (.tagDecodeStep l) s fun c =>
    (∃ g, c.frameOf l = some g ∧ g.tag ≠ .none ∧ g.item = f.item ∧ g.y = f.y ∧ (g.tag = .failed → g.tagHome = f.item.report.pba)) ∧
    c.regs = s.chip.regs ∧ s.chip.bytesKept c := by
  refine completes_on (f := fun c => c.tagDecode l) rfl ?_
  obtain ⟨g, hgo, hg⟩ := tagDecode_eq hy hframe hwindow htag
  simp only [hgo]
  exact ⟨⟨g, frameOf_setFrame _ _ _, hg⟩, setFrame_regs _ _ _, bytesKept_setFrame _ _ _⟩

theorem completes_frameConfirm (htag : f.tag = .ok ∨ f.tag = .corrected) (hfly : f.flywheel = false) (hconf : f.confirmed = false)
    (hshift : (f.shiftAt (y.2 + 2384)).isSome = true) : Completes (.frameConfirm l) s fun c =>
      c.frameOf l = some { f with confirmed := true, starts := [y.2 + 336] } ∧
      c.fld (FRM_CONFIRMED_COUNT (l.val / 8)) = min (s.chip.fld (FRM_CONFIRMED_COUNT (l.val / 8)) + 1) (2 ^ 32 - 1) ∧
      s.chip.fieldsKept [FRM_CONFIRMED_COUNT (l.val / 8)] c ∧ s.chip.bytesKept c := by
  refine completes_on (f := fun c => c.frameConfirm l) rfl ?_
  have hnone : f.tag ≠ .none := by obtain h | h := htag <;> simp [h]
  have hok : f.tag ≠ .failed := by obtain h | h := htag <;> simp [h]
  simp only [Chip.frameConfirm, onFrame_of_some hframe, hy, hwindow, hnone, hfly, hconf, hok, hshift, Bool.not_true, Bool.false_eq_true, or_false,
    if_false, ne_eq, not_false_eq_true, and_true, if_true]
  refine ⟨frameOf_setFrame _ _ _, ?_, fieldsKept_regs (setFrame_regs _ _ _) (fieldsKept_inc _ (by simp) (fieldsKept_refl _ _)),
    bytesKept_of_eq rfl rfl rfl⟩
  rw [fld_setFrame, fld_inc_same _ _ (by simp [FRM_CONFIRMED_COUNT])]
  simp only [FRM_CONFIRMED_COUNT]

end Provisional

section Resync

variable {y : Nat × Nat} (hy : f.y = some y) (hstarts : f.starts ≠ []) (hmore : f.starts.length < 27)

include hy hstarts hmore

theorem completes_resync_missed (hshift : f.shiftAt (f.starts.getLastD 0 + 2048) = none) : Completes (.resync l) s fun c =>
    c.frameOf l = some { f with starts := f.starts ++ [f.starts.getLastD 0 + 2072] } ∧ c.flag (FRM_EVENT_RESYNC_MISS (l.val / 8)) = true ∧
    c.fld (FRM_RESYNC_MISSED_COUNT (l.val / 8)) = min (s.chip.fld (FRM_RESYNC_MISSED_COUNT (l.val / 8)) + 1) (2 ^ 32 - 1) ∧
    s.chip.fieldsKept [FRM_EVENT_RESYNC_MISS (l.val / 8), FRM_RESYNC_MISSED_COUNT (l.val / 8)] c ∧ s.chip.bytesKept c := by
  refine completes_on (f := fun c => c.matchResync l) rfl ?_
  simp only [Chip.matchResync, onFrame_of_some hframe, hy, hstarts, hmore.not_ge, hshift, false_and, and_false, or_false, if_false]
  refine ⟨frameOf_setFrame _ _ _, ?_, ?_, ?_, bytesKept_of_eq rfl rfl rfl⟩
  · rw [flag_setFrame]
    exact flag_mark_same _ _ (by simp [FRM_EVENT_RESYNC_MISS]) (by simp [FRM_EVENT_RESYNC_MISS])
  · rw [fld_setFrame, fld_mark_apart, fld_inc_same]
    all_goals simp [apart, FRM_RESYNC_MISSED_COUNT, FRM_RESYNC_MISSED, FRM_EVENT_RESYNC_MISS, FRM_EVENT]
  · exact fieldsKept_regs (setFrame_regs _ _ _) (fieldsKept_mark _ (by simp) (fieldsKept_inc _ (by simp) (fieldsKept_refl _ _)))

theorem completes_resync_found (hshift : f.shiftAt (f.starts.getLastD 0 + 2048) = some 0) : Completes (.resync l) s fun c =>
    c.frameOf l = some { f with starts := f.starts ++ [f.starts.getLastD 0 + 2072] } ∧ c.regs = s.chip.regs ∧ s.chip.bytesKept c := by
  refine completes_on (f := fun c => c.matchResync l) rfl ?_
  have hplace (n : Nat) : (((n + 2048 : Nat) : Int) + 0).toNat + 24 = n + 2072 := by omega
  simp only [Chip.matchResync, onFrame_of_some hframe, hy, hstarts, hmore.not_ge, hshift, false_and, and_false, or_false, if_false, ne_eq, not_true,
    if_true, hplace]
  exact ⟨frameOf_setFrame _ _ _, setFrame_regs _ _ _, bytesKept_setFrame _ _ _⟩

end Resync

theorem completes_framerCommit (hbare : f.bare = true) (hroom : (s.chip.frm (l.val / 8)).toDecoder.length < 2) : Completes (.framerCommit l) s fun c =>
    c.frameOf l = none ∧ (∃ it, (c.frm (l.val / 8)).toDecoder = (s.chip.frm (l.val / 8)).toDecoder ++ [it] ∧ it.llr = none ∧ it.tag = .none ∧
      it.home = f.item.report.pba ∧ it.lane = l.val) ∧ c.regs = s.chip.regs ∧ s.chip.bytesKept c := by
  refine completes_on (f := fun c => c.framerCommit l) rfl ?_
  have hroom' : (s.chip.frm (l.val / 8)).room = true := decide_eq_true hroom
  simp only [Chip.framerCommit, onFrame_of_some hframe, hroom', hbare, Bool.not_true, Bool.false_eq_true, if_false, if_true]
  have hkept : ((s.chip.setFrame l none).frm (l.val / 8)).toDecoder = (s.chip.frm (l.val / 8)).toDecoder := by simp [Chip.setFrame]
  rw [frm_setFrm, hkept]
  refine ⟨?_, ⟨_, rfl, rfl, rfl, rfl, rfl⟩, rfl, bytesKept_of_eq rfl rfl rfl⟩
  simp [Chip.frameOf, Chip.setFrame]

end Framer

/-! ### The LDPC decoder (R226 to R229) -/

theorem completes_ldpcDecodeStart {s : State} {q : Pickup} {it : DecItem} {rest : List DecItem} {llr : List Int}
    (hactive : (s.chip.frm q).active = none) (hiter : (s.chip.frm q).iterating = []) (hitems : (s.chip.frm q).toDecoder = it :: rest)
    (hllr : it.llr = some llr) : Completes (.ldpcDecodeStart q) s fun c =>
      (c.frm q).active = some { item := it, input := llr } ∧ (c.frm q).toDecoder = rest ∧ c.regs = s.chip.regs ∧ s.chip.bytesKept c := by
  refine completes_when (f := fun c => c.ldpcStart q) rfl (by simp [hactive]) ?_
  simp only [Chip.ldpcStart, hiter, List.find?_nil, hitems, hllr]
  exact ⟨by rw [frm_setFrm], by rw [frm_setFrm, frm_setFrm], rfl, bytesKept_of_eq rfl rfl rfl⟩

/-- A decoding that fails and may go on asks for a further global iteration. -/
theorem ldpcDone_further {c : Chip} {q : Nat} {b : LdpcBlk} {r : Option (List Bool) × List Int × Nat × Nat}
    (hr : ldpcRun (iterBudget b.item.iter b.g b.iters) (fieldOf b.item.iter 28 3) b.input = r)
    (hfailed : r.1 = none) (hmore : b.g < b.item.iterMax) (hunsat : r.2.2.2 ≤ fieldOf b.item.iter 16 12) (hiters : b.iters + r.2.2.1 < 20)
    (hstore : (c.lane b.item.lane).store.any (fun y => y.pba == b.item.report.pba) = true) :
    c.ldpcDone q b = (c.setFrm q { c.frm q with active := none }).setFrm q
      { c.frm q with
        active := none,
        iterating := (c.frm q).iterating ++
          [{ b with g := b.g + 1, iters := b.iters + r.2.2.1, extrinsic := List.zipWith (· - ·) r.2.1 b.input }] } := by
  have hstore' : ((c.setFrm q { c.frm q with active := none }).lane b.item.lane).store.any (fun y => y.pba == b.item.report.pba) = true := hstore
  unfold Chip.ldpcDone
  simp only [hr, hfailed, Option.isSome_none, Bool.false_eq_true, if_false, hmore, hunsat, hiters, and_true, if_true, hstore', frm_setFrm]

theorem completes_ldpcDecodeDone {s : State} {q : Pickup} {b : LdpcBlk} (hactive : (s.chip.frm q).active = some b)
    {r : Option (List Bool) × List Int × Nat × Nat}
    (hr : ldpcRun (iterBudget b.item.iter b.g b.iters) (fieldOf b.item.iter 28 3) b.input = r)
    (hfailed : r.1 = none) (hmore : b.g < b.item.iterMax) (hunsat : r.2.2.2 ≤ fieldOf b.item.iter 16 12) (hiters : b.iters + r.2.2.1 < 20)
    (hstore : (s.chip.lane b.item.lane).store.any (fun y => y.pba == b.item.report.pba) = true) : Completes (.ldpcDecodeDone q) s fun c =>
      (c.frm q).active = none ∧ (c.frm q).iterating = (s.chip.frm q).iterating ++
        [{ b with g := b.g + 1, iters := b.iters + r.2.2.1, extrinsic := List.zipWith (· - ·) r.2.1 b.input }] ∧
      c.regs = s.chip.regs ∧ s.chip.bytesKept c := by
  refine ⟨_, rfl, rfl, ?_⟩
  simp only [hactive, ldpcDone_further hr hfailed hmore hunsat hiters hstore]
  exact ⟨by rw [frm_setFrm], by rw [frm_setFrm], rfl, bytesKept_of_eq rfl rfl rfl⟩

/-- Settles O40, by the clauses of the framer's and of the decoder's commands. -/
theorem framerPath : Obligations.FramerPath := by
  unfold Obligations.FramerPath
  intro s l p
  refine ⟨fun it hout hidle hen => completes_framerPop hout hidle hen, fun f hframe => ⟨fun y hbare hwindow hnext hy =>
      completes_syncCandidate hframe hbare hwindow hnext hy,
    fun hbare hwindow hnext hcands => completes_searchWindowEnd hframe hbare hwindow hnext hcands,
    fun y hy hwindow => ⟨fun htag => completes_tagDecodeStep hframe hy hwindow htag,
      fun htag hfly hconf hshift => completes_frameConfirm hframe hy hwindow htag hfly hconf hshift,
      fun hstarts hmore => ⟨fun hshift => completes_resync_missed hframe hy hstarts hmore hshift,
        fun hshift => completes_resync_found hframe hy hstarts hmore hshift⟩⟩,
    fun hbare hroom => completes_framerCommit hframe hbare hroom⟩,
    fun q it rest llr hactive hiter hitems hllr => completes_ldpcDecodeStart hactive hiter hitems hllr,
    ?done⟩
  intro q b hactive r hfailed hmore hunsat hiters hstore
  exact completes_ldpcDecodeDone hactive rfl hfailed hmore hunsat hiters hstore

end Sys2Proof.Machine
end

section
/-! Proofs about outer decoding, retries and station requests (O41). -/

namespace Sys2Proof.Machine

/-! ### Outer decoding (R230 to R235) -/

/-- What an outer decoding counts and notes of its run and its outcome. -/
def outerFields (p : Nat) : List Fld :=
  [FRM_OUTER_RECOVERED_COUNT p, FRM_MISCORRECT_COUNT p, FRM_EVENT_MISCORRECT p, FRM_OUTER_FAILED_COUNT p, FRM_EVENT_OUTER_FAIL p]

/-- Members that no request needs are released without an outcome. -/
theorem releaseAll_unneeded {c : Chip} {p : Nat} (hreqs : (c.frm p).reqs = []) (ms : List MemberRec) : c.releaseAll p ms = c := by
  have hneed (h : Nat) : c.needing p h = [] := by simp [Chip.needing, hreqs]
  have hrelease : ∀ ms : List MemberRec, ms.foldl (fun c m => c.release p m) c = c := by
    intro ms
    induction ms with
    | nil => rfl
    | cons m ms ih => simpa [Chip.release, hneed] using ih
  have hsettle : ∀ ms : List MemberRec, ms.foldl (fun c m => c.settleDegraded p m) c = c := by
    intro ms
    induction ms with
    | nil => rfl
    | cons m ms ih => simpa [Chip.settleDegraded, hneed] using ih
  rw [Chip.releaseAll, hrelease, hsettle]

theorem settleRetry_idle {c : Chip} {p : Nat} (hreqs : (c.frm p).reqs = []) (hretry : (c.frm p).retry = none) :
    c.settleRetry p = c.setFrm p { c.frm p with clusters := [], assembly := [] } := by
  simp [Chip.settleRetry, hretry, hreqs]

/-- The members of a cluster as the outer decoder finds them. -/
def Cluster.list (k : Cluster) (side layer cluster : Nat) : List MemberRec :=
  (List.range 64).map (fun i => { k.get i with home := memberHome side layer cluster i })

/-- The counts and events of an outer decoding's outcome (R232, R233). -/
def Chip.outerCounted (c : Chip) (p : Nat) (ms : List MemberRec) (out : Option (List (List Byte))) : Chip :=
  match out with
  | some bss =>
    let n := ((List.range 64).filter (fun i => outerChanged (ms.getD i {}) (bss.getD i []))).length
    let c := c.add (FRM_OUTER_RECOVERED_COUNT p) (((ms.take 56).filter MemberRec.isErased).length)
    if 0 < n then (c.add (FRM_MISCORRECT_COUNT p) n).mark (FRM_EVENT_MISCORRECT p) else c
  | none => (c.inc (FRM_OUTER_FAILED_COUNT p)).mark (FRM_EVENT_OUTER_FAIL p)

theorem fieldsKept_outerCounted (c : Chip) (p : Nat) (ms : List MemberRec) (out : Option (List (List Byte))) :
    c.fieldsKept (outerFields p) (c.outerCounted p ms out) := by
  cases out with
  | none => exact fieldsKept_mark _ (by simp [outerFields]) (fieldsKept_inc _ (by simp [outerFields]) (fieldsKept_refl _ _))
  | some bss =>
    have hrec := fieldsKept_add (FRM_OUTER_RECOVERED_COUNT p) (((ms.take 56).filter MemberRec.isErased).length) (by simp [outerFields])
      (fieldsKept_refl (outerFields p) c)
    simp only [Chip.outerCounted]
    split_ifs
    · exact fieldsKept_mark _ (by simp [outerFields]) (fieldsKept_add _ _ (by simp [outerFields]) hrec)
    · exact hrec

theorem regsOnly_add {a b : Chip} (g n) (h : a.regsOnly b) : a.regsOnly (b.add g n) := regsOnly_setFld _ _ h

theorem regsOnly_outerCounted {a c : Chip} (p : Nat) (ms : List MemberRec) (out : Option (List (List Byte))) (h : a.regsOnly c) :
    a.regsOnly (c.outerCounted p ms out) := by
  cases out with
  | none => exact regsOnly_mark _ (regsOnly_inc _ h)
  | some bss =>
    simp only [Chip.outerCounted]
    split_ifs
    · exact regsOnly_mark _ (regsOnly_add _ _ (regsOnly_add _ _ h))
    · exact regsOnly_add _ _ h

theorem frm_of_regsOnly {a c : Chip} (h : a.regsOnly c) (k : Nat) : c.frm k = a.frm k := by
  rw [h]
  rfl

section Outer

variable {c : Chip} {p layer cluster : Nat} {k : Cluster} (hretry : (c.frm p).retry = none)
  (hk : (Cells.get (fun _ => {}) (c.frm p).clusters (clusterKey layer cluster) : Cluster) = k)
  (herased : (k.list (c.vol p).side layer cluster).any MemberRec.isErased = true)
  (hparity : ((k.list (c.vol p).side layer cluster).drop 56).all (fun m => !m.blank) = true)

include hretry hk herased hparity

/-- A cluster without a sequence that has an erased member and its parity members: the outer decoder runs, and counts it. -/
theorem outerDecode_runs : ∃ (ms : List MemberRec) (out : Option (List (List Byte))) (f : FrmRec) (ms' : List MemberRec),
    f.reqs = (c.frm p).reqs ∧ f.retry = none ∧
    c.outerDecode p layer cluster =
      ((((c.inc (FRM_OUTER_RUNS_COUNT p)).outerCounted p ms out).setFrm p f).releaseAll p ms').settleRetry p := by
  have hsome : (0 < ((k.list (c.vol p).side layer cluster).filter MemberRec.isErased).length) := by
    obtain ⟨m, hm, hbad⟩ := List.any_eq_true.mp herased
    exact List.length_pos_of_mem (List.mem_filter.mpr ⟨hm, hbad⟩)
  have hregs (ms out) : c.regsOnly ((c.inc (FRM_OUTER_RUNS_COUNT p)).outerCounted p ms out) :=
    regsOnly_outerCounted p ms out (regsOnly_inc _ (regsOnly_refl c))
  have hreqs' (ms out) : (((c.inc (FRM_OUTER_RUNS_COUNT p)).outerCounted p ms out).frm p).reqs = (c.frm p).reqs := by
    rw [frm_of_regsOnly (hregs ms out)]
  have hretry' (ms out) : (((c.inc (FRM_OUTER_RUNS_COUNT p)).outerCounted p ms out).frm p).retry = none := by
    rw [frm_of_regsOnly (hregs ms out), hretry]
  unfold Chip.outerDecode
  simp only [hretry, Option.isSome_none, Bool.false_and, Bool.false_eq_true, if_false, hk]
  rw [← Cluster.list]
  simp only [hparity, hsome, decide_true, Bool.true_or, Bool.and_self, if_true]
  refine ⟨k.list (c.vol p).side layer cluster, outerColumns (k.list (c.vol p).side layer cluster), ?_⟩
  cases outerColumns (k.list (c.vol p).side layer cluster) with
  | none =>
    iterate 2 apply Exists.intro
    refine ⟨?_, ?_, ?_⟩
    rotate_left 2
    · exact rfl
    · exact hreqs' (k.list (c.vol p).side layer cluster) none
    · exact hretry' (k.list (c.vol p).side layer cluster) none
  | some bss =>
    iterate 2 apply Exists.intro
    refine ⟨?_, ?_, ?_⟩
    rotate_left 2
    · exact rfl
    · exact hreqs' (k.list (c.vol p).side layer cluster) (some bss)
    · exact hretry' (k.list (c.vol p).side layer cluster) (some bss)

end Outer

theorem completes_outerDecode {s : State} {p : Pickup} {layer : Fin 10} {cluster i : Nat} (hcluster : cluster < 244160)
    (hretry : (s.chip.frm p).retry = none) (hreqs : (s.chip.frm p).reqs = []) (hidle : s.chip.readIdle p = true) (hi : i < 64) {k : Cluster}
    (hk : (Cells.get (fun _ => {}) (s.chip.frm p).clusters (clusterKey layer cluster) : Cluster) = k) (hwhole : k.whole = true)
    (herased : (k.get i).state = .erased) (hparity : ∀ j < 8, (k.get (56 + j)).blank = false) : Completes (.outerDecode p layer cluster) s fun c =>
      c.fld (FRM_OUTER_RUNS_COUNT p) = min (s.chip.fld (FRM_OUTER_RUNS_COUNT p) + 1) (2 ^ 32 - 1) ∧ (c.frm p).clusters = [] ∧
      s.chip.bytesKept c := by
  refine completes_onIf (f := fun c => c.when (c.outerReady p layer cluster) fun c => c.outerDecode p layer cluster) rfl (decide_eq_true hcluster) ?_
  have hready : s.chip.outerReady p layer cluster = true := by
    simp only [Chip.outerReady, hretry, Option.isSome_none, Bool.false_and, Bool.false_eq_true, if_false, hk, hwhole, hidle, Bool.or_true,
      Bool.true_and, Bool.true_or]
  have hany : (k.list (s.chip.vol p).side layer cluster).any MemberRec.isErased = true :=
    List.any_eq_true.mpr ⟨_, List.mem_map_of_mem (List.mem_range.mpr hi), by simp only [MemberRec.isErased, herased]⟩
  have hall : ((k.list (s.chip.vol p).side layer cluster).drop 56).all (fun m => !m.blank) = true := by
    have htail : (List.range 64).drop 56 = (List.range 8).map (56 + ·) := by decide
    rw [Cluster.list, ← List.map_drop, htail, List.all_eq_true]
    intro m hm
    simp only [List.map_map, List.mem_map, List.mem_range, Function.comp] at hm
    obtain ⟨j, hj, rfl⟩ := hm
    simpa using hparity j hj
  obtain ⟨ms, out, f, ms', hreqs', hretry', heq⟩ := outerDecode_runs hretry hk hany hall
  rw [hreqs] at hreqs'
  simp only [Chip.when, hready, if_true]
  rw [heq, releaseAll_unneeded (by rw [frm_setFrm, hreqs']), settleRetry_idle (by rw [frm_setFrm, hreqs']) (by rw [frm_setFrm, hretry'])]
  have hregs := regsOnly_outerCounted p ms out (regsOnly_inc (FRM_OUTER_RUNS_COUNT p) (regsOnly_refl s.chip))
  refine ⟨?_, ?_, bytesKept_trans (bytesKept_of_regsOnly hregs) (bytesKept_of_eq rfl rfl rfl)⟩
  · rw [fld_setFrm, fld_setFrm, fieldsKept_outerCounted _ p ms out (FRM_OUTER_RUNS_COUNT p), fld_inc_same]
    all_goals simp [outerFields, apart, FRM_OUTER_RUNS_COUNT, FRM_OUTER_RUNS, FRM_OUTER_RECOVERED_COUNT, FRM_OUTER_RECOVERED,
      FRM_MISCORRECT_COUNT, FRM_MISCORRECT, FRM_EVENT_MISCORRECT, FRM_EVENT, FRM_OUTER_FAILED_COUNT, FRM_OUTER_FAILED, FRM_EVENT_OUTER_FAIL]
  · rw [frm_setFrm]

/-! ### Retries (R241 to R243) -/

/-- The lanes of a pickup as attempt `a` has them (Table 5.6). -/
def Chip.attemptLane (c : Chip) (p a : Nat) (r : Retry) (k : Nat) : Chip :=
  (c.setAttemptFields (8 * p + k) (attemptSet a (r.saved.getD k []))).updLane (8 * p + k) fun x => { x with landNext := true, seeds := attemptRow a == 5 }

/-- A new attempt that retries otherwise than the one before asks it of the loop pair (R353). -/
def Chip.attemptAsked (c : Chip) (p attempt : Nat) : Chip :=
  if (if attempt < 2 then 0 else attemptStep attempt) ≠ attemptStep (attempt + 1) then
    c.pushCmd p (BitVec.ofNat 32 (0x08 + 256 * attemptStep (attempt + 1))) 0 else c

/-- All that an attempt sets but the sequence's own record. -/
def Chip.attemptBegun (c : Chip) (p : Nat) (r : Retry) : Chip :=
  ((List.range 8).foldl (fun c k => c.attemptLane p (r.attempt + 1) r k) (c.inc (FRM_ATTEMPTS_COUNT p))).attemptAsked p r.attempt

/-- The next attempt of a sequence with a block that a request needs. -/
theorem retryAttempt_next {c : Chip} {p h a : Nat} {r : Retry} {q : ReadReq} (hretry : (c.frm p).retry = some r) (hblocks : r.blocks = [(h, a, false)])
    (hwaiting : r.waiting = []) (hreqs : (c.frm p).reqs = [q]) (hkind : q.kind = .read) (hleft : h ∈ q.left) (habort : q.aborted = false)
    (hmax : r.attempt < c.fld (FRM_RETRY_CFG_RETRY_MAX p)) :
    c.retryAttempt p r = (c.attemptBegun p r).setFrm p
      { (c.attemptBegun p r).frm p with attempt := r.attempt + 1, retry := some { r with attempt := r.attempt + 1 }, clusters := [] } := by
  have hneeded : c.allAborted p h = false := by simp [Chip.allAborted, Chip.needing, ReadReq.needs, hreqs, hkind, hleft, habort]
  have hgone : (r.blocks.map (·.1) ++ r.waiting).filter (fun h => c.allAborted p h) = [] := by simp [hblocks, hwaiting, hneeded]
  have hsome : r.blocks ≠ [] := by simp [hblocks]
  unfold Chip.retryAttempt
  simp only [hgone, List.foldl_nil, hretry, hsome, if_false, hmax.not_ge]
  rfl

theorem lane_attemptLane (c : Chip) (p a : Nat) (r : Retry) (k : Nat) : ((c.attemptLane p a r k).lane (8 * p + k)).landNext = true := by
  rw [Chip.attemptLane, lane_updLane]

theorem lane_attemptLane_other (c : Chip) (p a : Nat) (r : Retry) {k j : Nat} (h : j ≠ k) :
    (c.attemptLane p a r k).lane (8 * p + j) = c.lane (8 * p + j) := by
  rw [Chip.attemptLane, lane_updLane_other _ _ (by omega)]
  rfl

theorem landNext_attemptLanes (c : Chip) (p a : Nat) (r : Retry) {n k : Nat} (hk : k < n) :
    (((List.range n).foldl (fun c k => c.attemptLane p a r k) c).lane (8 * p + k)).landNext = true := by
  induction n with
  | zero => omega
  | succ n ih =>
    rw [List.range_succ, List.foldl_append, List.foldl_cons, List.foldl_nil]
    by_cases hn : k = n
    · rw [hn, lane_attemptLane]
    · rw [lane_attemptLane_other _ _ _ _ hn]
      exact ih (by omega)

/-- What an attempt writes to the registers of a lane. -/
def attemptLaneFields (l : Nat) : List Fld := [RCH_CTRL_ITER_MAX l, RCH_CTRL_LEARN_EN l, RCH_LAND_CFG_WINDOW l, RCH_DEFECT_CFG_LLR_SCALE l]

theorem fieldsKept_attemptLane (c : Chip) (p a : Nat) (r : Retry) (k : Nat) :
    c.fieldsKept (attemptLaneFields (8 * p + k)) (c.attemptLane p a r k) :=
  fieldsKept_regs (updLane_regs ..) (fieldsKept_setFld _ _ (by simp [attemptLaneFields]) (fieldsKept_setFld _ _ (by simp [attemptLaneFields])
    (fieldsKept_setFld _ _ (by simp [attemptLaneFields]) (fieldsKept_setFld _ _ (by simp [attemptLaneFields]) (fieldsKept_refl _ _)))))

theorem fld_attempts_attemptLanes (c : Chip) {p : Nat} (_hp : p < 16) (a : Nat) (r : Retry) {ks : List Nat} (hks : ∀ k ∈ ks, k < 8) :
    (ks.foldl (fun c k => c.attemptLane p a r k) c).fld (FRM_ATTEMPTS_COUNT p) = c.fld (FRM_ATTEMPTS_COUNT p) := by
  induction ks generalizing c with
  | nil => rfl
  | cons k ks ih =>
    have hk := hks k List.mem_cons_self
    refine (ih (c.attemptLane p a r k) fun j hj => hks j (List.mem_cons_of_mem _ hj)).trans ?_
    refine fieldsKept_attemptLane c p a r k (FRM_ATTEMPTS_COUNT p) (by simp [FRM_ATTEMPTS_COUNT]) fun g hg => apart_of_reg ?_
    simp only [attemptLaneFields, List.mem_cons, List.not_mem_nil, or_false] at hg
    obtain rfl | rfl | rfl | rfl := hg <;>
      simp only [FRM_ATTEMPTS_COUNT, FRM_ATTEMPTS, RCH_CTRL_ITER_MAX, RCH_CTRL_LEARN_EN, RCH_CTRL, RCH_LAND_CFG_WINDOW, RCH_LAND_CFG,
        RCH_DEFECT_CFG_LLR_SCALE, RCH_DEFECT_CFG] <;> omega

theorem bytesKept_foldl {α : Type} {a c : Chip} (f : Chip → α → Chip) (xs : List α) (h : a.bytesKept c)
    (hf : ∀ c x, a.bytesKept c → a.bytesKept (f c x)) : a.bytesKept (xs.foldl f c) := by
  induction xs generalizing c with
  | nil => exact h
  | cons x xs ih => exact ih (hf c x h)

theorem lane_pushCmd (c : Chip) (q : Nat) (v arg : Q) (k : Nat) : (c.pushCmd q v arg).lane k = c.lane k := by
  simp only [Chip.pushCmd]
  split_ifs <;> rfl

theorem bytesKept_pushCmd (c : Chip) (q : Nat) (v arg : Q) : c.bytesKept (c.pushCmd q v arg) := by
  simp only [Chip.pushCmd]
  split_ifs <;> exact bytesKept_of_eq rfl rfl rfl

theorem fieldsKept_pushCmd (c : Chip) (q : Nat) (v arg : Q) : c.fieldsKept [LE_PAIR_EVENT_CMD_LOST q] (c.pushCmd q v arg) := by
  simp only [Chip.pushCmd]
  split_ifs
  · exact fieldsKept_of_regs rfl
  · exact fieldsKept_mark _ (by simp) (fieldsKept_refl _ _)

theorem attemptAsked_cases (c : Chip) (p attempt : Nat) : c.attemptAsked p attempt = c ∨ ∃ v, c.attemptAsked p attempt = c.pushCmd p v 0 := by
  unfold Chip.attemptAsked
  by_cases h : (if attempt < 2 then 0 else attemptStep attempt) ≠ attemptStep (attempt + 1)
  · exact .inr ⟨_, if_pos h⟩
  · exact .inl (if_neg h)

theorem lane_attemptAsked (c : Chip) (p attempt k : Nat) : (c.attemptAsked p attempt).lane k = c.lane k := by
  obtain h | ⟨v, h⟩ := attemptAsked_cases c p attempt
  · rw [h]
  · rw [h, lane_pushCmd]

theorem bytesKept_attemptAsked (c : Chip) (p attempt : Nat) : c.bytesKept (c.attemptAsked p attempt) := by
  obtain h | ⟨v, h⟩ := attemptAsked_cases c p attempt
  · rw [h]
    exact bytesKept_refl c
  · rw [h]
    exact bytesKept_pushCmd ..

theorem fieldsKept_attemptAsked (c : Chip) (p attempt : Nat) : c.fieldsKept [LE_PAIR_EVENT_CMD_LOST p] (c.attemptAsked p attempt) := by
  obtain h | ⟨v, h⟩ := attemptAsked_cases c p attempt
  · rw [h]
    exact fieldsKept_refl _ c
  · rw [h]
    exact fieldsKept_pushCmd _ _ _ _

theorem completes_retryAttempt {s : State} {p : Pickup} {r : Retry} {h a : Nat} {q : ReadReq} (hretry : (s.chip.frm p).retry = some r)
    (hidle : s.chip.readIdle p = true) (hmounted : s.chip.mounted p = true) (hresumed : s.chip.afe.resumed = true)
    (hblocks : r.blocks = [(h, a, false)]) (hwaiting : r.waiting = []) (hreqs : (s.chip.frm p).reqs = [q]) (hkind : q.kind = .read)
    (hleft : h ∈ q.left) (habort : q.aborted = false) (hmax : r.attempt < s.chip.fld (FRM_RETRY_CFG_RETRY_MAX p)) :
    Completes (.retryAttempt p) s fun c =>
      (c.frm p).attempt = r.attempt + 1 ∧ (c.frm p).retry = some { r with attempt := r.attempt + 1 } ∧ (c.frm p).clusters = [] ∧
      c.fld (FRM_ATTEMPTS_COUNT p) = min (s.chip.fld (FRM_ATTEMPTS_COUNT p) + 1) (2 ^ 32 - 1) ∧ (∀ k < 8, (c.lane (8 * p + k)).landNext = true) ∧
      s.chip.bytesKept c := by
  refine ⟨_, rfl, rfl, ?_⟩
  simp only [hretry, Chip.when, hidle, hmounted, hresumed, Bool.and_self, if_true]
  rw [retryAttempt_next hretry hblocks hwaiting hreqs hkind hleft habort hmax]
  refine ⟨by rw [frm_setFrm], by rw [frm_setFrm], by rw [frm_setFrm], ?_, fun k hk => ?_, ?_⟩
  · rw [fld_setFrm, Chip.attemptBegun, fieldsKept_attemptAsked _ _ _ (FRM_ATTEMPTS_COUNT p), fld_attempts_attemptLanes _ p.isLt _ _
      (fun k hk => List.mem_range.mp hk), fld_inc_same _ _ (by simp [FRM_ATTEMPTS_COUNT])]
    · simp only [FRM_ATTEMPTS_COUNT]
    · simp [FRM_ATTEMPTS_COUNT]
    · intro g hg
      rw [List.mem_singleton.mp hg]
      exact apart_of_reg (by simp only [FRM_ATTEMPTS_COUNT, FRM_ATTEMPTS, LE_PAIR_EVENT_CMD_LOST, LE_PAIR_EVENT]; omega)
  · have hlane : ((s.chip.attemptBegun p r).lane (8 * p + k)).landNext = true := by
      rw [Chip.attemptBegun, lane_attemptAsked]
      exact landNext_attemptLanes _ _ _ _ hk
    exact hlane
  · have hlanes : s.chip.bytesKept ((List.range 8).foldl (fun c k => c.attemptLane p (r.attempt + 1) r k) (s.chip.inc (FRM_ATTEMPTS_COUNT p))) :=
      bytesKept_foldl _ _ (bytesKept_of_eq rfl rfl rfl) fun c k hc => bytesKept_trans hc (bytesKept_of_eq rfl rfl rfl)
    exact bytesKept_trans (bytesKept_trans hlanes (bytesKept_attemptAsked _ _ _)) (bytesKept_of_eq rfl rfl rfl)

/-! ### Station requests (R500) -/

theorem weir_setFrm (c : Chip) (k x i) : (c.setFrm k x).weir i = c.weir i := (rfl)

theorem takeItem_request (c : Chip) (p : Nat) : c.takeItem 3 p = c.setWeir (weirKey 3 p) (c.weir (weirKey 3 p)).dropRest.1 := rfl

theorem completes_stationRequest {s : State} {p : Pickup} {it : List WWord} {rest : List (List WWord)} {number count lba : Nat} {ahead : Bool}
    (hitems : (s.chip.weir (weirKey 3 p)).items = it :: rest) (honline : (s.chip.seqr p).online = true) (hrun : (s.chip.cal p).run = none)
    (hband : s.chip.bandDue p = false) (hmounted : s.chip.mounted p = true) (hnumber : number < 2 ^ 32) (hcount : 0 < count) (hcount' : count < 4096)
    (hlba : lba + count ≤ volumeBlocks) (hwords : it.map (fun w => w.v.toNat) = [number + 2 ^ 32 * ahead.toNat, lba, count])
    (hnew : ∀ f ∈ s.chip.buf.fills, f.number ≠ number) : Completes (.stationRequest p) s fun c =>
      (c.frm p).reqs = (s.chip.frm p).reqs ++
        [{ number := number, kind := if ahead then .readAhead else .read, lba := lba,
           left := (List.range count).map (fun i => homePba (s.chip.vol p).side (lba + i)) }] ∧
      (c.weir (weirKey 3 p)).items = rest ∧ s.chip.bytesKept c := by
  refine completes_on (f := fun c => c.stationRequest p) rfl ?_
  have hnum : (number + 2 ^ 32 * ahead.toNat) % 2 ^ 32 = number := by rw [Nat.add_mul_mod_self_left, Nat.mod_eq_of_lt hnumber]
  have hahead : (number + 2 ^ 32 * ahead.toNat) / 2 ^ 32 % 2 = 1 ↔ ahead = true := by cases ahead <;> simp <;> omega
  have hlbas : ((List.range count).map (lba + ·)).filter (fun b => decide (b < volumeBlocks)) = (List.range count).map (lba + ·) := by
    refine List.filter_eq_self.mpr fun b hb => ?_
    obtain ⟨i, hi, rfl⟩ := List.mem_map.mp hb
    have := List.mem_range.mp hi
    exact decide_eq_true (by omega)
  have hfills : s.chip.buf.fills.any (fun f => f.number == number && f.left.isEmpty) = false := by
    simp only [List.any_eq_false, Bool.and_eq_true, beq_iff_eq, not_and]
    exact fun f hf hfn => absurd hfn (hnew f hf)
  have hmounted' (w : Weir) : (s.chip.setWeir (weirKey 3 p) w).mounted p = true := hmounted
  have hvol (w : Weir) : (s.chip.setWeir (weirKey 3 p) w).vol p = s.chip.vol p := rfl
  have hhomes : ((List.range count).map (lba + ·)).map (homePba (s.chip.vol p).side) ≠ [] := by
    simp only [ne_eq, List.map_eq_nil_iff, List.range_eq_nil]
    omega
  simp only [Chip.stationRequest, hitems, honline, hrun, Option.isSome_none, Bool.not_true, Bool.false_eq_true, or_self, if_false, hband,
    takeItem_request, hwords, List.getD_cons_zero, List.getD_cons_succ, hnum, Nat.mod_eq_of_lt hcount', hlbas, setWeir_buf, hfills, hmounted', hvol,
    Bool.true_or, hhomes, hahead]
  refine ⟨?_, ?_, bytesKept_of_eq rfl rfl rfl⟩
  · rw [frm_setFrm, List.map_map]
    rfl
  · rw [weir_setFrm, weir_setWeir, Weir.dropRest_eq, hitems]
    rfl

/-- Settles O41, by the outer decoder's run, the next attempt of a sequence, and the taking of a request. -/
theorem outerAndRetry : Obligations.OuterAndRetry := by
  unfold Obligations.OuterAndRetry
  refine ⟨fun s p => ⟨?outer, fun r h a q hretry hidle hmounted hresumed hblocks hwaiting hreqs hkind hleft habort hmax =>
      completes_retryAttempt hretry hidle hmounted hresumed hblocks hwaiting hreqs hkind hleft habort hmax⟩,
    fun s p it rest number count lba ahead hitems honline hrun hband hmounted hnumber hcount hcount' hlba hwords hnew =>
      completes_stationRequest hitems honline hrun hband hmounted hnumber hcount hcount' hlba hwords hnew⟩
  intro layer cluster i hcluster hretry hreqs hidle hi k hwhole herased hparity
  exact completes_outerDecode hcluster hretry hreqs hidle hi rfl hwhole herased hparity

end Sys2Proof.Machine
end

section
/-! Proofs about hardware calibration cycles, the VCO band and the ADC reference (O47). -/

namespace Sys2Proof.Machine

/-! ### Hardware cycles (R568, R574) -/

theorem fits_puStatus (p : Nat) : (CAL_PU_STATUS_CYCLE p).lo + (CAL_PU_STATUS_CYCLE p).w ≤ 64 ∧ (CAL_PU_STATUS_ITEM p).lo + (CAL_PU_STATUS_ITEM p).w ≤ 64 ∧
    (CAL_PU_STATUS_STALE p).lo + (CAL_PU_STATUS_STALE p).w ≤ 64 ∧ (CAL_PU_STATUS_START_REFUSED p).lo + (CAL_PU_STATUS_START_REFUSED p).w ≤ 64 := by
  simp [CAL_PU_STATUS_CYCLE, CAL_PU_STATUS_ITEM, CAL_PU_STATUS_STALE, CAL_PU_STATUS_START_REFUSED]

/-- A START that is not refused, of an item that is not FAILED. -/
theorem startCycle_begun {c : Chip} {p : Nat} (hcycle : c.flag (CAL_PU_STATUS_CYCLE p) = false)
    (hok : c.startRefused p (c.fld (CAL_PU_CTRL_ITEM p)) = false) (hitem : c.fld (CAL_ITEM_STATE p (c.fld (CAL_PU_CTRL_ITEM p))) ≠ 3) :
    c.startCycle p = (((c.setFld (CAL_PU_STATUS_START_REFUSED p) 0).setFld (CAL_PU_STATUS_CYCLE p) 1).setFld (CAL_PU_STATUS_ITEM p)
      (c.fld (CAL_PU_CTRL_ITEM p))).setFld (CAL_PU_STATUS_STALE p) 1 := by
  have hstate : (c.setFld (CAL_PU_STATUS_START_REFUSED p) 0).fld (CAL_ITEM_STATE p (c.fld (CAL_PU_CTRL_ITEM p))) ≠ 3 := by
    rwa [fld_setFld_apart _ _ _ _ (by simp [CAL_ITEM_STATE]) (apart_of_reg ?_)]
    simp only [CAL_ITEM_STATE, CAL_ITEM, CAL_PU_STATUS_START_REFUSED, CAL_PU_STATUS]
    omega
  simp only [Chip.startCycle, hcycle, hok, Bool.false_eq_true, if_false, Chip.beginItemCycle, hstate]

section Cycle

variable {s : State} {p : Pickup}

theorem completes_calCycleStart_refused (hcycle : s.chip.flag (CAL_PU_STATUS_CYCLE p) = false)
    (hrefused : s.chip.startRefused p (s.chip.fld (CAL_PU_CTRL_ITEM p)) = true) : Completes (.calCycleStart p) s fun c =>
      c.flag (CAL_PU_STATUS_START_REFUSED p) = true ∧ s.chip.fieldsKept [CAL_PU_STATUS_START_REFUSED p] c ∧ s.chip.regsOnly c := by
  refine completes_on (f := fun c => c.startCycle p) rfl ?_
  simp only [Chip.startCycle, hcycle, hrefused, Bool.false_eq_true, if_false, if_true]
  exact ⟨flag_mark_same _ _ (by simp [CAL_PU_STATUS_START_REFUSED]) (by simp [CAL_PU_STATUS_START_REFUSED]),
    fieldsKept_setFld _ _ (by simp) (fieldsKept_refl _ _), regsOnly_setFld _ _ (regsOnly_refl _)⟩

theorem completes_calCycleStart_begun (hcycle : s.chip.flag (CAL_PU_STATUS_CYCLE p) = false)
    (hok : s.chip.startRefused p (s.chip.fld (CAL_PU_CTRL_ITEM p)) = false) (hitem : s.chip.fld (CAL_ITEM_STATE p (s.chip.fld (CAL_PU_CTRL_ITEM p))) ≠ 3) :
    Completes (.calCycleStart p) s fun c =>
      c.flag (CAL_PU_STATUS_CYCLE p) = true ∧ c.fld (CAL_PU_STATUS_ITEM p) = s.chip.fld (CAL_PU_CTRL_ITEM p) ∧ c.flag (CAL_PU_STATUS_STALE p) = true ∧
      c.flag (CAL_PU_STATUS_START_REFUSED p) = false ∧
      s.chip.fieldsKept [CAL_PU_STATUS_CYCLE p, CAL_PU_STATUS_ITEM p, CAL_PU_STATUS_STALE p, CAL_PU_STATUS_START_REFUSED p] c ∧ s.chip.regsOnly c := by
  refine completes_on (f := fun c => c.startCycle p) rfl ?_
  obtain ⟨hfc, hfi, hfs, hfr⟩ := fits_puStatus p
  have hitem_lt : s.chip.fld (CAL_PU_CTRL_ITEM p) < 2 ^ 4 := (fld_lt s.chip (CAL_PU_CTRL_ITEM p)).trans (by simp [CAL_PU_CTRL_ITEM])
  simp only [startCycle_begun hcycle hok hitem]
  generalize s.chip.fld (CAL_PU_CTRL_ITEM p) = n at *
  refine ⟨?_, ?_, ?_, ?_, fieldsKept_setFld _ _ (by simp) (fieldsKept_setFld _ _ (by simp) (fieldsKept_setFld _ _ (by simp)
    (fieldsKept_setFld _ _ (by simp) (fieldsKept_refl _ _)))), regsOnly_setFld _ _ (regsOnly_setFld _ _ (regsOnly_setFld _ _ (regsOnly_setFld _ _
    (regsOnly_refl _))))⟩
  · rw [flag_setFld_apart, flag_setFld_apart]
    · exact flag_mark_same _ _ hfc (by simp [CAL_PU_STATUS_CYCLE])
    all_goals simp [apart, CAL_PU_STATUS_CYCLE, CAL_PU_STATUS_ITEM, CAL_PU_STATUS_STALE]
  · rw [fld_setFld_apart, fld_setFld_same _ _ _ hfi]
    · exact Nat.mod_eq_of_lt hitem_lt
    all_goals simp [apart, CAL_PU_STATUS_ITEM, CAL_PU_STATUS_STALE]
  · exact flag_mark_same _ _ hfs (by simp [CAL_PU_STATUS_STALE])
  · rw [flag_setFld_apart, flag_setFld_apart, flag_setFld_apart]
    · exact flag_setFld_zero _ _ (by simp [CAL_PU_STATUS_START_REFUSED])
    all_goals simp [apart, CAL_PU_STATUS_CYCLE, CAL_PU_STATUS_ITEM, CAL_PU_STATUS_STALE, CAL_PU_STATUS_START_REFUSED]

end Cycle

/-- The results of a cycle, as the registers show them. -/
def resultWrites (p item : Nat) (rs : List (BitVec 16)) : List (Fld × Nat) :=
  (List.range 14).map fun j => (CAL_PU_RESULT_VALUE p j, if item = 1 ∧ 8 ≤ j then 0 else (rs.getD j 0).toNat)

theorem resultWrites_apart (p item : Nat) (rs : List (BitVec 16)) : (resultWrites p item rs).Pairwise fun x y => apart x.1 y.1 := by
  refine List.pairwise_map.mpr ((List.nodup_range (n := 14)).imp fun {i j} hij => apart_of_reg ?_)
  simp only [CAL_PU_RESULT_VALUE, CAL_PU_RESULT]
  omega

theorem mem_resultWrites {p item : Nat} {rs : List (BitVec 16)} {x : Fld × Nat} (hx : x ∈ resultWrites p item rs) :
    ∃ j < 14, x = (CAL_PU_RESULT_VALUE p j, if item = 1 ∧ 8 ≤ j then 0 else (rs.getD j 0).toNat) := by
  obtain ⟨j, hj, rfl⟩ := List.mem_map.mp hx
  exact ⟨j, List.mem_range.mp hj, rfl⟩

theorem fld_resultWrites (c : Chip) (p item : Nat) (rs : List (BitVec 16)) {j : Nat} (hj : j < 14) :
    (c.putFlds (resultWrites p item rs)).fld (CAL_PU_RESULT_VALUE p j) = if item = 1 ∧ 8 ≤ j then 0 else (rs.getD j 0).toNat := by
  have hmem : (CAL_PU_RESULT_VALUE p j, if item = 1 ∧ 8 ≤ j then 0 else (rs.getD j 0).toNat) ∈ resultWrites p item rs :=
    List.mem_map.mpr ⟨j, List.mem_range.mpr hj, rfl⟩
  have hfits : ∀ x ∈ resultWrites p item rs, x.1.lo + x.1.w ≤ 64 := by
    intro x hx
    obtain ⟨i, -, rfl⟩ := mem_resultWrites hx
    simp [CAL_PU_RESULT_VALUE]
  refine (fld_putFlds_mem c hfits (resultWrites_apart p item rs) hmem).trans (Nat.mod_eq_of_lt ?_)
  simp only [CAL_PU_RESULT_VALUE]
  split_ifs
  · decide
  · exact (rs.getD j 0).isLt

theorem fieldsKept_putFlds (c : Chip) (ws : List (Fld × Nat)) : c.fieldsKept (ws.map Prod.fst) (c.putFlds ws) := by
  intro f hf happart
  exact fld_putFlds_apart c hf fun x hx => happart _ (List.mem_map_of_mem hx)

theorem lane_putFlds (c : Chip) (ws : List (Fld × Nat)) (k : Nat) : (c.putFlds ws).lane k = c.lane k := lane_of_regsOnly (regsOnly_putFlds c ws) k

/-- Whether START is refused rests on no result register. -/
theorem startRefused_putFlds (c : Chip) {ws : List (Fld × Nat)} (p item : Nat)
    (h : ∀ x ∈ ws, apart (LE_PAIR_CTRL_RUN p) x.1 ∧ apart WMM_PS_STATUS_ACTED x.1) : (c.putFlds ws).startRefused p item = c.startRefused p item := by
  have hrun : (c.putFlds ws).flag (LE_PAIR_CTRL_RUN p) = c.flag (LE_PAIR_CTRL_RUN p) :=
    flag_eq_of_fld (fld_putFlds_apart c (by simp [LE_PAIR_CTRL_RUN]) fun x hx => (h x hx).1)
  have hacted : (c.putFlds ws).flag WMM_PS_STATUS_ACTED = c.flag WMM_PS_STATUS_ACTED :=
    flag_eq_of_fld (fld_putFlds_apart c (by decide) fun x hx => (h x hx).2)
  have hloop : (c.putFlds ws).loop p = c.loop p := by rw [regsOnly_putFlds c ws]; rfl
  have hpair : (c.putFlds ws).pair p = c.pair p := by rw [regsOnly_putFlds c ws]; rfl
  simp only [Chip.startRefused, Chip.gateOut, lane_putFlds, hrun, hacted, hloop, hpair]

theorem completes_calCycleDone {s : State} {p : Pickup} {rs : List (BitVec 16)} (hlen : rs.length = 14)
    (hcycle : s.chip.flag (CAL_PU_STATUS_CYCLE p) = true) (hitem : s.chip.fld (CAL_PU_STATUS_ITEM p) ≤ 1) (hfirst : (s.chip.cal p).first = none)
    (hok : s.chip.startRefused p (s.chip.fld (CAL_PU_STATUS_ITEM p)) = false) : Completes (.calCycleDone p rs) s fun c =>
      (∀ j < 8, c.fld (CAL_PU_RESULT_VALUE p j) = (rs.getD j 0).toNat) ∧
      (∀ j, 8 ≤ j → j < 14 → c.fld (CAL_PU_RESULT_VALUE p j) = if s.chip.fld (CAL_PU_STATUS_ITEM p) = 1 then 0 else (rs.getD j 0).toNat) ∧
      (c.cal p).first.isSome = true ∧ c.flag (CAL_PU_STATUS_CYCLE p) = true ∧
      s.chip.fieldsKept ((List.range 14).map (CAL_PU_RESULT_VALUE p)) c ∧ s.chip.bytesKept c := by
  refine completes_onIf (f := fun c => c.when (c.flag (CAL_PU_STATUS_CYCLE p) && decide (c.fld (CAL_PU_STATUS_ITEM p) ≤ 1)) fun c =>
    c.cycleDone p rs) rfl (by simp [hlen]) ?_
  generalize hn : s.chip.fld (CAL_PU_STATUS_ITEM p) = item at *
  have hp := p.isLt
  have happart : ∀ x ∈ resultWrites p item rs, apart (LE_PAIR_CTRL_RUN p) x.1 ∧ apart WMM_PS_STATUS_ACTED x.1 := by
    intro x hx
    obtain ⟨j, hj, rfl⟩ := mem_resultWrites hx
    refine ⟨apart_of_reg ?_, apart_of_reg ?_⟩ <;>
      simp only [LE_PAIR_CTRL_RUN, LE_PAIR_CTRL, WMM_PS_STATUS_ACTED, WMM_PS_STATUS, CAL_PU_RESULT_VALUE, CAL_PU_RESULT] <;> omega
  have hgo : (s.chip.putFlds (resultWrites p item rs)).startRefused p item = false := by rw [startRefused_putFlds _ _ _ happart, hok]
  have hwrites : (List.range 14).foldl (fun c j => c.setFld (CAL_PU_RESULT_VALUE p j) (if item = 1 ∧ 8 ≤ j then 0 else (rs.getD j 0).toNat)) s.chip =
      s.chip.putFlds (resultWrites p item rs) := rfl
  have hnone : ((s.chip.putFlds (resultWrites p item rs)).cal p).first = none := by rw [cal_of_regsOnly (regsOnly_putFlds _ _), hfirst]
  have hkept := fieldsKept_putFlds s.chip (resultWrites p item rs)
  have hfields : (resultWrites p item rs).map Prod.fst = (List.range 14).map (CAL_PU_RESULT_VALUE p) := by
    rw [resultWrites, List.map_map]
    rfl
  rw [hfields] at hkept
  simp only [Chip.when, hn, hcycle, hitem, decide_true, Bool.and_self, if_true, Chip.cycleDone, hwrites, hnone, hgo, Bool.false_eq_true, if_false]
  refine ⟨fun j hj => ?_, fun j hj hj' => ?_, ?_, ?_, fieldsKept_regs (setCal_regs _ _ _) hkept,
    bytesKept_trans (bytesKept_of_regsOnly (regsOnly_putFlds _ _)) (bytesKept_of_eq rfl rfl rfl)⟩
  · rw [fld_setCal, fld_resultWrites _ _ _ _ (by omega), if_neg (by omega)]
  · rw [fld_setCal, fld_resultWrites _ _ _ _ hj']
    simp only [hj, and_true]
  · rw [cal_setCal]
    rfl
  · rw [flag_setCal, flag_eq_of_fld (hkept (CAL_PU_STATUS_CYCLE p) (by simp [CAL_PU_STATUS_CYCLE]) ?_), hcycle]
    intro g hg
    obtain ⟨j, hj, rfl⟩ := List.mem_map.mp hg
    exact apart_of_reg (by simp only [CAL_PU_STATUS_CYCLE, CAL_PU_STATUS, CAL_PU_RESULT_VALUE, CAL_PU_RESULT]; omega)

/-! ### The VCO band (R583) -/

section Tune

variable {s : State} {tune : Fin 1001}

theorem completes_pllTuneCheck_quiet (h : s.chip.flag CAL_CTRL_PLL_AUTO = false ∨ s.chip.flag CAL_PLL_PENDING = false ∧ 200 ≤ tune.val ∧ tune.val ≤ 800) :
    Completes (.pllTuneCheck tune) s fun c => c.fld CAL_PLL_TUNE = tune ∧ s.chip.fieldsKept [CAL_PLL_TUNE] c ∧ s.chip.regsOnly c := by
  refine completes_on (f := fun c => c.tuneCheck tune) rfl ?_
  have hauto : (s.chip.setFld CAL_PLL_TUNE tune).flag CAL_CTRL_PLL_AUTO = s.chip.flag CAL_CTRL_PLL_AUTO :=
    flag_setFld_apart _ _ _ _ (by decide) (by decide)
  have hpending : (s.chip.setFld CAL_PLL_TUNE tune).flag CAL_PLL_PENDING = s.chip.flag CAL_PLL_PENDING :=
    flag_setFld_apart _ _ _ _ (by decide) (by decide)
  have hset : s.chip.tuneCheck tune = s.chip.setFld CAL_PLL_TUNE tune := by
    simp only [Chip.tuneCheck, hauto]
    obtain hoff | ⟨hnone, hlo, hhi⟩ := h
    · simp only [hoff, Bool.not_false, if_true]
    · have hin : ¬(tune.val < 200 ∨ 800 < tune.val) := by omega
      simp only [hin, if_false, hpending, hnone, Bool.false_eq_true, false_and, ite_self]
  simp only [hset]
  refine ⟨?_, fieldsKept_setFld _ _ (by simp) (fieldsKept_refl _ _), regsOnly_setFld _ _ (regsOnly_refl _)⟩
  rw [fld_setFld_same _ _ _ (by decide)]
  exact Nat.mod_eq_of_lt (tune.isLt.trans (by decide))

theorem completes_pllTuneCheck_pending (hauto : s.chip.flag CAL_CTRL_PLL_AUTO = true) (h : 50 < tune.val ∧ tune.val < 200 ∨ 800 < tune.val ∧ tune.val < 950) :
    Completes (.pllTuneCheck tune) s fun c =>
      c.fld CAL_PLL_TUNE = tune ∧ c.flag CAL_PLL_PENDING = true ∧ s.chip.fieldsKept [CAL_PLL_TUNE, CAL_PLL_PENDING] c ∧ s.chip.regsOnly c := by
  refine completes_on (f := fun c => c.tuneCheck tune) rfl ?_
  have hauto' : (s.chip.setFld CAL_PLL_TUNE tune).flag CAL_CTRL_PLL_AUTO = true := by
    rw [flag_setFld_apart _ _ _ _ (by decide) (by decide), hauto]
  have hout : tune.val < 200 ∨ 800 < tune.val := by omega
  have hmild : ¬(tune.val ≤ 50 ∨ 950 ≤ tune.val) := by omega
  simp only [Chip.tuneCheck, hauto', Bool.not_true, Bool.false_eq_true, if_false, hout, if_true, hmild, and_false]
  refine ⟨?_, flag_mark_same _ _ (by decide) (by decide), fieldsKept_setFld _ _ (by simp) (fieldsKept_setFld _ _ (by simp) (fieldsKept_refl _ _)),
    regsOnly_setFld _ _ (regsOnly_setFld _ _ (regsOnly_refl _))⟩
  rw [fld_setFld_apart _ _ _ _ (by decide) (by decide), fld_setFld_same _ _ _ (by decide)]
  exact Nat.mod_eq_of_lt (tune.isLt.trans (by decide))

end Tune

theorem completes_pllCal {s : State} : Completes .pllCal s fun c =>
    c.flag CAL_PLL_PENDING = true ∧ s.chip.fieldsKept [CAL_PLL_PENDING] c ∧ s.chip.regsOnly c :=
  completes_on (f := fun c => c.setFld CAL_PLL_PENDING 1) rfl ⟨flag_mark_same _ _ (by decide) (by decide),
    fieldsKept_setFld _ _ (by simp) (fieldsKept_refl _ _), regsOnly_setFld _ _ (regsOnly_refl _)⟩

/-- The fields that a change of band writes. -/
def bandFields : List Fld := [CAL_PLL_PENDING, AFE_PLL_STATUS_VCO_BAND, CAL_PLL_BAND, CAL_BAND_CHANGES_COUNT, CAL_EVENT_PLL_BAND]

/-- A change of the band shows on both registers and is counted and noted. -/
theorem setBand_shows (c : Chip) (b : Nat) :
    (c.setBand b).fld AFE_PLL_STATUS_VCO_BAND = b % 64 ∧ (c.setBand b).fld CAL_PLL_BAND = b % 64 ∧
    (c.setBand b).flag CAL_PLL_PENDING = c.flag CAL_PLL_PENDING ∧ (c.setBand b).flag CAL_EVENT_PLL_BAND = true ∧
    (c.setBand b).fld CAL_BAND_CHANGES_COUNT = min (c.fld CAL_BAND_CHANGES_COUNT + 1) (2 ^ CAL_BAND_CHANGES_COUNT.w - 1) ∧
    c.fieldsKept bandFields (c.setBand b) ∧ c.regsOnly (c.setBand b) := by
  unfold Chip.setBand
  refine ⟨?_, ?_, ?_, flag_mark_same _ _ (by decide) (by decide), ?_, fieldsKept_mark _ (by simp [bandFields]) (fieldsKept_inc _ (by simp [bandFields])
    (fieldsKept_setFld _ _ (by simp [bandFields]) (fieldsKept_setFld _ _ (by simp [bandFields]) (fieldsKept_refl _ _)))),
    regsOnly_mark _ (regsOnly_inc _ (regsOnly_setFld _ _ (regsOnly_setFld _ _ (regsOnly_refl _))))⟩
  · rw [fld_mark_apart, fld_inc_apart, fld_setFld_apart, fld_setFld_same]
    · rfl
    all_goals decide
  · rw [fld_mark_apart, fld_inc_apart, fld_setFld_same]
    · rfl
    all_goals decide
  · rw [flag_mark_apart, flag_inc_apart, flag_setFld_apart, flag_setFld_apart]
    all_goals decide
  · rw [fld_mark_apart, fld_inc_same, fld_setFld_apart, fld_setFld_apart]
    all_goals decide

theorem bandStep_back {c : Chip} (hrev : c.thermal.reverse = true) : c.bandStep =
    ((c.setFld CAL_PLL_PENDING 0).setThermal { c.thermal with reverse := false, stepFrom := none }).setBand
      (c.thermal.stepFrom.getD (c.fld CAL_PLL_BAND)) := by
  unfold Chip.bandStep
  simp only [hrev, if_true]

theorem bandStep_forth {c : Chip} (hrev : c.thermal.reverse = false) :
    ∃ b', (b' = min 63 (c.fld CAL_PLL_BAND + 1) ∨ b' = c.fld CAL_PLL_BAND - 1) ∧
      c.bandStep = ((c.setFld CAL_PLL_PENDING 0).setThermal { c.thermal with stepFrom := some (c.fld CAL_PLL_BAND) }).setBand b' := by
  unfold Chip.bandStep
  simp only [hrev, Bool.false_eq_true, if_false]
  refine ⟨_, ?_, rfl⟩
  split_ifs
  · exact .inl rfl
  · exact .inr rfl

theorem completes_pllBandStep {s : State} (hpending : s.chip.flag CAL_PLL_PENDING = true) (hidle : s.chip.idleBoundary = true) :
    Completes .pllBandStep s fun c =>
      let b := s.chip.fld CAL_PLL_BAND
      c.flag CAL_PLL_PENDING = false ∧ c.fld AFE_PLL_STATUS_VCO_BAND = c.fld CAL_PLL_BAND ∧ c.flag CAL_EVENT_PLL_BAND = true ∧
      c.fld CAL_BAND_CHANGES_COUNT = min (s.chip.fld CAL_BAND_CHANGES_COUNT + 1) (2 ^ CAL_BAND_CHANGES_COUNT.w - 1) ∧
      (s.chip.thermal.reverse = false → (c.fld CAL_PLL_BAND = min 63 (b + 1) ∨ c.fld CAL_PLL_BAND = b - 1) ∧ c.thermal.stepFrom = some b) ∧
      (∀ b0 < 64, s.chip.thermal.reverse = true → s.chip.thermal.stepFrom = some b0 → c.fld CAL_PLL_BAND = b0 ∧ c.thermal.stepFrom = none) ∧
      s.chip.fieldsKept [CAL_PLL_PENDING, AFE_PLL_STATUS_VCO_BAND, CAL_PLL_BAND, CAL_BAND_CHANGES_COUNT, CAL_EVENT_PLL_BAND] c ∧ s.chip.bytesKept c := by
  refine completes_when (f := fun c => c.bandStep) rfl (by simp [hpending, hidle]) ?_
  have hb : s.chip.fld CAL_PLL_BAND < 64 := fld_lt s.chip CAL_PLL_BAND
  obtain ⟨b', t', hstep, hnew⟩ : ∃ (b' : Nat) (t' : CalSt), s.chip.bandStep = ((s.chip.setFld CAL_PLL_PENDING 0).setThermal t').setBand b' ∧
      ((s.chip.thermal.reverse = false → (b' = min 63 (s.chip.fld CAL_PLL_BAND + 1) ∨ b' = s.chip.fld CAL_PLL_BAND - 1) ∧
          t'.stepFrom = some (s.chip.fld CAL_PLL_BAND)) ∧
        ∀ b0 < 64, s.chip.thermal.reverse = true → s.chip.thermal.stepFrom = some b0 → b' = b0 ∧ t'.stepFrom = none) := by
    by_cases hrev : s.chip.thermal.reverse = true
    · refine ⟨_, _, bandStep_back hrev, fun h => absurd (hrev.symm.trans h) (by decide), fun b0 _ _ h => ⟨?_, rfl⟩⟩
      rw [h, Option.getD_some]
    · obtain ⟨b', hb', hstep⟩ := bandStep_forth (Bool.eq_false_of_not_eq_true hrev)
      exact ⟨b', _, hstep, fun _ => ⟨hb', rfl⟩, fun b0 _ h => absurd h hrev⟩
  obtain ⟨hnormal, hback⟩ := hnew
  obtain ⟨hvco, hband, hpend, hev, hcount, hkept, hregs⟩ := setBand_shows ((s.chip.setFld CAL_PLL_PENDING 0).setThermal t') b'
  have hthermal : (((s.chip.setFld CAL_PLL_PENDING 0).setThermal t').setBand b').thermal = t' := by rw [hregs]; rfl
  simp only [hstep, hvco, hband, hpend, hev, hcount, hthermal]
  refine ⟨?_, trivial, trivial, ?_, fun hrev => ?_, fun b0 hb0 hrev hfrom => ?_, ?_, ?_⟩
  · rw [flag_setThermal]
    exact flag_setFld_zero _ _ (by decide)
  · rw [fld_setThermal, fld_setFld_apart _ _ _ _ (by decide) (by decide)]
  · obtain ⟨hcase, hfrom⟩ := hnormal hrev
    refine ⟨hcase.imp (fun h => ?_) (fun h => ?_), hfrom⟩ <;> omega
  · obtain ⟨hcase, hnone⟩ := hback b0 hb0 hrev hfrom
    exact ⟨by omega, hnone⟩
  · exact fieldsKept_trans (fieldsKept_regs (setThermal_regs _ _) (fieldsKept_setFld _ _ (by simp) (fieldsKept_refl _ _))) hkept
  · exact bytesKept_trans (b := (s.chip.setFld CAL_PLL_PENDING 0).setThermal t') (bytesKept_of_eq rfl rfl rfl) (bytesKept_of_regsOnly hregs)

/-! ### Items of the device (R568, R583) -/

theorem judgeDevice_good (c : Chip) (f : Fld) : c.judgeDevice f true = (0, (c.setFld f 1).inc CAL_ACCEPTS_COUNT) := rfl

/-- What a rejected measurement of a device item may change beside the count and the event. -/
def deviceFields (f : Fld) : List Fld := [f, CAL_FAILS_COUNT, CAL_EVENT_CAL_FAIL, CAL_EVENT_DEV_FAIL]

theorem judgeDevice_bad (c : Chip) (f : Fld) :
    ((c.inc CAL_REJECTS_COUNT).mark CAL_EVENT_CAL_REJECT).fieldsKept (deviceFields f) (c.judgeDevice f false).2 ∧ c.regsOnly (c.judgeDevice f false).2 := by
  have hregs : c.regsOnly ((c.inc CAL_REJECTS_COUNT).mark CAL_EVENT_CAL_REJECT) := regsOnly_mark _ (regsOnly_inc _ (regsOnly_refl c))
  have hkept := fieldsKept_refl (deviceFields f) ((c.inc CAL_REJECTS_COUNT).mark CAL_EVENT_CAL_REJECT)
  simp only [Chip.judgeDevice, Bool.false_eq_true, if_false]
  split_ifs
  · exact ⟨hkept, hregs⟩
  · exact ⟨fieldsKept_mark _ (by simp [deviceFields]) (fieldsKept_mark _ (by simp [deviceFields]) (fieldsKept_inc _ (by simp [deviceFields])
      (fieldsKept_setFld _ _ (by simp [deviceFields]) hkept))), regsOnly_mark _ (regsOnly_mark _ (regsOnly_inc _ (regsOnly_setFld _ _ hregs)))⟩
  · exact ⟨fieldsKept_setFld _ _ (by simp [deviceFields]) hkept, regsOnly_setFld _ _ hregs⟩

section Measured

variable {s : State} {t1 t2 : Fin 1001} (hstep : s.chip.thermal.stepFrom.isSome = true) (hrev : s.chip.thermal.reverse = false)
  (hby : s.chip.thermal.pllBy = [])

include hstep hrev hby

theorem completes_pllBandMeasured_good (h1 : 200 ≤ t1.val) (h1' : t1.val ≤ 800) (h2 : 200 ≤ t2.val) (h2' : t2.val ≤ 800) :
    Completes (.pllBandMeasured t1 t2) s fun c =>
      c.fld CAL_PLL_TUNE = t2 ∧ c.thermal.stepFrom = none ∧
      c.fld CAL_ACCEPTS_COUNT = min (s.chip.fld CAL_ACCEPTS_COUNT + 1) (2 ^ CAL_ACCEPTS_COUNT.w - 1) ∧
      s.chip.fieldsKept [CAL_PLL_TUNE, CAL_DEV_ITEMS_PLL, CAL_ACCEPTS_COUNT] c ∧ s.chip.bytesKept c := by
  refine completes_when (f := fun c => c.bandMeasured t1 t2) rfl (by simp [hstep, hrev]) ?_
  have hgood : (decide (200 ≤ t1.val ∧ t1.val ≤ 800) && decide (200 ≤ t2.val ∧ t2.val ≤ 800)) = true := by simp [h1, h1', h2, h2']
  have hby' : (((s.chip.setFld CAL_PLL_TUNE t2).setFld CAL_DEV_ITEMS_PLL 1).inc CAL_ACCEPTS_COUNT).thermal.pllBy = [] := hby
  simp only [Chip.bandMeasured, hgood, judgeDevice_good, if_true, hby', Chip.endDevice, List.foldl_nil]
  refine ⟨?_, rfl, ?_, fieldsKept_regs (setThermal_regs _ _) (fieldsKept_inc _ (by simp) (fieldsKept_setFld _ _ (by simp)
    (fieldsKept_setFld _ _ (by simp) (fieldsKept_refl _ _)))), bytesKept_of_eq rfl rfl rfl⟩
  · rw [fld_setThermal, fld_inc_apart, fld_setFld_apart, fld_setFld_same]
    · exact Nat.mod_eq_of_lt (t2.isLt.trans (by decide))
    all_goals decide
  · rw [fld_setThermal, fld_inc_same, fld_setFld_apart, fld_setFld_apart]
    all_goals decide

theorem completes_pllBandMeasured_bad (h : t1.val < 200 ∨ 800 < t2.val) : Completes (.pllBandMeasured t1 t2) s fun c =>
    c.fld CAL_PLL_TUNE = t2 ∧ c.thermal.reverse = true ∧ c.flag CAL_PLL_PENDING = true ∧ c.flag CAL_EVENT_CAL_REJECT = true ∧
    c.fld CAL_REJECTS_COUNT = min (s.chip.fld CAL_REJECTS_COUNT + 1) (2 ^ CAL_REJECTS_COUNT.w - 1) ∧ s.chip.bytesKept c := by
  refine completes_when (f := fun c => c.bandMeasured t1 t2) rfl (by simp [hstep, hrev]) ?_
  have hbad : (decide (200 ≤ t1.val ∧ t1.val ≤ 800) && decide (200 ≤ t2.val ∧ t2.val ≤ 800)) = false := by
    simp only [Bool.and_eq_false_iff, decide_eq_false_iff_not]
    omega
  obtain ⟨hkept, hregs⟩ := judgeDevice_bad (s.chip.setFld CAL_PLL_TUNE t2) CAL_DEV_ITEMS_PLL
  have hby' : ((s.chip.setFld CAL_PLL_TUNE t2).judgeDevice CAL_DEV_ITEMS_PLL false).2.thermal.pllBy = [] := by
    rw [hregs]
    exact hby
  simp only [Chip.bandMeasured, hbad, Bool.false_eq_true, if_false, hby', Chip.endDevice, List.foldl_nil]
  generalize ((s.chip.setFld CAL_PLL_TUNE t2).judgeDevice CAL_DEV_ITEMS_PLL false).2 = c' at *
  refine ⟨?_, rfl, flag_mark_same _ _ (by decide) (by decide), ?_, ?_, ?_⟩
  · rw [fld_setFld_apart _ _ _ _ (by decide) (by decide), fld_setThermal, hkept CAL_PLL_TUNE (by decide) (by decide), fld_mark_apart, fld_inc_apart,
      fld_setFld_same]
    · exact Nat.mod_eq_of_lt (t2.isLt.trans (by decide))
    all_goals decide
  · rw [flag_setFld_apart _ _ _ _ (by decide) (by decide), flag_setThermal, flag_eq_of_fld (hkept CAL_EVENT_CAL_REJECT (by decide) (by decide))]
    exact flag_mark_same _ _ (by decide) (by decide)
  · rw [fld_setFld_apart _ _ _ _ (by decide) (by decide), fld_setThermal, hkept CAL_REJECTS_COUNT (by decide) (by decide), fld_mark_apart,
      fld_inc_same, fld_setFld_apart]
    all_goals decide
  · exact bytesKept_trans (b := c') (bytesKept_of_regsOnly (regsOnly_trans (regsOnly_setFld _ _ (regsOnly_refl _)) hregs)) (bytesKept_of_eq rfl rfl rfl)

end Measured

/-- With nothing that waits for the reference, forgetting those that wait changes nothing. -/
theorem setThermal_refBy {c : Chip} (h : c.thermal.refBy = []) : c.setThermal { c.thermal with refBy := [] } = c := by
  rw [← h]
  rfl

section Reference

variable {s : State} {a b : BitVec 10} (hby : s.chip.thermal.refBy = [])

include hby

theorem completes_refCal_good (h : (a.toInt - b.toInt).natAbs ≤ 1) : Completes (.refCal a b) s fun c =>
    c.fld CAL_REF_TRIM = b.toNat ∧ c.fld CAL_ACCEPTS_COUNT = min (s.chip.fld CAL_ACCEPTS_COUNT + 1) (2 ^ CAL_ACCEPTS_COUNT.w - 1) ∧
    s.chip.fieldsKept [CAL_REF_TRIM, CAL_DEV_ITEMS_REF, CAL_ACCEPTS_COUNT] c ∧ s.chip.regsOnly c := by
  refine completes_on (f := fun c => c.refCal a b) rfl ?_
  have hby' : ((s.chip.setFld CAL_DEV_ITEMS_REF 1).inc CAL_ACCEPTS_COUNT).thermal.refBy = [] := hby
  simp only [Chip.refCal, decide_eq_true h, judgeDevice_good, if_true, setThermal_refBy hby', hby, Chip.endDevice, List.foldl_nil]
  refine ⟨?_, ?_, fieldsKept_setFld _ _ (by simp) (fieldsKept_inc _ (by simp) (fieldsKept_setFld _ _ (by simp) (fieldsKept_refl _ _))),
    regsOnly_setFld _ _ (regsOnly_inc _ (regsOnly_setFld _ _ (regsOnly_refl _)))⟩
  · rw [fld_setFld_same _ _ _ (by decide)]
    exact Nat.mod_eq_of_lt b.isLt
  · rw [fld_setFld_apart, fld_inc_same, fld_setFld_apart]
    all_goals decide

theorem completes_refCal_bad (h : 1 < (a.toInt - b.toInt).natAbs) : Completes (.refCal a b) s fun c =>
    c.fld CAL_REF_TRIM = s.chip.fld CAL_REF_TRIM ∧ c.flag CAL_EVENT_CAL_REJECT = true ∧
    c.fld CAL_REJECTS_COUNT = min (s.chip.fld CAL_REJECTS_COUNT + 1) (2 ^ CAL_REJECTS_COUNT.w - 1) ∧ s.chip.regsOnly c := by
  refine completes_on (f := fun c => c.refCal a b) rfl ?_
  obtain ⟨hkept, hregs⟩ := judgeDevice_bad s.chip CAL_DEV_ITEMS_REF
  have hby' : (s.chip.judgeDevice CAL_DEV_ITEMS_REF false).2.thermal.refBy = [] := by
    rw [hregs]
    exact hby
  simp only [Chip.refCal, decide_eq_false h.not_ge, Bool.false_eq_true, if_false, setThermal_refBy hby', hby, Chip.endDevice, List.foldl_nil]
  refine ⟨?_, ?_, ?_, hregs⟩
  · rw [hkept CAL_REF_TRIM (by decide) (by decide), fld_mark_apart, fld_inc_apart]
    all_goals decide
  · rw [flag_eq_of_fld (hkept CAL_EVENT_CAL_REJECT (by decide) (by decide))]
    exact flag_mark_same _ _ (by decide) (by decide)
  · rw [hkept CAL_REJECTS_COUNT (by decide) (by decide), fld_mark_apart, fld_inc_same]
    all_goals decide

end Reference

/-- Settles O47, by the clauses of the cycle, of the band and of the reference. -/
theorem calibrationCycles : Obligations.CalibrationCycles := by
  unfold Obligations.CalibrationCycles
  intro s regs
  refine ⟨fun p => ⟨fun hcycle hrefused => completes_calCycleStart_refused hcycle hrefused,
      fun hcycle hok hitem => completes_calCycleStart_begun hcycle hok hitem,
      fun rs hlen hcycle hitem hfirst hok => completes_calCycleDone hlen hcycle hitem hfirst hok⟩,
    fun tune => ⟨fun h => completes_pllTuneCheck_quiet h, fun hauto h => completes_pllTuneCheck_pending hauto h⟩, completes_pllCal,
    fun hpending hidle => completes_pllBandStep hpending hidle,
    fun t1 t2 hstep hrev hby => ⟨fun h1 h1' h2 h2' => completes_pllBandMeasured_good hstep hrev hby h1 h1' h2 h2',
      fun h => completes_pllBandMeasured_bad hstep hrev hby h⟩,
    fun a b hby => ⟨fun h => completes_refCal_good hby h, fun h => completes_refCal_bad hby h⟩⟩

end Sys2Proof.Machine
end

section
/-! Proofs about temperature sensors, thermal levels and aging monitors (O48). -/

namespace Sys2Proof.Machine

/-! ### Sensors and their holders -/

/-- HOTTEST, BROKEN and FAST of a die. -/
def dieStatusFields (d : Die) : List Fld :=
  if d = .h then [THH_STATUS_HOTTEST, THH_STATUS_BROKEN, THH_STATUS_FAST] else [CAL_STATUS_HOTTEST, CAL_STATUS_BROKEN, CAL_STATUS_FAST]

/-- TEMP of sensor `i` of a die. -/
def dieTemp (d : Die) (i : Nat) : Fld := if d = .h then THH_SENSOR_TEMP i else CAL_SENSOR_TEMP i

/-- The warmer of the warmest sensor so far and sensor `i`. -/
def hotter (t : Nat → Nat) (b : Option Nat) (i : Nat) : Option Nat :=
  match b with
  | none => some i
  | some j => if t j < t i then some i else b

/-- A sensor above all others is found the hottest. -/
theorem foldl_hotter {t : Nat → Nat} {i : Nat} {xs : List Nat} {b : Option Nat} (hb : b = some i ∨ i ∈ xs ∧ ∀ j, b = some j → t j < t i)
    (h : ∀ j ∈ xs, j ≠ i → t j < t i) : xs.foldl (hotter t) b = some i := by
  induction xs generalizing b with
  | nil =>
    obtain rfl | ⟨hi, -⟩ := hb
    · rfl
    · exact absurd hi List.not_mem_nil
  | cons x xs ih =>
    refine ih ?_ fun j hj => h j (List.mem_cons_of_mem _ hj)
    by_cases hx : x = i
    · subst hx
      refine .inl ?_
      obtain rfl | ⟨-, hb⟩ := hb
      · exact if_neg (lt_irrefl _)
      · cases b with
        | none => rfl
        | some j => exact if_pos (hb j rfl)
    · have hlt := h x List.mem_cons_self hx
      obtain rfl | ⟨hi, hb⟩ := hb
      · exact .inl (if_neg hlt.not_gt)
      · refine .inr ⟨(List.mem_cons.mp hi).resolve_left (Ne.symm hx), fun j hj => ?_⟩
        cases b with
        | none =>
          obtain rfl : x = j := Option.some.inj hj
          exact hlt
        | some j' =>
          simp only [hotter] at hj
          split_ifs at hj with hcmp
          · obtain rfl : x = j := Option.some.inj hj
            exact hlt
          · exact hb j hj

/-- The good sensors of a die. -/
def Chip.goodSensors (c : Chip) (d : Die) : List Nat := (List.range 12).filter (fun i => !(c.sens (dieBase d + i)).broken)

theorem dieStatus_hot (c : Chip) (d : Die) : (c.dieStatus d).1 = (c.goodSensors d).foldl (hotter fun i => c.fld (dieTemp d i)) none := rfl

theorem dieStatus_kept (c : Chip) (d : Die) : c.fieldsKept (dieStatusFields d) (c.dieStatus d).2 ∧ c.regsOnly (c.dieStatus d).2 := by
  cases d with
  | h => exact ⟨fieldsKept_setFlag _ _ (by simp [dieStatusFields]) (fieldsKept_setFld _ _ (by simp [dieStatusFields])
      (fieldsKept_setFld _ _ (by simp [dieStatusFields]) (fieldsKept_refl _ _))),
      regsOnly_setFlag _ _ (regsOnly_setFld _ _ (regsOnly_setFld _ _ (regsOnly_refl _)))⟩
  | m => exact ⟨fieldsKept_setFlag _ _ (by simp [dieStatusFields]) (fieldsKept_setFld _ _ (by simp [dieStatusFields])
      (fieldsKept_setFld _ _ (by simp [dieStatusFields]) (fieldsKept_refl _ _))),
      regsOnly_setFlag _ _ (regsOnly_setFld _ _ (regsOnly_setFld _ _ (regsOnly_refl _)))⟩

theorem sens_setSens (c : Chip) (k x) : (c.setSens k x).sens k = x := by simp [Chip.sens, Chip.setSens]
theorem sens_setSens_other (c : Chip) {k i : Nat} (x) (h : i ≠ k) : (c.setSens k x).sens i = c.sens i := by
  simp [Chip.sens, Chip.setSens, Cells.get_put_other _ _ _ _ _ h]
theorem heat_setSens (c : Chip) (k x i) : (c.setSens k x).heat i = c.heat i := (rfl)
theorem heat_setHeat (c : Chip) (k x) : (c.setHeat k x).heat k = x := by simp [Chip.heat, Chip.setHeat]
theorem sens_setHeat (c : Chip) (k x i) : (c.setHeat k x).sens i = c.sens i := (rfl)

theorem sens_of_regsOnly {a c : Chip} (h : a.regsOnly c) (k : Nat) : c.sens k = a.sens k := by
  rw [h]
  rfl

theorem heat_of_regsOnly {a c : Chip} (h : a.regsOnly c) (k : Nat) : c.heat k = a.heat k := by
  rw [h]
  rfl

theorem bytesKept_setThermal (c : Chip) (x) : c.bytesKept (c.setThermal x) := bytesKept_of_eq rfl rfl rfl

/-- A die none of whose sensors is broken gives no level of its own. -/
theorem brokenLevel_good {c : Chip} {d : Die} (h : ∀ j < 12, (c.sens (dieBase d + j)).broken = false) : c.brokenLevel (.die d) = 0 := by
  have hnone : (List.range 12).filter (fun i => (c.sens (dieBase d + i)).broken) = [] :=
    List.filter_eq_nil_iff.mpr fun j hj => by simp [h j (List.mem_range.mp hj)]
  simp only [Chip.brokenLevel, hnone, List.length_nil]
  rfl

theorem goodSensors_all {c : Chip} {d : Die} (h : ∀ j < 12, (c.sens (dieBase d + j)).broken = false) : c.goodSensors d = List.range 12 :=
  List.filter_eq_self.mpr fun j hj => by simp [h j (List.mem_range.mp hj)]

theorem settleLevel_same {c : Chip} {h : Heat} (hlevel : max (c.heat (heatNum h)).lvl (c.brokenLevel h) = c.fld (heatLevel h)) :
    c.settleLevel h = c := by
  simp only [Chip.settleLevel, hlevel, if_true]

theorem settleLevel_new {c : Chip} {h : Heat} {l : Nat} (hl : max (c.heat (heatNum h)).lvl (c.brokenLevel h) = l) (hnew : l ≠ c.fld (heatLevel h)) :
    c.settleLevel h = c.applyLevel h l := by
  simp only [Chip.settleLevel, hl, hnew, if_false]

/-- What an evaluation below THROTTLE and PARK makes of a holder at level 0 (Table 14.4). -/
theorem evalHeat_normal {c : Chip} {h : Heat} {t : Nat} (hlvl : (c.heat (heatNum h)).lvl = 0) (h1 : t < c.heatAt h 1) (h2 : t < c.heatAt h 2) :
    ∃ k : HeatRec, c.evalHeat h t = (c.setHeat (heatNum h) k).settleLevel h ∧ (t < c.heatAt h 0 → k.lvl = 0) ∧
      (c.heatAt h 0 ≤ t → (c.heat (heatNum h)).upW = 1 → k.lvl = 1) := by
  refine ⟨_, rfl, fun h0 => ?_, fun h0 hup => ?_⟩
  · simp [hlvl, h0.not_ge, h1.not_ge, h2.not_ge]
  · have hnot : ¬(t + c.heatHyst h < c.heatAt h 0) := by omega
    simp [hlvl, h0, h1.not_ge, h2.not_ge, hup, hnot]

/-! ### Evaluations of a die's sensor (R579 to R582, R586) -/

/-- A reading shows in TEMP, and in PEAK where it is higher. -/
def Chip.readingShown (c : Chip) (k : Sensor) (t : Nat) : Chip :=
  if (c.setFld (sensTemp k) t).fld (sensPeak k) < t then (c.setFld (sensTemp k) t).setFld (sensPeak k) t else c.setFld (sensTemp k) t

theorem sens_fits (k : Sensor) : (sensTemp k).lo + (sensTemp k).w ≤ 64 ∧ (sensPeak k).lo + (sensPeak k).w ≤ 64 ∧ apart (sensTemp k) (sensPeak k) ∧
    (sensTemp k).w = 11 ∧ (sensPeak k).w = 11 := by
  obtain ⟨d, i⟩ | p := k
  · cases d
    · simp [sensTemp, sensPeak, apart, THH_SENSOR_TEMP, THH_SENSOR_PEAK]
    · simp [sensTemp, sensPeak, apart, CAL_SENSOR_TEMP, CAL_SENSOR_PEAK]
  · simp [sensTemp, sensPeak, apart, CAL_TH_TEMP_TEMP, CAL_TH_TEMP_PEAK]

theorem readingShown_shows (c : Chip) (k : Sensor) {t : Nat} (ht : t < 2 ^ 11) :
    (c.readingShown k t).fld (sensTemp k) = t ∧ (c.readingShown k t).fld (sensPeak k) = max (c.fld (sensPeak k)) t ∧
    c.fieldsKept [sensTemp k, sensPeak k] (c.readingShown k t) ∧ c.regsOnly (c.readingShown k t) := by
  obtain ⟨hft, hfp, happart, hwt, hwp⟩ := sens_fits k
  have htemp : (c.setFld (sensTemp k) t).fld (sensTemp k) = t := by rw [fld_setFld_same _ _ _ hft, hwt, Nat.mod_eq_of_lt ht]
  have hpeak : (c.setFld (sensTemp k) t).fld (sensPeak k) = c.fld (sensPeak k) := fld_setFld_apart _ _ _ _ hfp (apart_symm happart)
  have hkept : c.fieldsKept [sensTemp k, sensPeak k] (c.setFld (sensTemp k) t) := fieldsKept_setFld _ _ (by simp) (fieldsKept_refl _ _)
  have hregs : c.regsOnly (c.setFld (sensTemp k) t) := regsOnly_setFld _ _ (regsOnly_refl c)
  unfold Chip.readingShown
  split_ifs with hlt
  · refine ⟨by rw [fld_setFld_apart _ _ _ _ hft happart, htemp], ?_, fieldsKept_setFld _ _ (by simp) hkept, regsOnly_setFld _ _ hregs⟩
    rw [fld_setFld_same _ _ _ hfp, hwp, Nat.mod_eq_of_lt ht]
    rw [hpeak] at hlt
    exact (max_eq_right hlt.le).symm
  · rw [hpeak] at hlt
    exact ⟨htemp, by rw [hpeak, max_eq_left (not_lt.mp hlt)], hkept, hregs⟩

/-- A good reading of a sensor that is not broken: it shows, and the die is looked at. -/
theorem evalSensor_good {c : Chip} {d : Die} {i : Fin 12} {t : Nat} (hgood : (c.sens (dieBase d + i)).broken = false) (hlo : 192 ≤ t) (hhi : t ≤ 1712) :
    ∃ x : SensRec, x.broken = false ∧ c.evalSensor (.die d i) t =
      ((c.readingShown (.die d i) t).setSens (dieBase d + i) x).afterSensor (.die d i) (some t) := by
  have hcode (c : Chip) : c.readingCode (.die d i) t = 0 := by
    have hopen : t ≠ 0x7FF := by omega
    have hshort : t ≠ 0 := by omega
    have hrange : ¬(t < 192 ∨ 1712 < t) := by omega
    simp only [Chip.readingCode, hopen, hshort, hrange, if_false]
  have hnum : sensNum (.die d i) = dieBase d + i := by cases d <;> simp [sensNum, dieBase]
  have hgood' : ((c.readingShown (.die d i) t).sens (dieBase d + i)).broken = false := by
    rw [sens_of_regsOnly, hgood]
    unfold Chip.readingShown
    split_ifs
    · exact regsOnly_setFld _ _ (regsOnly_setFld _ _ (regsOnly_refl c))
    · exact regsOnly_setFld _ _ (regsOnly_refl c)
  have hmend (c' : Chip) (x : SensRec) (hx : x.broken = false) :
      (c'.setSens (dieBase d + i) x).mendSensor (.die d i) = c'.setSens (dieBase d + i) x := by
    simp [Chip.mendSensor, hnum, sens_setSens, hx]
  have hkeep (x : SensRec) (b : Bool) : (if b = true then { x with fast := true, cool := 0 } else
      { x with cool := min 10 (x.cool + 1), fast := x.fast && decide (x.cool + 1 < 10) } : SensRec).broken = x.broken := by
    cases b <;> rfl
  unfold Chip.evalSensor Chip.readingShown
  unfold Chip.readingShown at hgood'
  simp only [hcode, if_true, hnum]
  rw [hmend]
  · apply Exists.intro
    constructor
    rotate_left
    · exact rfl
    · exact (hkeep _ _).trans hgood'
  · exact (hkeep _ _).trans hgood'

/-- The register of a die's limits, and that of its status. -/
def dieLimitsReg (d : Die) : Nat := if d = .h then THH_LIMITS else CAL_LIMITS

theorem heatLimit_reg (d : Die) (n : Nat) : (heatLimit (.die d) n).reg = dieLimitsReg d ∧ (heatLimit (.die d) n).lo + (heatLimit (.die d) n).w ≤ 64 := by
  cases d <;> match n with
  | 0 | 1 | 2 | n + 3 => exact ⟨rfl, by simp [heatLimit, THH_LIMITS_WARN, THH_LIMITS_THROTTLE, THH_LIMITS_PARK, THH_LIMITS_HYST, CAL_LIMITS_WARN,
      CAL_LIMITS_THROTTLE, CAL_LIMITS_PARK, CAL_LIMITS_HYST]⟩

/-- What a look at a die after a reading of sensor `i` writes. -/
def lookFields (d : Die) (i : Fin 12) : List Fld := [sensTemp (.die d i), sensPeak (.die d i)] ++ dieStatusFields d

theorem heatLimit_apart (d : Die) (i : Fin 12) (n : Nat) : ∀ g ∈ lookFields d i, apart (heatLimit (.die d) n) g := by
  intro g hg
  refine apart_of_reg ?_
  rw [(heatLimit_reg d n).1]
  cases d <;> simp [lookFields, dieStatusFields] at hg <;> obtain rfl | rfl | rfl | rfl | rfl := hg <;>
    simp [dieLimitsReg, sensTemp, sensPeak, THH_LIMITS, THH_SENSOR_TEMP, THH_SENSOR_PEAK, THH_SENSOR, THH_STATUS_HOTTEST, THH_STATUS_BROKEN,
      THH_STATUS_FAST, THH_STATUS, CAL_LIMITS, CAL_SENSOR_TEMP, CAL_SENSOR_PEAK, CAL_SENSOR, CAL_STATUS_HOTTEST, CAL_STATUS_BROKEN, CAL_STATUS_FAST,
      CAL_STATUS] <;> omega

theorem heatLevel_apart (d : Die) (i : Fin 12) : ∀ g ∈ lookFields d i, apart (heatLevel (.die d)) g := by
  intro g hg
  cases d <;> simp [lookFields, dieStatusFields] at hg <;> obtain rfl | rfl | rfl | rfl | rfl := hg <;>
    simp [heatLevel, apart, sensTemp, sensPeak, THH_STATUS_LEVEL, THH_SENSOR_TEMP, THH_SENSOR_PEAK, THH_SENSOR, THH_STATUS_HOTTEST, THH_STATUS_BROKEN,
      THH_STATUS_FAST, THH_STATUS, CAL_STATUS_LEVEL, CAL_SENSOR_TEMP, CAL_SENSOR_PEAK, CAL_SENSOR, CAL_STATUS_HOTTEST, CAL_STATUS_BROKEN,
      CAL_STATUS_FAST, CAL_STATUS] <;> omega

theorem sensFields_apart_status (d : Die) (i : Fin 12) :
    ∀ g ∈ dieStatusFields d, apart (sensTemp (.die d i)) g ∧ apart (sensPeak (.die d i)) g := by
  intro g hg
  refine ⟨apart_of_reg ?_, apart_of_reg ?_⟩ <;> cases d <;> simp [dieStatusFields] at hg <;> obtain rfl | rfl | rfl := hg <;>
    simp [sensTemp, sensPeak, THH_SENSOR_TEMP, THH_SENSOR_PEAK, THH_SENSOR, THH_STATUS_HOTTEST, THH_STATUS_BROKEN, THH_STATUS_FAST, THH_STATUS,
      CAL_SENSOR_TEMP, CAL_SENSOR_PEAK, CAL_SENSOR, CAL_STATUS_HOTTEST, CAL_STATUS_BROKEN, CAL_STATUS_FAST, CAL_STATUS] <;> omega

/-- A die whose sensor `i` has read `t`, none of its sensors broken, as the look at it leaves it. -/
structure DieLooked (c c' : Chip) (d : Die) (i : Fin 12) (t : Nat) : Prop where
  kept : c.fieldsKept (lookFields d i) c'
  temp : c'.fld (sensTemp (.die d i)) = t
  peak : c'.fld (sensPeak (.die d i)) = max (c.fld (sensPeak (.die d i))) t
  sensors : ∀ j < 12, (c'.sens (dieBase d + j)).broken = false
  heats : ∀ n, c'.heat n = c.heat n
  bytes : c.bytesKept c'

theorem DieLooked.level {c c' : Chip} {d : Die} {i : Fin 12} {t : Nat} (h : DieLooked c c' d i t) : c'.fld (heatLevel (.die d)) = c.fld (heatLevel (.die d)) :=
  h.kept _ (by cases d <;> decide) (heatLevel_apart d i)

theorem DieLooked.limits {c c' : Chip} {d : Die} {i : Fin 12} {t : Nat} (h : DieLooked c c' d i t) (n : Nat) : c'.heatAt (.die d) n = c.heatAt (.die d) n :=
  congrArg tempCode (h.kept _ (heatLimit_reg d n).2 (heatLimit_apart d i n))

/-- A good reading: the die is looked at, and where sensor `i` is the hottest its temperature is evaluated. -/
theorem evalSensor_looked {c : Chip} {d : Die} {i : Fin 12} {t : Nat} (hgood : ∀ j < 12, (c.sens (dieBase d + j)).broken = false) (hlo : 192 ≤ t)
    (hhi : t ≤ 1712) : ∃ c', DieLooked c c' d i t ∧
      (c.evalSensor (.die d i) t = c'.settleLevel (.die d) ∨ c.evalSensor (.die d i) t = c'.evalHeat (.die d) t) ∧
      ((∀ j < 12, j ≠ i.val → c.fld (dieTemp d j) < t) → c.evalSensor (.die d i) t = c'.evalHeat (.die d) t) := by
  obtain ⟨x, hx, heq⟩ := evalSensor_good (hgood i i.isLt) hlo hhi
  obtain ⟨htemp, hpeak, hkept, hregs⟩ := readingShown_shows c (.die d i) (t := t) (by omega)
  generalize hc2 : (c.readingShown (.die d i) t).setSens (dieBase d + i) x = c2 at heq
  have hfld2 (f : Fld) : c2.fld f = (c.readingShown (.die d i) t).fld f := by rw [← hc2, fld_setSens]
  have hsens2 : ∀ j < 12, (c2.sens (dieBase d + j)).broken = false := by
    intro j hj
    rw [← hc2]
    by_cases hji : j = i.val
    · rw [hji, sens_setSens, hx]
    · rw [sens_setSens_other _ _ (by omega), sens_of_regsOnly hregs, hgood j hj]
  obtain ⟨hstatus, hregs3⟩ := dieStatus_kept c2 d
  have hkept2 : c.fieldsKept (lookFields d i) c2 := fun f hf ha =>
    (hfld2 f).trans (hkept f hf fun g hg => ha g (List.mem_append_left _ hg))
  have hlooked : DieLooked c (c2.dieStatus d).2 d i t := by
    obtain ⟨hft, hfp, -⟩ := sens_fits (.die d i)
    refine ⟨fieldsKept_trans hkept2 (fieldsKept_weaken (fun g hg => List.mem_append_right _ hg) hstatus), ?_, ?_, fun j hj => ?_, fun n => ?_, ?_⟩
    · rw [hstatus _ hft fun g hg => (sensFields_apart_status d i g hg).1, hfld2, htemp]
    · rw [hstatus _ hfp fun g hg => (sensFields_apart_status d i g hg).2, hfld2, hpeak]
    · rw [sens_of_regsOnly hregs3, hsens2 j hj]
    · rw [heat_of_regsOnly hregs3, ← hc2, heat_setSens, heat_of_regsOnly hregs]
    · refine bytesKept_trans (bytesKept_trans (bytesKept_of_regsOnly hregs) ?_) (bytesKept_of_regsOnly hregs3)
      rw [← hc2]
      exact bytesKept_setThermal _ _
  have hafter : c2.afterSensor (.die d i) (some t) =
      if (c2.dieStatus d).1 = some i.val then (c2.dieStatus d).2.evalHeat (.die d) t else (c2.dieStatus d).2.settleLevel (.die d) := rfl
  refine ⟨_, hlooked, ?_, fun hmax => ?_⟩
  · rw [heq, hafter]
    split_ifs
    · exact .inr rfl
    · exact .inl rfl
  · rw [heq, hafter, if_pos]
    rw [dieStatus_hot, goodSensors_all hsens2]
    have hself : c2.fld (dieTemp d i) = t := by
      have hsame : dieTemp d i = sensTemp (.die d i) := by cases d <;> rfl
      rw [hfld2, hsame, htemp]
    refine foldl_hotter (.inr ⟨List.mem_range.mpr i.isLt, fun j hj => nomatch hj⟩) fun j hj hji => ?_
    have hother : c2.fld (dieTemp d j) = c.fld (dieTemp d j) := by
      rw [hfld2]
      refine hkept _ ?_ fun g hg => apart_of_reg ?_
      · cases d <;> simp [dieTemp, THH_SENSOR_TEMP, CAL_SENSOR_TEMP]
      · cases d <;> simp at hg <;> obtain rfl | rfl := hg <;>
          simp [dieTemp, sensTemp, sensPeak, THH_SENSOR_TEMP, THH_SENSOR_PEAK, THH_SENSOR, CAL_SENSOR_TEMP, CAL_SENSOR_PEAK, CAL_SENSOR] <;> omega
    rw [hself, hother]
    exact hmax j (List.mem_range.mp hj) hji

/-! ### Levels entered and left (R586) -/

/-- The event and the count of a WARN of a die. -/
def warnEvent (d : Die) : Fld := if d = .h then THH_EVENT_WARN else CAL_EVENT_WARN
def warnCount (d : Die) : Fld := if d = .h then THH_WARNS_COUNT else CAL_WARNS_COUNT

/-- A die that comes to WARN from below. -/
theorem applyLevel_warn {c : Chip} {d : Die} (hlevel : c.fld (heatLevel (.die d)) = 0) :
    c.applyLevel (.die d) 1 = (((c.setFld (heatLevel (.die d)) 1).throttled).mark (warnEvent d)).inc (warnCount d) := by
  have hentered : ([1, 2, 3] : List Nat).filter (fun l => decide (0 < l ∧ l ≤ 1)) = [1] := by decide
  simp only [Chip.applyLevel, hlevel, hentered, List.foldl_cons, List.foldl_nil]
  cases d <;> rfl

theorem warn_shows {c : Chip} {d : Die} : let c' := (((c.setFld (heatLevel (.die d)) 1).throttled).mark (warnEvent d)).inc (warnCount d)
    c'.fld (heatLevel (.die d)) = 1 ∧ c'.flag (warnEvent d) = true ∧ c'.fld (warnCount d) = min (c.fld (warnCount d) + 1) (2 ^ (warnCount d).w - 1) ∧
    c.fieldsKept [heatLevel (.die d), CAL_STATUS_THROTTLED, warnEvent d, warnCount d] c' ∧ c.regsOnly c' := by
  intro c'
  refine ⟨?_, ?_, ?_, fieldsKept_inc _ (by simp) (fieldsKept_mark _ (by simp) (fieldsKept_setFlag _ _ (by simp) (fieldsKept_setFld _ _ (by simp)
    (fieldsKept_refl _ _)))), regsOnly_inc _ (regsOnly_mark _ (regsOnly_setFlag _ _ (regsOnly_setFld _ _ (regsOnly_refl _))))⟩
  · rw [fld_inc_apart, fld_mark_apart, Chip.throttled, Chip.setFlag, fld_setFld_apart, fld_setFld_same]
    · cases d <;> decide
    all_goals cases d <;> decide
  · rw [flag_inc_apart]
    · exact flag_mark_same _ _ (by cases d <;> decide) (by cases d <;> decide)
    all_goals cases d <;> decide
  · rw [fld_inc_same, fld_mark_apart, Chip.throttled, Chip.setFlag, fld_setFld_apart, fld_setFld_apart]
    all_goals cases d <;> decide

/-- The event of a level left. -/
def downEvent : Heat → Fld
  | .die .h => THH_EVENT_LEVEL_DOWN
  | _ => CAL_EVENT_LEVEL_DOWN

theorem applyLevel_down {c : Chip} {h : Heat} {new : Nat} (hlevel : c.fld (heatLevel h) = 2) (hnew : new < 2) :
    c.applyLevel h new = ((c.setFld (heatLevel h) new).throttled).mark (downEvent h) := by
  have hentered : ([1, 2, 3] : List Nat).filter (fun l => decide (2 < l ∧ l ≤ new)) = [] := by
    simp only [List.filter_eq_nil_iff, decide_eq_true_eq]
    omega
  have hpark : ¬(2 < new ∧ new = 3) := by omega
  simp only [Chip.applyLevel, hlevel, hentered, List.foldl_nil, hpark, hnew, if_true, if_false]
  cases h with
  | die d => cases d <;> rfl
  | laser p => rfl

theorem heatLevel_facts (h : Heat) : (heatLevel h).w = 2 ∧ (heatLevel h).lo + (heatLevel h).w ≤ 64 ∧ apart (heatLevel h) CAL_STATUS_THROTTLED ∧
    apart (heatLevel h) (downEvent h) := by
  cases h with
  | die d => cases d <;> decide
  | laser p =>
    refine ⟨rfl, by simp [heatLevel, CAL_PU_STATUS_LEVEL], apart_of_reg ?_, apart_of_reg ?_⟩ <;>
      simp [heatLevel, downEvent, CAL_PU_STATUS_LEVEL, CAL_PU_STATUS, CAL_STATUS_THROTTLED, CAL_STATUS, CAL_EVENT_LEVEL_DOWN, CAL_EVENT] <;> omega

theorem completes_throttleHoldEnd {s : State} {h : Heat} (hlvl : (s.chip.heat (heatNum h)).lvl = 2) (hhold : (s.chip.heat (heatNum h)).holding = true)
    (hbroken : s.chip.brokenLevel h = 0) (hlevel : s.chip.fld (heatLevel h) = 2) : Completes (.throttleHoldEnd h) s fun c =>
      c.fld (heatLevel h) = (if 2 ≤ (s.chip.heat (heatNum h)).downW then 0 else 1) ∧ c.flag (downEvent h) = true ∧
      s.chip.fieldsKept [heatLevel h, CAL_STATUS_THROTTLED, downEvent h] c ∧ s.chip.bytesKept c := by
  refine ⟨_, rfl, rfl, ?_⟩
  simp only [Chip.when, hlvl, hhold, beq_self_eq_true, Bool.and_self, if_true]
  generalize hn : (if 2 ≤ (s.chip.heat (heatNum h)).downW then 0 else 1) = n
  have hn2 : n < 2 := by rw [← hn]; split_ifs <;> omega
  obtain ⟨hw, hfits, hapart, hapart'⟩ := heatLevel_facts h
  rw [settleLevel_new (l := n), applyLevel_down (by rw [fld_setHeat, hlevel]) hn2]
  · refine ⟨?_, flag_mark_same _ _ ?_ ?_, fieldsKept_mark _ (by simp) (fieldsKept_setFlag _ _ (by simp) (fieldsKept_setFld _ _ (by simp)
      (fieldsKept_of_regs (setHeat_regs _ _ _)))), bytesKept_of_eq rfl rfl rfl⟩
    · rw [fld_mark_apart _ _ _ hfits hapart', Chip.throttled, Chip.setFlag, fld_setFld_apart _ _ _ _ hfits hapart, fld_setFld_same _ _ _ hfits, hw]
      exact Nat.mod_eq_of_lt (by omega)
    · cases h with
      | die d => cases d <;> decide
      | laser p => simp [downEvent, CAL_EVENT_LEVEL_DOWN]
    · cases h with
      | die d => cases d <;> decide
      | laser p => simp [downEvent, CAL_EVENT_LEVEL_DOWN]
  · have hb (x : HeatRec) : (s.chip.setHeat (heatNum h) x).brokenLevel h = s.chip.brokenLevel h := by cases h <;> rfl
    rw [heat_setHeat, hb, hbroken]
    exact max_eq_left (Nat.zero_le n)
  · rw [fld_setHeat, hlevel]
    omega

/-! ### The commands of a die's sensor -/

section DieSensor

variable {s : State} {d : Die} {i : Fin 12} (hgood : ∀ j < 12, (s.chip.sens (dieBase d + j)).broken = false)
  (hlevel : s.chip.fld (heatLevel (.die d)) = 0) (hlvl : (s.chip.heat (heatNum (.die d))).lvl = 0)

include hgood hlevel hlvl

theorem completes_sensorEvaluation_normal {temp : BitVec 11} (hlo : 192 ≤ temp.toNat) (hhi : temp.toNat ≤ 1712)
    (h1 : temp.toNat < s.chip.heatAt (.die d) 1) (h2 : temp.toNat < s.chip.heatAt (.die d) 2) (h0 : temp.toNat < s.chip.heatAt (.die d) 0) :
    Completes (.sensorEvaluation (.die d i) temp) s fun c =>
      c.fld (sensTemp (.die d i)) = temp.toNat ∧ c.fld (sensPeak (.die d i)) = max (s.chip.fld (sensPeak (.die d i))) temp.toNat ∧
      c.fld (heatLevel (.die d)) = 0 ∧ s.chip.fieldsKept (lookFields d i) c ∧ s.chip.bytesKept c := by
  refine completes_on (f := fun c => c.evalSensor (.die d i) temp.toNat) rfl ?_
  obtain ⟨c', hl, hcase, -⟩ := evalSensor_looked (i := i) hgood hlo hhi
  have hlevel' := hl.level.trans hlevel
  obtain ⟨k, heval, hk, -⟩ := evalHeat_normal (c := c') (t := temp.toNat) (by rw [hl.heats, hlvl]) (by rwa [hl.limits]) (by rwa [hl.limits])
  have hk0 : k.lvl = 0 := hk (by rwa [hl.limits])
  have hsettled : c'.settleLevel (.die d) = c' :=
    settleLevel_same (by rw [hl.heats, hlvl, brokenLevel_good hl.sensors, hlevel', max_self])
  have hbroken : (c'.setHeat (heatNum (.die d)) k).brokenLevel (.die d) = 0 := brokenLevel_good hl.sensors
  have hsettled' : (c'.setHeat (heatNum (.die d)) k).settleLevel (.die d) = c'.setHeat (heatNum (.die d)) k :=
    settleLevel_same (by rw [heat_setHeat, hk0, hbroken, fld_setHeat, hlevel', max_self])
  obtain hgo | hgo := hcase
  · simp only [hgo, hsettled]
    exact ⟨hl.temp, hl.peak, hlevel', hl.kept, hl.bytes⟩
  · simp only [hgo, heval, hsettled', fld_setHeat]
    exact ⟨hl.temp, hl.peak, hlevel', fieldsKept_regs (setHeat_regs _ _ _) hl.kept, bytesKept_trans hl.bytes (bytesKept_setThermal _ _)⟩

theorem completes_sensorEvaluation_warn {temp : BitVec 11} (hlo : 192 ≤ temp.toNat) (hhi : temp.toNat ≤ 1712)
    (h1 : temp.toNat < s.chip.heatAt (.die d) 1) (h2 : temp.toNat < s.chip.heatAt (.die d) 2) (h0 : s.chip.heatAt (.die d) 0 ≤ temp.toNat)
    (hup : (s.chip.heat (heatNum (.die d))).upW = 1) (hmax : ∀ j < 12, j ≠ i.val → s.chip.fld (dieTemp d j) < temp.toNat) :
    Completes (.sensorEvaluation (.die d i) temp) s fun c =>
      c.fld (sensTemp (.die d i)) = temp.toNat ∧ c.fld (heatLevel (.die d)) = 1 ∧ c.flag (warnEvent d) = true ∧
      c.fld (warnCount d) = min (s.chip.fld (warnCount d) + 1) (2 ^ (warnCount d).w - 1) ∧
      s.chip.fieldsKept ([sensTemp (.die d i), sensPeak (.die d i), heatLevel (.die d), warnEvent d, warnCount d, CAL_STATUS_THROTTLED] ++
        dieStatusFields d) c ∧ s.chip.bytesKept c := by
  refine completes_on (f := fun c => c.evalSensor (.die d i) temp.toNat) rfl ?_
  obtain ⟨c', hl, -, hgo⟩ := evalSensor_looked (i := i) hgood hlo hhi
  have hlevel' := hl.level.trans hlevel
  obtain ⟨k, heval, -, hk⟩ := evalHeat_normal (c := c') (t := temp.toNat) (by rw [hl.heats, hlvl]) (by rwa [hl.limits]) (by rwa [hl.limits])
  have hk1 : k.lvl = 1 := hk (by rwa [hl.limits]) (by rw [hl.heats, hup])
  have hbroken : (c'.setHeat (heatNum (.die d)) k).brokenLevel (.die d) = 0 := brokenLevel_good hl.sensors
  have hzero : (c'.setHeat (heatNum (.die d)) k).fld (heatLevel (.die d)) = 0 := by rw [fld_setHeat, hlevel']
  simp only [hgo hmax, heval]
  rw [settleLevel_new (l := 1) (by rw [heat_setHeat, hk1, hbroken]; rfl) (by rw [hzero]; decide), applyLevel_warn hzero]
  obtain ⟨hshows, hevent, hcount, hkept, hregs⟩ := warn_shows (c := c'.setHeat (heatNum (.die d)) k) (d := d)
  refine ⟨?_, hshows, hevent, ?_, ?_, bytesKept_trans (bytesKept_trans hl.bytes (bytesKept_setThermal _ _)) (bytesKept_of_regsOnly hregs)⟩
  · rw [hkept, fld_setHeat, hl.temp]
    · exact (sens_fits _).1
    · intro g hg
      refine apart_of_reg ?_
      cases d <;> simp at hg <;> obtain rfl | rfl | rfl | rfl := hg <;>
        simp [sensTemp, heatLevel, warnEvent, warnCount, THH_SENSOR_TEMP, THH_SENSOR, THH_STATUS_LEVEL, THH_STATUS, THH_EVENT_WARN, THH_EVENT,
          THH_WARNS_COUNT, THH_WARNS, CAL_SENSOR_TEMP, CAL_SENSOR, CAL_STATUS_LEVEL, CAL_STATUS, CAL_EVENT_WARN, CAL_EVENT, CAL_WARNS_COUNT, CAL_WARNS,
          CAL_STATUS_THROTTLED] <;> omega
  · rw [hcount, fld_setHeat, hl.kept (warnCount d) (by cases d <;> decide)]
    intro g hg
    refine apart_of_reg ?_
    cases d <;> simp [lookFields, dieStatusFields] at hg <;> obtain rfl | rfl | rfl | rfl | rfl := hg <;>
      simp [warnCount, sensTemp, sensPeak, THH_WARNS_COUNT, THH_WARNS, THH_SENSOR_TEMP, THH_SENSOR_PEAK, THH_SENSOR, THH_STATUS_HOTTEST,
        THH_STATUS_BROKEN, THH_STATUS_FAST, THH_STATUS, CAL_WARNS_COUNT, CAL_WARNS, CAL_SENSOR_TEMP, CAL_SENSOR_PEAK, CAL_SENSOR, CAL_STATUS_HOTTEST,
        CAL_STATUS_BROKEN, CAL_STATUS_FAST, CAL_STATUS] <;> omega
  · refine fieldsKept_trans (fieldsKept_regs (setHeat_regs _ _ k) (fieldsKept_weaken (fun g hg => ?_) hl.kept)) (fieldsKept_weaken (fun g hg => ?_) hkept)
    · simp only [lookFields, List.mem_append, List.mem_cons, List.not_mem_nil, or_false] at hg ⊢
      exact hg.imp (fun h => h.imp id fun h => .inl h) id
    · simp only [List.mem_cons, List.not_mem_nil, or_false, List.mem_append] at hg ⊢
      obtain h | h | h | h := hg <;> simp [h]

theorem completes_stuckCheck {low high : Nat} (hlow : 3 * high ≤ 4 * low) (hhigh : 4 * low ≤ 5 * high) :
    Completes (.stuckCheck (.die d i) low high) s fun c =>
      (c.sens (sensNum (.die d i))).stuck = false ∧ (c.sens (sensNum (.die d i))).passed = true ∧ s.chip.fieldsKept (dieStatusFields d) c ∧
      s.chip.bytesKept c := by
  refine ⟨_, rfl, rfl, ?_⟩
  have hnum : sensNum (.die d i) = dieBase d + i := by cases d <;> simp [sensNum, dieBase]
  have hpass : stuckPass (.die d i) low high = true := decide_eq_true ⟨hlow, hhigh⟩
  have hmend (x : SensRec) (hx : x.broken = false) :
      (s.chip.setSens (dieBase d + i) x).mendSensor (.die d i) = s.chip.setSens (dieBase d + i) x := by
    simp [Chip.mendSensor, hnum, sens_setSens, hx]
  simp only [Chip.when, hpass, if_true, hnum]
  rw [hmend]
  case hx => exact hgood i i.isLt
  generalize hc2 : s.chip.setSens (dieBase d + i) _ = c2
  have hsens2 : ∀ j < 12, (c2.sens (dieBase d + j)).broken = false := by
    intro j hj
    rw [← hc2]
    by_cases hji : j = i.val
    · rw [hji, sens_setSens]
      exact hgood i i.isLt
    · rw [sens_setSens_other _ _ (by omega), hgood j hj]
  obtain ⟨hstatus, hregs3⟩ := dieStatus_kept c2 d
  have hkept : s.chip.fieldsKept (dieStatusFields d) (c2.dieStatus d).2 := by
    refine fieldsKept_trans (fieldsKept_of_regs ?_) hstatus
    rw [← hc2, setSens_regs]
  have hafter : c2.afterSensor (.die d i) none = (c2.dieStatus d).2.settleLevel (.die d) := rfl
  have hbroken : (c2.dieStatus d).2.brokenLevel (.die d) = 0 := brokenLevel_good fun j hj => by rw [sens_of_regsOnly hregs3, hsens2 j hj]
  have hheat : (c2.dieStatus d).2.heat (heatNum (.die d)) = s.chip.heat (heatNum (.die d)) := by rw [heat_of_regsOnly hregs3, ← hc2, heat_setSens]
  have hlevel' : (c2.dieStatus d).2.fld (heatLevel (.die d)) = 0 := by
    rw [hkept _ (by cases d <;> decide) fun g hg => heatLevel_apart d i g (List.mem_append_right _ hg), hlevel]
  rw [hafter, settleLevel_same (by rw [hheat, hlvl, hbroken, hlevel', max_self]), sens_of_regsOnly hregs3, ← hc2, sens_setSens]
  refine ⟨rfl, rfl, ?_, ?_⟩
  · rwa [hc2]
  · rw [hc2]
    refine bytesKept_trans (b := c2) ?_ (bytesKept_of_regsOnly hregs3)
    rw [← hc2]
    exact bytesKept_setThermal _ _

end DieSensor

/-! ### Aging (R590, R591) -/

/-- MARGIN, WARN and the event of an aging monitor. -/
def agingMargin (d : Die) (m : Fin 8) : Fld := if d = .h then THH_AGING_MARGIN m else CAL_AGING_MARGIN m
def agingWarn (d : Die) (m : Fin 8) : Fld := if d = .h then THH_AGING_WARN m else CAL_AGING_WARN m
def agingEvent (d : Die) : Fld := if d = .h then THH_EVENT_AGING_WARN else CAL_EVENT_AGING_WARN
def agingKey (d : Die) (m : Fin 8) : Nat := 8 * (if d = .h then 0 else 1) + m.val
def Chip.agingLevel (c : Chip) (d : Die) : Int := c.fld (if d = .h then THH_AGING_CFG_WARN_LEVEL else CAL_AGING_CFG_WARN_LEVEL)

theorem aging_fields (d : Die) (m : Fin 8) : (agingMargin d m).w = 11 ∧ (agingMargin d m).lo + (agingMargin d m).w ≤ 64 ∧
    0 < (agingWarn d m).w ∧ (agingWarn d m).lo + (agingWarn d m).w ≤ 64 ∧ 0 < (agingEvent d).w ∧ (agingEvent d).lo + (agingEvent d).w ≤ 64 ∧
    apart (agingMargin d m) (agingWarn d m) ∧ apart (agingMargin d m) (agingEvent d) ∧ apart (agingWarn d m) (agingEvent d) := by
  cases d
  · simp [agingMargin, agingWarn, agingEvent, apart, THH_AGING_MARGIN, THH_AGING_WARN, THH_AGING, THH_EVENT_AGING_WARN, THH_EVENT]
    omega
  · simp [agingMargin, agingWarn, agingEvent, apart, CAL_AGING_MARGIN, CAL_AGING_WARN, CAL_AGING, CAL_EVENT_AGING_WARN, CAL_EVENT]
    omega

theorem bytesKept_log (c : Chip) (code : Nat) (die : Die) (detail : List Nat) : c.bytesKept (c.log code die detail) := bytesKept_of_eq rfl rfl rfl

/-- A measured margin below the warning level, for the first time. -/
def Chip.agingNoted (c : Chip) (d : Die) (m : Fin 8) (margin : Int) : Chip :=
  ((c.setThermal { c.thermal with warned := agingKey d m :: c.thermal.warned }).mark (agingEvent d)).log 0x0105 d
    (m.val :: detBytes 2 (bitsOfInt 16 margin))

theorem aging_eq (c : Chip) (d : Die) (m : Fin 8) (margin : Int) : c.aging d m margin =
    if margin < c.agingLevel d then
      if c.thermal.warned.contains (agingKey d m) then (c.setInt (agingMargin d m) margin).setFld (agingWarn d m) 1
      else ((c.setInt (agingMargin d m) margin).setFld (agingWarn d m) 1).agingNoted d m margin
    else if c.agingLevel d + 5 ≤ margin then (c.setInt (agingMargin d m) margin).setFld (agingWarn d m) 0
    else c.setInt (agingMargin d m) margin := rfl

section Aging

variable {s : State} {d : Die} {m : Fin 8} {margin : Int} (hlo : -1024 ≤ margin) (hhi : margin < 1024)

include hlo hhi

theorem margin_shows (c : Chip) : (c.setInt (agingMargin d m) margin).int (agingMargin d m) = margin := by
  obtain ⟨hw, hfits, -⟩ := aging_fields d m
  exact int_setInt_same _ _ _ hfits (by omega) (by rw [hw]; exact hlo) (by rw [hw]; exact hhi)

omit hlo hhi in
theorem int_of_fld {c c' : Chip} {f : Fld} (h : c'.fld f = c.fld f) : c'.int f = c.int f := by rw [Chip.int, Chip.int, h]

/-- What a measured margin leaves, whatever its warning comes to. -/
theorem completes_agingMeasurement : Completes (.agingMeasurement d m margin) s fun c =>
    c.int (agingMargin d m) = margin ∧ (margin < s.chip.agingLevel d → c.flag (agingWarn d m) = true) ∧
    (s.chip.agingLevel d + 5 ≤ margin → c.flag (agingWarn d m) = false) ∧
    (s.chip.agingLevel d ≤ margin → margin < s.chip.agingLevel d + 5 → c.flag (agingWarn d m) = s.chip.flag (agingWarn d m)) ∧
    (margin < s.chip.agingLevel d → s.chip.thermal.warned.contains (agingKey d m) = false → c.flag (agingEvent d) = true ∧
      c.thermal.warned = agingKey d m :: s.chip.thermal.warned ∧
      (c.weir (weirKey 6 0)).items = (s.chip.weir (weirKey 6 0)).items ++
        [(logWords (s.chip.nowOn d) 0x0105 d (m.val :: detBytes 2 (bitsOfInt 16 margin))).map (fun w => ⟨w, false⟩)]) ∧
    s.chip.fieldsKept [agingMargin d m, agingWarn d m, agingEvent d] c ∧ s.chip.bytesKept c := by
  refine completes_onIf (f := fun c => c.aging d m margin) rfl (decide_eq_true ⟨hlo, hhi⟩) ?_
  obtain ⟨-, hfm, hpw, hfw, hpe, hfe, hmw, hme, hwe⟩ := aging_fields d m
  have hmargin := margin_shows hlo hhi (d := d) (m := m) s.chip
  have hkept : s.chip.fieldsKept [agingMargin d m, agingWarn d m, agingEvent d] (s.chip.setInt (agingMargin d m) margin) :=
    fieldsKept_setInt _ _ (by simp) (fieldsKept_refl _ _)
  have hkept' (v : Nat) : s.chip.fieldsKept [agingMargin d m, agingWarn d m, agingEvent d]
      ((s.chip.setInt (agingMargin d m) margin).setFld (agingWarn d m) v) := fieldsKept_setFld _ _ (by simp) hkept
  have hmargin' (v : Nat) : ((s.chip.setInt (agingMargin d m) margin).setFld (agingWarn d m) v).int (agingMargin d m) = margin := by
    rw [int_of_fld (fld_setFld_apart _ _ _ _ hfm hmw), hmargin]
  simp only [aging_eq]
  split_ifs with hlow hold hhigh
  · exact ⟨hmargin' 1, fun _ => flag_mark_same _ _ hfw hpw, fun h => absurd hlow (by omega), fun h => absurd hlow (by omega),
      fun _ h => absurd (hold.symm.trans h) (by decide), hkept' 1, bytesKept_of_eq rfl rfl rfl⟩
  · have hregs : (((s.chip.setInt (agingMargin d m) margin).setFld (agingWarn d m) 1).agingNoted d m margin).regs =
        (((s.chip.setInt (agingMargin d m) margin).setFld (agingWarn d m) 1).mark (agingEvent d)).regs := rfl
    have hfld (f : Fld) : (((s.chip.setInt (agingMargin d m) margin).setFld (agingWarn d m) 1).agingNoted d m margin).fld f =
        (((s.chip.setInt (agingMargin d m) margin).setFld (agingWarn d m) 1).mark (agingEvent d)).fld f := rfl
    refine ⟨?_, fun _ => ?_, fun h => absurd hlow (by omega), fun h => absurd hlow (by omega), fun _ _ => ⟨?_, rfl, ?_⟩,
      fieldsKept_regs hregs (fieldsKept_mark _ (by simp) (hkept' 1)), bytesKept_of_eq rfl rfl rfl⟩
    · rw [int_of_fld (hfld _), int_of_fld (fld_mark_apart _ _ _ hfm hme), hmargin']
    · rw [flag_eq_of_fld (hfld _), flag_mark_apart _ _ _ hfw hwe]
      exact flag_mark_same _ _ hfw hpw
    · rw [flag_eq_of_fld (hfld _)]
      exact flag_mark_same _ _ hfe hpe
    · rw [Chip.agingNoted, items_log]
      rfl
  · exact ⟨hmargin' 0, fun h => absurd h hlow, fun _ => flag_setFld_zero _ _ hfw, fun _ h => absurd h (by omega), fun h => absurd h hlow, hkept' 0,
      bytesKept_of_eq rfl rfl rfl⟩
  · exact ⟨hmargin, fun h => absurd h hlow, fun h => absurd h hhigh,
      fun _ _ => flag_setFld_apart _ _ _ _ hfw (apart_symm hmw), fun h => absurd h hlow, hkept, bytesKept_of_eq rfl rfl rfl⟩

end Aging

/-- Settles O48, by the clauses of the die's sensors, of THROTTLE_HOLD_END and of the aging monitors. -/
theorem temperatures : Obligations.Temperatures := by
  unfold Obligations.Temperatures
  intro s
  refine ⟨?_, ?_, fun d m margin hlo hhi => completes_agingMeasurement hlo hhi⟩
  · intro d i temp k h t x status hgood hlo hhi hlevel hlvl h1 h2
    exact ⟨fun h0 => completes_sensorEvaluation_normal hgood hlevel hlvl hlo hhi h1 h2 h0,
      fun h0 hup hmax => completes_sensorEvaluation_warn hgood hlevel hlvl hlo hhi h1 h2 h0 hup hmax,
      fun low high hlow hhigh => completes_stuckCheck hgood hlevel hlvl hlow hhigh⟩
  · intro h x hlvl hhold hbroken hlevel
    refine (completes_throttleHoldEnd hlvl hhold hbroken hlevel).imp fun c hc => ?_
    cases h with
    | die d => cases d <;> exact hc
    | laser p => exact hc

end Sys2Proof.Machine
end

section
/-! Rules about buffer DRAM: the bytes of a store, the check symbols it leaves, and reads and writes of good units (R534 to R538). -/

namespace Sys2Proof.Machine

/-! ### Runs of cells -/

/-- A run of values stored at rising keys reads back at its keys; every other key keeps its value. -/
theorem Cells.get_putRun {α : Type} [DecidableEq α] (d : Nat → α) (m : Cells α) (k : Nat) (vs : List α) (i : Nat) :
    Cells.get d (Cells.putRun d m k vs) i = if k ≤ i then (vs[i - k]?).getD (Cells.get d m i) else Cells.get d m i := by
  induction vs generalizing m k with
  | nil => simp [Cells.putRun]
  | cons v vs ih =>
    rw [Cells.putRun, ih]
    obtain hlt | rfl | hlt := lt_trichotomy i k
    · simp [Cells.get_put_other _ _ _ _ _ hlt.ne, hlt.not_ge, show ¬ k + 1 ≤ i by omega]
    · simp
    · rw [Cells.get_put_other _ _ _ _ _ hlt.ne', if_pos (show k + 1 ≤ i from hlt), if_pos hlt.le]
      obtain ⟨j, rfl⟩ := Nat.exists_eq_add_of_lt hlt
      simp [show k + j + 1 - k = j + 1 by omega, show k + j + 1 - (k + 1) = j by omega]

theorem Cells.get_putRun_apart {α : Type} [DecidableEq α] (d : Nat → α) (m : Cells α) {k : Nat} {vs : List α} {i : Nat}
    (h : i < k ∨ k + vs.length ≤ i) : Cells.get d (Cells.putRun d m k vs) i = Cells.get d m i := by
  rw [Cells.get_putRun]
  split_ifs with hk
  · rw [List.getElem?_eq_none (by omega), Option.getD_none]
  · rfl

theorem Cells.get_putRun_at {α : Type} [DecidableEq α] (d : Nat → α) (m : Cells α) (k : Nat) {vs : List α} {i : Nat} {v : α}
    (h : vs[i]? = some v) : Cells.get d (Cells.putRun d m k vs) (k + i) = v := by
  rw [Cells.get_putRun, if_pos (Nat.le_add_right k i), Nat.add_sub_cancel_left, h, Option.getD_some]

theorem length_leBytes (n x : Nat) : (leBytes n x).length = n := by
  induction n generalizing x with
  | zero => rfl
  | succ n ih => simp [leBytes, ih]

theorem getElem?_leBytes {n x i : Nat} (h : i < n) : (leBytes n x)[i]? = some (BitVec.ofNat 8 (x / 256 ^ i)) := by
  induction n generalizing x i with
  | zero => omega
  | succ n ih =>
    cases i with
    | zero => simp [leBytes]
    | succ i =>
      rw [leBytes, List.getElem?_cons_succ, ih (Nat.lt_of_succ_lt_succ h), Nat.pow_succ', Nat.div_div_eq_div_mul]

theorem length_bytes (c : Chip) (a n : Nat) : (c.bytes a n).length = n := by simp [Chip.bytes, Cells.getRun]

theorem getElem?_bytes (c : Chip) (a : Nat) {n i : Nat} (h : i < n) : (c.bytes a n)[i]? = some (c.byte (a + i)) := by
  simp [Chip.bytes, Cells.getRun, Chip.byte, h]

/-! ### What a write of whole units changes -/

/-- Only registers and check symbols differ, and of the registers only the arming of BUF_INJECT. -/
def Chip.marksOnly (c c' : Chip) : Prop :=
  c' = { c with regs := c'.regs, buf := { c.buf with marks := c'.buf.marks } } ∧ c.fieldsKept [BUF_INJECT_ARMED] c'

theorem Chip.marksOnly_refl (c : Chip) : c.marksOnly c := ⟨rfl, fieldsKept_refl _ _⟩

theorem Chip.marksOnly_trans {a b c : Chip} (hab : a.marksOnly b) (hbc : b.marksOnly c) : a.marksOnly c := by
  obtain ⟨hb, hfb⟩ := hab
  obtain ⟨hc, hfc⟩ := hbc
  refine ⟨?_, fieldsKept_trans hfb hfc⟩
  rw [hb] at hc
  exact hc

theorem marksOnly_setUnitMark (c : Chip) (u : Nat) (m : UnitMark) : c.marksOnly (c.setUnitMark u m) :=
  ⟨rfl, fieldsKept_of_regs rfl⟩

theorem marksOnly_markWritten (c : Chip) (u : Nat) : c.marksOnly (c.markWritten u) := by
  unfold Chip.markWritten
  split
  · refine Chip.marksOnly_trans ?_ (marksOnly_setUnitMark _ _ _)
    exact ⟨rfl, fieldsKept_setFld _ _ List.mem_cons_self (fieldsKept_refl _ _)⟩
  · exact marksOnly_setUnitMark c u _

theorem marksOnly_foldl_markWritten (c : Chip) (us : List Nat) : c.marksOnly (us.foldl (fun c u => c.markWritten u) c) := by
  induction us generalizing c with
  | nil => exact c.marksOnly_refl
  | cons u us ih => exact Chip.marksOnly_trans (marksOnly_markWritten c u) (ih _)

/-- A write of bytes is a store of the bytes but for the check symbols and the arming of BUF_INJECT. -/
theorem marksOnly_bufWrite (c : Chip) (a : Nat) (bs : List Byte) : (c.putBytes a bs).marksOnly (c.bufWrite a bs) :=
  marksOnly_foldl_markWritten _ _

theorem bufWrite_fieldsKept (c : Chip) (a : Nat) (bs : List Byte) : c.fieldsKept [BUF_INJECT_ARMED] (c.bufWrite a bs) :=
  (marksOnly_bufWrite c a bs).2

/-- What a write of bytes changes, as one equation. -/
theorem bufWrite_eq (c : Chip) (a : Nat) (bs : List Byte) : c.bufWrite a bs =
    { c with regs := (c.bufWrite a bs).regs,
             buf := { c.buf with mem := Cells.putRun memBlank c.buf.mem a bs, marks := (c.bufWrite a bs).buf.marks } } :=
  (marksOnly_bufWrite c a bs).1

theorem byte_bufWrite_apart (c : Chip) {a x : Nat} {bs : List Byte} (h : x < a ∨ a + bs.length ≤ x) : (c.bufWrite a bs).byte x = c.byte x := by
  rw [bufWrite_eq]
  exact Cells.get_putRun_apart _ _ h

theorem byte_bufWrite_at (c : Chip) (a : Nat) {bs : List Byte} {i : Nat} {b : Byte} (h : bs[i]? = some b) :
    (c.bufWrite a bs).byte (a + i) = b := by
  rw [bufWrite_eq]
  exact Cells.get_putRun_at _ _ _ h

@[simp] theorem bufWrite_host (c : Chip) (a : Nat) (bs : List Byte) : (c.bufWrite a bs).host = c.host := by rw [bufWrite_eq]
@[simp] theorem bufWrite_core (c : Chip) (a : Nat) (bs : List Byte) : (c.bufWrite a bs).core = c.core := by rw [bufWrite_eq]
@[simp] theorem bufWrite_sup (c : Chip) (a : Nat) (bs : List Byte) : (c.bufWrite a bs).sup = c.sup := by rw [bufWrite_eq]
@[simp] theorem bufWrite_arch (c : Chip) (a : Nat) (bs : List Byte) : (c.bufWrite a bs).arch = c.arch := by rw [bufWrite_eq]
@[simp] theorem bufWrite_sets (c : Chip) (a : Nat) (bs : List Byte) : (c.bufWrite a bs).buf.sets = c.buf.sets := by rw [bufWrite_eq]
@[simp] theorem bufWrite_victims (c : Chip) (a : Nat) (bs : List Byte) : (c.bufWrite a bs).buf.victims = c.buf.victims := by rw [bufWrite_eq]
@[simp] theorem bufWrite_evicts (c : Chip) (a : Nat) (bs : List Byte) : (c.bufWrite a bs).buf.evicts = c.buf.evicts := by rw [bufWrite_eq]
@[simp] theorem bufWrite_allocWaits (c : Chip) (a : Nat) (bs : List Byte) : (c.bufWrite a bs).buf.allocWaits = c.buf.allocWaits := by
  rw [bufWrite_eq]
@[simp] theorem bufWrite_fills (c : Chip) (a : Nat) (bs : List Byte) : (c.bufWrite a bs).buf.fills = c.buf.fills := by rw [bufWrite_eq]

/-! ### Good units -/

theorem readUnit_good {c : Chip} {u : Nat} (h : c.unitMark u = .good) : c.readUnit u = (false, c) := by simp [Chip.readUnit, h]

theorem readUnits_allGood {c : Chip} {us : List Nat} (h : ∀ u ∈ us, c.unitMark u = .good) : c.readUnits us = (false, c) := by
  unfold Chip.readUnits
  induction us with
  | nil => rfl
  | cons u us ih =>
    rw [List.foldl_cons, readUnit_good (h u List.mem_cons_self)]
    exact ih fun v hv => h v (List.mem_cons_of_mem _ hv)

theorem rmwUnit_good {c : Chip} {u : Nat} (h : c.unitMark u = .good) : c.rmwUnit u = c.inc BUF_RMW_COUNT := by
  unfold Chip.rmwUnit
  rw [readUnit_good (c := c.inc BUF_RMW_COUNT) h]
  rfl

/-- Units that are good are counted as read-modify-written, and nothing else happens before the new bytes go in. -/
theorem foldl_rmwUnit_good {c : Chip} {us : List Nat} (h : ∀ u ∈ us, c.unitMark u = .good) :
    c.regsOnly (us.foldl (fun c u => c.rmwUnit u) c) ∧ c.fieldsKept [BUF_RMW_COUNT] (us.foldl (fun c u => c.rmwUnit u) c) := by
  induction us generalizing c with
  | nil => exact ⟨regsOnly_refl _, fieldsKept_refl _ _⟩
  | cons u us ih =>
    rw [List.foldl_cons, rmwUnit_good (h u List.mem_cons_self)]
    obtain ⟨hr, hf⟩ := ih (c := c.inc BUF_RMW_COUNT) fun v hv => h v (List.mem_cons_of_mem _ hv)
    exact ⟨regsOnly_trans (regsOnly_inc _ (regsOnly_refl _)) hr, fieldsKept_trans (fieldsKept_inc _ List.mem_cons_self (fieldsKept_refl _ _)) hf⟩

/-- A write to good units: the bytes, the count of read-modify-writes, the check symbols, and the arming of BUF_INJECT. -/
structure Stored (c : Chip) (a : Nat) (bs : List Byte) (c' : Chip) : Prop where
  eq : c' = { c with regs := c'.regs, buf := { c.buf with mem := Cells.putRun memBlank c.buf.mem a bs, marks := c'.buf.marks } }
  fields : c.fieldsKept [BUF_RMW_COUNT, BUF_INJECT_ARMED] c'

theorem stored_dramWrite {c : Chip} {a : Nat} {bs : List Byte} (h : ∀ u ∈ unitsOf a bs.length, c.unitMark u = .good) :
    Stored c a bs (c.dramWrite a bs) := by
  unfold Chip.dramWrite
  extract_lets part
  obtain ⟨hr, hf⟩ := foldl_rmwUnit_good (c := c) (us := part) fun u hu => h u (List.mem_of_mem_filter hu)
  generalize part.foldl (fun c u => c.rmwUnit u) c = d at hr hf
  refine ⟨?_, fieldsKept_trans (fieldsKept_weaken (by simp) hf) (fieldsKept_weaken (by simp) (bufWrite_fieldsKept d a bs))⟩
  have hd : d = { c with regs := d.regs } := hr
  rw [bufWrite_eq, hd]

theorem Stored.byte_apart {c c' : Chip} {a x : Nat} {bs : List Byte} (h : Stored c a bs c') (hx : x < a ∨ a + bs.length ≤ x) :
    c'.byte x = c.byte x := by
  rw [h.eq]
  exact Cells.get_putRun_apart _ _ hx

theorem Stored.byte_at {c c' : Chip} {a i : Nat} {bs : List Byte} {b : Byte} (h : Stored c a bs c') (hi : bs[i]? = some b) :
    c'.byte (a + i) = b := by
  rw [h.eq]
  exact Cells.get_putRun_at _ _ _ hi

end Sys2Proof.Machine
end

section
/-! Proofs about the block cache (O54): write-backs, a fill, parity errors. -/

namespace Sys2Proof.Machine

/-! ### Ways of a set -/

@[simp] theorem CacheSet.way_setWay (s : CacheSet) (w : Nat) (l : Option Line) : (s.setWay w l).way w = l := by
  simp [CacheSet.way, CacheSet.setWay]

theorem CacheSet.way_setWay_other (s : CacheSet) {w v : Nat} (l : Option Line) (h : v ≠ w) : (s.setWay w l).way v = s.way v := by
  simp [CacheSet.way, CacheSet.setWay, Cells.get_put_other _ _ _ _ _ h]

/-- The way that is found for a line holds that line. -/
theorem CacheSet.line_of_wayOf {s : CacheSet} {line w : Nat} {l : Line} (hw : s.wayOf line = some w) (hl : s.way w = some l) : l.line = line := by
  simpa [hl] using List.find?_some hw

/-! ### Write-backs (R545, R546) -/

section writeBack
variable {c : Chip} {l : Line}

theorem getElem?_lineBytes (c : Chip) (l : Line) {n i : Nat} (h : i < n) :
    (c.lineBytes l 0 n)[i]? = some ((Cells.get (fun _ => none) l.data i).getD (c.byte (4096 * l.line + i))) := by
  simp [Chip.lineBytes, h]

theorem length_lineBytes (c : Chip) (l : Line) (off n : Nat) : (c.lineBytes l off n).length = n := by simp [Chip.lineBytes]

@[simp] theorem writeBack_host (c : Chip) (l : Line) : (c.writeBack l).host = c.host := bufWrite_host ..
@[simp] theorem writeBack_core (c : Chip) (l : Line) : (c.writeBack l).core = c.core := bufWrite_core ..
@[simp] theorem writeBack_sup (c : Chip) (l : Line) : (c.writeBack l).sup = c.sup := bufWrite_sup ..
@[simp] theorem writeBack_sets (c : Chip) (l : Line) : (c.writeBack l).buf.sets = c.buf.sets := bufWrite_sets ..
@[simp] theorem writeBack_victims (c : Chip) (l : Line) : (c.writeBack l).buf.victims = c.buf.victims := bufWrite_victims ..
@[simp] theorem writeBack_evicts (c : Chip) (l : Line) : (c.writeBack l).buf.evicts = c.buf.evicts := bufWrite_evicts ..
@[simp] theorem writeBack_allocWaits (c : Chip) (l : Line) : (c.writeBack l).buf.allocWaits = c.buf.allocWaits := bufWrite_allocWaits ..

theorem cacheSet_writeBack (c : Chip) (l : Line) (k : Nat) : (c.writeBack l).cacheSet k = c.cacheSet k := by
  simp [Chip.cacheSet]

/-- A line has been written to DRAM whole: its bytes, the count of write-backs, and the arming of BUF_INJECT. -/
structure WrittenBack (c : Chip) (l : Line) (c' : Chip) : Prop where
  data : ∀ i < 4096, c'.byte (4096 * l.line + i) = (Cells.get (fun _ => none) l.data i).getD (c.byte (4096 * l.line + i))
  rest : ∀ a, a < 4096 * l.line ∨ 4096 * l.line + 4096 ≤ a → c'.byte a = c.byte a
  count : c'.fld CCH_WRITEBACKS_COUNT = min (c.fld CCH_WRITEBACKS_COUNT + 1) (2 ^ 32 - 1)
  fields : c.fieldsKept [CCH_WRITEBACKS_COUNT, BUF_INJECT_ARMED] c'
  host : c'.host = c.host
  core : c'.core = c.core
  sup : c'.sup = c.sup

theorem writtenBack_writeBack (c : Chip) (l : Line) : WrittenBack c l (c.writeBack l) where
  data _ hi := byte_bufWrite_at c _ (getElem?_lineBytes c l hi)
  rest _ ha := byte_bufWrite_apart c (by rwa [length_lineBytes])
  count := by
    rw [Chip.writeBack, fld_inc_same _ _ (by decide), bufWrite_fieldsKept c _ _ _ (by decide) (by decide)]
    rfl
  fields := fieldsKept_inc _ (by simp) (fieldsKept_weaken (by simp) (bufWrite_fieldsKept c _ _))
  host := writeBack_host c l
  core := writeBack_core c l
  sup := writeBack_sup c l

/-- What is said of a line written back does not depend on the cache's arrays. -/
theorem WrittenBack.of_eq {c' d : Chip} (h : WrittenBack c l c') (hm : d.buf.mem = c'.buf.mem) (hr : d.regs = c'.regs) (hh : d.host = c'.host)
    (hc : d.core = c'.core) (hs : d.sup = c'.sup) : WrittenBack c l d where
  data i hi := (congrArg (Cells.get memBlank · _) hm).trans (h.data i hi)
  rest a ha := (congrArg (Cells.get memBlank · _) hm).trans (h.rest a ha)
  count := (fld_of_regs hr _).trans h.count
  fields := fieldsKept_regs hr h.fields
  host := hh.trans h.host
  core := hc.trans h.core
  sup := hs.trans h.sup

end writeBack

variable {s : State} {line : Nat} {l : Line}

theorem completes_dirtyWriteback {w : Nat} (hw : (s.chip.cacheSet (setOf line)).wayOf line = some w)
    (hl : (s.chip.cacheSet (setOf line)).way w = some l) (hd : l.dirty = true) : Completes (.dirtyWriteback line) s fun c =>
      c.cacheSet (setOf line) = (s.chip.cacheSet (setOf line)).setWay w (some { line := line, dirty := false }) ∧
      (∀ j, j ≠ setOf line → c.cacheSet j = s.chip.cacheSet j) ∧ WrittenBack s.chip l c := by
  refine completes_on (f := fun c => c.dirtyWriteback line) rfl ?_
  have h : s.chip.dirtyWriteback line = (s.chip.writeBack l).setCacheSet (setOf line)
      ((s.chip.cacheSet (setOf line)).setWay w (some { line := line, dirty := false })) := by
    simp [Chip.dirtyWriteback, hw, hl, hd]
  rw [h]
  exact ⟨cacheSet_setCacheSet _ _ _, fun j hj => (cacheSet_setCacheSet_other _ _ _ _ hj).trans (cacheSet_writeBack _ _ _),
    (writtenBack_writeBack s.chip l).of_eq rfl rfl rfl rfl rfl⟩

theorem completes_evictionWritebackDone_evicted {rest : List Line} (he : s.chip.buf.evicts = l :: rest) (hl : l.line = line)
    (hw : s.chip.buf.allocWaits = []) : Completes (.evictionWritebackDone line) s fun c =>
      c.buf.evicts = rest ∧ c.buf.sets = s.chip.buf.sets ∧ c.buf.victims = s.chip.buf.victims ∧ WrittenBack s.chip l c := by
  refine completes_on (f := fun c => c.evictionDone line) rfl ?_
  have h : s.chip.evictionDone line = { s.chip.writeBack l with buf := { (s.chip.writeBack l).buf with evicts := rest } } := by
    simp [Chip.evictionDone, he, hl, hw, Chip.settleAllocs, List.findIdx?_cons]
  rw [h]
  exact ⟨rfl, writeBack_sets .., writeBack_victims .., (writtenBack_writeBack s.chip l).of_eq rfl rfl rfl rfl rfl⟩

theorem completes_evictionWritebackDone_victim (hv : s.chip.buf.victims.find? (fun x => x.line == line && x.dirty) = some l)
    (he : ∀ x ∈ s.chip.buf.evicts, x.line ≠ line) : Completes (.evictionWritebackDone line) s fun c =>
      c.buf.victims = s.chip.buf.victims.map (fun x => if x.line = line then { line := line, dirty := false } else x) ∧
      c.buf.sets = s.chip.buf.sets ∧ c.buf.evicts = s.chip.buf.evicts ∧ WrittenBack s.chip l c := by
  refine completes_on (f := fun c => c.evictionDone line) rfl ?_
  have hnone : s.chip.buf.evicts.findIdx? (fun l => l.line == line) = none := by simpa using he
  unfold Chip.evictionDone
  simp only [hnone, hv]
  refine ⟨?_, writeBack_sets .., writeBack_evicts .., (writtenBack_writeBack s.chip l).of_eq rfl rfl rfl rfl rfl⟩
  rw [writeBack_victims]

/-! ### A fill (R548) -/

/-- Only what has been posted to the hosts differs. -/
def Chip.postsOnly (c c' : Chip) : Prop := c' = { c with host := { c.host with posts := c'.host.posts } }

theorem Chip.postsOnly_trans {a b c : Chip} (hab : a.postsOnly b) (hbc : b.postsOnly c) : a.postsOnly c := by
  unfold Chip.postsOnly at hbc
  rw [hab] at hbc
  exact hbc

theorem postsOnly_post (c : Chip) (x : Nat) (kind : PostKind) (addr : Nat) (bs : List Byte) : c.postsOnly (c.post x kind addr bs) := by
  unfold Chip.post
  split <;> rfl

theorem postsOnly_postData (c : Chip) (x n addr : Nat) (bs : List Byte) : c.postsOnly (c.postData x n addr bs) := by
  induction n generalizing c addr bs with
  | zero => rfl
  | succ n ih =>
    rw [Chip.postData]
    split
    · rfl
    · exact Chip.postsOnly_trans (postsOnly_post _ _ _ _ _) (ih _ _ _)

theorem postsOnly_pushGo (c : Chip) (x : Nat) (es : List (Nat × Nat)) (off : Nat) (bs : List Byte) : c.postsOnly (c.pushGo x es off bs) := by
  induction es generalizing c off bs with
  | nil => rfl
  | cons e es ih =>
    rw [Chip.pushGo]
    split
    · exact Chip.postsOnly_trans (postsOnly_postData _ _ _ _ _) (ih _ _ _)
    · exact ih _ _ _

/-- The machine with another buffer. -/
def Chip.withBuf (c : Chip) (b : BufSt) : Chip := { c with buf := b }

/-- What is posted does not depend on the buffer. -/
theorem post_withBuf (c : Chip) (b : BufSt) (x : Nat) (kind : PostKind) (addr : Nat) (bs : List Byte) :
    (c.withBuf b).post x kind addr bs = (c.post x kind addr bs).withBuf b := by
  have hheld : (c.withBuf b).host = c.host := rfl
  unfold Chip.post
  rw [hheld]
  split <;> rfl

theorem postData_withBuf (c : Chip) (b : BufSt) (x n addr : Nat) (bs : List Byte) :
    (c.withBuf b).postData x n addr bs = (c.postData x n addr bs).withBuf b := by
  induction n generalizing c addr bs with
  | zero => rfl
  | succ n ih =>
    have hmax : (c.withBuf b).maxPayload x = c.maxPayload x := rfl
    simp only [Chip.postData, post_withBuf, ih, hmax]
    exact (apply_ite (fun d : Chip => d.withBuf b) _ _ _).symm

theorem pushGo_withBuf (c : Chip) (b : BufSt) (x : Nat) (es : List (Nat × Nat)) (off : Nat) (bs : List Byte) :
    (c.withBuf b).pushGo x es off bs = (c.pushGo x es off bs).withBuf b := by
  induction es generalizing c off bs with
  | nil => rfl
  | cons e es ih =>
    simp only [Chip.pushGo, postData_withBuf, ih]
    exact (apply_ite (fun d : Chip => d.withBuf b) _ _ _).symm

theorem cmd_updCmd {c : Chip} {uid : Nat} {m : Cmd} (hm : c.cmd uid = some m) (f : Cmd → Cmd) (hf : (f m).uid = uid) :
    (c.updCmd uid f).cmd uid = some (f m) := by
  have huid : m.uid = uid := by simpa using List.find?_some hm
  unfold Chip.cmd at hm
  show (c.host.cmds.map _).find? _ = _
  induction h : c.host.cmds generalizing c with
  | nil => simp [h] at hm
  | cons x xs ih =>
    rw [h] at hm
    by_cases hx : x.uid = uid
    · obtain rfl : x = m := by simpa [List.find?_cons, hx] using hm
      simp [hx, hf]
    · have hm' : xs.find? (fun y => y.uid == uid) = some m := by simpa [List.find?_cons, hx] using hm
      simpa [hx] using ih (c := { c with host := { c.host with cmds := xs } }) hm' rfl

/-- The block gets its outcome while blocks of the read are still to come. -/
theorem noteBlock_open {c : Chip} {uid i : Nat} {m : Cmd} (outcome : Nat) (hm : c.cmd uid = some m) (hp : m.pushes i = true)
    (hlen : m.blocks.length + 1 < m.arg1) :
    c.noteBlock uid i outcome = c.updCmd uid fun _ => { m with blocks := m.blocks ++ [(i, outcome)] } := by
  obtain ⟨⟨hstatus, -⟩, hblocks⟩ : (m.status = none ∧ m.mark = none) ∧ ∀ a b, (a, b) ∈ m.blocks → ¬ a = i := by
    simpa [Cmd.pushes] using hp
  have hopen : ¬ (m.status.isSome = true ∨ m.blocks.any (fun b => b.1 == i) = true) := by
    simpa [hstatus] using fun x hx => hblocks i x hx rfl
  have hlen' : ¬ m.arg1 ≤ (m.blocks ++ [(i, outcome)]).length := by simpa using hlen
  simp only [Chip.noteBlock, hm, if_neg hopen, if_neg hlen']

/-- The set with one line in way 0. -/
def oneLine (t : CacheSet) (l : Line) : CacheSet := { t.setWay 0 (some l) with plru := plruTouch t.plru 0 }

theorem install_empty {c : Chip} {l : Line} (h : (c.cacheSet (setOf l.line)).ways = []) :
    c.install l = c.setCacheSet (setOf l.line) (oneLine (c.cacheSet (setOf l.line)) l) := by
  have hnone : ∀ w, (c.cacheSet (setOf l.line)).way w = none := fun w => by simp [CacheSet.way, h, Cells.get]
  unfold Chip.install
  simp only [hnone, Option.isNone_none]
  rfl

theorem lineOf_oneLine {c : Chip} {l : Line} {t : CacheSet} (h : c.cacheSet (setOf l.line) = oneLine t l) : c.lineOf l.line = some l := by
  have hway : (oneLine t l).way 0 = some l := CacheSet.way_setWay ..
  have hof : (oneLine t l).wayOf l.line = some 0 := by
    refine List.find?_eq_some_iff_append.mpr ⟨by simp [hway], [], _, rfl, by simp⟩
  simp only [Chip.lineOf, h, hof, hway]

/-- The machine with the line fetched and installed, and its miss register free. -/
def Chip.fetched (c : Chip) (line : Nat) : Chip :=
  ({ c with buf := { c.buf with misses := [] } } : Chip).setCacheSet (setOf line) (oneLine (c.cacheSet (setOf line)) { line := line, dirty := false })

theorem lineNow_fetched (c : Chip) (line : Nat) : (c.fetched line).lineNow line = c.bytes (4096 * line) 4096 := by
  have h : (c.fetched line).lineOf line = some { line := line, dirty := false } :=
    lineOf_oneLine (l := { line := line, dirty := false }) (cacheSet_setCacheSet ..)
  rw [Chip.lineNow, h]
  rfl

theorem missDone_fetched {c : Chip} {line uid i : Nat} (hmiss : c.buf.misses = [⟨line, [.push uid i]⟩]) (hon : c.cacheOn = true)
    (hset : (c.cacheSet (setOf line)).ways = []) (hgood : ∀ u ∈ unitsOf (4096 * line) 4096, c.unitMark u = .good) :
    c.missDone line [] = some ([.push uid i], true, c.fetched line) := by
  have hfound : c.buf.misses.findIdx? (fun m => m.line == line) = some 0 := by simp [hmiss, List.findIdx?_cons]
  obtain ⟨c0, hc0⟩ : ∃ d : Chip, d = { c with buf := { c.buf with misses := [] } } := ⟨_, rfl⟩
  have hread : c0.readUnits (unitsOf (4096 * line) 4096) = (false, c0) := readUnits_allGood (hc0 ▸ hgood)
  have hinst : c0.install { line := line, dirty := false } = c.fetched line := by
    subst hc0
    exact install_empty (l := { line := line, dirty := false }) hset
  have hon' : c0.cacheOn = true := hc0 ▸ hon
  simp only [Chip.missDone, hfound]
  simp only [hmiss, Chip.addErrs, List.foldl_nil, List.eraseIdx_zero, List.tail_cons, ← hc0, hread, hon']
  simp [hinst]

theorem pushNow_fetched {c : Chip} {line uid i : Nat} {m : Cmd} (hm : c.cmd uid = some m) (hp : m.pushes i = true)
    (hlen : m.blocks.length + 1 < m.arg1) : (c.fetched line).pushNow uid i line =
      ((c.pushGo m.port m.entries (4096 * i) (c.bytes (4096 * line) 4096)).withBuf (c.fetched line).buf).updCmd uid fun _ =>
        { m with blocks := m.blocks ++ [(i, (c.fetched line).lineOutcome line)] } := by
  have hm' : (c.fetched line).cmd uid = some m := hm
  have hbuf : (c.fetched line).pushGo m.port m.entries (4096 * i) (c.bytes (4096 * line) 4096) =
      (c.pushGo m.port m.entries (4096 * i) (c.bytes (4096 * line) 4096)).withBuf (c.fetched line).buf :=
    pushGo_withBuf c (c.fetched line).buf _ _ _ _
  have hpost : c.postsOnly (c.pushGo m.port m.entries (4096 * i) (c.bytes (4096 * line) 4096)) := postsOnly_pushGo _ _ _ _ _
  unfold Chip.pushNow
  simp only [hm', hp, if_true, lineNow_fetched, hbuf]
  refine noteBlock_open _ ?_ hp hlen
  rw [hpost]
  exact hm

/-- A change of one command that keeps what a filter looks at lets the filter find as little as before. -/
theorem writesOver_updCmd {c : Chip} {line uid : Nat} {f : Cmd → Cmd} (hf : ∀ m ∈ c.host.cmds, m.uid = uid → (f m).opcode = opWrite →
      ∀ j ∈ (f m).slots, slotAddr j / 4096 ≠ line)
    (h : ∀ x ∈ c.host.cmds, x.opcode = opWrite → ∀ j ∈ x.slots, slotAddr j / 4096 ≠ line) :
    (c.updCmd uid f).host.cmds.filter (fun m => m.opcode == opWrite && m.slots.any (fun i => slotAddr i / 4096 == line)) = [] := by
  refine List.filter_eq_nil_iff.mpr fun x hx => ?_
  obtain ⟨y, hy, rfl⟩ := List.mem_map.mp hx
  by_cases huid : y.uid = uid
  · simpa [huid] using hf y hy huid
  · simpa [huid] using h y hy

theorem completes_missFill_pushed {uid i : Nat} {m : Cmd} (hmiss : s.chip.buf.misses = [⟨line, [.push uid i]⟩]) (hon : s.chip.cacheOn = true)
    (hset : (s.chip.cacheSet (setOf line)).ways = []) (hgood : ∀ u ∈ unitsOf (4096 * line) 4096, s.chip.unitMark u = .good)
    (hm : s.chip.cmd uid = some m) (hp : m.pushes i = true) (hlen : m.blocks.length + 1 < m.arg1)
    (hfree : ∀ x ∈ s.chip.host.cmds, x.opcode = opWrite → ∀ j ∈ x.slots, slotAddr j / 4096 ≠ line) : Completes (.missFill line []) s fun c =>
      c.buf.misses = [] ∧ (c.cacheSet (setOf line)).way 0 = some { line := line, dirty := false } ∧
      c.host.posts = (s.chip.pushGo m.port m.entries (4096 * i) (s.chip.bytes (4096 * line) 4096)).host.posts ∧
      (∃ o, c.cmd uid = some { m with blocks := m.blocks ++ [(i, o)] }) ∧ HostOnly s.chip c := by
  have hpost : s.chip.postsOnly (s.chip.pushGo m.port m.entries (4096 * i) (s.chip.bytes (4096 * line) 4096)) := postsOnly_pushGo _ _ _ _ _
  have hpush := pushNow_fetched (line := line) hm hp hlen
  have huid : m.uid = uid := by simpa using List.find?_some hm
  have hmem : m ∈ s.chip.host.cmds := List.mem_of_find?_eq_some hm
  refine completes_on (f := fun c => c.missFill line []) rfl ?_
  simp only [Chip.missFill, missDone_fetched hmiss hon hset hgood, List.foldl_cons, List.foldl_nil, if_true, hpush]
  generalize s.chip.pushGo m.port m.entries (4096 * i) (s.chip.bytes (4096 * line) 4096) = d at hpost
  have hcmds : d.host.cmds = s.chip.host.cmds := by rw [hpost]
  generalize (s.chip.fetched line).lineOutcome line = o
  have hnone : ((d.withBuf (s.chip.fetched line).buf).updCmd uid fun _ => { m with blocks := m.blocks ++ [(i, o)] }).host.cmds.filter
      (fun m => m.opcode == opWrite && m.slots.any (fun i => slotAddr i / 4096 == line)) = [] :=
    writesOver_updCmd (fun _ _ _ => hfree m hmem) (hcmds.symm ▸ hfree)
  rw [hnone, List.foldl_nil]
  refine ⟨rfl, ?_, rfl, ⟨_, cmd_updCmd (m := m) ?_ _ huid⟩, ?_⟩
  · show ((s.chip.fetched line).cacheSet (setOf line)).way 0 = _
    rw [Chip.fetched, cacheSet_setCacheSet]
    exact CacheSet.way_setWay ..
  · rw [Chip.cmd, show (d.withBuf (s.chip.fetched line).buf).host.cmds = s.chip.host.cmds from hcmds]
    exact hm
  · rw [hpost]
    exact ⟨rfl, rfl, rfl, rfl, bytesKept_of_eq rfl rfl rfl⟩

/-! ### Parity errors (R549) -/

/-- The machine is at peace: not FATAL, no command, no scrub of a command, and the Flume down. -/
structure Peaceful (c : Chip) : Prop where
  fatal : c.isFatal = false
  cmds : c.host.cmds = []
  scrub : c.buf.scrub.uid = none
  flume : c.flag FLM_STATUS_UP = false

/-- The machine has entered FATAL with a cause; only registers, the device log, the journal and the hosts' events differ. -/
structure WentFatal (cause : Nat) (c c' : Chip) : Prop where
  role : c'.flag WMH_ROLE_FATAL = true
  cause : c'.fld WMH_FATAL_CAUSE = cause
  fields : c.fieldsKept [WMH_ROLE_FATAL, GEN_CONFIG_FATAL, WMH_FATAL_CAUSE, WMH_EVENT_FATAL, WMH_FATAL_TIME_TIME] c'
  buf : c'.buf = c.buf
  bytes : c.bytesKept c'

/-- An event waits in a ring of its host, and nothing else changes. -/
theorem postEvent_rings (c : Chip) (x code queue status d0 d1 d2 : Nat) : c.postEvent x code queue status d0 d1 d2 =
    { c with host := { c.host with rings := (c.postEvent x code queue status d0 d1 d2).host.rings } } := by
  unfold Chip.postEvent
  dsimp only
  split <;> rfl

/-- The registers that FATAL writes (R451, R452). -/
def Chip.fatalRegs (c : Chip) (cause : Nat) : Chip :=
  ((((c.setFld WMH_FATAL_CAUSE cause).setFld WMH_FATAL_TIME_TIME c.nowH.toNat).mark WMH_EVENT_FATAL).setFld WMH_ROLE_FATAL 1).setFld GEN_CONFIG_FATAL 1

/-- FATAL is logged, journalled and told to both hosts. -/
def Chip.fatalTold (c : Chip) (cause : Nat) : Chip :=
  ((((c.fatalRegs cause).log 0x060C .h [cause]).journal actFatal 0).postEvent 0 2 0xFFFF stFatal cause 0 0).postEvent 1 2 0xFFFF stFatal cause 0 0

theorem fatalTold_regs (c : Chip) (cause : Nat) : (c.fatalTold cause).regs = (c.fatalRegs cause).regs := by
  rw [Chip.fatalTold, postEvent_rings, postEvent_rings]
  exact (journal_regs _ _ _).trans (log_regs _ _ _ _)

theorem fatalTold_buf (c : Chip) (cause : Nat) : (c.fatalTold cause).buf = c.buf := by
  rw [Chip.fatalTold, postEvent_rings, postEvent_rings]
  exact (journal_buf _ _ _).trans (log_buf _ _ _ _)

theorem fatalTold_sram (c : Chip) (cause : Nat) : (c.fatalTold cause).core.sram = c.core.sram := by
  rw [Chip.fatalTold, postEvent_rings, postEvent_rings]
  exact congrArg (·.sram) (journal_core _ _ _)

theorem fatalTold_boot (c : Chip) (cause : Nat) : (c.fatalTold cause).sup.boot = c.sup.boot := by
  rw [Chip.fatalTold, postEvent_rings, postEvent_rings]
  exact journal_sup_boot _ _ _

theorem journal_cmds (c : Chip) (action unit : Nat) : (c.journal action unit).host = c.host := by
  unfold Chip.journal
  dsimp only
  split <;> simp

theorem fatalTold_cmds (c : Chip) (cause : Nat) : (c.fatalTold cause).host.cmds = c.host.cmds := by
  rw [Chip.fatalTold, postEvent_rings, postEvent_rings]
  exact congrArg (·.cmds) (journal_cmds _ _ _)

theorem enterFatal_eq {c : Chip} (h : Peaceful c) (cause : Nat) : c.enterFatal cause =
    { c.fatalTold cause with host := { (c.fatalTold cause).host with barrier := none, activating := none } } := by
  have hgov : ({ c.fatalTold cause with host := { (c.fatalTold cause).host with barrier := none, activating := none } } : Chip).governed = false := by
    have hup : (c.fatalTold cause).flag FLM_STATUS_UP = false := by
      rw [flag_eq_of_fld (fld_of_regs (fatalTold_regs c cause) _), Chip.fatalRegs]
      rw [Chip.mark]
      iterate 5 rw [flag_setFld_apart _ _ _ _ (by decide) (by decide)]
      exact h.flume
    exact (congrArg (fun x => x && _ && _) hup).trans (by simp)
  have hpark : ∀ d : Chip, d.governed = false → d.fatalPark = d := fun d hd => by simp [Chip.fatalPark, hd]
  have hscrub : (c.fatalTold cause).buf.scrub.uid.isSome = false := by rw [fatalTold_buf, h.scrub]; rfl
  have hcmds := (fatalTold_cmds c cause).trans h.cmds
  have htold : (List.range 2).foldl (fun d x => d.postEvent x 2 0xFFFF stFatal cause 0 0)
      ((((((c.setFld WMH_FATAL_CAUSE cause).setFld WMH_FATAL_TIME_TIME c.nowH.toNat).mark WMH_EVENT_FATAL).setFld WMH_ROLE_FATAL 1).setFld
        GEN_CONFIG_FATAL 1).log 0x060C .h [cause] |>.journal actFatal 0) = c.fatalTold cause := rfl
  simp only [Chip.enterFatal, h.fatal, Bool.false_eq_true, if_false, htold, hcmds, List.foldl_nil, hscrub]
  exact hpark _ hgov

theorem enterFatal_peaceful {c : Chip} (h : Peaceful c) {cause : Nat} (hc : cause < 4) : WentFatal cause c (c.enterFatal cause) := by
  rw [enterFatal_eq h]
  have hregs := fatalTold_regs c cause
  refine ⟨?_, ?_, ?_, fatalTold_buf c cause, bytesKept_of_eq (congrArg (·.mem) (fatalTold_buf c cause)) (fatalTold_boot c cause) (fatalTold_sram c cause)⟩
  · refine (flag_eq_of_fld (fld_of_regs hregs _)).trans ?_
    rw [Chip.fatalRegs, flag_setFld_apart _ _ _ _ (by decide) (by decide)]
    exact flag_mark_same _ _ (by decide) (by decide)
  · refine (fld_of_regs hregs _).trans ?_
    rw [Chip.fatalRegs, Chip.mark]
    iterate 4 rw [fld_setFld_apart _ _ _ _ (by decide) (by decide)]
    rw [fld_setFld_same _ _ _ (by decide)]
    exact Nat.mod_eq_of_lt hc
  · refine fieldsKept_regs hregs ?_
    iterate 5 refine fieldsKept_setFld _ _ (by simp) ?_
    exact fieldsKept_refl _ _

/-- The fields that a parity error in a clean line writes. -/
def cleanParityFields : List Fld := [CCH_PARITY_CLEAN_COUNT, CCH_EVENT_PARITY_CLEAN]

theorem regsOnly_cleanParity (c : Chip) : c.regsOnly c.cleanParity := regsOnly_mark _ (regsOnly_inc _ (regsOnly_refl c))

theorem cleanParity_fieldsKept (c : Chip) : c.fieldsKept cleanParityFields c.cleanParity :=
  fieldsKept_mark _ (by simp [cleanParityFields]) (fieldsKept_inc _ (by simp [cleanParityFields]) (fieldsKept_refl _ _))

theorem cleanParity_count (c : Chip) :
    c.cleanParity.fld CCH_PARITY_CLEAN_COUNT = min (c.fld CCH_PARITY_CLEAN_COUNT + 1) (2 ^ 32 - 1) := by
  rw [Chip.cleanParity, fld_mark_apart _ _ _ (by decide) (by decide), fld_inc_same _ _ (by decide)]
  rfl

theorem cleanParity_flag (c : Chip) : c.cleanParity.flag CCH_EVENT_PARITY_CLEAN = true := flag_mark_same _ _ (by decide) (by decide)

/-- A parity error in a dirty line of a machine at peace: FATAL with cause 1, and the line's staged entry may be the first to be cut. -/
theorem dirtyParity_peaceful {c : Chip} (h : Peaceful c) (line : Nat) :
    (c.dirtyParity line).flag CCH_EVENT_PARITY_DIRTY = true ∧ (c.dirtyParity line).flag WMH_ROLE_FATAL = true ∧
    (c.dirtyParity line).fld WMH_FATAL_CAUSE = 1 ∧
    c.fieldsKept [CCH_EVENT_PARITY_DIRTY, WMH_ROLE_FATAL, GEN_CONFIG_FATAL, WMH_FATAL_CAUSE, WMH_EVENT_FATAL, WMH_FATAL_TIME_TIME]
      (c.dirtyParity line) ∧
    (∀ k, (c.dirtyParity line).cacheSet k = c.cacheSet k) ∧ c.bytesKept (c.dirtyParity line) := by
  obtain ⟨hfatal, hcmds, hscrub, hflume⟩ := h
  obtain ⟨q, hq⟩ : ∃ q, c.dirtyParity line =
      (({ c.mark CCH_EVENT_PARITY_DIRTY with buf := { c.buf with cutSeq := q } } : Chip)).enterFatal 1 := by
    unfold Chip.dirtyParity Chip.cutAt
    dsimp only
    split
    · split
      · exact ⟨c.buf.cutSeq, rfl⟩
      · exact ⟨_, rfl⟩
    · exact ⟨c.buf.cutSeq, rfl⟩
  rw [hq]
  obtain ⟨d, hd⟩ : ∃ d : Chip, d = { c.mark CCH_EVENT_PARITY_DIRTY with buf := { c.buf with cutSeq := q } } := ⟨_, rfl⟩
  have hregs : d.regs = (c.mark CCH_EVENT_PARITY_DIRTY).regs := by rw [hd]
  have hpeace : Peaceful d := by
    refine ⟨?_, by rw [hd]; exact hcmds, by rw [hd]; exact hscrub, ?_⟩
    · refine (flag_eq_of_fld (fld_of_regs hregs _)).trans ?_
      rw [flag_mark_apart _ _ _ (by decide) (by decide)]
      exact hfatal
    · refine (flag_eq_of_fld (fld_of_regs hregs _)).trans ?_
      rw [flag_mark_apart _ _ _ (by decide) (by decide)]
      exact hflume
  rw [← hd]
  obtain ⟨hrole, hcause, hfields, hbuf, hbytes⟩ := enterFatal_peaceful hpeace (show 1 < 4 by decide)
  refine ⟨?_, hrole, hcause, ?_, fun k => ?_, ?_⟩
  · rw [flag_eq_of_fld (hfields _ (by decide) (by decide)), flag_eq_of_fld (fld_of_regs hregs _)]
    exact flag_mark_same _ _ (by decide) (by decide)
  · refine fieldsKept_trans (fieldsKept_regs hregs (fieldsKept_mark _ (by simp) (fieldsKept_refl _ _))) (fieldsKept_weaken (by simp) hfields)
  · rw [Chip.cacheSet, hbuf, hd]
    rfl
  · refine bytesKept_trans ?_ hbytes
    rw [hd]
    exact bytesKept_of_eq rfl rfl rfl

theorem completes_parityScan_cleanWay {k : Fin 1024} {w : Fin 16} (hl : (s.chip.cacheSet k).way w = some l) (hd : l.dirty = false) :
    Completes (.parityScan (.way k w) .bad) s fun c =>
      (c.cacheSet k).way w = none ∧ (∀ v, v ≠ w.val → (c.cacheSet k).way v = (s.chip.cacheSet k).way v) ∧
      c.fld CCH_PARITY_CLEAN_COUNT = min (s.chip.fld CCH_PARITY_CLEAN_COUNT + 1) (2 ^ 32 - 1) ∧ c.flag CCH_EVENT_PARITY_CLEAN = true ∧
      s.chip.fieldsKept cleanParityFields c ∧ s.chip.bytesKept c := by
  refine completes_on (f := fun c => c.parityError (.way k w)) rfl ?_
  have h : s.chip.parityError (.way k w) = (s.chip.setCacheSet k ((s.chip.cacheSet k).setWay w none)).cleanParity := by
    simp [Chip.parityError, hl, hd]
  rw [h]
  have hset : ∀ d : Chip, d.cleanParity.cacheSet k = d.cacheSet k := fun _ => rfl
  rw [hset, cacheSet_setCacheSet]
  exact ⟨CacheSet.way_setWay .., fun v hv => CacheSet.way_setWay_other _ _ hv, cleanParity_count _, cleanParity_flag _, cleanParity_fieldsKept _,
    bytesKept_of_eq rfl rfl rfl⟩

theorem completes_parityScan_dirtyWay {k : Fin 1024} {w : Fin 16} (hl : (s.chip.cacheSet k).way w = some l) (hd : l.dirty = true)
    (h : Peaceful s.chip) : Completes (.parityScan (.way k w) .bad) s fun c =>
      (c.cacheSet k).way w = none ∧ c.flag CCH_EVENT_PARITY_DIRTY = true ∧ c.flag WMH_ROLE_FATAL = true ∧ c.fld WMH_FATAL_CAUSE = 1 ∧
      s.chip.fieldsKept [CCH_EVENT_PARITY_DIRTY, WMH_ROLE_FATAL, GEN_CONFIG_FATAL, WMH_FATAL_CAUSE, WMH_EVENT_FATAL, WMH_FATAL_TIME_TIME] c ∧
      s.chip.bytesKept c := by
  refine completes_on (f := fun c => c.parityError (.way k w)) rfl ?_
  have herr : s.chip.parityError (.way k w) = (s.chip.setCacheSet k ((s.chip.cacheSet k).setWay w none)).dirtyParity l.line := by
    simp [Chip.parityError, hl, hd]
  obtain ⟨hfatal, hcmds, hscrub, hflume⟩ := h
  rw [herr]
  obtain ⟨hevent, hrole, hcause, hfields, hset, hbytes⟩ :=
    dirtyParity_peaceful (c := s.chip.setCacheSet k ((s.chip.cacheSet k).setWay w none)) ⟨hfatal, hcmds, hscrub, hflume⟩ l.line
  refine ⟨?_, hevent, hrole, hcause, hfields, hbytes⟩
  rw [hset, cacheSet_setCacheSet]
  exact CacheSet.way_setWay ..

theorem completes_parityScan_victim (hl : s.chip.buf.victims.find? (fun x => x.line == line) = some l) (hd : l.dirty = false) :
    Completes (.parityScan (.victim line) .bad) s fun c =>
      c.buf.victims = s.chip.buf.victims.erase l ∧ c.flag CCH_EVENT_PARITY_CLEAN = true ∧ s.chip.fieldsKept cleanParityFields c ∧
      s.chip.bytesKept c := by
  refine completes_on (f := fun c => c.parityError (.victim line)) rfl ?_
  have h : s.chip.parityError (.victim line) =
      ({ s.chip with buf := { s.chip.buf with victims := s.chip.buf.victims.erase l } } : Chip).cleanParity := by
    simp [Chip.parityError, hl, hd]
  rw [h]
  exact ⟨rfl, cleanParity_flag _, cleanParity_fieldsKept _, bytesKept_of_eq rfl rfl rfl⟩

/-- A clean line of a set goes, and is counted. -/
def Chip.dropWay (c : Chip) (k w : Nat) : Chip := (c.setCacheSet k ((c.cacheSet k).setWay w none)).cleanParity

theorem cacheSet_dropWay (c : Chip) (k w : Nat) : (c.dropWay k w).cacheSet k = (c.cacheSet k).setWay w none := cacheSet_setCacheSet c k _

/-- Lines of one set that go leave every way that was listed or empty empty, and no other set changes. -/
theorem foldl_dropWay (c : Chip) (k : Nat) (ws : List Nat) :
    (∀ w, w ∈ ws ∨ (c.cacheSet k).way w = none → ((ws.foldl (fun c w => c.dropWay k w) c).cacheSet k).way w = none) ∧
    (∀ j, j ≠ k → (ws.foldl (fun c w => c.dropWay k w) c).cacheSet j = c.cacheSet j) ∧
    c.fieldsKept cleanParityFields (ws.foldl (fun c w => c.dropWay k w) c) ∧ c.bytesKept (ws.foldl (fun c w => c.dropWay k w) c) := by
  induction ws generalizing c with
  | nil => exact ⟨by simp, fun _ _ => rfl, fieldsKept_refl _ _, bytesKept_refl _⟩
  | cons x xs ih =>
    obtain ⟨hways, hother, hfields, hbytes⟩ := ih (c.dropWay k x)
    have hkept : c.fieldsKept cleanParityFields (c.dropWay k x) := cleanParity_fieldsKept (c.setCacheSet k _)
    have hbytes' : c.bytesKept (c.dropWay k x) := bytesKept_of_eq rfl rfl rfl
    refine ⟨fun w hw => hways w ?_, fun j hj => (hother j hj).trans ?_, fieldsKept_trans hkept hfields, bytesKept_trans hbytes' hbytes⟩
    · by_cases hx : w = x
      · subst hx
        exact .inr (by rw [cacheSet_dropWay, CacheSet.way_setWay])
      · refine hw.imp (fun h => (List.mem_cons.mp h).resolve_left hx) fun h => ?_
        rw [cacheSet_dropWay, CacheSet.way_setWay_other _ _ hx, h]
    · exact cacheSet_setCacheSet_other c k j _ hj

theorem completes_parityScan_tag {k : Fin 1024} (h : ∀ w < 16, ∀ l, (s.chip.cacheSet k).way w = some l → l.dirty = false) :
    Completes (.parityScan (.tag k) .bad) s fun c =>
      (∀ w < 16, (c.cacheSet k).way w = none) ∧ (∀ j, j ≠ k.val → c.cacheSet j = s.chip.cacheSet j) ∧
      s.chip.fieldsKept cleanParityFields c ∧ s.chip.bytesKept c := by
  refine completes_on (f := fun c => c.parityError (.tag k)) rfl ?_
  have hclean : (List.range 16).find? (fun w => ((s.chip.cacheSet k).way w).any (·.dirty)) = none := by
    refine List.find?_eq_none.mpr fun w hw => ?_
    cases hl : (s.chip.cacheSet k).way w with
    | none => simp
    | some l => simp [h w (List.mem_range.mp hw) l hl]
  have herr : s.chip.parityError (.tag k) =
      ((List.range 16).filter (fun w => ((s.chip.cacheSet k).way w).any (fun l => !l.dirty))).foldl (fun c w => c.dropWay k w) s.chip := by
    simp only [Chip.parityError, hclean]
    rfl
  rw [herr]
  obtain ⟨hways, hother, hfields, hbytes⟩ := foldl_dropWay s.chip k
    ((List.range 16).filter (fun w => ((s.chip.cacheSet k).way w).any (fun l => !l.dirty)))
  refine ⟨fun w hw => hways w ?_, hother, hfields, hbytes⟩
  cases hl : (s.chip.cacheSet k).way w with
  | none => exact .inr rfl
  | some l => exact .inl (List.mem_filter.mpr ⟨List.mem_range.mpr hw, by simp [hl, h w hw l hl]⟩)

/-! ### The statement -/

/-- Settles O54, by the equation of each command in its case; what a write-back stores is `WrittenBack`, and FATAL of a machine at peace
`WentFatal`. -/
theorem blockCache : Obligations.BlockCache := by
  intro s line stored clean
  have hstored : ∀ {c l}, l.line = line → WrittenBack s.chip l c → stored c l := by
    rintro c l rfl ⟨hdata, hrest, hcount, hfields, hhost, hcore, hsup⟩
    exact ⟨hdata, hrest, hcount, hfields, hhost, hcore, hsup⟩
  refine ⟨fun w l hw hl hd => ?_, fun l rest he hl hwait => ?_, fun l hv he => ?_, ?_, fun loc => completes_on (f := fun c => c) rfl rfl,
    fun k w l hl => ⟨completes_parityScan_cleanWay hl, fun hd hfatal hcmds hscrub hup => completes_parityScan_dirtyWay hl hd ⟨hfatal, hcmds, hscrub, hup⟩⟩,
    fun l => completes_parityScan_victim, fun k => completes_parityScan_tag⟩
  · refine (completes_dirtyWriteback hw hl hd).imp ?_
    rintro c ⟨hset, hother, hback⟩
    rw [hset]
    exact ⟨CacheSet.way_setWay .., hother, fun v hv => CacheSet.way_setWay_other _ _ hv, hstored (CacheSet.line_of_wayOf hw hl) hback⟩
  · exact (completes_evictionWritebackDone_evicted he hl hwait).imp fun c ⟨hev, hsets, hvic, hback⟩ => ⟨hev, hsets, hvic, hstored hl hback⟩
  · have hl : l.line = line := by
      have h := List.find?_some hv
      simp only [Bool.and_eq_true, beq_iff_eq] at h
      exact h.1
    exact (completes_evictionWritebackDone_victim hv he).imp fun c ⟨hvic, hsets, hev, hback⟩ => ⟨hvic, hsets, hev, hstored hl hback⟩
  · intro uid i m hmiss hon hset hgood hm hp hlen hfree
    exact completes_missFill_pushed hmiss hon hset hgood hm hp hlen hfree

end Sys2Proof.Machine
end

section
/-! Proofs about the resident motion program: its commands (O35) and the events of the spindle (O36). -/

namespace Sys2Proof.Machine

/-! ### Changes of one motion program -/

/-- Only the motion program of station `x` differs, and it is now `g`. -/
structure Moved (x : Nat) (g : MotionProg) (c c' : Chip) : Prop where
  here : c'.motion x = g
  others : ∀ j, j ≠ x → c'.motion j = c.motion j
  eq : c' = { c with servo := { c.servo with motions := c'.servo.motions } }

variable {x : Nat} {g : MotionProg}

theorem moved_refl (c : Chip) (x : Nat) : Moved x (c.motion x) c c := ⟨rfl, fun _ _ => rfl, rfl⟩

theorem moved_setMotion (c : Chip) (x : Nat) (g : MotionProg) : Moved x g c (c.setMotion x g) :=
  ⟨motion_setMotion c x g, fun j hj => motion_setMotion_other c x j g hj, rfl⟩

theorem moved_updMotion (c : Chip) (x : Nat) (f : MotionProg → MotionProg) : Moved x (f (c.motion x)) c (c.updMotion x f) :=
  moved_setMotion c x _

theorem Moved.trans {g' : MotionProg} {a b c : Chip} (hab : Moved x g a b) (hbc : Moved x g' b c) : Moved x g' a c := by
  refine ⟨hbc.here, fun j hj => (hbc.others j hj).trans (hab.others j hj), ?_⟩
  have heq := hbc.eq
  rw [hab.eq] at heq
  exact heq

/-- A further change of the same program, by what it makes of the program. -/
theorem Moved.upd {a b : Chip} (h : Moved x g a b) (f : MotionProg → MotionProg) : Moved x (f g) a (b.updMotion x f) := by
  have hb := h.trans (moved_updMotion b x f)
  rwa [h.here] at hb

theorem Moved.set {a b : Chip} (h : Moved x g a b) (g' : MotionProg) : Moved x g' a (b.setMotion x g') := h.trans (moved_setMotion b x g')

theorem Moved.bytesKept {c c' : Chip} (h : Moved x g c c') : c.bytesKept c' := by
  rw [h.eq]
  exact bytesKept_of_eq rfl rfl rfl

theorem Moved.regs {c c' : Chip} (h : Moved x g c c') : c'.regs = c.regs := by rw [h.eq]

/-! ### Changes of the axes that a sled command names -/

/-- The axes that `on` holds of are changed. -/
def MotionProg.mapAxes (g : MotionProg) (on : Nat → Bool) (f : Nat → AxisProg → AxisProg) : MotionProg :=
  { g with u := if on 0 then f 0 g.u else g.u, l := if on 1 then f 1 g.l else g.l }

theorem axis_mapAxes (g : MotionProg) (on : Nat → Bool) (f : Nat → AxisProg → AxisProg) {d : Nat} (hd : d < 2) :
    (g.mapAxes on f).axis d = if on d then f d (g.axis d) else g.axis d := by
  interval_cases d <;> rfl

theorem Moved.updAxis {a b : Chip} (h : Moved x g a b) (d : Nat) (f : AxisProg → AxisProg) :
    Moved x (g.setAxis d (f (g.axis d))) a (b.updAxis x d f) := h.upd fun g => g.setAxis d (f (g.axis d))

theorem Moved.foldl_updAxis {a b : Chip} (h : Moved x g a b) (on : Nat → Bool) (f : Nat → AxisProg → AxisProg) :
    Moved x (g.mapAxes on f) a (([0, 1].filter on).foldl (fun c d => c.updAxis x d (f d)) b) := by
  cases h0 : on 0 <;> cases h1 : on 1 <;> simp only [List.filter, h0, h1, MotionProg.mapAxes, List.foldl_cons, List.foldl_nil, if_true]
  · exact h
  · exact h.updAxis 1 (f 1)
  · exact h.updAxis 0 (f 0)
  · exact (h.updAxis 0 (f 0)).updAxis 1 (f 1)

/-- A change of the axes by what else the machine holds sees the machine as it was at first. -/
theorem foldl_updAxis_seen {F : Chip → Nat → AxisProg → AxisProg} {x : Nat} (hF : ∀ c d f, F (c.updAxis x d f) = F c) (ds : List Nat) (c : Chip) :
    ds.foldl (fun c d => c.updAxis x d (F c d)) c = ds.foldl (fun b d => b.updAxis x d (F c d)) c := by
  have h : ∀ b, F b = F c → ds.foldl (fun c d => c.updAxis x d (F c d)) b = ds.foldl (fun b d => b.updAxis x d (F c d)) b := by
    induction ds with
    | nil => exact fun _ _ => rfl
    | cons d ds ih =>
      intro b hb
      rw [List.foldl_cons, List.foldl_cons, hb]
      exact ih _ ((hF b d _).trans hb)
  exact h c rfl

/-- A sled command of the named axes has ended with result `r`. -/
def MotionProg.sledEnded (g : MotionProg) (on : Nat → Bool) (r : Nat) : MotionProg :=
  { g.mapAxes on (fun _ y => { y with result := r }) with seq := (g.seq + 1) % 64 }

theorem axis_sledEnded (g : MotionProg) (on : Nat → Bool) (r : Nat) {d : Nat} (hd : d < 2) :
    (g.sledEnded on r).axis d = if on d then { g.axis d with result := r } else g.axis d :=
  axis_mapAxes g on (fun _ y => { y with result := r }) hd

theorem Moved.endSled {a b : Chip} (h : Moved x g a b) (on : Nat → Bool) (r : Nat) :
    Moved x (g.sledEnded on r) a (b.endSled x ([0, 1].filter on) r) :=
  (h.foldl_updAxis on fun _ y => { y with result := r }).upd fun g => { g with seq := (g.seq + 1) % 64 }

/-! ### Commands (Table 9.4) -/

section commands
variable {s : State} {x : Station} {a : Byte}

/-- A command row of a pair that runs its resident program delivers the command. -/
theorem completes_delivered {i : Instr} {P : Chip → Prop} {f : Chip → Chip} (h : exec i s = s.on fun c => c.when (c.motionRuns x) f)
    (hruns : s.chip.motionRuns x = true) (hP : P (f s.chip)) : Completes i s P := by
  refine completes_on h ?_
  rwa [Chip.when, hruns, if_pos rfl]

/-- A HOME, FOLLOW or SLED_OFF finds no axis busy where no axis runs a command. -/
theorem sled_idle {g : MotionProg} (hu : g.u.running = none) (hl : g.l.running = none) (on : Nat → Bool) :
    ([0, 1].filter on).any (fun d => (g.axis d).running.isSome) = false := by
  have haxis : ∀ d ∈ [0, 1], (g.axis d).running.isSome = false := by simp [MotionProg.axis, hu, hl]
  exact List.any_eq_false.mpr fun d hd => by simp [haxis d (List.mem_filter.mp hd).1]

/-- What a BRAKE makes of a program that runs no spindle command (R407). -/
def MotionProg.brakeBegun (g : MotionProg) : MotionProg :=
  { g with braking := true, result := 0, spn := if g.spn = mRun then mBrake else mShort, atSpeed := false, catching := false, count := 0 }

/-- What a COAST makes of such a program. -/
def MotionProg.coasted (g : MotionProg) : MotionProg :=
  { g.endSpindle 1 with spn := mCoast, atSpeed := false, catching := false, count := 0 }

theorem moved_brake (hspin : (s.chip.motion x).spin = none) (hbraking : (s.chip.motion x).braking = false) (hfault : s.chip.limitsBit x 6 = false) :
    Moved x (s.chip.motion x).brakeBegun s.chip (s.chip.brakeCommand x 0) := by
  have hfail : s.chip.failSpindle x = s.chip := by simp [Chip.failSpindle, hspin, hbraking]
  have hb : s.chip.brakeCommand x 0 = s.chip.setMotion x (s.chip.motion x).brakeBegun := by
    simp [Chip.brakeCommand, hbraking, hfail, hfault, MotionProg.brakeBegun]
  rw [hb]
  exact moved_setMotion ..

theorem moved_coast (hspin : (s.chip.motion x).spin = none) (hbraking : (s.chip.motion x).braking = false) (hfault : s.chip.limitsBit x 6 = false) :
    Moved x (s.chip.motion x).coasted s.chip (s.chip.coastCommand x 0) := by
  have hfail : s.chip.failSpindle x = s.chip := by simp [Chip.failSpindle, hspin, hbraking]
  have hb : s.chip.coastCommand x 0 = s.chip.setMotion x (s.chip.motion x).coasted := by
    simp [Chip.coastCommand, hfail, hfault, MotionProg.coasted]
  rw [hb]
  exact moved_setMotion ..

/-- What an align-and-go start makes of the program (R403). -/
def MotionProg.aligned (g : MotionProg) : MotionProg :=
  { g with spn := mAlign, count := 0, attempts := g.attempts + 1, good := 0, bad := 0, weak := 0, near := 0, far := 0, catching := false,
           starting := false, spinup := true, reverse := (g.spin.map (·.2)).getD g.reverse }

/-- A start has been counted, and only the motion program of station `x` differs beyond that. -/
structure Started (x : Nat) (g : MotionProg) (c c' : Chip) : Prop where
  here : c'.motion x = g
  others : ∀ j, j ≠ x → c'.motion j = c.motion j
  count : c'.fld (SPN_STARTS_COUNT x) = min (c.fld (SPN_STARTS_COUNT x) + 1) (2 ^ (SPN_STARTS_COUNT x).w - 1)
  fields : c.fieldsKept [SPN_STARTS_COUNT x] c'
  bytes : c.bytesKept c'

theorem started_startAlign {c d : Chip} {g : MotionProg} {x : Nat} (h : Moved x g c d) : Started x g.aligned c (d.startAlign x) := by
  have hd : Moved x g.aligned c (d.updMotion x MotionProg.aligned) := h.upd MotionProg.aligned
  change Started x g.aligned c ((d.updMotion x MotionProg.aligned).inc (SPN_STARTS_COUNT x))
  refine ⟨hd.here, hd.others, ?_, fieldsKept_inc _ List.mem_cons_self (fieldsKept_of_regs hd.regs), hd.bytesKept⟩
  rw [fld_inc_same _ _ (by simp [SPN_STARTS_COUNT]), fld_of_regs hd.regs]

/-- The program with a SPIN taken (R403). -/
def MotionProg.asked (g : MotionProg) (n : Nat) : MotionProg :=
  { g with spin := some (n % 4, n.testBit 2), target := n % 4, result := 0, attempts := 0 }

theorem spin_started {n : Nat} (hn : n ∈ [1, 2, 5, 6]) (hspn : (s.chip.motion x).spn = mStopped) (hspin : (s.chip.motion x).spin = none)
    (hbraking : (s.chip.motion x).braking = false) (hfault : s.chip.limitsBit x 6 = false) (hstop : s.chip.seesStop x = true) :
    Started x ((s.chip.motion x).asked n).aligned s.chip
      (s.chip.spinCommand x n) := by
  have hmode : ¬ (8 ≤ n ∨ n % 4 = 0 ∨ n % 4 = 3) := by fin_cases hn <;> decide
  have hb : s.chip.spinCommand x n = (s.chip.setMotion x ((s.chip.motion x).asked n)).startAlign x := by
    simp [Chip.spinCommand, hmode, hspn, hspin, hbraking, hfault, hstop, mStopped, mAlign, mRamp, mRun, MotionProg.asked]
  rw [hb]
  exact started_startAlign (moved_setMotion ..)

theorem spin_refused {n : Nat} (h : (s.chip.motion x).spin.isSome = true ∨ (s.chip.motion x).braking = true ∨ n ∉ [1, 2, 5, 6])
    (hspn : (s.chip.motion x).spn ∈ [mStopped, mShort, mBrake]) : s.chip.spinCommand x n = s.chip.refuseSpindle x := by
  have hdriven : decide ((s.chip.motion x).spn = mAlign ∨ (s.chip.motion x).spn = mRamp ∨ (s.chip.motion x).spn = mRun) = false := by
    generalize (s.chip.motion x).spn = k at hspn
    fin_cases hspn <;> rfl
  unfold Chip.spinCommand
  simp only [hdriven, Bool.false_eq_true, false_and, if_false]
  by_cases hmode : 8 ≤ n ∨ n % 4 = 0 ∨ n % 4 = 3
  · exact if_pos hmode
  · have hbusy : (s.chip.motion x).spin.isSome = true ∨ (s.chip.motion x).braking = true := by
      refine h.imp id (·.resolve_right fun hn => hn ?_)
      simp only [List.mem_cons, List.not_mem_nil, or_false]
      omega
    rw [if_neg hmode, if_pos hbusy]

/-- What HOME makes of an axis (R395). -/
def AxisProg.homingFrom (y : AxisProg) (a : Nat) (inner : Bool) : AxisProg :=
  { y with state := 2, homing := if inner then 2 else 1, travel := 0, running := some a, result := 0, on := true, follow := false, ramp := false }

theorem moved_home {n : Nat} (hu : (s.chip.motion x).u.running = none) (hl : (s.chip.motion x).l.running = none) (h1 : 1 ≤ n) (h4 : n < 4) :
    Moved x ((s.chip.motion x).mapAxes n.testBit fun d y => y.homingFrom n (s.chip.limitsBit x (2 * d))) s.chip (s.chip.sledCommand x 0x04 n) := by
  have hbusy := sled_idle hu hl n.testBit
  have hne : [0, 1].filter n.testBit ≠ [] := by interval_cases n <;> decide
  have hc : s.chip.sledCommand x 0x04 n =
      ([0, 1].filter n.testBit).foldl (fun c d => c.updAxis x d fun y => y.homingFrom n (s.chip.limitsBit x (2 * d))) s.chip := by
    simp only [Chip.sledCommand, hbusy, Bool.false_eq_true, false_or]
    rw [if_neg (by simp [h4]), if_pos trivial, if_neg hne]
    exact foldl_updAxis_seen (F := fun c d y => y.homingFrom n (c.limitsBit x (2 * d))) (fun _ _ _ => rfl) _ _
  rw [hc]
  exact (moved_refl _ _).foldl_updAxis n.testBit fun d y => y.homingFrom n (s.chip.limitsBit x (2 * d))

theorem moved_sledOff {n : Nat} (hu : (s.chip.motion x).u.running = none) (hl : (s.chip.motion x).l.running = none) (h4 : n < 4)
    (hus : (s.chip.motion x).u.state = 0) (hls : (s.chip.motion x).l.state = 0) :
    Moved x (((s.chip.motion x).mapAxes n.testBit fun _ y => { y with on := false, follow := false }).sledEnded n.testBit 1) s.chip
      (s.chip.sledCommand x 0x06 n) := by
  have hbusy := sled_idle hu hl n.testBit
  have hidle : ([0, 1].filter n.testBit).any (fun d => ((s.chip.motion x).axis d).state != 0) = false := by
    have haxis : ∀ d ∈ [0, 1], ((s.chip.motion x).axis d).state = 0 := by simp [MotionProg.axis, hus, hls]
    exact List.any_eq_false.mpr fun d hd => by simp [haxis d (List.mem_filter.mp hd).1]
  have hc : s.chip.sledCommand x 0x06 n = (([0, 1].filter n.testBit).foldl
      (fun c d => c.updAxis x d fun y => { y with on := false, follow := false }) s.chip).endSled x ([0, 1].filter n.testBit) 1 := by
    simp only [Chip.sledCommand, hbusy, Bool.false_eq_true, false_or]
    rw [if_neg (by simp [h4]), if_neg (by decide), if_neg (by decide), hidle]
    rfl
  rw [hc]
  exact ((moved_refl _ _).foldl_updAxis n.testBit fun _ y => { y with on := false, follow := false }).endSled n.testBit 1

/-- The motion program of station `x` is `g`, the axes of `ds` show FOLLOW, and nothing else of programs, fields and memory differs. -/
structure Following (x : Nat) (g : MotionProg) (ds : List Nat) (c c' : Chip) : Prop where
  here : c'.motion x = g
  others : ∀ j, j ≠ x → c'.motion j = c.motion j
  shown : ∀ d ∈ ds, c'.flag (MOT_AX_STATUS_FOLLOW (2 * x + d)) = true
  fields : c.fieldsKept [MOT_AX_STATUS_FOLLOW (2 * x), MOT_AX_STATUS_FOLLOW (2 * x + 1)] c'
  bytes : c.bytesKept c'

theorem following_refl (c : Chip) (x : Nat) : Following x (c.motion x) [] c c :=
  ⟨rfl, fun _ _ => rfl, by simp, fieldsKept_refl _ _, bytesKept_refl _⟩

theorem Following.moved {x : Nat} {g g' : MotionProg} {ds : List Nat} {a b c : Chip} (h : Following x g ds a b) (hbc : Moved x g' b c) :
    Following x g' ds a c :=
  ⟨hbc.here, fun j hj => (hbc.others j hj).trans (h.others j hj),
    fun d hd => (flag_eq_of_fld (fld_of_regs hbc.regs _)).trans (h.shown d hd), fieldsKept_regs hbc.regs h.fields, bytesKept_trans h.bytes hbc.bytesKept⟩

theorem Following.show_ {x d : Nat} {g : MotionProg} {ds : List Nat} {a b : Chip} (h : Following x g ds a b) (hd : d < 2) :
    Following x g (d :: ds) a (b.setFlag (MOT_AX_STATUS_FOLLOW (2 * x + d)) true) where
  here := h.here
  others := h.others
  shown e he := by
    by_cases hed : e = d
    · subst hed
      exact flag_setFlag_same _ _ _ (by simp [MOT_AX_STATUS_FOLLOW]) (by simp [MOT_AX_STATUS_FOLLOW])
    · rw [flag_setFlag_apart _ _ _ _ (by simp [MOT_AX_STATUS_FOLLOW])
        (apart_of_reg (by simp only [MOT_AX_STATUS_FOLLOW, MOT_AX_STATUS]; omega))]
      exact h.shown e ((List.mem_cons.mp he).resolve_left hed)
  fields := fieldsKept_setFlag _ _ (by interval_cases d <;> simp) h.fields
  bytes := h.bytes

/-- What FOLLOW makes of an axis that it closes (R376). -/
def AxisProg.followed (y : AxisProg) (inner : Int) : AxisProg := { y with follow := true, on := true, inner := inner }

/-- One axis of a FOLLOW. -/
def Chip.closeAxis (c : Chip) (x : Nat) (inner : Nat → Int) (d : Nat) : Chip :=
  (c.updAxis x d fun y => y.followed (inner d)).setFlag (MOT_AX_STATUS_FOLLOW (2 * x + d)) true

theorem Following.closeAxis {x d : Nat} {g : MotionProg} {ds : List Nat} {a b : Chip} (h : Following x g ds a b) (inner : Nat → Int) (hd : d < 2) :
    Following x (g.setAxis d ((g.axis d).followed (inner d))) (d :: ds) a (b.closeAxis x inner d) := by
  have hb := moved_updMotion b x fun g => g.setAxis d ((g.axis d).followed (inner d))
  rw [h.here] at hb
  exact (h.moved hb).show_ hd

theorem following_foldl_closeAxis (c : Chip) (x : Nat) (inner : Nat → Int) (on : Nat → Bool) :
    ∃ ds, (∀ d < 2, on d = true → d ∈ ds) ∧ Following x ((c.motion x).mapAxes on fun d y => y.followed (inner d)) ds c
      (([0, 1].filter on).foldl (fun c d => c.closeAxis x inner d) c) := by
  have h := following_refl c x
  cases h0 : on 0 <;> cases h1 : on 1 <;> simp only [List.filter, h0, h1, MotionProg.mapAxes, List.foldl_cons, List.foldl_nil, if_true]
  · exact ⟨_, fun d hd hon => by interval_cases d <;> simp_all, h⟩
  · exact ⟨_, fun d hd hon => by interval_cases d <;> simp_all, h.closeAxis inner (d := 1) (by decide)⟩
  · exact ⟨_, fun d hd hon => by interval_cases d <;> simp_all, h.closeAxis inner (d := 0) (by decide)⟩
  · exact ⟨_, fun d hd hon => by interval_cases d <;> simp_all, (h.closeAxis inner (d := 0) (by decide)).closeAxis inner (d := 1) (by decide)⟩

theorem inPort_closeAxis (c : Chip) (x : Nat) (inner : Nat → Int) (d q : Nat) : (c.closeAxis x inner d).inPort q = c.inPort q := rfl

/-- One axis of a FOLLOW, with what its port holds then. -/
def Chip.followAxis (c : Chip) (x d : Nat) : Chip := c.closeAxis x (fun d => c.inPort (16 + x) (12 + d)) d

/-- What FOLLOW latches for the axes is what the ports held at first. -/
theorem foldl_followAxis (c : Chip) (x : Nat) (ds : List Nat) (b : Chip) (hb : b.inPort (16 + x) = c.inPort (16 + x)) :
    ds.foldl (fun b d => b.followAxis x d) b = ds.foldl (fun b d => b.closeAxis x (fun d => c.inPort (16 + x) (12 + d)) d) b := by
  induction ds generalizing b with
  | nil => simp only [List.foldl_nil]
  | cons d ds ih =>
    have hd : b.followAxis x d = b.closeAxis x (fun d => c.inPort (16 + x) (12 + d)) d := by rw [Chip.followAxis, hb]
    rw [List.foldl_cons, List.foldl_cons, hd]
    exact ih _ ((inPort_closeAxis b x _ d _).trans hb)

theorem following_follow {n : Nat} (hu : (s.chip.motion x).u.running = none) (hl : (s.chip.motion x).l.running = none) (h4 : 4 ≤ n) (h8 : n < 8) :
    ∃ ds, (∀ d < 2, n.testBit d = true → d ∈ ds) ∧
      Following x (((s.chip.motion x).mapAxes n.testBit fun d y => y.followed (s.chip.inPort (16 + x) (12 + d))).sledEnded n.testBit 1) ds s.chip
        (s.chip.sledCommand x 0x05 n) := by
  have hbusy := sled_idle hu hl n.testBit
  have hon : n.testBit 2 = true := by interval_cases n <;> decide
  obtain ⟨ds, hds, hfollow⟩ := following_foldl_closeAxis s.chip x (fun d => s.chip.inPort (16 + x) (12 + d)) n.testBit
  refine ⟨ds, hds, ?_⟩
  have hc : s.chip.sledCommand x 0x05 n =
      (([0, 1].filter n.testBit).foldl (fun c d => c.closeAxis x (fun d => s.chip.inPort (16 + x) (12 + d)) d) s.chip).endSled x
        ([0, 1].filter n.testBit) 1 := by
    simp only [Chip.sledCommand, hbusy, Bool.false_eq_true, false_or]
    rw [if_neg (by simp [h8]), if_neg (by decide), if_pos trivial]
    refine congrArg (Chip.endSled · x _ 1) ?_
    simp only [hon, Bool.or_true, if_true]
    exact foldl_followAxis s.chip x _ s.chip rfl
  rw [hc]
  refine hfollow.moved ?_
  have h := (moved_refl (([0, 1].filter n.testBit).foldl (fun c d => c.closeAxis x (fun d => s.chip.inPort (16 + x) (12 + d)) d) s.chip) x).endSled
    n.testBit 1
  rwa [hfollow.here] at h

end commands

/-! ### The statement about commands -/

/-- Settles O35, by what each command makes of the program. -/
theorem motionCommands : Obligations.MotionCommands := by
  intro s x a hruns g only quiet
  have hmoved : ∀ {h c}, Moved x h s.chip c → only c ∧ quiet c := fun hm => ⟨⟨hm.others, hm.bytesKept⟩, hm.eq⟩
  refine ⟨completes_delivered (f := id) rfl hruns rfl, fun hspin hbraking hfault => ⟨fun ha hspn hstop => ?_, ?_, ?_⟩, fun h hspn => ?_,
    fun hu hl => ⟨fun h1 h4 => ?_, fun h4 h8 => ?_, fun h4 hus hls => ?_⟩⟩
  · refine completes_delivered (f := fun c => c.spinCommand x a.toNat) rfl hruns ?_
    obtain ⟨hhere, hothers, hcount, hfields, hbytes⟩ := spin_started ha hspn hspin hbraking hfault hstop
    dsimp only
    rw [hhere]
    exact ⟨rfl, rfl, rfl, rfl, rfl, rfl, hcount, hfields, hothers, hbytes⟩
  · refine completes_delivered (f := fun c => c.brakeCommand x 0) rfl hruns ?_
    have hm := moved_brake hspin hbraking hfault
    dsimp only
    rw [hm.here]
    exact ⟨rfl, rfl, rfl, rfl, rfl, hmoved hm⟩
  · refine completes_delivered (f := fun c => c.coastCommand x 0) rfl hruns ?_
    have hm := moved_coast hspin hbraking hfault
    dsimp only
    rw [hm.here]
    exact ⟨rfl, rfl, rfl, rfl, hmoved hm⟩
  · refine completes_delivered (f := fun c => c.spinCommand x a.toNat) rfl hruns ?_
    rw [spin_refused h hspn]
    have hm := moved_updMotion s.chip x fun g => { g with result := 3, seq := (g.seq + 1) % 64 }
    exact ⟨hm.here, hmoved hm⟩
  · refine completes_delivered (f := fun c => c.sledCommand x 0x04 a.toNat) rfl hruns ?_
    have hm := moved_home (x := x) hu hl h1 h4
    refine ⟨fun d hd => ?_, congrArg (·.seq) hm.here, hmoved hm⟩
    dsimp only
    rw [hm.here, axis_mapAxes _ _ _ hd]
    split
    · exact ⟨rfl, rfl, rfl, rfl, rfl, rfl⟩
    · rfl
  · refine completes_delivered (f := fun c => c.sledCommand x 0x05 a.toNat) rfl hruns ?_
    obtain ⟨ds, hds, hfollow⟩ := following_follow (x := x) hu hl h4 h8
    refine ⟨fun d hd => ?_, congrArg (·.seq) hfollow.here, hfollow.fields, hfollow.others, hfollow.bytes⟩
    dsimp only
    rw [hfollow.here, axis_sledEnded _ _ _ hd, axis_mapAxes _ _ _ hd]
    split_ifs with hon
    · exact ⟨rfl, rfl, rfl, rfl, hfollow.shown d (hds d hd hon)⟩
    · rfl
  · refine completes_delivered (f := fun c => c.sledCommand x 0x06 a.toNat) rfl hruns ?_
    have hm := moved_sledOff (x := x) hu hl h4 hus hls
    refine ⟨fun d hd => ?_, congrArg (·.seq) hm.here, hmoved hm⟩
    dsimp only
    rw [hm.here, axis_sledEnded _ _ _ hd, axis_mapAxes _ _ _ hd]
    split
    · exact ⟨rfl, rfl, rfl⟩
    · rfl

/-! ### Events of the spindle (R401 to R407) -/

section events
variable {s : State} {x : Station}

/-- The program waits for the end of the 20 ms measurement of a SPIN (Table 9.10). -/
structure Measuring (g : MotionProg) : Prop where
  state : g.spn = mMeasure
  count : 400 ≤ g.count
  spin : g.spin.isSome = true

/-- The end of the measurement, by its three cases. -/
theorem completes_spinMeasureEnd {rpm : Nat} {b : Bool} {P : Chip → Prop} (h : Measuring (s.chip.motion x))
    (hP : P (if rpm < 30 then s.chip.startAlign x
      else if (s.chip.motion x).spin.any (fun k => k.2 == b) = true ∧ 300 ≤ rpm then
        s.chip.setMotion x { s.chip.motion x with spn := mCoast, catching := true, starting := true, windows := 1, count := 0, good := 0, reverse := b }
      else s.chip.setMotion x { s.chip.motion x with spn := mShort, count := 0 })) : Completes (.spinMeasureEnd x rpm b) s P := by
  obtain ⟨hspn, hcount, hspin⟩ := h
  refine ⟨_, rfl, rfl, ?_⟩
  dsimp only
  rw [Chip.when, if_pos (by simp [hspn, hcount, hspin])]
  exact hP

theorem completes_spinMeasureEnd_slow {rpm : Nat} {b : Bool} (h : Measuring (s.chip.motion x)) (hrpm : rpm < 30) :
    Completes (.spinMeasureEnd x rpm b) s (Started x (s.chip.motion x).aligned s.chip) := by
  refine completes_spinMeasureEnd h ?_
  rw [if_pos hrpm]
  exact started_startAlign (moved_refl _ _)

theorem completes_spinMeasureEnd_catch {rpm : Nat} {b : Bool} (h : Measuring (s.chip.motion x)) (hrpm : 300 ≤ rpm)
    (hb : ∀ k ∈ (s.chip.motion x).spin, k.2 = b) : Completes (.spinMeasureEnd x rpm b) s
      (Moved x { s.chip.motion x with spn := mCoast, catching := true, starting := true, windows := 1, count := 0, good := 0, reverse := b } s.chip) := by
  obtain ⟨k, hk⟩ := Option.isSome_iff_exists.mp h.spin
  refine completes_spinMeasureEnd h ?_
  rw [if_neg (by omega), if_pos ⟨by simp [hk, hb k hk], hrpm⟩]
  exact moved_setMotion ..

theorem completes_spinMeasureEnd_short {rpm : Nat} {b : Bool} (h : Measuring (s.chip.motion x)) (h30 : 30 ≤ rpm)
    (hb : rpm < 300 ∨ ∀ k ∈ (s.chip.motion x).spin, k.2 ≠ b) : Completes (.spinMeasureEnd x rpm b) s
      (Moved x { s.chip.motion x with spn := mShort, count := 0 } s.chip) := by
  obtain ⟨k, hk⟩ := Option.isSome_iff_exists.mp h.spin
  have hother : ¬ ((s.chip.motion x).spin.any (fun k => k.2 == b) = true ∧ 300 ≤ rpm) := fun ⟨hsame, hrpm⟩ =>
    hb.elim (fun hlt => by omega) fun hne => hne k hk (by simpa [hk] using hsame)
  refine completes_spinMeasureEnd h ?_
  rw [if_neg (by omega), if_neg hother]
  exact moved_setMotion ..

/-- An event of the spindle acts where its condition holds. -/
theorem completes_event {i : Instr} {P : Chip → Prop} {b : Bool} {f : Chip → Chip} (h : exec i s = .next { s with chip := s.chip.when b f }) (hb : b = true)
    (hP : P (f s.chip)) : Completes i s P := by
  refine ⟨_, h, rfl, ?_⟩
  rwa [Chip.when, if_pos hb]

end events

/-- Settles O36, event by event. -/
theorem spindleEvents : Obligations.SpindleEvents := by
  intro s x g quiet
  have hquiet : ∀ {h c}, Moved x h s.chip c → quiet c := fun hm => ⟨hm.others, hm.eq⟩
  refine ⟨fun rpm b hspn hcount hspin => ⟨fun hrpm => ?_, fun hrpm hb => ?_, fun h30 hb => ?_⟩, fun hspn hcount => ?_, fun hspn hcatch hgood => ?_,
    fun hspn hlost => ?_, fun hspn hcount hattempts => ?_, fun hspn hat hnear hspinup => ?_, fun hat hfar => ?_, fun hcatch hcount hwindows htach => ?_⟩
  · refine (completes_spinMeasureEnd_slow ⟨hspn, hcount, hspin⟩ hrpm).imp fun c ⟨hhere, hothers, _, hfields, hbytes⟩ => ?_
    rw [hhere]
    exact ⟨rfl, rfl, rfl, hfields, hbytes⟩
  · refine (completes_spinMeasureEnd_catch ⟨hspn, hcount, hspin⟩ hrpm hb).imp fun c hm => ?_
    rw [hm.here]
    exact ⟨rfl, rfl, rfl, hquiet hm⟩
  · refine (completes_spinMeasureEnd_short ⟨hspn, hcount, hspin⟩ h30 hb).imp fun c hm => ?_
    rw [hm.here]
    exact ⟨rfl, hquiet hm⟩
  · refine completes_event (f := fun c => c.setMotion x { g with spn := mRamp, count := 0, good := 0 }) rfl (by simp [hspn, hcount, g]) ?_
    exact ⟨motion_setMotion .., hquiet (moved_setMotion ..)⟩
  · refine completes_event rfl (by simp [hspn, hgood, g]) ?_
    dsimp only
    rw [if_neg (by simpa [g] using hcatch)]
    have hm := moved_setMotion s.chip x
      { g with spn := mRun, catching := false, starting := false, count := 0, good := 0, bad := 0, weak := 0, near := 0, far := 0 }
    rw [hm.here]
    exact ⟨rfl, rfl, rfl, hquiet hm⟩
  · refine completes_event rfl (by simp [hspn, hlost, g]) ?_
    dsimp only
    rw [if_pos (.inl hspn)]
    have hm := ((moved_setMotion s.chip x { g with atSpeed := false, bad := 0, weak := 0, starting := false }).upd
      fun g => { g with pulses := g.pulses ||| 2 ^ 24 }).upd fun g => { g with spn := mShort }
    refine ⟨congrArg (·.spn) hm.here, congrArg (·.atSpeed) hm.here, congrArg (·.pulses) hm.here, hquiet hm⟩
  · refine completes_event rfl (by simp [hspn, hcount, g]) ?_
    dsimp only
    rw [if_pos (show g.attempts ≤ (s.chip.setMotion x { g with spn := mShort, count := 0 }).cnt (16 + x) 28 from hattempts)]
    have hm := (moved_setMotion s.chip x { g with spn := mShort, count := 0 }).upd fun g => { g with pulses := g.pulses ||| 2 ^ 25 }
    exact ⟨congrArg (·.spn) hm.here, congrArg (·.pulses) hm.here, congrArg (·.spin) hm.here, hquiet hm⟩
  · refine completes_event rfl (by simp [hspn, hat, hnear, g]) ?_
    dsimp only
    rw [if_neg (by simpa [g] using hspinup)]
    have hm := moved_setMotion s.chip x { (if g.spin.isSome then g.endSpindle 1 else g) with atSpeed := true, spinup := false }
    rw [hm.here]
    refine ⟨rfl, ?_, fun hspin => ?_, hquiet hm⟩
    · cases hspin : g.spin <;> simp [hspin, MotionProg.endSpindle]
    · simp [hspin, MotionProg.endSpindle]
  · refine completes_event (f := fun c => c.setMotion x { g with atSpeed := false, near := 0 }) rfl (by simp [hat, hfar, g]) ?_
    exact ⟨motion_setMotion .., hquiet (moved_setMotion ..)⟩
  · refine completes_event (f := fun c => c.catchWindow x (g.windows + 1)) rfl (by simp [hcatch, hcount, g]) ?_
    have hwindow : s.chip.catchWindow x (g.windows + 1) =
        s.chip.setMotion x { g with spn := mCoast, catching := true, windows := g.windows + 1, count := 0, good := 0 } :=
      if_neg (by omega)
    have hm := moved_setMotion s.chip x { g with spn := mCoast, catching := true, windows := g.windows + 1, count := 0, good := 0 }
    rw [hwindow, hm.here]
    exact ⟨rfl, rfl, rfl, hquiet hm⟩

end Sys2Proof.Machine
end

section
/-! Proofs about the spindle and sled hardware (O37). -/

namespace Sys2Proof.Machine

theorem bytesKept_setSpn (c : Chip) (k : Nat) (x : SpnRec) : c.bytesKept (c.setSpn k x) := bytesKept_of_eq rfl rfl rfl

/-! ### Tachometer (R321, R397) -/

/-- What a reading of the tachometer writes. -/
def tachFields (x : Nat) : List Fld :=
  [SPN_STATUS_TACH x, SPN_STATUS_TACH_VALID x, SPN_STATUS_TACH_REVERSE x, LE_REGION_SPEED (2 * x), LE_REGION_SPEED (2 * x + 1),
    LE_REGION_SPEED (16 + x)]

theorem apart_speed {f : Fld} {x q : Nat} (hx : x < 8) (hf : f.reg = SPN_STATUS x) (hq : q < 24) : apart f (LE_REGION_SPEED q) :=
  apart_of_reg (by simp only [hf, LE_REGION_SPEED, LE_REGION, SPN_STATUS]; omega)

/-- The speed bands that the station's pairs see follow, and no other field. -/
theorem speedBands_fieldsKept (c : Chip) (qs : List Nat) (rpm : Nat) : c.fieldsKept (qs.map LE_REGION_SPEED)
    (qs.foldl (fun c q => c.setFld (LE_REGION_SPEED q) (speedBand rpm 3 (c.fld (LE_REGION_SPEED q)))) c) :=
  fieldsKept_foldl _ _ (fieldsKept_refl _ _) fun _ _ hq h => fieldsKept_setFld _ _ (List.mem_map_of_mem hq) h

theorem setTach_fieldsKept (c : Chip) (x rpm : Nat) : c.fieldsKept (tachFields x) (c.setTach x rpm) := by
  refine fieldsKept_trans ?_ (fieldsKept_weaken ?_ (speedBands_fieldsKept _ [2 * x, 2 * x + 1, 16 + x] rpm))
  · exact fieldsKept_setFlag _ _ (by simp [tachFields]) (fieldsKept_setFld _ _ (by simp [tachFields]) (fieldsKept_refl _ _))
  · simp [tachFields]

theorem regsOnly_setTach (c : Chip) (x rpm : Nat) : c.regsOnly (c.setTach x rpm) :=
  regsOnly_foldl _ _ (regsOnly_setFlag _ _ (regsOnly_setFld _ _ (regsOnly_refl c))) fun _ _ h => regsOnly_setFld _ _ h

theorem setTach_status {c : Chip} {x : Nat} (hx : x < 8) (rpm : Nat) {f : Fld} (hreg : f.reg = SPN_STATUS x) (hf : f.lo + f.w ≤ 64) :
    (c.setTach x rpm).fld f =
      ((c.setFld (SPN_STATUS_TACH x) (if rpm < 30 then 0 else min 65535 rpm)).setFlag (SPN_STATUS_TACH_VALID x) (decide (30 ≤ rpm))).fld f := by
  refine speedBands_fieldsKept _ [2 * x, 2 * x + 1, 16 + x] rpm f hf ?_
  simp only [List.map_cons, List.map_nil, List.mem_cons, List.not_mem_nil, or_false, forall_eq_or_imp, forall_eq]
  exact ⟨apart_speed hx hreg (by omega), apart_speed hx hreg (by omega), apart_speed hx hreg (by omega)⟩

theorem setTach_tach {c : Chip} {x : Nat} (hx : x < 8) (rpm : Nat) :
    (c.setTach x rpm).fld (SPN_STATUS_TACH x) = if rpm < 30 then 0 else min 65535 rpm := by
  rw [setTach_status hx rpm rfl (by simp [SPN_STATUS_TACH]), Chip.setFlag, fld_setFld_apart _ _ _ _ (by simp [SPN_STATUS_TACH])
    (by simp [apart, SPN_STATUS_TACH, SPN_STATUS_TACH_VALID]), fld_setFld_same _ _ _ (by simp [SPN_STATUS_TACH])]
  refine Nat.mod_eq_of_lt ?_
  simp only [SPN_STATUS_TACH]
  split <;> omega

theorem setTach_valid {c : Chip} {x : Nat} (hx : x < 8) (rpm : Nat) : (c.setTach x rpm).flag (SPN_STATUS_TACH_VALID x) = decide (30 ≤ rpm) := by
  rw [flag_eq_of_fld (setTach_status hx rpm rfl (by simp [SPN_STATUS_TACH_VALID]))]
  exact flag_setFlag_same _ _ _ (by simp [SPN_STATUS_TACH_VALID]) rfl

theorem setTach_reverse {c : Chip} {x : Nat} (hx : x < 8) (rpm : Nat) :
    (c.setTach x rpm).flag (SPN_STATUS_TACH_REVERSE x) = c.flag (SPN_STATUS_TACH_REVERSE x) := by
  rw [flag_eq_of_fld (setTach_status hx rpm rfl (by simp [SPN_STATUS_TACH_REVERSE])),
    flag_setFlag_apart _ _ _ _ (by simp [SPN_STATUS_TACH_REVERSE]) (by simp [apart, SPN_STATUS_TACH_REVERSE, SPN_STATUS_TACH_VALID]),
    flag_setFld_apart _ _ _ _ (by simp [SPN_STATUS_TACH_REVERSE]) (by simp [apart, SPN_STATUS_TACH_REVERSE, SPN_STATUS_TACH])]

section station
variable {s : State} {x : Station}

/-- A zero crossing after one of phase `l` of the same direction or the other (R397). -/
theorem completes_tachCrossing {ph : Fin 3} {ns l : Nat} (hl : (s.chip.spn x).lastPhase = some l) (_hl3 : l < 3) :
    Completes (.tachCrossing x ph ns) s fun c =>
      let rpm := 20000000000 / (max 1 ns * max 1 (s.chip.fld (SPN_CFG_POLE_PAIRS x)))
      (c.spn x).lastPhase = some ph.val ∧ c.fld (SPN_STATUS_TACH x) = (if rpm < 30 then 0 else min 65535 rpm) ∧
      c.flag (SPN_STATUS_TACH_VALID x) = decide (30 ≤ rpm) ∧
      (ph.val = (l + 1) % 3 → c.flag (SPN_STATUS_TACH_REVERSE x) = false) ∧ (ph.val = (l + 2) % 3 → c.flag (SPN_STATUS_TACH_REVERSE x) = true) ∧
      s.chip.fieldsKept (tachFields x) c ∧ s.chip.bytesKept c := by
  refine ⟨_, rfl, rfl, ?_⟩
  dsimp only
  rw [hl]
  dsimp only
  generalize 20000000000 / (max 1 ns * max 1 (s.chip.fld (SPN_CFG_POLE_PAIRS x))) = rpm
  generalize hc : s.chip.setSpn x { s.chip.spn x with lastPhase := some ph.val } = c
  have hspn : (c.spn x).lastPhase = some ph.val := by rw [← hc, spn_setSpn]
  have hkept : s.chip.fieldsKept (tachFields x) c := fieldsKept_of_regs (by rw [← hc]; rfl)
  have hbytes : s.chip.bytesKept c := by rw [← hc]; exact bytesKept_of_eq rfl rfl rfl
  generalize hd : (if ph.val = (l + 1) % 3 then c.setFlag (SPN_STATUS_TACH_REVERSE x) false
    else if ph.val = (l + 2) % 3 then c.setFlag (SPN_STATUS_TACH_REVERSE x) true else c) = d
  have hflag : ∀ v, (c.setFlag (SPN_STATUS_TACH_REVERSE x) v).flag (SPN_STATUS_TACH_REVERSE x) = v := fun v =>
    flag_setFlag_same _ _ _ (by simp [SPN_STATUS_TACH_REVERSE]) rfl
  have hregs : c.regsOnly d := by
    rw [← hd]
    split_ifs
    · exact regsOnly_setFlag _ _ (regsOnly_refl c)
    · exact regsOnly_setFlag _ _ (regsOnly_refl c)
    · exact regsOnly_refl c
  have hkept' : s.chip.fieldsKept (tachFields x) d := by
    rw [← hd]
    split_ifs
    · exact fieldsKept_setFlag _ _ (by simp [tachFields]) hkept
    · exact fieldsKept_setFlag _ _ (by simp [tachFields]) hkept
    · exact hkept
  have hall := regsOnly_trans hregs (regsOnly_setTach d x rpm)
  refine ⟨?_, setTach_tach x.isLt rpm, setTach_valid x.isLt rpm, fun hph => ?_, fun hph => ?_, fieldsKept_trans hkept' (setTach_fieldsKept _ _ _),
    bytesKept_trans hbytes (bytesKept_of_regsOnly hall)⟩
  · rw [← hspn, hall]
    rfl
  · rw [setTach_reverse x.isLt, ← hd, if_pos hph, hflag]
  · rw [setTach_reverse x.isLt, ← hd, if_neg (by omega), if_pos hph, hflag]

theorem completes_tachTimeout : Completes (.tachTimeout x) s fun c =>
    c.fld (SPN_STATUS_TACH x) = 0 ∧ c.flag (SPN_STATUS_TACH_VALID x) = false ∧ c.flag (SPN_STATUS_TACH_REVERSE x) = false ∧
    s.chip.fieldsKept (tachFields x) c ∧ s.chip.bytesKept c := by
  refine completes_on (f := fun c => ((c.setTach x 0).setFlag (SPN_STATUS_TACH_REVERSE x) false).setSpn x { c.spn x with lastPhase := none }) rfl ?_
  have hregs : ∀ (d : Chip) (k : SpnRec), (d.setSpn x k).regs = d.regs := fun _ _ => rfl
  have hbytes : s.chip.bytesKept ((s.chip.setTach x 0).setFlag (SPN_STATUS_TACH_REVERSE x) false) :=
    bytesKept_of_regsOnly (regsOnly_setFlag _ _ (regsOnly_setTach s.chip x 0))
  refine ⟨?_, ?_, ?_, ?_, bytesKept_trans hbytes (bytesKept_setSpn _ _ _)⟩
  · rw [fld_of_regs (hregs _ _), Chip.setFlag, fld_setFld_apart _ _ _ _ (by simp [SPN_STATUS_TACH])
      (by simp [apart, SPN_STATUS_TACH, SPN_STATUS_TACH_REVERSE]), setTach_tach x.isLt]
    rfl
  · rw [flag_eq_of_fld (fld_of_regs (hregs _ _) _), flag_setFlag_apart _ _ _ _ (by simp [SPN_STATUS_TACH_VALID])
      (by simp [apart, SPN_STATUS_TACH_VALID, SPN_STATUS_TACH_REVERSE]), setTach_valid x.isLt]
    rfl
  · rw [flag_eq_of_fld (fld_of_regs (hregs _ _) _)]
    exact flag_setFlag_same _ _ _ (by simp [SPN_STATUS_TACH_REVERSE]) rfl
  · exact fieldsKept_regs (hregs _ _) (fieldsKept_setFlag _ _ (by simp [tachFields]) (setTach_fieldsKept _ _ _))

/-! ### PWM and short-brake (R396, R398, R399) -/

/-- What the application of a mode writes. -/
def modeFields (x : Nat) : List Fld := [SPN_STATUS_MODE x, SPN_STATUS_SB_WAIT x, SPN_SHORT_BRAKES_COUNT x]

/-- A short-brake is asked for. -/
def Chip.brakeAsked (c : Chip) (x : Nat) : Bool := c.flag (SPN_CTRL_BRAKE x) || (c.spn x).nextMode == 2

/-- The speed is below SB_MAX. -/
def Chip.brakeSlow (c : Chip) (x : Nat) : Bool := decide (c.fld (SPN_STATUS_TACH x) < c.fld (SPN_CFG_SB_MAX x))

/-- The mode that the block applies (R396). -/
def Chip.modeDue (c : Chip) (x : Nat) : Nat :=
  if c.flag (SPN_STATUS_DRIVER_FAULT x) then 0
  else if c.brakeAsked x then (if c.brakeSlow x then 2 else 0) else if (c.spn x).nextMode = 1 then 1 else 0

theorem applyMode_eq (c : Chip) (x : Nat) : c.applyMode x =
    ((((if c.modeDue x = 2 ∧ (c.spn x).mode ≠ 2 then c.inc (SPN_SHORT_BRAKES_COUNT x) else c).setFld (SPN_STATUS_MODE x) (c.modeDue x)).setFlag
      (SPN_STATUS_SB_WAIT x) (c.brakeAsked x && !c.brakeSlow x && !c.flag (SPN_STATUS_DRIVER_FAULT x))).setSpn x { c.spn x with mode := c.modeDue x }) := rfl

theorem modeDue_lt (c : Chip) (x : Nat) : c.modeDue x < 4 := by
  unfold Chip.modeDue
  split_ifs <;> decide

/-- What the application of a mode does. -/
structure ModeApplied (x : Nat) (c c' : Chip) : Prop where
  mode : c'.fld (SPN_STATUS_MODE x) = c.modeDue x
  wait : c'.flag (SPN_STATUS_SB_WAIT x) = (c.brakeAsked x && !c.brakeSlow x && !c.flag (SPN_STATUS_DRIVER_FAULT x))
  spn : c'.spn x = { c.spn x with mode := c.modeDue x }
  stations : c'.servo.stations = c.servo.stations
  fields : c.fieldsKept (modeFields x) c'
  bytes : c.bytesKept c'

theorem modeApplied_applyMode (c : Chip) (x : Nat) : ModeApplied x c (c.applyMode x) := by
  rw [applyMode_eq]
  generalize hd : (if c.modeDue x = 2 ∧ (c.spn x).mode ≠ 2 then c.inc (SPN_SHORT_BRAKES_COUNT x) else c) = d
  have hdr : c.regsOnly d := by
    rw [← hd]
    split_ifs
    · exact regsOnly_inc _ (regsOnly_refl c)
    · exact regsOnly_refl c
  have hdf : c.fieldsKept (modeFields x) d := by
    rw [← hd]
    split_ifs
    · exact fieldsKept_inc _ (by simp [modeFields]) (fieldsKept_refl _ _)
    · exact fieldsKept_refl _ _
  have hregs : ∀ (d : Chip) (k : SpnRec), (d.setSpn x k).regs = d.regs := fun _ _ => rfl
  refine ⟨?_, ?_, spn_setSpn .., congrArg (·.servo.stations) hdr, ?_, bytesKept_trans (bytesKept_of_regsOnly hdr) ?_⟩
  · rw [fld_of_regs (hregs _ _), Chip.setFlag, fld_setFld_apart _ _ _ _ (by simp [SPN_STATUS_MODE])
      (by simp [apart, SPN_STATUS_MODE, SPN_STATUS_SB_WAIT]),
      fld_setFld_same _ _ _ (by simp [SPN_STATUS_MODE])]
    exact Nat.mod_eq_of_lt (modeDue_lt c x)
  · rw [flag_eq_of_fld (fld_of_regs (hregs _ _) _)]
    exact flag_setFlag_same _ _ _ (by simp [SPN_STATUS_SB_WAIT]) rfl
  · exact fieldsKept_regs (hregs _ _) (fieldsKept_setFlag _ _ (by simp [modeFields]) (fieldsKept_setFld _ _ (by simp [modeFields]) hdf))
  · exact bytesKept_trans (bytesKept_of_regsOnly (regsOnly_setFlag _ _ (regsOnly_setFld _ _ (regsOnly_refl d)))) (bytesKept_setSpn _ _ _)

/-- A short-brake that is asked for, on a machine without a driver fault (R396, R399). -/
theorem ModeApplied.brake {c c' : Chip} {x : Nat} (h : ModeApplied x c c') (hbrake : c.flag (SPN_CTRL_BRAKE x) = true)
    (hfault : c.flag (SPN_STATUS_DRIVER_FAULT x) = false) :
    c'.flag (SPN_CTRL_BRAKE x) = true ∧ c'.fld (SPN_STATUS_MODE x) = (if c.brakeSlow x then 2 else 0) ∧ c'.flag (SPN_STATUS_SB_WAIT x) = !c.brakeSlow x := by
  have hasked : c.brakeAsked x = true := by simp [Chip.brakeAsked, hbrake]
  refine ⟨?_, ?_, ?_⟩
  · rw [flag_eq_of_fld (h.fields _ (by simp [SPN_CTRL_BRAKE]) ?_), hbrake]
    simp [modeFields, apart, SPN_CTRL_BRAKE, SPN_STATUS_MODE, SPN_STATUS_SB_WAIT, SPN_SHORT_BRAKES_COUNT, SPN_CTRL, SPN_STATUS, SPN_SHORT_BRAKES]
  · rw [h.mode, Chip.modeDue, hfault, hasked]
    rfl
  · rw [h.wait, hasked, hfault]
    simp

theorem completes_brakeRequested (hfault : s.chip.flag (SPN_STATUS_DRIVER_FAULT x) = false) : Completes (.spnBrakeRequest x) s fun c =>
    c.flag (SPN_CTRL_BRAKE x) = true ∧ c.fld (SPN_STATUS_MODE x) = (if s.chip.brakeSlow x then 2 else 0) ∧ c.flag (SPN_STATUS_SB_WAIT x) = !s.chip.brakeSlow x ∧
    s.chip.fieldsKept (SPN_CTRL_BRAKE x :: modeFields x) c ∧ s.chip.bytesKept c := by
  refine completes_on (f := fun c => (c.setFld (SPN_CTRL_BRAKE x) 1).applyMode x) rfl ?_
  have h := modeApplied_applyMode (s.chip.setFld (SPN_CTRL_BRAKE x) 1) x
  have hslow : (s.chip.setFld (SPN_CTRL_BRAKE x) 1).brakeSlow x = s.chip.brakeSlow x := by
    unfold Chip.brakeSlow
    rw [fld_setFld_apart _ _ _ _ (by simp [SPN_STATUS_TACH]) (by simp [apart, SPN_STATUS_TACH, SPN_CTRL_BRAKE, SPN_STATUS, SPN_CTRL]),
      fld_setFld_apart _ _ _ _ (by simp [SPN_CFG_SB_MAX]) (by simp [apart, SPN_CFG_SB_MAX, SPN_CTRL_BRAKE, SPN_CFG, SPN_CTRL])]
  obtain ⟨hbrake, hmode, hwait⟩ := h.brake (flag_mark_same _ _ (by simp [SPN_CTRL_BRAKE]) (by simp [SPN_CTRL_BRAKE])) (by
    rw [flag_setFld_apart _ _ _ _ (by simp [SPN_STATUS_DRIVER_FAULT])
      (by simp [apart, SPN_STATUS_DRIVER_FAULT, SPN_CTRL_BRAKE, SPN_STATUS, SPN_CTRL]), hfault])
  rw [hslow] at hmode hwait
  exact ⟨hbrake, hmode, hwait, fieldsKept_trans (fieldsKept_setFld _ _ List.mem_cons_self (fieldsKept_refl _ _))
    (fieldsKept_weaken (fun _ => List.mem_cons_of_mem _) h.fields), h.bytes⟩

theorem completes_shortBrakeApply (hwait : s.chip.flag (SPN_STATUS_SB_WAIT x) = true) : Completes (.shortBrakeApply x) s (ModeApplied x s.chip) :=
  completes_event (f := fun c => c.applyMode x) rfl hwait (modeApplied_applyMode _ _)

theorem completes_pwmCycle : Completes (.pwmCycle x) s fun c =>
    (c.spn x).duty = (s.chip.spn x).next ∧ (c.spn x).cut = false ∧
    (s.chip.flag (SPN_STATUS_DRIVER_FAULT x) = true → c.fld (SPN_STATUS_MODE x) = 0) ∧ s.chip.fieldsKept (modeFields x) c ∧ s.chip.bytesKept c := by
  refine completes_on (f := fun c => (c.setSpn x { c.spn x with duty := (c.spn x).next, cut := false }).applyMode x) rfl ?_
  have h := modeApplied_applyMode (s.chip.setSpn x { s.chip.spn x with duty := (s.chip.spn x).next, cut := false }) x
  dsimp only
  refine ⟨?_, ?_, fun hfault => ?_, h.fields, h.bytes⟩
  · rw [h.spn, spn_setSpn]
  · rw [h.spn, spn_setSpn]
  · rw [h.mode, Chip.modeDue, if_pos]
    exact hfault

theorem completes_ilimCut {iu iv iw : BitVec 12} (hcut : (s.chip.spn x).cut = false)
    (h : s.chip.fld (SPN_ILIM_ILIM x) < ((iu.toNat : Int) - 2048).natAbs ∨ s.chip.fld (SPN_ILIM_ILIM x) < ((iv.toNat : Int) - 2048).natAbs ∨
      s.chip.fld (SPN_ILIM_ILIM x) < ((iw.toNat : Int) - 2048).natAbs) : Completes (.ilimCut x iu iv iw) s fun c =>
    (c.spn x).cut = true ∧ c.flag (SPN_EVENT_ILIM x) = true ∧
    c.fld (SPN_ILIM_CYCLES_COUNT x) = min (s.chip.fld (SPN_ILIM_CYCLES_COUNT x) + 1) (2 ^ 32 - 1) ∧
    s.chip.fieldsKept [SPN_EVENT_ILIM x, SPN_ILIM_CYCLES_COUNT x] c ∧ s.chip.bytesKept c := by
  refine completes_event (f := fun c => ((c.setSpn x { c.spn x with cut := true }).inc (SPN_ILIM_CYCLES_COUNT x)).mark (SPN_EVENT_ILIM x)) rfl
    (by simpa [hcut, or_assoc] using h) ?_
  have hspn : ∀ d : Chip, ((d.inc (SPN_ILIM_CYCLES_COUNT x)).mark (SPN_EVENT_ILIM x)).spn x = d.spn x := fun _ => rfl
  refine ⟨?_, flag_mark_same _ _ (by simp [SPN_EVENT_ILIM]) (by simp [SPN_EVENT_ILIM]), ?_, ?_, bytesKept_of_eq rfl rfl rfl⟩
  · rw [hspn, spn_setSpn]
  · rw [fld_mark_apart _ _ _ (by simp [SPN_ILIM_CYCLES_COUNT])
      (by simp [apart, SPN_ILIM_CYCLES_COUNT, SPN_EVENT_ILIM, SPN_ILIM_CYCLES, SPN_EVENT]), fld_inc_same _ _ (by simp [SPN_ILIM_CYCLES_COUNT]),
      fld_of_regs (setSpn_regs _ _ _)]
    rfl
  · exact fieldsKept_mark _ (by simp) (fieldsKept_inc _ (by simp) (fieldsKept_of_regs (setSpn_regs _ _ _)))

/-- One more cause joins a park in progress (R369). -/
theorem park_parking {c : Chip} {x : Nat} (cause : Nat) (h : c.stState x = sParking) :
    c.park x cause = c.setStn x { c.stn x with causes := (c.stn x).causes ++ [cause], reset := (c.stn x).reset || cause == cauStationReset } := by
  simp [Chip.park, h]

theorem bytesKept_setStn (c : Chip) (k : Nat) (x : StationRec) : c.bytesKept (c.setStn k x) := bytesKept_of_eq rfl rfl rfl

theorem spn_setStn (c : Chip) (k : Nat) (x : StationRec) : (c.setStn k x).spn = c.spn := rfl
theorem sled_setStn (c : Chip) (k : Nat) (x : StationRec) : (c.setStn k x).sled = c.sled := rfl

/-- The machine in which the fault of the driver shows (R398). -/
def Chip.driverFaulted (c : Chip) (x : Nat) : Chip :=
  ((c.setSpn x { c.spn x with fltInput := true }).setFld (SPN_STATUS_DRIVER_FAULT x) 1).mark (SPN_EVENT_DRIVER_FAULT x)

theorem driverFaulted_fieldsKept (c : Chip) (x : Nat) : c.fieldsKept [SPN_STATUS_DRIVER_FAULT x, SPN_EVENT_DRIVER_FAULT x] (c.driverFaulted x) :=
  fieldsKept_mark _ (by simp) (fieldsKept_setFld _ _ (by simp) (fieldsKept_of_regs (setSpn_regs _ _ _)))

theorem bytesKept_driverFaulted (c : Chip) (x : Nat) : c.bytesKept (c.driverFaulted x) := by
  rw [Chip.driverFaulted]
  exact bytesKept_trans (bytesKept_setSpn c x _) (bytesKept_of_regsOnly (regsOnly_mark _ (regsOnly_setFld _ _ (regsOnly_refl _))))

/-- A mode applied under a driver fault is none, and the fault still shows. -/
theorem ModeApplied.faulted {d e : Chip} {x : Nat} (h : ModeApplied x d e) (hfault : d.flag (SPN_STATUS_DRIVER_FAULT x) = true)
    (hevent : d.flag (SPN_EVENT_DRIVER_FAULT x) = true) :
    (e.spn x).mode = 0 ∧ e.flag (SPN_STATUS_DRIVER_FAULT x) = true ∧ e.flag (SPN_EVENT_DRIVER_FAULT x) = true ∧ e.fld (SPN_STATUS_MODE x) = 0 := by
  have hdue : d.modeDue x = 0 := if_pos hfault
  refine ⟨?_, ?_, ?_, h.mode.trans hdue⟩
  · rw [h.spn]
    exact hdue
  · refine (flag_eq_of_fld (h.fields _ (by simp [SPN_STATUS_DRIVER_FAULT]) ?_)).trans hfault
    simp [modeFields, apart, SPN_STATUS_DRIVER_FAULT, SPN_STATUS_MODE, SPN_STATUS_SB_WAIT, SPN_SHORT_BRAKES_COUNT, SPN_STATUS, SPN_SHORT_BRAKES]
  · refine (flag_eq_of_fld (h.fields _ (by simp [SPN_EVENT_DRIVER_FAULT]) ?_)).trans hevent
    simp [modeFields, apart, SPN_EVENT_DRIVER_FAULT, SPN_STATUS_MODE, SPN_STATUS_SB_WAIT, SPN_SHORT_BRAKES_COUNT, SPN_STATUS, SPN_SHORT_BRAKES, SPN_EVENT]

theorem ModeApplied.stState {d e : Chip} {x : Station} (h : ModeApplied x d e) : e.stState x = d.stState x := by
  have _hx := x.isLt
  refine h.fields _ (by simp [WMM_STN_STATE_STATE]) ?_
  simp only [modeFields, List.mem_cons, List.not_mem_nil, or_false, forall_eq_or_imp, forall_eq]
  refine ⟨apart_of_reg ?_, apart_of_reg ?_, apart_of_reg ?_⟩
  all_goals
    simp only [WMM_STN_STATE_STATE, WMM_STN_STATE, SPN_STATUS_MODE, SPN_STATUS_SB_WAIT, SPN_SHORT_BRAKES_COUNT, SPN_STATUS, SPN_SHORT_BRAKES]
    omega

theorem driverFaulted_stState (c : Chip) (x : Station) : (c.driverFaulted x).stState x = c.stState x := by
  have _hx := x.isLt
  refine driverFaulted_fieldsKept c x _ (by simp [WMM_STN_STATE_STATE]) ?_
  simp only [List.mem_cons, List.not_mem_nil, or_false, forall_eq_or_imp, forall_eq]
  refine ⟨apart_of_reg ?_, apart_of_reg ?_⟩
  all_goals
    simp only [WMM_STN_STATE_STATE, WMM_STN_STATE, SPN_STATUS_DRIVER_FAULT, SPN_EVENT_DRIVER_FAULT, SPN_STATUS, SPN_EVENT]
    omega

theorem driverFaulted_flags (c : Chip) (x : Nat) :
    (c.driverFaulted x).flag (SPN_STATUS_DRIVER_FAULT x) = true ∧ (c.driverFaulted x).flag (SPN_EVENT_DRIVER_FAULT x) = true := by
  refine ⟨?_, flag_mark_same _ _ (by simp [SPN_EVENT_DRIVER_FAULT]) (by simp [SPN_EVENT_DRIVER_FAULT])⟩
  rw [Chip.driverFaulted, flag_mark_apart _ _ _ (by simp [SPN_STATUS_DRIVER_FAULT])
    (by simp [apart, SPN_STATUS_DRIVER_FAULT, SPN_EVENT_DRIVER_FAULT, SPN_STATUS, SPN_EVENT])]
  exact flag_mark_same _ _ (by simp [SPN_STATUS_DRIVER_FAULT]) (by simp [SPN_STATUS_DRIVER_FAULT])

theorem completes_spindleDriverFault (hpark : s.chip.stState x = sParking) : Completes (.spindleDriverFault x true) s fun c =>
    (c.spn x).fltInput = true ∧ (c.spn x).mode = 0 ∧ c.flag (SPN_STATUS_DRIVER_FAULT x) = true ∧ c.flag (SPN_EVENT_DRIVER_FAULT x) = true ∧
    c.fld (SPN_STATUS_MODE x) = 0 ∧ (c.stn x).causes = (s.chip.stn x).causes ++ [cauSpindle] ∧ s.chip.bytesKept c := by
  refine completes_on (f := fun c => ((c.driverFaulted x).applyMode x).park x cauSpindle) rfl ?_
  have h := modeApplied_applyMode (s.chip.driverFaulted x) x
  have hbytes := bytesKept_trans (bytesKept_driverFaulted s.chip x) h.bytes
  have hstations : (s.chip.driverFaulted x).servo.stations = s.chip.servo.stations := rfl
  obtain ⟨hfault, hevent⟩ := driverFaulted_flags s.chip x
  have hinput : ((s.chip.driverFaulted x).spn x).fltInput = true := congrArg (·.fltInput) (spn_setSpn s.chip x _)
  have hst := h.stState.trans ((driverFaulted_stState s.chip x).trans hpark)
  obtain ⟨hmode, hfault', hevent', hfld⟩ := h.faulted hfault hevent
  have hstn : ((s.chip.driverFaulted x).applyMode x).stn x = s.chip.stn x := by
    rw [Chip.stn, Chip.stn, h.stations, hstations]
  have hin : (((s.chip.driverFaulted x).applyMode x).spn x).fltInput = true := by rw [h.spn, ← hinput]
  rw [park_parking _ hst, spn_setStn, flag_setStn, flag_setStn, fld_setStn, stn_setStn, hstn]
  exact ⟨hin, hmode, hfault', hevent', hfld, rfl, bytesKept_trans hbytes (bytesKept_setStn _ _ _)⟩

theorem completes_spindleDriverFault_over : Completes (.spindleDriverFault x false) s fun c =>
    (c.spn x).fltInput = false ∧ c.regs = s.chip.regs ∧ s.chip.bytesKept c :=
  completes_on (f := fun c => c.setSpn x { c.spn x with fltInput := false }) rfl
    ⟨by rw [spn_setSpn], rfl, bytesKept_setSpn _ _ _⟩

end station

/-! ### Choppers and limit switches (R382 to R384, R391, R392) -/

section sled
variable {s : State} {p : Pickup}

theorem bytesKept_setSled (c : Chip) (k : Nat) (x : SledRec) : c.bytesKept (c.setSled k x) := bytesKept_of_eq rfl rfl rfl

/-- The field that shows whether a phase is driven. -/
def driveField (p : Nat) (b : Bool) : Fld := if b then MOT_AX_STATUS_B_DRIVE p else MOT_AX_STATUS_A_DRIVE p

theorem driveField_fits (p : Nat) (b : Bool) : (driveField p b).lo + (driveField p b).w ≤ 64 ∧ (driveField p b).w = 1 := by
  cases b <;> simp [driveField, MOT_AX_STATUS_A_DRIVE, MOT_AX_STATUS_B_DRIVE]

/-- The sled record with one chopper set. -/
def SledRec.withChop (k : SledRec) (b : Bool) (x : ChopRec) : SledRec := if b then { k with b := x } else { k with a := x }

theorem SledRec.chop_withChop (k : SledRec) (b : Bool) (x : ChopRec) : (k.withChop b x).chop b = x ∧ (k.withChop b x).chop (!b) = k.chop (!b) := by
  cases b <;> exact ⟨rfl, rfl⟩

theorem setChop_eq (c : Chip) (p : Nat) (b : Bool) (x : ChopRec) :
    c.setChop p b x = (c.setSled p ((c.sled p).withChop b x)).setFlag (driveField p b) x.drive := rfl

/-- Setting a chopper sets its record and shows its drive, and no other field. -/
structure Chopped (p : Nat) (b : Bool) (x : ChopRec) (c c' : Chip) : Prop where
  sled : c'.sled p = (c.sled p).withChop b x
  shown : c'.flag (driveField p b) = x.drive
  fields : c.fieldsKept [driveField p b] c'
  stations : c'.servo.stations = c.servo.stations
  bytes : c.bytesKept c'

theorem chopped_setChop (c : Chip) (p : Nat) (b : Bool) (x : ChopRec) : Chopped p b x c (c.setChop p b x) := by
  obtain ⟨hfits, hw⟩ := driveField_fits p b
  rw [setChop_eq]
  refine ⟨?_, flag_setFlag_same _ _ _ hfits hw, fieldsKept_setFlag _ _ List.mem_cons_self (fieldsKept_of_regs (setSled_regs _ _ _)), rfl, ?_⟩
  · have hsled : ∀ d : Chip, (d.setFlag (driveField p b) x.drive).sled p = d.sled p := fun _ => rfl
    rw [hsled, sled_setSled]
  · exact bytesKept_trans (bytesKept_setSled _ _ _) (bytesKept_of_regsOnly (regsOnly_setFlag _ _ (regsOnly_refl _)))

theorem Chopped.chop {c c' : Chip} {p : Nat} {b : Bool} {x : ChopRec} (h : Chopped p b x c c') :
    (c'.sled p).chop b = x ∧ (c'.sled p).chop (!b) = (c.sled p).chop (!b) := by
  rw [h.sled]
  exact SledRec.chop_withChop _ _ _

/-- A chopper that may drive does (R382). -/
theorem completes_chopperDrive {b : Bool} {i : Int} {drive decay : Nat} (hruns : s.chip.sledRuns p = true)
    (hdrive : ((s.chip.sled p).chop b).drive = false) (hfast : ((s.chip.sled p).chop b).fast = false) (href : 0 ≤ s.chip.sledRef p b.toNat)
    (hold : 0 ≤ ((s.chip.sled p).chop b).ref) (hi : i * 2 ^ 17 ≤ (s.chip.thresholds p b).1) (hdecay : 2000 ≤ decay) (hdriven : 12500 ≤ drive) :
    Completes (.chopperDrive p b i drive decay false) s
      (Chopped p b { (s.chip.sled p).chop b with drive := true, bridge := 2, fast := false, ref := s.chip.sledRef p b.toNat } s.chip) := by
  have hneg : decide (s.chip.sledRef p b.toNat < 0) = false := by simpa using href
  have hneg' : decide (((s.chip.sled p).chop b).ref < 0) = false := by simpa using hold
  refine completes_event (f := fun c => c.setChop p b
    { (s.chip.sled p).chop b with drive := true, bridge := bridgeFor (decide (s.chip.sledRef p b.toNat < 0)), fast := false, ref := s.chip.sledRef p b.toNat })
    rfl ?_ ?_
  · simp only [hneg, hneg', hruns, hdrive, hfast, Bool.not_false, Bool.and_true, Bool.true_or, beq_self_eq_true, Bool.false_eq_true, if_false]
    exact decide_eq_true ⟨hi, hdecay, hdriven⟩
  · rw [hneg]
    exact chopped_setChop ..

/-- A driven phase above its upper threshold decays slowly (R382). -/
theorem completes_chopperDecay {b : Bool} {i : Int} {drive : Nat} (hruns : s.chip.sledRuns p = true)
    (hdrive : ((s.chip.sled p).chop b).drive = true) (href : 0 ≤ s.chip.sledRef p b.toNat) (hold : 0 ≤ ((s.chip.sled p).chop b).ref)
    (hi : (s.chip.thresholds p b).2 ≤ i * 2 ^ 17) (hdriven : 2000 ≤ drive) (hmode : s.chip.fld (MOT_AX_CTRL_DECAY p) = 0) :
    Completes (.chopperDecay p b i drive) s
      (Chopped p b { (s.chip.sled p).chop b with drive := false, bridge := 3, ref := s.chip.sledRef p b.toNat } s.chip) := by
  have hneg : decide (s.chip.sledRef p b.toNat < 0) = false := by simpa using href
  have hneg' : decide (((s.chip.sled p).chop b).ref < 0) = false := by simpa using hold
  refine ⟨_, rfl, rfl, ?_⟩
  dsimp only
  rw [hruns, hneg, hneg', hdrive, hmode]
  simp only [Bool.not_true, Bool.false_eq_true, if_false, bne_self_eq_false]
  rw [if_pos ⟨trivial, hi, hdriven⟩]
  exact chopped_setChop ..

theorem completes_mixedDecayBrake {b : Bool} (hruns : s.chip.sledRuns p = true) (hdrive : ((s.chip.sled p).chop b).drive = false)
    (hfast : ((s.chip.sled p).chop b).fast = false) (hmode : s.chip.fld (MOT_AX_CTRL_DECAY p) = 2) :
    Completes (.mixedDecayBrake p b) s (Chopped p b { (s.chip.sled p).chop b with bridge := 3 } s.chip) := by
  refine completes_event (f := fun c => c.setChop p b { (s.chip.sled p).chop b with bridge := 3 }) rfl (by simp [hruns, hdrive, hfast, hmode]) ?_
  exact chopped_setChop ..

/-- Choppers of an axis that does not run are at rest (R384). -/
theorem sledOffBridge_stopped {c : Chip} {p : Nat} (h : c.sledRuns p = false) :
    ((c.sledOffBridge p).sled p).a.bridge = 0 ∧ ((c.sledOffBridge p).sled p).b.bridge = 0 ∧
    ((c.sledOffBridge p).sled p).fltInput = (c.sled p).fltInput ∧
    (c.sledOffBridge p).flag (MOT_AX_STATUS_A_DRIVE p) = false ∧ (c.sledOffBridge p).flag (MOT_AX_STATUS_B_DRIVE p) = false ∧
    c.fieldsKept [MOT_AX_STATUS_A_DRIVE p, MOT_AX_STATUS_B_DRIVE p] (c.sledOffBridge p) ∧ c.bytesKept (c.sledOffBridge p) := by
  have hoff : c.sledOffBridge p = (c.setChop p false {}).setChop p true {} := by
    rw [Chip.sledOffBridge, h]
    rfl
  have ha := chopped_setChop c p false {}
  have hb := chopped_setChop (c.setChop p false {}) p true {}
  rw [hoff]
  refine ⟨?_, ?_, ?_, ?_, hb.shown, ?_, bytesKept_trans ha.bytes hb.bytes⟩
  · rw [hb.sled, ha.sled]
    rfl
  · rw [hb.sled, ha.sled]
    rfl
  · rw [hb.sled, ha.sled]
    rfl
  · refine (flag_eq_of_fld (hb.fields _ (by simp [MOT_AX_STATUS_A_DRIVE]) ?_)).trans ha.shown
    simp [driveField, apart, MOT_AX_STATUS_A_DRIVE, MOT_AX_STATUS_B_DRIVE]
  · exact fieldsKept_trans (fieldsKept_weaken (by simp [driveField]) ha.fields) (fieldsKept_weaken (by simp [driveField]) hb.fields)

/-- The machine in which the fault of a bridge shows (R384). -/
def Chip.bridgeFaulted (c : Chip) (p : Nat) : Chip :=
  ((c.setSled p { c.sled p with fltInput := true }).setFld (MOT_AX_STATUS_DRIVER_FAULT p) 1).mark (MOT_AX_EVENT_DRIVER_FAULT p)

theorem bytesKept_bridgeFaulted (c : Chip) (p : Nat) : c.bytesKept (c.bridgeFaulted p) := by
  rw [Chip.bridgeFaulted]
  exact bytesKept_trans (bytesKept_setSled c p _) (bytesKept_of_regsOnly (regsOnly_mark _ (regsOnly_setFld _ _ (regsOnly_refl _))))

theorem completes_sledBridgeFault (hpark : s.chip.stState (p / 2) = sParking) : Completes (.sledBridgeFault p true) s fun c =>
    (c.sled p).fltInput = true ∧ c.flag (MOT_AX_STATUS_DRIVER_FAULT p) = true ∧ c.flag (MOT_AX_EVENT_DRIVER_FAULT p) = true ∧
    (c.sled p).a.bridge = 0 ∧ (c.sled p).b.bridge = 0 ∧ c.flag (MOT_AX_STATUS_A_DRIVE p) = false ∧ c.flag (MOT_AX_STATUS_B_DRIVE p) = false ∧
    s.chip.bytesKept c := by
  refine completes_on (f := fun c => ((c.bridgeFaulted p).sledOffBridge p).park (p / 2) cauServoLost) rfl ?_
  have hevent : (s.chip.bridgeFaulted p).flag (MOT_AX_EVENT_DRIVER_FAULT p) = true :=
    flag_mark_same _ _ (by simp [MOT_AX_EVENT_DRIVER_FAULT]) (by simp [MOT_AX_EVENT_DRIVER_FAULT])
  have hfault : (s.chip.bridgeFaulted p).flag (MOT_AX_STATUS_DRIVER_FAULT p) = true := by
    rw [Chip.bridgeFaulted, flag_mark_apart _ _ _ (by simp [MOT_AX_STATUS_DRIVER_FAULT])
      (by simp [apart, MOT_AX_STATUS_DRIVER_FAULT, MOT_AX_EVENT_DRIVER_FAULT, MOT_AX_STATUS, MOT_AX_EVENT])]
    exact flag_mark_same _ _ (by simp [MOT_AX_STATUS_DRIVER_FAULT]) (by simp [MOT_AX_STATUS_DRIVER_FAULT])
  have hstop : (s.chip.bridgeFaulted p).sledRuns p = false := by
    rw [Chip.sledRuns, hfault]
    simp
  have hinput : ((s.chip.bridgeFaulted p).sled p).fltInput = true := congrArg (·.fltInput) (sled_setSled s.chip p _)
  have hstate : (s.chip.bridgeFaulted p).stState (p / 2) = sParking := by
    have _hp := p.isLt
    refine Eq.trans ?_ hpark
    rw [Chip.stState, Chip.bridgeFaulted, fld_mark_apart _ _ _ (by simp [WMM_STN_STATE_STATE]), fld_setFld_apart _ _ _ _ (by simp [WMM_STN_STATE_STATE])]
    · exact fld_of_regs (setSled_regs _ _ _) _
    · exact apart_of_reg (by simp only [WMM_STN_STATE_STATE, WMM_STN_STATE, MOT_AX_STATUS_DRIVER_FAULT, MOT_AX_STATUS]; omega)
    · exact apart_of_reg (by simp only [WMM_STN_STATE_STATE, WMM_STN_STATE, MOT_AX_EVENT_DRIVER_FAULT, MOT_AX_EVENT]; omega)
  obtain ⟨ha, hb, hflt, hda, hdb, hkept, hbytes⟩ := sledOffBridge_stopped hstop
  have hst : ((s.chip.bridgeFaulted p).sledOffBridge p).stState (p / 2) = sParking := by
    have _hp := p.isLt
    refine (hkept _ (by simp [WMM_STN_STATE_STATE]) ?_).trans hstate
    simp only [List.mem_cons, List.not_mem_nil, or_false, forall_eq_or_imp, forall_eq]
    refine ⟨apart_of_reg ?_, apart_of_reg ?_⟩
    all_goals
      simp only [WMM_STN_STATE_STATE, WMM_STN_STATE, MOT_AX_STATUS_A_DRIVE, MOT_AX_STATUS_B_DRIVE, MOT_AX_STATUS]
      omega
  rw [park_parking _ hst, sled_setStn, flag_setStn, flag_setStn, flag_setStn, flag_setStn]
  refine ⟨hflt.trans hinput, ?_, ?_, ha, hb, hda, hdb, ?_⟩
  · refine (flag_eq_of_fld (hkept _ (by simp [MOT_AX_STATUS_DRIVER_FAULT]) ?_)).trans hfault
    simp [apart, MOT_AX_STATUS_DRIVER_FAULT, MOT_AX_STATUS_A_DRIVE, MOT_AX_STATUS_B_DRIVE]
  · refine (flag_eq_of_fld (hkept _ (by simp [MOT_AX_EVENT_DRIVER_FAULT]) ?_)).trans hevent
    simp [apart, MOT_AX_EVENT_DRIVER_FAULT, MOT_AX_STATUS_A_DRIVE, MOT_AX_STATUS_B_DRIVE, MOT_AX_STATUS, MOT_AX_EVENT]
  · exact bytesKept_trans (bytesKept_bridgeFaulted _ _) (bytesKept_trans hbytes (bytesKept_setStn _ _ _))

theorem completes_sledBridgeFault_over : Completes (.sledBridgeFault p false) s fun c =>
    (c.sled p).fltInput = false ∧ c.regs = s.chip.regs ∧ s.chip.bytesKept c :=
  completes_on (f := fun c => c.setSled p { c.sled p with fltInput := false }) rfl
    ⟨by rw [sled_setSled], rfl, bytesKept_setSled _ _ _⟩

/-- The fields of a limit switch: its state, its event, and whether it stops softly. -/
def switchField (p : Nat) (outer : Bool) : Fld := if outer then MOT_AX_STATUS_OUTER p else MOT_AX_STATUS_INNER p
def switchEvent (p : Nat) (outer : Bool) : Fld := if outer then MOT_AX_EVENT_OUTER_HIT p else MOT_AX_EVENT_INNER_HIT p
def switchMode (p : Nat) (outer : Bool) : Fld := if outer then MOT_AX_CTRL_OUTER_MODE p else MOT_AX_CTRL_INNER_MODE p

theorem completes_limitSwitchChange_left (outer : Bool) : Completes (.limitSwitchChange p outer false) s fun c =>
    c.flag (switchField p outer) = false ∧ s.chip.fieldsKept [switchField p outer] c ∧ c = { s.chip with regs := c.regs } := by
  refine completes_on (f := fun c => c.setFlag (switchField p outer) false) rfl ⟨?_, ?_, rfl⟩
  · exact flag_setFlag_same _ _ _ (by cases outer <;> simp [switchField, MOT_AX_STATUS_OUTER, MOT_AX_STATUS_INNER])
      (by cases outer <;> rfl)
  · exact fieldsKept_setFlag _ _ List.mem_cons_self (fieldsKept_refl _ _)

/-- The axis with its references frozen as they are (R392). -/
def Chip.freezeRefs (c : Chip) (p : Nat) : SledRec :=
  { c.sled p with frozen := some (BitVec.ofInt 32 (c.sledRef p 0), BitVec.ofInt 32 (c.sledRef p 1)) }

/-- What a switch shows does not move the references. -/
theorem sledRef_of_switch {c c' : Chip} {outer : Bool} (hr : c.regsOnly c') (hk : c.fieldsKept [switchField p outer, switchEvent p outer] c') (b : Nat) :
    c'.sledRef p b = c.sledRef p b := by
  have _hp := p.isLt
  have hgate : ∀ k, c'.gateOut (16 + p / 2) k = c.gateOut (16 + p / 2) k := fun k => by
    have hrun : c'.flag (LE_PAIR_CTRL_RUN (16 + p / 2)) = c.flag (LE_PAIR_CTRL_RUN (16 + p / 2)) := by
      refine flag_eq_of_fld (hk _ (by simp [LE_PAIR_CTRL_RUN]) ?_)
      simp only [List.mem_cons, List.not_mem_nil, or_false, forall_eq_or_imp, forall_eq]
      refine ⟨apart_of_reg ?_, apart_of_reg ?_⟩
      all_goals
        cases outer <;> simp [LE_PAIR_CTRL_RUN, LE_PAIR_CTRL, switchField, switchEvent, MOT_AX_STATUS_OUTER, MOT_AX_STATUS_INNER,
          MOT_AX_EVENT_OUTER_HIT, MOT_AX_EVENT_INNER_HIT, MOT_AX_STATUS, MOT_AX_EVENT] <;> omega
    have hacted : c'.flag WMM_PS_STATUS_ACTED = c.flag WMM_PS_STATUS_ACTED := by
      refine flag_eq_of_fld (hk _ (by decide) ?_)
      simp only [List.mem_cons, List.not_mem_nil, or_false, forall_eq_or_imp, forall_eq]
      refine ⟨apart_of_reg ?_, apart_of_reg ?_⟩
      all_goals
        cases outer <;> simp [WMM_PS_STATUS_ACTED, WMM_PS_STATUS, switchField, switchEvent, MOT_AX_STATUS_OUTER, MOT_AX_STATUS_INNER,
          MOT_AX_EVENT_OUTER_HIT, MOT_AX_EVENT_INNER_HIT, MOT_AX_STATUS, MOT_AX_EVENT] <;> omega
    have hpair : c'.pair (16 + p / 2) = c.pair (16 + p / 2) := by
      rw [hr]
      rfl
    rw [Chip.gateOut, Chip.gateOut, hrun, hacted, hpair]
  have hsled : c'.sled p = c.sled p := by
    rw [hr]
    rfl
  rw [Chip.sledRef, Chip.sledRef, hsled]
  split
  · rfl
  · rw [hgate]

/-- A switch that stops hard is hit: the references freeze (R392). -/
theorem completes_limitSwitchChange_hard {outer : Bool} (hmode : s.chip.flag (switchMode p outer) = false) :
    Completes (.limitSwitchChange p outer true) s fun c =>
      c.flag (switchField p outer) = true ∧ c.flag (switchEvent p outer) = true ∧ c.flag (MOT_AX_STATUS_HARD p) = true ∧
      c.flag (MOT_AX_EVENT_HARD_STOP p) = true ∧
      (c.sled p).frozen = some (BitVec.ofInt 32 (s.chip.sledRef p 0), BitVec.ofInt 32 (s.chip.sledRef p 1)) ∧
      s.chip.fieldsKept [switchField p outer, switchEvent p outer, MOT_AX_STATUS_HARD p, MOT_AX_EVENT_HARD_STOP p] c ∧ s.chip.bytesKept c := by
  obtain ⟨hit, hhit⟩ : ∃ d, d = (s.chip.setFlag (switchField p outer) true).mark (switchEvent p outer) := ⟨_, rfl⟩
  have hmode' : hit.flag (switchMode p outer) = false := by
    refine Eq.trans ?_ hmode
    rw [hhit, flag_mark_apart _ _ _ (by cases outer <;> simp [switchMode, MOT_AX_CTRL_OUTER_MODE, MOT_AX_CTRL_INNER_MODE]),
      flag_setFlag_apart _ _ _ _ (by cases outer <;> simp [switchMode, MOT_AX_CTRL_OUTER_MODE, MOT_AX_CTRL_INNER_MODE])]
    all_goals
      cases outer <;> simp [apart, switchMode, switchField, switchEvent, MOT_AX_CTRL_OUTER_MODE, MOT_AX_CTRL_INNER_MODE, MOT_AX_STATUS_OUTER,
        MOT_AX_STATUS_INNER, MOT_AX_EVENT_OUTER_HIT, MOT_AX_EVENT_INNER_HIT, MOT_AX_CTRL, MOT_AX_STATUS, MOT_AX_EVENT]
  have hregs : s.chip.regsOnly hit := hhit ▸ regsOnly_mark _ (regsOnly_setFlag _ _ (regsOnly_refl _))
  have hev : hit.flag (switchEvent p outer) = true := hhit ▸
    flag_mark_same _ _ (by cases outer <;> simp [switchEvent, MOT_AX_EVENT_OUTER_HIT, MOT_AX_EVENT_INNER_HIT]) (by cases outer <;> exact Nat.one_pos)
  have hsw : hit.flag (switchField p outer) = true := by
    rw [hhit, flag_mark_apart _ _ _ (by cases outer <;> simp [switchField, MOT_AX_STATUS_OUTER, MOT_AX_STATUS_INNER])]
    · exact flag_setFlag_same _ _ _ (by cases outer <;> simp [switchField, MOT_AX_STATUS_OUTER, MOT_AX_STATUS_INNER]) (by cases outer <;> rfl)
    · cases outer <;> simp [apart, switchField, switchEvent, MOT_AX_STATUS_OUTER, MOT_AX_STATUS_INNER, MOT_AX_EVENT_OUTER_HIT, MOT_AX_EVENT_INNER_HIT,
        MOT_AX_STATUS, MOT_AX_EVENT]
  have hkept : s.chip.fieldsKept [switchField p outer, switchEvent p outer] hit :=
    hhit ▸ fieldsKept_mark _ (by simp) (fieldsKept_setFlag _ _ (by simp) (fieldsKept_refl _ _))
  have hrefs : ∀ b, hit.sledRef p b = s.chip.sledRef p b := sledRef_of_switch hregs hkept
  have hexec : exec (.limitSwitchChange p outer true) s = s.on fun c =>
      let d := (c.setFlag (switchField p outer) true).mark (switchEvent p outer)
      if d.flag (switchMode p outer) then d else ((d.setSled p (d.freezeRefs p)).setFld (MOT_AX_STATUS_HARD p) 1).mark (MOT_AX_EVENT_HARD_STOP p) := rfl
  refine completes_on hexec ?_
  dsimp only
  rw [← hhit, hmode', if_neg Bool.false_ne_true]
  have hsame : ∀ (f : Fld), f.lo + f.w ≤ 64 → apart f (MOT_AX_STATUS_HARD p) → apart f (MOT_AX_EVENT_HARD_STOP p) →
      (((hit.setSled p (hit.freezeRefs p)).setFld (MOT_AX_STATUS_HARD p) 1).mark (MOT_AX_EVENT_HARD_STOP p)).flag f = hit.flag f := fun f hf h1 h2 => by
    rw [flag_mark_apart _ _ _ hf h2, flag_setFld_apart _ _ _ _ hf h1, flag_eq_of_fld (fld_of_regs (setSled_regs _ _ _) _)]
  refine ⟨?_, ?_, ?_, ?_, ?_, ?_, ?_⟩
  · rw [hsame, hsw]
    all_goals cases outer <;> simp [apart, switchField, MOT_AX_STATUS_OUTER, MOT_AX_STATUS_INNER, MOT_AX_STATUS_HARD, MOT_AX_EVENT_HARD_STOP,
      MOT_AX_STATUS, MOT_AX_EVENT]
  · rw [hsame, hev]
    all_goals cases outer <;> simp [apart, switchEvent, MOT_AX_EVENT_OUTER_HIT, MOT_AX_EVENT_INNER_HIT, MOT_AX_STATUS_HARD, MOT_AX_EVENT_HARD_STOP,
      MOT_AX_STATUS, MOT_AX_EVENT]
  · rw [flag_mark_apart _ _ _ (by simp [MOT_AX_STATUS_HARD])
      (by simp [apart, MOT_AX_STATUS_HARD, MOT_AX_EVENT_HARD_STOP, MOT_AX_STATUS, MOT_AX_EVENT])]
    exact flag_mark_same _ _ (by simp [MOT_AX_STATUS_HARD]) (by simp [MOT_AX_STATUS_HARD])
  · exact flag_mark_same _ _ (by simp [MOT_AX_EVENT_HARD_STOP]) (by simp [MOT_AX_EVENT_HARD_STOP])
  · refine (congrArg (·.frozen) (sled_setSled hit p _)).trans ?_
    rw [← hrefs, ← hrefs]
    rfl
  · exact fieldsKept_mark _ (by simp) (fieldsKept_setFld _ _ (by simp) (fieldsKept_regs (setSled_regs _ _ _) (fieldsKept_weaken (by simp) hkept)))
  · exact bytesKept_trans (bytesKept_of_regsOnly hregs) (bytesKept_trans (bytesKept_setSled _ _ _)
      (bytesKept_of_regsOnly (regsOnly_mark _ (regsOnly_setFld _ _ (regsOnly_refl _)))))

/-- The mean TRACKING output moves the target of a sled that follows (R389). -/
theorem completes_sledCentringUpdate (hfollow : s.chip.flag (MOT_AX_STATUS_FOLLOW p) = true) (hsens : s.chip.int (CAL_PU_TSENS_SENS p) ≠ 0)
    (hn : (s.chip.seqr p).trackN ≠ 0) : Completes (.sledCentringUpdate p) s fun c =>
      (c.seqr p).trackSum = 0 ∧ (c.seqr p).trackN = 0 ∧ s.chip.fieldsKept [MOT_AX_TARGET_TARGET p] c ∧
      c.fld (MOT_AX_TARGET_TARGET p) = bitsOfInt 32 (s.chip.int (MOT_AX_TARGET_TARGET p) +
        rndDiv (240 * (s.chip.seqr p).trackSum) (s.chip.int (CAL_PU_TSENS_SENS p) * ((s.chip.seqr p).trackN : Nat))) ∧ s.chip.bytesKept c := by
  refine completes_event (f := fun c => (c.setSeqr p { s.chip.seqr p with trackSum := 0, trackN := 0 }).setInt (MOT_AX_TARGET_TARGET p)
    (c.int (MOT_AX_TARGET_TARGET p) + rndDiv (240 * (s.chip.seqr p).trackSum) (s.chip.int (CAL_PU_TSENS_SENS p) * ((s.chip.seqr p).trackN : Nat))))
    rfl (by simp [hfollow, hsens, hn]) ?_
  have hseqr : ∀ (d : Chip) (v : Int), (d.setInt (MOT_AX_TARGET_TARGET p) v).seqr p = d.seqr p := fun _ _ => rfl
  refine ⟨?_, ?_, ?_, ?_, ?_⟩
  · rw [hseqr, seqr_setSeqr]
  · rw [hseqr, seqr_setSeqr]
  · exact fieldsKept_setInt _ _ List.mem_cons_self (fieldsKept_of_regs (setSeqr_regs _ _ _))
  · rw [Chip.setInt, fld_setFld_same _ _ _ (by simp [MOT_AX_TARGET_TARGET])]
    exact Nat.mod_eq_of_lt (bitsOfInt_lt 32 _)
  · exact bytesKept_trans (bytesKept_setSeqr _ _ (bytesKept_refl _)) (bytesKept_of_regsOnly (regsOnly_setFld _ _ (regsOnly_refl _)))

end sled

/-! ### The statement -/

/-- Settles O37, command by command. -/
theorem driveHardware : Obligations.DriveHardware := by
  intro s
  refine ⟨fun x => ⟨fun ph ns l hl hl3 => completes_tachCrossing hl hl3, completes_tachTimeout, ?_, completes_pwmCycle, fun iu iv iw => completes_ilimCut,
    completes_spindleDriverFault, completes_spindleDriverFault_over⟩, fun p => ⟨completes_sledBridgeFault_over, completes_sledBridgeFault,
    fun outer => ⟨completes_limitSwitchChange_left outer, completes_limitSwitchChange_hard⟩, fun b hruns => ⟨?_, ?_, ?_⟩,
    completes_sledCentringUpdate⟩⟩
  · rintro i (rfl | ⟨rfl, hwait, hbrake⟩) hfault
    · exact (completes_brakeRequested hfault).imp fun c ⟨hb, hm, hw, hf, hbytes⟩ => ⟨hb, hm, hw, fieldsKept_weaken (by simp [modeFields]) hf, hbytes⟩
    · refine (completes_shortBrakeApply hwait).imp fun c h => ?_
      obtain ⟨hb, hm, hw⟩ := h.brake hbrake hfault
      exact ⟨hb, hm, hw, fieldsKept_weaken (by simp [modeFields]) h.fields, h.bytes⟩
  · intro i drive decay hdrive hfast href hold hi hdecay hdriven
    refine (completes_chopperDrive hruns hdrive hfast href hold hi hdecay hdriven).imp fun c h => ?_
    obtain ⟨hchop, hother⟩ := h.chop
    exact ⟨by rw [hchop], by rw [hchop], h.shown, hother, h.fields, h.bytes⟩
  · intro i drive hdrive href hold hi hdriven hmode
    refine (completes_chopperDecay hruns hdrive href hold hi hdriven hmode).imp fun c h => ?_
    obtain ⟨hchop, -⟩ := h.chop
    exact ⟨by rw [hchop], by rw [hchop], h.shown, h.fields, h.bytes⟩
  · intro hdrive hfast hmode
    refine (completes_mixedDecayBrake hruns hdrive hfast hmode).imp fun c h => ?_
    obtain ⟨hchop, -⟩ := h.chop
    exact ⟨by rw [hchop], by rw [hchop]; exact hdrive, h.fields, h.bytes⟩

end Sys2Proof.Machine
end

section
/-! Proofs about the commands of the resident loop program (O31). -/

namespace Sys2Proof.Machine

/-! ### Changes of one loop program -/

/-- The loop program of pickup `p` is now `g`; other programs, the sequencers, what the watermasters hold, registers and memory are as they
were. -/
structure LoopStep (p : Nat) (g : LoopProg) (c c' : Chip) : Prop where
  here : c'.loop p = g
  others : ∀ j, j ≠ p → c'.loop j = c.loop j
  seqs : c'.servo.seqs = c.servo.seqs
  sup : c'.sup = c.sup
  regs : c'.regs = c.regs
  bytes : c.bytesKept c'

/-- Only the loop program of pickup `p` differs, and it is now `g`. -/
structure Looped (p : Nat) (g : LoopProg) (c c' : Chip) : Prop where
  here : c'.loop p = g
  others : ∀ j, j ≠ p → c'.loop j = c.loop j
  eq : c' = { c with servo := { c.servo with loops := c'.servo.loops } }

section steps
variable {p : Nat} {g h : LoopProg} {a b c : Chip}

theorem looped_setLoop (c : Chip) (p : Nat) (g : LoopProg) : Looped p g c (c.setLoop p g) :=
  ⟨loop_setLoop c p g, fun j hj => loop_setLoop_other c p j g hj, rfl⟩

theorem loopStep_refl (c : Chip) (p : Nat) : LoopStep p (c.loop p) c c := ⟨rfl, fun _ _ => rfl, rfl, rfl, rfl, bytesKept_refl c⟩

theorem LoopStep.trans (hab : LoopStep p g a b) (hbc : LoopStep p h b c) : LoopStep p h a c :=
  ⟨hbc.here, fun j hj => (hbc.others j hj).trans (hab.others j hj), hbc.seqs.trans hab.seqs, hbc.sup.trans hab.sup, hbc.regs.trans hab.regs,
    bytesKept_trans hab.bytes hbc.bytes⟩

theorem loopStep_setLoop (c : Chip) (p : Nat) (g : LoopProg) : LoopStep p g c (c.setLoop p g) :=
  ⟨loop_setLoop c p g, fun j hj => loop_setLoop_other c p j g hj, rfl, rfl, rfl, bytesKept_of_eq rfl rfl rfl⟩

theorem LoopStep.upd (hab : LoopStep p g a b) (f : LoopProg → LoopProg) : LoopStep p (f g) a (b.updLoop p f) := by
  rw [Chip.updLoop, hab.here]
  exact hab.trans (loopStep_setLoop b p (f g))

/-- A change of what is none of these. -/
theorem LoopStep.same (hab : LoopStep p g a b) (hs : c.servo = b.servo) (hsup : c.sup = b.sup) (hr : c.regs = b.regs) (hb : b.bytesKept c) :
    LoopStep p g a c := by
  have hloop : ∀ k, c.loop k = b.loop k := fun k => by rw [Chip.loop, Chip.loop, hs]
  exact ⟨(hloop p).trans hab.here, fun j hj => (hloop j).trans (hab.others j hj), (congrArg (·.seqs) hs).trans hab.seqs, hsup.trans hab.sup,
    hr.trans hab.regs, bytesKept_trans hab.bytes hb⟩

/-- Held tracking: the lock goes, and the position stays or is what the law gives (R346). -/
def LoopProg.trackHeld (g : LoopProg) (w : Word) : LoopProg :=
  { g with trackLock := false, tracking := if g.trackLock then (BitVec.setWidth 32 w).toInt else g.tracking }

theorem loopStep_holdTrack (c : Chip) (p : Nat) : LoopStep p ((c.loop p).trackHeld c.draw.1) c (c.holdTrack p) := by
  have hdraw : LoopStep p (c.loop p) c c.draw.2 := (loopStep_refl c p).same rfl rfl rfl (bytesKept_of_eq rfl rfl rfl)
  exact hdraw.upd fun g => g.trackHeld c.draw.1

/-! ### Landing of the lanes (R192) -/

theorem landAll_path (c : Chip) (p : Nat) : c.landAll p = { c with path := (c.landAll p).path } := by
  have hfold : ∀ (ks : List Nat) (d : Chip), ks.foldl (fun c k => c.updLane (8 * p + k) fun x => { x with landNext := true }) d =
      { d with path := (ks.foldl (fun c k => c.updLane (8 * p + k) fun x => { x with landNext := true }) d).path } := by
    intro ks
    induction ks with
    | nil => exact fun d => by rw [List.foldl_nil]
    | cons k ks ih =>
      intro d
      rw [List.foldl_cons, ih]
      rfl
  exact hfold _ c

theorem foldl_landNext {p k : Nat} {ks : List Nat} (hk : k ∈ ks) (c : Chip) :
    ((ks.foldl (fun c k => c.updLane (8 * p + k) fun x => { x with landNext := true }) c).lane (8 * p + k)).landNext = true := by
  have hstays : ∀ (ks : List Nat) (d : Chip), (d.lane (8 * p + k)).landNext = true →
      ((ks.foldl (fun c k => c.updLane (8 * p + k) fun x => { x with landNext := true }) d).lane (8 * p + k)).landNext = true := by
    intro ks
    induction ks with
    | nil => exact fun d hd => hd
    | cons j ks ih =>
      intro d hd
      refine ih _ ?_
      by_cases hj : j = k
      · subst hj
        rw [lane_updLane]
      · rwa [lane_updLane_other _ _ (by omega)]
  induction ks generalizing c with
  | nil => exact absurd hk List.not_mem_nil
  | cons j ks ih =>
    rw [List.foldl_cons]
    by_cases hj : j = k
    · subst hj
      exact hstays _ _ (by rw [lane_updLane])
    · exact ih ((List.mem_cons.mp hk).resolve_left (Ne.symm hj)) _

theorem landNext_landAll (c : Chip) (p : Nat) {k : Nat} (hk : k < 8) : ((c.landAll p).lane (8 * p + k)).landNext = true :=
  foldl_landNext (List.mem_range.mpr hk) c

theorem regs_landAll (c : Chip) (p : Nat) : (c.landAll p).regs = c.regs := by rw [landAll_path]
theorem servo_landAll (c : Chip) (p : Nat) : (c.landAll p).servo = c.servo := by rw [landAll_path]
theorem sup_landAll (c : Chip) (p : Nat) : (c.landAll p).sup = c.sup := by rw [landAll_path]
theorem fld_landAll (c : Chip) (p : Nat) (f : Fld) : (c.landAll p).fld f = c.fld f := fld_of_regs (regs_landAll c p) f
theorem seqr_landAll (c : Chip) (p k : Nat) : (c.landAll p).seqr k = c.seqr k := by rw [Chip.seqr, Chip.seqr, servo_landAll]
theorem bytesKept_landAll (c : Chip) (p : Nat) : c.bytesKept (c.landAll p) := by
  rw [landAll_path]
  exact bytesKept_of_eq rfl rfl rfl

theorem LoopStep.landAll (hab : LoopStep p g a b) : LoopStep p g a (b.landAll p) :=
  hab.same (servo_landAll b p) (sup_landAll b p) (regs_landAll b p) (bytesKept_landAll b p)

end steps

/-! ### Delivery of a command (R334, R335) -/

section commands
variable {s : State} {p : Pickup} {a : Nat} {arg : Q}

/-- A command row of a pair that runs its resident program delivers the command. -/
theorem completes_loopCommand {i : Instr} {P : Chip → Prop} {f : Chip → Chip} (h : exec i s = s.on fun c => c.when (c.loopRuns p) f)
    (hruns : s.chip.loopRuns p = true) (hP : P (f s.chip)) : Completes i s P := by
  refine completes_on h ?_
  rwa [Chip.when, hruns, if_pos rfl]

/-- While no command runs, one that is not NONE or RETRACT starts or is refused by what it asks. -/
theorem loopCommand_free {c : Chip} {p op a : Nat} {arg : Q} (hcmd : (c.loop p).cmd = none) (h0 : op ≠ 0) (h7 : op ≠ 0x07) :
    c.loopCommand p op a arg = c.startCommand p op a arg := by
  rw [Chip.loopCommand, if_neg h0, if_neg h7]
  simp only [hcmd]

/-- While a command runs, one that does not end it is refused. -/
theorem loopCommand_busy {c : Chip} {p op a : Nat} {arg : Q} {r : LoopCmd} (hcmd : (c.loop p).cmd = some r) (h0 : op ≠ 0) (h7 : op ≠ 0x07)
    (h6 : op = 0x06 → r.op ≠ 0x03 ∧ r.op ≠ 0x04) : c.loopCommand p op a arg = c.setLoop p (c.loop p).refuse := by
  rw [Chip.loopCommand, if_neg h0, if_neg h7]
  simp only [hcmd]
  exact if_neg fun ⟨hop, hr⟩ => hr.elim (h6 hop).1 (h6 hop).2

/-- A command runs in a state (R335). -/
def RunsIn (g h : LoopProg) (op a : Nat) (arg : Q) (st : Nat) : Prop :=
  h.cmd = some ⟨op, a, arg⟩ ∧ h.busy = true ∧ h.state = st ∧ h.seq = g.seq ∧ h.count = 0

/-- A command has been done at once. -/
def DoneAt (g h : LoopProg) : Prop := h.cmd = none ∧ h.busy = false ∧ h.result = 1 ∧ h.seq = (g.seq + 1) % 256

theorem runsIn_start (g : LoopProg) (op a : Nat) (arg : Q) (st phase : Nat) : RunsIn g (g.start ⟨op, a, arg⟩ st phase) op a arg st :=
  ⟨rfl, rfl, rfl, rfl, rfl⟩

theorem doneAt_endCmd (g : LoopProg) : DoneAt g (g.endCmd 1) := ⟨rfl, rfl, rfl, rfl⟩

/-- What a RETRACT makes of the program (R364). -/
def LoopProg.retracting (g : LoopProg) (a : Nat) : LoopProg :=
  { g.failCmd.start ⟨0x07, a, 0⟩ lRetract 0 with focusLock := false, trackLock := false, offtrack := true, closed := false, retry := 0, ownPull := false,
                                                 readOn := g.failCmd.readOn && a != 0 }

theorem layer_failCmd (g : LoopProg) : g.failCmd.layer = g.layer := by
  unfold LoopProg.failCmd
  split <;> rfl

theorem retract_lands (c : Chip) (p : Nat) {a : Nat} (ha : a ≤ 1) (hoff : (c.loop p).state ≠ lOff) :
    c.loopCommand p 0x07 a 0 = (c.setLoop p ((c.loop p).retracting a)).landAll p := by
  rw [Chip.loopCommand, if_neg (by decide), if_pos rfl, if_neg (by omega), if_neg hoff]
  rfl

/-- What a SWEEP makes of the program (R339). -/
def LoopProg.sweeping (g : LoopProg) (pos : Int) : LoopProg :=
  { g.start ⟨0x01, 0, 0⟩ lSweep 0 with actEn := true, focus := pos, spherical := 0, curves := [], curve := none, closed := false }

theorem startCommand_sweep {c : Chip} {p : Nat} (h : (c.loop p).state = lOff ∨ (c.loop p).state = lRetracted) :
    c.startCommand p 0x01 0 0 = c.setLoop p ((c.loop p).sweeping (c.retractPos p)) := if_pos h

/-- What a FOCUS makes of the program (R340). -/
def LoopProg.acquiring (g : LoopProg) (a : Nat) (spherical power : Int) : LoopProg :=
  { g.start ⟨0x02, a, 0⟩ lAcquire 0 with target := a, focusLock := false, trackLock := false, closed := false, spherical := spherical, readPower := power }

theorem startCommand_focus {c : Chip} {p a : Nat} (ha : a ≤ 9) (h : (c.loop p).positions ≠ []) :
    c.startCommand p 0x02 a 0 = c.setLoop p ((c.loop p).acquiring a (c.par p (16 + a)) (c.par p (26 + a))) := if_pos ⟨ha, h⟩

theorem startCommand_pullIn {c : Chip} {p : Nat} (h : (c.loop p).focusLock = true) :
    c.startCommand p 0x03 0 0 = c.setLoop p { (c.loop p).start ⟨0x03, 0, 0⟩ lPullIn 0 with gap := 0, ownPull := false } := if_pos h

/-- What a JUMP makes of a program that holds tracking (R347). -/
def LoopProg.jumping (g : LoopProg) (a : Nat) : LoopProg := { g.start ⟨0x04, a, 0⟩ lJump 0 with cycles := 0 }

theorem startCommand_jump {c : Chip} {p a : Nat} (hst : (c.loop p).state = lTracking) (h0 : signedOf 8 a ≠ 0) (hlo : -64 ≤ signedOf 8 a)
    (hhi : signedOf 8 a ≤ 63) : c.startCommand p 0x04 a 0 =
      (((c.holdTrack p).updLoop p fun g => g.jumping a).landAll p).inc (WMM_STN_JUMPS_COUNT (p / 2)) := if_pos ⟨hst, h0, hlo, hhi⟩

/-- What a LAYER makes of a program that holds tracking (R350). -/
def LoopProg.layerJumping (g : LoopProg) (a : Nat) : LoopProg := { g.start ⟨0x05, a, 0⟩ lLayerJump 2 with target := a, offtrack := true }

theorem startCommand_layer {c : Chip} {p a : Nat} (ha : a ≤ 9) (hst : (c.loop p).state = lTracking ∨ (c.loop p).state = lFocused) :
    c.startCommand p 0x05 a 0 = if a = (c.loop p).layer then c.setLoop p ((c.loop p).endCmd 1)
      else ((c.holdTrack p).updLoop p fun g => g.layerJumping a).landAll p := if_pos ⟨ha, hst⟩

/-- What a HOLD makes of a program: done at once. -/
def LoopProg.holding (g : LoopProg) : LoopProg := { g.endCmd 1 with state := lHold, ownPull := false }

theorem startCommand_hold {c : Chip} {p : Nat} (h : (c.loop p).focusLock = true) :
    c.startCommand p 0x06 0 0 = (c.holdTrack p).updLoop p fun g => g.holding := if_pos h

theorem startCommand_retryOffset {c : Chip} {p a : Nat} (ha : a ≤ 3) :
    c.startCommand p 0x08 a 0 = c.setLoop p { (c.loop p).endCmd 1 with retry := a } := if_pos ha

theorem startCommand_setLayer {c : Chip} {p a : Nat} (ha : a ≤ 9) :
    c.startCommand p 0x09 a 0 = (c.setLoop p (((c.loop p).believe a).endCmd 1)).regionLayer p := if_pos ha

/-- What a calibration command makes of the program (R575). -/
def LoopProg.calibrating (g : LoopProg) (op a : Nat) (arg : Q) (st : Nat) : LoopProg := { g.start ⟨op, a, arg⟩ st 0 with acc0 := 0, acc1 := 0 }

theorem startCommand_calibration {c : Chip} {p op a : Nat} {arg : Q} (hop : op ∈ [0x0A, 0x0B, 0x0C, 0x0E]) (hst : (c.loop p).state = lTracking)
    (hargs : calArgsOk op a arg = true) : c.startCommand p op a arg = c.setLoop p ((c.loop p).calibrating op a arg lTracking) := by
  fin_cases hop <;> exact if_pos ⟨hst, hargs⟩

theorem startCommand_calTsens {c : Chip} {p a : Nat} {arg : Q} (hst : (c.loop p).state = lTracking) (hargs : calArgsOk 0x0D a arg = true) :
    c.startCommand p 0x0D a arg = (c.holdTrack p).updLoop p fun g => g.calibrating 0x0D a arg lHold := if_pos ⟨hst, hargs⟩

theorem believe_layer (g : LoopProg) (a : Nat) : (g.believe a).layer = a ∧ (g.believe a).seq = g.seq ∧ (a ≠ g.layer → (g.believe a).retry = 0) := by
  unfold LoopProg.believe
  split
  · next h => exact ⟨h, rfl, fun hne => absurd h.symm hne⟩
  · exact ⟨rfl, rfl, fun _ => rfl⟩

/-- The believed layer is written to LE_REGION.LAYER (R350). -/
theorem regionLayer_fits {c : Chip} {p : Nat} (h : (c.loop p).layer ≤ 9) : c.regionLayer p = c.setFld (LE_REGION_LAYER p) (c.loop p).layer := if_pos h

theorem loop_setFld (c : Chip) (f : Fld) (v k : Nat) : (c.setFld f v).loop k = c.loop k := rfl

theorem regionLayer_setLoop {c : Chip} {p : Nat} {g : LoopProg} (h : g.layer ≤ 9) :
    ((c.setLoop p g).regionLayer p).loop p = g ∧ (∀ j, j ≠ p → ((c.setLoop p g).regionLayer p).loop j = c.loop j) ∧
    ((c.setLoop p g).regionLayer p).fld (LE_REGION_LAYER p) = g.layer ∧ c.fieldsKept [LE_REGION_LAYER p] ((c.setLoop p g).regionLayer p) ∧
    c.bytesKept ((c.setLoop p g).regionLayer p) := by
  have hlayer : ((c.setLoop p g).loop p).layer = g.layer := by rw [loop_setLoop]
  rw [regionLayer_fits (hlayer.symm ▸ h), hlayer]
  refine ⟨?_, fun j hj => ?_, ?_, ?_, ?_⟩
  · rw [loop_setFld, loop_setLoop]
  · rw [loop_setFld, loop_setLoop_other _ _ _ _ hj]
  · rw [fld_setFld_same _ _ _ (by simp [LE_REGION_LAYER])]
    refine Nat.mod_eq_of_lt ?_
    simp only [LE_REGION_LAYER]
    omega
  · exact fieldsKept_setFld _ _ List.mem_cons_self (fieldsKept_of_regs (setLoop_regs _ _ _))
  · exact bytesKept_trans (loopStep_setLoop c p g).bytes (bytesKept_of_regsOnly (regsOnly_setFld _ _ (regsOnly_refl _)))

end commands

/-! ### The statement -/

section statement
variable {s : State} {p : Pickup} {a : Byte} {arg : Q}

theorem Looped.bytesKept {p : Nat} {g : LoopProg} {c c' : Chip} (h : Looped p g c c') : c.bytesKept c' := by
  rw [h.eq]
  exact bytesKept_of_eq rfl rfl rfl

/-- The commands that start or are done at once while no other runs. -/
theorem completes_free {i : Instr} {op n : Nat} {arg : Q} {P : Chip → Prop}
    (h : exec i s = s.on fun c => c.when (c.loopRuns p) fun c => c.loopCommand p op n arg)
    (hruns : s.chip.loopRuns p = true) (hcmd : (s.chip.loop p).cmd = none) (h0 : op ≠ 0) (h7 : op ≠ 0x07) (hP : P (s.chip.startCommand p op n arg)) :
    Completes i s P := by
  refine completes_loopCommand h hruns ?_
  rwa [loopCommand_free hcmd h0 h7]

theorem completes_retract (hruns : s.chip.loopRuns p = true) (ha : a.toNat ≤ 1) (hoff : (s.chip.loop p).state ≠ lOff) :
    Completes (.retract p a) s fun c =>
      LoopStep p ((s.chip.loop p).retracting a.toNat) s.chip c ∧ ∀ k < 8, (c.lane (8 * p + k)).landNext = true := by
  refine completes_loopCommand (f := fun c => c.loopCommand p 0x07 a.toNat 0) rfl hruns ?_
  rw [retract_lands _ _ ha hoff]
  exact ⟨(loopStep_setLoop _ _ _).landAll, fun k hk => landNext_landAll _ _ hk⟩

theorem completes_jump (hruns : s.chip.loopRuns p = true) (hcmd : (s.chip.loop p).cmd = none) (hst : (s.chip.loop p).state = lTracking)
    (h0 : signedOf 8 a.toNat ≠ 0) (hlo : -64 ≤ signedOf 8 a.toNat) (hhi : signedOf 8 a.toNat ≤ 63) : Completes (.jump p a) s fun c =>
      c.loop p = ((s.chip.loop p).trackHeld s.chip.draw.1).jumping a.toNat ∧ (∀ k < 8, (c.lane (8 * p + k)).landNext = true) ∧
      c.fld (WMM_STN_JUMPS_COUNT (p / 2)) = min (s.chip.fld (WMM_STN_JUMPS_COUNT (p / 2)) + 1) (2 ^ (WMM_STN_JUMPS_COUNT (p / 2)).w - 1) ∧
      s.chip.fieldsKept [WMM_STN_JUMPS_COUNT (p / 2)] c ∧ (∀ j, j ≠ p.val → c.loop j = s.chip.loop j) ∧ s.chip.bytesKept c := by
  refine completes_free (op := 0x04) rfl hruns hcmd (by decide) (by decide) ?_
  rw [startCommand_jump hst h0 hlo hhi]
  have hstep := ((loopStep_holdTrack s.chip p).upd fun g => g.jumping a.toNat).landAll
  have hland : ∀ k < 8, (((s.chip.holdTrack p).updLoop p fun g => g.jumping a.toNat).landAll p |>.lane (8 * p + k)).landNext = true :=
    fun k hk => landNext_landAll _ _ hk
  generalize ((s.chip.holdTrack p).updLoop p fun g => g.jumping a.toNat).landAll p = d at hstep hland
  have hloop : ∀ k, (d.inc (WMM_STN_JUMPS_COUNT (p / 2))).loop k = d.loop k := fun _ => rfl
  refine ⟨(hloop _).trans hstep.here, fun k hk => ?_, ?_, ?_, fun j hj => (hloop j).trans (hstep.others j hj), ?_⟩
  · rw [Chip.inc, lane_add]
    exact hland k hk
  · rw [fld_inc_same _ _ (by simp [WMM_STN_JUMPS_COUNT]), fld_of_regs hstep.regs]
  · exact fieldsKept_inc _ List.mem_cons_self (fieldsKept_of_regs hstep.regs)
  · exact bytesKept_trans hstep.bytes (bytesKept_of_regsOnly (regsOnly_inc _ (regsOnly_refl _)))

theorem completes_layerJump (hruns : s.chip.loopRuns p = true) (hcmd : (s.chip.loop p).cmd = none) (ha : a.toNat ≤ 9)
    (hst : (s.chip.loop p).state = lTracking ∨ (s.chip.loop p).state = lFocused) (hne : a.toNat ≠ (s.chip.loop p).layer) :
    Completes (.layerJump p a) s fun c =>
      LoopStep p (((s.chip.loop p).trackHeld s.chip.draw.1).layerJumping a.toNat) s.chip c ∧ ∀ k < 8, (c.lane (8 * p + k)).landNext = true := by
  refine completes_free (op := 0x05) rfl hruns hcmd (by decide) (by decide) ?_
  rw [startCommand_layer ha hst, if_neg hne]
  exact ⟨((loopStep_holdTrack s.chip p).upd fun g => g.layerJumping a.toNat).landAll, fun k hk => landNext_landAll _ _ hk⟩

/-- A command that starts or is done at once by a change of this pickup's program alone. -/
theorem completes_looped {i : Instr} {op n : Nat} {arg : Q} {g : LoopProg}
    (h : exec i s = s.on fun c => c.when (c.loopRuns p) fun c => c.loopCommand p op n arg)
    (hruns : s.chip.loopRuns p = true) (hcmd : (s.chip.loop p).cmd = none) (h0 : op ≠ 0) (h7 : op ≠ 0x07)
    (hstart : s.chip.startCommand p op n arg = s.chip.setLoop p g) : Completes i s (Looped p g s.chip) := by
  refine completes_free h hruns hcmd h0 h7 ?_
  rw [hstart]
  exact looped_setLoop _ _ _

/-- While a command runs, one that does not end it is refused, and the running one goes on (R335). -/
theorem completes_busy {i : Instr} {op n : Nat} {arg : Q}
    (h : exec i s = s.on fun c => c.when (c.loopRuns p) fun c => c.loopCommand p op n arg) (hruns : s.chip.loopRuns p = true)
    (hcmd : (s.chip.loop p).cmd.isSome = true) (h0 : op ≠ 0) (h7 : op ≠ 0x07) (h6 : op = 0x06 → ∀ r ∈ (s.chip.loop p).cmd, r.op ≠ 3 ∧ r.op ≠ 4) :
    Completes i s (Looped p (s.chip.loop p).refuse s.chip) := by
  obtain ⟨r, hr⟩ := Option.isSome_iff_exists.mp hcmd
  refine completes_loopCommand h hruns ?_
  rw [loopCommand_busy hr h0 h7 fun hop => h6 hop r hr]
  exact looped_setLoop _ _ _

theorem completes_retract_refused (hruns : s.chip.loopRuns p = true) (ha : 1 < a.toNat) :
    Completes (.retract p a) s (Looped p (s.chip.loop p).refuse s.chip) := by
  refine completes_loopCommand (f := fun c => c.loopCommand p 0x07 a.toNat 0) rfl hruns ?_
  rw [Chip.loopCommand, if_neg (by decide), if_pos rfl, if_pos ha]
  exact looped_setLoop _ _ _

theorem completes_retract_off (hruns : s.chip.loopRuns p = true) (ha : a.toNat ≤ 1) (hoff : (s.chip.loop p).state = lOff) :
    Completes (.retract p a) s (Looped p ((s.chip.loop p).endCmd 1) s.chip) := by
  refine completes_loopCommand (f := fun c => c.loopCommand p 0x07 a.toNat 0) rfl hruns ?_
  rw [Chip.loopCommand, if_neg (by decide), if_pos rfl, if_neg (by omega), if_pos hoff]
  exact looped_setLoop _ _ _

/-- The states and operands that Table 8.1 does not give a command (Table 14.2 for those of calibration). -/
def LoopProg.unfit (g : LoopProg) (p : Pickup) (a : Byte) (arg : Q) (i : Instr) : Prop :=
  i = .sweep p ∧ g.state ≠ lOff ∧ g.state ≠ lRetracted ∨ i = .focus p a ∧ (9 < a.toNat ∨ g.positions = []) ∨
  (i = .pullIn p ∨ i = .holdTracking p) ∧ g.focusLock = false ∨
  i = .jump p a ∧ (g.state ≠ lTracking ∨ a.toNat = 0 ∨ 63 < signedOf 8 a.toNat ∨ signedOf 8 a.toNat < -64) ∨
  i = .layerJump p a ∧ (9 < a.toNat ∨ g.state ≠ lTracking ∧ g.state ≠ lFocused) ∨ i = .retryOffset p a ∧ 3 < a.toNat ∨ i = .setLayer p a ∧ 9 < a.toNat ∨
  (i = .calLevel p a arg ∨ i = .calGainF p a arg ∨ i = .calGainT p a arg ∨ i = .calTsens p a arg ∨ i = .calTrim p a arg) ∧ g.state ≠ lTracking

theorem completes_unfit {i : Instr} (hruns : s.chip.loopRuns p = true) (hcmd : (s.chip.loop p).cmd = none) (h : (s.chip.loop p).unfit p a arg i) :
    Completes i s (Looped p (s.chip.loop p).refuse s.chip) := by
  have hnolock : ∀ {b : Bool}, b = false → ¬ b = true := fun h => by simp [h]
  rcases h with ⟨rfl, h1, h2⟩ | ⟨rfl, h⟩ | ⟨rfl | rfl, h⟩ | ⟨rfl, h⟩ | ⟨rfl, h⟩ | ⟨rfl, h⟩ | ⟨rfl, h⟩ | ⟨rfl | rfl | rfl | rfl | rfl, h⟩
  · exact completes_looped (op := 0x01) rfl hruns hcmd (by decide) (by decide) (if_neg (by simp [h1, h2]))
  · exact completes_looped (op := 0x02) rfl hruns hcmd (by decide) (by decide) (if_neg fun ⟨h9, hp⟩ => h.elim (by omega) hp)
  · exact completes_looped (op := 0x03) rfl hruns hcmd (by decide) (by decide) (if_neg (hnolock h))
  · exact completes_looped (op := 0x06) rfl hruns hcmd (by decide) (by decide) (if_neg (hnolock h))
  · refine completes_looped (op := 0x04) rfl hruns hcmd (by decide) (by decide) (if_neg fun ⟨hst, h0, hlo, hhi⟩ => ?_)
    rcases h with h | h | h | h
    · exact h hst
    · exact h0 (by rw [h]; rfl)
    · omega
    · omega
  · exact completes_looped (op := 0x05) rfl hruns hcmd (by decide) (by decide)
      (if_neg fun ⟨h9, hst⟩ => h.elim (by omega) fun ⟨h1, h2⟩ => hst.elim h1 h2)
  · exact completes_looped (op := 0x08) rfl hruns hcmd (by decide) (by decide) (if_neg (by omega))
  · exact completes_looped (op := 0x09) rfl hruns hcmd (by decide) (by decide) (if_neg (by omega))
  · exact completes_looped (op := 0x0A) rfl hruns hcmd (by decide) (by decide) (if_neg fun hst => h hst.1)
  · exact completes_looped (op := 0x0B) rfl hruns hcmd (by decide) (by decide) (if_neg fun hst => h hst.1)
  · exact completes_looped (op := 0x0C) rfl hruns hcmd (by decide) (by decide) (if_neg fun hst => h hst.1)
  · exact completes_looped (op := 0x0D) rfl hruns hcmd (by decide) (by decide) (if_neg fun hst => h hst.1)
  · exact completes_looped (op := 0x0E) rfl hruns hcmd (by decide) (by decide) (if_neg fun hst => h hst.1)

end statement

/-- Settles O31: each command by what it makes of the program, the refusals by `completes_busy` and `completes_unfit`. -/
theorem loopCommands : Obligations.LoopCommands := by
  refine ⟨fun s p a arg hruns => ?_, fun s p a arg i hruns => ⟨?_, ?_⟩⟩
  · intro g only quiet runs done
    have hquiet : ∀ {h c}, Looped p h s.chip c → only c ∧ quiet c := fun hl => ⟨⟨hl.others, hl.bytesKept⟩, hl.eq⟩
    refine ⟨completes_loopCommand (f := id) rfl hruns rfl, fun ha hoff => ?_, fun hcmd => ⟨fun hst => ?_, fun ha hpos => ?_, fun hlock => ?_,
      fun hst h0 hlo hhi => ?_, fun ha hst => ⟨fun heq => ?_, fun hne => ?_⟩, fun hlock => ?_, fun ha => ?_, fun ha => ?_,
      fun hst => ⟨fun h1 => ⟨?_, ?_⟩, fun h5 h50 h0 h24 => ⟨?_, ?_⟩, fun h16 h64 => ?_⟩⟩⟩
    · refine (completes_retract hruns ha hoff).imp fun c ⟨hstep, hland⟩ => ?_
      dsimp only
      rw [hstep.here]
      exact ⟨rfl, rfl, rfl, rfl, rfl, rfl, rfl, layer_failCmd g, hland, hstep.regs, hstep.others, hstep.bytes⟩
    · refine (completes_looped (op := 0x01) rfl hruns hcmd (by decide) (by decide) (startCommand_sweep hst)).imp fun c hl => ?_
      dsimp only
      rw [hl.here]
      exact ⟨runsIn_start g 1 0 0 lSweep 0, rfl, rfl, rfl, rfl, hquiet hl⟩
    · refine (completes_looped (op := 0x02) rfl hruns hcmd (by decide) (by decide) (startCommand_focus ha hpos)).imp fun c hl => ?_
      dsimp only
      rw [hl.here]
      exact ⟨runsIn_start g 2 a.toNat 0 lAcquire 0, rfl, rfl, rfl, rfl, rfl, hquiet hl⟩
    · refine (completes_looped (op := 0x03) rfl hruns hcmd (by decide) (by decide) (startCommand_pullIn hlock)).imp fun c hl => ?_
      rw [hl.here]
      exact ⟨runsIn_start g 3 0 0 lPullIn 0, hlock, hquiet hl⟩
    · refine (completes_jump hruns hcmd hst h0 hlo hhi).imp fun c ⟨hhere, hland, hcount, hfields, hothers, hbytes⟩ => ?_
      rw [hhere]
      exact ⟨runsIn_start (g.trackHeld s.chip.draw.1) 4 a.toNat 0 lJump 0, rfl, hland, hcount, hfields, hothers, hbytes⟩
    · refine (completes_looped (op := 0x05) rfl hruns hcmd (by decide) (by decide) ((startCommand_layer ha hst).trans (if_pos heq))).imp fun c hl => ?_
      rw [hl.here]
      exact ⟨doneAt_endCmd g, rfl, hquiet hl⟩
    · refine (completes_layerJump hruns hcmd ha hst hne).imp fun c ⟨hstep, hland⟩ => ?_
      rw [hstep.here]
      exact ⟨runsIn_start (g.trackHeld s.chip.draw.1) 5 a.toNat 0 lLayerJump 2, rfl, rfl, rfl, hland, hstep.regs, hstep.others, hstep.bytes⟩
    · refine completes_free (op := 0x06) rfl hruns hcmd (by decide) (by decide) ?_
      rw [startCommand_hold hlock]
      have hstep := (loopStep_holdTrack s.chip p).upd fun g => g.holding
      rw [hstep.here]
      exact ⟨doneAt_endCmd (g.trackHeld s.chip.draw.1), rfl, rfl, hlock, hstep.regs, hstep.others, hstep.bytes⟩
    · refine (completes_looped (op := 0x08) rfl hruns hcmd (by decide) (by decide) (startCommand_retryOffset ha)).imp fun c hl => ?_
      rw [hl.here]
      exact ⟨doneAt_endCmd g, rfl, rfl, hquiet hl⟩
    · refine completes_free (op := 0x09) rfl hruns hcmd (by decide) (by decide) ?_
      obtain ⟨hlayer, hseq, hretry⟩ := believe_layer g a.toNat
      have hbelieved : ((g.believe a.toNat).endCmd 1).layer = a.toNat := hlayer
      obtain ⟨hhere, hothers, hfld, hfields, hbytes⟩ := regionLayer_setLoop (c := s.chip) (p := p) (g := (g.believe a.toNat).endCmd 1) (hbelieved.trans_le ha)
      rw [startCommand_setLayer ha]
      rw [hhere, hfld]
      exact ⟨⟨rfl, rfl, rfl, congrArg (fun n => (n + 1) % 256) hseq⟩, hlayer, hlayer, hretry, hfields, hothers, hbytes⟩
    · refine (completes_looped (op := 0x0A) (arg := 0) rfl hruns hcmd (by decide) (by decide)
        (startCommand_calibration (by decide) hst (by simp [calArgsOk, h1]))).imp fun c hl => ?_
      rw [hl.here]
      exact ⟨runsIn_start g 10 a.toNat 0 lTracking 0, hquiet hl⟩
    · refine (completes_looped (op := 0x0E) (arg := 0) rfl hruns hcmd (by decide) (by decide)
        (startCommand_calibration (by decide) hst (by simp [calArgsOk, h1]))).imp fun c hl => ?_
      rw [hl.here]
      exact ⟨runsIn_start g 14 a.toNat 0 lTracking 0, hquiet hl⟩
    · refine (completes_looped (op := 0x0B) (arg := arg) rfl hruns hcmd (by decide) (by decide)
        (startCommand_calibration (by decide) hst (by simpa [calArgsOk] using ⟨h5, h50, h0, h24⟩))).imp fun c hl => ?_
      rw [hl.here]
      exact ⟨runsIn_start g 11 a.toNat arg lTracking 0, hquiet hl⟩
    · refine (completes_looped (op := 0x0C) (arg := arg) rfl hruns hcmd (by decide) (by decide)
        (startCommand_calibration (by decide) hst (by simpa [calArgsOk] using ⟨h5, h50, h0, h24⟩))).imp fun c hl => ?_
      rw [hl.here]
      exact ⟨runsIn_start g 12 a.toNat arg lTracking 0, hquiet hl⟩
    · refine completes_free (op := 0x0D) (arg := arg) rfl hruns hcmd (by decide) (by decide) ?_
      rw [startCommand_calTsens hst (by simpa [calArgsOk] using ⟨h16, h64⟩)]
      have hstep := (loopStep_holdTrack s.chip p).upd fun g => g.calibrating 0x0D a.toNat arg lHold
      rw [hstep.here]
      exact ⟨runsIn_start (g.trackHeld s.chip.draw.1) 13 a.toNat arg lHold 0, rfl, hstep.regs, hstep.others, hstep.bytes⟩
  · rintro (⟨hcmd, h⟩ | ⟨rfl, ha⟩ | ⟨hcmd, h⟩)
    · have hbusy : ∀ {op n : Nat} {w : Q}, (exec i s = s.on fun c => c.when (c.loopRuns p) fun c => c.loopCommand p op n w) → op ≠ 0 → op ≠ 7 → op ≠ 6 →
          Completes i s (Looped p (s.chip.loop p).refuse s.chip) := fun hi h0 h7 h6 => completes_busy hi hruns hcmd h0 h7 fun hop => absurd hop h6
      have hrefused : Completes i s (Looped p (s.chip.loop p).refuse s.chip) := by
        rcases h with rfl | rfl | rfl | rfl | rfl | rfl | rfl | rfl | rfl | rfl | rfl | rfl | ⟨rfl, h6⟩
        · exact hbusy (op := 0x01) rfl (by decide) (by decide) (by decide)
        · exact hbusy (op := 0x02) rfl (by decide) (by decide) (by decide)
        · exact hbusy (op := 0x03) rfl (by decide) (by decide) (by decide)
        · exact hbusy (op := 0x04) rfl (by decide) (by decide) (by decide)
        · exact hbusy (op := 0x05) rfl (by decide) (by decide) (by decide)
        · exact hbusy (op := 0x08) rfl (by decide) (by decide) (by decide)
        · exact hbusy (op := 0x09) rfl (by decide) (by decide) (by decide)
        · exact hbusy (op := 0x0A) rfl (by decide) (by decide) (by decide)
        · exact hbusy (op := 0x0B) rfl (by decide) (by decide) (by decide)
        · exact hbusy (op := 0x0C) rfl (by decide) (by decide) (by decide)
        · exact hbusy (op := 0x0D) rfl (by decide) (by decide) (by decide)
        · exact hbusy (op := 0x0E) rfl (by decide) (by decide) (by decide)
        · exact completes_busy (op := 0x06) rfl hruns hcmd (by decide) (by decide) fun _ => h6
      exact hrefused.imp fun c hl => ⟨hl.here, hl.others, hl.eq⟩
    · exact (completes_retract_refused hruns ha).imp fun c hl => ⟨hl.here, hl.others, hl.eq⟩
    · exact (completes_unfit hruns hcmd h).imp fun c hl => ⟨hl.here, hl.others, hl.eq⟩
  · exact fun ha hoff => (completes_retract_off hruns ha hoff).imp fun c hl => ⟨hl.here, hl.eq⟩

end Sys2Proof.Machine
end

section
/-! Proofs about the events of the resident loop program (O32) and about losses, slips and seeks (O33). -/

namespace Sys2Proof.Machine

section events
variable {s : State} {p : Pickup}

/-- An event that sets this pickup's program. -/
theorem completes_loopEvent {i : Instr} {b : Bool} {g : LoopProg} (h : exec i s = .next { s with chip := s.chip.when b fun c => c.setLoop p g })
    (hb : b = true) : Completes i s (Looped p g s.chip) :=
  completes_event h hb (looped_setLoop _ _ _)

theorem completes_sweepEnd (hst : (s.chip.loop p).state = lSweep) (hphase : (s.chip.loop p).phase = 1) (hend : s.chip.par p 8 ≤ (s.chip.loop p).focus)
    (hcurve : (s.chip.loop p).curve = none) : Completes (.sweepEnd p) s (Looped p
      { s.chip.loop p with phase := 2, curve := none, curves := [],
                           positions := if (s.chip.loop p).curves.length = 11 then (s.chip.loop p).curves else [] } s.chip) := by
  refine completes_event rfl (by simp [hst, hphase, hend]) ?_
  dsimp only
  simp only [hcurve, List.append_nil]
  exact looped_setLoop _ _ _

theorem completes_focusCapture (hst : (s.chip.loop p).state = lAcquire ∨ (s.chip.loop p).state = lRecover) (hphase : (s.chip.loop p).phase = 1)
    (hcrossed : (s.chip.loop p).crossed = true) :
    Completes (.focusCapture p) s (Looped p { s.chip.loop p with phase := 2, count := 0, good := 0, fresh := true } s.chip) := by
  refine ⟨_, rfl, rfl, ?_⟩
  dsimp only
  rw [hcrossed, Bool.not_true, if_neg Bool.false_ne_true, if_pos ⟨hst, hphase⟩]
  exact looped_setLoop _ _ _

/-- What a declared focus lock makes of a program that runs a command (R340). -/
def LoopProg.focused (g : LoopProg) : LoopProg :=
  LoopProg.endCmd { g.believe g.target with focusLock := true, state := lFocused, phase := 0, count := 0, good := 0, bad := 0, closed := false } 1

theorem cmd_believe (g : LoopProg) (a : Nat) : (g.believe a).cmd = g.cmd := by
  unfold LoopProg.believe
  split <;> rfl

theorem completes_focusLock (hst : (s.chip.loop p).state = lAcquire) (hphase : (s.chip.loop p).phase = 2) (hgood : 40 ≤ (s.chip.loop p).good)
    (hcmd : (s.chip.loop p).cmd.isSome = true) : Completes (.focusLock p) s fun c =>
      c = (s.chip.setLoop p (s.chip.loop p).focused).regionLayer p := by
  refine completes_event rfl (by simp [hst, hphase, hgood]) ?_
  dsimp only
  rw [if_pos (by rw [cmd_believe]; exact hcmd)]
  rfl

/-- What a declared tracking lock makes of a program that pulls in (R342). -/
def LoopProg.locked (g : LoopProg) : LoopProg :=
  let h := if g.cmd.any (fun r => r.op == 0x0D) then { g with trace0 := BitVec.ofInt 32 g.acc0, trace1 := 0 } else g
  let h := { h with state := lTracking, trackLock := true, phase := 0, count := 0, good := 0, off := 0, ownPull := false }
  if h.cmd.isSome then h.endCmd 1 else h

theorem locked_kept (g : LoopProg) : g.locked.trackLock = true ∧ g.locked.state = lTracking ∧ g.locked.cmd = none ∧
    (g.cmd.isSome = true → g.locked.result = 1 ∧ g.locked.seq = (g.seq + 1) % 256) := by
  unfold LoopProg.locked
  cases hcmd : g.cmd with
  | none => simp [hcmd]
  | some r =>
    by_cases hop : r.op = 0x0D
    · simp [hop, LoopProg.endCmd]
    · simp [hcmd, hop, LoopProg.endCmd]

theorem completes_trackingLock (hst : (s.chip.loop p).state = lPullIn) (hclosed : (s.chip.loop p).closed = true) (hgood : 40 ≤ (s.chip.loop p).good) :
    Completes (.trackingLock p) s fun c =>
      c.loop p = (s.chip.loop p).locked ∧ c.regs = s.chip.regs ∧ s.chip.bytesKept c := by
  refine completes_event rfl (by simp [hst, hclosed, hgood]) ?_
  have hloop : ∀ (d : Chip) (q : SeqRec), (d.setSeqr p q).loop p = d.loop p := fun _ _ => rfl
  refine ⟨?_, rfl, ?_⟩
  · rw [hloop, loop_setLoop]
    rfl
  · exact bytesKept_setSeqr _ _ (loopStep_setLoop _ _ _).bytes

theorem completes_jumpBrake {r : LoopCmd} (hcmd : (s.chip.loop p).cmd = some r) (hst : (s.chip.loop p).state = lJump) (hphase : (s.chip.loop p).phase = 0)
    (hcycles : (signedOf 8 r.a).natAbs / 2 ≤ (s.chip.loop p).cycles / 2) :
    Completes (.jumpBrake p) s (Looped p { s.chip.loop p with phase := 1, kick := (s.chip.loop p).count, total := 0 } s.chip) :=
  completes_loopEvent rfl (by simpa [hst, hphase, hcmd] using hcycles)

theorem completes_layerStepPhase (hst : (s.chip.loop p).state = lLayerJump) (hphase : (s.chip.loop p).phase = 2)
    (hcount : s.chip.cnt p 12 ≤ (s.chip.loop p).count) :
    Completes (.layerStepPhase p) s (Looped p { s.chip.loop p with phase := 3, count := 0 } s.chip) := by
  refine ⟨_, rfl, rfl, ?_⟩
  dsimp only
  rw [if_neg (not_not.mpr hst), if_pos ⟨hphase, hcount⟩]
  exact looped_setLoop _ _ _

theorem completes_retractReached_failed (hst : (s.chip.loop p).state = lAcquire) (hphase : (s.chip.loop p).phase = 3)
    (hfocus : (s.chip.loop p).focus = s.chip.retractPos p) :
    Completes (.retractReached p) s (Looped p { s.chip.loop p with state := lRetracted } s.chip) := by
  refine ⟨_, rfl, rfl, ?_⟩
  dsimp only
  rw [if_neg (not_not.mpr hfocus), hst, if_neg (by decide), if_neg (by rintro ⟨h, -⟩; exact absurd h (by decide)), if_pos ⟨.inl rfl, hphase⟩]
  exact looped_setLoop _ _ _

theorem completes_calCommandDone {r : LoopCmd} {r0 r1 : Q} (hcmd : (s.chip.loop p).cmd = some r) (hop : r.op = 0x0B ∨ r.op = 0x0C)
    (hcount : 40000 ≤ (s.chip.loop p).count * r.a) :
    Completes (.calCommandDone p r0 r1) s (Looped p { (s.chip.loop p).endCmd 1 with trace0 := r0, trace1 := r1 } s.chip) := by
  refine ⟨_, rfl, rfl, ?_⟩
  dsimp only
  rw [hcmd]
  dsimp only
  rw [if_neg (by omega), if_pos ⟨hop, hcount⟩]
  exact looped_setLoop _ _ _

end events

/-- Settles O32, event by event. -/
theorem loopEvents : Obligations.LoopEvents := by
  intro s p g quiet
  have hquiet : ∀ {h c}, Looped p h s.chip c → quiet c := fun hl => ⟨hl.others, hl.eq⟩
  refine ⟨fun hst hphase hend hcurve => ?_, fun hst hphase hcrossed => ?_, fun hst hphase hgood hcmd htarget => ?_, fun hst hclosed hgood => ?_,
    fun hst hphase hcycles hcmd => ?_, fun hst hphase hcount => ?_, fun hst hphase hfocus => ?_, fun r r0 r1 hcmd hop hcount => ?_⟩
  · refine (completes_sweepEnd hst hphase hend hcurve).imp fun c hl => ?_
    rw [hl.here]
    exact ⟨rfl, rfl, hquiet hl⟩
  · refine (completes_focusCapture hst hphase hcrossed).imp fun c hl => ?_
    rw [hl.here]
    exact ⟨rfl, rfl, rfl, rfl, hquiet hl⟩
  · refine (completes_focusLock hst hphase hgood hcmd).imp ?_
    rintro c rfl
    obtain ⟨hlayer, hseq, -⟩ := believe_layer g g.target
    have hfocused : g.focused.layer = g.target := hlayer
    obtain ⟨hhere, -, hfld, hfields, hbytes⟩ := regionLayer_setLoop (c := s.chip) (p := p) (g := g.focused) (hfocused.trans_le htarget)
    dsimp only
    rw [hhere, hfld]
    exact ⟨rfl, rfl, hlayer, rfl, congrArg (fun n => (n + 1) % 256) hseq, rfl, rfl, hlayer, hfields, hbytes⟩
  · refine (completes_trackingLock hst hclosed hgood).imp fun c ⟨hhere, hregs, hbytes⟩ => ?_
    obtain ⟨hlock, hstate, hcmd, hend⟩ := locked_kept g
    dsimp only
    rw [hhere]
    exact ⟨hlock, hstate, hcmd, hend, hregs, hbytes⟩
  · obtain ⟨r, hr⟩ := Option.isSome_iff_exists.mp hcmd
    refine (completes_jumpBrake hr hst hphase (hcycles r hr)).imp fun c hl => ?_
    rw [hl.here]
    exact ⟨rfl, rfl, rfl, hquiet hl⟩
  · exact (completes_layerStepPhase hst hphase hcount).imp fun c hl => ⟨hl.here, hquiet hl⟩
  · exact (completes_retractReached_failed hst hphase hfocus).imp fun c hl => ⟨hl.here, hquiet hl⟩
  · refine (completes_calCommandDone hcmd hop hcount).imp fun c hl => ?_
    dsimp only
    rw [hl.here]
    exact ⟨rfl, rfl, rfl, rfl, rfl, rfl, hquiet hl⟩

end Sys2Proof.Machine
end

section
/-! Proofs about focus and tracking losses, position checks, slips and seeks (O33). -/

namespace Sys2Proof.Machine

/-- No calibration cycle runs on the pickup and no acquisition of a command waits for one. -/
def Chip.calIdle (c : Chip) (p : Nat) : Prop := c.fld (CAL_PU_STATUS_CYCLE p) = 0 ∧ (c.cal p).acqBy = none

/-- Nothing is abandoned where no cycle runs. -/
theorem abandonCal_idle {c : Chip} {p : Nat} (h : c.calIdle p) (lost : Bool) : c.abandonCal p lost = c := by
  obtain ⟨hcycle, hacq⟩ := h
  simp only [Chip.abandonCal, hacq, hcycle, if_true]

theorem cal_of_sup {c c' : Chip} (h : c'.sup = c.sup) (k : Nat) : c'.cal k = c.cal k := by
  rw [Chip.cal, Chip.cal, Chip.thermal, Chip.thermal, h]

theorem calIdle_of {c c' : Chip} {p : Nat} {L : List Fld} (h : c.calIdle p) (hs : c'.sup = c.sup) (hf : c.fieldsKept L c')
    (hL : ∀ g ∈ L, apart (CAL_PU_STATUS_CYCLE p) g) : c'.calIdle p :=
  ⟨(hf _ (by simp [CAL_PU_STATUS_CYCLE]) hL).trans h.1, by rw [cal_of_sup hs, h.2]⟩

theorem seqr_of_servo {c c' : Chip} (h : c'.servo.seqs = c.servo.seqs) (k : Nat) : c'.seqr k = c.seqr k := by
  rw [Chip.seqr, Chip.seqr, h]

section losses
variable {s : State} {p : Pickup}

/-- A command that ran has ended with FAIL. -/
theorem failCmd_ends (g : LoopProg) :
    g.failCmd.cmd = none ∧ (g.cmd.isSome = true → g.failCmd.result = 2 ∧ g.failCmd.seq = (g.seq + 1) % 256 ∧ g.failCmd.busy = false) ∧
    g.failCmd.focusLock = g.focusLock := by
  unfold LoopProg.failCmd
  cases hcmd : g.cmd with
  | none => simp [hcmd]
  | some r => simp [LoopProg.endCmd]

/-- What a declared focus loss makes of the program (R341). -/
def LoopProg.focusGone (g : LoopProg) : LoopProg :=
  { g.failCmd with focusLost := true, focusLock := false, trackLock := false, offtrack := true, closed := false, state := lRecover, phase := 0,
                   count := 0, good := 0, bad := 0, off := 0, target := g.failCmd.layer, ownPull := false }

/-- What a declared tracking loss makes of the program (R345). -/
def LoopProg.trackGone (g : LoopProg) : LoopProg :=
  { g.failCmd with trackLost := true, offtrack := true, state := lPullIn, phase := 0, count := 0, good := 0, off := 0, gap := 0, ownPull := true }

theorem failCmd_trackHeld (g : LoopProg) (w : Word) : (g.trackHeld w).failCmd = (g.failCmd).trackHeld w := by
  unfold LoopProg.failCmd
  by_cases h : g.cmd.isSome = true
  · rw [if_pos h, if_pos (show (g.trackHeld w).cmd.isSome = true from h)]
    rfl
  · rw [if_neg h, if_neg (show ¬ (g.trackHeld w).cmd.isSome = true from h)]

theorem apart_cycle {p : Nat} {f : Fld} (hp : p < 16) (h : 0x60f000 ≤ f.reg) (h' : f.reg < 0x610000) : apart (CAL_PU_STATUS_CYCLE p) f :=
  apart_of_reg (by simp only [CAL_PU_STATUS_CYCLE, CAL_PU_STATUS]; omega)

/-- The first focus loss since QUALIFY is counted, and no station parks. -/
theorem countLoss_first {c : Chip} {p : Pickup} (hcal : c.calIdle p) (hlosses : (c.seqr p).losses = []) :
    c.countLoss p = ((c.inc (WMM_STN_FOCUS_LOSSES_COUNT (p / 2))).mark (WMM_STN_EVENT_FOCUS_LOST (p / 2))).setSeqr p
      { c.seqr p with losses := [c.now.toNat], recovering := true, checkDue := true, seek := none } := by
  have _hp := p.isLt
  have hidle : ∀ q, ((((c.inc (WMM_STN_FOCUS_LOSSES_COUNT (p / 2))).mark (WMM_STN_EVENT_FOCUS_LOST (p / 2))).setSeqr p q)).calIdle p := fun q => by
    refine calIdle_of hcal rfl (fieldsKept_regs (setSeqr_regs _ _ _) (fieldsKept_mark (L := [WMM_STN_FOCUS_LOSSES_COUNT (p / 2),
      WMM_STN_EVENT_FOCUS_LOST (p / 2)]) _ (by simp) (fieldsKept_inc _ (by simp) (fieldsKept_refl _ _)))) ?_
    simp only [List.mem_cons, List.not_mem_nil, or_false, forall_eq_or_imp, forall_eq]
    refine ⟨apart_cycle _hp ?_ ?_, apart_cycle _hp ?_ ?_⟩
    all_goals
      simp only [WMM_STN_FOCUS_LOSSES_COUNT, WMM_STN_FOCUS_LOSSES, WMM_STN_EVENT_FOCUS_LOST, WMM_STN_EVENT]
      omega
  simp only [Chip.countLoss, hlosses, List.filter_nil, abandonCal_idle (hidle _)]
  rfl

theorem completes_focusLost (hcal : s.chip.calIdle p) (hlock : (s.chip.loop p).focusLock = true) (hbad : 4 ≤ (s.chip.loop p).bad)
    (hlosses : (s.chip.seqr p).losses = []) : Completes (.focusLost p) s fun c =>
      c.loop p = ((s.chip.loop p).trackHeld s.chip.draw.1).focusGone ∧ (c.seqr p).recovering = true ∧
      c.flag (WMM_STN_EVENT_FOCUS_LOST (p / 2)) = true ∧
      c.fld (WMM_STN_FOCUS_LOSSES_COUNT (p / 2)) =
        min (s.chip.fld (WMM_STN_FOCUS_LOSSES_COUNT (p / 2)) + 1) (2 ^ (WMM_STN_FOCUS_LOSSES_COUNT (p / 2)).w - 1) ∧
      s.chip.fieldsKept [WMM_STN_EVENT_FOCUS_LOST (p / 2), WMM_STN_FOCUS_LOSSES_COUNT (p / 2)] c ∧ s.chip.bytesKept c := by
  refine completes_event (f := fun c => ((c.holdTrack p).updLoop p LoopProg.focusGone).countLoss p) rfl (by simp [hlock, hbad]) ?_
  have hstep := (loopStep_holdTrack s.chip p).upd LoopProg.focusGone
  generalize (s.chip.holdTrack p).updLoop p LoopProg.focusGone = d at hstep
  have hdcal : d.calIdle p := calIdle_of hcal hstep.sup (fieldsKept_of_regs (L := []) hstep.regs) (by simp)
  rw [countLoss_first hdcal (by rw [seqr_of_servo hstep.seqs, hlosses])]
  have hloop : ∀ q, (((d.inc (WMM_STN_FOCUS_LOSSES_COUNT (p / 2))).mark (WMM_STN_EVENT_FOCUS_LOST (p / 2))).setSeqr p q).loop p = d.loop p := fun _ => rfl
  refine ⟨(hloop _).trans hstep.here, ?_, ?_, ?_, ?_, ?_⟩
  · rw [seqr_setSeqr]
  · rw [flag_eq_of_fld (fld_of_regs (setSeqr_regs _ _ _) _)]
    exact flag_mark_same _ _ (by simp [WMM_STN_EVENT_FOCUS_LOST]) (by simp [WMM_STN_EVENT_FOCUS_LOST])
  · rw [fld_of_regs (setSeqr_regs _ _ _), fld_mark_apart _ _ _ (by simp [WMM_STN_FOCUS_LOSSES_COUNT])
      (by simp [apart, WMM_STN_FOCUS_LOSSES_COUNT, WMM_STN_EVENT_FOCUS_LOST, WMM_STN_FOCUS_LOSSES, WMM_STN_EVENT]),
      fld_inc_same _ _ (by simp [WMM_STN_FOCUS_LOSSES_COUNT]), fld_of_regs hstep.regs]
  · exact fieldsKept_regs (setSeqr_regs _ _ _) (fieldsKept_mark _ (by simp) (fieldsKept_inc _ (by simp) (fieldsKept_of_regs hstep.regs)))
  · exact bytesKept_setSeqr _ _ (bytesKept_trans hstep.bytes (bytesKept_of_regsOnly (regsOnly_mark _ (regsOnly_inc _ (regsOnly_refl _)))))

theorem completes_trackLost (hcal : s.chip.calIdle p) (hst : (s.chip.loop p).state = lTracking) (hoff : 40 ≤ (s.chip.loop p).off) :
    Completes (.trackLost p) s fun c =>
      c.loop p = ((s.chip.loop p).trackHeld s.chip.draw.1).trackGone ∧ (c.seqr p).checkDue = true ∧ c.flag (WMM_STN_EVENT_TRACK_LOST (p / 2)) = true ∧
      c.fld (WMM_STN_TRACK_LOSSES_COUNT (p / 2)) =
        min (s.chip.fld (WMM_STN_TRACK_LOSSES_COUNT (p / 2)) + 1) (2 ^ (WMM_STN_TRACK_LOSSES_COUNT (p / 2)).w - 1) ∧
      s.chip.fieldsKept [WMM_STN_EVENT_TRACK_LOST (p / 2), WMM_STN_TRACK_LOSSES_COUNT (p / 2)] c ∧ s.chip.bytesKept c := by
  refine completes_event (f := fun c => ((((c.holdTrack p).updLoop p LoopProg.trackGone).inc (WMM_STN_TRACK_LOSSES_COUNT (p / 2))).mark
    (WMM_STN_EVENT_TRACK_LOST (p / 2)) |>.abandonCal p false).setSeqr p
      { ((((c.holdTrack p).updLoop p LoopProg.trackGone).inc (WMM_STN_TRACK_LOSSES_COUNT (p / 2))).mark
          (WMM_STN_EVENT_TRACK_LOST (p / 2)) |>.abandonCal p false).seqr p with checkDue := true, seek := none }) rfl (by simp [hst, hoff]) ?_
  have hstep := (loopStep_holdTrack s.chip p).upd LoopProg.trackGone
  dsimp only
  generalize (s.chip.holdTrack p).updLoop p LoopProg.trackGone = d at hstep
  have _hp := p.isLt
  have hdf : d.fieldsKept [WMM_STN_EVENT_TRACK_LOST (p / 2), WMM_STN_TRACK_LOSSES_COUNT (p / 2)]
      ((d.inc (WMM_STN_TRACK_LOSSES_COUNT (p / 2))).mark (WMM_STN_EVENT_TRACK_LOST (p / 2))) :=
    fieldsKept_mark _ (by simp) (fieldsKept_inc _ (by simp) (fieldsKept_refl _ _))
  have hdcal : ((d.inc (WMM_STN_TRACK_LOSSES_COUNT (p / 2))).mark (WMM_STN_EVENT_TRACK_LOST (p / 2))).calIdle p := by
    refine calIdle_of (c := d) (calIdle_of hcal hstep.sup (fieldsKept_of_regs (L := []) hstep.regs) (by simp)) rfl hdf ?_
    simp only [List.mem_cons, List.not_mem_nil, or_false, forall_eq_or_imp, forall_eq]
    refine ⟨apart_cycle _hp ?_ ?_, apart_cycle _hp ?_ ?_⟩
    all_goals
      simp only [WMM_STN_TRACK_LOSSES_COUNT, WMM_STN_TRACK_LOSSES, WMM_STN_EVENT_TRACK_LOST, WMM_STN_EVENT]
      omega
  rw [abandonCal_idle hdcal]
  have hloop : ∀ q, (((d.inc (WMM_STN_TRACK_LOSSES_COUNT (p / 2))).mark (WMM_STN_EVENT_TRACK_LOST (p / 2))).setSeqr p q).loop p = d.loop p := fun _ => rfl
  refine ⟨(hloop _).trans hstep.here, ?_, ?_, ?_, ?_, ?_⟩
  · rw [seqr_setSeqr]
  · rw [flag_eq_of_fld (fld_of_regs (setSeqr_regs _ _ _) _)]
    exact flag_mark_same _ _ (by simp [WMM_STN_EVENT_TRACK_LOST]) (by simp [WMM_STN_EVENT_TRACK_LOST])
  · rw [fld_of_regs (setSeqr_regs _ _ _), fld_mark_apart _ _ _ (by simp [WMM_STN_TRACK_LOSSES_COUNT])
      (by simp [apart, WMM_STN_TRACK_LOSSES_COUNT, WMM_STN_EVENT_TRACK_LOST, WMM_STN_TRACK_LOSSES, WMM_STN_EVENT]),
      fld_inc_same _ _ (by simp [WMM_STN_TRACK_LOSSES_COUNT]), fld_of_regs hstep.regs]
  · exact fieldsKept_regs (setSeqr_regs _ _ _) (fieldsKept_trans (fieldsKept_of_regs hstep.regs) hdf)
  · exact bytesKept_setSeqr _ _ (bytesKept_trans hstep.bytes (bytesKept_of_regsOnly (regsOnly_mark _ (regsOnly_inc _ (regsOnly_refl _)))))

/-- What a PULL_IN that takes too long makes of the program (R342). -/
def LoopProg.pullFailed (g : LoopProg) : LoopProg := { g.failCmd with state := lHold, closed := false, trackLock := false, phase := 0, count := 0 }

theorem completes_pullInTimeout (hst : (s.chip.loop p).state = lPullIn) (hown : (s.chip.loop p).ownPull = false)
    (hlock : (s.chip.loop p).trackLock = false) (hcount : 2000 ≤ (s.chip.loop p).count) :
    Completes (.loopCommandTimeout p) s (Looped p (s.chip.loop p).pullFailed s.chip) := by
  refine ⟨_, rfl, rfl, ?_⟩
  dsimp only
  rw [if_neg (by rintro ⟨h, -⟩; rw [hst] at h; exact absurd h (by decide)), if_pos ⟨hst, hcount, by simp [hlock]⟩, Chip.pullFail]
  dsimp only
  rw [hown, if_neg Bool.false_ne_true]
  exact looped_setLoop _ _ _

/-! ### Position checks, slips and seeks (R343, R346, R349) -/

/-- The sequencer writes the band; with no band read in before, no tilt is taken over. -/
theorem regionBandAt_eq {c : Chip} {p : Nat} (pba : Nat) (h : (c.seqr p).bands = []) :
    c.regionBandAt p pba = c.setFld (LE_REGION_BAND p) (entryZone (pbaSlot pba) / 4) :=
  if_pos (.inr h)

theorem completes_positionCheck_ends {pba : BitVec 40} (hdue : (s.chip.seqr p).checkDue = true) (hst : (s.chip.loop p).state = lTracking)
    (hlayer : pbaLayer pba.toNat = (s.chip.loop p).layer) (hfurrow : pbaFurrow pba.toNat = 0) (hbands : (s.chip.seqr p).bands = [])
    (hintended : (s.chip.seqr p).intended = (s.chip.loop p).layer) : Completes (.positionCheck p pba) s fun c =>
      (c.seqr p).checkDue = false ∧ (c.seqr p).recovering = false ∧ c.fld (LE_REGION_BAND p) = entryZone (pbaSlot pba.toNat) / 4 % 16 ∧
      (∀ k < 8, (c.lane (8 * p + k)).landNext = true) ∧ s.chip.fieldsKept [LE_REGION_BAND p] c ∧ c.servo.loops = s.chip.servo.loops ∧
      s.chip.bytesKept c := by
  refine completes_event (f := fun c => c.positionCheck p pba.toNat) rfl (by simp [hdue, hst]) ?_
  have hcheck : s.chip.positionCheck p pba.toNat = ((s.chip.setFld (LE_REGION_BAND p) (entryZone (pbaSlot pba.toNat) / 4)).setSeqr p
      { s.chip.seqr p with checkDue := false, corrections := 0, recovering := false }).landAll p := by
    have hseqr : ∀ v, (s.chip.setFld (LE_REGION_BAND p) v).seqr p = s.chip.seqr p := fun _ => rfl
    simp only [Chip.positionCheck, regionBandAt_eq _ hbands, loop_setFld, hseqr, hlayer, hfurrow, hintended, ite_self, ne_eq, not_true_eq_false, if_false]
  rw [hcheck]
  have hland := fun k hk => landNext_landAll ((s.chip.setFld (LE_REGION_BAND p) (entryZone (pbaSlot pba.toNat) / 4)).setSeqr p
    { s.chip.seqr p with checkDue := false, corrections := 0, recovering := false }) p (k := k) hk
  have hkept : s.chip.fieldsKept [LE_REGION_BAND p] (s.chip.setFld (LE_REGION_BAND p) (entryZone (pbaSlot pba.toNat) / 4)) :=
    fieldsKept_setFld _ _ List.mem_cons_self (fieldsKept_refl _ _)
  have hfld : (s.chip.setFld (LE_REGION_BAND p) (entryZone (pbaSlot pba.toNat) / 4)).fld (LE_REGION_BAND p) = entryZone (pbaSlot pba.toNat) / 4 % 16 :=
    fld_setFld_same _ _ _ (by simp [LE_REGION_BAND])
  have hbytes : s.chip.bytesKept (s.chip.setFld (LE_REGION_BAND p) (entryZone (pbaSlot pba.toNat) / 4)) :=
    bytesKept_of_regsOnly (regsOnly_setFld _ _ (regsOnly_refl _))
  have hloops : (s.chip.setFld (LE_REGION_BAND p) (entryZone (pbaSlot pba.toNat) / 4)).servo.loops = s.chip.servo.loops := rfl
  generalize s.chip.setFld (LE_REGION_BAND p) (entryZone (pbaSlot pba.toNat) / 4) = d at hland hkept hfld hbytes hloops
  refine ⟨?_, ?_, ?_, hland, ?_, ?_, ?_⟩
  · rw [seqr_landAll, seqr_setSeqr]
  · rw [seqr_landAll, seqr_setSeqr]
  · rw [fld_landAll]
    exact hfld
  · exact fieldsKept_trans hkept (fieldsKept_of_regs (regs_landAll _ _))
  · rw [landAll_path]
    exact hloops
  · exact bytesKept_trans (bytesKept_setSeqr _ _ hbytes) (bytesKept_landAll _ _)

/-- A slip's correction joins the queue of the pickup's loop pair, and the lanes land anew (R346). -/
theorem completes_slip {d : Int} (hdir : slipDir (s.chip.seqr p).slips = some d) (hroom : (s.chip.pair p).cmds.length < 4) :
    Completes (.slip p) s fun c =>
      (c.seqr p).slips = [] ∧ (c.pair p).cmds = (s.chip.pair p).cmds ++ [(cmdWord 4 (bitsOfInt 8 (-d)), 0)] ∧
      c.flag (WMM_STN_EVENT_SLIP (p / 2)) = true ∧
      c.fld (WMM_STN_SLIPS_COUNT (p / 2)) = min (s.chip.fld (WMM_STN_SLIPS_COUNT (p / 2)) + 1) (2 ^ (WMM_STN_SLIPS_COUNT (p / 2)).w - 1) ∧
      s.chip.fieldsKept [WMM_STN_EVENT_SLIP (p / 2), WMM_STN_SLIPS_COUNT (p / 2)] c ∧ s.chip.bytesKept c := by
  refine ⟨_, rfl, rfl, ?_⟩
  dsimp only
  simp only [hdir]
  have hcmd : ∀ r, (s.chip.setSeqr p r).loopCmd p 4 (bitsOfInt 8 (-d)) = (s.chip.setSeqr p r).setPair p
      { s.chip.pair p with cmds := (s.chip.pair p).cmds ++ [(cmdWord 4 (bitsOfInt 8 (-d)), 0)] } := fun r => if_pos hroom
  rw [hcmd]
  have hseqr : ∀ r x, (((s.chip.setSeqr p r).setPair p x).seqr p) = r := fun r x => seqr_setSeqr s.chip p r
  have hpair : ∀ r x, (((s.chip.setSeqr p r).setPair p x).pair p) = x := fun r x => pair_setPair _ _ _
  have hregs : ∀ r x, ((s.chip.setSeqr p r).setPair p x).regs = s.chip.regs := fun _ _ => rfl
  have hbytes : ∀ r x, s.chip.bytesKept ((s.chip.setSeqr p r).setPair p x) := fun _ _ => bytesKept_of_eq rfl rfl rfl
  specialize hseqr { s.chip.seqr p with slips := [] } { s.chip.pair p with cmds := (s.chip.pair p).cmds ++ [(cmdWord 4 (bitsOfInt 8 (-d)), 0)] }
  specialize hpair { s.chip.seqr p with slips := [] } { s.chip.pair p with cmds := (s.chip.pair p).cmds ++ [(cmdWord 4 (bitsOfInt 8 (-d)), 0)] }
  specialize hregs { s.chip.seqr p with slips := [] } { s.chip.pair p with cmds := (s.chip.pair p).cmds ++ [(cmdWord 4 (bitsOfInt 8 (-d)), 0)] }
  specialize hbytes { s.chip.seqr p with slips := [] } { s.chip.pair p with cmds := (s.chip.pair p).cmds ++ [(cmdWord 4 (bitsOfInt 8 (-d)), 0)] }
  generalize (s.chip.setSeqr p { s.chip.seqr p with slips := [] }).setPair p
    { s.chip.pair p with cmds := (s.chip.pair p).cmds ++ [(cmdWord 4 (bitsOfInt 8 (-d)), 0)] } = e at hseqr hpair hregs hbytes
  have hservo : ∀ f g, ((e.inc f).mark g |>.landAll p).servo = e.servo := fun f g => (servo_landAll _ _).trans rfl
  refine ⟨?_, ?_, ?_, ?_, ?_, ?_⟩
  · rw [Chip.seqr, hservo, ← Chip.seqr, hseqr]
  · rw [Chip.pair, hservo, ← Chip.pair, hpair]
  · rw [flag_eq_of_fld (fld_landAll _ _ _)]
    exact flag_mark_same _ _ (by simp [WMM_STN_EVENT_SLIP]) (by simp [WMM_STN_EVENT_SLIP])
  · rw [fld_landAll, fld_mark_apart _ _ _ (by simp [WMM_STN_SLIPS_COUNT])
      (by simp [apart, WMM_STN_SLIPS_COUNT, WMM_STN_EVENT_SLIP, WMM_STN_SLIPS, WMM_STN_EVENT]),
      fld_inc_same _ _ (by simp [WMM_STN_SLIPS_COUNT]), fld_of_regs hregs]
  · exact fieldsKept_regs (regs_landAll _ _) (fieldsKept_mark _ (by simp) (fieldsKept_inc _ (by simp) (fieldsKept_of_regs hregs)))
  · exact bytesKept_trans (bytesKept_trans hbytes (bytesKept_of_regsOnly (regsOnly_mark _ (regsOnly_inc _ (regsOnly_refl _))))) (bytesKept_landAll _ _)

/-- A seek that is where it should be ends, and the lanes land anew (R349). -/
theorem seekStep_there {c : Chip} {p pba : Nat} {k : SeekRec} (hseek : (c.seqr p).seek = some k) (htarget : k.target = pba) (hstep : k.step ≠ 3)
    (hlayer : pbaLayer pba = (c.loop p).layer) (hthere : seekTurns (pbaSlot pba) (pbaSlot pba) = 0) (hbands : (c.seqr p).bands = []) :
    c.seekStep p pba pba false = ((c.setFld (LE_REGION_BAND p) (entryZone (pbaSlot pba) / 4)).setSeqr p
      { c.seqr p with seek := none, intended := (c.loop p).layer }).landAll p := by
  have hseqr : ∀ v, (c.setFld (LE_REGION_BAND p) v).seqr p = c.seqr p := fun _ => rfl
  have hany : (some k).any (fun k => k.target == pba) = true := by simp [htarget]
  simp only [Chip.seekStep, regionBandAt_eq _ hbands, hseqr, hseek, hany, Bool.not_true, Bool.false_eq_true, if_false, Option.getD_some, if_neg hstep,
    loop_setFld, hlayer, ne_eq, not_true_eq_false, hthere, if_true]

theorem completes_seek {pba : BitVec 40} {k : SeekRec} (hcmd : (s.chip.loop p).cmd = none) (hlock : (s.chip.loop p).focusLock = true)
    (hdue : (s.chip.seqr p).checkDue = false) (hseek : (s.chip.seqr p).seek = some k) (htarget : k.target = pba.toNat) (hstep : k.step ≠ 3)
    (hlayer : pbaLayer pba.toNat = (s.chip.loop p).layer) (hthere : seekTurns (pbaSlot pba.toNat) (pbaSlot pba.toNat) = 0)
    (hbands : (s.chip.seqr p).bands = []) : Completes (.seek p pba pba false) s fun c =>
      (c.seqr p).seek = none ∧ (c.seqr p).intended = (s.chip.loop p).layer ∧ (∀ k < 8, (c.lane (8 * p + k)).landNext = true) ∧
      s.chip.fieldsKept [LE_REGION_BAND p] c ∧ s.chip.bytesKept c := by
  refine completes_event (f := fun c => c.seekStep p pba.toNat pba.toNat false) rfl (by simp [hcmd, hlock, hdue]) ?_
  rw [seekStep_there hseek htarget hstep hlayer hthere hbands]
  have hkept : s.chip.fieldsKept [LE_REGION_BAND p] (s.chip.setFld (LE_REGION_BAND p) (entryZone (pbaSlot pba.toNat) / 4)) :=
    fieldsKept_setFld _ _ List.mem_cons_self (fieldsKept_refl _ _)
  have hbytes : s.chip.bytesKept (s.chip.setFld (LE_REGION_BAND p) (entryZone (pbaSlot pba.toNat) / 4)) :=
    bytesKept_of_regsOnly (regsOnly_setFld _ _ (regsOnly_refl _))
  generalize s.chip.setFld (LE_REGION_BAND p) (entryZone (pbaSlot pba.toNat) / 4) = d at hkept hbytes
  refine ⟨?_, ?_, fun k hk => landNext_landAll _ _ hk, ?_, ?_⟩
  · rw [seqr_landAll, seqr_setSeqr]
  · rw [seqr_landAll, seqr_setSeqr]
  · exact fieldsKept_trans hkept (fieldsKept_of_regs (regs_landAll _ _))
  · exact bytesKept_trans (bytesKept_setSeqr _ _ hbytes) (bytesKept_landAll _ _)

end losses

/-- Settles O33: a loss, a timeout, a check, a slip and a seek, each by what its event makes of the program and of the sequencer. -/
theorem loopLosses : Obligations.LoopLosses := by
  intro s p hcycle hacq
  have hends : ∀ g : LoopProg, g.failCmd.cmd = none ∧
      (g.cmd.isSome = true → g.failCmd.result = 2 ∧ g.failCmd.seq = (g.seq + 1) % 256 ∧ g.failCmd.busy = false) := fun g =>
    ⟨(failCmd_ends g).1, (failCmd_ends g).2.1⟩
  refine ⟨fun hlock hbad hlosses => ?_, fun hst hoff => ?_, fun hst hown hlock hcount => ?_, fun pba hdue hst hlayer hfurrow hbands hintended => ?_,
    fun d hdir hroom => completes_slip hdir hroom, fun pba k hcmd hlock hdue hseek htarget hstep hlayer hthere hbands => ?_⟩
  · refine (completes_focusLost ⟨hcycle, hacq⟩ hlock hbad hlosses).imp fun c h => ?_
    obtain ⟨hloop, hrest⟩ := h
    have hlayer : (s.chip.loop p).failCmd.layer = (s.chip.loop p).layer := by
      unfold LoopProg.failCmd
      split <;> rfl
    dsimp only
    rw [hloop, LoopProg.focusGone, failCmd_trackHeld]
    exact ⟨hends _, rfl, rfl, rfl, rfl, hlayer, hlayer, hrest⟩
  · refine (completes_trackLost ⟨hcycle, hacq⟩ hst hoff).imp fun c h => ?_
    obtain ⟨hloop, hrest⟩ := h
    dsimp only
    rw [hloop, LoopProg.trackGone, failCmd_trackHeld]
    exact ⟨hends _, rfl, rfl, rfl, rfl, hrest⟩
  · refine (completes_pullInTimeout hst hown hlock hcount).imp fun c h => ?_
    obtain ⟨hloop, -, hrest⟩ := h
    rw [hloop]
    exact ⟨hends _, rfl, (failCmd_ends _).2.2, hrest⟩
  · exact completes_positionCheck_ends hdue hst hlayer hfurrow hbands hintended
  · exact completes_seek hcmd hlock hdue hseek htarget hstep hlayer hthere hbands

end Sys2Proof.Machine
end

section
/-! Proofs about the passes of a write channel: what starts one, records a slot, notes an underrun or a STOP and ends it, what a failed verify of a
parity block leaves, the sweep that is queued, and what a survey decides (O42). -/

namespace Sys2Proof.Machine

/-! ### Volumes while no command waits -/

theorem settleFlushes_quiet {c : Chip} (h : c.host.cmds = []) : c.settleFlushes = c := by
  simp only [Chip.settleFlushes, h, List.filter_nil, List.foldl_nil]

theorem endingCmd_quiet {c : Chip} (h : c.host.cmds = []) (p op : Nat) : c.endingCmd p op = none := by
  simp only [Chip.endingCmd, h, List.find?_nil]

theorem journalSettle_boot (c : Chip) (d : Nat × Nat) : ∃ b, c.journalSettle d = c.setBoot b := by
  unfold Chip.journalSettle
  split
  · split_ifs
    · exact ⟨c.boot, rfl⟩
    · exact ⟨_, rfl⟩
  · exact ⟨c.boot, rfl⟩

/-- With no command in the device a step of a volume touches nothing but the journal's operations. -/
theorem volStep_quiet {c : Chip} (h : c.host.cmds = []) (p : Nat) : ∃ b, c.volStep p = c.setBoot b := by
  simp only [Chip.volStep, h, List.filter_nil, List.foldl_nil, settleFlushes_quiet h, endingCmd_quiet h]
  split_ifs
  · exact journalSettle_boot _ _
  · exact ⟨c.boot, rfl⟩

theorem recOf_setRec_same (c : Chip) (v lba : Nat) (x : Rec) : (c.setRec v lba x).recOf v lba = x := by simp [Chip.recOf, Chip.setRec]

theorem recOf_setRec_other (c : Chip) (v : Nat) {lba lba' : Nat} (x : Rec) (h : lba' ≠ lba) : (c.setRec v lba x).recOf v lba' = c.recOf v lba' := by
  simp only [Chip.recOf, Chip.setRec]
  exact Cells.get_put_other _ _ _ _ _ (by omega)

/-! ### The EN bits of a pickup's lanes -/

/-- The writes of the EN bits of the eight lanes of pickup `p`. -/
def enWrites (p : Nat) (f : Nat → Nat) : List (Fld × Nat) := (List.range 8).map fun k => (RCH_CTRL_EN (8 * p + k), f k)

theorem enWrites_apart (p : Nat) (f : Nat → Nat) : (enWrites p f).Pairwise fun x y => apart x.1 y.1 := by
  refine List.pairwise_map.2 (List.Nodup.pairwise_of_forall_ne List.nodup_range fun i _ j _ hij => apart_of_reg ?_)
  simp only [RCH_CTRL_EN, RCH_CTRL]
  omega

theorem fld_enWrites (c : Chip) (p : Nat) (f : Nat → Nat) {k : Nat} (hk : k < 8) :
    (c.putFlds (enWrites p f)).fld (RCH_CTRL_EN (8 * p + k)) = f k % 2 :=
  fld_putFlds_mem c (by simp [enWrites, RCH_CTRL_EN]) (enWrites_apart p f) (x := (RCH_CTRL_EN (8 * p + k), f k))
    (List.mem_map.2 ⟨k, List.mem_range.2 hk, rfl⟩)

theorem fld_enWrites_apart (c : Chip) (p : Nat) (f : Nat → Nat) {g : Fld} (hg : g.lo + g.w ≤ 64) (hreg : ∀ l, g.reg ≠ RCH_CTRL l) :
    (c.putFlds (enWrites p f)).fld g = c.fld g :=
  fld_putFlds_apart c hg fun x hx => by
    obtain ⟨k, -, rfl⟩ := List.mem_map.1 hx
    exact apart_of_reg (hreg _)

theorem reg_putFlds_other (c : Chip) {ws : List (Fld × Nat)} {o : Nat} (h : ∀ x ∈ ws, o ≠ x.1.reg) : (c.putFlds ws).reg o = c.reg o := by
  induction ws generalizing c with
  | nil => rfl
  | cons x ws ih =>
    exact (ih (c.setFld x.1 x.2) fun y hy => h y (List.mem_cons_of_mem _ hy)).trans (reg_setFld_other _ _ _ _ (h x List.mem_cons_self))

/-- The strategy of a write channel is read from its own registers. -/
theorem stratOf_congr {c c' : Chip} {p : Nat} (hstrat : ∀ i < 8, c'.reg (WCH_STRAT p i) = c.reg (WCH_STRAT p i))
    (hmp : c'.reg (WCH_STRAT_MP p) = c.reg (WCH_STRAT_MP p)) : c'.stratOf p = c.stratOf p := by
  simp only [Chip.stratOf, hmp]
  congr 1
  exact List.map_congr_left fun i hi => hstrat i (List.mem_range.1 hi)

section passes
variable {s : State} {p : Pickup}

/-! ### Starting a pass (R254, R265) -/

/-- The register writes of a pass's start: no lane is enabled, and the channel shows the pass. -/
def startWrites (p : Nat) (a : Pass) (passes : Nat) : List (Fld × Nat) :=
  (enWrites p fun _ => 0) ++ [(WCH_STATUS_PASSING p, 1), (WCH_STATUS_VERIFY_MODE p, 1), (WCH_PASSES_COUNT p, passes), (WCH_STATUS_FURROW p, a.furrow),
    (WCH_STATUS_LAYER p, a.layer)]

/-- The registers once a pass has started. -/
def Chip.passRegs (c : Chip) (p : Nat) (a : Pass) : Chip :=
  c.putFlds (startWrites p a (min (c.fld (WCH_PASSES_COUNT p) + 1) (2 ^ 32 - 1)))

theorem startWrites_apart {p : Nat} (_hp : p < 16) (a : Pass) (n : Nat) : (startWrites p a n).Pairwise fun x y => apart x.1 y.1 := by
  refine List.pairwise_append.2 ⟨enWrites_apart p _, ?_, fun x hx y hy => ?_⟩
  · simp [apart, WCH_STATUS_PASSING, WCH_STATUS_VERIFY_MODE, WCH_PASSES_COUNT, WCH_STATUS_FURROW, WCH_STATUS_LAYER, WCH_STATUS, WCH_PASSES]
  · obtain ⟨k, hk, rfl⟩ := List.mem_map.1 hx
    have hk := List.mem_range.1 hk
    have hreg : y.1.reg = WCH_STATUS p ∨ y.1.reg = WCH_PASSES p := by
      simp only [List.mem_cons, List.not_mem_nil, or_false] at hy
      obtain rfl | rfl | rfl | rfl | rfl := hy
      · exact .inl rfl
      · exact .inl rfl
      · exact .inr rfl
      · exact .inl rfl
      · exact .inl rfl
    simp only [WCH_STATUS, WCH_PASSES] at hreg
    exact apart_of_reg (by simp only [RCH_CTRL_EN, RCH_CTRL]; omega)

theorem fld_passRegs (c : Chip) {p : Nat} (hp : p < 16) (a : Pass) {f : Fld} {v : Nat}
    (hx : (f, v) ∈ startWrites p a (min (c.fld (WCH_PASSES_COUNT p) + 1) (2 ^ 32 - 1))) : (c.passRegs p a).fld f = v % 2 ^ f.w := by
  refine fld_putFlds_mem (x := (f, v)) c (fun y hy => ?_) (startWrites_apart hp a _) hx
  rw [startWrites, List.mem_append] at hy
  obtain hy | hy := hy
  · obtain ⟨k, -, rfl⟩ := List.mem_map.1 hy
    simp [RCH_CTRL_EN]
  · simp only [List.mem_cons, List.not_mem_nil, or_false] at hy
    obtain rfl | rfl | rfl | rfl | rfl := hy <;> simp [WCH_STATUS_PASSING, WCH_STATUS_VERIFY_MODE, WCH_PASSES_COUNT, WCH_STATUS_FURROW, WCH_STATUS_LAYER]

/-- What a pass's start makes of the write channel. -/
def WchRec.started (w : WchRec) (a : Pass) (strat : List Word) (en : Nat) : WchRec :=
  { w with queued := none, pass := some { a with at_ := a.s1, strat := strat }, cur := none, lanesEn := en, failedW := 0, syncOffsets := [],
           underrun := false, stopAsked := false }

/-- What the registers show once a pass has started. -/
theorem passRegs_shows (c : Chip) {p : Nat} (hp : p < 16) (a : Pass) :
    (c.passRegs p a).fld (WCH_STATUS_PASSING p) = 1 ∧ (c.passRegs p a).fld (WCH_STATUS_VERIFY_MODE p) = 1 ∧
    (c.passRegs p a).fld (WCH_STATUS_FURROW p) = a.furrow % 8 ∧ (c.passRegs p a).fld (WCH_STATUS_LAYER p) = a.layer % 16 ∧
    (c.passRegs p a).fld (WCH_PASSES_COUNT p) = min (c.fld (WCH_PASSES_COUNT p) + 1) (2 ^ 32 - 1) ∧
    ∀ k < 8, (c.passRegs p a).fld (RCH_CTRL_EN (8 * p + k)) = 0 := by
  have hcount : min (c.fld (WCH_PASSES_COUNT p) + 1) (2 ^ 32 - 1) < 2 ^ (WCH_PASSES_COUNT p).w := by
    simp only [WCH_PASSES_COUNT]
    omega
  refine ⟨?_, ?_, ?_, ?_, ?_, fun k hk => ?_⟩
  · rw [fld_passRegs c hp a (v := 1) (by simp [startWrites]), WCH_STATUS_PASSING]
    norm_num
  · rw [fld_passRegs c hp a (v := 1) (by simp [startWrites]), WCH_STATUS_VERIFY_MODE]
    norm_num
  · rw [fld_passRegs c hp a (v := a.furrow) (by simp [startWrites]), WCH_STATUS_FURROW]
    norm_num
  · rw [fld_passRegs c hp a (v := a.layer) (by simp [startWrites]), WCH_STATUS_LAYER]
    norm_num
  · rw [fld_passRegs c hp a (v := min (c.fld (WCH_PASSES_COUNT p) + 1) (2 ^ 32 - 1)) (by simp [startWrites]), Nat.mod_eq_of_lt hcount]
  · rw [fld_passRegs c hp a (v := 0) (List.mem_append_left _ (List.mem_map.2 ⟨k, List.mem_range.2 hk, rfl⟩)), Nat.zero_mod]

/-- The strategy is not written by a pass's start. -/
theorem stratOf_passRegs (c : Chip) {p : Nat} (_hp : p < 16) (a : Pass) : (c.passRegs p a).stratOf p = c.stratOf p := by
  have hother : ∀ o, o ≠ WCH_STATUS p → o ≠ WCH_PASSES p → (∀ l < 8, o ≠ RCH_CTRL (8 * p + l)) → (c.passRegs p a).reg o = c.reg o := by
    intro o hstatus hpasses hctrl
    refine reg_putFlds_other _ fun x hx => ?_
    rw [startWrites, List.mem_append] at hx
    obtain hx | hx := hx
    · obtain ⟨k, hk, rfl⟩ := List.mem_map.1 hx
      exact hctrl k (List.mem_range.1 hk)
    · simp only [List.mem_cons, List.not_mem_nil, or_false] at hx
      obtain rfl | rfl | rfl | rfl | rfl := hx
      · exact hstatus
      · exact hstatus
      · exact hpasses
      · exact hstatus
      · exact hstatus
  refine stratOf_congr (fun i hi => hother _ ?_ ?_ fun l hl => ?_) (hother _ ?_ ?_ fun l hl => ?_)
  all_goals
    simp only [WCH_STRAT, WCH_STATUS, WCH_PASSES, WCH_STRAT_MP, RCH_CTRL]
    omega

theorem setFld_setLane (c : Chip) (k : Nat) (x : LaneRec) (f : Fld) (v : Nat) : (c.setLane k x).setFld f v = (c.setFld f v).setLane k x := rfl

theorem putFlds_cons (c : Chip) (x : Fld × Nat) (ws : List (Fld × Nat)) : c.putFlds (x :: ws) = (c.setFld x.1 x.2).putFlds ws := rfl
theorem putFlds_nil (c : Chip) : c.putFlds [] = c := rfl

theorem lane_setWch (c : Chip) (k x j) : (c.setWch k x).lane j = c.lane j := rfl

/-- EN bits of the eight lanes of a pickup as a number. -/
def Chip.lanesEnabled (c : Chip) (p : Nat) : Nat :=
  ((List.range 8).map (8 * p + ·)).foldl (fun n l => n + 2 ^ (l % 8) * c.fld (RCH_CTRL_EN l)) 0

theorem startPass_eq (c : Chip) {p : Nat} (hp : p < 16) (a : Pass) : c.startPass p a =
    ((c.passRegs p a).setLane (8 * p) { c.lane (8 * p) with verify := true, landNext := true }).setWch p
      ((c.wch p).started a (c.stratOf p) (c.lanesEnabled p)) := by
  have hen : ((List.range 8).map (8 * p + ·)).foldl (fun c l => c.setFld (RCH_CTRL_EN l) 0) c = c.putFlds (enWrites p fun _ => 0) := by
    simp only [Chip.putFlds, enWrites, List.foldl_map]
  have hpasses : (((c.putFlds (enWrites p fun _ => 0)).setFld (WCH_STATUS_PASSING p) 1).setFld (WCH_STATUS_VERIFY_MODE p) 1).fld (WCH_PASSES_COUNT p) =
      c.fld (WCH_PASSES_COUNT p) := by
    rw [fld_setFld_apart _ _ _ _ (by simp [WCH_PASSES_COUNT]) (by simp [apart, WCH_PASSES_COUNT, WCH_STATUS_VERIFY_MODE, WCH_STATUS, WCH_PASSES]),
      fld_setFld_apart _ _ _ _ (by simp [WCH_PASSES_COUNT]) (by simp [apart, WCH_PASSES_COUNT, WCH_STATUS_PASSING, WCH_STATUS, WCH_PASSES])]
    refine fld_putFlds_apart _ (by simp [WCH_PASSES_COUNT]) fun x hx => ?_
    obtain ⟨k, hk, rfl⟩ := List.mem_map.1 hx
    have := List.mem_range.1 hk
    exact apart_of_reg (by simp only [WCH_PASSES_COUNT, WCH_PASSES, RCH_CTRL_EN, RCH_CTRL]; omega)
  have hw : 2 ^ (WCH_PASSES_COUNT p).w - 1 = 2 ^ 32 - 1 := rfl
  have hlanes : c.lanesEnabled p = ((List.range 8).map (8 * p + ·)).foldl (fun n l => n + 2 ^ (l % 8) * c.fld (RCH_CTRL_EN l)) 0 := rfl
  have hregs : c.passRegs p a = ((((((c.putFlds (enWrites p fun _ => 0)).setFld (WCH_STATUS_PASSING p) 1).setFld (WCH_STATUS_VERIFY_MODE p) 1).setFld
      (WCH_PASSES_COUNT p) (min (c.fld (WCH_PASSES_COUNT p) + 1) (2 ^ 32 - 1))).setFld (WCH_STATUS_FURROW p) a.furrow).setFld (WCH_STATUS_LAYER p) a.layer) := by
    simp only [Chip.passRegs, startWrites, putFlds_append, putFlds_cons, putFlds_nil]
  have hstrat : ∀ (d : Chip) x, (d.setLane (8 * p) x).stratOf p = d.stratOf p := fun _ _ => rfl
  have hcomm := setFld_setLane
  have hread := fld_setLane
  simp only [Chip.startPass, hen, Chip.updLane, lane_putFlds, Chip.inc, Chip.add, hcomm, hread, hpasses, hw, ← hregs, hstrat,
    stratOf_passRegs c hp a, ← hlanes, WchRec.started]

theorem bytesKept_setLane {a b : Chip} (k x) (h : a.bytesKept b) : a.bytesKept (b.setLane k x) := h
theorem bytesKept_setWch {a b : Chip} (k x) (h : a.bytesKept b) : a.bytesKept (b.setWch k x) := h

/-- What a write channel shows whose pass has started. -/
structure Passing (p : Nat) (a : Pass) (c c' : Chip) : Prop where
  wch : c'.wch p = (c.wch p).started a (c.stratOf p) (c.lanesEnabled p)
  passing : c'.flag (WCH_STATUS_PASSING p) = true
  verifyMode : c'.flag (WCH_STATUS_VERIFY_MODE p) = true
  furrow : c'.fld (WCH_STATUS_FURROW p) = a.furrow % 8
  layer : c'.fld (WCH_STATUS_LAYER p) = a.layer % 16
  verify : (c'.lane (8 * p)).verify = true
  lanes : ∀ k < 8, c'.flag (RCH_CTRL_EN (8 * p + k)) = false
  passes : c'.fld (WCH_PASSES_COUNT p) = min (c.fld (WCH_PASSES_COUNT p) + 1) (2 ^ 32 - 1)
  bytes : c.bytesKept c'

theorem passing_startPass (c : Chip) {p : Nat} (hp : p < 16) (a : Pass) : Passing p a c (c.startPass p a) := by
  rw [startPass_eq _ hp]
  have hbytes : c.bytesKept (c.passRegs p a) := by
    rw [Chip.passRegs]
    exact bytesKept_of_regsOnly (regsOnly_putFlds _ _)
  obtain ⟨hpassing, hverify, hfurrow, hlayer, hpasses, hen⟩ := passRegs_shows c hp a
  generalize c.passRegs p a = d at hbytes hpassing hverify hfurrow hlayer hpasses hen
  have hfld : ∀ x w f, ((d.setLane (8 * p) x).setWch p w).fld f = d.fld f := fun _ _ _ => by rw [fld_setWch, fld_setLane]
  have hflag : ∀ x w f, ((d.setLane (8 * p) x).setWch p w).flag f = d.flag f := fun _ _ _ => by rw [flag_setWch, flag_setLane]
  exact { wch := wch_setWch _ _ _
          passing := by rw [hflag, Chip.flag, hpassing]; rfl
          verifyMode := by rw [hflag, Chip.flag, hverify]; rfl
          furrow := (hfld _ _ _).trans hfurrow
          layer := (hfld _ _ _).trans hlayer
          verify := by rw [lane_setWch, lane_setLane]
          lanes := fun k hk => by rw [hflag, Chip.flag, hen k hk]; rfl
          passes := (hfld _ _ _).trans hpasses
          bytes := bytesKept_setWch _ _ (bytesKept_setLane _ _ hbytes) }

theorem completes_passStart {a : Pass} (hqueued : (s.chip.wch p).queued = some a) (hready : s.chip.passReady p a = true) :
    Completes (.passStart p) s (Passing p a s.chip) := by
  refine completes_on (show exec (.passStart p) s = execPassStart p s from rfl) ?_
  simp only [hqueued, Chip.when, hready, if_true]
  exact passing_startPass _ p.isLt a

/-! ### Slots, underruns and STOP (R257, R258, R267) -/

theorem endSlot_none {c : Chip} {p : Nat} (h : (c.wch p).cur = none) : c.endSlot p = c := by
  simp only [Chip.endSlot, h]

/-- What a slot with an item makes of the write channel: the item leaves its place, and the pass stands at the next slot. -/
theorem wch_recordSlot (c : Chip) (p : Nat) (a : Pass) (it : WriteItem) :
    ((c.recordSlot p a it).wch p).cur = some it ∧ ((c.recordSlot p a it).wch p).pass = some { a with at_ := a.at_ + 1 } := by
  simp only [Chip.recordSlot, wch_setWch]
  exact ⟨trivial, trivial⟩

/-- A slot with an item writes the slot's number, and else only its own channel. -/
theorem recordSlot_regs (c : Chip) (p : Nat) (a : Pass) (it : WriteItem) : (c.recordSlot p a it).regs = (c.setFld (WCH_SLOT_SLOT p) a.at_).regs := by
  simp only [Chip.recordSlot, setWch_regs]
  rfl

theorem bytesKept_recordSlot (c : Chip) (p : Nat) (a : Pass) (it : WriteItem) : c.bytesKept (c.recordSlot p a it) := by
  simp only [Chip.recordSlot]
  exact bytesKept_of_eq rfl rfl rfl

theorem passSlot_item {c : Chip} {p : Nat} {a : Pass} {it : WriteItem} (hpass : (c.wch p).pass = some a) (hat : a.at_ ≤ a.s2)
    (hcur : (c.wch p).cur = none) (hstop : (c.wch p).stopAsked = false) (hunder : (c.wch p).underrun = false)
    (hitem : c.slotItem p a a.at_ = some it) : c.passSlot p = c.recordSlot p a it := by
  have hskip : c.skipsSlot p a a.at_ = false := by simp [Chip.skipsSlot, hitem]
  simp only [Chip.passSlot, hpass, if_neg hat.not_gt, endSlot_none hcur, hstop, hunder, hskip, Bool.false_eq_true, if_false, hitem]

theorem completes_passSlot {a : Pass} {it : WriteItem} (hpass : (s.chip.wch p).pass = some a) (hat : a.at_ ≤ a.s2)
    (hcur : (s.chip.wch p).cur = none) (hstop : (s.chip.wch p).stopAsked = false) (hunder : (s.chip.wch p).underrun = false)
    (hitem : s.chip.slotItem p a a.at_ = some it) : Completes (.passSlot p) s fun c =>
      (c.wch p).cur = some it ∧ (c.wch p).pass = some { a with at_ := a.at_ + 1 } ∧ c.fld (WCH_SLOT_SLOT p) = a.at_ % 2 ^ 32 ∧
      s.chip.fieldsKept [WCH_SLOT_SLOT p] c ∧ s.chip.bytesKept c := by
  refine completes_on (f := fun c => c.passSlot p) rfl ?_
  rw [passSlot_item hpass hat hcur hstop hunder hitem]
  refine ⟨(wch_recordSlot _ _ _ _).1, (wch_recordSlot _ _ _ _).2, ?_, ?_, bytesKept_recordSlot _ _ _ _⟩
  · rw [fld_of_regs (recordSlot_regs _ _ _ _), fld_setFld_same _ _ _ (by simp [WCH_SLOT_SLOT]), WCH_SLOT_SLOT]
  · exact fieldsKept_regs (recordSlot_regs _ _ _ _) (fieldsKept_setFld _ _ List.mem_cons_self (fieldsKept_refl _ _))

theorem completes_underrun {a : Pass} (hpass : (s.chip.wch p).pass = some a) (hat : a.at_ ≤ a.s2) (hunder : (s.chip.wch p).underrun = false)
    (hstop : (s.chip.wch p).stopAsked = false) (hskip : s.chip.skipsSlot p a a.at_ = false) (hitems : (s.chip.wch p).items = [])
    (hitem : s.chip.slotItem p a a.at_ = none) : Completes (.underrun p) s fun c =>
      (c.wch p).underrun = true ∧ (c.wch p).pass = some a ∧ c.flag (WCH_EVENT_UNDERRUN p) = true ∧
      c.fld (WCH_UNDERRUNS_COUNT p) = min (s.chip.fld (WCH_UNDERRUNS_COUNT p) + 1) (2 ^ 32 - 1) ∧
      s.chip.fieldsKept [WCH_EVENT_UNDERRUN p, WCH_UNDERRUNS_COUNT p] c ∧ s.chip.bytesKept c := by
  refine completes_on (show exec (.underrun p) s = execUnderrun p s from rfl) ?_
  simp only [hpass, Chip.when, hat, hunder, hstop, hskip, hitems, hitem, decide_true, Bool.not_false, Bool.and_self, List.isEmpty_nil,
    Option.isNone_none, if_true, Chip.noteUnderrun]
  have hwch : ∀ x f g, (((s.chip.setWch p x).inc f).mark g).wch p = x := fun x f g => wch_setWch s.chip p x
  have hregs : ∀ x, (s.chip.setWch p x).regs = s.chip.regs := fun _ => rfl
  refine ⟨by rw [hwch], by rw [hwch], flag_mark_same _ _ (by simp [WCH_EVENT_UNDERRUN]) (by simp [WCH_EVENT_UNDERRUN]), ?_, ?_,
    bytesKept_of_eq rfl rfl rfl⟩
  · rw [fld_mark_apart _ _ _ (by simp [WCH_UNDERRUNS_COUNT]) (by simp [apart, WCH_UNDERRUNS_COUNT, WCH_EVENT_UNDERRUN, WCH_UNDERRUNS, WCH_EVENT]),
      fld_inc_same _ _ (by simp [WCH_UNDERRUNS_COUNT]), fld_of_regs (hregs _)]
    rfl
  · exact fieldsKept_mark _ (by simp) (fieldsKept_inc _ (by simp) (fieldsKept_of_regs (hregs _)))

theorem completes_stopPass (hpass : (s.chip.wch p).pass.isSome = true) : Completes (.stopPass p) s fun c =>
    c.wch p = { s.chip.wch p with stopAsked := true } ∧ c.regs = s.chip.regs ∧ s.chip.bytesKept c := by
  refine completes_on (f := fun c => c.stopPass p) rfl ?_
  simp only [Chip.stopPass, Chip.when, if_pos hpass]
  exact ⟨wch_setWch _ _ _, rfl, bytesKept_of_eq rfl rfl rfl⟩

/-! ### The end of a pass (R254, R267) -/

/-- What the end of a pass makes of the write channel. -/
def WchRec.ended (w : WchRec) : WchRec := { w with pass := none, cur := none, symbols := [], framesE := 0, stopAsked := false, underrun := false }

/-- The writes of a pass's end. -/
def closeWrites (p : Nat) (en : Nat) : List (Fld × Nat) :=
  [(WCH_STATUS_PASSING p, 0), (WCH_STATUS_VERIFY_MODE p, 0)] ++ enWrites p fun k => bitsOf en k 1

theorem putFlds_setLane (c : Chip) (k : Nat) (x : LaneRec) (ws : List (Fld × Nat)) : (c.setLane k x).putFlds ws = (c.putFlds ws).setLane k x := by
  induction ws generalizing c with
  | nil => rfl
  | cons w ws ih =>
    rw [putFlds_cons, setFld_setLane, ih, ← putFlds_cons]

/-- The channel and its lane once a pass has ended, before the way back to the furrow. -/
def Chip.passClosed (c : Chip) (p : Nat) : Chip :=
  ((c.putFlds (closeWrites p (c.wch p).lanesEn)).setLane (8 * p) { c.lane (8 * p) with verify := false }).setWch p (c.wch p).ended

theorem wch_putFlds (c : Chip) (ws : List (Fld × Nat)) (k : Nat) : (c.putFlds ws).wch k = c.wch k := by
  have h : c.putFlds ws = { c with regs := (c.putFlds ws).regs } := regsOnly_putFlds c ws
  rw [h]
  rfl

theorem lane_setSeqr (c : Chip) (k x j) : (c.setSeqr k x).lane j = c.lane j := rfl

theorem wch_setLane (c : Chip) (k x j) : (c.setLane k x).wch j = c.wch j := rfl

theorem closePass_eq {c : Chip} {p : Nat} {a : Pass} (hpass : (c.wch p).pass = some a) :
    c.closePass p = if a.furrow = 0 then c.passClosed p else (c.passClosed p).backJump p a.furrow := by
  have hfold : ∀ (d : Chip) n, (List.range 8).foldl (fun c k => c.setFld (RCH_CTRL_EN (8 * p + k)) (bitsOf n k 1)) d =
      d.putFlds (enWrites p fun k => bitsOf n k 1) := fun d n => by simp only [Chip.putFlds, enWrites, List.foldl_map]
  have hsplit : ∀ n, ((c.setFld (WCH_STATUS_PASSING p) 0).setFld (WCH_STATUS_VERIFY_MODE p) 0).putFlds (enWrites p fun k => bitsOf n k 1) =
      c.putFlds (closeWrites p n) := fun n => by
    rw [closeWrites, putFlds_append]
    simp only [putFlds_cons, putFlds_nil]
  have hlane : ((c.setFld (WCH_STATUS_PASSING p) 0).setFld (WCH_STATUS_VERIFY_MODE p) 0).lane (8 * p) = c.lane (8 * p) :=
    lane_of_regsOnly (regsOnly_setFld _ _ (regsOnly_setFld _ _ (regsOnly_refl c))) _
  have hmove := putFlds_setLane
  have hwch := wch_setLane
  simp only [Chip.closePass, hpass, hfold, hmove, hsplit, hlane, hwch, wch_putFlds, Chip.passClosed, WchRec.ended]

theorem closeWrites_apart {p : Nat} (_hp : p < 16) (en : Nat) : (closeWrites p en).Pairwise fun x y => apart x.1 y.1 := by
  refine List.pairwise_append.2 ⟨?_, enWrites_apart p _, fun x hx y hy => ?_⟩
  · simp [apart, WCH_STATUS_PASSING, WCH_STATUS_VERIFY_MODE]
  · obtain ⟨k, hk, rfl⟩ := List.mem_map.1 hy
    have hk := List.mem_range.1 hk
    have hreg : x.1.reg = WCH_STATUS p := by
      simp only [List.mem_cons, List.not_mem_nil, or_false] at hx
      obtain rfl | rfl := hx <;> rfl
    simp only [WCH_STATUS] at hreg
    exact apart_of_reg (by simp only [RCH_CTRL_EN, RCH_CTRL]; omega)

theorem closeWrites_fit (p en : Nat) : ∀ x ∈ closeWrites p en, x.1.lo + x.1.w ≤ 64 := fun y hy => by
  rw [closeWrites, List.mem_append] at hy
  obtain hy | hy := hy
  · simp only [List.mem_cons, List.not_mem_nil, or_false] at hy
    obtain rfl | rfl := hy <;> simp [WCH_STATUS_PASSING, WCH_STATUS_VERIFY_MODE]
  · obtain ⟨k, -, rfl⟩ := List.mem_map.1 hy
    simp [RCH_CTRL_EN]

theorem wch_setBoot (c : Chip) (b) (k : Nat) : (c.setBoot b).wch k = c.wch k := rfl

/-- What a write channel shows whose pass has ended. -/
structure PassEnded (p : Nat) (c c' : Chip) : Prop where
  pass : (c'.wch p).pass = none
  passing : c'.flag (WCH_STATUS_PASSING p) = false
  verifyMode : c'.flag (WCH_STATUS_VERIFY_MODE p) = false
  verify : (c'.lane (8 * p)).verify = false
  lanes : ∀ k < 8, c'.flag (RCH_CTRL_EN (8 * p + k)) = (c.wch p).lanesEn.testBit k
  bytes : c.bytesKept c'

theorem passEnded_passClosed (c : Chip) {p : Nat} (hp : p < 16) : PassEnded p c (c.passClosed p) := by
  have hfld : ∀ f v, (f, v) ∈ closeWrites p (c.wch p).lanesEn → (c.passClosed p).fld f = v % 2 ^ f.w := fun f v h => by
    rw [Chip.passClosed, fld_setWch, fld_setLane]
    exact fld_putFlds_mem (x := (f, v)) c (closeWrites_fit p _) (closeWrites_apart hp _) h
  refine ⟨?_, ?_, ?_, ?_, fun k hk => ?_, ?_⟩
  · rw [Chip.passClosed, wch_setWch]
    rfl
  · rw [Chip.flag, hfld _ 0 (by simp [closeWrites]), Nat.zero_mod]
    rfl
  · rw [Chip.flag, hfld _ 0 (by simp [closeWrites]), Nat.zero_mod]
    rfl
  · rw [Chip.passClosed, lane_setWch, lane_setLane]
  · rw [Chip.flag, hfld _ (bitsOf (c.wch p).lanesEn k 1) (List.mem_append_right _ (List.mem_map.2 ⟨k, List.mem_range.2 hk, rfl⟩)), RCH_CTRL_EN, bitsOf,
      Nat.testBit, Nat.shiftRight_eq_div_pow]
    simp
  · rw [Chip.passClosed]
    exact bytesKept_setWch _ _ (bytesKept_setLane _ _ (bytesKept_of_regsOnly (regsOnly_putFlds _ _)))

/-- The way back to the furrow changes nothing of that. -/
theorem PassEnded.backJump {p : Nat} {c c' : Chip} (h : PassEnded p c c') (hp : p < 16) (f : Nat) : PassEnded p c (c'.backJump p f) := by
  have hfld : ∀ g : Fld, g.lo + g.w ≤ 64 → g.reg ≠ LE_PAIR_EVENT p → (c'.backJump p f).fld g = c'.fld g := fun g hg hreg => by
    rw [Chip.backJump, fld_setSeqr]
    exact fieldsKept_pushCmd _ _ _ _ g hg fun x hx => by
      rw [List.mem_singleton.1 hx]
      exact apart_of_reg hreg
  have hflag : ∀ g : Fld, g.lo + g.w ≤ 64 → g.reg ≠ LE_PAIR_EVENT p → (c'.backJump p f).flag g = c'.flag g := fun g hg hreg => by
    rw [Chip.flag, hfld g hg hreg, ← Chip.flag]
  have hwch : (c'.backJump p f).wch p = c'.wch p := by
    rw [Chip.backJump, wch_setSeqr]
    exact wch_loopCmd c' p 4 (256 - f) p
  refine ⟨hwch ▸ h.pass, ?_, ?_, ?_, fun k hk => ?_, ?_⟩
  · rw [hflag _ (by simp [WCH_STATUS_PASSING]) (by simp only [WCH_STATUS_PASSING, WCH_STATUS, LE_PAIR_EVENT]; omega), h.passing]
  · rw [hflag _ (by simp [WCH_STATUS_VERIFY_MODE]) (by simp only [WCH_STATUS_VERIFY_MODE, WCH_STATUS, LE_PAIR_EVENT]; omega), h.verifyMode]
  · rw [Chip.backJump, lane_setSeqr, lane_pushCmd, h.verify]
  · rw [hflag _ (by simp [RCH_CTRL_EN]) (by simp only [RCH_CTRL_EN, RCH_CTRL, LE_PAIR_EVENT]; omega), h.lanes k hk]
  · rw [Chip.backJump]
    exact bytesKept_setSeqr _ _ (bytesKept_trans h.bytes (bytesKept_pushCmd _ _ _ _))

theorem completes_passComplete {a : Pass} (hpass : (s.chip.wch p).pass = some a) (hover : a.s2 < a.at_) (hcur : (s.chip.wch p).cur = none)
    (hrelocs : (s.chip.wch p).relocs = []) : Completes (.passComplete p) s (PassEnded p s.chip) := by
  refine completes_on (f := fun c => c.passComplete p) rfl ?_
  have hmore : s.chip.pendingSpares p a = [] := by simp only [Chip.pendingSpares, hrelocs, List.filter_nil, List.map_nil]
  have hgoes : ∀ b : Prop, ¬ (b ∧ ([] : List Nat) ≠ [] ∧ (!(s.chip.wch p).stopAsked) = true) := fun b h => h.2.1 rfl
  have hclose : s.chip.passComplete p = s.chip.closePass p := by
    simp only [Chip.passComplete, hpass, if_neg hover.not_ge, endSlot_none hcur, hmore, if_neg (hgoes _)]
  rw [hclose, closePass_eq hpass]
  split_ifs
  · exact passEnded_passClosed _ p.isLt
  · exact (passEnded_passClosed _ p.isLt).backJump p.isLt _

/-! ### A parity block that fails verify (R270, R271, R278) -/

theorem adjustLead_idle {c : Chip} {p : Nat} (h : (c.wch p).syncOffsets = []) : c.adjustLead p = c :=
  if_pos (.inr (.inr h))

/-- The channel once the verify result that waited longest has failed. -/
def Chip.verifyFailed (c : Chip) (p : Nat) (rest : List Recorded) : Chip :=
  ((c.setWch p { c.wch p with results := rest }).inc (WCH_VERIFY_FAILS_COUNT p)).mark (WCH_EVENT_VERIFY_FAIL p)

/-- A parity block that failed is put on the defect list, shown and logged. -/
def Chip.parityWeak (c : Chip) (p pba : Nat) : Chip :=
  ((c.putDefect p ⟨pba, 2, 0, (c.vol p).session⟩).mark (WCH_EVENT_PARITY_WEAK p)).log 0x0403 .m (detBytes 5 pba)

theorem wch_parityWeak (c : Chip) (p pba k : Nat) : (c.parityWeak p pba).wch k = c.wch k := rfl
theorem host_parityWeak (c : Chip) (p pba : Nat) : (c.parityWeak p pba).host = c.host := rfl
theorem regs_parityWeak (c : Chip) (p pba : Nat) : (c.parityWeak p pba).regs = (c.mark (WCH_EVENT_PARITY_WEAK p)).regs := rfl

theorem wch_verifyFailed (c : Chip) (p : Nat) (rest : List Recorded) : (c.verifyFailed p rest).wch p = { c.wch p with results := rest } :=
  (show (c.verifyFailed p rest).wch p = (c.setWch p { c.wch p with results := rest }).wch p from rfl).trans (wch_setWch _ _ _)

theorem host_verifyFailed (c : Chip) (p : Nat) (rest : List Recorded) : (c.verifyFailed p rest).host = c.host := rfl

theorem verifyResult_parity {c : Chip} {p : Nat} {r : Recorded} {rest : List Recorded} {v : VerifyIn} (hbad : v.wOk = false) (hflags : r.item.flags = 1)
    (hsync : (c.wch p).syncOffsets = []) : c.verifyResult p r rest v = ((c.verifyFailed p rest).parityWeak p r.item.slotPba).volStep p := by
  have hmgmt : (1 : Nat).testBit 2 = false := by decide
  have hparity : (1 : Nat).testBit 0 = true := by decide
  have hidle : ((c.verifyFailed p rest).parityWeak p r.item.slotPba).adjustLead p = (c.verifyFailed p rest).parityWeak p r.item.slotPba :=
    adjustLead_idle (by rw [wch_parityWeak, wch_verifyFailed]; exact hsync)
  rw [← hidle]
  simp only [Chip.verifyResult, hbad, hflags, hmgmt, hparity, Bool.and_false, Bool.false_and, Bool.false_eq_true, if_false, if_true, Chip.parityWeak,
    Chip.verifyFailed]

theorem completes_verifyResult {r : Recorded} {rest : List Recorded} {v : VerifyIn} (hresults : (s.chip.wch p).results = r :: rest)
    (hlen : v.dec.length = 57352) (hbad : v.wOk = false) (hflags : r.item.flags = 1) (hcmds : s.chip.host.cmds = [])
    (hsync : (s.chip.wch p).syncOffsets = []) : Completes (.verifyResult p v) s fun c =>
      (c.wch p).results = rest ∧ c.flag (WCH_EVENT_VERIFY_FAIL p) = true ∧ c.flag (WCH_EVENT_PARITY_WEAK p) = true ∧
      c.fld (WCH_VERIFY_FAILS_COUNT p) = min (s.chip.fld (WCH_VERIFY_FAILS_COUNT p) + 1) (2 ^ 32 - 1) ∧
      s.chip.fieldsKept [WCH_EVENT_VERIFY_FAIL p, WCH_EVENT_PARITY_WEAK p, WCH_VERIFY_FAILS_COUNT p] c := by
  refine completes_onIf (show exec (.verifyResult p v) s = execVerifyResult p v s from rfl) (by simp [hlen]) ?_
  simp only [hresults]
  rw [verifyResult_parity hbad hflags hsync]
  have hwch := (wch_parityWeak (s.chip.verifyFailed p rest) p r.item.slotPba p).trans (wch_verifyFailed s.chip p rest)
  have hregs := regs_parityWeak (s.chip.verifyFailed p rest) p r.item.slotPba
  obtain ⟨b, hb⟩ := volStep_quiet (c := (s.chip.verifyFailed p rest).parityWeak p r.item.slotPba)
    (by rw [host_parityWeak, host_verifyFailed, hcmds]) p
  rw [hb]
  generalize (s.chip.verifyFailed p rest).parityWeak p r.item.slotPba = d at hwch hregs
  have hset : ∀ x, (s.chip.setWch p x).regs = s.chip.regs := fun _ => rfl
  have hregs : (d.setBoot b).regs = ((s.chip.verifyFailed p rest).mark (WCH_EVENT_PARITY_WEAK p)).regs := hregs
  refine ⟨?_, ?_, ?_, ?_, ?_⟩
  · rw [wch_setBoot, hwch]
  · rw [flag_eq_of_fld (fld_of_regs hregs _), Chip.verifyFailed, flag_mark_apart _ _ _ (by simp [WCH_EVENT_VERIFY_FAIL])
      (by simp [apart, WCH_EVENT_VERIFY_FAIL, WCH_EVENT_PARITY_WEAK])]
    exact flag_mark_same _ _ (by simp [WCH_EVENT_VERIFY_FAIL]) (by simp [WCH_EVENT_VERIFY_FAIL])
  · rw [flag_eq_of_fld (fld_of_regs hregs _)]
    exact flag_mark_same _ _ (by simp [WCH_EVENT_PARITY_WEAK]) (by simp [WCH_EVENT_PARITY_WEAK])
  · have hevent : ∀ g : Fld, g.reg = WCH_EVENT p → apart (WCH_VERIFY_FAILS_COUNT p) g := fun g hg =>
      apart_of_reg (by rw [hg]; simp [WCH_VERIFY_FAILS_COUNT, WCH_VERIFY_FAILS, WCH_EVENT])
    rw [fld_of_regs hregs, fld_mark_apart _ _ _ (by simp [WCH_VERIFY_FAILS_COUNT]) (hevent _ rfl), Chip.verifyFailed,
      fld_mark_apart _ _ _ (by simp [WCH_VERIFY_FAILS_COUNT]) (hevent _ rfl), fld_inc_same _ _ (by simp [WCH_VERIFY_FAILS_COUNT]), fld_of_regs (hset _)]
    rfl
  · refine fieldsKept_regs hregs (fieldsKept_mark _ (by simp) ?_)
    rw [Chip.verifyFailed]
    exact fieldsKept_mark _ (by simp) (fieldsKept_inc _ (by simp) (fieldsKept_of_regs (hset _)))

/-! ### The sweep and the survey (R278, R282) -/

theorem pass_setLevel (c : Chip) (p which v) : ((c.setLevel p which v).wch p).pass = (c.wch p).pass := by
  unfold Chip.setLevel
  dsimp only
  split_ifs <;> simp only [wch_setWch]

theorem pass_queuePass (c : Chip) (p : Nat) (a : Pass) : ((c.queuePass p a).wch p).pass = (c.wch p).pass := by
  unfold Chip.queuePass
  dsimp only
  split
  · simp only [pass_setLevel, wch_setWch]
  · simp only [wch_setSeqr, wch_loopCmd, pass_setLevel, wch_setWch]

theorem completes_paritySweep {layer : Fin 10} {furrow : Fin 8} {cluster : Nat} (hcluster : cluster < 244160) (hmay : s.chip.mayParity p = true)
    {a : Pass} (ha : a = { s1 := clusterSlot cluster + 7, s2 := clusterSlot cluster + 7, furrow := furrow, layer := layer, side := (s.chip.vol p).side,
                           at_ := clusterSlot cluster + 7, parityOnly := true }) (hitem : (s.chip.slotItem p a a.s1).isSome = true) :
    Completes (.paritySweep p layer furrow cluster 1) s fun c =>
      (∃ levels, (c.wch p).queued = some { a with levels := levels }) ∧ (c.wch p).pass = none ∧ s.chip.bytesKept c := by
  have hpass : (s.chip.wch p).pass = none := by
    simp only [Chip.mayParity, Bool.and_eq_true] at hmay
    exact Option.isNone_iff_eq_none.1 hmay.1.1.1.1.1
  refine completes_onIf (show exec (.paritySweep p layer furrow cluster 1) s = execParitySweep p layer furrow cluster 1 s from rfl)
    (decide_eq_true ⟨by decide, by omega, by rw [Nat.add_sub_cancel]⟩) ?_
  simp only [Nat.add_sub_cancel]
  have hitem' : (s.chip.slotItem p a (clusterSlot cluster + 7)).isSome = true := by
    rw [ha] at hitem ⊢
    exact hitem
  rw [← ha, Chip.when, if_pos (by rw [hmay, hitem']; rfl)]
  exact ⟨queued_queuePass _ _ _, (pass_queuePass _ _ _).trans hpass, bytesKept_queuePass _ _ _⟩

/-- One block that a survey looks at: an UNKNOWN one becomes BLANK or RECORDED. -/
def Chip.surveyBlock (c : Chip) (p layer cluster : Nat) (mask : BitVec 64) (t : Nat) : Chip :=
  if c.recOf p (clusterLba layer cluster t) = .unknown then
    c.setRec p (clusterLba layer cluster t) (if surveyBlank mask (t % 8) (t / 8) then .blank else .recorded)
  else c

theorem recOf_surveyBlock_other (c : Chip) (p layer cluster : Nat) (mask : BitVec 64) {t u : Nat} (h : u ≠ t) :
    (c.surveyBlock p layer cluster mask t).recOf p (clusterLba layer cluster u) = c.recOf p (clusterLba layer cluster u) := by
  unfold Chip.surveyBlock
  by_cases hrec : c.recOf p (clusterLba layer cluster t) = .unknown
  · rw [if_pos hrec]
    exact recOf_setRec_other _ _ _ (by simp only [clusterLba]; omega)
  · rw [if_neg hrec]

theorem buf_surveyBlock (c : Chip) (p layer cluster : Nat) (mask : BitVec 64) (t : Nat) :
    (c.surveyBlock p layer cluster mask t).buf = c.buf ∧ (c.surveyBlock p layer cluster mask t).host = c.host := by
  unfold Chip.surveyBlock
  split_ifs <;> exact ⟨rfl, rfl⟩

/-- Of a run of blocks a survey leaves the ones it does not look at. -/
theorem recOf_surveyBlocks_other (c : Chip) (p layer cluster : Nat) (mask : BitVec 64) {ts : List Nat} {t : Nat} (h : t ∉ ts) :
    (ts.foldl (fun c t => c.surveyBlock p layer cluster mask t) c).recOf p (clusterLba layer cluster t) = c.recOf p (clusterLba layer cluster t) := by
  induction ts generalizing c with
  | nil => rw [List.foldl_nil]
  | cons u ts ih =>
    rw [List.foldl_cons, ih _ fun hmem => h (List.mem_cons_of_mem _ hmem), recOf_surveyBlock_other _ _ _ _ _ (List.ne_of_not_mem_cons h)]

/-- Each block of the run that was UNKNOWN is decided. -/
theorem recOf_surveyBlocks {c : Chip} {p layer cluster : Nat} {mask : BitVec 64} {ts : List Nat} {t : Nat} (hnodup : ts.Nodup) (ht : t ∈ ts)
    (hrec : c.recOf p (clusterLba layer cluster t) = .unknown) :
    (ts.foldl (fun c t => c.surveyBlock p layer cluster mask t) c).recOf p (clusterLba layer cluster t) =
      if surveyBlank mask (t % 8) (t / 8) then .blank else .recorded := by
  induction ts generalizing c with
  | nil => exact absurd ht List.not_mem_nil
  | cons u ts ih =>
    obtain ⟨hu, hnodup⟩ := List.nodup_cons.1 hnodup
    rw [List.foldl_cons]
    obtain rfl | ht := List.mem_cons.1 ht
    · rw [recOf_surveyBlocks_other _ _ _ _ _ hu, Chip.surveyBlock, if_pos hrec, recOf_setRec_same]
    · exact ih hnodup ht ((recOf_surveyBlock_other _ _ _ _ _ fun h => hu (by rwa [h] at ht)).trans hrec)

theorem buf_surveyBlocks (c : Chip) (p layer cluster : Nat) (mask : BitVec 64) (ts : List Nat) :
    (ts.foldl (fun c t => c.surveyBlock p layer cluster mask t) c).buf = c.buf ∧
    (ts.foldl (fun c t => c.surveyBlock p layer cluster mask t) c).host = c.host := by
  induction ts generalizing c with
  | nil => simp only [List.foldl_nil, and_self]
  | cons u ts ih =>
    rw [List.foldl_cons, (ih _).1, (ih _).2]
    exact buf_surveyBlock _ _ _ _ _ _

/-- A survey of a cluster whose one staged entry lies in a blank home slot: the blocks are decided, and the entry waits no more. -/
theorem surveyCluster_blank {c : Chip} {p layer cluster : Nat} {mask : BitVec 64} {e : Staged} (hcmds : c.host.cmds = []) (hstaged : c.buf.staged = [e])
    (hdisc : (e.volumeId, e.side) = c.discOf p) (hsurvey : e.survey = true) (hstate : e.state = 1) (hlayer : pbaLayer e.homePba = layer)
    (hcluster : slotCluster (pbaSlot e.homePba) = cluster)
    (hblank : surveyBlank mask (pbaFurrow e.homePba) (slotInZone (pbaSlot e.homePba) % 8) = true) :
    ∃ n, c.surveyCluster p layer cluster mask =
      ((List.range 56).foldl (fun c t => c.surveyBlock p layer cluster mask t) (c.add (WCH_SURVEY_SLOTS_COUNT p) n)).updStaged e.seq fun e =>
        { e with survey := false } := by
  have hes : (c.stagedOf (c.discOf p)).filter (fun e => e.survey && e.state == 1 &&
      (pbaLayer e.homePba == layer && slotCluster (pbaSlot e.homePba) == cluster)) = [e] := by
    simp [Chip.stagedOf, hstaged, hdisc, hsurvey, hstate, hlayer, hcluster]
  have hhost : ∀ n, (((List.range 56).foldl (fun c t => c.surveyBlock p layer cluster mask t) (c.add (WCH_SURVEY_SLOTS_COUNT p) n)).updStaged e.seq
      fun e => { e with survey := false }).host.cmds = [] := fun n => by
    have h := (buf_surveyBlocks (c.add (WCH_SURVEY_SLOTS_COUNT p) n) p layer cluster mask (List.range 56)).2
    rw [Chip.updStaged, Chip.setStaged]
    dsimp only
    rw [h]
    exact hcmds
  have hblock : ∀ (d : Chip) t, d.surveyBlock p layer cluster mask t = if d.recOf p (clusterLba layer cluster t) = .unknown then
      d.setRec p (clusterLba layer cluster t) (if surveyBlank mask (t % 8) (t / 8) then .blank else .recorded) else d := fun _ _ => rfl
  refine ⟨64 + 8 * ((List.range 8).filter (fun k => c.flag (RCH_CTRL_DEGRADED (8 * p + k)))).length, ?_⟩
  simp only [Chip.surveyCluster, hes, hcmds, List.any_nil, List.isEmpty_cons, Bool.not_false, Bool.and_false, Bool.false_eq_true, if_false,
    List.foldl_cons, List.foldl_nil, hblank, if_true]
  simp only [← hblock, hhost, List.filter_nil, List.foldl_nil]

theorem completes_survey {layer : Fin 10} {cluster t : Nat} {mask : BitVec 64} {e : Staged} (hcl : cluster < 244160) (hwriting : s.chip.forWriting p = true)
    (hmounted : s.chip.stState (p / 2) = sMounted) (hup : s.chip.flag FLM_STATUS_UP = true) (hfatal : s.chip.isFatal = false)
    (hdegraded : s.chip.flag (RCH_CTRL_DEGRADED (8 * p)) = false) (hcmds : s.chip.host.cmds = []) (hstaged : s.chip.buf.staged = [e])
    (hdisc : (e.volumeId, e.side) = s.chip.discOf p) (hsurvey : e.survey = true) (hstate : e.state = 1) (hlayer : pbaLayer e.homePba = layer.val)
    (hcluster : slotCluster (pbaSlot e.homePba) = cluster)
    (hblank : surveyBlank mask (pbaFurrow e.homePba) (slotInZone (pbaSlot e.homePba) % 8) = true) (ht : t < 56)
    (hrec : s.chip.recOf p (clusterLba layer cluster t) = .unknown) : Completes (.survey p layer cluster mask) s fun c =>
      c.buf.staged = [{ e with survey := false }] ∧
      c.recOf p (clusterLba layer cluster t) = (if surveyBlank mask (t % 8) (t / 8) then .blank else .recorded) := by
  refine completes_onIf (show exec (.survey p layer cluster mask) s = execSurvey p layer cluster mask s from rfl)
    (by simp only [decide_eq_true_eq]; omega) ?_
  simp only [Chip.when, hwriting, hmounted, hup, hfatal, hdegraded, beq_self_eq_true, Bool.not_false, Bool.and_self, if_true, if_pos hcl]
  obtain ⟨n, hn⟩ := surveyCluster_blank (mask := mask) hcmds hstaged hdisc hsurvey hstate hlayer hcluster hblank
  rw [hn]
  obtain ⟨hbuf, hhost⟩ := buf_surveyBlocks (s.chip.add (WCH_SURVEY_SLOTS_COUNT p) n) p layer cluster mask (List.range 56)
  have hrecs := recOf_surveyBlocks (c := s.chip.add (WCH_SURVEY_SLOTS_COUNT p) n) (mask := mask) List.nodup_range (List.mem_range.2 ht) hrec
  generalize (List.range 56).foldl (fun c t => c.surveyBlock p layer cluster mask t) (s.chip.add (WCH_SURVEY_SLOTS_COUNT p) n) = d at hbuf hhost hrecs
  obtain ⟨b, hb⟩ := volStep_quiet (c := d.updStaged e.seq fun e => { e with survey := false }) (show d.host.cmds = [] by rw [hhost]; exact hcmds) p
  rw [hb]
  refine ⟨?_, hrecs⟩
  have hd : d.buf.staged = [e] := by
    rw [hbuf]
    exact hstaged
  rw [setBoot_buf, Chip.updStaged, Chip.setStaged]
  simp only [hd, List.map_cons, List.map_nil, if_true]

end passes

/-- Settles O42, clause by clause. -/
theorem writePasses : Obligations.WritePasses := by
  intro s p
  refine ⟨fun a hqueued hready => ?_, fun a hpass => ⟨fun it hat hcur hstop hunder hitem => completes_passSlot hpass hat hcur hstop hunder hitem,
    fun hat hunder hstop hskip hitems hitem => completes_underrun hpass hat hunder hstop hskip hitems hitem,
    completes_stopPass (by rw [hpass]; rfl), fun hover hcur hrelocs => ?_⟩,
    fun r rest v hresults hlen hbad hflags hcmds hsync => completes_verifyResult hresults hlen hbad hflags hcmds hsync,
    fun layer furrow cluster hcluster hmay hitem => ?_,
    fun layer cluster t mask e hcl hwriting hmounted hup hfatal hdegraded hcmds hstaged hdisc hsurvey hstate hlayer hcluster hblank ht hrec =>
      completes_survey hcl hwriting hmounted hup hfatal hdegraded hcmds hstaged hdisc hsurvey hstate hlayer hcluster hblank ht hrec⟩
  · refine (completes_passStart hqueued hready).imp fun c h => ?_
    rw [h.wch]
    exact ⟨rfl, ⟨_, rfl, rfl, rfl, rfl, rfl⟩, rfl, h.passing, h.verifyMode, h.furrow, h.layer, h.verify, h.lanes, h.passes, h.bytes⟩
  · exact (completes_passComplete hpass hover hcur hrelocs).imp fun c h => ⟨h.pass, h.passing, h.verifyMode, h.verify, h.lanes, h.bytes⟩
  · refine (completes_paritySweep hcluster hmay rfl hitem).imp fun c h => ?_
    obtain ⟨⟨levels, hqueued⟩, hrest⟩ := h
    exact ⟨⟨_, hqueued, rfl, rfl, rfl, rfl, rfl⟩, hrest⟩

end Sys2Proof.Machine
end

section
/-! Proofs about the memory map of the RISC-V engines and LE_MEM_DATA (O10, R502, R503, Table 7.19). -/

namespace Sys2Proof.Machine

/-! ### Local SRAM, buffer DRAM and faults (R502, R503) -/

section memory
variable {s : State} {e : Engine} {addr size : Nat} {v : Word} {rd : Fin 32}

theorem completes_engineAccess {kind : MemKind} {P : Chip → Prop} (hsize : size ∈ [1, 2, 4, 8]) (h : P (s.chip.engineAccess e kind addr size v rd)) :
    Completes (.engineMemoryAccess e kind addr size v rd) s P :=
  completes_onIf (show exec (.engineMemoryAccess e kind addr size v rd) s = execEngineMemoryAccess e kind addr size v rd s from rfl)
    (List.contains_iff_mem.2 hsize) h

theorem engineAccess_sramStore (hlo : 0x10000000 ≤ addr) (hhi : addr + size ≤ 0x10080000) (c : Chip) :
    c.engineAccess e .store addr size v rd = c.sramWrite e (addr - 0x10000000) (leBytes size v.toNat) := by
  unfold Chip.engineAccess
  rw [if_neg (by omega), if_pos ⟨hlo, hhi⟩]

theorem engineAccess_sramLoad (hlo : 0x10000000 ≤ addr) (hhi : addr + size ≤ 0x10080000) (c : Chip) :
    c.engineAccess e .load addr size v rd = c.loaded e rd (Cells.getRun (fun _ => 0) c.core.sram (sramKey e (addr - 0x10000000)) size) := by
  unfold Chip.engineAccess
  rw [if_neg (by omega), if_pos ⟨hlo, hhi⟩]

theorem sramKey_add (e : Engine) (o i : Nat) : sramKey e (o + i) = sramKey e o + i := (Nat.add_assoc _ _ _).symm

theorem completes_sramStore (hsize : size ∈ [1, 2, 4, 8]) (hlo : 0x10000000 ≤ addr) (hhi : addr + size ≤ 0x10080000) :
    Completes (.engineMemoryAccess e .store addr size v rd) s fun c =>
      (∀ i < size, Cells.get (fun _ => 0) c.core.sram (sramKey e (addr - 0x10000000 + i)) = BitVec.ofNat 8 (v.toNat / 256 ^ i)) ∧
      (∀ j, (∀ i < size, j ≠ sramKey e (addr - 0x10000000 + i)) → Cells.get (fun _ => 0) c.core.sram j = Cells.get (fun _ => 0) s.chip.core.sram j) ∧
      c = { s.chip with core := { s.chip.core with sram := c.core.sram } } := by
  refine completes_engineAccess hsize ?_
  rw [engineAccess_sramStore hlo hhi]
  refine ⟨fun i hi => ?_, fun j hj => ?_, rfl⟩
  · rw [sramKey_add]
    exact Cells.get_putRun_at _ _ _ (getElem?_leBytes hi)
  · refine Cells.get_putRun_apart _ _ ?_
    rw [length_leBytes]
    by_contra hin
    push Not at hin
    obtain ⟨hge, hlt⟩ := hin
    refine hj (j - sramKey e (addr - 0x10000000)) (by omega) ?_
    rw [sramKey_add]
    omega

theorem completes_sramLoad (hsize : size ∈ [1, 2, 4, 8]) (hlo : 0x10000000 ≤ addr) (hhi : addr + size ≤ 0x10080000) :
    Completes (.engineMemoryAccess e .load addr size v rd) s fun c =>
      c.getX e rd = (if rd.val = 0 then 0 else BitVec.ofNat 64 (ofLeBytes (Cells.getRun (fun _ => 0) s.chip.core.sram (sramKey e (addr - 0x10000000)) size))) ∧
      c = { s.chip with core := { s.chip.core with engines := c.core.engines } } := by
  refine completes_engineAccess hsize ?_
  rw [engineAccess_sramLoad hlo hhi, Chip.loaded]
  by_cases hrd : rd.val = 0
  · rw [if_pos hrd, Chip.setX, if_pos hrd]
    exact ⟨by rw [Chip.getX, if_pos hrd], rfl⟩
  · rw [if_neg hrd]
    refine ⟨getX_setX_same _ _ _ hrd, ?_⟩
    rw [Chip.setX, if_neg hrd]
    rfl

theorem completes_dramStore (hsize : size ∈ [1, 2, 4, 8]) (hlo : 2 ^ 36 ≤ addr) (hhi : addr + size ≤ 2 ^ 36 + s.chip.bufferSize)
    (hm : onMdie (.engine e) = true) (hup : s.chip.flag FLM_STATUS_UP = true) (hgood : ∀ u ∈ unitsOf (addr - 2 ^ 36) size, s.chip.unitMark u = .good) :
    Completes (.engineMemoryAccess e .store addr size v rd) s fun c =>
      (∀ i < size, c.byte (addr - 2 ^ 36 + i) = BitVec.ofNat 8 (v.toNat / 256 ^ i)) ∧
      (∀ j, (j < addr - 2 ^ 36 ∨ addr - 2 ^ 36 + size ≤ j) → c.byte j = s.chip.byte j) ∧
      s.chip.fieldsKept [BUF_RMW_COUNT, BUF_INJECT_ARMED] c := by
  refine completes_engineAccess hsize ?_
  have hpow : (2 : Nat) ^ 36 = 68719476736 := by norm_num
  have hstored : Stored s.chip (addr - 2 ^ 36) (leBytes size v.toNat) (s.chip.dramWrite (addr - 2 ^ 36) (leBytes size v.toNat)) :=
    stored_dramWrite (by rwa [length_leBytes])
  have haccess : s.chip.engineAccess e .store addr size v rd = s.chip.dramWrite (addr - 2 ^ 36) (leBytes size v.toNat) := by
    rw [Chip.engineAccess, if_neg (by omega), if_neg (by omega), if_neg (by omega), if_pos ⟨hlo, hhi⟩,
      if_neg (by rintro ⟨-, hdown⟩; rw [hup] at hdown; exact absurd hdown (by decide)), Chip.dramAccess, if_pos hm]
  rw [haccess]
  refine ⟨fun i hi => hstored.byte_at (getElem?_leBytes hi), fun j hj => hstored.byte_apart (by rwa [length_leBytes]), hstored.fields⟩

theorem completes_accessFault {kind : MemKind} (hsize : size ∈ [1, 2, 4, 8]) (hrom : ¬ addr + size ≤ 0x10000)
    (hsram : ¬ (0x10000000 ≤ addr ∧ addr + size ≤ 0x10080000)) (hbar : ¬ (0x20000000 ≤ addr ∧ addr + size ≤ 0x20800000))
    (hdram : ¬ (2 ^ 36 ≤ addr ∧ addr + size ≤ 2 ^ 36 + s.chip.bufferSize)) :
    Completes (.engineMemoryAccess e kind addr size v rd) s fun c =>
      (c.eng (engNum e)).cause = some (faultCauseOf kind) ∧ c.regs = s.chip.regs ∧ s.chip.bytesKept c := by
  refine completes_engineAccess hsize ?_
  unfold Chip.engineAccess
  rw [if_neg hrom, if_neg hsram, if_neg hbar, if_neg hdram, Chip.raise]
  refine ⟨?_, rfl, bytesKept_setEng _ _ (bytesKept_refl _)⟩
  rw [eng_setEng]

end memory

/-! ### Reads of registers (R22) -/

theorem settleLatch_none {c : Chip} {a : Agent} (h : (c.agent (agentNum a)).writeLatch = none) (o : Nat) (b : Bool) : c.settleLatch a o b = c := by
  simp only [Chip.settleLatch, h]

/-- A 4-byte read of a 32-bit register is a read of the register. -/
theorem read4_narrow {c : Chip} {a : Agent} {o k : Nat} {r : RegDef} (hplace : regPlace (agentPort a) o = some (k, r, false)) (hr : r.wide = false) :
    c.read4 a o = c.cell a o := by
  simp only [Chip.read4, hplace, hr, Bool.false_eq_true, if_false]

theorem readBar_four {c : Chip} (a : Agent) {o : Nat} (ho : o % 4 = 0) : c.readBar a o 4 = ((c.read4 a o).1.setWidth 64, (c.read4 a o).2) := by
  rw [Chip.readBar, if_pos ⟨rfl, ho⟩]

/-- An access of an agent of the H-die that reaches the M-die, or of no M-die block, takes effect at once. -/
theorem access_now {c : Chip} {m : RegAccess} (h : isMdie m.off = true → c.carrying = true) : c.access m = c.doAccess m := by
  rw [Chip.access]
  split_ifs with hnow hcarry
  · rfl
  · rfl
  all_goals
    push Not at hnow
    exact absurd (h (by simpa using hnow.1)) hcarry

/-! ### LE_MEM_DATA (Table 7.19) -/

theorem hasCopy_cons {n stride o : Nat} {t : List (Nat × Nat)} :
    hasCopy ((n, stride) :: t) o = true ↔ ∃ i < n, stride * i ≤ o ∧ hasCopy t (o - stride * i) = true := by
  simp only [hasCopy, List.any_eq_true, List.mem_range, Bool.and_eq_true, decide_eq_true_eq]

theorem hasCopy_nil {o : Nat} : hasCopy [] o = true ↔ o = 0 := by simp [hasCopy]

/-- LE_MEM_DATA as the register map has it. -/
def memDataReg : RegDef := ⟨0x41001c, [(48, 0x4000)], false, [⟨0, 32, .ro, .live, 0, []⟩]⟩

/-- No register before LE_MEM_DATA in its block has a copy at its offset. -/
theorem regAt_memData (e : TolekEngine) : regAt (LE_MEM_DATA e) = some memDataReg := by
  have _he := e.isLt
  have hkey : LE_MEM_DATA e % portKey = LE_MEM_DATA e := Nat.mod_eq_of_lt (by simp only [LE_MEM_DATA, portKey]; omega)
  have hblock : blockRegs (LE_MEM_DATA e) = regsLE0.take 20 ++ memDataReg :: (regsLE0.drop 21 ++ regsLE1) := by
    have hlist : regsLE0 = regsLE0.take 20 ++ memDataReg :: regsLE0.drop 21 := rfl
    have hbelow : 0x400000 ≤ LE_MEM_DATA e ∧ LE_MEM_DATA e < 0x500000 := by simp only [LE_MEM_DATA]; omega
    obtain ⟨hlo, hhi⟩ := hbelow
    rw [blockRegs, if_neg (by omega), if_neg (by omega), if_neg (by omega), if_neg (by omega), if_neg (by omega), if_neg (by omega), if_neg (by omega),
      if_neg (by omega), if_neg (by omega), if_neg (by omega), if_neg (by omega), if_neg (by omega), if_pos (by omega)]
    conv_lhs => rw [hlist]
    rw [List.append_assoc, List.cons_append]
  have hmine : (decide (memDataReg.base ≤ LE_MEM_DATA e) && hasCopy memDataReg.dims (LE_MEM_DATA e - memDataReg.base)) = true := by
    rw [Bool.and_eq_true, decide_eq_true_eq, memDataReg, hasCopy_cons]
    refine ⟨by simp only [LE_MEM_DATA]; omega, e, e.isLt, by simp only [LE_MEM_DATA]; omega, hasCopy_nil.2 ?_⟩
    simp only [LE_MEM_DATA]
    omega
  rw [regAt, hkey, hblock, List.find?_append,
    List.find?_cons_of_pos (p := fun r : RegDef => decide (r.base ≤ LE_MEM_DATA e) && hasCopy r.dims (LE_MEM_DATA e - r.base)) hmine,
    Option.or_eq_right_of_none]
  refine List.find?_eq_none.2 ?_
  simp only [regsLE0, List.take, List.mem_cons, List.not_mem_nil, or_false, forall_eq_or_imp,
    forall_eq, Bool.and_eq_true, hasCopy_cons, hasCopy_nil,
    LE_MEM_DATA, not_and, not_exists]
  refine ⟨?_, ?_, ?_, ?_, ?_, ?_, ?_, ?_, ?_, ?_, ?_, ?_, ?_, ?_, ?_, ?_, ?_, ?_, ?_, ?_⟩
  all_goals
    intros
    omega
theorem withField_low (x : Word) (v : Q) : BitVec.setWidth 32 (withField x 0 32 v.toNat) = v := by
  refine BitVec.eq_of_toNat_eq ?_
  have h := fieldOf_withField_same x 0 32 v.toNat (by decide)
  rw [fieldOf, BitVec.ushiftRight_zero, Nat.mod_eq_of_lt v.isLt] at h
  rw [BitVec.toNat_setWidth, h]

/-- A read of LE_MEM_DATA shows the word that ADDR names. -/
theorem regNow_memData (c : Chip) (e : TolekEngine) : BitVec.setWidth 32 (c.regNow (LE_MEM_DATA e) memDataReg) = c.memData e := by
  have _he := e.isLt
  have hkey : LE_MEM_DATA e % portKey = LE_MEM_DATA e := Nat.mod_eq_of_lt (by simp only [LE_MEM_DATA, portKey]; omega)
  have heng : (LE_MEM_DATA e - 0x410000) / 0x4000 = e := by simp only [LE_MEM_DATA]; omega
  have hoff : (LE_MEM_DATA e - 0x410000) % 0x4000 = 0x1c := by simp only [LE_MEM_DATA]; omega
  have hlive : c.liveM (LE_MEM_DATA e) = [(LE_ENG_STATUS_ROLE e, (c.tolek e).role), (LE_ENG_STATUS_RUNNING e, (c.tolek e).running.toNat),
      (LE_ENG_STATUS_SAT e, (c.tolek e).sat.toNat), (LE_ENG_STATUS_PC e, (c.tolek e).pc), (LE_MEM_DATA_DATA e, (c.memData e).toNat)] := by
    rw [Chip.liveM, if_neg (by simp only [LE_MEM_DATA]; omega), if_neg (by simp only [LE_MEM_DATA]; omega), if_neg (by simp only [LE_MEM_DATA]; omega),
      if_neg (by simp only [LE_MEM_DATA]; omega), if_pos (by simp only [LE_MEM_DATA]; omega), Chip.liveLe, if_neg (by simp only [LE_MEM_DATA]; omega),
      if_neg (by simp only [LE_MEM_DATA]; omega)]
    dsimp only
    rw [if_pos (by rw [hoff]; decide), heng]
  have hwo : ∀ w : Word, memDataReg.fields.foldl (fun w f => if f.acc = .wo then withField w f.lo f.w 0 else w) w = w := fun _ => rfl
  have hstatus : LE_ENG_STATUS e ≠ LE_MEM_DATA e := by simp [LE_ENG_STATUS, LE_MEM_DATA]
  rw [Chip.regNow, hwo, hkey, if_neg (by simp only [LE_MEM_DATA]; omega), if_pos (by simp only [LE_MEM_DATA]; omega), hlive]
  simp only [List.foldl_cons, List.foldl_nil, LE_ENG_STATUS_ROLE, LE_ENG_STATUS_RUNNING, LE_ENG_STATUS_SAT, LE_ENG_STATUS_PC, LE_MEM_DATA_DATA, hstatus,
    if_false, if_true]
  exact withField_low _ _

/-- ADDR goes on by one modulo the size of its space where INC is 1. -/
def Chip.memAdvance (c : Chip) (e : Nat) : Chip :=
  if c.flag (LE_MEM_ADDR_INC e) then
    c.setFld (LE_MEM_ADDR_ADDR e) ((c.fld (LE_MEM_ADDR_ADDR e) + 1) % (if c.flag (LE_MEM_ADDR_SPACE e) then 2048 else 4096))
  else c

theorem memAdvance_addr (c : Chip) (e : Nat) : (c.memAdvance e).fld (LE_MEM_ADDR_ADDR e) =
    if c.flag (LE_MEM_ADDR_INC e) then (c.fld (LE_MEM_ADDR_ADDR e) + 1) % (if c.flag (LE_MEM_ADDR_SPACE e) then 2048 else 4096)
    else c.fld (LE_MEM_ADDR_ADDR e) := by
  unfold Chip.memAdvance
  by_cases hinc : c.flag (LE_MEM_ADDR_INC e) = true
  · rw [if_pos hinc, if_pos hinc, fld_setFld_same _ _ _ (by simp [LE_MEM_ADDR_ADDR])]
    refine Nat.mod_eq_of_lt ?_
    simp only [LE_MEM_ADDR_ADDR]
    split_ifs <;> omega
  · rw [if_neg hinc, if_neg hinc]

theorem memAdvance_fieldsKept (c : Chip) (e : Nat) : c.fieldsKept [LE_MEM_ADDR_ADDR e] (c.memAdvance e) := by
  unfold Chip.memAdvance
  by_cases hinc : c.flag (LE_MEM_ADDR_INC e) = true
  · rw [if_pos hinc]
    exact fieldsKept_setFld _ _ List.mem_cons_self (fieldsKept_refl _ _)
  · rw [if_neg hinc]
    exact fieldsKept_refl _ _

theorem regsOnly_memAdvance (c : Chip) (e : Nat) : c.regsOnly (c.memAdvance e) := by
  unfold Chip.memAdvance
  by_cases hinc : c.flag (LE_MEM_ADDR_INC e) = true
  · rw [if_pos hinc]
    exact regsOnly_setFld _ _ (regsOnly_refl c)
  · rw [if_neg hinc]
    exact regsOnly_refl c

theorem cell_memData {c : Chip} (a : Agent) (e : TolekEngine) (hserved : c.flag GEN_CONFIG_SEALED = true) :
    c.read4 a (LE_MEM_DATA e) = (c.memData e, c.memAdvance e) := by
  have _he := e.isLt
  have hr := regAt_memData e
  have hport : perPort (LE_MEM_DATA e) = false := by
    simp only [perPort, List.contains_eq_mem, decide_eq_false_iff_not, List.mem_cons, List.not_mem_nil, or_false, LE_MEM_DATA]
    omega
  have hplace : regPlace (agentPort a) (LE_MEM_DATA e) = some (LE_MEM_DATA e, memDataReg, false) := by
    simp only [regPlace, hport, Bool.false_eq_true, if_false, hr]
  have habsent : c.absent (LE_MEM_DATA e) = false := by
    have hkey : LE_MEM_DATA e % portKey = LE_MEM_DATA e := Nat.mod_eq_of_lt (by simp only [LE_MEM_DATA, portKey]; omega)
    have hlow : ¬ portKey ≤ LE_MEM_DATA e ∧ ¬ LE_MEM_DATA e < 0x10200 := by
      simp only [LE_MEM_DATA, portKey]
      omega
    simp [Chip.absent, hkey, hlow.1, hlow.2]
  have hdata : isMdie (LE_MEM_DATA e) = true ∧ 0x410000 ≤ LE_MEM_DATA e ∧ LE_MEM_DATA e < 0x500000 ∧ (LE_MEM_DATA e - 0x410000) % 0x4000 = 0x1c := by
    refine ⟨?_, ?_⟩
    · rw [isMdie, Bool.and_eq_true]
      exact ⟨decide_eq_true (by simp only [LE_MEM_DATA]; omega), decide_eq_true (by simp only [LE_MEM_DATA]; omega)⟩
    · simp only [LE_MEM_DATA]
      omega
  have heng : (LE_MEM_DATA e - 0x410000) / 0x4000 = e := by simp only [LE_MEM_DATA]; omega
  have hmsix : ¬ (0xF00000 ≤ LE_MEM_DATA e ∧ LE_MEM_DATA e < 0xF10000) := by simp only [LE_MEM_DATA]; omega
  rw [read4_narrow hplace rfl]
  unfold Chip.cell
  rw [if_neg (by simp [Chip.served, hserved]), if_neg hmsix, hplace]
  simp only [habsent, Bool.false_eq_true, if_false, if_pos hdata, heng, regNow_memData c e, Chip.memAdvance]

theorem completes_memDataRead {s : State} {x : Port} {e : TolekEngine} (hexists : s.chip.portExists x = true)
    (hsealed : s.chip.flag GEN_CONFIG_SEALED = true) (hcarry : s.chip.carrying = true) (hlatch : (s.chip.agent x).writeLatch = none) :
    Completes (.leMemDataRead (.port x) e) s fun c =>
      (c.agent x).lastRead = (s.chip.memData e).setWidth 64 ∧
      c.fld (LE_MEM_ADDR_ADDR e) = (if s.chip.flag (LE_MEM_ADDR_INC e) then
        (s.chip.fld (LE_MEM_ADDR_ADDR e) + 1) % (if s.chip.flag (LE_MEM_ADDR_SPACE e) then 2048 else 4096) else s.chip.fld (LE_MEM_ADDR_ADDR e)) ∧
      s.chip.fieldsKept [LE_MEM_ADDR_ADDR e] c ∧ s.chip.bytesKept c := by
  refine completes_on (f := fun c => c.issue4 ⟨.port x, false, LE_MEM_DATA e, 4, 0, 0⟩) rfl ?_
  have haligned : LE_MEM_DATA e % 4 = 0 := by simp only [LE_MEM_DATA]; omega
  have hread : s.chip.issue4 ⟨.port x, false, LE_MEM_DATA e, 4, 0, 0⟩ = (s.chip.memAdvance e).answer x ((s.chip.memData e).setWidth 64) := by
    rw [Chip.issue4]
    dsimp only
    rw [if_pos hexists, access_now fun _ => hcarry, Chip.doAccess]
    dsimp only
    rw [settleLatch_none hlatch, if_neg Bool.false_ne_true, readBar_four _ haligned, cell_memData _ e hsealed]
    rfl
  rw [hread, Chip.answer]
  refine ⟨?_, ?_, ?_, ?_⟩
  · rw [agent_setAgent]
  · rw [fld_setAgent, memAdvance_addr]
  · exact fieldsKept_regs (setAgent_regs _ _ _) (memAdvance_fieldsKept _ _)
  · exact bytesKept_trans (bytesKept_of_regsOnly (regsOnly_memAdvance _ _)) (bytesKept_of_eq rfl rfl rfl)

/-- Settles O10: each kind of access by its range of addresses, and LE_MEM_DATA by what its register shows. -/
theorem engineMemory : Obligations.EngineMemory := by
  refine ⟨fun s e addr size v rd hsize => ⟨fun hlo hhi => ⟨completes_sramStore hsize hlo hhi, completes_sramLoad hsize hlo hhi⟩,
    fun hlo hhi hm hup hgood => completes_dramStore hsize hlo hhi hm hup hgood,
    fun kind hrom hsram hbar hdram => completes_accessFault hsize hrom hsram hbar hdram⟩,
    fun s x e hexists hsealed hcarry hlatch => completes_memDataRead hexists hsealed hcarry hlatch⟩

end Sys2Proof.Machine
end

section
/-! Proofs about half accesses and accesses that R22 does not allow (O9). -/

namespace Sys2Proof.Machine

/-! ### A register with no effect beyond its fields (R22, R24) -/

/-- What a write of a register needs to change that register alone: it is present and the agent may write it, it locks nothing, drops nothing and
starts nothing. -/
structure Quiet (c : Chip) (a : Agent) (k : Nat) (r : RegDef) : Prop where
  present : c.absent k = false
  allowed : c.mayWrite a k = true
  hdie : k % portKey < 0x100000 ∨ 0x700000 ≤ k % portKey
  plain : k ∉ [CIS_CTRL, BUF_SCRUB_CTRL, BUF_FILL_STALE, BUF_INJECT, FLM_CTRL, WMH_CTRL, BOOT_HOST_CMD]
  noPort : ¬ (0x10000 ≤ k ∧ k < 0x10200 ∧ k % 0x100 = 0)
  noLock : ∀ f ∈ r.fields, f.acc ≠ .lk
  taken : ∀ n, c.writeDropped k n = false

theorem afterH_plain {k : Nat} (h : k ∉ [CIS_CTRL, BUF_SCRUB_CTRL, BUF_FILL_STALE, BUF_INJECT, FLM_CTRL, WMH_CTRL, BOOT_HOST_CMD]) (c : Chip) (v : Word) :
    c.afterH k v = c := by
  simp only [List.mem_cons, List.not_mem_nil, or_false, not_or] at h
  obtain ⟨h1, h2, h3, h4, h5, h6, h7⟩ := h
  rw [Chip.afterH, if_neg h1, if_neg h2, if_neg h3, if_neg h4, if_neg h5, if_neg h6, if_neg h7]

theorem writeReg_quiet {c : Chip} {a : Agent} {k : Nat} {r : RegDef} (h : Quiet c a k r) (o : Nat) (v mask : Word) :
    c.writeReg a o k r v mask = c.setReg k (regAfter r (c.reg k) v mask) := by
  have hlock : r.fields.any (fun f => f.acc == .lk && fieldOf mask f.lo f.w != 0) = false :=
    List.any_eq_false.2 fun f hf => by simp [h.noLock f hf]
  have hkey : k % portKey < 0x100000 ∨ 0x700000 ≤ k := h.hdie.imp_right fun hk => hk.trans (Nat.mod_le _ _)
  simp only [Chip.writeReg, hlock, Bool.false_eq_true, if_false, h.taken, if_neg h.noPort, if_pos hkey, afterH_plain h.plain]

theorem writeEntries_port (c : Chip) (x : Port) (k : Nat) (v : Word) : c.writeEntries (.port x) k v = c := by
  rw [Chip.writeEntries, if_neg (by rintro ⟨h | h, -⟩ <;> exact Agent.noConfusion h)]

theorem store_quiet {c : Chip} {x : Port} {o k : Nat} {r : RegDef} {upper : Bool} (h : Quiet c (.port x) k r) (hplace : regPlace x o = some (k, r, upper))
    (v mask : Word) : c.store (.port x) o v mask = c.setReg k (regAfter r (c.reg k) v mask) := by
  have hplace : regPlace (agentPort (.port x)) o = some (k, r, upper) := hplace
  simp only [Chip.store, hplace, h.present, h.allowed, Bool.false_eq_true, Bool.not_true, or_self, if_false, writeReg_quiet h, writeEntries_port]

theorem Quiet.setAgent {c : Chip} {a : Agent} {k : Nat} {r : RegDef} (h : Quiet c a k r) (n x) : Quiet (c.setAgent n x) a k r :=
  ⟨h.present, h.allowed, h.hdie, h.plain, h.noPort, h.noLock, h.taken⟩

section halves
variable {s : State} {x : Port} {off k : Nat} {v : BitVec 32} {r : RegDef}

/-- A half access of a 64-bit register of the H-die takes effect at once. -/
theorem completes_half {i : Instr} {P : Chip → Prop} {write : Bool} {o : Nat} {w : Word}
    (hexec : exec i s = s.on fun c => c.issue4 ⟨.port x, write, o, 4, w, 0⟩) (hexists : s.chip.portExists x = true) (hhdie : isMdie o = false)
    (h : P (s.chip.doAccess ⟨.port x, write, o, 4, w, 0⟩)) : Completes i s P := by
  refine completes_on hexec ?_
  rw [Chip.issue4]
  dsimp only
  rw [if_pos hexists, access_now fun hm => ?_]
  · exact h
  · rw [hhdie] at hm
    exact absurd hm (by decide)

/-- A register that is served, present and not a place outside the registers is found as it shows. -/
theorem cell_hdie {c : Chip} {a : Agent} {o : Nat} {upper : Bool} (hserved : c.served o = true) (hlow : o < 0xF00000) (hhdie : isMdie o = false)
    (hplace : regPlace (agentPort a) o = some (k, r, upper)) (hpresent : c.absent k = false) :
    c.cell a o = (if upper then BitVec.setWidth 32 (c.regNow k r >>> 32) else BitVec.setWidth 32 (c.regNow k r), c) := by
  unfold Chip.cell
  rw [if_neg (by simp [hserved]), if_neg (by omega), hplace]
  have hmem : ¬ (isMdie o = true ∧ 0x410000 ≤ o ∧ o < 0x500000 ∧ (o - 0x410000) % 0x4000 = 0x1c) := by
    rw [hhdie]
    exact fun h => absurd h.1 (by decide)
  simp only [hpresent, Bool.false_eq_true, if_false, if_neg hmem]

theorem isMdie_eq_false {o : Nat} (h : o < 0x100000 ∨ 0x700000 ≤ o) : isMdie o = false := by
  rw [isMdie, Bool.and_eq_false_iff]
  exact h.imp (fun h => decide_eq_false h.not_ge) fun h => decide_eq_false h.not_gt

/-- A 64-bit register of the H-die at an offset, both of whose halves a port may access. -/
structure WideAt (c : Chip) (x : Port) (off k : Nat) (r : RegDef) : Prop where
  port : c.portExists x = true
  aligned : off % 8 = 0
  hdie : off < 0x100000 ∨ 0x700000 ≤ off ∧ off < 0xF00000
  served : c.served off = true
  lower : regPlace (agentPort (.port x)) off = some (k, r, false)
  upper : regPlace (agentPort (.port x)) (off + 4) = some (k, r, true)
  wide : r.wide = true
  present : c.absent k = false
  served' : c.served (off + 4) = true

theorem WideAt.notMdie {c : Chip} (h : WideAt c x off k r) : isMdie off = false ∧ isMdie (off + 4) = false := by
  have halign := h.aligned
  have hdie := h.hdie
  exact ⟨isMdie_eq_false (by omega), isMdie_eq_false (by omega)⟩

/-- The two halves show the halves of the register. -/
theorem WideAt.cells {c : Chip} (h : WideAt c x off k r) :
    c.cell (.port x) off = (BitVec.setWidth 32 (c.regNow k r), c) ∧
    c.cell (.port x) (off + 4) = (BitVec.setWidth 32 (c.regNow k r >>> 32), c) := by
  have halign := h.aligned
  have hdie := h.hdie
  exact ⟨cell_hdie h.served (by omega) h.notMdie.1 h.lower h.present, cell_hdie h.served' (by omega) h.notMdie.2 h.upper h.present⟩

variable (h : WideAt s.chip x off k r)
include h

theorem completes_lowerHalfWrite (hlatch : (s.chip.agent x).writeLatch = none) : Completes (.lowerHalfWrite (.port x) off v) s fun c =>
    (c.agent x).writeLatch = some (k, v) ∧ c.regs = s.chip.regs ∧ (c.agent x).readLatch = (s.chip.agent x).readLatch := by
  refine completes_half (o := off) (w := v.setWidth 64) rfl h.port h.notMdie.1 ?_
  have haligned := h.aligned
  have hv : BitVec.setWidth 32 (BitVec.setWidth 64 v) = v := by simp
  have hdo : s.chip.doAccess ⟨.port x, true, off, 4, v.setWidth 64, 0⟩ = s.chip.setAgent x { s.chip.agent x with writeLatch := some (k, v) } := by
    rw [Chip.doAccess]
    dsimp only
    rw [settleLatch_none hlatch, if_pos rfl, Chip.writeBar, if_pos ⟨rfl, by omega⟩, hv]
    simp only [Chip.write4, h.served, Bool.not_true, Bool.false_eq_true, if_false, h.lower, h.wide, if_true]
    rfl
  rw [hdo]
  exact ⟨by rw [agent_setAgent], setAgent_regs _ _ _, by rw [agent_setAgent]⟩

theorem completes_lowerHalfRead (hlatch : (s.chip.agent x).writeLatch = none) : Completes (.lowerHalfRead (.port x) off) s fun c =>
    (c.agent x).lastRead = ((s.chip.regNow k r).setWidth 32).setWidth 64 ∧
    (c.agent x).readLatch = some (k, (s.chip.regNow k r >>> 32).setWidth 32) ∧ c.regs = s.chip.regs := by
  refine completes_half (o := off) (w := 0) rfl h.port h.notMdie.1 ?_
  have haligned := h.aligned
  have hread : s.chip.read4 (.port x) off = ((s.chip.regNow k r).setWidth 32,
      s.chip.setAgent x { s.chip.agent x with readLatch := some (k, (s.chip.regNow k r >>> 32).setWidth 32) }) := by
    simp only [Chip.read4, h.lower, h.wide, if_true, h.cells]
    rfl
  have hdo : s.chip.doAccess ⟨.port x, false, off, 4, 0, 0⟩ =
      (s.chip.setAgent x { s.chip.agent x with readLatch := some (k, (s.chip.regNow k r >>> 32).setWidth 32) }).answer x
        (((s.chip.regNow k r).setWidth 32).setWidth 64) := by
    rw [Chip.doAccess]
    dsimp only
    rw [settleLatch_none hlatch, if_neg Bool.false_ne_true, readBar_four _ (by omega), hread]
    rfl
  rw [hdo, Chip.answer]
  exact ⟨by rw [agent_setAgent], by rw [agent_setAgent, agent_setAgent], by rw [setAgent_regs, setAgent_regs]⟩

omit h in
theorem agent_setReg (c : Chip) (o v n) : (c.setReg o v).agent n = c.agent n := rfl

/-- An upper half alone writes the upper half; with the held lower half of its register it writes all 64 bits. -/
theorem doAccess_upperHalf (hq : Quiet s.chip (.port x) k r) :
    ((s.chip.agent x).writeLatch = none → s.chip.doAccess ⟨.port x, true, off + 4, 4, v.setWidth 64, 0⟩ =
      s.chip.setReg k (regAfter r (s.chip.reg k) (v.setWidth 64 <<< 32) hiMask)) ∧
    (∀ lo, (s.chip.agent x).writeLatch = some (k, lo) → s.chip.doAccess ⟨.port x, true, off + 4, 4, v.setWidth 64, 0⟩ =
      (s.chip.setAgent x { s.chip.agent x with writeLatch := none }).setReg k
        (regAfter r (s.chip.reg k) (v.setWidth 64 <<< 32 ||| lo.setWidth 64) (loMask ||| hiMask))) := by
  have haligned := h.aligned
  have hv : BitVec.setWidth 32 (BitVec.setWidth 64 v) = v := by simp
  have hdo : ∀ d, s.chip.settleLatch (.port x) (off + 4) true = d →
      s.chip.doAccess ⟨.port x, true, off + 4, 4, v.setWidth 64, 0⟩ = d.write4 (.port x) (off + 4) v := fun d hd => by
    have hfour : (true && (4 : Nat) == 4 && (off + 4) % 4 == 0) = true := by
      rw [show (off + 4) % 4 = 0 by omega]
      rfl
    rw [Chip.doAccess]
    dsimp only
    rw [hfour, hd, if_pos rfl, Chip.writeBar, if_pos ⟨rfl, by omega⟩, hv]
  refine ⟨fun hnone => ?_, fun lo hlo => ?_⟩
  · have hnone' : (s.chip.agent (agentNum (.port x))).writeLatch = none := hnone
    rw [hdo _ (settleLatch_none hnone _ _)]
    simp only [Chip.write4, h.served', Bool.not_true, Bool.false_eq_true, if_false, h.upper, hnone', store_quiet hq h.upper]
  · have hlo' : (s.chip.agent (agentNum (.port x))).writeLatch = some (k, lo) := hlo
    rw [hdo s.chip (by simp [Chip.settleLatch, hlo', h.upper])]
    simp only [Chip.write4, h.served', Bool.not_true, Bool.false_eq_true, if_false, h.upper, hlo', if_true, Nat.add_sub_cancel,
      store_quiet (hq.setAgent _ _) h.lower, reg_setAgent]
    rfl

theorem completes_upperHalfWrite (hq : Quiet s.chip (.port x) k r) : Completes (.upperHalfWrite (.port x) (off + 4) v) s fun c =>
    ((s.chip.agent x).writeLatch = none → c.reg k = regAfter r (s.chip.reg k) (v.setWidth 64 <<< 32) hiMask) ∧
    (∀ lo, (s.chip.agent x).writeLatch = some (k, lo) →
      c.reg k = regAfter r (s.chip.reg k) (v.setWidth 64 <<< 32 ||| lo.setWidth 64) (loMask ||| hiMask) ∧ (c.agent x).writeLatch = none) ∧
    ((∀ j lo, (s.chip.agent x).writeLatch = some (j, lo) → j = k) → ∀ o, o ≠ k → c.reg o = s.chip.reg o) := by
  refine completes_half (o := off + 4) (w := v.setWidth 64) rfl h.port h.notMdie.2 ?_
  obtain ⟨halone, hboth⟩ := doAccess_upperHalf (v := v) h hq
  refine ⟨fun hnone => ?_, fun lo hlo => ?_, fun hmine o ho => ?_⟩
  · rw [halone hnone, reg_setReg]
  · rw [hboth lo hlo]
    exact ⟨reg_setReg _ _ _, by rw [agent_setReg, agent_setAgent]⟩
  · cases hlatch : (s.chip.agent x).writeLatch with
    | none => rw [halone hlatch, reg_setReg_other _ _ _ _ ho]
    | some jv =>
      obtain ⟨j, lo⟩ := jv
      obtain rfl := hmine j lo hlatch
      rw [hboth lo hlatch, reg_setReg_other _ _ _ _ ho, reg_setAgent]

end halves

/-! ### Accesses that are not allowed (R22) -/

/-- An access that is not allowed is counted and logged. -/
structure Refused (c : Chip) (a : Agent) (off : Nat) (c' : Chip) : Prop where
  fields : c.fieldsKept [GEN_ACCESS_SIZE] c'
  count : c'.fld GEN_ACCESS_SIZE = min (c.fld GEN_ACCESS_SIZE + 1) 0xFFFF
  readLatch : (c'.agent (agentNum a)).readLatch = (c.agent (agentNum a)).readLatch
  logged : (c'.weir (weirKey 6 0)).items = (c.weir (weirKey 6 0)).items ++
    [(logWords c.nowH 0x0101 .h (detBytes 4 off ++ [agentNum a])).map (fun w => ⟨w, false⟩)]

theorem refused_noteAccess (c : Chip) (a : Agent) (off : Nat) : Refused c a off (c.noteAccess a off) := by
  have hregs : (c.noteAccess a off).regs = (c.inc GEN_ACCESS_SIZE).regs := rfl
  refine ⟨fieldsKept_regs hregs (fieldsKept_inc _ List.mem_cons_self (fieldsKept_refl _ _)), ?_, rfl, items_log (c.inc GEN_ACCESS_SIZE) _ _ _⟩
  rw [fld_of_regs hregs, fld_inc_same _ _ (by decide)]
  rfl

theorem lastRead_noteAccess (c : Chip) (a : Agent) (off n : Nat) : ((c.noteAccess a off).agent n).lastRead = (c.agent n).lastRead := rfl

section notAllowed
variable {s : State} {a : Agent} {off size : Nat} {v : Word}

theorem completes_bar {i : Instr} {P : Chip → Prop} {write : Bool} {w : Word}
    (hexec : exec i s = s.on fun c => c.issue4 ⟨a, write, off, size, w, 0⟩) (hport : ∀ x, a = .port x → s.chip.portExists x = true)
    (hengine : ∀ e, a = .engine e → engineSees e off size = true) (hreach : isMdie off = false ∨ s.chip.carrying = true)
    (h : P (s.chip.doAccess ⟨a, write, off, size, w, 0⟩)) : Completes i s P := by
  have hnow : s.chip.access ⟨a, write, off, size, w, 0⟩ = s.chip.doAccess ⟨a, write, off, size, w, 0⟩ :=
    access_now fun hm => hreach.resolve_left fun hm' => by
      rw [hm] at hm'
      exact absurd hm' (by decide)
  refine completes_on hexec ?_
  rw [Chip.issue4]
  cases a with
  | port x =>
    dsimp only
    rwa [if_pos (hport x rfl), hnow]
  | engine e =>
    dsimp only
    rwa [if_pos (hengine e rfl), hnow]

theorem completes_misalignedRead (hport : ∀ x, a = .port x → s.chip.portExists x = true)
    (hengine : ∀ e, a = .engine e → engineSees e off size = true) (hreach : isMdie off = false ∨ s.chip.carrying = true)
    (hlatch : (s.chip.agent (agentNum a)).writeLatch = none) (hfour : ¬ (size = 4 ∧ off % 4 = 0)) (height : ¬ (size = 8 ∧ off % 8 = 0))
    (hpart : ¬ (0 < size ∧ size < 4 ∧ off % 4 + size ≤ 4)) : Completes (.misalignedRead a off size) s fun c =>
      Refused s.chip a off c ∧ (c.agent (agentNum a)).lastRead = 0 := by
  refine completes_bar (off := off) (size := size) (w := 0) rfl hport hengine hreach ?_
  have hdo : s.chip.doAccess ⟨a, false, off, size, 0, 0⟩ = (s.chip.noteAccess a off).answer (agentNum a) 0 := by
    rw [Chip.doAccess]
    dsimp only
    rw [settleLatch_none hlatch, if_neg Bool.false_ne_true, Chip.readBar, if_neg hfour, if_neg height, if_neg hpart]
    cases a with
    | port x => rfl
    | engine e => rfl
  rw [hdo, Chip.answer]
  have h := refused_noteAccess s.chip a off
  exact ⟨⟨fieldsKept_regs (setAgent_regs _ _ _) h.fields, (fld_setAgent _ _ _ _).trans h.count, by rw [agent_setAgent]; exact h.readLatch, h.logged⟩,
    by rw [agent_setAgent]⟩

theorem completes_refusedWrite (hport : ∀ x, a = .port x → s.chip.portExists x = true)
    (hengine : ∀ e, a = .engine e → engineSees e off size = true) (hreach : isMdie off = false ∨ s.chip.carrying = true)
    (hlatch : (s.chip.agent (agentNum a)).writeLatch = none) (hfour : ¬ (size = 4 ∧ off % 4 = 0)) (height : ¬ (size = 8 ∧ off % 8 = 0)) :
    Completes (.registerWrite a off size v) s fun c =>
      Refused s.chip a off c ∧ (c.agent (agentNum a)).lastRead = (s.chip.agent (agentNum a)).lastRead := by
  refine completes_bar (off := off) (size := size) (w := v) rfl hport hengine hreach ?_
  have hdo : s.chip.doAccess ⟨a, true, off, size, v, 0⟩ = s.chip.noteAccess a off := by
    rw [Chip.doAccess]
    dsimp only
    rw [settleLatch_none hlatch, if_pos rfl, Chip.writeBar, if_neg hfour, if_neg height]
  rw [hdo]
  exact ⟨refused_noteAccess _ _ _, lastRead_noteAccess _ _ _ _⟩

end notAllowed

/-- Settles O9: the latches of each half access, and the note that an access which is not allowed leaves. -/
theorem halfAccesses : Obligations.HalfAccesses := by
  refine ⟨fun s x off k v r hexists halign hrange hserved hlower hupper hwide hpresent hserved' => ?_,
    fun s a off size v hport hengine hreach hlatch hfour height => ⟨fun hpart => ?_, ?_⟩⟩
  · have h : WideAt s.chip x off k r := ⟨hexists, halign, hrange, hserved, hlower, hupper, hwide, hpresent, hserved'⟩
    refine ⟨fun hlatch => ⟨completes_lowerHalfRead h hlatch, completes_lowerHalfWrite h hlatch⟩,
      fun hallowed _ hdie hplain hnoPort hnoLock htaken => completes_upperHalfWrite h ⟨hpresent, hallowed, hdie, hplain, hnoPort, hnoLock, htaken⟩⟩
  · exact (completes_misalignedRead hport hengine hreach hlatch hfour height hpart).imp fun c h =>
      ⟨⟨h.1.fields, h.1.count, h.1.readLatch, h.1.logged⟩, h.2⟩
  · exact (completes_refusedWrite hport hengine hreach hlatch hfour height).imp fun c h =>
      ⟨⟨h.1.fields, h.1.count, h.1.readLatch, h.1.logged⟩, h.2⟩

end Sys2Proof.Machine
end

section
/-! Proofs about the Cistern's spills and recalls, the device log, block arrivals, fill entries and scrubs in buffer DRAM (O55). -/

namespace Sys2Proof.Machine

/-! ### Writes and reads past the cache (R534, R537, R543) -/

theorem lineOf_congr {c c' : Chip} (hsets : c'.buf.sets = c.buf.sets) (hvictims : c'.buf.victims = c.buf.victims)
    (hwaits : c'.buf.allocWaits = c.buf.allocWaits) (hevicts : c'.buf.evicts = c.buf.evicts) (line : Nat) : c'.lineOf line = c.lineOf line := by
  simp only [Chip.lineOf, Chip.cacheSet, hsets, hvictims, hwaits, hevicts]

/-- A write over no cached line is a write to DRAM. -/
theorem memWrite_uncached {c : Chip} {a : Nat} {bs : List Byte} (h : ∀ p ∈ linePieces a bs.length, (c.dramWrite a bs).lineOf p.1 = none) :
    c.memWrite a bs = c.dramWrite a bs := by
  unfold Chip.memWrite
  generalize linePieces a bs.length = ps at h
  generalize c.dramWrite a bs = d at h
  induction ps with
  | nil => rw [List.foldl_nil]
  | cons p ps ih =>
    rw [List.foldl_cons, h p List.mem_cons_self]
    exact ih fun q hq => h q (List.mem_cons_of_mem _ hq)

theorem Stored.lineOf {c c' : Chip} {a : Nat} {bs : List Byte} (h : Stored c a bs c') (line : Nat) : c'.lineOf line = c.lineOf line := by
  rw [h.eq]
  exact lineOf_congr rfl rfl rfl rfl line

/-- A write to good units over no cached line. -/
theorem stored_memWrite {c : Chip} {a : Nat} {bs : List Byte} (hunits : ∀ u ∈ unitsOf a bs.length, c.unitMark u = .good)
    (hlines : ∀ p ∈ linePieces a bs.length, c.lineOf p.1 = none) : Stored c a bs (c.memWrite a bs) := by
  have h := stored_dramWrite hunits
  rw [memWrite_uncached fun p hp => (h.lineOf _).trans (hlines p hp)]
  exact h

/-- A write of whole units reads none of them first. -/
theorem dramWrite_whole (c : Chip) {a : Nat} {bs : List Byte} (ha : a % 64 = 0) (hn : bs.length % 64 = 0) : c.dramWrite a bs = c.bufWrite a bs := by
  have hpart : (unitsOf a bs.length).filter (fun u => decide (64 * u < a) || decide (a + bs.length < 64 * u + 64)) = [] := by
    refine List.filter_eq_nil_iff.2 fun u hu => ?_
    obtain ⟨i, hi, rfl⟩ := List.mem_map.1 hu
    have := List.mem_range.1 hi
    simp only [Bool.or_eq_true, decide_eq_true_eq, not_or]
    omega
  rw [Chip.dramWrite, hpart, List.foldl_nil]

theorem memWrite_whole {c : Chip} {a : Nat} {bs : List Byte} (ha : a % 64 = 0) (hn : bs.length % 64 = 0)
    (hlines : ∀ p ∈ linePieces a bs.length, c.lineOf p.1 = none) : c.memWrite a bs = c.bufWrite a bs := by
  rw [memWrite_uncached, dramWrite_whole c ha hn]
  intro p hp
  rw [dramWrite_whole c ha hn, lineOf_congr (bufWrite_sets _ _ _) (bufWrite_victims _ _ _) (bufWrite_allocWaits _ _ _) (bufWrite_evicts _ _ _)]
  exact hlines p hp

/-- The one piece of a run of bytes within a line. -/
theorem linePieces_one {a n : Nat} (hn : 0 < n) (h : a % 4096 + n ≤ 4096) : linePieces a n = [(a / 4096, a % 4096, n)] := by
  have hone : (a + n + 4095) / 4096 - a / 4096 = 1 := by omega
  have hoff : max a (4096 * (a / 4096)) - 4096 * (a / 4096) = a % 4096 := by omega
  have hlen : min (a + n) (4096 * (a / 4096) + 4096) - max a (4096 * (a / 4096)) = n := by omega
  simp only [linePieces, hone, List.range_one, List.map_cons, List.map_nil, Nat.add_zero, hoff, hlen]

/-- A read of good units within one line that is not cached. -/
theorem memRead_one {c : Chip} {a n : Nat} (hn : 0 < n) (h : a % 4096 + n ≤ 4096) (hunits : ∀ u ∈ unitsOf a n, c.unitMark u = .good)
    (hline : c.lineOf (a / 4096) = none) : c.memRead a n = (some (c.bytes a n), c) := by
  have haddr : 4096 * (a / 4096) + a % 4096 = a := by omega
  simp only [Chip.memRead, linePieces_one hn h, List.foldl_cons, List.foldl_nil, hline, haddr, readUnits_allGood hunits, Bool.false_eq_true, if_false,
    Option.map_some, List.nil_append]

/-! ### Writes through the cache -/

/-- Fields that a write of a block into the buffer may change. -/
def placeFields : List Fld := [BUF_INJECT_ARMED, CCH_HITS_COUNT, CCH_VICTIM_HITS_COUNT, CCH_EVICT_HITS_COUNT, CCH_INSTALLS_COUNT]

/-- Only the bytes, the check symbols, the cache's arrays and its counts differ. -/
structure Placed (c c' : Chip) : Prop where
  eq : c' = { c with regs := c'.regs,
                     buf := { c.buf with mem := c'.buf.mem, marks := c'.buf.marks, sets := c'.buf.sets, victims := c'.buf.victims,
                                         evicts := c'.buf.evicts, allocWaits := c'.buf.allocWaits } }
  fields : c.fieldsKept placeFields c'

theorem Placed.refl (c : Chip) : Placed c c := ⟨rfl, fieldsKept_refl _ _⟩

theorem Placed.trans {a b c : Chip} (h : Placed a b) (h' : Placed b c) : Placed a c := by
  refine ⟨?_, fieldsKept_trans h.fields h'.fields⟩
  have hc := h'.eq
  rw [h.eq] at hc
  exact hc

theorem Placed.core {c c' : Chip} (h : Placed c c') : c'.core = c.core := by rw [h.eq]
theorem Placed.fills {c c' : Chip} (h : Placed c c') : c'.buf.fills = c.buf.fills := by rw [h.eq]

theorem placed_inc (c : Chip) {f : Fld} (h : f ∈ placeFields) : Placed c (c.inc f) := ⟨rfl, fieldsKept_inc _ h (fieldsKept_refl _ _)⟩

theorem placed_setCacheSet (c : Chip) (k : Nat) (s : CacheSet) : Placed c (c.setCacheSet k s) := ⟨rfl, fieldsKept_of_regs rfl⟩

theorem placed_bufWrite (c : Chip) (a : Nat) (bs : List Byte) : Placed c (c.bufWrite a bs) :=
  ⟨by rw [bufWrite_eq], fieldsKept_weaken (by simp [placeFields]) (bufWrite_fieldsKept c a bs)⟩

theorem placed_recall (c : Chip) (i : Nat) (l : Line) : Placed c (c.recall i l) := by
  have hinc : Placed c (c.inc CCH_VICTIM_HITS_COUNT) := placed_inc c (by simp [placeFields])
  unfold Chip.recall
  dsimp only
  split
  · refine Placed.trans ?_ (placed_setCacheSet _ _ _)
    exact hinc.trans ⟨rfl, fieldsKept_of_regs rfl⟩
  · refine Placed.trans ?_ (placed_setCacheSet _ _ _)
    split
    · exact hinc.trans ⟨rfl, fieldsKept_of_regs rfl⟩
    · exact hinc

theorem placed_touchLine (c : Chip) (line : Nat) : Placed c (c.touchLine line) := by
  unfold Chip.touchLine
  dsimp only
  split
  · exact (placed_inc c (by simp [placeFields])).trans (placed_setCacheSet _ _ _)
  · split
    · exact placed_recall _ _ _
    · split_ifs
      · exact placed_inc c (by simp [placeFields])
      · exact Placed.refl c

theorem placed_mapLine (c : Chip) (line : Nat) (f : Line → Line) : Placed c (c.mapLine line f) := by
  unfold Chip.mapLine
  dsimp only
  split
  · exact (placed_setCacheSet c _ _).trans ⟨rfl, fieldsKept_of_regs rfl⟩
  · exact ⟨rfl, fieldsKept_of_regs rfl⟩

theorem placed_pushVictim (c : Chip) (l : Line) : Placed c (c.pushVictim l) := by
  unfold Chip.pushVictim
  dsimp only
  split_ifs
  · exact ⟨rfl, fieldsKept_of_regs rfl⟩
  · split
    · exact ⟨rfl, fieldsKept_of_regs rfl⟩
    · exact Placed.refl c

theorem placed_install (c : Chip) (l : Line) : Placed c (c.install l) := by
  unfold Chip.install
  dsimp only
  split
  · exact placed_setCacheSet _ _ _
  · split_ifs
    · refine Placed.trans ?_ (placed_setCacheSet _ _ _)
      split
      · exact placed_pushVictim _ _
      · exact Placed.refl c
    · exact ⟨rfl, fieldsKept_of_regs rfl⟩

/-- The bytes of DRAM are untouched by an installation. -/
theorem mem_install (c : Chip) (l : Line) : (c.install l).buf.mem = c.buf.mem := by
  have hpush : ∀ l, (c.pushVictim l).buf.mem = c.buf.mem := fun l => by
    unfold Chip.pushVictim
    dsimp only
    split_ifs
    · rfl
    · split <;> rfl
  unfold Chip.install
  dsimp only
  split
  · rfl
  · split_ifs
    · split
      · exact hpush _
      · rfl
    · rfl

/-- A write of whole units through the cache. -/
theorem placed_memWrite (c : Chip) {a : Nat} {bs : List Byte} (ha : a % 64 = 0) (hn : bs.length % 64 = 0) : Placed c (c.memWrite a bs) := by
  unfold Chip.memWrite
  rw [dramWrite_whole c ha hn]
  have hwrite := placed_bufWrite c a bs
  generalize c.bufWrite a bs = d at hwrite
  generalize linePieces a bs.length = ps
  induction ps generalizing d with
  | nil =>
    rw [List.foldl_nil]
    exact hwrite
  | cons p ps ih =>
    rw [List.foldl_cons]
    refine ih _ ?_
    split
    · exact hwrite
    · exact (hwrite.trans (placed_touchLine _ _)).trans (placed_mapLine _ _ _)

/-! ### The Cistern (R520, R521) -/

/-- The bytes of a cell are sixteen words. -/
theorem length_cellBytes (c : Chip) (q i : Nat) : (c.cellBytes q i).length = 128 := by
  simp [Chip.cellBytes, List.length_flatMap, length_leBytes]

theorem spillState_spilling {c : Chip} (hspilling : c.core.spilling = true) (hroom : c.deepUsed < c.deepCells)
    (hlow : c.freeMiddle < c.fld CIS_CTRL_LOW_FREE + 4096) : c.spillState = c := by
  have hfull : decide (c.deepCells ≤ c.deepUsed) = false := decide_eq_false hroom.not_ge
  have hstop : decide (c.fld CIS_CTRL_LOW_FREE + 4096 ≤ c.freeMiddle) = false := decide_eq_false hlow.not_ge
  simp only [Chip.spillState, hfull, hspilling, hstop, Bool.false_eq_true, false_and, if_false, Bool.not_true, Bool.or_self]

/-- What starting or stopping to spill changes: the flag of the Cistern, its events and the device log. -/
structure SpillNoted (c c' : Chip) : Prop where
  eq : c' = { c with regs := c'.regs, core := c'.core }
  cis : c'.core.cis = c.core.cis
  sram : c'.core.sram = c.core.sram
  fields : c.fieldsKept [CIS_EVENT_SPILL_BEGIN, CIS_EVENT_DEEP_FULL] c'

theorem SpillNoted.trans {a b c : Chip} (h : SpillNoted a b) (h' : SpillNoted b c) : SpillNoted a c := by
  refine ⟨?_, h'.cis.trans h.cis, h'.sram.trans h.sram, fieldsKept_trans h.fields h'.fields⟩
  have hc := h'.eq
  rw [h.eq] at hc
  exact hc

theorem SpillNoted.buf {c c' : Chip} (h : SpillNoted c c') : c'.buf = c.buf := by rw [h.eq]

theorem SpillNoted.bytes {c c' : Chip} (h : SpillNoted c c') : c.bytesKept c' := bytesKept_of_eq (by rw [h.buf]) (by rw [h.eq]) h.sram

theorem spillNoted_spillState (c : Chip) : SpillNoted c c.spillState := by
  have hset : ∀ (d : Chip) (b : Bool), SpillNoted d { d with core := { d.core with spilling := b } } := fun d b =>
    ⟨rfl, rfl, rfl, fieldsKept_of_regs rfl⟩
  have hmark : ∀ (d : Chip) (f : Fld), f ∈ [CIS_EVENT_SPILL_BEGIN, CIS_EVENT_DEEP_FULL] → SpillNoted d (d.mark f) := fun d f hf =>
    ⟨rfl, rfl, rfl, fieldsKept_mark _ hf (fieldsKept_refl _ _)⟩
  have hlog : ∀ (d : Chip) code die l, SpillNoted d (d.log code die l) := fun d code die l => ⟨rfl, rfl, rfl, fieldsKept_of_regs rfl⟩
  have hrefl : SpillNoted c c := ⟨rfl, rfl, rfl, fieldsKept_refl _ _⟩
  unfold Chip.spillState
  extract_lets low full go stop d
  have hd : SpillNoted c d := by
    simp only [d]
    split_ifs
    · exact (hmark c _ (by simp)).trans (hlog _ _ _ _)
    · exact hrefl
  split_ifs
  · exact hd.trans ((hset d true).trans (hmark _ _ (by simp)))
  · exact hd.trans (hset d false)
  · exact hd

theorem deep_setDeep {c : Chip} {q i : Nat} (d : Option Nat) (hi : i < (c.cisQ q).mid.length) :
    (((c.setDeep q i d).cisQ q).mid.getD i ⟨0, none⟩).deep = d := by
  rw [Chip.setDeep, cisQ_setCisQ, List.getD_eq_getElem?_getD, List.getElem?_mapIdx, List.getElem?_eq_getElem hi]
  simp

theorem setDeep_regs (c : Chip) (q i : Nat) (d : Option Nat) : (c.setDeep q i d).regs = c.regs := setCisQ_regs _ _ _
theorem setDeep_buf (c : Chip) (q i : Nat) (d : Option Nat) : (c.setDeep q i d).buf = c.buf := setCisQ_buf _ _ _
theorem bytesKept_setDeep (c : Chip) (q i : Nat) (d : Option Nat) : c.bytesKept (c.setDeep q i d) :=
  bytesKept_of_eq (by rw [setDeep_buf]) rfl rfl

theorem cisQ_congr {c c' : Chip} (h : c'.core.cis = c.core.cis) (q : Nat) : c'.cisQ q = c.cisQ q := by rw [Chip.cisQ, Chip.cisQ, h]

section cistern
variable {s : State}

theorem completes_cisternSpill {stamp q i : Nat} (hspilling : s.chip.core.spilling = true) (hroom : s.chip.deepUsed < s.chip.deepCells)
    (hlow : s.chip.freeMiddle < s.chip.fld CIS_CTRL_LOW_FREE + 4096) (hcell : s.chip.spillable = [(stamp, q, i)])
    (hi : i < (s.chip.cisQ q).mid.length)
    (hlines : ∀ p ∈ linePieces (s.chip.fld CIS_DEEP_BASE_BASE * mib + 128 * s.chip.deepFree) 128, s.chip.lineOf p.1 = none) :
    Completes .cisternSpill s fun c =>
      ((c.cisQ q).mid.getD i ⟨0, none⟩).deep = some s.chip.deepFree ∧
      (∀ j < 128, c.byte (s.chip.fld CIS_DEEP_BASE_BASE * mib + 128 * s.chip.deepFree + j) = (s.chip.cellBytes q i).getD j 0) ∧
      (∀ x, x < s.chip.fld CIS_DEEP_BASE_BASE * mib + 128 * s.chip.deepFree ∨ s.chip.fld CIS_DEEP_BASE_BASE * mib + 128 * s.chip.deepFree + 128 ≤ x →
        c.byte x = s.chip.byte x) ∧
      c.fld CIS_SPILLS_COUNT = min (s.chip.fld CIS_SPILLS_COUNT + 1) (2 ^ 32 - 1) ∧
      s.chip.fieldsKept [CIS_SPILLS_COUNT, CIS_EVENT_SPILL_BEGIN, CIS_EVENT_DEEP_FULL, BUF_INJECT_ARMED] c := by
  refine completes_on (f := Chip.spill) rfl ?_
  generalize ha : s.chip.fld CIS_DEEP_BASE_BASE * mib + 128 * s.chip.deepFree = a at hlines
  have hwhole : a % 64 = 0 := by
    rw [← ha]
    simp only [mib]
    omega
  have hlen := length_cellBytes s.chip q i
  have hwrite : s.chip.memWrite a (s.chip.cellBytes q i) = s.chip.bufWrite a (s.chip.cellBytes q i) :=
    memWrite_whole hwhole (by rw [hlen]) (by rwa [hlen])
  have hspill : s.chip.spill = (((s.chip.bufWrite a (s.chip.cellBytes q i)).setDeep q i (some s.chip.deepFree)).inc CIS_SPILLS_COUNT).spillState := by
    rw [Chip.spill, spillState_spilling hspilling hroom hlow, hcell, hspilling]
    simp only [Bool.not_true, Bool.false_eq_true, if_false, List.foldl_cons, List.foldl_nil, ha, hwrite]
  rw [hspill]
  have hbyte := fun x => byte_bufWrite_apart s.chip (a := a) (x := x) (bs := s.chip.cellBytes q i)
  have hbyte' := fun j b => byte_bufWrite_at s.chip a (bs := s.chip.cellBytes q i) (i := j) (b := b)
  have hfields := bufWrite_fieldsKept s.chip a (s.chip.cellBytes q i)
  have hcis : (s.chip.bufWrite a (s.chip.cellBytes q i)).cisQ q = s.chip.cisQ q := cisQ_congr (by rw [bufWrite_core]) q
  generalize s.chip.bufWrite a (s.chip.cellBytes q i) = d at hbyte hbyte' hfields hcis
  have hmid := deep_setDeep (c := d) (q := q) (some s.chip.deepFree) (by rwa [hcis])
  have hregs := setDeep_regs d q i (some s.chip.deepFree)
  have hmem : ∀ x, (d.setDeep q i (some s.chip.deepFree)).byte x = d.byte x := fun x => by rw [Chip.byte, setDeep_buf, ← Chip.byte]
  generalize d.setDeep q i (some s.chip.deepFree) = e at hmid hregs hmem
  have hnoted := spillNoted_spillState (e.inc CIS_SPILLS_COUNT)
  have hcis : (e.inc CIS_SPILLS_COUNT).spillState.core.cis = e.core.cis := by rw [hnoted.cis, inc_core]
  have hfinal : ∀ x, (e.inc CIS_SPILLS_COUNT).spillState.byte x = d.byte x := fun x => by
    rw [Chip.byte, hnoted.buf, inc_buf, ← Chip.byte, hmem]
  refine ⟨?_, fun j hj => ?_, fun x hx => ?_, ?_, ?_⟩
  · rw [cisQ_congr hcis]
    exact hmid
  · rw [hfinal]
    refine hbyte' j _ ?_
    rw [List.getD_eq_getElem?_getD, List.getElem?_eq_getElem (by omega), Option.getD_some]
  · rw [hfinal]
    exact hbyte x (by rwa [hlen])
  · rw [hnoted.fields _ (by decide) (by decide), fld_inc_same _ _ (by decide), fld_of_regs hregs, hfields _ (by decide) (by decide)]
    rfl
  · refine fieldsKept_trans ?_ (fieldsKept_weaken (by simp) hnoted.fields)
    refine fieldsKept_inc _ (by simp) (fieldsKept_regs hregs (fieldsKept_weaken (by simp) hfields))

theorem completes_cisternRecall {q i d : Nat} (hfind : (s.chip.cisQ q).mid.findIdx? (fun x => x.deep.isSome) = some i)
    (hdeep : ((s.chip.cisQ q).mid.getD i ⟨0, none⟩).deep = some d) (hnear : i = 0 ∨ i + 1 ≤ s.chip.fld CIS_CTRL_RECALL_AHEAD)
    (hfree : 0 < s.chip.freeMiddle)
    (hgood : ∀ u ∈ unitsOf (s.chip.fld CIS_DEEP_BASE_BASE * mib + 128 * d) 128, s.chip.unitMark u = .good) :
    Completes (.cisternRecall q) s fun c =>
      ((c.cisQ q).mid.getD i ⟨0, none⟩).deep = none ∧ c.fld CIS_RECALLS_COUNT = min (s.chip.fld CIS_RECALLS_COUNT + 1) (2 ^ 32 - 1) ∧
      s.chip.fieldsKept [CIS_RECALLS_COUNT, CIS_EVENT_SPILL_BEGIN, CIS_EVENT_DEEP_FULL] c ∧ s.chip.bytesKept c := by
  refine completes_on (f := fun c => c.recallCell q) rfl ?_
  have hgo : ¬ (s.chip.fld CIS_CTRL_RECALL_AHEAD < i + 1 ∧ i ≠ 0 ∨ s.chip.freeMiddle = 0) := by omega
  have hrecall : s.chip.recallCell q = ((s.chip.setDeep q i none).inc CIS_RECALLS_COUNT).spillState := by
    simp only [Chip.recallCell, hfind, if_neg hgo, hdeep, Option.getD_some, readUnits_allGood hgood]
  rw [hrecall]
  have hi : i < (s.chip.cisQ q).mid.length := (List.findIdx?_eq_some_iff_findIdx_eq.1 hfind).1
  have hmid := deep_setDeep (c := s.chip) (q := q) none hi
  have hregs := setDeep_regs s.chip q i none
  have hbytes := bytesKept_setDeep s.chip q i none
  generalize s.chip.setDeep q i none = e at hmid hregs hbytes
  have hnoted := spillNoted_spillState (e.inc CIS_RECALLS_COUNT)
  have hcis : (e.inc CIS_RECALLS_COUNT).spillState.core.cis = e.core.cis := by rw [hnoted.cis, inc_core]
  refine ⟨?_, ?_, ?_, ?_⟩
  · rw [cisQ_congr hcis]
    exact hmid
  · rw [hnoted.fields _ (by decide) (by decide), fld_inc_same _ _ (by decide), fld_of_regs hregs]
    rfl
  · exact fieldsKept_trans (fieldsKept_inc _ (by simp) (fieldsKept_of_regs hregs)) (fieldsKept_weaken (by simp) hnoted.fields)
  · exact bytesKept_trans (bytesKept_trans hbytes (bytesKept_of_regsOnly (regsOnly_inc _ (regsOnly_refl _)))) hnoted.bytes

end cistern

/-! ### The device log (R525) -/

/-- Words of eight bytes one behind the other. -/
theorem getElem?_flatMap_leBytes (f : Nat → Nat) {n j : Nat} (h : j < 8 * n) :
    ((List.range n).flatMap fun i => leBytes 8 (f i))[j]? = some (BitVec.ofNat 8 (f (j / 8) / 256 ^ (j % 8))) := by
  induction n with
  | zero => omega
  | succ n ih =>
    have hlen : ((List.range n).flatMap fun i => leBytes 8 (f i)).length = 8 * n := by
      simp [List.length_flatMap, length_leBytes, Nat.mul_comm]
    rw [List.range_succ, List.flatMap_append, List.flatMap_singleton]
    by_cases hj : j < 8 * n
    · rw [List.getElem?_append_left (by omega), ih hj]
    · rw [List.getElem?_append_right (by omega), hlen, getElem?_leBytes (by omega), show j / 8 = n by omega, show j % 8 = j - 8 * n by omega]

theorem fld_wrapInc_same (c : Chip) (f : Fld) (h : f.lo + f.w ≤ 64) : (c.wrapInc f).fld f = (c.fld f + 1) % 2 ^ f.w := fld_setFld_same c f _ h

/-- The bytes of a device log entry. -/
def entryBytes (ws : List Word) : List Byte := (List.range 4).flatMap fun i => leBytes 8 (ws.getD i 0).toNat

/-- The log writer's count of entries is `n`. -/
def Chip.setLogged (c : Chip) (n : Nat) : Chip := { c with core := { c.core with logged := n } }

@[simp] theorem setLogged_regs (c : Chip) (n : Nat) : (c.setLogged n).regs = c.regs := rfl
@[simp] theorem setLogged_buf (c : Chip) (n : Nat) : (c.setLogged n).buf = c.buf := rfl
@[simp] theorem setLogged_host (c : Chip) (n : Nat) : (c.setLogged n).host = c.host := rfl
@[simp] theorem logged_setLogged (c : Chip) (n : Nat) : (c.setLogged n).core.logged = n := rfl
theorem weir_setLogged (c : Chip) (n k : Nat) : (c.setLogged n).weir k = c.weir k := rfl

/-- The chip once an entry has gone to buffer DRAM. -/
def Chip.entryWritten (c : Chip) (a : Nat) (ws : List Word) : Chip :=
  (((c.takeItem 6 0).memWrite a (entryBytes ws)).setLogged (c.core.logged + 1)).wrapInc GEN_LOG_COUNT_COUNT

theorem stored_of_buf {c d : Chip} {a : Nat} {bs : List Byte} (h : d.buf = c.buf) (hunits : ∀ u ∈ unitsOf a bs.length, c.unitMark u = .good)
    (hlines : ∀ p ∈ linePieces a bs.length, c.lineOf p.1 = none) : Stored d a bs (d.memWrite a bs) :=
  stored_memWrite (fun u hu => by rw [Chip.unitMark, h, ← Chip.unitMark, hunits u hu])
    fun p hp => (lineOf_congr (by rw [h]) (by rw [h]) (by rw [h]) (by rw [h]) p.1).trans (hlines p hp)

/-- Port `x` is told that entries have come, up to number `n`. -/
def Chip.tellLog (c : Chip) (n x : Nat) : Chip :=
  { (c.postEvent x 4 0xFFFF 0 (n - c.host.logMark.getD x 0) 0 0) with
    host := { (c.postEvent x 4 0xFFFF 0 (n - c.host.logMark.getD x 0) 0 0).host with
                logMark := (c.postEvent x 4 0xFFFF 0 (n - c.host.logMark.getD x 0) 0 0).host.logMark.set x n } }

/-- The ports that asked for events are told. -/
def Chip.tellLogs (c : Chip) (n : Nat) : Chip :=
  (List.range 2).foldl (fun c x => if c.host.stationEvents.getD x false then c.tellLog n x else c) c

theorem tellLogs_quiet {c : Chip} (h : ∀ x < 2, c.host.stationEvents.getD x false = false) (n : Nat) : c.tellLogs n = c := by
  rw [Chip.tellLogs, show List.range 2 = [0, 1] from rfl, List.foldl_cons, List.foldl_cons, List.foldl_nil, h 0 (by decide),
    if_neg Bool.false_ne_true, h 1 (by decide), if_neg Bool.false_ne_true]

theorem logEntry_eq {c : Chip} {it : List WWord} {rest : List (List WWord)} (h : (c.weir (weirKey 6 0)).items = it :: rest) :
    c.logEntry =
      if (c.core.logged + 1) % 256 = 0 ∨ logAlarm (bitsOf ((it.map WWord.v).getD 1 0).toNat 0 16) then
        (c.entryWritten (mib + 32 * (c.core.logged % 32768)) (it.map WWord.v)).tellLogs (c.core.logged + 1)
      else c.entryWritten (mib + 32 * (c.core.logged % 32768)) (it.map WWord.v) := by
  simp only [Chip.logEntry, h]
  rfl

/-- What an entry's way to buffer DRAM changes. -/
structure EntryWritten (c : Chip) (a : Nat) (ws : List Word) (c' : Chip) : Prop where
  items : (c'.weir (weirKey 6 0)).items = (c.weir (weirKey 6 0)).items.tail
  logged : c'.core.logged = c.core.logged + 1
  count : c'.fld GEN_LOG_COUNT_COUNT = (c.fld GEN_LOG_COUNT_COUNT + 1) % 2 ^ 32
  at_ : ∀ j < 32, c'.byte (a + j) = BitVec.ofNat 8 ((ws.getD (j / 8) 0).toNat / 256 ^ (j % 8))
  apart : ∀ x, x < a ∨ a + 32 ≤ x → c'.byte x = c.byte x
  fields : c.fieldsKept [GEN_LOG_COUNT_COUNT, BUF_RMW_COUNT, BUF_INJECT_ARMED] c'
  host : c'.host = c.host

theorem entryWritten_of {c : Chip} {a : Nat} (ws : List Word) (hunits : ∀ u ∈ unitsOf a 32, c.unitMark u = .good)
    (hlines : ∀ p ∈ linePieces a 32, c.lineOf p.1 = none) : EntryWritten c a ws (c.entryWritten a ws) := by
  have hlen : (entryBytes ws).length = 32 := by simp [entryBytes, List.length_flatMap, length_leBytes]
  have htake := weirFrame_takeItem c 6 0
  have hitems := weir_takeItem c 6 0
  rw [Chip.entryWritten]
  generalize c.takeItem 6 0 = d at htake hitems
  have hstored : Stored d a (entryBytes ws) (d.memWrite a (entryBytes ws)) := stored_of_buf htake.buf (by rwa [hlen]) (by rwa [hlen])
  generalize d.memWrite a (entryBytes ws) = e at hstored
  have hcore : e.core = d.core := by rw [hstored.eq]
  have hbyte : ∀ x, d.byte x = c.byte x := fun x => by rw [Chip.byte, htake.buf, ← Chip.byte]
  have hweir : ∀ k, e.weir k = d.weir k := fun k => by rw [Chip.weir, hcore, ← Chip.weir]
  have hfields : c.fieldsKept [BUF_RMW_COUNT, BUF_INJECT_ARMED] (e.setLogged (c.core.logged + 1)) :=
    fieldsKept_regs (setLogged_regs _ _) (fieldsKept_trans (fieldsKept_of_regs htake.regs) hstored.fields)
  have hehost : e.host = c.host := by rw [hstored.eq, htake.chip]
  have hg := weir_setLogged e (c.core.logged + 1)
  have hbuf := setLogged_buf e (c.core.logged + 1)
  have hhost := setLogged_host e (c.core.logged + 1)
  have hlogged := logged_setLogged e (c.core.logged + 1)
  generalize e.setLogged (c.core.logged + 1) = g at hfields hg hbuf hhost hlogged
  have hfinal : ∀ x, (g.wrapInc GEN_LOG_COUNT_COUNT).byte x = e.byte x := fun x => by rw [Chip.byte, wrapInc_buf, hbuf, ← Chip.byte]
  refine ⟨?_, ?_, ?_, fun j hj => ?_, fun x hx => ?_, ?_, ?_⟩
  · rw [Chip.weir, wrapInc_core, ← Chip.weir, hg, hweir, hitems]
  · rw [wrapInc_core, hlogged]
  · rw [fld_wrapInc_same _ _ (by decide), hfields _ (by decide) (by decide)]
    rfl
  · rw [hfinal]
    exact hstored.byte_at (getElem?_flatMap_leBytes (fun i => (ws.getD i 0).toNat) hj)
  · rw [hfinal, hstored.byte_apart (by rwa [hlen]), hbyte]
  · exact fieldsKept_wrapInc _ (by simp) (fieldsKept_weaken (by simp) hfields)
  · rw [wrapInc_host, hhost, hehost]

section logs
variable {s : State}

theorem completes_logEntry {it : List WWord} {rest : List (List WWord)} (hitems : (s.chip.weir (weirKey 6 0)).items = it :: rest)
    (hunits : ∀ u ∈ unitsOf (mib + 32 * (s.chip.core.logged % 32768)) 32, s.chip.unitMark u = .good)
    (hlines : ∀ p ∈ linePieces (mib + 32 * (s.chip.core.logged % 32768)) 32, s.chip.lineOf p.1 = none)
    (hquiet : ∀ x < 2, s.chip.host.stationEvents.getD x false = false) :
    Completes .logEntry s (EntryWritten s.chip (mib + 32 * (s.chip.core.logged % 32768)) (it.map WWord.v)) := by
  refine completes_on (f := Chip.logEntry) rfl ?_
  have hwritten := entryWritten_of (c := s.chip) (it.map WWord.v) hunits hlines
  have hentry : s.chip.logEntry = s.chip.entryWritten (mib + 32 * (s.chip.core.logged % 32768)) (it.map WWord.v) := by
    rw [logEntry_eq hitems, tellLogs_quiet (by rwa [hwritten.host]), ite_self]
  rw [hentry]
  exact hwritten

/-! ### Fill entries (R552, R553) -/

end logs

/-- The fill commands of a core's slot are stale. -/
def Chip.fillsStale (c : Chip) (core slot : Nat) : Chip :=
  { c with buf := { c.buf with fills := c.buf.fills.map fun f => if f.core = core ∧ f.slot = slot then { f with gen := (f.gen + 1) % 256, stale := true } else f } }

theorem fillsStale_regs (c : Chip) (core slot : Nat) : (c.fillsStale core slot).regs = c.regs := rfl
theorem fillsStale_host (c : Chip) (core slot : Nat) : (c.fillsStale core slot).host = c.host := rfl
theorem fillsStale_core (c : Chip) (core slot : Nat) : (c.fillsStale core slot).core = c.core := rfl
theorem byte_fillsStale (c : Chip) (core slot x : Nat) : (c.fillsStale core slot).byte x = c.byte x := rfl

theorem stale_fillsStale {c : Chip} {core slot : Nat} {f : FillReq} (hf : f ∈ (c.fillsStale core slot).buf.fills) (hcore : f.core = core)
    (hslot : f.slot = slot) : f.stale = true := by
  obtain ⟨g, -, rfl⟩ := List.mem_map.1 hf
  by_cases hg : g.core = core ∧ g.slot = slot
  · rw [if_pos hg]
  · rw [if_neg hg] at hcore hslot
    exact absurd ⟨hcore, hslot⟩ hg

section fills
variable {s : State}

theorem completes_fillStale {core : Fin 12} {slot : Fin 4096} (hunits : ∀ u ∈ unitsOf (fillAddr core slot + 10) 1, s.chip.unitMark u = .good)
    (hlines : ∀ p ∈ linePieces (fillAddr core slot + 10) 1, s.chip.lineOf p.1 = none) : Completes (.bufFillStale core slot) s fun c =>
      c.byte (fillAddr core slot + 10) = s.chip.byte (fillAddr core slot + 10) + 1 ∧
      (∀ x, x < fillAddr core slot + 10 ∨ fillAddr core slot + 10 + 1 ≤ x → c.byte x = s.chip.byte x) ∧
      (∀ f ∈ c.buf.fills, f.core = core.val → f.slot = slot.val → f.stale = true) ∧
      s.chip.fieldsKept [BUF_FILL_STALE_SLOT, BUF_FILL_STALE_CORE, BUF_RMW_COUNT, BUF_INJECT_ARMED] c ∧ c.host = s.chip.host ∧ c.core = s.chip.core := by
  refine completes_on (f := fun c => c.fillStale core slot) rfl ?_
  have hdef : s.chip.fillStale core slot = ((((s.chip.setFld BUF_FILL_STALE_SLOT slot).setFld BUF_FILL_STALE_CORE core).memWrite (fillAddr core slot + 10)
      [((s.chip.setFld BUF_FILL_STALE_SLOT slot).setFld BUF_FILL_STALE_CORE core).byte (fillAddr core slot + 10) + 1]).fillsStale core slot) := rfl
  rw [hdef]
  generalize fillAddr core slot + 10 = a at hunits hlines
  have hset : s.chip.fieldsKept [BUF_FILL_STALE_SLOT, BUF_FILL_STALE_CORE] ((s.chip.setFld BUF_FILL_STALE_SLOT slot).setFld BUF_FILL_STALE_CORE core) :=
    fieldsKept_setFld _ _ (by simp) (fieldsKept_setFld _ _ (by simp) (fieldsKept_refl _ _))
  have honly : s.chip.regsOnly ((s.chip.setFld BUF_FILL_STALE_SLOT slot).setFld BUF_FILL_STALE_CORE core) :=
    regsOnly_setFld _ _ (regsOnly_setFld _ _ (regsOnly_refl _))
  generalize (s.chip.setFld BUF_FILL_STALE_SLOT slot).setFld BUF_FILL_STALE_CORE core = d at hset honly
  have hbuf : d.buf = s.chip.buf := by rw [honly]
  have hbyte : ∀ x, d.byte x = s.chip.byte x := fun x => by rw [Chip.byte, hbuf, ← Chip.byte]
  have hstored : Stored d a [d.byte a + 1] (d.memWrite a [d.byte a + 1]) := stored_of_buf hbuf hunits hlines
  have hat : (d.memWrite a [d.byte a + 1]).byte (a + 0) = d.byte a + 1 := hstored.byte_at rfl
  have hapart := fun x hx => hstored.byte_apart (x := x) hx
  have hfields := hstored.fields
  have hhost : (d.memWrite a [d.byte a + 1]).host = s.chip.host := by rw [hstored.eq, honly]
  have hcore : (d.memWrite a [d.byte a + 1]).core = s.chip.core := by rw [hstored.eq, honly]
  generalize d.memWrite a [d.byte a + 1] = e at hat hapart hfields hhost hcore
  refine ⟨?_, fun x hx => ?_, fun f hf => stale_fillsStale hf, ?_, ?_, ?_⟩
  · rw [byte_fillsStale]
    exact hat.trans (by rw [hbyte])
  · rw [byte_fillsStale]
    exact (hapart x hx).trans (hbyte x)
  · exact fieldsKept_regs (fillsStale_regs _ _ _) (fieldsKept_trans (fieldsKept_weaken (by simp) hset) (fieldsKept_weaken (by simp) hfields))
  · rw [fillsStale_host, hhost]
  · rw [fillsStale_core, hcore]

/-! ### Scrubs and BUF_INJECT (R541, R542, R565) -/

theorem scrubRange_iff (c : Chip) (start len : Nat) :
    c.scrubRange (start * 64) (len * 64) = true ↔ len * 64 ≠ 0 ∧ start * 64 + len * 64 ≤ c.bufferSize := by
  simp [Chip.scrubRange]

theorem completes_scrubGo : Completes .scrubGo s fun c =>
    (s.chip.buf.scrub.busy = false ∧ s.chip.fld BUF_SCRUB_LENGTH_LENGTH * 64 ≠ 0 ∧
        s.chip.fld BUF_SCRUB_START_START * 64 + s.chip.fld BUF_SCRUB_LENGTH_LENGTH * 64 ≤ s.chip.bufferSize →
      c.buf.scrub.busy = true ∧ c.buf.scrub.start = s.chip.fld BUF_SCRUB_START_START * 64 ∧ c.buf.scrub.len = s.chip.fld BUF_SCRUB_LENGTH_LENGTH * 64 ∧
      c.buf.scrub.init = s.chip.flag BUF_SCRUB_CTRL_MODE ∧ c.flag BUF_STATUS_SCRUB_BUSY = true ∧ s.chip.fieldsKept [BUF_STATUS_SCRUB_BUSY] c ∧
      s.chip.bytesKept c) ∧
    (s.chip.buf.scrub.busy = true ∨ s.chip.fld BUF_SCRUB_LENGTH_LENGTH * 64 = 0 ∨
      s.chip.bufferSize < s.chip.fld BUF_SCRUB_START_START * 64 + s.chip.fld BUF_SCRUB_LENGTH_LENGTH * 64 → c = s.chip) := by
  refine completes_on (f := Chip.scrubGo) rfl ⟨fun ⟨hbusy, hlen, hroom⟩ => ?_, fun hno => ?_⟩
  · have hrange := (scrubRange_iff s.chip _ _).2 ⟨hlen, hroom⟩
    simp only [Chip.scrubGo, hbusy, hrange, Bool.false_eq_true, Bool.not_true, or_self, if_false]
    refine ⟨rfl, rfl, rfl, rfl, ?_, ?_, bytesKept_of_eq rfl rfl rfl⟩
    · exact flag_mark_same _ BUF_STATUS_SCRUB_BUSY (by decide) (by decide)
    · exact fieldsKept_setFld _ _ List.mem_cons_self (fieldsKept_of_regs rfl)
  · have hstop : s.chip.buf.scrub.busy = true ∨
        (!s.chip.scrubRange (s.chip.fld BUF_SCRUB_START_START * 64) (s.chip.fld BUF_SCRUB_LENGTH_LENGTH * 64)) = true := by
      refine hno.imp_right fun h => ?_
      rw [Bool.not_eq_true', ← Bool.not_eq_true, scrubRange_iff]
      omega
    simp only [Chip.scrubGo, if_pos hstop]

theorem completes_injectArm : Completes .injectArm s fun c =>
    c.flag BUF_INJECT_ARMED = true ∧ s.chip.fieldsKept [BUF_INJECT_ARMED] c ∧ c = { s.chip with regs := c.regs } :=
  completes_on (f := fun c => c.setFld BUF_INJECT_ARMED 1) rfl ⟨flag_mark_same _ BUF_INJECT_ARMED (by decide) (by decide),
    fieldsKept_setFld _ _ List.mem_cons_self (fieldsKept_refl _ _), rfl⟩

end fills

/-! ### Block arrivals (R552) -/

/-- The number of `n` bytes from `o` on. -/
def bytesAt (l : List Byte) (o n : Nat) : Nat := ofLeBytes ((l.drop o).take n)

/-- Arrived block `bs` is none of fill entry `ent`. -/
def mismatched (bs ent : List Byte) : Bool :=
  bytesAt ent 9 1 != bytesAt bs 5 1 || decide (bytesAt bs 6 5 < bytesAt ent 4 5) || decide (bytesAt ent 4 5 + bytesAt ent 12 2 ≤ bytesAt bs 6 5)

/-- Arrived block `bs` answers an earlier use of fill entry `ent`. -/
def outdated (bs ent : List Byte) : Bool := bytesAt ent 10 1 != bytesAt bs 24 4 / 2 ^ 20 % 256

theorem mismatched_eq_false_iff {bs ent : List Byte} : mismatched bs ent = false ↔
    bytesAt ent 9 1 = bytesAt bs 5 1 ∧ bytesAt ent 4 5 ≤ bytesAt bs 6 5 ∧ bytesAt bs 6 5 < bytesAt ent 4 5 + bytesAt ent 12 2 := by
  simp [mismatched, and_assoc]

theorem outdated_eq_false_iff {bs ent : List Byte} : outdated bs ent = false ↔ bytesAt ent 10 1 = bytesAt bs 24 4 / 2 ^ 20 % 256 := by
  simp [outdated]

/-- A mismatch is counted and shown. -/
def Chip.noteMismatch (c : Chip) (b : Bool) : Chip := if b then (c.inc CCH_FILL_MISMATCH_COUNT).mark CCH_EVENT_FILL_MISMATCH else c

/-- An outdated entry is counted. -/
def Chip.noteOutdated (c : Chip) (b : Bool) : Chip := if b then c.inc CCH_FILL_STALE_COUNT else c

/-- The block's data go to their place. -/
def Chip.placeArrival (c : Chip) (bs ent : List Byte) (kept : Bool) : Chip :=
  if kept && decide (32 < bs.length) then
    c.storeArrival (bytesAt ent 0 4 + (bytesAt bs 6 5 - bytesAt ent 4 5)) ((bytesAt ent 11 1).testBit 0) (bs.drop 32)
  else c

/-- The core is told of the arrival. -/
def Chip.reportArrival (c : Chip) (core number lba outcome : Nat) (kept : Bool) (ws : List Word) : Chip :=
  let c := (c.commitItem 5 core ws).inc CCH_ARRIVALS_COUNT
  if c.coreOnline core then (c.takeItem 5 core).coreArrival number lba outcome kept else c

/-- The notice of an arrival. -/
def arrivalNotice (bs : List Byte) (mismatch stale : Bool) : List Word :=
  (List.range 4).map fun i => BitVec.ofNat 64 (bytesAt (bs.take 28 ++ leBytes 1 (stale.toNat + 2 * mismatch.toNat) ++ leBytes 3 0) (8 * i) 8)

theorem blockArrival_eq {c : Chip} {it : List WWord} {rest : List (List WWord)} {bs ent : List Byte} {core : Nat}
    (hitems : (c.weir (weirKey 16 0)).items = it :: rest) (hbs : it.flatMap (fun w => leBytes 8 w.v.toNat) = bs)
    (hcore : bytesAt bs 24 4 / 2 ^ 28 = core) (hlt : core < 12) (hcredits : 4 ≤ c.credits 5 core)
    (hread : c.memRead (fillAddr core (bytesAt bs 24 4 % 4096)) 16 = (some ent, c)) :
    c.blockArrival =
      ((((c.takeItem 16 0).noteMismatch (mismatched bs ent)).noteOutdated (outdated bs ent)).placeArrival bs ent (!mismatched bs ent && !outdated bs ent)).reportArrival
        core (bytesAt bs 24 4) (bytesAt bs 6 5) (bytesAt bs 11 1) (!mismatched bs ent && !outdated bs ent)
        (arrivalNotice bs (mismatched bs ent) (outdated bs ent)) := by
  have hno : ¬ (bytesAt bs 24 4 / 2 ^ 28 < 12 ∧ c.credits 5 (bytesAt bs 24 4 / 2 ^ 28) < 4) := by
    rw [hcore]
    omega
  have hlt' : bytesAt bs 24 4 / 2 ^ 28 < 12 := by rwa [hcore]
  have hge : ¬ 12 ≤ bytesAt bs 24 4 / 2 ^ 28 := by omega
  unfold Chip.blockArrival
  rw [hitems]
  dsimp only
  rw [hbs]
  refine (if_neg hno).trans ((if_neg hge).trans ?_)
  rw [if_pos (show ofLeBytes ((bs.drop 24).take 4) / 2 ^ 28 < 12 from hlt'), show ofLeBytes ((bs.drop 24).take 4) / 2 ^ 28 = core from hcore,
    show c.memRead (fillAddr core (ofLeBytes ((bs.drop 24).take 4) % 4096)) 16 = (some ent, c) from hread]
  rfl

/-- A fill entry lies within one line. -/
theorem memRead_fillEntry {c : Chip} {core slot : Nat} (hunits : ∀ u ∈ unitsOf (fillAddr core slot) 16, c.unitMark u = .good)
    (hlines : ∀ p ∈ linePieces (fillAddr core slot) 16, c.lineOf p.1 = none) :
    c.memRead (fillAddr core slot) 16 = (some (c.bytes (fillAddr core slot) 16), c) := by
  have hin : fillAddr core slot % 4096 + 16 ≤ 4096 := by
    simp only [fillAddr, mib]
    omega
  refine memRead_one (by omega) hin hunits (hlines (fillAddr core slot / 4096, fillAddr core slot % 4096, 16) ?_)
  rw [linePieces_one (by omega) hin]
  exact List.mem_cons_self

theorem coreArrival_none {c : Chip} (h : c.buf.fills = []) (number lba outcome : Nat) (kept : Bool) :
    c.coreArrival number lba outcome kept = c := by
  simp only [Chip.coreArrival, h, List.find?_nil]

/-- What an arrived block's count and its fields show. -/
structure ArrivalNoted (c : Chip) (m s : Bool) (c' : Chip) : Prop where
  only : c.regsOnly c'
  fields : c.fieldsKept [CCH_FILL_MISMATCH_COUNT, CCH_EVENT_FILL_MISMATCH, CCH_FILL_STALE_COUNT] c'
  mismatch : m = true → c'.flag CCH_EVENT_FILL_MISMATCH = true ∧
    c'.fld CCH_FILL_MISMATCH_COUNT = min (c.fld CCH_FILL_MISMATCH_COUNT + 1) (2 ^ 32 - 1)
  stale : s = true → c'.fld CCH_FILL_STALE_COUNT = min (c.fld CCH_FILL_STALE_COUNT + 1) (2 ^ 32 - 1)

theorem arrivalNoted (c : Chip) (m s : Bool) : ArrivalNoted c m s ((c.noteMismatch m).noteOutdated s) := by
  have hm : ArrivalNoted c m false (c.noteMismatch m) := by
    cases m
    · exact ⟨regsOnly_refl c, fieldsKept_refl _ _, nofun, nofun⟩
    · refine ⟨regsOnly_mark _ (regsOnly_inc _ (regsOnly_refl _)), fieldsKept_mark _ (by simp) (fieldsKept_inc _ (by simp) (fieldsKept_refl _ _)),
        fun _ => ⟨flag_mark_same _ CCH_EVENT_FILL_MISMATCH (by decide) (by decide), ?_⟩, nofun⟩
      rw [Chip.noteMismatch, if_pos rfl, fld_mark_apart _ _ _ (by decide) (by decide), fld_inc_same _ _ (by decide)]
      rfl
  have hcount : (c.noteMismatch m).fld CCH_FILL_STALE_COUNT = c.fld CCH_FILL_STALE_COUNT := by
    cases m
    · rfl
    · rw [Chip.noteMismatch, if_pos rfl, fld_mark_apart _ _ _ (by decide) (by decide), fld_inc_apart _ _ _ (by decide) (by decide)]
  generalize c.noteMismatch m = d at hm hcount
  cases s
  · exact hm
  · rw [Chip.noteOutdated, if_pos rfl]
    refine ⟨regsOnly_inc _ hm.only, fieldsKept_inc _ (by simp) hm.fields, fun h => ?_, fun _ => ?_⟩
    · rw [Chip.flag, fld_inc_apart _ _ _ (by decide) (by decide), fld_inc_apart _ _ _ (by decide) (by decide)]
      exact hm.mismatch h
    · rw [fld_inc_same _ _ (by decide), hcount]
      rfl

theorem placed_storeArrival (c : Chip) (line : Nat) (install : Bool) {data : List Byte} (hn : data.length % 64 = 0) :
    Placed c (c.storeArrival line install data) := by
  have hwrite : Placed c (c.memWrite (4096 * line) data) := placed_memWrite c (by omega) hn
  unfold Chip.storeArrival
  dsimp only
  split_ifs
  · exact (hwrite.trans (placed_install _ _)).trans (placed_inc _ (by simp [placeFields]))
  · exact hwrite

theorem placed_placeArrival (c : Chip) {bs : List Byte} (ent : List Byte) (kept : Bool) (hn : bs.length = 32 + 4096) :
    Placed c (c.placeArrival bs ent kept) := by
  unfold Chip.placeArrival
  split_ifs
  · exact placed_storeArrival c _ _ (by rw [List.length_drop, hn])
  · exact Placed.refl c

/-- A block's data in the buffer where no cached line lies over their place. -/
theorem mem_storeArrival {c : Chip} {line : Nat} (install : Bool) {data : List Byte} (hn : data.length = 4096) (hline : c.lineOf line = none) :
    (c.storeArrival line install data).buf.mem = (c.bufWrite (4096 * line) data).buf.mem := by
  have hpieces : linePieces (4096 * line) data.length = [(line, 0, 4096)] := by
    rw [hn, linePieces_one (by omega) (by omega)]
    simp only [List.cons.injEq, Prod.mk.injEq, and_true]
    omega
  have hwrite : c.memWrite (4096 * line) data = c.bufWrite (4096 * line) data := by
    refine memWrite_whole (by omega) (by rw [hn]) fun p hp => ?_
    rw [hpieces, List.mem_singleton] at hp
    rw [hp]
    exact hline
  unfold Chip.storeArrival
  dsimp only
  rw [hwrite]
  split_ifs
  · rw [inc_buf, mem_install]
  · rfl

theorem placeArrival_dropped (c : Chip) (bs ent : List Byte) : c.placeArrival bs ent false = c := by
  rw [Chip.placeArrival, Bool.false_and, if_neg Bool.false_ne_true]

theorem placeArrival_kept (c : Chip) {bs : List Byte} (ent : List Byte) (hn : 32 < bs.length) :
    c.placeArrival bs ent true =
      c.storeArrival (bytesAt ent 0 4 + (bytesAt bs 6 5 - bytesAt ent 4 5)) ((bytesAt ent 11 1).testBit 0) (bs.drop 32) := by
  rw [Chip.placeArrival, Bool.true_and, if_pos (decide_eq_true hn)]

/-- What the report to the core changes: its weir of arrivals, and the count. -/
structure ArrivalReported (c : Chip) (core : Nat) (c' : Chip) : Prop where
  weir : ∀ k, k ≠ weirKey 5 core → c'.weir k = c.weir k
  count : c'.fld CCH_ARRIVALS_COUNT = min (c.fld CCH_ARRIVALS_COUNT + 1) (2 ^ 32 - 1)
  fields : c.fieldsKept [CCH_ARRIVALS_COUNT] c'
  mem : c'.buf.mem = c.buf.mem
  bytes : c.bytesKept c'

theorem arrivalReported_reportArrival {c : Chip} (h : c.buf.fills = []) (core number lba outcome : Nat) (kept : Bool) (ws : List Word) :
    ArrivalReported c core (c.reportArrival core number lba outcome kept ws) := by
  have hcommit : WeirFrame (weirKey 5 core) c (c.commitItem 5 core ws) := (WeirFrame.refl _ c).updWeir _
  unfold Chip.reportArrival
  generalize c.commitItem 5 core ws = d at hcommit
  have hcount := fld_inc_same d CCH_ARRIVALS_COUNT (by decide)
  rw [fld_of_regs hcommit.regs] at hcount
  have hfields : c.fieldsKept [CCH_ARRIVALS_COUNT] (d.inc CCH_ARRIVALS_COUNT) := fieldsKept_inc _ List.mem_cons_self (fieldsKept_of_regs hcommit.regs)
  have hbytes : c.bytesKept (d.inc CCH_ARRIVALS_COUNT) :=
    bytesKept_trans hcommit.bytesKept (bytesKept_of_regsOnly (regsOnly_inc _ (regsOnly_refl _)))
  have hbuf : (d.inc CCH_ARRIVALS_COUNT).buf = c.buf := by rw [inc_buf, hcommit.buf]
  have hweir : ∀ k, k ≠ weirKey 5 core → (d.inc CCH_ARRIVALS_COUNT).weir k = c.weir k := fun k hk => by
    rw [Chip.weir, inc_core, ← Chip.weir, hcommit.weir k hk]
  generalize d.inc CCH_ARRIVALS_COUNT = e at hcount hfields hbytes hbuf hweir
  dsimp only
  split_ifs
  · have htake := weirFrame_takeItem e 5 core
    generalize e.takeItem 5 core = f at htake
    rw [coreArrival_none (by rw [htake.buf, hbuf, h])]
    exact ⟨fun k hk => (htake.weir k hk).trans (hweir k hk), by rw [fld_of_regs htake.regs, hcount]; rfl, fieldsKept_regs htake.regs hfields,
      by rw [htake.buf, hbuf], bytesKept_trans hbytes htake.bytesKept⟩
  · exact ⟨hweir, by rw [hcount]; rfl, hfields, by rw [hbuf], hbytes⟩

section arrival
variable {s : State}

theorem completes_blockArrival {it : List WWord} {rest : List (List WWord)} {bs ent : List Byte} {core : Nat}
    (hitems : (s.chip.weir (weirKey 16 0)).items = it :: rest) (hbs : it.flatMap (fun w => leBytes 8 w.v.toNat) = bs)
    (hcore : bytesAt bs 24 4 / 2 ^ 28 = core) (hlt : core < 12) (hcredits : 4 ≤ s.chip.credits 5 core) (hfills : s.chip.buf.fills = [])
    (hread : s.chip.memRead (fillAddr core (bytesAt bs 24 4 % 4096)) 16 = (some ent, s.chip)) (hlen : bs.length = 32 + 4096) :
    Completes .blockArrival s fun c =>
      (c.weir (weirKey 16 0)).items = rest ∧ c.fld CCH_ARRIVALS_COUNT = min (s.chip.fld CCH_ARRIVALS_COUNT + 1) (2 ^ 32 - 1) ∧
      (mismatched bs ent = true → c.flag CCH_EVENT_FILL_MISMATCH = true ∧ s.chip.bytesKept c ∧
        c.fld CCH_FILL_MISMATCH_COUNT = min (s.chip.fld CCH_FILL_MISMATCH_COUNT + 1) (2 ^ 32 - 1)) ∧
      (outdated bs ent = true → s.chip.bytesKept c ∧ c.fld CCH_FILL_STALE_COUNT = min (s.chip.fld CCH_FILL_STALE_COUNT + 1) (2 ^ 32 - 1)) ∧
      (mismatched bs ent = false → outdated bs ent = false →
        s.chip.lineOf (bytesAt ent 0 4 + (bytesAt bs 6 5 - bytesAt ent 4 5)) = none →
        (∀ j < 4096, c.byte (4096 * (bytesAt ent 0 4 + (bytesAt bs 6 5 - bytesAt ent 4 5)) + j) = bs.getD (32 + j) 0) ∧
        ∀ x, x < 4096 * (bytesAt ent 0 4 + (bytesAt bs 6 5 - bytesAt ent 4 5)) ∨
          4096 * (bytesAt ent 0 4 + (bytesAt bs 6 5 - bytesAt ent 4 5)) + 4096 ≤ x → c.byte x = s.chip.byte x) := by
  refine completes_on (f := Chip.blockArrival) rfl ?_
  rw [blockArrival_eq hitems hbs hcore hlt hcredits hread]
  have htake := weirFrame_takeItem s.chip 16 0
  have hrest := congrArg Weir.items (weir_takeItem s.chip 16 0)
  generalize s.chip.takeItem 16 0 = d at htake hrest
  have hnoted := arrivalNoted d (mismatched bs ent) (outdated bs ent)
  generalize (d.noteMismatch (mismatched bs ent)).noteOutdated (outdated bs ent) = e at hnoted
  have hplaced := placed_placeArrival e ent (!mismatched bs ent && !outdated bs ent) hlen
  have hebuf : e.buf = s.chip.buf := by rw [hnoted.only, htake.buf]
  have hecore : e.core = d.core := by rw [hnoted.only]
  have hsame : e.placeArrival bs ent (!mismatched bs ent && !outdated bs ent) = e ∨ (mismatched bs ent = false ∧ outdated bs ent = false) := by
    cases mismatched bs ent
    · cases outdated bs ent
      · exact .inr ⟨rfl, rfl⟩
      · exact .inl (placeArrival_dropped e bs ent)
    · exact .inl (placeArrival_dropped e bs ent)
  have hkept : mismatched bs ent = false → outdated bs ent = false → e.placeArrival bs ent (!mismatched bs ent && !outdated bs ent) =
      e.storeArrival (bytesAt ent 0 4 + (bytesAt bs 6 5 - bytesAt ent 4 5)) ((bytesAt ent 11 1).testBit 0) (bs.drop 32) := fun hm ho => by
    rw [hm, ho]
    exact placeArrival_kept e ent (by omega)
  generalize e.placeArrival bs ent (!mismatched bs ent && !outdated bs ent) = g at hplaced hsame hkept
  have hreport := arrivalReported_reportArrival (c := g) (by rw [hplaced.fills, hebuf, hfills]) core (bytesAt bs 24 4) (bytesAt bs 6 5) (bytesAt bs 11 1)
    (!mismatched bs ent && !outdated bs ent) (arrivalNotice bs (mismatched bs ent) (outdated bs ent))
  generalize g.reportArrival core (bytesAt bs 24 4) (bytesAt bs 6 5) (bytesAt bs 11 1) (!mismatched bs ent && !outdated bs ent)
    (arrivalNotice bs (mismatched bs ent) (outdated bs ent)) = k at hreport
  have hfld : ∀ f, f.lo + f.w ≤ 64 → (∀ x ∈ placeFields, apart f x) → apart f CCH_ARRIVALS_COUNT → k.fld f = e.fld f := fun f hw hf hcount =>
    (hreport.fields f hw (by simpa using hcount)).trans (hplaced.fields f hw hf)
  have hbytes : g = e → s.chip.bytesKept k := fun heq => by
    subst heq
    exact bytesKept_trans (bytesKept_trans htake.bytesKept (bytesKept_of_regsOnly hnoted.only)) hreport.bytes
  have hregs : d.regs = s.chip.regs := htake.regs
  refine ⟨?_, ?_, fun hm => ?_, fun ho => ?_, fun hm ho hline => ?_⟩
  · rw [hreport.weir _ (by simp only [weirKey]; omega), Chip.weir, hplaced.core, hecore, ← Chip.weir, hrest]
    simp only [hitems, List.tail_cons]
  · rw [hreport.count, hplaced.fields _ (by decide) (by decide), hnoted.fields _ (by decide) (by decide), fld_of_regs hregs]
  · obtain ⟨hflag, hcount⟩ := hnoted.mismatch hm
    refine ⟨?_, hbytes (hsame.resolve_right fun h => by simp [h.1] at hm), ?_⟩
    · rw [Chip.flag, hfld _ (by decide) (by decide) (by decide)]
      exact hflag
    · rw [hfld _ (by decide) (by decide) (by decide), hcount, fld_of_regs hregs]
  · refine ⟨hbytes (hsame.resolve_right fun h => by simp [h.2] at ho), ?_⟩
    rw [hfld _ (by decide) (by decide) (by decide), hnoted.stale ho, fld_of_regs hregs]
  · have hdata : (bs.drop 32).length = 4096 := by rw [List.length_drop, hlen]
    have hmem : k.buf.mem = _ := hreport.mem.trans ((congrArg (fun c : Chip => c.buf.mem) (hkept hm ho)).trans
      (mem_storeArrival _ hdata ((lineOf_congr (by rw [hebuf]) (by rw [hebuf]) (by rw [hebuf]) (by rw [hebuf]) _).trans hline)))
    generalize bytesAt ent 0 4 + (bytesAt bs 6 5 - bytesAt ent 4 5) = line at hmem
    refine ⟨fun j hj => ?_, fun x hx => ?_⟩
    · rw [Chip.byte, hmem, ← Chip.byte]
      refine byte_bufWrite_at e (4096 * line) ?_
      rw [List.getElem?_drop, List.getD_eq_getElem?_getD, List.getElem?_eq_getElem (by omega), Option.getD_some]
    · rw [Chip.byte, hmem, ← Chip.byte, byte_bufWrite_apart _ (by rwa [hdata]), Chip.byte, hebuf, ← Chip.byte]

end arrival

/-! ### The end of an INIT scrub (R541, R542) -/

theorem byte_scrubInit_of_memWf {c : Chip} (hwf : c.memWf = true) (start len a : Nat) :
    (c.scrubInit start len).byte a = if a < start ∨ start + len ≤ a then c.byte a else 0 := by
  have h := Cells.get_filter memBlank c.buf.mem (fun k => decide (k < start) || decide (start + len ≤ k)) a hwf
  simp only [Bool.or_eq_true, decide_eq_true_eq] at h
  exact h

/-- The scrub engine is free, with the counts `s`. -/
def Chip.scrubIdle (c : Chip) (s : Scrub) : Chip := { c with buf := { c.buf with scrub := { s with busy := false, uid := none } } }

theorem scrubIdle_regs (c : Chip) (s : Scrub) : (c.scrubIdle s).regs = c.regs := rfl
theorem scrubIdle_host (c : Chip) (s : Scrub) : (c.scrubIdle s).host = c.host := rfl
theorem byte_scrubIdle (c : Chip) (s : Scrub) (a : Nat) : (c.scrubIdle s).byte a = c.byte a := rfl
theorem busy_scrubIdle (c : Chip) (s : Scrub) : (c.scrubIdle s).buf.scrub.busy = false := rfl

/-- What the registers show at the end of a scrub. -/
def Chip.scrubShown (c : Chip) (n corrected uncorrectable : Nat) : Chip :=
  ((((c.add BUF_SCRUB_UNITS_COUNT n).setFld BUF_STATUS_SCRUB_BUSY 0).mark BUF_EVENT_SCRUB_DONE).setFld BUF_SCRUB_RESULT_CORRECTED corrected).setFld
    BUF_SCRUB_RESULT_UNCORRECTABLE uncorrectable

/-- The fields of the scrub engine. -/
def scrubFields : List Fld :=
  [BUF_STATUS_SCRUB_BUSY, BUF_EVENT_SCRUB_DONE, BUF_SCRUB_UNITS_COUNT, BUF_SCRUB_RESULT_CORRECTED, BUF_SCRUB_RESULT_UNCORRECTABLE]

structure ScrubShown (c : Chip) (n : Nat) (c' : Chip) : Prop where
  only : c.regsOnly c'
  fields : c.fieldsKept scrubFields c'
  idle : c'.flag BUF_STATUS_SCRUB_BUSY = false
  done : c'.flag BUF_EVENT_SCRUB_DONE = true
  units : c'.fld BUF_SCRUB_UNITS_COUNT = min (c.fld BUF_SCRUB_UNITS_COUNT + n) (2 ^ 32 - 1)

theorem scrubShown_spec (c : Chip) (n x y : Nat) : ScrubShown c n (c.scrubShown n x y) := by
  unfold Chip.scrubShown
  refine ⟨?_, ?_, ?_, ?_, ?_⟩
  · refine regsOnly_setFld _ _ (regsOnly_setFld _ _ (regsOnly_mark _ (regsOnly_setFld _ _ (regsOnly_add _ _ (regsOnly_refl _)))))
  · refine fieldsKept_setFld _ _ (by simp [scrubFields]) (fieldsKept_setFld _ _ (by simp [scrubFields]) (fieldsKept_mark _ (by simp [scrubFields])
      (fieldsKept_setFld _ _ (by simp [scrubFields]) (fieldsKept_add _ _ (by simp [scrubFields]) (fieldsKept_refl _ _)))))
  · rw [flag_setFld_apart _ _ _ _ (by decide) (by decide), flag_setFld_apart _ _ _ _ (by decide) (by decide),
      flag_mark_apart _ _ _ (by decide) (by decide), Chip.flag, fld_setFld_same _ _ _ (by decide)]
    rfl
  · rw [flag_setFld_apart _ _ _ _ (by decide) (by decide), flag_setFld_apart _ _ _ _ (by decide) (by decide)]
    exact flag_mark_same _ BUF_EVENT_SCRUB_DONE (by decide) (by decide)
  · rw [fld_setFld_apart _ _ _ _ (by decide) (by decide), fld_setFld_apart _ _ _ _ (by decide) (by decide), fld_mark_apart _ _ _ (by decide) (by decide),
      fld_setFld_apart _ _ _ _ (by decide) (by decide), fld_add_same _ _ _ (by decide)]
    rfl

theorem nextScrub_none {c : Chip} (h : ∀ m ∈ c.host.cmds, m.opcode ≠ opScrub) : c.nextScrub = c := by
  have hfind : c.host.cmds.find? (fun m => m.opcode == opScrub && m.started && m.status.isNone && m.wait == .engine) = none :=
    List.find?_eq_none.2 fun m hm => by simp [h m hm]
  rw [Chip.nextScrub, hfind]

theorem scrubDone_init {c : Chip} (hbusy : c.buf.scrub.busy = true) (hinit : c.buf.scrub.init = true) (huid : c.buf.scrub.uid = none)
    (hcmds : ∀ m ∈ c.host.cmds, m.opcode ≠ opScrub) :
    c.scrubDone [] =
      ((c.scrubInit c.buf.scrub.start c.buf.scrub.len).scrubShown (c.buf.scrub.len / 64) (min c.buf.scrub.corrected (2 ^ 32 - 1))
        (min c.buf.scrub.uncorrectable (2 ^ 32 - 1))).scrubIdle c.buf.scrub := by
  have hend : c.scrubDone [] =
      (((c.scrubInit c.buf.scrub.start c.buf.scrub.len).scrubShown (c.buf.scrub.len / 64) (min c.buf.scrub.corrected (2 ^ 32 - 1))
        (min c.buf.scrub.uncorrectable (2 ^ 32 - 1))).scrubIdle c.buf.scrub).nextScrub := by
    unfold Chip.scrubDone
    dsimp only
    rw [hbusy, if_neg (by decide), hinit, if_pos rfl, huid]
    rfl
  have hhost : ∀ n x y s, (((c.scrubInit c.buf.scrub.start c.buf.scrub.len).scrubShown n x y).scrubIdle s).host = c.host := fun n x y s => by
    rw [scrubIdle_host, (scrubShown_spec _ n x y).only]
    rfl
  rw [hend, nextScrub_none]
  rw [hhost]
  exact hcmds

section scrub
variable {s : State}

theorem completes_scrubDone (hbusy : s.chip.buf.scrub.busy = true) (hinit : s.chip.buf.scrub.init = true) (huid : s.chip.buf.scrub.uid = none)
    (hwf : s.chip.memWf = true) (hcmds : ∀ m ∈ s.chip.host.cmds, m.opcode ≠ opScrub) : Completes (.scrubDone []) s fun c =>
      (∀ a, s.chip.buf.scrub.start ≤ a → a < s.chip.buf.scrub.start + s.chip.buf.scrub.len → c.byte a = 0) ∧
      (∀ a, a < s.chip.buf.scrub.start ∨ s.chip.buf.scrub.start + s.chip.buf.scrub.len ≤ a → c.byte a = s.chip.byte a) ∧
      c.buf.scrub.busy = false ∧ c.flag BUF_STATUS_SCRUB_BUSY = false ∧ c.flag BUF_EVENT_SCRUB_DONE = true ∧
      c.fld BUF_SCRUB_UNITS_COUNT = min (s.chip.fld BUF_SCRUB_UNITS_COUNT + s.chip.buf.scrub.len / 64) (2 ^ 32 - 1) ∧
      s.chip.fieldsKept scrubFields c ∧ c.host = s.chip.host := by
  refine completes_on (f := fun c => c.scrubDone []) rfl ?_
  rw [scrubDone_init hbusy hinit huid hcmds]
  have hbyte := byte_scrubInit_of_memWf hwf s.chip.buf.scrub.start s.chip.buf.scrub.len
  have hregs : (s.chip.scrubInit s.chip.buf.scrub.start s.chip.buf.scrub.len).regs = s.chip.regs := rfl
  have hhost : (s.chip.scrubInit s.chip.buf.scrub.start s.chip.buf.scrub.len).host = s.chip.host := rfl
  generalize s.chip.scrubInit s.chip.buf.scrub.start s.chip.buf.scrub.len = d at hbyte hregs hhost
  have hshown := scrubShown_spec d (s.chip.buf.scrub.len / 64) (min s.chip.buf.scrub.corrected (2 ^ 32 - 1)) (min s.chip.buf.scrub.uncorrectable (2 ^ 32 - 1))
  generalize d.scrubShown (s.chip.buf.scrub.len / 64) (min s.chip.buf.scrub.corrected (2 ^ 32 - 1)) (min s.chip.buf.scrub.uncorrectable (2 ^ 32 - 1)) = e
    at hshown
  have hidle := scrubIdle_regs e s.chip.buf.scrub
  have hfinal : ∀ a, (e.scrubIdle s.chip.buf.scrub).byte a = d.byte a := fun a => by
    have hbuf : e.buf = d.buf := by rw [hshown.only]
    rw [byte_scrubIdle, Chip.byte, hbuf, ← Chip.byte]
  refine ⟨fun a hlo hhi => ?_, fun a ha => ?_, busy_scrubIdle _ _, ?_, ?_, ?_, ?_, ?_⟩
  · rw [hfinal, hbyte, if_neg (by omega)]
  · rw [hfinal, hbyte, if_pos ha]
  · rw [Chip.flag, fld_of_regs hidle]
    exact hshown.idle
  · rw [Chip.flag, fld_of_regs hidle]
    exact hshown.done
  · rw [fld_of_regs hidle, hshown.units, fld_of_regs hregs]
  · exact fieldsKept_regs hidle (fieldsKept_trans (fieldsKept_of_regs hregs) hshown.fields)
  · rw [scrubIdle_host, hshown.only, ← hhost]

end scrub

/-! ### The statement -/

/-- Settles O55: each row of buffer DRAM writes exactly the bytes it is to write. -/
theorem bufferMemory : Obligations.BufferMemory := by
  unfold Obligations.BufferMemory
  intro s fits same deep
  refine ⟨?_, ?_, ?_, ?_, ?_, completes_scrubGo, ?_, completes_injectArm⟩
  · intro stamp q i hspilling hroom hlow hcell hi hfits
    exact completes_cisternSpill hspilling hroom hlow hcell hi hfits.2
  · intro q i d hfind hdeep hnear hfree hgood
    exact completes_cisternRecall hfind hdeep hnear hfree hgood
  · intro it rest a hitems hfits hquiet
    refine (completes_logEntry hitems hfits.1 hfits.2 hquiet).imp fun c h => ?_
    exact ⟨by rw [h.items, hitems, List.tail_cons], h.logged, h.count, h.at_, h.apart, h.fields, h.host⟩
  · intro it rest hitems bs part number core ent dst hlt honline hcredits hempty hfills hfits hlen
    have hread : s.chip.memRead (fillAddr core (number % 4096)) 16 = (some ent, s.chip) := memRead_fillEntry hfits.1 hfits.2
    refine (completes_blockArrival hitems rfl rfl hlt hcredits hfills hread hlen).imp fun c ⟨hrest, hcount, hmismatch, hstale, hkept⟩ => ?_
    refine ⟨hrest, hcount, fun hwrong => hmismatch ?_, fun hgen => hstale ?_, fun hright hgen hline => ?_⟩
    · exact Bool.of_not_eq_false fun h => hwrong (mismatched_eq_false_iff.1 h)
    · exact Bool.of_not_eq_false fun h => hgen (outdated_eq_false_iff.1 h)
    · exact hkept (mismatched_eq_false_iff.2 hright) (outdated_eq_false_iff.2 hgen) ((congrArg _ (Nat.mul_div_cancel_left _ (by decide))).symm.trans hline)
  · intro core slot hfits
    exact completes_fillStale hfits.1 hfits.2
  · intro b hbusy hinit huid hwf hcmds
    exact completes_scrubDone hbusy hinit huid hwf hcmds

end Sys2Proof.Machine
end

section
/-! The refutation of O25: the gate's table and an engine's table of last outputs that is not in canonical form. -/

namespace Sys2Proof.Machine

/-- Motion pair 16 at the end of a run: its ACTIVE engine's table of last outputs is not in canonical form, and its snapshot registers are held. -/
def tickSt : State :=
  { chip := (((({} : Chip).setFld (LE_PAIR_CTRL_RUN 16) 1).setFld (LE_SNAP_HOLD 32) 1).setTolek 32 { role := 1, ended := true, last := [(20, 1), (3, 5)] }).setPair 16
      { hasRun := true } }

/-- Both heartbeats of both engines. -/
def heardTick : TickIn := ⟨true, true, true, true, 0, 0⟩

/-- What the gate of a pair has on port 3 after a step. -/
def gateThree (q : Nat) : Out → Q
  | .next t => Cells.get (fun _ => 0) (t.chip.pair q).gate 3
  | _ => 0

theorem gateThree_tickSt : gateThree 16 (execMotionTick 0 heardTick [] [] tickSt) = 5 := by decide +kernel

/-- Refutes O25: the gate takes the gated ports of an engine's last outputs by dropping the others from their list, and in a list whose keys do not
rise an entry that stood behind a greater key, and so read as absent, comes to light: the gate presents 5 on port 3, where the engine has 0. -/
theorem not_tickCommits : ¬ Obligations.TickCommits := by
  unfold Obligations.TickCommits
  rintro ⟨hcommits, -⟩
  obtain ⟨t, hstep, -, -, -, hgate, -⟩ := hcommits tickSt 16 32 (.motionTick 0 heardTick [] []) [] heardTick [] [] (.inr ⟨0, rfl, rfl⟩)
    (by decide) (by decide) (by decide) rfl rfl rfl rfl rfl rfl (by decide) rfl rfl rfl rfl
  have hthree : Cells.get (fun _ => 0) (t.chip.pair 16).gate 3 = (0 : Q) := hgate 3 (by decide)
  have hfive := gateThree_tickSt
  rw [show execMotionTick 0 heardTick [] [] tickSt = .next t from hstep] at hfive
  exact absurd (hfive.symm.trans hthree) (by decide)

end Sys2Proof.Machine
end

section
/-! The refutation of O50: a reset of a port and a table of queues that is not in canonical form. -/

namespace Sys2Proof.Machine

/-- Queue 3 is a queue of port B; behind it the table of queues holds one of port A under the same number, which no read finds. -/
def shadowQueueSt : State := { chip := { host := { queues := [(3, { created := true, port := 1 }), (3, { created := true, port := 0 })] } } }

/-- Whether a queue is there after a step. -/
def queueThere (n : Nat) : Out → Bool
  | .next t => (t.chip.queue n).created
  | _ => false

theorem queueThere_shadowQueueSt : queueThere 3 (execPortReset 0 .functionLevel shadowQueueSt) = false := by
  decide +kernel

/-- Refutes O50: a reset of port A deletes every number under which the table of queues lists a queue of port A, also where an entry of port B stands
before it and is the queue of that number: queue 3, of port B, is gone. -/
theorem not_hostRings : ¬ Obligations.HostRings := by
  unfold Obligations.HostRings
  intro h
  obtain ⟨-, -, hreset⟩ := h shadowQueueSt
  obtain ⟨t, hstep, -, -, -, hqueues, -⟩ := hreset 0 .functionLevel (by decide) rfl rfl rfl
  have hsame : t.chip.queue 3 = shadowQueueSt.chip.queue 3 := hqueues 3 (by decide)
  have hgone := queueThere_shadowQueueSt
  rw [show execPortReset 0 .functionLevel shadowQueueSt = .next t from hstep, queueThere, hsame] at hgone
  exact absurd hgone (by decide)

end Sys2Proof.Machine
end

section
/-! Proofs about the boot commands, PERSIST and the ends of flash operations (O56). -/

namespace Sys2Proof.Machine

/-! ### Reads of buffer DRAM over several lines -/

theorem bytes_append (c : Chip) (a m n : Nat) : c.bytes a m ++ c.bytes (a + m) n = c.bytes a (m + n) := by
  simp [Chip.bytes, Cells.getRun, List.range_add, Function.comp_def, Nat.add_assoc]

/-- The pieces of a run of bytes, one behind the other, are the run. -/
theorem flatMap_linePieces (c : Chip) (a n : Nat) : (linePieces a n).flatMap (fun p => c.bytes (4096 * p.1 + p.2.1) p.2.2) = c.bytes a n := by
  have hprefix : ∀ m, m ≤ (a + n + 4095) / 4096 - a / 4096 →
      ((List.range m).map fun i => (a / 4096 + i, max a (4096 * (a / 4096 + i)) - 4096 * (a / 4096 + i),
        min (a + n) (4096 * (a / 4096 + i) + 4096) - max a (4096 * (a / 4096 + i)))).flatMap (fun p => c.bytes (4096 * p.1 + p.2.1) p.2.2) =
      c.bytes a (min (a + n) (4096 * (a / 4096 + m)) - a) := by
    intro m
    induction m with
    | zero =>
      intro _
      rw [show min (a + n) (4096 * (a / 4096 + 0)) - a = 0 by omega]
      rfl
    | succ m ih =>
      intro hm
      rw [List.range_succ, List.map_append, List.flatMap_append, ih (by omega), List.map_singleton, List.flatMap_singleton]
      have hstart : 4096 * (a / 4096 + m) + (max a (4096 * (a / 4096 + m)) - 4096 * (a / 4096 + m)) =
          a + (min (a + n) (4096 * (a / 4096 + m)) - a) := by omega
      dsimp only
      rw [hstart, bytes_append]
      congr 1
      omega
  have hall := hprefix _ le_rfl
  rw [show min (a + n) (4096 * (a / 4096 + ((a + n + 4095) / 4096 - a / 4096))) - a = n by omega] at hall
  exact hall

theorem units_of_linePieces {a n u : Nat} {p : Nat × Nat × Nat} (hp : p ∈ linePieces a n) (hu : u ∈ unitsOf (4096 * p.1 + p.2.1) p.2.2) :
    u ∈ unitsOf a n := by
  obtain ⟨i, hi, rfl⟩ := List.mem_map.1 hp
  obtain ⟨j, hj, rfl⟩ := List.mem_map.1 hu
  rw [List.mem_range] at hi hj
  dsimp only at hj ⊢
  refine List.mem_map.2 ⟨_, List.mem_range.2 ?_, Nat.add_sub_of_le ?_⟩ <;> omega

/-- A read of good units over no cached line changes nothing. -/
theorem memRead_uncached {c : Chip} {a n : Nat} (hunits : ∀ u ∈ unitsOf a n, c.unitMark u = .good)
    (hlines : ∀ p ∈ linePieces a n, c.lineOf p.1 = none) : c.memRead a n = (some (c.bytes a n), c) := by
  have hunits' : ∀ p ∈ linePieces a n, ∀ u ∈ unitsOf (4096 * p.1 + p.2.1) p.2.2, c.unitMark u = .good := fun p hp u hu =>
    hunits u (units_of_linePieces hp hu)
  rw [Chip.memRead, ← flatMap_linePieces]
  generalize linePieces a n = ps at hlines hunits'
  suffices h : ∀ bs, ps.foldl _ (some bs, c) = (some (bs ++ ps.flatMap fun p => c.bytes (4096 * p.1 + p.2.1) p.2.2), c) from (h []).trans (by simp)
  induction ps with
  | nil => simp
  | cons p ps ih =>
    intro bs
    rw [List.foldl_cons]
    simp only [hlines p List.mem_cons_self, readUnits_allGood (hunits' p List.mem_cons_self), Bool.false_eq_true, if_false, Option.map_some]
    rw [ih (fun q hq => hlines q (List.mem_cons_of_mem _ hq)) (fun q hq => hunits' q (List.mem_cons_of_mem _ hq)), List.flatMap_cons, List.append_assoc]

/-! ### BOOT_HOST_CMD (R617) -/

theorem bootCmd_busy {c : Chip} (h : c.flag BOOT_HOST_STATUS_BUSY = true) (stage : Nat → Bool) (f : Chip → Chip) : c.bootCmd stage f = c := if_pos h

theorem bootCmd_stage {c : Chip} {stage : Nat → Bool} (h : c.flag BOOT_HOST_STATUS_BUSY = false) (hstage : stage (c.fld BOOT_STATUS_STAGE) = false)
    (f : Chip → Chip) : c.bootCmd stage f = c.bootResult 1 := by simp only [Chip.bootCmd, h, hstage, Bool.false_eq_true, if_false]

theorem bootCmd_runs {c : Chip} {stage : Nat → Bool} (h : c.flag BOOT_HOST_STATUS_BUSY = false) (hstage : stage (c.fld BOOT_STATUS_STAGE) = true)
    (f : Chip → Chip) : c.bootCmd stage f = f (c.bootResult 0) := by simp only [Chip.bootCmd, h, hstage, Bool.false_eq_true, if_false, if_true]

/-- Only RESULT has changed, to `r`. -/
structure Resulted (c : Chip) (r : Nat) (c' : Chip) : Prop where
  result : c'.fld BOOT_HOST_STATUS_RESULT = r
  fields : c.fieldsKept [BOOT_HOST_STATUS_RESULT] c'
  only : c.regsOnly c'

theorem resulted_bootResult (c : Chip) {r : Nat} (h : r < 8) : Resulted c r (c.bootResult r) :=
  ⟨by rw [Chip.bootResult, fld_setFld_same _ _ _ (by decide)]; exact Nat.mod_eq_of_lt h, fieldsKept_setFld _ _ (by simp) (fieldsKept_refl _ _),
    regsOnly_setFld _ _ (regsOnly_refl _)⟩

theorem Resulted.bootResult {c d : Chip} {r k : Nat} (h : Resulted c k d) (hr : r < 8) : Resulted c r (d.bootResult r) := by
  obtain ⟨hresult, hfields, honly⟩ := resulted_bootResult d hr
  exact ⟨hresult, fieldsKept_trans h.fields hfields, regsOnly_trans h.only honly⟩

theorem Resulted.boot {c d : Chip} {r : Nat} (h : Resulted c r d) : d.boot = c.boot := by rw [h.only]; rfl
theorem Resulted.buf {c d : Chip} {r : Nat} (h : Resulted c r d) : d.buf = c.buf := by rw [h.only]

theorem Resulted.fld {c d : Chip} {r : Nat} (h : Resulted c r d) {f : Fld} (hw : f.lo + f.w ≤ 64) (hf : apart f BOOT_HOST_STATUS_RESULT) :
    d.fld f = c.fld f := h.fields f hw (by simpa using hf)

/-! ### LOAD_CHUNK and LOAD_END (R611, R617) -/

/-- The image staged for a class. -/
def Chip.stage (c : Chip) (k : Nat) (img : List Byte) : Chip := c.setBoot { c.boot with staged := Cells.put (fun _ => []) c.boot.staged k img }

theorem stage_regs (c : Chip) (k : Nat) (img : List Byte) : (c.stage k img).regs = c.regs := rfl
theorem stage_buf (c : Chip) (k : Nat) (img : List Byte) : (c.stage k img).buf = c.buf := rfl
theorem bytesKept_stage (c : Chip) (k : Nat) (img : List Byte) : c.bytesKept (c.stage k img) :=
  ⟨fun _ => rfl, fun _ => rfl, fun _ => rfl, fun _ => rfl⟩
theorem staged_stage (c : Chip) (k : Nat) (img : List Byte) : Cells.get (fun _ => []) (c.stage k img).boot.staged k = img := Cells.get_put_same _ _ _ _

/-- What LOAD_CHUNK leaves: the bytes in image staging, and the class without an image. -/
structure ChunkLoaded (c : Chip) (k a : Nat) (bs : List Byte) (c' : Chip) : Prop where
  result : c'.fld BOOT_HOST_STATUS_RESULT = 0
  state : c'.fld (BOOT_IMAGE_STATE k) = 0
  staged : Cells.get (fun _ => []) c'.boot.staged k = []
  at_ : ∀ j < bs.length, c'.byte (a + j) = bs.getD j 0
  apart : ∀ x, x < a ∨ a + bs.length ≤ x → c'.byte x = c.byte x
  fields : c.fieldsKept [BOOT_HOST_STATUS_RESULT, BOOT_IMAGE_STATE k, BUF_INJECT_ARMED] c'

theorem apart_imageState (k : Nat) {f : Fld} (h : f.reg < 0x700040) : apart f (BOOT_IMAGE_STATE k) :=
  apart_of_reg (by simp only [BOOT_IMAGE_STATE, BOOT_IMAGE]; omega)

theorem chunkLoaded {c d : Chip} (hd : Resulted c 0 d) (k : Nat) {a : Nat} {bs : List Byte} (ha : a % 64 = 0) (hn : bs.length % 64 = 0)
    (hlines : ∀ p ∈ linePieces a bs.length, c.lineOf p.1 = none) :
    ChunkLoaded c k a bs (((d.memWrite a bs).setFld (BOOT_IMAGE_STATE k) 0).stage k []) := by
  have hwrite : d.memWrite a bs = d.bufWrite a bs := memWrite_whole ha hn fun p hp =>
    (lineOf_congr (by rw [hd.buf]) (by rw [hd.buf]) (by rw [hd.buf]) (by rw [hd.buf]) p.1).trans (hlines p hp)
  rw [hwrite]
  have hat := fun j b => byte_bufWrite_at d a (bs := bs) (i := j) (b := b)
  have hoff := fun x => byte_bufWrite_apart d (a := a) (x := x) (bs := bs)
  have hfields := bufWrite_fieldsKept d a bs
  generalize d.bufWrite a bs = e at hat hoff hfields
  have hregs := stage_regs (e.setFld (BOOT_IMAGE_STATE k) 0) k []
  have hbuf := (stage_buf (e.setFld (BOOT_IMAGE_STATE k) 0) k []).trans (setFld_buf e (BOOT_IMAGE_STATE k) 0)
  have hstaged := staged_stage (e.setFld (BOOT_IMAGE_STATE k) 0) k []
  generalize (e.setFld (BOOT_IMAGE_STATE k) 0).stage k [] = g at hregs hbuf hstaged
  have hbyte : ∀ x, g.byte x = e.byte x := fun x => by rw [Chip.byte, hbuf, ← Chip.byte]
  refine ⟨?_, ?_, hstaged, fun j hj => ?_, fun x hx => ?_, ?_⟩
  · rw [fld_of_regs hregs, fld_setFld_apart _ _ _ _ (by decide) (apart_imageState k (by decide)), hfields _ (by decide) (by decide), hd.result]
  · rw [fld_of_regs hregs, fld_setFld_same _ _ _ (Nat.le_of_ble_eq_true rfl)]
    rfl
  · rw [hbyte]
    refine hat j _ ?_
    rw [List.getD_eq_getElem?_getD, List.getElem?_eq_getElem hj, Option.getD_some]
  · rw [hbyte, hoff x hx, Chip.byte, hd.buf, ← Chip.byte]
  · refine fieldsKept_regs hregs (fieldsKept_setFld _ _ (by simp) ?_)
    exact fieldsKept_trans (fieldsKept_weaken (by simp) hd.fields) (fieldsKept_weaken (by simp) hfields)

theorem imageCheck_congr {c d : Chip} (hkey : d.boot.keyHash = c.boot.keyHash) (hset : d.flag BOOT_FUSE_OWNER_KEY_SET = c.flag BOOT_FUSE_OWNER_KEY_SET)
    (honly : d.flag BOOT_FUSE_OWNER_ONLY = c.flag BOOT_FUSE_OWNER_ONLY) {k : Nat} (hsvn : d.fld (BOOT_SVN_MIN_SVN k) = c.fld (BOOT_SVN_MIN_SVN k))
    (img : List Byte) (n : Nat) : d.imageCheck k img n = c.imageCheck k img n := by
  unfold Chip.imageCheck
  rw [hkey, hset, honly, hsvn]

/-- The checks are numbered 1 to 10. -/
theorem imageCheck_le (c : Chip) (k : Nat) (img : List Byte) (n : Nat) : c.imageCheck k img n ≤ 10 := by
  unfold Chip.imageCheck
  extract_lets pl len key
  split_ifs <;> decide

theorem showImage_spec (c : Chip) (k : Nat) {why : Nat} (hwhy : why ≤ 10) (img : List Byte) (bank : Nat) :
    (c.showImage k why img bank).fld (BOOT_IMAGE_CHECK k) = why ∧ (c.showImage k why img bank).fld (BOOT_IMAGE_STATE k) = (if why = 0 then 1 else 2) ∧
      c.fieldsKept [BOOT_IMAGE_CHECK k, BOOT_IMAGE_STATE k, BOOT_IMAGE_SIGNER k, BOOT_IMAGE_BANK k] (c.showImage k why img bank) ∧
      c.regsOnly (c.showImage k why img bank) := by
  have hcs : apart (BOOT_IMAGE_CHECK k) (BOOT_IMAGE_SIGNER k) := apart_of_bits (by decide)
  have hcb : apart (BOOT_IMAGE_CHECK k) (BOOT_IMAGE_BANK k) := apart_of_bits (by decide)
  have hsc : apart (BOOT_IMAGE_STATE k) (BOOT_IMAGE_CHECK k) := apart_of_bits (by decide)
  have hss : apart (BOOT_IMAGE_STATE k) (BOOT_IMAGE_SIGNER k) := apart_of_bits (by decide)
  have hsb : apart (BOOT_IMAGE_STATE k) (BOOT_IMAGE_BANK k) := apart_of_bits (by decide)
  unfold Chip.showImage
  dsimp only
  refine ⟨?_, ?_, ?_, ?_⟩
  · rw [fld_setFld_apart _ _ _ _ (Nat.le_of_ble_eq_true rfl) hcb, fld_setFld_apart _ _ _ _ (Nat.le_of_ble_eq_true rfl) hcs, fld_setFld_same _ _ _ (Nat.le_of_ble_eq_true rfl)]
    exact Nat.mod_eq_of_lt (show why < 2 ^ 4 by omega)
  · rw [fld_setFld_apart _ _ _ _ (Nat.le_of_ble_eq_true rfl) hsb, fld_setFld_apart _ _ _ _ (Nat.le_of_ble_eq_true rfl) hss, fld_setFld_apart _ _ _ _ (Nat.le_of_ble_eq_true rfl) hsc,
      fld_setFld_same _ _ _ (Nat.le_of_ble_eq_true rfl)]
    split_ifs <;> rfl
  · exact fieldsKept_setFld _ _ (by simp) (fieldsKept_setFld _ _ (by simp) (fieldsKept_setFld _ _ (by simp) (fieldsKept_setFld _ _ (by simp)
      (fieldsKept_refl _ _))))
  · exact regsOnly_setFld _ _ (regsOnly_setFld _ _ (regsOnly_setFld _ _ (regsOnly_setFld _ _ (regsOnly_refl _))))

/-- The image that the header in image staging gives the length of. -/
def Chip.stagingImage (c : Chip) (k : Nat) : List Byte :=
  c.bytes (stageAddr k) (min (512 + imgNat (c.bytes (stageAddr k) 512) 20 4) (32 * mib))

theorem loadEnd_eq {c : Chip} {k : Nat} (hk : k ≤ 4) (hunits : ∀ u ∈ unitsOf (stageAddr k) (32 * mib), c.unitMark u = .good)
    (hlines : ∀ l, stageAddr k ≤ 4096 * l → 4096 * l < stageAddr k + 32 * mib → c.lineOf l = none) :
    c.loadEnd k = (c.showImage k (c.imageCheck k (c.stagingImage k) (c.stagingImage k).length) (c.stagingImage k) 0).stage k
      (if c.imageCheck k (c.stagingImage k) (c.stagingImage k).length = 0 then c.stagingImage k else []) := by
  have hstart : stageAddr k = 4096 * (256 * (1120 + 32 * k)) := by
    simp only [stageAddr, mib]
    omega
  have hread : ∀ n, n ≤ 32 * mib → c.memRead (stageAddr k) n = (some (c.bytes (stageAddr k) n), c) := fun n hn => by
    rw [mib] at hn hunits hlines
    refine memRead_uncached (fun u hu => hunits u ?_) fun p hp => ?_
    · obtain ⟨i, hi, rfl⟩ := List.mem_map.1 hu
      exact List.mem_map.2 ⟨i, List.mem_range.2 ((List.mem_range.1 hi).trans_le (by omega)), rfl⟩
    · obtain ⟨i, hi, rfl⟩ := List.mem_map.1 hp
      rw [List.mem_range] at hi
      dsimp only
      exact hlines _ (by omega) (by omega)
  unfold Chip.loadEnd
  rw [if_neg (by omega), hread 512 (by decide)]
  dsimp only
  rw [Option.getD_some, hread _ (Nat.min_le_right _ _), ← Chip.stagingImage, Chip.stage]
  dsimp only [Option.getD_some]

/-- What LOAD_END leaves: the outcome of the checks, and the image where it passes. -/
structure ImageChecked (c : Chip) (k why : Nat) (img : List Byte) (c' : Chip) : Prop where
  result : c'.fld BOOT_HOST_STATUS_RESULT = 0
  check : c'.fld (BOOT_IMAGE_CHECK k) = why
  state : c'.fld (BOOT_IMAGE_STATE k) = if why = 0 then 1 else 2
  staged : Cells.get (fun _ => []) c'.boot.staged k = if why = 0 then img else []
  fields : c.fieldsKept [BOOT_HOST_STATUS_RESULT, BOOT_IMAGE_CHECK k, BOOT_IMAGE_STATE k, BOOT_IMAGE_SIGNER k, BOOT_IMAGE_BANK k] c'
  bytes : c.bytesKept c'

theorem imageChecked {c d : Chip} (hd : Resulted c 0 d) (k : Nat) {why : Nat} (hwhy : why ≤ 10) (img : List Byte) :
    ImageChecked c k why img ((d.showImage k why img 0).stage k (if why = 0 then img else [])) := by
  obtain ⟨hcheck, hstate, hfields, honly⟩ := showImage_spec d k hwhy img 0
  generalize d.showImage k why img 0 = e at hcheck hstate hfields honly
  have hregs := stage_regs e k (if why = 0 then img else [])
  have hresult : ∀ f ∈ [BOOT_IMAGE_CHECK k, BOOT_IMAGE_STATE k, BOOT_IMAGE_SIGNER k, BOOT_IMAGE_BANK k], apart BOOT_HOST_STATUS_RESULT f := by
    intro f hf
    refine apart_of_reg ?_
    simp only [List.mem_cons, List.not_mem_nil, or_false] at hf
    rcases hf with rfl | rfl | rfl | rfl <;> simp only [BOOT_HOST_STATUS_RESULT, BOOT_HOST_STATUS, BOOT_IMAGE_CHECK, BOOT_IMAGE_STATE,
      BOOT_IMAGE_SIGNER, BOOT_IMAGE_BANK, BOOT_IMAGE] <;> omega
  refine ⟨?_, ?_, ?_, staged_stage _ _ _, ?_, ?_⟩
  · rw [fld_of_regs hregs, hfields _ (by decide) hresult, hd.result]
  · rw [fld_of_regs hregs, hcheck]
  · rw [fld_of_regs hregs, hstate]
  · exact fieldsKept_regs hregs (fieldsKept_trans (fieldsKept_weaken (by simp) hd.fields) (fieldsKept_weaken (by simp) hfields))
  · exact bytesKept_trans (bytesKept_of_regsOnly (regsOnly_trans hd.only honly)) (bytesKept_stage _ _ _)

/-! ### BOOT_GO (R613, R614) -/

theorem bootLoad_halts {c : Chip} {b : BootIn} (h : b.cores = 0 ∨ b.wmH = false) :
    (c.bootLoad b).fld BOOT_STATUS_STAGE = 7 ∧ (c.bootLoad b).fld BOOT_STATUS_HALT_CAUSE = 5 := by
  unfold Chip.bootLoad
  rw [if_pos (h.imp_right fun h => by rw [h]; rfl)]
  generalize (((c.setStage 5).takeImages).loadCores b) = d
  rw [Chip.halt, Chip.setStage]
  exact ⟨by rw [fld_setFld_apart _ _ _ _ (by decide) (by decide), fld_setFld_same _ _ _ (by decide)]; rfl, by rw [fld_setFld_same _ _ _ (by decide)]; rfl⟩

/-- The last steps of the start-up, from WM-H on: ACTIVE, sealed, READY. -/
def Chip.bootReady (c : Chip) : Chip :=
  let c := (c.setFld WMH_ROLE_ROLE roleActive).setFld GEN_CONFIG_SEALED 1
  let v := c.draw
  let c := v.2.setFld GEN_RESIDENT_VERSION (v.1.toNat % 2 ^ 32)
  (c.setStage 6).setFld BOOT_READY_TIME_TIME c.nowH.toNat

theorem bootLoad_ready {c : Chip} {b : BootIn} (h : ¬ (b.cores = 0 ∨ b.wmH = false)) : ∃ d : Chip, c.bootLoad b = d.bootReady := by
  unfold Chip.bootLoad
  rw [if_neg fun hor => h (hor.imp_right fun h => by simpa using h)]
  exact ⟨_, rfl⟩

theorem bootReady_spec (c : Chip) : c.bootReady.fld BOOT_STATUS_STAGE = 6 ∧ c.bootReady.flag GEN_CONFIG_SEALED = true ∧ c.bootReady.role .h = roleActive := by
  unfold Chip.bootReady
  generalize hd : (c.setFld WMH_ROLE_ROLE roleActive).setFld GEN_CONFIG_SEALED 1 = d
  have hrole : d.fld WMH_ROLE_ROLE = roleActive := by
    rw [← hd, fld_setFld_apart _ _ _ _ (by decide) (by decide), fld_setFld_same _ _ _ (by decide)]
    rfl
  have hsealed : d.fld GEN_CONFIG_SEALED = 1 := by
    rw [← hd, fld_setFld_same _ _ _ (by decide)]
    rfl
  have hregs : d.draw.2.regs = d.regs := rfl
  dsimp only
  generalize d.draw.2 = e at hregs
  have hlast : ∀ n (e' : Chip), (((e.setFld GEN_RESIDENT_VERSION n).setStage 6).setFld BOOT_READY_TIME_TIME e'.nowH.toNat).fld BOOT_STATUS_STAGE = 6 := by
    intro n e'
    rw [Chip.setStage, fld_setFld_apart _ _ _ _ (by decide) (by decide), fld_setFld_same _ _ _ (by decide)]
    rfl
  have hkept : ∀ f ∈ [GEN_CONFIG_SEALED, WMH_ROLE_ROLE], ∀ n (e' : Chip),
      (((e.setFld GEN_RESIDENT_VERSION n).setStage 6).setFld BOOT_READY_TIME_TIME e'.nowH.toNat).fld f = d.fld f := by
    intro f hf n e'
    have hw : f.lo + f.w ≤ 64 ∧ apart f BOOT_READY_TIME_TIME ∧ apart f BOOT_STATUS_STAGE ∧ apart f GEN_RESIDENT_VERSION := by
      revert f hf
      decide
    obtain ⟨hw, htime, hstage, hversion⟩ := hw
    rw [Chip.setStage, fld_setFld_apart _ _ _ _ hw htime, fld_setFld_apart _ _ _ _ hw hstage, fld_setFld_apart _ _ _ _ hw hversion, fld_of_regs hregs]
  refine ⟨hlast _ _, ?_, ?_⟩
  · rw [Chip.flag, hkept _ (by simp), hsealed]
    rfl
  · rw [Chip.role, show roleOf .h = WMH_ROLE_ROLE from rfl, hkept _ (by simp), hrole]

/-! ### FUSE_PROGRAM (R618) -/

/-- The fuses of the first `n` classes take what the request adds. -/
def Chip.addSvns (c : Chip) (add : Nat → Nat) (n : Nat) : Chip :=
  (List.range n).foldl (fun c k => c.setFld (BOOT_SVN_MIN_SVN k) (c.fld (BOOT_SVN_MIN_SVN k) + add k)) c

theorem apart_svn {i j : Nat} (h : i ≠ j) : apart (BOOT_SVN_MIN_SVN i) (BOOT_SVN_MIN_SVN j) :=
  apart_of_reg (by simp only [BOOT_SVN_MIN_SVN, BOOT_SVN]; omega)

theorem fld_addSvns {c : Chip} {add : Nat → Nat} (hroom : ∀ j < 5, c.fld (BOOT_SVN_MIN_SVN j) + add j ≤ 32) {n : Nat} (hn : n ≤ 5) {j : Nat} (hj : j < 5) :
    (c.addSvns add n).fld (BOOT_SVN_MIN_SVN j) = c.fld (BOOT_SVN_MIN_SVN j) + if j < n then add j else 0 := by
  induction n with
  | zero => rfl
  | succ n ih =>
    have ih := ih (by omega)
    rw [Chip.addSvns, List.range_succ, List.foldl_append, List.foldl_cons, List.foldl_nil, ← Chip.addSvns]
    by_cases hjn : j = n
    · subst hjn
      rw [fld_setFld_same _ _ _ (Nat.le_of_ble_eq_true rfl), ih, if_neg (Nat.lt_irrefl _), if_pos (Nat.lt_succ_self _), Nat.add_zero]
      exact Nat.mod_eq_of_lt (show _ < 2 ^ 6 by have := hroom j hj; omega)
    · rw [fld_setFld_apart _ _ _ _ (Nat.le_of_ble_eq_true rfl) (apart_svn hjn), ih]
      simp only [Nat.lt_succ_iff, Nat.lt_iff_le_and_ne, hjn, ne_eq, not_false_eq_true, and_true]

theorem addSvns_frame (c : Chip) (add : Nat → Nat) (n : Nat) :
    c.regsOnly (c.addSvns add n) ∧ c.fieldsKept ((List.range n).map fun j => BOOT_SVN_MIN_SVN j) (c.addSvns add n) := by
  induction n with
  | zero => exact ⟨regsOnly_refl c, fieldsKept_refl _ _⟩
  | succ n ih =>
    rw [Chip.addSvns, List.range_succ, List.foldl_append, List.foldl_cons, List.foldl_nil, ← Chip.addSvns, List.map_append]
    exact ⟨regsOnly_setFld _ _ ih.1, fieldsKept_setFld _ _ (by simp) (fieldsKept_weaken (fun _ hf => List.mem_append_left _ hf) ih.2)⟩

/-- The owner's key is fused. -/
def Chip.fuseKey (c : Chip) (key : Option (List Byte)) : Chip :=
  match key with
  | some k => (c.setFld BOOT_FUSE_OWNER_KEY_SET 1).setBoot { c.boot with keyHash := k }
  | none => c

/-- The fuse that shuts out the vendor's images. -/
def Chip.fuseOnly (c : Chip) (b : Bool) : Chip := if b then c.setFld BOOT_FUSE_OWNER_ONLY 1 else c

/-- A request that the fuses refuse. -/
def Chip.fuseRefuses (c : Chip) (r : List Byte) : Prop :=
  (imgNat r 48 1).testBit 0 = true ∧ c.flag BOOT_FUSE_OWNER_KEY_SET = true ∨ ∃ j < 5, 32 < c.fld (BOOT_SVN_MIN_SVN j) + imgNat r (49 + j) 1

theorem fuseProgram_refused {c : Chip} (h : c.fuseRefuses (c.mailbox 64)) : c.fuseProgram = c.bootResult 3 := by
  unfold Chip.fuseProgram
  refine if_pos (h.imp_right fun ⟨j, hj, hlt⟩ => ?_)
  exact List.any_eq_true.2 ⟨j, List.mem_range.2 hj, decide_eq_true hlt⟩

theorem fuseProgram_runs {c : Chip} (h : ¬ c.fuseRefuses (c.mailbox 64)) :
    c.fuseProgram = ((c.fuseKey (if (imgNat (c.mailbox 64) 48 1).testBit 0 then some ((c.mailbox 64).take 48) else none)).fuseOnly
      ((imgNat (c.mailbox 64) 48 1).testBit 1)).addSvns (fun j => imgNat (c.mailbox 64) (49 + j) 1) 5 := by
  unfold Chip.fuseProgram
  dsimp only
  rw [if_neg]
  · cases (imgNat (c.mailbox 64) 48 1).testBit 0
    · rfl
    · rfl
  · refine fun hor => h (hor.imp_right fun hany => ?_)
    obtain ⟨j, hj, hlt⟩ := List.any_eq_true.1 hany
    exact ⟨j, List.mem_range.1 hj, of_decide_eq_true hlt⟩

/-- What FUSE_PROGRAM leaves. -/
structure Fused (c : Chip) (key : Option (List Byte)) (only : Bool) (add : Nat → Nat) (c' : Chip) : Prop where
  keySet : c'.flag BOOT_FUSE_OWNER_KEY_SET = (c.flag BOOT_FUSE_OWNER_KEY_SET || key.isSome)
  keyHash : c'.boot.keyHash = key.getD c.boot.keyHash
  ownerOnly : c'.flag BOOT_FUSE_OWNER_ONLY = (c.flag BOOT_FUSE_OWNER_ONLY || only)
  svns : ∀ j < 5, c'.fld (BOOT_SVN_MIN_SVN j) = c.fld (BOOT_SVN_MIN_SVN j) + add j
  fields : c.fieldsKept ([BOOT_FUSE_OWNER_KEY_SET, BOOT_FUSE_OWNER_ONLY] ++ (List.range 5).map fun j => BOOT_SVN_MIN_SVN j) c'
  bytes : c.bytesKept c'

theorem fuseKey_spec (c : Chip) (key : Option (List Byte)) :
    (c.fuseKey key).flag BOOT_FUSE_OWNER_KEY_SET = (c.flag BOOT_FUSE_OWNER_KEY_SET || key.isSome) ∧ (c.fuseKey key).boot.keyHash = key.getD c.boot.keyHash ∧
      c.fieldsKept [BOOT_FUSE_OWNER_KEY_SET] (c.fuseKey key) ∧ c.bytesKept (c.fuseKey key) := by
  cases key with
  | none => exact ⟨(Bool.or_false _).symm, rfl, fieldsKept_refl _ _, bytesKept_of_regsOnly (regsOnly_refl c)⟩
  | some k =>
    refine ⟨?_, rfl, ?_, ?_⟩
    · rw [Option.isSome_some, Bool.or_true, Chip.fuseKey, flag_setBoot]
      exact flag_mark_same c BOOT_FUSE_OWNER_KEY_SET (by decide) (by decide)
    · rw [Chip.fuseKey]
      exact fieldsKept_regs (setBoot_regs _ _) (fieldsKept_setFld _ _ (by simp) (fieldsKept_refl _ _))
    · exact ⟨fun _ => rfl, fun _ => rfl, fun _ => rfl, fun _ => rfl⟩

theorem fuseOnly_spec (c : Chip) (b : Bool) :
    (c.fuseOnly b).flag BOOT_FUSE_OWNER_ONLY = (c.flag BOOT_FUSE_OWNER_ONLY || b) ∧ c.fieldsKept [BOOT_FUSE_OWNER_ONLY] (c.fuseOnly b) ∧
      c.regsOnly (c.fuseOnly b) := by
  cases b with
  | false => exact ⟨(Bool.or_false _).symm, fieldsKept_refl _ _, regsOnly_refl c⟩
  | true =>
    refine ⟨?_, fieldsKept_setFld _ _ (by simp) (fieldsKept_refl _ _), regsOnly_setFld _ _ (regsOnly_refl c)⟩
    rw [Bool.or_true]
    exact flag_mark_same c BOOT_FUSE_OWNER_ONLY (by decide) (by decide)

theorem fused (c : Chip) (key : Option (List Byte)) (only : Bool) {add : Nat → Nat} (hroom : ∀ j < 5, c.fld (BOOT_SVN_MIN_SVN j) + add j ≤ 32) :
    Fused c key only add (((c.fuseKey key).fuseOnly only).addSvns add 5) := by
  obtain ⟨hset, hhash, hkfields, hkbytes⟩ := fuseKey_spec c key
  generalize c.fuseKey key = d at hset hhash hkfields hkbytes
  obtain ⟨honly, hofields, hoonly⟩ := fuseOnly_spec d only
  generalize d.fuseOnly only = e at honly hofields hoonly
  have happ : ∀ j, apart (BOOT_SVN_MIN_SVN j) BOOT_FUSE_OWNER_KEY_SET ∧ apart (BOOT_SVN_MIN_SVN j) BOOT_FUSE_OWNER_ONLY := fun j => by
    constructor <;> exact apart_of_reg (by simp only [BOOT_SVN_MIN_SVN, BOOT_SVN, BOOT_FUSE_OWNER_KEY_SET, BOOT_FUSE_OWNER_ONLY, BOOT_FUSE]; omega)
  have hsvn : ∀ j, e.fld (BOOT_SVN_MIN_SVN j) = c.fld (BOOT_SVN_MIN_SVN j) := fun j => by
    rw [hofields _ (Nat.le_of_ble_eq_true rfl) (by simpa using (happ j).2), hkfields _ (Nat.le_of_ble_eq_true rfl) (by simpa using (happ j).1)]
  obtain ⟨hregs, hfields⟩ := addSvns_frame e add 5
  have hadd := fun j hj => fld_addSvns (c := e) (add := add) (fun j hj => by rw [hsvn]; exact hroom j hj) le_rfl (j := j) hj
  generalize e.addSvns add 5 = g at hregs hfields hadd
  have hboot : g.boot = d.boot := by
    rw [hregs, Chip.boot, hoonly]
    rfl
  refine ⟨?_, ?_, ?_, fun j hj => ?_, ?_, ?_⟩
  · rw [Chip.flag, hfields _ (by decide) (by decide), hofields _ (by decide) (by decide)]
    exact hset
  · rw [hboot, hhash]
  · rw [Chip.flag, hfields _ (by decide) (by decide)]
    refine honly.trans ?_
    rw [Chip.flag, hkfields _ (by decide) (by decide), ← Chip.flag]
  · rw [hadd j hj, hsvn, if_pos hj]
  · refine fieldsKept_trans (fieldsKept_trans (fieldsKept_weaken (by simp) hkfields) (fieldsKept_weaken (by simp) hofields)) (fieldsKept_weaken ?_ hfields)
    exact fun _ hf => List.mem_append_right _ hf
  · exact bytesKept_trans hkbytes (bytesKept_of_regsOnly (regsOnly_trans hoonly hregs))

/-! ### PERSIST (R626) -/

theorem persistEnd_spec (c : Chip) (k : Nat) {event : Fld} (hw : event.lo + event.w ≤ 64) (hpos : 0 < event.w) (happ : apart event BOOT_STATUS_PERSISTING) :
    (c.persistEnd k event).flag event = true ∧ k ∉ (c.persistEnd k event).boot.persisting ∧
      (c.persistEnd k event).flag BOOT_STATUS_PERSISTING = ((c.persistEnd k event).boot.persisting != []) ∧
      c.fieldsKept [event, BOOT_STATUS_PERSISTING] (c.persistEnd k event) ∧ c.bytesKept (c.persistEnd k event) ∧
      (c.persistEnd k event).boot.ops = c.boot.ops := by
  unfold Chip.persistEnd
  dsimp only
  refine ⟨?_, ?_, ?_, ?_, ?_, rfl⟩
  · rw [flag_setBoot, flag_setFlag_apart _ _ _ _ hw happ]
    exact flag_mark_same c event hw hpos
  · rw [boot_setBoot]
    simp
  · rw [flag_setBoot, boot_setBoot]
    exact flag_setFlag_same _ _ _ (by decide) (by decide)
  · refine fieldsKept_regs (setBoot_regs _ _) (fieldsKept_setFlag _ _ (by simp) (fieldsKept_mark _ (by simp) (fieldsKept_refl _ _)))
  · exact ⟨fun _ => rfl, fun _ => rfl, fun _ => rfl, fun _ => rfl⟩

/-! ### Configuration records in the boot flash (R601, R618) -/

theorem ofLeBytes_leBytes (n x : Nat) : ofLeBytes (leBytes n x) = x % 256 ^ n := by
  induction n generalizing x with
  | zero => simp [leBytes, ofLeBytes, Nat.mod_one]
  | succ n ih =>
    rw [leBytes, ofLeBytes, ih, BitVec.toNat_ofNat, show 256 ^ (n + 1) = 256 * 256 ^ n from Nat.pow_succ', Nat.mod_mul]

theorem ofLeBytes_lt (bs : List Byte) : ofLeBytes bs < 256 ^ bs.length := by
  induction bs with
  | nil => simp [ofLeBytes]
  | cons b bs ih =>
    have hb := b.isLt
    rw [ofLeBytes, List.length_cons, Nat.pow_succ']
    omega

/-- The record that a write of `r` with generation `gen` puts into the flash. -/
def configRecord (gen : Nat) (r : List Byte) : List Byte :=
  (asciiBytes "KNFCFG01" ++ leBytes 4 gen ++ (r.drop 12).take 240) ++
    leBytes 4 (crc32 (asciiBytes "KNFCFG01" ++ leBytes 4 gen ++ (r.drop 12).take 240)).toNat

section record
variable {gen : Nat} {r : List Byte}

theorem length_magic : (asciiBytes "KNFCFG01").length = 8 := rfl

theorem length_recordBody (h : r.length = 256) : (asciiBytes "KNFCFG01" ++ leBytes 4 gen ++ (r.drop 12).take 240).length = 252 := by
  rw [List.length_append, List.length_append, length_magic, length_leBytes, List.length_take, List.length_drop, h]
  rfl

theorem length_configRecord (h : r.length = 256) : (configRecord gen r).length = 256 := by
  rw [configRecord, List.length_append, length_recordBody h, length_leBytes]

theorem take_configRecord : (configRecord gen r).take 8 = asciiBytes "KNFCFG01" := by
  rw [configRecord, List.append_assoc, List.append_assoc]
  exact List.take_left' length_magic

theorem gen_configRecord : imgNat (configRecord gen r) 8 4 = gen % 2 ^ 32 := by
  have hdrop : ((configRecord gen r).drop 8).take 4 = leBytes 4 gen := by
    rw [configRecord, List.append_assoc, List.append_assoc, List.append_assoc, List.drop_left' length_magic]
    exact List.take_left' (length_leBytes 4 gen)
  rw [imgNat, hdrop, ofLeBytes_leBytes]
  rfl

theorem crc_configRecord (h : r.length = 256) : imgNat (configRecord gen r) 252 4 = cfgCrc (configRecord gen r) := by
  have hbody := length_recordBody (gen := gen) h
  rw [imgNat, cfgCrc, configRecord]
  generalize asciiBytes "KNFCFG01" ++ leBytes 4 gen ++ (r.drop 12).take 240 = body at hbody
  rw [List.drop_left' hbody, List.take_left' hbody, List.take_of_length_le (length_leBytes 4 _).le, ofLeBytes_leBytes]
  exact Nat.mod_eq_of_lt (crc32 body).isLt

theorem getElem?_configRecord (h : r.length = 256) {i : Nat} (hlo : 12 ≤ i) (hhi : i < 252) : (configRecord gen r)[i]? = r[i]? := by
  have hhead : (asciiBytes "KNFCFG01" ++ leBytes 4 gen).length = 12 := by rw [List.length_append, length_magic, length_leBytes]
  rw [configRecord, List.getElem?_append_left (by rw [length_recordBody h]; exact hhi), List.getElem?_append_right (by rw [hhead]; exact hlo), hhead,
    List.getElem?_take_of_lt (by omega), List.getElem?_drop, Nat.add_sub_of_le hlo]

end record

theorem getElem?_patchByte {r : List Byte} (b : Byte) {o i : Nat} (ho : o < r.length) :
    (patchBytes r o [b])[i]? = if i = o then some b else r[i]? := by
  have hlen : (r.take o).length = o := by rw [List.length_take]; omega
  rw [patchBytes, List.append_assoc, List.singleton_append]
  rcases lt_trichotomy i o with hlt | rfl | hlt
  · rw [List.getElem?_append_left (by rwa [hlen]), List.getElem?_take_of_lt hlt, if_neg hlt.ne]
  · rw [List.getElem?_append_right hlen.le, hlen, Nat.sub_self, List.getElem?_cons_zero, if_pos rfl]
  · rw [List.getElem?_append_right (by omega), hlen, if_neg hlt.ne']
    obtain ⟨j, rfl⟩ := Nat.exists_eq_add_of_lt hlt
    rw [show o + j + 1 - o = j + 1 by omega, List.getElem?_cons_succ, List.getElem?_drop]
    congr 1
    simp only [List.length_cons, List.length_nil]
    omega

theorem length_patchByte {r : List Byte} (b : Byte) {o : Nat} (ho : o < r.length) : (patchBytes r o [b]).length = r.length := by
  simp only [patchBytes, List.length_append, List.length_take, List.length_cons, List.length_nil, List.length_drop]
  omega

/-- A field of one byte of the record is the byte of the record asked for. -/
theorem imgNat_one (l : List Byte) (o : Nat) : imgNat l o 1 = (l[o]?.map BitVec.toNat).getD 0 := by
  rw [imgNat]
  cases h : l[o]? with
  | none => rw [List.drop_eq_nil_of_le (List.getElem?_eq_none_iff.1 h)]; rfl
  | some b =>
    obtain ⟨hlt, rfl⟩ := List.getElem?_eq_some_iff.1 h
    rw [List.drop_eq_getElem_cons hlt, List.take_succ_cons, List.take_zero]
    simp [ofLeBytes]

theorem imgNat_configRecord {gen : Nat} {r : List Byte} (h : r.length = 256) : imgNat (configRecord gen r) 14 1 = imgNat r 14 1 := by
  rw [imgNat_one, imgNat_one, getElem?_configRecord h (by decide) (by decide)]

theorem imgNat_patchByte {r : List Byte} (l : List Byte) {o : Nat} (ho : o < r.length) :
    imgNat (patchBytes r o (leBytes 1 (imgNat l o 1))) o 1 = imgNat l o 1 := by
  have hlt : imgNat l o 1 < 256 := (ofLeBytes_lt _).trans_le (Nat.pow_le_pow_right (by decide) (List.length_take_le _ _))
  rw [imgNat_one, leBytes, leBytes, getElem?_patchByte _ ho, if_pos rfl, Option.map_some, Option.getD_some, BitVec.toNat_ofNat]
  exact Nat.mod_eq_of_lt hlt

/-- A byte of the flash after a sector has been erased and programmed from its start on. -/
theorem flash_eraseProgram {c : Chip} (hwf : Cells.wf flashBlank c.boot.flash = true) {a n : Nat} {bs : List Byte} (hn : bs.length ≤ n) (x : Nat) :
    Cells.get flashBlank ((c.flashErase a n).flashProgram a bs).boot.flash x =
      if a ≤ x ∧ x < a + n then (bs[x - a]?).getD 0xFF else Cells.get flashBlank c.boot.flash x := by
  have herase : ∀ x, Cells.get flashBlank (c.flashErase a n).boot.flash x =
      if a ≤ x ∧ x < a + n then 0xFF else Cells.get flashBlank c.boot.flash x := fun x => by
    have h := Cells.get_filter flashBlank c.boot.flash (fun k => !(decide (a ≤ k ∧ k < a + n))) x hwf
    rw [Chip.flashErase, boot_setBoot]
    refine h.trans ?_
    by_cases hx : a ≤ x ∧ x < a + n <;> simp [hx, flashBlank]
  generalize c.flashErase a n = d at herase
  have hnew : (bs.zip (d.flashBytes a bs.length)).map (fun x => x.1 &&& x.2) = bs := by
    refine List.ext_getElem? fun i => ?_
    by_cases hi : i < bs.length
    · have hblank : (d.flashBytes a bs.length)[i]? = some 0xFF := by
        simp only [Chip.flashBytes, Cells.getRun, List.getElem?_map, List.getElem?_range hi, Option.map_some]
        rw [herase, if_pos ⟨Nat.le_add_right _ _, by omega⟩]
      rw [List.getElem?_map, List.getElem?_zip_eq_some (z := (bs[i], 0xFF)) |>.2 ⟨List.getElem?_eq_getElem hi, hblank⟩, Option.map_some, List.getElem?_eq_getElem hi]
      congr 1
      exact BitVec.and_allOnes
    · rw [List.getElem?_eq_none (by simp; omega), List.getElem?_eq_none (by omega)]
  rw [Chip.flashProgram, hnew, boot_setBoot]
  show Cells.get flashBlank (Cells.putRun flashBlank d.boot.flash a bs) x = _
  rw [Cells.get_putRun, herase]
  by_cases hin : a ≤ x ∧ x < a + n
  · rw [if_pos hin.1, if_pos hin, if_pos hin]
  · rw [if_neg hin, if_neg hin]
    split_ifs with ha
    · rw [List.getElem?_eq_none (by omega), Option.getD_none]
    · rfl

theorem flashBytes_eraseProgram {c : Chip} (hwf : Cells.wf flashBlank c.boot.flash = true) {a n : Nat} {bs : List Byte} (hn : bs.length ≤ n) :
    ((c.flashErase a n).flashProgram a bs).flashBytes a bs.length = bs := by
  refine List.ext_getElem? fun i => ?_
  by_cases hi : i < bs.length
  · simp only [Chip.flashBytes, Cells.getRun, List.getElem?_map, List.getElem?_range hi, Option.map_some]
    rw [flash_eraseProgram hwf hn, if_pos ⟨Nat.le_add_right _ _, by omega⟩, Nat.add_sub_cancel_left, List.getElem?_eq_getElem hi, Option.getD_some]
  · rw [List.getElem?_eq_none (by simp [Chip.flashBytes, Cells.getRun]; omega), List.getElem?_eq_none (by omega)]

/-! ### The ends of flash operations (R606, R618, R626) -/

/-- The oldest flash operation is over. -/
def Chip.dropOp (c : Chip) (rest : List FlashOp) : Chip := c.setBoot { c.boot with ops := rest }

/-- Where a new configuration record goes: the copy that is not current. -/
def Chip.newConfigBase (c : Chip) : Nat := 0x10000 * (c.currentConfig.map fun x => 1 - x.1).getD 0

/-- The generation of a new configuration record. -/
def Chip.newConfigGen (c : Chip) : Nat := (c.currentConfig.map fun x => imgNat x.2 8 4 + 1).getD 0

theorem writeConfig_eq (c : Chip) (r : List Byte) :
    c.writeConfig r = (c.flashErase c.newConfigBase 0x10000).flashProgram c.newConfigBase (configRecord c.newConfigGen r) := rfl

theorem currentConfig_of_flash {c d : Chip} (h : d.boot.flash = c.boot.flash) : d.currentConfig = c.currentConfig := by
  have hbytes : ∀ a n, d.flashBytes a n = c.flashBytes a n := fun a n => by rw [Chip.flashBytes, h, ← Chip.flashBytes]
  unfold Chip.currentConfig
  rw [hbytes, hbytes]

/-- What the write of a configuration record leaves. -/
structure ConfigWritten (c : Chip) (rest : List FlashOp) (x : List Byte) (c' : Chip) : Prop where
  ops : c'.boot.ops = rest
  idle : c'.flag BOOT_HOST_STATUS_BUSY = false
  event : c'.flag BOOT_EVENT_CONFIG_WRITTEN = true
  bytes : c'.flashBytes c.newConfigBase 256 = configRecord c.newConfigGen (patchBytes x 14 (leBytes 1 (imgNat c.config 14 1)))
  apart : ∀ a, a < c.newConfigBase ∨ c.newConfigBase + 0x10000 ≤ a → Cells.get flashBlank c'.boot.flash a = Cells.get flashBlank c.boot.flash a
  fields : c.fieldsKept [BOOT_HOST_STATUS_BUSY, BOOT_EVENT_CONFIG_WRITTEN] c'

theorem configWritten {c : Chip} (rest : List FlashOp) {x : List Byte} (hx : x.length = 256) (hwf : Cells.wf flashBlank c.boot.flash = true) :
    ConfigWritten c rest x (((c.dropOp rest).setFld BOOT_HOST_STATUS_BUSY 0).newConfig
      (patchBytes x 14 (leBytes 1 (imgNat ((c.dropOp rest).setFld BOOT_HOST_STATUS_BUSY 0).config 14 1)))) := by
  have hidle : ((c.dropOp rest).setFld BOOT_HOST_STATUS_BUSY 0).flag BOOT_HOST_STATUS_BUSY = false := by
    rw [Chip.flag, fld_setFld_same _ _ _ (by decide)]
    rfl
  have hfields : c.fieldsKept [BOOT_HOST_STATUS_BUSY] ((c.dropOp rest).setFld BOOT_HOST_STATUS_BUSY 0) :=
    fieldsKept_setFld _ _ (by simp) (fieldsKept_of_regs rfl)
  have hops : ((c.dropOp rest).setFld BOOT_HOST_STATUS_BUSY 0).boot.ops = rest := rfl
  have hflash : ((c.dropOp rest).setFld BOOT_HOST_STATUS_BUSY 0).boot.flash = c.boot.flash := rfl
  generalize (c.dropOp rest).setFld BOOT_HOST_STATUS_BUSY 0 = d at hidle hfields hops hflash
  have hcurrent := currentConfig_of_flash hflash
  have hbase : d.newConfigBase = c.newConfigBase := by rw [Chip.newConfigBase, hcurrent, ← Chip.newConfigBase]
  have hgen : d.newConfigGen = c.newConfigGen := by rw [Chip.newConfigGen, hcurrent, ← Chip.newConfigGen]
  have hconfig : d.config = c.config := by rw [Chip.config, hcurrent, ← Chip.config]
  rw [Chip.newConfig, writeConfig_eq, hbase, hgen, hconfig]
  have hlen : (configRecord c.newConfigGen (patchBytes x 14 (leBytes 1 (imgNat c.config 14 1)))).length = 256 :=
    length_configRecord ((length_patchByte _ (by omega)).trans hx)
  generalize hr : configRecord c.newConfigGen (patchBytes x 14 (leBytes 1 (imgNat c.config 14 1))) = r at hlen
  have hat := flashBytes_eraseProgram (c := d) (a := c.newConfigBase) (n := 0x10000) (bs := r) (by rwa [hflash]) (by omega)
  have hoff := fun x hx => (flash_eraseProgram (c := d) (a := c.newConfigBase) (n := 0x10000) (bs := r) (by rwa [hflash]) (by omega) x).trans (if_neg hx)
  have hops' : ((d.flashErase c.newConfigBase 0x10000).flashProgram c.newConfigBase r).boot.ops = d.boot.ops := rfl
  have hregs : ((d.flashErase c.newConfigBase 0x10000).flashProgram c.newConfigBase r).regs = d.regs := rfl
  generalize (d.flashErase c.newConfigBase 0x10000).flashProgram c.newConfigBase r = e at hat hoff hops' hregs
  refine ⟨?_, ?_, flag_mark_same _ BOOT_EVENT_CONFIG_WRITTEN (by decide) (by decide), ?_, fun a ha => ?_, ?_⟩
  · rw [Chip.boot, mark_sup, ← Chip.boot, hops', hops]
  · rw [Chip.flag, fld_mark_apart _ _ _ (by decide) (by decide), fld_of_regs hregs]
    exact hidle
  · rw [Chip.flashBytes, Chip.boot, mark_sup, ← Chip.boot, ← Chip.flashBytes, ← hlen, hat, hr]
  · rw [Chip.boot, mark_sup, ← Chip.boot, hoff a (by omega), hflash]
  · exact fieldsKept_mark _ (by simp) (fieldsKept_regs hregs (fieldsKept_weaken (by simp) hfields))

section ends
variable {c : Chip} {o : FlashOp} {rest : List FlashOp} (hops : c.boot.ops = o :: rest)
include hops

theorem flashDone_hostConfig {x : List Byte} (huse : o.use = .hostConfig x) : c.flashDone true =
    ((c.dropOp rest).setFld BOOT_HOST_STATUS_BUSY 0).newConfig
      (patchBytes x 14 (leBytes 1 (imgNat ((c.dropOp rest).setFld BOOT_HOST_STATUS_BUSY 0).config 14 1))) := by
  unfold Chip.flashDone
  rw [hops]
  dsimp only
  rw [huse]
  rfl

theorem flashDone_journal_again {v d op : Nat} (huse : o.use = .journal v d op false) : c.flashDone false =
    (c.dropOp rest).setBoot { (c.dropOp rest).boot with ops := { o with use := .journal v d op true } :: rest } := by
  unfold Chip.flashDone
  rw [hops]
  dsimp only
  rw [huse]
  rfl

theorem flashDone_journal_lost {v d op : Nat} (huse : o.use = .journal v d op true) (huid : o.uid = none) :
    c.flashDone false = (c.dropOp rest).mark BOOT_EVENT_JOURNAL_FAIL := by
  unfold Chip.flashDone
  rw [hops]
  dsimp only
  rw [huse, huid]
  rfl

theorem flashDone_bank_lost {j : Nat} (huse : o.use = .bank j) : c.flashDone false = (c.dropOp rest).persistEnd j BOOT_EVENT_PERSIST_FAIL := by
  unfold Chip.flashDone
  rw [hops]
  dsimp only
  rw [huse]
  rfl

end ends

/-! ### The statement -/

section rows
variable {s : State}

/-- The commands of BOOT_HOST_CMD are each discarded while one is in progress, and have RESULT STAGE outside their stages. -/
theorem completes_bootCmd {i : Instr} {stage : Nat → Bool} {f : Chip → Chip} (hi : exec i s = s.on fun c => c.bootCmd stage f) :
    (s.chip.flag BOOT_HOST_STATUS_BUSY = true → Completes i s fun c => c = s.chip) ∧
    (s.chip.flag BOOT_HOST_STATUS_BUSY = false → stage (s.chip.fld BOOT_STATUS_STAGE) = false → Completes i s fun c => Resulted s.chip 1 c) ∧
    (∀ P : Chip → Prop, s.chip.flag BOOT_HOST_STATUS_BUSY = false → stage (s.chip.fld BOOT_STATUS_STAGE) = true →
      (∀ d, Resulted s.chip 0 d → P (f d)) → Completes i s P) := by
  refine ⟨fun hbusy => completes_on hi (bootCmd_busy hbusy _ _), fun hidle hstage => completes_on hi ?_, fun P hidle hstage hP => completes_on hi ?_⟩
  · rw [bootCmd_stage hidle hstage]
    exact resulted_bootResult _ (by decide)
  · rw [bootCmd_runs hidle hstage]
    exact hP _ (resulted_bootResult _ (by decide))

/-- LOAD_CHUNK's operands are allowed. -/
def chunkAllowed (k off len : Nat) : Prop := k ≤ 4 ∧ off % 64 = 0 ∧ len % 64 = 0 ∧ 0 < len ∧ len ≤ 524288 ∧ off + len ≤ 32 * mib

theorem loadChunk_refused {c : Chip} {k : Nat} (h : ¬ chunkAllowed k (c.fld BOOT_HOST_OFFSET_OFFSET) (c.fld BOOT_HOST_LENGTH_LENGTH)) :
    c.loadChunk k = c.bootResult 2 := by
  unfold Chip.loadChunk
  refine if_pos ?_
  rw [chunkAllowed] at h
  omega

theorem chunkAllowed_not {k off len : Nat} (h : chunkAllowed k off len) :
    ¬ (4 < k ∨ off % 64 ≠ 0 ∨ len % 64 ≠ 0 ∨ len = 0 ∨ 524288 < len ∨ 32 * mib < off + len) := by
  rw [chunkAllowed] at h
  omega

theorem stage_setFld (c : Chip) (f : Fld) (v k : Nat) (img : List Byte) :
    (c.setFld f v).stage k img = (c.setFld f v).setBoot { c.boot with staged := Cells.put (fun _ => []) c.boot.staged k img } := rfl

theorem loadChunk_runs {c : Chip} {k : Nat} (h : chunkAllowed k (c.fld BOOT_HOST_OFFSET_OFFSET) (c.fld BOOT_HOST_LENGTH_LENGTH)) :
    c.loadChunk k = ((c.memWrite (stageAddr k + c.fld BOOT_HOST_OFFSET_OFFSET) (c.mailbox (c.fld BOOT_HOST_LENGTH_LENGTH))).setFld
      (BOOT_IMAGE_STATE k) 0).stage k [] := by
  rw [stage_setFld]
  unfold Chip.loadChunk
  exact if_neg (chunkAllowed_not h)

theorem length_mailbox (c : Chip) (n : Nat) : (c.mailbox n).length = n := by simp [Chip.mailbox, Cells.getRun]

theorem mailbox_of_boot {c d : Chip} (h : d.boot = c.boot) (n : Nat) : d.mailbox n = c.mailbox n := by rw [Chip.mailbox, h, ← Chip.mailbox]

theorem completes_loadChunk {k : Fin 8} (hidle : s.chip.flag BOOT_HOST_STATUS_BUSY = false) (hstage : s.chip.fld BOOT_STATUS_STAGE = 4)
    (h : chunkAllowed k (s.chip.fld BOOT_HOST_OFFSET_OFFSET) (s.chip.fld BOOT_HOST_LENGTH_LENGTH))
    (hlines : ∀ p ∈ linePieces (stageAddr k + s.chip.fld BOOT_HOST_OFFSET_OFFSET) (s.chip.fld BOOT_HOST_LENGTH_LENGTH), s.chip.lineOf p.1 = none) :
    Completes (.loadChunk k) s (ChunkLoaded s.chip k (stageAddr k + s.chip.fld BOOT_HOST_OFFSET_OFFSET) (s.chip.mailbox (s.chip.fld BOOT_HOST_LENGTH_LENGTH))) := by
  refine (completes_bootCmd (f := fun c => c.loadChunk k) rfl).2.2 _ hidle (by rw [hstage]; rfl) fun d hd => ?_
  have hoff : d.fld BOOT_HOST_OFFSET_OFFSET = s.chip.fld BOOT_HOST_OFFSET_OFFSET := hd.fld (by decide) (by decide)
  have hlen : d.fld BOOT_HOST_LENGTH_LENGTH = s.chip.fld BOOT_HOST_LENGTH_LENGTH := hd.fld (by decide) (by decide)
  rw [loadChunk_runs (by rwa [hoff, hlen]), hoff, hlen, mailbox_of_boot hd.boot]
  obtain ⟨-, hoff64, hlen64, -⟩ := h
  refine chunkLoaded hd k ?_ (by rwa [length_mailbox]) (by rwa [length_mailbox])
  rw [stageAddr, mib]
  omega

theorem Resulted.imageCheck {c d : Chip} {r : Nat} (h : Resulted c r d) (k : Nat) (img : List Byte) (n : Nat) :
    d.imageCheck k img n = c.imageCheck k img n :=
  imageCheck_congr (by rw [h.boot]) (congrArg (· != 0) (h.fld (by decide) (by decide))) (congrArg (· != 0) (h.fld (by decide) (by decide)))
    (h.fld (Nat.le_of_ble_eq_true rfl) (apart_of_reg (by simp only [BOOT_SVN_MIN_SVN, BOOT_SVN, BOOT_HOST_STATUS_RESULT, BOOT_HOST_STATUS]; omega))) img n

theorem Resulted.loadEnd {c d : Chip} (h : Resulted c 0 d) {k : Nat} (hk : k ≤ 4) (hunits : ∀ u ∈ unitsOf (stageAddr k) (32 * mib), c.unitMark u = .good)
    (hlines : ∀ l, stageAddr k ≤ 4096 * l → 4096 * l < stageAddr k + 32 * mib → c.lineOf l = none) :
    ImageChecked c k (c.imageCheck k (c.stagingImage k) (c.stagingImage k).length) (c.stagingImage k) (d.loadEnd k) := by
  have hbytes : ∀ a n, d.bytes a n = c.bytes a n := fun a n => by rw [Chip.bytes, h.buf, ← Chip.bytes]
  have himage : d.stagingImage k = c.stagingImage k := by rw [Chip.stagingImage, hbytes, hbytes, ← Chip.stagingImage]
  have hunits' : ∀ u ∈ unitsOf (stageAddr k) (32 * mib), d.unitMark u = .good := fun u hu => by
    rw [Chip.unitMark, h.buf, ← Chip.unitMark]
    exact hunits u hu
  have hlines' : ∀ l, stageAddr k ≤ 4096 * l → 4096 * l < stageAddr k + 32 * mib → d.lineOf l = none := fun l hlo hhi =>
    (lineOf_congr (by rw [h.buf]) (by rw [h.buf]) (by rw [h.buf]) (by rw [h.buf]) l).trans (hlines l hlo hhi)
  rw [loadEnd_eq hk hunits' hlines', himage, h.imageCheck]
  exact imageChecked h k (imageCheck_le _ _ _ _) _

theorem completes_loadEnd {k : Fin 8} (hidle : s.chip.flag BOOT_HOST_STATUS_BUSY = false) (hstage : s.chip.fld BOOT_STATUS_STAGE = 4) (hk : k.val ≤ 4)
    (hunits : ∀ u ∈ unitsOf (stageAddr k) (32 * mib), s.chip.unitMark u = .good)
    (hlines : ∀ l, stageAddr k ≤ 4096 * l → 4096 * l < stageAddr k + 32 * mib → s.chip.lineOf l = none) :
    Completes (.loadEnd k) s
      (ImageChecked s.chip k (s.chip.imageCheck k (s.chip.stagingImage k) (s.chip.stagingImage k).length) (s.chip.stagingImage k)) :=
  (completes_bootCmd (f := fun c => c.loadEnd k) rfl).2.2 _ hidle (by rw [hstage]; rfl) fun _ hd => hd.loadEnd hk hunits hlines

theorem allAccepted_of_fld {c d : Chip} (h : ∀ k < 5, d.fld (BOOT_IMAGE_STATE k) = c.fld (BOOT_IMAGE_STATE k)) : d.allAccepted = c.allAccepted := by
  simp only [Chip.allAccepted, show List.range 5 = [0, 1, 2, 3, 4] from rfl, List.all_cons, List.all_nil, h 0 (by decide), h 1 (by decide),
    h 2 (by decide), h 3 (by decide), h 4 (by decide)]

theorem Resulted.allAccepted {c d : Chip} {r : Nat} (h : Resulted c r d) : d.allAccepted = c.allAccepted :=
  allAccepted_of_fld fun k _ => h.fld (Nat.le_of_ble_eq_true rfl)
    (apart_of_reg (by simp only [BOOT_IMAGE_STATE, BOOT_IMAGE, BOOT_HOST_STATUS_RESULT, BOOT_HOST_STATUS]; omega))

theorem Resulted.fuseRefuses_iff {c d : Chip} {r : Nat} (h : Resulted c r d) : d.fuseRefuses (d.mailbox 64) ↔ c.fuseRefuses (c.mailbox 64) := by
  have hsvn : ∀ j, d.fld (BOOT_SVN_MIN_SVN j) = c.fld (BOOT_SVN_MIN_SVN j) := fun j => h.fld (Nat.le_of_ble_eq_true rfl)
    (apart_of_reg (by simp only [BOOT_SVN_MIN_SVN, BOOT_SVN, BOOT_HOST_STATUS_RESULT, BOOT_HOST_STATUS]; omega))
  have hset : d.flag BOOT_FUSE_OWNER_KEY_SET = c.flag BOOT_FUSE_OWNER_KEY_SET := by rw [Chip.flag, h.fld (by decide) (by decide), ← Chip.flag]
  simp only [Chip.fuseRefuses, hsvn, hset, mailbox_of_boot h.boot]

theorem completes_fuseProgram (hidle : s.chip.flag BOOT_HOST_STATUS_BUSY = false) (hstage : s.chip.fld BOOT_STATUS_STAGE = 4)
    (h : ¬ s.chip.fuseRefuses (s.chip.mailbox 64)) :
    Completes .fuseProgram s fun c => ∃ d, Resulted s.chip 0 d ∧
      Fused d (if (imgNat (s.chip.mailbox 64) 48 1).testBit 0 then some ((s.chip.mailbox 64).take 48) else none)
        ((imgNat (s.chip.mailbox 64) 48 1).testBit 1) (fun j => imgNat (s.chip.mailbox 64) (49 + j) 1) c := by
  refine (completes_bootCmd (f := Chip.fuseProgram) rfl).2.2 _ hidle (by rw [hstage]; rfl) fun d hd => ⟨d, hd, ?_⟩
  have hno : ¬ d.fuseRefuses (d.mailbox 64) := fun hd' => h (hd.fuseRefuses_iff.1 hd')
  rw [fuseProgram_runs hno, mailbox_of_boot hd.boot]
  refine fused d _ _ fun j hj => ?_
  rw [← mailbox_of_boot hd.boot]
  by_contra hlt
  exact hno (.inr ⟨j, hj, by omega⟩)

theorem hostConfig_runs {c : Chip} (h : cfgValid (c.mailbox 256) = true ∧ cfgFieldsOk (c.mailbox 256) = true) :
    c.hostConfig = (c.setFld BOOT_HOST_STATUS_BUSY 1).flashQueue (.hostConfig (c.mailbox 256)) none := by
  unfold Chip.hostConfig
  exact if_pos (by rw [h.1, h.2]; rfl)

theorem hostConfig_refused {c : Chip} (h : ¬ (cfgValid (c.mailbox 256) = true ∧ cfgFieldsOk (c.mailbox 256) = true)) : c.hostConfig = c.bootResult 2 := by
  unfold Chip.hostConfig
  exact if_neg (by rwa [Bool.and_eq_true])

end rows

/-- Settles O56. -/
theorem bootCommands : Obligations.BootCommands := by
  unfold Obligations.BootCommands
  intro s k b stage idle result off len allowed r add refused img why
  have hresult : ∀ {i : Instr} {n : Nat}, (Completes i s fun c => Resulted s.chip n c) → Completes i s fun c => result c n := fun h =>
    h.imp fun c hc => ⟨hc.result, hc.fields, hc.only⟩
  have hchunk := completes_bootCmd (s := s) (i := .loadChunk k) (f := fun c => c.loadChunk k) (stage := (· == 4)) rfl
  have hend := completes_bootCmd (s := s) (i := .loadEnd k) (f := fun c => c.loadEnd k) (stage := (· == 4)) rfl
  have hgo := completes_bootCmd (s := s) (i := .bootGo b) (f := fun c => if c.allAccepted then c.bootLoad b else c.bootResult 2) (stage := (· == 4)) rfl
  have hfuse := completes_bootCmd (s := s) (i := .fuseProgram) (f := Chip.fuseProgram) (stage := (· == 4)) rfl
  have hwrite := completes_bootCmd (s := s) (i := .writeConfig) (f := Chip.hostConfig) (stage := fun k => k != 0 && k != 7) rfl
  refine ⟨fun i hi => ⟨fun hbusy => ?_, fun hidle hstage => hresult ?_⟩, fun hidle hstage => ⟨?_, ?_, ?_, ?_, ?_, ?_, ?_, ?_⟩, fun hidle hzero hseven => ?_, ?_, ?_⟩
  · have hbusy : s.chip.flag BOOT_HOST_STATUS_BUSY = true := by simpa [idle] using hbusy
    rcases hi with rfl | rfl | rfl | rfl | rfl
    · exact hchunk.1 hbusy
    · exact hend.1 hbusy
    · exact hgo.1 hbusy
    · exact hfuse.1 hbusy
    · exact hwrite.1 hbusy
  · rcases hi with rfl | rfl | rfl | rfl | rfl
    · exact hchunk.2.1 hidle (by simpa using hstage)
    · exact hend.2.1 hidle (by simpa using hstage)
    · exact hgo.2.1 hidle (by simpa using hstage)
    · exact hfuse.2.1 hidle (by simpa using hstage)
    · refine hwrite.2.1 hidle ?_
      rw [if_pos rfl] at hstage
      rcases hstage with h | h <;> simp [show s.chip.fld BOOT_STATUS_STAGE = _ from h]
  · intro hnot
    refine hresult (hchunk.2.2 _ hidle (by simpa using hstage) fun d hd => ?_)
    rw [loadChunk_refused]
    · exact hd.bootResult (by decide)
    · rw [hd.fld (by decide) (by decide), hd.fld (by decide) (by decide)]
      exact hnot
  · intro hok hlines
    refine (completes_loadChunk hidle hstage hok hlines).imp fun c h => ?_
    obtain ⟨hres, hstate, hstaged, hat, hapart, hfields⟩ := h
    rw [length_mailbox] at hat hapart
    exact ⟨hres, hstate, hstaged, hat, hapart, hfields⟩
  · intro hk
    refine hresult (hend.2.2 _ hidle (by simpa using hstage) fun d hd => ?_)
    rw [Chip.loadEnd, if_pos hk]
    exact hd.bootResult (by decide)
  · intro hk hunits hlines
    refine (completes_loadEnd hidle hstage hk hunits hlines).imp fun c h => ?_
    exact ⟨h.result, h.check, h.state, h.staged, h.fields, h.bytes⟩
  · intro hnot
    refine hresult (hgo.2.2 _ hidle (by simpa using hstage) fun d hd => ?_)
    rw [hd.allAccepted, hnot, if_neg Bool.false_ne_true]
    exact hd.bootResult (by decide)
  · intro hall
    refine hgo.2.2 _ hidle (by simpa using hstage) fun d hd => ?_
    rw [hd.allAccepted, hall, if_pos rfl]
    by_cases hb : b.cores = 0 ∨ b.wmH = false
    · rw [if_pos hb]
      exact bootLoad_halts hb
    · rw [if_neg hb]
      obtain ⟨e, he⟩ := bootLoad_ready (c := d) hb
      rw [he]
      exact bootReady_spec e
  · intro href
    refine hresult (hfuse.2.2 _ hidle (by simpa using hstage) fun d hd => ?_)
    rw [fuseProgram_refused (hd.fuseRefuses_iff.2 href)]
    exact hd.bootResult (by decide)
  · intro hno
    refine (completes_fuseProgram hidle hstage hno).imp fun c ⟨d, hd, h⟩ => ?_
    have hsvn : ∀ j, d.fld (BOOT_SVN_MIN_SVN j) = s.chip.fld (BOOT_SVN_MIN_SVN j) := fun j => hd.fld (Nat.le_of_ble_eq_true rfl)
      (apart_of_reg (by simp only [BOOT_SVN_MIN_SVN, BOOT_SVN, BOOT_HOST_STATUS_RESULT, BOOT_HOST_STATUS]; omega))
    refine ⟨?_, ?_, ?_, ?_, fun j hj => ?_, ?_, bytesKept_trans (bytesKept_of_regsOnly hd.only) h.bytes⟩
    · rw [h.fields _ (by decide) (by decide), hd.result]
    · rw [h.keySet, Chip.flag, hd.fld (by decide) (by decide), ← Chip.flag]
      congr 1
      split_ifs with hbit <;> simp [hbit, r]
    · rw [h.keyHash, hd.boot]
      split_ifs <;> rfl
    · rw [h.ownerOnly, Chip.flag, hd.fld (by decide) (by decide), ← Chip.flag]
    · rw [h.svns j hj, hsvn]
    · exact fieldsKept_trans (fieldsKept_weaken (by simp) hd.fields) (fieldsKept_weaken (fun _ hf => List.mem_cons_of_mem _ hf) h.fields)
  · refine hwrite.2.2 _ hidle (by simp [show s.chip.fld BOOT_STATUS_STAGE ≠ 0 from hzero, show s.chip.fld BOOT_STATUS_STAGE ≠ 7 from hseven]) fun d hd => ?_
    have hmail := mailbox_of_boot hd.boot 256
    by_cases hvalid : cfgValid (s.chip.mailbox 256) = true ∧ cfgFieldsOk (s.chip.mailbox 256) = true
    · rw [if_pos hvalid, hostConfig_runs (by rwa [hmail]), hmail, Chip.flashQueue]
      refine ⟨?_, ?_, ?_, ?_, ?_⟩
      · rw [flag_setBoot]
        exact flag_mark_same d BOOT_HOST_STATUS_BUSY (by decide) (by decide)
      · rw [fld_setBoot, fld_setFld_apart _ _ _ _ (by decide) (by decide), hd.result]
      · rw [boot_setBoot, ← hd.boot]
        rfl
      · exact fieldsKept_regs (setBoot_regs _ _) (fieldsKept_setFld _ _ (by simp) (fieldsKept_weaken (by simp) hd.fields))
      · exact bytesKept_trans (bytesKept_of_regsOnly hd.only) ⟨fun _ => rfl, fun _ => rfl, fun _ => rfl, fun _ => rfl⟩
    · rw [if_neg hvalid, hostConfig_refused (by rwa [hmail])]
      have hlast := hd.bootResult (r := 2) (by decide)
      exact ⟨hlast.result, hlast.fields, hlast.only⟩
  · intro j hmem hops
    refine completes_on (f := fun c => c.persist j) rfl ?_
    have hrun : ¬ ((!s.chip.boot.persisting.contains j.val) = true ∨ (s.chip.boot.ops.any fun o => o.of j) = true) := by
      simp only [Bool.not_eq_true', List.any_eq_true, not_or, not_exists, not_and, Bool.not_eq_false, Bool.not_eq_true]
      exact ⟨List.contains_iff_mem.2 hmem, hops⟩
    rw [Chip.persist, if_neg hrun]
    by_cases hbig : slotSize j < (s.chip.runningImage j).length
    · rw [if_pos hbig, if_pos hbig]
      obtain ⟨hevent, hout, hshown, hfields, -⟩ := persistEnd_spec s.chip j.val (event := BOOT_EVENT_PERSIST_SKIPPED) (by decide) (by decide) (by decide)
      exact ⟨hevent, hout, hshown, hfields⟩
    · rw [if_neg hbig, if_neg hbig]
      exact ⟨rfl, rfl⟩
  · intro o rest hops huid cur base
    refine ⟨fun x huse hx hwf => completes_on (f := fun c => c.flashDone true) rfl ?_, fun v d op huse => completes_on (f := fun c => c.flashDone false) rfl ?_,
      fun v d op huse => completes_on (f := fun c => c.flashDone false) rfl ?_, fun j huse => completes_on (f := fun c => c.flashDone false) rfl ?_⟩
    · rw [flashDone_hostConfig hops huse]
      have hlen : (patchBytes x 14 (leBytes 1 (imgNat s.chip.config 14 1))).length = 256 := (length_patchByte _ (by omega)).trans hx
      obtain ⟨hrest, hidle, hevent, hbytes, hapart, hfields⟩ := configWritten rest hx ((memory_wf_iff s.chip).1 hwf).2.1
      refine ⟨hrest, hidle, hevent, ?_, ?_, ?_, ?_, fun i hlo hhi hne => ?_, hapart, hfields⟩
      all_goals rw [show base = s.chip.newConfigBase from rfl, hbytes]
      · exact take_configRecord
      · exact gen_configRecord
      · exact crc_configRecord hlen
      · rw [imgNat_configRecord hlen, imgNat_patchByte _ (by omega)]
      · rw [List.getD_eq_getElem?_getD, getElem?_configRecord hlen hlo hhi, leBytes, leBytes, getElem?_patchByte _ (by omega), if_neg hne,
          List.getD_eq_getElem?_getD]
    · rw [flashDone_journal_again hops huse, huid]
      exact ⟨rfl, rfl⟩
    · rw [flashDone_journal_lost hops huse huid]
      exact ⟨rfl, flag_mark_same _ BOOT_EVENT_JOURNAL_FAIL (by decide) (by decide), fieldsKept_mark _ (by simp) (fieldsKept_of_regs rfl),
        ⟨fun _ => rfl, fun _ => rfl, fun _ => rfl, fun _ => rfl⟩⟩
    · rw [flashDone_bank_lost hops huse]
      obtain ⟨hevent, hout, -, hfields, hbytes, hrest⟩ := persistEnd_spec (s.chip.dropOp rest) j (event := BOOT_EVENT_PERSIST_FAIL) (by decide) (by decide)
        (by decide)
      exact ⟨hrest, hevent, hout, fieldsKept_trans (fieldsKept_of_regs rfl) hfields,
        bytesKept_trans ⟨fun _ => rfl, fun _ => rfl, fun _ => rfl, fun _ => rfl⟩ hbytes⟩

end Sys2Proof.Machine
end

section
/-! Proofs about the resets and the start-up: O57. -/

namespace Sys2Proof.Machine

/-! ### What start-up and resets leave -/

/-- Registers that neither a warm restart's copies nor the start-up writes: scratch, block cache, fuses. -/
abbrev quietReg (o : Nat) : Prop := o = GEN_SCRATCH ∨ 0x30000 ≤ o ∧ o < 0x40000 ∨ o = BOOT_FUSE ∨ BOOT_SVN 0 ≤ o ∧ o ≤ BOOT_SVN 4

/-- The fields of the quiet registers. -/
abbrev quietFld (f : Fld) : Prop := quietReg f.reg

/-- What the start-up leaves once its first step has told the sources. -/
def toldFld (f : Fld) : Prop := quietFld f ∨ f = BOOT_STATUS_SRC_HOST ∨ f = BOOT_LAST_RESET_SOURCE

/-- What a part of a restart keeps: the fields `K`, flash and fuses, weirs but the device log's, time, what hosts see, and under `p` the buffer. -/
structure Steady (K : Fld → Prop) (p : Prop) (c c' : Chip) : Prop where
  fld : ∀ f, K f → f.lo + f.w ≤ 64 → c'.fld f = c.fld f
  boot : c'.boot = c.boot
  weir : ∀ n, n ≠ weirKey 6 0 → c'.weir n = c.weir n
  arch : c'.arch = c.arch
  cmds : c'.host.cmds = c.host.cmds
  posts : c'.host.posts = c.host.posts
  events : c'.host.stationEvents = c.host.stationEvents
  buf : p → c'.buf = c.buf

section
variable {K : Fld → Prop} {p : Prop}

theorem Steady.refl (c : Chip) : Steady K p c c := ⟨fun _ _ _ => rfl, rfl, fun _ _ => rfl, rfl, rfl, rfl, rfl, fun _ => rfl⟩

theorem Steady.trans {a b c : Chip} (h₁ : Steady K p a b) (h₂ : Steady K p b c) : Steady K p a c where
  fld f hf hfit := (h₂.fld f hf hfit).trans (h₁.fld f hf hfit)
  boot := h₂.boot.trans h₁.boot
  weir n hn := (h₂.weir n hn).trans (h₁.weir n hn)
  arch := h₂.arch.trans h₁.arch
  cmds := h₂.cmds.trans h₁.cmds
  posts := h₂.posts.trans h₁.posts
  events := h₂.events.trans h₁.events
  buf hp := (h₂.buf hp).trans (h₁.buf hp)

theorem Steady.setFld {c c' : Chip} (h : Steady K p c c') {g : Fld} (v : Nat) (hg : ∀ f, K f → apart f g) : Steady K p c (c'.setFld g v) :=
  { h with fld := fun f hf hfit => (fld_setFld_apart c' f g v hfit (hg f hf)).trans (h.fld f hf hfit) }

theorem Steady.foldl {α : Type} {l : List α} {step : Chip → α → Chip} {a c : Chip} (h : Steady K p a c)
    (hstep : ∀ x ∈ l, ∀ c, Steady K p a c → Steady K p a (step c x)) : Steady K p a (l.foldl step c) :=
  List.foldlRecOn l step h fun c hc x hx => hstep x hx c hc

/-- A change of the state behind the registers that a restart makes. -/
theorem Steady.regs {a c c' : Chip} (h : Steady K p a c) (hregs : c'.regs = c.regs) (hboot : c'.boot = c.boot) (hcore : c'.core = c.core)
    (harch : c'.arch = c.arch) (hcmds : c'.host.cmds = c.host.cmds) (hposts : c'.host.posts = c.host.posts)
    (hevents : c'.host.stationEvents = c.host.stationEvents) (hbuf : p → c'.buf = c.buf) : Steady K p a c' where
  fld f hf hfit := (fld_of_regs hregs f).trans (h.fld f hf hfit)
  boot := hboot.trans h.boot
  weir n hn := by rw [Chip.weir, hcore]; exact h.weir n hn
  arch := harch.trans h.arch
  cmds := hcmds.trans h.cmds
  posts := hposts.trans h.posts
  events := hevents.trans h.events
  buf hp := (hbuf hp).trans (h.buf hp)

end

theorem quiet_apart {g : Fld} (h : ¬ quietReg g.reg) (f : Fld) (hf : quietFld f) : apart f g :=
  apart_of_reg fun heq => h (heq ▸ hf)

theorem told_apart {g : Fld} (h : ¬ quietReg g.reg) (hsrc : apart BOOT_STATUS_SRC_HOST g) (hsource : apart BOOT_LAST_RESET_SOURCE g)
    (f : Fld) (hf : toldFld f) : apart f g := by
  rcases hf with hf | rfl | rfl
  · exact quiet_apart h f hf
  · exact hsrc
  · exact hsource

/-! ### Start-up steps 1 to 5 (R607, R609) -/

section
variable {c₀ c : Chip} {p : Prop}

/-- A field of a register of the boot block or of a fixed place, apart from what the start-up tells. -/
theorem Steady.told {g : Fld} (h : Steady toldFld p c₀ c) (v : Nat) (hg : ¬ quietReg g.reg)
    (hsrc : apart BOOT_STATUS_SRC_HOST g) (hsource : apart BOOT_LAST_RESET_SOURCE g) : Steady toldFld p c₀ (c.setFld g v) :=
  h.setFld v (told_apart hg hsrc hsource)

theorem Steady.setStage (h : Steady toldFld p c₀ c) (k : Nat) : Steady toldFld p c₀ (c.setStage k) :=
  h.told k (by decide) (by decide) (by decide)

theorem Steady.halt (h : Steady toldFld p c₀ c) (k : Nat) : Steady toldFld p c₀ (c.halt k) :=
  (h.setStage 7).told k (by decide) (by decide) (by decide)

theorem Steady.linkRunning (h : Steady toldFld p c₀ c) {s : Nat} (hs : s < 8) : Steady toldFld p c₀ (c.setFld (AFE_LINK_STATUS_RUNNING s) 1) :=
  h.told 1 (by simp only [quietReg, AFE_LINK_STATUS_RUNNING, AFE_LINK_STATUS, GEN_SCRATCH, BOOT_FUSE, BOOT_SVN]; omega)
    (apart_of_reg (by simp only [AFE_LINK_STATUS_RUNNING, AFE_LINK_STATUS, BOOT_STATUS_SRC_HOST, BOOT_STATUS]; omega))
    (apart_of_reg (by simp only [AFE_LINK_STATUS_RUNNING, AFE_LINK_STATUS, BOOT_LAST_RESET_SOURCE, BOOT_LAST_RESET]; omega))

theorem Steady.offset (h : Steady toldFld p c₀ c) {q : Nat} (hq : q < 16) (v : Nat) {f : Fld} (hf : f.reg = MOT_AX_OFFSET q) :
    Steady toldFld p c₀ (c.setFld f v) :=
  h.told v (by simp only [quietReg, hf, MOT_AX_OFFSET, GEN_SCRATCH, BOOT_FUSE, BOOT_SVN]; omega)
    (apart_of_reg (by simp only [hf, MOT_AX_OFFSET, BOOT_STATUS_SRC_HOST, BOOT_STATUS]; omega))
    (apart_of_reg (by simp only [hf, MOT_AX_OFFSET, BOOT_LAST_RESET_SOURCE, BOOT_LAST_RESET]; omega))

/-- Step 1 after its sources are told. -/
theorem steady_bootStart (c : Chip) (b : BootIn) (powerOn : Bool) (source : Nat) :
    Steady toldFld p (((c.setStage 0).setFlag BOOT_STATUS_SRC_HOST b.srcHost).setFld BOOT_LAST_RESET_SOURCE source)
      (c.bootStart b powerOn source) := by
  unfold Chip.bootStart
  generalize ((c.setStage 0).setFlag BOOT_STATUS_SRC_HOST b.srcHost).setFld BOOT_LAST_RESET_SOURCE source = c₁
  have hlinks : Steady toldFld p c₁ ((List.range 8).foldl (fun c s => c.setFld (AFE_LINK_STATUS_RUNNING s) 1) c₁) :=
    (Steady.refl _).foldl fun s hs c hc => hc.linkRunning (List.mem_range.1 hs)
  dsimp only
  split
  · have hpll := (hlinks.told (g := AFE_PLL_STATUS_LOCKED) 1 (by decide) (by decide) (by decide)).told (g := AFE_PLL_STATUS_VCO_BAND) b.band.toNat
      (by decide) (by decide) (by decide)
    refine Steady.told (g := CAL_PLL_BAND) ?_ _ (by decide) (by decide) (by decide)
    exact hpll.regs rfl rfl rfl rfl rfl rfl rfl fun _ => rfl
  · exact hlinks

theorem Steady.pcieIdentity (h : Steady toldFld p c₀ c) (r : List Byte) (x : Nat) : Steady toldFld p c₀ (c.pcieIdentity r x) :=
  h.regs rfl rfl rfl rfl rfl rfl rfl fun _ => rfl

theorem Steady.offsets (h : Steady toldFld p c₀ c) (r : List Byte) :
    Steady toldFld p c₀ ((List.range 16).foldl (fun c p => if (imgNat r 32 2).testBit p then
      (c.setFld (MOT_AX_OFFSET_OFFSET_A p) (imgNat r (40 + 4 * p) 2)).setFld (MOT_AX_OFFSET_OFFSET_B p) (imgNat r (42 + 4 * p) 2) else c) c) :=
  h.foldl fun q hq c hc => by
    split
    · exact (hc.offset (List.mem_range.1 hq) _ rfl).offset (List.mem_range.1 hq) _ rfl
    · exact hc

theorem Steady.bootConfig (h : Steady toldFld p c₀ c) (powerOn : Bool) : Steady toldFld p c₀ (c.bootConfig powerOn) := by
  unfold Chip.bootConfig
  have h₁ := (h.setStage 1).told (g := BOOT_STATUS_CONFIG_DEFAULT) c.currentConfig.isNone.toNat (by decide) (by decide) (by decide)
  have h₂ := (h₁.told (g := GEN_CONFIG_PORT_MODE) (imgNat c.config 12 1) (by decide) (by decide) (by decide)).told
    (g := GEN_CONFIG_QUEUE_SCALE) (imgNat c.config 13 1) (by decide) (by decide) (by decide)
  have h₃ := (h₂.told (g := CIS_DEEP_SIZE_SIZE) (imgNat c.config 20 4) (by decide) (by decide) (by decide)).told
    (g := CIS_DEEP_BASE_BASE) (imgNat c.config 24 8 / mib) (by decide) (by decide) (by decide)
  have h₄ := (h₃.pcieIdentity c.config 0).pcieIdentity c.config 1
  dsimp only
  split
  · refine Steady.offsets ?_ c.config
    exact h₄.regs rfl rfl rfl rfl rfl rfl rfl fun _ => rfl
  · exact h₄.regs rfl rfl rfl rfl rfl rfl rfl fun _ => rfl

theorem Steady.trained (h : Steady toldFld p c₀ c) (tx rx : BitVec 16) : Steady toldFld p c₀ (c.trained tx rx) := by
  unfold Chip.trained
  have h₁ := ((h.told (g := FLM_LANE_STATUS_TX_OK) tx.toNat (by decide) (by decide) (by decide)).told (g := FLM_LANE_STATUS_RX_OK) rx.toNat
    (by decide) (by decide) (by decide)).told (g := FLM_STATUS_RETRAINING) 0 (by decide) (by decide) (by decide)
  dsimp only
  split
  · split
    · exact h₁.told (g := FLM_STATUS_UP) 0 (by decide) (by decide) (by decide)
    · exact (h₁.told (g := FLM_STATUS_UP) 1 (by decide) (by decide) (by decide)).told (g := FLM_STATUS_WIDTH) _ (by decide) (by decide) (by decide)
  · exact h₁.told (g := FLM_STATUS_UP) 0 (by decide) (by decide) (by decide)

/-- The chip that the training of the buffer begins with. -/
def Chip.configured (c : Chip) (b : BootIn) (powerOn : Bool) : Chip :=
  let c := (c.bootConfig powerOn).trained b.lanesM b.lanesH
  if c.flag FLM_STATUS_UP then c else c.setFld BOOT_STATUS_MDIE_MISSING 1

theorem Steady.configured (h : Steady toldFld p c₀ c) (b : BootIn) (powerOn : Bool) : Steady toldFld p c₀ (c.configured b powerOn) := by
  unfold Chip.configured
  have h₁ := (h.bootConfig powerOn).trained b.lanesM b.lanesH
  dsimp only
  split
  · exact h₁
  · exact h₁.told (g := BOOT_STATUS_MDIE_MISSING) 1 (by decide) (by decide) (by decide)

/-- The buffer is not trained yet. -/
def Chip.untrained (c : Chip) (b : BootIn) : Chip := (c.setStage 2).setReg BUF_CFG ((b.bufCfg &&& 3#32).setWidth 64)

/-- The buffer is trained, with its size. -/
def Chip.bufTrained (c : Chip) (b : BootIn) (n : Nat) : Chip :=
  (((c.untrained b).setFld BUF_STATUS_TRAINED 1).setFld BUF_STATUS_SIZE_GIB n).setFld BUF_STATUS_SELFTEST_DONE 1

theorem Steady.untrained (h : Steady toldFld p c₀ c) (b : BootIn) : Steady toldFld p c₀ (c.untrained b) where
  __ := h.setStage 2
  fld f hf hfit := by
    have hreg : f.reg ≠ BUF_CFG := by
      intro heq
      rcases hf with hf | rfl | rfl
      · exact absurd (heq ▸ hf : quietReg BUF_CFG) (by decide)
      · exact absurd heq (by decide)
      · exact absurd heq (by decide)
    rw [Chip.fld, Chip.untrained, reg_setReg_other _ _ _ _ hreg]
    exact (h.setStage 2).fld f hf hfit

theorem Steady.bufTrained (h : Steady toldFld p c₀ c) (b : BootIn) (n : Nat) : Steady toldFld p c₀ (c.bufTrained b n) :=
  (((h.untrained b).told (g := BUF_STATUS_TRAINED) 1 (by decide) (by decide) (by decide)).told (g := BUF_STATUS_SIZE_GIB) n
    (by decide) (by decide) (by decide)).told (g := BUF_STATUS_SELFTEST_DONE) 1 (by decide) (by decide) (by decide)

end

/-! ### Where the start-up ends -/

theorem Steady.mono {K K' : Fld → Prop} {p : Prop} {c c' : Chip} (h : Steady K p c c') (hK : ∀ f, K' f → K f) : Steady K' p c c' :=
  { h with fld := fun f hf => h.fld f (hK f hf) }

/-- The sources of images and of the reset are told. -/
def Chip.sourcesTold (c : Chip) (b : BootIn) (source : Nat) : Chip :=
  ((c.setStage 0).setFlag BOOT_STATUS_SRC_HOST b.srcHost).setFld BOOT_LAST_RESET_SOURCE source

theorem steady_sourcesTold {p : Prop} (c : Chip) (b : BootIn) (source : Nat) : Steady quietFld p c (c.sourcesTold b source) :=
  (((Steady.refl c).setFld (g := BOOT_STATUS_STAGE) 0 (quiet_apart (by decide))).setFld (g := BOOT_STATUS_SRC_HOST) b.srcHost.toNat
    (quiet_apart (by decide))).setFld (g := BOOT_LAST_RESET_SOURCE) source (quiet_apart (by decide))

section
variable (c : Chip) {b : BootIn} (powerOn : Bool) (source : Nat)

theorem startUp_pll (h : b.ledgerPll = false) : c.startUp b powerOn source = (c.bootStart b powerOn source).halt 1 := by
  simp [Chip.startUp, h]

theorem startUp_rom (h : b.ledgerPll = true) (hrom : b.rom = false) :
    c.startUp b powerOn source = (c.bootStart b powerOn source).halt 2 := by
  simp [Chip.startUp, h, hrom]

variable (h : b.ledgerPll = true) (hrom : b.rom = true)
include h hrom

theorem startUp_fails {k : Nat} {c' : Chip} (hbuf : ((c.bootStart b powerOn source).configured b powerOn).bootBuffer b = (some k, c')) :
    c.startUp b powerOn source = c'.halt k := by
  simp only [Chip.startUp, h, hrom, Bool.not_true, Bool.false_eq_true, if_false]
  rw [Chip.configured] at hbuf
  rw [hbuf]

theorem startUp_waits {c' : Chip} (hhost : b.srcHost = true)
    (hbuf : ((c.bootStart b powerOn source).configured b powerOn).bootBuffer b = (none, c')) :
    c.startUp b powerOn source = (if powerOn then c'.scrubInit mib (2048 * mib - mib) else c').setStage 4 := by
  simp only [Chip.startUp, h, hrom, Bool.not_true, Bool.false_eq_true, if_false]
  rw [Chip.configured] at hbuf
  rw [hbuf]
  simp [hhost]

end

section
variable (c : Chip) {b : BootIn}

theorem bootBuffer_config (h : b.bufCfg.toNat % 4 = 3) : c.bootBuffer b = (some 3, (c.untrained b).mark BUF_EVENT_CONFIG_BAD) := by
  simp only [Chip.bootBuffer, cfgSize, h]; rfl

/-- The size that a configuration row gives. -/
theorem cfgSize_of_row {cfg : BitVec 32} (h : cfg.toNat % 4 ≠ 3) : cfgSize cfg = some (if cfg.toNat % 4 = 0 then 128 else 256) := by
  have hrows : cfg.toNat % 4 = 0 ∨ cfg.toNat % 4 = 1 ∨ cfg.toNat % 4 = 2 := by omega
  rcases hrows with h | h | h <;> simp [cfgSize, h]

variable (hcfg : b.bufCfg.toNat % 4 ≠ 3)
include hcfg

theorem bootBuffer_training (h : b.bufGood = false) : c.bootBuffer b = (some 3, c.untrained b) := by
  simp only [Chip.bootBuffer, cfgSize_of_row hcfg, h]; rfl

variable (hgood : b.bufGood = true)
include hgood

theorem bootBuffer_test (h : b.bufTest = false) :
    c.bootBuffer b = (some 4, (c.bufTrained b (if b.bufCfg.toNat % 4 = 0 then 128 else 256)).mark BUF_EVENT_SELFTEST_FAIL) := by
  simp only [Chip.bootBuffer, cfgSize_of_row hcfg, hgood, h]; rfl

theorem bootBuffer_array (htest : b.bufTest = true) (h : b.arrayTest = false) :
    c.bootBuffer b = (some 4, (c.bufTrained b (if b.bufCfg.toNat % 4 = 0 then 128 else 256)).setFld BUF_STATUS_SELFTEST_PASS 1) := by
  simp only [Chip.bootBuffer, cfgSize_of_row hcfg, hgood, htest, h]; rfl

theorem bootBuffer_passed (htest : b.bufTest = true) (h : b.arrayTest = true) :
    c.bootBuffer b = (none, (c.bufTrained b (if b.bufCfg.toNat % 4 = 0 then 128 else 256)).setFld BUF_STATUS_SELFTEST_PASS 1) := by
  simp only [Chip.bootBuffer, cfgSize_of_row hcfg, hgood, htest, h]; rfl

end

/-- Flash, keys and fuses are those of `old`. -/
def FlashOf (old c : Chip) : Prop := c.boot.flash = old.boot.flash ∧ c.boot.keyHash = old.boot.keyHash ∧ ∀ f ∈ fuseFields, c.fld f = old.fld f

/-- The part has halted with cause `k`. -/
def HaltedWith (old c : Chip) (k : Nat) : Prop := c.fld BOOT_STATUS_STAGE = 7 ∧ c.fld BOOT_STATUS_HALT_CAUSE = k ∧ FlashOf old c

theorem fuseFields_fit {f : Fld} (h : f ∈ fuseFields) : f.lo + f.w ≤ 64 :=
  (by decide : ∀ f ∈ fuseFields, f.lo + f.w ≤ 64) f h

theorem quiet_of_fuse {f : Fld} (h : f ∈ fuseFields) : quietFld f :=
  (by decide : ∀ f ∈ fuseFields, quietFld f) f h

theorem Steady.flashOf {K : Fld → Prop} {p : Prop} {old c c' : Chip} (h : Steady K p c c') (hK : ∀ f, quietFld f → K f) (hflash : FlashOf old c) :
    FlashOf old c' := by
  obtain ⟨hbytes, hkey, hfuses⟩ := hflash
  exact ⟨by rw [h.boot, hbytes], by rw [h.boot, hkey], fun f hf => (h.fld f (hK f (quiet_of_fuse hf)) (fuseFields_fit hf)).trans (hfuses f hf)⟩

theorem haltedWith_halt {old c : Chip} {k : Nat} (hk : k < 16) (hflash : FlashOf old c) : HaltedWith old (c.halt k) k := by
  refine ⟨?_, ?_, ((Steady.refl (p := False) c).halt k).flashOf (fun _ => .inl) hflash⟩
  · rw [Chip.halt, fld_setFld_apart _ _ _ _ (by decide) (by decide), Chip.setStage, fld_setFld_same _ _ _ (by decide)]
    rfl
  · rw [Chip.halt, fld_setFld_same _ _ _ (by decide)]
    exact Nat.mod_eq_of_lt hk

/-- Halting and the stage change no field of another register. -/
theorem fld_halt_apart (c : Chip) (k : Nat) {f : Fld} (hf : f.lo + f.w ≤ 64) (h : f.reg ≠ BOOT_STATUS) : (c.halt k).fld f = c.fld f := by
  rw [Chip.halt, fld_setFld_apart _ _ _ _ hf (.inl h), Chip.setStage, fld_setFld_apart _ _ _ _ hf (.inl h)]

/-- What the start-up shows, by the results of its tests. -/
def StartsAs (b : BootIn) (old c : Chip) : Prop :=
  (b.ledgerPll = false → HaltedWith old c 1) ∧
  (b.ledgerPll = true → b.rom = false → HaltedWith old c 2) ∧
  (b.ledgerPll = true → b.rom = true →
    (b.bufCfg.toNat % 4 = 3 → HaltedWith old c 3 ∧ c.flag BUF_EVENT_CONFIG_BAD = true) ∧
    (b.bufCfg.toNat % 4 ≠ 3 → b.bufGood = false → HaltedWith old c 3) ∧
    (b.bufCfg.toNat % 4 ≠ 3 → b.bufGood = true →
      (b.bufTest = false → HaltedWith old c 4 ∧ c.flag BUF_EVENT_SELFTEST_FAIL = true) ∧
      (b.bufTest = true → b.arrayTest = false → HaltedWith old c 4) ∧
      (b.bufTest = true → b.arrayTest = true → b.srcHost = true →
        c.fld BOOT_STATUS_STAGE = 4 ∧ c.flag BOOT_STATUS_SRC_HOST = true ∧ c.flag BUF_STATUS_TRAINED = true ∧
        c.flag BUF_STATUS_SELFTEST_PASS = true ∧ c.fld BUF_STATUS_SIZE_GIB = (if b.bufCfg.toNat % 4 = 0 then 128 else 256) ∧ FlashOf old c)))

section
variable {p : Prop} (c : Chip) (b : BootIn) (powerOn : Bool) (source : Nat)

/-- The chip whose buffer is trained next. -/
def Chip.toTrain : Chip := (c.bootStart b powerOn source).configured b powerOn

theorem steady_toTrain : Steady toldFld p (c.sourcesTold b source) (c.toTrain b powerOn source) :=
  (steady_bootStart c b powerOn source).configured b powerOn

end

section
variable {p : Prop} {c₀ c : Chip}

theorem Steady.passed (h : Steady toldFld p c₀ c) (b : BootIn) (n : Nat) :
    Steady toldFld p c₀ ((c.bufTrained b n).setFld BUF_STATUS_SELFTEST_PASS 1) :=
  (h.bufTrained b n).told 1 (by decide) (by decide) (by decide)

theorem Steady.scrubInit {K : Fld → Prop} {pw : Bool} (h : Steady K (pw = false) c₀ c) (start len : Nat) :
    Steady K (pw = false) c₀ (if pw then c.scrubInit start len else c) := by
  cases pw with
  | false => exact h
  | true => exact h.regs rfl rfl rfl rfl rfl rfl rfl nofun

end

theorem fld_passed_trained (c : Chip) (b : BootIn) (n : Nat) :
    ((c.bufTrained b n).setFld BUF_STATUS_SELFTEST_PASS 1).fld BUF_STATUS_TRAINED = 1 := by
  simp only [Chip.bufTrained]
  rw [fld_setFld_apart _ _ _ _ (by decide) (by decide), fld_setFld_apart _ _ _ _ (by decide) (by decide),
    fld_setFld_apart _ _ _ _ (by decide) (by decide), fld_setFld_same _ _ _ (by decide)]
  rfl

theorem fld_passed_size (c : Chip) (b : BootIn) {n : Nat} (hn : n < 2 ^ BUF_STATUS_SIZE_GIB.w) :
    ((c.bufTrained b n).setFld BUF_STATUS_SELFTEST_PASS 1).fld BUF_STATUS_SIZE_GIB = n := by
  simp only [Chip.bufTrained]
  rw [fld_setFld_apart _ _ _ _ (by decide) (by decide), fld_setFld_apart _ _ _ _ (by decide) (by decide), fld_setFld_same _ _ _ (by decide)]
  exact Nat.mod_eq_of_lt hn

/-- A start-up from the host's images keeps what is told and, unless power was off, the buffer. -/
theorem steady_startUp (c : Chip) {b : BootIn} (powerOn : Bool) (source : Nat) (hhost : b.srcHost = true) :
    Steady toldFld (powerOn = false) (c.sourcesTold b source) (c.startUp b powerOn source) := by
  have hstart := steady_bootStart (p := powerOn = false) c b powerOn source
  have htrain := steady_toTrain (p := powerOn = false) c b powerOn source
  cases hpll : b.ledgerPll with
  | false => rw [startUp_pll c powerOn source hpll]; exact hstart.halt 1
  | true =>
  cases hrom : b.rom with
  | false => rw [startUp_rom c powerOn source hpll hrom]; exact hstart.halt 2
  | true =>
  have hfails {k : Nat} {c' : Chip} (hbuf : (c.toTrain b powerOn source).bootBuffer b = (some k, c')) := startUp_fails c powerOn source hpll hrom hbuf
  by_cases hcfg : b.bufCfg.toNat % 4 = 3
  · rw [hfails (bootBuffer_config _ hcfg)]
    exact ((htrain.untrained b).told (g := BUF_EVENT_CONFIG_BAD) 1 (by decide) (by decide) (by decide)).halt 3
  cases hgood : b.bufGood with
  | false => rw [hfails (bootBuffer_training _ hcfg hgood)]; exact (htrain.untrained b).halt 3
  | true =>
  cases htest : b.bufTest with
  | false =>
    rw [hfails (bootBuffer_test _ hcfg hgood htest)]
    exact ((htrain.bufTrained b _).told (g := BUF_EVENT_SELFTEST_FAIL) 1 (by decide) (by decide) (by decide)).halt 4
  | true =>
  cases harray : b.arrayTest with
  | false => rw [hfails (bootBuffer_array _ hcfg hgood htest harray)]; exact (htrain.passed b _).halt 4
  | true =>
    rw [startUp_waits c powerOn source hpll hrom hhost (bootBuffer_passed _ hcfg hgood htest harray)]
    exact ((htrain.passed b _).scrubInit mib (2048 * mib - mib)).setStage 4

/-- The start-up of a part that holds the flash and the fuses of `old`. -/
theorem startsAs_startUp {old c : Chip} (hflash : FlashOf old c) (b : BootIn) (powerOn : Bool) (source : Nat) :
    StartsAs b old (c.startUp b powerOn source) := by
  have htold : FlashOf old (c.sourcesTold b source) := (steady_sourcesTold (p := False) c b source).flashOf (fun _ h => h) hflash
  have hstart : FlashOf old (c.bootStart b powerOn source) := (steady_bootStart (p := False) c b powerOn source).flashOf (fun _ => .inl) htold
  have htrain := steady_toTrain (p := False) c b powerOn source
  have hkept {c' : Chip} (h : Steady toldFld False (c.sourcesTold b source) c') : FlashOf old c' := h.flashOf (fun _ => .inl) htold
  refine ⟨fun hpll => ?_, fun hpll hrom => ?_, fun hpll hrom => ⟨fun hcfg => ?_, fun hcfg hgood => ?_, fun hcfg hgood =>
    ⟨fun htest => ?_, fun htest harray => ?_, fun htest harray hhost => ?_⟩⟩⟩
  · rw [startUp_pll c powerOn source hpll]
    exact haltedWith_halt (by decide) hstart
  · rw [startUp_rom c powerOn source hpll hrom]
    exact haltedWith_halt (by decide) hstart
  · rw [startUp_fails c powerOn source hpll hrom (bootBuffer_config _ hcfg)]
    refine ⟨haltedWith_halt (by decide) (hkept ((htrain.untrained b).told (g := BUF_EVENT_CONFIG_BAD) 1 (by decide) (by decide) (by decide))), ?_⟩
    rw [Chip.flag, fld_halt_apart _ _ (by decide) (by decide), Chip.mark, fld_setFld_same _ _ _ (by decide)]
    rfl
  · rw [startUp_fails c powerOn source hpll hrom (bootBuffer_training _ hcfg hgood)]
    exact haltedWith_halt (by decide) (hkept (htrain.untrained b))
  · rw [startUp_fails c powerOn source hpll hrom (bootBuffer_test _ hcfg hgood htest)]
    refine ⟨haltedWith_halt (by decide) (hkept ((htrain.bufTrained b _).told (g := BUF_EVENT_SELFTEST_FAIL) 1 (by decide) (by decide) (by decide))), ?_⟩
    rw [Chip.flag, fld_halt_apart _ _ (by decide) (by decide), Chip.mark, fld_setFld_same _ _ _ (by decide)]
    rfl
  · rw [startUp_fails c powerOn source hpll hrom (bootBuffer_array _ hcfg hgood htest harray)]
    exact haltedWith_halt (by decide) (hkept (htrain.passed b _))
  · have hend := steady_startUp c (b := b) powerOn source hhost
    have hregs (c' : Chip) : (if powerOn then c'.scrubInit mib (2048 * mib - mib) else c').regs = c'.regs := by cases powerOn <;> rfl
    have hsize : (if b.bufCfg.toNat % 4 = 0 then 128 else 256) < 2 ^ BUF_STATUS_SIZE_GIB.w := by split <;> decide
    refine ⟨?_, ?_, ?_, ?_, ?_, hend.flashOf (fun _ => .inl) htold⟩
    · rw [startUp_waits c powerOn source hpll hrom hhost (bootBuffer_passed _ hcfg hgood htest harray), Chip.setStage,
        fld_setFld_same _ _ _ (by decide)]
      rfl
    · rw [Chip.flag, hend.fld _ (.inr (.inl rfl)) (by decide), Chip.sourcesTold, fld_setFld_apart _ _ _ _ (by decide) (by decide), Chip.setFlag,
        fld_setFld_same _ _ _ (by decide), hhost]
      rfl
    all_goals
      rw [startUp_waits c powerOn source hpll hrom hhost (bootBuffer_passed _ hcfg hgood htest harray), Chip.setStage]
    · rw [Chip.flag, fld_setFld_apart _ _ _ _ (by decide) (by decide), fld_of_regs (hregs _), fld_passed_trained]
      rfl
    · rw [Chip.flag, fld_setFld_apart _ _ _ _ (by decide) (by decide), fld_of_regs (hregs _), fld_setFld_same _ _ _ (by decide)]
      rfl
    · rw [fld_setFld_apart _ _ _ _ (by decide) (by decide), fld_of_regs (hregs _), fld_passed_size _ _ hsize]

/-! ### POR_N -/

/-- Fault latches of the drives. -/
def faultFields : List Fld := (List.range 8).map SPN_STATUS_DRIVER_FAULT ++ (List.range 16).map MOT_AX_STATUS_DRIVER_FAULT

/-- Fields that POR_N does not leave at their reset values. -/
def coldFields : List Fld := inputFields ++ fuseFields ++
  (List.range 8).flatMap (fun x => [SPN_STATUS_DRIVER_FAULT x, WMM_STN_STATE_UNCLAMP_ALLOWED x]) ++
  (List.range 16).map (fun p => MOT_AX_STATUS_DRIVER_FAULT p)

theorem regsOnly_copyFields (c old : Chip) (fs : List Fld) : c.regsOnly (c.copyFields old fs) :=
  regsOnly_foldl _ _ (regsOnly_refl c) fun _ _ h => regsOnly_setFld _ _ h

/-- Writes of fields, of whatever values, leave the fields that share no bit with them. -/
theorem fld_foldl_setFld_apart {α : Type} (g : α → Fld) (v : Chip → α → Nat) (c : Chip) {l : List α} {f : Fld} (hf : f.lo + f.w ≤ 64)
    (h : ∀ x ∈ l, apart f (g x)) : (l.foldl (fun c x => c.setFld (g x) (v c x)) c).fld f = c.fld f :=
  List.foldlRecOn l _ (motive := fun c' : Chip => c'.fld f = c.fld f) rfl
    fun b hb x hx => (fld_setFld_apart b f (g x) _ hf (h x hx)).trans hb

/-- Beside registers the fault latches are part of the servo state alone. -/
theorem keepFaults_servo (c old : Chip) : ∃ r v, c.keepFaults old = { c with regs := r, servo := v } := by
  refine ⟨(c.keepFaults old).regs, (c.keepFaults old).servo, ?_⟩
  have hstep {a b : Chip} (g : Fld) (v : Bool) (h : b = { a with regs := b.regs, servo := b.servo }) :
      b.setFlag g v = { a with regs := (b.setFlag g v).regs, servo := (b.setFlag g v).servo } := congrArg (Chip.setFlag · g v) h
  unfold Chip.keepFaults
  dsimp only
  refine List.foldlRecOn (motive := fun b : Chip => b = { c with regs := b.regs, servo := b.servo }) _ _
    (List.foldlRecOn (motive := fun b : Chip => b = { c with regs := b.regs, servo := b.servo }) _ _ rfl ?_) ?_
  · exact fun b hb x _ => hstep _ _ hb
  · exact fun b hb x _ => hstep _ _ hb

theorem fld_keepFaults (c old : Chip) {f : Fld} (hf : f.lo + f.w ≤ 64) (h : ∀ g ∈ faultFields, apart f g) : (c.keepFaults old).fld f = c.fld f := by
  unfold Chip.keepFaults
  have hspn : ∀ s ∈ List.range 8, apart f (SPN_STATUS_DRIVER_FAULT s) := fun s hs =>
    h _ (List.mem_append_left _ (List.mem_map_of_mem hs))
  have hsled : ∀ p ∈ List.range 16, apart f (MOT_AX_STATUS_DRIVER_FAULT p) := fun p hp =>
    h _ (List.mem_append_right _ (List.mem_map_of_mem hp))
  exact (fld_foldl_setFld_apart MOT_AX_STATUS_DRIVER_FAULT (fun c p => (c.sled p).fltInput.toNat) _ hf hsled).trans
    (fld_foldl_setFld_apart SPN_STATUS_DRIVER_FAULT (fun c s => (c.spn s).fltInput.toNat) _ hf hspn)

/-- What POR_N leaves of the chip before the registers are written. -/
def Chip.coldBase (old : Chip) : Chip :=
  { free := old.free, host := { posts := old.host.posts },
    sup := { boot := { flash := old.boot.flash, keyHash := old.boot.keyHash, powered := false } } }

/-- The fields that POR_N copies. -/
def coldCopies : List Fld := inputFields ++ [BOOT_FUSE_OWNER_KEY_SET, BOOT_FUSE_OWNER_ONLY] ++ (List.range 5).map (fun k => BOOT_SVN_MIN_SVN k)

theorem cold_eq (old : Chip) : old.cold =
    (List.range 8).foldl (fun c s => c.setFld (WMM_STN_STATE_UNCLAMP_ALLOWED s) 1) ((old.coldBase.copyFields old coldCopies).keepFaults old) := rfl

theorem cold_servo (old : Chip) : ∃ r v, old.cold = { old.coldBase with regs := r, servo := v } := by
  obtain ⟨r, v, hkeep⟩ := keepFaults_servo (old.coldBase.copyFields old coldCopies) old
  have hcopy := regsOnly_copyFields old.coldBase old coldCopies
  have hfold : ((old.coldBase.copyFields old coldCopies).keepFaults old).regsOnly old.cold :=
    regsOnly_foldl _ _ (regsOnly_refl _) fun _ _ h => regsOnly_setFld _ _ h
  refine ⟨old.cold.regs, v, ?_⟩
  rw [Chip.regsOnly, hkeep] at hfold
  rw [hfold, hcopy]

theorem coldFields_of_copied {g : Fld} (h : g ∈ coldCopies) : g ∈ coldFields := by
  simp only [coldCopies, coldFields, fuseFields, List.mem_append] at h ⊢
  tauto

theorem coldFields_of_fault {g : Fld} (h : g ∈ faultFields) : g ∈ coldFields := by
  simp only [faultFields, coldFields, List.mem_append, List.mem_flatMap, List.mem_map] at h ⊢
  rcases h with ⟨s, hs, rfl⟩ | ⟨p, hp, rfl⟩
  · exact .inl (.inr ⟨s, hs, by simp⟩)
  · exact .inr ⟨p, hp, rfl⟩

theorem coldFields_of_clamp {s : Nat} (h : s ∈ List.range 8) : WMM_STN_STATE_UNCLAMP_ALLOWED s ∈ coldFields := by
  simp only [coldFields, List.mem_append, List.mem_flatMap]
  exact .inl (.inr ⟨s, h, by simp⟩)

/-- Every other field has its reset value. -/
theorem fld_cold_reset (old : Chip) {f : Fld} (hf : f.lo + f.w ≤ 64) (h : ∀ g ∈ coldFields, apart f g) : old.cold.fld f = ({} : Chip).fld f := by
  rw [cold_eq, fld_foldl_setFld_apart WMM_STN_STATE_UNCLAMP_ALLOWED (fun _ _ => 1) _ hf fun s hs => h _ (coldFields_of_clamp hs),
    fld_keepFaults _ _ hf fun g hg => h g (coldFields_of_fault hg), fld_copyFields_other _ _ hf fun g hg => h g (coldFields_of_copied hg)]
  rfl

theorem coldCopies_fit : ∀ f ∈ coldCopies, f.lo + f.w ≤ 64 := by decide +kernel

theorem coldCopies_apart : coldCopies.Pairwise fun f g => apart f g := by decide +kernel

theorem coldCopies_faults : ∀ f ∈ coldCopies, ∀ g ∈ faultFields, apart f g := by decide +kernel

theorem coldCopies_clamp : ∀ f ∈ coldCopies, ∀ s ∈ List.range 8, apart f (WMM_STN_STATE_UNCLAMP_ALLOWED s) := by decide +kernel

/-- Inputs and fuses are kept. -/
theorem fld_cold_kept (old : Chip) {f : Fld} (h : f ∈ coldCopies) : old.cold.fld f = old.fld f := by
  have hf := coldCopies_fit f h
  rw [cold_eq, fld_foldl_setFld_apart WMM_STN_STATE_UNCLAMP_ALLOWED (fun _ _ => 1) _ hf (coldCopies_clamp f h),
    fld_keepFaults _ _ hf (coldCopies_faults f h), fld_copyFields _ _ coldCopies_fit coldCopies_apart h]

theorem flashOf_cold (old : Chip) : FlashOf old old.cold := by
  obtain ⟨r, v, hcold⟩ := cold_servo old
  refine ⟨by rw [hcold]; rfl, by rw [hcold]; rfl, fun f hf => fld_cold_kept old ?_⟩
  rw [coldCopies, List.append_assoc]
  exact List.mem_append_right _ hf

end Sys2Proof.Machine
end

section
/-! Proofs about the warm restart: O57. -/

namespace Sys2Proof.Machine

/-! ### The register file of a warm restart -/

section
variable {α β : Type} {d : Nat → α} {f : Cells β → Nat × α → Cells β} {e : Nat → β} {o : Nat}

theorem get_foldl_untouched {m : Cells α} (hf : ∀ n, ∀ x ∈ m, Cells.get e (f n x) o = Cells.get e n o) (n : Cells β) :
    Cells.get e (m.foldl f n) o = Cells.get e n o :=
  List.foldlRecOn m f (motive := fun n' => Cells.get e n' o = Cells.get e n o) rfl fun b hb x hx => (hf b x hx).trans hb

variable [DecidableEq α]

/-- A pass over a table in canonical form, each pair of which goes to its own key. -/
theorem get_foldl_keys {v : α → β} (hother : ∀ n x, x.1 ≠ o → Cells.get e (f n x) o = Cells.get e n o)
    (hsame : ∀ n w, Cells.get e (f n (o, w)) o = v w) {m : Cells α} (hwf : Cells.wf d m = true) (n : Cells β) :
    Cells.get e (m.foldl f n) o = if Cells.get d m o = d o then Cells.get e n o else v (Cells.get d m o) := by
  induction m generalizing n with
  | nil => simp [Cells.get]
  | cons c t ih =>
    obtain ⟨j, w⟩ := c
    obtain ⟨hw, habove, htail⟩ := (Cells.wf_cons_iff d j w t).1 hwf
    have hrise := Cells.above_of_headAbove d t j htail habove
    rw [List.foldl_cons, ih htail]
    rcases Nat.lt_trichotomy j o with hlt | rfl | hgt
    · have hget : Cells.get d ((j, w) :: t) o = Cells.get d t o := by simp [Cells.get, hlt.ne, Nat.not_lt.2 hlt.le]
      rw [hget, hother _ _ hlt.ne]
    · have hget : Cells.get d ((j, w) :: t) j = w := by simp [Cells.get]
      rw [hget, if_neg hw, Cells.get_below d t j hrise, if_pos rfl, hsame]
    · have hget : Cells.get d ((j, w) :: t) o = d o := by simp [Cells.get, hgt.ne', hgt]
      rw [hget, if_pos rfl, Cells.get_below d t o fun c hc => hgt.trans (hrise c hc), if_pos rfl, hother _ _ hgt.ne']

end

section
variable {m : Cells Word} {keep : ResetClass → Bool} {o : Nat}

/-- A register that no field map gives is at its reset value. -/
theorem get_keptRegs_none (h : regAt o = none) : Cells.get regReset (keptRegs keep (fun _ => true) m) o = regReset o := by
  refine (get_foldl_untouched (fun n x _ => ?_) []).trans rfl
  split
  next r hr => exact Cells.get_put_other _ _ _ _ _ fun heq => by rw [heq, hr] at h; cases h
  next => rfl

theorem get_keptRegs (hwf : Cells.wf regReset m = true) {r : RegDef} (h : regAt o = some r) :
    Cells.get regReset (keptRegs keep (fun _ => true) m) o =
      if Cells.get regReset m o = regReset o then regReset o else keptValue keep r (Cells.get regReset m o) := by
  refine (get_foldl_keys (d := regReset) (v := keptValue keep r) (fun n x hx => ?_) (fun n w => ?_) hwf []).trans rfl
  · split
    · exact Cells.get_put_other _ _ _ _ _ hx.symm
    · rfl
  · simp [h]

end

/-- A register without a field that is kept has its reset value. -/
theorem keptValue_reset {keep : ResetClass → Bool} {r : RegDef} (h : ∀ f ∈ r.fields, keep f.cls = false) (w : Word) :
    keptValue keep r w = resetValue r :=
  List.foldlRecOn r.fields _ (motive := (· = resetValue r)) rfl fun v hv f hf => by rw [if_neg (by simp [h f hf]), hv]

/-- Of a register's fields, each that is kept reads what it read. -/
theorem fieldOf_keptFold (keep : ResetClass → Bool) {fs : List FieldDef} (hfit : ∀ f ∈ fs, f.lo + f.w ≤ 64)
    (hapart : fs.Pairwise fun f h => f.lo + f.w ≤ h.lo ∨ h.lo + h.w ≤ f.lo) {f : FieldDef} (hf : f ∈ fs) (hkeep : keep f.cls = true) (w v : Word) :
    fieldOf (fs.foldl (fun v f => if keep f.cls then withField v f.lo f.w (fieldOf w f.lo f.w) else v) v) f.lo f.w = fieldOf w f.lo f.w := by
  induction fs generalizing v with
  | nil => simp at hf
  | cons h fs ih =>
    obtain ⟨hh, hrest⟩ := List.pairwise_cons.1 hapart
    obtain ⟨hfith, hfit⟩ := List.forall_mem_cons.1 hfit
    rcases List.mem_cons.1 hf with rfl | hf
    · rw [List.foldl_cons, if_pos hkeep]
      refine List.foldlRecOn fs _ (motive := fun y => fieldOf y f.lo f.w = fieldOf w f.lo f.w) ?_ fun y hy g hg => ?_
      · rw [fieldOf_withField_same _ _ _ _ hfith]
        exact Nat.mod_eq_of_lt (Nat.mod_lt _ (Nat.two_pow_pos _))
      · split
        · rw [fieldOf_withField_apart _ _ _ _ _ _ hfith (hh g hg), hy]
        · exact hy
    · exact ih hfit hrest hf _

/-- `f` is a field of the field maps that a warm reset keeps. -/
def keptField (f : Fld) : Bool := (regAt f.reg).any fun r => r.fields.any fun d => d.lo == f.lo && d.w == f.w && d.cls == .p

theorem fieldOf_keptRegs {m : Cells Word} (hwf : Cells.wf regReset m = true) {f : Fld} (h : keptField f = true) :
    fieldOf (Cells.get regReset (keptRegs (· == .p) (fun _ => true) m) f.reg) f.lo f.w = fieldOf (Cells.get regReset m f.reg) f.lo f.w := by
  obtain ⟨r, hr, hfields⟩ := Option.any_eq_true _ _ |>.1 h
  obtain ⟨d, hd, hmatch⟩ := List.any_eq_true.1 hfields
  simp only [Bool.and_eq_true, beq_iff_eq] at hmatch
  obtain ⟨⟨hlo, hw⟩, hcls⟩ := hmatch
  obtain ⟨hrise, hpairs⟩ := of_fieldsRise (List.all_eq_true.1 (mapsRise_blockRegs _) r (List.mem_of_find?_eq_some hr))
  have hfit : ∀ g ∈ r.fields, g.lo + g.w ≤ 64 := fun g hg => by
    have := (hrise g hg).2.2.1
    split at this <;> omega
  rw [get_keptRegs hwf hr]
  split
  next heq => rw [heq]
  next => rw [← hlo, ← hw]; exact fieldOf_keptFold (· == .p) hfit hpairs hd (by simp [hcls]) _ _

theorem keptField_fuses : ∀ f ∈ GEN_SCRATCH_VALUE :: fuseFields, keptField f = true := by decide +kernel

theorem cache_not_kept : ∀ r ∈ regsCCH, ∀ f ∈ r.fields, (f.cls == .p) = false := by decide

/-- No register of the block cache has a field that a warm reset keeps. -/
theorem get_keptRegs_cache {m : Cells Word} (hwf : Cells.wf regReset m = true) {o : Nat} (hlo : 0x30000 ≤ o) (hhi : o < 0x40000) :
    Cells.get regReset (keptRegs (· == .p) (fun _ => true) m) o = regReset o := by
  cases hr : regAt o with
  | none => exact get_keptRegs_none hr
  | some r =>
    rw [get_keptRegs hwf hr]
    split
    · rfl
    · have hblock : blockRegs (o % portKey) = regsCCH := by
        rw [Nat.mod_eq_of_lt (by simp only [portKey]; omega), blockRegs, if_neg (by omega), if_neg (by omega), if_neg (by omega), if_pos hhi]
      have hmem : r ∈ regsCCH := hblock ▸ List.mem_of_find?_eq_some hr
      rw [keptValue_reset (cache_not_kept r hmem), regReset, hr]

/-! ### A warm restart (R619, Table 15.9) -/

theorem writeBackAll_clean {c : Chip} (h : ∀ l ∈ c.allLines, l.dirty = false) : c.writeBackAll = c := by
  unfold Chip.writeBackAll
  have hnone : ((c.buf.evicts ++ (c.buf.sets.flatMap (fun s => s.2.ways.filterMap (fun w => w.2)) ++ c.buf.victims ++ c.buf.allocWaits)).filter
      (·.dirty)) = [] := by
    refine List.filter_eq_nil_iff.2 fun l hl => ?_
    rw [h l ?_]
    · simp
    · simp only [Chip.allLines, List.mem_append] at hl ⊢
      tauto
  dsimp only
  rw [hnone, List.foldl_nil]

/-- Without a cut every staged entry stays, in its order. -/
theorem cutStaged_none {c : Chip} (h : c.buf.cutSeq = none) : ∃ b : BufSt, c.cutStaged = { c with buf := b } ∧ b.mem = c.buf.mem ∧
    b.sets = c.buf.sets ∧ b.staged.map (fun e => e.seq) = c.buf.staged.map (fun e => e.seq) := by
  unfold Chip.cutStaged
  simp only [h, Option.bind_none, Option.getD_none, List.drop_length, List.map_nil, List.eraseDups_nil, List.foldl_nil, List.take_length]
  refine ⟨_, rfl, rfl, rfl, ?_⟩
  rw [List.map_map]
  refine List.map_congr_left fun e _ => ?_
  simp only [Function.comp]
  split
  · rfl
  · split <;> rfl

section
variable {p : Prop} {c₀ c : Chip}

/-- A field of a station's registers is no quiet one. -/
theorem Steady.station (h : Steady quietFld p c₀ c) {s : Nat} (hs : s < 8) (v : Nat) {f : Fld}
    (hf : 0x60f000 + 0x80 * s ≤ f.reg ∧ f.reg < 0x60f080 + 0x80 * s) : Steady quietFld p c₀ (c.setFld f v) :=
  h.setFld v (quiet_apart (by simp only [quietReg, GEN_SCRATCH, BOOT_FUSE, BOOT_SVN]; omega))

theorem journal_arch (c : Chip) (a u) : (c.journal a u).arch = c.arch := by
  unfold Chip.journal; simp only; split <;> simp

theorem Steady.journal {K : Fld → Prop} (h : Steady K p c₀ c) (action unit : Nat) : Steady K p c₀ (c.journal action unit) :=
  h.regs (journal_regs ..) (journal_sup_boot ..) (journal_core ..) (journal_arch ..) (congrArg HostSt.cmds (journal_cmds ..))
    (congrArg HostSt.posts (journal_cmds ..)) (congrArg HostSt.stationEvents (journal_cmds ..)) fun _ => journal_buf ..

theorem Steady.log {K : Fld → Prop} (h : Steady K p c₀ c) (code : Nat) (die : Die) (detail : List Nat) : Steady K p c₀ (c.log code die detail) :=
  { h with weir := fun n hn => (weir_log_other c code die detail hn).trans (h.weir n hn) }

theorem Steady.setStn {K : Fld → Prop} (h : Steady K p c₀ c) (s : Nat) (x : StationRec) : Steady K p c₀ (c.setStn s x) :=
  h.regs rfl rfl rfl rfl rfl rfl rfl fun _ => rfl

theorem Steady.lpTimes {K : Fld → Prop} (h : Steady K p c₀ c) (m : Cells Word) :
    Steady K p c₀ { c with servo := { c.servo with lpTimes := m } } :=
  h.regs rfl rfl rfl rfl rfl rfl rfl fun _ => rfl

/-- With no host that asked to hear of it, a change of state is a matter of the station's registers, the journal and the device log. -/
theorem Steady.changeState (h : Steady quietFld p c₀ c) (hevents : ∀ x, c.host.stationEvents.getD x false = false) {s : Nat} (hs : s < 8) (new cause : Nat) :
    Steady quietFld p c₀ (c.changeState s new cause) := by
  unfold Chip.changeState
  dsimp only [Chip.mark, Chip.setFlag]
  refine Steady.foldl (Steady.log (Steady.journal (Steady.lpTimes (Steady.station (Steady.station (Steady.station (Steady.station (Steady.station
    (Steady.station (h.setStn s _) hs _ ?prev) hs _ ?state) hs _ ?cause) hs _ ?clamp) hs _ ?time) hs _ ?event) _) _ _) _ _ _) fun x hx c' hc' => ?_
  case prev => simp only [WMM_STN_STATE_PREV, WMM_STN_STATE]; omega
  case state => simp only [WMM_STN_STATE_STATE, WMM_STN_STATE]; omega
  case cause => simp only [WMM_STN_STATE_CAUSE, WMM_STN_STATE]; omega
  case clamp => simp only [WMM_STN_STATE_UNCLAMP_ALLOWED, WMM_STN_STATE]; omega
  case time => simp only [WMM_STN_TIME_TIME, WMM_STN_TIME]; omega
  case event => simp only [WMM_STN_EVENT_STATE_CHANGE, WMM_STN_EVENT]; omega
  have hsame : c'.host.stationEvents = c.host.stationEvents := hc'.events.trans h.events.symm
  rw [hsame, if_neg (by rw [hevents]; decide)]
  exact hc'

theorem Steady.clampRules (h : Steady quietFld p c₀ c) (hevents : ∀ x, c.host.stationEvents.getD x false = false) {s : Nat} (hs : s < 8) :
    Steady quietFld p c₀ (c.clampRules s) := by
  have hclamped (v : Bool) : Steady quietFld p c₀ (c.setClamped s v) :=
    h.station hs v.toNat (by simp only [WMM_STN_STATE_CLAMPED, WMM_STN_STATE]; omega)
  unfold Chip.clampRules
  dsimp only
  split
  · split
    · exact (hclamped true).setStn s _
    · exact h
  · split
    · exact (hclamped false).changeState hevents hs _ _
    · exact h

theorem Steady.warmStation (h : Steady quietFld p c₀ c) (hevents : ∀ x, c.host.stationEvents.getD x false = false) {s : Nat} (hs : s < 8) :
    Steady quietFld p c₀ (c.warmStation s) := by
  have hend (c' : Chip) (hc' : Steady quietFld p c₀ c') : Steady quietFld p c₀ (c'.clampRules s) :=
    hc'.clampRules (by rw [hc'.events, ← h.events]; exact hevents) hs
  unfold Chip.warmStation
  have hnew (new : Nat) : Steady quietFld p c₀ (if c.stState s = new then c.setFld (WMM_STN_STATE_UNCLAMP_ALLOWED s) 1 else c.changeState s new 0) := by
    split
    · exact h.station hs 1 (by simp only [WMM_STN_STATE_UNCLAMP_ALLOWED, WMM_STN_STATE]; omega)
    · exact h.changeState hevents hs _ _
  exact hend _ (hnew _)

end

theorem warmFields_quiet : ∀ f ∈ warmFields ++ faultFields, ¬ quietReg f.reg := by decide +kernel

theorem Steady.copyFields {p : Prop} {c₀ c : Chip} (h : Steady quietFld p c₀ c) (old : Chip) {fs : List Fld} (hfs : ∀ f ∈ fs, ¬ quietReg f.reg) :
    Steady quietFld p c₀ (c.copyFields old fs) :=
  h.foldl fun f hf _ hc => hc.setFld _ (quiet_apart (hfs f hf))

theorem Steady.keepFaults {p : Prop} {c₀ c : Chip} (h : Steady quietFld p c₀ c) (old : Chip) : Steady quietFld p c₀ (c.keepFaults old) := by
  obtain ⟨r, v, hkeep⟩ := keepFaults_servo c old
  have hfault (g : Fld) (hg : g ∈ faultFields) : ¬ quietReg g.reg := warmFields_quiet g (List.mem_append_right _ hg)
  exact
    { fld := fun f hf hfit => (fld_keepFaults c old hfit fun g hg => quiet_apart (hfault g hg) f hf).trans (h.fld f hf hfit)
      boot := by rw [hkeep]; exact h.boot
      weir := by rw [hkeep]; exact h.weir
      arch := by rw [hkeep]; exact h.arch
      cmds := by rw [hkeep]; exact h.cmds
      posts := by rw [hkeep]; exact h.posts
      events := by rw [hkeep]; exact h.events
      buf := by rw [hkeep]; exact h.buf }

/-- A table that lists one key at most reads as empty at the others. -/
theorem get_one_key {α : Type} (d : Nat → α) {m : Cells α} {k n : Nat} (h : ∀ x ∈ m, x.1 = k) (hn : n ≠ k) : Cells.get d m n = d n := by
  induction m with
  | nil => rfl
  | cons x t ih =>
    obtain ⟨j, w⟩ := x
    obtain ⟨hj, ht⟩ := List.forall_mem_cons.1 h
    have hne : j ≠ n := fun heq => hn (heq.symm.trans hj)
    simp [Cells.get, hne, ih ht]

/-- What a warm restart of a chip without dirty lines and without a cut keeps. -/
structure Warmed (old c : Chip) : Prop where
  flash : FlashOf old c
  arch : c.now = old.now ∧ c.nowH = old.nowH
  mem : c.buf.mem = old.buf.mem
  staged : c.buf.staged.map (fun e => e.seq) = old.buf.staged.map (fun e => e.seq)
  cmds : c.host.cmds = []
  posts : c.host.posts = old.host.posts
  weirs : ∀ n, n ≠ weirKey 6 0 → c.weir n = {}
  sets : c.buf.sets = []
  scratch : c.reg GEN_SCRATCH = old.reg GEN_SCRATCH
  cache : ∀ o, 0x30000 ≤ o → o < 0x40000 → c.reg o = regReset o

/-- A whole register is a field of 64 bits. -/
theorem reg_of_fld {c c' : Chip} {o : Nat} (h : c'.fld ⟨o, 0, 64⟩ = c.fld ⟨o, 0, 64⟩) : c'.reg o = c.reg o := by
  have hwhole (w : Word) : fieldOf w 0 64 = w.toNat := by simp only [fieldOf, BitVec.ushiftRight_zero]; exact Nat.mod_eq_of_lt w.isLt
  exact BitVec.eq_of_toNat_eq (by rw [← hwhole, ← hwhole]; exact h)

theorem Warmed.steady {old c c' : Chip} (h : Warmed old c) (hc : Steady quietFld True c c') : Warmed old c' where
  flash := hc.flashOf (fun _ h => h) h.flash
  arch := by simp only [Chip.now, Chip.nowH, hc.arch]; exact h.arch
  mem := by rw [hc.buf trivial, h.mem]
  staged := by rw [hc.buf trivial, h.staged]
  cmds := hc.cmds.trans h.cmds
  posts := hc.posts.trans h.posts
  weirs n hn := (hc.weir n hn).trans (h.weirs n hn)
  sets := by rw [hc.buf trivial, h.sets]
  scratch := (reg_of_fld (hc.fld ⟨GEN_SCRATCH, 0, 64⟩ (.inl rfl) (by decide))).trans h.scratch
  cache o hlo hhi := (reg_of_fld (hc.fld ⟨o, 0, 64⟩ (.inr (.inl ⟨hlo, hhi⟩)) (Nat.le_of_ble_eq_true rfl))).trans (h.cache o hlo hhi)

theorem Warmed.withBuf {old c : Chip} (h : Warmed old c) {b : BufSt} (hmem : b.mem = c.buf.mem) (hsets : b.sets = c.buf.sets)
    (hstaged : b.staged.map (fun e => e.seq) = c.buf.staged.map (fun e => e.seq)) : Warmed old { c with buf := b } :=
  { h with mem := hmem.trans h.mem, sets := hsets.trans h.sets, staged := hstaged.trans h.staged }

section
variable {old : Chip} (hclean : ∀ l ∈ old.allLines, l.dirty = false) (hcut : old.buf.cutSeq = none) (hregs : Cells.wf regReset old.regs = true)

theorem no_event_asked (x : Nat) : [false, false].getD x false = false := by
  rcases x with _ | _ | x <;> rfl

/-- The parts of a warm restart, in their order. -/
theorem warm_parts (old : Chip) : ∃ c₀ : Chip, ∃ kept : Chip, kept = old.writeBackAll.emptyCache ∧
    old.warm = (List.range 8).foldl (fun c s => c.warmStation s) (((c₀.copyFields kept warmFields).keepFaults kept).cutStaged) ∧
    c₀.regs = keptRegs (· == .p) (fun _ => true) kept.regs ∧ c₀.arch = { ledgerM := kept.arch.ledgerM, ledgerH := kept.arch.ledgerH } ∧
    c₀.core.weirs = kept.core.weirs.filter (fun w => w.1 == weirKey 6 0) ∧ c₀.host.cmds = [] ∧ c₀.host.posts = kept.host.posts ∧
    (∀ x, c₀.host.stationEvents.getD x false = false) ∧ c₀.buf.mem = kept.buf.mem ∧ c₀.buf.staged = kept.buf.staged ∧ c₀.buf.cutSeq = kept.buf.cutSeq ∧
    c₀.buf.sets = [] ∧ c₀.boot.flash = kept.boot.flash ∧ c₀.boot.keyHash = kept.boot.keyHash := by
  unfold Chip.warm
  exact ⟨_, _, rfl, rfl, rfl, rfl, rfl, rfl, rfl, no_event_asked, rfl, rfl, rfl, rfl, rfl, rfl⟩

include hclean hcut hregs

theorem warmed_warm : Warmed old old.warm := by
  obtain ⟨c₀, kept, hkept, hwarm, hr, harch, hweirs, hcmds, hposts, hevents, hmem, hstaged, hseq, hsets, hflash, hkey⟩ := warm_parts old
  have hold : kept = old.emptyCache := hkept.trans (congrArg Chip.emptyCache (writeBackAll_clean hclean))
  subst hold
  have hkeptFld (f : Fld) (hf : f ∈ GEN_SCRATCH_VALUE :: fuseFields) : c₀.fld f = old.fld f := by
    rw [Chip.fld, Chip.reg, hr]
    exact fieldOf_keptRegs hregs (keptField_fuses f hf)
  have hcopied : Steady quietFld True c₀ ((c₀.copyFields old.emptyCache warmFields).keepFaults old.emptyCache) :=
    ((Steady.refl c₀).copyFields _ fun f hf => warmFields_quiet f (List.mem_append_left _ hf)).keepFaults _
  have hbase : Warmed old c₀ :=
    { flash := ⟨hflash, hkey, fun f hf => hkeptFld f (List.mem_cons_of_mem _ hf)⟩
      arch := by simp only [Chip.now, Chip.nowH, harch]; exact ⟨rfl, rfl⟩
      mem := hmem
      staged := by rw [hstaged]; rfl
      cmds := hcmds
      posts := hposts
      weirs := fun n hn => by
        rw [Chip.weir, hweirs]
        exact get_one_key _ (fun x hx => beq_iff_eq.1 (List.mem_filter.1 hx).2) hn
      sets := hsets
      scratch := reg_of_fld (hkeptFld GEN_SCRATCH_VALUE List.mem_cons_self)
      cache := fun o hlo hhi => by
        rw [Chip.reg, hr]
        exact get_keptRegs_cache hregs hlo hhi }
  obtain ⟨b, hcutEq, hbmem, hbsets, hbstaged⟩ := cutStaged_none (c := (c₀.copyFields old.emptyCache warmFields).keepFaults old.emptyCache)
    (by rw [hcopied.buf trivial, hseq]; exact hcut)
  have hmid := hbase.steady hcopied
  have hcutWarmed : Warmed old (((c₀.copyFields old.emptyCache warmFields).keepFaults old.emptyCache).cutStaged) := by
    rw [hcutEq]
    exact hmid.withBuf hbmem hbsets hbstaged
  have hcutEvents (x : Nat) : (((c₀.copyFields old.emptyCache warmFields).keepFaults old.emptyCache).cutStaged).host.stationEvents.getD x false = false := by
    rw [hcutEq]
    exact (congrArg (·.getD x false) hcopied.events).trans (hevents x)
  rw [hwarm]
  refine hcutWarmed.steady ((Steady.refl _).foldl fun s hs c hc => ?_)
  exact hc.warmStation (fun x => by rw [hc.events]; exact hcutEvents x) (List.mem_range.1 hs)

/-- A warm restart whose images are the host's. -/
theorem warmRestart_spec {b : BootIn} (hpowered : old.boot.powered = true) (hhost : b.srcHost = true) {source : Nat} (hsource : source < 4) :
    StartsAs b old (old.warmRestart b source) ∧ (old.warmRestart b source).fld BOOT_LAST_RESET_SOURCE = source ∧
      Warmed old (old.warmRestart b source) := by
  have hwarm := warmed_warm hclean hcut hregs
  have hstart := steady_startUp old.warm false source hhost
  rw [Chip.warmRestart, if_pos hpowered]
  refine ⟨startsAs_startUp hwarm.flash b false source, ?_, (hwarm.steady (steady_sourcesTold _ b source)).steady ?_⟩
  · rw [hstart.fld _ (.inr (.inr rfl)) (by decide), Chip.sourcesTold, fld_setFld_same _ _ _ (by decide)]
    exact Nat.mod_eq_of_lt hsource
  · exact { hstart.mono fun _ => .inl with buf := fun _ => hstart.buf rfl }

end

/-! ### O57 -/

/-- POR_N. -/
theorem porN_spec (old : Chip) :
    (∀ f : Fld, f.lo + f.w ≤ 64 → (∀ g ∈ coldFields, apart f g) → old.cold.fld f = ({} : Chip).fld f) ∧
      (∀ f ∈ inputFields, old.cold.fld f = old.fld f) ∧ FlashOf old old.cold ∧ old.cold.boot.powered = false ∧ old.cold.core = {} ∧
      old.cold.buf = {} ∧ old.cold.arch = {} ∧ old.cold.path = {} ∧ old.cold.host = { posts := old.host.posts } := by
  obtain ⟨r, v, hcold⟩ := cold_servo old
  refine ⟨fun f hf h => fld_cold_reset old hf h, fun f hf => fld_cold_kept old ?_, flashOf_cold old, ?_⟩
  · rw [coldCopies, List.append_assoc]
    exact List.mem_append_left _ hf
  · rw [hcold]
    exact ⟨rfl, rfl, rfl, rfl, rfl, rfl⟩

theorem flashOf_powered {old c : Chip} (h : FlashOf old c) : FlashOf old (c.setBoot { c.boot with powered := true }) := h

/-- Power-on: POR_N is released, and the part starts. -/
theorem powerOn_spec (old : Chip) (b : BootIn) :
    StartsAs b old ((old.cold.setBoot { old.cold.boot with powered := true }).startUp b true 0) ∧
      (b.srcHost = true → b.ledgerPll = true → ((old.cold.setBoot { old.cold.boot with powered := true }).startUp b true 0).boot.powered = true ∧
        ((old.cold.setBoot { old.cold.boot with powered := true }).startUp b true 0).fld BOOT_LAST_RESET_SOURCE = 0) := by
  have hflash : FlashOf old (old.cold.setBoot { old.cold.boot with powered := true }) := flashOf_powered (flashOf_cold old)
  refine ⟨startsAs_startUp hflash b true 0, fun hhost _ => ?_⟩
  have hstart := steady_startUp (old.cold.setBoot { old.cold.boot with powered := true }) true 0 hhost
  refine ⟨congrArg BootSt.powered (hstart.boot.trans (steady_sourcesTold (p := False) _ b 0).boot), ?_⟩
  rw [hstart.fld _ (.inr (.inr rfl)) (by decide), Chip.sourcesTold, fld_setFld_same _ _ _ (by decide)]
  rfl

/-- Settles O57: a restart is its copies, which reach only their own registers, then the start-up, followed to where it ends. -/
theorem resets : Obligations.Resets := by
  unfold Obligations.Resets
  intro s b fuses flash halts starts
  refine ⟨completes_on (f := fun c => c.cold) rfl (porN_spec s.chip), ?_, fun x key i source hi => ?_, fun x key hkey => ?_⟩
  · exact completes_on (f := fun c => (c.cold.setBoot { c.cold.boot with powered := true }).startUp b true 0) rfl (powerOn_spec s.chip b)
  · have hexec : exec i s = s.on (fun _ => s.chip.warmRestart b source) ∧ source < 4 := by
      rcases hi with ⟨rfl, rfl⟩ | ⟨rfl, rfl, rfl, hport⟩
      · exact ⟨rfl, by decide⟩
      · refine ⟨?_, by have := x.isLt; omega⟩
        show s.on _ = _
        simp [State.on, hport]
    obtain ⟨hexec, hsource⟩ := hexec
    refine ⟨fun hoff => completes_on hexec ?_, fun hpowered hhost hclean hcut hregs => completes_on hexec ?_⟩
    · simp [Chip.warmRestart, hoff]
    · obtain ⟨hstarts, hsrc, hwarm⟩ := warmRestart_spec hclean hcut hregs hpowered hhost hsource
      exact ⟨hstarts, hsrc, hwarm.arch.1, hwarm.arch.2, fun a => congrArg (Cells.get memBlank · a) hwarm.mem, hwarm.staged, hwarm.cmds, hwarm.posts,
        hwarm.weirs, hwarm.sets, hwarm.scratch, hwarm.cache⟩
  · refine completes_on (f := fun c => c.when (key == 0x5741524D#32 && c.portExists x) fun c => c.warmRestart b (2 + x.val)) rfl ?_
    rcases hkey with hkey | hport
    · simp [Chip.when, hkey]
    · simp [Chip.when, hport]

end Sys2Proof.Machine
end

section
/-! Facts about the stations: a change of state, the clamp rules, what a park does to an idle pickup. Proofs of O34, O45 and O52 use them. -/

namespace Sys2Proof.Machine

/-! ### A change of state (R356) -/

/-- The fields of station `s` that a change of state writes, with their values. -/
def stateWrites (s prev new cause time : Nat) : List (Fld × Nat) :=
  [(WMM_STN_STATE_PREV s, prev), (WMM_STN_STATE_STATE s, new), (WMM_STN_STATE_CAUSE s, cause),
    (WMM_STN_STATE_UNCLAMP_ALLOWED s, (new == sEmpty || new == sLoaded || new == sSafe).toNat), (WMM_STN_TIME_TIME s, time),
    (WMM_STN_EVENT_STATE_CHANGE s, 1)]

/-- The fields that a change of state may change. -/
def stateFields (s : Nat) : List Fld :=
  [WMM_STN_STATE_PREV s, WMM_STN_STATE_STATE s, WMM_STN_STATE_CAUSE s, WMM_STN_STATE_UNCLAMP_ALLOWED s, WMM_STN_TIME_TIME s,
    WMM_STN_EVENT_STATE_CHANGE s]

theorem stateWrites_fields (s prev new cause time : Nat) : (stateWrites s prev new cause time).map Prod.fst = stateFields s := rfl

theorem stateFields_fit (s : Nat) : ∀ f ∈ stateFields s, f.lo + f.w ≤ 64 := by
  simp [stateFields, WMM_STN_STATE_PREV, WMM_STN_STATE_STATE, WMM_STN_STATE_CAUSE, WMM_STN_STATE_UNCLAMP_ALLOWED, WMM_STN_TIME_TIME,
    WMM_STN_EVENT_STATE_CHANGE]

theorem stateFields_apart (s : Nat) : (stateFields s).Pairwise fun f g => apart f g := by
  simp only [stateFields, List.pairwise_cons, List.forall_mem_cons, List.not_mem_nil, false_imp_iff, implies_true, and_true, List.Pairwise.nil,
    apart, WMM_STN_STATE_PREV, WMM_STN_STATE_STATE, WMM_STN_STATE_CAUSE, WMM_STN_STATE_UNCLAMP_ALLOWED, WMM_STN_TIME_TIME,
    WMM_STN_EVENT_STATE_CHANGE, WMM_STN_STATE, WMM_STN_TIME, WMM_STN_EVENT]
  omega

/-- What a change of state leaves. -/
structure StateChanged (s new cause : Nat) (c c' : Chip) : Prop where
  state : c'.stState s = new
  prev : c'.fld (WMM_STN_STATE_PREV s) = c.stState s
  shown : c'.fld (WMM_STN_STATE_CAUSE s) = cause
  allowed : c'.flag (WMM_STN_STATE_UNCLAMP_ALLOWED s) = (new == sEmpty || new == sLoaded || new == sSafe)
  event : c'.flag (WMM_STN_EVENT_STATE_CHANGE s) = true
  stn : c'.stn s = { c.stn s with changes := (c.stn s).changes + 1 }
  others : ∀ x, x ≠ s → c'.stn x = c.stn x
  kept : c.fieldsKept (stateFields s) c'
  servo : c'.servo = { c.servo with stations := c'.servo.stations, lpTimes := c'.servo.lpTimes }
  sup : c'.sup = { c.sup with wmH := c'.sup.wmH, wmM := c'.sup.wmM }
  host : c'.host = { c.host with rings := c'.host.rings }
  path : c'.path = c.path
  buf : c'.buf = c.buf
  afe : c'.afe = c.afe
  arch : c'.arch = c.arch
  sram : c'.core.sram = c.core.sram

theorem journal_sup (c : Chip) (a u : Nat) : (c.journal a u).sup = { c.sup with wmH := (c.journal a u).sup.wmH, wmM := (c.journal a u).sup.wmM } := by
  unfold Chip.journal
  cases c.activeDie <;> simp only <;> split <;> rfl

theorem journal_afe (c : Chip) (a u : Nat) : (c.journal a u).afe = c.afe := by
  unfold Chip.journal; simp only; split <;> simp

theorem journal_path (c : Chip) (a u : Nat) : (c.journal a u).path = c.path := by
  unfold Chip.journal; simp only; split <;> simp

/-- The library port tells the time of station `s`. -/
def Chip.lpTimed (c : Chip) (s : Nat) (t : Word) : Chip :=
  { c with servo := { c.servo with lpTimes := Cells.put (fun _ => 0) c.servo.lpTimes s t } }

theorem lpTimed_regs (c : Chip) (s : Nat) (t : Word) : (c.lpTimed s t).regs = c.regs := rfl

theorem lpTimed_servo (c : Chip) (s : Nat) (t : Word) :
    (c.lpTimed s t).servo = { c.servo with lpTimes := Cells.put (fun _ => 0) c.servo.lpTimes s t } := rfl

theorem stn_lpTimed (c : Chip) (s : Nat) (t : Word) (x : Nat) : (c.lpTimed s t).stn x = c.stn x := rfl

/-- The registers and times of station `s` after a change of state, before it is journalled. -/
def Chip.stateShown (c : Chip) (s new cause : Nat) : Chip :=
  ((c.setStn s { c.stn s with changes := (c.stn s).changes + 1 }).putFlds (stateWrites s (c.stState s) new cause c.now.toNat)).lpTimed s c.now

/-- The hosts' rings alone are others. -/
def Chip.withRings (c : Chip) (r : Cells Ring) : Chip := { c with host := { c.host with rings := r } }

theorem withRings_regs (c : Chip) (r : Cells Ring) : (c.withRings r).regs = c.regs := rfl
theorem withRings_servo (c : Chip) (r : Cells Ring) : (c.withRings r).servo = c.servo := rfl
theorem withRings_sup (c : Chip) (r : Cells Ring) : (c.withRings r).sup = c.sup := rfl
theorem withRings_host (c : Chip) (r : Cells Ring) : (c.withRings r).host = { c.host with rings := r } := rfl
theorem withRings_path (c : Chip) (r : Cells Ring) : (c.withRings r).path = c.path := rfl
theorem withRings_buf (c : Chip) (r : Cells Ring) : (c.withRings r).buf = c.buf := rfl
theorem withRings_afe (c : Chip) (r : Cells Ring) : (c.withRings r).afe = c.afe := rfl
theorem withRings_arch (c : Chip) (r : Cells Ring) : (c.withRings r).arch = c.arch := rfl
theorem withRings_core (c : Chip) (r : Cells Ring) : (c.withRings r).core = c.core := rfl

theorem postEvent_withRings (c : Chip) (x code queue status d0 d1 d2 : Nat) : ∃ r, c.postEvent x code queue status d0 d1 d2 = c.withRings r :=
  ⟨_, postEvent_rings ..⟩

theorem foldl_withRings {f : Chip → Nat → Chip} (hf : ∀ c k, ∃ r, f c k = c.withRings r) (l : List Nat) (c : Chip) :
    ∃ r, l.foldl f c = c.withRings r := by
  induction l generalizing c with
  | nil => exact ⟨c.host.rings, rfl⟩
  | cons k l ih =>
    obtain ⟨r, hr⟩ := hf c k
    obtain ⟨r', hr'⟩ := ih (f c k)
    exact ⟨r', hr'.trans (by rw [hr]; rfl)⟩

theorem event_withRings (x s new cause : Nat) (c : Chip) : ∃ r,
    (if c.host.stationEvents.getD x false then c.postEvent x 3 0xFFFF 0 (s + 256 * new + 65536 * cause) 0 0 else c) = c.withRings r := by
  split
  · exact postEvent_withRings ..
  · exact ⟨c.host.rings, rfl⟩

/-- A change of state shows, is journalled and logged, and the hosts that asked to hear of it are told in their rings. -/
theorem changeState_told (c : Chip) (s new cause : Nat) : ∃ rings, c.changeState s new cause =
    (((c.stateShown s new cause).journal actState s).log 0x0503 .m ([s, new, c.stState s, cause] ++ detBytes 8 c.now.toNat)).withRings rings :=
  foldl_withRings (fun d k => event_withRings k s new cause d) (List.range 2)
    (((c.stateShown s new cause).journal actState s).log 0x0503 .m ([s, new, c.stState s, cause] ++ detBytes 8 c.now.toNat))

theorem putFlds_servo (c : Chip) (ws : List (Fld × Nat)) : (c.putFlds ws).servo = c.servo := by
  rw [regsOnly_putFlds c ws]

section
variable {c : Chip} {s new cause : Nat}

theorem stateWrites_fit (s prev new cause time : Nat) : ∀ x ∈ stateWrites s prev new cause time, x.1.lo + x.1.w ≤ 64 := fun x hx =>
  stateFields_fit s x.1 (by rw [← stateWrites_fields s prev new cause time]; exact List.mem_map_of_mem hx)

theorem stateWrites_apart (s prev new cause time : Nat) : (stateWrites s prev new cause time).Pairwise fun x y => apart x.1 y.1 :=
  List.pairwise_map.1 (by rw [stateWrites_fields]; exact stateFields_apart s)

theorem stateShown_regs (c : Chip) (s new cause : Nat) : (c.stateShown s new cause).regs =
    ((c.setStn s { c.stn s with changes := (c.stn s).changes + 1 }).putFlds (stateWrites s (c.stState s) new cause c.now.toNat)).regs := by
  rw [Chip.stateShown, lpTimed_regs]

theorem fld_stateShown {f : Fld} {v : Nat} (hf : (f, v) ∈ stateWrites s (c.stState s) new cause c.now.toNat) (hv : v < 2 ^ f.w) :
    (c.stateShown s new cause).fld f = v := by
  rw [fld_of_regs (stateShown_regs c s new cause)]
  generalize c.setStn s { c.stn s with changes := (c.stn s).changes + 1 } = d
  have hmem := fld_putFlds_mem d (stateWrites_fit s (c.stState s) new cause c.now.toNat) (stateWrites_apart s (c.stState s) new cause c.now.toNat) hf
  exact hmem.trans (Nat.mod_eq_of_lt hv)

theorem fieldsKept_stateShown (c : Chip) (s new cause : Nat) : c.fieldsKept (stateFields s) (c.stateShown s new cause) := by
  intro f hf hfit
  rw [fld_of_regs (stateShown_regs c s new cause)]
  exact fieldsKept_putFlds _ _ f hf (by rwa [stateWrites_fields])

/-- A change of state shows, is counted, journalled, logged and told, and changes nothing else. -/
theorem stateChanged (c : Chip) (s : Nat) (hnew : new < 8) (hcause : cause < 32) : StateChanged s new cause c (c.changeState s new cause) := by
  obtain ⟨rings, htold⟩ := changeState_told c s new cause
  have hregs : (c.changeState s new cause).regs = (c.stateShown s new cause).regs := by
    rw [htold, withRings_regs, log_regs, journal_regs]
  have hservo : (c.changeState s new cause).servo = (c.stateShown s new cause).servo := by
    rw [htold, withRings_servo, log_servo, journal_servo]
  have hstnFld (f : Fld) (v : Nat) (hf : (f, v) ∈ stateWrites s (c.stState s) new cause c.now.toNat) (hv : v < 2 ^ f.w) :
      (c.changeState s new cause).fld f = v := (fld_of_regs hregs f).trans (fld_stateShown hf hv)
  have hsame : c.stateShown s new cause = { c with regs := (c.stateShown s new cause).regs, servo := (c.stateShown s new cause).servo } := by
    unfold Chip.stateShown
    rw [regsOnly_putFlds]
    rfl
  have hstn (x : Nat) : (c.changeState s new cause).stn x = (c.setStn s { c.stn s with changes := (c.stn s).changes + 1 }).stn x := by
    rw [Chip.stn, hservo, ← Chip.stn, Chip.stateShown, stn_lpTimed, Chip.stn, putFlds_servo, ← Chip.stn]
  refine
    { state := hstnFld (WMM_STN_STATE_STATE s) new (by simp [stateWrites]) hnew
      prev := hstnFld (WMM_STN_STATE_PREV s) _ (by simp [stateWrites]) (fld_lt c (WMM_STN_STATE_STATE s))
      shown := hstnFld (WMM_STN_STATE_CAUSE s) cause (by simp [stateWrites]) hcause
      allowed := ?_
      event := ?_
      stn := (hstn s).trans (stn_setStn ..)
      others := fun x hx => (hstn x).trans (stn_setStn_other _ _ _ _ hx)
      kept := fun f hf hfit => (fld_of_regs hregs f).trans (fieldsKept_stateShown c s new cause f hf hfit)
      servo := ?_, sup := ?_, host := ?_, path := ?_, buf := ?_, afe := ?_, arch := ?_, sram := ?_ }
  · rw [Chip.flag, hstnFld (WMM_STN_STATE_UNCLAMP_ALLOWED s) (new == sEmpty || new == sLoaded || new == sSafe).toNat (by simp [stateWrites])
      (Bool.toNat_lt _)]
    cases (new == sEmpty || new == sLoaded || new == sSafe) <;> rfl
  · rw [Chip.flag, hstnFld (WMM_STN_EVENT_STATE_CHANGE s) 1 (by simp [stateWrites]) (by simp [WMM_STN_EVENT_STATE_CHANGE])]
    rfl
  · rw [hservo]
    rw [Chip.stateShown, lpTimed_servo, putFlds_servo]
    rfl
  · rw [htold, withRings_sup, log_sup, journal_sup, hsame]
  · rw [htold, withRings_host, log_host, journal_cmds, hsame]
  · rw [htold, withRings_path, log_path, journal_path, hsame]
  · rw [htold, withRings_buf, log_buf, journal_buf, hsame]
  · rw [htold, withRings_afe, log_afe, journal_afe, hsame]
  · rw [htold, withRings_arch, log_arch, journal_arch, hsame]
  · rw [htold, withRings_core, log_core_sram, journal_core, hsame]

end

theorem StateChanged.boot {s new cause : Nat} {c c' : Chip} (h : StateChanged s new cause c c') : c'.sup.boot = c.sup.boot := by rw [h.sup]

theorem StateChanged.bytes {s new cause : Nat} {c c' : Chip} (h : StateChanged s new cause c c') : c.bytesKept c' :=
  bytesKept_of_eq (congrArg BufSt.mem h.buf) h.boot h.sram

/-! ### Fields of a station that lie apart -/

section
variable (s : Nat)

theorem state_apart_disc : apart (WMM_STN_STATE_STATE s) (WMM_STN_STATE_DISC_PRESENT s) := apart_of_bits (by decide)

theorem state_apart_clamped : apart (WMM_STN_STATE_STATE s) (WMM_STN_STATE_CLAMPED s) := apart_of_bits (by decide)

theorem state_apart_req : apart (WMM_STN_STATE_STATE s) (WMM_STN_CTRL_CLAMP_REQ s) := apart_of_reg (by
  simp only [WMM_STN_STATE_STATE, WMM_STN_STATE, WMM_STN_CTRL_CLAMP_REQ, WMM_STN_CTRL]; omega)

theorem state_apart_lost : apart (WMM_STN_STATE_STATE s) (WMM_STN_EVENT_DISC_LOST s) := apart_of_reg (by
  simp only [WMM_STN_STATE_STATE, WMM_STN_STATE, WMM_STN_EVENT_DISC_LOST, WMM_STN_EVENT]; omega)

theorem state_apart_deferred : apart (WMM_STN_STATE_STATE s) (WMM_STN_EVENT_UNCLAMP_DEFERRED s) := apart_of_reg (by
  simp only [WMM_STN_STATE_STATE, WMM_STN_STATE, WMM_STN_EVENT_UNCLAMP_DEFERRED, WMM_STN_EVENT]; omega)

theorem state_apart_escalated : apart (WMM_STN_STATE_STATE s) (WMM_STN_EVENT_ESCALATED s) := apart_of_reg (by
  simp only [WMM_STN_STATE_STATE, WMM_STN_STATE, WMM_STN_EVENT_ESCALATED, WMM_STN_EVENT]; omega)

theorem disc_apart_clamped : apart (WMM_STN_STATE_DISC_PRESENT s) (WMM_STN_STATE_CLAMPED s) := apart_of_bits (by decide)

theorem req_apart_disc : apart (WMM_STN_CTRL_CLAMP_REQ s) (WMM_STN_STATE_DISC_PRESENT s) := apart_of_reg (by
  simp only [WMM_STN_CTRL_CLAMP_REQ, WMM_STN_CTRL, WMM_STN_STATE_DISC_PRESENT, WMM_STN_STATE]; omega)

theorem req_apart_clamped : apart (WMM_STN_CTRL_CLAMP_REQ s) (WMM_STN_STATE_CLAMPED s) := apart_of_reg (by
  simp only [WMM_STN_CTRL_CLAMP_REQ, WMM_STN_CTRL, WMM_STN_STATE_CLAMPED, WMM_STN_STATE]; omega)

theorem req_apart_deferred : apart (WMM_STN_CTRL_CLAMP_REQ s) (WMM_STN_EVENT_UNCLAMP_DEFERRED s) := apart_of_reg (by
  simp only [WMM_STN_CTRL_CLAMP_REQ, WMM_STN_CTRL, WMM_STN_EVENT_UNCLAMP_DEFERRED, WMM_STN_EVENT]; omega)

theorem clamped_apart_disc : apart (WMM_STN_STATE_CLAMPED s) (WMM_STN_STATE_DISC_PRESENT s) := apart_of_bits (by decide)

theorem clamped_apart_req : apart (WMM_STN_STATE_CLAMPED s) (WMM_STN_CTRL_CLAMP_REQ s) := apart_of_reg (by
  simp only [WMM_STN_STATE_CLAMPED, WMM_STN_STATE, WMM_STN_CTRL_CLAMP_REQ, WMM_STN_CTRL]; omega)

theorem clamped_apart_lost : apart (WMM_STN_STATE_CLAMPED s) (WMM_STN_EVENT_DISC_LOST s) := apart_of_reg (by
  simp only [WMM_STN_STATE_CLAMPED, WMM_STN_STATE, WMM_STN_EVENT_DISC_LOST, WMM_STN_EVENT]; omega)

theorem clamped_apart_deferred : apart (WMM_STN_STATE_CLAMPED s) (WMM_STN_EVENT_UNCLAMP_DEFERRED s) := apart_of_reg (by
  simp only [WMM_STN_STATE_CLAMPED, WMM_STN_STATE, WMM_STN_EVENT_UNCLAMP_DEFERRED, WMM_STN_EVENT]; omega)

theorem lost_apart_clamped : apart (WMM_STN_EVENT_DISC_LOST s) (WMM_STN_STATE_CLAMPED s) := apart_of_reg (by
  simp only [WMM_STN_EVENT_DISC_LOST, WMM_STN_EVENT, WMM_STN_STATE_CLAMPED, WMM_STN_STATE]; omega)

theorem lost_apart_req : apart (WMM_STN_EVENT_DISC_LOST s) (WMM_STN_CTRL_CLAMP_REQ s) := apart_of_reg (by
  simp only [WMM_STN_EVENT_DISC_LOST, WMM_STN_EVENT, WMM_STN_CTRL_CLAMP_REQ, WMM_STN_CTRL]; omega)

theorem lost_apart_disc : apart (WMM_STN_EVENT_DISC_LOST s) (WMM_STN_STATE_DISC_PRESENT s) := apart_of_reg (by
  simp only [WMM_STN_EVENT_DISC_LOST, WMM_STN_EVENT, WMM_STN_STATE_DISC_PRESENT, WMM_STN_STATE]; omega)

end

/-! ### The clamp (R368) -/

section
variable {c : Chip} {s : Nat}

theorem clampRules_drive (hreq : c.flag (WMM_STN_CTRL_CLAMP_REQ s) = true) (hst : c.stState s = sEmpty)
    (hdisc : c.flag (WMM_STN_STATE_DISC_PRESENT s) = true) (hfree : c.flag (WMM_STN_STATE_CLAMPED s) = false) :
    c.clampRules s = (c.setClamped s true).setStn s { c.stn s with settling := true } := by
  simp only [Chip.clampRules, hreq, hst, hdisc, hfree, if_true, Bool.not_false, and_self]

theorem clampRules_held (hreq : c.flag (WMM_STN_CTRL_CLAMP_REQ s) = true) (hst : c.stState s ≠ sEmpty) : c.clampRules s = c := by
  simp [Chip.clampRules, hreq, hst]

theorem clampRules_release (hreq : c.flag (WMM_STN_CTRL_CLAMP_REQ s) = false) (hst : c.stState s = sLoaded ∨ c.stState s = sSafe)
    (hhold : (c.stn s).holdClamp = false) : c.clampRules s = (c.setClamped s false).changeState s sEmpty cauUnclamp := by
  simp [Chip.clampRules, hreq, hst, hhold]

theorem clampRules_stay (hreq : c.flag (WMM_STN_CTRL_CLAMP_REQ s) = false) (hst : ¬ (c.stState s = sLoaded ∨ c.stState s = sSafe)) :
    c.clampRules s = c := by
  simp [Chip.clampRules, hreq, hst]

end

/-! ### Commands pushed to a pair -/

section
variable (c : Chip) (q : Nat) (v arg : Q)

theorem pushCmd_room (h : (c.pair q).cmds.length < 4) : c.pushCmd q v arg = c.setPair q { c.pair q with cmds := (c.pair q).cmds ++ [(v, arg)] } :=
  if_pos h

/-- A command changes the pairs, and into a full queue the event that tells of it. -/
theorem pushCmd_eq : c.pushCmd q v arg = { c with regs := (c.pushCmd q v arg).regs, servo := { c.servo with pairs := (c.pushCmd q v arg).servo.pairs } } := by
  unfold Chip.pushCmd
  dsimp only
  split <;> rfl

theorem stn_pushCmd (s : Nat) : (c.pushCmd q v arg).stn s = c.stn s := by rw [pushCmd_eq]; rfl

theorem host_pushCmd : (c.pushCmd q v arg).host = c.host := by rw [pushCmd_eq]

theorem sup_pushCmd : (c.pushCmd q v arg).sup = c.sup := by rw [pushCmd_eq]

/-- The command at the front of a queue stays there. -/
theorem head_pushCmd {y : Q × Q} (h : (c.pair q).cmds.take 1 = [y]) : ((c.pushCmd q v arg).pair q).cmds.take 1 = [y] := by
  unfold Chip.pushCmd
  dsimp only
  split
  · obtain ⟨z, zs, hcons⟩ := List.exists_cons_of_ne_nil (l := (c.pair q).cmds) (by rintro hnil; simp [hnil] at h)
    rw [pair_setPair, hcons]
    rw [hcons] at h
    exact h
  · exact h

/-- The event of a lost command lies in no register of a station. -/
theorem station_apart_cmdLost {f : Fld} {s : Nat} (hf : f.reg = WMM_STN_STATE s) (q : Nat) : apart f (LE_PAIR_EVENT_CMD_LOST q) :=
  apart_of_reg (by simp only [hf, WMM_STN_STATE, LE_PAIR_EVENT_CMD_LOST, LE_PAIR_EVENT]; omega)

theorem fld_pushCmd {f : Fld} {s : Nat} (hf : f.reg = WMM_STN_STATE s) (hfit : f.lo + f.w ≤ 64) : (c.pushCmd q v arg).fld f = c.fld f :=
  fieldsKept_pushCmd c q v arg f hfit (by simpa using station_apart_cmdLost hf q)

theorem stState_pushCmd (s : Nat) : (c.pushCmd q v arg).stState s = c.stState s :=
  fld_pushCmd c q v arg (f := WMM_STN_STATE_STATE s) rfl (Nat.le_of_ble_eq_true rfl)

end

/-! ### Parks (R356, R365) -/

theorem park_joins {c : Chip} {s : Nat} (h : c.stState s = sParking) (cause : Nat) : c.park s cause =
    c.setStn s { c.stn s with causes := (c.stn s).causes ++ [cause], reset := (c.stn s).reset || cause == cauStationReset } :=
  if_pos h

theorem park_nothing {c : Chip} {s cause : Nat} (h : c.stState s ∈ [sEmpty, sSafe, sFault, sLoaded]) (hcause : parksLoaded cause = false) :
    c.park s cause = c := by
  simp only [List.mem_cons, List.not_mem_nil, or_false] at h
  rw [Chip.park]
  dsimp only
  rw [if_neg (by rcases h with h | h | h | h <;> simp [h, sEmpty, sSafe, sFault, sLoaded, sParking]), if_pos]
  rcases h with h | h | h | h
  · exact .inl h
  · exact .inr (.inl h)
  · exact .inr (.inr (.inl h))
  · exact .inr (.inr (.inr ⟨h, by simp [hcause]⟩))

/-- What a park does to one pickup (R365 step 1). -/
def Chip.parkPickup (c : Chip) (p cause : Nat) : Chip :=
  let c := ((c.cutPass p).dropQueuedPass p).abandonCal p true
  let c := c.endReads p (if cause = cauStationReset ∨ cause = cauUnmount then ouAbandoned else ouStationLost)
  let c := (c.disarmLanes p).loseCommands p
  let c := match (c.vol p).qual with
    | some _ => c.endQual p stStationFault
    | none => c.dropVolume p
  c.loopCmd p 0x07 0

/-- The station's part of a park that begins. -/
def Chip.parkBegun (c : Chip) (s cause : Nat) : Chip :=
  let c := (c.journal actPark s).changeState s sParking cause
  (c.setStn s { c.stn s with causes := [cause], parkStep := 2, reset := cause == cauStationReset }).inc (WMM_STN_PARKS_COUNT s)

/-- A park does nothing, or is one more cause of a park in progress, or begins. -/
theorem park_cases (c : Chip) (s cause : Nat) :
    (c.park s cause = c ∧ c.stState s ∈ [sEmpty, sSafe, sFault, sLoaded]) ∨ (∃ x, c.park s cause = c.setStn s x ∧ c.stState s = sParking) ∨
    c.park s cause = ([2 * s, 2 * s + 1].foldl (fun c p => c.parkPickup p cause) (c.parkBegun s cause)).showStep s := by
  rw [Chip.park]
  dsimp only
  split
  next h => exact .inr (.inl ⟨_, rfl, h⟩)
  · split
    next h =>
      refine .inl ⟨rfl, ?_⟩
      rcases h with h | h | h | h <;> simp [h]
    · refine .inr (.inr ?_)
      rw [← Chip.parkBegun]
      refine congrArg (Chip.showStep · s) (List.foldl_ext _ _ _ fun d p _ => ?_)
      rw [Chip.parkPickup] <;> (generalize Chip.loseCommands _ p = e; cases (e.vol p).qual <;> rfl)

theorem park_begins {c : Chip} {s : Nat} (h : c.stState s ∈ [sSpinup, sQualify, sMounted]) (cause : Nat) : c.park s cause =
    ([2 * s, 2 * s + 1].foldl (fun c p => c.parkPickup p cause) (c.parkBegun s cause)).showStep s := by
  have hmoves : ∀ st ∈ [sSpinup, sQualify, sMounted], st ∉ [sEmpty, sSafe, sFault, sLoaded] ∧ st ≠ sParking := by decide
  obtain ⟨hnot, hpark⟩ := hmoves _ h
  obtain ⟨-, hstate⟩ | ⟨-, -, hstate⟩ | heq := park_cases c s cause
  · exact absurd hstate hnot
  · exact absurd hstate hpark
  · exact heq

/-- A command that a park leaves to wait, where no pickup has work. -/
def ParkSpares (m : Cmd) : Prop := m.opcode ≠ opWrite ∧ m.opcode ≠ opFlush ∧ m.opcode ≠ opClose ∧ ¬ (m.opcode = opUnmount ∧ m.wait = .drain)

theorem settleFlushes_spared {c : Chip} (h : ∀ x ∈ c.host.cmds, ParkSpares x) : c.settleFlushes = c := by
  have hnone : c.host.cmds.filter (fun m => m.opcode == opFlush && m.started && m.status.isNone && m.wait != .engine) = [] :=
    List.filter_eq_nil_iff.2 fun x hx => by simp [(h x hx).2.1]
  rw [Chip.settleFlushes, hnone, List.foldl_nil]

theorem loseCommands_spared {c : Chip} (h : ∀ x ∈ c.host.cmds, ParkSpares x) (p : Nat) : c.loseCommands p = c := by
  refine List.foldlRecOn (motive := fun d => d = c) _ _ rfl fun d hd m hm => ?_
  obtain ⟨hwrite, hflush, hclose, hunmount⟩ := h m (List.mem_filter.1 hm).1
  rw [if_neg hwrite, if_neg (by tauto), if_neg (by tauto), hd]

/-- Pickup `p` has nothing that a park would end. -/
structure ParkIdle (c : Chip) (p : Nat) : Prop where
  pass : (c.wch p).pass = none
  queued : (c.wch p).queued = none
  results : (c.wch p).results = []
  cal : c.calIdle p
  reqs : (c.frm p).reqs = []
  retry : (c.frm p).retry = none
  qual : (c.vol p).qual = none
  cmds : ∀ x ∈ c.host.cmds, ParkSpares x
  staged : c.buf.staged = []

/-- The fields that a park of an idle pickup may change. -/
def parkFields (p : Nat) : List Fld :=
  [WMM_STN_PU_VOLUME_STATE (p / 2) (p % 2), WCH_CTRL_EN p, WMM_STN_PU_LAYER_UNUSABLE (p / 2) (p % 2), LE_PAIR_EVENT_CMD_LOST p]

/-- Work on pickup `p` that leaves the stations and the other pickups as they are. -/
structure PickupWork (p : Nat) (c c' : Chip) : Prop where
  stn : c'.servo.stations = c.servo.stations
  kept : c.fieldsKept (parkFields p) c'
  cmds : c'.host.cmds = c.host.cmds
  staged : c.buf.staged = [] → c'.buf.staged = []
  sup : c'.sup = c.sup
  wch : ∀ q, q ≠ p → c'.wch q = c.wch q
  frm : ∀ q, q ≠ p → c'.frm q = c.frm q
  vol : ∀ q, q ≠ p → c'.vol q = c.vol q

section
variable {p : Nat} {a c : Chip}

theorem PickupWork.refl (p : Nat) (c : Chip) : PickupWork p c c :=
  ⟨rfl, fieldsKept_refl _ _, rfl, fun h => h, rfl, fun _ _ => rfl, fun _ _ => rfl, fun _ _ => rfl⟩

theorem PickupWork.setFrm (h : PickupWork p a c) (x : FrmRec) : PickupWork p a (c.setFrm p x) :=
  { h with frm := fun q hq => (frm_setFrm_other _ _ _ _ hq).trans (h.frm q hq) }

theorem PickupWork.setWch (h : PickupWork p a c) (x : WchRec) : PickupWork p a (c.setWch p x) :=
  { h with wch := fun q hq => (wch_setWch_other _ _ _ _ hq).trans (h.wch q hq) }

theorem PickupWork.setVol (h : PickupWork p a c) (x : VolRec) : PickupWork p a (c.setVol p x) :=
  { h with vol := fun q hq => (vol_setVol_other _ _ _ _ hq).trans (h.vol q hq) }

theorem PickupWork.setFld (h : PickupWork p a c) {g : Fld} (v : Nat) (hg : g ∈ parkFields p) : PickupWork p a (c.setFld g v) :=
  { h with kept := fieldsKept_setFld g v hg h.kept }

theorem PickupWork.pushCmd (h : PickupWork p a c) (v arg : Q) : PickupWork p a (c.pushCmd p v arg) := by
  have hkept := fieldsKept_trans h.kept (fieldsKept_weaken (L' := parkFields p) (by simp [parkFields]) (fieldsKept_pushCmd c p v arg))
  rw [pushCmd_eq] at hkept ⊢
  exact { h with kept := hkept }

/-- The lanes' runs end. -/
theorem PickupWork.disarmLanes (h : PickupWork p a c) : PickupWork p a (c.disarmLanes p) :=
  List.foldlRecOn _ _ (motive := PickupWork p a) h fun _ hc _ _ => { hc with }

theorem PickupWork.disarmed_wch (c : Chip) (p q : Nat) : (c.disarmLanes p).wch q = c.wch q :=
  List.foldlRecOn _ _ (motive := fun c' : Chip => c'.wch q = c.wch q) rfl fun _ hc _ _ => hc

/-- With commands that wait on and nothing staged a volume is dropped within its pickup. -/
theorem PickupWork.dropVolume (h : PickupWork p a c) (hcmds : ∀ x ∈ c.host.cmds, ParkSpares x) (hresults : (c.wch p).results = []) (hstaged : c.buf.staged = []) :
    PickupWork p a (c.dropVolume p) := by
  have hwriting (d : Chip) (hd : ∀ x ∈ d.host.cmds, ParkSpares x) (hw : PickupWork p a d) : PickupWork p a (d.endWriting p) := by
    unfold Chip.endWriting
    split
    · exact hw
    · rw [settleFlushes_spared (by exact hd)]
      exact (hw.setVol _).setFld 0 (by simp [parkFields])
  unfold Chip.dropVolume
  simp only [hresults, List.filter_nil, List.foldl_nil]
  have hempty := h.setWch { c.wch p with items := [], results := [], queued := none, relocs := [] }
  have hcmds' : ∀ x ∈ (c.setWch p { c.wch p with items := [], results := [], queued := none, relocs := [] }).host.cmds, ParkSpares x := hcmds
  have hstaged' : (c.setWch p { c.wch p with items := [], results := [], queued := none, relocs := [] }).buf.staged = [] := hstaged
  generalize c.setWch p { c.wch p with items := [], results := [], queued := none, relocs := [] } = d at hempty hcmds' hstaged'
  have hunhand : PickupWork p a (d.unhand (d.discOf p)) :=
    { hempty with staged := fun _ => congrArg (List.map _) hstaged' }
  have hstate : PickupWork p a ((d.unhand (d.discOf p)).setVolState p vNotMounted) :=
    hwriting _ hcmds' (hunhand.setFld (g := WMM_STN_PU_VOLUME_STATE (p / 2) (p % 2)) vNotMounted (by simp [parkFields]))
  generalize (d.unhand (d.discOf p)).setVolState p vNotMounted = e at hstate
  have hlast := (hstate.setVol { volumeId := (c.vol p).volumeId, side := (c.vol p).side, ever := (c.vol p).ever }).setFld
    (g := WMM_STN_PU_LAYER_UNUSABLE (p / 2) (p % 2)) 0 (by simp [parkFields])
  exact { hlast with }

end

/-- A park does to an idle pickup only what ends its volume and retracts it. -/
theorem parkPickup_idle {c : Chip} {p : Nat} (h : ParkIdle c p) (cause : Nat) : ∃ d : Chip, c.parkPickup p cause = (d.dropVolume p).loopCmd p 0x07 0 ∧
    PickupWork p c d ∧ (d.wch p).results = [] := by
  have hcut : c.cutPass p = c := by simp [Chip.cutPass, h.pass]
  have hqueued : c.dropQueuedPass p = c := by simp [Chip.dropQueuedPass, h.queued]
  have hreads (o : Nat) : c.endReads p o = c.setFrm p { c.frm p with reqs := [], clusters := [] } := by
    simp [Chip.endReads, Chip.dropRetry, h.retry, h.reqs]
  unfold Chip.parkPickup
  simp only [hcut, hqueued, abandonCal_idle h.cal, hreads]
  have hwork : PickupWork p c ((c.setFrm p { c.frm p with reqs := [], clusters := [] }).disarmLanes p) :=
    ((PickupWork.refl p c).setFrm _).disarmLanes
  have hdisarm : (c.setFrm p { c.frm p with reqs := [], clusters := [] }).disarmLanes p =
      { c with path := ((c.setFrm p { c.frm p with reqs := [], clusters := [] }).disarmLanes p).path } :=
    List.foldlRecOn _ _ (motive := fun d : Chip => d = { c with path := d.path }) rfl fun d hd _ _ => by rw [hd]; rfl
  have hwch : ((c.setFrm p { c.frm p with reqs := [], clusters := [] }).disarmLanes p).wch p = c.wch p := PickupWork.disarmed_wch ..
  generalize (c.setFrm p { c.frm p with reqs := [], clusters := [] }).disarmLanes p = d at hwork hdisarm hwch
  have hspared : ∀ x ∈ d.host.cmds, ParkSpares x := by
    rw [hwork.cmds]
    exact h.cmds
  have hqual : (d.vol p).qual = none := by rw [hdisarm]; exact h.qual
  rw [loseCommands_spared hspared, hqual]
  exact ⟨d, rfl, hwork, by rw [hwch, h.results]⟩

theorem pickupWork_park {c : Chip} {p : Nat} (h : ParkIdle c p) (cause : Nat) : PickupWork p c (c.parkPickup p cause) := by
  obtain ⟨d, heq, hwork, hresults⟩ := parkPickup_idle h cause
  rw [heq]
  exact (hwork.dropVolume (by rw [hwork.cmds]; exact h.cmds) hresults (hwork.staged h.staged)).pushCmd _ _

/-- Work on one pickup leaves another idle. -/
theorem PickupWork.idle {p q : Nat} {c c' : Chip} (h : PickupWork p c c') (hq : q ≠ p) (hidle : ParkIdle c q) : ParkIdle c' q where
  pass := by rw [h.wch q hq, hidle.pass]
  queued := by rw [h.wch q hq, hidle.queued]
  results := by rw [h.wch q hq, hidle.results]
  cal := calIdle_of hidle.cal h.sup h.kept (by
    simp only [parkFields, List.forall_mem_cons, List.not_mem_nil, false_imp_iff, implies_true, and_true]
    refine ⟨apart_of_reg ?_, apart_of_reg ?_, apart_of_reg ?_, apart_of_reg ?_⟩ <;>
      simp only [CAL_PU_STATUS_CYCLE, CAL_PU_STATUS, WMM_STN_PU_VOLUME_STATE, WMM_STN_PU_LAYER_UNUSABLE, WMM_STN_PU, WCH_CTRL_EN, WCH_CTRL,
        LE_PAIR_EVENT_CMD_LOST, LE_PAIR_EVENT] <;> omega)
  reqs := by rw [h.frm q hq, hidle.reqs]
  retry := by rw [h.frm q hq, hidle.retry]
  qual := by rw [h.vol q hq, hidle.qual]
  cmds := by
    rw [h.cmds]
    exact hidle.cmds
  staged := h.staged hidle.staged

end Sys2Proof.Machine
end

section
/-! Proofs about clamp, park, escalation, qualification and speed of a station: O34. -/

namespace Sys2Proof.Machine

/-! ### A state that has been entered -/

/-- Station `s` has entered the state `new` from `old` with a cause, for the `n + 1`st change. -/
def Entered (s : Nat) (n : BitVec 8) (c : Chip) (new old cause : Nat) : Prop :=
  c.fld (WMM_STN_STATE_STATE s) = new ∧ c.fld (WMM_STN_STATE_PREV s) = old ∧ c.fld (WMM_STN_STATE_CAUSE s) = cause ∧
  c.flag (WMM_STN_STATE_UNCLAMP_ALLOWED s) = decide (new = sEmpty ∨ new = sLoaded ∨ new = sSafe) ∧
  c.flag (WMM_STN_EVENT_STATE_CHANGE s) = true ∧ (c.stn s).changes = n + 1

theorem StateChanged.entered {s new cause : Nat} {c c' : Chip} (h : StateChanged s new cause c c') : Entered s (c.stn s).changes c' new (c.stState s) cause := by
  refine ⟨h.state, h.prev, h.shown, ?_, h.event, by rw [h.stn]⟩
  rw [h.allowed, Bool.eq_iff_iff]
  simp [or_assoc]

/-- Work that leaves the fields of a change of state and the count alone. -/
theorem Entered.kept {s : Nat} {n : BitVec 8} {c c' : Chip} {new old cause : Nat} (h : Entered s n c new old cause) {L : List Fld}
    (hkept : c.fieldsKept L c') (hL : ∀ g ∈ L, ∀ f ∈ stateFields s, apart f g) (hstn : (c'.stn s).changes = (c.stn s).changes) :
    Entered s n c' new old cause := by
  obtain ⟨hstate, hprev, hcause, hallowed, hevent, hchanges⟩ := h
  have hfld (f : Fld) (hf : f ∈ stateFields s) : c'.fld f = c.fld f := hkept f (stateFields_fit s f hf) fun g hg => hL g hg f hf
  refine ⟨(hfld _ (by simp [stateFields])).trans hstate, (hfld _ (by simp [stateFields])).trans hprev, (hfld _ (by simp [stateFields])).trans hcause,
    (flag_eq_of_fld (hfld _ (by simp [stateFields]))).trans hallowed, (flag_eq_of_fld (hfld _ (by simp [stateFields]))).trans hevent,
    hstn.trans hchanges⟩

/-- A field of another register of a station, or of another register at all, lies apart from those of a change of state. -/
theorem stateFields_apart_reg {s : Nat} {g : Fld} (h₁ : g.reg ≠ WMM_STN_STATE s) (h₂ : g.reg ≠ WMM_STN_TIME s) (h₃ : g.reg ≠ WMM_STN_EVENT s) :
    ∀ f ∈ stateFields s, apart f g := by
  simp only [stateFields, List.forall_mem_cons, List.not_mem_nil, false_imp_iff, implies_true, and_true]
  exact ⟨apart_of_reg h₁.symm, apart_of_reg h₁.symm, apart_of_reg h₁.symm, apart_of_reg h₁.symm, apart_of_reg h₂.symm, apart_of_reg h₃.symm⟩

section
variable {s : State} {x : Station}

/-! ### Clamp -/

theorem completes_discComes (hst : s.chip.stState x = sEmpty) (hreq : s.chip.flag (WMM_STN_CTRL_CLAMP_REQ x) = true)
    (hfree : s.chip.flag (WMM_STN_STATE_CLAMPED x) = false) : Completes (.discPresentChange x true) s fun c =>
      c.flag (WMM_STN_STATE_DISC_PRESENT x) = true ∧ c.flag (WMM_STN_STATE_CLAMPED x) = true ∧ (c.stn x).settling = true ∧
      c.stState x = sEmpty ∧ s.chip.fieldsKept [WMM_STN_STATE_DISC_PRESENT x, WMM_STN_STATE_CLAMPED x] c ∧ s.chip.bytesKept c := by
  refine completes_on (f := fun c => c.discPresent x true) rfl ?_
  have hkept : s.chip.fieldsKept [WMM_STN_STATE_DISC_PRESENT x, WMM_STN_STATE_CLAMPED x] (s.chip.setFlag (WMM_STN_STATE_DISC_PRESENT x) true) :=
    fieldsKept_setFlag _ _ (by simp) (fieldsKept_refl _ _)
  have hbytes : s.chip.bytesKept (s.chip.setFlag (WMM_STN_STATE_DISC_PRESENT x) true) := bytesKept_of_eq rfl rfl rfl
  have hdisc : (s.chip.setFlag (WMM_STN_STATE_DISC_PRESENT x) true).flag (WMM_STN_STATE_DISC_PRESENT x) = true :=
    flag_setFlag_same _ _ _ (Nat.le_of_ble_eq_true rfl) rfl
  have hst' : (s.chip.setFlag (WMM_STN_STATE_DISC_PRESENT x) true).stState x = sEmpty :=
    (fld_setFld_apart _ _ _ _ (Nat.le_of_ble_eq_true rfl) (state_apart_disc x)).trans hst
  have hreq' : (s.chip.setFlag (WMM_STN_STATE_DISC_PRESENT x) true).flag (WMM_STN_CTRL_CLAMP_REQ x) = true :=
    (flag_setFlag_apart _ _ _ _ (Nat.le_of_ble_eq_true rfl) (req_apart_disc x)).trans hreq
  have hfree' : (s.chip.setFlag (WMM_STN_STATE_DISC_PRESENT x) true).flag (WMM_STN_STATE_CLAMPED x) = false :=
    (flag_setFlag_apart _ _ _ _ (Nat.le_of_ble_eq_true rfl) (clamped_apart_disc x)).trans hfree
  have heq : s.chip.discPresent x true = (s.chip.setFlag (WMM_STN_STATE_DISC_PRESENT x) true).clampRules x := by simp [Chip.discPresent]
  rw [heq]
  generalize s.chip.setFlag (WMM_STN_STATE_DISC_PRESENT x) true = d at hdisc hst' hreq' hfree' hkept hbytes
  rw [clampRules_drive hreq' hst' hdisc hfree', Chip.setClamped]
  refine ⟨?_, ?_, by rw [stn_setStn], ?_, ?_, bytesKept_trans hbytes (bytesKept_of_eq rfl rfl rfl)⟩
  · rw [flag_setStn, flag_setFlag_apart _ _ _ _ (Nat.le_of_ble_eq_true rfl) (disc_apart_clamped x), hdisc]
  · rw [flag_setStn, flag_setFlag_same _ _ _ (Nat.le_of_ble_eq_true rfl) rfl]
  · rw [Chip.stState, fld_setStn, Chip.setFlag, fld_setFld_apart _ _ _ _ (Nat.le_of_ble_eq_true rfl) (state_apart_clamped x)]
    exact hst'
  · exact fieldsKept_regs (setStn_regs ..) (fieldsKept_setFlag _ _ (by simp) hkept)

/-- A change of state after writes of flags of the station, which leave state and count as they are. -/
theorem entered_after {c : Chip} {n : Nat} {new cause : Nat} {L : List Fld} (hnew : new < 8) (hcause : cause < 32)
    (hkept : s.chip.fieldsKept L c) (hL : ∀ g ∈ L, apart (WMM_STN_STATE_STATE n) g)
    (hstn : (c.stn n).changes = (s.chip.stn n).changes) :
    Entered n (s.chip.stn n).changes (c.changeState n new cause) new (s.chip.stState n) cause := by
  have hst : c.stState n = s.chip.stState n := hkept (WMM_STN_STATE_STATE n) (Nat.le_of_ble_eq_true rfl) hL
  have h := (stateChanged c n hnew hcause).entered
  rwa [hstn, hst] at h

/-- Bits of a station that a change of state leaves. -/
theorem stateFields_apart_bits (n : Nat) : ∀ f ∈ [WMM_STN_STATE_CLAMPED n, WMM_STN_EVENT_DISC_LOST n, WMM_STN_CTRL_CLAMP_REQ n],
    ∀ g ∈ stateFields n, apart f g := by
  simp only [stateFields, List.forall_mem_cons, List.not_mem_nil, false_imp_iff, implies_true, and_true, apart, WMM_STN_STATE_CLAMPED,
    WMM_STN_EVENT_DISC_LOST, WMM_STN_CTRL_CLAMP_REQ, WMM_STN_CTRL, WMM_STN_STATE_PREV, WMM_STN_STATE_STATE, WMM_STN_STATE_CAUSE,
    WMM_STN_STATE_UNCLAMP_ALLOWED, WMM_STN_TIME_TIME, WMM_STN_EVENT_STATE_CHANGE, WMM_STN_STATE, WMM_STN_TIME, WMM_STN_EVENT]
  omega

theorem StateChanged.bit {n new cause : Nat} {c c' : Chip} (h : StateChanged n new cause c c') {f : Fld} (hfit : f.lo + f.w ≤ 64)
    (hf : f ∈ [WMM_STN_STATE_CLAMPED n, WMM_STN_EVENT_DISC_LOST n, WMM_STN_CTRL_CLAMP_REQ n]) : c'.flag f = c.flag f :=
  flag_eq_of_fld (h.kept f hfit (stateFields_apart_bits n f hf))

/-- The disc of station `n` is gone; the clamp is open and no longer asked for. -/
def Chip.discGone (c : Chip) (n : Nat) : Chip :=
  (((c.setFlag (WMM_STN_STATE_DISC_PRESENT n) false).mark (WMM_STN_EVENT_DISC_LOST n)).setClamped n false).setFld (WMM_STN_CTRL_CLAMP_REQ n) 0

theorem discPresent_gone {c : Chip} {n : Nat} (hst : c.stState n = sLoaded ∨ c.stState n = sSafe)
    (hclamped : c.flag (WMM_STN_STATE_CLAMPED n) = true) : c.discPresent n false = (c.discGone n).changeState n sEmpty cauDiscLost := by
  have hst' : (c.setFlag (WMM_STN_STATE_DISC_PRESENT n) false).stState n = c.stState n :=
    fld_setFld_apart _ _ _ _ (Nat.le_of_ble_eq_true rfl) (state_apart_disc n)
  have hclamped' : (c.setFlag (WMM_STN_STATE_DISC_PRESENT n) false).flag (WMM_STN_STATE_CLAMPED n) = true :=
    (flag_setFlag_apart _ _ _ _ (Nat.le_of_ble_eq_true rfl) (clamped_apart_disc n)).trans hclamped
  have hfull : (c.setFlag (WMM_STN_STATE_DISC_PRESENT n) false).stState n ≠ sEmpty := by
    rw [hst']
    rcases hst with h | h <;> simp [h, sEmpty, sLoaded, sSafe]
  rw [Chip.discPresent]
  dsimp only
  rw [if_pos (by simp [hclamped']), if_neg hfull, if_pos (by rwa [hst'])]
  rfl

theorem discGone_kept (c : Chip) (n : Nat) : c.fieldsKept [WMM_STN_STATE_DISC_PRESENT n, WMM_STN_EVENT_DISC_LOST n, WMM_STN_STATE_CLAMPED n,
    WMM_STN_CTRL_CLAMP_REQ n] (c.discGone n) :=
  fieldsKept_setFld _ _ (by simp) (fieldsKept_setFlag _ _ (by simp) (fieldsKept_mark _ (by simp) (fieldsKept_setFlag _ _ (by simp) (fieldsKept_refl _ _))))

theorem discGone_regsOnly (c : Chip) (n : Nat) : c.regsOnly (c.discGone n) :=
  regsOnly_setFld _ _ (regsOnly_setFlag _ _ (regsOnly_mark _ (regsOnly_setFlag _ _ (regsOnly_refl c))))

theorem host_of_regsOnly {a c : Chip} (h : a.regsOnly c) : c.host = a.host := by rw [h]

theorem stn_of_regsOnly {a c : Chip} (h : a.regsOnly c) (n : Nat) : c.stn n = a.stn n := by rw [h]; rfl

theorem flag_discGone (c : Chip) (n : Nat) : (c.discGone n).flag (WMM_STN_STATE_CLAMPED n) = false ∧
    (c.discGone n).flag (WMM_STN_EVENT_DISC_LOST n) = true ∧ (c.discGone n).flag (WMM_STN_CTRL_CLAMP_REQ n) = false := by
  unfold Chip.discGone Chip.setClamped
  refine ⟨?_, ?_, flag_setFld_zero _ _ (Nat.le_of_ble_eq_true rfl)⟩
  · rw [flag_setFld_apart _ _ _ _ (Nat.le_of_ble_eq_true rfl) (clamped_apart_req n), flag_setFlag_same _ _ _ (Nat.le_of_ble_eq_true rfl) rfl]
  · rw [flag_setFld_apart _ _ _ _ (Nat.le_of_ble_eq_true rfl) (lost_apart_req n),
      flag_setFlag_apart _ _ _ _ (Nat.le_of_ble_eq_true rfl) (lost_apart_clamped n), flag_mark_same _ _ (Nat.le_of_ble_eq_true rfl) Nat.one_pos]

theorem completes_discLost (hst : s.chip.stState x = sLoaded ∨ s.chip.stState x = sSafe)
    (hclamped : s.chip.flag (WMM_STN_STATE_CLAMPED x) = true) : Completes (.discPresentChange x false) s fun c =>
      Entered x (s.chip.stn x).changes c sEmpty (s.chip.stState x) cauDiscLost ∧ c.flag (WMM_STN_STATE_CLAMPED x) = false ∧
      c.flag (WMM_STN_EVENT_DISC_LOST x) = true ∧ c.flag (WMM_STN_CTRL_CLAMP_REQ x) = false ∧ s.chip.bytesKept c := by
  refine completes_on (f := fun c => c.discPresent x false) rfl ?_
  rw [discPresent_gone hst hclamped]
  have hgone := discGone_regsOnly s.chip x
  have hchanged := stateChanged (s.chip.discGone x) x (new := sEmpty) (cause := cauDiscLost) (by decide)
    (by decide)
  obtain ⟨hopen, hlost, hreq⟩ := flag_discGone s.chip x
  refine ⟨?_, (hchanged.bit (Nat.le_of_ble_eq_true rfl) (by simp)).trans hopen, (hchanged.bit (Nat.le_of_ble_eq_true rfl) (by simp)).trans hlost,
    (hchanged.bit (Nat.le_of_ble_eq_true rfl) (by simp)).trans hreq, bytesKept_trans (bytesKept_of_regsOnly hgone) hchanged.bytes⟩
  refine entered_after (by decide) (by decide) (discGone_kept s.chip x) ?_ (by rw [stn_of_regsOnly hgone])
  simp only [List.forall_mem_cons, List.not_mem_nil, false_imp_iff, implies_true, and_true]
  exact ⟨state_apart_disc x, state_apart_lost x, state_apart_clamped x, state_apart_req x⟩

theorem completes_settled (hsettling : (s.chip.stn x).settling = true) (hst : s.chip.stState x = sEmpty)
    (hreq : s.chip.flag (WMM_STN_CTRL_CLAMP_REQ x) = true) : Completes (.clampSettled x) s fun c =>
      Entered x (s.chip.stn x).changes c sLoaded sEmpty cauClamp ∧ (c.stn x).settling = false ∧ s.chip.bytesKept c := by
  refine completes_event (b := (s.chip.stn x).settling && s.chip.stState x == sEmpty)
    (f := fun c => ((c.setStn x { c.stn x with settling := false }).changeState x sLoaded cauClamp).clampRules x) rfl (by simp [hsettling, hst]) ?_
  have hchanged := stateChanged (s.chip.setStn x { s.chip.stn x with settling := false }) x (new := sLoaded) (cause := cauClamp)
    (by decide) (by decide)
  have hentered := entered_after (c := s.chip.setStn x { s.chip.stn x with settling := false }) (n := x) (new := sLoaded) (cause := cauClamp) (L := [])
    (by decide) (by decide) (fieldsKept_of_regs rfl) (by simp) (by rw [stn_setStn])
  rw [hst] at hentered
  rw [clampRules_held ((hchanged.bit (Nat.le_of_ble_eq_true rfl) (by simp)).trans hreq) (by rw [hchanged.state]; decide)]
  exact ⟨hentered, by rw [hchanged.stn, stn_setStn], bytesKept_trans (bytesKept_of_eq rfl rfl rfl) hchanged.bytes⟩

/-- A request is a write of its bit, perhaps an event, and then the rules of the clamp. -/
theorem clampReq_eq (c : Chip) (n : Nat) (v : Bool) : ∃ late hold, c.clampReq n v =
    ((c.clampBits n v late).setStn n { (c.clampBits n v late).stn n with holdClamp := hold }).clampRules n ∧
      (c.stState n ≠ sParking → hold = false) ∧ (v = false → c.stState n = sMounted → late = true) := by
  have hst : (c.setFlag (WMM_STN_CTRL_CLAMP_REQ n) v).stState n = c.stState n :=
    fld_setFld_apart _ _ _ _ (Nat.le_of_ble_eq_true rfl) (state_apart_req n)
  refine ⟨_, _, rfl, fun hpark => ?_, fun hv hmounted => ?_⟩
  · simp [hst, hpark]
  · subst hv
    simp [hst, hmounted]

theorem completes_released (hst : s.chip.stState x = sLoaded ∨ s.chip.stState x = sSafe) :
    Completes (.clampReq x false) s fun c => Entered x (s.chip.stn x).changes c sEmpty (s.chip.stState x) cauUnclamp ∧
      c.flag (WMM_STN_STATE_CLAMPED x) = false ∧ s.chip.bytesKept c := by
  refine completes_on (f := fun c => c.clampReq x false) rfl ?_
  obtain ⟨late, hold, heq, hhold, -⟩ := clampReq_eq s.chip x false
  have hbits := fieldsKept_clampBits s.chip x false late
  have hregs : s.chip.regsOnly (s.chip.clampBits x false late) := by
    cases late <;> rfl
  have hst' := stState_clampBits s.chip x false late
  have hreq := flag_clampBits_same s.chip x false late
  have hhold' : hold = false := hhold (by rcases hst with h | h <;> simp [h, sParking, sLoaded, sSafe])
  rw [heq]
  generalize s.chip.clampBits x false late = d at hbits hregs hst' hreq
  rw [clampRules_release (by rw [flag_setStn]; exact hreq) (by rw [Chip.stState, fld_setStn, ← Chip.stState, hst']; exact hst) (by rw [stn_setStn, hhold'])]
  have hd : s.chip.fieldsKept (WMM_STN_STATE_CLAMPED x :: clampReqFields x) ((d.setStn x { d.stn x with holdClamp := hold }).setClamped x false) :=
    fieldsKept_setFlag _ _ (by simp) (fieldsKept_regs (setStn_regs ..) (fieldsKept_weaken (fun _ h => List.mem_cons_of_mem _ h) hbits))
  have hchanges : (((d.setStn x { d.stn x with holdClamp := hold }).setClamped x false).stn x).changes = (s.chip.stn x).changes := by
    show ((d.setStn x { d.stn x with holdClamp := hold }).stn x).changes = _
    rw [stn_setStn, stn_of_regsOnly hregs]
  have hopen : ((d.setStn x { d.stn x with holdClamp := hold }).setClamped x false).flag (WMM_STN_STATE_CLAMPED x) = false :=
    flag_setFlag_same _ _ _ (Nat.le_of_ble_eq_true rfl) rfl
  have hbytes : s.chip.bytesKept ((d.setStn x { d.stn x with holdClamp := hold }).setClamped x false) :=
    bytesKept_trans (bytesKept_of_regsOnly hregs) (bytesKept_of_eq rfl rfl rfl)
  generalize (d.setStn x { d.stn x with holdClamp := hold }).setClamped x false = e at hd hchanges hopen hbytes
  have hchanged := stateChanged e x (new := sEmpty) (cause := cauUnclamp) (by decide) (by decide)
  refine ⟨entered_after (by decide) (by decide) hd ?_ hchanges, (hchanged.bit (Nat.le_of_ble_eq_true rfl) (by simp)).trans hopen,
    bytesKept_trans hbytes hchanged.bytes⟩
  exact List.forall_mem_cons.2 ⟨state_apart_clamped x, stState_apart_clampReqFields x⟩

theorem completes_releaseDeferred (hst : s.chip.stState x = sMounted) : Completes (.clampReq x false) s fun c =>
    c.flag (WMM_STN_EVENT_UNCLAMP_DEFERRED x) = true ∧ c.stState x = sMounted ∧
      s.chip.fieldsKept [WMM_STN_EVENT_UNCLAMP_DEFERRED x, WMM_STN_CTRL_CLAMP_REQ x] c ∧ s.chip.bytesKept c := by
  refine completes_on (f := fun c => c.clampReq x false) rfl ?_
  obtain ⟨late, hold, heq, -, hlate⟩ := clampReq_eq s.chip x false
  obtain rfl := hlate rfl hst
  have hbits := fieldsKept_clampBits s.chip x false true
  have hst' := (stState_clampBits s.chip x false true).trans hst
  have hreq := flag_clampBits_same s.chip x false true
  have hdeferred : (s.chip.clampBits x false true).flag (WMM_STN_EVENT_UNCLAMP_DEFERRED x) = true :=
    flag_mark_same (s.chip.setFlag (WMM_STN_CTRL_CLAMP_REQ x) false) _ (Nat.le_of_ble_eq_true rfl) Nat.one_pos
  have hregs : s.chip.regsOnly (s.chip.clampBits x false true) := rfl
  rw [heq]
  generalize s.chip.clampBits x false true = d at hbits hst' hreq hdeferred hregs
  rw [clampRules_stay (by rw [flag_setStn]; exact hreq) (by rw [Chip.stState, fld_setStn]; rw [Chip.stState] at hst'; rw [hst']; decide)]
  refine ⟨by rw [flag_setStn]; exact hdeferred, by rw [Chip.stState, fld_setStn]; exact hst', ?_, ?_⟩
  · exact fieldsKept_regs (setStn_regs ..) (fieldsKept_weaken (by simp [clampReqFields]) hbits)
  · exact bytesKept_trans (bytesKept_of_regsOnly hregs) (bytesKept_setStn ..)

end

/-! ### Park -/

/-- Idle work stays idle where the pickup's own units, the calibration and the commands are as they were. -/
theorem ParkIdle.of {c c' : Chip} {p : Nat} (h : ParkIdle c p) (hpath : c'.path = c.path) (hcal : c'.cal p = c.cal p) (hvol : c'.vol p = c.vol p)
    (hcycle : c'.fld (CAL_PU_STATUS_CYCLE p) = c.fld (CAL_PU_STATUS_CYCLE p)) (hcmds : c'.host.cmds = c.host.cmds) (hbuf : c'.buf = c.buf) : ParkIdle c' p where
  pass := by rw [Chip.wch, hpath]; exact h.pass
  queued := by rw [Chip.wch, hpath]; exact h.queued
  results := by rw [Chip.wch, hpath]; exact h.results
  cal := ⟨hcycle.trans h.cal.1, by rw [hcal, h.cal.2]⟩
  reqs := by rw [Chip.frm, hpath]; exact h.reqs
  retry := by rw [Chip.frm, hpath]; exact h.retry
  qual := by rw [hvol, h.qual]
  cmds := by
    rw [hcmds]
    exact h.cmds
  staged := by rw [hbuf, h.staged]

section
variable {c : Chip} {n cause : Nat}

theorem parks_apart (n : Nat) : ∀ f ∈ stateFields n, apart f (WMM_STN_PARKS_COUNT n) :=
  stateFields_apart_reg (by simp only [WMM_STN_PARKS_COUNT, WMM_STN_PARKS, WMM_STN_STATE]; omega)
    (by simp only [WMM_STN_PARKS_COUNT, WMM_STN_PARKS, WMM_STN_TIME]; omega) (by simp only [WMM_STN_PARKS_COUNT, WMM_STN_PARKS, WMM_STN_EVENT]; omega)

/-- The station's part of a park: the state, the cause, the first step and the count. -/
theorem parkBegun_spec (hcause : cause < 32) :
    Entered n (c.stn n).changes (c.parkBegun n cause) sParking (c.stState n) cause ∧ ((c.parkBegun n cause).stn n).causes = [cause] ∧
      ((c.parkBegun n cause).stn n).parkStep = 2 ∧
      (c.parkBegun n cause).fld (WMM_STN_PARKS_COUNT n) = min (c.fld (WMM_STN_PARKS_COUNT n) + 1) (2 ^ (WMM_STN_PARKS_COUNT n).w - 1) := by
  have hchanged := stateChanged (c.journal actPark n) n (new := sParking) (cause := cause) (by decide) hcause
  have hentered := hchanged.entered
  have hstn : (c.journal actPark n).stn n = c.stn n := by rw [Chip.stn, journal_servo, Chip.stn]
  have hst : (c.journal actPark n).stState n = c.stState n := fld_of_regs (journal_regs ..) _
  rw [hstn, hst] at hentered
  have hparks : ((c.journal actPark n).changeState n sParking cause).fld (WMM_STN_PARKS_COUNT n) = c.fld (WMM_STN_PARKS_COUNT n) :=
    (hchanged.kept _ (Nat.le_of_ble_eq_true rfl) fun g hg => apart_symm (parks_apart n g hg)).trans (fld_of_regs (journal_regs ..) _)
  unfold Chip.parkBegun
  generalize (c.journal actPark n).changeState n sParking cause = d at hentered hparks
  refine ⟨hentered.kept (L := [WMM_STN_PARKS_COUNT n]) ?_ ?_ ?_, ?_, ?_, ?_⟩
  · exact fieldsKept_inc _ (by simp) (fieldsKept_regs (setStn_regs ..) (fieldsKept_refl _ _))
  · exact fun g hg f hf => by rw [List.mem_singleton.1 hg]; exact parks_apart n f hf
  · show ((d.setStn n _).stn n).changes = _
    rw [stn_setStn]
  · exact congrArg StationRec.causes (stn_setStn ..)
  · exact congrArg StationRec.parkStep (stn_setStn ..)
  · rw [fld_inc_same _ _ (Nat.le_of_ble_eq_true rfl), fld_setStn, hparks]

theorem cycle_apart (p n : Nat) : ∀ f ∈ stateFields n, apart f (CAL_PU_STATUS_CYCLE p) :=
  stateFields_apart_reg (by simp only [CAL_PU_STATUS_CYCLE, CAL_PU_STATUS, WMM_STN_STATE]; omega)
    (by simp only [CAL_PU_STATUS_CYCLE, CAL_PU_STATUS, WMM_STN_TIME]; omega) (by simp only [CAL_PU_STATUS_CYCLE, CAL_PU_STATUS, WMM_STN_EVENT]; omega)

theorem parkIdle_begun (hcause : cause < 32) {p : Nat} (h : ParkIdle c p) : ParkIdle (c.parkBegun n cause) p := by
  have hchanged := stateChanged (c.journal actPark n) n (new := sParking) (cause := cause) (by decide) hcause
  have hthermal : ((c.journal actPark n).changeState n sParking cause).sup.thermal = c.sup.thermal := by rw [hchanged.sup, journal_sup]
  have hvols : ((c.journal actPark n).changeState n sParking cause).servo.vols = c.servo.vols := by rw [hchanged.servo, journal_servo]
  have hcycle : ((c.journal actPark n).changeState n sParking cause).fld (CAL_PU_STATUS_CYCLE p) = c.fld (CAL_PU_STATUS_CYCLE p) :=
    (hchanged.kept _ (Nat.le_of_ble_eq_true rfl) fun g hg => apart_symm (cycle_apart p n g hg)).trans (fld_of_regs (journal_regs ..) _)
  have hpath := hchanged.path.trans (journal_path ..)
  have hhost : ((c.journal actPark n).changeState n sParking cause).host.cmds = c.host.cmds := by rw [hchanged.host, journal_cmds]
  have hbuf := hchanged.buf.trans (journal_buf ..)
  unfold Chip.parkBegun
  generalize (c.journal actPark n).changeState n sParking cause = d at hthermal hvols hcycle hpath hhost hbuf
  refine h.of hpath ?_ ?_ ?_ hhost hbuf
  · show Cells.get (fun _ => {}) d.sup.thermal.cycles p = _
    rw [hthermal]
    rfl
  · show Cells.get (fun _ => {}) d.servo.vols p = _
    rw [hvols]
    rfl
  · refine (fld_inc_apart _ _ _ (Nat.le_of_ble_eq_true rfl) (apart_of_reg ?_)).trans hcycle
    simp only [CAL_PU_STATUS_CYCLE, CAL_PU_STATUS, WMM_STN_PARKS_COUNT, WMM_STN_PARKS]; omega

/-- The fields that the park of an idle station's pickups may change lie apart from those of the change of state and from the count. -/
theorem parkFields_apart {p : Nat} (hp : p / 2 = n) : ∀ g ∈ WMM_STN_STATE_MOUNT_STEP n :: parkFields p,
    (∀ f ∈ stateFields n, apart f g) ∧ apart (WMM_STN_PARKS_COUNT n) g := by
  simp only [parkFields, stateFields, List.forall_mem_cons, List.not_mem_nil, false_imp_iff, implies_true, and_true, apart, WMM_STN_STATE_MOUNT_STEP,
    WMM_STN_PU_VOLUME_STATE, WCH_CTRL_EN, WMM_STN_PU_LAYER_UNUSABLE, LE_PAIR_EVENT_CMD_LOST, WMM_STN_PARKS_COUNT, WMM_STN_STATE_PREV, WMM_STN_STATE_STATE,
    WMM_STN_STATE_CAUSE, WMM_STN_STATE_UNCLAMP_ALLOWED, WMM_STN_TIME_TIME, WMM_STN_EVENT_STATE_CHANGE, WMM_STN_STATE, WMM_STN_TIME, WMM_STN_EVENT,
    WMM_STN_PARKS, WMM_STN_PU, WCH_CTRL, LE_PAIR_EVENT]
  omega

theorem showStep_eq (c : Chip) (n : Nat) : ∃ v, c.showStep n = c.setFld (WMM_STN_STATE_MOUNT_STEP n) v := ⟨_, rfl⟩

/-- A park of a station whose pickups are idle. -/
theorem parked_idle (hcause : cause < 32) (hst : c.stState n = sMounted)
    (hidle : ∀ p, p / 2 = n → ParkIdle c p) : Entered n (c.stn n).changes (c.park n cause) sParking sMounted cause ∧
      ((c.park n cause).stn n).causes = [cause] ∧ ((c.park n cause).stn n).parkStep = 2 ∧
      (c.park n cause).fld (WMM_STN_PARKS_COUNT n) = min (c.fld (WMM_STN_PARKS_COUNT n) + 1) (2 ^ (WMM_STN_PARKS_COUNT n).w - 1) := by
  obtain ⟨hentered, hcauses, hstep, hcount⟩ := parkBegun_spec (n := n) hcause
  have hidle₀ := parkIdle_begun (n := n) hcause (hidle (2 * n) (by omega))
  have hidle₁ := parkIdle_begun (n := n) hcause (hidle (2 * n + 1) (by omega))
  rw [park_begins (by simp [hst]), List.foldl_cons, List.foldl_cons, List.foldl_nil]
  generalize c.parkBegun n cause = d at hentered hcauses hstep hcount hidle₀ hidle₁
  have hwork₀ := pickupWork_park hidle₀ cause
  have hwork₁ := pickupWork_park (hwork₀.idle (by omega) hidle₁) cause
  obtain ⟨v, hshow⟩ := showStep_eq ((d.parkPickup (2 * n) cause).parkPickup (2 * n + 1) cause) n
  rw [hshow]
  generalize (d.parkPickup (2 * n) cause).parkPickup (2 * n + 1) cause = e at hwork₁
  have hstn : (e.setFld (WMM_STN_STATE_MOUNT_STEP n) v).stn n = d.stn n := by
    show Cells.get _ e.servo.stations n = _
    rw [hwork₁.stn, hwork₀.stn]
    rfl
  have hkept : d.fieldsKept (WMM_STN_STATE_MOUNT_STEP n :: (parkFields (2 * n) ++ parkFields (2 * n + 1)))
      (e.setFld (WMM_STN_STATE_MOUNT_STEP n) v) := by
    refine fieldsKept_setFld _ _ (by simp) (fieldsKept_trans (fieldsKept_weaken ?_ hwork₀.kept) (fieldsKept_weaken ?_ hwork₁.kept))
    · exact fun g hg => List.mem_cons_of_mem _ (List.mem_append_left _ hg)
    · exact fun g hg => List.mem_cons_of_mem _ (List.mem_append_right _ hg)
  have hapart : ∀ g ∈ WMM_STN_STATE_MOUNT_STEP n :: (parkFields (2 * n) ++ parkFields (2 * n + 1)),
      (∀ f ∈ stateFields n, apart f g) ∧ apart (WMM_STN_PARKS_COUNT n) g := by
    intro g hg
    simp only [List.mem_cons, List.mem_append] at hg
    rcases hg with h | h | h
    · exact parkFields_apart (p := 2 * n) (by omega) g (List.mem_cons.2 (.inl h))
    · exact parkFields_apart (by omega) g (List.mem_cons.2 (.inr h))
    · exact parkFields_apart (by omega) g (List.mem_cons.2 (.inr h))
  have hcounts := hkept (WMM_STN_PARKS_COUNT n) (Nat.le_of_ble_eq_true rfl) fun g hg => (hapart g hg).2
  rw [hst] at hentered
  exact ⟨hentered.kept hkept (fun g hg => (hapart g hg).1) (by rw [hstn]), by rw [hstn, hcauses], by rw [hstn, hstep], hcounts.trans hcount⟩

end

/-- Of a pass over numbers, only the step at `x` acts. -/
theorem foldl_range_one {α : Type} {f : α → Nat → α} {m x : Nat} (hx : x < m) (h : ∀ k, k ≠ x → ∀ a, f a k = a) (a : α) :
    (List.range m).foldl f a = f a x := by
  obtain ⟨before, after, hrange, hbefore⟩ := List.eq_append_cons_of_mem (List.mem_range.2 hx)
  have hafter : x ∉ after := by
    have hnodup := hrange ▸ (List.nodup_range (n := m))
    exact (List.nodup_cons.1 (List.nodup_append.1 hnodup).2.1).1
  rw [hrange, List.foldl_append, List.foldl_cons, foldl_eq_of_fixed fun k hk => h k (fun heq => hbefore (heq ▸ hk)) a,
    foldl_eq_of_fixed fun k hk => h k (fun heq => hafter (heq ▸ hk)) _]

/-- The mask of one station parks that station. -/
theorem lpPark_one (c : Chip) (x : Station) : c.lpPark (BitVec.ofNat 8 (2 ^ x.val)).toNat = c.park x cauLibraryPark := by
  have hmask : (BitVec.ofNat 8 (2 ^ x.val)).toNat = 2 ^ x.val := by
    rw [BitVec.toNat_ofNat, Nat.mod_eq_of_lt (Nat.pow_lt_pow_right (by decide) x.isLt)]
  rw [Chip.lpPark, hmask]
  refine (foldl_range_one x.isLt (fun k hk a => if_neg ?_) c).trans (if_pos (Nat.testBit_two_pow_self))
  simp [hk.symm]

theorem completes_park {s : State} {x : Station} {i : Instr} {cause : Nat} {P : Chip → Prop}
    (hi : (i = .hostPark x ∧ cause = cauHostPark) ∨ (i = .lpPark (BitVec.ofNat 8 (2 ^ x.val)) ∧ cause = cauLibraryPark))
    (hP : P (s.chip.park x cause)) : Completes i s P := by
  rcases hi with ⟨rfl, rfl⟩ | ⟨rfl, rfl⟩
  · exact completes_on (f := fun c => c.park x cauHostPark) rfl hP
  · refine completes_on (f := fun c => c.lpPark (BitVec.ofNat 8 (2 ^ x.val)).toNat) rfl ?_
    rwa [lpPark_one]

section
variable {s : State} {x : Station}

/-! ### The steps of a park -/

/-- What follows the spindle's BRAKE in a park: the sleds are sent home or turned off. -/
structure Braking (n : Nat) (a c : Chip) : Prop where
  front : (c.pair (16 + n)).cmds.take 1 = [(2, 0)]
  stn : c.stn n = a.stn n
  state : c.stState n = a.stState n
  bytes : a.bytesKept c

theorem Braking.pushed {n : Nat} {a c : Chip} (h : Braking n a c) (v arg : Q) : Braking n a (c.pushCmd (16 + n) v arg) :=
  ⟨head_pushCmd c _ v arg h.front, (stn_pushCmd ..).trans h.stn, (stState_pushCmd ..).trans h.state, bytesKept_trans h.bytes (bytesKept_pushCmd ..)⟩

theorem Braking.aimed {n : Nat} {a c : Chip} (h : Braking n a c) (p v : Nat) : Braking n a (c.setFld (MOT_AX_TARGET_TARGET p) v) where
  front := h.front
  stn := h.stn
  state := by
    rw [Chip.stState, fld_setFld_apart _ _ _ _ (Nat.le_of_ble_eq_true rfl) (apart_of_reg ?_)]
    · exact h.state
    · simp only [WMM_STN_STATE_STATE, WMM_STN_STATE, MOT_AX_TARGET_TARGET, MOT_AX_TARGET]; omega
  bytes := h.bytes

theorem braking_parkBrake {c : Chip} {n : Nat} (hcmds : (c.pair (16 + n)).cmds = []) :
    Braking n (c.setStn n { c.stn n with parkStep := 3 }) (c.parkBrake n) := by
  unfold Chip.parkBrake
  have hpair : ((c.setStn n { c.stn n with parkStep := 3 }).pair (16 + n)).cmds = [] := hcmds
  generalize c.setStn n { c.stn n with parkStep := 3 } = d at hpair
  have hbrake : Braking n d (d.motionCmd n 0x02 0) := by
    refine ⟨?_, stn_pushCmd .., stState_pushCmd .., bytesKept_pushCmd ..⟩
    rw [Chip.motionCmd, pushCmd_room _ _ _ _ (by simp [hpair]), pair_setPair, hpair]
    rfl
  refine List.foldlRecOn (motive := Braking n d) _ _ hbrake fun e he k _ => ?_
  dsimp only
  split
  · exact (he.pushed _ _).aimed _ _
  · exact he.pushed _ _

theorem completes_retractDone (hst : s.chip.stState x = sParking) (hstep : (s.chip.stn x).parkStep = 2)
    (hcmds : (s.chip.pair (16 + x)).cmds = []) : Completes (.parkRetractDone x true) s fun c =>
      (c.stn x).parkStep = 3 ∧ (c.pair (16 + x)).cmds.take 1 = [(2, 0)] ∧ c.stState x = sParking ∧ s.chip.bytesKept c := by
  refine completes_event (f := fun c => c.parkBrake x) rfl (by simp [hst, hstep]) ?_
  have hbrake := braking_parkBrake hcmds
  exact ⟨by rw [hbrake.stn, stn_setStn], hbrake.front, hbrake.state.trans hst, bytesKept_trans (bytesKept_setStn ..) hbrake.bytes⟩

/-- A SAFE station that holds its clamp and for which nothing waits goes on as it is. -/
theorem wakeStation_safe {e : Chip} {n : Nat} (hsafe : e.stState n = sSafe) (hreq : e.flag (WMM_STN_CTRL_CLAMP_REQ n) = true)
    (hwait : (e.stn n).waiters = []) : ∃ st₀ st, e.wakeStation n = (e.setStn n st₀).setStn n st ∧ st.changes = (e.stn n).changes ∧
      st.parkStep = (e.stn n).parkStep ∧ st.causes = (e.stn n).causes := by
  refine ⟨{ e.stn n with waiters := [] }, { e.stn n with waiters := [], holdClamp := false }, ?_, rfl, rfl, rfl⟩
  rw [Chip.wakeStation]
  simp only [hwait, List.foldl_nil, stn_setStn]
  exact clampRules_held hreq (by rw [Chip.stState, fld_setStn, fld_setStn, ← Chip.stState, hsafe]; decide)

/-- Without a fault, a reset or a waiter a park ends in SAFE. -/
theorem parkEnd_safe {c : Chip} {n : Nat} (hst : c.stState n = sParking) (hcauses : (c.stn n).causes.any faultCause = false)
    (hreset : (c.stn n).reset = false) (hwait : (c.stn n).waiters = []) (hhold : (c.stn n).holdClamp = false)
    (hreq : c.flag (WMM_STN_CTRL_CLAMP_REQ n) = true) :
    Entered n (c.stn n).changes (c.parkEnd n) sSafe sParking (c.fld (WMM_STN_STATE_CAUSE n)) ∧ ((c.parkEnd n).stn n).parkStep = 0 ∧
      ((c.parkEnd n).stn n).causes = [] ∧ c.bytesKept (c.parkEnd n) := by
  have hbytes : c.bytesKept ((c.loopCmd (2 * n) 0x07 1).loopCmd (2 * n + 1) 0x07 1) := bytesKept_trans (bytesKept_pushCmd ..) (bytesKept_pushCmd ..)
  have hstn : ((c.loopCmd (2 * n) 0x07 1).loopCmd (2 * n + 1) 0x07 1).stn n = c.stn n := (stn_pushCmd ..).trans (stn_pushCmd ..)
  have hstate : ((c.loopCmd (2 * n) 0x07 1).loopCmd (2 * n + 1) 0x07 1).stState n = c.stState n := (stState_pushCmd ..).trans (stState_pushCmd ..)
  have hcause : ((c.loopCmd (2 * n) 0x07 1).loopCmd (2 * n + 1) 0x07 1).fld (WMM_STN_STATE_CAUSE n) = c.fld (WMM_STN_STATE_CAUSE n) :=
    (fld_pushCmd _ _ _ _ rfl (Nat.le_of_ble_eq_true rfl)).trans (fld_pushCmd _ _ _ _ rfl (Nat.le_of_ble_eq_true rfl))
  have hlost (q : Nat) : apart (WMM_STN_CTRL_CLAMP_REQ n) (LE_PAIR_EVENT_CMD_LOST q) :=
    apart_of_reg (by simp only [WMM_STN_CTRL_CLAMP_REQ, WMM_STN_CTRL, LE_PAIR_EVENT_CMD_LOST, LE_PAIR_EVENT]; omega)
  have hreq' : ((c.loopCmd (2 * n) 0x07 1).loopCmd (2 * n + 1) 0x07 1).flag (WMM_STN_CTRL_CLAMP_REQ n) = true :=
    (flag_eq_of_fld ((fieldsKept_pushCmd _ _ _ _ _ (Nat.le_of_ble_eq_true rfl) (by simpa using hlost _)).trans
      (fieldsKept_pushCmd _ _ _ _ _ (Nat.le_of_ble_eq_true rfl) (by simpa using hlost _)))).trans hreq
  unfold Chip.parkEnd
  generalize (c.loopCmd (2 * n) 0x07 1).loopCmd (2 * n + 1) 0x07 1 = d at hbytes hstn hstate hcause hreq'
  dsimp only
  rw [hcauses, hreset, hcause]
  simp only [Bool.false_eq_true, if_false]
  have hstopped : (d.setStn n { d.stn n with parkStep := 0, causes := [] }).stn n = { c.stn n with parkStep := 0, causes := [] } := by
    rw [stn_setStn, hstn]
  have hparking : (d.setStn n { d.stn n with parkStep := 0, causes := [] }).stState n = sParking := by
    rw [Chip.stState, fld_setStn, ← Chip.stState, hstate, hst]
  have hbytes' : c.bytesKept (d.setStn n { d.stn n with parkStep := 0, causes := [] }) := bytesKept_trans hbytes (bytesKept_setStn ..)
  have hreq'' : (d.setStn n { d.stn n with parkStep := 0, causes := [] }).flag (WMM_STN_CTRL_CLAMP_REQ n) = true := by
    rw [flag_setStn, hreq']
  generalize d.setStn n { d.stn n with parkStep := 0, causes := [] } = e at hstopped hparking hbytes' hreq''
  have hchanged := stateChanged e n (new := sSafe) (cause := c.fld (WMM_STN_STATE_CAUSE n)) (by decide)
    (fld_lt c (WMM_STN_STATE_CAUSE n))
  have hreqAfter := (hchanged.bit (f := WMM_STN_CTRL_CLAMP_REQ n) (Nat.le_of_ble_eq_true rfl) (by simp)).trans hreq''
  have hafter := hchanged.stn
  rw [hstopped] at hafter
  obtain ⟨st₀, st, hwake, hchanges, hstep, hcs⟩ := wakeStation_safe hchanged.state hreqAfter (by rw [hafter]; exact hwait)
  rw [hafter, clampRules_held hreqAfter (by rw [hchanged.state]; decide)]
  simp only [hhold, Bool.false_eq_true, if_false]
  have hentered := hchanged.entered
  rw [hparking, hstopped] at hentered
  rw [hwake]
  refine ⟨hentered.kept (L := []) (fieldsKept_regs (setStn_regs ..) (fieldsKept_regs (setStn_regs ..) (fieldsKept_refl _ _))) (by simp)
    (by rw [stn_setStn, hchanges]), ?_, ?_, ?_⟩
  · rw [stn_setStn, hstep, hafter]
  · rw [stn_setStn, hcs, hafter]
  · exact bytesKept_trans (bytesKept_trans (bytesKept_trans hbytes' hchanged.bytes) (bytesKept_setStn ..)) (bytesKept_setStn ..)

theorem completes_stopDone (hst : s.chip.stState x = sParking) (hstep : (s.chip.stn x).parkStep = 3)
    (hstopped : s.chip.stopped x = true) (hentry : s.chip.fld (LE_PAIR_CTRL_ENTRY (16 + x)) = 1)
    (hcauses : (s.chip.stn x).causes.any faultCause = false) (hreset : (s.chip.stn x).reset = false) (hwait : (s.chip.stn x).waiters = [])
    (hhold : (s.chip.stn x).holdClamp = false) (hreq : s.chip.flag (WMM_STN_CTRL_CLAMP_REQ x) = true) : Completes (.parkStopDone x) s fun c =>
      Entered x (s.chip.stn x).changes c sSafe sParking (s.chip.fld (WMM_STN_STATE_CAUSE x)) ∧ (c.stn x).parkStep = 0 ∧ (c.stn x).causes = [] ∧
        s.chip.bytesKept c :=
  completes_event (f := fun c => c.parkEnd x) rfl (by simp [hst, hstep, hstopped, hentry])
    (parkEnd_safe hst hcauses hreset hwait hhold hreq)

/-! ### Escalations (R367, R411) -/

theorem regs_setFld_congr {c c' : Chip} (h : c'.regs = c.regs) (f : Fld) (v : Nat) : (c'.setFld f v).regs = (c.setFld f v).regs := by
  simp only [Chip.setFld, Chip.setReg, Chip.reg, h]

/-- Under another entry than SAFE a loop pair goes to SAFE, and the park in progress has one more cause. -/
theorem completes_escalatesLoop {p : Pickup} (hst : s.chip.stState x = sParking) (hp : p.val / 2 = x.val)
    (hevent : s.chip.flag (LE_PAIR_EVENT_ESCALATED p) = true) (hentry : s.chip.fld (LE_PAIR_CTRL_ENTRY p) ≠ 1) :
    Completes (.loopEscalation p) s fun c =>
      c.fld (LE_PAIR_CTRL_ENTRY p) = 1 ∧ c.flag (WMM_STN_EVENT_ESCALATED x) = true ∧ (c.stn x).causes = (s.chip.stn x).causes ++ [cauEscalation] ∧
      s.chip.fieldsKept [LE_PAIR_CTRL_ENTRY p, WMM_STN_EVENT_ESCALATED x] c ∧ s.chip.bytesKept c := by
  have hentryEscalated : apart (LE_PAIR_CTRL_ENTRY p) (WMM_STN_EVENT_ESCALATED x) :=
    apart_of_reg (by simp only [LE_PAIR_CTRL_ENTRY, LE_PAIR_CTRL, WMM_STN_EVENT_ESCALATED, WMM_STN_EVENT]; omega)
  have hstateEntry : apart (WMM_STN_STATE_STATE x) (LE_PAIR_CTRL_ENTRY p) :=
    apart_of_reg (by simp only [WMM_STN_STATE_STATE, WMM_STN_STATE, LE_PAIR_CTRL_ENTRY, LE_PAIR_CTRL]; have := p.isLt; omega)
  have hregs : (((s.chip.setFld (LE_PAIR_CTRL_ENTRY p) 1).journal actEntry p).mark (WMM_STN_EVENT_ESCALATED x)).regs =
      ((s.chip.setFld (LE_PAIR_CTRL_ENTRY p) 1).mark (WMM_STN_EVENT_ESCALATED x)).regs := by
    rw [Chip.mark, Chip.mark]
    exact regs_setFld_congr (journal_regs ..) _ _
  have hmid (d : Chip) (hd : d = (((s.chip.setFld (LE_PAIR_CTRL_ENTRY p) 1).journal actEntry p).mark (WMM_STN_EVENT_ESCALATED x)).log 0x0501 .m [p.val]) :
      d.fld (LE_PAIR_CTRL_ENTRY p) = 1 ∧ d.flag (WMM_STN_EVENT_ESCALATED x) = true ∧ d.stState x = sParking ∧ d.stn x = s.chip.stn x ∧
      s.chip.fieldsKept [LE_PAIR_CTRL_ENTRY p, WMM_STN_EVENT_ESCALATED x] d ∧ s.chip.bytesKept d := by
    have hfld (f : Fld) : d.fld f = ((s.chip.setFld (LE_PAIR_CTRL_ENTRY p) 1).mark (WMM_STN_EVENT_ESCALATED x)).fld f := by
      rw [hd, fld_of_regs (log_regs ..), fld_of_regs hregs]
    refine ⟨?_, ?_, ?_, ?_, fun f hf hfit => ?_, ?_⟩
    · rw [hfld, fld_mark_apart _ _ _ (Nat.le_of_ble_eq_true rfl) hentryEscalated, fld_setFld_same _ _ _ (Nat.le_of_ble_eq_true rfl)]
      rfl
    · rw [Chip.flag, hfld, ← Chip.flag]
      exact flag_mark_same _ _ (Nat.le_of_ble_eq_true rfl) Nat.one_pos
    · rw [Chip.stState, hfld, fld_mark_apart _ _ _ (Nat.le_of_ble_eq_true rfl) (state_apart_escalated x),
        fld_setFld_apart _ _ _ _ (Nat.le_of_ble_eq_true rfl) hstateEntry]
      exact hst
    · rw [hd, Chip.stn, log_servo, Chip.mark, setFld_servo, journal_servo, setFld_servo, ← Chip.stn]
    · rw [hfld]
      exact fieldsKept_mark _ (by simp) (fieldsKept_setFld _ _ (by simp) (fieldsKept_refl _ _)) f hf hfit
    · rw [hd]
      refine bytesKept_trans (bytesKept_of_eq ?_ ?_ ?_) (bytesKept_log ..)
      · rw [Chip.mark, setFld_buf, journal_buf, setFld_buf]
      · rw [Chip.mark, setFld_sup, journal_sup_boot, setFld_sup]
      · rw [Chip.mark, setFld_core, journal_core, setFld_core]
  refine completes_event (f := fun c => c.loopEscalation p) rfl hevent ?_
  have heq : s.chip.loopEscalation p = ((((s.chip.setFld (LE_PAIR_CTRL_ENTRY p) 1).journal actEntry p).mark (WMM_STN_EVENT_ESCALATED x)).log 0x0501 .m
      [p.val]).park x cauEscalation := by
    simp only [Chip.loopEscalation, ne_eq, hentry, not_false_iff, if_true, hp]
  rw [heq]
  obtain ⟨hone, htold, hpark, hstn, hkept, hbytes⟩ := hmid _ rfl
  generalize (((s.chip.setFld (LE_PAIR_CTRL_ENTRY p) 1).journal actEntry p).mark (WMM_STN_EVENT_ESCALATED x)).log 0x0501 .m [p.val] = d at *
  rw [park_joins hpark]
  refine ⟨by rw [fld_setStn, hone], by rw [flag_setStn, htold], ?_, fieldsKept_regs (setStn_regs ..) hkept, bytesKept_trans hbytes (bytesKept_setStn ..)⟩
  rw [stn_setStn, hstn]

/-- A bit is set and another cleared; the pair `q` and the motion program `n` begin anew. -/
def Chip.runsEnded (c : Chip) (n q : Nat) (f g : Fld) : Chip :=
  let c := (c.setFld f 1).setFld g 0
  (c.setPair q { c.pair q with hasRun := false, gate := [] }).setMotion n {}

theorem runsEnded_spec (c : Chip) (n q : Nat) {f g : Fld} (hapart : apart f g) (hf : f.lo + f.w ≤ 64) (hg : g.lo + g.w ≤ 64) (hw : 0 < f.w) :
    (c.runsEnded n q f g).flag f = true ∧ (c.runsEnded n q f g).flag g = false ∧ ((c.runsEnded n q f g).pair q).gate = [] ∧
      (c.runsEnded n q f g).motion n = {} ∧ c.fieldsKept [f, g] (c.runsEnded n q f g) ∧ c.bytesKept (c.runsEnded n q f g) := by
  unfold Chip.runsEnded
  have hkept : c.fieldsKept [f, g] ((c.setFld f 1).setFld g 0) := fieldsKept_setFld _ _ (by simp) (fieldsKept_setFld _ _ (by simp) (fieldsKept_refl _ _))
  have hset : ((c.setFld f 1).setFld g 0).flag f = true := (flag_setFld_apart _ _ _ _ hf hapart).trans (flag_mark_same _ _ hf hw)
  have hclear : ((c.setFld f 1).setFld g 0).flag g = false := flag_setFld_zero _ _ hg
  have hbytes : c.bytesKept ((c.setFld f 1).setFld g 0) := bytesKept_of_eq rfl rfl rfl
  generalize (c.setFld f 1).setFld g 0 = d at *
  refine ⟨by rw [flag_setMotion, flag_setPair, hset], by rw [flag_setMotion, flag_setPair, hclear], ?_, motion_setMotion .., ?_,
    bytesKept_trans hbytes (bytesKept_of_eq rfl rfl rfl)⟩
  · exact congrArg PairRec.gate (pair_setPair d q _)
  · exact fieldsKept_regs (setMotion_regs ..) (fieldsKept_regs (setPair_regs ..) hkept)

/-- Under SAFE the runs of a motion pair end, with its outputs and its program; the spindle is braked. -/
theorem motionEscalation_safe {c : Chip} {n : Nat} (hentry : c.fld (LE_PAIR_CTRL_ENTRY (16 + n)) = 1) (hsafe : (c.pair (16 + n)).entry = 1)
    (hrun : (c.pair (16 + n)).hasRun = true) :
    c.motionEscalation n = c.runsEnded n (16 + n) (SPN_CTRL_BRAKE n) (LE_PAIR_CTRL_RUN (16 + n)) := by
  rw [Chip.motionEscalation]
  dsimp only
  rw [if_neg (by simp [hentry]), if_pos ⟨hsafe, hrun⟩, Chip.runsEnded]

theorem completes_escalatesMotion (hevent : s.chip.flag (LE_PAIR_EVENT_ESCALATED (16 + x)) = true) (hentry : s.chip.fld (LE_PAIR_CTRL_ENTRY (16 + x)) = 1)
    (hsafe : (s.chip.pair (16 + x)).entry = 1) (hrun : (s.chip.pair (16 + x)).hasRun = true) : Completes (.motionEscalation x) s fun c =>
      c.flag (SPN_CTRL_BRAKE x) = true ∧ c.flag (LE_PAIR_CTRL_RUN (16 + x)) = false ∧ (c.pair (16 + x)).gate = [] ∧ c.motion x = {} ∧
      s.chip.fieldsKept [SPN_CTRL_BRAKE x, LE_PAIR_CTRL_RUN (16 + x)] c ∧ s.chip.bytesKept c := by
  have hapart : apart (SPN_CTRL_BRAKE x) (LE_PAIR_CTRL_RUN (16 + x)) :=
    apart_of_reg (by simp only [SPN_CTRL_BRAKE, SPN_CTRL, LE_PAIR_CTRL_RUN, LE_PAIR_CTRL]; omega)
  refine completes_event (f := fun c => c.motionEscalation x) rfl hevent ?_
  rw [motionEscalation_safe hentry hsafe hrun]
  exact runsEnded_spec s.chip x (16 + x) hapart (Nat.le_of_ble_eq_true rfl) (Nat.le_of_ble_eq_true rfl) Nat.one_pos

/-! ### A step of a qualification, and a change of speed -/

theorem completes_measured {p : Pickup} {q : Qual} {r : QualIn} (hqual : (s.chip.vol p).qual = some q) (hstep : q.step = 4) (hstop : q.stop = false)
    (hrun : (s.chip.cal p).run = none) : Completes (.qualifyStepDone p r) s fun c =>
      (c.vol p).qual = some { q with step := 5 } ∧ s.chip.fieldsKept [WMM_STN_STATE_MOUNT_STEP (p.val / 2)] c ∧ s.chip.bytesKept c := by
  have heq : s.chip.qualStep p q r = s.chip.setQual p { q with step := 5 } := by
    simp [Chip.qualStep, hstop, hstep, hrun]
  have hexec : exec (.qualifyStepDone p r) s = s.on fun _ => s.chip.setQual p { q with step := 5 } := by
    show execQualifyStepDone p r s = _
    simp only [execQualifyStepDone, State.on, hqual, hstep]
    rw [if_neg (by simp), heq]
  refine completes_on hexec ?_
  obtain ⟨v, hshow⟩ := showStep_eq (s.chip.setVol p { s.chip.vol p with qual := some { q with step := 5 } }) (p.val / 2)
  rw [Chip.setQual, hshow]
  refine ⟨?_, fieldsKept_setFld _ _ (by simp) (fieldsKept_regs (setVol_regs ..) (fieldsKept_refl _ _)), bytesKept_of_eq rfl rfl rfl⟩
  exact congrArg VolRec.qual (vol_setVol ..)

/-- The pair `q` gets a command, station `n` a new aim, and two fields a value. -/
def Chip.aimed (c : Chip) (n q aim : Nat) (y : Q × Q) (f g : Fld) (v : Nat) : Chip :=
  (((c.setPair q { c.pair q with cmds := (c.pair q).cmds ++ [y] }).setStn n { c.stn n with aim := aim }).setFld f v).setFld g v

theorem aimed_spec (c : Chip) (n q aim : Nat) (y : Q × Q) {f g : Fld} {v : Nat} (hapart : apart f g) (hf : f.lo + f.w ≤ 64) (hg : g.lo + g.w ≤ 64)
    (hvf : v < 2 ^ f.w) (hvg : v < 2 ^ g.w) : ((c.aimed n q aim y f g v).stn n).aim = aim ∧
      ((c.aimed n q aim y f g v).pair q).cmds = (c.pair q).cmds ++ [y] ∧ (c.aimed n q aim y f g v).fld f = v ∧ (c.aimed n q aim y f g v).fld g = v ∧
      c.fieldsKept [f, g] (c.aimed n q aim y f g v) ∧ c.bytesKept (c.aimed n q aim y f g v) ∧ (c.aimed n q aim y f g v).sup = c.sup := by
  unfold Chip.aimed
  refine ⟨?_, ?_, ?_, ?_, ?_, bytesKept_of_eq rfl rfl rfl, rfl⟩
  · exact congrArg StationRec.aim (stn_setStn (c.setPair q { c.pair q with cmds := (c.pair q).cmds ++ [y] }) n _)
  · exact congrArg PairRec.cmds (pair_setPair c q _)
  · rw [fld_setFld_apart _ _ _ _ hf hapart, fld_setFld_same _ _ _ hf, Nat.mod_eq_of_lt hvf]
  · rw [fld_setFld_same _ _ _ hg, Nat.mod_eq_of_lt hvg]
  · exact fieldsKept_setFld _ _ (by simp) (fieldsKept_setFld _ _ (by simp) (fieldsKept_regs rfl (fieldsKept_refl _ _)))

theorem feed_apart (n : Nat) : apart (MOT_AX_FEED_FEED (2 * n)) (MOT_AX_FEED_FEED (2 * n + 1)) :=
  apart_of_reg (by simp only [MOT_AX_FEED_FEED, MOT_AX_FEED]; omega)

theorem feed_fits (p : Nat) : 134400 < 2 ^ (MOT_AX_FEED_FEED p).w := by
  show 134400 < 2 ^ 32
  decide

/-- Quiet, the target speed is the lower one (R408). -/
theorem spinToTarget_quiet {c : Chip} {n : Nat} (hquiet : c.flag (SPN_CTRL_QUIET n) = true) (hroom : (c.pair (16 + n)).cmds.length < 4) :
    c.spinToTarget n = c.aimed n (16 + n) 4200 (257, 0) (MOT_AX_FEED_FEED (2 * n)) (MOT_AX_FEED_FEED (2 * n + 1)) 134400 := by
  have htarget : c.targetSpeed n = 1 := by simp [Chip.targetSpeed, hquiet]
  rw [Chip.spinToTarget]
  dsimp only
  rw [htarget, Chip.motionCmd, pushCmd_room _ _ _ _ hroom, if_pos rfl, if_pos rfl, List.foldl_cons, List.foldl_cons, List.foldl_nil]
  rfl

theorem completes_slows (hst : s.chip.stState x = sMounted) (hidle : ∀ p, p / 2 = x.val →
      (s.chip.wch p).pass = none ∧ s.chip.fld (CAL_PU_STATUS_CYCLE p) = 0 ∧ (s.chip.cal p).acqBy = none)
    (hroom : (s.chip.pair (16 + x)).cmds.length < 4) (hquiet : s.chip.flag (SPN_CTRL_QUIET x) = true) (haim : (s.chip.stn x).aim = 8400) :
    Completes (.speedChange x) s fun c =>
      (c.stn x).aim = 4200 ∧ (c.pair (16 + x)).cmds = (s.chip.pair (16 + x)).cmds ++ [(257, 0)] ∧
        (∀ p, p / 2 = x.val → c.fld (MOT_AX_FEED_FEED p) = 134400) ∧
        s.chip.fieldsKept [MOT_AX_FEED_FEED (2 * x), MOT_AX_FEED_FEED (2 * x + 1)] c ∧ s.chip.bytesKept c := by
  have htarget : s.chip.targetSpeed x = 1 := by simp [Chip.targetSpeed, hquiet]
  have hpass (p : Nat) (hp : p / 2 = x.val) : (s.chip.wch p).pass.isNone = true := by simp [(hidle p hp).1]
  refine completes_event (f := fun c => ((c.spinToTarget x).abandonCal (2 * x) false).abandonCal (2 * x + 1) false) rfl
    (by simp [hst, haim, htarget, hpass (2 * x) (by omega), hpass (2 * x + 1) (by omega)]) ?_
  rw [spinToTarget_quiet hquiet hroom]
  obtain ⟨haim', hcmds, hfeed₀, hfeed₁, hkept, hbytes, hsup⟩ := aimed_spec s.chip x (16 + x) 4200 (257, 0) (v := 134400) (feed_apart x.val)
    (Nat.le_of_ble_eq_true rfl) (Nat.le_of_ble_eq_true rfl) (feed_fits _) (feed_fits _)
  generalize s.chip.aimed x (16 + x) 4200 (257, 0) (MOT_AX_FEED_FEED (2 * x)) (MOT_AX_FEED_FEED (2 * x + 1)) 134400 = d at *
  have hcal (p : Nat) (hp : p / 2 = x.val) : d.calIdle p := calIdle_of (hidle p hp).2 hsup hkept (by
    simp only [List.forall_mem_cons, List.not_mem_nil, false_imp_iff, implies_true, and_true]
    refine ⟨apart_of_reg ?_, apart_of_reg ?_⟩ <;> simp only [CAL_PU_STATUS_CYCLE, CAL_PU_STATUS, MOT_AX_FEED_FEED, MOT_AX_FEED] <;> omega)
  rw [abandonCal_idle (hcal (2 * x) (by omega)), abandonCal_idle (hcal (2 * x + 1) (by omega))]
  refine ⟨haim', hcmds, fun p hp => ?_, hkept, hbytes⟩
  obtain rfl | rfl : p = 2 * x.val ∨ p = 2 * x.val + 1 := by omega
  · exact hfeed₀
  · exact hfeed₁

end

/-! ### O34 -/

/-- Settles O34: a change of state is its registers, its count, the journal, the log and the hosts' rings; each command here is a few writes
and at most one such change. -/
theorem stationStates : Obligations.StationStates := by
  unfold Obligations.StationStates
  intro s x _ st entered
  refine ⟨completes_discComes, completes_discLost, completes_settled, completes_released, completes_releaseDeferred,
    fun i cause hi => ⟨fun hst hcmds hstaged hidle => ?_, fun hst => ?_, fun hst => ?_⟩, completes_retractDone,
    completes_stopDone, fun hst p hp => completes_escalatesLoop hst hp, completes_escalatesMotion, fun p q r => completes_measured,
    completes_slows⟩
  · have hcause : cause < 32 := by rcases hi with ⟨-, rfl⟩ | ⟨-, rfl⟩ <;> decide
    refine completes_park hi (parked_idle hcause hst fun p hp => ?_)
    obtain ⟨hpass, hqueued, hresults, hcycle, hacq, hreqs, hretry, hqual⟩ := hidle p hp
    exact ⟨hpass, hqueued, hresults, ⟨hcycle, hacq⟩, hreqs, hretry, hqual, by simp [hcmds], hstaged⟩
  · refine completes_park hi ?_
    rw [park_joins hst]
    exact ⟨congrArg StationRec.causes (stn_setStn ..), rfl, rfl, bytesKept_setStn ..⟩
  · refine completes_park hi (park_nothing hst ?_)
    rcases hi with ⟨-, rfl⟩ | ⟨-, rfl⟩ <;> decide

end Sys2Proof.Machine
end

section
/-! Proofs about watchdogs, the park sequencer and a lost Flume: O45. -/

namespace Sys2Proof.Machine

/-! ### What the park sequencer does to a station -/

/-- Fields of the spindle's mode and of the sleds' choppers of station `n`. -/
def quietFields (n : Nat) : List Fld :=
  modeFields n ++ [MOT_AX_STATUS_A_DRIVE (2 * n), MOT_AX_STATUS_B_DRIVE (2 * n), MOT_AX_STATUS_A_DRIVE (2 * n + 1), MOT_AX_STATUS_B_DRIVE (2 * n + 1)]

/-- Work on the drives of station `n` alone. -/
structure DriveWork (n : Nat) (a c : Chip) : Prop where
  fields : a.fieldsKept (quietFields n) c
  pairs : c.servo.pairs = a.servo.pairs
  stations : c.servo.stations = a.servo.stations
  links : ∀ k, k ≠ n → c.link k = a.link k
  path : c.path = a.path
  bytes : a.bytesKept c

section
variable {n : Nat} {a c : Chip}

theorem DriveWork.refl (n : Nat) (c : Chip) : DriveWork n c c := ⟨fieldsKept_refl _ _, rfl, rfl, fun _ _ => rfl, rfl, bytesKept_refl c⟩

theorem DriveWork.trans {b : Chip} (h : DriveWork n a b) (h' : DriveWork n b c) : DriveWork n a c :=
  ⟨fieldsKept_trans h.fields h'.fields, h'.pairs.trans h.pairs, h'.stations.trans h.stations, fun k hk => (h'.links k hk).trans (h.links k hk),
    h'.path.trans h.path, bytesKept_trans h.bytes h'.bytes⟩

theorem DriveWork.setSled (h : DriveWork n a c) (p : Nat) (x : SledRec) : DriveWork n a (c.setSled p x) := { h with }

theorem DriveWork.setSpn (h : DriveWork n a c) (x : SpnRec) : DriveWork n a (c.setSpn n x) := { h with }

theorem DriveWork.setLink (h : DriveWork n a c) (x : ActLink) : DriveWork n a (c.setLink n x) :=
  { h with links := fun k hk => (link_setLink_other _ _ _ _ hk).trans (h.links k hk) }

theorem DriveWork.setFld (h : DriveWork n a c) {g : Fld} (v : Nat) (hg : g ∈ quietFields n) : DriveWork n a (c.setFld g v) :=
  { h with fields := fieldsKept_setFld g v hg h.fields }

/-- Choppers that rest. -/
theorem DriveWork.sledOff (h : DriveWork n a c) {p : Nat} (hp : p ∈ [2 * n, 2 * n + 1]) : DriveWork n a (c.sledOffBridge p) := by
  have hdrive (b : Bool) : driveField p b ∈ quietFields n := by
    simp only [List.mem_cons, List.not_mem_nil, or_false] at hp
    rcases hp with rfl | rfl <;> cases b <;> simp [quietFields, driveField]
  have hchop (d : Chip) (hd : DriveWork n a d) (b : Bool) (x : ChopRec) : DriveWork n a (d.setChop p b x) := by
    rw [setChop_eq]
    exact (hd.setSled _ _).setFld _ (hdrive b)
  unfold Chip.sledOffBridge
  split
  · exact h
  · exact hchop _ (hchop _ h _ _) _ _

theorem DriveWork.applyMode (h : DriveWork n a c) : DriveWork n a (c.applyMode n) := by
  rw [applyMode_eq]
  refine DriveWork.setSpn (DriveWork.setFld (DriveWork.setFld ?_ _ (by simp [quietFields, modeFields])) _ (by simp [quietFields, modeFields])) _
  split
  · exact h.setFld _ (by simp [quietFields, modeFields])
  · exact h

/-- Both sleds of a station are left to rest. -/
theorem DriveWork.sledsOff (h : DriveWork n a c) :
    DriveWork n a ([2 * n, 2 * n + 1].foldl (fun c p => (c.setSled p { c.sled p with psRun := false }).sledOffBridge p) c) :=
  List.foldlRecOn (motive := DriveWork n a) _ _ h fun _ hd _ hp => (hd.setSled _ _).sledOff hp

end

/-- Two different registers of the drives. -/
theorem state_apart_quiet (y n : Nat) : ∀ g ∈ quietFields n, ∀ f : Fld, f.reg = WMM_STN_STATE y → apart f g := by
  simp only [quietFields, modeFields, List.mem_append, List.mem_cons, List.not_mem_nil, or_false]
  rintro g ((rfl | rfl | rfl) | rfl | rfl | rfl | rfl) f hf <;> refine apart_of_reg ?_ <;>
    simp only [hf, WMM_STN_STATE, SPN_STATUS_MODE, SPN_STATUS_SB_WAIT, SPN_STATUS, SPN_SHORT_BRAKES_COUNT, SPN_SHORT_BRAKES, MOT_AX_STATUS_A_DRIVE,
      MOT_AX_STATUS_B_DRIVE, MOT_AX_STATUS]
  all_goals omega

/-- The runs of pair `q` end, and its gate has no outputs. -/
def Chip.runStopped (c : Chip) (q : Nat) : Chip := (c.setFld (LE_PAIR_CTRL_RUN q) 0).setPair q { c.pair q with hasRun := false, gate := [] }

theorem run_apart {q r : Nat} (h : q ≠ r) : apart (LE_PAIR_CTRL_RUN q) (LE_PAIR_CTRL_RUN r) :=
  apart_of_reg (by simp only [LE_PAIR_CTRL_RUN, LE_PAIR_CTRL]; omega)

/-- The pairs of a list have stopped, and no other pair has changed. -/
structure RunsStopped (qs : List Nat) (a c : Chip) : Prop where
  stopped : ∀ q ∈ qs, c.flag (LE_PAIR_CTRL_RUN q) = false ∧ (c.pair q).gate = []
  others : ∀ q, q ∉ qs → c.pair q = a.pair q
  fields : a.fieldsKept (qs.map LE_PAIR_CTRL_RUN) c
  stations : c.servo.stations = a.servo.stations
  afe : c.afe = a.afe
  path : c.path = a.path
  bytes : a.bytesKept c

theorem runsStopped (qs : List Nat) (c : Chip) : RunsStopped qs c (qs.foldl (fun c q => c.runStopped q) c) := by
  induction qs generalizing c with
  | nil => exact ⟨by simp, fun _ _ => rfl, fieldsKept_refl _ _, rfl, rfl, rfl, bytesKept_refl c⟩
  | cons r qs ih =>
    have hrest := ih (c.runStopped r)
    have hflag : (c.runStopped r).flag (LE_PAIR_CTRL_RUN r) = false := by
      rw [Chip.runStopped, flag_setPair]
      exact flag_setFld_zero _ _ (Nat.le_of_ble_eq_true rfl)
    have hgate : ((c.runStopped r).pair r).gate = [] := by rw [Chip.runStopped, pair_setPair]
    have hfields : c.fieldsKept ((r :: qs).map LE_PAIR_CTRL_RUN) (c.runStopped r) :=
      fieldsKept_regs (setPair_regs ..) (fieldsKept_setFld _ _ (by simp) (fieldsKept_refl _ _))
    have hbytes : c.bytesKept (c.runStopped r) := bytesKept_of_eq rfl rfl rfl
    rw [List.foldl_cons]
    refine ⟨fun q hq => ?_, fun q hq => ?_, ?_, hrest.stations, hrest.afe, hrest.path, bytesKept_trans hbytes hrest.bytes⟩
    · by_cases hqs : q ∈ qs
      · exact hrest.stopped q hqs
      · obtain rfl : q = r := by simpa [hqs] using hq
        refine ⟨(flag_eq_of_fld (hrest.fields _ (Nat.le_of_ble_eq_true rfl) ?_)).trans hflag, by rw [hrest.others q hqs, hgate]⟩
        intro g hg
        obtain ⟨r', hr', rfl⟩ := List.mem_map.1 hg
        exact run_apart fun heq => hqs (heq ▸ hr')
    · obtain ⟨hqr, hqs⟩ := not_or.1 (mt List.mem_cons.2 hq)
      rw [hrest.others q hqs, Chip.runStopped, pair_setPair_other _ _ _ _ hqr, Chip.pair, setFld_servo, ← Chip.pair]
    · exact fieldsKept_trans hfields (fieldsKept_weaken (fun g hg => List.mem_cons_of_mem _ hg) hrest.fields)

/-- The pairs of station `n`. -/
def stationPairs (n : Nat) : List Nat := [2 * n, 2 * n + 1, 16 + n]

/-- The fields that the park sequencer writes when it takes station `n`, which has nothing to park. -/
def takenFields (n : Nat) : List Fld := quietFields n ++ (stationPairs n).map LE_PAIR_CTRL_RUN

/-- The park sequencer has taken station `n`. -/
structure PsTaken (n : Nat) (a c : Chip) : Prop where
  stopped : ∀ q ∈ stationPairs n, c.flag (LE_PAIR_CTRL_RUN q) = false ∧ (c.pair q).gate = []
  pairs : ∀ q, q ∉ stationPairs n → c.pair q = a.pair q
  link : (c.link n).parked = true
  links : ∀ k, k ≠ n → c.link k = a.link k
  mode : c.fld (SPN_STATUS_MODE n) ∈ [0, 2]
  fields : a.fieldsKept (takenFields n) c
  path : c.path = a.path
  bytes : a.bytesKept c

theorem pair_of_pairs {a c : Chip} (h : c.servo.pairs = a.servo.pairs) (q : Nat) : c.pair q = a.pair q := by rw [Chip.pair, h, Chip.pair]

theorem run_apart_quiet (q n : Nat) : ∀ g ∈ quietFields n, apart (LE_PAIR_CTRL_RUN q) g := by
  simp only [quietFields, modeFields, List.mem_append, List.mem_cons, List.not_mem_nil, or_false]
  rintro g ((rfl | rfl | rfl) | rfl | rfl | rfl | rfl) <;> refine apart_of_reg ?_ <;>
    simp only [LE_PAIR_CTRL_RUN, LE_PAIR_CTRL, SPN_STATUS_MODE, SPN_STATUS_SB_WAIT, SPN_STATUS, SPN_SHORT_BRAKES_COUNT, SPN_SHORT_BRAKES, MOT_AX_STATUS_A_DRIVE,
      MOT_AX_STATUS_B_DRIVE, MOT_AX_STATUS]
  all_goals omega

theorem mode_apart_drive (m p : Nat) (b : Bool) : apart (SPN_STATUS_MODE m) (driveField p b) := by
  cases b <;> exact apart_of_reg (by
    simp only [driveField, SPN_STATUS_MODE, SPN_STATUS, MOT_AX_STATUS_A_DRIVE, MOT_AX_STATUS_B_DRIVE, MOT_AX_STATUS]; simp; omega)

theorem mode_sledsOff (c : Chip) (n m : Nat) :
    ([2 * n, 2 * n + 1].foldl (fun c p => (c.setSled p { c.sled p with psRun := false }).sledOffBridge p) c).fld (SPN_STATUS_MODE m) =
      c.fld (SPN_STATUS_MODE m) := by
  have hchop (d : Chip) (p : Nat) (b : Bool) (x : ChopRec) : (d.setChop p b x).fld (SPN_STATUS_MODE m) = d.fld (SPN_STATUS_MODE m) := by
    rw [setChop_eq, Chip.setFlag, fld_setFld_apart _ _ _ _ (Nat.le_of_ble_eq_true rfl) (mode_apart_drive m p b), fld_setSled]
  refine List.foldlRecOn (motive := fun d : Chip => d.fld (SPN_STATUS_MODE m) = c.fld (SPN_STATUS_MODE m)) _ _ rfl fun d hd p _ => ?_
  rw [← hd, Chip.sledOffBridge]
  split
  · rw [fld_setSled]
  · rw [hchop, hchop, fld_setSled]

theorem sledsOff_afe (c : Chip) (n : Nat) :
    ([2 * n, 2 * n + 1].foldl (fun c p => (c.setSled p { c.sled p with psRun := false }).sledOffBridge p) c).afe = c.afe := by
  refine List.foldlRecOn (motive := fun d : Chip => d.afe = c.afe) _ _ rfl fun d hd p _ => ?_
  rw [← hd, Chip.sledOffBridge]
  split <;> rfl

/-- The references of the sleds of station `n` are frozen, and a pass ends. -/
def Chip.sledsFrozen (c : Chip) (n : Nat) : Chip :=
  [2 * n, 2 * n + 1].foldl (fun c p =>
    let k := c.sled p
    let refs := (BitVec.ofInt 32 (c.sledRef p 0), BitVec.ofInt 32 (c.sledRef p 1))
    ((c.setSled p { k with frozen := some refs, psRun := c.sledRuns p }).cutPass p).dropQueuedPass p) c

/-- The link of station `n` is parked, and its spindle drive is off but for a short-brake. -/
def Chip.linkParked (c : Chip) (n : Nat) : Chip :=
  let c := c.setLink n { c.link n with parked := true }
  (c.setSpn n { c.spn n with nextMode := 0 }).applyMode n

theorem psTake_eq (c : Chip) (n : Nat) : c.psTake n =
    if ((((stationPairs n).foldl (fun c q => c.runStopped q) (c.sledsFrozen n)).linkParked n).psPark n).stopped n
    then ((((stationPairs n).foldl (fun c q => c.runStopped q) (c.sledsFrozen n)).linkParked n).psPark n).psStopped n
    else (((stationPairs n).foldl (fun c q => c.runStopped q) (c.sledsFrozen n)).linkParked n).psPark n := rfl

theorem wch_of_path {a c : Chip} (h : c.path = a.path) (p : Nat) : c.wch p = a.wch p := by rw [Chip.wch, h, Chip.wch]

/-- Where no pass runs and none waits, freezing the sleds cuts nothing. -/
theorem driveWork_sledsFrozen {c : Chip} {n : Nat} (hpass : ∀ p ∈ [2 * n, 2 * n + 1], (c.wch p).pass = none ∧ (c.wch p).queued = none) :
    DriveWork n c (c.sledsFrozen n) := by
  refine List.foldlRecOn (motive := DriveWork n c) _ _ (DriveWork.refl n c) fun d hd p hp => ?_
  obtain ⟨hnone, hqueue⟩ := hpass p hp
  have hcut (x : SledRec) : ((d.setSled p x).cutPass p).dropQueuedPass p = d.setSled p x := by
    have hsame : (d.setSled p x).wch p = c.wch p := wch_of_path (hd.setSled p x).path p
    rw [Chip.cutPass, hsame, hnone]
    simp [Chip.dropQueuedPass, hsame, hqueue]
  dsimp only
  rw [hcut]
  exact hd.setSled _ _

theorem driveWork_linkParked (c : Chip) (n : Nat) : DriveWork n c (c.linkParked n) := (((DriveWork.refl n c).setLink _).setSpn _).applyMode

theorem linkParked_link (c : Chip) (n : Nat) : ((c.linkParked n).link n).parked = true := by
  have hafe (d : Chip) : (d.applyMode n).afe = d.afe := by
    rw [applyMode_eq]
    split <;> rfl
  rw [Chip.linkParked, Chip.link, hafe, setSpn_afe, ← Chip.link, link_setLink]

theorem linkParked_mode (c : Chip) (n : Nat) : (c.linkParked n).fld (SPN_STATUS_MODE n) ∈ [0, 2] := by
  rw [Chip.linkParked, (modeApplied_applyMode _ n).mode, Chip.modeDue, spn_setSpn]
  split_ifs <;> simp_all

/-- A state in which a park has nothing to do. -/
def stillState (k : Nat) : Prop := k ∈ [sEmpty, sSafe, sLoaded, sFault]

theorem stillState_ne {k : Nat} (h : stillState k) : k ≠ sSpinup ∧ k ≠ sQualify ∧ k ≠ sMounted ∧ k ≠ sParking := by
  simp only [stillState, List.mem_cons, List.not_mem_nil, or_false] at h
  rcases h with rfl | rfl | rfl | rfl <;> decide

theorem psPark_still {c : Chip} {n : Nat} (h : stillState (c.stState n)) : c.psPark n = c := by
  obtain ⟨hspin, hqual, hmount, hpark⟩ := stillState_ne h
  simp [Chip.psPark, hspin, hqual, hmount, hpark]

theorem psStopped_still {c : Chip} {n : Nat} (h : c.stState n ≠ sParking) : c.psStopped n =
    [2 * n, 2 * n + 1].foldl (fun c p => (c.setSled p { c.sled p with psRun := false }).sledOffBridge p) c := by
  have hsame := (DriveWork.refl n c).sledsOff.fields (WMM_STN_STATE_STATE n) (Nat.le_of_ble_eq_true rfl) fun g hg => state_apart_quiet n n g hg _ rfl
  rw [Chip.psStopped]
  dsimp only
  exact if_pos (by rw [Chip.stState, hsame]; exact h)

theorem stationPairs_lt {n q : Nat} (hn : n < 8) (hq : q ∈ stationPairs n) : q < 24 := by
  simp only [stationPairs, List.mem_cons, List.not_mem_nil, or_false] at hq
  omega

theorem taken_apart {n : Nat} (hn : n < 8) {g : Fld} (hg : g ∈ takenFields n) {y : Nat} {f : Fld} (hf : f.reg = WMM_STN_STATE y) : apart f g := by
  rcases List.mem_append.1 hg with h | h
  · exact state_apart_quiet y n g h f hf
  · obtain ⟨q, hq, rfl⟩ := List.mem_map.1 h
    have hlt := stationPairs_lt hn hq
    exact apart_of_reg (by simp only [hf, WMM_STN_STATE, LE_PAIR_CTRL_RUN, LE_PAIR_CTRL]; omega)

/-- With nothing recorded and nothing to park, the park sequencer ends the station's runs and stops its drives. -/
theorem psTaken {c : Chip} {n : Nat} (hn : n < 8) (hpass : ∀ p ∈ [2 * n, 2 * n + 1], (c.wch p).pass = none ∧ (c.wch p).queued = none)
    (hst : stillState (c.stState n)) : PsTaken n c (c.psTake n) := by
  rw [psTake_eq]
  have hfrozen := driveWork_sledsFrozen hpass
  generalize c.sledsFrozen n = d at hfrozen
  have hruns := runsStopped (stationPairs n) d
  generalize (stationPairs n).foldl (fun c q => c.runStopped q) d = e at hruns
  have hlink := driveWork_linkParked e n
  have hparked := linkParked_link e n
  have hmode := linkParked_mode e n
  generalize e.linkParked n = k at hlink hparked hmode
  have hfields : c.fieldsKept (takenFields n) k :=
    fieldsKept_trans (fieldsKept_weaken (fun _ => List.mem_append_left _) hfrozen.fields)
      (fieldsKept_trans (fieldsKept_weaken (fun _ => List.mem_append_right _) hruns.fields) (fieldsKept_weaken (fun _ => List.mem_append_left _) hlink.fields))
  have hstill : stillState (k.stState n) := by
    rw [Chip.stState, hfields _ (Nat.le_of_ble_eq_true rfl) fun g hg => taken_apart hn hg rfl]
    exact hst
  have htaken : PsTaken n c k :=
    { stopped := fun q hq => ⟨(flag_eq_of_fld (hlink.fields _ (Nat.le_of_ble_eq_true rfl) (run_apart_quiet q n))).trans (hruns.stopped q hq).1, by
        rw [pair_of_pairs hlink.pairs, (hruns.stopped q hq).2]⟩
      pairs := fun q hq => (pair_of_pairs hlink.pairs q).trans ((hruns.others q hq).trans (pair_of_pairs hfrozen.pairs q))
      link := hparked
      links := fun j hj => (hlink.links j hj).trans ((by rw [Chip.link, hruns.afe, Chip.link] : e.link j = d.link j).trans (hfrozen.links j hj))
      mode := hmode
      fields := hfields
      path := hlink.path.trans (hruns.path.trans hfrozen.path)
      bytes := bytesKept_trans hfrozen.bytes (bytesKept_trans hruns.bytes hlink.bytes) }
  rw [psPark_still hstill]
  split
  · rw [psStopped_still (stillState_ne hstill).2.2.2]
    have hoff := (DriveWork.refl n k).sledsOff
    have hmodes := mode_sledsOff k n n
    have hafe := sledsOff_afe k n
    generalize [2 * n, 2 * n + 1].foldl (fun c p => (c.setSled p { c.sled p with psRun := false }).sledOffBridge p) k = o at hoff hmodes hafe
    exact
      { stopped := fun q hq => ⟨(flag_eq_of_fld (hoff.fields _ (Nat.le_of_ble_eq_true rfl) (run_apart_quiet q n))).trans (htaken.stopped q hq).1, by
          rw [pair_of_pairs hoff.pairs, (htaken.stopped q hq).2]⟩
        pairs := fun q hq => (pair_of_pairs hoff.pairs q).trans (htaken.pairs q hq)
        link := by rw [Chip.link, hafe, ← Chip.link, htaken.link]
        links := fun j hj => (hoff.links j hj).trans (htaken.links j hj)
        mode := by rw [hmodes]; exact htaken.mode
        fields := fieldsKept_trans htaken.fields (fieldsKept_weaken (fun _ => List.mem_append_left _) hoff.fields)
        path := hoff.path.trans htaken.path
        bytes := bytesKept_trans htaken.bytes hoff.bytes }
  · exact htaken

/-- The park sequencer has taken the stations below `m`. -/
structure PsTook (m : Nat) (a c : Chip) : Prop where
  stopped : ∀ n < m, ∀ q ∈ stationPairs n, c.flag (LE_PAIR_CTRL_RUN q) = false ∧ (c.pair q).gate = []
  link : ∀ n < m, (c.link n).parked = true
  mode : ∀ n < m, c.fld (SPN_STATUS_MODE n) ∈ [0, 2]
  states : ∀ y, c.stState y = a.stState y
  event : c.flag WMM_EVENT_PS_ACTED = a.flag WMM_EVENT_PS_ACTED
  time : c.fld WMM_PS_TIME_TIME = a.fld WMM_PS_TIME_TIME
  path : c.path = a.path
  bytes : a.bytesKept c

theorem taken_apart_ps {n : Nat} (hn : n < 8) {g : Fld} (hg : g ∈ takenFields n) : apart WMM_EVENT_PS_ACTED g ∧ apart WMM_PS_TIME_TIME g := by
  rcases List.mem_append.1 hg with h | h
  · simp only [quietFields, modeFields, List.mem_append, List.mem_cons, List.not_mem_nil, or_false] at h
    rcases h with (rfl | rfl | rfl) | rfl | rfl | rfl | rfl <;> refine ⟨apart_of_reg ?_, apart_of_reg ?_⟩ <;>
      simp only [WMM_EVENT_PS_ACTED, WMM_EVENT, WMM_PS_TIME_TIME, WMM_PS_TIME, SPN_STATUS_MODE, SPN_STATUS_SB_WAIT, SPN_STATUS, SPN_SHORT_BRAKES_COUNT,
        SPN_SHORT_BRAKES, MOT_AX_STATUS_A_DRIVE, MOT_AX_STATUS_B_DRIVE, MOT_AX_STATUS] <;> omega
  · obtain ⟨q, hq, rfl⟩ := List.mem_map.1 h
    have hlt := stationPairs_lt hn hq
    refine ⟨apart_of_reg ?_, apart_of_reg ?_⟩ <;>
      simp only [WMM_EVENT_PS_ACTED, WMM_EVENT, WMM_PS_TIME_TIME, WMM_PS_TIME, LE_PAIR_CTRL_RUN, LE_PAIR_CTRL] <;> omega

theorem taken_apart_run {n q : Nat} (hq : q ∉ stationPairs n) {g : Fld} (hg : g ∈ takenFields n) : apart (LE_PAIR_CTRL_RUN q) g := by
  rcases List.mem_append.1 hg with h | h
  · exact run_apart_quiet q n g h
  · obtain ⟨r, hr, rfl⟩ := List.mem_map.1 h
    exact run_apart fun heq => hq (heq ▸ hr)

theorem taken_apart_mode {n m : Nat} (hn : n < 8) (hne : m ≠ n) {g : Fld} (hg : g ∈ takenFields n) : apart (SPN_STATUS_MODE m) g := by
  rcases List.mem_append.1 hg with h | h
  · simp only [quietFields, modeFields, List.mem_append, List.mem_cons, List.not_mem_nil, or_false] at h
    rcases h with (rfl | rfl | rfl) | rfl | rfl | rfl | rfl <;> refine apart_of_reg ?_ <;>
      simp only [SPN_STATUS_MODE, SPN_STATUS_SB_WAIT, SPN_STATUS, SPN_SHORT_BRAKES_COUNT, SPN_SHORT_BRAKES, MOT_AX_STATUS_A_DRIVE,
        MOT_AX_STATUS_B_DRIVE, MOT_AX_STATUS] <;> omega
  · obtain ⟨q, hq, rfl⟩ := List.mem_map.1 h
    have hlt := stationPairs_lt hn hq
    exact apart_of_reg (by simp only [SPN_STATUS_MODE, SPN_STATUS, LE_PAIR_CTRL_RUN, LE_PAIR_CTRL]; omega)

theorem stationPairs_disjoint {n m q : Nat} (hn : n < 8) (hm : m < 8) (hne : m ≠ n) (hq : q ∈ stationPairs m) : q ∉ stationPairs n := by
  simp only [stationPairs, List.mem_cons, List.not_mem_nil, or_false] at hq ⊢
  omega

/-- Station after station is taken. -/
theorem psTook {a : Chip} (hpass : ∀ p < 16, (a.wch p).pass = none ∧ (a.wch p).queued = none) (hst : ∀ y < 8, stillState (a.stState y)) {m : Nat}
    (hm : m ≤ 8) : PsTook m a ((List.range m).foldl (fun c s => c.psTake s) a) := by
  induction m with
  | zero => exact ⟨by simp, by simp, by simp, fun _ => rfl, rfl, rfl, rfl, bytesKept_refl a⟩
  | succ m ih =>
    have hprev := ih (by omega)
    rw [List.range_succ, List.foldl_append, List.foldl_cons, List.foldl_nil]
    generalize (List.range m).foldl (fun c s => c.psTake s) a = d at hprev
    have htaken := psTaken (c := d) (n := m) (by omega) (fun p hp => by
      rw [wch_of_path hprev.path]
      exact hpass p (by simp only [List.mem_cons, List.not_mem_nil, or_false] at hp; omega)) (by rw [hprev.states]; exact hst m (by omega))
    generalize d.psTake m = e at htaken
    have hcases {n : Nat} (hn : n < m + 1) : n = m ∨ n < m := by omega
    refine ⟨fun n hn q hq => ?_, fun n hn => ?_, fun n hn => ?_, fun y => ?_, ?_, ?_, htaken.path.trans hprev.path, bytesKept_trans hprev.bytes htaken.bytes⟩
    · rcases hcases hn with rfl | hn
      · exact htaken.stopped q hq
      · have hother := stationPairs_disjoint (n := m) (m := n) (by omega) (by omega) (by omega) hq
        rw [htaken.pairs q hother]
        exact ⟨(flag_eq_of_fld (htaken.fields _ (Nat.le_of_ble_eq_true rfl) fun g hg => taken_apart_run hother hg)).trans (hprev.stopped n hn q hq).1,
          (hprev.stopped n hn q hq).2⟩
    · rcases hcases hn with rfl | hn
      · exact htaken.link
      · rw [htaken.links n (by omega), hprev.link n hn]
    · rcases hcases hn with rfl | hn
      · exact htaken.mode
      · rw [htaken.fields _ (Nat.le_of_ble_eq_true rfl) fun g hg => taken_apart_mode (by omega) (by omega) hg]
        exact hprev.mode n hn
    · exact (htaken.fields _ (Nat.le_of_ble_eq_true rfl) fun g hg => taken_apart (by omega) hg rfl).trans (hprev.states y)
    · exact (flag_eq_of_fld (htaken.fields _ (by decide) fun g hg => (taken_apart_ps (by omega) hg).1)).trans hprev.event
    · exact (htaken.fields _ (by decide) fun g hg => (taken_apart_ps (by omega) hg).2).trans hprev.time

section
variable {s : State}

theorem completes_sequencer (hfed : s.chip.sup.wmM.fed.isSome = true) (hidle : s.chip.flag WMM_PS_STATUS_ACTED = false)
    (hpass : ∀ p < 16, (s.chip.wch p).pass = none ∧ (s.chip.wch p).queued = none) (hst : ∀ y < 8, s.chip.stState y ∈ [sEmpty, sSafe, sLoaded, sFault]) :
    Completes (.watchdogExpiry .m) s fun c =>
        c.flag WMM_PS_STATUS_ACTED = true ∧ c.flag WMM_ROLE_PS_ACTED = true ∧ c.flag WMM_EVENT_PS_ACTED = true ∧
        c.fld WMM_PS_TIME_TIME = s.chip.now.toNat ∧ (∀ q < 24, c.flag (LE_PAIR_CTRL_RUN q) = false ∧ (c.pair q).gate = []) ∧
        (∀ x < 8, (c.link x).parked = true ∧ c.fld (SPN_STATUS_MODE x) ∈ [0, 2] ∧ c.stState x = s.chip.stState x) ∧ s.chip.bytesKept c := by
  refine completes_event (f := fun c => c.parkSequencer) rfl hfed ?_
  rw [Chip.parkSequencer, if_neg (by simp [hidle])]
  dsimp only
  have hevent : ((s.chip.setFld WMM_PS_TIME_TIME s.chip.now.toNat).mark WMM_EVENT_PS_ACTED).flag WMM_EVENT_PS_ACTED = true :=
    flag_mark_same _ _ (by decide) (by decide)
  have htime : ((s.chip.setFld WMM_PS_TIME_TIME s.chip.now.toNat).mark WMM_EVENT_PS_ACTED).fld WMM_PS_TIME_TIME = s.chip.now.toNat := by
    rw [fld_mark_apart _ _ _ (by decide) (by decide), fld_setFld_same _ _ _ (by decide)]
    exact Nat.mod_eq_of_lt s.chip.now.isLt
  have hstate (y : Nat) : ((s.chip.setFld WMM_PS_TIME_TIME s.chip.now.toNat).mark WMM_EVENT_PS_ACTED).stState y = s.chip.stState y := by
    rw [Chip.stState, fld_mark_apart _ _ _ (Nat.le_of_ble_eq_true rfl) (apart_of_reg ?_), fld_setFld_apart _ _ _ _ (Nat.le_of_ble_eq_true rfl) (apart_of_reg ?_),
      ← Chip.stState]
    · simp only [WMM_STN_STATE_STATE, WMM_STN_STATE, WMM_PS_TIME_TIME, WMM_PS_TIME]; omega
    · simp only [WMM_STN_STATE_STATE, WMM_STN_STATE, WMM_EVENT_PS_ACTED, WMM_EVENT]; omega
  have hbytes : s.chip.bytesKept ((s.chip.setFld WMM_PS_TIME_TIME s.chip.now.toNat).mark WMM_EVENT_PS_ACTED) :=
    bytesKept_of_regsOnly (regsOnly_mark _ (regsOnly_setFld _ _ (regsOnly_refl _)))
  have hpath : ((s.chip.setFld WMM_PS_TIME_TIME s.chip.now.toNat).mark WMM_EVENT_PS_ACTED).path = s.chip.path := rfl
  generalize (s.chip.setFld WMM_PS_TIME_TIME s.chip.now.toNat).mark WMM_EVENT_PS_ACTED = d at hevent htime hstate hbytes hpath
  have htook := psTook (a := d) (fun p hp => by rw [wch_of_path hpath]; exact hpass p hp) (fun y hy => by rw [hstate]; exact hst y hy) (Nat.le_refl 8)
  generalize (List.range 8).foldl (fun c s => c.psTake s) d = e at htook
  -- the last two writes
  have hlast : e.fieldsKept [WMM_PS_STATUS_ACTED, WMM_ROLE_PS_ACTED] ((e.setFld WMM_PS_STATUS_ACTED 1).setFld WMM_ROLE_PS_ACTED 1) :=
    fieldsKept_setFld _ _ (by simp) (fieldsKept_setFld _ _ (by simp) (fieldsKept_refl _ _))
  have hkept {f : Fld} (hf : f.lo + f.w ≤ 64) (h : f.reg ≠ WMM_PS_STATUS ∧ f.reg ≠ WMM_ROLE) :
      ((e.setFld WMM_PS_STATUS_ACTED 1).setFld WMM_ROLE_PS_ACTED 1).fld f = e.fld f :=
    hlast f hf (by simpa using ⟨apart_of_reg h.1, apart_of_reg h.2⟩)
  refine ⟨?_, flag_mark_same _ _ (by decide) (by decide), ?_, ?_, fun q hq => ?_, fun x hx => ⟨htook.link x hx, ?_, ?_⟩, ?_⟩
  · rw [flag_setFld_apart _ _ _ _ (by decide) (by decide)]
    exact flag_mark_same _ _ (by decide) (by decide)
  · exact (flag_eq_of_fld (hkept (by decide) (by decide))).trans (htook.event.trans hevent)
  · exact (hkept (by decide) (by decide)).trans (htook.time.trans htime)
  · obtain ⟨n, hn, hmem⟩ : ∃ n < 8, q ∈ stationPairs n := by
      by_cases h : q < 16
      · exact ⟨q / 2, by omega, by simp only [stationPairs, List.mem_cons, List.not_mem_nil, or_false]; omega⟩
      · exact ⟨q - 16, by omega, by simp only [stationPairs, List.mem_cons, List.not_mem_nil, or_false]; omega⟩
    obtain ⟨hrun, hgate⟩ := htook.stopped n hn q hmem
    refine ⟨(flag_eq_of_fld (hkept (Nat.le_of_ble_eq_true rfl) ?_)).trans hrun, hgate⟩
    simp only [LE_PAIR_CTRL_RUN, LE_PAIR_CTRL, WMM_PS_STATUS, WMM_ROLE]
    omega
  · rw [hkept (Nat.le_of_ble_eq_true rfl) (by simp only [SPN_STATUS_MODE, SPN_STATUS, WMM_PS_STATUS, WMM_ROLE]; omega)]
    exact htook.mode x hx
  · rw [Chip.stState, hkept (Nat.le_of_ble_eq_true rfl) (by simp only [WMM_STN_STATE_STATE, WMM_STN_STATE, WMM_PS_STATUS, WMM_ROLE]; omega)]
    exact (htook.states x).trans (hstate x)
  · exact bytesKept_trans hbytes (bytesKept_trans htook.bytes (bytesKept_of_regsOnly (regsOnly_setFld _ _ (regsOnly_setFld _ _ (regsOnly_refl _)))))

theorem completes_fed (d : Die) (peer : Bool)
    (hrun : if peer then s.chip.carrying = true ∧ s.chip.role (otherDie d) = roleActive ∧ s.chip.wmRuns (otherDie d) = true else s.chip.wmRuns d = true) :
    Completes (.watchdogFeed d peer) s fun c => (c.wm d).fed = some (s.chip.nowOn d) ∧ c = { s.chip with sup := c.sup } := by
  refine completes_event (b := if peer then s.chip.carrying && s.chip.role (otherDie d) == roleActive && s.chip.wmRuns (otherDie d) else s.chip.wmRuns d)
    (f := fun c : Chip => c.setWm d { c.wm d with fed := some (c.nowOn d) }) rfl ?_ ?_
  · cases peer
    · simpa using hrun
    · obtain ⟨hup, hactive, hruns⟩ := by simpa using hrun
      simp [hup, hactive, hruns]
  · cases d <;> exact ⟨rfl, rfl⟩

theorem completes_fatalExpiry (hfed : s.chip.sup.wmH.fed.isSome = true) (hpeace : Peaceful s.chip) :
    Completes (.watchdogExpiry .h) s fun c =>
        c.flag WMH_ROLE_FATAL = true ∧ c.flag GEN_CONFIG_FATAL = true ∧ c.fld WMH_FATAL_CAUSE = 3 ∧ c.flag WMH_EVENT_FATAL = true ∧
        c.fld WMH_FATAL_TIME_TIME = s.chip.nowH.toNat ∧
        (c.weir (weirKey 6 0)).items = (s.chip.weir (weirKey 6 0)).items ++ [(logWords s.chip.nowH 0x060C .h [3]).map (fun w => ⟨w, false⟩)] ∧
        s.chip.fieldsKept [WMH_ROLE_FATAL, GEN_CONFIG_FATAL, WMH_FATAL_CAUSE, WMH_EVENT_FATAL, WMH_FATAL_TIME_TIME] c ∧ s.chip.bytesKept c := by
  refine completes_event (f := fun c => c.enterFatal 3) rfl hfed ?_
  obtain ⟨hrole, hcause, hfields, _, hbytes⟩ := enterFatal_peaceful hpeace (show 3 < 4 by decide)
  have hregs : (s.chip.enterFatal 3).regs = (s.chip.fatalRegs 3).regs := by rw [enterFatal_eq hpeace]; exact fatalTold_regs s.chip 3
  have hweirs : (s.chip.enterFatal 3).core = ((s.chip.fatalRegs 3).log 0x060C .h [3]).core := by
    rw [enterFatal_eq hpeace, Chip.fatalTold, postEvent_rings, postEvent_rings]
    exact journal_core ..
  refine ⟨hrole, ?_, hcause, ?_, ?_, ?_, hfields, hbytes⟩
  · refine (flag_eq_of_fld (fld_of_regs hregs _)).trans ?_
    exact flag_mark_same _ _ (by decide) (by decide)
  · refine (flag_eq_of_fld (fld_of_regs hregs _)).trans ?_
    rw [Chip.fatalRegs, flag_setFld_apart _ _ _ _ (by decide) (by decide), flag_setFld_apart _ _ _ _ (by decide) (by decide)]
    exact flag_mark_same _ _ (by decide) (by decide)
  · refine (fld_of_regs hregs _).trans ?_
    rw [Chip.fatalRegs, fld_setFld_apart _ _ _ _ (by decide) (by decide), fld_setFld_apart _ _ _ _ (by decide) (by decide),
      fld_mark_apart _ _ _ (by decide) (by decide), fld_setFld_same _ _ _ (by decide)]
    exact Nat.mod_eq_of_lt s.chip.nowH.isLt
  · rw [Chip.weir, hweirs, ← Chip.weir, items_log]
    rfl

/-- A station that enters FAULT with nothing waiting for it: no rule of the clamp acts. -/
theorem wakeStation_fault {e : Chip} {n : Nat} (hfault : e.stState n = sFault) (hwait : (e.stn n).waiters = []) :
    ∃ st₀ st, e.wakeStation n = (e.setStn n st₀).setStn n st ∧ st.changes = (e.stn n).changes ∧ st.parkStep = (e.stn n).parkStep := by
  refine ⟨{ e.stn n with waiters := [] }, { e.stn n with waiters := [], holdClamp := false }, ?_, rfl, rfl⟩
  rw [Chip.wakeStation]
  simp only [hwait, List.foldl_nil, stn_setStn]
  have hstate (st₀ st : StationRec) : ((e.setStn n st₀).setStn n st).stState n = sFault := by
    rw [Chip.stState, fld_setStn, fld_setStn, ← Chip.stState, hfault]
  cases hreq : ((e.setStn n { e.stn n with waiters := [] }).setStn n { e.stn n with waiters := [], holdClamp := false }).flag (WMM_STN_CTRL_CLAMP_REQ n)
  · exact clampRules_stay hreq (by rw [hstate]; decide)
  · exact clampRules_held hreq (by rw [hstate]; decide)

theorem states_apart {y n : Nat} (h : y ≠ n) : ∀ g ∈ stateFields n, apart (WMM_STN_STATE_STATE y) g := by
  simp only [stateFields, List.forall_mem_cons, List.not_mem_nil, false_imp_iff, implies_true, and_true, apart, WMM_STN_STATE_PREV, WMM_STN_STATE_STATE,
    WMM_STN_STATE_CAUSE, WMM_STN_STATE_UNCLAMP_ALLOWED, WMM_STN_TIME_TIME, WMM_STN_EVENT_STATE_CHANGE, WMM_STN_STATE, WMM_STN_TIME, WMM_STN_EVENT]
  omega

theorem completes_foundStopped {x : Station} (hacted : s.chip.flag WMM_PS_STATUS_ACTED = true) (hstop : s.chip.stopped x = true)
    (hst : s.chip.stState x = sParking) (huids : (s.chip.stn x).resetUids = []) (hwait : (s.chip.stn x).waiters = []) :
    Completes (.psStationStopped x) s fun c =>
        c.stState x = sFault ∧ c.fld (WMM_STN_STATE_PREV x) = sParking ∧ c.fld (WMM_STN_STATE_CAUSE x) = s.chip.fld (WMM_STN_STATE_CAUSE x) ∧
        c.flag (WMM_STN_EVENT_STATE_CHANGE x) = true ∧ (c.stn x).parkStep = 0 ∧ (∀ y < 8, y ≠ x.val → c.stState y = s.chip.stState y) ∧ s.chip.bytesKept c := by
  refine completes_event (f := fun c => c.psStopped x) rfl (by simp [hacted, hstop]) ?_
  have hoff := (DriveWork.refl x.val s.chip).sledsOff
  rw [Chip.psStopped]
  dsimp only
  generalize [2 * x.val, 2 * x.val + 1].foldl (fun c p => (c.setSled p { c.sled p with psRun := false }).sledOffBridge p) s.chip = d at hoff
  have hfields {y : Nat} {f : Fld} (hf : f.reg = WMM_STN_STATE y) (hfit : f.lo + f.w ≤ 64) : d.fld f = s.chip.fld f :=
    hoff.fields f hfit fun g hg => state_apart_quiet y x.val g hg f hf
  have hstate (y : Nat) : d.stState y = s.chip.stState y := hfields rfl (Nat.le_of_ble_eq_true rfl)
  have hstn : d.stn x = s.chip.stn x := by rw [Chip.stn, hoff.stations, ← Chip.stn]
  rw [if_neg (by rw [hstate, hst]; simp)]
  have hcause : d.fld (WMM_STN_STATE_CAUSE x) = s.chip.fld (WMM_STN_STATE_CAUSE x) := hfields rfl (Nat.le_of_ble_eq_true rfl)
  have hchanged := stateChanged d x (new := sFault) (cause := d.fld (WMM_STN_STATE_CAUSE x)) (by decide) (fld_lt d (WMM_STN_STATE_CAUSE x))
  generalize d.changeState x sFault (d.fld (WMM_STN_STATE_CAUSE x)) = e at hchanged
  have hrec := hchanged.stn
  rw [hstn] at hrec
  rw [hrec, huids, List.foldl_nil]
  obtain ⟨st₀, st, hwake, _, hstep⟩ := wakeStation_fault
    (e := e.setStn x { s.chip.stn x with changes := (s.chip.stn x).changes + 1, reset := false, resetUids := [], parkStep := 0, causes := [] }) (n := x)
    (by rw [Chip.stState, fld_setStn]; exact hchanged.state) (by rw [stn_setStn]; exact hwait)
  rw [hwake]
  refine ⟨?_, ?_, ?_, ?_, ?_, fun y _ hy => ?_, ?_⟩
  · rw [Chip.stState, fld_setStn, fld_setStn, fld_setStn]
    exact hchanged.state
  · rw [fld_setStn, fld_setStn, fld_setStn, hchanged.prev, hstate, hst]
  · rw [fld_setStn, fld_setStn, fld_setStn, hchanged.shown, hcause]
  · rw [flag_setStn, flag_setStn, flag_setStn, hchanged.event]
  · rw [stn_setStn, hstep, stn_setStn]
  · rw [Chip.stState, fld_setStn, fld_setStn, fld_setStn, hchanged.kept _ (Nat.le_of_ble_eq_true rfl) (states_apart hy)]
    exact hstate y
  · exact bytesKept_trans (bytesKept_trans hoff.bytes hchanged.bytes) (bytesKept_of_eq rfl rfl rfl)

theorem states_apart_park {y p : Nat} (hy : y < 8) (hp : p / 2 < 8) : ∀ g ∈ WMM_STN_STATE_MOUNT_STEP (p / 2) :: WMM_STN_PARKS_COUNT (p / 2) :: parkFields p,
    apart (WMM_STN_STATE_STATE y) g := by
  simp only [parkFields, List.forall_mem_cons, List.not_mem_nil, false_imp_iff, implies_true, and_true, apart, WMM_STN_STATE_MOUNT_STEP,
    WMM_STN_PU_VOLUME_STATE, WCH_CTRL_EN, WMM_STN_PU_LAYER_UNUSABLE, LE_PAIR_EVENT_CMD_LOST, WMM_STN_PARKS_COUNT, WMM_STN_STATE_STATE, WMM_STN_STATE,
    WMM_STN_PARKS, WMM_STN_PU, WCH_CTRL, LE_PAIR_EVENT]
  omega

theorem stState_parkBegun {c : Chip} {n y cause : Nat} (hcause : cause < 32) (h : y ≠ n) : (c.parkBegun n cause).stState y = c.stState y := by
  have hchanged := stateChanged (c.journal actPark n) n (new := sParking) (cause := cause) (by decide) hcause
  have hkept := hchanged.kept _ (Nat.le_of_ble_eq_true rfl) (states_apart h)
  have hparks : apart (WMM_STN_STATE_STATE y) (WMM_STN_PARKS_COUNT n) :=
    apart_of_reg (by simp only [WMM_STN_STATE_STATE, WMM_STN_STATE, WMM_STN_PARKS_COUNT, WMM_STN_PARKS]; omega)
  rw [Chip.stState, Chip.parkBegun, fld_inc_apart _ _ _ (Nat.le_of_ble_eq_true rfl) hparks, fld_setStn, hkept]
  exact fld_of_regs (journal_regs ..) _

/-- A park with idle pickups leaves every other station as it is. -/
theorem stState_park {c : Chip} {n y cause : Nat} (hcause : cause < 32) (hst : c.stState n = sMounted) (hidle : ∀ p, p / 2 = n → ParkIdle c p)
    (hy : y < 8) (hn : n < 8) (h : y ≠ n) : (c.park n cause).stState y = c.stState y := by
  have hbegun := stState_parkBegun (c := c) hcause h
  have hidle₀ := parkIdle_begun (n := n) hcause (hidle (2 * n) (by omega))
  have hidle₁ := parkIdle_begun (n := n) hcause (hidle (2 * n + 1) (by omega))
  rw [park_begins (by simp [hst]), List.foldl_cons, List.foldl_cons, List.foldl_nil]
  generalize c.parkBegun n cause = d at hbegun hidle₀ hidle₁
  have hwork₀ := pickupWork_park hidle₀ cause
  have hwork₁ := pickupWork_park (hwork₀.idle (by omega) hidle₁) cause
  obtain ⟨v, hshow⟩ := showStep_eq ((d.parkPickup (2 * n) cause).parkPickup (2 * n + 1) cause) n
  have hapart (p : Nat) (hp : p / 2 = n) : ∀ g ∈ WMM_STN_STATE_MOUNT_STEP n :: WMM_STN_PARKS_COUNT n :: parkFields p, apart (WMM_STN_STATE_STATE y) g := by
    subst hp
    exact states_apart_park hy hn
  have hstep := hapart (2 * n) (by omega)
  rw [hshow, Chip.stState, fld_setFld_apart _ _ _ _ (Nat.le_of_ble_eq_true rfl) (hstep _ (by simp)),
    hwork₁.kept _ (Nat.le_of_ble_eq_true rfl) fun g hg => hapart (2 * n + 1) (by omega) g (by simp [hg]),
    hwork₀.kept _ (Nat.le_of_ble_eq_true rfl) fun g hg => hstep g (by simp [hg])]
  exact hbegun

theorem completes_linkLost {x : Station} (hdown : s.chip.flag FLM_STATUS_UP = false) (hruns : s.chip.wmRuns .m = true)
    (hacted : s.chip.flag WMM_PS_STATUS_ACTED = false) (hst : s.chip.stState x = sMounted)
    (hothers : ∀ y < 8, y ≠ x.val → stillState (s.chip.stState y)) (hidle : ∀ p, p / 2 = x.val → ParkIdle s.chip p) :
    Completes .linkLost s fun c =>
        c.stState x = sParking ∧ c.fld (WMM_STN_STATE_PREV x) = sMounted ∧ c.fld (WMM_STN_STATE_CAUSE x) = cauLinkLost ∧ (c.stn x).parkStep = 2 ∧
        (c.stn x).causes = [cauLinkLost] ∧ (∀ y < 8, y ≠ x.val → c.stState y = s.chip.stState y) := by
  refine completes_on (f := fun c => c.linkLost) rfl ?_
  have hcause : cauLinkLost < 32 := by decide
  obtain ⟨⟨hstate, hprev, hshown, -⟩, hcauses, hstep, -⟩ := parked_idle hcause hst hidle
  have hkept (y : Nat) (hlt : y < 8) (hy : y ≠ x.val) := stState_park hcause hst hidle hlt x.isLt hy
  have hsame : s.chip.linkLost = s.chip.park x cauLinkLost := by
    obtain ⟨before, after, hrange, hbefore⟩ := List.eq_append_cons_of_mem (List.mem_range.2 x.isLt)
    have hmem {k : Nat} (hk : k ∈ before ∨ k ∈ after) : k < 8 := List.mem_range.1 (by rw [hrange]; simp; tauto)
    have hafter : x.val ∉ after := by
      have hnodup := hrange ▸ (List.nodup_range (n := 8))
      exact (List.nodup_cons.1 (List.nodup_append.1 hnodup).2.1).1
    have hstays {c : Chip} {k : Nat} (hk : stillState (c.stState k)) :
        ¬ (c.stState k = sSpinup ∨ c.stState k = sQualify ∨ c.stState k = sMounted) := by
      obtain ⟨hspin, hqual, hmount, -⟩ := stillState_ne hk
      tauto
    rw [Chip.linkLost, if_neg (by simp [Chip.carrying, hdown, hruns, hacted]), hrange, List.foldl_append, List.foldl_cons,
      foldl_eq_of_fixed fun k hk => if_neg (hstays (hothers k (hmem (.inl hk)) fun heq => hbefore (heq ▸ hk))), if_pos (.inr (.inr hst)),
      foldl_eq_of_fixed fun k hk => if_neg (hstays (by
        have hne : k ≠ x.val := fun heq => hafter (heq ▸ hk)
        rw [hkept k (hmem (.inr hk)) hne]
        exact hothers k (hmem (.inr hk)) hne))]
  rw [hsame]
  exact ⟨hstate, hprev, hshown, hstep, hcauses, hkept⟩

end

/-! ### O45 -/

/-- Settles O45: a watchdog of WM-H leads to FATAL, one of WM-M to the park sequencer, which takes one station after another; a lost Flume parks
the one station that has something to park. -/
theorem watchdogsAndPark : Obligations.WatchdogsAndPark := by
  unfold Obligations.WatchdogsAndPark
  intro s
  refine ⟨fun d peer => completes_fed d peer, fun hfed hfatal hcmds hscrub hup => completes_fatalExpiry hfed ⟨hfatal, hcmds, hscrub, hup⟩,
    completes_sequencer, fun x => completes_foundStopped, fun x hdown hruns hacted hst hothers _ hcmds hstaged hidle =>
      completes_linkLost hdown hruns hacted hst hothers fun p hp => ?_⟩
  obtain ⟨hpass, hqueued, hresults, hcycle, hacq, hreqs, hretry, hqual⟩ := hidle p hp
  exact ⟨hpass, hqueued, hresults, ⟨hcycle, hacq⟩, hreqs, hretry, hqual, by simp [hcmds], hstaged⟩

end Sys2Proof.Machine
end

section
/-! The command table and the completion path (R466, R484, R486, R491): what the start and the end of a command change. -/

namespace Sys2Proof.Machine

/-! ### Weirs and the Cistern's cells -/

/-- The weirs and the Cistern's cells are given. -/
def Chip.withWeirs (c : Chip) (ws : Cells Weir) (cis : Cells CisQueue) (n : Nat) : Chip :=
  { c with core := { c.core with weirs := ws, cis := cis, cisStamp := n } }

/-- Nothing but weirs and the Cistern's cells has changed. -/
def WeirsOnly (c c' : Chip) : Prop := ∃ ws cis n, c' = c.withWeirs ws cis n

section
variable {a c : Chip}

theorem WeirsOnly.refl (c : Chip) : WeirsOnly c c := ⟨_, _, _, rfl⟩

theorem WeirsOnly.trans {b : Chip} (h : WeirsOnly a b) (h' : WeirsOnly b c) : WeirsOnly a c := by
  obtain ⟨_, _, _, rfl⟩ := h
  obtain ⟨ws, cis, n, rfl⟩ := h'
  exact ⟨ws, cis, n, rfl⟩

theorem WeirsOnly.cisSync (h : WeirsOnly a c) (q : Nat) : WeirsOnly a (c.cisSync q) := by
  refine h.trans ?_
  unfold Chip.cisSync
  dsimp only
  split <;> exact ⟨_, _, _, rfl⟩

theorem WeirsOnly.updWeir (h : WeirsOnly a c) (kind index : Nat) (f : Weir → Weir) : WeirsOnly a (c.updWeir kind index f) := by
  have hset : WeirsOnly a (c.setWeir (weirKey kind index) (f (c.weir (weirKey kind index)))) := h.trans ⟨_, _, _, rfl⟩
  unfold Chip.updWeir
  cases cisOf kind index with
  | none => exact hset
  | some q => exact hset.cisSync q

theorem WeirsOnly.commitItem (h : WeirsOnly a c) (kind index : Nat) (ws : List Word) : WeirsOnly a (c.commitItem kind index ws) := h.updWeir ..

theorem WeirsOnly.takeItem (h : WeirsOnly a c) (kind index : Nat) : WeirsOnly a (c.takeItem kind index) := by
  have hset : WeirsOnly a (c.setWeir (weirKey kind index) (c.weir (weirKey kind index)).dropRest.1) := h.trans ⟨_, _, _, rfl⟩
  unfold Chip.takeItem Chip.consumed
  dsimp only
  cases cisOf kind index with
  | none => exact hset
  | some q => exact WeirsOnly.cisSync (hset.trans ⟨_, _, _, rfl⟩) q

theorem WeirsOnly.trimSets (h : WeirsOnly a c) (n : Nat) : WeirsOnly a (c.trimSets n) :=
  List.foldlRecOn (motive := WeirsOnly a) _ _ h fun _ hd _ _ => hd.takeItem 1 n

theorem WeirsOnly.host (h : WeirsOnly a c) : c.host = a.host := by
  obtain ⟨_, _, _, rfl⟩ := h
  rfl

end

/-! ### A command's start -/

/-- The weirs, the Cistern's cells and the command table are given. -/
def Chip.withCmds (c : Chip) (ws : Cells Weir) (cis : Cells CisQueue) (n : Nat) (cmds : List Cmd) : Chip :=
  { c.withWeirs ws cis n with host := { c.host with cmds := cmds } }

/-- The table with the command of a number changed. -/
def changed (cmds : List Cmd) (uid : Nat) (f : Cmd → Cmd) : List Cmd := cmds.map fun m => if m.uid = uid then f m else m

theorem begin_eq (c : Chip) (m : Cmd) : ∃ ws cis n, c.begin m =
    c.withCmds ws cis n (changed c.host.cmds m.uid fun m => { m with started := true }) := by
  have hstart (d : Chip) (hd : WeirsOnly c d) : ∃ ws cis n, (d.updCmd m.uid fun m => { m with started := true }).trimSets m.queue =
      c.withCmds ws cis n (changed c.host.cmds m.uid fun m => { m with started := true }) := by
    obtain ⟨_, _, _, rfl⟩ := hd
    obtain ⟨ws, cis, n, htrim⟩ := (WeirsOnly.refl (Chip.updCmd _ m.uid fun m => { m with started := true })).trimSets m.queue
    exact ⟨ws, cis, n, htrim⟩
  unfold Chip.begin
  dsimp only
  split
  · exact hstart _ ((WeirsOnly.refl c).updWeir 0 _ _)
  · exact hstart c (.refl c)

/-- Which command of a table has a number. -/
def found (cmds : List Cmd) (uid : Nat) : Option Cmd := cmds.find? fun m => m.uid == uid

theorem found_changed {cmds : List Cmd} {uid : Nat} {m : Cmd} (h : found cmds uid = some m) {f : Cmd → Cmd} (hf : (f m).uid = uid) :
    found (changed cmds uid f) uid = some (f m) := by
  induction cmds with
  | nil => simp [found] at h
  | cons x xs ih =>
    rw [found, List.find?_cons] at h
    by_cases hx : x.uid = uid
    · rw [show (x.uid == uid) = true by simpa using hx] at h
      obtain rfl : x = m := by simpa using h
      simp [found, changed, hx, hf]
    · rw [show (x.uid == uid) = false by simpa using hx] at h
      have hrest := ih h
      simpa [found, changed, hx] using hrest

theorem mem_found {cmds : List Cmd} {m : Cmd} (h : m ∈ cmds) (halone : ∀ x ∈ cmds, x.uid = m.uid → x = m) : found cmds m.uid = some m := by
  obtain ⟨y, hy⟩ : ∃ y, cmds.find? (fun x => x.uid == m.uid) = some y :=
    Option.isSome_iff_exists.1 (List.find?_isSome.2 ⟨m, h, by simp⟩)
  rw [found, hy, halone y (List.mem_of_find?_eq_some hy) (by simpa using List.find?_some hy)]

/-- What is known of a command that may start. -/
structure Startable (c : Chip) (n tag op : Nat) (m : Cmd) : Prop where
  run : c.toRun n tag op = some m
  cmd : c.cmd m.uid = some m
  mem : m ∈ c.host.cmds
  alone : ∀ x ∈ c.host.cmds, x.uid = m.uid → x = m
  opcode : m.opcode = op
  status : m.status = none
  started : m.started = false
  mark : m.mark = none
  silent : m.silent = false

theorem startable {c : Chip} {n tag op : Nat} {m : Cmd} (h : Starts c n tag op m) : Startable c n tag op m := by
  obtain ⟨hrun, halone, hmark, hsilent⟩ := h
  have hrun' := hrun
  unfold Chip.toRun at hrun'
  split at hrun'
  · simp at hrun'
  next m' hof =>
    obtain ⟨⟨hop, hstarted, -⟩, rfl⟩ := by simpa using hrun'
    have hmem := List.mem_of_find?_eq_some hof
    have hsome := List.find?_some hof
    exact ⟨hrun, mem_found hmem halone, hmem, halone, hop, by simp_all, hstarted, hmark, hsilent⟩

/-- A command has started, and no more than the weirs and its own entry differ. -/
structure Began (m : Cmd) (c c' : Chip) : Prop where
  same : ∃ ws cis n, c' = c.withCmds ws cis n (changed c.host.cmds m.uid fun m => { m with started := true })
  cmd : c'.cmd m.uid = some { m with started := true }

theorem began {c : Chip} {n tag op : Nat} {m : Cmd} (h : Startable c n tag op m) : Began m c (c.begin m) := by
  have hsame := begin_eq c m
  refine ⟨hsame, ?_⟩
  obtain ⟨ws, cis, k, heq⟩ := hsame
  rw [heq]
  exact found_changed (f := fun m => { m with started := true }) h.cmd rfl

/-! ### A command's end -/

/-- The machine with the command table, the queues, the weirs, the staged list and the accumulators of another. -/
def Chip.tableOf (c c' : Chip) : Chip :=
  { c with
      core := { c.core with weirs := c'.core.weirs, cis := c'.core.cis, cisStamp := c'.core.cisStamp }
      host := { c.host with cmds := c'.host.cmds, queues := c'.host.queues }
      buf := { c.buf with staged := c'.buf.staged, nextSeq := c'.buf.nextSeq }
      path := { c.path with accs := c'.path.accs } }

/-- Nothing has changed but what the completion path changes: the table, the queues, the weirs, the staged list and the accumulators. -/
def TableOnly (c c' : Chip) : Prop := c' = c.tableOf c'

section
variable {a c : Chip}

theorem TableOnly.refl (c : Chip) : TableOnly c c := rfl

theorem TableOnly.trans {b : Chip} (h : TableOnly a b) (h' : TableOnly b c) : TableOnly a c :=
  by
  have hsame : b.tableOf c = (a.tableOf b).tableOf c := congrArg (fun x : Chip => x.tableOf c) (show b = a.tableOf b from h)
  exact Eq.trans h' hsame

theorem WeirsOnly.table (h : WeirsOnly a c) : TableOnly a c := by
  obtain ⟨ws, cis, n, rfl⟩ := h
  rfl

theorem Began.table {m : Cmd} (h : Began m a c) : TableOnly a c := by
  obtain ⟨ws, cis, n, rfl⟩ := h.same
  rfl

theorem TableOnly.setQueue (h : TableOnly a c) (n : Nat) (q : IQueue) : TableOnly a (c.setQueue n q) := h.trans rfl

theorem TableOnly.updCmd (h : TableOnly a c) (uid : Nat) (f : Cmd → Cmd) : TableOnly a (c.updCmd uid f) := h.trans rfl

theorem TableOnly.accOpen (h : TableOnly a c) (p layer cluster : Nat) : TableOnly a (c.accOpen p layer cluster) := by
  refine h.trans ?_
  unfold Chip.accOpen
  dsimp only
  split
  · exact .refl c
  · exact rfl

theorem TableOnly.stagedAppend (h : TableOnly a c) (m : Cmd) : TableOnly a (c.stagedAppend m) :=
  List.foldlRecOn (motive := TableOnly a) _ _ (h.trans rfl) fun _ hd _ _ => hd.accOpen ..

theorem TableOnly.dropCmd (h : TableOnly a c) (m : Cmd) : TableOnly a (c.dropCmd m) := by
  refine h.trans ?_
  unfold Chip.dropCmd
  dsimp only
  split <;> exact rfl

theorem TableOnly.appendGo (n : Nat) : ∀ (us : List Nat) {c : Chip}, TableOnly a c → TableOnly a (c.appendGo n us)
  | [], c, h => h
  | u :: us, c, h => by
    unfold Chip.appendGo
    split
    · exact appendGo n us h
    · split
      · exact appendGo n us h
      · split
        · refine appendGo n us (.trans ?_ ((WeirsOnly.refl _).commitItem ..).table)
          refine TableOnly.updCmd ?_ _ _
          split
          · exact h.stagedAppend _
          · exact h
        · exact h

theorem TableOnly.finish (h : TableOnly a c) (uid status index result count : Nat) : TableOnly a (c.finish uid status index result count) := by
  unfold Chip.finish
  split
  · exact h
  · split
    · exact h
    · split
      · exact h.dropCmd _
      · exact (h.updCmd _ _).appendGo _ _

theorem TableOnly.hostOnly (h : TableOnly a c) : HostOnly a c := by
  exact ⟨congrArg (·.regs) h, congrArg (·.servo) h, congrArg (·.afe) h, congrArg (·.sup) h, bytesKept_of_eq (congrArg (·.buf.mem) h)
    (congrArg (·.sup.boot) h) (congrArg (·.core.sram) h)⟩

end

/-! ### What becomes of a command of the table -/

/-- Every command stays in the table as it is, but that its completion may have entered the path. -/
def Filed (c c' : Chip) : Prop := ∀ uid x, c.cmd uid = some x → ∃ b, c'.cmd uid = some { x with inPath := b }

theorem Filed.refl (c : Chip) : Filed c c := fun _ x h => ⟨x.inPath, h⟩

theorem Filed.trans {a b c : Chip} (h : Filed a b) (h' : Filed b c) : Filed a c := fun uid x hx => by
  obtain ⟨i, hi⟩ := h uid x hx
  obtain ⟨b, hb⟩ := h' uid _ hi
  exact ⟨b, hb⟩

theorem Filed.of_cmds {c c' : Chip} (h : c'.host.cmds = c.host.cmds) : Filed c c' := fun uid x hx => ⟨x.inPath, by rwa [Chip.cmd, h]⟩

theorem filed_updCmd (c : Chip) (u : Nat) : Filed c (c.updCmd u fun m => { m with inPath := true }) := fun uid x hx => by
  have huid : x.uid = uid := by simpa using List.find?_some hx
  by_cases h : u = uid
  · subst h
    exact ⟨true, found_changed (f := fun m => { m with inPath := true }) hx huid⟩
  · refine ⟨x.inPath, ?_⟩
    have hcomp : ((fun m : Cmd => m.uid == uid) ∘ fun m : Cmd => if m.uid = u then { m with inPath := true } else m) = fun m => m.uid == uid := by
      funext m
      simp only [Function.comp_apply]
      split <;> rfl
    show (c.host.cmds.map _).find? _ = _
    rw [List.find?_map, hcomp]
    rw [Chip.cmd] at hx
    rw [hx, Option.map_some, if_neg (by rw [huid]; exact fun heq => h heq.symm)]

theorem cmds_stagedAppend (c : Chip) (m : Cmd) : (c.stagedAppend m).host.cmds = c.host.cmds := by
  refine List.foldlRecOn (motive := fun d : Chip => d.host.cmds = c.host.cmds) _ _ rfl fun d hd _ _ => ?_
  rw [← hd]
  unfold Chip.accOpen
  dsimp only
  split <;> rfl

theorem filed_appendGo (n : Nat) : ∀ (us : List Nat) (c : Chip), Filed c (c.appendGo n us)
  | [], c => .refl c
  | u :: us, c => by
    unfold Chip.appendGo
    split
    · exact filed_appendGo n us c
    next m _ =>
      split
      · exact filed_appendGo n us c
      · split
        · have hstaged : Filed c (if m.opcode = opWrite ∧ m.status = some stOk then c.stagedAppend m else c) := by
            split
            · exact .of_cmds (cmds_stagedAppend c m)
            · exact .refl c
          refine (hstaged.trans (filed_updCmd _ u)).trans (.trans (.of_cmds ?_) (filed_appendGo n us _))
          exact congrArg (·.cmds) ((WeirsOnly.refl _).commitItem ..).host
        · exact .refl c

/-- A command whose status is fixed. -/
def Cmd.fixed (m : Cmd) (status index result count : Nat) : Cmd :=
  { m with status := some (m.mark.getD status), blockIndex := index, result := result, count := count, wait := .none }

/-- A command without a mark ends as it is told to. -/
theorem ends_finish {c : Chip} {m y : Cmd} (hcmd : c.cmd m.uid = some y) (hopen : y.status = none) (hsilent : y.silent = false) (hmark : y.mark = none)
    (htag : y.tag = m.tag) (hqueue : y.queue = m.queue) (status index result count : Nat) :
    Ends (c.finish m.uid status index result count) m status index result count := by
  have huid : y.uid = m.uid := by simpa using List.find?_some hcmd
  have hset : (c.updCmd m.uid fun m => m.fixed status index result count).cmd m.uid = some (y.fixed status index result count) :=
    found_changed (f := fun m => m.fixed status index result count) hcmd huid
  have hend : c.finish m.uid status index result count = (c.updCmd m.uid fun m => m.fixed status index result count).appendCompletions y.queue := by
    rw [Chip.finish, hcmd]
    simp only [hopen, hsilent, Option.isSome_none, Bool.false_eq_true, if_false]
    rfl
  rw [hend]
  obtain ⟨b, hb⟩ := filed_appendGo y.queue ((c.updCmd m.uid fun m => m.fixed status index result count).queue y.queue).order
    (c.updCmd m.uid fun m => m.fixed status index result count) m.uid _ hset
  exact ⟨_, hb, by simp [Cmd.fixed, hmark], rfl, rfl, rfl, htag, hqueue⟩

/-- The table's entry of a command that has just started. -/
theorem ends_begun {c c' : Chip} {n tag op : Nat} {m : Cmd} (hstart : Startable c n tag op m) (hcmd : c'.cmd m.uid = some { m with started := true })
    (status index result count : Nat) : Ends (c'.finish m.uid status index result count) m status index result count :=
  ends_finish hcmd hstart.status hstart.silent hstart.mark rfl rfl ..

end Sys2Proof.Machine
end

section
/-! What an access to buffer DRAM may change beside its bytes (R534 to R539, R543 to R547), up to the fatal error that an uncorrectable unit under
staged data brings, and the load of an engine's image through it (R501, R612). -/

namespace Sys2Proof.Machine

/-- The counts and events of buffer DRAM and of the block cache that an access may change. -/
def memFields : List Fld :=
  [BUF_INJECT_ARMED, BUF_CE_UNITS_COUNT, BUF_CE_WRITEBACKS_COUNT, BUF_EVENT_CE, BUF_LAST_CE_ADDR, BUF_LAST_CE_DEVICE, BUF_LAST_CE_SUBCH,
    BUF_CE_DEVICE_UNITS_COUNT, BUF_EVENT_CE_DEVICE, BUF_UE_UNITS_COUNT, BUF_EVENT_UE, BUF_LAST_UE_ADDR, BUF_LAST_UE_STAGED, BUF_EVENT_UE_STAGED,
    BUF_RMW_COUNT, CCH_HITS_COUNT, CCH_VICTIM_HITS_COUNT, CCH_EVICT_HITS_COUNT]

/-- Work on buffer DRAM, the cache and what they hold: hosts, stations, engines and the list of staged writes are as before, and the memories keep
their form. -/
structure MemWork (c c' : Chip) : Prop where
  host : c'.host = c.host
  servo : c'.servo = c.servo
  sup : c'.sup = c.sup
  afe : c'.afe = c.afe
  arch : c'.arch = c.arch
  engs : c'.core.engines = c.core.engines
  staged : c'.buf.staged = c.buf.staged
  fields : c.fieldsKept memFields c'
  wf : Memory.wf c = true → Memory.wf c' = true

section
variable {a c : Chip}

theorem MemWork.refl (c : Chip) : MemWork c c := ⟨rfl, rfl, rfl, rfl, rfl, rfl, rfl, fieldsKept_refl _ _, id⟩

theorem MemWork.trans {b : Chip} (h : MemWork a b) (h' : MemWork b c) : MemWork a c :=
  ⟨h'.host.trans h.host, h'.servo.trans h.servo, h'.sup.trans h.sup, h'.afe.trans h.afe, h'.arch.trans h.arch, h'.engs.trans h.engs,
    h'.staged.trans h.staged, fieldsKept_trans h.fields h'.fields, fun hwf => h'.wf (h.wf hwf)⟩

theorem MemWork.setFld (h : MemWork a c) {g : Fld} (v : Nat) (hg : g ∈ memFields) : MemWork a (c.setFld g v) :=
  { h with fields := fieldsKept_setFld g v hg h.fields }

theorem MemWork.mark (h : MemWork a c) {g : Fld} (hg : g ∈ memFields) : MemWork a (c.mark g) := h.setFld 1 hg

theorem MemWork.inc (h : MemWork a c) {g : Fld} (hg : g ∈ memFields) : MemWork a (c.inc g) :=
  { h with fields := fieldsKept_inc g hg h.fields }

/-- Steps that touch no register, no memory and only the cache, the weirs, the read path or the free values. -/
theorem MemWork.side (h : MemWork a c) {d : Chip} (hregs : d.regs = c.regs) (hhost : d.host = c.host) (hservo : d.servo = c.servo)
    (hsup : d.sup = c.sup) (hafe : d.afe = c.afe) (harch : d.arch = c.arch) (hengs : d.core.engines = c.core.engines)
    (hstaged : d.buf.staged = c.buf.staged) (hmem : d.buf.mem = c.buf.mem) (hsram : d.core.sram = c.core.sram) : MemWork a d :=
  h.trans ⟨hhost, hservo, hsup, hafe, harch, hengs, hstaged, fieldsKept_of_regs hregs, fun hwf =>
    (memory_wf_of_eq c d hmem (congrArg (·.boot) hsup) hsram).trans hwf⟩

theorem MemWork.putBytes (h : MemWork a c) (x : Nat) (bs : List Byte) : MemWork a (c.putBytes x bs) :=
  h.trans ⟨rfl, rfl, rfl, rfl, rfl, rfl, rfl, fieldsKept_of_regs rfl, memory_wf_putBytes c x bs⟩

theorem MemWork.setUnitMark (h : MemWork a c) (u : Nat) (m : UnitMark) : MemWork a (c.setUnitMark u m) :=
  h.side rfl rfl rfl rfl rfl rfl rfl rfl rfl rfl

theorem MemWork.setCacheSet (h : MemWork a c) (k : Nat) (x : CacheSet) : MemWork a (c.setCacheSet k x) :=
  h.side rfl rfl rfl rfl rfl rfl rfl rfl rfl rfl

theorem MemWork.bufWrite (h : MemWork a c) (x : Nat) (bs : List Byte) : MemWork a (c.bufWrite x bs) := by
  refine List.foldlRecOn (motive := MemWork a) _ _ (h.putBytes x bs) fun d hd u _ => ?_
  unfold Chip.markWritten
  split
  · exact (hd.setFld 0 (by simp [memFields])).setUnitMark _ _
  · exact hd.setUnitMark _ _

theorem MemWork.patchUnit (h : MemWork a c) (u : Nat) (off : List (Nat × Nat)) : MemWork a (c.patchUnit u off) :=
  List.foldlRecOn (motive := MemWork a) _ _ h fun _ hd _ _ => hd.putBytes _ _

theorem MemWork.noteCe (h : MemWork a c) (u : Nat) (dev : Option Nat) : MemWork a (c.noteCe u dev) := by
  have hnoted : MemWork a (((((c.inc BUF_CE_UNITS_COUNT).inc BUF_CE_WRITEBACKS_COUNT).mark BUF_EVENT_CE).setFld BUF_LAST_CE_ADDR (64 * u)).setFld
      BUF_LAST_CE_DEVICE (dev.getD 15)) :=
    ((((h.inc (by simp [memFields])).inc (by simp [memFields])).mark (by simp [memFields])).setFld _ (by simp [memFields])).setFld _ (by simp [memFields])
  have hall := hnoted.setFld (g := BUF_LAST_CE_SUBCH) (u % 8) (by simp [memFields])
  unfold Chip.noteCe
  split
  · exact (hall.inc (by simp [memFields])).mark (by simp [memFields])
  · exact hall

theorem MemWork.spoilDeep (h : MemWork a c) (u : Nat) : MemWork a (c.spoilDeep u) := by
  refine List.foldlRecOn (motive := MemWork a) _ _ h fun d hd k _ => ?_
  split
  · exact hd
  · exact hd.side rfl rfl rfl rfl rfl rfl rfl rfl rfl rfl

theorem MemWork.cutAt (h : MemWork a c) (seq : Nat) : MemWork a (c.cutAt seq) := by
  unfold Chip.cutAt
  dsimp only
  split
  · exact h
  · exact h.side rfl rfl rfl rfl rfl rfl rfl rfl rfl rfl

end

/-! ### What an uncorrectable unit brings about -/

/-- The machine before the fatal error that an uncorrectable unit under a staged entry brings. -/
def Chip.stagedLost (c : Chip) (seq : Nat) : Chip := ((c.mark BUF_LAST_UE_STAGED).mark BUF_EVENT_UE_STAGED).cutAt seq

theorem memWork_stagedLost (c : Chip) (seq : Nat) : MemWork c (c.stagedLost seq) :=
  (((MemWork.refl c).mark (by simp [memFields])).mark (by simp [memFields])).cutAt seq

/-- A relation that holds across work on the buffer, and across the fatal error where writes are staged, holds across every access to memory. -/
structure Absorbs (R : Chip → Chip → Prop) : Prop where
  trans : ∀ {a b c}, R a b → R b c → R a c
  work : ∀ {c c'}, MemWork c c' → R c c'
  fatal : ∀ {c}, c.buf.staged ≠ [] → R c (c.enterFatal 2)

section
variable {R : Chip → Chip → Prop} {a c : Chip}

theorem Absorbs.then_work (hR : Absorbs R) {d : Chip} (h : R a c) (hw : MemWork c d) : R a d := hR.trans h (hR.work hw)

theorem Absorbs.ueOutcome (hR : Absorbs R) (h : R a c) (u : Nat) : R a (c.ueOutcome u) := by
  unfold Chip.ueOutcome
  dsimp only
  split
  next e he =>
    have hlost := memWork_stagedLost c e.seq
    refine hR.trans (hR.then_work h hlost) (hR.fatal (c := c.stagedLost e.seq) ?_)
    rw [hlost.staged]
    exact List.ne_nil_of_mem (List.mem_of_find?_eq_some he)
  · have hclear : MemWork c (c.setFld BUF_LAST_UE_STAGED 0) := (MemWork.refl c).setFld 0 (by simp [memFields])
    refine hR.then_work h ?_
    split_ifs
    · exact hclear.side rfl rfl rfl rfl rfl rfl rfl rfl rfl rfl
    · exact hclear.spoilDeep u
    · exact hclear.bufWrite _ _
    · exact hclear.bufWrite _ _
    · exact hclear.side rfl rfl rfl rfl rfl rfl rfl rfl rfl rfl
    · exact hclear.side rfl rfl rfl rfl rfl rfl rfl rfl rfl rfl
    · split
      · exact hclear.side rfl rfl rfl rfl rfl rfl rfl rfl rfl rfl
      · exact hclear
    · exact hclear

theorem Absorbs.noteUe (hR : Absorbs R) (h : R a c) (u : Nat) : R a (c.noteUe u) :=
  hR.ueOutcome (hR.then_work h ((((MemWork.refl c).inc (by simp [memFields])).mark (by simp [memFields])).setFld _ (by simp [memFields]))) u

theorem Absorbs.readUnit (hR : Absorbs R) (h : R a c) (u : Nat) : R a (c.readUnit u).2 := by
  have hdraw : R a c.draw.2 := hR.then_work h ((MemWork.refl c).side rfl rfl rfl rfl rfl rfl rfl rfl rfl rfl)
  unfold Chip.readUnit
  split
  · exact h
  · split
    · exact h
    · dsimp only
      split
      · exact hR.noteUe hdraw u
      · exact hdraw
  · split
    · exact hR.then_work h (((MemWork.refl c).patchUnit _ _).setUnitMark _ _)
    · exact hR.then_work h ((((MemWork.refl c).patchUnit _ _).setUnitMark _ _).noteCe _ _)
    · exact hR.noteUe h u

theorem Absorbs.readUnits (hR : Absorbs R) (h : R a c) (us : List Nat) : R a (c.readUnits us).2 :=
  List.foldlRecOn (motive := fun r : Bool × Chip => R a r.2) _ _ h fun _ hr u _ => hR.readUnit hr u

theorem Absorbs.rmwUnit (hR : Absorbs R) (h : R a c) (u : Nat) : R a (c.rmwUnit u) := by
  have hread := hR.readUnit (hR.then_work h ((MemWork.refl c).inc (g := BUF_RMW_COUNT) (by simp [memFields]))) u
  unfold Chip.rmwUnit
  dsimp only
  split
  · exact hR.then_work hread ((MemWork.refl _).patchUnit _ _)
  · exact hread

theorem Absorbs.dramWrite (hR : Absorbs R) (h : R a c) (x : Nat) (bs : List Byte) : R a (c.dramWrite x bs) :=
  hR.then_work (List.foldlRecOn (motive := R a) _ _ h fun _ hd u _ => hR.rmwUnit hd u) ((MemWork.refl _).bufWrite _ _)

end

/-! ### The cache -/

section
variable {a c : Chip}

theorem MemWork.recall (h : MemWork a c) (i : Nat) (l : Line) : MemWork a (c.recall i l) := by
  have hinc : MemWork a (c.inc CCH_VICTIM_HITS_COUNT) := h.inc (by simp [memFields])
  unfold Chip.recall
  dsimp only
  split
  · exact hinc.side rfl rfl rfl rfl rfl rfl rfl rfl rfl rfl
  · refine MemWork.setCacheSet ?_ _ _
    split
    · exact hinc.side rfl rfl rfl rfl rfl rfl rfl rfl rfl rfl
    · exact hinc

theorem MemWork.touchLine (h : MemWork a c) (line : Nat) : MemWork a (c.touchLine line) := by
  unfold Chip.touchLine
  dsimp only
  split
  · exact (h.inc (by simp [memFields])).setCacheSet _ _
  · split
    · exact h.recall _ _
    · split
      · exact h.inc (by simp [memFields])
      · exact h

theorem MemWork.mapLine (h : MemWork a c) (line : Nat) (f : Line → Line) : MemWork a (c.mapLine line f) := by
  unfold Chip.mapLine
  dsimp only
  split
  · exact h.side rfl rfl rfl rfl rfl rfl rfl rfl rfl rfl
  · exact h.side rfl rfl rfl rfl rfl rfl rfl rfl rfl rfl

theorem MemWork.scrubInit (h : MemWork a c) (start len : Nat) : MemWork a (c.scrubInit start len) :=
  h.trans ⟨rfl, rfl, rfl, rfl, rfl, rfl, rfl, fieldsKept_of_regs rfl, fun hwf => memory_wf_of c _ hwf (Cells.wf_filter _ _ _) id id id⟩

theorem MemWork.sramWrite (h : MemWork a c) (e : Engine) (o : Nat) (bs : List Byte) : MemWork a (c.sramWrite e o bs) :=
  h.trans ⟨rfl, rfl, rfl, rfl, rfl, rfl, rfl, fieldsKept_of_regs rfl, memory_wf_sramWrite c e o bs⟩

end

section
variable {R : Chip → Chip → Prop} {a c : Chip}

theorem Absorbs.memWrite (hR : Absorbs R) (h : R a c) (x : Nat) (bs : List Byte) : R a (c.memWrite x bs) := by
  refine List.foldlRecOn (motive := R a) _ _ (hR.dramWrite h x bs) fun d hd p _ => ?_
  split
  · exact hd
  · exact hR.then_work hd (((MemWork.refl d).touchLine _).mapLine _ _)

theorem Absorbs.memRead (hR : Absorbs R) (h : R a c) (x n : Nat) : R a (c.memRead x n).2 := by
  refine List.foldlRecOn (motive := fun r : Option (List Byte) × Chip => R a r.2) _ _ h fun r hr p _ => ?_
  split
  · exact hR.then_work hr ((MemWork.refl _).touchLine _)
  · exact hR.readUnits hr _

/-! ### Images -/

theorem Absorbs.loadSection (hR : Absorbs R) (h : R a c) (e : Engine) (x : Nat × Nat × Option (List Byte)) : R a (c.loadSection e x) := by
  unfold Chip.loadSection
  split
  · dsimp only
    split
    · exact hR.then_work h ((MemWork.refl c).sramWrite _ _ _)
    · exact hR.then_work h ⟨rfl, rfl, rfl, rfl, rfl, rfl, rfl, fieldsKept_of_regs rfl, memory_wf_sramClear c _⟩
  · split
    · exact hR.memWrite h _ _
    · exact hR.then_work h ((MemWork.refl c).scrubInit _ _)

/-- An engine is reset and its image loaded: what holds after the reset, and across memory accesses, holds. -/
theorem Absorbs.loadRiscv (hR : Absorbs R) {e : Engine} (h : R a (c.engineReset e)) (img : List Byte) : R a (c.loadRiscv e img) := by
  unfold Chip.loadRiscv
  dsimp only
  split
  · exact h
  · refine List.foldlRecOn (motive := R a) _ _ (hR.then_work h ?_) fun d hd x _ => hR.loadSection hd e x
    exact ⟨rfl, rfl, rfl, rfl, rfl, rfl, rfl, fieldsKept_of_regs rfl, memory_wf_sramClear _ _⟩

end

end Sys2Proof.Machine
end

section
/-! Proofs about the admin commands GET_LOG, SET_FEATURE, CACHE, SCRUB, CALIBRATE and ACTIVATE: O53. -/

namespace Sys2Proof.Machine

theorem HostOnly.trans {a b c : Chip} (h : HostOnly a b) (h' : HostOnly b c) : HostOnly a c := by
  obtain ⟨hregs, hservo, hafe, hsup, hbytes⟩ := h
  obtain ⟨hregs', hservo', hafe', hsup', hbytes'⟩ := h'
  exact ⟨hregs'.trans hregs, hservo'.trans hservo, hafe'.trans hafe, hsup'.trans hsup, bytesKept_trans hbytes hbytes'⟩

/-! ### Pushes to the host -/

theorem Chip.postsOnly.hostOnly {a c : Chip} (h : a.postsOnly c) : HostOnly a c :=
  ⟨congrArg (·.regs) h, congrArg (·.servo) h, congrArg (·.afe) h, congrArg (·.sup) h,
    bytesKept_of_eq (congrArg (·.buf.mem) h) (congrArg (·.sup.boot) h) (congrArg (·.core.sram) h)⟩

section
variable (ws : Cells Weir) (cis : Cells CisQueue) (k : Nat) (cmds : List Cmd)

theorem post_withCmds (c : Chip) (x : Nat) (kind : PostKind) (addr : Nat) (bs : List Byte) :
    (c.withCmds ws cis k cmds).post x kind addr bs = (c.post x kind addr bs).withCmds ws cis k cmds := by
  have hheld : (c.withCmds ws cis k cmds).host.portHeld = c.host.portHeld := rfl
  unfold Chip.post
  rw [hheld]
  split <;> rfl

theorem postData_withCmds (x n addr : Nat) (bs : List Byte) (c : Chip) :
    (c.withCmds ws cis k cmds).postData x n addr bs = (c.postData x n addr bs).withCmds ws cis k cmds := by
  induction n generalizing c addr bs with
  | zero => rfl
  | succ n ih =>
    have hmax : (c.withCmds ws cis k cmds).maxPayload x = c.maxPayload x := rfl
    simp only [Chip.postData, post_withCmds, ih, hmax]
    exact (apply_ite (fun d : Chip => d.withCmds ws cis k cmds) _ _ _).symm

/-- What a push writes to the host does not depend on the command table. -/
theorem pushGo_withCmds (x : Nat) (es : List (Nat × Nat)) (off : Nat) (bs : List Byte) (c : Chip) :
    (c.withCmds ws cis k cmds).pushGo x es off bs = (c.pushGo x es off bs).withCmds ws cis k cmds := by
  induction es generalizing c off bs with
  | nil => rfl
  | cons e es ih =>
    simp only [Chip.pushGo, postData_withCmds, ih]
    exact (apply_ite (fun d : Chip => d.withCmds ws cis k cmds) _ _ _).symm

end

/-! ### GET_LOG -/

section
variable {s : State} {n tag : Nat} {m : Cmd}

/-- The part of a page that a GET_LOG asks for is pushed. -/
theorem pushed_page {c : Chip} {op : Nat} (h : Startable c n tag op m) (page : List Byte) :
    Ends ((c.begin m).pushPage m page) m stOk 0 ((page.drop m.arg1).take m.arg2).length 0 ∧
      ((c.begin m).pushPage m page).host.posts = (c.pushGo m.port m.entries 0 ((page.drop m.arg1).take m.arg2)).host.posts ∧
      HostOnly c ((c.begin m).pushPage m page) := by
  have hbegan := began h
  obtain ⟨ws, cis, k, hsame⟩ := hbegan.same
  unfold Chip.pushPage
  dsimp only
  have hpush := postsOnly_pushGo (c.begin m) m.port m.entries 0 ((page.drop m.arg1).take m.arg2)
  have hposts : ((c.begin m).pushGo m.port m.entries 0 ((page.drop m.arg1).take m.arg2)).host.posts =
      (c.pushGo m.port m.entries 0 ((page.drop m.arg1).take m.arg2)).host.posts := by
    rw [hsame, pushGo_withCmds]
    rfl
  have hcmd : ((c.begin m).pushGo m.port m.entries 0 ((page.drop m.arg1).take m.arg2)).cmd m.uid = some { m with started := true } := by
    rw [Chip.cmd, congrArg (·.host.cmds) hpush]
    exact hbegan.cmd
  generalize (c.begin m).pushGo m.port m.entries 0 ((page.drop m.arg1).take m.arg2) = d at *
  have hend := (TableOnly.refl d).finish m.uid stOk 0 ((page.drop m.arg1).take m.arg2).length 0
  exact ⟨ends_begun h hcmd .., (congrArg (·.host.posts) hend).trans hposts, (hbegan.table.hostOnly.trans hpush.hostOnly).trans hend.hostOnly⟩

theorem completes_logRow {f : Cmd → Chip → Chip} {ok : Nat → Bool} {i : Instr} {P : Chip → Prop} (h : Startable s.chip n tag opGetLog m)
    (hi : exec i s = s.on fun c => c.logRow n tag ok f) (hok : ok (m.arg0 % 256) = true) (hP : P (f m (s.chip.begin m))) : Completes i s P := by
  refine completes_on hi ?_
  rw [Chip.logRow, h.run]
  dsimp only
  rwa [if_pos hok]

/-- The first entry of the device log, where its unit is good and no line lies over it. -/
theorem logBytes_first {c : Chip} (hline : c.lineOf 256 = none) (hgood : c.unitMark (mib / 64) = .good) : c.logBytes 0 = (c.bytes mib 32, c) := by
  have hpieces : linePieces mib 32 = [(256, 0, 32)] := by decide
  have hunits : unitsOf mib 32 = [mib / 64] := by decide
  have hplace : 4096 * 256 + 0 = mib := by simp [mib]
  have hread : c.memRead mib 32 = (some (c.bytes mib 32), c) := by
    rw [Chip.memRead, hpieces, List.foldl_cons, List.foldl_nil]
    simp only [hline, hplace, hunits, readUnits_allGood (us := [mib / 64]) (by simpa using hgood), Bool.false_eq_true, if_false, Option.map_some,
      List.nil_append]
  rw [Chip.logBytes, Nat.zero_mod, Nat.mul_zero, Nat.add_zero, hread]
  rfl

theorem deviceLog_first {c : Chip} {bs : List Byte} (hlogged : c.core.logged = 1) (hoff : m.arg1 = 0) (hlen : m.arg2 = 32)
    (hread : c.logBytes 0 = (bs, c)) : c.deviceLog m = c.pushPage m bs := by
  unfold Chip.deviceLog
  rw [hlogged, hoff, hlen]
  norm_num
  rw [hread]

/-! ### The journal of the flash -/

theorem flashBytes_of_sup {c c' : Chip} (h : c'.sup = c.sup) : c'.flashBytes = c.flashBytes := by
  funext a k
  rw [Chip.flashBytes, Chip.boot, h, Chip.flashBytes, Chip.boot]

theorem sectorEntries_of_sup {c c' : Chip} (h : c'.sup = c.sup) (k : Nat) : ∀ n i, c'.sectorEntries k n i = c.sectorEntries k n i
  | 0, _ => rfl
  | n + 1, i => by
    rw [Chip.sectorEntries, Chip.sectorEntries, flashBytes_of_sup h, sectorEntries_of_sup h k n]

/-- The journal is what the flash holds. -/
theorem journalLive_of_sup {c c' : Chip} (h : c'.sup = c.sup) : c'.journalLive = c.journalLive := by
  have hgen : c'.sectorGen = c.sectorGen := by
    funext k
    rw [Chip.sectorGen, Chip.sectorGen, flashBytes_of_sup h]
  have hentries : c'.journalEntries = c.journalEntries := by
    rw [Chip.journalEntries, Chip.journalEntries, Chip.currentSector, Chip.currentSector, hgen]
    simp only [sectorEntries_of_sup h]
  rw [Chip.journalLive, hentries, ← Chip.journalLive]

/-! ### SET_FEATURE -/

theorem completes_featRow {f : Cmd → Chip → Chip} {ok : Nat → Bool} {i : Instr} {P : Chip → Prop} (h : Startable s.chip n tag opFeature m)
    (hi : exec i s = s.on fun c => c.featRow n tag ok f) (hok : ok (m.arg0 % 65536) = true) (hP : P (f m (s.chip.begin m))) : Completes i s P := by
  refine completes_on hi ?_
  rw [Chip.featRow, h.run]
  dsimp only
  rwa [if_pos hok]

/-- A SET_FEATURE of one unit: it answers the earlier value and sets the new one. -/
theorem featureRow_one {c : Chip} {limit : Nat} {mdie : Bool} {get : Chip → Nat → Nat} {put : Nat → Chip → Nat → Chip}
    (hsel : bitsOf m.arg0 16 8 ≤ 15) (hval : m.arg1 ≤ limit) (hup : mdie = true → c.flag FLM_STATUS_UP = true) :
    c.featureRow m limit mdie get put = (put m.arg1 c (bitsOf m.arg0 16 8)).finish m.uid stOk 0 (get c (bitsOf m.arg0 16 8)) 0 := by
  have hin : ¬ ((15 < bitsOf m.arg0 16 8 ∧ bitsOf m.arg0 16 8 ≠ 255) ∨ limit < m.arg1) := by omega
  have hall : bitsOf m.arg0 16 8 ≠ 255 := by omega
  have hflume : ¬ (mdie = true ∧ (!c.flag FLM_STATUS_UP) = true) := fun h => by simp [hup h.1] at h
  unfold Chip.featureRow
  simp only [if_neg hin, if_neg hflume, if_neg hall]
  rfl

/-- A row of a started command: what it does to its own entry and to the rest, and then its end. -/
theorem ends_after {c d : Chip} {op : Nat} (h : Startable c n tag op m) (hcmds : d.host.cmds = (c.begin m).host.cmds) (status index result count : Nat) :
    Ends (d.finish m.uid status index result count) m status index result count :=
  ends_begun h (by rw [Chip.cmd, hcmds]; exact (began h).cmd) ..

theorem fieldsKept_finish {L : List Fld} {a c : Chip} (h : a.fieldsKept L c) (uid status index result count : Nat) :
    a.fieldsKept L (c.finish uid status index result count) :=
  fieldsKept_regs (congrArg (·.regs) ((TableOnly.refl c).finish uid status index result count)) h

theorem bytesKept_finish {a c : Chip} (h : a.bytesKept c) (uid status index result count : Nat) :
    a.bytesKept (c.finish uid status index result count) :=
  bytesKept_trans h ((TableOnly.refl c).finish uid status index result count).hostOnly.2.2.2.2

theorem fld_finish (c : Chip) (uid status index result count : Nat) (f : Fld) : (c.finish uid status index result count).fld f = c.fld f :=
  fld_of_regs (congrArg (·.regs) ((TableOnly.refl c).finish uid status index result count)) f

theorem Began.regs {c c' : Chip} (h : Began m c c') : c'.regs = c.regs := congrArg (·.regs) h.table

theorem Began.bytes {c c' : Chip} (h : Began m c c') : c.bytesKept c' := h.table.hostOnly.2.2.2.2

theorem fld_width_one {v : Nat} (f : Fld) (hw : f.w = 1) (hv : v ≤ 1) (c : Chip) (hf : f.lo + f.w ≤ 64) : (c.setFld f v).fld f = v := by
  rw [fld_setFld_same _ _ _ hf, hw]
  omega

theorem completes_readAhead (h : Startable s.chip n tag opFeature m) (hfeat : m.arg0 % 65536 = 1) (hsel : bitsOf m.arg0 16 8 ≤ 15)
    (hval : m.arg1 ≤ 2048) : Completes (.featureReadAhead n tag) s fun c =>
      Ends c m stOk 0 (Cells.get (fun _ => 256) s.chip.host.readAhead (bitsOf m.arg0 16 8)) 0 ∧
        Cells.get (fun _ => 256) c.host.readAhead (bitsOf m.arg0 16 8) = m.arg1 ∧
        (∀ v, v ≠ bitsOf m.arg0 16 8 → Cells.get (fun _ => 256) c.host.readAhead v = Cells.get (fun _ => 256) s.chip.host.readAhead v) ∧
        HostOnly s.chip c := by
  refine completes_featRow h rfl (by simp [hfeat]) ?_
  rw [if_pos hfeat, featureRow_one hsel hval (by simp)]
  have hbegan := began h
  obtain ⟨ws, cis, k, hsame⟩ := hbegan.same
  have hold : (s.chip.begin m).host.readAhead = s.chip.host.readAhead := by rw [hsame]; rfl
  have hset : HostOnly (s.chip.begin m) ((s.chip.begin m).setReadAhead (bitsOf m.arg0 16 8) m.arg1) := ⟨rfl, rfl, rfl, rfl, bytesKept_of_eq rfl rfl rfl⟩
  have hends := ends_after h (d := (s.chip.begin m).setReadAhead (bitsOf m.arg0 16 8) m.arg1) rfl stOk 0
    (Cells.get (fun _ => 256) (s.chip.begin m).host.readAhead (bitsOf m.arg0 16 8)) 0
  have hend := (TableOnly.refl ((s.chip.begin m).setReadAhead (bitsOf m.arg0 16 8) m.arg1)).finish m.uid stOk 0
    (Cells.get (fun _ => 256) (s.chip.begin m).host.readAhead (bitsOf m.arg0 16 8)) 0
  rw [hold] at hends hend
  rw [hold]
  have hlist : (Chip.finish _ m.uid stOk 0 _ 0).host.readAhead = _ := congrArg (·.host.readAhead) hend
  rw [hlist]
  refine ⟨hends, ?_, fun v hv => ?_, (hbegan.table.hostOnly.trans hset).trans hend.hostOnly⟩
  · exact Cells.get_put_same ..
  · exact (Cells.get_put_other _ _ _ _ _ hv).trans (by rw [hold])

theorem completes_rescue (h : Startable s.chip n tag opFeature m) (hfeat : m.arg0 % 65536 = 2) (hsel : bitsOf m.arg0 16 8 ≤ 15)
    (hval : m.arg1 ≤ 1) (hup : s.chip.flag FLM_STATUS_UP = true) : Completes (.featureRescue n tag) s fun c =>
      Ends c m stOk 0 (s.chip.fld (FRM_CTRL_RESCUE_EN (bitsOf m.arg0 16 8))) 0 ∧ c.fld (FRM_CTRL_RESCUE_EN (bitsOf m.arg0 16 8)) = m.arg1 ∧
        s.chip.fieldsKept [FRM_CTRL_RESCUE_EN (bitsOf m.arg0 16 8)] c ∧ s.chip.bytesKept c := by
  refine completes_featRow h rfl (by simp [hfeat]) ?_
  have hbegan := began h
  rw [featureRow_one hsel hval fun _ => (flag_eq_of_fld (fld_of_regs hbegan.regs _)).trans hup]
  have hold : (s.chip.begin m).fld (FRM_CTRL_RESCUE_EN (bitsOf m.arg0 16 8)) = s.chip.fld (FRM_CTRL_RESCUE_EN (bitsOf m.arg0 16 8)) :=
    fld_of_regs hbegan.regs _
  rw [hold]
  refine ⟨ends_after h (by rfl) _ _ _ _, ?_, fieldsKept_finish (fieldsKept_setFld _ _ (by simp) (fieldsKept_of_regs hbegan.regs)) _ _ _ _ _,
    bytesKept_finish (bytesKept_trans hbegan.bytes (bytesKept_of_regsOnly (regsOnly_setFld _ _ (regsOnly_refl _)))) _ _ _ _ _⟩
  rw [fld_finish]
  exact fld_width_one _ rfl hval _ (Nat.le_of_ble_eq_true rfl)

theorem completes_stationEvents (h : Startable s.chip n tag opFeature m) (hfeat : m.arg0 % 65536 = 4) (hval : m.arg1 ≤ 1)
    (hport : m.port < s.chip.host.stationEvents.length) : Completes (.featureStationEvents n tag) s fun c =>
      Ends c m stOk 0 (s.chip.host.stationEvents.getD m.port false).toNat 0 ∧ c.host.stationEvents.getD m.port false = (m.arg1 == 1) ∧
        HostOnly s.chip c := by
  refine completes_featRow h rfl (by simp [hfeat]) ?_
  have hbegan := began h
  obtain ⟨ws, cis, k, hsame⟩ := hbegan.same
  have hold : (s.chip.begin m).host.stationEvents = s.chip.host.stationEvents := by rw [hsame]; rfl
  dsimp only
  rw [if_neg (by omega), hold]
  refine ⟨ends_after h (by rfl) _ _ _ _, ?_, (hbegan.table.hostOnly.trans ?_).trans ((TableOnly.refl _).finish ..).hostOnly⟩
  · have hlist (d : Chip) (r : Nat) : (d.finish m.uid stOk 0 r 0).host.stationEvents = d.host.stationEvents :=
      congrArg (·.host.stationEvents) ((TableOnly.refl d).finish m.uid stOk 0 r 0)
    rw [hlist]
    simp [List.getD, hport]
  · exact ⟨rfl, rfl, rfl, rfl, bytesKept_of_eq rfl rfl rfl⟩

theorem oldValue_free (c : Chip) (xs : List Nat) : ∃ f, (c.oldValue xs).2 = { c with free := f } := by
  unfold Chip.oldValue
  split
  · exact ⟨_, rfl⟩
  · split <;> exact ⟨_, rfl⟩

theorem oldValue_same (c : Chip) (v : Nat) : (c.oldValue (List.replicate 8 v)).1 = v := by simp [Chip.oldValue, List.replicate]

/-- The writes of `LEARN_EN` to the eight lanes from `b` on. -/
def learnWrites (b v : Nat) : List (Fld × Nat) := (List.range 8).map fun k => (RCH_CTRL_LEARN_EN (b + k), v)

theorem learnWrites_fst (b v : Nat) : (learnWrites b v).map Prod.fst = (List.range 8).map fun k => RCH_CTRL_LEARN_EN (b + k) := by
  rw [learnWrites, List.map_map]
  rfl

theorem learn_putFlds (c : Chip) (b v : Nat) :
    ((List.range 8).map (b + ·)).foldl (fun c l => c.setFld (RCH_CTRL_LEARN_EN l) v) c = c.putFlds (learnWrites b v) := by
  rw [Chip.putFlds, learnWrites, List.foldl_map, List.foldl_map]

theorem learn_apart (b v : Nat) : (learnWrites b v).Pairwise fun x y => apart x.1 y.1 := by
  rw [learnWrites, List.pairwise_map]
  refine List.Pairwise.imp (fun {i j} h => apart_of_reg ?_) (List.nodup_range (n := 8))
  simp only [RCH_CTRL_LEARN_EN, RCH_CTRL]
  omega

theorem mem_learnWrites {b v k : Nat} (hk : k < 8) : (RCH_CTRL_LEARN_EN (b + k), v) ∈ learnWrites b v :=
  List.mem_map_of_mem (f := fun k => (RCH_CTRL_LEARN_EN (b + k), v)) (List.mem_range.2 hk)

theorem learnWrites_fit (b v : Nat) : ∀ x ∈ learnWrites b v, x.1.lo + x.1.w ≤ 64 := by
  intro x hx
  obtain ⟨j, -, rfl⟩ := List.mem_map.1 hx
  exact Nat.le_of_ble_eq_true rfl

theorem fld_learnWrites (c : Chip) {b v k : Nat} (hk : k < 8) (hv : v ≤ 1) : (c.putFlds (learnWrites b v)).fld (RCH_CTRL_LEARN_EN (b + k)) = v := by
  have hset := fld_putFlds_mem c (learnWrites_fit b v) (learn_apart b v) (mem_learnWrites hk)
  rw [hset]
  exact Nat.mod_eq_of_lt (Nat.lt_succ_of_le hv)

theorem putFlds_cmds (c : Chip) (ws : List (Fld × Nat)) : (c.putFlds ws).host.cmds = c.host.cmds := congrArg (·.cmds) (host_of_regsOnly (regsOnly_putFlds c ws))

theorem completes_learn (h : Startable s.chip n tag opFeature m) (hfeat : m.arg0 % 65536 = 3) (hsel : bitsOf m.arg0 16 8 ≤ 15)
    (hval : m.arg1 ≤ 1) (hup : s.chip.flag FLM_STATUS_UP = true) : Completes (.featureLearn n tag) s fun c =>
      (∃ r, Ends c m stOk 0 r 0 ∧ ((∀ k < 8, s.chip.fld (RCH_CTRL_LEARN_EN (8 * bitsOf m.arg0 16 8 + k)) =
          s.chip.fld (RCH_CTRL_LEARN_EN (8 * bitsOf m.arg0 16 8))) → r = s.chip.fld (RCH_CTRL_LEARN_EN (8 * bitsOf m.arg0 16 8)))) ∧
        (∀ k < 8, c.fld (RCH_CTRL_LEARN_EN (8 * bitsOf m.arg0 16 8 + k)) = m.arg1) ∧
        s.chip.fieldsKept ((List.range 8).map (fun k => RCH_CTRL_LEARN_EN (8 * bitsOf m.arg0 16 8 + k))) c ∧ s.chip.bytesKept c := by
  refine completes_featRow h rfl (by simp [hfeat]) ?_
  have hbegan := began h
  have hflume : (s.chip.begin m).flag FLM_STATUS_UP = true := (flag_eq_of_fld (fld_of_regs hbegan.regs _)).trans hup
  dsimp only
  rw [if_neg (by omega), if_neg (by simp [hflume]), if_neg (by omega : bitsOf m.arg0 16 8 ≠ 255)]
  generalize 8 * bitsOf m.arg0 16 8 = b
  obtain ⟨f, hfree⟩ := oldValue_free (s.chip.begin m) (((List.range 8).map (b + ·)).map fun l => (s.chip.begin m).fld (RCH_CTRL_LEARN_EN l))
  rw [hfree, learn_putFlds]
  have hregs : ({ s.chip.begin m with free := f } : Chip).regs = s.chip.regs := hbegan.regs
  have hbytes : s.chip.bytesKept { s.chip.begin m with free := f } := bytesKept_trans hbegan.bytes (bytesKept_of_eq rfl rfl rfl)
  have hcmds : ({ s.chip.begin m with free := f } : Chip).host.cmds = (s.chip.begin m).host.cmds := rfl
  generalize ({ s.chip.begin m with free := f } : Chip) = e at hregs hbytes hcmds
  have hends := ends_after h ((putFlds_cmds e (learnWrites b m.arg1)).trans hcmds) stOk 0
    ((s.chip.begin m).oldValue (((List.range 8).map (b + ·)).map fun l => (s.chip.begin m).fld (RCH_CTRL_LEARN_EN l))).1 0
  refine ⟨⟨_, hends, fun hall => ?_⟩, fun k hk => ?_, ?_, ?_⟩
  · have hold : (((List.range 8).map (b + ·)).map fun l => (s.chip.begin m).fld (RCH_CTRL_LEARN_EN l)) =
        List.replicate 8 (s.chip.fld (RCH_CTRL_LEARN_EN b)) := by
      refine List.eq_replicate_iff.2 ⟨by simp, fun v hv => ?_⟩
      obtain ⟨k, hk, rfl⟩ : ∃ k < 8, (s.chip.begin m).fld (RCH_CTRL_LEARN_EN (b + k)) = v := by simpa using hv
      rw [fld_of_regs hbegan.regs, hall k hk]
    rw [hold, oldValue_same]
  · rw [fld_finish, fld_learnWrites _ hk hval]
  · refine fieldsKept_finish ?_ _ _ _ _ _
    refine fieldsKept_trans (fieldsKept_of_regs hregs) ?_
    have hkept := fieldsKept_putFlds e (learnWrites b m.arg1)
    rwa [learnWrites_fst] at hkept
  · exact bytesKept_finish (bytesKept_trans hbytes (bytesKept_of_regsOnly (regsOnly_putFlds _ _))) _ _ _ _ _

/-! ### CACHE -/

theorem completes_cacheEnable (h : Startable s.chip n tag opCache m) (hon : m.arg0 % 2 = 1) : Completes (.cacheEnable n tag) s fun c =>
    Ends c m stOk 0 0 0 ∧ c.flag CCH_CTRL_ENABLED = true ∧ s.chip.fieldsKept [CCH_CTRL_ENABLED] c ∧ s.chip.bytesKept c := by
  have hexec : exec (.cacheEnable n tag) s = s.on fun _ => ((s.chip.begin m).setFld CCH_CTRL_ENABLED 1).finishS m.uid stOk := by
    show execCacheEnable n tag s = _
    simp only [execCacheEnable, State.on, h.run, Chip.when, hon, beq_self_eq_true, if_true]
  refine completes_on hexec ?_
  have hbegan := began h
  refine ⟨ends_after h (by rfl) _ _ _ _, ?_, fieldsKept_finish (fieldsKept_setFld _ _ (by simp) (fieldsKept_of_regs hbegan.regs)) _ _ _ _ _,
    bytesKept_finish (bytesKept_trans hbegan.bytes (bytesKept_of_regsOnly (regsOnly_setFld _ _ (regsOnly_refl _)))) _ _ _ _ _⟩
  exact (flag_eq_of_fld (fld_finish ..)).trans (flag_mark_same _ _ (by decide) (by decide))

/-- Lines are written back: only DRAM, its check symbols and the counts of write-backs differ. -/
structure LinesWritten (c c' : Chip) : Prop where
  host : c'.host = c.host
  servo : c'.servo = c.servo
  fields : c.fieldsKept [CCH_WRITEBACKS_COUNT, BUF_INJECT_ARMED] c'

theorem linesWritten (c : Chip) : LinesWritten c c.writeBackAll := by
  refine List.foldlRecOn (motive := LinesWritten c) _ _ ⟨rfl, rfl, fieldsKept_refl _ _⟩ fun d hd l _ => ?_
  have hback := writtenBack_writeBack d l
  refine ⟨hback.host.trans hd.host, Eq.trans ?_ hd.servo, fieldsKept_trans hd.fields hback.fields⟩
  rw [Chip.writeBack, bufWrite_eq]
  rfl

/-- The machine with a barrier, or without one. -/
def Chip.barred (c : Chip) (u : Option Nat) : Chip := { c with host := { c.host with barrier := u } }

/-- The row of a CACHE_DISABLE whose command started just now, and which nothing that was taken before it holds up. -/
theorem settleBarrier_clear {c : Chip} {b : Nat} (hbar : c.host.barrier = some b) (hcmds : ∀ x ∈ c.host.cmds, b ≤ x.uid) : c.settleBarrier =
    (((c.writeBackAll.emptyCache).setFld CCH_CTRL_ENABLED 0).barred none).finishS b stOk := by
  have hnone : c.host.cmds.any (fun x => decide (x.uid < b)) = false := by
    simpa using hcmds
  unfold Chip.settleBarrier
  rw [hbar]
  dsimp only
  rw [hnone]
  rfl

theorem completes_cacheDisable (h : Startable s.chip n tag opCache m) (hoff : m.arg0 % 2 = 0) (hon : s.chip.cacheOn = true)
    (hfirst : ∀ x ∈ s.chip.host.cmds, m.uid ≤ x.uid) : Completes (.cacheDisable n tag) s fun c =>
      Ends c m stOk 0 0 0 ∧ c.flag CCH_CTRL_ENABLED = false ∧ c.buf.sets = [] ∧ c.buf.victims = [] ∧ c.buf.evicts = [] ∧ c.buf.allocWaits = [] ∧
        c.host.barrier = none ∧ s.chip.fieldsKept [CCH_CTRL_ENABLED, CCH_WRITEBACKS_COUNT, BUF_INJECT_ARMED] c ∧ c.servo = s.chip.servo := by
  have hbegan := began h
  have hcache : (s.chip.begin m).cacheOn = true := (flag_eq_of_fld (fld_of_regs hbegan.regs _)).trans hon
  have hexec : exec (.cacheDisable n tag) s = s.on fun _ =>
      (((s.chip.begin m).updCmd m.uid fun m => { m with wait := .drain, acted := true }).barred (some m.uid)).settleBarrier := by
    show execCacheDisable n tag s = _
    simp only [execCacheDisable, State.on, h.run, hcache, hoff]
    rfl
  refine completes_on hexec ?_
  obtain ⟨ws, cis, k, hsame⟩ := hbegan.same
  have hcmd : ((s.chip.begin m).updCmd m.uid fun m => { m with wait := .drain, acted := true }).cmd m.uid =
      some { m with started := true, wait := .drain, acted := true } := cmd_updCmd hbegan.cmd _ rfl
  have hcmds : ∀ x ∈ ((s.chip.begin m).updCmd m.uid fun m => { m with wait := .drain, acted := true }).host.cmds, m.uid ≤ x.uid := by
    rw [hsame]
    intro x hx
    obtain ⟨y, hy, rfl⟩ := List.mem_map.1 hx
    obtain ⟨z, hz, rfl⟩ := List.mem_map.1 hy
    have hle := hfirst z hz
    split_ifs <;> exact hle
  have hregs : ((s.chip.begin m).updCmd m.uid fun m => { m with wait := .drain, acted := true }).regs = s.chip.regs := hbegan.regs
  have hservo : ((s.chip.begin m).updCmd m.uid fun m => { m with wait := .drain, acted := true }).servo = s.chip.servo := by rw [hsame]; rfl
  generalize (s.chip.begin m).updCmd m.uid (fun m => { m with wait := .drain, acted := true }) = d at hcmd hcmds hregs hservo
  rw [settleBarrier_clear (c := d.barred (some m.uid)) (b := m.uid) rfl hcmds]
  have hlines := linesWritten (d.barred (some m.uid))
  generalize (d.barred (some m.uid)).writeBackAll = e at hlines
  have hend := (TableOnly.refl (((e.emptyCache).setFld CCH_CTRL_ENABLED 0).barred none)).finish m.uid stOk 0 0 0
  have hcmd' : (((e.emptyCache).setFld CCH_CTRL_ENABLED 0).barred none).cmd m.uid =
      some { m with started := true, wait := .drain, acted := true } := by
    rw [← hcmd]
    show found e.host.cmds m.uid = _
    rw [hlines.host]
    rfl
  have hends := ends_finish (m := m) hcmd' h.status h.silent h.mark rfl rfl stOk 0 0 0
  refine ⟨hends, ?_, congrArg (·.buf.sets) hend, congrArg (·.buf.victims) hend, congrArg (·.buf.evicts) hend, congrArg (·.buf.allocWaits) hend,
    congrArg (·.host.barrier) hend, ?_, (congrArg (·.servo) hend).trans (hlines.servo.trans hservo)⟩
  · exact (flag_eq_of_fld (fld_finish ..)).trans (flag_setFld_zero _ _ (by decide))
  · refine fieldsKept_finish ?_ _ _ _ _ _
    refine fieldsKept_setFld _ _ (by simp) (fieldsKept_trans (fieldsKept_of_regs hregs) ?_)
    exact fieldsKept_weaken (fun g hg => List.mem_cons_of_mem _ hg) hlines.fields

/-! ### SCRUB -/

/-- A SCRUB that waits for the engine. -/
def scrubWaits (m : Cmd) : Bool := m.opcode == opScrub && m.started && m.status.isNone && m.wait == .engine

theorem nextScrub_begins {c : Chip} {y : Cmd} (hfind : c.host.cmds.find? scrubWaits = some y) (hfree : c.buf.scrub.busy = false) : c.nextScrub =
    (c.updCmd y.uid (fun m => { m with wait := .drain })).startScrub false (scrubArgs y).1 (scrubArgs y).2 (some y.uid) := by
  have hfirst : c.host.cmds.find? (fun m => m.opcode == opScrub && m.started && m.status.isNone && m.wait == .engine) = some y := hfind
  unfold Chip.nextScrub
  rw [hfirst]
  exact if_neg (by simp [hfree])

theorem completes_scrub (h : Startable s.chip n tag opScrub m) (hrange : s.chip.scrubRange (scrubArgs m).1 (scrubArgs m).2 = true)
    (hfree : s.chip.buf.scrub.busy = false) (honly : ∀ x ∈ s.chip.host.cmds, x ≠ m → x.opcode ≠ opScrub) : Completes (.scrub n tag) s fun c =>
      c.buf.scrub.busy = true ∧ c.buf.scrub.init = false ∧ c.buf.scrub.start = m.arg0 ∧ c.buf.scrub.len = bitsOf m.arg3 0 64 ∧
        c.buf.scrub.uid = some m.uid ∧ c.flag BUF_STATUS_SCRUB_BUSY = true ∧ s.chip.fieldsKept [BUF_STATUS_SCRUB_BUSY] c ∧ s.chip.bytesKept c := by
  have hbegan := began h
  obtain ⟨ws, cis, k, hsame⟩ := hbegan.same
  have hallowed : (s.chip.begin m).scrubRange (scrubArgs m).1 (scrubArgs m).2 = true := by
    rw [hsame]
    exact hrange
  have hexec : exec (.scrub n tag) s = s.on fun _ => ((s.chip.begin m).updCmd m.uid fun m => { m with wait := .engine }).nextScrub := by
    show execScrub n tag s = _
    simp only [execScrub, State.on, h.run, hallowed, if_true]
  refine completes_on hexec ?_
  have hfind : ((s.chip.begin m).updCmd m.uid fun m => { m with wait := .engine }).host.cmds.find? scrubWaits =
      some { m with started := true, wait := .engine } := by
    have hcmds : ((s.chip.begin m).updCmd m.uid fun m => { m with wait := .engine }).host.cmds =
        changed (changed s.chip.host.cmds m.uid fun m => { m with started := true }) m.uid fun m => { m with wait := .engine } := by
      rw [hsame]
      rfl
    have hentry (x : Cmd) (hx : x ∈ s.chip.host.cmds) (hop : x.opcode = opScrub) : x = m := by
      by_contra hne
      exact honly x hx hne hop
    have hmem : { m with started := true, wait := .engine } ∈ ((s.chip.begin m).updCmd m.uid fun m => { m with wait := .engine }).host.cmds := by
      rw [hcmds]
      refine List.mem_map.2 ⟨{ m with started := true }, List.mem_map.2 ⟨m, h.mem, if_pos rfl⟩, if_pos rfl⟩
    obtain ⟨y, hy⟩ := Option.isSome_iff_exists.1 (List.find?_isSome (p := scrubWaits).2 ⟨_, hmem, by simp [scrubWaits, h.opcode, h.status]⟩)
    rw [hy]
    have hin := List.mem_of_find?_eq_some hy
    have hop : y.opcode = opScrub := by
      have := List.find?_some hy
      simp only [scrubWaits, Bool.and_eq_true, beq_iff_eq] at this
      exact this.1.1.1
    rw [hcmds] at hin
    obtain ⟨z, hz, rfl⟩ := List.mem_map.1 hin
    obtain ⟨x, hx, rfl⟩ := List.mem_map.1 hz
    have hxm : x = m := hentry x hx (by split_ifs at hop <;> exact hop)
    subst hxm
    simp
  have hbusy : ((s.chip.begin m).updCmd m.uid fun m => { m with wait := .engine }).buf.scrub.busy = false := by
    rw [hsame]
    exact hfree
  have hregs : ((s.chip.begin m).updCmd m.uid fun m => { m with wait := .engine }).regs = s.chip.regs := hbegan.regs
  have hbytes : s.chip.bytesKept ((s.chip.begin m).updCmd m.uid fun m => { m with wait := .engine }) :=
    bytesKept_trans hbegan.bytes (bytesKept_of_eq rfl rfl rfl)
  generalize (s.chip.begin m).updCmd m.uid (fun m => { m with wait := .engine }) = d at hfind hbusy hregs hbytes
  rw [nextScrub_begins hfind hbusy]
  refine ⟨rfl, rfl, rfl, rfl, rfl, flag_mark_same _ _ (by decide) (by decide), fieldsKept_setFld _ _ (by simp) (fieldsKept_of_regs hregs),
    bytesKept_trans hbytes (bytesKept_of_eq rfl rfl rfl)⟩

/-! ### CALIBRATE -/

theorem completes_calibratePll (h : Startable s.chip n tag opCalibrate m) (hitem : m.arg0 / 256 = 9) (hup : s.chip.flag FLM_STATUS_UP = true) :
    Completes (.calibrate n tag) s fun c =>
      c.flag CAL_PLL_PENDING = true ∧ c.thermal.pllBy = s.chip.thermal.pllBy ++ [m.uid] ∧ (∃ y, c.cmd m.uid = some y ∧ y.status = none ∧ y.wait = .station) ∧
        s.chip.fieldsKept [CAL_PLL_PENDING] c ∧ s.chip.bytesKept c := by
  have hbegan := began h
  obtain ⟨ws, cis, k, hsame⟩ := hbegan.same
  have hflume : (s.chip.begin m).flag FLM_STATUS_UP = true := (flag_eq_of_fld (fld_of_regs hbegan.regs _)).trans hup
  have hexec : exec (.calibrate n tag) s = s.on fun _ => (s.chip.begin m).calibrate m := by
    show execCalibrate n tag s = _
    simp only [execCalibrate, State.on, h.run]
  refine completes_on hexec ?_
  unfold Chip.calibrate
  dsimp only
  rw [hitem, hflume]
  simp only [if_false, Bool.not_true, Bool.false_eq_true, false_or, show ¬ (9 ≤ 8) by decide, and_false,
    show ¬ (9 ≤ 1) by decide, show ¬ (9 ≤ 6) by decide, show ¬ (9 = 2) by decide, show ¬ (9 = 7) by decide, show ¬ (9 = 8) by decide, if_true]
  refine ⟨flag_mark_same _ _ (by decide) (by decide), ?_, ⟨_, cmd_updCmd hbegan.cmd _ rfl, h.status, rfl⟩,
    fieldsKept_setFld _ _ (by simp) (fieldsKept_of_regs hbegan.regs), bytesKept_trans hbegan.bytes (bytesKept_of_eq rfl rfl rfl)⟩
  rw [hsame]
  rfl

/-! ### ACTIVATE of the command cores' image -/

/-- Where no write is staged: hosts, stations and the other units are as before, and of the fields only those of the buffer may differ. -/
structure Loaded (c c' : Chip) : Prop where
  host : c'.host = c.host
  servo : c'.servo = c.servo
  sup : c'.sup = c.sup
  staged : c'.buf.staged = c.buf.staged
  fields : c.fieldsKept memFields c'

theorem Loaded.trans {a b c : Chip} (h : Loaded a b) (h' : Loaded b c) : Loaded a c :=
  ⟨h'.host.trans h.host, h'.servo.trans h.servo, h'.sup.trans h.sup, h'.staged.trans h.staged, fieldsKept_trans h.fields h'.fields⟩

/-- With no write staged, no access to memory is fatal. -/
def LoadedQuiet (c c' : Chip) : Prop := c.buf.staged = [] → Loaded c c'

theorem absorbs_loadedQuiet : Absorbs LoadedQuiet where
  trans h h' := fun hstaged => (h hstaged).trans (h' ((h hstaged).staged.trans hstaged))
  work h := fun _ => ⟨h.host, h.servo, h.sup, h.staged, h.fields⟩
  fatal hstaged := fun hnone => absurd hnone hstaged

theorem loaded_loadRiscv {a c : Chip} (h : LoadedQuiet a c) (e : Engine) (img : List Byte) : LoadedQuiet a (c.loadRiscv e img) :=
  absorbs_loadedQuiet.loadRiscv (absorbs_loadedQuiet.trans h fun _ => ⟨rfl, rfl, rfl, rfl, fieldsKept_of_regs rfl⟩) img

/-- The cores in service run an image. -/
def Chip.coresLoaded (c : Chip) (img : List Byte) : Chip :=
  (List.finRange 12).foldl (fun c (k : Fin 12) => if c.coreOnline k then c.loadRiscv (.core k) img else c) c

theorem loaded_coresLoaded (c : Chip) (img : List Byte) : LoadedQuiet c (c.coresLoaded img) := by
  refine List.foldlRecOn (motive := LoadedQuiet c) _ _ (fun _ => ⟨rfl, rfl, rfl, rfl, fieldsKept_refl _ _⟩) fun d hd k _ => ?_
  split
  · exact loaded_loadRiscv hd _ _
  · exact hd

/-- The flags of an ACTIVATE in progress. -/
def Chip.activation (c : Chip) (active : Option Nat) (stop : Bool) (begun done : List Nat) : Chip :=
  { c with host := { c.host with activating := active, coresStop := stop, begun := begun, done := done } }

theorem activateClass_cores {c : Chip} {uid : Nat} (hdone : c.host.done = []) (hidle : ∀ x ∈ c.host.cmds, x.uid = uid) :
    c.activateClass uid 0 =
      ((c.setBegun 0).coresLoaded (c.stagedImage 0)).activation ((c.setBegun 0).coresLoaded (c.stagedImage 0)).host.activating false
        ((c.setBegun 0).coresLoaded (c.stagedImage 0)).host.begun (0 :: ((c.setBegun 0).coresLoaded (c.stagedImage 0)).host.done) := by
  have hbusy : c.host.cmds.any (fun m => m.started && m.uid != uid && m.status.isNone && m.opcode != opActivate) = false := by
    refine List.any_eq_false.2 fun x hx => ?_
    simp [hidle x hx]
  have hcores : c.activateCores uid (c.stagedImage 0) = (true, { (c.setBegun 0).coresLoaded (c.stagedImage 0) with
      host := { ((c.setBegun 0).coresLoaded (c.stagedImage 0)).host with coresStop := false } }) := by
    unfold Chip.activateCores
    dsimp only
    rw [hbusy]
    rfl
  unfold Chip.activateClass
  rw [hdone]
  simp only [List.contains_nil, Bool.false_eq_true, false_or, ne_eq, not_true_eq_false, false_and, if_false, hcores, if_true]
  rfl

/-- The image of class 0 runs, and is staged no more. -/
def Chip.imageRuns (c : Chip) (img : List Byte) : Chip :=
  (((c.setRunning 0 img).setBoot { (c.setRunning 0 img).boot with staged := Cells.put (fun _ => []) c.boot.staged 0 [] }).setFld
    (BOOT_VERSION_VERSION 0) (imgVersion img)).setFld (BOOT_IMAGE_SIGNER 0) (imgSigner img)

/-- What the end of an ACTIVATE of class 0 leaves. -/
structure ImageRuns (img : List Byte) (c c' : Chip) : Prop where
  running : c'.runningImage 0 = img
  staged : c'.stagedImage 0 = []
  version : c'.fld (BOOT_VERSION_VERSION 0) = imgVersion img % 2 ^ 32
  idle : c'.host.activating = none ∧ c'.host.coresStop = false
  servo : c'.servo = c.servo
  cmds : c'.host.cmds = c.host.cmds

theorem imageRuns_persist {c : Chip} {img : List Byte} : ImageRuns img c ((c.imageRuns img).activation none false [] []) := by
  refine ⟨Cells.get_put_same .., Cells.get_put_same .., ?_, ⟨rfl, rfl⟩, rfl, rfl⟩
  exact (fld_setFld_apart _ _ _ _ (by decide) (by decide)).trans (fld_setFld_same _ _ _ (by decide))

theorem ImageRuns.setPersisting {c c' : Chip} {img : List Byte} (h : ImageRuns img c c') (ps : List Nat) :
    ImageRuns img c ((c'.setBoot { c'.boot with persisting := ps }).setFld BOOT_STATUS_PERSISTING 1) :=
  { h with version := (fld_setFld_apart _ _ _ _ (by decide) (by decide)).trans h.version }

theorem ImageRuns.withRings {c c' : Chip} {img : List Byte} (h : ImageRuns img c c') (r : Cells Ring) : ImageRuns img c (c'.withRings r) := { h with }

theorem ImageRuns.table {c c' d : Chip} {img : List Byte} (h : ImageRuns img c c') (ht : TableOnly c' d) : d.runningImage 0 = img ∧ d.stagedImage 0 = [] ∧
    d.fld (BOOT_VERSION_VERSION 0) = imgVersion img % 2 ^ 32 ∧ d.host.activating = none ∧ d.host.coresStop = false ∧ d.servo = c.servo := by
  have hsup : d.sup = c'.sup := congrArg (·.sup) ht
  refine ⟨?_, ?_, (fld_of_regs (congrArg (·.regs) ht) _).trans h.version, (congrArg (·.host.activating) ht).trans h.idle.1,
    (congrArg (·.host.coresStop) ht).trans h.idle.2, (congrArg (·.servo) ht).trans h.servo⟩
  · rw [← h.running, Chip.runningImage, Chip.boot, hsup]
    rfl
  · rw [← h.staged, Chip.stagedImage, Chip.boot, hsup]
    rfl

/-- The end of an ACTIVATE that names class 0 alone. -/
theorem activateEnd_cores {c : Chip} {y : Cmd} (hclasses : classesOf y = [0]) : ∃ d, c.activateEnd y = d.finishS y.uid stOk ∧
    ImageRuns (c.stagedImage 0) c d := by
  have hruns := imageRuns_persist (c := c) (img := c.stagedImage 0)
  have hend : c.activateEnd y = Chip.finishS (Chip.postEvent
      (if ((c.imageRuns (c.stagedImage 0)).activation none false [] []).flag BOOT_STATUS_SRC_HOST then (c.imageRuns (c.stagedImage 0)).activation none false [] []
        else (((c.imageRuns (c.stagedImage 0)).activation none false [] []).setBoot
          { ((c.imageRuns (c.stagedImage 0)).activation none false [] []).boot with
            persisting := ((c.imageRuns (c.stagedImage 0)).activation none false [] []).boot.persisting ++
              [0].filter (fun k => !((c.imageRuns (c.stagedImage 0)).activation none false [] []).boot.persisting.contains k) }).setFld
            BOOT_STATUS_PERSISTING 1)
      (1 - y.port) 5 0xFFFF 0 (y.arg0 % 32) y.port 0) y.uid stOk := by
    unfold Chip.activateEnd
    rw [hclasses]
    rfl
  generalize (c.imageRuns (c.stagedImage 0)).activation none false [] [] = e at hruns hend
  rw [hend]
  refine ⟨_, rfl, ?_⟩
  obtain ⟨r, hrings⟩ := postEvent_withRings (if e.flag BOOT_STATUS_SRC_HOST then e else (e.setBoot { e.boot with
    persisting := e.boot.persisting ++ [0].filter (fun k => !e.boot.persisting.contains k) }).setFld BOOT_STATUS_PERSISTING 1)
    (1 - y.port) 5 0xFFFF 0 (y.arg0 % 32) y.port 0
  rw [hrings]
  refine ImageRuns.withRings ?_ r
  split
  · exact hruns
  · exact hruns.setPersisting _

/-- The one ACTIVATE in progress names class 0, and no core has anything else to end: it ends at once. -/
theorem activateGo_cores {e : Chip} {y : Cmd} (hcmd : e.cmd y.uid = some y) (huids : ∀ x ∈ e.host.cmds, x.uid = y.uid) (hnew : e.host.activating = some y.uid)
    (hbegun : e.host.begun = []) (hdone : e.host.done = []) (hclasses : classesOf y = [0]) (hwrites : e.buf.staged = []) :
    ∃ d, e.activateGo = d.finishS y.uid stOk ∧ d.cmd y.uid = some { y with acted := true } ∧
      ∃ c : Chip, c.servo = e.servo ∧ ImageRuns (e.stagedImage 0) c d := by
  have hclass := activateClass_cores hdone huids
  have hloaded := loaded_coresLoaded (e.setBegun 0) (e.stagedImage 0) hwrites
  generalize (e.setBegun 0).coresLoaded (e.stagedImage 0) = f at hclass hloaded
  have hhost : f.host = { e.host with begun := [0] } := by
    rw [hloaded.host, Chip.setBegun, hbegun]
    rfl
  obtain ⟨d, hend, hruns⟩ := activateEnd_cores (c := (f.activation f.host.activating false f.host.begun (0 :: f.host.done)).updCmd y.uid
    fun m => { m with acted := true }) hclasses
  have hgo : e.activateGo = ((f.activation f.host.activating false f.host.begun (0 :: f.host.done)).updCmd y.uid
      fun m => { m with acted := true }).activateEnd y := by
    have hfound : e.host.activating.bind e.cmd = some y := by rw [hnew]; exact hcmd
    unfold Chip.activateGo
    rw [hfound]
    simp only [hclasses, List.foldl_cons, List.foldl_nil, hclass, List.all_cons, List.all_nil, Bool.and_true]
    rw [if_neg (show ¬ (f.activation f.host.activating false f.host.begun (0 :: f.host.done)).host.begun = [] by simp [Chip.activation, hhost])]
    exact if_pos (by simp [Chip.activation, Chip.updCmd])
  have himage : ((f.activation f.host.activating false f.host.begun (0 :: f.host.done)).updCmd y.uid fun m => { m with acted := true }).stagedImage 0 =
      e.stagedImage 0 := by
    show Cells.get (fun _ => []) f.sup.boot.staged 0 = _
    rw [hloaded.sup]
    rfl
  rw [himage] at hruns
  refine ⟨d, hgo.trans hend, ?_, _, Eq.trans (by rfl) hloaded.servo, hruns⟩
  rw [Chip.cmd, hruns.cmds]
  refine cmd_updCmd (c := f.activation f.host.activating false f.host.begun (0 :: f.host.done)) ?_ (fun m => { m with acted := true }) rfl
  rw [← hcmd]
  show found f.host.cmds y.uid = found e.host.cmds y.uid
  rw [hhost]

theorem completes_activate {img : List Byte} (h : Startable s.chip n tag opActivate m) (hcls : m.arg0 = 1) (halone : s.chip.host.cmds = [m])
    (hidle : s.chip.host.activating = none) (hstaged : s.chip.buf.staged = []) (himg : s.chip.stagedImage 0 = img) (hne : img ≠ []) :
    Completes (.activate n tag) s fun c =>
      Ends c m stOk 0 0 0 ∧ c.runningImage 0 = img ∧ c.stagedImage 0 = [] ∧ c.fld (BOOT_VERSION_VERSION 0) = imgVersion img % 2 ^ 32 ∧
        c.host.activating = none ∧ c.host.coresStop = false ∧ c.servo = s.chip.servo := by
  have hbegan := began h
  obtain ⟨ws, cis, k, hsame⟩ := hbegan.same
  have hclasses (y : Cmd) (hy : y.arg0 = m.arg0) : classesOf y = [0] := by
    rw [classesOf, hy, hcls]
    decide
  have hnamed : ¬ ((classesOf m).any (fun k => !(s.chip.begin m).isStaged k) = true) := by
    rw [hclasses m rfl, hsame]
    simp [Chip.isStaged, Chip.withCmds, Chip.withWeirs, Chip.stagedImage, Chip.boot] at himg ⊢
    rw [himg]
    exact hne
  have hfree : (s.chip.begin m).host.activating = none := by rw [hsame]; exact hidle
  have hexec : exec (.activate n tag) s = s.on fun _ => (((s.chip.begin m).updCmd m.uid fun m => { m with wait := .engine }).activation (some m.uid)
      (s.chip.begin m).host.coresStop [] []).activateGo := by
    show execActivate n tag s = _
    simp only [execActivate, State.on, h.run, Chip.startActivate, hfree, hnamed]
    rfl
  refine completes_on hexec ?_
  -- the machine in which the command goes on
  have hcmd : (((s.chip.begin m).updCmd m.uid fun m => { m with wait := .engine }).activation (some m.uid)
      (s.chip.begin m).host.coresStop [] []).cmd m.uid = some { m with started := true, wait := .engine } := cmd_updCmd hbegan.cmd _ rfl
  have huids : ∀ x ∈ (((s.chip.begin m).updCmd m.uid fun m => { m with wait := .engine }).activation (some m.uid)
      (s.chip.begin m).host.coresStop [] []).host.cmds, x.uid = m.uid := by
    rw [hsame]
    show ∀ x ∈ changed (changed s.chip.host.cmds m.uid fun m => { m with started := true }) m.uid fun m => { m with wait := .engine }, x.uid = m.uid
    rw [halone]
    simp [changed]
  have hservo : (((s.chip.begin m).updCmd m.uid fun m => { m with wait := .engine }).activation (some m.uid)
      (s.chip.begin m).host.coresStop [] []).servo = s.chip.servo := by rw [hsame]; rfl
  have himage : (((s.chip.begin m).updCmd m.uid fun m => { m with wait := .engine }).activation (some m.uid)
      (s.chip.begin m).host.coresStop [] []).stagedImage 0 = img := by rw [hsame, ← himg]; rfl
  have hwrites : (((s.chip.begin m).updCmd m.uid fun m => { m with wait := .engine }).activation (some m.uid)
      (s.chip.begin m).host.coresStop [] []).buf.staged = [] := by rw [hsame]; exact hstaged
  have hnew : (((s.chip.begin m).updCmd m.uid fun m => { m with wait := .engine }).activation (some m.uid)
      (s.chip.begin m).host.coresStop [] []).host.activating = some m.uid := rfl
  have hbegun : (((s.chip.begin m).updCmd m.uid fun m => { m with wait := .engine }).activation (some m.uid)
      (s.chip.begin m).host.coresStop [] []).host.begun = [] := rfl
  have hdone : (((s.chip.begin m).updCmd m.uid fun m => { m with wait := .engine }).activation (some m.uid)
      (s.chip.begin m).host.coresStop [] []).host.done = [] := rfl
  generalize ((s.chip.begin m).updCmd m.uid fun m => { m with wait := .engine }).activation (some m.uid) (s.chip.begin m).host.coresStop [] [] = e at *
  obtain ⟨d, hend, hcmd', c, hsame', hruns⟩ := activateGo_cores (y := { m with started := true, wait := .engine }) hcmd huids hnew hbegun hdone
    (hclasses _ rfl) hwrites
  rw [hend, himage] at *
  have htable := (TableOnly.refl d).finish m.uid stOk 0 0 0
  obtain ⟨hrunning, hnone, hversion, hactive, hstop, hkept⟩ := hruns.table htable
  exact ⟨ends_finish (m := m) hcmd' h.status h.silent h.mark rfl rfl stOk 0 0 0, hrunning, hnone, hversion, hactive, hstop,
    hkept.trans (hsame'.trans hservo)⟩

end

/-! ### O53 -/

/-- Settles O53: each row starts its command, changes what it names and ends it through the completion path; a load of an image is fatal only where
writes are staged. -/
theorem hostAdmin : Obligations.HostAdmin := by
  unfold Obligations.HostAdmin
  intro s n tag m
  refine ⟨fun h => ?_, fun h => ?_, fun h => ?_, fun h => completes_scrub (startable h), fun h => completes_calibratePll (startable h),
    fun img h => completes_activate (startable h)⟩
  · have hstart := startable h
    obtain ⟨ws, cis, k, hsame⟩ := (began hstart).same
    refine ⟨fun hpage hlogged hoff hlen hline hgood => completes_logRow hstart rfl (by simp [hpage]) ?_, fun hpage =>
      completes_logRow hstart rfl (by simp [hpage]) ?_, fun hpage hv hl => completes_logRow hstart rfl (by simp [hpage]) ?_, fun hpage =>
      completes_logRow hstart rfl (by simp [hpage]) ?_⟩
    · have hread : (s.chip.begin m).logBytes 0 = (s.chip.bytes mib 32, s.chip.begin m) := by
        have hsee : (s.chip.begin m).lineOf 256 = none ∧ (s.chip.begin m).unitMark (mib / 64) = .good ∧
            (s.chip.begin m).bytes mib 32 = s.chip.bytes mib 32 := by
          rw [hsame]
          exact ⟨hline, hgood, rfl⟩
        rw [logBytes_first hsee.1 hsee.2.1, hsee.2.2]
      have hcount : (s.chip.begin m).core.logged = 1 := by rw [hsame]; exact hlogged
      rw [if_pos hpage, deviceLog_first hcount hoff hlen hread]
      exact pushed_page hstart _
    · have hsee : (s.chip.begin m).identityPage = s.chip.identityPage := by rw [hsame]; rfl
      rw [hsee]
      exact pushed_page hstart _
    · have hsee : (s.chip.begin m).defectPage (bitsOf m.arg0 8 8) (bitsOf m.arg0 16 8) = s.chip.defectPage (bitsOf m.arg0 8 8) (bitsOf m.arg0 16 8) := by
        rw [hsame]
        rfl
      dsimp only
      rw [if_neg (by omega), hsee]
      exact pushed_page hstart _
    · have hsame' : (s.chip.begin m).volState = s.chip.volState ∧ (s.chip.begin m).vol = s.chip.vol ∧ (s.chip.begin m).journalLive = s.chip.journalLive ∧
          (s.chip.begin m).discOf = s.chip.discOf ∧ (s.chip.begin m).stagedOf = s.chip.stagedOf ∧ (s.chip.begin m).fld = s.chip.fld := by
        refine ⟨?_, ?_, journalLive_of_sup (congrArg (·.sup) (began hstart).table), ?_, ?_, ?_⟩ <;> rw [hsame] <;> rfl
      obtain ⟨hstate, hvol, hlive, hdisc, hstaged, hfld⟩ := hsame'
      have hrecord : (s.chip.begin m).volumeRecord = s.chip.volumeRecord := by
        funext p
        unfold Chip.volumeRecord
        rw [hstate, hvol, hlive, hdisc, hstaged, hfld]
      have hsee : (s.chip.begin m).volumePage = s.chip.volumePage := by rw [Chip.volumePage, hrecord, Chip.volumePage]
      rw [hsee]
      exact pushed_page hstart _
  · exact ⟨completes_readAhead (startable h), completes_rescue (startable h), completes_learn (startable h), completes_stationEvents (startable h)⟩
  · exact ⟨completes_cacheEnable (startable h), completes_cacheDisable (startable h)⟩

end Sys2Proof.Machine
end

section
/-! What a fatal error leaves as it is (R451, R452, R539): the windows of the queues, the engines, what is being restored, the roles and the events of the
watermasters, and the form of the memories. Any access to buffer DRAM may bring one, where writes are staged. -/

namespace Sys2Proof.Machine

/-! ### The frame -/

/-- Fields of the watermasters that no fatal error writes. -/
def steadyFields : List Fld :=
  [WMH_ROLE_ROLE, WMM_ROLE_ROLE, WMH_ROLE_PEER_FAILED, WMM_ROLE_PEER_FAILED, WMH_EVENT_TAKEOVER, WMM_EVENT_TAKEOVER, WMH_EVENT_PEER_FAILED,
    WMM_EVENT_PEER_FAILED, WMM_CS_RESTARTS_COUNT]

/-- A field that lies apart from them, and from the flags of the command cores. -/
def Loose (g : Fld) : Prop := g.reg ≠ WMH_CORES ∧ ∀ f ∈ steadyFields, apart f g

/-- A register between those of the two watermasters, or above them. -/
theorem loose_of_reg {g : Fld} (h : 0x60018 < g.reg ∧ (g.reg < 0x600000 ∨ 0x600110 < g.reg)) : Loose g := by
  obtain ⟨hlow, hhigh⟩ := h
  have hne {n : Nat} (hn : n ≤ 0x60018 ∨ 0x600000 ≤ n ∧ n ≤ 0x600110) : n ≠ g.reg := by omega
  refine ⟨(hne (Nat.le_of_ble_eq_true rfl |> .inl)).symm, fun f hf => apart_of_reg (hne ?_)⟩
  revert f
  decide

/-- The positions of a queue's windows, and the sets that wait to be taken. -/
def IQueue.windows (q : IQueue) : Nat × Nat × Nat × Bool × List CapSet := (q.head, q.dataHead, q.dataExp, q.dataHalted, q.sets)

/-- What the frame reads of a machine. -/
structure Kept where
  regs : Cells Word
  queues : Cells IQueue
  activating : Option Nat
  engines : Cells EngineRec
  pairs : Cells TolekRec
  wmH : WmRec
  wmM : WmRec
  mem : List (Nat × Byte)
  flash : List Host.Cell
  mailbox : List Host.Cell
  sram : Cells Byte

/-- All that the frame reads of a machine. -/
def Chip.kept (c : Chip) : Kept :=
  ⟨c.regs, c.host.queues, c.host.activating, c.core.engines, c.servo.engines, c.sup.wmH, c.sup.wmM, c.buf.mem, c.sup.boot.flash, c.sup.boot.mailbox,
    c.core.sram⟩

/-- Whatever else has changed, the watermasters' roles, the engines, the windows and the form of the memories are as before. -/
structure Shaken (c c' : Chip) : Prop where
  windows : ∀ n, (c'.queue n).windows = (c.queue n).windows
  engines : c'.core.engines = c.core.engines
  pairs : c'.servo.engines = c.servo.engines
  restoring : ∀ d, (c'.wm d).restoring = (c.wm d).restoring
  idle : c.host.activating = none → c'.host.activating = none
  cores : ∀ f, f.reg = WMH_CORES → f.lo + f.w ≤ 64 → c'.fld f = c.fld f
  fields : ∀ f ∈ steadyFields, c'.fld f = c.fld f
  wf : Memory.wf c = true → Memory.wf c' = true

section
variable {a c : Chip}

theorem Shaken.refl (c : Chip) : Shaken c c := ⟨fun _ => rfl, rfl, rfl, fun _ => rfl, id, fun _ _ _ => rfl, fun _ _ => rfl, id⟩

theorem Shaken.trans {b : Chip} (h : Shaken a b) (h' : Shaken b c) : Shaken a c :=
  ⟨fun n => (h'.windows n).trans (h.windows n), h'.engines.trans h.engines, h'.pairs.trans h.pairs, fun d => (h'.restoring d).trans (h.restoring d),
    fun hidle => h'.idle (h.idle hidle), fun f hf hfit => (h'.cores f hf hfit).trans (h.cores f hf hfit),
    fun f hf => (h'.fields f hf).trans (h.fields f hf), fun hwf => h'.wf (h.wf hwf)⟩

theorem steadyFields_fit : ∀ f ∈ steadyFields, f.lo + f.w ≤ 64 := by decide

theorem Shaken.setFld (h : Shaken a c) {g : Fld} (v : Nat) (hg : Loose g) : Shaken a (c.setFld g v) :=
  { h with
    cores := fun f hf hfit => (fld_setFld_apart _ _ _ _ hfit (apart_of_reg (hf ▸ hg.1.symm))).trans (h.cores f hf hfit)
    fields := fun f hf => (fld_setFld_apart _ _ _ _ (steadyFields_fit f hf) (hg.2 f hf)).trans (h.fields f hf) }

theorem Shaken.mark (h : Shaken a c) {g : Fld} (hg : Loose g) : Shaken a (c.mark g) := h.setFld 1 hg

theorem Shaken.inc (h : Shaken a c) {g : Fld} (hg : Loose g) : Shaken a (c.inc g) := h.setFld _ hg

/-- Steps that touch none of it. -/
theorem Shaken.side (h : Shaken a c) {d : Chip} (hd : d.kept = c.kept) : Shaken a d := by
  have hregs : d.regs = c.regs := congrArg Kept.regs hd
  refine h.trans ⟨fun n => ?_, congrArg Kept.engines hd, congrArg Kept.pairs hd, fun e => ?_, fun hidle => (congrArg Kept.activating hd).trans hidle,
    fun f _ _ => fld_of_regs hregs f, fun f _ => fld_of_regs hregs f, fun hwf => ?_⟩
  · rw [Chip.queue, show d.host.queues = c.host.queues from congrArg Kept.queues hd, Chip.queue]
  · cases e
    · exact congrArg (fun k : Kept => k.wmH.restoring) hd
    · exact congrArg (fun k : Kept => k.wmM.restoring) hd
  · rw [memory_wf_iff, show d.buf.mem = c.buf.mem from congrArg Kept.mem hd, Chip.boot, show d.sup.boot.flash = c.sup.boot.flash from congrArg Kept.flash hd,
      show d.sup.boot.mailbox = c.sup.boot.mailbox from congrArg Kept.mailbox hd, show d.core.sram = c.core.sram from congrArg Kept.sram hd]
    exact (memory_wf_iff c).1 hwf

theorem shaken_of_work {d : Chip} (h : MemWork c d) : Shaken c d := by
  refine ⟨fun n => by rw [Chip.queue, h.host, Chip.queue], h.engs, congrArg (·.engines) h.servo, fun e => ?_, fun hidle => by rw [h.host, hidle],
    fun f hf hfit => h.fields f hfit fun g hg => apart_of_reg ?_, fun f hf => h.fields f (steadyFields_fit f hf) ?_, h.wf⟩
  · cases e
    · exact congrArg (·.wmH.restoring) h.sup
    · exact congrArg (·.wmM.restoring) h.sup
  · rw [hf]
    revert g
    decide
  · revert f
    decide

/-! ### The command table and the events -/

theorem Shaken.setQueue (h : Shaken a c) (n : Nat) (q : IQueue) (hq : q.windows = (c.queue n).windows) : Shaken a (c.setQueue n q) := by
  refine h.trans ⟨fun k => ?_, rfl, rfl, fun _ => rfl, id, fun _ _ _ => rfl, fun _ _ => rfl, id⟩
  by_cases hk : k = n
  · rw [hk, ← hq]
    exact congrArg IQueue.windows (Cells.get_put_same _ _ _ _)
  · exact congrArg IQueue.windows (Cells.get_put_other _ _ _ _ _ hk)

theorem Shaken.weirs (h : Shaken a c) {d : Chip} (hd : WeirsOnly c d) : Shaken a d := by
  obtain ⟨_, _, _, rfl⟩ := hd
  exact h.side rfl

theorem Shaken.commitItem (h : Shaken a c) (kind index : Nat) (ws : List Word) : Shaken a (c.commitItem kind index ws) :=
  h.weirs ((WeirsOnly.refl c).commitItem ..)

theorem Shaken.log (h : Shaken a c) (code : Nat) (die : Die) (detail : List Nat) : Shaken a (c.log code die detail) := h.side rfl

theorem Shaken.postEvent (h : Shaken a c) (x code queue status d0 d1 d2 : Nat) : Shaken a (c.postEvent x code queue status d0 d1 d2) := by
  rw [postEvent_rings]
  exact h.side rfl

theorem Shaken.journal (h : Shaken a c) (action unit : Nat) : Shaken a (c.journal action unit) := by
  refine h.trans ?_
  unfold Chip.journal
  dsimp only
  split
  · generalize c.activeDie = d
    refine ⟨fun n => ?_, ?_, ?_, fun e => ?_, fun hidle => ?_, fun f _ _ => ?_, fun f _ => ?_, fun hwf => ?_⟩ <;> cases d
    case refine_4.h => cases e <;> rfl
    case refine_4.m => cases e <;> rfl
    case refine_5.h => exact hidle
    case refine_5.m => exact hidle
    case refine_8.h => exact hwf
    case refine_8.m => exact hwf
    all_goals rfl
  · exact .refl c

theorem Shaken.updCmd (h : Shaken a c) (uid : Nat) (f : Cmd → Cmd) : Shaken a (c.updCmd uid f) := h.side rfl

theorem Shaken.setAcc (h : Shaken a c) (k : Nat) (x : ParityAcc) : Shaken a (c.setAcc k x) := h.side rfl

theorem Shaken.accOpen (h : Shaken a c) (p layer cluster : Nat) : Shaken a (c.accOpen p layer cluster) := by
  unfold Chip.accOpen
  dsimp only
  split
  · exact h
  · exact h.setAcc _ _

theorem Shaken.stagedAppend (h : Shaken a c) (m : Cmd) : Shaken a (c.stagedAppend m) := by
  refine List.foldlRecOn (motive := Shaken a) _ _ ?_ fun _ hd _ _ => hd.accOpen ..
  exact (h.setQueue m.queue { c.queue m.queue with written := (c.queue m.queue).written + m.arg1 } rfl).side rfl

theorem Shaken.dropCmd (h : Shaken a c) (m : Cmd) : Shaken a (c.dropCmd m) := by
  have hlist : Shaken a ({ c with host := { c.host with cmds := c.host.cmds.filter (fun x => x.uid != m.uid) } } : Chip) := h.side rfl
  unfold Chip.dropCmd
  dsimp only
  split
  · exact hlist.setQueue _ _ rfl
  · exact hlist

theorem Shaken.appendGo (n : Nat) : ∀ (us : List Nat) {c : Chip}, Shaken a c → Shaken a (c.appendGo n us)
  | [], _, h => h
  | u :: us, c, h => by
    unfold Chip.appendGo
    split
    · exact appendGo n us h
    · split
      · exact appendGo n us h
      · split
        · refine appendGo n us ((Shaken.updCmd ?_ _ _).commitItem ..)
          split
          · exact h.stagedAppend _
          · exact h
        · exact h

theorem Shaken.finish (h : Shaken a c) (uid status index result count : Nat) : Shaken a (c.finish uid status index result count) := by
  unfold Chip.finish
  split
  · exact h
  · split
    · exact h
    · split
      · exact h.dropCmd _
      · exact (h.updCmd _ _).appendGo _ _

theorem Shaken.finishS (h : Shaken a c) (uid status : Nat) : Shaken a (c.finishS uid status) := h.finish ..

theorem Shaken.endWaiters (h : Shaken a c) (uids : List Nat) (status : Nat) : Shaken a (c.endWaiters uids status) := by
  refine List.foldlRecOn (motive := Shaken a) _ _ h fun d hd u _ => ?_
  split
  · exact hd.finishS _ _
  · exact hd

theorem Shaken.dropStaged (h : Shaken a c) (seq : Nat) : Shaken a (c.dropStaged seq) := h.side rfl

theorem Shaken.settleFlush (h : Shaken a c) (m : Cmd) : Shaken a (c.settleFlush m) := by
  unfold Chip.settleFlush
  dsimp only
  split
  · exact h.finish ..
  · split
    · exact h
    · exact (List.foldlRecOn (motive := Shaken a) _ _ h fun _ hd _ _ => hd.dropStaged _).finish ..

theorem Shaken.settleFlushes (h : Shaken a c) : Shaken a c.settleFlushes :=
  List.foldlRecOn (motive := Shaken a) _ _ h fun _ hd _ _ => hd.settleFlush _

theorem Shaken.undoWrite (h : Shaken a c) (m : Cmd) : Shaken a (c.undoWrite m) := by
  have hrecs : Shaken a (m.restore.foldl (fun c r => c.setRec m.volume r.1 (recOfCode r.2)) c) :=
    List.foldlRecOn (motive := Shaken a) _ _ h fun _ hd _ _ => hd.side rfl
  exact hrecs.side rfl

theorem Shaken.loseCommands (h : Shaken a c) (p : Nat) : Shaken a (c.loseCommands p) := by
  refine List.foldlRecOn (motive := Shaken a) _ _ h fun d hd m _ => ?_
  split_ifs
  · exact (hd.undoWrite m).finishS _ _
  · exact hd.finishS _ _
  · exact (hd.updCmd _ _).settleFlushes
  · exact hd

theorem Shaken.fatalCmd (h : Shaken a c) (m : Cmd) : Shaken a (c.fatalCmd m) := by
  unfold Chip.fatalCmd
  dsimp only
  split_ifs
  · exact h
  · exact (h.undoWrite m).finishS _ _
  · exact h.finishS _ _

/-! ### Work on a pickup -/

section
variable {p : Nat}

theorem Shaken.pushCmd (h : Shaken a c) (hp : p < 16) (v arg : Q) : Shaken a (c.pushCmd p v arg) := by
  unfold Chip.pushCmd
  dsimp only
  split
  · exact h.side rfl
  · exact h.mark (loose_of_reg (by simp only [LE_PAIR_EVENT_CMD_LOST, LE_PAIR_EVENT]; omega))

theorem Shaken.setWch (h : Shaken a c) (x : WchRec) : Shaken a (c.setWch p x) := h.side rfl

theorem Shaken.setVol (h : Shaken a c) (x : VolRec) : Shaken a (c.setVol p x) := h.side rfl

theorem Shaken.setFrm (h : Shaken a c) (x : FrmRec) : Shaken a (c.setFrm p x) := h.side rfl

theorem Shaken.setSeqr (h : Shaken a c) (x : SeqRec) : Shaken a (c.setSeqr p x) := h.side rfl

theorem Shaken.setCal (h : Shaken a c) (x : CalRec) : Shaken a (c.setCal p x) := h.side rfl

theorem Shaken.setLane (h : Shaken a c) (l : Nat) (x : LaneRec) : Shaken a (c.setLane l x) := h.side rfl

theorem Shaken.lpTimed (h : Shaken a c) (s : Nat) (t : Word) : Shaken a (c.lpTimed s t) := h.side rfl

theorem Shaken.withRings (h : Shaken a c) (r : Cells Ring) : Shaken a (c.withRings r) := h.side rfl

theorem Shaken.setStn (h : Shaken a c) (s : Nat) (x : StationRec) : Shaken a (c.setStn s x) := h.side rfl

theorem Shaken.loopCmd (h : Shaken a c) (hp : p < 16) (op x : Nat) : Shaken a (c.loopCmd p op x) := h.pushCmd hp _ _

theorem Shaken.backJump (h : Shaken a c) (hp : p < 16) (f : Nat) : Shaken a (c.backJump p f) := (h.pushCmd hp _ _).setSeqr _

theorem Shaken.dropQueuedPass (h : Shaken a c) (hp : p < 16) : Shaken a (c.dropQueuedPass p) := by
  unfold Chip.dropQueuedPass
  split
  · exact h
  next x _ =>
    have hset : Shaken a (c.setWch p { c.wch p with queued := none }) := h.setWch _
    dsimp only
    split
    · exact hset
    · exact hset.backJump hp _

theorem Shaken.slotRecorded (h : Shaken a c) (hp : p < 16) (it : WriteItem) (b : Bool) : Shaken a (c.slotRecorded p it b) := by
  have hblocks : Loose (WCH_BLOCKS_COUNT p) := loose_of_reg (by simp only [WCH_BLOCKS_COUNT, WCH_BLOCKS]; omega)
  have hcut : Loose (WCH_INTERRUPTED_COUNT p) := loose_of_reg (by simp only [WCH_INTERRUPTED_COUNT, WCH_INTERRUPTED]; omega)
  have hevent : Loose (WCH_EVENT_INTERRUPTED p) := loose_of_reg (by simp only [WCH_EVENT_INTERRUPTED, WCH_EVENT]; omega)
  have hparity : Loose (WCH_PARITY_COUNT p) := loose_of_reg (by simp only [WCH_PARITY_COUNT, WCH_PARITY]; omega)
  have hmgmt : Loose (WCH_MGMT_BLOCKS_COUNT p) := loose_of_reg (by simp only [WCH_MGMT_BLOCKS_COUNT, WCH_MGMT_BLOCKS]; omega)
  have haccs (d : Chip) (hd : Shaken a d) (key f : Nat) : Shaken a (d.accParity key f) ∧ Shaken a (d.accDone key f) := by
    refine ⟨hd.setAcc _ _, ?_⟩
    unfold Chip.accDone
    dsimp only
    split
    · exact hd
    · exact hd.setAcc _ _
  unfold Chip.slotRecorded
  dsimp only
  generalize hd : (c.setWch p _).inc (WCH_BLOCKS_COUNT p) = d
  have hcounted : Shaken a d := hd ▸ (h.setWch _).inc hblocks
  generalize he : (if b = true then (d.inc (WCH_INTERRUPTED_COUNT p)).mark (WCH_EVENT_INTERRUPTED p) else d) = e
  have hmarked : Shaken a e := by
    subst he
    split
    · exact (hcounted.inc hcut).mark hevent
    · exact hcounted
  split_ifs
  · exact (hmarked.inc hparity).inc hmgmt
  · exact hmarked.inc hmgmt
  · exact (haccs _ (hmarked.inc hparity) _ _).1
  · exact (haccs _ hmarked _ _).2

theorem loose_laneEn (hp : p < 16) {k : Nat} (hk : k < 8) : Loose (RCH_CTRL_EN (8 * p + k)) :=
  loose_of_reg (by simp only [RCH_CTRL_EN, RCH_CTRL]; omega)

theorem Shaken.closePass (h : Shaken a c) (hp : p < 16) : Shaken a (c.closePass p) := by
  have hpassing : Loose (WCH_STATUS_PASSING p) := loose_of_reg (by simp only [WCH_STATUS_PASSING, WCH_STATUS]; omega)
  have hverify : Loose (WCH_STATUS_VERIFY_MODE p) := loose_of_reg (by simp only [WCH_STATUS_VERIFY_MODE, WCH_STATUS]; omega)
  unfold Chip.closePass
  dsimp only
  split
  · exact h
  · have hshown := ((h.setFld 0 hpassing).setFld 0 hverify).setLane (8 * p)
      { ((c.setFld (WCH_STATUS_PASSING p) 0).setFld (WCH_STATUS_VERIFY_MODE p) 0).lane (8 * p) with verify := false }
    have hlanes := List.foldlRecOn (motive := Shaken a) (List.range 8)
      (fun (c' : Chip) k => c'.setFld (RCH_CTRL_EN (8 * p + k)) (bitsOf (c.wch p).lanesEn k 1)) hshown fun _ hd k hk =>
        hd.setFld _ (loose_laneEn hp (List.mem_range.1 hk))
    split
    · exact hlanes.setWch _
    · exact (hlanes.setWch _).backJump hp _

theorem Shaken.cutPass (h : Shaken a c) (hp : p < 16) : Shaken a (c.cutPass p) := by
  have hstops : Shaken a (c.inc (WCH_STOPS_COUNT p)) := h.inc (loose_of_reg (by simp only [WCH_STOPS_COUNT, WCH_STOPS]; omega))
  unfold Chip.cutPass
  dsimp only
  split
  · exact h
  · refine Shaken.closePass ?_ hp
    split
    · exact hstops.slotRecorded hp _ _
    · exact hstops

theorem Shaken.disarmLanes (h : Shaken a c) : Shaken a (c.disarmLanes p) :=
  List.foldlRecOn (motive := Shaken a) _ _ h fun _ hd _ _ => hd.setLane _ _

theorem Shaken.endWriting (h : Shaken a c) (hp : p < 16) : Shaken a (c.endWriting p) := by
  unfold Chip.endWriting
  split
  · exact h
  · exact ((h.setVol _).setFld 0 (loose_of_reg (by simp only [WCH_CTRL_EN, WCH_CTRL]; omega))).settleFlushes

theorem Shaken.setVolState (h : Shaken a c) (hp : p < 16) (v : Nat) : Shaken a (c.setVolState p v) := by
  have hshown : Shaken a (c.setFld (WMM_STN_PU_VOLUME_STATE (p / 2) (p % 2)) v) :=
    h.setFld v (loose_of_reg (by simp only [WMM_STN_PU_VOLUME_STATE, WMM_STN_PU]; omega))
  unfold Chip.setVolState
  dsimp only
  split_ifs
  · exact (hshown.setVol _).setFld 1 (loose_of_reg (by simp only [WCH_CTRL_EN, WCH_CTRL]; omega))
  · exact hshown
  · exact hshown.endWriting hp

theorem Shaken.dropVolume (h : Shaken a c) (hp : p < 16) : Shaken a (c.dropVolume p) := by
  have hbad := List.foldlRecOn (motive := Shaken a) ((c.wch p).results.filter (·.interrupted))
    (fun (c : Chip) _ => (c.inc (WCH_VERIFY_FAILS_COUNT p)).mark (WCH_EVENT_VERIFY_FAIL p)) h fun _ hd _ _ =>
      (hd.inc (loose_of_reg (by simp only [WCH_VERIFY_FAILS_COUNT, WCH_VERIFY_FAILS]; omega))).mark
        (loose_of_reg (by simp only [WCH_EVENT_VERIFY_FAIL, WCH_EVENT]; omega))
  have hunhand (d : Chip) (hd : Shaken a d) : Shaken a (d.unhand (d.discOf p)) := hd.side rfl
  unfold Chip.dropVolume
  dsimp only
  exact Shaken.side (((((hunhand _ (hbad.setWch _)).setVolState hp vNotMounted).setVol _).setFld 0
    (loose_of_reg (by simp only [WMM_STN_PU_LAYER_UNUSABLE, WMM_STN_PU]; omega)))) rfl

theorem Shaken.writeParam (h : Shaken a c) (q i : Nat) (v : Q) : Shaken a (c.writeParam q i v) := h.side rfl

theorem Shaken.putCoefs (h : Shaken a c) (hp : p < 16) (r : CalRun) (xs : List Int) : Shaken a (c.putCoefs p r xs) := by
  unfold Chip.putCoefs
  dsimp only
  split_ifs
  · exact ((h.writeParam _ _ _).writeParam _ _ _).setFld _ (loose_of_reg (by simp only [CAL_PU_TSENS_SENS, CAL_PU_TSENS]; omega))
  · exact h.writeParam _ _ _
  · exact h.writeParam _ _ _

theorem Shaken.cycleOver (h : Shaken a c) (hp : p < 16) (result : Nat) : Shaken a (c.cycleOver p result) := by
  have hcycle : Loose (CAL_PU_STATUS_CYCLE p) := loose_of_reg (by simp only [CAL_PU_STATUS_CYCLE, CAL_PU_STATUS]; omega)
  have hstale : Loose (CAL_PU_STATUS_STALE p) := loose_of_reg (by simp only [CAL_PU_STATUS_STALE, CAL_PU_STATUS]; omega)
  have hset := ((h.setFld 0 hcycle).setFld 0 hstale).setCal (p := p) { c.cal p with first := none, by_ := none, run := none }
  unfold Chip.cycleOver
  dsimp only
  split
  · exact hset
  · exact hset.finish ..

theorem Shaken.abandonCal (h : Shaken a c) (hp : p < 16) (lost : Bool) : Shaken a (c.abandonCal p lost) := by
  unfold Chip.abandonCal
  extract_lets k d
  have hasked : Shaken a d := by
    unfold d
    split
    · split
      · exact (h.setCal _).finishS _ _
      · exact h
    · exact h
  clear_value d
  split
  · exact hasked
  rename_i e f _ _
  have hput : Shaken a e := by
    unfold e
    split
    · split
      · exact hasked.putCoefs hp _ _
      · exact hasked
    · exact hasked
  have hcounted : Shaken a f := hput.inc (g := CAL_ABANDONED_COUNT) (loose_of_reg (by decide))
  clear_value f
  split
  · split
    · exact ((hcounted.setCal _).cycleOver hp _).finishS _ _
    · exact hcounted.cycleOver hp _
  · exact hcounted.cycleOver hp _

theorem Shaken.showStep (h : Shaken a c) {s : Nat} (hs : s < 8) : Shaken a (c.showStep s) :=
  h.setFld _ (loose_of_reg (by simp only [WMM_STN_STATE_MOUNT_STEP, WMM_STN_STATE]; omega))

theorem Shaken.endQual (h : Shaken a c) (hp : p < 16) (status : Nat) : Shaken a (c.endQual p status) := by
  unfold Chip.endQual
  split
  · exact h
  next q _ =>
    have hfree := ((h.setVol (p := p) { c.vol p with qual := none }).abandonCal hp false).setSeqr (p := p)
      { (c.setVol p { c.vol p with qual := none }).seqr p with script := [] }
    exact (((hfree.dropVolume hp).loopCmd hp 0x07 1).endWaiters q.waiters status).showStep (by omega)

/-- The settings of an attempt lie on the lanes' own fields, apart from those the frame speaks of even where a number is no lane's. -/
theorem loose_attempt (l : Nat) : Loose (RCH_CTRL_ITER_MAX l) ∧ Loose (RCH_CTRL_LEARN_EN l) ∧ Loose (RCH_LAND_CFG_WINDOW l) ∧
    Loose (RCH_DEFECT_CFG_LLR_SCALE l) := by
  have hplace : ∀ f ∈ steadyFields, f.reg < 0x200000 ∨ f.reg % 0x1000 ≠ 0 ∧ f.reg % 0x1000 ≠ 0x18 ∧ f.reg % 0x1000 ≠ 0x1c ∨
      f.reg % 0x1000 = 0 ∧ (f.lo + f.w ≤ 3 ∨ 5 ≤ f.lo ∧ f.lo + f.w ≤ 7) := by decide
  refine ⟨⟨?_, fun f hf => ?_⟩, ⟨?_, fun f hf => ?_⟩, ⟨?_, fun f hf => ?_⟩, ⟨?_, fun f hf => ?_⟩⟩
  all_goals simp only [apart, RCH_CTRL_ITER_MAX, RCH_CTRL_LEARN_EN, RCH_LAND_CFG_WINDOW, RCH_DEFECT_CFG_LLR_SCALE, RCH_CTRL, RCH_LAND_CFG, RCH_DEFECT_CFG,
    WMH_CORES]
  case refine_1 | refine_3 | refine_5 | refine_7 => omega
  all_goals
    have := hplace f hf
    omega

theorem Shaken.restoreAttempt (h : Shaken a c) (saved : List (List Nat)) : Shaken a (c.restoreAttempt p saved) := by
  refine List.foldlRecOn (motive := Shaken a) _ _ h fun d hd k _ => Shaken.setLane ?_ _ _
  obtain ⟨hiter, hlearn, hwindow, hscale⟩ := loose_attempt (8 * p + k)
  exact (((hd.setFld _ hiter).setFld _ hlearn).setFld _ hwindow).setFld _ hscale

theorem Shaken.dropRetry (h : Shaken a c) (hp : p < 16) : Shaken a (c.dropRetry p) := by
  unfold Chip.dropRetry
  split
  · exact h
  next r _ =>
    have hset := (h.restoreAttempt (p := p) r.saved).setFrm (p := p)
      { (c.restoreAttempt p r.saved).frm p with retry := none, assembly := [], attempt := 1 }
    dsimp only
    split
    · exact hset.pushCmd hp _ _
    · exact hset

theorem Shaken.flumeReady (h : Shaken a c) (d : Dir) (x : Packet) : Shaken a (c.flumeReady d x) := by
  cases d
  · exact h.side rfl
  · exact h.side rfl

theorem Shaken.sendHead (h : Shaken a c) (q request home outcome flags attempts iters : Nat) (data : List Byte) :
    Shaken a (c.sendHead q request home outcome flags attempts iters data) := by
  unfold Chip.sendHead
  dsimp only
  split
  · exact List.foldlRecOn (motive := Shaken a) _ _ (h.flumeReady _ _) fun _ hd _ _ => hd.flumeReady _ _
  · exact h.flumeReady _ _

theorem Shaken.endReads (h : Shaken a c) (hp : p < 16) (outcome : Nat) : Shaken a (c.endReads p outcome) := by
  unfold Chip.endReads
  dsimp only
  exact Shaken.setFrm (List.foldlRecOn (motive := Shaken a) _ _ (h.dropRetry hp) fun _ hd _ _ =>
    List.foldlRecOn (motive := Shaken a) _ _ hd fun _ he _ _ => he.sendHead ..) _

/-! ### A station -/

theorem Shaken.putFlds (h : Shaken a c) (ws : List (Fld × Nat)) (hws : ∀ w ∈ ws, Loose w.1) : Shaken a (c.putFlds ws) :=
  List.foldlRecOn (motive := Shaken a) _ _ h fun _ hd w hw => hd.setFld _ (hws w hw)

theorem loose_stateFields {s : Nat} : ∀ f ∈ stateFields s, Loose f := by
  simp only [stateFields, List.forall_mem_cons, List.not_mem_nil, false_imp_iff, implies_true, and_true]
  refine ⟨?_, ?_, ?_, ?_, ?_, ?_⟩ <;> exact loose_of_reg (by simp only [WMM_STN_STATE_PREV, WMM_STN_STATE_STATE, WMM_STN_STATE_CAUSE,
    WMM_STN_STATE_UNCLAMP_ALLOWED, WMM_STN_TIME_TIME, WMM_STN_EVENT_STATE_CHANGE, WMM_STN_STATE, WMM_STN_TIME, WMM_STN_EVENT]; omega)

theorem Shaken.changeState (h : Shaken a c) (s new cause : Nat) : Shaken a (c.changeState s new cause) := by
  obtain ⟨rings, htold⟩ := changeState_told c s new cause
  have hwrites : ∀ w ∈ stateWrites s (c.stState s) new cause c.now.toNat, Loose w.1 := fun w hw =>
    loose_stateFields w.1 (by rw [← stateWrites_fields s (c.stState s) new cause c.now.toNat]; exact List.mem_map_of_mem hw)
  have hshown : Shaken a (c.stateShown s new cause) := ((h.setStn s _).putFlds _ hwrites).lpTimed s c.now
  rw [htold]
  exact ((hshown.journal _ _).log _ _ _).withRings _

end

theorem Shaken.parkPickup (h : Shaken a c) {p : Nat} (hp : p < 16) (cause : Nat) : Shaken a (c.parkPickup p cause) := by
  have hlost := ((((((h.cutPass hp).dropQueuedPass hp).abandonCal hp true).endReads hp
    (if cause = cauStationReset ∨ cause = cauUnmount then ouAbandoned else ouStationLost)).disarmLanes (p := p)).loseCommands p)
  unfold Chip.parkPickup
  extract_lets d e f g
  have hf : Shaken a f := hlost
  clear_value f
  have hg : Shaken a g := by
    unfold g
    split
    · exact hf.endQual hp _
    · exact hf.dropVolume hp
  exact hg.loopCmd hp _ _

theorem Shaken.park (h : Shaken a c) {s : Nat} (hs : s < 8) (cause : Nat) : Shaken a (c.park s cause) := by
  obtain ⟨heq, -⟩ | ⟨x, heq, -⟩ | heq := park_cases c s cause <;> rw [heq]
  · exact h
  · exact h.setStn s x
  · simp only [List.foldl_cons, List.foldl_nil]
    have hbegun : Shaken a (c.parkBegun s cause) := by
      refine Shaken.inc (Shaken.setStn ?_ s _) (loose_of_reg (by simp only [WMM_STN_PARKS_COUNT, WMM_STN_PARKS]; omega))
      exact (h.journal actPark s).changeState s sParking cause
    exact ((hbegun.parkPickup (p := 2 * s) (by omega) cause).parkPickup (p := 2 * s + 1) (by omega) cause).showStep hs

/-! ### The fatal error -/

theorem Shaken.fatalPark (h : Shaken a c) : Shaken a c.fatalPark := by
  unfold Chip.fatalPark
  split
  · exact h
  · refine List.foldlRecOn (motive := Shaken a) _ _ ?_ fun d hd s hs => hd.park (List.mem_range.1 hs) _
    refine List.foldlRecOn (motive := Shaken a) _ _ h fun d hd p hp => ?_
    exact ((hd.cutPass (List.mem_range.1 hp)).dropQueuedPass (List.mem_range.1 hp)).setVol _

theorem shaken_enterFatal (c : Chip) (cause : Nat) : Shaken c (c.enterFatal cause) := by
  have hmarked : Shaken c ((((((c.setFld WMH_FATAL_CAUSE cause).setFld WMH_FATAL_TIME_TIME c.nowH.toNat).mark WMH_EVENT_FATAL).setFld WMH_ROLE_FATAL 1).setFld
      GEN_CONFIG_FATAL 1).log 0x060C .h [cause]) := by
    refine Shaken.log (Shaken.setFld (Shaken.setFld (Shaken.mark (Shaken.setFld (Shaken.setFld (.refl c) _ ?_) _ ?_) ?_) _ ?_) _ ?_) _ _ _
    all_goals exact ⟨by decide, by decide⟩
  unfold Chip.enterFatal
  split
  · exact .refl c
  rename_i hnot
  extract_lets c₁ c₂ c₃ c₄ c₅ host c₆ buf scrub c₇
  have h₂ : Shaken c c₂ := hmarked
  clear_value c₂
  have h₄ : Shaken c c₄ := List.foldlRecOn (motive := Shaken c) _ _ (h₂.journal actFatal 0) fun _ hd _ _ => hd.postEvent ..
  clear_value c₄
  have h₅ : Shaken c c₅ := List.foldlRecOn (motive := Shaken c) _ _ h₄ fun _ hd _ _ => hd.fatalCmd _
  clear_value c₅
  have h₆ : Shaken c c₆ := h₅.trans ⟨fun _ => rfl, rfl, rfl, fun d => by cases d <;> rfl, fun _ => rfl, fun _ _ _ => rfl, fun _ _ => rfl, id⟩
  clear_value c₆
  have h₇ : Shaken c c₇ := by
    unfold c₇
    split
    · refine Shaken.setFld (g := BUF_STATUS_SCRUB_BUSY) ?_ 0 ⟨by decide, by decide⟩
      exact h₆.side rfl
    · exact h₆
  exact h₇.fatalPark

/-- The frame holds across any access to buffer DRAM. -/
theorem absorbs_shaken : Absorbs Shaken := ⟨fun h h' => h.trans h', shaken_of_work, fun _ => shaken_enterFatal _ 2⟩

end

end Sys2Proof.Machine
end

section
/-! The watermasters: heartbeats, the journal and the roles (R434 to R439, R442): O44. -/

namespace Sys2Proof.Machine

/-! ### The watermasters' fields -/

theorem otherDie_ne (d : Die) : otherDie d ≠ d := by cases d <;> decide

theorem otherDie_otherDie (d : Die) : otherDie (otherDie d) = d := by cases d <;> rfl

theorem role_lt (c : Chip) (d : Die) : c.role d < 8 := by
  have hw : (roleOf d).w = 3 := by cases d <;> rfl
  have hlt := fld_lt c (roleOf d)
  rwa [hw] at hlt

/-- The fields by which a watermaster shows its role and its peer, and counts what befalls it. -/
def wmFields (d : Die) : List Fld :=
  [roleOf d, peerFlume d, peerPulse d, peerSplit d, peerDead d, wmFld d WMH_EVENT_TAKEOVER WMM_EVENT_TAKEOVER,
    wmFld d WMH_EVENT_PEER_FAILED WMM_EVENT_PEER_FAILED, wmFld d WMH_EVENT_PEER_RESTORED WMM_EVENT_PEER_RESTORED,
    wmFld d WMH_EVENT_PATH_PULSE WMM_EVENT_PATH_PULSE, wmFld d WMH_EVENT_PATH_FLUME WMM_EVENT_PATH_FLUME,
    wmFld d WMH_PATH_FAULTS_COUNT WMM_PATH_FAULTS_COUNT, wmFld d WMH_TAKEOVERS_COUNT WMM_TAKEOVERS_COUNT]

theorem wmFields_apart (d : Die) : (wmFields d ++ wmFields (otherDie d)).Pairwise apart := by
  cases d <;> decide

/-! ### Heartbeats -/

theorem heartbeatSend_sends {c : Chip} {d : Die} (hruns : c.wmRuns d = true) (hup : c.flag FLM_STATUS_UP = true) :
    ∃ p : Packet, c.heartbeatSend d = c.flumeReady (if d = .h then .toM else .toH) p ∧ p.ty = 1 ∧ p.unit = unitWm ∧
      (p.payload.getD 0 0).toNat = c.role d + 256 * ((c.role d == roleSplit).toNat + 2 * (c.flag (peerFlume d) || c.flag (peerPulse d)).toNat) := by
  refine ⟨⟨1, 0, unitWm, 0, [BitVec.ofNat 32 (c.role d + 256 * ((c.role d == roleSplit).toNat +
    2 * (c.flag (peerFlume d) || c.flag (peerPulse d)).toNat)), BitVec.ofNat 32 (c.wm d).seq]⟩, ?_, rfl, rfl, ?_⟩
  · unfold Chip.heartbeatSend
    rw [if_neg (by simp [hruns, hup])]
    cases d <;> rfl
  · have hrole := role_lt c d
    have hbit (b : Bool) : b.toNat ≤ 1 := Bool.toNat_le b
    have hsplit := hbit (c.role d == roleSplit)
    have hsees := hbit (c.flag (peerFlume d) || c.flag (peerPulse d))
    exact (BitVec.toNat_ofNat ..).trans (Nat.mod_eq_of_lt (by omega))

/-- The word of a heartbeat: the role in its low byte, then two flags. -/
theorem heartbeat_bits {r : Nat} (hr : r < 8) (x y : Bool) : (r + 256 * (x.toNat + 2 * y.toNat)) % 256 = r ∧
    (r + 256 * (x.toNat + 2 * y.toNat)).testBit 8 = x ∧ (r + 256 * (x.toNat + 2 * y.toNat)).testBit 9 = y := by
  revert r
  cases x <;> cases y <;> decide

/-- With nothing missing on either path, a watermaster judges its peer well while the Flume is up. -/
theorem judgePeer_up {c : Chip} {d : Die} (hup : c.flag FLM_STATUS_UP = true) (hflume : (c.wm d).missFlume = false)
    (hpulse : (c.wm d).missPulse = false) : ∃ w : WmRec, w.missFlume = false ∧ w.missPulse = false ∧ w.restoring = (c.wm d).restoring ∧
      w.unsynced = (c.wm d).unsynced ∧ c.judgePeer d = c.setWm d w := by
  have hsame : c = c.setWm d (c.wm d) := (setWm_self c d).symm
  unfold Chip.judgePeer
  simp only [hup, hflume, hpulse, Bool.not_true, Bool.false_eq_true, if_false]
  split_ifs
  · exact ⟨_, hflume, hpulse, rfl, rfl, hsame⟩
  · exact ⟨_, hflume, hpulse, rfl, rfl, hsame⟩
  · exact ⟨{ c.wm d with missFlume := false, missPulse := false, path := none }, rfl, rfl, rfl, rfl, rfl⟩

/-- The pulse line brings a heartbeat of the peer. -/
def Chip.pulseNoted (c : Chip) (d : Die) (split : Bool) : Chip :=
  ((c.setWm d { c.wm d with missPulse := false }).setFld (peerPulse d) 1).setFlag (peerSplit d) split

theorem fieldsKept_pulseNoted (c : Chip) (d : Die) (split : Bool) : c.fieldsKept [peerPulse d, peerSplit d] (c.pulseNoted d split) :=
  fieldsKept_setFlag _ _ (by simp) (fieldsKept_setFld _ _ (by simp) (fieldsKept_of_regs (setWm_regs ..)))

theorem wm_pulseNoted (c : Chip) (d e : Die) (split : Bool) : (c.pulseNoted d split).wm e = (c.setWm d { c.wm d with missPulse := false }).wm e := by
  simp [Chip.pulseNoted, Chip.setFlag, wm_setFld]

theorem pulseSeen_well {c : Chip} {d : Die} (split : Bool) (hup : c.flag FLM_STATUS_UP = true) (hflume : (c.wm d).missFlume = false) :
    ∃ w : WmRec, w.missPulse = false ∧ c.pulseSeen d split = (c.pulseNoted d split).setWm d w := by
  have hup' : (c.pulseNoted d split).flag FLM_STATUS_UP = true :=
    (flag_eq_of_fld (fieldsKept_pulseNoted c d split _ (by decide) (by cases d <;> decide))).trans hup
  obtain ⟨w, -, hpulse, -, -, hjudged⟩ := judgePeer_up (d := d) hup' (by rw [wm_pulseNoted, wm_setWm]; exact hflume) (by rw [wm_pulseNoted, wm_setWm])
  exact ⟨w, hpulse, hjudged⟩

/-! ### A silent path -/

/-- The field that shows a path alive, and the event of its fault. -/
def pathSeen (d : Die) (pulse : Bool) : Fld := if pulse then peerPulse d else peerFlume d

def pathEvent (d : Die) (pulse : Bool) : Fld :=
  if pulse then wmFld d WMH_EVENT_PATH_PULSE WMM_EVENT_PATH_PULSE else wmFld d WMH_EVENT_PATH_FLUME WMM_EVENT_PATH_FLUME

def pathFaults (d : Die) : Fld := wmFld d WMH_PATH_FAULTS_COUNT WMM_PATH_FAULTS_COUNT

/-- A watermaster notes that a path is silent. -/
def Chip.silenceNoted (c : Chip) (d : Die) (pulse : Bool) : Chip :=
  (c.setWm d { c.wm d with missFlume := (c.wm d).missFlume || !pulse, missPulse := (c.wm d).missPulse || pulse }).setFld (pathSeen d pulse) 0

theorem exec_peerHeartbeatMissing (s : State) (d : Die) (pulse : Bool) :
    exec (.peerHeartbeatMissing d pulse) s = s.on fun c => (c.silenceNoted d pulse).judgePeer d := by
  show execPeerHeartbeatMissing d pulse s = _
  unfold execPeerHeartbeatMissing
  refine congrArg s.on (funext fun c => ?_)
  cases pulse <;> simp [Chip.silenceNoted, pathSeen]

/-- What the judgement needs of the machine at hand. -/
structure Watches (c : Chip) (d : Die) : Prop where
  runs : c.wmRuns d = true
  up : c.flag FLM_STATUS_UP = true
  trained : c.flag FLM_STATUS_RETRAINING = false
  peer : c.flag (peerDead d) = false
  whole : (c.wm (otherDie d)).restoring = false

theorem fieldsKept_silenceNoted (c : Chip) (d : Die) (pulse : Bool) : c.fieldsKept [pathSeen d pulse] (c.silenceNoted d pulse) :=
  fieldsKept_setFld _ _ (by simp) (fieldsKept_of_regs (setWm_regs ..))

theorem wm_silenceNoted (c : Chip) (d : Die) (pulse : Bool) : (c.silenceNoted d pulse).wm d =
    { c.wm d with missFlume := (c.wm d).missFlume || !pulse, missPulse := (c.wm d).missPulse || pulse } := by
  rw [Chip.silenceNoted, wm_setFld, wm_setWm]

theorem role_silenceNoted (c : Chip) (d e : Die) (pulse : Bool) : (c.silenceNoted d pulse).role e = c.role e :=
  fieldsKept_silenceNoted c d pulse _ (by cases e <;> decide) (by cases d <;> cases e <;> cases pulse <;> decide)

theorem watches_silenceNoted {c : Chip} {d : Die} (h : Watches c d) (pulse : Bool) : Watches (c.silenceNoted d pulse) d := by
  obtain ⟨hruns, hup, htrained, hpeer, hwhole⟩ := h
  have hkept := fieldsKept_silenceNoted c d pulse
  refine ⟨?_, (flag_eq_of_fld (hkept _ (by decide) (by cases d <;> cases pulse <;> decide))).trans hup,
    (flag_eq_of_fld (hkept _ (by decide) (by cases d <;> cases pulse <;> decide))).trans htrained,
    (flag_eq_of_fld (hkept _ (by cases d <;> decide) (by cases d <;> cases pulse <;> decide))).trans hpeer, ?_⟩
  · rw [Chip.wmRuns, role_silenceNoted, wm_silenceNoted]
    exact hruns
  · rw [Chip.silenceNoted, wm_setFld, wm_setWm_other _ _ _ _ (otherDie_ne d)]
    exact hwhole

/-- One path silent is a fault of that path. -/
theorem judgePeer_path {c : Chip} {d : Die} (h : Watches c d) {pulse : Bool} (hflume : (c.wm d).missFlume = !pulse) (hpulse : (c.wm d).missPulse = pulse) :
    c.judgePeer d = c.pathFaulty d pulse.toNat := by
  obtain ⟨hruns, hup, htrained, hpeer, hwhole⟩ := h
  unfold Chip.judgePeer
  cases pulse <;> simp [hruns, hup, htrained, hpeer, hwhole, hflume, hpulse]

/-- Both silent, the peer has failed. -/
theorem judgePeer_silent {c : Chip} {d : Die} (h : Watches c d) (hflume : (c.wm d).missFlume = true) (hpulse : (c.wm d).missPulse = true) :
    c.judgePeer d = c.peerFailed d := by
  obtain ⟨hruns, hup, htrained, hpeer, hwhole⟩ := h
  unfold Chip.judgePeer
  simp [hruns, hup, htrained, hpeer, hwhole, hflume, hpulse]

/-- A path fault as it is reported, its first time. -/
def Chip.faultTold (c : Chip) (d : Die) (pulse : Bool) : Chip :=
  (((c.setWm d { c.wm d with path := some pulse.toNat }).mark (pathEvent d pulse)).inc (pathFaults d)).log 0x0606 d [1, 0, pulse.toNat]

theorem pathFaulty_onset {c : Chip} {d : Die} {pulse : Bool} (h : (c.wm d).path ≠ some pulse.toNat) :
    c.pathFaulty d pulse.toNat = c.faultTold d pulse := by
  rw [Chip.pathFaulty, if_neg h]
  cases pulse <;> rfl

/-- What the report of a silent path shows. -/
structure FaultTold (d : Die) (pulse : Bool) (c c' : Chip) : Prop where
  seen : c'.flag (pathSeen d pulse) = false
  event : c'.flag (pathEvent d pulse) = true
  count : c'.fld (pathFaults d) = min (c.fld (pathFaults d) + 1) (2 ^ (pathFaults d).w - 1)
  role : c'.role d = c.role d
  log : (c'.weir (weirKey 6 0)).items = (c.weir (weirKey 6 0)).items ++ [(logWords (c.nowOn d) 0x0606 d [1, 0, pulse.toNat]).map (fun w => ⟨w, false⟩)]
  fields : c.fieldsKept [pathSeen d pulse, pathEvent d pulse, pathFaults d] c'
  bytes : c.bytesKept c'

theorem faultTold (c : Chip) (d : Die) (pulse : Bool) : FaultTold d pulse c ((c.silenceNoted d pulse).faultTold d pulse) := by
  have hfields : c.fieldsKept [pathSeen d pulse, pathEvent d pulse, pathFaults d] ((c.silenceNoted d pulse).faultTold d pulse) := by
    have hnoted := fieldsKept_weaken (L' := [pathSeen d pulse, pathEvent d pulse, pathFaults d]) (by simp) (fieldsKept_silenceNoted c d pulse)
    exact fieldsKept_regs (log_regs ..) (fieldsKept_inc _ (by simp) (fieldsKept_mark _ (by simp) (fieldsKept_regs (setWm_regs ..) hnoted)))
  have hold : ((c.silenceNoted d pulse).faultTold d pulse).regs =
      (((c.setFld (pathSeen d pulse) 0).mark (pathEvent d pulse)).inc (pathFaults d)).regs := by
    cases d <;> rfl
  refine ⟨?_, ?_, ?_, ?_, ?_, hfields, ?_⟩
  · rw [flag_eq_of_fld (fld_of_regs hold _), flag_inc_apart _ _ _ (by cases d <;> cases pulse <;> decide) (by cases d <;> cases pulse <;> decide),
      flag_mark_apart _ _ _ (by cases d <;> cases pulse <;> decide) (by cases d <;> cases pulse <;> decide)]
    exact flag_setFld_zero _ _ (by cases d <;> cases pulse <;> decide)
  · rw [flag_eq_of_fld (fld_of_regs hold _), flag_inc_apart _ _ _ (by cases d <;> cases pulse <;> decide) (by cases d <;> cases pulse <;> decide)]
    exact flag_mark_same _ _ (by cases d <;> cases pulse <;> decide) (by cases d <;> cases pulse <;> decide)
  · rw [fld_of_regs hold, fld_inc_same _ _ (by cases d <;> decide), fld_mark_apart _ _ _ (by cases d <;> decide) (by cases d <;> cases pulse <;> decide),
      fld_setFld_apart _ _ _ _ (by cases d <;> decide) (by cases d <;> cases pulse <;> decide)]
  · exact hfields _ (by cases d <;> decide) (by cases d <;> cases pulse <;> decide)
  · cases d <;> exact items_log _ _ _ _
  · refine bytesKept_of_eq ?_ ?_ ?_ <;> cases d <;> rfl

/-! ### Takeover -/

/-- The STANDBY watermaster of `d` takes over from its peer (R437). -/
def Chip.tookOver (c : Chip) (d : Die) : Chip :=
  ((((((c.setFld (peerDead d) 1).mark (wmFld d WMH_EVENT_PEER_FAILED WMM_EVENT_PEER_FAILED)).setFld (roleOf d) roleActive).mark
    (wmFld d WMH_EVENT_TAKEOVER WMM_EVENT_TAKEOVER)).inc (wmFld d WMH_TAKEOVERS_COUNT WMM_TAKEOVERS_COUNT)).log 0x0607 d [match d with
      | .h => 0
      | .m => 1])

theorem peerFailed_takeover {c : Chip} {d : Die} (hpeer : c.flag (peerDead d) = false) (hrole : c.role d = roleStandby) :
    c.peerFailed d = ((c.tookOver d).setWm d { (c.tookOver d).wm d with path := none }).restorePeer d := by
  have hkept : (((c.setFld (peerDead d) 1).mark (wmFld d WMH_EVENT_PEER_FAILED WMM_EVENT_PEER_FAILED)).role d = roleStandby) := by
    rw [← hrole]
    exact (fld_mark_apart _ _ _ (by cases d <;> decide) (by cases d <;> decide)).trans
      (fld_setFld_apart _ _ _ _ (by cases d <;> decide) (by cases d <;> decide))
  unfold Chip.peerFailed
  simp only [hpeer, Bool.false_eq_true, if_false, hkept, if_true]
  cases d <;> rfl

/-- What a takeover shows. -/
structure TookOver (d : Die) (c : Chip) : Prop where
  role : c.role d = roleActive
  peerRole : c.role (otherDie d) = roleFailed
  dead : c.flag (peerDead d) = true
  restoring : (c.wm (otherDie d)).restoring = true
  takeover : c.flag (wmFld d WMH_EVENT_TAKEOVER WMM_EVENT_TAKEOVER) = true
  failed : c.flag (wmFld d WMH_EVENT_PEER_FAILED WMM_EVENT_PEER_FAILED) = true

theorem TookOver.shaken {d : Die} {c c' : Chip} (h : TookOver d c) (hs : Shaken c c') : TookOver d c' := by
  obtain ⟨hrole, hpeer, hdead, hrestoring, htakeover, hfailed⟩ := h
  have hflag (f : Fld) (hf : f ∈ steadyFields) (hc : c.flag f = true) : c'.flag f = true := (flag_eq_of_fld (hs.fields f hf)).trans hc
  refine ⟨(hs.fields _ ?_).trans hrole, (hs.fields _ ?_).trans hpeer, hflag _ ?_ hdead, (hs.restoring _).trans hrestoring, hflag _ ?_ htakeover,
    hflag _ ?_ hfailed⟩
  all_goals cases d <;> decide

/-- The writes of a takeover, with the count's new value. -/
def takeoverWrites (d : Die) (n : Nat) : List (Fld × Nat) :=
  [(peerDead d, 1), (wmFld d WMH_EVENT_PEER_FAILED WMM_EVENT_PEER_FAILED, 1), (roleOf d, roleActive),
    (wmFld d WMH_EVENT_TAKEOVER WMM_EVENT_TAKEOVER, 1), (wmFld d WMH_TAKEOVERS_COUNT WMM_TAKEOVERS_COUNT, n), (roleOf (otherDie d), roleFailed)]

def takeoverFields (d : Die) : List Fld :=
  [peerDead d, wmFld d WMH_EVENT_PEER_FAILED WMM_EVENT_PEER_FAILED, roleOf d, wmFld d WMH_EVENT_TAKEOVER WMM_EVENT_TAKEOVER,
    wmFld d WMH_TAKEOVERS_COUNT WMM_TAKEOVERS_COUNT, roleOf (otherDie d)]

theorem takeoverFields_apart (d : Die) : (takeoverFields d).Pairwise apart := by cases d <;> decide

theorem takeoverWrites_fields (d : Die) (n : Nat) : (takeoverWrites d n).map Prod.fst = takeoverFields d := rfl

theorem tookOver_regs (c : Chip) (d : Die) (w : WmRec) : ∃ n, (((c.tookOver d).setWm d w).setFld (roleOf (otherDie d)) roleFailed).regs =
    (c.putFlds (takeoverWrites d n)).regs := by
  cases d <;> exact ⟨_, rfl⟩

theorem tookOver_restorePeer (c : Chip) (d : Die) (w : WmRec) : TookOver d (((c.tookOver d).setWm d w).restorePeer d) := by
  obtain ⟨n, hregs⟩ := tookOver_regs c d w
  have hfit : ∀ x ∈ takeoverWrites d n, x.1.lo + x.1.w ≤ 64 := by cases d <;> simp [takeoverWrites] <;> decide
  have hapart : (takeoverWrites d n).Pairwise fun x y => apart x.1 y.1 := 
    List.pairwise_map.1 (by rw [takeoverWrites_fields]; exact takeoverFields_apart d)
  have hfld {f : Fld} {v : Nat} (hmem : (f, v) ∈ takeoverWrites d n) (hv : v < 2 ^ f.w) :
      (((c.tookOver d).setWm d w).setFld (roleOf (otherDie d)) roleFailed).fld f = v :=
    (fld_of_regs hregs f).trans ((fld_putFlds_mem c hfit hapart hmem).trans (Nat.mod_eq_of_lt hv))
  unfold Chip.restorePeer
  dsimp only
  generalize ((c.tookOver d).setWm d w).setFld (roleOf (otherDie d)) roleFailed = e at hfld ⊢
  have hset (x : WmRec) (hx : x.restoring = true) : TookOver d ((e.setWm (otherDie d) x).engineReset (wmEngine (otherDie d))) := by
    have hregs : ((e.setWm (otherDie d) x).engineReset (wmEngine (otherDie d))).regs = e.regs := setWm_regs ..
    have hflag (f : Fld) (hf : (f, 1) ∈ takeoverWrites d n) (hw : f.w = 1) :
        ((e.setWm (otherDie d) x).engineReset (wmEngine (otherDie d))).flag f = true := by
      rw [Chip.flag, fld_of_regs hregs, hfld hf (by rw [hw]; decide)]
      rfl
    refine ⟨(fld_of_regs hregs _).trans (hfld (by simp [takeoverWrites]) (by cases d <;> decide)),
      (fld_of_regs hregs _).trans (hfld (by simp [takeoverWrites]) (by cases d <;> decide)), hflag _ (by simp [takeoverWrites]) (by cases d <;> rfl), ?_,
      hflag _ (by simp [takeoverWrites]) (by cases d <;> rfl), hflag _ (by simp [takeoverWrites]) (by cases d <;> rfl)⟩
    rw [← hx]
    exact congrArg WmRec.restoring (wm_setWm ..)
  exact (hset _ rfl).shaken (absorbs_shaken.loadRiscv (.refl _) _)

/-! ### The journal -/

/-- The STANDBY watermaster has acknowledged the oldest entry of the ACTIVE one. -/
def Chip.entryAcked (c : Chip) (a : Die) (j : JournalRec) (rest : List JournalRec) : Chip :=
  (c.setWm a { c.wm a with waiting := rest }).setWm (otherDie a) { c.wm (otherDie a) with seq := j.seq }

theorem wm_entryAcked (c : Chip) (a : Die) (j : JournalRec) (rest : List JournalRec) : ((c.entryAcked a j rest).wm a).waiting = rest ∧
    ((c.entryAcked a j rest).wm (otherDie a)).seq = j.seq ∧ c.entryAcked a j rest = { c with sup := (c.entryAcked a j rest).sup } := by
  cases a <;> exact ⟨rfl, rfl, rfl⟩

theorem journalAck_action {c : Chip} {j : JournalRec} {rest : List JournalRec} (hwaiting : (c.wm c.activeDie).waiting = j :: rest) (hcarry : c.carrying = true)
    (hruns : c.wmRuns (otherDie c.activeDie) = true) (haction : j.action ≠ actRoles) : c.journalAck = c.entryAcked c.activeDie j rest := by
  unfold Chip.journalAck
  simp only [hwaiting, hcarry, hruns, haction, Bool.not_true, Bool.false_eq_true, or_self, if_false]
  rfl

theorem journalAck_swap {c : Chip} {j : JournalRec} {rest : List JournalRec} (hwaiting : (c.wm c.activeDie).waiting = j :: rest) (hcarry : c.carrying = true)
    (hruns : c.wmRuns (otherDie c.activeDie) = true) (haction : j.action = actRoles) (hload : c.sup.wmLoad = 0) :
    c.journalAck = (c.entryAcked c.activeDie j rest).swapWm := by
  have hkeep : (c.entryAcked c.activeDie j rest).swapWm.sup.wmLoad = 0 := by
    rw [← hload]
    cases c.activeDie <;> rfl
  unfold Chip.journalAck
  simp only [hwaiting, hcarry, hruns, haction, Bool.not_true, Bool.false_eq_true, or_self, if_false, if_true]
  refine if_neg fun h => ?_
  have hzero : (0 : Nat) = 2 := hkeep.symm.trans h
  exact absurd hzero (by decide)

/-- The writes of a swap of the roles, with the count's new value. -/
def swapWrites (a : Die) (n : Nat) : List (Fld × Nat) :=
  [(roleOf a, roleStandby), (roleOf (otherDie a), roleActive), (WMH_ROLE_SWAPS_COUNT, n), (WMH_EVENT_ROLE_SWAP, 1), (WMM_EVENT_ROLE_SWAP, 1)]

def swapFields (a : Die) : List Fld := [roleOf a, roleOf (otherDie a), WMH_ROLE_SWAPS_COUNT, WMH_EVENT_ROLE_SWAP, WMM_EVENT_ROLE_SWAP]

theorem swapWrites_fields (a : Die) (n : Nat) : (swapWrites a n).map Prod.fst = swapFields a := rfl

theorem swapFields_apart (a : Die) : (swapFields a).Pairwise apart := by cases a <;> decide

/-- What a swap of the roles shows. -/
structure Swapped (a : Die) (c c' : Chip) : Prop where
  active : c'.role a = roleStandby
  standby : c'.role (otherDie a) = roleActive
  count : c'.fld WMH_ROLE_SWAPS_COUNT = min (c.fld WMH_ROLE_SWAPS_COUNT + 1) (2 ^ WMH_ROLE_SWAPS_COUNT.w - 1)
  eventH : c'.flag WMH_EVENT_ROLE_SWAP = true
  eventM : c'.flag WMM_EVENT_ROLE_SWAP = true
  fields : c.fieldsKept [WMH_ROLE_ROLE, WMM_ROLE_ROLE, WMH_ROLE_SWAPS_COUNT, WMH_EVENT_ROLE_SWAP, WMM_EVENT_ROLE_SWAP] c'

theorem swapped_of_regs {c c' : Chip} {a : Die}
    (h : c'.regs = (c.putFlds (swapWrites a (min (c.fld WMH_ROLE_SWAPS_COUNT + 1) (2 ^ WMH_ROLE_SWAPS_COUNT.w - 1)))).regs) : Swapped a c c' := by
  generalize hn : min (c.fld WMH_ROLE_SWAPS_COUNT + 1) (2 ^ WMH_ROLE_SWAPS_COUNT.w - 1) = n at h
  have hfit : ∀ x ∈ swapWrites a n, x.1.lo + x.1.w ≤ 64 := by cases a <;> simp [swapWrites] <;> decide
  have hfld {f : Fld} {v : Nat} (hmem : (f, v) ∈ swapWrites a n) (hv : v < 2 ^ f.w) : c'.fld f = v :=
    (fld_of_regs h f).trans ((fld_putFlds_mem c hfit (List.pairwise_map.1 (by rw [swapWrites_fields]; exact swapFields_apart a)) hmem).trans
      (Nat.mod_eq_of_lt hv))
  have hflag {f : Fld} (hmem : (f, 1) ∈ swapWrites a n) (hw : f.w = 1) : c'.flag f = true := by
    rw [Chip.flag, hfld hmem (by rw [hw]; decide)]
    rfl
  refine ⟨hfld (by simp [swapWrites]) (by cases a <;> decide), hfld (by simp [swapWrites]) (by cases a <;> decide), ?_, hflag (by simp [swapWrites]) rfl,
    hflag (by simp [swapWrites]) rfl, fieldsKept_regs h (fieldsKept_weaken (fun f hf => ?_) (fieldsKept_putFlds c _))⟩
  · rw [hn]
    exact hfld (by simp [swapWrites]) (by rw [← hn]; have := Nat.two_pow_pos WMH_ROLE_SWAPS_COUNT.w; omega)
  · rw [swapWrites_fields] at hf
    revert f
    cases a <;> decide

theorem regs_putFlds {c c' : Chip} (h : c'.regs = c.regs) (ws : List (Fld × Nat)) : (c'.putFlds ws).regs = (c.putFlds ws).regs := by
  induction ws generalizing c c' with
  | nil => exact h
  | cons w ws ih =>
    refine ih (c := c.setFld w.1 w.2) (c' := c'.setFld w.1 w.2) ?_
    simp [Chip.setFld, Chip.setReg, Chip.reg, h]

theorem swapped (c : Chip) (j : JournalRec) (rest : List JournalRec) : Swapped c.activeDie c (c.entryAcked c.activeDie j rest).swapWm := by
  have hactive : (c.entryAcked c.activeDie j rest).activeDie = c.activeDie := by
    rw [Chip.activeDie, Chip.activeDie, Chip.entryAcked, fld_setWm, fld_setWm]
  refine swapped_of_regs ?_
  rw [Chip.swapWm, hactive]
  have hregs : (c.entryAcked c.activeDie j rest).regs = c.regs := by rw [Chip.entryAcked, setWm_regs, setWm_regs]
  generalize c.entryAcked c.activeDie j rest = e at hregs ⊢
  generalize c.activeDie = a
  have hcount : ((e.setFld (roleOf a) roleStandby).setFld (roleOf (otherDie a)) roleActive).fld WMH_ROLE_SWAPS_COUNT = c.fld WMH_ROLE_SWAPS_COUNT := by
    rw [fld_setFld_apart _ _ _ _ (by decide) (by cases a <;> decide), fld_setFld_apart _ _ _ _ (by decide) (by cases a <;> decide)]
    exact fld_of_regs hregs _
  rw [← hcount]
  exact regs_putFlds hregs (swapWrites a _)

/-! ### Swaps asked for -/

theorem maySwap_active {c : Chip} (h : c.maySwap = true) : c.fld WMM_ROLE_ROLE = 1 ∨ c.fld WMH_ROLE_ROLE = 1 := by
  have hsum : c.role .h + c.role .m = 1 := by simpa using (Bool.and_eq_true_iff.1 (Bool.and_eq_true_iff.1 h).1).2
  change c.fld WMH_ROLE_ROLE + c.fld WMM_ROLE_ROLE = 1 at hsum
  omega

theorem askSwap_asks {c : Chip} (h : c.maySwap = true) : c.askSwap = c.setWm c.activeDie { c.wm c.activeDie with
    seq := (c.wm c.activeDie).seq + 1, waiting := (c.wm c.activeDie).waiting ++ [⟨(c.wm c.activeDie).seq + 1, actRoles, 0⟩] } := by
  rw [Chip.askSwap, if_pos h, Chip.journal, if_pos (maySwap_active h)]

/-! ### A restored watermaster -/

/-- The tests of the watermaster of `d` have passed: it waits to hear its peer as it rejoins. -/
def Chip.rejoined (c : Chip) (d : Die) : Chip :=
  let c := c.setWm d { c.wm d with restoring := false, unsynced := false, missFlume := false, missPulse := false, path := none }
  let c := ((c.setFld (roleOf d) roleStandby).setFld (peerDead (otherDie d)) 0).mark
    (wmFld (otherDie d) WMH_EVENT_PEER_RESTORED WMM_EVENT_PEER_RESTORED)
  c.setWm (otherDie d) { c.wm (otherDie d) with missFlume := false, missPulse := false, path := none }

theorem wmRestored_pass {c : Chip} {d : Die} (hrestoring : (c.wm d).restoring = true) (hrole : c.role d = roleFailed) :
    c.wmRestored d true = (c.rejoined d).judgePeer d := by
  unfold Chip.wmRestored
  simp only [hrestoring, Bool.not_true, Bool.false_eq_true, if_false, if_true]
  rw [if_pos (by simpa [Chip.role] using hrole)]
  rfl

theorem wmRestored_fail {c : Chip} {d : Die} (hrestoring : (c.wm d).restoring = true) (hrole : c.role d = roleFailed) : c.wmRestored d false =
    c.setWm d { c.wm d with restoring := false, unsynced := false, missFlume := false, missPulse := false, path := none } := by
  unfold Chip.wmRestored
  simp only [hrestoring, Bool.not_true, Bool.false_eq_true, if_false]
  rw [if_pos (by simpa [Chip.role] using hrole)]

theorem activateGo_idle {c : Chip} (h : c.host.activating = none) : c.activateGo = c := by
  unfold Chip.activateGo
  rw [h]
  rfl

/-- What the return of a watermaster shows. -/
structure Rejoined (d : Die) (c c' : Chip) : Prop where
  role : c'.role d = roleStandby
  peer : c'.flag (peerDead (otherDie d)) = false
  event : c'.flag (wmFld (otherDie d) WMH_EVENT_PEER_RESTORED WMM_EVENT_PEER_RESTORED) = true
  restoring : (c'.wm d).restoring = false
  synced : (c'.wm d).unsynced = false
  heard : (c'.wm d).missFlume = false ∧ (c'.wm d).missPulse = false
  fields : c.fieldsKept [roleOf d, peerDead (otherDie d), wmFld (otherDie d) WMH_EVENT_PEER_RESTORED WMM_EVENT_PEER_RESTORED] c'
  bytes : c.bytesKept c'
  idle : c'.host.activating = c.host.activating

theorem rejoined (c : Chip) (d : Die) : Rejoined d c (c.rejoined d) := by
  have hregs : (c.rejoined d).regs = (((c.setFld (roleOf d) roleStandby).setFld (peerDead (otherDie d)) 0).mark
      (wmFld (otherDie d) WMH_EVENT_PEER_RESTORED WMM_EVENT_PEER_RESTORED)).regs := by
    cases d <;> rfl
  refine ⟨?_, ?_, ?_, ?_, ?_, ?_, fieldsKept_regs hregs (fieldsKept_mark _ (by simp) (fieldsKept_setFld _ _ (by simp)
    (fieldsKept_setFld _ _ (by simp) (fieldsKept_refl _ _)))), ?_, ?_⟩
  · refine (fld_of_regs hregs _).trans ?_
    rw [fld_mark_apart _ _ _ (by cases d <;> decide) (by cases d <;> decide),
      fld_setFld_apart _ _ _ _ (by cases d <;> decide) (by cases d <;> decide), fld_setFld_same _ _ _ (by cases d <;> decide)]
    cases d <;> rfl
  · rw [flag_eq_of_fld (fld_of_regs hregs _), flag_mark_apart _ _ _ (by cases d <;> decide) (by cases d <;> decide)]
    exact flag_setFld_zero _ _ (by cases d <;> decide)
  · rw [flag_eq_of_fld (fld_of_regs hregs _)]
    exact flag_mark_same _ _ (by cases d <;> decide) (by cases d <;> decide)
  · cases d <;> rfl
  · cases d <;> rfl
  · cases d <;> exact ⟨rfl, rfl⟩
  · refine bytesKept_of_eq ?_ ?_ ?_ <;> cases d <;> rfl
  · cases d <;> rfl

theorem rejoined_judgePeer {c : Chip} {d : Die} (hup : c.flag FLM_STATUS_UP = true) : Rejoined d c ((c.rejoined d).judgePeer d) := by
  obtain ⟨hrole, hpeer, hevent, hrestoring, hsynced, ⟨hflume, hpulse⟩, hfields, hbytes, hidle⟩ := rejoined c d
  have hup' : (c.rejoined d).flag FLM_STATUS_UP = true := (flag_eq_of_fld (hfields _ (by decide) (by cases d <;> decide))).trans hup
  obtain ⟨w, hwflume, hwpulse, hwrestoring, hwsynced, hjudged⟩ := judgePeer_up hup' hflume hpulse
  rw [hjudged]
  refine ⟨(fld_setWm ..).trans hrole, (flag_setWm ..).trans hpeer, (flag_setWm ..).trans hevent, ?_, ?_, ?_, fieldsKept_regs (setWm_regs ..) hfields,
    bytesKept_trans hbytes (bytesKept_of_eq (by simp) (by simp) (by simp)), ?_⟩
  · rw [wm_setWm, hwrestoring, hrestoring]
  · rw [wm_setWm, hwsynced, hsynced]
  · rw [wm_setWm]
    exact ⟨hwflume, hwpulse⟩
  · rw [setWm_host, hidle]

/-! ### O44 -/

theorem setWm_sup_only (c : Chip) (d : Die) (w : WmRec) : c.setWm d w = { c with sup := (c.setWm d w).sup } := by cases d <;> rfl

/-- Settles O44. -/
theorem watermasterRoles : Obligations.WatermasterRoles := by
  unfold Obligations.WatermasterRoles
  intro s d
  refine ⟨fun hruns hup => ?send, fun split hup hflume => ?pulse, fun hruns hup htrained hpeer hwhole => ⟨fun pulse hother hpath => ?fault,
    fun hflume hrole => ?takeover⟩, fun j rest hwaiting => ⟨fun hcarry hruns hload => ?ack, ?late⟩, fun i hi hmay => ?swap,
    fun hruns hrestoring hrole hidle => ⟨fun hup => ?restored, ?unrestored⟩⟩
  case send =>
    obtain ⟨p, hsend, hty, hunit, hword⟩ := heartbeatSend_sends hruns hup
    obtain ⟨hlow, hsplit, hsees⟩ := heartbeat_bits (role_lt s.chip d) (s.chip.role d == roleSplit) (s.chip.flag (peerFlume d) || s.chip.flag (peerPulse d))
    refine completes_on (f := fun c => c.heartbeatSend d) rfl ?_
    rw [hsend]
    refine ⟨p, ?_, hty, hunit, by rw [hword]; exact hlow, by rw [hword, hsplit]; simp, by rw [hword]; exact hsees, ?_⟩
    · cases d <;> rfl
    · cases d <;> rfl
  case pulse =>
    obtain ⟨w, hpulse, hseen⟩ := pulseSeen_well split hup hflume
    have hdie : (if decide (d = .m) = true then Die.m else .h) = d := by cases d <;> rfl
    refine completes_on (f := fun c => c.pulseSeen (if decide (d = .m) = true then .m else .h) split) rfl ?_
    rw [hdie, hseen]
    refine ⟨?_, ?_, ?_, ?_, fieldsKept_regs (setWm_regs ..) (fieldsKept_pulseNoted _ _ _), bytesKept_of_eq ?_ ?_ ?_⟩
    · rw [flag_setWm, Chip.pulseNoted, flag_setFlag_apart _ _ _ _ (by cases d <;> decide) (by cases d <;> decide)]
      exact flag_mark_same _ _ (by cases d <;> decide) (by cases d <;> decide)
    · rw [flag_setWm]
      exact flag_setFlag_same _ _ _ (by cases d <;> decide) (by cases d <;> rfl)
    · rw [wm_setWm, hpulse]
    · rw [wm_setWm_other _ _ _ _ (otherDie_ne d), wm_pulseNoted, wm_setWm_other _ _ _ _ (otherDie_ne d)]
    all_goals cases d <;> rfl
  case fault =>
    have hwatch := watches_silenceNoted ⟨hruns, hup, htrained, hpeer, hwhole⟩ pulse
    have hnoted := wm_silenceNoted s.chip d pulse
    refine completes_on (exec_peerHeartbeatMissing s d pulse) ?_
    rw [judgePeer_path (pulse := pulse) hwatch (by rw [hnoted]; cases pulse <;> simp_all) (by rw [hnoted]; cases pulse <;> simp_all),
      pathFaulty_onset (by rw [hnoted]; exact hpath)]
    obtain ⟨hseen, hevent, hcount, hrole, hlog, hfields, hbytes⟩ := faultTold s.chip d pulse
    exact ⟨hseen, hevent, hcount, hrole, hlog, hfields, hbytes⟩
  case takeover =>
    have hwatch := watches_silenceNoted ⟨hruns, hup, htrained, hpeer, hwhole⟩ true
    have hnoted := wm_silenceNoted s.chip d true
    refine completes_on (exec_peerHeartbeatMissing s d true) ?_
    rw [judgePeer_silent hwatch (by rw [hnoted]; simp [hflume]) (by rw [hnoted]; simp),
      peerFailed_takeover hwatch.peer ((role_silenceNoted ..).trans hrole)]
    obtain ⟨hactive, hfailed, hdead, hrestoring, htakeover, hevent⟩ := tookOver_restorePeer (s.chip.silenceNoted d true) d
      { ((s.chip.silenceNoted d true).tookOver d).wm d with path := none }
    exact ⟨hactive, hfailed, hdead, hrestoring, htakeover, hevent⟩
  case ack =>
    refine completes_on (f := fun c => c.journalAck) rfl ?_
    obtain ⟨hrest, hseq, hsup⟩ := wm_entryAcked s.chip s.chip.activeDie j rest
    by_cases haction : j.action = actRoles
    · rw [journalAck_swap hwaiting hcarry hruns haction hload]
      obtain ⟨hactive, hstandby, hcount, heventH, heventM, hfields⟩ := swapped s.chip j rest
      refine ⟨?_, ?_, fun hne => absurd haction hne, fun _ => ⟨hactive, hstandby, hcount, heventH, heventM, hfields, ?_⟩⟩
      · rw [← hrest]
        cases s.chip.activeDie <;> rfl
      · rw [← hseq]
        cases s.chip.activeDie <;> rfl
      · refine bytesKept_of_eq ?_ ?_ ?_ <;> cases s.chip.activeDie <;> rfl
    · rw [journalAck_action hwaiting hcarry hruns haction]
      exact ⟨hrest, hseq, fun _ => hsup, fun h => absurd h haction⟩
  case late =>
    refine completes_on (f := fun c => c.journalLate) rfl ?_
    have hne : (s.chip.wm s.chip.activeDie).waiting ≠ [] := by simp [hwaiting]
    rw [Chip.journalLate, if_neg hne, hwaiting]
    cases s.chip.activeDie <;> exact ⟨rfl, rfl, rfl⟩
  case swap =>
    have hexec : Completes i s fun c => c = s.chip.askSwap := by
      obtain rfl | ⟨rfl, hen⟩ := hi
      · exact completes_on (f := fun c => c.askSwap) rfl rfl
      · exact completes_when (b := s.chip.flag WMH_CTRL_SWAP_EN) (f := fun c => c.askSwap) rfl hen rfl
    refine hexec.imp fun c hc => ?_
    rw [hc, askSwap_asks hmay]
    exact ⟨by rw [wm_setWm], wm_setWm_other _ _ _ _ (otherDie_ne _), setWm_sup_only ..⟩
  case restored =>
    refine completes_when (b := s.chip.wmRuns (otherDie d)) (f := fun c => (c.wmRestored d true).activateGo) rfl hruns ?_
    obtain ⟨hstandby, hpeer, hevent, hover, hsynced, -, hfields, hbytes, hkeep⟩ := rejoined_judgePeer (d := d) hup
    rw [wmRestored_pass hrestoring hrole, activateGo_idle (hkeep.trans hidle)]
    exact ⟨hstandby, hpeer, hevent, hover, hsynced, hfields, hbytes⟩
  case unrestored =>
    refine completes_when (b := s.chip.wmRuns (otherDie d)) (f := fun c => (c.wmRestored d false).activateGo) rfl hruns ?_
    rw [wmRestored_fail hrestoring hrole, activateGo_idle (by rw [setWm_host, hidle])]
    exact ⟨by rw [wm_setWm], (fld_setWm ..).trans hrole, setWm_sup_only ..⟩

end Sys2Proof.Machine
end

section
/-! Command cores and channel sequencers: silence, failure, test and restart (R69, R449, R450): O46. -/

namespace Sys2Proof.Machine

/-! ### An engine's reset -/

/-- What a reset of engine `e` leaves of a weir. -/
def Weir.resetOf (w : Weir) (e : Engine) : Weir :=
  { (w.setMine (engNum e) []) with stalls := w.stalls.filter fun s => s.engine != e }

theorem items_get_resetOf (e : Engine) (k : Nat) : ∀ ws : Cells Weir,
    (Cells.get (fun _ => ({} : Weir)) (ws.map fun w => (w.1, w.2.resetOf e)) k).items = (Cells.get (fun _ => ({} : Weir)) ws k).items
  | [] => rfl
  | w :: ws => by
    have ih := items_get_resetOf e k ws
    simp only [List.map_cons, Cells.get]
    split_ifs
    · rfl
    · rfl
    · exact ih

theorem items_engineReset (c : Chip) (e : Engine) (k : Nat) : ((c.engineReset e).weir k).items = (c.weir k).items := items_get_resetOf e k _

theorem eng_engineReset (c : Chip) (e : Engine) : (c.engineReset e).eng (engNum e) = {} := Cells.get_put_same _ _ _ _

/-! ### Command cores -/

/-- The fields that show core `k` in service, and under test. -/
def coreOn (k : Fin 12) : Fld := ⟨WMH_CORES, k, 1⟩
def coreTest (k : Fin 12) : Fld := ⟨WMH_CORES, 16 + k, 1⟩

theorem coreOn_apart (k : Fin 12) : apart (coreOn k) (coreTest k) := .inr (.inl (by simp only [coreOn, coreTest]; omega))

theorem coreFields_fit (k : Fin 12) : (coreOn k).lo + (coreOn k).w ≤ 64 ∧ (coreTest k).lo + (coreTest k).w ≤ 64 := by
  simp only [coreOn, coreTest]
  omega

/-- A core is in service where its bit is 1. -/
theorem coreOnline_eq (c : Chip) (k : Fin 12) : c.coreOnline k = c.flag (coreOn k) := by
  show (c.reg WMH_CORES).getLsbD k = (fieldOf (c.reg WMH_CORES) k 1 != 0)
  rw [BitVec.getLsbD, Nat.testBit_eq_decide_div_mod_eq, fieldOf]
  rcases Nat.mod_two_eq_zero_or_one ((c.reg WMH_CORES).toNat / 2 ^ k.val) with h | h <;> simp [Nat.shiftRight_eq_div_pow, h]

/-- A silent core is taken offline, and shown. -/
def Chip.coreShown (c : Chip) (k : Fin 12) : Chip :=
  (((c.setFlag (coreOn k) false).setFlag (coreTest k) true).mark WMH_EVENT_CORE_FAILED).inc WMH_CORE_FAILS_COUNT

/-- What a silent core leaves, where it has no queue and no fill. -/
def Chip.coreEmptied (c : Chip) (k : Fin 12) : Chip :=
  let c := [0, 4, 5].foldl (fun c kind => c.updWeir kind k fun w => { w with items := [] }) c
  let c := c.engineReset (.core k)
  { c with core := { c.core with
      sram := c.core.sram.filter (fun b => decide (b.1 < sramKey (.core k) 0) || decide (sramKey (.core k) 0 + 2 ^ 19 ≤ b.1)) } }

theorem coreOff_alone {c : Chip} (k : Fin 12) (hqueues : c.host.queues = []) (hfills : c.buf.fills = []) : ∃ d : Chip, c.coreOff k = d.coreEmptied k ∧
    d.regs = (c.coreShown k).regs ∧ d.buf.mem = c.buf.mem := by
  have hq : ((((((c.setFlag ⟨WMH_CORES, k, 1⟩ false).setFlag ⟨WMH_CORES, 16 + k, 1⟩ true).mark WMH_EVENT_CORE_FAILED).inc WMH_CORE_FAILS_COUNT).log
      0x060A .h [k, 0]).journal actRestart k).host.queues = [] := by rw [journal_cmds]; exact hqueues
  have hf : ((((((c.setFlag ⟨WMH_CORES, k, 1⟩ false).setFlag ⟨WMH_CORES, 16 + k, 1⟩ true).mark WMH_EVENT_CORE_FAILED).inc WMH_CORE_FAILS_COUNT).log
      0x060A .h [k, 0]).journal actRestart k).buf.fills = [] := by rw [journal_buf]; exact hfills
  unfold Chip.coreOff
  simp only [hq, List.filter_nil, List.map_nil, List.foldl_nil, hf]
  refine ⟨_, rfl, ?_, ?_⟩
  · exact journal_regs ..
  · show (Chip.journal _ _ _).buf.mem = _
    rw [journal_buf]
    rfl

theorem items_coreEmptied (c : Chip) (k : Fin 12) {kind : Nat} (hkind : kind ∈ [0, 4, 5]) : ((c.coreEmptied k).weir (weirKey kind k)).items = [] := by
  refine (items_engineReset _ _ _).trans ?_
  simp only [List.mem_cons, List.not_mem_nil, or_false] at hkind
  simp only [List.foldl_cons, List.foldl_nil]
  rcases hkind with rfl | rfl | rfl
  · rw [weir_updWeir_other _ _ _ _ _ (by simp [weirKey]), weir_updWeir_other _ _ _ _ _ (by simp [weirKey]), weir_updWeir]
  · rw [weir_updWeir_other _ _ _ _ _ (by simp [weirKey]), weir_updWeir]
  · rw [weir_updWeir]

theorem coreEmptied_kept (c : Chip) (k : Fin 12) : (c.coreEmptied k).regs = c.regs ∧ (c.coreEmptied k).buf.mem = c.buf.mem ∧
    (c.coreEmptied k).eng (engNum (.core k)) = {} := by
  have hweirs := (((WeirsOnly.refl c).updWeir 0 k fun w => { w with items := [] }).updWeir 4 k fun w => { w with items := [] }).updWeir 5 k
    fun w => { w with items := [] }
  obtain ⟨ws, cis, n, heq⟩ := hweirs
  refine ⟨?_, ?_, eng_engineReset _ _⟩
  · exact congrArg (·.regs) heq
  · exact congrArg (·.buf.mem) heq

theorem coreShown_shows (c : Chip) (k : Fin 12) : (c.coreShown k).flag (coreOn k) = false ∧ (c.coreShown k).flag (coreTest k) = true ∧
    (c.coreShown k).flag WMH_EVENT_CORE_FAILED = true ∧
    (c.coreShown k).fld WMH_CORE_FAILS_COUNT = min (c.fld WMH_CORE_FAILS_COUNT + 1) (2 ^ WMH_CORE_FAILS_COUNT.w - 1) ∧
    c.fieldsKept [coreOn k, coreTest k, WMH_EVENT_CORE_FAILED, WMH_CORE_FAILS_COUNT] (c.coreShown k) := by
  obtain ⟨hon, htest⟩ := coreFields_fit k
  have hevent (f : Fld) (hf : f.reg = WMH_CORES) : apart f WMH_EVENT_CORE_FAILED ∧ apart f WMH_CORE_FAILS_COUNT :=
    ⟨apart_of_reg (by rw [hf]; decide), apart_of_reg (by rw [hf]; decide)⟩
  refine ⟨?_, ?_, ?_, ?_, fieldsKept_inc _ (by simp) (fieldsKept_mark _ (by simp) (fieldsKept_setFlag _ _ (by simp) (fieldsKept_setFlag _ _ (by simp)
    (fieldsKept_refl _ _))))⟩
  · rw [Chip.coreShown, flag_inc_apart _ _ _ hon (hevent _ rfl).2, flag_mark_apart _ _ _ hon (hevent _ rfl).1, flag_setFlag_apart _ _ _ _ hon (coreOn_apart k)]
    exact flag_setFlag_same _ _ _ hon rfl
  · rw [Chip.coreShown, flag_inc_apart _ _ _ htest (hevent _ rfl).2, flag_mark_apart _ _ _ htest (hevent _ rfl).1]
    exact flag_setFlag_same _ _ _ htest rfl
  · rw [Chip.coreShown, flag_inc_apart _ _ _ (by decide) (by decide)]
    exact flag_mark_same _ _ (by decide) (by decide)
  · rw [Chip.coreShown, fld_inc_same _ _ (by decide), fld_mark_apart _ _ _ (by decide) (by decide), Chip.setFlag, Chip.setFlag,
      fld_setFld_apart _ _ _ _ (by decide) (apart_symm (hevent _ rfl).2), fld_setFld_apart _ _ _ _ (by decide) (apart_symm (hevent _ rfl).2)]

/-- A core that has passed its test runs its image again. -/
def Chip.coreBack (c : Chip) (k : Fin 12) : Chip :=
  ((c.setFlag (coreTest k) false).loadRiscv (.core k) ((c.setFlag (coreTest k) false).runningImage 0)).setFlag (coreOn k) true

theorem coreBack_shows (c : Chip) (k : Fin 12) : (c.coreBack k).flag (coreTest k) = false ∧ (c.coreBack k).coreOnline k = true ∧
    (c.coreBack k).eng (engNum (.core k)) = {} := by
  obtain ⟨hon, htest⟩ := coreFields_fit k
  have hshaken : Shaken ((c.setFlag (coreTest k) false).engineReset (.core k))
      ((c.setFlag (coreTest k) false).loadRiscv (.core k) ((c.setFlag (coreTest k) false).runningImage 0)) := absorbs_shaken.loadRiscv (.refl _) _
  refine ⟨?_, ?_, ?_⟩
  · rw [Chip.coreBack, flag_setFlag_apart _ _ _ _ htest (apart_symm (coreOn_apart k)), flag_eq_of_fld (hshaken.cores _ rfl htest)]
    exact flag_setFlag_same c _ _ htest rfl
  · have hset : (c.coreBack k).flag (coreOn k) = true := flag_setFlag_same _ _ _ hon rfl
    rwa [coreOnline_eq]
  · exact (congrArg (Cells.get _ · _) hshaken.engines).trans (eng_engineReset _ _)

/-! ### Channel sequencers -/

/-- The fields that show sequencer `p` in service, and being restarted. -/
def csOn (p : Pickup) : Fld := ⟨WMM_CS, p, 1⟩
def csAgain (p : Pickup) : Fld := ⟨WMM_CS, 16 + p, 1⟩

theorem csOn_apart (p : Pickup) : apart (csOn p) (csAgain p) := .inr (.inl (by simp only [csOn, csAgain]; omega))

theorem csFields_fit (p : Pickup) : (csOn p).lo + (csOn p).w ≤ 64 ∧ (csAgain p).lo + (csAgain p).w ≤ 64 := by
  simp only [csOn, csAgain]
  omega

/-- A failed sequencer is held in reset, and shown. -/
def Chip.csShown (c : Chip) (p : Pickup) : Chip :=
  (((c.setFlag (csOn p) false).setFlag (csAgain p) true).inc WMM_CS_FAILS_COUNT).mark WMM_EVENT_CS_FAILED

/-- What its first failure leaves, where its pickup has no pass and no retry. -/
theorem csFailure_quiet {c : Chip} {p : Pickup} (hfirst : (c.seqr p).failedAt = none) (hretry : (c.frm p).retry = none) (hpass : (c.wch p).pass = none)
    (hqueued : (c.wch p).queued = none) : ∃ d : Chip, c.csFailure p = (d.surveyPass p).journal actRestart (16 + p) ∧ d.regs = (c.csShown p).regs ∧
      d.seqr p = { c.seqr p with online := false, restarting := true, held := false, failedAt := some c.now.toNat } ∧ c.bytesKept d := by
  have hdrop (d : Chip) (hd : (d.frm p).retry = none) : d.dropRetry p = d := by
    unfold Chip.dropRetry
    rw [hd]
  have hunqueued (d : Chip) (hd : (d.wch p).queued = none) : d.dropQueuedPass p = d := by
    unfold Chip.dropQueuedPass
    rw [hd]
  have hstop (d : Chip) (hd : (d.wch p).pass = none) : d.stopPass p = d := by
    rw [Chip.stopPass, hd]
    rfl
  unfold Chip.csFailure
  simp only [hfirst, Option.any_none, Bool.toNat_false, Bool.not_false, Bool.false_eq_true, if_false]
  generalize he : Chip.engineReset _ _ = e
  have hfrm : e.frm p = c.frm p := he ▸ rfl
  have hwch : e.wch p = c.wch p := he ▸ rfl
  rw [hdrop e (by rw [hfrm, hretry]), hstop e (by rw [hwch, hpass]), hunqueued e (by rw [hwch, hqueued])]
  refine ⟨e, rfl, he ▸ rfl, ?_, he ▸ bytesKept_of_eq rfl rfl rfl⟩
  rw [← he]
  exact Cells.get_put_same _ _ _ _

theorem csShown_shows (c : Chip) (p : Pickup) : (c.csShown p).flag (csOn p) = false ∧ (c.csShown p).flag (csAgain p) = true ∧
    (c.csShown p).flag WMM_EVENT_CS_FAILED = true ∧
    (c.csShown p).fld WMM_CS_FAILS_COUNT = min (c.fld WMM_CS_FAILS_COUNT + 1) (2 ^ WMM_CS_FAILS_COUNT.w - 1) ∧
    c.fieldsKept [csOn p, csAgain p, WMM_EVENT_CS_FAILED, WMM_CS_FAILS_COUNT] (c.csShown p) := by
  obtain ⟨hon, hagain⟩ := csFields_fit p
  have hevent (f : Fld) (hf : f.reg = WMM_CS) : apart f WMM_EVENT_CS_FAILED ∧ apart f WMM_CS_FAILS_COUNT :=
    ⟨apart_of_reg (by rw [hf]; decide), apart_of_reg (by rw [hf]; decide)⟩
  refine ⟨?_, ?_, flag_mark_same _ _ (by decide) (by decide), ?_, fieldsKept_mark _ (by simp) (fieldsKept_inc _ (by simp) (fieldsKept_setFlag _ _ (by simp)
    (fieldsKept_setFlag _ _ (by simp) (fieldsKept_refl _ _))))⟩
  · rw [Chip.csShown, flag_mark_apart _ _ _ hon (hevent _ rfl).1, flag_inc_apart _ _ _ hon (hevent _ rfl).2, flag_setFlag_apart _ _ _ _ hon (csOn_apart p)]
    exact flag_setFlag_same _ _ _ hon rfl
  · rw [Chip.csShown, flag_mark_apart _ _ _ hagain (hevent _ rfl).1, flag_inc_apart _ _ _ hagain (hevent _ rfl).2]
    exact flag_setFlag_same _ _ _ hagain rfl
  · rw [Chip.csShown, fld_mark_apart _ _ _ (by decide) (by decide), fld_inc_same _ _ (by decide), Chip.setFlag, Chip.setFlag,
      fld_setFld_apart _ _ _ _ (by decide) (apart_symm (hevent _ rfl).2), fld_setFld_apart _ _ _ _ (by decide) (apart_symm (hevent _ rfl).2)]

/-- What its pass left is to be surveyed, and its image is loaded: a sequencer about to resume. -/
def Chip.csReloaded (c : Chip) (p : Pickup) : Chip :=
  let c' := if (c.seqr p).renew then c else
    (c.setWch p { c.wch p with results := [], items := (c.wch p).items ++ ((c.wch p).results.map (·.item)) }).surveyPass p
  c'.loadRiscv (.cs (Fin.ofNat 16 p)) (if (c.seqr p).renew then Cells.get (fun _ => []) c'.boot.staged 2 else c'.runningImage 2)

theorem csRestarted_eq (c : Chip) (p : Pickup) : c.csRestarted p = ((((c.csReloaded p).setFlag (csOn p) true).setFlag (csAgain p) false).setSeqr p
    { (((c.csReloaded p).setFlag (csOn p) true).setFlag (csAgain p) false).seqr p with online := true, restarting := false, renew := false }).inc
      WMM_CS_RESTARTS_COUNT := rfl

/-- The frame without the RISC-V engines, one of which is reset. -/
theorem csReloaded_kept (c : Chip) (p : Pickup) : (c.csReloaded p).fld WMM_CS_RESTARTS_COUNT = c.fld WMM_CS_RESTARTS_COUNT ∧
    (c.csReloaded p).servo.engines = c.servo.engines ∧ (c.host.activating = none → (c.csReloaded p).host.activating = none) := by
  have hload (d : Chip) (img : List Byte) (hregs : d.regs = c.regs) (hpairs : d.servo.engines = c.servo.engines) (hhost : d.host = c.host) :
      (d.loadRiscv (.cs (Fin.ofNat 16 p)) img).fld WMM_CS_RESTARTS_COUNT = c.fld WMM_CS_RESTARTS_COUNT ∧
      (d.loadRiscv (.cs (Fin.ofNat 16 p)) img).servo.engines = c.servo.engines ∧
      (c.host.activating = none → (d.loadRiscv (.cs (Fin.ofNat 16 p)) img).host.activating = none) := by
    have hshaken : Shaken (d.engineReset (.cs (Fin.ofNat 16 p))) (d.loadRiscv (.cs (Fin.ofNat 16 p)) img) := absorbs_shaken.loadRiscv (.refl _) img
    refine ⟨(hshaken.fields _ (by decide)).trans (fld_of_regs hregs _), hshaken.pairs.trans hpairs, fun hidle => hshaken.idle ?_⟩
    rw [← hidle, ← hhost]
    rfl
  unfold Chip.csReloaded
  dsimp only
  split
  · exact hload c _ rfl rfl rfl
  · exact hload _ _ rfl rfl rfl

/-! ### O46 -/

/-- Settles O46. -/
theorem coresAndSequencers : Obligations.CoresAndSequencers := by
  unfold Obligations.CoresAndSequencers
  refine fun s => ⟨fun k => ⟨?beat, fun honline hqueues hfills => ?silent, fun htest => ⟨?passed, ?failed⟩⟩,
    fun p => ⟨fun honline hfirst hretry hpass hqueued => ?csFailed, fun hrestarting hheld hidle => ?csBack⟩⟩
  case beat =>
    refine completes_on (f := fun c => { c with sup := { c.sup with beats := Cells.put (fun _ => 0) c.sup.beats k c.nowH } }) rfl ?_
    exact ⟨Cells.get_put_same _ _ _ _, rfl⟩
  case silent =>
    refine completes_when (b := s.chip.coreOnline k) (f := fun c => c.coreOff k) rfl honline ?_
    obtain ⟨d, hoff, hregs, hmem⟩ := coreOff_alone k hqueues hfills
    obtain ⟨hkept, hbuf, heng⟩ := coreEmptied_kept d k
    obtain ⟨hon, htest, hevent, hcount, hfields⟩ := coreShown_shows s.chip k
    have hshown : (d.coreEmptied k).regs = (s.chip.coreShown k).regs := hkept.trans hregs
    rw [hoff]
    exact ⟨(flag_eq_of_fld (fld_of_regs hshown _)).trans hon, (flag_eq_of_fld (fld_of_regs hshown _)).trans htest,
      (flag_eq_of_fld (fld_of_regs hshown _)).trans hevent, (fld_of_regs hshown _).trans hcount, fun kind hkind => items_coreEmptied d k hkind, heng,
      fieldsKept_regs hshown hfields, hbuf.trans hmem⟩
  case passed =>
    refine completes_when (b := s.chip.flag (coreTest k)) (f := fun c => c.coreBack k) rfl htest ?_
    obtain ⟨htested, honline, heng⟩ := coreBack_shows s.chip k
    exact ⟨htested, honline, heng⟩
  case failed =>
    obtain ⟨hon, hfit⟩ := coreFields_fit k
    refine completes_when (b := s.chip.flag (coreTest k)) (f := fun c => (c.setFlag (coreTest k) false).log 0x060A .h [k, 1]) rfl htest ?_
    refine ⟨?_, ?_, ?_, fieldsKept_setFlag (coreTest k) false (by simp [coreTest]) (fieldsKept_refl _ _), bytesKept_of_eq rfl rfl rfl⟩
    · exact flag_setFlag_same s.chip (coreTest k) false hfit rfl
    · exact flag_setFlag_apart s.chip (coreOn k) (coreTest k) false hon (coreOn_apart k)
    · exact items_log (s.chip.setFlag (coreTest k) false) _ _ _
  case csFailed =>
    refine completes_when (b := (s.chip.seqr p).online) (f := fun c => c.csFailure p) rfl honline ?_
    obtain ⟨d, hfailed, hregs, hseqr, hbytes⟩ := csFailure_quiet hfirst hretry hpass hqueued
    obtain ⟨hon, hagain, hevent, hcount, hfields⟩ := csShown_shows s.chip p
    have hshown : ((d.surveyPass p).journal actRestart (16 + p)).regs = (s.chip.csShown p).regs := (journal_regs ..).trans hregs
    have hkept : s.chip.fieldsKept [csOn p, csAgain p, WMM_EVENT_CS_FAILED, WMM_CS_FAILS_COUNT] ((d.surveyPass p).journal actRestart (16 + p)) :=
      fieldsKept_regs hshown hfields
    have hseq : ((d.surveyPass p).journal actRestart (16 + p)).seqr p =
        { s.chip.seqr p with online := false, restarting := true, held := false, failedAt := some s.chip.now.toNat } := by
      rw [Chip.seqr, journal_servo]
      exact hseqr
    rw [hfailed]
    refine ⟨(flag_eq_of_fld (fld_of_regs hshown _)).trans hon, (flag_eq_of_fld (fld_of_regs hshown _)).trans hagain, by rw [hseq], by rw [hseq],
      by rw [hseq], by rw [hseq], (flag_eq_of_fld (fld_of_regs hshown _)).trans hevent, (fld_of_regs hshown _).trans hcount, hkept, fun x hx => ?_, ?_⟩
    · refine hkept _ (Nat.le_of_ble_eq_true rfl) ?_
      simp only [List.forall_mem_cons, List.not_mem_nil, false_imp_iff, implies_true, and_true]
      refine ⟨?_, ?_, ?_, ?_⟩ <;> refine apart_of_reg ?_ <;> simp only [WMM_STN_STATE_STATE, WMM_STN_STATE, csOn, csAgain, WMM_EVENT_CS_FAILED, WMM_EVENT,
        WMM_CS_FAILS_COUNT, WMM_CS_FAILS, WMM_CS] <;> omega
    · exact bytesKept_trans hbytes (bytesKept_of_eq (by rw [journal_buf]; rfl) (journal_sup_boot ..) (by rw [journal_core]; rfl))
  case csBack =>
    refine completes_when (b := (s.chip.seqr p).restarting && !(s.chip.seqr p).held) (f := fun c => (c.csRestarted p).activateGo) rfl
      (by simp [hrestarting, hheld]) ?_
    obtain ⟨hcount, hpairs, hnone⟩ := csReloaded_kept s.chip p
    obtain ⟨hon, hagain⟩ := csFields_fit p
    rw [activateGo_idle (show (s.chip.csRestarted p).host.activating = none from hnone hidle), csRestarted_eq]
    generalize s.chip.csReloaded p = d at hcount hpairs
    have hrestarts (f : Fld) (hf : f.reg = WMM_CS) : apart f WMM_CS_RESTARTS_COUNT := apart_of_reg (by rw [hf]; decide)
    refine ⟨?_, ?_, ?_, ?_, ?_, hpairs⟩
    · exact (flag_inc_apart _ _ _ hon (hrestarts _ rfl)).trans ((flag_setFlag_apart _ _ _ _ hon (csOn_apart p)).trans (flag_setFlag_same _ _ _ hon rfl))
    · exact (flag_inc_apart _ _ _ hagain (hrestarts _ rfl)).trans (flag_setFlag_same _ _ _ hagain rfl)
    · exact congrArg SeqRec.online (Cells.get_put_same _ _ _ _)
    · exact congrArg SeqRec.restarting (Cells.get_put_same _ _ _ _)
    · rw [fld_inc_same _ _ (by decide), ← hcount]
      refine congrArg (fun n => min (n + 1) _) ?_
      exact (fld_setFld_apart _ _ _ _ (by decide) (apart_symm (hrestarts _ rfl))).trans (fld_setFld_apart _ _ _ _ (by decide) (apart_symm (hrestarts _ rfl)))

end Sys2Proof.Machine
end

section
/-! Windows, doorbells and configuration space of a host (R464 to R474, R477, R608): O49. -/

namespace Sys2Proof.Machine

/-! ### Small facts -/

theorem cisSync_weirs (c : Chip) (q : Nat) : WeirsOnly c (c.cisSync q) := (WeirsOnly.refl c).cisSync q

theorem WeirsOnly.hostOnly {a c : Chip} (h : WeirsOnly a c) : HostOnly a c := h.table.hostOnly

theorem hostOnly_setQueue (c : Chip) (n : Nat) (q : IQueue) : HostOnly c (c.setQueue n q) := ⟨rfl, rfl, rfl, rfl, bytesKept_of_eq rfl rfl rfl⟩

theorem queue_of_host {c c' : Chip} (h : c'.host = c.host) (k : Nat) : c'.queue k = c.queue k := by rw [Chip.queue, h, Chip.queue]

/-- A window that serves a queue. -/
structure Serves (c : Chip) (x n : Nat) : Prop where
  exist : c.portExists x = true
  scale : n < c.scale
  created : (c.queue n).created = true
  port : (c.queue n).port = x

theorem serves {c : Chip} {x n : Nat} (h : c.windowOk x n = true) : Serves c x n := by
  simp only [Chip.windowOk, Bool.and_eq_true, decide_eq_true_eq, beq_iff_eq] at h
  obtain ⟨⟨⟨hexist, hscale⟩, hcreated⟩, hport⟩ := h
  exact ⟨hexist, hscale, hcreated, hport⟩

/-! ### Writes into a window -/

/-- A slot opens, its bytes written. -/
theorem slotWrite_opens {c : Chip} {x n off : Nat} {bs : List Byte} (hok : c.windowOk x n = true) (hrun : (c.queue n).stopped = false)
    (hlive : (c.queue n).halted = false) (hoff : off < 0x800) (hnew : off / 64 ∉ (c.queue n).open_) (hfree : 0 < c.freeForUse) :
    c.slotWrite x n false off bs .none = (c.setQueue n { c.queue n with
      slots := Cells.putRun (fun _ => 0) (c.queue n).slots off bs, open_ := off / 64 :: (c.queue n).open_ }).cisSync (2 * n) := by
  unfold Chip.slotWrite
  simp [hok, hrun, hlive, hnew, hfree, show ¬ (0x800 ≤ off) from by omega]

/-- Bytes go into a slot that is open. -/
theorem slotWrite_open {c : Chip} {x n off : Nat} {bs : List Byte} (hok : c.windowOk x n = true) (hrun : (c.queue n).stopped = false)
    (hlive : (c.queue n).halted = false) (hoff : off < 0x800) (hopen : off / 64 ∈ (c.queue n).open_) :
    c.slotWrite x n false off bs .none = c.setQueue n { c.queue n with slots := Cells.putRun (fun _ => 0) (c.queue n).slots off bs } := by
  unfold Chip.slotWrite
  simp [hok, hrun, hlive, hopen, show ¬ (0x800 ≤ off) from by omega]

/-- A poisoned write halts the window. -/
theorem slotWrite_poisoned {c : Chip} {x n off : Nat} {bs : List Byte} (hok : c.windowOk x n = true) (hrun : (c.queue n).stopped = false)
    (hlive : (c.queue n).halted = false) :
    c.slotWrite x n false off bs .poisoned = c.intakeError n false 1 (posOfSlot (c.queue n).head (off / 64) 32) := by
  unfold Chip.slotWrite
  simp [hok, hrun, hlive]

/-- An intake error of the capsule window: its sets are gone, the window is halted, the error is counted and told. -/
structure Halted (n : Nat) (c c' : Chip) : Prop where
  queue : c'.queue n = { c.queue n with halted := true, sets := [], open_ := [] }
  others : ∀ k, k ≠ n → c'.queue k = c.queue k
  regs : c'.regs = (c.inc (SLC_INTAKE_ERRORS_COUNT (c.queue n).port)).regs
  bytes : c.bytesKept c'

theorem halted_intakeError (c : Chip) (n cause pos : Nat) : Halted n c (c.intakeError n false cause pos) := by
  have hweirs := (WeirsOnly.refl c).updWeir 1 n fun w => { w with items := w.items.take (w.items.length - (c.queue n).sets.length) }
  unfold Chip.intakeError
  simp only [Bool.false_eq_true, if_false]
  generalize c.updWeir 1 n _ = d at hweirs
  obtain ⟨ws, cis, m, rfl⟩ := hweirs
  have hsync := cisSync_weirs ((c.withWeirs ws cis m).setQueue n { c.queue n with halted := true, sets := [], open_ := [] }) (2 * n)
  generalize Chip.cisSync _ (2 * n) = e at hsync ⊢
  obtain ⟨ws', cis', m', rfl⟩ := hsync
  rw [postEvent_rings]
  exact ⟨queue_setQueue c n _, fun k hk => queue_setQueue_other c n k _ hk, rfl, bytesKept_of_eq rfl rfl rfl⟩

/-! ### A capsule's bytes -/

theorem drop_leBytes (m n x : Nat) : (leBytes (m + n) x).drop m = leBytes n (x / 256 ^ m) := by
  induction m generalizing x with
  | zero => simp
  | succ m ih => rw [Nat.add_right_comm, leBytes, List.drop_succ_cons, ih, Nat.div_div_eq_div_mul, Nat.pow_succ']

theorem take_leBytes (m n x : Nat) : (leBytes (m + n) x).take m = leBytes m x := by
  induction m generalizing x with
  | zero => simp [leBytes]
  | succ m ih => rw [Nat.add_right_comm, leBytes, List.take_succ_cons, ih, leBytes]

/-- A run stored at the end of a run that is read back. -/
theorem Cells.getRun_putRun_end {α : Type} [DecidableEq α] (d : Nat → α) (m : Cells α) (k a : Nat) (vs : List α) :
    Cells.getRun d (Cells.putRun d m (k + a) vs) k (a + vs.length) = Cells.getRun d m k a ++ vs := by
  refine List.ext_getElem (by simp [Cells.getRun]) fun i hi _ => ?_
  simp only [Cells.getRun, List.length_map, List.length_range] at hi
  simp only [Cells.getRun, List.getElem_map, List.getElem_range, List.getElem_append, List.length_map, List.length_range]
  split
  next hlt => exact Cells.get_putRun_apart d m (.inl (by omega))
  next hge =>
    obtain ⟨j, rfl⟩ := Nat.exists_eq_add_of_le (not_lt.1 hge)
    rw [← Nat.add_assoc, Cells.get_putRun_at d m (k + a) (List.getElem?_eq_getElem (show j < vs.length by omega))]
    simp

/-- The capsule of a slot once its commit word stands in it. -/
theorem capsule_written (q : IQueue) (i : Nat) (w : Nat) : ({ q with slots := Cells.putRun (fun _ => 0) q.slots (64 * i + 56) (leBytes 8 w) } : IQueue).capsule i =
    Cells.getRun (fun _ => 0) q.slots (64 * i) 56 ++ leBytes 8 w := by
  have hrun := Cells.getRun_putRun_end (fun _ => 0) q.slots (64 * i) 56 (leBytes 8 w)
  rwa [length_leBytes] at hrun

theorem capField_position (bs : List Byte) (w : Nat) (h : bs.length = 56) : capField (bs ++ leBytes 8 w) 60 2 = w / 2 ^ 32 % 65536 := by
  rw [capField, show (60 : Nat) = bs.length + 4 by rw [h], List.drop_length_add_append, drop_leBytes 4 4, take_leBytes 2 2, ofLeBytes_leBytes]
  exact congrArg (· % 65536) (congrArg (w / ·) (by decide : 256 ^ 4 = 2 ^ 32))

theorem capField_count (slots : Cells Byte) (k : Nat) (bs : List Byte) : capField (Cells.getRun (fun _ => 0) slots k 56 ++ bs) 4 1 =
    (Cells.get (fun _ => 0) slots (k + 4)).toNat := by
  simp [capField, Cells.getRun, List.range_succ, ofLeBytes]

/-- A set of one capsule in the expected slot, with the expected position, passes the checks. -/
theorem checkSet_one {q : IQueue} (hpos : capField (q.capsule (q.expPos % 32)) 60 2 = q.expPos % 65536)
    (hcount : capField (q.capsule (q.expPos % 32)) 4 1 = 0) : q.checkSet (q.expPos % 32) = (0, 0) := by
  unfold IQueue.checkSet
  simp [hpos, hcount, List.range_succ]

/-! ### A set is committed -/

/-- The queue once a set of the one capsule in slot `i` has been committed. -/
def IQueue.committed (q : IQueue) (word : Word) (now : Word) (seen : Nat) : IQueue :=
  let i := q.expPos % 32
  { q with
    slots := Cells.putRun (fun _ => 0) q.slots (64 * i + 56) (leBytes 8 word.toNat)
    sets := q.sets ++ [⟨[Cells.getRun (fun _ => 0) q.slots (64 * i) 56 ++ leBytes 8 word.toNat], now, seen, q.writtenOut⟩]
    expPos := (q.expPos + 1) % 65536
    open_ := q.open_.filter fun j => j ∉ [i] }

theorem setQueue_setQueue (c : Chip) (n : Nat) (q q' : IQueue) : ∃ qs, (c.setQueue n q).setQueue n q' = { c with host := { c.host with queues := qs } } ∧
    ∀ k, k ≠ n → Cells.get (fun _ => {}) qs k = c.queue k :=
  ⟨_, rfl, fun _ hk => (Cells.get_put_other _ _ _ _ _ hk).trans (Cells.get_put_other _ _ _ _ _ hk)⟩

/-- The queue with the commit word in slot `i`. -/
def IQueue.stored (q : IQueue) (i w : Nat) : IQueue := { q with slots := Cells.putRun (fun _ => 0) q.slots (64 * i + 56) (leBytes 8 w) }

theorem checkSet_stored {q : IQueue} {i w : Nat} (hi : q.expPos % 32 = i) (hpos : q.expPos < 65536) (hword : w / 2 ^ 32 % 65536 = q.expPos)
    (hcount : Cells.get (fun _ => 0) q.slots (64 * i + 4) = 0) : (q.stored i w).checkSet i = (0, 0) := by
  have hone := checkSet_one (q := q.stored i w)
  rw [show (q.stored i w).expPos % 32 = i from hi, show (q.stored i w).capsule i = _ from capsule_written q i w,
    capField_position _ _ (by simp [Cells.getRun]), hword, capField_count, hcount] at hone
  exact hone (Nat.mod_eq_of_lt hpos).symm rfl

/-- What the commit of a set leaves. -/
structure SetCommitted (n : Nat) (word : Word) (c c' : Chip) : Prop where
  queue : c'.queue n = (c.queue n).committed word c.nowH c.buf.written
  others : ∀ k, k ≠ n → c'.queue k = c.queue k
  item : ∃ it, (c'.weir (weirKey 1 n)).items = (c.weir (weirKey 1 n)).items ++ [it] ∧ it.length = 8
  hostOnly : HostOnly c c'

theorem setCommitted (c : Chip) (n : Nat) (word : Word) (q : IQueue) {ws : List Word} (hws : ws.length = 8) :
    SetCommitted n word c (((c.setQueue n q).setQueue n ((c.queue n).committed word c.nowH c.buf.written)).commitItem 1 n ws) := by
  have hweirs := (WeirsOnly.refl ((c.setQueue n q).setQueue n ((c.queue n).committed word c.nowH c.buf.written))).commitItem 1 n ws
  refine ⟨?_, fun k hk => ?_, ⟨ws.map fun x => ⟨x, false⟩, ?_, by rw [List.length_map, hws]⟩, ?_⟩
  · rw [queue_of_host hweirs.host, queue_setQueue]
  · rw [queue_of_host hweirs.host, queue_setQueue_other _ _ _ _ hk, queue_setQueue_other _ _ _ _ hk]
  · rw [Chip.commitItem, weir_updWeir]
    rfl
  · obtain ⟨hregs, hservo, hafe, hsup, hbytes⟩ := hweirs.hostOnly
    exact ⟨hregs, hservo, hafe, hsup, bytesKept_trans (bytesKept_of_eq rfl rfl rfl) hbytes⟩

theorem capsuleCommit_one {c : Chip} {x n : Nat} {word : Word} (hok : c.windowOk x n = true) (hrun : (c.queue n).stopped = false)
    (hlive : (c.queue n).halted = false) (hpos : (c.queue n).expPos < 65536) (hopen : (c.queue n).expPos % 32 ∈ (c.queue n).open_)
    (hcommit : word.getLsbD 63 = true) (hword : word.toNat / 2 ^ 32 % 65536 = (c.queue n).expPos)
    (hcount : Cells.get (fun _ => 0) (c.queue n).slots (64 * ((c.queue n).expPos % 32) + 4) = 0) :
    SetCommitted n word c (c.capsuleCommit x n ((c.queue n).expPos % 32) word) := by
  generalize hi : (c.queue n).expPos % 32 = i at hopen hcount ⊢
  have hslot : i < 32 := hi ▸ Nat.mod_lt _ (by decide)
  have hstored : c.slotWrite x n false (64 * i + 56) (leBytes 8 word.toNat) .none = c.setQueue n ((c.queue n).stored i word.toNat) :=
    slotWrite_open hok hrun hlive (by omega) (by rwa [show (64 * i + 56) / 64 = i by omega])
  have hset := checkSet_stored hi hpos hword hcount
  have hok' : (c.setQueue n ((c.queue n).stored i word.toNat)).windowOk x n = true := by
    rw [Chip.windowOk, queue_setQueue]
    exact hok
  have hfirst : (i + 32 - (c.queue n).expPos % 32) % 32 = 0 := by omega
  have hslots : (List.range (0 + 1)).map (fun k => ((c.queue n).expPos + k) % 32) = [i] := by simp [List.range_succ, hi]
  unfold Chip.capsuleCommit
  extract_lets d q r e slots caps f
  have hd : d = c.setQueue n ((c.queue n).stored i word.toNat) := hstored
  have hq : q = (c.queue n).stored i word.toNat := by
    unfold q
    rw [hd, queue_setQueue]
  have hguard : ¬ (!d.windowOk x n ∨ q.stopped ∨ q.halted ∨ !word.getLsbD 63 ∨ i ∉ q.open_) := by
    rw [hq, hd, hok', hcommit]
    simp [IQueue.stored, hrun, hlive, hopen]
  have hr : r.1 = 0 := by
    unfold r
    rw [hq, hset]
  have he : e = 0 := by
    unfold e
    rw [hq]
    exact hfirst
  have hone : slots = [i] := by
    unfold slots
    rw [he, hq]
    exact hslots
  have hcaps : caps = [Cells.getRun (fun _ => 0) (c.queue n).slots (64 * i) 56 ++ leBytes 8 word.toNat] := by
    unfold caps
    rw [hone, hq]
    exact congrArg (· :: []) (capsule_written (c.queue n) i word.toNat)
  have hf : f = (c.setQueue n ((c.queue n).stored i word.toNat)).setQueue n ((c.queue n).committed word c.nowH c.buf.written) := by
    unfold f
    rw [hcaps, he, hone, hq, hd, IQueue.committed, hi]
    rfl
  rw [if_neg hguard, if_neg (by simp [hr]), hf, hcaps]
  refine setCommitted c n word _ ?_
  simp

/-! ### Doorbells -/

theorem resume_exec (s : State) (x : Port) (n : Nat) (data : Bool) (v : BitVec 32) (hok : s.chip.windowOk x n = true) (hv : v.getLsbD 0 = true)
    (q : IQueue) (hq : q = if data then { s.chip.queue n with dataHalted := false, dataExp := (s.chip.queue n).dataHead }
      else { s.chip.queue n with halted := false, expPos := (s.chip.queue n).head })
    (hhalt : (if data then (s.chip.queue n).dataHalted else (s.chip.queue n).halted) = true) :
    Completes (.resume x n data v) s fun c => c = s.chip.setQueue n q := by
  refine ⟨_, (rfl : execResume x n data v s = _), rfl, ?_⟩
  subst hq
  cases data
  · simp only [Bool.false_eq_true, if_false] at hhalt ⊢
    simp only [hok, hv, hhalt, Bool.not_true, Bool.false_eq_true, if_false, if_true]
  · simp only [if_true] at hhalt ⊢
    simp only [hok, hv, hhalt, Bool.not_true, Bool.false_eq_true, if_false, if_true]

theorem hostOnly_setRing (c : Chip) (n : Nat) (g : Ring) : HostOnly c (c.setRing n g) := ⟨rfl, rfl, rfl, rfl, bytesKept_of_eq rfl rfl rfl⟩

theorem ringHead_exec (s : State) (x : Port) (n : Nat) (v : BitVec 32) (hexist : s.chip.portExists x = true) (hscale : n < s.chip.scale)
    (hcreated : (s.chip.ring n).created = true) (hport : (s.chip.ring n).port = x.val) : Completes (.ringHead x n v) s fun c =>
      c = if (s.chip.ring n).size ≤ v.toNat % 65536 ∨ ((s.chip.ring n).next + (s.chip.ring n).size - (s.chip.ring n).head) % (s.chip.ring n).size <
          (v.toNat % 65536 + (s.chip.ring n).size - (s.chip.ring n).head) % (s.chip.ring n).size then s.chip.inc (SLC_HEAD_DISCARDS_COUNT x)
        else s.chip.setRing n { s.chip.ring n with head := v.toNat % 65536 } := by
  refine ⟨_, (rfl : execRingHead x n v s = _), rfl, ?_⟩
  exact if_neg (by simp [hexist, not_le.2 hscale, hcreated, hport])

/-! ### Configuration space -/

theorem configRequest_served {c : Chip} {x off : Nat} {v : BitVec 32} {write : Bool} (hexist : c.portExists x = true) (hretry : c.host.configRetry = false) :
    c.configRequest x write off v = if !write then c.answer x ((c.pcie x off).setWidth 64)
      else if [0, 2, 11].contains (off / 4 % 1024) then c
      else ({ c with host := { c.host with pcie := Cells.put pcieReset c.host.pcie (1024 * x + off / 4 % 1024) v } } : Chip).msixFlush x :=
  if_neg (by simp [hexist, hretry])

theorem pcie_put (m : Cells (BitVec 32)) (x off o : Nat) (v : BitVec 32) : Cells.get pcieReset (Cells.put pcieReset m (1024 * x + off / 4 % 1024) v)
    (1024 * x + o / 4 % 1024) = if o / 4 % 1024 = off / 4 % 1024 then v else Cells.get pcieReset m (1024 * x + o / 4 % 1024) := by
  split
  next h => rw [h, Cells.get_put_same]
  next h => exact Cells.get_put_other _ _ _ _ _ fun heq => h (Nat.add_left_cancel heq)

/-- Only messages and the table of messages differ. -/
def MessagesOnly (c c' : Chip) : Prop := c' = { c with host := { c.host with msix := c'.host.msix, posts := c'.host.posts } }

theorem MessagesOnly.trans {a b c : Chip} (h : MessagesOnly a b) (h' : MessagesOnly b c) : MessagesOnly a c := by
  unfold MessagesOnly at h'
  rw [h] at h'
  exact h'

theorem Chip.postsOnly.messagesOnly {c c' : Chip} (h : c.postsOnly c') : MessagesOnly c c' :=
  Eq.trans h (by rw [show c'.host.msix = c.host.msix from congrArg (·.host.msix) h])

theorem messagesOnly_setMsixWord (c : Chip) (x i : Nat) (v : BitVec 32) : MessagesOnly c (c.setMsixWord x i v) := rfl

theorem messagesOnly_message (c : Chip) (x v : Nat) : MessagesOnly c (c.message x v) := by
  unfold Chip.message
  dsimp only
  split
  · split
    · exact messagesOnly_setMsixWord ..
    · exact (postsOnly_post ..).messagesOnly
  · exact rfl

theorem messagesOnly_msixFlush (c : Chip) (x : Nat) : MessagesOnly c (c.msixFlush x) := by
  unfold Chip.msixFlush
  dsimp only
  split
  · exact rfl
  · refine List.foldlRecOn (motive := MessagesOnly c) _ _ rfl fun d hd v _ => ?_
    split
    · exact hd
    · exact (hd.trans (messagesOnly_setMsixWord _ _ _ _)).trans (messagesOnly_message _ _ _)

/-! ### A set is taken -/

/-- What a command is told apart by, whatever becomes of it. -/
def Cmd.face (m : Cmd) : Nat × Nat × Option Nat × Nat × Nat × Nat × Nat := (m.uid, m.queue, m.core, m.opcode, m.tag, m.volume, m.arg0)

/-- A command of the table stays there, and looks the same, when its status is fixed. -/
theorem face_finish {c : Chip} {uid : Nat} {y : Cmd} (h : c.cmd uid = some y) (hsilent : y.silent = false) (status index result count : Nat) :
    ∃ y', (c.finish uid status index result count).cmd uid = some y' ∧ y'.face = y.face := by
  have huid : y.uid = uid := by simpa using List.find?_some h
  have hend : c.finish uid status index result count = if y.status.isSome then c else
      (c.updCmd uid fun m => m.fixed status index result count).appendCompletions y.queue := by
    rw [Chip.finish, h]
    simp only [hsilent, Bool.false_eq_true, if_false]
    rfl
  rw [hend]
  split
  · exact ⟨y, h, rfl⟩
  · have hset : (c.updCmd uid fun m => m.fixed status index result count).cmd uid = some (y.fixed status index result count) :=
      found_changed (f := fun m => m.fixed status index result count) h huid
    obtain ⟨b, hb⟩ := filed_appendGo y.queue ((c.updCmd uid fun m => m.fixed status index result count).queue y.queue).order
      (c.updCmd uid fun m => m.fixed status index result count) uid _ hset
    exact ⟨_, hb, rfl⟩

/-- The machine with a set's command in its table. -/
def Chip.tabled (c : Chip) (n : Nat) (t : CapSet) (rest : List CapSet) (k : Nat) : Chip :=
  let m := c.cmdOfSet n t k
  let c := c.setQueue n { c.queue n with
    sets := rest, head := ((c.queue n).head + t.capsules.length) % 65536, order := (c.queue n).order ++ [m.uid], core := some k }
  ({ c with host := { c.host with cmds := c.host.cmds ++ [m], nextUid := m.uid + 1 } } : Chip).inc (SLC_TAKEN_COUNT m.port)

theorem cmd_tabled {c : Chip} {n : Nat} {t : CapSet} {rest : List CapSet} {k : Nat} (hfresh : ∀ m ∈ c.host.cmds, m.uid < c.host.nextUid) :
    (c.tabled n t rest k).cmd c.host.nextUid = some (c.cmdOfSet n t k) := by
  show (c.host.cmds ++ [c.cmdOfSet n t k]).find? _ = _
  rw [List.find?_append, List.find?_eq_none.2 fun m hm => by simpa using (hfresh m hm).ne]
  simp [Chip.cmdOfSet]

/-- What the taking of a set leaves. -/
structure Taken (n : Nat) (t : CapSet) (rest : List CapSet) (k : Nat) (c c' : Chip) : Prop where
  sets : (c'.queue n).sets = rest
  head : (c'.queue n).head = ((c.queue n).head + t.capsules.length) % 65536
  next : c'.host.nextUid = c.host.nextUid + 1
  cmd : ∃ y, c'.cmd c.host.nextUid = some y ∧ y.face = (c.cmdOfSet n t k).face
  regs : c'.regs = (c.inc (SLC_TAKEN_COUNT (c.queue n).port)).regs

theorem taken_of_table {c d : Chip} {n : Nat} {t : CapSet} {rest : List CapSet} {k : Nat} (htable : TableOnly (c.tabled n t rest k) d)
    (hwindows : (d.queue n).windows = ((c.tabled n t rest k).queue n).windows)
    (hcmd : ∃ y, d.cmd c.host.nextUid = some y ∧ y.face = (c.cmdOfSet n t k).face) : Taken n t rest k c d := by
  have hqueue : (c.tabled n t rest k).queue n = { c.queue n with
      sets := rest, head := ((c.queue n).head + t.capsules.length) % 65536, order := (c.queue n).order ++ [(c.cmdOfSet n t k).uid], core := some k } :=
    queue_setQueue c n _
  rw [hqueue] at hwindows
  exact ⟨congrArg (·.2.2.2.2) hwindows, congrArg (·.1) hwindows, congrArg (fun c : Chip => c.host.nextUid) htable, hcmd, congrArg (·.regs) htable⟩

theorem taken_takeSet {c : Chip} {n : Nat} {t : CapSet} {rest : List CapSet} {k : Nat} (hfresh : ∀ m ∈ c.host.cmds, m.uid < c.host.nextUid) :
    Taken n t rest k c (c.takeSet n t rest k) := by
  have hcmd := cmd_tabled (n := n) (t := t) (rest := rest) (k := k) hfresh
  have hfixed (status index result count : Nat) :
      Taken n t rest k c (((c.tabled n t rest k).finish (c.cmdOfSet n t k).uid status index result count).trimSets n) := by
    have hweirs := (WeirsOnly.refl ((c.tabled n t rest k).finish (c.cmdOfSet n t k).uid status index result count)).trimSets n
    obtain ⟨y, hy, hface⟩ := face_finish hcmd rfl status index result count
    refine taken_of_table (((TableOnly.refl _).finish ..).trans hweirs.table) ?_ ⟨y, ?_, hface⟩
    · exact (((Shaken.refl _).finish ..).weirs hweirs).windows n
    · rw [Chip.cmd, hweirs.host]
      exact hy
  have hdispatch (ws : List Word) : Taken n t rest k c ((c.tabled n t rest k).commitItem 0 k ws) := by
    have hweirs := (WeirsOnly.refl (c.tabled n t rest k)).commitItem 0 k ws
    refine taken_of_table hweirs.table (((Shaken.refl _).weirs hweirs).windows n) ⟨_, ?_, rfl⟩
    rw [Chip.cmd, hweirs.host]
    exact hcmd
  unfold Chip.takeSet
  extract_lets m q corrupt d e f
  split
  · exact hfixed ..
  · split
    · exact hfixed ..
    · exact hdispatch _

theorem setVolState_unmounting (c : Chip) (p : Nat) :
    c.setVolState p vUnmounting = c.setFld (WMM_STN_PU_VOLUME_STATE (p / 2) (p % 2)) vUnmounting := rfl

theorem takeNext_taken {c : Chip} {n : Nat} {t : CapSet} {rest : List CapSet} {k : Nat} (h : Taken n t rest k c (c.sluiceTake n))
    : ∃ v, c.takeNext n = { c.sluiceTake n with regs := (c.takeNext n).regs } ∧
      (c.takeNext n).fld (SLC_TAKEN_COUNT (c.queue n).port) = v ∧
      v = min (c.fld (SLC_TAKEN_COUNT (c.queue n).port) + 1) (2 ^ (SLC_TAKEN_COUNT (c.queue n).port).w - 1) := by
  have hcount : (c.sluiceTake n).fld (SLC_TAKEN_COUNT (c.queue n).port) = _ :=
    (fld_of_regs h.regs _).trans (fld_inc_same _ _ (Nat.le_of_ble_eq_true rfl))
  unfold Chip.takeNext
  extract_lets last d
  split
  next m _ =>
    split
    · rw [setVolState_unmounting]
      refine ⟨_, rfl, rfl, ?_⟩
      rw [fld_setFld_apart _ _ _ _ (Nat.le_of_ble_eq_true rfl) (apart_of_reg ?_)]
      · exact hcount
      · simp only [SLC_TAKEN_COUNT, SLC_TAKEN, WMM_STN_PU_VOLUME_STATE, WMM_STN_PU]
        omega
    · exact ⟨_, rfl, rfl, hcount⟩
  · exact ⟨_, rfl, rfl, hcount⟩

theorem sluiceTake_takes {c : Chip} {n : Nat} {t : CapSet} {rest : List CapSet} {k : Nat} (hsets : (c.queue n).sets = t :: rest)
    (hcreated : (c.queue n).created = true) (hrun : (c.queue n).stopped = false) (hheld : c.hostHeld = false) (horder : (c.queue n).order.length < 256)
    (hout : c.outstanding < 65536) (hfree : 0 < c.freeForUse) (hcore : (c.queue n).core = some k) (hcredit : 0 < c.credits 0 k) :
    c.sluiceTake n = c.takeSet n t rest k := by
  unfold Chip.sluiceTake
  simp [hsets, hcreated, hrun, hheld, hcore, hcredit, show ¬ (256 ≤ (c.queue n).order.length) from by omega, show ¬ (65536 ≤ c.outstanding) from by omega,
    show ¬ (c.freeForUse = 0) from by omega]

/-! ### A port is enabled -/

/-- What the enabling of a port leaves. -/
structure Enabled (x : Nat) (c c' : Chip) : Prop where
  enable : c'.flag (SLC_PORT_CTRL_ENABLE x) = true
  enabled : c'.flag (SLC_PORT_STATUS_ENABLED x) = true
  queue : c'.queue x = { created := true, port := x, ring := x }
  ring : ∃ v i n t, c'.ring x = {
    created := true, port := x, base := BitVec.ofNat 64 (c.fld (SLC_ADMIN_BASE_BASE x) * 4096)
    sizeLog2 := c.fld (SLC_ADMIN_CFG_SIZE_LOG2 x), vector := v, intEn := i, intCount := n, intTime := t }
  fields : c.fieldsKept [SLC_PORT_CTRL_ENABLE x, SLC_PORT_STATUS_ENABLED x] c'
  bytes : c.bytesKept c'

theorem enabled_sluiceEnable {c : Chip} {x : Nat} (hexist : c.portExists x = true) (hoff : c.flag (SLC_PORT_CTRL_ENABLE x) = false) :
    Enabled x c (c.sluiceEnable x) := by
  have happart : apart (SLC_PORT_CTRL_ENABLE x) (SLC_PORT_STATUS_ENABLED x) :=
    apart_of_reg (by simp only [SLC_PORT_CTRL_ENABLE, SLC_PORT_CTRL, SLC_PORT_STATUS_ENABLED, SLC_PORT_STATUS]; omega)
  have hfields : c.fieldsKept [SLC_PORT_CTRL_ENABLE x, SLC_PORT_STATUS_ENABLED x]
      ((c.setFld (SLC_PORT_CTRL_ENABLE x) 1).setFld (SLC_PORT_STATUS_ENABLED x) 1) :=
    fieldsKept_setFld _ _ (by simp) (fieldsKept_setFld _ _ (by simp) (fieldsKept_refl _ _))
  have hsame (f : Fld) (hf : f.lo + f.w ≤ 64) (hctrl : f.reg ≠ SLC_PORT_CTRL x) (hstatus : f.reg ≠ SLC_PORT_STATUS x) :
      ((c.setFld (SLC_PORT_CTRL_ENABLE x) 1).setFld (SLC_PORT_STATUS_ENABLED x) 1).fld f = c.fld f :=
    hfields f hf (by simp only [List.forall_mem_cons, List.not_mem_nil, false_imp_iff, implies_true, and_true]; exact ⟨apart_of_reg hctrl, apart_of_reg hstatus⟩)
  unfold Chip.sluiceEnable
  rw [if_neg (by simp [hexist, hoff])]
  dsimp only
  rw [hsame (SLC_ADMIN_BASE_BASE x) (Nat.le_of_ble_eq_true rfl) (by simp only [SLC_ADMIN_BASE_BASE, SLC_ADMIN_BASE, SLC_PORT_CTRL]; omega)
      (by simp only [SLC_ADMIN_BASE_BASE, SLC_ADMIN_BASE, SLC_PORT_STATUS]; omega),
    hsame (SLC_ADMIN_CFG_SIZE_LOG2 x) (Nat.le_of_ble_eq_true rfl) (by simp only [SLC_ADMIN_CFG_SIZE_LOG2, SLC_ADMIN_CFG, SLC_PORT_CTRL]; omega)
      (by simp only [SLC_ADMIN_CFG_SIZE_LOG2, SLC_ADMIN_CFG, SLC_PORT_STATUS]; omega)]
  refine ⟨?_, flag_mark_same _ (SLC_PORT_STATUS_ENABLED x) (Nat.le_of_ble_eq_true rfl) Nat.one_pos, queue_setQueue _ _ _, ⟨_, _, _, _, ring_setRing _ _ _⟩,
    hfields, bytesKept_of_eq rfl rfl rfl⟩
  exact (flag_setFld_apart _ _ (SLC_PORT_STATUS_ENABLED x) 1 (Nat.le_of_ble_eq_true rfl) happart).trans
    (flag_mark_same c (SLC_PORT_CTRL_ENABLE x) (Nat.le_of_ble_eq_true rfl) Nat.one_pos)

/-! ### Data capsules -/

section
variable {a c : Chip}

theorem Shaken.memWrite (h : Shaken a c) (x : Nat) (bs : List Byte) : Shaken a (c.memWrite x bs) := absorbs_shaken.memWrite h x bs

theorem Shaken.addMiss (h : Shaken a c) (line : Nat) (x : MissAccess) : Shaken a (c.addMiss line x) := by
  unfold Chip.addMiss
  split
  · refine Shaken.side (c := if _ then _ else _) ?_ rfl
    split
    · exact h.inc ⟨by decide, by decide⟩
    · exact h.mark ⟨by decide, by decide⟩
  · have hmiss : Shaken a (c.inc CCH_MISSES_COUNT) := h.inc ⟨by decide, by decide⟩
    dsimp only
    split
    · exact Shaken.side ((hmiss.mark (g := CCH_EVENT_MISS_FULL) ⟨by decide, by decide⟩).inc (g := CCH_MISS_STALLS_COUNT) ⟨by decide, by decide⟩) rfl
    · exact hmiss.side rfl

theorem Shaken.pushVictim (h : Shaken a c) (l : Line) : Shaken a (c.pushVictim l) := by
  unfold Chip.pushVictim
  dsimp only
  split
  · exact h.side rfl
  · split
    · exact h.side rfl
    · exact h

theorem Shaken.install (h : Shaken a c) (l : Line) : Shaken a (c.install l) := by
  unfold Chip.install
  dsimp only
  split
  · exact h.side rfl
  · split
    · split
      · exact (h.pushVictim _).side rfl
      · exact h.side rfl
    · exact h.side rfl

theorem Shaken.touchLine (h : Shaken a c) (line : Nat) : Shaken a (c.touchLine line) := h.trans (shaken_of_work ((MemWork.refl c).touchLine line))

theorem Shaken.mapFront (h : Shaken a c) (line : Nat) (f : Line → Line) : Shaken a (c.mapFront line f) :=
  (h.trans (shaken_of_work ((MemWork.refl c).mapLine line f))).side rfl

theorem Shaken.writeLine (h : Shaken a c) (line off : Nat) (bs : List Byte) : Shaken a (c.writeLine line off bs) := by
  unfold Chip.writeLine
  dsimp only
  split
  · exact absorbs_shaken.dramWrite h _ _
  · split
    · exact (h.touchLine line).mapFront line _
    · split
      · exact (h.touchLine line).install _
      · split
        · exact h.addMiss _ _
        · split
          · exact h.install _
          · exact h.addMiss _ _

theorem Shaken.hostStore (h : Shaken a c) (x : Nat) (bs : List Byte) : Shaken a (c.hostStore x bs) :=
  List.foldlRecOn (motive := Shaken a) _ _ h fun _ hd _ _ => hd.writeLine _ _ _

theorem Shaken.setFills (h : Shaken a c) (fs : List FillReq) : Shaken a ({ c with buf := { c.buf with fills := fs } } : Chip) := h.side rfl

theorem Shaken.fillStale (h : Shaken a c) (core slot : Nat) : Shaken a (c.fillStale core slot) := by
  have hset : Shaken a ((c.setFld BUF_FILL_STALE_SLOT slot).setFld BUF_FILL_STALE_CORE core) :=
    (h.setFld slot ⟨by decide, by decide⟩).setFld core ⟨by decide, by decide⟩
  exact (hset.memWrite _ _).setFills _

theorem Shaken.staleAhead (h : Shaken a c) (m : Cmd) : Shaken a (c.staleAhead m) := by
  unfold Chip.staleAhead
  dsimp only
  exact Shaken.side (List.foldlRecOn (motive := Shaken a) _ _ h fun _ hd _ _ => hd.fillStale _ _) rfl

theorem Shaken.settleWrite (h : Shaken a c) (uid : Nat) : Shaken a (c.settleWrite uid) := by
  unfold Chip.settleWrite
  split
  · exact h
  · split
    · exact h
    · split
      · exact (h.staleAhead _).finishS _ _
      · exact Shaken.side (h.updCmd _ _) rfl

theorem Shaken.storeWrite (h : Shaken a c) (m : Cmd) (off : Nat) (bs : List Byte) : Shaken a (c.storeWrite m off bs) := by
  unfold Chip.storeWrite
  dsimp only
  split
  · exact h.hostStore _ _
  · exact (h.hostStore _ _).hostStore _ _

theorem Shaken.setImages (h : Shaken a c) (xs : Cells (List Byte)) : Shaken a (c.setBoot { c.boot with staged := xs }) := h.side rfl

/-- The answer to a whole image. -/
def Chip.imageTaken (c : Chip) (m : Cmd) (img : List Byte) (why : Nat) : Chip :=
  if why = 0 then (c.setBoot { c.boot with staged := Cells.put (fun _ => []) c.boot.staged (stageClass m) img }).finish m.uid stOk 0 (imgVersion img) 0
  else c.finishInvalid m.uid (0x100 + why)

theorem stageDone_eq (c : Chip) (m : Cmd) : ∃ img why, c.stageDone m = (c.memRead (stageAddr (stageClass m)) m.arg1).2.imageTaken m img why :=
  ⟨_, _, rfl⟩

theorem Shaken.stageDone (h : Shaken a c) (m : Cmd) : Shaken a (c.stageDone m) := by
  obtain ⟨img, why, heq⟩ := stageDone_eq c m
  have hread := absorbs_shaken.memRead h (stageAddr (stageClass m)) m.arg1
  rw [heq, Chip.imageTaken]
  split
  · exact (hread.setImages _).finish ..
  · exact hread.finish ..

theorem Shaken.takeData (h : Shaken a c) (m : Cmd) (off : Nat) (bs : List Byte) : Shaken a (c.takeData m off bs) := by
  unfold Chip.takeData
  dsimp only
  split
  · exact ((h.updCmd _ _).storeWrite _ _ _).settleWrite _
  · split
    · exact ((h.updCmd _ _).memWrite _ _).stageDone _
    · exact (h.updCmd _ _).memWrite _ _

end

/-- A data window goes on by one. -/
def Chip.dataNext (c : Chip) (n : Nat) : Chip :=
  c.setQueue n { c.queue n with dataHead := ((c.queue n).dataHead + 1) % 65536, dataExp := ((c.queue n).dataExp + 1) % 65536 }

section
variable {c : Chip} {x n : Nat} {h : DataHeader} {bs : List Byte} (hok : c.windowOk x n = true) (hrun : (c.queue n).stopped = false)
  (hlive : (c.queue n).dataHalted = false) (hcommit : h.commit = true) (hpos : h.pos.toNat = (c.queue n).dataExp)
include hok hrun hlive hcommit hpos

/-- Data for a command that has ended is counted as late. -/
theorem dataCapsule_late (hnone : (c.queueCmds n).find? (fun m => m.tag == h.tag.toNat && m.status.isNone && m.mark.isNone) = none)
    (hdone : (c.queue n).doneTags.contains h.tag.toNat = true) :
    c.dataCapsule x n ((c.queue n).dataExp % 2) h bs = (c.inc (SLC_LATE_DATA_COUNT x)).dataNext n := by
  unfold Chip.dataCapsule
  simp only [hok, hrun, hlive, hcommit, hpos, hnone, hdone, Bool.not_true, Bool.false_eq_true, ne_eq, not_true, or_self, if_false, true_or, if_true]
  rfl

/-- Data within a grant is taken. -/
theorem dataCapsule_taken {m : Cmd} (hsome : (c.queueCmds n).find? (fun m => m.tag == h.tag.toNat && m.status.isNone && m.mark.isNone) = some m)
    (hoff : h.offset.toNat % 64 = 0) (hlen : h.length.toNat % 64 = 0) (hmin : 64 ≤ h.length.toNat) (hmax : h.length.toNat ≤ 4096)
    (hgrant : m.grants.any (fun g => decide (g.off ≤ h.offset.toNat ∧ h.offset.toNat + h.length.toNat ≤ g.off + g.len) && !g.closed m.dataBytes) = true) :
    c.dataCapsule x n ((c.queue n).dataExp % 2) h bs = (c.takeData m h.offset.toNat bs).dataNext n := by
  unfold Chip.dataCapsule
  simp only [hok, hrun, hlive, hcommit, hpos, hsome, hoff, hlen, hgrant, not_lt.2 hmin, not_lt.2 hmax, Bool.not_true, Bool.false_eq_true, ne_eq, not_true,
    or_self, if_false]
  rfl

end

theorem queue_dataNext (c : Chip) (n : Nat) : (c.dataNext n).queue n =
    { c.queue n with dataHead := ((c.queue n).dataHead + 1) % 65536, dataExp := ((c.queue n).dataExp + 1) % 65536 } := queue_setQueue ..

/-! ### O49 -/

/-- Settles O49. -/
theorem hostWindows : Obligations.HostWindows := by
  unfold Obligations.HostWindows
  refine fun s x n => ⟨fun hok hrun => ⟨fun hlive => ⟨fun off bs hoff hnew hfree => ?slot, fun off bs => ?poisoned,
      fun word hpos hopen hcommit hword hcount => ?commit⟩,
    fun hlive h bs hcommit hpos hbytes => ⟨fun hnone hdone => ?late, fun m hsome hoff hlen hmin hmax hgrant => ?data⟩⟩,
    fun off bs hbad => ?discard, fun v hok hv => ⟨fun hhalt => ?resume, fun hhalt => ?resumeData⟩,
    fun v => fun hexist hscale hcreated hport hsize => ⟨fun hin => ?head, fun hout => ?headDiscard⟩, fun hexist hoff => ?enable,
    fun t rest k hsets hport hcreated hrun hheld horder hout hfree hcore hcredit hfresh => ?take,
    fun off v hexist hretry => ⟨?read, fun hk => ?write, fun hk => ?fixed⟩⟩
  case slot =>
    refine completes_on (f := fun c => c.slotWrite x n false off bs .none) rfl ?_
    rw [slotWrite_opens hok hrun hlive hoff hnew hfree]
    have hsync := cisSync_weirs (s.chip.setQueue n { s.chip.queue n with
      slots := Cells.putRun (fun _ => 0) (s.chip.queue n).slots off bs, open_ := off / 64 :: (s.chip.queue n).open_ }) (2 * n)
    have hqueue := (queue_of_host hsync.host n).trans (queue_setQueue ..)
    rw [hqueue]
    refine ⟨fun i hi => ?_, fun j hj => Cells.get_putRun_apart _ _ hj, rfl, rfl,
      fun k hk => (queue_of_host hsync.host k).trans (queue_setQueue_other _ _ _ _ hk), ?_⟩
    · rw [Cells.get_putRun_at _ _ _ (List.getElem?_eq_getElem hi), List.getD_eq_getElem _ _ hi]
    · exact (hostOnly_setQueue ..).trans hsync.hostOnly
  case poisoned =>
    refine completes_on (f := fun c => c.slotWrite x n false off bs .poisoned) rfl ?_
    rw [slotWrite_poisoned hok hrun hlive]
    obtain ⟨hqueue, hothers, hregs, hmem⟩ := halted_intakeError s.chip n 1 (posOfSlot (s.chip.queue n).head (off / 64) 32)
    rw [(serves hok).port] at hregs
    exact ⟨hqueue, (fld_of_regs hregs _).trans (fld_inc_same _ _ (Nat.le_of_ble_eq_true rfl)),
      fieldsKept_regs hregs (fieldsKept_inc _ (by simp) (fieldsKept_refl _ _)), hothers, hmem⟩
  case commit =>
    refine completes_on (f := fun c => c.capsuleCommit x n ((s.chip.queue n).expPos % 32) word) rfl ?_
    obtain ⟨hqueue, hothers, hitem, honly⟩ := capsuleCommit_one hok hrun hlive hpos hopen hcommit hword hcount
    rw [hqueue]
    exact ⟨⟨_, rfl, rfl, rfl⟩, rfl, rfl, by simp [IQueue.committed], hitem, hothers, honly⟩
  case late =>
    refine completes_onIf (f := fun c => c.dataCapsule x n ((s.chip.queue n).dataExp % 2) h bs) rfl (by simp [hbytes]) ?_
    rw [dataCapsule_late hok hrun hlive hcommit hpos hnone hdone, queue_dataNext]
    exact ⟨rfl, rfl, fld_inc_same s.chip (SLC_LATE_DATA_COUNT x) (Nat.le_of_ble_eq_true rfl), fieldsKept_inc _ (by simp) (fieldsKept_refl _ _),
      fun k hk => queue_setQueue_other _ _ _ _ hk, bytesKept_of_eq rfl rfl rfl⟩
  case data =>
    refine completes_onIf (f := fun c => c.dataCapsule x n ((s.chip.queue n).dataExp % 2) h bs) rfl (by simp [hbytes]) ?_
    have hwindows := ((Shaken.refl s.chip).takeData m h.offset.toNat bs).windows n
    rw [dataCapsule_taken hok hrun hlive hcommit hpos hsome hoff hlen hmin hmax hgrant, queue_dataNext]
    simp only [IQueue.windows, Prod.mk.injEq] at hwindows
    obtain ⟨hhead, hdata, hexp, hhalted, -⟩ := hwindows
    exact ⟨by rw [hdata], by rw [hexp], hhalted.trans hlive, hhead⟩
  case discard =>
    refine completes_on (f := fun c => c.slotWrite x n false off bs .none) rfl ?_
    have heq : s.chip.slotWrite x n false off bs .none = s.chip.inc (SLC_WINDOW_DISCARDS_COUNT x) := by
      unfold Chip.slotWrite
      rw [if_pos (by simp [hbad])]
    rw [heq]
    exact ⟨fld_inc_same _ _ (Nat.le_of_ble_eq_true rfl), fieldsKept_inc _ (by simp) (fieldsKept_refl _ _), rfl⟩
  case resume =>
    refine (resume_exec s x n false v hok hv _ rfl hhalt).imp fun c hc => ?_
    rw [hc]
    exact ⟨queue_setQueue .., fun k hk => queue_setQueue_other _ _ _ _ hk, hostOnly_setQueue ..⟩
  case resumeData =>
    refine (resume_exec s x n true v hok hv _ rfl hhalt).imp fun c hc => ?_
    rw [hc]
    exact ⟨queue_setQueue .., fun k hk => queue_setQueue_other _ _ _ _ hk, hostOnly_setQueue ..⟩
  case head =>
    refine (ringHead_exec s x n v hexist hscale hcreated hport).imp fun c hc => ?_
    rw [hc, if_neg (by simp only [not_or, not_le, not_lt]; exact ⟨hsize, hin⟩)]
    exact ⟨ring_setRing .., fun k hk => ring_setRing_other _ _ _ _ hk, hostOnly_setRing ..⟩
  case headDiscard =>
    refine (ringHead_exec s x n v hexist hscale hcreated hport).imp fun c hc => ?_
    rw [hc, if_pos (.inr hout)]
    exact ⟨fld_inc_same _ _ (Nat.le_of_ble_eq_true rfl), fieldsKept_inc _ (by simp) (fieldsKept_refl _ _), rfl⟩
  case enable =>
    refine completes_on (f := fun c => c.sluiceEnable x) rfl ?_
    obtain ⟨henable, henabled, hqueue, ⟨_, _, _, _, hring⟩, hfields, hmem⟩ := enabled_sluiceEnable hexist hoff
    rw [hring]
    exact ⟨henable, henabled, hqueue, rfl, rfl, rfl, rfl, rfl, rfl, rfl, hfields, hmem⟩
  case take =>
    refine completes_on (f := fun c => c.takeNext n) rfl ?_
    have htaken : Taken n t rest k s.chip (s.chip.sluiceTake n) := by
      rw [sluiceTake_takes hsets hcreated hrun hheld horder hout hfree hcore hcredit]
      exact taken_takeSet hfresh
    obtain ⟨_, hsame, hcount, rfl⟩ := takeNext_taken htaken
    obtain ⟨hrest, hhead, hnext, ⟨y, hy, hface⟩, -⟩ := htaken
    have hhost : (s.chip.takeNext n).host = (s.chip.sluiceTake n).host := congrArg (·.host) hsame
    simp only [Cmd.face, Prod.mk.injEq] at hface
    obtain ⟨huid, hqueue, hk, hop, htag, hvol, harg⟩ := hface
    rw [queue_of_host hhost, hhost]
    exact ⟨hrest, hhead, hnext, ⟨y, List.mem_of_find?_eq_some hy, huid, hqueue, hk, hop, htag, hvol, harg⟩, hcount⟩
  case read =>
    refine completes_on (f := fun c => c.configRequest x false off v) rfl ?_
    rw [configRequest_served hexist hretry, if_pos (by rfl : (!false) = true)]
    exact ⟨congrArg (·.lastRead) (agent_setAgent ..), rfl⟩
  case write =>
    refine completes_on (f := fun c => c.configRequest x true off v) rfl ?_
    rw [configRequest_served hexist hretry]
    simp only [Bool.not_true, Bool.false_eq_true, if_false]
    rw [if_neg (by simpa using hk)]
    have hmessages := messagesOnly_msixFlush ({ s.chip with
      host := { s.chip.host with pcie := Cells.put pcieReset s.chip.host.pcie (1024 * x + off / 4 % 1024) v } } : Chip) x
    have hpcie := congrArg (fun c : Chip => c.host.pcie) hmessages
    refine ⟨?_, fun o ho => ?_, ?_⟩
    · rw [Chip.pcie, hpcie]
      exact Cells.get_put_same _ _ _ _
    · rw [Chip.pcie, hpcie]
      exact (pcie_put _ _ off o v).trans (if_neg ho)
    · exact ⟨congrArg (·.regs) hmessages, congrArg (·.servo) hmessages, congrArg (·.afe) hmessages, congrArg (·.sup) hmessages,
        bytesKept_of_eq (congrArg (·.buf.mem) hmessages) (congrArg (·.sup.boot) hmessages) (congrArg (·.core.sram) hmessages)⟩
  case fixed =>
    refine completes_on (f := fun c => c.configRequest x true off v) rfl ?_
    rw [configRequest_served hexist hretry]
    simp only [Bool.not_true, Bool.false_eq_true, if_false]
    exact if_pos (by simpa using hk)

end Sys2Proof.Machine
end

section
/-! The refutation of O51: a WRITE while the sampling PLL has failed. -/

namespace Sys2Proof.Machine

/-- A WRITE of block 0 of volume 0, which no core has started. -/
def firstWrite : Cmd where
  uid := 0
  queue := 2
  port := 0
  tag := 0
  opcode := opWrite
  flags := 0
  volume := 0
  arg0 := 0
  arg1 := 1
  arg2 := 0
  arg3 := 0
  entries := []
  capsules := 1
  commitAt := 0
  core := some 0

/-- Volume 0 is mounted for writing and its block 0 is blank; the Flume is up, and the sampling PLL has failed for good (R132). -/
def failedPllChip : Chip where
  host := { cmds := [firstWrite] }
  afe := { failed := true }
  servo := { vols := [(0, { layers := [(0, { valid := true })] })] }
  path := { map := [(0, .blank)] }

def failedPllSt : State where
  chip := ((failedPllChip.setFld FLM_STATUS_UP 1).setFld (WMM_STN_PU_VOLUME_STATE 0 0) vMountedWrite).setFld WMH_CORES_ONLINE 1

/-- What a step leaves of block 0. -/
def blockAfter : Out → Rec
  | .next t => t.chip.recOf 0 0
  | _ => .unknown

theorem blockAfter_failedPllSt : blockAfter (execHostWrite 2 0 failedPllSt) = .blank := by
  decide +kernel

theorem starts_failedPllSt : Starts failedPllSt.chip 2 0 opWrite firstWrite :=
  ⟨by decide +kernel, fun x hx _ => List.mem_singleton.1 hx, rfl, rfl⟩

/-- Refutes O51: with the Flume up and the sampling PLL failed, a WRITE of a blank block ends with STATION_FAULT, and no block becomes PENDING. The
statement asks for the Flume alone, where R357 and the model ask for both. -/
theorem not_hostData : ¬ Obligations.HostData := by
  unfold Obligations.HostData
  intro h
  obtain ⟨-, hwrite, -⟩ := h failedPllSt 2 0 firstWrite
  obtain ⟨t, hstep, -, hpending, -⟩ := hwrite starts_failedPllSt (by decide) (by decide) (by decide +kernel) (by decide +kernel) (by decide +kernel)
    (by decide +kernel) (by decide +kernel) fun b _ hb => by
      obtain rfl : b = 0 := Nat.lt_one_iff.1 hb
      decide +kernel
  have hblank := blockAfter_failedPllSt
  rw [show execHostWrite 2 0 failedPllSt = .next t from hstep, blockAfter, show t.chip.recOf 0 0 = .pending from hpending 0 (by decide) (by decide)] at hblank
  exact absurd hblank (by decide)

end Sys2Proof.Machine
end

section
/-! The STATION_CONTROL commands that park, clamp and quiet a station, and what a command that acts is. -/

namespace Sys2Proof.Machine

/-! ### A command that acts -/

/-- A command has started and acts: no more than the table, the weirs and the staged list differ. -/
structure Acting (m y : Cmd) (c e : Chip) : Prop where
  table : TableOnly c e
  cmd : e.cmd m.uid = some y

theorem Acting.regs {m y : Cmd} {c e : Chip} (h : Acting m y c e) : e.regs = c.regs := congrArg (·.regs) h.table

theorem Acting.bytes {m y : Cmd} {c e : Chip} (h : Acting m y c e) : c.bytesKept e := h.table.hostOnly.2.2.2.2

theorem Acting.stState {m y : Cmd} {c e : Chip} (h : Acting m y c e) (x : Nat) : e.stState x = c.stState x := fld_of_regs h.regs _

theorem Acting.flag {m y : Cmd} {c e : Chip} (h : Acting m y c e) (f : Fld) : e.flag f = c.flag f := flag_eq_of_fld (fld_of_regs h.regs f)

theorem Acting.stn {m y : Cmd} {c e : Chip} (h : Acting m y c e) (x : Nat) : e.stn x = c.stn x :=
  by rw [show e = _ from h.table]; rfl

theorem Acting.updCmd {m y : Cmd} {c e : Chip} (h : Acting m y c e) {f : Cmd → Cmd} (huid : (f y).uid = m.uid) : Acting m (f y) c (e.updCmd m.uid f) :=
  ⟨h.table.updCmd .., found_changed (f := f) h.cmd huid⟩

theorem acting_begin {c : Chip} {n tag op : Nat} {m : Cmd} (h : Startable c n tag op m) : Acting m { m with started := true } c (c.begin m) :=
  ⟨(began h).table, (began h).cmd⟩

/-- The entry of a command of the device, once it acts. -/
def Cmd.acts (m : Cmd) : Cmd := { m with started := true, acted := true }

theorem acting {c : Chip} {n tag op : Nat} {m : Cmd} (h : Startable c n tag op m) :
    Acting m m.acts c ((c.begin m).updCmd m.uid fun m => { m with acted := true }) :=
  (acting_begin h).updCmd (f := fun m => { m with acted := true }) rfl

/-- With the command's entry as it acts, its end is the one told. -/
theorem ends_acting {c d : Chip} {n tag op : Nat} {m : Cmd} (h : Startable c n tag op m) (hcmd : d.cmd m.uid = some m.acts) (status index result count : Nat) :
    Ends (d.finish m.uid status index result count) m status index result count :=
  ends_finish hcmd h.status h.silent h.mark rfl rfl ..

/-- A STATION_CONTROL of an action that the row takes reaches its station while the Flume is up and the sampling PLL works. -/
theorem completes_stationRow {s : State} {n tag k : Nat} {m : Cmd} {f : Cmd → Chip → Chip} {ok : Nat → Bool} {i : Instr} {P : Chip → Prop}
    (h : Startable s.chip n tag opStation m) (hup : s.chip.flag FLM_STATUS_UP = true) (hpll : s.chip.afe.failed = false) (hx : m.arg0 % 256 < 8)
    (haction : bitsOf m.arg0 8 8 = k) (hk : k ≤ 5) (hi : exec i s = s.on fun c => c.stationRow n tag ok f) (hok : ok k = true)
    (hP : ∀ e, Acting m m.acts s.chip e → P (f m e)) : Completes i s P := by
  refine completes_on hi ?_
  have hup' : (s.chip.begin m).flag FLM_STATUS_UP = true := ((acting_begin h).flag _).trans hup
  have hpll' : (s.chip.begin m).afe.failed = false := (congrArg (·.afe.failed) (began h).table).trans hpll
  rw [Chip.stationRow, h.run]
  dsimp only
  rw [haction, if_neg (by simp [hok]), if_neg (by omega), if_neg (by simp [hup', hpll'])]
  exact hP _ (acting h)

section
variable {s : State} {n tag : Nat} {m : Cmd}

/-! ### QUIET -/

/-- QUIET writes its bit. -/
theorem quiet_bit (h : Startable s.chip n tag opStation m) {e : Chip} (he : Acting m m.acts s.chip e) (v : Bool) :
    let c := (e.setFld (SPN_CTRL_QUIET (m.arg0 % 256)) v.toNat).finishS m.uid stOk
    Ends c m stOk 0 0 0 ∧ c.flag (SPN_CTRL_QUIET (m.arg0 % 256)) = v ∧ s.chip.fieldsKept [SPN_CTRL_QUIET (m.arg0 % 256)] c ∧ s.chip.bytesKept c := by
  refine ⟨ends_acting h (d := e.setFld _ _) he.cmd .., ?_, fieldsKept_finish (fieldsKept_setFld _ _ (by simp) (fieldsKept_of_regs he.regs)) _ _ _ _ _,
    bytesKept_finish (bytesKept_trans he.bytes (bytesKept_of_regsOnly (regsOnly_setFld _ _ (regsOnly_refl _)))) _ _ _ _ _⟩
  exact (flag_eq_of_fld (fld_finish ..)).trans (flag_setFlag_same _ _ _ (Nat.le_of_ble_eq_true rfl) rfl)

end

/-! ### PARK -/

section
variable {s : State} {n tag : Nat} {m : Cmd}

/-- A PARK of a station that parks already waits with it. -/
theorem hostPark_joins {e : Chip} (he : Acting m m.acts s.chip e) (hst : s.chip.stState (m.arg0 % 256) = sParking) :
    let c := e.hostPark m
    (c.stn (m.arg0 % 256)).causes = (s.chip.stn (m.arg0 % 256)).causes ++ [cauHostPark] ∧
      (c.stn (m.arg0 % 256)).waiters = (s.chip.stn (m.arg0 % 256)).waiters ++ [m.uid] ∧
      (∃ y, c.cmd m.uid = some y ∧ y.status = m.status ∧ y.wait = .station) ∧ c.regs = s.chip.regs ∧ s.chip.bytesKept c := by
  have hst' : e.stState (m.arg0 % 256) = sParking := (he.stState _).trans hst
  unfold Chip.hostPark
  dsimp only
  rw [park_joins hst', he.stn]
  generalize hrec : ({ s.chip.stn (m.arg0 % 256) with
    causes := (s.chip.stn (m.arg0 % 256)).causes ++ [cauHostPark]
    reset := (s.chip.stn (m.arg0 % 256)).reset || cauHostPark == cauStationReset } : StationRec) = r
  have hjoin : (e.setStn (m.arg0 % 256) r).stState (m.arg0 % 256) = sParking := by rw [Chip.stState, fld_setStn]; exact hst'
  rw [if_pos hjoin, stn_setStn, stn_setStn]
  refine ⟨by rw [← hrec], by rw [← hrec], ⟨{ m.acts with wait := .station }, ?_, rfl, rfl⟩, he.regs, ?_⟩
  · exact (he.updCmd (f := fun m => { m with wait := .station }) rfl).cmd
  · exact bytesKept_trans he.bytes (bytesKept_of_eq rfl rfl rfl)

/-- A PARK of a station with nothing to park ends at once. -/
theorem hostPark_nothing (h : Startable s.chip n tag opStation m) {e : Chip} (he : Acting m m.acts s.chip e)
    (hst : s.chip.stState (m.arg0 % 256) ∈ [sEmpty, sSafe, sLoaded]) : Ends (e.hostPark m) m stOk 0 0 0 ∧ HostOnly s.chip (e.hostPark m) := by
  have hmoves : ∀ st ∈ [sEmpty, sSafe, sLoaded], st ∈ [sEmpty, sSafe, sFault, sLoaded] ∧ st ≠ sParking ∧ st ≠ sFault := by decide
  obtain ⟨hidle, hpark, hfault⟩ := hmoves _ hst
  rw [← he.stState] at hidle hpark hfault
  unfold Chip.hostPark
  dsimp only
  rw [park_nothing hidle (by decide), if_neg hpark, if_neg hfault]
  exact ⟨ends_acting h he.cmd .., (he.table.finish ..).hostOnly⟩

end

/-! ### CLAMP -/

section
variable {c : Chip} {n : Nat}

/-- CLAMP with the disc in its place asks for what is there already. -/
theorem clampReq_held (hst : c.stState n = sLoaded ∨ c.stState n = sSafe) :
    (c.clampReq n true).host = c.host ∧ (c.clampReq n true).flag (WMM_STN_CTRL_CLAMP_REQ n) = true ∧
      c.fieldsKept [WMM_STN_CTRL_CLAMP_REQ n] (c.clampReq n true) ∧ c.bytesKept (c.clampReq n true) := by
  have heq : ∃ r, c.clampReq n true = (c.setFlag (WMM_STN_CTRL_CLAMP_REQ n) true).setStn n r := by
    refine ⟨_, clampRules_held (c := (c.setFlag (WMM_STN_CTRL_CLAMP_REQ n) true).setStn n _) ?_ ?_⟩
    · rw [flag_setStn, flag_setFlag_same _ _ _ (Nat.le_of_ble_eq_true rfl) rfl]
    · have hst' : (c.setFlag (WMM_STN_CTRL_CLAMP_REQ n) true).stState n = c.stState n :=
        fld_setFld_apart _ _ _ _ (Nat.le_of_ble_eq_true rfl) (state_apart_req n)
      rw [Chip.stState, fld_setStn, ← Chip.stState, hst']
      rcases hst with h | h <;> simp [h, sLoaded, sSafe, sEmpty]
  obtain ⟨r, heq⟩ := heq
  rw [heq]
  refine ⟨rfl, ?_, fieldsKept_regs (setStn_regs ..) (fieldsKept_setFlag _ _ (by simp) (fieldsKept_refl _ _)), bytesKept_of_eq rfl rfl rfl⟩
  rw [flag_setStn, flag_setFlag_same _ _ _ (Nat.le_of_ble_eq_true rfl) rfl]

/-- A station whose disc is let go. -/
structure Released (n : Nat) (c c' : Chip) : Prop where
  cmds : c'.host.cmds = c.host.cmds
  req : c'.flag (WMM_STN_CTRL_CLAMP_REQ n) = false
  state : c'.stState n = sEmpty
  cause : c'.fld (WMM_STN_STATE_CAUSE n) = cauUnclamp
  clamped : c'.flag (WMM_STN_STATE_CLAMPED n) = false
  bytes : c.bytesKept c'

/-- Where no MOUNT holds it, the clamp lets go of a disc that is no longer asked for. -/
theorem released_clampRules (hreq : c.flag (WMM_STN_CTRL_CLAMP_REQ n) = false) (hst : c.stState n = sLoaded ∨ c.stState n = sSafe)
    (hhold : (c.stn n).holdClamp = false) : Released n c (c.clampRules n) := by
  rw [clampRules_release hreq hst hhold]
  have hchanged := stateChanged (c.setClamped n false) n (new := sEmpty) (cause := cauUnclamp) (by decide) (by decide)
  refine ⟨congrArg (·.cmds) hchanged.host, ?_, hchanged.state, hchanged.shown, ?_, bytesKept_trans (bytesKept_of_eq rfl rfl rfl) hchanged.bytes⟩
  · exact ((hchanged.bit (Nat.le_of_ble_eq_true rfl) (by simp)).trans
      (flag_setFlag_apart _ _ _ _ (Nat.le_of_ble_eq_true rfl) (apart_symm (clamped_apart_req n)))).trans hreq
  · exact (hchanged.bit (Nat.le_of_ble_eq_true rfl) (by simp)).trans (flag_setFlag_same _ _ _ (Nat.le_of_ble_eq_true rfl) rfl)

theorem released_clampReq (hst : c.stState n = sLoaded ∨ c.stState n = sSafe) : Released n c (c.clampReq n false) := by
  obtain ⟨late, hold, heq, hhold, -⟩ := clampReq_eq c n false
  obtain rfl : hold = false := hhold (by rcases hst with h | h <;> simp [h, sParking, sLoaded, sSafe])
  have hregs : c.regsOnly (c.clampBits n false late) := by cases late <;> rfl
  have hst' := stState_clampBits c n false late
  have hreq := flag_clampBits_same c n false late
  rw [heq]
  generalize c.clampBits n false late = d at hregs hst' hreq
  have hfree := released_clampRules (c := d.setStn n { d.stn n with holdClamp := false }) (n := n) (by rw [flag_setStn, hreq])
    (by rw [Chip.stState, fld_setStn, ← Chip.stState, hst']; exact hst) (by rw [stn_setStn])
  exact { hfree with
    cmds := hfree.cmds.trans (congrArg (·.cmds) (host_of_regsOnly hregs))
    bytes := bytesKept_trans (bytesKept_of_regsOnly hregs) (bytesKept_trans (bytesKept_of_eq rfl rfl rfl) hfree.bytes) }

end

section
variable {s : State} {n tag : Nat} {m : Cmd} {e : Chip}

theorem clamped_ends (h : Startable s.chip n tag opStation m) (he : Acting m m.acts s.chip e)
    (hst : e.stState (m.arg0 % 256) = sLoaded ∨ e.stState (m.arg0 % 256) = sSafe) :
    let c := (e.clampReq (m.arg0 % 256) true).finishS m.uid stOk
    Ends c m stOk 0 0 0 ∧ c.flag (WMM_STN_CTRL_CLAMP_REQ (m.arg0 % 256)) = true ∧
      s.chip.fieldsKept [WMM_STN_CTRL_CLAMP_REQ (m.arg0 % 256)] c ∧ s.chip.bytesKept c := by
  obtain ⟨hhost, hreq, hkept, hbytes⟩ := clampReq_held hst
  generalize e.clampReq (m.arg0 % 256) true = d at hhost hreq hkept hbytes
  refine ⟨ends_acting h (by rw [Chip.cmd, hhost]; exact he.cmd) .., (flag_eq_of_fld (fld_finish ..)).trans hreq,
    fieldsKept_finish (fieldsKept_trans (fieldsKept_of_regs he.regs) hkept) _ _ _ _ _, bytesKept_finish (bytesKept_trans he.bytes hbytes) _ _ _ _ _⟩

theorem unclamped_ends (h : Startable s.chip n tag opStation m) (he : Acting m m.acts s.chip e)
    (hst : e.stState (m.arg0 % 256) = sLoaded ∨ e.stState (m.arg0 % 256) = sSafe) :
    let c := (e.clampReq (m.arg0 % 256) false).finishS m.uid stOk
    Ends c m stOk 0 0 0 ∧ c.flag (WMM_STN_CTRL_CLAMP_REQ (m.arg0 % 256)) = false ∧ c.stState (m.arg0 % 256) = sEmpty ∧
      c.fld (WMM_STN_STATE_CAUSE (m.arg0 % 256)) = cauUnclamp ∧ c.flag (WMM_STN_STATE_CLAMPED (m.arg0 % 256)) = false ∧ s.chip.bytesKept c := by
  obtain ⟨hcmds, hreq, hstate, hcause, hopen, hbytes⟩ := released_clampReq hst
  generalize e.clampReq (m.arg0 % 256) false = d at hcmds hreq hstate hcause hopen hbytes
  exact ⟨ends_acting h (by rw [Chip.cmd, hcmds]; exact he.cmd) .., (flag_eq_of_fld (fld_finish ..)).trans hreq, (fld_finish ..).trans hstate,
    (fld_finish ..).trans hcause, (flag_eq_of_fld (fld_finish ..)).trans hopen, bytesKept_finish (bytesKept_trans he.bytes hbytes) _ _ _ _ _⟩

end

end Sys2Proof.Machine
end

section
/-! The reset of a station that is not up (R621). -/

namespace Sys2Proof.Machine

/-- Work of a reset that leaves the host's side, the stations' records and their states as they are. -/
structure ResetWork (c c' : Chip) : Prop where
  host : c'.host = c.host
  stations : c'.servo.stations = c.servo.stations
  states : ∀ y, c'.stState y = c.stState y

/-- A register that shows no station's state. -/
def Stateless (r : Nat) : Prop := ∀ y, WMM_STN_STATE y ≠ r

section
variable {a c : Chip}

theorem ResetWork.refl (c : Chip) : ResetWork c c := ⟨rfl, rfl, fun _ => rfl⟩

theorem ResetWork.trans {b : Chip} (h : ResetWork a b) (h' : ResetWork b c) : ResetWork a c :=
  ⟨h'.host.trans h.host, h'.stations.trans h.stations, fun y => (h'.states y).trans (h.states y)⟩

/-- Work that writes no register. -/
theorem ResetWork.of_regs {b : Chip} (h : ResetWork a b) (hregs : c.regs = b.regs) (hhost : c.host = b.host)
    (hstations : c.servo.stations = b.servo.stations) : ResetWork a c :=
  h.trans ⟨hhost, hstations, fun _ => fld_of_regs hregs _⟩

theorem ResetWork.setFld (h : ResetWork a c) {f : Fld} (v : Nat) (hf : Stateless f.reg) : ResetWork a (c.setFld f v) :=
  h.trans ⟨rfl, rfl, fun y => fld_setFld_apart _ _ _ _ (Nat.le_of_ble_eq_true rfl) (apart_of_reg (hf y))⟩

theorem ResetWork.foldl {α : Type} {f : Chip → α → Chip} (l : List α) (h : ResetWork a c) (hf : ∀ d x, ResetWork a d → ResetWork a (f d x)) :
    ResetWork a (l.foldl f c) :=
  List.foldlRecOn _ _ (motive := ResetWork a) h fun d hd x _ => hf d x hd

theorem ResetWork.stn (h : ResetWork a c) (y : Nat) : c.stn y = a.stn y := by
  rw [Chip.stn, h.stations, Chip.stn]

/-! ### Weirs, engines, pairs -/

theorem ResetWork.updWeir (h : ResetWork a c) (kind index : Nat) (f : Weir → Weir) : ResetWork a (c.updWeir kind index f) := by
  obtain ⟨ws, cis, n, heq⟩ := (WeirsOnly.refl c).updWeir kind index f
  rw [heq]
  exact h.of_regs rfl rfl rfl

theorem ResetWork.closedResult (h : ResetWork a c) (e : Engine) (rd : Nat) : ResetWork a (c.closedResult e rd) := by
  have hx : ResetWork a (c.setX e rd 0) := by
    unfold Chip.setX
    split
    · exact h
    · exact h.of_regs rfl rfl rfl
  exact hx.of_regs rfl rfl rfl

theorem ResetWork.closeWeir (h : ResetWork a c) (kind index : Nat) (keep : Bool) : ResetWork a (c.closeWeir kind index keep) :=
  (h.updWeir ..).foldl _ fun _ s hd => hd.closedResult s.engine s.rd

theorem ResetWork.openWeir (h : ResetWork a c) (kind index : Nat) : ResetWork a (c.openWeir kind index) := h.updWeir ..

/-- Registers away from the stations' states. -/
theorem stateless_of {r : Nat} (h : ∀ y, WMM_STN_STATE y ≠ r) : Stateless r := h

theorem ResetWork.resetPickup (h : ResetWork a c) (p : Nat) : ResetWork a (c.resetPickup p) := by
  have hlanes : ResetWork a ((List.range 8).foldl (fun c k => c.setLane (8 * p + k) {}) c) := h.foldl _ fun _ _ hd => hd.of_regs rfl rfl rfl
  unfold Chip.resetPickup
  generalize (List.range 8).foldl (fun c k => c.setLane (8 * p + k) {}) c = d at hlanes
  have hunits : ResetWork a ((d.setFrm p {}).setWch p {}) := hlanes.of_regs rfl rfl rfl
  have hweirs := (((hunits.closeWeir 3 p false).openWeir 3 p).closeWeir 8 p false).openWeir 8 p
  dsimp only
  generalize (((((d.setFrm p {}).setWch p {}).closeWeir 3 p false).openWeir 3 p).closeWeir 8 p false).openWeir 8 p = e at hweirs
  have hcs : Stateless WMM_CS := fun y => by simp only [WMM_STN_STATE, WMM_CS]; omega
  exact ((hweirs.setFld (f := ⟨WMM_CS, p, 1⟩) _ hcs).setFld (f := ⟨WMM_CS, 16 + p, 1⟩) _ hcs).of_regs rfl rfl rfl

theorem ResetWork.journal (h : ResetWork a c) (action unit : Nat) : ResetWork a (c.journal action unit) :=
  h.of_regs (journal_regs ..) (journal_cmds ..) (congrArg (·.stations) (journal_servo ..))

theorem ResetWork.startTest (h : ResetWork a c) (e : Nat) : ResetWork a (c.startTest e) :=
  ResetWork.journal (h.of_regs (c := c.setPair (pairOf e) { c.pair (pairOf e) with testing := some e }) rfl rfl rfl) ..

theorem ResetWork.loadEngine (h : ResetWork a c) (e : Nat) (img : List Byte) (role : Nat) : ResetWork a (c.loadEngine e img role) := by
  have hset : ResetWork a (c.setTolek e (loadedEngine (imgPayload img) role)) := h.of_regs rfl rfl rfl
  refine ResetWork.setFld (.setFld (.setFld hset _ fun y => ?_) _ fun y => ?_) _ fun y => ?_ <;>
    simp only [WMM_STN_STATE, LE_IMAGE_VERSION, LE_COST_MAIN, LE_COST_SAFE, LE_COST, LE_IMAGE] <;> omega

/-- The parameters of a pair of the device show no station's state. -/
theorem stateless_param {q i : Nat} (hq : q < 24) (hi : i < 84) : Stateless (LE_PARAM_VALUE q i).reg := fun y => by
  simp only [WMM_STN_STATE, LE_PARAM_VALUE, LE_PARAM]; omega

theorem ResetWork.writeDefaults (h : ResetWork a c) {q : Nat} (hq : q < 24) : ResetWork a (c.writeDefaults q) := by
  have hparams (n : Nat) (hn : n ≤ 84) (v : Chip → Nat → Nat) :
      ResetWork a ((List.range n).foldl (fun c i => c.setFld (LE_PARAM_VALUE q i) (v c i)) c) :=
    List.foldlRecOn _ _ (motive := ResetWork a) h fun _ hd i hi => hd.setFld _ (stateless_param hq (by have := List.mem_range.1 hi; omega))
  unfold Chip.writeDefaults
  split
  · exact hparams 84 (by decide) fun _ i => (loopParam i).toNat
  · exact hparams 72 (by decide) fun c i => (motionParam (c.fld (SPN_CFG_POLE_PAIRS (q - 16))) i).toNat

/-- The registers of a pair of the device show no station's state. -/
theorem stateless_pair {q : Nat} (hq : q < 24) : Stateless (LE_PAIR_CTRL q) ∧ Stateless (LE_PAIR_STATUS q) ∧ Stateless (WMM_PAIR_EVENT q) := by
  refine ⟨fun y => ?_, fun y => ?_, fun y => ?_⟩ <;> simp only [WMM_STN_STATE, LE_PAIR_CTRL, LE_PAIR_STATUS, WMM_PAIR_EVENT] <;> omega

theorem ResetWork.loadPair (h : ResetWork a c) {q : Nat} (hq : q < 24) (img : List Byte) (fault : List Nat) : ResetWork a (c.loadPair q img fault) := by
  obtain ⟨hctrl, hstatus, hevent⟩ := stateless_pair hq
  unfold Chip.loadPair
  extract_lets bad role c₁ c₂ c₃ c₄ c₅
  have h₁ : ResetWork a c₁ := by
    refine h.foldl _ fun d e hd => ?_
    split
    · exact hd.of_regs rfl rfl rfl
    · exact hd.loadEngine ..
  have h₂ : ResetWork a c₂ := h₁.of_regs rfl rfl rfl
  have h₃ : ResetWork a c₃ := by
    show ResetWork a (if _ then _ else _)
    split
    · exact h₂.writeDefaults hq
    · exact h₂
  have h₄ : ResetWork a c₄ := by
    show ResetWork a (if _ then _ else _)
    split <;> exact h₃.of_regs rfl rfl rfl
  have h₅ : ResetWork a c₅ := (h₄.setFld (f := LE_PAIR_CTRL_ENTRY q) _ hctrl).setFld (f := LE_PAIR_STATUS_CONSEC q) _ hstatus
  split
  · exact h₅.setFld (f := WMM_PAIR_EVENT_PAIR_LOST q) _ hevent
  · exact h₅.setFld (f := LE_PAIR_CTRL_RUN q) _ hctrl

theorem ResetWork.reloadPairs (h : ResetWork a c) {x : Nat} (hx : x < 8) : ResetWork a (c.reloadPairs x) := by
  refine List.foldlRecOn _ _ (motive := ResetWork a) h fun d hd q hq => ?_
  have hq' : q < 24 := by
    simp only [List.mem_cons, List.not_mem_nil, or_false] at hq
    omega
  extract_lets img bad c₁ c₂ c₃
  have h₁ : ResetWork a c₁ := hd.setFld (f := LE_PAIR_CTRL_RUN q) _ (stateless_pair hq').1
  have h₂ : ResetWork a c₂ := by
    show ResetWork a (if _ then _ else _)
    split
    · exact h₁
    · exact h₁.loadPair hq' _ _
  have h₃ : ResetWork a c₃ := by
    show ResetWork a (if _ then _ else _)
    split
    · exact h₂.setFld (f := LE_PAIR_CTRL_RUN q) _ (stateless_pair hq').1
    · exact h₂
  clear_value c₃ c₂ c₁ bad
  cases bad with
  | nil => exact h₃
  | cons e _ => exact h₃.startTest e

end

/-! ### The state a reset ends in -/

/-- Station `x` may have changed its state; the commands, the other stations and its brake are as they were. -/
structure OnlyState (x : Nat) (c c' : Chip) : Prop where
  cmds : c'.host.cmds = c.host.cmds
  others : ∀ y, y ≠ x → c'.stState y = c.stState y
  brake : c'.flag (SPN_CTRL_BRAKE x) = c.flag (SPN_CTRL_BRAKE x)

theorem OnlyState.trans {x : Nat} {a b c : Chip} (h : OnlyState x a b) (h' : OnlyState x b c) : OnlyState x a c :=
  ⟨h'.cmds.trans h.cmds, fun y hy => (h'.others y hy).trans (h.others y hy), h'.brake.trans h.brake⟩

theorem OnlyState.of_regs {x : Nat} {c c' : Chip} (hregs : c'.regs = c.regs) (hcmds : c'.host.cmds = c.host.cmds) : OnlyState x c c' :=
  ⟨hcmds, fun _ _ => fld_of_regs hregs _, flag_eq_of_fld (fld_of_regs hregs _)⟩

/-- The fields of a station's change of state lie apart from another station's state. -/
theorem stateFields_apart_other {x y : Nat} (h : y ≠ x) : ∀ g ∈ WMM_STN_STATE_CLAMPED x :: stateFields x, apart (WMM_STN_STATE_STATE y) g := by
  simp only [stateFields, List.forall_mem_cons, List.not_mem_nil, false_imp_iff, implies_true, and_true, apart, WMM_STN_STATE_CLAMPED,
    WMM_STN_STATE_PREV, WMM_STN_STATE_STATE, WMM_STN_STATE_CAUSE, WMM_STN_STATE_UNCLAMP_ALLOWED, WMM_STN_TIME_TIME,
    WMM_STN_EVENT_STATE_CHANGE, WMM_STN_STATE, WMM_STN_TIME, WMM_STN_EVENT]
  omega

theorem stateFields_apart_brake (x : Nat) : ∀ g ∈ WMM_STN_STATE_CLAMPED x :: stateFields x, apart (SPN_CTRL_BRAKE x) g := by
  simp only [stateFields, List.forall_mem_cons, List.not_mem_nil, false_imp_iff, implies_true, and_true, apart, WMM_STN_STATE_CLAMPED, SPN_CTRL_BRAKE,
    SPN_CTRL, WMM_STN_STATE_PREV, WMM_STN_STATE_STATE, WMM_STN_STATE_CAUSE, WMM_STN_STATE_UNCLAMP_ALLOWED, WMM_STN_TIME_TIME,
    WMM_STN_EVENT_STATE_CHANGE, WMM_STN_STATE, WMM_STN_TIME, WMM_STN_EVENT]
  omega

theorem onlyState_of_kept {x : Nat} {c c' : Chip} (hkept : c.fieldsKept (WMM_STN_STATE_CLAMPED x :: stateFields x) c')
    (hcmds : c'.host.cmds = c.host.cmds) : OnlyState x c c' where
  cmds := hcmds
  others := fun _ hy => hkept _ (Nat.le_of_ble_eq_true rfl) (stateFields_apart_other hy)
  brake := flag_eq_of_fld (hkept _ (Nat.le_of_ble_eq_true rfl) (stateFields_apart_brake x))

theorem StateChanged.only {x new cause : Nat} {c c' : Chip} (h : StateChanged x new cause c c') : OnlyState x c c' :=
  onlyState_of_kept (fieldsKept_weaken (fun _ hg => List.mem_cons_of_mem _ hg) h.kept) (congrArg (·.cmds) h.host)

theorem onlyState_setClamped (c : Chip) (x : Nat) (v : Bool) : OnlyState x c (c.setClamped x v) :=
  onlyState_of_kept (fieldsKept_setFlag _ _ (by simp) (fieldsKept_refl _ _)) rfl

/-- The rules of the clamp change no state but to let a disc go; a station in FAULT they leave as it is. -/
theorem clampRules_only (c : Chip) (x : Nat) :
    OnlyState x c (c.clampRules x) ∧ ((c.clampRules x).stState x = sFault ↔ c.stState x = sFault) := by
  unfold Chip.clampRules
  dsimp only
  split
  · split
    · refine ⟨(onlyState_setClamped c x true).trans (.of_regs (setStn_regs ..) rfl), ?_⟩
      rw [Chip.stState, fld_setStn, Chip.setClamped, Chip.setFlag, fld_setFld_apart _ _ _ _ (Nat.le_of_ble_eq_true rfl) (state_apart_clamped x)]
      rfl
    · exact ⟨.of_regs rfl rfl, .rfl⟩
  · split
    next h =>
      have hchanged := stateChanged (c.setClamped x false) x (new := sEmpty) (cause := cauUnclamp) (by decide) (by decide)
      refine ⟨(onlyState_setClamped c x false).trans hchanged.only, ?_⟩
      rw [hchanged.state]
      rcases h.1 with h | h <;> simp [h, sEmpty, sLoaded, sSafe, sFault]
    · exact ⟨.of_regs rfl rfl, .rfl⟩

/-! ### The reset -/

section
variable {c : Chip} {x : Nat}

/-- The drivers' faults that are gone are no longer shown. -/
def Chip.faultsCleared (c : Chip) (x : Nat) : Chip :=
  [2 * x, 2 * x + 1].foldl (fun c p => if (c.sled p).fltInput then c else c.setFld (MOT_AX_STATUS_DRIVER_FAULT p) 0)
    (if (c.spn x).fltInput then c else c.setFld (SPN_STATUS_DRIVER_FAULT x) 0)

/-- The pickups, the pairs and the drive of a station begin anew. -/
def Chip.resetDrive (c : Chip) (x : Nat) : Chip :=
  ((([2 * x, 2 * x + 1].foldl (fun c p => c.resetPickup p) c).reloadPairs x).setFld (SPN_CTRL_BRAKE x) 0).faultsCleared x

theorem faultsCleared_work (c : Chip) (hx : x < 8) : ResetWork c (c.faultsCleared x) ∧
    (c.faultsCleared x).flag (SPN_CTRL_BRAKE x) = c.flag (SPN_CTRL_BRAKE x) := by
  have hspn : Stateless (SPN_STATUS x) := fun y => by simp only [WMM_STN_STATE, SPN_STATUS]; omega
  have hspn' : apart (SPN_CTRL_BRAKE x) (SPN_STATUS_DRIVER_FAULT x) :=
    apart_of_reg (by simp only [SPN_CTRL_BRAKE, SPN_CTRL, SPN_STATUS_DRIVER_FAULT, SPN_STATUS]; omega)
  refine List.foldlRecOn _ _ (motive := fun d => ResetWork c d ∧ d.flag (SPN_CTRL_BRAKE x) = c.flag (SPN_CTRL_BRAKE x)) ?_ fun d hd p hp => ?_
  · split
    · exact ⟨.refl c, rfl⟩
    · exact ⟨(ResetWork.refl c).setFld _ hspn, flag_setFld_apart _ _ _ _ (Nat.le_of_ble_eq_true rfl) hspn'⟩
  · split
    · exact hd
    · have hp' : p < 16 := by
        simp only [List.mem_cons, List.not_mem_nil, or_false] at hp
        omega
      refine ⟨hd.1.setFld _ fun y => ?_, (flag_setFld_apart _ _ _ _ (Nat.le_of_ble_eq_true rfl) (apart_of_reg ?_)).trans hd.2⟩
      · simp only [WMM_STN_STATE, MOT_AX_STATUS_DRIVER_FAULT, MOT_AX_STATUS]; omega
      · simp only [SPN_CTRL_BRAKE, SPN_CTRL, MOT_AX_STATUS_DRIVER_FAULT, MOT_AX_STATUS]; omega

theorem resetDrive_work (c : Chip) (hx : x < 8) : ResetWork c (c.resetDrive x) ∧ (c.resetDrive x).flag (SPN_CTRL_BRAKE x) = false := by
  have hpickups : ResetWork c ([2 * x, 2 * x + 1].foldl (fun c p => c.resetPickup p) c) := (ResetWork.refl c).foldl _ fun _ p hd => hd.resetPickup p
  have hpairs := hpickups.reloadPairs hx
  have hbrake := hpairs.setFld (f := SPN_CTRL_BRAKE x) 0 fun y => by simp only [WMM_STN_STATE, SPN_CTRL_BRAKE, SPN_CTRL]; omega
  obtain ⟨hwork, hflag⟩ := faultsCleared_work (x := x) ((([2 * x, 2 * x + 1].foldl (fun c p => c.resetPickup p) c).reloadPairs x).setFld (SPN_CTRL_BRAKE x) 0) hx
  exact ⟨hbrake.trans hwork, hflag.trans (flag_setFld_zero _ _ (Nat.le_of_ble_eq_true rfl))⟩

/-- The station's record and its commands once the state is set. -/
def Chip.resetDone (c : Chip) (x new : Nat) : Chip :=
  let uids := (c.stn x).resetUids
  let c := c.setStn x { c.stn x with reset := false, resetUids := [], parkStep := 0, causes := [] }
  let c := uids.foldl (fun c u => c.finishS u (if new = sFault then stStationFault else stOk)) c
  c.clampRules x

/-- The station enters the state that a reset ends in, unless it is in it. -/
def Chip.enter (c : Chip) (x new cause : Nat) : Chip := if c.stState x = new then c else c.changeState x new cause

theorem resetBody_eq (h₀ : c.calIdle (2 * x)) (h₁ : c.calIdle (2 * x + 1)) : c.stationResetBody x =
    ((c.resetDrive x).enter x ((c.resetDrive x).resetEnd x) cauStationReset).resetDone x ((c.resetDrive x).resetEnd x) := by
  unfold Chip.stationResetBody
  dsimp only
  rw [abandonCal_idle h₀, abandonCal_idle h₁]
  rfl

theorem enter_only (c : Chip) {new cause : Nat} (hnew : new < 8) (hcause : cause < 32) :
    OnlyState x c (c.enter x new cause) ∧ (c.enter x new cause).stState x = new ∧ ((c.enter x new cause).stn x).resetUids = (c.stn x).resetUids := by
  unfold Chip.enter
  split
  next h => exact ⟨.of_regs rfl rfl, h, rfl⟩
  · have hchanged := stateChanged c x hnew hcause
    exact ⟨hchanged.only, hchanged.state, by rw [hchanged.stn]⟩

theorem resetEnd_fits (c : Chip) (x : Nat) : c.resetEnd x < 8 := by
  unfold Chip.resetEnd
  dsimp only
  split
  · decide
  · split <;> decide

/-- The one command that waits ends by the state that the reset ends in. -/
theorem resetDone_ends {c : Chip} {x new : Nat} {m y : Cmd} (hcmd : c.cmd m.uid = some y) (hopen : y.status = none) (hsilent : y.silent = false)
    (hmark : y.mark = none) (htag : y.tag = m.tag) (hqueue : y.queue = m.queue) (huids : (c.stn x).resetUids = [m.uid]) (hnew : c.stState x = new) :
    (Ends (c.resetDone x new) m stOk 0 0 0 ∧ (c.resetDone x new).stState x ≠ sFault ∨
      Ends (c.resetDone x new) m stStationFault 0 0 0 ∧ (c.resetDone x new).stState x = sFault) ∧
      (c.resetDone x new).flag (SPN_CTRL_BRAKE x) = c.flag (SPN_CTRL_BRAKE x) ∧ ∀ k, k ≠ x → (c.resetDone x new).stState k = c.stState k := by
  have hends (status : Nat) : Ends ((c.setStn x { c.stn x with reset := false, resetUids := [], parkStep := 0, causes := [] }).finishS m.uid status)
      m status 0 0 0 := ends_finish (c := c.setStn x _) hcmd hopen hsilent hmark htag hqueue ..
  unfold Chip.resetDone
  rw [huids]
  simp only [List.foldl_cons, List.foldl_nil]
  generalize hstatus : (if new = sFault then stStationFault else stOk) = status
  have hregs : ((c.setStn x { c.stn x with reset := false, resetUids := [], parkStep := 0, causes := [] }).finishS m.uid status).regs = c.regs :=
    congrArg (·.regs) ((TableOnly.refl (c.setStn x _)).finish m.uid status 0 0 0)
  replace hends := hends status
  generalize (c.setStn x { c.stn x with reset := false, resetUids := [], parkStep := 0, causes := [] }).finishS m.uid status = d at hends hregs
  obtain ⟨honly, hfault⟩ := clampRules_only d x
  have hstate : d.stState x = new := (fld_of_regs hregs _).trans hnew
  refine ⟨?_, honly.brake.trans (flag_eq_of_fld (fld_of_regs hregs _)), fun k hk => (honly.others k hk).trans (fld_of_regs hregs _)⟩
  have hends' : Ends (d.clampRules x) m status 0 0 0 := by
    obtain ⟨y, hy, hrest⟩ := hends
    exact ⟨y, by rw [Chip.cmd, honly.cmds]; exact hy, hrest⟩
  by_cases hnf : new = sFault
  · rw [if_pos hnf] at hstatus
    exact .inr ⟨hstatus ▸ hends', hfault.2 (hstate.trans hnf)⟩
  · rw [if_neg hnf] at hstatus
    exact .inl ⟨hstatus ▸ hends', fun h => hnf (hstate.symm.trans (hfault.1 h))⟩

/-- A reset of a station that is not up, asked for by one command. -/
theorem stationReset_ends {e : Chip} {x : Nat} {m y : Cmd} (hx : x < 8) (hcmd : e.cmd m.uid = some y) (hopen : y.status = none) (hsilent : y.silent = false)
    (hmark : y.mark = none) (htag : y.tag = m.tag) (hqueue : y.queue = m.queue) (hst : e.stState x ∈ [sEmpty, sLoaded, sSafe, sFault])
    (huids : (e.stn x).resetUids = []) (hcal : ∀ p, p / 2 = x → e.calIdle p) :
    let c := e.stationReset x (some m.uid)
    (Ends c m stOk 0 0 0 ∧ c.stState x ≠ sFault ∨ Ends c m stStationFault 0 0 0 ∧ c.stState x = sFault) ∧ c.flag (SPN_CTRL_BRAKE x) = false ∧
      ∀ k, k ≠ x → c.stState k = e.stState k := by
  have hbegin : ∃ d : Chip, e.stationReset x (some m.uid) = d.stationResetBody x ∧ d.regs = e.regs ∧ d.host = e.host ∧ (d.stn x).resetUids = [m.uid] ∧
      d.sup.thermal = e.sup.thermal := by
    refine ⟨(e.setStn x { e.stn x with resetUids := (e.stn x).resetUids ++ [m.uid] }).journal actRestart x, ?_, journal_regs .., journal_cmds .., ?_, ?_⟩
    · have hst' : ((e.setStn x { e.stn x with resetUids := (e.stn x).resetUids ++ [m.uid] }).journal actRestart x).stState x = e.stState x :=
        fld_of_regs (journal_regs ..) _
      unfold Chip.stationReset
      simp only [Option.toList_some, hst']
      simp only [List.mem_cons, List.not_mem_nil, or_false] at hst
      rcases hst with h | h | h | h <;> rw [h] <;> rfl
    · rw [Chip.stn, journal_servo, ← Chip.stn, stn_setStn, huids, List.nil_append]
    · rw [journal_sup]
      rfl
  obtain ⟨d, heq, hregs, hhost, huids', hthermal⟩ := hbegin
  have hcal' (p : Nat) (hp : p / 2 = x) : d.calIdle p := by
    obtain ⟨hcycle, hacq⟩ := hcal p hp
    exact ⟨(fld_of_regs hregs _).trans hcycle, by rw [Chip.cal, Chip.thermal, hthermal]; exact hacq⟩
  rw [heq, resetBody_eq (hcal' _ (by omega)) (hcal' _ (by omega))]
  obtain ⟨hwork, hbrake⟩ := resetDrive_work d hx
  obtain ⟨honly, hnew, huids''⟩ := enter_only (x := x) (d.resetDrive x) (resetEnd_fits _ x) (cause := cauStationReset) (by decide)
  have hcmd' : ((d.resetDrive x).enter x ((d.resetDrive x).resetEnd x) cauStationReset).cmd m.uid = some y := by
    rw [Chip.cmd, honly.cmds, hwork.host, hhost]
    exact hcmd
  obtain ⟨hend, hflag, hothers⟩ := resetDone_ends hcmd' hopen hsilent hmark htag hqueue (by rw [huids'', hwork.stn, huids']) hnew
  exact ⟨hend, hflag.trans (honly.brake.trans hbrake), fun k hk =>
    (hothers k hk).trans ((honly.others k hk).trans ((hwork.states k).trans (fld_of_regs hregs _)))⟩

end

end Sys2Proof.Machine
end

section
/-! CLOSE_VOLUME of the one command of the device (R364, R288). -/

namespace Sys2Proof.Machine

/-! ### Records of a management update -/

theorem recordItems_length (c : Chip) (p layer : Nat) (closing : Bool) : (c.recordItems p layer closing).length = 64 := by
  simp [Chip.recordItems]

/-- A management update of pickup `p` records 64 items next; beyond the volume and the write channel nothing differs. -/
structure Recording (p : Nat) (u : MgmtUpd) (c c' : Chip) : Prop where
  update : ∃ u', (c'.vol p).mgmt = some u' ∧ u'.uids = u.uids ∧ u'.closing = u.closing ∧ u'.left = 64 ∧ u'.bad = false
  items : (c'.wch p).items.length = (c.wch p).items.length + 64
  regs : c'.regs = c.regs
  host : c'.host = c.host

/-- A layer that is full is left out, and the update goes on with the next. -/
def Chip.layerSkipped (c : Chip) (p layer : Nat) (u : MgmtUpd) (rest : List Nat) : Chip :=
  let c := c.updLayer p layer fun l => { l with readOnly := true }
  c.setVol p { c.vol p with mgmt := some { u with layers := rest, fails := 0 } }

section
variable {c : Chip} {p n : Nat} {u : MgmtUpd}

theorem mgmtNext_skips {layer : Nat} {rest : List Nat} (hu : (c.vol p).mgmt = some u) (hlayers : u.layers = layer :: rest) (hgood : c.writeDegraded p = false)
    (hfull : 1024 ≤ ((c.vol p).layer layer).due.2) (hlayer : layer ≠ 0) : c.mgmtNext p (n + 1) = (c.layerSkipped p layer u rest).mgmtNext p n := by
  rw [Chip.mgmtNext, hu]
  simp only [hlayers, hgood, Bool.false_eq_true, if_false, if_pos hfull, if_neg hlayer]
  rfl

theorem mgmtNext_takes {layer : Nat} {rest : List Nat} (hu : (c.vol p).mgmt = some u) (hlayers : u.layers = layer :: rest) (hgood : c.writeDegraded p = false)
    (hroom : ((c.vol p).layer layer).due.2 < 1024) : Recording p u c (c.mgmtNext p (n + 1)) := by
  rw [Chip.mgmtNext, hu]
  simp only [hlayers, hgood, Bool.false_eq_true, if_false, if_neg (Nat.not_le.2 hroom)]
  refine ⟨⟨{ u with left := 64, bad := false }, by simp only [vol_setVol, hlayers], rfl, rfl, rfl, rfl⟩, ?_, rfl, rfl⟩
  show (Chip.wch (c.setWch p _) p).items.length = _
  rw [wch_setWch, List.length_append, recordItems_length]

end

/-- What is to be known of a skipped layer's machine to go on from it. -/
theorem layerSkipped_spec (c : Chip) (p : Nat) {layer : Nat} (u : MgmtUpd) (rest : List Nat) (hlayer : layer ≠ 0) :
    ((c.layerSkipped p layer u rest).vol p).mgmt = some { u with layers := rest, fails := 0 } ∧
      ((c.layerSkipped p layer u rest).vol p).layer 0 = (c.vol p).layer 0 ∧ (c.layerSkipped p layer u rest).wch p = c.wch p ∧
      (c.layerSkipped p layer u rest).regs = c.regs ∧ (c.layerSkipped p layer u rest).host = c.host := by
  unfold Chip.layerSkipped Chip.updLayer
  simp only [vol_setVol]
  exact ⟨trivial, Cells.get_put_other _ _ _ _ _ hlayer.symm, rfl, rfl, rfl⟩

theorem writeDegraded_of_regs {c c' : Chip} (h : c'.regs = c.regs) (p : Nat) : c'.writeDegraded p = c.writeDegraded p := by
  rw [Chip.writeDegraded, Chip.writeDegraded, flag_eq_of_fld (fld_of_regs h _), flag_eq_of_fld (fld_of_regs h _)]

/-- An update whose last layer, 0, has room begins with the records of a layer that has. -/
theorem mgmtNext_records {p n : Nat} {layers : List Nat} {c : Chip} {u : MgmtUpd} (hlen : layers.length < n) (hu : (c.vol p).mgmt = some u)
    (hlayers : u.layers = layers ++ [0]) (hne : ∀ l ∈ layers, l ≠ 0) (hgood : c.writeDegraded p = false) (hroom : ((c.vol p).layer 0).due.2 < 1024) :
    Recording p u c (c.mgmtNext p n) := by
  induction layers generalizing n c u with
  | nil =>
    obtain ⟨k, rfl⟩ := Nat.exists_eq_succ_of_ne_zero (Nat.ne_of_gt hlen)
    exact mgmtNext_takes hu hlayers hgood hroom
  | cons layer layers ih =>
    obtain ⟨k, rfl⟩ := Nat.exists_eq_succ_of_ne_zero (Nat.ne_of_gt (Nat.zero_lt_of_lt hlen))
    by_cases hfull : 1024 ≤ ((c.vol p).layer layer).due.2
    · obtain ⟨hlayer, hne'⟩ := List.forall_mem_cons.1 hne
      rw [mgmtNext_skips hu hlayers hgood hfull hlayer]
      obtain ⟨hu', hroom', hwch, hregs, hhost⟩ := layerSkipped_spec c p u (layers ++ [0]) hlayer
      obtain ⟨hupdate, hitems, hregs', hhost'⟩ := ih (Nat.lt_of_succ_lt_succ hlen) hu' rfl hne' ((writeDegraded_of_regs hregs p).trans hgood)
        (by rw [hroom']; exact hroom)
      exact ⟨hupdate, hitems.trans (by rw [hwch]), hregs'.trans hregs, hhost'.trans hhost⟩
    · exact mgmtNext_takes hu hlayers hgood (Nat.lt_of_not_le hfull)

/-- A volume's update begins with the records of a layer. -/
theorem startUpdate_records {c : Chip} {p : Nat} (uid : Nat) (closing : Bool) (hmgmt : (c.vol p).mgmt = none) (hgood : c.writeDegraded p = false)
    (hroom : ((c.vol p).layer 0).due.2 < 1024) :
    (∃ u, ((c.startUpdate p uid closing).vol p).mgmt = some u ∧ u.uids = [uid] ∧ u.closing = closing ∧ u.left = 64 ∧ u.bad = false) ∧
      ((c.startUpdate p uid closing).wch p).items.length = (c.wch p).items.length + 64 ∧ (c.startUpdate p uid closing).regs = c.regs ∧
      (c.startUpdate p uid closing).host = c.host := by
  unfold Chip.startUpdate
  rw [hmgmt]
  dsimp only
  generalize hdue : ((List.range 9).map (· + 1) |>.filter fun l => ((c.vol p).layer l).dirty && ((c.vol p).layer l).valid && !((c.vol p).layer l).readOnly) = due
  have hlen : due.length < 11 := by
    rw [← hdue]
    exact Nat.lt_of_le_of_lt (List.length_filter_le _ _) (by decide)
  have hne : ∀ l ∈ due, l ≠ 0 := by
    rw [← hdue]
    intro l hl
    obtain ⟨k, -, rfl⟩ := List.mem_map.1 (List.mem_filter.1 hl).1
    omega
  generalize hupd : ({ layers := due ++ [0], uids := [uid], closing := closing } : MgmtUpd) = u
  have h := mgmtNext_records (c := c.setVol p { c.vol p with mgmt := some u }) hlen (by rw [vol_setVol]) (by rw [← hupd]) hne hgood
    (by rw [vol_setVol]; exact hroom)
  obtain ⟨u', hu', huids, hclosing, hleft, hbad⟩ := h.update
  exact ⟨⟨u', hu', by rw [huids, ← hupd], by rw [hclosing, ← hupd], hleft, hbad⟩, h.items, h.regs, h.host⟩

/-! ### The step of a volume whose one command ends it -/

section
variable {c : Chip} {p : Nat} {y : Cmd}

/-- With no FLUSH in the device, none is settled. -/
theorem settleFlushes_alone (h : ∀ x ∈ c.host.cmds, x.opcode ≠ opFlush) : c.settleFlushes = c := by
  have hnone : c.host.cmds.filter (fun m => m.opcode == opFlush && m.started && m.status.isNone && m.wait != .engine) = [] :=
    List.filter_eq_nil_iff.2 fun x hx => by simp [h x hx]
  rw [Chip.settleFlushes, hnone, List.foldl_nil]

/-- No FLUSH of a volume waits for its drain. -/
theorem drained_alone (h : ∀ x ∈ c.host.cmds, x.opcode ≠ opFlush) (p : Nat) :
    c.host.cmds.filter (fun m => m.volume == p && m.opcode == opFlush && m.started && m.wait == .drain && m.ended.isSome) = [] :=
  List.filter_eq_nil_iff.2 fun x hx => by simp [h x hx]

/-- A volume that a CLOSE ends. -/
theorem volStep_closes (h : ∀ x ∈ c.host.cmds, x.opcode ≠ opFlush) (hclose : c.endingCmd p opClose = some y)
    (hunmount : (c.closeStep p y).endingCmd p opUnmount = none) : ∃ b, c.volStep p = (c.closeStep p y).setBoot b := by
  rw [Chip.volStep, drained_alone h, List.foldl_nil]
  simp only [settleFlushes_alone h, hclose, hunmount]
  split
  · exact journalSettle_boot _ _
  · exact ⟨_, rfl⟩

/-- A volume that an UNMOUNT ends. -/
theorem volStep_unmounts (h : ∀ x ∈ c.host.cmds, x.opcode ≠ opFlush) (hclose : c.endingCmd p opClose = none) (hunmount : c.endingCmd p opUnmount = some y) :
    ∃ b, c.volStep p = (c.unmountStep p y).setBoot b := by
  rw [Chip.volStep, drained_alone h, List.foldl_nil]
  simp only [settleFlushes_alone h, hclose, hunmount]
  split
  · exact journalSettle_boot _ _
  · exact ⟨_, rfl⟩

end

/-! ### The one command of the device -/

section
variable {c : Chip} {m y : Cmd}

theorem cmds_begin_alone (h : c.host.cmds = [m]) : (c.begin m).host.cmds = [{ m with started := true }] := by
  obtain ⟨ws, cis, n, heq⟩ := begin_eq c m
  rw [heq]
  show changed c.host.cmds m.uid _ = _
  rw [h]
  exact congrArg (fun x => [x]) (if_pos rfl)

theorem cmds_updCmd_alone (h : c.host.cmds = [y]) (f : Cmd → Cmd) : (c.updCmd y.uid f).host.cmds = [f y] := by
  show c.host.cmds.map _ = _
  rw [h]
  exact congrArg (fun x => [x]) (if_pos rfl)

theorem endingCmd_alone (h : c.host.cmds = [y]) (hstarted : y.started = true) (hopen : y.status = none) (hwait : y.wait = .drain) :
    c.endingCmd y.volume y.opcode = some y := by
  simp [Chip.endingCmd, h, hstarted, hopen, hwait]

theorem endingCmd_other (h : c.host.cmds = [y]) {op : Nat} (hop : y.opcode ≠ op) (p : Nat) : c.endingCmd p op = none := by
  simp [Chip.endingCmd, h, hop]

theorem cmd_alone (h : c.host.cmds = [y]) : c.cmd y.uid = some y := by simp [Chip.cmd, h]

end

/-! ### CLOSE_VOLUME -/

section
variable {s : State} {n tag : Nat} {m : Cmd}

theorem mounted_of_write {c : Chip} {p : Nat} (h : c.volState p = vMountedWrite) : c.mounted p = true ∧ c.forWriting p = true := by
  simp [Chip.mounted, Chip.forWriting, h]

/-- A CLOSE of a volume mounted for writing is decided by whether the volume is closed. -/
theorem closeVolume_eq (h : Startable s.chip n tag opClose m) (hup : s.chip.flag FLM_STATUS_UP = true) (hpll : s.chip.afe.failed = false)
    (hvol : s.chip.volState m.volume = vMountedWrite) : exec (.closeVolume n tag) s = s.on fun c =>
      if (c.vol m.volume).closed then (c.begin m).finishS m.uid stOk
      else ((c.begin m).updCmd m.uid fun m => { m with wait := .drain, acted := true }).volStep m.volume := by
  have hbegan := began h
  have hvol' : (s.chip.begin m).volState m.volume = vMountedWrite := (fld_of_regs hbegan.regs _).trans hvol
  obtain ⟨hmounted, hwriting⟩ := mounted_of_write hvol'
  have hgate : (s.chip.begin m).volumeGate m = none := by simp [Chip.volumeGate, hmounted]
  have hready : (s.chip.begin m).stationsOut = false := by
    have hpll' : (s.chip.begin m).afe.failed = false := (congrArg (·.afe.failed) hbegan.table).trans hpll
    rw [Chip.stationsOut, flag_eq_of_fld (fld_of_regs hbegan.regs _), hup, hpll']
    rfl
  have hclosed : (s.chip.begin m).vol m.volume = s.chip.vol m.volume := by rw [show s.chip.begin m = _ from hbegan.table]; rfl
  show execCloseVolume n tag s = _
  simp only [execCloseVolume, State.on, h.run, hgate, hready, hclosed, hwriting, Bool.false_eq_true, if_false, Bool.not_true]

theorem completes_closed (h : Startable s.chip n tag opClose m) (hup : s.chip.flag FLM_STATUS_UP = true) (hpll : s.chip.afe.failed = false)
    (hvol : s.chip.volState m.volume = vMountedWrite) (hclosed : (s.chip.vol m.volume).closed = true) :
    Completes (.closeVolume n tag) s fun c => Ends c m stOk 0 0 0 ∧ HostOnly s.chip c := by
  refine completes_on (closeVolume_eq h hup hpll hvol) ?_
  rw [if_pos hclosed]
  exact ⟨ends_begun h (began h).cmd .., ((began h).table.finish ..).hostOnly⟩

/-- A CLOSE with nothing left to record begins the update of the management areas. -/
theorem closeStep_updates {c : Chip} {p : Nat} {y : Cmd} (hcmds : c.host.cmds = [y]) (hended : y.ended = none) (hstaged : c.buf.staged = [])
    (hmgmt : (c.vol p).mgmt = none) (hparity : c.parityLeft p = false) (hgood : c.writeDegraded p = false) (hroom : ((c.vol p).layer 0).due.2 < 1024) :
    c.closeStep p y = c.startUpdate p y.uid true := by
  obtain ⟨-, -, -, hhost⟩ := startUpdate_records y.uid true hmgmt hgood hroom
  have hlive : ((c.startUpdate p y.uid true).cmd y.uid).bind (·.ended) = none := by
    rw [Chip.cmd, hhost, ← Chip.cmd, cmd_alone hcmds, Option.bind_some, hended]
  unfold Chip.closeStep
  simp only [hended, Chip.toRecord, Chip.stagedOf, hstaged, List.filter_nil, hmgmt, hparity, hlive, Option.isSome_none, Bool.false_eq_true, ne_eq,
    not_true_eq_false, or_self, if_false, false_and]

theorem completes_closes (h : Startable s.chip n tag opClose m) (hup : s.chip.flag FLM_STATUS_UP = true) (hpll : s.chip.afe.failed = false)
    (hvol : s.chip.volState m.volume = vMountedWrite) (hcmds : s.chip.host.cmds = [m]) (hstaged : s.chip.buf.staged = []) (hended : m.ended = none)
    (hopen : (s.chip.vol m.volume).closed = false) (hmgmt : (s.chip.vol m.volume).mgmt = none) (hparity : s.chip.parityLeft m.volume = false)
    (hgood : s.chip.writeDegraded m.volume = false) (hroom : ((s.chip.vol m.volume).layer 0).due.2 < 1024) :
    Completes (.closeVolume n tag) s fun c =>
      (∃ u, (c.vol m.volume).mgmt = some u ∧ u.uids = [m.uid] ∧ u.closing = true ∧ u.left = 64 ∧ u.bad = false) ∧
      (c.wch m.volume).items.length = (s.chip.wch m.volume).items.length + 64 ∧
      (∃ y, c.cmd m.uid = some y ∧ y.status = none ∧ y.wait = .drain) ∧ c.regs = s.chip.regs := by
  refine completes_on (closeVolume_eq h hup hpll hvol) ?_
  rw [if_neg (by simp [hopen])]
  have hbegan := began h
  have hcmds' := cmds_updCmd_alone (y := { m with started := true }) (cmds_begin_alone hcmds) fun m => { m with wait := .drain, acted := true }
  have hregs : ((s.chip.begin m).updCmd m.uid fun m => { m with wait := .drain, acted := true }).regs = s.chip.regs := hbegan.regs
  have hservo : ((s.chip.begin m).updCmd m.uid fun m => { m with wait := .drain, acted := true }).servo = s.chip.servo := congrArg (·.servo) hbegan.table
  have hbegin := begin_eq s.chip m
  have hpath : ((s.chip.begin m).updCmd m.uid fun m => { m with wait := .drain, acted := true }).path = s.chip.path := by
    obtain ⟨ws, cis, k, heq⟩ := hbegin
    rw [heq]
    rfl
  have hbuf : ((s.chip.begin m).updCmd m.uid fun m => { m with wait := .drain, acted := true }).buf = s.chip.buf := by
    obtain ⟨ws, cis, k, heq⟩ := hbegin
    rw [heq]
    rfl
  change ((s.chip.begin m).updCmd m.uid fun m => { m with wait := .drain, acted := true }).host.cmds = _ at hcmds'
  generalize (s.chip.begin m).updCmd m.uid (fun m => { m with wait := .drain, acted := true }) = e at hcmds' hregs hservo hpath hbuf
  generalize hy : ({ m with started := true, wait := .drain, acted := true } : Cmd) = y at hcmds'
  have huid : y.uid = m.uid := by rw [← hy]
  have hop : y.opcode = opClose := by rw [← hy]; exact h.opcode
  have hv (p : Nat) : e.vol p = s.chip.vol p := by rw [Chip.vol, hservo, Chip.vol]
  have hw (p : Nat) : e.wch p = s.chip.wch p := by rw [Chip.wch, hpath, Chip.wch]
  have hgood' := (writeDegraded_of_regs hregs m.volume).trans hgood
  have hstep := closeStep_updates (p := m.volume) hcmds' (by rw [← hy]; exact hended) (by rw [hbuf, hstaged]) (by rw [hv, hmgmt])
    (by rw [Chip.parityLeft, hpath]; exact hparity) hgood' (by rw [hv]; exact hroom)
  obtain ⟨hupdate, hitems, hregs', hhost⟩ := startUpdate_records (c := e) (p := m.volume) y.uid true (by rw [hv, hmgmt]) hgood' (by rw [hv]; exact hroom)
  have hflush : ∀ x ∈ e.host.cmds, x.opcode ≠ opFlush := by
    rw [hcmds']
    intro x hx
    rw [List.mem_singleton.1 hx, hop]
    decide
  have hclose := endingCmd_alone hcmds' (by rw [← hy]) (by rw [← hy]; exact h.status) (by rw [← hy])
  rw [hop, show y.volume = m.volume by rw [← hy]] at hclose
  obtain ⟨b, heq⟩ := volStep_closes hflush hclose (by
    rw [hstep]
    exact endingCmd_other (by rw [hhost, hcmds']) (by rw [hop]; decide) _)
  rw [heq, hstep]
  refine ⟨by rw [← huid]; exact hupdate, hitems.trans (by rw [hw]), ⟨y, ?_, by rw [← hy]; exact h.status, by rw [← hy]⟩, hregs'.trans hregs⟩
  rw [← huid]
  exact cmd_alone (c := (e.startUpdate m.volume y.uid true).setBoot b) (by rw [← hcmds', ← hhost]; rfl)

end

end Sys2Proof.Machine
end

section
/-! UNMOUNT of the last mounted volume of a station whose pickups are idle (R359, R365). -/

namespace Sys2Proof.Machine

/-! ### Volumes that a park ends -/

theorem volState_apart_parkFields {p q : Nat} (h : p ≠ q) : ∀ g ∈ parkFields q, apart (WMM_STN_PU_VOLUME_STATE (p / 2) (p % 2)) g := by
  simp only [parkFields, List.forall_mem_cons, List.not_mem_nil, false_imp_iff, implies_true, and_true, apart, WMM_STN_PU_VOLUME_STATE, WCH_CTRL_EN,
    WMM_STN_PU_LAYER_UNUSABLE, LE_PAIR_EVENT_CMD_LOST, WMM_STN_PU, WCH_CTRL, LE_PAIR_EVENT]
  omega

/-- The fields that the end of a volume writes besides its state. -/
theorem volState_apart_own (p : Nat) : apart (WMM_STN_PU_VOLUME_STATE (p / 2) (p % 2)) (WCH_CTRL_EN p) ∧
    apart (WMM_STN_PU_VOLUME_STATE (p / 2) (p % 2)) (WMM_STN_PU_LAYER_UNUSABLE (p / 2) (p % 2)) ∧
    apart (WMM_STN_PU_VOLUME_STATE (p / 2) (p % 2)) (LE_PAIR_EVENT_CMD_LOST p) := by
  simp only [apart, WMM_STN_PU_VOLUME_STATE, WCH_CTRL_EN, WMM_STN_PU_LAYER_UNUSABLE, LE_PAIR_EVENT_CMD_LOST, WMM_STN_PU, WCH_CTRL, LE_PAIR_EVENT]
  omega

theorem volState_apart_step (p n : Nat) : apart (WMM_STN_PU_VOLUME_STATE (p / 2) (p % 2)) (WMM_STN_STATE_MOUNT_STEP n) :=
  apart_of_reg (by simp only [WMM_STN_PU_VOLUME_STATE, WMM_STN_PU, WMM_STN_STATE_MOUNT_STEP, WMM_STN_STATE]; omega)

section
variable {c : Chip} {p : Nat}

theorem volState_setFld_apart {f : Fld} (h : apart (WMM_STN_PU_VOLUME_STATE (p / 2) (p % 2)) f) (v : Nat) : (c.setFld f v).volState p = c.volState p :=
  fld_setFld_apart _ _ _ _ (Nat.le_of_ble_eq_true rfl) h

theorem volState_endWriting (h : ∀ x ∈ c.host.cmds, ParkSpares x) : (c.endWriting p).volState p = c.volState p := by
  unfold Chip.endWriting
  split
  · rfl
  · rw [settleFlushes_spared (by exact h)]
    exact volState_setFld_apart (volState_apart_own p).1 _

theorem volState_dropVolume (h : ∀ x ∈ c.host.cmds, ParkSpares x) (hresults : (c.wch p).results = []) : (c.dropVolume p).volState p = vNotMounted := by
  unfold Chip.dropVolume
  simp only [hresults, List.filter_nil, List.foldl_nil]
  have hspared : ∀ x ∈ (c.setWch p { c.wch p with items := [], results := [], queued := none, relocs := [] }).host.cmds, ParkSpares x := h
  generalize c.setWch p { c.wch p with items := [], results := [], queued := none, relocs := [] } = d at hspared
  have hset : ((d.unhand (d.discOf p)).setVolState p vNotMounted).volState p = vNotMounted :=
    (volState_endWriting (c := (d.unhand (d.discOf p)).setFld (WMM_STN_PU_VOLUME_STATE (p / 2) (p % 2)) vNotMounted) (p := p) hspared).trans
      (fld_setFld_same _ _ _ (Nat.le_of_ble_eq_true rfl))
  generalize (d.unhand (d.discOf p)).setVolState p vNotMounted = e at hset
  have hmark := volState_setFld_apart (c := e.setVol p { volumeId := (c.vol p).volumeId, side := (c.vol p).side, ever := (c.vol p).ever })
    (volState_apart_own p).2.1 0
  exact hmark.trans hset

theorem volState_parkPickup (h : ParkIdle c p) (cause : Nat) : (c.parkPickup p cause).volState p = vNotMounted := by
  obtain ⟨d, heq, hwork, hresults⟩ := parkPickup_idle h cause
  have hspared : ∀ x ∈ d.host.cmds, ParkSpares x := by
    rw [hwork.cmds]
    exact h.cmds
  rw [heq]
  refine Eq.trans ?_ (volState_dropVolume hspared hresults)
  exact fieldsKept_pushCmd _ _ _ _ _ (Nat.le_of_ble_eq_true rfl) (by simpa using (volState_apart_own p).2.2)

theorem PickupWork.volState {q : Nat} {c' : Chip} (h : PickupWork q c c') (hp : p ≠ q) : c'.volState p = c.volState p :=
  h.kept _ (Nat.le_of_ble_eq_true rfl) (volState_apart_parkFields hp)

end

/-- The station's part of a park leaves the commands and what waits for the station. -/
theorem parkBegun_left {c : Chip} {n cause : Nat} (hcause : cause < 32) :
    (c.parkBegun n cause).host.cmds = c.host.cmds ∧ ((c.parkBegun n cause).stn n).waiters = (c.stn n).waiters := by
  have hchanged := stateChanged (c.journal actPark n) n (new := sParking) (cause := cause) (by decide) hcause
  have hhost : ((c.journal actPark n).changeState n sParking cause).host.cmds = c.host.cmds := by rw [hchanged.host, journal_cmds]
  have hstn : (((c.journal actPark n).changeState n sParking cause).stn n).waiters = (c.stn n).waiters := by
    rw [hchanged.stn, Chip.stn, journal_servo, Chip.stn]
  unfold Chip.parkBegun
  generalize (c.journal actPark n).changeState n sParking cause = d at hhost hstn
  exact ⟨hhost, (congrArg StationRec.waiters (stn_setStn ..)).trans hstn⟩

/-- A park of a station with idle pickups ends its volumes; the commands and what waits for the station stay. -/
theorem park_idle_volumes {c : Chip} {n cause : Nat} (hcause : cause < 32) (hst : c.stState n = sMounted) (hidle : ∀ p, p / 2 = n → ParkIdle c p) :
    (∀ p, p / 2 = n → (c.park n cause).volState p = vNotMounted) ∧ (c.park n cause).host.cmds = c.host.cmds ∧
      ((c.park n cause).stn n).waiters = (c.stn n).waiters := by
  obtain ⟨hcmds, hwaiters⟩ := parkBegun_left (c := c) (n := n) hcause
  have hidle₀ := parkIdle_begun (n := n) hcause (hidle (2 * n) (by omega))
  have hidle₁ := parkIdle_begun (n := n) hcause (hidle (2 * n + 1) (by omega))
  rw [park_begins (by simp [hst]), List.foldl_cons, List.foldl_cons, List.foldl_nil]
  generalize c.parkBegun n cause = d at hcmds hwaiters hidle₀ hidle₁
  have hwork₀ := pickupWork_park hidle₀ cause
  have hidle₁' := hwork₀.idle (by omega) hidle₁
  have hwork₁ := pickupWork_park hidle₁' cause
  have hvol₀ := (hwork₁.volState (p := 2 * n) (by omega)).trans (volState_parkPickup hidle₀ cause)
  have hvol₁ := volState_parkPickup hidle₁' cause
  obtain ⟨v, hshow⟩ := showStep_eq ((d.parkPickup (2 * n) cause).parkPickup (2 * n + 1) cause) n
  rw [hshow]
  generalize (d.parkPickup (2 * n) cause).parkPickup (2 * n + 1) cause = e at hwork₁ hvol₀ hvol₁
  refine ⟨fun p hp => ?_, (hwork₁.cmds.trans hwork₀.cmds).trans hcmds, ?_⟩
  · rw [volState_setFld_apart (volState_apart_step p n)]
    obtain rfl | rfl : p = 2 * n ∨ p = 2 * n + 1 := by omega
    · exact hvol₀
    · exact hvol₁
  · rw [← hwaiters]
    show (Cells.get _ e.servo.stations n).waiters = _
    rw [hwork₁.stn, hwork₀.stn]
    rfl

/-! ### UNMOUNT -/

section
variable {s : State} {n tag : Nat} {m : Cmd}

/-- An UNMOUNT waits for the end of its volume while the station can be used. -/
theorem unmount_eq (h : Startable s.chip n tag opUnmount m) (hup : s.chip.flag FLM_STATUS_UP = true) (hpll : s.chip.afe.failed = false) :
    exec (.unmount n tag) s = s.on fun c => ((c.begin m).updCmd m.uid fun m => { m with wait := .drain, acted := true }).volStep m.volume := by
  have hbegan := began h
  have hready : (s.chip.begin m).stationsOut = false := by
    have hpll' : (s.chip.begin m).afe.failed = false := (congrArg (·.afe.failed) hbegan.table).trans hpll
    rw [Chip.stationsOut, flag_eq_of_fld (fld_of_regs hbegan.regs _), hup, hpll']
    rfl
  show execUnmount n tag s = _
  simp only [execUnmount, State.on, h.run, hready, Bool.false_eq_true, if_false]

end

section
variable {c : Chip} {p : Nat} {y : Cmd}

/-- The machine of which the station parks: the volume is left, and the UNMOUNT waits for the park. -/
def Chip.volumeLeft (c : Chip) (p : Nat) (y : Cmd) : Chip :=
  let d := (c.setFld (WMM_STN_PU_VOLUME_STATE (p / 2) (p % 2)) vUnmounting).updCmd y.uid fun x => { x with wait := .station, ended := some stOk }
  d.setStn (p / 2) { d.stn (p / 2) with waiters := (d.stn (p / 2)).waiters ++ [y.uid] }

/-- The UNMOUNT of the last volume that is mounted, for reading, parks the station. -/
theorem unmountStep_parks (hcmds : c.host.cmds = [y]) (hended : y.ended = none) (hop : y.opcode ≠ opFlush) (hstaged : c.buf.staged = [])
    (hvol : c.volState p = vMountedRead) (hwriting : (c.vol p).writing = false)
    (hother : c.volState (if p % 2 = 0 then p + 1 else p - 1) = vNotMounted) :
    c.unmountStep p y = (c.volumeLeft p y).park (p / 2) cauUnmount := by
  have hearlier : c.earlierOn y = false := by simp [Chip.earlierOn, hcmds]
  have hmounted : c.mounted p = true := by simp [Chip.mounted, hvol]
  have hset : c.setVolState p vUnmounting = c.setFld (WMM_STN_PU_VOLUME_STATE (p / 2) (p % 2)) vUnmounting := rfl
  have hother' : (c.setFld (WMM_STN_PU_VOLUME_STATE (p / 2) (p % 2)) vUnmounting).volState (if p % 2 = 0 then p + 1 else p - 1) = vNotMounted := by
    refine (fld_setFld_apart _ _ _ _ (Nat.le_of_ble_eq_true rfl) (apart_of_reg ?_)).trans hother
    simp only [WMM_STN_PU_VOLUME_STATE, WMM_STN_PU]
    split <;> omega
  have hflush : ∀ x ∈ (c.setFld (WMM_STN_PU_VOLUME_STATE (p / 2) (p % 2)) vUnmounting).host.cmds, x.opcode ≠ opFlush := by
    intro x hx
    have hx' : x ∈ c.host.cmds := hx
    rw [hcmds] at hx'
    rwa [List.mem_singleton.1 hx']
  have hheld : (c.setFld (WMM_STN_PU_VOLUME_STATE (p / 2) (p % 2)) vUnmounting).reportHeld p =
      (false, c.setFld (WMM_STN_PU_VOLUME_STATE (p / 2) (p % 2)) vUnmounting) := by
    have hnone (d : Nat × Nat) : (c.setFld (WMM_STN_PU_VOLUME_STATE (p / 2) (p % 2)) vUnmounting).stagedOf d = [] := by
      show c.buf.staged.filter _ = []
      rw [hstaged, List.filter_nil]
    simp [Chip.reportHeld, hnone, settleFlushes_alone hflush]
  have hwriting' : ((c.setFld (WMM_STN_PU_VOLUME_STATE (p / 2) (p % 2)) vUnmounting).vol p).writing = false := hwriting
  unfold Chip.unmountStep
  simp only [hearlier, hmounted, hended, hset, hwriting', Bool.true_or, Bool.not_true, Bool.not_false, Bool.false_eq_true, if_false, if_true]
  unfold Chip.leaveVolume
  simp only [hheld, Bool.false_eq_true, and_false, if_false]
  exact if_neg fun h => h hother'

/-- What the park of the station finds. -/
theorem volumeLeft_idle (_hp : p < 16) (hcmds : c.host.cmds = [y]) (hop : y.opcode = opUnmount) (hstaged : c.buf.staged = []) {q : Nat}
    (hpass : (c.wch q).pass = none) (hqueued : (c.wch q).queued = none) (hresults : (c.wch q).results = []) (hcycle : c.fld (CAL_PU_STATUS_CYCLE q) = 0)
    (hacq : (c.cal q).acqBy = none) (hreqs : (c.frm q).reqs = []) (hretry : (c.frm q).retry = none) (hqual : (c.vol q).qual = none) :
    ParkIdle (c.volumeLeft p y) q where
  pass := hpass
  queued := hqueued
  results := hresults
  cal := by
    refine ⟨(fld_setFld_apart c _ _ _ (Nat.le_of_ble_eq_true rfl) (apart_of_reg ?_)).trans hcycle, hacq⟩
    simp only [CAL_PU_STATUS_CYCLE, CAL_PU_STATUS, WMM_STN_PU_VOLUME_STATE, WMM_STN_PU]
    omega
  reqs := hreqs
  retry := hretry
  qual := hqual
  cmds := by
    have hleft : (c.volumeLeft p y).host.cmds = [{ y with wait := .station, ended := some stOk }] :=
      cmds_updCmd_alone (c := c.setFld (WMM_STN_PU_VOLUME_STATE (p / 2) (p % 2)) vUnmounting) hcmds _
    rw [hleft]
    intro x hx
    rw [List.mem_singleton.1 hx]
    simp [ParkSpares, hop, opUnmount, opWrite, opFlush, opClose]
  staged := hstaged

/-- The UNMOUNT that ends the last volume of an idle station. -/
theorem unmountStep_spec (hp : p < 16) (hcmds : c.host.cmds = [y]) (hop : y.opcode = opUnmount) (hended : y.ended = none) (hstaged : c.buf.staged = [])
    (hvol : c.volState p = vMountedRead) (hwriting : (c.vol p).writing = false)
    (hother : c.volState (if p % 2 = 0 then p + 1 else p - 1) = vNotMounted) (hst : c.stState (p / 2) = sMounted)
    (hidle : ∀ q, q / 2 = p / 2 → (c.wch q).pass = none ∧ (c.wch q).queued = none ∧ (c.wch q).results = [] ∧ c.fld (CAL_PU_STATUS_CYCLE q) = 0 ∧
      (c.cal q).acqBy = none ∧ (c.frm q).reqs = [] ∧ (c.frm q).retry = none ∧ (c.vol q).qual = none) :
    (c.unmountStep p y).stState (p / 2) = sParking ∧ (c.unmountStep p y).fld (WMM_STN_STATE_CAUSE (p / 2)) = cauUnmount ∧
      (c.unmountStep p y).volState p = vNotMounted ∧ ((c.unmountStep p y).stn (p / 2)).waiters = (c.stn (p / 2)).waiters ++ [y.uid] ∧
      (c.unmountStep p y).host.cmds = [{ y with wait := .station, ended := some stOk }] := by
  rw [unmountStep_parks hcmds hended (by rw [hop]; decide) hstaged hvol hwriting hother]
  have hst' : (c.volumeLeft p y).stState (p / 2) = sMounted :=
    (fld_setFld_apart c _ _ _ (Nat.le_of_ble_eq_true rfl) (apart_of_reg (by
      simp only [WMM_STN_STATE_STATE, WMM_STN_STATE, WMM_STN_PU_VOLUME_STATE, WMM_STN_PU]; omega))).trans hst
  have hidle' (q : Nat) (hq : q / 2 = p / 2) : ParkIdle (c.volumeLeft p y) q := by
    obtain ⟨hpass, hqueued, hresults, hcycle, hacq, hreqs, hretry, hqual⟩ := hidle q hq
    exact volumeLeft_idle hp hcmds hop hstaged hpass hqueued hresults hcycle hacq hreqs hretry hqual
  have hwaiters : ((c.volumeLeft p y).stn (p / 2)).waiters = (c.stn (p / 2)).waiters ++ [y.uid] := congrArg StationRec.waiters (stn_setStn ..)
  have hleft : (c.volumeLeft p y).host.cmds = [{ y with wait := .station, ended := some stOk }] :=
    cmds_updCmd_alone (c := c.setFld (WMM_STN_PU_VOLUME_STATE (p / 2) (p % 2)) vUnmounting) hcmds _
  generalize c.volumeLeft p y = d at hst' hidle' hwaiters hleft
  have hcause : cauUnmount < 32 := by decide
  obtain ⟨⟨hstate, -, hshown, -⟩, -⟩ := parked_idle hcause hst' hidle'
  obtain ⟨hvols, hcmds', hwaiters'⟩ := park_idle_volumes hcause hst' hidle'
  exact ⟨hstate, hshown, hvols p rfl, hwaiters'.trans hwaiters, hcmds'.trans hleft⟩

end

section
variable {s : State} {n tag : Nat} {m : Cmd}

theorem completes_unmount (h : Startable s.chip n tag opUnmount m) (hup : s.chip.flag FLM_STATUS_UP = true) (hpll : s.chip.afe.failed = false)
    (hp : m.volume < 16) (hcmds : s.chip.host.cmds = [m]) (hstaged : s.chip.buf.staged = []) (hended : m.ended = none)
    (hvol : s.chip.volState m.volume = vMountedRead) (hwriting : (s.chip.vol m.volume).writing = false)
    (hother : s.chip.volState (if m.volume % 2 = 0 then m.volume + 1 else m.volume - 1) = vNotMounted) (hst : s.chip.stState (m.volume / 2) = sMounted)
    (hidle : ∀ q, q / 2 = m.volume / 2 → (s.chip.wch q).pass = none ∧ (s.chip.wch q).queued = none ∧ (s.chip.wch q).results = [] ∧
      s.chip.fld (CAL_PU_STATUS_CYCLE q) = 0 ∧ (s.chip.cal q).acqBy = none ∧ (s.chip.frm q).reqs = [] ∧ (s.chip.frm q).retry = none ∧
      (s.chip.vol q).qual = none) : Completes (.unmount n tag) s fun c =>
      c.stState (m.volume / 2) = sParking ∧ c.fld (WMM_STN_STATE_CAUSE (m.volume / 2)) = cauUnmount ∧ c.volState m.volume = vNotMounted ∧
      (c.stn (m.volume / 2)).waiters = (s.chip.stn (m.volume / 2)).waiters ++ [m.uid] ∧
      (∃ y, c.cmd m.uid = some y ∧ y.status = none ∧ y.ended = some stOk) := by
  refine completes_on (unmount_eq h hup hpll) ?_
  have hcmds' := cmds_updCmd_alone (y := { m with started := true }) (cmds_begin_alone hcmds) fun m => { m with wait := .drain, acted := true }
  change ((s.chip.begin m).updCmd m.uid fun m => { m with wait := .drain, acted := true }).host.cmds = _ at hcmds'
  obtain ⟨ws, cis, k, cmds, hsame⟩ : ∃ ws cis k cmds, (s.chip.begin m).updCmd m.uid (fun m => { m with wait := .drain, acted := true }) =
      s.chip.withCmds ws cis k cmds := by
    obtain ⟨ws, cis, k, heq⟩ := begin_eq s.chip m
    exact ⟨ws, cis, k, _, by rw [heq]; rfl⟩
  rw [hsame] at hcmds' ⊢
  generalize hy : ({ m with started := true, wait := .drain, acted := true } : Cmd) = y at hcmds'
  have hop : y.opcode = opUnmount := by rw [← hy]; exact h.opcode
  have hopen : y.status = none := by rw [← hy]; exact h.status
  have hflush : ∀ x ∈ (s.chip.withCmds ws cis k cmds).host.cmds, x.opcode ≠ opFlush := by
    rw [hcmds']
    intro x hx
    rw [List.mem_singleton.1 hx, hop]
    decide
  have hunmount := endingCmd_alone hcmds' (by rw [← hy]) hopen (by rw [← hy])
  rw [hop, show y.volume = m.volume by rw [← hy]] at hunmount
  obtain ⟨b, heq⟩ := volStep_unmounts hflush (endingCmd_other hcmds' (by rw [hop]; decide) _) hunmount
  obtain ⟨hstate, hcause, hleft, hwaiters, hend⟩ := unmountStep_spec (c := s.chip.withCmds ws cis k cmds) hp hcmds' hop (by rw [← hy]; exact hended)
    hstaged hvol hwriting hother hst hidle
  rw [heq]
  generalize (s.chip.withCmds ws cis k cmds).unmountStep m.volume y = e at hstate hcause hleft hwaiters hend
  refine ⟨hstate, hcause, hleft, ?_, { y with wait := .station, ended := some stOk }, ?_, hopen, rfl⟩
  · rw [show m.uid = y.uid by rw [← hy]]
    exact hwaiters
  · rw [show m.uid = y.uid by rw [← hy]]
    exact cmd_alone (c := e.setBoot b) (y := { y with wait := .station, ended := some stOk }) hend

end

end Sys2Proof.Machine
end

section
/-! MOUNT of a volume of a station with its disc in place (R359, R360). -/

namespace Sys2Proof.Machine

/-! ### The entry of one command, while others end -/

/-- The command `uid` stays in the table, but that its completion may have entered the path. -/
def KeepsCmd (uid : Nat) (c c' : Chip) : Prop := ∀ x, c.cmd uid = some x → ∃ b, c'.cmd uid = some { x with inPath := b }

section
variable {uid : Nat} {a b c : Chip}

theorem KeepsCmd.trans (h : KeepsCmd uid a b) (h' : KeepsCmd uid b c) : KeepsCmd uid a c := fun x hx => by
  obtain ⟨i, hi⟩ := h x hx
  obtain ⟨j, hj⟩ := h' _ hi
  exact ⟨j, hj⟩

theorem keepsCmd_of_cmds (h : c.host.cmds = a.host.cmds) : KeepsCmd uid a c := fun x hx => ⟨x.inPath, by rwa [Chip.cmd, h]⟩

/-- A change of another command's entry. -/
theorem cmd_updCmd_other {u : Nat} (h : u ≠ uid) {f : Cmd → Cmd} (hf : ∀ m : Cmd, (f m).uid = m.uid) : (c.updCmd u f).cmd uid = c.cmd uid := by
  have hcomp : ((fun m : Cmd => m.uid == uid) ∘ fun m : Cmd => if m.uid = u then f m else m) = fun m => m.uid == uid := by
    funext m
    simp only [Function.comp_apply]
    split
    · rw [hf]
    · rfl
  show (c.host.cmds.map _).find? _ = _
  rw [List.find?_map, hcomp, Chip.cmd]
  cases hx : c.host.cmds.find? fun m => m.uid == uid with
  | none => rfl
  | some x =>
    have hxu : x.uid = uid := by simpa using List.find?_some hx
    rw [Option.map_some, if_neg (by rw [hxu]; exact h.symm)]

theorem cmd_dropCmd_other {m : Cmd} (h : m.uid ≠ uid) : (c.dropCmd m).cmd uid = c.cmd uid := by
  have hlist : (c.dropCmd m).host.cmds = c.host.cmds.filter fun x => x.uid != m.uid := by
    unfold Chip.dropCmd
    dsimp only
    split <;> rfl
  rw [Chip.cmd, hlist, List.find?_filter, Chip.cmd]
  congr 1
  funext x
  by_cases hx : x.uid = uid
  · simp [hx, Ne.symm h]
  · simp [hx]

/-- The end of another command. -/
theorem keepsCmd_finish {u : Nat} (h : u ≠ uid) (status index result count : Nat) : KeepsCmd uid c (c.finish u status index result count) := by
  unfold Chip.finish
  split
  · exact keepsCmd_of_cmds rfl
  next m hm =>
    have huid : m.uid = u := by simpa using List.find?_some hm
    split
    · exact keepsCmd_of_cmds rfl
    · split
      · exact fun x hx => ⟨x.inPath, by rw [cmd_dropCmd_other (by rw [huid]; exact h), hx]⟩
      · intro x hx
        exact filed_appendGo _ _ _ uid x (Eq.trans (cmd_updCmd_other (f := fun m => m.fixed status index result count) h fun _ => rfl) hx)

end

/-! ### FLUSH commands that end beside it -/

/-- The host's side has changed, and no command but FLUSH commands. -/
structure FlushesEnd (uid : Nat) (c c' : Chip) : Prop where
  host : HostOnly c c'
  cmd : KeepsCmd uid c c'

section
variable {uid : Nat} {c : Chip}

theorem hostOnly_dropStaged (c : Chip) (seq : Nat) : HostOnly c (c.dropStaged seq) := ⟨rfl, rfl, rfl, rfl, bytesKept_of_eq rfl rfl rfl⟩

theorem flushesEnd_settleFlush {m : Cmd} (h : m.uid ≠ uid) : FlushesEnd uid c (c.settleFlush m) := by
  unfold Chip.settleFlush
  extract_lets live ends homeless failed c₁
  have hfinish (d : Chip) (status index result count : Nat) : FlushesEnd uid d (d.finish m.uid status index result count) :=
    ⟨((TableOnly.refl d).finish ..).hostOnly, keepsCmd_finish h status index result count⟩
  split
  · exact hfinish ..
  · split
    · exact ⟨(TableOnly.refl c).hostOnly, keepsCmd_of_cmds rfl⟩
    · have hdrop : FlushesEnd uid c c₁ := by
        refine List.foldlRecOn _ _ (motive := FlushesEnd uid c) ⟨(TableOnly.refl c).hostOnly, keepsCmd_of_cmds rfl⟩ fun d hd e _ => ?_
        exact ⟨hd.host.trans (hostOnly_dropStaged ..), hd.cmd.trans (keepsCmd_of_cmds rfl)⟩
      exact ⟨hdrop.host.trans (hfinish ..).host, hdrop.cmd.trans (hfinish ..).cmd⟩

theorem flushesEnd_settleFlushes (h : ∀ x ∈ c.host.cmds, x.opcode = opFlush → x.uid ≠ uid) : FlushesEnd uid c c.settleFlushes := by
  refine List.foldlRecOn _ _ (motive := FlushesEnd uid c) ⟨(TableOnly.refl c).hostOnly, keepsCmd_of_cmds rfl⟩ fun d hd m hm => ?_
  obtain ⟨hmem, hsel⟩ := List.mem_filter.1 hm
  have hop : m.opcode = opFlush := by
    simp only [Bool.and_eq_true, beq_iff_eq] at hsel
    exact hsel.1.1.1
  have hstep := flushesEnd_settleFlush (c := d) (h m hmem hop)
  exact ⟨hd.host.trans hstep.host, hd.cmd.trans hstep.cmd⟩

end

/-! ### Stages of a MOUNT -/

/-- A stage of the MOUNT `uid` of volume `p`: only the fields `L` are written, and its qualification and its entry stay. -/
structure MountStage (p uid : Nat) (L : List Fld) (c c' : Chip) : Prop where
  kept : c.fieldsKept L c'
  qual : (c'.vol p).qual = (c.vol p).qual
  cmd : KeepsCmd uid c c'
  bytes : c.bytesKept c'

section
variable {p uid : Nat} {L L' : List Fld} {a b c : Chip}

theorem MountStage.refl (c : Chip) : MountStage p uid L c c := ⟨fieldsKept_refl _ _, rfl, keepsCmd_of_cmds rfl, bytesKept_of_eq rfl rfl rfl⟩

theorem MountStage.trans (h : MountStage p uid L a b) (h' : MountStage p uid L' b c) : MountStage p uid (L ++ L') a c :=
  ⟨fieldsKept_trans (fieldsKept_weaken (fun _ => List.mem_append_left _) h.kept) (fieldsKept_weaken (fun _ => List.mem_append_right _) h'.kept),
    h'.qual.trans h.qual, h.cmd.trans h'.cmd, bytesKept_trans h.bytes h'.bytes⟩

theorem MountStage.weaken (h : MountStage p uid L a c) (hL : ∀ g ∈ L, g ∈ L') : MountStage p uid L' a c := { h with kept := fieldsKept_weaken hL h.kept }

theorem MountStage.setFld (h : MountStage p uid L a c) {f : Fld} (hf : f ∈ L) (v : Nat) : MountStage p uid L a (c.setFld f v) where
  kept := fieldsKept_setFld f v hf h.kept
  qual := h.qual
  cmd := h.cmd.trans (keepsCmd_of_cmds rfl)
  bytes := bytesKept_trans h.bytes (bytesKept_of_eq rfl rfl rfl)

theorem MountStage.setStn (h : MountStage p uid L a c) (s : Nat) (r : StationRec) : MountStage p uid L a (c.setStn s r) where
  kept := fieldsKept_regs (setStn_regs ..) h.kept
  qual := h.qual
  cmd := h.cmd.trans (keepsCmd_of_cmds rfl)
  bytes := bytesKept_trans h.bytes (bytesKept_of_eq rfl rfl rfl)

theorem MountStage.setPair (h : MountStage p uid L a c) (q : Nat) (r : PairRec) : MountStage p uid L a (c.setPair q r) where
  kept := fieldsKept_regs rfl h.kept
  qual := h.qual
  cmd := h.cmd.trans (keepsCmd_of_cmds rfl)
  bytes := bytesKept_trans h.bytes (bytesKept_of_eq rfl rfl rfl)

theorem MountStage.loadServo (h : MountStage p uid L a c) (quick : Bool) : MountStage p uid L a (c.loadServo p quick) := by
  refine List.foldlRecOn _ _ (motive := MountStage p uid L a) ?_ fun d hd i _ => hd.setPair p _
  exact ⟨fieldsKept_regs rfl h.kept, h.qual, h.cmd.trans (keepsCmd_of_cmds rfl), bytesKept_trans h.bytes (bytesKept_of_eq rfl rfl rfl)⟩

theorem MountStage.endWriting (h : MountStage p uid L a c) (hf : WCH_CTRL_EN p ∈ L) (hflush : ∀ x ∈ c.host.cmds, x.opcode = opFlush → x.uid ≠ uid) :
    MountStage p uid L a (c.endWriting p) := by
  unfold Chip.endWriting
  split
  · exact h
  · have hend : MountStage p uid L a ((c.setVol p { c.vol p with writing := false }).setFld (WCH_CTRL_EN p) 0) := by
      have hset : MountStage p uid L a (c.setVol p { c.vol p with writing := false }) :=
        ⟨fieldsKept_regs rfl h.kept, (congrArg VolRec.qual (vol_setVol c p { c.vol p with writing := false })).trans h.qual,
          h.cmd.trans (keepsCmd_of_cmds rfl), bytesKept_trans h.bytes (bytesKept_of_eq rfl rfl rfl)⟩
      exact hset.setFld hf 0
    have hflushes := flushesEnd_settleFlushes (uid := uid) (c := (c.setVol p { c.vol p with writing := false }).setFld (WCH_CTRL_EN p) 0) hflush
    generalize (c.setVol p { c.vol p with writing := false }).setFld (WCH_CTRL_EN p) 0 = d at hend hflushes
    obtain ⟨⟨hregs, hservo, -, -, hbytes⟩, hcmd⟩ := hflushes
    exact ⟨fieldsKept_regs hregs hend.kept, by rw [Chip.vol, hservo]; exact hend.qual, hend.cmd.trans hcmd, bytesKept_trans hend.bytes hbytes⟩

theorem MountStage.pushCmd (h : MountStage p uid L a c) {q : Nat} (hf : LE_PAIR_EVENT_CMD_LOST q ∈ L) (v arg : Q) :
    MountStage p uid L a (c.pushCmd q v arg) := by
  unfold Chip.pushCmd
  dsimp only
  split
  · exact h.setPair q _
  · exact h.setFld hf 1

theorem mountStage_changeState (c : Chip) (s : Nat) {new cause : Nat} (hnew : new < 8) (hcause : cause < 32) :
    MountStage p uid (stateFields s) c (c.changeState s new cause) := by
  have h := stateChanged c s hnew hcause
  exact ⟨h.kept, by rw [Chip.vol, h.servo]; rfl, keepsCmd_of_cmds (by rw [h.host]), h.bytes⟩

/-- The fields that the speed of station `s` may write. -/
def spinFields (s : Nat) : List Fld := [LE_PAIR_EVENT_CMD_LOST (16 + s), MOT_AX_FEED_FEED (2 * s), MOT_AX_FEED_FEED (2 * s + 1)]

theorem MountStage.spinToTarget (h : MountStage p uid L a c) {s : Nat} (hL : ∀ f ∈ spinFields s, f ∈ L) : MountStage p uid L a (c.spinToTarget s) := by
  have hlost : LE_PAIR_EVENT_CMD_LOST (16 + s) ∈ L := hL _ (by simp [spinFields])
  refine List.foldlRecOn _ _ (motive := MountStage p uid L a) ((h.pushCmd hlost _ _).setStn s _) fun d hd q hq => hd.setFld (hL _ ?_) _
  simp only [List.mem_cons, List.not_mem_nil, or_false] at hq
  rcases hq with rfl | rfl <;> simp [spinFields]

end

/-! ### The level of a station -/

/-- The fields that a station's thermal level is read from. -/
def levelFields (s : Nat) : List Fld := [FLM_STATUS_UP, THH_STATUS_LEVEL, CAL_STATUS_LEVEL, CAL_PU_STATUS_LEVEL (2 * s), CAL_PU_STATUS_LEVEL (2 * s + 1)]

theorem stationLevel_kept {c c' : Chip} {s : Nat} {L : List Fld} (h : c.fieldsKept L c') (hL : ∀ f ∈ levelFields s, ∀ g ∈ L, apart f g) :
    c'.stationLevel s = c.stationLevel s := by
  have hfld (f : Fld) (hf : f ∈ levelFields s) (hfit : f.lo + f.w ≤ 64) : c'.fld f = c.fld f := h f hfit (hL f hf)
  rw [Chip.stationLevel, Chip.stationLevel, flag_eq_of_fld (hfld FLM_STATUS_UP (by simp [levelFields]) (Nat.le_of_ble_eq_true rfl)),
    hfld THH_STATUS_LEVEL (by simp [levelFields]) (Nat.le_of_ble_eq_true rfl), hfld CAL_STATUS_LEVEL (by simp [levelFields]) (Nat.le_of_ble_eq_true rfl),
    hfld (CAL_PU_STATUS_LEVEL (2 * s)) (by simp [levelFields]) (Nat.le_of_ble_eq_true rfl),
    hfld (CAL_PU_STATUS_LEVEL (2 * s + 1)) (by simp [levelFields]) (Nat.le_of_ble_eq_true rfl)]

/-! ### Fields apart -/

/-- The fields that a volume's state may write. -/
def volumeFields (p : Nat) : List Fld := [WMM_STN_PU_VOLUME_STATE (p / 2) (p % 2), WCH_CTRL_EN p]

section
variable {p : Nat}

/-- What decides whether the station may spin up lies apart from what a MOUNT writes before. -/
theorem level_apart_mount (hp : p < 16) : ∀ f ∈ WMM_PS_STATUS_ACTED :: levelFields (p / 2),
    ∀ g ∈ volumeFields p ++ (stateFields (p / 2) ++ spinFields (p / 2)), apart f g := by
  have hreg : ∀ g ∈ volumeFields p ++ (stateFields (p / 2) ++ spinFields (p / 2)),
      ∀ f ∈ WMM_PS_STATUS_ACTED :: levelFields (p / 2), f.reg ≠ g.reg := by
    simp only [volumeFields, stateFields, spinFields, levelFields, List.cons_append, List.nil_append, List.forall_mem_cons, List.not_mem_nil, false_imp_iff,
      implies_true, and_true, WMM_PS_STATUS_ACTED, WMM_PS_STATUS, FLM_STATUS_UP, FLM_STATUS, THH_STATUS_LEVEL, THH_STATUS, CAL_STATUS_LEVEL, CAL_STATUS,
      CAL_PU_STATUS_LEVEL, CAL_PU_STATUS, WMM_STN_PU_VOLUME_STATE, WMM_STN_PU, WCH_CTRL_EN, WCH_CTRL, WMM_STN_STATE_PREV, WMM_STN_STATE_STATE,
      WMM_STN_STATE_CAUSE, WMM_STN_STATE_UNCLAMP_ALLOWED, WMM_STN_TIME_TIME, WMM_STN_EVENT_STATE_CHANGE, WMM_STN_STATE, WMM_STN_TIME, WMM_STN_EVENT,
      LE_PAIR_EVENT_CMD_LOST, LE_PAIR_EVENT, MOT_AX_FEED_FEED, MOT_AX_FEED]
    omega
  exact fun f hf g hg => apart_of_reg (hreg g hg f hf)

/-- The volume's state lies apart from what a MOUNT writes after it. -/
theorem volState_apart_mount (p : Nat) : ∀ g ∈ stateFields (p / 2) ++ spinFields (p / 2) ++ [WMM_STN_STATE_MOUNT_STEP (p / 2)],
    apart (WMM_STN_PU_VOLUME_STATE (p / 2) (p % 2)) g := by
  simp only [stateFields, spinFields, List.cons_append, List.nil_append, List.forall_mem_cons, List.not_mem_nil, false_imp_iff,
    implies_true, and_true, apart, WMM_STN_PU_VOLUME_STATE, WMM_STN_PU, WMM_STN_STATE_PREV, WMM_STN_STATE_STATE, WMM_STN_STATE_MOUNT_STEP,
    WMM_STN_STATE_CAUSE, WMM_STN_STATE_UNCLAMP_ALLOWED, WMM_STN_TIME_TIME, WMM_STN_EVENT_STATE_CHANGE, WMM_STN_STATE, WMM_STN_TIME, WMM_STN_EVENT,
    LE_PAIR_EVENT_CMD_LOST, LE_PAIR_EVENT, MOT_AX_FEED_FEED, MOT_AX_FEED]
  omega

/-- What a station shows of its state lies apart from what a MOUNT writes besides. -/
theorem state_apart_mount (p : Nat) : ∀ f ∈ [WMM_STN_STATE_STATE (p / 2), WMM_STN_STATE_CAUSE (p / 2), WMM_STN_STATE_PREV (p / 2)],
    ∀ g ∈ volumeFields p ++ spinFields (p / 2) ++ [WMM_STN_STATE_MOUNT_STEP (p / 2)], apart f g := by
  simp only [volumeFields, spinFields, List.cons_append, List.nil_append, List.forall_mem_cons, List.not_mem_nil, false_imp_iff,
    implies_true, and_true, apart, WMM_STN_PU_VOLUME_STATE, WMM_STN_PU, WMM_STN_STATE_PREV, WMM_STN_STATE_STATE, WMM_STN_STATE_MOUNT_STEP,
    WMM_STN_STATE_CAUSE, WMM_STN_STATE, LE_PAIR_EVENT_CMD_LOST, LE_PAIR_EVENT, MOT_AX_FEED_FEED, MOT_AX_FEED, WCH_CTRL_EN, WCH_CTRL]
  omega

/-- The count of MOUNTs lies apart from what a MOUNT writes besides. -/
theorem mounts_apart_mount (p : Nat) : ∀ g ∈ volumeFields p ++ (stateFields (p / 2) ++ spinFields (p / 2)) ++ [WMM_STN_STATE_MOUNT_STEP (p / 2)],
    apart (WMM_STN_MOUNTS_COUNT (p / 2)) g := by
  simp only [volumeFields, stateFields, spinFields, List.cons_append, List.nil_append, List.forall_mem_cons, List.not_mem_nil, false_imp_iff,
    implies_true, and_true, apart, WMM_STN_MOUNTS_COUNT, WMM_STN_MOUNTS, WMM_STN_PU_VOLUME_STATE, WMM_STN_PU, WMM_STN_STATE_PREV, WMM_STN_STATE_STATE,
    WMM_STN_STATE_MOUNT_STEP, WMM_STN_STATE_CAUSE, WMM_STN_STATE_UNCLAMP_ALLOWED, WMM_STN_TIME_TIME, WMM_STN_EVENT_STATE_CHANGE, WMM_STN_STATE,
    WMM_STN_TIME, WMM_STN_EVENT, LE_PAIR_EVENT_CMD_LOST, LE_PAIR_EVENT, MOT_AX_FEED_FEED, MOT_AX_FEED, WCH_CTRL_EN, WCH_CTRL]
  omega

end

/-! ### The qualification begins -/

/-- The volume qualifies, its pair has the servo's values, and nothing has ended the qualification. -/
def Chip.qualBegun (c : Chip) (p : Nat) (q : Qual) : Chip :=
  let c := (c.setVol p { c.vol p with qual := some q }).loadServo p q.quick
  (c.setVolState p vQualifying).setStn (p / 2) { c.stn (p / 2) with ended := false }

/-- The station leaves its rest and spins up. -/
def Chip.spunUp (c : Chip) (s : Nat) : Chip := ((c.changeState s sSpinup cauMount).motionCmd s 0x04 3).spinToTarget s

/-- A spin-up is parked again where the park sequencer has acted, or where the station is too hot. -/
def Chip.spinKept (c : Chip) (s : Nat) : Chip :=
  if c.flag WMM_PS_STATUS_ACTED then c.psPark s else if c.stationLevel s = 3 then c.park s cauThermal else c

section
variable {c : Chip} {p uid : Nat}

theorem qualBegun_stage (q : Qual) (hflush : ∀ x ∈ c.host.cmds, x.opcode = opFlush → x.uid ≠ uid) :
    MountStage p uid (volumeFields p) (c.setVol p { c.vol p with qual := some q }) (c.qualBegun p q) ∧ (c.qualBegun p q).volState p = vQualifying := by
  have hload : MountStage p uid (volumeFields p) (c.setVol p { c.vol p with qual := some q })
      ((c.setVol p { c.vol p with qual := some q }).loadServo p q.quick) := (MountStage.refl _).loadServo _
  have hcmds : ((c.setVol p { c.vol p with qual := some q }).loadServo p q.quick).host.cmds = c.host.cmds :=
    List.foldlRecOn _ _ (motive := fun d : Chip => d.host.cmds = c.host.cmds) rfl fun _ hd _ _ => hd
  unfold Chip.qualBegun
  dsimp only
  generalize (c.setVol p { c.vol p with qual := some q }).loadServo p q.quick = d at hload hcmds
  have hset := hload.setFld (f := WMM_STN_PU_VOLUME_STATE (p / 2) (p % 2)) (by simp [volumeFields]) vQualifying
  have hstate : (d.setFld (WMM_STN_PU_VOLUME_STATE (p / 2) (p % 2)) vQualifying).volState p = vQualifying := fld_setFld_same _ _ _ (Nat.le_of_ble_eq_true rfl)
  have hflush' : ∀ x ∈ (d.setFld (WMM_STN_PU_VOLUME_STATE (p / 2) (p % 2)) vQualifying).host.cmds, x.opcode = opFlush → x.uid ≠ uid := by
    show ∀ x ∈ d.host.cmds, _
    rwa [hcmds]
  have heq : d.setVolState p vQualifying = (d.setFld (WMM_STN_PU_VOLUME_STATE (p / 2) (p % 2)) vQualifying).endWriting p := rfl
  rw [heq]
  have hend := MountStage.endWriting (p := p) (uid := uid) (L := [WCH_CTRL_EN p]) (.refl (d.setFld (WMM_STN_PU_VOLUME_STATE (p / 2) (p % 2)) vQualifying))
    (by simp) hflush'
  have hwhole := hset.endWriting (by simp [volumeFields]) hflush'
  generalize (d.setFld (WMM_STN_PU_VOLUME_STATE (p / 2) (p % 2)) vQualifying).endWriting p = e at hend hwhole
  refine ⟨hwhole.setStn _ _, ?_⟩
  rw [Chip.volState, fld_setStn, hend.kept _ (Nat.le_of_ble_eq_true rfl) (by simpa using (volState_apart_own p).1)]
  exact hstate

theorem spunUp_stage (c : Chip) (p s : Nat) : MountStage p uid (spinFields s) (c.changeState s sSpinup cauMount) (c.spunUp s) :=
  ((MountStage.refl _).pushCmd (by simp [spinFields]) _ _).spinToTarget fun _ h => h

/-- A qualification of a disc in its place, while nothing stands in the way of a spin-up. -/
theorem startQual_spins (hst : c.stState (p / 2) = sLoaded ∨ c.stState (p / 2) = sSafe) (writing : Bool)
    (hacted : ∀ q : Qual, ((c.qualBegun p q).spunUp (p / 2)).flag WMM_PS_STATUS_ACTED = false)
    (hlevel : ∀ q : Qual, ((c.qualBegun p q).spunUp (p / 2)).stationLevel (p / 2) ≠ 3) :
    ∃ q : Qual, c.startQual p uid writing = ((c.qualBegun p q).spunUp (p / 2)).showStep (p / 2) ∧ q.waiters = [uid] ∧ q.writing = writing ∧ q.step = 1 := by
  have hfirst : ¬ (c.stState (p / 2) = sQualify ∨ c.stState (p / 2) = sMounted) := by
    rcases hst with h | h <;> simp [h, sLoaded, sSafe, sQualify, sMounted]
  refine ⟨{ step := 1, waiters := [uid], writing := writing, quick := c.quickMount p }, ?_, rfl, rfl, rfl⟩
  have hstep : ¬ (1 : Nat) = 2 := by decide
  have heq : c.startQual p uid writing =
      (((c.qualBegun p { step := 1, waiters := [uid], writing := writing, quick := c.quickMount p }).spunUp (p / 2)).spinKept (p / 2)).showStep (p / 2) := by
    unfold Chip.startQual
    simp only [if_neg hfirst, if_pos hst, if_neg hstep]
    rfl
  rw [heq, Chip.spinKept, if_neg (by simp [hacted]), if_neg (hlevel _)]

/-- All that a MOUNT writes until the station spins. -/
theorem spun_stage (q : Qual) (hflush : ∀ x ∈ c.host.cmds, x.opcode = opFlush → x.uid ≠ uid) :
    MountStage p uid (volumeFields p ++ (stateFields (p / 2) ++ spinFields (p / 2))) (c.setVol p { c.vol p with qual := some q })
      ((c.qualBegun p q).spunUp (p / 2)) :=
  (qualBegun_stage q hflush).1.trans ((mountStage_changeState _ _ (by decide) (by decide)).trans (spunUp_stage _ _ _))

/-- What the qualification of a disc in its place leaves. -/
theorem startQual_spec (hp : p < 16) (hst : c.stState (p / 2) = sLoaded ∨ c.stState (p / 2) = sSafe) (hacted : c.flag WMM_PS_STATUS_ACTED = false)
    (hlevel : c.stationLevel (p / 2) ≠ 3) (hflush : ∀ x ∈ c.host.cmds, x.opcode = opFlush → x.uid ≠ uid) (writing : Bool) :
    let c' := c.startQual p uid writing
    c'.stState (p / 2) = sSpinup ∧ c'.fld (WMM_STN_STATE_CAUSE (p / 2)) = cauMount ∧ c'.fld (WMM_STN_STATE_PREV (p / 2)) = c.stState (p / 2) ∧
      c'.volState p = vQualifying ∧ (∃ q, (c'.vol p).qual = some q ∧ q.waiters = [uid] ∧ q.writing = writing ∧ q.step = 1) ∧
      c'.fld (WMM_STN_MOUNTS_COUNT (p / 2)) = c.fld (WMM_STN_MOUNTS_COUNT (p / 2)) ∧ KeepsCmd uid c c' ∧ c.bytesKept c' := by
  have hspun (q : Qual) := spun_stage (c := c) (p := p) (uid := uid) q hflush
  have hflag (q : Qual) : ((c.qualBegun p q).spunUp (p / 2)).flag WMM_PS_STATUS_ACTED = false :=
    (flag_eq_of_fld ((hspun q).kept _ (Nat.le_of_ble_eq_true rfl) (level_apart_mount hp _ (by simp)))).trans hacted
  have hcool (q : Qual) : ((c.qualBegun p q).spunUp (p / 2)).stationLevel (p / 2) ≠ 3 := by
    rw [stationLevel_kept (hspun q).kept fun f hf => level_apart_mount hp f (List.mem_cons_of_mem _ hf)]
    exact hlevel
  obtain ⟨q, heq, hwaiters, hwriting, hstep⟩ := startQual_spins (uid := uid) hst writing hflag hcool
  obtain ⟨hbegun, hvol⟩ := qualBegun_stage (c := c) (p := p) (uid := uid) q hflush
  have hspin := spunUp_stage (uid := uid) (c.qualBegun p q) p (p / 2)
  have hchanged := stateChanged (c.qualBegun p q) (p / 2) (new := sSpinup) (cause := cauMount) (by decide) (by decide)
  have hwhole := hspun q
  obtain ⟨v, hshow⟩ := showStep_eq ((c.qualBegun p q).spunUp (p / 2)) (p / 2)
  have hprev : (c.qualBegun p q).stState (p / 2) = c.stState (p / 2) :=
    hbegun.kept _ (Nat.le_of_ble_eq_true rfl) fun g hg => state_apart_mount p _ (by simp) g (by simp [hg])
  dsimp only
  rw [heq, hshow]
  generalize (c.qualBegun p q).changeState (p / 2) sSpinup cauMount = d at hspin hchanged
  generalize (c.qualBegun p q).spunUp (p / 2) = e at hspin hwhole
  have hmark : MountStage p uid [WMM_STN_STATE_MOUNT_STEP (p / 2)] e (e.setFld (WMM_STN_STATE_MOUNT_STEP (p / 2)) v) :=
    (MountStage.refl e).setFld (List.mem_singleton.2 rfl) v
  have hlast := hspin.trans hmark
  have hall := hwhole.trans hmark
  generalize e.setFld (WMM_STN_STATE_MOUNT_STEP (p / 2)) v = f at hlast hall
  have hstate (g : Fld) (hg : g ∈ [WMM_STN_STATE_STATE (p / 2), WMM_STN_STATE_CAUSE (p / 2), WMM_STN_STATE_PREV (p / 2)]) (hfit : g.lo + g.w ≤ 64) :
      f.fld g = d.fld g :=
    hlast.kept g hfit fun k hk => state_apart_mount p g hg k (by
      simp only [List.mem_append] at hk ⊢
      tauto)
  refine ⟨(hstate _ (by simp) (Nat.le_of_ble_eq_true rfl)).trans hchanged.state, (hstate _ (by simp) (Nat.le_of_ble_eq_true rfl)).trans hchanged.shown,
    (hstate _ (by simp) (Nat.le_of_ble_eq_true rfl)).trans (hchanged.prev.trans hprev), ?_, ⟨q, ?_, hwaiters, hwriting, hstep⟩, ?_, ?_, ?_⟩
  · refine (hlast.kept _ (Nat.le_of_ble_eq_true rfl) fun k hk => volState_apart_mount p k ?_).trans
      ((hchanged.kept _ (Nat.le_of_ble_eq_true rfl) fun k hk => volState_apart_mount p k ?_).trans hvol)
    · simp only [List.mem_append] at hk ⊢
      tauto
    · simp only [List.mem_append]
      tauto
  · exact hall.qual.trans (congrArg VolRec.qual (vol_setVol c p { c.vol p with qual := some q }))
  · exact hall.kept _ (Nat.le_of_ble_eq_true rfl) (mounts_apart_mount p)
  · exact (keepsCmd_of_cmds (a := c) rfl).trans hall.cmd
  · exact bytesKept_trans (bytesKept_of_eq rfl rfl rfl) hall.bytes

end

/-! ### MOUNT -/

/-- A MOUNT of a volume that is not mounted, in a station with its disc in its place, begins a qualification. -/
theorem decideMount_starts {c : Chip} {y : Cmd} {uid : Nat} (hcmd : c.cmd uid = some y) (hpll : c.afe.failed = false)
    (hst : c.stState (y.volume / 2) = sLoaded ∨ c.stState (y.volume / 2) = sSafe) (hcs : (c.reg WMM_CS).getLsbD y.volume = true)
    (hvol : c.volState y.volume = vNotMounted) (hqual : (c.vol y.volume).qual = none) :
    c.decideMount uid = (c.updCmd uid fun m => { m with wait := .station }).startQual y.volume uid (y.flags.testBit 0) := by
  have hmoves : ∀ st, st = sLoaded ∨ st = sSafe → st ≠ sFault ∧ st ≠ sEmpty ∧ st ≠ sParking := by
    rintro st (rfl | rfl) <;> decide
  obtain ⟨hfault, hempty, hpark⟩ := hmoves _ hst
  have hnot : c.mounted y.volume = false := by simp [Chip.mounted, hvol, vNotMounted, vMountedRead, vMountedWrite]
  have hqual' : ((c.updCmd uid fun m => { m with wait := .station }).vol y.volume).qual = none := hqual
  unfold Chip.decideMount
  rw [hcmd]
  dsimp only
  rw [if_neg (by simp [hfault, hpll]), if_neg hempty, if_neg (by simp [hpark, hvol, vNotMounted, vUnmounting]), if_neg (by simp [hcs]),
    if_neg (by simp [hvol, vNotMounted, vMountedWrite, vMountedRead]), if_neg (by simp [hvol, vNotMounted, vMountedRead]), if_neg (by simp [hnot]), hqual']

section
variable {s : State} {n tag : Nat} {m : Cmd}

/-- A MOUNT is counted and decided while the station can be used. -/
theorem mount_eq (h : Startable s.chip n tag opMount m) (hup : s.chip.flag FLM_STATUS_UP = true) (hpll : s.chip.afe.failed = false) :
    exec (.mount n tag) s = s.on fun c =>
      (((c.begin m).updCmd m.uid fun m => { m with acted := true }).inc (WMM_STN_MOUNTS_COUNT (m.volume / 2))).decideMount m.uid := by
  have hbegan := began h
  have hready : (s.chip.begin m).stationsOut = false := by
    have hpll' : (s.chip.begin m).afe.failed = false := (congrArg (·.afe.failed) hbegan.table).trans hpll
    rw [Chip.stationsOut, flag_eq_of_fld (fld_of_regs hbegan.regs _), hup, hpll']
    rfl
  show execMount n tag s = _
  simp only [execMount, State.on, h.run, hready, Bool.false_eq_true, if_false]

/-- No FLUSH is taken for a command of another opcode. -/
theorem flush_apart_begin {c : Chip} {op : Nat} (h : Startable c n tag op m) (hop : op ≠ opFlush) :
    ∀ x ∈ (c.begin m).host.cmds, x.opcode = opFlush → x.uid ≠ m.uid := by
  obtain ⟨ws, cis, k, heq⟩ := begin_eq c m
  rw [heq]
  intro x hx hflush huid
  obtain ⟨z, hz, rfl⟩ := List.mem_map.1 (show x ∈ changed c.host.cmds m.uid fun m => { m with started := true } from hx)
  have hzm : z.uid = m.uid := by
    by_contra hne
    rw [if_neg hne] at huid
    exact hne huid
  obtain rfl := h.alone z hz hzm
  rw [if_pos rfl] at hflush
  exact hop (h.opcode.symm.trans hflush)

theorem flush_apart_updCmd {c : Chip} {uid u : Nat} (h : ∀ x ∈ c.host.cmds, x.opcode = opFlush → x.uid ≠ uid) {f : Cmd → Cmd}
    (hf : ∀ x, (f x).uid = x.uid ∧ (f x).opcode = x.opcode) : ∀ x ∈ (c.updCmd u f).host.cmds, x.opcode = opFlush → x.uid ≠ uid := by
  intro x hx hflush
  obtain ⟨z, hz, rfl⟩ := List.mem_map.1 (show x ∈ c.host.cmds.map _ from hx)
  by_cases hzu : z.uid = u
  · rw [if_pos hzu, (hf z).2] at hflush
    rw [if_pos hzu, (hf z).1]
    exact h z hz hflush
  · rw [if_neg hzu] at hflush ⊢
    exact h z hz hflush

/-- The count of MOUNTs lies apart from what decides a MOUNT. -/
theorem mounts_apart_decides (hp : m.volume < 16) : ∀ f ∈ WMM_STN_STATE_STATE (m.volume / 2) :: WMM_STN_PU_VOLUME_STATE (m.volume / 2) (m.volume % 2) ::
    WMM_PS_STATUS_ACTED :: levelFields (m.volume / 2), apart f (WMM_STN_MOUNTS_COUNT (m.volume / 2)) := by
  simp only [levelFields, List.forall_mem_cons, List.not_mem_nil, false_imp_iff, implies_true, and_true, apart, WMM_STN_MOUNTS_COUNT, WMM_STN_MOUNTS,
    WMM_PS_STATUS_ACTED, WMM_PS_STATUS, FLM_STATUS_UP, FLM_STATUS, THH_STATUS_LEVEL, THH_STATUS, CAL_STATUS_LEVEL, CAL_STATUS, CAL_PU_STATUS_LEVEL,
    CAL_PU_STATUS, WMM_STN_PU_VOLUME_STATE, WMM_STN_PU, WMM_STN_STATE_STATE, WMM_STN_STATE]
  omega

theorem completes_mount (h : Startable s.chip n tag opMount m) (hup : s.chip.flag FLM_STATUS_UP = true) (hpll : s.chip.afe.failed = false)
    (hp : m.volume < 16) (hst : s.chip.stState (m.volume / 2) = sLoaded ∨ s.chip.stState (m.volume / 2) = sSafe)
    (hcs : (s.chip.reg WMM_CS).getLsbD m.volume = true) (hvol : s.chip.volState m.volume = vNotMounted) (hqual : (s.chip.vol m.volume).qual = none)
    (hacted : s.chip.flag WMM_PS_STATUS_ACTED = false) (hlevel : s.chip.stationLevel (m.volume / 2) ≠ 3) : Completes (.mount n tag) s fun c =>
      c.stState (m.volume / 2) = sSpinup ∧ c.fld (WMM_STN_STATE_CAUSE (m.volume / 2)) = cauMount ∧
      c.fld (WMM_STN_STATE_PREV (m.volume / 2)) = s.chip.stState (m.volume / 2) ∧ c.volState m.volume = vQualifying ∧
      (∃ q, (c.vol m.volume).qual = some q ∧ q.waiters = [m.uid] ∧ q.writing = m.flags.testBit 0 ∧ q.step = 1) ∧
      c.fld (WMM_STN_MOUNTS_COUNT (m.volume / 2)) =
        min (s.chip.fld (WMM_STN_MOUNTS_COUNT (m.volume / 2)) + 1) (2 ^ (WMM_STN_MOUNTS_COUNT (m.volume / 2)).w - 1) ∧
      (∃ y, c.cmd m.uid = some y ∧ y.status = none ∧ y.wait = .station) ∧ s.chip.bytesKept c := by
  refine completes_on (mount_eq h hup hpll) ?_
  have hact := acting h
  have hflush := flush_apart_updCmd (u := m.uid) (flush_apart_begin h (by decide)) (f := fun m => { m with acted := true }) fun _ => ⟨rfl, rfl⟩
  generalize (s.chip.begin m).updCmd m.uid (fun m => { m with acted := true }) = e at hact hflush
  have hcount := fld_inc_same e (WMM_STN_MOUNTS_COUNT (m.volume / 2)) (Nat.le_of_ble_eq_true rfl)
  rw [fld_of_regs hact.regs] at hcount
  have hkept : s.chip.fieldsKept [WMM_STN_MOUNTS_COUNT (m.volume / 2)] (e.inc (WMM_STN_MOUNTS_COUNT (m.volume / 2))) :=
    fieldsKept_inc _ (by simp) (fieldsKept_of_regs hact.regs)
  have hcs' : ((e.inc (WMM_STN_MOUNTS_COUNT (m.volume / 2))).reg WMM_CS).getLsbD m.volume = true := by
    rw [Chip.inc, Chip.add, reg_setFld_other _ _ _ _ (by simp only [WMM_CS, WMM_STN_MOUNTS_COUNT, WMM_STN_MOUNTS]; omega), Chip.reg, hact.regs]
    exact hcs
  have hcmd : (e.inc (WMM_STN_MOUNTS_COUNT (m.volume / 2))).cmd m.uid = some m.acts := hact.cmd
  have hhost : (e.inc (WMM_STN_MOUNTS_COUNT (m.volume / 2))).host = e.host := rfl
  have hservo : (e.inc (WMM_STN_MOUNTS_COUNT (m.volume / 2))).servo = s.chip.servo := congrArg (·.servo) hact.table
  have hpll' : (e.inc (WMM_STN_MOUNTS_COUNT (m.volume / 2))).afe.failed = false := (congrArg (·.afe.failed) hact.table).trans hpll
  have hbytes : s.chip.bytesKept (e.inc (WMM_STN_MOUNTS_COUNT (m.volume / 2))) := bytesKept_trans hact.bytes (bytesKept_of_eq rfl rfl rfl)
  generalize e.inc (WMM_STN_MOUNTS_COUNT (m.volume / 2)) = d at hcount hkept hcs' hcmd hhost hservo hpll' hbytes
  have hsame (f : Fld) (hf : f ∈ WMM_STN_STATE_STATE (m.volume / 2) :: WMM_STN_PU_VOLUME_STATE (m.volume / 2) (m.volume % 2) ::
      WMM_PS_STATUS_ACTED :: levelFields (m.volume / 2)) (hfit : f.lo + f.w ≤ 64) : d.fld f = s.chip.fld f :=
    hkept f hfit (by simpa using mounts_apart_decides hp f hf)
  have hst' : d.stState (m.volume / 2) = s.chip.stState (m.volume / 2) := hsame _ (by simp) (Nat.le_of_ble_eq_true rfl)
  have hlevel' : d.stationLevel (m.volume / 2) ≠ 3 := by
    rw [stationLevel_kept hkept fun f hf => by simpa using mounts_apart_decides hp f (by simp [hf])]
    exact hlevel
  have hqual' : (d.vol m.volume).qual = none := by rw [Chip.vol, hservo]; exact hqual
  have hvol' : d.volState m.volume = vNotMounted := (hsame _ (by simp) (Nat.le_of_ble_eq_true rfl)).trans hvol
  rw [← hst'] at hst
  rw [decideMount_starts hcmd hpll' hst hcs' hvol' hqual']
  have hwait : (d.updCmd m.uid fun m => { m with wait := .station }).cmd m.uid = some { m.acts with wait := .station } :=
    found_changed (f := fun m => { m with wait := .station }) hcmd rfl
  obtain ⟨hstate, hcause, hprev, hvols, hq, hmounts, hkeeps, hkept'⟩ := startQual_spec (c := d.updCmd m.uid fun m => { m with wait := .station })
    (uid := m.uid) hp hst ((flag_eq_of_fld (hsame WMM_PS_STATUS_ACTED (by simp) (Nat.le_of_ble_eq_true rfl))).trans hacted) hlevel'
    (flush_apart_updCmd (by rw [hhost]; exact hflush) fun _ => ⟨rfl, rfl⟩) (m.flags.testBit 0)
  obtain ⟨b, hb⟩ := hkeeps _ hwait
  exact ⟨hstate, hcause, hprev.trans hst', hvols, hq, hmounts.trans hcount, ⟨_, hb, h.status, rfl⟩,
    bytesKept_trans hbytes (bytesKept_trans (bytesKept_of_eq rfl rfl rfl) hkept')⟩

end

/-! ### O52 -/

/-- Settles O52: a command of a volume or a station is its entry's change and then what the station does of itself: a spin-up, a park, a reset, a rule of
the clamp. -/
theorem hostVolumes : Obligations.HostVolumes := by
  unfold Obligations.HostVolumes
  intro s n tag m hup hpll
  refine ⟨⟨fun h hp hst hcs hvol hqual hacted hlevel => completes_mount (startable h) hup hpll hp hst hcs hvol hqual hacted hlevel,
    fun h hp hcmds hstaged hended hvol hwriting hother hst hidle =>
      completes_unmount (startable h) hup hpll hp hcmds hstaged hended hvol hwriting hother hst hidle,
    fun h hcmds hstaged hended hvol => ⟨completes_closed (startable h) hup hpll hvol,
      completes_closes (startable h) hup hpll hvol hcmds hstaged hended⟩⟩,
    fun h hx => ⟨fun haction => ⟨fun hst => ?_, fun hst => ?_⟩, fun haction hst => ?_, fun haction hst => ?_, fun haction => ?_, fun haction => ?_,
      fun haction hst huids hcal => ?_⟩⟩
  · refine completes_stationRow (startable h) hup hpll hx haction (by decide) rfl (by decide) fun e he => ?_
    obtain ⟨hcauses, hwaiters, ⟨y, hy, hopen, hwait⟩, hregs, hbytes⟩ := hostPark_joins he hst
    exact ⟨hcauses, hwaiters, ⟨y, hy, hopen.trans (startable h).status, hwait⟩, hregs, hbytes⟩
  · exact completes_stationRow (startable h) hup hpll hx haction (by decide) rfl (by decide) fun e he => hostPark_nothing (startable h) he hst
  · refine completes_stationRow (startable h) hup hpll hx haction (by decide) rfl (by decide) fun e he => ?_
    rw [← he.stState] at hst
    exact clamped_ends (startable h) he hst
  · refine completes_stationRow (startable h) hup hpll hx haction (by decide) rfl (by decide) fun e he => ?_
    rw [← he.stState] at hst
    exact unclamped_ends (startable h) he hst
  · exact completes_stationRow (startable h) hup hpll hx haction (by decide) rfl (by decide) fun e he => quiet_bit (startable h) he true
  · exact completes_stationRow (startable h) hup hpll hx haction (by decide) rfl (by decide) fun e he => quiet_bit (startable h) he false
  · refine completes_stationRow (startable h) hup hpll hx haction (by decide) rfl (by decide) fun e he => ?_
    have hwait := he.updCmd (f := fun m => { m with wait := .station }) rfl
    have hsup : e.sup = s.chip.sup := congrArg (·.sup) he.table
    rw [← hwait.stState] at hst
    obtain ⟨hends, hbrake, hothers⟩ := stationReset_ends hx hwait.cmd (startable h).status (startable h).silent (startable h).mark rfl rfl hst
      (by rw [hwait.stn]; exact huids) fun p hp => by
        obtain ⟨hacq, hcycle⟩ := hcal p hp
        exact ⟨(fld_of_regs hwait.regs _).trans hcycle, (congrArg CalRec.acqBy (cal_of_sup hsup p)).trans hacq⟩
    exact ⟨hends, hbrake, fun y _ hy => (hothers y hy).trans (hwait.stState y)⟩

end Sys2Proof.Machine
end
